-- ==== Sys2Proof/Word.lean ====
section
/-! DEFINITION. The word types: a register is 32 bits wide (R10), frames and records are bytes. -/

namespace Sys2Proof

/-- R10: a register word. -/
abbrev Word := BitVec 32

/-- One byte of a frame, a record or a memory. -/
abbrev Byte := BitVec 8

/-- Cell index, 0–1,023 (R16). -/
abbrev CellIx := Fin 1024
/-- Ring or cluster number, 0–7 (R16). -/
abbrev RingIx := Fin 8
/-- Management session, 0–7 (R462). -/
abbrev SessIx := Fin 8
/-- Lane 0 A, 1 B, 2 C (R274). -/
abbrev LaneIx := Fin 3
/-- Synchronisation or metering point, 0–8 (R159, R256). -/
abbrev PointIx := Fin 9
/-- Power domain, 0–20 (R414). -/
abbrev DomIx := Fin 21
/-- Auxiliary leg, 0–23. -/
abbrev LegIx := Fin 24
/-- Comparator channel, 0–35 (R390). -/
abbrev CmpIx := Fin 36
/-- Bitstream channel, 0–11 (R397). -/
abbrev BsiIx := Fin 12
/-- Record-store drive, 0–3 (R315). -/
abbrev DriveIx := Fin 4

end Sys2Proof
end

