-- ==== Sys2Proof/Frames.lean ====
section
/-! DEFINITION. The messages that reach the module from outside, as the operands of its commands: Ethernet frames of
the process bus and station bus (R229–R254), with the fields the spec names. -/

namespace Sys2Proof

/-- R231: an Ethernet frame: the port it arrived on, its frame check, its redundancy trailer (LAN B and sequence
number), its MAC addresses, and whether it is addressed to its receiver alone. -/
structure EthHead where
  port  : Fin 4
  fcsOk : Bool
  rct   : Option (Bool × Nat)
  src   : Nat
  dst   : Nat
  alone : Bool
  /-- R232: an HSR supervision frame. -/
  sup   : Bool
  deriving DecidableEq, Repr, Inhabited

/-- R237: the quality of a channel: validity 0 good, 1 invalid, 2 questionable, and the flags the module judges. -/
structure Quality where
  validity     : Nat
  test         : Bool
  overflow     : Bool
  outOfRange   : Bool
  inconsistent : Bool
  deriving DecidableEq, Repr, Inhabited

/-- R234: one ASDU of a sampled-value frame. -/
structure SvAsdu where
  svId     : List Byte
  confRev  : Nat
  smpCnt   : Nat
  smpSynch : Nat
  gmId     : Option Nat
  chans    : List (Int × Quality)
  deriving DecidableEq, Repr, Inhabited

/-- R234, R236: a sampled-value frame. -/
structure SvFrame where
  head   : EthHead
  appId  : Nat
  sim    : Bool
  noAsdu : Nat
  asdus  : List SvAsdu
  /-- R326: the frame's bytes as received. -/
  raw    : List Byte
  deriving DecidableEq, Repr, Inhabited

/-- R247: one member of a GOOSE dataset. A FLOAT32 is its 32-bit pattern; a quality is its validity. -/
inductive GMember where
  | bool (b : Bool)
  | dbpos (v : Nat)
  | int (v : Int)
  | float (bits : Nat)
  | octets (l : List Byte)
  | quality (q : Quality)
  deriving DecidableEq, Repr, Inhabited

/-- R248: a GOOSE frame; timeAllowedToLive in ms. -/
structure GooseFrame where
  head    : EthHead
  appId   : Nat
  sim     : Bool
  test    : Bool
  ndsCom  : Bool
  ref     : List Byte
  datSet  : List Byte
  confRev : Nat
  entries : Nat
  stNum   : Nat
  sqNum   : Nat
  tal     : Nat
  members : List GMember
  /-- R326: the frame's bytes as received. -/
  raw     : List Byte
  deriving DecidableEq, Repr, Inhabited

/-- R48, R51, R54: an Announce message. -/
structure Announce where
  domain      : Nat
  priority1   : Nat
  clockClass  : Nat
  accuracy    : Nat
  variance    : Nat
  priority2   : Nat
  gmId        : Nat
  steps       : Nat
  traceable   : Bool
  utcOffset   : Int
  leap61      : Bool
  leap59      : Bool
  deriving DecidableEq, Repr, Inhabited

/-- R462–R464: what comes with a request frame: the port it arrived on, its source address and port (UDP) or client
identifier (I²C), the session it names, TAG and SEQ. -/
structure MHead where
  i2c     : Bool
  bind    : Nat
  session : Nat
  tag     : Nat
  seq     : Nat
  deriving DecidableEq, Repr, Inhabited

/-- R276, R278: a word of a cycle on which lanes disagree: the voter (0 VA, 1 VB, 2 VL), the word's index, the lanes
whose word differs from the value forwarded (bit 0 A, 1 B, 2 C), and the two values. -/
structure LaneDis where
  voter  : Fin 3
  word   : Nat
  lanes  : Fin 8
  values : BitVec 64 × BitVec 64
  deriving DecidableEq, Repr, Inhabited

/-- R276, R158: what the lanes report at an input freeze: the words of the cycle on which they disagree, and each lane
and memory in which an error was corrected. -/
structure LaneReport where
  dis  : List LaneDis
  corr : List (Nat × Nat)
  deriving DecidableEq, Repr, Inhabited

/-- R391: a comparator channel and the level at its input. -/
structure CmpLevel where
  c : Fin 36
  v : Nat
  deriving DecidableEq, Repr, Inhabited

/-- R439, R490: the straps as they are sampled. -/
structure Straps where
  bootMon : Bool
  testEn  : Bool
  deriving DecidableEq, Repr, Inhabited

/-- R336: what the drives answer to the reads of one fetch, bit d for drive d: those whose read fails, and those of them
whose retry ends in an error too. -/
structure ReadFail where
  fail : Fin 16
  hard : Fin 16
  deriving DecidableEq, Repr, Inhabited

/-- R322: what a valid superblock of a drive says; `front` gives the durable frontier and the oldest retained sequence of
each stream. -/
structure Superblock where
  storeId : Nat
  gen     : Nat
  layout  : Nat
  pair    : Nat
  nseg    : Nat
  head    : Nat
  time    : Nat
  front   : List (Nat × Nat)
  deriving DecidableEq, Repr, Inhabited

/-- R316, R317: what a drive's identification finds: link width (0 none, 1 x2, 2 x4), Gen4, MQES, I/O queue pairs
granted, namespace 1 as R315 asks, its bytes, a volatile write cache, and whether it was disabled and confirmed. -/
structure DriveId where
  width   : Nat
  gen4    : Bool
  mqes    : Nat
  queues  : Nat
  nsOk    : Bool
  bytes   : Nat
  vwc     : Bool
  wceOff  : Bool
  super   : Option Superblock
  deriving DecidableEq, Repr, Inhabited

end Sys2Proof
end

