-- ==== Sys2Proof/Machine/Map.lean ====
section
/-! DEFINITION. Sparse tables in one canonical form: keys strictly rising, no entry equal to what an unlisted key
reads as. The register file and every per-index table of the state are held so. -/

namespace Sys2Proof.Machine

/-- What the table holds at `k`: the listed value, or `d` when `k` is not listed. -/
def Map.get {K V : Type} [DecidableEq K] (d : V) : List (K × V) → K → V
  | [], _ => d
  | (k', v) :: r, k => if k' = k then v else Map.get d r k

/-- `m` with `k` listed as `v`. -/
def Map.ins {K V : Type} [DecidableEq K] (lt : K → K → Bool) (k : K) (v : V) : List (K × V) → List (K × V)
  | [] => [(k, v)]
  | (k', v') :: r =>
    if k' = k then (k, v) :: r
    else if lt k k' then (k, v) :: (k', v') :: r
    else (k', v') :: Map.ins lt k v r

/-- `m` with `k` unlisted. -/
def Map.del {K V : Type} [DecidableEq K] (k : K) : List (K × V) → List (K × V)
  | [] => []
  | (k', v') :: r => if k' = k then Map.del k r else (k', v') :: Map.del k r

/-- `m` with `v` at `k`, keeping the canonical form: the value an unlisted key reads as is not listed. -/
def Map.put {K V : Type} [DecidableEq K] [DecidableEq V] (lt : K → K → Bool) (d : V) (m : List (K × V)) (k : K)
    (v : V) : List (K × V) :=
  if v = d then Map.del k m else Map.ins lt k v m

/-- Keys strictly rising. -/
def Map.rising {K V : Type} (lt : K → K → Bool) : List (K × V) → Bool
  | [] => true
  | [_] => true
  | a :: b :: r => lt a.1 b.1 && Map.rising lt (b :: r)

/-- The canonical form for defaults given by `d`. -/
def Map.wf {K V : Type} [DecidableEq V] (lt : K → K → Bool) (d : K → V) (m : List (K × V)) : Bool :=
  Map.rising lt m && m.all fun e => decide (e.2 ≠ d e.1)

/-- A table keyed by numbers. -/
abbrev Tbl (α : Type) := List (Nat × α)

/-- The order of number keys. -/
def natLt (a b : Nat) : Bool := decide (a < b)

/-- The entry of a table at an index (the type's default when unlisted). -/
def Tbl.get {α : Type} [Inhabited α] (m : Tbl α) (k : Nat) : α := Map.get default m k

/-- A table with the entry at an index replaced. -/
def Tbl.set {α : Type} [Inhabited α] [DecidableEq α] (m : Tbl α) (k : Nat) (v : α) : Tbl α :=
  Map.put natLt default m k v

end Sys2Proof.Machine
end

