-- ==== Sys2Proof/Machine/Reg.lean ====
section
/-! DEFINITION. The shape of the register file: register names, bit fields, map rows and access codes (R10–R14). -/

namespace Sys2Proof.Machine

/-- A register of the module: the number of its map row and up to two indices. -/
structure Reg where
  id : Nat
  i  : Nat
  j  : Nat
  deriving DecidableEq, Repr, Inhabited

/-- The order in which the register file lists registers. -/
def Reg.lt (a b : Reg) : Bool :=
  decide (a.id < b.id) || (decide (a.id = b.id) &&
    (decide (a.i < b.i) || (decide (a.i = b.i) && decide (a.j < b.j))))

/-- A bit field of a register: lowest bit and width. -/
structure Fld where
  reg : Reg
  lo  : Nat
  wd  : Nat
  deriving DecidableEq, Repr, Inhabited

/-- R14: the access codes. -/
inductive Acc where
  | ro | rw | wo | w1c | w1s | rwl | rwp
  deriving DecidableEq, Repr, Inhabited

/-- The power domain of a register: a fixed one, or that of the ring its first index names (R479). -/
inductive DomOf where
  | fixed (d : Nat)
  | ring
  deriving DecidableEq, Repr, Inhabited

/-- One row of a register map: place, access code and accepted range of a field. -/
structure FieldRow where
  lo  : Nat
  wd  : Nat
  acc : Acc
  mn  : Nat
  mx  : Nat
  deriving DecidableEq, Repr, Inhabited

/-- R13: one register of the address map. -/
structure RegRow where
  id     : Nat
  base   : Nat
  n0     : Nat
  s0     : Nat
  n1     : Nat
  s1     : Nat
  dom    : DomOf
  fields : List FieldRow
  deriving DecidableEq, Repr, Inhabited

end Sys2Proof.Machine
end

