-- ==== Sys2Proof/Machine/State/Mgmt.lean ====
section
/-! DEFINITION. Management sessions, replies and the event log (R462–R478). -/

namespace Sys2Proof.Machine

/-- R468: the status codes. -/
inductive Status where
  | ok | badAddr | accessDenied | locked | stateMismatch | pourTooLarge | pourConflict | busy | badValue | version
  | domainOff | timeout | badDate
  /-- No status yet: the write waits for the input freeze (R105). It is in no reply. -/
  | waits
  deriving DecidableEq, Repr, Inhabited

/-- R468: the code of a status. -/
def Status.code : Status → Nat
  | .ok => 0x00 | .badAddr => 0x01 | .accessDenied => 0x02 | .locked => 0x03 | .stateMismatch => 0x04
  | .pourTooLarge => 0x05 | .pourConflict => 0x06 | .busy => 0x07 | .badValue => 0x08 | .version => 0x09
  | .domainOff => 0x0A | .timeout => 0x0B | .badDate => 0x0C | .waits => 0xFF

/-- R14: the order of refusals, from least to most severe (a status outside the order is not a refusal of R14). -/
def Status.severity : Status → Nat
  | .badDate => 1 | .badValue => 2 | .busy => 3 | .stateMismatch => 4 | .accessDenied => 5 | .locked => 6
  | _ => 0

/-- R14: the more severe of two outcomes. -/
def Status.worst (a b : Status) : Status := if a.severity < b.severity then b else a

/-- R471: one data item of an entry, of 4 or of 8 bytes. -/
inductive DItem where
  | w (v : Int)
  | d (v : Nat)
  deriving DecidableEq, Repr, Inhabited

/-- R471: the bytes an item takes. -/
def DItem.size : DItem → Nat
  | .w _ => 4
  | .d _ => 8

/-- R471: one entry of the event log. -/
structure LogEntry where
  seq   : Nat
  time  : Nat
  code  : Nat
  dom   : Nat
  flags : Nat
  inst  : Nat
  data  : List DItem
  deriving DecidableEq, Repr, Inhabited

/-- R477: the owner of an uncorrectable word: 0–2 the memory of a lane, 3 the configuration mirror, 4 other SRAM,
5 DRAM with the staged record of a stream and sequence, 6 MRAM with the slot of an entry. -/
inductive GrindHit where
  | lane (l : Fin 3) (memory : Nat)
  | mirror
  | sram
  | dram (stream seq : Nat)
  | mram (slot : Nat)
  deriving DecidableEq, Repr, Inhabited

/-- R472–R476: the log sequencer, the MRAM log and the fallback log. -/
structure LogSt where
  /-- R472: SEQ of the newest entry numbered. -/
  seq       : Nat := 0
  /-- R472: the counter was lost with its Crema area. -/
  seqLost   : Bool := false
  /-- R472: numbering is held since this instant, with the entries kept and the number lost. -/
  holdAt    : Option Nat := none
  held      : List LogEntry := []
  lost      : Nat := 0
  /-- R475: TARGET, 1 while entries go to the fallback log. -/
  fallback  : Bool := false
  copying   : Bool := false
  /-- R476: start of a running RETEST. -/
  retestAt  : Option Nat := none
  /-- R472: MRAM slot ↦ entry; the slots whose cells fail verification. -/
  mram      : Tbl (Option LogEntry) := []
  mramBad   : List Nat := []
  /-- R472: fallback slot ↦ entry. -/
  flog      : Tbl (Option LogEntry) := []
  /-- R476: fallback entries not yet in MRAM; entries lost there. -/
  fbPending : Nat := 0
  fbLost    : Nat := 0
  /-- R475: writes and failed verifications (LOG_CNT_WRITTEN, LOG_CNT_VERIFY). -/
  written   : Nat := 0
  verify    : Nat := 0
  /-- R462, R477: instants of the last rate-limited entries: MGMT_FRAME_BAD; GRIND_CORR per memory. -/
  badFrameAt : Option Nat := none
  corrAt    : Tbl (Option Nat) := []
  /-- R477: the instant of each memory's last pass. -/
  passAt    : Tbl (Option Nat) := []
  /-- R472: entries offered to Carafe stream 0 and not yet taken. -/
  offered   : List LogEntry := []
  /-- R472: numbers of entries numbered while DRAM was off; R477: MRAM slots whose entry cannot be read. -/
  unoff     : List Nat := []
  unread    : List Nat := []
  deriving DecidableEq, Repr, Inhabited

/-- R462: a reply as sent. -/
structure Reply where
  ver     : Nat
  op      : Nat
  session : Nat
  status  : Status
  tag     : Nat
  seq     : Nat
  more    : Bool
  body    : List Byte
  deriving DecidableEq, Repr, Inhabited

/-- R458: an outstanding nonce. -/
structure Nonce where
  bytes : List Byte
  level : Nat
  mode  : Nat
  slot  : Nat
  at_   : Nat
  deriving DecidableEq, Repr, Inhabited

/-- R464: one management session. -/
structure Session where
  active : Bool := false
  major  : Nat := 0
  minor  : Nat := 0
  /-- R457: the level granted: 0 Operator, 1 Engineer, 2 Service. -/
  level  : Nat := 0
  /-- R464: 0 UDP, 1 I²C; the source address and port, or the client identifier. -/
  port   : Nat := 0
  bind   : Nat := 0
  /-- R465: SEQ of the last request; the stored reply; idle time in s; the instant of the last request. -/
  seq    : Nat := 0
  reply  : Option Reply := none
  idle   : Nat := 0
  lastAt : Nat := 0
  /-- The status and value that the session's last register access returned. -/
  status : Status := .ok
  value  : Word := 0
  /-- R12: snapshots and held _LO writes; R57: the held calendar date. -/
  snaps  : List (Reg × Word) := []
  held   : List (Reg × Word) := []
  date   : Option Word := none
  /-- R406: latched high words: number of the entry and word, for the queue and for the peek pair. -/
  qHi    : Option (Nat × Word) := none
  peekHi : Option (Nat × Word) := none
  /-- R458. -/
  nonce  : Option Nonce := none
  /-- R295, R297: slot of the session's open Pour; the result of its last submission. -/
  pour   : Option Nat := none
  /-- R344: the fetch in progress: stream, CAP_ID, sequence. -/
  fetch  : Option (Nat × Nat × Nat) := none
  deriving DecidableEq, Repr, Inhabited

/-- R462–R468: the management protocol. -/
structure MgmtSt where
  sess      : Tbl Session := []
  /-- R453: the management processor runs the ROM monitor. -/
  monitor   : Bool := false
  badFrames : Nat := 0
  /-- The last reply sent. -/
  lastReply : Option Reply := none
  /-- R463: the I²C reply not yet read; the bytes that the last I²C read transaction returned. -/
  i2cReply  : Option Reply := none
  i2cOut    : List Byte := []
  deriving DecidableEq, Repr, Inhabited

end Sys2Proof.Machine
end

