-- ==== Sys2Proof/Machine/State/Start.lean ====
section
/-! DEFINITION. Start-up, image slots, the boot record, the field lock and key slots (R437–R461). -/

namespace Sys2Proof.Machine

/-- R450: the boot record in effect (the valid copy with the higher GEN). -/
structure BootRec where
  gen      : Nat := 0
  prefer   : Nat := 0
  trial    : Bool := false
  tries    : Nat := 0
  fwPrefer : Nat := 0
  deriving DecidableEq, Repr, Inhabited

/-- R448, R449: an entry of a section: address, value, mask. -/
structure CfgEntry where
  addr  : Nat
  value : BitVec 32
  mask  : BitVec 32
  deriving DecidableEq, Repr, Inhabited

/-- R446–R448: one section of an image as read. -/
structure CfgSection where
  typ     : Nat
  sver    : Nat
  offset  : Nat
  length  : Nat
  crcOk   : Bool
  param   : Nat
  entries : List CfgEntry
  /-- the raw body of sections 0x07 and 0x0A -/
  body    : List Byte
  /-- the strings of section 0x06: table (0 svID and 1 gocbRef, 2 datSet of subscriptions, 3 svID and 4 gocbRef of
  publications), index, characters -/
  strings : List (Nat × Nat × List Byte)
  deriving DecidableEq, Repr, Inhabited

/-- R446: an image as it stands in a slot of the flash. -/
structure Image where
  /-- the device answered and XSPI_DQS was present -/
  answered : Bool
  magic    : Nat
  fmt      : Nat
  nsec     : Nat
  keySlot  : Nat
  imgVer   : Nat
  compat   : Nat
  totalLen : Nat
  ifMinor  : Nat
  ifMajor  : Nat
  hcrcOk   : Bool
  /-- the HMAC of the trailer agrees with the key of KEY_SLOT -/
  hmacOk   : Bool
  sections : List CfgSection
  deriving DecidableEq, Repr, Inhabited

/-- What the outside answers while a write acts: the phase step of a root takeover (R38), the answer of the flash to a
frame (R444, R447), the image as read from a slot (R446). -/
structure AccEnv where
  step  : Int
  xok   : Bool
  xdata : List Byte
  img   : Option Image
  deriving DecidableEq, Repr, Inhabited

/-- R437–R461: state of the boot sequencer and of field access. -/
structure StartSt where
  /-- R439: the instant at which the cold start began. -/
  coldAt    : Nat := 0
  /-- R451: the slot being read or in use; the slot already failed in this start. -/
  slot      : Nat := 0
  failed    : Option Nat := none
  /-- R439: a cold start whose image has not taken effect; R445: the port is reading an image; R454: a reload, and the
  reload of a VOTE restore. -/
  cold      : Bool := false
  reading   : Bool := false
  reload    : Bool := false
  restore   : Bool := false
  boot      : BootRec := {}
  slots     : Tbl (Option Image) := []
  /-- R447: the image whose read is complete and whose load is pending. -/
  loading   : Option Image := none
  /-- R449: the checks of the image in `loading` have passed; it takes effect at the next control-cycle boundary. -/
  ready     : Bool := false
  /-- R447: the image in effect. -/
  image     : Option Image := none
  runAt     : Option Nat := none
  /-- R452: MGMT has come on from off and its processor has not started. -/
  mgmtUp    : Bool := false
  /-- R452: validity of the firmware regions. -/
  fwValid   : List Nat := []
  /-- R455: salts and verifiers of Engineer and Service, from section 0x0A. -/
  verifier  : Tbl (Option (List Byte × List Byte)) := []
  lockAtBoot : Bool := false
  /-- R458: the opener, its level and the end of HOLD_MIN. -/
  opener    : Option Nat := none
  openLevel : Nat := 0
  openUntil : Nat := 0
  /-- R459: instants of the rejections of the last 10 min; the end of a block. -/
  fails     : List Nat := []
  blockEnd  : Option Nat := none
  /-- R460: the programmed key slots; the data registers, their last write and its session. -/
  keys      : Tbl (Option (List Byte)) := []
  keyData   : Tbl Nat := []
  keyAt     : Option Nat := none
  keySess   : Nat := 0
  /-- R444: the last frame sent: format, opcode, address, length. -/
  frameSent : Option (Nat × Nat × Nat × Nat) := none
  /-- R438, R490: the straps as sampled at the last cold start: BOOT_MON is low, TEST_EN is high. -/
  bootMon   : Bool := false
  testEn    : Bool := false
  deriving DecidableEq, Repr, Inhabited

end Sys2Proof.Machine
end

