-- ==== Sys2Proof/Syntax.lean ====
section
/-! DEFINITION. The commands: one constructor for each row of the opcode table, in the table's order. Every command
carries its instant `t` on the root clock, in units of 125 ps; the indices it carries range over the units that exist. -/

namespace Sys2Proof

open Sys2Proof.Machine

/-- A command: what reaches the module from outside, or falls due in it. -/
inductive Instr where
  /-- REGISTER_WRITE (R14): A direct write to a register that has no row of its own is judged field by field under the
  access codes and either takes effect whole or returns the most severe refusal. -/
  | registerWrite (t : Nat) (n : SessIx) (addr : Nat) (value : Word) (mask : Word) (e : AccEnv)
  /-- PAIR_LO_READ (R12): A read of a _LO register returns its value and snapshots the _HI register and any companion
  register for the session. -/
  | pairLoRead (t : Nat) (n : SessIx) (addr : Nat)
  /-- PAIR_HI_READ (R12): A read of a _HI register returns and releases the session's snapshot, or the live value when
  there is none. -/
  | pairHiRead (t : Nat) (n : SessIx) (addr : Nat)
  /-- PAIR_LO_WRITE (R12): A write to a _LO register is judged at once and, if accepted, is held for the session until the
  matching _HI write. -/
  | pairLoWrite (t : Nat) (n : SessIx) (addr : Nat) (value : Word) (mask : Word)
  /-- PAIR_HI_WRITE (R12): A write to a _HI register judges the held _LO and the written _HI together and applies both or
  neither; with no held _LO it uses the _LO value in effect. -/
  | pairHiWrite (t : Nat) (n : SessIx) (addr : Nat) (value : Word) (mask : Word)
  /-- TIME_NOW_FRAC_READ (R44): The first read of TIME_NOW_FRAC after a TIME_NOW_LO read returns and releases its
  snapshot; later reads return live values. -/
  | timeNowFracRead (t : Nat) (n : SessIx)
  /-- CYCLE_START (R22): At T_k every ring port launches empty telemetry frames at ports A and B. -/
  | cycleStart (t : Nat)
  /-- INPUT_FREEZE (R23): At the input freeze every lane snapshots all inputs of the cycle, marks unreceived slots stale
  and applies cell-table changes. -/
  | inputFreeze (t : Nat) (rep : LaneReport)
  /-- SCHEDULE_LAUNCH (R24): The voted schedule frame, with safety field and mailbox request, leaves both ports of every
  ring at the schedule launch time. -/
  | scheduleLaunch (t : Nat)
  /-- REF_SEL_WRITE (R35): A write of CLK_CTRL.REF_SEL selects the reference, made effective by a standby MDLL takeover.
  -/
  | refSelWrite (t : Nat) (n : SessIx) (value : Word) (mask : Word) (step : Int)
  /-- REF_LOST (R37): REF_IN is declared lost on a 1 µs edge gap or a frequency error beyond ±50 ppm, and the standby MDLL
  takes over on the TCXO. -/
  | refLost (t : Nat) (gapNs : Nat) (ppb : Int) (step : Int)
  /-- REF_SWITCH (R37): After REF_IN has stayed good for 10 s with REF_REVERT set, the module returns to it by standby
  takeover. -/
  | refSwitch (t : Nat) (goodFor : Nat) (step : Int)
  /-- MDLL_LOCKED (R36): An MDLL holds ±20 ps for 4,096 housekeeping cycles and is declared locked. -/
  | mdllLocked (t : Nat) (second : Bool) (cycles : Nat)
  /-- MDLL_TAKEOVER (R38): The active MDLL loses lock and the standby takes over the root with a step of at most 1 ns,
  starting a suspension. -/
  | mdllTakeover (t : Nat) (step : Int)
  /-- SUSPENSION_END (R288): The new root has held ±20 ps for 256 housekeeping cycles; ring launches resume at the next
  grid instants with the last published entries. -/
  | suspensionEnd (t : Nat) (held : Bool)
  /-- MDLL_RETRY (R38): Every 10 s the failed MDLL is retried as standby and CLK_STATUS reports the result. -/
  | mdllRetry (t : Nat) (good : Bool)
  /-- MDLL_STANDBY_FAULT (R38): The standby MDLL loses lock; no output changes and the fault is logged. -/
  | mdllStandbyFault (t : Nat)
  /-- CLKOUT_CFG_WRITE (R41): A write of CLK_OUTn_CFG changes format, divider or enable, returning BUSY for a change while
  enabled, and starts or stops the output without runt pulses. -/
  | clkoutCfgWrite (t : Nat) (n : SessIx) (k : Fin 4) (value : Word) (mask : Word)
  /-- PTP_ANNOUNCE (R48): An Announce message runs the best master clock algorithm, selects a master and supplies UTC
  offset and leap flags. -/
  | ptpAnnounce (t : Nat) (port : Fin 4) (a : Announce)
  /-- PTP_SYNC (R50): A Sync message updates the offset, servo and TIME_UNCERT and moves the state through LOCKING to
  LOCKED. -/
  | ptpSync (t : Nat) (port : Fin 4) (origin : Nat) (freq : Int)
  /-- PTP_PDELAY (R254): A peer-delay exchange completes on a LAN or ring direction and updates the mean peer delay. -/
  | ptpPdelay (t : Nat) (port : Fin 4) (rtt : Nat) (resp : Nat)
  /-- PTP_MASTER_LOST (R50): Announce timeout or three missed Sync intervals lose the master; LOCKED enters HOLDOVER and
  LOCKING returns to its entry state. -/
  | ptpMasterLost (t : Nat) (lan : Fin 2)
  /-- PTP_LAN_SWITCH (R254): The active PTP LAN misses three Sync intervals or loses its master and the other LAN with the
  same grandmaster becomes active. -/
  | ptpLanSwitch (t : Nat)
  /-- PTP_HOLDOVER_EXPIRED (R51): HOLD_S seconds after entry into HOLDOVER, TRACEABLE is cleared and logged. -/
  | ptpHoldoverExpired (t : Nat)
  /-- PPS_EDGE (R52): A rising edge on PPS_IN in HOLDOVER with PPS_EN steers the phase of module time to a whole TAI
  second. -/
  | ppsEdge (t : Nat)
  /-- LEAP_APPLIED (R54): At the end of a UTC day with a leap flag set, UTC_OFFSET is adjusted and logged. -/
  | leapApplied (t : Nat)
  /-- TIME_UTC_WRITE (R54): A write of TIME_UTC sets UTC offset and leap flags in FREERUN and returns BUSY in any other
  state. -/
  | timeUtcWrite (t : Nat) (n : SessIx) (value : Word) (mask : Word)
  /-- RTC_REALIGN (R55): At every whole TAI second while CLK is on, the RTC is realigned to module time within one tick.
  -/
  | rtcRealign (t : Nat)
  /-- CAL_RANGE (R56): The RTC crosses out of 2000-2199, the calendar clamps, CAL_VALID reads 0 and the crossing is
  logged. -/
  | calRange (t : Nat)
  /-- RTC_CAL_DATE_READ (R56): A read of RTC_CAL_DATE snapshots RTC_CAL_TIME so a read pair never straddles midnight. -/
  | rtcCalDateRead (t : Nat) (n : SessIx)
  /-- RTC_CAL_DATE_WRITE (R57): A write of RTC_CAL_DATE is held for the session until RTC_CAL_TIME is written. -/
  | rtcCalDateWrite (t : Nat) (n : SessIx) (value : Word) (mask : Word)
  /-- RTC_CAL_TIME_WRITE (R57): A write of RTC_CAL_TIME validates the date and time, sets the RTC and in FREERUN steps
  module time, or returns BUSY or BAD_DATE. -/
  | rtcCalTimeWrite (t : Nat) (n : SessIx) (value : Word) (mask : Word)
  /-- WAKE_FROM_RTC (R59): After CLK comes on and the MDLLs lock, module time is loaded from the RTC at the next tick edge
  and the sleep is added to the elapsed counters. -/
  | wakeFromRtc (t : Nat) (tick : Nat)
  /-- CREMA_START (R61): Crema starts from a source; retained areas are checked and, with the RTC invalid, TIME_LOST is
  set and module time starts after the newest log entry. -/
  | cremaStart (t : Nat) (lost : Fin 64)
  /-- TELEMETRY_FRAME_RX (R73): A telemetry frame arrives at a ring port; header and slot checks are made and accepted
  slot copies are held for the freeze. -/
  | telemetryFrameRx (t : Nat) (r : RingIx) (portB : Bool) (aborted : Bool) (bytes : List Byte)
  /-- MBX_REPLY (R82): A mailbox reply with the outstanding MBX_SEQ is read at the freeze and acted on by its owner, and
  the next request is placed. -/
  | mbxReply (t : Nat) (r : RingIx)
  /-- MBX_LEASE_EXPIRED (R291): A mailbox request unanswered for 1 ms after its BUSY restarts is withdrawn and MBX_TIMEOUT
  is logged. -/
  | mbxLeaseExpired (t : Nat) (r : RingIx)
  /-- HALT_REPEAT (R78): At 1 µs intervals the injector repeats the halt frame three times, then sets HALT_ACTIVE in every
  schedule header. -/
  | haltRepeat (t : Nat) (r : RingIx)
  /-- DLY_REQ_RX (R83): A DLY_REQ ordered set arrives at a link end and is answered with DLY_RSP carrying the turnaround
  time. -/
  | dlyReqRx (t : Nat) (r : RingIx) (portB : Bool) (turn : Nat)
  /-- DLY_RSP_RX (R83): A DLY_RSP arrives; the one-way link delay average is updated and a change above 2 ns sets STEP. -/
  | dlyRspRx (t : Nat) (r : RingIx) (h : Fin 129) (rtt : Nat) (turn : Nat)
  /-- ALIGN_FAULT (R87): A cell shows |ALIGN_ERR| above 1 ns in 16 consecutive written slots and is logged. -/
  | alignFault (t : Nat) (k : CellIx)
  /-- RING_ENABLE (R88): RING_CTRL.EN going from 0 to 1 enables the port pair and starts discovery in v1 signalling. -/
  | ringEnable (t : Nat) (n : SessIx) (r : RingIx)
  /-- RING_REDISCOVER (R91): A write of 1 to RING_CTRL.REDISCOVER restarts discovery, or returns BUSY while any cell of
  the ring is ACTIVE. -/
  | ringRediscover (t : Nat) (n : SessIx) (r : RingIx)
  /-- DISCOVERY_RETRY (R88): With no cell answering, discovery is repeated every 10 ms in TRAINING. -/
  | discoveryRetry (t : Nat) (r : RingIx)
  /-- LINK_BLOCK_LOCK (R88): A link at a module port gains block lock and version capability is exchanged, retraining at
  v2 where both ends offer it. -/
  | linkBlockLock (t : Nat) (r : RingIx) (portB : Bool) (peerV2 : Bool)
  /-- DISCOVER_FRAME_RX (R90): Discover frames return at both ports; positions are assigned, the lists are checked against
  each other and the map, and the ring version is decided. -/
  | discoverFrameRx (t : Nat) (r : RingIx) (portB : Bool) (bytes : List Byte)
  /-- RING_UP (R88): Delay exchanges and alignment have completed; the ring is UP and logged with N and version. -/
  | ringUp (t : Nat) (r : RingIx) (aligned : Bool)
  /-- LINK_DOWN (R92): A module port loses block lock or sees no valid block for 1 µs; the ring becomes BROKEN or
  SEGMENTED. -/
  | linkDown (t : Nat) (r : RingIx) (h : Fin 129) (lostLock : Bool) (silentNs : Nat)
  /-- LINK_DEGRADED (R92): More than 16 blocks with invalid sync headers in 1 s on one link are logged. -/
  | linkDegraded (t : Nat) (r : RingIx) (h : Fin 129) (errors : Nat)
  /-- RING_LOST (R93): No frame returns at either port for 2 control cycles; the ring is LOST and every cell entry goes
  ABSENT. -/
  | ringLost (t : Nat) (r : RingIx)
  /-- RING_HEALED (R94): At the agreed cycle T_m the two cells stop turning frames and the ring returns to UP. -/
  | ringHealed (t : Nat) (r : RingIx) (h : Fin 129) (m : Nat)
  /-- CELL_DIAG_TIMEOUT (R100): DIAG_DONE has not appeared 200 ms after the reply and the diagnosis fails with
  DIAG_TIMEOUT. -/
  | cellDiagTimeout (t : Nat) (k : CellIx)
  /-- CELL_DIAG_RETRY (R101): One second after a first diagnosis failure the diagnosis is repeated. -/
  | cellDiagRetry (t : Nat) (k : CellIx)
  /-- CELL_LOW_VDC_RECHECK (R99): Every 1 s a NEGOTIATED cell held at LOW_VDC is checked again for VDC of at least 100 V.
  -/
  | cellLowVdcRecheck (t : Nat) (k : CellIx)
  /-- CELL_UNREACHABLE (R106): A cell stale for STALE_LIM cycles and reachable from neither port is bypassed and removed
  from its phase's share. -/
  | cellUnreachable (t : Nat) (k : CellIx)
  /-- CELL_STALE_FAULT (R106): A reachable cell stale for STALE_FAULT cycles goes to FAULTED with fault bypass. -/
  | cellStaleFault (t : Nat) (k : CellIx)
  /-- PWM_TRIP_LATCH (R132): TRIP_N trips within TRIP_W carrier periods engage a cell's trip latch and fault it. -/
  | pwmTripLatch (t : Nat) (k : CellIx)
  /-- CELL_OVERTEMP_BYPASS (R107): OVERTEMP held for 1 s in an ACTIVE cell requests a planned bypass, retested at each
  freeze while refused. -/
  | cellOvertempBypass (t : Nat) (k : CellIx)
  /-- CELL_AUTO_RETURN (R107): With AUTO_RET set, OVERTEMP clear for 60 s starts a return to service with reason
  AUTO_RETURN. -/
  | cellAutoReturn (t : Nat) (k : CellIx)
  /-- CELL_REPEAT_FAULT (R108): A cell's third entry into FAULTED within 24 h takes it to LOCKED_OUT. -/
  | cellRepeatFault (t : Nat) (k : CellIx)
  /-- CELL_RAMP_END (R112): The share ramp of a planned bypass reaches 0; zero-state compares and then BYP close commands
  are sent. -/
  | cellRampEnd (t : Nat) (k : CellIx)
  /-- CELL_BYPASS_TIMEOUT (R112): A planned bypass not confirmed within BYP_TO sets NO_BYPASS, sends no change and
  restores the share. -/
  | cellBypassTimeout (t : Nat) (k : CellIx)
  /-- FAULT_BYPASS_TIMEOUT (R113): A fault bypass not confirmed within BYP_TO locks the cell out, sets BYP_BLOCK and halts
  a running cluster. -/
  | faultBypassTimeout (t : Nat) (k : CellIx)
  /-- CELL_RETURN_OPEN (R114): After one carrier period in zero state a returning cell is sent BYP open. -/
  | cellReturnOpen (t : Nat) (k : CellIx)
  /-- CELL_RETURN_TIMEOUT (R114): A return whose bypass has not opened within BYP_TO leaves the entry BYPASSED and is
  logged. -/
  | cellReturnTimeout (t : Nat) (k : CellIx)
  /-- CELL_CMD_NONE (R115): CELL_CMD with CMD = NONE has no effect beyond the EXPECT check. -/
  | cellCmdNone (t : Nat) (n : SessIx) (k : CellIx) (expect : Nat)
  /-- CELL_DIAGNOSE (R115): The DIAGNOSE command starts a diagnosis of a NEGOTIATED or READY cell while no cell of its
  cluster is ACTIVE. -/
  | cellDiagnose (t : Nat) (n : SessIx) (k : CellIx) (expect : Nat)
  /-- CELL_BYPASS (R115): The BYPASS command starts a planned bypass of an ACTIVE or READY cell, refused if the margin
  test fails. -/
  | cellBypass (t : Nat) (n : SessIx) (k : CellIx) (expect : Nat)
  /-- CELL_RETURN (R114): The RETURN command starts a return to service of a BYPASSED cell meeting the return conditions.
  -/
  | cellReturn (t : Nat) (n : SessIx) (k : CellIx) (expect : Nat)
  /-- CELL_RETIRE (R115): The RETIRE command retires a cell by planned bypass, or at once from BYPASSED or FAULTED. -/
  | cellRetire (t : Nat) (n : SessIx) (k : CellIx) (expect : Nat)
  /-- CELL_UNRETIRE (R115): The UNRETIRE command from a Service session takes a RETIRED cell to NEGOTIATED and clears its
  disposition. -/
  | cellUnretire (t : Nat) (n : SessIx) (k : CellIx) (expect : Nat)
  /-- CELL_CLEAR_FAULT (R115): The CLEAR_FAULT command takes a FAULTED cell to NEGOTIATED for diagnosis. -/
  | cellClearFault (t : Nat) (n : SessIx) (k : CellIx) (expect : Nat)
  /-- CELL_LOCKOUT (R115): The LOCKOUT command fault-bypasses a cell and takes it to LOCKED_OUT. -/
  | cellLockout (t : Nat) (n : SessIx) (k : CellIx) (expect : Nat)
  /-- CELL_RELEASE (R115): The RELEASE command takes a LOCKED_OUT cell to LINKED for re-admission. -/
  | cellRelease (t : Nat) (n : SessIx) (k : CellIx) (expect : Nat)
  /-- CELL_TLM_READ (R469): A read of CELL_TLM0 snapshots the other telemetry words and CELL_TLM_CYCLE of the cell. -/
  | cellTlmRead (t : Nat) (n : SessIx) (k : CellIx)
  /-- PWM_TRANSITION_END (R134): Every cell of a cluster has reached its new carrier grid; MIXED clears and PWM_TRANSITION
  is logged. -/
  | pwmTransitionEnd (t : Nat) (c : RingIx)
  /-- PWM_CNT_CLEAR (R131): A write of PWM_STATUS clears the debt-cap and snap counters. -/
  | pwmCntClear (t : Nat) (n : SessIx)
  /-- PWM_LEG_LATCH (R133): N leg shunt trips within W leg periods latch the leg with its outputs held low. -/
  | pwmLegLatch (t : Nat) (l : LegIx)
  /-- LEG_LATCH_RELEASE (R133): A write of 1 to PWM_LEG_STAT.LATCHED releases the leg latch at its next boundary, or
  returns BUSY while its comparator is active. -/
  | legLatchRelease (t : Nat) (n : SessIx) (l : LegIx) (value : Word) (mask : Word)
  /-- DLY_CAL (R138): Every 1 ms the delay-line servo trims each leg group's replica line and copies the code to live
  lines, logging failures. -/
  | dlyCal (t : Nat) (e0 : Nat × Bool) (e1 : Nat × Bool) (e2 : Nat × Bool)
  /-- SV_FRAME_RX (R236): An offered SV frame is tested for duplicate, source, simulation, structure, sync, time and
  range, and its ASDUs become samples. -/
  | svFrameRx (t : Nat) (f : SvFrame)
  /-- SV_SAMPLE_MISSING (R161): An expected sample passes t_s + LAT_MAX without arriving; at the third the source switches
  to BSI or BLIND. -/
  | svSampleMissing (t : Nat) (p : PointIx)
  /-- SV_STREAM_LOST (R240): A subscription with no accepted sample for 1 s becomes LOST. -/
  | svStreamLost (t : Nat) (j : Fin 64)
  /-- GRID_BLIND_END (R161): After 100 ms in BLIND a point's source becomes NONE. -/
  | gridBlindEnd (t : Nat) (p : PointIx)
  /-- BSI_SAMPLE (R400): At each 1/14,400 s instant a BSI channel's value is interpolated and passed to the estimator and
  metering. -/
  | bsiSample (t : Nat) (b : BsiIx) (bits : List Bool)
  /-- GRID_BSI_UNFIT (R162): BSI differs from SV beyond 2 % or 2° for 1 s and BSI_FIT goes to 0. -/
  | gridBsiUnfit (t : Nat) (p : PointIx)
  /-- GRID_BSI_FIT (R162): After 10 s within both limits BSI_FIT returns to 1. -/
  | gridBsiFit (t : Nat) (p : PointIx)
  /-- GRID_PHASE_JUMP (R166): The angle deviates beyond JUMP_TH in three consecutive samples; the estimator resets and the
  jump is logged. -/
  | gridPhaseJump (t : Nat) (p : PointIx)
  /-- GRID_SEQ_REVERSED (R167): Negative sequence dominance held for half a line period toggles SEQ_REVERSED and resets
  the estimator. -/
  | gridSeqReversed (t : Nat) (p : PointIx)
  /-- GRID_VOLTAGE_LOST (R168): A DIP lasting beyond 20 ms moves FSTATE to NO_VOLTAGE at the next sample. -/
  | gridVoltageLost (t : Nat) (p : PointIx)
  /-- GRID_SETTLED (R168): Two line periods after the last reset SETTLING moves to TRACKING. -/
  | gridSettled (t : Nat) (p : PointIx)
  /-- GRID_HOLD_EXPIRED (R168): A HOLD unconverged two line periods after its first reset moves to SETTLING with an
  estimator reset. -/
  | gridHoldExpired (t : Nat) (p : PointIx)
  /-- GRID_IARM_LOST (R173): IARM_OK of a phase stays 0 for 3 cycles while the cluster runs and the lane halt request is
  raised. -/
  | gridIarmLost (t : Nat) (c : RingIx) (ph : Fin 3)
  /-- GRID_IARM_DISAGREE (R173): A cell differing from the phase median by more than 0.05 pu for 16 cycles sets IARM_DIS.
  -/
  | gridIarmDisagree (t : Nat) (k : CellIx)
  /-- MPPT_STEP (R190): At a cell's step instant V, I and P are formed and the reference is stepped by incremental
  conductance or curtailment, or the step is void. -/
  | mpptStep (t : Nat) (k : CellIx)
  /-- MPPT_SHADE_QUEUE (R191): A cell below SHADE_FRAC of its phase median for 10 non-void steps is queued for a scan. -/
  | mpptShadeQueue (t : Nat) (k : CellIx)
  /-- MPPT_SCAN_DUE (R191): SCAN_INT minutes after its last scan a TRACK cell is queued for a periodic scan. -/
  | mpptScanDue (t : Nat) (k : CellIx)
  /-- MPPT_SCAN_POINT (R193): At each scan time the next reference point is written or the previous point's power is
  measured. -/
  | mpptScanPoint (t : Nat) (k : CellIx)
  /-- MPPT_SCAN_DONE (R193): At the end of the scan the reference is set to the best point and the cell returns to TRACK.
  -/
  | mpptScanDone (t : Nat) (k : CellIx)
  /-- MPPT_CAP_INSTANT (R196): At each cluster cap instant the cluster target, phase ceilings, phase targets and cell caps
  are formed and cells are curtailed. -/
  | mpptCapInstant (t : Nat) (c : RingIx)
  /-- MPPT_VOC_SET (R189): After 1 s of low string current while not switching, VOC_EST is set to the mean VSTR. -/
  | mpptVocSet (t : Nat) (k : CellIx)
  /-- MPPT_VOC_DEFAULT (R189): After 24 h without a VOC_EST setting it falls back to VOC_NOM. -/
  | mpptVocDefault (t : Nat) (k : CellIx)
  /-- MPPT_DARK (R201): A cell below DARK_FRAC of its phase median for 60 s sets DARK. -/
  | mpptDark (t : Nat) (k : CellIx)
  /-- MPPT_DARK_CLEAR (R201): A DARK cell above the fraction for 60 s clears DARK. -/
  | mpptDarkClear (t : Nat) (k : CellIx)
  /-- MPPT_CMD_NONE (R191): MPPT_CMD with CMD = NONE does nothing. -/
  | mpptCmdNone (t : Nat) (n : SessIx) (k : CellIx)
  /-- SCAN_CELL (R191): Software queues one ACTIVE cell for a scan ahead of automatic requests. -/
  | scanCell (t : Nat) (n : SessIx) (k : CellIx)
  /-- SCAN_CLUSTER (R191): Software queues every cell of a cluster for a scan. -/
  | scanCluster (t : Nat) (n : SessIx) (k : CellIx)
  /-- CANCEL_SCAN (R194): Software aborts a cell's scan, returning its reference to V_0 without requeueing it. -/
  | cancelScan (t : Nat) (n : SessIx) (k : CellIx)
  /-- FRT_EVALUATION (R215): Every EVAL_DIV cycles each cluster's machine forms U and pre-fault values, scans its table,
  takes at most one transition and stages the new state. -/
  | frtEvaluation (t : Nat) (c : RingIx)
  /-- FRT_FAST_SCAN (R215): At freezes between evaluations only entries with fast conditions are scanned and may be taken.
  -/
  | frtFastScan (t : Nat) (c : RingIx)
  /-- FRT_CMD_NONE (R219): FRT_CLU_CMD with CMD = NONE does nothing. -/
  | frtCmdNone (t : Nat) (n : SessIx) (c : RingIx)
  /-- FRT_CMD_START (R219): START written in CEASED becomes pending for the table. -/
  | frtCmdStart (t : Nat) (n : SessIx) (c : RingIx)
  /-- FRT_CMD_STOP (R219): STOP written in a running state becomes pending for the table. -/
  | frtCmdStop (t : Nat) (n : SessIx) (c : RingIx)
  /-- FRT_CMD_RESET (R219): RESET written in TRIPPED becomes pending for the table. -/
  | frtCmdReset (t : Nat) (n : SessIx) (c : RingIx)
  /-- FRT_CMD_EXPIRED (R219): A pending command not consumed within 10 s expires and is logged. -/
  | frtCmdExpired (t : Nat) (c : RingIx)
  /-- ISL_PASSIVE (R223): ROCOF beyond threshold for PDWELL, or a vector shift beyond VS_TH, sets ISL_STAT.PASSIVE. -/
  | islPassive (t : Nat)
  /-- ISL_PASSIVE_CLEAR (R223): PASSIVE clears after 2 s with neither condition held. -/
  | islPassiveClear (t : Nat)
  /-- ISL_CHIP (R224): At each chip boundary the LFSR advances, injection signs change and chip means are formed. -/
  | islChip (t : Nat)
  /-- ISL_ESTIMATE (R225): Every 4 chips Z- is estimated over 16 chips and ACTIVE is set or cleared. -/
  | islEstimate (t : Nat)
  /-- PB_LINK_DOWN (R232): A process-bus port loses link or signal and its LAN is no longer good. -/
  | pbLinkDown (t : Nat) (port : Fin 4) (los : Bool)
  /-- PB_LINK_UP (R232): A process-bus port gains link. -/
  | pbLinkUp (t : Nat) (port : Fin 4)
  /-- PB_LAN_LOST (R232): A LAN with link receives no frame for 100 ms while the other still does. -/
  | pbLanLost (t : Nat) (port : Fin 4)
  /-- PB_HSR_OPEN (R232): The HSR supervision frame has not returned through both directions within 2 s. -/
  | pbHsrOpen (t : Nat)
  /-- GOOSE_FRAME_RX (R248): A GOOSE frame is tested and accepted as new state or repetition, updating values and
  restarting the TAL. -/
  | gooseFrameRx (t : Nat) (f : GooseFrame)
  /-- GOOSE_SUB_INVALID (R248): A subscription's timeAllowedToLive passes without an accepted frame and it becomes
  INVALID. -/
  | gooseSubInvalid (t : Nat) (g : Fin 128)
  /-- GOOSE_PUB_REPEAT (R252): A publication repetition falls due at TMIN doubling up to T0 and is sent. -/
  | goosePubRepeat (t : Nat) (q : Fin 32)
  /-- SV_PUB_FRAME (R244): A publication frame leaves D/f_ctl + 10 µs after its last sample, or stays paused after a
  backward time step. -/
  | svPubFrame (t : Nat) (q : Fin 16)
  /-- MTR_WINDOW_END (R259): A metering window ends; the DFT is formed and power, energy and harmonics are updated or the
  window is void. -/
  | mtrWindowEnd (t : Nat) (m : PointIx)
  /-- MTR_SEQ_WRONG (R266): Five consecutive valid windows of wrong sequence set or clear V_SEQ_WRONG or I_SEQ_WRONG. -/
  | mtrSeqWrong (t : Nat) (m : PointIx) (current : Bool)
  /-- MTR_N_MISSING (R267): Five consecutive valid windows of displaced V0 without neutral current set or clear N_MISSING.
  -/
  | mtrNMissing (t : Nat) (m : PointIx)
  /-- MTR_INTERVAL_CLOSE (R268): At an interval boundary each point's interval record is closed and sent to Carafe. -/
  | mtrIntervalClose (t : Nat)
  /-- MTR_ACC_SAVE (R271): Every 1 s the accumulators with remainders are copied to Crema retained RAM. -/
  | mtrAccSave (t : Nat)
  /-- LANE_EXCLUDED (R277): A lane with a second minority within 8 cycles or an immediate cause is excluded from the next
  cycle. -/
  | laneExcluded (t : Nat) (l : LaneIx) (ecc : Bool) (memory : Nat)
  /-- LANE_CEASED (R279): Within one control cycle of HOLD the mode becomes CEASED and every lane EXCLUDED. -/
  | laneCeased (t : Nat)
  /-- LANE_AUTO_RESTART (R280): With AUTO_RESTART set, 1 s after CEASED the lanes are restarted. -/
  | laneAutoRestart (t : Nat)
  /-- LANE_RESTART_DONE (R280): The restart's self-test and load complete and the mode becomes TRIPLEX, DUPLEX or stays
  CEASED. -/
  | laneRestartDone (t : Nat) (pass : Fin 8)
  /-- LANE_REJOIN_START (R282): 1 ms after exclusion, or 1 s after a failure, an EXCLUDED lane begins SELFTEST. -/
  | laneRejoinStart (t : Nat) (l : LaneIx)
  /-- LANE_SELFTEST_DONE (R282): A rejoining lane passes its march test and begins loading from the mirror. -/
  | laneSelftestDone (t : Nat) (l : LaneIx) (pass : Bool)
  /-- LANE_LOAD_DONE (R282): A rejoining lane's configuration load completes and background copying begins. -/
  | laneLoadDone (t : Nat) (l : LaneIx)
  /-- LANE_COPY_ROUND (R282): A copy round ends and the next round copies the dirty set. -/
  | laneCopyRound (t : Nat) (l : LaneIx) (dirty : Nat) (differ : Bool)
  /-- LANE_SWITCH (R283): At the first freeze with the dirty set below SW_LIM the switch cycle runs and the lane enters
  PROBATION. -/
  | laneSwitch (t : Nat) (l : LaneIx)
  /-- LANE_IN_SERVICE (R283): A lane with no minority in 64 cycles of PROBATION enters IN_SERVICE. -/
  | laneInService (t : Nat) (l : LaneIx)
  /-- LANE_REJOIN_FAIL (R282): A rejoin step exceeds its limit or fails self-test, ending the rejoin. -/
  | laneRejoinFail (t : Nat) (l : LaneIx)
  /-- LANE_CMD_NONE (R294): LANE_CMD with CMD = NONE does nothing. -/
  | laneCmdNone (t : Nat) (n : SessIx) (l : Fin 4)
  /-- LANE_EXCLUDE (R277): The Service EXCLUDE command excludes a lane, or returns STATE_MISMATCH in DUPLEX. -/
  | laneExclude (t : Nat) (n : SessIx) (l : Fin 4)
  /-- LANE_REJOIN (R282): The REJOIN command starts rejoin of an EXCLUDED lane or a LOCKED lane from Service. -/
  | laneRejoin (t : Nat) (n : SessIx) (l : Fin 4)
  /-- LANE_RESTART (R280): The RESTART command restarts the lanes from CEASED. -/
  | laneRestart (t : Nat) (n : SessIx) (l : Fin 4)
  /-- VOTER_FAULT (R286): A voter's halves disagree; it goes silent and the other port or VL2 serves. -/
  | voterFault (t : Nat) (v : Fin 4)
  /-- MERGE_FAULT (R287): A port merge stage fails its CRC recheck and stops launching on its port. -/
  | mergeFault (t : Nat) (r : RingIx) (portB : Bool)
  /-- POUR_BEGIN (R295): POUR_BEGIN takes a slot, assigns the next Pour ID and records the commit point kind. -/
  | pourBegin (t : Nat) (n : SessIx) (point : Fin 4) (zc : Fin 16) (req : Nat) (chain : Bool)
  /-- POUR_ADD (R295): POUR_ADD appends one masked write to the session's open Pour. -/
  | pourAdd (t : Nat) (n : SessIx) (addr : Nat) (value : Word) (mask : Word)
  /-- POUR_COMMIT (R295): POUR_COMMIT submits the open Pour with the next submission number and queues it. -/
  | pourCommit (t : Nat) (n : SessIx)
  /-- POUR_ABORT (R295): POUR_ABORT aborts a Pour in OPEN, QUEUED, STAGING or STAGED with ABORT_USER. -/
  | pourAbort (t : Nat) (n : SessIx) (id : Nat)
  /-- POUR_CHECK (R303): At the first freeze after a Pour becomes head every check and conflict rule runs and staging is
  planned or the Pour aborts. -/
  | pourCheck (t : Nat)
  /-- POUR_TOKEN_GRANT (R305): At T_G the commit token is granted and each counted lane loads the Pour into a pending
  copy. -/
  | pourTokenGrant (t : Nat)
  /-- POUR_COMMITTED (R305): VL forwards the ready word, the token is released and the Pour becomes irrevocable. -/
  | pourCommitted (t : Nat)
  /-- POUR_TOKEN_EXPIRED (R291): The commit token lease of 2 cycles expires, pending copies are withdrawn and the Pour
  aborts. -/
  | pourTokenExpired (t : Nat)
  /-- POUR_TAKE_EFFECT (R306): At t_c the pending copy becomes active in lanes, mirror and every block, and CONFIRMING
  begins. -/
  | pourTakeEffect (t : Nat) (e : AccEnv)
  /-- POUR_EFFECTIVE (R306): CONFIRM cycles after t_c the Pour ends EFFECTIVE and unconfirmed targets are marked. -/
  | pourEffective (t : Nat)
  /-- REC_RECORD_ADMIT (R327): A record receives its stream sequence and is admitted under its watermark or dropped into a
  pending gap. -/
  | recRecordAdmit (t : Nat) (m : Fin 64) (time : Nat) (payload : List Byte)
  /-- REC_FLUSH_TIMER (R328): FLUSH_MS after its first record a partly filled write unit is issued. -/
  | recFlushTimer (t : Nat)
  /-- NVME_COMPLETION (R329): A drive completion is reaped, a write unit may become complete and the durable frontier
  advances, or a failed write is retried. -/
  | nvmeCompletion (t : Nat) (id : Nat) (ok : Bool) (status : Nat)
  /-- DRIVE_CMD_LEASE_EXPIRED (R291): A drive command unfinished after 50 ms is aborted and counts as failed. -/
  | driveCmdLeaseExpired (t : Nat) (id : Nat)
  /-- DRIVE_UNRESPONSIVE (R293): An Abort not completed within a further 50 ms disables the drive's link and returns its
  buffers. -/
  | driveUnresponsive (t : Nat) (d : DriveIx)
  /-- DRIVE_IDENTIFY (R316): A drive is identified and judged usable or REFUSED, with its write cache set. -/
  | driveIdentify (t : Nat) (d : DriveIx) (ident : DriveId)
  /-- REC_CHECKPOINT (R322): Every 10 s the superblock is written with FUA to every member. -/
  | recCheckpoint (t : Nat)
  /-- REC_CAP_END (R332): A capture reaches t_g + POST and its last units are issued. -/
  | recCapEnd (t : Nat)
  /-- REC_CAP_SOFT_TRIGGER (R331): A write of 1 to REC_CAP_CMD.TRIGGER raises a software capture trigger. -/
  | recCapSoftTrigger (t : Nat) (n : SessIx)
  /-- REC_SMART_POLL (R336): Every 3,600 s SMART data are read and a critical warning fails the drive. -/
  | recSmartPoll (t : Nat) (d : DriveIx) (pct : Nat) (crit : Nat) (temp : Nat)
  /-- REC_CMD_NONE (R342): REC_CMD with CMD = NONE does nothing. -/
  | recCmdNone (t : Nat) (n : SessIx) (d : DriveIx)
  /-- REC_SYNC (R342): SYNC issues partial units, closes open segments and writes a checkpoint. -/
  | recSync (t : Nat) (n : SessIx) (d : DriveIx)
  /-- REC_FORMAT (R340): The Service FORMAT command formats a new store, or returns BUSY during export or drain. -/
  | recFormat (t : Nat) (n : SessIx) (d : DriveIx)
  /-- REC_ADOPT (R338): The Service ADOPT command erases a FOREIGN drive and adds it. -/
  | recAdopt (t : Nat) (n : SessIx) (d : DriveIx)
  /-- REC_REMOVE (R336): REMOVE fails the named drive and takes it out of its pair. -/
  | recRemove (t : Nat) (n : SessIx) (d : DriveIx)
  /-- REC_ADD (R338): ADD writes a superblock to a drive and starts a rebuild of its SINGLE pair. -/
  | recAdd (t : Nat) (n : SessIx) (d : DriveIx)
  /-- REC_MOUNTED (R340): Mount and recovery complete, open segments are closed and recording starts. -/
  | recMounted (t : Nat)
  /-- REC_STATUS_READ (R469): A read of REC_STATUS returns PEAK_PCT and restarts it at the present occupancy. -/
  | recStatusRead (t : Nat) (n : SessIx)
  /-- WEAR_MODEL_UPDATE (R348): Every UPD cycles losses, junction temperatures and rainflow counts are updated on two
  datapaths and compared. -/
  | wearModelUpdate (t : Nat) (mismatch : Bool)
  /-- WEAR_CAP_ESTIMATE (R353): At each line period a cell's DC link capacitance and ESR samples are estimated. -/
  | wearCapEstimate (t : Nat) (k : CellIx)
  /-- WEAR_DAILY (R353): At the end of a UTC day daily capacitance and ESR values and module-part measures are formed. -/
  | wearDaily (t : Nat) (tcxo : Option Int) (rtc : Option Int)
  /-- WEAR_EVALUATION (R355): Each hour of TIME_OPSEC rates and predicted lives are updated and at most one retirement per
  phase is started. -/
  | wearEvaluation (t : Nat)
  /-- WEAR_RECORD_FAIL (R357): A wear record unreadable or not written after 24 h is logged. -/
  | wearRecordFail (t : Nat) (k : CellIx)
  /-- WEAR_FAULT_CLEAR (R346): A Service write of 1 to WEAR_STATUS.FAULT resumes retirements. -/
  | wearFaultClear (t : Nat) (n : SessIx) (value : Word) (mask : Word)
  /-- WEAR_RF_SELECT (R350): A write of WEAR_RF_SEL snapshots the named cell's rainflow matrix into the window. -/
  | wearRfSelect (t : Nat) (n : SessIx) (value : Word) (mask : Word)
  /-- SAFE_SELFTEST_DONE (R370): The island's self-test and parameter check end and it enters STARTUP_TEST or LOCKED_OUT.
  -/
  | safeSelftestDone (t : Nat) (pass : Bool)
  /-- SAFE_INPUT_FILTERED (R368): A door, E-stop or reset input holds a new level for 3 ms and its filtered state changes.
  -/
  | safeInputFiltered (t : Nat) (inp : Fin 5) (level : Bool)
  /-- SAFE_EVALUATION (R364): Every 250 µs both channels evaluate inputs, exchange decisions and change state on demands
  and faults. -/
  | safeEvaluation (t : Nat) (differ : Bool) (oscOff : Bool) (backA : Bool) (backB : Bool)
  /-- SAFE_DISCREPANCY (R369): One channel of a pair changes without the other following within the discrepancy time. -/
  | safeDiscrepancy (t : Nat) (pair : Fin 2)
  /-- SAFE_TEST_PULSE (R367): Every 100 ms a test-pulse output switches off for 0.5 ms and the inputs are judged for
  shorts. -/
  | safeTestPulse (t : Nat) (which : Fin 2) (short : Fin 32)
  /-- SAFE_OUTPUT_PULSE (R375): Every 500 ms in ARMED an output dark pulse is made and read back. -/
  | safeOutputPulse (t : Nat) (darkA : Bool) (darkB : Bool)
  /-- SAFE_RESET_PULSE (R372): The falling edge of a SAFE_RESET pulse is judged and arms the island or is rejected. -/
  | safeResetPulse (t : Nat)
  /-- SAFE_RESET_STUCK (R372): SAFE_RESET conducting for 60 s raises the RESET_INPUT fault. -/
  | safeResetStuck (t : Nat)
  /-- SAFE_TOKEN_ISSUE (R377): Every 250 µs the island issues a new token with the next TSEQ and ENABLE bits. -/
  | safeTokenIssue (t : Nat)
  /-- SAFE_CONN_LOST (R381): A consumer connection with no accepted PDU for WDOG_MS enters LOST. -/
  | safeConnLost (t : Nat) (c : Fin 4)
  /-- SAFE_CONN_RECOVER (R381): A consumer in ERROR with no error for 4 × WDOG_MS returns to WAIT. -/
  | safeConnRecover (t : Nat) (c : Fin 4)
  /-- SAFE_PDU_ISSUE (R382): A producer connection issues a PDU every ISSUE_MS or on a change of its safe data. -/
  | safePduIssue (t : Nat) (q : Fin 2)
  /-- CMP_TRIP (R393): A comparator output becoming active sets its trip latch and acts on routed legs and halt injectors
  without a clock. -/
  | cmpTrip (t : Nat) (x : CmpLevel)
  /-- CMP_FILTER_ACTIVE (R395): The majority filter's state becomes active or inactive and the activity bit and CMP_ACTIVE
  follow. -/
  | cmpFilterActive (t : Nat) (c : CmpIx) (active : Bool)
  /-- CMP_TICK (R392): At a sampled-mode tick the comparator output is latched. -/
  | cmpTick (t : Nat) (c : CmpIx) (v : Nat)
  /-- CMP_SETTLED (R396): An unsettled channel's input is seen outside its band and the channel settles on that side. -/
  | cmpSettled (t : Nat) (c : CmpIx) (v : Nat)
  /-- CMP_TRIP_CLEAR (R393): A write of 1 to CMP_STAT.TRIP clears a SOFTWARE latch, or returns BUSY against an active
  input. -/
  | cmpTripClear (t : Nat) (n : SessIx) (c : CmpIx) (value : Word) (mask : Word)
  /-- CMP_PERIOD_CLEAR (R393): At the named leg's carrier start or at T_k a PERIOD latch clears unless the input is
  active. -/
  | cmpPeriodClear (t : Nat) (c : CmpIx)
  /-- BSI_STOPPED (R401): A BSI data line shows no change for 1,024 clocks and its samples become missing. -/
  | bsiStopped (t : Nat) (b : BsiIx)
  /-- BSI_OVERRANGE (R401): A BSI channel at |x| of at least 0.95 for 16 outputs sets OVERRANGE. -/
  | bsiOverrange (t : Nat) (b : BsiIx)
  /-- IADC_ROUND_START (R404): At each multiple of ROUND_MS a round starts, or a still-running round makes it skipped and
  counted. -/
  | iadcRoundStart (t : Nat)
  /-- IADC_CONVERSION_DONE (R405): A conversion completes; its result is queued or discarded and copied to IADC_LAST_n. -/
  | iadcConversionDone (t : Nat) (value : Int)
  /-- IADC_HOUSEKEEPING (R404): After 1,000 ms without a channel 21 result a housekeeping cold-plate conversion is
  inserted. -/
  | iadcHousekeeping (t : Nat)
  /-- IADC_Q_LO_READ (R406): A read of IADC_Q_LO returns the head's low word and latches its high word for the session. -/
  | iadcQLoRead (t : Nat) (n : SessIx)
  /-- IADC_Q_HI_READ (R406): A read of IADC_Q_HI returns the latched word and pops the head if it is still that entry. -/
  | iadcQHiRead (t : Nat) (n : SessIx)
  /-- IADC_PEEK_LO_READ (R406): A read of IADC_PEEK_LO returns the head's low word and latches its high word without
  popping. -/
  | iadcPeekLoRead (t : Nat) (n : SessIx)
  /-- IADC_PEEK_HI_READ (R406): A read of IADC_PEEK_HI returns the latched or head high word without popping. -/
  | iadcPeekHiRead (t : Nat) (n : SessIx)
  /-- LEG_ENABLE (R409): A write of LEG_CTRL.EN = 1 requests a leg start, tested at each freeze. -/
  | legEnable (t : Nat) (n : SessIx) (l : LegIx)
  /-- LEG_DIAG_RESULT (R410): 800 µs into diagnosis the leg's result is classified and it enters RUN or FAULT. -/
  | legDiagResult (t : Nat) (l : LegIx) (v0 : Fin 65536) (v1 : Fin 65536)
  /-- LEG_DISABLE (R412): A write of EN = 0 ends any pulse and drives LEGnn_PWM low. -/
  | legDisable (t : Nat) (n : SessIx) (l : LegIx)
  /-- LEG_EN_FALL (R412): 2 × T_DT after EN = 0, LEGnn_EN falls and the leg enters OFF. -/
  | legEnFall (t : Nat) (l : LegIx)
  /-- PWR_REQ_OFF (R417): A request to take a domain OFF is judged and its preparation starts or is refused. -/
  | pwrReqOff (t : Nat) (n : SessIx) (d : Fin 32)
  /-- PWR_REQ_RETENTION (R417): A request to put a domain in RETENTION is judged and its preparation starts or is refused.
  -/
  | pwrReqRetention (t : Nat) (n : SessIx) (d : Fin 32)
  /-- PWR_REQ_ON (R417): A request to bring a domain ON restores it and its required domains in order. -/
  | pwrReqOn (t : Nat) (n : SessIx) (d : Fin 32)
  /-- PWR_PREPARED (R419): A domain's preparation ends, or 2 s pass, and it enters its target state. -/
  | pwrPrepared (t : Nat) (d : DomIx)
  /-- DOMAIN_RESTORE_STEP (R420): A restore step's delay passes, its domains come ON and the next step begins. -/
  | domainRestoreStep (t : Nat)
  /-- I2C_ADDRESS_MATCH (R422): The wake address is matched, ACK is driven and SCL is stretched while the wake set is
  restored. -/
  | i2cAddressMatch (t : Nat) (addr : Fin 128)
  /-- PWR_STRETCH_LIMIT (R422): The stretch reaches STRETCH_MAX; SCL is released and further bytes are NACKed until MGMT
  is on. -/
  | pwrStretchLimit (t : Nat)
  /-- PWR_SUPPLY_LOST (R424): A supply input becomes invalid; with both lost every switchable domain and SAFE lose power
  at once. -/
  | pwrSupplyLost (t : Nat) (b : Bool)
  /-- PWR_SUPPLY_RESTORED (R424): A supply input becomes valid, starting a cold start when none was. -/
  | pwrSupplyRestored (t : Nat) (b : Bool) (straps : Straps)
  /-- CREMA_TAMPER_CHECK (R427): Once per second the tamper loop is checked and an open loop sets TAMPER with its RTC
  time. -/
  | cremaTamperCheck (t : Nat) (open_ : Bool)
  /-- CREMA_CHARGE_DONE (R428): The backup cell charge current falls below 35 µA at 4.10 V and charging ends. -/
  | cremaChargeDone (t : Nat) (uAh : Nat)
  /-- CREMA_CHG_TEMP (R428): Every 10 s the charging temperature window is checked and charging stops outside it. -/
  | cremaChgTemp (t : Nat) (ok : Bool) (vcell : Nat) (vharv : Nat) (iharv : Nat)
  /-- CREMA_CELL_CUTOFF (R429): The backup cell reaches 3.00 V and its load is cut off, stopping the RTC. -/
  | cremaCellCutoff (t : Nat)
  /-- CREMA_CAP_TEST (R430): After 30 days without a capacity result a test discharge of the backup cell starts. -/
  | cremaCapTest (t : Nat)
  /-- CREMA_CAP_TEST_END (R430): The test discharge reaches 3.70 V and recharge begins. -/
  | cremaCapTestEnd (t : Nat)
  /-- THM_UPDATE (R432): Every 1/1,024 s each region's temperature estimate is updated and warnings or shutdowns are
  applied. -/
  | thmUpdate (t : Nat) (p : List Nat)
  /-- THM_RESTART (R434): A region in thermal hold below 105 °C after 10 s is restored with its dependants. -/
  | thmRestart (t : Nat) (d : DomIx)
  /-- THM_CP_STALE (R433): No cold-plate result for 2 s, or an out-of-range result, makes the model use at least 70 °C. -/
  | thmCpStale (t : Nat)
  /-- THM_PEAK_READ (R469): A read of THM_REG_CNT returns PEAK and restarts it at the present estimate. -/
  | thmPeakRead (t : Nat) (n : SessIx) (d : DomIx)
  /-- NRESET_ASSERT (R437): nRESET held low for 1 µs turns every switchable domain off at once. -/
  | nresetAssert (t : Nat)
  /-- NRESET_RELEASE (R437): The rising edge of nRESET begins a cold start and the straps are sampled. -/
  | nresetRelease (t : Nat) (straps : Straps)
  /-- CFG_IMAGE_READ_DONE (R447): The image read completes and its header, section CRCs and signature are judged. -/
  | cfgImageReadDone (t : Nat) (img : Option Image)
  /-- CFG_LOAD_DONE (R449): The block checks of the load transaction complete and the image takes effect or the slot
  fails. -/
  | cfgLoadDone (t : Nat)
  /-- CFG_READY (R440): Every mapped cell has left the admission states, or 10 s pass, and the module reports READY. -/
  | cfgReady (t : Nat)
  /-- CFG_CMD_NONE (R451): CFG_CMD with CMD = NONE does nothing. -/
  | cfgCmdNone (t : Nat) (n : SessIx)
  /-- CFG_ACTIVATE (R451): ACTIVATE verifies the other slot and prefers it on trial in the boot record. -/
  | cfgActivate (t : Nat) (n : SessIx) (img : Option Image)
  /-- CFG_CONFIRM (R451): CONFIRM ends the trial of the slot in use. -/
  | cfgConfirm (t : Nat) (n : SessIx)
  /-- CFG_VERIFY (R451): VERIFY runs checks 1-9 on the named slot and reports in CFG_VERIFY. -/
  | cfgVerify (t : Nat) (n : SessIx) (slot : Fin 2) (img : Option Image)
  /-- CFG_RELOAD (R454): RELOAD repeats the load transaction from the chosen slot without a cold start. -/
  | cfgReload (t : Nat) (n : SessIx)
  /-- CFG_FW_SWITCH (R452): FW_SWITCH rewrites FW_PREFER for the next start of MGMT. -/
  | cfgFwSwitch (t : Nat) (n : SessIx)
  /-- CFG_RESTART (R437): The Service RESTART command acts as a 10 µs nRESET pulse. -/
  | cfgRestart (t : Nat) (n : SessIx)
  /-- XSPI_READ_FRAME (R445): XSPI_CMD_GO with DIR read sends a read frame, refused over protected regions or while the
  image is read. -/
  | xspiReadFrame (t : Nat) (n : SessIx) (ok : Bool) (data : List Byte)
  /-- XSPI_WRITE_FRAME (R445): XSPI_CMD_GO with DIR write sends a program or erase frame, refused over protected regions.
  -/
  | xspiWriteFrame (t : Nat) (n : SessIx) (ok : Bool)
  /-- XSPI_FAULT (R453): A firmware fetch from flash fails and the management processor enters the ROM monitor. -/
  | xspiFault (t : Nat) (dev : Fin 8) (addr : Nat)
  /-- MGMT_START (R452): MGMT starts firmware from the preferred valid region, closing the field lock when configured. -/
  | mgmtStart (t : Nat) (valid : Fin 4) (ver : Word)
  /-- ACC_LOCK_CLOSE (R457): A write of 1 to ACC_FIELD_LOCK.CLOSE closes the field lock. -/
  | accLockClose (t : Nat) (n : SessIx)
  /-- ACC_OPENER_EXPIRED (R458): HOLD_MIN minutes after reopening, the opener's level ends. -/
  | accOpenerExpired (t : Nat)
  /-- ACC_AUTH_UNBLOCK (R459): A CHALLENGE block ends after 10 min. -/
  | accAuthUnblock (t : Nat)
  /-- ACC_KEY_DATA_WRITE (R460): A write of ACC_KEY_DATAw stores key bytes and restarts the 60 s clearing timer. -/
  | accKeyDataWrite (t : Nat) (n : SessIx) (w : Fin 8) (value : Word) (mask : Word)
  /-- ACC_KEY_PROGRAM (R460): PROGRAM from Service programs the selected blank OTP slot and clears the data registers. -/
  | accKeyProgram (t : Nat) (n : SessIx) (k : Fin 4)
  /-- ACC_KEY_DATA_CLEAR (R460): 60 s after the last key data write without PROGRAM, the data registers are cleared. -/
  | accKeyDataClear (t : Nat)
  /-- MGMT_FRAME_BAD (R462): A frame with wrong MAGIC, length or CRC is discarded without reply and counted. -/
  | mgmtFrameBad (t : Nat) (i2c : Bool) (bytes : List Byte)
  /-- MGMT_OPEN (R464): OPEN negotiates a version and level and creates a bound session. -/
  | mgmtOpen (t : Nat) (h : MHead) (body : List Byte)
  /-- MGMT_CLOSE (R465): CLOSE closes the session, discarding its open Pour and held _LO writes. -/
  | mgmtClose (t : Nat) (h : MHead)
  /-- MGMT_SESSION_IDLE (R465): A session's idle time passes without a request and it is closed. -/
  | mgmtSessionIdle (t : Nat) (n : SessIx)
  /-- MGMT_READ (R466): READ executes up to 32 register reads in order, each with its status. -/
  | mgmtRead (t : Nat) (h : MHead) (body : List Byte)
  /-- MGMT_WRITE (R466): WRITE executes up to 32 masked writes in order up to the first not OK. -/
  | mgmtWrite (t : Nat) (h : MHead) (body : List Byte) (e : AccEnv)
  /-- READ_BLOCK (R466): READ_BLOCK reads consecutive words, including windows, stopping at the first not OK. -/
  | readBlock (t : Nat) (h : MHead) (body : List Byte)
  /-- EVENT_FETCH (R474): EVENT_FETCH returns log entries from a start SEQ in a code range, with placeholders for missing
  runs. -/
  | eventFetch (t : Nat) (h : MHead) (body : List Byte)
  /-- RECORD_QUERY (R467): RECORD_QUERY returns a stream's range as runs of AVAILABLE, GAP, LOST, EXPIRED and PENDING. -/
  | recordQuery (t : Nat) (h : MHead) (body : List Byte)
  /-- RECORD_FETCH (R467): RECORD_FETCH returns bytes of one durable record or capture record. -/
  | recordFetch (t : Nat) (h : MHead) (body : List Byte) (e : ReadFail)
  /-- CHALLENGE (R458): CHALLENGE returns a 16-byte nonce for reopening at a level, or BUSY when blocked or another
  session is opener. -/
  | challenge (t : Nat) (h : MHead) (body : List Byte)
  /-- RESPONSE (R458): RESPONSE is judged by password or key and makes the session opener, or counts a rejection. -/
  | response (t : Nat) (h : MHead) (body : List Byte)
  /-- I2C_REPLY_READ (R463): An I2C read transaction returns the reply frame length and frame, or a length of 0 when not
  ready. -/
  | i2cReplyRead (t : Nat)
  /-- LOG_ENTRY (R472): An event reaches the log sequencer, is numbered and written to MRAM or the fallback log and
  offered to Carafe. -/
  | logEntry (t : Nat) (code : Fin 65536) (inst : Fin 65536) (data : List DItem) (fails : Fin 3)
  /-- LOG_SEQ_RESTORED (R472): The numbering hold ends and held entries are numbered from the newest sequence found. -/
  | logSeqRestored (t : Nat)
  /-- LOG_RETEST (R476): The Service RETEST command starts rewriting and verifying every MRAM slot. -/
  | logRetest (t : Nat) (n : SessIx)
  /-- LOG_RETEST_DONE (R476): The retest ends; on success TARGET returns to 0 and fallback entries are copied into MRAM.
  -/
  | logRetestDone (t : Nat) (bad : List Nat)
  /-- GRIND_SCRUB (R477): A Grind pass of SRAM, DRAM or MRAM falls due, checks every word and handles corrected and
  uncorrectable errors. -/
  | grindScrub (t : Nat) (m : Fin 3) (corr : Nat) (lanes : List (Nat × Nat)) (unc : List (GrindHit × Nat))
  /-- SFP_INSERT (R489): A transceiver is inserted, read within 300 ms and enabled if it supports its cage's rate. -/
  | sfpInsert (t : Nat) (c : Fin 20) (rateOk : Bool) (readMs : Nat)
  /-- SFP_REMOVE (R489): A transceiver is removed, acting as a ring link loss or a LAN loss. -/
  | sfpRemove (t : Nat) (c : Fin 20)
  /-- SFP_OVERCURRENT (R498): A transceiver above its cage current limit has its cage switched off. -/
  | sfpOvercurrent (t : Nat) (c : Fin 20) (mA : Nat)
  /-- CMP_OUTPUT_INACTIVE (R393): A comparator input crosses back past its band so the comparator output becomes inactive,
  clearing a TRANSPARENT trip latch and removing a halt source. -/
  | cmpOutputInactive (t : Nat) (x : CmpLevel)
  /-- LEG_UPDATE_POINT (R137): At a leg's carrier start or mid-period point the armed shadow compares are loaded, a
  released latch returns the leg to RUN and the first pulse after diagnosis falls. -/
  | legUpdatePoint (t : Nat) (l : LegIx)
  /-- RING_DISABLE (R93): A write of RING_CTRL.EN = 0 disables the ring's port pair; the ring goes DOWN and every entry of
  the ring goes ABSENT. -/
  | ringDisable (t : Nat) (n : SessIx) (r : RingIx)
  /-- DLY_REQ_SEND (R83): Every 10 µs each module port end sends a DLY_REQ ordered set in an idle gap to start a delay
  exchange. -/
  | dlyReqSend (t : Nat) (r : RingIx) (portB : Bool)
  /-- HARV_SOURCE_CHANGE (R424): The harvest converter gains or loses its operating point at HARV, changing HARV_OK, the
  Crema source and backup cell charging. -/
  | harvSourceChange (t : Nat) (ok : Bool)
  deriving DecidableEq, Repr

end Sys2Proof
end

