-- ==== Sys2Proof/WellFormed.lean ====
section
/-! DEFINITION. Which terms of `Instr` are commands that can reach the module: the widths the spec gives the fields of
a message, an address, an item. The machine itself is total on every term of `Instr`. -/

namespace Sys2Proof

open Sys2Proof.Machine

/-- R10: an address has 32 bits; one that no row of the map holds, or that is not a word's, is answered BAD_ADDR. -/
def okAddr (a : Nat) : Bool := decide (a < 2 ^ 32)

/-- R462: SESSION is a byte, TAG 16 bits, SEQ 32 bits. -/
def okHead (h : MHead) : Bool := decide (h.session < 256) && decide (h.tag < 65536) && decide (h.seq < 2 ^ 32)

/-- R462: at most 1,452 bytes of body on UDP and 256 on I²C. -/
def okBody (h : MHead) (b : List Byte) : Bool := okHead h && decide (b.length ≤ if h.i2c then 256 else 1452)

/-- R471: an item is a word of 4 bytes, signed or not, or of 8. -/
def okItem : DItem → Bool
  | .w v => decide (-2 ^ 31 ≤ v) && decide (v < 2 ^ 32)
  | .d v => decide (v < 2 ^ 64)

/-- R231: MAC addresses of 48 bits, the trailer's sequence number of 16. -/
def okEth (h : EthHead) : Bool :=
  decide (h.src < 2 ^ 48) && decide (h.dst < 2 ^ 48) && (match h.rct with | some (_, q) => decide (q < 65536) | none => true)

/-- R234: INT32 values, a 16-bit smpCnt, a 32-bit confRev, at most 32 channels. -/
def okAsdu (a : SvAsdu) : Bool :=
  decide (a.smpCnt < 65536) && decide (a.confRev < 2 ^ 32) && decide (a.chans.length ≤ 32) &&
  a.chans.all fun c => decide (-2 ^ 31 ≤ c.1) && decide (c.1 < 2 ^ 31)

def okSv (f : SvFrame) : Bool := okEth f.head && decide (f.appId < 65536) && f.asdus.all okAsdu

/-- R248: 32-bit stNum, sqNum and confRev. -/
def okGoose (f : GooseFrame) : Bool :=
  okEth f.head && decide (f.appId < 65536) && decide (f.stNum < 2 ^ 32) && decide (f.sqNum < 2 ^ 32) &&
  decide (f.confRev < 2 ^ 32)

/-- R48, R51: the fields of an Announce message are bytes, but for the variance (16 bits) and the identity (64). -/
def okAnnounce (a : Announce) : Bool :=
  decide (a.domain < 256) && decide (a.priority1 < 256) && decide (a.clockClass < 256) && decide (a.accuracy < 256) &&
  decide (a.variance < 65536) && decide (a.priority2 < 256) && decide (a.gmId < 2 ^ 64)

/-- R446: an image as read says how many sections it has. -/
def okImage : Option Image → Bool
  | some i => decide (i.sections.length = i.nsec)
  | none => true

/-- The operands of a command are within the spec's widths. -/
def WellFormed : Instr → Bool
  | .registerWrite _ _ addr _ _ e => okAddr addr && okImage e.img
  | .pairLoRead _ _ addr => okAddr addr
  | .pairHiRead _ _ addr => okAddr addr
  | .pairLoWrite _ _ addr _ _ => okAddr addr
  | .pairHiWrite _ _ addr _ _ => okAddr addr
  | .timeNowFracRead .. => true
  | .cycleStart .. => true
  | .inputFreeze .. => true
  | .scheduleLaunch .. => true
  | .refSelWrite .. => true
  | .refLost .. => true
  | .refSwitch .. => true
  | .mdllLocked .. => true
  | .mdllTakeover .. => true
  | .suspensionEnd .. => true
  | .mdllRetry .. => true
  | .mdllStandbyFault .. => true
  | .clkoutCfgWrite .. => true
  | .ptpAnnounce _ _ a => okAnnounce a
  | .ptpSync .. => true
  | .ptpPdelay .. => true
  | .ptpMasterLost .. => true
  | .ptpLanSwitch .. => true
  | .ptpHoldoverExpired .. => true
  | .ppsEdge .. => true
  | .leapApplied .. => true
  | .timeUtcWrite .. => true
  | .rtcRealign .. => true
  | .calRange .. => true
  | .rtcCalDateRead .. => true
  | .rtcCalDateWrite .. => true
  | .rtcCalTimeWrite .. => true
  | .wakeFromRtc .. => true
  | .cremaStart .. => true
  | .telemetryFrameRx .. => true
  | .mbxReply .. => true
  | .mbxLeaseExpired .. => true
  | .haltRepeat .. => true
  | .dlyReqRx .. => true
  | .dlyRspRx .. => true
  | .alignFault .. => true
  | .ringEnable .. => true
  | .ringRediscover .. => true
  | .discoveryRetry .. => true
  | .linkBlockLock .. => true
  | .discoverFrameRx .. => true
  | .ringUp .. => true
  | .linkDown .. => true
  | .linkDegraded .. => true
  | .ringLost .. => true
  | .ringHealed .. => true
  | .cellDiagTimeout .. => true
  | .cellDiagRetry .. => true
  | .cellLowVdcRecheck .. => true
  | .cellUnreachable .. => true
  | .cellStaleFault .. => true
  | .pwmTripLatch .. => true
  | .cellOvertempBypass .. => true
  | .cellAutoReturn .. => true
  | .cellRepeatFault .. => true
  | .cellRampEnd .. => true
  | .cellBypassTimeout .. => true
  | .faultBypassTimeout .. => true
  | .cellReturnOpen .. => true
  | .cellReturnTimeout .. => true
  | .cellCmdNone _ _ _ expect => decide (expect < 16)
  | .cellDiagnose _ _ _ expect => decide (expect < 16)
  | .cellBypass _ _ _ expect => decide (expect < 16)
  | .cellReturn _ _ _ expect => decide (expect < 16)
  | .cellRetire _ _ _ expect => decide (expect < 16)
  | .cellUnretire _ _ _ expect => decide (expect < 16)
  | .cellClearFault _ _ _ expect => decide (expect < 16)
  | .cellLockout _ _ _ expect => decide (expect < 16)
  | .cellRelease _ _ _ expect => decide (expect < 16)
  | .cellTlmRead .. => true
  | .pwmTransitionEnd .. => true
  | .pwmCntClear .. => true
  | .pwmLegLatch .. => true
  | .legLatchRelease .. => true
  | .dlyCal .. => true
  | .svFrameRx _ f => okSv f
  | .svSampleMissing .. => true
  | .svStreamLost .. => true
  | .gridBlindEnd .. => true
  | .bsiSample .. => true
  | .gridBsiUnfit .. => true
  | .gridBsiFit .. => true
  | .gridPhaseJump .. => true
  | .gridSeqReversed .. => true
  | .gridVoltageLost .. => true
  | .gridSettled .. => true
  | .gridHoldExpired .. => true
  | .gridIarmLost .. => true
  | .gridIarmDisagree .. => true
  | .mpptStep .. => true
  | .mpptShadeQueue .. => true
  | .mpptScanDue .. => true
  | .mpptScanPoint .. => true
  | .mpptScanDone .. => true
  | .mpptCapInstant .. => true
  | .mpptVocSet .. => true
  | .mpptVocDefault .. => true
  | .mpptDark .. => true
  | .mpptDarkClear .. => true
  | .mpptCmdNone .. => true
  | .scanCell .. => true
  | .scanCluster .. => true
  | .cancelScan .. => true
  | .frtEvaluation .. => true
  | .frtFastScan .. => true
  | .frtCmdNone .. => true
  | .frtCmdStart .. => true
  | .frtCmdStop .. => true
  | .frtCmdReset .. => true
  | .frtCmdExpired .. => true
  | .islPassive .. => true
  | .islPassiveClear .. => true
  | .islChip .. => true
  | .islEstimate .. => true
  | .pbLinkDown .. => true
  | .pbLinkUp .. => true
  | .pbLanLost .. => true
  | .pbHsrOpen .. => true
  | .gooseFrameRx _ f => okGoose f
  | .gooseSubInvalid .. => true
  | .goosePubRepeat .. => true
  | .svPubFrame .. => true
  | .mtrWindowEnd .. => true
  | .mtrSeqWrong .. => true
  | .mtrNMissing .. => true
  | .mtrIntervalClose .. => true
  | .mtrAccSave .. => true
  | .laneExcluded .. => true
  | .laneCeased .. => true
  | .laneAutoRestart .. => true
  | .laneRestartDone .. => true
  | .laneRejoinStart .. => true
  | .laneSelftestDone .. => true
  | .laneLoadDone .. => true
  | .laneCopyRound .. => true
  | .laneSwitch .. => true
  | .laneInService .. => true
  | .laneRejoinFail .. => true
  | .laneCmdNone .. => true
  | .laneExclude .. => true
  | .laneRejoin .. => true
  | .laneRestart .. => true
  | .voterFault .. => true
  | .mergeFault .. => true
  | .pourBegin .. => true
  | .pourAdd _ _ addr _ _ => okAddr addr
  | .pourCommit .. => true
  | .pourAbort _ _ id => decide (id < 65536)
  | .pourCheck .. => true
  | .pourTokenGrant .. => true
  | .pourCommitted .. => true
  | .pourTokenExpired .. => true
  | .pourTakeEffect _ e => okImage e.img
  | .pourEffective .. => true
  | .recRecordAdmit .. => true
  | .recFlushTimer .. => true
  | .nvmeCompletion .. => true
  | .driveCmdLeaseExpired .. => true
  | .driveUnresponsive .. => true
  | .driveIdentify .. => true
  | .recCheckpoint .. => true
  | .recCapEnd .. => true
  | .recCapSoftTrigger .. => true
  | .recSmartPoll .. => true
  | .recCmdNone .. => true
  | .recSync .. => true
  | .recFormat .. => true
  | .recAdopt .. => true
  | .recRemove .. => true
  | .recAdd .. => true
  | .recMounted .. => true
  | .recStatusRead .. => true
  | .wearModelUpdate .. => true
  | .wearCapEstimate .. => true
  | .wearDaily .. => true
  | .wearEvaluation .. => true
  | .wearRecordFail .. => true
  | .wearFaultClear .. => true
  | .wearRfSelect .. => true
  | .safeSelftestDone .. => true
  | .safeInputFiltered .. => true
  | .safeEvaluation .. => true
  | .safeDiscrepancy .. => true
  | .safeTestPulse .. => true
  | .safeOutputPulse .. => true
  | .safeResetPulse .. => true
  | .safeResetStuck .. => true
  | .safeTokenIssue .. => true
  | .safeConnLost .. => true
  | .safeConnRecover .. => true
  | .safePduIssue .. => true
  | .cmpTrip .. => true
  | .cmpFilterActive .. => true
  | .cmpTick .. => true
  | .cmpSettled .. => true
  | .cmpTripClear .. => true
  | .cmpPeriodClear .. => true
  | .bsiStopped .. => true
  | .bsiOverrange .. => true
  | .iadcRoundStart .. => true
  | .iadcConversionDone .. => true
  | .iadcHousekeeping .. => true
  | .iadcQLoRead .. => true
  | .iadcQHiRead .. => true
  | .iadcPeekLoRead .. => true
  | .iadcPeekHiRead .. => true
  | .legEnable .. => true
  | .legDiagResult .. => true
  | .legDisable .. => true
  | .legEnFall .. => true
  | .pwrReqOff .. => true
  | .pwrReqRetention .. => true
  | .pwrReqOn .. => true
  | .pwrPrepared .. => true
  | .domainRestoreStep .. => true
  | .i2cAddressMatch .. => true
  | .pwrStretchLimit .. => true
  | .pwrSupplyLost .. => true
  | .pwrSupplyRestored .. => true
  | .cremaTamperCheck .. => true
  | .cremaChargeDone .. => true
  | .cremaChgTemp .. => true
  | .cremaCellCutoff .. => true
  | .cremaCapTest .. => true
  | .cremaCapTestEnd .. => true
  | .thmUpdate _ p => decide (p.length = 21)
  | .thmRestart .. => true
  | .thmCpStale .. => true
  | .thmPeakRead .. => true
  | .nresetAssert .. => true
  | .nresetRelease .. => true
  | .cfgImageReadDone _ img => okImage img
  | .cfgLoadDone .. => true
  | .cfgReady .. => true
  | .cfgCmdNone .. => true
  | .cfgActivate _ _ img => okImage img
  | .cfgConfirm .. => true
  | .cfgVerify _ _ _ img => okImage img
  | .cfgReload .. => true
  | .cfgFwSwitch .. => true
  | .cfgRestart .. => true
  | .xspiReadFrame .. => true
  | .xspiWriteFrame .. => true
  | .xspiFault _ _ addr => okAddr addr
  | .mgmtStart .. => true
  | .accLockClose .. => true
  | .accOpenerExpired .. => true
  | .accAuthUnblock .. => true
  | .accKeyDataWrite .. => true
  | .accKeyProgram .. => true
  | .accKeyDataClear .. => true
  | .mgmtFrameBad .. => true
  | .mgmtOpen _ h body => okBody h body
  | .mgmtClose _ h => okHead h
  | .mgmtSessionIdle .. => true
  | .mgmtRead _ h body => okBody h body
  | .mgmtWrite _ h body e => okBody h body && okImage e.img
  | .readBlock _ h body => okBody h body
  | .eventFetch _ h body => okBody h body
  | .recordQuery _ h body => okBody h body
  | .recordFetch _ h body _ => okBody h body
  | .challenge _ h body => okBody h body
  | .response _ h body => okBody h body
  | .i2cReplyRead .. => true
  | .logEntry _ _ _ data _ => data.all okItem
  | .logSeqRestored .. => true
  | .logRetest .. => true
  | .logRetestDone .. => true
  | .grindScrub .. => true
  | .sfpInsert .. => true
  | .sfpRemove .. => true
  | .sfpOvercurrent .. => true
  | .cmpOutputInactive .. => true
  | .legUpdatePoint .. => true
  | .ringDisable .. => true
  | .dlyReqSend .. => true
  | .harvSourceChange .. => true

end Sys2Proof
end

