-- ==== Sys2Proof/Decode.lean ====
section
/-! DEFINITION. The commands that a word of bits spells. No row of the opcode table gives its command bits: commands
reach the module as register accesses, frames and events, and none is fetched. -/

namespace Sys2Proof

/-- The command spelled by `nbits` bits `w` under the opcode table: none, since no row gives bits. -/
def decodeTableWord (_nbits _w : Nat) : Option Instr := none

end Sys2Proof
end

