-- ==== Sys2Proof/Machine/Bits.lean ====
section
/-! DEFINITION. Bit fields of a register word, sign extension, byte strings and the integer arithmetic that several
chapters share. -/

namespace Sys2Proof.Machine

/-- The value of the `wd`-bit field at bit `lo` of a word. -/
def fieldOf (w : Word) (lo wd : Nat) : Nat := w.toNat / 2 ^ lo % 2 ^ wd

/-- A word with the `wd`-bit field at bit `lo` replaced by the low bits of `v`. -/
def setBits (w : Word) (lo wd v : Nat) : Word :=
  (w &&& ~~~(BitVec.ofNat 32 ((2 ^ wd - 1) * 2 ^ lo))) ||| BitVec.ofNat 32 (v % 2 ^ wd * 2 ^ lo)

/-- The signed value of the low `n` bits of `v`. -/
def signedOf (n v : Nat) : Int :=
  let u := v % 2 ^ n
  if u < 2 ^ (n - 1) then (u : Int) else (u : Int) - 2 ^ n

/-- The `n`-bit two's complement code of an integer. -/
def codeOf (n : Nat) (x : Int) : Nat := (x % 2 ^ n).toNat

/-- `x` limited to the range from `lo` to `hi`. -/
def clampI (lo hi x : Int) : Int := if x < lo then lo else if hi < x then hi else x

/-- `x` limited to at most `hi`. -/
def satN (hi x : Nat) : Nat := if hi < x then hi else x

/-- `x` saturated to a signed field of `n` bits. -/
def satS (n : Nat) (x : Int) : Int := clampI (-(2 ^ (n - 1))) (2 ^ (n - 1) - 1) x

/-- Bit `k` of a number. -/
def bit (v k : Nat) : Bool := v / 2 ^ k % 2 == 1

/-- 1 for true, 0 for false. -/
def b2n (b : Bool) : Nat := if b then 1 else 0

/-- The quotient rounded up. -/
def ceilDiv (a b : Nat) : Nat := (a + b - 1) / b

/-- The quotient rounded half up. -/
def roundDiv (a b : Int) : Int := (2 * a + b).fdiv (2 * b)

/-- The number of set bits among the low `n`. -/
def popCount (n v : Nat) : Nat := ((List.range n).filter (bit v)).length

/-- `n` bytes of `v`, least significant first (R10, R462). -/
def leBytes : Nat → Nat → List Byte
  | 0, _ => []
  | n + 1, v => BitVec.ofNat 8 v :: leBytes n (v / 256)

/-- The number whose bytes, least significant first, are given. -/
def leValue : List Byte → Nat
  | [] => 0
  | b :: r => b.toNat + 256 * leValue r

/-- Replace entry `k` of a list. -/
def listSet {α : Type} : List α → Nat → α → List α
  | [], _, _ => []
  | _ :: r, 0, v => v :: r
  | x :: r, k + 1, v => x :: listSet r k v

/-- The integer square root, by bisection over `n` bits. -/
def isqrtAux : Nat → Nat → Nat → Nat
  | 0, _, acc => acc
  | n + 1, v, acc =>
    let t := acc + 2 ^ n
    if t * t ≤ v then isqrtAux n v t else isqrtAux n v acc

/-- The integer square root (rounded down) of a number below 2^128. -/
def isqrt (v : Nat) : Nat := isqrtAux 64 v 0

end Sys2Proof.Machine
end

