-- ==== Sys2Proof/Machine/Flags.lean ====
section
/-! DEFINITION. The check sequences of the spec: CRC-16 and CRC-8 of the link layer (R64), CRC-32C (R316, R462) and
the safety check (R380), each over a byte string. -/

namespace Sys2Proof.Machine

/-- One bit of a non-reflected CRC of `w` bits, most significant bit first. -/
def crcBit (w poly : Nat) (c : Nat) (b : Bool) : Nat :=
  let top := bit c (w - 1)
  let c1 := c * 2 % 2 ^ w
  if top != b then c1 ^^^ poly else c1

/-- One byte, most significant bit first. -/
def crcByte (w poly : Nat) (c : Nat) (x : Byte) : Nat :=
  [7, 6, 5, 4, 3, 2, 1, 0].foldl (fun a k => crcBit w poly a (x.getLsbD k)) c

/-- R64: CRC-16, polynomial 0x1021, initial value 0xFFFF. -/
def crc16 (l : List Byte) : Nat := l.foldl (crcByte 16 0x1021) 0xFFFF

/-- R64: CRC-8, polynomial 0x2F, initial value 0xFF, final XOR 0xFF. -/
def crc8 (l : List Byte) : Nat := l.foldl (crcByte 8 0x2F) 0xFF ^^^ 0xFF

/-- One bit of a reflected CRC of 32 bits. -/
def crcRBit (poly : Nat) (c : Nat) : Nat := if c % 2 = 1 then (c / 2) ^^^ poly else c / 2

/-- One byte of a reflected CRC. -/
def crcRByte (poly : Nat) (c : Nat) (x : Byte) : Nat :=
  (List.range 8).foldl (fun a _ => crcRBit poly a) (c ^^^ x.toNat)

/-- CRC-32C (reflected polynomial 0x82F63B78, initial value and final XOR all ones). -/
def crc32c (l : List Byte) : Nat := l.foldl (crcRByte 0x82F63B78) 0xFFFFFFFF ^^^ 0xFFFFFFFF

/-- The safety check, polynomial 0xF4ACFB13, from a start value (R380). -/
def crcSafe (init : Nat) (l : List Byte) : Nat := l.foldl (crcByte 32 0xF4ACFB13) init

/-- Byte `k` of a byte string (0 beyond its end). -/
def byteAt (l : List Byte) (k : Nat) : Nat := (l.getD k 0).toNat

/-- `n` bytes of a byte string from `k`. -/
def bytesAt (l : List Byte) (k n : Nat) : List Byte := (l.drop k).take n

/-- The little-endian number of `n` bytes at `k`. -/
def leAt (l : List Byte) (k n : Nat) : Nat := leValue (bytesAt l k n)

/-- The big-endian number of `n` bytes at `k`. -/
def beAt (l : List Byte) (k n : Nat) : Nat := (bytesAt l k n).foldl (fun a b => a * 256 + b.toNat) 0

end Sys2Proof.Machine
end

