-- ==== Sys2Proof/Config.lean ====
section
/-! DEFINITION. What one unit or one implementation fixes, and the values the spec leaves open: opaque constants
without a body, so that no proof can see a value of theirs. -/

namespace Sys2Proof

/-- A free number: the `k`-th value the spec leaves open in a run (the counter `State.free` supplies `k`).
DESIGN CHOICE, log entry 12: safe. -/
opaque Config.freeNat : Nat → Nat

/-- Values that OTP or ROM holds for one unit (serial number, NTC constants, MAC addresses, hardware revision),
by register and index (R14 maps "from OTP", "from ROM"). DESIGN CHOICE, log entry 13: safe. -/
opaque Config.otpWord : Nat → Nat → BitVec 32

/-- SHA-256 of a byte string (R455, R458), its 32 bytes in the order sent as a number, the first one least significant;
the spec names the function and does not define it. DESIGN CHOICE, log entry 14: safe. -/
opaque Config.sha256 : List (BitVec 8) → BitVec 256

/-- HMAC-SHA-256 under a key (R446, R458), as a number like `sha256`; the spec names the function and does not define
it. DESIGN CHOICE, log entry 14: safe. -/
opaque Config.hmacSha256 : List (BitVec 8) → List (BitVec 8) → BitVec 256

/-- A real-valued function of the spec whose rounding the spec does not state (exp, ln, arctangent, DFT …), or a result
that it does not state for these operands (a quotient by 0, log entry 257), by a function number and its operands: the
result is free. DESIGN CHOICE, log entry 15: safe. -/
opaque Config.openFn : Nat → List Int → Int

/-- Which neighbour a quotient that is no whole number is rounded to, where the spec states no rounding: true for the
upper one, by numerator and denominator. DESIGN CHOICE, log entry 15: safe. -/
opaque Config.roundUp : Int → Int → Bool

/-- R50: the announce receipt timeout and the Sync interval of the profile, in units of 125 ps; the spec states neither.
DESIGN CHOICE, log entry 194: safe. -/
opaque Config.announceTimeout : Nat
opaque Config.syncInterval : Nat

end Sys2Proof
end

