-- ==== Sys2Proof/Machine/EventCodes.lean ====
section
/-! DEFINITION. The event codes, from the event tables of the spec's chapters (R15, R471). -/

namespace Sys2Proof.Machine.Ev

/-- spec/02_time_base.md: REF_IN lost, TCXO in use -/
abbrev REF_LOST : Nat := 0x0101
/-- spec/02_time_base.md: Reference changed by software or revert -/
abbrev REF_SWITCH : Nat := 0x0102
/-- spec/02_time_base.md: Standby MDLL took over the root -/
abbrev MDLL_TAKEOVER : Nat := 0x0103
/-- spec/02_time_base.md: Standby MDLL not locked -/
abbrev MDLL_STANDBY_FAULT : Nat := 0x0104
/-- spec/02_time_base.md: Entered LOCKED -/
abbrev PTP_LOCKED : Nat := 0x0105
/-- spec/02_time_base.md: Entered HOLDOVER -/
abbrev PTP_HOLDOVER : Nat := 0x0106
/-- spec/02_time_base.md: TRACEABLE cleared in HOLDOVER -/
abbrev PTP_HOLDOVER_EXPIRED : Nat := 0x0107
/-- spec/02_time_base.md: Module time stepped; data = offset applied, master less module time (R50), signed, ns -/
abbrev TIME_STEP : Nat := 0x0108
/-- spec/02_time_base.md: Slewing more than 1 ms while running -/
abbrev TIME_OFFSET_LARGE : Nat := 0x0109
/-- spec/02_time_base.md: RTC invalid at Crema start -/
abbrev TIME_LOST : Nat := 0x010A
/-- spec/02_time_base.md: Leap second applied to UTC offset -/
abbrev LEAP_APPLIED : Nat := 0x010B
/-- spec/02_time_base.md: Calendar written -/
abbrev RTC_WRITE : Nat := 0x010C
/-- spec/02_time_base.md: Time restored from RTC; data = sleep, ms -/
abbrev WAKE_FROM_RTC : Nat := 0x010D
/-- spec/02_time_base.md: RTC outside calendar range -/
abbrev CAL_RANGE : Nat := 0x010E
/-- spec/03_trodra_link.md: Discovery complete; data = N, version -/
abbrev RING_UP : Nat := 0x0201
/-- spec/03_trodra_link.md: One link down; data = break position -/
abbrev RING_BREAK : Nat := 0x0202
/-- spec/03_trodra_link.md: Link restored -/
abbrev RING_HEALED : Nat := 0x0203
/-- spec/03_trodra_link.md: Two or more links down -/
abbrev RING_SEGMENT_LOST : Nat := 0x0204
/-- spec/03_trodra_link.md: No frames at either port -/
abbrev RING_LOST : Nat := 0x0205
/-- spec/03_trodra_link.md: Ring runs protocol v1; data = count of v1-only cells -/
abbrev RING_V1 : Nat := 0x0206
/-- spec/03_trodra_link.md: Halt frame sent; data = HALT_SEQ, source -/
abbrev HALT_INJECTED : Nat := 0x0207
/-- spec/03_trodra_link.md: t_halt above 4,700 ns -/
abbrev HALT_BUDGET : Nat := 0x0208
/-- spec/03_trodra_link.md: Discovery lists disagree with each other or with the cell map -/
abbrev RING_MAP_MISMATCH : Nat := 0x0209
/-- spec/03_trodra_link.md: Cell alignment residual above 1 ns -/
abbrev ALIGN_FAULT : Nat := 0x020A
/-- spec/03_trodra_link.md: Mailbox lease expired without reply -/
abbrev MBX_TIMEOUT : Nat := 0x020B
/-- spec/03_trodra_link.md: More than 16 blocks with invalid sync header in 1 s on one link -/
abbrev LINK_DEGRADED : Nat := 0x020C
/-- spec/03_trodra_link.md: A cell lacks learned path asymmetry -/
abbrev ASYM_UNKNOWN : Nat := 0x020D
/-- spec/03_trodra_link.md: Per R25 -/
abbrev LOOP_DELAY_INFEASIBLE : Nat := 0x0240
/-- spec/03_trodra_link.md: Per R26 -/
abbrev RING_TIMING_EXCEEDED : Nat := 0x0241
/-- spec/04_cells.md: State change; data = index, from, to, reason -/
abbrev CELL_STATE : Nat := 0x0301
/-- spec/04_cells.md: Node ID differs from map -/
abbrev CELL_ID_MISMATCH : Nat := 0x0302
/-- spec/04_cells.md: Node type differs from cell type -/
abbrev CELL_TYPE_MISMATCH : Nat := 0x0303
/-- spec/04_cells.md: Diagnosis not OK; data = DIAG byte -/
abbrev CELL_DIAG_FAIL : Nat := 0x0304
/-- spec/04_cells.md: Trips counted; data = count -/
abbrev CELL_TRIP : Nat := 0x0305
/-- spec/04_cells.md: Per R106 -/
abbrev CELL_STALE_FAULT : Nat := 0x0306
/-- spec/04_cells.md: Per R106 -/
abbrev CELL_UNREACHABLE : Nat := 0x0307
/-- spec/04_cells.md: Bypass did not move within BYP_TO -/
abbrev CELL_BYPASS_TIMEOUT : Nat := 0x0308
/-- spec/04_cells.md: Per R111; data = resulting M_now -/
abbrev CELL_BYPASS_REFUSED : Nat := 0x0309
/-- spec/04_cells.md: Per R105 and R115; data = session, expected state, actual state -/
abbrev CELL_STATE_MISMATCH : Nat := 0x030A
/-- spec/04_cells.md: M_now < M_CFG -/
abbrev CELL_MARGIN_LOW : Nat := 0x030B
/-- spec/04_cells.md: M_now < 0 -/
abbrev CELL_MARGIN_EXHAUSTED : Nat := 0x030C
/-- spec/04_cells.md: Per R103 -/
abbrev CELL_PATH_FOLLOW : Nat := 0x030D
/-- spec/04_cells.md: Per R108 -/
abbrev CELL_REPEAT_FAULT : Nat := 0x030E
/-- spec/04_cells.md: Per R104 -/
abbrev CELL_CLUSTER_HALT : Nat := 0x030F
/-- spec/05_edge_pwm.md: Cluster configuration fails R127; data = cluster, condition -/
abbrev PWM_CFG_REFUSED : Nat := 0x0401
/-- spec/05_edge_pwm.md: Mid-period update not available on a v1 ring -/
abbrev PWM_MID_DISABLED : Nat := 0x0402
/-- spec/05_edge_pwm.md: Debt clipped; data = cluster, count -/
abbrev PWM_DEBT_CAP : Nat := 0x0403
/-- spec/05_edge_pwm.md: Modulation limited; data = cluster, phase -/
abbrev PWM_M_SAT : Nat := 0x0404
/-- spec/05_edge_pwm.md: Trip latch engaged; data = cell index, or leg + 0x400 -/
abbrev PWM_TRIP_LATCH : Nat := 0x0405
/-- spec/05_edge_pwm.md: Leg cycle-by-cycle trips; data = leg, count; at most 1 per s per leg -/
abbrev PWM_LEG_TRIP : Nat := 0x0406
/-- spec/05_edge_pwm.md: Carrier change began or ended; data = cluster, P′ -/
abbrev PWM_TRANSITION : Nat := 0x0407
/-- spec/05_edge_pwm.md: Delay-line calibration failed; data = leg group -/
abbrev PWM_DLY_CAL_FAIL : Nat := 0x0408
/-- spec/06_control_engine.md: OUT_SAT set; data = program, entry -/
abbrev CE_SAT : Nat := 0x0501
/-- spec/06_control_engine.md: ACC_SAT set; data = program, entry -/
abbrev CE_ACC : Nat := 0x0502
/-- spec/06_control_engine.md: Check of R156 failed; data = check number, entry or program -/
abbrev CE_LOAD_FAIL : Nat := 0x0503
/-- spec/06_control_engine.md: Per R155; data = t_ce, limit -/
abbrev CE_TCE_EXCEEDED : Nat := 0x0504
/-- spec/06_control_engine.md: Per R154; data = program, or entry + 0x1_0000 -/
abbrev CE_STATE_RESET : Nat := 0x0505
/-- spec/06_control_engine.md: Corrected memory error; data = lane, memory -/
abbrev CE_ECC_CORR : Nat := 0x0506
/-- spec/06_control_engine.md: Uncorrectable memory error; data = lane, memory -/
abbrev CE_ECC_UNCORR : Nat := 0x0507
/-- spec/07_grid_sync_current.md: Source changed; data = point, from, to -/
abbrev GRID_SOURCE : Nat := 0x0601
/-- spec/07_grid_sync_current.md: 100 ms in BLIND; SOURCE = NONE -/
abbrev GRID_BLIND_END : Nat := 0x0602
/-- spec/07_grid_sync_current.md: DIP longer than 20 ms -/
abbrev GRID_VOLTAGE_LOST : Nat := 0x0603
/-- spec/07_grid_sync_current.md: Voltage returned from NO_VOLTAGE -/
abbrev GRID_VOLTAGE_RETURN : Nat := 0x0604
/-- spec/07_grid_sync_current.md: Per R166; data = point, angle -/
abbrev GRID_PHASE_JUMP : Nat := 0x0605
/-- spec/07_grid_sync_current.md: Per R167; data = point, new value -/
abbrev GRID_SEQ_REVERSED : Nat := 0x0606
/-- spec/07_grid_sync_current.md: HOLD ended unconverged -/
abbrev GRID_HOLD_EXPIRED : Nat := 0x0607
/-- spec/07_grid_sync_current.md: Per R162 -/
abbrev GRID_BSI_UNFIT : Nat := 0x0608
/-- spec/07_grid_sync_current.md: Samples late or missing; data = count -/
abbrev GRID_SV_LATE : Nat := 0x0609
/-- spec/07_grid_sync_current.md: Per R173; data = cluster, phase -/
abbrev GRID_IARM_LOST : Nat := 0x060A
/-- spec/07_grid_sync_current.md: Per R173; data = cell index -/
abbrev GRID_IARM_DISAGREE : Nat := 0x060B
/-- spec/07_grid_sync_current.md: Per R176 -/
abbrev GRID_I_LIMIT : Nat := 0x060C
/-- spec/07_grid_sync_current.md: Per R181 -/
abbrev GRID_ZS_LIMIT : Nat := 0x060D
/-- spec/07_grid_sync_current.md: Per R182; data = cluster, phase -/
abbrev GRID_BAL_LIMIT : Nat := 0x060E
/-- spec/07_grid_sync_current.md: Start refused, per R174 -/
abbrev GRID_NOT_SYNCED : Nat := 0x060F
/-- spec/08_cell_mppt.md: Phase cap began or stopped binding; data = cluster, phase, bound -/
abbrev MPPT_CURTAIL : Nat := 0x0701
/-- spec/08_cell_mppt.md: Scan completed; data = cell, best point, its power, P_0 -/
abbrev MPPT_SCAN_DONE : Nat := 0x0702
/-- spec/08_cell_mppt.md: Scan aborted; data = cell, cause -/
abbrev MPPT_SCAN_ABORT : Nat := 0x0703
/-- spec/08_cell_mppt.md: Reference writes abandoned; data = ring, count -/
abbrev MPPT_REF_DEFER : Nat := 0x0704
/-- spec/08_cell_mppt.md: Three abandoned writes; data = cell -/
abbrev MPPT_NO_REF : Nat := 0x0705
/-- spec/08_cell_mppt.md: Per R201; data = cell, p_i -/
abbrev MPPT_DARK : Nat := 0x0706
/-- spec/08_cell_mppt.md: Cluster entered or left HOLD; data = cluster, state -/
abbrev MPPT_HOLD : Nat := 0x0707
/-- spec/08_cell_mppt.md: VOC_EST fell back to VOC_NOM; data = cell -/
abbrev MPPT_VOC_DEFAULT : Nat := 0x0708
/-- spec/09_ride_through_islanding.md: Transition; data = cluster, from, to, entry; entry 0xFF for a forced cease (R218) -/
abbrev FRT_STATE : Nat := 0x0801
/-- spec/09_ride_through_islanding.md: Per R218; data = cluster, cause -/
abbrev FRT_FORCED : Nat := 0x0802
/-- spec/09_ride_through_islanding.md: Per R217; data = check, table or curve, entry -/
abbrev FRT_TABLE_FAIL : Nat := 0x0803
/-- spec/09_ride_through_islanding.md: Per R216; data = cluster, condition -/
abbrev FRT_START_REFUSED : Nat := 0x0804
/-- spec/09_ride_through_islanding.md: Per R219 -/
abbrev FRT_CMD_EXPIRED : Nat := 0x0805
/-- spec/09_ride_through_islanding.md: TRIP_OUT set; data = cluster -/
abbrev FRT_TRIP_OUT : Nat := 0x0806
/-- spec/09_ride_through_islanding.md: Per R221 -/
abbrev ISL_DTT : Nat := 0x0807
/-- spec/09_ride_through_islanding.md: Per R221 -/
abbrev ISL_DTT_LOST : Nat := 0x0808
/-- spec/09_ride_through_islanding.md: Per R223; data = ROCOF or VSHIFT -/
abbrev ISL_PASSIVE : Nat := 0x0809
/-- spec/09_ride_through_islanding.md: Per R225; data = Z− -/
abbrev ISL_ACTIVE : Nat := 0x080A
/-- spec/10_process_bus.md: Port lost link; data = port -/
abbrev PB_LINK_DOWN : Nat := 0x0901
/-- spec/10_process_bus.md: Port gained link; data = port -/
abbrev PB_LINK_UP : Nat := 0x0902
/-- spec/10_process_bus.md: Per R232; data = pair, LAN -/
abbrev PB_LAN_LOST : Nat := 0x0903
/-- spec/10_process_bus.md: Frames with the other LAN's trailer; data = pair, count -/
abbrev PB_WRONG_LAN : Nat := 0x0904
/-- spec/10_process_bus.md: Per R240; data = subscription -/
abbrev SV_STREAM_UP : Nat := 0x0905
/-- spec/10_process_bus.md: Per R240 -/
abbrev SV_STREAM_LOST : Nat := 0x0906
/-- spec/10_process_bus.md: Per R236 -/
abbrev SV_CONFREV : Nat := 0x0907
/-- spec/10_process_bus.md: Per R239; data = subscription, source MAC -/
abbrev SV_CONFLICT : Nat := 0x0908
/-- spec/10_process_bus.md: Per R236 -/
abbrev SV_GM_MISMATCH : Nat := 0x0909
/-- spec/10_process_bus.md: Per R246; data = stream, ms -/
abbrev SV_PUB_PAUSED : Nat := 0x090A
/-- spec/10_process_bus.md: Subscription became VALID -/
abbrev GOOSE_SUB_VALID : Nat := 0x090B
/-- spec/10_process_bus.md: Per R248; data = subscription, cause -/
abbrev GOOSE_SUB_INVALID : Nat := 0x090C
/-- spec/10_process_bus.md: Per R248 -/
abbrev GOOSE_CONFLICT : Nat := 0x090D
/-- spec/10_process_bus.md: Per R248 -/
abbrev GOOSE_CONFREV : Nat := 0x090E
/-- spec/10_process_bus.md: Per R254 -/
abbrev PTP_LAN_SWITCH : Nat := 0x090F
/-- spec/10_process_bus.md: Per R241 -/
abbrev PB_OVERLOAD : Nat := 0x0910
/-- spec/10_process_bus.md: Per R232 -/
abbrev PB_HSR_OPEN : Nat := 0x0911
/-- spec/10_process_bus.md: Per R242; data = check, table, index -/
abbrev PB_CONFIG_FAIL : Nat := 0x0912
/-- spec/11_metering.md: Per R260; data = point, channel -/
abbrev MTR_WINDOW_VOID : Nat := 0x0A01
/-- spec/11_metering.md: Per R266; data = point, V or I, new value -/
abbrev MTR_SEQ_WRONG : Nat := 0x0A02
/-- spec/11_metering.md: Per R267 -/
abbrev MTR_N_MISSING : Nat := 0x0A03
/-- spec/11_metering.md: Per R271; data = interval sequence of the source record -/
abbrev MTR_ACC_RESTORED : Nat := 0x0A04
/-- spec/11_metering.md: Per R262; data = point -/
abbrev MTR_ENERGY_CLEARED : Nat := 0x0A05
/-- spec/11_metering.md: Per R259; data = point, entered or left -/
abbrev MTR_UNSYNC : Nat := 0x0A06
/-- spec/11_metering.md: Per R258; data = point, check -/
abbrev MTR_CONFIG_FAIL : Nat := 0x0A07
/-- spec/12_triple_lanes.md: Per R276; data = lane, voter, word -/
abbrev LANE_MINORITY : Nat := 0x0B01
/-- spec/12_triple_lanes.md: Per R277; data = lane, cause -/
abbrev LANE_EXCLUDED : Nat := 0x0B02
/-- spec/12_triple_lanes.md: Rejoin begun; data = lane -/
abbrev LANE_REJOIN_START : Nat := 0x0B03
/-- spec/12_triple_lanes.md: Per R283; data = lane, ms since exclusion -/
abbrev LANE_REJOINED : Nat := 0x0B04
/-- spec/12_triple_lanes.md: Per R282; data = lane, step -/
abbrev LANE_REJOIN_FAIL : Nat := 0x0B05
/-- spec/12_triple_lanes.md: Per R284 -/
abbrev LANE_LOCKED : Nat := 0x0B06
/-- spec/12_triple_lanes.md: Per R278; data = voter, word -/
abbrev LANE_DUPLEX_MISCOMPARE : Nat := 0x0B07
/-- spec/12_triple_lanes.md: Per R279 -/
abbrev LANE_CEASED : Nat := 0x0B08
/-- spec/12_triple_lanes.md: Per R280; data = lanes passing -/
abbrev LANE_RESTART : Nat := 0x0B09
/-- spec/12_triple_lanes.md: Per R286; data = voter -/
abbrev VOTER_FAULT : Nat := 0x0B0A
/-- spec/12_triple_lanes.md: Per R286 -/
abbrev VL_TAKEOVER : Nat := 0x0B0B
/-- spec/12_triple_lanes.md: Per R287; data = ring, port -/
abbrev MERGE_FAULT : Nat := 0x0B0C
/-- spec/12_triple_lanes.md: Per R291; data = resource, holder, ring -/
abbrev LEASE_EXPIRED : Nat := 0x0B0D
/-- spec/12_triple_lanes.md: Per R288; data = duration, ns -/
abbrev OUTPUT_SUSPEND : Nat := 0x0B0E
/-- spec/13_pours_ordering.md: Submitted; data = ID, slot, session -/
abbrev POUR_QUEUED : Nat := 0x0C01
/-- spec/13_pours_ordering.md: Per R305; data = ID, t_c -/
abbrev POUR_COMMITTED : Nat := 0x0C02
/-- spec/13_pours_ordering.md: Per R306; data = ID, unconfirmed targets -/
abbrev POUR_EFFECTIVE : Nat := 0x0C03
/-- spec/13_pours_ordering.md: Per R308; data = ID, result, status, detail -/
abbrev POUR_ABORTED : Nat := 0x0C04
/-- spec/13_pours_ordering.md: Per R304; data = ID, cell, reply -/
abbrev POUR_STAGE_FAIL : Nat := 0x0C05
/-- spec/13_pours_ordering.md: Per R307; data = ID, cell -/
abbrev POUR_UNCONFIRMED : Nat := 0x0C06
/-- spec/13_pours_ordering.md: Per R307; data = cell -/
abbrev POUR_CELL_REFRESHED : Nat := 0x0C07
/-- spec/14_carafe_record_store.md: Per R340; data = pairs in service -/
abbrev REC_MOUNTED : Nat := 0x0D01
/-- spec/14_carafe_record_store.md: Per R320; data = drive, from, to, cause -/
abbrev REC_DRIVE_STATE : Nat := 0x0D02
/-- spec/14_carafe_record_store.md: Per R320; data = pair, from, to -/
abbrev REC_PAIR_STATE : Nat := 0x0D03
/-- spec/14_carafe_record_store.md: Per R327; data = stream, count, cause -/
abbrev REC_GAP : Nat := 0x0D04
/-- spec/14_carafe_record_store.md: Capture started; data = CAP_ID, source -/
abbrev REC_CAP_TRIGGER : Nat := 0x0D05
/-- spec/14_carafe_record_store.md: Per R332; data = CAP_ID, flags -/
abbrev REC_CAP_DONE : Nat := 0x0D06
/-- spec/14_carafe_record_store.md: Write failed; data = drive, status -/
abbrev REC_WRITE_ERROR : Nat := 0x0D07
/-- spec/14_carafe_record_store.md: Per R333 -/
abbrev REC_CAP_BLOCKED : Nat := 0x0D08
/-- spec/14_carafe_record_store.md: Per R333 -/
abbrev REC_CAP_REFUSED : Nat := 0x0D09
/-- spec/14_carafe_record_store.md: Critical warning read; data = drive, bits -/
abbrev REC_SMART_WARN : Nat := 0x0D0A
/-- spec/14_carafe_record_store.md: Per R337 -/
abbrev REC_READ_REPAIR : Nat := 0x0D0B
/-- spec/14_carafe_record_store.md: Per R338 -/
abbrev REC_REBUILD_DONE : Nat := 0x0D0C
/-- spec/14_carafe_record_store.md: Per R316; data = drive, cause -/
abbrev REC_DRIVE_REFUSED : Nat := 0x0D0D
/-- spec/14_carafe_record_store.md: Per R341 -/
abbrev REC_RECOVERED : Nat := 0x0D0E
/-- spec/14_carafe_record_store.md: Per R337; data = pair, PSEG, position -/
abbrev REC_READ_LOST : Nat := 0x0D10
/-- spec/14_carafe_record_store.md: New store; data = STORE_ID low word -/
abbrev REC_FORMATTED : Nat := 0x0D11
/-- spec/15_wear_life.md: Cell became a candidate; data = cell, life -/
abbrev WEAR_CANDIDATE : Nat := 0x0E01
/-- spec/15_wear_life.md: Cell life below 48 h; data = cell, life -/
abbrev WEAR_URGENT : Nat := 0x0E02
/-- spec/15_wear_life.md: Per R358; data = cell, life -/
abbrev WEAR_RETIRE : Nat := 0x0E03
/-- spec/15_wear_life.md: Per R359; data = cell, bound -/
abbrev WEAR_RETIRE_DEFERRED : Nat := 0x0E04
/-- spec/15_wear_life.md: Per R359, R360; data = cell, bound -/
abbrev WEAR_RETIRE_OVERRIDE : Nat := 0x0E05
/-- spec/15_wear_life.md: Per R362; data = part, life -/
abbrev WEAR_MODULE_EOL : Nat := 0x0E06
/-- spec/15_wear_life.md: Per R362; data = offset, 0.01 ppm -/
abbrev WEAR_RTC_DRIFT : Nat := 0x0E07
/-- spec/15_wear_life.md: Per R346 -/
abbrev WEAR_ENGINE_FAULT : Nat := 0x0E08
/-- spec/15_wear_life.md: Wear record unreadable or not written after 24 h; data = cell -/
abbrev WEAR_RECORD_FAIL : Nat := 0x0E09
/-- spec/16_safety.md: Per R370; data = from, to, cause bits -/
abbrev SAFE_STATE : Nat := 0x0F01
/-- spec/16_safety.md: Per R374; data = cause bit -/
abbrev SAFE_DEMAND : Nat := 0x0F02
/-- spec/16_safety.md: Per R374; data = cause bit, channel -/
abbrev SAFE_FAULT : Nat := 0x0F03
/-- spec/16_safety.md: Per R369; data = pair, leading channel -/
abbrev SAFE_DISCREPANCY : Nat := 0x0F04
/-- spec/16_safety.md: Per R381; data = connection -/
abbrev SAFE_CONN_LOST : Nat := 0x0F05
/-- spec/16_safety.md: Per R381; data = connection, failed test -/
abbrev SAFE_CONN_ERROR : Nat := 0x0F06
/-- spec/16_safety.md: Per R372; data = cause bit, or 0xFF for LONG -/
abbrev SAFE_RESET_REJECTED : Nat := 0x0F07
/-- spec/16_safety.md: Per R385; data = PARAM_ID, signature -/
abbrev SAFE_PARAM : Nat := 0x0F08
/-- spec/16_safety.md: Per R371 -/
abbrev SAFE_STARTUP_TEST : Nat := 0x0F09
/-- spec/17_local_analog_legs.md: Filtered state active; data = channel -/
abbrev CMP_ACTIVE : Nat := 0x1001
/-- spec/17_local_analog_legs.md: Per R396; data = channel, state -/
abbrev CMP_SETTLED : Nat := 0x1002
/-- spec/17_local_analog_legs.md: Per R410; data = leg, result, V0, V1 -/
abbrev LEG_DIAG_FAIL : Nat := 0x1003
/-- spec/17_local_analog_legs.md: Per R409; data = leg, from, to -/
abbrev LEG_STATE : Nat := 0x1004
/-- spec/17_local_analog_legs.md: Per R409; data = leg, condition -/
abbrev LEG_START_REFUSED : Nat := 0x1005
/-- spec/17_local_analog_legs.md: Per R401; data = channel -/
abbrev BSI_STOPPED : Nat := 0x1006
/-- spec/17_local_analog_legs.md: Per R401; data = channel -/
abbrev BSI_OVERRANGE : Nat := 0x1007
/-- spec/17_local_analog_legs.md: Per R407; data = count -/
abbrev IADC_OVERFLOW : Nat := 0x1008
/-- spec/17_local_analog_legs.md: Per R404 -/
abbrev IADC_OVERRUN : Nat := 0x1009
/-- spec/17_local_analog_legs.md: Result saturated; data = entry; at most 1 per s -/
abbrev IADC_OVERRANGE : Nat := 0x100A
/-- spec/17_local_analog_legs.md: Per R408; data = check, index -/
abbrev ANA_CONFIG_FAIL : Nat := 0x100B
/-- spec/18_power_domains_crema.md: Domain state change; data = domain, from, to, cause (0 software, 1 wake, 2 thermal, 3 supply) -/
abbrev PWR_STATE : Nat := 0x1101
/-- spec/18_power_domains_crema.md: Per R417; data = domain, blocker, reason -/
abbrev PWR_REQ_REFUSED : Nat := 0x1102
/-- spec/18_power_domains_crema.md: Per R422; data = set reached, stretch time, restore time; times in 10 µs -/
abbrev PWR_WAKE : Nat := 0x1103
/-- spec/18_power_domains_crema.md: Per R424; data = input -/
abbrev PWR_SUPPLY_LOST : Nat := 0x1104
/-- spec/18_power_domains_crema.md: Per R424 -/
abbrev PWR_SUPPLY_RESTORED : Nat := 0x1105
/-- spec/18_power_domains_crema.md: Cut-off found at start (R429) -/
abbrev CREMA_CELL_CUTOFF : Nat := 0x1106
/-- spec/18_power_domains_crema.md: Per R428 -/
abbrev CREMA_CHG_TEMP : Nat := 0x1107
/-- spec/18_power_domains_crema.md: Per R427; data = RTC time -/
abbrev CREMA_TAMPER : Nat := 0x1108
/-- spec/18_power_domains_crema.md: Per R425; data = area offset -/
abbrev CREMA_RAM_LOST : Nat := 0x1109
/-- spec/18_power_domains_crema.md: Per R434; data = region, estimate -/
abbrev THM_WARN : Nat := 0x110A
/-- spec/18_power_domains_crema.md: Per R434; data = region, estimate -/
abbrev THM_SHUTDOWN : Nat := 0x110B
/-- spec/18_power_domains_crema.md: Per R434; data = region -/
abbrev THM_RESTART : Nat := 0x110C
/-- spec/18_power_domains_crema.md: Per R433; data = cause -/
abbrev THM_CP_STALE : Nat := 0x110D
/-- spec/18_power_domains_crema.md: Per R422 -/
abbrev PWR_STRETCH_LIMIT : Nat := 0x110E
/-- spec/19_startup_access.md: Image in effect; data = slot, IMG_VER -/
abbrev CFG_BOOT : Nat := 0x1201
/-- spec/19_startup_access.md: Per R447; data = slot, cause, section, check -/
abbrev CFG_SLOT_INVALID : Nat := 0x1202
/-- spec/19_startup_access.md: Per R451 -/
abbrev CFG_FALLBACK : Nat := 0x1203
/-- spec/19_startup_access.md: Per R451 -/
abbrev CFG_NO_IMAGE : Nat := 0x1204
/-- spec/19_startup_access.md: Per R451 -/
abbrev CFG_TRIAL_EXPIRED : Nat := 0x1205
/-- spec/19_startup_access.md: Per R451; data = slot, IMG_VER -/
abbrev CFG_ACTIVATED : Nat := 0x1206
/-- spec/19_startup_access.md: Per R454 -/
abbrev CFG_RELOAD : Nat := 0x1207
/-- spec/19_startup_access.md: Per R453; data = cause -/
abbrev CFG_MONITOR : Nat := 0x1208
/-- spec/19_startup_access.md: Per R453; data = device, address -/
abbrev XSPI_FAULT : Nat := 0x1209
/-- spec/19_startup_access.md: Per R457; data = cause -/
abbrev ACC_LOCK_CLOSED : Nat := 0x120A
/-- spec/19_startup_access.md: Per R458; data = session, level, mode -/
abbrev ACC_REOPENED : Nat := 0x120B
/-- spec/19_startup_access.md: Per R459; data = session, mode -/
abbrev ACC_AUTH_FAIL : Nat := 0x120C
/-- spec/19_startup_access.md: Per R459 -/
abbrev ACC_AUTH_BLOCKED : Nat := 0x120D
/-- spec/19_startup_access.md: Per R460; data = slot -/
abbrev ACC_KEY_PROGRAMMED : Nat := 0x120E
/-- spec/20_management_registers.md: Per R464; data = session, level, port -/
abbrev MGMT_SESSION_OPEN : Nat := 0x1301
/-- spec/20_management_registers.md: Per R465; data = session, cause (0 CLOSE, 1 idle, 2 domain, 3 lost) -/
abbrev MGMT_SESSION_CLOSE : Nat := 0x1302
/-- spec/20_management_registers.md: Per R475; data = slot -/
abbrev LOG_MEDIA_FAULT : Nat := 0x1303
/-- spec/20_management_registers.md: Per R476 -/
abbrev LOG_MEDIA_RESTORED : Nat := 0x1304
/-- spec/20_management_registers.md: Per R477; data = memory, count -/
abbrev GRIND_CORR : Nat := 0x1305
/-- spec/20_management_registers.md: Per R477; data = memory, address -/
abbrev GRIND_UNCORR : Nat := 0x1306
/-- spec/20_management_registers.md: Per R476; data = count -/
abbrev LOG_FALLBACK_COPIED : Nat := 0x1307
/-- spec/20_management_registers.md: Per R476; data = first SEQ, count -/
abbrev LOG_FALLBACK_LOST : Nat := 0x1308
/-- spec/20_management_registers.md: Per R464; data = majors offered -/
abbrev MGMT_VERSION_REFUSED : Nat := 0x1309
/-- spec/20_management_registers.md: Per R462; data = count -/
abbrev MGMT_FRAME_BAD : Nat := 0x130A
/-- spec/20_management_registers.md: Per R472; data = source, lost count -/
abbrev LOG_SEQ_RESTORED : Nat := 0x130B

end Sys2Proof.Machine.Ev
end

