-- ==== Sys2Proof/Machine/State/Engine.lean ====
section
/-! DEFINITION. The control engine and the PWM engine of the lanes (R117–R158): what no register holds. The lanes in
service agree word for word (R17), so the voted contents are held once. -/

namespace Sys2Proof.Machine

/-- R153: the last CE_SAT or CE_ACC event of a program, and the first entry since then to meet its condition. -/
structure CeNote where
  last  : Option Nat := none
  first : Option Nat := none
  deriving DecidableEq, Repr, Inhabited

/-- R134: a carrier transition of one cell: the old grid, the bridge period from B to S (module time, units; empty where
S = B), and the new grid. -/
structure Bridge where
  p      : Nat
  off    : Nat
  anchor : Nat
  b      : Nat
  s      : Nat
  p2     : Nat
  off2   : Nat
  anchor2 : Nat
  deriving DecidableEq, Repr, Inhabited

/-- R129, R130: the last boundary decision of a half-bridge. -/
structure HbDec where
  on      : Nat := 0
  off     : Nat := 0
  /-- debt used at the boundary, and the debt left, in 1/256 unit -/
  debtIn  : Int := 0
  debt    : Int := 0
  /-- the compensation of R122, 1/256 unit -/
  dtc     : Int := 0
  clipped : Bool := false
  snapped : Bool := false
  deriving DecidableEq, Repr, Inhabited

/-- R128, R124: what a cell's periods are decided with: T_MIN and T_DT in units, and whether they have a mid-period
update point. -/
structure CellTimes where
  tMin : Nat := 0
  tDt  : Nat := 0
  mid  : Bool := false
  deriving DecidableEq, Repr, Inhabited

/-- R126: the period a cell or a leg is aimed at: its start, its length, what it is decided with, the duty of half-bridge 0
as a fraction. -/
structure PwmDec where
  u       : Nat := 0
  p       : Nat := 0
  decided : Bool := false
  times   : CellTimes := {}
  dNum    : Int := 0
  dDen    : Nat := 1
  h0      : HbDec := {}
  h1      : HbDec := {}
  deriving DecidableEq, Repr, Inhabited

/-- R141–R158, R117–R136. -/
structure EngSt where
  /-- R144: values staged by the sequencer, visible from the next pass. -/
  staged  : Tbl (Option Int) := []
  /-- R153: the sticky flags that the last pass set (entry and bits), and the end of its cycle (module time, units). -/
  setNow  : List (Nat × Nat) := []
  setTill : Nat := 0
  sat     : Tbl CeNote := []
  acc     : Tbl CeNote := []
  dec     : Tbl (Option PwmDec) := []
  bridge  : Tbl (Option Bridge) := []
  /-- R310: per cell, the t_c of a committed Pour and what periods that begin from it on are decided with. -/
  soon    : Tbl (Option (Nat × CellTimes)) := []
  /-- R121: per cluster and phase (3c + ph), the last PWM_M_SAT; R131: per cluster, the last PWM_DEBT_CAP and the clips
  since. -/
  mSatAt  : Tbl (Option Nat) := []
  capAt   : Tbl (Option Nat) := []
  capNew  : Tbl Nat := []
  deriving DecidableEq, Repr, Inhabited

end Sys2Proof.Machine
end

