-- ==== Sys2Proof/Machine/State/Ana.lean ====
section
/-! DEFINITION. The ANA domain (R133, R137, R390–R412): comparators, bitstream inputs, the integrating converter and the
auxiliary legs, as far as no register holds them. -/

namespace Sys2Proof.Machine

/-- R393, R395: a comparator channel: its output, activity of its filtered state since the last input freeze, the last
CMP_ACTIVE. -/
structure CmpX where
  out   : Bool := false
  /-- R392: the cycle of the last tick. R393: the module time since which the output is inactive. -/
  tickK : Option Nat := none
  offAt : Nat := 0
  /-- R395: the changes of the output that the filter's window needs, with their instants, newest first; the outputs of
  the last ticks, newest first. -/
  hist  : List (Nat × Bool) := []
  ticks : List Bool := []
  seen  : Bool := false
  logAt : Option Nat := none
  deriving DecidableEq, Repr, Inhabited

/-- R398: the sinc3 filter of a channel: three integrators and three differences modulo 2^25, the bits since its last
output. -/
structure Sinc3 where
  i1 : Nat := 0
  i2 : Nat := 0
  i3 : Nat := 0
  d1 : Nat := 0
  d2 : Nat := 0
  d3 : Nat := 0
  n  : Nat := 0
  deriving DecidableEq, Repr, Inhabited

/-- R398–R401: a bitstream channel: y of the last outputs with their instants (newest first), in 2^-31; the label and the
primary value of the last 14,400 Hz sample; the last BSI_OVERRANGE. -/
structure BsiX where
  /-- R397: the last rising edge sampled, elapsed; R401: the level there, the clocks since it changed. -/
  clkAt : Option Nat := none
  level : Bool := false
  still : Nat := 1024
  filt  : Sinc3 := {}
  ys    : List (Nat × Int) := []
  label : Option Nat := none
  val   : Int := 0
  /-- R401: outputs in a row with |x| ≥ 0.95; the last BSI_OVERRANGE. -/
  ovr   : Nat := 0
  overAt : Option Nat := none
  deriving DecidableEq, Repr, Inhabited

/-- R403: a conversion: sequence entry (none for a housekeeping conversion), CH, GAIN, the end of its window and
FREQ_NOM. -/
structure Conv where
  entry : Option Nat
  ch    : Nat
  gain  : Nat
  ends  : Nat
  nom   : Bool
  deriving DecidableEq, Repr, Inhabited

/-- R403–R407. -/
structure IadcSt where
  conv    : Option Conv := none
  /-- entries of the round in progress still to run: entry, CH, GAIN, LEN -/
  rest    : List (Nat × Nat × Nat × Nat) := []
  round   : Nat := 0
  /-- R404: the module time up to which the instants of rounds have been looked at. -/
  lastDue : Nat := 0
  /-- R404: the last result of channel 21 (module time), and a housekeeping conversion due. -/
  cpAt    : Nat := 0
  house   : Bool := false
  queue   : List (Nat × BitVec 32 × BitVec 32) := []
  nextId  : Nat := 0
  lostBefore : Bool := false
  lostAt  : Option Nat := none
  overAt  : Option Nat := none
  deriving DecidableEq, Repr, Inhabited

/-- R133, R137, R409–R412: one leg. -/
structure LegX where
  /-- the level of LEGnn_EN; the end of 2 × T_DT after EN = 0 -/
  en      : Bool := false
  enFall  : Option Nat := none
  diagAt  : Nat := 0
  /-- R410: pulses only in periods that start at or after this module time. -/
  firstAt : Nat := 0
  /-- R137: the engine's last decision, the shadow writes to come with their T_(k+D), oldest first, the armed shadow, and
  what was loaded at the last update points. -/
  dec     : Option PwmDec := none
  writes  : List (Nat × PwmDec) := []
  shadow  : Option PwmDec := none
  live    : Option PwmDec := none
  /-- R125: the half period of the last update point. -/
  half    : Nat := 0
  /-- R133: the module time since which the trip input is clear; trips within W periods (module time); a release is
  written. -/
  clearAt : Nat := 0
  trips   : List Nat := []
  release : Bool := false
  /-- R409: LEG_START_REFUSED is logged for this request. -/
  refused : Bool := false
  deriving DecidableEq, Repr, Inhabited

structure AnaSt where
  cmp  : Tbl CmpX := []
  bsi  : Tbl BsiX := []
  iadc : IadcSt := {}
  leg  : Tbl LegX := []
  deriving DecidableEq, Repr, Inhabited

end Sys2Proof.Machine
end

