-- ==== Sys2Proof/Machine/State/Bus.lean ====
section
/-! DEFINITION. Process bus, station bus and PTP ports (R229–R255) and metering (R256–R273): what no register holds. -/

namespace Sys2Proof.Machine

/-- R231: an Ethernet source of a pair and its last sequence numbers, newest first, with their instants. -/
structure SeenSrc where
  pair : Nat
  src  : Nat
  seqs : List (Nat × Nat)
  deriving DecidableEq, Repr, Inhabited

/-- R234–R240: one SV subscription. -/
structure SvSub where
  svId    : List Byte := []
  /-- R240: samples accepted in a row, the next expected sampling instant, the last accepted sample. -/
  good    : Nat := 0
  expect  : Option Nat := none
  lastAt  : Option Nat := none
  /-- R236, R239: the last SV_CONFREV and SV_CONFLICT. -/
  revAt   : Option Nat := none
  confAt  : Option Nat := none
  /-- arrivals of the last second: instant and delay after t_s, units -/
  lats    : List (Nat × Nat) := []
  deriving DecidableEq, Repr, Inhabited

/-- R247–R250: one GOOSE subscription. -/
structure GooseSub where
  ref    : List Byte := []
  datSet : List Byte := []
  sim    : Bool := false
  /-- the end of the timeAllowedToLive -/
  talEnd : Nat := 0
  confAt : Option Nat := none
  deriving DecidableEq, Repr, Inhabited

/-- R244: a frame of a published stream: number of its first sample (second × rate + smpCnt), smpSynch, confRev,
gmIdentity, per ASDU the channels' values and quality bits, and the redundancy sequence number (R231). -/
structure SvOut where
  first   : Nat
  synch   : Nat
  confRev : Nat
  gmId    : Option Nat
  asdus   : List (List (Int × Nat))
  rct     : Nat
  deriving DecidableEq, Repr, Inhabited

/-- R243–R246: one SV publication. -/
structure SvPub where
  svId   : List Byte := []
  /-- R244: published channel values and qualities of past cycles with T_k, newest first. -/
  hist   : List (Nat × List (Int × Nat)) := []
  /-- R246: the instant of the last sample sent, and the frame. -/
  lastTs : Option Nat := none
  sent   : Option SvOut := none
  deriving DecidableEq, Repr, Inhabited

/-- R252: a GOOSE frame as sent. -/
structure GooseOut where
  at_     : Nat
  stNum   : Nat
  sqNum   : Nat
  tal     : Nat
  members : List GMember
  /-- R231 -/
  rct     : Nat
  deriving DecidableEq, Repr, Inhabited

/-- R251–R253: one GOOSE publication. -/
structure GoosePub where
  ref   : List Byte := []
  vals  : Option (List GMember) := none
  /-- the safety PDU inserted by the port -/
  pdu   : List Byte := []
  /-- the next repetition and its interval, ms -/
  next  : Option Nat := none
  step  : Nat := 0
  sent  : Option GooseOut := none
  deriving DecidableEq, Repr, Inhabited

/-- R229–R255: ports and pairs, subscriptions, publications, PTP. -/
structure BusSt where
  /-- R230: the end of a restart of the ports. -/
  downTo  : Nat := 0
  /-- R232: per port, the last frame; R231: the sources. -/
  lastRx  : Tbl (Option Nat) := []
  seen    : List SeenSrc := []
  /-- R231: the frame last forwarded on the HSR ring (source, sequence number, port out). -/
  fwd     : Option (Nat × Nat × Nat) := none
  /-- R231: per pair, the sequence number of the next frame sent on both LANs. -/
  txSeq   : Tbl Nat := []
  /-- R232: per direction, the last return of the module's own supervision frame. -/
  supAt   : Tbl (Option Nat) := []
  /-- R241: per pair, the second of module time counted and its frames; the last PB_OVERLOAD. -/
  load    : Tbl (Nat × Nat) := []
  overAt  : Tbl (Option Nat) := []
  sub     : Tbl SvSub := []
  pub     : Tbl SvPub := []
  gsub    : Tbl GooseSub := []
  gpub    : Tbl GoosePub := []
  /-- R254: per LAN, the best master announced. -/
  master  : Tbl (Option Announce) := []
  deriving DecidableEq, Repr, Inhabited

/-- R269: an interval record. -/
structure IntRec where
  seq     : Nat
  point   : Nat
  /-- change of each accumulator, 2^-20 mWh -/
  delta   : List Nat
  voidMs  : Nat
  lostMs  : Nat
  flags   : Nat
  /-- the accumulators at its end (R271) -/
  total   : List Nat
  /-- R324: the module time (ns) at which it was closed. -/
  time    : Nat := 0
  deriving DecidableEq, Repr, Inhabited

/-- R269: an interval of one point in progress: its start (elapsed units), the time covered by windows, void time. -/
structure MtrInt where
  from_  : Nat := 0
  cover  : Nat := 0
  void_  : Nat := 0
  delta  : List Nat := [0, 0, 0, 0, 0, 0, 0]
  flags  : Nat := 0
  deriving DecidableEq, Repr, Inhabited

/-- R256–R273: one metering point. -/
structure MtrPt where
  /-- R259: start of the window (module time, units), its span, unsynchronised, the newest sample instant. -/
  start   : Option Nat := none
  span    : Nat := 0
  unsync  : Bool := false
  newest  : Nat := 0
  /-- samples since the start, newest first: instant and channels a, b, c, n -/
  vs      : List (Nat × List (Option Int)) := []
  is_     : List (Nat × List (Option Int)) := []
  vRate   : Nat := 4800
  iRate   : Nat := 4800
  voidAt  : Option Nat := none
  /-- R266, R267: windows in a row with the result, and with the opposite, for V, I and the neutral. -/
  seqV    : Nat × Nat := (0, 0)
  seqI    : Nat × Nat := (0, 0)
  neut    : Nat × Nat := (0, 0)
  /-- R262: hidden remainders of the seven accumulators, 2^-20 mWh. -/
  rem     : List Nat := [0, 0, 0, 0, 0, 0, 0]
  int     : MtrInt := {}
  /-- R263: an interval closed at an instant inside the window in progress: that instant, the elapsed time at which it
  ended, its sequence number. -/
  closing : Option (Nat × Nat × Nat × MtrInt) := none
  on      : Bool := false
  /-- R270: module time less elapsed time, and the steps of module time, at the last sample. -/
  off     : Int := 0
  steps   : Nat := 0
  deriving DecidableEq, Repr, Inhabited

structure MtrSt where
  pt      : Tbl MtrPt := []
  /-- R271: Crema has started with TIME_LOST: the accumulators are taken from the newest interval record. -/
  fromRec : Bool := false
  /-- R268: end of the interval in progress, UTC seconds; steps of module time seen. -/
  endUtc  : Option Int := none
  steps   : Nat := 0
  /-- R269: the end of the last sleep, UTC seconds. -/
  woke    : Option Int := none
  /-- R271: the copy in Crema: accumulators and remainders; the accumulators in the newest interval record. -/
  saved   : Tbl (List Nat × List Nat) := []
  saveAt  : Nat := 0
  /-- R268: records offered to Carafe, newest first. -/
  recs    : List IntRec := []
  /-- Interval records that Carafe has still to take, oldest first. -/
  offered : List IntRec := []
  deriving DecidableEq, Repr, Inhabited

end Sys2Proof.Machine
end

