-- ==== Sys2Proof/Machine/State/Ring.lean ====
section
/-! DEFINITION. Rings, links, the mailbox and the cycle grid (R21–R27, R62–R94): what no register holds. -/

namespace Sys2Proof.Machine

/-- R73: an accepted copy of a slot: its cycle, the instant and port of its arrival, its 32 bytes in the layout of R70. -/
structure SlotCopy where
  cycle : Nat
  at_   : Nat
  portB : Bool
  bytes : List Byte
  deriving DecidableEq, Repr, Inhabited

/-- R89: one record of a discover frame. -/
structure DiscRec where
  nodeId   : Nat
  nodeType : Nat
  vers     : Nat
  linkVer  : Nat
  deriving DecidableEq, Repr, Inhabited

/-- R82: what a mailbox request is for, so that its owner can act on the reply. -/
inductive MbxUse where
  | ident (part : Nat)
  | dispRead
  | dispWrite
  | param
  | diag
  | vstrRef (ref : Nat)
  | stage (slot chunk : Nat)
  | commitAt (slot : Nat)
  | abortStage (id : Nat)
  | refresh (last : Bool)
  | wearRead (part : Nat)
  | wearWrite (part : Nat)
  deriving DecidableEq, Repr, Inhabited

/-- R81, R82: a mailbox request: owner 0 Pour engine, 1 lane sequencer, 2 management; target position, or 0xFFFE. -/
structure MbxReq where
  owner : Nat
  dst   : Nat
  op    : Nat
  data  : List Byte
  purpose : MbxUse
  deriving DecidableEq, Repr, Inhabited

/-- R82, R291: the outstanding request: its sequence, its lease, the frames a broadcast still takes, and the BUSY
replies that have restarted the lease. -/
structure MbxOut where
  req   : MbxReq
  seq   : Nat
  due   : Nat
  left  : Nat
  sent  : Bool
  busy  : Nat := 0
  deriving DecidableEq, Repr, Inhabited

/-- R68: a reply area read from a telemetry frame, held for the freeze. -/
structure MbxRep where
  src    : Nat
  seq    : Nat
  status : Nat
  data   : List Byte
  deriving DecidableEq, Repr, Inhabited

/-- R75: one entry of a schedule frame. -/
structure SchedEntry where
  cmp0 : Nat := 0
  cmp1 : Nat := 0
  cmp2 : Nat := 0
  cmp3 : Nat := 0
  new  : Bool := false
  mode : Nat := 0
  byp  : Nat := 0
  deriving DecidableEq, Repr, Inhabited

/-- R75–R77: a schedule frame as launched: header fields, token, mailbox request and entries by position. -/
structure SchedFrame where
  tApply  : Nat
  cycle   : Nat
  haltSeq : Nat
  mid     : Bool
  haltActive : Bool
  tseq    : Nat
  present : Bool
  enable  : Nat
  tchk    : Nat
  mbx     : Option (MbxReq × Nat)
  entries : List SchedEntry
  deriving DecidableEq, Repr, Inhabited

/-- R67: a frame that a module port launches, by its type, with what its launch sets. -/
inductive OutFrame where
  /-- R68, R69: T_k in ns, CYCLE and the number of slots, every slot all 0x00. -/
  | telemetry (tK cycle n : Nat)
  | schedule (f : SchedFrame)
  /-- R78: HALT_SEQ, T_TRIP in ns, SRC_CH and SRC_CLASS. -/
  | halt (seq tTrip ch cls : Nat)
  /-- R89: module time in ns. -/
  | discover (time : Nat)
  /-- R88: the frame that makes every link retrain at v1. -/
  | mode
  deriving DecidableEq, Repr, Inhabited

/-- R66, R85: a frame at a module port: its version, the instants of its first bit on the fibre and of its end, CORR in
1/64 ns, and the instant at which it was aborted. -/
structure TxFrame where
  frame  : OutFrame
  v1     : Bool
  first  : Nat
  ends   : Nat
  corr   : Int
  cut    : Option Nat := none
  deriving DecidableEq, Repr, Inhabited

/-- R62–R94: one ring. -/
structure RingSt where
  /-- R20, R22, R66: the frame last launched at port A (0) and B (1), and the one last aborted there. -/
  tx       : Tbl (Option TxFrame) := []
  aborted  : Tbl (Option TxFrame) := []
  /-- R88: the CAP ordered sets sent at port A and B since discovery began: the instant of each, and whether the other
  end offers v2. -/
  cap      : Tbl (Option (Nat × Bool)) := []
  /-- R78: the sequence that schedule headers carry, the module time (ns) of the latest halt. -/
  hdrSeq   : Nat := 0
  tripAt   : Nat := 0
  /-- R92, R203: the last break. -/
  breakAt  : Option Nat := none
  /-- R73: the copies accepted for the cycles not frozen yet, by position. -/
  copies   : Tbl (List SlotCopy) := []
  /-- R83: delays of the last exchanges per link, in 125 ps units, newest first, and the average before. -/
  exch     : Tbl (List Nat) := []
  exchN    : Tbl Nat := []
  prevAvg  : Tbl (Option Nat) := []
  /-- R83: the instants of the requests sent from port A and port B. -/
  reqAt    : Tbl (Option Nat) := []
  /-- R83: the last DLY_RSP sent from port A and port B: its instant and turnaround. -/
  rsp      : Tbl (Option (Nat × Nat)) := []
  /-- R90: the lists that returned, with whether the frame was turned, from the frame launched at A and at B. -/
  discA    : Option (Bool × List DiscRec) := none
  discB    : Option (Bool × List DiscRec) := none
  /-- R90: the lists agree with each other and with the cell map. -/
  mapOk    : Bool := false
  /-- R88: the instant from which discovery runs. -/
  discAt   : Nat := 0
  /-- R92: per link, the instant of its last loss, and the errors of the present second. -/
  downAt   : Tbl (Option Nat) := []
  /-- R94: per link, the cycle m agreed at its last healing. -/
  healAt   : Tbl (Option Nat) := []
  errRun   : Tbl (Nat × Nat) := []
  /-- R78, R79: active sources (class, channel); the next repeat and the repeats left. -/
  sources  : List (Nat × Nat) := []
  haltNext : Option (Nat × Nat) := none
  /-- R79: the lanes request release. -/
  release  : Bool := false
  /-- R116: the HALT_SEQ seen at the last input freeze. -/
  haltSeen : Nat := 0
  /-- R82: requests waiting, the one outstanding, the reply held. -/
  queue    : List MbxReq := []
  out      : Option MbxOut := none
  rep      : Option MbxRep := none
  /-- R292: sequences of requests withdrawn at the end of their lease, for replies that come later. -/
  gone     : List Nat := []
  /-- R93: the last instant at which a frame returned at port A or B. -/
  frameAt  : Option Nat := none
  /-- R473: the schedule frame last launched, with its CORR (1/64 ns), whether both ports launched it, and else whether
  port B did; the telemetry frame last received. -/
  sched    : Option (SchedFrame × Int × Bool × Bool) := none
  tlm      : List Byte := []
  /-- R77: the 500 µs step of module time whose token has been sent in a frame that no halt has aborted. -/
  tokStep  : Option Nat := none
  /-- R26: its timing does not fit the values in force: its cluster stays ceased. -/
  unfit    : Bool := false
  /-- R26: RING_TIMING_EXCEEDED has been logged since the last start. -/
  exceeded : Bool := false
  deriving DecidableEq, Repr, Inhabited

/-- R22, R288: a cycle that has begun and whose inputs are not frozen yet: its number, its T_k in units of module time,
and whether it is skipped. -/
structure CycleIn where
  k    : Nat
  at_  : Nat
  skip : Bool
  deriving DecidableEq, Repr, Inhabited

/-- R24, R155: a pass of the lanes: its cycle, its T_k and the instant at which it publishes, in units of module time. -/
structure Pass where
  k    : Nat
  at_  : Nat
  pub  : Nat
  deriving DecidableEq, Repr, Inhabited

/-- R25, R26: the terms admitted at a start: t_tel and t_sched in 1/64 ns, the longest serialisation in 1/640 ns. -/
structure Admitted where
  tel   : Nat
  sched : Nat
  sMax  : Nat
  deriving DecidableEq, Repr, Inhabited

/-- R21–R27, R514: the cycle grid. -/
structure LinkSt where
  ring    : Tbl RingSt := []
  /-- R23: the cycle whose freeze is the present or the last one, and whether its inputs have been frozen. -/
  cycle   : Nat := 0
  begun   : Bool := false
  frozen  : Bool := false
  /-- R102, R105: the instant of the last input freeze. -/
  frozenAt : Option Nat := none
  /-- R288: this cycle is skipped. -/
  skip    : Bool := false
  /-- R310: T_k of this cycle less k control periods, in units; 0 unless the period has changed since. -/
  tkOff   : Int := 0
  /-- R23: the cycles begun after this one, oldest first: a freeze may lie after the next cycle's start. -/
  later   : List CycleIn := []
  /-- R24, R155: the last passes, newest first, as many as the cells' entries kept. -/
  passes  : List Pass := []
  /-- R24: module time of the last schedule launch, in units. -/
  lastLaunch : Option Nat := none
  /-- R310: the boundary from which the control period in force counts, in units. -/
  gridFrom : Nat := 0
  /-- R25, R514: the terms admitted at the last start with a feasible D; the D in force. -/
  terms    : Option Admitted := none
  d        : Nat := 2
  deriving DecidableEq, Repr, Inhabited

end Sys2Proof.Machine
end

