-- ==== Sys2Proof/Machine/State/Cells.lean ====
section
/-! DEFINITION. Cell entries (R95–R116): the sequences, timers and counts that no register holds. -/

namespace Sys2Proof.Machine

/-- R112, R114: a cell's modulation share: full, falling or rising since an instant, or none. -/
inductive Share where
  | zero
  | full
  | fall (from_ : Nat)
  | rise (from_ : Nat)
  deriving DecidableEq, Repr, Inhabited

/-- R100, R112–R114: the sequence a cell is in. `goal` is the state a planned bypass ends in. -/
inductive CellSeq where
  | none
  /-- R100: a DIAG request sent or to be sent; the reason is that of a command or of R99. -/
  | diagAsk (byCmd : Bool)
  /-- R112: planned bypass; ramp, zero state, bypass commanded closed. -/
  | bypRamp (goal reason : Nat)
  | bypZero (goal reason from_ : Nat)
  | bypClose (goal reason : Nat)
  /-- R114: return to service; zero state since, bypass commanded open. -/
  | retZero (reason from_ : Nat)
  | retOpen (reason : Nat)
  /-- R113: fault bypass. -/
  | fault
  deriving DecidableEq, Repr, Inhabited

/-- What the module knows of one cell beside its registers. -/
structure CellX where
  /-- R75: MODE and BYP of the cell's entry. -/
  mode     : Nat := 0
  byp      : Nat := 0
  /-- R107: the bypass is commanded closed. -/
  closed   : Bool := false
  share    : Share := .zero
  seq      : CellSeq := .none
  /-- R112–R114: the end of BYP_TO. -/
  bypDue   : Option Nat := none
  /-- R113: the cell holds BYP_BLOCK of its cluster. -/
  block    : Bool := false
  /-- R96: IDENT parts answered, disposition read, good alignments in a row. -/
  ident0   : Bool := false
  ident1   : Bool := false
  disp     : Option Nat := none
  /-- R97: the disposition that the node is to hold, while DISP_PEND is 1. -/
  dispWant : Nat := 0
  /-- R118, R184: parameter writes not yet answered OK; they have been asked. -/
  paramPend : Nat := 0
  paramAsked : Bool := false
  alignRun : Nat := 0
  /-- R87: written slots in a row above 1 ns. -/
  alignBad : Nat := 0
  asym     : Bool := false
  /-- R100, R101: end of the 200 ms, failures in a row, the repeat after 1 s. -/
  diagDue  : Option Nat := none
  diagFail : Nat := 0
  diagRetry : Option Nat := none
  diagOkAt : Option Nat := none
  /-- R99: the next check of a cell held at LOW_VDC. -/
  lowAt    : Option Nat := none
  /-- R106: the trip baseline; trips since the last CELL_TRIP and its instant. -/
  tripBase : Option Nat := none
  tripsNew : Nat := 0
  tripLog  : Option Nat := none
  /-- R132: T_k (module time, units) of the trips inside the window. -/
  tripWin  : List Nat := []
  /-- R107: OVERTEMP set since, clear since, first refusal of the episode logged. -/
  hotSince : Option Nat := none
  coolSince : Option Nat := none
  hotLogged : Bool := false
  /-- R108: entries into FAULTED within 24 h (module time, units). -/
  faults   : List Nat := []
  /-- R73, R106: a slot was accepted for the present cycle; its cycle. -/
  fresh    : Bool := false
  slotK    : Nat := 0
  /-- R103: PSTATE and STATUS of the last accepted slot. -/
  status   : Nat := 0
  diag     : Nat := 0
  alignErr : Int := 0
  /-- R75: the entries of the last pass, of those before it, newest first, and the one last sent. -/
  staged   : SchedEntry := {}
  older    : List SchedEntry := []
  sent     : SchedEntry := {}
  deriving DecidableEq, Repr, Inhabited

/-- R98–R114: the happenings of a cell (or of a ring) that take effect at an input freeze (R102). -/
inductive CellEv where
  | diagTimeout | diagUnanswered | diagRetry | lowVdc | unreachable | staleFault | tripLatch | overtemp | autoReturn
  | repeatFault | rampEnd | bypassTimeout | faultTimeout | returnOpen | returnTimeout | absent | absentRing
  | link (d : DiscRec)
  deriving DecidableEq, Repr, Inhabited

/-- R102, R105: what waits for the next input freeze, in the order of arrival. -/
inductive CellAsk where
  | happen (e : CellEv) (k : Nat)
  /-- A write of CELL_CMD by a register access of a session. -/
  | access (n addr : Nat) (value mask : Word) (e : AccEnv)
  /-- R306: a write of CELL_CMD by a Pour of a session, closed meanwhile or not. -/
  | pour (n : Nat) (orphan : Bool) (addr : Nat) (value mask : Word) (e : AccEnv)
  /-- The writes of a WRITE request from its first write of CELL_CMD on, `k` of its writes having been made. -/
  | writes (h : MHead) (k : Nat) (rest : List (List Byte)) (e : AccEnv)
  deriving DecidableEq, Repr

/-- R95–R116: the cell table beside its registers. -/
structure CellsSt where
  asks    : List CellAsk := []
  x       : Tbl CellX := []
  /-- R109: the margin of each phase at the last freeze, for the events (8 × 3, index 3c + ph). -/
  margin  : Tbl (Option Int) := []
  /-- R216: the end of each cluster's start window. -/
  winEnd  : Tbl (Option Nat) := []
  deriving DecidableEq, Repr, Inhabited

end Sys2Proof.Machine
end

