-- ==== Sys2Proof/Machine/State/Grid.lean ====
section
/-! DEFINITION. Grid synchronisation and current control (R159–R183): what no register holds. Per-unit quantities are
in Q2.30 (2^30 = 1 pu), angles in 2^-32 turn, instants in module time units of 125 ps. -/

namespace Sys2Proof.Machine

/-- R164: the three SOGIs of an estimator and its frequency. -/
structure Sogi where
  v1a : Int := 0
  v2a : Int := 0
  v1b : Int := 0
  v2b : Int := 0
  v10 : Int := 0
  v20 : Int := 0
  w   : Int := 1073741824
  /-- the last two samples, α and β, newest first -/
  xa  : Int := 0
  xb  : Int := 0
  ya  : Int := 0
  yb  : Int := 0
  /-- the same of the zero sequence -/
  x0  : Int := 0
  y0  : Int := 0
  deriving DecidableEq, Repr, Inhabited

/-- R160–R170: one sync point. -/
structure GridPt where
  est     : Sogi := {}
  /-- R162: the phasors of SV and of BSI, each from its own samples. -/
  sv      : Sogi := {}
  bsi     : Sogi := {}
  /-- R171: the instant of the newest sample used, and the rate of its source, per second. -/
  ts      : Option Nat := none
  rate    : Nat := 4800
  /-- R160: the instant of the newest SV sample used, and the rate of its stream; R162: of the newest BSI sample. -/
  svTs    : Option Nat := none
  svRate  : Nat := 4800
  bsiTs   : Option Nat := none
  /-- R161: the next expected SV sample; those expected before it that have neither come nor been found missing; those
  counted missing of late; the last one found missing and how many in a row it ended. -/
  expect  : Option Nat := none
  gaps    : List Nat := []
  missed  : List Nat := []
  missRun : Option (Nat × Nat) := none
  /-- R161: good samples in a row, some good sample since image load; BSI takes over at its next sample. -/
  good    : Nat := 0
  everSv  : Bool := false
  toBsi   : Bool := false
  /-- R160: samples lost since the last GRID_SV_LATE, and its instant. -/
  lateN   : Nat := 0
  lateAt  : Option Nat := none
  blindAt : Option Nat := none
  /-- R165, R168: last reset, first reset of the hold, DIP entry (instant, state), last exit from DIP. -/
  resetAt : Option Nat := none
  holdAt  : Option Nat := none
  dip     : Option (Nat × Nat) := none
  dipEnd  : Nat := 0
  /-- R168: the frequency reported (pu, Q2.30), the last valid one, and those reported, where valid, before the first
  sample that counts toward a jump and toward a reversal. -/
  rep     : Int := 1073741824
  valid   : Option Int := none
  jumpRep : Option Int := none
  revRep  : Option Int := none
  /-- R166: deviating samples in a row, the third of them at the newest sample, and the last difference; R167: since when
  the other sequence dominates. -/
  jumpN   : Nat := 0
  jumpHit : Bool := false
  jumpBy  : Int := 0
  revAt   : Option Nat := none
  /-- R169: (instant, w) over the last two line periods; R166: (instant, difference) over the last one. -/
  hist    : List (Nat × Int) := []
  shifts  : List (Nat × Int) := []
  /-- R162: since when the comparison has been outside, and inside, its limits. -/
  outAt   : Option Nat := none
  inAt    : Option Nat := none
  deriving DecidableEq, Repr, Inhabited

/-- R173–R183: one cluster's current control and slow loops. -/
structure GridClu where
  /-- R173: the currents of phases a, b, c, code 0x4000 = 1 pu. -/
  ia      : Int := 0
  ib      : Int := 0
  ic      : Int := 0
  /-- R173: cycles with IARM_OK at 0, per phase; the loss has been acted on. -/
  lost    : Tbl Nat := []
  /-- R180: per line period, the string power per phase, W. -/
  pv      : Tbl (List Int) := []
  /-- R182: the products of voltage and current of each phase over the last line period. -/
  pac     : Tbl (List Int) := []
  /-- R180, R181: integrators, Q2.30. -/
  dcInt   : Int := 0
  phInt   : Tbl Int := []
  /-- R176, R181, R182: the last GRID_I_LIMIT, GRID_ZS_LIMIT and per phase GRID_BAL_LIMIT. -/
  ilimAt  : Option Nat := none
  zsAt    : Option Nat := none
  balAt   : Tbl (Option Nat) := []
  /-- R179: a start has asked for the reset of its program at the next freeze; a halt has been shown since the last start. -/
  starts  : Bool := false
  halted  : Bool := false
  /-- R180: P*, Q2.30. -/
  pStar   : Int := 0
  deriving DecidableEq, Repr, Inhabited

/-- R173, R180, R182: one cell in the slow loops. -/
structure GridCell where
  /-- R173: cycles in a row more than 0.05 pu from the median. -/
  dis     : Nat := 0
  /-- R180: VDC over the last line period, newest first, 50 mV. -/
  vdcs    : List Nat := []
  /-- R182: string power over the last line period. -/
  ppv     : List Int := []
  /-- R182: the integrator, Q2.30; whether the share was clamped; the share last staged, Q2.30. -/
  x       : Int := 0
  clamped : Bool := false
  share   : Int := 0
  deriving DecidableEq, Repr, Inhabited

structure GridSt where
  pt   : Tbl GridPt := []
  clu  : Tbl GridClu := []
  cell : Tbl GridCell := []
  deriving DecidableEq, Repr, Inhabited

end Sys2Proof.Machine
end

