-- ==== Sys2Proof/Machine/State/Lanes.lean ====
section
/-! DEFINITION. Lanes and voters (R274–R290): what no register holds. -/

namespace Sys2Proof.Machine

/-- R276–R284: one lane. -/
structure LaneX where
  /-- R276: the last cycles in which it was in the minority, newest first; the last LANE_MINORITY. -/
  minor    : List Nat := []
  minorAt  : Option Nat := none
  /-- R277, R284: the last exclusion (elapsed units); exclusions of the last 24 h (module time, units). -/
  exclAt   : Option Nat := none
  excls    : List Nat := []
  /-- R282: start of the present step; the end of a failed rejoin. -/
  stepAt   : Nat := 0
  failAt   : Option Nat := none
  /-- R282: dirty set of the last round, bytes; a round has been made. -/
  dirty    : Nat := 0
  copied   : Bool := false
  /-- R283: the cycle of the switch; passes made in PROBATION. -/
  switchK  : Option Nat := none
  passes   : Nat := 0
  /-- R284: the lane is LOCKED, also while its domain is in retention. -/
  locked   : Bool := false
  deriving DecidableEq, Repr, Inhabited

structure LanesSt where
  lane     : Tbl LaneX := []
  /-- R279: entry into CEASED. -/
  ceasedAt : Nat := 0
  /-- R280: a restart in progress since. -/
  restart  : Option Nat := none
  deriving DecidableEq, Repr, Inhabited

end Sys2Proof.Machine
end

