-- ==== Sys2Proof/Machine/State/Pins.lean ====
section
/-! DEFINITION. Transceiver cages and pins (R480–R498) that no register holds. -/

namespace Sys2Proof.Machine

/-- R489: a cage: 0–15 ring ports (2n port A, 2n + 1 port B of ring n), 16–19 station and process bus ports. -/
structure Cage where
  present   : Bool := false
  /-- R489: it supports the cage's rate, and is read and enabled from that instant on. -/
  enabledAt : Option Nat := none
  /-- R498: switched off by its current limit. -/
  cutOff    : Bool := false
  deriving DecidableEq, Repr, Inhabited

structure PinSt where
  cage : Tbl Cage := []
  deriving DecidableEq, Repr, Inhabited

end Sys2Proof.Machine
end

