-- ==== Sys2Proof/Machine/State/Pour.lean ====
section
/-! DEFINITION. The Pour engine (R295–R314): what no register holds. -/

namespace Sys2Proof.Machine

/-- R295: one write of a Pour: address, value, mask. -/
structure PWrite where
  addr  : Nat
  value : Word
  mask  : Word
  deriving DecidableEq, Repr, Inhabited

/-- R298, R299: a target: its cell, its staged set, the chunks answered OK, STAGED seen, confirmed. -/
structure PTarget where
  cell  : Nat
  set   : List Byte
  ack0  : Bool := false
  ack1  : Bool := false
  acked : Bool := false
  sent  : Bool := false
  conf  : Bool := false
  /-- R304: LOCKED_OUT when its staging began. -/
  out   : Bool := false
  deriving DecidableEq, Repr, Inhabited

/-- R297: one slot of the engine. -/
structure PourSlot where
  writes  : List PWrite := []
  targets : List PTarget := []
  /-- R299: the clusters whose parameters it changes. -/
  clus    : List Nat := []
  /-- R301: the start of staging and t_c (module time, units). -/
  stageAt : Option Nat := none
  tc      : Option Nat := none
  /-- R306, R314: POUR_CFG.CONFIRM as it stood when the Pour began to stage. -/
  confirm : Nat := 4
  /-- R305: the cycle of the grant, and the end of its lease (R291; module time, units). -/
  grant   : Option Nat := none
  lease   : Nat := 0
  /-- R297: the number of its ending, for reuse oldest first. -/
  ended   : Nat := 0
  /-- R308: its session's previous submission; R297: the session has closed since. -/
  prev    : Option Nat := none
  orphan  : Bool := false
  deriving DecidableEq, Repr, Inhabited

/-- R295–R314. -/
structure PourSt where
  slot    : Tbl PourSlot := []
  /-- R295: submissions so far; R297: endings so far. -/
  subs    : Nat := 0
  ends    : Nat := 0
  /-- R308: per session its last submission; the submissions that ended ABORTED. -/
  last    : Tbl (Option Nat) := []
  aborted : List Nat := []
  /-- R300: t_c of the last Pour that was committed (module time, units). -/
  lastTc  : Nat := 0
  /-- R309: Pour IDs and rings of the ABORT_STAGE broadcasts to be sent after the restart. -/
  owed    : List (Nat × Nat) := []
  /-- R307: per marked cell, the ID of its Pour and the WRITE_PARAM still unanswered. -/
  markId  : Tbl Nat := []
  left    : Tbl Nat := []
  deriving DecidableEq, Repr, Inhabited

end Sys2Proof.Machine
end

