-- ==== Sys2Proof/Machine/State/Power.lean ====
section
/-! DEFINITION. Power domains, supplies, the backup cell and the thermal model (R414–R436): what no register holds. -/

namespace Sys2Proof.Machine

/-- R419: a domain leaving ON: its target state and the end of the 2 s allowed. -/
structure Leaving where
  target : Nat
  due    : Nat
  deriving DecidableEq, Repr, Inhabited

/-- R420: one step of a restore: its domains, its delay and the cause logged. -/
structure RestoreStep where
  doms  : List Nat
  delay : Nat
  cause : Nat
  deriving DecidableEq, Repr, Inhabited

/-- R422: a wake in progress. -/
structure Wake where
  ackAt   : Nat
  set     : List Nat
  /-- the instant at which SCL was released by the stretch limit -/
  limitAt : Option Nat
  deriving DecidableEq, Repr, Inhabited

/-- R434: thermal hold of one region: since when, and the domains that went down with it. -/
structure Hold where
  since : Nat
  peers : List Nat
  deriving DecidableEq, Repr, Inhabited

/-- R414–R436: state of the power manager. -/
structure PwrSt where
  leaving   : Tbl (Option Leaving) := []
  /-- R415: domains that hold their contents in retention. -/
  retained  : List Nat := []
  /-- R420: the step in progress and those to come, and the end of the delay of the step in progress. -/
  plan      : List RestoreStep := []
  stepEnd   : Nat := 0
  wake      : Option Wake := none
  /-- R422: the address matched and bytes are NACKed until MGMT is ON. -/
  nack      : Bool := false
  hold      : Tbl (Option Hold) := []
  /-- R432: per region, the three Foster nodes in 2^-16 °C. -/
  nodes     : Tbl (Int × Int × Int) := []
  /-- R433: the last valid cold-plate temperature (0.01 °C) and the instant of the last result. -/
  cpValid   : Option Int := none
  cpAt      : Nat := 0
  /-- R428–R430: charge started below 3.70 V; instant of the last test or result. -/
  fromLow   : Bool := false
  capAt     : Nat := 0
  /-- R427: tamper seen before MGMT was on, not yet logged; tamper since the last start of MGMT. -/
  tamperLog : Bool := false
  tamperNew : Bool := false
  /-- R427: the loop was open at the last check. -/
  tamperOpen : Bool := false
  /-- R429: the cell has been cut off, and Crema is without power. -/
  cutOff    : Bool := false
  /-- R437: nRESET is held low. -/
  resetLow  : Bool := false
  deriving DecidableEq, Repr, Inhabited

end Sys2Proof.Machine
end

