-- ==== Sys2Proof/Machine/State/Rec.lean ====
section
/-! DEFINITION. Carafe (R315–R345): records, write units, segments, drives, pairs and captures, as far as no register
holds them. -/

namespace Sys2Proof.Machine

/-- R324: a record with the write units that hold its bytes. -/
structure CRec where
  stream  : Nat
  typ     : Nat
  flags   : Nat
  seq     : Nat
  time    : Nat
  count   : Nat
  payload : List Byte
  units   : List Nat
  pair    : Nat
  pseg    : Nat
  /-- R337: the position of its first write unit in the segment. -/
  pos     : Nat := 0
  deriving DecidableEq, Repr, Inhabited

/-- R324: the bytes a record takes, 8-byte aligned. -/
def CRec.size (r : CRec) : Nat := (32 + r.payload.length + 7) / 8 * 8

/-- R326: a record formed for a stream and not yet offered to staging. -/
structure Offer where
  stream  : Nat
  time    : Nat
  flags   : Nat
  payload : List Byte
  deriving DecidableEq, Repr, Inhabited

/-- R326: the interval in progress of a CELL_DEC or SIGNALS stream: the definition in force when it began, its first
cycle and that cycle's T_k (ns), its cycles so far, and per cycle, newest first, the signals, or per ring the slots. -/
structure StrmAcc where
  cfg   : Nat × Nat
  k0    : Nat
  t0    : Nat
  n     : Nat := 0
  sigs  : List (List Int) := []
  slots : List (List (List (Option (List Byte)))) := []
  deriving DecidableEq, Repr, Inhabited

/-- R328: a write unit: its segment, bytes, streams with the highest sequence ending in it, capture, whether it has
been sent and the drives on which it has completed. -/
structure CUnit where
  id      : Nat
  seg     : Nat
  bytes   : Nat
  streams : List (Nat × Option Nat)
  cap     : Option Nat
  sent    : Bool
  done    : List Nat
  complete : Bool
  deriving DecidableEq, Repr, Inhabited

/-- R323, R325: a segment in use. phase 0 open, 1 full, 2 its index is being written. -/
structure CSeg where
  id     : Nat
  pair   : Nat
  pseg   : Nat
  cap    : Option Nat
  off    : Nat
  phase  : Nat
  /-- R323: OPEN_TIME, ns. -/
  openAt : Nat := 0
  index  : List Nat
  flush  : List Nat
  deriving DecidableEq, Repr, Inhabited

/-- R328: the open write unit. -/
structure COpen where
  id      : Nat
  start   : Nat
  streams : List (Nat × Option Nat)
  firstAt : Nat
  deriving DecidableEq, Repr, Inhabited

/-- R315, R318: what a command at a drive is for. -/
inductive CUse where
  | data (unit : Nat)
  | index (seg : Nat)
  | flush (seg : Nat)
  | super
  | copyRead (pair pos : Nat)
  | rebuild (pair pos : Nat)
  deriving DecidableEq, Repr, Inhabited

/-- R291, R294, R330: a command outstanding: the end of its lease (module time), whether it is a retry, and the end of its
Abort. -/
structure CCmd where
  id      : Nat
  drive   : Nat
  use     : CUse
  due     : Nat
  retried : Bool
  abort   : Option Nat
  deriving DecidableEq, Repr, Inhabited

/-- R332: a capture: window in cycles [start, end_), bytes pinned, issued and complete, and its cycles' records, oldest
first. -/
structure CCap where
  id     : Nat
  tg     : Nat
  start  : Nat
  end_   : Nat
  srcs   : Nat
  flags  : Nat
  trigs  : Nat
  tgNs   : Nat
  total  : Nat
  issued : Nat
  done   : Nat
  ended  : Bool
  seg    : Option Nat
  segs   : List (Nat × Nat)
  data   : List (Nat × List CRec) := []
  deriving DecidableEq, Repr, Inhabited

/-- R332: a drained capture: its segments, and its records with their offsets in the data drained. -/
structure CapDone where
  id   : Nat
  segs : List (Nat × Nat)
  recs : List (Nat × CRec)
  deriving DecidableEq, Repr, Inhabited

/-- R327: one stream. -/
structure CStream where
  /-- pending gap: first sequence, number, first and last TIME, cause -/
  pend   : Option (Nat × Nat × Nat × Nat × Nat) := none
  gapAt  : Option Nat := none
  /-- bytes of the present second, for RATE -/
  sec    : Nat := 0
  bytes  : Nat := 0
  acc    : Option StrmAcc := none
  deriving DecidableEq, Repr, Inhabited

/-- R316–R322: one drive. -/
structure CDrive where
  nseg   : Nat := 0
  super  : Option Superblock := none
  smartAt : Option Nat := none
  /-- R338: position of the copy and its end; no copy before an instant, for the rate. -/
  copy   : Option (Nat × Nat) := none
  copyAt : Nat := 0
  deriving DecidableEq, Repr, Inhabited

/-- R319–R321: one pair. -/
structure CPair where
  held   : Bool := false
  next   : Nat := 0
  deriving DecidableEq, Repr, Inhabited

structure RecSt where
  stream  : Tbl CStream := []
  drive   : Tbl CDrive := []
  pair    : Tbl CPair := []
  /-- R319: layout and link widths in force. -/
  layout  : Nat := 0
  x4Ports     : Nat := 0
  nseg    : Nat := 0
  gen     : Nat := 0
  ckptAt  : Nat := 0
  /-- R340, Crema: the store, the last CAP_ID. -/
  storeId : Option Nat := none
  capId   : Nat := 0
  /-- R327: bytes staged, records staged in order of admission, durable records. -/
  used    : Nat := 0
  staged  : List CRec := []
  stored  : List CRec := []
  /-- R326: records formed, oldest first; R331: SV frames accepted since the last cycle written, with their instants. -/
  offered : List Offer := []
  svIn    : List (Nat × List Byte) := []
  /-- R337: write units that no member can read. -/
  lost    : List Nat := []
  /-- R477: records written with a failed CRC: stream, sequence. -/
  bad     : List (Nat × Nat) := []
  units   : List CUnit := []
  segs    : List CSeg := []
  opened  : Option (Nat × COpen) := none
  cmds    : List CCmd := []
  /-- R318: commands that wait for a credit: drive, use, retried. -/
  waiting : List (Nat × CUse × Bool) := []
  nextId  : Nat := 0
  syncing : Bool := false
  /-- R322: a pair has changed state since the last checkpoint. -/
  ckptDue : Bool := false
  /-- R331, R333: the records of the cycles in the ring, oldest first, and their bytes; the first discarded cycle while
  blocked, and the runs of cycles discarded. -/
  ring     : List (Nat × List CRec) := []
  ringUsed : Nat := 0
  blocked  : Option Nat := none
  cuts     : List (Nat × Nat) := []
  /-- R332: the captures drained. -/
  capDone  : List CapDone := []
  /-- R337: what no member can read of them: CAP_ID, stream, cycle. -/
  capLost  : List (Nat × Nat × Nat) := []
  caps    : List CCap := []
  lastEnd : Nat := 0
  goose   : Bool := false
  deriving DecidableEq, Repr, Inhabited

end Sys2Proof.Machine
end

