-- ==== Sys2Proof/Machine/State/Safe.lean ====
section
/-! DEFINITION. The safety island (R364–R389): what no register holds. -/

namespace Sys2Proof.Machine

/-- R381: a consumer connection: the last accepted PDU, its PTIME and instant, the last error, and whether the next PDU
is the first after WAIT. -/
structure SafeCons where
  last   : Option (List Byte) := none
  ptime  : Nat := 0
  okAt   : Nat := 0
  errAt  : Nat := 0
  first  : Bool := true
  deriving DecidableEq, Repr, Inhabited

/-- R382: a producer connection: the instant and the safe data of its last PDU. -/
structure SafeProd where
  at_  : Option Nat := none
  data : Nat := 0
  deriving DecidableEq, Repr, Inhabited

structure SafeSt where
  /-- R382: the instant SAFE came on, from which the island counts milliseconds. -/
  upAt     : Nat := 0
  /-- R370: entry into the present state. -/
  stateAt  : Nat := 0
  /-- R385: the set in use, the set held, as the 236 bytes of R384. -/
  param    : List Byte := []
  held     : Option (List Byte) := none
  /-- R369: the last change of each input (0 DOOR_A, 1 DOOR_B, 2 ESTOP_A, 3 ESTOP_B, 4 RESET). -/
  inAt     : Tbl Nat := []
  /-- R371: both doors have been seen open. -/
  step1    : Bool := false
  /-- R374: causes that no input shows: the pairs in DISCREPANCY, the inputs in TESTPULSE, OUTPUT (no dark pulse),
  INTERNAL, PARAM, RESET_INPUT. -/
  disc     : List Nat := []
  tpBad    : Bool := false
  tpClean  : List Nat := []
  outBad   : Bool := false
  internal : Bool := false
  badParam : Bool := false
  stuck    : Bool := false
  /-- R364: exchanges in a row that disagreed. -/
  disagree : Nat := 0
  /-- R372: the rise of a reset pulse in progress and the causes it overlaps. -/
  pulse    : Option (Nat × Nat) := none
  tpAt     : Tbl (Option Nat) := []
  outAt    : Option Nat := none
  evalAt   : Option Nat := none
  tokAt    : Option Nat := none
  /-- R378: rings whose next schedule frame must carry the off-token. -/
  urgent   : List Nat := []
  cons     : Tbl SafeCons := []
  prod     : Tbl SafeProd := []
  deriving DecidableEq, Repr, Inhabited

end Sys2Proof.Machine
end

