-- ==== Sys2Proof/Machine/State/Sequencer.lean ====
section
/-! DEFINITION. MPPT (R184–R203), ride-through and islanding (R204–R228): what no register holds. Voltages and currents
in 1/256 of a slot unit (50 mV, 4 mA), powers in their product, per-unit values in Q2.30. -/

namespace Sys2Proof.Machine

/-- R193: a scan in progress. -/
structure Scan where
  /-- the grant, and what repeats have added -/
  at_    : Nat
  delay  : Nat
  v0     : Int
  p0     : Int
  voc    : Nat
  /-- 0–4 the writes before 100 ms; 5 + 2n the write of point n, 6 + 2n its measurement -/
  next   : Nat
  again  : Bool
  bestN  : Nat
  bestP  : Option Int
  maxI   : Int
  deriving DecidableEq, Repr, Inhabited

/-- R184–R203: one cell. -/
structure MpptCell where
  /-- R188: accepted slots of the window: instant, VSTR, ISTR. -/
  win     : List (Nat × Nat × Int) := []
  /-- R188: the last step instant taken, by number; steps still to be void (R187, R193, R202). -/
  step    : Nat := 0
  skip    : Nat := 0
  /-- the reference, 1/256 of 50 mV; none is OPEN -/
  vref    : Option Int := none
  /-- R186: the write not yet answered; when the last write was first sent; abandoned writes in a row. -/
  pend    : Option Nat := none
  wroteAt : Option Nat := none
  fails   : Nat := 0
  /-- R190: V, I of the last step that was not void. -/
  hist    : Option (Int × Int) := none
  /-- R195: available power as last formed; P of the last step that was not void; P and ρ at the last TRACK step. -/
  p       : Int := 0
  pStep   : Option Int := none
  pm      : Int := 0
  rhoM    : Int := 0
  /-- R199: the target in CURTAIL, 10 W. -/
  tgt     : Nat := 0
  /-- R202: the mode before HOLD. -/
  before  : Nat := 0
  /-- R187: the reference of the planned bypass in progress has been written. -/
  ramped  : Bool := false
  scan    : Option Scan := none
  /-- R191: the last completed scan, in module time. -/
  lastScan : Option Nat := none
  /-- R191: steps below the shade fraction in a row; R201: dark and bright since. -/
  shade   : Nat := 0
  darkAt  : Option Nat := none
  brightAt : Option Nat := none
  /-- R203: the last stale slot. -/
  missAt  : Option Nat := none
  /-- R189: low current since, with the sum and number of VSTR; the last setting, in module time. -/
  lowAt   : Option Nat := none
  lowSum  : Nat := 0
  lowN    : Nat := 0
  vocAt   : Option Nat := none
  deriving DecidableEq, Repr, Inhabited

/-- R191–R202: one cluster. -/
structure MpptClu where
  /-- R191: per phase, queued cells in order, with whether software asked. -/
  queue  : Tbl (List (Nat × Bool)) := []
  /-- R196: the last cap instant, by number; the last valid PLIM from GOOSE, kW. -/
  cap    : Nat := 0
  plim   : Option Int := none
  /-- R197: CEIL_x, none while it does not limit; ZS_SAT set, and clear, since. -/
  ceil   : Tbl (Option Int) := []
  satAt  : Option Nat := none
  freeAt : Option Nat := none
  deriving DecidableEq, Repr, Inhabited

structure MpptSt where
  cell    : Tbl MpptCell := []
  clu     : Tbl MpptClu := []
  /-- R189, R191: image load, in module time. -/
  loadAt  : Nat := 0
  /-- R186: per ring, abandoned writes since the last MPPT_REF_DEFER, and its instant. -/
  deferN  : Tbl Nat := []
  deferAt : Tbl (Option Nat) := []
  deriving DecidableEq, Repr, Inhabited

/-- R204–R219: one cluster's machine. -/
structure FrtClu where
  /-- entry into the present state -/
  at_     : Nat := 0
  /-- R215: per entry, since when its condition has held at every test. -/
  held    : Tbl (Option Nat) := []
  /-- R215: the cycle last evaluated, and last scanned. -/
  evalK   : Option Nat := none
  scanK   : Option Nat := none
  /-- R219: when the pending command was accepted. -/
  cmdAt   : Nat := 0
  /-- R208: U over the last second, with instants; references and P* over the last line period. -/
  us      : List (Nat × Int) := []
  ids     : List Int := []
  iqs     : List Int := []
  ps      : List Int := []
  idPre   : Int := 0
  iqPre   : Int := 0
  pPre    : Int := 0
  /-- R204: P delivered at entry; the references last staged (held in BLIND), and those of the last evaluation. -/
  pEntry  : Int := 0
  refs    : List Int := []
  evalRefs : List Int := []
  /-- R218: evaluations without an ACTIVE cell in a row; SOURCE = NONE since. -/
  idle    : Nat := 0
  noneAt  : Option Nat := none
  /-- R204: Q*, last valid from GOOSE, kvar. -/
  qset    : Int := 0
  deriving DecidableEq, Repr, Inhabited

/-- R225: a finished chip: sign, mean V− (1/256 of a code) and I− (1/256 of 0.1 mA), and whether it is fit for an
estimate. -/
structure Chip where
  sign : Int
  vd   : Int
  vq   : Int
  id   : Int
  iq   : Int
  fit  : Bool
  deriving DecidableEq, Repr, Inhabited

/-- R220–R227. -/
structure IslSt where
  lfsr   : Nat := 0xACE1
  chip   : Nat := 0
  /-- the present chip: sums of V− and I−, freezes counted, still fit -/
  vd     : Int := 0
  vq     : Int := 0
  id     : Int := 0
  iq     : Int := 0
  n      : Nat := 0
  fit    : Bool := true
  /-- R228: the clusters that injected at the chip's first freeze. -/
  inj    : List Nat := []
  chips  : List Chip := []
  /-- R225: chips since the last estimate; estimates above and below ZTH in a row. -/
  since  : Nat := 0
  above  : Nat := 0
  below  : Nat := 0
  /-- R223: ROCOF above since; a vector shift seen at the last freeze; neither since. -/
  rocofAt : Option Nat := none
  shift  : Bool := false
  quietAt : Option Nat := none
  deriving DecidableEq, Repr, Inhabited

structure FrtSt where
  clu : Tbl FrtClu := []
  isl : IslSt := {}
  deriving DecidableEq, Repr, Inhabited

end Sys2Proof.Machine
end

