-- ==== Sys2Proof/Machine/State/Time.lean ====
section
/-! DEFINITION. Clocks, module time, the RTC and the PTP servo: the state of "Clocks, time base and calendar" that no
register holds. Times are in units of 125 ps (R43) on the root clock. -/

namespace Sys2Proof.Machine

/-- R35–R61: state of the clocks and of module time. -/
structure ClkSt where
  /-- R43: module time less the elapsed root time, in units of 125 ps. -/
  off        : Int := 0
  /-- R45: units of 125 ps still to be inserted (positive) or omitted (negative). -/
  slewLeft   : Int := 0
  /-- R45: units elapsed since the last unit was inserted or omitted. -/
  slewAcc    : Nat := 0
  /-- R55: RTC time less the elapsed root time, in units of 125 ps. -/
  rtcOff     : Int := 0
  /-- R55: the RTC's copy of the UTC offset and the leap flags. -/
  rtcUtc     : Int := 0
  rtcLeap61  : Bool := false
  rtcLeap59  : Bool := false
  /-- R59: RTC time (125 ps units) at which CLK went off, while it is off. -/
  sleepFrom  : Option Int := none
  /-- R50: TIME_STATUS.STATE from which LOCKING was entered. -/
  lockFrom   : Nat := 0
  /-- R50: the servo's frequency correction, in parts in 2^32, and the one held at the last LOCKED. -/
  freqCorr   : Int := 0
  freqLocked : Int := 0
  /-- R50: the part of a unit that the frequency correction has still to make up, in 2^-32 unit. -/
  freqAcc    : Int := 0
  /-- R51: the instant of the first entry into HOLDOVER, and TRACEABLE at that entry. -/
  holdAt     : Nat := 0
  holdTrace  : Bool := false
  /-- R51: HOLD_S has expired in this holdover. -/
  holdOver   : Bool := false
  /-- R53: the magnitudes measured at the last 16 Syncs, newest first. -/
  offsets    : List Int := []
  /-- R49: consecutive Sync intervals with the offset within ±1 µs. -/
  inBand     : Nat := 0
  /-- R51: what the grandmaster announces. -/
  gmTraceable : Bool := false
  gmClass    : Nat := 248
  /-- R53: the bound at the start of its growth, ns, and that instant. -/
  uncertBase : Nat := 4294967295
  uncertAt   : Nat := 0
  /-- R60: the instant up to which TIME_OPSEC has been counted. -/
  opsecAt    : Nat := 0
  /-- R46: TIME_OFFSET_LARGE has been logged for the correction pending. -/
  largeLogged : Bool := false
  /-- R50: per LAN, the instants of the last Announce and of the last Sync from its master. -/
  announceAt : Tbl Nat := []
  syncAt     : Tbl Nat := []
  /-- R47: module time (ns) from which a backward step was made, while module time is below it. -/
  backFrom   : Nat := 0
  /-- R47: steps of module time made. -/
  steps      : Nat := 0
  /-- R288: start of a suspension in progress. -/
  suspendAt  : Option Nat := none
  /-- R56: the RTC second shown as second 60. -/
  leapAt     : Option Nat := none
  /-- R38: the instant from which the failed MDLL's next retry counts. -/
  retryAt    : Option Nat := none
  /-- R42: per clock output, the start edge of a running output, in units of 25 ps of elapsed root time. -/
  outStart   : Tbl (Option Nat) := []
  /-- R42: per clock output, the end of the period in progress at a stop, in units of 25 ps. -/
  outStop    : Tbl (Option Nat) := []
  deriving DecidableEq, Repr, Inhabited

end Sys2Proof.Machine
end

