-- ==== Sys2Proof/Machine/State/Wear.lean ====
section
/-! DEFINITION. The wear engine (R346–R363): what no register holds. -/

namespace Sys2Proof.Machine

/-- R348–R350, R355: one half-bridge of a cell. Temperatures are in 0.01 °C / 2^16. -/
structure WearHb where
  /-- R348: Vce-on of the accepted slots of the interval, 1 mV, and the periods that formed a pulse. -/
  vce    : Nat := 0
  pulses : Nat := 0
  /-- R348: the loss in force, µW. -/
  loss   : Nat := 0
  /-- R349: the four nodes. -/
  node   : List Int := [0, 0, 0, 0]
  /-- R350: direction of the temperature (1 rising, −1 falling, 0 not known), the extreme since the last turning point,
  and the stack of turning points, newest first. -/
  dir    : Int := 0
  ext    : Option Int := none
  stack  : List Int := []
  /-- R355: damage at the previous evaluation; r_s and r_f in 2^-64 per hour; the increments before the rates are known. -/
  last   : Nat := 0
  rs     : Nat := 0
  rf     : Nat := 0
  firsts : List Nat := []
  deriving DecidableEq, Repr, Inhabited

/-- R353: what one accepted slot gives the capacitor model: output power as a fraction of 1 mW, VDC (50 mV), |IARM|
(20 mA), RIPPLE (10 mV) and |m| as a fraction. -/
structure CapSample where
  pNum : Int
  pDen : Nat
  vdc  : Nat
  cur  : Nat
  rip  : Nat
  mNum : Nat
  mDen : Nat
  deriving DecidableEq, Repr, Inhabited

structure WearCell where
  /-- R349: the model runs; R357: the blocks of the node's record still unread. -/
  model   : Bool := false
  unread  : List Nat := []
  hb0     : WearHb := {}
  hb1     : WearHb := {}
  /-- R348: accepted slots of the interval, |IARM| (20 mA) and VDC (50 mV) summed, the carrier periods begun. -/
  slots   : Nat := 0
  cur     : Nat := 0
  volt    : Nat := 0
  periods : Nat := 0
  ths     : Int := 0
  /-- R356: the rates are known. -/
  known   : Bool := false
  /-- R353: cycles and samples of the line period; the last estimate of C (10 µF); the day's estimates. -/
  cycles  : Nat := 0
  samples : List CapSample := []
  cLast   : Option Nat := none
  cDay    : List Nat := []
  esrDay  : List Nat := []
  /-- R354: daily values by UTC day, newest first; baselines, 0 none. -/
  cDaily   : List (Int × Nat) := []
  esrDaily : List (Int × Nat) := []
  /-- R357: ACTIVE time of the record and since, units; the record is to be written; unread or unwritten since. -/
  active  : Nat := 0
  due     : Bool := false
  pend    : List Nat := []
  failAt  : Option Nat := none
  failLog : Bool := false
  /-- R359: last entries by cause: 1–4 deferred, 5 margin refused, 6–9 overridden, 10 unretired. -/
  logged  : Tbl (Option Nat) := []
  /-- R360: an UNRETIRE has been carried out. -/
  unret   : Bool := false
  deriving DecidableEq, Repr, Inhabited

/-- R362: one wearing part: daily values by UTC day, newest first; the rate of a drive (percent per day, 2^-32) and its
last percentage; whether the life is already reported below 8,760 h. -/
structure WearPart where
  daily  : List (Int × Int) := []
  rate   : Option Nat := none
  last   : Option Nat := none
  low    : Bool := false
  deriving DecidableEq, Repr, Inhabited

structure WearSt where
  cell   : Tbl WearCell := []
  /-- R351: per cell, its matrix (16 i + j), and the node it belongs to. -/
  matrix : Tbl (Tbl Nat) := []
  node   : Tbl Nat := []
  /-- R355: hours of TIME_OPSEC at the last evaluation. -/
  hour   : Nat := 0
  /-- R348: cycle of the last update. -/
  updK   : Nat := 0
  /-- R353: the UTC day being formed. -/
  day    : Option Int := none
  /-- R358: module times of the retirements of the last 24 h, units. -/
  rets   : List Nat := []
  part   : Tbl WearPart := []
  driftLow : Bool := false
  deriving DecidableEq, Repr, Inhabited

end Sys2Proof.Machine
end

