-- ==== Sys2Proof/Machine/State.lean ====
section
/-! DEFINITION. The machine's whole state as plain data, the reasons a step can stop, and the state after reset. -/

namespace Sys2Proof.Machine

/-- Faults. No command of the module stops it: every happening the spec describes leads to a next state. -/
inductive Fault where
  /-- Raised by nobody: it keeps the type closed and inhabited. Safe. -/
  | neverRaised
  deriving DecidableEq, Repr

/-- Refusals: the commands without a meaning. -/
inductive Refusal where
  /-- Raised by the arms of `exec` that have no meaning yet, with the mnemonic. Safe: the model stops. -/
  | notModelled (mnemonic : String)
  deriving DecidableEq, Repr

/-- The state of the module. -/
structure State where
  /-- Time elapsed on the root clock, in units of 125 ps (R21, R43). -/
  now     : Nat := 0
  /-- R10–R14: the register file; an unlisted register reads its reset word. -/
  regs    : List (Reg × Word) := []
  /-- The model's own counter of free values taken (no state of the spec). DESIGN CHOICE, log entry 12. -/
  free    : Nat := 0
  clk     : ClkSt := {}
  mgmt    : MgmtSt := {}
  log     : LogSt := {}
  pwr     : PwrSt := {}
  start   : StartSt := {}
  link    : LinkSt := {}
  cells   : CellsSt := {}
  eng     : EngSt := {}
  grid    : GridSt := {}
  mppt    : MpptSt := {}
  frt     : FrtSt := {}
  bus     : BusSt := {}
  mtr     : MtrSt := {}
  lanes   : LanesSt := {}
  carafe  : RecSt := {}
  wear    : WearSt := {}
  safe    : SafeSt := {}
  ana     : AnaSt := {}
  pour    : PourSt := {}
  pins    : PinSt := {}
  /-- R331: capture triggers raised since the last freeze: module time, source (R331: 0 table action,
  1 HOLD, 2 halt, 3 software, 4 GOOSE), number of the source. -/
  capAsk  : List (Nat × Nat × Nat) := []
  /-- The commands waiting, first in, first out. DESIGN CHOICE, log entry 2. -/
  pending : List Instr := []
  deriving DecidableEq, Repr

/-- R420: the restore of every switchable domain from OFF, in the order of the table. -/
def resetPlan : List RestoreStep :=
  [⟨[1], 400 * 8000, 3⟩, ⟨[20], 100 * 8000, 3⟩, ⟨[5], 50 * 8000, 3⟩, ⟨[7], 25 * 8000000, 3⟩,
   ⟨[2, 3, 4], 150 * 8000, 3⟩, ⟨[17], 20 * 8000000, 3⟩, ⟨[9, 10, 11, 12, 13, 14, 15, 16], 2 * 8000000, 3⟩,
   ⟨[8], 8000000, 3⟩, ⟨[19], 8000000, 3⟩, ⟨[18], 30 * 8000000, 3⟩]

/-- The module right after power-up (R424, R439 at time 0): both inputs valid, CREMA and SAFE on with the start of Crema
still to be made (R425, R429), every switchable domain coming on under R420 in the cold start; every register at its
Reset value (an unlisted register reads it), the log and every memory empty. DESIGN CHOICE, log entry 3: unsafe. -/
def State.reset : State where
  regs    := [(⟨27, 0, 0⟩, 0xFFFFEFFE), (⟨28, 0, 0⟩, 0x3FF), (⟨34, 0, 0⟩, 3)]
  log     := { seqLost := true }
  pwr     := { plan := resetPlan, stepEnd := 400 * 8000, cutOff := true }
  start   := { cold := true }

end Sys2Proof.Machine
end

