-- ==== Sys2Proof/Machine/Parts.lean ====
section
/-! DEFINITION. The updates of one part of the state: every other part and every register stands. -/

namespace Sys2Proof.Machine

def State.setClk (s : State) (f : ClkSt → ClkSt) : State := { s with clk := f s.clk }
def State.setMgmt (s : State) (f : MgmtSt → MgmtSt) : State := { s with mgmt := f s.mgmt }
def State.setLog (s : State) (f : LogSt → LogSt) : State := { s with log := f s.log }
def State.setPwr (s : State) (f : PwrSt → PwrSt) : State := { s with pwr := f s.pwr }
def State.setStart (s : State) (f : StartSt → StartSt) : State := { s with start := f s.start }
def State.setLink (s : State) (f : LinkSt → LinkSt) : State := { s with link := f s.link }
def State.setCells (s : State) (f : CellsSt → CellsSt) : State := { s with cells := f s.cells }
def State.setEng (s : State) (f : EngSt → EngSt) : State := { s with eng := f s.eng }
def State.setGrid (s : State) (f : GridSt → GridSt) : State := { s with grid := f s.grid }
def State.setMppt (s : State) (f : MpptSt → MpptSt) : State := { s with mppt := f s.mppt }
def State.setFrt (s : State) (f : FrtSt → FrtSt) : State := { s with frt := f s.frt }
def State.setBus (s : State) (f : BusSt → BusSt) : State := { s with bus := f s.bus }
def State.setMtr (s : State) (f : MtrSt → MtrSt) : State := { s with mtr := f s.mtr }
def State.setLanes (s : State) (f : LanesSt → LanesSt) : State := { s with lanes := f s.lanes }
def State.setRec (s : State) (f : RecSt → RecSt) : State := { s with carafe := f s.carafe }
def State.setWear (s : State) (f : WearSt → WearSt) : State := { s with wear := f s.wear }
def State.setSafe (s : State) (f : SafeSt → SafeSt) : State := { s with safe := f s.safe }
def State.setAna (s : State) (f : AnaSt → AnaSt) : State := { s with ana := f s.ana }
def State.setPour (s : State) (f : PourSt → PourSt) : State := { s with pour := f s.pour }
def State.setPins (s : State) (f : PinSt → PinSt) : State := { s with pins := f s.pins }
def State.setCapAsk (s : State) (f : List (Nat × Nat × Nat) → List (Nat × Nat × Nat)) : State :=
  { s with capAsk := f s.capAsk }

end Sys2Proof.Machine
end

