-- ==== Sys2Proof/Machine/RegNames.lean ====
section
/-! DEFINITION. The names of the module's registers and of their fields, one abbreviation each, written from the
register maps that end each chapter of the spec (R13: base + index × stride; the indices are the arguments here). -/

namespace Sys2Proof.Machine.R

/-- R479, spec/20_management_registers.md: register DEV_ID. -/
abbrev DEV_ID : Reg := ⟨0, 0, 0⟩
/-- R479, spec/20_management_registers.md: register DEV_REV. -/
abbrev DEV_REV : Reg := ⟨1, 0, 0⟩
/-- R479, spec/20_management_registers.md: register DEV_SERIAL_LO. -/
abbrev DEV_SERIAL_LO : Reg := ⟨2, 0, 0⟩
/-- R479, spec/20_management_registers.md: register DEV_SERIAL_HI. -/
abbrev DEV_SERIAL_HI : Reg := ⟨3, 0, 0⟩
/-- R479, spec/20_management_registers.md: register DEV_FW_VER. -/
abbrev DEV_FW_VER : Reg := ⟨4, 0, 0⟩
/-- R479, spec/20_management_registers.md: register DEV_PROTO. -/
abbrev DEV_PROTO : Reg := ⟨5, 0, 0⟩
/-- R479, spec/20_management_registers.md: register DEV_CODE_LO. -/
abbrev DEV_CODE_LO : Reg := ⟨6, 0, 0⟩
/-- R479, spec/20_management_registers.md: register DEV_CODE_HI. -/
abbrev DEV_CODE_HI : Reg := ⟨7, 0, 0⟩
/-- R61, spec/02_time_base.md: register CLK_CTRL. -/
abbrev CLK_CTRL : Reg := ⟨8, 0, 0⟩
/-- R61, spec/02_time_base.md: register CLK_STATUS. -/
abbrev CLK_STATUS : Reg := ⟨9, 0, 0⟩
/-- R61, spec/02_time_base.md: register CLK_OUTn_CFG. -/
abbrev CLK_OUT_CFG (n : Nat) : Reg := ⟨10, n, 0⟩
/-- R61, spec/02_time_base.md: register CLK_SSC. -/
abbrev CLK_SSC : Reg := ⟨11, 0, 0⟩
/-- R61, spec/02_time_base.md: register TIME_STATUS. -/
abbrev TIME_STATUS : Reg := ⟨12, 0, 0⟩
/-- R61, spec/02_time_base.md: register TIME_NOW_LO. -/
abbrev TIME_NOW_LO : Reg := ⟨13, 0, 0⟩
/-- R61, spec/02_time_base.md: register TIME_NOW_HI. -/
abbrev TIME_NOW_HI : Reg := ⟨14, 0, 0⟩
/-- R61, spec/02_time_base.md: register TIME_NOW_FRAC. -/
abbrev TIME_NOW_FRAC : Reg := ⟨15, 0, 0⟩
/-- R61, spec/02_time_base.md: register TIME_PTP_CFG. -/
abbrev TIME_PTP_CFG : Reg := ⟨16, 0, 0⟩
/-- R61, spec/02_time_base.md: register TIME_OFFSET. -/
abbrev TIME_OFFSET : Reg := ⟨17, 0, 0⟩
/-- R61, spec/02_time_base.md: register TIME_UTC. -/
abbrev TIME_UTC : Reg := ⟨18, 0, 0⟩
/-- R61, spec/02_time_base.md: register TIME_UNCERT. -/
abbrev TIME_UNCERT : Reg := ⟨19, 0, 0⟩
/-- R61, spec/02_time_base.md: register TIME_OPSEC_LO. -/
abbrev TIME_OPSEC_LO : Reg := ⟨20, 0, 0⟩
/-- R61, spec/02_time_base.md: register TIME_OPSEC_HI. -/
abbrev TIME_OPSEC_HI : Reg := ⟨21, 0, 0⟩
/-- R61, spec/02_time_base.md: register TIME_RTCSEC_LO. -/
abbrev TIME_RTCSEC_LO : Reg := ⟨22, 0, 0⟩
/-- R61, spec/02_time_base.md: register TIME_RTCSEC_HI. -/
abbrev TIME_RTCSEC_HI : Reg := ⟨23, 0, 0⟩
/-- R61, spec/02_time_base.md: register RTC_CAL_DATE. -/
abbrev RTC_CAL_DATE : Reg := ⟨24, 0, 0⟩
/-- R61, spec/02_time_base.md: register RTC_CAL_TIME. -/
abbrev RTC_CAL_TIME : Reg := ⟨25, 0, 0⟩
/-- R61, spec/02_time_base.md: register RTC_STATUS. -/
abbrev RTC_STATUS : Reg := ⟨26, 0, 0⟩
/-- R436, spec/18_power_domains_crema.md: register PWR_STATE_LO. -/
abbrev PWR_STATE_LO : Reg := ⟨27, 0, 0⟩
/-- R436, spec/18_power_domains_crema.md: register PWR_STATE_HI. -/
abbrev PWR_STATE_HI : Reg := ⟨28, 0, 0⟩
/-- R436, spec/18_power_domains_crema.md: register PWR_REQ. -/
abbrev PWR_REQ : Reg := ⟨29, 0, 0⟩
/-- R436, spec/18_power_domains_crema.md: register PWR_REFUSE. -/
abbrev PWR_REFUSE : Reg := ⟨30, 0, 0⟩
/-- R436, spec/18_power_domains_crema.md: register PWR_WAKE_SET. -/
abbrev PWR_WAKE_SET : Reg := ⟨31, 0, 0⟩
/-- R436, spec/18_power_domains_crema.md: register PWR_WAKE_CFG. -/
abbrev PWR_WAKE_CFG : Reg := ⟨32, 0, 0⟩
/-- R436, spec/18_power_domains_crema.md: register PWR_WAKE_STAT. -/
abbrev PWR_WAKE_STAT : Reg := ⟨33, 0, 0⟩
/-- R436, spec/18_power_domains_crema.md: register PWR_SUPPLY. -/
abbrev PWR_SUPPLY : Reg := ⟨34, 0, 0⟩
/-- R436, spec/18_power_domains_crema.md: register PWR_DOM_P. -/
abbrev PWR_DOM_P (d : Nat) : Reg := ⟨35, d, 0⟩
/-- R436, spec/18_power_domains_crema.md: register CREMA_STICKY. -/
abbrev CREMA_STICKY : Reg := ⟨36, 0, 0⟩
/-- R436, spec/18_power_domains_crema.md: register CREMA_CFG. -/
abbrev CREMA_CFG : Reg := ⟨37, 0, 0⟩
/-- R436, spec/18_power_domains_crema.md: register CREMA_CELL. -/
abbrev CREMA_CELL : Reg := ⟨38, 0, 0⟩
/-- R436, spec/18_power_domains_crema.md: register CREMA_CELL_AGE. -/
abbrev CREMA_CELL_AGE : Reg := ⟨39, 0, 0⟩
/-- R436, spec/18_power_domains_crema.md: register CREMA_HARV. -/
abbrev CREMA_HARV : Reg := ⟨40, 0, 0⟩
/-- R436, spec/18_power_domains_crema.md: register CREMA_TAMPER_T_LO. -/
abbrev CREMA_TAMPER_T_LO : Reg := ⟨41, 0, 0⟩
/-- R436, spec/18_power_domains_crema.md: register CREMA_TAMPER_T_HI. -/
abbrev CREMA_TAMPER_T_HI : Reg := ⟨42, 0, 0⟩
/-- R436, spec/18_power_domains_crema.md: register CREMA_SUPPLY_T_LO. -/
abbrev CREMA_SUPPLY_T_LO : Reg := ⟨43, 0, 0⟩
/-- R436, spec/18_power_domains_crema.md: register CREMA_SUPPLY_T_HI. -/
abbrev CREMA_SUPPLY_T_HI : Reg := ⟨44, 0, 0⟩
/-- R436, spec/18_power_domains_crema.md: register CREMA_RAM. -/
abbrev CREMA_RAM (a : Nat) : Reg := ⟨45, a, 0⟩
/-- R436, spec/18_power_domains_crema.md: register CREMA_FLOG. -/
abbrev CREMA_FLOG (e w : Nat) : Reg := ⟨46, e, w⟩
/-- R436, spec/18_power_domains_crema.md: register THM_CFG. -/
abbrev THM_CFG : Reg := ⟨47, 0, 0⟩
/-- R436, spec/18_power_domains_crema.md: register THM_CP. -/
abbrev THM_CP : Reg := ⟨48, 0, 0⟩
/-- R436, spec/18_power_domains_crema.md: register THM_NTC. -/
abbrev THM_NTC : Reg := ⟨49, 0, 0⟩
/-- R436, spec/18_power_domains_crema.md: register THM_REG_T. -/
abbrev THM_REG_T (d : Nat) : Reg := ⟨50, d, 0⟩
/-- R436, spec/18_power_domains_crema.md: register THM_REG_CNT. -/
abbrev THM_REG_CNT (d : Nat) : Reg := ⟨51, d, 0⟩
/-- R294, spec/12_triple_lanes.md: register LANE_STATUS. -/
abbrev LANE_STATUS : Reg := ⟨52, 0, 0⟩
/-- R294, spec/12_triple_lanes.md: register LANE_CFG. -/
abbrev LANE_CFG : Reg := ⟨53, 0, 0⟩
/-- R294, spec/12_triple_lanes.md: register LANE_CMD. -/
abbrev LANE_CMD : Reg := ⟨54, 0, 0⟩
/-- R294, spec/12_triple_lanes.md: register LANE_n_STAT. -/
abbrev LANE_STAT (n : Nat) : Reg := ⟨55, n, 0⟩
/-- R294, spec/12_triple_lanes.md: register LANE_n_EXCL_LO. -/
abbrev LANE_EXCL_LO (n : Nat) : Reg := ⟨56, n, 0⟩
/-- R294, spec/12_triple_lanes.md: register LANE_n_EXCL_HI. -/
abbrev LANE_EXCL_HI (n : Nat) : Reg := ⟨57, n, 0⟩
/-- R294, spec/12_triple_lanes.md: register LANE_n_COPY. -/
abbrev LANE_COPY (n : Nat) : Reg := ⟨58, n, 0⟩
/-- R294, spec/12_triple_lanes.md: register LANE_SIG_LO. -/
abbrev LANE_SIG_LO : Reg := ⟨59, 0, 0⟩
/-- R294, spec/12_triple_lanes.md: register LANE_SIG_HI. -/
abbrev LANE_SIG_HI : Reg := ⟨60, 0, 0⟩
/-- R294, spec/12_triple_lanes.md: register LANE_INTR. -/
abbrev LANE_INTR : Reg := ⟨61, 0, 0⟩
/-- R294, spec/12_triple_lanes.md: register LANE_n_SWLIM. -/
abbrev LANE_SWLIM (n : Nat) : Reg := ⟨62, n, 0⟩
/-- R294, spec/12_triple_lanes.md: register VOTE_STATUS. -/
abbrev VOTE_STATUS : Reg := ⟨63, 0, 0⟩
/-- R294, spec/12_triple_lanes.md: register VOTE_MERGE. -/
abbrev VOTE_MERGE : Reg := ⟨64, 0, 0⟩
/-- R294, spec/12_triple_lanes.md: register VOTE_CNT_MIN_n. -/
abbrev VOTE_CNT_MIN (n : Nat) : Reg := ⟨65, n, 0⟩
/-- R294, spec/12_triple_lanes.md: register VOTE_LAST. -/
abbrev VOTE_LAST : Reg := ⟨66, 0, 0⟩
/-- R294, spec/12_triple_lanes.md: register VOTE_LEASE. -/
abbrev VOTE_LEASE : Reg := ⟨67, 0, 0⟩
/-- R294, spec/12_triple_lanes.md: register VOTE_LEASE_CNT. -/
abbrev VOTE_LEASE_CNT : Reg := ⟨68, 0, 0⟩
/-- R314, spec/13_pours_ordering.md: register POUR_STATUS. -/
abbrev POUR_STATUS : Reg := ⟨69, 0, 0⟩
/-- R314, spec/13_pours_ordering.md: register POUR_CFG. -/
abbrev POUR_CFG : Reg := ⟨70, 0, 0⟩
/-- R314, spec/13_pours_ordering.md: register POUR_NEXT_ID. -/
abbrev POUR_NEXT_ID : Reg := ⟨71, 0, 0⟩
/-- R314, spec/13_pours_ordering.md: register POUR_CNT. -/
abbrev POUR_CNT : Reg := ⟨72, 0, 0⟩
/-- R314, spec/13_pours_ordering.md: register POUR_STALE_CNT. -/
abbrev POUR_STALE_CNT : Reg := ⟨73, 0, 0⟩
/-- R314, spec/13_pours_ordering.md: register POUR_PEEK_SEL. -/
abbrev POUR_PEEK_SEL : Reg := ⟨74, 0, 0⟩
/-- R314, spec/13_pours_ordering.md: register POUR_PEEK_ADDR. -/
abbrev POUR_PEEK_ADDR : Reg := ⟨75, 0, 0⟩
/-- R314, spec/13_pours_ordering.md: register POUR_PEEK_VALUE. -/
abbrev POUR_PEEK_VALUE : Reg := ⟨76, 0, 0⟩
/-- R314, spec/13_pours_ordering.md: register POUR_PEEK_MASK. -/
abbrev POUR_PEEK_MASK : Reg := ⟨77, 0, 0⟩
/-- R314, spec/13_pours_ordering.md: register POUR_PEEK_CELLw. -/
abbrev POUR_PEEK_CELL (w : Nat) : Reg := ⟨78, w, 0⟩
/-- R314, spec/13_pours_ordering.md: register POUR_SLOT_STAT. -/
abbrev POUR_SLOT_STAT (s : Nat) : Reg := ⟨79, s, 0⟩
/-- R314, spec/13_pours_ordering.md: register POUR_SLOT_ID. -/
abbrev POUR_SLOT_ID (s : Nat) : Reg := ⟨80, s, 0⟩
/-- R314, spec/13_pours_ordering.md: register POUR_SLOT_CFG. -/
abbrev POUR_SLOT_CFG (s : Nat) : Reg := ⟨81, s, 0⟩
/-- R314, spec/13_pours_ordering.md: register POUR_SLOT_SEQ. -/
abbrev POUR_SLOT_SEQ (s : Nat) : Reg := ⟨82, s, 0⟩
/-- R314, spec/13_pours_ordering.md: register POUR_SLOT_REQ_LO. -/
abbrev POUR_SLOT_REQ_LO (s : Nat) : Reg := ⟨83, s, 0⟩
/-- R314, spec/13_pours_ordering.md: register POUR_SLOT_REQ_HI. -/
abbrev POUR_SLOT_REQ_HI (s : Nat) : Reg := ⟨84, s, 0⟩
/-- R314, spec/13_pours_ordering.md: register POUR_SLOT_TC_LO. -/
abbrev POUR_SLOT_TC_LO (s : Nat) : Reg := ⟨85, s, 0⟩
/-- R314, spec/13_pours_ordering.md: register POUR_SLOT_TC_HI. -/
abbrev POUR_SLOT_TC_HI (s : Nat) : Reg := ⟨86, s, 0⟩
/-- R314, spec/13_pours_ordering.md: register POUR_SLOT_PROG. -/
abbrev POUR_SLOT_PROG (s : Nat) : Reg := ⟨87, s, 0⟩
/-- R314, spec/13_pours_ordering.md: register POUR_SLOT_FAIL. -/
abbrev POUR_SLOT_FAIL (s : Nat) : Reg := ⟨88, s, 0⟩
/-- R314, spec/13_pours_ordering.md: register POUR_SLOT_UNCONF. -/
abbrev POUR_SLOT_UNCONF (s : Nat) : Reg := ⟨89, s, 0⟩
/-- R314, spec/13_pours_ordering.md: register POUR_CFG_STALEw. -/
abbrev POUR_CFG_STALE (w : Nat) : Reg := ⟨90, w, 0⟩
/-- R479, spec/20_management_registers.md: register LOG_STATUS. -/
abbrev LOG_STATUS : Reg := ⟨91, 0, 0⟩
/-- R479, spec/20_management_registers.md: register LOG_NEXT_SEQ_LO. -/
abbrev LOG_NEXT_SEQ_LO : Reg := ⟨92, 0, 0⟩
/-- R479, spec/20_management_registers.md: register LOG_NEXT_SEQ_HI. -/
abbrev LOG_NEXT_SEQ_HI : Reg := ⟨93, 0, 0⟩
/-- R479, spec/20_management_registers.md: register LOG_OLDEST_LO. -/
abbrev LOG_OLDEST_LO : Reg := ⟨94, 0, 0⟩
/-- R479, spec/20_management_registers.md: register LOG_OLDEST_HI. -/
abbrev LOG_OLDEST_HI : Reg := ⟨95, 0, 0⟩
/-- R479, spec/20_management_registers.md: register LOG_FB. -/
abbrev LOG_FB : Reg := ⟨96, 0, 0⟩
/-- R479, spec/20_management_registers.md: register LOG_CNT_WRITTEN. -/
abbrev LOG_CNT_WRITTEN : Reg := ⟨97, 0, 0⟩
/-- R479, spec/20_management_registers.md: register LOG_CNT_VERIFY. -/
abbrev LOG_CNT_VERIFY : Reg := ⟨98, 0, 0⟩
/-- R479, spec/20_management_registers.md: register LOG_CMD. -/
abbrev LOG_CMD : Reg := ⟨99, 0, 0⟩
/-- R479, spec/20_management_registers.md: register LOG_GRIND_CFG. -/
abbrev LOG_GRIND_CFG : Reg := ⟨100, 0, 0⟩
/-- R479, spec/20_management_registers.md: register LOG_GRIND_CORR. -/
abbrev LOG_GRIND_CORR (m : Nat) : Reg := ⟨101, m, 0⟩
/-- R479, spec/20_management_registers.md: register LOG_GRIND_UNC. -/
abbrev LOG_GRIND_UNC (m : Nat) : Reg := ⟨102, m, 0⟩
/-- R479, spec/20_management_registers.md: register LOG_GRIND_PASS. -/
abbrev LOG_GRIND_PASS : Reg := ⟨103, 0, 0⟩
/-- R479, spec/20_management_registers.md: register MGMT_CFG. -/
abbrev MGMT_CFG : Reg := ⟨104, 0, 0⟩
/-- R479, spec/20_management_registers.md: register MGMT_NET_IP. -/
abbrev MGMT_NET_IP : Reg := ⟨105, 0, 0⟩
/-- R479, spec/20_management_registers.md: register MGMT_NET_MASK. -/
abbrev MGMT_NET_MASK : Reg := ⟨106, 0, 0⟩
/-- R479, spec/20_management_registers.md: register MGMT_NET_GW. -/
abbrev MGMT_NET_GW : Reg := ⟨107, 0, 0⟩
/-- R479, spec/20_management_registers.md: register MGMT_STAT. -/
abbrev MGMT_STAT : Reg := ⟨108, 0, 0⟩
/-- R461, spec/19_startup_access.md: register ACC_FIELD_LOCK. -/
abbrev ACC_FIELD_LOCK : Reg := ⟨109, 0, 0⟩
/-- R461, spec/19_startup_access.md: register ACC_POLICY. -/
abbrev ACC_POLICY : Reg := ⟨110, 0, 0⟩
/-- R461, spec/19_startup_access.md: register ACC_SESSIONn. -/
abbrev ACC_SESSION (n : Nat) : Reg := ⟨111, n, 0⟩
/-- R461, spec/19_startup_access.md: register ACC_AUTH. -/
abbrev ACC_AUTH : Reg := ⟨112, 0, 0⟩
/-- R461, spec/19_startup_access.md: register ACC_KEY_STAT. -/
abbrev ACC_KEY_STAT : Reg := ⟨113, 0, 0⟩
/-- R461, spec/19_startup_access.md: register ACC_KEY_SEL. -/
abbrev ACC_KEY_SEL : Reg := ⟨114, 0, 0⟩
/-- R461, spec/19_startup_access.md: register ACC_KEY_DATAw. -/
abbrev ACC_KEY_DATA (w : Nat) : Reg := ⟨115, w, 0⟩
/-- R94, spec/03_trodra_link.md: register RING_CTRL. -/
abbrev RING_CTRL (n : Nat) : Reg := ⟨116, n, 0⟩
/-- R94, spec/03_trodra_link.md: register RING_STATUS. -/
abbrev RING_STATUS (n : Nat) : Reg := ⟨117, n, 0⟩
/-- R94, spec/03_trodra_link.md: register RING_BREAK. -/
abbrev RING_BREAK (n : Nat) : Reg := ⟨118, n, 0⟩
/-- R94, spec/03_trodra_link.md: register RING_TPROP. -/
abbrev RING_TPROP (n : Nat) : Reg := ⟨119, n, 0⟩
/-- R94, spec/03_trodra_link.md: register RING_TTEL. -/
abbrev RING_TTEL (n : Nat) : Reg := ⟨120, n, 0⟩
/-- R94, spec/03_trodra_link.md: register RING_TSCHED. -/
abbrev RING_TSCHED (n : Nat) : Reg := ⟨121, n, 0⟩
/-- R94, spec/03_trodra_link.md: register RING_ADMIT_TEL. -/
abbrev RING_ADMIT_TEL (n : Nat) : Reg := ⟨122, n, 0⟩
/-- R94, spec/03_trodra_link.md: register RING_ADMIT_SCHED. -/
abbrev RING_ADMIT_SCHED (n : Nat) : Reg := ⟨123, n, 0⟩
/-- R94, spec/03_trodra_link.md: register RING_THALT. -/
abbrev RING_THALT (n : Nat) : Reg := ⟨124, n, 0⟩
/-- R94, spec/03_trodra_link.md: register RING_HALT_CMP. -/
abbrev RING_HALT_CMP (n : Nat) : Reg := ⟨125, n, 0⟩
/-- R94, spec/03_trodra_link.md: register RING_HALT_LEG. -/
abbrev RING_HALT_LEG (n : Nat) : Reg := ⟨126, n, 0⟩
/-- R94, spec/03_trodra_link.md: register RING_HALT_STAT. -/
abbrev RING_HALT_STAT (n : Nat) : Reg := ⟨127, n, 0⟩
/-- R94, spec/03_trodra_link.md: register RING_STAT_CLR. -/
abbrev RING_STAT_CLR (n : Nat) : Reg := ⟨128, n, 0⟩
/-- R94, spec/03_trodra_link.md: register RING_CNT_CRC_A. -/
abbrev RING_CNT_CRC_A (n : Nat) : Reg := ⟨129, n, 0⟩
/-- R94, spec/03_trodra_link.md: register RING_CNT_CRC_B. -/
abbrev RING_CNT_CRC_B (n : Nat) : Reg := ⟨130, n, 0⟩
/-- R94, spec/03_trodra_link.md: register RING_CNT_STALE. -/
abbrev RING_CNT_STALE (n : Nat) : Reg := ⟨131, n, 0⟩
/-- R94, spec/03_trodra_link.md: register RING_CNT_LATE. -/
abbrev RING_CNT_LATE (n : Nat) : Reg := ⟨132, n, 0⟩
/-- R94, spec/03_trodra_link.md: register RING_CNT_ABORT. -/
abbrev RING_CNT_ABORT (n : Nat) : Reg := ⟨133, n, 0⟩
/-- R94, spec/03_trodra_link.md: register RING_CNT_MISMATCH. -/
abbrev RING_CNT_MISMATCH (n : Nat) : Reg := ⟨134, n, 0⟩
/-- R94, spec/03_trodra_link.md: register RING_CNT_BREAK. -/
abbrev RING_CNT_BREAK (n : Nat) : Reg := ⟨135, n, 0⟩
/-- R94, spec/03_trodra_link.md: register RING_CNT_MBX_TO. -/
abbrev RING_CNT_MBX_TO (n : Nat) : Reg := ⟨136, n, 0⟩
/-- R94, spec/03_trodra_link.md: register RING_MBX_STAT. -/
abbrev RING_MBX_STAT (n : Nat) : Reg := ⟨137, n, 0⟩
/-- R94, spec/03_trodra_link.md: register RING_HOP_DLY. -/
abbrev RING_HOP_DLY (n h : Nat) : Reg := ⟨138, n, h⟩
/-- R94, spec/03_trodra_link.md: register RING_HOP_STAT. -/
abbrev RING_HOP_STAT (n h : Nat) : Reg := ⟨139, n, h⟩
/-- R94, spec/03_trodra_link.md: register RING_LOOPD. -/
abbrev RING_LOOPD : Reg := ⟨140, 0, 0⟩
/-- R94, spec/03_trodra_link.md: register RING_FREEZE. -/
abbrev RING_FREEZE : Reg := ⟨141, 0, 0⟩
/-- R94, spec/03_trodra_link.md: register RING_LAUNCH. -/
abbrev RING_LAUNCH : Reg := ⟨142, 0, 0⟩
/-- R94, spec/03_trodra_link.md: register RING_TCE. -/
abbrev RING_TCE : Reg := ⟨143, 0, 0⟩
/-- R94, spec/03_trodra_link.md: register RING_CTL_PERIOD. -/
abbrev RING_CTL_PERIOD : Reg := ⟨144, 0, 0⟩
/-- R116, spec/04_cells.md: register CELL_STATE. -/
abbrev CELL_STATE (i : Nat) : Reg := ⟨145, i, 0⟩
/-- R116, spec/04_cells.md: register CELL_CMD. -/
abbrev CELL_CMD (i : Nat) : Reg := ⟨146, i, 0⟩
/-- R116, spec/04_cells.md: register CELL_INFO. -/
abbrev CELL_INFO (i : Nat) : Reg := ⟨147, i, 0⟩
/-- R116, spec/04_cells.md: register CELL_CFG. -/
abbrev CELL_CFG (i : Nat) : Reg := ⟨148, i, 0⟩
/-- R116, spec/04_cells.md: register CELL_NODE_ID_LO. -/
abbrev CELL_NODE_ID_LO (i : Nat) : Reg := ⟨149, i, 0⟩
/-- R116, spec/04_cells.md: register CELL_NODE_ID_HI. -/
abbrev CELL_NODE_ID_HI (i : Nat) : Reg := ⟨150, i, 0⟩
/-- R116, spec/04_cells.md: register CELL_MAP_ID_LO. -/
abbrev CELL_MAP_ID_LO (i : Nat) : Reg := ⟨151, i, 0⟩
/-- R116, spec/04_cells.md: register CELL_MAP_ID_HI. -/
abbrev CELL_MAP_ID_HI (i : Nat) : Reg := ⟨152, i, 0⟩
/-- R116, spec/04_cells.md: register CELL_DIAG. -/
abbrev CELL_DIAG (i : Nat) : Reg := ⟨153, i, 0⟩
/-- R116, spec/04_cells.md: register CELL_TRIP_TOTAL. -/
abbrev CELL_TRIP_TOTAL (i : Nat) : Reg := ⟨154, i, 0⟩
/-- R116, spec/04_cells.md: register CELL_TRIP_TIME_LO. -/
abbrev CELL_TRIP_TIME_LO (i : Nat) : Reg := ⟨155, i, 0⟩
/-- R116, spec/04_cells.md: register CELL_TRIP_TIME_HI. -/
abbrev CELL_TRIP_TIME_HI (i : Nat) : Reg := ⟨156, i, 0⟩
/-- R116, spec/04_cells.md: register CELL_STALE. -/
abbrev CELL_STALE (i : Nat) : Reg := ⟨157, i, 0⟩
/-- R116, spec/04_cells.md: register CELL_FAULTS. -/
abbrev CELL_FAULTS (i : Nat) : Reg := ⟨158, i, 0⟩
/-- R116, spec/04_cells.md: register CELL_TLM. -/
abbrev CELL_TLM (i w : Nat) : Reg := ⟨159, i, w⟩
/-- R116, spec/04_cells.md: register CELL_TLM_CYCLE. -/
abbrev CELL_TLM_CYCLE (i : Nat) : Reg := ⟨160, i, 0⟩
/-- R116, spec/04_cells.md: register CELL_TLM_AGE. -/
abbrev CELL_TLM_AGE (i : Nat) : Reg := ⟨161, i, 0⟩
/-- R116, spec/04_cells.md: register CELL_CLU_CFG. -/
abbrev CELL_CLU_CFG (c : Nat) : Reg := ⟨162, c, 0⟩
/-- R116, spec/04_cells.md: register CELL_PHASE_CFG. -/
abbrev CELL_PHASE_CFG (c ph : Nat) : Reg := ⟨163, c, ph⟩
/-- R116, spec/04_cells.md: register CELL_PHASE_STAT. -/
abbrev CELL_PHASE_STAT (c ph : Nat) : Reg := ⟨164, c, ph⟩
/-- R116, spec/04_cells.md: register CELL_PHASE_VCAP. -/
abbrev CELL_PHASE_VCAP (c ph : Nat) : Reg := ⟨165, c, ph⟩
/-- R116, spec/04_cells.md: register CELL_CLU_STATUS. -/
abbrev CELL_CLU_STATUS (c : Nat) : Reg := ⟨166, c, 0⟩
/-- R116, spec/04_cells.md: register CELL_CTRL. -/
abbrev CELL_CTRL : Reg := ⟨167, 0, 0⟩
/-- R140, spec/05_edge_pwm.md: register PWM_STATUS. -/
abbrev PWM_STATUS : Reg := ⟨168, 0, 0⟩
/-- R140, spec/05_edge_pwm.md: register PWM_CNT_DEBT_CAP. -/
abbrev PWM_CNT_DEBT_CAP : Reg := ⟨169, 0, 0⟩
/-- R140, spec/05_edge_pwm.md: register PWM_CNT_SNAP. -/
abbrev PWM_CNT_SNAP : Reg := ⟨170, 0, 0⟩
/-- R140, spec/05_edge_pwm.md: register PWM_DLY_STAT. -/
abbrev PWM_DLY_STAT : Reg := ⟨171, 0, 0⟩
/-- R140, spec/05_edge_pwm.md: register PWM_TYPE_TIME. -/
abbrev PWM_TYPE_TIME (n : Nat) : Reg := ⟨172, n, 0⟩
/-- R140, spec/05_edge_pwm.md: register PWM_TYPE_TRIP. -/
abbrev PWM_TYPE_TRIP (n : Nat) : Reg := ⟨173, n, 0⟩
/-- R140, spec/05_edge_pwm.md: register PWM_CLU_CFG. -/
abbrev PWM_CLU_CFG (c : Nat) : Reg := ⟨174, c, 0⟩
/-- R140, spec/05_edge_pwm.md: register PWM_CLU_SRC. -/
abbrev PWM_CLU_SRC (c : Nat) : Reg := ⟨175, c, 0⟩
/-- R140, spec/05_edge_pwm.md: register PWM_CLU_VBASE. -/
abbrev PWM_CLU_VBASE (c : Nat) : Reg := ⟨176, c, 0⟩
/-- R140, spec/05_edge_pwm.md: register PWM_CLU_CMD. -/
abbrev PWM_CLU_CMD (c : Nat) : Reg := ⟨177, c, 0⟩
/-- R140, spec/05_edge_pwm.md: register PWM_CLU_STAT. -/
abbrev PWM_CLU_STAT (c : Nat) : Reg := ⟨178, c, 0⟩
/-- R140, spec/05_edge_pwm.md: register PWM_CLU_ANCHOR_LO. -/
abbrev PWM_CLU_ANCHOR_LO (c : Nat) : Reg := ⟨179, c, 0⟩
/-- R140, spec/05_edge_pwm.md: register PWM_CLU_ANCHOR_HI. -/
abbrev PWM_CLU_ANCHOR_HI (c : Nat) : Reg := ⟨180, c, 0⟩
/-- R140, spec/05_edge_pwm.md: register PWM_CELL_OFF. -/
abbrev PWM_CELL_OFF (i : Nat) : Reg := ⟨181, i, 0⟩
/-- R140, spec/05_edge_pwm.md: register PWM_CELL_DEBT0. -/
abbrev PWM_CELL_DEBT0 (i : Nat) : Reg := ⟨182, i, 0⟩
/-- R140, spec/05_edge_pwm.md: register PWM_CELL_DEBT1. -/
abbrev PWM_CELL_DEBT1 (i : Nat) : Reg := ⟨183, i, 0⟩
/-- R140, spec/05_edge_pwm.md: register PWM_CELL_TRIP. -/
abbrev PWM_CELL_TRIP (i : Nat) : Reg := ⟨184, i, 0⟩
/-- R140, spec/05_edge_pwm.md: register PWM_LEG_CFG. -/
abbrev PWM_LEG_CFG (l : Nat) : Reg := ⟨185, l, 0⟩
/-- R140, spec/05_edge_pwm.md: register PWM_LEG_OFF. -/
abbrev PWM_LEG_OFF (l : Nat) : Reg := ⟨186, l, 0⟩
/-- R140, spec/05_edge_pwm.md: register PWM_LEG_SRC. -/
abbrev PWM_LEG_SRC (l : Nat) : Reg := ⟨187, l, 0⟩
/-- R140, spec/05_edge_pwm.md: register PWM_LEG_TIME. -/
abbrev PWM_LEG_TIME (l : Nat) : Reg := ⟨188, l, 0⟩
/-- R140, spec/05_edge_pwm.md: register PWM_LEG_TRIP. -/
abbrev PWM_LEG_TRIP (l : Nat) : Reg := ⟨189, l, 0⟩
/-- R140, spec/05_edge_pwm.md: register PWM_LEG_STAT. -/
abbrev PWM_LEG_STAT (l : Nat) : Reg := ⟨190, l, 0⟩
/-- R140, spec/05_edge_pwm.md: register PWM_LEG_DEBT. -/
abbrev PWM_LEG_DEBT (l : Nat) : Reg := ⟨191, l, 0⟩
/-- R158, spec/06_control_engine.md: register CE_CFG. -/
abbrev CE_CFG : Reg := ⟨192, 0, 0⟩
/-- R158, spec/06_control_engine.md: register CE_STATUS. -/
abbrev CE_STATUS : Reg := ⟨193, 0, 0⟩
/-- R158, spec/06_control_engine.md: register CE_TCE. -/
abbrev CE_TCE : Reg := ⟨194, 0, 0⟩
/-- R158, spec/06_control_engine.md: register CE_NIMP. -/
abbrev CE_NIMP : Reg := ⟨195, 0, 0⟩
/-- R158, spec/06_control_engine.md: register CE_FLAG_SUMn. -/
abbrev CE_FLAG_SUM (n : Nat) : Reg := ⟨196, n, 0⟩
/-- R158, spec/06_control_engine.md: register CE_CNT_ECC. -/
abbrev CE_CNT_ECC : Reg := ⟨197, 0, 0⟩
/-- R158, spec/06_control_engine.md: register CE_PASS. -/
abbrev CE_PASS : Reg := ⟨198, 0, 0⟩
/-- R158, spec/06_control_engine.md: register CE_PROG_RANGE. -/
abbrev CE_PROG_RANGE (p : Nat) : Reg := ⟨199, p, 0⟩
/-- R158, spec/06_control_engine.md: register CE_PROG_CTRL. -/
abbrev CE_PROG_CTRL (p : Nat) : Reg := ⟨200, p, 0⟩
/-- R158, spec/06_control_engine.md: register CE_PROG_CMD. -/
abbrev CE_PROG_CMD (p : Nat) : Reg := ⟨201, p, 0⟩
/-- R158, spec/06_control_engine.md: register CE_PROG_STAT. -/
abbrev CE_PROG_STAT (p : Nat) : Reg := ⟨202, p, 0⟩
/-- R158, spec/06_control_engine.md: register CE_IMP_SRC. -/
abbrev CE_IMP_SRC (j : Nat) : Reg := ⟨203, j, 0⟩
/-- R158, spec/06_control_engine.md: register CE_IMP_DST. -/
abbrev CE_IMP_DST (j : Nat) : Reg := ⟨204, j, 0⟩
/-- R158, spec/06_control_engine.md: register CE_SEC_OP. -/
abbrev CE_SEC_OP (e : Nat) : Reg := ⟨205, e, 0⟩
/-- R158, spec/06_control_engine.md: register CE_SEC_IN. -/
abbrev CE_SEC_IN (e : Nat) : Reg := ⟨206, e, 0⟩
/-- R158, spec/06_control_engine.md: register CE_SEC_IO. -/
abbrev CE_SEC_IO (e : Nat) : Reg := ⟨207, e, 0⟩
/-- R158, spec/06_control_engine.md: register CE_SEC_C01. -/
abbrev CE_SEC_C01 (e : Nat) : Reg := ⟨208, e, 0⟩
/-- R158, spec/06_control_engine.md: register CE_SEC_C23. -/
abbrev CE_SEC_C23 (e : Nat) : Reg := ⟨209, e, 0⟩
/-- R158, spec/06_control_engine.md: register CE_SEC_C4. -/
abbrev CE_SEC_C4 (e : Nat) : Reg := ⟨210, e, 0⟩
/-- R158, spec/06_control_engine.md: register CE_SEC_FLAG. -/
abbrev CE_SEC_FLAG (e : Nat) : Reg := ⟨211, e, 0⟩
/-- R158, spec/06_control_engine.md: register CE_SEC_S1_LO. -/
abbrev CE_SEC_S1_LO (e : Nat) : Reg := ⟨212, e, 0⟩
/-- R158, spec/06_control_engine.md: register CE_SEC_S1_HI. -/
abbrev CE_SEC_S1_HI (e : Nat) : Reg := ⟨213, e, 0⟩
/-- R158, spec/06_control_engine.md: register CE_SEC_S2_LO. -/
abbrev CE_SEC_S2_LO (e : Nat) : Reg := ⟨214, e, 0⟩
/-- R158, spec/06_control_engine.md: register CE_SEC_S2_HI. -/
abbrev CE_SEC_S2_HI (e : Nat) : Reg := ⟨215, e, 0⟩
/-- R158, spec/06_control_engine.md: register CE_SIG. -/
abbrev CE_SIG (s : Nat) : Reg := ⟨216, s, 0⟩
/-- R158, spec/06_control_engine.md: register CE_SIG_OWN. -/
abbrev CE_SIG_OWN (w : Nat) : Reg := ⟨217, w, 0⟩
/-- R183, spec/07_grid_sync_current.md: register GRID_CFG. -/
abbrev GRID_CFG : Reg := ⟨218, 0, 0⟩
/-- R183, spec/07_grid_sync_current.md: register GRID_G_SHIFT. -/
abbrev GRID_G_SHIFT : Reg := ⟨219, 0, 0⟩
/-- R183, spec/07_grid_sync_current.md: register GRID_PT_SRC. -/
abbrev GRID_PT_SRC (pt : Nat) : Reg := ⟨220, pt, 0⟩
/-- R183, spec/07_grid_sync_current.md: register GRID_PT_CHAN. -/
abbrev GRID_PT_CHAN (pt : Nat) : Reg := ⟨221, pt, 0⟩
/-- R183, spec/07_grid_sync_current.md: register GRID_PT_VNOM. -/
abbrev GRID_PT_VNOM (pt : Nat) : Reg := ⟨222, pt, 0⟩
/-- R183, spec/07_grid_sync_current.md: register GRID_PT_DLY. -/
abbrev GRID_PT_DLY (pt : Nat) : Reg := ⟨223, pt, 0⟩
/-- R183, spec/07_grid_sync_current.md: register GRID_PT_LAT. -/
abbrev GRID_PT_LAT (pt : Nat) : Reg := ⟨224, pt, 0⟩
/-- R183, spec/07_grid_sync_current.md: register GRID_PT_FLL. -/
abbrev GRID_PT_FLL (pt : Nat) : Reg := ⟨225, pt, 0⟩
/-- R183, spec/07_grid_sync_current.md: register GRID_PT_STAT. -/
abbrev GRID_PT_STAT (pt : Nat) : Reg := ⟨226, pt, 0⟩
/-- R183, spec/07_grid_sync_current.md: register GRID_PT_FREQ. -/
abbrev GRID_PT_FREQ (pt : Nat) : Reg := ⟨227, pt, 0⟩
/-- R183, spec/07_grid_sync_current.md: register GRID_PT_ROCOF. -/
abbrev GRID_PT_ROCOF (pt : Nat) : Reg := ⟨228, pt, 0⟩
/-- R183, spec/07_grid_sync_current.md: register GRID_PT_VPOS. -/
abbrev GRID_PT_VPOS (pt : Nat) : Reg := ⟨229, pt, 0⟩
/-- R183, spec/07_grid_sync_current.md: register GRID_PT_VNEG. -/
abbrev GRID_PT_VNEG (pt : Nat) : Reg := ⟨230, pt, 0⟩
/-- R183, spec/07_grid_sync_current.md: register GRID_PT_CNT. -/
abbrev GRID_PT_CNT (pt : Nat) : Reg := ⟨231, pt, 0⟩
/-- R183, spec/07_grid_sync_current.md: register GRID_PT_BSI_ERR. -/
abbrev GRID_PT_BSI_ERR (pt : Nat) : Reg := ⟨232, pt, 0⟩
/-- R183, spec/07_grid_sync_current.md: register GRID_CLU_CFG. -/
abbrev GRID_CLU_CFG (c : Nat) : Reg := ⟨233, c, 0⟩
/-- R183, spec/07_grid_sync_current.md: register GRID_CLU_SIG. -/
abbrev GRID_CLU_SIG (c : Nat) : Reg := ⟨234, c, 0⟩
/-- R183, spec/07_grid_sync_current.md: register GRID_CLU_LEAD. -/
abbrev GRID_CLU_LEAD (c : Nat) : Reg := ⟨235, c, 0⟩
/-- R183, spec/07_grid_sync_current.md: register GRID_CLU_IBASE. -/
abbrev GRID_CLU_IBASE (c : Nat) : Reg := ⟨236, c, 0⟩
/-- R183, spec/07_grid_sync_current.md: register GRID_CLU_VDC. -/
abbrev GRID_CLU_VDC (c : Nat) : Reg := ⟨237, c, 0⟩
/-- R183, spec/07_grid_sync_current.md: register GRID_CLU_BAL. -/
abbrev GRID_CLU_BAL (c : Nat) : Reg := ⟨238, c, 0⟩
/-- R183, spec/07_grid_sync_current.md: register GRID_CLU_PH. -/
abbrev GRID_CLU_PH (c : Nat) : Reg := ⟨239, c, 0⟩
/-- R183, spec/07_grid_sync_current.md: register GRID_CLU_DC. -/
abbrev GRID_CLU_DC (c : Nat) : Reg := ⟨240, c, 0⟩
/-- R183, spec/07_grid_sync_current.md: register GRID_CLU_STAT. -/
abbrev GRID_CLU_STAT (c : Nat) : Reg := ⟨241, c, 0⟩
/-- R183, spec/07_grid_sync_current.md: register GRID_CLU_IREF. -/
abbrev GRID_CLU_IREF (c : Nat) : Reg := ⟨242, c, 0⟩
/-- R183, spec/07_grid_sync_current.md: register GRID_CLU_IREFN. -/
abbrev GRID_CLU_IREFN (c : Nat) : Reg := ⟨243, c, 0⟩
/-- R183, spec/07_grid_sync_current.md: register GRID_CLU_U0. -/
abbrev GRID_CLU_U0 (c : Nat) : Reg := ⟨244, c, 0⟩
/-- R203, spec/08_cell_mppt.md: register MPPT_CFG. -/
abbrev MPPT_CFG : Reg := ⟨245, 0, 0⟩
/-- R203, spec/08_cell_mppt.md: register MPPT_STEP. -/
abbrev MPPT_STEP : Reg := ⟨246, 0, 0⟩
/-- R203, spec/08_cell_mppt.md: register MPPT_SCAN. -/
abbrev MPPT_SCAN : Reg := ⟨247, 0, 0⟩
/-- R203, spec/08_cell_mppt.md: register MPPT_LIMITS. -/
abbrev MPPT_LIMITS : Reg := ⟨248, 0, 0⟩
/-- R203, spec/08_cell_mppt.md: register MPPT_CMD. -/
abbrev MPPT_CMD : Reg := ⟨249, 0, 0⟩
/-- R203, spec/08_cell_mppt.md: register MPPT_CNT. -/
abbrev MPPT_CNT : Reg := ⟨250, 0, 0⟩
/-- R203, spec/08_cell_mppt.md: register MPPT_TYPE_RATE. -/
abbrev MPPT_TYPE_RATE (n : Nat) : Reg := ⟨251, n, 0⟩
/-- R203, spec/08_cell_mppt.md: register MPPT_CLU_PLIM. -/
abbrev MPPT_CLU_PLIM (c : Nat) : Reg := ⟨252, c, 0⟩
/-- R203, spec/08_cell_mppt.md: register MPPT_CLU_PAVAIL. -/
abbrev MPPT_CLU_PAVAIL (c : Nat) : Reg := ⟨253, c, 0⟩
/-- R203, spec/08_cell_mppt.md: register MPPT_CLU_PTGT. -/
abbrev MPPT_CLU_PTGT (c : Nat) : Reg := ⟨254, c, 0⟩
/-- R203, spec/08_cell_mppt.md: register MPPT_CLU_STAT. -/
abbrev MPPT_CLU_STAT (c : Nat) : Reg := ⟨255, c, 0⟩
/-- R203, spec/08_cell_mppt.md: register MPPT_PH_CAP. -/
abbrev MPPT_PH_CAP (c ph : Nat) : Reg := ⟨256, c, ph⟩
/-- R203, spec/08_cell_mppt.md: register MPPT_PH_CEIL. -/
abbrev MPPT_PH_CEIL (c ph : Nat) : Reg := ⟨257, c, ph⟩
/-- R203, spec/08_cell_mppt.md: register MPPT_CELL_STAT. -/
abbrev MPPT_CELL_STAT (i : Nat) : Reg := ⟨258, i, 0⟩
/-- R203, spec/08_cell_mppt.md: register MPPT_CELL_REF. -/
abbrev MPPT_CELL_REF (i : Nat) : Reg := ⟨259, i, 0⟩
/-- R203, spec/08_cell_mppt.md: register MPPT_CELL_PWR. -/
abbrev MPPT_CELL_PWR (i : Nat) : Reg := ⟨260, i, 0⟩
/-- R203, spec/08_cell_mppt.md: register MPPT_CELL_SCAN. -/
abbrev MPPT_CELL_SCAN (i : Nat) : Reg := ⟨261, i, 0⟩
/-- R228, spec/09_ride_through_islanding.md: register FRT_CFG. -/
abbrev FRT_CFG : Reg := ⟨262, 0, 0⟩
/-- R228, spec/09_ride_through_islanding.md: register FRT_CLU_CFG. -/
abbrev FRT_CLU_CFG (c : Nat) : Reg := ⟨263, c, 0⟩
/-- R228, spec/09_ride_through_islanding.md: register FRT_CLU_CURVE. -/
abbrev FRT_CLU_CURVE (c : Nat) : Reg := ⟨264, c, 0⟩
/-- R228, spec/09_ride_through_islanding.md: register FRT_CLU_CMD. -/
abbrev FRT_CLU_CMD (c : Nat) : Reg := ⟨265, c, 0⟩
/-- R228, spec/09_ride_through_islanding.md: register FRT_CLU_STAT. -/
abbrev FRT_CLU_STAT (c : Nat) : Reg := ⟨266, c, 0⟩
/-- R228, spec/09_ride_through_islanding.md: register FRT_CLU_U. -/
abbrev FRT_CLU_U (c : Nat) : Reg := ⟨267, c, 0⟩
/-- R228, spec/09_ride_through_islanding.md: register FRT_CLU_TF_LO. -/
abbrev FRT_CLU_TF_LO (c : Nat) : Reg := ⟨268, c, 0⟩
/-- R228, spec/09_ride_through_islanding.md: register FRT_CLU_TF_HI. -/
abbrev FRT_CLU_TF_HI (c : Nat) : Reg := ⟨269, c, 0⟩
/-- R228, spec/09_ride_through_islanding.md: register FRT_CLU_PRT. -/
abbrev FRT_CLU_PRT (c : Nat) : Reg := ⟨270, c, 0⟩
/-- R228, spec/09_ride_through_islanding.md: register FRT_CLU_IRT. -/
abbrev FRT_CLU_IRT (c : Nat) : Reg := ⟨271, c, 0⟩
/-- R228, spec/09_ride_through_islanding.md: register FRT_CLU_TIME. -/
abbrev FRT_CLU_TIME (c : Nat) : Reg := ⟨272, c, 0⟩
/-- R228, spec/09_ride_through_islanding.md: register FRT_CLU_CNT. -/
abbrev FRT_CLU_CNT (c : Nat) : Reg := ⟨273, c, 0⟩
/-- R228, spec/09_ride_through_islanding.md: register FRT_CLU_QDISP. -/
abbrev FRT_CLU_QDISP (c : Nat) : Reg := ⟨274, c, 0⟩
/-- R228, spec/09_ride_through_islanding.md: register ISL_CFG. -/
abbrev ISL_CFG : Reg := ⟨275, 0, 0⟩
/-- R228, spec/09_ride_through_islanding.md: register ISL_PASSIVE. -/
abbrev ISL_PASSIVE : Reg := ⟨276, 0, 0⟩
/-- R228, spec/09_ride_through_islanding.md: register ISL_ACT_CFG. -/
abbrev ISL_ACT_CFG : Reg := ⟨277, 0, 0⟩
/-- R228, spec/09_ride_through_islanding.md: register ISL_SEED. -/
abbrev ISL_SEED : Reg := ⟨278, 0, 0⟩
/-- R228, spec/09_ride_through_islanding.md: register ISL_STAT. -/
abbrev ISL_STAT : Reg := ⟨279, 0, 0⟩
/-- R228, spec/09_ride_through_islanding.md: register ISL_ZNEG. -/
abbrev ISL_ZNEG : Reg := ⟨280, 0, 0⟩
/-- R228, spec/09_ride_through_islanding.md: register ISL_DTT_TIME_LO. -/
abbrev ISL_DTT_TIME_LO : Reg := ⟨281, 0, 0⟩
/-- R228, spec/09_ride_through_islanding.md: register ISL_DTT_TIME_HI. -/
abbrev ISL_DTT_TIME_HI : Reg := ⟨282, 0, 0⟩
/-- R228, spec/09_ride_through_islanding.md: register TBL_CURVE_HDR. -/
abbrev TBL_CURVE_HDR (n : Nat) : Reg := ⟨283, n, 0⟩
/-- R228, spec/09_ride_through_islanding.md: register TBL_PT. -/
abbrev TBL_PT (n j : Nat) : Reg := ⟨284, n, j⟩
/-- R228, spec/09_ride_through_islanding.md: register TBL_SM_COND. -/
abbrev TBL_SM_COND (t e : Nat) : Reg := ⟨285, t, e⟩
/-- R228, spec/09_ride_through_islanding.md: register TBL_SM_ACT. -/
abbrev TBL_SM_ACT (t e : Nat) : Reg := ⟨286, t, e⟩
/-- R255, spec/10_process_bus.md: register PB_CFG. -/
abbrev PB_CFG : Reg := ⟨287, 0, 0⟩
/-- R255, spec/10_process_bus.md: register PB_PORT_STAT. -/
abbrev PB_PORT_STAT (n : Nat) : Reg := ⟨288, n, 0⟩
/-- R255, spec/10_process_bus.md: register PB_RED_STAT. -/
abbrev PB_RED_STAT (p : Nat) : Reg := ⟨289, p, 0⟩
/-- R255, spec/10_process_bus.md: register PB_CNT_DUP. -/
abbrev PB_CNT_DUP (p : Nat) : Reg := ⟨290, p, 0⟩
/-- R255, spec/10_process_bus.md: register PB_CNT_UNMATCHED. -/
abbrev PB_CNT_UNMATCHED (p : Nat) : Reg := ⟨291, p, 0⟩
/-- R255, spec/10_process_bus.md: register PB_CNT_OVERLOAD. -/
abbrev PB_CNT_OVERLOAD (p : Nat) : Reg := ⟨292, p, 0⟩
/-- R255, spec/10_process_bus.md: register PB_MAC_LO. -/
abbrev PB_MAC_LO (p : Nat) : Reg := ⟨293, p, 0⟩
/-- R255, spec/10_process_bus.md: register PB_MAC_HI. -/
abbrev PB_MAC_HI (p : Nat) : Reg := ⟨294, p, 0⟩
/-- R255, spec/10_process_bus.md: register SV_SUB_DST_LO. -/
abbrev SV_SUB_DST_LO (s : Nat) : Reg := ⟨295, s, 0⟩
/-- R255, spec/10_process_bus.md: register SV_SUB_DST_HI. -/
abbrev SV_SUB_DST_HI (s : Nat) : Reg := ⟨296, s, 0⟩
/-- R255, spec/10_process_bus.md: register SV_SUB_SRC_LO. -/
abbrev SV_SUB_SRC_LO (s : Nat) : Reg := ⟨297, s, 0⟩
/-- R255, spec/10_process_bus.md: register SV_SUB_SRC_HI. -/
abbrev SV_SUB_SRC_HI (s : Nat) : Reg := ⟨298, s, 0⟩
/-- R255, spec/10_process_bus.md: register SV_SUB_ID. -/
abbrev SV_SUB_ID (s : Nat) : Reg := ⟨299, s, 0⟩
/-- R255, spec/10_process_bus.md: register SV_SUB_CFG. -/
abbrev SV_SUB_CFG (s : Nat) : Reg := ⟨300, s, 0⟩
/-- R255, spec/10_process_bus.md: register SV_SUB_CONFREV. -/
abbrev SV_SUB_CONFREV (s : Nat) : Reg := ⟨301, s, 0⟩
/-- R255, spec/10_process_bus.md: register SV_SUB_STAT. -/
abbrev SV_SUB_STAT (s : Nat) : Reg := ⟨302, s, 0⟩
/-- R255, spec/10_process_bus.md: register SV_SUB_CNT_GOOD. -/
abbrev SV_SUB_CNT_GOOD (s : Nat) : Reg := ⟨303, s, 0⟩
/-- R255, spec/10_process_bus.md: register SV_SUB_CNT_BAD. -/
abbrev SV_SUB_CNT_BAD (s : Nat) : Reg := ⟨304, s, 0⟩
/-- R255, spec/10_process_bus.md: register SV_SUB_CNT_CONFLICT. -/
abbrev SV_SUB_CNT_CONFLICT (s : Nat) : Reg := ⟨305, s, 0⟩
/-- R255, spec/10_process_bus.md: register SV_SUB_LAT. -/
abbrev SV_SUB_LAT (s : Nat) : Reg := ⟨306, s, 0⟩
/-- R255, spec/10_process_bus.md: register SV_PUB_DST_LO. -/
abbrev SV_PUB_DST_LO (q : Nat) : Reg := ⟨307, q, 0⟩
/-- R255, spec/10_process_bus.md: register SV_PUB_DST_HI. -/
abbrev SV_PUB_DST_HI (q : Nat) : Reg := ⟨308, q, 0⟩
/-- R255, spec/10_process_bus.md: register SV_PUB_CFG. -/
abbrev SV_PUB_CFG (q : Nat) : Reg := ⟨309, q, 0⟩
/-- R255, spec/10_process_bus.md: register SV_PUB_CONFREV. -/
abbrev SV_PUB_CONFREV (q : Nat) : Reg := ⟨310, q, 0⟩
/-- R255, spec/10_process_bus.md: register SV_PUB_STAT. -/
abbrev SV_PUB_STAT (q : Nat) : Reg := ⟨311, q, 0⟩
/-- R255, spec/10_process_bus.md: register SV_PUB_CH. -/
abbrev SV_PUB_CH (q ch : Nat) : Reg := ⟨312, q, ch⟩
/-- R255, spec/10_process_bus.md: register SV_PUB_QSIG. -/
abbrev SV_PUB_QSIG (q ch : Nat) : Reg := ⟨313, q, ch⟩
/-- R255, spec/10_process_bus.md: register GOOSE_SUB_DST_LO. -/
abbrev GOOSE_SUB_DST_LO (g : Nat) : Reg := ⟨314, g, 0⟩
/-- R255, spec/10_process_bus.md: register GOOSE_SUB_DST_HI. -/
abbrev GOOSE_SUB_DST_HI (g : Nat) : Reg := ⟨315, g, 0⟩
/-- R255, spec/10_process_bus.md: register GOOSE_SUB_SRC_LO. -/
abbrev GOOSE_SUB_SRC_LO (g : Nat) : Reg := ⟨316, g, 0⟩
/-- R255, spec/10_process_bus.md: register GOOSE_SUB_SRC_HI. -/
abbrev GOOSE_SUB_SRC_HI (g : Nat) : Reg := ⟨317, g, 0⟩
/-- R255, spec/10_process_bus.md: register GOOSE_SUB_ID. -/
abbrev GOOSE_SUB_ID (g : Nat) : Reg := ⟨318, g, 0⟩
/-- R255, spec/10_process_bus.md: register GOOSE_SUB_CFG. -/
abbrev GOOSE_SUB_CFG (g : Nat) : Reg := ⟨319, g, 0⟩
/-- R255, spec/10_process_bus.md: register GOOSE_SUB_CONFREV. -/
abbrev GOOSE_SUB_CONFREV (g : Nat) : Reg := ⟨320, g, 0⟩
/-- R255, spec/10_process_bus.md: register GOOSE_SUB_STAT. -/
abbrev GOOSE_SUB_STAT (g : Nat) : Reg := ⟨321, g, 0⟩
/-- R255, spec/10_process_bus.md: register GOOSE_SUB_STNUM. -/
abbrev GOOSE_SUB_STNUM (g : Nat) : Reg := ⟨322, g, 0⟩
/-- R255, spec/10_process_bus.md: register GOOSE_SUB_SQNUM. -/
abbrev GOOSE_SUB_SQNUM (g : Nat) : Reg := ⟨323, g, 0⟩
/-- R255, spec/10_process_bus.md: register GOOSE_SUB_ARR_LO. -/
abbrev GOOSE_SUB_ARR_LO (g : Nat) : Reg := ⟨324, g, 0⟩
/-- R255, spec/10_process_bus.md: register GOOSE_SUB_ARR_HI. -/
abbrev GOOSE_SUB_ARR_HI (g : Nat) : Reg := ⟨325, g, 0⟩
/-- R255, spec/10_process_bus.md: register GOOSE_VAL_MAP. -/
abbrev GOOSE_VAL_MAP (v : Nat) : Reg := ⟨326, v, 0⟩
/-- R255, spec/10_process_bus.md: register GOOSE_VAL_DATA. -/
abbrev GOOSE_VAL_DATA (v : Nat) : Reg := ⟨327, v, 0⟩
/-- R255, spec/10_process_bus.md: register GOOSE_PUB_MEM. -/
abbrev GOOSE_PUB_MEM (q m : Nat) : Reg := ⟨328, q, m⟩
/-- R255, spec/10_process_bus.md: register PTP_PORT_STAT. -/
abbrev PTP_PORT_STAT : Reg := ⟨329, 0, 0⟩
/-- R255, spec/10_process_bus.md: register PTP_GM_ID_LO. -/
abbrev PTP_GM_ID_LO : Reg := ⟨330, 0, 0⟩
/-- R255, spec/10_process_bus.md: register PTP_GM_ID_HI. -/
abbrev PTP_GM_ID_HI : Reg := ⟨331, 0, 0⟩
/-- R255, spec/10_process_bus.md: register PTP_PDELAY_A. -/
abbrev PTP_PDELAY_A : Reg := ⟨332, 0, 0⟩
/-- R255, spec/10_process_bus.md: register PTP_PDELAY_B. -/
abbrev PTP_PDELAY_B : Reg := ⟨333, 0, 0⟩
/-- R255, spec/10_process_bus.md: register GOOSE_PUB_DST_LO. -/
abbrev GOOSE_PUB_DST_LO (q : Nat) : Reg := ⟨334, q, 0⟩
/-- R255, spec/10_process_bus.md: register GOOSE_PUB_DST_HI. -/
abbrev GOOSE_PUB_DST_HI (q : Nat) : Reg := ⟨335, q, 0⟩
/-- R255, spec/10_process_bus.md: register GOOSE_PUB_CFG. -/
abbrev GOOSE_PUB_CFG (q : Nat) : Reg := ⟨336, q, 0⟩
/-- R255, spec/10_process_bus.md: register GOOSE_PUB_STNUM. -/
abbrev GOOSE_PUB_STNUM (q : Nat) : Reg := ⟨337, q, 0⟩
/-- R255, spec/10_process_bus.md: register GOOSE_PUB_SQNUM. -/
abbrev GOOSE_PUB_SQNUM (q : Nat) : Reg := ⟨338, q, 0⟩
/-- R273, spec/11_metering.md: register MTR_CFG. -/
abbrev MTR_CFG : Reg := ⟨339, 0, 0⟩
/-- R273, spec/11_metering.md: register MTR_STATUS. -/
abbrev MTR_STATUS : Reg := ⟨340, 0, 0⟩
/-- R273, spec/11_metering.md: register MTR_INT_SEQ_LO. -/
abbrev MTR_INT_SEQ_LO : Reg := ⟨341, 0, 0⟩
/-- R273, spec/11_metering.md: register MTR_INT_SEQ_HI. -/
abbrev MTR_INT_SEQ_HI : Reg := ⟨342, 0, 0⟩
/-- R273, spec/11_metering.md: register MTR_PT_CFG. -/
abbrev MTR_PT_CFG (m : Nat) : Reg := ⟨343, m, 0⟩
/-- R273, spec/11_metering.md: register MTR_PT_VCH. -/
abbrev MTR_PT_VCH (m : Nat) : Reg := ⟨344, m, 0⟩
/-- R273, spec/11_metering.md: register MTR_PT_ICH. -/
abbrev MTR_PT_ICH (m : Nat) : Reg := ⟨345, m, 0⟩
/-- R273, spec/11_metering.md: register MTR_PT_NOM. -/
abbrev MTR_PT_NOM (m : Nat) : Reg := ⟨346, m, 0⟩
/-- R273, spec/11_metering.md: register MTR_PT_NTH. -/
abbrev MTR_PT_NTH (m : Nat) : Reg := ⟨347, m, 0⟩
/-- R273, spec/11_metering.md: register MTR_PT_CMD. -/
abbrev MTR_PT_CMD (m : Nat) : Reg := ⟨348, m, 0⟩
/-- R273, spec/11_metering.md: register MTR_PT_STAT. -/
abbrev MTR_PT_STAT (m : Nat) : Reg := ⟨349, m, 0⟩
/-- R273, spec/11_metering.md: register MTR_PT_P. -/
abbrev MTR_PT_P (m ph : Nat) : Reg := ⟨350, m, ph⟩
/-- R273, spec/11_metering.md: register MTR_PT_Q. -/
abbrev MTR_PT_Q (m ph : Nat) : Reg := ⟨351, m, ph⟩
/-- R273, spec/11_metering.md: register MTR_PT_S. -/
abbrev MTR_PT_S (m ph : Nat) : Reg := ⟨352, m, ph⟩
/-- R273, spec/11_metering.md: register MTR_PT_VRMS. -/
abbrev MTR_PT_VRMS (m ph : Nat) : Reg := ⟨353, m, ph⟩
/-- R273, spec/11_metering.md: register MTR_PT_IRMS. -/
abbrev MTR_PT_IRMS (m ph : Nat) : Reg := ⟨354, m, ph⟩
/-- R273, spec/11_metering.md: register MTR_PT_SEQ. -/
abbrev MTR_PT_SEQ (m : Nat) : Reg := ⟨355, m, 0⟩
/-- R273, spec/11_metering.md: register MTR_PT_THD. -/
abbrev MTR_PT_THD (m ph : Nat) : Reg := ⟨356, m, ph⟩
/-- R273, spec/11_metering.md: register MTR_PT_E_LO. -/
abbrev MTR_PT_E_LO (m r : Nat) : Reg := ⟨357, m, r⟩
/-- R273, spec/11_metering.md: register MTR_PT_E_HI. -/
abbrev MTR_PT_E_HI (m r : Nat) : Reg := ⟨358, m, r⟩
/-- R273, spec/11_metering.md: register MTR_PT_ILAST. -/
abbrev MTR_PT_ILAST (m : Nat) : Reg := ⟨359, m, 0⟩
/-- R273, spec/11_metering.md: register MTR_PT_INOW. -/
abbrev MTR_PT_INOW (m : Nat) : Reg := ⟨360, m, 0⟩
/-- R273, spec/11_metering.md: register MTR_HARM. -/
abbrev MTR_HARM (m k : Nat) : Reg := ⟨361, m, k⟩
/-- R413, spec/17_local_analog_legs.md: register IADC_CFG. -/
abbrev IADC_CFG : Reg := ⟨362, 0, 0⟩
/-- R413, spec/17_local_analog_legs.md: register IADC_STATUS. -/
abbrev IADC_STATUS : Reg := ⟨363, 0, 0⟩
/-- R413, spec/17_local_analog_legs.md: register IADC_SEQ_n. -/
abbrev IADC_SEQ (n : Nat) : Reg := ⟨364, n, 0⟩
/-- R413, spec/17_local_analog_legs.md: register IADC_Q_LO. -/
abbrev IADC_Q_LO : Reg := ⟨365, 0, 0⟩
/-- R413, spec/17_local_analog_legs.md: register IADC_Q_HI. -/
abbrev IADC_Q_HI : Reg := ⟨366, 0, 0⟩
/-- R413, spec/17_local_analog_legs.md: register IADC_PEEK_LO. -/
abbrev IADC_PEEK_LO : Reg := ⟨367, 0, 0⟩
/-- R413, spec/17_local_analog_legs.md: register IADC_PEEK_HI. -/
abbrev IADC_PEEK_HI : Reg := ⟨368, 0, 0⟩
/-- R413, spec/17_local_analog_legs.md: register IADC_LAST_n. -/
abbrev IADC_LAST (n : Nat) : Reg := ⟨369, n, 0⟩
/-- R413, spec/17_local_analog_legs.md: register CMP_CFG. -/
abbrev CMP_CFG (c : Nat) : Reg := ⟨370, c, 0⟩
/-- R413, spec/17_local_analog_legs.md: register CMP_THR. -/
abbrev CMP_THR (c : Nat) : Reg := ⟨371, c, 0⟩
/-- R413, spec/17_local_analog_legs.md: register CMP_ROUTE. -/
abbrev CMP_ROUTE (c : Nat) : Reg := ⟨372, c, 0⟩
/-- R413, spec/17_local_analog_legs.md: register CMP_STAT. -/
abbrev CMP_STAT (c : Nat) : Reg := ⟨373, c, 0⟩
/-- R413, spec/17_local_analog_legs.md: register BSI_CFG. -/
abbrev BSI_CFG (b : Nat) : Reg := ⟨374, b, 0⟩
/-- R413, spec/17_local_analog_legs.md: register BSI_SCALE. -/
abbrev BSI_SCALE (b : Nat) : Reg := ⟨375, b, 0⟩
/-- R413, spec/17_local_analog_legs.md: register BSI_STAT. -/
abbrev BSI_STAT (b : Nat) : Reg := ⟨376, b, 0⟩
/-- R413, spec/17_local_analog_legs.md: register BSI_VALUE. -/
abbrev BSI_VALUE (b : Nat) : Reg := ⟨377, b, 0⟩
/-- R413, spec/17_local_analog_legs.md: register LEG_CTRL. -/
abbrev LEG_CTRL (l : Nat) : Reg := ⟨378, l, 0⟩
/-- R413, spec/17_local_analog_legs.md: register LEG_STATUS. -/
abbrev LEG_STATUS (l : Nat) : Reg := ⟨379, l, 0⟩
/-- R413, spec/17_local_analog_legs.md: register LEG_DIAG. -/
abbrev LEG_DIAG (l : Nat) : Reg := ⟨380, l, 0⟩
/-- R345, spec/14_carafe_record_store.md: register REC_CFG. -/
abbrev REC_CFG : Reg := ⟨381, 0, 0⟩
/-- R345, spec/14_carafe_record_store.md: register REC_STATUS. -/
abbrev REC_STATUS : Reg := ⟨382, 0, 0⟩
/-- R345, spec/14_carafe_record_store.md: register REC_CMD. -/
abbrev REC_CMD : Reg := ⟨383, 0, 0⟩
/-- R345, spec/14_carafe_record_store.md: register REC_HEALTH. -/
abbrev REC_HEALTH : Reg := ⟨384, 0, 0⟩
/-- R345, spec/14_carafe_record_store.md: register REC_STAGE_WM. -/
abbrev REC_STAGE_WM : Reg := ⟨385, 0, 0⟩
/-- R345, spec/14_carafe_record_store.md: register REC_EXPORT. -/
abbrev REC_EXPORT : Reg := ⟨386, 0, 0⟩
/-- R345, spec/14_carafe_record_store.md: register REC_DRV_CFG. -/
abbrev REC_DRV_CFG (d : Nat) : Reg := ⟨387, d, 0⟩
/-- R345, spec/14_carafe_record_store.md: register REC_DRV_STAT. -/
abbrev REC_DRV_STAT (d : Nat) : Reg := ⟨388, d, 0⟩
/-- R345, spec/14_carafe_record_store.md: register REC_DRV_FLIGHT. -/
abbrev REC_DRV_FLIGHT (d : Nat) : Reg := ⟨389, d, 0⟩
/-- R345, spec/14_carafe_record_store.md: register REC_DRV_ERR. -/
abbrev REC_DRV_ERR (d : Nat) : Reg := ⟨390, d, 0⟩
/-- R345, spec/14_carafe_record_store.md: register REC_DRV_SMART. -/
abbrev REC_DRV_SMART (d : Nat) : Reg := ⟨391, d, 0⟩
/-- R345, spec/14_carafe_record_store.md: register REC_DRV_NSEG. -/
abbrev REC_DRV_NSEG (d : Nat) : Reg := ⟨392, d, 0⟩
/-- R345, spec/14_carafe_record_store.md: register REC_PAIR_STAT. -/
abbrev REC_PAIR_STAT (p : Nat) : Reg := ⟨393, p, 0⟩
/-- R345, spec/14_carafe_record_store.md: register REC_PAIR_HEAD_LO. -/
abbrev REC_PAIR_HEAD_LO (p : Nat) : Reg := ⟨394, p, 0⟩
/-- R345, spec/14_carafe_record_store.md: register REC_PAIR_HEAD_HI. -/
abbrev REC_PAIR_HEAD_HI (p : Nat) : Reg := ⟨395, p, 0⟩
/-- R345, spec/14_carafe_record_store.md: register REC_PAIR_OLDEST_LO. -/
abbrev REC_PAIR_OLDEST_LO (p : Nat) : Reg := ⟨396, p, 0⟩
/-- R345, spec/14_carafe_record_store.md: register REC_PAIR_OLDEST_HI. -/
abbrev REC_PAIR_OLDEST_HI (p : Nat) : Reg := ⟨397, p, 0⟩
/-- R345, spec/14_carafe_record_store.md: register REC_CAP_CFG. -/
abbrev REC_CAP_CFG : Reg := ⟨398, 0, 0⟩
/-- R345, spec/14_carafe_record_store.md: register REC_CAP_GOOSE. -/
abbrev REC_CAP_GOOSE : Reg := ⟨399, 0, 0⟩
/-- R345, spec/14_carafe_record_store.md: register REC_CAP_SIG. -/
abbrev REC_CAP_SIG : Reg := ⟨400, 0, 0⟩
/-- R345, spec/14_carafe_record_store.md: register REC_CAP_CMD. -/
abbrev REC_CAP_CMD : Reg := ⟨401, 0, 0⟩
/-- R345, spec/14_carafe_record_store.md: register REC_CAP_STAT. -/
abbrev REC_CAP_STAT : Reg := ⟨402, 0, 0⟩
/-- R345, spec/14_carafe_record_store.md: register REC_CAP_LAST. -/
abbrev REC_CAP_LAST : Reg := ⟨403, 0, 0⟩
/-- R345, spec/14_carafe_record_store.md: register REC_STRM_CFG. -/
abbrev REC_STRM_CFG (s : Nat) : Reg := ⟨404, s, 0⟩
/-- R345, spec/14_carafe_record_store.md: register REC_STRM_DEC. -/
abbrev REC_STRM_DEC (s : Nat) : Reg := ⟨405, s, 0⟩
/-- R345, spec/14_carafe_record_store.md: register REC_STRM_SEQ_LO. -/
abbrev REC_STRM_SEQ_LO (s : Nat) : Reg := ⟨406, s, 0⟩
/-- R345, spec/14_carafe_record_store.md: register REC_STRM_SEQ_HI. -/
abbrev REC_STRM_SEQ_HI (s : Nat) : Reg := ⟨407, s, 0⟩
/-- R345, spec/14_carafe_record_store.md: register REC_STRM_FRONT_LO. -/
abbrev REC_STRM_FRONT_LO (s : Nat) : Reg := ⟨408, s, 0⟩
/-- R345, spec/14_carafe_record_store.md: register REC_STRM_FRONT_HI. -/
abbrev REC_STRM_FRONT_HI (s : Nat) : Reg := ⟨409, s, 0⟩
/-- R345, spec/14_carafe_record_store.md: register REC_STRM_DROP. -/
abbrev REC_STRM_DROP (s : Nat) : Reg := ⟨410, s, 0⟩
/-- R363, spec/15_wear_life.md: register WEAR_CFG. -/
abbrev WEAR_CFG : Reg := ⟨411, 0, 0⟩
/-- R363, spec/15_wear_life.md: register WEAR_EWMA. -/
abbrev WEAR_EWMA : Reg := ⟨412, 0, 0⟩
/-- R363, spec/15_wear_life.md: register WEAR_BIN. -/
abbrev WEAR_BIN : Reg := ⟨413, 0, 0⟩
/-- R363, spec/15_wear_life.md: register WEAR_POLICY. -/
abbrev WEAR_POLICY : Reg := ⟨414, 0, 0⟩
/-- R363, spec/15_wear_life.md: register WEAR_STATUS. -/
abbrev WEAR_STATUS : Reg := ⟨415, 0, 0⟩
/-- R363, spec/15_wear_life.md: register WEAR_LAST_EVAL_LO. -/
abbrev WEAR_LAST_EVAL_LO : Reg := ⟨416, 0, 0⟩
/-- R363, spec/15_wear_life.md: register WEAR_LAST_EVAL_HI. -/
abbrev WEAR_LAST_EVAL_HI : Reg := ⟨417, 0, 0⟩
/-- R363, spec/15_wear_life.md: register WEAR_MOD_LIFE. -/
abbrev WEAR_MOD_LIFE : Reg := ⟨418, 0, 0⟩
/-- R363, spec/15_wear_life.md: register WEAR_MOD_PART. -/
abbrev WEAR_MOD_PART : Reg := ⟨419, 0, 0⟩
/-- R363, spec/15_wear_life.md: register WEAR_RF_SEL. -/
abbrev WEAR_RF_SEL : Reg := ⟨420, 0, 0⟩
/-- R363, spec/15_wear_life.md: register WEAR_PART_LIFE. -/
abbrev WEAR_PART_LIFE (p : Nat) : Reg := ⟨421, p, 0⟩
/-- R363, spec/15_wear_life.md: register WEAR_PART_VAL. -/
abbrev WEAR_PART_VAL (p : Nat) : Reg := ⟨422, p, 0⟩
/-- R363, spec/15_wear_life.md: register WEAR_TYPE_R01. -/
abbrev WEAR_TYPE_R01 (n : Nat) : Reg := ⟨423, n, 0⟩
/-- R363, spec/15_wear_life.md: register WEAR_TYPE_R23. -/
abbrev WEAR_TYPE_R23 (n : Nat) : Reg := ⟨424, n, 0⟩
/-- R363, spec/15_wear_life.md: register WEAR_TYPE_TAU01. -/
abbrev WEAR_TYPE_TAU01 (n : Nat) : Reg := ⟨425, n, 0⟩
/-- R363, spec/15_wear_life.md: register WEAR_TYPE_TAU23. -/
abbrev WEAR_TYPE_TAU23 (n : Nat) : Reg := ⟨426, n, 0⟩
/-- R363, spec/15_wear_life.md: register WEAR_TYPE_ESW. -/
abbrev WEAR_TYPE_ESW (n : Nat) : Reg := ⟨427, n, 0⟩
/-- R363, spec/15_wear_life.md: register WEAR_TYPE_VREF. -/
abbrev WEAR_TYPE_VREF (n : Nat) : Reg := ⟨428, n, 0⟩
/-- R363, spec/15_wear_life.md: register WEAR_NF. -/
abbrev WEAR_NF (n k : Nat) : Reg := ⟨429, n, k⟩
/-- R363, spec/15_wear_life.md: register WEAR_RF. -/
abbrev WEAR_RF (i j : Nat) : Reg := ⟨430, i, j⟩
/-- R363, spec/15_wear_life.md: register WEAR_CELL_STAT. -/
abbrev WEAR_CELL_STAT (i : Nat) : Reg := ⟨431, i, 0⟩
/-- R363, spec/15_wear_life.md: register WEAR_CELL_CTRL. -/
abbrev WEAR_CELL_CTRL (i : Nat) : Reg := ⟨432, i, 0⟩
/-- R363, spec/15_wear_life.md: register WEAR_CELL_TJ. -/
abbrev WEAR_CELL_TJ (i : Nat) : Reg := ⟨433, i, 0⟩
/-- R363, spec/15_wear_life.md: register WEAR_CELL_D0_LO. -/
abbrev WEAR_CELL_D0_LO (i : Nat) : Reg := ⟨434, i, 0⟩
/-- R363, spec/15_wear_life.md: register WEAR_CELL_D0_HI. -/
abbrev WEAR_CELL_D0_HI (i : Nat) : Reg := ⟨435, i, 0⟩
/-- R363, spec/15_wear_life.md: register WEAR_CELL_D1_LO. -/
abbrev WEAR_CELL_D1_LO (i : Nat) : Reg := ⟨436, i, 0⟩
/-- R363, spec/15_wear_life.md: register WEAR_CELL_D1_HI. -/
abbrev WEAR_CELL_D1_HI (i : Nat) : Reg := ⟨437, i, 0⟩
/-- R363, spec/15_wear_life.md: register WEAR_CELL_RS. -/
abbrev WEAR_CELL_RS (i : Nat) : Reg := ⟨438, i, 0⟩
/-- R363, spec/15_wear_life.md: register WEAR_CELL_RF. -/
abbrev WEAR_CELL_RF (i : Nat) : Reg := ⟨439, i, 0⟩
/-- R363, spec/15_wear_life.md: register WEAR_CELL_LIFE. -/
abbrev WEAR_CELL_LIFE (i : Nat) : Reg := ⟨440, i, 0⟩
/-- R363, spec/15_wear_life.md: register WEAR_CELL_ESR. -/
abbrev WEAR_CELL_ESR (i : Nat) : Reg := ⟨441, i, 0⟩
/-- R363, spec/15_wear_life.md: register WEAR_CELL_CAP. -/
abbrev WEAR_CELL_CAP (i : Nat) : Reg := ⟨442, i, 0⟩
/-- R363, spec/15_wear_life.md: register WEAR_CELL_HOURS. -/
abbrev WEAR_CELL_HOURS (i : Nat) : Reg := ⟨443, i, 0⟩
/-- R389, spec/16_safety.md: register SAFE_STATE. -/
abbrev SAFE_STATE : Reg := ⟨444, 0, 0⟩
/-- R389, spec/16_safety.md: register SAFE_CAUSE. -/
abbrev SAFE_CAUSE : Reg := ⟨445, 0, 0⟩
/-- R389, spec/16_safety.md: register SAFE_INPUTS. -/
abbrev SAFE_INPUTS : Reg := ⟨446, 0, 0⟩
/-- R389, spec/16_safety.md: register SAFE_PARAM_ID. -/
abbrev SAFE_PARAM_ID : Reg := ⟨447, 0, 0⟩
/-- R389, spec/16_safety.md: register SAFE_PARAM_SIG. -/
abbrev SAFE_PARAM_SIG : Reg := ⟨448, 0, 0⟩
/-- R389, spec/16_safety.md: register SAFE_TSEQ. -/
abbrev SAFE_TSEQ : Reg := ⟨449, 0, 0⟩
/-- R389, spec/16_safety.md: register SAFE_CNT. -/
abbrev SAFE_CNT : Reg := ⟨450, 0, 0⟩
/-- R389, spec/16_safety.md: register SAFE_DEMAND_T_LO. -/
abbrev SAFE_DEMAND_T_LO : Reg := ⟨451, 0, 0⟩
/-- R389, spec/16_safety.md: register SAFE_DEMAND_T_HI. -/
abbrev SAFE_DEMAND_T_HI : Reg := ⟨452, 0, 0⟩
/-- R389, spec/16_safety.md: register SAFE_CONS_STAT. -/
abbrev SAFE_CONS_STAT (c : Nat) : Reg := ⟨453, c, 0⟩
/-- R389, spec/16_safety.md: register SAFE_PROD_STAT. -/
abbrev SAFE_PROD_STAT (q : Nat) : Reg := ⟨454, q, 0⟩
/-- R389, spec/16_safety.md: register SAFE_ENABLE. -/
abbrev SAFE_ENABLE (r w : Nat) : Reg := ⟨455, r, w⟩
/-- R461, spec/19_startup_access.md: register CFG_STATUS. -/
abbrev CFG_STATUS : Reg := ⟨456, 0, 0⟩
/-- R461, spec/19_startup_access.md: register CFG_IMG_VER. -/
abbrev CFG_IMG_VER : Reg := ⟨457, 0, 0⟩
/-- R461, spec/19_startup_access.md: register CFG_IF_VER. -/
abbrev CFG_IF_VER : Reg := ⟨458, 0, 0⟩
/-- R461, spec/19_startup_access.md: register CFG_HW_REV. -/
abbrev CFG_HW_REV : Reg := ⟨459, 0, 0⟩
/-- R461, spec/19_startup_access.md: register CFG_CMD. -/
abbrev CFG_CMD : Reg := ⟨460, 0, 0⟩
/-- R461, spec/19_startup_access.md: register CFG_VERIFY. -/
abbrev CFG_VERIFY : Reg := ⟨461, 0, 0⟩
/-- R461, spec/19_startup_access.md: register CFG_SLOT_VER_A. -/
abbrev CFG_SLOT_VER_A : Reg := ⟨462, 0, 0⟩
/-- R461, spec/19_startup_access.md: register CFG_SLOT_VER_B. -/
abbrev CFG_SLOT_VER_B : Reg := ⟨463, 0, 0⟩
/-- R461, spec/19_startup_access.md: register CFG_BOOT. -/
abbrev CFG_BOOT : Reg := ⟨464, 0, 0⟩
/-- R461, spec/19_startup_access.md: register CFG_BOOT_MS. -/
abbrev CFG_BOOT_MS : Reg := ⟨465, 0, 0⟩
/-- R461, spec/19_startup_access.md: register XSPI_CFG. -/
abbrev XSPI_CFG : Reg := ⟨466, 0, 0⟩
/-- R461, spec/19_startup_access.md: register XSPI_STATUS. -/
abbrev XSPI_STATUS : Reg := ⟨467, 0, 0⟩
/-- R461, spec/19_startup_access.md: register XSPI_CMD_FMT. -/
abbrev XSPI_CMD_FMT : Reg := ⟨468, 0, 0⟩
/-- R461, spec/19_startup_access.md: register XSPI_CMD_OP. -/
abbrev XSPI_CMD_OP : Reg := ⟨469, 0, 0⟩
/-- R461, spec/19_startup_access.md: register XSPI_CMD_ADDR. -/
abbrev XSPI_CMD_ADDR : Reg := ⟨470, 0, 0⟩
/-- R461, spec/19_startup_access.md: register XSPI_CMD_LEN. -/
abbrev XSPI_CMD_LEN : Reg := ⟨471, 0, 0⟩
/-- R461, spec/19_startup_access.md: register XSPI_CMD_GO. -/
abbrev XSPI_CMD_GO : Reg := ⟨472, 0, 0⟩
/-- R461, spec/19_startup_access.md: register XSPI_DATAw. -/
abbrev XSPI_DATA (w : Nat) : Reg := ⟨473, w, 0⟩

end Sys2Proof.Machine.R

namespace Sys2Proof.Machine.F

abbrev DEV_ID_ID : Fld := ⟨R.DEV_ID, 0, 32⟩
abbrev DEV_REV_ROM : Fld := ⟨R.DEV_REV, 0, 8⟩
abbrev DEV_REV_STEP : Fld := ⟨R.DEV_REV, 8, 8⟩
abbrev DEV_SERIAL_LO_SERIAL : Fld := ⟨R.DEV_SERIAL_LO, 0, 32⟩
abbrev DEV_SERIAL_HI_SERIAL : Fld := ⟨R.DEV_SERIAL_HI, 0, 32⟩
abbrev DEV_FW_VER_VER : Fld := ⟨R.DEV_FW_VER, 0, 32⟩
abbrev DEV_PROTO_MAJORS : Fld := ⟨R.DEV_PROTO, 0, 8⟩
abbrev DEV_PROTO_MINOR : Fld := ⟨R.DEV_PROTO, 8, 8⟩
abbrev DEV_CODE_LO_ASCII : Fld := ⟨R.DEV_CODE_LO, 0, 32⟩
abbrev DEV_CODE_HI_ASCII : Fld := ⟨R.DEV_CODE_HI, 0, 32⟩
abbrev CLK_CTRL_REF_SEL : Fld := ⟨R.CLK_CTRL, 0, 2⟩
abbrev CLK_CTRL_REF_REVERT : Fld := ⟨R.CLK_CTRL, 2, 1⟩
abbrev CLK_STATUS_LOCK_P : Fld := ⟨R.CLK_STATUS, 0, 1⟩
abbrev CLK_STATUS_LOCK_S : Fld := ⟨R.CLK_STATUS, 1, 1⟩
abbrev CLK_STATUS_ACTIVE : Fld := ⟨R.CLK_STATUS, 2, 1⟩
abbrev CLK_STATUS_REF_ACTIVE : Fld := ⟨R.CLK_STATUS, 3, 2⟩
abbrev CLK_STATUS_REF_LOST : Fld := ⟨R.CLK_STATUS, 5, 1⟩
abbrev CLK_STATUS_TAKEOVER : Fld := ⟨R.CLK_STATUS, 6, 1⟩
abbrev CLK_OUT_CFG_DIV (n : Nat) : Fld := ⟨R.CLK_OUT_CFG n, 0, 16⟩
abbrev CLK_OUT_CFG_FMT (n : Nat) : Fld := ⟨R.CLK_OUT_CFG n, 16, 2⟩
abbrev CLK_OUT_CFG_SSC_EN (n : Nat) : Fld := ⟨R.CLK_OUT_CFG n, 18, 1⟩
abbrev CLK_OUT_CFG_EN (n : Nat) : Fld := ⟨R.CLK_OUT_CFG n, 19, 1⟩
abbrev CLK_SSC_MODE : Fld := ⟨R.CLK_SSC, 0, 1⟩
abbrev CLK_SSC_DEPTH : Fld := ⟨R.CLK_SSC, 1, 6⟩
abbrev CLK_SSC_RATE : Fld := ⟨R.CLK_SSC, 7, 2⟩
abbrev CLK_SSC_DRAM_EN : Fld := ⟨R.CLK_SSC, 9, 1⟩
abbrev TIME_STATUS_STATE : Fld := ⟨R.TIME_STATUS, 0, 2⟩
abbrev TIME_STATUS_TRACEABLE : Fld := ⟨R.TIME_STATUS, 2, 1⟩
abbrev TIME_STATUS_TIME_LOST : Fld := ⟨R.TIME_STATUS, 3, 1⟩
abbrev TIME_STATUS_ELAPSED_GAP : Fld := ⟨R.TIME_STATUS, 4, 1⟩
abbrev TIME_STATUS_RTC_DERIVED : Fld := ⟨R.TIME_STATUS, 5, 1⟩
abbrev TIME_STATUS_SLEWING : Fld := ⟨R.TIME_STATUS, 6, 1⟩
abbrev TIME_NOW_LO_NS : Fld := ⟨R.TIME_NOW_LO, 0, 32⟩
abbrev TIME_NOW_HI_NS : Fld := ⟨R.TIME_NOW_HI, 0, 32⟩
abbrev TIME_NOW_FRAC_FRAC : Fld := ⟨R.TIME_NOW_FRAC, 0, 3⟩
abbrev TIME_PTP_CFG_DOMAIN : Fld := ⟨R.TIME_PTP_CFG, 0, 8⟩
abbrev TIME_PTP_CFG_HOLD_S : Fld := ⟨R.TIME_PTP_CFG, 8, 12⟩
abbrev TIME_PTP_CFG_PPS_EN : Fld := ⟨R.TIME_PTP_CFG, 20, 1⟩
abbrev TIME_OFFSET_OFFSET : Fld := ⟨R.TIME_OFFSET, 0, 32⟩
abbrev TIME_UTC_UTC_OFFSET : Fld := ⟨R.TIME_UTC, 0, 16⟩
abbrev TIME_UTC_LEAP61 : Fld := ⟨R.TIME_UTC, 16, 1⟩
abbrev TIME_UTC_LEAP59 : Fld := ⟨R.TIME_UTC, 17, 1⟩
abbrev TIME_UNCERT_UNCERT : Fld := ⟨R.TIME_UNCERT, 0, 32⟩
abbrev TIME_OPSEC_LO_SEC : Fld := ⟨R.TIME_OPSEC_LO, 0, 32⟩
abbrev TIME_OPSEC_HI_SEC : Fld := ⟨R.TIME_OPSEC_HI, 0, 32⟩
abbrev TIME_RTCSEC_LO_SEC : Fld := ⟨R.TIME_RTCSEC_LO, 0, 32⟩
abbrev TIME_RTCSEC_HI_SEC : Fld := ⟨R.TIME_RTCSEC_HI, 0, 32⟩
abbrev RTC_CAL_DATE_DAY : Fld := ⟨R.RTC_CAL_DATE, 0, 5⟩
abbrev RTC_CAL_DATE_MONTH : Fld := ⟨R.RTC_CAL_DATE, 5, 4⟩
abbrev RTC_CAL_DATE_YEAR : Fld := ⟨R.RTC_CAL_DATE, 9, 8⟩
abbrev RTC_CAL_TIME_SEC : Fld := ⟨R.RTC_CAL_TIME, 0, 6⟩
abbrev RTC_CAL_TIME_MIN : Fld := ⟨R.RTC_CAL_TIME, 6, 6⟩
abbrev RTC_CAL_TIME_HOUR : Fld := ⟨R.RTC_CAL_TIME, 12, 5⟩
abbrev RTC_STATUS_CAL_VALID : Fld := ⟨R.RTC_STATUS, 0, 1⟩
abbrev RTC_STATUS_RTC_VALID : Fld := ⟨R.RTC_STATUS, 1, 1⟩
abbrev PWR_STATE_LO_STATES : Fld := ⟨R.PWR_STATE_LO, 0, 32⟩
abbrev PWR_STATE_HI_STATES : Fld := ⟨R.PWR_STATE_HI, 0, 32⟩
abbrev PWR_REQ_DOMAIN : Fld := ⟨R.PWR_REQ, 0, 5⟩
abbrev PWR_REQ_TARGET : Fld := ⟨R.PWR_REQ, 5, 2⟩
abbrev PWR_REFUSE_BLOCKER : Fld := ⟨R.PWR_REFUSE, 0, 5⟩
abbrev PWR_REFUSE_REASON : Fld := ⟨R.PWR_REFUSE, 5, 3⟩
abbrev PWR_WAKE_SET_SET : Fld := ⟨R.PWR_WAKE_SET, 0, 21⟩
abbrev PWR_WAKE_CFG_ADDR : Fld := ⟨R.PWR_WAKE_CFG, 0, 7⟩
abbrev PWR_WAKE_CFG_EN : Fld := ⟨R.PWR_WAKE_CFG, 7, 1⟩
abbrev PWR_WAKE_CFG_STRETCH_MAX : Fld := ⟨R.PWR_WAKE_CFG, 8, 8⟩
abbrev PWR_WAKE_STAT_STRETCH : Fld := ⟨R.PWR_WAKE_STAT, 0, 16⟩
abbrev PWR_WAKE_STAT_LIMIT : Fld := ⟨R.PWR_WAKE_STAT, 16, 1⟩
abbrev PWR_WAKE_STAT_COUNT : Fld := ⟨R.PWR_WAKE_STAT, 24, 8⟩
abbrev PWR_SUPPLY_VIN_A_OK : Fld := ⟨R.PWR_SUPPLY, 0, 1⟩
abbrev PWR_SUPPLY_VIN_B_OK : Fld := ⟨R.PWR_SUPPLY, 1, 1⟩
abbrev PWR_SUPPLY_HARV_OK : Fld := ⟨R.PWR_SUPPLY, 2, 1⟩
abbrev PWR_SUPPLY_CREMA_SRC : Fld := ⟨R.PWR_SUPPLY, 3, 2⟩
abbrev PWR_DOM_P_POWER (d : Nat) : Fld := ⟨R.PWR_DOM_P d, 0, 16⟩
abbrev CREMA_STICKY_VIN_A_LOST : Fld := ⟨R.CREMA_STICKY, 0, 1⟩
abbrev CREMA_STICKY_VIN_B_LOST : Fld := ⟨R.CREMA_STICKY, 1, 1⟩
abbrev CREMA_STICKY_BOTH_LOST : Fld := ⟨R.CREMA_STICKY, 2, 1⟩
abbrev CREMA_STICKY_CELL_CUTOFF : Fld := ⟨R.CREMA_STICKY, 3, 1⟩
abbrev CREMA_STICKY_TAMPER : Fld := ⟨R.CREMA_STICKY, 4, 1⟩
abbrev CREMA_STICKY_THERMAL : Fld := ⟨R.CREMA_STICKY, 5, 1⟩
abbrev CREMA_STICKY_LOG_MEDIA_FAULT : Fld := ⟨R.CREMA_STICKY, 6, 1⟩
abbrev CREMA_STICKY_RAM_LOST : Fld := ⟨R.CREMA_STICKY, 7, 1⟩
abbrev CREMA_STICKY_CHG_TEMP : Fld := ⟨R.CREMA_STICKY, 8, 1⟩
abbrev CREMA_CFG_HARV_EN : Fld := ⟨R.CREMA_CFG, 0, 1⟩
abbrev CREMA_CFG_TAMPER_EN : Fld := ⟨R.CREMA_CFG, 1, 1⟩
abbrev CREMA_CFG_TAMPER_LOCK : Fld := ⟨R.CREMA_CFG, 2, 1⟩
abbrev CREMA_CFG_CAP_TEST : Fld := ⟨R.CREMA_CFG, 3, 1⟩
abbrev CREMA_CELL_VCELL : Fld := ⟨R.CREMA_CELL, 0, 13⟩
abbrev CREMA_CELL_CHARGING : Fld := ⟨R.CREMA_CELL, 13, 1⟩
abbrev CREMA_CELL_TEMP_OK : Fld := ⟨R.CREMA_CELL, 14, 1⟩
abbrev CREMA_CELL_TESTING : Fld := ⟨R.CREMA_CELL, 15, 1⟩
abbrev CREMA_CELL_CAP : Fld := ⟨R.CREMA_CELL, 16, 16⟩
abbrev CREMA_CELL_AGE_DAYS : Fld := ⟨R.CREMA_CELL_AGE, 0, 16⟩
abbrev CREMA_CELL_AGE_COUNT : Fld := ⟨R.CREMA_CELL_AGE, 16, 16⟩
abbrev CREMA_HARV_V_HARV : Fld := ⟨R.CREMA_HARV, 0, 16⟩
abbrev CREMA_HARV_I_HARV : Fld := ⟨R.CREMA_HARV, 16, 16⟩
abbrev CREMA_TAMPER_T_LO_NS : Fld := ⟨R.CREMA_TAMPER_T_LO, 0, 32⟩
abbrev CREMA_TAMPER_T_HI_NS : Fld := ⟨R.CREMA_TAMPER_T_HI, 0, 32⟩
abbrev CREMA_SUPPLY_T_LO_NS : Fld := ⟨R.CREMA_SUPPLY_T_LO, 0, 32⟩
abbrev CREMA_SUPPLY_T_HI_NS : Fld := ⟨R.CREMA_SUPPLY_T_HI, 0, 32⟩
abbrev CREMA_RAM_DATA (a : Nat) : Fld := ⟨R.CREMA_RAM a, 0, 32⟩
abbrev CREMA_FLOG_DATA (e w : Nat) : Fld := ⟨R.CREMA_FLOG e w, 0, 32⟩
abbrev THM_CFG_WARN : Fld := ⟨R.THM_CFG, 0, 7⟩
abbrev THM_CP_T_CP : Fld := ⟨R.THM_CP, 0, 16⟩
abbrev THM_CP_STALE : Fld := ⟨R.THM_CP, 16, 1⟩
abbrev THM_CP_NTC_FAULT : Fld := ⟨R.THM_CP, 17, 1⟩
abbrev THM_NTC_R25 : Fld := ⟨R.THM_NTC, 0, 16⟩
abbrev THM_NTC_B : Fld := ⟨R.THM_NTC, 16, 16⟩
abbrev THM_REG_T_T_EST (d : Nat) : Fld := ⟨R.THM_REG_T d, 0, 16⟩
abbrev THM_REG_T_WARN (d : Nat) : Fld := ⟨R.THM_REG_T d, 16, 1⟩
abbrev THM_REG_T_HOLD (d : Nat) : Fld := ⟨R.THM_REG_T d, 17, 1⟩
abbrev THM_REG_CNT_SHUTDOWNS (d : Nat) : Fld := ⟨R.THM_REG_CNT d, 0, 16⟩
abbrev THM_REG_CNT_PEAK (d : Nat) : Fld := ⟨R.THM_REG_CNT d, 16, 8⟩
abbrev LANE_STATUS_MODE : Fld := ⟨R.LANE_STATUS, 0, 2⟩
abbrev LANE_STATUS_COUNTED : Fld := ⟨R.LANE_STATUS, 2, 3⟩
abbrev LANE_CFG_AUTO_REJOIN : Fld := ⟨R.LANE_CFG, 0, 1⟩
abbrev LANE_CFG_AUTO_RESTART : Fld := ⟨R.LANE_CFG, 1, 1⟩
abbrev LANE_CFG_MAX_EXCL : Fld := ⟨R.LANE_CFG, 2, 4⟩
abbrev LANE_CMD_LANE : Fld := ⟨R.LANE_CMD, 0, 2⟩
abbrev LANE_CMD_CMD : Fld := ⟨R.LANE_CMD, 2, 2⟩
abbrev LANE_STAT_STATE (n : Nat) : Fld := ⟨R.LANE_STAT n, 0, 3⟩
abbrev LANE_STAT_CAUSE (n : Nat) : Fld := ⟨R.LANE_STAT n, 4, 3⟩
abbrev LANE_STAT_EXCL24 (n : Nat) : Fld := ⟨R.LANE_STAT n, 8, 4⟩
abbrev LANE_STAT_FAIL_STEP (n : Nat) : Fld := ⟨R.LANE_STAT n, 12, 4⟩
abbrev LANE_STAT_REJOINS (n : Nat) : Fld := ⟨R.LANE_STAT n, 16, 16⟩
abbrev LANE_EXCL_LO_NS (n : Nat) : Fld := ⟨R.LANE_EXCL_LO n, 0, 32⟩
abbrev LANE_EXCL_HI_NS (n : Nat) : Fld := ⟨R.LANE_EXCL_HI n, 0, 32⟩
abbrev LANE_COPY_TOTAL (n : Nat) : Fld := ⟨R.LANE_COPY n, 0, 11⟩
abbrev LANE_COPY_DIRTY (n : Nat) : Fld := ⟨R.LANE_COPY n, 12, 12⟩
abbrev LANE_COPY_ROUNDS (n : Nat) : Fld := ⟨R.LANE_COPY n, 24, 7⟩
abbrev LANE_SIG_LO_SIG : Fld := ⟨R.LANE_SIG_LO, 0, 32⟩
abbrev LANE_SIG_HI_SIG : Fld := ⟨R.LANE_SIG_HI, 0, 32⟩
abbrev LANE_INTR_MAX_NS : Fld := ⟨R.LANE_INTR, 0, 20⟩
abbrev LANE_INTR_CAUSE : Fld := ⟨R.LANE_INTR, 20, 4⟩
abbrev LANE_INTR_CLR : Fld := ⟨R.LANE_INTR, 31, 1⟩
abbrev LANE_SWLIM_SW_LIM (n : Nat) : Fld := ⟨R.LANE_SWLIM n, 0, 20⟩
abbrev VOTE_STATUS_VA_OK : Fld := ⟨R.VOTE_STATUS, 0, 1⟩
abbrev VOTE_STATUS_VB_OK : Fld := ⟨R.VOTE_STATUS, 1, 1⟩
abbrev VOTE_STATUS_VL1_OK : Fld := ⟨R.VOTE_STATUS, 2, 1⟩
abbrev VOTE_STATUS_VL2_OK : Fld := ⟨R.VOTE_STATUS, 3, 1⟩
abbrev VOTE_STATUS_VL_ACTIVE : Fld := ⟨R.VOTE_STATUS, 4, 1⟩
abbrev VOTE_STATUS_SUSPENDED : Fld := ⟨R.VOTE_STATUS, 5, 1⟩
abbrev VOTE_STATUS_MIRROR_ERR : Fld := ⟨R.VOTE_STATUS, 6, 1⟩
abbrev VOTE_MERGE_PORT_A_OK : Fld := ⟨R.VOTE_MERGE, 0, 8⟩
abbrev VOTE_MERGE_PORT_B_OK : Fld := ⟨R.VOTE_MERGE, 8, 8⟩
abbrev VOTE_CNT_MIN_COUNT (n : Nat) : Fld := ⟨R.VOTE_CNT_MIN n, 0, 32⟩
abbrev VOTE_LAST_VOTER : Fld := ⟨R.VOTE_LAST, 0, 2⟩
abbrev VOTE_LAST_LANES : Fld := ⟨R.VOTE_LAST, 2, 3⟩
abbrev VOTE_LAST_WORD : Fld := ⟨R.VOTE_LAST, 16, 16⟩
abbrev VOTE_LEASE_TOKEN_HELD : Fld := ⟨R.VOTE_LEASE, 0, 1⟩
abbrev VOTE_LEASE_MBX_HELD : Fld := ⟨R.VOTE_LEASE, 1, 8⟩
abbrev VOTE_LEASE_DRV_UNRESP : Fld := ⟨R.VOTE_LEASE, 9, 4⟩
abbrev VOTE_LEASE_CNT_TOKEN : Fld := ⟨R.VOTE_LEASE_CNT, 0, 8⟩
abbrev VOTE_LEASE_CNT_MBX : Fld := ⟨R.VOTE_LEASE_CNT, 8, 8⟩
abbrev VOTE_LEASE_CNT_DRV : Fld := ⟨R.VOTE_LEASE_CNT, 16, 8⟩
abbrev VOTE_LEASE_CNT_LATE : Fld := ⟨R.VOTE_LEASE_CNT, 24, 8⟩
abbrev POUR_STATUS_HEAD : Fld := ⟨R.POUR_STATUS, 0, 4⟩
abbrev POUR_STATUS_HEAD_VALID : Fld := ⟨R.POUR_STATUS, 4, 1⟩
abbrev POUR_STATUS_QUEUED : Fld := ⟨R.POUR_STATUS, 5, 5⟩
abbrev POUR_STATUS_OPEN : Fld := ⟨R.POUR_STATUS, 10, 4⟩
abbrev POUR_STATUS_TOKEN : Fld := ⟨R.POUR_STATUS, 14, 1⟩
abbrev POUR_STATUS_BLOCKED : Fld := ⟨R.POUR_STATUS, 15, 1⟩
abbrev POUR_CFG_STAGE_MAX : Fld := ⟨R.POUR_CFG, 0, 8⟩
abbrev POUR_CFG_CONFIRM : Fld := ⟨R.POUR_CFG, 8, 4⟩
abbrev POUR_NEXT_ID_ID : Fld := ⟨R.POUR_NEXT_ID, 0, 16⟩
abbrev POUR_CNT_EFFECTIVE : Fld := ⟨R.POUR_CNT, 0, 16⟩
abbrev POUR_CNT_ABORTED : Fld := ⟨R.POUR_CNT, 16, 16⟩
abbrev POUR_STALE_CNT_CELLS : Fld := ⟨R.POUR_STALE_CNT, 0, 11⟩
abbrev POUR_PEEK_SEL_SLOT : Fld := ⟨R.POUR_PEEK_SEL, 0, 4⟩
abbrev POUR_PEEK_SEL_KIND : Fld := ⟨R.POUR_PEEK_SEL, 4, 1⟩
abbrev POUR_PEEK_SEL_INDEX : Fld := ⟨R.POUR_PEEK_SEL, 5, 11⟩
abbrev POUR_PEEK_ADDR_DATA : Fld := ⟨R.POUR_PEEK_ADDR, 0, 32⟩
abbrev POUR_PEEK_VALUE_DATA : Fld := ⟨R.POUR_PEEK_VALUE, 0, 32⟩
abbrev POUR_PEEK_MASK_DATA : Fld := ⟨R.POUR_PEEK_MASK, 0, 32⟩
abbrev POUR_PEEK_CELL_BYTES (w : Nat) : Fld := ⟨R.POUR_PEEK_CELL w, 0, 32⟩
abbrev POUR_SLOT_STAT_STATE (s : Nat) : Fld := ⟨R.POUR_SLOT_STAT s, 0, 4⟩
abbrev POUR_SLOT_STAT_RESULT (s : Nat) : Fld := ⟨R.POUR_SLOT_STAT s, 4, 4⟩
abbrev POUR_SLOT_STAT_STATUS (s : Nat) : Fld := ⟨R.POUR_SLOT_STAT s, 8, 8⟩
abbrev POUR_SLOT_STAT_SESSION (s : Nat) : Fld := ⟨R.POUR_SLOT_STAT s, 16, 3⟩
abbrev POUR_SLOT_STAT_TARGETS (s : Nat) : Fld := ⟨R.POUR_SLOT_STAT s, 19, 1⟩
abbrev POUR_SLOT_ID_ID (s : Nat) : Fld := ⟨R.POUR_SLOT_ID s, 0, 16⟩
abbrev POUR_SLOT_CFG_POINT (s : Nat) : Fld := ⟨R.POUR_SLOT_CFG s, 0, 2⟩
abbrev POUR_SLOT_CFG_ZC_PT (s : Nat) : Fld := ⟨R.POUR_SLOT_CFG s, 2, 4⟩
abbrev POUR_SLOT_CFG_CHAIN (s : Nat) : Fld := ⟨R.POUR_SLOT_CFG s, 6, 1⟩
abbrev POUR_SLOT_CFG_NWRITES (s : Nat) : Fld := ⟨R.POUR_SLOT_CFG s, 8, 12⟩
abbrev POUR_SLOT_CFG_NTARGETS (s : Nat) : Fld := ⟨R.POUR_SLOT_CFG s, 20, 11⟩
abbrev POUR_SLOT_SEQ_SUBMIT (s : Nat) : Fld := ⟨R.POUR_SLOT_SEQ s, 0, 32⟩
abbrev POUR_SLOT_REQ_LO_NS (s : Nat) : Fld := ⟨R.POUR_SLOT_REQ_LO s, 0, 32⟩
abbrev POUR_SLOT_REQ_HI_NS (s : Nat) : Fld := ⟨R.POUR_SLOT_REQ_HI s, 0, 32⟩
abbrev POUR_SLOT_TC_LO_NS (s : Nat) : Fld := ⟨R.POUR_SLOT_TC_LO s, 0, 32⟩
abbrev POUR_SLOT_TC_HI_NS (s : Nat) : Fld := ⟨R.POUR_SLOT_TC_HI s, 0, 32⟩
abbrev POUR_SLOT_PROG_ACKED (s : Nat) : Fld := ⟨R.POUR_SLOT_PROG s, 0, 11⟩
abbrev POUR_SLOT_PROG_CONFIRMED (s : Nat) : Fld := ⟨R.POUR_SLOT_PROG s, 11, 11⟩
abbrev POUR_SLOT_FAIL_DETAIL (s : Nat) : Fld := ⟨R.POUR_SLOT_FAIL s, 0, 16⟩
abbrev POUR_SLOT_FAIL_CHECK (s : Nat) : Fld := ⟨R.POUR_SLOT_FAIL s, 16, 8⟩
abbrev POUR_SLOT_UNCONF_CELLS (s : Nat) : Fld := ⟨R.POUR_SLOT_UNCONF s, 0, 11⟩
abbrev POUR_CFG_STALE_MARK (w : Nat) : Fld := ⟨R.POUR_CFG_STALE w, 0, 32⟩
abbrev LOG_STATUS_TARGET : Fld := ⟨R.LOG_STATUS, 0, 1⟩
abbrev LOG_STATUS_COPYING : Fld := ⟨R.LOG_STATUS, 1, 1⟩
abbrev LOG_STATUS_SEQ_HOLD : Fld := ⟨R.LOG_STATUS, 2, 1⟩
abbrev LOG_NEXT_SEQ_LO_SEQ : Fld := ⟨R.LOG_NEXT_SEQ_LO, 0, 32⟩
abbrev LOG_NEXT_SEQ_HI_SEQ : Fld := ⟨R.LOG_NEXT_SEQ_HI, 0, 32⟩
abbrev LOG_OLDEST_LO_SEQ : Fld := ⟨R.LOG_OLDEST_LO, 0, 32⟩
abbrev LOG_OLDEST_HI_SEQ : Fld := ⟨R.LOG_OLDEST_HI, 0, 32⟩
abbrev LOG_FB_PENDING : Fld := ⟨R.LOG_FB, 0, 9⟩
abbrev LOG_FB_LOST : Fld := ⟨R.LOG_FB, 16, 16⟩
abbrev LOG_CNT_WRITTEN_COUNT : Fld := ⟨R.LOG_CNT_WRITTEN, 0, 32⟩
abbrev LOG_CNT_VERIFY_COUNT : Fld := ⟨R.LOG_CNT_VERIFY, 0, 32⟩
abbrev LOG_CMD_RETEST : Fld := ⟨R.LOG_CMD, 0, 1⟩
abbrev LOG_GRIND_CFG_SRAM_S : Fld := ⟨R.LOG_GRIND_CFG, 0, 8⟩
abbrev LOG_GRIND_CFG_DRAM_H : Fld := ⟨R.LOG_GRIND_CFG, 8, 8⟩
abbrev LOG_GRIND_CFG_MRAM_H : Fld := ⟨R.LOG_GRIND_CFG, 16, 8⟩
abbrev LOG_GRIND_CORR_COUNT (m : Nat) : Fld := ⟨R.LOG_GRIND_CORR m, 0, 32⟩
abbrev LOG_GRIND_UNC_COUNT (m : Nat) : Fld := ⟨R.LOG_GRIND_UNC m, 0, 32⟩
abbrev LOG_GRIND_PASS_SRAM : Fld := ⟨R.LOG_GRIND_PASS, 0, 8⟩
abbrev LOG_GRIND_PASS_DRAM : Fld := ⟨R.LOG_GRIND_PASS, 8, 8⟩
abbrev LOG_GRIND_PASS_MRAM : Fld := ⟨R.LOG_GRIND_PASS, 16, 8⟩
abbrev MGMT_CFG_UDP_EN : Fld := ⟨R.MGMT_CFG, 0, 1⟩
abbrev MGMT_CFG_IDLE_S : Fld := ⟨R.MGMT_CFG, 1, 10⟩
abbrev MGMT_NET_IP_ADDR : Fld := ⟨R.MGMT_NET_IP, 0, 32⟩
abbrev MGMT_NET_MASK_ADDR : Fld := ⟨R.MGMT_NET_MASK, 0, 32⟩
abbrev MGMT_NET_GW_ADDR : Fld := ⟨R.MGMT_NET_GW, 0, 32⟩
abbrev MGMT_STAT_SESSIONS : Fld := ⟨R.MGMT_STAT, 0, 4⟩
abbrev MGMT_STAT_BAD_FRAMES : Fld := ⟨R.MGMT_STAT, 16, 16⟩
abbrev ACC_FIELD_LOCK_CLOSED : Fld := ⟨R.ACC_FIELD_LOCK, 0, 1⟩
abbrev ACC_FIELD_LOCK_CLOSE : Fld := ⟨R.ACC_FIELD_LOCK, 1, 1⟩
abbrev ACC_FIELD_LOCK_OPENER_VALID : Fld := ⟨R.ACC_FIELD_LOCK, 2, 1⟩
abbrev ACC_FIELD_LOCK_OPENER : Fld := ⟨R.ACC_FIELD_LOCK, 3, 3⟩
abbrev ACC_FIELD_LOCK_OPEN_LEVEL : Fld := ⟨R.ACC_FIELD_LOCK, 6, 2⟩
abbrev ACC_FIELD_LOCK_LOCK_AT_BOOT : Fld := ⟨R.ACC_FIELD_LOCK, 8, 1⟩
abbrev ACC_POLICY_OP_WRITE : Fld := ⟨R.ACC_POLICY, 0, 1⟩
abbrev ACC_POLICY_PW_EN : Fld := ⟨R.ACC_POLICY, 1, 1⟩
abbrev ACC_POLICY_KEY_EN : Fld := ⟨R.ACC_POLICY, 2, 1⟩
abbrev ACC_POLICY_HOLD_MIN : Fld := ⟨R.ACC_POLICY, 8, 8⟩
abbrev ACC_POLICY_MAX_FAIL : Fld := ⟨R.ACC_POLICY, 16, 4⟩
abbrev ACC_SESSION_ACTIVE (n : Nat) : Fld := ⟨R.ACC_SESSION n, 0, 1⟩
abbrev ACC_SESSION_LEVEL (n : Nat) : Fld := ⟨R.ACC_SESSION n, 1, 2⟩
abbrev ACC_SESSION_EFFECTIVE (n : Nat) : Fld := ⟨R.ACC_SESSION n, 3, 2⟩
abbrev ACC_SESSION_PORT (n : Nat) : Fld := ⟨R.ACC_SESSION n, 5, 1⟩
abbrev ACC_AUTH_FAILS : Fld := ⟨R.ACC_AUTH, 0, 8⟩
abbrev ACC_AUTH_BLOCKED : Fld := ⟨R.ACC_AUTH, 8, 1⟩
abbrev ACC_AUTH_BLOCK_S : Fld := ⟨R.ACC_AUTH, 16, 16⟩
abbrev ACC_KEY_STAT_PROGRAMMED : Fld := ⟨R.ACC_KEY_STAT, 0, 4⟩
abbrev ACC_KEY_SEL_SLOT : Fld := ⟨R.ACC_KEY_SEL, 0, 2⟩
abbrev ACC_KEY_SEL_PROGRAM : Fld := ⟨R.ACC_KEY_SEL, 2, 1⟩
abbrev ACC_KEY_DATA_KEY (w : Nat) : Fld := ⟨R.ACC_KEY_DATA w, 0, 32⟩
abbrev RING_CTRL_EN (n : Nat) : Fld := ⟨R.RING_CTRL n, 0, 1⟩
abbrev RING_CTRL_FORCE_V1 (n : Nat) : Fld := ⟨R.RING_CTRL n, 1, 1⟩
abbrev RING_CTRL_REDISCOVER (n : Nat) : Fld := ⟨R.RING_CTRL n, 2, 1⟩
abbrev RING_CTRL_HEAL_EN (n : Nat) : Fld := ⟨R.RING_CTRL n, 3, 1⟩
abbrev RING_STATUS_STATE (n : Nat) : Fld := ⟨R.RING_STATUS n, 0, 3⟩
abbrev RING_STATUS_VER (n : Nat) : Fld := ⟨R.RING_STATUS n, 3, 2⟩
abbrev RING_STATUS_LINK_A (n : Nat) : Fld := ⟨R.RING_STATUS n, 5, 1⟩
abbrev RING_STATUS_LINK_B (n : Nat) : Fld := ⟨R.RING_STATUS n, 6, 1⟩
abbrev RING_STATUS_ASYM_UNK (n : Nat) : Fld := ⟨R.RING_STATUS n, 7, 1⟩
abbrev RING_STATUS_NCELLS (n : Nat) : Fld := ⟨R.RING_STATUS n, 8, 8⟩
abbrev RING_BREAK_BRK1_POS (n : Nat) : Fld := ⟨R.RING_BREAK n, 0, 8⟩
abbrev RING_BREAK_BRK2_POS (n : Nat) : Fld := ⟨R.RING_BREAK n, 8, 8⟩
abbrev RING_BREAK_BRK1_VALID (n : Nat) : Fld := ⟨R.RING_BREAK n, 16, 1⟩
abbrev RING_BREAK_BRK2_VALID (n : Nat) : Fld := ⟨R.RING_BREAK n, 17, 1⟩
abbrev RING_TPROP_T (n : Nat) : Fld := ⟨R.RING_TPROP n, 0, 32⟩
abbrev RING_TTEL_T (n : Nat) : Fld := ⟨R.RING_TTEL n, 0, 32⟩
abbrev RING_TSCHED_T (n : Nat) : Fld := ⟨R.RING_TSCHED n, 0, 32⟩
abbrev RING_ADMIT_TEL_T (n : Nat) : Fld := ⟨R.RING_ADMIT_TEL n, 0, 32⟩
abbrev RING_ADMIT_SCHED_T (n : Nat) : Fld := ⟨R.RING_ADMIT_SCHED n, 0, 32⟩
abbrev RING_THALT_T (n : Nat) : Fld := ⟨R.RING_THALT n, 0, 32⟩
abbrev RING_HALT_CMP_CMP (n : Nat) : Fld := ⟨R.RING_HALT_CMP n, 0, 12⟩
abbrev RING_HALT_LEG_LEG (n : Nat) : Fld := ⟨R.RING_HALT_LEG n, 0, 24⟩
abbrev RING_HALT_STAT_HALT_SEQ (n : Nat) : Fld := ⟨R.RING_HALT_STAT n, 0, 16⟩
abbrev RING_HALT_STAT_HALT_ACTIVE (n : Nat) : Fld := ⟨R.RING_HALT_STAT n, 16, 1⟩
abbrev RING_HALT_STAT_SRC_CLASS (n : Nat) : Fld := ⟨R.RING_HALT_STAT n, 17, 3⟩
abbrev RING_HALT_STAT_SRC_CH (n : Nat) : Fld := ⟨R.RING_HALT_STAT n, 20, 8⟩
abbrev RING_STAT_CLR_CLR (n : Nat) : Fld := ⟨R.RING_STAT_CLR n, 0, 1⟩
abbrev RING_CNT_CRC_A_COUNT (n : Nat) : Fld := ⟨R.RING_CNT_CRC_A n, 0, 32⟩
abbrev RING_CNT_CRC_B_COUNT (n : Nat) : Fld := ⟨R.RING_CNT_CRC_B n, 0, 32⟩
abbrev RING_CNT_STALE_COUNT (n : Nat) : Fld := ⟨R.RING_CNT_STALE n, 0, 32⟩
abbrev RING_CNT_LATE_COUNT (n : Nat) : Fld := ⟨R.RING_CNT_LATE n, 0, 32⟩
abbrev RING_CNT_ABORT_COUNT (n : Nat) : Fld := ⟨R.RING_CNT_ABORT n, 0, 32⟩
abbrev RING_CNT_MISMATCH_COUNT (n : Nat) : Fld := ⟨R.RING_CNT_MISMATCH n, 0, 32⟩
abbrev RING_CNT_BREAK_COUNT (n : Nat) : Fld := ⟨R.RING_CNT_BREAK n, 0, 32⟩
abbrev RING_CNT_MBX_TO_COUNT (n : Nat) : Fld := ⟨R.RING_CNT_MBX_TO n, 0, 32⟩
abbrev RING_MBX_STAT_BUSY (n : Nat) : Fld := ⟨R.RING_MBX_STAT n, 0, 1⟩
abbrev RING_MBX_STAT_OWNER (n : Nat) : Fld := ⟨R.RING_MBX_STAT n, 1, 2⟩
abbrev RING_MBX_STAT_SEQ (n : Nat) : Fld := ⟨R.RING_MBX_STAT n, 8, 8⟩
abbrev RING_MBX_STAT_LAST_STATUS (n : Nat) : Fld := ⟨R.RING_MBX_STAT n, 16, 2⟩
abbrev RING_MBX_STAT_LAST_TIMEOUT (n : Nat) : Fld := ⟨R.RING_MBX_STAT n, 18, 1⟩
abbrev RING_HOP_DLY_DELAY (n h : Nat) : Fld := ⟨R.RING_HOP_DLY n h, 0, 32⟩
abbrev RING_HOP_STAT_UP (n h : Nat) : Fld := ⟨R.RING_HOP_STAT n h, 0, 1⟩
abbrev RING_HOP_STAT_VER (n h : Nat) : Fld := ⟨R.RING_HOP_STAT n h, 1, 2⟩
abbrev RING_HOP_STAT_STEP (n h : Nat) : Fld := ⟨R.RING_HOP_STAT n h, 3, 1⟩
abbrev RING_HOP_STAT_ERRORS (n h : Nat) : Fld := ⟨R.RING_HOP_STAT n h, 16, 16⟩
abbrev RING_LOOPD_D : Fld := ⟨R.RING_LOOPD, 0, 2⟩
abbrev RING_LOOPD_FEASIBLE : Fld := ⟨R.RING_LOOPD, 2, 1⟩
abbrev RING_LOOPD_W_CLK : Fld := ⟨R.RING_LOOPD, 16, 16⟩
abbrev RING_FREEZE_FREEZE : Fld := ⟨R.RING_FREEZE, 0, 16⟩
abbrev RING_LAUNCH_LAUNCH : Fld := ⟨R.RING_LAUNCH, 0, 16⟩
abbrev RING_TCE_TCE : Fld := ⟨R.RING_TCE, 0, 16⟩
abbrev RING_CTL_PERIOD_PERIOD : Fld := ⟨R.RING_CTL_PERIOD, 0, 15⟩
abbrev CELL_STATE_STATE (i : Nat) : Fld := ⟨R.CELL_STATE i, 0, 4⟩
abbrev CELL_STATE_PREV (i : Nat) : Fld := ⟨R.CELL_STATE i, 4, 4⟩
abbrev CELL_STATE_REASON (i : Nat) : Fld := ⟨R.CELL_STATE i, 8, 8⟩
abbrev CELL_STATE_PHYS (i : Nat) : Fld := ⟨R.CELL_STATE i, 16, 3⟩
abbrev CELL_STATE_PHYS_VALID (i : Nat) : Fld := ⟨R.CELL_STATE i, 19, 1⟩
abbrev CELL_STATE_SEQ_BUSY (i : Nat) : Fld := ⟨R.CELL_STATE i, 20, 1⟩
abbrev CELL_STATE_NO_BYPASS (i : Nat) : Fld := ⟨R.CELL_STATE i, 21, 1⟩
abbrev CELL_STATE_DISP_PEND (i : Nat) : Fld := ⟨R.CELL_STATE i, 22, 1⟩
abbrev CELL_CMD_CMD (i : Nat) : Fld := ⟨R.CELL_CMD i, 0, 4⟩
abbrev CELL_CMD_EXPECT (i : Nat) : Fld := ⟨R.CELL_CMD i, 8, 4⟩
abbrev CELL_INFO_POSITION (i : Nat) : Fld := ⟨R.CELL_INFO i, 0, 8⟩
abbrev CELL_INFO_RING (i : Nat) : Fld := ⟨R.CELL_INFO i, 8, 3⟩
abbrev CELL_INFO_NODE_TYPE (i : Nat) : Fld := ⟨R.CELL_INFO i, 16, 8⟩
abbrev CELL_INFO_VERS (i : Nat) : Fld := ⟨R.CELL_INFO i, 24, 2⟩
abbrev CELL_CFG_PHASE (i : Nat) : Fld := ⟨R.CELL_CFG i, 0, 2⟩
abbrev CELL_CFG_TYPE (i : Nat) : Fld := ⟨R.CELL_CFG i, 2, 4⟩
abbrev CELL_CFG_IN_MAP (i : Nat) : Fld := ⟨R.CELL_CFG i, 6, 1⟩
abbrev CELL_NODE_ID_LO_ID (i : Nat) : Fld := ⟨R.CELL_NODE_ID_LO i, 0, 32⟩
abbrev CELL_NODE_ID_HI_ID (i : Nat) : Fld := ⟨R.CELL_NODE_ID_HI i, 0, 32⟩
abbrev CELL_MAP_ID_LO_ID (i : Nat) : Fld := ⟨R.CELL_MAP_ID_LO i, 0, 32⟩
abbrev CELL_MAP_ID_HI_ID (i : Nat) : Fld := ⟨R.CELL_MAP_ID_HI i, 0, 32⟩
abbrev CELL_DIAG_HB0 (i : Nat) : Fld := ⟨R.CELL_DIAG i, 0, 2⟩
abbrev CELL_DIAG_HB1 (i : Nat) : Fld := ⟨R.CELL_DIAG i, 2, 2⟩
abbrev CELL_DIAG_DONE (i : Nat) : Fld := ⟨R.CELL_DIAG i, 4, 1⟩
abbrev CELL_DIAG_VALID (i : Nat) : Fld := ⟨R.CELL_DIAG i, 5, 1⟩
abbrev CELL_DIAG_ATTEMPTS (i : Nat) : Fld := ⟨R.CELL_DIAG i, 8, 8⟩
abbrev CELL_DIAG_AGE (i : Nat) : Fld := ⟨R.CELL_DIAG i, 16, 16⟩
abbrev CELL_TRIP_TOTAL_COUNT (i : Nat) : Fld := ⟨R.CELL_TRIP_TOTAL i, 0, 32⟩
abbrev CELL_TRIP_TIME_LO_NS (i : Nat) : Fld := ⟨R.CELL_TRIP_TIME_LO i, 0, 32⟩
abbrev CELL_TRIP_TIME_HI_NS (i : Nat) : Fld := ⟨R.CELL_TRIP_TIME_HI i, 0, 32⟩
abbrev CELL_STALE_RUN (i : Nat) : Fld := ⟨R.CELL_STALE i, 0, 8⟩
abbrev CELL_STALE_TOTAL (i : Nat) : Fld := ⟨R.CELL_STALE i, 8, 24⟩
abbrev CELL_FAULTS_DIAG (i : Nat) : Fld := ⟨R.CELL_FAULTS i, 0, 1⟩
abbrev CELL_FAULTS_TRIP_LATCH (i : Nat) : Fld := ⟨R.CELL_FAULTS i, 1, 1⟩
abbrev CELL_FAULTS_TELEMETRY (i : Nat) : Fld := ⟨R.CELL_FAULTS i, 2, 1⟩
abbrev CELL_FAULTS_UNREACHABLE (i : Nat) : Fld := ⟨R.CELL_FAULTS i, 3, 1⟩
abbrev CELL_FAULTS_OVERTEMP (i : Nat) : Fld := ⟨R.CELL_FAULTS i, 4, 1⟩
abbrev CELL_FAULTS_BYP_FAULT (i : Nat) : Fld := ⟨R.CELL_FAULTS i, 5, 1⟩
abbrev CELL_FAULTS_ALIGN (i : Nat) : Fld := ⟨R.CELL_FAULTS i, 6, 1⟩
abbrev CELL_FAULTS_ID (i : Nat) : Fld := ⟨R.CELL_FAULTS i, 7, 1⟩
abbrev CELL_FAULTS_FAULT24 (i : Nat) : Fld := ⟨R.CELL_FAULTS i, 8, 4⟩
abbrev CELL_TLM_SLOT (i w : Nat) : Fld := ⟨R.CELL_TLM i w, 0, 32⟩
abbrev CELL_TLM_CYCLE_CYCLE (i : Nat) : Fld := ⟨R.CELL_TLM_CYCLE i, 0, 32⟩
abbrev CELL_TLM_AGE_AGE (i : Nat) : Fld := ⟨R.CELL_TLM_AGE i, 0, 16⟩
abbrev CELL_CLU_CFG_VNEED (c : Nat) : Fld := ⟨R.CELL_CLU_CFG c, 0, 16⟩
abbrev CELL_CLU_CFG_MMAX (c : Nat) : Fld := ⟨R.CELL_CLU_CFG c, 16, 10⟩
abbrev CELL_PHASE_CFG_N_MAP (c ph : Nat) : Fld := ⟨R.CELL_PHASE_CFG c ph, 0, 6⟩
abbrev CELL_PHASE_CFG_M_CFG (c ph : Nat) : Fld := ⟨R.CELL_PHASE_CFG c ph, 8, 4⟩
abbrev CELL_PHASE_STAT_M_NOW (c ph : Nat) : Fld := ⟨R.CELL_PHASE_STAT c ph, 0, 8⟩
abbrev CELL_PHASE_STAT_N_ACTIVE (c ph : Nat) : Fld := ⟨R.CELL_PHASE_STAT c ph, 8, 6⟩
abbrev CELL_PHASE_STAT_N_AVAIL (c ph : Nat) : Fld := ⟨R.CELL_PHASE_STAT c ph, 16, 6⟩
abbrev CELL_PHASE_VCAP_VCAP (c ph : Nat) : Fld := ⟨R.CELL_PHASE_VCAP c ph, 0, 16⟩
abbrev CELL_CLU_STATUS_RUNNING (c : Nat) : Fld := ⟨R.CELL_CLU_STATUS c, 0, 1⟩
abbrev CELL_CLU_STATUS_START_OK (c : Nat) : Fld := ⟨R.CELL_CLU_STATUS c, 1, 1⟩
abbrev CELL_CLU_STATUS_BYP_BLOCK (c : Nat) : Fld := ⟨R.CELL_CLU_STATUS c, 2, 1⟩
abbrev CELL_CTRL_STALE_LIM : Fld := ⟨R.CELL_CTRL, 0, 4⟩
abbrev CELL_CTRL_STALE_FAULT : Fld := ⟨R.CELL_CTRL, 4, 8⟩
abbrev CELL_CTRL_BYP_TO : Fld := ⟨R.CELL_CTRL, 12, 8⟩
abbrev CELL_CTRL_RAMP : Fld := ⟨R.CELL_CTRL, 20, 8⟩
abbrev CELL_CTRL_AUTO_RET : Fld := ⟨R.CELL_CTRL, 28, 1⟩
abbrev PWM_STATUS_MOD_CLU : Fld := ⟨R.PWM_STATUS, 0, 8⟩
abbrev PWM_CNT_DEBT_CAP_COUNT : Fld := ⟨R.PWM_CNT_DEBT_CAP, 0, 32⟩
abbrev PWM_CNT_SNAP_COUNT : Fld := ⟨R.PWM_CNT_SNAP, 0, 32⟩
abbrev PWM_DLY_STAT_CAL_OK : Fld := ⟨R.PWM_DLY_STAT, 0, 1⟩
abbrev PWM_DLY_STAT_CAL_FAIL : Fld := ⟨R.PWM_DLY_STAT, 1, 1⟩
abbrev PWM_DLY_STAT_ERR_PS : Fld := ⟨R.PWM_DLY_STAT, 2, 8⟩
abbrev PWM_DLY_STAT_CAL_COUNT : Fld := ⟨R.PWM_DLY_STAT, 10, 22⟩
abbrev PWM_TYPE_TIME_T_MIN (n : Nat) : Fld := ⟨R.PWM_TYPE_TIME n, 0, 10⟩
abbrev PWM_TYPE_TIME_T_DT (n : Nat) : Fld := ⟨R.PWM_TYPE_TIME n, 10, 10⟩
abbrev PWM_TYPE_TIME_NODE_TYPE (n : Nat) : Fld := ⟨R.PWM_TYPE_TIME n, 20, 8⟩
abbrev PWM_TYPE_TRIP_TRIP_N (n : Nat) : Fld := ⟨R.PWM_TYPE_TRIP n, 0, 8⟩
abbrev PWM_TYPE_TRIP_TRIP_W (n : Nat) : Fld := ⟨R.PWM_TYPE_TRIP n, 8, 8⟩
abbrev PWM_TYPE_TRIP_DTC_I (n : Nat) : Fld := ⟨R.PWM_TYPE_TRIP n, 16, 16⟩
abbrev PWM_CLU_CFG_CAR_P (c : Nat) : Fld := ⟨R.PWM_CLU_CFG c, 0, 24⟩
abbrev PWM_CLU_CFG_UPDATE_AT (c : Nat) : Fld := ⟨R.PWM_CLU_CFG c, 24, 1⟩
abbrev PWM_CLU_CFG_SKEW (c : Nat) : Fld := ⟨R.PWM_CLU_CFG c, 25, 1⟩
abbrev PWM_CLU_CFG_DTC (c : Nat) : Fld := ⟨R.PWM_CLU_CFG c, 26, 1⟩
abbrev PWM_CLU_SRC_VREF_BASE (c : Nat) : Fld := ⟨R.PWM_CLU_SRC c, 0, 13⟩
abbrev PWM_CLU_SRC_SHARE_BASE (c : Nat) : Fld := ⟨R.PWM_CLU_SRC c, 16, 13⟩
abbrev PWM_CLU_VBASE_VBASE (c : Nat) : Fld := ⟨R.PWM_CLU_VBASE c, 0, 16⟩
abbrev PWM_CLU_CMD_RESPREAD (c : Nat) : Fld := ⟨R.PWM_CLU_CMD c, 0, 1⟩
abbrev PWM_CLU_STAT_CFG_OK (c : Nat) : Fld := ⟨R.PWM_CLU_STAT c, 0, 1⟩
abbrev PWM_CLU_STAT_UPD_EFF (c : Nat) : Fld := ⟨R.PWM_CLU_STAT c, 1, 1⟩
abbrev PWM_CLU_STAT_MIXED (c : Nat) : Fld := ⟨R.PWM_CLU_STAT c, 2, 1⟩
abbrev PWM_CLU_STAT_M_SAT (c : Nat) : Fld := ⟨R.PWM_CLU_STAT c, 3, 3⟩
abbrev PWM_CLU_STAT_FAIL_COND (c : Nat) : Fld := ⟨R.PWM_CLU_STAT c, 6, 4⟩
abbrev PWM_CLU_ANCHOR_LO_NS (c : Nat) : Fld := ⟨R.PWM_CLU_ANCHOR_LO c, 0, 32⟩
abbrev PWM_CLU_ANCHOR_HI_NS (c : Nat) : Fld := ⟨R.PWM_CLU_ANCHOR_HI c, 0, 32⟩
abbrev PWM_CELL_OFF_OFF (i : Nat) : Fld := ⟨R.PWM_CELL_OFF i, 0, 24⟩
abbrev PWM_CELL_OFF_RANK (i : Nat) : Fld := ⟨R.PWM_CELL_OFF i, 24, 6⟩
abbrev PWM_CELL_DEBT0_DEBT (i : Nat) : Fld := ⟨R.PWM_CELL_DEBT0 i, 0, 32⟩
abbrev PWM_CELL_DEBT1_DEBT (i : Nat) : Fld := ⟨R.PWM_CELL_DEBT1 i, 0, 32⟩
abbrev PWM_CELL_TRIP_WIN (i : Nat) : Fld := ⟨R.PWM_CELL_TRIP i, 0, 8⟩
abbrev PWM_LEG_CFG_CAR_P (l : Nat) : Fld := ⟨R.PWM_LEG_CFG l, 0, 24⟩
abbrev PWM_LEG_CFG_UPDATE_AT (l : Nat) : Fld := ⟨R.PWM_LEG_CFG l, 24, 1⟩
abbrev PWM_LEG_OFF_OFF (l : Nat) : Fld := ⟨R.PWM_LEG_OFF l, 0, 24⟩
abbrev PWM_LEG_SRC_SIG (l : Nat) : Fld := ⟨R.PWM_LEG_SRC l, 0, 13⟩
abbrev PWM_LEG_TIME_T_MIN (l : Nat) : Fld := ⟨R.PWM_LEG_TIME l, 0, 10⟩
abbrev PWM_LEG_TIME_T_DT (l : Nat) : Fld := ⟨R.PWM_LEG_TIME l, 10, 10⟩
abbrev PWM_LEG_TRIP_N (l : Nat) : Fld := ⟨R.PWM_LEG_TRIP l, 0, 8⟩
abbrev PWM_LEG_TRIP_W (l : Nat) : Fld := ⟨R.PWM_LEG_TRIP l, 8, 8⟩
abbrev PWM_LEG_STAT_LATCHED (l : Nat) : Fld := ⟨R.PWM_LEG_STAT l, 0, 1⟩
abbrev PWM_LEG_STAT_WIN (l : Nat) : Fld := ⟨R.PWM_LEG_STAT l, 8, 8⟩
abbrev PWM_LEG_STAT_TRIPS (l : Nat) : Fld := ⟨R.PWM_LEG_STAT l, 16, 16⟩
abbrev PWM_LEG_DEBT_DEBT (l : Nat) : Fld := ⟨R.PWM_LEG_DEBT l, 0, 32⟩
abbrev CE_CFG_NPROG : Fld := ⟨R.CE_CFG, 0, 9⟩
abbrev CE_STATUS_LOADED : Fld := ⟨R.CE_STATUS, 0, 1⟩
abbrev CE_STATUS_FLAG_ANY : Fld := ⟨R.CE_STATUS, 1, 1⟩
abbrev CE_STATUS_ECC_UNC : Fld := ⟨R.CE_STATUS, 2, 1⟩
abbrev CE_TCE_TCE : Fld := ⟨R.CE_TCE, 0, 16⟩
abbrev CE_TCE_ROUNDS : Fld := ⟨R.CE_TCE, 16, 16⟩
abbrev CE_NIMP_NIMP : Fld := ⟨R.CE_NIMP, 0, 12⟩
abbrev CE_FLAG_SUM_PROG (n : Nat) : Fld := ⟨R.CE_FLAG_SUM n, 0, 32⟩
abbrev CE_CNT_ECC_CORR : Fld := ⟨R.CE_CNT_ECC, 0, 16⟩
abbrev CE_CNT_ECC_UNCORR : Fld := ⟨R.CE_CNT_ECC, 16, 16⟩
abbrev CE_PASS_COUNT : Fld := ⟨R.CE_PASS, 0, 32⟩
abbrev CE_PROG_RANGE_FIRST (p : Nat) : Fld := ⟨R.CE_PROG_RANGE p, 0, 12⟩
abbrev CE_PROG_RANGE_COUNT (p : Nat) : Fld := ⟨R.CE_PROG_RANGE p, 16, 13⟩
abbrev CE_PROG_CTRL_EN (p : Nat) : Fld := ⟨R.CE_PROG_CTRL p, 0, 1⟩
abbrev CE_PROG_CTRL_AW (p : Nat) : Fld := ⟨R.CE_PROG_CTRL p, 1, 1⟩
abbrev CE_PROG_CTRL_AW_DIR (p : Nat) : Fld := ⟨R.CE_PROG_CTRL p, 2, 1⟩
abbrev CE_PROG_CTRL_AW_USE (p : Nat) : Fld := ⟨R.CE_PROG_CTRL p, 3, 1⟩
abbrev CE_PROG_CTRL_AW_ENTRY (p : Nat) : Fld := ⟨R.CE_PROG_CTRL p, 16, 12⟩
abbrev CE_PROG_CMD_RESET (p : Nat) : Fld := ⟨R.CE_PROG_CMD p, 0, 1⟩
abbrev CE_PROG_STAT_ROUNDS (p : Nat) : Fld := ⟨R.CE_PROG_STAT p, 0, 13⟩
abbrev CE_PROG_STAT_OUT_SAT (p : Nat) : Fld := ⟨R.CE_PROG_STAT p, 13, 1⟩
abbrev CE_PROG_STAT_ACC_SAT (p : Nat) : Fld := ⟨R.CE_PROG_STAT p, 14, 1⟩
abbrev CE_PROG_STAT_FROZEN_NOW (p : Nat) : Fld := ⟨R.CE_PROG_STAT p, 15, 1⟩
abbrev CE_IMP_SRC_CLASS (j : Nat) : Fld := ⟨R.CE_IMP_SRC j, 0, 4⟩
abbrev CE_IMP_SRC_INDEX (j : Nat) : Fld := ⟨R.CE_IMP_SRC j, 4, 12⟩
abbrev CE_IMP_SRC_FIELD (j : Nat) : Fld := ⟨R.CE_IMP_SRC j, 16, 8⟩
abbrev CE_IMP_SRC_SHIFT (j : Nat) : Fld := ⟨R.CE_IMP_SRC j, 24, 4⟩
abbrev CE_IMP_DST_DST (j : Nat) : Fld := ⟨R.CE_IMP_DST j, 0, 13⟩
abbrev CE_IMP_DST_GAIN (j : Nat) : Fld := ⟨R.CE_IMP_DST j, 16, 16⟩
abbrev CE_SEC_OP_OP (e : Nat) : Fld := ⟨R.CE_SEC_OP e, 0, 4⟩
abbrev CE_SEC_OP_S (e : Nat) : Fld := ⟨R.CE_SEC_OP e, 4, 4⟩
abbrev CE_SEC_OP_NR (e : Nat) : Fld := ⟨R.CE_SEC_OP e, 8, 1⟩
abbrev CE_SEC_OP_INTEG (e : Nat) : Fld := ⟨R.CE_SEC_OP e, 9, 1⟩
abbrev CE_SEC_OP_LSIG (e : Nat) : Fld := ⟨R.CE_SEC_OP e, 10, 1⟩
abbrev CE_SEC_OP_INV (e : Nat) : Fld := ⟨R.CE_SEC_OP e, 11, 1⟩
abbrev CE_SEC_OP_PARAM (e : Nat) : Fld := ⟨R.CE_SEC_OP e, 16, 8⟩
abbrev CE_SEC_IN_IN0 (e : Nat) : Fld := ⟨R.CE_SEC_IN e, 0, 13⟩
abbrev CE_SEC_IN_IN1 (e : Nat) : Fld := ⟨R.CE_SEC_IN e, 16, 13⟩
abbrev CE_SEC_IO_IN2 (e : Nat) : Fld := ⟨R.CE_SEC_IO e, 0, 13⟩
abbrev CE_SEC_IO_OUT (e : Nat) : Fld := ⟨R.CE_SEC_IO e, 16, 13⟩
abbrev CE_SEC_C01_C0 (e : Nat) : Fld := ⟨R.CE_SEC_C01 e, 0, 16⟩
abbrev CE_SEC_C01_C1 (e : Nat) : Fld := ⟨R.CE_SEC_C01 e, 16, 16⟩
abbrev CE_SEC_C23_C2 (e : Nat) : Fld := ⟨R.CE_SEC_C23 e, 0, 16⟩
abbrev CE_SEC_C23_C3 (e : Nat) : Fld := ⟨R.CE_SEC_C23 e, 16, 16⟩
abbrev CE_SEC_C4_C4 (e : Nat) : Fld := ⟨R.CE_SEC_C4 e, 0, 16⟩
abbrev CE_SEC_FLAG_OUT_SAT (e : Nat) : Fld := ⟨R.CE_SEC_FLAG e, 0, 1⟩
abbrev CE_SEC_FLAG_ACC_SAT (e : Nat) : Fld := ⟨R.CE_SEC_FLAG e, 1, 1⟩
abbrev CE_SEC_FLAG_FROZEN (e : Nat) : Fld := ⟨R.CE_SEC_FLAG e, 2, 1⟩
abbrev CE_SEC_FLAG_LAST_SAT (e : Nat) : Fld := ⟨R.CE_SEC_FLAG e, 3, 2⟩
abbrev CE_SEC_S1_LO_STATE (e : Nat) : Fld := ⟨R.CE_SEC_S1_LO e, 0, 32⟩
abbrev CE_SEC_S1_HI_STATE (e : Nat) : Fld := ⟨R.CE_SEC_S1_HI e, 0, 32⟩
abbrev CE_SEC_S2_LO_STATE (e : Nat) : Fld := ⟨R.CE_SEC_S2_LO e, 0, 32⟩
abbrev CE_SEC_S2_HI_STATE (e : Nat) : Fld := ⟨R.CE_SEC_S2_HI e, 0, 32⟩
abbrev CE_SIG_VALUE (s : Nat) : Fld := ⟨R.CE_SIG s, 0, 16⟩
abbrev CE_SIG_OWN_OWN (w : Nat) : Fld := ⟨R.CE_SIG_OWN w, 0, 32⟩
abbrev GRID_CFG_FNOM : Fld := ⟨R.GRID_CFG, 0, 1⟩
abbrev GRID_CFG_JUMP_TH : Fld := ⟨R.GRID_CFG, 8, 8⟩
abbrev GRID_G_SHIFT_N1 : Fld := ⟨R.GRID_G_SHIFT, 0, 3⟩
abbrev GRID_G_SHIFT_N5 : Fld := ⟨R.GRID_G_SHIFT, 3, 3⟩
abbrev GRID_G_SHIFT_N7 : Fld := ⟨R.GRID_G_SHIFT, 6, 3⟩
abbrev GRID_G_SHIFT_N11 : Fld := ⟨R.GRID_G_SHIFT, 9, 3⟩
abbrev GRID_G_SHIFT_N13 : Fld := ⟨R.GRID_G_SHIFT, 12, 3⟩
abbrev GRID_PT_SRC_SUB (pt : Nat) : Fld := ⟨R.GRID_PT_SRC pt, 0, 6⟩
abbrev GRID_PT_SRC_SV_EN (pt : Nat) : Fld := ⟨R.GRID_PT_SRC pt, 6, 1⟩
abbrev GRID_PT_SRC_BSI_EN (pt : Nat) : Fld := ⟨R.GRID_PT_SRC pt, 7, 1⟩
abbrev GRID_PT_SRC_BSI_A (pt : Nat) : Fld := ⟨R.GRID_PT_SRC pt, 8, 4⟩
abbrev GRID_PT_SRC_BSI_B (pt : Nat) : Fld := ⟨R.GRID_PT_SRC pt, 12, 4⟩
abbrev GRID_PT_SRC_BSI_C (pt : Nat) : Fld := ⟨R.GRID_PT_SRC pt, 16, 4⟩
abbrev GRID_PT_CHAN_CH_A (pt : Nat) : Fld := ⟨R.GRID_PT_CHAN pt, 0, 8⟩
abbrev GRID_PT_CHAN_CH_B (pt : Nat) : Fld := ⟨R.GRID_PT_CHAN pt, 8, 8⟩
abbrev GRID_PT_CHAN_CH_C (pt : Nat) : Fld := ⟨R.GRID_PT_CHAN pt, 16, 8⟩
abbrev GRID_PT_VNOM_VNOM (pt : Nat) : Fld := ⟨R.GRID_PT_VNOM pt, 0, 16⟩
abbrev GRID_PT_DLY_SV_DLY (pt : Nat) : Fld := ⟨R.GRID_PT_DLY pt, 0, 16⟩
abbrev GRID_PT_DLY_BSI_DLY (pt : Nat) : Fld := ⟨R.GRID_PT_DLY pt, 16, 16⟩
abbrev GRID_PT_LAT_LAT_MAX (pt : Nat) : Fld := ⟨R.GRID_PT_LAT pt, 0, 8⟩
abbrev GRID_PT_FLL_K (pt : Nat) : Fld := ⟨R.GRID_PT_FLL pt, 0, 16⟩
abbrev GRID_PT_FLL_GAMMA (pt : Nat) : Fld := ⟨R.GRID_PT_FLL pt, 16, 16⟩
abbrev GRID_PT_STAT_FREQ_VALID (pt : Nat) : Fld := ⟨R.GRID_PT_STAT pt, 0, 1⟩
abbrev GRID_PT_STAT_ROCOF_VALID (pt : Nat) : Fld := ⟨R.GRID_PT_STAT pt, 1, 1⟩
abbrev GRID_PT_STAT_FREQ_HOLD (pt : Nat) : Fld := ⟨R.GRID_PT_STAT pt, 2, 1⟩
abbrev GRID_PT_STAT_SEQ_REVERSED (pt : Nat) : Fld := ⟨R.GRID_PT_STAT pt, 3, 1⟩
abbrev GRID_PT_STAT_SOURCE (pt : Nat) : Fld := ⟨R.GRID_PT_STAT pt, 4, 2⟩
abbrev GRID_PT_STAT_PH_VALID (pt : Nat) : Fld := ⟨R.GRID_PT_STAT pt, 6, 1⟩
abbrev GRID_PT_STAT_FSTATE (pt : Nat) : Fld := ⟨R.GRID_PT_STAT pt, 7, 3⟩
abbrev GRID_PT_STAT_BSI_FIT (pt : Nat) : Fld := ⟨R.GRID_PT_STAT pt, 10, 1⟩
abbrev GRID_PT_FREQ_FREQ (pt : Nat) : Fld := ⟨R.GRID_PT_FREQ pt, 0, 32⟩
abbrev GRID_PT_ROCOF_ROCOF (pt : Nat) : Fld := ⟨R.GRID_PT_ROCOF pt, 0, 32⟩
abbrev GRID_PT_VPOS_MAG (pt : Nat) : Fld := ⟨R.GRID_PT_VPOS pt, 0, 16⟩
abbrev GRID_PT_VPOS_ANGLE (pt : Nat) : Fld := ⟨R.GRID_PT_VPOS pt, 16, 16⟩
abbrev GRID_PT_VNEG_MAG (pt : Nat) : Fld := ⟨R.GRID_PT_VNEG pt, 0, 16⟩
abbrev GRID_PT_VNEG_ANGLE (pt : Nat) : Fld := ⟨R.GRID_PT_VNEG pt, 16, 16⟩
abbrev GRID_PT_CNT_RESETS (pt : Nat) : Fld := ⟨R.GRID_PT_CNT pt, 0, 8⟩
abbrev GRID_PT_CNT_JUMPS (pt : Nat) : Fld := ⟨R.GRID_PT_CNT pt, 8, 8⟩
abbrev GRID_PT_CNT_SRC_SW (pt : Nat) : Fld := ⟨R.GRID_PT_CNT pt, 16, 8⟩
abbrev GRID_PT_CNT_LOST (pt : Nat) : Fld := ⟨R.GRID_PT_CNT pt, 24, 8⟩
abbrev GRID_PT_BSI_ERR_MAG_ERR (pt : Nat) : Fld := ⟨R.GRID_PT_BSI_ERR pt, 0, 16⟩
abbrev GRID_PT_BSI_ERR_ANG_ERR (pt : Nat) : Fld := ⟨R.GRID_PT_BSI_ERR pt, 16, 16⟩
abbrev GRID_CLU_CFG_SYNC_PT (c : Nat) : Fld := ⟨R.GRID_CLU_CFG c, 0, 4⟩
abbrev GRID_CLU_CFG_LEAD_AUTO (c : Nat) : Fld := ⟨R.GRID_CLU_CFG c, 4, 1⟩
abbrev GRID_CLU_CFG_ZS_EN (c : Nat) : Fld := ⟨R.GRID_CLU_CFG c, 5, 1⟩
abbrev GRID_CLU_CFG_BAL_EN (c : Nat) : Fld := ⟨R.GRID_CLU_CFG c, 6, 1⟩
abbrev GRID_CLU_CFG_FF_EN (c : Nat) : Fld := ⟨R.GRID_CLU_CFG c, 7, 1⟩
abbrev GRID_CLU_CFG_PRIO (c : Nat) : Fld := ⟨R.GRID_CLU_CFG c, 8, 1⟩
abbrev GRID_CLU_CFG_IARM_NEG (c : Nat) : Fld := ⟨R.GRID_CLU_CFG c, 9, 1⟩
abbrev GRID_CLU_SIG_BASE (c : Nat) : Fld := ⟨R.GRID_CLU_SIG c, 0, 13⟩
abbrev GRID_CLU_SIG_PROG (c : Nat) : Fld := ⟨R.GRID_CLU_SIG c, 16, 8⟩
abbrev GRID_CLU_LEAD_T_LEAD (c : Nat) : Fld := ⟨R.GRID_CLU_LEAD c, 0, 22⟩
abbrev GRID_CLU_IBASE_IBASE (c : Nat) : Fld := ⟨R.GRID_CLU_IBASE c, 0, 16⟩
abbrev GRID_CLU_IBASE_IMAX (c : Nat) : Fld := ⟨R.GRID_CLU_IBASE c, 16, 16⟩
abbrev GRID_CLU_VDC_VDC_REF (c : Nat) : Fld := ⟨R.GRID_CLU_VDC c, 0, 16⟩
abbrev GRID_CLU_BAL_KP_BAL (c : Nat) : Fld := ⟨R.GRID_CLU_BAL c, 0, 8⟩
abbrev GRID_CLU_BAL_KI_BAL (c : Nat) : Fld := ⟨R.GRID_CLU_BAL c, 8, 8⟩
abbrev GRID_CLU_BAL_SMIN (c : Nat) : Fld := ⟨R.GRID_CLU_BAL c, 16, 8⟩
abbrev GRID_CLU_BAL_SMAX (c : Nat) : Fld := ⟨R.GRID_CLU_BAL c, 24, 8⟩
abbrev GRID_CLU_PH_KP_PH (c : Nat) : Fld := ⟨R.GRID_CLU_PH c, 0, 8⟩
abbrev GRID_CLU_PH_KI_PH (c : Nat) : Fld := ⟨R.GRID_CLU_PH c, 8, 8⟩
abbrev GRID_CLU_PH_ZS_MAX (c : Nat) : Fld := ⟨R.GRID_CLU_PH c, 16, 8⟩
abbrev GRID_CLU_PH_ZS_IMIN (c : Nat) : Fld := ⟨R.GRID_CLU_PH c, 24, 8⟩
abbrev GRID_CLU_DC_KP_DC (c : Nat) : Fld := ⟨R.GRID_CLU_DC c, 0, 8⟩
abbrev GRID_CLU_DC_KI_DC (c : Nat) : Fld := ⟨R.GRID_CLU_DC c, 8, 8⟩
abbrev GRID_CLU_STAT_IARM_OK (c : Nat) : Fld := ⟨R.GRID_CLU_STAT c, 0, 3⟩
abbrev GRID_CLU_STAT_RUN (c : Nat) : Fld := ⟨R.GRID_CLU_STAT c, 3, 1⟩
abbrev GRID_CLU_STAT_I_LIM (c : Nat) : Fld := ⟨R.GRID_CLU_STAT c, 4, 1⟩
abbrev GRID_CLU_STAT_ZS_SAT (c : Nat) : Fld := ⟨R.GRID_CLU_STAT c, 5, 1⟩
abbrev GRID_CLU_STAT_BAL_SAT (c : Nat) : Fld := ⟨R.GRID_CLU_STAT c, 6, 3⟩
abbrev GRID_CLU_STAT_BAL_FROZEN (c : Nat) : Fld := ⟨R.GRID_CLU_STAT c, 9, 3⟩
abbrev GRID_CLU_STAT_IARM_DIS (c : Nat) : Fld := ⟨R.GRID_CLU_STAT c, 12, 1⟩
abbrev GRID_CLU_IREF_ID (c : Nat) : Fld := ⟨R.GRID_CLU_IREF c, 0, 16⟩
abbrev GRID_CLU_IREF_IQ (c : Nat) : Fld := ⟨R.GRID_CLU_IREF c, 16, 16⟩
abbrev GRID_CLU_IREFN_ID (c : Nat) : Fld := ⟨R.GRID_CLU_IREFN c, 0, 16⟩
abbrev GRID_CLU_IREFN_IQ (c : Nat) : Fld := ⟨R.GRID_CLU_IREFN c, 16, 16⟩
abbrev GRID_CLU_U0_U0_D (c : Nat) : Fld := ⟨R.GRID_CLU_U0 c, 0, 16⟩
abbrev GRID_CLU_U0_U0_Q (c : Nat) : Fld := ⟨R.GRID_CLU_U0 c, 16, 16⟩
abbrev MPPT_CFG_EN : Fld := ⟨R.MPPT_CFG, 0, 1⟩
abbrev MPPT_CFG_STEP_MS : Fld := ⟨R.MPPT_CFG, 1, 10⟩
abbrev MPPT_CFG_MEAS_MS : Fld := ⟨R.MPPT_CFG, 11, 10⟩
abbrev MPPT_STEP_K_STEP : Fld := ⟨R.MPPT_STEP, 0, 8⟩
abbrev MPPT_STEP_S_MIN : Fld := ⟨R.MPPT_STEP, 8, 8⟩
abbrev MPPT_STEP_S_MAX : Fld := ⟨R.MPPT_STEP, 16, 8⟩
abbrev MPPT_STEP_DB : Fld := ⟨R.MPPT_STEP, 24, 8⟩
abbrev MPPT_SCAN_SCAN_MAX : Fld := ⟨R.MPPT_SCAN, 0, 2⟩
abbrev MPPT_SCAN_SCAN_INT : Fld := ⟨R.MPPT_SCAN, 2, 10⟩
abbrev MPPT_SCAN_SHADE_FRAC : Fld := ⟨R.MPPT_SCAN, 12, 8⟩
abbrev MPPT_LIMITS_INIT_FRAC : Fld := ⟨R.MPPT_LIMITS, 0, 8⟩
abbrev MPPT_LIMITS_VMIN_FRAC : Fld := ⟨R.MPPT_LIMITS, 8, 8⟩
abbrev MPPT_LIMITS_CLAMP_PCT : Fld := ⟨R.MPPT_LIMITS, 16, 8⟩
abbrev MPPT_LIMITS_DARK_FRAC : Fld := ⟨R.MPPT_LIMITS, 24, 8⟩
abbrev MPPT_CMD_INDEX : Fld := ⟨R.MPPT_CMD, 0, 10⟩
abbrev MPPT_CMD_CMD : Fld := ⟨R.MPPT_CMD, 10, 3⟩
abbrev MPPT_CNT_DEFER : Fld := ⟨R.MPPT_CNT, 0, 16⟩
abbrev MPPT_CNT_SCANS : Fld := ⟨R.MPPT_CNT, 16, 16⟩
abbrev MPPT_TYPE_RATE_PRATED (n : Nat) : Fld := ⟨R.MPPT_TYPE_RATE n, 0, 16⟩
abbrev MPPT_TYPE_RATE_VOC_NOM (n : Nat) : Fld := ⟨R.MPPT_TYPE_RATE n, 16, 16⟩
abbrev MPPT_CLU_PLIM_PLIM (c : Nat) : Fld := ⟨R.MPPT_CLU_PLIM c, 0, 16⟩
abbrev MPPT_CLU_PLIM_GSRC (c : Nat) : Fld := ⟨R.MPPT_CLU_PLIM c, 16, 11⟩
abbrev MPPT_CLU_PLIM_GSRC_EN (c : Nat) : Fld := ⟨R.MPPT_CLU_PLIM c, 27, 1⟩
abbrev MPPT_CLU_PAVAIL_P (c : Nat) : Fld := ⟨R.MPPT_CLU_PAVAIL c, 0, 16⟩
abbrev MPPT_CLU_PTGT_P (c : Nat) : Fld := ⟨R.MPPT_CLU_PTGT c, 0, 16⟩
abbrev MPPT_CLU_STAT_HOLD (c : Nat) : Fld := ⟨R.MPPT_CLU_STAT c, 0, 1⟩
abbrev MPPT_CLU_STAT_CURT (c : Nat) : Fld := ⟨R.MPPT_CLU_STAT c, 1, 1⟩
abbrev MPPT_CLU_STAT_BY_PLIM (c : Nat) : Fld := ⟨R.MPPT_CLU_STAT c, 2, 1⟩
abbrev MPPT_CLU_STAT_BY_RT (c : Nat) : Fld := ⟨R.MPPT_CLU_STAT c, 3, 1⟩
abbrev MPPT_CLU_STAT_SCANNING (c : Nat) : Fld := ⟨R.MPPT_CLU_STAT c, 4, 6⟩
abbrev MPPT_PH_CAP_CAP (c ph : Nat) : Fld := ⟨R.MPPT_PH_CAP c ph, 0, 16⟩
abbrev MPPT_PH_CAP_BOUND (c ph : Nat) : Fld := ⟨R.MPPT_PH_CAP c ph, 16, 2⟩
abbrev MPPT_PH_CAP_DARK (c ph : Nat) : Fld := ⟨R.MPPT_PH_CAP c ph, 18, 1⟩
abbrev MPPT_PH_CEIL_CEIL (c ph : Nat) : Fld := ⟨R.MPPT_PH_CEIL c ph, 0, 16⟩
abbrev MPPT_PH_CEIL_TGT (c ph : Nat) : Fld := ⟨R.MPPT_PH_CEIL c ph, 16, 16⟩
abbrev MPPT_CELL_STAT_MODE (i : Nat) : Fld := ⟨R.MPPT_CELL_STAT i, 0, 3⟩
abbrev MPPT_CELL_STAT_CURT (i : Nat) : Fld := ⟨R.MPPT_CELL_STAT i, 3, 1⟩
abbrev MPPT_CELL_STAT_DARK (i : Nat) : Fld := ⟨R.MPPT_CELL_STAT i, 4, 1⟩
abbrev MPPT_CELL_STAT_NO_REF (i : Nat) : Fld := ⟨R.MPPT_CELL_STAT i, 5, 1⟩
abbrev MPPT_CELL_STAT_QUEUED (i : Nat) : Fld := ⟨R.MPPT_CELL_STAT i, 6, 1⟩
abbrev MPPT_CELL_STAT_DEFER (i : Nat) : Fld := ⟨R.MPPT_CELL_STAT i, 8, 8⟩
abbrev MPPT_CELL_REF_VREF (i : Nat) : Fld := ⟨R.MPPT_CELL_REF i, 0, 16⟩
abbrev MPPT_CELL_REF_VOC_EST (i : Nat) : Fld := ⟨R.MPPT_CELL_REF i, 16, 16⟩
abbrev MPPT_CELL_PWR_PAVAIL (i : Nat) : Fld := ⟨R.MPPT_CELL_PWR i, 0, 16⟩
abbrev MPPT_CELL_PWR_PTGT (i : Nat) : Fld := ⟨R.MPPT_CELL_PWR i, 16, 16⟩
abbrev MPPT_CELL_SCAN_BEST_V (i : Nat) : Fld := ⟨R.MPPT_CELL_SCAN i, 0, 16⟩
abbrev MPPT_CELL_SCAN_AGE (i : Nat) : Fld := ⟨R.MPPT_CELL_SCAN i, 16, 16⟩
abbrev FRT_CFG_EVAL_DIV : Fld := ⟨R.FRT_CFG, 0, 7⟩
abbrev FRT_CLU_CFG_TABLE (c : Nat) : Fld := ⟨R.FRT_CLU_CFG c, 0, 2⟩
abbrev FRT_CLU_CFG_VSEL (c : Nat) : Fld := ⟨R.FRT_CLU_CFG c, 2, 2⟩
abbrev FRT_CLU_CFG_LV_P0 (c : Nat) : Fld := ⟨R.FRT_CLU_CFG c, 4, 1⟩
abbrev FRT_CLU_CFG_NEG_EN (c : Nat) : Fld := ⟨R.FRT_CLU_CFG c, 5, 1⟩
abbrev FRT_CLU_CFG_INJ_EN (c : Nat) : Fld := ⟨R.FRT_CLU_CFG c, 6, 1⟩
abbrev FRT_CLU_CURVE_LV (c : Nat) : Fld := ⟨R.FRT_CLU_CURVE c, 0, 6⟩
abbrev FRT_CLU_CURVE_HV (c : Nat) : Fld := ⟨R.FRT_CLU_CURVE c, 6, 6⟩
abbrev FRT_CLU_CURVE_KPOS (c : Nat) : Fld := ⟨R.FRT_CLU_CURVE c, 12, 6⟩
abbrev FRT_CLU_CURVE_KNEG (c : Nat) : Fld := ⟨R.FRT_CLU_CURVE c, 18, 6⟩
abbrev FRT_CLU_CURVE_RAMP (c : Nat) : Fld := ⟨R.FRT_CLU_CURVE c, 24, 6⟩
abbrev FRT_CLU_CMD_CMD (c : Nat) : Fld := ⟨R.FRT_CLU_CMD c, 0, 2⟩
abbrev FRT_CLU_STAT_STATE (c : Nat) : Fld := ⟨R.FRT_CLU_STAT c, 0, 4⟩
abbrev FRT_CLU_STAT_PREV (c : Nat) : Fld := ⟨R.FRT_CLU_STAT c, 4, 4⟩
abbrev FRT_CLU_STAT_ENTRY (c : Nat) : Fld := ⟨R.FRT_CLU_STAT c, 8, 6⟩
abbrev FRT_CLU_STAT_TRIP_OUT (c : Nat) : Fld := ⟨R.FRT_CLU_STAT c, 14, 1⟩
abbrev FRT_CLU_STAT_FORCED (c : Nat) : Fld := ⟨R.FRT_CLU_STAT c, 15, 1⟩
abbrev FRT_CLU_STAT_PEND (c : Nat) : Fld := ⟨R.FRT_CLU_STAT c, 16, 3⟩
abbrev FRT_CLU_U_U (c : Nat) : Fld := ⟨R.FRT_CLU_U c, 0, 16⟩
abbrev FRT_CLU_U_U_PRE (c : Nat) : Fld := ⟨R.FRT_CLU_U c, 16, 16⟩
abbrev FRT_CLU_TF_LO_NS (c : Nat) : Fld := ⟨R.FRT_CLU_TF_LO c, 0, 32⟩
abbrev FRT_CLU_TF_HI_NS (c : Nat) : Fld := ⟨R.FRT_CLU_TF_HI c, 0, 32⟩
abbrev FRT_CLU_PRT_P_RT (c : Nat) : Fld := ⟨R.FRT_CLU_PRT c, 0, 16⟩
abbrev FRT_CLU_PRT_P_PRE (c : Nat) : Fld := ⟨R.FRT_CLU_PRT c, 16, 16⟩
abbrev FRT_CLU_IRT_DIR (c : Nat) : Fld := ⟨R.FRT_CLU_IRT c, 0, 16⟩
abbrev FRT_CLU_IRT_INEG (c : Nat) : Fld := ⟨R.FRT_CLU_IRT c, 16, 16⟩
abbrev FRT_CLU_TIME_MS (c : Nat) : Fld := ⟨R.FRT_CLU_TIME c, 0, 32⟩
abbrev FRT_CLU_CNT_LV (c : Nat) : Fld := ⟨R.FRT_CLU_CNT c, 0, 8⟩
abbrev FRT_CLU_CNT_HV (c : Nat) : Fld := ⟨R.FRT_CLU_CNT c, 8, 8⟩
abbrev FRT_CLU_CNT_TRIPS (c : Nat) : Fld := ⟨R.FRT_CLU_CNT c, 16, 8⟩
abbrev FRT_CLU_CNT_FORCED (c : Nat) : Fld := ⟨R.FRT_CLU_CNT c, 24, 8⟩
abbrev FRT_CLU_QDISP_QSET (c : Nat) : Fld := ⟨R.FRT_CLU_QDISP c, 0, 16⟩
abbrev FRT_CLU_QDISP_GSRC (c : Nat) : Fld := ⟨R.FRT_CLU_QDISP c, 16, 11⟩
abbrev FRT_CLU_QDISP_GSRC_EN (c : Nat) : Fld := ⟨R.FRT_CLU_QDISP c, 27, 1⟩
abbrev ISL_CFG_PT : Fld := ⟨R.ISL_CFG, 0, 4⟩
abbrev ISL_CFG_DTT_EN : Fld := ⟨R.ISL_CFG, 4, 1⟩
abbrev ISL_CFG_DTT_VAL : Fld := ⟨R.ISL_CFG, 16, 11⟩
abbrev ISL_PASSIVE_ROCOF_TH : Fld := ⟨R.ISL_PASSIVE, 0, 16⟩
abbrev ISL_PASSIVE_VS_TH : Fld := ⟨R.ISL_PASSIVE, 16, 8⟩
abbrev ISL_PASSIVE_PDWELL : Fld := ⟨R.ISL_PASSIVE, 24, 8⟩
abbrev ISL_ACT_CFG_INJ : Fld := ⟨R.ISL_ACT_CFG, 0, 5⟩
abbrev ISL_ACT_CFG_ZTH : Fld := ⟨R.ISL_ACT_CFG, 16, 16⟩
abbrev ISL_SEED_SEED : Fld := ⟨R.ISL_SEED, 0, 16⟩
abbrev ISL_STAT_DTT : Fld := ⟨R.ISL_STAT, 0, 1⟩
abbrev ISL_STAT_DTT_VALID : Fld := ⟨R.ISL_STAT, 1, 1⟩
abbrev ISL_STAT_DTT_SEEN : Fld := ⟨R.ISL_STAT, 2, 1⟩
abbrev ISL_STAT_PASSIVE : Fld := ⟨R.ISL_STAT, 3, 1⟩
abbrev ISL_STAT_ACTIVE : Fld := ⟨R.ISL_STAT, 4, 1⟩
abbrev ISL_STAT_INJECTING : Fld := ⟨R.ISL_STAT, 5, 1⟩
abbrev ISL_STAT_Z_VALID : Fld := ⟨R.ISL_STAT, 6, 1⟩
abbrev ISL_ZNEG_Z : Fld := ⟨R.ISL_ZNEG, 0, 16⟩
abbrev ISL_ZNEG_COUNT : Fld := ⟨R.ISL_ZNEG, 16, 16⟩
abbrev ISL_DTT_TIME_LO_NS : Fld := ⟨R.ISL_DTT_TIME_LO, 0, 32⟩
abbrev ISL_DTT_TIME_HI_NS : Fld := ⟨R.ISL_DTT_TIME_HI, 0, 32⟩
abbrev TBL_CURVE_HDR_NPTS (n : Nat) : Fld := ⟨R.TBL_CURVE_HDR n, 0, 6⟩
abbrev TBL_CURVE_HDR_TYPE (n : Nat) : Fld := ⟨R.TBL_CURVE_HDR n, 6, 2⟩
abbrev TBL_CURVE_HDR_VALID (n : Nat) : Fld := ⟨R.TBL_CURVE_HDR n, 8, 1⟩
abbrev TBL_PT_X (n j : Nat) : Fld := ⟨R.TBL_PT n j, 0, 16⟩
abbrev TBL_PT_Y (n j : Nat) : Fld := ⟨R.TBL_PT n j, 16, 16⟩
abbrev TBL_SM_COND_FROM (t e : Nat) : Fld := ⟨R.TBL_SM_COND t e, 0, 4⟩
abbrev TBL_SM_COND_TO (t e : Nat) : Fld := ⟨R.TBL_SM_COND t e, 4, 4⟩
abbrev TBL_SM_COND_COND (t e : Nat) : Fld := ⟨R.TBL_SM_COND t e, 8, 5⟩
abbrev TBL_SM_COND_NEG (t e : Nat) : Fld := ⟨R.TBL_SM_COND t e, 13, 1⟩
abbrev TBL_SM_COND_THR (t e : Nat) : Fld := ⟨R.TBL_SM_COND t e, 16, 16⟩
abbrev TBL_SM_ACT_DWELL (t e : Nat) : Fld := ⟨R.TBL_SM_ACT t e, 0, 24⟩
abbrev TBL_SM_ACT_ACTION (t e : Nat) : Fld := ⟨R.TBL_SM_ACT t e, 24, 4⟩
abbrev PB_CFG_MODE : Fld := ⟨R.PB_CFG, 0, 1⟩
abbrev PB_CFG_ROLE0 : Fld := ⟨R.PB_CFG, 1, 1⟩
abbrev PB_CFG_ROLE1 : Fld := ⟨R.PB_CFG, 2, 1⟩
abbrev PB_CFG_PTP_PAIR : Fld := ⟨R.PB_CFG, 3, 1⟩
abbrev PB_CFG_TEST_ACCEPT : Fld := ⟨R.PB_CFG, 4, 1⟩
abbrev PB_CFG_SIM_ACCEPT : Fld := ⟨R.PB_CFG, 5, 1⟩
abbrev PB_PORT_STAT_LINK (n : Nat) : Fld := ⟨R.PB_PORT_STAT n, 0, 1⟩
abbrev PB_PORT_STAT_SFP (n : Nat) : Fld := ⟨R.PB_PORT_STAT n, 1, 1⟩
abbrev PB_PORT_STAT_LOS (n : Nat) : Fld := ⟨R.PB_PORT_STAT n, 2, 1⟩
abbrev PB_PORT_STAT_RX_ERR (n : Nat) : Fld := ⟨R.PB_PORT_STAT n, 16, 16⟩
abbrev PB_RED_STAT_A_OK (p : Nat) : Fld := ⟨R.PB_RED_STAT p, 0, 1⟩
abbrev PB_RED_STAT_B_OK (p : Nat) : Fld := ⟨R.PB_RED_STAT p, 1, 1⟩
abbrev PB_RED_STAT_RING_OK (p : Nat) : Fld := ⟨R.PB_RED_STAT p, 2, 1⟩
abbrev PB_RED_STAT_WRONG_LAN (p : Nat) : Fld := ⟨R.PB_RED_STAT p, 16, 16⟩
abbrev PB_CNT_DUP_COUNT (p : Nat) : Fld := ⟨R.PB_CNT_DUP p, 0, 32⟩
abbrev PB_CNT_UNMATCHED_COUNT (p : Nat) : Fld := ⟨R.PB_CNT_UNMATCHED p, 0, 32⟩
abbrev PB_CNT_OVERLOAD_COUNT (p : Nat) : Fld := ⟨R.PB_CNT_OVERLOAD p, 0, 32⟩
abbrev PB_MAC_LO_MAC (p : Nat) : Fld := ⟨R.PB_MAC_LO p, 0, 32⟩
abbrev PB_MAC_HI_MAC (p : Nat) : Fld := ⟨R.PB_MAC_HI p, 0, 32⟩
abbrev SV_SUB_DST_LO_MAC (s : Nat) : Fld := ⟨R.SV_SUB_DST_LO s, 0, 32⟩
abbrev SV_SUB_DST_HI_MAC (s : Nat) : Fld := ⟨R.SV_SUB_DST_HI s, 0, 16⟩
abbrev SV_SUB_DST_HI_APPID (s : Nat) : Fld := ⟨R.SV_SUB_DST_HI s, 16, 16⟩
abbrev SV_SUB_SRC_LO_MAC (s : Nat) : Fld := ⟨R.SV_SUB_SRC_LO s, 0, 32⟩
abbrev SV_SUB_SRC_HI_MAC (s : Nat) : Fld := ⟨R.SV_SUB_SRC_HI s, 0, 32⟩
abbrev SV_SUB_ID_CRC (s : Nat) : Fld := ⟨R.SV_SUB_ID s, 0, 32⟩
abbrev SV_SUB_CFG_EN (s : Nat) : Fld := ⟨R.SV_SUB_CFG s, 0, 1⟩
abbrev SV_SUB_CFG_RATE (s : Nat) : Fld := ⟨R.SV_SUB_CFG s, 1, 2⟩
abbrev SV_SUB_CFG_NASDU (s : Nat) : Fld := ⟨R.SV_SUB_CFG s, 3, 3⟩
abbrev SV_SUB_CFG_NCH (s : Nat) : Fld := ⟨R.SV_SUB_CFG s, 6, 5⟩
abbrev SV_SUB_CFG_SYNCH_LOCAL (s : Nat) : Fld := ⟨R.SV_SUB_CFG s, 11, 1⟩
abbrev SV_SUB_CFG_QUEST_OK (s : Nat) : Fld := ⟨R.SV_SUB_CFG s, 12, 1⟩
abbrev SV_SUB_CFG_PAIR (s : Nat) : Fld := ⟨R.SV_SUB_CFG s, 13, 1⟩
abbrev SV_SUB_CONFREV_CONFREV (s : Nat) : Fld := ⟨R.SV_SUB_CONFREV s, 0, 32⟩
abbrev SV_SUB_STAT_STATE (s : Nat) : Fld := ⟨R.SV_SUB_STAT s, 0, 3⟩
abbrev SV_SUB_STAT_GM_MISMATCH (s : Nat) : Fld := ⟨R.SV_SUB_STAT s, 3, 1⟩
abbrev SV_SUB_STAT_CONFREV_BAD (s : Nat) : Fld := ⟨R.SV_SUB_STAT s, 4, 1⟩
abbrev SV_SUB_STAT_CONFLICT (s : Nat) : Fld := ⟨R.SV_SUB_STAT s, 5, 1⟩
abbrev SV_SUB_STAT_SIM (s : Nat) : Fld := ⟨R.SV_SUB_STAT s, 6, 1⟩
abbrev SV_SUB_STAT_SMPCNT (s : Nat) : Fld := ⟨R.SV_SUB_STAT s, 16, 16⟩
abbrev SV_SUB_CNT_GOOD_COUNT (s : Nat) : Fld := ⟨R.SV_SUB_CNT_GOOD s, 0, 32⟩
abbrev SV_SUB_CNT_BAD_COUNT (s : Nat) : Fld := ⟨R.SV_SUB_CNT_BAD s, 0, 32⟩
abbrev SV_SUB_CNT_CONFLICT_COUNT (s : Nat) : Fld := ⟨R.SV_SUB_CNT_CONFLICT s, 0, 32⟩
abbrev SV_SUB_LAT_MEAN (s : Nat) : Fld := ⟨R.SV_SUB_LAT s, 0, 16⟩
abbrev SV_SUB_LAT_MAX (s : Nat) : Fld := ⟨R.SV_SUB_LAT s, 16, 16⟩
abbrev SV_PUB_DST_LO_MAC (q : Nat) : Fld := ⟨R.SV_PUB_DST_LO q, 0, 32⟩
abbrev SV_PUB_DST_HI_MAC (q : Nat) : Fld := ⟨R.SV_PUB_DST_HI q, 0, 16⟩
abbrev SV_PUB_DST_HI_APPID (q : Nat) : Fld := ⟨R.SV_PUB_DST_HI q, 16, 16⟩
abbrev SV_PUB_CFG_EN (q : Nat) : Fld := ⟨R.SV_PUB_CFG q, 0, 1⟩
abbrev SV_PUB_CFG_RATE (q : Nat) : Fld := ⟨R.SV_PUB_CFG q, 1, 1⟩
abbrev SV_PUB_CFG_NCH (q : Nat) : Fld := ⟨R.SV_PUB_CFG q, 2, 5⟩
abbrev SV_PUB_CFG_PAIR (q : Nat) : Fld := ⟨R.SV_PUB_CFG q, 7, 1⟩
abbrev SV_PUB_CFG_GMID (q : Nat) : Fld := ⟨R.SV_PUB_CFG q, 8, 1⟩
abbrev SV_PUB_CFG_VLAN (q : Nat) : Fld := ⟨R.SV_PUB_CFG q, 9, 12⟩
abbrev SV_PUB_CFG_PRIO (q : Nat) : Fld := ⟨R.SV_PUB_CFG q, 21, 3⟩
abbrev SV_PUB_CONFREV_CONFREV (q : Nat) : Fld := ⟨R.SV_PUB_CONFREV q, 0, 32⟩
abbrev SV_PUB_STAT_PAUSED (q : Nat) : Fld := ⟨R.SV_PUB_STAT q, 0, 1⟩
abbrev SV_PUB_STAT_SMPSYNCH (q : Nat) : Fld := ⟨R.SV_PUB_STAT q, 1, 2⟩
abbrev SV_PUB_STAT_LAT (q : Nat) : Fld := ⟨R.SV_PUB_STAT q, 3, 13⟩
abbrev SV_PUB_STAT_SMPCNT (q : Nat) : Fld := ⟨R.SV_PUB_STAT q, 16, 16⟩
abbrev SV_PUB_CH_SIG (q ch : Nat) : Fld := ⟨R.SV_PUB_CH q ch, 0, 13⟩
abbrev SV_PUB_CH_TYPE (q ch : Nat) : Fld := ⟨R.SV_PUB_CH q ch, 13, 1⟩
abbrev SV_PUB_CH_QEN (q ch : Nat) : Fld := ⟨R.SV_PUB_CH q ch, 15, 1⟩
abbrev SV_PUB_CH_SCALE (q ch : Nat) : Fld := ⟨R.SV_PUB_CH q ch, 16, 16⟩
abbrev SV_PUB_QSIG_QSIG (q ch : Nat) : Fld := ⟨R.SV_PUB_QSIG q ch, 0, 13⟩
abbrev GOOSE_SUB_DST_LO_MAC (g : Nat) : Fld := ⟨R.GOOSE_SUB_DST_LO g, 0, 32⟩
abbrev GOOSE_SUB_DST_HI_MAC (g : Nat) : Fld := ⟨R.GOOSE_SUB_DST_HI g, 0, 16⟩
abbrev GOOSE_SUB_DST_HI_APPID (g : Nat) : Fld := ⟨R.GOOSE_SUB_DST_HI g, 16, 16⟩
abbrev GOOSE_SUB_SRC_LO_MAC (g : Nat) : Fld := ⟨R.GOOSE_SUB_SRC_LO g, 0, 32⟩
abbrev GOOSE_SUB_SRC_HI_MAC (g : Nat) : Fld := ⟨R.GOOSE_SUB_SRC_HI g, 0, 32⟩
abbrev GOOSE_SUB_ID_CRC (g : Nat) : Fld := ⟨R.GOOSE_SUB_ID g, 0, 32⟩
abbrev GOOSE_SUB_CFG_EN (g : Nat) : Fld := ⟨R.GOOSE_SUB_CFG g, 0, 1⟩
abbrev GOOSE_SUB_CFG_SAFETY (g : Nat) : Fld := ⟨R.GOOSE_SUB_CFG g, 1, 1⟩
abbrev GOOSE_SUB_CFG_PAIR (g : Nat) : Fld := ⟨R.GOOSE_SUB_CFG g, 2, 1⟩
abbrev GOOSE_SUB_CFG_NMEM (g : Nat) : Fld := ⟨R.GOOSE_SUB_CFG g, 3, 6⟩
abbrev GOOSE_SUB_CONFREV_CONFREV (g : Nat) : Fld := ⟨R.GOOSE_SUB_CONFREV g, 0, 32⟩
abbrev GOOSE_SUB_STAT_VALID (g : Nat) : Fld := ⟨R.GOOSE_SUB_STAT g, 0, 1⟩
abbrev GOOSE_SUB_STAT_NDSCOM (g : Nat) : Fld := ⟨R.GOOSE_SUB_STAT g, 1, 1⟩
abbrev GOOSE_SUB_STAT_TEST (g : Nat) : Fld := ⟨R.GOOSE_SUB_STAT g, 2, 1⟩
abbrev GOOSE_SUB_STAT_CONFREV_BAD (g : Nat) : Fld := ⟨R.GOOSE_SUB_STAT g, 3, 1⟩
abbrev GOOSE_SUB_STAT_CONFLICT (g : Nat) : Fld := ⟨R.GOOSE_SUB_STAT g, 4, 1⟩
abbrev GOOSE_SUB_STAT_OLD (g : Nat) : Fld := ⟨R.GOOSE_SUB_STAT g, 16, 16⟩
abbrev GOOSE_SUB_STNUM_NUM (g : Nat) : Fld := ⟨R.GOOSE_SUB_STNUM g, 0, 32⟩
abbrev GOOSE_SUB_SQNUM_NUM (g : Nat) : Fld := ⟨R.GOOSE_SUB_SQNUM g, 0, 32⟩
abbrev GOOSE_SUB_ARR_LO_NS (g : Nat) : Fld := ⟨R.GOOSE_SUB_ARR_LO g, 0, 32⟩
abbrev GOOSE_SUB_ARR_HI_NS (g : Nat) : Fld := ⟨R.GOOSE_SUB_ARR_HI g, 0, 32⟩
abbrev GOOSE_VAL_MAP_SUB (v : Nat) : Fld := ⟨R.GOOSE_VAL_MAP v, 0, 7⟩
abbrev GOOSE_VAL_MAP_MEM (v : Nat) : Fld := ⟨R.GOOSE_VAL_MAP v, 7, 6⟩
abbrev GOOSE_VAL_MAP_TYPE (v : Nat) : Fld := ⟨R.GOOSE_VAL_MAP v, 13, 3⟩
abbrev GOOSE_VAL_MAP_DEC (v : Nat) : Fld := ⟨R.GOOSE_VAL_MAP v, 16, 2⟩
abbrev GOOSE_VAL_MAP_QEN (v : Nat) : Fld := ⟨R.GOOSE_VAL_MAP v, 18, 1⟩
abbrev GOOSE_VAL_MAP_QMEM (v : Nat) : Fld := ⟨R.GOOSE_VAL_MAP v, 19, 6⟩
abbrev GOOSE_VAL_DATA_VALUE (v : Nat) : Fld := ⟨R.GOOSE_VAL_DATA v, 0, 16⟩
abbrev GOOSE_VAL_DATA_VALID (v : Nat) : Fld := ⟨R.GOOSE_VAL_DATA v, 16, 1⟩
abbrev GOOSE_PUB_MEM_SRC (q m : Nat) : Fld := ⟨R.GOOSE_PUB_MEM q m, 0, 13⟩
abbrev GOOSE_PUB_MEM_KIND (q m : Nat) : Fld := ⟨R.GOOSE_PUB_MEM q m, 13, 3⟩
abbrev GOOSE_PUB_MEM_BIT (q m : Nat) : Fld := ⟨R.GOOSE_PUB_MEM q m, 16, 4⟩
abbrev PTP_PORT_STAT_ACTIVE_LAN : Fld := ⟨R.PTP_PORT_STAT, 0, 1⟩
abbrev PTP_PORT_STAT_A_MASTER : Fld := ⟨R.PTP_PORT_STAT, 1, 1⟩
abbrev PTP_PORT_STAT_B_MASTER : Fld := ⟨R.PTP_PORT_STAT, 2, 1⟩
abbrev PTP_PORT_STAT_SWITCHES : Fld := ⟨R.PTP_PORT_STAT, 16, 16⟩
abbrev PTP_GM_ID_LO_ID : Fld := ⟨R.PTP_GM_ID_LO, 0, 32⟩
abbrev PTP_GM_ID_HI_ID : Fld := ⟨R.PTP_GM_ID_HI, 0, 32⟩
abbrev PTP_PDELAY_A_NS : Fld := ⟨R.PTP_PDELAY_A, 0, 32⟩
abbrev PTP_PDELAY_B_NS : Fld := ⟨R.PTP_PDELAY_B, 0, 32⟩
abbrev GOOSE_PUB_DST_LO_MAC (q : Nat) : Fld := ⟨R.GOOSE_PUB_DST_LO q, 0, 32⟩
abbrev GOOSE_PUB_DST_HI_MAC (q : Nat) : Fld := ⟨R.GOOSE_PUB_DST_HI q, 0, 16⟩
abbrev GOOSE_PUB_DST_HI_APPID (q : Nat) : Fld := ⟨R.GOOSE_PUB_DST_HI q, 16, 16⟩
abbrev GOOSE_PUB_CFG_EN (q : Nat) : Fld := ⟨R.GOOSE_PUB_CFG q, 0, 1⟩
abbrev GOOSE_PUB_CFG_SAFETY (q : Nat) : Fld := ⟨R.GOOSE_PUB_CFG q, 1, 1⟩
abbrev GOOSE_PUB_CFG_PAIR (q : Nat) : Fld := ⟨R.GOOSE_PUB_CFG q, 2, 1⟩
abbrev GOOSE_PUB_CFG_NMEM (q : Nat) : Fld := ⟨R.GOOSE_PUB_CFG q, 3, 6⟩
abbrev GOOSE_PUB_CFG_TMIN (q : Nat) : Fld := ⟨R.GOOSE_PUB_CFG q, 9, 5⟩
abbrev GOOSE_PUB_CFG_T0 (q : Nat) : Fld := ⟨R.GOOSE_PUB_CFG q, 14, 10⟩
abbrev GOOSE_PUB_STNUM_NUM (q : Nat) : Fld := ⟨R.GOOSE_PUB_STNUM q, 0, 32⟩
abbrev GOOSE_PUB_SQNUM_NUM (q : Nat) : Fld := ⟨R.GOOSE_PUB_SQNUM q, 0, 32⟩
abbrev MTR_CFG_INT_LEN : Fld := ⟨R.MTR_CFG, 0, 3⟩
abbrev MTR_STATUS_ACC_RESTORED : Fld := ⟨R.MTR_STATUS, 0, 1⟩
abbrev MTR_INT_SEQ_LO_SEQ : Fld := ⟨R.MTR_INT_SEQ_LO, 0, 32⟩
abbrev MTR_INT_SEQ_HI_SEQ : Fld := ⟨R.MTR_INT_SEQ_HI, 0, 32⟩
abbrev MTR_PT_CFG_EN (m : Nat) : Fld := ⟨R.MTR_PT_CFG m, 0, 1⟩
abbrev MTR_PT_CFG_WIRE (m : Nat) : Fld := ⟨R.MTR_PT_CFG m, 1, 1⟩
abbrev MTR_PT_CFG_SRC (m : Nat) : Fld := ⟨R.MTR_PT_CFG m, 2, 1⟩
abbrev MTR_PT_CFG_DIR (m : Nat) : Fld := ⟨R.MTR_PT_CFG m, 3, 1⟩
abbrev MTR_PT_CFG_FPT (m : Nat) : Fld := ⟨R.MTR_PT_CFG m, 4, 4⟩
abbrev MTR_PT_CFG_VSUB (m : Nat) : Fld := ⟨R.MTR_PT_CFG m, 8, 6⟩
abbrev MTR_PT_CFG_ISUB (m : Nat) : Fld := ⟨R.MTR_PT_CFG m, 14, 6⟩
abbrev MTR_PT_VCH_CH_A (m : Nat) : Fld := ⟨R.MTR_PT_VCH m, 0, 8⟩
abbrev MTR_PT_VCH_CH_B (m : Nat) : Fld := ⟨R.MTR_PT_VCH m, 8, 8⟩
abbrev MTR_PT_VCH_CH_C (m : Nat) : Fld := ⟨R.MTR_PT_VCH m, 16, 8⟩
abbrev MTR_PT_VCH_CH_N (m : Nat) : Fld := ⟨R.MTR_PT_VCH m, 24, 8⟩
abbrev MTR_PT_ICH_CH_A (m : Nat) : Fld := ⟨R.MTR_PT_ICH m, 0, 8⟩
abbrev MTR_PT_ICH_CH_B (m : Nat) : Fld := ⟨R.MTR_PT_ICH m, 8, 8⟩
abbrev MTR_PT_ICH_CH_C (m : Nat) : Fld := ⟨R.MTR_PT_ICH m, 16, 8⟩
abbrev MTR_PT_ICH_CH_N (m : Nat) : Fld := ⟨R.MTR_PT_ICH m, 24, 8⟩
abbrev MTR_PT_NOM_VNOM (m : Nat) : Fld := ⟨R.MTR_PT_NOM m, 0, 16⟩
abbrev MTR_PT_NOM_INOM (m : Nat) : Fld := ⟨R.MTR_PT_NOM m, 16, 16⟩
abbrev MTR_PT_NTH_NDISP (m : Nat) : Fld := ⟨R.MTR_PT_NTH m, 0, 8⟩
abbrev MTR_PT_NTH_IN_TH (m : Nat) : Fld := ⟨R.MTR_PT_NTH m, 8, 8⟩
abbrev MTR_PT_CMD_CLR_E (m : Nat) : Fld := ⟨R.MTR_PT_CMD m, 0, 1⟩
abbrev MTR_PT_STAT_VALID (m : Nat) : Fld := ⟨R.MTR_PT_STAT m, 0, 1⟩
abbrev MTR_PT_STAT_UNSYNC (m : Nat) : Fld := ⟨R.MTR_PT_STAT m, 1, 1⟩
abbrev MTR_PT_STAT_V_SEQ_WRONG (m : Nat) : Fld := ⟨R.MTR_PT_STAT m, 2, 1⟩
abbrev MTR_PT_STAT_I_SEQ_WRONG (m : Nat) : Fld := ⟨R.MTR_PT_STAT m, 3, 1⟩
abbrev MTR_PT_STAT_N_MISSING (m : Nat) : Fld := ⟨R.MTR_PT_STAT m, 4, 1⟩
abbrev MTR_PT_STAT_N_UNAVAIL (m : Nat) : Fld := ⟨R.MTR_PT_STAT m, 5, 1⟩
abbrev MTR_PT_STAT_HCUT (m : Nat) : Fld := ⟨R.MTR_PT_STAT m, 6, 6⟩
abbrev MTR_PT_STAT_VOIDS (m : Nat) : Fld := ⟨R.MTR_PT_STAT m, 12, 20⟩
abbrev MTR_PT_P_VALUE (m ph : Nat) : Fld := ⟨R.MTR_PT_P m ph, 0, 32⟩
abbrev MTR_PT_Q_VALUE (m ph : Nat) : Fld := ⟨R.MTR_PT_Q m ph, 0, 32⟩
abbrev MTR_PT_S_VALUE (m ph : Nat) : Fld := ⟨R.MTR_PT_S m ph, 0, 32⟩
abbrev MTR_PT_VRMS_VALUE (m ph : Nat) : Fld := ⟨R.MTR_PT_VRMS m ph, 0, 32⟩
abbrev MTR_PT_IRMS_VALUE (m ph : Nat) : Fld := ⟨R.MTR_PT_IRMS m ph, 0, 32⟩
abbrev MTR_PT_SEQ_VNEG (m : Nat) : Fld := ⟨R.MTR_PT_SEQ m, 0, 16⟩
abbrev MTR_PT_SEQ_VZERO (m : Nat) : Fld := ⟨R.MTR_PT_SEQ m, 16, 16⟩
abbrev MTR_PT_THD_THD_V (m ph : Nat) : Fld := ⟨R.MTR_PT_THD m ph, 0, 16⟩
abbrev MTR_PT_THD_THD_I (m ph : Nat) : Fld := ⟨R.MTR_PT_THD m ph, 16, 16⟩
abbrev MTR_PT_E_LO_MWH (m r : Nat) : Fld := ⟨R.MTR_PT_E_LO m r, 0, 32⟩
abbrev MTR_PT_E_HI_MWH (m r : Nat) : Fld := ⟨R.MTR_PT_E_HI m r, 0, 32⟩
abbrev MTR_PT_ILAST_FLAGS (m : Nat) : Fld := ⟨R.MTR_PT_ILAST m, 0, 9⟩
abbrev MTR_PT_ILAST_VOID_S (m : Nat) : Fld := ⟨R.MTR_PT_ILAST m, 16, 16⟩
abbrev MTR_PT_INOW_FLAGS (m : Nat) : Fld := ⟨R.MTR_PT_INOW m, 0, 9⟩
abbrev MTR_HARM_VALUE (m k : Nat) : Fld := ⟨R.MTR_HARM m k, 0, 32⟩
abbrev IADC_CFG_NENT : Fld := ⟨R.IADC_CFG, 0, 5⟩
abbrev IADC_CFG_FPT : Fld := ⟨R.IADC_CFG, 5, 4⟩
abbrev IADC_CFG_ROUND_MS : Fld := ⟨R.IADC_CFG, 16, 16⟩
abbrev IADC_STATUS_DEPTH : Fld := ⟨R.IADC_STATUS, 0, 7⟩
abbrev IADC_STATUS_LOST : Fld := ⟨R.IADC_STATUS, 7, 9⟩
abbrev IADC_STATUS_OVERRUN : Fld := ⟨R.IADC_STATUS, 16, 8⟩
abbrev IADC_STATUS_BUSY : Fld := ⟨R.IADC_STATUS, 24, 1⟩
abbrev IADC_SEQ_CH (n : Nat) : Fld := ⟨R.IADC_SEQ n, 0, 6⟩
abbrev IADC_SEQ_GAIN (n : Nat) : Fld := ⟨R.IADC_SEQ n, 6, 3⟩
abbrev IADC_SEQ_LEN (n : Nat) : Fld := ⟨R.IADC_SEQ n, 9, 8⟩
abbrev IADC_Q_LO_ENTRY : Fld := ⟨R.IADC_Q_LO, 0, 32⟩
abbrev IADC_Q_HI_ENTRY : Fld := ⟨R.IADC_Q_HI, 0, 32⟩
abbrev IADC_PEEK_LO_ENTRY : Fld := ⟨R.IADC_PEEK_LO, 0, 32⟩
abbrev IADC_PEEK_HI_ENTRY : Fld := ⟨R.IADC_PEEK_HI, 0, 32⟩
abbrev IADC_LAST_WORD (n : Nat) : Fld := ⟨R.IADC_LAST n, 0, 32⟩
abbrev CMP_CFG_MODE (c : Nat) : Fld := ⟨R.CMP_CFG c, 0, 3⟩
abbrev CMP_CFG_FUNC (c : Nat) : Fld := ⟨R.CMP_CFG c, 3, 1⟩
abbrev CMP_CFG_LATCH (c : Nat) : Fld := ⟨R.CMP_CFG c, 4, 2⟩
abbrev CMP_CFG_CLR_LEG (c : Nat) : Fld := ⟨R.CMP_CFG c, 6, 5⟩
abbrev CMP_CFG_SAFE (c : Nat) : Fld := ⟨R.CMP_CFG c, 11, 1⟩
abbrev CMP_CFG_M (c : Nat) : Fld := ⟨R.CMP_CFG c, 12, 4⟩
abbrev CMP_CFG_N (c : Nat) : Fld := ⟨R.CMP_CFG c, 16, 4⟩
abbrev CMP_CFG_FDIV (c : Nat) : Fld := ⟨R.CMP_CFG c, 20, 4⟩
abbrev CMP_CFG_TICK (c : Nat) : Fld := ⟨R.CMP_CFG c, 24, 8⟩
abbrev CMP_THR_LO (c : Nat) : Fld := ⟨R.CMP_THR c, 0, 10⟩
abbrev CMP_THR_HI (c : Nat) : Fld := ⟨R.CMP_THR c, 16, 10⟩
abbrev CMP_ROUTE_LEGS (c : Nat) : Fld := ⟨R.CMP_ROUTE c, 0, 24⟩
abbrev CMP_STAT_TRIP (c : Nat) : Fld := ⟨R.CMP_STAT c, 0, 1⟩
abbrev CMP_STAT_FILT (c : Nat) : Fld := ⟨R.CMP_STAT c, 1, 1⟩
abbrev CMP_STAT_SETTLED (c : Nat) : Fld := ⟨R.CMP_STAT c, 2, 1⟩
abbrev CMP_STAT_TRIP_CH (c : Nat) : Fld := ⟨R.CMP_STAT c, 3, 1⟩
abbrev CMP_STAT_TRIPS (c : Nat) : Fld := ⟨R.CMP_STAT c, 16, 16⟩
abbrev BSI_CFG_EN (b : Nat) : Fld := ⟨R.BSI_CFG b, 0, 1⟩
abbrev BSI_CFG_INT_EN (b : Nat) : Fld := ⟨R.BSI_CFG b, 1, 1⟩
abbrev BSI_CFG_OSR (b : Nat) : Fld := ⟨R.BSI_CFG b, 2, 8⟩
abbrev BSI_CFG_INT_FC (b : Nat) : Fld := ⟨R.BSI_CFG b, 10, 9⟩
abbrev BSI_SCALE_FS (b : Nat) : Fld := ⟨R.BSI_SCALE b, 0, 24⟩
abbrev BSI_SCALE_UNIT (b : Nat) : Fld := ⟨R.BSI_SCALE b, 24, 1⟩
abbrev BSI_STAT_RUNNING (b : Nat) : Fld := ⟨R.BSI_STAT b, 0, 1⟩
abbrev BSI_STAT_OVERRANGE (b : Nat) : Fld := ⟨R.BSI_STAT b, 1, 1⟩
abbrev BSI_STAT_GD (b : Nat) : Fld := ⟨R.BSI_STAT b, 16, 16⟩
abbrev BSI_VALUE_VALUE (b : Nat) : Fld := ⟨R.BSI_VALUE b, 0, 32⟩
abbrev LEG_CTRL_EN (l : Nat) : Fld := ⟨R.LEG_CTRL l, 0, 1⟩
abbrev LEG_STATUS_STATE (l : Nat) : Fld := ⟨R.LEG_STATUS l, 0, 3⟩
abbrev LEG_STATUS_REFUSE (l : Nat) : Fld := ⟨R.LEG_STATUS l, 3, 3⟩
abbrev LEG_STATUS_DIAG_RES (l : Nat) : Fld := ⟨R.LEG_STATUS l, 6, 2⟩
abbrev LEG_STATUS_DIAG_DONE (l : Nat) : Fld := ⟨R.LEG_STATUS l, 8, 1⟩
abbrev LEG_DIAG_V0 (l : Nat) : Fld := ⟨R.LEG_DIAG l, 0, 16⟩
abbrev LEG_DIAG_V1 (l : Nat) : Fld := ⟨R.LEG_DIAG l, 16, 16⟩
abbrev REC_CFG_LAYOUT : Fld := ⟨R.REC_CFG, 0, 1⟩
abbrev REC_CFG_BIF0 : Fld := ⟨R.REC_CFG, 1, 1⟩
abbrev REC_CFG_BIF1 : Fld := ⟨R.REC_CFG, 2, 1⟩
abbrev REC_CFG_AUTO_ADD : Fld := ⟨R.REC_CFG, 3, 1⟩
abbrev REC_CFG_FLUSH_MS : Fld := ⟨R.REC_CFG, 4, 8⟩
abbrev REC_CFG_REBUILD : Fld := ⟨R.REC_CFG, 12, 8⟩
abbrev REC_STATUS_STATE : Fld := ⟨R.REC_STATUS, 0, 3⟩
abbrev REC_STATUS_SEQ_RESTORED : Fld := ⟨R.REC_STATUS, 3, 1⟩
abbrev REC_STATUS_STAGE_PCT : Fld := ⟨R.REC_STATUS, 4, 7⟩
abbrev REC_STATUS_PEAK_PCT : Fld := ⟨R.REC_STATUS, 11, 7⟩
abbrev REC_CMD_CMD : Fld := ⟨R.REC_CMD, 0, 3⟩
abbrev REC_CMD_DRIVE : Fld := ⟨R.REC_CMD, 3, 2⟩
abbrev REC_HEALTH_RECORDING : Fld := ⟨R.REC_HEALTH, 0, 1⟩
abbrev REC_HEALTH_MIRRORED : Fld := ⟨R.REC_HEALTH, 1, 1⟩
abbrev REC_HEALTH_STAGE_HIGH : Fld := ⟨R.REC_HEALTH, 2, 1⟩
abbrev REC_HEALTH_GAP : Fld := ⟨R.REC_HEALTH, 3, 1⟩
abbrev REC_HEALTH_CAP_SHORT : Fld := ⟨R.REC_HEALTH, 4, 1⟩
abbrev REC_HEALTH_DRIVE_FAULT : Fld := ⟨R.REC_HEALTH, 5, 1⟩
abbrev REC_STAGE_WM_WM1 : Fld := ⟨R.REC_STAGE_WM, 0, 7⟩
abbrev REC_STAGE_WM_WM2 : Fld := ⟨R.REC_STAGE_WM, 8, 7⟩
abbrev REC_STAGE_WM_WM3 : Fld := ⟨R.REC_STAGE_WM, 16, 7⟩
abbrev REC_EXPORT_LIMIT : Fld := ⟨R.REC_EXPORT, 0, 7⟩
abbrev REC_EXPORT_ACTIVE : Fld := ⟨R.REC_EXPORT, 7, 4⟩
abbrev REC_DRV_CFG_EN (d : Nat) : Fld := ⟨R.REC_DRV_CFG d, 0, 1⟩
abbrev REC_DRV_CFG_PLP (d : Nat) : Fld := ⟨R.REC_DRV_CFG d, 1, 1⟩
abbrev REC_DRV_STAT_STATE (d : Nat) : Fld := ⟨R.REC_DRV_STAT d, 0, 3⟩
abbrev REC_DRV_STAT_CAUSE (d : Nat) : Fld := ⟨R.REC_DRV_STAT d, 3, 4⟩
abbrev REC_DRV_STAT_WIDTH (d : Nat) : Fld := ⟨R.REC_DRV_STAT d, 7, 2⟩
abbrev REC_DRV_STAT_SLOW (d : Nat) : Fld := ⟨R.REC_DRV_STAT d, 9, 1⟩
abbrev REC_DRV_STAT_VWC_OFF (d : Nat) : Fld := ⟨R.REC_DRV_STAT d, 10, 1⟩
abbrev REC_DRV_FLIGHT_NOW (d : Nat) : Fld := ⟨R.REC_DRV_FLIGHT d, 0, 9⟩
abbrev REC_DRV_FLIGHT_MAX (d : Nat) : Fld := ⟨R.REC_DRV_FLIGHT d, 9, 9⟩
abbrev REC_DRV_ERR_WRITE (d : Nat) : Fld := ⟨R.REC_DRV_ERR d, 0, 12⟩
abbrev REC_DRV_ERR_READ (d : Nat) : Fld := ⟨R.REC_DRV_ERR d, 12, 12⟩
abbrev REC_DRV_ERR_ABORT (d : Nat) : Fld := ⟨R.REC_DRV_ERR d, 24, 8⟩
abbrev REC_DRV_SMART_PCT_USED (d : Nat) : Fld := ⟨R.REC_DRV_SMART d, 0, 8⟩
abbrev REC_DRV_SMART_CRIT (d : Nat) : Fld := ⟨R.REC_DRV_SMART d, 8, 8⟩
abbrev REC_DRV_SMART_TEMP (d : Nat) : Fld := ⟨R.REC_DRV_SMART d, 16, 16⟩
abbrev REC_DRV_NSEG_NSEG (d : Nat) : Fld := ⟨R.REC_DRV_NSEG d, 0, 32⟩
abbrev REC_PAIR_STAT_STATE (p : Nat) : Fld := ⟨R.REC_PAIR_STAT p, 0, 3⟩
abbrev REC_PAIR_STAT_REBUILD_PCT (p : Nat) : Fld := ⟨R.REC_PAIR_STAT p, 3, 7⟩
abbrev REC_PAIR_HEAD_LO_PSEG (p : Nat) : Fld := ⟨R.REC_PAIR_HEAD_LO p, 0, 32⟩
abbrev REC_PAIR_HEAD_HI_PSEG (p : Nat) : Fld := ⟨R.REC_PAIR_HEAD_HI p, 0, 32⟩
abbrev REC_PAIR_OLDEST_LO_PSEG (p : Nat) : Fld := ⟨R.REC_PAIR_OLDEST_LO p, 0, 32⟩
abbrev REC_PAIR_OLDEST_HI_PSEG (p : Nat) : Fld := ⟨R.REC_PAIR_OLDEST_HI p, 0, 32⟩
abbrev REC_CAP_CFG_PRE : Fld := ⟨R.REC_CAP_CFG, 0, 6⟩
abbrev REC_CAP_CFG_POST : Fld := ⟨R.REC_CAP_CFG, 6, 9⟩
abbrev REC_CAP_CFG_MAXLEN : Fld := ⟨R.REC_CAP_CFG, 15, 8⟩
abbrev REC_CAP_CFG_SRC : Fld := ⟨R.REC_CAP_CFG, 23, 5⟩
abbrev REC_CAP_GOOSE_VAL : Fld := ⟨R.REC_CAP_GOOSE, 0, 11⟩
abbrev REC_CAP_SIG_FIRST : Fld := ⟨R.REC_CAP_SIG, 0, 13⟩
abbrev REC_CAP_SIG_COUNT : Fld := ⟨R.REC_CAP_SIG, 13, 10⟩
abbrev REC_CAP_CMD_TRIGGER : Fld := ⟨R.REC_CAP_CMD, 0, 1⟩
abbrev REC_CAP_STAT_ACTIVE : Fld := ⟨R.REC_CAP_STAT, 0, 1⟩
abbrev REC_CAP_STAT_BLOCKED : Fld := ⟨R.REC_CAP_STAT, 1, 1⟩
abbrev REC_CAP_STAT_PENDING : Fld := ⟨R.REC_CAP_STAT, 2, 5⟩
abbrev REC_CAP_STAT_PINNED : Fld := ⟨R.REC_CAP_STAT, 7, 14⟩
abbrev REC_CAP_STAT_HIST : Fld := ⟨R.REC_CAP_STAT, 21, 11⟩
abbrev REC_CAP_LAST_CAP_ID : Fld := ⟨R.REC_CAP_LAST, 0, 24⟩
abbrev REC_CAP_LAST_FLAGS : Fld := ⟨R.REC_CAP_LAST, 24, 4⟩
abbrev REC_STRM_CFG_EN (s : Nat) : Fld := ⟨R.REC_STRM_CFG s, 0, 1⟩
abbrev REC_STRM_CFG_PRIO (s : Nat) : Fld := ⟨R.REC_STRM_CFG s, 1, 2⟩
abbrev REC_STRM_CFG_KIND (s : Nat) : Fld := ⟨R.REC_STRM_CFG s, 3, 3⟩
abbrev REC_STRM_CFG_SRC (s : Nat) : Fld := ⟨R.REC_STRM_CFG s, 6, 13⟩
abbrev REC_STRM_CFG_CNT (s : Nat) : Fld := ⟨R.REC_STRM_CFG s, 19, 10⟩
abbrev REC_STRM_DEC_DEC (s : Nat) : Fld := ⟨R.REC_STRM_DEC s, 0, 16⟩
abbrev REC_STRM_DEC_RATE (s : Nat) : Fld := ⟨R.REC_STRM_DEC s, 16, 16⟩
abbrev REC_STRM_SEQ_LO_SEQ (s : Nat) : Fld := ⟨R.REC_STRM_SEQ_LO s, 0, 32⟩
abbrev REC_STRM_SEQ_HI_SEQ (s : Nat) : Fld := ⟨R.REC_STRM_SEQ_HI s, 0, 32⟩
abbrev REC_STRM_FRONT_LO_SEQ (s : Nat) : Fld := ⟨R.REC_STRM_FRONT_LO s, 0, 32⟩
abbrev REC_STRM_FRONT_HI_SEQ (s : Nat) : Fld := ⟨R.REC_STRM_FRONT_HI s, 0, 32⟩
abbrev REC_STRM_DROP_PENDING (s : Nat) : Fld := ⟨R.REC_STRM_DROP s, 0, 16⟩
abbrev REC_STRM_DROP_TOTAL (s : Nat) : Fld := ⟨R.REC_STRM_DROP s, 16, 16⟩
abbrev WEAR_CFG_EN : Fld := ⟨R.WEAR_CFG, 0, 1⟩
abbrev WEAR_CFG_UPD : Fld := ⟨R.WEAR_CFG, 1, 7⟩
abbrev WEAR_CFG_HYST : Fld := ⟨R.WEAR_CFG, 8, 8⟩
abbrev WEAR_EWMA_TS : Fld := ⟨R.WEAR_EWMA, 0, 16⟩
abbrev WEAR_EWMA_TF : Fld := ⟨R.WEAR_EWMA, 16, 16⟩
abbrev WEAR_BIN_DT_BIN : Fld := ⟨R.WEAR_BIN, 0, 8⟩
abbrev WEAR_BIN_TM_BASE : Fld := ⟨R.WEAR_BIN, 8, 8⟩
abbrev WEAR_BIN_TM_STEP : Fld := ⟨R.WEAR_BIN, 16, 8⟩
abbrev WEAR_POLICY_AUTO_RET : Fld := ⟨R.WEAR_POLICY, 0, 1⟩
abbrev WEAR_POLICY_MIN_MARGIN : Fld := ⟨R.WEAR_POLICY, 1, 4⟩
abbrev WEAR_POLICY_MAX_DAY : Fld := ⟨R.WEAR_POLICY, 5, 4⟩
abbrev WEAR_POLICY_NONURG_H : Fld := ⟨R.WEAR_POLICY, 16, 16⟩
abbrev WEAR_STATUS_FAULT : Fld := ⟨R.WEAR_STATUS, 0, 1⟩
abbrev WEAR_STATUS_MATRIX_PARTIAL : Fld := ⟨R.WEAR_STATUS, 1, 1⟩
abbrev WEAR_STATUS_SUSPENDED : Fld := ⟨R.WEAR_STATUS, 2, 1⟩
abbrev WEAR_STATUS_RET_24H : Fld := ⟨R.WEAR_STATUS, 3, 4⟩
abbrev WEAR_STATUS_EVALS : Fld := ⟨R.WEAR_STATUS, 16, 16⟩
abbrev WEAR_LAST_EVAL_LO_NS : Fld := ⟨R.WEAR_LAST_EVAL_LO, 0, 32⟩
abbrev WEAR_LAST_EVAL_HI_NS : Fld := ⟨R.WEAR_LAST_EVAL_HI, 0, 32⟩
abbrev WEAR_MOD_LIFE_HOURS : Fld := ⟨R.WEAR_MOD_LIFE, 0, 32⟩
abbrev WEAR_MOD_PART_PART : Fld := ⟨R.WEAR_MOD_PART, 0, 4⟩
abbrev WEAR_RF_SEL_CELL : Fld := ⟨R.WEAR_RF_SEL, 0, 10⟩
abbrev WEAR_PART_LIFE_HOURS (p : Nat) : Fld := ⟨R.WEAR_PART_LIFE p, 0, 32⟩
abbrev WEAR_PART_VAL_VALUE (p : Nat) : Fld := ⟨R.WEAR_PART_VAL p, 0, 32⟩
abbrev WEAR_TYPE_R01_R1 (n : Nat) : Fld := ⟨R.WEAR_TYPE_R01 n, 0, 16⟩
abbrev WEAR_TYPE_R01_R2 (n : Nat) : Fld := ⟨R.WEAR_TYPE_R01 n, 16, 16⟩
abbrev WEAR_TYPE_R23_R3 (n : Nat) : Fld := ⟨R.WEAR_TYPE_R23 n, 0, 16⟩
abbrev WEAR_TYPE_R23_R4 (n : Nat) : Fld := ⟨R.WEAR_TYPE_R23 n, 16, 16⟩
abbrev WEAR_TYPE_TAU01_TAU1 (n : Nat) : Fld := ⟨R.WEAR_TYPE_TAU01 n, 0, 16⟩
abbrev WEAR_TYPE_TAU01_TAU2 (n : Nat) : Fld := ⟨R.WEAR_TYPE_TAU01 n, 16, 16⟩
abbrev WEAR_TYPE_TAU23_TAU3 (n : Nat) : Fld := ⟨R.WEAR_TYPE_TAU23 n, 0, 16⟩
abbrev WEAR_TYPE_TAU23_TAU4 (n : Nat) : Fld := ⟨R.WEAR_TYPE_TAU23 n, 16, 16⟩
abbrev WEAR_TYPE_ESW_ESW (n : Nat) : Fld := ⟨R.WEAR_TYPE_ESW n, 0, 16⟩
abbrev WEAR_TYPE_ESW_I_REF (n : Nat) : Fld := ⟨R.WEAR_TYPE_ESW n, 16, 16⟩
abbrev WEAR_TYPE_VREF_V_REF (n : Nat) : Fld := ⟨R.WEAR_TYPE_VREF n, 0, 16⟩
abbrev WEAR_TYPE_VREF_ESR_LIM (n : Nat) : Fld := ⟨R.WEAR_TYPE_VREF n, 16, 8⟩
abbrev WEAR_TYPE_VREF_C_LIM (n : Nat) : Fld := ⟨R.WEAR_TYPE_VREF n, 24, 8⟩
abbrev WEAR_NF_L_EVEN (n k : Nat) : Fld := ⟨R.WEAR_NF n k, 0, 16⟩
abbrev WEAR_NF_L_ODD (n k : Nat) : Fld := ⟨R.WEAR_NF n k, 16, 16⟩
abbrev WEAR_RF_COUNT (i j : Nat) : Fld := ⟨R.WEAR_RF i j, 0, 32⟩
abbrev WEAR_CELL_STAT_MODEL (i : Nat) : Fld := ⟨R.WEAR_CELL_STAT i, 0, 1⟩
abbrev WEAR_CELL_STAT_VALID (i : Nat) : Fld := ⟨R.WEAR_CELL_STAT i, 1, 1⟩
abbrev WEAR_CELL_STAT_CANDIDATE (i : Nat) : Fld := ⟨R.WEAR_CELL_STAT i, 2, 1⟩
abbrev WEAR_CELL_STAT_URGENT (i : Nat) : Fld := ⟨R.WEAR_CELL_STAT i, 3, 1⟩
abbrev WEAR_CELL_STAT_NO_VCE (i : Nat) : Fld := ⟨R.WEAR_CELL_STAT i, 4, 1⟩
abbrev WEAR_CELL_STAT_REC_PEND (i : Nat) : Fld := ⟨R.WEAR_CELL_STAT i, 5, 1⟩
abbrev WEAR_CELL_STAT_LIMIT (i : Nat) : Fld := ⟨R.WEAR_CELL_STAT i, 6, 2⟩
abbrev WEAR_CELL_CTRL_HOLD_OFF (i : Nat) : Fld := ⟨R.WEAR_CELL_CTRL i, 0, 1⟩
abbrev WEAR_CELL_TJ_TJ0 (i : Nat) : Fld := ⟨R.WEAR_CELL_TJ i, 0, 16⟩
abbrev WEAR_CELL_TJ_TJ1 (i : Nat) : Fld := ⟨R.WEAR_CELL_TJ i, 16, 16⟩
abbrev WEAR_CELL_D0_LO_D (i : Nat) : Fld := ⟨R.WEAR_CELL_D0_LO i, 0, 32⟩
abbrev WEAR_CELL_D0_HI_D (i : Nat) : Fld := ⟨R.WEAR_CELL_D0_HI i, 0, 32⟩
abbrev WEAR_CELL_D1_LO_D (i : Nat) : Fld := ⟨R.WEAR_CELL_D1_LO i, 0, 32⟩
abbrev WEAR_CELL_D1_HI_D (i : Nat) : Fld := ⟨R.WEAR_CELL_D1_HI i, 0, 32⟩
abbrev WEAR_CELL_RS_RATE (i : Nat) : Fld := ⟨R.WEAR_CELL_RS i, 0, 32⟩
abbrev WEAR_CELL_RF_RATE (i : Nat) : Fld := ⟨R.WEAR_CELL_RF i, 0, 32⟩
abbrev WEAR_CELL_LIFE_HOURS (i : Nat) : Fld := ⟨R.WEAR_CELL_LIFE i, 0, 32⟩
abbrev WEAR_CELL_ESR_ESR (i : Nat) : Fld := ⟨R.WEAR_CELL_ESR i, 0, 16⟩
abbrev WEAR_CELL_ESR_ESR0 (i : Nat) : Fld := ⟨R.WEAR_CELL_ESR i, 16, 16⟩
abbrev WEAR_CELL_CAP_C (i : Nat) : Fld := ⟨R.WEAR_CELL_CAP i, 0, 16⟩
abbrev WEAR_CELL_CAP_C0 (i : Nat) : Fld := ⟨R.WEAR_CELL_CAP i, 16, 16⟩
abbrev WEAR_CELL_HOURS_HOURS (i : Nat) : Fld := ⟨R.WEAR_CELL_HOURS i, 0, 32⟩
abbrev SAFE_STATE_STATE : Fld := ⟨R.SAFE_STATE, 0, 3⟩
abbrev SAFE_STATE_OUT_A : Fld := ⟨R.SAFE_STATE, 3, 1⟩
abbrev SAFE_STATE_OUT_B : Fld := ⟨R.SAFE_STATE, 4, 1⟩
abbrev SAFE_STATE_PARAM_PENDING : Fld := ⟨R.SAFE_STATE, 5, 1⟩
abbrev SAFE_STATE_ENABLING : Fld := ⟨R.SAFE_STATE, 6, 1⟩
abbrev SAFE_CAUSE_NOW : Fld := ⟨R.SAFE_CAUSE, 0, 9⟩
abbrev SAFE_CAUSE_LATCH : Fld := ⟨R.SAFE_CAUSE, 16, 9⟩
abbrev SAFE_INPUTS_DOOR_A : Fld := ⟨R.SAFE_INPUTS, 0, 1⟩
abbrev SAFE_INPUTS_DOOR_B : Fld := ⟨R.SAFE_INPUTS, 1, 1⟩
abbrev SAFE_INPUTS_ESTOP_A : Fld := ⟨R.SAFE_INPUTS, 2, 1⟩
abbrev SAFE_INPUTS_ESTOP_B : Fld := ⟨R.SAFE_INPUTS, 3, 1⟩
abbrev SAFE_INPUTS_RESET : Fld := ⟨R.SAFE_INPUTS, 4, 1⟩
abbrev SAFE_INPUTS_STARTUP_DONE : Fld := ⟨R.SAFE_INPUTS, 5, 1⟩
abbrev SAFE_PARAM_ID_ID : Fld := ⟨R.SAFE_PARAM_ID, 0, 32⟩
abbrev SAFE_PARAM_SIG_SIG : Fld := ⟨R.SAFE_PARAM_SIG, 0, 32⟩
abbrev SAFE_TSEQ_TSEQ : Fld := ⟨R.SAFE_TSEQ, 0, 16⟩
abbrev SAFE_CNT_DEMANDS : Fld := ⟨R.SAFE_CNT, 0, 16⟩
abbrev SAFE_CNT_FAULTS : Fld := ⟨R.SAFE_CNT, 16, 16⟩
abbrev SAFE_DEMAND_T_LO_NS : Fld := ⟨R.SAFE_DEMAND_T_LO, 0, 32⟩
abbrev SAFE_DEMAND_T_HI_NS : Fld := ⟨R.SAFE_DEMAND_T_HI, 0, 32⟩
abbrev SAFE_CONS_STAT_STATE (c : Nat) : Fld := ⟨R.SAFE_CONS_STAT c, 0, 3⟩
abbrev SAFE_CONS_STAT_PERMIT (c : Nat) : Fld := ⟨R.SAFE_CONS_STAT c, 3, 1⟩
abbrev SAFE_CONS_STAT_ERRORS (c : Nat) : Fld := ⟨R.SAFE_CONS_STAT c, 4, 12⟩
abbrev SAFE_CONS_STAT_SEQ (c : Nat) : Fld := ⟨R.SAFE_CONS_STAT c, 16, 16⟩
abbrev SAFE_PROD_STAT_EN (q : Nat) : Fld := ⟨R.SAFE_PROD_STAT q, 0, 1⟩
abbrev SAFE_PROD_STAT_SEQ (q : Nat) : Fld := ⟨R.SAFE_PROD_STAT q, 16, 16⟩
abbrev SAFE_ENABLE_MASK (r w : Nat) : Fld := ⟨R.SAFE_ENABLE r w, 0, 32⟩
abbrev CFG_STATUS_STATE : Fld := ⟨R.CFG_STATUS, 0, 3⟩
abbrev CFG_STATUS_SLOT : Fld := ⟨R.CFG_STATUS, 3, 1⟩
abbrev CFG_STATUS_FALLBACK : Fld := ⟨R.CFG_STATUS, 4, 1⟩
abbrev CFG_STATUS_TRIAL : Fld := ⟨R.CFG_STATUS, 5, 1⟩
abbrev CFG_STATUS_OPEN_KEY : Fld := ⟨R.CFG_STATUS, 6, 1⟩
abbrev CFG_STATUS_READY_PART : Fld := ⟨R.CFG_STATUS, 7, 1⟩
abbrev CFG_STATUS_CAUSE : Fld := ⟨R.CFG_STATUS, 8, 4⟩
abbrev CFG_STATUS_FAIL_SEC : Fld := ⟨R.CFG_STATUS, 16, 8⟩
abbrev CFG_STATUS_FAIL_CHECK : Fld := ⟨R.CFG_STATUS, 24, 8⟩
abbrev CFG_IMG_VER_IMG_VER : Fld := ⟨R.CFG_IMG_VER, 0, 32⟩
abbrev CFG_IF_VER_MINOR : Fld := ⟨R.CFG_IF_VER, 0, 16⟩
abbrev CFG_IF_VER_MAJOR : Fld := ⟨R.CFG_IF_VER, 16, 16⟩
abbrev CFG_HW_REV_REV : Fld := ⟨R.CFG_HW_REV, 0, 5⟩
abbrev CFG_CMD_CMD : Fld := ⟨R.CFG_CMD, 0, 3⟩
abbrev CFG_CMD_SLOT : Fld := ⟨R.CFG_CMD, 3, 1⟩
abbrev CFG_VERIFY_VALID_A : Fld := ⟨R.CFG_VERIFY, 0, 1⟩
abbrev CFG_VERIFY_VALID_B : Fld := ⟨R.CFG_VERIFY, 1, 1⟩
abbrev CFG_VERIFY_CAUSE_A : Fld := ⟨R.CFG_VERIFY, 4, 4⟩
abbrev CFG_VERIFY_CAUSE_B : Fld := ⟨R.CFG_VERIFY, 8, 4⟩
abbrev CFG_SLOT_VER_A_IMG_VER : Fld := ⟨R.CFG_SLOT_VER_A, 0, 32⟩
abbrev CFG_SLOT_VER_B_IMG_VER : Fld := ⟨R.CFG_SLOT_VER_B, 0, 32⟩
abbrev CFG_BOOT_PREFER : Fld := ⟨R.CFG_BOOT, 0, 1⟩
abbrev CFG_BOOT_TRIAL : Fld := ⟨R.CFG_BOOT, 1, 1⟩
abbrev CFG_BOOT_TRIES : Fld := ⟨R.CFG_BOOT, 2, 2⟩
abbrev CFG_BOOT_FW_PREFER : Fld := ⟨R.CFG_BOOT, 4, 1⟩
abbrev CFG_BOOT_FW_REGION : Fld := ⟨R.CFG_BOOT, 5, 1⟩
abbrev CFG_BOOT_MS_RUNNING : Fld := ⟨R.CFG_BOOT_MS, 0, 16⟩
abbrev CFG_BOOT_MS_READY : Fld := ⟨R.CFG_BOOT_MS, 16, 16⟩
abbrev XSPI_CFG_FREQ : Fld := ⟨R.XSPI_CFG, 0, 3⟩
abbrev XSPI_STATUS_BUSY : Fld := ⟨R.XSPI_STATUS, 0, 1⟩
abbrev XSPI_STATUS_XIP : Fld := ⟨R.XSPI_STATUS, 1, 1⟩
abbrev XSPI_STATUS_ERROR : Fld := ⟨R.XSPI_STATUS, 2, 1⟩
abbrev XSPI_STATUS_PROT : Fld := ⟨R.XSPI_STATUS, 3, 1⟩
abbrev XSPI_CMD_FMT_CMD_LANES : Fld := ⟨R.XSPI_CMD_FMT, 0, 2⟩
abbrev XSPI_CMD_FMT_CMD_DTR : Fld := ⟨R.XSPI_CMD_FMT, 2, 1⟩
abbrev XSPI_CMD_FMT_CMD_LEN : Fld := ⟨R.XSPI_CMD_FMT, 3, 1⟩
abbrev XSPI_CMD_FMT_ADDR_LANES : Fld := ⟨R.XSPI_CMD_FMT, 4, 2⟩
abbrev XSPI_CMD_FMT_ADDR_DTR : Fld := ⟨R.XSPI_CMD_FMT, 6, 1⟩
abbrev XSPI_CMD_FMT_ADDR_LEN : Fld := ⟨R.XSPI_CMD_FMT, 7, 2⟩
abbrev XSPI_CMD_FMT_DUMMY : Fld := ⟨R.XSPI_CMD_FMT, 9, 5⟩
abbrev XSPI_CMD_FMT_DATA_LANES : Fld := ⟨R.XSPI_CMD_FMT, 14, 2⟩
abbrev XSPI_CMD_FMT_DATA_DTR : Fld := ⟨R.XSPI_CMD_FMT, 16, 1⟩
abbrev XSPI_CMD_FMT_DIR : Fld := ⟨R.XSPI_CMD_FMT, 17, 1⟩
abbrev XSPI_CMD_FMT_DQS : Fld := ⟨R.XSPI_CMD_FMT, 18, 1⟩
abbrev XSPI_CMD_FMT_SEL : Fld := ⟨R.XSPI_CMD_FMT, 19, 3⟩
abbrev XSPI_CMD_OP_OPCODE : Fld := ⟨R.XSPI_CMD_OP, 0, 16⟩
abbrev XSPI_CMD_ADDR_ADDR : Fld := ⟨R.XSPI_CMD_ADDR, 0, 32⟩
abbrev XSPI_CMD_LEN_LEN : Fld := ⟨R.XSPI_CMD_LEN, 0, 9⟩
abbrev XSPI_CMD_GO_GO : Fld := ⟨R.XSPI_CMD_GO, 0, 1⟩
abbrev XSPI_DATA_DATA (w : Nat) : Fld := ⟨R.XSPI_DATA w, 0, 32⟩

/-- R415: the STATE field of domain `d` (0–15 in PWR_STATE_LO, 16–20 in PWR_STATE_HI). -/
abbrev PWR_STATE (d : Nat) : Fld :=
  if d < 16 then ⟨R.PWR_STATE_LO, 2 * d, 2⟩ else ⟨R.PWR_STATE_HI, 2 * (d - 16), 2⟩

/-- R144: the owner of signal `s` (0–8,191). -/
abbrev CE_SIG_OWNER (s : Nat) : Fld := ⟨R.CE_SIG_OWN (s / 16), 2 * (s % 16), 2⟩

end Sys2Proof.Machine.F
end

