-- ==== Sys2Proof/Machine/RegReset.lean ====
section
/-! DEFINITION. The Reset column of the register maps (R13): the word each register holds after power-up of its
domain from off. Registers not named here reset to 0. Values the spec takes from ROM or OTP are constants of Config;
values retained in Crema are 0 at the first power-up (the log entry on reset values names them). -/

namespace Sys2Proof.Machine

def resetWord0 (r : Reg) : Nat :=
  let i := r.i
  match r.id with
  | 0 => 0xDD10240  -- DEV_ID
  | 5 => 0x306  -- DEV_PROTO
  | 6 => 0x30314E44  -- DEV_CODE_LO
  | 7 => 0x4D2D3432  -- DEV_CODE_HI
  | 10 => 0x64  -- CLK_OUT_CFG
  | 16 => 0x500  -- TIME_PTP_CFG
  | 19 => 0xFFFFFFFF  -- TIME_UNCERT
  | 24 => 0x21  -- RTC_CAL_DATE
  | 31 => 0x1FFFBE  -- PWR_WAKE_SET
  | 32 => 0x64DD  -- PWR_WAKE_CFG
  | 36 => 0x8  -- CREMA_STICKY
  | 37 => 0x9  -- CREMA_CFG
  | 39 => 0xFFFF  -- CREMA_CELL_AGE
  | 47 => 0x73  -- THM_CFG
  | 48 => 0x11B58  -- THM_CP
  | 52 => 0x3  -- LANE_STATUS
  | 53 => 0xD  -- LANE_CFG
  | 63 => 0xF  -- VOTE_STATUS
  | 64 => 0xFFFF  -- VOTE_MERGE
  | 70 => 0x414  -- POUR_CFG
  | 71 => 0x1  -- POUR_NEXT_ID
  | 100 => 0x18010A  -- LOG_GRIND_CFG
  | 104 => 0x79  -- MGMT_CFG
  | 110 => 0x53C07  -- ACC_POLICY
  | 116 => 0x8  -- RING_CTRL
  | 118 => 0xFFFF  -- RING_BREAK
  | 144 => 0x1388  -- RING_CTL_PERIOD
  | 147 => (i % 128) + (i / 128) * 2 ^ 8  -- CELL_INFO
  | 148 => 0x3  -- CELL_CFG
  | 153 => 0xFFFF0000  -- CELL_DIAG
  | 161 => 0xFFFF  -- CELL_TLM_AGE
  | 162 => 0x3CD0000  -- CELL_CLU_CFG
  | 164 => 0xFF  -- CELL_PHASE_STAT
  | 167 => 0x11432103  -- CELL_CTRL
  | 172 => 0x23E990  -- PWM_TYPE_TIME
  | 173 => 0x320A03  -- PWM_TYPE_TRIP
  | 174 => 0x7A1200  -- PWM_CLU_CFG
  | 185 => 0x7A1200  -- PWM_LEG_CFG
  | 188 => 0xC864  -- PWM_LEG_TIME
  | 189 => 0xA03  -- PWM_LEG_TRIP
  | _ => 0

def resetWord1 (r : Reg) : Nat :=
  let i := r.i
  match r.id with
  | 218 => 0x1E00  -- GRID_CFG
  | 224 => 0x14  -- GRID_PT_LAT
  | 225 => 0x2E5A82  -- GRID_PT_FLL
  | 226 => 0x30  -- GRID_PT_STAT
  | 233 => (i + 1) + 16 + 32 + 64 + 128  -- GRID_CLU_CFG
  | 236 => 0x40000000  -- GRID_CLU_IBASE
  | 237 => 0x2710  -- GRID_CLU_VDC
  | 238 => 0xC0401420  -- GRID_CLU_BAL
  | 239 => 0xD960508  -- GRID_CLU_PH
  | 240 => 0xA04  -- GRID_CLU_DC
  | 245 => 0x190C9  -- MPPT_CFG
  | 246 => 0xA140232  -- MPPT_STEP
  | 247 => 0xDA03E  -- MPPT_SCAN
  | 248 => 0x1A148DCD  -- MPPT_LIMITS
  | 251 => 0x2CEC1770  -- MPPT_TYPE_RATE
  | 252 => 0xFFFF  -- MPPT_CLU_PLIM
  | 256 => 0xFFFF  -- MPPT_PH_CAP
  | 259 => 0xFFFF  -- MPPT_CELL_REF
  | 261 => 0xFFFF0000  -- MPPT_CELL_SCAN
  | 262 => 0xA  -- FRT_CFG
  | 264 => 0x3FFFFFFF  -- FRT_CLU_CURVE
  | 266 => 0x77  -- FRT_CLU_STAT
  | 267 => 0x40000000  -- FRT_CLU_U
  | 276 => 0xA0C07D0  -- ISL_PASSIVE
  | 277 => 0x1F40005  -- ISL_ACT_CFG
  | 278 => 0xACE1  -- ISL_SEED
  | 287 => 0x4  -- PB_CFG
  | 288 => 0x4  -- PB_PORT_STAT
  | 300 => 0x1C8  -- SV_SUB_CFG
  | 301 => 0x1  -- SV_SUB_CONFREV
  | 309 => 0x80001C  -- SV_PUB_CFG
  | 320 => 0x1  -- GOOSE_SUB_CONFREV
  | 336 => 0x28400  -- GOOSE_PUB_CFG
  | 337 => 0x1  -- GOOSE_PUB_STNUM
  | 339 => 0x3  -- MTR_CFG
  | 343 => (i) * 2 ^ 4  -- MTR_PT_CFG
  | 344 => 0xFF000000  -- MTR_PT_VCH
  | 345 => 0xFF000000  -- MTR_PT_ICH
  | 347 => 0x31A  -- MTR_PT_NTH
  | 362 => 0x3E80000  -- IADC_CFG
  | _ => 0

def resetWord2 (r : Reg) : Nat :=
  match r.id with
  | 364 => 0x400  -- IADC_SEQ
  | 370 => 0x10117C0  -- CMP_CFG
  | 371 => 0x3FF0000  -- CMP_THR
  | 374 => 0xE1F4  -- BSI_CFG
  | 381 => 0x32648  -- REC_CFG
  | 385 => 0x324B5A  -- REC_STAGE_WM
  | 386 => 0x64  -- REC_EXPORT
  | 387 => 0x1  -- REC_DRV_CFG
  | 398 => 0xF8F0A14  -- REC_CAP_CFG
  | 404 => if r.i < 3 then 1 + (5 + r.i) * 8 else 6  -- REC_STRM_CFG
  | 405 => 0xA  -- REC_STRM_DEC
  | 411 => 0xA15  -- WEAR_CFG
  | 412 => 0x1802D0  -- WEAR_EWMA
  | 413 => 0xA0032  -- WEAR_BIN
  | 414 => 0x2D00043  -- WEAR_POLICY
  | 415 => 0x2  -- WEAR_STATUS
  | 418 => 0xFFFFFFFF  -- WEAR_MOD_LIFE
  | 421 => 0xFFFFFFFF  -- WEAR_PART_LIFE
  | 425 => 0x10001  -- WEAR_TYPE_TAU01
  | 426 => 0x10001  -- WEAR_TYPE_TAU23
  | 427 => 0x640000  -- WEAR_TYPE_ESW
  | 428 => 0xE68003E8  -- WEAR_TYPE_VREF
  | 429 => 0xFFFFFFFF  -- WEAR_NF
  | 440 => 0xFFFFFFFF  -- WEAR_CELL_LIFE
  | 456 => 0x40  -- CFG_STATUS
  | 458 => 0x10004  -- CFG_IF_VER
  | 466 => 0x5  -- XSPI_CFG
  | _ => 0

/-- The word a register resets to (the Reset column of its map). -/
def resetWord (r : Reg) : Word :=
  if r.id = 1 ∨ r.id = 2 ∨ r.id = 3 ∨ r.id = 49 ∨ r.id = 293 ∨ r.id = 294 ∨ r.id = 459 then Config.otpWord r.id r.i
  else if r.id = 216 then (if r.i = 1 then 0x4000#32 else 0#32)
  else if r.id = 217 then (if r.i = 0 then 0xF#32 else 0#32)
  else if r.id ≤ 189 then BitVec.ofNat 32 (resetWord0 r)
  else if r.id ≤ 362 then BitVec.ofNat 32 (resetWord1 r)
  else BitVec.ofNat 32 (resetWord2 r)

/-- R425, R459: registers whose value is held in Crema and so outlives the power of their own domain. -/
def retainedReg (r : Reg) : Bool :=
  [20, 21, 22, 23, 341, 342, 357, 358, 403, 406, 407, 112].contains r.id

end Sys2Proof.Machine
end

