-- ==== Sys2Proof/Machine/RegTable.lean ====
section
/-! DEFINITION. The address map (R479) and the field maps of every register: one row per register of the spec's
register maps, with its address, index counts and strides, power domain, and each field's place, access code (R14)
and accepted range. -/

namespace Sys2Proof.Machine

def regRows20_0 : List RegRow := [
  ⟨0, 0x00000000, 1, 0, 1, 0, .fixed 7, [⟨0, 32, .ro, 0, 4294967295⟩]⟩,  -- DEV_ID
  ⟨1, 0x00000004, 1, 0, 1, 0, .fixed 7, [⟨0, 8, .ro, 0, 255⟩, ⟨8, 8, .ro, 0, 255⟩, ⟨16, 16, .ro, 0, 65535⟩]⟩,  -- DEV_REV
  ⟨2, 0x00000008, 1, 0, 1, 0, .fixed 7, [⟨0, 32, .ro, 0, 4294967295⟩]⟩,  -- DEV_SERIAL_LO
  ⟨3, 0x0000000C, 1, 0, 1, 0, .fixed 7, [⟨0, 32, .ro, 0, 4294967295⟩]⟩,  -- DEV_SERIAL_HI
  ⟨4, 0x00000010, 1, 0, 1, 0, .fixed 7, [⟨0, 32, .ro, 0, 4294967295⟩]⟩,  -- DEV_FW_VER
  ⟨5, 0x00000014, 1, 0, 1, 0, .fixed 7, [⟨0, 8, .ro, 0, 255⟩, ⟨8, 8, .ro, 0, 255⟩, ⟨16, 16, .ro, 0, 65535⟩]⟩,  -- DEV_PROTO
  ⟨6, 0x00000018, 1, 0, 1, 0, .fixed 7, [⟨0, 32, .ro, 0, 4294967295⟩]⟩,  -- DEV_CODE_LO
  ⟨7, 0x0000001C, 1, 0, 1, 0, .fixed 7, [⟨0, 32, .ro, 0, 4294967295⟩]⟩,  -- DEV_CODE_HI
  ⟨91, 0x00060000, 1, 0, 1, 0, .fixed 7, [⟨0, 1, .ro, 0, 1⟩, ⟨1, 1, .ro, 0, 1⟩, ⟨2, 1, .ro, 0, 1⟩, ⟨3, 29, .ro, 0, 536870911⟩]⟩,  -- LOG_STATUS
  ⟨92, 0x00060004, 1, 0, 1, 0, .fixed 7, [⟨0, 32, .ro, 0, 4294967295⟩]⟩,  -- LOG_NEXT_SEQ_LO
  ⟨93, 0x00060008, 1, 0, 1, 0, .fixed 7, [⟨0, 32, .ro, 0, 4294967295⟩]⟩,  -- LOG_NEXT_SEQ_HI
  ⟨94, 0x0006000C, 1, 0, 1, 0, .fixed 7, [⟨0, 32, .ro, 0, 4294967295⟩]⟩,  -- LOG_OLDEST_LO
  ⟨95, 0x00060010, 1, 0, 1, 0, .fixed 7, [⟨0, 32, .ro, 0, 4294967295⟩]⟩,  -- LOG_OLDEST_HI
  ⟨96, 0x00060014, 1, 0, 1, 0, .fixed 7, [⟨0, 9, .ro, 0, 511⟩, ⟨9, 7, .ro, 0, 127⟩, ⟨16, 16, .ro, 0, 65535⟩]⟩,  -- LOG_FB
  ⟨97, 0x00060018, 1, 0, 1, 0, .fixed 7, [⟨0, 32, .ro, 0, 4294967295⟩]⟩,  -- LOG_CNT_WRITTEN
  ⟨98, 0x0006001C, 1, 0, 1, 0, .fixed 7, [⟨0, 32, .ro, 0, 4294967295⟩]⟩,  -- LOG_CNT_VERIFY
  ⟨99, 0x00060020, 1, 0, 1, 0, .fixed 7, [⟨0, 1, .w1s, 0, 1⟩, ⟨1, 31, .ro, 0, 2147483647⟩]⟩,  -- LOG_CMD
  ⟨100, 0x00060040, 1, 0, 1, 0, .fixed 7, [⟨0, 8, .rwl, 1, 255⟩, ⟨8, 8, .rwl, 1, 255⟩, ⟨16, 8, .rwl, 1, 255⟩, ⟨24, 8, .ro, 0, 255⟩]⟩,  -- LOG_GRIND_CFG
  ⟨101, 0x00060044, 3, 8, 1, 0, .fixed 7, [⟨0, 32, .ro, 0, 4294967295⟩]⟩,  -- LOG_GRIND_CORR
  ⟨102, 0x00060048, 3, 8, 1, 0, .fixed 7, [⟨0, 32, .ro, 0, 4294967295⟩]⟩  -- LOG_GRIND_UNC
  ]

def regRows20_1 : List RegRow := [
  ⟨103, 0x0006005C, 1, 0, 1, 0, .fixed 7, [⟨0, 8, .ro, 0, 255⟩, ⟨8, 8, .ro, 0, 255⟩, ⟨16, 8, .ro, 0, 255⟩, ⟨24, 8, .ro, 0, 255⟩]⟩,  -- LOG_GRIND_PASS
  ⟨104, 0x00060100, 1, 0, 1, 0, .fixed 7, [⟨0, 1, .rwl, 0, 1⟩, ⟨1, 10, .rwl, 10, 600⟩, ⟨11, 21, .ro, 0, 2097151⟩]⟩,  -- MGMT_CFG
  ⟨105, 0x00060104, 1, 0, 1, 0, .fixed 7, [⟨0, 32, .rwl, 0, 4294967295⟩]⟩,  -- MGMT_NET_IP
  ⟨106, 0x00060108, 1, 0, 1, 0, .fixed 7, [⟨0, 32, .rwl, 0, 4294967295⟩]⟩,  -- MGMT_NET_MASK
  ⟨107, 0x0006010C, 1, 0, 1, 0, .fixed 7, [⟨0, 32, .rwl, 0, 4294967295⟩]⟩,  -- MGMT_NET_GW
  ⟨108, 0x00060110, 1, 0, 1, 0, .fixed 7, [⟨0, 4, .ro, 0, 15⟩, ⟨4, 12, .ro, 0, 4095⟩, ⟨16, 16, .ro, 0, 65535⟩]⟩  -- MGMT_STAT
  ]

def regRows02_0 : List RegRow := [
  ⟨8, 0x00010000, 1, 0, 1, 0, .fixed 1, [⟨0, 2, .rwl, 0, 2⟩, ⟨2, 1, .rwl, 0, 1⟩, ⟨3, 29, .ro, 0, 536870911⟩]⟩,  -- CLK_CTRL
  ⟨9, 0x00010004, 1, 0, 1, 0, .fixed 1, [⟨0, 1, .ro, 0, 1⟩, ⟨1, 1, .ro, 0, 1⟩, ⟨2, 1, .ro, 0, 1⟩, ⟨3, 2, .ro, 0, 3⟩, ⟨5, 1, .w1c, 0, 1⟩, ⟨6, 1, .w1c, 0, 1⟩, ⟨7, 25, .ro, 0, 33554431⟩]⟩,  -- CLK_STATUS
  ⟨10, 0x00010010, 4, 4, 1, 0, .fixed 1, [⟨0, 16, .rwl, 10, 65535⟩, ⟨16, 2, .rwl, 0, 3⟩, ⟨18, 1, .rwl, 0, 1⟩, ⟨19, 1, .rwl, 0, 1⟩, ⟨20, 12, .ro, 0, 4095⟩]⟩,  -- CLK_OUTn_CFG
  ⟨11, 0x00010020, 1, 0, 1, 0, .fixed 1, [⟨0, 1, .rwl, 0, 1⟩, ⟨1, 6, .rwl, 0, 50⟩, ⟨7, 2, .rwl, 0, 3⟩, ⟨9, 1, .rwl, 0, 1⟩, ⟨10, 22, .ro, 0, 4194303⟩]⟩,  -- CLK_SSC
  ⟨12, 0x00010100, 1, 0, 1, 0, .fixed 1, [⟨0, 2, .ro, 0, 3⟩, ⟨2, 1, .ro, 0, 1⟩, ⟨3, 1, .w1c, 0, 1⟩, ⟨4, 1, .w1c, 0, 1⟩, ⟨5, 1, .ro, 0, 1⟩, ⟨6, 1, .ro, 0, 1⟩, ⟨7, 25, .ro, 0, 33554431⟩]⟩,  -- TIME_STATUS
  ⟨13, 0x00010104, 1, 0, 1, 0, .fixed 1, [⟨0, 32, .ro, 0, 4294967295⟩]⟩,  -- TIME_NOW_LO
  ⟨14, 0x00010108, 1, 0, 1, 0, .fixed 1, [⟨0, 32, .ro, 0, 4294967295⟩]⟩,  -- TIME_NOW_HI
  ⟨15, 0x0001010C, 1, 0, 1, 0, .fixed 1, [⟨0, 3, .ro, 0, 7⟩, ⟨3, 29, .ro, 0, 536870911⟩]⟩,  -- TIME_NOW_FRAC
  ⟨16, 0x00010110, 1, 0, 1, 0, .fixed 1, [⟨0, 8, .rwl, 0, 255⟩, ⟨8, 12, .rwl, 1, 3600⟩, ⟨20, 1, .rwl, 0, 1⟩, ⟨21, 11, .ro, 0, 2047⟩]⟩,  -- TIME_PTP_CFG
  ⟨17, 0x00010114, 1, 0, 1, 0, .fixed 1, [⟨0, 32, .ro, 0, 4294967295⟩]⟩,  -- TIME_OFFSET
  ⟨18, 0x00010118, 1, 0, 1, 0, .fixed 1, [⟨0, 16, .rw, 0, 65535⟩, ⟨16, 1, .rw, 0, 1⟩, ⟨17, 1, .rw, 0, 1⟩, ⟨18, 14, .ro, 0, 16383⟩]⟩,  -- TIME_UTC
  ⟨19, 0x0001011C, 1, 0, 1, 0, .fixed 1, [⟨0, 32, .ro, 0, 4294967295⟩]⟩,  -- TIME_UNCERT
  ⟨20, 0x00010130, 1, 0, 1, 0, .fixed 1, [⟨0, 32, .ro, 0, 4294967295⟩]⟩,  -- TIME_OPSEC_LO
  ⟨21, 0x00010134, 1, 0, 1, 0, .fixed 1, [⟨0, 32, .ro, 0, 4294967295⟩]⟩,  -- TIME_OPSEC_HI
  ⟨22, 0x00010138, 1, 0, 1, 0, .fixed 1, [⟨0, 32, .ro, 0, 4294967295⟩]⟩,  -- TIME_RTCSEC_LO
  ⟨23, 0x0001013C, 1, 0, 1, 0, .fixed 1, [⟨0, 32, .ro, 0, 4294967295⟩]⟩,  -- TIME_RTCSEC_HI
  ⟨24, 0x00010200, 1, 0, 1, 0, .fixed 0, [⟨0, 5, .rw, 0, 31⟩, ⟨5, 4, .rw, 0, 15⟩, ⟨9, 8, .rw, 0, 255⟩, ⟨17, 15, .ro, 0, 32767⟩]⟩,  -- RTC_CAL_DATE
  ⟨25, 0x00010204, 1, 0, 1, 0, .fixed 0, [⟨0, 6, .rw, 0, 63⟩, ⟨6, 6, .rw, 0, 63⟩, ⟨12, 5, .rw, 0, 31⟩, ⟨17, 15, .ro, 0, 32767⟩]⟩,  -- RTC_CAL_TIME
  ⟨26, 0x00010208, 1, 0, 1, 0, .fixed 0, [⟨0, 1, .ro, 0, 1⟩, ⟨1, 1, .ro, 0, 1⟩, ⟨2, 30, .ro, 0, 1073741823⟩]⟩  -- RTC_STATUS
  ]

def regRows18_0 : List RegRow := [
  ⟨27, 0x00020000, 1, 0, 1, 0, .fixed 0, [⟨0, 32, .ro, 0, 4294967295⟩]⟩,  -- PWR_STATE_LO
  ⟨28, 0x00020004, 1, 0, 1, 0, .fixed 0, [⟨0, 32, .ro, 0, 4294967295⟩]⟩,  -- PWR_STATE_HI
  ⟨29, 0x00020008, 1, 0, 1, 0, .fixed 0, [⟨0, 5, .rw, 0, 20⟩, ⟨5, 2, .rw, 0, 2⟩, ⟨7, 25, .ro, 0, 33554431⟩]⟩,  -- PWR_REQ
  ⟨30, 0x0002000C, 1, 0, 1, 0, .fixed 0, [⟨0, 5, .ro, 0, 31⟩, ⟨5, 3, .ro, 0, 7⟩, ⟨8, 24, .ro, 0, 16777215⟩]⟩,  -- PWR_REFUSE
  ⟨31, 0x00020010, 1, 0, 1, 0, .fixed 0, [⟨0, 21, .rw, 0, 2097151⟩, ⟨21, 11, .ro, 0, 2047⟩]⟩,  -- PWR_WAKE_SET
  ⟨32, 0x00020014, 1, 0, 1, 0, .fixed 0, [⟨0, 7, .rwl, 0, 127⟩, ⟨7, 1, .rwl, 0, 1⟩, ⟨8, 8, .rwl, 0, 255⟩, ⟨16, 16, .ro, 0, 65535⟩]⟩,  -- PWR_WAKE_CFG
  ⟨33, 0x00020018, 1, 0, 1, 0, .fixed 0, [⟨0, 16, .ro, 0, 65535⟩, ⟨16, 1, .w1c, 0, 1⟩, ⟨17, 7, .ro, 0, 127⟩, ⟨24, 8, .ro, 0, 255⟩]⟩,  -- PWR_WAKE_STAT
  ⟨34, 0x0002001C, 1, 0, 1, 0, .fixed 0, [⟨0, 1, .ro, 0, 1⟩, ⟨1, 1, .ro, 0, 1⟩, ⟨2, 1, .ro, 0, 1⟩, ⟨3, 2, .ro, 0, 3⟩, ⟨5, 27, .ro, 0, 134217727⟩]⟩,  -- PWR_SUPPLY
  ⟨35, 0x00020040, 21, 4, 1, 0, .fixed 0, [⟨0, 16, .ro, 0, 65535⟩, ⟨16, 16, .ro, 0, 65535⟩]⟩,  -- PWR_DOM_P
  ⟨36, 0x00020100, 1, 0, 1, 0, .fixed 0, [⟨0, 1, .w1c, 0, 1⟩, ⟨1, 1, .w1c, 0, 1⟩, ⟨2, 1, .w1c, 0, 1⟩, ⟨3, 1, .w1c, 0, 1⟩, ⟨4, 1, .w1c, 0, 1⟩, ⟨5, 1, .w1c, 0, 1⟩, ⟨6, 1, .w1c, 0, 1⟩, ⟨7, 1, .w1c, 0, 1⟩, ⟨8, 1, .w1c, 0, 1⟩, ⟨9, 23, .ro, 0, 8388607⟩]⟩,  -- CREMA_STICKY
  ⟨37, 0x00020104, 1, 0, 1, 0, .fixed 0, [⟨0, 1, .rwl, 0, 1⟩, ⟨1, 1, .rwl, 0, 1⟩, ⟨2, 1, .rwl, 0, 1⟩, ⟨3, 1, .rwl, 0, 1⟩, ⟨4, 28, .ro, 0, 268435455⟩]⟩,  -- CREMA_CFG
  ⟨38, 0x00020108, 1, 0, 1, 0, .fixed 0, [⟨0, 13, .ro, 0, 8191⟩, ⟨13, 1, .ro, 0, 1⟩, ⟨14, 1, .ro, 0, 1⟩, ⟨15, 1, .ro, 0, 1⟩, ⟨16, 16, .ro, 0, 65535⟩]⟩,  -- CREMA_CELL
  ⟨39, 0x0002010C, 1, 0, 1, 0, .fixed 0, [⟨0, 16, .ro, 0, 65535⟩, ⟨16, 16, .ro, 0, 65535⟩]⟩,  -- CREMA_CELL_AGE
  ⟨40, 0x00020110, 1, 0, 1, 0, .fixed 0, [⟨0, 16, .ro, 0, 65535⟩, ⟨16, 16, .ro, 0, 65535⟩]⟩,  -- CREMA_HARV
  ⟨41, 0x00020114, 1, 0, 1, 0, .fixed 0, [⟨0, 32, .ro, 0, 4294967295⟩]⟩,  -- CREMA_TAMPER_T_LO
  ⟨42, 0x00020118, 1, 0, 1, 0, .fixed 0, [⟨0, 32, .ro, 0, 4294967295⟩]⟩,  -- CREMA_TAMPER_T_HI
  ⟨43, 0x0002011C, 1, 0, 1, 0, .fixed 0, [⟨0, 32, .ro, 0, 4294967295⟩]⟩,  -- CREMA_SUPPLY_T_LO
  ⟨44, 0x00020120, 1, 0, 1, 0, .fixed 0, [⟨0, 32, .ro, 0, 4294967295⟩]⟩,  -- CREMA_SUPPLY_T_HI
  ⟨45, 0x00024000, 4096, 4, 1, 0, .fixed 0, [⟨0, 32, .rw, 0, 4294967295⟩]⟩,  -- CREMA_RAM
  ⟨46, 0x00028000, 256, 64, 16, 4, .fixed 0, [⟨0, 32, .ro, 0, 4294967295⟩]⟩  -- CREMA_FLOG
  ]

def regRows18_1 : List RegRow := [
  ⟨47, 0x00030000, 1, 0, 1, 0, .fixed 0, [⟨0, 7, .rwl, 85, 120⟩, ⟨7, 25, .ro, 0, 33554431⟩]⟩,  -- THM_CFG
  ⟨48, 0x00030004, 1, 0, 1, 0, .fixed 0, [⟨0, 16, .ro, 0, 65535⟩, ⟨16, 1, .ro, 0, 1⟩, ⟨17, 1, .ro, 0, 1⟩, ⟨18, 14, .ro, 0, 16383⟩]⟩,  -- THM_CP
  ⟨49, 0x00030008, 1, 0, 1, 0, .fixed 0, [⟨0, 16, .ro, 0, 65535⟩, ⟨16, 16, .ro, 0, 65535⟩]⟩,  -- THM_NTC
  ⟨50, 0x00030100, 21, 8, 1, 0, .fixed 0, [⟨0, 16, .ro, 0, 65535⟩, ⟨16, 1, .ro, 0, 1⟩, ⟨17, 1, .ro, 0, 1⟩, ⟨18, 14, .ro, 0, 16383⟩]⟩,  -- THM_REG_T
  ⟨51, 0x00030104, 21, 8, 1, 0, .fixed 0, [⟨0, 16, .ro, 0, 65535⟩, ⟨16, 8, .ro, 0, 255⟩, ⟨24, 8, .ro, 0, 255⟩]⟩  -- THM_REG_CNT
  ]

def regRows12_0 : List RegRow := [
  ⟨52, 0x00040000, 1, 0, 1, 0, .fixed 5, [⟨0, 2, .ro, 0, 3⟩, ⟨2, 3, .ro, 0, 7⟩, ⟨5, 27, .ro, 0, 134217727⟩]⟩,  -- LANE_STATUS
  ⟨53, 0x00040004, 1, 0, 1, 0, .fixed 5, [⟨0, 1, .rwl, 0, 1⟩, ⟨1, 1, .rwl, 0, 1⟩, ⟨2, 4, .rwl, 1, 15⟩, ⟨6, 26, .ro, 0, 67108863⟩]⟩,  -- LANE_CFG
  ⟨54, 0x00040008, 1, 0, 1, 0, .fixed 5, [⟨0, 2, .rwl, 0, 2⟩, ⟨2, 2, .rwl, 0, 3⟩, ⟨4, 28, .ro, 0, 268435455⟩]⟩,  -- LANE_CMD
  ⟨55, 0x00040010, 3, 16, 1, 0, .fixed 5, [⟨0, 3, .ro, 0, 7⟩, ⟨3, 1, .ro, 0, 1⟩, ⟨4, 3, .ro, 0, 7⟩, ⟨7, 1, .ro, 0, 1⟩, ⟨8, 4, .ro, 0, 15⟩, ⟨12, 4, .ro, 0, 15⟩, ⟨16, 16, .ro, 0, 65535⟩]⟩,  -- LANE_n_STAT
  ⟨56, 0x00040014, 3, 16, 1, 0, .fixed 5, [⟨0, 32, .ro, 0, 4294967295⟩]⟩,  -- LANE_n_EXCL_LO
  ⟨57, 0x00040018, 3, 16, 1, 0, .fixed 5, [⟨0, 32, .ro, 0, 4294967295⟩]⟩,  -- LANE_n_EXCL_HI
  ⟨58, 0x0004001C, 3, 16, 1, 0, .fixed 5, [⟨0, 11, .ro, 0, 2047⟩, ⟨11, 1, .ro, 0, 1⟩, ⟨12, 12, .ro, 0, 4095⟩, ⟨24, 7, .ro, 0, 127⟩, ⟨31, 1, .ro, 0, 1⟩]⟩,  -- LANE_n_COPY
  ⟨59, 0x00040040, 1, 0, 1, 0, .fixed 5, [⟨0, 32, .ro, 0, 4294967295⟩]⟩,  -- LANE_SIG_LO
  ⟨60, 0x00040044, 1, 0, 1, 0, .fixed 5, [⟨0, 32, .ro, 0, 4294967295⟩]⟩,  -- LANE_SIG_HI
  ⟨61, 0x00040048, 1, 0, 1, 0, .fixed 5, [⟨0, 20, .ro, 0, 1048575⟩, ⟨20, 4, .ro, 0, 15⟩, ⟨24, 7, .ro, 0, 127⟩, ⟨31, 1, .w1s, 0, 1⟩]⟩,  -- LANE_INTR
  ⟨62, 0x00040050, 3, 4, 1, 0, .fixed 5, [⟨0, 20, .ro, 0, 1048575⟩, ⟨20, 12, .ro, 0, 4095⟩]⟩,  -- LANE_n_SWLIM
  ⟨63, 0x00040100, 1, 0, 1, 0, .fixed 5, [⟨0, 1, .ro, 0, 1⟩, ⟨1, 1, .ro, 0, 1⟩, ⟨2, 1, .ro, 0, 1⟩, ⟨3, 1, .ro, 0, 1⟩, ⟨4, 1, .ro, 0, 1⟩, ⟨5, 1, .ro, 0, 1⟩, ⟨6, 1, .w1c, 0, 1⟩, ⟨7, 25, .ro, 0, 33554431⟩]⟩,  -- VOTE_STATUS
  ⟨64, 0x00040104, 1, 0, 1, 0, .fixed 5, [⟨0, 8, .ro, 0, 255⟩, ⟨8, 8, .ro, 0, 255⟩, ⟨16, 16, .ro, 0, 65535⟩]⟩,  -- VOTE_MERGE
  ⟨65, 0x00040108, 3, 4, 1, 0, .fixed 5, [⟨0, 32, .ro, 0, 4294967295⟩]⟩,  -- VOTE_CNT_MIN_n
  ⟨66, 0x00040114, 1, 0, 1, 0, .fixed 5, [⟨0, 2, .ro, 0, 3⟩, ⟨2, 3, .ro, 0, 7⟩, ⟨5, 11, .ro, 0, 2047⟩, ⟨16, 16, .ro, 0, 65535⟩]⟩,  -- VOTE_LAST
  ⟨67, 0x00040118, 1, 0, 1, 0, .fixed 5, [⟨0, 1, .ro, 0, 1⟩, ⟨1, 8, .ro, 0, 255⟩, ⟨9, 4, .ro, 0, 15⟩, ⟨13, 19, .ro, 0, 524287⟩]⟩,  -- VOTE_LEASE
  ⟨68, 0x0004011C, 1, 0, 1, 0, .fixed 5, [⟨0, 8, .ro, 0, 255⟩, ⟨8, 8, .ro, 0, 255⟩, ⟨16, 8, .ro, 0, 255⟩, ⟨24, 8, .ro, 0, 255⟩]⟩  -- VOTE_LEASE_CNT
  ]

def regRows13_0 : List RegRow := [
  ⟨69, 0x00050000, 1, 0, 1, 0, .fixed 5, [⟨0, 4, .ro, 0, 15⟩, ⟨4, 1, .ro, 0, 1⟩, ⟨5, 5, .ro, 0, 31⟩, ⟨10, 4, .ro, 0, 15⟩, ⟨14, 1, .ro, 0, 1⟩, ⟨15, 1, .ro, 0, 1⟩, ⟨16, 16, .ro, 0, 65535⟩]⟩,  -- POUR_STATUS
  ⟨70, 0x00050004, 1, 0, 1, 0, .fixed 5, [⟨0, 8, .rwl, 5, 255⟩, ⟨8, 4, .rwl, 2, 15⟩, ⟨12, 20, .ro, 0, 1048575⟩]⟩,  -- POUR_CFG
  ⟨71, 0x00050008, 1, 0, 1, 0, .fixed 5, [⟨0, 16, .ro, 0, 65535⟩, ⟨16, 16, .ro, 0, 65535⟩]⟩,  -- POUR_NEXT_ID
  ⟨72, 0x0005000C, 1, 0, 1, 0, .fixed 5, [⟨0, 16, .ro, 0, 65535⟩, ⟨16, 16, .ro, 0, 65535⟩]⟩,  -- POUR_CNT
  ⟨73, 0x00050010, 1, 0, 1, 0, .fixed 5, [⟨0, 11, .ro, 0, 2047⟩, ⟨11, 21, .ro, 0, 2097151⟩]⟩,  -- POUR_STALE_CNT
  ⟨74, 0x00050020, 1, 0, 1, 0, .fixed 5, [⟨0, 4, .rw, 0, 15⟩, ⟨4, 1, .rw, 0, 1⟩, ⟨5, 11, .rw, 0, 2047⟩, ⟨16, 16, .ro, 0, 65535⟩]⟩,  -- POUR_PEEK_SEL
  ⟨75, 0x00050024, 1, 0, 1, 0, .fixed 5, [⟨0, 32, .ro, 0, 4294967295⟩]⟩,  -- POUR_PEEK_ADDR
  ⟨76, 0x00050028, 1, 0, 1, 0, .fixed 5, [⟨0, 32, .ro, 0, 4294967295⟩]⟩,  -- POUR_PEEK_VALUE
  ⟨77, 0x0005002C, 1, 0, 1, 0, .fixed 5, [⟨0, 32, .ro, 0, 4294967295⟩]⟩,  -- POUR_PEEK_MASK
  ⟨78, 0x00050030, 8, 4, 1, 0, .fixed 5, [⟨0, 32, .ro, 0, 4294967295⟩]⟩,  -- POUR_PEEK_CELLw
  ⟨79, 0x00050100, 16, 64, 1, 0, .fixed 5, [⟨0, 4, .ro, 0, 15⟩, ⟨4, 4, .ro, 0, 15⟩, ⟨8, 8, .ro, 0, 255⟩, ⟨16, 3, .ro, 0, 7⟩, ⟨19, 1, .ro, 0, 1⟩, ⟨20, 12, .ro, 0, 4095⟩]⟩,  -- POUR_SLOT_STAT
  ⟨80, 0x00050104, 16, 64, 1, 0, .fixed 5, [⟨0, 16, .ro, 0, 65535⟩, ⟨16, 16, .ro, 0, 65535⟩]⟩,  -- POUR_SLOT_ID
  ⟨81, 0x00050108, 16, 64, 1, 0, .fixed 5, [⟨0, 2, .ro, 0, 3⟩, ⟨2, 4, .ro, 0, 15⟩, ⟨6, 1, .ro, 0, 1⟩, ⟨7, 1, .ro, 0, 1⟩, ⟨8, 12, .ro, 0, 4095⟩, ⟨20, 11, .ro, 0, 2047⟩, ⟨31, 1, .ro, 0, 1⟩]⟩,  -- POUR_SLOT_CFG
  ⟨82, 0x0005010C, 16, 64, 1, 0, .fixed 5, [⟨0, 32, .ro, 0, 4294967295⟩]⟩,  -- POUR_SLOT_SEQ
  ⟨83, 0x00050110, 16, 64, 1, 0, .fixed 5, [⟨0, 32, .ro, 0, 4294967295⟩]⟩,  -- POUR_SLOT_REQ_LO
  ⟨84, 0x00050114, 16, 64, 1, 0, .fixed 5, [⟨0, 32, .ro, 0, 4294967295⟩]⟩,  -- POUR_SLOT_REQ_HI
  ⟨85, 0x00050118, 16, 64, 1, 0, .fixed 5, [⟨0, 32, .ro, 0, 4294967295⟩]⟩,  -- POUR_SLOT_TC_LO
  ⟨86, 0x0005011C, 16, 64, 1, 0, .fixed 5, [⟨0, 32, .ro, 0, 4294967295⟩]⟩,  -- POUR_SLOT_TC_HI
  ⟨87, 0x00050120, 16, 64, 1, 0, .fixed 5, [⟨0, 11, .ro, 0, 2047⟩, ⟨11, 11, .ro, 0, 2047⟩, ⟨22, 10, .ro, 0, 1023⟩]⟩,  -- POUR_SLOT_PROG
  ⟨88, 0x00050124, 16, 64, 1, 0, .fixed 5, [⟨0, 16, .ro, 0, 65535⟩, ⟨16, 8, .ro, 0, 255⟩, ⟨24, 8, .ro, 0, 255⟩]⟩  -- POUR_SLOT_FAIL
  ]

def regRows13_1 : List RegRow := [
  ⟨89, 0x00050128, 16, 64, 1, 0, .fixed 5, [⟨0, 11, .ro, 0, 2047⟩, ⟨11, 21, .ro, 0, 2097151⟩]⟩,  -- POUR_SLOT_UNCONF
  ⟨90, 0x00050800, 32, 4, 1, 0, .fixed 5, [⟨0, 32, .ro, 0, 4294967295⟩]⟩  -- POUR_CFG_STALEw
  ]

def regRows19_0 : List RegRow := [
  ⟨109, 0x00070000, 1, 0, 1, 0, .fixed 7, [⟨0, 1, .ro, 0, 1⟩, ⟨1, 1, .w1s, 0, 1⟩, ⟨2, 1, .ro, 0, 1⟩, ⟨3, 3, .ro, 0, 7⟩, ⟨6, 2, .ro, 0, 3⟩, ⟨8, 1, .ro, 0, 1⟩, ⟨9, 23, .ro, 0, 8388607⟩]⟩,  -- ACC_FIELD_LOCK
  ⟨110, 0x00070004, 1, 0, 1, 0, .fixed 7, [⟨0, 1, .rwl, 0, 1⟩, ⟨1, 1, .rwl, 0, 1⟩, ⟨2, 1, .rwl, 0, 1⟩, ⟨3, 5, .ro, 0, 31⟩, ⟨8, 8, .rwl, 1, 255⟩, ⟨16, 4, .rwl, 1, 15⟩, ⟨20, 12, .ro, 0, 4095⟩]⟩,  -- ACC_POLICY
  ⟨111, 0x00070010, 8, 4, 1, 0, .fixed 7, [⟨0, 1, .ro, 0, 1⟩, ⟨1, 2, .ro, 0, 3⟩, ⟨3, 2, .ro, 0, 3⟩, ⟨5, 1, .ro, 0, 1⟩, ⟨6, 26, .ro, 0, 67108863⟩]⟩,  -- ACC_SESSIONn
  ⟨112, 0x00070030, 1, 0, 1, 0, .fixed 7, [⟨0, 8, .ro, 0, 255⟩, ⟨8, 1, .ro, 0, 1⟩, ⟨9, 7, .ro, 0, 127⟩, ⟨16, 16, .ro, 0, 65535⟩]⟩,  -- ACC_AUTH
  ⟨113, 0x00070034, 1, 0, 1, 0, .fixed 7, [⟨0, 4, .ro, 0, 15⟩, ⟨4, 28, .ro, 0, 268435455⟩]⟩,  -- ACC_KEY_STAT
  ⟨114, 0x00070040, 1, 0, 1, 0, .fixed 7, [⟨0, 2, .rw, 0, 3⟩, ⟨2, 1, .w1s, 0, 1⟩, ⟨3, 29, .ro, 0, 536870911⟩]⟩,  -- ACC_KEY_SEL
  ⟨115, 0x00070044, 8, 4, 1, 0, .fixed 7, [⟨0, 32, .wo, 0, 4294967295⟩]⟩,  -- ACC_KEY_DATAw
  ⟨456, 0x00C00000, 1, 0, 1, 0, .fixed 5, [⟨0, 3, .ro, 0, 7⟩, ⟨3, 1, .ro, 0, 1⟩, ⟨4, 1, .ro, 0, 1⟩, ⟨5, 1, .ro, 0, 1⟩, ⟨6, 1, .ro, 0, 1⟩, ⟨7, 1, .ro, 0, 1⟩, ⟨8, 4, .ro, 0, 15⟩, ⟨12, 4, .ro, 0, 15⟩, ⟨16, 8, .ro, 0, 255⟩, ⟨24, 8, .ro, 0, 255⟩]⟩,  -- CFG_STATUS
  ⟨457, 0x00C00004, 1, 0, 1, 0, .fixed 5, [⟨0, 32, .ro, 0, 4294967295⟩]⟩,  -- CFG_IMG_VER
  ⟨458, 0x00C00008, 1, 0, 1, 0, .fixed 5, [⟨0, 16, .ro, 0, 65535⟩, ⟨16, 16, .ro, 0, 65535⟩]⟩,  -- CFG_IF_VER
  ⟨459, 0x00C0000C, 1, 0, 1, 0, .fixed 5, [⟨0, 5, .ro, 0, 31⟩, ⟨5, 27, .ro, 0, 134217727⟩]⟩,  -- CFG_HW_REV
  ⟨460, 0x00C00010, 1, 0, 1, 0, .fixed 5, [⟨0, 3, .rw, 0, 6⟩, ⟨3, 1, .rw, 0, 1⟩, ⟨4, 28, .ro, 0, 268435455⟩]⟩,  -- CFG_CMD
  ⟨461, 0x00C00014, 1, 0, 1, 0, .fixed 5, [⟨0, 1, .ro, 0, 1⟩, ⟨1, 1, .ro, 0, 1⟩, ⟨4, 4, .ro, 0, 15⟩, ⟨8, 4, .ro, 0, 15⟩, ⟨12, 20, .ro, 0, 1048575⟩]⟩,  -- CFG_VERIFY
  ⟨462, 0x00C00018, 1, 0, 1, 0, .fixed 5, [⟨0, 32, .ro, 0, 4294967295⟩]⟩,  -- CFG_SLOT_VER_A
  ⟨463, 0x00C0001C, 1, 0, 1, 0, .fixed 5, [⟨0, 32, .ro, 0, 4294967295⟩]⟩,  -- CFG_SLOT_VER_B
  ⟨464, 0x00C00020, 1, 0, 1, 0, .fixed 5, [⟨0, 1, .ro, 0, 1⟩, ⟨1, 1, .ro, 0, 1⟩, ⟨2, 2, .ro, 0, 3⟩, ⟨4, 1, .ro, 0, 1⟩, ⟨5, 1, .ro, 0, 1⟩, ⟨6, 26, .ro, 0, 67108863⟩]⟩,  -- CFG_BOOT
  ⟨465, 0x00C00024, 1, 0, 1, 0, .fixed 5, [⟨0, 16, .ro, 0, 65535⟩, ⟨16, 16, .ro, 0, 65535⟩]⟩,  -- CFG_BOOT_MS
  ⟨466, 0x00C00800, 1, 0, 1, 0, .fixed 20, [⟨0, 3, .rwl, 0, 5⟩, ⟨3, 29, .ro, 0, 536870911⟩]⟩,  -- XSPI_CFG
  ⟨467, 0x00C00804, 1, 0, 1, 0, .fixed 20, [⟨0, 1, .ro, 0, 1⟩, ⟨1, 1, .ro, 0, 1⟩, ⟨2, 1, .w1c, 0, 1⟩, ⟨3, 1, .w1c, 0, 1⟩, ⟨4, 28, .ro, 0, 268435455⟩]⟩,  -- XSPI_STATUS
  ⟨468, 0x00C00810, 1, 0, 1, 0, .fixed 20, [⟨0, 2, .rw, 0, 3⟩, ⟨2, 1, .rw, 0, 1⟩, ⟨3, 1, .rw, 0, 1⟩, ⟨4, 2, .rw, 0, 3⟩, ⟨6, 1, .rw, 0, 1⟩, ⟨7, 2, .rw, 0, 2⟩, ⟨9, 5, .rw, 0, 31⟩, ⟨14, 2, .rw, 0, 3⟩, ⟨16, 1, .rw, 0, 1⟩, ⟨17, 1, .rw, 0, 1⟩, ⟨18, 1, .rw, 0, 1⟩, ⟨19, 3, .rw, 0, 7⟩, ⟨22, 10, .ro, 0, 1023⟩]⟩  -- XSPI_CMD_FMT
  ]

def regRows19_1 : List RegRow := [
  ⟨469, 0x00C00814, 1, 0, 1, 0, .fixed 20, [⟨0, 16, .rw, 0, 65535⟩, ⟨16, 16, .ro, 0, 65535⟩]⟩,  -- XSPI_CMD_OP
  ⟨470, 0x00C00818, 1, 0, 1, 0, .fixed 20, [⟨0, 32, .rw, 0, 4294967295⟩]⟩,  -- XSPI_CMD_ADDR
  ⟨471, 0x00C0081C, 1, 0, 1, 0, .fixed 20, [⟨0, 9, .rw, 0, 256⟩, ⟨9, 23, .ro, 0, 8388607⟩]⟩,  -- XSPI_CMD_LEN
  ⟨472, 0x00C00820, 1, 0, 1, 0, .fixed 20, [⟨0, 1, .w1s, 0, 1⟩, ⟨1, 31, .ro, 0, 2147483647⟩]⟩,  -- XSPI_CMD_GO
  ⟨473, 0x00C00900, 64, 4, 1, 0, .fixed 20, [⟨0, 32, .rw, 0, 4294967295⟩]⟩  -- XSPI_DATAw
  ]

def regRows03_0 : List RegRow := [
  ⟨116, 0x00100000, 8, 65536, 1, 0, .ring, [⟨0, 1, .rwl, 0, 1⟩, ⟨1, 1, .rwl, 0, 1⟩, ⟨2, 1, .w1s, 0, 1⟩, ⟨3, 1, .rwl, 0, 1⟩, ⟨4, 28, .ro, 0, 268435455⟩]⟩,  -- RING_CTRL
  ⟨117, 0x00100004, 8, 65536, 1, 0, .ring, [⟨0, 3, .ro, 0, 7⟩, ⟨3, 2, .ro, 0, 3⟩, ⟨5, 1, .ro, 0, 1⟩, ⟨6, 1, .ro, 0, 1⟩, ⟨7, 1, .ro, 0, 1⟩, ⟨8, 8, .ro, 0, 255⟩, ⟨16, 16, .ro, 0, 65535⟩]⟩,  -- RING_STATUS
  ⟨118, 0x00100008, 8, 65536, 1, 0, .ring, [⟨0, 8, .ro, 0, 255⟩, ⟨8, 8, .ro, 0, 255⟩, ⟨16, 1, .ro, 0, 1⟩, ⟨17, 1, .ro, 0, 1⟩, ⟨18, 14, .ro, 0, 16383⟩]⟩,  -- RING_BREAK
  ⟨119, 0x0010000C, 8, 65536, 1, 0, .ring, [⟨0, 32, .ro, 0, 4294967295⟩]⟩,  -- RING_TPROP
  ⟨120, 0x00100010, 8, 65536, 1, 0, .ring, [⟨0, 32, .ro, 0, 4294967295⟩]⟩,  -- RING_TTEL
  ⟨121, 0x00100014, 8, 65536, 1, 0, .ring, [⟨0, 32, .ro, 0, 4294967295⟩]⟩,  -- RING_TSCHED
  ⟨122, 0x00100018, 8, 65536, 1, 0, .ring, [⟨0, 32, .ro, 0, 4294967295⟩]⟩,  -- RING_ADMIT_TEL
  ⟨123, 0x0010001C, 8, 65536, 1, 0, .ring, [⟨0, 32, .ro, 0, 4294967295⟩]⟩,  -- RING_ADMIT_SCHED
  ⟨124, 0x00100020, 8, 65536, 1, 0, .ring, [⟨0, 32, .ro, 0, 4294967295⟩]⟩,  -- RING_THALT
  ⟨125, 0x00100030, 8, 65536, 1, 0, .ring, [⟨0, 12, .rwl, 0, 4095⟩, ⟨12, 20, .ro, 0, 1048575⟩]⟩,  -- RING_HALT_CMP
  ⟨126, 0x00100034, 8, 65536, 1, 0, .ring, [⟨0, 24, .rwl, 0, 16777215⟩, ⟨24, 8, .ro, 0, 255⟩]⟩,  -- RING_HALT_LEG
  ⟨127, 0x00100038, 8, 65536, 1, 0, .ring, [⟨0, 16, .ro, 0, 65535⟩, ⟨16, 1, .ro, 0, 1⟩, ⟨17, 3, .ro, 0, 7⟩, ⟨20, 8, .ro, 0, 255⟩, ⟨28, 4, .ro, 0, 15⟩]⟩,  -- RING_HALT_STAT
  ⟨128, 0x0010003C, 8, 65536, 1, 0, .ring, [⟨0, 1, .w1s, 0, 1⟩, ⟨1, 31, .ro, 0, 2147483647⟩]⟩,  -- RING_STAT_CLR
  ⟨129, 0x00100040, 8, 65536, 1, 0, .ring, [⟨0, 32, .ro, 0, 4294967295⟩]⟩,  -- RING_CNT_CRC_A
  ⟨130, 0x00100044, 8, 65536, 1, 0, .ring, [⟨0, 32, .ro, 0, 4294967295⟩]⟩,  -- RING_CNT_CRC_B
  ⟨131, 0x00100048, 8, 65536, 1, 0, .ring, [⟨0, 32, .ro, 0, 4294967295⟩]⟩,  -- RING_CNT_STALE
  ⟨132, 0x0010004C, 8, 65536, 1, 0, .ring, [⟨0, 32, .ro, 0, 4294967295⟩]⟩,  -- RING_CNT_LATE
  ⟨133, 0x00100050, 8, 65536, 1, 0, .ring, [⟨0, 32, .ro, 0, 4294967295⟩]⟩,  -- RING_CNT_ABORT
  ⟨134, 0x00100054, 8, 65536, 1, 0, .ring, [⟨0, 32, .ro, 0, 4294967295⟩]⟩,  -- RING_CNT_MISMATCH
  ⟨135, 0x00100058, 8, 65536, 1, 0, .ring, [⟨0, 32, .ro, 0, 4294967295⟩]⟩  -- RING_CNT_BREAK
  ]

def regRows03_1 : List RegRow := [
  ⟨136, 0x0010005C, 8, 65536, 1, 0, .ring, [⟨0, 32, .ro, 0, 4294967295⟩]⟩,  -- RING_CNT_MBX_TO
  ⟨137, 0x00100060, 8, 65536, 1, 0, .ring, [⟨0, 1, .ro, 0, 1⟩, ⟨1, 2, .ro, 0, 3⟩, ⟨8, 8, .ro, 0, 255⟩, ⟨16, 2, .ro, 0, 3⟩, ⟨18, 1, .ro, 0, 1⟩, ⟨19, 13, .ro, 0, 8191⟩]⟩,  -- RING_MBX_STAT
  ⟨138, 0x00100100, 8, 65536, 129, 8, .ring, [⟨0, 32, .ro, 0, 4294967295⟩]⟩,  -- RING_HOP_DLY
  ⟨139, 0x00100104, 8, 65536, 129, 8, .ring, [⟨0, 1, .ro, 0, 1⟩, ⟨1, 2, .ro, 0, 3⟩, ⟨3, 1, .w1c, 0, 1⟩, ⟨4, 12, .ro, 0, 4095⟩, ⟨16, 16, .ro, 0, 65535⟩]⟩,  -- RING_HOP_STAT
  ⟨140, 0x00180000, 1, 0, 1, 0, .fixed 5, [⟨0, 2, .ro, 0, 3⟩, ⟨2, 1, .ro, 0, 1⟩, ⟨3, 13, .ro, 0, 8191⟩, ⟨16, 16, .ro, 0, 65535⟩]⟩,  -- RING_LOOPD
  ⟨141, 0x00180004, 1, 0, 1, 0, .fixed 5, [⟨0, 16, .ro, 0, 65535⟩, ⟨16, 16, .ro, 0, 65535⟩]⟩,  -- RING_FREEZE
  ⟨142, 0x00180008, 1, 0, 1, 0, .fixed 5, [⟨0, 16, .ro, 0, 65535⟩, ⟨16, 16, .ro, 0, 65535⟩]⟩,  -- RING_LAUNCH
  ⟨143, 0x0018000C, 1, 0, 1, 0, .fixed 5, [⟨0, 16, .ro, 0, 65535⟩, ⟨16, 16, .ro, 0, 65535⟩]⟩,  -- RING_TCE
  ⟨144, 0x00180010, 1, 0, 1, 0, .fixed 5, [⟨0, 15, .rwp, 2500, 25000⟩, ⟨15, 17, .ro, 0, 131071⟩]⟩  -- RING_CTL_PERIOD
  ]

def regRows04_0 : List RegRow := [
  ⟨145, 0x00200000, 1024, 256, 1, 0, .fixed 5, [⟨0, 4, .ro, 0, 15⟩, ⟨4, 4, .ro, 0, 15⟩, ⟨8, 8, .ro, 0, 255⟩, ⟨16, 3, .ro, 0, 7⟩, ⟨19, 1, .ro, 0, 1⟩, ⟨20, 1, .ro, 0, 1⟩, ⟨21, 1, .ro, 0, 1⟩, ⟨22, 1, .ro, 0, 1⟩, ⟨23, 9, .ro, 0, 511⟩]⟩,  -- CELL_STATE
  ⟨146, 0x00200004, 1024, 256, 1, 0, .fixed 5, [⟨0, 4, .rwl, 0, 8⟩, ⟨4, 4, .ro, 0, 15⟩, ⟨8, 4, .rwl, 0, 15⟩, ⟨12, 20, .ro, 0, 1048575⟩]⟩,  -- CELL_CMD
  ⟨147, 0x00200008, 1024, 256, 1, 0, .fixed 5, [⟨0, 8, .ro, 0, 255⟩, ⟨8, 3, .ro, 0, 7⟩, ⟨11, 5, .ro, 0, 31⟩, ⟨16, 8, .ro, 0, 255⟩, ⟨24, 2, .ro, 0, 3⟩, ⟨26, 6, .ro, 0, 63⟩]⟩,  -- CELL_INFO
  ⟨148, 0x0020000C, 1024, 256, 1, 0, .fixed 5, [⟨0, 2, .rwp, 0, 3⟩, ⟨2, 4, .rwp, 0, 15⟩, ⟨6, 1, .rwp, 0, 1⟩, ⟨7, 25, .ro, 0, 33554431⟩]⟩,  -- CELL_CFG
  ⟨149, 0x00200010, 1024, 256, 1, 0, .fixed 5, [⟨0, 32, .ro, 0, 4294967295⟩]⟩,  -- CELL_NODE_ID_LO
  ⟨150, 0x00200014, 1024, 256, 1, 0, .fixed 5, [⟨0, 32, .ro, 0, 4294967295⟩]⟩,  -- CELL_NODE_ID_HI
  ⟨151, 0x00200018, 1024, 256, 1, 0, .fixed 5, [⟨0, 32, .rwp, 0, 4294967295⟩]⟩,  -- CELL_MAP_ID_LO
  ⟨152, 0x0020001C, 1024, 256, 1, 0, .fixed 5, [⟨0, 32, .rwp, 0, 4294967295⟩]⟩,  -- CELL_MAP_ID_HI
  ⟨153, 0x00200020, 1024, 256, 1, 0, .fixed 5, [⟨0, 2, .ro, 0, 3⟩, ⟨2, 2, .ro, 0, 3⟩, ⟨4, 1, .ro, 0, 1⟩, ⟨5, 1, .ro, 0, 1⟩, ⟨6, 2, .ro, 0, 3⟩, ⟨8, 8, .ro, 0, 255⟩, ⟨16, 16, .ro, 0, 65535⟩]⟩,  -- CELL_DIAG
  ⟨154, 0x00200024, 1024, 256, 1, 0, .fixed 5, [⟨0, 32, .ro, 0, 4294967295⟩]⟩,  -- CELL_TRIP_TOTAL
  ⟨155, 0x00200028, 1024, 256, 1, 0, .fixed 5, [⟨0, 32, .ro, 0, 4294967295⟩]⟩,  -- CELL_TRIP_TIME_LO
  ⟨156, 0x0020002C, 1024, 256, 1, 0, .fixed 5, [⟨0, 32, .ro, 0, 4294967295⟩]⟩,  -- CELL_TRIP_TIME_HI
  ⟨157, 0x00200030, 1024, 256, 1, 0, .fixed 5, [⟨0, 8, .ro, 0, 255⟩, ⟨8, 24, .ro, 0, 16777215⟩]⟩,  -- CELL_STALE
  ⟨158, 0x00200034, 1024, 256, 1, 0, .fixed 5, [⟨0, 1, .w1c, 0, 1⟩, ⟨1, 1, .w1c, 0, 1⟩, ⟨2, 1, .w1c, 0, 1⟩, ⟨3, 1, .w1c, 0, 1⟩, ⟨4, 1, .w1c, 0, 1⟩, ⟨5, 1, .w1c, 0, 1⟩, ⟨6, 1, .w1c, 0, 1⟩, ⟨7, 1, .w1c, 0, 1⟩, ⟨8, 4, .ro, 0, 15⟩, ⟨12, 20, .ro, 0, 1048575⟩]⟩,  -- CELL_FAULTS
  ⟨159, 0x00200040, 1024, 256, 8, 4, .fixed 5, [⟨0, 32, .ro, 0, 4294967295⟩]⟩,  -- CELL_TLM
  ⟨160, 0x00200060, 1024, 256, 1, 0, .fixed 5, [⟨0, 32, .ro, 0, 4294967295⟩]⟩,  -- CELL_TLM_CYCLE
  ⟨161, 0x00200064, 1024, 256, 1, 0, .fixed 5, [⟨0, 16, .ro, 0, 65535⟩, ⟨16, 16, .ro, 0, 65535⟩]⟩,  -- CELL_TLM_AGE
  ⟨162, 0x00240000, 8, 256, 1, 0, .fixed 5, [⟨0, 16, .rwp, 0, 65535⟩, ⟨16, 10, .rwp, 0, 1023⟩, ⟨26, 6, .ro, 0, 63⟩]⟩,  -- CELL_CLU_CFG
  ⟨163, 0x00240004, 8, 256, 3, 4, .fixed 5, [⟨0, 6, .ro, 0, 63⟩, ⟨6, 2, .ro, 0, 3⟩, ⟨8, 4, .rwp, 0, 15⟩, ⟨12, 20, .ro, 0, 1048575⟩]⟩,  -- CELL_PHASE_CFG
  ⟨164, 0x00240010, 8, 256, 3, 4, .fixed 5, [⟨0, 8, .ro, 0, 255⟩, ⟨8, 6, .ro, 0, 63⟩, ⟨14, 2, .ro, 0, 3⟩, ⟨16, 6, .ro, 0, 63⟩, ⟨22, 10, .ro, 0, 1023⟩]⟩  -- CELL_PHASE_STAT
  ]

def regRows04_1 : List RegRow := [
  ⟨165, 0x00240020, 8, 256, 3, 4, .fixed 5, [⟨0, 16, .ro, 0, 65535⟩, ⟨16, 16, .ro, 0, 65535⟩]⟩,  -- CELL_PHASE_VCAP
  ⟨166, 0x00240030, 8, 256, 1, 0, .fixed 5, [⟨0, 1, .ro, 0, 1⟩, ⟨1, 1, .ro, 0, 1⟩, ⟨2, 1, .ro, 0, 1⟩, ⟨3, 29, .ro, 0, 536870911⟩]⟩,  -- CELL_CLU_STATUS
  ⟨167, 0x00240800, 1, 0, 1, 0, .fixed 5, [⟨0, 4, .rwl, 1, 15⟩, ⟨4, 8, .rwl, 0, 255⟩, ⟨12, 8, .rwl, 1, 255⟩, ⟨20, 8, .rwl, 0, 255⟩, ⟨28, 1, .rwl, 0, 1⟩, ⟨29, 3, .ro, 0, 7⟩]⟩  -- CELL_CTRL
  ]

def regRows05_0 : List RegRow := [
  ⟨168, 0x00300000, 1, 0, 1, 0, .fixed 5, [⟨0, 8, .ro, 0, 255⟩, ⟨8, 24, .ro, 0, 16777215⟩]⟩,  -- PWM_STATUS
  ⟨169, 0x00300004, 1, 0, 1, 0, .fixed 5, [⟨0, 32, .ro, 0, 4294967295⟩]⟩,  -- PWM_CNT_DEBT_CAP
  ⟨170, 0x00300008, 1, 0, 1, 0, .fixed 5, [⟨0, 32, .ro, 0, 4294967295⟩]⟩,  -- PWM_CNT_SNAP
  ⟨171, 0x00300010, 1, 0, 1, 0, .fixed 19, [⟨0, 1, .ro, 0, 1⟩, ⟨1, 1, .w1c, 0, 1⟩, ⟨2, 8, .ro, 0, 255⟩, ⟨10, 22, .ro, 0, 4194303⟩]⟩,  -- PWM_DLY_STAT
  ⟨172, 0x00300100, 16, 8, 1, 0, .fixed 5, [⟨0, 10, .rwp, 0, 1023⟩, ⟨10, 10, .rwp, 0, 1023⟩, ⟨20, 8, .rwp, 0, 255⟩, ⟨28, 4, .ro, 0, 15⟩]⟩,  -- PWM_TYPE_TIME
  ⟨173, 0x00300104, 16, 8, 1, 0, .fixed 5, [⟨0, 8, .rwp, 1, 255⟩, ⟨8, 8, .rwp, 1, 255⟩, ⟨16, 16, .rwp, 0, 65535⟩]⟩,  -- PWM_TYPE_TRIP
  ⟨174, 0x00300200, 8, 32, 1, 0, .fixed 5, [⟨0, 24, .rwp, 0, 16777215⟩, ⟨24, 1, .rwp, 0, 1⟩, ⟨25, 1, .rwp, 0, 1⟩, ⟨26, 1, .rwp, 0, 1⟩, ⟨27, 5, .ro, 0, 31⟩]⟩,  -- PWM_CLU_CFG
  ⟨175, 0x00300204, 8, 32, 1, 0, .fixed 5, [⟨0, 13, .rwp, 0, 8191⟩, ⟨13, 3, .ro, 0, 7⟩, ⟨16, 13, .rwp, 0, 8191⟩, ⟨29, 3, .ro, 0, 7⟩]⟩,  -- PWM_CLU_SRC
  ⟨176, 0x00300208, 8, 32, 1, 0, .fixed 5, [⟨0, 16, .rwp, 0, 65535⟩, ⟨16, 16, .ro, 0, 65535⟩]⟩,  -- PWM_CLU_VBASE
  ⟨177, 0x0030020C, 8, 32, 1, 0, .fixed 5, [⟨0, 1, .rwp, 0, 1⟩, ⟨1, 31, .ro, 0, 2147483647⟩]⟩,  -- PWM_CLU_CMD
  ⟨178, 0x00300210, 8, 32, 1, 0, .fixed 5, [⟨0, 1, .ro, 0, 1⟩, ⟨1, 1, .ro, 0, 1⟩, ⟨2, 1, .ro, 0, 1⟩, ⟨3, 3, .ro, 0, 7⟩, ⟨6, 4, .ro, 0, 15⟩, ⟨10, 22, .ro, 0, 4194303⟩]⟩,  -- PWM_CLU_STAT
  ⟨179, 0x00300214, 8, 32, 1, 0, .fixed 5, [⟨0, 32, .ro, 0, 4294967295⟩]⟩,  -- PWM_CLU_ANCHOR_LO
  ⟨180, 0x00300218, 8, 32, 1, 0, .fixed 5, [⟨0, 32, .ro, 0, 4294967295⟩]⟩,  -- PWM_CLU_ANCHOR_HI
  ⟨181, 0x00304000, 1024, 16, 1, 0, .fixed 5, [⟨0, 24, .ro, 0, 16777215⟩, ⟨24, 6, .ro, 0, 63⟩, ⟨30, 2, .ro, 0, 3⟩]⟩,  -- PWM_CELL_OFF
  ⟨182, 0x00304004, 1024, 16, 1, 0, .fixed 5, [⟨0, 32, .ro, 0, 4294967295⟩]⟩,  -- PWM_CELL_DEBT0
  ⟨183, 0x00304008, 1024, 16, 1, 0, .fixed 5, [⟨0, 32, .ro, 0, 4294967295⟩]⟩,  -- PWM_CELL_DEBT1
  ⟨184, 0x0030400C, 1024, 16, 1, 0, .fixed 5, [⟨0, 8, .ro, 0, 255⟩, ⟨8, 24, .ro, 0, 16777215⟩]⟩,  -- PWM_CELL_TRIP
  ⟨185, 0x00308000, 24, 32, 1, 0, .fixed 5, [⟨0, 24, .rwp, 0, 16777215⟩, ⟨24, 1, .rwp, 0, 1⟩, ⟨25, 7, .ro, 0, 127⟩]⟩,  -- PWM_LEG_CFG
  ⟨186, 0x00308004, 24, 32, 1, 0, .fixed 5, [⟨0, 24, .rwp, 0, 16777215⟩, ⟨24, 8, .ro, 0, 255⟩]⟩,  -- PWM_LEG_OFF
  ⟨187, 0x00308008, 24, 32, 1, 0, .fixed 5, [⟨0, 13, .rwp, 0, 8191⟩, ⟨13, 19, .ro, 0, 524287⟩]⟩  -- PWM_LEG_SRC
  ]

def regRows05_1 : List RegRow := [
  ⟨188, 0x0030800C, 24, 32, 1, 0, .fixed 5, [⟨0, 10, .rwp, 0, 1023⟩, ⟨10, 10, .rwp, 0, 1023⟩, ⟨20, 12, .ro, 0, 4095⟩]⟩,  -- PWM_LEG_TIME
  ⟨189, 0x00308010, 24, 32, 1, 0, .fixed 5, [⟨0, 8, .rwp, 1, 255⟩, ⟨8, 8, .rwp, 1, 255⟩, ⟨16, 16, .ro, 0, 65535⟩]⟩,  -- PWM_LEG_TRIP
  ⟨190, 0x00308014, 24, 32, 1, 0, .fixed 5, [⟨0, 1, .w1c, 0, 1⟩, ⟨1, 7, .ro, 0, 127⟩, ⟨8, 8, .ro, 0, 255⟩, ⟨16, 16, .ro, 0, 65535⟩]⟩,  -- PWM_LEG_STAT
  ⟨191, 0x00308018, 24, 32, 1, 0, .fixed 5, [⟨0, 32, .ro, 0, 4294967295⟩]⟩  -- PWM_LEG_DEBT
  ]

def regRows06_0 : List RegRow := [
  ⟨192, 0x00400000, 1, 0, 1, 0, .fixed 5, [⟨0, 9, .rwp, 0, 256⟩, ⟨9, 23, .ro, 0, 8388607⟩]⟩,  -- CE_CFG
  ⟨193, 0x00400004, 1, 0, 1, 0, .fixed 5, [⟨0, 1, .ro, 0, 1⟩, ⟨1, 1, .ro, 0, 1⟩, ⟨2, 1, .w1c, 0, 1⟩, ⟨3, 29, .ro, 0, 536870911⟩]⟩,  -- CE_STATUS
  ⟨194, 0x00400008, 1, 0, 1, 0, .fixed 5, [⟨0, 16, .ro, 0, 65535⟩, ⟨16, 16, .ro, 0, 65535⟩]⟩,  -- CE_TCE
  ⟨195, 0x0040000C, 1, 0, 1, 0, .fixed 5, [⟨0, 12, .ro, 0, 4095⟩, ⟨12, 20, .ro, 0, 1048575⟩]⟩,  -- CE_NIMP
  ⟨196, 0x00400010, 8, 4, 1, 0, .fixed 5, [⟨0, 32, .ro, 0, 4294967295⟩]⟩,  -- CE_FLAG_SUMn
  ⟨197, 0x00400030, 1, 0, 1, 0, .fixed 5, [⟨0, 16, .ro, 0, 65535⟩, ⟨16, 16, .ro, 0, 65535⟩]⟩,  -- CE_CNT_ECC
  ⟨198, 0x00400034, 1, 0, 1, 0, .fixed 5, [⟨0, 32, .ro, 0, 4294967295⟩]⟩,  -- CE_PASS
  ⟨199, 0x00401000, 256, 16, 1, 0, .fixed 5, [⟨0, 12, .rwp, 0, 4095⟩, ⟨12, 4, .ro, 0, 15⟩, ⟨16, 13, .rwp, 1, 4096⟩, ⟨29, 3, .ro, 0, 7⟩]⟩,  -- CE_PROG_RANGE
  ⟨200, 0x00401004, 256, 16, 1, 0, .fixed 5, [⟨0, 1, .rwp, 0, 1⟩, ⟨1, 1, .rwp, 0, 1⟩, ⟨2, 1, .rwp, 0, 1⟩, ⟨3, 1, .rwp, 0, 1⟩, ⟨4, 12, .ro, 0, 4095⟩, ⟨16, 12, .rwp, 0, 4095⟩, ⟨28, 4, .ro, 0, 15⟩]⟩,  -- CE_PROG_CTRL
  ⟨201, 0x00401008, 256, 16, 1, 0, .fixed 5, [⟨0, 1, .rwp, 0, 1⟩, ⟨1, 31, .ro, 0, 2147483647⟩]⟩,  -- CE_PROG_CMD
  ⟨202, 0x0040100C, 256, 16, 1, 0, .fixed 5, [⟨0, 13, .ro, 0, 8191⟩, ⟨13, 1, .ro, 0, 1⟩, ⟨14, 1, .ro, 0, 1⟩, ⟨15, 1, .ro, 0, 1⟩, ⟨16, 16, .ro, 0, 65535⟩]⟩,  -- CE_PROG_STAT
  ⟨203, 0x00404000, 2048, 8, 1, 0, .fixed 5, [⟨0, 4, .rwp, 0, 15⟩, ⟨4, 12, .rwp, 0, 4095⟩, ⟨16, 8, .rwp, 0, 255⟩, ⟨24, 4, .rwp, 0, 15⟩, ⟨28, 4, .ro, 0, 15⟩]⟩,  -- CE_IMP_SRC
  ⟨204, 0x00404004, 2048, 8, 1, 0, .fixed 5, [⟨0, 13, .rwp, 0, 8191⟩, ⟨13, 3, .ro, 0, 7⟩, ⟨16, 16, .rwp, 0, 65535⟩]⟩,  -- CE_IMP_DST
  ⟨205, 0x00410000, 4096, 64, 1, 0, .fixed 5, [⟨0, 4, .rwp, 0, 15⟩, ⟨4, 4, .rwp, 0, 15⟩, ⟨8, 1, .rwp, 0, 1⟩, ⟨9, 1, .rwp, 0, 1⟩, ⟨10, 1, .rwp, 0, 1⟩, ⟨11, 1, .rwp, 0, 1⟩, ⟨12, 4, .ro, 0, 15⟩, ⟨16, 8, .rwp, 0, 255⟩, ⟨24, 8, .ro, 0, 255⟩]⟩,  -- CE_SEC_OP
  ⟨206, 0x00410004, 4096, 64, 1, 0, .fixed 5, [⟨0, 13, .rwp, 0, 8191⟩, ⟨13, 3, .ro, 0, 7⟩, ⟨16, 13, .rwp, 0, 8191⟩, ⟨29, 3, .ro, 0, 7⟩]⟩,  -- CE_SEC_IN
  ⟨207, 0x00410008, 4096, 64, 1, 0, .fixed 5, [⟨0, 13, .rwp, 0, 8191⟩, ⟨13, 3, .ro, 0, 7⟩, ⟨16, 13, .rwp, 0, 8191⟩, ⟨29, 3, .ro, 0, 7⟩]⟩,  -- CE_SEC_IO
  ⟨208, 0x0041000C, 4096, 64, 1, 0, .fixed 5, [⟨0, 16, .rwp, 0, 65535⟩, ⟨16, 16, .rwp, 0, 65535⟩]⟩,  -- CE_SEC_C01
  ⟨209, 0x00410010, 4096, 64, 1, 0, .fixed 5, [⟨0, 16, .rwp, 0, 65535⟩, ⟨16, 16, .rwp, 0, 65535⟩]⟩,  -- CE_SEC_C23
  ⟨210, 0x00410014, 4096, 64, 1, 0, .fixed 5, [⟨0, 16, .rwp, 0, 65535⟩, ⟨16, 16, .ro, 0, 65535⟩]⟩,  -- CE_SEC_C4
  ⟨211, 0x00410018, 4096, 64, 1, 0, .fixed 5, [⟨0, 1, .w1c, 0, 1⟩, ⟨1, 1, .w1c, 0, 1⟩, ⟨2, 1, .w1c, 0, 1⟩, ⟨3, 2, .ro, 0, 3⟩, ⟨5, 27, .ro, 0, 134217727⟩]⟩  -- CE_SEC_FLAG
  ]

def regRows06_1 : List RegRow := [
  ⟨212, 0x00410020, 4096, 64, 1, 0, .fixed 5, [⟨0, 32, .ro, 0, 4294967295⟩]⟩,  -- CE_SEC_S1_LO
  ⟨213, 0x00410024, 4096, 64, 1, 0, .fixed 5, [⟨0, 32, .ro, 0, 4294967295⟩]⟩,  -- CE_SEC_S1_HI
  ⟨214, 0x00410028, 4096, 64, 1, 0, .fixed 5, [⟨0, 32, .ro, 0, 4294967295⟩]⟩,  -- CE_SEC_S2_LO
  ⟨215, 0x0041002C, 4096, 64, 1, 0, .fixed 5, [⟨0, 32, .ro, 0, 4294967295⟩]⟩,  -- CE_SEC_S2_HI
  ⟨216, 0x00480000, 8192, 4, 1, 0, .fixed 5, [⟨0, 16, .rwp, 0, 65535⟩, ⟨16, 16, .ro, 0, 65535⟩]⟩,  -- CE_SIG
  ⟨217, 0x00488000, 512, 4, 1, 0, .fixed 5, [⟨0, 32, .rwp, 0, 4294967295⟩]⟩  -- CE_SIG_OWN
  ]

def regRows07_0 : List RegRow := [
  ⟨218, 0x00500000, 1, 0, 1, 0, .fixed 5, [⟨0, 1, .rwp, 0, 1⟩, ⟨1, 7, .ro, 0, 127⟩, ⟨8, 8, .rwp, 10, 90⟩, ⟨16, 16, .ro, 0, 65535⟩]⟩,  -- GRID_CFG
  ⟨219, 0x00500004, 1, 0, 1, 0, .fixed 5, [⟨0, 3, .ro, 0, 7⟩, ⟨3, 3, .ro, 0, 7⟩, ⟨6, 3, .ro, 0, 7⟩, ⟨9, 3, .ro, 0, 7⟩, ⟨12, 3, .ro, 0, 7⟩, ⟨15, 17, .ro, 0, 131071⟩]⟩,  -- GRID_G_SHIFT
  ⟨220, 0x00500100, 9, 64, 1, 0, .fixed 5, [⟨0, 6, .rwp, 0, 63⟩, ⟨6, 1, .rwp, 0, 1⟩, ⟨7, 1, .rwp, 0, 1⟩, ⟨8, 4, .rwp, 0, 11⟩, ⟨12, 4, .rwp, 0, 11⟩, ⟨16, 4, .rwp, 0, 11⟩, ⟨20, 12, .ro, 0, 4095⟩]⟩,  -- GRID_PT_SRC
  ⟨221, 0x00500104, 9, 64, 1, 0, .fixed 5, [⟨0, 8, .rwp, 0, 255⟩, ⟨8, 8, .rwp, 0, 255⟩, ⟨16, 8, .rwp, 0, 255⟩, ⟨24, 8, .ro, 0, 255⟩]⟩,  -- GRID_PT_CHAN
  ⟨222, 0x00500108, 9, 64, 1, 0, .fixed 5, [⟨0, 16, .rwp, 0, 65535⟩, ⟨16, 16, .ro, 0, 65535⟩]⟩,  -- GRID_PT_VNOM
  ⟨223, 0x0050010C, 9, 64, 1, 0, .fixed 5, [⟨0, 16, .rwp, 0, 65535⟩, ⟨16, 16, .rwp, 0, 65535⟩]⟩,  -- GRID_PT_DLY
  ⟨224, 0x00500110, 9, 64, 1, 0, .fixed 5, [⟨0, 8, .rwp, 1, 200⟩, ⟨8, 24, .ro, 0, 16777215⟩]⟩,  -- GRID_PT_LAT
  ⟨225, 0x00500114, 9, 64, 1, 0, .fixed 5, [⟨0, 16, .rwp, 0, 65535⟩, ⟨16, 16, .rwp, 0, 65535⟩]⟩,  -- GRID_PT_FLL
  ⟨226, 0x00500118, 9, 64, 1, 0, .fixed 5, [⟨0, 1, .ro, 0, 1⟩, ⟨1, 1, .ro, 0, 1⟩, ⟨2, 1, .ro, 0, 1⟩, ⟨3, 1, .ro, 0, 1⟩, ⟨4, 2, .ro, 0, 3⟩, ⟨6, 1, .ro, 0, 1⟩, ⟨7, 3, .ro, 0, 7⟩, ⟨10, 1, .ro, 0, 1⟩, ⟨11, 21, .ro, 0, 2097151⟩]⟩,  -- GRID_PT_STAT
  ⟨227, 0x0050011C, 9, 64, 1, 0, .fixed 5, [⟨0, 32, .ro, 0, 4294967295⟩]⟩,  -- GRID_PT_FREQ
  ⟨228, 0x00500120, 9, 64, 1, 0, .fixed 5, [⟨0, 32, .ro, 0, 4294967295⟩]⟩,  -- GRID_PT_ROCOF
  ⟨229, 0x00500124, 9, 64, 1, 0, .fixed 5, [⟨0, 16, .ro, 0, 65535⟩, ⟨16, 16, .ro, 0, 65535⟩]⟩,  -- GRID_PT_VPOS
  ⟨230, 0x00500128, 9, 64, 1, 0, .fixed 5, [⟨0, 16, .ro, 0, 65535⟩, ⟨16, 16, .ro, 0, 65535⟩]⟩,  -- GRID_PT_VNEG
  ⟨231, 0x0050012C, 9, 64, 1, 0, .fixed 5, [⟨0, 8, .ro, 0, 255⟩, ⟨8, 8, .ro, 0, 255⟩, ⟨16, 8, .ro, 0, 255⟩, ⟨24, 8, .ro, 0, 255⟩]⟩,  -- GRID_PT_CNT
  ⟨232, 0x00500130, 9, 64, 1, 0, .fixed 5, [⟨0, 16, .ro, 0, 65535⟩, ⟨16, 16, .ro, 0, 65535⟩]⟩,  -- GRID_PT_BSI_ERR
  ⟨233, 0x00500800, 8, 64, 1, 0, .fixed 5, [⟨0, 4, .rwp, 0, 8⟩, ⟨4, 1, .rwp, 0, 1⟩, ⟨5, 1, .rwp, 0, 1⟩, ⟨6, 1, .rwp, 0, 1⟩, ⟨7, 1, .rwp, 0, 1⟩, ⟨8, 1, .rwp, 0, 1⟩, ⟨9, 1, .rwp, 0, 1⟩, ⟨10, 22, .ro, 0, 4194303⟩]⟩,  -- GRID_CLU_CFG
  ⟨234, 0x00500804, 8, 64, 1, 0, .fixed 5, [⟨0, 13, .rwp, 0, 8191⟩, ⟨13, 3, .ro, 0, 7⟩, ⟨16, 8, .rwp, 0, 255⟩, ⟨24, 8, .ro, 0, 255⟩]⟩,  -- GRID_CLU_SIG
  ⟨235, 0x00500808, 8, 64, 1, 0, .fixed 5, [⟨0, 22, .rwp, 0, 4194303⟩, ⟨22, 10, .ro, 0, 1023⟩]⟩,  -- GRID_CLU_LEAD
  ⟨236, 0x0050080C, 8, 64, 1, 0, .fixed 5, [⟨0, 16, .rwp, 0, 65535⟩, ⟨16, 16, .rwp, 0, 65535⟩]⟩,  -- GRID_CLU_IBASE
  ⟨237, 0x00500810, 8, 64, 1, 0, .fixed 5, [⟨0, 16, .rwp, 0, 65535⟩, ⟨16, 16, .ro, 0, 65535⟩]⟩  -- GRID_CLU_VDC
  ]

def regRows07_1 : List RegRow := [
  ⟨238, 0x00500814, 8, 64, 1, 0, .fixed 5, [⟨0, 8, .rwp, 0, 255⟩, ⟨8, 8, .rwp, 0, 255⟩, ⟨16, 8, .rwp, 0, 255⟩, ⟨24, 8, .rwp, 0, 255⟩]⟩,  -- GRID_CLU_BAL
  ⟨239, 0x00500818, 8, 64, 1, 0, .fixed 5, [⟨0, 8, .rwp, 0, 255⟩, ⟨8, 8, .rwp, 0, 255⟩, ⟨16, 8, .rwp, 0, 150⟩, ⟨24, 8, .rwp, 0, 255⟩]⟩,  -- GRID_CLU_PH
  ⟨240, 0x0050081C, 8, 64, 1, 0, .fixed 5, [⟨0, 8, .rwp, 0, 255⟩, ⟨8, 8, .rwp, 0, 255⟩, ⟨16, 16, .ro, 0, 65535⟩]⟩,  -- GRID_CLU_DC
  ⟨241, 0x00500820, 8, 64, 1, 0, .fixed 5, [⟨0, 3, .ro, 0, 7⟩, ⟨3, 1, .ro, 0, 1⟩, ⟨4, 1, .ro, 0, 1⟩, ⟨5, 1, .ro, 0, 1⟩, ⟨6, 3, .ro, 0, 7⟩, ⟨9, 3, .ro, 0, 7⟩, ⟨12, 1, .ro, 0, 1⟩, ⟨13, 19, .ro, 0, 524287⟩]⟩,  -- GRID_CLU_STAT
  ⟨242, 0x00500824, 8, 64, 1, 0, .fixed 5, [⟨0, 16, .ro, 0, 65535⟩, ⟨16, 16, .ro, 0, 65535⟩]⟩,  -- GRID_CLU_IREF
  ⟨243, 0x00500828, 8, 64, 1, 0, .fixed 5, [⟨0, 16, .ro, 0, 65535⟩, ⟨16, 16, .ro, 0, 65535⟩]⟩,  -- GRID_CLU_IREFN
  ⟨244, 0x0050082C, 8, 64, 1, 0, .fixed 5, [⟨0, 16, .ro, 0, 65535⟩, ⟨16, 16, .ro, 0, 65535⟩]⟩  -- GRID_CLU_U0
  ]

def regRows08_0 : List RegRow := [
  ⟨245, 0x00510000, 1, 0, 1, 0, .fixed 5, [⟨0, 1, .rwp, 0, 1⟩, ⟨1, 10, .rwp, 20, 1000⟩, ⟨11, 10, .rwp, 0, 1023⟩, ⟨21, 11, .ro, 0, 2047⟩]⟩,  -- MPPT_CFG
  ⟨246, 0x00510004, 1, 0, 1, 0, .fixed 5, [⟨0, 8, .rwp, 0, 255⟩, ⟨8, 8, .rwp, 0, 255⟩, ⟨16, 8, .rwp, 0, 255⟩, ⟨24, 8, .rwp, 0, 255⟩]⟩,  -- MPPT_STEP
  ⟨247, 0x00510008, 1, 0, 1, 0, .fixed 5, [⟨0, 2, .rwp, 0, 2⟩, ⟨2, 10, .rwp, 0, 1023⟩, ⟨12, 8, .rwp, 0, 255⟩, ⟨20, 12, .ro, 0, 4095⟩]⟩,  -- MPPT_SCAN
  ⟨248, 0x0051000C, 1, 0, 1, 0, .fixed 5, [⟨0, 8, .rwp, 0, 255⟩, ⟨8, 8, .rwp, 0, 153⟩, ⟨16, 8, .rwp, 0, 255⟩, ⟨24, 8, .rwp, 0, 255⟩]⟩,  -- MPPT_LIMITS
  ⟨249, 0x00510010, 1, 0, 1, 0, .fixed 5, [⟨0, 10, .rwl, 0, 1023⟩, ⟨10, 3, .rwl, 0, 3⟩, ⟨13, 19, .ro, 0, 524287⟩]⟩,  -- MPPT_CMD
  ⟨250, 0x00510014, 1, 0, 1, 0, .fixed 5, [⟨0, 16, .ro, 0, 65535⟩, ⟨16, 16, .ro, 0, 65535⟩]⟩,  -- MPPT_CNT
  ⟨251, 0x00510040, 16, 4, 1, 0, .fixed 5, [⟨0, 16, .rwp, 0, 65535⟩, ⟨16, 16, .rwp, 0, 65535⟩]⟩,  -- MPPT_TYPE_RATE
  ⟨252, 0x00510100, 8, 64, 1, 0, .fixed 5, [⟨0, 16, .rw, 0, 65535⟩, ⟨16, 11, .rw, 0, 2047⟩, ⟨27, 1, .rw, 0, 1⟩, ⟨28, 4, .ro, 0, 15⟩]⟩,  -- MPPT_CLU_PLIM
  ⟨253, 0x00510104, 8, 64, 1, 0, .fixed 5, [⟨0, 16, .ro, 0, 65535⟩, ⟨16, 16, .ro, 0, 65535⟩]⟩,  -- MPPT_CLU_PAVAIL
  ⟨254, 0x00510108, 8, 64, 1, 0, .fixed 5, [⟨0, 16, .ro, 0, 65535⟩, ⟨16, 16, .ro, 0, 65535⟩]⟩,  -- MPPT_CLU_PTGT
  ⟨255, 0x0051010C, 8, 64, 1, 0, .fixed 5, [⟨0, 1, .ro, 0, 1⟩, ⟨1, 1, .ro, 0, 1⟩, ⟨2, 1, .ro, 0, 1⟩, ⟨3, 1, .ro, 0, 1⟩, ⟨4, 6, .ro, 0, 63⟩, ⟨10, 22, .ro, 0, 4194303⟩]⟩,  -- MPPT_CLU_STAT
  ⟨256, 0x00510110, 8, 64, 3, 4, .fixed 5, [⟨0, 16, .ro, 0, 65535⟩, ⟨16, 2, .ro, 0, 3⟩, ⟨18, 1, .ro, 0, 1⟩, ⟨19, 13, .ro, 0, 8191⟩]⟩,  -- MPPT_PH_CAP
  ⟨257, 0x0051011C, 8, 64, 3, 4, .fixed 5, [⟨0, 16, .ro, 0, 65535⟩, ⟨16, 16, .ro, 0, 65535⟩]⟩,  -- MPPT_PH_CEIL
  ⟨258, 0x00514000, 1024, 16, 1, 0, .fixed 5, [⟨0, 3, .ro, 0, 7⟩, ⟨3, 1, .ro, 0, 1⟩, ⟨4, 1, .ro, 0, 1⟩, ⟨5, 1, .ro, 0, 1⟩, ⟨6, 1, .ro, 0, 1⟩, ⟨7, 1, .ro, 0, 1⟩, ⟨8, 8, .ro, 0, 255⟩, ⟨16, 16, .ro, 0, 65535⟩]⟩,  -- MPPT_CELL_STAT
  ⟨259, 0x00514004, 1024, 16, 1, 0, .fixed 5, [⟨0, 16, .ro, 0, 65535⟩, ⟨16, 16, .ro, 0, 65535⟩]⟩,  -- MPPT_CELL_REF
  ⟨260, 0x00514008, 1024, 16, 1, 0, .fixed 5, [⟨0, 16, .ro, 0, 65535⟩, ⟨16, 16, .ro, 0, 65535⟩]⟩,  -- MPPT_CELL_PWR
  ⟨261, 0x0051400C, 1024, 16, 1, 0, .fixed 5, [⟨0, 16, .ro, 0, 65535⟩, ⟨16, 16, .ro, 0, 65535⟩]⟩  -- MPPT_CELL_SCAN
  ]

def regRows09_0 : List RegRow := [
  ⟨262, 0x00520000, 1, 0, 1, 0, .fixed 5, [⟨0, 7, .rwp, 1, 100⟩, ⟨7, 25, .ro, 0, 33554431⟩]⟩,  -- FRT_CFG
  ⟨263, 0x00520100, 8, 64, 1, 0, .fixed 5, [⟨0, 2, .rwp, 0, 3⟩, ⟨2, 2, .rwp, 0, 3⟩, ⟨4, 1, .rwp, 0, 1⟩, ⟨5, 1, .rwp, 0, 1⟩, ⟨6, 1, .rwp, 0, 1⟩, ⟨7, 25, .ro, 0, 33554431⟩]⟩,  -- FRT_CLU_CFG
  ⟨264, 0x00520104, 8, 64, 1, 0, .fixed 5, [⟨0, 6, .rwp, 0, 63⟩, ⟨6, 6, .rwp, 0, 63⟩, ⟨12, 6, .rwp, 0, 63⟩, ⟨18, 6, .rwp, 0, 63⟩, ⟨24, 6, .rwp, 0, 63⟩, ⟨30, 2, .ro, 0, 3⟩]⟩,  -- FRT_CLU_CURVE
  ⟨265, 0x00520108, 8, 64, 1, 0, .fixed 5, [⟨0, 2, .rwl, 0, 3⟩, ⟨2, 30, .ro, 0, 1073741823⟩]⟩,  -- FRT_CLU_CMD
  ⟨266, 0x0052010C, 8, 64, 1, 0, .fixed 5, [⟨0, 4, .ro, 0, 15⟩, ⟨4, 4, .ro, 0, 15⟩, ⟨8, 6, .ro, 0, 63⟩, ⟨14, 1, .ro, 0, 1⟩, ⟨15, 1, .ro, 0, 1⟩, ⟨16, 3, .ro, 0, 7⟩, ⟨19, 13, .ro, 0, 8191⟩]⟩,  -- FRT_CLU_STAT
  ⟨267, 0x00520110, 8, 64, 1, 0, .fixed 5, [⟨0, 16, .ro, 0, 65535⟩, ⟨16, 16, .ro, 0, 65535⟩]⟩,  -- FRT_CLU_U
  ⟨268, 0x00520114, 8, 64, 1, 0, .fixed 5, [⟨0, 32, .ro, 0, 4294967295⟩]⟩,  -- FRT_CLU_TF_LO
  ⟨269, 0x00520118, 8, 64, 1, 0, .fixed 5, [⟨0, 32, .ro, 0, 4294967295⟩]⟩,  -- FRT_CLU_TF_HI
  ⟨270, 0x0052011C, 8, 64, 1, 0, .fixed 5, [⟨0, 16, .ro, 0, 65535⟩, ⟨16, 16, .ro, 0, 65535⟩]⟩,  -- FRT_CLU_PRT
  ⟨271, 0x00520120, 8, 64, 1, 0, .fixed 5, [⟨0, 16, .ro, 0, 65535⟩, ⟨16, 16, .ro, 0, 65535⟩]⟩,  -- FRT_CLU_IRT
  ⟨272, 0x00520124, 8, 64, 1, 0, .fixed 5, [⟨0, 32, .ro, 0, 4294967295⟩]⟩,  -- FRT_CLU_TIME
  ⟨273, 0x00520128, 8, 64, 1, 0, .fixed 5, [⟨0, 8, .ro, 0, 255⟩, ⟨8, 8, .ro, 0, 255⟩, ⟨16, 8, .ro, 0, 255⟩, ⟨24, 8, .ro, 0, 255⟩]⟩,  -- FRT_CLU_CNT
  ⟨274, 0x0052012C, 8, 64, 1, 0, .fixed 5, [⟨0, 16, .rw, 0, 65535⟩, ⟨16, 11, .rw, 0, 2047⟩, ⟨27, 1, .rw, 0, 1⟩, ⟨28, 4, .ro, 0, 15⟩]⟩,  -- FRT_CLU_QDISP
  ⟨275, 0x00520800, 1, 0, 1, 0, .fixed 5, [⟨0, 4, .rwp, 0, 8⟩, ⟨4, 1, .rwp, 0, 1⟩, ⟨5, 11, .ro, 0, 2047⟩, ⟨16, 11, .rwp, 0, 2047⟩, ⟨27, 5, .ro, 0, 31⟩]⟩,  -- ISL_CFG
  ⟨276, 0x00520804, 1, 0, 1, 0, .fixed 5, [⟨0, 16, .rwp, 0, 65535⟩, ⟨16, 8, .rwp, 0, 255⟩, ⟨24, 8, .rwp, 0, 255⟩]⟩,  -- ISL_PASSIVE
  ⟨277, 0x00520808, 1, 0, 1, 0, .fixed 5, [⟨0, 5, .rwp, 1, 20⟩, ⟨5, 11, .ro, 0, 2047⟩, ⟨16, 16, .rwp, 0, 65535⟩]⟩,  -- ISL_ACT_CFG
  ⟨278, 0x0052080C, 1, 0, 1, 0, .fixed 5, [⟨0, 16, .rwp, 1, 65535⟩, ⟨16, 16, .ro, 0, 65535⟩]⟩,  -- ISL_SEED
  ⟨279, 0x00520810, 1, 0, 1, 0, .fixed 5, [⟨0, 1, .ro, 0, 1⟩, ⟨1, 1, .ro, 0, 1⟩, ⟨2, 1, .w1c, 0, 1⟩, ⟨3, 1, .ro, 0, 1⟩, ⟨4, 1, .w1c, 0, 1⟩, ⟨5, 1, .ro, 0, 1⟩, ⟨6, 1, .ro, 0, 1⟩, ⟨7, 25, .ro, 0, 33554431⟩]⟩,  -- ISL_STAT
  ⟨280, 0x00520814, 1, 0, 1, 0, .fixed 5, [⟨0, 16, .ro, 0, 65535⟩, ⟨16, 16, .ro, 0, 65535⟩]⟩,  -- ISL_ZNEG
  ⟨281, 0x00520818, 1, 0, 1, 0, .fixed 5, [⟨0, 32, .ro, 0, 4294967295⟩]⟩  -- ISL_DTT_TIME_LO
  ]

def regRows09_1 : List RegRow := [
  ⟨282, 0x0052081C, 1, 0, 1, 0, .fixed 5, [⟨0, 32, .ro, 0, 4294967295⟩]⟩,  -- ISL_DTT_TIME_HI
  ⟨283, 0x00530000, 64, 4, 1, 0, .fixed 5, [⟨0, 6, .rwp, 0, 32⟩, ⟨6, 2, .rwp, 0, 3⟩, ⟨8, 1, .ro, 0, 1⟩, ⟨9, 23, .ro, 0, 8388607⟩]⟩,  -- TBL_CURVE_HDR
  ⟨284, 0x00531000, 64, 128, 32, 4, .fixed 5, [⟨0, 16, .rwp, 0, 65535⟩, ⟨16, 16, .rwp, 0, 65535⟩]⟩,  -- TBL_PT
  ⟨285, 0x00534000, 4, 512, 64, 8, .fixed 5, [⟨0, 4, .rwp, 0, 15⟩, ⟨4, 4, .rwp, 0, 15⟩, ⟨8, 5, .rwp, 0, 31⟩, ⟨13, 1, .rwp, 0, 1⟩, ⟨14, 2, .ro, 0, 3⟩, ⟨16, 16, .rwp, 0, 65535⟩]⟩,  -- TBL_SM_COND
  ⟨286, 0x00534004, 4, 512, 64, 8, .fixed 5, [⟨0, 24, .rwp, 0, 16777215⟩, ⟨24, 4, .rwp, 0, 15⟩, ⟨28, 4, .ro, 0, 15⟩]⟩  -- TBL_SM_ACT
  ]

def regRows10_0 : List RegRow := [
  ⟨287, 0x00600000, 1, 0, 1, 0, .fixed 8, [⟨0, 1, .rwp, 0, 1⟩, ⟨1, 1, .rwp, 0, 1⟩, ⟨2, 1, .rwp, 0, 1⟩, ⟨3, 1, .rwp, 0, 1⟩, ⟨4, 1, .rwp, 0, 1⟩, ⟨5, 1, .rwp, 0, 1⟩, ⟨6, 26, .ro, 0, 67108863⟩]⟩,  -- PB_CFG
  ⟨288, 0x00600010, 4, 4, 1, 0, .fixed 8, [⟨0, 1, .ro, 0, 1⟩, ⟨1, 1, .ro, 0, 1⟩, ⟨2, 1, .ro, 0, 1⟩, ⟨3, 13, .ro, 0, 8191⟩, ⟨16, 16, .ro, 0, 65535⟩]⟩,  -- PB_PORT_STAT
  ⟨289, 0x00600020, 2, 4, 1, 0, .fixed 8, [⟨0, 1, .ro, 0, 1⟩, ⟨1, 1, .ro, 0, 1⟩, ⟨2, 1, .ro, 0, 1⟩, ⟨3, 13, .ro, 0, 8191⟩, ⟨16, 16, .ro, 0, 65535⟩]⟩,  -- PB_RED_STAT
  ⟨290, 0x00600028, 2, 4, 1, 0, .fixed 8, [⟨0, 32, .ro, 0, 4294967295⟩]⟩,  -- PB_CNT_DUP
  ⟨291, 0x00600030, 2, 4, 1, 0, .fixed 8, [⟨0, 32, .ro, 0, 4294967295⟩]⟩,  -- PB_CNT_UNMATCHED
  ⟨292, 0x00600038, 2, 4, 1, 0, .fixed 8, [⟨0, 32, .ro, 0, 4294967295⟩]⟩,  -- PB_CNT_OVERLOAD
  ⟨293, 0x00600040, 2, 8, 1, 0, .fixed 8, [⟨0, 32, .rwl, 0, 4294967295⟩]⟩,  -- PB_MAC_LO
  ⟨294, 0x00600044, 2, 8, 1, 0, .fixed 8, [⟨0, 32, .rwl, 0, 4294967295⟩]⟩,  -- PB_MAC_HI
  ⟨295, 0x00601000, 64, 64, 1, 0, .fixed 8, [⟨0, 32, .rwp, 0, 4294967295⟩]⟩,  -- SV_SUB_DST_LO
  ⟨296, 0x00601004, 64, 64, 1, 0, .fixed 8, [⟨0, 16, .rwp, 0, 65535⟩, ⟨16, 16, .rwp, 0, 65535⟩]⟩,  -- SV_SUB_DST_HI
  ⟨297, 0x00601008, 64, 64, 1, 0, .fixed 8, [⟨0, 32, .rwp, 0, 4294967295⟩]⟩,  -- SV_SUB_SRC_LO
  ⟨298, 0x0060100C, 64, 64, 1, 0, .fixed 8, [⟨0, 32, .rwp, 0, 4294967295⟩]⟩,  -- SV_SUB_SRC_HI
  ⟨299, 0x00601010, 64, 64, 1, 0, .fixed 8, [⟨0, 32, .ro, 0, 4294967295⟩]⟩,  -- SV_SUB_ID
  ⟨300, 0x00601014, 64, 64, 1, 0, .fixed 8, [⟨0, 1, .rwp, 0, 1⟩, ⟨1, 2, .rwp, 0, 3⟩, ⟨3, 3, .rwp, 0, 7⟩, ⟨6, 5, .rwp, 0, 31⟩, ⟨11, 1, .rwp, 0, 1⟩, ⟨12, 1, .rwp, 0, 1⟩, ⟨13, 1, .rwp, 0, 1⟩, ⟨14, 18, .ro, 0, 262143⟩]⟩,  -- SV_SUB_CFG
  ⟨301, 0x00601018, 64, 64, 1, 0, .fixed 8, [⟨0, 32, .rwp, 0, 4294967295⟩]⟩,  -- SV_SUB_CONFREV
  ⟨302, 0x0060101C, 64, 64, 1, 0, .fixed 8, [⟨0, 3, .ro, 0, 7⟩, ⟨3, 1, .w1c, 0, 1⟩, ⟨4, 1, .w1c, 0, 1⟩, ⟨5, 1, .w1c, 0, 1⟩, ⟨6, 1, .ro, 0, 1⟩, ⟨7, 9, .ro, 0, 511⟩, ⟨16, 16, .ro, 0, 65535⟩]⟩,  -- SV_SUB_STAT
  ⟨303, 0x00601020, 64, 64, 1, 0, .fixed 8, [⟨0, 32, .ro, 0, 4294967295⟩]⟩,  -- SV_SUB_CNT_GOOD
  ⟨304, 0x00601024, 64, 64, 1, 0, .fixed 8, [⟨0, 32, .ro, 0, 4294967295⟩]⟩,  -- SV_SUB_CNT_BAD
  ⟨305, 0x00601028, 64, 64, 1, 0, .fixed 8, [⟨0, 32, .ro, 0, 4294967295⟩]⟩,  -- SV_SUB_CNT_CONFLICT
  ⟨306, 0x0060102C, 64, 64, 1, 0, .fixed 8, [⟨0, 16, .ro, 0, 65535⟩, ⟨16, 16, .ro, 0, 65535⟩]⟩  -- SV_SUB_LAT
  ]

def regRows10_1 : List RegRow := [
  ⟨307, 0x00602000, 16, 64, 1, 0, .fixed 8, [⟨0, 32, .rwp, 0, 4294967295⟩]⟩,  -- SV_PUB_DST_LO
  ⟨308, 0x00602004, 16, 64, 1, 0, .fixed 8, [⟨0, 16, .rwp, 0, 65535⟩, ⟨16, 16, .rwp, 0, 65535⟩]⟩,  -- SV_PUB_DST_HI
  ⟨309, 0x00602008, 32, 64, 1, 0, .fixed 8, [⟨0, 1, .rwp, 0, 1⟩, ⟨1, 1, .rwp, 0, 1⟩, ⟨2, 5, .rwp, 0, 23⟩, ⟨7, 1, .rwp, 0, 1⟩, ⟨8, 1, .rwp, 0, 1⟩, ⟨9, 12, .rwp, 0, 4095⟩, ⟨21, 3, .rwp, 0, 7⟩, ⟨24, 8, .ro, 0, 255⟩]⟩,  -- SV_PUB_CFG
  ⟨310, 0x0060200C, 32, 64, 1, 0, .fixed 8, [⟨0, 32, .ro, 0, 4294967295⟩]⟩,  -- SV_PUB_CONFREV
  ⟨311, 0x00602010, 32, 64, 1, 0, .fixed 8, [⟨0, 1, .ro, 0, 1⟩, ⟨1, 2, .ro, 0, 3⟩, ⟨3, 13, .ro, 0, 8191⟩, ⟨16, 16, .ro, 0, 65535⟩]⟩,  -- SV_PUB_STAT
  ⟨312, 0x00603000, 32, 128, 24, 4, .fixed 8, [⟨0, 13, .rwp, 0, 8191⟩, ⟨13, 1, .rwp, 0, 1⟩, ⟨14, 1, .ro, 0, 1⟩, ⟨15, 1, .rwp, 0, 1⟩, ⟨16, 16, .rwp, 0, 65535⟩]⟩,  -- SV_PUB_CH
  ⟨313, 0x00603800, 32, 128, 24, 4, .fixed 8, [⟨0, 13, .rwp, 0, 8191⟩, ⟨13, 19, .ro, 0, 524287⟩]⟩,  -- SV_PUB_QSIG
  ⟨314, 0x00604000, 128, 64, 1, 0, .fixed 8, [⟨0, 32, .rwp, 0, 4294967295⟩]⟩,  -- GOOSE_SUB_DST_LO
  ⟨315, 0x00604004, 128, 64, 1, 0, .fixed 8, [⟨0, 16, .rwp, 0, 65535⟩, ⟨16, 16, .rwp, 0, 65535⟩]⟩,  -- GOOSE_SUB_DST_HI
  ⟨316, 0x00604008, 128, 64, 1, 0, .fixed 8, [⟨0, 32, .rwp, 0, 4294967295⟩]⟩,  -- GOOSE_SUB_SRC_LO
  ⟨317, 0x0060400C, 128, 64, 1, 0, .fixed 8, [⟨0, 32, .rwp, 0, 4294967295⟩]⟩,  -- GOOSE_SUB_SRC_HI
  ⟨318, 0x00604010, 128, 64, 1, 0, .fixed 8, [⟨0, 32, .ro, 0, 4294967295⟩]⟩,  -- GOOSE_SUB_ID
  ⟨319, 0x00604014, 128, 64, 1, 0, .fixed 8, [⟨0, 1, .rwp, 0, 1⟩, ⟨1, 1, .rwp, 0, 1⟩, ⟨2, 1, .rwp, 0, 1⟩, ⟨3, 6, .rwp, 0, 63⟩, ⟨9, 23, .ro, 0, 8388607⟩]⟩,  -- GOOSE_SUB_CFG
  ⟨320, 0x00604018, 128, 64, 1, 0, .fixed 8, [⟨0, 32, .rwp, 0, 4294967295⟩]⟩,  -- GOOSE_SUB_CONFREV
  ⟨321, 0x0060401C, 128, 64, 1, 0, .fixed 8, [⟨0, 1, .ro, 0, 1⟩, ⟨1, 1, .ro, 0, 1⟩, ⟨2, 1, .ro, 0, 1⟩, ⟨3, 1, .w1c, 0, 1⟩, ⟨4, 1, .w1c, 0, 1⟩, ⟨5, 11, .ro, 0, 2047⟩, ⟨16, 16, .ro, 0, 65535⟩]⟩,  -- GOOSE_SUB_STAT
  ⟨322, 0x00604020, 128, 64, 1, 0, .fixed 8, [⟨0, 32, .ro, 0, 4294967295⟩]⟩,  -- GOOSE_SUB_STNUM
  ⟨323, 0x00604024, 128, 64, 1, 0, .fixed 8, [⟨0, 32, .ro, 0, 4294967295⟩]⟩,  -- GOOSE_SUB_SQNUM
  ⟨324, 0x00604028, 128, 64, 1, 0, .fixed 8, [⟨0, 32, .ro, 0, 4294967295⟩]⟩,  -- GOOSE_SUB_ARR_LO
  ⟨325, 0x0060402C, 128, 64, 1, 0, .fixed 8, [⟨0, 32, .ro, 0, 4294967295⟩]⟩,  -- GOOSE_SUB_ARR_HI
  ⟨326, 0x00606000, 2048, 8, 1, 0, .fixed 8, [⟨0, 7, .rwp, 0, 127⟩, ⟨7, 6, .rwp, 0, 63⟩, ⟨13, 3, .rwp, 0, 7⟩, ⟨16, 2, .rwp, 0, 3⟩, ⟨18, 1, .rwp, 0, 1⟩, ⟨19, 6, .rwp, 0, 63⟩, ⟨25, 7, .ro, 0, 127⟩]⟩  -- GOOSE_VAL_MAP
  ]

def regRows10_2 : List RegRow := [
  ⟨327, 0x00606004, 2048, 8, 1, 0, .fixed 8, [⟨0, 16, .ro, 0, 65535⟩, ⟨16, 1, .ro, 0, 1⟩, ⟨17, 15, .ro, 0, 32767⟩]⟩,  -- GOOSE_VAL_DATA
  ⟨328, 0x0060A000, 32, 256, 64, 4, .fixed 8, [⟨0, 13, .rwp, 0, 8191⟩, ⟨13, 3, .rwp, 0, 7⟩, ⟨16, 4, .rwp, 0, 15⟩, ⟨20, 12, .ro, 0, 4095⟩]⟩,  -- GOOSE_PUB_MEM
  ⟨329, 0x0060C000, 1, 0, 1, 0, .fixed 8, [⟨0, 1, .ro, 0, 1⟩, ⟨1, 1, .ro, 0, 1⟩, ⟨2, 1, .ro, 0, 1⟩, ⟨3, 13, .ro, 0, 8191⟩, ⟨16, 16, .ro, 0, 65535⟩]⟩,  -- PTP_PORT_STAT
  ⟨330, 0x0060C004, 1, 0, 1, 0, .fixed 8, [⟨0, 32, .ro, 0, 4294967295⟩]⟩,  -- PTP_GM_ID_LO
  ⟨331, 0x0060C008, 1, 0, 1, 0, .fixed 8, [⟨0, 32, .ro, 0, 4294967295⟩]⟩,  -- PTP_GM_ID_HI
  ⟨332, 0x0060C00C, 1, 0, 1, 0, .fixed 8, [⟨0, 32, .ro, 0, 4294967295⟩]⟩,  -- PTP_PDELAY_A
  ⟨333, 0x0060C010, 1, 0, 1, 0, .fixed 8, [⟨0, 32, .ro, 0, 4294967295⟩]⟩,  -- PTP_PDELAY_B
  ⟨334, 0x0060D000, 32, 64, 1, 0, .fixed 8, [⟨0, 32, .rwp, 0, 4294967295⟩]⟩,  -- GOOSE_PUB_DST_LO
  ⟨335, 0x0060D004, 32, 64, 1, 0, .fixed 8, [⟨0, 16, .rwp, 0, 65535⟩, ⟨16, 16, .rwp, 0, 65535⟩]⟩,  -- GOOSE_PUB_DST_HI
  ⟨336, 0x0060D008, 32, 64, 1, 0, .fixed 8, [⟨0, 1, .rwp, 0, 1⟩, ⟨1, 1, .rwp, 0, 1⟩, ⟨2, 1, .rwp, 0, 1⟩, ⟨3, 6, .rwp, 0, 63⟩, ⟨9, 5, .rwp, 1, 31⟩, ⟨14, 10, .rwp, 1, 600⟩, ⟨24, 8, .ro, 0, 255⟩]⟩,  -- GOOSE_PUB_CFG
  ⟨337, 0x0060D00C, 32, 64, 1, 0, .fixed 8, [⟨0, 32, .ro, 0, 4294967295⟩]⟩,  -- GOOSE_PUB_STNUM
  ⟨338, 0x0060D010, 32, 64, 1, 0, .fixed 8, [⟨0, 32, .ro, 0, 4294967295⟩]⟩  -- GOOSE_PUB_SQNUM
  ]

def regRows11_0 : List RegRow := [
  ⟨339, 0x00700000, 1, 0, 1, 0, .fixed 8, [⟨0, 3, .rwp, 0, 5⟩, ⟨3, 29, .ro, 0, 536870911⟩]⟩,  -- MTR_CFG
  ⟨340, 0x00700004, 1, 0, 1, 0, .fixed 8, [⟨0, 1, .w1c, 0, 1⟩, ⟨1, 31, .ro, 0, 2147483647⟩]⟩,  -- MTR_STATUS
  ⟨341, 0x00700008, 1, 0, 1, 0, .fixed 8, [⟨0, 32, .ro, 0, 4294967295⟩]⟩,  -- MTR_INT_SEQ_LO
  ⟨342, 0x0070000C, 1, 0, 1, 0, .fixed 8, [⟨0, 32, .ro, 0, 4294967295⟩]⟩,  -- MTR_INT_SEQ_HI
  ⟨343, 0x00700100, 9, 256, 1, 0, .fixed 8, [⟨0, 1, .rwp, 0, 1⟩, ⟨1, 1, .rwp, 0, 1⟩, ⟨2, 1, .rwp, 0, 1⟩, ⟨3, 1, .rwp, 0, 1⟩, ⟨4, 4, .rwp, 0, 8⟩, ⟨8, 6, .rwp, 0, 63⟩, ⟨14, 6, .rwp, 0, 63⟩, ⟨20, 12, .ro, 0, 4095⟩]⟩,  -- MTR_PT_CFG
  ⟨344, 0x00700104, 9, 256, 1, 0, .fixed 8, [⟨0, 8, .rwp, 0, 255⟩, ⟨8, 8, .rwp, 0, 255⟩, ⟨16, 8, .rwp, 0, 255⟩, ⟨24, 8, .rwp, 0, 255⟩]⟩,  -- MTR_PT_VCH
  ⟨345, 0x00700108, 9, 256, 1, 0, .fixed 8, [⟨0, 8, .rwp, 0, 255⟩, ⟨8, 8, .rwp, 0, 255⟩, ⟨16, 8, .rwp, 0, 255⟩, ⟨24, 8, .rwp, 0, 255⟩]⟩,  -- MTR_PT_ICH
  ⟨346, 0x0070010C, 9, 256, 1, 0, .fixed 8, [⟨0, 16, .rwp, 0, 65535⟩, ⟨16, 16, .rwp, 0, 65535⟩]⟩,  -- MTR_PT_NOM
  ⟨347, 0x00700110, 9, 256, 1, 0, .fixed 8, [⟨0, 8, .rwp, 0, 255⟩, ⟨8, 8, .rwp, 0, 255⟩, ⟨16, 16, .ro, 0, 65535⟩]⟩,  -- MTR_PT_NTH
  ⟨348, 0x00700114, 9, 256, 1, 0, .fixed 8, [⟨0, 1, .rwp, 0, 1⟩, ⟨1, 31, .ro, 0, 2147483647⟩]⟩,  -- MTR_PT_CMD
  ⟨349, 0x00700118, 9, 256, 1, 0, .fixed 8, [⟨0, 1, .ro, 0, 1⟩, ⟨1, 1, .ro, 0, 1⟩, ⟨2, 1, .ro, 0, 1⟩, ⟨3, 1, .ro, 0, 1⟩, ⟨4, 1, .ro, 0, 1⟩, ⟨5, 1, .ro, 0, 1⟩, ⟨6, 6, .ro, 0, 63⟩, ⟨12, 20, .ro, 0, 1048575⟩]⟩,  -- MTR_PT_STAT
  ⟨350, 0x00700120, 9, 256, 4, 4, .fixed 8, [⟨0, 32, .ro, 0, 4294967295⟩]⟩,  -- MTR_PT_P
  ⟨351, 0x00700130, 9, 256, 4, 4, .fixed 8, [⟨0, 32, .ro, 0, 4294967295⟩]⟩,  -- MTR_PT_Q
  ⟨352, 0x00700140, 9, 256, 4, 4, .fixed 8, [⟨0, 32, .ro, 0, 4294967295⟩]⟩,  -- MTR_PT_S
  ⟨353, 0x00700150, 9, 256, 4, 4, .fixed 8, [⟨0, 32, .ro, 0, 4294967295⟩]⟩,  -- MTR_PT_VRMS
  ⟨354, 0x00700160, 9, 256, 4, 4, .fixed 8, [⟨0, 32, .ro, 0, 4294967295⟩]⟩,  -- MTR_PT_IRMS
  ⟨355, 0x00700170, 9, 256, 1, 0, .fixed 8, [⟨0, 16, .ro, 0, 65535⟩, ⟨16, 16, .ro, 0, 65535⟩]⟩,  -- MTR_PT_SEQ
  ⟨356, 0x00700174, 9, 256, 3, 4, .fixed 8, [⟨0, 16, .ro, 0, 65535⟩, ⟨16, 16, .ro, 0, 65535⟩]⟩,  -- MTR_PT_THD
  ⟨357, 0x00700180, 9, 256, 7, 8, .fixed 8, [⟨0, 32, .ro, 0, 4294967295⟩]⟩,  -- MTR_PT_E_LO
  ⟨358, 0x00700184, 9, 256, 7, 8, .fixed 8, [⟨0, 32, .ro, 0, 4294967295⟩]⟩  -- MTR_PT_E_HI
  ]

def regRows11_1 : List RegRow := [
  ⟨359, 0x007001C0, 9, 256, 1, 0, .fixed 8, [⟨0, 9, .ro, 0, 511⟩, ⟨9, 7, .ro, 0, 127⟩, ⟨16, 16, .ro, 0, 65535⟩]⟩,  -- MTR_PT_ILAST
  ⟨360, 0x007001C4, 9, 256, 1, 0, .fixed 8, [⟨0, 9, .ro, 0, 511⟩, ⟨9, 23, .ro, 0, 8388607⟩]⟩,  -- MTR_PT_INOW
  ⟨361, 0x00702000, 9, 2048, 512, 4, .fixed 8, [⟨0, 32, .ro, 0, 4294967295⟩]⟩  -- MTR_HARM
  ]

def regRows17_0 : List RegRow := [
  ⟨362, 0x00800000, 1, 0, 1, 0, .fixed 19, [⟨0, 5, .rwp, 0, 16⟩, ⟨5, 4, .rwp, 0, 8⟩, ⟨9, 7, .ro, 0, 127⟩, ⟨16, 16, .rwp, 0, 65535⟩]⟩,  -- IADC_CFG
  ⟨363, 0x00800004, 1, 0, 1, 0, .fixed 19, [⟨0, 7, .ro, 0, 127⟩, ⟨7, 9, .ro, 0, 511⟩, ⟨16, 8, .ro, 0, 255⟩, ⟨24, 1, .ro, 0, 1⟩, ⟨25, 7, .ro, 0, 127⟩]⟩,  -- IADC_STATUS
  ⟨364, 0x00800010, 16, 4, 1, 0, .fixed 19, [⟨0, 6, .rwp, 0, 63⟩, ⟨6, 3, .rwp, 0, 7⟩, ⟨9, 8, .rwp, 1, 200⟩, ⟨17, 15, .ro, 0, 32767⟩]⟩,  -- IADC_SEQ_n
  ⟨365, 0x00800050, 1, 0, 1, 0, .fixed 19, [⟨0, 32, .ro, 0, 4294967295⟩]⟩,  -- IADC_Q_LO
  ⟨366, 0x00800054, 1, 0, 1, 0, .fixed 19, [⟨0, 32, .ro, 0, 4294967295⟩]⟩,  -- IADC_Q_HI
  ⟨367, 0x00800058, 1, 0, 1, 0, .fixed 19, [⟨0, 32, .ro, 0, 4294967295⟩]⟩,  -- IADC_PEEK_LO
  ⟨368, 0x0080005C, 1, 0, 1, 0, .fixed 19, [⟨0, 32, .ro, 0, 4294967295⟩]⟩,  -- IADC_PEEK_HI
  ⟨369, 0x00800060, 16, 4, 1, 0, .fixed 19, [⟨0, 32, .ro, 0, 4294967295⟩]⟩,  -- IADC_LAST_n
  ⟨370, 0x00801000, 36, 16, 1, 0, .fixed 19, [⟨0, 3, .rwp, 0, 7⟩, ⟨3, 1, .rwp, 0, 1⟩, ⟨4, 2, .rwp, 0, 2⟩, ⟨6, 5, .rwp, 0, 31⟩, ⟨11, 1, .rwp, 0, 1⟩, ⟨12, 4, .rwp, 1, 15⟩, ⟨16, 4, .rwp, 0, 15⟩, ⟨20, 4, .rwp, 0, 15⟩, ⟨24, 8, .rwp, 1, 255⟩]⟩,  -- CMP_CFG
  ⟨371, 0x00801004, 36, 16, 1, 0, .fixed 19, [⟨0, 10, .rwp, 0, 1023⟩, ⟨10, 6, .ro, 0, 63⟩, ⟨16, 10, .rwp, 0, 1023⟩, ⟨26, 6, .ro, 0, 63⟩]⟩,  -- CMP_THR
  ⟨372, 0x00801008, 36, 16, 1, 0, .fixed 19, [⟨0, 24, .rwp, 0, 16777215⟩, ⟨24, 8, .ro, 0, 255⟩]⟩,  -- CMP_ROUTE
  ⟨373, 0x0080100C, 36, 16, 1, 0, .fixed 19, [⟨0, 1, .w1c, 0, 1⟩, ⟨1, 1, .ro, 0, 1⟩, ⟨2, 1, .ro, 0, 1⟩, ⟨3, 1, .ro, 0, 1⟩, ⟨4, 12, .ro, 0, 4095⟩, ⟨16, 16, .ro, 0, 65535⟩]⟩,  -- CMP_STAT
  ⟨374, 0x00802000, 12, 16, 1, 0, .fixed 19, [⟨0, 1, .rwp, 0, 1⟩, ⟨1, 1, .rwp, 0, 1⟩, ⟨2, 8, .rwp, 0, 255⟩, ⟨10, 9, .rwp, 10, 500⟩, ⟨19, 13, .ro, 0, 8191⟩]⟩,  -- BSI_CFG
  ⟨375, 0x00802004, 12, 16, 1, 0, .fixed 19, [⟨0, 24, .rwp, 0, 16777215⟩, ⟨24, 1, .rwp, 0, 1⟩, ⟨25, 7, .ro, 0, 127⟩]⟩,  -- BSI_SCALE
  ⟨376, 0x00802008, 12, 16, 1, 0, .fixed 19, [⟨0, 1, .ro, 0, 1⟩, ⟨1, 1, .w1c, 0, 1⟩, ⟨2, 14, .ro, 0, 16383⟩, ⟨16, 16, .ro, 0, 65535⟩]⟩,  -- BSI_STAT
  ⟨377, 0x0080200C, 12, 16, 1, 0, .fixed 19, [⟨0, 32, .ro, 0, 4294967295⟩]⟩,  -- BSI_VALUE
  ⟨378, 0x00803000, 24, 16, 1, 0, .fixed 19, [⟨0, 1, .rwl, 0, 1⟩, ⟨1, 31, .ro, 0, 2147483647⟩]⟩,  -- LEG_CTRL
  ⟨379, 0x00803004, 24, 16, 1, 0, .fixed 19, [⟨0, 3, .ro, 0, 7⟩, ⟨3, 3, .ro, 0, 7⟩, ⟨6, 2, .ro, 0, 3⟩, ⟨8, 1, .ro, 0, 1⟩, ⟨9, 23, .ro, 0, 8388607⟩]⟩,  -- LEG_STATUS
  ⟨380, 0x00803008, 24, 16, 1, 0, .fixed 19, [⟨0, 16, .ro, 0, 65535⟩, ⟨16, 16, .ro, 0, 65535⟩]⟩  -- LEG_DIAG
  ]

def regRows14_0 : List RegRow := [
  ⟨381, 0x00900000, 1, 0, 1, 0, .fixed 18, [⟨0, 1, .rwl, 0, 1⟩, ⟨1, 1, .rwl, 0, 1⟩, ⟨2, 1, .rwl, 0, 1⟩, ⟨3, 1, .rwl, 0, 1⟩, ⟨4, 8, .rwl, 10, 255⟩, ⟨12, 8, .rwl, 1, 200⟩, ⟨20, 12, .ro, 0, 4095⟩]⟩,  -- REC_CFG
  ⟨382, 0x00900004, 1, 0, 1, 0, .fixed 18, [⟨0, 3, .ro, 0, 7⟩, ⟨3, 1, .w1c, 0, 1⟩, ⟨4, 7, .ro, 0, 127⟩, ⟨11, 7, .ro, 0, 127⟩, ⟨18, 14, .ro, 0, 16383⟩]⟩,  -- REC_STATUS
  ⟨383, 0x00900008, 1, 0, 1, 0, .fixed 18, [⟨0, 3, .rwl, 0, 5⟩, ⟨3, 2, .rwl, 0, 3⟩, ⟨5, 27, .ro, 0, 134217727⟩]⟩,  -- REC_CMD
  ⟨384, 0x0090000C, 1, 0, 1, 0, .fixed 18, [⟨0, 1, .ro, 0, 1⟩, ⟨1, 1, .ro, 0, 1⟩, ⟨2, 1, .ro, 0, 1⟩, ⟨3, 1, .w1c, 0, 1⟩, ⟨4, 1, .w1c, 0, 1⟩, ⟨5, 1, .w1c, 0, 1⟩, ⟨6, 26, .ro, 0, 67108863⟩]⟩,  -- REC_HEALTH
  ⟨385, 0x00900010, 1, 0, 1, 0, .fixed 18, [⟨0, 7, .rwl, 0, 127⟩, ⟨8, 7, .rwl, 0, 127⟩, ⟨16, 7, .rwl, 0, 127⟩, ⟨23, 9, .ro, 0, 511⟩]⟩,  -- REC_STAGE_WM
  ⟨386, 0x00900014, 1, 0, 1, 0, .fixed 18, [⟨0, 7, .rwl, 1, 100⟩, ⟨7, 4, .ro, 0, 15⟩, ⟨11, 21, .ro, 0, 2097151⟩]⟩,  -- REC_EXPORT
  ⟨387, 0x00900100, 4, 32, 1, 0, .fixed 18, [⟨0, 1, .rwl, 0, 1⟩, ⟨1, 1, .rwl, 0, 1⟩, ⟨2, 30, .ro, 0, 1073741823⟩]⟩,  -- REC_DRV_CFG
  ⟨388, 0x00900104, 4, 32, 1, 0, .fixed 18, [⟨0, 3, .ro, 0, 7⟩, ⟨3, 4, .ro, 0, 15⟩, ⟨7, 2, .ro, 0, 3⟩, ⟨9, 1, .ro, 0, 1⟩, ⟨10, 1, .ro, 0, 1⟩, ⟨11, 21, .ro, 0, 2097151⟩]⟩,  -- REC_DRV_STAT
  ⟨389, 0x00900108, 4, 32, 1, 0, .fixed 18, [⟨0, 9, .ro, 0, 511⟩, ⟨9, 9, .ro, 0, 511⟩, ⟨18, 14, .ro, 0, 16383⟩]⟩,  -- REC_DRV_FLIGHT
  ⟨390, 0x0090010C, 4, 32, 1, 0, .fixed 18, [⟨0, 12, .ro, 0, 4095⟩, ⟨12, 12, .ro, 0, 4095⟩, ⟨24, 8, .ro, 0, 255⟩]⟩,  -- REC_DRV_ERR
  ⟨391, 0x00900110, 4, 32, 1, 0, .fixed 18, [⟨0, 8, .ro, 0, 255⟩, ⟨8, 8, .ro, 0, 255⟩, ⟨16, 16, .ro, 0, 65535⟩]⟩,  -- REC_DRV_SMART
  ⟨392, 0x00900114, 4, 32, 1, 0, .fixed 18, [⟨0, 32, .ro, 0, 4294967295⟩]⟩,  -- REC_DRV_NSEG
  ⟨393, 0x00900200, 4, 32, 1, 0, .fixed 18, [⟨0, 3, .ro, 0, 7⟩, ⟨3, 7, .ro, 0, 127⟩, ⟨10, 22, .ro, 0, 4194303⟩]⟩,  -- REC_PAIR_STAT
  ⟨394, 0x00900204, 4, 32, 1, 0, .fixed 18, [⟨0, 32, .ro, 0, 4294967295⟩]⟩,  -- REC_PAIR_HEAD_LO
  ⟨395, 0x00900208, 4, 32, 1, 0, .fixed 18, [⟨0, 32, .ro, 0, 4294967295⟩]⟩,  -- REC_PAIR_HEAD_HI
  ⟨396, 0x0090020C, 4, 32, 1, 0, .fixed 18, [⟨0, 32, .ro, 0, 4294967295⟩]⟩,  -- REC_PAIR_OLDEST_LO
  ⟨397, 0x00900210, 4, 32, 1, 0, .fixed 18, [⟨0, 32, .ro, 0, 4294967295⟩]⟩,  -- REC_PAIR_OLDEST_HI
  ⟨398, 0x00900400, 1, 0, 1, 0, .fixed 17, [⟨0, 6, .rwl, 0, 50⟩, ⟨6, 9, .rwl, 1, 300⟩, ⟨15, 8, .rwl, 1, 255⟩, ⟨23, 5, .rwl, 0, 31⟩, ⟨28, 4, .ro, 0, 15⟩]⟩,  -- REC_CAP_CFG
  ⟨399, 0x00900404, 1, 0, 1, 0, .fixed 17, [⟨0, 11, .rwl, 0, 2047⟩, ⟨11, 21, .ro, 0, 2097151⟩]⟩,  -- REC_CAP_GOOSE
  ⟨400, 0x00900408, 1, 0, 1, 0, .fixed 17, [⟨0, 13, .rwl, 0, 8191⟩, ⟨13, 10, .rwl, 0, 512⟩, ⟨23, 9, .ro, 0, 511⟩]⟩  -- REC_CAP_SIG
  ]

def regRows14_1 : List RegRow := [
  ⟨401, 0x0090040C, 1, 0, 1, 0, .fixed 17, [⟨0, 1, .w1s, 0, 1⟩, ⟨1, 31, .ro, 0, 2147483647⟩]⟩,  -- REC_CAP_CMD
  ⟨402, 0x00900410, 1, 0, 1, 0, .fixed 17, [⟨0, 1, .ro, 0, 1⟩, ⟨1, 1, .ro, 0, 1⟩, ⟨2, 5, .ro, 0, 31⟩, ⟨7, 14, .ro, 0, 16383⟩, ⟨21, 11, .ro, 0, 2047⟩]⟩,  -- REC_CAP_STAT
  ⟨403, 0x00900414, 1, 0, 1, 0, .fixed 17, [⟨0, 24, .ro, 0, 16777215⟩, ⟨24, 4, .ro, 0, 15⟩, ⟨28, 4, .ro, 0, 15⟩]⟩,  -- REC_CAP_LAST
  ⟨404, 0x00901000, 64, 32, 1, 0, .fixed 18, [⟨0, 1, .rwp, 0, 1⟩, ⟨1, 2, .rwp, 0, 3⟩, ⟨3, 3, .rwp, 0, 7⟩, ⟨6, 13, .rwp, 0, 8191⟩, ⟨19, 10, .rwp, 0, 512⟩, ⟨29, 3, .ro, 0, 7⟩]⟩,  -- REC_STRM_CFG
  ⟨405, 0x00901004, 64, 32, 1, 0, .fixed 18, [⟨0, 16, .rwp, 1, 65535⟩, ⟨16, 16, .ro, 0, 65535⟩]⟩,  -- REC_STRM_DEC
  ⟨406, 0x00901008, 64, 32, 1, 0, .fixed 18, [⟨0, 32, .ro, 0, 4294967295⟩]⟩,  -- REC_STRM_SEQ_LO
  ⟨407, 0x0090100C, 64, 32, 1, 0, .fixed 18, [⟨0, 32, .ro, 0, 4294967295⟩]⟩,  -- REC_STRM_SEQ_HI
  ⟨408, 0x00901010, 64, 32, 1, 0, .fixed 18, [⟨0, 32, .ro, 0, 4294967295⟩]⟩,  -- REC_STRM_FRONT_LO
  ⟨409, 0x00901014, 64, 32, 1, 0, .fixed 18, [⟨0, 32, .ro, 0, 4294967295⟩]⟩,  -- REC_STRM_FRONT_HI
  ⟨410, 0x00901018, 64, 32, 1, 0, .fixed 18, [⟨0, 16, .ro, 0, 65535⟩, ⟨16, 16, .ro, 0, 65535⟩]⟩  -- REC_STRM_DROP
  ]

def regRows15_0 : List RegRow := [
  ⟨411, 0x00A00000, 1, 0, 1, 0, .fixed 5, [⟨0, 1, .rwl, 0, 1⟩, ⟨1, 7, .rwl, 1, 100⟩, ⟨8, 8, .rwl, 0, 255⟩, ⟨16, 16, .ro, 0, 65535⟩]⟩,  -- WEAR_CFG
  ⟨412, 0x00A00004, 1, 0, 1, 0, .fixed 5, [⟨0, 16, .rwl, 24, 8760⟩, ⟨16, 16, .rwl, 1, 720⟩]⟩,  -- WEAR_EWMA
  ⟨413, 0x00A00008, 1, 0, 1, 0, .fixed 5, [⟨0, 8, .rwp, 1, 255⟩, ⟨8, 8, .rwp, 0, 255⟩, ⟨16, 8, .rwp, 1, 255⟩, ⟨24, 8, .ro, 0, 255⟩]⟩,  -- WEAR_BIN
  ⟨414, 0x00A0000C, 1, 0, 1, 0, .fixed 5, [⟨0, 1, .rwl, 0, 1⟩, ⟨1, 4, .rwl, 0, 15⟩, ⟨5, 4, .rwl, 0, 15⟩, ⟨9, 7, .ro, 0, 127⟩, ⟨16, 16, .rwl, 48, 65535⟩]⟩,  -- WEAR_POLICY
  ⟨415, 0x00A00010, 1, 0, 1, 0, .fixed 5, [⟨0, 1, .w1c, 0, 1⟩, ⟨1, 1, .w1c, 0, 1⟩, ⟨2, 1, .ro, 0, 1⟩, ⟨3, 4, .ro, 0, 15⟩, ⟨7, 9, .ro, 0, 511⟩, ⟨16, 16, .ro, 0, 65535⟩]⟩,  -- WEAR_STATUS
  ⟨416, 0x00A00014, 1, 0, 1, 0, .fixed 5, [⟨0, 32, .ro, 0, 4294967295⟩]⟩,  -- WEAR_LAST_EVAL_LO
  ⟨417, 0x00A00018, 1, 0, 1, 0, .fixed 5, [⟨0, 32, .ro, 0, 4294967295⟩]⟩,  -- WEAR_LAST_EVAL_HI
  ⟨418, 0x00A00020, 1, 0, 1, 0, .fixed 5, [⟨0, 32, .ro, 0, 4294967295⟩]⟩,  -- WEAR_MOD_LIFE
  ⟨419, 0x00A00024, 1, 0, 1, 0, .fixed 5, [⟨0, 4, .ro, 0, 15⟩, ⟨4, 28, .ro, 0, 268435455⟩]⟩,  -- WEAR_MOD_PART
  ⟨420, 0x00A00030, 1, 0, 1, 0, .fixed 5, [⟨0, 10, .rw, 0, 1023⟩, ⟨10, 22, .ro, 0, 4194303⟩]⟩,  -- WEAR_RF_SEL
  ⟨421, 0x00A00040, 8, 4, 1, 0, .fixed 5, [⟨0, 32, .ro, 0, 4294967295⟩]⟩,  -- WEAR_PART_LIFE
  ⟨422, 0x00A00060, 8, 4, 1, 0, .fixed 5, [⟨0, 32, .ro, 0, 4294967295⟩]⟩,  -- WEAR_PART_VAL
  ⟨423, 0x00A00100, 16, 32, 1, 0, .fixed 5, [⟨0, 16, .rwp, 0, 65535⟩, ⟨16, 16, .rwp, 0, 65535⟩]⟩,  -- WEAR_TYPE_R01
  ⟨424, 0x00A00104, 16, 32, 1, 0, .fixed 5, [⟨0, 16, .rwp, 0, 65535⟩, ⟨16, 16, .rwp, 0, 65535⟩]⟩,  -- WEAR_TYPE_R23
  ⟨425, 0x00A00108, 16, 32, 1, 0, .fixed 5, [⟨0, 16, .rwp, 1, 65535⟩, ⟨16, 16, .rwp, 1, 65535⟩]⟩,  -- WEAR_TYPE_TAU01
  ⟨426, 0x00A0010C, 16, 32, 1, 0, .fixed 5, [⟨0, 16, .rwp, 1, 65535⟩, ⟨16, 16, .rwp, 1, 65535⟩]⟩,  -- WEAR_TYPE_TAU23
  ⟨427, 0x00A00110, 16, 32, 1, 0, .fixed 5, [⟨0, 16, .rwp, 0, 65535⟩, ⟨16, 16, .rwp, 0, 65535⟩]⟩,  -- WEAR_TYPE_ESW
  ⟨428, 0x00A00114, 16, 32, 1, 0, .fixed 5, [⟨0, 16, .rwp, 0, 65535⟩, ⟨16, 8, .rwp, 0, 255⟩, ⟨24, 8, .rwp, 0, 255⟩]⟩,  -- WEAR_TYPE_VREF
  ⟨429, 0x00A01000, 16, 512, 128, 4, .fixed 5, [⟨0, 16, .rwp, 0, 65535⟩, ⟨16, 16, .rwp, 0, 65535⟩]⟩,  -- WEAR_NF
  ⟨430, 0x00A03000, 1024, 64, 16, 4, .fixed 5, [⟨0, 32, .ro, 0, 4294967295⟩]⟩  -- WEAR_RF
  ]

def regRows15_1 : List RegRow := [
  ⟨431, 0x00A04000, 1024, 64, 1, 0, .fixed 5, [⟨0, 1, .ro, 0, 1⟩, ⟨1, 1, .ro, 0, 1⟩, ⟨2, 1, .ro, 0, 1⟩, ⟨3, 1, .ro, 0, 1⟩, ⟨4, 1, .ro, 0, 1⟩, ⟨5, 1, .ro, 0, 1⟩, ⟨6, 2, .ro, 0, 3⟩, ⟨8, 24, .ro, 0, 16777215⟩]⟩,  -- WEAR_CELL_STAT
  ⟨432, 0x00A04004, 1024, 64, 1, 0, .fixed 5, [⟨0, 1, .rwl, 0, 1⟩, ⟨1, 31, .ro, 0, 2147483647⟩]⟩,  -- WEAR_CELL_CTRL
  ⟨433, 0x00A04008, 1024, 64, 1, 0, .fixed 5, [⟨0, 16, .ro, 0, 65535⟩, ⟨16, 16, .ro, 0, 65535⟩]⟩,  -- WEAR_CELL_TJ
  ⟨434, 0x00A0400C, 1024, 64, 1, 0, .fixed 5, [⟨0, 32, .ro, 0, 4294967295⟩]⟩,  -- WEAR_CELL_D0_LO
  ⟨435, 0x00A04010, 1024, 64, 1, 0, .fixed 5, [⟨0, 32, .ro, 0, 4294967295⟩]⟩,  -- WEAR_CELL_D0_HI
  ⟨436, 0x00A04014, 1024, 64, 1, 0, .fixed 5, [⟨0, 32, .ro, 0, 4294967295⟩]⟩,  -- WEAR_CELL_D1_LO
  ⟨437, 0x00A04018, 1024, 64, 1, 0, .fixed 5, [⟨0, 32, .ro, 0, 4294967295⟩]⟩,  -- WEAR_CELL_D1_HI
  ⟨438, 0x00A0401C, 1024, 64, 1, 0, .fixed 5, [⟨0, 32, .ro, 0, 4294967295⟩]⟩,  -- WEAR_CELL_RS
  ⟨439, 0x00A04020, 1024, 64, 1, 0, .fixed 5, [⟨0, 32, .ro, 0, 4294967295⟩]⟩,  -- WEAR_CELL_RF
  ⟨440, 0x00A04024, 1024, 64, 1, 0, .fixed 5, [⟨0, 32, .ro, 0, 4294967295⟩]⟩,  -- WEAR_CELL_LIFE
  ⟨441, 0x00A04028, 1024, 64, 1, 0, .fixed 5, [⟨0, 16, .ro, 0, 65535⟩, ⟨16, 16, .ro, 0, 65535⟩]⟩,  -- WEAR_CELL_ESR
  ⟨442, 0x00A0402C, 1024, 64, 1, 0, .fixed 5, [⟨0, 16, .ro, 0, 65535⟩, ⟨16, 16, .ro, 0, 65535⟩]⟩,  -- WEAR_CELL_CAP
  ⟨443, 0x00A04030, 1024, 64, 1, 0, .fixed 5, [⟨0, 32, .ro, 0, 4294967295⟩]⟩  -- WEAR_CELL_HOURS
  ]

def regRows16_0 : List RegRow := [
  ⟨444, 0x00B00000, 1, 0, 1, 0, .fixed 6, [⟨0, 3, .ro, 0, 7⟩, ⟨3, 1, .ro, 0, 1⟩, ⟨4, 1, .ro, 0, 1⟩, ⟨5, 1, .ro, 0, 1⟩, ⟨6, 1, .ro, 0, 1⟩, ⟨7, 25, .ro, 0, 33554431⟩]⟩,  -- SAFE_STATE
  ⟨445, 0x00B00004, 1, 0, 1, 0, .fixed 6, [⟨0, 9, .ro, 0, 511⟩, ⟨9, 7, .ro, 0, 127⟩, ⟨16, 9, .ro, 0, 511⟩, ⟨25, 7, .ro, 0, 127⟩]⟩,  -- SAFE_CAUSE
  ⟨446, 0x00B00008, 1, 0, 1, 0, .fixed 6, [⟨0, 1, .ro, 0, 1⟩, ⟨1, 1, .ro, 0, 1⟩, ⟨2, 1, .ro, 0, 1⟩, ⟨3, 1, .ro, 0, 1⟩, ⟨4, 1, .ro, 0, 1⟩, ⟨5, 1, .ro, 0, 1⟩, ⟨6, 26, .ro, 0, 67108863⟩]⟩,  -- SAFE_INPUTS
  ⟨447, 0x00B0000C, 1, 0, 1, 0, .fixed 6, [⟨0, 32, .ro, 0, 4294967295⟩]⟩,  -- SAFE_PARAM_ID
  ⟨448, 0x00B00010, 1, 0, 1, 0, .fixed 6, [⟨0, 32, .ro, 0, 4294967295⟩]⟩,  -- SAFE_PARAM_SIG
  ⟨449, 0x00B00014, 1, 0, 1, 0, .fixed 6, [⟨0, 16, .ro, 0, 65535⟩, ⟨16, 16, .ro, 0, 65535⟩]⟩,  -- SAFE_TSEQ
  ⟨450, 0x00B00018, 1, 0, 1, 0, .fixed 6, [⟨0, 16, .ro, 0, 65535⟩, ⟨16, 16, .ro, 0, 65535⟩]⟩,  -- SAFE_CNT
  ⟨451, 0x00B0001C, 1, 0, 1, 0, .fixed 6, [⟨0, 32, .ro, 0, 4294967295⟩]⟩,  -- SAFE_DEMAND_T_LO
  ⟨452, 0x00B00020, 1, 0, 1, 0, .fixed 6, [⟨0, 32, .ro, 0, 4294967295⟩]⟩,  -- SAFE_DEMAND_T_HI
  ⟨453, 0x00B00040, 4, 4, 1, 0, .fixed 6, [⟨0, 3, .ro, 0, 7⟩, ⟨3, 1, .ro, 0, 1⟩, ⟨4, 12, .ro, 0, 4095⟩, ⟨16, 16, .ro, 0, 65535⟩]⟩,  -- SAFE_CONS_STAT
  ⟨454, 0x00B00050, 2, 4, 1, 0, .fixed 6, [⟨0, 1, .ro, 0, 1⟩, ⟨1, 15, .ro, 0, 32767⟩, ⟨16, 16, .ro, 0, 65535⟩]⟩,  -- SAFE_PROD_STAT
  ⟨455, 0x00B00080, 8, 16, 4, 4, .fixed 6, [⟨0, 32, .ro, 0, 4294967295⟩]⟩  -- SAFE_ENABLE
  ]

/-- R479: every register of the module. -/
def regRows : List RegRow :=
  regRows20_0 ++
  regRows20_1 ++
  regRows02_0 ++
  regRows18_0 ++
  regRows18_1 ++
  regRows12_0 ++
  regRows13_0 ++
  regRows13_1 ++
  regRows19_0 ++
  regRows19_1 ++
  regRows03_0 ++
  regRows03_1 ++
  regRows04_0 ++
  regRows04_1 ++
  regRows05_0 ++
  regRows05_1 ++
  regRows06_0 ++
  regRows06_1 ++
  regRows07_0 ++
  regRows07_1 ++
  regRows08_0 ++
  regRows09_0 ++
  regRows09_1 ++
  regRows10_0 ++
  regRows10_1 ++
  regRows10_2 ++
  regRows11_0 ++
  regRows11_1 ++
  regRows17_0 ++
  regRows14_0 ++
  regRows14_1 ++
  regRows15_0 ++
  regRows15_1 ++
  regRows16_0

/-- R456: the registers whose name ends in _CMD. -/
def cmdRegIds : List Nat := [54, 99, 146, 177, 201, 249, 265, 348, 383, 401, 460]

end Sys2Proof.Machine
end

