-- ==== Sys2Proof/Machine/Ops.lean ====
section
/-! DEFINITION. The named operations over the state that every family shares: the register file, module time, free
values, power domains and the event log. -/

namespace Sys2Proof.Machine

/-! ### Time units: 125 ps (R43) -/

/-- One nanosecond. -/
abbrev uNs : Nat := 8
/-- One core clock of 4 ns (R21). -/
abbrev uClk : Nat := 32
/-- One microsecond. -/
abbrev uUs : Nat := 8000
/-- One millisecond. -/
abbrev uMs : Nat := 8000000
/-- One second. -/
abbrev uS : Nat := 8000000000

/-! ### The register file (R10–R14) -/

/-- The word a register holds. -/
def State.word (s : State) (r : Reg) : Word := Map.get (resetWord r) s.regs r

/-- The state with a register's word replaced. -/
def State.setWord (s : State) (r : Reg) (w : Word) : State :=
  { s with regs := Map.put Reg.lt (resetWord r) s.regs r w }

/-- The value of a field. -/
def State.get (s : State) (f : Fld) : Nat := fieldOf (s.word f.reg) f.lo f.wd

/-- The state with a field replaced. -/
def State.put (s : State) (f : Fld) (v : Nat) : State :=
  s.setWord f.reg (setBits (s.word f.reg) f.lo f.wd v)

/-- A field as a Boolean. -/
def State.flag (s : State) (f : Fld) : Bool := s.get f == 1

/-- The signed value of a field. -/
def State.getS (s : State) (f : Fld) : Int := signedOf f.wd (s.get f)

/-- A signed value into a field, saturating. -/
def State.putS (s : State) (f : Fld) (x : Int) : State := s.put f (codeOf f.wd (satS f.wd x))

/-- A value into a field, saturating at the field's greatest value. -/
def State.putSat (s : State) (f : Fld) (v : Nat) : State := s.put f (satN (2 ^ f.wd - 1) v)

/-- A saturating counter field counts `n` more. -/
def State.count (s : State) (f : Fld) (n : Nat) : State := s.putSat f (s.get f + n)

/-- A wrapping counter field counts one more. -/
def State.countWrap (s : State) (f : Fld) : State := s.put f (s.get f + 1)

/-- A flag field set to a truth value. -/
def State.putB (s : State) (f : Fld) (b : Bool) : State := s.put f (b2n b)

/-- A 64-bit quantity in a _LO and _HI register (R12). -/
def State.get64 (s : State) (lo hi : Reg) : Nat := (s.word lo).toNat + 2 ^ 32 * (s.word hi).toNat

/-- A 64-bit quantity into a _LO and _HI register (R12). -/
def State.put64 (s : State) (lo hi : Reg) (v : Nat) : State :=
  (s.setWord lo (BitVec.ofNat 32 v)).setWord hi (BitVec.ofNat 32 (v / 2 ^ 32))

/-- Fold an update over the numbers below `n`. -/
def State.forN (s : State) (n : Nat) (f : State → Nat → State) : State := (List.range n).foldl f s

/-! ### Free values -/

/-- The next free number of the run: an open value of the spec. -/
def State.freeVal (s : State) : Nat := Config.freeNat s.free

/-- The counter of free values advanced past one. -/
def State.freeStep (s : State) : State := { s with free := s.free + 1 }

/-! ### Module time (R43–R47) and the RTC (R55) -/

/-- R45: the units that a slew of at most ±50 ppm has inserted after `dt` more units. -/
def slewDone (left : Int) (acc dt : Nat) : Int :=
  let k := (acc + dt) / 20000
  if 0 ≤ left then (if (k : Int) ≤ left then (k : Int) else left)
  else (if (k : Int) ≤ -left then -(k : Int) else left)

/-- R45: the units that a slew still takes. -/
def slewTime (left : Int) (acc : Nat) : Nat := left.natAbs * 20000 - acc

/-- The clocks after `dt` more units: the slew in progress goes on (R45); after it the servo's frequency correction
(R50), in parts in 2^32, inserts or omits units. The correction pauses while a slew is in progress: DESIGN CHOICE, log
entry 183, since the spec does not say how the two share the ±50 ppm. -/
def ClkSt.run (c : ClkSt) (dt : Nat) : ClkSt :=
  let d := slewDone c.slewLeft c.slewAcc dt
  let left := c.slewLeft - d
  let f := c.freqAcc + c.freqCorr * ((dt - slewTime c.slewLeft c.slewAcc : Nat) : Int)
  { c with off := c.off + d + f / 2 ^ 32, slewLeft := left, freqAcc := f % 2 ^ 32,
           slewAcc := if left = 0 then 0 else (c.slewAcc + dt) % 20000 }

/-- The instant of a command: time never runs backwards, and a slew goes on meanwhile. -/
def State.advance (s : State) (t : Nat) : State :=
  { s with now := max s.now t, clk := s.clk.run (t - s.now) }

/-- R43: module time in units of 125 ps. -/
def State.mtUnits (s : State) : Nat := ((s.now : Int) + s.clk.off).toNat

/-- R43: module time in ns, the 64-bit part. -/
def State.mtNs (s : State) : Nat := s.mtUnits / 8 % 2 ^ 64

/-- R55: RTC time in units of 125 ps, and in whole seconds. -/
def State.rtcUnits (s : State) : Nat := ((s.now : Int) + s.clk.rtcOff).toNat
def State.rtcSec (s : State) : Nat := s.rtcUnits / uS

/-- R55: RTC time in ns, to its tick of 1/32,768 s. -/
def State.rtcNs (s : State) : Nat := s.rtcUnits * 32768 / uS * 1000000000 / 32768

/-- The units elapsed since an instant. -/
def State.since (s : State) (at_ : Nat) : Nat := s.now - at_

/-! ### Power domains (R414, R415) -/

abbrev domCREMA : Nat := 0
abbrev domCLK : Nat := 1
abbrev domLANE (l : Nat) : Nat := 2 + l
abbrev domVOTE : Nat := 5
abbrev domSAFE : Nat := 6
abbrev domMGMT : Nat := 7
abbrev domPBUS : Nat := 8
abbrev domRING (n : Nat) : Nat := 9 + n
abbrev domDRAM : Nat := 17
abbrev domREC : Nat := 18
abbrev domANA : Nat := 19
abbrev domXSPI : Nat := 20

/-- R415: the state of a domain: 0 OFF, 1 RETENTION, 2 ON, 3 MOVING. -/
def State.domState (s : State) (d : Nat) : Nat := s.get (F.PWR_STATE d)

/-- R415: the domain is ON. -/
def State.isOn (s : State) (d : Nat) : Bool := s.domState d == 2

/-- R415: a domain that is preparing to leave ON still works; one that is not ON and not so preparing does not. -/
def State.works (s : State) (d : Nat) : Bool :=
  s.domState d == 2 || (s.domState d == 3 && (s.pwr.leaving.get d).isSome)

/-- What a block does, only while its domain works (R415: a domain that is off or in retention does nothing). -/
def State.inDom (s : State) (d : Nat) (f : State → State) : State := if s.works d then f s else s

/-! ### The event log (R471–R475) -/

/-- R471: the domain of the source of an event; events from the lanes carry VOTE. -/
def eventDom (code inst : Nat) : Nat :=
  match code / 256 with
  | 0x01 => if code = Ev.RTC_WRITE ∨ code = Ev.CAL_RANGE ∨ code = Ev.TIME_LOST then domCREMA else domCLK
  | 0x02 => if inst < 8 ∧ code < 0x0240 ∧ code ≠ Ev.ALIGN_FAULT ∧ code ≠ Ev.ASYM_UNKNOWN then domRING inst else domVOTE
  | 0x09 => domPBUS
  | 0x0A => domPBUS
  | 0x0D => domREC
  | 0x0F => domSAFE
  | 0x10 => domANA
  | 0x11 => domCREMA
  | 0x12 => if 0x120A ≤ code then domMGMT else domVOTE
  | 0x13 => domMGMT
  | _ => domVOTE

/-- R471: the data items that fit in the 36 bytes; an item that does not fit is left out. -/
def fitData : Nat → List DItem → List DItem
  | _, [] => []
  | room, x :: r => if x.size ≤ room then x :: fitData (room - x.size) r else fitData room r

/-- R472: write a numbered entry to MRAM, or to the fallback log while MGMT is not ON or the medium is bad. -/
def LogSt.store (l : LogSt) (mgmt : Bool) (e : LogEntry) : LogSt :=
  if mgmt && !l.fallback && l.retestAt.isNone then
    { l with mram := l.mram.set (e.seq % 65536) (some e), written := (l.written + 1) % 2 ^ 32 }
  else
    { l with flog := l.flog.set (e.seq % 256) (some { e with flags := e.flags ||| 4 }),
             fbPending := satN 256 (l.fbPending + 1) }

/-- R472: while DRAM is ON a numbered entry is offered to Carafe stream 0. -/
def LogSt.offer (l : LogSt) (dram : Bool) (e : LogEntry) : LogSt :=
  if dram then { l with offered := l.offered ++ [e] } else { l with unoff := l.unoff ++ [e.seq] }

/-- R472, R475: number an entry and store it. A slot that fails verification twice sends the entry to the fallback
log, sets TARGET and numbers LOG_MEDIA_FAULT as the next entry. -/
def LogSt.number (l : LogSt) (mgmt dram : Bool) (e : LogEntry) : LogSt :=
  let e1 := { e with seq := l.seq + 1 }
  let l1 := { l with seq := l.seq + 1 }
  let slot := e1.seq % 65536
  if mgmt && !l.fallback && l.retestAt.isNone && l.mramBad.contains slot then
    let f : LogEntry := { e with seq := l.seq + 2, code := Ev.LOG_MEDIA_FAULT, dom := domMGMT, inst := 0xFFFF,
                                 data := [.w slot] }
    let l2 := { l1 with fallback := true, seq := l.seq + 2, written := (l.written + 2) % 2 ^ 32,
                        verify := satN (2 ^ 32 - 1) (l.verify + 2) }
    (((l2.store mgmt e1).offer dram e1).store mgmt f).offer dram f
  else (l1.store mgmt e1).offer dram e1

/-- R472: an entry reaches the sequencer: it is numbered, or kept unnumbered during a hold (up to 8,192). -/
def LogSt.accept (l : LogSt) (mgmt dram : Bool) (e : LogEntry) : LogSt :=
  if l.holdAt.isSome then
    if l.held.length < 8192 then { l with held := l.held ++ [{ e with flags := e.flags ||| 8 }] }
    else { l with lost := satN 65535 (l.lost + 1) }
  else l.number mgmt dram e

/-- R471: the entry an event makes. -/
def State.entry (s : State) (code inst : Nat) (data : List DItem) : LogEntry :=
  { seq := 0, time := s.mtNs, code := code, dom := eventDom code inst,
    flags := b2n (s.flag F.TIME_STATUS_RTC_DERIVED) + 2 * b2n (s.mtNs < s.clk.backFrom),
    inst := inst, data := fitData 36 data }

/-- R475: the log sequencer's state replaced; the medium going bad sets its sticky bit. -/
def State.takeLog (s : State) (l : LogSt) : State :=
  let bad := l.fallback && !s.log.fallback
  let s1 := s.setLog fun _ => l
  if bad then s1.put F.CREMA_STICKY_LOG_MEDIA_FAULT 1 else s1

/-- R471, R472: log an event. -/
def State.event (s : State) (code inst : Nat) (data : List DItem) : State :=
  s.takeLog (s.log.accept (s.isOn domMGMT) (s.isOn domDRAM) (s.entry code inst data))

/-- R471: INSTANCE of an event that concerns none. -/
abbrev noInst : Nat := 0xFFFF

/-- Log an event only when a condition holds. -/
def State.eventIf (s : State) (c : Bool) (code inst : Nat) (data : List DItem) : State :=
  if c then s.event code inst data else s

/-! ### Cells and clusters as other chapters see them -/

/-- R16: the ring of a cell, which is also its cluster. -/
def ringOf (k : Nat) : Nat := k / 128

/-- R95: the state of a cell's entry. -/
def State.cellState (s : State) (k : Nat) : Nat := s.get (F.CELL_STATE_STATE k)

/-- R46: cells 128c to 128c + 127 of a cluster. -/
def cellsOf (c : Nat) : List Nat := (List.range 128).map (128 * c + ·)

/-- R46: some cell of the cluster is ACTIVE. -/
def State.cluActive (s : State) (c : Nat) : Bool := (cellsOf c).any fun k => s.cellState k == 5

/-- R46: a cluster is running for the time base: some cell is ACTIVE. -/
def State.anyActive (s : State) : Bool := (List.range 8).any s.cluActive

/-- R204: the ride-through state of a cluster; 0–6 are the running states. -/
def State.frtState (s : State) (c : Nat) : Nat := s.get (F.FRT_CLU_STAT_STATE c)
def State.cluRunning (s : State) (c : Nat) : Bool := s.frtState c < 7
def State.anyRunning (s : State) : Bool := (List.range 8).any s.cluRunning

end Sys2Proof.Machine
end

