-- ==== Sys2Proof/Machine/Frame.lean ====
section
/-! DEFINITION. The frames that the module launches and what a port does with them: their bytes, their launch with CORR,
and their abortion by a halt or a suspension (R20, R66–R69, R75–R78, R81, R85, R88, R89, R288). -/

namespace Sys2Proof.Machine

/-! ### Lengths (R25, R63) -/

/-- R25: bytes of a telemetry frame and of a schedule frame of N cells. -/
def telBytes (v1 : Bool) (n : Nat) : Nat := if v1 then 48 + 16 * n else 64 + 32 * n
def schedBytes (n : Nat) : Nat := 96 + 16 * n

/-- R25: s(bytes) in 1/640 ns. -/
def ser640 (v1 : Bool) (bytes : Nat) : Nat := bytes * (if v1 then 1056 else 528)

/-- R67: FTYPE and length of a frame. -/
def OutFrame.ftype : OutFrame → Nat
  | .telemetry .. => 1
  | .schedule _ => 2
  | .halt .. => 3
  | .discover _ => 4
  | .mode => 5

def OutFrame.length (v1 : Bool) : OutFrame → Nat
  | .telemetry _ _ n => telBytes v1 n
  | .schedule f => schedBytes f.entries.length
  | .halt .. => 32
  | .discover _ => 2080
  | .mode => 32

/-! ### Bytes -/

/-- R67, R68: the HCRC of a header, over bytes 1 and 3 to `last`. -/
def hcrcOf (b : List Byte) (last : Nat) : Nat := crc16 (bytesAt b 1 1 ++ bytesAt b 3 (last - 2))

/-- R75: an entry of a schedule frame. -/
def SchedEntry.bytes (e : SchedEntry) : List Byte :=
  let b := leBytes 3 e.cmp0 ++ leBytes 3 e.cmp1 ++ leBytes 3 e.cmp2 ++ leBytes 3 e.cmp3 ++ leBytes 1 (b2n e.new) ++
    leBytes 1 e.mode ++ leBytes 1 e.byp
  b ++ leBytes 1 (crc8 b)

/-- R81: the request area. Payload bytes beyond MBX_LEN, and the fields of an area without a request beside MBX_DST, are
written 0: DESIGN CHOICE, log entry 188. -/
def mbxBytes (m : Option (MbxReq × Nat)) : List Byte :=
  let b := match m with
    | some (q, seq) => leBytes 2 q.dst ++ leBytes 1 q.op ++ leBytes 1 seq ++ leBytes 1 q.data.length ++ leBytes 1 0 ++
        (q.data ++ List.replicate (32 - q.data.length) 0)
    | none => leBytes 2 0xFFFF ++ List.replicate 36 0
  b ++ leBytes 2 (crc16 b)

/-- R67: bytes 0 to 7 of a frame; `four` is NSLOT, or HALT_SEQ in a halt frame. -/
def headBytes (ftype : Nat) (v1 dirB : Bool) (r four len : Nat) : List Byte :=
  leBytes 1 0x78 ++ leBytes 1 ftype ++ leBytes 1 ((if v1 then 1 else 2) + 16 * b2n dirB) ++ leBytes 1 r ++
    leBytes 2 four ++ leBytes 2 (len / 8)

/-- R68, R75: HCRC, CCRC and CORR after the first 24 bytes of a header. -/
def withCorr (head : List Byte) (corr : Int) : List Byte :=
  let c := leBytes 4 (codeOf 32 corr)
  head ++ leBytes 2 (hcrcOf head 23) ++ leBytes 2 (crc16 c) ++ c

/-- R78, R89: HCRC after the first 30 bytes of a header. -/
def withHcrc (head : List Byte) : List Byte := head ++ leBytes 2 (hcrcOf head 29)

/-- R68, R69: a telemetry frame as launched: MBX_SRC 0xFFFF, the rest of the reply area 0, every slot all 0x00. -/
def telemetryBytes (r : Nat) (v1 dirB : Bool) (corr : Int) (tK cycle n : Nat) : List Byte :=
  let head := headBytes 1 v1 dirB r n (telBytes v1 n) ++ leBytes 8 tK ++ leBytes 4 cycle ++ List.replicate 4 0
  let area := leBytes 2 0xFFFF ++ List.replicate (if v1 then 12 else 28) 0
  withCorr head corr ++ area ++ leBytes 2 (crc16 area) ++ List.replicate (n * if v1 then 16 else 32) 0

/-- R75, R77: a schedule frame as launched. -/
def SchedFrame.bytes (f : SchedFrame) (r : Nat) (v1 dirB : Bool) (corr : Int) : List Byte :=
  let n := f.entries.length
  let head := headBytes 2 v1 dirB r n (schedBytes n) ++ leBytes 8 f.tApply ++ leBytes 4 f.cycle ++ leBytes 2 f.haltSeq ++
    leBytes 2 (b2n f.mid + 2 * b2n f.haltActive)
  let safe := leBytes 2 f.tseq ++ leBytes 1 (b2n f.present) ++ leBytes 1 0 ++ leBytes 16 f.enable ++ leBytes 4 f.tchk
  withCorr head corr ++ safe ++ mbxBytes f.mbx ++ f.entries.flatMap SchedEntry.bytes

/-- R78: a halt frame. -/
def haltBytes (r : Nat) (v1 dirB : Bool) (seq tTrip ch cls : Nat) : List Byte :=
  withHcrc (headBytes 3 v1 dirB r seq 32 ++ leBytes 8 tTrip ++ leBytes 1 ch ++ leBytes 1 cls ++ List.replicate 12 0)

/-- R89: an empty record of a discover frame. -/
def emptyRec : List Byte := List.replicate 14 0 ++ leBytes 2 (crc16 (List.replicate 14 0))

/-- R89: a discover frame as launched: 128 records with OCCUPIED = 0. NSLOT is the number of records. -/
def discoverBytes (r : Nat) (v1 dirB : Bool) (time : Nat) : List Byte :=
  withHcrc (headBytes 4 v1 dirB r 128 2080 ++ leBytes 8 time ++ List.replicate 14 0) ++
    (List.replicate 128 emptyRec).flatten

/-- The bytes of a frame as it leaves a port. What a mode frame carries beyond its common header the spec does not
state; `rest` are these bytes. -/
def TxFrame.bytes (x : TxFrame) (r : Nat) (dirB : Bool) (rest : List Byte) : List Byte := match x.frame with
  | .telemetry tK c n => telemetryBytes r x.v1 dirB x.corr tK c n
  | .schedule f => f.bytes r x.v1 dirB x.corr
  | .halt seq tTrip ch cls => haltBytes r x.v1 dirB seq tTrip ch cls
  | .discover t => discoverBytes r x.v1 dirB t
  | .mode => headBytes 5 x.v1 dirB r 0 32 ++ (rest ++ List.replicate (24 - rest.length) 0).take 24

/-! ### A port (R20, R66, R85, R286–R288) -/

/-- R287: the merge stage of a port launches. -/
def State.mergeOk (s : State) (r : Nat) (portB : Bool) : Bool := s.flag ⟨R.VOTE_MERGE, (if portB then 8 else 0) + r, 1⟩

/-- R286, R287: schedule frames are launched on a port of a ring. -/
def State.portLaunches (s : State) (r : Nat) (portB : Bool) : Bool :=
  s.flag (if portB then F.VOTE_STATUS_VB_OK else F.VOTE_STATUS_VA_OK) && s.mergeOk r portB

/-- R19, R286: VL forwards words: one of its halves does. -/
def State.vlWorks (s : State) : Bool := s.flag F.VOTE_STATUS_VL1_OK || s.flag F.VOTE_STATUS_VL2_OK

abbrev mdTRIPLEX : Nat := 0
abbrev mdDUPLEX : Nat := 1
abbrev mdHOLD : Nat := 2
abbrev mdCEASED : Nat := 3

def State.mode (s : State) : Nat := s.get F.LANE_STATUS_MODE

/-- R18: the lanes put out words. -/
def State.lanesRun (s : State) : Bool := s.mode == mdTRIPLEX || s.mode == mdDUPLEX

/-- R66, R78: a frame is on a port at an instant. -/
def TxFrame.onPort (x : TxFrame) (now : Nat) : Bool := x.cut.isNone && decide (now < x.ends)

/-- R77: the frame carries a token. -/
def TxFrame.token (x : TxFrame) : Bool := match x.frame with
  | .schedule f => f.present
  | _ => false

def TxFrame.isHalt (x : TxFrame) : Bool := x.frame.ftype == 3

/-- R20, R66, R78: the frame in progress at a port is aborted; a token it carried goes with the next schedule frame
(R77). -/
def RingSt.abortTx (x : RingSt) (port now : Nat) : RingSt := match x.tx.get port with
  | some f =>
    if f.onPort now then
      let g := { f with cut := some now }
      { x with tx := x.tx.set port (some g), aborted := x.aborted.set port (some g),
               tokStep := if f.token then none else x.tokStep }
    else x
  | none => x

/-- R279: in HOLD the schedule frames in progress are aborted. -/
def RingSt.holdTx (x : RingSt) (now : Nat) : RingSt :=
  [0, 1].foldl (fun (x : RingSt) p => if (x.tx.get p).any fun f => f.frame.ftype == 2 then x.abortTx p now else x) x

/-- R288: from a takeover, frames in progress other than halt frames are aborted at both ports. -/
def RingSt.suspendTx (x : RingSt) (now : Nat) : RingSt :=
  [0, 1].foldl (fun (x : RingSt) p => if (x.tx.get p).any TxFrame.isHalt then x else x.abortTx p now) x

/-- R85: a frame leaves a port: its first bit at `first`, CORR from the time its header names to that bit (`field`, in
units of module time), and its end. -/
def RingSt.putTx (x : RingSt) (port : Nat) (v1 : Bool) (first : Nat) (corr : Int) (f : OutFrame) : RingSt :=
  { x with tx := x.tx.set port (some { frame := f, v1 := v1, first := first, corr := corr,
                                       ends := first + ceilDiv (ser640 v1 (f.length v1)) 80 }) }

end Sys2Proof.Machine
end

