-- ==== Sys2Proof/Machine/Operands.lean ====
section
/-! DEFINITION. The operand forms of the module: a register by its address (R10, R13, R479), a write judged field by
field (R14) under the session's level and the field lock (R456, R457), and the pairs of 64-bit quantities (R12). -/

namespace Sys2Proof.Machine

/-- R13: the register of a row at a byte address. -/
def RegRow.find (r : RegRow) (addr : Nat) : Option Reg :=
  if addr < r.base then none
  else
    let o := addr - r.base
    let i := if r.s0 = 0 then 0 else o / r.s0
    let o1 := if r.s0 = 0 then o else o % r.s0
    let j := if r.s1 = 0 then 0 else o1 / r.s1
    let o2 := if r.s1 = 0 then o1 else o1 % r.s1
    if i < r.n0 ∧ j < r.n1 ∧ o2 = 0 then some ⟨r.id, i, j⟩ else none

/-- R479: the row and register at a byte address. -/
def findRow : List RegRow → Nat → Option (RegRow × Reg)
  | [], _ => none
  | r :: rs, a => match r.find a with
    | some g => some (r, g)
    | none => findRow rs a

/-- R10: the register at a byte address; none where it is unmapped or unaligned. -/
def decodeAddr (a : Nat) : Option (RegRow × Reg) := if a % 4 = 0 then findRow regRows a else none

/-- The row of a register. -/
def rowOf (r : Reg) : Option RegRow := regRows.find? fun x => x.id == r.id

/-- R13: the byte address of a register. -/
def addrOf (r : Reg) : Nat := match rowOf r with
  | some x => x.base + r.i * x.s0 + r.j * x.s1
  | none => 0

/-- R479: the power domain of a register. -/
def domOfReg (x : RegRow) (r : Reg) : Nat := match x.dom with
  | .fixed d => d
  | .ring => domRING r.i

/-! ### Sessions, levels and the field lock (R456, R457) -/

def State.sess (s : State) (n : Nat) : Session := s.mgmt.sess.get n
def State.setSess (s : State) (n : Nat) (x : Session) : State :=
  s.setMgmt fun y => { y with sess := s.mgmt.sess.set n x }

/-- R457: the field lock is closed. -/
def State.lockClosed (s : State) : Bool := s.flag F.ACC_FIELD_LOCK_CLOSED

/-- R458: the session is the opener. -/
def State.isOpener (s : State) (n : Nat) : Bool := s.start.opener == some n

/-- R457: the level in force: while the lock is closed, at most Operator for every session but the opener. -/
def State.level (s : State) (n : Nat) : Nat :=
  if s.lockClosed then (if s.isOpener n then s.start.openLevel else 0) else (s.sess n).level

/-- R456, R457: judge an operation that needs a level: LOCKED when the closed lock is what takes it away, else
ACCESS_DENIED; a session that is not open has no rights. -/
def State.needLevel (s : State) (n need : Nat) : Status :=
  if !(s.sess n).active then .accessDenied
  else if need ≤ s.level n then .ok
  else if s.lockClosed && !s.isOpener n then .locked
  else .accessDenied

/-- R456: the blocks in which an Operator may not write. -/
def engineerBlock (x : RegRow) : Bool :=
  (0x20000 ≤ x.base && x.base < 0x30000) || (0x40000 ≤ x.base && x.base < 0x40100) ||
  (0x60000 ≤ x.base && x.base < 0x60100) || (0x70000 ≤ x.base && x.base < 0x80000) ||
  (0xC00000 ≤ x.base && x.base < 0xC10000) || cmdRegIds.contains x.id

/-- R456: the level that a direct write of an RW, WO, W1C or W1S field needs. -/
def State.writeLevel (s : State) (x : RegRow) : Nat :=
  if s.flag F.ACC_POLICY_OP_WRITE && !engineerBlock x then 0 else 1

/-! ### Judging a write (R14) -/

/-- The bits of a field in a word mask. -/
def FieldRow.hit (f : FieldRow) (mask : Word) : Bool := fieldOf mask f.lo f.wd != 0

/-- The value the field would take: the masked write of R296 on the value in effect. -/
def masked (old value mask : Word) : Word := (old &&& ~~~mask) ||| (value &&& mask)

/-- R14: judge one field of a direct write. -/
def State.judgeField (s : State) (n : Nat) (x : RegRow) (old value mask : Word) (f : FieldRow) : Status :=
  if !f.hit mask then .ok
  else
    let v := fieldOf (masked old value mask) f.lo f.wd
    let range : Status := if f.mn ≤ v ∧ v ≤ f.mx then .ok else .badValue
    match f.acc with
    | .ro => .ok
    | .rwp => .accessDenied
    | .rwl => (s.needLevel n 1).worst range
    | .rw => (s.needLevel n (s.writeLevel x)).worst range
    | .wo => (s.needLevel n (s.writeLevel x)).worst range
    | .w1c => s.needLevel n (s.writeLevel x)
    | .w1s => s.needLevel n (s.writeLevel x)

/-- R14: a register that holds only RO fields. -/
def RegRow.onlyRO (x : RegRow) : Bool := x.fields.all fun f => f.acc == .ro

/-- R425: the software area of the retained RAM is RW, the rest of it RO. -/
def readOnlyAt (r : Reg) : Bool := r.id == (R.CREMA_RAM 0).id && decide (r.i < 0x400)

/-- R312: a submitted Pour of the session is neither DONE nor ABORTED. -/
def State.pourLive (s : State) (n : Nat) : Bool :=
  (List.range 16).any fun k => s.get (F.POUR_SLOT_STAT_SESSION k) == n && 2 ≤ s.get (F.POUR_SLOT_STAT_STATE k) &&
    s.get (F.POUR_SLOT_STAT_STATE k) ≤ 7 && !(s.pour.slot.get k).orphan

/-- R453: the blocks that the ROM monitor writes: ACC_, CFG_ and XSPI_. -/
def monitorBlock (x : RegRow) : Bool :=
  (0x70000 ≤ x.base && x.base < 0x80000) || (0xC00000 ≤ x.base && x.base < 0xC10000)

/-- R14, R312, R453: judge every touched field of a direct write; the most severe refusal decides. -/
def State.judge (s : State) (n : Nat) (x : RegRow) (r : Reg) (value mask : Word) : Status :=
  if x.onlyRO || readOnlyAt r then .accessDenied
  else (x.fields.map (s.judgeField n x (s.word r) value mask)).foldl Status.worst
    (if s.mgmt.monitor && !monitorBlock x then .accessDenied else if s.pourLive n then .busy else .ok)

/-- R14: one field of an accepted write. A W1S field acts and reads 0 in every map of the module. -/
def applyField (old value mask : Word) (w : Word) (f : FieldRow) : Word :=
  let v := fieldOf (value &&& mask) f.lo f.wd
  match f.acc with
  | .ro => w
  | .rwp => setBits w f.lo f.wd (fieldOf (masked old value mask) f.lo f.wd)
  | .rw => setBits w f.lo f.wd (fieldOf (masked old value mask) f.lo f.wd)
  | .rwl => setBits w f.lo f.wd (fieldOf (masked old value mask) f.lo f.wd)
  | .wo => setBits w f.lo f.wd (fieldOf (masked old value mask) f.lo f.wd)
  | .w1c => setBits w f.lo f.wd (fieldOf (old &&& ~~~(value &&& mask)) f.lo f.wd)
  | .w1s => setBits w f.lo f.wd (v * 0)

/-- R14: the register's word after an accepted write. -/
def applyWrite (x : RegRow) (old value mask : Word) : Word := x.fields.foldl (applyField old value mask) old

/-- A relation of a register map between two fields of one register, beyond each field's own range. -/
def mapRelation (r : Reg) (w : Word) : Status :=
  let g (lo wd : Nat) := fieldOf w lo wd
  if r.id = R.CELL_CTRL.id then (if g 0 4 < g 4 8 then .ok else .badValue)
  else if r.id = R.REC_STAGE_WM.id then (if g 8 7 ≤ g 0 7 ∧ g 16 7 ≤ g 8 7 ∧ g 0 7 ≤ 100 then .ok else .badValue)
  else if r.id = R.WEAR_EWMA.id then (if g 16 16 ≤ g 0 16 then .ok else .badValue)
  else if r.id = (R.CLK_OUT_CFG 0).id then (if 2 ≤ g 16 2 ∧ g 0 16 < 20 then .badValue else .ok)
  else .ok

/-- Bits of a register map that read 0 whatever is written (R422: bits 0 and 6 of the wake set). -/
def readsZero (r : Reg) : Word :=
  if r.id = R.PWR_WAKE_SET.id then 0x41#32 else 0#32

/-- R153: the bits of a register that a write in the present cycle cannot clear: the flags its pass has set. -/
def State.keeps (s : State) (r : Reg) : Word :=
  if r.id = (R.CE_SEC_FLAG 0).id ∧ s.mtUnits < s.eng.setTill then
    BitVec.ofNat 32 ((s.eng.setNow.filter fun e => e.1 == r.i).foldl (fun a e => a ||| e.2) 0)
  else 0#32

/-- R14: a direct write of a register that acts on nothing else: its status and the state after it. -/
def State.plainWrite (s : State) (n : Nat) (x : RegRow) (r : Reg) (value mask : Word) : Status × State :=
  let w := (applyWrite x (s.word r) value mask &&& ~~~readsZero r) ||| (s.word r &&& s.keeps r)
  match (s.judge n x r value mask).worst (mapRelation r w) with
  | .ok => (.ok, s.setWord r w)
  | e => (e, s)

/-- R14: the judgement of a direct write of a register by its name, before any relation of its map. -/
def State.judgeWord (s : State) (n : Nat) (r : Reg) (value mask : Word) : Status :=
  match rowOf r with
  | none => .badAddr
  | some x => s.judge n x r value mask

/-- The outcome of a register access, kept for its session. -/
def State.answer (s : State) (n : Nat) (st : Status) (v : Word) : State :=
  s.setSess n { s.sess n with status := st, value := v }

/-- The answer to a write. -/
def answerW (n : Nat) (p : Status × State) : State := p.2.answer n p.1 0

/-! ### Snapshots and held writes (R12) -/

/-- An entry of a session's list of words by register. -/
def findReg : List (Reg × Word) → Reg → Option Word
  | [], _ => none
  | (r, w) :: l, k => if r = k then some w else findReg l k

def dropReg (l : List (Reg × Word)) (k : Reg) : List (Reg × Word) := l.filter fun e => e.1 != k

end Sys2Proof.Machine
end

