-- ==== Sys2Proof/Machine/Clock.lean ====
section
/-! DEFINITION. Clocks, module time, the RTC and its calendar (R35–R61), and the commands of that chapter that need
no PTP message. -/

namespace Sys2Proof.Machine

/-- The state at the instant of a command. DESIGN CHOICE, log entry 1: unsafe. -/
def atTime (t : Nat) (s : State) (f : State → State) : Host.Outcome State Fault Refusal := .next (f (s.advance t))

/-- A register access by a management session: nothing while MGMT is not ON (R415); DOMAIN_OFF while the register's
domain is not ON (R10); otherwise the access, with its status kept for the session. -/
def State.access (s : State) (n dom : Nat) (f : State → Status × State) : State :=
  if !s.isOn domMGMT then s
  else if !s.isOn dom then s.answer n .domainOff 0
  else answerW n (f s)

/-- A plain write of a register by a session, by its name. -/
def State.writeReg (s : State) (n : Nat) (r : Reg) (value mask : Word) : Status × State :=
  match rowOf r with
  | none => (.badAddr, s)
  | some x => s.plainWrite n x r value mask

/-- A direct write that, once accepted, acts: `act` runs on the state with the fields written. -/
def State.writeThen (s : State) (n : Nat) (r : Reg) (value mask : Word) (act : State → State) : Status × State :=
  match s.writeReg n r value mask with
  | (.ok, s1) => (.ok, act s1)
  | p => p

/-- A direct write that the module's state may refuse: the most severe of R14's refusals and of `refuse` decides. -/
def State.writeIf (s : State) (n : Nat) (r : Reg) (value mask : Word) (refuse : Status) (act : State → State) :
    Status × State :=
  match (s.writeReg n r value mask).1.worst refuse with
  | .ok => s.writeThen n r value mask act
  | e => (e, s)

/-! ### The root clock (R35–R38, R288) -/

/-- R37, R38, R288: the standby MDLL takes over the root with a phase step (in units of 125 ps, at most 1 ns), which
the time base removes by slew; a suspension begins. -/
def State.takeover (s : State) (step : Int) : State :=
  let d := clampI (-8) 8 step
  let s := (s.put F.CLK_STATUS_ACTIVE (1 - s.get F.CLK_STATUS_ACTIVE)).put F.CLK_STATUS_TAKEOVER 1
  (s.setClk fun x => { x with off := x.off + d, slewLeft := x.slewLeft - d,
                              suspendAt := some (x.suspendAt.getD s.now) }).setLink fun x =>
    { x with skip := x.skip || (x.begun && !x.frozen), later := x.later.map fun c => { c with skip := true },
             ring := x.ring.map fun e => (e.1, e.2.suspendTx s.now) }

/-- R36: the lock bit of the MDLL that is (or is not) driving the root. -/
def State.lockBit (s : State) (active : Bool) : Fld :=
  if (s.get F.CLK_STATUS_ACTIVE == 0) == active then F.CLK_STATUS_LOCK_P else F.CLK_STATUS_LOCK_S

/-- R35: CLK_CTRL written; a change of the reference is made effective by a standby takeover and logged. -/
def State.clkCtrlWrite (s : State) (n : Nat) (value mask : Word) (step : Int) : Status × State :=
  s.writeThen n R.CLK_CTRL value mask fun s' =>
    if s'.get F.CLK_CTRL_REF_SEL = s.get F.CLK_CTRL_REF_SEL then s'
    else ((s'.takeover step).put F.CLK_STATUS_REF_ACTIVE (s'.get F.CLK_CTRL_REF_SEL)).event Ev.REF_SWITCH noInst []

/-- REF_SEL_WRITE (R35). -/
def execRefSelWrite (t : Nat) (n : SessIx) (value mask : Word) (step : Int) (s : State) :
    Host.Outcome State Fault Refusal :=
  atTime t s fun s => s.access n domCLK fun s => s.clkCtrlWrite n value mask step

/-- R37: REF_IN is lost on a gap of 1 µs or a departure of more than ±50 ppm (given in parts per billion). -/
def refBad (gapNs : Nat) (ppb : Int) : Bool := 1000 ≤ gapNs || decide (50000 < ppb) || decide (ppb < -50000)

/-- REF_LOST (R37). -/
def execRefLost (t : Nat) (gapNs : Nat) (ppb step : Int) (s : State) : Host.Outcome State Fault Refusal :=
  atTime t s fun s => s.inDom domCLK fun s =>
    if !refBad gapNs ppb || s.get F.CLK_STATUS_REF_ACTIVE == 0 then s
    else (((s.takeover step).put F.CLK_STATUS_REF_ACTIVE 0).put F.CLK_STATUS_REF_LOST 1).event Ev.REF_LOST noInst []

/-- REF_SWITCH (R37): the return to REF_IN after 10 s good, when REF_REVERT is set. -/
def execRefSwitch (t : Nat) (goodFor : Nat) (step : Int) (s : State) : Host.Outcome State Fault Refusal :=
  atTime t s fun s => s.inDom domCLK fun s =>
    if s.get F.CLK_CTRL_REF_REVERT = 1 ∧ s.get F.CLK_STATUS_REF_ACTIVE = 0 ∧ s.get F.CLK_CTRL_REF_SEL ≠ 0 ∧
        10 * uS ≤ goodFor then
      ((s.takeover step).put F.CLK_STATUS_REF_ACTIVE (s.get F.CLK_CTRL_REF_SEL)).event Ev.REF_SWITCH noInst []
    else s

/-- MDLL_LOCKED (R36): an MDLL held ±20 ps for the given number of 25 MHz cycles, while CLK is powered. -/
def execMdllLocked (t : Nat) (second : Bool) (cycles : Nat) (s : State) : Host.Outcome State Fault Refusal :=
  atTime t s fun s =>
    if 4096 ≤ cycles ∧ 2 ≤ s.domState domCLK then s.put (if second then F.CLK_STATUS_LOCK_S else F.CLK_STATUS_LOCK_P) 1 else s

/-- MDLL_TAKEOVER (R38): the active MDLL loses lock. With the standby locked it takes over; otherwise the root is
lost (note to R38) and both lock bits read 0. -/
def execMdllTakeover (t : Nat) (step : Int) (s : State) : Host.Outcome State Fault Refusal :=
  atTime t s fun s => s.inDom domCLK fun s =>
    let standbyOk := s.flag (s.lockBit false)
    let s := s.put (s.lockBit true) 0
    if standbyOk then
      let s := (s.takeover step).event Ev.MDLL_TAKEOVER noInst []
      s.setClk fun x => { x with retryAt := some s.now }
    else s.setClk fun x => { x with suspendAt := some (s.clk.suspendAt.getD s.now) }

/-- MDLL_RETRY (R38): every 10 s the failed MDLL is retried as standby. -/
def execMdllRetry (t : Nat) (good : Bool) (s : State) : Host.Outcome State Fault Refusal :=
  atTime t s fun s => s.inDom domCLK fun s =>
    match s.clk.retryAt with
    | none => s
    | some r =>
      if s.now < r + 10 * uS then s
      else
        let s := s.putB (s.lockBit false) good
        s.setClk fun x => { x with retryAt := if good then none else some s.now }

/-- MDLL_STANDBY_FAULT (R38): no output changes. -/
def execMdllStandbyFault (t : Nat) (s : State) : Host.Outcome State Fault Refusal :=
  atTime t s fun s => s.inDom domCLK fun s =>
    let s := (s.put (s.lockBit false) 0).event Ev.MDLL_STANDBY_FAULT noInst []
    s.setClk fun x => { x with retryAt := some s.now }

/-! ### Clock outputs (R41, R42) -/

/-- R35: an image or a Pour has changed REF_SEL: the standby takes over, by a phase step the spec bounds and does not
give. -/
def State.commitRef (s old : State) : State :=
  if s.get F.CLK_CTRL_REF_SEL = old.get F.CLK_CTRL_REF_SEL then s
  else ((s.freeStep.takeover ((s.freeVal % 17 : Nat) - 8)).put F.CLK_STATUS_REF_ACTIVE (s.get F.CLK_CTRL_REF_SEL)).event
    Ev.REF_SWITCH noInst []

/-- R42: the first rising edge at or after now that is a multiple of N root periods (200 ps, 8 steps of 25 ps) from
the last 1 µs boundary of module time, in steps of 25 ps of elapsed root time. -/
def State.outEdge (s : State) (n : Nat) : Nat :=
  let back := s.mtUnits % uUs * 5
  s.now * 5 - back + ceilDiv back (n * 8) * (n * 8)

/-- R41: a change of DIV or FMT of an output that is and stays enabled. -/
def outBusy (old new : Word) : Bool :=
  (fieldOf new 0 16 != fieldOf old 0 16 || fieldOf new 16 2 != fieldOf old 16 2) &&
  fieldOf old 19 1 == 1 && fieldOf new 19 1 == 1

/-- R42: an output starts on its edge; it stops at the end of its period in progress. -/
def State.outStarts (s : State) (k : Nat) : State :=
  s.setClk fun x => { x with outStart := s.clk.outStart.set k (some (s.outEdge (s.get (F.CLK_OUT_CFG_DIV k)))),
                             outStop := s.clk.outStop.set k none }
def State.outStops (s : State) (k div : Nat) : State :=
  let p := div * 8
  let from_ := (s.clk.outStart.get k).getD 0
  s.setClk fun x => { x with outStart := s.clk.outStart.set k none,
                             outStop := s.clk.outStop.set k (some (from_ + ceilDiv (s.now * 5 - from_) p * p)) }

/-- R42: CLK_OUTn_CFG has changed from an old word. -/
def State.outFollow (s : State) (k : Nat) (old : Word) : State :=
  let on := s.flag (F.CLK_OUT_CFG_EN k)
  if on && fieldOf old 19 1 == 0 then s.outStarts k
  else if !on && fieldOf old 19 1 == 1 then s.outStops k (fieldOf old 0 16)
  else s

/-- R41, R42: a write of CLK_OUTn_CFG. -/
def State.clkOutWrite (s : State) (n k : Nat) (value mask : Word) : Status × State :=
  let old := s.word (R.CLK_OUT_CFG k)
  s.writeIf n (R.CLK_OUT_CFG k) value mask (if outBusy old (masked old value mask) then .busy else .ok) fun s' =>
    s'.outFollow k old

/-- R41, R42, R416: what a clock output drives at an instant, in steps of 25 ps of elapsed root time. -/
inductive OutDrive where
  /-- R41: CLK is off. -/
  | float
  /-- R41: LVDS and HCSL, disabled. -/
  | highZ
  /-- R41: LVCMOS, disabled; a level of another output (R482). -/
  | low
  | high
  /-- R42: running; the level is that of a square wave of N root periods from its start edge. -/
  | runs (high : Bool)
  deriving DecidableEq, Repr

def State.outDrive (s : State) (k : Nat) : OutDrive :=
  let rest : OutDrive := if 2 ≤ s.get (F.CLK_OUT_CFG_FMT k) then .low else .highZ
  let at_ := s.now * 5
  let p := s.get (F.CLK_OUT_CFG_DIV k) * 8
  if !s.works domCLK then .float
  else match s.clk.outStart.get k with
    | some e => if at_ < e then rest else .runs (decide ((at_ - e) % p * 2 < p))
    | none => match s.clk.outStop.get k with
      | some e => if at_ < e then .runs (decide (p < (e - at_) * 2)) else rest
      | none => rest

/-- CLKOUT_CFG_WRITE (R41). -/
def execClkoutCfgWrite (t : Nat) (n : SessIx) (k : Fin 4) (value mask : Word) (s : State) :
    Host.Outcome State Fault Refusal :=
  atTime t s fun s => s.access n domCLK fun s => s.clkOutWrite n k value mask

/-! ### Steps and slews (R45–R47) -/

/-- R45, R47: module time loaded at once; the step is logged with the offset applied, in ns. -/
def State.stepTime (s : State) (units : Nat) : State :=
  let old := s.mtUnits
  let d : Int := (units : Int) - (old : Int)
  let s1 := s.setClk fun _ => { s.clk with
      off := (units : Int) - s.now, slewLeft := 0, slewAcc := 0, steps := s.clk.steps + 1,
      largeLogged := false, backFrom := if d < 0 then max s.clk.backFrom (old / 8) else s.clk.backFrom }
  s1.event Ev.TIME_STEP noInst [.w (d.tdiv 8)]

/-- R46: a correction is a step while no cell is ACTIVE, and a slew otherwise; above 1 ms while a cluster runs it is
logged. `d` is in units of 125 ps. -/
def State.correctTime (s : State) (d : Int) : State :=
  if d = 0 then s
  else if !s.anyActive then s.stepTime ((s.mtUnits : Int) + d).toNat
  else
    let large := decide (8000000 < d.natAbs) && !s.clk.largeLogged
    let s := s.setClk fun x => { x with slewLeft := d,
                                          largeLogged := decide (8000000 < d.natAbs) }
    s.eventIf large Ev.TIME_OFFSET_LARGE noInst []

/-- R46: a slew of more than 1 ms is pending while a cluster runs: it is logged once. -/
def State.slewLarge (s : State) : State :=
  if decide (8000000 < s.clk.slewLeft.natAbs) && s.anyActive && !s.clk.largeLogged then
    (s.setClk fun x => { x with largeLogged := true }).event Ev.TIME_OFFSET_LARGE noInst []
  else s

/-- R53: the bound after its growth of 20 ppm of elapsed time, ns. -/
def State.uncert (s : State) : Nat :=
  if s.get F.TIME_STATUS_STATE = 2 then satN 4294967295 s.clk.uncertBase
  else satN 4294967295 (s.clk.uncertBase + s.since s.clk.uncertAt / 8 * 20 / 1000000)

/-! ### The calendar (R55–R58) -/

/-- R56: whether a year of the Gregorian calendar is a leap year. -/
def isLeap (y : Nat) : Bool := y % 4 == 0 && (y % 100 != 0 || y % 400 == 0)

/-- R56: the days of a month. -/
def monthDays (y m : Nat) : Nat :=
  match m with
  | 2 => if isLeap y then 29 else 28
  | 4 | 6 | 9 | 11 => 30
  | 1 | 3 | 5 | 7 | 8 | 10 | 12 => 31
  | _ => 0

/-- Days from 1970-01-01 to the first of January of a year. -/
def daysToYear (y : Nat) : Nat := 365 * (y - 1970) + ((y - 1969) / 4) - ((y - 1901) / 100) + ((y - 1601) / 400)

/-- Days of a year before the first of a month. -/
def daysToMonth (y m : Nat) : Nat := ((List.range 12).filter (· + 1 < m)).foldl (fun a k => a + monthDays y (k + 1)) 0

/-- UTC seconds since 1970-01-01 of a calendar instant. -/
def civilSec (y m d hh mm ss : Nat) : Nat :=
  (daysToYear y + daysToMonth y m + (d - 1)) * 86400 + hh * 3600 + mm * 60 + ss

/-- The year, month and day of a day number since 1970-01-01, between 2000 and 2199. -/
def civilDate (day : Nat) : Nat × Nat × Nat :=
  let y := ((List.range 200).filter fun k => daysToYear (2000 + k) ≤ day).length + 1999
  let r := day - daysToYear y
  let m := ((List.range 12).filter fun k => daysToMonth y (k + 1) ≤ r).length
  (y, m, r - daysToMonth y m + 1)

/-- R56: the first and the last second of the calendar's range, UTC seconds since 1970. -/
def calFirst : Nat := 946684800
def calLast : Nat := 7258118399

/-- R54, R55: UTC seconds of the RTC. -/
def State.rtcUtcSec (s : State) : Int := (s.rtcSec : Int) - s.clk.rtcUtc

/-- R56: the RTC lies within the calendar. -/
def State.calInRange (s : State) : Bool :=
  decide ((calFirst : Int) ≤ s.rtcUtcSec) && decide (s.rtcUtcSec ≤ calLast)

/-- R56: the UTC second shown: the nearer limit outside the range. -/
def State.calSec (s : State) : Nat := (clampI calFirst calLast s.rtcUtcSec).toNat

/-- R56: the words RTC_CAL_DATE and RTC_CAL_TIME show. -/
def State.calDateWord (s : State) : Word :=
  let (y, m, d) := civilDate (s.calSec / 86400)
  BitVec.ofNat 32 (d + m * 32 + (y - 2000) * 512)
def State.calTimeWord (s : State) : Word :=
  let v := s.calSec % 86400
  let sec := if s.clk.leapAt = some s.rtcSec then 60 else v % 60
  BitVec.ofNat 32 (sec + v / 60 % 60 * 64 + v / 3600 * 4096)

/-- R57, R58: the TAI second a written pair names, or none where the instant is impossible. -/
def State.calParse (s : State) (date time : Word) : Option Nat :=
  let d := fieldOf date 0 5
  let m := fieldOf date 5 4
  let y := 2000 + fieldOf date 9 8
  let ss := fieldOf time 0 6
  let mm := fieldOf time 6 6
  let hh := fieldOf time 12 5
  if 2199 < y ∨ m = 0 ∨ 12 < m ∨ d = 0 ∨ monthDays y m < d ∨ 23 < hh ∨ 59 < mm ∨ 60 < ss then none
  else
    let today := decide (civilSec y m d 0 0 0 / 86400 = s.calSec / 86400)
    let last := hh == 23 && mm == 59
    if ss = 60 ∧ ¬(s.clk.rtcLeap61 ∧ today ∧ last) then none
    else if ss = 59 ∧ s.clk.rtcLeap59 ∧ today ∧ last then none
    else some ((civilSec y m d hh mm ss : Int) + s.clk.rtcUtc).toNat

/-- R56: a read of RTC_CAL_DATE snapshots RTC_CAL_TIME for the session. -/
def State.calDateRead (s : State) (n : Nat) : State :=
  let x := s.sess n
  s.setSess n { x with status := .ok, value := s.calDateWord,
                       snaps := (R.RTC_CAL_TIME, s.calTimeWord) :: dropReg x.snaps R.RTC_CAL_TIME }

/-- R57: a write of RTC_CAL_DATE is judged under R14 and held for the session. -/
def State.calDateWrite (s : State) (n : Nat) (value mask : Word) : Status × State :=
  match (s.writeReg n R.RTC_CAL_DATE value mask).1 with
  | .ok => (.ok, s.setSess n { s.sess n with date := some (masked s.calDateWord value mask) })
  | e => (e, s)

/-- R57: a write of RTC_CAL_TIME: BUSY outside FREERUN or while a cluster runs, then BAD_DATE, else the RTC is set and
module time stepped to the same instant. Every such write releases the held date. -/
def State.calTimeWrite (s : State) (n : Nat) (value mask : Word) : Status × State :=
  let date := (s.sess n).date.getD s.calDateWord
  let time := masked s.calTimeWord value mask
  let s0 := s.setSess n { s.sess n with date := none }
  let level := (s.writeReg n R.RTC_CAL_TIME value mask).1
  let occupied : Status := if s.get F.TIME_STATUS_STATE ≠ 0 ∨ s.anyActive then .busy else .ok
  match level.worst occupied with
  | .ok =>
    match s.calParse date time with
    | none => (.badDate, s0)
    | some tai =>
      let units := tai * uS
      let leap := if fieldOf time 0 6 = 60 then some tai else none
      let s1 := s0.setClk fun x => { x with rtcOff := (units : Int) - s0.now, leapAt := leap }
      let s2 := (s1.put F.RTC_STATUS_CAL_VALID 1).put F.RTC_STATUS_RTC_VALID 1
      (.ok, (s2.inDom domCLK fun s => s.stepTime units).event Ev.RTC_WRITE noInst [])
  | e => (e, s0)

/-- RTC_CAL_DATE_READ (R56). -/
def execRtcCalDateRead (t : Nat) (n : SessIx) (s : State) : Host.Outcome State Fault Refusal :=
  atTime t s fun s => if !s.isOn domMGMT then s else s.calDateRead n

/-- RTC_CAL_DATE_WRITE (R57). -/
def execRtcCalDateWrite (t : Nat) (n : SessIx) (value mask : Word) (s : State) : Host.Outcome State Fault Refusal :=
  atTime t s fun s => s.access n domCREMA fun s => s.calDateWrite n value mask

/-- RTC_CAL_TIME_WRITE (R57). -/
def execRtcCalTimeWrite (t : Nat) (n : SessIx) (value mask : Word) (s : State) : Host.Outcome State Fault Refusal :=
  atTime t s fun s => s.access n domCREMA fun s => s.calTimeWrite n value mask

/-- R55: the RTC's copy of the UTC offset and leap flags. -/
def State.copyUtc (s : State) : State :=
  s.setClk fun x => { x with rtcUtc := s.getS F.TIME_UTC_UTC_OFFSET, rtcLeap61 := s.flag F.TIME_UTC_LEAP61,
                               rtcLeap59 := s.flag F.TIME_UTC_LEAP59 }

/-- R54: a write of TIME_UTC: BUSY outside FREERUN. -/
def State.timeUtcWrite (s : State) (n : Nat) (value mask : Word) : Status × State :=
  s.writeIf n R.TIME_UTC value mask (if s.get F.TIME_STATUS_STATE = 0 then .ok else .busy) State.copyUtc

/-- TIME_UTC_WRITE (R54). -/
def execTimeUtcWrite (t : Nat) (n : SessIx) (value mask : Word) (s : State) : Host.Outcome State Fault Refusal :=
  atTime t s fun s => s.access n domCLK fun s => s.timeUtcWrite n value mask

/-- R54: UTC seconds of module time. -/
def State.utcSec (s : State) : Int := (s.mtUnits / uS : Nat) - s.getS F.TIME_UTC_UTC_OFFSET

/-- R54, R55: the UTC offset and leap flags that the RTC holds, shown by TIME_UTC while CLK is powered. -/
def State.showUtc (s : State) : State :=
  ((s.putS F.TIME_UTC_UTC_OFFSET s.clk.rtcUtc).putB F.TIME_UTC_LEAP61 s.clk.rtcLeap61).putB F.TIME_UTC_LEAP59 s.clk.rtcLeap59

/-- LEAP_APPLIED (R54): at the end of the UTC day on which a flag stands: by module time, and while CLK is off by the RTC
that keeps time meanwhile (R55). The flag reads 0 afterwards: DESIGN CHOICE, log entry 186. -/
def execLeapApplied (t : Nat) (s : State) : Host.Outcome State Fault Refusal :=
  atTime t s fun s =>
    let on := s.works domCLK
    let v := (if on then s.utcSec else s.rtcUtcSec) % 86400
    let apply (s : State) : State := (if on then s.showUtc else s).event Ev.LEAP_APPLIED noInst []
    if s.clk.rtcLeap61 ∧ v = 0 then
      apply (s.setClk fun x => { x with rtcUtc := x.rtcUtc + 1, rtcLeap61 := false,
                                        leapAt := some (if on then s.mtUnits / uS else s.rtcSec) })
    else if s.clk.rtcLeap59 ∧ v = 86399 then
      apply (s.setClk fun x => { x with rtcUtc := x.rtcUtc - 1, rtcLeap59 := false })
    else s

/-- R60: TIME_OPSEC counts the whole seconds elapsed since it was last brought up to date. -/
def State.countLife (s : State) : State :=
  let k := s.since s.clk.opsecAt / uS
  let s1 := s.put64 R.TIME_OPSEC_LO R.TIME_OPSEC_HI (s.get64 R.TIME_OPSEC_LO R.TIME_OPSEC_HI + k)
  s1.setClk fun x => { x with opsecAt := s.clk.opsecAt + uS * k }

/-- RTC_REALIGN (R55): at a whole TAI second while CLK is on the RTC is set to module time. -/
def execRtcRealign (t : Nat) (s : State) : Host.Outcome State Fault Refusal :=
  atTime t s fun s => s.inDom domCLK fun s =>
    let s1 := (s.setClk fun x => { x with rtcOff := s.clk.off }).put F.RTC_STATUS_RTC_VALID 1
    (if s1.calInRange then s1.put F.RTC_STATUS_CAL_VALID 1 else s1).countLife

/-- CAL_RANGE (R56): the RTC has crossed out of the calendar's range. -/
def execCalRange (t : Nat) (s : State) : Host.Outcome State Fault Refusal :=
  atTime t s fun s =>
    if s.calInRange then s
    else (s.put F.RTC_STATUS_CAL_VALID 0).eventIf (s.flag F.RTC_STATUS_CAL_VALID) Ev.CAL_RANGE noInst []

/-- PPS_EDGE (R52): in HOLDOVER with PPS_EN the servo steers the phase of module time to a whole TAI second, by slew. The
second is the nearest one, and half-way the next one: DESIGN CHOICE, log entry 185. -/
def execPpsEdge (t : Nat) (s : State) : Host.Outcome State Fault Refusal :=
  atTime t s fun s => s.inDom domCLK fun s =>
    if s.get F.TIME_STATUS_STATE = 3 ∧ s.get F.TIME_PTP_CFG_PPS_EN = 1 then
      let r := s.mtUnits % uS
      let d : Int := if r * 2 < uS then -(r : Int) else (uS : Int) - r
      (s.setClk fun x => { x with slewLeft := d,
                                  largeLogged := x.largeLogged && decide (8000000 < d.natAbs) }).slewLarge
    else s

/-- PTP_HOLDOVER_EXPIRED (R51): HOLD_S seconds after the first entry into HOLDOVER. -/
def execPtpHoldoverExpired (t : Nat) (s : State) : Host.Outcome State Fault Refusal :=
  atTime t s fun s => s.inDom domCLK fun s =>
    if s.get F.TIME_STATUS_STATE = 3 ∧ s.get F.TIME_STATUS_TRACEABLE = 1 ∧
        s.get F.TIME_PTP_CFG_HOLD_S * uS ≤ s.since s.clk.holdAt then
      let s := s.put F.TIME_STATUS_TRACEABLE 0
      (s.setClk fun x => { x with holdOver := true }).event Ev.PTP_HOLDOVER_EXPIRED noInst []
    else s

/-- R60, R269: the intervals in progress span a sleep, whatever domain was off in it. -/
def State.rtcSpan (s : State) : State :=
  s.setMtr fun x => { x with woke := some s.utcSec, pt := x.pt.map fun e =>
    if e.2.int.from_ = 0 then e else (e.1, { e.2 with int := { e.2.int with flags := e.2.int.flags ||| 8 } }) }

/-- R59: module time loaded from the RTC at a tick edge, the sleep added to both elapsed counters. The RTC's own count
goes on. -/
def State.wakeTime (s : State) (from_ : Int) : State :=
  let units := s.rtcUnits * 32768 / uS * uS / 32768
  let sleep := ((units : Int) - from_).toNat
  let s := s.setClk fun _ => { s.clk with
      off := (units : Int) - s.now, slewLeft := 0, slewAcc := 0, sleepFrom := none,
      uncertBase := 61000 + sleep / 8 * 20 / 1000000, uncertAt := s.now, opsecAt := s.now, freqCorr := 0,
      inBand := 0, offsets := [] }
  let s := (((s.put F.TIME_STATUS_STATE 0).put F.TIME_STATUS_TRACEABLE 0).put F.TIME_STATUS_RTC_DERIVED 1).showUtc.rtcSpan
  let sec := sleep / uS
  let s := s.put64 R.TIME_OPSEC_LO R.TIME_OPSEC_HI (s.get64 R.TIME_OPSEC_LO R.TIME_OPSEC_HI + sec)
  let s := s.put64 R.TIME_RTCSEC_LO R.TIME_RTCSEC_HI (s.get64 R.TIME_RTCSEC_LO R.TIME_RTCSEC_HI + sec)
  s.event Ev.WAKE_FROM_RTC noInst [.w (sleep / uMs)]

/-- R55: the RTC's ticks of 1/32,768 s so far. -/
def State.rtcTick (s : State) : Nat := s.rtcUnits * 32768 / uS

/-- WAKE_FROM_RTC (R59): the first RTC tick edge after both MDLLs have locked; `tick` is the tick at whose edge it is
sent, the RTC's present one. -/
def execWakeFromRtc (t tick : Nat) (s : State) : Host.Outcome State Fault Refusal :=
  atTime t s fun s =>
    match s.clk.sleepFrom with
    | some from_ =>
      if tick = s.rtcTick ∧ s.flag F.CLK_STATUS_LOCK_P ∧ s.flag F.CLK_STATUS_LOCK_S then s.wakeTime from_ else s
    | none => s

end Sys2Proof.Machine
end

