-- ==== Sys2Proof/Machine/Link.lean ====
section
/-! DEFINITION. Ring timing, the mailbox queue and halt injection: what other chapters ask of the rings (R21–R27,
R78–R84, R514). -/

namespace Sys2Proof.Machine

def State.ring (s : State) (n : Nat) : RingSt := s.link.ring.get n
def State.setRing (s : State) (n : Nat) (x : RingSt) : State :=
  s.setLink fun y => { y with ring := s.link.ring.set n x }

/-- R93: codes of RING_STATUS.STATE. -/
abbrev rDOWN : Nat := 0
abbrev rTRAINING : Nat := 1
abbrev rDISCOVERING : Nat := 2
abbrev rUP : Nat := 3
abbrev rBROKEN : Nat := 4
abbrev rSEGMENTED : Nat := 5
abbrev rLOST : Nat := 6

def State.ringState (s : State) (n : Nat) : Nat := s.get (F.RING_STATUS_STATE n)
/-- A ring that carries frames. -/
def State.ringRuns (s : State) (n : Nat) : Bool := rUP ≤ s.ringState n && s.ringState n ≤ rSEGMENTED
def State.ringUpOrBroken (s : State) (n : Nat) : Bool := s.ringState n == rUP || s.ringState n == rBROKEN
def State.ringV1 (s : State) (n : Nat) : Bool := s.get (F.RING_STATUS_VER n) == 1
def State.nCells (s : State) (n : Nat) : Nat := s.get (F.RING_STATUS_NCELLS n)

/-- R488, R489: the cage holds a transceiver that is read and enabled by now. -/
def State.cageOk (s : State) (c : Nat) : Bool := match (s.pins.cage.get c).enabledAt with
  | some a => decide (a ≤ s.now)
  | none => false

/-! ### The cycle grid (R21) -/

/-- R21: the control period in core clocks of 4 ns. -/
def State.period (s : State) : Nat := s.get F.RING_CTL_PERIOD_PERIOD
/-- R21: the control period in units of 125 ps. -/
def State.periodU (s : State) : Nat := max 1 s.period * uClk
/-- R21: the number of the grid instant at or before now. -/
def State.cycleNow (s : State) : Nat := s.mtUnits / s.periodU
/-- R21: module time of T_k of the present cycle, in units. -/
def State.tK (s : State) : Nat := ((s.link.cycle * s.periodU : Nat) + s.link.tkOff).toNat
/-- R310: the instant that stands for T_k on the grid in force: for the last cycle before a change of the period, one
period in force before the change. -/
def State.gridK (s : State) : Nat := if s.tK < s.link.gridFrom then s.link.gridFrom - s.periodU else s.tK
/-- R23: module time of the input freeze of the present cycle. -/
def State.tFreeze (s : State) : Nat := s.tK + s.get F.RING_FREEZE_FREEZE * uClk
/-- R24: module time of the schedule launch of the present cycle. -/
def State.tLaunch (s : State) : Nat := s.gridK + s.get F.RING_LAUNCH_LAUNCH * uClk
/-- R24, R310: module time of T_(k+D). -/
def State.tApply (s : State) : Nat := s.gridK + s.link.d * s.periodU

/-! ### Timing terms (R25, R80, R83, R84), in 1/64 ns unless said otherwise -/

/-- A sum of 1/64 ns and 1/640 ns, rounded once half up to 1/64 ns (R83). -/
def round64 (a64 b640 : Nat) : Nat := (a64 * 20 + b640 * 2 + 10) / 20

/-- R83: the sum of the held link delays of links 0 to N. -/
def State.fibre (s : State) (r : Nat) : Nat :=
  (List.range (s.nCells r + 1)).foldl (fun a h => a + s.get (F.RING_HOP_DLY_DELAY r h)) 0

/-- R84: t_prop. -/
def State.tProp (s : State) (r : Nat) : Nat :=
  s.fibre r + s.nCells r * (if s.ringV1 r then 40 else 30) * 64 + 200 * 64

/-- R25: t_tel, and t_sched. -/
def State.tTel (s : State) (r : Nat) : Nat :=
  round64 (2 * s.tProp r) (ser640 (s.ringV1 r) (telBytes (s.ringV1 r) (s.nCells r)))
def State.tSched (s : State) (r : Nat) : Nat :=
  round64 (s.tProp r) (ser640 (s.ringV1 r) (schedBytes (s.nCells r)))

/-- R80: t_halt. -/
def State.tHalt (s : State) (r : Nat) : Nat :=
  round64 (s.nCells r * (if s.ringV1 r then 20 else 12) * 64 + s.fibre r) (ser640 (s.ringV1 r) 32)

/-- R83: the timing registers of a ring from its held link delays. -/
def State.ringTimes (s : State) (r : Nat) : State :=
  let s1 := (s.put (F.RING_TPROP_T r) (s.tProp r)).put (F.RING_TTEL_T r) (s.tTel r)
  (s1.put (F.RING_TSCHED_T r) (s.tSched r)).put (F.RING_THALT_T r) (s.tHalt r)

/-- R23–R27: the freeze, the launch (moved by R27 where it must be) and W(D), in core clocks, for given rings. -/
structure Timing where
  freeze : Nat
  launch : Int
  window : Int
  deriving DecidableEq, Repr

/-- R23, R24, R27: the freeze, launch and window for given terms, a period (in core clocks) and a D. -/
def timingOf (x : Admitted) (period d : Nat) : Timing :=
  let freeze := ceilDiv x.tel 256
  let launch0 : Int := ((d * period * 256 : Nat) - 500 * 64 - (x.sched : Int)).fdiv 256
  let p : Int := period
  let m : Int := -((-launch0).fdiv p)
  let lim : Int := m * p - 1
  let launch : Int := if lim * 2560 < launch0 * 2560 + x.sMax then (lim * 2560 - x.sMax).fdiv 2560 else launch0
  { freeze := freeze, launch := launch, window := launch - freeze - 10 - 512 }

/-- R25, R514: the greatest terms of some rings, as measured now. -/
def State.ringTerms (s : State) (rings : List Nat) : Admitted :=
  { tel := rings.foldl (fun a r => max a (s.get (F.RING_TTEL_T r))) 0,
    sched := rings.foldl (fun a r => max a (s.get (F.RING_TSCHED_T r))) 0,
    sMax := rings.foldl (fun a r => max a (ser640 (s.ringV1 r) (schedBytes (s.nCells r)))) 0 }

def State.timing (s : State) (rings : List Nat) (d : Nat) : Timing := timingOf (s.ringTerms rings) s.period d

/-- R25, R514: the terms in force: those admitted at the last start with a feasible D, before it those of every ring that
is UP or BROKEN. -/
def State.termsNow (s : State) : Admitted :=
  s.link.terms.getD (s.ringTerms ((List.range 8).filter s.ringUpOrBroken))

/-- R24, R310, R514: the freeze and the launch follow the terms in force, the D in force and the control period. -/
def State.retime (s : State) : State :=
  let tm := timingOf s.termsNow s.period s.link.d
  (s.put F.RING_FREEZE_FREEZE tm.freeze).put F.RING_LAUNCH_LAUNCH tm.launch.toNat

/-- R310: the control period has changed from that of an old state at the boundary `tc`: the cycle in progress keeps its
T_k, and the new grid counts from `tc`. -/
def State.newPeriod (s old : State) (tc : Nat) : State :=
  if s.period = old.period then s
  else s.setLink fun x => { x with tkOff := (old.tK : Int) - (s.link.cycle * s.periodU : Nat), gridFrom := tc }

/-- R514: at an image load D is 2 again, and the terms follow the rings. -/
def State.unadmit (s : State) : State := (s.setLink fun x => { x with terms := none, d := 2 }).retime

/-- R25: a value of D is feasible: t_ce ≤ W(D) and t_ce ≤ one period. -/
def State.fits (s : State) (tm : Timing) : Bool :=
  decide ((s.get F.RING_TCE_TCE : Int) ≤ tm.window) && decide (s.get F.RING_TCE_TCE ≤ s.period)

/-- R25: the rings whose terms count at a start. -/
def State.startRings (s : State) : List Nat :=
  (List.range 8).filter fun r => (cellsOf r).any fun k => 4 ≤ s.cellState k

/-- R25: the smaller D that is feasible for the rings of a start, with its timing. -/
def State.feasible (s : State) : Option (Nat × Timing) :=
  [1, 2].findSome? fun d =>
    let tm := s.timing s.startRings d
    if s.fits tm then some (d, tm) else none

/-- R25, R26, R514: the values admitted at a start with a feasible D are in force until the next such start. -/
def State.admitStart (s : State) (d : Nat) (tm : Timing) : State :=
  let rings := s.startRings
  let s1 := ((s.put F.RING_LOOPD_D d).put F.RING_LOOPD_FEASIBLE 1).putSat F.RING_LOOPD_W_CLK tm.window.toNat
  let s2 := rings.foldl (fun s r =>
    let s := (s.put (F.RING_ADMIT_TEL_T r) (s.get (F.RING_TTEL_T r))).put (F.RING_ADMIT_SCHED_T r)
      (s.get (F.RING_TSCHED_T r))
    s.setRing r { s.ring r with unfit := false, exceeded := false }) s1
  (s2.setLink fun x => { x with terms := some (s.ringTerms rings), d := d }).retime

/-- R25, R514: a start at which no D is feasible changes nothing in force. -/
def State.infeasible (s : State) : State :=
  (((s.put F.RING_LOOPD_D 0).put F.RING_LOOPD_FEASIBLE 0).putSat F.RING_LOOPD_W_CLK
    (s.timing s.startRings 2).window.toNat).event Ev.LOOP_DELAY_INFEASIBLE noInst []

/-- R25: D is chosen at a start. The answer says whether one is feasible. -/
def State.chooseD (s : State) : Bool × State := match s.feasible with
  | some (d, tm) => (true, s.admitStart d tm)
  | none => (false, s.infeasible)

/-- R26: a re-discovered ring fits the values in force. -/
def State.ringFits (s : State) (r : Nat) : Bool :=
  let freeze := s.get F.RING_FREEZE_FREEZE * 256
  let launch := s.get F.RING_LAUNCH_LAUNCH
  let sched := s.get (F.RING_TSCHED_T r)
  let m := ceilDiv launch s.period
  decide (s.get (F.RING_TTEL_T r) ≤ freeze) &&
  decide (launch * 256 + sched + 500 * 64 ≤ s.link.d * s.period * 256) &&
  decide (launch * 2560 + ser640 (s.ringV1 r) (schedBytes (s.nCells r)) + 2560 ≤ m * s.period * 2560)

/-! ### The mailbox (R81, R82, R291) -/

/-- R82, R291: place a request: a new sequence, a lease of 1 ms from its first send; a broadcast takes three frames and
no reply. -/
def State.mbxPlace (s : State) (r : Nat) (q : MbxReq) : State :=
  let seq := (s.get (F.RING_MBX_STAT_SEQ r) + 1) % 256
  let s1 := ((s.put (F.RING_MBX_STAT_SEQ r) seq).put (F.RING_MBX_STAT_BUSY r) 1).put (F.RING_MBX_STAT_OWNER r) q.owner
  s1.setRing r { s1.ring r with
    out := some { req := q, seq := seq, due := s.mtUnits + uMs, left := if q.dst = 0xFFFE then 3 else 0, sent := false } }

/-- R82: the waiting request that goes next: Pour engine, lane sequencer, then management, each in its order. -/
def nextReq (l : List MbxReq) : Option MbxReq :=
  (l.find? (·.owner == 0)).or ((l.find? (·.owner == 1)).or (l.find? (·.owner == 2)))

/-- R82: with no request outstanding, the next one is placed. -/
def State.mbxNext (s : State) (r : Nat) : State :=
  let x := s.ring r
  if x.out.isSome then s
  else match nextReq x.queue with
    | none => s
    | some q => (s.setRing r { x with queue := x.queue.erase q }).mbxPlace r q

/-- R81: a request joins the ring's queue, once. -/
def State.mbxPost (s : State) (r : Nat) (q : MbxReq) : State :=
  let x := s.ring r
  if x.queue.contains q || (match x.out with | some o => o.req == q | none => false) then s
  else (s.setRing r { x with queue := x.queue ++ [q] }).mbxNext r

/-! ### Halts (R78, R79) -/

/-- R78, R20: the latest halt's frame at both ports of a ring: it aborts any frame in progress there. -/
def State.haltTx (s : State) (r : Nat) : State :=
  [0, 1].foldl (fun (s : State) p =>
    if !s.mergeOk r (p == 1) then s
    else
      let x := (s.ring r).abortTx p s.now
      s.setRing r (x.putTx p (s.ringV1 r) s.now 0 (.halt (s.get (F.RING_HALT_STAT_HALT_SEQ r)) x.tripAt
        (s.get (F.RING_HALT_STAT_SRC_CH r)) (s.get (F.RING_HALT_STAT_SRC_CLASS r))))) s

/-- R78: a halt is injected at a ring: the next HALT_SEQ, the first frame at once, three repeats to come. -/
def State.haltInject (s : State) (r cls ch : Nat) : State :=
  let seq := (s.get (F.RING_HALT_STAT_HALT_SEQ r) + 1) % 65536
  let s1 := ((s.put (F.RING_HALT_STAT_HALT_SEQ r) seq).put (F.RING_HALT_STAT_SRC_CLASS r) cls).put
    (F.RING_HALT_STAT_SRC_CH r) ch
  let x := s1.ring r
  let s2 := (s1.setRing r { x with
    sources := if x.sources.contains (cls, ch) then x.sources else (cls, ch) :: x.sources,
    tripAt := s1.mtNs, haltNext := some (s.now + uUs, 3), release := false }).haltTx r
  (s2.setCapAsk fun _ => s2.capAsk ++ [(s.mtUnits, 2, r)]).event Ev.HALT_INJECTED r [.w seq, .w (cls * 256 + ch)]

/-- R79: HALT_ACTIVE clears once every source is clear and the lanes request release. -/
def State.haltSettle (s : State) (r : Nat) : State :=
  let x := s.ring r
  if x.release && x.sources.isEmpty then s.put (F.RING_HALT_STAT_HALT_ACTIVE r) 0 else s

/-- R79: a source of a halt is clear. -/
def State.haltSourceClear (s : State) (r cls ch : Nat) : State :=
  let x := s.ring r
  (s.setRing r { x with sources := x.sources.filter (· != (cls, ch)) }).haltSettle r

/-- R79: the lanes request release: their own requests (class 2) end. -/
def State.haltRelease (s : State) (r : Nat) : State :=
  let x := s.ring r
  (s.setRing r { x with release := true, sources := x.sources.filter (·.1 != 2) }).haltSettle r

/-- R85, R74: a frame of a ring leaves a port: the transmit path puts its first bit on the fibre 100 ns later, or after
the halt frame in progress there; CORR is the time from the header's time field (`field`, module time in units) to that
bit, in 1/64 ns. -/
def State.launchTx (s : State) (r port : Nat) (v1 : Bool) (field : Nat) (f : OutFrame) : State :=
  let x := s.ring r
  let free := match x.tx.get port with
    | some g => if g.isHalt then g.ends else 0
    | none => 0
  let first := max (s.now + 100 * uNs) free
  s.setRing r (x.putTx port v1 first (((s.mtUnits + (first - s.now) : Nat) - (field : Int)) * 8) f)

/-- R104, R205: a lane halt request for a cluster (class 2, channel 0). -/
def State.laneHalt (s : State) (c : Nat) : State := s.haltInject c 2 0

end Sys2Proof.Machine
end

