-- ==== Sys2Proof/Machine/PourEnd.lean ====
section
/-! DEFINITION. How a Pour ends without effect (R297, R304, R308, R309) and the marks of R307: the cells, the lanes, the
sessions and the Pour engine share it. -/

namespace Sys2Proof.Machine

def State.pslot (s : State) (k : Nat) : PourSlot := s.pour.slot.get k
def State.setPslot (s : State) (k : Nat) (x : PourSlot) : State := s.setPour fun p => { p with slot := p.slot.set k x }
def State.pstat (s : State) (k : Nat) : Nat := s.get (F.POUR_SLOT_STAT_STATE k)
def State.pseq (s : State) (k : Nat) : Nat := s.get (F.POUR_SLOT_SEQ_SUBMIT k)

/-- R302: a submitted Pour that has not ended. -/
def livePour (st : Nat) : Bool := 2 ≤ st && st ≤ 7

/-- R308: the submissions whose outcome a later CHAIN may still ask for. -/
def PourSt.known (p : PourSt) (n : Nat) : Bool :=
  p.last.any (fun e => e.2 == some n) || p.slot.any fun e => e.2.prev == some n

/-- R304: the rings a Pour has staged to. -/
def PourSlot.rings (x : PourSlot) : List Nat :=
  (List.range 8).filter fun r => x.targets.any fun g => g.sent && ringOf g.cell == r

/-- R304: ABORT_STAGE of a Pour ID on a ring. -/
def State.abortStage (s : State) (id r : Nat) : State :=
  s.mbxPost r { owner := 0, dst := 0xFFFE, op := 5, data := leBytes 2 id, purpose := .abortStage id }

/-- R304: the STAGE requests of a slot that still wait are withdrawn. -/
def State.dropStage (s : State) (k r : Nat) : State :=
  s.setRing r { s.ring r with queue := (s.ring r).queue.filter fun q => match q.purpose with
    | .stage j _ => j != k
    | _ => true }

/-- R304, R308, R309: a Pour ends ABORTED. With result HOLD the ABORT_STAGE broadcasts wait for the restart. -/
def State.pourAbort (s : State) (k result status check detail : Nat) : State :=
  let st := s.pstat k
  let x := s.pslot k
  let rs := x.rings
  let s1 := (((s.put (F.POUR_SLOT_STAT_STATE k) 9).put (F.POUR_SLOT_STAT_RESULT k) result).put (F.POUR_SLOT_STAT_STATUS k)
    status).put (F.POUR_SLOT_FAIL_CHECK k) check
  let s2 := ((s1.put (F.POUR_SLOT_FAIL_DETAIL k) detail).countWrap F.POUR_CNT_ABORTED).setPslot k
    { x with ended := s.pour.ends + 1, grant := none }
  let gone (p : PourSt) : List Nat := if 2 ≤ st then (s.pseq k :: p.aborted).filter p.known else p.aborted
  let s3 := s2.setPour fun p => { p with ends := p.ends + 1, aborted := gone p }
  let s4 := rs.foldl (fun s r => s.dropStage k r) s3
  let id := s.get (F.POUR_SLOT_ID_ID k)
  let s5 := if result = 8 then s4.setPour fun p => { p with owed := p.owed ++ rs.map (id, ·) }
    else rs.foldl (fun s r => s.abortStage id r) s4
  s5.event Ev.POUR_ABORTED noInst [.w id, .w result, .w status, .w detail]

/-- A list of slots in submission order. -/
def insBySeq (f : Nat → Nat) (k : Nat) : List Nat → List Nat
  | [] => [k]
  | j :: r => if f k < f j then k :: j :: r else j :: insBySeq f k r

/-- R295: slots in the order of their submission numbers. -/
def State.bySeq (s : State) (l : List Nat) : List Nat := l.foldr (insBySeq s.pseq) []

/-- R309: HOLD begins: every Pour in QUEUED, STAGING or STAGED ends with result HOLD, in submission order. -/
def State.holdPours (s : State) : State :=
  let l := (List.range 16).filter fun k => 2 ≤ s.pstat k && s.pstat k ≤ 4
  (s.bySeq l).foldl (fun s k => s.pourAbort k 8 0 0 0) s

/-! ### Marked cells (R307) -/

/-- R307: the mark of a cell. -/
abbrev staleFld (k : Nat) : Fld := ⟨R.POUR_CFG_STALE (k / 32), k % 32, 1⟩
def State.marked (s : State) (k : Nat) : Bool := s.flag (staleFld k)

/-- R307: the mark of a cell clears. -/
def State.unmark (s : State) (k : Nat) : State :=
  (s.put (staleFld k) 0).setPour fun p => { p with left := p.left.set k 0 }

/-- R299: a Pour that changes the parameters of a cluster is between STAGING and DONE. -/
def State.holdsParams (s : State) (c : Nat) : Bool :=
  (List.range 16).any fun k => 3 ≤ s.pstat k && s.pstat k ≤ 7 && (s.pslot k).clus.contains c

end Sys2Proof.Machine
end

