-- ==== Sys2Proof/Machine/WearRec.lean ====
section
/-! DEFINITION. The wear record in the node (R357) and what an admission does to the wear engine (R347, R351): the part
of the wear engine that the cells' own operations use. -/

namespace Sys2Proof.Machine

def State.wcell (s : State) (k : Nat) : WearCell := s.wear.cell.get k
def State.setWcell (s : State) (k : Nat) (x : WearCell) : State :=
  s.setWear fun y => { y with cell := s.wear.cell.set k x }

/-- R352: damage of half-bridge `h`, Q16.48. -/
def State.damage (s : State) (k h : Nat) : Nat :=
  if h = 0 then s.get64 (R.WEAR_CELL_D0_LO k) (R.WEAR_CELL_D0_HI k) else s.get64 (R.WEAR_CELL_D1_LO k) (R.WEAR_CELL_D1_HI k)
def State.setDamage (s : State) (k h v : Nat) : State :=
  let v := satN (2 ^ 64 - 1) v
  if h = 0 then s.put64 (R.WEAR_CELL_D0_LO k) (R.WEAR_CELL_D0_HI k) v
  else s.put64 (R.WEAR_CELL_D1_LO k) (R.WEAR_CELL_D1_HI k) v

/-- R357: a block of the wear record, 0 at 0x0300 and 1 at 0x0310. -/
def State.wearBlock (s : State) (k part : Nat) : List Byte :=
  if part = 0 then leBytes 8 (s.damage k 0) ++ leBytes 8 (s.damage k 1)
  else leBytes 4 (s.get (F.WEAR_CELL_HOURS_HOURS k)) ++ leBytes 2 (s.get (F.WEAR_CELL_ESR_ESR0 k)) ++
    leBytes 2 (s.get (F.WEAR_CELL_CAP_C0 k)) ++ leBytes 4 (s.get (F.WEAR_CELL_RS_RATE k)) ++
    leBytes 4 (s.get (F.WEAR_CELL_RF_RATE k))

def wearAddr (part : Nat) : Nat := 0x0300 + 16 * part

/-- R357: ask the node for the blocks of its record not read yet. -/
def State.wearAsk (s : State) (k : Nat) : State :=
  (s.wcell k).unread.foldl (fun s p => s.mbxPost (ringOf k)
    { owner := 2, dst := k % 128, op := 1, data := leBytes 2 (wearAddr p), purpose := .wearRead p }) s

/-- R357: both blocks are to be written; REC_PEND until both are replied OK. The record must have been read first. -/
def State.wearWrite (s : State) (k : Nat) : State :=
  let x := s.wcell k
  if !x.model || !x.unread.isEmpty then s
  else
    let s1 := s.setWcell k { x with pend := [0, 1], failAt := some (x.failAt.getD s.now) }
    [0, 1].foldl (fun s p => s.mbxPost (ringOf k)
      { owner := 2, dst := k % 128, op := 2, data := leBytes 2 (wearAddr p) ++ s.wearBlock k p, purpose := .wearWrite p })
      (s1.put (F.WEAR_CELL_STAT_REC_PEND k) 1)

/-- R357: a block of the record as read; all 0xFF is the state of a new node. The rates go to both half-bridges; rates
of 0 are those of a new node and are not known. -/
def State.wearLoad (s : State) (k part : Nat) (data : List Byte) : State :=
  let d := if data.all fun b => b == 0xFF#8 then [] else data
  let x := s.wcell k
  let left := x.unread.filter fun p => p != part
  let y := { x with unread := left, failAt := if left.isEmpty then none else x.failAt,
                    failLog := if left.isEmpty then false else x.failLog }
  if !x.unread.contains part then s
  else if part = 0 then
    let s1 := (s.setDamage k 0 (s.damage k 0 + leAt d 0 8)).setDamage k 1 (s.damage k 1 + leAt d 8 8)
    s1.setWcell k { y with hb0 := { y.hb0 with last := y.hb0.last + leAt d 0 8 },
                           hb1 := { y.hb1 with last := y.hb1.last + leAt d 8 8 } }
  else
    let rs := leAt d 8 4
    let rf := leAt d 12 4
    let known := rs ≠ 0 ∨ rf ≠ 0
    let put (h : WearHb) : WearHb := if known then { h with rs := rs * 2 ^ 24, rf := rf * 2 ^ 24 } else h
    let s1 := (s.putSat (F.WEAR_CELL_HOURS_HOURS k) (s.get (F.WEAR_CELL_HOURS_HOURS k) + leAt d 0 4)).put
      (F.WEAR_CELL_ESR_ESR0 k) (leAt d 4 2)
    let s2 := ((s1.put (F.WEAR_CELL_CAP_C0 k) (leAt d 6 2)).put (F.WEAR_CELL_RS_RATE k) rs).put (F.WEAR_CELL_RF_RATE k) rf
    s2.setWcell k { y with hb0 := put y.hb0, hb1 := put y.hb1, known := decide known,
                           active := y.active + leAt d 0 4 * 3600 * uS }

/-- R357: a reply to a write of a block. -/
def State.wearWritten (s : State) (k part : Nat) : State :=
  let x := s.wcell k
  let left := x.pend.filter fun p => p != part
  let s1 := s.setWcell k { x with pend := left, failAt := if left.isEmpty then none else x.failAt,
                                  failLog := if left.isEmpty then false else x.failLog }
  if left.isEmpty then s1.put (F.WEAR_CELL_STAT_REC_PEND k) 0 else s1

/-- R347, R349, R351, R357: the wear engine at the admission of a node: on a v1 ring it forms nothing; else its nodes
start at 0, its record is read, and the matrix of another node is cleared. -/
def State.wearAdmit (s : State) (k : Nat) (v1 : Bool) : State :=
  let id := s.get64 (R.CELL_NODE_ID_LO k) (R.CELL_NODE_ID_HI k)
  let m := if s.wear.node.get k = id then s.wear.matrix else s.wear.matrix.set k []
  let s0 := s.setWear fun x => { x with matrix := m, node := s.wear.node.set k id }
  let s1 := [R.WEAR_CELL_STAT k, R.WEAR_CELL_TJ k, R.WEAR_CELL_D0_LO k, R.WEAR_CELL_D0_HI k, R.WEAR_CELL_D1_LO k,
    R.WEAR_CELL_D1_HI k, R.WEAR_CELL_RS k, R.WEAR_CELL_RF k, R.WEAR_CELL_LIFE k, R.WEAR_CELL_ESR k, R.WEAR_CELL_CAP k,
    R.WEAR_CELL_HOURS k].foldl (fun s r => s.setWord r (resetWord r)) s0
  if v1 then (s1.setWcell k {}).put (F.WEAR_CELL_STAT_NO_VCE k) 1
  else
    (((s1.setWcell k { model := true, unread := [0, 1], failAt := some s.now }).put (F.WEAR_CELL_STAT_MODEL k)
      (s.get F.WEAR_CFG_EN)).wearAsk k)

/-- R98: the entry of a cell goes ABSENT: its model stops. -/
def State.wearGone (s : State) (k : Nat) : State :=
  if (s.wcell k).model then
    (((s.setWcell k {}).put (F.WEAR_CELL_STAT_MODEL k) 0).put (F.WEAR_CELL_STAT_CANDIDATE k) 0).put
      (F.WEAR_CELL_STAT_URGENT k) 0
  else s

/-- R348: a carrier period of a cell has begun; whether each half-bridge forms a pulse in it. -/
def State.wearPeriod (s : State) (k : Nat) (p0 p1 : Bool) : State :=
  let x := s.wcell k
  if x.model then
    s.setWcell k { x with periods := x.periods + 1, hb0 := { x.hb0 with pulses := x.hb0.pulses + b2n p0 },
                          hb1 := { x.hb1 with pulses := x.hb1.pulses + b2n p1 } }
  else s

end Sys2Proof.Machine
end

