-- ==== Sys2Proof/Machine/Cells.lean ====
section
/-! DEFINITION. Cell entries: state changes, admission, diagnosis, following the data path, margin, bypass and return
(R95–R116), as operations that the commands of several chapters share. -/

namespace Sys2Proof.Machine

/-! ### Names -/

abbrev cABSENT : Nat := 0
abbrev cLINKED : Nat := 1
abbrev cNEGOTIATED : Nat := 2
abbrev cDIAGNOSING : Nat := 3
abbrev cREADY : Nat := 4
abbrev cACTIVE : Nat := 5
abbrev cBYPASSED : Nat := 6
abbrev cRETIRED : Nat := 7
abbrev cFAULTED : Nat := 8
abbrev cLOCKED_OUT : Nat := 9

/-- R72: PSTATE of the last accepted slot. -/
abbrev pSTOPPED : Nat := 0
abbrev pSWITCHING : Nat := 1
abbrev pBYPASSED : Nat := 2
abbrev pHALTED : Nat := 3
abbrev pDIAG : Nat := 4
abbrev pDISABLED : Nat := 5

/-- R75: BYP close and open; MODE. -/
abbrev bypClose : Nat := 0x3C
abbrev bypOpen : Nat := 0xC3
abbrev mSTOP : Nat := 0
abbrev mRUN : Nat := 1
abbrev mDIAG : Nat := 2
abbrev mRELEASE : Nat := 3

def State.cell (s : State) (k : Nat) : CellX := s.cells.x.get k
def State.setCellX (s : State) (k : Nat) (x : CellX) : State :=
  s.setCells fun y => { y with x := s.cells.x.set k x }

def State.phaseOf (s : State) (k : Nat) : Nat := s.get (F.CELL_CFG_PHASE k)
def State.inMap (s : State) (k : Nat) : Bool := s.flag (F.CELL_CFG_IN_MAP k)
def posOf (k : Nat) : Nat := k % 128

/-- The cells of the cell map in one phase of a cluster, by rising position. -/
def State.phaseCells (s : State) (c ph : Nat) : List Nat :=
  (cellsOf c).filter fun k => s.inMap k && s.phaseOf k == ph

/-- R109: N_MAP of a phase. -/
def State.nMap (s : State) (c ph : Nat) : Nat := (s.phaseCells c ph).length

/-- R70: VDC of the last accepted slot, 50 mV. -/
def State.vdc (s : State) (k : Nat) : Nat := fieldOf (s.word (R.CELL_TLM k 0)) 0 16
/-- R70: VSTR (50 mV), ISTR (4 mA), IARM (20 mA) of the last accepted slot. -/
def State.vstr (s : State) (k : Nat) : Nat := fieldOf (s.word (R.CELL_TLM k 0)) 16 16
def State.istr (s : State) (k : Nat) : Int := signedOf 16 (fieldOf (s.word (R.CELL_TLM k 1)) 0 16)
def State.iarm (s : State) (k : Nat) : Int := signedOf 16 (fieldOf (s.word (R.CELL_TLM k 1)) 16 16)
/-- R72: a bit of STATUS of the last accepted slot; PSTATE. -/
def State.statusBit (s : State) (k b : Nat) : Bool := bit (s.cell k).status b
def State.pstate (s : State) (k : Nat) : Nat := (s.cell k).status % 8

/-! ### Margin (R109–R111) -/

/-- Insert into a list that falls. -/
def insDesc (v : Nat) : List Nat → List Nat
  | [] => [v]
  | a :: r => if a ≤ v then v :: a :: r else a :: insDesc v r

/-- R109: M_now over the VDC values (50 mV): the largest n for which V_cap without the n highest is at least VNEED
(10 V units), −1 when V_cap is below it. The comparison is exact. -/
def marginOf (vdcs : List Nat) (mmax vneed : Nat) : Int :=
  let sorted := vdcs.foldr insDesc []
  let enough (n : Nat) : Bool := decide (vneed * 204800 ≤ mmax * (sorted.drop n).foldl (· + ·) 0)
  (((List.range (sorted.length + 1)).filter enough).length : Int) - 1

/-- R109: the cells of a phase that count for V_cap: ACTIVE while the cluster runs, READY and ACTIVE before a start. -/
def State.countCells (s : State) (c ph : Nat) : List Nat :=
  let run := s.cluActive c
  (s.phaseCells c ph).filter fun k => s.cellState k == cACTIVE || (!run && s.cellState k == cREADY)

/-- R109: M_now of a phase without some cells; −1 for a phase that holds no cell. -/
def State.mNowWithout (s : State) (c ph : Nat) (out : List Nat) : Int :=
  if s.nMap c ph = 0 then -1
  else marginOf (((s.countCells c ph).filter fun k => !out.contains k).map s.vdc)
    (s.get (F.CELL_CLU_CFG_MMAX c)) (s.get (F.CELL_CLU_CFG_VNEED c))
def State.mNow (s : State) (c ph : Nat) : Int := s.mNowWithout c ph []

/-- R109: V_cap truncated to whole 10 V. -/
def State.vCap (s : State) (c ph : Nat) : Nat :=
  s.get (F.CELL_CLU_CFG_MMAX c) * ((s.countCells c ph).map s.vdc).foldl (· + ·) 0 / 204800

/-- R113: some cell of the cluster holds BYP_BLOCK. -/
def State.bypBlock (s : State) (c : Nat) : Bool := (cellsOf c).any fun k => (s.cell k).block

/-- R110: M_now of a phase over its READY cells. -/
def State.mReady (s : State) (c ph : Nat) : Int :=
  marginOf (((s.phaseCells c ph).filter fun k => s.cellState k == cREADY).map s.vdc)
    (s.get (F.CELL_CLU_CFG_MMAX c)) (s.get (F.CELL_CLU_CFG_VNEED c))

/-- R110: START_OK. -/
def State.startOk (s : State) (c : Nat) : Bool :=
  [0, 1, 2].all (fun ph => s.nMap c ph == 0 || decide (0 ≤ s.mReady c ph)) && !s.bypBlock c

/-- R112, R114: a sequence of the cell is in progress. -/
def State.seqBusy (s : State) (k : Nat) : Bool := s.flag (F.CELL_STATE_SEQ_BUSY k)

/-- R111: the margin a planned bypass of a cell would leave, the phase's other planned bypasses counted out too. -/
def State.marginIf (s : State) (k : Nat) : Int :=
  let c := ringOf k
  let ph := s.phaseOf k
  let going := (s.phaseCells c ph).filter fun j => match (s.cell j).seq with
    | .bypRamp .. | .bypZero .. | .bypClose .. => true
    | _ => false
  s.mNowWithout c ph (k :: going)

/-! ### State changes (R102) -/

/-- R102: a change of STATE: PREV and REASON are set and CELL_STATE is logged; R357: entry into RETIRED, FAULTED or
LOCKED_OUT writes the wear record. -/
def State.setCell (s : State) (k dest reason : Nat) : State :=
  let old := s.cellState k
  let s1 := ((s.put (F.CELL_STATE_PREV k) old).put (F.CELL_STATE_STATE k) dest).put (F.CELL_STATE_REASON k) reason
  let s2 := s1.event Ev.CELL_STATE k [.w k, .w old, .w dest, .w reason]
  if 7 ≤ dest ∧ dest ≤ 9 then s2.wearWrite k else s2

/-- R97: the write of a disposition to a node. -/
def dispReq (k code : Nat) : MbxReq :=
  { owner := 1, dst := posOf k, op := 2, data := leBytes 2 0x0010 ++ [BitVec.ofNat 8 code], purpose := .dispWrite }

/-- R97: write a disposition to the node until it answers OK; a waiting write of another one is withdrawn. -/
def State.askDisp (s : State) (k code : Nat) : State :=
  let s1 := (s.put (F.CELL_STATE_DISP_PEND k) 1).setCellX k { s.cell k with dispWant := code }
  let x := s1.ring (ringOf k)
  let old (q : MbxReq) : Bool := q.dst == posOf k && q.purpose == .dispWrite && q != dispReq k code
  (s1.setRing (ringOf k) { x with queue := x.queue.filter fun q => !old q }).mbxPost (ringOf k) (dispReq k code)

/-- The sequence of a cell ends where it stands. -/
def State.endSeq (s : State) (k : Nat) : State :=
  let s1 := s.put (F.CELL_STATE_SEQ_BUSY k) 0
  s1.setCellX k { s1.cell k with seq := .none, bypDue := none }

/-- R112, R116: a planned bypass. -/
def CellSeq.bypassing (q : CellSeq) : Bool := match q with
  | .bypRamp .. | .bypZero .. | .bypClose .. => true
  | _ => false

/-- R112, R114, R116: a planned bypass or a return to service. -/
def CellSeq.planned (q : CellSeq) : Bool := q.bypassing || match q with
  | .retZero .. | .retOpen .. => true
  | _ => false

/-- R116: a fault bypass goes before the planned bypasses of its phase: one that would now leave less than no margin is
abandoned, and its share restored. -/
def State.sparePhase (s : State) (k : Nat) : State :=
  let c := ringOf k
  let ph := s.phaseOf k
  ((s.phaseCells c ph).filter fun j => j != k && (s.cell j).seq.bypassing).foldl (fun s j =>
    if decide (s.mNowWithout c ph [k, j] < 0) && s.cluActive c then
      let s1 := s.endSeq j
      s1.setCellX j { s1.cell j with byp := 0, share := if s.cellState j = cACTIVE then .rise s.now else .zero }
    else s) s

/-- R113: the fault bypass: zero-state compares and BYP close in the next schedule, no ramp, share removed. -/
def State.faultBypass (s : State) (k : Nat) : State :=
  let s1 := (s.sparePhase k).put (F.CELL_STATE_SEQ_BUSY k) 0
  let s2 := s1.setCellX k { s1.cell k with
    mode := mSTOP, byp := bypClose, closed := true, share := .zero, seq := .fault,
    bypDue := some (s1.now + s1.get F.CELL_CTRL_BYP_TO * uMs), diagDue := none, diagRetry := none }
  if s.flag (F.CELL_STATE_NO_BYPASS k) && s.cluRunning (ringOf k) then s2.laneHalt (ringOf k) else s2

/-- R102, R97: entry into LOCKED_OUT; an entry that is there already takes the reason. -/
def State.lockOut (s : State) (k reason : Nat) : State :=
  if s.cellState k = cLOCKED_OUT then s.put (F.CELL_STATE_REASON k) reason
  else (s.setCell k cLOCKED_OUT reason).askDisp k 2

/-- R107, R108, R101: entry into FAULTED with fault bypass; the entries within 24 h of module time are counted. -/
def State.faultCell (s : State) (k reason : Nat) : State :=
  let day := 86400 * uS
  let times := s.mtUnits :: (s.cell k).faults.filter fun t => s.mtUnits < t + day
  let s1 := ((s.setCell k cFAULTED reason).put (F.CELL_DIAG_VALID k) 0).putSat (F.CELL_FAULTS_FAULT24 k) times.length
  (s1.setCellX k { s1.cell k with faults := times }).faultBypass k

/-- R113: a bypass fault while the bypass is commanded closed: LOCKED_OUT, BYP_BLOCK, and a halt of a running cluster. -/
def State.bypFault (s : State) (k : Nat) : State :=
  let s1 := ((s.put (F.CELL_FAULTS_BYP_FAULT k) 1).put (F.CELL_STATE_SEQ_BUSY k) 0).lockOut k 0x0F
  let s2 := s1.setCellX k { s1.cell k with block := true, seq := .none, bypDue := none, share := .zero }
  if s.cluRunning (ringOf k) then s2.laneHalt (ringOf k) else s2

/-- R98: an entry goes ABSENT; its trip total, its sticky faults and its fault times survive. -/
def State.absentCell (s : State) (k : Nat) : State :=
  if s.cellState k = cABSENT then s
  else
    let s1 := s.setCell k cABSENT 0x18
    let s2 := (((s1.put (F.CELL_STATE_PHYS_VALID k) 0).put (F.CELL_STATE_SEQ_BUSY k) 0).put
      (F.CELL_STATE_NO_BYPASS k) 0).put (F.CELL_STATE_DISP_PEND k) 0
    let s3 := (s2.put (F.CELL_DIAG_VALID k) 0).put (F.CELL_STALE_RUN k) 0
    (s3.setCellX k { faults := (s.cell k).faults }).wearGone k

/-- R98: every entry of a ring goes ABSENT. -/
def State.absentRing (s : State) (r : Nat) : State := (cellsOf r).foldl State.absentCell s

/-- R89, R96: a discovered node enters LINKED, when its index is in the cell map. -/
def State.linkCell (s : State) (k : Nat) (d : DiscRec) : State :=
  if !s.inMap k then s
  else
    let s1 := (s.put64 (R.CELL_NODE_ID_LO k) (R.CELL_NODE_ID_HI k) d.nodeId).put (F.CELL_INFO_NODE_TYPE k) d.nodeType
    let s2 := (s1.put (F.CELL_INFO_VERS k) d.vers).put (F.CELL_STALE_TOTAL k) 0
    let s3 := s2.setCellX k { faults := (s2.cell k).faults }
    if s.cellState k = cABSENT then s3.setCell k cLINKED 0x01 else s3

/-! ### Admission (R96, R97, R118, R184) -/

/-- R118, R184: the node parameters written while NEGOTIATED: address and value bytes. -/
def State.nodeParams (s : State) (k : Nat) : List (List Byte) :=
  let c := ringOf k
  let ty := s.get (F.CELL_CFG_TYPE k)
  let voc := s.get (F.MPPT_TYPE_RATE_VOC_NOM ty)
  let vref := s.get (F.GRID_CLU_VDC_VDC_REF c)
  let p (a n v : Nat) : List Byte := leBytes 2 a ++ leBytes n v
  [ p 0x0100 4 (s.get (F.PWM_CLU_CFG_CAR_P c)), p 0x0104 4 (s.get (F.PWM_CELL_OFF_OFF k)),
    p 0x0108 8 (s.get64 (R.PWM_CLU_ANCHOR_LO c) (R.PWM_CLU_ANCHOR_HI c)),
    p 0x0110 2 (s.get (F.PWM_TYPE_TIME_T_DT ty)), p 0x0112 2 (s.get (F.PWM_TYPE_TIME_T_MIN ty)),
    p 0x0200 2 0xFFFF, p 0x0202 2 (vref * 2 * (200 + s.get F.MPPT_LIMITS_CLAMP_PCT) / 200),
    p 0x0204 2 (s.get F.MPPT_LIMITS_VMIN_FRAC * voc * 2 / 256), p 0x0206 2 (voc * 2 * 110 / 100) ]

/-- R118, R184: ask for every parameter write of a NEGOTIATED cell. -/
def State.askParams (s : State) (k : Nat) : State :=
  let l := s.nodeParams k
  let s1 := s.setCellX k { s.cell k with paramAsked := true, paramPend := l.length }
  l.foldl (fun s d => s.mbxPost (ringOf k)
    { owner := 1, dst := posOf k, op := 2, data := d, purpose := .param }) s1

/-- R96: the requests of condition 4. -/
def State.askIdent (s : State) (k : Nat) : State :=
  let x := s.cell k
  let ask (s : State) (no : Bool) (op : Nat) (d : List Byte) (u : MbxUse) : State :=
    if no then s.mbxPost (ringOf k) { owner := 1, dst := posOf k, op := op, data := d, purpose := u } else s
  ask (ask (ask s (!x.ident0) 7 [0] (.ident 0)) (!x.ident1) 7 [1] (.ident 1)) x.disp.isNone 1 (leBytes 2 0x0010) .dispRead

/-- R96: an entry that stays LINKED takes the reason of the first condition that fails. -/
def State.stayLinked (s : State) (k reason : Nat) (sticky : Option Fld) (ev : Option Nat) : State :=
  if s.get (F.CELL_STATE_REASON k) = reason then s
  else
    let s1 := s.put (F.CELL_STATE_REASON k) reason
    let s2 := match sticky with
      | some f => s1.put f 1
      | none => s1
    match ev with
    | some e => s2.event e k []
    | none => s2

/-- R96: the reason of the first condition that fails, with the sticky bit and event that go with it; none when all
hold. -/
def State.admitFail (s : State) (k : Nat) : Option (Nat × Option Fld × Option Nat) :=
  let r := ringOf k
  let x := s.cell k
  let want := s.get64 (R.CELL_MAP_ID_LO k) (R.CELL_MAP_ID_HI k)
  let is := s.get64 (R.CELL_NODE_ID_LO k) (R.CELL_NODE_ID_HI k)
  if !s.ringUpOrBroken r || !bit (s.get (F.CELL_INFO_VERS k)) (s.get (F.RING_STATUS_VER r) - 1) then some (0x04, none, none)
  else if want ≠ 0 ∧ want ≠ is then some (0x02, some (F.CELL_FAULTS_ID k), some Ev.CELL_ID_MISMATCH)
  else if s.get (F.CELL_INFO_NODE_TYPE k) ≠ s.get (F.PWM_TYPE_TIME_NODE_TYPE (s.get (F.CELL_CFG_TYPE k))) then
    some (0x03, some (F.CELL_FAULTS_ID k), some Ev.CELL_TYPE_MISMATCH)
  else if !x.ident0 || !x.ident1 || x.disp.isNone then some (0x19, none, none)
  else if !s.ringV1 r && x.alignRun < 16 then some (0x05, some (F.CELL_FAULTS_ALIGN k), none)
  else none

/-- R96, R97, R299, R307: a LINKED entry is checked for admission. -/
def State.admitCell (s : State) (k : Nat) : State :=
  if s.cellState k ≠ cLINKED ∨ !(s.ring (ringOf k)).mapOk then s
  else match s.admitFail k with
    | some (reason, f, e) =>
      let s1 := s.stayLinked k reason f e
      if reason = 0x19 then s1.askIdent k else s1
    | none =>
      let s0 := if s.marked k then s.unmark k else s
      let s1 := ((s0.setCell k cNEGOTIATED 0x1A).put (F.CELL_DIAG_VALID k) 0).wearAdmit k (s.ringV1 (ringOf k))
      let s1 := s1.setCellX k { s1.cell k with tripBase := none }
      let close (s : State) (dest : Nat) : State :=
        let s' := s.setCell k dest 0x16
        s'.setCellX k { s'.cell k with byp := bypClose, closed := true, mode := mSTOP }
      match (s.cell k).disp with
      | some 1 => close s1 cRETIRED
      | some 2 => close s1 cLOCKED_OUT
      | _ => if s1.holdsParams (ringOf k) then s1 else s1.askParams k

/-! ### Diagnosis (R99–R101) -/

/-- R100: a diagnosis starts: MODE = DIAG, bypass open, and the DIAG request. -/
def State.startDiag (s : State) (k : Nat) (byCmd : Bool) : State :=
  let s1 := s.put (F.CELL_STATE_SEQ_BUSY k) 1
  (s1.setCellX k { s1.cell k with
      mode := mDIAG, byp := bypOpen, closed := false, seq := .diagAsk byCmd, diagRetry := none, lowAt := none }).mbxPost
    (ringOf k) { owner := 1, dst := posOf k, op := 6, data := [1], purpose := .diag }

/-- R99: a NEGOTIATED cell is diagnosed when its cluster has no ACTIVE cell, its parameters stand and VDC ≥ 100 V;
below that it waits with reason LOW_VDC, and is checked again 1 s later. -/
def State.tryDiag (s : State) (k : Nat) : State :=
  let x := s.cell k
  if s.cellState k ≠ cNEGOTIATED ∨ x.seq ≠ .none ∨ x.diagRetry.isSome ∨ x.lowAt.isSome ∨ !x.paramAsked ∨ x.paramPend ≠ 0 ∨
      (x.disp.getD 0) ≠ 0 ∨ s.cluActive (ringOf k) then s
  else if s.vdc k < 2000 then
    (s.put (F.CELL_STATE_REASON k) 0x06).setCellX k { x with lowAt := some (s.now + uS) }
  else s.startDiag k false

/-- R100: the node answered the DIAG request OK: DIAGNOSING, with 200 ms for the result. -/
def State.diagAccepted (s : State) (k : Nat) : State :=
  match (s.cell k).seq with
  | .diagAsk byCmd =>
    let s1 := s.setCell k cDIAGNOSING (if byCmd then 0x13 else 0x1B)
    s1.setCellX k { s1.cell k with diagDue := some (s1.now + 200 * uMs) }
  | _ => s

/-- R101: a diagnosis fails, with the reason; the second in a row faults the cell. -/
def State.diagFailed (s : State) (k reason byte : Nat) : State :=
  let x := s.cell k
  let s1 := (s.count (F.CELL_DIAG_ATTEMPTS k) 1).event Ev.CELL_DIAG_FAIL k [.w byte]
  let s2 := (s1.put (F.CELL_FAULTS_DIAG k) 1).put (F.CELL_STATE_SEQ_BUSY k) 0
  if x.diagFail = 0 then
    let s3 := if s.cellState k = cNEGOTIATED then s2 else s2.setCell k cNEGOTIATED reason
    s3.setCellX k { s3.cell k with
      mode := mSTOP, byp := 0, seq := .none, diagDue := none, diagFail := 1, diagRetry := some (s3.now + uS) }
  else
    let s3 := s2.setCellX k { s2.cell k with diagFail := 0, diagDue := none }
    s3.faultCell k reason

/-- R101: the reason of a result byte that is not OK: the lower-numbered failing half-bridge decides. -/
def diagReason (byte : Nat) : Nat := 0x06 + (if byte % 4 ≠ 0 then byte % 4 else byte / 4 % 4)

/-- R101: the result of a diagnosis, as the slot reports it. -/
def State.diagResult (s : State) (k : Nat) : State :=
  let byte := (s.cell k).diag
  let s1 := ((s.put (F.CELL_DIAG_HB0 k) (byte % 4)).put (F.CELL_DIAG_HB1 k) (byte / 4 % 4)).put (F.CELL_DIAG_DONE k) 1
  if byte % 16 = 0 then
    let s2 := ((s1.count (F.CELL_DIAG_ATTEMPTS k) 1).put (F.CELL_DIAG_VALID k) 1).put (F.CELL_STATE_SEQ_BUSY k) 0
    let s3 := (s2.put (F.CELL_DIAG_AGE k) 0).setCell k cREADY 0x17
    s3.setCellX k { s3.cell k with
      mode := mSTOP, byp := 0, seq := .none, diagDue := none, diagFail := 0, diagOkAt := some s3.now }
  else s1.diagFailed k (diagReason byte) byte

/-! ### Bypass and return (R111–R114) -/

/-- R112: a planned bypass starts, to BYPASSED or RETIRED; a READY cell has no ramp. -/
def State.startBypass (s : State) (k goal reason : Nat) : State :=
  let s1 := s.put (F.CELL_STATE_SEQ_BUSY k) 1
  let x := s1.cell k
  if s.cellState k = cACTIVE then
    if s.get F.CELL_CTRL_RAMP = 0 then s1.setCellX k { x with share := .zero, seq := .bypZero goal reason s1.now }
    else s1.setCellX k { x with share := .fall s1.now, seq := .bypRamp goal reason }
  else
    s1.setCellX k { x with share := .zero, seq := .bypClose goal reason, byp := bypClose, closed := true,
                           bypDue := some (s1.now + s1.get F.CELL_CTRL_BYP_TO * uMs) }

/-- R111: a planned bypass is tested for margin while the cluster runs; a refusal is logged with the margin it would
have left. -/
def State.bypassAllowed (s : State) (k : Nat) : Bool := !s.cluActive (ringOf k) || decide (0 ≤ s.marginIf k)

/-- R93: links of a ring that are down. -/
def State.downLinks (s : State) (r : Nat) : List Nat :=
  (List.range (s.nCells r + 1)).filter fun h => s.get (F.RING_HOP_STAT_UP r h) == 0

/-- R106: a position between two links that are down is reachable from neither port. -/
def State.unreachable (s : State) (k : Nat) : Bool :=
  let d := s.downLinks (ringOf k)
  d.any (fun h => h ≤ posOf k) && d.any (fun h => posOf k < h)

/-- R114, R307: the conditions of a return to service. -/
def State.returnOk (s : State) (k : Nat) : Bool :=
  let c := ringOf k
  let ph := s.phaseOf k
  let act := (s.phaseCells c ph).filter fun j => s.cellState j == cACTIVE
  let rdy := (s.phaseCells c ph).filter fun j => s.cellState j == cREADY
  let l := if act.isEmpty then rdy else act
  let v := s.vdc k
  let sum := (l.map s.vdc).foldl (· + ·) 0
  s.cellState k == cBYPASSED && !s.marked k && s.flag (F.CELL_DIAG_VALID k) && !s.statusBit k 12 && !s.unreachable k &&
    decide (16000 ≤ v) && decide (v ≤ 30000) &&
    (l.isEmpty || (decide (sum * 9 ≤ v * l.length * 10) && decide (v * l.length * 10 ≤ sum * 11)))

/-- R117, R114: one carrier period of a cluster, in units. -/
def State.carP (s : State) (c : Nat) : Nat := s.get (F.PWM_CLU_CFG_CAR_P c)

/-- R114: a return to service starts. -/
def State.startReturn (s : State) (k reason : Nat) : State :=
  let s1 := s.put (F.CELL_STATE_SEQ_BUSY k) 1
  let x := s1.cell k
  if s.cluRunning (ringOf k) then
    s1.setCellX k { x with mode := mRUN, share := .zero, seq := .retZero reason s1.now }
  else
    s1.setCellX k { x with mode := mSTOP, byp := bypOpen, closed := false, seq := .retOpen reason,
                           bypDue := some (s1.now + s1.get F.CELL_CTRL_BYP_TO * uMs) }

/-- R112, R114, R113: the slot confirms the physical state a sequence was moving the cell to. -/
def State.confirmSeq (s : State) (k ps : Nat) : State :=
  let x := s.cell k
  match x.seq with
  | .bypClose goal reason =>
    if ps = pBYPASSED then
      let s1 := (s.setCell k goal reason).endSeq k
      let s2 := (s1.put (F.CELL_STATE_NO_BYPASS k) 0).setCellX k { s1.cell k with mode := mSTOP, byp := 0 }
      if goal = cRETIRED then s2.askDisp k 1 else s2
    else s
  | .retOpen reason =>
    if ps = pSWITCHING ∧ x.mode = mRUN then
      let s1 := (s.setCell k cACTIVE reason).endSeq k
      s1.setCellX k { s1.cell k with byp := 0, share := .rise s1.now }
    else if ps = pSTOPPED ∧ x.mode = mSTOP then
      let s1 := (s.setCell k cREADY reason).endSeq k
      s1.setCellX k { s1.cell k with byp := 0 }
    else s
  | .fault =>
    if ps = pBYPASSED then
      (s.put (F.CELL_STATE_NO_BYPASS k) 0).setCellX k { x with seq := .none, bypDue := none, byp := 0 }
    else s
  | _ => s

/-! ### Following the data path (R103, R104) -/

/-- R95: PSTATE agrees with a state. -/
def agrees (st ps : Nat) : Bool :=
  match st with
  | 2 => ps == 0 || ps == 2 || ps == 5
  | 3 => ps == 4 || ps == 0
  | 4 => ps == 0 || ps == 3 || ps == 5
  | 5 => ps == 1
  | 6 => ps == 2
  | 7 => ps == 2
  | 8 => ps == 2
  | 9 => ps == 2
  | _ => true

/-- R103: a sequence of R100 or R112–R114 is moving the cell to a physical state. A fault bypass accounts for a cell that
still switches on its way to BYPASSED: DEDUCED, log entry 196. -/
def CellX.moves (x : CellX) (ps : Nat) : Bool :=
  match x.seq with
  | .bypClose .. => ps == pBYPASSED
  | .retOpen .. => ps == (if x.mode = mRUN then pSWITCHING else pSTOPPED)
  | .retZero .. => ps == pSWITCHING
  | .diagAsk _ => ps == pDIAG || ps == pSTOPPED
  | .fault => ps == pBYPASSED || ps == pSWITCHING
  | _ => false

/-- R216: the cluster is inside its start window. -/
def State.inStart (s : State) (c : Nat) : Bool :=
  match s.cells.winEnd.get c with
  | some e => decide (s.now < e)
  | none => false

/-- R104: what the slot shows is not accounted for. -/
def State.unaccounted (s : State) (k ps : Nat) : Bool :=
  let st := s.cellState k
  let c := ringOf k
  let live := (st == cACTIVE || st == cREADY) && ps != pSWITCHING && ps != pBYPASSED
  let out := (st == cRETIRED || st == cFAULTED || st == cLOCKED_OUT) && ps == pSWITCHING
  s.cluRunning c && (live || out) && !(s.cell k).moves ps && !s.inStart c && !s.flag (F.RING_HALT_STAT_HALT_ACTIVE c)

/-- R103, R106: the state and reason an entry takes when the slot disagrees; none where it stays. -/
def pathTo (st reason ps : Nat) : Option (Nat × Nat) :=
  if ps = pSWITCHING ∧ (st = cREADY ∨ (st = cBYPASSED ∧ reason ≠ 0x0D)) then some (cACTIVE, 0x10)
  else if ps = pBYPASSED ∧ (st = cACTIVE ∨ st = cREADY) then some (cBYPASSED, 0x10)
  else if ps = pHALTED ∧ st = cACTIVE then some (cREADY, 0x11)
  else if ps = pDISABLED ∧ st = cACTIVE then some (cREADY, 0x12)
  else if (ps = pSTOPPED ∨ ps = pDIAG) ∧ (st = cACTIVE ∨ (st = cBYPASSED ∧ reason ≠ 0x0D)) then some (cREADY, 0x10)
  else none

/-- R103, R116: the entry follows the data path; a sequence it interrupts is abandoned, and what the entry sends then
follows its new state. -/
def State.follow (s : State) (k ps : Nat) : State :=
  let st := s.cellState k
  let x := s.cell k
  let reason := s.get (F.CELL_STATE_REASON k)
  if ps = pDISABLED ∧ x.seq.planned ∧ (st = cREADY ∨ st = cACTIVE ∨ st = cBYPASSED) then
    let s1 := (s.setCell k cREADY 0x12).endSeq k
    s1.setCellX k { s1.cell k with mode := mSTOP, byp := 0, share := .zero }
  else if agrees st ps then
    if ps = pBYPASSED ∧ x.seq = .none ∧ x.byp ≠ 0 then s.setCellX k { x with byp := 0 } else s
  else if x.moves ps then s
  else match pathTo st reason ps with
    | some (dest, why) =>
      let s1 := ((s.setCell k dest why).eventIf (why == 0x10) Ev.CELL_PATH_FOLLOW k []).endSeq k
      s1.setCellX k { s1.cell k with
        mode := if dest = cACTIVE then mRUN else mSTOP, byp := if why = 0x11 then x.byp else 0,
        share := if dest = cACTIVE then .full else .zero }
    | none =>
      if (st = cBYPASSED ∧ reason = 0x0D) ∨ st = cRETIRED ∨ st = cFAULTED ∨ st = cLOCKED_OUT then
        s.setCellX k { x with mode := mSTOP, byp := bypClose, closed := true }
      else s

/-- R107, R113: a bypass fault shown by the slot. -/
def State.checkBypFault (s : State) (k : Nat) : State :=
  let st := s.cellState k
  if !s.statusBit k 13 then s
  else if (s.cell k).closed then (if (st = cLOCKED_OUT ∧ (s.cell k).block) ∨ st < cNEGOTIATED then s else s.bypFault k)
  else if cNEGOTIATED ≤ st ∧ st ≤ cBYPASSED then (s.put (F.CELL_FAULTS_BYP_FAULT k) 1).faultCell k 0x0F
  else s

/-- R118, R132: the start of the carrier period of a cell that contains an instant of module time. -/
def State.carStart (s : State) (k t : Nat) : Int :=
  let base := 8 * s.get64 (R.PWM_CLU_ANCHOR_LO (ringOf k)) (R.PWM_CLU_ANCHOR_HI (ringOf k)) + s.get (F.PWM_CELL_OFF_OFF k)
  (t : Int) - ((t : Int) - base) % max 1 (s.carP (ringOf k))

/-- R132: the trips within the last TRIP_W carrier periods of a cell, the one that contains T_k the last. -/
def State.tripWindow (s : State) (k : Nat) : State :=
  let x := s.cell k
  if x.tripWin.isEmpty then s
  else
    let w : Nat := s.get (F.PWM_TYPE_TRIP_TRIP_W (s.get (F.CELL_CFG_TYPE k)))
    let from_ := s.carStart k s.tK - ((w : Int) - 1) * s.carP (ringOf k)
    let l := x.tripWin.filter fun (t : Nat) => decide (from_ ≤ (t : Int))
    (s.setCellX k { x with tripWin := l }).putSat (F.PWM_CELL_TRIP_WIN k) l.length

/-- R106, R132: trips seen at an accepted slot: the total, its time, CELL_TRIP at most once a second, and the window
of the trip latch, in which they count at the slot's T_k. -/
def State.noteTrips (s : State) (k n : Nat) : State :=
  if n = 0 then s
  else
    let x := s.cell k
    let times := List.replicate n s.tK ++ x.tripWin
    let s1 := (s.count (F.CELL_TRIP_TOTAL_COUNT k) n).put64 (R.CELL_TRIP_TIME_LO k) (R.CELL_TRIP_TIME_HI k)
      (s.tFreeze / 8)
    let s2 := s1.put (F.CELL_DIAG_VALID k) 0
    let due := match x.tripLog with
      | some t => decide (t + uS ≤ s.now)
      | none => true
    if due then
      (s2.setCellX k { s2.cell k with tripWin := times, tripsNew := 0, tripLog := some s.now }).event Ev.CELL_TRIP k
        [.w (x.tripsNew + n)]
    else s2.setCellX k { s2.cell k with tripWin := times, tripsNew := x.tripsNew + n }

/-- R107: the overtemperature timers of a cell at an accepted slot: OVERTEMP counts while the cell is ACTIVE. -/
def CellX.heat (x : CellX) (active hot : Bool) (now : Nat) : CellX :=
  if hot then { x with hotSince := if active then some (x.hotSince.getD now) else none, coolSince := none }
  else
    let cool := x.coolSince.getD now
    { x with hotSince := none, coolSince := some cool, hotLogged := x.hotLogged && decide (now < cool + uS) }

/-- R116: a halt has come in: a planned bypass or a return of the cell is abandoned; a BYP command already sent stands. -/
def State.haltSeq (s : State) (k : Nat) : State :=
  let x := s.cell k
  let r := s.ring (ringOf k)
  if x.seq.planned && r.haltSeen != s.get (F.RING_HALT_STAT_HALT_SEQ (ringOf k)) then
    let s1 := s.endSeq k
    s1.setCellX k { s1.cell k with
      mode := if s.cellState k = cACTIVE then x.mode else mSTOP,
      share := if s.cellState k = cACTIVE then .full else .zero }
  else s

/-- R103–R107: the accepted slot of a cell acts at the input freeze. The answer says whether the lanes must raise the
halt request of R104. -/
def State.slotFreeze (s : State) (k : Nat) : Bool × State :=
  let ps := s.pstate k
  let bad := s.unaccounted k ps
  let s1 := (s.put (F.CELL_STATE_PHYS k) ps).put (F.CELL_STATE_PHYS_VALID k) 1
  let s2 := (((s1.confirmSeq k ps).haltSeq k).follow k ps).checkBypFault k
  let s3 := s2.setCellX k ((s2.cell k).heat (s2.cellState k == cACTIVE) (s2.statusBit k 12) s2.now)
  let s4 := if s3.cellState k = cDIAGNOSING ∧ bit (s3.cell k).diag 4 then s3.diagResult k else s3
  (bad, s4)

end Sys2Proof.Machine
end

