-- ==== Sys2Proof/Machine/CellCmd.lean ====
section
/-! DEFINITION. The commands that act on one cell entry: CELL_CMD, and the timers and conditions of R99–R114. -/

namespace Sys2Proof.Machine

/-! ### CELL_CMD (R105, R115) -/

/-- R115: the states in which a command is allowed. -/
def cmdAllowed (cmd st : Nat) : Bool :=
  match cmd with
  | 0 => true
  | 1 => st == cNEGOTIATED || st == cREADY
  | 2 => st == cACTIVE || st == cREADY
  | 3 => st == cBYPASSED
  | 4 => st == cREADY || st == cACTIVE || st == cBYPASSED || st == cFAULTED
  | 5 => st == cRETIRED
  | 6 => st == cFAULTED
  | 7 => st != cABSENT
  | 8 => st == cLOCKED_OUT
  | _ => true

/-- R115: the state of the module refuses a command with BUSY. -/
def State.cmdBusy (s : State) (k cmd : Nat) : Bool :=
  s.seqBusy k || (cmd == 1 && s.cluActive (ringOf k))

/-- R111: a command that starts a planned bypass or a retirement is tested for margin. -/
def State.cmdMargin (s : State) (k cmd : Nat) : Bool :=
  if cmd = 2 ∨ cmd = 4 then s.bypassAllowed k else true

/-- R115: the values and conditions that refuse a command with BAD_VALUE. -/
def State.cmdBad (s : State) (k cmd : Nat) : Bool :=
  decide (8 < cmd) || (cmd == 3 && !s.returnOk k) || (cmd == 8 && s.statusBit k 13) || !s.cmdMargin k cmd

/-- R105, R115: a command assumes another state than the entry's. -/
def State.cmdMismatch (s : State) (k cmd expect : Nat) : Bool :=
  expect != s.cellState k || !cmdAllowed cmd (s.cellState k)

/-- R14, R105, R115: the refusal of a command by the state of the module. -/
def State.cmdRefuse (s : State) (n k cmd expect : Nat) : Status :=
  let lvl : Status := if cmd = 5 then s.needLevel n 2 else .ok
  let rest : Status :=
    if 10 ≤ expect then .badValue
    else if s.cmdMismatch k cmd expect then .stateMismatch
    else if s.cmdBusy k cmd then .busy
    else if s.cmdBad k cmd then .badValue
    else .ok
  lvl.worst rest

/-- R115: CLEAR_FAULT: to NEGOTIATED, the trip window reset (R132). -/
def State.clearFault (s : State) (k : Nat) : State :=
  let s1 := (s.setCell k cNEGOTIATED 0x13).put (F.PWM_CELL_TRIP_WIN k) 0
  s1.setCellX k { s1.cell k with tripWin := [], diagFail := 0, diagRetry := none, seq := .none, bypDue := none }

/-- R115: RETIRE of a BYPASSED or FAULTED entry, whose bypass is already closed. -/
def State.retireNow (s : State) (k reason : Nat) : State :=
  let s1 := ((s.setCell k cRETIRED reason).askDisp k 1)
  s1.setCellX k { s1.cell k with mode := mSTOP, seq := .none, bypDue := none, share := .zero }

/-- R115: the effect of an accepted command. -/
def State.cmdEffect (s : State) (k cmd : Nat) : State :=
  match cmd with
  | 1 => s.startDiag k true
  | 2 => s.startBypass k cBYPASSED 0x13
  | 3 => s.startReturn k 0x13
  | 4 =>
    if s.cellState k = cBYPASSED ∨ s.cellState k = cFAULTED then s.retireNow k 0x13
    else s.startBypass k cRETIRED 0x13
  | 5 =>
    let s1 := (s.setCell k cNEGOTIATED 0x13).askDisp k 0
    let s2 := s1.setCellX k { s1.cell k with disp := some 0 }
    let s3 := if (s.cell k).paramAsked || s.holdsParams (ringOf k) then s2 else s2.askParams k
    s3.setWcell k { s3.wcell k with unret := true }
  | 6 => s.clearFault k
  | 7 => (s.faultBypass k).lockOut k 0x13
  | 8 =>
    let s1 := (s.setCell k cLINKED 0x13).askDisp k 0
    s1.setCellX k { s1.cell k with block := false, ident0 := false, ident1 := false, disp := none,
                                   paramAsked := false, seq := .none, bypDue := none, tripBase := none }
  | _ => s

/-- R105, R111, R115: a write of CELL_CMD as it is executed at an input freeze. A STATE_MISMATCH and a refused margin are
logged. -/
def State.cellCmd (s : State) (n k : Nat) (value mask : Word) : Status × State :=
  let new := masked (s.word (R.CELL_CMD k)) value mask
  let cmd := fieldOf new 0 4
  let expect := fieldOf new 8 4
  let base := (s.judgeWord n (R.CELL_CMD k) value mask)
  let st := base.worst (s.cmdRefuse n k cmd expect)
  match st with
  | .ok => (.ok, (s.setWord (R.CELL_CMD k) (BitVec.ofNat 32 (cmd + expect * 256))).cmdEffect k cmd)
  | .stateMismatch =>
    (st, s.event Ev.CELL_STATE_MISMATCH k [.w n, .w expect, .w (s.cellState k)])
  | .badValue => (st, s.eventIf (!s.cmdMargin k cmd && decide (expect < 10)) Ev.CELL_BYPASS_REFUSED k
      [.w (s.marginIf k)])
  | e => (e, s)

/-- The word of a CELL_CMD write. -/
def cellCmdWord (cmd expect : Nat) : Word := BitVec.ofNat 32 (cmd + expect % 16 * 256)

/-- R102, R105: the present instant is that of an input freeze that has been taken. -/
def State.atFreeze (s : State) : Bool := s.link.frozen && s.link.frozenAt == some s.now

/-- R102, R105: something waits for the next input freeze, once. -/
def State.ask (s : State) (a : CellAsk) : State :=
  if s.cells.asks.contains a then s else s.setCells fun x => { x with asks := x.asks ++ [a] }

/-- R105: a write of CELL_CMD is executed at an input freeze; before it, it waits. -/
def State.cellCmdNow (s : State) (n k : Nat) (value mask : Word) : Status × State :=
  if s.atFreeze then s.cellCmd n k value mask else (.waits, s)

/-- A CELL_CMD write of a session, given by its command and EXPECT. -/
def State.cellCmdBy (s : State) (n k cmd expect : Nat) : State :=
  s.access n domVOTE fun s =>
    let w := cellCmdWord cmd expect
    if s.atFreeze then s.cellCmd n k w (BitVec.allOnes 32)
    else (.waits, s.ask (.access n (0x200004 + 256 * k) w (BitVec.allOnes 32) default))

/-- CELL_CMD_NONE (R115): no effect beyond the EXPECT check. -/
def execCellCmdNone (t : Nat) (n : SessIx) (k : CellIx) (expect : Nat) (s : State) : Host.Outcome State Fault Refusal :=
  atTime t s fun s => s.cellCmdBy n k 0 expect

/-- CELL_DIAGNOSE (R115). -/
def execCellDiagnose (t : Nat) (n : SessIx) (k : CellIx) (expect : Nat) (s : State) : Host.Outcome State Fault Refusal :=
  atTime t s fun s => s.cellCmdBy n k 1 expect

/-- CELL_BYPASS (R115). -/
def execCellBypass (t : Nat) (n : SessIx) (k : CellIx) (expect : Nat) (s : State) : Host.Outcome State Fault Refusal :=
  atTime t s fun s => s.cellCmdBy n k 2 expect

/-- CELL_RETURN (R114). -/
def execCellReturn (t : Nat) (n : SessIx) (k : CellIx) (expect : Nat) (s : State) : Host.Outcome State Fault Refusal :=
  atTime t s fun s => s.cellCmdBy n k 3 expect

/-- CELL_RETIRE (R115). -/
def execCellRetire (t : Nat) (n : SessIx) (k : CellIx) (expect : Nat) (s : State) : Host.Outcome State Fault Refusal :=
  atTime t s fun s => s.cellCmdBy n k 4 expect

/-- CELL_UNRETIRE (R115). -/
def execCellUnretire (t : Nat) (n : SessIx) (k : CellIx) (expect : Nat) (s : State) : Host.Outcome State Fault Refusal :=
  atTime t s fun s => s.cellCmdBy n k 5 expect

/-- CELL_CLEAR_FAULT (R115). -/
def execCellClearFault (t : Nat) (n : SessIx) (k : CellIx) (expect : Nat) (s : State) :
    Host.Outcome State Fault Refusal :=
  atTime t s fun s => s.cellCmdBy n k 6 expect

/-- CELL_LOCKOUT (R115). -/
def execCellLockout (t : Nat) (n : SessIx) (k : CellIx) (expect : Nat) (s : State) : Host.Outcome State Fault Refusal :=
  atTime t s fun s => s.cellCmdBy n k 7 expect

/-- CELL_RELEASE (R115). -/
def execCellRelease (t : Nat) (n : SessIx) (k : CellIx) (expect : Nat) (s : State) : Host.Outcome State Fault Refusal :=
  atTime t s fun s => s.cellCmdBy n k 8 expect

/-! ### Timers and conditions: what each does at an input freeze (R102) -/

/-- A deadline that stands and has come. -/
def State.due (s : State) (d : Option Nat) : Bool :=
  match d with
  | some t => decide (t ≤ s.now)
  | none => false

/-- R100: DIAG_DONE has not appeared in time. -/
def State.diagTimeout (s : State) (k : Nat) : State :=
  if s.cellState k = cDIAGNOSING ∧ s.due (s.cell k).diagDue then s.diagFailed k 0x0A (s.cell k).diag else s

/-- R100, R101: the DIAG request has ended without an OK reply. -/
def State.diagUnanswered (s : State) (k : Nat) : State :=
  match (s.cell k).seq with
  | .diagAsk _ => s.diagFailed k 0x0A (s.cell k).diag
  | _ => s

/-- R99, R101: one second after a first failure the diagnosis is repeated under R99. -/
def State.diagAgain (s : State) (k : Nat) : State :=
  if s.cellState k = cNEGOTIATED ∧ s.due (s.cell k).diagRetry then
    (s.setCellX k { s.cell k with diagRetry := none }).tryDiag k
  else s

/-- R99: the check every 1 s while VDC is low. -/
def State.lowVdcAgain (s : State) (k : Nat) : State :=
  if s.cellState k = cNEGOTIATED ∧ s.due (s.cell k).lowAt then
    (s.setCellX k { s.cell k with lowAt := none }).tryDiag k
  else s

/-- R106: a stale cell between two links that are down. -/
def State.lostCell (s : State) (k : Nat) : State :=
  let st := s.cellState k
  if s.get F.CELL_CTRL_STALE_LIM ≤ s.get (F.CELL_STALE_RUN k) ∧ s.unreachable k ∧ (st = cACTIVE ∨ st = cREADY) then
    let s1 := (((s.setCell k cBYPASSED 0x0D).endSeq k).put (F.CELL_FAULTS_UNREACHABLE k) 1).event
      Ev.CELL_UNREACHABLE k []
    s1.setCellX k { s1.cell k with share := .zero, mode := mSTOP, byp := bypClose, closed := true }
  else s

/-- R106: a stale cell that is reachable. -/
def State.staleCell (s : State) (k : Nat) : State :=
  let st := s.cellState k
  if s.get F.CELL_CTRL_STALE_FAULT ≤ s.get (F.CELL_STALE_RUN k) ∧ !s.unreachable k ∧
      cNEGOTIATED ≤ st ∧ st ≤ cBYPASSED then
    ((s.put (F.CELL_FAULTS_TELEMETRY k) 1).event Ev.CELL_STALE_FAULT k []).faultCell k 0x0C
  else s

/-- R132: TRIP_N trips within TRIP_W carrier periods. -/
def State.latchCell (s : State) (k : Nat) : State :=
  let st := s.cellState k
  if s.get (F.PWM_TYPE_TRIP_TRIP_N (s.get (F.CELL_CFG_TYPE k))) ≤ s.get (F.PWM_CELL_TRIP_WIN k) ∧
      0 < s.get (F.PWM_CELL_TRIP_WIN k) ∧ cNEGOTIATED ≤ st ∧ st ≤ cBYPASSED then
    ((s.put (F.CELL_FAULTS_TRIP_LATCH k) 1).event Ev.PWM_TRIP_LATCH k [.w k]).faultCell k 0x0B
  else s

/-- R107, R111: OVERTEMP held for 1 s in an ACTIVE cell. -/
def State.hotCell (s : State) (k : Nat) : State :=
  let x := s.cell k
  if s.cellState k = cACTIVE ∧ !s.seqBusy k ∧ s.due (x.hotSince.map (· + uS)) then
    if s.bypassAllowed k then (s.put (F.CELL_FAULTS_OVERTEMP k) 1).startBypass k cBYPASSED 0x0E
    else (s.setCellX k { x with hotLogged := true }).eventIf (!x.hotLogged) Ev.CELL_BYPASS_REFUSED k
      [.w (s.marginIf k)]
  else s

/-- R107, R114: OVERTEMP clear for 60 s. -/
def State.coolCell (s : State) (k : Nat) : State :=
  if s.get F.CELL_CTRL_AUTO_RET = 1 ∧ s.get (F.CELL_STATE_REASON k) = 0x0E ∧ !s.seqBusy k ∧
      s.due ((s.cell k).coolSince.map (· + 60 * uS)) ∧ s.returnOk k then s.startReturn k 0x1C
  else s

/-- R108: the third entry into FAULTED within 24 h. -/
def State.repeatFault (s : State) (k : Nat) : State :=
  if s.cellState k = cFAULTED ∧ 3 ≤ s.get (F.CELL_FAULTS_FAULT24 k) then
    (s.lockOut k 0x15).event Ev.CELL_REPEAT_FAULT k []
  else s

/-- R112: the share has reached 0: zero-state compares from now on. -/
def State.rampEnd (s : State) (k : Nat) : State :=
  let x := s.cell k
  match x.seq, x.share with
  | .bypRamp goal reason, .fall f =>
    if f + s.get F.CELL_CTRL_RAMP * uMs ≤ s.now then
      s.setCellX k { x with share := .zero, seq := .bypZero goal reason s.now }
    else s
  | _, _ => s

/-- R112: the zero state computed at an instant has been in force for one carrier period: D cycles more. -/
def State.zeroLong (s : State) (k f : Nat) : Bool :=
  decide (f + s.link.d * s.periodU + s.carP (ringOf k) ≤ s.now)

/-- R112: BYP = 0x3C is sent. -/
def State.zeroDone (s : State) (k : Nat) : State :=
  let x := s.cell k
  match x.seq with
  | .bypZero goal reason f =>
    if s.zeroLong k f then
      s.setCellX k { x with seq := .bypClose goal reason, byp := bypClose, closed := true,
                            bypDue := some (s.now + s.get F.CELL_CTRL_BYP_TO * uMs) }
    else s
  | _ => s

/-- R112: the planned bypass has not been confirmed within BYP_TO. -/
def State.bypassTimeout (s : State) (k : Nat) : State :=
  let x := s.cell k
  match x.seq with
  | .bypClose _ _ =>
    if s.due x.bypDue then
      let s1 := ((s.endSeq k).put (F.CELL_STATE_NO_BYPASS k) 1).event Ev.CELL_BYPASS_TIMEOUT k []
      s1.setCellX k { s1.cell k with
        byp := 0, share := if s.cellState k = cACTIVE then .rise s1.now else .zero }
    else s
  | _ => s

/-- R113: a fault bypass has not been confirmed within BYP_TO. -/
def State.faultTimeout (s : State) (k : Nat) : State :=
  if (s.cell k).seq = .fault ∧ s.due (s.cell k).bypDue then s.bypFault k else s

/-- R114: after one carrier period in zero state the bypass is commanded open. -/
def State.returnOpen (s : State) (k : Nat) : State :=
  let x := s.cell k
  match x.seq with
  | .retZero reason f =>
    if s.zeroLong k f then
      s.setCellX k { x with seq := .retOpen reason, byp := bypOpen, closed := false,
                            bypDue := some (s.now + s.get F.CELL_CTRL_BYP_TO * uMs) }
    else s
  | _ => s

/-- R114: the bypass has not opened within BYP_TO. -/
def State.returnTimeout (s : State) (k : Nat) : State :=
  let x := s.cell k
  match x.seq with
  | .retOpen _ =>
    if s.due x.bypDue then
      let s1 := (s.endSeq k).event Ev.CELL_BYPASS_TIMEOUT k []
      s1.setCellX k { s1.cell k with mode := mSTOP, byp := 0 }
    else s
  | _ => s

/-- R102: a happening of a cell takes effect. -/
def State.happen (s : State) (k : Nat) (e : CellEv) : State :=
  match e with
  | .diagTimeout => s.diagTimeout k
  | .diagUnanswered => s.diagUnanswered k
  | .diagRetry => s.diagAgain k
  | .lowVdc => s.lowVdcAgain k
  | .unreachable => s.lostCell k
  | .staleFault => s.staleCell k
  | .tripLatch => s.latchCell k
  | .overtemp => s.hotCell k
  | .autoReturn => s.coolCell k
  | .repeatFault => s.repeatFault k
  | .rampEnd => s.rampEnd k
  | .bypassTimeout => s.bypassTimeout k
  | .faultTimeout => s.faultTimeout k
  | .returnOpen => s.returnOpen k
  | .returnTimeout => s.returnTimeout k
  | .absent => s.absentCell k
  | .absentRing => s.absentRing (ringOf k)
  | .link d => s.linkCell k d

/-- R102: a happening of a cell takes effect at an input freeze: at once where the present instant is one, else at the
next. -/
def State.cellEvent (s : State) (e : CellEv) (k : Nat) : State :=
  if s.atFreeze then s.happen k e else s.ask (.happen e k)

/-! ### The commands of these happenings -/

/-- CELL_DIAG_TIMEOUT (R100). -/
def execCellDiagTimeout (t : Nat) (k : CellIx) (s : State) : Host.Outcome State Fault Refusal :=
  atTime t s fun s => s.inDom domVOTE fun s => s.cellEvent .diagTimeout k

/-- CELL_DIAG_RETRY (R101). -/
def execCellDiagRetry (t : Nat) (k : CellIx) (s : State) : Host.Outcome State Fault Refusal :=
  atTime t s fun s => s.inDom domVOTE fun s => s.cellEvent .diagRetry k

/-- CELL_LOW_VDC_RECHECK (R99). -/
def execCellLowVdcRecheck (t : Nat) (k : CellIx) (s : State) : Host.Outcome State Fault Refusal :=
  atTime t s fun s => s.inDom domVOTE fun s => s.cellEvent .lowVdc k

/-- CELL_UNREACHABLE (R106). -/
def execCellUnreachable (t : Nat) (k : CellIx) (s : State) : Host.Outcome State Fault Refusal :=
  atTime t s fun s => s.inDom domVOTE fun s => s.cellEvent .unreachable k

/-- CELL_STALE_FAULT (R106). -/
def execCellStaleFault (t : Nat) (k : CellIx) (s : State) : Host.Outcome State Fault Refusal :=
  atTime t s fun s => s.inDom domVOTE fun s => s.cellEvent .staleFault k

/-- PWM_TRIP_LATCH (R132). -/
def execPwmTripLatch (t : Nat) (k : CellIx) (s : State) : Host.Outcome State Fault Refusal :=
  atTime t s fun s => s.inDom domVOTE fun s => s.cellEvent .tripLatch k

/-- CELL_OVERTEMP_BYPASS (R107, R111). -/
def execCellOvertempBypass (t : Nat) (k : CellIx) (s : State) : Host.Outcome State Fault Refusal :=
  atTime t s fun s => s.inDom domVOTE fun s => s.cellEvent .overtemp k

/-- CELL_AUTO_RETURN (R107, R114). -/
def execCellAutoReturn (t : Nat) (k : CellIx) (s : State) : Host.Outcome State Fault Refusal :=
  atTime t s fun s => s.inDom domVOTE fun s => s.cellEvent .autoReturn k

/-- CELL_REPEAT_FAULT (R108). -/
def execCellRepeatFault (t : Nat) (k : CellIx) (s : State) : Host.Outcome State Fault Refusal :=
  atTime t s fun s => s.inDom domVOTE fun s => s.cellEvent .repeatFault k

/-- CELL_RAMP_END (R112). -/
def execCellRampEnd (t : Nat) (k : CellIx) (s : State) : Host.Outcome State Fault Refusal :=
  atTime t s fun s => s.inDom domVOTE fun s => s.cellEvent .rampEnd k

/-- CELL_BYPASS_TIMEOUT (R112). -/
def execCellBypassTimeout (t : Nat) (k : CellIx) (s : State) : Host.Outcome State Fault Refusal :=
  atTime t s fun s => s.inDom domVOTE fun s => s.cellEvent .bypassTimeout k

/-- FAULT_BYPASS_TIMEOUT (R113). -/
def execFaultBypassTimeout (t : Nat) (k : CellIx) (s : State) : Host.Outcome State Fault Refusal :=
  atTime t s fun s => s.inDom domVOTE fun s => s.cellEvent .faultTimeout k

/-- CELL_RETURN_OPEN (R114). -/
def execCellReturnOpen (t : Nat) (k : CellIx) (s : State) : Host.Outcome State Fault Refusal :=
  atTime t s fun s => s.inDom domVOTE fun s => s.cellEvent .returnOpen k

/-- CELL_RETURN_TIMEOUT (R114). -/
def execCellReturnTimeout (t : Nat) (k : CellIx) (s : State) : Host.Outcome State Fault Refusal :=
  atTime t s fun s => s.inDom domVOTE fun s => s.cellEvent .returnTimeout k

/-- R469: a read of CELL_TLM0 snapshots the other telemetry words and CELL_TLM_CYCLE for the session. -/
def State.tlmRead (s : State) (n k : Nat) : State :=
  let x := s.sess n
  let regs := R.CELL_TLM_CYCLE k :: (List.range 7).map fun w => R.CELL_TLM k (w + 1)
  let kept := x.snaps.filter fun e => !regs.contains e.1
  s.setSess n { x with status := .ok, value := s.word (R.CELL_TLM k 0),
                       snaps := regs.map (fun r => (r, s.word r)) ++ kept }

/-- CELL_TLM_READ (R469). -/
def execCellTlmRead (t : Nat) (n : SessIx) (k : CellIx) (s : State) : Host.Outcome State Fault Refusal :=
  atTime t s fun s =>
    if !s.isOn domMGMT then s
    else if !s.isOn domVOTE then s.answer n .domainOff 0
    else s.tlmRead n k

end Sys2Proof.Machine
end

