-- ==== Sys2Proof/Machine/Ring.lean ====
section
/-! DEFINITION. The rings' own commands: frames and slots received, delay exchanges, discovery, breaks and healing
(R62–R94), and the cycle start (R22). -/

namespace Sys2Proof.Machine

/-- R22, R68, R69: an empty telemetry frame leaves both ports of a ring that carries frames. -/
def State.launchTlm (s : State) (r : Nat) : State :=
  if !s.ringRuns r || !s.works (domRING r) then s
  else
    let tK := s.cycleNow * s.periodU
    [0, 1].foldl (fun (s : State) p =>
      if s.mergeOk r (p == 1) then
        s.launchTx r p (s.ringV1 r) tK (.telemetry (tK / 8) (s.cycleNow % 2 ^ 32) (min 128 (s.nCells r)))
      else s) s

/-- R23: the cycles whose freeze is still to come: begun, not frozen, their freeze not past. -/
def LinkSt.awaited (l : LinkSt) (now freeze : Nat) : List CycleIn :=
  l.later.filter fun c => decide (now ≤ c.at_ + freeze)

/-- R21, R22: cycle k begins. A cycle before it whose freeze is still to come stays the present one (R23). -/
def State.cycleBegin (s : State) : State :=
  let l := s.link
  let c : CycleIn := { k := s.cycleNow, at_ := s.cycleNow * s.periodU, skip := s.clk.suspendAt.isSome }
  let later := l.awaited s.mtUnits (s.get F.RING_FREEZE_FREEZE * uClk)
  if l.begun && !l.frozen && decide (s.mtUnits ≤ s.tFreeze) then s.setLink fun _ => { l with later := later ++ [c] }
  else match later with
    | [] => s.setLink fun _ => { l with cycle := c.k, begun := true, frozen := false, skip := c.skip, tkOff := 0, later := [] }
    | n :: rest => if l.frozen then s.setLink fun _ => { l with later := later ++ [c] }
      else s.setLink fun _ => { l with cycle := n.k, frozen := false, skip := n.skip,
                                       tkOff := (n.at_ : Int) - (n.k * s.periodU : Nat), later := rest ++ [c] }

/-- R22: the number of the last cycle begun. -/
def LinkSt.lastBegun (l : LinkSt) : Nat := (l.later.getLast?.map (·.k)).getD l.cycle

/-- R22: at T_k every port launches an empty telemetry frame; in a suspension nothing is launched (R288). -/
def State.cycleStart (s : State) : State :=
  if s.cycleNow = s.link.lastBegun ∧ s.link.begun then s
  else
    let s1 := s.cycleBegin
    if s.clk.suspendAt.isSome then s1 else s1.forN 8 State.launchTlm


/-! ### Telemetry frames (R65–R73) -/

/-- R63: a frame as received: it begins with a start block and its length follows from its header. -/
def frameOf (b : List Byte) : Option (List Byte) :=
  if byteAt b 0 = 0x78 then some (b.take (8 * leAt b 6 2)) else none

/-- R65, R67: the header check of a frame, by its type; a type the spec gives no check passes. -/
def headOk (b : List Byte) : Bool := match byteAt b 1 with
  | 1 => leAt b 24 2 == hcrcOf b 23
  | 2 => leAt b 24 2 == hcrcOf b 23
  | 3 => leAt b 30 2 == hcrcOf b 29
  | 4 => leAt b 30 2 == hcrcOf b 29
  | _ => true

/-- R67: the direction and turn state agree with the port at which the frame arrives. -/
def portAgrees (b : List Byte) (portB : Bool) : Bool :=
  portB == ((byteAt b 2 / 16 % 2 == 0) != (byteAt b 2 / 32 % 2 == 1))

/-- R70, R71: the bytes of slot `p`, in the layout of R70; a v1 slot shows 0xFFFF in the fields it lacks. -/
def slotOf (v1 : Bool) (b : List Byte) (p : Nat) : List Byte :=
  if v1 then
    let x := bytesAt b (48 + 16 * p) 16
    let ff : List Byte := [0xFF, 0xFF]
    bytesAt x 0 8 ++ ff ++ ff ++ bytesAt x 8 4 ++ leBytes 2 (byteAt x 12) ++ [0xFF] ++ bytesAt x 13 1 ++
      ff ++ ff ++ ff ++ [0, 0, 0, 0] ++ bytesAt x 14 2
  else bytesAt b (64 + 32 * p) 32

/-- R73: a slot copy is accepted: WRITTEN, SCRC good, SEQ of the present cycle. -/
def slotOk (v1 : Bool) (b : List Byte) (p cycle : Nat) : Bool :=
  if v1 then
    let x := bytesAt b (48 + 16 * p) 16
    x.length == 16 && bit (leAt x 10 2) 15 && leAt x 14 2 == crc16 (bytesAt x 0 14) && byteAt x 12 == cycle % 256
  else
    let x := bytesAt b (64 + 32 * p) 32
    x.length == 32 && bit (leAt x 14 2) 15 && leAt x 30 2 == crc16 (bytesAt x 0 30) && leAt x 16 2 == cycle % 65536

/-- R70: the instant at which slot `p` of a frame that begins at `t` has arrived. -/
def slotAt (v1 : Bool) (t p : Nat) : Nat :=
  t + ser640 v1 (if v1 then 64 + 16 * p else 96 + 32 * p) / 80

/-- R23: the cycle of a received frame, by its CYCLE, while its freeze is still to come; a cycle already frozen, or
skipped (R288), takes no slot. -/
def State.rxCycle (s : State) (cycle : Nat) : Option CycleIn :=
  let l := s.link
  let all := (if l.begun && !l.frozen then [{ k := l.cycle, at_ := s.tK, skip := l.skip : CycleIn }] else []) ++ l.later
  all.find? fun c => c.k % 2 ^ 32 == cycle

/-- R73, R23: one slot of a frame: late ones are discarded and counted, a second copy that differs is counted. -/
def State.slotRx (s : State) (r : Nat) (portB : Bool) (b : List Byte) (p : Nat) : State :=
  let v1 := s.ringV1 r
  let k := leAt b 16 4
  if !slotOk v1 b p k then s
  else match s.rxCycle k with
    | none => s.count (F.RING_CNT_LATE_COUNT r) 1
    | some c =>
      let at_ := slotAt v1 s.now p
      if c.skip then s
      else if c.at_ + s.get F.RING_FREEZE_FREEZE * uClk < s.mtUnits + (at_ - s.now) then s.count (F.RING_CNT_LATE_COUNT r) 1
      else
        let x := s.ring r
        let had := x.copies.get p
        let one : SlotCopy := { cycle := c.k, at_ := at_, portB := portB, bytes := slotOf v1 b p }
        let s1 := s.setRing r { x with copies := x.copies.set p (had ++ [one]) }
        if had.any fun o => o.cycle == c.k && o.bytes != one.bytes then s1.count (F.RING_CNT_MISMATCH_COUNT r) 1 else s1

/-- R68, R82: the reply area; a reply whose check is good is held for the freeze. One reply is held per ring, the later
one: DESIGN CHOICE, log entry 192. -/
def State.replyRx (s : State) (r : Nat) (b : List Byte) : State :=
  let n := if s.ringV1 r then 46 else 62
  if leAt b n 2 = crc16 (bytesAt b 32 (n - 32)) ∧ leAt b 32 2 ≠ 0xFFFF then
    let st := byteAt b 35
    s.setRing r { s.ring r with rep := some {
      src := leAt b 32 2, seq := byteAt b 34, status := st / 64, data := bytesAt b 36 (min (st % 64) (n - 36)) } }
  else s

/-- R63, R65–R67, R73: a frame at port A or B of a running ring; what is no telemetry frame only shows that frames
return (R93). -/
def State.telemetryRx (s : State) (r : Nat) (portB aborted : Bool) (bytes : List Byte) : State :=
  if !s.ringRuns r then s
  else match frameOf bytes with
    | none => s
    | some b =>
      if aborted then s.count (F.RING_CNT_ABORT_COUNT r) 1
      else if !headOk b ∨ !portAgrees b portB then
        s.count (if portB then F.RING_CNT_CRC_B_COUNT r else F.RING_CNT_CRC_A_COUNT r) 1
      else
        let s1 := s.setRing r { s.ring r with frameAt := some s.now }
        if byteAt b 1 ≠ 1 then s1
        else
          let s2 := s1.setRing r { s1.ring r with tlm := b }
          s2.replyRx r b |>.forN (min (leAt b 4 2) 128) fun s p => s.slotRx r portB b p

/-- TELEMETRY_FRAME_RX (R73): the frame begins to arrive at the command's instant. -/
def execTelemetryFrameRx (t : Nat) (r : RingIx) (portB aborted : Bool) (bytes : List Byte) (s : State) :
    Host.Outcome State Fault Refusal :=
  atTime t s fun s => s.inDom (domRING r) fun s =>
    if s.clk.suspendAt.isSome then s else s.telemetryRx r portB aborted bytes

/-! ### Halt repeats (R78, R79) -/

/-- HALT_REPEAT (R78): the repeats at 1 µs; after the third, HALT_ACTIVE and the new HALT_SEQ stand in every schedule
header, HALT_ACTIVE unless R79 has already ended it. -/
def execHaltRepeat (t : Nat) (r : RingIx) (s : State) : Host.Outcome State Fault Refusal :=
  atTime t s fun s => s.inDom (domRING r) fun s =>
    let x := s.ring r
    match x.haltNext with
    | none => s
    | some (at_, left) =>
      if s.now < at_ then s
      else
        let s1 := s.haltTx r
        if 1 < left then s1.setRing r { s1.ring r with haltNext := some (at_ + uUs, left - 1) }
        else ((s1.setRing r { s1.ring r with haltNext := none, hdrSeq := s.get (F.RING_HALT_STAT_HALT_SEQ r) }).put
          (F.RING_HALT_STAT_HALT_ACTIVE r) 1).haltSettle r

/-! ### Delay exchanges and alignment (R83–R87) -/

/-- DLY_REQ_RX (R83): a request at a module port is answered with the turnaround, in 125 ps units. -/
def execDlyReqRx (t : Nat) (r : RingIx) (portB : Bool) (turn : Nat) (s : State) : Host.Outcome State Fault Refusal :=
  atTime t s fun s => s.inDom (domRING r) fun s =>
    let x := s.ring r
    s.setRing r { x with rsp := x.rsp.set (b2n portB) (some (s.now, turn)) }

/-- DLY_REQ_SEND (R83): each port end sends a request every 10 µs. -/
def execDlyReqSend (t : Nat) (r : RingIx) (portB : Bool) (s : State) : Host.Outcome State Fault Refusal :=
  atTime t s fun s => s.inDom (domRING r) fun s =>
    let x := s.ring r
    let due := match x.reqAt.get (b2n portB) with
      | some a => decide (a + 10 * uUs ≤ s.now)
      | none => true
    if due then s.setRing r { x with reqAt := x.reqAt.set (b2n portB) (some s.now) } else s

/-- R26: a running ring whose timing rises more than 50 ns above the values admitted is logged once. -/
def State.checkExceeded (s : State) (r : Nat) : State :=
  let excess (now_ adm : Nat) : Bool := decide (adm + 50 * 64 < now_)
  let x := s.ring r
  if s.link.terms.isSome && s.ringRuns r && !x.exceeded && decide (0 < s.get (F.RING_ADMIT_TEL_T r)) &&
      (excess (s.get (F.RING_TTEL_T r)) (s.get (F.RING_ADMIT_TEL_T r)) ||
       excess (s.get (F.RING_TSCHED_T r)) (s.get (F.RING_ADMIT_SCHED_T r))) then
    (s.setRing r { x with exceeded := true }).event Ev.RING_TIMING_EXCEEDED r []
  else s

/-- R83: one exchange on link `h`: the average of the last 64, in 1/64 ns, rounded half up; a change above 2 ns from
one block of 64 to the next sets STEP. Before 64 exchanges the average of those so far stands: DESIGN CHOICE, log entry
190. -/
def State.dlyRsp (s : State) (r h : Nat) (rtt turn : Nat) : State :=
  let x := s.ring r
  let l := (((rtt - turn) :: x.exch.get h).take 64)
  let avg := (roundDiv ((l.foldl (· + ·) 0 * 4 : Nat) : Int) (l.length : Int)).toNat
  let n := x.exchN.get h + 1
  let s1 := s.put (F.RING_HOP_DLY_DELAY r h) avg
  let block := decide (n % 64 = 0)
  let step := block && (match x.prevAvg.get h with
    | some p => decide (128 < max p avg - min p avg)
    | none => false)
  let s2 := if step then s1.put (F.RING_HOP_STAT_STEP r h) 1 else s1
  let s3 := s2.setRing r { x with exch := x.exch.set h l, exchN := x.exchN.set h n,
                                  prevAvg := if block then x.prevAvg.set h (some avg) else x.prevAvg }
  ((s3.ringTimes r).retime).checkExceeded r

/-- DLY_RSP_RX (R83): round trip and turnaround of link `h`, in 125 ps units. -/
def execDlyRspRx (t : Nat) (r : RingIx) (h : Fin 129) (rtt turn : Nat) (s : State) : Host.Outcome State Fault Refusal :=
  atTime t s fun s => s.inDom (domRING r) fun s => s.dlyRsp r h rtt turn

/-- ALIGN_FAULT (R87): |ALIGN_ERR| above 1 ns in 16 consecutive written slots. -/
def execAlignFault (t : Nat) (k : CellIx) (s : State) : Host.Outcome State Fault Refusal :=
  atTime t s fun s => s.inDom domVOTE fun s =>
    if 16 ≤ (s.cell k).alignBad then (s.setCellX k { s.cell k with alignBad := 0 }).event Ev.ALIGN_FAULT k [.w (k : Nat)]
    else s

/-! ### Discovery (R88–R91) -/

/-- R88: discovery starts in v1 signalling, with nothing known of the ring. -/
def State.startDiscovery (s : State) (r : Nat) : State :=
  let s1 := (s.put (F.RING_STATUS_STATE r) rTRAINING).put (F.RING_STATUS_VER r) 0
  let x := s1.ring r
  s1.setRing r { x with exch := [], exchN := [], prevAvg := [], discA := none, discB := none, mapOk := false, cap := [],
                        discAt := s1.now, downAt := [], copies := [], rep := none, frameAt := none, tx := [] }

/-- R88: a link that has block lock at a module port: the CAP set is sent; a link whose ends both offer v2 retrains at it;
then the discover frame leaves the port (R89). -/
def State.portTrained (s : State) (r : Nat) (portB peerV2 : Bool) : State :=
  let p := b2n portB
  let s1 := s.setRing r { s.ring r with cap := (s.ring r).cap.set p (some (s.now, peerV2)) }
  if s1.mergeOk r portB then s1.launchTx r p (!peerV2) s1.mtUnits (.discover s1.mtNs) else s1

/-- R88, R91, R93: what a change of RING_CTRL does once its fields are written. -/
def State.ringDisable (s : State) (r : Nat) : State :=
  let s1 := (((s.put (F.RING_STATUS_STATE r) rDOWN).put (F.RING_STATUS_LINK_A r) 0).put
    (F.RING_STATUS_LINK_B r) 0).put (F.RING_STATUS_VER r) 0
  let s2 := s1.forN 129 fun s h => s.put (F.RING_HOP_STAT_UP r h) 0
  (s2.cellEvent .absentRing (128 * r)).retime

/-- R91: REDISCOVER: every entry is discovered anew. -/
def State.ringRediscover (s : State) (r : Nat) : State := ((s.cellEvent .absentRing (128 * r)).startDiscovery r).retime

/-- R93: the ring follows a change of EN. -/
def State.ringCtrlAct (s : State) (r : Nat) (was again : Bool) : State :=
  let is := s.flag (F.RING_CTRL_EN r)
  let s1 := if !was && is then s.startDiscovery r else if was && !is then s.ringDisable r else s
  if again && is && was then s1.ringRediscover r else s1

/-- R88, R91, R93: a write of RING_CTRL; REDISCOVER returns BUSY while any cell of the ring is ACTIVE. -/
def State.ringCtrlWrite (s : State) (n r : Nat) (value mask : Word) : Status × State :=
  let again := bit (value &&& mask).toNat 2
  s.writeIf n (R.RING_CTRL r) value mask (if again && s.cluActive r then .busy else .ok) fun s' =>
    s'.ringCtrlAct r (s.flag (F.RING_CTRL_EN r)) again

/-- RING_ENABLE (R88). -/
def execRingEnable (t : Nat) (n : SessIx) (r : RingIx) (s : State) : Host.Outcome State Fault Refusal :=
  atTime t s fun s => s.access n (domRING r) fun s => s.ringCtrlWrite n r 1#32 1#32

/-- RING_DISABLE (R93). -/
def execRingDisable (t : Nat) (n : SessIx) (r : RingIx) (s : State) : Host.Outcome State Fault Refusal :=
  atTime t s fun s => s.access n (domRING r) fun s => s.ringCtrlWrite n r 0#32 1#32

/-- RING_REDISCOVER (R91). -/
def execRingRediscover (t : Nat) (n : SessIx) (r : RingIx) (s : State) : Host.Outcome State Fault Refusal :=
  atTime t s fun s => s.access n (domRING r) fun s => s.ringCtrlWrite n r 4#32 4#32

/-- DISCOVERY_RETRY (R88): with no cell answering, every 10 ms in TRAINING. -/
def execDiscoveryRetry (t : Nat) (r : RingIx) (s : State) : Host.Outcome State Fault Refusal :=
  atTime t s fun s => s.inDom (domRING r) fun s =>
    let st := s.ringState r
    let x := s.ring r
    if s.flag (F.RING_CTRL_EN r) ∧ (st = rTRAINING ∨ (st = rDISCOVERING ∧ x.discA.isNone ∧ x.discB.isNone)) ∧
        x.discAt + 10 * uMs ≤ s.now then s.startDiscovery r
    else s

/-- LINK_BLOCK_LOCK (R88): block lock at a module port and the versions the other end offers; a ring that is training,
discovering or lost sends its discover frame there; on a broken ring the link carries nothing until R94. A port whose
transceiver is not enabled gains no lock (R488). -/
def execLinkBlockLock (t : Nat) (r : RingIx) (portB peerV2 : Bool) (s : State) : Host.Outcome State Fault Refusal :=
  atTime t s fun s => s.inDom (domRING r) fun s =>
    if !s.flag (F.RING_CTRL_EN r) || !s.cageOk (2 * r.val + b2n portB) then s
    else
      let s1 := s.put (if portB then F.RING_STATUS_LINK_B r else F.RING_STATUS_LINK_A r) 1
      let st := s.ringState r
      if st = rTRAINING ∨ st = rDISCOVERING ∨ st = rLOST then
        let s2 := if st = rLOST then s1.startDiscovery r else s1
        (s2.put (F.RING_STATUS_STATE r) rDISCOVERING).portTrained r portB peerV2
      else s1

/-- R89: the occupied records at the head of a discover frame. A record whose RCRC is bad ends the list: DESIGN CHOICE,
log entry 191. -/
def discRecs (b : List Byte) : Nat → Nat → List DiscRec
  | 0, _ => []
  | n + 1, i =>
    let x := bytesAt b (32 + 16 * i) 16
    if x.length = 16 ∧ byteAt x 11 % 2 = 1 ∧ leAt x 14 2 = crc16 (bytesAt x 0 14) then
      { nodeId := leAt x 0 8, nodeType := byteAt x 8, vers := byteAt x 9, linkVer := byteAt x 10 } :: discRecs b n (i + 1)
    else []

/-- R90: two lists name the same nodes in the same order; LINK_VER belongs to a link, not to a node. -/
def sameNodes (a b : List DiscRec) : Bool := (a.map (·.nodeId)) == (b.map (·.nodeId))

/-- R90: the cell count of a ring in the cell map. -/
def State.ringMap (s : State) (r : Nat) : Nat := ((cellsOf r).filter s.inMap).length

/-- R90: the nodes of a ring by position, whether it is broken, and whether the lists agree. -/
def discResult (nMap : Nat) (a b : Bool × List DiscRec) : List (Nat × DiscRec) × Nat × Bool × Bool :=
  let la := (List.range a.2.length).zip a.2
  if a.1 || b.1 || a.2.isEmpty || b.2.isEmpty then
    let lb := ((List.range b.2.length).map fun i => nMap - 1 - i).zip b.2
    (la ++ lb.reverse, a.2.length + b.2.length, true, decide (a.2.length + b.2.length = nMap))
  else (la, a.2.length, false, sameNodes b.2 a.2.reverse)

/-- R88, R91: a ring that runs v1: a mode frame leaves both ports and every link retrains, its exchanges starting
anew. -/
def State.retrainV1 (s : State) (r : Nat) : State :=
  let s1 := s.setRing r { s.ring r with exch := [], exchN := [], prevAvg := [] }
  [0, 1].foldl (fun (s : State) p =>
    if s.mergeOk r (p == 1) then s.launchTx r p (((s.ring r).cap.get p).all fun e => !e.2) s.mtUnits .mode else s) s1

/-- R90, R91: both lists are in: positions, version and hops are settled and the nodes enter LINKED. With no cell
answering the ring is training again, until the next retry (R88). A node at an index with IN_MAP 0 is reported as a
mismatch (R96). -/
def State.discDecide (s : State) (r : Nat) (a b : Bool × List DiscRec) : State :=
  let (nodes, n, broken, ok) := discResult (s.ringMap r) a b
  if nodes.isEmpty then
    (s.setRing r { s.ring r with discA := none, discB := none }).put (F.RING_STATUS_STATE r) rTRAINING
  else
    let v1only := (nodes.filter fun d => !bit d.2.vers 1).length
    let ver := if v1only ≠ 0 ∨ s.flag (F.RING_CTRL_FORCE_V1 r) then 1 else 2
    let s1 := (s.put (F.RING_STATUS_NCELLS r) n).put (F.RING_STATUS_VER r) ver
    let s2 := s1.forN (n + 1) fun s h =>
      (s.putB (F.RING_HOP_STAT_UP r h) (!broken || h != a.2.length)).put (F.RING_HOP_STAT_VER r h) ver
    let s3 := if ver = 1 then s2.retrainV1 r else s2
    let extra := nodes.any fun d => !s.inMap (128 * r + d.1)
    let s4 := (s3.setRing r { s3.ring r with mapOk := ok }).eventIf (!ok || extra) Ev.RING_MAP_MISMATCH r []
    let s5 := s4.eventIf (ver == 1) Ev.RING_V1 r [.w v1only]
    nodes.foldl (fun s d => s.cellEvent (.link d.2) (128 * r + d.1)) s5

/-- R90: a discover frame has returned. -/
def State.discoverRx (s : State) (r : Nat) (portB : Bool) (bytes : List Byte) : State :=
  if s.ringState r ≠ rDISCOVERING then s
  else match frameOf bytes with
    | none => s
    | some b =>
      if byteAt b 1 ≠ 4 then s
      else if !headOk b ∨ !portAgrees b portB then
        s.count (if portB then F.RING_CNT_CRC_B_COUNT r else F.RING_CNT_CRC_A_COUNT r) 1
      else
        let got := (byteAt b 2 / 32 % 2 == 1, discRecs b 128 0)
        let x := s.ring r
        let x1 := if byteAt b 2 / 16 % 2 = 0 then { x with discA := some got } else { x with discB := some got }
        let none_ : Bool × List DiscRec := (true, [])
        let a := if s.flag (F.RING_STATUS_LINK_A r) then x1.discA else some (x1.discA.getD none_)
        let c := if s.flag (F.RING_STATUS_LINK_B r) then x1.discB else some (x1.discB.getD none_)
        let s1 := s.setRing r x1
        match a, c with
        | some p, some q => s1.discDecide r p q
        | _, _ => s1

/-- DISCOVER_FRAME_RX (R90). -/
def execDiscoverFrameRx (t : Nat) (r : RingIx) (portB : Bool) (bytes : List Byte) (s : State) :
    Host.Outcome State Fault Refusal :=
  atTime t s fun s => s.inDom (domRING r) fun s => s.discoverRx r portB bytes

/-! ### The ring's condition (R92–R94) -/

/-- R93: UP, BROKEN or SEGMENTED from the links that are down; a failed cell is two neighbouring links. -/
def ringCond (down : List Nat) : Nat :=
  match down with
  | [] => rUP
  | [_] => rBROKEN
  | [a, b] => if b = a + 1 then rBROKEN else rSEGMENTED
  | _ => rSEGMENTED

/-- R93: the position on the A side of link `h`. -/
def breakPos (h : Nat) : Nat := if h = 0 then 0xFF else h - 1

/-- R93: RING_STATUS and RING_BREAK follow the links. -/
def State.ringFollow (s : State) (r : Nat) : State :=
  let d := s.downLinks r
  let st := ringCond d
  let s1 := s.put (F.RING_STATUS_STATE r) st
  let s2 := (s1.putB (F.RING_BREAK_BRK1_VALID r) (decide (1 ≤ d.length))).putB (F.RING_BREAK_BRK2_VALID r)
    (decide (2 ≤ d.length))
  let s3 := (s2.put (F.RING_BREAK_BRK1_POS r) (match d.head? with
      | some h => breakPos h
      | none => 0xFF)).put (F.RING_BREAK_BRK2_POS r) (match d.drop 1 |>.head? with
      | some h => breakPos h
      | none => 0xFF)
  if st = s.ringState r then s3
  else if st = rBROKEN then s3.event Ev.RING_BREAK r [.w (breakPos (d.headD 0))]
  else if st = rSEGMENTED then s3.event Ev.RING_SEGMENT_LOST r []
  else s3

/-- R88, R26, R80: the ring's exchanges are complete and it carries frames. RING_UP is logged whichever condition of R93
discovery ends in: DESIGN CHOICE, log entry 193. While values admitted at a start are in force, a ring that has been
discovered again runs only if it fits them (R26). -/
def State.ringUp (s : State) (r : Nat) : State :=
  let s1 := (s.ringTimes r).ringFollow r
  let s2 := s1.event Ev.RING_UP r [.w (s1.nCells r), .w (s1.get (F.RING_STATUS_VER r))]
  let s3 := s2.eventIf (decide (4700 * 64 < s2.get (F.RING_THALT_T r))) Ev.HALT_BUDGET r []
  let x := s3.ring r
  let back := s3.link.terms.isSome
  let fit := s3.ringFits r
  let s4 := s3.setRing r { x with frameAt := some s3.now, unfit := back && !fit, exceeded := x.exceeded && !(back && fit) }
  let s5 := if back && fit then (s4.put (F.RING_ADMIT_TEL_T r) (s4.get (F.RING_TTEL_T r))).put (F.RING_ADMIT_SCHED_T r)
    (s4.get (F.RING_TSCHED_T r)) else s4
  s5.retime

/-- RING_UP (R88): 64 exchanges on every link that is up, and alignment settled. -/
def execRingUp (t : Nat) (r : RingIx) (aligned : Bool) (s : State) : Host.Outcome State Fault Refusal :=
  atTime t s fun s => s.inDom (domRING r) fun s =>
    let links := (List.range (s.nCells r + 1)).filter fun h => s.flag (F.RING_HOP_STAT_UP r h)
    if s.ringState r = rDISCOVERING ∧ s.get (F.RING_STATUS_VER r) ≠ 0 ∧ aligned ∧
        links.all (fun h => 64 ≤ (s.ring r).exchN.get h) then s.ringUp r
    else s

/-- R92: the flags and exchanges of link `h` when it goes down. -/
def State.dropLink (s : State) (r h : Nat) : State :=
  let x := s.ring r
  let s1 := s.setRing r { x with exch := x.exch.set h [], exchN := x.exchN.set h 0, prevAvg := x.prevAvg.set h none,
                                 downAt := x.downAt.set h (some s.now) }
  let s2 := s1.put (F.RING_HOP_STAT_UP r h) 0
  let s3 := if h = 0 then s2.put (F.RING_STATUS_LINK_A r) 0 else s2
  if h = s.nCells r then s3.put (F.RING_STATUS_LINK_B r) 0 else s3

/-- R92: link `h` is down: a running ring counts the break and follows its links; a ring in discovery with neither port
linked is training again (R93). -/
def State.linkDown (s : State) (r h : Nat) : State :=
  if s.nCells r < h then s
  else if s.ringRuns r then
    if s.flag (F.RING_HOP_STAT_UP r h) then (((s.dropLink r h).setRing r { (s.dropLink r h).ring r with breakAt := some s.now }).count (F.RING_CNT_BREAK_COUNT r) 1 |>.ringFollow r).retime else s
  else
    let s1 := s.dropLink r h
    if s.ringState r = rDISCOVERING ∧ s1.get (F.RING_STATUS_LINK_A r) = 0 ∧ s1.get (F.RING_STATUS_LINK_B r) = 0 then
      s1.put (F.RING_STATUS_STATE r) rTRAINING
    else s1

/-- LINK_DOWN (R92): link `h` loses block lock, or shows no valid block for the given ns. -/
def execLinkDown (t : Nat) (r : RingIx) (h : Fin 129) (lostLock : Bool) (silentNs : Nat) (s : State) :
    Host.Outcome State Fault Refusal :=
  atTime t s fun s => s.inDom (domRING r) fun s =>
    if lostLock ∨ 1000 ≤ silentNs then s.linkDown r h else s

/-- LINK_DEGRADED (R92): blocks with an invalid sync header on link `h`; more than 16 in 1 s are logged. -/
def execLinkDegraded (t : Nat) (r : RingIx) (h : Fin 129) (errors : Nat) (s : State) :
    Host.Outcome State Fault Refusal :=
  atTime t s fun s => s.inDom (domRING r) fun s =>
    let x := s.ring r
    let (from_, n) := x.errRun.get h
    let fresh := decide (from_ + uS ≤ s.now) || decide (n = 0)
    let n1 := (if fresh then 0 else n) + errors
    let logged := !fresh && decide (16 < n)
    let s1 := (s.setRing r { x with errRun := x.errRun.set h (if fresh then s.now else from_, n1) }).count
      (F.RING_HOP_STAT_ERRORS r h) errors
    s1.eventIf (decide (16 < n1) && !logged) Ev.LINK_DEGRADED r [.w (h : Nat)]

/-- RING_LOST (R93): no frame at either port for two control cycles. -/
def execRingLost (t : Nat) (r : RingIx) (s : State) : Host.Outcome State Fault Refusal :=
  atTime t s fun s => s.inDom (domRING r) fun s =>
    if s.ringRuns r ∧ s.clk.suspendAt.isNone ∧ s.due ((s.ring r).frameAt.map (· + 2 * s.periodU)) then
      let s1 := (s.put (F.RING_STATUS_STATE r) rLOST).event Ev.RING_LOST r []
      (s1.cellEvent .absentRing (128 * r)).retime
    else s

/-- RING_HEALED (R94): 64 exchanges have completed on link `h` since it regained lock, HEAL_EN is set, and T_m of the
agreed cycle `m` has come. -/
def execRingHealed (t : Nat) (r : RingIx) (h : Fin 129) (m : Nat) (s : State) :
    Host.Outcome State Fault Refusal :=
  atTime t s fun s => s.inDom (domRING r) fun s =>
    if (s.ringState r = rBROKEN ∨ s.ringState r = rSEGMENTED) ∧ s.flag (F.RING_CTRL_HEAL_EN r) ∧
        64 ≤ (s.ring r).exchN.get h ∧ m * s.periodU ≤ s.mtUnits ∧
        s.get (F.RING_HOP_STAT_UP r h) = 0 ∧ (h : Nat) ≤ s.nCells r then
      let s1 := s.put (F.RING_HOP_STAT_UP r h) 1
      let s2 := if (h : Nat) = 0 then s1.put (F.RING_STATUS_LINK_A r) 1 else s1
      let s3 := if (h : Nat) = s.nCells r then s2.put (F.RING_STATUS_LINK_B r) 1 else s2
      let s4 := (s3.setRing r { s3.ring r with healAt := (s3.ring r).healAt.set h (some m) }).ringFollow r
      (s4.eventIf (s4.ringState r == rUP) Ev.RING_HEALED r []).retime
    else s

end Sys2Proof.Machine
end

