-- ==== Sys2Proof/Machine/Trig.lean ====
section
/-! DEFINITION. Exact rounding of the sines, cosines and the other real functions that the spec rounds itself. -/

namespace Sys2Proof.Machine

/-- R148: rounding half up after division by 2^n. -/
def rhu (v : Int) (n : Nat) : Int := if n = 0 then v else (v + 2 ^ (n - 1)) / 2 ^ n

/-- R148: the clamp to a 16-bit signed value. -/
def sat16 (v : Int) : Int := clampI (-32768) 32767 v

/-- π in units of 2^-80. -/
def piFix : Int := 3797952473636338580787994

/-- The sum of the sine series at an angle of 2^-80 rad, over `n` terms from term `k`. -/
def sinSeries (x2 : Int) : Nat → Int → Int → Int
  | 0, _, _ => 0
  | n + 1, k, term => term + sinSeries x2 n (k + 2) (-(term * x2 / 2 ^ 80) / ((k + 1) * (k + 2)))

/-- sin of an angle of the first quadrant, in 2^-80. -/
def sinFix (x : Int) : Int := sinSeries (x * x / 2 ^ 80) 20 1 x

/-- sin(2π num / den) in 2^-80. -/
def sinTurn (num den : Nat) : Int :=
  let n := num % den
  let q := 4 * n / den
  let r := 4 * n - q * den
  let up := sinFix (piFix * r / (2 * den))
  let dn := sinFix (piFix * (den - r : Nat) / (2 * den))
  match q with
  | 0 => up
  | 1 => dn
  | 2 => -up
  | _ => -dn

/-- cos(2π num / den) in 2^-80. -/
def cosTurn (num den : Nat) : Int := sinTurn (4 * num + den) (4 * den)

/-- R515: sin and cos of 2π num / den to the nearest multiple of 2^-16, half up. -/
def sin16 (num den : Nat) : Int := rhu (sinTurn num den) 64
def cos16 (num den : Nat) : Int := rhu (cosTurn num den) 64

/-! ### Roundings the spec leaves open -/

/-- A quotient to a whole number: exact where it is whole, otherwise a neighbour of the implementation's choice. -/
def roundFree (num den : Int) : Int :=
  if num % den = 0 then num / den else num / den + (if Config.roundUp num den then 1 else 0)

/-- A quotient that a rule states for a divisor other than 0: over 0 no rule gives it a value, and it is a free value
(DESIGN CHOICE, log entry 257). -/
def ratioFree (num den : Int) : Int := if den = 0 then Config.openFn 60 [num] else roundFree num den

/-- A square root to a whole number, in the same way. -/
def sqrtFree (v : Nat) : Nat :=
  let r := isqrt v
  if r * r = v then r else if Config.roundUp v 2 then r + 1 else r

/-- The product of two Q2.30 values. -/
def qmul (a b : Int) : Int := roundFree (a * b) (2 ^ 30)

/-- 2^30: 1.0 in Q2.30. -/
abbrev q1 : Int := 1073741824

/-- Whether the direction (x, y) lies at or beyond the angle `c` / 2^32 turn, for an angle within half a turn of it. -/
def beyond (x y : Int) (c : Nat) : Bool :=
  decide (0 ≤ y * cosTurn c (2 ^ 32) - x * sinTurn c (2 ^ 32))

/-- Bisection of an angle in the upper half plane: the greatest code not beyond the direction. -/
def angleAux (x y : Int) : Nat → Nat → Nat
  | 0, acc => acc
  | n + 1, acc => let c := acc + 2 ^ n; if beyond x y c then angleAux x y n c else angleAux x y n acc

/-- The angle of (x, y) in 2^-32 turn, rounded down; the zero vector has none that the spec states: a free value (log
entry 257). -/
def angle32 (x y : Int) : Nat :=
  if x = 0 ∧ y = 0 then (Config.openFn 61 []).toNat % 2 ^ 32
  else if 0 < y ∨ (y = 0 ∧ 0 < x) then angleAux x y 31 0
  else (angleAux (-x) (-y) 31 0 + 2 ^ 31) % 2 ^ 32

/-- An angle brought into half a turn on either side of 0. -/
def wrap32 (a : Int) : Int := signedOf 32 (codeOf 32 a)

/-- R159: the 16-bit code of an angle in 2^-32 turn. -/
def angleCode (a : Int) : Int := signedOf 16 (codeOf 16 (roundFree a 65536))

end Sys2Proof.Machine
end

