-- ==== Sys2Proof/Machine/Engine.lean ====
section
/-! DEFINITION. The control engine (R141–R158, R210, R515): signals, arithmetic, operations, the pass, t_ce and the
load checks. -/

namespace Sys2Proof.Machine

/-- The registers of one name that are listed: those that do not hold their reset word. -/
def State.listed (s : State) (id : Nat) : List Reg := (s.regs.filter fun e => e.1.id == id).map (·.1)

/-! ### Signals (R144) -/

/-- R144: the published value of a signal; signals 0 and 1 are constants. -/
def State.sig (s : State) (n : Nat) : Int :=
  if n = 0 then 0 else if n = 1 then 0x4000 else signedOf 16 (s.get (F.CE_SIG_VALUE n))

/-- R144: a signal written (never 0 or 1). -/
def State.setSig (s : State) (n : Nat) (v : Int) : State :=
  if n < 2 ∨ 8192 ≤ n then s else s.put (F.CE_SIG_VALUE n) (codeOf 16 v)

/-- R144: the owner of a signal: 0 ENGINE, 1 IMPORT, 2 SEQUENCER, 3 PARAM. -/
def State.sigOwner (s : State) (n : Nat) : Nat := if n < 2 then 3 else s.get (F.CE_SIG_OWNER n)

/-- R144, R147: the sequencer stages a value, seen from the next pass; only a signal of its own. -/
def State.stageSig (s : State) (n : Nat) (v : Int) : State :=
  if s.sigOwner n = 2 then s.setEng fun x => { x with staged := s.eng.staged.set n (some (sat16 v)) } else s

/-! ### Arithmetic (R148) -/

/-- R148: sh, of a Q2.30 product. -/
def sh (p : Int) (sft : Int) : Int := if 0 ≤ sft then p * 2 ^ sft.toNat else rhu p (-sft).toNat

/-- R148: shx, of a Q2.45 value. -/
def shx (q : Int) (sft : Int) : Int := if 0 ≤ sft then rhu (q * 2 ^ sft.toNat) 15 else rhu q (15 - sft).toNat

/-- R148: acc, in SAT or in COND programs. -/
def accOf (sat : Bool) (v : Int) : Int := if sat then clampI (-(2 ^ 30)) (2 ^ 30 - 1) v else signedOf 40 (codeOf 40 v)

/-- R148: terms summed from the left, acc on every partial sum; whether acc changed one. -/
def accSum (sat : Bool) : List Int → Int × Bool
  | [] => (0, false)
  | t :: r => r.foldl (fun a v => let x := a.1 + v; (accOf sat x, a.2 || accOf sat x != x)) (accOf sat t, accOf sat t != t)

/-- R148: out, with 0 none, 1 high, 2 low for the clamp. -/
def outOf (v : Int) : Int × Nat :=
  let r := rhu v 15
  (sat16 r, if 32767 < r then 1 else if r < -32768 then 2 else 0)

/-! ### Curves (R151, R210) -/

/-- R210: a coordinate read as the curve's TYPE says. -/
def curveX (typ v : Nat) : Int := if typ = 1 then (v : Int) else signedOf 16 v

/-- R210: the points of a curve. -/
def State.curvePts (s : State) (n : Nat) : List (Int × Int) :=
  (List.range (min 32 (s.get (F.TBL_CURVE_HDR_NPTS n)))).map fun j =>
    (curveX (s.get (F.TBL_CURVE_HDR_TYPE n)) (s.get (F.TBL_PT_X n j)), signedOf 16 (s.get (F.TBL_PT_Y n j)))

/-- Strictly increasing x values. -/
def risingX : List (Int × Int) → Bool
  | [] => true
  | [_] => true
  | a :: b :: r => decide (a.1 < b.1) && risingX (b :: r)

/-- R210: a curve is defined. -/
def State.curveOk (s : State) (n : Nat) : Bool :=
  let k := s.get (F.TBL_CURVE_HDR_NPTS n)
  2 ≤ k && k ≤ 32 && s.get (F.TBL_CURVE_HDR_TYPE n) != 3 && risingX (s.curvePts n)

/-- R151: interpolation between two points. -/
def interp (a b : Int × Int) (x : Int) : Int :=
  let dx := b.1 - a.1
  let num := (x - a.1) * (b.2 - a.2)
  if dx ≤ 0 then a.2 else a.2 + roundDiv num dx

/-- R151: a curve evaluated: flat beyond its ends. -/
def curveEval : List (Int × Int) → Int → Int
  | [], _ => 0
  | [a], _ => a.2
  | a :: b :: r, x => if x ≤ a.1 then a.2 else if x < b.1 then interp a b x else curveEval (b :: r) x

def State.curve (s : State) (n : Nat) (x : Int) : Int := curveEval (s.curvePts n) x

/-! ### Entries (R149, R150, R152) -/

/-- R149: the shift of an entry. -/
def State.ceS (s : State) (e : Nat) : Int := s.getS (F.CE_SEC_OP_S e)

/-- R149: the coefficients C0 to C4. -/
def State.ceC (s : State) (e k : Nat) : Int :=
  match k with
  | 0 => s.getS (F.CE_SEC_C01_C0 e)
  | 1 => s.getS (F.CE_SEC_C01_C1 e)
  | 2 => s.getS (F.CE_SEC_C23_C2 e)
  | 3 => s.getS (F.CE_SEC_C23_C3 e)
  | _ => s.getS (F.CE_SEC_C4_C4 e)

/-- R150: a state word. -/
def word40 (lo hi : Nat) : Int := signedOf 40 (lo + 2 ^ 32 * (hi % 256))
def State.ceS1 (s : State) (e : Nat) : Int := word40 (s.get (F.CE_SEC_S1_LO_STATE e)) (s.get (F.CE_SEC_S1_HI_STATE e))
def State.ceS2 (s : State) (e : Nat) : Int := word40 (s.get (F.CE_SEC_S2_LO_STATE e)) (s.get (F.CE_SEC_S2_HI_STATE e))

/-- A state word into its _LO and _HI registers, sign-extended. -/
def State.ceSetS (s : State) (e : Nat) (s1 s2 : Int) : State :=
  (s.put64 (R.CE_SEC_S1_LO e) (R.CE_SEC_S1_HI e) (codeOf 64 s1)).put64 (R.CE_SEC_S2_LO e) (R.CE_SEC_S2_HI e) (codeOf 64 s2)

/-- What the evaluation of an entry leaves. -/
structure CeRes where
  writes : List (Nat × Int)
  s1     : Int
  s2     : Int
  last   : Nat
  outSat : Bool
  accSat : Bool
  frozen : Bool
  deriving DecidableEq, Repr, Inhabited

/-- R152: the entry's state is frozen in this pass. -/
def State.ceFrozen (s : State) (p e : Nat) (x0 : Int) : Bool :=
  let last := s.get (F.CE_SEC_FLAG_LAST_SAT (s.get (F.CE_PROG_CTRL_AW_ENTRY p)))
  !s.flag (F.CE_PROG_CTRL_AW p) && s.flag (F.CE_SEC_OP_INTEG e) && s.flag (F.CE_PROG_CTRL_AW_USE p) && last != 0 &&
    (!s.flag (F.CE_PROG_CTRL_AW_DIR p) || x0 == 0 || decide (0 < x0) == (last == 1))

/-- R149–R151, R515: the evaluation of entry `e` of program `p` on the signals of the state. -/
def State.ceEval (s : State) (p e : Nat) : Option CeRes :=
  let x0 := s.sig (s.get (F.CE_SEC_IN_IN0 e))
  let x1 := s.sig (s.get (F.CE_SEC_IN_IN1 e))
  let x2 := s.sig (s.get (F.CE_SEC_IO_IN2 e))
  let out := s.get (F.CE_SEC_IO_OUT e)
  let sft := s.ceS e
  let sat := s.flag (F.CE_PROG_CTRL_AW p)
  let s1 := s.ceS1 e
  let s2 := s.ceS2 e
  let one (a : Int × Bool) : CeRes :=
    let y := outOf a.1
    { writes := [(out, y.1)], s1 := s1, s2 := s2, last := y.2, outSat := y.2 != 0, accSat := a.2, frozen := false }
  match s.get (F.CE_SEC_OP_OP e) with
  | 1 =>
    let yf := accSum sat [sh (s.ceC e 0 * x0) sft, s1]
    let y := outOf yf.1
    let yx := clampI (-(2 ^ 30)) (2 ^ 30 - 1) yf.1
    let n1 := accSum sat [sh (s.ceC e 1 * x0) sft, -(shx (s.ceC e 3 * yx) sft), s2]
    let n2 := accSum sat [sh (s.ceC e 2 * x0) sft, -(shx (s.ceC e 4 * yx) sft)]
    let fr := s.ceFrozen p e x0
    some { writes := [(out, y.1)], s1 := if fr then s1 else n1.1, s2 := if fr then s2 else n2.1, last := y.2,
           outSat := y.2 != 0, accSat := yf.2 || (!fr && (n1.2 || n2.2)), frozen := fr }
  | 2 => some (one (accSum sat [shx (s.ceC e 0 * x0 * x1) sft]))
  | 3 => some (one (accSum sat [sh (s.ceC e 0 * x0) sft, sh (s.ceC e 1 * x1) sft, sh (s.ceC e 2 * x2) sft]))
  | 4 =>
    let lsig := s.flag (F.CE_SEC_OP_LSIG e)
    let lo := if lsig then x1 else s.ceC e 0
    let hi := if lsig then x2 else s.ceC e 1
    let y := min (max x0 lo) hi
    let last := if y < x0 then 1 else if x0 < y then 2 else 0
    some { writes := [(out, y)], s1 := s1, s2 := s2, last := last, outSat := last != 0, accSat := false, frozen := false }
  | 5 =>
    some { writes := [(out, s.curve (s.get (F.CE_SEC_OP_PARAM e)) x0)], s1 := s1, s2 := s2, last := 0, outSat := false,
           accSat := false, frozen := false }
  | 6 =>
    let turn := (if s.flag (F.CE_SEC_OP_INV e) then codeOf 16 (-x2) else codeOf 16 x2)
    let sn := sin16 turn 65536
    let cs := cos16 turn 65536
    let y0 := accSum sat [sh (rhu (x0 * cs - x1 * sn) 1) sft]
    let y1 := accSum sat [sh (rhu (x0 * sn + x1 * cs) 1) sft]
    let o0 := outOf y0.1
    let o1 := outOf y1.1
    let last := if o1.2 ≠ 0 then o1.2 else o0.2
    some { writes := [(out, o0.1), (out + 1, o1.1)], s1 := s1, s2 := s2, last := last, outSat := last != 0,
           accSat := y0.2 || y1.2, frozen := false }
  | 7 =>
    let hist : Nat := codeOf 40 s1 + 2 ^ 40 * codeOf 40 s2
    let n := s.get (F.CE_SEC_OP_PARAM e)
    let y := signedOf 16 (hist / 2 ^ (16 * (n - 1)))
    let h2 := (hist * 65536 + codeOf 16 x0) % 2 ^ 80
    some { writes := [(out, y)], s1 := signedOf 40 h2, s2 := signedOf 40 (h2 / 2 ^ 40), last := 0, outSat := false,
           accSat := false, frozen := false }
  | _ => none

/-- R153: note the first entry of a program that meets a condition since its last event. -/
def CeNote.see (x : CeNote) (e : Nat) (hit : Bool) : CeNote := if hit && x.first.isNone then { x with first := some e } else x

/-- R145, R153: the result of one entry stands. -/
def State.ceApply (s : State) (p : Nat) (r : Nat × CeRes) : State :=
  let e := r.1
  let x := r.2
  let s1 := x.writes.foldl (fun s w => s.setSig w.1 w.2) (s.ceSetS e x.s1 x.s2)
  let s2 := s1.put (F.CE_SEC_FLAG_LAST_SAT e) x.last
  let s3 := if x.outSat then s2.put (F.CE_SEC_FLAG_OUT_SAT e) 1 else s2
  let s4 := if x.accSat then s3.put (F.CE_SEC_FLAG_ACC_SAT e) 1 else s3
  let s5 := if x.frozen then (s4.put (F.CE_SEC_FLAG_FROZEN e) 1).put (F.CE_PROG_STAT_FROZEN_NOW p) 1 else s4
  let bits := b2n x.outSat * 2 ^ (F.CE_SEC_FLAG_OUT_SAT e).lo + b2n x.accSat * 2 ^ (F.CE_SEC_FLAG_ACC_SAT e).lo +
    b2n x.frozen * 2 ^ (F.CE_SEC_FLAG_FROZEN e).lo
  s5.setEng fun y => { y with sat := s5.eng.sat.set p ((s5.eng.sat.get p).see e x.outSat),
                              acc := s5.eng.acc.set p ((s5.eng.acc.get p).see e x.accSat),
                              setNow := if bits = 0 then s5.eng.setNow else (e, bits) :: s5.eng.setNow }

/-- R141, R142: entries `e`, `e + 1`, … (`n` of them) grouped into rounds. -/
def State.roundsOf (s : State) : Nat → Nat → List Nat → List (List Nat)
  | 0, _, cur => if cur.isEmpty then [] else [cur.reverse]
  | n + 1, e, cur =>
    if (s.flag (F.CE_SEC_OP_NR e) || cur.length == 16) && !cur.isEmpty then cur.reverse :: s.roundsOf n (e + 1) [e]
    else s.roundsOf n (e + 1) (e :: cur)

def State.progRounds (s : State) (p : Nat) : List (List Nat) :=
  s.roundsOf (s.get (F.CE_PROG_RANGE_COUNT p)) (s.get (F.CE_PROG_RANGE_FIRST p)) []

/-- R142, R145: one round: every entry reads what stood at the start of the round. -/
def State.ceRound (p : Nat) (s : State) (round : List Nat) : State :=
  (round.filterMap fun e => (s.ceEval p e).map (e, ·)).foldl (fun s r => s.ceApply p r) s

/-- R152: one program of the pass; a program that is not enabled freezes no entry. -/
def State.ceProgram (s : State) (p : Nat) : State :=
  let s1 := s.put (F.CE_PROG_STAT_FROZEN_NOW p) 0
  if s.flag (F.CE_PROG_CTRL_EN p) then (s.progRounds p).foldl (State.ceRound p) s1 else s1

/-- R153: an event of a program at most once per second. -/
def State.ceLog (s : State) (p : Nat) : State :=
  let go (x : CeNote) : Bool := x.first.isSome && (match x.last with
    | some t => decide (t + uS ≤ s.now)
    | none => true)
  let a := s.eng.sat.get p
  let s1 := if go a then
      (s.setEng fun x => { x with sat := s.eng.sat.set p { last := some s.now, first := none } }).event Ev.CE_SAT
        noInst [.w p, .w (a.first.getD 0)]
    else s
  let b := s1.eng.acc.get p
  if go b then
    (s1.setEng fun x => { x with acc := s1.eng.acc.set p { last := some s1.now, first := none } }).event Ev.CE_ACC
      noInst [.w p, .w (b.first.getD 0)]
  else s1

/-- R146: the conversion of an import entry. -/
def importVal (raw gain sft : Int) : Int := sat16 (if 0 ≤ sft then rhu (raw * gain * 2 ^ sft.toNat) 15 else rhu (raw * gain) (15 - sft).toNat)

/-- R146: import entries in use, in ascending order. -/
def State.imports (s : State) : List Nat :=
  ((s.listed (R.CE_IMP_SRC 0).id).map (·.i)).filter fun j => s.get (F.CE_IMP_SRC_CLASS j) ≠ 0

/-- R142, R146: the import phase, on the sources as they stand at the freeze. -/
def State.cePhase (s : State) (src : Nat → Nat → Nat → Int) : State :=
  let s1 := s.imports.foldl (fun s j =>
    s.setSig (s.get (F.CE_IMP_DST_DST j))
      (importVal (src (s.get (F.CE_IMP_SRC_CLASS j)) (s.get (F.CE_IMP_SRC_INDEX j)) (s.get (F.CE_IMP_SRC_FIELD j)))
        (s.getS (F.CE_IMP_DST_GAIN j)) (s.getS (F.CE_IMP_SRC_SHIFT j)))) s
  let s2 := s.eng.staged.foldl (fun s e => match e.2 with
    | some v => s.setSig e.1 v
    | none => s) s1
  s2.setEng fun x => { x with staged := [] }

/-- R142: one pass: imports, programs 0 to NPROG − 1, publish. -/
def State.cePass (s : State) (src : Nat → Nat → Nat → Int) : State :=
  let n := s.get F.CE_CFG_NPROG
  let s0 := s.setEng fun x => { x with setNow := [], setTill := s.gridK + s.periodU }
  let s1 := (s0.cePhase src).forN n State.ceProgram
  (s1.forN n State.ceLog).countWrap F.CE_PASS_COUNT

/-! ### t_ce and the checks (R143, R155, R156) -/

/-- R143: N_imp, the rounds of a program, R and t_ce. -/
def State.ceNimp (s : State) : Nat := s.imports.length
def State.ceRounds (s : State) : Nat :=
  (List.range (s.get F.CE_CFG_NPROG)).foldl (fun a p => a + (s.progRounds p).length) 0
def State.ceTce (s : State) : Nat := 12 + ceilDiv s.ceNimp 16 + 6 * s.ceRounds

/-- R143: the registers that show the schedule length; a program that the pass does not run has neither rounds nor frozen
entries. -/
def State.ceShow (s : State) : State :=
  let t := s.ceTce
  let s1 := ((s.putSat F.CE_TCE_TCE t).putSat F.CE_TCE_ROUNDS s.ceRounds).put F.CE_NIMP_NIMP s.ceNimp
  (s1.putSat F.RING_TCE_TCE t).forN 256 fun s p =>
    if p < s.get F.CE_CFG_NPROG then s.put (F.CE_PROG_STAT_ROUNDS p) (s.progRounds p).length
    else (s.put (F.CE_PROG_STAT_ROUNDS p) 0).put (F.CE_PROG_STAT_FROZEN_NOW p) 0

/-- R156, check 7: a valid class, index and field. -/
def importOk (cls ix fld : Nat) : Bool :=
  match cls with
  | 1 => ix < 1024 && fld ≤ 24 && fld % 2 == 0
  | 2 => ix < 448 && fld == 0
  | 3 => ix < 12 && fld == 0
  | 4 => ix < 16 && fld == 0
  | 5 => ix < 2048 && fld == 0
  | 6 => ix < 32 && ix % 4 < 3 && fld ≤ 2
  | 7 => ix == 0 && fld ≤ 2
  | _ => false

/-- R156: the first check that an entry fails. -/
def State.ceEntryBad (s : State) (e : Nat) : Option Nat :=
  let op := s.get (F.CE_SEC_OP_OP e)
  let sft := s.ceS e
  let out := s.get (F.CE_SEC_IO_OUT e)
  let own (n : Nat) : Bool := decide (2 ≤ n) && decide (n < 8192) && s.sigOwner n == 0
  let par := s.get (F.CE_SEC_OP_PARAM e)
  if 7 < op then some 1
  else if sft = -8 ∨ (sft ≠ 0 ∧ (op = 4 ∨ op = 5 ∨ op = 7)) then some 2
  else if op ≠ 0 ∧ !(own out && (op != 6 || own (out + 1))) then some 3
  else if (op = 5 ∧ !(decide (par < 64) && s.curveOk par && s.get (F.TBL_CURVE_HDR_TYPE par) == 0)) ∨
      (op = 7 ∧ (par = 0 ∨ 5 < par)) then some 4
  else none

/-- R156, check 5: the range of a program. -/
def State.progRange (s : State) (p : Nat) : Nat × Nat :=
  let f := s.get (F.CE_PROG_RANGE_FIRST p)
  (f, f + s.get (F.CE_PROG_RANGE_COUNT p))

def State.progBad (s : State) (p : Nat) : Option Nat :=
  let r := s.progRange p
  let n := s.get F.CE_CFG_NPROG
  let aw := s.get (F.CE_PROG_CTRL_AW_ENTRY p)
  if r.1 = r.2 ∨ 4096 < r.2 ∨
      (List.range n).any (fun q => q != p && decide (r.1 < (s.progRange q).2) && decide ((s.progRange q).1 < r.2)) then some 5
  else if s.flag (F.CE_PROG_CTRL_AW_USE p) ∧ ¬(r.1 ≤ aw ∧ aw < r.2) then some 6
  else none

def State.importBad (s : State) (j : Nat) : Bool :=
  let d := s.get (F.CE_IMP_DST_DST j)
  !importOk (s.get (F.CE_IMP_SRC_CLASS j)) (s.get (F.CE_IMP_SRC_INDEX j)) (s.get (F.CE_IMP_SRC_FIELD j)) ||
    s.getS (F.CE_IMP_SRC_SHIFT j) == -8 || s.sigOwner d != 1 ||
    s.imports.any (fun q => q != j && s.get (F.CE_IMP_DST_DST q) == d)

/-- The first failure of a list of things, with its place. -/
def firstBad (l : List Nat) (f : Nat → Option Nat) : Option (Nat × Nat) := l.findSome? fun x => (f x).map (·, x)

/-- R156: the first check that the tables fail, and where: checks 1–7. -/
def State.ceCheck (s : State) : Option (Nat × Nat) :=
  let entries := (s.listed (R.CE_SEC_OP 0).id).map (·.i)
  (firstBad entries s.ceEntryBad).or ((firstBad (List.range (s.get F.CE_CFG_NPROG)) s.progBad).or
    (firstBad s.imports fun j => if s.importBad j then some 7 else none))

/-- R155: the limit that t_ce breaks, none where it is accepted. -/
def State.tceLimit (s : State) : Option Nat :=
  let t := s.ceTce
  if s.period < t then some s.period
  else if s.anyRunning ∧ s.get F.RING_LOOPD_W_CLK < t then some (s.get F.RING_LOOPD_W_CLK)
  else none

/-! ### Commits (R154) -/

/-- R154: an entry's state words, history and LAST_SAT at 0. -/
def State.ceReset (s : State) (e : Nat) : State := (s.ceSetS e 0 0).put (F.CE_SEC_FLAG_LAST_SAT e) 0

/-- R154: what a commit that has written engine registers does, given the state before it. -/
def State.ceCommit (s old : State) : State :=
  let changed := ((s.listed (R.CE_SEC_OP 0).id ++ old.listed (R.CE_SEC_OP 0).id).map (·.i)).eraseDups.filter fun e =>
    s.get (F.CE_SEC_OP_OP e) ≠ old.get (F.CE_SEC_OP_OP e)
  let s1 := changed.foldl (fun s e => (s.ceReset e).event Ev.CE_STATE_RESET noInst [.w (e + 65536 : Nat)]) s
  let progs := ((s.listed (R.CE_PROG_CMD 0).id).map (·.i)).filter fun p => s.flag (F.CE_PROG_CMD_RESET p)
  let s2 := progs.foldl (fun s p =>
    let r := s.progRange p
    (((List.range (r.2 - r.1)).foldl (fun s k => s.ceReset (r.1 + k)) s).put (F.CE_PROG_CMD_RESET p) 0).event
      Ev.CE_STATE_RESET noInst [.w p]) s1
  s2.ceShow

/-- R153: the sticky summary of a program. -/
def State.progFlag (s : State) (p : Nat) (f : Nat → Fld) : Bool :=
  (List.range (s.get (F.CE_PROG_RANGE_COUNT p))).any fun k => s.flag (f (s.get (F.CE_PROG_RANGE_FIRST p) + k))

end Sys2Proof.Machine
end

