-- ==== Sys2Proof/Machine/Pwm.lean ====
section
/-! DEFINITION. Edge-scheduled pulse-width modulation of the cells (R117–R136): carriers, offsets, compares, pulse
debt and carrier changes; and the delay lines (R138). -/

namespace Sys2Proof.Machine

/-! ### Carriers (R117–R119, R127) -/

/-- R118: the anchor of a cluster, ns. -/
def State.anchor (s : State) (c : Nat) : Nat := s.get64 (R.PWM_CLU_ANCHOR_LO c) (R.PWM_CLU_ANCHOR_HI c)

/-- The first instant at or after `t` of the grid that starts at `a` with period `p`. -/
def gridNext (a p t : Nat) : Nat :=
  let q := max 1 p
  if t ≤ a then a - (a - t) / q * q else a + ceilDiv (t - a) q * q

/-- R119: the offset of rank `j` in phase `ph` among `n` cells. -/
def offsetOf (p n ph skew j : Nat) : Nat :=
  if n = 0 then 0 else ((2 * (3 * j * p + ph * skew * p) + 6 * n) / (12 * n)) % max 1 p

/-- R119: rank of a cell: the mapped cells of its cluster and phase below it. -/
def State.rankOf (s : State) (k : Nat) : Nat :=
  ((s.phaseCells (ringOf k) (s.phaseOf k)).filter fun j => decide (j < k)).length

/-- R119: ranks and offsets of the cells of a cluster, as at image load or at a carrier change. -/
def State.setOffsets (s : State) (c : Nat) : State :=
  let p := s.get (F.PWM_CLU_CFG_CAR_P c)
  ((cellsOf c).filter s.inMap).foldl (fun s k =>
    let ph := s.phaseOf k
    let j := s.rankOf k
    (s.put (F.PWM_CELL_OFF_OFF k) (offsetOf p (s.nMap c ph) ph (s.get (F.PWM_CLU_CFG_SKEW c)) j)).put (F.PWM_CELL_OFF_RANK k) j) s

/-- R117: P in its range, and for a cluster that names CN1 at least 1,600,000. -/
def State.carrierOk (s : State) (c : Nat) : Bool :=
  let p := s.get (F.PWM_CLU_CFG_CAR_P c)
  let cn1 := ((cellsOf c).filter s.inMap).any fun k => s.get (F.PWM_TYPE_TIME_NODE_TYPE (s.get (F.CELL_CFG_TYPE k))) == 1
  p % 2 == 0 && 800000 ≤ p && p ≤ 16000000 && (!cn1 || 1600000 ≤ p)

/-- R128: the cell-type rule. -/
def State.typeOk (s : State) (n : Nat) : Bool :=
  let m := s.get (F.PWM_TYPE_TIME_T_MIN n)
  let d := s.get (F.PWM_TYPE_TIME_T_DT n)
  d ≤ m && m != 0 && d != 0

/-- R124: the update setting in effect: on a v1 ring boundary only. -/
def State.updEff (s : State) (c : Nat) : Nat := if s.ringV1 c then 0 else s.get (F.PWM_CLU_CFG_UPDATE_AT c)

/-- R127: the first failing condition, 0 for none. -/
def State.pwmFail (s : State) (c : Nat) : Nat :=
  let p := s.get (F.PWM_CLU_CFG_CAR_P c)
  let room := if s.get (F.PWM_CLU_CFG_UPDATE_AT c) = 1 then p / 2 else p
  if !s.carrierOk c then 1
  else if room < s.periodU then 2
  else if !((cellsOf c).filter s.inMap).all (fun k => s.typeOk (s.get (F.CELL_CFG_TYPE k))) then 3
  else 0

/-- R127: CFG_OK and FAIL_COND; an image or a Pour that leaves a cluster not fit is logged. -/
def State.pwmJudge (s : State) (c : Nat) : State :=
  let f := s.pwmFail c
  let s1 := (s.putB (F.PWM_CLU_STAT_CFG_OK c) (f == 0)).put (F.PWM_CLU_STAT_FAIL_COND c) f
  s1.eventIf (f != 0) Ev.PWM_CFG_REFUSED noInst [.w c, .w f]

/-! ### The pulse decisions (R129, R130), in 1/256 unit -/

/-- R129: one half-bridge over a period of `p` units, with requested width `req`, debt and compensation. -/
def decide129 (p : Nat) (req debtIn dtc : Int) (tMin : Nat) : HbDec :=
  let m : Int := tMin * 256
  let q : Int := p * 256
  let w0 := req + debtIn + dtc
  let fin (on off : Nat) (grant : Int) (snap : Bool) : HbDec :=
    let d := w0 - grant
    let c := clampI (-m) m d
    { on := on, off := off, debtIn := debtIn, debt := c, dtc := dtc, clipped := c != d, snapped := snap }
  if 2 * w0 < m then fin 0 0 0 true
  else
    let w := max w0 m
    if q - w < m then fin 0xFFFFFF 0xFFFFFF q true
    else
      let g2 := max (q - w) (2 * m)
      let on := ((g2 + 256) / 512).toNat
      fin on (p - on) (((p : Int) - 2 * on) * 256) false

/-- R134: a bridge shorter than 4 × T_MIN carries exact 0 % where the duty is below 0.5 (`low`), else exact 100 %. -/
def decideShort (low : Bool) (p : Nat) (req debtIn dtc : Int) (tMin : Nat) : HbDec :=
  let m : Int := tMin * 256
  let q : Int := p * 256
  let d := req + debtIn + dtc - (if low then 0 else q)
  let c := clampI (-m) m d
  { on := if low then 0 else 0xFFFFFF, off := if low then 0 else 0xFFFFFF, debtIn := debtIn, debt := c, dtc := dtc,
    clipped := c != d, snapped := false }

/-- A special code of R120. -/
def HbDec.special (h : HbDec) : Bool := h.on == 0 || h.on == 0xFFFFFF

/-- R130: the off-compare of one half-bridge at a mid-period point; a special period stays. -/
def decide130 (p : Nat) (req dtc : Int) (tMin : Nat) (h : HbDec) : HbDec :=
  if h.special then h
  else
    let m : Int := tMin * 256
    let w := req + h.debtIn + dtc
    let off0 := rhu ((h.on : Int) * 256 + w) 8
    let off := min (max off0 (h.on + tMin)) ((p : Int) - tMin)
    let d := w - (off - h.on) * 256
    let c := clampI (-m) m d
    { h with off := off.toNat, debt := c, dtc := dtc, clipped := c != d }

/-! ### Duties (R121, R122) -/

/-- R121: N_act of a phase. -/
def State.nActive (s : State) (c ph : Nat) : Nat := ((s.phaseCells c ph).filter fun k => s.cellState k == cACTIVE).length

/-- R121: m of an ACTIVE cell as a fraction, and whether the limit held it. -/
def State.modIndex (s : State) (k : Nat) : Int × Nat × Bool :=
  let c := ringOf k
  let ph := s.phaseOf k
  let r := s.sig (s.get (F.PWM_CLU_SRC_VREF_BASE c) + ph)
  let sg := s.sig (s.get (F.PWM_CLU_SRC_SHARE_BASE c) + posOf k)
  let num : Int := ((s.get (F.PWM_CLU_VBASE_VBASE c) * 200 : Nat) : Int) * r * sg
  let den : Nat := 2 ^ 28 * s.nActive c ph * s.vdc k
  let mmax := s.get (F.CELL_CLU_CFG_MMAX c)
  if num = 0 then (0, 1, false)
  else if den = 0 ∨ decide (mmax * den < num.natAbs * 1024) then ((if 0 < num then (mmax : Int) else -(mmax : Int)), 1024, true)
  else (num, den, false)

/-- R124, R128: what the configuration gives the periods of a cell. -/
def State.timesOf (s : State) (k : Nat) : CellTimes :=
  let ty := s.get (F.CELL_CFG_TYPE k)
  { tMin := 80 * s.get (F.PWM_TYPE_TIME_T_MIN ty), tDt := 80 * s.get (F.PWM_TYPE_TIME_T_DT ty),
    mid := s.updEff (ringOf k) == 1 }

/-- R310: what a period that begins at `u` is decided with: a Pour's new values from its t_c on. -/
def State.timesAt (s : State) (k u : Nat) : CellTimes :=
  match s.eng.soon.get k with
  | some (tc, x) => if tc ≤ u then x else s.timesOf k
  | none => s.timesOf k

/-- R122: the compensation of half-bridge 0 for a dead time in units, 1/256 unit; half-bridge 1 takes the opposite. -/
def State.dtcOf (s : State) (k tDt : Nat) : Int :=
  let ty := s.get (F.CELL_CFG_TYPE k)
  let lim : Int := s.get (F.PWM_TYPE_TRIP_DTC_I ty)
  let d : Int := (tDt * 256 : Nat)
  if s.get (F.PWM_CLU_CFG_DTC (ringOf k)) = 0 then 0
  else if lim < s.iarm k then -d else if s.iarm k < -lim then d else 0

/-- The requested width of a duty (den ± num) / (2 den) over `p` units, rounded half up to 1/256 unit. -/
def reqWidth (p : Nat) (num : Int) (den : Nat) : Int := roundDiv ((p * 256 : Nat) * ((den : Int) + num)) (2 * den : Nat)

/-- R130: the same of the mean of two duties. -/
def reqWidth2 (p : Nat) (n1 : Int) (d1 : Nat) (n2 : Int) (d2 : Nat) : Int :=
  roundDiv ((p * 256 : Nat) * (2 * d1 * d2 + n1 * d2 + n2 * d1)) (4 * d1 * d2 : Nat)

/-! ### Periods (R118, R126, R134) -/

def State.bridgeOf (s : State) (k : Nat) : Option Bridge := s.eng.bridge.get k
def State.decOf (s : State) (k : Nat) : Option PwmDec := s.eng.dec.get k
def State.setDec (s : State) (k : Nat) (d : Option PwmDec) : State :=
  s.setEng fun x => { x with dec := s.eng.dec.set k d }

/-- R118, R134: the first carrier start of cell `k` at or after `t`, with the period that begins there and whether it
is the bridge. -/
def State.nextStart (s : State) (k t : Nat) : Nat × Nat × Bool :=
  let c := ringOf k
  let new (base p t : Nat) := (gridNext base (max 1 p) t, max 1 p, false)
  match s.bridgeOf k with
  | none => new (8 * s.anchor c + s.get (F.PWM_CELL_OFF_OFF k)) (s.get (F.PWM_CLU_CFG_CAR_P c)) t
  | some b =>
    let o := gridNext (8 * b.anchor + b.off) b.p t
    if o < b.b then (o, b.p, false)
    else if t ≤ b.b ∧ b.b < b.s then (b.b, b.s - b.b, true)
    else new (8 * b.anchor2 + b.off2) b.p2 (max t b.s)

/-- R131: the debt that stands after the last decision. -/
def State.debt0 (s : State) (k : Nat) : Int := s.getS (F.PWM_CELL_DEBT0_DEBT k)
def State.debt1 (s : State) (k : Nat) : Int := s.getS (F.PWM_CELL_DEBT1_DEBT k)

/-- R131: the counts of a decision whose period has begun. -/
def State.countDec (s : State) (k : Nat) (d : PwmDec) : State :=
  let clips := b2n d.h0.clipped + b2n d.h1.clipped
  let s1 := (s.count F.PWM_CNT_DEBT_CAP_COUNT clips).count F.PWM_CNT_SNAP_COUNT (b2n d.h0.snapped + b2n d.h1.snapped)
  let c := ringOf k
  (s1.setEng fun x => { x with capNew := s1.eng.capNew.set c (s1.eng.capNew.get c + clips) }).wearPeriod k
    (!d.h0.special) (!d.h1.special)

/-- R131: PWM_DEBT_CAP, at most once per second per cluster. -/
def State.logCaps (s : State) (c : Nat) : State :=
  let n := s.eng.capNew.get c
  let due : Bool := match s.eng.capAt.get c with
    | some t => decide (t + uS ≤ s.now)
    | none => true
  if n ≠ 0 ∧ due = true then
    (s.setEng fun x => { x with capNew := s.eng.capNew.set c 0, capAt := s.eng.capAt.set c (some s.now) }).event
      Ev.PWM_DEBT_CAP noInst [.w c, .w n]
  else s

/-- R131: debt set to 0, and the period no longer counts as decided: the last decision counts where its period has begun
by `t`. -/
def State.clearDebt (s : State) (k t : Nat) : State :=
  let s1 := match s.decOf k with
    | some o => if o.u < t then s.countDec k o else s
    | none => s
  ((s1.put (F.PWM_CELL_DEBT0_DEBT k) 0).put (F.PWM_CELL_DEBT1_DEBT k) 0).setDec k none

/-- R131: debt set to 0 at a slot that shows SCHED_STALE: the periods decided stand, without the debt they used. -/
def State.staleDebt (s : State) (k : Nat) : State :=
  let nil (h : HbDec) : HbDec := { h with debtIn := 0, debt := 0 }
  ((s.put (F.PWM_CELL_DEBT0_DEBT k) 0).put (F.PWM_CELL_DEBT1_DEBT k) 0).setDec k
    ((s.decOf k).map fun d => { d with h0 := nil d.h0, h1 := nil d.h1 })

/-- R129, R130, R134: the decision of cell `k` for its first update point at or after `t`. -/
def State.aim (s : State) (k t : Nat) (num : Int) (den : Nat) : PwmDec :=
  let (u, p, bridge) := s.nextStart k t
  let prev := s.decOf k
  let mid := match prev with
    | some d => d.times.mid && d.decided && decide (t ≤ d.u + d.p / 2) && decide (d.u < t)
    | none => false
  match prev, mid with
  | some d, true =>
    let dtc := s.dtcOf k d.times.tDt
    { d with h0 := decide130 d.p (reqWidth2 d.p d.dNum d.dDen num den) dtc d.times.tMin d.h0,
             h1 := decide130 d.p (reqWidth2 d.p (-d.dNum) d.dDen (-num) den) (-dtc) d.times.tMin d.h1 }
  | _, _ =>
    let times := s.timesAt k u
    let tMin := times.tMin
    let dtc := s.dtcOf k times.tDt
    let again := match prev with
      | some d => d.u == u && d.p == p
      | none => false
    let in0 := if again then (prev.map (·.h0.debtIn)).getD 0 else s.debt0 k
    let in1 := if again then (prev.map (·.h1.debtIn)).getD 0 else s.debt1 k
    let go (n : Int) := if bridge && decide (p < 4 * tMin) then decideShort (decide (n < 0)) else decide129
    { u := u, p := p, decided := !bridge, times := times, dNum := num, dDen := den,
      h0 := go num p (reqWidth p num den) in0 dtc tMin, h1 := go (-num) p (reqWidth p (-num) den) in1 (-dtc) tMin }

/-- R121: PWM_M_SAT of a phase, at most once per second. -/
def State.noteMSat (s : State) (c ph : Nat) : State :=
  let s1 := s.put (F.PWM_CLU_STAT_M_SAT c) (s.get (F.PWM_CLU_STAT_M_SAT c) ||| 2 ^ ph)
  let due := match s.eng.mSatAt.get (3 * c + ph) with
    | some t => decide (t + uS ≤ s.now)
    | none => true
  if due then
    (s1.setEng fun x => { x with mSatAt := s1.eng.mSatAt.set (3 * c + ph) (some s.now) }).event Ev.PWM_M_SAT noInst
      [.w c, .w ph]
  else s1

/-- R112–R114: a sequence commands fixed compares. -/
def CellSeq.fixed (q : CellSeq) : Bool :=
  match q with
  | .bypZero .. | .bypClose .. | .retZero .. | .retOpen .. | .fault => true
  | _ => false

/-- R123: the compares of the entry of cell `k` in this cycle. -/
def State.pwmCell (s : State) (k : Nat) : State :=
  let st := s.cellState k
  let x := s.cell k
  let base : SchedEntry := { mode := x.mode, byp := x.byp }
  if st = cACTIVE ∧ !x.seq.fixed then
    let (num, den, lim) := s.modIndex k
    let s0 := if lim then s.noteMSat (ringOf k) (s.phaseOf k) else s
    let d := s0.aim k s0.tApply num den
    let s1 := match s0.decOf k with
      | some o => if o.u = d.u then s0 else s0.countDec k o
      | none => s0
    let s2 := (s1.putS (F.PWM_CELL_DEBT0_DEBT k) d.h0.debt).putS (F.PWM_CELL_DEBT1_DEBT k) d.h1.debt
    let s3 := s2.setDec k (some d)
    s3.setCellX k { s3.cell k with staged := { base with
      cmp0 := d.h0.on, cmp1 := d.h0.off, cmp2 := d.h1.on, cmp3 := d.h1.off, new := true } }
  else
    let s1 := s.clearDebt k s.tApply
    s1.setCellX k { s1.cell k with staged := { base with new := x.seq.fixed || decide (cREADY ≤ st) } }

/-- The cells whose entry is not ABSENT, in order. -/
def State.liveCells (s : State) : List Nat :=
  ((s.listed (R.CELL_STATE 0).id).map (·.i)).filter fun k => s.cellState k ≠ cABSENT

/-- R121–R131: the PWM engine's run of a cycle, over every cell. -/
def State.pwmRun (s : State) : State :=
  let s1 := s.forN 8 fun s c => s.put (F.PWM_CLU_STAT_M_SAT c) 0
  (s1.liveCells.foldl State.pwmCell s1).forN 8 State.logCaps

/-- R131: the slot of a cell at the freeze: debt clears when it is not SWITCHING or shows SCHED_STALE. -/
def State.pwmFreeze (s : State) (k : Nat) : State :=
  if s.pstate k ≠ pSWITCHING then s.clearDebt k s.tK else if s.statusBit k 4 then s.staleDebt k else s

/-! ### Changing the carrier (R134–R136) -/

/-- R134: the bridge of one cell when its grid changes at `tc` (module time, units). -/
def mkBridge (p off anchor p2 off2 anchor2 tc : Nat) : Bridge :=
  let b := gridNext (8 * anchor + off) p tc
  { p := p, off := off, anchor := anchor, b := b, s := gridNext (8 * anchor2 + off2) p2 (b + ceilDiv p2 32),
    p2 := p2, off2 := off2, anchor2 := anchor2 }

/-- R134: the bridges of a cluster whose carrier changes at `tc`: `new` holds the new P and offsets, `old` the old
ones. -/
def State.bridges (s old new : State) (c tc : Nat) : State :=
  ((cellsOf c).filter new.inMap).foldl (fun s k =>
    s.setEng fun x => { x with bridge := s.eng.bridge.set k (some (mkBridge (old.get (F.PWM_CLU_CFG_CAR_P c))
        (old.get (F.PWM_CELL_OFF_OFF k)) (old.anchor c) (new.get (F.PWM_CLU_CFG_CAR_P c)) (new.get (F.PWM_CELL_OFF_OFF k))
        (ceilDiv tc 8) tc)) }) s

/-- R134: a cluster's carrier changes at `tc`: `s` holds the new P and offsets, `old` the old ones. -/
def State.carrierChange (s old : State) (c tc : Nat) : State :=
  let s1 := s.put64 (R.PWM_CLU_ANCHOR_LO c) (R.PWM_CLU_ANCHOR_HI c) (ceilDiv tc 8)
  let s2 := s1.bridges old s c tc
  (s2.put (F.PWM_CLU_STAT_MIXED c) 1).event Ev.PWM_TRANSITION noInst [.w c, .w (s.get (F.PWM_CLU_CFG_CAR_P c))]

/-- R135: the ACTIVE cells of a phase re-ranked among themselves; other cells keep their offsets. -/
def State.respread (s : State) (c : Nat) : State :=
  [0, 1, 2].foldl (fun s ph =>
    let l := (s.phaseCells c ph).filter fun k => s.cellState k == cACTIVE
    ((List.range l.length).zip l).foldl (fun s e =>
      (s.put (F.PWM_CELL_OFF_OFF e.2) (offsetOf (s.get (F.PWM_CLU_CFG_CAR_P c)) l.length ph
        (s.get (F.PWM_CLU_CFG_SKEW c)) e.1)).put (F.PWM_CELL_OFF_RANK e.2) e.1) s) s

/-- PWM_TRANSITION_END (R134, R310): every cell of the cluster has reached S; bypassed and marked cells are not waited
for. -/
def execPwmTransitionEnd (t : Nat) (c : RingIx) (s : State) : Host.Outcome State Fault Refusal :=
  atTime t s fun s => s.inDom domVOTE fun s =>
    let waits (k : Nat) : Bool := s.cellState k != cBYPASSED && s.cellState k != cRETIRED && !s.marked k
    let l := ((cellsOf c).filter waits).filterMap s.bridgeOf
    if s.flag (F.PWM_CLU_STAT_MIXED c) ∧ l.all (fun b => decide (b.s ≤ s.mtUnits)) then
      let s1 := (cellsOf c).foldl (fun s k => s.setEng fun x => { x with bridge := s.eng.bridge.set k none }) s
      (s1.put (F.PWM_CLU_STAT_MIXED c) 0).event Ev.PWM_TRANSITION noInst
        [.w (c : Nat), .w (s.get (F.PWM_CLU_CFG_CAR_P c))]
    else s

/-! ### Counters and delay lines (R131, R138) -/

/-- R14: a write that clears counters needs the level of a write of the register. -/
def State.clearBy (s : State) (n : Nat) (r : Reg) (act : State → State) : Status × State :=
  match rowOf r with
  | none => (.badAddr, s)
  | some x =>
    match s.needLevel n (s.writeLevel x) with
    | .ok => (.ok, act s)
    | e => (e, s)

/-- R131: a write of PWM_STATUS with any value clears the two counters. -/
def State.pwmClear (s : State) (n : Nat) : Status × State :=
  s.clearBy n R.PWM_STATUS fun s => (s.put F.PWM_CNT_DEBT_CAP_COUNT 0).put F.PWM_CNT_SNAP_COUNT 0

/-- PWM_CNT_CLEAR (R131). -/
def execPwmCntClear (t : Nat) (n : SessIx) (s : State) : Host.Outcome State Fault Refusal :=
  atTime t s fun s => s.access n domVOTE fun s => s.pwmClear n

/-- DLY_CAL (R138): a calibration: the largest tap error of each of the three leg groups, ps, and whether the servo
reached the end of its range. -/
def State.dlyCal (s : State) (e0 e1 e2 : Nat × Bool) : State :=
  let l := [(0, e0), (1, e1), (2, e2)]
  let bad (g : Nat × Nat × Bool) : Bool := decide (40 < g.2.1) || g.2.2
  let fails := l.filter bad
  let s1 := (s.countWrap F.PWM_DLY_STAT_CAL_COUNT).putSat F.PWM_DLY_STAT_ERR_PS (max e0.1 (max e1.1 e2.1))
  let s2 := fails.foldl (fun s g => (s.put F.PWM_DLY_STAT_CAL_FAIL 1).event Ev.PWM_DLY_CAL_FAIL noInst [.w g.1]) s1
  if fails.isEmpty then s2.put F.PWM_DLY_STAT_CAL_OK 1 else s2

/-- DLY_CAL (R138): every 1 ms. -/
def execDlyCal (t : Nat) (e0 e1 e2 : Nat × Bool) (s : State) : Host.Outcome State Fault Refusal :=
  atTime t s fun s => s.inDom domANA fun s => s.dlyCal e0 e1 e2

end Sys2Proof.Machine
end

