-- ==== Sys2Proof/Machine/Grid.lean ====
section
/-! DEFINITION. Grid synchronisation (R159–R174): sources, estimator, frequency states, projection, phase currents. -/

namespace Sys2Proof.Machine

def State.gpt (s : State) (p : Nat) : GridPt := s.grid.pt.get p
def State.setGpt (s : State) (p : Nat) (x : GridPt) : State :=
  s.setGrid fun y => { y with pt := s.grid.pt.set p x }
def State.gclu (s : State) (c : Nat) : GridClu := s.grid.clu.get c
def State.setGclu (s : State) (c : Nat) (x : GridClu) : State :=
  s.setGrid fun y => { y with clu := s.grid.clu.set c x }
def State.gcell (s : State) (k : Nat) : GridCell := s.grid.cell.get k
def State.setGcell (s : State) (k : Nat) (x : GridCell) : State :=
  s.setGrid fun y => { y with cell := s.grid.cell.set k x }

/-- R161, R168: codes. -/
abbrev srcSV : Nat := 0
abbrev srcBSI : Nat := 1
abbrev srcBLIND : Nat := 2
abbrev srcNONE : Nat := 3
abbrev fNOV : Nat := 0
abbrev fSETTLING : Nat := 1
abbrev fTRACKING : Nat := 2
abbrev fDIP : Nat := 3
abbrev fHOLD : Nat := 4

def State.source (s : State) (p : Nat) : Nat := s.get (F.GRID_PT_STAT_SOURCE p)
def State.fstate (s : State) (p : Nat) : Nat := s.get (F.GRID_PT_STAT_FSTATE p)

/-- R159: the nominal frequency, Hz. -/
def State.fnom (s : State) : Nat := if s.get F.GRID_CFG_FNOM = 1 then 60 else 50

/-- `n` half line periods have passed between two instants. -/
def State.halfLines (s : State) (n from_ to_ : Nat) : Bool := decide (n * uS ≤ 2 * s.fnom * (to_ - from_))

/-- R159: a point in use. -/
def State.ptUsed (s : State) (p : Nat) : Bool := s.get (F.GRID_PT_VNOM_VNOM p) != 0

/-- R161: the sync point of a cluster. -/
def State.syncPt (s : State) (c : Nat) : Nat := s.get (F.GRID_CLU_CFG_SYNC_PT c)

/-! ### Phasors (R164) -/

/-- R164: twice the positive-sequence and negative-sequence phasors. -/
def Sogi.pos2 (e : Sogi) : Int × Int := (e.v1a - e.v2b, e.v2a + e.v1b)
def Sogi.neg2 (e : Sogi) : Int × Int := (e.v1a + e.v2b, e.v1b - e.v2a)

/-- The square of a magnitude of a doubled phasor, times 4. -/
def mag2 (v : Int × Int) : Nat := (v.1 * v.1 + v.2 * v.2).toNat

/-- A doubled phasor of at least `m` hundredths of 1 pu; above it. -/
def geMag (v : Int × Int) (m : Nat) : Bool := decide ((2 * m) ^ 2 * 2 ^ 60 ≤ 10000 * mag2 v)
def gtMag (v : Int × Int) (m : Nat) : Bool := decide ((2 * m) ^ 2 * 2 ^ 60 < 10000 * mag2 v)

/-- R168: the sequence that dominates by SEQ_REVERSED. -/
def State.dominant (s : State) (p : Nat) (e : Sogi) : Int × Int :=
  if s.flag (F.GRID_PT_STAT_SEQ_REVERSED p) then e.neg2 else e.pos2

/-- R164: g for a frequency, the nominal one and a rate. -/
def sogiGain (w : Int) (fnom rate : Nat) : Int := roundFree (2 * sinTurn (w.toNat * fnom) (2 ^ 31 * rate)) (2 ^ 50)

/-- R164: one SOGI. -/
def sogiStep (k g v v1 v2 : Int) : Int × Int :=
  let e := qmul k (v - v1) - v2
  let n1 := v1 + qmul g e
  (n1, v2 + qmul g n1)

/-- R164: the amplitude-invariant Clarke transform, and the zero sequence. -/
def clarke (a b c : Int) : Int × Int × Int :=
  (roundFree (2 * a - b - c) 3, roundFree ((b - c) * isqrt (3 * 2 ^ 120)) (3 * 2 ^ 60), roundFree (a + b + c) 3)

/-- R164: one sample into an estimator; `fll` says whether the frequency loop runs. -/
def Sogi.step (e : Sogi) (k gamma : Nat) (fnom rate : Nat) (rev fll : Bool) (va vb v0 : Int) : Sogi :=
  let g := sogiGain e.w fnom rate
  let kq : Int := k * 65536
  let a := sogiStep kq g va e.v1a e.v2a
  let b := sogiStep kq g vb e.v1b e.v2b
  let z := sogiStep kq g v0 e.v10 e.v20
  let n : Sogi := { e with v1a := a.1, v2a := a.2, v1b := b.1, v2b := b.2, v10 := z.1, v20 := z.2,
                           xa := va, xb := vb, x0 := v0, ya := e.xa, yb := e.xb, y0 := e.x0 }
  let d := if rev then n.neg2 else n.pos2
  let w := if fll && geMag d 10 then
      e.w - roundFree ((gamma : Int) * ((va - n.v1a) * n.v2a + (vb - n.v1b) * n.v2b) * 4 * 2 ^ 30)
        ((rate * mag2 d : Nat) : Int)
    else e.w
  { n with w := clampI (q1 / 2) (q1 + q1 / 2) w }

/-- R165: the quadrature of a wave from its last two samples: v2 = (y − x cos δ) / sin δ, δ the angle of one sample. -/
def quadrature (w : Int) (fnom rate : Nat) (x y : Int) : Int :=
  let num := w.toNat * fnom
  let den := 2 ^ 30 * rate
  let sn := sinTurn num den
  if sn = 0 then y else roundFree (y * 2 ^ 80 - x * cosTurn num den) sn

/-- R163, R166: an oscillator's phase advanced by an angle in 2^-32 turn. -/
def rotPair (a b by_ : Int) : Int × Int :=
  let c := codeOf 32 by_
  let cs := cosTurn c (2 ^ 32)
  let sn := sinTurn c (2 ^ 32)
  (roundFree (a * cs - b * sn) (2 ^ 80), roundFree (a * sn + b * cs) (2 ^ 80))

/-- R161, R163: an estimator advanced by its own prediction over `dt` units: the oscillators rotate at its frequency, and
the predicted wave stands in for the last sample. -/
def Sogi.predict (e : Sogi) (fnom : Nat) (dt : Int) : Sogi :=
  let by_ := roundFree (e.w * dt * (fnom * 4 : Nat)) uS
  let a := rotPair e.v1a e.v2a by_
  let b := rotPair e.v1b e.v2b by_
  let z := rotPair e.v10 e.v20 by_
  { e with v1a := a.1, v2a := a.2, v1b := b.1, v2b := b.2, v10 := z.1, v20 := z.2, xa := a.1, xb := b.1, x0 := z.1 }

/-- R161, R166: the estimator whose newest sample was at `last` brought to one sample period before `ts`, where the two
differ by more than 1 ns. -/
def Sogi.align (e : Sogi) (fnom rate : Nat) (last : Option Nat) (ts : Nat) : Sogi :=
  match last with
  | none => e
  | some u =>
    let dt : Int := (ts : Int) - (uS / max 1 rate : Nat) - u
    if dt.natAbs ≤ uNs then e else e.predict fnom dt

/-- R165: a reset of the estimator at the newest sample, at most one per sample. -/
def State.gridReset (s : State) (p : Nat) : State :=
  let x := s.gpt p
  if x.resetAt.isSome ∧ x.resetAt = x.ts then s
  else
    let e := x.est
    let w := x.valid.getD q1
    let e1 := { e with v1a := e.xa, v1b := e.xb, v2a := quadrature w s.fnom x.rate e.xa e.ya,
                       v2b := quadrature w s.fnom x.rate e.xb e.yb, v10 := e.x0,
                       v20 := quadrature w s.fnom x.rate e.x0 e.y0, w := w }
    (s.setGpt p { x with est := e1, hist := [], jumpN := 0, resetAt := x.ts }).count (F.GRID_PT_CNT_RESETS p) 1

/-- R168, R169, R165: what GRID_PT_STAT, FREQ and ROCOF report. -/
def mean (l : List Int) : Option Int :=
  if l.isEmpty then none else some (roundFree (l.foldl (· + ·) 0) l.length)

def State.gridReport (s : State) (p : Nat) : State :=
  let x := s.gpt p
  let st := s.fstate p
  let f := s.fnom
  let ts := x.ts.getD 0
  let rep := match st with
    | 2 => x.est.w
    | 3 => x.rep
    | 4 => x.valid.getD q1
    | _ => q1
  let wasValid := s.flag (F.GRID_PT_STAT_FREQ_VALID p)
  let fv := match st with
    | 2 => true
    | 3 => wasValid
    | 4 => true
    | _ => false
  let since4 := max (x.resetAt.getD 0) x.dipEnd
  let new := (x.hist.filter fun h => !s.halfLines 2 h.1 ts).map (·.2)
  let old := (x.hist.filter fun h => s.halfLines 2 h.1 ts && !s.halfLines 4 h.1 ts).map (·.2)
  let rv := st == 2 && s.halfLines 8 since4 ts && !old.isEmpty
  let rocof : Int := match mean new, mean old with
    | some a, some b => if rv then roundFree ((a - b) * (f * f * 1000 : Nat)) (2 ^ 30) else 0
    | _, _ => 0
  let ph := s.source p != srcNONE && st != 0 && (match x.resetAt with
    | some r => decide (uS ≤ 4 * f * (ts - r))
    | none => false)
  let s1 := ((s.putB (F.GRID_PT_STAT_FREQ_VALID p) fv).putB (F.GRID_PT_STAT_ROCOF_VALID p) rv).putB
    (F.GRID_PT_STAT_FREQ_HOLD p) (st == 4 || (st == 3 && fv))
  let s2 := ((s1.putB (F.GRID_PT_STAT_PH_VALID p) ph).put (F.GRID_PT_FREQ_FREQ p)
    (roundFree (rep * (f * 1000 : Nat)) (2 ^ 30)).toNat).putS (F.GRID_PT_ROCOF_ROCOF p) rocof
  s2.setGpt p { x with rep := rep, valid := if st == 2 then some x.est.w else x.valid }

/-- R168: FSTATE changes, and the reports with it. -/
def State.setF (s : State) (p st : Nat) : State := (s.put (F.GRID_PT_STAT_FSTATE p) st).gridReport p

/-- R163: the magnitudes of NONE are 0, so a source entered from it starts from oscillators at rest. -/
def Sogi.rest (e : Sogi) : Sogi := { w := e.w }

/-- R161: a source switch. -/
def State.setSource (s : State) (p src : Nat) : State :=
  let old := s.source p
  if old = src then s
  else
    let s1 := ((s.put (F.GRID_PT_STAT_SOURCE p) src).count (F.GRID_PT_CNT_SRC_SW p) 1).event Ev.GRID_SOURCE noInst
      [.w p, .w old, .w src]
    let x := s1.gpt p
    let s2 := s1.setGpt p { x with blindAt := if src = srcBLIND then some s.now else none, toBsi := false,
                                   est := if old = srcNONE then x.est.rest else x.est }
    if src = srcNONE then ((s2.setGpt p { s2.gpt p with dip := none, holdAt := none }).setF p fNOV).event
      Ev.GRID_BLIND_END noInst [.w p]
    else s2

/-- R161: a point at image load. -/
def State.gridLoad (s : State) (p : Nat) : State :=
  let s1 := s.setGpt p {}
  let s2 := (s1.put (F.GRID_PT_STAT_SOURCE p) (if s.flag (F.GRID_PT_SRC_SV_EN p) then srcSV else srcNONE)).put
    (F.GRID_PT_STAT_BSI_FIT p) 0
  (s2.put (F.GRID_PT_STAT_SEQ_REVERSED p) 0).setF p fNOV

/-- R162: SV or BSI has ceased: no comparison runs. -/
def State.bsiApart (s : State) (p : Nat) : State := s.setGpt p { s.gpt p with outAt := none, inAt := none }

/-- R170: a Pour has changed the point's settings: the estimator resets; NO_VOLTAGE, or SETTLING with voltage present; a
point out of use stays in NO_VOLTAGE (R159). -/
def State.gridReconfig (s : State) (p : Nat) : State :=
  let s1 := (s.setGpt p { s.gpt p with dip := none, holdAt := none, resetAt := none, expect := none, gaps := [],
                                       missRun := none, good := 0, toBsi := false }).gridReset p
  (s1.setF p (if s.ptUsed p ∧ s.source p ≠ srcNONE ∧ gtMag (s1.dominant p (s1.gpt p).est) 11 then fSETTLING
    else fNOV)).bsiApart p

/-- R166, R167: the detectors at a sample: difference of the raw angle, deviating samples in a row, dominance. -/
def State.gridDetect (s : State) (p : Nat) (e0 : Sogi) (ts : Nat) : State :=
  let x := s.gpt p
  let e := x.est
  let raw := angle32 (e.xa - e.v2b) (e.v2a + e.xb)
  let last := angle32 e0.pos2.1 e0.pos2.2
  let step := roundFree (e0.w * (s.fnom * 4 : Nat)) x.rate
  let diff := wrap32 ((raw : Int) - last - step)
  let lim : Nat := s.get F.GRID_CFG_JUMP_TH * 2 ^ 32
  let dev := decide (lim < 360 * diff.natAbs) && geMag e.pos2 10
  let rev := s.flag (F.GRID_PT_STAT_SEQ_REVERSED p)
  let pos := mag2 e.pos2
  let neg := mag2 e.neg2
  let other := if rev then decide (neg < pos) && geMag e.pos2 10 else decide (pos < neg) && geMag e.neg2 10
  let shown : Option Int := if s.flag (F.GRID_PT_STAT_FREQ_VALID p) then some x.rep else none
  s.setGpt p { x with
    jumpN := if dev then x.jumpN + 1 else 0, jumpHit := dev && decide (2 ≤ x.jumpN), jumpBy := diff,
    revAt := if other then some (x.revAt.getD ts) else none,
    jumpRep := if dev && x.jumpN == 0 then shown else x.jumpRep,
    revRep := if other && x.revAt.isNone then shown else x.revRep,
    shifts := ((ts, diff) :: x.shifts).filter fun h => !s.halfLines 2 h.1 ts,
    hist := ((ts, e.w) :: x.hist).filter fun h => !s.halfLines 4 h.1 ts }

/-- R168: the frequency state at a sample: loss, return and convergence. -/
def State.gridState (s : State) (p ts : Nat) : State :=
  let x := s.gpt p
  let st := s.fstate p
  let d := s.dominant p x.est
  if st = fNOV then
    if gtMag d 11 ∧ s.source p ≠ srcNONE then
      ((s.gridReset p).setF p fSETTLING).event Ev.GRID_VOLTAGE_RETURN noInst [.w p]
    else s.gridReport p
  else if st = fDIP then
    match x.dip with
    | some (at_, from_) =>
      if gtMag d 11 ∧ ts ≤ at_ + 20 * uMs then (s.setGpt p { x with dip := none, dipEnd := ts }).setF p from_
      else s.gridReport p
    | none => s.gridReport p
  else if !geMag d 10 then (s.setGpt p { x with dip := some (ts, st) }).setF p fDIP
  else if st = fHOLD then
    let half := (x.hist.filter fun h => s.halfLines 1 h.1 ts).head?
    let moved := match half with
      | some h => decide (20 * s.fnom * (x.est.w - h.2).natAbs < 2 ^ 30)
      | none => false
    if moved && (match x.resetAt with
        | some r => s.halfLines 2 r ts
        | none => false) then (s.setGpt p { x with holdAt := none }).setF p fTRACKING
    else s.gridReport p
  else s.gridReport p

/-- R164–R169: the estimator takes one sample of its present source. -/
def State.gridSample (s : State) (p ts rate : Nat) (a b c : Int) : State :=
  let x := s.gpt p
  let (va, vb, v0) := clarke a b c
  let e0 := x.est.align s.fnom rate x.ts ts
  let e1 := e0.step (s.get (F.GRID_PT_FLL_K p)) (s.get (F.GRID_PT_FLL_GAMMA p)) s.fnom rate
    (s.flag (F.GRID_PT_STAT_SEQ_REVERSED p)) (s.fstate p != fDIP) va vb v0
  let s1 := s.setGpt p { x with est := e1, ts := some ts, rate := rate }
  ((s1.gridDetect p e0 ts).gridState p ts)

/-! ### Samples (R160–R162) -/

/-- R160: a missing or late sample is counted; GRID_SV_LATE at most once per second. -/
def State.gridLost (s : State) (p n : Nat) : State :=
  let s1 := s.count (F.GRID_PT_CNT_LOST p) n
  let x := s1.gpt p
  let due : Bool := match x.lateAt with
    | some t => decide (t + uS ≤ s.now)
    | none => true
  if n ≠ 0 ∧ due = true then
    (s1.setGpt p { x with lateN := 0, lateAt := some s.now }).event Ev.GRID_SV_LATE noInst [.w (x.lateN + n)]
  else s1.setGpt p { x with lateN := x.lateN + n }

/-- R161: the three BSI channels of a point. -/
def State.bsiChans (s : State) (p : Nat) : List Nat :=
  [s.get (F.GRID_PT_SRC_BSI_A p), s.get (F.GRID_PT_SRC_BSI_B p), s.get (F.GRID_PT_SRC_BSI_C p)]

/-- R161: BSI can take over from SV: enabled, fit, and its three channels run. -/
def State.bsiReady (s : State) (p : Nat) : Bool :=
  s.flag (F.GRID_PT_SRC_BSI_EN p) && s.flag (F.GRID_PT_STAT_BSI_FIT p) &&
    (s.bsiChans p).all fun c => s.flag (F.BSI_STAT_RUNNING c)

/-- One sampling period of a rate, units. -/
def sampleU (rate : Nat) : Nat := uS / max 1 rate

/-- Two instants belong to the same sample of a rate. -/
def sameSample (rate a b : Nat) : Bool := decide (2 * ((a : Int) - b).natAbs < sampleU rate)

/-- R161: the estimator of a point on SV advances by its own prediction over a missing sample that is newer than the
newest it has taken. -/
def State.gridAdvance (s : State) (p e : Nat) : State :=
  let x := s.gpt p
  match x.ts with
  | some u =>
    if u < e then s.setGpt p { x with est := x.est.predict s.fnom ((e : Int) - u), ts := some e,
                                      hist := ((e, x.est.w) :: x.hist).filter fun h => !s.halfLines 4 h.1 e }
    else s
  | none => s

/-- R160, R161: the expected SV sample of instant `e` is found missing: it is counted; the estimator predicts over the
first and the second in a row, and the third ends SV as the source: at once for BLIND, at its next sample for BSI. -/
def State.svMissing (s : State) (p e : Nat) : State :=
  let s1 := s.gridLost p 1
  let x := s1.gpt p
  let n := match x.missRun with
    | some (u, n) => if sameSample x.svRate (u + sampleU x.svRate) e then n + 1 else 1
    | none => 1
  let s2 := s1.setGpt p { x with missRun := some (e, n), missed := (e :: x.missed).take 64, good := 0,
                                 gaps := x.gaps.filter fun g => !sameSample x.svRate g e,
                                 expect := if x.expect.any (sameSample x.svRate e) then some (e + sampleU x.svRate) else x.expect }
  if n < 3 then (if s.source p = srcSV then s2.gridAdvance p e else s2)
  else
    let s3 := s2.bsiApart p
    if s.source p ≠ srcSV then s3
    else if s.bsiReady p then s3.setGpt p { s3.gpt p with toBsi := true }
    else s3.setSource p srcBLIND

/-- R161: the samples expected before `ts` that have not come. -/
def State.svGaps (s : State) (p ts : Nat) : List Nat :=
  let x := s.gpt p
  match x.expect with
  | some e => if e < ts then (List.range (min 400 ((ts - e + sampleU x.svRate / 2) / sampleU x.svRate))).map
      fun i => e + i * sampleU x.svRate else []
  | none => []

/-- R160: a sample that comes too late, or not after one already used, counts as missing: once. -/
def State.svLate (s : State) (p ts : Nat) : State :=
  let x := s.gpt p
  if x.missed.any (sameSample x.svRate ts) then s
  else
    let l := s.svGaps p ts
    (s.setGpt p { x with gaps := x.gaps ++ l, expect := x.expect.map fun e => if e ≤ ts then ts else e }).svMissing p ts

/-- R160–R162: an SV sample passed as good by the process bus, per unit, with its sampling instant. -/
def State.svSample (s : State) (p ts rate : Nat) (a b c : Int) : State :=
  if !s.ptUsed p || !s.flag (F.GRID_PT_SRC_SV_EN p) then s
  else
    let x := s.gpt p
    let late := decide (ts + s.get (F.GRID_PT_LAT_LAT_MAX p) * (uMs / 10) < s.mtUnits)
    let old := match x.svTs with
      | some u => decide (ts ≤ u)
      | none => false
    if late || old then s.svLate p ts
    else
      let l := s.svGaps p ts
      let (va, vb, v0) := clarke a b c
      let e1 := (x.sv.align s.fnom rate x.svTs ts).step (s.get (F.GRID_PT_FLL_K p)) (s.get (F.GRID_PT_FLL_GAMMA p)) s.fnom
        rate false true va vb v0
      let s2 := s.setGpt p { x with sv := e1, svTs := some ts, svRate := rate, expect := some (ts + sampleU rate),
                                    gaps := x.gaps ++ l, everSv := true, good := if l.isEmpty then x.good + 1 else 1 }
      let s3 := if s.source p ≠ srcSV ∧ 8 ≤ x.good then s2.setSource p srcSV else s2
      if s3.source p = srcSV then s3.gridSample p ts rate a b c else s3

/-- SV_SAMPLE_MISSING (R161, R240): the instant and LAT_MAX of the earliest expected sample have passed; the third in a
row interrupts the subscription. -/
def execSvSampleMissing (t : Nat) (p : PointIx) (s : State) : Host.Outcome State Fault Refusal :=
  atTime t s fun s => s.inDom domVOTE fun s =>
    let x := s.gpt p
    match x.gaps.head?.or x.expect with
    | some e =>
      if e + s.get (F.GRID_PT_LAT_LAT_MAX p) * (uMs / 10) < s.mtUnits then
        let s1 := s.svMissing p e
        let j := s.get (F.GRID_PT_SRC_SUB p)
        if 3 ≤ ((s1.gpt p).missRun.map (·.2)).getD 0 ∧ s1.get (F.SV_SUB_STAT_STATE j) = 2 then
          { s1.put (F.SV_SUB_STAT_STATE j) 3 with
            bus := { s1.bus with sub := s1.bus.sub.set j { s1.bus.sub.get j with good := 0 } } }
        else s1
      else s
    | none => s

/-- GRID_BLIND_END (R161): 100 ms in BLIND. -/
def execGridBlindEnd (t : Nat) (p : PointIx) (s : State) : Host.Outcome State Fault Refusal :=
  atTime t s fun s => s.inDom domVOTE fun s =>
    if s.source p = srcBLIND ∧ s.due ((s.gpt p).blindAt.map (· + 100 * uMs)) then s.setSource p srcNONE else s

/-- R162: while both are present, the phasor of BSI against that of SV at the BSI instant: magnitude in 0.01 %, angle in
0.01°. SV is present until three of its samples in a row are missing. -/
def State.bsiCompare (s : State) (p : Nat) : State :=
  let x := s.gpt p
  let here := match x.missRun, x.svTs with
    | some (e, n), some u => decide (n < 3) || decide (e < u)
    | _, _ => true
  match x.svTs, x.bsiTs with
  | some u, some v =>
    if !here then s
    else
      let ms := sqrtFree (mag2 x.sv.pos2)
      let mb := sqrtFree (mag2 x.bsi.pos2)
      let adv := roundFree (x.sv.w * ((v : Int) - u) * (s.fnom * 4 : Nat)) uS
      let d := wrap32 ((angle32 x.bsi.pos2.1 x.bsi.pos2.2 : Int) - angle32 x.sv.pos2.1 x.sv.pos2.2 - adv)
      let me := ratioFree (((mb : Int) - ms) * 10000) ms
      let ae := roundFree (d * 36000) (2 ^ 32)
      let out := decide (200 < me.natAbs) || decide (200 < ae.natAbs)
      let s1 := (s.putS (F.GRID_PT_BSI_ERR_MAG_ERR p) me).putS (F.GRID_PT_BSI_ERR_ANG_ERR p) ae
      s1.setGpt p { x with outAt := if out then some (x.outAt.getD s.now) else none,
                           inAt := if out then none else some (x.inAt.getD s.now) }
  | _, _ => s

/-- R161, R162: the three channels of a point have a sample at their instant, per unit; `run` says that all three
channels run. -/
def State.bsiPoint (s : State) (p ts : Nat) (run : Bool) (a b c : Int) : State :=
  if !s.ptUsed p || !s.flag (F.GRID_PT_SRC_BSI_EN p) || !run then s
  else
    let x := s.gpt p
    let enter := (s.source p == srcNONE && (!s.flag (F.GRID_PT_SRC_SV_EN p) || !x.everSv)) ||
      (s.source p == srcSV && x.toBsi)
    let s1 := if enter then s.setSource p srcBSI else s
    let (va, vb, v0) := clarke a b c
    let b1 := (x.bsi.align s.fnom 14400 x.bsiTs ts).step (s.get (F.GRID_PT_FLL_K p)) (s.get (F.GRID_PT_FLL_GAMMA p)) s.fnom 14400 false true va vb v0
    let s2 := (s1.setGpt p { s1.gpt p with bsi := b1, bsiTs := some ts }).bsiCompare p
    if s2.source p = srcBSI then s2.gridSample p ts 14400 a b c else s2

/-- R161: a channel has stopped: a point that runs on it, or was to run on it, goes to BLIND at once. -/
def State.bsiGone (s : State) (ch : Nat) : State :=
  s.forN 9 fun s p =>
    if !(s.bsiChans p).contains ch || !s.flag (F.GRID_PT_SRC_BSI_EN p) then s
    else
      let s1 := s.bsiApart p
      if s.source p = srcBSI ∨ (s.source p = srcSV ∧ (s.gpt p).toBsi) then s1.setSource p srcBLIND else s1

/-- GRID_BSI_UNFIT (R162): outside the limits for 1 s. -/
def execGridBsiUnfit (t : Nat) (p : PointIx) (s : State) : Host.Outcome State Fault Refusal :=
  atTime t s fun s => s.inDom domVOTE fun s =>
    if s.flag (F.GRID_PT_STAT_BSI_FIT p) ∧ s.due ((s.gpt p).outAt.map (· + uS)) then
      (s.put (F.GRID_PT_STAT_BSI_FIT p) 0).event Ev.GRID_BSI_UNFIT noInst [.w (p : Nat)]
    else s

/-- GRID_BSI_FIT (R162): within both limits for 10 s. -/
def execGridBsiFit (t : Nat) (p : PointIx) (s : State) : Host.Outcome State Fault Refusal :=
  atTime t s fun s => s.inDom domVOTE fun s =>
    if s.due ((s.gpt p).inAt.map (· + 10 * uS)) then s.put (F.GRID_PT_STAT_BSI_FIT p) 1 else s

/-! ### Jumps, reversals and the states (R166–R168) -/

/-- R168: what a jump or a reversal does to the frequency state; `before` is the valid value reported before the first
sample that counted toward it. -/
def State.gridUpset (s : State) (p : Nat) (before : Option Int) : State :=
  let st := s.fstate p
  let x := s.gpt p
  let x1 := { x with valid := before.or x.valid }
  if st = fTRACKING then
    let s1 := (s.setGpt p { x1 with holdAt := x.ts }).gridReset p
    s1.setF p fHOLD
  else if st = fDIP then
    let s1 := (s.setGpt p { x1 with dip := none, dipEnd := x.ts.getD 0, holdAt := some (x.holdAt.getD (x.ts.getD 0)) }).gridReset p
    s1.setF p fHOLD
  else s.gridReset p |>.gridReport p

/-- GRID_PHASE_JUMP (R166): three deviating samples in a row. -/
def execGridPhaseJump (t : Nat) (p : PointIx) (s : State) : Host.Outcome State Fault Refusal :=
  atTime t s fun s => s.inDom domVOTE fun s =>
    let x := s.gpt p
    if x.jumpHit ∧ s.fstate p ≠ fNOV then
      let s1 := (s.count (F.GRID_PT_CNT_JUMPS p) 1).gridUpset p x.jumpRep
      (s1.setGpt p { s1.gpt p with jumpN := 0, jumpHit := false }).event Ev.GRID_PHASE_JUMP noInst
        [.w (p : Nat), .w (angleCode x.jumpBy)]
    else s

/-- GRID_SEQ_REVERSED (R167): the other sequence has dominated for half a line period. -/
def execGridSeqReversed (t : Nat) (p : PointIx) (s : State) : Host.Outcome State Fault Refusal :=
  atTime t s fun s => s.inDom domVOTE fun s =>
    let x := s.gpt p
    match x.revAt, x.ts with
    | some from_, some ts =>
      if s.halfLines 1 from_ ts then
        let new := 1 - s.get (F.GRID_PT_STAT_SEQ_REVERSED p)
        let s1 := (s.put (F.GRID_PT_STAT_SEQ_REVERSED p) new).gridUpset p x.revRep
        (s1.setGpt p { s1.gpt p with revAt := none }).event Ev.GRID_SEQ_REVERSED noInst [.w (p : Nat), .w new]
      else s
    | _, _ => s

/-- GRID_VOLTAGE_LOST (R168): at the first sample later than 20 ms after the loss. -/
def execGridVoltageLost (t : Nat) (p : PointIx) (s : State) : Host.Outcome State Fault Refusal :=
  atTime t s fun s => s.inDom domVOTE fun s =>
    let x := s.gpt p
    match x.dip, x.ts with
    | some (at_, _), some ts =>
      if s.fstate p = fDIP ∧ at_ + 20 * uMs < ts then
        ((s.setGpt p { x with dip := none, holdAt := none }).setF p fNOV).event Ev.GRID_VOLTAGE_LOST noInst [.w (p : Nat)]
      else s
    | _, _ => s

/-- GRID_SETTLED (R168): two line periods after the last reset. -/
def execGridSettled (t : Nat) (p : PointIx) (s : State) : Host.Outcome State Fault Refusal :=
  atTime t s fun s => s.inDom domVOTE fun s =>
    let x := s.gpt p
    match x.resetAt, x.ts with
    | some r, some ts => if s.fstate p = fSETTLING ∧ s.halfLines 4 r ts then s.setF p fTRACKING else s
    | _, _ => s

/-- GRID_HOLD_EXPIRED (R168): two line periods after the first reset of the hold. -/
def execGridHoldExpired (t : Nat) (p : PointIx) (s : State) : Host.Outcome State Fault Refusal :=
  atTime t s fun s => s.inDom domVOTE fun s =>
    let x := s.gpt p
    match x.holdAt, x.ts with
    | some h, some ts =>
      if s.fstate p = fHOLD ∧ s.halfLines 4 h ts then
        (((s.setGpt p { x with holdAt := none }).gridReset p).setF p fSETTLING).event Ev.GRID_HOLD_EXPIRED noInst
          [.w (p : Nat)]
      else s
    | _, _ => s

/-! ### Projection (R171) and quantities (R172) -/

/-- R171: the angle by which a point's phasors have moved since its newest sample, 2^-32 turn: at FREQ, and in BLIND and
NONE at the estimator's last frequency (R163). -/
def State.gridMove (s : State) (p : Nat) : Int :=
  let x := s.gpt p
  let w := if s.source p = srcBLIND ∨ s.source p = srcNONE then x.est.w else x.rep
  roundFree (w * ((s.tK : Int) - x.ts.getD s.tK) * (s.fnom * 4 : Nat)) uS

/-- R163, R171: magnitude code and angle (2^-32 turn) of the positive, negative and zero sequence at T_k. -/
def State.gridSeq (s : State) (p kind : Nat) : Int × Int :=
  let e := (s.gpt p).est
  let v := match kind with
    | 0 => e.pos2
    | 1 => e.neg2
    | _ => (2 * e.v10, 2 * e.v20)
  let m := if s.source p = srcNONE ∨ !s.ptUsed p then 0 else sat16 (roundFree (sqrtFree (mag2 v)) (2 ^ 17))
  let a : Int := angle32 v.1 v.2
  (m, if kind = 1 then a - s.gridMove p else a + s.gridMove p)

/-- v cos θ and v sin θ of a code and an angle. -/
def polar (m : Int) (a : Int) : Int × Int :=
  let c := codeOf 32 a
  (roundFree (m * cosTurn c (2 ^ 32)) (2 ^ 80), roundFree (m * sinTurn c (2 ^ 32)) (2 ^ 80))

/-- R166: VSHIFT, 2^-32 turn. -/
def State.vshift (s : State) (p : Nat) : Int :=
  ((s.gpt p).shifts.map (·.2)).foldl (fun a d => if a.natAbs < d.natAbs then d else a) 0

/-- R171: GRID_PT_VPOS and VNEG at a freeze. -/
def State.gridShow (s : State) (p : Nat) : State :=
  if !s.ptUsed p then (s.setWord (R.GRID_PT_VPOS p) 0).setWord (R.GRID_PT_VNEG p) 0
  else
    let (m, a) := s.gridSeq p 0
    let (n, b) := s.gridSeq p 1
    let s1 := (s.putS (F.GRID_PT_VPOS_MAG p) m).put (F.GRID_PT_VPOS_ANGLE p) (codeOf 16 (angleCode a))
    (s1.putS (F.GRID_PT_VNEG_MAG p) n).put (F.GRID_PT_VNEG_ANGLE p) (codeOf 16 (angleCode b))

/-- R172: a point's quantity. -/
def State.ptQty (s : State) (p q : Nat) : Int :=
  if !s.ptUsed p then 0
  else match q with
    | 0 => (s.gridSeq p 0).1
    | 1 => angleCode (s.gridSeq p 0).2
    | 2 => (s.gridSeq p 1).1
    | 3 => angleCode (s.gridSeq p 1).2
    | 4 => (s.gridSeq p 2).1
    | 5 => angleCode (s.gridSeq p 2).2
    | 6 => (polar (s.gridSeq p 0).1 (s.gridSeq p 0).2).1 + (polar (s.gridSeq p 1).1 (s.gridSeq p 1).2).1
    | 7 => (polar (s.gridSeq p 0).1 (s.gridSeq p 0).2).2 + (polar (s.gridSeq p 1).1 (s.gridSeq p 1).2).2
    | 8 => sat16 (roundFree (s.gpt p).rep 65536)
    | 9 => clampI (-32768) 32767 (roundFree (s.getS (F.GRID_PT_ROCOF_ROCOF p) * 16384) 4000)
    | 10 => angleCode (s.vshift p)
    | 11 => signedOf 16 (s.word (R.GRID_PT_STAT p)).toNat
    | _ => 0

/-! ### Phase currents (R173) -/

/-- The middle of three values. -/
def median3 (a b c : Int) : Int := max (min a b) (min (max a b) c)

/-- R173: a cell's current, 0x4000 = 1 pu. -/
def State.iCode (s : State) (k : Nat) : Int :=
  let c := ringOf k
  let base := s.get (F.GRID_CLU_IBASE_IBASE c)
  let i := if s.flag (F.GRID_CLU_CFG_IARM_NEG c) then -(s.iarm k) else s.iarm k
  sat16 (ratioFree (i * 16384) (5 * base : Nat))

/-- R173: the median of the first three, the mean of two, the value of one. -/
def pickI : List Int → Option Int
  | [] => none
  | [a] => some a
  | [a, b] => some (roundFree (a + b) 2)
  | a :: b :: c :: _ => some (median3 a b c)

/-- R173: the current of a phase at the freeze, the loss of it, and the cells that disagree. -/
def State.phaseCurrent (s : State) (c ph : Nat) : State :=
  let run := s.cluRunning c
  let want := if run then cACTIVE else cREADY
  let all := (s.phaseCells c ph).filter fun k => s.cellState k == want && (s.cell k).fresh
  let ok := pickI (all.map s.iCode)
  let g := s.gclu c
  let prev := match ph with
    | 0 => g.ia
    | 1 => g.ib
    | _ => g.ic
  let v := ok.getD prev
  let n := if ok.isSome || !run then 0 else g.lost.get ph + 1
  let g1 : GridClu := match ph with
    | 0 => { g with ia := v, lost := g.lost.set ph n }
    | 1 => { g with ib := v, lost := g.lost.set ph n }
    | _ => { g with ic := v, lost := g.lost.set ph n }
  let bits := s.get (F.GRID_CLU_STAT_IARM_OK c)
  let s1 := (s.setGclu c g1).put (F.GRID_CLU_STAT_IARM_OK c)
    (bits - bits / 2 ^ ph % 2 * 2 ^ ph + (if ok.isSome then 2 ^ ph else 0))
  (s.phaseCells c ph).foldl (fun s k =>
    let x := s.gcell k
    let off := all.contains k && (match ok with
      | some m => decide (819 < (s.iCode k - m).natAbs)
      | none => false)
    if off || x.dis != 0 then s.setGcell k { x with dis := if off then x.dis + 1 else 0 } else s) s1

/-- GRID_IARM_LOST (R173): IARM_OK of a phase at 0 for three cycles while the cluster runs. -/
def execGridIarmLost (t : Nat) (c : RingIx) (ph : Fin 3) (s : State) : Host.Outcome State Fault Refusal :=
  atTime t s fun s => s.inDom domVOTE fun s =>
    let g := s.gclu c
    if s.cluRunning c ∧ 3 ≤ g.lost.get ph then
      ((s.setGclu c { g with lost := g.lost.set ph 0 }).laneHalt c).event Ev.GRID_IARM_LOST noInst
        [.w (c : Nat), .w (ph : Nat)]
    else s

/-- GRID_IARM_DISAGREE (R173): a cell more than 0.05 pu from the median for 16 cycles. -/
def execGridIarmDisagree (t : Nat) (k : CellIx) (s : State) : Host.Outcome State Fault Refusal :=
  atTime t s fun s => s.inDom domVOTE fun s =>
    let x := s.gcell k
    if 16 ≤ x.dis then
      ((s.setGcell k { x with dis := 0 }).put (F.GRID_CLU_STAT_IARM_DIS (ringOf k)) 1).event Ev.GRID_IARM_DISAGREE noInst
        [.w (k : Nat)]
    else s

/-- R174: the sync point lets the cluster start. -/
def State.synced (s : State) (c : Nat) : Bool :=
  let p := s.syncPt c
  s.fstate p == fTRACKING && s.flag (F.GRID_PT_STAT_PH_VALID p) && decide (s.source p ≤ 1)

end Sys2Proof.Machine
end

