-- ==== Sys2Proof/Machine/Current.lean ====
section
/-! DEFINITION. What the lane sequencer stages for current control at each freeze (R172–R183, R204, R206, R212, R224):
references, limits, leads, zero-sequence voltage and shares. -/

namespace Sys2Proof.Machine

def State.mcell (s : State) (k : Nat) : MpptCell := s.mppt.cell.get k
def State.setMcell (s : State) (k : Nat) (x : MpptCell) : State :=
  s.setMppt fun y => { y with cell := s.mppt.cell.set k x }
def State.mclu (s : State) (c : Nat) : MpptClu := s.mppt.clu.get c
def State.setMclu (s : State) (c : Nat) (x : MpptClu) : State :=
  s.setMppt fun y => { y with clu := s.mppt.clu.set c x }
def State.fclu (s : State) (c : Nat) : FrtClu := s.frt.clu.get c
def State.setFclu (s : State) (c : Nat) (x : FrtClu) : State :=
  s.setFrt fun y => { y with clu := s.frt.clu.set c x }
def State.isl (s : State) : IslSt := s.frt.isl
def State.setIsl (s : State) (x : IslSt) : State := s.setFrt fun y => { y with isl := x }

/-- R204: codes. -/
abbrev sNORMAL : Nat := 0
abbrev sFRT_LV : Nat := 1
abbrev sFRT_HV : Nat := 2
abbrev sRECOVERY : Nat := 3
abbrev sMOMENTARY : Nat := 4
abbrev sBLIND : Nat := 5
abbrev sSUSPECT : Nat := 6
abbrev sCEASED : Nat := 7
abbrev sTRIPPED : Nat := 8

/-- R249: a GOOSE value and its validity. -/
def State.gooseVal (s : State) (v : Nat) : Int × Bool :=
  (s.getS (F.GOOSE_VAL_DATA_VALUE v), s.flag (F.GOOSE_VAL_DATA_VALID v) && s.works domPBUS)

/-! ### Averages over a line period (R180, R182) -/

/-- Control cycles in one line period. -/
def State.lineCycles (s : State) : Nat := max 1 (uS / (s.fnom * s.periodU))

/-- The newest `n` of a list with one more in front. -/
def pushN {α : Type} (n : Nat) (v : α) (l : List α) : List α := (v :: l).take n

/-- The mean of whole numbers, in 1/2^b. -/
def meanQ (b : Nat) (l : List Int) : Int := if l.isEmpty then 0 else roundFree (l.foldl (· + ·) 0 * 2 ^ b) l.length

/-- R180: a cell's mean VDC over the last line period, 1/256 of 50 mV. -/
def State.vbar (s : State) (k : Nat) : Int := meanQ 8 ((s.gcell k).vdcs.map (fun (v : Nat) => (v : Int)))

/-- R182: a cell's mean string power over the last line period, in units of 0.2 mW / 256. -/
def State.ppv (s : State) (k : Nat) : Int := meanQ 8 (s.gcell k).ppv

/-- The ACTIVE cells of a phase. -/
def State.actives (s : State) (c ph : Nat) : List Nat := (s.phaseCells c ph).filter fun k => s.cellState k == cACTIVE

/-- √(3/2) in 2^-40. -/
def rt15 : Nat := isqrt (3 * 2 ^ 79)

/-- R159: watts in Q2.30 of the cluster's power base √(3/2) × VNOM × IBASE; `num / den` watts. -/
def State.wattPu (s : State) (c : Nat) (num : Int) (den : Nat) : Int :=
  let base := s.get (F.GRID_PT_VNOM_VNOM (s.syncPt c)) * s.get (F.GRID_CLU_IBASE_IBASE c)
  ratioFree (num * 2 ^ 70) ((den * rt15 * base : Nat) : Int)

/-- R159: Q2.30 of the power base in units of 1/scale watts. -/
def State.puWatt (s : State) (c : Nat) (p : Int) (scale : Nat) : Int :=
  let base := s.get (F.GRID_PT_VNOM_VNOM (s.syncPt c)) * s.get (F.GRID_CLU_IBASE_IBASE c)
  roundFree (p * (rt15 * base * scale : Nat)) (2 ^ 70)

/-- R180, R181: the string power of a phase averaged over the last line period, Q2.30. -/
def State.phasePv (s : State) (c ph : Nat) : Int := s.wattPu c (meanQ 8 ((s.gclu c).pv.get ph)) (256 * 5000)

/-- The windows of a cluster take the samples of this freeze. -/
def State.takeWindows (s : State) (c : Nat) : State :=
  let n := s.lineCycles
  let pt := s.syncPt c
  let va := s.ptQty pt 6
  let vb := s.ptQty pt 7
  [0, 1, 2].foldl (fun s ph =>
    let act := s.actives c ph
    let s1 := (s.phaseCells c ph).foldl (fun s k =>
      let x := s.gcell k
      if s.cellState k = cABSENT then (if x.vdcs.isEmpty then s else s.setGcell k { x with vdcs := [], ppv := [] })
      else s.setGcell k { x with vdcs := pushN n (s.vdc k) x.vdcs, ppv := pushN n ((s.vstr k : Int) * s.istr k) x.ppv }) s
    let g := s1.gclu c
    let sum := (act.map fun k => (s.vstr k : Int) * s.istr k).foldl (· + ·) 0
    let v : Int := match ph with
      | 0 => va
      | 1 => roundFree (-va * 2 ^ 40 + vb * isqrt (3 * 2 ^ 80)) (2 ^ 41)
      | _ => roundFree (-va * 2 ^ 40 - vb * isqrt (3 * 2 ^ 80)) (2 ^ 41)
    let i := match ph with
      | 0 => g.ia
      | 1 => g.ib
      | _ => g.ic
    s1.setGclu c { g with pv := g.pv.set ph (pushN n sum (g.pv.get ph)), pac := g.pac.set ph (pushN n (v * i) (g.pac.get ph)) }) s

/-! ### P_RT and requests (R204, R206, R208, R212) -/

/-- R209: whole ms since an instant of module time. -/
def msSince (now from_ : Nat) : Nat := (now - from_) / uMs

/-- R211: a curve's value at a time, none where the role names none. -/
def State.roleCurve (s : State) (f : Fld) (x : Int) : Option Int :=
  let n := s.get f
  if n = 63 then none else some (s.curve n x)

/-- R209: the fault time, ms. -/
def State.faultMs (s : State) (c : Nat) : Nat :=
  msSince s.mtUnits (8 * s.get64 (R.FRT_CLU_TF_LO c) (R.FRT_CLU_TF_HI c))

/-- R204, R211: P_RT in Q2.30, none when unlimited. -/
def State.prt (s : State) (c : Nat) : Option Int :=
  let f := s.fclu c
  match s.frtState c with
  | 0 => none
  | 1 =>
    let up := s.getS (F.FRT_CLU_U_U_PRE c)
    some (if s.flag (F.FRT_CLU_CFG_LV_P0 c) then 0 else if up ≤ 0 then 0
      else roundFree (f.pPre * s.getS (F.FRT_CLU_U_U c)) up)
  | 2 => some f.pPre
  | 3 => match s.roleCurve (F.FRT_CLU_CURVE_RAMP c) (msSince s.now f.at_) with
    | some y => some (roundFree (f.pPre * y) 0x4000)
    | none => some f.pPre
  | 4 => some 0
  | 5 => some f.pEntry
  | 6 => some f.pEntry
  | _ => some 0

/-- R206, R208: FRT_CLU_PRT; in NORMAL the running mean of P* stands as P_PRE. -/
def State.showPrt (s : State) (c : Nat) : State :=
  let kw (p : Int) : Nat := satN 65535 (roundFree (s.puWatt c p 1) 1000).toNat
  let f := s.fclu c
  (s.put (F.FRT_CLU_PRT_P_RT c) (match s.prt c with
    | none => 0xFFFF
    | some p => kw p)).put (F.FRT_CLU_PRT_P_PRE c) (kw (if s.frtState c = sNORMAL then meanQ 0 f.ps else f.pPre))

/-- R180: ε of a set of cells: mean of the squares of VDC̄ over VDC_REF², less 1, Q2.30. -/
def State.vdcSq (s : State) (c : Nat) (l : List Nat) : Int :=
  let ref : Nat := s.get (F.GRID_CLU_VDC_VDC_REF c) * 2 * 256
  if l.isEmpty then 0
  else ratioFree ((l.map fun k => s.vbar k * s.vbar k).foldl (· + ·) 0 * 2 ^ 30) ((l.length * ref * ref : Nat) : Int)

/-- R180, R206: P* at this freeze, with its integrator; the answer says whether P_RT limits it. -/
def State.dcLoop (s : State) (c : Nat) : State × Bool :=
  let act := [0, 1, 2].flatMap (s.actives c)
  let eps := if act.isEmpty then 0 else s.vdcSq c act - q1
  let g := s.gclu c
  let pv := s.phasePv c 0 + s.phasePv c 1 + s.phasePv c 2
  let raw := pv + roundFree (eps * s.get (F.GRID_CLU_DC_KP_DC c)) 8 + g.dcInt
  let lim := match s.prt c with
    | some p => decide (p < raw)
    | none => false
  let p := match s.prt c with
    | some p => min raw p
    | none => raw
  let di := if lim || s.flag (F.GRID_CLU_STAT_I_LIM c) then g.dcInt
    else g.dcInt + roundFree (eps * (s.get (F.GRID_CLU_DC_KI_DC c) * s.periodU : Nat)) uS
  (s.setGclu c { g with dcInt := di, pStar := p }, lim)

/-- R176: |V+|, floored at 0.10 pu, code. -/
def State.vposFloor (s : State) (c : Nat) : Int := max 1639 (s.ptQty (s.syncPt c) 0)

/-- R204: Q* in Q2.30: the dispatch register, or the GOOSE value last valid. -/
def State.qStar (s : State) (c : Nat) : Int :=
  let q := if s.flag (F.FRT_CLU_QDISP_GSRC_EN c) then (s.fclu c).qset else s.getS (F.FRT_CLU_QDISP_QSET c)
  s.wattPu c (q * 1000) 1

/-- R224: the sign of the present chip. -/
def IslSt.sign (x : IslSt) : Int := if x.lfsr % 2 = 1 then 1 else -1

/-- R224: the cluster injects. -/
def State.injects (s : State) (c : Nat) : Bool :=
  s.flag (F.FRT_CLU_CFG_INJ_EN c) && s.flag (F.GRID_CLU_STAT_RUN c) &&
    (s.frtState c == sNORMAL || s.frtState c == sSUSPECT)

/-- R177: the lead of a cluster as an angle, 2^-32 turn, at its FREQ. -/
def State.leadAngle (s : State) (c h : Nat) : Int :=
  roundFree ((s.gpt (s.syncPt c)).rep * (h * s.fnom * s.get (F.GRID_CLU_LEAD_T_LEAD c) * 4 : Nat)) 1000000000

/-- R177: θ_ref, 2^-32 turn. -/
def State.thetaRef (s : State) (c : Nat) : Int := (s.gridSeq (s.syncPt c) 0).2 + s.leadAngle c 1

/-- R211, R212: ΔI_r and I_neg, codes. -/
def State.deltaIr (s : State) (c : Nat) : Int :=
  (s.roleCurve (F.FRT_CLU_CURVE_KPOS c) (s.getS (F.FRT_CLU_U_U c) - s.getS (F.FRT_CLU_U_U_PRE c))).getD 0
def State.iNeg (s : State) (c : Nat) : Int :=
  if s.flag (F.FRT_CLU_CFG_NEG_EN c) then
    (s.roleCurve (F.FRT_CLU_CURVE_KNEG c) (s.ptQty (s.syncPt c) 2)).getD 0
  else 0

/-- R176, R204, R212, R224: the requested references i_d+, i_q+, i_d−, i_q−, Q2.30. -/
def State.requests (s : State) (c : Nat) : Int × Int × Int × Int :=
  let f := s.fclu c
  let v := s.vposFloor c
  let div (p : Int) : Int := roundFree (p * 0x4000) v
  let inj := if s.injects c then roundFree (s.isl.sign * s.get F.ISL_ACT_CFG_INJ * q1) 1000 else 0
  match s.frtState c with
  | 4 => (0, 0, 0, 0)
  | 5 => (f.refs.getD 0 0, f.refs.getD 1 0, f.refs.getD 2 0, f.refs.getD 3 0)
  | 7 => (0, 0, 0, 0)
  | 8 => (0, 0, 0, 0)
  | 0 => (div (s.gclu c).pStar, -(div (s.qStar c)), inj, 0)
  | 6 => (div (s.gclu c).pStar, -(div (s.qStar c)), inj, 0)
  | _ =>
    let a := (s.gridSeq (s.syncPt c) 1).2 - s.leadAngle c 1 + s.thetaRef c - 2 ^ 30
    let n := polar (s.iNeg c * 65536) a
    (div (s.gclu c).pStar, f.iqPre - s.deltaIr c * 65536, n.1, n.2)

/-! ### The current limit (R176) -/

/-- √a + √b ≤ m, exactly. -/
def hypLe (a b m : Int) : Bool :=
  let r := m * m - a - b
  decide (0 ≤ m) && decide (0 ≤ r) && decide (4 * a * b ≤ r * r)

/-- R176: the largest k of 0 to 256 for which the scaled second components fit with the first. -/
def limitK (x1 x2 y1 y2 m : Int) : Nat :=
  let ok (k : Nat) : Bool := hypLe (((k : Int) * x1) ^ 2 + (256 * y1) ^ 2) (((k : Int) * x2) ^ 2 + (256 * y2) ^ 2) (256 * m)
  ((List.range 257).reverse.find? ok).getD 0

/-- R176: two components scaled to a sum of magnitudes of at most `m`; whether they were. -/
def scaleTo (y1 y2 m : Int) : Int × Int × Bool :=
  let t : Int := (y1.natAbs + y2.natAbs : Nat)
  if m < t then (roundFree (y1 * m) t, roundFree (y2 * m) t, true) else (y1, y2, false)

/-- R176: the references limited to IMAX with the given priority; whether a factor is below 1. -/
def limitRefs (reactive : Bool) (m : Int) (r : Int × Int × Int × Int) : (Int × Int × Int × Int) × Bool :=
  let (dp, qp, dn, qn) := r
  let (x1, x2, y1, y2) := if reactive then (dp, dn, qp, qn) else (qp, qn, dp, dn)
  let (z1, z2, cut) := scaleTo y1 y2 m
  let k := limitK x1 x2 z1 z2 m
  let w1 := roundFree (x1 * k) 256
  let w2 := roundFree (x2 * k) 256
  (if reactive then (w1, z1, w2, z2) else (z1, w1, z2, w2), cut || decide (k < 256))

/-- A once-per-second log. -/
def dueLog (last : Option Nat) (now : Nat) : Bool := match last with
  | some t => decide (t + uS ≤ now)
  | none => true

/-- R175: the signal at an offset of the cluster's block. -/
def State.blk (s : State) (c off : Nat) : Nat := s.get (F.GRID_CLU_SIG_BASE c) + off

/-- Q2.30 to a signal code of 0x4000 per unit. -/
def puCode (x : Int) : Int := sat16 (roundFree x 65536)

/-- R176: the limited references, staged and shown. -/
def State.stageRefs (s : State) (c : Nat) : State :=
  let st := s.frtState c
  let reactive := st == 1 || st == 2 || s.flag (F.GRID_CLU_CFG_PRIO c)
  let m : Int := s.get (F.GRID_CLU_IBASE_IMAX c) * 65536
  let (r, cut) := limitRefs reactive m (s.requests c)
  let s1 := s.putB (F.GRID_CLU_STAT_I_LIM c) cut
  let g := s1.gclu c
  let s2 := if cut && dueLog g.ilimAt s.now then
      (s1.setGclu c { g with ilimAt := some s.now }).event Ev.GRID_I_LIMIT noInst [.w c]
    else s1
  let s3 := ((s2.stageSig (s.blk c 0) (puCode r.1)).stageSig (s.blk c 1) (puCode r.2.1)).stageSig (s.blk c 2) (puCode r.2.2.1)
  let s4 := s3.stageSig (s.blk c 3) (puCode r.2.2.2)
  let s5 := ((s4.putS (F.GRID_CLU_IREF_ID c) (puCode r.1)).putS (F.GRID_CLU_IREF_IQ c) (puCode r.2.1)).putS
    (F.GRID_CLU_IREFN_ID c) (puCode r.2.2.1)
  let s6 := (s5.putS (F.GRID_CLU_IREFN_IQ c) (puCode r.2.2.2)).putS (F.FRT_CLU_IRT_DIR c)
    (if 1 ≤ st ∧ st ≤ 3 then s.deltaIr c else 0)
  let s7 := s6.putS (F.FRT_CLU_IRT_INEG c) (if 1 ≤ st ∧ st ≤ 3 then s.iNeg c else 0)
  let f := s7.fclu c
  s7.setFclu c { f with refs := if st = sBLIND then f.refs else [r.1, r.2.1, r.2.2.1, r.2.2.2] }

/-- R208: the limited references and P* of this freeze join the means over the last line period. -/
def State.takePre (s : State) (c : Nat) : State :=
  let f := s.fclu c
  let n := s.lineCycles
  if s.cluRunning c then
    s.setFclu c { f with ids := pushN n (f.refs.getD 0 0) f.ids, iqs := pushN n (f.refs.getD 1 0) f.iqs,
                         ps := pushN n (s.gclu c).pStar f.ps }
  else s

/-! ### RUN, limits, gains and leads (R177, R179) -/

/-- R179: RUN: the cluster runs, no halt has been shown since its start, and no cell shows DISABLED. -/
def State.runOn (s : State) (c : Nat) : Bool :=
  s.cluRunning c && !s.flag (F.RING_HALT_STAT_HALT_ACTIVE c) && !(s.gclu c).halted &&
    !((cellsOf c).any fun k => s.inMap k && s.flag (F.CELL_STATE_PHYS_VALID k) &&
      s.get (F.CELL_STATE_PHYS k) == pDISABLED && s.cellState k != cABSENT)

/-- R177: the harmonics, and the field of n_h. -/
def harmonics : List Nat := [1, 5, 7, 11, 13]
def gShift (i : Nat) : Fld := ⟨R.GRID_G_SHIFT, 3 * i, 3⟩

/-- R177: 2 sin(h π f / f_ctl) in 2^-79, for a frequency in Q2.30. -/
def State.gRaw (s : State) (h : Nat) (w : Int) : Int := sinTurn (w.toNat * h * s.fnom * s.periodU) (2 ^ 31 * uS)

/-- R177: n_h, computed at image load. -/
def State.setGShift (s : State) : State :=
  ((List.range 5).zip harmonics).foldl (fun s e =>
    let g := s.gRaw e.2 (q1 + q1 / 2)
    s.put (gShift e.1) (((List.range 8).filter fun n => decide (g * 2 ^ n < 2 ^ 79)).length - 1)) s

/-- R177: T_LEAD in use: with LEAD_AUTO it is set at each start, in ns. -/
def State.setLead (s : State) (c : Nat) : State :=
  if s.flag (F.GRID_CLU_CFG_LEAD_AUTO c) then
    let p := s.get (F.PWM_CLU_CFG_CAR_P c)
    let u2 := (2 * s.link.d + 1) * s.periodU + (if s.updEff c = 1 then p / 2 else p)
    s.putSat (F.GRID_CLU_LEAD_T_LEAD c) (roundFree u2 16).toNat
  else s

/-- R177, R179: RUN, VLIM, G_h, LC_h and LS_h. -/
def State.stageSlow (s : State) (c : Nat) : State :=
  let run := s.runOn c
  let s1 := (s.putB (F.GRID_CLU_STAT_RUN c) run).stageSig (s.blk c 6) (if run then 0x4000 else 0)
  let vb := s.get (F.PWM_CLU_VBASE_VBASE c)
  let s2 := [0, 1, 2].foldl (fun s ph =>
    s.stageSig (s.blk c (7 + ph)) (clampI 0 0x7FFF (ratioFree (s.vCap c ph * 98 * 16384 : Nat) (100 * vb : Nat)))) s1
  let w := (s.gpt (s.syncPt c)).rep
  ((List.range 5).zip harmonics).foldl (fun s e =>
    let g := sat16 (roundFree (s.gRaw e.2 w * 2 ^ (s.get (gShift e.1) + 15)) (2 ^ 79))
    let a := codeOf 32 (s.leadAngle c e.2)
    let cs := sat16 (roundFree (cosTurn a (2 ^ 32)) (2 ^ 65))
    let sn := sat16 (roundFree (sinTurn a (2 ^ 32)) (2 ^ 65))
    ((s.stageSig (s.blk c (10 + e.1)) g).stageSig (s.blk c (15 + 2 * e.1)) cs).stageSig (s.blk c (16 + 2 * e.1)) sn) s2

/-! ### Zero-sequence injection (R181) -/

/-- R181: ΔP_x of the three phases, Q2.30, summing to 0. -/
def State.deltaP (s : State) (c : Nat) (e : Nat → Int) : Nat → Int :=
  let g := s.gclu c
  let raw (x : Nat) : Int := 3 * s.phasePv c x - (s.phasePv c 0 + s.phasePv c 1 + s.phasePv c 2)
  let d (x : Nat) : Int := roundFree (raw x) 3 + roundFree (e x * s.get (F.GRID_CLU_PH_KP_PH c)) 8 + g.phInt.get x
  fun x => d x - roundFree (d 0 + d 1 + d 2) 3

/-- R181: U0 staged; ZS_SAT, its integrators and its log. -/
def State.stageZero (s : State) (c : Nat) : State :=
  let ed := s.getS (F.GRID_CLU_IREF_ID c)
  let eq := s.getS (F.GRID_CLU_IREF_IQ c)
  let im := sqrtFree (ed * ed + eq * eq).toNat
  let show0 (s : State) (d q : Int) : State :=
    ((s.stageSig (s.blk c 4) (puCode d)).stageSig (s.blk c 5) (puCode q)).putS (F.GRID_CLU_U0_U0_D c) (puCode d)
      |>.putS (F.GRID_CLU_U0_U0_Q c) (puCode q)
  let idle := !s.flag (F.GRID_CLU_CFG_ZS_EN c) || decide (im < s.get (F.GRID_CLU_PH_ZS_IMIN c) * 64)
  if idle then (show0 s 0 0).put (F.GRID_CLU_STAT_ZS_SAT c) 0
  else
    let v (x : Nat) : Int := s.vdcSq c (s.actives c x)
    let e (x : Nat) : Int := v x - roundFree (v 0 + v 1 + v 2) 3
    let p := s.deltaP c e
    let (pa, pb, _) := clarke (p 0) (p 1) (p 2)
    -- 3 conj(ΔP) e^{jφ} / |I+| with e^{jφ} = (ed + j eq) / |I+|
    let m2 : Int := (im * im : Nat)
    let ud := roundFree (3 * (pa * ed + pb * eq) * 0x4000) m2
    let uq := roundFree (3 * (pa * eq - pb * ed) * 0x4000) m2
    let lim := roundFree ((min 150 (s.get (F.GRID_CLU_PH_ZS_MAX c)) : Nat) * s.ptQty (s.syncPt c) 0 * 65536) 1000
    let um : Int := sqrtFree (ud * ud + uq * uq).toNat
    let sat := decide (lim < um)
    let s1 := if sat then show0 s (roundFree (ud * lim) um) (roundFree (uq * lim) um) else show0 s ud uq
    let s2 := s1.putB (F.GRID_CLU_STAT_ZS_SAT c) sat
    let g := s2.gclu c
    if sat then
      if dueLog g.zsAt s.now then (s2.setGclu c { g with zsAt := some s.now }).event Ev.GRID_ZS_LIMIT noInst [.w c] else s2
    else
      s2.setGclu c { g with phInt := [0, 1, 2].foldl (fun m x =>
        m.set x (g.phInt.get x + roundFree (e x * (s.get (F.GRID_CLU_PH_KI_PH c) * s.periodU : Nat)) uS)) g.phInt }

/-! ### DC link balancing (R182, R183) -/

/-- R112, R114: ρ of a cell, Q2.30. -/
def State.rho (s : State) (k : Nat) : Int :=
  let ramp : Int := max 1 (s.get F.CELL_CTRL_RAMP * uMs)
  match (s.cell k).share with
  | .zero => 0
  | .full => q1
  | .fall f => max 0 (q1 - roundFree (q1 * (s.now - f : Nat)) ramp)
  | .rise f => min q1 (roundFree (q1 * (s.now - f : Nat)) ramp)

/-- R182: the sign of a phase's active power over the last line period, 0 below 0.005 pu. -/
def State.phaseSign (s : State) (c ph : Nat) : Int :=
  let m := meanQ 0 ((s.gclu c).pac.get ph)
  -- v i / 1.5 against 0.005 pu, both codes of 0x4000
  if m.natAbs * 400 < 3 * 2 ^ 28 then 0 else if 0 < m then 1 else -1

/-- R182: the terms of one cell: its new integrator and its share before scaling, with whether it was clamped. -/
def State.shareOf (s : State) (c : Nat) (k : Nat) (vm mp sg : Int) (ff : Bool) : GridCell × Int :=
  let x := s.gcell k
  let dev := ratioFree ((s.vbar k - vm) * q1) vm
  let kp := roundFree (dev * sg * s.get (F.GRID_CLU_BAL_KP_BAL c)) 8
  let xi := if x.clamped then x.x else x.x + roundFree (dev * sg * (s.get (F.GRID_CLU_BAL_KI_BAL c) * s.periodU : Nat)) uS
  let f := if ff then roundFree (s.ppv k * q1) mp else q1
  let lo : Int := s.get (F.GRID_CLU_BAL_SMIN c) * 2 ^ 23
  let hi : Int := s.get (F.GRID_CLU_BAL_SMAX c) * 2 ^ 23
  let u := if s.flag (F.GRID_CLU_CFG_BAL_EN c) then f + kp + xi else q1
  let v := clampI lo hi u
  ({ x with x := xi, clamped := u != v }, qmul (s.rho k) v)

/-- R182: the shares of a phase. -/
def State.stageShares (s : State) (c ph : Nat) : State :=
  let act := s.actives c ph
  let n : Int := act.length
  let base := s.get (F.PWM_CLU_SRC_SHARE_BASE c)
  let bits (f : Fld) (b : Bool) (s : State) : State :=
    let v := s.get f
    s.put f (v - v / 2 ^ ph % 2 * 2 ^ ph + (if b then 2 ^ ph else 0))
  let frozen := bit (s.get (F.PWM_CLU_STAT_M_SAT c)) ph
  let s1 := bits (F.GRID_CLU_STAT_BAL_FROZEN c) frozen s
  if frozen then
    act.foldl (fun s k =>
      let x := s.gcell k
      let v := x.share + roundFree (q1 - x.share) 100
      (s.setGcell k { x with share := v }).stageSig (base + posOf k) (puCode v)) s1
  else
    let vm := if act.isEmpty then 0 else roundFree ((act.map s.vbar).foldl (· + ·) 0) n
    let mp := if act.isEmpty then 0 else roundFree ((act.map s.ppv).foldl (· + ·) 0) n
    let ff := s.flag (F.GRID_CLU_CFG_FF_EN c) && decide (0 < mp) && decide (q1 < 100 * s.wattPu c mp (256 * 5000))
    let l := act.map fun k => (k, s.shareOf c k vm mp (s.phaseSign c ph) ff)
    let sum (b : Bool) : Int := ((l.filter fun e => e.2.1.clamped == b).map (·.2.2)).foldl (· + ·) 0
    let held := sum true
    let free := sum false
    let want := n * q1 - held
    let can := decide (0 < free) && decide (0 ≤ want)
    let s2 := l.foldl (fun s e =>
      let v := if e.2.1.clamped || !can then e.2.2 else roundFree (e.2.2 * want) free
      (s.setGcell e.1 { e.2.1 with share := v }).stageSig (base + posOf e.1) (puCode v)) s1
    let sat := !act.isEmpty && !can && decide (want ≠ free)
    let s3 := bits (F.GRID_CLU_STAT_BAL_SAT c) sat s2
    let g := s3.gclu c
    if sat && dueLog (g.balAt.get ph) s.now then
      (s3.setGclu c { g with balAt := g.balAt.set ph (some s.now) }).event Ev.GRID_BAL_LIMIT noInst [.w c, .w ph]
    else s3

/-- R182: the cells of a cluster that are not ACTIVE stage a share of 0. -/
def State.stageZeros (s : State) (c : Nat) : State :=
  (cellsOf c).foldl (fun s k =>
    if s.cellState k = cACTIVE then s else s.stageSig (s.get (F.PWM_CLU_SRC_SHARE_BASE c) + posOf k) 0) s

/-- The clusters that hold a mapped cell. -/
def State.clusters (s : State) : List Nat :=
  ((((s.listed (R.CELL_CFG 0).id).map (·.i)).filter s.inMap).map ringOf).eraseDups

/-- R172, R173, R180, R182: a cluster's quantities at the freeze. -/
def State.takeCluster (s : State) (c : Nat) : State :=
  ([0, 1, 2].foldl (fun s ph => s.phaseCurrent c ph) s).takeWindows c

/-- R176–R183: what the sequencer stages of one cluster after the pass, for the next one. -/
def State.stageCluster (s2 : State) (c : Nat) : State :=
  let q := s2.gooseVal (s2.get (F.FRT_CLU_QDISP_GSRC c))
  let s3 := if s2.flag (F.FRT_CLU_QDISP_GSRC_EN c) && q.2 then s2.setFclu c { s2.fclu c with qset := q.1 } else s2
  let s4 := (s3.dcLoop c).1
  let s5 := (((s4.stageSlow c).stageRefs c).takePre c).stageZero c
  ([0, 1, 2].foldl (fun s ph => s.stageShares c ph) s5).stageZeros c |>.showPrt c

/-- R172: a cluster's quantity. -/
def State.cluQty (s : State) (c q : Nat) : Int :=
  let g := s.gclu c
  let ph (i : Nat) : Int :=
    let l := s.actives c i
    let ref : Int := s.get (F.GRID_CLU_VDC_VDC_REF c) * 2 * 256
    if l.isEmpty then 0 else sat16 (ratioFree ((l.map s.vbar).foldl (· + ·) 0 * 0x4000) (l.length * ref))
  match q with
  | 0 => g.ia
  | 1 => g.ib
  | 2 => g.ic
  | 3 => (clarke g.ia g.ib g.ic).1
  | 4 => (clarke g.ia g.ib g.ic).2.1
  | 5 => angleCode (s.thetaRef c)
  | 6 => s.ptQty (s.syncPt c) 8
  | 7 => signedOf 16 (s.word (R.GRID_CLU_STAT c)).toNat
  | 8 => ph 0
  | 9 => ph 1
  | 10 => ph 2
  | _ => 0

/-- R172: a grid quantity by its index; an index that is not listed reads 0. -/
def State.gridQty (s : State) (i : Nat) : Int :=
  if i < 288 then s.ptQty (i / 32) (i % 32)
  else if 320 ≤ i ∧ i < 448 then s.cluQty ((i - 320) / 16) ((i - 320) % 16) else 0

/-- R175: check 9: the owners of the signal block and the share signals. -/
def State.sigBlockOk (s : State) (c : Nat) : Bool :=
  let b := s.get (F.GRID_CLU_SIG_BASE c)
  let sh := s.get (F.PWM_CLU_SRC_SHARE_BASE c)
  let own (o : Nat) : Nat := if o < 25 then 2 else if o < 38 then 3 else 0
  s.get (F.PWM_CLU_SRC_VREF_BASE c) == b + 48 && decide (sh ≤ 8064) && decide (b + 64 ≤ 8192) &&
    (List.range 64).all (fun o => s.sigOwner (b + o) == own o) && (List.range 128).all (fun p => s.sigOwner (sh + p) == 2)

/-- R179: the reset of the current-control program at the first cycle of a start. -/
def State.resetProg (s : State) (c : Nat) : State :=
  let p := s.get (F.GRID_CLU_SIG_PROG c)
  let r := s.progRange p
  ((List.range (r.2 - r.1)).foldl (fun s k => s.ceReset (r.1 + k)) s).event Ev.CE_STATE_RESET noInst [.w p]

end Sys2Proof.Machine
end

