-- ==== Sys2Proof/Machine/Mppt.lean ====
section
/-! DEFINITION. Per-cell maximum power point tracking (R184–R203). -/

namespace Sys2Proof.Machine

/-- R187: modes. -/
abbrev mOFF : Nat := 0
abbrev mSTART : Nat := 1
abbrev mTRACK : Nat := 2
abbrev mCURTAIL : Nat := 3
abbrev mSCAN : Nat := 4
abbrev mHOLD : Nat := 5

def State.mmode (s : State) (k : Nat) : Nat := s.get (F.MPPT_CELL_STAT_MODE k)
def State.setMode (s : State) (k m : Nat) : State :=
  (s.put (F.MPPT_CELL_STAT_MODE k) m).putB (F.MPPT_CELL_STAT_CURT k) (m == mCURTAIL)

/-- R189: VOC_EST, 50 mV. -/
def State.voc (s : State) (k : Nat) : Nat := s.get (F.MPPT_CELL_REF_VOC_EST k)
def State.typeOf (s : State) (k : Nat) : Nat := s.get (F.CELL_CFG_TYPE k)

/-- One watt and ten watts in products of 1/256 of 50 mV and 1/256 of 4 mA. -/
abbrev uW : Int := 327680000
abbrev u10W : Int := 3276800000

/-- R195: PRATED of a cell. -/
def State.prated (s : State) (k : Nat) : Int := s.get (F.MPPT_TYPE_RATE_PRATED (s.typeOf k)) * u10W

/-- Largest number below 2^n for which a falling condition holds, 0 when it holds for none above. -/
def bisect (f : Nat → Bool) : Nat → Nat → Nat
  | 0, acc => acc
  | n + 1, acc => if f (acc + 2 ^ n) then bisect f n (acc + 2 ^ n) else bisect f n acc

/-- The median of a list (the lower middle of an even number). -/
def insAsc (v : Int) : List Int → List Int
  | [] => [v]
  | a :: r => if v ≤ a then v :: a :: r else a :: insAsc v r
def medianOf (l : List Int) : Int := (l.foldr insAsc []).getD ((l.length - 1) / 2) 0

/-! ### References (R184, R186, R187) -/

/-- R189: a reference limited to VMIN_FRAC × VOC_EST and VOC_EST, 1/256 of 50 mV. -/
def State.clampRef (s : State) (k : Nat) (v : Int) : Int :=
  clampI (roundFree (s.get F.MPPT_LIMITS_VMIN_FRAC * s.voc k : Nat) 1) (s.voc k * 256 : Nat) v

/-- The code of a reference: 50 mV, or OPEN. -/
def refCode (v : Option Int) : Nat := match v with
  | some x => (satN 0xFFFE (roundFree x 256).toNat)
  | none => 0xFFFF

/-- R186, R187: VSTR_REF is written when its value changes, and in any case (`force`) at a scan point and at a change of
mode that R187 marks; a write not yet answered is replaced. -/
def State.writeRef (s : State) (k : Nat) (v : Option Int) (force : Bool := false) : State :=
  let code := refCode v
  let x := s.mcell k
  let same := match x.pend with
    | some c => c == code
    | none => s.get (F.MPPT_CELL_REF_VREF k) == code
  let s1 := s.setMcell k { x with vref := v }
  if same && !force then s1
  else
    let r := s1.ring (ringOf k)
    let keep := r.queue.filter fun q => !(q.dst == posOf k && (match q.purpose with
      | .vstrRef _ => true
      | _ => false))
    let s2 := s1.setRing (ringOf k) { r with queue := keep }
    let s3 := s2.setMcell k { s2.mcell k with pend := some code }
    s3.mbxPost (ringOf k) { owner := 1, dst := posOf k, op := 2, data := leBytes 2 0x0200 ++ leBytes 2 code,
                            purpose := .vstrRef code }

/-- R188: the first frame that carries a write of VSTR_REF is the instant of that write. -/
def State.refSent (s : State) (r : Nat) (q : MbxReq) : State :=
  match q.purpose with
  | .vstrRef _ =>
    let k := 128 * r + q.dst
    s.setMcell k { s.mcell k with wroteAt := some s.now }
  | _ => s

/-- R186: the node answered OK: the reference stands. -/
def State.refAnswered (s : State) (k code : Nat) : State :=
  let x := s.mcell k
  let s1 := (s.put (F.MPPT_CELL_REF_VREF k) code).put (F.MPPT_CELL_STAT_NO_REF k) 0
  s1.setMcell k { x with pend := if x.pend = some code then none else x.pend, fails := 0 }

/-- R186: a write not answered by the step instant is abandoned; the step is not taken. -/
def State.abandonRef (s : State) (k : Nat) : State :=
  let x := s.mcell k
  let r := ringOf k
  let q := s.ring r
  let s1 := s.setRing r { q with queue := q.queue.filter fun m => !(m.dst == posOf k && (match m.purpose with
      | .vstrRef _ => true
      | _ => false)) }
  let s2 := (s1.count (F.MPPT_CELL_STAT_DEFER k) 1).count F.MPPT_CNT_DEFER 1
  let n := s2.mppt.deferN.get r + 1
  let s3 := if dueLog (s2.mppt.deferAt.get r) s.now then
      (s2.setMppt fun x => { x with deferN := s2.mppt.deferN.set r 0,
                                        deferAt := s2.mppt.deferAt.set r (some s.now) }).event Ev.MPPT_REF_DEFER noInst
        [.w r, .w n]
    else s2.setMppt fun x => { x with deferN := s2.mppt.deferN.set r n }
  let s4 := s3.setMcell k { s3.mcell k with pend := none, fails := x.fails + 1 }
  if x.fails + 1 = 3 then (s4.put (F.MPPT_CELL_STAT_NO_REF k) 1).event Ev.MPPT_NO_REF k [.w k] else s4

/-! ### Scans: queue, end (R191–R194) -/

def State.scanQueue (s : State) (c ph : Nat) : List (Nat × Bool) := (s.mclu c).queue.get ph
def State.setQueue (s : State) (c ph : Nat) (l : List (Nat × Bool)) : State :=
  let x := s.mclu c
  s.setMclu c { x with queue := x.queue.set ph l }

/-- R191, R192: a cell joins its phase's queue once; software requests stand ahead of automatic ones. -/
def State.enqueue (s : State) (k : Nat) (sw : Bool) : State :=
  let c := ringOf k
  let ph := s.phaseOf k
  let l := s.scanQueue c ph
  if l.any (·.1 == k) || s.mmode k == mSCAN then s
  else
    let l1 := if sw then l.filter (·.2) ++ [(k, true)] ++ l.filter (!·.2) else l ++ [(k, false)]
    (s.setQueue c ph l1).put (F.MPPT_CELL_STAT_QUEUED k) 1

/-- R192, R203: a cell leaves its queue. -/
def State.dequeue (s : State) (k : Nat) : State :=
  let c := ringOf k
  let ph := s.phaseOf k
  (s.setQueue c ph ((s.scanQueue c ph).filter (·.1 != k))).put (F.MPPT_CELL_STAT_QUEUED k) 0

/-- R194: a scan is aborted: the reference returns to V_0 at once; the cell goes to the head of its queue unless the
scan was cancelled. -/
def State.abortScan (s : State) (k mode cause : Nat) (requeue : Bool) : State :=
  let x := s.mcell k
  match x.scan with
  | none => s
  | some sc =>
    let s1 := ((s.setMcell k { x with scan := none }).setMode k mode).writeRef k (some sc.v0) true
    let s2 := s1.event Ev.MPPT_SCAN_ABORT k [.w k, .w cause]
    if requeue then
      let c := ringOf k
      let ph := s.phaseOf k
      (s2.setQueue c ph ((k, true) :: (s2.scanQueue c ph).filter (·.1 != k))).put (F.MPPT_CELL_STAT_QUEUED k) 1
    else s2

/-! ### Following the cell and the ride-through state (R187, R202) -/

/-- R202: the states that hold the cells, and those in which steps run. -/
def holdState (st : Nat) : Bool := st == 1 || st == 2 || st == 4 || st == 5 || st == 6

/-- R195, R199: the available power is recorded and shown, and the target, which is p_i but in CURTAIL. -/
def State.showPwr (s : State) (k : Nat) (p : Int) : State :=
  let w := (roundFree p u10W).toNat
  let s1 := (s.setMcell k { s.mcell k with p := p }).putSat (F.MPPT_CELL_PWR_PAVAIL k) w
  s1.putSat (F.MPPT_CELL_PWR_PTGT k) (if s.mmode k = mCURTAIL then (s.mcell k).tgt else w)

/-- R195: P of the last step that was not void. -/
def State.pLast (s : State) (k : Nat) : Int := (s.mcell k).pStep.getD (s.mcell k).p

/-- R195: ρ of a cluster: the mean P / PRATED of its TRACK cells, Q2.30. -/
def State.rhoNow (s : State) (c : Nat) : Option Int :=
  let l := (cellsOf c).filter fun k => s.inMap k && s.mmode k == mTRACK && decide (0 < s.prated k)
  if l.isEmpty then none
  else some (roundFree ((l.map fun k => roundFree (s.pLast k * q1) (s.prated k)).foldl (· + ·) 0) l.length)

/-- R195: p_i of a cell. -/
def State.avail (s : State) (k : Nat) : Int :=
  let x := s.mcell k
  match s.mmode k with
  | 2 => min (s.prated k) (s.pLast k)
  | 4 => match x.scan with
    | some sc => sc.p0
    | none => x.p
  | 3 => match s.rhoNow (ringOf k) with
    | some r => if x.rhoM = 0 then x.p else min (s.prated k) (roundFree (x.pm * r) x.rhoM)
    | none => x.p
  | _ => x.p

/-- R187: OFF: VSTR_REF = OPEN, queue left. -/
def State.mpptOff (s : State) (k : Nat) : State :=
  if s.mmode k = mOFF then s
  else
    let s1 := (s.abortScan k mOFF 1 false).dequeue k
    let s2 := (s1.setMode k mOFF).writeRef k none true
    s2.setMcell k { s2.mcell k with hist := none, scan := none, shade := 0, darkAt := none, brightAt := none }

/-- R187, R280: at image load every cell is OFF, in no queue; one that was not writes VSTR_REF = OPEN. -/
def State.mpptLoad (s : State) (k : Nat) : State :=
  let s1 := if s.mmode k = mOFF then s else (s.setMode k mOFF).writeRef k none true
  ((s1.put (F.MPPT_CELL_STAT_QUEUED k) 0).put (F.MPPT_CELL_STAT_DARK k) 0).put (F.MPPT_CELL_STAT_NO_REF k) 0

/-- R187: START. -/
def State.mpptStart (s : State) (k : Nat) : State :=
  let s1 := (s.setMode k mSTART).writeRef k
    (some (s.clampRef k (roundFree (s.get F.MPPT_LIMITS_INIT_FRAC * s.voc k : Nat) 1))) true
  s1.setMcell k { s1.mcell k with skip := 2, hist := none }

/-- R187, R202: HOLD, and the return to the mode held before with one void step. -/
def State.mpptHold (s : State) (k : Nat) : State :=
  let m := s.mmode k
  if m = mHOLD ∨ m = mOFF then s
  else
    let s1 := if m = mSCAN then s.abortScan k mTRACK 2 true else s
    let s2 := s1.setMcell k { s1.mcell k with before := if m = mSCAN then mTRACK else m }
    s2.setMode k mHOLD
def State.mpptResume (s : State) (k : Nat) : State :=
  if s.mmode k = mHOLD then
    let x := s.mcell k
    (s.setMcell k { x with skip := if x.before = mSTART then x.skip + 1 else 1 }).setMode k x.before
  else s

/-- R114: a return to service is in progress. -/
def CellSeq.returns : CellSeq → Bool
  | .retZero .. | .retOpen .. => true
  | _ => false

/-- R112: the share ramp of a planned bypass is in progress. -/
def CellSeq.ramps : CellSeq → Bool
  | .bypRamp .. => true
  | _ => false

/-- R187: a planned bypass sets VSTR_REF to 1.00 × VOC_EST at its start. -/
def State.mpptRamp (s : State) (k : Nat) : State :=
  let on := (s.cell k).seq.ramps
  if on = (s.mcell k).ramped then s
  else
    let s1 := s.setMcell k { s.mcell k with ramped := on }
    if on then s1.writeRef k (some (s.voc k * 256 : Nat)) true else s1

/-- R187, R202, R194: the mode that a cell takes from its entry and its cluster's state. -/
def State.mpptMode (s : State) (k : Nat) : State :=
  let st := s.cellState k
  if s.get F.MPPT_CFG_EN = 0 then s.mpptOff k
  else if st ≠ cACTIVE then
    if (s.cell k).seq.returns then (s.setMcell k { s.mcell k with before := mOFF }).setMode k mHOLD else s.mpptOff k
  else if s.seqBusy k then (s.mpptHold k).mpptRamp k
  else
    let s := s.mpptRamp k
    if s.mmode k = mOFF ∨ (s.mmode k = mHOLD ∧ (s.mcell k).before = mOFF) then s.mpptStart k
    else if holdState (s.frtState (ringOf k)) then s.mpptHold k
    else if s.mmode k = mSCAN ∧ s.frtState (ringOf k) ≠ 0 then s.abortScan k mTRACK 2 true
    else s.mpptResume k

/-- R187, R199: the mode of a cell at the freeze; the target shown follows it. -/
def State.mpptFollow (s : State) (k : Nat) : State :=
  let s1 := s.mpptMode k
  if s1.mmode k = s.mmode k then s1 else s1.showPwr k (s.avail k)

/-- R188, R189: an accepted slot enters the window, and the low-current second. -/
def State.mpptSlot (s : State) (k : Nat) : State :=
  let x := s.mcell k
  let keep := max 25 (s.get F.MPPT_CFG_MEAS_MS) * uMs
  let win := (s.now, s.vstr k, s.istr k) :: x.win.filter fun e => decide (s.now < e.1 + keep)
  let low := decide ((s.istr k).natAbs < 125) && s.pstate k != pSWITCHING
  s.setMcell k { x with win := win, lowAt := if low then some (x.lowAt.getD s.now) else none,
                        lowSum := if low then x.lowSum + s.vstr k else 0, lowN := if low then x.lowN + 1 else 0 }

/-- R203: a slot of the cell is stale in this cycle. -/
def State.mpptMiss (s : State) (k : Nat) : State :=
  if s.mmode k = mOFF then s else s.setMcell k { s.mcell k with missAt := some s.now }

/-- MPPT_VOC_SET (R189): |ISTR| below 0.50 A for a second while not SWITCHING. -/
def execMpptVocSet (t : Nat) (k : CellIx) (s : State) : Host.Outcome State Fault Refusal :=
  atTime t s fun s => s.inDom domVOTE fun s =>
    let x := s.mcell k
    if s.due (x.lowAt.map (· + uS)) ∧ 0 < x.lowN then
      (s.setMcell k { x with lowAt := none, lowSum := 0, lowN := 0, vocAt := some s.mtUnits }).putSat (F.MPPT_CELL_REF_VOC_EST k)
        (roundFree x.lowSum x.lowN).toNat
    else s

/-- MPPT_VOC_DEFAULT (R189): no setting for 24 h of module time. -/
def execMpptVocDefault (t : Nat) (k : CellIx) (s : State) : Host.Outcome State Fault Refusal :=
  atTime t s fun s => s.inDom domVOTE fun s =>
    let x := s.mcell k
    if x.vocAt.getD s.mppt.loadAt + 86400 * uS ≤ s.mtUnits then
      ((s.setMcell k { x with vocAt := some s.mtUnits }).putSat (F.MPPT_CELL_REF_VOC_EST k)
        (2 * s.get (F.MPPT_TYPE_RATE_VOC_NOM (s.typeOf k)))).event Ev.MPPT_VOC_DEFAULT k [.w (k : Nat)]
    else s

/-! ### The step (R188, R190, R195, R200) -/

/-- R188, R203: V and I over the accepted slots of the last `ms` (1/256 units), none for a void measurement. -/
def State.measure (s : State) (k ms : Nat) : Option (Int × Int) :=
  let x := s.mcell k
  let l := x.win.filter fun e => decide (s.now < e.1 + ms * uMs)
  let want := ms * uMs / s.periodU / (if s.ringV1 (ringOf k) then 2 else 1)
  let within (a : Option Nat) : Bool := match a with
    | some w => decide (s.now < w + ms * uMs)
    | none => false
  let broke := within x.missAt && within (s.ring (ringOf k)).breakAt
  if 2 * l.length < want ∨ l.isEmpty ∨ within x.wroteAt ∨ broke then none
  else some (meanQ 8 (l.map fun e => (e.2.1 : Int)), meanQ 8 (l.map (·.2.2)))

/-- R190: g = dP/dV as a fraction (positive denominator). -/
def slopeOf (v i vp ip : Int) : Int × Int :=
  let dv := v - vp
  let di := i - ip
  if dv.natAbs < 2560 then (di, 1)
  else if 0 < dv then (i * dv + v * di, dv) else (-(i * dv + v * di), -dv)


/-- The step limits S_MIN and S_MAX, 1/256 of 50 mV. -/
def State.stepClamp (s : State) (k : Nat) (d : Int) : Int :=
  clampI (roundFree (s.get F.MPPT_STEP_S_MIN * s.voc k * 256 : Nat) 1000)
    (roundFree (s.get F.MPPT_STEP_S_MAX * s.voc k * 256 : Nat) 1000) d

/-- R190: one step in TRACK that is not void. -/
def State.trackStep (s : State) (k : Nat) (v i vp ip : Int) : State :=
  let p := v * i
  let (gn, gd) := slopeOf v i vp ip
  let s1 := s.setMcell k { s.mcell k with pStep := some p, pm := p, hist := some (v, i) }
  let s2 := (s1.setMcell k { s1.mcell k with rhoM := (s1.rhoNow (ringOf k)).getD 0 }).showPwr k (s1.avail k)
  if (gn.natAbs : Int) * v * 1000 < s.get F.MPPT_STEP_DB * p * gd then s2
  else
    let d := s.stepClamp k (roundFree (s.get F.MPPT_STEP_K_STEP * gn.natAbs : Nat) (1250 * gd))
    let v0 := (s.mcell k).vref.getD (s.voc k * 256 : Nat)
    s2.writeRef k (some (s.clampRef k (if 0 < gn then v0 + d else v0 - d)))

/-- R200: one step in CURTAIL that is not void. -/
def State.curtailStep (s : State) (k : Nat) (v i vp ip : Int) : State :=
  let p := v * i
  let tgt : Int := (s.mcell k).tgt * u10W
  let db : Int := s.get F.MPPT_STEP_DB
  let gn := (slopeOf v i vp ip).1
  let v0 := (s.mcell k).vref.getD (s.voc k * 256 : Nat)
  let move (e : Int) : Int := s.stepClamp k (ratioFree (s.get F.MPPT_STEP_K_STEP * e) (1250 * v))
  let s1 := s.setMcell k { s.mcell k with pStep := some p, hist := some (v, i) }
  if tgt * (1000 + db) < p * 1000 then s1.writeRef k (some (s.clampRef k (v0 + move (p - tgt))))
  else if p * 1000 < tgt * (1000 - db) ∧ gn < 0 then s1.writeRef k (some (s.clampRef k (v0 - move (tgt - p))))
  else
    let s2 := if p * 1000 < tgt * (1000 - db) then
        let s' := s1.setMode k mTRACK
        s'.showPwr k (s'.avail k)
      else s1
    s2.writeRef k (some (s.clampRef k v0))

/-- R201: dark and bright since, given the median p_i of the phase. -/
def State.noteDark (s : State) (k : Nat) (median : Int) : State :=
  let x := s.mcell k
  let dark := decide (s.avail k * 256 < s.get F.MPPT_LIMITS_DARK_FRAC * median)
  s.setMcell k { x with darkAt := if dark then some (x.darkAt.getD s.now) else none,
                        brightAt := if dark then none else some (x.brightAt.getD s.now) }

/-- R201: the median p_i of a phase. -/
def State.medAvail (s : State) (c ph : Nat) : Int := medianOf ((s.actives c ph).map s.avail)

/-- R191: steps in a row below the shade fraction of the phase's TRACK cells. -/
def State.noteShade (s : State) (k : Nat) : State :=
  let ratio (j : Nat) : Int := ratioFree (s.pLast j * q1) (s.prated j)
  let l := ((s.actives (ringOf k) (s.phaseOf k)).filter fun j => s.mmode j == mTRACK).map ratio
  let x := s.mcell k
  let below := decide (ratio k * 256 < s.get F.MPPT_SCAN_SHADE_FRAC * medianOf l)
  s.setMcell k { x with shade := if below && s.mmode k == mTRACK then x.shade + 1 else 0 }

/-- R192: the head of the phase's queue that is in TRACK is granted a scan. -/
def State.grantScan (s : State) (c ph : Nat) : State :=
  let scanning := ((s.phaseCells c ph).filter fun j => s.mmode j == mSCAN).length
  let f := s.fclu c
  if scanning < s.get F.MPPT_SCAN_SCAN_MAX ∧ s.frtState c = sNORMAL ∧ f.at_ + 10 * uS ≤ s.now then
    match (s.scanQueue c ph).find? fun e => s.mmode e.1 == mTRACK with
    | none => s
    | some e =>
      let k := e.1
      let x := s.mcell k
      let s1 := (s.dequeue k).setMode k mSCAN
      s1.setMcell k { s1.mcell k with scan := some {
        at_ := s.now, delay := 0, v0 := x.vref.getD (s.voc k * 256 : Nat), p0 := s.avail k, voc := s.voc k, next := 0,
        again := false, bestN := 0, bestP := none, maxI := 0 } }
  else s

/-- R188, R196: the instants n × STEP_MS + an offset (in STEP_MS / 128), rounded to the control cycle, that have come. -/
def State.instants (s : State) (pos : Nat) : Nat :=
  let p := max 1 (s.get F.MPPT_CFG_STEP_MS) * uMs
  let t := s.periodU
  ((s.mtUnits / t + 1) * t - t / 2 - 1 + p - pos * p / 128) / p

/-- R188: the number of the last step instant of a cell. -/
def State.stepNo (s : State) (k : Nat) : Nat := s.instants (posOf k)

/-- R190, R200: a step in TRACK or CURTAIL on a measurement and the one before; the first only records (R188). -/
def State.perturb (s : State) (k : Nat) (now prev : Option (Int × Int)) : State :=
  match now, prev with
  | none, _ => s
  | some (v, i), none => s.setMcell k { s.mcell k with hist := some (v, i) }
  | some (v, i), some (vp, ip) =>
    let s1 := (if s.mmode k = mTRACK then s.trackStep k v i vp ip else s.curtailStep k v i vp ip).noteShade k
    s1.noteDark k (s1.medAvail (ringOf k) (s1.phaseOf k))

/-- R186, R188, R190, R200: a cell's step instant. -/
def State.mpptStep (s : State) (k : Nat) : State :=
  let n := s.stepNo k
  let x := s.mcell k
  if x.step = n then s
  else
    let s1 := s.setMcell k { x with step := n }
    let m := s.mmode k
    let track (s : State) : State :=
      let s' := s.setMode k mTRACK
      s'.showPwr k (s'.avail k)
    let s2 :=
      if x.pend.isSome then s1.abandonRef k
      else if m = mHOLD ∨ m = mSCAN ∨ m = mOFF then s1
      else if x.skip ≠ 0 then
        let s' := s1.setMcell k { s1.mcell k with skip := x.skip - 1 }
        if m = mSTART ∧ x.skip = 1 then track s' else s'
      else if m = mSTART then track s1
      else s1.perturb k (s1.measure k (s.get F.MPPT_CFG_MEAS_MS)) x.hist
    s2.grantScan (ringOf k) (s.phaseOf k)


/-- MPPT_SHADE_QUEUE (R191): ten such steps in a row. -/
def execMpptShadeQueue (t : Nat) (k : CellIx) (s : State) : Host.Outcome State Fault Refusal :=
  atTime t s fun s => s.inDom domVOTE fun s =>
    let x := s.mcell k
    if s.mmode k = mTRACK ∧ 10 ≤ x.shade then (s.setMcell k { x with shade := 0 }).enqueue k false else s

/-- MPPT_SCAN_DUE (R191): SCAN_INT minutes after the last scan; the first one spread over the positions. -/
def execMpptScanDue (t : Nat) (k : CellIx) (s : State) : Host.Outcome State Fault Refusal :=
  atTime t s fun s => s.inDom domVOTE fun s =>
    let n := s.get F.MPPT_SCAN_SCAN_INT * 60 * uS
    let due := match (s.mcell k).lastScan with
      | some l => decide (l + n ≤ s.mtUnits)
      | none => decide (s.mppt.loadAt + posOf k * n / 128 ≤ s.mtUnits)
    if n ≠ 0 ∧ s.mmode k = mTRACK ∧ due = true then s.enqueue k false else s

/-! ### The scan (R193) -/

/-- R193: the instant of an event of the scan. -/
def scanTime (sc : Scan) : Nat :=
  let j := sc.next
  let ms := if j < 5 then 20 * j else if j % 2 = 1 then 100 + 25 * (j - 5) else 150 + 25 * (j - 6)
  sc.at_ + sc.delay + ms * uMs

/-- R193: the reference of point `n`, 1/256 of 50 mV. -/
def scanRef (sc : Scan) (n : Nat) : Int := roundFree ((60 + n : Nat) * sc.voc * 256) 100

/-- R193, R189: the next event of a scan: a write, or the measurement of a point, repeated once when void. -/
def State.scanEvent (s : State) (k : Nat) : State :=
  let x := s.mcell k
  match x.scan with
  | none => s
  | some sc =>
    let j := sc.next
    let put_ (s : State) (c : Scan) : State := s.setMcell k { s.mcell k with scan := some c }
    if s.now < scanTime sc ∨ 86 < j then s
    else if j < 5 then
      (put_ s { sc with next := j + 1 }).writeRef k (some (sc.v0 + roundFree ((scanRef sc 0 - sc.v0) * (j + 1 : Nat)) 5)) true
    else
      let n := (j - 5) / 2
      if j % 2 = 1 then (put_ s { sc with next := j + 1 }).writeRef k (some (scanRef sc n)) true
      else match s.measure k 25 with
        | none => if sc.again then put_ s { sc with next := j + 1, again := false }
                  else put_ s { sc with delay := sc.delay + 50 * uMs, again := true }
        | some (v, i) =>
          let p := v * i
          let better := match sc.bestP with
            | some b => decide (b < p)
            | none => true
          let raise := n == 40 && decide (max sc.maxI i < 50 * i)
          let s1 := put_ s { sc with next := j + 1, again := false, bestN := if better then n else sc.bestN,
                                     bestP := if better then some p else sc.bestP, maxI := max sc.maxI i }
          if raise then s1.putSat (F.MPPT_CELL_REF_VOC_EST k) (roundFree (s.voc k * 102 : Nat) 100).toNat else s1

/-- MPPT_SCAN_POINT (R193). -/
def execMpptScanPoint (t : Nat) (k : CellIx) (s : State) : Host.Outcome State Fault Refusal :=
  atTime t s fun s => s.inDom domVOTE fun s => s.scanEvent k

/-- MPPT_SCAN_DONE (R193). -/
def execMpptScanDone (t : Nat) (k : CellIx) (s : State) : Host.Outcome State Fault Refusal :=
  atTime t s fun s => s.inDom domVOTE fun s =>
    match (s.mcell k).scan with
    | some sc =>
      if 87 ≤ sc.next then
        let best := if sc.bestP.isSome then s.clampRef k (scanRef sc sc.bestN) else sc.v0
        let s0 := (s.setMode k mTRACK).writeRef k (some best) true
        let s1 := s0.setMcell k { s0.mcell k with scan := none, hist := none, lastScan := some s.mtUnits }
        let s2 := (s1.put (F.MPPT_CELL_SCAN_BEST_V k) (refCode (some best))).countWrap F.MPPT_CNT_SCANS
        s2.event Ev.MPPT_SCAN_DONE k [.w (k : Nat), .w sc.bestN, .w (roundFree (sc.bestP.getD 0) uW), .w (roundFree sc.p0 uW)]
      else s
    | none => s

/-! ### Cap instants (R195–R199) -/

/-- R197: |U0| is below 0.8 of its limit. -/
def State.zsLow (s : State) (c : Nat) : Bool :=
  let ud := s.getS (F.GRID_CLU_U0_U0_D c)
  let uq := s.getS (F.GRID_CLU_U0_U0_Q c)
  let lim : Int := s.get (F.GRID_CLU_PH_ZS_MAX c) * s.ptQty (s.syncPt c) 0 * 8
  decide ((ud * ud + uq * uq) * 100000000 < lim * lim)

/-- R197: the phase ceilings; one that reaches its phase's sum limits no more. -/
def State.ceilings (s : State) (c : Nat) : State :=
  let x := s.mclu c
  let step := max 1 (s.get F.MPPT_CFG_STEP_MS) * uMs
  let sum (ph : Nat) : Int := ((s.actives c ph).map s.prated).foldl (· + ·) 0
  let cur (ph : Nat) : Int := min (sum ph) ((x.ceil.get ph).getD (sum ph))
  let held (a : Option Nat) : Bool := match a with
    | some t => decide (t + step ≤ s.now)
    | none => false
  let pv (ph : Nat) : Int := meanQ 16 ((s.gclu c).pv.get ph)
  let top := if pv 1 ≤ pv 0 ∧ pv 2 ≤ pv 0 then 0 else if pv 2 ≤ pv 1 then 1 else 2
  let new (ph : Nat) : Int :=
    if held x.satAt then (if ph = top then roundFree (pv ph * 98) 100 else cur ph)
    else if held x.freeAt && s.zsLow c then min (sum ph) (cur ph + roundFree (sum ph) 100)
    else cur ph
  s.setMclu c { x with ceil := [0, 1, 2].foldl (fun m ph =>
    m.set ph (if sum ph ≤ new ph then none else some (new ph))) x.ceil }

/-- R197: ZS_SAT set, or clear, since; taken at each freeze. -/
def State.noteZs (s : State) (c : Nat) : State :=
  let x := s.mclu c
  let sat := s.flag (F.GRID_CLU_STAT_ZS_SAT c)
  s.setMclu c { x with satAt := if sat then some (x.satAt.getD s.now) else none,
                       freeAt := if sat then none else some (x.freeAt.getD s.now) }

/-- R198: the first of the three conditions that a cap of `n` × 10 W breaks; 0 for none. -/
def capBreak (ps : List Int) (t : Int) (smin smax n : Nat) : Nat :=
  let q := ps.map fun p => min p (n * u10W)
  let sum := q.foldl (· + ·) 0
  let len : Int := q.length
  let mx := q.foldl max 0
  let mn := q.foldl min (q.headD 0)
  if t < sum then 1
  else if 95 * smax * sum < mx * 100 * 128 * len then 2
  else if mn * 100 * 128 * len < 105 * smin * sum then 3
  else 0

/-- R199: an ACTIVE cell with p_i = `p` under the cap of `n` × 10 W of its phase. -/
def State.curtailCell (s : State) (k : Nat) (p : Int) (n : Nat) (binds : Bool) : State :=
  let m := s.mmode k
  let cap : Int := n * u10W
  let s0 := s.setMcell k { s.mcell k with tgt := n }
  let s1 := if (m = mTRACK ∨ m = mSCAN) ∧ cap * 101 < p * 100 ∧ binds = true then
      (if m = mSCAN then s0.abortScan k mTRACK 3 true else s0).setMode k mCURTAIL
    else if m = mCURTAIL ∧ (p * 105 ≤ cap * 100 ∨ binds = false) then s0.setMode k mTRACK
    else s0
  s1.showPwr k p

/-- R198, R199: the cap of a phase, and the cells it curtails. -/
def State.capPhase (s : State) (c ph : Nat) (t : Int) : State :=
  let act := s.actives c ph
  let ps := act.map s.avail
  let smin := s.get (F.GRID_CLU_BAL_SMIN c)
  let smax := s.get (F.GRID_CLU_BAL_SMAX c)
  let n := bisect (fun n => capBreak ps t smin smax n == 0) 17 0
  let top := ps.foldl max 0
  let binds := decide (n * u10W < top)
  let bound := if binds then capBreak ps t smin smax (n + 1) else 0
  let was := s.get (F.MPPT_PH_CAP_BOUND c ph)
  let s1 := (s.put (F.MPPT_PH_CAP_CAP c ph) (if binds then n else 0xFFFF)).put (F.MPPT_PH_CAP_BOUND c ph) bound
  let s2 := s1.eventIf ((was == 0) != (bound == 0)) Ev.MPPT_CURTAIL noInst [.w c, .w ph, .w bound]
  let s3 := s2.put (F.MPPT_PH_CEIL_TGT c ph) (satN 65535 (roundFree t (1000 * uW)).toNat)
  let s4 := (act.zip ps).foldl (fun s e => s.curtailCell e.1 e.2 n binds) s3
  let med := s4.medAvail c ph
  act.foldl (fun s k => s.noteDark k med) s4

/-- R196: PLIM in force; none when unlimited: a GOOSE value below 0 is 0, and before the first valid one there is no
limit (DESIGN CHOICE). -/
def State.plimNow (s : State) (c : Nat) : Option Int :=
  if s.flag (F.MPPT_CLU_PLIM_GSRC_EN c) then (s.mclu c).plim.map fun v => max 0 v * 1000 * uW
  else if s.get (F.MPPT_CLU_PLIM_PLIM c) = 0xFFFF then none
  else some (s.get (F.MPPT_CLU_PLIM_PLIM c) * 1000 * uW)

/-- R196–R199: the cap instant of a cluster. -/
def State.capInstant (s : State) (c : Nat) : State :=
  let n := s.instants 0
  let x := s.mclu c
  if x.cap = n then s
  else
    let g := s.gooseVal (s.get (F.MPPT_CLU_PLIM_GSRC c))
    let s0 := s.setMclu c { x with cap := n, plim := if g.2 then some g.1 else x.plim }
    if holdState (s.frtState c) then s0
    else
      let s1 := s0.ceilings c
      let a (ph : Nat) : Int := ((s1.actives c ph).map s1.avail).foldl (· + ·) 0
      let ce (ph : Nat) : Int := ((s1.mclu c).ceil.get ph).getD (((s1.actives c ph).map s1.prated).foldl (· + ·) 0)
      let m (ph : Nat) : Int := min (a ph) (ce ph)
      let sum := m 0 + m 1 + m 2
      let prt := (s1.prt c).map fun p => s1.puWatt c p 327680000
      let lim (v : Option Int) (y : Int) : Int := match v with
        | some p => min p y
        | none => y
      let plim := s1.plimNow c
      let t := lim plim (lim prt sum)
      let level := bisect (fun l => decide (min (m 0) (l * u10W) + min (m 1) (l * u10W) + min (m 2) (l * u10W) ≤ t)) 24 0
      let tx (ph : Nat) : Int := if sum ≤ t then m ph else min (m ph) (level * u10W)
      let s2 := [0, 1, 2].foldl (fun s ph =>
        (s.put (F.MPPT_PH_CEIL_CEIL c ph) (satN 65535 (roundFree (ce ph) (1000 * uW)).toNat)).capPhase c ph (tx ph)) s1
      let kw (p : Int) : Nat := satN 65535 (roundFree p (1000 * uW)).toNat
      let s3 := (s2.put (F.MPPT_CLU_PAVAIL_P c) (kw (a 0 + a 1 + a 2))).put (F.MPPT_CLU_PTGT_P c) (kw t)
      let by_ (v : Option Int) : Bool := match v with
        | some p => p == t && decide (t < sum)
        | none => false
      (s3.putB (F.MPPT_CLU_STAT_BY_PLIM c) (by_ plim)).putB (F.MPPT_CLU_STAT_BY_RT c) (by_ prt)

/-- R202: the cluster's part of MPPT_CLU_STAT, with the log of HOLD, at the freeze. -/
def State.mpptStat (s : State) (c : Nat) : State :=
  let h := holdState (s.frtState c)
  let cells := (cellsOf c).filter s.inMap
  let s1 := (s.putB (F.MPPT_CLU_STAT_HOLD c) h).putB (F.MPPT_CLU_STAT_CURT c) (cells.any fun k => s.mmode k == mCURTAIL)
  let s2 := s1.putSat (F.MPPT_CLU_STAT_SCANNING c) (cells.filter fun k => s.mmode k == mSCAN).length
  s2.eventIf (h != s.flag (F.MPPT_CLU_STAT_HOLD c)) Ev.MPPT_HOLD noInst [.w c, .w (s.frtState c)]

/-- MPPT_STEP (R190): a cap instant of the same cycle comes first (R203). -/
def execMpptStep (t : Nat) (k : CellIx) (s : State) : Host.Outcome State Fault Refusal :=
  atTime t s fun s => s.inDom domVOTE fun s => (s.capInstant (ringOf k)).mpptStep k

/-- MPPT_CAP_INSTANT (R196). -/
def execMpptCapInstant (t : Nat) (c : RingIx) (s : State) : Host.Outcome State Fault Refusal :=
  atTime t s fun s => s.inDom domVOTE fun s => s.capInstant c

/-- R201: some cell of the phase is DARK. -/
def State.showDark (s : State) (c ph : Nat) : State :=
  s.putB (F.MPPT_PH_CAP_DARK c ph) ((s.phaseCells c ph).any fun k => s.flag (F.MPPT_CELL_STAT_DARK k))

/-- MPPT_DARK (R201): below the fraction for 60 s. -/
def execMpptDark (t : Nat) (k : CellIx) (s : State) : Host.Outcome State Fault Refusal :=
  atTime t s fun s => s.inDom domVOTE fun s =>
    let x := s.mcell k
    if !s.flag (F.MPPT_CELL_STAT_DARK k) ∧ s.due (x.darkAt.map (· + 60 * uS)) then
      ((s.put (F.MPPT_CELL_STAT_DARK k) 1).showDark (ringOf k) (s.phaseOf k)).event Ev.MPPT_DARK k
        [.w (k : Nat), .w (roundFree (s.avail k) uW)]
    else s

/-- MPPT_DARK_CLEAR (R201): above the fraction for 60 s. -/
def execMpptDarkClear (t : Nat) (k : CellIx) (s : State) : Host.Outcome State Fault Refusal :=
  atTime t s fun s => s.inDom domVOTE fun s =>
    if s.flag (F.MPPT_CELL_STAT_DARK k) ∧ s.due ((s.mcell k).brightAt.map (· + 60 * uS)) then
      (s.put (F.MPPT_CELL_STAT_DARK k) 0).showDark (ringOf k) (s.phaseOf k)
    else s

/-! ### MPPT_CMD (R191, R194) -/

/-- The word of an MPPT_CMD write. -/
def mpptCmdWord (ix cmd : Nat) : Word := BitVec.ofNat 32 (ix % 1024 + cmd % 8 * 1024)

/-- R191, R194: the effect of an accepted command. -/
def State.mpptAct (s : State) (k cmd : Nat) : State :=
  match cmd with
  | 1 => if s.mmode k = mTRACK then s.enqueue k true else s
  | 2 => ((cellsOf (ringOf k)).filter fun j => s.inMap j && s.mmode j == mTRACK).foldl (fun s j => s.enqueue j true) s
  | 3 => s.abortScan k mTRACK 4 false
  | _ => s

/-- R14, R191: a write of MPPT_CMD; a cell command for a cell that is not ACTIVE returns STATE_MISMATCH. -/
def State.mpptCmd (s : State) (n : Nat) (value mask : Word) : Status × State :=
  let new := masked (s.word R.MPPT_CMD) value mask
  let k := fieldOf new 0 10
  let cmd := fieldOf new 10 3
  let bad : Status := if 3 < cmd then .badValue else if cmd ≠ 0 ∧ s.cellState k ≠ cACTIVE then .stateMismatch else .ok
  s.writeIf n R.MPPT_CMD value mask bad fun s => s.mpptAct k cmd

def State.mpptCmdBy (s : State) (n k cmd : Nat) : State :=
  s.access n domVOTE fun s => s.mpptCmd n (mpptCmdWord k cmd) (BitVec.allOnes 32)

/-- MPPT_CMD_NONE (R191). -/
def execMpptCmdNone (t : Nat) (n : SessIx) (k : CellIx) (s : State) : Host.Outcome State Fault Refusal :=
  atTime t s fun s => s.mpptCmdBy n k 0

/-- SCAN_CELL (R191). -/
def execScanCell (t : Nat) (n : SessIx) (k : CellIx) (s : State) : Host.Outcome State Fault Refusal :=
  atTime t s fun s => s.mpptCmdBy n k 1

/-- SCAN_CLUSTER (R191). -/
def execScanCluster (t : Nat) (n : SessIx) (k : CellIx) (s : State) : Host.Outcome State Fault Refusal :=
  atTime t s fun s => s.mpptCmdBy n k 2

/-- CANCEL_SCAN (R194). -/
def execCancelScan (t : Nat) (n : SessIx) (k : CellIx) (s : State) : Host.Outcome State Fault Refusal :=
  atTime t s fun s => s.mpptCmdBy n k 3

end Sys2Proof.Machine
end

