-- ==== Sys2Proof/Machine/Frt.lean ====
section
/-! DEFINITION. The ride-through machines of the clusters and islanding detection (R204–R228). -/

namespace Sys2Proof.Machine

/-! ### Governing voltage and pre-fault values (R207, R208) -/

/-- v at an angle of 2^-32 turn plus `n` thirds of a turn, in Q2.30, from a code of 0x4000 per unit. -/
def polar3 (m : Int) (a : Int) (n : Int) : Int × Int :=
  let c := ((3 * a + n * 2 ^ 32) % (3 * 2 ^ 32)).toNat
  (roundFree (m * cosTurn c (3 * 2 ^ 32)) (2 ^ 64), roundFree (m * sinTurn c (3 * 2 ^ 32)) (2 ^ 64))

/-- R207: the phase-to-neutral phasors of a point at T_k, Q2.30. -/
def State.phaseVolt (s : State) (p : Nat) (n : Int) : Int × Int :=
  let a := polar3 (s.gridSeq p 0).1 (s.gridSeq p 0).2 (-n)
  let b := polar3 (s.gridSeq p 1).1 (s.gridSeq p 1).2 n
  let z := polar3 (s.gridSeq p 2).1 (s.gridSeq p 2).2 0
  (a.1 + b.1 + z.1, a.2 + b.2 + z.2)

/-- The square of a magnitude. -/
def sq2 (v : Int × Int) : Nat := (v.1 * v.1 + v.2 * v.2).toNat

/-- R207: U of a cluster, code. -/
def State.governU (s : State) (c : Nat) : Int :=
  let p := s.syncPt c
  let v (n : Int) := s.phaseVolt p n
  let code (q : Nat) : Int := sat16 (roundFree (sqrtFree q) 65536)
  let min3 (a b d : Nat) : Nat := min a (min b d)
  match s.get (F.FRT_CLU_CFG_VSEL c) with
  | 0 => s.ptQty p 0
  | 1 => if s.source p = srcNONE then 0 else code (min3 (sq2 (v 0)) (sq2 (v 1)) (sq2 (v 2)))
  | _ =>
    let d (x y : Int × Int) : Nat := sq2 (x.1 - y.1, x.2 - y.2) / 3
    if s.source p = srcNONE then 0 else code (min3 (d (v 0) (v 1)) (d (v 1) (v 2)) (d (v 2) (v 0)))

/-- R208: U, its values over the last second or since the start, and in NORMAL their mean as U_pre. -/
def State.takeU (s : State) (c : Nat) : State :=
  let u := s.governU c
  let s1 := s.putS (F.FRT_CLU_U_U c) u
  if s.cluRunning c then
    let f := s1.fclu c
    let us := (s1.now, u) :: f.us.filter fun e => decide (s1.now < e.1 + uS)
    let s2 := s1.setFclu c { f with us := us }
    if s.frtState c = sNORMAL then s2.putS (F.FRT_CLU_U_U_PRE c) (meanQ 0 (us.map (·.2))) else s2
  else s1

/-- R208: the pre-fault values are frozen at a transition out of NORMAL. -/
def FrtClu.freezePre (f : FrtClu) : FrtClu := { f with idPre := meanQ 0 f.ids, iqPre := meanQ 0 f.iqs, pPre := meanQ 0 f.ps }

/-! ### Starting (R110, R127, R174, R216) -/

/-- R216, R214: the first condition of a start that fails: 1 R110, 2 R127, 3 R174, 4 DTT, 5 ACTIVE, 6 the ring of R26,
7 a marked cell (R307). -/
def State.startBar (s : State) (c : Nat) : Option Nat :=
  if !s.startOk c then some 1
  else if !s.flag (F.PWM_CLU_STAT_CFG_OK c) then some 2
  else if !s.synced c then some 3
  else if s.flag F.ISL_STAT_DTT then some 4
  else if s.flag F.ISL_STAT_ACTIVE then some 5
  else if (s.ring c).unfit && s.anyRunning then some 6
  else if (cellsOf c).any s.marked then some 7
  else none

/-- R216, R174: a refused start is logged at every evaluation that skips it. -/
def State.refuseStart (s : State) (c why : Nat) : State :=
  (s.event Ev.FRT_START_REFUSED noInst [.w c, .w why]).eventIf (why == 3) Ev.GRID_NOT_SYNCED noInst [.w c]

/-- R216, R25, R124, R177, R179: a start that the table has taken; the current-control program is reset at the freeze of
its first cycle. `others` says that the converter runs already, so that D stands (R26). -/
def State.clusterStart (s : State) (c : Nat) (others : Bool) : State :=
  let s1 := if others then s else s.chooseD.2
  let s2 := (s1.haltRelease c).put (F.FRT_CLU_STAT_FORCED c) 0
  let s2 := s2.setGclu c { s2.gclu c with starts := true, halted := false }
  let mid := s2.ringV1 c && s2.get (F.PWM_CLU_CFG_UPDATE_AT c) == 1
  let s3 := (s2.put (F.PWM_CLU_STAT_UPD_EFF c) (s2.updEff c)).eventIf mid Ev.PWM_MID_DISABLED noInst [.w c]
  let s4 := s3.setLead c
  let s5 := s4.setCells fun _ => { s4.cells with
    winEnd := s4.cells.winEnd.set c (some (s4.now + 2 * s4.carP c + 10 * s4.periodU)) }
  ((cellsOf c).filter fun k => s5.cellState k == cREADY).foldl (fun s k =>
    s.setCellX k { s.cell k with mode := mRELEASE, byp := 0 }) s5

/-! ### Transitions (R205, R209, R213, R215, R218) -/

/-- R209: t_f of a transition with a dwell (units). -/
def setsTf (from_ to_ : Nat) : Bool := (from_ == 0 || from_ == 3) && (to_ == 1 || to_ == 2 || to_ == 4)

/-- R204: the active power that a cluster delivers, Q2.30: |V+| times its limited i_d+. -/
def State.delivered (s : State) (c : Nat) : Int :=
  roundFree ((s.fclu c).refs.getD 0 0 * s.ptQty (s.syncPt c) 0) 0x4000

/-- R215: the entry of a state, with what every entry does but the halt; `e` is the table entry's number or 0xFF. The
means of R208 start anew with a start; BLIND holds the references of the last evaluation before it (R204). -/
def State.enterRaw (s : State) (c to_ e dwell : Nat) : State :=
  let from_ := s.frtState c
  let f := s.fclu c
  let f1 := if from_ = sNORMAL then f.freezePre else f
  let new := decide (7 ≤ from_)
  let s1 := s.setFclu c { f1 with at_ := s.now, held := [], pEntry := s.delivered c, idle := 0,
                                  refs := if to_ = sBLIND then f1.evalRefs else f1.refs,
                                  us := if new then [] else f1.us, ids := if new then [] else f1.ids,
                                  iqs := if new then [] else f1.iqs, ps := if new then [] else f1.ps }
  let s2 := ((s1.put (F.FRT_CLU_STAT_STATE c) to_).put (F.FRT_CLU_STAT_PREV c) from_).put (F.FRT_CLU_STAT_PEND c) 0
  let s3 := if setsTf from_ to_ then
      s2.put64 (R.FRT_CLU_TF_LO c) (R.FRT_CLU_TF_HI c) ((s.mtUnits - dwell) / 8) else s2
  let s4 := if from_ = sTRIPPED then s3.put (F.FRT_CLU_STAT_TRIP_OUT c) 0 else s3
  let s5 := match to_ with
    | 1 => s4.count (F.FRT_CLU_CNT_LV c) 1
    | 2 => s4.count (F.FRT_CLU_CNT_HV c) 1
    | 8 => s4.count (F.FRT_CLU_CNT_TRIPS c) 1
    | _ => s4
  s5.event Ev.FRT_STATE noInst [.w c, .w from_, .w to_, .w e]

/-- R205, R215: the entry of a state: leaving the running states halts the cluster's ring. -/
def State.enterState (s : State) (c to_ e dwell : Nat) : State :=
  let s1 := s.enterRaw c to_ e dwell
  if 7 ≤ to_ ∧ s.frtState c < 7 then s1.laneHalt c else s1

/-- R218, R279: a forced entry into CEASED. -/
def State.forceCease (s : State) (c cause : Nat) : State :=
  if !s.cluRunning c then s
  else
    let s1 := (s.enterState c sCEASED 0xFF 0).put (F.FRT_CLU_STAT_FORCED c) 1
    (s1.count (F.FRT_CLU_CNT_FORCED c) 1).event Ev.FRT_FORCED noInst [.w c, .w cause]

/-- R279: the entry into CEASED by HOLD: the halt request carries SRC_CH 0xFF. -/
def State.holdCease (s : State) (c : Nat) : State :=
  if !s.cluRunning c then s
  else
    let s1 := ((s.haltInject c 2 0xFF).enterRaw c sCEASED 0xFF 0).put (F.FRT_CLU_STAT_FORCED c) 1
    (s1.count (F.FRT_CLU_CNT_FORCED c) 1).event Ev.FRT_FORCED noInst [.w c, .w 3]

/-- R213: the actions of a taken entry, in the order of their bits. -/
def State.frtActions (s : State) (c act : Nat) : State :=
  let s1 := if bit act 0 then s.setCapAsk fun _ => s.capAsk ++ [(s.mtUnits, 0, c)] else s
  let s2 := if bit act 1 then (s1.put (F.FRT_CLU_STAT_TRIP_OUT c) 1).event Ev.FRT_TRIP_OUT noInst [.w c] else s1
  if bit act 3 then
    let s3 := (s2.put F.ISL_STAT_DTT_SEEN 0).put F.ISL_STAT_ACTIVE 0
    s3.setIsl { s3.isl with above := 0, below := 0 }
  else s2

/-! ### Conditions (R214) -/

/-- R214: fast conditions. -/
def fastCond (cond : Nat) : Bool := cond == 13 || cond == 14 || cond == 18 || cond == 19

/-- R214: a condition before NEG. -/
def State.frtCond (s : State) (c cond : Nat) (thr : Int) : Bool :=
  let p := s.syncPt c
  let u := s.getS (F.FRT_CLU_U_U c)
  let t : Int := s.faultMs c
  let freq := s.ptQty p 8
  match cond with
  | 1 => true
  | 2 => decide (u < thr)
  | 3 => decide (thr < u)
  | 4 => decide (0x4000 - thr ≤ u) && decide (u ≤ 0x4000 + thr)
  | 5 => match s.roleCurve (F.FRT_CLU_CURVE_LV c) t with
    | some y => decide (u < y)
    | none => false
  | 6 => match s.roleCurve (F.FRT_CLU_CURVE_HV c) t with
    | some y => decide (y < u)
    | none => false
  | 7 => s.flag (F.GRID_PT_STAT_FREQ_VALID p) && decide (freq < thr)
  | 8 => s.flag (F.GRID_PT_STAT_FREQ_VALID p) && decide (thr < freq)
  | 9 => s.flag (F.GRID_PT_STAT_ROCOF_VALID p) && decide (thr < (s.ptQty p 9).natAbs)
  | 10 => decide (thr < (s.ptQty p 10).natAbs)
  | 11 => s.flag F.ISL_STAT_PASSIVE
  | 12 => s.flag F.ISL_STAT_ACTIVE
  | 13 => s.flag F.ISL_STAT_DTT && s.flag F.ISL_STAT_DTT_VALID
  | 14 => s.flag F.ISL_CFG_DTT_EN && !s.flag F.ISL_STAT_DTT_VALID
  | 15 => s.source p == srcBLIND
  | 16 => s.source p == srcNONE
  | 17 => s.synced c
  | 18 => s.flag (F.RING_HALT_STAT_HALT_ACTIVE c)
  | 19 => (cellsOf c).any fun k => s.inMap k && s.flag (F.CELL_STATE_PHYS_VALID k) && s.get (F.CELL_STATE_PHYS k) == pDISABLED
  | 20 =>
    let n := s.get (F.FRT_CLU_CURVE_RAMP c)
    n == 63 || (match (s.curvePts n).getLast? with
      | some e => decide (e.1 ≤ (msSince s.now (s.fclu c).at_ : Nat))
      | none => true)
  | 21 => s.startOk c && s.flag (F.PWM_CLU_STAT_CFG_OK c) && s.synced c
  | 22 => bit (s.get (F.FRT_CLU_STAT_PEND c)) 0
  | 23 => bit (s.get (F.FRT_CLU_STAT_PEND c)) 1
  | 24 => bit (s.get (F.FRT_CLU_STAT_PEND c)) 2
  | 25 => [0, 1, 2].any fun ph => s.nMap c ph != 0 && decide (s.mNow c ph < 0)
  | 26 => decide (thr < s.ptQty p 2)
  | 27 =>
    let g := s.gooseVal (codeOf 16 thr % 2048)
    g.2 && g.1 != 0
  | _ => false

/-! ### The evaluation (R215, R216) -/

/-- R213: an entry as read from its table. -/
structure SmEntry where
  e     : Nat
  to_   : Nat
  cond  : Nat
  neg   : Bool
  thr   : Int
  dwell : Nat
  act   : Nat
  deriving DecidableEq, Repr, Inhabited

/-- R213: the used entries of a table that match a state, in table order. -/
def State.smEntries (s : State) (tab st : Nat) : List SmEntry :=
  ((List.range 64).filter fun e =>
    let f := s.get (F.TBL_SM_COND_FROM tab e)
    s.get (F.TBL_SM_COND_COND tab e) != 0 && (f == st || (f == 15 && decide (st < 7)))).map fun e =>
    { e := e, to_ := s.get (F.TBL_SM_COND_TO tab e), cond := s.get (F.TBL_SM_COND_COND tab e),
      neg := s.flag (F.TBL_SM_COND_NEG tab e), thr := s.getS (F.TBL_SM_COND_THR tab e),
      dwell := s.get (F.TBL_SM_ACT_DWELL tab e) * (uMs / 10), act := s.get (F.TBL_SM_ACT_ACTION tab e) }

/-- R215, step 1: the condition timers of the tested entries. -/
def State.smTimers (s : State) (c : Nat) (l : List SmEntry) : State :=
  l.foldl (fun s x =>
    let hold := s.frtCond c x.cond x.thr != x.neg
    let f := s.fclu c
    s.setFclu c { f with held := f.held.set x.e (if hold then some ((f.held.get x.e).getD s.now) else none) }) s

/-- R215, step 2: the first entry that is taken; TRIPPED leaves only by a command to reset (R204); a START that is barred,
or for which no D is feasible (R25), is skipped and logged. -/
def State.smScan (s : State) (c : Nat) : List SmEntry → State
  | [] => s
  | x :: r =>
    let ready := match (s.fclu c).held.get x.e with
      | some from_ => decide (from_ + x.dwell ≤ s.now)
      | none => false
    let start := bit x.act 2
    let others := s.anyRunning
    if !ready || x.to_ == s.frtState c || (s.frtState c == sTRIPPED && (x.cond != 24 || x.neg)) then s.smScan c r
    else
      match (if start then s.startBar c else none) with
      | some why => (s.refuseStart c why).smScan c r
      | none =>
        if start && !others && s.feasible.isNone then s.infeasible.smScan c r
        else
        let s1 := (s.frtActions c x.act).enterState c x.to_ x.e x.dwell
        let s2 := s1.put (F.FRT_CLU_STAT_ENTRY c) x.e
        let s3 := if start then s2.clusterStart c others else s2
        (s3.stageSlow c).stageRefs c |>.showPrt c

/-- R218: the two overrides. -/
def State.frtForced (s : State) (c : Nat) (full : Bool) : State :=
  if !s.cluRunning c then s
  else
    let f := s.fclu c
    let none_ := s.source (s.syncPt c) == srcNONE
    let idle := if !full then f.idle else if s.cluActive c || s.inStart c then 0 else f.idle + 1
    let at_ := if none_ then some (f.noneAt.getD s.now) else none
    let s1 := s.setFclu c { f with idle := idle, noneAt := at_ }
    if 2 ≤ idle then s1.forceCease c 1
    else if s.due (at_.map (· + 20 * uMs)) then s1.forceCease c 2
    else s1

/-- FRT_EVALUATION (R215): at the freeze of each cycle that EVAL_DIV divides. -/
def execFrtEvaluation (t : Nat) (c : RingIx) (s : State) : Host.Outcome State Fault Refusal :=
  atTime t s fun s => s.inDom domVOTE fun s =>
    let k := s.link.cycle
    let f := s.fclu c
    if !s.link.frozen ∨ k % max 1 (s.get F.FRT_CFG_EVAL_DIV) ≠ 0 ∨ f.evalK = some k then s
    else
      let s1 := (s.setFclu c { f with evalK := some k, scanK := some k }).takeU c
      let l := s1.smEntries (s1.get (F.FRT_CLU_CFG_TABLE c)) (s1.frtState c)
      let st := s1.frtState c
      let s2 := (s1.smTimers c l).smScan c l
      let s3 := if s2.frtState c = st then s2.frtForced c true else s2
      if s3.frtState c = sBLIND then s3 else s3.setFclu c { s3.fclu c with evalRefs := (s3.fclu c).refs }

/-- FRT_FAST_SCAN (R215): at the freezes between evaluations, fast conditions only. -/
def execFrtFastScan (t : Nat) (c : RingIx) (s : State) : Host.Outcome State Fault Refusal :=
  atTime t s fun s => s.inDom domVOTE fun s =>
    let k := s.link.cycle
    let f := s.fclu c
    if !s.link.frozen ∨ k % max 1 (s.get F.FRT_CFG_EVAL_DIV) = 0 ∨ f.scanK = some k then s
    else
      let s1 := s.setFclu c { f with scanK := some k }
      let l := (s1.smEntries (s1.get (F.FRT_CLU_CFG_TABLE c)) (s1.frtState c)).filter fun x => fastCond x.cond
      (s1.smTimers c l).smScan c l

/-! ### Commands (R219) -/

/-- R219: a write of FRT_CLU_CMD. -/
def State.frtCmd (s : State) (n c : Nat) (value mask : Word) : Status × State :=
  let cmd := fieldOf (masked (s.word (R.FRT_CLU_CMD c)) value mask) 0 2
  let st := s.frtState c
  let ok := match cmd with
    | 0 => true
    | 1 => st == sCEASED
    | 2 => decide (st < 7)
    | _ => st == sTRIPPED
  s.writeIf n (R.FRT_CLU_CMD c) value mask (if ok then .ok else .stateMismatch) fun s =>
    if cmd = 0 then s
    else (s.setFclu c { s.fclu c with cmdAt := s.now }).put (F.FRT_CLU_STAT_PEND c)
      (s.get (F.FRT_CLU_STAT_PEND c) ||| 2 ^ (cmd - 1))

def State.frtCmdBy (s : State) (n c cmd : Nat) : State :=
  s.access n domVOTE fun s => s.frtCmd n c (BitVec.ofNat 32 cmd) (BitVec.allOnes 32)

/-- FRT_CMD_NONE (R219). -/
def execFrtCmdNone (t : Nat) (n : SessIx) (c : RingIx) (s : State) : Host.Outcome State Fault Refusal :=
  atTime t s fun s => s.frtCmdBy n c 0

/-- FRT_CMD_START (R219). -/
def execFrtCmdStart (t : Nat) (n : SessIx) (c : RingIx) (s : State) : Host.Outcome State Fault Refusal :=
  atTime t s fun s => s.frtCmdBy n c 1

/-- FRT_CMD_STOP (R219). -/
def execFrtCmdStop (t : Nat) (n : SessIx) (c : RingIx) (s : State) : Host.Outcome State Fault Refusal :=
  atTime t s fun s => s.frtCmdBy n c 2

/-- FRT_CMD_RESET (R219). -/
def execFrtCmdReset (t : Nat) (n : SessIx) (c : RingIx) (s : State) : Host.Outcome State Fault Refusal :=
  atTime t s fun s => s.frtCmdBy n c 3

/-- FRT_CMD_EXPIRED (R219): 10 s without a transition that names the command. -/
def execFrtCmdExpired (t : Nat) (c : RingIx) (s : State) : Host.Outcome State Fault Refusal :=
  atTime t s fun s => s.inDom domVOTE fun s =>
    if s.get (F.FRT_CLU_STAT_PEND c) ≠ 0 ∧ (s.fclu c).cmdAt + 10 * uS ≤ s.now then
      (s.put (F.FRT_CLU_STAT_PEND c) 0).event Ev.FRT_CMD_EXPIRED noInst [.w (c : Nat)]
    else s

/-! ### Table checks (R217) -/

/-- R214: the conditions whose threshold is in pu. -/
def puCond (c : Nat) : Bool := c == 2 || c == 3 || c == 4 || c == 7 || c == 8 || c == 26

/-- R217: the first failing check of an entry. -/
def State.smBad (s : State) (tab e : Nat) : Option Nat :=
  let from_ := s.get (F.TBL_SM_COND_FROM tab e)
  let to_ := s.get (F.TBL_SM_COND_TO tab e)
  let cond := s.get (F.TBL_SM_COND_COND tab e)
  let thr := s.getS (F.TBL_SM_COND_THR tab e)
  if cond = 0 then none
  else if ¬((from_ ≤ 8 ∨ from_ = 15) ∧ to_ ≤ 8) then some 1
  else if 27 < cond then some 2
  else if bit (s.get (F.TBL_SM_ACT_ACTION tab e)) 2 ∧ ¬(from_ = 7 ∧ to_ = 0) then some 3
  else if (puCond cond ∧ thr < 0) ∨ (cond = 27 ∧ ¬(0 ≤ thr ∧ thr < 2048 ∧
      s.flag (F.GOOSE_SUB_CFG_EN (s.get (F.GOOSE_VAL_MAP_SUB thr.toNat))))) then some 4
  else none

/-- R217: check 5 of a cluster. -/
def State.curvesBad (s : State) (c : Nat) : Bool :=
  let ok (f : Fld) (typ : Nat) : Bool :=
    let n := s.get f
    n == 63 || (s.curveOk n && s.get (F.TBL_CURVE_HDR_TYPE n) == typ)
  s.get (F.FRT_CLU_CFG_VSEL c) == 3 ||
  !(ok (F.FRT_CLU_CURVE_LV c) 1 && ok (F.FRT_CLU_CURVE_HV c) 1 && ok (F.FRT_CLU_CURVE_KPOS c) 2 &&
    ok (F.FRT_CLU_CURVE_KNEG c) 2 && ok (F.FRT_CLU_CURVE_RAMP c) 1) ||
  (s.flag (F.FRT_CLU_CFG_NEG_EN c) && s.get (F.FRT_CLU_CURVE_KNEG c) == 63)

/-- R217: the first check that the tables and assignments fail: check, table or curve, entry. -/
def State.frtCheck (s : State) : Option (Nat × Nat × Nat) :=
  let l := (List.range 4).flatMap fun tab => (List.range 64).map fun e => (tab, e)
  let entry := l.findSome? fun x => (s.smBad x.1 x.2).map (·, x.1, x.2)
  let clu := (List.range 8).findSome? fun c => if s.curvesBad c then some (5, c, 0) else none
  let used := (s.clusters.map fun c => s.get (F.FRT_CLU_CFG_TABLE c)).eraseDups
  let leaves (tab st : Nat) : Bool := (s.smEntries tab st).any fun x => x.to_ != st
  let tabs := used.findSome? fun tab => if leaves tab 8 && leaves tab 7 then none else some (6, tab, 0)
  entry.or (clu.or tabs)

/-! ### Islanding detection (R220–R227), while PBUS and the lanes are on (R220) -/

/-- R221: DTT follows its GOOSE value while that is valid; `arrival` is the frame's arrival, ns. -/
def State.islFollow (s : State) (arrival : Nat) : State :=
  let en := s.flag F.ISL_CFG_DTT_EN
  let g := s.gooseVal (s.get F.ISL_CFG_DTT_VAL)
  let valid := en && g.2
  let val := valid && g.1 != 0
  let was := s.flag F.ISL_STAT_DTT
  let lost := s.flag F.ISL_STAT_DTT_VALID && !valid
  let s1 := (s.putB F.ISL_STAT_DTT_VALID valid).putB F.ISL_STAT_DTT (if valid then val else was && en)
  let s2 := s1.eventIf (lost && en) Ev.ISL_DTT_LOST noInst []
  if val && !was then
    ((s2.put F.ISL_STAT_DTT_SEEN 1).put64 R.ISL_DTT_TIME_LO R.ISL_DTT_TIME_HI arrival).event Ev.ISL_DTT noInst []
  else s2

/-- R221: the value as the lanes see it at a freeze, with the arrival of its frame. -/
def State.islTake (s : State) : State :=
  let g := s.get (F.GOOSE_VAL_MAP_SUB (s.get F.ISL_CFG_DTT_VAL))
  s.islFollow (s.get64 (R.GOOSE_SUB_ARR_LO g) (R.GOOSE_SUB_ARR_HI g))

/-- R224: the sum of the injected references of the injecting clusters, in 0.1 mA. -/
def State.injected (s : State) : Int :=
  s.isl.sign * (((List.range 8).filter s.injects).foldl
    (fun a c => a + s.get F.ISL_ACT_CFG_INJ * s.get (F.GRID_CLU_IBASE_IBASE c)) 0 : Nat)

/-- R223, R225: what the detectors take at each freeze. V− is taken in the frame of the injection, which turns against
the positive sequence. -/
def State.islFreeze (s : State) : State :=
  let p := s.get F.ISL_CFG_PT
  let x := s.isl
  let roc := s.flag (F.GRID_PT_STAT_ROCOF_VALID p) &&
    decide (s.get F.ISL_PASSIVE_ROCOF_TH < (s.getS (F.GRID_PT_ROCOF_ROCOF p)).natAbs)
  let st := s.fstate p
  let shift := (st == fTRACKING || st == fHOLD) &&
    decide (s.get F.ISL_PASSIVE_VS_TH * 2 ^ 32 < 360 * (s.vshift p).natAbs)
  let inj := (List.range 8).filter s.injects
  let some_ := !inj.isEmpty
  let v := polar ((s.gridSeq p 1).1 * 256) ((s.gridSeq p 1).2 + (s.gridSeq p 0).2)
  let fit := x.fit && some_ && decide (s.source p ≤ 1) && (x.n == 0 || x.inj == inj)
  let s1 := s.setIsl { x with
    rocofAt := if roc then some (x.rocofAt.getD s.now) else none,
    shift := shift || (x.shift && !s.flag F.ISL_STAT_PASSIVE),
    quietAt := if roc || shift then none else some (x.quietAt.getD s.now),
    vd := x.vd + v.1, vq := x.vq + v.2, id := x.id + s.injected * 256, n := x.n + 1, fit := fit,
    inj := if x.n = 0 then inj else x.inj }
  s1.putB F.ISL_STAT_INJECTING some_

/-- ISL_PASSIVE (R223). -/
def execIslPassive (t : Nat) (s : State) : Host.Outcome State Fault Refusal :=
  atTime t s fun s => s.inDom domVOTE fun s => s.inDom domPBUS fun s =>
    let p := s.get F.ISL_CFG_PT
    let x := s.isl
    let roc := s.due (x.rocofAt.map (· + s.get F.ISL_PASSIVE_PDWELL * 10 * uMs))
    if s.flag F.ISL_STAT_PASSIVE ∨ !(roc || x.shift) then s
    else (s.put F.ISL_STAT_PASSIVE 1).event Ev.ISL_PASSIVE noInst
      [.w (if x.shift then angleCode (s.vshift p) else s.getS (F.GRID_PT_ROCOF_ROCOF p))]

/-- ISL_PASSIVE_CLEAR (R223): neither condition for 2 s. -/
def execIslPassiveClear (t : Nat) (s : State) : Host.Outcome State Fault Refusal :=
  atTime t s fun s => s.inDom domVOTE fun s => s.inDom domPBUS fun s =>
    if s.due (s.isl.quietAt.map (· + 2 * uS)) then s.put F.ISL_STAT_PASSIVE 0 else s

/-- R224: the LFSR with taps 16, 14, 13 and 11, advanced once. -/
def lfsrNext (v : Nat) : Nat :=
  let b := (v ^^^ (v / 4) ^^^ (v / 8) ^^^ (v / 32)) % 2
  v / 2 + b * 32768

/-- R224: the chip of an instant of module time: chip n begins at n × 2 / f_nom, rounded down to the ns. -/
def chipOf (fnom mt : Nat) : Nat :=
  let n := mt * fnom / (2 * uS)
  if (n + 1) * 2 * uS / fnom / uNs * uNs ≤ mt then n + 1 else n

/-- ISL_CHIP (R224, R225): a chip boundary. Chips that have passed unseen advance the sequence and are not fit. -/
def execIslChip (t : Nat) (s : State) : Host.Outcome State Fault Refusal :=
  atTime t s fun s => s.inDom domVOTE fun s => s.inDom domPBUS fun s =>
    let n := chipOf s.fnom s.mtUnits
    let x := s.isl
    if x.chip = n then s
    else
      let m (v : Int) : Int := if x.n = 0 then 0 else roundFree v x.n
      let one : Chip := { sign := x.sign, vd := m x.vd, vq := m x.vq, id := m x.id, iq := m x.iq, fit := x.fit && x.n != 0 }
      let gone := n - x.chip - 1
      let none_ : Chip := { one with fit := false }
      s.setIsl { x with chip := n, lfsr := Nat.repeat lfsrNext ((gone + 1) % 65535) x.lfsr, vd := 0, vq := 0, id := 0,
                        iq := 0, n := 0, fit := true,
                        chips := (List.replicate (min 16 gone) none_ ++ (one :: x.chips)).take 16,
                        since := x.since + gone + 1 }

/-- R225: |Σ s (x − x̄)| over chips, of two components. -/
def chipSum (l : List Chip) (f g : Chip → Int) : Nat :=
  let n : Int := l.length
  let sum (h : Chip → Int) : Int := (l.map h).foldl (· + ·) 0
  let ss := sum (·.sign)
  let a := sum (fun c => c.sign * f c) * n - ss * sum f
  let b := sum (fun c => c.sign * g c) * n - ss * sum g
  sqrtFree (a * a + b * b).toNat

/-- R225: Z− over the last 16 chips, 0.1 Ω. -/
def State.zneg (s : State) (l : List Chip) : Nat :=
  let v := chipSum l (·.vd) (·.vq)
  let i := chipSum l (·.id) (·.iq)
  satN 65535 (ratioFree (v * isqrt (2 ^ 81 / 3) * s.get (F.GRID_PT_VNOM_VNOM (s.get F.ISL_CFG_PT)) * 1000000 : Nat)
    (2 ^ 54 * i : Nat)).toNat

/-- ISL_ESTIMATE (R225): every four chips. -/
def execIslEstimate (t : Nat) (s : State) : Host.Outcome State Fault Refusal :=
  atTime t s fun s => s.inDom domVOTE fun s => s.inDom domPBUS fun s =>
    let x := s.isl
    if x.since < 4 then s
    else if x.chips.length < 16 ∨ !x.chips.all (·.fit) then
      (s.setIsl { x with since := x.since % 4 }).put F.ISL_STAT_Z_VALID 0
    else
      let z := s.zneg x.chips
      let zth := s.get F.ISL_ACT_CFG_ZTH
      let above := if zth < z then x.above + 1 else 0
      let below := if z < zth then x.below + 1 else 0
      let s1 := (((s.setIsl { x with since := x.since % 4, above := above, below := below }).put F.ISL_STAT_Z_VALID 1).put
        F.ISL_ZNEG_Z z).countWrap F.ISL_ZNEG_COUNT
      if 2 ≤ above ∧ !s.flag F.ISL_STAT_ACTIVE then (s1.put F.ISL_STAT_ACTIVE 1).event Ev.ISL_ACTIVE noInst [.w z]
      else if 4 ≤ below then s1.put F.ISL_STAT_ACTIVE 0
      else s1

/-- R205: every cluster is in CEASED after image load; R224: the LFSR takes its seed. -/
def State.frtLoad (s : State) : State :=
  let s1 := s.forN 8 fun s c =>
    ((((s.setFclu c { at_ := s.now }).put (F.FRT_CLU_STAT_STATE c) 7).put (F.FRT_CLU_STAT_PREV c) 7).put
      (F.FRT_CLU_STAT_PEND c) 0).put (F.FRT_CLU_STAT_TRIP_OUT c) 0
  s1.setIsl { lfsr := s.get F.ISL_SEED_SEED, chip := chipOf s.fnom s.mtUnits }

end Sys2Proof.Machine
end

