-- ==== Sys2Proof/Machine/Strm.lean ====
section
/-! DEFINITION. The continuous streams of Carafe (R326): which are enabled, and the records that the module forms for
them, before they are offered to staging. -/

namespace Sys2Proof.Machine

def State.strmKind (s : State) (m : Nat) : Nat := if m < 3 then 5 + m else s.get (F.REC_STRM_CFG_KIND m)
def State.strmPrio (s : State) (m : Nat) : Nat := if m < 3 then 0 else s.get (F.REC_STRM_CFG_PRIO m)
def State.strmOn (s : State) (m : Nat) : Bool :=
  decide (m < 3) || (s.flag (F.REC_STRM_CFG_EN m) && s.strmKind m != 0 && decide (s.strmKind m < 5))

/-- R326: the enabled streams of a kind. -/
def State.strmsOf (s : State) (kind : Nat) : List Nat :=
  ((s.listed (R.REC_STRM_CFG 0).id).map (·.i)).filter fun m => decide (3 ≤ m) && s.strmOn m && s.strmKind m == kind

/-- R324: the time flags of a record made now. -/
def State.recFlags (s : State) : Nat :=
  b2n (s.flag F.TIME_STATUS_RTC_DERIVED) + 2 * b2n (decide (s.mtNs < s.clk.backFrom))

/-- R326: a record of a stream is formed; one longer than a record may be (R324) is not. -/
def State.offer (s : State) (m time flags : Nat) (payload : List Byte) : State :=
  if payload.length ≤ 1048544 then
    s.setRec fun c => { c with offered := c.offered ++ [{ stream := m, time := time, flags := flags, payload := payload }] }
  else s

/-- R326: a frame as received, for the raw streams of a kind (3 SV, 4 GOOSE) that take its subscription. -/
def State.offerRaw (s : State) (kind sub : Nat) (raw : List Byte) : State :=
  ((s.strmsOf kind).filter fun m => decide (s.get (F.REC_STRM_CFG_SRC m) ≤ sub) &&
    decide (sub < s.get (F.REC_STRM_CFG_SRC m) + s.get (F.REC_STRM_CFG_CNT m))).foldl
      (fun s m => s.offer m s.mtNs s.recFlags raw) s

/-- R326, R331: an SV frame accepted: for the raw streams, and once for the capture ring. -/
def State.svAccepted (s : State) (sub : Nat) (raw : List Byte) : State :=
  let s1 := s.offerRaw 3 sub raw
  let x := (s1.now, raw)
  if s1.carafe.svIn.contains x then s1 else s1.setRec fun c => { c with svIn := c.svIn ++ [x] }

/-! ### Slots as the recorder takes them (R326, R331) -/

/-- R331: the 32 bytes of a cell's mirrored slot, in the layout of R70. -/
def State.slotBytes (s : State) (k : Nat) : List Byte := (List.range 8).flatMap fun w => leBytes 4 (s.word (R.CELL_TLM k w)).toNat

/-- A cell's slot was accepted in the cycle `back` before the present one. -/
def State.slotAt (s : State) (k back : Nat) : Bool :=
  s.get (F.CELL_TLM_AGE_AGE k) != 65535 && (s.get (F.CELL_TLM_CYCLE_CYCLE k) + back) % 2 ^ 32 == s.link.cycle % 2 ^ 32

/-- R74: a slot of the even cycle serves this odd one. -/
def State.slotServes (s : State) (k : Nat) : Bool := s.ringV1 (ringOf k) && s.link.cycle % 2 == 1 && s.slotAt k 1

/-- R326: what a cell gives a CELL_DEC interval in this cycle: its slot, nothing ([]) when stale, or none in the odd cycle
that a v1 slot serves too. -/
def State.decSlot (s : State) (k : Nat) : Option (List Byte) :=
  if s.slotAt k 0 then some (s.slotBytes k) else if s.slotServes k then none else some []

/-- R326, R331: the 8 bytes before the positions: RING, 0, NCELL, the low 32 bits of the first cycle's k. -/
def decHead (ring n k : Nat) : List Byte := leBytes 1 ring ++ leBytes 1 0 ++ leBytes 2 n ++ leBytes 4 (k % 2 ^ 32)

/-! ### CELL_DEC and SIGNALS (R326) -/

/-- The mean of a list of samples; rounding is open. -/
def meanOf (l : List Int) : Int := if l.isEmpty then 0 else roundFree (l.foldl (· + ·) 0) l.length
def maxOf (l : List Int) : Int := l.tail.foldl max (l.headD 0)
def minOf (l : List Int) : Int := l.tail.foldl min (l.headD 0)

/-- R326: the 36-byte block of a position over the cycles of an interval, newest first. THS, TNODE and TRIP_CNT are those
of the last accepted slot; with none accepted the samples' fields are 0: DEDUCED, log entry 200. -/
def decBlock (l : List (Option (List Byte))) : List Byte :=
  let acc := l.filterMap fun x => match x with
    | some b => if b.isEmpty then none else some b
    | none => none
  let stale := (l.filter fun x => x == some []).length
  let u (o : Nat) : List Int := acc.map fun b => (leAt b o 2 : Int)
  let i (o : Nat) : List Int := acc.map fun b => signedOf 16 (leAt b o 2)
  let w (v : Int) : List Byte := leBytes 2 (codeOf 16 v)
  let last := acc.headD []
  let st := acc.map fun b => leAt b 14 2
  w (minOf (u 0)) ++ w (maxOf (u 0)) ++ w (meanOf (u 0)) ++ w (minOf (i 6)) ++ w (maxOf (i 6)) ++ w (meanOf (i 6)) ++
  w (meanOf (u 2)) ++ w (meanOf (i 4)) ++ w (maxOf (u 8)) ++ w (maxOf (u 10)) ++ leBytes 2 (leAt last 12 2) ++
  leBytes 2 (leAt last 24 2) ++ w (maxOf (u 22)) ++ leBytes 2 (st.foldl (· ||| ·) 0) ++
  leBytes 2 (if st.isEmpty then 0 else st.foldl (· &&& ·) 65535) ++ leBytes 1 (satN 255 stale) ++ leBytes 1 (leAt last 18 1) ++
  leBytes 2 (satN 65535 acc.length) ++ leBytes 2 0

/-- R326: the rings of a CELL_DEC stream. -/
def State.decRings (s : State) (m : Nat) : List Nat :=
  ((List.range (s.get (F.REC_STRM_CFG_CNT m))).map (· + s.get (F.REC_STRM_CFG_SRC m))).filter (· < 8)

/-- R326: the present cycle enters the interval of a CELL_DEC or SIGNALS stream; a stream that was redefined begins
anew. -/
def State.accRow (s : State) (m : Nat) : StrmAcc :=
  let cfg := ((s.word (R.REC_STRM_CFG m)).toNat, s.get (F.REC_STRM_DEC_DEC m))
  let new : StrmAcc := { cfg := cfg, k0 := s.link.cycle, t0 := s.tK / 8 }
  let a := match (s.carafe.stream.get m).acc with
    | some a => if a.cfg = cfg then a else new
    | none => new
  if s.strmKind m = 1 then
    { a with n := a.n + 1, slots := ((s.decRings m).map fun r => (List.range (s.nCells r)).map fun p => s.decSlot (128 * r + p)) :: a.slots }
  else
    { a with n := a.n + 1, sigs := ((List.range (s.get (F.REC_STRM_CFG_CNT m))).map fun i =>
        s.sig (s.get (F.REC_STRM_CFG_SRC m) + i)) :: a.sigs }

/-- R326: the records of a full interval. -/
def State.accEmit (s : State) (m : Nat) (a : StrmAcc) : State :=
  if s.strmKind m = 1 then
    let rs := s.decRings m
    (List.range rs.length).foldl (fun s i =>
      let r := rs.getD i 0
      let n := s.nCells r
      let col (p : Nat) : List (Option (List Byte)) := a.slots.map fun row => ((row.getD i [])[p]?).getD none
      s.offer m a.t0 s.recFlags (decHead r n a.k0 ++ (List.range n).flatMap fun p => decBlock (col p))) s
  else s.offer m a.t0 s.recFlags (leBytes 8 a.k0 ++ a.sigs.reverse.flatMap fun l => l.flatMap fun v => leBytes 2 (codeOf 16 v))

/-- R326: the freeze of a cycle for the streams formed from cells and signals. -/
def State.strmFreeze (s : State) : State :=
  (s.strmsOf 1 ++ s.strmsOf 2).foldl (fun s m =>
    let a := s.accRow m
    let full := decide (max 1 (s.get (F.REC_STRM_DEC_DEC m)) ≤ a.n)
    let s1 := s.setRec fun c => { c with stream := c.stream.set m { c.stream.get m with acc := if full then none else some a } }
    if full then s1.accEmit m a else s1) s

end Sys2Proof.Machine
end

