-- ==== Sys2Proof/Machine/Mtr.lean ====
section
/-! DEFINITION. Metering and power quality (R256–R273): samples, windows, quantities, intervals and the copy in
Crema. -/

namespace Sys2Proof.Machine

def State.mpt (s : State) (m : Nat) : MtrPt := s.mtr.pt.get m
def State.setMpt (s : State) (m : Nat) (x : MtrPt) : State := s.setMtr fun y => { y with pt := s.mtr.pt.set m x }

/-- R269: the flags of an interval that begins now. -/
def State.intFlags (s : State) : Nat := if s.flag F.TIME_STATUS_TIME_LOST then 0x10 else 0

/-- R256: a point in use; a 4-wire point. -/
def State.mtrOn (s : State) (m : Nat) : Bool := s.flag (F.MTR_PT_CFG_EN m)
def State.mtrFour (s : State) (m : Nat) : Bool := s.flag (F.MTR_PT_CFG_WIRE m)

/-- R257: the channels of a point, a, b, c and on a 4-wire point the neutral, where one is named. -/
def State.mtrChans (s : State) (m : Nat) (r : Reg) : List Nat :=
  let w := s.word r
  let n := fieldOf w 24 8
  [fieldOf w 0 8, fieldOf w 8 8, fieldOf w 16 8] ++ (if s.mtrFour m && n != 0xFF then [n] else [])

/-! ### Samples and windows (R257, R259, R260) -/

/-- R259: the span of the next window, units: 10 or 12 periods at FREQ, or 200 ms. -/
def State.mtrSpan (s : State) (m : Nat) : Nat × Bool :=
  let p := s.get (F.MTR_PT_CFG_FPT m)
  let f := (s.gpt p).rep.toNat
  if s.flag (F.GRID_PT_STAT_FREQ_VALID p) && f != 0 then
    ((roundFree (((if s.fnom = 60 then 12 else 10) * uS * 2 ^ 30 : Nat)) ((f * s.fnom : Nat) : Int)).toNat, false)
  else (200 * uMs, true)

/-- R259: a window begins at a sample instant. -/
def State.mtrBegin (s : State) (m ts : Nat) : State :=
  let (span, un) := s.mtrSpan m
  let x := s.mpt m
  -- R260: what came before is kept as far as a run that can be filled reaches
  let keep (l : List (Nat × List (Option Int))) : List (Nat × List (Option Int)) :=
    (l.filter fun e => decide (ts ≤ e.1)) ++ (l.filter fun e => decide (e.1 < ts)).take 4
  let s1 := (s.setMpt m { x with start := some ts, span := span, unsync := un, vs := keep x.vs, is_ := keep x.is_ }).putB
    (F.MTR_PT_STAT_UNSYNC m) un
  s1.eventIf (un != s.flag (F.MTR_PT_STAT_UNSYNC m)) Ev.MTR_UNSYNC noInst [.w m, .w (b2n un)]

/-- R270: a step of module time moves no sample: what a window holds takes the new time, so that T_w is sample time. -/
def MtrPt.rebase (x : MtrPt) (steps : Nat) (off : Int) : MtrPt :=
  if x.steps = steps then { x with off := off }
  else
    let mv (t : Nat) : Nat := ((t : Int) + (off - x.off)).toNat
    let l (l : List (Nat × List (Option Int))) : List (Nat × List (Option Int)) := l.map fun e => (mv e.1, e.2)
    { x with steps := steps, off := off, start := x.start.map mv, vs := l x.vs, is_ := l x.is_, newest := mv x.newest,
             closing := x.closing.map fun c => (mv c.1, c.2) }

/-- R268: the interval length, s. -/
def State.mtrLen (s : State) : Nat := [60, 300, 600, 900, 1800, 3600].getD (s.get F.MTR_CFG_INT_LEN) 3600

/-- R269: the elapsed instant at which the interval in progress began; now where none is running. -/
def State.mtrFrom (s : State) : Nat := match s.mtr.endUtc with
  | some e => s.now - (s.mtUnits - ((e - s.mtrLen + s.getS F.TIME_UTC_UTC_OFFSET) * uS).toNat)
  | none => s.now

/-- R257: a sample of the voltages or of the currents of a point arrives, with its channels that are good; `test`
says that data flagged test was accepted. -/
def State.mtrSample (s : State) (m ts rate : Nat) (current test : Bool) (vals : List (Option Int)) : State :=
  if !s.mtrOn m then s
  else
    let x0 := (s.mpt m).rebase s.clk.steps s.clk.off
    let x := if test then { x0 with int := { x0.int with flags := x0.int.flags ||| 0x100 } } else x0
    let fresh : MtrInt := { from_ := s.mtrFrom, flags := x.int.flags ||| 0x80 ||| s.intFlags |||
                              (if s.mtrFrom < s.now then 4 else 0) }
    let x1 := if x.on then x else { x with on := true, int := if x.int.from_ = 0 then fresh else
      { x.int with flags := x.int.flags ||| 0x80 } }
    let x2 := if current then { x1 with is_ := (ts, vals) :: x1.is_, iRate := rate }
      else { x1 with vs := (ts, vals) :: x1.vs, vRate := rate }
    let s1 := s.setMpt m { x2 with newest := max x2.newest ts }
    if x.start.isNone then s1.mtrBegin m ts else s1

/-- The good samples of one channel, oldest first. -/
def chanOf (l : List (Nat × List (Option Int))) (k : Nat) : List (Nat × Int) :=
  l.foldl (fun acc x => match (x.2.getD k none) with
    | some v => (x.1, v) :: acc
    | none => acc) []

/-- The oldest sample instant held, at most `b`. -/
def oldestOf (l : List (Nat × List (Option Int))) (b : Nat) : Nat := (l.map (·.1)).foldl min b

/-- R260: samples missing between two instants at a rate. -/
def gapOf (rate a b : Nat) : Nat := (2 * ((b - a) * rate) + uS) / (2 * uS) - 1

/-- R260: linear interpolation of the samples missing between two, in 1/256 of the channel's unit. -/
def fillGap (rate : Nat) (a b : Nat × Int) : List (Nat × Int) :=
  let n := gapOf rate a.1 b.1
  (List.range n).map fun j =>
    (a.1 + (b.1 - a.1) * (j + 1) / (n + 1), roundFree ((a.2 * (n + 1 : Nat) + (b.2 - a.2) * (j + 1 : Nat)) * 256) (n + 1 : Nat))

/-- R260: the samples of a window [b, e), the good ones before and after it included, with the runs filled, the longest
run missing and the number missing; the samples held begin at `lo`. -/
def fillChan (rate lo b e : Nat) (all : List (Nat × Int)) : List (Nat × Int) × Nat × Nat :=
  let ins := all.filter fun x => decide (b ≤ x.1) && decide (x.1 < e)
  let pre := ((all.filter fun x => decide (x.1 < b)).getLast?).toList
  let post := ((all.filter fun x => decide (e ≤ x.1)).head?).toList
  let l := pre ++ ins ++ post
  let edge : Nat := match ins.head?, ins.getLast? with
    | some f, some z => max (if pre.isEmpty then gapOf rate lo (f.1 + uS / max 1 rate) else 0)
        (if post.isEmpty then gapOf rate z.1 e else 0)
    | _, _ => (e - b) * rate / uS
  let gaps := (l.zip (l.drop 1)).map fun p => gapOf rate p.1.1 p.2.1
  let filled := (l.zip (l.drop 1)).flatMap fun p => (p.1.1, p.1.2 * 256) :: fillGap rate p.1 p.2
  let last := (l.getLast?.map fun z => (z.1, z.2 * 256)).toList
  ((filled ++ last).filter fun x => decide (b ≤ x.1) && decide (x.1 < e), gaps.foldl max edge,
    (2 * ((e - b) * rate) + uS) / (2 * uS) - ins.length)

/-- R259: bin `k` of a channel in 2^-16 of its unit, axis 0 real and 1 imaginary: the spec states neither the cubic
interpolation nor its rounding, so the value is free. -/
def binRaw (l : List (Nat × Int)) (b tw k axis : Nat) : Int :=
  Config.openFn 10 ([(k : Int), axis, tw] ++ l.flatMap fun e => [((e.1 - b : Nat) : Int), e.2])

/-- R272: the two corrections of a BSI channel at bin k. -/
def State.binFix (s : State) (ch tw k : Nat) (v : Int × Int) : Int × Int :=
  let n := k * (s.get (F.BSI_STAT_GD ch) * 80)
  let c := cosTurn n tw
  let d := sinTurn n tw
  let x := roundFree (v.1 * c - v.2 * d) (2 ^ 80)
  let y := roundFree (v.1 * d + v.2 * c) (2 ^ 80)
  if s.flag (F.BSI_CFG_INT_EN ch) then
    let fc : Int := ((s.get (F.BSI_CFG_INT_FC ch) * tw : Nat) : Int)
    let den : Int := ((100 * uS * k : Nat) : Int)
    (roundFree (x * den + y * fc) den, roundFree (y * den - x * fc) den)
  else (x, y)

/-- R264: √2 in 2^-40, and bin `k` of a channel as the samples of the window themselves give it: √2 / N × Σ x e^(−j2πkt/T_w). -/
def rt2 : Int := (isqrt (2 * 2 ^ 80) : Nat)
def binTrue (l : List (Nat × Int)) (b tw k axis : Nat) : Int :=
  let c (t : Nat) : Int := if axis = 0 then cosTurn (k * (t - b)) tw else -(sinTurn (k * (t - b)) tw)
  roundFree ((l.map fun x => x.2 * c x.1).foldl (· + ·) 0 * rt2 * 256) (l.length * 2 ^ 120 : Nat)

/-- One channel of a window: its bins 1–1,023, as the engine or as the samples give them. -/
def State.bins (s : State) (m ch b tw : Nat) (neg : Bool) (raw : List (Nat × Int) → Nat → Nat → Nat → Nat → Int)
    (l : List (Nat × Int)) : List (Int × Int) :=
  (List.range 1023).map fun j =>
    let v := (raw l b tw (j + 1) 0, raw l b tw (j + 1) 1)
    let w := if s.flag (F.MTR_PT_CFG_SRC m) then s.binFix ch tw (j + 1) v else v
    if neg then (-w.1, -w.2) else w

def cAdd (a b : Int × Int) : Int × Int := (a.1 + b.1, a.2 + b.2)

/-- |x|² of a bin. -/
def cSq (a : Int × Int) : Nat := (a.1 * a.1 + a.2 * a.2).toNat

/-- Bin k of a list of bins 1–1,023. -/
def binAt (l : List (Int × Int)) (k : Nat) : Int × Int := if k = 0 then (0, 0) else l.getD (k - 1) (0, 0)

/-- R261: the rms value, 2^-16 of the unit. -/
def rmsOf (l : List (Int × Int)) : Nat := sqrtFree ((l.map cSq).foldl (· + ·) 0)

/-- R261: P and Q (fundamental bin `u`) of a phase, in the product of the channels' 2^-16 units. -/
def powerOf (v i : List (Int × Int)) : Int := ((v.zip i).map fun e => e.1.1 * e.2.1 + e.1.2 * e.2.2).foldl (· + ·) 0
def reactOf (u : Nat) (v i : List (Int × Int)) : Int :=
  let a := binAt v u
  let c := binAt i u
  a.2 * c.1 - a.1 * c.2

/-- R264: two values are within 0.02 %. -/
def within02 (a b : Int) : Bool := decide (5000 * (a - b).natAbs ≤ b.natAbs)

/-- R264: the conditions on the point, by the true bins of its phases' voltages and currents. -/
def State.mtrBound (s : State) (m u : Nat) (vt it : List (List (Int × Int))) : Bool :=
  let p := s.get (F.MTR_PT_CFG_FPT m)
  let f := (s.gpt p).rep
  let vn := s.get (F.MTR_PT_NOM_VNOM m) * 65536000
  let cn := s.get (F.MTR_PT_NOM_INOM m) * 65536000
  let phs := ((vt.take 3).zip (it.take 3)).map fun e => (rmsOf e.1, rmsOf e.2)
  let pt := ((vt.take 3).zip (it.take 3)).foldl (fun a e => a + powerOf e.1 e.2) 0
  let qt := ((vt.take 3).zip (it.take 3)).foldl (fun a e => a + reactOf u e.1 e.2) 0
  let st := phs.foldl (fun a e => a + e.1 * e.2) 0
  !(s.mpt m).unsync && decide ((f - q1).natAbs * 20 ≤ q1.natAbs) &&
  (phs.all fun e => decide (64 * vn ^ 2 ≤ 300 * e.1 ^ 2) && decide (300 * e.1 ^ 2 ≤ 144 * vn ^ 2) &&
    decide (cn ≤ 100 * e.2) && decide (100 * e.2 ≤ 120 * cn)) &&
  decide (if 0 ≤ pt * qt then st ≤ 2 * pt.natAbs else 8 * st ≤ 10 * pt.natAbs)

/-- R264: the engine's bins add at most 0.02 % to the rms values and to the energy. -/
def mtrGood (vb ib vt it : List (List (Int × Int))) : Bool :=
  ((vb ++ ib).zip (vt ++ it)).all (fun e => within02 (rmsOf e.1) (rmsOf e.2)) &&
  within02 (((vb.take 3).zip (ib.take 3)).foldl (fun a e => a + powerOf e.1 e.2) 0)
    (((vt.take 3).zip (it.take 3)).foldl (fun a e => a + powerOf e.1 e.2) 0)

/-- √3 in 2^-40. -/
def rt3 : Int := (isqrt (3 * 2 ^ 80) : Nat)

/-- R266: 3 × 2^41 times the positive, negative and zero sequence of three phasors. -/
def seqOf (a b c : Int × Int) : (Int × Int) × (Int × Int) × (Int × Int) :=
  let up (v : Int × Int) : Int × Int := (-v.1 * 2 ^ 40 - rt3 * v.2, -v.2 * 2 ^ 40 + rt3 * v.1)
  let dn (v : Int × Int) : Int × Int := (-v.1 * 2 ^ 40 + rt3 * v.2, -v.2 * 2 ^ 40 - rt3 * v.1)
  let one (v : Int × Int) : Int × Int := (v.1 * 2 ^ 41, v.2 * 2 ^ 41)
  (cAdd (one a) (cAdd (up b) (dn c)), cAdd (one a) (cAdd (dn b) (up c)), cAdd (one a) (cAdd (one b) (one c)))

/-- R265: h_max of a stream's rate (14,400 and BSI 63; 4,800: 40 or 39; 80 per period 39; 256 per period 63). -/
def State.hMax (s : State) (rate : Nat) : Nat :=
  if rate = 4800 then (if s.fnom = 60 then 39 else 40) else if rate = 80 * s.fnom then 39 else 63

/-- R265: the subgroup of order h, squared. -/
def groupSq (l : List (Int × Int)) (u h : Nat) : Nat :=
  cSq (binAt l (u * h - 1)) + cSq (binAt l (u * h)) + cSq (binAt l (u * h + 1))

/-- R265: THD in 0.01 %. -/
def thdOf (l : List (Int × Int)) (u hmax : Nat) : Nat :=
  let g1 := groupSq l u 1
  let sum : Nat := ((List.range (hmax - 1)).map fun j => groupSq l u (j + 2)).foldl (· + ·) 0
  satN 65535 (if g1 = 0 then (Config.openFn 60 [sum]).toNat else sqrtFree (sum * 100000000 / g1))

/-- R265: the harmonic subgroups of a channel of the point: n = 0–3 voltages, 4–7 currents. -/
def State.putHarm (s : State) (m n u hmax : Nat) (l : List (Int × Int)) : State :=
  let fund := sqrtFree (groupSq l u 1)
  s.forN 64 fun s h =>
    let g := sqrtFree (groupSq l u h)
    let v : Int :=
      if h = 0 ∨ hmax < h then 0
      else if h = 1 ∨ 4 ≤ n then roundFree (g : Int) 65536
      else ratioFree ((g * 10000 : Nat) : Int) (fund : Nat)
    s.putSat (F.MTR_HARM_VALUE m (h * 8 + n)) v.toNat

/-- R266, R267: windows in a row with a result, and with the opposite. -/
def tally (p : Nat × Nat) (hit : Bool) : Nat × Nat := if hit then (p.1 + 1, 0) else (0, p.2 + 1)

/-- R261–R267: a valid window: its channels, voltages then currents, filled. -/
def State.mtrQty (s : State) (m b tw : Nat) (vs is_ : List (List (Nat × Int))) : State × List Nat :=
  let neg := s.flag (F.MTR_PT_CFG_DIR m)
  let u := if s.fnom = 60 then 12 else 10
  let all (raw : List (Nat × Int) → Nat → Nat → Nat → Nat → Int) (neg : Bool) (r : Reg) (l : List (List (Nat × Int))) :=
    (l.zip (s.mtrChans m r)).map fun p => s.bins m p.2 b tw neg raw p.1
  let ve := all binRaw false (R.MTR_PT_VCH m) vs
  let ie := all binRaw neg (R.MTR_PT_ICH m) is_
  let vt := all binTrue false (R.MTR_PT_VCH m) vs
  let it := all binTrue neg (R.MTR_PT_ICH m) is_
  let free := !s.mtrBound m u vt it || mtrGood ve ie vt it
  let v (k : Nat) := (if free then ve else vt).getD k []
  let i (k : Nat) := (if free then ie else it).getD k []
  let pw (ph : Nat) : Int := powerOf (v ph) (i ph)
  let qv (ph : Nat) : Int := reactOf u (v ph) (i ph)
  let sv (ph : Nat) : Nat := rmsOf (v ph) * rmsOf (i ph)
  let phs : List Nat := [0, 1, 2]
  let pt : Int := (phs.map pw).foldl (· + ·) 0
  let qt : Int := (phs.map qv).foldl (· + ·) 0
  let st : Nat := (phs.map sv).foldl (· + ·) 0
  let w (x : Int) : Int := roundFree x (100000 * 2 ^ 32)
  let s1 := phs.foldl (fun s ph =>
    (((s.putS (F.MTR_PT_P_VALUE m ph) (w (pw ph))).putS (F.MTR_PT_Q_VALUE m ph) (w (qv ph))).putSat
      (F.MTR_PT_S_VALUE m ph) (w (sv ph)).toNat).put (F.MTR_PT_THD_THD_V m ph)
      (thdOf (v ph) u (s.hMax (s.mpt m).vRate)) |>.put (F.MTR_PT_THD_THD_I m ph) (thdOf (i ph) u (s.hMax (s.mpt m).iRate))) s
  let s2 := ((s1.putS (F.MTR_PT_P_VALUE m 3) (w pt)).putS (F.MTR_PT_Q_VALUE m 3) (w qt)).putSat
    (F.MTR_PT_S_VALUE m 3) (w st).toNat
  let s3 := [0, 1, 2, 3].foldl (fun s k =>
    (((s.putSat (F.MTR_PT_VRMS_VALUE m k) (roundFree (rmsOf (v k)) 65536).toNat).putSat (F.MTR_PT_IRMS_VALUE m k)
      (roundFree (rmsOf (i k)) 65536).toNat).putHarm m k u (s.hMax (s.mpt m).vRate) (v k)).putHarm m (4 + k) u
      (s.hMax (s.mpt m).iRate) (i k)) s2
  let s4 := s3.put (F.MTR_PT_STAT_HCUT m) (s3.hMax (s3.mpt m).vRate)
  let (vp, vn, v0) := seqOf (binAt (v 0) u) (binAt (v 1) u) (binAt (v 2) u)
  let (ip, in_, _) := seqOf (binAt (i 0) u) (binAt (i 1) u) (binAt (i 2) u)
  let ratio (x : Int × Int) : Nat :=
    satN 65535 (if cSq vp = 0 then (Config.openFn 60 [cSq x]).toNat else sqrtFree (cSq x * 100000000 / cSq vp))
  let s5 := (s4.put (F.MTR_PT_SEQ_VNEG m) (ratio vn)).put (F.MTR_PT_SEQ_VZERO m) (ratio v0)
  let x := s5.mpt m
  let vnom := s5.get (F.MTR_PT_NOM_VNOM m)
  let inom := s5.get (F.MTR_PT_NOM_INOM m)
  let vWrong := decide (cSq vp < cSq vn) && decide ((300 * vnom * 2 ^ 57) ^ 2 ≤ 3 * cSq vn)
  let i5 := (150 * inom * 2 ^ 57) ^ 2
  let iBig := decide (i5 ≤ cSq ip) || decide (i5 ≤ cSq in_)
  let iWrong := decide (cSq ip < cSq in_) && iBig
  let named := s5.get (F.MTR_PT_ICH_CH_N m) != 0xFF
  let nHit := decide ((s5.get (F.MTR_PT_NTH_NDISP m)) ^ 2 * cSq vp ≤ 65536 * cSq v0) &&
    decide (rmsOf (i 3) * 256 ≤ s5.get (F.MTR_PT_NTH_IN_TH m) * inom * 1000 * 65536)
  let s6 := s5.setMpt m { x with seqV := tally x.seqV vWrong, seqI := if iBig then tally x.seqI iWrong else x.seqI,
                                 neut := if s5.mtrFour m && named then tally x.neut nHit else (0, 0) }
  let s7 := s6.putB (F.MTR_PT_STAT_N_UNAVAIL m) (s6.mtrFour m && !named)
  let e (y : Int) : Nat := (roundFree ((y.natAbs * tw * (2 ^ 20 * 1000) : Nat) : Int)
    ((100000 * 2 ^ 32 * uS * 3600 : Nat) : Int)).toNat
  let ea := e pt
  let er := e qt
  let quad := if 0 ≤ pt then (if 0 ≤ qt then 0 else 3) else (if 0 ≤ qt then 1 else 2)
  (s7, [if 0 ≤ pt then ea else 0, if 0 ≤ pt then 0 else ea] ++
    ((List.range 4).map fun k => if k = quad then er else 0) ++ [e (st : Int)])

/-- R262: energy into the accumulators, with their remainders. -/
def State.mtrAdd (s : State) (m : Nat) (en : List Nat) : State :=
  (List.range 7).foldl (fun s r =>
    let x := s.mpt m
    let v := x.rem.getD r 0 + en.getD r 0
    (s.setMpt m { x with rem := listSet x.rem r (v % 2 ^ 20) }).put64 (R.MTR_PT_E_LO m r) (R.MTR_PT_E_HI m r)
      (s.get64 (R.MTR_PT_E_LO m r) (R.MTR_PT_E_HI m r) + v / 2 ^ 20)) s

/-- A part num / den of the energy and time of a window, taken into an interval. -/
def MtrInt.take (x : MtrInt) (en : List Nat) (tw num den flags : Nat) (void : Bool) : MtrInt :=
  let part (v : Nat) : Nat := (roundFree ((v * num : Nat) : Int) ((max 1 den : Nat) : Int)).toNat
  { x with cover := x.cover + part tw, void_ := x.void_ + (if void then part tw else 0),
           delta := (x.delta.zip en).map fun e => e.1 + part e.2, flags := x.flags ||| flags ||| (if void then 2 else 0) }

/-! ### Interval records (R268–R270) -/

/-- R268, R269: the record number `seq` of an interval of a point that ends at an elapsed instant. -/
def State.mtrEmit (s : State) (m seq : Nat) (x : MtrInt) (end_ : Nat) : State :=
  let lost := (end_ - x.from_ - x.cover) / uMs
  let fl := x.flags ||| (if lost ≠ 0 then 4 else 0)
  let r : IntRec := { seq := seq, point := m, delta := x.delta, voidMs := x.void_ / uMs, lostMs := lost, flags := fl,
                      total := (List.range 7).map fun r => s.get64 (R.MTR_PT_E_LO m r) (R.MTR_PT_E_HI m r), time := s.mtNs }
  let s1 := s.setMtr fun x => { x with recs := r :: s.mtr.recs, offered := s.mtr.offered ++ [r] }
  if seq = s.get64 R.MTR_INT_SEQ_LO R.MTR_INT_SEQ_HI then
    (s1.put (F.MTR_PT_ILAST_FLAGS m) fl).putSat (F.MTR_PT_ILAST_VOID_S m) (x.void_ / uS)
  else s1

/-- R263: the window that spanned a boundary has ended: the interval that it closed is recorded. -/
def State.mtrSettle (s : State) (m : Nat) : State :=
  match (s.mpt m).closing with
  | some (_, end_, seq, x) => (s.setMpt m { s.mpt m with closing := none }).mtrEmit m seq x end_
  | none => s

/-- R259–R263: the window of a point ends at an instant. -/
def State.mtrEnd (s : State) (m b e : Nat) : State :=
  let x := s.mpt m
  let tw := e - b
  let nV := (s.mtrChans m (R.MTR_PT_VCH m)).length
  let nI := (s.mtrChans m (R.MTR_PT_ICH m)).length
  let fv := (List.range nV).map fun k => fillChan x.vRate (oldestOf x.vs b) b e (chanOf x.vs k)
  let fi := (List.range nI).map fun k => fillChan x.iRate (oldestOf x.is_ b) b e (chanOf x.is_ k)
  let bad (rate : Nat) (f : List (Nat × Int) × Nat × Nat) : Bool :=
    decide (3 < f.2.1) || decide (tw * rate / uS < f.2.2 * 100)
  let badCh := ((List.range nV).filter fun k => bad x.vRate (fv.getD k ([], 0, 0))) ++
    (((List.range nI).filter fun k => bad x.iRate (fi.getD k ([], 0, 0))).map (· + 4))
  let void := !badCh.isEmpty
  let (s1, en) : State × List Nat :=
    if void then
      let due := dueLog10 x.voidAt s.now
      let s1 := (s.put (F.MTR_PT_STAT_VALID m) 0).count (F.MTR_PT_STAT_VOIDS m) 1
      let s2 := s1.eventIf due Ev.MTR_WINDOW_VOID noInst [.w m, .w (badCh.headD 0)]
      (if due then s2.setMpt m { s2.mpt m with voidAt := some s.now } else s2, [0, 0, 0, 0, 0, 0, 0])
    else
      let (s1, en) := (s.put (F.MTR_PT_STAT_VALID m) 1).mtrQty m b tw (fv.map (·.1)) (fi.map (·.1))
      (s1.mtrAdd m en, en)
  let fl := (if x.unsync then 1 else 0) ||| (if s.clk.steps = s.mtr.steps then 0 else 0x20)
  let y := s1.mpt m
  let s2 := match y.closing with
    | some (cut, end_, seq, old) =>
      let before := min cut e - b
      (s1.setMpt m { y with closing := some (cut, end_, seq, old.take en tw before tw fl void),
                            int := y.int.take en tw (tw - before) tw fl void }).mtrSettle m
    | none => s1.setMpt m { y with int := y.int.take en tw 1 1 fl void }
  s2.put (F.MTR_PT_INOW_FLAGS m) (s2.mpt m).int.flags
where
  dueLog10 (last : Option Nat) (now : Nat) : Bool := match last with
    | some t => decide (t + 10 * uS ≤ now)
    | none => true

/-- R259: the first sample instant at or after the end of the window in progress. -/
def MtrPt.endAt (x : MtrPt) : Option Nat :=
  match x.start with
  | none => none
  | some b => ((x.vs ++ x.is_).map (·.1)).foldl (fun a t =>
      if b + x.span ≤ t then some (match a with
        | some u => min u t
        | none => t) else a) none

/-- MTR_WINDOW_END (R259). -/
def execMtrWindowEnd (t : Nat) (m : PointIx) (s : State) : Host.Outcome State Fault Refusal :=
  atTime t s fun s => s.inDom domPBUS fun s =>
    let x := s.mpt m
    match x.start, x.endAt with
    | some b, some e => if s.mtrOn m then (s.mtrEnd m b e).mtrBegin m e else s
    | _, _ => s

/-- MTR_SEQ_WRONG (R266): voltages, or currents, of a point. -/
def execMtrSeqWrong (t : Nat) (m : PointIx) (current : Bool) (s : State) : Host.Outcome State Fault Refusal :=
  atTime t s fun s => s.inDom domPBUS fun s =>
    let n := if current then (s.mpt m).seqI else (s.mpt m).seqV
    let f := if current then F.MTR_PT_STAT_I_SEQ_WRONG m else F.MTR_PT_STAT_V_SEQ_WRONG m
    let was := s.flag f
    if (!was && decide (5 ≤ n.1)) || (was && decide (5 ≤ n.2)) then
      (s.putB f (!was)).event Ev.MTR_SEQ_WRONG noInst [.w m.val, .w (b2n current), .w (b2n (!was))]
    else s

/-- MTR_N_MISSING (R267). -/
def execMtrNMissing (t : Nat) (m : PointIx) (s : State) : Host.Outcome State Fault Refusal :=
  atTime t s fun s => s.inDom domPBUS fun s =>
    let n := (s.mpt m).neut
    let was := s.flag (F.MTR_PT_STAT_N_MISSING m)
    if !was && decide (5 ≤ n.1) then
      (s.put (F.MTR_PT_STAT_N_MISSING m) 1).event Ev.MTR_N_MISSING noInst [.w m.val]
    else if was && decide (5 ≤ n.2) then s.put (F.MTR_PT_STAT_N_MISSING m) 0
    else s

/-- R268: the first boundary after a UTC second. -/
def State.mtrNext (s : State) (utc : Int) : Int := (utc / s.mtrLen + 1) * s.mtrLen

/-- Points that have been measured. -/
def State.mtrPoints (s : State) : List Nat := (List.range 9).filter fun m => s.mtrOn m || (s.mpt m).int.from_ != 0

/-- R268: one more interval; its number. -/
def State.mtrSeqUp (s : State) : State :=
  s.put64 R.MTR_INT_SEQ_LO R.MTR_INT_SEQ_HI (s.get64 R.MTR_INT_SEQ_LO R.MTR_INT_SEQ_HI + 1)

/-- R268–R270: the interval in progress closes at the boundary `end_` (UTC s), and each interval skipped since is
recorded without energy. -/
def State.mtrClose (s : State) (end_ utc : Int) : State :=
  let stepped := s.clk.steps != s.mtr.steps
  let fl := if stepped then 0x20 else 0
  let skip : Nat := ((utc - end_) / s.mtrLen).toNat
  let slept (from_ : Int) : Nat := match s.mtr.woke with
    | some w => if from_ < w then 8 else 0
    | none => 0
  -- the elapsed instant of a UTC second not yet past; a step ends and begins intervals at its own instant
  let at_ (u : Int) : Nat := if stepped then s.now else s.now - (s.mtUnits - ((u + s.getS F.TIME_UTC_UTC_OFFSET) * uS).toNat)
  let start := end_ + skip * s.mtrLen
  let s0 := s.mtrSeqUp
  let seq := s0.get64 R.MTR_INT_SEQ_LO R.MTR_INT_SEQ_HI
  let s1 := s.mtrPoints.foldl (fun s m =>
    let s1 := s.mtrSettle m
    let x := s1.mpt m
    let cut := if stepped then x.newest else ((end_ + s.getS F.TIME_UTC_UTC_OFFSET) * uS).toNat
    let old := { x.int with flags := x.int.flags ||| fl }
    let new : MtrInt := if s.mtrOn m then { from_ := at_ start, flags := s.intFlags ||| fl ||| slept start } else {}
    let spans : Bool := match x.start with
      | some b => decide (b < cut)
      | none => false
    if spans then s1.setMpt m { x with closing := some (cut, at_ end_, seq, old), int := new }
    else (s1.setMpt m { x with int := new }).mtrEmit m seq old (at_ end_)) s0
  let s2 := s1.forN skip fun s j =>
    let s' := s.mtrSeqUp
    s'.mtrPoints.foldl (fun s m => s.mtrEmit m (s'.get64 R.MTR_INT_SEQ_LO R.MTR_INT_SEQ_HI)
      { from_ := at_ (end_ + j * s.mtrLen), flags := fl ||| 4 ||| slept (end_ + j * s.mtrLen) }
      (at_ (end_ + (j + 1) * s.mtrLen))) s'
  let s3 := s2.mtrPoints.foldl (fun s m => s.put (F.MTR_PT_INOW_FLAGS m) (s.mpt m).int.flags) s2
  s3.setMtr fun x => { x with endUtc := some (s3.mtrNext utc), steps := s.clk.steps }

/-- MTR_INTERVAL_CLOSE (R268): a boundary of the interval has been reached. -/
def execMtrIntervalClose (t : Nat) (s : State) : Host.Outcome State Fault Refusal :=
  atTime t s fun s => s.inDom domPBUS fun s =>
    match s.mtr.endUtc with
    | none => s.setMtr fun x => { x with endUtc := some (s.mtrNext s.utcSec), steps := s.clk.steps }
    | some e => if e ≤ s.utcSec then s.mtrClose e s.utcSec else s

/-! ### The copy in Crema (R271) -/

/-- R271: accumulators and remainders into Crema retained RAM. -/
def State.mtrSave (s : State) : State :=
  s.forN 9 fun s m =>
    let acc := (List.range 7).map fun r => s.get64 (R.MTR_PT_E_LO m r) (R.MTR_PT_E_HI m r)
    s.setMtr fun x => { x with saved := s.mtr.saved.set m (acc, (s.mpt m).rem), saveAt := s.now }

/-- MTR_ACC_SAVE (R271): every 1 s. -/
def execMtrAccSave (t : Nat) (s : State) : Host.Outcome State Fault Refusal :=
  atTime t s fun s => s.inDom domPBUS fun s => if s.mtr.saveAt + uS ≤ s.now then s.mtrSave else s

/-- R271: accumulators loaded: from Crema, or after a start with TIME_LOST from the newest interval record (or 0). -/
def State.mtrRestore (s : State) : State :=
  let lost := s.mtr.fromRec
  let load (s : State) (m : Nat) (acc rem : List Nat) : State :=
    let s1 := (List.range 7).foldl (fun s r => s.put64 (R.MTR_PT_E_LO m r) (R.MTR_PT_E_HI m r) (acc.getD r 0)) s
    let x := s1.mpt m
    s1.setMpt m { x with rem := rem, int := { x.int with flags := x.int.flags ||| (if lost then 0x40 else 0) } }
  let s1 := (s.setMtr fun x => { x with fromRec := false }).forN 9 fun s m =>
    if lost then
      match s.mtr.recs.find? fun r => r.point == m with
      | some r => load s m r.total [0, 0, 0, 0, 0, 0, 0]
      | none => load s m [] [0, 0, 0, 0, 0, 0, 0]
    else load s m (s.mtr.saved.get m).1 (s.mtr.saved.get m).2
  if lost then (s1.put F.MTR_STATUS_ACC_RESTORED 1).event Ev.MTR_ACC_RESTORED noInst
    [.d ((s.mtr.recs.head?.map (·.seq)).getD 0)]
  else s1

/-- R269: PBUS has slept: part of the interval was not measured. -/
def State.mtrSlept (s : State) : State :=
  s.mtrPoints.foldl (fun s m =>
    let x := s.mpt m
    s.setMpt m { x with start := none, vs := [], is_ := [], int := { x.int with flags := x.int.flags ||| 4 } }) s

/-! ### Configuration (R258, R262) -/

/-- R258: the first check a point fails: point and check. `svOk` is check 3 of R242 for a subscription's channel. -/
def State.mtrCheck (s : State) : Option (Nat × Nat) :=
  let pts := (List.range 9).filter s.mtrOn
  let four := pts.filter s.mtrFour
  let chans (m : Nat) (r : Reg) : List Nat := (s.mtrChans m r)
  let svBad (sub ch : Nat) : Bool := decide (s.get (F.SV_SUB_CFG_NCH sub) < ch)
  match four with
  | _ :: m :: _ => some (m, 1)
  | _ => pts.findSome? fun m =>
    let all := chans m (R.MTR_PT_VCH m) ++ chans m (R.MTR_PT_ICH m)
    if s.flag (F.MTR_PT_CFG_SRC m) && all.any (fun c => decide (11 < c)) then some (m, 2)
    else if !s.mtrFour m && (s.get (F.MTR_PT_VCH_CH_N m) != 0xFF || s.get (F.MTR_PT_ICH_CH_N m) != 0xFF) then some (m, 3)
    else if !s.flag (F.MTR_PT_CFG_SRC m) && ((chans m (R.MTR_PT_VCH m)).any (svBad (s.get (F.MTR_PT_CFG_VSUB m))) ||
      (chans m (R.MTR_PT_ICH m)).any (svBad (s.get (F.MTR_PT_CFG_ISUB m)))) then some (m, 4)
    else none

/-- R258, R262: a commit that touched metering: points that changed restart, CLR_E clears. -/
def State.mtrCommit (s old : State) : State :=
  let regs (m : Nat) : List Reg := [R.MTR_PT_CFG m, R.MTR_PT_VCH m, R.MTR_PT_ICH m, R.MTR_PT_NOM m, R.MTR_PT_NTH m]
  let s1 := s.forN 9 fun s m =>
    let x := s.mpt m
    let s1 := if (regs m).all fun r => s.word r == old.word r then s
      else s.setMpt m { x with start := none, vs := [], is_ := [], closing := none, on := false, seqV := (0, 0),
                               seqI := (0, 0), neut := (0, 0), int := { x.int with flags := x.int.flags ||| 0x80 } }
    if s1.flag (F.MTR_PT_CMD_CLR_E m) then
      let s2 := (List.range 7).foldl (fun s r => s.put64 (R.MTR_PT_E_LO m r) (R.MTR_PT_E_HI m r) 0) s1
      ((s2.setMpt m { s2.mpt m with rem := [0, 0, 0, 0, 0, 0, 0] }).put (F.MTR_PT_CMD_CLR_E m) 0).event
        Ev.MTR_ENERGY_CLEARED noInst [.w m]
    else s1
  if s1.get F.MTR_CFG_INT_LEN = old.get F.MTR_CFG_INT_LEN then s1
  else s1.setMtr fun x => { x with endUtc := none }

end Sys2Proof.Machine
end

