-- ==== Sys2Proof/Machine/Bus.lean ====
section
/-! DEFINITION. Process bus and station bus (R229–R255): reception and redundancy, sampled values, publications, the
PTP ports and servo (R48–R53). -/

namespace Sys2Proof.Machine

def State.svSub (s : State) (j : Nat) : SvSub := s.bus.sub.get j
def State.setSvSub (s : State) (j : Nat) (x : SvSub) : State := s.setBus fun b => { b with sub := b.sub.set j x }
def State.gSub (s : State) (g : Nat) : GooseSub := s.bus.gsub.get g
def State.setGSub (s : State) (g : Nat) (x : GooseSub) : State := s.setBus fun b => { b with gsub := b.gsub.set g x }

/-- A 48-bit address from its two registers. -/
def State.mac (s : State) (lo hi : Reg) : Nat := (s.word lo).toNat + 2 ^ 32 * ((s.word hi).toNat % 65536)

/-- No event of a kind within a time before now. -/
def State.quiet (s : State) (last : Option Nat) (u : Nat) : Bool := match last with
  | some t => decide (t + u ≤ s.now)
  | none => true

/-! ### Ports and redundancy (R229–R232) -/

/-- R229: pair 0 is an HSR ring. -/
def State.isHsr (s : State) (p : Nat) : Bool := p == 0 && s.flag F.PB_CFG_MODE

def State.lanOk (p : Nat) (b : Bool) : Fld := if b then F.PB_RED_STAT_B_OK p else F.PB_RED_STAT_A_OK p

/-- R232: the ring is closed while both ports have link and the module's supervision frame has returned through both
directions within 2 s. -/
def State.hsrFresh (s : State) : Bool :=
  s.flag (F.PB_PORT_STAT_LINK 0) && s.flag (F.PB_PORT_STAT_LINK 1) &&
  [0, 1].all fun d => match s.bus.supAt.get d with
    | some t => decide (s.now ≤ t + 2 * uS)
    | none => false

/-- R231: a source of a pair has sent a sequence number within the discard window. -/
def State.seenSeq (s : State) (p src q : Nat) : Bool :=
  s.bus.seen.any fun x => x.pair == p && x.src == src &&
    x.seqs.any fun e => e.1 == q && decide (s.now < e.2 + 400 * uMs)

/-- R231: a sequence number enters the discard window of its source. -/
def State.noteSeq (s : State) (p src q : Nat) : State :=
  let mine (x : SeenSrc) : Bool := x.pair == p && x.src == src
  let old := ((s.bus.seen.find? mine).map (·.seqs)).getD []
  s.setBus fun b => { b with seen := { pair := p, src := src, seqs := ((q, s.now) :: old).take 1024 } ::
                                     b.seen.filter fun x => !mine x }

/-- R231: a frame leaves on both LANs of a pair under the pair's next sequence number. -/
def State.rctNext (s : State) (p : Nat) : State := s.setBus fun b => { b with txSeq := b.txSeq.set p ((b.txSeq.get p + 1) % 65536) }

/-- R231, R232: a frame arrives; whether it is taken up as the first copy. -/
def State.ethRx (s : State) (h : EthHead) : State × Bool :=
  let port := h.port.val
  let p := port / 2
  let lanB := port % 2 == 1
  if !s.flag (F.PB_PORT_STAT_LINK port) || decide (s.now < s.bus.downTo) then (s, false)
  else if !h.fcsOk then (s.count (F.PB_PORT_STAT_RX_ERR port) 1, false)
  else
    let s1 := (s.setBus fun b => { b with lastRx := b.lastRx.set port (some s.now) }).put (State.lanOk p lanB) 1
    if s.isHsr p && h.src == s.mac (R.PB_MAC_LO p) (R.PB_MAC_HI p) then
      let s2 := if h.sup then s1.setBus fun b => { b with supAt := b.supAt.set (port % 2) (some s.now) } else s1
      (if s2.hsrFresh then s2.put (F.PB_RED_STAT_RING_OK p) 1 else s2, false)
    else
      match h.rct with
      | none => (s1, true)
      | some (tb, q) =>
        let s2 := if !s.isHsr p && tb != lanB then
            let s2 := s1.count (F.PB_RED_STAT_WRONG_LAN p) 1
            s2.event Ev.PB_WRONG_LAN noInst [.w p, .w (s2.get (F.PB_RED_STAT_WRONG_LAN p))]
          else s1
        if s2.seenSeq p h.src q then (s2.count (F.PB_CNT_DUP_COUNT p) 1, false)
        else
          let s3 := s2.noteSeq p h.src q
          (if s.isHsr p && !h.alone then s3.setBus fun b => { b with fwd := some (h.src, q, 1 - port % 2) } else s3, true)

/-- R232: a LAN is no longer good; on an HSR pair the ring is open with it when its port lost link. -/
def State.lanLost (s : State) (p : Nat) (lanB : Bool) : State :=
  (s.put (State.lanOk p lanB) 0).eventIf (s.flag (State.lanOk p lanB)) Ev.PB_LAN_LOST noInst [.w p, .w (b2n lanB)]

def State.ringOpen (s : State) : State :=
  (s.put (F.PB_RED_STAT_RING_OK 0) 0).eventIf (s.flag (F.PB_RED_STAT_RING_OK 0)) Ev.PB_HSR_OPEN noInst []

/-- R232: a port loses link or signal. -/
def State.pbLinkDown (s : State) (port : Nat) (los : Bool) : State :=
  let s1 := (s.eventIf (s.flag (F.PB_PORT_STAT_LINK port)) Ev.PB_LINK_DOWN noInst [.w port]).put
    (F.PB_PORT_STAT_LINK port) 0
  let s2 := (s1.putB (F.PB_PORT_STAT_LOS port) los).lanLost (port / 2) (port % 2 == 1)
  if s2.isHsr (port / 2) then s2.ringOpen else s2

/-- PB_LINK_DOWN (R232): a port loses link or signal. -/
def execPbLinkDown (t : Nat) (port : Fin 4) (los : Bool) (s : State) : Host.Outcome State Fault Refusal :=
  atTime t s fun s => s.inDom domPBUS fun s => s.pbLinkDown port los

/-- PB_LINK_UP (event 0x0902): a port whose transceiver is enabled (R488) gains link. -/
def execPbLinkUp (t : Nat) (port : Fin 4) (s : State) : Host.Outcome State Fault Refusal :=
  atTime t s fun s => s.inDom domPBUS fun s => if !s.cageOk (16 + port.val) then s else
    ((s.eventIf (!s.flag (F.PB_PORT_STAT_LINK port)) Ev.PB_LINK_UP noInst [.w port.val]).put
      (F.PB_PORT_STAT_LINK port) 1).put (F.PB_PORT_STAT_LOS port) 0

/-- R232: frames have arrived on a port within the last 100 ms. -/
def State.heard (s : State) (port : Nat) : Bool := match s.bus.lastRx.get port with
  | some t => decide (s.now < t + 100 * uMs)
  | none => false

/-- PB_LAN_LOST (R232). -/
def execPbLanLost (t : Nat) (port : Fin 4) (s : State) : Host.Outcome State Fault Refusal :=
  atTime t s fun s => s.inDom domPBUS fun s =>
    let other := port.val / 2 * 2 + (1 - port.val % 2)
    if !s.heard port && s.heard other then s.lanLost (port.val / 2) (port.val % 2 == 1) else s

/-- PB_HSR_OPEN (R232). -/
def execPbHsrOpen (t : Nat) (s : State) : Host.Outcome State Fault Refusal :=
  atTime t s fun s => s.inDom domPBUS fun s => if s.isHsr 0 && !s.hsrFresh then s.ringOpen else s

/-! ### Sampled values (R234–R241) -/

/-- R234: samples per second of a subscription. -/
def State.svRate (s : State) (j : Nat) : Nat :=
  match s.get (F.SV_SUB_CFG_RATE j) with
  | 0 => 4800
  | 1 => 14400
  | 2 => 80 * s.fnom
  | _ => 256 * s.fnom

def State.svOn (s : State) (j : Nat) : Bool := s.flag (F.SV_SUB_CFG_EN j)

/-- R235: a frame is offered to a subscription. -/
def State.svOffered (s : State) (f : SvFrame) (j : Nat) : Bool :=
  s.svOn j && s.get (F.SV_SUB_CFG_PAIR j) == f.head.port.val / 2 &&
  f.head.dst == s.mac (R.SV_SUB_DST_LO j) (R.SV_SUB_DST_HI j) && f.asdus.any fun a => a.svId == (s.svSub j).svId

/-- R160: the latest instant S + n / rate + delay at or before now, units of module time. -/
def State.instantOf (s : State) (n rate dly : Nat) : Nat :=
  let mt := s.mtUnits
  let o := n * uS / rate + dly
  if o ≤ mt then (mt - o) / uS * uS + o else o

/-- R237: the quality of a channel is good for its consumer. -/
def State.goodQ (s : State) (j : Nat) (q : Quality) : Bool :=
  (q.validity == 0 || (q.validity == 2 && s.flag (F.SV_SUB_CFG_QUEST_OK j))) &&
  (!q.test || s.flag F.PB_CFG_TEST_ACCEPT) && !q.overflow && !q.outOfRange && !q.inconsistent

/-- √(2/3) in 2^-40. -/
def rt23 : Nat := isqrt (2 * 2 ^ 80 / 3)

/-- R159: a voltage in 10 mV, per unit of a point in Q2.30. -/
def State.voltPu (s : State) (p : Nat) (v : Int) : Int :=
  let d := 1000 * rt23 * s.get (F.GRID_PT_VNOM_VNOM p)
  if d = 0 then 0 else roundFree (v * 2 ^ 70) (d : Nat)

/-- R160, R237: a sample of a subscription reaches the sync points that use it. -/
def State.svToPoints (s : State) (j : Nat) (a : SvAsdu) : State :=
  s.forN 9 fun s p =>
    if s.get (F.GRID_PT_SRC_SUB p) ≠ j then s
    else
      let ch := [s.get (F.GRID_PT_CHAN_CH_A p), s.get (F.GRID_PT_CHAN_CH_B p), s.get (F.GRID_PT_CHAN_CH_C p)].map
        fun c => a.chans[c]?
      match ch with
      | [some x, some y, some z] =>
        if s.goodQ j x.2 && s.goodQ j y.2 && s.goodQ j z.2 then
          s.svSample p (s.instantOf a.smpCnt (s.svRate j) (s.get (F.GRID_PT_DLY_SV_DLY p) * 800)) (s.svRate j)
            (s.voltPu p x.1) (s.voltPu p y.1) (s.voltPu p z.1)
        else s
      | _ => s

/-- R257: a sample of a subscription reaches the metering points that use it. -/
def State.svToMeter (s : State) (j : Nat) (a : SvAsdu) : State :=
  s.forN 9 fun s m =>
    let ts := s.instantOf a.smpCnt (s.svRate j) (s.get (F.GRID_PT_DLY_SV_DLY m) * 800)
    let vals (r : Reg) : List (Option Int) := (s.mtrChans m r).map fun c =>
      match a.chans[c]? with
      | some x => if s.goodQ j x.2 then some x.1 else none
      | none => none
    let test (r : Reg) : Bool := (s.mtrChans m r).any fun c =>
      match a.chans[c]? with
      | some x => x.2.test && s.goodQ j x.2
      | none => false
    if s.flag (F.MTR_PT_CFG_SRC m) then s
    else
      let s1 := if s.get (F.MTR_PT_CFG_VSUB m) = j then
          s.mtrSample m ts (s.svRate j) false (test (R.MTR_PT_VCH m)) (vals (R.MTR_PT_VCH m)) else s
      if s1.get (F.MTR_PT_CFG_ISUB m) = j then
        s1.mtrSample m ts (s.svRate j) true (test (R.MTR_PT_ICH m)) (vals (R.MTR_PT_ICH m)) else s1

/-- R240: an accepted sample, the `gap` expected ones before it missing. -/
def State.svCount (s : State) (j ts gap : Nat) : State :=
  let x := s.svSub j
  let good := if gap = 0 then x.good + 1 else 1
  let period := uS / s.svRate j
  let late := s.mtUnits - ts
  let lats := (s.now, late) :: x.lats.filter fun e => decide (s.now < e.1 + uS)
  let us := lats.map fun e => e.2 / uUs
  let s1 := s.setSvSub j { x with good := good, expect := some (ts + period), lastAt := some s.now, lats := lats }
  let s2 := (s1.putSat (F.SV_SUB_LAT_MEAN j) ((us.foldl (· + ·) 0) / lats.length)).putSat (F.SV_SUB_LAT_MAX j) (us.foldl max 0)
  let s3 := if 3 ≤ gap ∧ s.get (F.SV_SUB_STAT_STATE j) = 2 then s2.put (F.SV_SUB_STAT_STATE j) 3 else s2
  if 8 ≤ good ∧ s3.get (F.SV_SUB_STAT_STATE j) ≠ 2 then
    (s3.put (F.SV_SUB_STAT_STATE j) 2).event Ev.SV_STREAM_UP noInst [.w j]
  else s3

/-- Expected samples that did not come before an instant. -/
def State.svGap (s : State) (j ts : Nat) : Nat :=
  match (s.svSub j).expect with
  | some e => if e < ts then (2 * (ts - e) * s.svRate j + uS) / (2 * uS) else 0
  | none => 0

/-- R236: an accepted ASDU becomes one sample. -/
def State.svTake (s : State) (j : Nat) (a : SvAsdu) : State :=
  let ts := s.instantOf a.smpCnt (s.svRate j) 0
  let s1 := (s.svCount j ts (s.svGap j ts)).put (F.SV_SUB_STAT_SMPCNT j) a.smpCnt
  let s2 := if s1.works domVOTE then s1.svToPoints j a else s1
  s2.svToMeter j a

/-- R236: a frame received whose samples are not passed as good. -/
def State.svPass (s : State) (j : Nat) (f : SvFrame) : State :=
  match f.asdus.getLast? with
  | some a => s.setSvSub j { s.svSub j with
      good := 0, expect := some (s.instantOf a.smpCnt (s.svRate j) 0 + uS / s.svRate j) }
  | none => s

/-- R236, R239: tests 2–7 of a frame offered to a subscription. -/
def State.svFrame (s : State) (f : SvFrame) (j : Nat) : State :=
  let x := s.svSub j
  if f.head.src ≠ s.mac (R.SV_SUB_SRC_LO j) (R.SV_SUB_SRC_HI j) ∨ f.appId ≠ s.get (F.SV_SUB_DST_HI_APPID j) then
    let s1 := (s.count (F.SV_SUB_CNT_CONFLICT_COUNT j) 1).put (F.SV_SUB_STAT_CONFLICT j) 1
    if s.quiet x.confAt (10 * uS) then
      (s1.setSvSub j { x with confAt := some s.now }).event Ev.SV_CONFLICT noInst [.w j, .d f.head.src]
    else s1
  else
    let acc := s.flag F.PB_CFG_SIM_ACCEPT
    let only := acc && s.flag (F.SV_SUB_STAT_SIM j)
    if (f.sim && !acc) || (!f.sim && only) then s
    else
      let s := s.putB (F.SV_SUB_STAT_SIM j) (acc && (f.sim || only))
      let n := s.get (F.SV_SUB_CFG_NASDU j) + 1
      let rev := f.asdus.all fun a => a.confRev == s.get (F.SV_SUB_CONFREV_CONFREV j)
      let shape := f.noAsdu == n && f.asdus.length == n && f.asdus.all fun a =>
        a.svId == x.svId && a.chans.length == s.get (F.SV_SUB_CFG_NCH j) + 1
      if !(rev && shape) then
        let s1 := s.count (F.SV_SUB_CNT_BAD_COUNT j) 1
        if rev then s1
        else
          let s2 := s1.put (F.SV_SUB_STAT_CONFREV_BAD j) 1
          if s.quiet x.revAt (10 * uS) then
            (s2.setSvSub j { x with revAt := some s.now }).event Ev.SV_CONFREV noInst [.w j]
          else s2
      else
        let gm := s.get64 R.PTP_GM_ID_LO R.PTP_GM_ID_HI
        let syncOk := f.asdus.all fun a =>
          (a.smpSynch == 2 || (a.smpSynch == 1 && s.flag (F.SV_SUB_CFG_SYNCH_LOCAL j))) && match a.gmId with
            | some g => g == gm
            | none => true
        let st := s.get F.TIME_STATUS_STATE
        if !syncOk then
          ((s.put (F.SV_SUB_STAT_GM_MISMATCH j) 1).event Ev.SV_GM_MISMATCH noInst [.w j]).svPass j f
        else if st ≠ 2 ∧ st ≠ 3 then s.svPass j f
        else if !(f.asdus.all fun a => decide (a.smpCnt < s.svRate j)) then s.svPass j f
        else
          let s1 := s.count (F.SV_SUB_CNT_GOOD_COUNT j) 1
          let s2 := if s1.get (F.SV_SUB_STAT_STATE j) = 0 then s1.put (F.SV_SUB_STAT_STATE j) 1 else s1
          f.asdus.foldl (fun s a => s.svTake j a) (s2.svAccepted j f.raw)

/-- R241: a frame beyond 320,000 in a second of its pair is dropped. -/
def State.svBudget (s : State) (p : Nat) : State × Bool :=
  let sec := s.mtUnits / uS
  let (old, n) := s.bus.load.get p
  let n1 := if old = sec then n + 1 else 1
  let s1 := s.setBus fun b => { b with load := b.load.set p (sec, n1) }
  if n1 ≤ 320000 then (s1, true)
  else
    let s2 := s1.count (F.PB_CNT_OVERLOAD_COUNT p) 1
    if s.quiet (s.bus.overAt.get p) uS then
      ((s2.setBus fun b => { b with overAt := b.overAt.set p (some s.now) }).event Ev.PB_OVERLOAD noInst [.w p], false)
    else (s2, false)

/-- SV_FRAME_RX (R236). -/
def execSvFrameRx (t : Nat) (f : SvFrame) (s : State) : Host.Outcome State Fault Refusal :=
  atTime t s fun s => s.inDom domPBUS fun s =>
    let (s1, first) := s.ethRx f.head
    if !first then s1
    else
      let (s2, room) := s1.svBudget (f.head.port.val / 2)
      if !room then s2
      else
        match (List.range 64).filter (s2.svOffered f) with
        | [] => s2.count (F.PB_CNT_UNMATCHED_COUNT (f.head.port.val / 2)) 1
        | l => l.foldl (fun s j => s.svFrame f j) s2

/-- SV_STREAM_LOST (R240). -/
def execSvStreamLost (t : Nat) (j : Fin 64) (s : State) : Host.Outcome State Fault Refusal :=
  atTime t s fun s => s.inDom domPBUS fun s =>
    let st := s.get (F.SV_SUB_STAT_STATE j)
    match (s.svSub j).lastAt with
    | some a =>
      if 1 ≤ st ∧ st ≤ 3 ∧ a + uS ≤ s.now then
        ((s.setSvSub j { s.svSub j with good := 0 }).put (F.SV_SUB_STAT_STATE j) 4).event Ev.SV_STREAM_LOST noInst [.w j.val]
      else s
    | none => s

/-! ### Sampled-value publication (R243–R246) -/

/-- R243: the channels of a stream from the published signals: value and quality bits. -/
def State.svPubVals (s : State) (q : Nat) : List (Int × Nat) :=
  (List.range (s.get (F.SV_PUB_CFG_NCH q) + 1)).map fun c =>
    let v := rhu (s.sig (s.get (F.SV_PUB_CH_SIG q c)) * s.get (F.SV_PUB_CH_SCALE q c) * 1000) 14
    let qs := if s.flag (F.SV_PUB_CH_QEN q c) then codeOf 16 (s.sig (s.get (F.SV_PUB_QSIG_QSIG q c))) else 0
    (clampI (-(2 ^ 31)) (2 ^ 31 - 1) v, qs % 8)

/-- R244: the published signals of the present cycle are kept for the samples that take them. -/
def State.svPubFreeze (s : State) : State :=
  (s.listed (R.SV_PUB_CFG 0).id).foldl (fun s r =>
    let x := s.bus.pub.get r.i
    if s.flag (F.SV_PUB_CFG_EN r.i) then
      s.setBus fun b => { b with pub := b.pub.set r.i { x with hist := pushN 128 (s.tK, s.svPubVals r.i) x.hist } }
    else s) s

/-- R245: smpSynch. -/
def State.smpSynch (s : State) : Nat :=
  if s.flag F.TIME_STATUS_TRACEABLE then 2 else if 2 ≤ s.get F.TIME_STATUS_STATE then 1 else 0

/-- R244: the delay of a frame after its last sample. -/
def State.svPubLat (s : State) : Nat := s.link.d * s.periodU + 10 * uUs

/-- SV_PUB_FRAME (R244, R246): the newest frame whose instant has come is sent; after a backward step the stream is
paused until module time passes the last sample sent. -/
def execSvPubFrame (t : Nat) (q : Fin 16) (s : State) : Host.Outcome State Fault Refusal :=
  atTime t s fun s => s.inDom domPBUS fun s =>
    if !s.flag (F.SV_PUB_CFG_EN q) || !s.vlWorks || !s.lanesRun || decide (s.now < s.bus.downTo) then s
    else
      let rate := if s.flag (F.SV_PUB_CFG_RATE q) then 14400 else 4800
      let m := if s.flag (F.SV_PUB_CFG_RATE q) then 6 else 2
      let x := s.bus.pub.get q
      let mt := s.mtUnits
      let inst (n : Nat) : Nat := n / rate * uS + n % rate * uS / rate
      let paused := match x.lastTs with
        | some l => decide (mt < l)
        | none => false
      if paused then
        (s.put (F.SV_PUB_STAT_PAUSED q) 1).eventIf (!s.flag (F.SV_PUB_STAT_PAUSED q)) Ev.SV_PUB_PAUSED noInst
          [.w q.val, .w (((x.lastTs.getD 0) - mt) / uMs)]
      else
        let lat := s.svPubLat
        let past := (mt - lat) * rate / uS + 1
        let j := past / m
        let first := (j - 1) * m
        let last := first + m - 1
        let old := match x.lastTs with
          | some l => decide (inst last ≤ l)
          | none => false
        if mt < lat ∨ j = 0 ∨ old = true then s.put (F.SV_PUB_STAT_PAUSED q) 0
        else
          let at_ (n : Nat) : List (Int × Nat) := match x.hist.find? fun e => decide (e.1 ≤ inst n) with
            | some e => e.2
            | none => s.svPubVals q
          let out : SvOut := { first := first, synch := s.smpSynch, confRev := s.get (F.SV_PUB_CONFREV_CONFREV q),
                               gmId := if s.flag (F.SV_PUB_CFG_GMID q) then some (s.get64 R.PTP_GM_ID_LO R.PTP_GM_ID_HI) else none,
                               asdus := (List.range m).map fun i => at_ (first + i),
                               rct := s.bus.txSeq.get (s.get (F.SV_PUB_CFG_PAIR q)) }
          let s1 := s.setBus fun b => { b with pub := b.pub.set q { x with lastTs := some (inst last), sent := some out } }
          ((((s1.rctNext (s.get (F.SV_PUB_CFG_PAIR q))).put (F.SV_PUB_STAT_PAUSED q) 0).put (F.SV_PUB_STAT_SMPSYNCH q) s.smpSynch).put (F.SV_PUB_STAT_LAT q)
            (lat / uUs)).put (F.SV_PUB_STAT_SMPCNT q) (last % rate)

/-! ### GOOSE publication (R251–R253) -/

/-- R251: the status word that a member of KIND 4 names. -/
def State.statusWord (s : State) (n : Nat) : Word :=
  match n with
  | 0 => s.word R.ISL_STAT
  | 1 => s.word R.LANE_STATUS
  | 2 => s.word R.REC_HEALTH
  | 3 => BitVec.ofNat 32 (b2n s.log.fallback)
  | _ => 0

/-- R251: the present value of a member. -/
def State.pubMember (s : State) (q m : Nat) (pdu : List Byte) : GMember :=
  let src := s.get (F.GOOSE_PUB_MEM_SRC q m)
  let b := s.get (F.GOOSE_PUB_MEM_BIT q m)
  match s.get (F.GOOSE_PUB_MEM_KIND q m) with
  | 1 => .int (s.sig src)
  | 2 => .bool (bit (codeOf 16 (s.sig src)) b)
  | 3 => .bool (s.flag (F.FRT_CLU_STAT_TRIP_OUT src))
  | 4 => .bool (bit (s.statusWord src).toNat b)
  | 5 => .octets pdu
  | _ => .bool false

def State.pubMembers (s : State) (q : Nat) : List GMember :=
  (List.range (s.get (F.GOOSE_PUB_CFG_NMEM q) + 1)).map fun m => s.pubMember q m (s.bus.gpub.get q).pdu

/-- R252: a frame is sent, and the next is due after an interval, ms. -/
def State.gooseSend (s : State) (q step : Nat) (mem : List GMember) : State :=
  let x := s.bus.gpub.get q
  let ms := min step (s.get (F.GOOSE_PUB_CFG_T0 q) * 100)
  let out : GooseOut := { at_ := s.now, stNum := s.get (F.GOOSE_PUB_STNUM_NUM q), sqNum := s.get (F.GOOSE_PUB_SQNUM_NUM q),
                          tal := max 4 (2 * ms), members := mem, rct := s.bus.txSeq.get (s.get (F.GOOSE_PUB_CFG_PAIR q)) }
  (s.setBus fun b => { b with gpub := b.gpub.set q { x with vals := some mem, next := some (s.now + ms * uMs), step := ms,
                                                            sent := some out } }).rctNext (s.get (F.GOOSE_PUB_CFG_PAIR q))

/-- R252: stNum of a new state, skipping 0. -/
def nextSt (n : Nat) : Nat := if n + 1 < 2 ^ 32 then n + 1 else 1

/-- R19, R230, R279: a publication is enabled, the voter VL forwards words and the ports are not restarting. -/
def State.pubReady (s : State) (q : Nat) : Bool :=
  s.flag (F.GOOSE_PUB_CFG_EN q) && s.vlWorks && s.lanesRun && decide (s.bus.downTo ≤ s.now)

/-- R252: the members as found start a new state when one of them has changed. -/
def State.pubCheck (s : State) (q : Nat) : State :=
  if !s.pubReady q then s
  else
    let x := s.bus.gpub.get q
    let mem := s.pubMembers q
    let tmin := s.get (F.GOOSE_PUB_CFG_TMIN q)
    match x.vals with
    | none => (s.put (F.GOOSE_PUB_SQNUM_NUM q) 0).gooseSend q tmin mem
    | some old =>
      if old = mem then s
      else ((s.put (F.GOOSE_PUB_STNUM_NUM q) (nextSt (s.get (F.GOOSE_PUB_STNUM_NUM q)))).put (F.GOOSE_PUB_SQNUM_NUM q) 0).gooseSend
        q tmin mem

/-- R251: at an input freeze every publication is evaluated. -/
def State.gooseFreeze (s : State) : State :=
  if s.works domPBUS then s.forN 32 fun s q => s.pubCheck q else s

/-- R253: a new PDU of the safety island for a safety publication. -/
def State.pubPdu (s : State) (q : Nat) (pdu : List Byte) : State :=
  if !s.works domPBUS then s
  else (s.setBus fun b => { b with gpub := b.gpub.set q { b.gpub.get q with pdu := pdu } }).pubCheck q

/-- GOOSE_PUB_REPEAT (R252). -/
def execGoosePubRepeat (t : Nat) (q : Fin 32) (s : State) : Host.Outcome State Fault Refusal :=
  atTime t s fun s => s.inDom domPBUS fun s =>
    let x := s.bus.gpub.get q
    match x.next, x.vals with
    | some n, some mem =>
      if s.pubReady q && decide (n ≤ s.now) then
        (s.countWrap (F.GOOSE_PUB_SQNUM_NUM q)).gooseSend q (x.step * 2) mem
      else s
    | _, _ => s

/-! ### PTP (R48–R53, R254) -/

/-- R48: the order of the best master clock algorithm. -/
def announceKey (a : Announce) : List Nat :=
  [a.priority1, a.clockClass, a.accuracy, a.variance, a.priority2, a.gmId, a.steps]

/-- Lexicographic order. -/
def lexLt : List Nat → List Nat → Bool
  | x :: l, y :: r => decide (x < y) || (x == y && lexLt l r)
  | _, _ => false

def masterFlag (lan : Nat) : Fld := if lan = 0 then F.PTP_PORT_STAT_A_MASTER else F.PTP_PORT_STAT_B_MASTER

/-- R51: what the grandmaster announces makes a lock traceable. -/
def State.gmGood (s : State) : Bool := s.clk.gmTraceable && (s.clk.gmClass == 6 || s.clk.gmClass == 7)

/-- R51, R254: the data of the grandmaster in use. -/
def State.useMaster (s : State) (a : Announce) : State :=
  let s1 := s.setClk fun x => { x with gmTraceable := a.traceable, gmClass := a.clockClass }
  let s2 := s1.put64 R.PTP_GM_ID_LO R.PTP_GM_ID_HI a.gmId
  if s2.get F.TIME_STATUS_STATE = 2 then s2.putB F.TIME_STATUS_TRACEABLE s2.gmGood else s2

/-- R54: the UTC offset and leap flags of the master's Announce. -/
def State.takeUtc (s : State) (a : Announce) : State :=
  (((s.putS F.TIME_UTC_UTC_OFFSET a.utcOffset).putB F.TIME_UTC_LEAP61 a.leap61).putB F.TIME_UTC_LEAP59 a.leap59).copyUtc

/-- R50: a master is selected: LOCKING. Its Sync messages are awaited from now. -/
def State.selectMaster (s : State) (lan : Nat) (a : Announce) : State :=
  let st := s.get F.TIME_STATUS_STATE
  let s1 := ((s.put F.TIME_STATUS_STATE 1).put F.TIME_STATUS_TRACEABLE 0).put F.PTP_PORT_STAT_ACTIVE_LAN lan
  (s1.setClk fun x => { x with lockFrom := st, inBand := 0, uncertBase := s.uncert, uncertAt := s.now,
                               syncAt := x.syncAt.set lan s.now }).useMaster a

/-- R50: the master of a LAN is lost: its Announce timeout has run out, or no Sync has come for 3 intervals on the LAN in
use. -/
def State.masterGone (s : State) (lan : Nat) : Bool :=
  decide (s.clk.announceAt.get lan + Config.announceTimeout ≤ s.now) ||
  decide (s.clk.syncAt.get lan + 3 * Config.syncInterval ≤ s.now)

/-- R254: a port carries PTP. -/
def State.ptpPort (s : State) (port : Nat) : Bool :=
  s.works domPBUS && s.get F.PB_CFG_PTP_PAIR == port / 2 && s.flag (F.PB_PORT_STAT_LINK port) &&
  decide (s.bus.downTo ≤ s.now)

/-- PTP_ANNOUNCE (R48, R50). -/
def execPtpAnnounce (t : Nat) (port : Fin 4) (a : Announce) (s : State) : Host.Outcome State Fault Refusal :=
  atTime t s fun s => s.inDom domCLK fun s =>
    if !s.ptpPort port || a.domain != s.get F.TIME_PTP_CFG_DOMAIN then s
    else
      let lan := port.val % 2
      let take := match s.bus.master.get lan with
        | some m => m.gmId == a.gmId || lexLt (announceKey a) (announceKey m)
        | none => true
      let heard (s : State) : State := s.setClk fun x => { x with
        announceAt := x.announceAt.set lan s.now,
        syncAt := if (s.bus.master.get lan).isSome then x.syncAt else x.syncAt.set lan s.now }
      let s1 := if take then ((heard s).setBus fun b => { b with master := b.master.set lan (some a) }).put (masterFlag lan) 1 else s
      let st := s1.get F.TIME_STATUS_STATE
      let active := s1.get F.PTP_PORT_STAT_ACTIVE_LAN
      if !take then s1
      else if st = 0 ∨ st = 3 then
        let s2 := if st = 3 then s1.takeUtc a else s1
        s2.selectMaster lan a
      else if active = lan then
        let s2 := s1.useMaster a
        if st = 2 then s2.takeUtc a else s2
      else s1

/-- R53: the servo's offset bound, ns. -/
def boundOf (l : List Int) : Nat := satN 4294967295 ((l.map Int.natAbs).foldl max 0 + 16)

/-- R46, R49, R50: the offset of a Sync taken out: within ±1 µs by the servo's own slew, else as a correction of module
time; a step starts the bound anew (R53). -/
def State.syncCorrect (s : State) (d : Int) (bound : Nat) : State :=
  let s1 := if d.natAbs ≤ 8000 then s.setClk fun x => { x with slewLeft := d } else s.correctTime d
  if s1.clk.steps ≠ s.clk.steps then s1.setClk fun x => { x with uncertBase := bound, uncertAt := s1.now } else s1

/-- R49, R53: the servo after a Sync: LOCKED on entry, the correction held and the bound renewed while LOCKED. -/
def State.syncLock (s : State) (st : Nat) (fc : Int) (bound : Nat) (lock : Bool) : State :=
  let held (x : ClkSt) : ClkSt := { x with freqLocked := fc, uncertBase := bound, uncertAt := s.now }
  if lock then
    ((((s.put F.TIME_STATUS_STATE 2).put F.TIME_STATUS_RTC_DERIVED 0).putB F.TIME_STATUS_TRACEABLE s.gmGood).setClk
      held).event Ev.PTP_LOCKED noInst []
  else if st = 2 then s.setClk held
  else s

/-- PTP_SYNC (R50, R53): a Sync whose precise origin time with its corrections is `origin` (module time units), on a
port; the servo's frequency correction after it, in parts in 2^32, is its own choice. A part of a nanosecond of the
offset is rounded toward zero: DESIGN CHOICE, log entry 184. -/
def execPtpSync (t : Nat) (port : Fin 4) (origin : Nat) (freq : Int) (s : State) : Host.Outcome State Fault Refusal :=
  atTime t s fun s => s.inDom domCLK fun s =>
    let lan := port.val % 2
    let st := s.get F.TIME_STATUS_STATE
    let heard := s.ptpPort port && (s.bus.master.get lan).isSome
    let s := if heard then s.setClk fun x => { x with syncAt := x.syncAt.set lan s.now } else s
    if !heard || s.get F.PTP_PORT_STAT_ACTIVE_LAN != lan || (st != 1 && st != 2) then s
    else
      let pd := s.get (if lan = 0 then F.PTP_PDELAY_A_NS else F.PTP_PDELAY_B_NS)
      let d : Int := (origin : Int) + pd * 8 - s.mtUnits
      let ns := d.tdiv 8
      let offs := pushN 16 ns s.clk.offsets
      let inb := if d.natAbs ≤ 8000 then s.clk.inBand + 1 else 0
      let fc := clampI (-214748) 214748 freq
      let s1 := (s.putS F.TIME_OFFSET_OFFSET ns).setClk fun x => { x with offsets := offs, inBand := inb, freqCorr := fc }
      (s1.syncCorrect d (boundOf offs)).syncLock st fc (boundOf offs) (st == 1 && decide (16 ≤ inb))

/-- PTP_PDELAY (R254): a peer-delay exchange of `rtt` ns between its own timestamps and `resp` ns between the peer's. -/
def execPtpPdelay (t : Nat) (port : Fin 4) (rtt resp : Nat) (s : State) : Host.Outcome State Fault Refusal :=
  atTime t s fun s => s.inDom domPBUS fun s =>
    if s.ptpPort port then
      s.putSat (if port.val % 2 = 0 then F.PTP_PDELAY_A_NS else F.PTP_PDELAY_B_NS) (roundFree ((rtt - resp : Nat) : Int) 2).toNat
    else s

/-- R254: the other LAN takes over, its master being the same grandmaster. -/
def State.ptpSwitch (s : State) : State :=
  let other := 1 - s.get F.PTP_PORT_STAT_ACTIVE_LAN
  ((s.put F.PTP_PORT_STAT_ACTIVE_LAN other).count F.PTP_PORT_STAT_SWITCHES 1).event Ev.PTP_LAN_SWITCH noInst [.w other]

/-- R254: the other LAN offers the grandmaster in use. -/
def State.otherOffers (s : State) : Bool :=
  match s.bus.master.get (1 - s.get F.PTP_PORT_STAT_ACTIVE_LAN) with
  | some m => m.gmId == s.get64 R.PTP_GM_ID_LO R.PTP_GM_ID_HI
  | none => false

/-- R50: the master is lost. -/
def State.masterLost (s : State) : State :=
  let st := s.get F.TIME_STATUS_STATE
  if st = 2 then
    let s1 := s.setClk fun x => { x with holdAt := s.now, holdOver := false, holdTrace := s.flag F.TIME_STATUS_TRACEABLE,
                                           freqCorr := s.clk.freqLocked, uncertBase := s.uncert, uncertAt := s.now }
    (s1.put F.TIME_STATUS_STATE 3).event Ev.PTP_HOLDOVER noInst []
  else if st = 1 then
    if s.clk.lockFrom = 3 then
      let alive := s.clk.holdTrace && !s.clk.holdOver &&
        decide (s.since s.clk.holdAt < s.get F.TIME_PTP_CFG_HOLD_S * uS)
      ((s.setClk fun x => { x with freqCorr := s.clk.freqLocked }).put F.TIME_STATUS_STATE 3).putB F.TIME_STATUS_TRACEABLE alive
    else (s.setClk fun x => { x with freqCorr := 0, slewLeft := 0, slewAcc := 0 }).put F.TIME_STATUS_STATE 0
  else s

/-- PTP_MASTER_LOST (R50): no Announce within the timeout, or three Sync intervals missed, on a LAN. -/
def execPtpMasterLost (t : Nat) (lan : Fin 2) (s : State) : Host.Outcome State Fault Refusal :=
  atTime t s fun s => s.inDom domCLK fun s =>
    if (s.bus.master.get lan).isNone || !s.masterGone lan then s
    else
      let s1 := (s.setBus fun b => { b with master := b.master.set lan none }).put (masterFlag lan) 0
      if s.get F.PTP_PORT_STAT_ACTIVE_LAN ≠ lan ∨ (s.get F.TIME_STATUS_STATE ≠ 1 ∧ s.get F.TIME_STATUS_STATE ≠ 2) then s1
      else if s1.otherOffers then s1.ptpSwitch
      else s1.masterLost

/-- PTP_LAN_SWITCH (R254): the LAN in use has missed 3 Sync intervals, or its master is lost or its link down. -/
def execPtpLanSwitch (t : Nat) (s : State) : Host.Outcome State Fault Refusal :=
  atTime t s fun s => s.inDom domPBUS fun s =>
    let lan := s.get F.PTP_PORT_STAT_ACTIVE_LAN
    let st := s.get F.TIME_STATUS_STATE
    let gone := (s.bus.master.get lan).isNone || s.masterGone lan || !s.ptpPort (s.get F.PB_CFG_PTP_PAIR * 2 + lan)
    if (st == 1 || st == 2) && gone && s.otherOffers then s.ptpSwitch else s

/-! ### GOOSE values (R247–R249) -/

/-- R247: the values taken from a subscription. -/
def State.gooseVals (s : State) (g : Nat) : List Nat :=
  (List.range 2048).filter fun v => s.get (F.GOOSE_VAL_MAP_SUB v) == g && s.get (F.GOOSE_VAL_MAP_TYPE v) != 4

/-- R248: the subscription is INVALID; its values are invalid with it (R249). -/
def State.gooseInvalid (s : State) (g : Nat) : State :=
  let s1 := s.put (F.GOOSE_SUB_STAT_VALID g) 0
  ((s1.gooseVals g).foldl (fun s v => s.put (F.GOOSE_VAL_DATA_VALID v) 0) s1).islFollow s.mtNs

/-! ### Configuration (R230, R241, R242) -/

def unicast (m : Nat) : Bool := m != 0 && !bit m 40

/-- R242: two enabled entries of one pair share a name. -/
def sharesName (l : List (Nat × Nat × List Byte)) : Option Nat :=
  (l.find? fun x => l.any fun y => decide (y.1 < x.1) && y.2 == x.2).map (·.1)

/-- R241: the frame budget of a pair: Σ RATE ÷ NASDU, times 840 so that it is whole. -/
def State.frameBudget (s : State) (p : Nat) : Nat :=
  (((List.range 64).filter fun j => s.svOn j && s.get (F.SV_SUB_CFG_PAIR j) == p).map fun j =>
    s.svRate j * 840 / (s.get (F.SV_SUB_CFG_NASDU j) + 1)).foldl (· + ·) 0

/-- R242: the first check that fails: check, table (0 SV, 1 GOOSE subscription, 2 SV, 3 GOOSE publication, 4 GOOSE
values), index. -/
def State.busCheck (s : State) : Option (Nat × Nat × Nat) :=
  let sv := (List.range 64).filter s.svOn
  let gs := (List.range 128).filter fun g => s.flag (F.GOOSE_SUB_CFG_EN g)
  let pq := (List.range 16).filter fun q => s.flag (F.SV_PUB_CFG_EN q)
  let gq := (List.range 32).filter fun q => s.flag (F.GOOSE_PUB_CFG_EN q)
  let c1 := ((sharesName (sv.map fun j => (j, s.get (F.SV_SUB_CFG_PAIR j), (s.svSub j).svId))).map fun j => (1, 0, j)).or
    ((sharesName (gs.map fun g => (g, s.get (F.GOOSE_SUB_CFG_PAIR g), (s.gSub g).ref))).map fun g => (1, 1, g))
  let badSv (j : Nat) : Bool := !unicast (s.mac (R.SV_SUB_SRC_LO j) (R.SV_SUB_SRC_HI j)) ||
    !bit (s.mac (R.SV_SUB_DST_LO j) (R.SV_SUB_DST_HI j)) 40
  let badG (g : Nat) : Bool := !unicast (s.mac (R.GOOSE_SUB_SRC_LO g) (R.GOOSE_SUB_SRC_HI g)) ||
    !bit (s.mac (R.GOOSE_SUB_DST_LO g) (R.GOOSE_SUB_DST_HI g)) 40
  let c2 := ((sv.find? badSv).map fun j => (2, 0, j)).or (((gs.find? badG).map fun g => (2, 1, g)).or
    (((pq.find? fun q => !bit (s.mac (R.SV_PUB_DST_LO q) (R.SV_PUB_DST_HI q)) 40).map fun q => (2, 2, q)).or
      ((gq.find? fun q => !bit (s.mac (R.GOOSE_PUB_DST_LO q) (R.GOOSE_PUB_DST_HI q)) 40).map fun q => (2, 3, q))))
  let ptBad (j : Nat) : Bool := (List.range 9).any fun p => s.flag (F.GRID_PT_SRC_SV_EN p) && s.get (F.GRID_PT_SRC_SUB p) == j &&
    [s.get (F.GRID_PT_CHAN_CH_A p), s.get (F.GRID_PT_CHAN_CH_B p), s.get (F.GRID_PT_CHAN_CH_C p)].any
      fun c => decide (s.get (F.SV_SUB_CFG_NCH j) < c)
  let mBad (j : Nat) : Bool := (List.range 9).any fun m => s.mtrOn m && !s.flag (F.MTR_PT_CFG_SRC m) &&
    ((s.get (F.MTR_PT_CFG_VSUB m) == j && (s.mtrChans m (R.MTR_PT_VCH m)).any fun c => decide (s.get (F.SV_SUB_CFG_NCH j) < c)) ||
     (s.get (F.MTR_PT_CFG_ISUB m) == j && (s.mtrChans m (R.MTR_PT_ICH m)).any fun c => decide (s.get (F.SV_SUB_CFG_NCH j) < c)))
  let c3 := (sv.find? fun j => ptBad j || mBad j).map fun j => (3, 0, j)
  let c4 := ([0, 1].find? fun p => decide (320000 * 840 < s.frameBudget p)).map fun p => (4, 0, p)
  let vals := s.listed (R.GOOSE_VAL_MAP 0).id
  let badV (v : Nat) : Bool :=
    let g := s.get (F.GOOSE_VAL_MAP_SUB v)
    let n := s.get (F.GOOSE_SUB_CFG_NMEM g)
    !s.flag (F.GOOSE_SUB_CFG_EN g) || decide (n < s.get (F.GOOSE_VAL_MAP_MEM v)) || decide (3 < s.get (F.GOOSE_VAL_MAP_TYPE v)) ||
    (s.flag (F.GOOSE_VAL_MAP_QEN v) && decide (n < s.get (F.GOOSE_VAL_MAP_QMEM v)))
  let c5 := ((vals.map (·.i)).find? badV).map fun v => (5, 4, v)
  let safes (q : Nat) : Nat := ((List.range 64).filter fun m => s.get (F.GOOSE_PUB_MEM_KIND q m) == 5).length
  let c6 := (gq.find? fun q => decide (s.get (F.GOOSE_PUB_CFG_T0 q) * 100 < s.get (F.GOOSE_PUB_CFG_TMIN q)) ||
    decide (1 < safes q)).map fun q => (6, 3, q)
  c1.or (c2.or (c3.or (c4.or (c5.or c6))))

def svSubRegs (j : Nat) : List Reg :=
  [R.SV_SUB_DST_LO j, R.SV_SUB_DST_HI j, R.SV_SUB_SRC_LO j, R.SV_SUB_SRC_HI j, R.SV_SUB_CFG j, R.SV_SUB_CONFREV j]
def gSubRegs (g : Nat) : List Reg :=
  [R.GOOSE_SUB_DST_LO g, R.GOOSE_SUB_DST_HI g, R.GOOSE_SUB_SRC_LO g, R.GOOSE_SUB_SRC_HI g, R.GOOSE_SUB_CFG g,
   R.GOOSE_SUB_CONFREV g]

/-- Some of the registers differ between two states. -/
def State.differ (s old : State) (l : List Reg) : Bool := l.any fun r => s.word r != old.word r

/-- R230, R242: a change that may not be made while a cluster is in a running state. -/
def State.busConflict (s new : State) : Bool :=
  let f := [F.PB_CFG_MODE, F.PB_CFG_ROLE0, F.PB_CFG_ROLE1, F.PB_CFG_PTP_PAIR]
  (s.anyRunning && f.any fun x => s.get x != new.get x) ||
  (List.range 8).any fun c => s.cluRunning c && s.flag (F.GRID_PT_SRC_SV_EN (s.syncPt c)) &&
    s.differ new (svSubRegs (s.get (F.GRID_PT_SRC_SUB (s.syncPt c))))

/-- R230, R246, R255: what a commit that touched the block restarts. -/
def State.busCommit (s old : State) : State :=
  let f := [F.PB_CFG_MODE, F.PB_CFG_ROLE0, F.PB_CFG_ROLE1, F.PB_CFG_PTP_PAIR]
  let s1 := if f.any fun x => s.get x != old.get x then s.setBus fun b => { b with downTo := s.now + uMs } else s
  let s2 := s1.forN 64 fun s j =>
    let s1 := if s.flag F.PB_CFG_SIM_ACCEPT then s else s.put (F.SV_SUB_STAT_SIM j) 0
    if s1.differ old (svSubRegs j) then
      let x := s1.svSub j
      (s1.setSvSub j { x with good := 0, expect := none, lastAt := none, lats := [] }).put (F.SV_SUB_STAT_STATE j)
        (if s1.svOn j then 1 else 0)
    else s1
  let s3 := s2.forN 128 fun s g =>
    let x := s.gSub g
    let s1 := if s.flag F.PB_CFG_SIM_ACCEPT then s else s.setGSub g { x with sim := false }
    if s1.differ old (gSubRegs g) then s1.gooseInvalid g else s1
  s3.forN 16 fun s q =>
    let chans := (List.range 24).flatMap fun c => [R.SV_PUB_CH q c, R.SV_PUB_QSIG q c]
    if s.differ old chans || s.get (F.SV_PUB_CFG_RATE q) != old.get (F.SV_PUB_CFG_RATE q) ||
        s.get (F.SV_PUB_CFG_NCH q) != old.get (F.SV_PUB_CFG_NCH q) then s.countWrap (F.SV_PUB_CONFREV_CONFREV q)
    else s

end Sys2Proof.Machine
end

