-- ==== Sys2Proof/Machine/Leg.lean ====
section
/-! DEFINITION. The states and pulses of the auxiliary legs (R133, R137, R409–R412), as far as the lanes and the
comparators use them. -/

namespace Sys2Proof.Machine

abbrev gOFF : Nat := 0
abbrev gDIAG : Nat := 1
abbrev gRUN : Nat := 2
abbrev gLATCHED : Nat := 3
abbrev gFAULT : Nat := 4
abbrev gHELD : Nat := 5

def State.leg (s : State) (l : Nat) : LegX := s.ana.leg.get l
def State.setLegX (s : State) (l : Nat) (x : LegX) : State := s.setAna fun y => { y with leg := s.ana.leg.set l x }
def State.legState (s : State) (l : Nat) : Nat := s.get (F.LEG_STATUS_STATE l)

/-- R409: a change of STATE; both outputs are low in every state but RUN. -/
def State.legGo (s : State) (l dest : Nat) : State :=
  let from_ := s.legState l
  if from_ = dest then s
  else
    let x := s.leg l
    let s1 := (s.put (F.LEG_STATUS_STATE l) dest).setLegX l
      (if dest = gRUN then { x with en := true, enFall := none }
       else { x with en := false, enFall := none, live := none, dec := none, writes := [], shadow := none })
    s1.event Ev.LEG_STATE noInst [.w l, .w from_, .w dest]

/-- R279, R412: HOLD moves a leg in RUN or DIAG to HELD. -/
def State.legHold (s : State) : State :=
  s.forN 24 fun s l => if s.legState l = gRUN ∨ s.legState l = gDIAG then s.legGo l gHELD else s

/-- R280, R412: at a restart a held leg goes to OFF. -/
def State.legResume (s : State) : State := s.forN 24 fun s l => if s.legState l = gHELD then s.legGo l gOFF else s

/-- R137, R131: the decision of a leg for its first update point at or after `t`: duty 0–100 % of its signal. -/
def State.legAim (s : State) (l t : Nat) : PwmDec :=
  let p := max 1 (s.get (F.PWM_LEG_CFG_CAR_P l))
  let tMin := 80 * s.get (F.PWM_LEG_TIME_T_MIN l)
  let num := 2 * clampI 0 16384 (s.sig (s.get (F.PWM_LEG_SRC_SIG l))) - 16384
  let den := 16384
  let u := gridNext (s.get (F.PWM_LEG_OFF_OFF l)) p t
  let prev := (s.leg l).dec
  let debt := s.getS (F.PWM_LEG_DEBT_DEBT l)
  let mid : Bool := match prev with
    | some d => s.get (F.PWM_LEG_CFG_UPDATE_AT l) == 1 && decide (t ≤ d.u + d.p / 2) && decide (d.u < t)
    | none => false
  match prev, mid with
  | some d, true => { d with h0 := decide130 d.p (reqWidth2 d.p d.dNum d.dDen num den) 0 tMin d.h0 }
  | _, _ =>
    let again : Bool := match prev with
      | some d => d.u == u && d.p == p
      | none => false
    let in0 := if again then (prev.map (·.h0.debtIn)).getD 0 else debt
    { u := u, p := p, decided := true, dNum := num, dDen := den, h0 := decide129 p (reqWidth p num den) in0 0 tMin }

/-- R131: the counts of a leg's decision whose period has begun. -/
def State.countLeg (s : State) (o : Option PwmDec) (d : PwmDec) : State := match o with
  | some x =>
    if x.u = d.u then s
    else (s.count F.PWM_CNT_DEBT_CAP_COUNT (b2n x.h0.clipped)).count F.PWM_CNT_SNAP_COUNT (b2n x.h0.snapped)
  | none => s

/-- R137: a shadow write at T_(k+D) joins those to come; of those already made only the last counts. -/
def LegX.write (x : LegX) (now at_ : Nat) (d : PwmDec) : LegX :=
  let past := x.writes.filter fun e => decide (e.1 ≤ now)
  { x with dec := some d, writes := past.getLast?.toList ++ x.writes.filter (fun e => decide (now < e.1)) ++ [(at_, d)] }

/-- R137: the compares of every leg in this pass; a leg that does not run has no debt. -/
def State.legRun (s : State) : State :=
  s.forN 24 fun s l =>
    if s.legState l = gRUN then
      let d := s.legAim l s.tApply
      ((s.countLeg (s.leg l).dec d).putS (F.PWM_LEG_DEBT_DEBT l) d.h0.debt).setLegX l
        ((s.leg l).write s.mtUnits s.tApply d)
    else if (s.leg l).dec.isSome || s.get (F.PWM_LEG_DEBT_DEBT l) != 0 then
      (s.put (F.PWM_LEG_DEBT_DEBT l) 0).setLegX l { s.leg l with dec := none }
    else s

/-- R125: the leg's update point at `u` takes the shadow writes made by then. -/
def LegX.arm (x : LegX) (u : Nat) : LegX :=
  match (x.writes.filter fun e => decide (e.1 ≤ u)).getLast? with
  | some e => { x with shadow := some e.2, writes := x.writes.filter fun w => decide (u < w.1) }
  | none => x

/-- R125: a carrier start at `u`: an armed shadow supplies the compares, an unarmed one leaves those in use. -/
def LegX.boundary (x : LegX) (u : Nat) : LegX :=
  match x.shadow with
  | some d => if x.firstAt ≤ u then { x with live := some { d with u := u }, shadow := none } else x
  | none => x

/-- R125: a mid-period point: an armed shadow supplies the off-compare unless one of the two pairs is special. -/
def LegX.midPoint (x : LegX) : LegX :=
  match x.live, x.shadow with
  | some v, some d =>
    if v.h0.special || d.h0.special then x
    else { x with live := some { v with h0 := { v.h0 with off := d.h0.off } }, shadow := none }
  | _, _ => x

end Sys2Proof.Machine
end

