-- ==== Sys2Proof/Machine/Lanes.lean ====
section
/-! DEFINITION. Triple lanes, voters and merge stages, the hold, rejoin and restart, and the end of a suspension
(R274–R290, R294). -/

namespace Sys2Proof.Machine

abbrev lOFF : Nat := 0
abbrev lINSERVICE : Nat := 1
abbrev lEXCLUDED : Nat := 2
abbrev lSELFTEST : Nat := 3
abbrev lLOADING : Nat := 4
abbrev lCOPYING : Nat := 5
abbrev lPROBATION : Nat := 6
abbrev lLOCKED : Nat := 7


def State.lane (s : State) (l : Nat) : LaneX := s.lanes.lane.get l
def State.setLane (s : State) (l : Nat) (x : LaneX) : State :=
  s.setLanes fun y => { y with lane := s.lanes.lane.set l x }
def State.lstate (s : State) (l : Nat) : Nat := s.get (F.LANE_STAT_STATE l)

/-- R274: a lane is counted. -/
def State.counted (s : State) (l : Nat) : Bool := s.lstate l == lINSERVICE || s.lstate l == lPROBATION
def State.nCounted (s : State) : Nat := ((List.range 3).filter s.counted).length


/-- R274: COUNTED follows the lanes' states. -/
def State.showLanes (s : State) : State :=
  s.put F.LANE_STATUS_COUNTED (b2n (s.counted 0) + 2 * b2n (s.counted 1) + 4 * b2n (s.counted 2))

/-- R279, R309: HOLD: no further word is forwarded, schedule frames in progress are aborted, every running cluster is
halted and ceased, waiting Pours end, a capture is triggered. -/
def State.enterHold (s : State) : State :=
  if !s.lanesRun then s
  else
    let s1 := (s.put F.LANE_STATUS_MODE mdHOLD).forN 8 fun s r => s.setRing r ((s.ring r).holdTx s.now)
    let s2 := ((s1.forN 8 fun s c => s.holdCease c).legHold).holdPours
    s2.setCapAsk fun _ => s2.capAsk ++ [(s2.mtUnits, 1, 0)]

/-- R284: exclusions of the last 24 h. -/
def State.excl24 (s : State) (l : Nat) : List Nat := (s.lane l).excls.filter fun t => decide (s.mtUnits < t + 86400 * uS)

/-- R277, R284: what every exclusion records. -/
def State.noteExcl (s : State) (l cause : Nat) : State :=
  let x := s.lane l
  let excls := s.mtUnits :: s.excl24 l
  let s1 := s.setLane l { x with exclAt := some s.now, excls := excls, minor := [], switchK := none, copied := false }
  let s2 := (((s1.put (F.LANE_STAT_STATE l) lEXCLUDED).put (F.LANE_STAT_CAUSE l) cause).putSat (F.LANE_STAT_EXCL24 l)
    excls.length).put64 (R.LANE_EXCL_LO l) (R.LANE_EXCL_HI l) s.mtNs
  let s3 := s2.event Ev.LANE_EXCLUDED noInst [.w l, .w cause]
  if s3.get F.LANE_CFG_MAX_EXCL ≤ excls.length then
    ((s3.put (F.LANE_STAT_STATE l) lLOCKED).setLane l { s3.lane l with locked := true }).event Ev.LANE_LOCKED noInst [.w l]
  else s3

/-- R276, R277: a lane is excluded; one that would leave fewer than two counted leads to HOLD. -/
def State.excludeLane (s : State) (l cause : Nat) : State :=
  if !s.counted l then s.noteExcl l cause
  else if s.nCounted ≤ 2 then s.enterHold
  else ((s.noteExcl l cause).put F.LANE_STATUS_MODE mdDUPLEX).showLanes

/-- R282, R283: a rejoin ends with a failure at a step, a minority in PROBATION as step 4; R277: the lane is excluded with
cause 3, and starts again 1 s later. -/
def State.rejoinFail (s : State) (l step : Nat) : State :=
  let s1 := ((s.put (F.LANE_STAT_FAIL_STEP l) step).event Ev.LANE_REJOIN_FAIL noInst [.w l, .w step]).excludeLane l 3
  s1.setLane l { s1.lane l with failAt := some s1.now }

/-- R158, R277: an uncorrectable error in a memory of a lane that runs: it is counted and the lane, unless it is
EXCLUDED already, is excluded. -/
def State.laneUncorr (s : State) (l memory : Nat) : State :=
  if s.works (domLANE l) && s.lstate l != lOFF && s.lstate l != lLOCKED then
    let s1 := ((s.count F.CE_CNT_ECC_UNCORR 1).put F.CE_STATUS_ECC_UNC 1).event Ev.CE_ECC_UNCORR noInst [.w l, .w memory]
    if s.lstate l = lEXCLUDED then s1 else s1.excludeLane l 1
  else s

/-- LANE_EXCLUDED (R277): an uncorrectable memory error of a lane (with its memory), or its domain has left ON. -/
def execLaneExcluded (t : Nat) (l : LaneIx) (ecc : Bool) (memory : Nat) (s : State) : Host.Outcome State Fault Refusal :=
  atTime t s fun s => s.inDom domVOTE fun s =>
    if ecc then s.laneUncorr l memory
    else if !s.isOn (domLANE l) && s.counted l then s.excludeLane l 2
    else s

/-- LANE_CEASED (R279): within one cycle of HOLD. -/
def execLaneCeased (t : Nat) (s : State) : Host.Outcome State Fault Refusal :=
  atTime t s fun s => s.inDom domVOTE fun s =>
    if s.mode = mdHOLD then
      let s1 := s.forN 3 fun s l => if s.lstate l = lOFF ∨ s.lstate l = lLOCKED then s
        else (s.setLane l { s.lane l with exclAt := some s.now, minor := [], switchK := none, copied := false }).put
          (F.LANE_STAT_STATE l) lEXCLUDED
      let s2 := ((s1.put F.LANE_STATUS_MODE mdCEASED).showLanes).event Ev.LANE_CEASED noInst []
      s2.setLanes fun x => { x with ceasedAt := s2.now, restart := none }
    else s

/-! ### Comparison (R275–R278) -/

/-- R275: the lanes of a report that are counted. -/
def State.inMinority (s : State) (dis : List LaneDis) (l : Nat) : Bool :=
  s.counted l && dis.any fun d => bit d.lanes.val l

/-- R276: one minority cycle of a lane. -/
def State.noteMinority (s : State) (dis : List LaneDis) (l : Nat) : State :=
  let x := s.lane l
  let d := dis.find? fun d => bit d.lanes.val l
  let v := (d.map (·.voter.val)).getD 0
  let w := (d.map (·.word)).getD 0
  let due := s.quiet x.minorAt uS
  let s1 := s.setLane l { x with minor := pushN 8 s.link.cycle x.minor, minorAt := if due then some s.now else x.minorAt }
  (s1.count (F.VOTE_CNT_MIN_COUNT l) 1).eventIf due Ev.LANE_MINORITY noInst [.w l, .w v, .w w]

/-- R283: a lane is in its first 64 cycles of PROBATION. -/
def State.onProbation (s : State) (l : Nat) : Bool := s.lstate l == lPROBATION && decide ((s.lane l).passes ≤ 64)

/-- R276, R283: a lane meets its condition of exclusion: in PROBATION at once, else at the second minority within 8
cycles. -/
def State.mustGo (s : State) (l : Nat) : Bool :=
  let x := s.lane l
  s.onProbation l || match x.minor with
    | _ :: k :: _ => decide (s.link.cycle < k + 8)
    | _ => false

/-- VOTE_LAST: the last word reported. -/
def State.voteLast (s : State) (d : LaneDis) : State :=
  ((s.put F.VOTE_LAST_VOTER d.voter.val).put F.VOTE_LAST_LANES d.lanes.val).put F.VOTE_LAST_WORD d.word

/-- R276, R278: the comparison of a cycle's words among the counted lanes; in DUPLEX the first word on which they
disagree is the last one. -/
def State.judgeLanes (s : State) (dis : List LaneDis) : State :=
  let hit := (List.range 3).filter (s.inMinority dis)
  match dis.filter fun d => (List.range 3).any fun l => s.counted l && bit d.lanes.val l with
  | [] => s
  | d :: rest =>
    if s.mode = mdDUPLEX then
      ((s.voteLast d).event Ev.LANE_DUPLEX_MISCOMPARE noInst [.w d.voter.val, .w d.word, .d d.values.1.toNat, .d d.values.2.toNat]).enterHold
    else
      let s0 := s.voteLast (rest.getLast?.getD d)
      let split := dis.any fun d => decide (2 ≤ ((List.range 3).filter fun l => s.counted l && bit d.lanes.val l).length)
      if split then s0.enterHold
      else
        let s1 := hit.foldl (fun s l => s.noteMinority dis l) s0
        match hit.filter s1.mustGo with
        | [] => s1
        | [l] =>
          if s1.onProbation l then s1.rejoinFail l 4 else s1.excludeLane l 0
        | _ => s1.enterHold

/-- R275: the voted state signature of a pass; its function is not stated, so its value is free. -/
def State.signPass (s : State) : State := (s.put64 R.LANE_SIG_LO R.LANE_SIG_HI s.freeVal).freeStep

/-- R283: at the input freeze after its switch cycle the lane enters PROBATION; passes in PROBATION are counted. -/
def State.laneFreeze (s : State) : State :=
  s.forN 3 fun s l =>
    let x := s.lane l
    match x.switchK with
    | some k =>
      if k < s.link.cycle ∧ s.lstate l = lCOPYING then
        let s1 := s.setLane l { x with switchK := none, copied := false, passes := 1, minor := [] }
        let s2 := (((s1.put (F.LANE_STAT_STATE l) lPROBATION).count (F.LANE_STAT_REJOINS l) 1).put
          F.LANE_STATUS_MODE mdTRIPLEX).showLanes
        s2.event Ev.LANE_REJOINED noInst [.w l, .w (s.since (x.exclAt.getD s.now) / uMs)]
      else s
    | none => if s.lstate l = lPROBATION then s.setLane l { x with passes := x.passes + 1 } else s

/-! ### Rejoin (R281–R284) -/

/-- R282: a rejoin begins. -/
def State.startRejoin (s : State) (l : Nat) : State :=
  let x := s.lane l
  let s1 := s.setLane l { x with stepAt := s.now, failAt := none, dirty := 0, copied := false, switchK := none }
  ((s1.put (F.LANE_STAT_STATE l) lSELFTEST).put (F.LANE_COPY_ROUNDS l) 0).event Ev.LANE_REJOIN_START noInst [.w l]

/-- R282: a rejoin is possible: two donors, and the lane's domain on. -/
def State.canRejoin (s : State) (l : Nat) : Bool := s.mode == mdDUPLEX && s.isOn (domLANE l)

/-- LANE_REJOIN_START (R282): 1 ms after exclusion, or 1 s after a failed rejoin. -/
def execLaneRejoinStart (t : Nat) (l : LaneIx) (s : State) : Host.Outcome State Fault Refusal :=
  atTime t s fun s => s.inDom domVOTE fun s =>
    let x := s.lane l
    let due := match x.failAt with
      | some f => decide (f + uS ≤ s.now)
      | none => match x.exclAt with
        | some e => decide (e + uMs ≤ s.now)
        | none => false
    if s.flag F.LANE_CFG_AUTO_REJOIN && s.lstate l == lEXCLUDED && s.canRejoin l && due then s.startRejoin l else s

/-- R282: a step has gone beyond its limit. -/
def State.stepLate (s : State) (l : Nat) : Option Nat :=
  let u := s.since (s.lane l).stepAt
  if s.lstate l = lSELFTEST ∧ 20 * uMs < u then some 1
  else if s.lstate l = lLOADING ∧ 5 * uMs < u then some 2
  else none

/-- LANE_SELFTEST_DONE (R282). -/
def execLaneSelftestDone (t : Nat) (l : LaneIx) (pass : Bool) (s : State) : Host.Outcome State Fault Refusal :=
  atTime t s fun s => s.inDom domVOTE fun s =>
    if s.lstate l ≠ lSELFTEST ∨ s.lanes.restart.isSome then s
    else if !pass ∨ (s.stepLate l).isSome then s.rejoinFail l 1
    else (s.setLane l { s.lane l with stepAt := s.now }).put (F.LANE_STAT_STATE l) lLOADING

/-- LANE_LOAD_DONE (R282): the configuration is loaded from the mirror; the size of the dynamic state is the lane's. -/
def execLaneLoadDone (t : Nat) (l : LaneIx) (s : State) : Host.Outcome State Fault Refusal :=
  atTime t s fun s => s.inDom domVOTE fun s =>
    if s.lstate l ≠ lLOADING ∨ s.lanes.restart.isSome then s
    else if (s.stepLate l).isSome then s.rejoinFail l 2
    else
      let s1 := (s.setLane l { s.lane l with stepAt := s.now }).put (F.LANE_STAT_STATE l) lCOPYING
      (s1.put (F.LANE_COPY_TOTAL l) (s1.freeVal % 1537)).freeStep

/-- R283: the switch limit, bytes. -/
def State.swLim (s : State) : Nat := 32 * (s.period - 500)

/-- LANE_COPY_ROUND (R282): a round of the background copy, with the dirty set it leaves in bytes; `differ` says that
the donors differed on a block. Copying pauses in a suspension (R294). -/
def execLaneCopyRound (t : Nat) (l : LaneIx) (dirty : Nat) (differ : Bool) (s : State) : Host.Outcome State Fault Refusal :=
  atTime t s fun s => s.inDom domVOTE fun s =>
    if s.lstate l ≠ lCOPYING ∨ s.clk.suspendAt.isSome ∨ (s.lane l).switchK.isSome then s
    else if differ then
      ((s.event Ev.LANE_DUPLEX_MISCOMPARE noInst [.w 2, .w 0]).setLane l { s.lane l with copied := false }).enterHold
    else
      let s1 := s.setLane l { s.lane l with dirty := dirty, copied := true }
      let s2 := (s1.count (F.LANE_COPY_ROUNDS l) 1).putSat (F.LANE_COPY_DIRTY l) (dirty / 1024)
      if 64 ≤ s2.get (F.LANE_COPY_ROUNDS l) ∧ s2.swLim < dirty then s2.rejoinFail l 3 else s2

/-- LANE_SWITCH (R283): at the first input freeze at which the dirty set is within SW_LIM; no switch begins in a
suspension. -/
def execLaneSwitch (t : Nat) (l : LaneIx) (s : State) : Host.Outcome State Fault Refusal :=
  atTime t s fun s => s.inDom domVOTE fun s =>
    let x := s.lane l
    if s.lstate l = lCOPYING ∧ x.copied = true ∧ x.dirty ≤ s.swLim ∧ s.clk.suspendAt.isNone ∧ x.switchK.isNone ∧
        s.link.frozen = true ∧ s.mode = mdDUPLEX then
      s.setLane l { x with switchK := some s.link.cycle }
    else s

/-- LANE_IN_SERVICE (R283): after 64 cycles of PROBATION. -/
def execLaneInService (t : Nat) (l : LaneIx) (s : State) : Host.Outcome State Fault Refusal :=
  atTime t s fun s => s.inDom domVOTE fun s =>
    if s.lstate l = lPROBATION ∧ 64 ≤ (s.lane l).passes then s.put (F.LANE_STAT_STATE l) lINSERVICE else s

/-- LANE_REJOIN_FAIL (R282): a step exceeds its limit. -/
def execLaneRejoinFail (t : Nat) (l : LaneIx) (s : State) : Host.Outcome State Fault Refusal :=
  atTime t s fun s => s.inDom domVOTE fun s =>
    match s.stepLate l with
    | some step => if s.lanes.restart.isSome then s else s.rejoinFail l step
    | none => s

/-! ### Restart (R280) -/

/-- R280: all dynamic state of the lanes at 0. -/
def State.laneZero (s : State) : State :=
  let entries := ((s.listed (R.CE_SEC_S1_LO 0).id ++ s.listed (R.CE_SEC_S1_HI 0).id ++ s.listed (R.CE_SEC_S2_LO 0).id ++
    s.listed (R.CE_SEC_S2_HI 0).id ++ s.listed (R.CE_SEC_FLAG 0).id).map (·.i)).eraseDups
  let s1 := entries.foldl State.ceReset s
  let sigs := ((s1.listed (R.CE_SIG 0).id).map (·.i)).filter fun n => s1.sigOwner n != 3
  let s2 := sigs.foldl (fun s n => s.setSig n 0) s1
  let s3 := ((s2.setEng fun _ => {}).setGrid fun _ => {}).setMppt fun _ => { loadAt := s.mtUnits }
  let s4 := s3.forN 9 State.gridLoad
  let s5 := (s4.listed (R.MPPT_CELL_STAT 0).id).foldl (fun s r => s.mpptLoad r.i) s4
  (s5.forN 8 fun s c => s.forN 3 fun s ph =>
    if s.flag (F.MPPT_PH_CAP_DARK c ph) then s.put (F.MPPT_PH_CAP_DARK c ph) 0 else s).frtLoad

/-- R280: a restart begins with the self-test of all three lanes; a LOCKED lane stays so (R284). -/
def State.startRestart (s : State) : State :=
  let s1 := s.forN 3 fun s l => if s.isOn (domLANE l) && s.lstate l != lLOCKED then
    (s.setLane l { s.lane l with stepAt := s.now }).put (F.LANE_STAT_STATE l) lSELFTEST else s
  s1.setLanes fun x => { x with restart := some s1.now }

/-- LANE_AUTO_RESTART (R280): 1 s after CEASED. -/
def execLaneAutoRestart (t : Nat) (s : State) : Host.Outcome State Fault Refusal :=
  atTime t s fun s => s.inDom domVOTE fun s =>
    if s.mode = mdCEASED ∧ s.flag F.LANE_CFG_AUTO_RESTART ∧ s.lanes.restart.isNone ∧ s.lanes.ceasedAt + uS ≤ s.now then
      s.startRestart
    else s

/-- R280: the lanes that pass are loaded and counted. -/
def State.restartDone (s : State) (pass : Nat) : State :=
  let ok := (List.range 3).filter fun l => s.lstate l == lSELFTEST && bit pass l
  let s0 := s.setLanes fun x => { x with restart := none }
  let s1 := s0.forN 3 fun s l => if s.lstate l = lSELFTEST then
    s.put (F.LANE_STAT_STATE l) (if ok.contains l && decide (2 ≤ ok.length) then lINSERVICE else lEXCLUDED) else s
  let s2 := if 2 ≤ ok.length then
      (s1.laneZero.put F.LANE_STATUS_MODE (if ok.length = 3 then mdTRIPLEX else mdDUPLEX)).legResume
    else s1
  s2.showLanes.event Ev.LANE_RESTART noInst [.w ((ok.map fun l => 2 ^ l).foldl (· + ·) 0)]

/-- LANE_RESTART_DONE (R280): the self-tests have ended; bit l of `pass` says that lane l passed. -/
def execLaneRestartDone (t : Nat) (pass : Fin 8) (s : State) : Host.Outcome State Fault Refusal :=
  atTime t s fun s => s.inDom domVOTE fun s =>
    if s.lanes.restart.isSome ∧ s.mode = mdCEASED then s.restartDone pass.val else s

/-! ### LANE_CMD (R277, R280, R282, R284, R294) -/

/-- R294: whether a command's state is refused; levels beyond RWL's Engineer. Of LANE 3, which is BAD_VALUE, only what no
lane decides is asked. -/
def State.laneRefuse (s : State) (n l cmd : Nat) : Status :=
  match cmd with
  | 1 => (s.needLevel n 2).worst (if (l = 3 ∨ s.counted l) ∧ s.mode = mdTRIPLEX then .ok else .stateMismatch)
  | 2 =>
    if l = 3 then .ok
    else if s.lstate l = lLOCKED then (s.needLevel n 2).worst (if s.canRejoin l then .ok else .stateMismatch)
    else if s.lstate l = lEXCLUDED ∧ s.canRejoin l then .ok
    else .stateMismatch
  | 3 => if s.mode = mdCEASED ∧ s.lanes.restart.isNone then .ok else .stateMismatch
  | _ => .ok

/-- R294: a write of LANE_CMD. -/
def State.laneCmd (s : State) (n : Nat) (value mask : Word) : Status × State :=
  let w := masked (s.word R.LANE_CMD) value mask
  let l := fieldOf w 0 2
  let cmd := fieldOf w 2 2
  s.writeIf n R.LANE_CMD value mask (s.laneRefuse n l cmd) fun s =>
    match cmd with
    | 1 => s.excludeLane l 4
    | 2 => (s.setLane l { s.lane l with locked := false }).startRejoin l
    | 3 => s.startRestart
    | _ => s

def State.laneCmdBy (s : State) (n l cmd : Nat) : State :=
  s.access n domVOTE fun s => s.laneCmd n (BitVec.ofNat 32 (l % 4 + cmd % 4 * 4)) 0xFFFFFFFF

/-- LANE_CMD_NONE (R294). -/
def execLaneCmdNone (t : Nat) (n : SessIx) (l : Fin 4) (s : State) : Host.Outcome State Fault Refusal :=
  atTime t s fun s => s.laneCmdBy n l 0

/-- LANE_EXCLUDE (R277). -/
def execLaneExclude (t : Nat) (n : SessIx) (l : Fin 4) (s : State) : Host.Outcome State Fault Refusal :=
  atTime t s fun s => s.laneCmdBy n l 1

/-- LANE_REJOIN (R282). -/
def execLaneRejoin (t : Nat) (n : SessIx) (l : Fin 4) (s : State) : Host.Outcome State Fault Refusal :=
  atTime t s fun s => s.laneCmdBy n l 2

/-- LANE_RESTART (R280). -/
def execLaneRestart (t : Nat) (n : SessIx) (l : Fin 4) (s : State) : Host.Outcome State Fault Refusal :=
  atTime t s fun s => s.laneCmdBy n l 3

/-! ### Voters and merge stages (R286, R287) -/

/-- R289: the longest interruption seen, 10 ns, with its cause. -/
def State.noteIntr (s : State) (u cause : Nat) : State :=
  let v := satN (2 ^ 20 - 1) (u / 80)
  if s.get F.LANE_INTR_MAX_NS < v then (s.put F.LANE_INTR_MAX_NS v).put F.LANE_INTR_CAUSE cause else s

/-- VOTER_FAULT (R286): 0 VA, 1 VB, 2 VL1, 3 VL2 goes silent. A leg's interruption by a takeover of VL is at most one
cycle; its length is free. -/
def execVoterFault (t : Nat) (v : Fin 4) (s : State) : Host.Outcome State Fault Refusal :=
  atTime t s fun s => s.inDom domVOTE fun s =>
    let say (s : State) : State := s.event Ev.VOTER_FAULT noInst [.w (min v.val 2)]
    let f : Fld := match v.val with
      | 0 => F.VOTE_STATUS_VA_OK
      | 1 => F.VOTE_STATUS_VB_OK
      | 2 => F.VOTE_STATUS_VL1_OK
      | _ => F.VOTE_STATUS_VL2_OK
    if !s.flag f then s
    else
      let second := v.val == 3
      let s1 := say (s.put f 0)
      if v.val < 2 then s1 else
      let other := s1.flag (if second then F.VOTE_STATUS_VL1_OK else F.VOTE_STATUS_VL2_OK)
      if s1.flag F.VOTE_STATUS_VL_ACTIVE == second && other then
        let s2 := (s1.putB F.VOTE_STATUS_VL_ACTIVE (!second)).event Ev.VL_TAKEOVER noInst []
        (s2.noteIntr (s2.freeVal % (s2.periodU + 1)) 2).freeStep
      else s1

/-- MERGE_FAULT (R287). -/
def execMergeFault (t : Nat) (r : RingIx) (portB : Bool) (s : State) : Host.Outcome State Fault Refusal :=
  atTime t s fun s => s.inDom domVOTE fun s =>
    let f : Fld := ⟨R.VOTE_MERGE, (if portB then 8 else 0) + r.val, 1⟩
    if s.flag f then (s.put f 0).event Ev.MERGE_FAULT noInst [.w r.val, .w (b2n portB)] else s

/-! ### The end of a suspension (R288, R289) -/

/-- R289: the schedule launches that fell into [a, e], which are not sent or cut off. -/
def State.lostLaunches (s : State) (a e : Nat) : Nat :=
  let ts := ((List.range 8).map s.tSched).foldl max 0
  ((List.range 16).filter fun j =>
    let l := (e / s.periodU - j) * s.periodU + s.get F.RING_LAUNCH_LAUNCH * uClk
    decide (j ≤ e / s.periodU) && decide (l < e) && decide (a < l + ts)).length

/-- SUSPENSION_END (R288): the new root has held for 256 housekeeping cycles, or has left ±20 ps, which ends with no
MDLL locked (note to R38). -/
def execSuspensionEnd (t : Nat) (held : Bool) (s : State) : Host.Outcome State Fault Refusal :=
  atTime t s fun s => s.inDom domCLK fun s =>
    match s.clk.suspendAt with
    | none => s
    | some a =>
      if !held then (s.put F.CLK_STATUS_LOCK_P 0).put F.CLK_STATUS_LOCK_S 0
      else if s.now < a + 256 * 40 * uNs ∨ s.flag (s.lockBit true) = false then s
      else
        let s1 := s.setClk fun x => { x with suspendAt := none }
        let mt (u : Nat) : Nat := s.mtUnits - (s.now - u)
        let s2 := s1.noteIntr (s.lostLaunches (mt a) s.mtUnits * s.periodU) 1
        s2.event Ev.OUTPUT_SUSPEND noInst [.w ((s.now - a) / uNs)]

end Sys2Proof.Machine
end

