-- ==== Sys2Proof/Machine/Rec.lean ====
section
/-! DEFINITION. Carafe: staging, write units and segments, drives and pairs, captures, mount and the REC commands
(R315–R345). -/

namespace Sys2Proof.Machine

abbrev unitBytes : Nat := 262144
/-- R323: the data region of a segment. -/
abbrev dataBytes : Nat := 252 * 262144
/-- R328: continuous staging, bytes. -/
abbrev stageBytes : Nat := 3520 * 1048576
/-- R328: the write-buffer pool, in buffers of 256 KiB, and the export buffers, bytes. -/
abbrev poolUnits : Nat := 2048
abbrev exportBytes : Nat := 64 * 1048576
/-- R331: the capture ring, bytes. -/
abbrev ringBytes : Nat := 12 * 1073741824

abbrev dABSENT : Nat := 0
abbrev dINIT : Nat := 1
abbrev dONLINE : Nat := 2
abbrev dREBUILD : Nat := 3
abbrev dFAILED : Nat := 4
abbrev dUNRESP : Nat := 5
abbrev dREFUSED : Nat := 6
abbrev dBLANK : Nat := 7

def State.recUp (s : State) : Bool := s.works domREC
def State.recState (s : State) : Nat := s.get F.REC_STATUS_STATE
def State.drvState (s : State) (d : Nat) : Nat := s.get (F.REC_DRV_STAT_STATE d)
def State.pairState (s : State) (p : Nat) : Nat := s.get (F.REC_PAIR_STAT_STATE p)
def State.cdrive (s : State) (d : Nat) : CDrive := s.carafe.drive.get d
def State.setCdrive (s : State) (d : Nat) (x : CDrive) : State := s.setRec fun c => { c with drive := c.drive.set d x }

/-! ### The bytes of a log entry (R471) -/

/-- R471: a data item, little-endian. -/
def DItem.bytes : DItem → List Byte
  | .w v => leBytes 4 (codeOf 32 v)
  | .d v => leBytes 8 v

/-- R471: an entry's 64 bytes. -/
def LogEntry.bytes (e : LogEntry) : List Byte :=
  let data := e.data.flatMap DItem.bytes
  let b := leBytes 8 e.seq ++ leBytes 8 e.time ++ leBytes 2 e.code ++ leBytes 1 e.dom ++ leBytes 1 e.flags ++
    leBytes 2 e.inst ++ leBytes 1 data.length ++ leBytes 1 0 ++ data ++ List.replicate (36 - data.length) 0
  b ++ leBytes 4 (crc32c b)

/-- R269: an interval record's payload. The spec names what it holds; its layout is the model's. -/
def IntRec.bytes (r : IntRec) : List Byte :=
  leBytes 8 r.seq ++ leBytes 1 r.point ++ leBytes 3 0 ++ leBytes 4 r.flags ++ leBytes 4 r.voidMs ++ leBytes 4 r.lostMs ++
  (r.delta.flatMap fun v => leBytes 8 (v / 2 ^ 20)) ++ (r.total.flatMap (leBytes 8))

/-- R344: the fetches in progress. -/
def State.exports (s : State) : Nat := ((List.range 8).filter fun n => (s.sess n).fetch.isSome).length

/-! ### Pairs (R319–R321) -/

/-- R319: the drives of a pair. -/
def State.pairDrives (s : State) (p : Nat) : List Nat :=
  let b := s.carafe.x4Ports
  let ok (d : Nat) : Bool := !((d == 1 && bit b 0) || (d == 3 && bit b 1))
  (if s.carafe.layout = 0 then (if p < 2 then [p, p + 2] else []) else [p]).filter ok

def State.pairOf (s : State) (d : Nat) : Nat := if s.carafe.layout = 0 then d % 2 else d

/-- R329: the current members of a pair: those to which every write goes. -/
def State.members (s : State) (p : Nat) : List Nat :=
  (s.pairDrives p).filter fun d => s.drvState d == dONLINE || s.drvState d == dREBUILD

/-- R330: pairs that take writes. -/
def State.writable (s : State) (p : Nat) : Bool := s.pairState p == 1 || s.pairState p == 2 || s.pairState p == 3

/-- REC_STATUS.STATE and REC_HEALTH follow the pairs while the store is mounted (R330). -/
def State.showRec (s : State) : State :=
  let st := s.recState
  let some_ := (List.range 4).any s.writable
  let s1 := if st = 2 ∨ st = 3 then s.put F.REC_STATUS_STATE (if some_ then 2 else 3) else s
  let serv := (List.range 4).filter fun p => s1.pairState p != 0
  (s1.putB F.REC_HEALTH_RECORDING (s1.recState == 2)).putB F.REC_HEALTH_MIRRORED
    (!serv.isEmpty && serv.all fun p => s1.pairState p == 1)

/-- R320: a pair's state follows its members. -/
def State.showPair (s : State) (p : Nat) : State :=
  let ds := s.pairDrives p
  let onl := (ds.filter fun d => s.drvState d == dONLINE).length
  let reb := (ds.filter fun d => s.drvState d == dREBUILD).length
  let old := s.pairState p
  let new := if onl = 2 then 1 else if onl = 1 then (if reb = 1 then 3 else 2) else if (s.carafe.pair.get p).held then 4 else 0
  let s1 := (s.put (F.REC_PAIR_STAT_STATE p) new).eventIf (old != new) Ev.REC_PAIR_STATE noInst [.w p, .w old, .w new]
  let s2 := if onl = 0 then s1 else s1.setRec fun c => { c with pair := c.pair.set p { c.pair.get p with held := true } }
  (s2.setRec fun c => { c with ckptDue := c.ckptDue || old != new }).showRec

/-- R320: a drive's state changes. -/
def State.setDrive (s : State) (d new cause : Nat) : State :=
  let old := s.drvState d
  let s1 := (s.put (F.REC_DRV_STAT_STATE d) new).put (F.REC_DRV_STAT_CAUSE d) cause
  let s2 := s1.eventIf (old != new) Ev.REC_DRIVE_STATE noInst [.w d, .w old, .w new, .w cause]
  let s3 := if new = dFAILED ∨ new = dUNRESP ∨ new = dREFUSED then s2.put F.REC_HEALTH_DRIVE_FAULT 1 else s2
  s3.showPair (s3.pairOf d)

/-! ### Commands (R315, R318, R291) -/

/-- Outstanding commands of a drive, for REC_DRV_FLIGHT. -/
def State.flight (s : State) (d : Nat) : State :=
  let n := (s.carafe.cmds.filter fun c => c.drive == d).length
  (s.putSat (F.REC_DRV_FLIGHT_NOW d) n).putSat (F.REC_DRV_FLIGHT_MAX d) (max n (s.get (F.REC_DRV_FLIGHT_MAX d)))

/-- R315, R318: the I/O commands the host uses. -/
inductive NvmeIo where
  | read
  | write (fua : Bool)
  | flush
  deriving DecidableEq, Repr

/-- R318: the credit classes. -/
inductive Credit where
  | meta_
  | read
  | write
  deriving DecidableEq, Repr

/-- R318: the command slots of a class per drive. -/
def Credit.slots : Credit → Nat
  | .meta_ => 8
  | .read => 24
  | .write => 224

/-- R315, R322, R325: the command that a use takes: index and superblock with FUA. -/
def CUse.io : CUse → NvmeIo
  | .data _ | .rebuild _ _ => .write false
  | .index _ | .super => .write true
  | .flush _ => .flush
  | .copyRead _ _ => .read

/-- R318: its class. -/
def CUse.credit : CUse → Credit
  | .data _ | .rebuild _ _ => .write
  | .index _ | .super | .flush _ => .meta_
  | .copyRead _ _ => .read

/-- R318: the slots of a class in use at a drive. -/
def State.credits (s : State) (d : Nat) (k : Credit) : Nat := (s.carafe.cmds.filter fun c => c.drive == d && c.use.credit == k).length

/-- R291, R318: a command is submitted to a drive with its lease of 50 ms of module time (R294); with no credit of its
class left it waits. -/
def State.submit (s : State) (d : Nat) (use : CUse) (retried : Bool) : State :=
  if s.credits d use.credit < use.credit.slots then
    (s.setRec fun c => { c with nextId := c.nextId + 1,
                                cmds := c.cmds ++ [{ id := c.nextId, drive := d, use := use, due := s.mtUnits + 50 * uMs,
                                                     retried := retried, abort := none }] }).flight d
  else s.setRec fun c => { c with waiting := c.waiting ++ [(d, use, retried)] }

/-- R318: the commands that wait for credits, tried again in their order. -/
def State.resubmit (s : State) : State :=
  s.carafe.waiting.foldl (fun s w => s.submit w.1 w.2.1 w.2.2) (s.setRec fun c => { c with waiting := [] })

def State.segOf (s : State) (id : Nat) : Option CSeg := s.carafe.segs.find? fun g => g.id == id
def State.setSeg (s : State) (g : CSeg) : State :=
  s.setRec fun c => { c with segs := c.segs.map fun x => if x.id = g.id then g else x }
def State.unitOf (s : State) (id : Nat) : Option CUnit := s.carafe.units.find? fun u => u.id == id
def State.setUnit (s : State) (u : CUnit) : State :=
  s.setRec fun c => { c with units := c.units.map fun x => if x.id = u.id then u else x }

/-- R334: write units are sent while credits and buffers last, continuous units first. -/
def State.pump (s : State) : State :=
  let wait := s.carafe.units.filter fun u => !u.sent
  ((wait.filter fun u => u.cap.isNone) ++ wait.filter fun u => u.cap.isSome).foldl (fun s u =>
    match s.segOf u.seg with
    | none => s
    | some g =>
      let ms := s.members g.pair
      let pool := (s.carafe.units.filter fun u => s.carafe.cmds.any fun c => c.use == .data u.id).length
      if s.recUp && !ms.isEmpty && decide (pool < poolUnits) && ms.all fun d => decide (s.credits d .write < Credit.write.slots) then
        ms.foldl (fun s d => s.submit d (.data u.id) false) (s.setUnit { u with sent := true })
      else s) s

/-! ### Segments and write units (R321–R328) -/

/-- R321: write units in flight on a pair. -/
def State.inFlight (s : State) (p : Nat) : Nat :=
  (s.carafe.units.filter fun u => !u.complete && match s.segOf u.seg with
    | some g => g.pair == p
    | none => false).length

/-- R321: the pair that takes a new segment: MIRRORED or SINGLE, with the fewest units in flight, pair order on a
tie. -/
def State.pickPair (s : State) : Option Nat :=
  ((List.range 4).filter fun p => s.pairState p == 1 || s.pairState p == 2).foldl (fun a p => match a with
    | none => some p
    | some q => if s.inFlight p < s.inFlight q then some p else some q) none

/-- R321: a pair opens its next segment; what it overwrites expires. -/
def State.openSeg (s : State) (p : Nat) (cap : Option Nat) : State :=
  let n := (s.carafe.pair.get p).next
  let oldest := n + 2 - s.carafe.nseg
  let g : CSeg := { id := s.carafe.nextId, pair := p, pseg := n, cap := cap, off := 64, phase := 0, openAt := s.mtNs,
                    index := [], flush := [] }
  let s1 := s.setRec fun c => { c with
    nextId := c.nextId + 1, segs := c.segs ++ [g], pair := c.pair.set p { c.pair.get p with next := n + 1 },
    stored := c.stored.filter fun r => !(r.pair == p && decide (r.pseg < oldest)) }
  (s1.put64 (R.REC_PAIR_HEAD_LO p) (R.REC_PAIR_HEAD_HI p) n).put64 (R.REC_PAIR_OLDEST_LO p) (R.REC_PAIR_OLDEST_HI p) oldest

/-- The open continuous segment. -/
def State.contSeg (s : State) : Option CSeg := s.carafe.segs.find? fun g => g.cap.isNone && g.phase == 0

/-- R328: the open write unit is issued. -/
def State.issueOpen (s : State) : State :=
  match s.carafe.opened with
  | none => s
  | some (seg, o) =>
    match s.segOf seg with
    | none => s.setRec fun c => { c with opened := none }
    | some g =>
      let u : CUnit := { id := o.id, seg := seg, bytes := g.off - o.start, streams := o.streams, cap := none, sent := false,
                         done := [], complete := false }
      (s.setRec fun c => { c with opened := none, units := c.units ++ [u] }).pump

/-- R325: the index of a full segment is written once its data units are complete. -/
def State.closeReady (s : State) (g : CSeg) : State :=
  if g.phase = 1 ∧ (s.carafe.units.all fun u => u.seg != g.id || u.complete) then
    (s.members g.pair).foldl (fun s d => s.submit d (.index g.id) false) (s.setSeg { g with phase := 2 })
  else s

/-- R325: a segment takes no more data. -/
def State.fillSeg (s : State) (id : Nat) : State :=
  let s1 := match s.carafe.opened with
    | some (seg, _) => if seg = id then s.issueOpen else s
    | none => s
  match s1.segOf id with
  | some g => if g.phase = 0 then (s1.setSeg { g with phase := 1 }).closeReady { g with phase := 1 } else s1
  | none => s1

/-- One write unit touched by a record: the rest of its bytes from an offset. -/
def State.packUnit (s : State) (seg : Nat) (r : CRec) (ends : Bool) : State × Nat :=
  match s.carafe.opened with
  | some (_, o) =>
    let o1 := { o with streams := (o.streams.filter fun e => e.1 != r.stream) ++
      [(r.stream, if ends then some (r.seq + r.count - 1) else ((o.streams.find? fun e => e.1 == r.stream).map (·.2)).getD none)] }
    (s.setRec fun c => { c with opened := some (seg, o1) }, o.id)
  | none =>
    let off := ((s.segOf seg).map (·.off)).getD 0
    let o : COpen := { id := s.carafe.nextId, start := off, firstAt := s.now,
                       streams := [(r.stream, if ends then some (r.seq + r.count - 1) else none)] }
    (s.setRec fun c => { c with opened := some (seg, o), nextId := c.nextId + 1 }, o.id)

/-- R328: `n` bytes of a record are packed into the open write unit and those after it; the units' numbers. -/
def State.packBytes : Nat → State → CSeg → CRec → Nat → List Nat → State × List Nat
  | 0, s, _, _, _, us => (s, us)
  | f + 1, s, g, r, n, us =>
    let room := unitBytes - g.off % unitBytes
    let here := min n room
    let (s1, u) := s.packUnit g.id r (n ≤ room)
    let g1 := { g with off := g.off + here }
    let s2 := s1.setSeg g1
    let s3 := if g1.off % unitBytes = 0 then s2.issueOpen else s2
    if n ≤ room then (s3, us ++ [u]) else State.packBytes f s3 g1 r (n - here) (us ++ [u])

/-- A staged record replaced. -/
def State.setStaged (s : State) (r : CRec) : State :=
  s.setRec fun c => { c with staged := c.staged.map fun x => if x.stream = r.stream ∧ x.seq = r.seq ∧ x.typ = r.typ then r else x }

/-- R328: an admitted record is packed; a record never spans two segments (R324). -/
def State.packRec (s : State) (r : CRec) : State :=
  let s1 := match s.contSeg with
    | some g => if dataBytes < g.off + r.size then s.fillSeg g.id else s
    | none => s
  let s2 := match s1.contSeg with
    | some _ => s1
    | none => match s1.pickPair with
      | some p => s1.openSeg p none
      | none => s1
  match s2.contSeg with
  | none => s2
  | some g =>
    let (s3, us) := State.packBytes 8 s2 g r r.size []
    s3.setStaged { r with units := us, pair := g.pair, pseg := g.pseg, pos := g.off / unitBytes }

/-- Records admitted and not yet packed, in order, while the store takes records. -/
def State.packAll (s : State) : State :=
  if s.recUp && s.recState == 2 then (s.carafe.staged.filter fun r => r.units.isEmpty).foldl State.packRec s else s

/-! ### Staging (R326, R327) -/

/-- R327: the watermark of a priority, %. -/
def State.watermark (s : State) (p : Nat) : Nat :=
  match p with
  | 0 => 100
  | 1 => s.get F.REC_STAGE_WM_WM1
  | 2 => s.get F.REC_STAGE_WM_WM2
  | _ => s.get F.REC_STAGE_WM_WM3

def State.strm (s : State) (m : Nat) : CStream := s.carafe.stream.get m
def State.setStrm (s : State) (m : Nat) (x : CStream) : State := s.setRec fun c => { c with stream := c.stream.set m x }

/-- The occupancy in whole %, with its peak. -/
def State.showStage (s : State) : State :=
  let pct := s.carafe.used * 100 / stageBytes
  ((s.putSat F.REC_STATUS_STAGE_PCT pct).putSat F.REC_STATUS_PEAK_PCT (max pct (s.get F.REC_STATUS_PEAK_PCT))).putB
    F.REC_HEALTH_STAGE_HIGH (decide (s.get F.REC_STAGE_WM_WM3 * stageBytes < s.carafe.used * 100))

/-- R327: whether `n` more bytes stay at or below a watermark. -/
def State.fitsStage (s : State) (n wm : Nat) : Bool := decide ((s.carafe.used + n) * 100 ≤ wm * stageBytes)

/-- A record enters staging. -/
def State.stageRec (s : State) (r : CRec) : State :=
  (s.setRec fun c => { c with used := c.used + r.size, staged := c.staged ++ [r] }).showStage

/-- R327: a record is dropped into its stream's pending gap. -/
def State.dropRec (s : State) (m seq time cause : Nat) : State :=
  let x := s.strm m
  let p := match x.pend with
    | some (q, n, t0, _, c) => (q, n + 1, t0, time, c)
    | none => (seq, 1, time, time, cause)
  let s1 := s.setStrm m { x with pend := some p }
  (s1.putSat (F.REC_STRM_DROP_PENDING m) p.2.1).count (F.REC_STRM_DROP_TOTAL m) 1

/-- R327: the GAP record of a pending gap, admitted at priority 0. -/
def State.admitGap (s : State) (m : Nat) : State × Bool :=
  let x := s.strm m
  match x.pend with
  | none => (s, true)
  | some (q, n, t0, t1, cause) =>
    let pay := leBytes 1 cause ++ List.replicate 7 0 ++ leBytes 8 t0 ++ leBytes 8 t1
    let r : CRec := { stream := m, typ := 1, flags := 0, seq := q, time := t0, count := n, payload := pay, units := [],
                      pair := 0, pseg := 0 }
    if !s.fitsStage r.size 100 then (s, false)
    else
      let due := s.quiet x.gapAt uS
      let s1 := (s.setStrm m { x with pend := none, gapAt := if due then some s.now else x.gapAt }).stageRec r
      let s2 := (s1.put (F.REC_STRM_DROP_PENDING m) 0).put F.REC_HEALTH_GAP 1
      (s2.eventIf due Ev.REC_GAP noInst [.w m, .w n, .w cause], true)

/-- RATE: the bytes of the last whole second of module time, 10 kB/s. -/
def State.noteRate (s : State) (m bytes : Nat) : State :=
  let x := s.strm m
  let sec := s.mtUnits / uS
  if x.sec = sec then s.setStrm m { x with bytes := x.bytes + bytes }
  else (s.setStrm m { x with sec := sec, bytes := bytes }).putSat (F.REC_STRM_DEC_RATE m)
    (if x.sec + 1 = sec then x.bytes / 10000 else 0)

/-- R327: a record is offered to staging. -/
def State.offerRec (s : State) (m time flags : Nat) (payload : List Byte) : State :=
  let seq := s.get64 (R.REC_STRM_SEQ_LO m) (R.REC_STRM_SEQ_HI m)
  let s0 := s.put64 (R.REC_STRM_SEQ_LO m) (R.REC_STRM_SEQ_HI m) (seq + 1)
  if !s0.works domDRAM then s0.dropRec m seq time 3
  else
    let r : CRec := { stream := m, typ := 0, flags := flags, seq := seq, time := time, count := 1, payload := payload,
                      units := [], pair := 0, pseg := 0 }
    let (s1, clear) := s0.admitGap m
    if clear && s1.fitsStage r.size (s1.watermark (s1.strmPrio m)) then ((s1.stageRec r).noteRate m r.size).packAll
    else s1.dropRec m seq time 1

/-- REC_RECORD_ADMIT (R327): the next record formed for a stream is offered to staging: a log entry for stream 0, an
interval record for stream 1, the oldest of R326 for the others; stream 2 is fed by the captures. The command names the
record by its TIME and payload. -/
def execRecRecordAdmit (t : Nat) (m : Fin 64) (time : Nat) (payload : List Byte) (s : State) :
    Host.Outcome State Fault Refusal :=
  atTime t s fun s =>
    let named (a : Nat) (b : List Byte) : Bool := a == time && b == payload
    match m.val with
    | 0 => match s.log.offered with
      | e :: l =>
        if named e.time e.bytes then (s.setLog fun x => { x with offered := l }).offerRec 0 e.time (e.flags % 4) e.bytes else s
      | [] => s
    | 1 => match s.mtr.offered with
      | r :: l =>
        if named r.time r.bytes then (s.setMtr fun x => { x with offered := l }).offerRec 1 r.time s.recFlags r.bytes else s
      | [] => s
    | 2 => s
    | k => match s.carafe.offered.find? fun o => o.stream == k with
      | some o =>
        if named o.time o.payload then
          (s.setRec fun c => { c with offered := c.offered.erase o }).offerRec k o.time o.flags o.payload
        else s
      | none => s

/-- R328: the open write unit of a segment is issued, and the segment goes on at the next 4 KiB. -/
def State.flushOpen (s : State) (seg : Nat) : State :=
  let s1 := s.issueOpen
  match s1.segOf seg with
  | some g => s1.setSeg { g with off := (g.off + 4095) / 4096 * 4096 }
  | none => s1

/-- REC_FLUSH_TIMER (R328): the filled blocks of the open unit are issued; the next record begins at the next block. -/
def execRecFlushTimer (t : Nat) (s : State) : Host.Outcome State Fault Refusal :=
  atTime t s fun s => s.inDom domREC fun s =>
    match s.carafe.opened with
    | some (seg, o) =>
      if o.firstAt + s.get F.REC_CFG_FLUSH_MS * uMs ≤ s.now then s.flushOpen seg else s
    | none => s

/-! ### Durability (R329) -/

/-- R329: a record is durable when every write unit holding its bytes is complete. -/
def State.durable (s : State) (r : CRec) : Bool :=
  !r.units.isEmpty && r.units.all fun u => match s.unitOf u with
    | some x => x.complete
    | none => true

/-- R329: the frontiers advance over the units of each stream in issue order. -/
def State.advanceFront (s : State) : State :=
  (List.range 64).foldl (fun s m =>
    let us := s.carafe.units.filter fun u => u.streams.any fun e => e.1 == m
    let rec go : List CUnit → Option Nat → Option Nat
      | [], a => a
      | u :: l, a => if u.complete then
          go l (((u.streams.find? fun e => e.1 == m).map (·.2)).getD none |>.or a) else a
    match go us none with
    | some f => s.put64 (R.REC_STRM_FRONT_LO m) (R.REC_STRM_FRONT_HI m)
        (max f (s.get64 (R.REC_STRM_FRONT_LO m) (R.REC_STRM_FRONT_HI m)))
    | none => s) s

/-- R328: durable records leave staging. -/
def State.release (s : State) : State :=
  let out := s.carafe.staged.filter s.durable
  (s.setRec fun c => { c with
    staged := c.staged.filter fun r => !s.durable r, stored := c.stored ++ out,
    used := c.used - (out.map CRec.size).foldl (· + ·) 0 }).showStage

/-- Units complete and followed only by complete ones of their streams are forgotten with their segments closed. -/
def State.forget (s : State) : State :=
  let open_ (m : Nat) : Bool := s.carafe.units.any fun u => !u.complete && u.streams.any fun e => e.1 == m
  s.setRec fun c => { c with units := c.units.filter fun u => !u.complete || u.streams.any fun e => open_ e.1 }

/-! ### Captures (R331–R333) -/

/-- R331: a record of the capture ring. -/
def State.capRec (s : State) (stream : Nat) (payload : List Byte) : CRec :=
  { stream := stream, typ := 0, flags := s.recFlags, seq := s.link.cycle, time := s.tK / 8, count := 1, payload := payload,
    units := [], pair := 0, pseg := 0 }

/-- R331: a position's slot as the ring records it. -/
def State.capSlot (s : State) (k : Nat) : List Byte :=
  if s.slotAt k 0 || s.slotServes k then s.slotBytes k else List.replicate 32 0

/-- R331: what one cycle writes into the ring: every running ring, with no cells too, the signals chosen, the SV frames
accepted. -/
def State.capCycle (s : State) : List CRec :=
  let ring (n : Nat) : CRec := s.capRec (0x100 + n) (decHead n (s.nCells n) s.link.cycle ++
    (List.range (s.nCells n)).flatMap fun p => s.capSlot (128 * n + p))
  let n := s.get F.REC_CAP_SIG_COUNT
  let sigs := (List.range n).flatMap fun i => leBytes 2 (codeOf 16 (s.sig (s.get F.REC_CAP_SIG_FIRST + i)))
  ((List.range 8).filter s.ringRuns).map ring ++ (if n = 0 then [] else [s.capRec 0x110 sigs]) ++
    s.carafe.svIn.map fun x => s.capRec 0x111 x.2

/-- The bytes of some records, and of the cycles of a capture. -/
def recBytes (l : List CRec) : Nat := (l.map CRec.size).foldl (· + ·) 0
def cycleBytes (l : List (Nat × List CRec)) : Nat := (l.map fun e => recBytes e.2).foldl (· + ·) 0

/-- R331: the oldest cycle in the ring; the present one when it is empty. -/
def State.ringFrom (s : State) : Nat := (s.carafe.ring.head?.map (·.1)).getD s.link.cycle

/-- R332: a cycle is pinned: it lies in a capture and its data are not all complete. -/
def State.pinnedK (s : State) (k : Nat) : Bool :=
  s.carafe.caps.any fun c => decide (c.start ≤ k) && decide (k < c.end_) &&
    decide (c.done < cycleBytes (c.data.filter fun e => decide (e.1 ≤ k)))

/-- R333: room for `n` bytes: the oldest cycles give way until a pinned one is reached. -/
def State.ringRoom (s : State) (n : Nat) : List (Nat × List CRec) → Nat → Option (List (Nat × List CRec) × Nat)
  | [], used => if used + n ≤ ringBytes then some ([], used) else none
  | e :: l, used =>
    if used + n ≤ ringBytes then some (e :: l, used)
    else if s.pinnedK e.1 then none
    else s.ringRoom n l (used - recBytes e.2)

/-- The cycles of tenths of a second. -/
def State.tenths (s : State) (n : Nat) : Nat := n * (uS / 10) / s.periodU

/-- R332: data of the captures still pinned. -/
def State.pinned (s : State) : Nat := (s.carafe.caps.map fun c => c.total - c.done).foldl (· + ·) 0

def State.showCap (s : State) : State :=
  let k := s.link.cycle
  let act := s.carafe.caps.any fun c => !c.ended
  let hist := (k - max s.ringFrom (s.carafe.caps.foldl (fun a c => max a c.start) 0)) * s.periodU / (10 * uMs)
  ((((s.putB F.REC_CAP_STAT_ACTIVE act).putB F.REC_CAP_STAT_BLOCKED s.carafe.blocked.isSome).putSat
    F.REC_CAP_STAT_PENDING s.carafe.caps.length).putSat F.REC_CAP_STAT_PINNED (s.pinned / 1048576)).putSat
    F.REC_CAP_STAT_HIST hist

def State.setCap (s : State) (x : CCap) : State :=
  s.setRec fun c => { c with caps := c.caps.map fun y => if y.id = x.id then x else y }

/-- R332: the drain issues pinned data of a capture, oldest first, alternating between pairs. -/
def State.drainCap : Nat → State → Nat → State
  | 0, s, _ => s
  | f + 1, s, id =>
    match s.carafe.caps.find? fun c => c.id == id with
    | none => s
    | some c =>
      let left := c.total - c.issued
      let busy := (s.carafe.units.filter fun u => !u.sent).length
      if !s.recUp || s.recState != 2 || left = 0 || (left < unitBytes && !c.ended) || decide (2 ≤ busy) then s
      else
        let pairs := (List.range 4).filter fun p => s.pairState p == 1 || s.pairState p == 2
        let s1 : State := match c.seg with
          | some _ => s
          | none =>
            match pairs[c.segs.length % max 1 pairs.length]? with
            | some p =>
              let id := s.carafe.nextId
              let s1 := s.openSeg p (some c.id)
              s1.setCap { c with seg := some id, segs := c.segs ++ [(p, ((s1.segOf id).map fun g : CSeg => g.pseg).getD 0)] }
            | none => s
        match s1.carafe.caps.find? fun c => c.id == id with
        | none => s1
        | some c1 =>
          match c1.seg.bind s1.segOf with
          | none => s1
          | some g =>
            let n := min left (min unitBytes (unitBytes - g.off % unitBytes))
            let u : CUnit := { id := s1.carafe.nextId, seg := g.id, bytes := n, streams := [], cap := some c1.id, sent := false,
                               done := [], complete := false }
            let full := dataBytes ≤ g.off + n
            let s2 := (s1.setRec fun r => { r with nextId := r.nextId + 1, units := r.units ++ [u] }).setSeg { g with off := g.off + n }
            let s3 := (s2.setCap { c1 with issued := c1.issued + n, seg := if full then none else c1.seg }).pump
            State.drainCap f (if full then s3.fillSeg g.id else s3) id

def State.drain (s : State) : State := (s.carafe.caps.map (·.id)).foldl (fun s id => State.drainCap 64 s id) s

/-- R332: the payload of a CAPDIR record. -/
def CCap.bytes (c : CCap) : List Byte :=
  leBytes 4 c.id ++ leBytes 2 c.srcs ++ leBytes 2 c.flags ++ leBytes 8 c.tg ++ leBytes 8 c.start ++ leBytes 8 c.end_ ++
  leBytes 4 c.segs.length ++ leBytes 4 c.trigs ++ c.segs.flatMap fun g => leBytes 8 (g.1 % 256 + g.2 * 256)

/-- R324: records with their offsets in a run of bytes. -/
def withOffsets : Nat → List CRec → List (Nat × CRec)
  | _, [] => []
  | o, r :: l => (o, r) :: withOffsets (o + r.size) l

/-- R332: what remains of a capture on disk. -/
def CCap.stored (c : CCap) : CapDone := { id := c.id, segs := c.segs, recs := withOffsets 0 (c.data.flatMap (·.2)) }

/-- R332: a capture all of whose data are complete and whose last segment is closed ends with its CAPDIR record. -/
def State.endCaps (s : State) : State :=
  let done := s.carafe.caps.filter fun c => c.ended && c.done == c.total && c.issued == c.total && c.seg.isNone &&
    s.carafe.segs.all fun g => g.cap != some c.id
  done.foldl (fun s c =>
    let s1 := s.setRec fun r => { r with caps := r.caps.filter fun x => x.id != c.id, capDone := r.capDone ++ [c.stored] }
    let s2 := (s1.put F.REC_CAP_LAST_CAP_ID c.id).put F.REC_CAP_LAST_FLAGS c.flags
    (s2.offerRec 2 s2.mtNs s2.recFlags c.bytes).event Ev.REC_CAP_DONE noInst [.w c.id, .w c.flags]) s

/-- R332: the capture whose end has been reached closes its last segment. -/
def State.finishCap (s : State) (id : Nat) : State :=
  match s.carafe.caps.find? fun c => c.id == id with
  | none => s
  | some c =>
    if c.ended ∧ c.issued = c.total then
      match c.seg with
      | some g => (s.setCap { c with seg := none }).fillSeg g
      | none => s
    else s

/-- R338: the current member of a pair that a rebuild copies from. -/
def State.copySource (s : State) (p : Nat) : Option Nat := (s.pairDrives p).find? fun d => s.drvState d == dONLINE

/-- R338: a rebuild is busy with a write unit. -/
def State.copying (s : State) (p : Nat) : Bool :=
  let mine (u : CUse) : Bool := match u with
    | .copyRead q _ | .rebuild q _ => q == p
    | _ => false
  (s.carafe.cmds.any fun c => mine c.use) || s.carafe.waiting.any fun w => mine w.2.1

/-- R338, R345: the copy of a rebuild goes on at the rate set, past what has expired, unless staging is full; it has ended
at its last position. -/
def State.copyStep (s : State) (d : Nat) : State :=
  let p := s.pairOf d
  let x := s.cdrive d
  match x.copy with
  | none => s
  | some (pos0, last) =>
    let pos := max pos0 (s.get64 (R.REC_PAIR_OLDEST_LO p) (R.REC_PAIR_OLDEST_HI p) * 256)
    if s.drvState d ≠ dREBUILD ∨ s.copying p then s
    else if last ≤ pos then
      let s1 := s.setCdrive d { x with copy := none }
      ((s1.put (F.REC_PAIR_STAT_REBUILD_PCT p) 100).setDrive d dONLINE 0).event Ev.REC_REBUILD_DONE noInst [.w d]
    else if s.now < x.copyAt ∨ stageBytes ≤ s.carafe.used then s
    else match s.copySource p with
      | some e => (s.setCdrive d { x with
          copy := some (pos, last)
          copyAt := s.now + unitBytes * uS / (10000000 * max 1 (s.get F.REC_CFG_REBUILD)) }).submit e (.copyRead p pos) false
      | none => s

/-- R334: one service step: units sent, continuous ones first, the drain, the captures' ends, rebuilds. -/
def State.service (s : State) : State :=
  let s1 := s.drain.pump
  let s2 := (s1.carafe.caps.map (·.id)).foldl State.finishCap s1
  (s2.endCaps.forN 4 State.copyStep).showCap

/-- R331, R332: a trigger at a freeze, with the sources that raised it and their number. -/
def State.capTrigger (s : State) (srcs n : Nat) : State :=
  let k := s.link.cycle
  let post := s.tenths (s.get F.REC_CAP_CFG_POST)
  let maxl := s.tenths (10 * s.get F.REC_CAP_CFG_MAXLEN)
  let refuse (s : State) : State := (s.put F.REC_HEALTH_CAP_SHORT 1).event Ev.REC_CAP_REFUSED noInst []
  if !s.works domDRAM then refuse s
  else
    match s.carafe.caps.find? fun c => !c.ended && decide (k ≤ c.end_) && decide (k + post - c.start ≤ maxl) with
    | some c =>
      s.setCap { c with end_ := max c.end_ (k + post), trigs := c.trigs + n, srcs := c.srcs ||| srcs,
                        flags := if c.end_ < k + post then c.flags ||| 8 else c.flags }
    | none =>
      if 16 ≤ s.carafe.caps.length then refuse s
      else
        let prev := s.carafe.caps.foldl (fun a c => max a c.end_) s.carafe.lastEnd
        let want := k - s.tenths (s.get F.REC_CAP_CFG_PRE)
        let start := max want (max prev s.ringFrom)
        let cut := s.carafe.cuts.any fun x => decide (start ≤ x.2) && decide (x.1 ≤ k)
        let fl := (if want < prev ∧ s.ringFrom ≤ prev then 1 else 0) + (if want < s.ringFrom ∧ prev < s.ringFrom then 2 else 0) +
          (if cut then 4 else 0)
        let id := (s.carafe.capId + 1) % 2 ^ 32
        let data := s.carafe.ring.filter fun e => decide (start ≤ e.1)
        let c : CCap := { id := id, tg := k, start := start, end_ := k + post, srcs := srcs, flags := fl, trigs := n,
                          tgNs := s.mtNs, total := cycleBytes data, issued := 0, done := 0, ended := false,
                          seg := none, segs := [], data := data }
        let s1 := s.setRec fun r => { r with capId := id, caps := r.caps ++ [c] }
        let s2 := if fl = 0 then s1 else s1.put F.REC_HEALTH_CAP_SHORT 1
        s2.event Ev.REC_CAP_TRIGGER noInst [.w id, .w srcs]

/-- R333: a cycle is discarded. -/
def State.capDiscard (s : State) (k : Nat) : State :=
  let cuts := match s.carafe.cuts with
    | (a, b) :: l => if b + 1 = k ∧ s.carafe.blocked.isSome then (a, k) :: l else (k, k) :: (a, b) :: l
    | [] => [(k, k)]
  let s1 := s.setRec fun c => { c with
    blocked := some (c.blocked.getD k), cuts := cuts, svIn := [],
    caps := c.caps.map fun x => if x.start ≤ k ∧ k < x.end_ then { x with flags := x.flags ||| 4 } else x }
  (s1.put F.REC_HEALTH_CAP_SHORT 1).eventIf s.carafe.blocked.isNone Ev.REC_CAP_BLOCKED noInst [.d k]

/-- R331, R333: the records of a cycle go into the ring and into the captures whose window it lies in, or are discarded. -/
def State.capWrite (s : State) : State :=
  let k := s.link.cycle
  let l := s.capCycle
  let n := recBytes l
  match s.ringRoom n s.carafe.ring s.carafe.ringUsed with
  | none => s.capDiscard k
  | some (ring, used) =>
    let oldest := (ring.head?.map (·.1)).getD k
    s.setRec fun c => { c with
      blocked := none, ring := ring ++ [(k, l)], ringUsed := used + n, svIn := [],
      cuts := c.cuts.filter fun x => decide (oldest ≤ x.2),
      caps := c.caps.map fun x => if !x.ended ∧ x.start ≤ k ∧ k < x.end_ then
        { x with total := x.total + n, data := x.data ++ [(k, l)] } else x }

/-- R331–R333: the freeze of a cycle: the ring's records, the triggers seen, the drain. -/
def State.capFreeze (s : State) : State :=
  let g := s.works domDRAM && (s.gooseVal (s.get F.REC_CAP_GOOSE_VAL)).2 && (s.gooseVal (s.get F.REC_CAP_GOOSE_VAL)).1 != 0
  let en := s.get F.REC_CAP_CFG_SRC
  let asks := ((s.capAsk.map fun a : Nat × Nat × Nat => a.2.1) ++ (if g && !s.carafe.goose then [4] else [])).filter fun a => bit en a
  let s0 := (s.setCapAsk fun _ => []).setRec fun c => { c with goose := g }
  let s1 := if s0.works domDRAM then s0.capWrite else s0
  let srcs := asks.foldl (fun a x => a ||| 2 ^ x) 0
  let s2 := if asks.isEmpty then s1 else s1.capTrigger srcs asks.length
  s2.service

/-- REC_CAP_END (R332): a capture reaches t_g + POST; its last units are issued. -/
def execRecCapEnd (t : Nat) (s : State) : Host.Outcome State Fault Refusal :=
  atTime t s fun s => s.inDom domDRAM fun s =>
    let k := s.link.cycle
    let s1 := s.setRec fun c => { c with
      caps := c.caps.map fun x => if !x.ended ∧ x.end_ ≤ k then { x with ended := true } else x,
      lastEnd := c.caps.foldl (fun a x => if x.end_ ≤ k then max a x.end_ else a) c.lastEnd }
    s1.service

/-- REC_CAP_SOFT_TRIGGER (R331): a write of 1 to REC_CAP_CMD.TRIGGER. -/
def State.softTrigger (s : State) (n : Nat) (value mask : Word) : Status × State :=
  s.writeThen n R.REC_CAP_CMD value mask fun s =>
    if fieldOf (value &&& mask) 0 1 = 1 then s.setCapAsk fun _ => s.capAsk ++ [(s.mtUnits, 3, n)] else s

def execRecCapSoftTrigger (t : Nat) (n : SessIx) (s : State) : Host.Outcome State Fault Refusal :=
  atTime t s fun s => s.access n domDRAM fun s => s.softTrigger n 1 1

/-! ### Completions (R329, R330) -/

/-- R329: a unit is complete when its Write has completed on every current member of its pair. -/
def State.checkUnit (s : State) (id : Nat) : State :=
  match s.unitOf id with
  | none => s
  | some u =>
    match s.segOf u.seg with
    | none => s
    | some g =>
      let ms := s.members g.pair
      if u.complete || !u.sent || ms.isEmpty || !(ms.all fun d => u.done.contains d) then s
      else
        let s1 := s.setUnit { u with complete := true }
        let s2 : State := match u.cap with
          | some c => s1.setRec fun r => { r with caps := r.caps.map fun (x : CCap) => if x.id = c then { x with done := x.done + u.bytes } else x }
          | none => s1.advanceFront.release
        match s2.segOf g.id with
        | some g2 => s2.closeReady g2
        | none => s2

/-- R322: the superblock of a member, with the next GEN. -/
def State.superOf (s : State) (p : Nat) : Superblock :=
  let oldest (m : Nat) : Nat := (s.carafe.stored.filter fun r => r.stream == m).foldl (fun a r => if a = 0 then r.seq else min a r.seq) 0
  { storeId := s.carafe.storeId.getD 0, gen := s.carafe.gen, layout := s.carafe.layout, pair := p, nseg := s.carafe.nseg,
    head := (s.carafe.pair.get p).next - 1, time := s.mtNs,
    front := (List.range 64).map fun m => (s.get64 (R.REC_STRM_FRONT_LO m) (R.REC_STRM_FRONT_HI m), oldest m) }

/-- R322: a superblock is written to some members. -/
def State.writeSuper (s : State) (ds : List Nat) : State :=
  let s1 := s.setRec fun c => { c with gen := c.gen + 1 }
  ds.foldl (fun s d => (s.setCdrive d { s.cdrive d with super := some (s1.superOf (s1.pairOf d)) }).submit d .super false) s1

/-- R322: a checkpoint: the superblock of every member of every pair. -/
def State.checkpoint (s : State) : State :=
  (s.setRec fun c => { c with ckptAt := s.now, ckptDue := false }).writeSuper ((List.range 4).flatMap s.members)

/-- R322, R325: a segment whose index and Flush have completed on every current member is closed; a close that follows a
change of a pair's state is followed by a checkpoint. -/
def State.checkClosed (s : State) (g : CSeg) : State :=
  let ms := s.members g.pair
  if g.phase = 2 ∧ (ms.all fun d => g.flush.contains d) ∧ !ms.isEmpty then
    let s1 := s.setRec fun c => { c with segs := c.segs.filter fun x => x.id != g.id }
    if s1.carafe.ckptDue then s1.checkpoint else s1
  else s

/-- R342: SYNC is done once no segment is open and every superblock is written. -/
def State.checkSync (s : State) : State :=
  if s.recState = 4 ∧ s.carafe.segs.isEmpty ∧ (s.carafe.cmds.all fun c => c.use != .super) ∧
      (s.carafe.waiting.all fun w => w.2.1 != .super) then
    (s.put F.REC_STATUS_STATE 2).showRec
  else s

/-! ### What stands on the drives (R322–R325) -/

/-- R324: a record as it stands on disk. -/
def CRec.bytes (r : CRec) : List Byte :=
  let b := leBytes 2 r.stream ++ leBytes 1 r.typ ++ leBytes 1 r.flags ++ leBytes 4 r.payload.length ++ leBytes 8 r.seq ++
    leBytes 8 r.time ++ leBytes 4 r.count
  b ++ leBytes 4 (crc32c (b ++ r.payload)) ++ r.payload

/-- R322: the superblock of a drive as last written, and its block: 0 with an even GEN, 1 with an odd one. -/
def Superblock.bytes (b : Superblock) (drive : Nat) : List Byte :=
  let front := (List.range 64).flatMap fun m => leBytes 8 (b.front.getD m (0, 0)).1 ++ leBytes 8 (b.front.getD m (0, 0)).2
  let l := leBytes 4 0x43465342 ++ leBytes 2 1 ++ leBytes 1 drive ++ leBytes 1 b.layout ++ leBytes 8 b.storeId ++ leBytes 8 b.gen ++
    leBytes 4 b.nseg ++ leBytes 1 b.pair ++ leBytes 3 0 ++ leBytes 8 b.head ++ leBytes 8 b.time ++ leBytes 16 0 ++ front ++
    List.replicate 3004 0
  l ++ leBytes 4 (crc32c l)
def Superblock.block (b : Superblock) : Nat := b.gen % 2

/-- R321: the first block of a pair segment on every member of its pair. -/
def State.segBlock (s : State) (pseg : Nat) : Nat := 16384 * (1 + pseg % (s.carafe.nseg - 1))

/-- R323: the header of a segment. -/
def State.segHeader (s : State) (g : CSeg) : List Byte :=
  let l := leBytes 4 0x43465353 ++ leBytes 2 1 ++ leBytes 1 (b2n g.cap.isSome) ++ leBytes 1 g.pair ++
    leBytes 8 (s.carafe.storeId.getD 0) ++ leBytes 8 g.pseg ++ leBytes 8 g.openAt ++ leBytes 4 (g.cap.getD 0) ++ leBytes 24 0
  l ++ leBytes 4 (crc32c l)

/-- R325: the entry of a stream and position over the records that start there, in their order; none without any. -/
def indexEntry (l : List CRec) (m pos : Nat) : List Byte :=
  match l.filter fun r => r.stream == m && r.pos == pos with
  | [] => []
  | r :: rest =>
    leBytes 2 m ++ leBytes 1 pos ++ leBytes 1 0 ++ leBytes 4 (rest.length + 1) ++ leBytes 8 r.seq ++ leBytes 8 r.time ++
      leBytes 8 ((rest.getLast?.getD r).time)

/-- R325: the index region of a segment whose records are `l`, closed at an instant. -/
def CSeg.indexBytes (g : CSeg) (l : List CRec) (close : Nat) : List Byte :=
  let streams := List.range 64 ++ (List.range 0x12).map (0x100 + ·)
  let ents := streams.flatMap fun m => (List.range 252).flatMap fun p => indexEntry l m p
  let h := leBytes 4 0x43465349 ++ leBytes 2 1 ++ leBytes 2 0 ++ leBytes 8 g.pseg ++ leBytes 8 close ++
    leBytes 4 (ents.length / 32) ++ leBytes 4 g.off ++ leBytes 28 0
  h ++ leBytes 4 (crc32c (h ++ ents)) ++ ents

/-- R325: the records of a continuous segment. -/
def State.segRecs (s : State) (g : CSeg) : List CRec :=
  (s.carafe.stored ++ s.carafe.staged).filter fun r => r.pair == g.pair && r.pseg == g.pseg && !r.units.isEmpty

/-- What every change of membership or completion lets go on. -/
def State.recheck (s : State) : State :=
  let s0 := s.resubmit
  let s1 := (s0.carafe.units.map (·.id)).foldl State.checkUnit s0
  let s2 := s1.carafe.segs.foldl State.checkClosed s1
  (s2.forget.checkSync).service

/-- R338: a failure of either member ends the rebuild. A drive that was being filled when the other failed is FAILED:
DESIGN CHOICE, log entry 201. -/
def State.endRebuild (s : State) (p : Nat) : State :=
  (s.pairDrives p).foldl (fun s e =>
    let s1 := s.setCdrive e { s.cdrive e with copy := none }
    if s1.drvState e = dREBUILD ∧ (s1.copySource p).isNone then s1.setDrive e dFAILED 0 else s1) s

/-- R330: the pair of a drive that stops being a member: its waiting commands are dropped, a rebuild ends; when the pair has
lost its last current member, its segments are abandoned and their records packed again, and what a capture had on them
is drained anew. -/
def State.leavePair (s : State) (d : Nat) : State :=
  let p := s.pairOf d
  let s2 := (s.setRec fun c => { c with waiting := c.waiting.filter fun w => w.1 != d }).endRebuild p
  if s2.pairState p = 4 ∨ s2.pairState p = 0 then
    let gone := (s2.carafe.segs.filter fun g => g.pair == p).map (·.id)
    let open_ := s2.carafe.units.filter fun u => gone.contains u.seg && !u.complete
    let us := open_.map (·.id)
    let undone (id : Nat) : Nat := ((open_.filter fun u => u.cap == some id).map (·.bytes)).foldl (· + ·) 0
    let s3 := s2.setRec fun c => { c with
      segs := c.segs.filter fun g => g.pair != p, units := c.units.filter fun u => !gone.contains u.seg,
      opened := match c.opened with
        | some (g, o) => if gone.contains g then none else some (g, o)
        | none => none,
      staged := c.staged.map fun r => if r.units.any us.contains ∨ r.pair = p ∧ !s2.durable r then { r with units := [] } else r,
      caps := c.caps.map fun x => { x with seg := if x.seg.any gone.contains then none else x.seg, issued := x.issued - undone x.id } }
    s3.packAll.recheck
  else s2.recheck

/-- R336: a drive fails. -/
def State.failDrive (s : State) (d : Nat) : State := (s.setDrive d dFAILED 0).leavePair d

/-- A command is taken off its drive's list. -/
def State.reap (s : State) (id d : Nat) : State := (s.setRec fun c => { c with cmds := c.cmds.filter fun x => x.id != id }).flight d

/-- R330, R336: a command has failed: retried once, then its drive fails. A failed copy ends the rebuild (R338). -/
def State.cmdFailed (s : State) (x : CCmd) (status : Nat) : State :=
  let s1 := if x.use.io = .read then s.count (F.REC_DRV_ERR_READ x.drive) 1
    else (s.count (F.REC_DRV_ERR_WRITE x.drive) 1).event Ev.REC_WRITE_ERROR noInst [.w x.drive, .w status]
  if s1.drvState x.drive ≠ dONLINE ∧ s1.drvState x.drive ≠ dREBUILD then s1
  else if x.retried then s1.failDrive x.drive
  else s1.submit x.drive x.use true

/-- R338: a write unit of a rebuild is on the new member. -/
def State.copied (s : State) (d p pos : Nat) : State :=
  let x := s.cdrive d
  match x.copy with
  | none => s
  | some (_, last) =>
    (s.setCdrive d { x with copy := some (pos + 1, last) }).put (F.REC_PAIR_STAT_REBUILD_PCT p) ((pos + 1) * 100 / max 1 last)

/-- R329: a command has completed with success. -/
def State.completed (s : State) (x : CCmd) : State :=
  match x.use with
  | .data u => match s.unitOf u with
    | some v => (s.setUnit { v with done := x.drive :: v.done }).checkUnit u
    | none => s
  | .index g => match s.segOf g with
    | some v => (s.setSeg { v with index := x.drive :: v.index }).submit x.drive (.flush g) false
    | none => s
  | .flush g => match s.segOf g with
    | some v => (s.setSeg { v with flush := x.drive :: v.flush }).checkClosed { v with flush := x.drive :: v.flush }
    | none => s
  | .super => s
  | .copyRead p pos => match (s.pairDrives p).find? fun d => s.drvState d == dREBUILD with
    | some d => s.submit d (.rebuild p pos) false
    | none => s
  | .rebuild p pos => s.copied x.drive p pos

/-- R291: the lease of a drive command has expired. -/
def State.leaseOver (s : State) (d : Nat) : State :=
  (s.count F.VOTE_LEASE_CNT_DRV 1).event Ev.LEASE_EXPIRED noInst [.w 1, .w d, .w 0xFF]

/-- NVME_COMPLETION (R329): a drive completes a command, with success or with an error status. A completion after its
lease is discarded (R292); one at the instant at which the lease ends finds it expired (R345). -/
def execNvmeCompletion (t : Nat) (id : Nat) (ok : Bool) (status : Nat) (s : State) : Host.Outcome State Fault Refusal :=
  atTime t s fun s => s.inDom domREC fun s =>
    match s.carafe.cmds.find? fun c => c.id == id with
    | none => s
    | some x =>
      let s1 := s.reap id x.drive
      if x.abort.isSome then (s1.count F.VOTE_LEASE_CNT_LATE 1).recheck
      else if x.due ≤ s.mtUnits then (((s1.count F.VOTE_LEASE_CNT_LATE 1).leaseOver x.drive).cmdFailed x 0xFFFF).recheck
      else if ok then (s1.completed x).recheck
      else (s1.cmdFailed x status).recheck

/-- DRIVE_CMD_LEASE_EXPIRED (R291): after 50 ms the host issues an Abort; the command counts as failed. -/
def execDriveCmdLeaseExpired (t : Nat) (id : Nat) (s : State) : Host.Outcome State Fault Refusal :=
  atTime t s fun s => s.inDom domREC fun s =>
    match s.carafe.cmds.find? fun c => c.id == id with
    | none => s
    | some x =>
      if x.abort.isSome ∨ s.mtUnits < x.due then s
      else
        let s1 := s.setRec fun c => { c with cmds := c.cmds.map fun y => if y.id = id then { y with abort := some (s.now + 50 * uMs) } else y }
        let s2 := (s1.count (F.REC_DRV_ERR_ABORT x.drive) 1).leaseOver x.drive
        (s2.cmdFailed x 0xFFFF).recheck

/-- DRIVE_UNRESPONSIVE (R293): an Abort not completed within a further 50 ms. -/
def execDriveUnresponsive (t : Nat) (d : DriveIx) (s : State) : Host.Outcome State Fault Refusal :=
  atTime t s fun s => s.inDom domREC fun s =>
    if s.carafe.cmds.any fun c => c.drive == d.val && (match c.abort with
      | some a => decide (a ≤ s.now)
      | none => false) then
      let s1 := (s.setRec fun c => { c with cmds := c.cmds.filter fun x => x.drive != d.val }).flight d
      ((s1.put ⟨R.VOTE_LEASE, 9 + d.val, 1⟩ 1).setDrive d dUNRESP 0).leavePair d
    else s

/-! ### Drives (R316, R317, R336, R338) -/

/-- R316: why a drive is refused; 0 when it is usable. -/
def State.driveCause (s : State) (d : Nat) (i : DriveId) : Nat :=
  if i.width = 0 then 1
  else if i.mqes < 64 ∨ i.queues < 4 then 2
  else if !i.nsOk then 3
  else if i.bytes < 4 * 1073741824 then 4
  else if !s.flag (F.REC_DRV_CFG_PLP d) && i.vwc && !i.wceOff then 5
  else match i.super with
    | some b => if s.carafe.storeId.isSome ∧ s.carafe.storeId ≠ some b.storeId then 6 else 0
    | none => 0

/-- R338: a drive joins a pair: it is filled from the current member. -/
def State.addDrive (s : State) (d : Nat) : State :=
  let p := s.pairOf d
  let next := (s.carafe.pair.get p).next
  let oldest := next + 1 - s.carafe.nseg
  let s1 := s.setCdrive d { s.cdrive d with super := none, copy := some (oldest * 256, next * 256), copyAt := s.now }
  let s2 := (s1.put (F.REC_PAIR_STAT_REBUILD_PCT p) 0).setDrive d dREBUILD 0
  (s2.writeSuper [d]).copyStep d

/-- R338: a usable drive can be added to its pair. -/
def State.canAdd (s : State) (d : Nat) : Bool :=
  s.pairState (s.pairOf d) == 2 && (s.pairDrives (s.pairOf d)).contains d && s.carafe.layout == 0

/-- DRIVE_IDENTIFY (R316, R317). -/
def execDriveIdentify (t : Nat) (d : DriveIx) (i : DriveId) (s : State) : Host.Outcome State Fault Refusal :=
  atTime t s fun s => s.inDom domREC fun s =>
    if !s.flag (F.REC_DRV_CFG_EN d) then s
    else
      let cause := s.driveCause d i
      let slots := min i.bytes 16000000000000 / 67108864
      let s1 := ((((s.put (F.REC_DRV_STAT_WIDTH d) i.width).putB (F.REC_DRV_STAT_SLOW d) (!i.gen4)).putB
        (F.REC_DRV_STAT_VWC_OFF d) (!s.flag (F.REC_DRV_CFG_PLP d) && i.vwc && i.wceOff)).putSat (F.REC_DRV_NSEG_NSEG d) slots).setCdrive
        d { s.cdrive d with nseg := slots, super := i.super }
      let mounted := s.recState == 2 || s.recState == 3
      if cause ≠ 0 then (s1.setDrive d dREFUSED cause).event Ev.REC_DRIVE_REFUSED noInst [.w d.val, .w cause]
      else match i.super with
        | none =>
          let s2 := s1.setDrive d dBLANK 0
          if mounted && s2.flag F.REC_CFG_AUTO_ADD && s2.canAdd d then s2.addDrive d else s2
        | some b =>
          if !mounted then s1.setDrive d dINIT 0
          else if some b.storeId ≠ s1.carafe.storeId then s1.setDrive d dREFUSED 6
          else if s1.pairState (s1.pairOf d) = 4 then ((s1.setDrive d dONLINE 0).packAll).recheck
          else if s1.canAdd d then s1.addDrive d
          else s1.setDrive d dBLANK 0

/-- REC_SMART_POLL (R336): SMART data read every 3,600 s and at mount; the critical bits 0 spare, 2 reliability, 3
read-only fail the drive. -/
def execRecSmartPoll (t : Nat) (d : DriveIx) (pct crit temp : Nat) (s : State) : Host.Outcome State Fault Refusal :=
  atTime t s fun s => s.inDom domREC fun s =>
    let x := s.cdrive d
    if s.drvState d ≠ dONLINE ∧ s.drvState d ≠ dREBUILD ∨ !s.quiet x.smartAt (3600 * uS) then s
    else
      let s1 := (((s.setCdrive d { x with smartAt := some s.now }).putSat (F.REC_DRV_SMART_PCT_USED d) pct).put
        (F.REC_DRV_SMART_CRIT d) crit).putSat (F.REC_DRV_SMART_TEMP d) temp
      if bit crit 0 || bit crit 2 || bit crit 3 then
        (s1.event Ev.REC_SMART_WARN noInst [.w d.val, .w crit]).failDrive d
      else s1

/-- REC_CHECKPOINT (R322): every 10 s. -/
def execRecCheckpoint (t : Nat) (s : State) : Host.Outcome State Fault Refusal :=
  atTime t s fun s => s.inDom domREC fun s =>
    if s.recState = 2 ∧ s.carafe.ckptAt + 10 * uS ≤ s.now then s.checkpoint else s

/-! ### Mount (R340, R341) and format -/

/-- R340: a new store on the drives given. -/
def State.formatStore (s : State) (ds : List Nat) : State :=
  let id := s.freeVal % 2 ^ 64
  let nseg := (ds.map fun d => (s.cdrive d).nseg).foldl (fun a n => if a = 0 then n else min a n) 0
  let s1 := (s.setRec fun c => { c with storeId := some id, layout := s.get F.REC_CFG_LAYOUT, nseg := nseg, gen := 0, pair := [],
                                        stored := [], lost := [], bad := [], capDone := [], capLost := [], segs := [],
                                        units := [], opened := none, cmds := [], waiting := [],
                                        staged := c.staged.map fun r => { r with units := [] } }).freeStep
  let s2 := s1.forN 4 fun s p => (s.put64 (R.REC_PAIR_HEAD_LO p) (R.REC_PAIR_HEAD_HI p) 0).put64 (R.REC_PAIR_OLDEST_LO p)
    (R.REC_PAIR_OLDEST_HI p) 0
  let s3 := (ds.filter fun d => (s2.pairDrives (s2.pairOf d)).contains d).foldl (fun s d =>
    (s.setCdrive d { s.cdrive d with copy := none }).setDrive d dONLINE 0) s2
  (s3.checkpoint).event Ev.REC_FORMATTED noInst [.w (id % 2 ^ 32)]

/-- R329, R341: the next sequence after the records of a stream that recovery found. -/
def State.foundSeq (s : State) (m : Nat) : Nat :=
  s.carafe.stored.foldl (fun b r => if r.stream = m then max b (r.seq + r.count) else b) 0

/-- R329, R341: at mount the durable frontier of each stream stands where the checkpoint or the records found put it; with
Crema's contents lost the sequence counters restart after them. -/
def State.restoreStreams (s : State) (front : List (Nat × Nat)) (lost : Bool) : State :=
  s.forN 64 fun s m =>
    let next := s.foundSeq m
    let f := max (next - 1) (max ((front[m]?.map (·.1)).getD 0) (s.get64 (R.REC_STRM_FRONT_LO m) (R.REC_STRM_FRONT_HI m)))
    let s1 := s.put64 (R.REC_STRM_FRONT_LO m) (R.REC_STRM_FRONT_HI m) f
    if lost && decide (s.get64 (R.REC_STRM_SEQ_LO m) (R.REC_STRM_SEQ_HI m) < next) then
      s1.put64 (R.REC_STRM_SEQ_LO m) (R.REC_STRM_SEQ_HI m) next
    else s1

/-- R341: what recovery covers by GAP records: sequences above the highest durable record and below the counter in
Crema. The times of the records lost are not known: they are free. -/
def State.recoverGaps (s : State) : State × Nat :=
  (List.range 64).foldl (fun a m =>
    let s := a.1
    let next := s.get64 (R.REC_STRM_SEQ_LO m) (R.REC_STRM_SEQ_HI m)
    let have_ := (s.carafe.stored ++ s.carafe.staged).foldl (fun b r => if r.stream = m then max b (r.seq + r.count) else b) 0
    let pend : Nat := match (s.strm m).pend with
      | some (_, n, _, _, _) => n
      | none => 0
    if have_ + pend < next ∧ (s.strm m).pend.isNone then
      let t0 := s.freeVal
      let s0 := s.freeStep
      let s1 := s0.freeStep.setStrm m { s0.strm m with pend := some (have_, next - have_, t0 % 2 ^ 64, s0.freeVal % 2 ^ 64, 2) }
      let (s2, ok) := s1.admitGap m
      (s2, a.2 + b2n ok)
    else (s, a.2)) (s, 0)

/-- R340: the store that is mounted: the one Crema names, else that of the newest checkpoint. -/
def State.pickStore (s : State) (ds : List Nat) : Option Nat :=
  match s.carafe.storeId with
  | some i => some i
  | none => ((ds.filterMap fun d => (s.cdrive d).super).foldl (fun (a : Option Superblock) b => match a with
      | some c => if c.time < b.time then some b else a
      | none => some b) none).map (·.storeId)

/-- REC_MOUNTED (R340, R341): the drives have been identified and the store is mounted and recovered. -/
def execRecMounted (t : Nat) (s : State) : Host.Outcome State Fault Refusal :=
  atTime t s fun s => s.inDom domREC fun s =>
    if s.recState ≠ 1 then s
    else
      let ds := (List.range 4).filter fun d => s.drvState d == dINIT || s.drvState d == dBLANK
      let s0 := s.setRec fun c => { c with x4Ports := s.get F.REC_CFG_BIF0 + 2 * s.get F.REC_CFG_BIF1 }
      let s1 := if ds.isEmpty then s0
        else if ds.all fun d => s0.drvState d == dBLANK then s0.formatStore ds
        else
          let id := s0.pickStore ds
          let lost := s0.carafe.storeId.isNone
          let mine := ds.filter fun d => ((s0.cdrive d).super.map (·.storeId)) == id && id.isSome
          let sb := (mine.filterMap fun d => (s0.cdrive d).super).foldl (fun (a : Option Superblock) b => match a with
            | some c => if c.gen < b.gen then some b else a
            | none => some b) none
          let s1 := s0.setRec fun c => { c with storeId := id, layout := (sb.map (·.layout)).getD c.layout,
                                                nseg := (sb.map (·.nseg)).getD c.nseg, gen := max c.gen ((sb.map (·.gen)).getD 0) }
          let s2 := (if lost then s1.put F.REC_STATUS_SEQ_RESTORED 1 else s1).restoreStreams ((sb.map (·.front)).getD []) lost
          let s3 := mine.foldl (fun s d =>
            let p := s.pairOf d
            let h := (((s.cdrive d).super.map (·.head)).getD 0) + 1
            ((s.setRec fun c => { c with pair := c.pair.set p { c.pair.get p with next := max h (c.pair.get p).next } }).put
              (F.REC_DRV_FLIGHT_MAX d) 0).setDrive d dONLINE 0) s2
          (ds.filter fun d => !mine.contains d && s3.drvState d == dINIT).foldl (fun s d => s.setDrive d dREFUSED 6) s3
      let s2 := (s1.put F.REC_STATUS_STATE 2).showRec
      let (s3, n) := s2.recoverGaps
      let s4 := s3.event Ev.REC_RECOVERED noInst [.w n]
      let serv := ((List.range 4).filter s4.writable).length
      let s5 := ((s4.checkpoint).event Ev.REC_MOUNTED noInst [.w serv]).packAll
      let s6 := (List.range 4).foldl (fun s d =>
        if s.drvState d = dBLANK ∧ s.flag F.REC_CFG_AUTO_ADD = true ∧ s.canAdd d = true then s.addDrive d else s) s5
      s6.service

/-- R342: every partly filled unit is issued, every open segment closed, a checkpoint written. -/
def State.sync (s : State) : State :=
  if s.recState = 2 then
    let s1 := (s.carafe.segs.filter fun g => g.phase == 0).foldl (fun s g => s.fillSeg g.id)
      (s.setRec fun c => { c with caps := c.caps.map fun x => { x with seg := none } })
    ((s1.checkpoint).put F.REC_STATUS_STATE 4).recheck
  else s

/-- REC comes on (R340): the store is being mounted; REC goes off: drives and commands are gone. -/
def State.recPower (s : State) (on : Bool) : State :=
  if on then s.put F.REC_STATUS_STATE 1
  else
    let s1 := s.setRec fun c => { c with cmds := [], waiting := [], units := [], segs := [], opened := none,
                                         staged := c.staged.map fun r => if s.durable r then r else { r with units := [] },
                                         caps := c.caps.map fun x => { x with seg := none, issued := x.done } }
    s1

/-- DRAM goes off (R327): staging and the capture ring are lost. -/
def State.dramOff (s : State) : State :=
  s.setRec fun c => { c with staged := [], used := 0, ring := [], ringUsed := 0, cuts := [], blocked := none, caps := [],
                             opened := none, units := c.units.filter (·.complete), segs := [], cmds := [], waiting := [] }

/-! ### REC_CMD (R336–R342) -/

/-- What refuses a command beyond RWL's level. -/
def State.recRefuse (s : State) (n cmd d : Nat) : Status :=
  match cmd with
  | 2 => (s.needLevel n 2).worst (if 0 < s.exports ∨ !s.carafe.caps.isEmpty then .busy else .ok)
  | 3 => (s.needLevel n 2).worst (if s.drvState d = dREFUSED ∧ s.get (F.REC_DRV_STAT_CAUSE d) = 6 ∧ s.canAdd d = true then .ok
      else .stateMismatch)
  | 5 => if s.drvState d = dBLANK ∧ s.canAdd d = true then .ok else .stateMismatch
  | _ => .ok

/-- A write of REC_CMD. -/
def State.recCmd (s : State) (n : Nat) (value mask : Word) : Status × State :=
  let w := masked (s.word R.REC_CMD) value mask
  let cmd := fieldOf w 0 3
  let d := fieldOf w 3 2
  s.writeIf n R.REC_CMD value mask (s.recRefuse n cmd d) fun s =>
    match cmd with
    | 1 => s.sync
    | 2 =>
      let ds := (List.range 4).filter fun d => [dONLINE, dREBUILD, dBLANK, dINIT].contains (s.drvState d)
      ((s.formatStore ds).packAll).showRec
    | 3 => s.addDrive d
    | 4 => s.failDrive d
    | 5 => s.addDrive d
    | _ => s

def State.recCmdBy (s : State) (n cmd d : Nat) : State :=
  s.access n domREC fun s => s.recCmd n (BitVec.ofNat 32 (cmd % 8 + d % 4 * 8)) 0xFFFFFFFF

/-- REC_CMD_NONE. -/
def execRecCmdNone (t : Nat) (n : SessIx) (d : DriveIx) (s : State) : Host.Outcome State Fault Refusal :=
  atTime t s fun s => s.recCmdBy n 0 d

/-- REC_SYNC (R342). -/
def execRecSync (t : Nat) (n : SessIx) (d : DriveIx) (s : State) : Host.Outcome State Fault Refusal :=
  atTime t s fun s => s.recCmdBy n 1 d

/-- REC_FORMAT (R340, R345). -/
def execRecFormat (t : Nat) (n : SessIx) (d : DriveIx) (s : State) : Host.Outcome State Fault Refusal :=
  atTime t s fun s => s.recCmdBy n 2 d

/-- REC_ADOPT (R338). -/
def execRecAdopt (t : Nat) (n : SessIx) (d : DriveIx) (s : State) : Host.Outcome State Fault Refusal :=
  atTime t s fun s => s.recCmdBy n 3 d

/-- REC_REMOVE (R336). -/
def execRecRemove (t : Nat) (n : SessIx) (d : DriveIx) (s : State) : Host.Outcome State Fault Refusal :=
  atTime t s fun s => s.recCmdBy n 4 d

/-- REC_ADD (R338). -/
def execRecAdd (t : Nat) (n : SessIx) (d : DriveIx) (s : State) : Host.Outcome State Fault Refusal :=
  atTime t s fun s => s.recCmdBy n 5 d

/-- R469: a read of REC_STATUS returns the peak and restarts it at the present occupancy. -/
def State.recStatusRead (s : State) (n : Nat) : State :=
  let w := s.word R.REC_STATUS
  (s.put F.REC_STATUS_PEAK_PCT (s.get F.REC_STATUS_STAGE_PCT)).answer n .ok w

/-- REC_STATUS_READ (R469). -/
def execRecStatusRead (t : Nat) (n : SessIx) (s : State) : Host.Outcome State Fault Refusal :=
  atTime t s fun s =>
    if !s.isOn domMGMT then s
    else if !s.isOn domREC then s.answer n .domainOff 0
    else s.recStatusRead n

/-! ### The stream set (R326) -/

/-- R326: bytes per second of a stream at the configured f_ctl; the length of a raw SV frame is open. -/
def State.strmRate (s : State) (m : Nat) : Nat :=
  let dec := max 1 (s.get (F.REC_STRM_DEC_DEC m))
  let src := s.get (F.REC_STRM_CFG_SRC m)
  let cnt := s.get (F.REC_STRM_CFG_CNT m)
  let per (bytes : Nat) : Nat := bytes * uS / (s.periodU * dec)
  if !s.strmOn m then 0
  else match s.strmKind m with
    | 1 => ((List.range cnt).map fun i =>
        per (32 + 8 + 36 * ((cellsOf ((src + i) % 8)).filter s.inMap).length)).foldl (· + ·) 0
    | 2 => per (32 + 8 + dec * cnt * 2)
    | 3 => ((List.range cnt).map fun i =>
        let j := src + i
        let nasdu := s.get (F.SV_SUB_CFG_NASDU j) + 1
        if s.svOn j then (32 + (Config.openFn 20 [(nasdu : Int), ((s.get (F.SV_SUB_CFG_NCH j) + 1 : Nat) : Int)]).toNat) * s.svRate j / nasdu
        else 0).foldl (· + ·) 0
    | _ => 0

/-- R326: the set is within 400 MB/s, and KIND 5–7 stay with streams 0–2. -/
def State.recCheck (s : State) : Option Nat :=
  let ids := (List.range 61).map (· + 3)
  if ids.any fun m => decide (5 ≤ s.get (F.REC_STRM_CFG_KIND m)) then some 1
  else if 400000000 < (ids.map s.strmRate).foldl (· + ·) 0 then some 2
  else none

end Sys2Proof.Machine
end

