-- ==== Sys2Proof/Machine/Wear.lean ====
section
/-! DEFINITION. The wear engine: losses, junction temperatures, rainflow counting, damage, capacitors, predictions,
retirement and the module's own parts (R346–R363). -/

namespace Sys2Proof.Machine

/-- The cells whose model runs. -/
def State.wearCells (s : State) : List Nat := (s.wear.cell.filter fun e => e.2.model).map (·.1)

/-- 0.01 °C in the unit of the model's temperatures. -/
abbrev wT : Int := 65536

/-! ### Slots (R346, R348, R353) -/

/-- R346: the wear engine takes the frozen slot of a cell, its modulation index and (R348) its periods. The samples of a
line period are those of its first accepted slots; a cell that is not ACTIVE has none (R353). -/
def State.wearSlot (s : State) (k : Nat) : State :=
  let old := s.wcell k
  let n := s.lineCycles
  let x : WearCell := if s.cellState k = cACTIVE then { old with cycles := min n (old.cycles + 1) }
    else { old with cycles := 0, samples := [] }
  if !(s.cell k).fresh then s.setWcell k x
  else
    let x1 : WearCell := { x with ths := signedOf 16 (fieldOf (s.word (R.CELL_TLM k 3)) 0 16) }
    if s.cellState k ≠ cACTIVE then s.setWcell k x1
    else
      let w := s.word (R.CELL_TLM k 2)
      let (mn, md, _) := s.modIndex k
      let p : CapSample :=
        { pNum := mn * (s.vdc k : Int) * s.iarm k, pDen := md, vdc := s.vdc k, cur := (s.iarm k).natAbs,
          rip := fieldOf (s.word (R.CELL_TLM k 5)) 16 16, mNum := mn.natAbs, mDen := md }
      s.setWcell k { x1 with
        slots := x.slots + 1, cur := x.cur + (s.iarm k).natAbs, volt := x.volt + s.vdc k,
        hb0 := { x.hb0 with vce := x.hb0.vce + fieldOf w 0 16 }, hb1 := { x.hb1 with vce := x.hb1.vce + fieldOf w 16 16 },
        samples := if old.cycles < n then p :: x.samples else x.samples }

/-- R355, R357: ACTIVE time. -/
def State.wearHours (s : State) (k : Nat) : State :=
  let x := s.wcell k
  if s.cellState k ≠ cACTIVE then s
  else
    let a := x.active + s.periodU
    (s.setWcell k { x with active := a }).putSat (F.WEAR_CELL_HOURS_HOURS k) (a / (3600 * uS))

/-! ### Losses and junction temperature (R348, R349) -/

/-- R348: the loss of a half-bridge over the interval, µW. Currents are in 20 mA, VDC in 50 mV, ESW in 0.1 mJ, the
carrier period in 125 ps. The quotient's rounding is free. -/
def State.wearLoss (s : State) (k : Nat) (x : WearCell) (h : WearHb) : Nat :=
  let ty := s.get (F.CELL_CFG_TYPE k)
  if s.cellState k ≠ cACTIVE then 0
  else if x.slots = 0 then h.loss
  else
    let n := x.slots
    let cond := roundFree ((20 * h.vce * x.cur : Nat) : Int) ((n * n : Nat) : Int)
    let den := x.periods * s.carP (ringOf k) * n * n * s.get (F.WEAR_TYPE_ESW_I_REF ty) * s.get (F.WEAR_TYPE_VREF_V_REF ty)
    let sw := if x.periods = 0 then 0 else
      roundFree ((800000000 * h.pulses * s.get (F.WEAR_TYPE_ESW_ESW ty) * x.cur * x.volt : Nat) : Int) (den : Int)
    (cond + sw).toNat

/-- exp(−x) in 2^-64 for a fraction x of at most 1, by its series to the 20th term. -/
def expNeg (num den : Nat) : Int :=
  (List.range 20).foldr (fun i (a : Int) => 2 ^ 64 - (num : Int) * a / ((den * (i + 1) : Nat) : Int)) (2 ^ 64)

/-- R349: exp(−t_u / τ) in 2^-32, for t_u in ns and τ in ms; the spec gives no number format, so its rounding is open. -/
def fosterA (tu tau : Nat) : Int :=
  min (2 ^ 32) (expNeg tu (1000000 * max 1 tau) / 2 ^ 32 + Config.openFn 30 [(tu : Int), (tau : Int)] % 2)

/-- R349: one node after an update; R in 0.1 mK/W, P in µW. -/
def fosterStep (a r p t : Int) : Int := roundFree (a * t * 10 ^ 8 + (2 ^ 32 - a) * r * p * 65536) (2 ^ 32 * 10 ^ 8)

/-- R349: the resistances and time constants of a cell type. -/
def State.foster (s : State) (ty : Nat) : List (Nat × Nat) :=
  [(s.get (F.WEAR_TYPE_R01_R1 ty), s.get (F.WEAR_TYPE_TAU01_TAU1 ty)),
   (s.get (F.WEAR_TYPE_R01_R2 ty), s.get (F.WEAR_TYPE_TAU01_TAU2 ty)),
   (s.get (F.WEAR_TYPE_R23_R3 ty), s.get (F.WEAR_TYPE_TAU23_TAU3 ty)),
   (s.get (F.WEAR_TYPE_R23_R4 ty), s.get (F.WEAR_TYPE_TAU23_TAU4 ty))]

/-! ### Rainflow counting (R350) -/

/-- R350: the next temperature of a half-bridge: the turning point it reveals. The first temperature is no turning point;
the direction is known once the temperature has moved HYST from it: log entry 90. -/
def turnStep (h : WearHb) (t hyst : Int) : WearHb × Option Int :=
  match h.ext with
  | none => ({ h with ext := some t }, none)
  | some e =>
    if h.dir = 0 then
      if e < t ∧ hyst ≤ t - e then ({ h with dir := 1, ext := some t }, none)
      else if t < e ∧ hyst ≤ e - t then ({ h with dir := -1, ext := some t }, none)
      else (h, none)
    else if h.dir = 1 then
      if e ≤ t then ({ h with ext := some t }, none)
      else if hyst ≤ e - t then ({ h with dir := -1, ext := some t }, some e)
      else (h, none)
    else
      if t ≤ e then ({ h with ext := some t }, none)
      else if hyst ≤ t - e then ({ h with dir := 1, ext := some t }, some e)
      else (h, none)

/-- R350: the full cycles that a stack (newest first) gives up: range and the sum of the two points. -/
def rainPops : Nat → List Int → List (Int × Int) × List Int
  | 0, l => ([], l)
  | n + 1, d :: c :: b :: a :: r =>
    if (c - b).natAbs ≤ (b - a).natAbs ∧ (c - b).natAbs ≤ (d - c).natAbs then
      let (cs, l) := rainPops n (d :: a :: r)
      (((c - b).natAbs, b + c) :: cs, l)
    else ([], d :: c :: b :: a :: r)
  | _, l => ([], l)

/-- R350: a new turning point: full cycles, the half cycle of a full stack, and the stack. -/
def rainPush (stack : List Int) (p : Int) : List (Int × Int) × Option (Int × Int) × List Int :=
  let (cs, l) := rainPops 32 (p :: stack)
  if l.length < 32 then (cs, none, l)
  else
    let a := l.getLastD 0
    let b := l.dropLast.getLastD 0
    (cs, some ((b - a).natAbs, a + b), l.dropLast)

/-! ### Damage (R352) -/

/-- The greatest whole number not above 2^(e/256), for e up to 48 · 256. -/
def pow2Floor (e : Nat) : Nat :=
  (List.range 49).foldr (fun b r => if (r + 2 ^ b) ^ 256 ≤ 2 ^ e then r + 2 ^ b else r) 0

/-- R352: 2^(−L/256) in Q16.48, of a half cycle with one factor 2 less; exact where it is a power of 2 in Q16.48, else
its rounding, down or up, is open. -/
def damageOf (l : Nat) (half : Bool) : Nat :=
  let e : Int := 48 * 256 - (l : Int) - (if half then 256 else 0)
  if l = 0xFFFF then 0
  else if e % 256 = 0 ∧ 0 ≤ e then 2 ^ (e / 256).toNat
  else (if 0 ≤ e then pow2Floor e.toNat else 0) + (Config.openFn 31 [(l : Int), b2n half]).toNat % 2

/-- R350, R352: a cycle of a half-bridge counts in its bin and adds its damage. -/
def State.wearCycle (s : State) (k h : Nat) (half : Bool) (c : Int × Int) : State :=
  let ty := s.get (F.CELL_CFG_TYPE k)
  let i := (clampI 0 15 (c.1 / (10 * wT * max 1 (s.get F.WEAR_BIN_DT_BIN : Int)))).toNat
  let j := (clampI 0 15 ((c.2 - 200 * wT * s.getS F.WEAR_BIN_TM_BASE) / (200 * wT * max 1 (s.get F.WEAR_BIN_TM_STEP : Int)))).toNat
  let w := s.word (R.WEAR_NF ty (8 * i + j / 2))
  let l := fieldOf w (16 * (j % 2)) 16
  let m := s.wear.matrix.get k
  let m1 := m.set (16 * i + j) (satN (2 ^ 32 - 1) (m.get (16 * i + j) + (if half then 1 else 2)))
  (s.setWear fun x => { x with matrix := s.wear.matrix.set k m1 }).setDamage k h (s.damage k h + damageOf l half)

/-- R348–R350: half-bridge `h` of a cell over an interval: loss, nodes, temperature, turning points, cycles. -/
def State.wearHbStep (s : State) (k h tu : Nat) : State :=
  let x := s.wcell k
  let b := if h = 0 then x.hb0 else x.hb1
  let p := s.wearLoss k x b
  let node := ((s.foster (s.get (F.CELL_CFG_TYPE k))).zip b.node).map fun e => fosterStep (fosterA tu e.1.2) e.1.1 p e.2
  let tj := x.ths * wT + node.foldl (· + ·) 0
  let (b1, tp) := turnStep { b with loss := p, node := node, vce := 0, pulses := 0 } tj (10 * wT * s.get F.WEAR_CFG_HYST)
  let keep (s : State) (b : WearHb) : State := if h = 0 then s.setWcell k { x with hb0 := b } else s.setWcell k { x with hb1 := b }
  let show_ (s : State) : State :=
    let v := roundFree tj wT
    if h = 0 then s.putS (F.WEAR_CELL_TJ_TJ0 k) v else s.putS (F.WEAR_CELL_TJ_TJ1 k) v
  match tp with
  | none => show_ (keep s b1)
  | some q =>
    let (full, half, st) := rainPush b1.stack q
    let s1 := full.foldl (fun s c => s.wearCycle k h false c) (show_ (keep s { b1 with stack := st }))
    match half with
    | some c => s1.wearCycle k h true c
    | none => s1

/-- R348: one update of a cell. -/
def State.wearStep (s : State) (tu k : Nat) : State :=
  let s1 := (s.wearHbStep k 0 tu).wearHbStep k 1 tu
  (s1.setWcell k { s1.wcell k with slots := 0, cur := 0, volt := 0, periods := 0 }).put (F.WEAR_CELL_STAT_MODEL k) 1

/-- R346: a difference between the two datapaths. -/
def State.wearFault (s : State) : State :=
  ((s.put F.WEAR_STATUS_FAULT 1).put F.WEAR_STATUS_SUSPENDED 1).event Ev.WEAR_ENGINE_FAULT noInst []

/-- WEAR_MODEL_UPDATE (R346–R352): every UPD cycles; whether the two datapaths differ. -/
def execWearModelUpdate (t : Nat) (mismatch : Bool) (s : State) : Host.Outcome State Fault Refusal :=
  atTime t s fun s => s.inDom domVOTE fun s =>
    let upd := max 1 (s.get F.WEAR_CFG_UPD)
    if s.flag F.WEAR_CFG_EN ∧ s.vlWorks ∧ s.link.frozen ∧ s.wear.updK + upd ≤ s.link.cycle then
      let s1 := s.setWear fun x => { x with updK := s.link.cycle }
      let s2 := s1.wearCells.foldl (fun s k => s.wearStep (upd * s.period * 4) k) s1
      if mismatch then s2.wearFault else s2
    else s

/-! ### The capacitor (R353, R354) -/

/-- The middle value of a list, the mean of the two middle ones of an even number; its rounding is free. -/
def median (l : List Nat) : Nat :=
  let a := l.foldr insDesc []
  let n := a.length
  if n % 2 = 1 then a.getD (n / 2) 0
  else (roundFree ((a.getD (n / 2) 0 + a.getD (n / 2 - 1) 0 : Nat) : Int) 2).toNat

/-- R353: the integral of the output power less its mean, its greatest and least value: samples oldest first as exact
fractions over a common denominator, in mW × cycles × n. -/
def energySpan (ps : List Int) : Int :=
  let n : Int := ps.length
  let sum := ps.foldl (· + ·) 0
  let run := ps.foldl (fun (a : Int × Int × Int) p =>
    let e := a.1 + n * p - sum
    (e, max a.2.1 e, min a.2.2 e)) (0, 0, 0)
  run.2.1 - run.2.2

/-- R353: the estimate of C of a line period, 10 µF: none below a span of 2 V. -/
def capEstimate (l : List CapSample) (tCtlNs : Nat) : Option Nat :=
  let v := l.map (·.vdc)
  let hi := v.foldl max 0
  let lo := v.foldl min 65535
  if l.isEmpty ∨ hi < lo + 40 then none
  else
    let ps := l.reverse.map fun x => roundFree (x.pNum * 2 ^ 16) (max 1 x.pDen : Nat)
    -- mW·2^16 × cycles × n → J: / (1000 · 2^16 · n) × t_ctl; V² = (50 mV)² units / 400
    some (roundFree (energySpan ps * tCtlNs * 2 * 400 * 100000)
      (1000 * 65536 * (l.length : Int) * 1000000000 * ((hi * hi - lo * lo : Nat) : Int))).toNat

/-- R353: the ESR sample of a slot, µΩ: RIPPLE / |IARM| less the charge ramp; C in 10 µF, the carrier period in 125 ps. -/
def esrSample (x : CapSample) (c carP : Nat) : Int :=
  let m : Int := x.mNum
  let d : Int := x.mDen
  -- |m|(1−|m|) / (2 f C): t = carP·125 ps, C·10 µF → Ω: m(d−m)/d² · carP·125e-12 / (2·C·1e-5)
  roundFree ((x.rip : Int) * 500000 * (d * d * 16 * (c : Int)) - m * (d - m) * carP * 100 * (x.cur : Int))
    ((x.cur : Int) * (d * d * 16 * (c : Int)))

/-- WEAR_CAP_ESTIMATE (R353): a line period of a cell has ended, counted in control cycles. An ESR sample below 0 counts as
0, and one needs an estimate of C, this period's or the last: log entries 90, 91. -/
def execWearCapEstimate (t : Nat) (k : CellIx) (s : State) : Host.Outcome State Fault Refusal :=
  atTime t s fun s => s.inDom domVOTE fun s =>
    let x := s.wcell k
    if !x.model || s.cellState k != cACTIVE || decide (x.cycles < s.lineCycles) then s
    else
      let c := capEstimate x.samples (s.period * 4)
      let cNow := c.orElse fun _ => x.cLast
      let lim := s.get (F.GRID_CLU_IBASE_IBASE (ringOf k))
      let esr := match cNow with
        | some c => if c = 0 then [] else
            (x.samples.filter fun p => decide (lim ≤ p.cur ∧ p.cur ≠ 0)).map fun p => (esrSample p c (s.carP (ringOf k))).toNat
        | none => []
      s.setWcell k { x with cycles := 0, samples := [], cLast := cNow, cDay := c.toList ++ x.cDay, esrDay := esr ++ x.esrDay }

/-- R353: a daily value: the median of at least 100 estimates, else the previous one. -/
def dailyValue (day : Int) (est : List Nat) (l : List (Int × Nat)) : List (Int × Nat) :=
  if 100 ≤ est.length then (day, median est) :: l
  else match l with
    | (_, v) :: _ => (day, v) :: l
    | [] => []

/-- R354: a baseline: that of the record, else the median of the first 7 daily values. -/
def baseline (have_ : Nat) (l : List (Int × Nat)) : Nat :=
  if have_ ≠ 0 then have_ else if l.length = 7 then median (l.map (·.2)) else 0

/-- R353, R354: the end of a UTC day for one cell. -/
def State.wearDay (s : State) (day : Int) (k : Nat) : State :=
  let x := s.wcell k
  let cs := dailyValue day x.cDay x.cDaily
  let es := dailyValue day x.esrDay x.esrDaily
  let s1 := s.setWcell k { x with cDay := [], esrDay := [], cDaily := cs, esrDaily := es }
  let s2 := (s1.putSat (F.WEAR_CELL_CAP_C k) ((cs.head?.map (·.2)).getD 0)).putSat (F.WEAR_CELL_ESR_ESR k)
    ((es.head?.map (·.2)).getD 0)
  (s2.putSat (F.WEAR_CELL_CAP_C0 k) (baseline (s.get (F.WEAR_CELL_CAP_C0 k)) cs)).putSat (F.WEAR_CELL_ESR_ESR0 k)
    (baseline (s.get (F.WEAR_CELL_ESR_ESR0 k)) es)

/-! ### Least-squares lines (R354, R362) -/

/-- A least-squares line: slope, intercept and their common denominator. -/
def lineOf (l : List (Int × Int)) : Int × Int × Int :=
  let n : Int := l.length
  let sx := (l.map (·.1)).foldl (· + ·) 0
  let sy := (l.map (·.2)).foldl (· + ·) 0
  let sxy := (l.map fun e => e.1 * e.2).foldl (· + ·) 0
  let sxx := (l.map fun e => e.1 * e.1).foldl (· + ·) 0
  (n * sxy - sx * sy, sy * sxx - sx * sxy, n * sxx - sx * sx)

/-- Hours from a UTC second until the line through daily values first reaches `num / den`, upward or downward; none
when the line does not approach it. A crossing already past counts as now. -/
def hoursTo (l : List (Int × Int)) (now num den : Int) (upward : Bool) : Option Nat :=
  let (a, b, d) := lineOf l
  let go := if upward then 0 < a * d else a * d < 0
  if d = 0 ∨ den = 0 ∨ ¬ go then none
  else
    -- x = (num/den · d − b) / a days; hours = 24 x − now / 3600
    let h := roundFree (86400 * (num * d - b * den) - now * a * den) (3600 * a * den)
    some h.toNat

/-- The days of a window that ends with a day. -/
def within (n : Int) (l : List (Int × Int)) : List (Int × Int) := match l with
  | [] => []
  | (d, v) :: r => ((d, v) :: r).filter fun e => d - n < e.1

abbrev lifeNone : Nat := 0xFFFFFFFF

/-- R354: the capacitor's predicted life, h, and the part that sets it (2 ESR, 3 capacitance). -/
def State.capLife (s : State) (k : Nat) : Nat × Nat :=
  let x := s.wcell k
  let ty := s.get (F.CELL_CFG_TYPE k)
  let now := s.utcSec
  let judge (l : List (Int × Nat)) (base lim den : Nat) (up : Bool) : Nat :=
    match l with
    | [] => lifeNone
    | (_, v) :: _ =>
      if base = 0 then lifeNone
      else if (if up then lim * base ≤ v * den else v * den ≤ lim * base) then 0
      else if l.length < 14 then lifeNone
      else satN lifeNone ((hoursTo (within 90 (l.map fun e => (e.1, (e.2 : Int)))) now (lim * base : Nat) den up).getD lifeNone)
  let e := judge x.esrDaily (s.get (F.WEAR_CELL_ESR_ESR0 k)) (s.get (F.WEAR_TYPE_VREF_ESR_LIM ty)) 64 true
  let c := judge x.cDaily (s.get (F.WEAR_CELL_CAP_C0 k)) (s.get (F.WEAR_TYPE_VREF_C_LIM ty)) 256 false
  if e ≤ c then (e, 2) else (c, 3)

/-! ### Predictions (R355, R356) -/

/-- R355: one rate after an evaluation with time constant `tc`; its quotient's rounding is free. -/
def rateStep (r dd tc : Nat) : Nat := ((r : Int) + roundFree ((dd : Int) - (r : Int)) (max 1 tc : Nat)).toNat

/-- R355: a half-bridge's part in an evaluation; before the rates are known, the mean of 24 increments starts both. -/
def hbRates (h : WearHb) (d ts tf : Nat) (known : Bool) : WearHb :=
  let dd := (d - h.last) * 2 ^ 16
  if known then { h with last := d, rs := rateStep h.rs dd ts, rf := rateStep h.rf dd tf }
  else
    let l := dd :: h.firsts
    if 24 ≤ l.length then
      let m := (roundFree ((l.foldl (· + ·) 0 : Nat) : Int) 24).toNat
      { h with last := d, rs := m, rf := m, firsts := [] }
    else { h with last := d, firsts := l }

/-- R355: the predicted life of a half-bridge, whole hours; a rate of 0 sets no limit. -/
def hbLife (h : WearHb) (d : Nat) : Nat :=
  let r := max h.rs h.rf
  if 2 ^ 48 ≤ d then 0 else if r = 0 then lifeNone else satN lifeNone ((2 ^ 48 - d) * 2 ^ 16 / r)

/-- R355, R356: an evaluation of one cell. Before its record is read it has no prediction. -/
def State.wearEval (s : State) (k : Nat) : State :=
  let x := s.wcell k
  if !x.unread.isEmpty then s
  else
    let ts := s.get F.WEAR_EWMA_TS
    let tf := s.get F.WEAR_EWMA_TF
    let d0 := s.damage k 0
    let d1 := s.damage k 1
    let b0 := hbRates x.hb0 d0 ts tf x.known
    let b1 := hbRates x.hb1 d1 ts tf x.known
    let known := x.known || (b0.firsts.isEmpty)
    let l0 := hbLife b0 d0
    let l1 := hbLife b1 d1
    let cap := s.capLife k
    let excess := decide (2 ^ 48 ≤ d0) || decide (2 ^ 48 ≤ d1)
    let hb := if l0 ≤ l1 then (l0, 0) else (l1, 1)
    let best := if hb.1 ≤ cap.1 then hb else cap
    let life := if excess then 0 else if known then best.1 else lifeNone
    let lim := if hb.2 = 0 then b0 else b1
    let nonurg := s.get F.WEAR_POLICY_NONURG_H
    let valid := known || excess
    let wasC := s.flag (F.WEAR_CELL_STAT_CANDIDATE k)
    let wasU := s.flag (F.WEAR_CELL_STAT_URGENT k)
    let st := s.cellState k
    let may := valid && (st == cREADY || st == cACTIVE || st == cBYPASSED)
    let cand := may && decide (life < nonurg)
    let urg := may && decide (life < 48)
    let s1 := s.setWcell k { x with hb0 := b0, hb1 := b1, known := known }
    let s2 := (((s1.putB (F.WEAR_CELL_STAT_VALID k) valid).putB (F.WEAR_CELL_STAT_CANDIDATE k) cand).putB
      (F.WEAR_CELL_STAT_URGENT k) urg).put (F.WEAR_CELL_STAT_LIMIT k) best.2
    let s3 := ((s2.put (F.WEAR_CELL_LIFE_HOURS k) life).putSat (F.WEAR_CELL_RS_RATE k) (lim.rs / 2 ^ 24)).putSat
      (F.WEAR_CELL_RF_RATE k) (lim.rf / 2 ^ 24)
    (s3.eventIf (cand && !wasC) Ev.WEAR_CANDIDATE k [.w k, .w life]).eventIf (urg && !wasU) Ev.WEAR_URGENT k [.w k, .w life]

/-! ### Retirement (R358–R360) -/

/-- R359: an entry of the log at most once per cell per 24 h for a cause. -/
def State.wearLog (s : State) (k cause code bound : Nat) : State :=
  let x := s.wcell k
  if s.quiet (x.logged.get cause) (86400 * uS) then
    (s.setWcell k { x with logged := x.logged.set cause (some s.now) }).event code k [.w k, .w bound]
  else s

/-- R358: the software bounds a cell does not keep: 1 AUTO_RET, 2 HOLD_OFF, 3 MAX_DAY, 4 MIN_MARGIN. -/
def State.wearBounds (s : State) (k : Nat) : List Nat :=
  let rets := (s.wear.rets.filter fun t => decide (s.mtUnits < t + 86400 * uS)).length
  (if s.flag F.WEAR_POLICY_AUTO_RET then [] else [1]) ++ (if s.flag (F.WEAR_CELL_CTRL_HOLD_OFF k) then [2] else []) ++
  (if rets < s.get F.WEAR_POLICY_MAX_DAY then [] else [3]) ++
  (if s.cellState k = cBYPASSED ∨ decide ((s.get F.WEAR_POLICY_MIN_MARGIN : Int) ≤ s.marginIf k) then [] else [4])

/-- R358, R110: the margin test: M_now ≥ 0 without the cell while the cluster runs; for a stopped cluster every phase
keeps M_now ≥ 0 over its READY cells. -/
def State.wearMargin (s : State) (k : Nat) : Bool :=
  let c := ringOf k
  s.cellState k == cBYPASSED ||
  if s.cluRunning c then decide (0 ≤ s.marginIf k)
  else [0, 1, 2].all fun ph => s.nMap c ph == 0 ||
    decide (0 ≤ marginOf (((s.phaseCells c ph).filter fun j => s.cellState j == cREADY && j != k).map s.vdc)
      (s.get (F.CELL_CLU_CFG_MMAX c)) (s.get (F.CELL_CLU_CFG_VNEED c)))

/-- R358: the tests without a bound of software: not suspended, no sequence in the phase, the cluster stopped or
NORMAL. -/
def State.wearMay (s : State) (k : Nat) : Bool :=
  let c := ringOf k
  !s.flag F.WEAR_STATUS_SUSPENDED && !((s.phaseCells c (s.phaseOf k)).any fun j => s.seqBusy j || (s.cell j).seq != .none) &&
    (!s.cluRunning c || s.frtState c == sNORMAL)

/-- R358: the retirement of a cell. -/
def State.wearRetire (s : State) (k : Nat) : State :=
  let rets := s.mtUnits :: s.wear.rets.filter fun t => decide (s.mtUnits < t + 86400 * uS)
  let s0 := (s.setWear fun x => { x with rets := rets }).putSat F.WEAR_STATUS_RET_24H rets.length
  let s1 := if s.cellState k = cBYPASSED then s0.retireNow k 0x14 else s0.startBypass k cRETIRED 0x14
  s1.event Ev.WEAR_RETIRE k [.w k, .w (s.get (F.WEAR_CELL_LIFE_HOURS k))]

/-- R358, R359: the tests of a candidate in their order, and what follows. -/
def State.wearTry (s : State) (k : Nat) : State :=
  let bad := s.wearBounds k
  if !s.wearMay k then s
  else if s.flag (F.WEAR_CELL_STAT_URGENT k) then
    if s.wearMargin k then
      bad.foldl (fun s b => s.wearLog k (5 + b) Ev.WEAR_RETIRE_OVERRIDE b) (s.wearRetire k)
    else s.wearLog k 5 Ev.CELL_BYPASS_REFUSED (codeOf 32 (s.marginIf k))
  else match bad with
    | b :: _ => s.wearLog k b Ev.WEAR_RETIRE_DEFERRED b
    | [] => if s.wearMargin k then s.wearRetire k else s.wearLog k 5 Ev.CELL_BYPASS_REFUSED (codeOf 32 (s.marginIf k))

/-- R358: of the cells given, the one with the shortest predicted life. -/
def State.shortest (s : State) (l : List Nat) : Option Nat :=
  l.foldl (fun a k => match a with
    | none => some k
    | some j => if s.get (F.WEAR_CELL_LIFE_HOURS k) < s.get (F.WEAR_CELL_LIFE_HOURS j) then some k else some j) none

/-- R358: the candidate of each phase among the cells that `f` picks is tried. -/
def State.wearPhases (s : State) (f : State → Nat → Bool) : State :=
  let picked := s.wearCells.filter (f s)
  if picked.isEmpty then s
  else (List.range 24).foldl (fun s j =>
    match s.shortest (picked.filter fun k => ringOf k == j / 3 && s.phaseOf k == j % 3) with
    | some k => s.wearTry k
    | none => s) s

/-- R358: VALID and in a state from which a cell can be retired. -/
def State.wearCan (s : State) (k : Nat) : Bool :=
  let st := s.cellState k
  s.flag (F.WEAR_CELL_STAT_VALID k) && (st == cREADY || st == cACTIVE || st == cBYPASSED)

/-- R360: an UNRETIRE of a cell below 48 h is logged against it. The spec names no bound there: it is free. -/
def State.wearUnret (s : State) (k : Nat) : State :=
  let x := s.wcell k
  if !x.unret then s
  else
    let s1 := s.setWcell k { x with unret := false }
    if s.flag (F.WEAR_CELL_STAT_VALID k) ∧ s.get (F.WEAR_CELL_LIFE_HOURS k) < 48 then
      (s1.wearLog k 10 Ev.WEAR_RETIRE_OVERRIDE (s1.freeVal % 2 ^ 32)).freeStep
    else s1

/-- R346, R358: the wear engine, enabled, at an input freeze: slots, ACTIVE time, urgent candidates again. -/
def State.wearFreeze (s : State) : State :=
  if !s.flag F.WEAR_CFG_EN then s else
  let s1 := s.wearCells.foldl (fun s k => (s.wearSlot k).wearHours k) s
  let s2 := s1.wearCells.foldl State.wearUnret s1
  let urgent (s : State) (k : Nat) : Bool := s.wearCan k && decide (s.get (F.WEAR_CELL_LIFE_HOURS k) < 48)
  let s3 := s2.wearCells.foldl (fun s k =>
    if urgent s k ∧ s.get (F.WEAR_CELL_STAT_URGENT k) = 0 then
      (s.put (F.WEAR_CELL_STAT_URGENT k) 1).put (F.WEAR_CELL_STAT_CANDIDATE k) 1 else s) s2
  s3.wearPhases urgent

/-! ### The module's own parts (R362) -/

/-- R362: the present measure of a part: none where the part is not fitted. -/
def State.partVal (s : State) (p : Nat) : Option Int :=
  if p < 4 then (if s.drvState p = 0 then none else some (s.get (F.REC_DRV_SMART_PCT_USED p)))
  else if p = 4 then some (s.log.written / 65536 : Nat)
  else if p = 5 then some (s.get F.CREMA_CELL_CAP)
  else (s.wear.part.get p).daily.head?.map (·.2)

/-- R362: a line toward a limit. -/
def partLine (l : List (Int × Int)) (now lim : Int) : Nat :=
  match l with
  | [] => lifeNone
  | [_] => lifeNone
  | (_, v) :: _ =>
    if lim ≤ v ∨ v ≤ -lim then 0
    else satN lifeNone (min ((hoursTo l now lim 1 true).getD lifeNone) ((hoursTo l now (-lim) 1 false).getD lifeNone))

/-- R362: the predicted life of a part, h. -/
def State.partLife (s : State) (p : Nat) : Nat :=
  let x := s.wear.part.get p
  let now := s.utcSec
  if p < 4 then
    match s.partVal p, x.rate with
    | some v, some r => if 100 ≤ v then 0 else if r = 0 then lifeNone else satN lifeNone ((100 - v).toNat * 24 * 2 ^ 32 / r)
    | _, _ => lifeNone
  else if p = 4 then
    match within 30 x.daily with
    | (d1, w1) :: r =>
      match r.getLast? with
      | some (d0, w0) => if w1 ≤ w0 ∨ d1 ≤ d0 then lifeNone
          else satN lifeNone ((roundFree ((10 ^ 12 * 65536 - w1) * 24 * (d1 - d0)) (w1 - w0)).toNat)
      | none => lifeNone
    | [] => lifeNone
  else if p = 5 then
    match x.daily with
    | (_, v) :: _ :: _ => if v ≤ 490 then 0 else satN lifeNone ((hoursTo (within 365 x.daily) now 490 1 false).getD lifeNone)
    | _ => lifeNone
  else partLine (within 90 x.daily) now (if p = 6 then 1000 else 2000)

/-- R362: one part at an evaluation. -/
def State.wearPart (s : State) (p : Nat) : State :=
  let x := s.wear.part.get p
  let life := s.partLife p
  let low := decide (life < 8760)
  let s1 := s.setWear fun y => { y with part := s.wear.part.set p { x with low := low } }
  let s2 := (s1.put (F.WEAR_PART_LIFE_HOURS p) life).put (F.WEAR_PART_VAL_VALUE p) (codeOf 32 ((s.partVal p).getD 0))
  s2.eventIf (low && !x.low) Ev.WEAR_MODULE_EOL noInst [.w p, .w life]

/-- R362: all parts; the module's life is the shortest. -/
def State.wearParts (s : State) : State :=
  let s1 := s.forN 8 State.wearPart
  let best := (List.range 8).foldl (fun b p => if s1.get (F.WEAR_PART_LIFE_HOURS p) < s1.get (F.WEAR_PART_LIFE_HOURS b) then p else b) 0
  (s1.put F.WEAR_MOD_LIFE_HOURS (s1.get (F.WEAR_PART_LIFE_HOURS best))).put F.WEAR_MOD_PART_PART best

/-- R362: a daily measure of a part. -/
def State.partDay (s : State) (day : Int) (p : Nat) (v : Option Int) : State :=
  let x := s.wear.part.get p
  match v with
  | none => s
  | some v =>
    let y : WearPart := { x with daily := ((day, v) :: x.daily).take 366 }
    let z : WearPart := if p < 4 then
      match x.last with
      | some l =>
        let inc := (v.toNat - l) * 2 ^ 32
        { y with last := some v.toNat, rate := some (match x.rate with
            | some r => rateStep r inc (s.get F.WEAR_EWMA_TS)
            | none => inc) }
      | none => { y with last := some v.toNat }
      else y
    s.setWear fun x => { x with part := s.wear.part.set p z }

/-- WEAR_DAILY (R353, R354, R362): the end of a UTC day, with the day's mean offset of the TCXO in LOCKED and the mean
correction of the RTC (0.01 ppm), where there is one. -/
def execWearDaily (t : Nat) (tcxo rtc : Option Int) (s : State) : Host.Outcome State Fault Refusal :=
  atTime t s fun s => s.inDom domVOTE fun s =>
    let today := s.utcSec / 86400
    let s0 := s.setWear fun x => { x with day := some today }
    match s.wear.day with
    | none => s0
    | some d =>
      if today ≤ d then s
      else
        let s1 := s0.wearCells.foldl (fun s k => s.wearDay d k) s0
        let s2 := (s1.partDay d 6 tcxo).partDay d 7 rtc
        let s3 := s2.forN 4 fun s p => s.partDay d p (s.partVal p)
        let s4 := (s3.partDay d 4 (some (s.log.written : Int))).partDay d 5 (s.partVal 5)
        let excess : Bool := match rtc with
          | some v => decide (2000 ≤ v ∨ v ≤ -2000)
          | none => s.wear.driftLow
        (s4.setWear fun x => { x with driftLow := excess }).eventIf (excess && !s.wear.driftLow) Ev.WEAR_RTC_DRIFT noInst
          [.w (rtc.getD 0)]

/-- R357: a request of the wear engine for a cell is waiting or outstanding. -/
def State.wearAsking (s : State) (k : Nat) : Bool :=
  let r := s.ring (ringOf k)
  let is (q : MbxReq) : Bool := q.dst == k % 128 && match q.purpose with
    | .wearRead _ => true
    | .wearWrite _ => true
    | _ => false
  r.queue.any is || match r.out with
    | some o => is o.req
    | none => false

/-- WEAR_EVALUATION (R355–R359, R362): TIME_OPSEC has passed a multiple of 3,600 s; one evaluation, however many it
passed. -/
def execWearEvaluation (t : Nat) (s : State) : Host.Outcome State Fault Refusal :=
  atTime t s fun s => s.inDom domVOTE fun s =>
    let s0 := s.countLife
    let hour := s0.get64 R.TIME_OPSEC_LO R.TIME_OPSEC_HI / 3600
    if hour = s.wear.hour ∨ !s.flag F.WEAR_CFG_EN then s0
    else
      let s1 := ((s0.setWear fun x => { x with hour := hour }).countWrap F.WEAR_STATUS_EVALS).put64 R.WEAR_LAST_EVAL_LO
        R.WEAR_LAST_EVAL_HI s0.mtNs
      let rets := s1.wear.rets.filter fun t => decide (s1.mtUnits < t + 86400 * uS)
      let s2 := ((s1.setWear fun x => { x with rets := rets }).putSat F.WEAR_STATUS_RET_24H rets.length)
      let s3 := s2.wearCells.foldl State.wearEval s2
      let s4 := s3.wearCells.foldl (fun s k =>
        if s.wearAsking k then s else if (s.wcell k).unread.isEmpty then s.wearWrite k else s.wearAsk k) s3
      let s5 := s4.wearPhases fun s k => s.wearCan k && decide (s.get (F.WEAR_CELL_LIFE_HOURS k) < s.get F.WEAR_POLICY_NONURG_H)
      s5.wearParts

/-- WEAR_RECORD_FAIL (R357): a record not read or not written for 24 h. -/
def execWearRecordFail (t : Nat) (k : CellIx) (s : State) : Host.Outcome State Fault Refusal :=
  atTime t s fun s => s.inDom domVOTE fun s =>
    let x := s.wcell k
    match x.failAt with
    | some a =>
      if a + 86400 * uS ≤ s.now ∧ !x.failLog then
        (s.setWcell k { x with failLog := true }).event Ev.WEAR_RECORD_FAIL k [.w (k : Nat)]
      else s
    | none => s

/-- R346, R351: a write of WEAR_STATUS: FAULT and MATRIX_PARTIAL are cleared by a Service session only; clearing FAULT
ends the suspension. -/
def State.wearStatusWrite (s : State) (n : Nat) (value mask : Word) : Status × State :=
  let hit := value &&& mask
  let need : Status := if hit &&& 3#32 = 0#32 then .ok else s.needLevel n 2
  s.writeIf n R.WEAR_STATUS value mask need fun s =>
    if bit hit.toNat 0 then s.put F.WEAR_STATUS_SUSPENDED 0 else s

/-- WEAR_FAULT_CLEAR (R346). -/
def execWearFaultClear (t : Nat) (n : SessIx) (value mask : Word) (s : State) : Host.Outcome State Fault Refusal :=
  atTime t s fun s => s.access n domVOTE fun s => s.wearStatusWrite n value mask

/-- R350, R351: a write of WEAR_RF_SEL snapshots the named cell's matrix into the window. -/
def State.wearSelect (s : State) (n : Nat) (value mask : Word) : Status × State :=
  s.writeThen n R.WEAR_RF_SEL value mask fun s =>
    let m := s.wear.matrix.get (s.get F.WEAR_RF_SEL_CELL)
    s.forN 256 fun s i => s.setWord (R.WEAR_RF (i / 16) (i % 16)) (BitVec.ofNat 32 (m.get i))

/-- WEAR_RF_SELECT (R350, R351). -/
def execWearRfSelect (t : Nat) (n : SessIx) (value mask : Word) (s : State) : Host.Outcome State Fault Refusal :=
  atTime t s fun s => s.access n domVOTE fun s => s.wearSelect n value mask

end Sys2Proof.Machine
end

