-- ==== Sys2Proof/Machine/Safe.lean ====
section
/-! DEFINITION. The safety island: inputs, states, outputs, tokens, connections and parameters (R364–R389). The island's
own oscillators are taken to keep elapsed root time. -/

namespace Sys2Proof.Machine

abbrev iSELFTEST : Nat := 0
abbrev iSTARTUP : Nat := 1
abbrev iWAITRESET : Nat := 2
abbrev iARMED : Nat := 3
abbrev iLOCKED : Nat := 4

abbrev kOFF : Nat := 0
abbrev kWAIT : Nat := 1
abbrev kVALID : Nat := 2
abbrev kERROR : Nat := 3
abbrev kLOST : Nat := 4

def State.island (s : State) : Nat := s.get F.SAFE_STATE_STATE

/-! ### Parameters (R384, R385) -/

def SafeSt.discMs (x : SafeSt) (pair : Nat) : Nat := leAt x.param (16 + 2 * pair) 2
def SafeSt.flag (x : SafeSt) (b : Nat) : Bool := bit (byteAt x.param 20) b
def SafeSt.consEn (x : SafeSt) (c : Nat) : Bool := bit (byteAt x.param (41 + 12 * c)) 0
def SafeSt.consId (x : SafeSt) (c : Nat) : Nat := leAt x.param (32 + 12 * c) 4
def SafeSt.wdogMs (x : SafeSt) (c : Nat) : Nat := leAt x.param (36 + 12 * c) 2
def SafeSt.dlen (x : SafeSt) (c : Nat) : Nat := byteAt x.param (38 + 12 * c)
def SafeSt.permitBit (x : SafeSt) (c : Nat) : Nat := byteAt x.param (39 + 12 * c)
def SafeSt.consSub (x : SafeSt) (c : Nat) : Nat := byteAt x.param (40 + 12 * c)
def SafeSt.prodEn (x : SafeSt) (q : Nat) : Bool := bit (byteAt x.param (87 + 12 * q)) 0
def SafeSt.prodId (x : SafeSt) (q : Nat) : Nat := leAt x.param (80 + 12 * q) 4
def SafeSt.issueMs (x : SafeSt) (q : Nat) : Nat := leAt x.param (84 + 12 * q) 2
def SafeSt.prodPub (x : SafeSt) (q : Nat) : Nat := byteAt x.param (86 + 12 * q)

/-- R384, R385: the island's own test of a set: SCRC, MAGIC, PVER, every range of the enabled connections and of the
common fields, and the uniqueness of CONN_ID. -/
def safeParamOk (l : List Byte) : Bool :=
  let x : SafeSt := { param := l }
  let cons := (List.range 4).filter x.consEn
  let prods := (List.range 2).filter x.prodEn
  let ids := cons.map x.consId ++ prods.map x.prodId
  l.length == 236 && leAt l 232 4 == crcSafe 0x5AFE0007 (l.take 232) && leAt l 0 4 == 0x53414650 && leAt l 4 2 == 1 &&
    decide (10 ≤ x.discMs 0 ∧ x.discMs 0 ≤ 500 ∧ 10 ≤ x.discMs 1 ∧ x.discMs 1 ≤ 500) && byteAt l 20 < 8 &&
    cons.all (fun c => x.consId c != 0 && decide (2 ≤ x.wdogMs c ∧ x.wdogMs c ≤ 1000 ∧ 1 ≤ x.dlen c ∧ x.dlen c ≤ 8) &&
      decide (x.permitBit c < 8 * x.dlen c)) &&
    prods.all (fun q => x.prodId q != 0 && decide (1 ≤ x.issueMs q ∧ x.issueMs q ≤ 500)) &&
    decide ids.Nodup

/-- R385: a set comes into use. -/
def State.safeTake (s : State) (l : List Byte) : State :=
  let x : SafeSt := { param := l }
  let s0 := (s.setSafe fun y => { y with param := l, held := none, cons := [], prod := [] }).put F.SAFE_STATE_PARAM_PENDING 0
  let s1 := (s0.put F.SAFE_PARAM_ID_ID (leAt l 8 4)).put F.SAFE_PARAM_SIG_SIG (leAt l 232 4)
  let s2 := s1.forN 32 fun s i => s.put (F.SAFE_ENABLE_MASK (i / 4) (i % 4)) (leAt l (104 + 16 * (i / 4) + 4 * (i % 4)) 4)
  let s3 := s2.forN 4 fun s c => (s.put (F.SAFE_CONS_STAT_STATE c) (if x.consEn c then kWAIT else kOFF)).put
    (F.SAFE_CONS_STAT_PERMIT c) 0
  let s4 := s3.forN 2 fun s q => s.putB (F.SAFE_PROD_STAT_EN q) (x.prodEn q)
  s4.event Ev.SAFE_PARAM noInst [.w (leAt l 8 4), .w (leAt l 232 4)]

/-- R385: section 0x07 arrives as an image is loaded. A set that fails is cause PARAM; a valid one is taken at once in
LOCKED_OUT, kept for the end of the self-test in SELFTEST, and held in every other state. -/
def State.safeParam (s : State) (l : List Byte) : State :=
  if !s.works domSAFE then s
  else if !safeParamOk l then s.setSafe fun x => { x with badParam := true }
  else if s.island = iLOCKED then s.safeTake l
  else
    let s1 := s.setSafe fun x => { x with held := some l }
    if s.island = iSELFTEST then s1 else s1.put F.SAFE_STATE_PARAM_PENDING 1

/-! ### Causes (R374) -/

/-- R367–R369, R374: the causes present, as the nine bits of SAFE_CAUSE. -/
def State.safeCauses (s : State) (out : Bool) : Nat :=
  let x := s.safe
  let door := !(s.flag F.SAFE_INPUTS_DOOR_A && s.flag F.SAFE_INPUTS_DOOR_B)
  let estop := !(s.flag F.SAFE_INPUTS_ESTOP_A && s.flag F.SAFE_INPUTS_ESTOP_B)
  let conn := (List.range 4).any fun c => x.consEn c &&
    !(s.get (F.SAFE_CONS_STAT_STATE c) == kVALID && s.flag (F.SAFE_CONS_STAT_PERMIT c))
  b2n (door && s.island != iSTARTUP) + 2 * b2n estop + 4 * b2n conn + 8 * b2n (!x.disc.isEmpty) + 16 * b2n x.tpBad +
    32 * b2n (out || x.outBad) + 64 * b2n x.internal + 128 * b2n x.badParam + 256 * b2n x.stuck

/-- R374: a cause has appeared: it is counted and logged. The channel that saw a fault is not stated for every fault:
it is free. -/
def State.safeNote (s : State) (b : Nat) : State :=
  if b < 2 then (s.count F.SAFE_CNT_DEMANDS 1).event Ev.SAFE_DEMAND noInst [.w b]
  else ((s.count F.SAFE_CNT_FAULTS 1).event Ev.SAFE_FAULT noInst [.w b, .w (s.freeVal % 2 : Nat)]).freeStep

/-- R374: NOW and LATCH after a look at the causes. -/
def State.safeShow (s : State) (now : Nat) : State :=
  let old := s.get F.SAFE_CAUSE_NOW
  let s1 := (s.put F.SAFE_CAUSE_NOW now).put F.SAFE_CAUSE_LATCH (s.get F.SAFE_CAUSE_LATCH ||| now)
  let s2 := s1.setSafe fun x => { x with pulse := x.pulse.map fun p => (p.1, p.2 ||| now) }
  ((List.range 9).filter fun b => bit now b && !bit old b).foldl State.safeNote s2

/-! ### Tokens (R377, R378) -/

/-- R377: a new token: TSEQ advances and the ENABLE bits follow the state. -/
def State.token (s : State) : State :=
  let on := s.island = iARMED
  let s1 := (s.countWrap F.SAFE_TSEQ_TSEQ).put F.SAFE_STATE_ENABLING (if on then 1 else 0)
  s1.setSafe fun x => { x with tokAt := some s.now }

/-- R378: an off-token at once, PRESENT in the next schedule frame of every ring. -/
def State.offToken (s : State) : State :=
  if s.flag F.SAFE_STATE_ENABLING then s.token.setSafe fun x => { x with urgent := [0, 1, 2, 3, 4, 5, 6, 7] } else s

/-- R377: the ENABLE bytes of the token for a ring, 16 bytes. -/
def State.tokenBytes (s : State) (r : Nat) : List Byte :=
  if s.flag F.SAFE_STATE_ENABLING then (List.range 4).flatMap fun w => leBytes 4 (s.get (F.SAFE_ENABLE_MASK r w))
  else List.replicate 16 0

/-! ### States (R370) -/

/-- R370: a transition. Outputs are on only in ARMED (R375). -/
def State.safeGo (s : State) (dest : Nat) : State :=
  let from_ := s.island
  let on := if dest = iARMED then 1 else 0
  let s1 := (((s.put F.SAFE_STATE_STATE dest).put F.SAFE_STATE_OUT_A on).put F.SAFE_STATE_OUT_B on).setSafe fun x =>
    { x with stateAt := s.now, outAt := none }
  let s2 := if dest = iLOCKED then s1.put64 R.SAFE_DEMAND_T_LO R.SAFE_DEMAND_T_HI s1.mtNs else s1
  let s3 := s2.event Ev.SAFE_STATE noInst [.w from_, .w dest, .w (s2.get F.SAFE_CAUSE_NOW)]
  if dest = iARMED then s3 else s3.offToken

/-- R370, R385: what the causes do to the state; a held set is taken in LOCKED_OUT. -/
def State.safeJudge (s : State) (now : Nat) : State :=
  let s1 := s.safeShow now
  let s2 := if (s1.island = iWAITRESET ∨ s1.island = iARMED) ∧ now ≠ 0 then s1.safeGo iLOCKED else s1
  match s2.safe.held with
  | some l => if s2.island = iLOCKED then s2.safeTake l else s2
  | none => s2

/-- SAFE_EVALUATION (R364, R365, R370, R374, R375): every 250 µs: whether the channels' decisions disagree, whether an
oscillator is more than 2 % off, and the read-back of both outputs. -/
def execSafeEvaluation (t : Nat) (differ oscOff backA backB : Bool) (s : State) : Host.Outcome State Fault Refusal :=
  atTime t s fun s => s.inDom domSAFE fun s =>
    if s.island = iSELFTEST ∨ !s.quiet s.safe.evalAt (250 * uUs) then s
    else
      let n := if differ then s.safe.disagree + 1 else 0
      let cmd := s.island = iARMED
      let out := backA != decide cmd || backB != decide cmd
      let s1 := s.setSafe fun x =>
        { x with evalAt := some s.now, disagree := n, internal := x.internal || oscOff || decide (2 ≤ n) }
      let s2 := (s1.putB F.SAFE_STATE_OUT_A backA).putB F.SAFE_STATE_OUT_B backB
      (s2.safeJudge (s2.safeCauses out)).setSafe fun x => { x with outBad := false }

/-! ### Inputs (R367–R369, R371, R372) -/

def safeInput (i : Nat) : Fld := match i with
  | 0 => F.SAFE_INPUTS_DOOR_A
  | 1 => F.SAFE_INPUTS_DOOR_B
  | 2 => F.SAFE_INPUTS_ESTOP_A
  | 3 => F.SAFE_INPUTS_ESTOP_B
  | _ => F.SAFE_INPUTS_RESET

/-- R371: the start-up test after a change of a door. -/
def State.startupTest (s : State) : State :=
  let a := s.flag F.SAFE_INPUTS_DOOR_A
  let b := s.flag F.SAFE_INPUTS_DOOR_B
  if s.island ≠ iSTARTUP then s
  else if !a && !b then s.setSafe fun x => { x with step1 := true }
  else if a && b && s.safe.step1 then
    let d := max (s.safe.inAt.get 0) (s.safe.inAt.get 1) - min (s.safe.inAt.get 0) (s.safe.inAt.get 1)
    if d ≤ s.safe.discMs 0 * uMs then
      ((s.put F.SAFE_INPUTS_STARTUP_DONE 1).event Ev.SAFE_STARTUP_TEST noInst []).safeGo iWAITRESET
    else s
  else s

/-- SAFE_SELFTEST_DONE (R370, R385): the self-test ends. -/
def execSafeSelftestDone (t : Nat) (pass : Bool) (s : State) : Host.Outcome State Fault Refusal :=
  atTime t s fun s => s.inDom domSAFE fun s =>
    if s.island ≠ iSELFTEST then s
    else
      let x := s.safe
      let good := pass && !x.internal && !x.badParam && x.held.isSome
      let s1 := s.setSafe fun y => { y with internal := y.internal || !pass, badParam := y.badParam || y.held.isNone }
      if good then
        match x.held with
        | some l => ((s1.safeTake l).safeGo iSTARTUP).startupTest
        | none => s1
      else
        let now := s1.safeCauses false &&& 0xC0
        (s1.safeShow now).safeGo iLOCKED

/-- R372: the falling edge of SAFE_RESET: RESET_INPUT clears, and the pulse is judged; a demand of the same evaluation
wins (R389). A pulse that ends sooner than 0.5 s after the state was entered, or in another state, arms nothing. -/
def State.resetFall (s : State) : State :=
  let p := s.safe.pulse
  let s1 := (s.put F.SAFE_INPUTS_RESET 0).setSafe fun x => { x with stuck := false, pulse := none }
  match p with
  | none => s1
  | some (rise, seen) =>
    let len := s.now - rise
    let now := seen ||| s.safeCauses (s.get F.SAFE_STATE_OUT_A ≠ b2n (s.island = iARMED))
    if len < 200 * uMs then s1
    else if 5000 * uMs < len then s1.event Ev.SAFE_RESET_REJECTED noInst [.w 0xFF]
    else match (List.range 9).find? (bit now) with
      | some b => s1.event Ev.SAFE_RESET_REJECTED noInst [.w b]
      | none =>
        if (s.island = iWAITRESET ∨ (s.island = iLOCKED ∧ s.flag F.SAFE_INPUTS_STARTUP_DONE)) ∧
            s.safe.stateAt + 500 * uMs ≤ s.now then
          ((s1.put F.SAFE_CAUSE_LATCH 0).put F.SAFE_CAUSE_NOW 0).safeGo iARMED
        else s1

/-- SAFE_INPUT_FILTERED (R368): an input has held a new level for 3 ms. A SAFE_RESET whose filter ends within 3 ms of
power-up conducted at power-up: it is no pulse (R389). -/
def execSafeInputFiltered (t : Nat) (i : Fin 5) (level : Bool) (s : State) : Host.Outcome State Fault Refusal :=
  atTime t s fun s => s.inDom domSAFE fun s =>
    if s.flag (safeInput i) = level then s
    else if i.val = 4 then
      if level then
        (s.put F.SAFE_INPUTS_RESET 1).setSafe fun x =>
          { x with inAt := x.inAt.set 4 s.now,
                   pulse := if s.now ≤ x.upAt + 3 * uMs then none else some (s.now, s.get F.SAFE_CAUSE_NOW) }
      else s.resetFall
    else
      let s1 := (s.putB (safeInput i) level).setSafe fun x => { x with inAt := x.inAt.set i.val s.now }
      let pair := i.val / 2
      let same := s1.flag (safeInput (2 * pair)) = s1.flag (safeInput (2 * pair + 1))
      let s2 := if same then s1.setSafe fun x => { x with disc := x.disc.filter (· != pair) } else s1
      if pair = 0 then s2.startupTest else s2

/-- SAFE_RESET_PULSE (R372): the falling edge of a SAFE_RESET pulse. -/
def execSafeResetPulse (t : Nat) (s : State) : Host.Outcome State Fault Refusal :=
  atTime t s fun s => s.inDom domSAFE fun s => if s.flag F.SAFE_INPUTS_RESET then s.resetFall else s

/-- SAFE_RESET_STUCK (R372): SAFE_RESET has conducted for 60 s. -/
def execSafeResetStuck (t : Nat) (s : State) : Host.Outcome State Fault Refusal :=
  atTime t s fun s => s.inDom domSAFE fun s =>
    if s.flag F.SAFE_INPUTS_RESET ∧ s.safe.inAt.get 4 + 60 * uS ≤ s.now then
      s.setSafe fun x => { x with stuck := true }
    else s

/-- SAFE_DISCREPANCY (R369): the channels of a pair have differed for its discrepancy time. -/
def execSafeDiscrepancy (t : Nat) (pair : Fin 2) (s : State) : Host.Outcome State Fault Refusal :=
  atTime t s fun s => s.inDom domSAFE fun s =>
    let a := 2 * pair.val
    let at_ := max (s.safe.inAt.get a) (s.safe.inAt.get (a + 1))
    let lead := if s.safe.inAt.get (a + 1) = at_ ∧ s.safe.inAt.get a ≠ at_ then 1 else 0
    if s.flag (safeInput a) ≠ s.flag (safeInput (a + 1)) ∧ at_ + s.safe.discMs pair * uMs ≤ s.now ∧
        !s.safe.disc.contains pair.val then
      (s.setSafe fun x => { x with disc := pair.val :: x.disc }).event Ev.SAFE_DISCREPANCY noInst [.w (pair : Nat), .w lead]
    else s

/-- SAFE_TEST_PULSE (R367): a dark pulse of a test-pulse output, and the inputs (bits 0–4) that conducted in it as
R367 calls a short. -/
def execSafeTestPulse (t : Nat) (which : Fin 2) (short : Fin 32) (s : State) : Host.Outcome State Fault Refusal :=
  atTime t s fun s => s.inDom domSAFE fun s =>
    let d := s.safe.flag 0
    let e := s.safe.flag 1
    let watched := (if d then 3 else 0) + (if e then 12 else 0) + (if d || e then 16 else 0)
    if !(d || e) || !s.quiet (s.safe.tpAt.get which) (100 * uMs) then s
    else
      s.setSafe fun x =>
        let y := { x with tpAt := x.tpAt.set which (some s.now) }
        if short.val &&& watched ≠ 0 then { y with tpBad := true, tpClean := [] }
        else
          let c := which.val :: y.tpClean
          if c.contains 0 && c.contains 1 then { y with tpBad := false, tpClean := [] } else { y with tpClean := c }

/-- SAFE_OUTPUT_PULSE (R375): a dark pulse of each output in ARMED, and whether its read-back showed it. -/
def execSafeOutputPulse (t : Nat) (darkA darkB : Bool) (s : State) : Host.Outcome State Fault Refusal :=
  atTime t s fun s => s.inDom domSAFE fun s =>
    if s.island = iARMED ∧ s.safe.flag 2 ∧ s.quiet s.safe.outAt (500 * uMs) then
      s.setSafe fun x => { x with outAt := some s.now, outBad := x.outBad || !darkA || !darkB }
    else s

/-- SAFE_TOKEN_ISSUE (R377): every 250 µs. -/
def execSafeTokenIssue (t : Nat) (s : State) : Host.Outcome State Fault Refusal :=
  atTime t s fun s => s.inDom domSAFE fun s => if s.quiet s.safe.tokAt (250 * uUs) then s.token else s

/-! ### Connections (R381, R382) -/

def State.setCons (s : State) (c : Nat) (x : SafeCons) : State := s.setSafe fun y => { y with cons := y.cons.set c x }

/-- R381: the first of the tests of an acceptance that a PDU fails, numbered 1–6 in the order of the rule. -/
def State.pduFail (s : State) (c : Nat) (l : List Byte) : Option Nat :=
  let p := s.safe
  let x := p.cons.get c
  let n := p.dlen c
  let dseq := (leAt l 5 2 + 65536 - s.get (F.SAFE_CONS_STAT_SEQ c)) % 65536
  let dtime := (leAt l 7 4 + 2 ^ 32 - x.ptime) % 2 ^ 32
  if byteAt l 0 ≠ 1 then some 1
  else if l.length ≠ 15 + n then some 2
  else if leAt l 1 4 ≠ p.consId c then some 3
  else if leAt l (11 + n) 4 ≠ crcSafe (p.consId c) (l.take (11 + n)) then some 4
  else if x.first then none
  else if dseq = 0 ∨ 32767 < dseq then some 5
  else if dtime = 0 ∨ p.wdogMs c < dtime then some 6
  else none

/-- R381: a PDU handed to the island for a consumer connection: a repetition, an error or accepted. In ERROR an
accepted PDU leaves the state. -/
def State.safePdu (s : State) (c : Nat) (l : List Byte) : State :=
  let x := s.safe.cons.get c
  let st := s.get (F.SAFE_CONS_STAT_STATE c)
  if !s.works domSAFE || !s.safe.consEn c || st == kOFF then s
  else if x.last = some l then s
  else match s.pduFail c l with
    | some f =>
      let s1 := ((s.put (F.SAFE_CONS_STAT_STATE c) kERROR).count (F.SAFE_CONS_STAT_ERRORS c) 1).setCons c { x with errAt := s.now }
      s1.event Ev.SAFE_CONN_ERROR noInst [.w c, .w f]
    | none =>
      let permit := bit (byteAt l (11 + s.safe.permitBit c / 8)) (s.safe.permitBit c % 8)
      let s1 := (s.put (F.SAFE_CONS_STAT_SEQ c) (leAt l 5 2)).putB (F.SAFE_CONS_STAT_PERMIT c) permit
      let s2 := s1.setCons c { x with last := some l, ptime := leAt l 7 4, okAt := s.now, first := false }
      if st = kERROR then s2 else s2.put (F.SAFE_CONS_STAT_STATE c) kVALID

/-- SAFE_CONN_LOST (R381): no PDU accepted for WDOG_MS. -/
def execSafeConnLost (t : Nat) (c : Fin 4) (s : State) : Host.Outcome State Fault Refusal :=
  atTime t s fun s => s.inDom domSAFE fun s =>
    if s.get (F.SAFE_CONS_STAT_STATE c) = kVALID ∧ (s.safe.cons.get c).okAt + s.safe.wdogMs c * uMs ≤ s.now then
      (s.put (F.SAFE_CONS_STAT_STATE c) kLOST).event Ev.SAFE_CONN_LOST noInst [.w (c : Nat)]
    else s

/-- SAFE_CONN_RECOVER (R381): no further error for 4 × WDOG_MS. -/
def execSafeConnRecover (t : Nat) (c : Fin 4) (s : State) : Host.Outcome State Fault Refusal :=
  atTime t s fun s => s.inDom domSAFE fun s =>
    let x := s.safe.cons.get c
    if s.get (F.SAFE_CONS_STAT_STATE c) = kERROR ∧ x.errAt + 4 * s.safe.wdogMs c * uMs ≤ s.now then
      (s.put (F.SAFE_CONS_STAT_STATE c) kWAIT).setCons c { x with first := true }
    else s

/-- R382: the safe data of the producer connections. -/
def State.safeData (s : State) : Nat :=
  let now := s.get F.SAFE_CAUSE_NOW
  b2n (s.island = iARMED) + 2 * b2n (now % 4 ≠ 0) + 4 * b2n (now / 4 ≠ 0) + 8 * s.get F.SAFE_INPUTS_STARTUP_DONE +
    16 * s.island + 128 * s.get F.SAFE_CAUSE_LATCH

/-- SAFE_PDU_ISSUE (R382, R253): every ISSUE_MS, and at once on a change of the safe data. -/
def execSafePduIssue (t : Nat) (q : Fin 2) (s : State) : Host.Outcome State Fault Refusal :=
  atTime t s fun s => s.inDom domSAFE fun s =>
    let x := s.safe.prod.get q
    let d := s.safeData
    if s.safe.prodEn q ∧ (s.quiet x.at_ (s.safe.issueMs q * uMs) ∨ x.data ≠ d) then
      let s1 := (s.countWrap (F.SAFE_PROD_STAT_SEQ q)).setSafe fun y =>
        { y with prod := y.prod.set q { at_ := some s.now, data := d } }
      let id := s.safe.prodId q
      let b := leBytes 1 1 ++ leBytes 4 id ++ leBytes 2 (s1.get (F.SAFE_PROD_STAT_SEQ q)) ++
        leBytes 4 ((s.now - s.safe.upAt) / uMs) ++ leBytes 2 d
      s1.pubPdu (s.safe.prodPub q) (b ++ leBytes 4 (crcSafe id b))
    else s

/-- R370, R415: SAFE comes on: every register at reset, SELFTEST, and a SAFE_RESET that conducts is no pulse (R389). -/
def State.safePowerUp (s : State) : State :=
  let rs : List Reg := [R.SAFE_STATE, R.SAFE_CAUSE, R.SAFE_INPUTS, R.SAFE_PARAM_ID, R.SAFE_PARAM_SIG, R.SAFE_TSEQ, R.SAFE_CNT,
    R.SAFE_DEMAND_T_LO, R.SAFE_DEMAND_T_HI] ++ (List.range 4).map R.SAFE_CONS_STAT ++ (List.range 2).map R.SAFE_PROD_STAT ++
    (List.range 32).map fun i => R.SAFE_ENABLE (i / 4) (i % 4)
  let s1 := rs.foldl (fun s r => s.setWord r (resetWord r)) s
  s1.setSafe fun _ => { upAt := s.now, stateAt := s.now }

end Sys2Proof.Machine
end

