-- ==== Sys2Proof/Machine/Ana.lean ====
section
/-! DEFINITION. Comparators, bitstream inputs, the integrating converter and the auxiliary legs (R133, R137, R390–R413). -/

namespace Sys2Proof.Machine

def State.cmp (s : State) (c : Nat) : CmpX := s.ana.cmp.get c
def State.setCmp (s : State) (c : Nat) (x : CmpX) : State := s.setAna fun y => { y with cmp := s.ana.cmp.set c x }
def State.trip (s : State) (c : Nat) : Bool := s.flag (F.CMP_STAT_TRIP c)
def State.settled (s : State) (c : Nat) : Bool := s.flag (F.CMP_STAT_SETTLED c)

/-! ### Routes (R394) -/

/-- R394: the legs whose trip inputs a channel drives. -/
def State.cmpLegs (s : State) (c : Nat) : List Nat :=
  if 12 ≤ c then [c - 12] else (List.range 24).filter fun l => bit (s.get (F.CMP_ROUTE_LEGS c)) l

/-- R78, R394: the rings whose halt injectors a channel drives. -/
def State.cmpRings (s : State) (c : Nat) : List Nat :=
  (List.range 8).filter fun r =>
    if 12 ≤ c then bit (s.get (F.RING_HALT_LEG_LEG r)) (c - 12) else bit (s.get (F.RING_HALT_CMP_CMP r)) c

/-- R394: a trip channel. -/
def State.isTripCh (s : State) (c : Nat) : Bool := !(s.cmpLegs c).isEmpty || !(s.cmpRings c).isEmpty

/-- R78: SRC_CLASS and SRC_CH of a channel's halts. -/
def haltSrc (c : Nat) : Nat × Nat := if 12 ≤ c then (1, c - 12) else (0, c)

/-- R394: the channels routed to a leg. -/
def State.legCmps (s : State) (l : Nat) : List Nat := (List.range 36).filter fun c => (s.cmpLegs c).contains l

/-- R394: the trip input of a leg. -/
def State.tripInput (s : State) (l : Nat) : Bool := (s.legCmps l).any s.trip

/-! ### Trips of a leg (R133) -/

/-- R133: the trips of a leg within its last W periods, the present one the last. -/
def State.legTrips (s : State) (l : Nat) : List Nat :=
  let p : Int := max 1 (s.get (F.PWM_LEG_CFG_CAR_P l))
  let now : Int := s.mtUnits
  let start := now - (now - s.get (F.PWM_LEG_OFF_OFF l)) % p
  let from_ := start - ((s.get (F.PWM_LEG_TRIP_W l) : Int) - 1) * p
  (s.leg l).trips.filter fun (t : Nat) => decide (from_ ≤ (t : Int))

/-- R133: one trip of a leg: the pulse ends at once (its output is low while the trip input is active). -/
def State.legTrip (s : State) (l : Nat) : State :=
  let ts := s.mtUnits :: s.legTrips l
  ((s.setLegX l { s.leg l with trips := ts }).putSat (F.PWM_LEG_STAT_WIN l) ts.length).count
    (F.PWM_LEG_STAT_TRIPS l) 1

/-- R133: the trip input of a leg has become clear: the leg resumes at the next on-edge. -/
def State.legClear (s : State) (l : Nat) : State :=
  if s.tripInput l then s else s.setLegX l { s.leg l with clearAt := s.mtUnits }

/-- PWM_LEG_LATCH (R133): N trips within W periods: both outputs low. -/
def execPwmLegLatch (t : Nat) (l : LegIx) (s : State) : Host.Outcome State Fault Refusal :=
  atTime t s fun s => s.inDom domANA fun s =>
    if s.get (F.PWM_LEG_TRIP_N l) ≤ (s.legTrips l).length ∧ s.get (F.PWM_LEG_STAT_LATCHED l) = 0 then
      let s1 := s.put (F.PWM_LEG_STAT_LATCHED l) 1
      let s2 := if s.legState l = gRUN then s1.legGo l gLATCHED else s1
      s2.event Ev.PWM_TRIP_LATCH noInst [.w ((l : Nat) + 0x400)]
    else s

/-- R133: a write of 1 to LATCHED asks for a release at the leg's next boundary; BUSY while its comparator is active. -/
def State.legRelease (s : State) (n l : Nat) (value mask : Word) : Status × State :=
  let one := bit (value &&& mask).toNat 0
  match (s.judgeWord n (R.PWM_LEG_STAT l) value mask).worst (if one && s.tripInput l then .busy else .ok) with
  | .ok => (.ok, if one && s.flag (F.PWM_LEG_STAT_LATCHED l) then s.setLegX l { s.leg l with release := true } else s)
  | e => (e, s)

/-- LEG_LATCH_RELEASE (R133). -/
def execLegLatchRelease (t : Nat) (n : SessIx) (l : LegIx) (value mask : Word) (s : State) :
    Host.Outcome State Fault Refusal :=
  atTime t s fun s => s.access n domVOTE fun s => s.legRelease n l value mask

/-! ### Comparators (R390–R396) -/

/-- R393, R394: the trip output becomes active: one trip of every leg whose trip input was clear, a halt of every ring. -/
def State.tripSet (s : State) (c : Nat) : State :=
  if s.trip c then s
  else
    let legs := (s.cmpLegs c).filter fun l => !s.tripInput l
    let s1 := (s.put (F.CMP_STAT_TRIP c) 1).count (F.CMP_STAT_TRIPS c) 1
    let s2 := legs.foldl State.legTrip s1
    (s.cmpRings c).foldl (fun s r => if s.works (domRING r) then s.haltInject r (haltSrc c).1 (haltSrc c).2 else s) s2

/-- R393, R79: the trip output becomes inactive. -/
def State.tripClear (s : State) (c : Nat) : State :=
  let s1 := s.put (F.CMP_STAT_TRIP c) 0
  let s2 := (s.cmpRings c).foldl (fun s r => s.haltSourceClear r (haltSrc c).1 (haltSrc c).2) s1
  (s.cmpLegs c).foldl State.legClear s2

/-- R395: the sample period of a channel's filter. -/
def State.cmpStep (s : State) (c : Nat) : Nat := uClk * 2 ^ s.get (F.CMP_CFG_FDIV c)

/-- The changes that a window needs: those inside it and the last one before it. -/
def histTrim (from_ : Nat) : List (Nat × Bool) → List (Nat × Bool)
  | [] => []
  | e :: l => if e.1 ≤ from_ then [e] else e :: histTrim from_ l

/-- The value of a channel's history at an instant. -/
def histAt (now_ : Bool) (l : List (Nat × Bool)) (t : Nat) : Bool := ((l.find? fun e => decide (e.1 ≤ t)).map (·.2)).getD now_

/-- R395: how many of the last M samples of a channel's filter have a level: the samples lie on the multiples of 4 ns ×
2^FDIV of elapsed time, in the sampled mode at the ticks. -/
def State.cmpVotes (s : State) (c : Nat) (v : Bool) : Nat :=
  let x := s.cmp c
  let m := s.get (F.CMP_CFG_M c)
  let w := s.cmpStep c
  let l : List Bool := if s.get (F.CMP_CFG_MODE c) = 6 then x.ticks.take m
    else (List.range m).map fun i => histAt x.out x.hist (s.now / w * w - i * w)
  (l.filter (· == v)).length

/-- R390: the side of its band on which a channel's input lies, as the activity that FUNC gives it; none inside the band.
The input is in 2^-20 of VREF, the thresholds in 1/1024. -/
def State.cmpSide (s : State) (c v : Nat) : Option Bool :=
  let above := decide (s.get (F.CMP_THR_HI c) * 1024 < v)
  let below := decide (v < s.get (F.CMP_THR_LO c) * 1024)
  if above then some (s.get (F.CMP_CFG_FUNC c) == 0) else if below then some (s.get (F.CMP_CFG_FUNC c) != 0) else none

/-- R393: the comparator output of a settled channel. -/
def State.cmpOut (s : State) (c : Nat) (active : Bool) : State :=
  let x := s.cmp c
  let s1 := if x.out = active then s else s.setCmp c { x with
    out := active, offAt := if active then x.offAt else s.mtUnits,
    hist := (s.now, active) :: histTrim (s.now - 16 * s.cmpStep c) x.hist }
  if active then s1.tripSet c
  else if s.get (F.CMP_CFG_LATCH c) = 0 ∧ s.trip c then s1.tripClear c
  else s1

/-- R391: a channel that follows its input without a tick. -/
def State.cmpLive (s : State) (c : Nat) : Bool :=
  let m := s.get (F.CMP_CFG_MODE c)
  s.settled c && decide (1 ≤ m ∧ m ≤ 5)

/-- CMP_TRIP (R390, R393, R394, R78): the input crosses to the side on which the comparator output is active. -/
def execCmpTrip (t : Nat) (x : CmpLevel) (s : State) : Host.Outcome State Fault Refusal :=
  atTime t s fun s => s.inDom domANA fun s => if s.cmpLive x.c && s.cmpSide x.c x.v == some true then s.cmpOut x.c true else s

/-- CMP_OUTPUT_INACTIVE (R390, R393): the input has crossed back. -/
def execCmpOutputInactive (t : Nat) (x : CmpLevel) (s : State) : Host.Outcome State Fault Refusal :=
  atTime t s fun s => s.inDom domANA fun s => if s.cmpLive x.c && s.cmpSide x.c x.v == some false then s.cmpOut x.c false else s

/-- CMP_TICK (R392): the output of a sampled channel is latched at a tick, one a cycle; inside the band it stays. -/
def execCmpTick (t : Nat) (c : CmpIx) (v : Nat) (s : State) : Host.Outcome State Fault Refusal :=
  atTime t s fun s => s.inDom domANA fun s =>
    let x := s.cmp c
    if s.settled c ∧ s.get (F.CMP_CFG_MODE c) = 6 ∧ s.cycleNow % max 1 (s.get (F.CMP_CFG_TICK c)) = 0 ∧
        x.tickK ≠ some s.cycleNow then
      let a := (s.cmpSide c v).getD x.out
      (s.setCmp c { x with tickK := some s.cycleNow, ticks := (a :: x.ticks).take 15 }).cmpOut c a
    else s

/-- CMP_FILTER_ACTIVE (R395): the majority filter's state changes. -/
def execCmpFilterActive (t : Nat) (c : CmpIx) (active : Bool) (s : State) : Host.Outcome State Fault Refusal :=
  atTime t s fun s => s.inDom domANA fun s =>
    if !s.settled c || s.get (F.CMP_CFG_MODE c) == 0 || decide (s.cmpVotes c active < s.get (F.CMP_CFG_N c)) then s
    else
      let x := s.cmp c
      let log := active && s.get (F.CMP_STAT_FILT c) == 0 && s.quiet x.logAt uS
      let s1 := (s.putB (F.CMP_STAT_FILT c) active).setCmp c
        { x with seen := x.seen || active, logAt := if log then some s.now else x.logAt }
      s1.eventIf log Ev.CMP_ACTIVE noInst [.w (c : Nat)]

/-- R396: the safe state of a channel. -/
def State.cmpSafe (s : State) (c : Nat) : Bool := s.isTripCh c || s.flag (F.CMP_CFG_SAFE c)

/-- R396, R79: a channel becomes unsettled: it takes its safe state without an edge, and a trip channel counts as a
halt source that is present. -/
def State.cmpUnsettle (s : State) (c : Nat) : State :=
  let a := s.cmpSafe c
  let s1 := ((s.put (F.CMP_STAT_SETTLED c) 0).putB (F.CMP_STAT_TRIP c) a).putB (F.CMP_STAT_FILT c) a
  let s2 := s1.setCmp c { s1.cmp c with out := a, seen := a, hist := [], ticks := List.replicate 15 a }
  (s.cmpRings c).foldl (fun s r =>
    let x := s.ring r
    if x.sources.contains (haltSrc c) then s else s.setRing r { x with sources := haltSrc c :: x.sources }) s2

/-- R396: a channel settles on a side of its band. No edge is formed where the safe state was the same. -/
def State.cmpSettle (s : State) (c : Nat) (active : Bool) : State :=
  let s1 := ((s.put (F.CMP_STAT_SETTLED c) 1).putB (F.CMP_STAT_FILT c) active).setCmp c { s.cmp c with
    out := active, offAt := s.mtUnits, hist := [], ticks := List.replicate 15 active }
  let s2 := if active then (if s1.trip c then s1 else s1.tripSet c) else if s1.trip c then s1.tripClear c else s1
  s2.event Ev.CMP_SETTLED noInst [.w c, .w (b2n active)]

/-- CMP_SETTLED (R396): the input is seen; outside the band the channel takes the state of that side. -/
def execCmpSettled (t : Nat) (c : CmpIx) (v : Nat) (s : State) : Host.Outcome State Fault Refusal :=
  atTime t s fun s => s.inDom domANA fun s =>
    if s.settled c || s.get (F.CMP_CFG_MODE c) == 0 then s
    else match s.cmpSide c v with
      | some active => s.cmpSettle c active
      | none => s

/-- R393: a write of CMP_STAT: a SOFTWARE latch clears; a clear against an active output returns BUSY; the other kinds of
latch clear in their own way only. -/
def State.cmpStatWrite (s : State) (n c : Nat) (value mask : Word) : Status × State :=
  let one := bit (value &&& mask).toNat 0
  match (s.judgeWord n (R.CMP_STAT c) value mask).worst (if one && (s.cmp c).out then .busy else .ok) with
  | .ok => (.ok, if one && s.trip c && s.get (F.CMP_CFG_LATCH c) == 1 then s.tripClear c else s)
  | e => (e, s)

/-- CMP_TRIP_CLEAR (R393). -/
def execCmpTripClear (t : Nat) (n : SessIx) (c : CmpIx) (value mask : Word) (s : State) : Host.Outcome State Fault Refusal :=
  atTime t s fun s => s.access n domANA fun s => s.cmpStatWrite n c value mask

/-- R393: the last clearing instant of a channel with a PERIOD latch: the carrier start of the leg it names, or T_k. -/
def State.clearPoint (s : State) (c : Nat) : Nat :=
  let l := s.get (F.CMP_CFG_CLR_LEG c)
  if l < 24 then
    let off := s.get (F.PWM_LEG_OFF_OFF l)
    let p := max 1 (s.get (F.PWM_LEG_CFG_CAR_P l))
    off + (s.mtUnits - off) / p * p
  else s.cycleNow * s.periodU

/-- CMP_PERIOD_CLEAR (R393, R413): the named leg's carrier start, or T_k, has come: the latch clears unless the output is
active there. -/
def execCmpPeriodClear (t : Nat) (c : CmpIx) (s : State) : Host.Outcome State Fault Refusal :=
  atTime t s fun s => s.inDom domANA fun s =>
    let at_ := s.clearPoint c
    if s.get (F.CMP_CFG_LATCH c) = 2 ∧ !(s.cmp c).out ∧ s.settled c ∧ s.trip c ∧ (s.cmp c).offAt ≤ at_ ∧ at_ ≤ s.mtUnits then
      s.tripClear c
    else s

/-- R395, R146: the activity bits of class 7 at a freeze, by field. -/
def State.cmpBits (s : State) (f : Nat) : Nat :=
  let l : List Nat := match f with
    | 0 => List.range 12
    | 1 => (List.range 16).map (· + 12)
    | _ => (List.range 8).map (· + 28)
  ((List.range l.length).zip l).foldl (fun a e => a + b2n (s.cmp e.2).seen * 2 ^ e.1) 0

/-- R395: after the freeze the bits start again from the filtered states. -/
def State.cmpFreeze (s : State) : State :=
  s.forN 36 fun s c =>
    let x := s.cmp c
    let f := s.flag (F.CMP_STAT_FILT c)
    if x.seen = f then s else s.setCmp c { x with seen := f }

/-! ### Bitstream inputs (R397–R401) -/

def State.bsi (s : State) (b : Nat) : BsiX := s.ana.bsi.get b
def State.setBsi (s : State) (b : Nat) (x : BsiX) : State := s.setAna fun y => { y with bsi := s.ana.bsi.set b x }

/-- R398: the decimation of a channel. -/
def State.osr (s : State) (b : Nat) : Nat := if s.get (F.BSI_CFG_OSR b) = 0 then 256 else s.get (F.BSI_CFG_OSR b)

/-- R398: one bit into the sinc3 filter: the number of ones in its weighted window every `osr` bits. -/
def Sinc3.bit (f : Sinc3) (osr : Nat) (v : Bool) : Sinc3 × Option Nat :=
  let m := 2 ^ 25
  let i1 := (f.i1 + b2n v) % m
  let i2 := (f.i2 + i1) % m
  let i3 := (f.i3 + i2) % m
  if f.n + 1 < osr then ({ f with i1 := i1, i2 := i2, i3 := i3, n := f.n + 1 }, none)
  else
    let c1 := (i3 + m - f.d1) % m
    let c2 := (c1 + m - f.d2) % m
    ({ i1 := i1, i2 := i2, i3 := i3, d1 := i3, d2 := c1, d3 := c2, n := 0 }, some ((c2 + m - f.d3) % m))

/-- R399: one output of the integrator, 2^-31; its rounding is free. -/
def State.bsiStep (s : State) (b : Nat) (y x : Int) : Int :=
  if s.flag (F.BSI_CFG_INT_EN b) then
    let d : Int := 2 ^ 80 * 2000000000
    let leak := 2 * piFix * (s.get (F.BSI_CFG_INT_FC b) * s.osr b : Nat)
    let gain := 2 * piFix * (s.fnom * s.osr b * 100 : Nat)
    roundFree (y * (d - leak) + gain * x) d
  else x

/-- R400: y at an instant by linear interpolation of the outputs around it (newest first). -/
def interpY (l : Int) : List (Nat × Int) → Option Int
  | b :: a :: r =>
    if (a.1 : Int) ≤ l ∧ l ≤ b.1 ∧ a.1 < b.1 then some (roundFree (a.2 * (b.1 - l) + b.2 * (l - a.1)) ((b.1 : Int) - a.1))
    else interpY l (a :: r)
  | _ => none

/-- R400, R162, R257: a 14,400 Hz sample of a channel, with the channels of its points that have the same label. -/
def State.bsiFeed (s : State) (b label : Nat) : State :=
  let run (c : Nat) : Bool := s.flag (F.BSI_STAT_RUNNING c)
  let have_ (c : Nat) : Bool := (s.bsi c).label == some label
  let s1 := s.forN 9 fun s p =>
    let l := s.bsiChans p
    if l.contains b && l.all have_ then
      let v (k : Nat) : Int := s.voltPu p (s.bsi (l.getD k 0)).val
      s.bsiPoint p (label - s.get (F.GRID_PT_DLY_BSI_DLY p) * 80) (l.all run) (v 0) (v 1) (v 2)
    else s
  s1.forN 9 fun s m =>
    if !s.flag (F.MTR_PT_CFG_SRC m) then s
    else
      let feed (s : State) (r : Reg) (current : Bool) : State :=
        let l := s.mtrChans m r
        if l.contains b && (l.filter run).all have_ then
          s.mtrSample m label 14400 current false (l.map fun c => if run c && have_ c then some (s.bsi c).val else none)
        else s
      feed (feed s (R.MTR_PT_VCH m) false) (R.MTR_PT_ICH m) true

/-- R397: a period of BSI_CLK0 and BSI_CLK1 (20 MHz), units. -/
abbrev bsiClk : Nat := 25 * uClk

/-- R397–R401: the level of BSInn_DAT at the next rising edge of its clock. -/
def State.bsiBit (s : State) (b : Nat) (x : BsiX) (at_ : Nat) (v : Bool) : BsiX :=
  let n := s.osr b
  let (f, out) := x.filt.bit n v
  let x1 := { x with clkAt := some at_, level := v, still := if v == x.level then x.still + 1 else 0, filt := f }
  match out with
  | none => x1
  | some c =>
    let d := roundFree ((2 * c - n ^ 3 : Int) * 2 ^ 31) (n ^ 3 : Nat)
    let y := s.bsiStep b ((x.ys.head?.map (·.2)).getD 0) d
    { x1 with ys := ((((at_ : Int) + s.clk.off).toNat, y) :: x.ys).take 64,
              ovr := if 95 * 2 ^ 31 ≤ 100 * d.natAbs then x.ovr + 1 else 0 }

/-- R397: the levels at the rising edges since the last one sampled, as far as they have come; the first levels of a
channel end at the present edge. -/
def State.bsiBits (s : State) (b : Nat) (x : BsiX) (bits : List Bool) : BsiX :=
  let from_ := x.clkAt.getD (s.now / bsiClk * bsiClk - bits.length * bsiClk)
  (bits.zip (List.range bits.length)).foldl (fun x e =>
    let at_ := from_ + (e.2 + 1) * bsiClk
    if at_ ≤ s.now then s.bsiBit b x at_ e.1 else x) x

/-- R400: the instants S + n / 14,400 by number, and the number of the last one up to an instant. -/
def bsiLabel (i : Nat) : Nat := i / 14400 * uS + i % 14400 * uS / 14400
def bsiIndex (mt : Nat) : Nat := mt / uS * 14400 + mt % uS * 14400 / uS

/-- R400: the numbers of the samples due since the last one: of the latest alone at first, and after a gap or a step of
module time. -/
def bsiDue (last : Option Nat) (mt : Nat) : List Nat :=
  let n := bsiIndex mt
  match last with
  | none => [n]
  | some l =>
    let k := l / uS * 14400 + (l % uS * 14400 + uS - 1) / uS
    if n = k then [] else if k < n ∧ n ≤ k + 64 then (List.range (n - k)).map (k + 1 + ·) else [n]

/-- R400: one sample of a channel, as far as its outputs bracket the instant. -/
def State.bsiEmit (s : State) (b i : Nat) : State :=
  let x := s.bsi b
  match interpY (bsiLabel i) x.ys with
  | some y =>
    (s.setBsi b { x with label := some (bsiLabel i), val := roundFree (y * s.get (F.BSI_SCALE_FS b)) (2 ^ 31) }).bsiFeed b (bsiLabel i)
  | none => s

/-- BSI_SAMPLE (R397–R401): the levels of the data line at the rising edges of the clock since the last command, and the
samples at the instants S + n / 14,400 that the filter's outputs bracket. -/
def execBsiSample (t : Nat) (b : BsiIx) (bits : List Bool) (s : State) : Host.Outcome State Fault Refusal :=
  atTime t s fun s => s.inDom domANA fun s =>
    if s.get (F.BSI_CFG_EN b) = 0 then s
    else
      let x := s.bsiBits b (s.bsi b) bits
      let s0 := s.setBsi b x
      let s1 := if x.still < 1024 then s0.put (F.BSI_STAT_RUNNING b) 1 else s0
      match x.ys with
      | [] => s1
      | (mt, newest) :: _ =>
        (bsiDue x.label mt).foldl (fun s i => s.bsiEmit b i)
          (s1.putS (F.BSI_VALUE_VALUE b) (roundFree (newest * s.get (F.BSI_SCALE_FS b)) (2 ^ 31)))

/-- R146: the newest y as Q1.15. -/
def State.bsiImport (s : State) (b : Nat) : Int := sat16 (roundFree (((s.bsi b).ys.head?.map fun z : Nat × Int => z.2).getD 0) 65536)

/-- BSI_STOPPED (R401): no change of level for 1,024 clocks. -/
def execBsiStopped (t : Nat) (b : BsiIx) (s : State) : Host.Outcome State Fault Refusal :=
  atTime t s fun s => s.inDom domANA fun s =>
    if s.flag (F.BSI_CFG_EN b) ∧ s.flag (F.BSI_STAT_RUNNING b) ∧ 1024 ≤ (s.bsi b).still then
      (((s.put (F.BSI_STAT_RUNNING b) 0).setBsi b { s.bsi b with ys := [] }).event Ev.BSI_STOPPED noInst [.w (b : Nat)]).bsiGone b
    else s

/-- BSI_OVERRANGE (R401): |x| ≥ 0.95 for 16 outputs in a row. -/
def execBsiOverrange (t : Nat) (b : BsiIx) (s : State) : Host.Outcome State Fault Refusal :=
  atTime t s fun s => s.inDom domANA fun s =>
    if s.get (F.BSI_CFG_EN b) = 0 ∨ (s.bsi b).ovr < 16 then s
    else
      let x := s.bsi b
      let log := s.quiet x.overAt uS
      ((s.put (F.BSI_STAT_OVERRANGE b) 1).setBsi b { x with overAt := if log then some s.now else x.overAt }).eventIf log
        Ev.BSI_OVERRANGE noInst [.w (b : Nat)]

/-! ### The integrating converter (R402–R407) -/

def State.setIadc (s : State) (f : IadcSt → IadcSt) : State := s.setAna fun x => { x with iadc := f s.ana.iadc }

/-- R403: a conversion starts: 100 µs of settling, then a window of LEN half periods at FREQ, rounded to 4 ns. -/
def State.convStart (s : State) (entry : Option Nat) (ch gain len : Nat) : State :=
  let p := s.get F.IADC_CFG_FPT
  let f := (s.gpt p).rep.toNat
  let ok := s.flag (F.GRID_PT_STAT_FREQ_VALID p) && f != 0
  let clk := if ok then roundDiv ((len * uS * 2 ^ 30 : Nat) : Int) ((2 * f * s.fnom * uClk : Nat) : Int)
    else roundDiv ((len * uS : Nat) : Int) ((2 * s.fnom * uClk : Nat) : Int)
  s.setIadc fun x => { x with conv := some { entry := entry, ch := ch, gain := gain, nom := !ok,
                                             ends := s.now + 100 * uUs + clk.toNat * uClk } }

/-- R404: the next conversion: a housekeeping conversion that is due, else the next entry of the round, else none. -/
def State.convNext (s : State) : State :=
  let x := s.ana.iadc
  if x.house then (s.setIadc fun x => { x with house := false }).convStart none 21 0 2
  else match x.rest with
    | (e, ch, gain, len) :: r => (s.setIadc fun x => { x with rest := r }).convStart (some e) ch gain len
    | [] => (s.setIadc fun x => { x with conv := none }).put F.IADC_STATUS_BUSY 0

/-- R403: the sequence in force. -/
def State.iadcSeq (s : State) : List (Nat × Nat × Nat × Nat) :=
  (List.range (satN 16 (s.get F.IADC_CFG_NENT))).map fun n =>
    (n, s.get (F.IADC_SEQ_CH n), s.get (F.IADC_SEQ_GAIN n), s.get (F.IADC_SEQ_LEN n))

/-- IADC_ROUND_START (R404): a multiple of ROUND_MS: a round starts, or is skipped and counted while one still runs.
ROUND_MS = 0: back to back. -/
def execIadcRoundStart (t : Nat) (s : State) : Host.Outcome State Fault Refusal :=
  atTime t s fun s => s.inDom domANA fun s =>
    let ms := s.get F.IADC_CFG_ROUND_MS
    let busy := s.flag F.IADC_STATUS_BUSY
    let due := if ms = 0 then s.mtUnits else s.mtUnits / (ms * uMs) * (ms * uMs)
    let go := if ms = 0 then !busy else decide (s.ana.iadc.lastDue < due)
    let s1 := s.setIadc fun x => { x with lastDue := s.mtUnits }
    if !go || s.get F.IADC_CFG_NENT == 0 then s1
    else
      if busy then (s1.count F.IADC_STATUS_OVERRUN 1).event Ev.IADC_OVERRUN noInst []
      else
        let s2 := (s1.setIadc fun x => { x with round := (x.round + 1) % 65536, rest := s.iadcSeq }).put F.IADC_STATUS_BUSY 1
        if s2.ana.iadc.conv.isNone then s2.convNext else s2

/-- ln 2 in 2^-60. -/
def ln2Fix : Int := 799144290325165978

/-- ln (num / den) in 2^-60: ln of the fraction brought between 1/2 and 2 by powers of 2, by the series of artanh. -/
def lnFix (num den : Nat) : Int :=
  let k : Int := (Nat.log2 num : Int) - Nat.log2 den
  let (a, b) : Int × Int := if 0 ≤ k then ((num : Int), (den : Int) * 2 ^ k.toNat) else ((num : Int) * 2 ^ (-k).toNat, (den : Int))
  let y := (a - b) * 2 ^ 60 / (a + b)
  let y2 := y * y / 2 ^ 60
  let sum := (List.range 30).foldr (fun i (z : Int) => 2 ^ 60 / ((2 * i + 1 : Nat) : Int) + y2 * z / 2 ^ 60) 0
  2 * (y * sum / 2 ^ 60) + k * ln2Fix

/-- R433: t_cp of a ratiometric result, 0.01 °C; the spec states no rounding of the quotient. -/
def State.ntcTemp (s : State) (r : Int) : Int :=
  let b : Int := max 1 (s.get F.THM_NTC_B)
  let ln := lnFix (10000 * r.toNat) ((8388608 - r.toNat) * max 1 (s.get F.THM_NTC_R25))
  roundFree (29815 * b * 2 ^ 60 * 100) (100 * b * 2 ^ 60 + 29815 * ln) - 27315

/-- R433: a result of channel 21 (r in 2^-23): valid from 0.005 to 0.995. -/
def State.cpResult (s : State) (r : Int) : State :=
  let ok := 8388608 * 5 ≤ r * 1000 ∧ r * 1000 ≤ 8388608 * 995
  let s1 := (s.setIadc fun x => { x with cpAt := s.mtUnits, house := false }).put F.THM_CP_STALE 0
  if ok then
    let v := satS 16 (s.ntcTemp r)
    ((s1.put F.THM_CP_NTC_FAULT 0).putS F.THM_CP_T_CP v).setPwr fun p => { p with cpAt := s.now, cpValid := some v }
  else
    (((s1.put F.THM_CP_NTC_FAULT 1).putS F.THM_CP_T_CP (max (s.pwr.cpValid.getD 7000) 7000)).setPwr fun p => { p with cpAt := s.now }).eventIf (!s.flag F.THM_CP_NTC_FAULT)
      Ev.THM_CP_STALE noInst [.w 1]

/-- R405, R407: a result enters the queue, or is discarded when it is full; IADC_LAST follows in both cases. -/
def State.convQueue (s : State) (c : Conv) (e : Nat) (res : Int) (excess : Bool) : State :=
  let x := s.ana.iadc
  let low := codeOf 24 res + 2 ^ 24 * b2n excess + 2 ^ 25 * b2n c.nom + 2 ^ 27
  let high := e + 16 * c.ch + 65536 * x.round
  let s0 := s.setWord (R.IADC_LAST e) (BitVec.ofNat 32 low)
  let logO := excess && s.quiet x.overAt uS
  let s1 := (s0.setIadc fun x => { x with overAt := if logO then some s.now else x.overAt }).eventIf logO Ev.IADC_OVERRANGE
    noInst [.w e]
  if x.queue.length < 64 then
    let w := BitVec.ofNat 32 (low + 2 ^ 26 * b2n x.lostBefore)
    (s1.setIadc fun x => { x with queue := x.queue ++ [(x.nextId, w, BitVec.ofNat 32 high)], nextId := x.nextId + 1,
                                  lostBefore := false }).put F.IADC_STATUS_DEPTH (x.queue.length + 1)
  else
    let log := s.quiet x.lostAt uS
    let s2 := (s1.count F.IADC_STATUS_LOST 1).setIadc fun x => { x with lostBefore := true, lostAt := if log then some s.now else x.lostAt }
    s2.eventIf log Ev.IADC_OVERFLOW noInst [.w (s2.get F.IADC_STATUS_LOST)]

/-- IADC_CONVERSION_DONE (R402–R405): the window has ended; the value measured, in LSB, before saturation. -/
def execIadcConversionDone (t : Nat) (value : Int) (s : State) : Host.Outcome State Fault Refusal :=
  atTime t s fun s => s.inDom domANA fun s =>
    match s.ana.iadc.conv with
    | none => s
    | some c =>
      if s.now < c.ends then s
      else
        let res := satS 24 value
        let s1 := s.setIadc fun x => { x with conv := none }
        let s2 := match c.entry with
          | some e => s1.convQueue c e res (res != value)
          | none => s1
        (if c.ch = 21 then s2.cpResult res else s2).convNext

/-- IADC_HOUSEKEEPING (R404): 1,000 ms without a result of channel 21. -/
def execIadcHousekeeping (t : Nat) (s : State) : Host.Outcome State Fault Refusal :=
  atTime t s fun s => s.inDom domANA fun s =>
    let x := s.ana.iadc
    if x.cpAt + 1000 * uMs ≤ s.mtUnits ∧ !x.house ∧ (x.conv.map fun c => c.entry.isNone) ≠ some true then
      let s1 := s.setIadc fun x => { x with house := true }
      if x.conv.isNone then s1.convNext else s1
    else s

/-- R406: a read of a low word: the head's, its high word latched for the session. -/
def State.qLo (s : State) (n : Nat) (peek : Bool) : Word × State :=
  match s.ana.iadc.queue with
  | (id, lo, hi) :: _ =>
    let x := s.sess n
    (lo, s.setSess n (if peek then { x with peekHi := some (id, hi) } else { x with qHi := some (id, hi) }))
  | [] => (0, s)

/-- R406: a read of a high word: the latched one, with a pop when the head is still that entry; else the head's. -/
def State.qHi (s : State) (n : Nat) (peek : Bool) : Word × State :=
  let x := s.sess n
  let q := s.ana.iadc.queue
  match if peek then x.peekHi else x.qHi with
  | some (id, hi) =>
    if peek then (hi, s.setSess n { x with peekHi := none })
    else
      let s1 := s.setSess n { x with qHi := none }
      if (q.head?.map (·.1)) = some id then
        (hi, (s1.setIadc fun x => { x with queue := q.drop 1 }).put F.IADC_STATUS_DEPTH (q.length - 1))
      else (hi, s1)
  | none => match q with
    | (_, _, hi) :: _ => (hi, s)
    | [] => (0, s)

/-- A read that answers a word. -/
def State.readAnswer (s : State) (n dom : Nat) (f : State → Word × State) : State :=
  if !s.isOn domMGMT then s
  else if !s.isOn dom then s.answer n .domainOff 0
  else let p := f s; p.2.answer n .ok p.1

/-- IADC_Q_LO_READ (R406). -/
def execIadcQLoRead (t : Nat) (n : SessIx) (s : State) : Host.Outcome State Fault Refusal :=
  atTime t s fun s => s.readAnswer n domANA fun s => s.qLo n false

/-- IADC_Q_HI_READ (R406). -/
def execIadcQHiRead (t : Nat) (n : SessIx) (s : State) : Host.Outcome State Fault Refusal :=
  atTime t s fun s => s.readAnswer n domANA fun s => s.qHi n false

/-- IADC_PEEK_LO_READ (R406). -/
def execIadcPeekLoRead (t : Nat) (n : SessIx) (s : State) : Host.Outcome State Fault Refusal :=
  atTime t s fun s => s.readAnswer n domANA fun s => s.qLo n true

/-- IADC_PEEK_HI_READ (R406). -/
def execIadcPeekHiRead (t : Nat) (n : SessIx) (s : State) : Host.Outcome State Fault Refusal :=
  atTime t s fun s => s.readAnswer n domANA fun s => s.qHi n true

/-- R146: bits [23:8] of the latest result of an entry. -/
def State.iadcImport (s : State) (e : Nat) : Int := signedOf 16 (fieldOf (s.word (R.IADC_LAST e)) 8 16)

/-! ### Auxiliary legs (R409–R412, R125) -/

/-- R409: the first condition of a start that fails. -/
def State.legRefuse (s : State) (l : Nat) : Option Nat :=
  let m := s.get (F.CMP_CFG_MODE (12 + l))
  if s.get F.PWM_DLY_STAT_CAL_OK = 0 then some 1
  else if !(decide (1 ≤ m ∧ m ≤ 3) && s.settled (12 + l)) then some 2
  else if !((s.legCmps l).all fun c => s.settled c && !s.trip c) then some 3
  else if s.flag (F.PWM_LEG_STAT_LATCHED l) then some 4
  else if !s.lanesRun then some 5
  else none

/-- R409, R279: the legs at an input freeze. -/
def State.legFreeze (s : State) : State :=
  if !s.works domANA then s
  else
    let s0 := if s.lanesRun then s else s.legHold
    s0.forN 24 fun s l =>
      if s.legState l = gOFF ∧ s.flag (F.LEG_CTRL_EN l) then
        match s.legRefuse l with
        | some k =>
          let x := s.leg l
          ((s.put (F.LEG_STATUS_REFUSE l) k).setLegX l { x with refused := true }).eventIf (!x.refused)
            Ev.LEG_START_REFUSED noInst [.w l, .w k]
        | none =>
          let s1 := (s.put (F.LEG_STATUS_REFUSE l) 0).legGo l gDIAG
          s1.setLegX l { s1.leg l with diagAt := s.now }
      else s

/-- R409: EN has become 1: a request; a leg in FAULT goes to OFF. A leg whose LEGnn_EN has yet to fall enters OFF first
(R412). -/
def State.legAsk (s : State) (l : Nat) : State :=
  let s1 := s.setLegX l { s.leg l with refused := false }
  if s.legState l = gFAULT then s1.legGo l gOFF else s1

/-- R412: EN has become 0: PWM low at once; LEGnn_EN stays high for 2 × T_DT in RUN; a diagnosis ends without a result. -/
def State.legStop (s : State) (l : Nat) : State :=
  let x := s.leg l
  let s1 := s.put (F.LEG_STATUS_REFUSE l) 0
  match s.legState l with
  | 2 => s1.setLegX l { x with live := none, dec := none, writes := [], shadow := none,
                               enFall := some (x.enFall.getD (s.now + 2 * 80 * s.get (F.PWM_LEG_TIME_T_DT l))) }
  | 1 => s1.legGo l gOFF
  | 3 => s1.legGo l gOFF
  | 5 => s1.legGo l gOFF
  | _ => s1

/-- R409: a write of EN = 1. -/
def State.legEnable (s : State) (n l : Nat) : Status × State :=
  let was := s.flag (F.LEG_CTRL_EN l)
  s.writeThen n (R.LEG_CTRL l) 1 1 fun s => if was then s else s.legAsk l

/-- LEG_ENABLE (R409). -/
def execLegEnable (t : Nat) (n : SessIx) (l : LegIx) (s : State) : Host.Outcome State Fault Refusal :=
  atTime t s fun s => s.access n domANA fun s => s.legEnable n l

/-- R412: a write of EN = 0. -/
def State.legDisable (s : State) (n l : Nat) : Status × State :=
  s.writeThen n (R.LEG_CTRL l) 0 1 fun s => s.legStop l

/-- R410: the test current of 1.00 mA into LEGnn_DIAG flows. -/
def State.legTest (s : State) (l : Nat) : Bool :=
  let a := (s.leg l).diagAt
  s.legState l == gDIAG && decide (a + 200 * uUs ≤ s.now) && decide (s.now < a + 600 * uUs)

/-- LEG_DISABLE (R412). -/
def execLegDisable (t : Nat) (n : SessIx) (l : LegIx) (s : State) : Host.Outcome State Fault Refusal :=
  atTime t s fun s => s.access n domANA fun s => s.legDisable n l

/-- LEG_EN_FALL (R412): LEGnn_EN falls and the leg enters OFF. -/
def execLegEnFall (t : Nat) (l : LegIx) (s : State) : Host.Outcome State Fault Refusal :=
  atTime t s fun s => s.inDom domANA fun s =>
    match (s.leg l).enFall with
    | some a => if a ≤ s.now then s.legGo l gOFF else s
    | none => s

/-- R410: the classification of a diagnosis, in mV. -/
def legResult (v0 v1 : Nat) : Nat :=
  if 2000 < v0 then 1
  else if (v1 : Int) - v0 < 200 then 2
  else if (v1 : Int) - v0 > 2500 ∨ 3000 ≤ v1 then 3
  else 0

/-- LEG_DIAG_RESULT (R410): 800 µs into the diagnosis, with V0 and V1 in mV. -/
def execLegDiagResult (t : Nat) (l : LegIx) (v0 v1 : Fin 65536) (s : State) : Host.Outcome State Fault Refusal :=
  atTime t s fun s => s.inDom domANA fun s =>
    if s.legState l = gDIAG ∧ (s.leg l).diagAt + 800 * uUs ≤ s.now then
      let r := legResult v0 v1
      let s1 := (((s.put (F.LEG_DIAG_V0 l) v0).put (F.LEG_DIAG_V1 l) v1).put (F.LEG_STATUS_DIAG_RES l) r).put
        (F.LEG_STATUS_DIAG_DONE l) 1
      if r = 0 then
        let s2 := s1.legGo l gRUN
        s2.setLegX l { s2.leg l with firstAt := s.mtUnits + 10 * uUs }
      else (s1.legGo l gFAULT).event Ev.LEG_DIAG_FAIL noInst [.w (l : Nat), .w r, .w (v0 : Nat), .w (v1 : Nat)]
    else s

/-- R133: a released latch at the leg's boundary: window count and debt at 0, the leg back in RUN. -/
def State.legUnlatch (s : State) (l : Nat) : State :=
  let x := s.leg l
  if !x.release then s
  else
    let s1 := ((s.put (F.PWM_LEG_STAT_LATCHED l) 0).put (F.PWM_LEG_STAT_WIN l) 0).put (F.PWM_LEG_DEBT_DEBT l) 0
    let s2 := s1.setLegX l { x with release := false, trips := [], dec := none }
    if s.legState l = gLATCHED then s2.legGo l gRUN else s2

/-- LEG_UPDATE_POINT (R125, R133, R137, R410): a carrier start or mid-period point of a leg: an armed shadow is loaded; at
a carrier start a released latch ends. -/
def execLegUpdatePoint (t : Nat) (l : LegIx) (s : State) : Host.Outcome State Fault Refusal :=
  atTime t s fun s => s.inDom domANA fun s =>
    let p := max 2 (s.get (F.PWM_LEG_CFG_CAR_P l))
    let off := s.get (F.PWM_LEG_OFF_OFF l)
    let h := (s.mtUnits - off) / (p / 2)
    if s.mtUnits < off ∨ h = (s.leg l).half then s
    else
      let s0 := s.setLegX l { s.leg l with half := h }
      let s1 := if h % 2 = 0 then s0.legUnlatch l else s0
      let u := off + h * (p / 2)
      let x := (s1.leg l).arm u
      let y := if h % 2 = 0 then x.boundary u
        else if s1.get (F.PWM_LEG_CFG_UPDATE_AT l) = 1 then x.midPoint else x
      let s2 := if s1.legState l = gRUN ∧ x.enFall.isNone then s1.setLegX l y else s1
      s2.putSat (F.PWM_LEG_STAT_WIN l) (s2.legTrips l).length

/-- R133, R137: the level of LEGnn_PWM now: high from the on-compare to the off-compare of the loaded period, unless a trip
has ended the pulse since its on-edge. A period of exact 100 % has its on-edge at its start: DESIGN CHOICE, log entry
197. -/
def State.legPwm (s : State) (l : Nat) : Bool :=
  let x := s.leg l
  match x.live with
  | some d =>
    let o := (s.mtUnits - d.u) % max 1 d.p
    let full := d.h0.on == 0xFFFFFF
    let edge := s.mtUnits - o + (if full then 0 else d.h0.on)
    x.en && !s.tripInput l && decide (x.clearAt ≤ edge) && (full || decide (d.h0.on ≤ o ∧ o < d.h0.off))
  | none => false

/-! ### Power and configuration (R396, R408, R412) -/

/-- R396, R412: ANA comes on. From off its counts since power-up start again. -/
def State.anaOn (s : State) (fromOff : Bool) : State :=
  let s0 := s.forN 24 fun s l => ((s.put (F.LEG_STATUS_STATE l) gOFF).setLegX l { trips := (s.leg l).trips }).put (F.PWM_LEG_DEBT_DEBT l) 0
  let s1 := if fromOff then s0.setAna fun _ => {} else s0
  let s2 := (s1.setIadc fun x => { x with conv := none, rest := [], cpAt := s.mtUnits, lastDue := s.mtUnits, house := false }).put
    F.IADC_STATUS_BUSY 0
  let s3 := s2.forN 12 fun s b => (s.setBsi b {}).put (F.BSI_STAT_RUNNING b) 0
  s3.forN 36 State.cmpUnsettle

/-- R408: the first failing check of this chapter's registers, with its index. -/
def State.anaCheck (s : State) : Option (Nat × Nat) :=
  let seqBad (e : Nat × Nat × Nat × Nat) : Bool :=
    decide (22 < e.2.1) || (decide (16 ≤ e.2.1) && e.2.2.1 != 0) || e.2.2.2 == 0 || decide (200 < e.2.2.2)
  let cmpBad (c : Nat) : Bool :=
    let m := s.get (F.CMP_CFG_M c)
    let n := s.get (F.CMP_CFG_N c)
    decide (s.get (F.CMP_THR_HI c) ≤ s.get (F.CMP_THR_LO c)) || m == 0 || decide (n < m / 2 + 1) || decide (m < n)
  let legBad (l : Nat) : Bool :=
    let m := s.get (F.CMP_CFG_MODE (12 + l))
    s.flag (F.LEG_CTRL_EN l) && !decide (1 ≤ m ∧ m ≤ 3)
  match s.iadcSeq.find? seqBad with
  | some e => some (1, e.1)
  | none =>
    if 16 < s.get F.IADC_CFG_NENT then some (1, 16)
    else if 60000 < s.get F.IADC_CFG_ROUND_MS then some (2, 0)
    else match (List.range 36).find? cmpBad with
      | some c => some (3, c)
      | none => ((List.range 24).find? legBad).map (4, ·)

/-- R391, R396: a channel whose MODE leaves or takes 0, and an unsettled one whose safe state has changed, takes its safe
state. -/
def State.cmpCommit (s old : State) (c : Nat) : State :=
  let m := s.get (F.CMP_CFG_MODE c)
  let o := old.get (F.CMP_CFG_MODE c)
  if (m = 0) = (o = 0) ∧ (s.settled c ∨ s.trip c = s.cmpSafe c) then s else s.cmpUnsettle c

/-- R409, R412: a leg whose EN an image has changed. -/
def State.legCommit (s old : State) (l : Nat) : State :=
  if s.flag (F.LEG_CTRL_EN l) = old.flag (F.LEG_CTRL_EN l) then s
  else if s.flag (F.LEG_CTRL_EN l) then s.legAsk l else s.legStop l

/-- R391, R396, R398, R404, R409: what new values of this chapter's registers bring about. -/
def State.anaCommit (s old : State) : State :=
  let s0 := (s.forN 36 fun s c => s.cmpCommit old c).forN 24 fun s l => s.legCommit old l
  let s1 := if s.get F.IADC_CFG_ROUND_MS = old.get F.IADC_CFG_ROUND_MS then s0
    else s0.setIadc fun x => { x with lastDue := s.mtUnits }
  s1.forN 12 fun s b =>
    let s2 := s.putSat (F.BSI_STAT_GD b) (roundFree ((75 * (s.osr b - 1) : Nat) : Int) 10).toNat
    if s.flag (F.BSI_CFG_EN b) then
      (if s.osr b = old.osr b then s2 else s2.setBsi b { s2.bsi b with filt := {}, ys := [] })
    else if s.flag (F.BSI_STAT_RUNNING b) then ((s2.put (F.BSI_STAT_RUNNING b) 0).setBsi b {}).bsiGone b
    else if s.bsi b = {} then s2 else s2.setBsi b {}

end Sys2Proof.Machine
end

