-- ==== Sys2Proof/Machine/Sess.lean ====
section
/-! DEFINITION. What closes a management session (R465): the power manager and the management protocol share it. -/

namespace Sys2Proof.Machine

/-! ### Sessions -/

/-- R460: the key data registers are cleared. -/
def State.clearKey (s : State) : State := s.setStart fun x => { x with keyData := [], keyAt := none }

/-- R458: the opener's rights end; the lock stays CLOSED. -/
def State.endOpener (s : State) : State := s.setStart fun x => { x with opener := none, openLevel := 0 }

/-- R297, R458, R460, R465: a session closes (cause 0 CLOSE, 1 idle, 2 domain, 3 lost): its open Pour and what it holds
are discarded, its reopening ends, the key bytes it wrote are cleared. -/
def State.closeSession (s : State) (n cause : Nat) : State :=
  let x := s.sess n
  if !x.active then s
  else
    let s1 := match x.pour with
      | some k => s.pourAbort k 3 0 0 0
      | none => s
    let s2 := if s1.start.keyAt.isSome && s1.start.keySess == n then s1.clearKey else s1
    let s3 := if s2.isOpener n then s2.endOpener else s2
    let s4 := (s3.setSess n { status := x.status, value := x.value, port := x.port, bind := x.bind }).setPour fun p => { p with last := p.last.set n none }
    let s5 := s4.forN 16 fun s k => if livePour (s.pstat k) && s.get (F.POUR_SLOT_STAT_SESSION k) == n then
      s.setPslot k { s.pslot k with orphan := true } else s
    s5.event Ev.MGMT_SESSION_CLOSE n [.w n, .w cause]

end Sys2Proof.Machine
end

