-- ==== Sys2Proof/Machine/Log.lean ====
section
/-! DEFINITION. The event log's own commands (R472–R476) and Grind (R477). -/

namespace Sys2Proof.Machine

/-! ### The copy of the fallback log (R476) -/

/-- R472: the newest entry of a store of slots: that of the highest SEQ, also where a backward step has given an older
one a later timestamp. DESIGN CHOICE for R61, log entry 189. -/
def newestOf (m : Tbl (Option LogEntry)) : Option LogEntry :=
  (m.filterMap (·.2)).foldl (fun (a : Option LogEntry) e => match a with
    | some b => if b.seq < e.seq then some e else a
    | none => some e) none
def newestSeq (m : Tbl (Option LogEntry)) : Nat := ((newestOf m).map (·.seq)).getD 0

/-- Entries in order of SEQ. -/
def insEntry (e : LogEntry) : List LogEntry → List LogEntry
  | [] => [e]
  | x :: l => if e.seq < x.seq then e :: x :: l else x :: insEntry e l

/-- R476: one entry copied into MRAM, verified as R475 says; the copy stops where the medium fails. -/
def LogSt.copyOne (dram : Bool) (a : LogSt × Nat) (e : LogEntry) : LogSt × Nat :=
  let l := a.1
  if l.fallback then a
  else if l.mramBad.contains (e.seq % 65536) then
    let l1 := { l with fallback := true, verify := satN (2 ^ 32 - 1) (l.verify + 2), written := (l.written + 2) % 2 ^ 32 }
    (l1.number true dram { e with code := Ev.LOG_MEDIA_FAULT, dom := domMGMT, inst := 0xFFFF,
                                  data := [.w (e.seq % 65536 : Nat)] }, a.2)
  else
    let l1 := { l with mram := l.mram.set (e.seq % 65536) (some e), written := (l.written + 1) % 2 ^ 32,
                       fbPending := l.fbPending - 1, unread := l.unread.filter fun x => x != e.seq % 65536 }
    let l2 := if dram && l.unoff.contains e.seq then
        { l1 with offered := l1.offered ++ [e], unoff := l1.unoff.filter fun x => x != e.seq } else l1
    (l2, a.2 + 1)

/-- R476: every fallback entry newer than the newest MRAM entry goes into MRAM in SEQ order; the sequences already
overwritten in the fallback log are reported, first, as the example of R476 numbers them. `newest` is the newest of MRAM
when the copy begins: an entry numbered since then has waited for its end. -/
def State.logCopy (s : State) (newest : Nat) : State :=
  if s.log.fallback || !s.isOn domMGMT then s
  else
    let l := ((s.log.flog.filterMap (·.2)).filter fun e => newest < e.seq).foldr insEntry []
    match l with
    | [] => s
    | e :: _ =>
      let (log, n) := l.foldl (LogSt.copyOne (s.isOn domDRAM)) (s.log, 0)
      let gone := e.seq - (newest + 1)
      let s1 := s.takeLog { log with fbLost := satN 65535 (log.fbLost + gone) }
      (s1.eventIf (decide (0 < gone)) Ev.LOG_FALLBACK_LOST noInst [.d (newest + 1), .w gone]).eventIf (decide (0 < n))
        Ev.LOG_FALLBACK_COPIED noInst [.w n]

/-- R472, R476: MGMT comes on: the next SEQ follows the newest in MRAM, unless the counter is lost and numbering is
held; then the fallback log is copied. -/
def State.logStart (s : State) : State :=
  if s.log.seqLost then s.setLog fun x => { x with holdAt := some s.now }
  else (s.setLog fun x => { x with seq := max s.log.seq (newestSeq s.log.mram) }).logCopy (newestSeq s.log.mram)

/-! ### Commands -/

/-- LOG_ENTRY (R472, R475): an event reaches the log sequencer. `fails` counts the read-backs of its MRAM write that
differ: with 2 the slot's cells are bad. -/
def execLogEntry (t : Nat) (code inst : Fin 65536) (data : List DItem) (fails : Fin 3) (s : State) :
    Host.Outcome State Fault Refusal :=
  atTime t s fun s =>
    let mram := s.isOn domMGMT && !s.log.fallback && s.log.retestAt.isNone && s.log.holdAt.isNone
    let slot := (s.log.seq + 1) % 65536
    let l := s.log
    let s1 := if !mram then s
      else if fails.val = 2 then s.setLog fun _ => { l with mramBad := if l.mramBad.contains slot then l.mramBad else slot :: l.mramBad }
      else s.setLog fun _ => { l with verify := satN (2 ^ 32 - 1) (l.verify + fails.val), written := (l.written + fails.val) % 2 ^ 32 }
    s1.event code inst data

/-- R472: the newest SEQ in the payloads of stream 0. -/
def State.strm0Seq (s : State) : Nat :=
  ((s.carafe.stored ++ s.carafe.staged).filter fun r => r.stream == 0).foldl (fun a r => max a (leAt r.payload 0 8)) 0

/-- LOG_SEQ_RESTORED (R472): the hold ends once REC is mounted, or with the module RUNNING and REC not ON, or after 10 s.
The code of the source of the value is open. -/
def execLogSeqRestored (t : Nat) (s : State) : Host.Outcome State Fault Refusal :=
  atTime t s fun s =>
    match s.log.holdAt with
    | none => s
    | some a =>
      let run := s.get F.CFG_STATUS_STATE == 5 || s.get F.CFG_STATUS_STATE == 6
      if !s.isOn domMGMT || !((s.isOn domREC && s.recState == 2) || (run && !s.isOn domREC) || decide (a + 10 * uS ≤ s.now)) then s
      else
        let l := s.log
        let newest := max (max (newestSeq l.mram) (newestSeq l.flog)) s.strm0Seq
        let l1 := { l with seq := newest, seqLost := false, holdAt := none, held := [], lost := 0,
                           fbLost := satN 65535 (l.fbLost + l.lost) }
        let l2 := l.held.foldl (fun (x : LogSt) e => x.number true (s.isOn domDRAM) e) l1
        (((s.takeLog l2).event Ev.LOG_SEQ_RESTORED noInst [.w s.freeVal, .w l.lost]).freeStep).logCopy (newestSeq l.mram)

/-- R476: a write of LOG_CMD; RETEST needs a Service session, and is BUSY while one runs. -/
def State.logCmd (s : State) (n : Nat) (value mask : Word) : Status × State :=
  let go := bit (value &&& mask).toNat 0
  let refuse := if go then (s.needLevel n 2).worst (if s.log.retestAt.isSome then .busy else .ok) else .ok
  s.writeIf n R.LOG_CMD value mask refuse fun s =>
    if go then s.setLog fun x => { x with retestAt := some s.now } else s

/-- LOG_RETEST (R476). -/
def execLogRetest (t : Nat) (n : SessIx) (s : State) : Host.Outcome State Fault Refusal :=
  atTime t s fun s => s.access n domMGMT fun s => s.logCmd n 1#32 1#32

/-- LOG_RETEST_DONE (R476): every slot has been rewritten and verified; `bad` are the slots that do not verify. The
rewrites count as MRAM writes (LOG_CNT_WRITTEN, LOG_CNT_VERIFY): DEDUCED, log entry 205. -/
def execLogRetestDone (t : Nat) (bad : List Nat) (s : State) : Host.Outcome State Fault Refusal :=
  atTime t s fun s => s.inDom domMGMT fun s =>
    match s.log.retestAt with
    | none => s
    | some _ =>
      let slots := bad.filter fun k => decide (k < 65536)
      let l := { s.log with retestAt := none, mramBad := slots, written := (s.log.written + 65536) % 2 ^ 32,
                            verify := satN (2 ^ 32 - 1) (s.log.verify + slots.length) }
      match slots with
      | [] => ((s.setLog fun _ => { l with fallback := false }).event Ev.LOG_MEDIA_RESTORED noInst []).logCopy (newestSeq s.log.mram)
      | k :: _ => (s.takeLog { l with fallback := true }).event Ev.LOG_MEDIA_FAULT noInst [.w k]

/-! ### Grind (R477) -/

/-- R477: the memory of an owner: 0 SRAM, 1 DRAM, 2 MRAM. -/
def GrindHit.mem : GrindHit → Nat
  | .dram .. => 1
  | .mram _ => 2
  | _ => 0

/-- R477: what becomes of an uncorrectable word. -/
def State.grindHit (s : State) (h : GrindHit) : State :=
  match h with
  | .lane l m => s.laneUncorr l m
  | .mirror => s.put F.VOTE_STATUS_MIRROR_ERR 1
  | .sram => s
  | .dram a b =>
    let mine (r : CRec) : Bool := r.stream == a && r.seq == b
    if s.carafe.staged.any mine || s.carafe.ring.any fun e => e.2.any mine then
      s.setRec fun c => { c with bad := (a, b) :: c.bad }
    else s
  | .mram k => s.setLog fun x => { x with mram := s.log.mram.set k none, unread := k :: s.log.unread }

def grindDom (m : Nat) : Nat := if m = 0 then domVOTE else if m = 1 then domDRAM else domMGMT

/-- R477: the interval of a memory's passes. -/
def State.grindDue (s : State) (m : Nat) : Nat :=
  match m with
  | 0 => s.get F.LOG_GRIND_CFG_SRAM_S * uS
  | 1 => s.get F.LOG_GRIND_CFG_DRAM_H * 3600 * uS
  | _ => s.get F.LOG_GRIND_CFG_MRAM_H * 3600 * uS

/-- R158: corrected errors in the engine memories of lanes. -/
def State.laneCorr (s : State) (l : List (Nat × Nat)) : State :=
  l.foldl (fun s x => (s.count F.CE_CNT_ECC_CORR 1).event Ev.CE_ECC_CORR noInst [.w x.1, .w x.2]) s

/-- GRIND_SCRUB (R477, R158): a pass of a memory (0 SRAM, 1 DRAM, 2 MRAM) that found `corr` corrected words, those of
them in lanes' engine memories (lane and memory), and uncorrectable words with their addresses. -/
def execGrindScrub (t : Nat) (m : Fin 3) (corr : Nat) (lanes : List (Nat × Nat)) (unc : List (GrindHit × Nat)) (s : State) :
    Host.Outcome State Fault Refusal :=
  atTime t s fun s => s.inDom (grindDom m) fun s =>
    let due := match s.log.passAt.get m with
      | some a => decide (a + s.grindDue m ≤ s.now)
      | none => true
    if !due then s
    else
      let pass : Fld := ⟨R.LOG_GRIND_PASS, 8 * m.val, 8⟩
      let s0 := s.setLog fun x => { x with passAt := s.log.passAt.set m (some s.now) }
      let mgmt := s.isOn domMGMT
      let s1 := if mgmt then s0.countWrap pass else s0
      let s2 := if mgmt then s1.count (F.LOG_GRIND_CORR_COUNT m) corr else s1
      let say := decide (0 < corr) && s2.quiet (s2.log.corrAt.get m) (60 * uS)
      let s3 := if say then (s2.setLog fun x => { x with corrAt := s2.log.corrAt.set m (some s2.now) }).event
          Ev.GRIND_CORR noInst [.w m.val, .w corr] else s2
      let s4 := if m.val = 0 then s3.laneCorr lanes else s3
      (unc.filter fun h => h.1.mem == m.val).foldl (fun s h =>
        ((if mgmt then s.count (F.LOG_GRIND_UNC_COUNT m) 1 else s).event Ev.GRIND_UNCORR noInst [.w m.val, .w h.2]).grindHit h.1) s4

end Sys2Proof.Machine
end

