-- ==== Sys2Proof/Machine/Power.lean ====
section
/-! DEFINITION. Power domains, wake, supplies, Crema and its backup cell, and the thermal model (R414–R436). -/

namespace Sys2Proof.Machine

/-! ### Domains (R414–R416) -/

/-- R414: what a domain requires on. -/
def reqs (d : Nat) : List Nat :=
  if d = 2 ∨ d = 3 ∨ d = 4 then [1, 5]
  else if d = 5 ∨ d = 8 ∨ d = 17 ∨ d = 19 ∨ d = 20 then [1]
  else if d = 7 then [1, 20]
  else if 9 ≤ d ∧ d ≤ 16 then [1, 5]
  else if d = 18 then [1, 17]
  else []

/-- R414: the domains that software can switch. -/
def switchable (d : Nat) : Bool := d != 0 && d != 6 && decide (d < 21)
def switchables : List Nat := (List.range 21).filter switchable

/-- R414: the domains that require a domain. -/
def dependents (d : Nat) : List Nat := switchables.filter fun e => (reqs e).contains d

/-- R437, R490: nRESET is low, or TEST_EN was high at the cold start: every switchable domain stays off. -/
def State.stayOff (s : State) : Bool := s.pwr.resetLow || s.start.testEn

def State.setDom (s : State) (d st : Nat) : State := s.put (F.PWR_STATE d) st
def State.held (s : State) (d : Nat) : Bool := (s.pwr.hold.get d).isSome
def State.leaves (s : State) (d : Nat) : Bool := (s.pwr.leaving.get d).isSome

/-- R434: a domain cannot come on: it, or one it requires, is in thermal hold. -/
def State.barred (s : State) (d : Nat) : Bool := s.held d || (reqs d).any s.held

/-- R417: PWR_STATE with domain, from, to and cause (0 software, 1 wake, 2 thermal, 3 supply). -/
def State.pwrEvent (s : State) (d from_ dest cause : Nat) : State :=
  s.event Ev.PWR_STATE noInst [.w d, .w from_, .w dest, .w cause]

/-- R415: the registers of a domain return to their Reset values; those that Crema keeps stay. -/
def State.dropDomain (s : State) (d : Nat) : State :=
  let gone (r : Reg) : Bool := !retainedReg r && match rowOf r with
    | some x => domOfReg x r == d
    | none => false
  let lost := s.get F.TIME_STATUS_TIME_LOST
  let gap := s.get F.TIME_STATUS_ELAPSED_GAP
  let s1 := { s with regs := s.regs.filter fun e => !gone e.1 }
  if d = 1 then (s1.put F.TIME_STATUS_TIME_LOST lost).put F.TIME_STATUS_ELAPSED_GAP gap else s1

/-! ### Leaving ON (R415, R419, R424, R435) -/

/-- R59: CLK goes down: the instant of the RTC is kept, MDLLs and outputs stop. -/
def State.clkDown (s : State) : State :=
  let s1 := s.countLife
  let s2 := (s1.setClk fun x => { x with sleepFrom := some (s1.rtcUnits : Int), slewLeft := 0, slewAcc := 0, freqCorr := 0,
                                           freqAcc := 0, suspendAt := none, retryAt := none,
                                           outStart := [], outStop := [] }).setLink fun x => { x with begun := false }
  (s2.put F.CLK_STATUS_LOCK_P 0).put F.CLK_STATUS_LOCK_S 0

/-- R277: a lane's domain is down. -/
def State.laneDown (s : State) (l : Nat) : State :=
  let s1 := if s.works domVOTE && s.counted l then s.excludeLane l 2 else s
  (s1.put (F.LANE_STAT_STATE l) lOFF).showLanes

/-- R313, R415: VOTE goes off: cell table, lanes, Pours and wear records in it are lost. -/
def State.voteLost (s : State) : State :=
  let s1 := (((s.setCells fun _ => {}).setEng fun _ => {}).setGrid fun _ => {}).setMppt fun _ => {}
  let s2 := ((((s1.setFrt fun _ => {}).setLanes fun _ => {}).setPour fun _ => {}).setWear fun _ => {}).setLink fun _ => {}
  s2.forN 8 fun s n => s.setSess n { s.sess n with pour := none }

/-- R269, R271: PBUS goes down: its accumulators stand in Crema. -/
def State.busDown (s : State) : State := s.mtrSave.forN 4 fun s p => s.put (F.PB_PORT_STAT_LINK p) 0

/-- R412, R435: ANA goes down: its bitstreams end. -/
def State.anaDown (s : State) : State :=
  (s.forN 12 fun s b => if s.flag (F.BSI_STAT_RUNNING b) then s.bsiGone b else s).setIadc fun x => { x with conv := none, rest := [] }

/-- R415, R435: what a domain does as it leaves ON; MGMT closes its sessions (R465). -/
def State.sideDown (s : State) (d : Nat) : State :=
  match d with
  | 1 => s.clkDown
  | 2 | 3 | 4 => s.laneDown (d - 2)
  | 5 => s.setLink fun x => { x with begun := false, later := [] }
  | 7 => s.forN 8 fun s n => s.closeSession n 2
  | 8 => s.busDown
  | 18 => s.recPower false
  | 19 => s.anaDown
  | _ => if 9 ≤ d ∧ d ≤ 16 then s.ringDisable (d - 9) else s

/-- R415, R420: what a domain loses when it is off, beside its registers; in retention it keeps it. -/
def State.sideLost (s : State) (d : Nat) : State :=
  match d with
  | 5 => s.voteLost
  | 7 => (s.setMgmt fun _ => {}).setStart fun x => { x with opener := none, mgmtUp := false, keyData := [], keyAt := none }
  | 8 => (s.setBus fun _ => {}).setMtr fun x => { x with
      pt := x.pt.map fun e => (e.1, { int := e.2.int, closing := e.2.closing }) }
  | 17 => s.dramOff
  | _ => if 9 ≤ d ∧ d ≤ 16 then s.setRing (d - 9) {} else s

/-- R415: a domain enters OFF (0) or RETENTION (1). -/
def State.domainDown (s : State) (d dest cause : Nat) : State :=
  let old := s.domState d
  if old = dest then s
  else
    let s0 := if old = 2 ∨ s.leaves d then s.sideDown d else s
    let s1 := if dest = 0 then s0.sideLost d else s0
    let from_ := if old ≠ 3 then old else if s.leaves d then 2 else if s.pwr.retained.contains d then 1 else 0
    let s2 := s1.setPwr fun p => { p with leaving := p.leaving.set d none, retained := p.retained.filter fun e => e != d }
    let s3 := if dest = 0 then s2.dropDomain d else s2.setPwr fun p => { p with retained := d :: p.retained }
    let s4 := s3.setDom d dest
    if from_ = dest then s4 else s4.pwrEvent d from_ dest cause

/-- The domains that are not off, those that are required after those that require them. -/
def downOrder : List Nat := [18, 19, 8, 16, 15, 14, 13, 12, 11, 10, 9, 17, 4, 3, 2, 7, 5, 20, 1]

/-- R424, R437: every switchable domain loses power at once. -/
def State.allOff (s : State) (cause : Nat) : State :=
  (downOrder.foldl (fun s d => s.domainDown d 0 cause) s).setPwr fun p =>
    { p with leaving := [], retained := [], plan := [], wake := none, nack := false }

/-! ### Restore (R420) -/

/-- R420: the steps: domains, delay from RETENTION and from OFF. -/
def stepTable : List (List Nat × Nat × Nat) :=
  [([1], 400 * uUs, 400 * uUs), ([20], 100 * uUs, 100 * uUs), ([5], 50 * uUs, 50 * uUs), ([7], 100 * uUs, 25 * uMs),
   ([2, 3, 4], 150 * uUs, 150 * uUs), ([17], 200 * uUs, 20 * uMs), ([9, 10, 11, 12, 13, 14, 15, 16], 2 * uMs, 2 * uMs),
   ([8], uMs, uMs), ([19], 200 * uUs, uMs), ([18], 30 * uMs, 30 * uMs)]

/-- R420: the steps that bring some domains up. -/
def State.planOf (s : State) (ds : List Nat) (cause : Nat) : List RestoreStep :=
  stepTable.filterMap fun (l, ret, off) =>
    let m := l.filter ds.contains
    if m.isEmpty then none
    else some { doms := m, delay := if m.all s.pwr.retained.contains then ret else off, cause := cause }

/-- R420: a restore of domains that are OFF or in RETENTION begins, or follows the one in progress. -/
def State.startPlan (s : State) (ds : List Nat) (cause : Nat) : State :=
  let ds := ds.filter fun d => s.domState d < 2
  match s.planOf ds cause with
  | [] => s
  | x :: l =>
    let s1 := ds.foldl (fun s d => s.setDom d 3) s
    if s1.pwr.plan.isEmpty then s1.setPwr fun p => { p with plan := x :: l, stepEnd := s.now + x.delay }
    else s1.setPwr fun p => { p with plan := p.plan ++ x :: l }

/-- A domain and those it requires. -/
def withRequired (ds : List Nat) : List Nat := switchables.filter fun d => ds.contains d || ds.any fun e => (reqs e).contains d

/-- R280, R420: lanes that come on with MODE CEASED restart at once with AUTO_RESTART. -/
def State.lanesUp (s : State) : State :=
  if s.mode = mdCEASED ∧ s.flag F.LANE_CFG_AUTO_RESTART ∧ s.lanes.restart.isNone ∧ !s.start.cold ∧ !s.start.restore ∧
      ((List.range 3).any fun l => s.isOn (domLANE l)) then s.startRestart
  else s

/-- R439: XSPI is on in a cold start: CLOCKS; with BOOT_MON low the module stays in MONITOR. -/
def State.bootXspi (s : State) : State :=
  if s.start.cold then s.put F.CFG_STATUS_STATE (if s.start.bootMon then 7 else 1) else s

/-- R450: the boot record as its registers show it. -/
def State.showBoot (s : State) : State :=
  let b := s.start.boot
  let s1 := ((s.put F.CFG_BOOT_PREFER b.prefer).putB F.CFG_BOOT_TRIAL b.trial).put F.CFG_BOOT_TRIES b.tries
  s1.put F.CFG_BOOT_FW_PREFER b.fwPrefer

/-- R450: the boot record is rewritten, with the next GEN. -/
def State.setBoot (s : State) (b : BootRec) : State :=
  (s.setStart fun x => { x with boot := { b with gen := s.start.boot.gen + 1 } }).showBoot

/-- R451: the slot of a cold start is chosen and its read begins. -/
def State.chooseSlot (s : State) : State :=
  let b := s.start.boot
  let s1 := if b.trial && b.tries == 3 then
      (s.setBoot { b with prefer := 1 - b.prefer, trial := false }).event Ev.CFG_TRIAL_EXPIRED noInst []
    else if b.trial then s.setBoot { b with tries := b.tries + 1 }
    else s.showBoot
  let k := s1.start.boot.prefer
  (s1.setStart fun x => { x with slot := k, failed := none, reading := true }).put F.CFG_STATUS_STATE 2

/-- R439, R454: VOTE is on from off: in a cold start the image is read; else the slot in use is loaded again. -/
def State.bootVote (s : State) : State :=
  if s.start.cold then (if s.start.bootMon then (s.put F.CFG_STATUS_STATE 7).showBoot else s.chooseSlot)
  else
    let s1 := (s.showBoot).put F.CFG_STATUS_STATE (if s.start.bootMon then 7 else 2)
    s1.setStart fun x => { x with failed := none, reading := !s.start.bootMon, restore := !s.start.bootMon,
                                    loading := none, ready := false, reload := false }

/-- R36, R42, R59: CLK is on: MDLLs locked, outputs run. -/
def State.clkUp (s : State) (off : Bool) : State :=
  let s1 := (s.put F.CLK_STATUS_LOCK_P 1).put F.CLK_STATUS_LOCK_S 1
  let s2 := if off then s1.showUtc else s1
  let s3 := s2.setClk fun x => { x with opsecAt := s2.now }
  s3.forN 4 fun s k => if s.flag (F.CLK_OUT_CFG_EN k) then s.outStarts k else s

/-- R427, R472, R476: MGMT is on: the log goes on in MRAM, and a tamper seen before is logged. -/
def State.mgmtOn (s : State) (off : Bool) : State :=
  let s1 := (s.setPwr fun p => { p with nack := false }).logStart
  let s2 := if s1.pwr.tamperLog then
      (s1.event Ev.CREMA_TAMPER noInst [.d (s1.get64 R.CREMA_TAMPER_T_LO R.CREMA_TAMPER_T_HI)]).setPwr fun p => { p with tamperLog := false }
    else s1
  if off then s2.setStart fun x => { x with mgmtUp := true } else s2

/-- R240, R271: PBUS is on: subscriptions WAITING, accumulators from Crema, intervals that span the sleep flagged. -/
def State.busUp (s : State) (off : Bool) : State :=
  let s1 := s.forN 64 fun s j => s.put (F.SV_SUB_STAT_STATE j) (if s.svOn j then 1 else 0)
  if off then s1.mtrRestore.mtrSlept else s1.mtrSlept

/-- R282, R284, R420: a lane's domain is on: the lane is EXCLUDED; one that was LOCKED stays so unless it comes from off. -/
def State.laneUp (s : State) (l : Nat) (off : Bool) : State :=
  if (s.lane l).locked && !off then s.put (F.LANE_STAT_STATE l) lLOCKED
  else (s.setLane l { s.lane l with locked := false }).put (F.LANE_STAT_STATE l) lEXCLUDED

/-- R420: what follows at the end of a domain's step. -/
def State.sideUp (s : State) (d : Nat) (off : Bool) : State :=
  match d with
  | 1 => s.clkUp off
  | 2 | 3 | 4 => s.laneUp (d - 2) off
  | 5 => if off then s.bootVote else s
  | 7 => s.mgmtOn off
  | 8 => s.busUp off
  | 18 => s.recPower true
  | 19 => s.anaOn off
  | 20 => s.bootXspi
  | _ => if 9 ≤ d ∧ d ≤ 16 ∧ s.flag (F.RING_CTRL_EN (d - 9)) then s.startDiscovery (d - 9) else s

/-- R420: a domain comes ON. -/
def State.domainUp (s : State) (d cause : Nat) : State :=
  let off := !s.pwr.retained.contains d
  let s1 := (s.setPwr fun p => { p with retained := p.retained.filter fun e => e != d }).setDom d 2
  (s1.pwrEvent d (if off then 0 else 1) 2 cause).sideUp d off

/-! ### Wake (R421–R423) -/

/-- R422: the wake in progress ends once every domain of its set is ON or barred by a thermal hold. -/
def State.wakeCheck (s : State) : State :=
  match s.pwr.wake with
  | none => s
  | some w =>
    if !(w.set.all fun d => s.isOn d || s.barred d) then s
    else
      let tenUs (u : Nat) : Nat := u / (10 * uUs)
      let restore := tenUs (s.now - w.ackAt)
      let stretch := match w.limitAt with
        | some l => tenUs (l - w.ackAt)
        | none => restore
      let reached := ((w.set.filter s.isOn).map fun d => 2 ^ d).foldl (· + ·) 0
      let s1 := ((s.putSat F.PWR_WAKE_STAT_STRETCH stretch).countWrap F.PWR_WAKE_STAT_COUNT).setPwr fun p => { p with wake := none }
      s1.event Ev.PWR_WAKE noInst [.w reached, .w stretch, .w restore]

/-- R422, R436: the domains of the wake set that are down are restored, once none of the set is being prepared. -/
def State.wakeGo (s : State) : State :=
  match s.pwr.wake with
  | none => s
  | some w =>
    if w.set.any s.leaves then s
    else (s.startPlan (w.set.filter fun d => !s.barred d) 1).wakeCheck

/-- I2C_ADDRESS_MATCH (R421, R422): an address after a START on the I²C port. -/
def execI2cAddressMatch (t : Nat) (addr : Fin 128) (s : State) : Host.Outcome State Fault Refusal :=
  atTime t s fun s =>
    let supply := s.flag F.PWR_SUPPLY_VIN_A_OK || s.flag F.PWR_SUPPLY_VIN_B_OK
    if !s.flag F.PWR_WAKE_CFG_EN || !supply || s.stayOff || addr.val != s.get F.PWR_WAKE_CFG_ADDR ||
        s.pwr.wake.isSome then s
    else
      let want := withRequired ([1, 20, 7] ++ switchables.filter fun d => bit (s.get F.PWR_WAKE_SET_SET) d)
      if want.all fun d => s.isOn d || s.barred d then s
      else (s.setPwr fun p => { p with wake := some { ackAt := s.now, set := want, limitAt := none } }).wakeGo

/-- PWR_STRETCH_LIMIT (R422): the stretch reaches STRETCH_MAX. -/
def execPwrStretchLimit (t : Nat) (s : State) : Host.Outcome State Fault Refusal :=
  atTime t s fun s =>
    let lim := s.get F.PWR_WAKE_CFG_STRETCH_MAX
    match s.pwr.wake with
    | none => s
    | some w =>
      if w.limitAt.isSome || lim == 0 || decide (s.now < w.ackAt + lim * uMs) then s
      else
        let s1 := s.setPwr fun p => { p with wake := some { w with limitAt := some (w.ackAt + lim * uMs) }, nack := !s.isOn domMGMT }
        ((s1.put F.PWR_WAKE_STAT_LIMIT 1).putSat F.PWR_WAKE_STAT_STRETCH (lim * 100)).event Ev.PWR_STRETCH_LIMIT noInst []

/-! ### Steps of a restore -/

/-- R420: the next step begins. -/
def State.nextStep (s : State) : State :=
  let rest := s.pwr.plan.drop 1
  let end_ := s.now + ((rest.head?.map (·.delay)).getD 0)
  (s.setPwr fun p => { p with plan := rest, stepEnd := end_ }).wakeCheck

/-- DOMAIN_RESTORE_STEP (R420): after CLK the next step waits for the load of module time (R59). -/
def execDomainRestoreStep (t : Nat) (s : State) : Host.Outcome State Fault Refusal :=
  atTime t s fun s =>
    match s.pwr.plan with
    | [] => s
    | x :: l =>
      if s.now < s.pwr.stepEnd then s
      else if x.doms.isEmpty then (if s.clk.sleepFrom.isSome then s else s.nextStep)
      else
        let s1 := x.doms.foldl (fun s d => s.domainUp d x.cause) s
        if x.doms.contains 1 && s1.clk.sleepFrom.isSome then s1.setPwr fun p => { p with plan := { x with doms := [] } :: l }
        else if x.doms.any fun d => 2 ≤ d ∧ d ≤ 4 then s1.lanesUp.nextStep
        else s1.nextStep

/-- R434, R436: domains drop out of the restore in progress. -/
def State.planDrop (s : State) (ds : List Nat) : State :=
  let cut (x : RestoreStep) : RestoreStep := { x with doms := x.doms.filter fun d => !ds.contains d }
  let p := s.pwr.plan.map cut
  let keep := p.filter fun x => !x.doms.isEmpty
  let same := match p, keep with
    | a :: _, b :: _ => a == b
    | _, _ => false
  s.setPwr fun q => { q with plan := keep,
                             stepEnd := if same then q.stepEnd else s.now + ((keep.head?.map (·.delay)).getD 0) }

/-! ### Requests (R417–R419) -/

/-- R418: the operating conditions that keep a domain ON. -/
def State.domNeeded (s : State) (d : Nat) : Bool :=
  let anyLeg := (List.range 24).any fun l => s.legState l == gRUN || s.legState l == gDIAG
  if 2 ≤ d ∧ d ≤ 4 then s.anyRunning && decide (s.nCounted < 2 + b2n (s.counted (d - 2)))
  else if 9 ≤ d ∧ d ≤ 16 then s.cluActive (d - 9)
  else if d = 8 then s.anyRunning
  else if d = 19 then s.anyRunning || anyLeg
  else false

/-- R417: the blocking domain and the reason of a refusal, with its status. Of a malformed target only what holds for any
target is asked (R14: BUSY before BAD_VALUE). -/
def State.pwrRefuse (s : State) (d target : Nat) : Option (Status × Nat × Nat) :=
  if !switchable d then some (.badValue, d, 4)
  else if s.domState d = 3 then some (.busy, d, 5)
  else if s.domState d = target then none
  else if s.held d then some (.busy, d, 3)
  else if target = 3 then none
  else if target = 2 then
    match (reqs d).find? s.held with
    | some e => some (.busy, e, 3)
    | none => ((reqs d).find? s.leaves).map fun e => (.busy, e, 5)
  else if s.domState d ≠ 2 then none
  else match (dependents d).find? fun e => 2 ≤ s.domState e with
    | some e => some (.busy, e, 1)
    | none => if s.domNeeded d then some (.busy, d, 2) else none

/-- R419: a domain's preparation starts. -/
def State.prepare (s : State) (d target : Nat) : State :=
  let s1 := (s.setDom d 3).setPwr fun p => { p with leaving := p.leaving.set d (some { target := target, due := s.now + 2 * uS }) }
  match d with
  | 2 | 3 | 4 => if s1.lstate (d - 2) = lOFF ∨ s1.lstate (d - 2) = lLOCKED then s1 else s1.excludeLane (d - 2) 2
  | 5 => s1.wearCells.foldl State.wearWrite s1
  | 7 => s1.forN 8 fun s n => s.closeSession n 2
  | 18 => s1.sync
  | _ => s1

/-- R417: an accepted request. -/
def State.pwrGo (s : State) (d target : Nat) : State :=
  if s.domState d = target then s
  else if target = 2 then s.startPlan (withRequired [d]) 0
  else if s.domState d = 2 then s.prepare d target
  else s.domainDown d target 0

/-- R417: a write of PWR_REQ. -/
def State.pwrReq (s : State) (n : Nat) (value mask : Word) : Status × State :=
  let w := masked (s.word R.PWR_REQ) value mask
  let d := fieldOf w 0 5
  let target := fieldOf w 5 2
  let refused (st : Status) (blocker why : Nat) : Status × State :=
    (st, ((s.put F.PWR_REFUSE_BLOCKER blocker).put F.PWR_REFUSE_REASON why).event Ev.PWR_REQ_REFUSED noInst
      [.w d, .w blocker, .w why])
  match s.judgeWord n R.PWR_REQ value mask with
  | .ok =>
    match s.pwrRefuse d target with
    | some (st, blocker, why) => refused st blocker why
    | none => s.writeThen n R.PWR_REQ value mask fun s => s.pwrGo d target
  | .badValue =>
    match if d ≤ 20 then s.pwrRefuse d target else none with
    | some (.busy, blocker, why) => refused .busy blocker why
    | _ => (.badValue, s)
  | e => (e, s)

def pwrWord (d target : Nat) : Word := BitVec.ofNat 32 (d + 32 * target)
def State.pwrReqBy (s : State) (n d target : Nat) : State :=
  s.access n domCREMA fun s => s.pwrReq n (pwrWord d target) (BitVec.allOnes 32)

/-- PWR_REQ_OFF (R417). -/
def execPwrReqOff (t : Nat) (n : SessIx) (d : Fin 32) (s : State) : Host.Outcome State Fault Refusal :=
  atTime t s fun s => s.pwrReqBy n d 0

/-- PWR_REQ_RETENTION (R417). -/
def execPwrReqRetention (t : Nat) (n : SessIx) (d : Fin 32) (s : State) : Host.Outcome State Fault Refusal :=
  atTime t s fun s => s.pwrReqBy n d 1

/-- PWR_REQ_ON (R417). -/
def execPwrReqOn (t : Nat) (n : SessIx) (d : Fin 32) (s : State) : Host.Outcome State Fault Refusal :=
  atTime t s fun s => s.pwrReqBy n d 2

/-- R419: a committed Pour that has not taken effect writes the domain. -/
def State.pourWrites (s : State) (d : Nat) : Bool :=
  (List.range 16).any fun k => s.pstat k == 6 && (s.pslot k).writes.any fun w => match decodeAddr w.addr with
    | some (x, r) => domOfReg x r == d
    | none => false

/-- R419: the preparation of a domain has ended. -/
def State.prepared (s : State) (d : Nat) : Bool :=
  !s.pourWrites d &&
  (if d = 5 then s.wear.cell.all fun e => e.2.pend.isEmpty
   else if d = 18 then s.recState != 4
   else true)

/-- PWR_PREPARED (R419). -/
def execPwrPrepared (t : Nat) (d : DomIx) (s : State) : Host.Outcome State Fault Refusal :=
  atTime t s fun s =>
    match s.pwr.leaving.get d with
    | none => s
    | some l => if s.prepared d || decide (l.due ≤ s.now) then (s.domainDown d l.target 0).wakeGo else s

/-! ### The start of Crema (R61, R425) -/

/-- R61: Crema has started with the RTC invalid: module time goes on 1 s after the newest MRAM entry. -/
def State.timeLost (s : State) : State :=
  -- The RTC's UTC offset and leap flags are 0 from here: DESIGN CHOICE, log entry 187.
  let units := (((newestOf s.log.mram).map (·.time)).getD 0 + 1000000000) * 8
  let s1 := s.setClk fun x => { x with off := (units : Int) - s.now, rtcOff := (units : Int) - s.now, sleepFrom := none,
                                         slewLeft := 0, slewAcc := 0, uncertBase := 4294967295, uncertAt := s.now,
                                         opsecAt := s.now, rtcUtc := 0, rtcLeap61 := false, rtcLeap59 := false, leapAt := none }
  let s2 := ((s1.put F.TIME_STATUS_TIME_LOST 1).put F.TIME_STATUS_ELAPSED_GAP 1).put F.RTC_STATUS_RTC_VALID 0
  ((((s2.put F.RTC_STATUS_CAL_VALID 0).put F.CREMA_STICKY_CELL_CUTOFF 1).setMtr fun x => { x with fromRec := true })).event
    Ev.TIME_LOST noInst []

/-- R425: the checked areas of the retained RAM by their offsets. -/
def cremaAreas : List Nat := [0x0000, 0x0100, 0x0200, 0x0600, 0x0A00, 0x0C00]

/-- R425: how the holder of an area treats its loss. -/
def State.areaLost (s : State) (area : Nat) : State :=
  match area with
  | 0 => s.timeLost
  | 1 => ((s.put64 R.TIME_OPSEC_LO R.TIME_OPSEC_HI 0).put64 R.TIME_RTCSEC_LO R.TIME_RTCSEC_HI 0).put F.TIME_STATUS_ELAPSED_GAP 1
  | 2 => (s.forN 64 fun s m => s.put64 (R.REC_STRM_SEQ_LO m) (R.REC_STRM_SEQ_HI m) 0).setRec fun c => { c with storeId := none, capId := 0 }
  | 3 => s.setMtr fun x => { x with saved := [], pt := x.pt.map fun e => (e.1, { e.2 with int := {}, closing := none }) }
  | 4 => ((s.forN 21 fun s d => s.put (F.THM_REG_T_HOLD d) 0).put F.PWR_WAKE_STAT_COUNT 0).setPwr fun p => { p with hold := [] }
  | _ => (s.setLog fun x => { x with seqLost := true, holdAt := some s.now }).setStart fun x => { x with fails := [], blockEnd := none }

/-- R61, R425, R429: Crema starts after a cut-off, with every area lost; or the areas `fails` of a domain's holder fail
their check. -/
def State.cremaCheck (s : State) (fails : Nat) : State :=
  s.forN 6 fun s k => if bit fails k then
    ((s.areaLost k).put F.CREMA_STICKY_RAM_LOST 1).event Ev.CREMA_RAM_LOST noInst [.w (cremaAreas.getD k 0)]
  else s

/-- R429: Crema starts after a cut-off: time and every area of the retained RAM are lost. -/
def State.cremaStart (s : State) : State :=
  let s1 := (s.setPwr fun p => { p with cutOff := false }).setDom domCREMA 2
  (s1.event Ev.CREMA_CELL_CUTOFF noInst []).cremaCheck 63

/-! ### Supplies and cold starts (R424, R425, R437–R439) -/

def State.supplied (s : State) : Bool := s.flag F.PWR_SUPPLY_VIN_A_OK || s.flag F.PWR_SUPPLY_VIN_B_OK
def State.harvests (s : State) : Bool := s.flag F.PWR_SUPPLY_HARV_OK

/-- R424: Crema takes its power from the first available source. -/
def State.cremaSrc (s : State) : State :=
  s.put F.PWR_SUPPLY_CREMA_SRC (if s.supplied then 0 else if s.harvests then 1 else 2)

/-- R428: a charge ends where its source is gone; R430: a test discharge needs a supply input. -/
def State.cellSource (s : State) : State :=
  let s1 := if s.supplied then s else s.put F.CREMA_CELL_TESTING 0
  if s1.supplied || (s1.harvests && s1.flag F.CREMA_CFG_HARV_EN) then s1
  else (s1.put F.CREMA_CELL_CHARGING 0).setPwr fun p => { p with fromLow := false }

/-- R439, R490: a cold start: the straps are sampled, and every switchable domain is restored; with TEST_EN high they
stay off. -/
def State.coldStart (s : State) (bootMon testEn : Bool) : State :=
  let s1 := s.setStart fun x => { x with coldAt := s.now, cold := true, bootMon := bootMon, testEn := testEn, slot := 0,
                                             failed := none,
                                             reading := false, reload := false, restore := false, loading := none,
                                             ready := false, image := none, runAt := none, lockAtBoot := false }
  if testEn then s1 else s1.startPlan (switchables.filter fun d => !s1.barred d) 3

/-- PWR_SUPPLY_LOST (R424). -/
def execPwrSupplyLost (t : Nat) (b : Bool) (s : State) : Host.Outcome State Fault Refusal :=
  atTime t s fun s =>
    let ok := if b then F.PWR_SUPPLY_VIN_B_OK else F.PWR_SUPPLY_VIN_A_OK
    if !s.flag ok then s
    else
      let s1 := ((s.put ok 0).put (if b then F.CREMA_STICKY_VIN_B_LOST else F.CREMA_STICKY_VIN_A_LOST) 1).event
        Ev.PWR_SUPPLY_LOST noInst [.w (b2n b)]
      if s1.supplied then s1
      else
        let s2 := ((s1.allOff 3).setDom domSAFE 0).pwrEvent domSAFE 2 0 3
        let s3 := (s2.put F.CREMA_STICKY_BOTH_LOST 1).put64 R.CREMA_SUPPLY_T_LO R.CREMA_SUPPLY_T_HI s2.rtcNs
        s3.cremaSrc.cellSource

/-- PWR_SUPPLY_RESTORED (R424, R371): the return of a supply is a cold start when none was valid; it starts Crema too
where the cell had been cut off (R429). -/
def execPwrSupplyRestored (t : Nat) (b : Bool) (straps : Straps) (s : State) : Host.Outcome State Fault Refusal :=
  atTime t s fun s =>
    let ok := if b then F.PWR_SUPPLY_VIN_B_OK else F.PWR_SUPPLY_VIN_A_OK
    if s.flag ok then s
    else
      let was := s.supplied
      let s0 := (s.put ok 1).cremaSrc
      let s1 := (if s0.pwr.cutOff then s0.cremaStart else s0).event Ev.PWR_SUPPLY_RESTORED noInst []
      if was then s1
      else
        let s2 := (((s1.setDom domCREMA 2).setDom domSAFE 2).safePowerUp).setPwr fun p => { p with nodes := [] }
        if s2.pwr.resetLow then s2 else s2.coldStart straps.bootMon straps.testEn

/-- HARV_SOURCE_CHANGE (R424, R428). -/
def execHarvSourceChange (t : Nat) (ok : Bool) (s : State) : Host.Outcome State Fault Refusal :=
  atTime t s fun s => ((s.putB F.PWR_SUPPLY_HARV_OK ok).cremaSrc).cellSource

/-- NRESET_ASSERT (R437): nRESET held low for 1 µs. -/
def execNresetAssert (t : Nat) (s : State) : Host.Outcome State Fault Refusal :=
  atTime t s fun s => (s.allOff 3).setPwr fun p => { p with resetLow := true }

/-- NRESET_RELEASE (R437, R438). -/
def execNresetRelease (t : Nat) (straps : Straps) (s : State) : Host.Outcome State Fault Refusal :=
  atTime t s fun s =>
    if !s.pwr.resetLow then s
    else
      let s1 := s.setPwr fun p => { p with resetLow := false }
      if s1.supplied then s1.coldStart straps.bootMon straps.testEn else s1

/-! ### Crema and its cell (R425–R430) -/

/-- CREMA_START (R61, R425, R429): Crema starts after a cut-off, from a supply input or from HARV with the cell back at
3.30 V; or the areas of a domain's holder are checked as it comes ON, and bit k of `lost` names those that fail. -/
def execCremaStart (t : Nat) (lost : Fin 64) (s : State) : Host.Outcome State Fault Refusal :=
  atTime t s fun s =>
    if !s.pwr.cutOff then s.cremaCheck lost.val
    else if s.supplied || (s.harvests && decide (3300 ≤ s.get F.CREMA_CELL_VCELL)) then s.cremaStart
    else s

/-- CREMA_CELL_CUTOFF (R429): at 3.00 V on the cell alone the load is cut off: RTC, retained RAM and fallback log go. -/
def execCremaCellCutoff (t : Nat) (s : State) : Host.Outcome State Fault Refusal :=
  atTime t s fun s =>
    if s.supplied || s.harvests || s.pwr.cutOff then s
    else
      let s1 := { s with regs := s.regs.filter fun e => !retainedReg e.1 }
      let s2 := { s1.dropDomain domCREMA with log := { s1.log with flog := [], fbPending := 0, seqLost := true } }
      (s2.setPwr fun p => { p with cutOff := true, tamperLog := false, tamperNew := false, tamperOpen := false }).setDom domCREMA 0

/-- CREMA_TAMPER_CHECK (R427): once per second. A loop that stays open is one tamper until TAMPER is cleared: log entry
120. -/
def execCremaTamperCheck (t : Nat) (open_ : Bool) (s : State) : Host.Outcome State Fault Refusal :=
  atTime t s fun s =>
    if s.pwr.cutOff then s
    else
      let s1 := s.setPwr fun p => { p with tamperOpen := open_ && s.flag F.CREMA_CFG_TAMPER_EN }
      if !s1.pwr.tamperOpen || (s.pwr.tamperOpen && s.flag F.CREMA_STICKY_TAMPER) then s1
      else
        let s2 := (s1.put F.CREMA_STICKY_TAMPER 1).put64 R.CREMA_TAMPER_T_LO R.CREMA_TAMPER_T_HI s1.rtcNs
        let s3 := s2.setPwr fun p => { p with tamperNew := true, tamperLog := !s.isOn domMGMT }
        s3.eventIf (s.isOn domMGMT) Ev.CREMA_TAMPER noInst [.d s1.rtcNs]

/-- R430: a capacity result, µAh. -/
def State.capResult (s : State) (uAh : Nat) : State :=
  let frac := max 1 (Config.otpWord 1002 0).toNat
  let s1 := (s.putSat F.CREMA_CELL_CAP (roundFree (uAh * 2 ^ 32 : Nat) frac).toNat).count F.CREMA_CELL_AGE_COUNT 1
  s1.setPwr fun p => { p with capAt := s.now }

/-- CREMA_CHARGE_DONE (R428, R430): below 35 µA at 4.10 V, after `uAh` µAh. -/
def execCremaChargeDone (t : Nat) (uAh : Nat) (s : State) : Host.Outcome State Fault Refusal :=
  atTime t s fun s =>
    if !s.flag F.CREMA_CELL_CHARGING then s
    else
      let s1 := (s.put F.CREMA_CELL_CHARGING 0).setPwr fun p => { p with fromLow := false }
      if s.pwr.fromLow then s1.capResult uAh else s1

/-- R428: a charge begins below 4.10 V with a source and inside the window. -/
def State.startCharge (s : State) : State :=
  let v := s.get F.CREMA_CELL_VCELL
  if !s.flag F.CREMA_CELL_TEMP_OK || s.flag F.CREMA_CELL_TESTING || s.flag F.CREMA_CELL_CHARGING || decide (4100 ≤ v) ||
      !(s.supplied || (s.harvests && s.flag F.CREMA_CFG_HARV_EN)) then s
  else (s.put F.CREMA_CELL_CHARGING 1).setPwr fun p => { p with fromLow := decide (v < 3700) }

/-- CREMA_CHG_TEMP (R428): the check of every 10 s: the window detector, the cell's voltage (mV), HARV (10 mV, µA). The
manager charges a cell that has been cut off too (R429); Crema then records nothing. -/
def execCremaChgTemp (t : Nat) (ok : Bool) (vcell vharv iharv : Nat) (s : State) : Host.Outcome State Fault Refusal :=
  atTime t s fun s =>
    let s1 := ((s.putSat F.CREMA_CELL_VCELL vcell).putSat F.CREMA_HARV_V_HARV vharv).putSat F.CREMA_HARV_I_HARV iharv
    let s2 := (s1.putB F.CREMA_CELL_TEMP_OK ok).cellSource
    if ok then s2.startCharge
    else
      let say := s.flag F.CREMA_CELL_TEMP_OK || s.flag F.CREMA_CELL_CHARGING || !s.flag F.CREMA_STICKY_CHG_TEMP
      let s3 := (s2.put F.CREMA_CELL_CHARGING 0).setPwr fun p => { p with fromLow := false }
      if s.pwr.cutOff then s3 else (s3.put F.CREMA_STICKY_CHG_TEMP 1).eventIf say Ev.CREMA_CHG_TEMP noInst []

/-- CREMA_CAP_TEST (R430). -/
def execCremaCapTest (t : Nat) (s : State) : Host.Outcome State Fault Refusal :=
  atTime t s fun s =>
    if s.flag F.CREMA_CFG_CAP_TEST && s.supplied && !s.flag F.CREMA_CELL_CHARGING && !s.flag F.CREMA_CELL_TESTING &&
        decide (s.pwr.capAt + 30 * 86400 * uS ≤ s.now) then s.put F.CREMA_CELL_TESTING 1
    else s

/-- CREMA_CAP_TEST_END (R430): 3.70 V reached; the recharge counts as one from below. -/
def execCremaCapTestEnd (t : Nat) (s : State) : Host.Outcome State Fault Refusal :=
  atTime t s fun s =>
    if !s.flag F.CREMA_CELL_TESTING then s
    else
      let s1 := (s.put F.CREMA_CELL_TESTING 0).put F.CREMA_CELL_VCELL 3700
      let s2 := s1.startCharge
      if s2.flag F.CREMA_CELL_CHARGING then s2.setPwr fun p => { p with fromLow := true } else s2

/-! ### Die temperature (R432–R435) -/

/-- R434: the estimate exceeds 125.00 °C: the region goes off with the domains that require it, in thermal hold. -/
def State.shutdown (s : State) (d : Nat) (est : Int) : State :=
  if !switchable d then s.event Ev.THM_SHUTDOWN noInst [.w d, .w est]
  else
    let up (e : Nat) : Bool := 2 ≤ s.domState e
    let peers := (dependents d).filter up
    let s1 := s.planDrop (d :: peers)
    let s2 := (downOrder.filter (peers.contains ·)).foldl (fun s e => s.domainDown e 0 2) s1
    let s3 := (s2.domainDown d 0 2).setPwr fun p => { p with hold := p.hold.set d (some { since := s.now, peers := peers }) }
    let s4 := ((s3.put (F.THM_REG_T_HOLD d) 1).count (F.THM_REG_CNT_SHUTDOWNS d) 1).put F.CREMA_STICKY_THERMAL 1
    (s4.event Ev.THM_SHUTDOWN noInst [.w d, .w est]).wakeCheck

/-- R432: a node after one step, in 2^-16 °C; the constants stand in OTP: a_i = exp(−1/1,024 s / τ_i) in 2^-32, r_i in
2^-16 K/W, p in mW. -/
def thmNode (d i : Nat) (n : Int) (p : Nat) : Int :=
  let a := clampI 0 (2 ^ 32) (Config.openFn 41 [(d : Int), (i : Int)])
  let r : Int := ((Config.otpWord 1000 (4 * d + i)).toNat : Int)
  roundFree (a * n * 1000 + (2 ^ 32 - a) * r * (p : Int)) (2 ^ 32 * 1000)

/-- R432, R434: one region: its estimate, peak, warning and shutdown. A region that is never shut down logs once as it
exceeds the limit. -/
def State.thmRegion (s : State) (d p : Nat) : State :=
  let (n1, n2, n3) := s.pwr.nodes.get d
  let m := (thmNode d 0 n1 p, thmNode d 1 n2 p, thmNode d 2 n3 p)
  let guard_ := signedOf 16 (Config.otpWord 1001 d).toNat
  let fine : Int := (m.1 + m.2.1 + m.2.2) * 100 + (s.getS F.THM_CP_T_CP + guard_) * 65536
  let est := satS 16 (roundFree fine 65536)
  let s1 := ((s.setPwr fun q => { q with nodes := q.nodes.set d m }).putSat (F.PWR_DOM_P_POWER d) p).putS (F.THM_REG_T_T_EST d) est
  let deg := (clampI 0 255 (roundFree est 100)).toNat
  let s2 := if s1.get (F.THM_REG_CNT_PEAK d) < deg then s1.put (F.THM_REG_CNT_PEAK d) deg else s1
  let hot := decide ((s.get F.THM_CFG_WARN : Int) * 6553600 < fine)
  let s3 := (s2.putB (F.THM_REG_T_WARN d) hot).eventIf (hot && !s.flag (F.THM_REG_T_WARN d)) Ev.THM_WARN noInst [.w d, .w est]
  if 12500 * 65536 < fine ∧ !s3.held d ∧ (switchable d ∨ s.getS (F.THM_REG_T_T_EST d) ≤ 12500) then s3.shutdown d est
  else s3

/-- THM_UPDATE (R432): every 1/1,024 s, with the measured power of the 21 domains, mW. -/
def execThmUpdate (t : Nat) (p : List Nat) (s : State) : Host.Outcome State Fault Refusal :=
  atTime t s fun s => if s.pwr.cutOff then s else s.forN 21 fun s d => s.thmRegion d (p.getD d 0)

/-- R434: domains that went down with a region but that another region's hold still bars come up with that region. -/
def State.handPeers (s : State) (ds : List Nat) : State :=
  s.setPwr fun p => { p with hold := p.hold.map fun e => (e.1, e.2.map fun h =>
    { h with peers := h.peers ++ ds.filter fun d => (d == e.1 || (reqs d).contains e.1) && !h.peers.contains d }) }

/-- THM_RESTART (R434): below 105.00 °C and 10 s after the shutdown. -/
def execThmRestart (t : Nat) (d : DomIx) (s : State) : Host.Outcome State Fault Refusal :=
  atTime t s fun s =>
    match s.pwr.hold.get d with
    | none => s
    | some h =>
      if !s.supplied || s.stayOff || decide (10500 ≤ s.getS (F.THM_REG_T_T_EST d)) ||
          decide (s.now < h.since + 10 * uS) then s
      else
        let s1 := ((s.setPwr fun p => { p with hold := p.hold.set d none }).put (F.THM_REG_T_HOLD d) 0).event
          Ev.THM_RESTART noInst [.w d.val]
        let ds := withRequired (d.val :: h.peers)
        (s1.handPeers (ds.filter s1.barred)).startPlan (ds.filter fun e => !s1.barred e) 2

/-- THM_CP_STALE (R433): no result of channel 21 for 2 s. -/
def execThmCpStale (t : Nat) (s : State) : Host.Outcome State Fault Refusal :=
  atTime t s fun s =>
    if s.flag F.THM_CP_STALE ∨ s.now < s.pwr.cpAt + 2 * uS then s
    else ((s.put F.THM_CP_STALE 1).putS F.THM_CP_T_CP (max (s.pwr.cpValid.getD 7000) 7000)).event Ev.THM_CP_STALE noInst [.w 0]

/-- R469: a read of THM_REG_CNT restarts PEAK at the present estimate. -/
def State.thmPeak (s : State) (d : Nat) : Word × State :=
  (s.word (R.THM_REG_CNT d), s.put (F.THM_REG_CNT_PEAK d) (clampI 0 255 (roundFree (s.getS (F.THM_REG_T_T_EST d)) 100)).toNat)

/-- THM_PEAK_READ (R469). -/
def execThmPeakRead (t : Nat) (n : SessIx) (d : DomIx) (s : State) : Host.Outcome State Fault Refusal :=
  atTime t s fun s => s.readAnswer n domCREMA fun s => s.thmPeak d

end Sys2Proof.Machine
end

