-- ==== Sys2Proof/Machine/Commit.lean ====
section
/-! DEFINITION. What an image load (R449) and a Pour (R303, R306) share: masked writes on a pending configuration, the
checks of the blocks, the conflicts, and what a new configuration brings about when it takes effect. -/

namespace Sys2Proof.Machine

/-! ### Masked writes (R296) -/

/-- R10: the 64 KiB page of an address. -/
def pageOf (a : Nat) : Nat := a / 65536

/-- R14, R296: the fields a write touches lie in their ranges, and the map's relations hold. -/
def writeFits (x : RegRow) (r : Reg) (old : Word) (w : PWrite) : Bool :=
  let new := masked old w.value w.mask
  (x.fields.all fun f => !f.hit w.mask || f.acc == .ro || f.acc == .w1c || f.acc == .w1s ||
    (decide (f.mn ≤ fieldOf new f.lo f.wd) && decide (fieldOf new f.lo f.wd ≤ f.mx))) &&
  mapRelation r new == .ok

/-- R296: one write on a configuration. -/
def State.applyOne (s : State) (w : PWrite) : State :=
  match decodeAddr w.addr with
  | some (x, r) => s.setWord r (applyWrite x (s.word r) w.value w.mask &&& ~~~readsZero r)
  | none => s

/-- Registers a write of which acts beyond their fields: the commands and the registers of R14's W1S fields, and those
whose own rule gives a write an effect. -/
def acts (r : Reg) : Bool :=
  [R.CLK_CTRL.id, R.TIME_UTC.id, R.RTC_CAL_DATE.id, R.RTC_CAL_TIME.id, R.PWR_REQ.id, R.LANE_CMD.id, R.LANE_INTR.id,
   R.LOG_CMD.id, R.ACC_FIELD_LOCK.id, R.ACC_KEY_SEL.id, (R.ACC_KEY_DATA 0).id, (R.RING_CTRL 0).id,
   (R.RING_STAT_CLR 0).id, (R.CELL_CMD 0).id, (R.PWM_LEG_STAT 0).id, R.MPPT_CMD.id, (R.FRT_CLU_CMD 0).id,
   (R.CMP_STAT 0).id, (R.LEG_CTRL 0).id, R.REC_CMD.id, R.REC_CAP_CMD.id, R.WEAR_STATUS.id, R.WEAR_RF_SEL.id,
   R.CFG_CMD.id, R.XSPI_CMD_GO.id].contains r.id

/-- R348: UPD control cycles take more than 1 ms. -/
def State.wearSlow (s : State) : Bool := decide (250000 < s.get F.WEAR_CFG_UPD * s.period)

/-- R306: a write whose domain is off or in retention is lost. -/
def State.applyOn (s : State) (w : PWrite) : State :=
  match decodeAddr w.addr with
  | some (x, r) => if 2 ≤ s.domState (domOfReg x r) then s.applyOne w else s
  | none => s

/-! ### Checks (R127, R128, R155, R156, R175, R217, R242, R258, R326, R408) -/

/-- A failed check: the image section it belongs to, its number, the event and its data. -/
structure CfgErr where
  sec   : Nat
  check : Nat
  code  : Option Nat
  data  : List DItem
  deriving DecidableEq, Repr, Inhabited

def natData (l : List Nat) : List DItem := l.map fun (n : Nat) => .w n

/-- R128: the first entry of the cell type table that breaks its rule. -/
def State.typeCheck (s : State) : Option CfgErr :=
  ((List.range 16).find? fun n => !s.typeOk n).map fun _ => { sec := 2, check := 0, code := none, data := [] }

/-- R143, R155, R156, R175: the engine's tables. `stated` is the t_ce of the image; at its load a t_ce beyond R155 is
check 8, at a Pour it is logged as CE_TCE_EXCEEDED. -/
def State.engineCheck (s : State) (stated : Option Nat) : Option CfgErr :=
  let fail (c n : Nat) : CfgErr := { sec := 3, check := c, code := some Ev.CE_LOAD_FAIL, data := natData [c, n] }
  match s.ceCheck with
  | some (c, n) => some (fail c n)
  | none =>
    match s.tceLimit with
    | some lim => if stated.isSome then some (fail 8 0)
      else some { sec := 3, check := 8, code := some Ev.CE_TCE_EXCEEDED, data := natData [s.ceTce, lim] }
    | none =>
      if stated.any fun v => v != s.ceTce then some (fail 8 0)
      else (s.clusters.find? fun c => !s.sigBlockOk c).map fun c => fail 9 c

/-- R156, R175: the pages whose registers the engine's checks look at: cell types and maps, the PWM sources, the engine's
own tables, the control period, the signal blocks and the curves. -/
def enginePages : List Nat := [0x12, 0x30, 0x40, 0x41, 0x42, 0x43, 0x44, 0x45, 0x46, 0x47, 0x48, 0x49, 0x50, 0x53]

/-- The first check that the pending configuration fails, among those that pages of addresses touch. -/
def State.cfgCheck (s : State) (touch : Nat → Bool) (stated : Option Nat) : Option CfgErr :=
  let on (c : Bool) (e : Option CfgErr) : Option CfgErr := if c then e else none
  let ana := s.anaCheck.map fun e => { sec := 1, check := e.1, code := some Ev.ANA_CONFIG_FAIL, data := natData [e.1, e.2] }
  let mtr := s.mtrCheck.map fun e => { sec := 1, check := e.2, code := some Ev.MTR_CONFIG_FAIL, data := natData [e.1, e.2] }
  let frt := s.frtCheck.map fun e =>
    { sec := if e.1 = 5 then 4 else 5, check := e.1, code := some Ev.FRT_TABLE_FAIL, data := natData [e.1, e.2.1, e.2.2] }
  let bus := s.busCheck.map fun e =>
    { sec := 6, check := e.1, code := some Ev.PB_CONFIG_FAIL, data := natData [e.1, e.2.1, e.2.2] }
  let rec_ := s.recCheck.map fun c => { sec := 8, check := c, code := none, data := [] }
  (on (touch 0x80) ana).or ((on (touch 0x70) mtr).or ((on (touch 0x30) s.typeCheck).or
    ((on (enginePages.any touch) (s.engineCheck stated)).or
      ((on (touch 0x52 || touch 0x53) frt).or ((on (touch 0x60 || touch 0x50 || touch 0x70) bus).or (on (touch 0x90) rec_))))))

/-- A failed check is logged by its block. -/
def State.logCheck (s : State) (e : CfgErr) : State :=
  match e.code with
  | some c => s.event c noInst e.data
  | none => s

/-! ### Conflicts (R136, R170, R228, R230, R242, R310, R311) -/

/-- A field differs between two configurations. -/
def State.diff (s new : State) (f : Fld) : Bool := s.get f != new.get f

/-- R310: the changes of a cluster that its cells take one after the other. -/
def State.mixes (s new : State) (c : Nat) : Bool :=
  let ks := (cellsOf c).filter fun k => s.inMap k || new.inMap k
  s.diff new F.RING_CTL_PERIOD_PERIOD || s.diff new (F.PWM_CLU_CFG_CAR_P c) || s.diff new (F.PWM_CLU_CFG_SKEW c) ||
  s.diff new (F.PWM_CLU_CFG_UPDATE_AT c) || new.flag (F.PWM_CLU_CMD_RESPREAD c) ||
  ks.any fun k => s.diff new (F.CELL_CFG_PHASE k) || s.diff new (F.CELL_CFG_IN_MAP k) ||
    s.word (R.PWM_TYPE_TIME (s.typeOf k)) != new.word (R.PWM_TYPE_TIME (new.typeOf k))

/-- R170: the settings of a synchronisation point. -/
def State.ptDiffers (s new : State) (p : Nat) : Bool :=
  s.differ new [R.GRID_PT_SRC p, R.GRID_PT_CHAN p, R.GRID_PT_VNOM p] || s.diff new F.GRID_CFG_FNOM

/-- R303: the new configuration meets a POUR_CONFLICT rule. -/
def State.conflicts (s new : State) : Bool :=
  let running := (List.range 8).filter s.cluRunning
  ((List.range 8).any fun c => s.flag (F.PWM_CLU_STAT_MIXED c) && s.mixes new c) ||
  (running.any fun c => s.ptDiffers new (s.syncPt c) || s.diff new (F.FRT_CLU_CFG_TABLE c) || s.diff new (F.FRT_CLU_CFG_VSEL c)) ||
  s.busConflict new ||
  (s.diff new F.RING_CTL_PERIOD_PERIOD && s.link.terms.isSome && !new.fits (timingOf s.termsNow new.period s.link.d)) ||
  (s.diff new F.RING_CTL_PERIOD_PERIOD && running.any fun c => new.pwmFail c != 0)

/-! ### A new configuration takes effect (R119, R134, R135, R154, R170, R177, R228, R230, R255, R258, R310) -/

/-- R184: VDC_CLAMP is written again where a changed register changes it. -/
def State.reparam (s old : State) (k : Nat) : State :=
  let a := s.nodeParams k
  let b := old.nodeParams k
  let l := (((List.range a.length).zip a).filter fun e => e.1 == 6 && b.getD e.1 [] != e.2).map (·.2)
  if s.cellState k < cNEGOTIATED ∨ l.isEmpty then s
  else
    let x := s.cell k
    l.foldl (fun s d => s.mbxPost (ringOf k) { owner := 1, dst := posOf k, op := 2, data := d, purpose := .param })
      (s.setCellX k { x with paramPend := x.paramPend + l.length })

/-- R310: the debt of a cell is clamped to its new T_MIN. -/
def State.clampDebt (s : State) (k : Nat) : State :=
  let m : Int := 80 * s.get (F.PWM_TYPE_TIME_T_MIN (s.typeOf k)) * 256
  let f (s : State) (x : Fld) : State := if m < s.getS x ∨ s.getS x < -m then s.putS x (clampI (-m) m (s.getS x)) else s
  f (f s (F.PWM_CELL_DEBT0_DEBT k)) (F.PWM_CELL_DEBT1_DEBT k)

/-- R310: cells take a change at their first carrier start at or after `tc`. -/
def State.mixStart (s : State) (c tc : Nat) : State :=
  let p := s.get (F.PWM_CLU_CFG_CAR_P c)
  let one (s : State) (k : Nat) : State :=
    let off := s.get (F.PWM_CELL_OFF_OFF k)
    let b := gridNext (8 * s.anchor c + off) p tc
    s.setEng fun x => { x with bridge := s.eng.bridge.set k (some { p := p, off := off, anchor := s.anchor c, b := b, s := b,
                                                                    p2 := p, off2 := off, anchor2 := s.anchor c }) }
  (((cellsOf c).filter s.inMap).foldl one s).put (F.PWM_CLU_STAT_MIXED c) 1

/-- R119, R134, R135, R177, R310: a cluster's carrier. -/
def State.commitCluster (s old : State) (tc c : Nat) : State :=
  let cells := (cellsOf c).filter fun k => s.inMap k || old.inMap k
  let car := s.diff old (F.PWM_CLU_CFG_CAR_P c) || s.diff old (F.PWM_CLU_CFG_SKEW c) ||
    cells.any fun k => s.diff old (F.CELL_CFG_PHASE k) || s.diff old (F.CELL_CFG_IN_MAP k)
  let re := s.flag (F.PWM_CLU_CMD_RESPREAD c)
  let lead := s.diff old (F.PWM_CLU_CFG_CAR_P c) || s.diff old (F.PWM_CLU_CFG_UPDATE_AT c) || s.diff old F.RING_CTL_PERIOD_PERIOD
  let s1 := if car then s.setOffsets c else s
  let s2 := if re then (s1.respread c).put (F.PWM_CLU_CMD_RESPREAD c) 0 else s1
  let s3 := if car || re then s2.carrierChange old c tc
    else if old.mixes s c && !cells.isEmpty then s2.mixStart c tc
    else s2
  let s4 := cells.foldl State.clampDebt s3
  let s4 := s4.setEng fun x => { x with soon := cells.foldl (fun m k => m.set k none) s4.eng.soon }
  let s5 := if lead then s4.setLead c else s4
  (if s.cluRunning c then s5.put (F.PWM_CLU_STAT_UPD_EFF c) (s5.updEff c) else s5).pwmJudge c

/-- R93: rings whose EN the configuration changed. -/
def State.commitRing (s old : State) (r : Nat) : State :=
  if s.isOn (domRING r) then s.ringCtrlAct r (old.flag (F.RING_CTRL_EN r)) false else s

/-- R42: clock outputs that the configuration changed: EN starts or stops one; a divider or format that an image changed
under a running output (a reload; a Pour may not, R41) stops it and starts it anew. -/
def State.commitOut (s old : State) (k : Nat) : State :=
  let was := old.word (R.CLK_OUT_CFG k)
  if outBusy was (s.word (R.CLK_OUT_CFG k)) then (s.outStops k (fieldOf was 0 16)).outStarts k else s.outFollow k was

/-- R228: the timers of table entries that changed restart. -/
def State.commitTable (s old : State) (c : Nat) : State :=
  let tab := s.get (F.FRT_CLU_CFG_TABLE c)
  let same (e : Nat) : Bool := s.word (R.TBL_SM_COND tab e) == old.word (R.TBL_SM_COND tab e) &&
    s.word (R.TBL_SM_ACT tab e) == old.word (R.TBL_SM_ACT tab e)
  s.setFclu c { s.fclu c with held := (s.fclu c).held.filter fun x => same x.1 }

/-- The registers hold the new configuration; what follows from it, given the state before. -/
def State.commitAll (s old : State) (tc : Nat) : State :=
  let s1 := s.forN 1024 fun s k => if old.inMap k && !s.inMap k then s.cellEvent .absent k else s
  let s2 := s1.forN 8 fun s c => s.commitCluster old tc c
  let s3 := s2.forN 1024 fun s k => s.reparam old k
  let s4 := s3.forN 9 fun s p => if s.ptDiffers old p then s.gridReconfig p else s
  let s5 := s4.ceCommit old
  let s6 := s5.forN 8 fun s c => s.commitTable old c
  let s7 := ((s6.busCommit old).mtrCommit old).anaCommit old
  let s8 := s7.forN 8 fun s r => s.commitRing old r
  ((s8.forN 4 fun s k => s.commitOut old k).commitRef old |>.newPeriod old tc).retime

end Sys2Proof.Machine
end

