-- ==== Sys2Proof/Machine/Cfg.lean ====
section
/-! DEFINITION. The configuration image, its slots and the boot record (R438–R454), the xSPI port (R441–R445) and field
access (R455–R460). -/

namespace Sys2Proof.Machine


/-! ### Judging an image (R446, R447) -/

/-- R447, check 5: sections aligned, inside the image and apart. -/
def Image.lengthBad (i : Image) : Bool :=
  let out (x : CfgSection) : Bool := x.offset % 8 != 0 || decide (x.offset < 256) || decide (i.totalLen < x.offset + x.length + 32)
  let l := (List.range i.sections.length).zip i.sections
  let clash := l.any fun a => l.any fun b => decide (a.1 < b.1) && decide (a.2.offset < b.2.offset + b.2.length) &&
    decide (b.2.offset < a.2.offset + a.2.length)
  decide (16 * 2 ^ 20 < i.totalLen) || decide (i.totalLen < 288) || i.sections.any out || clash

/-- R460: a key slot is programmed. -/
def State.hasKey (s : State) (k : Nat) : Bool := (s.start.keys.get k).isSome

/-- R447: some owner key is programmed. -/
def State.ownerKey (s : State) : Bool := s.hasKey 0 || s.hasKey 1

/-- R447, check 8. -/
def State.signBad (s : State) (i : Image) : Bool :=
  !i.hmacOk || (if i.keySlot = 0xFF then s.ownerKey else if i.keySlot < 2 then !s.hasKey i.keySlot else true)

/-- R447, check 9. -/
def Image.sectionBad (i : Image) : Option Nat :=
  (i.sections.find? fun x => !x.crcOk || x.typ == 0 || decide (10 < x.typ) || x.sver != 1 ||
    decide (1 < (i.sections.filter fun y => y.typ == x.typ).length)).map (·.typ)

/-- R447: causes 1–9, with the section for cause 9; 0 for none. -/
def State.imageCause (s : State) (img : Option Image) : Nat × Nat :=
  match img with
  | none => (1, 0)
  | some i =>
    if !i.answered then (1, 0)
    else if i.magic ≠ 0x4E444C44 then (2, 0)
    else if i.fmt ≠ 1 ∨ 10 < i.nsec ∨ i.sections.length ≠ i.nsec then (3, 0)
    else if !i.hcrcOk then (4, 0)
    else if i.lengthBad then (5, 0)
    else if !bit i.compat (s.get F.CFG_HW_REV_REV) then (6, 0)
    else if i.ifMajor ≠ s.get F.CFG_IF_VER_MAJOR ∨ s.get F.CFG_IF_VER_MINOR < i.ifMinor then (7, 0)
    else if s.signBad i then (8, 0)
    else match i.sectionBad with
      | some t => (9, t)
      | none => (0, 0)

/-- R447, R451: the outcome of causes 1–9 for a slot is shown, and its content kept. -/
def State.noteSlot (s : State) (slot : Nat) (img : Option Image) : State :=
  let c := (s.imageCause img).1
  let s1 := s.setStart fun x => { x with slots := x.slots.set slot img }
  let ver := (img.map (·.imgVer)).getD 0
  if slot = 0 then ((s1.putB F.CFG_VERIFY_VALID_A (c == 0)).put F.CFG_VERIFY_CAUSE_A c).put F.CFG_SLOT_VER_A_IMG_VER ver
  else ((s1.putB F.CFG_VERIFY_VALID_B (c == 0)).put F.CFG_VERIFY_CAUSE_B c).put F.CFG_SLOT_VER_B_IMG_VER ver

/-- R451: the slot being loaded fails: the other slot is read; when both have failed the module enters MONITOR, or after
a RELOAD keeps its configuration. -/
def State.slotFail (s : State) (cause sec check : Nat) : State :=
  let k := s.start.slot
  let s1 := ((s.put F.CFG_STATUS_CAUSE cause).put F.CFG_STATUS_FAIL_SEC sec).put F.CFG_STATUS_FAIL_CHECK check
  let s2 := (s1.event Ev.CFG_SLOT_INVALID noInst (natData [k, cause, sec, check])).setStart fun x => { x with loading := none }
  if s.start.failed.isNone then
    let s3 := s2.setStart fun x => { x with failed := some k, slot := 1 - k, reading := true }
    if s.start.reload then s3 else s3.put F.CFG_STATUS_STATE 2
  else if s.start.reload then
    s2.setStart fun x => { x with reading := false, reload := false, failed := none, slot := s.get F.CFG_STATUS_SLOT }
  else
    let s3 := (s2.event Ev.CFG_NO_IMAGE noInst []).setStart fun x => { x with reading := false, cold := false, restore := false }
    { (s3.put F.CFG_STATUS_STATE 7) with mgmt := { s3.mgmt with monitor := true } }

/-- CFG_IMAGE_READ_DONE (R447): the read of the slot completes with what it found. -/
def execCfgImageReadDone (t : Nat) (img : Option Image) (s : State) : Host.Outcome State Fault Refusal :=
  atTime t s fun s => s.inDom domVOTE fun s =>
    if !s.start.reading then s
    else
      let (c, sec) := s.imageCause img
      let s1 := (s.noteSlot s.start.slot img).setStart fun x => { x with reading := false }
      if c ≠ 0 then s1.slotFail c sec 0
      else
        let s2 := s1.setStart fun x => { x with loading := img }
        if s.start.reload then s2 else s2.put F.CFG_STATUS_STATE 3

/-! ### The load transaction (R448, R449, R455) -/

/-- R448: the section whose entries may write a register. -/
def sectionOf (x : RegRow) : Option Nat :=
  let p := pageOf x.base
  if p = 0x00 ∨ p = 0x05 ∨ p = 0x07 ∨ p = 0xB0 then none
  else if x.id = (R.PWM_TYPE_TIME 0).id ∨ x.id = (R.PWM_TYPE_TRIP 0).id then some 2
  else if 0x20 ≤ p ∧ p < 0x30 then some 2
  else if (0x40 ≤ p ∧ p < 0x50) ∨ p = 0x50 ∨ p = 0x51 then some 3
  else if x.id = (R.TBL_CURVE_HDR 0).id ∨ x.id = (R.TBL_PT 0 0).id ∨ x.id = (R.FRT_CLU_CURVE 0).id then some 4
  else if p = 0x52 ∨ p = 0x53 then some 5
  else if 0x60 ≤ p ∧ p < 0x70 then some 6
  else if (R.REC_CAP_CFG).id ≤ x.id ∧ x.id ≤ (R.REC_STRM_DROP 0).id then some 8
  else if p = 0xA0 then some 9
  else some 1

/-- R449: the sections that hold entries, in type order. -/
def Image.entries (i : Image) : List (Nat × CfgEntry) :=
  [1, 2, 3, 4, 5, 6, 8, 9].flatMap fun t => (i.sections.filter fun x => x.typ == t).flatMap fun x => x.entries.map (t, ·)

/-- R449: an entry lies outside its section, or its value outside a field's range: check 1. -/
def entryBad (s : State) (e : Nat × CfgEntry) : Bool :=
  match decodeAddr e.2.addr with
  | none => true
  | some (x, r) => sectionOf x != some e.1 || x.onlyRO || !writeFits x r (s.word r) ⟨e.2.addr, e.2.value, e.2.mask⟩

/-- R448: a block with no section keeps its Reset values: the fields that a configuration sets return to them. -/
def resetFields (r : Reg) (w : Word) : Word :=
  match rowOf r with
  | none => w
  | some x => x.fields.foldl (fun w f => if f.acc == .rwp then setBits w f.lo f.wd (fieldOf (resetWord r) f.lo f.wd) else w) w

/-- R449: the registers before the image's entries. -/
def State.blankCfg (s : State) : State := (s.regs.map (·.1)).foldl (fun s r => s.setWord r (resetFields r (s.word r))) s

def toWrite (e : Nat × CfgEntry) : PWrite := ⟨e.2.addr, e.2.value, e.2.mask⟩

/-- The section of a type. -/
def Image.sect (i : Image) (t : Nat) : Option CfgSection := i.sections.find? fun x => x.typ == t

/-- R448: the identity strings of section 0x06. -/
def State.takeStrings (s : State) (i : Image) : State :=
  (((i.sect 6).map (·.strings)).getD []).foldl (fun s x =>
    match x with
    | (0, j, t) => s.setSvSub j { s.svSub j with svId := t }
    | (1, j, t) => s.setGSub j { s.gSub j with ref := t }
    | (2, j, t) => s.setGSub j { s.gSub j with datSet := t }
    | (3, j, t) => s.setBus fun b => { b with pub := b.pub.set j { b.pub.get j with svId := t } }
    | (_, j, t) => s.setBus fun b => { b with gpub := b.gpub.set j { b.gpub.get j with ref := t } }) s

/-- R455: the access policy of section 0x0A, or the Reset values. -/
def State.takePolicy (s : State) (i : Image) : State :=
  match i.sect 10 with
  | none =>
    (s.setWord R.ACC_POLICY (resetWord R.ACC_POLICY)).setStart fun x => { x with lockAtBoot := false, verifier := [] }
  | some c =>
    let b := c.body
    let ver (k : Nat) : Option (List Byte × List Byte) :=
      let v := bytesAt b (k + 16) 32
      if v.all fun y => y == 0#8 then none else some (bytesAt b k 16, v)
    (s.setWord R.ACC_POLICY (BitVec.ofNat 32 (leAt b 0 4))).setStart fun x =>
      { x with lockAtBoot := byteAt b 4 == 1, verifier := (Tbl.set (Tbl.set [] 1 (ver 8)) 2 (ver 56)) }

/-- R118, R119, R127: carriers at an image load: anchor 0, offsets of the mapped cells. -/
def State.loadCarrier (s : State) (c : Nat) : State :=
  let s1 := (s.put64 (R.PWM_CLU_ANCHOR_LO c) (R.PWM_CLU_ANCHOR_HI c) 0).put (F.PWM_CLU_STAT_MIXED c) 0
  ((s1.setOffsets c).put (F.PWM_CLU_CMD_RESPREAD c) 0).pwmJudge c

/-- R439: a cold start's lanes that are on are in service with the image. -/
def State.lanesBoot (s : State) : State :=
  let on := (List.range 3).filter fun l => s.isOn (domLANE l)
  if on.length < 2 then s
  else
    let s1 := on.foldl (fun s l => s.put (F.LANE_STAT_STATE l) lINSERVICE) s
    (s1.put F.LANE_STATUS_MODE (if on.length = 3 then mdTRIPLEX else mdDUPLEX)).showLanes

/-- R393: leg shunt channels take LATCH = 2 with their own leg at image load. -/
def State.loadShunts (s : State) : State :=
  if !s.works domANA then s
  else s.forN 24 fun s l => (s.put (F.CMP_CFG_LATCH (12 + l)) 2).put (F.CMP_CFG_CLR_LEG (12 + l)) l

/-- R449: the pending copies take effect: what follows from the new configuration. -/
def State.loadAll (s old : State) (i : Image) : State :=
  let s1 := s.forN 1024 fun s k => if old.inMap k && !s.inMap k then s.absentCell k else s
  let s2 := (s1.loadShunts.laneZero).forN 8 State.loadCarrier
  let s3 := (((s2.ceCommit s2).setGShift).takeStrings i).takePolicy i
  let s4 := ((s3.busCommit old).mtrCommit old).anaCommit old
  let s5 := (s4.forN 8 fun s r => s.commitRing old r).forN 4 fun s k => s.commitOut old k
  let s6 := match i.sect 7 with
    | some c => s5.safeParam c.body
    | none => s5
  let s7 := s6.forN 1024 fun s k => if s.cellState k < cNEGOTIATED then s else s.askParams k
  ((if old.start.cold then s7.lanesBoot else s7).commitRef old |>.newPeriod old s.mtUnits).unadmit

/-- R457: the field lock closes, and a reopening ends; the code of the cause logged is open. -/
def State.closeLock (s : State) : State :=
  (((s.put F.ACC_FIELD_LOCK_CLOSED 1).endOpener).event Ev.ACC_LOCK_CLOSED noInst [.w s.freeVal]).freeStep

/-- R457: MGMT has started in this cold start before the image with LOCK_AT_BOOT was in effect: the lock closes with the
image. DESIGN CHOICE, log entry 206. -/
def State.lockBoot (s : State) : State :=
  if s.start.lockAtBoot && s.works domMGMT && !s.start.mgmtUp && !s.flag F.ACC_FIELD_LOCK_CLOSED then s.closeLock else s

/-- R449, R451, R454: the image is in effect. -/
def State.booted (s : State) (i : Image) : State :=
  let x := s.start
  let fb := x.failed.isSome
  let s1 := (((s.put F.CFG_STATUS_SLOT x.slot).putB F.CFG_STATUS_FALLBACK fb).putB F.CFG_STATUS_TRIAL
    (x.boot.trial && x.slot == x.boot.prefer)).put F.CFG_IMG_VER_IMG_VER i.imgVer
  let s2 := s1.event Ev.CFG_BOOT noInst (natData [x.slot, i.imgVer])
  let s3 := s2.eventIf fb Ev.CFG_FALLBACK noInst []
  let s4 := s3.eventIf x.reload Ev.CFG_RELOAD noInst []
  let s5 := s4.setStart fun y => { y with loading := none, ready := false, image := some i, cold := false, restore := false,
                                          reload := false, runAt := if x.reload then y.runAt else some s.now }
  if x.reload then s5
  else
    let s6 := s5.put F.CFG_STATUS_STATE 5
    let s7 := if x.cold then (s6.putSat F.CFG_BOOT_MS_RUNNING ((s.now - x.coldAt) / uMs)).lockBoot else s6
    if x.restore then s7.lanesUp else s7

/-- R449: the pending copies take effect together. -/
def State.takeImage (s : State) : State :=
  match s.start.loading with
  | none => s
  | some i => (((i.entries.map toWrite).foldl State.applyOn s.blankCfg).loadAll s i).booted i

/-- R449: an image whose checks have passed takes effect at a control-cycle boundary. -/
def State.takeReady (s : State) : State := if s.start.ready && s.works domVOTE then s.takeImage else s

/-- CYCLE_START (R22, R449): at T_k the configuration that waits for the boundary takes effect, and the cycle begins. -/
def execCycleStart (t : Nat) (s : State) : Host.Outcome State Fault Refusal :=
  atTime t s fun s => s.inDom domCLK fun s =>
    if s.cycleNow = s.link.lastBegun ∧ s.link.begun then s else s.takeReady.cycleStart

/-- CFG_LOAD_DONE (R439, R449): the checks of the load transaction have ended; the slot fails, or the image takes effect:
at the next control-cycle boundary, or at once where no cycle runs. -/
def execCfgLoadDone (t : Nat) (s : State) : Host.Outcome State Fault Refusal :=
  atTime t s fun s => s.inDom domVOTE fun s =>
    match s.start.loading with
    | none => s
    | some i =>
      let blank := s.blankCfg
      match i.entries.find? (entryBad blank) with
      | some e => s.slotFail 10 e.1 1
      | none =>
        let ws := i.entries.map toWrite
        let stated := (i.sect 3).map (·.param)
        match (ws.foldl State.applyOne blank).cfgCheck (fun _ => true) stated with
        | some e => (s.logCheck e).slotFail 10 e.sec e.check
        | none =>
          if s.link.begun then
            let s1 := s.setStart fun x => { x with ready := true }
            if s.start.reload then s1 else s1.put F.CFG_STATUS_STATE 4
          else s.takeImage

/-- CFG_READY (R440): every mapped cell has left the admission states, or 10 s have passed since RUNNING. -/
def execCfgReady (t : Nat) (s : State) : Host.Outcome State Fault Refusal :=
  atTime t s fun s => s.inDom domVOTE fun s =>
    let all := (List.range 1024).all fun k => !s.inMap k || decide (cREADY ≤ s.cellState k)
    let late := s.start.runAt.any fun r => decide (r + 10 * uS ≤ s.now)
    if s.get F.CFG_STATUS_STATE = 5 ∧ (all ∨ late) then
      ((s.put F.CFG_STATUS_STATE 6).putB F.CFG_STATUS_READY_PART (!all)).putSat F.CFG_BOOT_MS_READY
        ((s.now - s.start.coldAt) / uMs)
    else s

/-! ### CFG_CMD (R437, R451, R452, R454) -/

/-- R451: the slot in use is on trial. -/
def State.onTrial (s : State) : Bool := s.start.boot.trial && s.start.slot == s.start.boot.prefer

/-- R454: a Pour has neither ended nor a free slot. -/
def State.anyPour (s : State) : Bool := (List.range 16).any fun k => 1 ≤ s.pstat k && s.pstat k ≤ 7

/-- R437: CFG_CMD RESTART acts as a pulse on nRESET. -/
def State.restart (s : State) : State :=
  let s1 := s.allOff 3
  if s1.supplied then s1.coldStart s1.start.bootMon s1.start.testEn else s1

/-- R451–R454: what a CFG_CMD is refused with beyond R14; `img` is what a read of the slot finds. -/
def State.cfgRefuse (s : State) (n cmd : Nat) (img : Option Image) : Status :=
  match cmd with
  | 1 => if s.onTrial then .stateMismatch else if (s.imageCause img).1 ≠ 0 then .badValue else .ok
  | 2 => if s.onTrial then .ok else .stateMismatch
  | 4 => if s.anyRunning || s.anyPour || s.start.reading || s.start.loading.isSome then .busy else .ok
  | 6 => s.needLevel n 2
  | _ => .ok

/-- R451–R454: the effect of an accepted CFG_CMD. -/
def State.cfgAct (s : State) (cmd slot : Nat) (img : Option Image) : State :=
  match cmd with
  | 1 =>
    let k := 1 - s.start.slot
    let s1 := (s.noteSlot k img).setBoot { s.start.boot with prefer := k, trial := true, tries := 0 }
    s1.event Ev.CFG_ACTIVATED noInst (natData [k, (img.map (·.imgVer)).getD 0])
  | 2 => (s.setBoot { s.start.boot with trial := false }).put F.CFG_STATUS_TRIAL 0
  | 3 => s.noteSlot slot img
  | 4 => s.setStart fun x => { x with reload := true, reading := true, failed := none, slot := x.boot.prefer }
  | 5 => s.setBoot { s.start.boot with fwPrefer := 1 - s.start.boot.fwPrefer }
  | 6 => s.restart
  | _ => s

/-- A write of CFG_CMD. A refused ACTIVATE shows its cause in CFG_VERIFY. -/
def State.cfgCmd (s : State) (n : Nat) (value mask : Word) (img : Option Image) : Status × State :=
  let w := masked (s.word R.CFG_CMD) value mask
  let cmd := fieldOf w 0 3
  let p := s.writeIf n R.CFG_CMD value mask (s.cfgRefuse n cmd img) fun s => s.cfgAct cmd (fieldOf w 3 1) img
  if p.1 = .badValue ∧ cmd = 1 ∧ s.judgeWord n R.CFG_CMD value mask = .ok then (.badValue, s.noteSlot (1 - s.start.slot) img)
  else p

def State.cfgCmdBy (s : State) (n cmd slot : Nat) (img : Option Image) : State :=
  s.access n domVOTE fun s => s.cfgCmd n (BitVec.ofNat 32 (cmd + 8 * slot)) (BitVec.allOnes 32) img

/-- CFG_CMD_NONE (R451). -/
def execCfgCmdNone (t : Nat) (n : SessIx) (s : State) : Host.Outcome State Fault Refusal :=
  atTime t s fun s => s.cfgCmdBy n 0 0 none

/-- CFG_ACTIVATE (R451). -/
def execCfgActivate (t : Nat) (n : SessIx) (img : Option Image) (s : State) : Host.Outcome State Fault Refusal :=
  atTime t s fun s => s.cfgCmdBy n 1 0 img

/-- CFG_CONFIRM (R451). -/
def execCfgConfirm (t : Nat) (n : SessIx) (s : State) : Host.Outcome State Fault Refusal :=
  atTime t s fun s => s.cfgCmdBy n 2 0 none

/-- CFG_VERIFY (R451). -/
def execCfgVerify (t : Nat) (n : SessIx) (slot : Fin 2) (img : Option Image) (s : State) : Host.Outcome State Fault Refusal :=
  atTime t s fun s => s.cfgCmdBy n 3 slot img

/-- CFG_RELOAD (R454). -/
def execCfgReload (t : Nat) (n : SessIx) (s : State) : Host.Outcome State Fault Refusal :=
  atTime t s fun s => s.cfgCmdBy n 4 0 none

/-- CFG_FW_SWITCH (R452). -/
def execCfgFwSwitch (t : Nat) (n : SessIx) (s : State) : Host.Outcome State Fault Refusal :=
  atTime t s fun s => s.cfgCmdBy n 5 0 none

/-- CFG_RESTART (R437). -/
def execCfgRestart (t : Nat) (n : SessIx) (s : State) : Host.Outcome State Fault Refusal :=
  atTime t s fun s => s.cfgCmdBy n 6 0 none

/-! ### The xSPI port (R444, R445, R453) -/

/-- R445: the address phase falls in the slot or firmware region in use, or in the boot record. -/
def State.xspiProt (s : State) : Bool :=
  let a := s.get F.XSPI_CMD_ADDR_ADDR
  let mib := 2 ^ 20
  let slot := s.start.slot * 16 * mib
  let fw := 32 * mib + s.get F.CFG_BOOT_FW_REGION * 8 * mib
  let within (from_ len : Nat) : Bool := decide (from_ ≤ a) && decide (a < from_ + len)
  s.get F.XSPI_CMD_FMT_SEL == 0 && s.get F.XSPI_CMD_FMT_ADDR_LEN != 0 &&
    (within slot (16 * mib) || within fw (8 * mib) || within (48 * mib) 8192)

/-- R444, R445: the frame is sent. -/
def State.xspiSent (s : State) (ok : Bool) (data : List Byte) : Status × State :=
  let len := min 256 (s.get F.XSPI_CMD_LEN_LEN)
  let s1 := s.setStart fun x => { x with frameSent := some (s.word R.XSPI_CMD_FMT |>.toNat, s.get F.XSPI_CMD_OP_OPCODE,
    s.get F.XSPI_CMD_ADDR_ADDR, len) }
  if !ok then (.ok, s1.put F.XSPI_STATUS_ERROR 1)
  else if s.get F.XSPI_CMD_FMT_DIR = 1 then (.ok, s1)
  else
    let put (s : State) (k : Nat) : State :=
      let w := s.word (R.XSPI_DATA (k / 4))
      s.setWord (R.XSPI_DATA (k / 4)) (setBits w (8 * (k % 4)) 8 (byteAt data k))
    (.ok, s1.forN len put)

/-- R445: the frame that XSPI_CMD_GO sends. `ok` is false where it fails under cause 1 of R447; `data` is what the device
returns. -/
def State.xspiGo (s : State) (n : Nat) (value mask : Word) (ok : Bool) (data : List Byte) : Status × State :=
  let go := bit (value &&& mask).toNat 0
  let level := s.judgeWord n R.XSPI_CMD_GO value mask
  let prot := go && s.xspiProt
  let refuse : Status := if prot then .accessDenied else if go && s.start.reading then .busy else .ok
  match level.worst refuse with
  | .ok => if go then s.xspiSent ok data else (.ok, s)
  | e => (e, if prot && e == .accessDenied && level != .accessDenied then s.put F.XSPI_STATUS_PROT 1 else s)

/-- XSPI_READ_FRAME (R445). -/
def execXspiReadFrame (t : Nat) (n : SessIx) (ok : Bool) (data : List Byte) (s : State) : Host.Outcome State Fault Refusal :=
  atTime t s fun s => if s.get F.XSPI_CMD_FMT_DIR = 0 then s.access n domXSPI fun s => s.xspiGo n 1#32 1#32 ok data else s

/-- XSPI_WRITE_FRAME (R445). -/
def execXspiWriteFrame (t : Nat) (n : SessIx) (ok : Bool) (s : State) : Host.Outcome State Fault Refusal :=
  atTime t s fun s => if s.get F.XSPI_CMD_FMT_DIR = 1 then s.access n domXSPI fun s => s.xspiGo n 1#32 1#32 ok [] else s

/-- R453: the ROM monitor runs. -/
def State.enterMonitor (s : State) : State :=
  (s.setMgmt fun x => { x with monitor := true }).setWord R.DEV_FW_VER 0#32

/-- XSPI_FAULT (R453): a fetch of firmware fails; the code of the cause in CFG_MONITOR is open. -/
def execXspiFault (t : Nat) (dev : Fin 8) (addr : Nat) (s : State) : Host.Outcome State Fault Refusal :=
  atTime t s fun s => s.inDom domMGMT fun s =>
    if s.mgmt.monitor then s
    else
      let s1 := (s.enterMonitor).event Ev.XSPI_FAULT noInst (natData [dev.val, addr])
      (s1.event Ev.CFG_MONITOR noInst [.w s.freeVal]).freeStep

/-! ### Field access (R455–R460) -/

/-- MGMT_START (R452, R457): MGMT has come on from off; bit k of `valid` says that firmware region k verifies, and `ver`
is its version. -/
def execMgmtStart (t : Nat) (valid : Fin 4) (ver : Word) (s : State) : Host.Outcome State Fault Refusal :=
  atTime t s fun s => s.inDom domMGMT fun s =>
    if !s.start.mgmtUp then s
    else
      let s1 := s.setStart fun x => { x with mgmtUp := false, fwValid := (List.range 2).filter (bit valid.val) }
      let want := s.start.boot.fwPrefer
      let region := if bit valid.val want then some want else if bit valid.val (1 - want) then some (1 - want) else none
      let s2 := match (if s.start.bootMon || s.get F.CFG_STATUS_STATE == 7 then none else region) with
        | none => s1.enterMonitor
        | some k => ((s1.setMgmt fun x => { x with monitor := false }).put F.CFG_BOOT_FW_REGION k).setWord R.DEV_FW_VER ver
      let tamper := s.pwr.tamperNew && s.flag F.CREMA_CFG_TAMPER_LOCK
      let s3 := if s.start.lockAtBoot || tamper then s2.closeLock else s2
      s3.setPwr fun p => { p with tamperNew := false }

/-- R457: a write of ACC_FIELD_LOCK. -/
def State.lockWrite (s : State) (n : Nat) (value mask : Word) : Status × State :=
  s.writeIf n R.ACC_FIELD_LOCK value mask (s.needLevel n 1) fun s' =>
    if bit (value &&& mask).toNat 1 then s'.closeLock else s'

/-- ACC_LOCK_CLOSE (R457). -/
def execAccLockClose (t : Nat) (n : SessIx) (s : State) : Host.Outcome State Fault Refusal :=
  atTime t s fun s => s.access n domMGMT fun s => s.lockWrite n 2#32 2#32

/-- ACC_OPENER_EXPIRED (R458). -/
def execAccOpenerExpired (t : Nat) (s : State) : Host.Outcome State Fault Refusal :=
  atTime t s fun s => if s.start.opener.isSome ∧ s.start.openUntil ≤ s.now then s.endOpener else s

/-- ACC_AUTH_UNBLOCK (R459). -/
def execAccAuthUnblock (t : Nat) (s : State) : Host.Outcome State Fault Refusal :=
  atTime t s fun s => if s.start.blockEnd.any fun e => decide (e ≤ s.now) then s.setStart fun x => { x with blockEnd := none } else s

/-- R460: a write of ACC_KEY_DATAw: the bytes are kept apart from the register, which reads 0. -/
def State.keyWrite (s : State) (n w : Nat) (value mask : Word) : Status × State :=
  match s.judgeWord n (R.ACC_KEY_DATA w) value mask with
  | .ok =>
    let old := BitVec.ofNat 32 (s.start.keyData.get w)
    (.ok, s.setStart fun x => { x with keyData := x.keyData.set w (masked old value mask).toNat, keyAt := some s.now, keySess := n })
  | e => (e, s)

/-- ACC_KEY_DATA_WRITE (R460). -/
def execAccKeyDataWrite (t : Nat) (n : SessIx) (w : Fin 8) (value mask : Word) (s : State) : Host.Outcome State Fault Refusal :=
  atTime t s fun s => s.access n domMGMT fun s => s.keyWrite n w value mask

/-- R460: the key that the data registers hold. -/
def State.keyBytes (s : State) : List Byte := (List.range 8).flatMap fun w => leBytes 4 (s.start.keyData.get w)

/-- R460: a write of ACC_KEY_SEL; PROGRAM needs a Service session and a blank slot. -/
def State.keySel (s : State) (n : Nat) (value mask : Word) : Status × State :=
  let k := fieldOf (masked (s.word R.ACC_KEY_SEL) value mask) 0 2
  let go := bit (value &&& mask).toNat 2
  let refuse := if go then (s.needLevel n 2).worst (if s.hasKey k then .accessDenied else .ok) else .ok
  s.writeIf n R.ACC_KEY_SEL value mask refuse fun s' =>
    if !go then s'
    else ((s'.setStart fun x => { x with keys := x.keys.set k (some s.keyBytes) }).clearKey).event
      Ev.ACC_KEY_PROGRAMMED noInst [.w k]

/-- ACC_KEY_PROGRAM (R460). -/
def execAccKeyProgram (t : Nat) (n : SessIx) (k : Fin 4) (s : State) : Host.Outcome State Fault Refusal :=
  atTime t s fun s => s.access n domMGMT fun s => s.keySel n (BitVec.ofNat 32 (k.val + 4)) 7#32

/-- ACC_KEY_DATA_CLEAR (R460): 60 s after the last write without PROGRAM. -/
def execAccKeyDataClear (t : Nat) (s : State) : Host.Outcome State Fault Refusal :=
  atTime t s fun s => if s.start.keyAt.any fun a => decide (a + 60 * uS ≤ s.now) then s.clearKey else s

end Sys2Proof.Machine
end

