-- ==== Sys2Proof/Machine/GooseRx.lean ====
section
/-! DEFINITION. Reception of GOOSE (R247–R250). -/

namespace Sys2Proof.Machine

/-- R247: a 32-bit floating-point number times 10^d, rounded half up and saturated to 16 bits; none where it is no
number. -/
def floatVal (bits d : Nat) : Option Int :=
  let e := bits / 2 ^ 23 % 256
  let frac := bits % 2 ^ 23
  let sg : Int := if bit bits 31 then -1 else 1
  if e = 255 then (if frac = 0 then some (sat16 (sg * 65536)) else none)
  else
    let m := (if e = 0 then frac else frac + 2 ^ 23) * 10 ^ d
    let x := max e 1
    some (sat16 (if 150 ≤ x then sg * (m * 2 ^ (x - 150) : Nat) else rhu (sg * m) (150 - x)))

/-- R247: a member converted under a TYPE; none where the spec gives no conversion. -/
def gooseConv (typ dec : Nat) : Option GMember → Option Int
  | some (.bool b) => if typ = 0 then some (b2n b) else none
  | some (.dbpos v) => if typ = 1 then some (v % 4 : Nat) else none
  | some (.int v) => if typ = 2 then some (sat16 v) else none
  | some (.float w) => if typ = 3 then floatVal w dec else none
  | _ => none

/-- R249: a quality member has validity good. -/
def goodMember : Option GMember → Bool
  | some (.quality q) => q.validity == 0
  | _ => false


/-- R247, R249: a value after an accepted frame of its subscription. -/
def State.gooseValue (s : State) (f : GooseFrame) (fresh : Bool) (v : Nat) : State :=
  let q := !s.flag (F.GOOSE_VAL_MAP_QEN v) || goodMember f.members[s.get (F.GOOSE_VAL_MAP_QMEM v)]?
  let valid := !f.ndsCom && (!f.test || s.flag F.PB_CFG_TEST_ACCEPT) && q
  let s1 := s.putB (F.GOOSE_VAL_DATA_VALID v) valid
  if !(fresh && valid) then s1
  else match gooseConv (s.get (F.GOOSE_VAL_MAP_TYPE v)) (s.get (F.GOOSE_VAL_MAP_DEC v)) f.members[s.get (F.GOOSE_VAL_MAP_MEM v)]? with
    | some x => s1.putS (F.GOOSE_VAL_DATA_VALUE v) x
    | none => (s1.put (F.GOOSE_VAL_DATA_VALUE v) s1.freeVal).freeStep

/-- R248: an accepted frame, of a new state or repeated: the TAL is restarted, the arrival recorded. -/
def State.gooseTake (s : State) (f : GooseFrame) (g : Nat) (fresh : Bool) : State :=
  let was := s.flag (F.GOOSE_SUB_STAT_VALID g)
  let s1 := (s.put (F.GOOSE_SUB_STNUM_NUM g) f.stNum).put (F.GOOSE_SUB_SQNUM_NUM g) f.sqNum
  let s2 := (s1.putB (F.GOOSE_SUB_STAT_NDSCOM g) f.ndsCom).putB (F.GOOSE_SUB_STAT_TEST g) f.test
  let s3 := (s2.put (F.GOOSE_SUB_STAT_VALID g) 1).put64 (R.GOOSE_SUB_ARR_LO g) (R.GOOSE_SUB_ARR_HI g) s.mtNs
  let s4 := s3.setGSub g { s3.gSub g with talEnd := s.now + f.tal * uMs }
  let s5 := (s4.gooseVals g).foldl (fun s v => s.gooseValue f fresh v) s4
  (s5.eventIf (!was) Ev.GOOSE_SUB_VALID noInst [.w g]).islFollow s.mtNs


/-- R250: the octet-string member of a safety subscription goes to the connections of the island that name it. -/
def State.gooseSafe (s : State) (f : GooseFrame) (g : Nat) : State :=
  let l := f.members.filterMap fun m => match m with
    | .octets b => some b
    | _ => none
  match l.head? with
  | some b => s.forN 4 fun s c => if s.safe.consSub c = g then s.safePdu c b else s
  | none => s

/-- R248: a frame with a data set, revision or number of entries other than configured. -/
def State.gooseConfRev (s : State) (g : Nat) : State :=
  ((s.gooseInvalid g).put (F.GOOSE_SUB_STAT_CONFREV_BAD g) 1).event Ev.GOOSE_CONFREV noInst [.w g]

/-- R248, R250: a frame offered to a subscription: the tests and the order of states. -/
def State.gooseFrame (s : State) (f : GooseFrame) (g : Nat) : State :=
  let x := s.gSub g
  if f.head.src ≠ s.mac (R.GOOSE_SUB_SRC_LO g) (R.GOOSE_SUB_SRC_HI g) ∨ f.appId ≠ s.get (F.GOOSE_SUB_DST_HI_APPID g) then
    let s1 := s.put (F.GOOSE_SUB_STAT_CONFLICT g) 1
    if s.quiet x.confAt (10 * uS) then
      (s1.setGSub g { x with confAt := some s.now }).event Ev.GOOSE_CONFLICT noInst [.w g, .d f.head.src]
    else s1
  else
    let s := if s.flag (F.GOOSE_SUB_CFG_SAFETY g) then s.gooseSafe f g else s
    let acc := s.flag F.PB_CFG_SIM_ACCEPT
    let only := acc && x.sim
    if (f.sim && !acc) || (!f.sim && only) then s
    else
      let s := s.setGSub g { x with sim := acc && (f.sim || only) }
      if f.datSet ≠ x.datSet ∨ f.confRev ≠ s.get (F.GOOSE_SUB_CONFREV_CONFREV g) ∨
          f.entries ≠ s.get (F.GOOSE_SUB_CFG_NMEM g) + 1 then s.gooseConfRev g
      else
        let st := s.get (F.GOOSE_SUB_STNUM_NUM g)
        let sq := s.get (F.GOOSE_SUB_SQNUM_NUM g)
        let ds := (f.stNum + 2 ^ 32 - st) % 2 ^ 32
        let dq := (f.sqNum + 2 ^ 32 - sq) % 2 ^ 32
        if (1 ≤ ds ∧ ds ≤ 2 ^ 31) ∨ s.get (F.GOOSE_SUB_STAT_VALID g) = 0 then (s.gooseTake f g true).offerRaw 4 g f.raw
        else if ds = 0 then (if 1 ≤ dq ∧ dq < 2 ^ 31 then s.gooseTake f g false else s)
        else s.count (F.GOOSE_SUB_STAT_OLD g) 1

/-- R247: the subscriptions that a frame is offered to. -/
def State.gooseOffered (s : State) (f : GooseFrame) (g : Nat) : Bool :=
  s.flag (F.GOOSE_SUB_CFG_EN g) && s.get (F.GOOSE_SUB_CFG_PAIR g) == f.head.port.val / 2 &&
  f.head.dst == s.mac (R.GOOSE_SUB_DST_LO g) (R.GOOSE_SUB_DST_HI g) && f.ref == (s.gSub g).ref

/-- GOOSE_FRAME_RX (R247–R250, R221). -/
def execGooseFrameRx (t : Nat) (f : GooseFrame) (s : State) : Host.Outcome State Fault Refusal :=
  atTime t s fun s => s.inDom domPBUS fun s =>
    let (s1, first) := s.ethRx f.head
    if !first then s1
    else
      match (List.range 128).filter (s1.gooseOffered f) with
      | [] => s1.count (F.PB_CNT_UNMATCHED_COUNT (f.head.port.val / 2)) 1
      | l => l.foldl (fun s g => s.gooseFrame f g) s1

/-- GOOSE_SUB_INVALID (R248, R249): the TAL has passed without another accepted frame. The spec names no code of the
cause: the event carries 1 (DESIGN CHOICE, log entry 199). -/
def execGooseSubInvalid (t : Nat) (g : Fin 128) (s : State) : Host.Outcome State Fault Refusal :=
  atTime t s fun s => s.inDom domPBUS fun s =>
    if s.flag (F.GOOSE_SUB_STAT_VALID g) ∧ (s.gSub g).talEnd ≤ s.now then
      (s.gooseInvalid g).event Ev.GOOSE_SUB_INVALID noInst [.w g.val, .w 1]
    else s

end Sys2Proof.Machine
end

