-- ==== Sys2Proof/Machine/Pour.lean ====
section
/-! DEFINITION. The Pour engine (R295–R314): building, submission, checks, staging, the commit token, the commit point
and the confirmation. -/

namespace Sys2Proof.Machine

/-- Codes of R302. -/
abbrev pOPEN : Nat := 1
abbrev pQUEUED : Nat := 2
abbrev pSTAGING : Nat := 3
abbrev pSTAGED : Nat := 4
abbrev pTOKEN : Nat := 5
abbrev pCOMMITTED : Nat := 6
abbrev pCONFIRMING : Nat := 7
abbrev pDONE : Nat := 8

def State.pid (s : State) (k : Nat) : Nat := s.get (F.POUR_SLOT_ID_ID k)
def State.setPstat (s : State) (k st : Nat) : State := s.put (F.POUR_SLOT_STAT_STATE k) st

/-! ### Building and submitting (R295–R297) -/

/-- R297: the slot that POUR_BEGIN takes: one never used, else the one that ended first. -/
def State.freeSlot (s : State) : Option Nat :=
  match (List.range 16).find? fun k => s.pstat k == 0 with
  | some k => some k
  | none => ((List.range 16).filter fun k => 8 ≤ s.pstat k).foldl (fun (a : Option Nat) k => match a with
      | none => some k
      | some j => if (s.pslot k).ended < (s.pslot j).ended then some k else some j) none

/-- R295: a slot is taken for a Pour of a session. -/
def State.takeSlot (s : State) (n k point zc req chain : Nat) : State :=
  let id := s.get F.POUR_NEXT_ID_ID
  let clean := [R.POUR_SLOT_STAT k, R.POUR_SLOT_CFG k, R.POUR_SLOT_SEQ k, R.POUR_SLOT_TC_LO k, R.POUR_SLOT_TC_HI k,
    R.POUR_SLOT_PROG k, R.POUR_SLOT_FAIL k, R.POUR_SLOT_UNCONF k]
  let s1 := (clean.foldl (fun s r => s.setWord r 0) s).put F.POUR_NEXT_ID_ID (if id = 0xFFFF then 1 else id + 1)
  let s2 := ((s1.setPstat k pOPEN).put (F.POUR_SLOT_STAT_SESSION k) n).put (F.POUR_SLOT_ID_ID k) id
  let s3 := ((s2.put (F.POUR_SLOT_CFG_POINT k) point).put (F.POUR_SLOT_CFG_ZC_PT k) zc).put (F.POUR_SLOT_CFG_CHAIN k) chain
  let s4 := (s3.put64 (R.POUR_SLOT_REQ_LO k) (R.POUR_SLOT_REQ_HI k) req).setPslot k {}
  s4.setSess n { s4.sess n with pour := some k }

/-- R453, R466: no Pour operation under major version 1 or in the ROM monitor. -/
def State.pourMay (s : State) (n : Nat) : Status :=
  if (s.sess n).active && ((s.sess n).major < 2 || s.mgmt.monitor) then .version else s.needLevel n 1

/-- POUR_BEGIN (R295): the answer's value is the Pour ID. -/
def execPourBegin (t : Nat) (n : SessIx) (point : Fin 4) (zc : Fin 16) (req : Nat) (chain : Bool) (s : State) :
    Host.Outcome State Fault Refusal :=
  atTime t s fun s =>
    if !s.isOn domMGMT then s
    else if !s.isOn domVOTE then s.answer n .domainOff 0
    else
      let open_ : Status := if (s.sess n).pour.isSome then .stateMismatch else .ok
      let full : Status := if s.freeSlot.isNone then .busy else .ok
      let bad : Status := if point.val = 3 ∨ 8 < zc.val ∨ s.mtNs + 86400 * 1000000000 < req then .badValue else .ok
      match (if s.pourMay n = .version then .version else (((s.pourMay n).worst open_).worst full).worst bad), s.freeSlot with
      | .ok, some k => (s.takeSlot n k point zc req (b2n chain)).answer n .ok (BitVec.ofNat 32 (s.get F.POUR_NEXT_ID_ID))
      | e, _ => s.answer n e 0

/-- R295: registers that no Pour may write. -/
def pourForbidden (x : RegRow) : Bool :=
  (0x50000 ≤ x.base && x.base < 0x51000) || (0xB00000 ≤ x.base && x.base < 0xC00000)

/-- R295: the judgement of one write of a Pour. -/
def State.pourJudge (s : State) (n k : Nat) (w : PWrite) : Status :=
  match decodeAddr w.addr with
  | none => .badAddr
  | some (x, r) =>
    let hit := x.fields.filter fun f => f.hit w.mask
    let new := (s.pslot k).writes.foldl State.applyOne s
    if hit.any (fun f => f.acc == .rwl) && s.needLevel n 1 != .ok then .locked
    else if pourForbidden x || x.onlyRO || readOnlyAt r || (!hit.isEmpty && hit.all fun f => f.acc == .ro) then .accessDenied
    else if 2048 ≤ (s.pslot k).writes.length then .pourTooLarge
    else if !writeFits x r (new.word r) w || ((new.applyOne w).wearSlow && !new.wearSlow) then .badValue
    else .ok

/-- POUR_ADD (R295). -/
def execPourAdd (t : Nat) (n : SessIx) (addr : Nat) (value mask : Word) (s : State) : Host.Outcome State Fault Refusal :=
  atTime t s fun s => s.access n domVOTE fun s =>
    match s.pourMay n, (s.sess n).pour with
    | .ok, some k =>
      match s.pourJudge n k ⟨addr, value, mask⟩ with
      | .ok =>
        let x := s.pslot k
        (.ok, (s.setPslot k { x with writes := x.writes ++ [⟨addr, value, mask⟩] }).put (F.POUR_SLOT_CFG_NWRITES k)
          (x.writes.length + 1))
      | e => (e, s)
    | .ok, none => (.stateMismatch, s)
    | e, _ => (e, s)

/-- POUR_COMMIT (R295): the open Pour is submitted; the answer's value is its submission number. -/
def execPourCommit (t : Nat) (n : SessIx) (s : State) : Host.Outcome State Fault Refusal :=
  atTime t s fun s =>
    if !s.isOn domMGMT then s
    else if !s.isOn domVOTE then s.answer n .domainOff 0
    else match s.pourMay n, (s.sess n).pour with
      | .ok, some k =>
        let x := s.pslot k
        if x.writes.isEmpty then s.answer n .badValue 0
        else
          let num := s.pour.subs + 1
          let s1 := ((s.setPstat k pQUEUED).put (F.POUR_SLOT_SEQ_SUBMIT k) num).setPslot k { x with prev := s.pour.last.get n }
          let s2 := s1.setPour fun p => { p with subs := num, last := p.last.set n (some num) }
          let s3 := s2.setSess n { s2.sess n with pour := none }
          (s3.event Ev.POUR_QUEUED noInst [.w (s.pid k), .w k, .w n.val]).answer n .ok (BitVec.ofNat 32 num)
      | .ok, none => s.answer n .stateMismatch 0
      | e, _ => s.answer n e 0

/-- POUR_ABORT (R295): the Pour of an ID, with result ABORT_USER. -/
def execPourAbort (t : Nat) (n : SessIx) (id : Nat) (s : State) : Host.Outcome State Fault Refusal :=
  atTime t s fun s => s.access n domVOTE fun s =>
    match s.pourMay n with
    | .ok =>
      match (List.range 16).find? fun k => s.pid k == id && pOPEN ≤ s.pstat k && s.pstat k ≤ pSTAGED with
      | none => (.stateMismatch, s)
      | some k =>
        let own := s.get (F.POUR_SLOT_STAT_SESSION k) == n.val && !(s.pslot k).orphan
        if !own && s.needLevel n 2 != .ok then (.accessDenied, s)
        else
          let m := s.get (F.POUR_SLOT_STAT_SESSION k)
          let s1 := s.pourAbort k 2 0 0 0
          (.ok, if (s1.sess m).pour = some k then s1.setSess m { s1.sess m with pour := none } else s1)
    | e => (e, s)

/-! ### Commit points (R300, R301) -/

/-- R302: the Pour at the head of the queue. -/
def State.pourHead (s : State) : Option Nat :=
  (s.bySeq ((List.range 16).filter fun k => pQUEUED ≤ s.pstat k && s.pstat k ≤ pTOKEN)).head?

/-- R303: the Pours committed but not yet in effect. -/
def State.committed (s : State) : List Nat := s.bySeq ((List.range 16).filter fun k => s.pstat k == pCOMMITTED)

/-- R303: the configuration as it will stand after every Pour committed but not yet in effect. -/
def State.afterCommitted (s : State) : State :=
  (s.committed.foldl (fun s k => (s.pslot k).writes.foldl State.applyOne s) s).forN 8 fun s c =>
    s.put (F.PWM_CLU_CMD_RESPREAD c) 0

/-- R296: that configuration with the writes of a Pour. -/
def State.pourNew (s : State) (k : Nat) : State := (s.pslot k).writes.foldl State.applyOne s.afterCommitted

/-- R310: the grid on which a Pour may take effect: a change of the control period needs a boundary of both grids. -/
def State.pourGrid (s : State) (k : Nat) : Nat :=
  let a := max 1 s.afterCommitted.period
  let b := max 1 (s.pourNew k).period
  (if a = b then a else Nat.lcm a b) * uClk

/-- The first boundary of a grid at or after an instant. -/
def gridUp (g t : Nat) : Nat := ceilDiv t g * g

/-- R300: the first positive zero crossing of a point at or after an instant, predicted from θ+ and FREQ. -/
def State.zeroCross (s : State) (p from_ : Nat) : Nat :=
  let x := s.gpt p
  let slope : Int := x.rep * (s.fnom * 4 : Nat)
  let turn : Int := 2 ^ 32 * uS
  let at_ : Int := (s.gridSeq p 0).2 * uS + slope * ((from_ : Int) - s.tK)
  let left := (3 * 2 ^ 30 * (uS : Int) - at_) % turn
  if slope ≤ 0 then from_ else from_ + ceilDiv left.toNat slope.toNat

/-- R300, R301: t_c of a Pour for an earliest instant: the t_c, or the result of the abort. -/
def State.commitPoint (s : State) (k from_ : Nat) : Except Nat Nat :=
  let g := s.pourGrid k
  let e := gridUp g (max from_ s.pour.lastTc)
  match s.get (F.POUR_SLOT_CFG_POINT k) with
  | 1 =>
    let p := s.get (F.POUR_SLOT_CFG_ZC_PT k)
    if s.get (F.GRID_PT_STAT_PH_VALID p) = 0 ∨ s.fstate p ≠ fTRACKING then .error 10
    else .ok (gridUp g (s.zeroCross p e))
  | 2 =>
    let r := gridUp g (s.get64 (R.POUR_SLOT_REQ_LO k) (R.POUR_SLOT_REQ_HI k) * 8)
    if r < e then .error 6 else .ok r
  | _ => .ok e

/-- t_c of a slot, planned or fixed. -/
def State.setTc (s : State) (k tc : Nat) : State :=
  (s.put64 (R.POUR_SLOT_TC_LO k) (R.POUR_SLOT_TC_HI k) (tc / 8)).setPslot k { s.pslot k with tc := some tc }

/-! ### Staged sets (R298, R299) -/

/-- R119, R134, R135: the offsets of a cluster as the Pour will leave them, and whether its carrier changes. -/
def State.carrierNext (s new : State) (c : Nat) : State × Bool :=
  let ks := (cellsOf c).filter fun k => s.inMap k || new.inMap k
  let car := s.diff new (F.PWM_CLU_CFG_CAR_P c) || s.diff new (F.PWM_CLU_CFG_SKEW c) ||
    ks.any fun k => s.diff new (F.CELL_CFG_PHASE k) || s.diff new (F.CELL_CFG_IN_MAP k)
  let re := new.flag (F.PWM_CLU_CMD_RESPREAD c)
  let n1 := if car then new.setOffsets c else new
  (if re then n1.respread c else n1, car || re)

/-- R298: the staged set of a cell, without its terminator. -/
def State.stagedItems (s new : State) (k tc : Nat) (car : Bool) : List Byte :=
  let ty := new.typeOf k
  let item (a : Nat) (v : List Byte) : List Byte := leBytes 2 a ++ [BitVec.ofNat 8 v.length] ++ v
  let a := if car then item 0x0100 (leBytes 4 (new.get (F.PWM_CLU_CFG_CAR_P (ringOf k))) ++
    leBytes 4 (new.get (F.PWM_CELL_OFF_OFF k)) ++ leBytes 8 (ceilDiv tc 8)) else []
  let time := s.diff new (F.PWM_TYPE_TIME_T_DT ty) || s.diff new (F.PWM_TYPE_TIME_T_MIN ty) ||
    s.get (F.PWM_TYPE_TIME_T_DT (s.typeOf k)) != new.get (F.PWM_TYPE_TIME_T_DT ty) ||
    s.get (F.PWM_TYPE_TIME_T_MIN (s.typeOf k)) != new.get (F.PWM_TYPE_TIME_T_MIN ty)
  let b := if time then item 0x0110 (leBytes 2 (new.get (F.PWM_TYPE_TIME_T_DT ty)) ++
    leBytes 2 (new.get (F.PWM_TYPE_TIME_T_MIN ty))) else []
  a ++ b

/-- R298, R299: the staged sets of the cells of a cluster that a Pour changes. -/
def State.stagedCluster (s new : State) (tc c : Nat) : List (Nat × List Byte) :=
  let (n1, car) := s.carrierNext new c
  (((cellsOf c).filter n1.inMap).map fun k => (k, s.stagedItems n1 k tc car)).filter fun e => !e.2.isEmpty

/-- R299: the sets of all clusters. -/
def State.stagedSets (s new : State) (tc : Nat) : List (Nat × List Byte) :=
  (List.range 8).flatMap fun c => s.stagedCluster new tc c

/-- R299: the targets among the cells whose parameters change. -/
def State.targetsOf (s : State) (l : List (Nat × List Byte)) : List PTarget :=
  (l.filter fun e => cNEGOTIATED ≤ s.cellState e.1).map fun e =>
    { cell := e.1, set := e.2 ++ [0xFF#8, 0xFF#8], out := s.cellState e.1 == cLOCKED_OUT }

/-- R302: a cell is still a target of a Pour in COMMITTED or CONFIRMING. -/
def State.targetBusy (s : State) (cell : Nat) : Bool :=
  (List.range 16).any fun j => (s.pstat j == pCOMMITTED || s.pstat j == pCONFIRMING) &&
    (s.pslot j).targets.any fun g => g.cell == cell

/-- R304: the STAGE requests of the targets of a slot that may be sent now. -/
def State.stageSend (s : State) (k : Nat) : State :=
  let x := s.pslot k
  let id := leBytes 2 (s.pid k)
  let go (g : PTarget) : Bool := !g.sent && !s.targetBusy g.cell
  let req (g : PTarget) (c : Nat) : MbxReq :=
    let part := bytesAt g.set (16 * c) 16
    { owner := 0, dst := posOf g.cell, op := 3, purpose := .stage k c,
      data := id ++ [BitVec.ofNat 8 c, BitVec.ofNat 8 part.length] ++ part }
  let s1 := s.setPslot k { x with targets := x.targets.map fun g => if go g then { g with sent := true } else g }
  (x.targets.filter go).foldl (fun s g => (s.mbxPost (ringOf g.cell) (req g 0)).mbxPost (ringOf g.cell) (req g 1)) s1

/-! ### Checks at the head (R303) -/

/-- R156: a write of the value of a signal that PARAM does not own. -/
def State.sigDenied (new : State) (w : PWrite) : Bool :=
  match decodeAddr w.addr with
  | some (_, r) => r.id == (R.CE_SIG 0).id && fieldOf w.mask 0 16 != 0 && new.sigOwner r.i != 3
  | none => false

/-- R303: a write whose domain is not on. -/
def State.domDown (s : State) (w : PWrite) : Bool :=
  match decodeAddr w.addr with
  | some (x, r) => !s.isOn (domOfReg x r)
  | none => true

/-- R303: the pages that a list of writes touches. -/
def touches (l : List PWrite) (p : Nat) : Bool := l.any fun w => pageOf w.addr == p

/-- R127, R303: a cluster with cells in READY or ACTIVE that the configuration does not fit, where the writes touch what
the test of R127 looks at. -/
def State.pwmUnfit (s base new : State) : Option Nat :=
  ((List.range 8).filter fun c => (cellsOf c).any fun k => s.cellState k == cREADY || s.cellState k == cACTIVE).findSome?
    fun c => if new.pwmFail c ≠ 0 ∧ (base.pwmFail c ≠ new.pwmFail c ∨ base.mixes new c) then some (new.pwmFail c) else none

/-- R41: the first write of a Pour, in their order, that changes the divider or format of an output that is and stays
enabled. A direct write answers BUSY; at a Pour it is a POUR_CONFLICT: DESIGN CHOICE, log entry 195. -/
def State.outClash (s : State) (l : List PWrite) : Option Nat :=
  (List.range l.length).find? fun n =>
    let a := (l.take n).foldl State.applyOne s
    let b := (l.take (n + 1)).foldl State.applyOne s
    (List.range 4).any fun k => outBusy (a.word (R.CLK_OUT_CFG k)) (b.word (R.CLK_OUT_CFG k))

/-- R311: a write names a field. -/
def PWrite.hits (w : PWrite) (f : Fld) : Bool := match decodeAddr w.addr with
  | some (_, r) => r == f.reg && fieldOf w.mask f.lo f.wd != 0
  | none => false

/-- R310, R311: a write names a field of the table of R310 for a cluster. -/
def State.namesMix (s : State) (w : PWrite) (c : Nat) : Bool :=
  let cells := (cellsOf c).filter fun k => s.inMap k || (s.applyOne w).inMap k
  let types := (cells.map fun k => s.typeOf k).eraseDups
  ([F.RING_CTL_PERIOD_PERIOD, F.PWM_CLU_CFG_CAR_P c, F.PWM_CLU_CFG_SKEW c, F.PWM_CLU_CFG_UPDATE_AT c,
    F.PWM_CLU_CMD_RESPREAD c] ++ types.flatMap fun n => [F.PWM_TYPE_TIME_T_MIN n, F.PWM_TYPE_TIME_T_DT n]).any w.hits ||
    cells.any fun k => w.hits (F.CELL_CFG_PHASE k) || w.hits (F.CELL_CFG_IN_MAP k)

/-- R303, R311: a cluster whose MIXED is 1, or will be once the Pours committed before have taken effect: DESIGN CHOICE,
log entry 198. -/
def State.mixedSoon (s : State) (c : Nat) : Bool :=
  s.flag (F.PWM_CLU_STAT_MIXED c) || s.mixes s.afterCommitted c ||
    s.committed.any fun k => (s.pslot k).writes.any fun w => s.namesMix w c

/-- R303: the writes `l` on the configuration `base` meet a POUR_CONFLICT rule. -/
def State.pourClash (s base : State) (l : List PWrite) : Bool :=
  let new := l.foldl State.applyOne base
  base.conflicts new ||
    (List.range 8).any fun c => s.mixedSoon c && (base.mixes new c || l.any fun w => base.namesMix w c)

/-- R303: the first failure of the checks of a Pour: status, check number, write index, and the block's own report. -/
def State.pourFail (s : State) (k : Nat) : Option (Status × Nat × Nat × Option CfgErr) :=
  let l := (s.pslot k).writes
  let base := s.afterCommitted
  let new := s.pourNew k
  let ix (f : PWrite → Bool) : Nat := (l.findIdx? f).getD 0
  if l.any s.domDown then some (.domainOff, 0, ix s.domDown, none)
  else if l.any new.sigDenied then some (.accessDenied, 0, ix new.sigDenied, none)
  else if s.pourClash base l then
    let bad (n : Nat) : Bool := s.pourClash base (l.take (n + 1))
    some (.pourConflict, 0, ((List.range l.length).find? bad).getD 0, none)
  else if (base.outClash l).isSome then some (.pourConflict, 0, (base.outClash l).getD 0, none)
  else match new.cfgCheck (touches l) none with
    | some e =>
      let bad (n : Nat) : Bool := ((((l.take (n + 1)).foldl State.applyOne base).cfgCheck (touches l) none).map (·.check)) == some e.check
      some (.badValue, e.check, ((List.range l.length).find? bad).getD 0, some e)
    | none => (s.pwmUnfit base new).map fun c =>
      let bad (n : Nat) : Bool := s.pwmUnfit base ((l.take (n + 1)).foldl State.applyOne base) == some c
      (.badValue, c, ((List.range l.length).find? bad).getD 0, none)

/-- R303: the checks have passed: STAGED without targets, else STAGING with t_c planned. -/
def State.pourStage (s : State) (k : Nat) : State :=
  let base := s.afterCommitted
  let new := s.pourNew k
  let sets := base.stagedSets new 0
  let clus := (sets.map fun e => ringOf e.1).eraseDups
  let targets := s.targetsOf sets
  let x := { s.pslot k with confirm := s.get F.POUR_CFG_CONFIRM }
  if targets.isEmpty then (s.setPslot k { x with clus := clus }).setPstat k pSTAGED
  else match s.commitPoint k (s.mtUnits + s.get F.POUR_CFG_STAGE_MAX * uMs) with
    | .error e => s.pourAbort k e 0 0 0
    | .ok tc =>
      let ts := s.targetsOf (base.stagedSets new tc)
      let s1 := (((s.setPslot k { x with clus := clus, targets := ts, stageAt := some s.mtUnits }).setTc k tc).put
        (F.POUR_SLOT_CFG_NTARGETS k) ts.length).put (F.POUR_SLOT_STAT_TARGETS k) 1
      (s1.setPstat k pSTAGING).stageSend k

/-- POUR_CHECK (R303, R308, R309): the first freeze after a Pour becomes the head. -/
def execPourCheck (t : Nat) (s : State) : Host.Outcome State Fault Refusal :=
  atTime t s fun s => s.inDom domVOTE fun s =>
    match s.pourHead with
    | none => s
    | some k =>
      let x := s.pslot k
      if !s.link.frozen ∨ s.pstat k ≠ pQUEUED then s
      else if !s.lanesRun then s.holdPours
      else if s.flag (F.POUR_SLOT_CFG_CHAIN k) && x.prev.any s.pour.aborted.contains then s.pourAbort k 9 0 0 0
      else match s.pourFail k with
        | some (st, check, w, e) =>
          let s1 := match e with
            | some e => s.logCheck e
            | none => s
          s1.pourAbort k 4 st.code check w
        | none => s.pourStage k

/-! ### The commit token (R300, R301, R305, R291) -/

/-- R305: the token is granted: the counted lanes and the mirror load the writes. -/
def State.grantToken (s : State) (k : Nat) : State :=
  let s1 := (s.setPstat k pTOKEN).put F.VOTE_LEASE_TOKEN_HELD 1
  s1.setPslot k { s1.pslot k with grant := some s1.link.cycle, lease := s1.tK + 2 * s1.periodU }

/-- POUR_TOKEN_GRANT (R300, R301, R305): T_G of the Pour at the head; a Pour that would need a grant before its staging
completes is LATE. -/
def execPourTokenGrant (t : Nat) (s : State) : Host.Outcome State Fault Refusal :=
  atTime t s fun s => s.inDom domVOTE fun s =>
    match s.pourHead with
    | none => s
    | some k =>
      let st := s.pstat k
      let x := s.pslot k
      if !s.link.begun || s.link.frozen || s.link.skip || !s.lanesRun then s
      else match x.stageAt, x.tc with
        | some _, some tc =>
          let g : Int := (tc / s.periodU : Nat) - (s.link.d : Int) - 3
          if (st ≠ pSTAGING ∧ st ≠ pSTAGED) ∨ (s.link.cycle : Int) < g then s
          else if st = pSTAGED ∧ (s.link.cycle : Int) = g then s.grantToken k
          else s.pourAbort k 6 0 0 0
        | _, _ =>
          if st ≠ pSTAGED then s
          else match s.commitPoint k (s.tK + 2 * s.periodU) with
            | .error e => s.pourAbort k e 0 0 0
            | .ok tc => (s.setTc k tc).grantToken k

/-- R305: COMMIT_AT on the rings of the targets, in three schedule frames. -/
def State.commitAt (s : State) (k tc : Nat) : State :=
  (s.pslot k).rings.foldl (fun s r => s.mbxPost r
    { owner := 0, dst := 0xFFFE, op := 4, data := leBytes 2 (s.pid k) ++ leBytes 8 (tc / 8), purpose := .commitAt k }) s

/-- R134, R310: once a Pour is committed, the engine decides with its new values every period that begins at or after
t_c: the bridge of each cell whose carrier changes, and the new T_MIN, T_DT and UPDATE_AT of every cell. -/
def State.foresee (s base new : State) (tc c : Nat) : State :=
  if !base.mixes new c then s
  else
    let (n1, car) := base.carrierNext new c
    let s1 := if car then s.bridges base n1 c tc else s
    ((cellsOf c).filter n1.inMap).foldl (fun s k =>
      s.setEng fun x => { x with soon := s.eng.soon.set k (some (tc, n1.timesOf k)) }) s1

/-- POUR_COMMITTED (R305): VL forwards the ready word. -/
def execPourCommitted (t : Nat) (s : State) : Host.Outcome State Fault Refusal :=
  atTime t s fun s => s.inDom domVOTE fun s =>
    match (List.range 16).find? fun k => s.pstat k == pTOKEN with
    | none => s
    | some k =>
      let x := s.pslot k
      let tc := x.tc.getD 0
      if !s.lanesRun || !s.vlWorks || !s.link.frozen || decide (x.lease < s.mtUnits) then s
      else
        let s1 := ((s.setPstat k pCOMMITTED).put F.VOTE_LEASE_TOKEN_HELD 0).setPour fun p => { p with lastTc := tc }
        let s2 := (s1.event Ev.POUR_COMMITTED noInst [.w (s.pid k), .d (tc / 8)]).commitAt k tc
        s2.forN 8 fun s2 c => s2.foresee s.afterCommitted (s.pourNew k) tc c

/-- POUR_TOKEN_EXPIRED (R291, R305, R309). -/
def execPourTokenExpired (t : Nat) (s : State) : Host.Outcome State Fault Refusal :=
  atTime t s fun s => s.inDom domVOTE fun s =>
    match (List.range 16).find? fun k => s.pstat k == pTOKEN with
    | none => s
    | some k =>
      if s.mtUnits < (s.pslot k).lease then s
      else
        let s1 := ((s.put F.VOTE_LEASE_TOKEN_HELD 0).count F.VOTE_LEASE_CNT_TOKEN 1).event Ev.LEASE_EXPIRED noInst
          (natData [0, 0, 0xFF])
        s1.pourAbort k (if s.lanesRun then 7 else 8) 0 0 0

/-! ### The commit point and after (R306, R307) -/

/-- The writes of a Pour that act beyond their fields. -/
def actsWrite (w : PWrite) : Bool := match decodeAddr w.addr with
  | some (_, r) => acts r
  | none => false

/-- R305: COMMIT_AT goes in frames before t_c only: what is left of it at t_c is withdrawn. -/
def State.dropCommitAt (s : State) (k r : Nat) : State :=
  let mine (q : MbxReq) : Bool := q.purpose == .commitAt k
  let x := s.ring r
  let s1 := s.setRing r { x with queue := x.queue.filter fun q => !mine q }
  match x.out with
  | some o => if mine o.req then
      ((s1.setRing r { s1.ring r with out := none }).put (F.RING_MBX_STAT_BUSY r) 0).mbxNext r else s1
  | none => s1

/-- R306: one Pour takes effect, but for the writes that act. -/
def State.takeEffect (s : State) (k : Nat) : State :=
  let x := s.pslot k
  let s1 := (x.writes.filter fun w => !actsWrite w).foldl State.applyOn (x.rings.foldl (fun s r => s.dropCommitAt k r) s)
  (s1.commitAll s (x.tc.getD 0)).setPstat k pCONFIRMING

/-- R306, R312: the Pours whose commit point has come, in submission order. -/
def State.duePours (s : State) : List Nat :=
  s.bySeq ((List.range 16).filter fun k => s.pstat k == pCOMMITTED && decide ((s.pslot k).tc.getD 0 ≤ s.mtUnits))

/-- R307: a marked cell in READY or ACTIVE of a running cluster is bypassed, with reason UNREACHABLE. -/
def State.bypassMarked (s : State) (k : Nat) : State :=
  let st := s.cellState k
  if s.marked k && s.cluRunning (ringOf k) && (st == cACTIVE || st == cREADY) then (s.setCell k cBYPASSED 0x0D).faultBypass k
  else s

/-- R307: an unconfirmed target is marked; it is bypassed at this freeze, or at the next one (R102). -/
def State.markCell (s : State) (id k : Nat) : State :=
  let s1 := (s.put (staleFld k) 1).setPour fun p => { p with markId := p.markId.set k id, left := p.left.set k 0 }
  let s2 := s1.event Ev.POUR_UNCONFIRMED noInst [.w id, .w k]
  if s2.atFreeze then s2.bypassMarked k else s2

/-- R299: cells that waited for a Pour of their cluster are given the values in effect. -/
def State.freeParams (s : State) (clus : List Nat) : State :=
  (clus.filter fun c => !s.holdsParams c).foldl (fun s c => (cellsOf c).foldl (fun s k =>
    if s.cellState k = cNEGOTIATED ∧ !(s.cell k).paramAsked then s.askParams k else s) s) s

/-- POUR_EFFECTIVE (R306, R307): CONFIRM cycles after t_c. -/
def execPourEffective (t : Nat) (s : State) : Host.Outcome State Fault Refusal :=
  atTime t s fun s => s.inDom domVOTE fun s =>
    let excess (k : Nat) : Bool := s.pstat k == pCONFIRMING &&
      decide ((s.pslot k).tc.getD 0 + ((s.pslot k).confirm - 1) * s.periodU ≤ s.tK)
    match (s.bySeq ((List.range 16).filter excess)).head? with
    | none => s
    | some k =>
      if !s.link.frozen then s
      else
        let x := s.pslot k
        let un := x.targets.filter fun g => !g.conf
        let s1 := ((s.setPstat k pDONE).put (F.POUR_SLOT_STAT_RESULT k) 1).countWrap F.POUR_CNT_EFFECTIVE
        let s2 := ((s1.put (F.POUR_SLOT_UNCONF_CELLS k) un.length).setPslot k { x with ended := s.pour.ends + 1 }).setPour
          fun p => { p with ends := p.ends + 1 }
        let s3 := s2.event Ev.POUR_EFFECTIVE noInst [.w (s.pid k), .w un.length]
        (un.foldl (fun s g => s.markCell (s.pid k) g.cell) s3).freeParams x.clus

/-! ### Acknowledgement, confirmation and refresh (R304, R306, R307, R309) -/

/-- R304: a STAGE_FAIL abort. -/
def State.stageFail (s : State) (k cell reply : Nat) : State :=
  if s.pstat k ≠ pSTAGING then s
  else (s.event Ev.POUR_STAGE_FAIL noInst [.w (s.pid k), .w cell, .w reply]).pourAbort k 5 0 0 cell

/-- R304: a chunk of a target is answered OK. -/
def State.stageOk (s : State) (k cell chunk : Nat) : State :=
  let x := s.pslot k
  let ack (g : PTarget) : PTarget := if g.cell ≠ cell then g else if chunk = 0 then { g with ack0 := true } else { g with ack1 := true }
  if s.pstat k ≠ pSTAGING then s else s.setPslot k { x with targets := x.targets.map ack }

/-- R304, R306: what the slots of the present freeze say of the targets of a Pour. -/
def State.pourSlots (s : State) (k : Nat) : State :=
  let st := s.pstat k
  let x := s.pslot k
  if st = pSTAGING then
    let gone (g : PTarget) : Bool := !g.acked && (s.cellState g.cell == cABSENT || (s.cellState g.cell == cLOCKED_OUT && !g.out))
    match x.targets.find? gone with
    | some g => (s.stageFail k g.cell s.freeVal).freeStep
    | none =>
      let see (g : PTarget) : PTarget :=
        if g.ack0 && g.ack1 && (s.cell g.cell).fresh && s.statusBit g.cell 6 then { g with acked := true } else g
      let l := x.targets.map see
      let s1 := (s.setPslot k { x with targets := l }).put (F.POUR_SLOT_PROG_ACKED k) (l.filter (·.acked)).length
      if l.all (·.acked) then s1.setPstat k pSTAGED else s1.stageSend k
  else if st = pCONFIRMING then
    let see (g : PTarget) : PTarget :=
      if (s.cell g.cell).fresh && s.statusBit g.cell 7 && decide (x.tc.getD 0 ≤ s.tK) then { g with conf := true } else g
    let l := x.targets.map see
    (s.setPslot k { x with targets := l }).put (F.POUR_SLOT_PROG_CONFIRMED k) (l.filter (·.conf)).length
  else s

/-- R307: the refresh of a marked cell whose slots are accepted again. -/
def State.refreshCell (s : State) (k : Nat) : State :=
  if !s.marked k || !(s.cell k).fresh || s.pour.left.get k != 0 || decide (s.cellState k < cNEGOTIATED) then s
  else
    let l := (s.nodeParams k).take 5
    let s1 := (s.abortStage (s.pour.markId.get k) (ringOf k)).setPour fun p => { p with left := p.left.set k l.length }
    l.foldl (fun s d => s.mbxPost (ringOf k)
      { owner := 0, dst := posOf k, op := 2, data := d, purpose := .refresh false }) s1

/-- R307: a refresh write is answered: the mark clears with the last one; any other reply starts the refresh again. -/
def State.refreshReply (s : State) (k : Nat) (ok : Bool) : State :=
  let n := s.pour.left.get k
  if !s.marked k || n == 0 then s
  else if !ok then
    let r := ringOf k
    let keep (q : MbxReq) : Bool := !(q.dst == posOf k && match q.purpose with
      | .refresh _ => true
      | _ => false)
    (s.setRing r { s.ring r with queue := (s.ring r).queue.filter keep }).setPour fun p => { p with left := p.left.set k 0 }
  else if n = 1 then (s.unmark k).event Ev.POUR_CELL_REFRESHED noInst [.w k]
  else s.setPour fun p => { p with left := p.left.set k (n - 1) }

/-- R304, R306, R307, R309: the engine at an input freeze. -/
def State.pourFreeze (s : State) : State :=
  let s1 := s.forN 16 fun s k => s.pourSlots k
  let marked := (List.range 1024).filter s1.marked
  let s2 := marked.foldl (fun s k => (s.bypassMarked k).refreshCell k) s1
  if s2.lanesRun then
    (s2.pour.owed.foldl (fun s e => s.abortStage e.1 e.2) s2).setPour fun p => { p with owed := [] }
  else s2

end Sys2Proof.Machine
end

