-- ==== Sys2Proof/Machine/Cycle.lean ====
section
/-! DEFINITION. The control cycle (R22–R29): the input freeze with the pass of the lanes, and the schedule launch. -/

namespace Sys2Proof.Machine

/-! ### Slots at the freeze (R23, R73, R74, R103–R107) -/

/-- R73: the copy of a cycle that the lanes use: the one that arrived first, that of port A on a tie. -/
def pickCopy : List SlotCopy → Option SlotCopy
  | [] => none
  | c :: r => match pickCopy r with
    | none => some c
    | some d => if d.at_ < c.at_ ∨ (d.at_ = c.at_ ∧ c.portB ∧ !d.portB) then some d else some c

/-- R96, R87: runs of good and bad alignment at an accepted slot; a v1 slot has none. -/
def CellX.align (x : CellX) (v1 : Bool) : CellX :=
  if v1 then x
  else if x.alignErr.natAbs ≤ 64 then { x with alignRun := min 16 (x.alignRun + 1), alignBad := 0 }
  else { x with alignRun := 0, alignBad := x.alignBad + 1 }

/-- R106: the trips that an accepted slot adds, and the baseline after it. -/
def CellX.tripStep (x : CellX) (v1 : Bool) (b : List Byte) : Nat × Option Nat :=
  if v1 then (b2n (bit (leAt b 14 2) 3), none)
  else match x.tripBase with
    | some o => ((byteAt b 18 + 256 - o) % 256, some (byteAt b 18))
    | none => (0, some (byteAt b 18))

/-- R73, R103, R106: an accepted slot of a cell is mirrored; its status, alignment and trips are taken. -/
def State.takeSlot1 (s : State) (k : Nat) (b : List Byte) : State :=
  let v1 := s.ringV1 (ringOf k)
  let s1 := s.forN 8 fun s w => s.setWord (R.CELL_TLM k w) (BitVec.ofNat 32 (leAt b (4 * w) 4))
  let s2 := ((s1.put (F.CELL_TLM_CYCLE_CYCLE k) s.link.cycle).put (F.CELL_TLM_AGE_AGE k) 0).put (F.CELL_STALE_RUN k) 0
  if s.cellState k = cABSENT then s2
  else
    let x := s2.cell k
    let y := ({ x with fresh := true, slotK := s.link.cycle, status := leAt b 14 2, diag := byteAt b 19,
                       alignErr := signedOf 16 (leAt b 20 2) }).align v1
    let asym := bit (leAt b 14 2) 11
    let s3 := (s2.setCellX k { y with asym := asym }).eventIf (asym && !x.asym) Ev.ASYM_UNKNOWN k []
    if s.cellState k < cNEGOTIATED then s3
    else
      let (n, base) := y.tripStep v1 b
      ((s3.setCellX k { s3.cell k with tripBase := base }).noteTrips k n).tripWindow k

/-- R74, R106: no slot for a cell in this cycle: on a v1 ring the slot of the even cycle before serves an odd one. -/
def State.missSlot (s : State) (k : Nat) : State :=
  let r := ringOf k
  let x := s.cell k
  if s.ringV1 r ∧ s.link.cycle % 2 = 1 then
    s.setCellX k { x with fresh := x.fresh && x.slotK + 1 == s.link.cycle }
  else
    let s1 := if x.fresh then s.setCellX k { x with fresh := false } else s
    let s2 := s1.count (F.RING_CNT_STALE_COUNT r) 1
    if s.cellState k = cABSENT then s2
    else (s2.count (F.CELL_STALE_RUN k) 1).count (F.CELL_STALE_TOTAL k) 1

/-- R23: the slots of a ring at the freeze. -/
def State.ringSlots (s : State) (r : Nat) : State :=
  if !s.ringRuns r || !s.works (domRING r) then s
  else s.forN (min 128 (s.nCells r)) fun s p =>
    let x := s.ring r
    let all := x.copies.get p
    let s1 := s.setRing r { x with copies := x.copies.set p (all.filter fun c => decide (s.link.cycle < c.cycle)) }
    match pickCopy (all.filter fun c => c.cycle == s.link.cycle) with
    | some c => s1.takeSlot1 (128 * r + p) c.bytes
    | none => s1.missSlot (128 * r + p)

/-- R103–R107, R131, R189: the accepted slots act on the cell table; the clusters for which R104 asks a halt. -/
def State.cellSlots (s : State) : State × List Nat :=
  (s.liveCells).foldl (fun (a : State × List Nat) k =>
    let s := a.1
    if !(s.cell k).fresh || (s.ringV1 (ringOf k) && s.link.cycle % 2 == 1) then
      (((s.haltSeq k).tripWindow k).mpptMiss k, a.2)
    else
      let (bad, s1) := s.slotFreeze k
      ((s1.pwmFreeze k).mpptSlot k, if bad then ringOf k :: a.2 else a.2)) (s, [])

/-- R116, R179: the halts seen at this freeze. -/
def State.haltsSeen (s : State) : State :=
  s.forN 8 fun s r =>
    let q := s.get (F.RING_HALT_STAT_HALT_SEQ r)
    if (s.ring r).haltSeen = q then s
    else
      let s1 := s.setRing r { s.ring r with haltSeen := q }
      s1.setGclu r { s1.gclu r with halted := true }

/-- R179: the freeze of the first cycle of a start resets the current-control program. -/
def State.firstCycle (s : State) (c : Nat) : State :=
  if (s.gclu c).starts then (s.setGclu c { s.gclu c with starts := false }).resetProg c else s

/-- R104: the lane halt request of a cluster. -/
def State.clusterHalt (s : State) (c : Nat) : State := (s.event Ev.CELL_CLUSTER_HALT c []).laneHalt c

/-- R96–R100, R112: what the sequences of a cell do at a freeze: admission, the disposition still to be written, the
diagnosis of a NEGOTIATED cell, the end of the zero state. -/
def State.cellSteps (s : State) (k : Nat) : State :=
  let s1 := (s.admitCell k).tryDiag k
  let st := s1.cellState k
  let s2 := if s1.flag (F.CELL_STATE_DISP_PEND k) ∧ st ≠ cABSENT then
    s1.askDisp k (s1.cell k).dispWant else s1
  s2.zeroDone k

/-- R109: the margin of a phase at the freeze, and its events as it falls. -/
def State.marginFreeze (s : State) (c ph : Nat) : State :=
  if s.nMap c ph = 0 then s
  else
    let m := s.mNow c ph
    let old := s.cells.margin.get (3 * c + ph)
    let cfg : Int := s.get (F.CELL_PHASE_CFG_M_CFG c ph)
    let was (lim : Int) : Bool := match old with
      | some o => decide (lim ≤ o)
      | none => false
    let s1 := s.setCells fun x => { x with margin := s.cells.margin.set (3 * c + ph) (some m) }
    let s2 := s1.eventIf (decide (m < cfg) && was cfg) Ev.CELL_MARGIN_LOW c []
    s2.eventIf (decide (m < 0) && was 0) Ev.CELL_MARGIN_EXHAUSTED c []

/-- R216: the start window of a cluster ends early once a cell of it is ACTIVE. -/
def State.startWindow (s : State) (c : Nat) : State :=
  if (s.cells.winEnd.get c).isSome && s.cluActive c then
    s.setCells fun x => { x with winEnd := s.cells.winEnd.set c none }
  else s

/-! ### The pass of the control engine (R142, R146) -/

/-- R146: the fields of a slot that are signed. -/
def slotSigned (off : Nat) : Bool := off == 4 || off == 6 || off == 12 || off == 20 || off == 24

/-- R146: the raw value that an import source presents at the freeze. -/
def State.ceSource (s : State) (cls ix fld : Nat) : Int :=
  match cls with
  | 1 =>
    let v := fieldOf (s.word (R.CELL_TLM ix (fld / 4))) (fld % 4 * 8) 16
    if slotSigned fld then signedOf 16 v else (v : Int)
  | 2 => s.gridQty ix
  | 3 => s.bsiImport ix
  | 4 => s.iadcImport ix
  | 5 => (s.gooseVal ix).1
  | 6 =>
    let c := ix / 4
    let ph := ix % 4
    if 2 < ph then 0
    else match fld with
      | 0 => ((s.actives c ph).length : Int)
      | 1 => s.mNow c ph
      | _ => satN 65535 (s.vCap c ph)
  | 7 => (s.cmpBits fld : Int)
  | _ => 0

/-! ### The input freeze (R23) -/

/-- R25, R155: the instant at which the pass of the present cycle publishes: t_ce, t_vote and t_pwm after the freeze. -/
def State.pubAt (s : State) : Nat := s.tFreeze + (s.get F.RING_TCE_TCE + 10 + 512) * uClk

/-- R24, R121–R131: the pass has formed what the launch of its cycle sends. -/
def State.publish (s : State) : State :=
  let s0 := s.liveCells.foldl (fun s k =>
    s.setCellX k { s.cell k with older := ((s.cell k).staged :: (s.cell k).older).take 3 }) s
  let s1 := (if s0.vlWorks then s0.pwmRun.legRun else s0.pwmRun).signPass
  s1.setLink fun x => { x with passes := ({ k := s1.link.cycle, at_ := s1.gridK, pub := s1.pubAt } :: s1.link.passes).take 4 }

/-! ### The schedule launch (R24, R75–R77, R288, R514) -/

/-- R77, R379: the token of a frame: PRESENT in the first frame after a 500 µs step of module time, and at once after an
off-token. -/
def State.tokenDue (s : State) (r : Nat) : Bool :=
  s.works domSAFE && ((s.ring r).tokStep != some (s.mtUnits / (500 * uUs)) || s.safe.urgent.contains r)

/-- R75: the entry of a cell's pass: 0 the last one, 1 the one before it, and so on. -/
def CellX.entryOf (x : CellX) (ix : Nat) : SchedEntry := match ix with
  | 0 => x.staged
  | n + 1 => x.older.getD n {}

/-- R75: the schedule frame of a ring, with the entries of a pass and its cycle. -/
def State.schedFrame (s : State) (r cycle tApply ix : Nat) : SchedFrame :=
  let x := s.ring r
  let en := s.tokenBytes r
  let present := s.tokenDue r
  let tseq := s.get F.SAFE_TSEQ_TSEQ
  let safe := leBytes 2 tseq ++ [if present then 1#8 else 0#8, 0#8] ++ en
  { tApply := tApply / 8, cycle := cycle % 2 ^ 32, haltSeq := x.hdrSeq,
    mid := s.updEff r == 1, haltActive := s.flag (F.RING_HALT_STAT_HALT_ACTIVE r),
    tseq := tseq, present := present, enable := leValue en, tchk := crcSafe (0x5AFE5AFE ^^^ r) safe,
    mbx := x.out.map fun o => (o.req, o.seq),
    entries := (List.range (min 128 (s.nCells r))).map fun p => (s.cell (128 * r + p)).entryOf ix }

/-- R76, R82, R216: what the launch of a frame leaves: entries sent, RELEASE followed by RUN, broadcasts counted, the
lease of a request from its first send. -/
def State.afterLaunch (s : State) (r : Nat) (f : SchedFrame) : State :=
  let s1 := ((List.range f.entries.length).zip f.entries).foldl (fun s e =>
    let k := 128 * r + e.1
    let x := s.cell k
    let y := { x with sent := e.2, mode := if e.2.mode = mRELEASE ∧ x.mode = mRELEASE then mRUN else x.mode }
    if x = y then s else s.setCellX k y) s
  let x := s1.ring r
  let s2 := s1.setRing r { x with tokStep := if f.present then some (s.mtUnits / (500 * uUs)) else x.tokStep }
  let s3 := s2.setSafe fun y => { y with urgent := if f.present then y.urgent.filter (· != r) else y.urgent }
  match (s3.ring r).out with
  | none => s3
  | some o =>
    let o1 := { o with sent := true, due := if o.sent then o.due else s.mtUnits + uMs, left := o.left - 1 }
    let s3 := if o.sent then s3 else s3.refSent r o.req
    if o.req.dst = 0xFFFE ∧ o.left ≤ 1 then
      ((s3.setRing r { s3.ring r with out := none }).put (F.RING_MBX_STAT_BUSY r) 0).mbxNext r
    else s3.setRing r { s3.ring r with out := some o1 }

/-- R24, R85: a frame leaves the ports of a ring that launch. -/
def State.launchRing (s : State) (cycle tApply ix : Nat) (r : Nat) : State :=
  if !s.ringRuns r || !s.works (domRING r) || !(s.portLaunches r false || s.portLaunches r true) then s
  else
    let f := s.schedFrame r cycle tApply ix
    let a := s.portLaunches r false
    let b := s.portLaunches r true
    let one (p : Nat) (s : State) : State := s.launchTx r p (s.ringV1 r) tApply (.schedule f)
    let s1 := if a then one 0 (s.afterLaunch r f) else s.afterLaunch r f
    let s2 := if b then one 1 s1 else s1
    let corr := (((s2.ring r).tx.get (b2n !a)).map (·.corr)).getD 0
    s2.setRing r { s2.ring r with sched := some (f, corr, a && b, b) }

/-- R24: the cycle start (on the grid in force) whose launch instant is the latest at or before now. -/
def State.launchK (s : State) : Option Nat :=
  let l := s.get F.RING_LAUNCH_LAUNCH * uClk
  if s.mtUnits < l then none else some ((s.mtUnits - l) / s.periodU * s.periodU)

/-- R24, R155, R288, R514: the pass whose entries a launch sends, counted from the last one: that of the launch's cycle,
or the last before it that has published by now. -/
def State.launchPass (s : State) (tK : Nat) : Option (Pass × Nat) :=
  (s.link.passes.zip (List.range s.link.passes.length)).find? fun p => decide (p.1.at_ ≤ tK) && decide (p.1.pub ≤ s.mtUnits)

/-- SCHEDULE_LAUNCH (R24, R77, R288, R514): at the launch instant of a cycle, the entries of its pass; where that pass
was skipped or has not published, those of the last pass that has. -/
def execScheduleLaunch (t : Nat) (s : State) : Host.Outcome State Fault Refusal :=
  atTime t s fun s => s.inDom domVOTE fun s =>
    match s.launchK with
    | none => s
    | some tK =>
      if s.clk.suspendAt.isSome || !s.lanesRun || !s.link.begun || s.link.lastLaunch == some tK then s
      else match s.launchPass tK with
        | some (p, ix) =>
          (s.setLink fun x => { x with lastLaunch := some tK }).forN 8 fun s r =>
            s.launchRing p.k (tK + s.link.d * s.periodU) ix r
        | none => s

end Sys2Proof.Machine
end

