-- ==== Sys2Proof/Machine/Mailbox.lean ====
section
/-! DEFINITION. The ring mailbox (R81, R82, R291, R292): replies and the lease. -/

namespace Sys2Proof.Machine

/-- The request is over: nothing outstanding on the ring, and the next one is placed. -/
def State.mbxDone (s : State) (r : Nat) : State :=
  ((s.setRing r { s.ring r with out := none }).put (F.RING_MBX_STAT_BUSY r) 0).mbxNext r

/-- R96, R97, R100, R118, R186, R304, R307, R357: what the owner of a request does with an OK reply. -/
def State.mbxOk (s : State) (k : Nat) (q : MbxReq) (data : List Byte) : State :=
  let x := s.cell k
  match q.purpose with
  | .ident 0 => s.setCellX k { x with ident0 := true }
  | .ident _ => s.setCellX k { x with ident1 := true }
  | .dispRead =>
    if s.flag (F.CELL_STATE_DISP_PEND k) then s else s.setCellX k { x with disp := some (byteAt data 0) }
  | .dispWrite => if q = dispReq k x.dispWant then s.put (F.CELL_STATE_DISP_PEND k) 0 else s
  | .param =>
    let s1 := s.setCellX k { x with paramPend := x.paramPend - 1 }
    if leAt q.data 0 2 = 0x0200 then s1.put (F.MPPT_CELL_REF_VREF k) (leAt q.data 2 2) else s1
  | .diag => s.diagAccepted k
  | .vstrRef v => s.refAnswered k v
  | .stage j c => s.stageOk j k c
  | .commitAt _ => s
  | .abortStage _ => s
  | .refresh _ => s.refreshReply k true
  | .wearRead p => s.wearLoad k p data
  | .wearWrite p => s.wearWritten k p

/-- The same of a request that ends otherwise: `code` is the reply's status, none where the lease ran out. What must be
repeated until it is answered OK is asked again. -/
def State.mbxBad (s : State) (k : Nat) (q : MbxReq) (code : Option Nat) : State :=
  match q.purpose with
  | .dispWrite =>
    if s.flag (F.CELL_STATE_DISP_PEND k) && q == dispReq k (s.cell k).dispWant then s.mbxPost (ringOf k) q else s
  | .param =>
    if s.cellState k < cNEGOTIATED then s
    else s.mbxPost (ringOf k) { q with data := ((s.nodeParams k).find? fun d => d.take 2 == q.data.take 2).getD q.data }
  | .diag => s.cellEvent .diagUnanswered k
  | .stage j _ => match code with
    | some c => s.stageFail j k c
    | none => (s.stageFail j k s.freeVal).freeStep
  | .refresh _ => s.refreshReply k false
  | _ => s

/-- R82: the reply to the outstanding request, with status 0 OK, 2 REFUSED or 3 BAD_OP. -/
def State.mbxEnd (s : State) (r : Nat) (q : MbxReq) (a : MbxRep) : State :=
  let k := 128 * r + a.src
  let s1 := ((s.put (F.RING_MBX_STAT_LAST_STATUS r) a.status).put (F.RING_MBX_STAT_LAST_TIMEOUT r) 0).put
    (F.RING_MBX_STAT_BUSY r) 0
  let s2 := s1.setRing r { s1.ring r with out := none }
  (if a.status = 0 then s2.mbxOk k q a.data else s2.mbxBad k q (some a.status)).mbxNext r

/-- R82, R291, R292: a reply as read at the freeze. -/
def State.mbxReply (s : State) (r : Nat) (a : MbxRep) : State :=
  let x := s.ring r
  match x.out with
  | some o =>
    if o.sent && o.seq == a.seq && o.req.dst == a.src then
      if a.status = 1 then
        let s1 := s.put (F.RING_MBX_STAT_LAST_STATUS r) 1
        if o.busy < 4 then s1.setRing r { x with out := some { o with busy := o.busy + 1, due := s.mtUnits + uMs } } else s1
      else s.mbxEnd r o.req a
    else if x.gone.contains a.seq then
      (s.setRing r { x with gone := x.gone.erase a.seq }).count F.VOTE_LEASE_CNT_LATE 1
    else s
  | none =>
    if x.gone.contains a.seq then
      (s.setRing r { x with gone := x.gone.erase a.seq }).count F.VOTE_LEASE_CNT_LATE 1
    else s

/-- MBX_REPLY (R82): the reply held for the freeze is read and acted on by the owner of the request. -/
def execMbxReply (t : Nat) (r : RingIx) (s : State) : Host.Outcome State Fault Refusal :=
  atTime t s fun s => s.inDom domVOTE fun s =>
    match s.atFreeze, (s.ring r).rep with
    | true, some a => (s.setRing r { s.ring r with rep := none }).mbxReply r a
    | _, _ => s

/-- R291: the lease of a request has run out: the request is withdrawn. -/
def State.mbxExpire (s : State) (r : Nat) (o : MbxOut) : State :=
  let x := s.ring r
  let s1 := s.setRing r { x with out := none, gone := o.seq :: x.gone.filter (· != o.seq) }
  let s2 := ((s1.put (F.RING_MBX_STAT_BUSY r) 0).put (F.RING_MBX_STAT_LAST_TIMEOUT r) 1).count (F.RING_CNT_MBX_TO_COUNT r) 1
  let s3 := (s2.count F.VOTE_LEASE_CNT_MBX 1).event Ev.MBX_TIMEOUT r []
  let s4 := s3.event Ev.LEASE_EXPIRED noInst (natData [2, o.req.owner, r])
  (s4.mbxBad (128 * r + o.req.dst) o.req none).mbxNext r

/-- MBX_LEASE_EXPIRED (R291): 1 ms after the first send, or after the last BUSY reply that restarted the lease. -/
def execMbxLeaseExpired (t : Nat) (r : RingIx) (s : State) : Host.Outcome State Fault Refusal :=
  atTime t s fun s => s.inDom domVOTE fun s =>
    match (s.ring r).out with
    | some o => if o.sent && o.req.dst != 0xFFFE && decide (o.due ≤ s.mtUnits) then s.mbxExpire r o else s
    | none => s

end Sys2Proof.Machine
end

