-- ==== Sys2Proof/Machine/View.lean ====
section
/-! DEFINITION. What a read returns where a register shows state that the register file does not hold: present times,
summaries, ages, and what other parts of the state hold (R12, R44, R469). -/

namespace Sys2Proof.Machine

/-- A field of a word replaced. -/
def showF (w : Word) (f : Fld) (v : Nat) : Word := setBits w f.lo f.wd v

/-- Whole units of time since an instant, saturating in 16 bits. -/
def State.age16 (s : State) (at_ unit : Nat) : Nat := satN 65535 (s.since at_ / unit)

/-- The 32-bit half of a 64-bit value. -/
def half (hi : Bool) (v : Nat) : Word := BitVec.ofNat 32 (if hi then v / 2 ^ 32 else v)

/-! ### Identity, time, power (R43–R57, R430, R453) -/

/-- R44: FRAC of the present module time. -/
def State.fracNow (s : State) : Word := BitVec.ofNat 32 (s.mtUnits % 8)

/-- R425: a word of an entry of the fallback log. -/
def State.flogWord (s : State) (e w : Nat) : Word :=
  match s.log.flog.get e with
  | some x => BitVec.ofNat 32 (leAt x.bytes (4 * w) 4)
  | none => 0

/-- R425: the areas of the retained RAM in words: first word, length. -/
def ramAreas : List (Nat × Nat) := [(0, 64), (64, 64), (128, 256), (384, 256), (640, 128), (768, 256)]

/-- R425: what an area holds. -/
def State.ramContent (s : State) (area : Nat) : List Int :=
  match area with
  | 0 => [s.clk.rtcUtc, b2n s.clk.rtcLeap61, b2n s.clk.rtcLeap59, s.get F.RTC_STATUS_RTC_VALID]
  | 1 => [s.get64 R.TIME_OPSEC_LO R.TIME_OPSEC_HI, s.get64 R.TIME_RTCSEC_LO R.TIME_RTCSEC_HI]
  | 2 => (s.carafe.capId : Int) :: (s.carafe.storeId.getD 0 : Int) ::
      (List.range 64).map fun m => (s.get64 (R.REC_STRM_SEQ_LO m) (R.REC_STRM_SEQ_HI m) : Int)
  | 3 => s.mtr.saved.flatMap fun e => (e.1 : Int) :: (e.2.1 ++ e.2.2).map Int.ofNat
  | 4 => (s.get F.PWR_WAKE_STAT_COUNT : Int) :: (List.range 21).flatMap fun d =>
      [(s.domState d : Int), ((s.pwr.hold.get d).map (·.since)).getD 0]
  | _ => (s.log.seq : Int) :: (s.start.blockEnd.getD 0 : Int) :: s.start.fails.map Int.ofNat

/-- R425: a word of an area before its CRC: a function of what the area holds, since the spec places nothing in it: DESIGN
CHOICE, log entry 207. -/
def State.ramData (s : State) (area i : Nat) : Word := BitVec.ofInt 32 (Config.openFn 50 ((i : Int) :: s.ramContent area))

/-- R425: a word of the retained RAM: a checked area ends in a CRC-32C over the rest of it. -/
def State.ramWord (s : State) (i : Nat) : Word :=
  match (List.range 6).find? fun a => let (b, n) := ramAreas.getD a (0, 0); decide (b ≤ i) && decide (i < b + n) with
  | none => s.word (R.CREMA_RAM i)
  | some a =>
    let (b, n) := ramAreas.getD a (0, 0)
    if i + 1 < b + n then s.ramData a i
    else BitVec.ofNat 32 (crc32c ((List.range (n - 1)).flatMap fun k => leBytes 4 (s.ramData a (b + k)).toNat))

def State.viewTime (s : State) (r : Reg) : Word :=
  let w := s.word r
  if r = R.DEV_PROTO then (if s.mgmt.monitor then showF w F.DEV_PROTO_MAJORS 2 else w)
  else if r = R.TIME_NOW_LO then half false s.mtNs
  else if r = R.TIME_NOW_HI then half true s.mtNs
  else if r = R.TIME_NOW_FRAC then s.fracNow
  else if r = R.TIME_UNCERT then BitVec.ofNat 32 s.uncert
  else if r = R.TIME_STATUS then showF w F.TIME_STATUS_SLEWING (b2n (s.clk.slewLeft != 0))
  else if r = R.RTC_STATUS then showF w F.RTC_STATUS_CAL_VALID (b2n s.calInRange)
  else if r = R.RTC_CAL_DATE then s.calDateWord
  else if r = R.RTC_CAL_TIME then s.calTimeWord
  else if r = R.CREMA_CELL_AGE then
    (if s.get F.CREMA_CELL_AGE_COUNT = 0 then w else showF w F.CREMA_CELL_AGE_DAYS (s.age16 s.pwr.capAt (86400 * uS)))
  else if r.id = (R.CREMA_RAM 0).id then s.ramWord r.i
  else if r.id = (R.CREMA_FLOG 0 0).id then s.flogWord r.i r.j
  else w

/-! ### Lanes, Pours, log, access (R291, R296, R297, R456–R460, R472–R476) -/

/-- R296: the write or the target that POUR_PEEK_SEL selects. -/
def State.peekWrite (s : State) : Option PWrite :=
  ((s.pslot (s.get F.POUR_PEEK_SEL_SLOT)).writes.drop (s.get F.POUR_PEEK_SEL_INDEX)).head?
def State.peekTarget (s : State) : Option PTarget :=
  (s.pslot (s.get F.POUR_PEEK_SEL_SLOT)).targets.find? fun g => g.cell == s.get F.POUR_PEEK_SEL_INDEX

/-- POUR_PEEK_ADDR: the address of a write, or the length and marks of a staged set. -/
def State.peekAddr (s : State) : Nat :=
  if s.flag F.POUR_PEEK_SEL_KIND then match s.peekTarget with
    | some g => g.set.length + 64 * b2n g.acked + 128 * b2n g.conf
    | none => 0
  else (s.peekWrite.map (·.addr)).getD 0

/-- POUR_PEEK_VALUE and POUR_PEEK_MASK. -/
def State.peekPart (s : State) (f : PWrite → Word) : Word :=
  if s.flag F.POUR_PEEK_SEL_KIND then 0 else (s.peekWrite.map f).getD 0

/-- POUR_PEEK_CELLw. -/
def State.peekCell (s : State) (w : Nat) : Word :=
  if s.flag F.POUR_PEEK_SEL_KIND then match s.peekTarget with
    | some g => BitVec.ofNat 32 (leAt g.set (4 * w) 4)
    | none => 0
  else 0

/-- POUR_STATUS. -/
def State.pourStatus (s : State) : Word :=
  let n (p : Nat → Bool) : Nat := ((List.range 16).filter fun k => p (s.pstat k)).length
  let w := showF (showF 0 F.POUR_STATUS_QUEUED (n livePour)) F.POUR_STATUS_OPEN (n (· == pOPEN))
  let w1 := showF (showF w F.POUR_STATUS_TOKEN (s.get F.VOTE_LEASE_TOKEN_HELD)) F.POUR_STATUS_BLOCKED (b2n (!s.lanesRun))
  match s.pourHead with
  | some k => showF (showF w1 F.POUR_STATUS_HEAD k) F.POUR_STATUS_HEAD_VALID 1
  | none => w1

def State.viewVote (s : State) (r : Reg) : Word :=
  let w := s.word r
  if r.id = (R.LANE_SWLIM 0).id then BitVec.ofNat 32 s.swLim
  else if r.id = (R.LANE_STAT 0).id then showF w (F.LANE_STAT_EXCL24 r.i) (satN 15 (s.excl24 r.i).length)
  else if r = R.VOTE_STATUS then showF w F.VOTE_STATUS_SUSPENDED (b2n s.clk.suspendAt.isSome)
  else if r = R.VOTE_LEASE then
    showF w F.VOTE_LEASE_MBX_HELD (((List.range 8).map fun n => s.get (F.RING_MBX_STAT_BUSY n) * 2 ^ n).foldl (· + ·) 0)
  else if r = R.POUR_STATUS then s.pourStatus
  else if r = R.POUR_STALE_CNT then BitVec.ofNat 32 ((List.range 1024).filter s.marked).length
  else if r = R.POUR_PEEK_ADDR then BitVec.ofNat 32 s.peekAddr
  else if r = R.POUR_PEEK_VALUE then s.peekPart (·.value)
  else if r = R.POUR_PEEK_MASK then s.peekPart (·.mask)
  else if r.id = (R.POUR_PEEK_CELL 0).id then s.peekCell r.i
  else w

/-- R472: the oldest SEQ held in MRAM, 0 when it holds none. -/
def State.oldestSeq (s : State) : Nat :=
  ((s.log.mram.filterMap (·.2)).map (·.seq)).foldl (fun a v => if a = 0 ∨ v < a then v else a) 0

/-- R457: the level in force of a session. -/
def State.sessWord (s : State) (n : Nat) : Word :=
  let x := s.sess n
  if !x.active then 0
  else showF (showF (showF (showF 0 (F.ACC_SESSION_ACTIVE n) 1) (F.ACC_SESSION_LEVEL n) x.level) (F.ACC_SESSION_EFFECTIVE n)
    (s.level n)) (F.ACC_SESSION_PORT n) x.port

/-- R459: the rejections of the last 10 min. -/
def State.recentFails (s : State) : List Nat := s.start.fails.filter fun a => decide (s.now < a + 600 * uS)
def State.authWord (s : State) : Word :=
  let w := showF 0 F.ACC_AUTH_FAILS (satN 255 s.recentFails.length)
  match s.start.blockEnd with
  | some e => showF (showF w F.ACC_AUTH_BLOCKED 1) F.ACC_AUTH_BLOCK_S (satN 65535 (ceilDiv (e - s.now) uS))
  | none => w

def State.viewMgmt (s : State) (r : Reg) : Word :=
  let w := s.word r
  if r = R.LOG_STATUS then
    showF (showF (showF w F.LOG_STATUS_TARGET (b2n s.log.fallback)) F.LOG_STATUS_COPYING (b2n s.log.copying))
      F.LOG_STATUS_SEQ_HOLD (b2n s.log.holdAt.isSome)
  else if r = R.LOG_NEXT_SEQ_LO then half false (s.log.seq + 1)
  else if r = R.LOG_NEXT_SEQ_HI then half true (s.log.seq + 1)
  else if r = R.LOG_OLDEST_LO then half false s.oldestSeq
  else if r = R.LOG_OLDEST_HI then half true s.oldestSeq
  else if r = R.LOG_FB then showF (showF w F.LOG_FB_PENDING s.log.fbPending) F.LOG_FB_LOST (satN 65535 (s.log.fbLost + s.log.lost))
  else if r = R.LOG_CNT_WRITTEN then BitVec.ofNat 32 s.log.written
  else if r = R.LOG_CNT_VERIFY then BitVec.ofNat 32 s.log.verify
  else if r = R.MGMT_STAT then
    showF (showF w F.MGMT_STAT_SESSIONS ((List.range 8).filter fun n => (s.sess n).active).length) F.MGMT_STAT_BAD_FRAMES
      s.mgmt.badFrames
  else if r = R.ACC_FIELD_LOCK then
    showF (showF (showF (showF w F.ACC_FIELD_LOCK_OPENER_VALID (b2n s.start.opener.isSome)) F.ACC_FIELD_LOCK_OPENER
      (s.start.opener.getD 0)) F.ACC_FIELD_LOCK_OPEN_LEVEL (if s.start.opener.isSome then s.start.openLevel else 0))
      F.ACC_FIELD_LOCK_LOCK_AT_BOOT (b2n s.start.lockAtBoot)
  else if r.id = (R.ACC_SESSION 0).id then s.sessWord r.i
  else if r = R.ACC_AUTH then s.authWord
  else if r = R.ACC_KEY_STAT then
    BitVec.ofNat 32 (((List.range 4).map fun k => b2n (s.hasKey k) * 2 ^ k).foldl (· + ·) 0)
  else if r.id = (R.ACC_KEY_DATA 0).id then 0
  else if r = R.CFG_STATUS then showF w F.CFG_STATUS_OPEN_KEY (b2n (!s.ownerKey))
  else if r = R.XSPI_STATUS then showF w F.XSPI_STATUS_BUSY (b2n s.start.reading)
  else w

/-! ### Rings, cells, engines (R93, R101, R106, R109, R110, R113, R153, R191, R204, R210) -/

/-- R106: control cycles since the mirrored slot; none has been mirrored while the register still reads its reset value. -/
def State.tlmAge (s : State) (k : Nat) : Nat :=
  if s.get (F.CELL_TLM_AGE_AGE k) = 65535 then 65535
  else satN 65535 ((s.link.cycle % 2 ^ 32 + 2 ^ 32 - s.get (F.CELL_TLM_CYCLE_CYCLE k)) % 2 ^ 32)

def State.viewCell (s : State) (r : Reg) : Word :=
  let w := s.word r
  let i := r.i
  if r.id = (R.RING_STATUS 0).id then
    showF w (F.RING_STATUS_ASYM_UNK i) (b2n ((cellsOf i).any fun k => s.cellState k != cABSENT && (s.cell k).asym))
  else if r.id = (R.CELL_TLM_AGE 0).id then BitVec.ofNat 32 (s.tlmAge i)
  else if r.id = (R.CELL_FAULTS 0).id then
    showF w (F.CELL_FAULTS_FAULT24 i) (satN 15 ((s.cell i).faults.filter fun t => decide (s.mtUnits < t + 86400 * uS)).length)
  else if r.id = (R.CELL_DIAG 0).id then match (s.cell i).diagOkAt with
    | some a => showF w (F.CELL_DIAG_AGE i) (s.age16 a (60 * uS))
    | none => showF w (F.CELL_DIAG_AGE i) 65535
  else if r.id = (R.CELL_PHASE_CFG 0 0).id then showF w (F.CELL_PHASE_CFG_N_MAP i r.j) (s.nMap i r.j)
  else if r.id = (R.CELL_PHASE_STAT 0 0).id then
    let av := (s.phaseCells i r.j).filter fun k => s.cellState k == cREADY || s.cellState k == cACTIVE
    showF (showF (showF w (F.CELL_PHASE_STAT_M_NOW i r.j) (codeOf 8 (satS 8 (s.mNow i r.j)))) (F.CELL_PHASE_STAT_N_ACTIVE i r.j)
      (s.nActive i r.j)) (F.CELL_PHASE_STAT_N_AVAIL i r.j) av.length
  else if r.id = (R.CELL_PHASE_VCAP 0 0).id then BitVec.ofNat 32 (satN 65535 (s.vCap i r.j))
  else if r.id = (R.CELL_CLU_STATUS 0).id then
    showF (showF (showF w (F.CELL_CLU_STATUS_RUNNING i) (b2n (s.cluActive i))) (F.CELL_CLU_STATUS_START_OK i) (b2n (s.startOk i)))
      (F.CELL_CLU_STATUS_BYP_BLOCK i) (b2n (s.bypBlock i))
  else w

/-- R153: whether some entry of a program has a sticky flag. -/
def State.progAny (s : State) (p : Nat) : Bool :=
  s.progFlag p F.CE_SEC_FLAG_OUT_SAT || s.progFlag p F.CE_SEC_FLAG_ACC_SAT || s.progFlag p F.CE_SEC_FLAG_FROZEN

def State.viewEngine (s : State) (r : Reg) : Word :=
  let w := s.word r
  let i := r.i
  if r = R.PWM_STATUS then BitVec.ofNat 32 (((List.range 8).map fun c => b2n (s.cluActive c) * 2 ^ c).foldl (· + ·) 0)
  else if r = R.CE_STATUS then
    showF (showF w F.CE_STATUS_LOADED (b2n (s.start.image.isSome && !s.start.restore))) F.CE_STATUS_FLAG_ANY
      (b2n ((s.listed (R.CE_SEC_FLAG 0).id).any fun g => fieldOf (s.word g) 0 3 != 0))
  else if r.id = (R.CE_FLAG_SUM 0).id then
    BitVec.ofNat 32 (((List.range 32).map fun b => b2n (s.progAny (32 * i + b)) * 2 ^ b).foldl (· + ·) 0)
  else if r.id = (R.CE_PROG_STAT 0).id then
    showF (showF w (F.CE_PROG_STAT_OUT_SAT i) (b2n (s.progFlag i F.CE_SEC_FLAG_OUT_SAT))) (F.CE_PROG_STAT_ACC_SAT i)
      (b2n (s.progFlag i F.CE_SEC_FLAG_ACC_SAT))
  else if r = R.CE_SIG 0 then 0
  else if r = R.CE_SIG 1 then 0x4000#32
  else if r = R.CE_SIG_OWN 0 then setBits w 0 4 15
  else if r.id = (R.MPPT_CELL_SCAN 0).id then match (s.mcell i).lastScan with
    | some a => showF w (F.MPPT_CELL_SCAN_AGE i) (satN 65535 ((s.mtUnits - a) / (60 * uS)))
    | none => showF w (F.MPPT_CELL_SCAN_AGE i) 65535
  else if r.id = (R.FRT_CLU_TIME 0).id then BitVec.ofNat 32 (satN (2 ^ 32 - 1) (s.since (s.frt.clu.get i).at_ / uMs))
  else if r.id = (R.TBL_CURVE_HDR 0).id then showF w (F.TBL_CURVE_HDR_VALID i) (b2n (s.curveOk i))
  else w

/-! ### Bus, Carafe, comparators (R235, R247, R326, R393) -/

def State.viewSide (s : State) (r : Reg) : Word :=
  let w := s.word r
  let i := r.i
  if r = R.WEAR_STATUS then
    showF w F.WEAR_STATUS_RET_24H (satN 15 (s.wear.rets.filter fun t => decide (s.mtUnits < t + 86400 * uS)).length)
  else if r.id = (R.WEAR_CELL_STAT 0).id then showF w (F.WEAR_CELL_STAT_MODEL i) (b2n ((s.wear.cell.get i).model && s.flag F.WEAR_CFG_EN)) else
  if r.id = (R.SV_SUB_ID 0).id then BitVec.ofNat 32 (crc32c (s.bus.sub.get i).svId)
  else if r.id = (R.GOOSE_SUB_ID 0).id then BitVec.ofNat 32 (crc32c (s.bus.gsub.get i).ref)
  else if r.id = (R.SV_SUB_LAT 0).id then
    let l := ((s.bus.sub.get i).lats.filter fun e => decide (s.now < e.1 + uS)).map fun e => e.2 / uUs
    showF (showF 0 (F.SV_SUB_LAT_MEAN i) (satN 65535 (l.foldl (· + ·) 0 / l.length))) (F.SV_SUB_LAT_MAX i)
      (satN 65535 (l.foldl max 0))
  else if r.id = (R.PB_PORT_STAT 0).id then
    showF w (F.PB_PORT_STAT_SFP i) (b2n (s.pins.cage.get (16 + i)).present)
  else if r.id = (R.CMP_STAT 0).id then showF w (F.CMP_STAT_TRIP_CH i) (b2n (s.isTripCh i))
  else if r.id = (R.REC_STRM_CFG 0).id ∧ i < 3 then
    showF (showF (showF w (F.REC_STRM_CFG_EN i) 1) (F.REC_STRM_CFG_PRIO i) 0) (F.REC_STRM_CFG_KIND i) (5 + i)
  else if r = R.REC_EXPORT then showF w F.REC_EXPORT_ACTIVE s.exports
  else w

/-- R10: the word that a read of a register returns. -/
def State.viewWord (s : State) (r : Reg) : Word :=
  if r.id < 52 then s.viewTime r
  else if r.id < 91 then s.viewVote r
  else if r.id < 116 then s.viewMgmt r
  else if r.id < 168 then s.viewCell r
  else if r.id < 287 then s.viewEngine r
  else if r.id < 453 then s.viewSide r
  else s.viewMgmt r

/-- The registers whose value at a read the spec leaves open (R275: the state signature; R444: continuous read). -/
def openRead (r : Reg) : Word :=
  if r = R.LANE_SIG_LO ∨ r = R.LANE_SIG_HI then BitVec.allOnes 32
  else if r = R.XSPI_STATUS then 2#32
  else 0

/-- The word that a read returns, with the open bits free. -/
def State.readWord (s : State) (r : Reg) : Word × State :=
  let m := openRead r
  if m = 0 then (s.viewWord r, s)
  else ((s.viewWord r &&& ~~~m) ||| (BitVec.ofNat 32 s.freeVal &&& m), s.freeStep)

end Sys2Proof.Machine
end

