-- ==== Sys2Proof/Machine/Access.lean ====
section
/-! DEFINITION. Reads and writes of any register by its address (R10, R12, R14, R44, R469), and the commit point of a
Pour (R306). -/

namespace Sys2Proof.Machine

/-! ### Writes -/

/-- R94: RING_STAT_CLR clears the ring's counters. -/
def State.ringClear (s : State) (n r : Nat) (value mask : Word) : Status × State :=
  s.writeThen n (R.RING_STAT_CLR r) value mask fun s =>
    if fieldOf (value &&& mask) 0 1 = 0 then s
    else [R.RING_CNT_CRC_A r, R.RING_CNT_CRC_B r, R.RING_CNT_STALE r, R.RING_CNT_LATE r, R.RING_CNT_ABORT r,
      R.RING_CNT_MISMATCH r, R.RING_CNT_BREAK r, R.RING_CNT_MBX_TO r].foldl (fun s g => s.setWord g 0) s

/-- R289: LANE_INTR.CLR clears the longest interruption. -/
def State.intrClear (s : State) (n : Nat) (value mask : Word) : Status × State :=
  s.writeThen n R.LANE_INTR value mask fun s =>
    if fieldOf (value &&& mask) 31 1 = 0 then s else s.setWord R.LANE_INTR 0

/-- R409, R412: a write of LEG_CTRL. -/
def State.legCtrlWrite (s : State) (n l : Nat) (value mask : Word) : Status × State :=
  if fieldOf mask 0 1 = 0 then s.writeReg n (R.LEG_CTRL l) value mask
  else if fieldOf value 0 1 = 1 then s.legEnable n l
  else s.legDisable n l

/-- R348: a write of WEAR_CFG whose interval would exceed 1 ms returns BAD_VALUE. -/
def State.wearCfgWrite (s : State) (n : Nat) (value mask : Word) : Status × State :=
  let w := masked (s.word R.WEAR_CFG) value mask
  s.writeIf n R.WEAR_CFG value mask (if (s.setWord R.WEAR_CFG w).wearSlow then .badValue else .ok) id

/-- The registers of VOTE whose writes act; a write of PWM_STATUS clears its counters (R131). -/
def State.actVote (s : State) (n : Nat) (r : Reg) (value mask : Word) (e : AccEnv) : Option (Status × State) :=
  if r = R.LANE_CMD then some (s.laneCmd n value mask)
  else if r = R.LANE_INTR then some (s.intrClear n value mask)
  else if r.id = (R.CELL_CMD 0).id then some (s.cellCmdNow n r.i value mask)
  else if r = R.PWM_STATUS then some (s.pwmClear n)
  else if r.id = (R.PWM_LEG_STAT 0).id then some (s.legRelease n r.i value mask)
  else if r = R.MPPT_CMD then some (s.mpptCmd n value mask)
  else if r.id = (R.FRT_CLU_CMD 0).id then some (s.frtCmd n r.i value mask)
  else if r = R.WEAR_STATUS then some (s.wearStatusWrite n value mask)
  else if r = R.WEAR_RF_SEL then some (s.wearSelect n value mask)
  else if r = R.WEAR_CFG then some (s.wearCfgWrite n value mask)
  else if r = R.CFG_CMD then some (s.cfgCmd n value mask e.img)
  else none

/-- The registers of the other domains whose writes act. -/
def State.actSide (s : State) (n : Nat) (r : Reg) (value mask : Word) (e : AccEnv) : Option (Status × State) :=
  if r = R.CLK_CTRL then some (s.clkCtrlWrite n value mask e.step)
  else if r.id = (R.CLK_OUT_CFG 0).id then some (s.clkOutWrite n r.i value mask)
  else if r = R.TIME_UTC then some (s.timeUtcWrite n value mask)
  else if r = R.RTC_CAL_DATE then some (s.calDateWrite n value mask)
  else if r = R.RTC_CAL_TIME then some (s.calTimeWrite n value mask)
  else if r = R.PWR_REQ then some (s.pwrReq n value mask)
  else if r = R.LOG_CMD then some (s.logCmd n value mask)
  else if r = R.ACC_FIELD_LOCK then some (s.lockWrite n value mask)
  else if r = R.ACC_KEY_SEL then some (s.keySel n value mask)
  else if r.id = (R.ACC_KEY_DATA 0).id then some (s.keyWrite n r.i value mask)
  else if r.id = (R.RING_CTRL 0).id then some (s.ringCtrlWrite n r.i value mask)
  else if r.id = (R.RING_STAT_CLR 0).id then some (s.ringClear n r.i value mask)
  else if r.id = (R.CMP_STAT 0).id then some (s.cmpStatWrite n r.i value mask)
  else if r.id = (R.LEG_CTRL 0).id then some (s.legCtrlWrite n r.i value mask)
  else if r = R.REC_CMD then some (s.recCmd n value mask)
  else if r = R.REC_CAP_CMD then some (s.softTrigger n value mask)
  else if r = R.XSPI_CMD_GO then some (s.xspiGo n value mask e.xok e.xdata)
  else none

/-- R12: the _LO registers of the 64-bit quantities; each _HI register is the next row of the map. -/
def loIds : List Nat :=
  [2, 6, 13, 20, 22, 27, 41, 43, 56, 59, 83, 85, 92, 94, 149, 151, 155, 179, 212, 214, 268, 281, 293, 295, 297, 307, 314,
   316, 324, 330, 334, 341, 357, 394, 396, 406, 408, 416, 434, 436, 451]
def isLo (r : Reg) : Bool := loIds.contains r.id
def isHi (r : Reg) : Bool := decide (0 < r.id) && loIds.contains (r.id - 1)
def hiOf (r : Reg) : Reg := ⟨r.id + 1, r.i, r.j⟩
def loOf (r : Reg) : Reg := ⟨r.id - 1, r.i, r.j⟩

/-- R12: a write of a _LO register is judged at once and held. -/
def State.loWrite (s : State) (n : Nat) (r : Reg) (value mask : Word) : Status × State :=
  match s.judgeWord n r value mask with
  | .ok =>
    let x := s.sess n
    (.ok, s.setSess n { x with held := (r, masked (s.word r) value mask) :: dropReg x.held r })
  | e => (e, s)

/-- R12, R478: a write of a _HI register: the pair is judged as a whole, with the held _LO value or the one in effect. After
a refusal the held value is kept for the next _HI write: DESIGN CHOICE, log entry 182. -/
def State.hiWrite (s : State) (n : Nat) (r : Reg) (value mask : Word) : Status × State :=
  let x := s.sess n
  let lo := loOf r
  let all := BitVec.allOnes 32
  match findReg x.held lo with
  | none => s.writeReg n r value mask
  | some v =>
    match (s.judgeWord n lo v all).worst (s.judgeWord n r value mask) with
    | .ok =>
      let s1 := (s.writeReg n lo v all).2
      let s2 := (s1.writeReg n r value mask).2
      (.ok, s2.setSess n { s2.sess n with held := dropReg (s2.sess n).held lo })
    | e => (e, s)

/-- A direct write of a register whose domain is ON. -/
def State.writeAt (s : State) (n : Nat) (r : Reg) (value mask : Word) (e : AccEnv) : Status × State :=
  match s.actVote n r value mask e with
  | some p => p
  | none => match s.actSide n r value mask e with
    | some p => p
    | none =>
      if isLo r then s.loWrite n r value mask
      else if isHi r then s.hiWrite n r value mask
      else s.writeReg n r value mask

/-- R473: a window: its kind (0 lane, 1 schedule frame, 2 telemetry frame, 3 MRAM log), its number, the offset in it, its
size and its level. -/
def windowOf (a : Nat) : Option (Nat × Nat × Nat × Nat × Nat) :=
  if 0x10000000 ≤ a ∧ a < 0x13000000 ∧ (a - 0x10000000) % 0x1000000 < 0x200000 then
    some (0, (a - 0x10000000) / 0x1000000, (a - 0x10000000) % 0x1000000, 0x200000, 2)
  else if 0x13000000 ≤ a ∧ a < 0x13010000 then some (1, (a - 0x13000000) / 0x2000, (a - 0x13000000) % 0x2000, 0x2000, 0)
  else if 0x13100000 ≤ a ∧ a < 0x13110000 then some (2, (a - 0x13100000) / 0x2000, (a - 0x13100000) % 0x2000, 0x2000, 0)
  else if 0x18000000 ≤ a ∧ a < 0x18400000 then some (3, 0, a - 0x18000000, 0x400000, 0)
  else none

/-- R10, R473: a direct write by address; a window is not written. -/
def State.writeAny (s : State) (n addr : Nat) (value mask : Word) (e : AccEnv) : Status × State :=
  match decodeAddr addr with
  | none => (if addr % 4 = 0 ∧ (windowOf addr).isSome then .accessDenied else .badAddr, s)
  | some (x, r) => if s.isOn (domOfReg x r) then s.writeAt n r value mask e else (.domainOff, s)

/-! ### Reads -/

/-- R12, R44: the registers of which a read of a _LO register takes snapshots. -/
def companions (r : Reg) : List Reg := if r = R.TIME_NOW_LO then [hiOf r, R.TIME_NOW_FRAC] else [hiOf r]

/-- R12: a read of a _LO register. -/
def State.loRead (s : State) (n : Nat) (r : Reg) : Word × State :=
  let (w, s1) := s.readWord r
  let l := companions r
  let x := s1.sess n
  let kept := x.snaps.filter fun e => !l.contains e.1
  let (vals, s2) := l.foldl (fun (a : List (Reg × Word) × State) g => let (v, s') := a.2.readWord g; (a.1 ++ [(g, v)], s')) ([], s1)
  (w, s2.setSess n { x with snaps := vals ++ kept })

/-- R12, R44, R56, R469: a read returns the session's snapshot of the register and releases it, or the live value. -/
def State.snapRead (s : State) (n : Nat) (r : Reg) : Word × State :=
  let x := s.sess n
  match findReg x.snaps r with
  | some w => (w, s.setSess n { x with snaps := dropReg x.snaps r })
  | none => s.readWord r

/-- The read of a register whose own rule gives a read an effect. -/
def State.actRead (s : State) (n : Nat) (r : Reg) : Option (Word × State) :=
  let of (s' : State) : Option (Word × State) := some ((s'.sess n).value, s')
  if r.id = (R.CELL_TLM 0 0).id ∧ r.j = 0 then of (s.tlmRead n r.i)
  else if r = R.RTC_CAL_DATE then of (s.calDateRead n)
  else if r = R.REC_STATUS then of (s.recStatusRead n)
  else if r.id = (R.THM_REG_CNT 0).id then some (s.thmPeak r.i)
  else if r = R.IADC_Q_LO then some (s.qLo n false)
  else if r = R.IADC_Q_HI then some (s.qHi n false)
  else if r = R.IADC_PEEK_LO then some (s.qLo n true)
  else if r = R.IADC_PEEK_HI then some (s.qHi n true)
  else none

/-- A read of a register whose domain is ON. -/
def State.readAt (s : State) (n : Nat) (r : Reg) : Word × State :=
  match s.actRead n r with
  | some p => p
  | none => if isLo r then s.loRead n r else s.snapRead n r

/-- R10: a read by address: status, word, state. -/
def State.readAny (s : State) (n addr : Nat) : Status × Word × State :=
  match decodeAddr addr with
  | none => (.badAddr, 0, s)
  | some (x, r) => if s.isOn (domOfReg x r) then (.ok, s.readAt n r) else (.domainOff, 0, s)

/-! ### The commands -/

/-- A read by a session, with its outcome kept for the session. -/
def State.readBy (s : State) (n addr : Nat) : State :=
  if !s.isOn domMGMT then s
  else let (st, w, s1) := s.readAny n addr; s1.answer n st w

/-- A write by a session, with its outcome kept for the session; one that must wait for the input freeze (R105) is kept
for it. -/
def State.writeBy (s : State) (n addr : Nat) (value mask : Word) (e : AccEnv) : State :=
  if !s.isOn domMGMT then s
  else match s.writeAny n addr value mask e with
    | (.waits, s1) => (s1.ask (.access n addr value mask e)).answer n .waits 0
    | p => answerW n p

/-- The address is that of a register of a kind. -/
def isKind (p : Reg → Bool) (addr : Nat) : Bool := match decodeAddr addr with
  | some (_, r) => p r
  | none => false

/-- REGISTER_WRITE (R10, R14): a direct write by address; `e` is what the outside answers where the write acts. -/
def execRegisterWrite (t : Nat) (n : SessIx) (addr : Nat) (value mask : Word) (e : AccEnv) (s : State) :
    Host.Outcome State Fault Refusal :=
  atTime t s fun s => s.writeBy n addr value mask e

/-- PAIR_LO_READ (R12, R44): a read of a _LO register. -/
def execPairLoRead (t : Nat) (n : SessIx) (addr : Nat) (s : State) : Host.Outcome State Fault Refusal :=
  atTime t s fun s => if isKind isLo addr then s.readBy n addr else s

/-- PAIR_HI_READ (R12, R44): a read of a _HI register. -/
def execPairHiRead (t : Nat) (n : SessIx) (addr : Nat) (s : State) : Host.Outcome State Fault Refusal :=
  atTime t s fun s => if isKind isHi addr then s.readBy n addr else s

def noEnv : AccEnv := { step := 0, xok := true, xdata := [], img := none }

/-- PAIR_LO_WRITE (R12): a write of a _LO register. -/
def execPairLoWrite (t : Nat) (n : SessIx) (addr : Nat) (value mask : Word) (s : State) :
    Host.Outcome State Fault Refusal :=
  atTime t s fun s => if isKind isLo addr then s.writeBy n addr value mask noEnv else s

/-- PAIR_HI_WRITE (R12): a write of a _HI register. -/
def execPairHiWrite (t : Nat) (n : SessIx) (addr : Nat) (value mask : Word) (s : State) :
    Host.Outcome State Fault Refusal :=
  atTime t s fun s => if isKind isHi addr then s.writeBy n addr value mask noEnv else s

/-- TIME_NOW_FRAC_READ (R44). -/
def execTimeNowFracRead (t : Nat) (n : SessIx) (s : State) : Host.Outcome State Fault Refusal :=
  atTime t s fun s => s.readBy n (addrOf R.TIME_NOW_FRAC)

/-! ### The commit point (R306) -/

/-- The marks of closed sessions of the slots replaced. -/
def setOrphans (m : Tbl PourSlot) (f : Nat → Bool) : Tbl PourSlot :=
  (List.range 16).foldl (fun (t : Tbl PourSlot) k => t.set k { t.get k with orphan := f k }) m

/-- The rights of a Pour's session while its writes act at t_c: a committed Pour is irrevocable. -/
def State.pourRights (s : State) (n : Nat) (orphan : Bool) : State :=
  let x := s.sess n
  let lvl := if orphan then 1 else max 1 x.level
  let s1 := s.setSess n { x with active := true, level := lvl }
  let s2 := (s1.setMgmt fun x => { x with monitor := false }).setPour fun p =>
    { p with slot := setOrphans p.slot fun _ => true }
  s2.setStart fun y => { y with opener := some n, openLevel := lvl }

/-- What a Pour's own rights replaced stands again. -/
def State.endRights (s old : State) (n : Nat) : State :=
  let x := old.sess n
  let s0 := s.setMgmt fun x => { x with monitor := s.mgmt.monitor || old.mgmt.monitor }
  let s1 := s0.setSess n { s0.sess n with active := x.active, level := x.level }
  let s2 := s1.setPour fun p => { p with slot := setOrphans p.slot fun k => (old.pslot k).orphan }
  s2.setStart fun y =>
    if y.opener.isSome then { y with opener := old.start.opener, openLevel := old.start.openLevel } else y

/-- R306: a write of a Pour that acts is executed as a direct write of its session; one of CELL_CMD waits for the input
freeze (R105). -/
def State.pourWrite (s : State) (n : Nat) (orphan : Bool) (w : PWrite) (e : AccEnv) : State :=
  match s.writeAny n w.addr w.value w.mask e with
  | (.waits, s1) => s1.ask (.pour n orphan w.addr w.value w.mask e)
  | p => p.2

/-- R306: the writes of a Pour that act, with the Pour's rights. -/
def State.pourActs (s : State) (k : Nat) (e : AccEnv) : State :=
  let n := s.get (F.POUR_SLOT_STAT_SESSION k)
  let l := (s.pslot k).writes.filter actsWrite
  if l.isEmpty then s
  else
    let s1 := s.pourRights n (s.pslot k).orphan
    let s2 := l.foldl (fun s w => s.pourWrite n (s.pslot k).orphan w e) s1
    s2.endRights s n

/-- POUR_TAKE_EFFECT (R29, R306): the Pours whose commit point has come take effect, in submission order. -/
def execPourTakeEffect (t : Nat) (e : AccEnv) (s : State) : Host.Outcome State Fault Refusal :=
  atTime t s fun s => s.inDom domVOTE fun s => s.duePours.foldl (fun s k => (s.takeEffect k).pourActs k e) s

end Sys2Proof.Machine
end

