-- ==== Sys2Proof/Machine/Mgmt.lean ====
section
/-! DEFINITION. The management protocol (R458, R459, R462–R474): frames, sessions, operations, windows, event and
record queries. -/

namespace Sys2Proof.Machine

/-! ### Frames (R462, R463) -/

/-- R462: the greatest body of a transport. -/
def maxBody (i2c : Bool) : Nat := if i2c then 256 else 1452

/-- R462: MAGIC, length and CRC of a frame. -/
def frameGood (i2c : Bool) (b : List Byte) : Bool :=
  let n := leAt b 12 2
  20 ≤ b.length && leAt b 0 2 == 0x4D44 && n ≤ maxBody i2c && b.length == 20 + n &&
    leAt b (16 + n) 4 == crc32c (bytesAt b 0 (16 + n))

/-- R462: a frame that fails its checks is discarded and counted. -/
def State.badFrame (s : State) : State :=
  let n := satN 65535 (s.mgmt.badFrames + 1)
  let s1 := s.setMgmt fun x => { x with badFrames := n }
  if s.quiet s.log.badFrameAt (10 * uS) then
    (s1.setLog fun x => { x with badFrameAt := some s.now }).event Ev.MGMT_FRAME_BAD noInst [.w n]
  else s1

/-- R452, R463: the processor serves requests on a transport. -/
def State.served (s : State) (i2c : Bool) : Bool :=
  s.isOn domMGMT && !s.start.mgmtUp &&
    (i2c || (s.flag F.MGMT_CFG_UDP_EN && s.word R.MGMT_NET_IP != 0 && s.works domPBUS))

/-- R463: a new write transaction on I²C discards a reply that has not been read. -/
def State.newFrame (s : State) (i2c : Bool) : State := if i2c then s.setMgmt fun x => { x with i2cReply := none } else s

/-- MGMT_FRAME_BAD (R462): a frame arrives whose checks fail; one whose checks hold is the request it spells. -/
def execMgmtFrameBad (t : Nat) (i2c : Bool) (bytes : List Byte) (s : State) : Host.Outcome State Fault Refusal :=
  atTime t s fun s => if s.served i2c && !frameGood i2c bytes then (s.newFrame i2c).badFrame else s

/-- R462: a reply's frame. -/
def Reply.bytes (r : Reply) : List Byte :=
  let b := leBytes 2 0x4D44 ++ leBytes 1 r.ver ++ leBytes 1 r.op ++ leBytes 1 r.session ++ leBytes 1 r.status.code ++
    leBytes 2 r.tag ++ leBytes 4 r.seq ++ leBytes 2 r.body.length ++ leBytes 2 (1 + 2 * b2n r.more) ++ r.body
  b ++ leBytes 4 (crc32c b)

/-- R463: a reply is sent, or made ready for a read. -/
def State.sendReply (s : State) (i2c : Bool) (r : Reply) : State :=
  s.setMgmt fun x => { x with lastReply := some r, i2cReply := if i2c then some r else s.mgmt.i2cReply }

/-- I2C_REPLY_READ (R463): a read transaction returns the length of the reply and the reply, or a length of 0. -/
def execI2cReplyRead (t : Nat) (s : State) : Host.Outcome State Fault Refusal :=
  atTime t s fun s => s.inDom domMGMT fun s =>
    let out := match s.mgmt.i2cReply with
      | some r => leBytes 2 r.bytes.length ++ r.bytes
      | none => leBytes 2 0
    s.setMgmt fun x => { x with i2cReply := none, i2cOut := out }

/-! ### Requests (R464–R466) -/

/-- What an operation answers: its status, MORE, its body, and the state after it. -/
structure Answer where
  status : Status
  more   : Bool
  body   : List Byte
  state  : State

/-- R465: an operation has ended: its reply is stored and sent. -/
def Answer.finish (a : Answer) (h : MHead) (n : Nat) (r : Reply) : State :=
  let r1 := { r with status := a.status, more := a.more, body := a.body }
  (a.state.setSess n { a.state.sess n with reply := some r1 }).sendReply h.i2c r1

/-- R105, R465: the reply of a request is sent once it has been executed; one whose writes wait for the freeze has none
yet. -/
def Answer.close (a : Answer) (h : MHead) (n : Nat) (r : Reply) : State :=
  if a.status = .waits then a.state.setSess n { a.state.sess n with reply := none } else a.finish h n r

/-- R465: the last request of a session is still executing: the rest of its WRITE waits for the input freeze (R105). -/
def State.busySess (s : State) (n : Nat) : Bool := s.cells.asks.any fun a => match a with
  | .writes h _ _ _ => h.session == n
  | _ => false

/-- R464, R465: a request of a session: its binding, its SEQ, and whether its major offers the operation. While the last
request executes, its retransmission is discarded (R478); a new request is answered with BUSY and executes nothing: DESIGN
CHOICE, log entry 202. -/
def State.request (s : State) (h : MHead) (op : Nat) (two : Bool) (body : List Byte) (f : State → Nat → Answer) : State :=
  if !s.served h.i2c then s
  else if maxBody h.i2c < body.length then (s.newFrame h.i2c).badFrame
  else
    let s0 := s.newFrame h.i2c
    let n := h.session
    let x := s0.sess n
    let rep (st : Status) : Reply :=
      { ver := x.major, op := op, session := n, status := st, tag := h.tag, seq := h.seq, more := false, body := [] }
    if 8 ≤ n ∨ !x.active then s0.sendReply h.i2c (rep .badValue)
    else if x.port ≠ b2n h.i2c ∨ x.bind ≠ h.bind then s0.sendReply h.i2c (rep .accessDenied)
    else
      let s1 := s0.setSess n { x with lastAt := s.now }
      if s.busySess n then
        if h.seq = x.seq then s1
        else s1.sendReply h.i2c (rep (if h.seq = (x.seq + 1) % 2 ^ 32 then .busy else .badValue))
      else match x.reply with
      | some r =>
        if h.seq = x.seq then s1.sendReply h.i2c r
        else if h.seq ≠ (x.seq + 1) % 2 ^ 32 then s1.sendReply h.i2c (rep .badValue)
        else run s1 n (rep .version) f
      | none =>
        if h.seq ≠ (x.seq + 1) % 2 ^ 32 then s1.sendReply h.i2c (rep .badValue)
        else run s1 n (rep .version) f
where
  /-- The request is new: it is executed, and its reply stored. -/
  run (s : State) (n : Nat) (r : Reply) (f : State → Nat → Answer) : State :=
    let s1 := s.setSess n { s.sess n with seq := h.seq }
    let a : Answer := if two && ((s1.sess n).major < 2 || s1.mgmt.monitor) then ⟨.version, false, [], s1⟩ else f s1 n
    a.close h n r

/-- R464: OPEN: the version, the level and the session. -/
def State.openSession (s : State) (h : MHead) (body : List Byte) : Answer :=
  let offered := byteAt body 0
  let common (m : Nat) : Bool := bit offered m && (m == 1 || (m == 2 && !s.mgmt.monitor))
  let major := if common 2 then 2 else 1
  let highest := if bit offered 2 then 2 else 1
  let idle := leAt body 4 2
  if body.length ≠ 14 then ⟨.badValue, false, [], s⟩
  else if !(common 1 || common 2) || (major == highest && 3 < leAt body 2 2) then
    ⟨.version, false, [], s.event Ev.MGMT_VERSION_REFUSED noInst [.w offered]⟩
  else match (List.range 8).find? fun n => !(s.sess n).active with
    | none => ⟨.busy, false, [], s⟩
    | some n =>
      if 2 < byteAt body 1 ∨ (idle ≠ 0 ∧ (idle < 10 ∨ 600 < idle)) then ⟨.badValue, false, [], s⟩
      else
        let lvl := if s.lockClosed then 0 else byteAt body 1
        let old := s.sess n
        let x : Session := { active := true, major := major, minor := 3, level := lvl, port := b2n h.i2c,
                             bind := if h.i2c then leAt body 6 8 else h.bind, idle := if idle = 0 then s.get F.MGMT_CFG_IDLE_S else idle,
                             lastAt := s.now, status := old.status, value := old.value }
        let out := leBytes 1 n ++ leBytes 1 major ++ leBytes 2 3 ++ leBytes 1 lvl ++ leBytes 1 0 ++
          leBytes 2 (maxBody h.i2c) ++ leBytes 8 (s.get64 R.DEV_SERIAL_LO R.DEV_SERIAL_HI)
        ⟨.ok, false, out, (s.setSess n x).event Ev.MGMT_SESSION_OPEN n [.w n, .w lvl, .w (b2n h.i2c)]⟩

/-- MGMT_OPEN (R464). -/
def execMgmtOpen (t : Nat) (h : MHead) (body : List Byte) (s : State) : Host.Outcome State Fault Refusal :=
  atTime t s fun s =>
    if !s.served h.i2c then s
    else if maxBody h.i2c < body.length then (s.newFrame h.i2c).badFrame
    else
      let a := (s.newFrame h.i2c).openSession h body
      a.state.sendReply h.i2c { ver := byteAt a.body 1, op := 0x01, session := 0xFF, status := a.status, tag := h.tag,
                                seq := h.seq, more := false, body := a.body }

/-- MGMT_CLOSE (R465). -/
def execMgmtClose (t : Nat) (h : MHead) (s : State) : Host.Outcome State Fault Refusal :=
  atTime t s fun s =>
    let was := s.sess h.session
    let s1 := s.request h 0x02 false [] fun s _ => ⟨.ok, false, [], s⟩
    let x := s1.sess h.session
    if decide (h.session < 8) && x.active && x.seq == h.seq && was.seq != h.seq then s1.closeSession h.session 0 else s1

/-- MGMT_SESSION_IDLE (R465, R478): the idle time has passed; an I²C reply still unread is returned as TIMEOUT. -/
def execMgmtSessionIdle (t : Nat) (n : SessIx) (s : State) : Host.Outcome State Fault Refusal :=
  atTime t s fun s => s.inDom domMGMT fun s =>
    let x := s.sess n
    if x.active && decide (x.lastAt + x.idle * uS ≤ s.now) then
      let late (r : Reply) : Reply := if r.session = n.val then { r with status := .timeout, body := [], more := false } else r
      let s1 := s.setMgmt fun x => { x with i2cReply := s.mgmt.i2cReply.map late }
      s1.closeSession n 1
    else s

/-! ### Reads and writes (R466) -/

/-- The parts of a body of `n` bytes each. -/
def parts (n : Nat) (b : List Byte) : List (List Byte) := (List.range (b.length / n)).map fun k => bytesAt b (n * k) n

/-- R466: the number of items of a READ or a WRITE is 1 to 32. -/
def itemsOk (n : Nat) (b : List Byte) : Bool := b.length % n == 0 && 1 ≤ b.length / n && b.length / n ≤ 32

/-- R466: READ: every item in order, each with its status. -/
def State.opRead (s : State) (n : Nat) (body : List Byte) : Answer :=
  if !itemsOk 4 body then ⟨.badValue, false, [], s⟩
  else
    let (out, s1) := (parts 4 body).foldl (fun (a : List Byte × State) p =>
      let (st, w, s') := a.2.readAny n (leAt p 0 4)
      (a.1 ++ leBytes 4 w.toNat ++ leBytes 1 st.code ++ leBytes 3 0, s')) ([], s)
    ⟨.ok, false, out, s1⟩

/-- MGMT_READ (R466). -/
def execMgmtRead (t : Nat) (h : MHead) (body : List Byte) (s : State) : Host.Outcome State Fault Refusal :=
  atTime t s fun s => s.request h 0x10 false body fun s n => s.opRead n body

/-- R466: the writes of a WRITE request in order, `k` of them made before. From the first write of CELL_CMD on they wait
for the input freeze (R105). -/
def State.writeParts (h : MHead) (e : AccEnv) (n : Nat) : List (List Byte) → Nat → State → Answer
  | [], _, s => ⟨.ok, false, leBytes 1 0xFF ++ leBytes 1 0, s⟩
  | p :: l, k, s =>
    match s.writeAny n (leAt p 0 4) (BitVec.ofNat 32 (leAt p 4 4)) (BitVec.ofNat 32 (leAt p 8 4)) e with
    | (.ok, s1) => State.writeParts h e n l (k + 1) s1
    | (.waits, s1) => ⟨.waits, false, [], s1.ask (.writes h k (p :: l) e)⟩
    | (st, s1) => ⟨.ok, false, leBytes 1 k ++ leBytes 1 st.code, s1⟩

/-- R466: WRITE. -/
def State.opWrite (s : State) (h : MHead) (n : Nat) (body : List Byte) (e : AccEnv) : Answer :=
  if !itemsOk 12 body then ⟨.badValue, false, [], s⟩ else State.writeParts h e n (parts 12 body) 0 s

/-- MGMT_WRITE (R466); `e` is what the outside answers where a write acts. -/
def execMgmtWrite (t : Nat) (h : MHead) (body : List Byte) (e : AccEnv) (s : State) : Host.Outcome State Fault Refusal :=
  atTime t s fun s => s.request h 0x11 false body fun s n => s.opWrite h n body e

/-! ### READ_BLOCK and the windows (R466, R473) -/

/-- Bytes that the spec leaves open. -/
def State.freeBytes (s : State) (n : Nat) : List Byte × State :=
  (List.range n).foldl (fun (a : List Byte × State) _ => (a.1 ++ [BitVec.ofNat 8 a.2.freeVal], a.2.freeStep)) ([], s)

/-- `n` bytes of a frame from an offset; bytes beyond the frame read 0. -/
def frameBytes (b : List Byte) (off n : Nat) : List Byte :=
  let part := bytesAt b off n
  part ++ List.replicate (n - part.length) 0

/-- R473: `n` bytes of the MRAM log: the entry in each slot; a slot never written or unreadable has open contents. -/
def State.mramBytes (s : State) (off n : Nat) : List Byte × State :=
  let first := off / 64
  let (b, s1) := (List.range ((off + n + 63) / 64 - first)).foldl (fun (a : List Byte × State) k =>
    let slot := first + k
    match a.2.log.mram.get slot, a.2.log.unread.contains slot with
    | some e, false => (a.1 ++ e.bytes, a.2)
    | _, _ => let (f, s') := a.2.freeBytes 64; (a.1 ++ f, s')) ([], s)
  (bytesAt b (off % 64) n, s1)

/-- R473: `n` bytes of a window. -/
def State.windowBytes (s : State) (kind ix off n : Nat) : List Byte × State :=
  match kind with
  | 1 => match (s.ring ix).sched with
    | some (f, corr, both, dirB) =>
      let dirB := if both then s.freeVal % 2 == 1 else dirB
      (frameBytes (f.bytes ix (s.ringV1 ix) dirB corr) off n, s.freeStep)
    | none => (List.replicate n 0, s)
  | 2 => (frameBytes (s.ring ix).tlm off n, s)
  | 3 => s.mramBytes off n
  | _ => s.freeBytes n

/-- The reply body of READ_BLOCK. -/
def blockBody (b : List Byte) (st : Status) : List Byte := leBytes 2 b.length ++ leBytes 1 st.code ++ leBytes 1 0 ++ b

/-- R466, R473: READ_BLOCK: consecutive words up to the first that is not OK, or a part of a window and of the one that
follows it without a gap. -/
def State.opReadBlock (s : State) (n : Nat) (i2c : Bool) (body : List Byte) : Answer :=
  let addr := leAt body 0 4
  let len := leAt body 4 2
  let ans (b : List Byte) (st : Status) (s : State) : Answer := ⟨.ok, false, blockBody b st, s⟩
  if body.length ≠ 6 ∨ len % 4 ≠ 0 ∨ (if i2c then 240 else 1024) < len then ⟨.badValue, false, [], s⟩
  else if addr % 4 ≠ 0 ∧ 0 < len then ans [] .badAddr s
  else if (windowOf addr).isSome then win ans n 2 addr len [] s
  else go ans n addr (len / 4) [] s
where
  go (ans : List Byte → Status → State → Answer) (n addr : Nat) : Nat → List Byte → State → Answer
    | 0, b, s => ans b .ok s
    | k + 1, b, s => match s.readAny n addr with
      | (.ok, w, s1) => go ans n (addr + 4) k (b ++ leBytes 4 w.toNat) s1
      | (st, _, s1) => ans b st s1
  win (ans : List Byte → Status → State → Answer) (n : Nat) : Nat → Nat → Nat → List Byte → State → Answer
    | 0, _, _, b, s => ans b .ok s
    | k + 1, addr, len, b, s => match windowOf addr with
      | none => if len = 0 then ans b .ok s else ans b .badAddr s
      | some (kind, ix, off, size, lvl) =>
        match s.needLevel n lvl with
        | .ok =>
          if kind = 0 ∧ !s.isOn (domLANE ix) then ans b .domainOff s
          else
            let m := min len (size - off)
            let (w, s1) := s.windowBytes kind ix off m
            win ans n k (addr + m) (len - m) (b ++ w) s1
        | st => ans b st s

/-- READ_BLOCK (R466, R470, R473). -/
def execReadBlock (t : Nat) (h : MHead) (body : List Byte) (s : State) : Host.Outcome State Fault Refusal :=
  atTime t s fun s => s.request h 0x12 false body fun s n => s.opReadBlock n h.i2c body

/-! ### The event log (R474) -/

/-- R474: the entries held in MRAM or in the fallback log, by SEQ. -/
def State.heldEntries (s : State) : List LogEntry :=
  let m := (s.log.mram.filter fun e => !s.log.unread.contains e.1).filterMap (·.2)
  let f := (s.log.flog.filterMap (·.2)).filter fun e => !(m.any fun x => x.seq == e.seq)
  (m ++ f).foldr insEntry []

/-- R474: the cause of a missing sequence: 1 overwritten in MRAM, 2 unreadable, 3 lost in the fallback log. -/
def State.missCause (s : State) (q : Nat) : Nat :=
  match s.log.mram.get (q % 65536) with
  | some e => if e.seq = q then 2 else if q < e.seq then 1 else 3
  | none => 3

/-- R474: the placeholder of the run of missing sequences from `q` on. -/
def State.placeholder (s : State) (q n : Nat) : LogEntry :=
  { seq := q, time := 0, code := 0, dom := domMGMT, flags := 0, inst := noInst, data := [.w n, .w (s.missCause q)] }

/-- R474: the entries from `q` on up to the newest, with placeholders for what is missing. -/
def State.fillEntries (s : State) : Nat → List LogEntry → List LogEntry
  | q, [] => if q ≤ s.log.seq then [s.placeholder q (s.log.seq + 1 - q)] else []
  | q, e :: l => if q < e.seq then s.placeholder q (e.seq - q) :: e :: s.fillEntries (e.seq + 1) l
    else e :: s.fillEntries (e.seq + 1) l

/-- R474: EVENT_FETCH. -/
def State.opEventFetch (s : State) (i2c : Bool) (body : List Byte) : Answer :=
  let count := byteAt body 8
  let lo := leAt body 10 2
  let hi := leAt body 12 2
  if body.length ≠ 14 ∨ count = 0 ∨ (if i2c then 3 else 22) < count then ⟨.badValue, false, [], s⟩
  else
    let all := s.heldEntries
    let from_ := if leAt body 0 8 = 0 then (match all with
      | e :: _ => e.seq
      | [] => s.log.seq + 1) else leAt body 0 8
    let l := (s.fillEntries from_ (all.filter fun e => decide (from_ ≤ e.seq))).filter fun e =>
      e.code == 0 || (decide (lo ≤ e.code) && decide (e.code ≤ hi))
    let now_ := l.take count
    let next := match l.drop count with
      | e :: _ => e.seq
      | [] => max from_ (s.log.seq + 1)
    ⟨.ok, decide (count < l.length), leBytes 8 next ++ leBytes 1 now_.length ++ leBytes 7 0 ++ now_.flatMap LogEntry.bytes, s⟩

/-- EVENT_FETCH (R474). -/
def execEventFetch (t : Nat) (h : MHead) (body : List Byte) (s : State) : Host.Outcome State Fault Refusal :=
  atTime t s fun s => s.request h 0x30 false body fun s _ => s.opEventFetch h.i2c body

/-! ### Records (R343, R344, R467) -/

/-- R343: a run: first, last, class (0 AVAILABLE, 1 GAP, 2 LOST, 3 EXPIRED, 4 PENDING), cause of a gap. -/
structure Run where
  first : Nat
  last  : Nat
  cls   : Nat
  cause : Nat
  deriving DecidableEq, Repr, Inhabited

def Run.bytes (r : Run) : List Byte := leBytes 8 r.first ++ leBytes 8 r.last ++ leBytes 1 r.cls ++ leBytes 1 r.cause ++ leBytes 6 0

/-- R339: the records of a pair cannot be read. -/
def State.pairLost (s : State) (p : Nat) : Bool := s.pairState p == 4 || s.pairState p == 0

/-- R343: the class of a durable record. -/
def State.recClass (s : State) (r : CRec) : Nat × Nat :=
  if s.pairLost r.pair ∨ r.units.any s.carafe.lost.contains then (2, 0)
  else if r.typ = 1 then (1, byteAt r.payload 0)
  else (0, 0)

/-- A run joined to the next where they touch and agree. -/
def joinRuns : List Run → List Run
  | [] => []
  | a :: l => match joinRuns l with
    | b :: m => if a.cls = b.cls ∧ a.cause = b.cause ∧ (a.last + 1 = b.first ∨ a.last = b.first) then { a with last := b.last } :: m
      else a :: b :: m
    | [] => [a]

/-- Records of a stream in order of sequence. -/
def insRec (r : CRec) : List CRec → List CRec
  | [] => [r]
  | x :: l => if r.seq < x.seq then r :: x :: l else x :: insRec r l
def State.strmRecs (s : State) (m : Nat) : List CRec := (s.carafe.stored.filter fun r => r.stream == m).foldr insRec []

/-- R343: the runs of durable records from `q` to `last`; what no record covers has expired. -/
def State.recRuns (s : State) : Nat → Nat → List CRec → List Run
  | q, last, [] => if q ≤ last then [⟨q, last, 3, 0⟩] else []
  | q, last, r :: l =>
    let e := r.seq + r.count - 1
    if last < q then []
    else if e < q then s.recRuns q last l
    else
      let (c, k) := s.recClass r
      let gap := if q < r.seq then [⟨q, min (r.seq - 1) last, 3, 0⟩] else []
      if last < r.seq then gap else gap ++ ⟨max q r.seq, min e last, c, k⟩ :: s.recRuns (e + 1) last l

/-- R329: the durable frontier of a stream. -/
def State.front (s : State) (m : Nat) : Nat := s.get64 (R.REC_STRM_FRONT_LO m) (R.REC_STRM_FRONT_HI m)

/-- R343: a range of sequences as runs. -/
def State.seqRuns (s : State) (m from_ to_ : Nat) : List Run :=
  let f := s.front m
  let pend := if f < to_ then [⟨max from_ (f + 1), to_, 4, 0⟩] else []
  joinRuns (s.recRuns from_ (min to_ f) (s.strmRecs m) ++ pend)

/-- R343: the records whose TIME lies in a range, as runs; those beyond the frontier are PENDING. -/
def State.timeRuns (s : State) (m from_ to_ : Nat) : List Run :=
  let all := (s.carafe.staged.filter fun r => r.stream == m).foldr insRec (s.strmRecs m)
  joinRuns ((all.filter fun r => decide (from_ ≤ r.time) && decide (r.time ≤ to_)).map fun r =>
    let (c, k) := if s.front m < r.seq + r.count - 1 then (4, 0) else s.recClass r
    ⟨r.seq, r.seq + r.count - 1, c, k⟩)

/-- R331: the streams of a capture. -/
def isCapStream (m : Nat) : Bool := (0x100 ≤ m && m ≤ 0x107) || m == 0x110 || m == 0x111

/-- R325, R332: a record of a drained capture at its place on disk: the bytes of a capture fill its segments in turn. -/
def CapDone.place (c : CapDone) (o : Nat) (r : CRec) : CRec :=
  let (p, g) := c.segs.getD (o / (dataBytes - 64)) (0, 0)
  { r with pair := p, pseg := g, pos := (64 + o % (dataBytes - 64)) / unitBytes }

/-- R332: the records of one stream of a drained capture, in their places. -/
def CapDone.records (c : CapDone) (m : Nat) : List CRec :=
  (c.recs.filter fun e => e.2.stream == m).map fun e => c.place e.1 e.2

/-- R343: the class of a record of a drained capture. -/
def State.capClass (s : State) (cap : Nat) (r : CRec) : Nat :=
  if r.pseg < s.get64 (R.REC_PAIR_OLDEST_LO r.pair) (R.REC_PAIR_OLDEST_HI r.pair) then 3
  else if s.pairLost r.pair ∨ s.carafe.capLost.contains (cap, r.stream, r.seq) then 2
  else 0

/-- R332, R343: a stream of a capture as runs of its cycles. A cycle with no record of the stream, as a discarded one
(R333), is in no run: no class is its own (DESIGN CHOICE, log entry 203). -/
def State.capRuns (s : State) (m cap : Nat) : Option (List Run) :=
  if !isCapStream m then none
  else match s.carafe.capDone.find? fun c => c.id == cap with
    | some c => some (joinRuns ((c.records m).map fun r => ⟨r.seq, r.seq, s.capClass cap r, 0⟩))
    | none => (s.carafe.caps.find? fun c => c.id == cap).map fun c =>
        joinRuns (((c.data.flatMap (·.2)).filter fun r => r.stream == m).map fun r => ⟨r.seq, r.seq, 4, 0⟩)

/-- R467: RECORD_QUERY. -/
def State.opQuery (s : State) (i2c : Bool) (body : List Byte) : Answer :=
  let m := leAt body 0 2
  let kind := byteAt body 2
  let from_ := leAt body 4 8
  let to_ := leAt body 12 8
  let cap := leAt body 20 4
  let room := if i2c then (256 - 16) / 24 else 56
  let oldest := ((s.strmRecs m).head?.map (·.seq)).getD 0
  let runs := match kind with
    | 0 => if m < 64 then some (s.seqRuns m from_ to_) else none
    | 1 => if m < 64 then some (s.timeRuns m from_ to_) else none
    | 2 => s.capRuns m cap
    | _ => none
  if body.length ≠ 24 ∨ to_ < from_ ∧ kind ≠ 2 then ⟨.badValue, false, [], s⟩
  else if !s.isOn domREC then ⟨.domainOff, false, [], s⟩
  else match runs with
    | none => ⟨.badValue, false, [], s⟩
    | some l =>
      let front := if m < 64 then s.front m else 0
      ⟨.ok, decide (room < l.length), leBytes 8 front ++ leBytes 8 oldest ++ (l.take room).flatMap Run.bytes, s⟩

/-- RECORD_QUERY (R467). -/
def execRecordQuery (t : Nat) (h : MHead) (body : List Byte) (s : State) : Host.Outcome State Fault Refusal :=
  atTime t s fun s => s.request h 0x40 true body fun s _ => s.opQuery h.i2c body


/-- R336, R337: a read of a record. It is served from the first current member that reads it; a member that failed before
it is rewritten, and one whose retry fails as well becomes FAILED. A record that no member reads is LOST. A member that is
still being filled (R338) is not read. -/
def State.readRec (s : State) (r : CRec) (e : ReadFail) : Bool × State :=
  let rotten := s.carafe.bad.contains (r.stream, r.seq)
  let ms := (s.members r.pair).filter fun d => s.drvState d == dONLINE
  let failed (d : Nat) : Bool := rotten || bit e.fail.val d
  let tried := ms.takeWhile failed
  let dead := tried.filter fun d => bit e.fail.val d && bit e.hard.val d
  let s1 := tried.foldl (fun s d => s.count (F.REC_DRV_ERR_READ d) 1) s
  let repair := tried.filter fun d => !dead.contains d
  match ms.find? fun d => !failed d with
  | some _ =>
    let s2 := if repair.isEmpty then s1
      else (repair.foldl (fun s d => s.submit d (.data (r.units.headD 0)) false) s1).event Ev.REC_READ_REPAIR noInst []
    (true, dead.foldl State.failDrive s2)
  | none => (false, dead.foldl State.failDrive (s1.event Ev.REC_READ_LOST noInst (natData [r.pair, r.pseg, r.pos])))

/-- The fetch of a session in progress, or ended. -/
def State.setFetch (s : State) (n : Nat) (f : Option (Nat × Nat × Nat)) : State := s.setSess n { s.sess n with fetch := f }

/-- The reply body of RECORD_FETCH. -/
def fetchBody (q off total : Nat) (b : List Byte) : List Byte := leBytes 8 q ++ leBytes 4 off ++ leBytes 4 total ++ b

/-- R344, R467: RECORD_FETCH of a record of a stream. -/
def State.fetchRec (s : State) (n m q off len : Nat) (e : ReadFail) : Answer :=
  let going := (s.sess n).fetch == some (m, 0, q) && decide (0 < off)
  let no (st : Status) (s : State) : Answer := ⟨st, false, [], s.setFetch n none⟩
  match (s.strmRecs m).find? fun r => r.seq == q && r.typ == 0 with
  | none => no (if going then .timeout else .badValue) s
  | some r =>
    if (s.recClass r).1 ≠ 0 ∨ s.front m < q then no .badValue s
    else
      let (ok, s1) := s.readRec r e
      if !ok then no .badValue (s1.setRec fun c => { c with lost := r.units ++ c.lost })
      else
        let b := r.bytes
        let part := bytesAt b off len
        let more := decide (off + part.length < b.length)
        ⟨.ok, more, fetchBody q off b.length part, s1.setFetch n (if more then some (m, 0, q) else none)⟩

/-- R337: the records of one cycle are read, in order. -/
def State.readRecs (s : State) (e : ReadFail) : List CRec → Bool × State
  | [] => (true, s)
  | r :: l =>
    let (ok, s1) := s.readRec r e
    if ok then s1.readRecs e l else (false, s1)

/-- R344, R467: RECORD_FETCH of a cycle of a drained capture. Where a cycle has several records of the stream (stream
0x0111), they follow each other and OFFSET counts over all of them: DESIGN CHOICE, log entry 204. -/
def State.fetchCap (s : State) (n m cap q off len : Nat) (e : ReadFail) : Answer :=
  let going := (s.sess n).fetch == some (m, cap, q) && decide (0 < off)
  let no (st : Status) (s : State) : Answer := ⟨st, false, [], s.setFetch n none⟩
  let l : List CRec := match s.carafe.capDone.find? fun c => c.id == cap with
    | some c => (c.records m).filter fun r => r.seq == q
    | none => []
  if l.isEmpty then no .badValue s
  else if l.any fun r => s.capClass cap r == 3 then no (if going then .timeout else .badValue) s
  else if l.any fun r => s.capClass cap r != 0 then no .badValue s
  else
    let (ok, s1) := s.readRecs e l
    if !ok then no .badValue (s1.setRec fun c => { c with capLost := (cap, m, q) :: c.capLost })
    else
      let b := l.flatMap CRec.bytes
      let part := bytesAt b off len
      let more := decide (off + part.length < b.length)
      ⟨.ok, more, fetchBody q off b.length part, s1.setFetch n (if more then some (m, cap, q) else none)⟩

/-- R467: RECORD_FETCH. -/
def State.opFetch (s : State) (n : Nat) (i2c : Bool) (body : List Byte) (e : ReadFail) : Answer :=
  let m := leAt body 0 2
  let cap := leAt body 2 4
  let q := leAt body 6 8
  let off := leAt body 14 4
  let len := min (leAt body 18 2) (maxBody i2c - 16)
  if body.length ≠ 20 then ⟨.badValue, false, [], s⟩
  else if !s.isOn domREC then ⟨.domainOff, false, [], s⟩
  else if cap = 0 then s.fetchRec n m q off len e
  else s.fetchCap n m cap q off len e

/-- RECORD_FETCH (R336, R337, R344, R467); `e` is what the drives answer. -/
def execRecordFetch (t : Nat) (h : MHead) (body : List Byte) (e : ReadFail) (s : State) :
    Host.Outcome State Fault Refusal :=
  atTime t s fun s => s.request h 0x41 true body fun s n => s.opFetch n h.i2c body e

/-! ### Reopening (R458, R459) -/

/-- R458: the mode is enabled, and there is a verifier or a key for it. -/
def State.modeMay (s : State) (level mode slot : Nat) : Bool :=
  if mode = 0 then s.flag F.ACC_POLICY_PW_EN && (match s.start.verifier.get level with
    | some (_, v) => v.any fun b => b != 0
    | none => false)
  else s.flag F.ACC_POLICY_KEY_EN && s.hasKey (2 + slot)

/-- R458: CHALLENGE. -/
def State.opChallenge (s : State) (n : Nat) (body : List Byte) : Answer :=
  let level := byteAt body 0
  let mode := byteAt body 1
  let slot := byteAt body 2
  if body.length ≠ 3 ∨ level = 0 ∨ 2 < level ∨ 1 < mode ∨ (mode = 1 ∧ 1 < slot) then ⟨.badValue, false, [], s⟩
  else if s.start.blockEnd.isSome || (s.start.opener.isSome && !s.isOpener n) then ⟨.busy, false, [], s⟩
  else if !s.modeMay level mode slot then ⟨.accessDenied, false, [], s⟩
  else
    let (b, s1) := s.freeBytes 16
    ⟨.ok, false, b, s1.setSess n { s1.sess n with nonce := some { bytes := b, level := level, mode := mode, slot := slot, at_ := s.now } }⟩

/-- CHALLENGE (R458). -/
def execChallenge (t : Nat) (h : MHead) (body : List Byte) (s : State) : Host.Outcome State Fault Refusal :=
  atTime t s fun s => s.request h 0x50 false body fun s n => s.opChallenge n body

/-- R458: a RESPONSE is right. -/
def State.responseOk (s : State) (n : Nat) (x : Nonce) (d : List Byte) : Bool :=
  decide (s.now ≤ x.at_ + 60 * uS) && s.modeMay x.level x.mode x.slot &&
  if x.mode = 0 then match s.start.verifier.get x.level with
    | some (salt, v) => leBytes 32 (Config.sha256 (salt ++ d)).toNat == v
    | none => false
  else match s.start.keys.get (2 + x.slot) with
    | some k => leBytes 32 (Config.hmacSha256 k (x.bytes ++ leBytes 8 (s.get64 R.DEV_SERIAL_LO R.DEV_SERIAL_HI) ++
        leBytes 1 x.level ++ leBytes 1 n)).toNat == d
    | none => false

/-- R459: a rejected RESPONSE; MAX_FAIL of them within 10 min block every CHALLENGE for 10 min. -/
def State.reject (s : State) (n mode : Nat) : State :=
  let l := s.now :: s.recentFails
  let s1 := (s.setStart fun y => { y with fails := l }).event Ev.ACC_AUTH_FAIL noInst [.w n, .w mode]
  if s.get F.ACC_POLICY_MAX_FAIL ≤ l.length ∧ s.start.blockEnd.isNone then
    (s1.setStart fun y => { y with blockEnd := some (s.now + 600 * uS) }).event Ev.ACC_AUTH_BLOCKED noInst []
  else s1

/-- R458: RESPONSE: accepted, the session is the opener. -/
def State.opResponse (s : State) (n : Nat) (body : List Byte) : Answer :=
  let len := byteAt body 0
  let d := body.drop 1
  match (s.sess n).nonce with
  | none => ⟨.stateMismatch, false, [], s⟩
  | some x =>
    if d.length ≠ len ∨ (x.mode = 0 ∧ (len < 8 ∨ 64 < len)) ∨ (x.mode = 1 ∧ len ≠ 32) then ⟨.badValue, false, [], s⟩
    else
      let s1 := s.setSess n { s.sess n with nonce := none }
      if s.start.opener.isSome && !s.isOpener n then ⟨.busy, false, [], s1⟩
      else if s.responseOk n x d then
        let s2 := s1.setStart fun y =>
          { y with opener := some n, openLevel := x.level, openUntil := s.now + s.get F.ACC_POLICY_HOLD_MIN * 60 * uS }
        ⟨.ok, false, [], s2.event Ev.ACC_REOPENED noInst (natData [n, x.level, x.mode])⟩
      else ⟨.accessDenied, false, [], s1.reject n x.mode⟩

/-- RESPONSE (R458, R459). -/
def execResponse (t : Nat) (h : MHead) (body : List Byte) (s : State) : Host.Outcome State Fault Refusal :=
  atTime t s fun s => s.request h 0x51 false body fun s n => s.opResponse n body

end Sys2Proof.Machine
end

