-- ==== Sys2Proof/Machine/Sfp.lean ====
section
/-! DEFINITION. Transceiver cages (R488, R489, R498). -/

namespace Sys2Proof.Machine

/-- The state of a cage replaced. -/
def State.setCage (s : State) (c : Nat) (x : Cage) : State :=
  s.setPins fun y => { y with cage := s.pins.cage.set c x }

/-- R489: the transceiver of a cage is gone: the link loss of R92 of a ring port (link 0 at port A, link N at port B), the
LAN loss of R232 of a bus port. -/
def State.cageLost (s : State) (c : Nat) : State :=
  if c < 16 then
    let r := c / 2
    let b := c % 2 == 1
    s.inDom (domRING r) fun s =>
      let s1 := if b && s.nCells r == 0 then s else s.linkDown r (if b then s.nCells r else 0)
      s1.put (if b then F.RING_STATUS_LINK_B r else F.RING_STATUS_LINK_A r) 0
  else s.inDom domPBUS fun s => s.pbLinkDown (c - 16) true

/-- SFP_INSERT (R488, R489, R498): a transceiver is inserted, its cage is on again, and it is enabled when read, within
300 ms, where it supports the cage's rate. -/
def execSfpInsert (t : Nat) (c : Fin 20) (rateOk : Bool) (readMs : Nat) (s : State) :
    Host.Outcome State Fault Refusal :=
  atTime t s fun s => s.setCage c
    { present := true, enabledAt := if rateOk then some (s.now + satN 300 readMs * uMs) else none, cutOff := false }

/-- SFP_REMOVE (R489): a transceiver is removed. -/
def execSfpRemove (t : Nat) (c : Fin 20) (s : State) : Host.Outcome State Fault Refusal :=
  atTime t s fun s => (s.setCage c { present := false, enabledAt := none, cutOff := false }).cageLost c

/-- R498: the current limit of a cage, mA. -/
def cageLimit (c : Nat) : Nat := if c < 16 then 500 else 330

/-- SFP_OVERCURRENT (R498): a transceiver draws `mA`; above the cage's limit the cage is switched off, as a removal. -/
def execSfpOvercurrent (t : Nat) (c : Fin 20) (mA : Nat) (s : State) : Host.Outcome State Fault Refusal :=
  atTime t s fun s =>
    if !(s.pins.cage.get c).present || decide (mA ≤ cageLimit c) then s
    else (s.setCage c { s.pins.cage.get c with enabledAt := none, cutOff := true }).cageLost c

end Sys2Proof.Machine
end

