-- ==== Sys2Proof/Machine/Freeze.lean ====
section
/-! DEFINITION. The input freeze (R23, R102, R105): the slots, the cell table, what has waited for the freeze, and the
pass of the lanes. -/

namespace Sys2Proof.Machine

/-! ### What waits for the freeze (R102, R105) -/

/-- R465, R466: the rest of a WRITE request is executed, and its reply sent to a session that is still open. -/
def State.runWrites (s : State) (h : MHead) (k : Nat) (rest : List (List Byte)) (e : AccEnv) : State :=
  let n := h.session
  if (s.sess n).active then
    (State.writeParts h e n rest k s).finish h n
      { ver := (s.sess n).major, op := 0x11, session := n, status := .ok, tag := h.tag, seq := h.seq, more := false,
        body := [] }
  else s

/-- One of them. -/
def State.runAsk (s : State) (a : CellAsk) : State :=
  match a with
  | .happen e k => s.happen k e
  | .access n addr value mask e => s.writeBy n addr value mask e
  | .pour n orphan addr value mask e => ((s.pourRights n orphan).pourWrite n orphan ⟨addr, value, mask⟩ e).endRights s n
  | .writes h k rest e => s.runWrites h k rest e

/-- R102, R105: what has waited takes effect at the freeze, in the order of arrival. -/
def State.runAsks (s : State) : State :=
  s.cells.asks.foldl State.runAsk (s.setCells fun x => { x with asks := [] })

/-! ### The input freeze (R23) -/

/-- R144, R147, R176: what the lane sequencer forms from the freeze and the published signals, seen from the next pass. -/
def State.sequence (s : State) : State :=
  let s1 := s.clusters.foldl State.stageCluster s
  let s2 := s1.liveCells.foldl State.mpptFollow s1
  let s3 := s2.clusters.foldl (fun s c => (s.noteZs c).mpptStat c) s2
  s3.islTake.inDom domPBUS State.islFreeze

/-- R23, R142: the slots and the cell table, what has waited, the pass of the engine, and the sequencer after it, at a
freeze with lanes in service. -/
def State.lanesPass (s : State) (dis : List LaneDis) : State :=
  let (s0, bad) := s.laneFreeze.cellSlots
  let s1 := s0.haltsSeen
  let s2 := (bad.eraseDups.filter fun c => s1.cluRunning c).foldl State.clusterHalt s1
  let s3 := s2.liveCells.foldl State.cellSteps s2
  let s4 := s3.forN 8 fun s c => (s.forN 3 fun s ph => s.marginFreeze c ph).startWindow c
  let s5 := (if s4.vlWorks then s4.wearFreeze else s4).runAsks
  let s6 := s5.forN 9 State.gridShow
  let s7 := s6.clusters.foldl (fun s c => (s.takeCluster c).firstCycle c) s6
  let s8 := (((s7.cePass s7.ceSource).publish.judgeLanes dis).svPubFreeze).gooseFreeze
  if s8.lanesRun then s8.sequence else s8

/-- R23, R288: the cycle whose freeze comes next: the first one begun, not frozen and not skipped. -/
def State.nextInput (s : State) : Option State :=
  let l := s.link
  if l.begun && !l.frozen && !l.skip then some s
  else match l.later.dropWhile (·.skip) with
    | [] => none
    | c :: rest => some (s.setLink fun _ => { l with
        cycle := c.k, begun := true, frozen := false, skip := false, tkOff := (c.at_ : Int) - (c.k * s.periodU : Nat),
        later := rest })

/-- R23, R142, R158: the freeze of the present cycle: the slots, the errors corrected in the lanes' memories, and with
lanes in service their pass. What reaches legs, wear engine and Carafe from the lanes needs VL (R19). -/
def State.freezeNow (s : State) (dis : List LaneDis) (corr : List (Nat × Nat)) : State :=
  let s0 := (s.setLink fun x => { x with frozen := true, frozenAt := some s.now }).slewLarge
  let s1 := (s0.forN 8 State.ringSlots).laneCorr corr
  let s2 := if s1.lanesRun then s1.lanesPass dis else s1.runAsks
  let s3 := if s2.vlWorks then
      let s4 := s2.legFreeze.pourFreeze
      (if s4.lanesRun then s4.strmFreeze else s4).capFreeze
    else s2.pourFreeze
  if s3.works domANA then s3.cmpFreeze else s3

/-- INPUT_FREEZE (R23, R103, R109, R142): the inputs of the cycle are taken and the lanes run, with what they report
of it. A skipped cycle has none (R288). -/
def execInputFreeze (t : Nat) (rep : LaneReport) (s : State) : Host.Outcome State Fault Refusal :=
  atTime t s fun s => s.inDom domVOTE fun s => match s.nextInput with
    | none => s
    | some s0 => if s0.mtUnits < s0.tFreeze then s else s0.freezeNow rep.dis rep.corr

end Sys2Proof.Machine
end

