-- ==== Sys2Proof/Machine/Dispatch.lean ====
section
/-! DEFINITION. One arm per command: a direct call of its meaning. -/

namespace Sys2Proof.Machine

def exec (i : Instr) (s : State) : Host.Outcome State Fault Refusal :=
  match i with
  | .registerWrite t n addr value mask e => Sys2Proof.Machine.execRegisterWrite t n addr value mask e s
  | .pairLoRead t n addr => Sys2Proof.Machine.execPairLoRead t n addr s
  | .pairHiRead t n addr => Sys2Proof.Machine.execPairHiRead t n addr s
  | .pairLoWrite t n addr value mask => Sys2Proof.Machine.execPairLoWrite t n addr value mask s
  | .pairHiWrite t n addr value mask => Sys2Proof.Machine.execPairHiWrite t n addr value mask s
  | .timeNowFracRead t n => Sys2Proof.Machine.execTimeNowFracRead t n s
  | .cycleStart t => Sys2Proof.Machine.execCycleStart t s
  | .inputFreeze t rep => Sys2Proof.Machine.execInputFreeze t rep s
  | .scheduleLaunch t => Sys2Proof.Machine.execScheduleLaunch t s
  | .refSelWrite t n value mask step => Sys2Proof.Machine.execRefSelWrite t n value mask step s
  | .refLost t gapNs ppb step => Sys2Proof.Machine.execRefLost t gapNs ppb step s
  | .refSwitch t goodFor step => Sys2Proof.Machine.execRefSwitch t goodFor step s
  | .mdllLocked t second cycles => Sys2Proof.Machine.execMdllLocked t second cycles s
  | .mdllTakeover t step => Sys2Proof.Machine.execMdllTakeover t step s
  | .suspensionEnd t held => Sys2Proof.Machine.execSuspensionEnd t held s
  | .mdllRetry t good => Sys2Proof.Machine.execMdllRetry t good s
  | .mdllStandbyFault t => Sys2Proof.Machine.execMdllStandbyFault t s
  | .clkoutCfgWrite t n k value mask => Sys2Proof.Machine.execClkoutCfgWrite t n k value mask s
  | .ptpAnnounce t port a => Sys2Proof.Machine.execPtpAnnounce t port a s
  | .ptpSync t port origin freq => Sys2Proof.Machine.execPtpSync t port origin freq s
  | .ptpPdelay t port rtt resp => Sys2Proof.Machine.execPtpPdelay t port rtt resp s
  | .ptpMasterLost t lan => Sys2Proof.Machine.execPtpMasterLost t lan s
  | .ptpLanSwitch t => Sys2Proof.Machine.execPtpLanSwitch t s
  | .ptpHoldoverExpired t => Sys2Proof.Machine.execPtpHoldoverExpired t s
  | .ppsEdge t => Sys2Proof.Machine.execPpsEdge t s
  | .leapApplied t => Sys2Proof.Machine.execLeapApplied t s
  | .timeUtcWrite t n value mask => Sys2Proof.Machine.execTimeUtcWrite t n value mask s
  | .rtcRealign t => Sys2Proof.Machine.execRtcRealign t s
  | .calRange t => Sys2Proof.Machine.execCalRange t s
  | .rtcCalDateRead t n => Sys2Proof.Machine.execRtcCalDateRead t n s
  | .rtcCalDateWrite t n value mask => Sys2Proof.Machine.execRtcCalDateWrite t n value mask s
  | .rtcCalTimeWrite t n value mask => Sys2Proof.Machine.execRtcCalTimeWrite t n value mask s
  | .wakeFromRtc t tick => Sys2Proof.Machine.execWakeFromRtc t tick s
  | .cremaStart t lost => Sys2Proof.Machine.execCremaStart t lost s
  | .telemetryFrameRx t r portB aborted bytes => Sys2Proof.Machine.execTelemetryFrameRx t r portB aborted bytes s
  | .mbxReply t r => Sys2Proof.Machine.execMbxReply t r s
  | .mbxLeaseExpired t r => Sys2Proof.Machine.execMbxLeaseExpired t r s
  | .haltRepeat t r => Sys2Proof.Machine.execHaltRepeat t r s
  | .dlyReqRx t r portB turn => Sys2Proof.Machine.execDlyReqRx t r portB turn s
  | .dlyRspRx t r h rtt turn => Sys2Proof.Machine.execDlyRspRx t r h rtt turn s
  | .alignFault t k => Sys2Proof.Machine.execAlignFault t k s
  | .ringEnable t n r => Sys2Proof.Machine.execRingEnable t n r s
  | .ringRediscover t n r => Sys2Proof.Machine.execRingRediscover t n r s
  | .discoveryRetry t r => Sys2Proof.Machine.execDiscoveryRetry t r s
  | .linkBlockLock t r portB peerV2 => Sys2Proof.Machine.execLinkBlockLock t r portB peerV2 s
  | .discoverFrameRx t r portB bytes => Sys2Proof.Machine.execDiscoverFrameRx t r portB bytes s
  | .ringUp t r aligned => Sys2Proof.Machine.execRingUp t r aligned s
  | .linkDown t r h lostLock silentNs => Sys2Proof.Machine.execLinkDown t r h lostLock silentNs s
  | .linkDegraded t r h errors => Sys2Proof.Machine.execLinkDegraded t r h errors s
  | .ringLost t r => Sys2Proof.Machine.execRingLost t r s
  | .ringHealed t r h m => Sys2Proof.Machine.execRingHealed t r h m s
  | .cellDiagTimeout t k => Sys2Proof.Machine.execCellDiagTimeout t k s
  | .cellDiagRetry t k => Sys2Proof.Machine.execCellDiagRetry t k s
  | .cellLowVdcRecheck t k => Sys2Proof.Machine.execCellLowVdcRecheck t k s
  | .cellUnreachable t k => Sys2Proof.Machine.execCellUnreachable t k s
  | .cellStaleFault t k => Sys2Proof.Machine.execCellStaleFault t k s
  | .pwmTripLatch t k => Sys2Proof.Machine.execPwmTripLatch t k s
  | .cellOvertempBypass t k => Sys2Proof.Machine.execCellOvertempBypass t k s
  | .cellAutoReturn t k => Sys2Proof.Machine.execCellAutoReturn t k s
  | .cellRepeatFault t k => Sys2Proof.Machine.execCellRepeatFault t k s
  | .cellRampEnd t k => Sys2Proof.Machine.execCellRampEnd t k s
  | .cellBypassTimeout t k => Sys2Proof.Machine.execCellBypassTimeout t k s
  | .faultBypassTimeout t k => Sys2Proof.Machine.execFaultBypassTimeout t k s
  | .cellReturnOpen t k => Sys2Proof.Machine.execCellReturnOpen t k s
  | .cellReturnTimeout t k => Sys2Proof.Machine.execCellReturnTimeout t k s
  | .cellCmdNone t n k expect => Sys2Proof.Machine.execCellCmdNone t n k expect s
  | .cellDiagnose t n k expect => Sys2Proof.Machine.execCellDiagnose t n k expect s
  | .cellBypass t n k expect => Sys2Proof.Machine.execCellBypass t n k expect s
  | .cellReturn t n k expect => Sys2Proof.Machine.execCellReturn t n k expect s
  | .cellRetire t n k expect => Sys2Proof.Machine.execCellRetire t n k expect s
  | .cellUnretire t n k expect => Sys2Proof.Machine.execCellUnretire t n k expect s
  | .cellClearFault t n k expect => Sys2Proof.Machine.execCellClearFault t n k expect s
  | .cellLockout t n k expect => Sys2Proof.Machine.execCellLockout t n k expect s
  | .cellRelease t n k expect => Sys2Proof.Machine.execCellRelease t n k expect s
  | .cellTlmRead t n k => Sys2Proof.Machine.execCellTlmRead t n k s
  | .pwmTransitionEnd t c => Sys2Proof.Machine.execPwmTransitionEnd t c s
  | .pwmCntClear t n => Sys2Proof.Machine.execPwmCntClear t n s
  | .pwmLegLatch t l => Sys2Proof.Machine.execPwmLegLatch t l s
  | .legLatchRelease t n l value mask => Sys2Proof.Machine.execLegLatchRelease t n l value mask s
  | .dlyCal t e0 e1 e2 => Sys2Proof.Machine.execDlyCal t e0 e1 e2 s
  | .svFrameRx t f => Sys2Proof.Machine.execSvFrameRx t f s
  | .svSampleMissing t p => Sys2Proof.Machine.execSvSampleMissing t p s
  | .svStreamLost t j => Sys2Proof.Machine.execSvStreamLost t j s
  | .gridBlindEnd t p => Sys2Proof.Machine.execGridBlindEnd t p s
  | .bsiSample t b bits => Sys2Proof.Machine.execBsiSample t b bits s
  | .gridBsiUnfit t p => Sys2Proof.Machine.execGridBsiUnfit t p s
  | .gridBsiFit t p => Sys2Proof.Machine.execGridBsiFit t p s
  | .gridPhaseJump t p => Sys2Proof.Machine.execGridPhaseJump t p s
  | .gridSeqReversed t p => Sys2Proof.Machine.execGridSeqReversed t p s
  | .gridVoltageLost t p => Sys2Proof.Machine.execGridVoltageLost t p s
  | .gridSettled t p => Sys2Proof.Machine.execGridSettled t p s
  | .gridHoldExpired t p => Sys2Proof.Machine.execGridHoldExpired t p s
  | .gridIarmLost t c ph => Sys2Proof.Machine.execGridIarmLost t c ph s
  | .gridIarmDisagree t k => Sys2Proof.Machine.execGridIarmDisagree t k s
  | .mpptStep t k => Sys2Proof.Machine.execMpptStep t k s
  | .mpptShadeQueue t k => Sys2Proof.Machine.execMpptShadeQueue t k s
  | .mpptScanDue t k => Sys2Proof.Machine.execMpptScanDue t k s
  | .mpptScanPoint t k => Sys2Proof.Machine.execMpptScanPoint t k s
  | .mpptScanDone t k => Sys2Proof.Machine.execMpptScanDone t k s
  | .mpptCapInstant t c => Sys2Proof.Machine.execMpptCapInstant t c s
  | .mpptVocSet t k => Sys2Proof.Machine.execMpptVocSet t k s
  | .mpptVocDefault t k => Sys2Proof.Machine.execMpptVocDefault t k s
  | .mpptDark t k => Sys2Proof.Machine.execMpptDark t k s
  | .mpptDarkClear t k => Sys2Proof.Machine.execMpptDarkClear t k s
  | .mpptCmdNone t n k => Sys2Proof.Machine.execMpptCmdNone t n k s
  | .scanCell t n k => Sys2Proof.Machine.execScanCell t n k s
  | .scanCluster t n k => Sys2Proof.Machine.execScanCluster t n k s
  | .cancelScan t n k => Sys2Proof.Machine.execCancelScan t n k s
  | .frtEvaluation t c => Sys2Proof.Machine.execFrtEvaluation t c s
  | .frtFastScan t c => Sys2Proof.Machine.execFrtFastScan t c s
  | .frtCmdNone t n c => Sys2Proof.Machine.execFrtCmdNone t n c s
  | .frtCmdStart t n c => Sys2Proof.Machine.execFrtCmdStart t n c s
  | .frtCmdStop t n c => Sys2Proof.Machine.execFrtCmdStop t n c s
  | .frtCmdReset t n c => Sys2Proof.Machine.execFrtCmdReset t n c s
  | .frtCmdExpired t c => Sys2Proof.Machine.execFrtCmdExpired t c s
  | .islPassive t => Sys2Proof.Machine.execIslPassive t s
  | .islPassiveClear t => Sys2Proof.Machine.execIslPassiveClear t s
  | .islChip t => Sys2Proof.Machine.execIslChip t s
  | .islEstimate t => Sys2Proof.Machine.execIslEstimate t s
  | .pbLinkDown t port los => Sys2Proof.Machine.execPbLinkDown t port los s
  | .pbLinkUp t port => Sys2Proof.Machine.execPbLinkUp t port s
  | .pbLanLost t port => Sys2Proof.Machine.execPbLanLost t port s
  | .pbHsrOpen t => Sys2Proof.Machine.execPbHsrOpen t s
  | .gooseFrameRx t f => Sys2Proof.Machine.execGooseFrameRx t f s
  | .gooseSubInvalid t g => Sys2Proof.Machine.execGooseSubInvalid t g s
  | .goosePubRepeat t q => Sys2Proof.Machine.execGoosePubRepeat t q s
  | .svPubFrame t q => Sys2Proof.Machine.execSvPubFrame t q s
  | .mtrWindowEnd t m => Sys2Proof.Machine.execMtrWindowEnd t m s
  | .mtrSeqWrong t m current => Sys2Proof.Machine.execMtrSeqWrong t m current s
  | .mtrNMissing t m => Sys2Proof.Machine.execMtrNMissing t m s
  | .mtrIntervalClose t => Sys2Proof.Machine.execMtrIntervalClose t s
  | .mtrAccSave t => Sys2Proof.Machine.execMtrAccSave t s
  | .laneExcluded t l ecc memory => Sys2Proof.Machine.execLaneExcluded t l ecc memory s
  | .laneCeased t => Sys2Proof.Machine.execLaneCeased t s
  | .laneAutoRestart t => Sys2Proof.Machine.execLaneAutoRestart t s
  | .laneRestartDone t pass => Sys2Proof.Machine.execLaneRestartDone t pass s
  | .laneRejoinStart t l => Sys2Proof.Machine.execLaneRejoinStart t l s
  | .laneSelftestDone t l pass => Sys2Proof.Machine.execLaneSelftestDone t l pass s
  | .laneLoadDone t l => Sys2Proof.Machine.execLaneLoadDone t l s
  | .laneCopyRound t l dirty differ => Sys2Proof.Machine.execLaneCopyRound t l dirty differ s
  | .laneSwitch t l => Sys2Proof.Machine.execLaneSwitch t l s
  | .laneInService t l => Sys2Proof.Machine.execLaneInService t l s
  | .laneRejoinFail t l => Sys2Proof.Machine.execLaneRejoinFail t l s
  | .laneCmdNone t n l => Sys2Proof.Machine.execLaneCmdNone t n l s
  | .laneExclude t n l => Sys2Proof.Machine.execLaneExclude t n l s
  | .laneRejoin t n l => Sys2Proof.Machine.execLaneRejoin t n l s
  | .laneRestart t n l => Sys2Proof.Machine.execLaneRestart t n l s
  | .voterFault t v => Sys2Proof.Machine.execVoterFault t v s
  | .mergeFault t r portB => Sys2Proof.Machine.execMergeFault t r portB s
  | .pourBegin t n point zc req chain => Sys2Proof.Machine.execPourBegin t n point zc req chain s
  | .pourAdd t n addr value mask => Sys2Proof.Machine.execPourAdd t n addr value mask s
  | .pourCommit t n => Sys2Proof.Machine.execPourCommit t n s
  | .pourAbort t n id => Sys2Proof.Machine.execPourAbort t n id s
  | .pourCheck t => Sys2Proof.Machine.execPourCheck t s
  | .pourTokenGrant t => Sys2Proof.Machine.execPourTokenGrant t s
  | .pourCommitted t => Sys2Proof.Machine.execPourCommitted t s
  | .pourTokenExpired t => Sys2Proof.Machine.execPourTokenExpired t s
  | .pourTakeEffect t e => Sys2Proof.Machine.execPourTakeEffect t e s
  | .pourEffective t => Sys2Proof.Machine.execPourEffective t s
  | .recRecordAdmit t m time payload => Sys2Proof.Machine.execRecRecordAdmit t m time payload s
  | .recFlushTimer t => Sys2Proof.Machine.execRecFlushTimer t s
  | .nvmeCompletion t id ok status => Sys2Proof.Machine.execNvmeCompletion t id ok status s
  | .driveCmdLeaseExpired t id => Sys2Proof.Machine.execDriveCmdLeaseExpired t id s
  | .driveUnresponsive t d => Sys2Proof.Machine.execDriveUnresponsive t d s
  | .driveIdentify t d ident => Sys2Proof.Machine.execDriveIdentify t d ident s
  | .recCheckpoint t => Sys2Proof.Machine.execRecCheckpoint t s
  | .recCapEnd t => Sys2Proof.Machine.execRecCapEnd t s
  | .recCapSoftTrigger t n => Sys2Proof.Machine.execRecCapSoftTrigger t n s
  | .recSmartPoll t d pct crit temp => Sys2Proof.Machine.execRecSmartPoll t d pct crit temp s
  | .recCmdNone t n d => Sys2Proof.Machine.execRecCmdNone t n d s
  | .recSync t n d => Sys2Proof.Machine.execRecSync t n d s
  | .recFormat t n d => Sys2Proof.Machine.execRecFormat t n d s
  | .recAdopt t n d => Sys2Proof.Machine.execRecAdopt t n d s
  | .recRemove t n d => Sys2Proof.Machine.execRecRemove t n d s
  | .recAdd t n d => Sys2Proof.Machine.execRecAdd t n d s
  | .recMounted t => Sys2Proof.Machine.execRecMounted t s
  | .recStatusRead t n => Sys2Proof.Machine.execRecStatusRead t n s
  | .wearModelUpdate t mismatch => Sys2Proof.Machine.execWearModelUpdate t mismatch s
  | .wearCapEstimate t k => Sys2Proof.Machine.execWearCapEstimate t k s
  | .wearDaily t tcxo rtc => Sys2Proof.Machine.execWearDaily t tcxo rtc s
  | .wearEvaluation t => Sys2Proof.Machine.execWearEvaluation t s
  | .wearRecordFail t k => Sys2Proof.Machine.execWearRecordFail t k s
  | .wearFaultClear t n value mask => Sys2Proof.Machine.execWearFaultClear t n value mask s
  | .wearRfSelect t n value mask => Sys2Proof.Machine.execWearRfSelect t n value mask s
  | .safeSelftestDone t pass => Sys2Proof.Machine.execSafeSelftestDone t pass s
  | .safeInputFiltered t inp level => Sys2Proof.Machine.execSafeInputFiltered t inp level s
  | .safeEvaluation t differ oscOff backA backB => Sys2Proof.Machine.execSafeEvaluation t differ oscOff backA backB s
  | .safeDiscrepancy t pair => Sys2Proof.Machine.execSafeDiscrepancy t pair s
  | .safeTestPulse t which short => Sys2Proof.Machine.execSafeTestPulse t which short s
  | .safeOutputPulse t darkA darkB => Sys2Proof.Machine.execSafeOutputPulse t darkA darkB s
  | .safeResetPulse t => Sys2Proof.Machine.execSafeResetPulse t s
  | .safeResetStuck t => Sys2Proof.Machine.execSafeResetStuck t s
  | .safeTokenIssue t => Sys2Proof.Machine.execSafeTokenIssue t s
  | .safeConnLost t c => Sys2Proof.Machine.execSafeConnLost t c s
  | .safeConnRecover t c => Sys2Proof.Machine.execSafeConnRecover t c s
  | .safePduIssue t q => Sys2Proof.Machine.execSafePduIssue t q s
  | .cmpTrip t x => Sys2Proof.Machine.execCmpTrip t x s
  | .cmpFilterActive t c active => Sys2Proof.Machine.execCmpFilterActive t c active s
  | .cmpTick t c v => Sys2Proof.Machine.execCmpTick t c v s
  | .cmpSettled t c v => Sys2Proof.Machine.execCmpSettled t c v s
  | .cmpTripClear t n c value mask => Sys2Proof.Machine.execCmpTripClear t n c value mask s
  | .cmpPeriodClear t c => Sys2Proof.Machine.execCmpPeriodClear t c s
  | .bsiStopped t b => Sys2Proof.Machine.execBsiStopped t b s
  | .bsiOverrange t b => Sys2Proof.Machine.execBsiOverrange t b s
  | .iadcRoundStart t => Sys2Proof.Machine.execIadcRoundStart t s
  | .iadcConversionDone t value => Sys2Proof.Machine.execIadcConversionDone t value s
  | .iadcHousekeeping t => Sys2Proof.Machine.execIadcHousekeeping t s
  | .iadcQLoRead t n => Sys2Proof.Machine.execIadcQLoRead t n s
  | .iadcQHiRead t n => Sys2Proof.Machine.execIadcQHiRead t n s
  | .iadcPeekLoRead t n => Sys2Proof.Machine.execIadcPeekLoRead t n s
  | .iadcPeekHiRead t n => Sys2Proof.Machine.execIadcPeekHiRead t n s
  | .legEnable t n l => Sys2Proof.Machine.execLegEnable t n l s
  | .legDiagResult t l v0 v1 => Sys2Proof.Machine.execLegDiagResult t l v0 v1 s
  | .legDisable t n l => Sys2Proof.Machine.execLegDisable t n l s
  | .legEnFall t l => Sys2Proof.Machine.execLegEnFall t l s
  | .pwrReqOff t n d => Sys2Proof.Machine.execPwrReqOff t n d s
  | .pwrReqRetention t n d => Sys2Proof.Machine.execPwrReqRetention t n d s
  | .pwrReqOn t n d => Sys2Proof.Machine.execPwrReqOn t n d s
  | .pwrPrepared t d => Sys2Proof.Machine.execPwrPrepared t d s
  | .domainRestoreStep t => Sys2Proof.Machine.execDomainRestoreStep t s
  | .i2cAddressMatch t addr => Sys2Proof.Machine.execI2cAddressMatch t addr s
  | .pwrStretchLimit t => Sys2Proof.Machine.execPwrStretchLimit t s
  | .pwrSupplyLost t b => Sys2Proof.Machine.execPwrSupplyLost t b s
  | .pwrSupplyRestored t b straps => Sys2Proof.Machine.execPwrSupplyRestored t b straps s
  | .cremaTamperCheck t open_ => Sys2Proof.Machine.execCremaTamperCheck t open_ s
  | .cremaChargeDone t uAh => Sys2Proof.Machine.execCremaChargeDone t uAh s
  | .cremaChgTemp t ok vcell vharv iharv => Sys2Proof.Machine.execCremaChgTemp t ok vcell vharv iharv s
  | .cremaCellCutoff t => Sys2Proof.Machine.execCremaCellCutoff t s
  | .cremaCapTest t => Sys2Proof.Machine.execCremaCapTest t s
  | .cremaCapTestEnd t => Sys2Proof.Machine.execCremaCapTestEnd t s
  | .thmUpdate t p => Sys2Proof.Machine.execThmUpdate t p s
  | .thmRestart t d => Sys2Proof.Machine.execThmRestart t d s
  | .thmCpStale t => Sys2Proof.Machine.execThmCpStale t s
  | .thmPeakRead t n d => Sys2Proof.Machine.execThmPeakRead t n d s
  | .nresetAssert t => Sys2Proof.Machine.execNresetAssert t s
  | .nresetRelease t straps => Sys2Proof.Machine.execNresetRelease t straps s
  | .cfgImageReadDone t img => Sys2Proof.Machine.execCfgImageReadDone t img s
  | .cfgLoadDone t => Sys2Proof.Machine.execCfgLoadDone t s
  | .cfgReady t => Sys2Proof.Machine.execCfgReady t s
  | .cfgCmdNone t n => Sys2Proof.Machine.execCfgCmdNone t n s
  | .cfgActivate t n img => Sys2Proof.Machine.execCfgActivate t n img s
  | .cfgConfirm t n => Sys2Proof.Machine.execCfgConfirm t n s
  | .cfgVerify t n slot img => Sys2Proof.Machine.execCfgVerify t n slot img s
  | .cfgReload t n => Sys2Proof.Machine.execCfgReload t n s
  | .cfgFwSwitch t n => Sys2Proof.Machine.execCfgFwSwitch t n s
  | .cfgRestart t n => Sys2Proof.Machine.execCfgRestart t n s
  | .xspiReadFrame t n ok data => Sys2Proof.Machine.execXspiReadFrame t n ok data s
  | .xspiWriteFrame t n ok => Sys2Proof.Machine.execXspiWriteFrame t n ok s
  | .xspiFault t dev addr => Sys2Proof.Machine.execXspiFault t dev addr s
  | .mgmtStart t valid ver => Sys2Proof.Machine.execMgmtStart t valid ver s
  | .accLockClose t n => Sys2Proof.Machine.execAccLockClose t n s
  | .accOpenerExpired t => Sys2Proof.Machine.execAccOpenerExpired t s
  | .accAuthUnblock t => Sys2Proof.Machine.execAccAuthUnblock t s
  | .accKeyDataWrite t n w value mask => Sys2Proof.Machine.execAccKeyDataWrite t n w value mask s
  | .accKeyProgram t n k => Sys2Proof.Machine.execAccKeyProgram t n k s
  | .accKeyDataClear t => Sys2Proof.Machine.execAccKeyDataClear t s
  | .mgmtFrameBad t i2c bytes => Sys2Proof.Machine.execMgmtFrameBad t i2c bytes s
  | .mgmtOpen t h body => Sys2Proof.Machine.execMgmtOpen t h body s
  | .mgmtClose t h => Sys2Proof.Machine.execMgmtClose t h s
  | .mgmtSessionIdle t n => Sys2Proof.Machine.execMgmtSessionIdle t n s
  | .mgmtRead t h body => Sys2Proof.Machine.execMgmtRead t h body s
  | .mgmtWrite t h body e => Sys2Proof.Machine.execMgmtWrite t h body e s
  | .readBlock t h body => Sys2Proof.Machine.execReadBlock t h body s
  | .eventFetch t h body => Sys2Proof.Machine.execEventFetch t h body s
  | .recordQuery t h body => Sys2Proof.Machine.execRecordQuery t h body s
  | .recordFetch t h body e => Sys2Proof.Machine.execRecordFetch t h body e s
  | .challenge t h body => Sys2Proof.Machine.execChallenge t h body s
  | .response t h body => Sys2Proof.Machine.execResponse t h body s
  | .i2cReplyRead t => Sys2Proof.Machine.execI2cReplyRead t s
  | .logEntry t code inst data fails => Sys2Proof.Machine.execLogEntry t code inst data fails s
  | .logSeqRestored t => Sys2Proof.Machine.execLogSeqRestored t s
  | .logRetest t n => Sys2Proof.Machine.execLogRetest t n s
  | .logRetestDone t bad => Sys2Proof.Machine.execLogRetestDone t bad s
  | .grindScrub t m corr lanes unc => Sys2Proof.Machine.execGrindScrub t m corr lanes unc s
  | .sfpInsert t c rateOk readMs => Sys2Proof.Machine.execSfpInsert t c rateOk readMs s
  | .sfpRemove t c => Sys2Proof.Machine.execSfpRemove t c s
  | .sfpOvercurrent t c mA => Sys2Proof.Machine.execSfpOvercurrent t c mA s
  | .cmpOutputInactive t x => Sys2Proof.Machine.execCmpOutputInactive t x s
  | .legUpdatePoint t l => Sys2Proof.Machine.execLegUpdatePoint t l s
  | .ringDisable t n r => Sys2Proof.Machine.execRingDisable t n r s
  | .dlyReqSend t r portB => Sys2Proof.Machine.execDlyReqSend t r portB s
  | .harvSourceChange t ok => Sys2Proof.Machine.execHarvSourceChange t ok s

end Sys2Proof.Machine
end

