-- ==== Sys2Proof/Safety.lean ====
section
/-! DEFINITION. What claims are stated in: the instant of a command, the canonical form of the register file, and what
every command keeps. -/

namespace Sys2Proof

/-- The instant of a command, in units of 125 ps on the root clock. -/
def Instr.instant : Instr → Nat
  | .registerWrite t .. => t
  | .pairLoRead t .. => t
  | .pairHiRead t .. => t
  | .pairLoWrite t .. => t
  | .pairHiWrite t .. => t
  | .timeNowFracRead t .. => t
  | .cycleStart t => t
  | .inputFreeze t .. => t
  | .scheduleLaunch t => t
  | .refSelWrite t .. => t
  | .refLost t .. => t
  | .refSwitch t .. => t
  | .mdllLocked t .. => t
  | .mdllTakeover t .. => t
  | .suspensionEnd t .. => t
  | .mdllRetry t .. => t
  | .mdllStandbyFault t => t
  | .clkoutCfgWrite t .. => t
  | .ptpAnnounce t .. => t
  | .ptpSync t .. => t
  | .ptpPdelay t .. => t
  | .ptpMasterLost t .. => t
  | .ptpLanSwitch t => t
  | .ptpHoldoverExpired t => t
  | .ppsEdge t => t
  | .leapApplied t => t
  | .timeUtcWrite t .. => t
  | .rtcRealign t => t
  | .calRange t => t
  | .rtcCalDateRead t .. => t
  | .rtcCalDateWrite t .. => t
  | .rtcCalTimeWrite t .. => t
  | .wakeFromRtc t .. => t
  | .cremaStart t .. => t
  | .telemetryFrameRx t .. => t
  | .mbxReply t .. => t
  | .mbxLeaseExpired t .. => t
  | .haltRepeat t .. => t
  | .dlyReqRx t .. => t
  | .dlyRspRx t .. => t
  | .alignFault t .. => t
  | .ringEnable t .. => t
  | .ringRediscover t .. => t
  | .discoveryRetry t .. => t
  | .linkBlockLock t .. => t
  | .discoverFrameRx t .. => t
  | .ringUp t .. => t
  | .linkDown t .. => t
  | .linkDegraded t .. => t
  | .ringLost t .. => t
  | .ringHealed t .. => t
  | .cellDiagTimeout t .. => t
  | .cellDiagRetry t .. => t
  | .cellLowVdcRecheck t .. => t
  | .cellUnreachable t .. => t
  | .cellStaleFault t .. => t
  | .pwmTripLatch t .. => t
  | .cellOvertempBypass t .. => t
  | .cellAutoReturn t .. => t
  | .cellRepeatFault t .. => t
  | .cellRampEnd t .. => t
  | .cellBypassTimeout t .. => t
  | .faultBypassTimeout t .. => t
  | .cellReturnOpen t .. => t
  | .cellReturnTimeout t .. => t
  | .cellCmdNone t .. => t
  | .cellDiagnose t .. => t
  | .cellBypass t .. => t
  | .cellReturn t .. => t
  | .cellRetire t .. => t
  | .cellUnretire t .. => t
  | .cellClearFault t .. => t
  | .cellLockout t .. => t
  | .cellRelease t .. => t
  | .cellTlmRead t .. => t
  | .pwmTransitionEnd t .. => t
  | .pwmCntClear t .. => t
  | .pwmLegLatch t .. => t
  | .legLatchRelease t .. => t
  | .dlyCal t .. => t
  | .svFrameRx t .. => t
  | .svSampleMissing t .. => t
  | .svStreamLost t .. => t
  | .gridBlindEnd t .. => t
  | .bsiSample t .. => t
  | .gridBsiUnfit t .. => t
  | .gridBsiFit t .. => t
  | .gridPhaseJump t .. => t
  | .gridSeqReversed t .. => t
  | .gridVoltageLost t .. => t
  | .gridSettled t .. => t
  | .gridHoldExpired t .. => t
  | .gridIarmLost t .. => t
  | .gridIarmDisagree t .. => t
  | .mpptStep t .. => t
  | .mpptShadeQueue t .. => t
  | .mpptScanDue t .. => t
  | .mpptScanPoint t .. => t
  | .mpptScanDone t .. => t
  | .mpptCapInstant t .. => t
  | .mpptVocSet t .. => t
  | .mpptVocDefault t .. => t
  | .mpptDark t .. => t
  | .mpptDarkClear t .. => t
  | .mpptCmdNone t .. => t
  | .scanCell t .. => t
  | .scanCluster t .. => t
  | .cancelScan t .. => t
  | .frtEvaluation t .. => t
  | .frtFastScan t .. => t
  | .frtCmdNone t .. => t
  | .frtCmdStart t .. => t
  | .frtCmdStop t .. => t
  | .frtCmdReset t .. => t
  | .frtCmdExpired t .. => t
  | .islPassive t => t
  | .islPassiveClear t => t
  | .islChip t => t
  | .islEstimate t => t
  | .pbLinkDown t .. => t
  | .pbLinkUp t .. => t
  | .pbLanLost t .. => t
  | .pbHsrOpen t => t
  | .gooseFrameRx t .. => t
  | .gooseSubInvalid t .. => t
  | .goosePubRepeat t .. => t
  | .svPubFrame t .. => t
  | .mtrWindowEnd t .. => t
  | .mtrSeqWrong t .. => t
  | .mtrNMissing t .. => t
  | .mtrIntervalClose t => t
  | .mtrAccSave t => t
  | .laneExcluded t .. => t
  | .laneCeased t => t
  | .laneAutoRestart t => t
  | .laneRestartDone t .. => t
  | .laneRejoinStart t .. => t
  | .laneSelftestDone t .. => t
  | .laneLoadDone t .. => t
  | .laneCopyRound t .. => t
  | .laneSwitch t .. => t
  | .laneInService t .. => t
  | .laneRejoinFail t .. => t
  | .laneCmdNone t .. => t
  | .laneExclude t .. => t
  | .laneRejoin t .. => t
  | .laneRestart t .. => t
  | .voterFault t .. => t
  | .mergeFault t .. => t
  | .pourBegin t .. => t
  | .pourAdd t .. => t
  | .pourCommit t .. => t
  | .pourAbort t .. => t
  | .pourCheck t => t
  | .pourTokenGrant t => t
  | .pourCommitted t => t
  | .pourTokenExpired t => t
  | .pourTakeEffect t .. => t
  | .pourEffective t => t
  | .recRecordAdmit t .. => t
  | .recFlushTimer t => t
  | .nvmeCompletion t .. => t
  | .driveCmdLeaseExpired t .. => t
  | .driveUnresponsive t .. => t
  | .driveIdentify t .. => t
  | .recCheckpoint t => t
  | .recCapEnd t => t
  | .recCapSoftTrigger t .. => t
  | .recSmartPoll t .. => t
  | .recCmdNone t .. => t
  | .recSync t .. => t
  | .recFormat t .. => t
  | .recAdopt t .. => t
  | .recRemove t .. => t
  | .recAdd t .. => t
  | .recMounted t => t
  | .recStatusRead t .. => t
  | .wearModelUpdate t .. => t
  | .wearCapEstimate t .. => t
  | .wearDaily t .. => t
  | .wearEvaluation t => t
  | .wearRecordFail t .. => t
  | .wearFaultClear t .. => t
  | .wearRfSelect t .. => t
  | .safeSelftestDone t .. => t
  | .safeInputFiltered t .. => t
  | .safeEvaluation t .. => t
  | .safeDiscrepancy t .. => t
  | .safeTestPulse t .. => t
  | .safeOutputPulse t .. => t
  | .safeResetPulse t => t
  | .safeResetStuck t => t
  | .safeTokenIssue t => t
  | .safeConnLost t .. => t
  | .safeConnRecover t .. => t
  | .safePduIssue t .. => t
  | .cmpTrip t .. => t
  | .cmpFilterActive t .. => t
  | .cmpTick t .. => t
  | .cmpSettled t .. => t
  | .cmpTripClear t .. => t
  | .cmpPeriodClear t .. => t
  | .bsiStopped t .. => t
  | .bsiOverrange t .. => t
  | .iadcRoundStart t => t
  | .iadcConversionDone t .. => t
  | .iadcHousekeeping t => t
  | .iadcQLoRead t .. => t
  | .iadcQHiRead t .. => t
  | .iadcPeekLoRead t .. => t
  | .iadcPeekHiRead t .. => t
  | .legEnable t .. => t
  | .legDiagResult t .. => t
  | .legDisable t .. => t
  | .legEnFall t .. => t
  | .pwrReqOff t .. => t
  | .pwrReqRetention t .. => t
  | .pwrReqOn t .. => t
  | .pwrPrepared t .. => t
  | .domainRestoreStep t => t
  | .i2cAddressMatch t .. => t
  | .pwrStretchLimit t => t
  | .pwrSupplyLost t .. => t
  | .pwrSupplyRestored t .. => t
  | .cremaTamperCheck t .. => t
  | .cremaChargeDone t .. => t
  | .cremaChgTemp t .. => t
  | .cremaCellCutoff t => t
  | .cremaCapTest t => t
  | .cremaCapTestEnd t => t
  | .thmUpdate t .. => t
  | .thmRestart t .. => t
  | .thmCpStale t => t
  | .thmPeakRead t .. => t
  | .nresetAssert t => t
  | .nresetRelease t .. => t
  | .cfgImageReadDone t .. => t
  | .cfgLoadDone t => t
  | .cfgReady t => t
  | .cfgCmdNone t .. => t
  | .cfgActivate t .. => t
  | .cfgConfirm t .. => t
  | .cfgVerify t .. => t
  | .cfgReload t .. => t
  | .cfgFwSwitch t .. => t
  | .cfgRestart t .. => t
  | .xspiReadFrame t .. => t
  | .xspiWriteFrame t .. => t
  | .xspiFault t .. => t
  | .mgmtStart t .. => t
  | .accLockClose t .. => t
  | .accOpenerExpired t => t
  | .accAuthUnblock t => t
  | .accKeyDataWrite t .. => t
  | .accKeyProgram t .. => t
  | .accKeyDataClear t => t
  | .mgmtFrameBad t .. => t
  | .mgmtOpen t .. => t
  | .mgmtClose t .. => t
  | .mgmtSessionIdle t .. => t
  | .mgmtRead t .. => t
  | .mgmtWrite t .. => t
  | .readBlock t .. => t
  | .eventFetch t .. => t
  | .recordQuery t .. => t
  | .recordFetch t .. => t
  | .challenge t .. => t
  | .response t .. => t
  | .i2cReplyRead t => t
  | .logEntry t .. => t
  | .logSeqRestored t => t
  | .logRetest t .. => t
  | .logRetestDone t .. => t
  | .grindScrub t .. => t
  | .sfpInsert t .. => t
  | .sfpRemove t .. => t
  | .sfpOvercurrent t .. => t
  | .cmpOutputInactive t .. => t
  | .legUpdatePoint t .. => t
  | .ringDisable t .. => t
  | .dlyReqSend t .. => t
  | .harvSourceChange t .. => t

end Sys2Proof

namespace Sys2Proof.Machine

/-- The register file is in its canonical form: registers rising, none listed at its Reset value, so that equal
contents are equal lists. -/
def State.RegsWf (s : State) : Prop := Map.wf Reg.lt resetWord s.regs = true

/-- What the effect of a command never disturbs, from the state `a` at its instant to the state `s` after it: the
instant and the queue stand, free values are only taken, and the register file keeps its canonical form. -/
structure State.Leads (a s : State) : Prop where
  now     : s.now = a.now
  pending : s.pending = a.pending
  free    : a.free ≤ s.free
  regs    : a.RegsWf → s.RegsWf

/-- A command, sent to a state, answers a next state that meets `P`. -/
def Answers (c : Instr) (s : State) (P : State → Prop) : Prop := ∃ s', exec c s = .next s' ∧ P s'

/-- The parts of the state beside the register file. -/
inductive Part where
  | free | clk | mgmt | log | pwr | start | link | cells | eng | grid | mppt | frt | bus | mtr | lanes | carafe | wear
  | safe | ana | pour | pins | capAsk
  deriving DecidableEq, Repr

/-- A part of the state is the same in `a` and `b`. -/
def State.Same (a b : State) : Part → Prop
  | .free => b.free = a.free
  | .clk => b.clk = a.clk
  | .mgmt => b.mgmt = a.mgmt
  | .log => b.log = a.log
  | .pwr => b.pwr = a.pwr
  | .start => b.start = a.start
  | .link => b.link = a.link
  | .cells => b.cells = a.cells
  | .eng => b.eng = a.eng
  | .grid => b.grid = a.grid
  | .mppt => b.mppt = a.mppt
  | .frt => b.frt = a.frt
  | .bus => b.bus = a.bus
  | .mtr => b.mtr = a.mtr
  | .lanes => b.lanes = a.lanes
  | .carafe => b.carafe = a.carafe
  | .wear => b.wear = a.wear
  | .safe => b.safe = a.safe
  | .ana => b.ana = a.ana
  | .pour => b.pour = a.pour
  | .pins => b.pins = a.pins
  | .capAsk => b.capAsk = a.capAsk

/-- The whole of a register, as a field. -/
abbrev Reg.all (r : Reg) : Fld := ⟨r, 0, 32⟩

/-- R14: a direct write of a register is accepted: every touched field is judged OK, and the relation of its map holds. -/
def State.allows (s : State) (n : Nat) (r : Reg) (value mask : Word) : Bool := (s.writeReg n r value mask).1 == .ok

/-- R14, R153: the register's word after an accepted write. -/
def State.written (s : State) (r : Reg) (value mask : Word) : Word :=
  match rowOf r with
  | some x => (applyWrite x (s.word r) value mask &&& ~~~readsZero r) ||| (s.word r &&& s.keeps r)
  | none => s.word r

/-- A saturating counter field after `n` more counts. -/
def State.plus (s : State) (f : Fld) (n : Nat) : Nat := satN (2 ^ f.wd - 1) (s.get f + n)

/-- R98: the fields of a ring's cell entries that change where the entries go ABSENT. -/
def goneFlds (r : Nat) : List Fld := (cellsOf r).flatMap fun k =>
  [(R.CELL_STATE k).all, F.CELL_DIAG_VALID k, F.CELL_STALE_RUN k, F.WEAR_CELL_STAT_MODEL k, F.WEAR_CELL_STAT_CANDIDATE k,
   F.WEAR_CELL_STAT_URGENT k]

/-- R98, R102: the entries of a ring go ABSENT: at once where the command's instant is an input freeze, else at the next
freeze. -/
abbrev ringGone (s s' : State) (t r : Nat) : Prop :=
  if (s.advance t).atFreeze then ∀ k ∈ cellsOf r, s'.cellState k = 0
  else CellAsk.happen .absentRing (128 * r) ∈ s'.cells.asks

/-- R115: the rows of CELL_CMD by their CMD value. -/
def cellCommands (t : Nat) (n : SessIx) (k : CellIx) (e : Nat) : List (Nat × Instr) :=
  [(0, .cellCmdNone t n k e), (1, .cellDiagnose t n k e), (2, .cellBypass t n k e), (3, .cellReturn t n k e),
   (4, .cellRetire t n k e), (5, .cellUnretire t n k e), (6, .cellClearFault t n k e), (7, .cellLockout t n k e),
   (8, .cellRelease t n k e)]

/-- R102: the happenings of a cell, by the command that brings each. -/
def cellHappenings (t : Nat) (k : CellIx) : List (Instr × CellEv) :=
  [(.cellDiagTimeout t k, .diagTimeout), (.cellDiagRetry t k, .diagRetry), (.cellLowVdcRecheck t k, .lowVdc),
   (.cellUnreachable t k, .unreachable), (.cellStaleFault t k, .staleFault), (.pwmTripLatch t k, .tripLatch),
   (.cellOvertempBypass t k, .overtemp), (.cellAutoReturn t k, .autoReturn), (.cellRepeatFault t k, .repeatFault),
   (.cellRampEnd t k, .rampEnd), (.cellBypassTimeout t k, .bypassTimeout), (.faultBypassTimeout t k, .faultTimeout),
   (.cellReturnOpen t k, .returnOpen), (.cellReturnTimeout t k, .returnTimeout)]

/-- R475: the sticky bit that any entry of the event log may set: the log medium has gone bad. -/
abbrev logFld : Fld := F.CREMA_STICKY_LOG_MEDIA_FAULT

/-- R345, R475: the registers of the record store that show what it does, and the log's bit: its state and health, and per drive, pair, stream
and capture what each of them shows. -/
def recFlds : List Fld :=
  [logFld, R.REC_STATUS.all, R.REC_HEALTH.all, R.REC_CAP_STAT.all, R.REC_CAP_LAST.all] ++
  ((List.range 4).flatMap fun d => [(R.REC_DRV_STAT d).all, (R.REC_DRV_FLIGHT d).all, (R.REC_DRV_ERR d).all,
    (R.REC_DRV_SMART d).all, (R.REC_DRV_NSEG d).all, (R.REC_PAIR_STAT d).all, (R.REC_PAIR_HEAD_LO d).all,
    (R.REC_PAIR_HEAD_HI d).all, (R.REC_PAIR_OLDEST_LO d).all, (R.REC_PAIR_OLDEST_HI d).all]) ++
  (List.range 64).flatMap fun m => [(R.REC_STRM_SEQ_LO m).all, (R.REC_STRM_SEQ_HI m).all, (R.REC_STRM_FRONT_LO m).all,
    (R.REC_STRM_FRONT_HI m).all, (R.REC_STRM_DROP m).all, F.REC_STRM_DEC_RATE m]

/-- From `a` to `b`, at one instant: every bit of every register outside the fields `fs` reads as before, and every
part of the state that is not in `ps` is as before. -/
structure State.Frame (a b : State) (fs : List Fld) (ps : List Part) : Prop where
  now     : b.now = a.now
  pending : b.pending = a.pending
  bits    : ∀ (r : Reg) (k : Nat), (∀ f ∈ fs, f.reg = r → k < f.lo ∨ f.lo + f.wd ≤ k) →
              (b.word r).getLsbD k = (a.word r).getLsbD k
  parts   : ∀ p, p ∉ ps → a.Same b p

/-- A command, sent to a state, answers a next state that meets `P`; from the state at its instant only the fields
`fs` and the parts `ps` change. -/
def Effect (c : Instr) (s : State) (fs : List Fld) (ps : List Part) (P : State → Prop) : Prop :=
  ∃ s', exec c s = .next s' ∧ (s.advance c.instant).Frame s' fs ps ∧ P s'

/-- R471, R472: from `s` to `s'` exactly these entries have reached the log sequencer, in this order: code, instance
and the data items that fit. -/
def State.Logs (s s' : State) (l : List (Nat × Nat × List DItem)) : Prop :=
  ∃ es : List LogEntry, es.map (fun e => (e.code, e.inst, e.data)) = l.map (fun x => (x.1, x.2.1, fitData 36 x.2.2)) ∧
    s'.log = es.foldl (fun g e => g.accept (s.isOn domMGMT) (s.isOn domDRAM) e) s.log

/-- R464: the management processor executes the request: it is served, its body fits, its session is open and bound to
the sender, its SEQ is the next one, and no request of the session still executes. -/
def State.fresh (s : State) (h : MHead) (body : List Byte) : Prop :=
  s.served h.i2c = true ∧ body.length ≤ maxBody h.i2c ∧ h.session < 8 ∧ (s.sess h.session).active = true ∧
  (s.sess h.session).port = b2n h.i2c ∧ (s.sess h.session).bind = h.bind ∧
  h.seq = ((s.sess h.session).seq + 1) % 2 ^ 32 ∧ s.busySess h.session = false

/-- R464: the state in which a request that is executed is executed: an unread I²C reply is given up, the session's
idle time starts anew and its SEQ is taken. -/
def State.asked (s : State) (h : MHead) : State :=
  let s0 := if h.i2c then s.setMgmt fun x => { x with i2cReply := none } else s
  let s1 := s0.setSess h.session { s0.sess h.session with lastAt := s.now }
  s1.setSess h.session { s1.sess h.session with seq := h.seq }

/-- R462: the reply last sent: its session, tag and SEQ are the request's; its status, MORE and body. -/
def State.replied (s : State) (h : MHead) (op : Nat) (st : Status) (more : Bool) (body : List Byte) : Prop :=
  ∃ ver, s.mgmt.lastReply = some ⟨ver, op, h.session, st, h.tag, h.seq, more, body⟩

end Sys2Proof.Machine
end

