-- ==== Sys2Proof/Certificates/Slice0/Obligations.lean ====
section
/-! DEFINITION. The statements for the provers. Unless a statement says otherwise it is about every state, reached or
not, and every operand; a command's hypotheses are on the state it is sent to and its operands alone. -/

open Sys2Proof Sys2Proof.Machine

/-- A step carries out the command at the front of the queue (00_scope.md). The queue is the model's own, log entry 2.-/
def Obligations.StepRunsFrontCommand : Prop :=
  (∀ (s : State) (c : Instr) (rest : List Instr), s.pending = c :: rest → step s = exec c { s with pending := rest }) ∧
  (∀ s : State, s.pending = [] → step s = .next s)

/-- Every command answers a next state at its instant and leaves the queue alone (00_scope.md, 01_architecture.md). Instants are the model's own, log entry 1.-/
def Obligations.EveryCommandAnswers : Prop :=
  ∀ (c : Instr) (s : State), Answers c s fun s' =>
    s'.now = max s.now c.instant ∧ s'.pending = s.pending ∧ s.free ≤ s'.free

/-- Every step keeps the register file in its canonical form (01_architecture.md, R13). -/
def Obligations.StepKeepsRegisterForm : Prop :=
  ∀ s : State, s.RegsWf → ∃ s', step s = .next s' ∧ s'.RegsWf

/-- The register file after power-up is canonical (18_power_domains_crema.md). -/
def Obligations.ResetRegisterForm : Prop := State.reset.RegsWf

/-- Over any number of steps the root clock never runs back, and a queue of n commands is empty after n steps (02_time_base.md, 00_scope.md). -/
def Obligations.TimeNeverRunsBack : Prop :=
  ∀ (k : Nat) (s : State), ∃ s', Host.Core.run Sys2Proof.core k s = .next s' ∧ s.now ≤ s'.now ∧ s'.pending = s.pending.drop k

/-- A direct write by address is carried out whole or not at all (R10, R14, R473). -/
def Obligations.AddressedWriteJudged : Prop :=
  ∀ (t : Nat) (n : SessIx) (addr : Nat) (value mask : Word) (e : AccEnv) (s : State), s.isOn domMGMT = true →
    (decodeAddr addr = none → Effect (.registerWrite t n addr value mask e) s [] [.mgmt] fun s' =>
      (addr % 4 ≠ 0 ∨ windowOf addr = none → (s'.sess n).status = .badAddr) ∧
      (addr % 4 = 0 → (windowOf addr).isSome = true → (s'.sess n).status = .accessDenied)) ∧
    (∀ x r, decodeAddr addr = some (x, r) → s.isOn (domOfReg x r) = false →
      Effect (.registerWrite t n addr value mask e) s [] [.mgmt] fun s' => (s'.sess n).status = .domainOff) ∧
    (∀ x r, decodeAddr addr = some (x, r) → s.isOn (domOfReg x r) = true → (s.advance t).actVote n r value mask e = none →
      (s.advance t).actSide n r value mask e = none → isLo r = false → isHi r = false →
      (s.allows n r value mask = true →
        Effect (.registerWrite t n addr value mask e) s [r.all] [.mgmt] fun s' =>
          (s'.sess n).status = .ok ∧ s'.word r = (s.advance t).written r value mask) ∧
      (s.allows n r value mask = false →
        Effect (.registerWrite t n addr value mask e) s [] [.mgmt] fun s' =>
          (s'.sess n).status = (s.writeReg n r value mask).1 ∧ (s'.sess n).status ≠ .ok))

/-- What an accepted write leaves in each field, by its access code (R14, R153, R157, R296). -/
def Obligations.AccessCodes : Prop :=
  ∀ (s : State) (x : RegRow) (i j : Nat) (f : FieldRow) (value mask : Word), x ∈ regRows → f ∈ x.fields →
    x.id ≠ R.PWR_WAKE_SET.id →
    let r : Reg := ⟨x.id, i, j⟩
    let old := s.word r
    let now := fieldOf (s.written r value mask) f.lo f.wd
    (f.acc = .ro → now = fieldOf old f.lo f.wd) ∧
    (f.acc = .rw ∨ f.acc = .wo ∨ f.acc = .rwl ∨ f.acc = .rwp →
      now = fieldOf ((old &&& ~~~mask) ||| (value &&& mask)) f.lo f.wd) ∧
    (f.acc = .w1c → now = fieldOf ((old &&& ~~~(value &&& mask)) ||| (old &&& s.keeps r)) f.lo f.wd ∧
      (x.id ≠ (R.CE_SEC_FLAG 0).id → now = fieldOf (old &&& ~~~(value &&& mask)) f.lo f.wd)) ∧
    (f.acc = .w1s → now = 0)

/-- TIME_NOW_LO snapshots TIME_NOW_HI and TIME_NOW_FRAC at one instant (R44). -/
def Obligations.TimeNowSnapshots : Prop :=
  ∀ (t : Nat) (n : SessIx) (s : State), s.isOn domMGMT = true → s.isOn domCLK = true →
    let a := s.advance t
    Effect (.pairLoRead t n (addrOf R.TIME_NOW_LO)) s [] [.mgmt] (fun s' =>
      (s'.sess n).status = .ok ∧ (s'.sess n).value = BitVec.ofNat 32 a.mtNs ∧
      findReg (s'.sess n).snaps R.TIME_NOW_HI = some (BitVec.ofNat 32 (a.mtNs / 2 ^ 32)) ∧
      findReg (s'.sess n).snaps R.TIME_NOW_FRAC = some (BitVec.ofNat 32 (a.mtUnits % 8))) ∧
    (∀ w, findReg (s.sess n).snaps R.TIME_NOW_HI = some w →
      Effect (.pairHiRead t n (addrOf R.TIME_NOW_HI)) s [] [.mgmt] fun s' =>
        (s'.sess n).status = .ok ∧ (s'.sess n).value = w ∧ findReg (s'.sess n).snaps R.TIME_NOW_HI = none ∧
        findReg (s'.sess n).snaps R.TIME_NOW_FRAC = findReg (s.sess n).snaps R.TIME_NOW_FRAC) ∧
    (∀ w, findReg (s.sess n).snaps R.TIME_NOW_FRAC = some w →
      Effect (.timeNowFracRead t n) s [] [.mgmt] fun s' =>
        (s'.sess n).status = .ok ∧ (s'.sess n).value = w ∧ findReg (s'.sess n).snaps R.TIME_NOW_FRAC = none ∧
        findReg (s'.sess n).snaps R.TIME_NOW_HI = findReg (s.sess n).snaps R.TIME_NOW_HI) ∧
    (findReg (s.sess n).snaps R.TIME_NOW_HI = none →
      Effect (.pairHiRead t n (addrOf R.TIME_NOW_HI)) s [] [.mgmt] fun s' =>
        (s'.sess n).value = BitVec.ofNat 32 (a.mtNs / 2 ^ 32) ∧ (s'.sess n).snaps = (s.sess n).snaps) ∧
    (findReg (s.sess n).snaps R.TIME_NOW_FRAC = none →
      Effect (.timeNowFracRead t n) s [] [.mgmt] fun s' =>
        (s'.sess n).value = BitVec.ofNat 32 (a.mtUnits % 8) ∧ (s'.sess n).snaps = (s.sess n).snaps)

/-- A write of a _LO register is held until the _HI register is written (R12, R14). -/
def Obligations.HeldPairWrites : Prop :=
  ∀ (t : Nat) (n : SessIx) (p : Fin 2) (value mask : Word) (s : State), s.isOn domMGMT = true → s.isOn domPBUS = true →
    let lo := R.PB_MAC_LO p
    let hi := R.PB_MAC_HI p
    let all := BitVec.allOnes 32
    (s.allows n lo value mask = true → Effect (.pairLoWrite t n (addrOf lo) value mask) s [] [.mgmt] fun s' =>
      (s'.sess n).status = .ok ∧ findReg (s'.sess n).held lo = some ((s.word lo &&& ~~~mask) ||| (value &&& mask))) ∧
    (s.allows n lo value mask = false → Effect (.pairLoWrite t n (addrOf lo) value mask) s [] [.mgmt] fun s' =>
      (s'.sess n).status ≠ .ok ∧ (s'.sess n).held = (s.sess n).held) ∧
    (∀ v, findReg (s.sess n).held lo = some v →
      (s.allows n lo v all = true → s.allows n hi value mask = true →
        Effect (.pairHiWrite t n (addrOf hi) value mask) s [lo.all, hi.all] [.mgmt] fun s' =>
          (s'.sess n).status = .ok ∧ s'.word lo = s.written lo v all ∧ s'.word hi = s.written hi value mask ∧
          findReg (s'.sess n).held lo = none) ∧
      (s.allows n lo v all = false ∨ s.allows n hi value mask = false →
        Effect (.pairHiWrite t n (addrOf hi) value mask) s [] [.mgmt] fun s' => (s'.sess n).status ≠ .ok)) ∧
    (findReg (s.sess n).held lo = none → s.allows n hi value mask = true →
      Effect (.pairHiWrite t n (addrOf hi) value mask) s [hi.all] [.mgmt] fun s' =>
        (s'.sess n).status = .ok ∧ s'.word hi = s.written hi value mask)

/-- Reference loss, reference return and the two MDLLs (R36, R37, R38, 02_time_base.md). -/
def Obligations.ReferenceLossAndMdll : Prop :=
  ∀ (t : Nat) (s : State), s.works domCLK = true →
    (∀ gap ppb step, 1000 ≤ gap ∨ 50000 < ppb.natAbs → s.get F.CLK_STATUS_REF_ACTIVE ≠ 0 →
      Effect (.refLost t gap ppb step) s
        [F.CLK_STATUS_ACTIVE, F.CLK_STATUS_TAKEOVER, F.CLK_STATUS_REF_ACTIVE, F.CLK_STATUS_REF_LOST, logFld]
        [.clk, .link, .log] fun s' =>
        s'.get F.CLK_STATUS_REF_ACTIVE = 0 ∧ s'.get F.CLK_STATUS_REF_LOST = 1 ∧ s'.get F.CLK_STATUS_TAKEOVER = 1 ∧
        s'.get F.CLK_STATUS_ACTIVE = 1 - s.get F.CLK_STATUS_ACTIVE ∧
        s'.clk.off + s'.clk.slewLeft = (s.advance t).clk.off + (s.advance t).clk.slewLeft ∧
        (s'.clk.off - (s.advance t).clk.off).natAbs ≤ 8 ∧ s.Logs s' [(Ev.REF_LOST, noInst, [])]) ∧
    (∀ good step, 10 * uS ≤ good → s.get F.CLK_CTRL_REF_REVERT = 1 → s.get F.CLK_STATUS_REF_ACTIVE = 0 →
      s.get F.CLK_CTRL_REF_SEL ≠ 0 →
      Effect (.refSwitch t good step) s
        [F.CLK_STATUS_ACTIVE, F.CLK_STATUS_TAKEOVER, F.CLK_STATUS_REF_ACTIVE, logFld] [.clk, .link, .log] fun s' =>
        s'.get F.CLK_STATUS_REF_ACTIVE = s.get F.CLK_CTRL_REF_SEL ∧ s'.get F.CLK_STATUS_TAKEOVER = 1 ∧
        s'.clk.off + s'.clk.slewLeft = (s.advance t).clk.off + (s.advance t).clk.slewLeft ∧
        s.Logs s' [(Ev.REF_SWITCH, noInst, [])]) ∧
    (∀ step, s.flag (s.lockBit false) = true →
      Effect (.mdllTakeover t step) s [s.lockBit true, F.CLK_STATUS_ACTIVE, F.CLK_STATUS_TAKEOVER, logFld]
        [.clk, .link, .log] fun s' =>
        s'.get F.CLK_STATUS_ACTIVE = 1 - s.get F.CLK_STATUS_ACTIVE ∧ s'.get (s.lockBit true) = 0 ∧
        s'.get (s.lockBit false) = 1 ∧ s'.clk.retryAt = some (max s.now t) ∧
        s.Logs s' [(Ev.MDLL_TAKEOVER, noInst, [])]) ∧
    Effect (.mdllStandbyFault t) s [s.lockBit false, logFld] [.clk, .log] (fun s' =>
      s'.get (s.lockBit false) = 0 ∧ s'.clk.off = (s.advance t).clk.off ∧
      s.Logs s' [(Ev.MDLL_STANDBY_FAULT, noInst, [])]) ∧
    (∀ good r, s.clk.retryAt = some r → r + 10 * uS ≤ t →
      Effect (.mdllRetry t good) s [s.lockBit false] [.clk] fun s' =>
        s'.get (s.lockBit false) = b2n good ∧ (s'.clk.retryAt = none ↔ good = true)) ∧
    (∀ second cycles, 4096 ≤ cycles → 2 ≤ s.domState domCLK →
      Effect (.mdllLocked t second cycles) s [if second then F.CLK_STATUS_LOCK_S else F.CLK_STATUS_LOCK_P] [] fun s' =>
        s'.get (if second then F.CLK_STATUS_LOCK_S else F.CLK_STATUS_LOCK_P) = 1)

/-- REF_SEL and clock-output writes of a session (R35, R41, R42, R10). -/
def Obligations.ReferenceAndOutputWrites : Prop :=
  ∀ (t : Nat) (n : SessIx) (s : State), s.isOn domMGMT = true →
    (s.isOn domCLK = true →
      (∀ value mask step, s.allows n R.CLK_CTRL value mask = true →
        let w := s.written R.CLK_CTRL value mask
        (fieldOf w F.CLK_CTRL_REF_SEL.lo F.CLK_CTRL_REF_SEL.wd = s.get F.CLK_CTRL_REF_SEL →
          Effect (.refSelWrite t n value mask step) s [R.CLK_CTRL.all] [.mgmt] fun s' =>
            s'.word R.CLK_CTRL = w ∧ (s'.sess n).status = .ok) ∧
        (fieldOf w F.CLK_CTRL_REF_SEL.lo F.CLK_CTRL_REF_SEL.wd ≠ s.get F.CLK_CTRL_REF_SEL →
          Effect (.refSelWrite t n value mask step) s
            [R.CLK_CTRL.all, F.CLK_STATUS_ACTIVE, F.CLK_STATUS_TAKEOVER, F.CLK_STATUS_REF_ACTIVE, logFld]
            [.mgmt, .clk, .link, .log] fun s' =>
            s'.word R.CLK_CTRL = w ∧ (s'.sess n).status = .ok ∧
            s'.get F.CLK_STATUS_REF_ACTIVE = fieldOf w F.CLK_CTRL_REF_SEL.lo F.CLK_CTRL_REF_SEL.wd ∧
            s.Logs s' [(Ev.REF_SWITCH, noInst, [])])) ∧
      (∀ (k : Fin 4) value mask, s.allows n (R.CLK_OUT_CFG k) value mask = true →
        let w := s.written (R.CLK_OUT_CFG k) value mask
        let asked := masked (s.word (R.CLK_OUT_CFG k)) value mask
        let en := fieldOf asked 19 1
        let same := fieldOf asked 0 18 = fieldOf (s.word (R.CLK_OUT_CFG k)) 0 18
        (s.get (F.CLK_OUT_CFG_EN k) = 0 ∨ en = 0 ∨ same →
          Effect (.clkoutCfgWrite t n k value mask) s [(R.CLK_OUT_CFG k).all] [.mgmt, .clk] fun s' =>
            s'.word (R.CLK_OUT_CFG k) = w ∧ (s'.sess n).status = .ok ∧
            (s.get (F.CLK_OUT_CFG_EN k) = 0 → s'.get (F.CLK_OUT_CFG_EN k) = 1 →
              (s'.clk.outStart.get k).isSome = true ∧ s'.clk.outStop.get k = none) ∧
            (s.get (F.CLK_OUT_CFG_EN k) = 1 → s'.get (F.CLK_OUT_CFG_EN k) = 0 →
              s'.clk.outStart.get k = none ∧ (s'.clk.outStop.get k).isSome = true) ∧
            (s.get (F.CLK_OUT_CFG_EN k) = s'.get (F.CLK_OUT_CFG_EN k) → s'.clk = (s.advance t).clk)) ∧
        (s.get (F.CLK_OUT_CFG_EN k) = 1 → en = 1 → ¬same →
          Effect (.clkoutCfgWrite t n k value mask) s [] [.mgmt] fun s' => (s'.sess n).status = .busy))) ∧
    (s.isOn domCLK = false →
      (∀ value mask step, Effect (.refSelWrite t n value mask step) s [] [.mgmt] fun s' => (s'.sess n).status = .domainOff) ∧
      (∀ k value mask, Effect (.clkoutCfgWrite t n k value mask) s [] [.mgmt] fun s' => (s'.sess n).status = .domainOff))

/-- The UTC offset and the calendar pair of the RTC (R54, R55, R56, R57, R58, R47). -/
def Obligations.CalendarAndUtcWrites : Prop :=
  ∀ (t : Nat) (n : SessIx) (s : State), s.isOn domMGMT = true →
    (s.isOn domCLK = true → ∀ value mask, s.allows n R.TIME_UTC value mask = true →
      (s.get F.TIME_STATUS_STATE = 0 →
        Effect (.timeUtcWrite t n value mask) s [R.TIME_UTC.all] [.mgmt, .clk] fun s' =>
          s'.word R.TIME_UTC = s.written R.TIME_UTC value mask ∧ s'.clk.rtcUtc = s'.getS F.TIME_UTC_UTC_OFFSET ∧
          s'.clk.off = (s.advance t).clk.off ∧ (s'.sess n).status = .ok) ∧
      (s.get F.TIME_STATUS_STATE ≠ 0 →
        Effect (.timeUtcWrite t n value mask) s [] [.mgmt] fun s' => (s'.sess n).status = .busy)) ∧
    Effect (.rtcCalDateRead t n) s [] [.mgmt] (fun s' =>
      (s'.sess n).value = (s.advance t).calDateWord ∧ (s'.sess n).status = .ok ∧
      findReg (s'.sess n).snaps R.RTC_CAL_TIME = some (s.advance t).calTimeWord) ∧
    (s.isOn domCREMA = true → ∀ value mask, s.allows n R.RTC_CAL_DATE value mask = true →
      Effect (.rtcCalDateWrite t n value mask) s [] [.mgmt] fun s' =>
        (s'.sess n).date = some (masked (s.advance t).calDateWord value mask) ∧ (s'.sess n).status = .ok) ∧
    (s.isOn domCREMA = true → ∀ value mask, s.allows n R.RTC_CAL_TIME value mask = true →
      let a := s.advance t
      let named := a.calParse ((s.sess n).date.getD a.calDateWord) (masked a.calTimeWord value mask)
      (s.get F.TIME_STATUS_STATE = 0 → s.anyActive = false →
        (∀ tai, named = some tai →
          Effect (.rtcCalTimeWrite t n value mask) s [F.RTC_STATUS_CAL_VALID, F.RTC_STATUS_RTC_VALID, logFld]
            [.mgmt, .clk, .log] fun s' =>
            s'.rtcUnits = tai * uS ∧ s'.get F.RTC_STATUS_RTC_VALID = 1 ∧
            s'.get F.RTC_STATUS_CAL_VALID = 1 ∧ (s'.sess n).date = none ∧ (s'.sess n).status = .ok ∧
            (s.works domCLK = true → s'.mtUnits = tai * uS ∧ s'.clk.slewLeft = 0 ∧
              s.Logs s' [(Ev.TIME_STEP, noInst, [.w ((((tai * uS : Nat) : Int) - (a.mtUnits : Int)).tdiv 8)]),
                (Ev.RTC_WRITE, noInst, [])]) ∧
            (s.works domCLK = false → s'.clk.off = a.clk.off ∧ s.Logs s' [(Ev.RTC_WRITE, noInst, [])])) ∧
        (named = none → Effect (.rtcCalTimeWrite t n value mask) s [] [.mgmt] fun s' =>
          (s'.sess n).status = .badDate ∧ (s'.sess n).date = none)) ∧
      (s.get F.TIME_STATUS_STATE ≠ 0 ∨ s.anyActive = true →
        Effect (.rtcCalTimeWrite t n value mask) s [] [.mgmt] fun s' => (s'.sess n).status = .busy))

/-- A pair that names no instant of the calendar is refused (R57, R58). -/
def Obligations.CalendarRefusesImpossibleDates : Prop :=
  ∀ (s : State) (date time : Word),
    let d := fieldOf date 0 5
    let m := fieldOf date 5 4
    let y := 2000 + fieldOf date 9 8
    let ss := fieldOf time 0 6
    let mm := fieldOf time 6 6
    let hh := fieldOf time 12 5
    (2199 < y ∨ m = 0 ∨ 12 < m ∨ d = 0 ∨ monthDays y m < d ∨ 23 < hh ∨ 59 < mm ∨ 60 < ss → s.calParse date time = none) ∧
    (ss = 60 → s.clk.rtcLeap61 = false → s.calParse date time = none) ∧
    (ss = 60 → hh ≠ 23 ∨ mm ≠ 59 → s.calParse date time = none) ∧
    (y ≤ 2199 → 1 ≤ d → d ≤ monthDays y m → hh ≤ 23 → mm ≤ 59 → ss ≤ 59 → s.clk.rtcLeap59 = false →
      s.calParse date time = some ((civilSec y m d hh mm ss : Int) + s.clk.rtcUtc).toNat)

/-- Leap seconds, the RTC's realignment, its range, the wake and the PPS (R46, R51, R52, R54, R55, R56, R59, R60). -/
def Obligations.RtcAndLeap : Prop :=
  ∀ (t : Nat) (s : State),
    (let day := (if s.works domCLK then (s.advance t).utcSec else (s.advance t).rtcUtcSec) % 86400
     let fs := if s.works domCLK then [F.TIME_UTC_UTC_OFFSET, F.TIME_UTC_LEAP61, F.TIME_UTC_LEAP59, logFld] else [logFld]
     let shown (s' : State) : Prop := s'.mtUnits = (s.advance t).mtUnits ∧ s.Logs s' [(Ev.LEAP_APPLIED, noInst, [])] ∧
       (s.works domCLK = true → s'.getS F.TIME_UTC_UTC_OFFSET = satS F.TIME_UTC_UTC_OFFSET.wd s'.clk.rtcUtc ∧
         s'.get F.TIME_UTC_LEAP61 = b2n s'.clk.rtcLeap61 ∧ s'.get F.TIME_UTC_LEAP59 = b2n s'.clk.rtcLeap59)
     (s.clk.rtcLeap61 = true → day = 0 → Effect (.leapApplied t) s fs [.clk, .log] fun s' =>
       s'.clk.rtcUtc = s.clk.rtcUtc + 1 ∧ s'.clk.rtcLeap61 = false ∧ s'.clk.rtcLeap59 = s.clk.rtcLeap59 ∧ shown s') ∧
     (s.clk.rtcLeap61 = false → s.clk.rtcLeap59 = true → day = 86399 → Effect (.leapApplied t) s fs [.clk, .log] fun s' =>
       s'.clk.rtcUtc = s.clk.rtcUtc - 1 ∧ s'.clk.rtcLeap59 = false ∧ s'.clk.rtcLeap61 = false ∧ shown s')) ∧
    (s.works domCLK = true →
      Effect (.rtcRealign t) s [F.RTC_STATUS_RTC_VALID, F.RTC_STATUS_CAL_VALID, R.TIME_OPSEC_LO.all, R.TIME_OPSEC_HI.all]
        [.clk] (fun s' => s'.rtcUnits = (s.advance t).mtUnits ∧ s'.mtUnits = (s.advance t).mtUnits ∧
          s'.get F.RTC_STATUS_RTC_VALID = 1 ∧ (s'.calInRange = true → s'.get F.RTC_STATUS_CAL_VALID = 1)) ∧
      (s.get F.TIME_STATUS_STATE = 3 → s.get F.TIME_PTP_CFG_PPS_EN = 1 →
        Effect (.ppsEdge t) s [logFld] [.clk, .log] fun s' => s'.clk.off = (s.advance t).clk.off ∧
          (((s.advance t).mtUnits : Int) + s'.clk.slewLeft) % (uS : Int) = 0 ∧ s'.clk.slewLeft.natAbs * 2 ≤ uS ∧
          s.Logs s' (if 8000000 < s'.clk.slewLeft.natAbs ∧ s.anyActive = true ∧ s.clk.largeLogged = false then
            [(Ev.TIME_OFFSET_LARGE, noInst, [])] else [])) ∧
      (s.get F.TIME_STATUS_STATE ≠ 3 ∨ s.get F.TIME_PTP_CFG_PPS_EN = 0 →
        Effect (.ppsEdge t) s [] [] fun _ => True) ∧
      (s.get F.TIME_STATUS_STATE = 3 → s.get F.TIME_STATUS_TRACEABLE = 1 →
        s.clk.holdAt + s.get F.TIME_PTP_CFG_HOLD_S * uS ≤ max s.now t →
        Effect (.ptpHoldoverExpired t) s [F.TIME_STATUS_TRACEABLE, logFld] [.clk, .log] fun s' =>
          s'.get F.TIME_STATUS_TRACEABLE = 0 ∧ s'.get F.TIME_STATUS_STATE = 3 ∧
          s.Logs s' [(Ev.PTP_HOLDOVER_EXPIRED, noInst, [])])) ∧
    ((s.advance t).calInRange = false → s.get F.RTC_STATUS_CAL_VALID = 1 →
      Effect (.calRange t) s [F.RTC_STATUS_CAL_VALID, logFld] [.log] fun s' =>
        s'.get F.RTC_STATUS_CAL_VALID = 0 ∧ s.Logs s' [(Ev.CAL_RANGE, noInst, [])]) ∧
    (∀ from_, s.clk.sleepFrom = some from_ → s.get F.CLK_STATUS_LOCK_P = 1 → s.get F.CLK_STATUS_LOCK_S = 1 →
      let tick := (s.advance t).rtcUnits * 32768 / uS
      (∀ n, n ≠ tick → Effect (.wakeFromRtc t n) s [] [] fun _ => True) ∧
      let sleep := (((tick * uS / 32768 : Nat) : Int) - from_).toNat
      Effect (.wakeFromRtc t tick) s
        [F.TIME_STATUS_STATE, F.TIME_STATUS_TRACEABLE, F.TIME_STATUS_RTC_DERIVED, R.TIME_OPSEC_LO.all, R.TIME_OPSEC_HI.all,
          R.TIME_RTCSEC_LO.all, R.TIME_RTCSEC_HI.all, F.TIME_UTC_UTC_OFFSET, F.TIME_UTC_LEAP61, F.TIME_UTC_LEAP59,
          logFld] [.clk, .mtr, .log] fun s' =>
        s'.mtUnits = tick * uS / 32768 ∧ s'.get F.TIME_STATUS_STATE = 0 ∧ s'.get F.TIME_STATUS_TRACEABLE = 0 ∧
        s'.get F.TIME_STATUS_RTC_DERIVED = 1 ∧ s'.clk.sleepFrom = none ∧ s'.clk.rtcOff = s.clk.rtcOff ∧
        s'.getS F.TIME_UTC_UTC_OFFSET = satS F.TIME_UTC_UTC_OFFSET.wd s.clk.rtcUtc ∧
        s'.get64 R.TIME_OPSEC_LO R.TIME_OPSEC_HI =
          (s.get64 R.TIME_OPSEC_LO R.TIME_OPSEC_HI + sleep / uS) % 2 ^ 64 ∧
        s'.get64 R.TIME_RTCSEC_LO R.TIME_RTCSEC_HI =
          (s.get64 R.TIME_RTCSEC_LO R.TIME_RTCSEC_HI + sleep / uS) % 2 ^ 64 ∧
        s.Logs s' [(Ev.WAKE_FROM_RTC, noInst, [.w (sleep / uMs : Nat)])])

/-- The PTP servo: selection, locking, the LAN in use, loss of the master (R48, R49, R50, R51, R53, R254). -/
def Obligations.PtpServo : Prop :=
  ∀ (t : Nat) (s : State), s.works domCLK = true →
    (∀ (port : Fin 4) (a : Announce), (s.advance t).ptpPort port = true → a.domain = s.get F.TIME_PTP_CFG_DOMAIN →
      s.bus.master.get (port % 2) = none → s.get F.TIME_STATUS_STATE = 0 →
      Effect (.ptpAnnounce t port a) s [masterFlag (port % 2), F.TIME_STATUS_STATE, F.TIME_STATUS_TRACEABLE,
        F.PTP_PORT_STAT_ACTIVE_LAN, R.PTP_GM_ID_LO.all, R.PTP_GM_ID_HI.all] [.bus, .clk] fun s' =>
        s'.get F.TIME_STATUS_STATE = 1 ∧ s'.get F.TIME_STATUS_TRACEABLE = 0 ∧
        s'.get F.PTP_PORT_STAT_ACTIVE_LAN = port % 2 ∧ s'.bus.master.get (port % 2) = some a ∧
        s'.get64 R.PTP_GM_ID_LO R.PTP_GM_ID_HI = a.gmId % 2 ^ 64 ∧ s'.clk.off = (s.advance t).clk.off) ∧
    (∀ (port : Fin 4) (origin : Nat) (freq : Int), (s.advance t).ptpPort port = true → (s.bus.master.get (port % 2)).isSome = true →
      s.get F.PTP_PORT_STAT_ACTIVE_LAN = port % 2 →
      let pd := s.get (if port.val % 2 = 0 then F.PTP_PDELAY_A_NS else F.PTP_PDELAY_B_NS)
      let d : Int := (origin : Int) + pd * 8 - (s.advance t).mtUnits
      let bound := boundOf (pushN 16 (d.tdiv 8) s.clk.offsets)
      d.natAbs ≤ 8000 →
      (s.get F.TIME_STATUS_STATE = 2 →
        Effect (.ptpSync t port origin freq) s [F.TIME_OFFSET_OFFSET] [.clk] fun s' =>
          s'.getS F.TIME_OFFSET_OFFSET = satS F.TIME_OFFSET_OFFSET.wd (d.tdiv 8) ∧ s'.clk.slewLeft = d ∧
          s'.clk.off = (s.advance t).clk.off ∧ s'.clk.uncertBase = bound) ∧
      (s.get F.TIME_STATUS_STATE = 1 → 15 ≤ s.clk.inBand →
        Effect (.ptpSync t port origin freq) s
          [F.TIME_OFFSET_OFFSET, F.TIME_STATUS_STATE, F.TIME_STATUS_RTC_DERIVED, F.TIME_STATUS_TRACEABLE, logFld]
          [.clk, .log] fun s' => s'.get F.TIME_STATUS_STATE = 2 ∧ s'.get F.TIME_STATUS_RTC_DERIVED = 0 ∧
          s'.get F.TIME_STATUS_TRACEABLE = b2n s.gmGood ∧ s'.clk.uncertBase = bound ∧
          s.Logs s' [(Ev.PTP_LOCKED, noInst, [])])) ∧
    (∀ (port : Fin 4) rtt resp, (s.advance t).ptpPort port = true →
      let f := if port.val % 2 = 0 then F.PTP_PDELAY_A_NS else F.PTP_PDELAY_B_NS
      Effect (.ptpPdelay t port rtt resp) s [f] [] fun s' =>
        s'.get f = satN (2 ^ f.wd - 1) (roundFree ((rtt - resp : Nat) : Int) 2).toNat) ∧
    (∀ lan : Fin 2, s.get F.PTP_PORT_STAT_ACTIVE_LAN = lan → (s.bus.master.get lan).isSome = true →
      (s.advance t).masterGone lan = true → s.bus.master.get (1 - lan) = none →
      (s.get F.TIME_STATUS_STATE = 2 →
        Effect (.ptpMasterLost t lan) s [masterFlag lan, F.TIME_STATUS_STATE, logFld] [.bus, .clk, .log] fun s' =>
          s'.get F.TIME_STATUS_STATE = 3 ∧ s'.get F.TIME_STATUS_TRACEABLE = s.get F.TIME_STATUS_TRACEABLE ∧
          s'.clk.freqCorr = s.clk.freqLocked ∧ s'.clk.holdAt = max s.now t ∧
          s.Logs s' [(Ev.PTP_HOLDOVER, noInst, [])]) ∧
      (s.get F.TIME_STATUS_STATE = 1 → s.clk.lockFrom ≠ 3 →
        Effect (.ptpMasterLost t lan) s [masterFlag lan, F.TIME_STATUS_STATE] [.bus, .clk] fun s' =>
          s'.get F.TIME_STATUS_STATE = 0 ∧ s'.clk.freqCorr = 0 ∧ s'.clk.slewLeft = 0)) ∧
    (s.works domPBUS = true → s.otherOffers = true → s.get F.TIME_STATUS_STATE = 1 ∨ s.get F.TIME_STATUS_STATE = 2 →
      s.bus.master.get (s.get F.PTP_PORT_STAT_ACTIVE_LAN) = none ∨
        (s.advance t).masterGone (s.get F.PTP_PORT_STAT_ACTIVE_LAN) = true ∨
        (s.advance t).ptpPort (s.get F.PB_CFG_PTP_PAIR * 2 + s.get F.PTP_PORT_STAT_ACTIVE_LAN) = false →
      let other := 1 - s.get F.PTP_PORT_STAT_ACTIVE_LAN
      Effect (.ptpLanSwitch t) s [F.PTP_PORT_STAT_ACTIVE_LAN, F.PTP_PORT_STAT_SWITCHES, logFld] [.log] fun s' =>
        s'.get F.PTP_PORT_STAT_ACTIVE_LAN = other ∧
        s'.get F.PTP_PORT_STAT_SWITCHES = satN (2 ^ F.PTP_PORT_STAT_SWITCHES.wd - 1) (s.get F.PTP_PORT_STAT_SWITCHES + 1) ∧
        s.Logs s' [(Ev.PTP_LAN_SWITCH, noInst, [.w (other : Nat)])])

/-- Enabling, disabling and rediscovering a ring (R88, R91, R93, R98, R10). -/
def Obligations.RingControlWrites : Prop :=
  ∀ (t : Nat) (n : SessIx) (r : RingIx) (s : State), s.isOn domMGMT = true →
    (s.isOn (domRING r) = true →
      (s.allows n (R.RING_CTRL r) 1#32 1#32 = true →
        (s.get (F.RING_CTRL_EN r) = 0 →
          Effect (.ringEnable t n r) s [(R.RING_CTRL r).all, F.RING_STATUS_STATE r, F.RING_STATUS_VER r] [.mgmt, .link]
            fun s' => s'.get (F.RING_CTRL_EN r) = 1 ∧ s'.get (F.RING_STATUS_STATE r) = 1 ∧
              s'.get (F.RING_STATUS_VER r) = 0 ∧ (s'.ring r).discAt = max s.now t ∧ (s'.ring r).mapOk = false ∧
              (s'.ring r).exch = [] ∧ (s'.ring r).exchN = [] ∧ (s'.ring r).cap = [] ∧ (s'.sess n).status = .ok) ∧
        (s.get (F.RING_CTRL_EN r) = 1 →
          Effect (.ringEnable t n r) s [(R.RING_CTRL r).all] [.mgmt] fun s' =>
            s'.word (R.RING_CTRL r) = s.written (R.RING_CTRL r) 1#32 1#32 ∧ (s'.sess n).status = .ok)) ∧
      (s.allows n (R.RING_CTRL r) 0#32 1#32 = true →
        (s.get (F.RING_CTRL_EN r) = 1 →
          Effect (.ringDisable t n r) s
            ([(R.RING_CTRL r).all, F.RING_STATUS_STATE r, F.RING_STATUS_LINK_A r, F.RING_STATUS_LINK_B r,
              F.RING_STATUS_VER r, F.RING_FREEZE_FREEZE, F.RING_LAUNCH_LAUNCH, logFld] ++
              (List.range 129).map (F.RING_HOP_STAT_UP r) ++ goneFlds r) [.mgmt, .cells, .wear, .log] fun s' =>
            s'.get (F.RING_CTRL_EN r) = 0 ∧ s'.get (F.RING_STATUS_STATE r) = 0 ∧ s'.get (F.RING_STATUS_LINK_A r) = 0 ∧
            s'.get (F.RING_STATUS_LINK_B r) = 0 ∧ ringGone s s' t r ∧ (s'.sess n).status = .ok) ∧
        (s.get (F.RING_CTRL_EN r) = 0 →
          Effect (.ringDisable t n r) s [(R.RING_CTRL r).all] [.mgmt] fun s' =>
            s'.get (F.RING_CTRL_EN r) = 0 ∧ (s'.sess n).status = .ok)) ∧
      (s.allows n (R.RING_CTRL r) 4#32 4#32 = true →
        (s.cluActive r = true →
          Effect (.ringRediscover t n r) s [] [.mgmt] fun s' => (s'.sess n).status = .busy) ∧
        (s.cluActive r = false → s.get (F.RING_CTRL_EN r) = 1 →
          Effect (.ringRediscover t n r) s
            ([(R.RING_CTRL r).all, F.RING_STATUS_STATE r, F.RING_STATUS_VER r, F.RING_FREEZE_FREEZE,
              F.RING_LAUNCH_LAUNCH, logFld] ++ goneFlds r) [.mgmt, .link, .cells, .wear, .log] fun s' =>
            s'.get (F.RING_STATUS_STATE r) = 1 ∧ (s'.ring r).discAt = max s.now t ∧
            ringGone s s' t r ∧ (s'.sess n).status = .ok))) ∧
    (s.isOn (domRING r) = false →
      Effect (.ringEnable t n r) s [] [.mgmt] (fun s' => (s'.sess n).status = .domainOff) ∧
      Effect (.ringDisable t n r) s [] [.mgmt] (fun s' => (s'.sess n).status = .domainOff) ∧
      Effect (.ringRediscover t n r) s [] [.mgmt] (fun s' => (s'.sess n).status = .domainOff))

/-- Discovery from block lock to UP (R63, R80, R84, R88, R89, R90, R91, R488). -/
def Obligations.DiscoveryRuns : Prop :=
  ∀ (t : Nat) (r : RingIx) (s : State), s.works (domRING r) = true → s.get (F.RING_CTRL_EN r) = 1 →
    (s.ringState r = 1 ∨ (s.ringState r = 2 ∧ (s.ring r).discA = none ∧ (s.ring r).discB = none) →
      ((s.ring r).discAt + 10 * uMs ≤ max s.now t →
        Effect (.discoveryRetry t r) s [F.RING_STATUS_STATE r, F.RING_STATUS_VER r] [.link] fun s' =>
          s'.ringState r = 1 ∧ (s'.ring r).discAt = max s.now t ∧ (s'.ring r).discA = none ∧ (s'.ring r).discB = none) ∧
      (max s.now t < (s.ring r).discAt + 10 * uMs → Effect (.discoveryRetry t r) s [] [] fun _ => True)) ∧
    (∀ portB v2,
      let link := if portB then F.RING_STATUS_LINK_B r else F.RING_STATUS_LINK_A r
      ((s.advance t).cageOk (2 * r + b2n portB) = true →
        (s.ringState r ∈ [1, 2, 6] →
          Effect (.linkBlockLock t r portB v2) s [link, F.RING_STATUS_STATE r, F.RING_STATUS_VER r] [.link] fun s' =>
            s'.get link = 1 ∧ s'.ringState r = 2 ∧ (s'.ring r).cap.get (b2n portB) = some (max s.now t, v2) ∧
            (s.mergeOk r portB = true → (((s'.ring r).tx.get (b2n portB)).map fun f => (f.frame, f.v1)) =
              some (.discover (s.advance t).mtNs, !v2))) ∧
        (s.ringState r ∉ [1, 2, 6] →
          Effect (.linkBlockLock t r portB v2) s [link] [] fun s' => s'.get link = 1)) ∧
      ((s.advance t).cageOk (2 * r + b2n portB) = false →
        Effect (.linkBlockLock t r portB v2) s [] [] fun _ => True)) ∧
    (∀ portB (f : List Byte), s.ringState r = 2 →
      let b := f.take (8 * leAt f 6 2)
      (byteAt f 0 ≠ 0x78 → Effect (.discoverFrameRx t r portB f) s [] [] fun _ => True) ∧
      (byteAt f 0 = 0x78 → byteAt b 1 = 4 →
        let good := leAt b 30 2 = crc16 (bytesAt b 1 1 ++ bytesAt b 3 27) ∧ portAgrees b portB = true
        let fromA := byteAt b 2 / 16 % 2 = 0
        let got := (byteAt b 2 / 32 % 2 == 1, discRecs b 128 0)
        let cnt := if portB then F.RING_CNT_CRC_B_COUNT r else F.RING_CNT_CRC_A_COUNT r
        (¬good → Effect (.discoverFrameRx t r portB f) s [cnt] [] fun s' => s'.get cnt = s.plus cnt 1) ∧
        (good → s.get (F.RING_STATUS_LINK_A r) = 1 → s.get (F.RING_STATUS_LINK_B r) = 1 →
          (fromA → (s.ring r).discB = none →
            Effect (.discoverFrameRx t r portB f) s [] [.link] fun s' => (s'.ring r).discA = some got) ∧
          (¬fromA → (s.ring r).discA = none →
            Effect (.discoverFrameRx t r portB f) s [] [.link] fun s' => (s'.ring r).discB = some got) ∧
          (∀ turned, ¬fromA → (s.ring r).discA = some (turned, []) → got.2 = [] →
            Effect (.discoverFrameRx t r portB f) s [F.RING_STATUS_STATE r] [.link] fun s' =>
              s'.ringState r = 1 ∧ (s'.ring r).discA = none ∧ (s'.ring r).discB = none) ∧
          (∀ la : List DiscRec, ¬fromA → (s.ring r).discA = some (false, la) → la ≠ [] → la.length ≤ 128 →
            got.1 = false → got.2.map (·.nodeId) = (la.map (·.nodeId)).reverse →
            Answers (.discoverFrameRx t r portB f) s fun s' =>
              s'.get (F.RING_STATUS_NCELLS r) = la.length ∧ (s'.ring r).mapOk = true ∧
              s'.get (F.RING_STATUS_VER r) =
                (if (la.any fun d => !bit d.vers 1) || s.flag (F.RING_CTRL_FORCE_V1 r) then 1 else 2) ∧
              ∀ p d, la[p]? = some d → s.inMap (128 * r + p) = true →
                if (s.advance t).atFreeze then
                  s'.get64 (R.CELL_NODE_ID_LO (128 * r + p)) (R.CELL_NODE_ID_HI (128 * r + p)) = d.nodeId % 2 ^ 64 ∧
                  (s.cellState (128 * r + p) = 0 → s'.cellState (128 * r + p) = 1)
                else CellAsk.happen (.link d) (128 * r + p) ∈ s'.cells.asks)))) ∧
    (s.ringState r = 2 → s.get (F.RING_STATUS_VER r) ≠ 0 → s.downLinks r = [] →
      (∀ h, h ≤ s.nCells r → 64 ≤ (s.ring r).exchN.get h) →
        Effect (.ringUp t r true) s
          [F.RING_STATUS_STATE r, (R.RING_BREAK r).all, F.RING_TPROP_T r, F.RING_TTEL_T r, F.RING_TSCHED_T r,
            F.RING_THALT_T r, F.RING_FREEZE_FREEZE, F.RING_LAUNCH_LAUNCH, F.RING_ADMIT_TEL_T r, F.RING_ADMIT_SCHED_T r,
            logFld] [.link, .log] (fun s' =>
          s'.ringState r = 3 ∧ s'.get (F.RING_TPROP_T r) = s.tProp r % 2 ^ (F.RING_TPROP_T r).wd ∧
          s'.get (F.RING_THALT_T r) = s.tHalt r % 2 ^ (F.RING_THALT_T r).wd ∧
          (s.link.terms = none → (s'.ring r).unfit = false) ∧
          s.Logs s' ((Ev.RING_UP, (r : Nat), [.w (s.nCells r), .w (s.get (F.RING_STATUS_VER r))]) ::
            if 4700 * 64 < s'.get (F.RING_THALT_T r) then [(Ev.HALT_BUDGET, (r : Nat), [])] else [])) ∧
        Effect (.ringUp t r false) s [] [] fun _ => True)

/-- Links lost and healed, and the state of the ring (R92, R93, R94, R98). -/
def Obligations.LinksBreakAndHeal : Prop :=
  ∀ (t : Nat) (r : RingIx) (h : Fin 129) (s : State), s.works (domRING r) = true →
    (∀ (lost : Bool) (silent : Nat), s.ringRuns r = true → h ≤ s.nCells r → s.get (F.RING_HOP_STAT_UP r h) = 1 →
      (lost = true ∨ 1000 ≤ silent →
        Effect (.linkDown t r h lost silent) s
          [F.RING_HOP_STAT_UP r h, F.RING_CNT_BREAK_COUNT r, F.RING_STATUS_LINK_A r, F.RING_STATUS_LINK_B r,
            F.RING_STATUS_STATE r, (R.RING_BREAK r).all, F.RING_FREEZE_FREEZE, F.RING_LAUNCH_LAUNCH, logFld]
          [.link, .log] fun s' =>
          s'.get (F.RING_HOP_STAT_UP r h) = 0 ∧ s'.get (F.RING_CNT_BREAK_COUNT r) = s.plus (F.RING_CNT_BREAK_COUNT r) 1 ∧
          s'.ringState r = ringCond (s'.downLinks r) ∧ (s'.ring r).exchN.get h = 0 ∧
          (s.ringState r = 3 → s.downLinks r = [] →
            s'.ringState r = 4 ∧ s'.get (F.RING_BREAK_BRK1_VALID r) = 1 ∧
            s'.get (F.RING_BREAK_BRK1_POS r) = (if (h : Nat) = 0 then 0xFF else (h : Nat) - 1) ∧
            s.Logs s' [(Ev.RING_BREAK, (r : Nat), [.w (if (h : Nat) = 0 then (0xFF : Nat) else (h : Nat) - 1 : Nat)])])) ∧
      (lost = false → silent < 1000 → Effect (.linkDown t r h lost silent) s [] [] fun _ => True)) ∧
    (∀ silent, s.ringRuns r = false → h ≤ s.nCells r →
      Effect (.linkDown t r h true silent) s
        [F.RING_HOP_STAT_UP r h, F.RING_STATUS_LINK_A r, F.RING_STATUS_LINK_B r, F.RING_STATUS_STATE r] [.link] fun s' =>
        s'.get (F.RING_HOP_STAT_UP r h) = 0 ∧ (s'.ring r).exchN.get h = 0 ∧
        ((h : Nat) = 0 → s'.get (F.RING_STATUS_LINK_A r) = 0) ∧
        ((h : Nat) = s.nCells r → s'.get (F.RING_STATUS_LINK_B r) = 0)) ∧
    (∀ errors,
      let old := (s.ring r).errRun.get h
      let fresh := old.1 + uS ≤ max s.now t ∨ old.2 = 0
      let total := (if fresh then 0 else old.2) + errors
      Effect (.linkDegraded t r h errors) s [F.RING_HOP_STAT_ERRORS r h, logFld] [.link, .log] fun s' =>
        s'.get (F.RING_HOP_STAT_ERRORS r h) = s.plus (F.RING_HOP_STAT_ERRORS r h) errors ∧
        s.Logs s' (if 16 < total ∧ (fresh ∨ old.2 ≤ 16) then [(Ev.LINK_DEGRADED, (r : Nat), [.w (h : Nat)])] else [])) ∧
    (s.ringRuns r = true → s.clk.suspendAt = none →
      (∀ f, (s.ring r).frameAt = some f → f + 2 * s.periodU ≤ max s.now t →
        Effect (.ringLost t r) s
          ([F.RING_STATUS_STATE r, F.RING_FREEZE_FREEZE, F.RING_LAUNCH_LAUNCH, logFld] ++ goneFlds r)
          [.link, .cells, .wear, .log] fun s' =>
          s'.ringState r = 6 ∧ ringGone s s' t r) ∧
      (∀ f, (s.ring r).frameAt = some f → max s.now t < f + 2 * s.periodU →
        Effect (.ringLost t r) s [] [] fun _ => True)) ∧
    (∀ m, s.ringState r = 4 ∨ s.ringState r = 5 → s.get (F.RING_HOP_STAT_UP r h) = 0 → h ≤ s.nCells r →
      64 ≤ (s.ring r).exchN.get h →
      (m * s.periodU ≤ (s.advance t).mtUnits → s.get (F.RING_CTRL_HEAL_EN r) = 1 →
        Effect (.ringHealed t r h m) s
          [F.RING_HOP_STAT_UP r h, F.RING_STATUS_LINK_A r, F.RING_STATUS_LINK_B r, F.RING_STATUS_STATE r,
            (R.RING_BREAK r).all, F.RING_FREEZE_FREEZE, F.RING_LAUNCH_LAUNCH, logFld] [.link, .log] fun s' =>
          s'.get (F.RING_HOP_STAT_UP r h) = 1 ∧ s'.ringState r = ringCond (s'.downLinks r) ∧
          (s'.ring r).healAt.get h = some m ∧
          (s.downLinks r = [(h : Nat)] → s'.ringState r = 3 ∧ s'.get (F.RING_BREAK_BRK1_VALID r) = 0 ∧
            s.Logs s' [(Ev.RING_HEALED, (r : Nat), [])])) ∧
      ((s.advance t).mtUnits < m * s.periodU ∨ s.get (F.RING_CTRL_HEAL_EN r) = 0 →
        Effect (.ringHealed t r h m) s [] [] fun _ => True))

/-- Telemetry frames, halt repeats, delay exchanges and alignment faults (R23, R63, R65, R66, R68, R73, R78, R79, R83, R84, R87). -/
def Obligations.FramesAndDelayExchanges : Prop :=
  ∀ (t : Nat) (r : RingIx) (s : State), s.works (domRING r) = true →
    (∀ portB (f : List Byte), s.ringRuns r = true → s.clk.suspendAt = none →
      let a := s.advance t
      let v1 := s.ringV1 r
      let b := f.take (8 * leAt f 6 2)
      let k := leAt b 16 4
      let cnt := if portB then F.RING_CNT_CRC_B_COUNT r else F.RING_CNT_CRC_A_COUNT r
      let good := leAt b 24 2 = hcrcOf b 23 ∧ portAgrees b portB = true
      let n := if v1 then 46 else 62
      (byteAt f 0 ≠ 0x78 → ∀ aborted, Effect (.telemetryFrameRx t r portB aborted f) s [] [] fun _ => True) ∧
      (byteAt f 0 = 0x78 →
        Effect (.telemetryFrameRx t r portB true f) s [F.RING_CNT_ABORT_COUNT r] [] (fun s' =>
          s'.get (F.RING_CNT_ABORT_COUNT r) = s.plus (F.RING_CNT_ABORT_COUNT r) 1) ∧
        (byteAt b 1 = 1 → ¬good →
          Effect (.telemetryFrameRx t r portB false f) s [cnt] [] fun s' => s'.get cnt = s.plus cnt 1) ∧
        (byteAt b 1 = 1 → good →
          Effect (.telemetryFrameRx t r portB false f) s [F.RING_CNT_LATE_COUNT r, F.RING_CNT_MISMATCH_COUNT r] [.link]
            fun s' =>
            (s'.ring r).frameAt = some (max s.now t) ∧ (s'.ring r).tlm = b ∧
            (∀ p, p < min (leAt b 4 2) 128 →
              (s'.ring r).copies.get p = (s.ring r).copies.get p ++ (match a.rxCycle k with
                | some c => if slotOk v1 b p k = true ∧ c.skip = false ∧
                    a.mtUnits + (slotAt v1 a.now p - a.now) ≤ c.at_ + s.get F.RING_FREEZE_FREEZE * uClk then
                    [{ cycle := c.k, at_ := slotAt v1 a.now p, portB := portB, bytes := slotOf v1 b p }] else []
                | none => [])) ∧
            (leAt b n 2 = crc16 (bytesAt b 32 (n - 32)) → leAt b 32 2 ≠ 0xFFFF →
              ((s'.ring r).rep.map fun x => (x.src, x.seq, x.status)) =
                some (leAt b 32 2, byteAt b 34, byteAt b 35 / 64))))) ∧
    (∀ at_ left, (s.ring r).haltNext = some (at_, left) → at_ ≤ max s.now t →
      Effect (.haltRepeat t r) s [F.RING_HALT_STAT_HALT_ACTIVE r] [.link] fun s' =>
        (∀ portB, s.mergeOk r portB = true → (((s'.ring r).tx.get (b2n portB)).map (·.frame)) =
          some (.halt (s.get (F.RING_HALT_STAT_HALT_SEQ r)) (s.ring r).tripAt (s.get (F.RING_HALT_STAT_SRC_CH r))
            (s.get (F.RING_HALT_STAT_SRC_CLASS r)))) ∧
        (1 < left → (s'.ring r).haltNext = some (at_ + uUs, left - 1) ∧
          s'.get (F.RING_HALT_STAT_HALT_ACTIVE r) = s.get (F.RING_HALT_STAT_HALT_ACTIVE r)) ∧
        (left ≤ 1 → (s'.ring r).haltNext = none ∧ (s'.ring r).hdrSeq = s.get (F.RING_HALT_STAT_HALT_SEQ r) ∧
          s'.get (F.RING_HALT_STAT_HALT_ACTIVE r) =
            (if (s.ring r).release = true ∧ (s.ring r).sources = [] then 0 else 1))) ∧
    (∀ portB turn, Effect (.dlyReqRx t r portB turn) s [] [.link] fun s' =>
      (s'.ring r).rsp.get (b2n portB) = some (max s.now t, turn)) ∧
    (∀ portB,
      ((s.ring r).reqAt.get (b2n portB) = none → Effect (.dlyReqSend t r portB) s [] [.link] fun s' =>
        (s'.ring r).reqAt.get (b2n portB) = some (max s.now t)) ∧
      (∀ x, (s.ring r).reqAt.get (b2n portB) = some x → Effect (.dlyReqSend t r portB) s [] [.link] fun s' =>
        (s'.ring r).reqAt.get (b2n portB) = some (if x + 10 * uUs ≤ max s.now t then max s.now t else x))) ∧
    (∀ (h : Fin 129) rtt turn,
      let l := ((rtt - turn) :: (s.ring r).exch.get h).take 64
      let avg := (roundDiv ((l.foldl (· + ·) 0 * 4 : Nat) : Int) (l.length : Int)).toNat
      Effect (.dlyRspRx t r h rtt turn) s
        [F.RING_HOP_DLY_DELAY r h, F.RING_HOP_STAT_STEP r h, F.RING_TPROP_T r, F.RING_TTEL_T r, F.RING_TSCHED_T r,
          F.RING_THALT_T r, F.RING_FREEZE_FREEZE, F.RING_LAUNCH_LAUNCH, logFld] [.link, .log] fun s' =>
        (s'.ring r).exch.get h = l ∧ s'.get (F.RING_HOP_DLY_DELAY r h) = avg % 2 ^ (F.RING_HOP_DLY_DELAY r h).wd ∧
        s'.get (F.RING_TPROP_T r) = s'.tProp r % 2 ^ (F.RING_TPROP_T r).wd ∧
        s'.get (F.RING_THALT_T r) = s'.tHalt r % 2 ^ (F.RING_THALT_T r).wd) ∧
    (s.works domVOTE = true → ∀ k : CellIx,
      (16 ≤ (s.cell k).alignBad → Effect (.alignFault t k) s [logFld] [.cells, .log] fun s' =>
        (s'.cell k).alignBad = 0 ∧ s.Logs s' [(Ev.ALIGN_FAULT, (k : Nat), [.w (k : Nat)])]) ∧
      ((s.cell k).alignBad < 16 → Effect (.alignFault t k) s [] [] fun _ => True))

/-- Replies of the ring mailbox and the mailbox lease (R81, R82, R184, R291, R292). -/
def Obligations.MailboxRepliesAndLeases : Prop :=
  ∀ (t : Nat) (r : RingIx) (s : State), s.works domVOTE = true →
    ((s.advance t).atFreeze = false → Effect (.mbxReply t r) s [] [] fun _ => True) ∧
    (∀ (a : MbxRep), (s.advance t).atFreeze = true → (s.ring r).rep = some a →
      (∀ (o : MbxOut), (s.ring r).out = some o → o.sent = true → o.seq = a.seq → o.req.dst = a.src → a.src < 128 →
        (a.status = 1 → Effect (.mbxReply t r) s [F.RING_MBX_STAT_LAST_STATUS r] [.link] fun s' =>
          s'.get (F.RING_MBX_STAT_LAST_STATUS r) = 1 ∧
          (s'.ring r).out =
            some (if o.busy < 4 then { o with busy := o.busy + 1, due := (s.advance t).mtUnits + uMs } else o)) ∧
        (a.status = 0 → o.req.purpose = .param →
          Effect (.mbxReply t r) s [(R.RING_MBX_STAT r).all, F.MPPT_CELL_REF_VREF (128 * r + a.src)] [.link, .cells] fun s' =>
            (s'.cell (128 * r + a.src)).paramPend = (s.cell (128 * r + a.src)).paramPend - 1 ∧
            s'.get (F.MPPT_CELL_REF_VREF (128 * r + a.src)) =
              (if leAt o.req.data 0 2 = 0x0200 then leAt o.req.data 2 2 else s.get (F.MPPT_CELL_REF_VREF (128 * r + a.src))) ∧
            s'.get (F.RING_MBX_STAT_LAST_STATUS r) = 0 ∧ s'.get (F.RING_MBX_STAT_LAST_TIMEOUT r) = 0 ∧
            (nextReq (s.ring r).queue = none → (s'.ring r).out = none ∧ s'.get (F.RING_MBX_STAT_BUSY r) = 0) ∧
            (∀ q, nextReq (s.ring r).queue = some q →
              ((s'.ring r).out.map fun x => (x.req, x.seq, x.sent)) =
                some (q, (s.get (F.RING_MBX_STAT_SEQ r) + 1) % 256, false) ∧
              s'.get (F.RING_MBX_STAT_BUSY r) = 1 ∧ (s'.ring r).queue = (s.ring r).queue.erase q))) ∧
      ((s.ring r).out = none → a.seq ∈ (s.ring r).gone →
        Effect (.mbxReply t r) s [F.VOTE_LEASE_CNT_LATE] [.link] fun s' =>
          s'.get F.VOTE_LEASE_CNT_LATE = s.plus F.VOTE_LEASE_CNT_LATE 1 ∧ (s'.ring r).rep = none ∧
          (s'.ring r).gone = (s.ring r).gone.erase a.seq)) ∧
    (∀ (o : MbxOut), (s.ring r).out = some o → o.sent = true → o.req.dst ≠ 0xFFFE →
      (o.due ≤ (s.advance t).mtUnits → o.req.purpose ∈ [.ident 0, .ident 1, .dispRead] → nextReq (s.ring r).queue = none →
        Effect (.mbxLeaseExpired t r) s
          [(R.RING_MBX_STAT r).all, F.RING_CNT_MBX_TO_COUNT r, F.VOTE_LEASE_CNT_MBX, logFld] [.link, .log] fun s' =>
          (s'.ring r).out = none ∧ o.seq ∈ (s'.ring r).gone ∧ s'.get (F.RING_MBX_STAT_BUSY r) = 0 ∧
          s'.get (F.RING_MBX_STAT_LAST_TIMEOUT r) = 1 ∧
          s'.get (F.RING_CNT_MBX_TO_COUNT r) = s.plus (F.RING_CNT_MBX_TO_COUNT r) 1 ∧
          s'.get F.VOTE_LEASE_CNT_MBX = s.plus F.VOTE_LEASE_CNT_MBX 1 ∧
          s.Logs s' [(Ev.MBX_TIMEOUT, (r : Nat), []), (Ev.LEASE_EXPIRED, noInst, natData [2, o.req.owner, (r : Nat)])]) ∧
      ((s.advance t).mtUnits < o.due → Effect (.mbxLeaseExpired t r) s [] [] fun _ => True))

/-- Cycle start, input freeze and schedule launch (R21, R22, R23, R24, R69, R73, R75, R288, R514). -/
def Obligations.ControlCycleInstants : Prop :=
  ∀ (t : Nat) (s : State),
    let a := s.advance t
    (s.works domCLK = true →
      (a.cycleNow = s.link.lastBegun → s.link.begun = true → Effect (.cycleStart t) s [] [] fun _ => True) ∧
      (a.cycleNow ≠ s.link.lastBegun ∨ s.link.begun = false → s.start.ready = false →
        Effect (.cycleStart t) s [] [.link] fun s' =>
          s'.link.begun = true ∧ s'.link.lastBegun = a.cycleNow ∧
          (s.link.later = [] → s.link.begun = false ∨ s.link.frozen = true ∨ a.tFreeze < a.mtUnits →
            s'.link.cycle = a.cycleNow ∧ s'.link.frozen = false ∧ s'.link.skip = s.clk.suspendAt.isSome) ∧
          (s.link.begun = true → s.link.frozen = false → a.mtUnits ≤ a.tFreeze →
            s'.link.cycle = s.link.cycle ∧ s'.link.frozen = false) ∧
          (s.clk.suspendAt = none → ∀ (r : RingIx) portB, s.ringRuns r = true → s.works (domRING r) = true →
            s.mergeOk r portB = true → (((s'.ring r).tx.get (b2n portB)).map (·.frame)) =
              some (.telemetry (a.cycleNow * s.periodU / 8) (a.cycleNow % 2 ^ 32) (min 128 (s.nCells r)))))) ∧
    (s.works domVOTE = true → ∀ rep,
      (a.nextInput = none ∨ (∃ b, a.nextInput = some b ∧ b.mtUnits < b.tFreeze) →
        Effect (.inputFreeze t rep) s [] [] fun _ => True) ∧
      (∀ b, a.nextInput = some b → b.tFreeze ≤ b.mtUnits →
        Answers (.inputFreeze t rep) s fun s' =>
          s'.link.frozen = true ∧ s'.link.frozenAt = some (max s.now t) ∧ s'.link.cycle = b.link.cycle) ∧
      (s.link.begun = true → s.link.frozen = false → s.link.skip = false → a.tFreeze ≤ a.mtUnits →
        s.cells.asks = [] → s.lanesRun = false → s.works domANA = false → s.works domDRAM = false →
        (∀ k < 16, s.get (F.POUR_SLOT_STAT_STATE k) < 3) → (∀ k < 1024, s.marked k = false) →
        Answers (.inputFreeze t rep) s fun s' => ∀ (r : RingIx) (p : Nat) (c : SlotCopy),
          s.ringRuns r = true → s.works (domRING r) = true → p < min 128 (s.nCells r) →
          pickCopy (((s.ring r).copies.get p).filter fun c => c.cycle == s.link.cycle) = some c →
          s'.get (F.CELL_TLM_AGE_AGE (128 * r + p)) = 0 ∧ s'.get (F.CELL_STALE_RUN (128 * r + p)) = 0 ∧
          ∀ w < 8, s'.word (R.CELL_TLM (128 * r + p) w) = BitVec.ofNat 32 (leAt c.bytes (4 * w) 4))) ∧
    (s.works domVOTE = true → ∀ tK, a.launchK = some tK →
      (s.link.lastLaunch = some tK ∨ s.clk.suspendAt.isSome = true ∨ s.lanesRun = false ∨ s.link.begun = false ∨
          a.launchPass tK = none →
        Effect (.scheduleLaunch t) s [] [] fun _ => True) ∧
      (∀ p ix, s.clk.suspendAt = none → s.lanesRun = true → s.link.begun = true → s.link.lastLaunch ≠ some tK →
        a.launchPass tK = some (p, ix) →
        Effect (.scheduleLaunch t) s ((List.range 8).map fun r => (R.RING_MBX_STAT r).all) [.link, .cells, .safe, .mppt]
          fun s' =>
          s'.link.lastLaunch = some tK ∧
          ∀ r < 8, s.ringRuns r = true → s.works (domRING r) = true →
            s.portLaunches r false = true ∨ s.portLaunches r true = true →
            ((s'.ring r).sched.map (·.1)) = some (a.schedFrame r p.k (tK + s.link.d * s.periodU) ix)))

/-- What refuses a CELL_CMD write (R105, R111, R114, R115, R10). -/
def Obligations.CellCommandsJudged : Prop :=
  ∀ (t : Nat) (n : SessIx) (k : CellIx) (e : Nat) (s : State), s.isOn domMGMT = true →
    ∀ p ∈ cellCommands t n k e,
      let st := s.cellState k
      (s.isOn domVOTE = false → Effect p.2 s [] [.mgmt] fun s' => (s'.sess n).status = .domainOff) ∧
      (s.isOn domVOTE = true → (s.advance t).atFreeze = false → Effect p.2 s [] [.mgmt, .cells] fun s' =>
        CellAsk.access n (0x200004 + 256 * k) (cellCmdWord p.1 e) (BitVec.allOnes 32) default ∈ s'.cells.asks) ∧
      (s.isOn domVOTE = true → (s.advance t).atFreeze = true →
        s.judgeWord n (R.CELL_CMD k) (cellCmdWord p.1 e) (BitVec.allOnes 32) = .ok →
        (p.1 = 5 → s.needLevel n 2 = .accessDenied → e % 16 = 7 → st = 7 → s.seqBusy k = false →
          Effect p.2 s [] [.mgmt] fun s' => (s'.sess n).status = .accessDenied) ∧
        (p.1 ≠ 5 ∨ s.needLevel n 2 = .ok →
          (10 ≤ e % 16 → Effect p.2 s [] [.mgmt] fun s' => (s'.sess n).status = .badValue) ∧
          (e % 16 < 10 → e % 16 ≠ st ∨ cmdAllowed p.1 st = false →
            Effect p.2 s [logFld] [.mgmt, .log] fun s' => (s'.sess n).status = .stateMismatch ∧
              s.Logs s' [(Ev.CELL_STATE_MISMATCH, (k : Nat), [.w (n : Nat), .w (e % 16 : Nat), .w st])]) ∧
          (e % 16 < 10 → e % 16 = st → cmdAllowed p.1 st = true →
            (s.seqBusy k = true → Effect p.2 s [] [.mgmt] fun s' => (s'.sess n).status = .busy) ∧
            (p.1 = 1 → s.cluActive (ringOf k) = true → Effect p.2 s [] [.mgmt] fun s' => (s'.sess n).status = .busy) ∧
            (s.seqBusy k = false → p.1 = 2 ∨ p.1 = 4 → s.cluActive (ringOf k) = true → s.marginIf k < 0 →
              Effect p.2 s [logFld] [.mgmt, .log] fun s' => (s'.sess n).status = .badValue ∧
                s.Logs s' [(Ev.CELL_BYPASS_REFUSED, (k : Nat), [.w (s.marginIf k)])]) ∧
            (s.seqBusy k = false → (p.1 = 3 ∧ s.returnOk k = false) ∨ (p.1 = 8 ∧ s.statusBit k 13 = true) →
              Effect p.2 s [] [.mgmt] fun s' => (s'.sess n).status = .badValue))))

/-- What an accepted CELL_CMD write does (R100, R102, R112, R113, R114, R115). -/
def Obligations.CellCommandsAct : Prop :=
  ∀ (t : Nat) (n : SessIx) (k : CellIx) (e : Nat) (s : State), s.isOn domMGMT = true → s.isOn domVOTE = true →
    (s.advance t).atFreeze = true →
    let ok (cmd : Nat) : Prop :=
      s.judgeWord n (R.CELL_CMD k) (cellCmdWord cmd e) (BitVec.allOnes 32) = .ok ∧ s.cmdRefuse n k cmd (e % 16) = .ok
    let now := max s.now t
    let cmd := (R.CELL_CMD k).all
    let node := [(R.RING_MBX_STAT (ringOf k)).all, F.CELL_STATE_DISP_PEND k]
    let st := [F.CELL_STATE_STATE k, F.CELL_STATE_PREV k, F.CELL_STATE_REASON k, logFld]
    let went (s' : State) (dest : Nat) : Prop :=
      s'.cellState k = dest ∧ s'.get (F.CELL_STATE_PREV k) = s.cellState k ∧ s'.get (F.CELL_STATE_REASON k) = 0x13 ∧
      s.Logs s' [(Ev.CELL_STATE, (k : Nat), [.w (k : Nat), .w (s.cellState k), .w dest, .w (0x13 : Nat)])]
    let busyOf := (s.phaseCells (ringOf k) (s.phaseOf k)).map F.CELL_STATE_SEQ_BUSY
    let falls (s' : State) (goal : Nat) : Prop := if s.get F.CELL_CTRL_RAMP = 0 then
      (s'.cell k).share = .zero ∧ (s'.cell k).seq = .bypZero goal 0x13 now
      else (s'.cell k).share = .fall now ∧ (s'.cell k).seq = .bypRamp goal 0x13
    (ok 0 → Effect (.cellCmdNone t n k e) s [cmd] [.mgmt] fun s' => (s'.sess n).status = .ok) ∧
    (ok 1 → Effect (.cellDiagnose t n k e) s [cmd, (R.RING_MBX_STAT (ringOf k)).all, F.CELL_STATE_SEQ_BUSY k]
      [.mgmt, .cells, .link] fun s' =>
      (s'.sess n).status = .ok ∧ s'.seqBusy k = true ∧ (s'.cell k).mode = 2 ∧ (s'.cell k).byp = 0xC3 ∧
      (s'.cell k).closed = false ∧ (s'.cell k).seq = .diagAsk true) ∧
    (ok 2 →
      (s.cellState k = 5 → Effect (.cellBypass t n k e) s [cmd, F.CELL_STATE_SEQ_BUSY k] [.mgmt, .cells] fun s' =>
        (s'.sess n).status = .ok ∧ s'.seqBusy k = true ∧ falls s' 6) ∧
      (s.cellState k = 4 → Effect (.cellBypass t n k e) s [cmd, F.CELL_STATE_SEQ_BUSY k] [.mgmt, .cells] fun s' =>
        (s'.sess n).status = .ok ∧ s'.seqBusy k = true ∧ (s'.cell k).share = .zero ∧ (s'.cell k).byp = 0x3C ∧
        (s'.cell k).closed = true ∧ (s'.cell k).seq = .bypClose 6 0x13 ∧
        (s'.cell k).bypDue = some (now + s.get F.CELL_CTRL_BYP_TO * uMs))) ∧
    (ok 3 → Effect (.cellReturn t n k e) s [cmd, F.CELL_STATE_SEQ_BUSY k] [.mgmt, .cells] fun s' =>
      (s'.sess n).status = .ok ∧ s'.seqBusy k = true ∧
      (s.cluRunning (ringOf k) = true → (s'.cell k).mode = 1 ∧ (s'.cell k).share = .zero ∧ (s'.cell k).seq = .retZero 0x13 now) ∧
      (s.cluRunning (ringOf k) = false → (s'.cell k).mode = 0 ∧ (s'.cell k).byp = 0xC3 ∧ (s'.cell k).closed = false ∧
        (s'.cell k).seq = .retOpen 0x13)) ∧
    (ok 4 →
      (s.cellState k = 6 ∨ s.cellState k = 8 →
        Effect (.cellRetire t n k e) s (cmd :: F.WEAR_CELL_STAT_REC_PEND k :: node ++ st) [.mgmt, .cells, .link, .wear, .log]
          fun s' => (s'.sess n).status = .ok ∧ went s' 7 ∧ s'.get (F.CELL_STATE_DISP_PEND k) = 1) ∧
      (s.cellState k = 5 → Effect (.cellRetire t n k e) s [cmd, F.CELL_STATE_SEQ_BUSY k] [.mgmt, .cells] fun s' =>
        (s'.sess n).status = .ok ∧ s'.seqBusy k = true ∧ falls s' 7)) ∧
    (ok 5 → Effect (.cellUnretire t n k e) s (cmd :: node ++ st) [.mgmt, .cells, .link, .wear, .log] fun s' =>
      (s'.sess n).status = .ok ∧ went s' 2 ∧ (s'.cell k).disp = some 0 ∧
      ((s.cell k).paramAsked = false → s.holdsParams (ringOf k) = false →
        (s'.cell k).paramAsked = true ∧ (s'.cell k).paramPend = (s.nodeParams k).length)) ∧
    (ok 6 → Effect (.cellClearFault t n k e) s (cmd :: F.PWM_CELL_TRIP_WIN k :: st) [.mgmt, .cells, .log] fun s' =>
      (s'.sess n).status = .ok ∧ went s' 2 ∧ s'.get (F.PWM_CELL_TRIP_WIN k) = 0 ∧ (s'.cell k).seq = .none) ∧
    (ok 7 → s.get (F.CELL_STATE_NO_BYPASS k) = 0 ∨ s.cluRunning (ringOf k) = false →
      Effect (.cellLockout t n k e) s
        (cmd :: F.CELL_STATE_SEQ_BUSY k :: F.WEAR_CELL_STAT_REC_PEND k :: busyOf ++ node ++ st)
        [.mgmt, .cells, .link, .wear, .log] fun s' =>
        (s'.sess n).status = .ok ∧ s'.cellState k = 9 ∧ s'.get (F.CELL_STATE_REASON k) = 0x13 ∧
        (s.cellState k ≠ 9 → went s' 9) ∧ (s'.cell k).byp = 0x3C ∧ (s'.cell k).closed = true ∧ (s'.cell k).mode = 0 ∧
        (s'.cell k).seq = .fault) ∧
    (ok 8 → Effect (.cellRelease t n k e) s (cmd :: node ++ st) [.mgmt, .cells, .link, .log] fun s' =>
      (s'.sess n).status = .ok ∧ went s' 1 ∧ (s'.cell k).block = false ∧ (s'.cell k).disp = none ∧
      (s'.cell k).ident0 = false ∧ (s'.cell k).ident1 = false ∧ (s'.cell k).paramAsked = false)

/-- The timers of diagnosis, bypass and return (R99, R100, R101, R112, R113, R114). -/
def Obligations.CellSequenceTimers : Prop :=
  ∀ (t : Nat) (k : CellIx) (s : State), s.works domVOTE = true →
    let now := max s.now t
    let x := s.cell k
    let st := [F.CELL_STATE_STATE k, F.CELL_STATE_PREV k, F.CELL_STATE_REASON k, logFld]
    let busy := F.CELL_STATE_SEQ_BUSY k
    ((s.advance t).atFreeze = false → ∀ p ∈ cellHappenings t k,
      Effect p.1 s [] [.cells] fun s' => CellAsk.happen p.2 k ∈ s'.cells.asks) ∧
    ((s.advance t).atFreeze = true →
    (∀ d, x.diagDue = some d → s.cellState k = 3 →
      (d ≤ now → x.diagFail = 0 →
        Effect (.cellDiagTimeout t k) s (busy :: F.CELL_DIAG_ATTEMPTS k :: F.CELL_FAULTS_DIAG k :: st) [.cells, .log] fun s' =>
          s'.cellState k = 2 ∧ s'.get (F.CELL_STATE_REASON k) = 0x0A ∧ s'.get (F.CELL_FAULTS_DIAG k) = 1 ∧
          (s'.cell k).diagRetry = some (now + uS) ∧
          s.Logs s' [(Ev.CELL_DIAG_FAIL, (k : Nat), [.w x.diag]),
            (Ev.CELL_STATE, (k : Nat), [.w (k : Nat), .w (3 : Nat), .w (2 : Nat), .w (0x0A : Nat)])]) ∧
      (d ≤ now → x.diagFail ≠ 0 → Answers (.cellDiagTimeout t k) s fun s' =>
        s'.cellState k = 8 ∧ s'.get (F.CELL_STATE_REASON k) = 0x0A ∧ (s'.cell k).seq = .fault) ∧
      (now < d → Effect (.cellDiagTimeout t k) s [] [] fun _ => True)) ∧
    (∀ (c : Instr) d, s.cellState k = 2 →
      (c = .cellDiagRetry t k ∧ x.diagRetry = some d ∧ x.lowAt = none) ∨
        (c = .cellLowVdcRecheck t k ∧ x.lowAt = some d ∧ x.diagRetry = none) →
      (d ≤ now → x.seq = .none → x.paramAsked = true → x.paramPend = 0 → x.disp.getD 0 = 0 →
        s.cluActive (ringOf k) = false →
        (s.vdc k < 2000 → Effect c s [F.CELL_STATE_REASON k] [.cells] fun s' =>
          s'.get (F.CELL_STATE_REASON k) = 0x06 ∧ (s'.cell k).lowAt = some (now + uS)) ∧
        (2000 ≤ s.vdc k → Effect c s [busy, (R.RING_MBX_STAT (ringOf k)).all] [.cells, .link] fun s' =>
          s'.seqBusy k = true ∧ (s'.cell k).mode = 2 ∧ (s'.cell k).byp = 0xC3 ∧ (s'.cell k).seq = .diagAsk false)) ∧
      (d ≤ now → s.cluActive (ringOf k) = true → Effect c s [] [.cells] fun s' =>
        (s'.cell k).diagRetry = none ∧ (s'.cell k).lowAt = none ∧ (s'.cell k).seq = x.seq) ∧
      (now < d → Effect c s [] [] fun _ => True)) ∧
    (∀ g rs f, x.seq = .bypRamp g rs → x.share = .fall f →
      (f + s.get F.CELL_CTRL_RAMP * uMs ≤ now → Effect (.cellRampEnd t k) s [] [.cells] fun s' =>
        (s'.cell k).share = .zero ∧ (s'.cell k).seq = .bypZero g rs now) ∧
      (now < f + s.get F.CELL_CTRL_RAMP * uMs → Effect (.cellRampEnd t k) s [] [] fun _ => True)) ∧
    (∀ g rs d, x.seq = .bypClose g rs → x.bypDue = some d →
      (d ≤ now → Effect (.cellBypassTimeout t k) s [busy, F.CELL_STATE_NO_BYPASS k, logFld] [.cells, .log] fun s' =>
        s'.seqBusy k = false ∧ s'.get (F.CELL_STATE_NO_BYPASS k) = 1 ∧ (s'.cell k).byp = 0 ∧ (s'.cell k).seq = .none ∧
        (s.cellState k = 5 → (s'.cell k).share = .rise now) ∧
        s.Logs s' [(Ev.CELL_BYPASS_TIMEOUT, (k : Nat), [])]) ∧
      (now < d → Effect (.cellBypassTimeout t k) s [] [] fun _ => True)) ∧
    (∀ d, x.seq = .fault → x.bypDue = some d →
      (d ≤ now → s.cluRunning (ringOf k) = false →
        Effect (.faultBypassTimeout t k) s
          (busy :: F.CELL_FAULTS_BYP_FAULT k :: F.CELL_STATE_DISP_PEND k ::
            (R.RING_MBX_STAT (ringOf k)).all :: F.WEAR_CELL_STAT_REC_PEND k :: st) [.cells, .link, .wear, .log] fun s' =>
          s'.cellState k = 9 ∧ s'.get (F.CELL_STATE_REASON k) = 0x0F ∧ s'.get (F.CELL_FAULTS_BYP_FAULT k) = 1 ∧
          s'.bypBlock (ringOf k) = true) ∧
      (now < d → Effect (.faultBypassTimeout t k) s [] [] fun _ => True)) ∧
    (∀ rs f, x.seq = .retZero rs f →
      let inForce := f + s.link.d * s.periodU + s.carP (ringOf k)
      (inForce ≤ now → Effect (.cellReturnOpen t k) s [] [.cells] fun s' =>
        (s'.cell k).seq = .retOpen rs ∧ (s'.cell k).byp = 0xC3 ∧ (s'.cell k).closed = false ∧
        (s'.cell k).bypDue = some (now + s.get F.CELL_CTRL_BYP_TO * uMs)) ∧
      (now < inForce → Effect (.cellReturnOpen t k) s [] [] fun _ => True)) ∧
    (∀ rs d, x.seq = .retOpen rs → x.bypDue = some d →
      (d ≤ now → Effect (.cellReturnTimeout t k) s [busy, logFld] [.cells, .log] fun s' =>
        s'.seqBusy k = false ∧ s'.cellState k = s.cellState k ∧ (s'.cell k).seq = .none ∧ (s'.cell k).mode = 0 ∧
        s.Logs s' [(Ev.CELL_BYPASS_TIMEOUT, (k : Nat), [])]) ∧
      (now < d → Effect (.cellReturnTimeout t k) s [] [] fun _ => True)))

/-- Unreachable, stale, tripping and overheated cells, and the telemetry snapshot (R106, R107, R108, R111, R114, R132, R469). -/
def Obligations.CellFaultsAndTelemetry : Prop :=
  ∀ (t : Nat) (k : CellIx) (s : State), s.works domVOTE = true →
    let now := max s.now t
    let x := s.cell k
    let st := [F.CELL_STATE_STATE k, F.CELL_STATE_PREV k, F.CELL_STATE_REASON k, logFld]
    let busy := F.CELL_STATE_SEQ_BUSY k
    let busyOf := (s.phaseCells (ringOf k) (s.phaseOf k)).map F.CELL_STATE_SEQ_BUSY
    let faulted := busyOf ++ busy :: F.CELL_DIAG_VALID k :: F.CELL_FAULTS_FAULT24 k :: (R.RING_MBX_STAT (ringOf k)).all ::
      F.WEAR_CELL_STAT_REC_PEND k :: st
    let fell (s' : State) (reason : Nat) : Prop :=
      s'.cellState k = 8 ∧ s'.get (F.CELL_STATE_REASON k) = reason ∧ s'.get (F.CELL_DIAG_VALID k) = 0 ∧
      (s'.cell k).byp = 0x3C ∧ (s'.cell k).closed = true ∧ (s'.cell k).mode = 0 ∧ (s'.cell k).share = .zero ∧
      (s'.cell k).seq = .fault ∧ (s'.cell k).bypDue = some (now + s.get F.CELL_CTRL_BYP_TO * uMs) ∧
      s'.get (F.CELL_FAULTS_FAULT24 k) = min 15 ((x.faults.filter fun u => decide ((s.advance t).mtUnits < u + 86400 * uS)).length + 1)
    ((s.advance t).atFreeze = true →
    (s.cellState k = 5 ∨ s.cellState k = 4 → s.get F.CELL_CTRL_STALE_LIM ≤ s.get (F.CELL_STALE_RUN k) →
      (s.unreachable k = true →
        Effect (.cellUnreachable t k) s (busy :: F.CELL_FAULTS_UNREACHABLE k :: st) [.cells, .log] fun s' =>
          s'.cellState k = 6 ∧ s'.get (F.CELL_STATE_REASON k) = 0x0D ∧ s'.get (F.CELL_FAULTS_UNREACHABLE k) = 1 ∧
          (s'.cell k).share = .zero ∧ (s'.cell k).byp = 0x3C ∧
          s.Logs s' [(Ev.CELL_STATE, (k : Nat), [.w (k : Nat), .w (s.cellState k), .w (6 : Nat), .w (0x0D : Nat)]),
            (Ev.CELL_UNREACHABLE, (k : Nat), [])]) ∧
      (s.unreachable k = false → Effect (.cellUnreachable t k) s [] [] fun _ => True)) ∧
    (2 ≤ s.cellState k → s.cellState k ≤ 6 → s.get (F.CELL_STATE_NO_BYPASS k) = 0 →
      (s.get F.CELL_CTRL_STALE_FAULT ≤ s.get (F.CELL_STALE_RUN k) → s.unreachable k = false →
        Effect (.cellStaleFault t k) s (F.CELL_FAULTS_TELEMETRY k :: faulted) [.cells, .link, .wear, .log] fun s' =>
          fell s' 0x0C ∧ s'.get (F.CELL_FAULTS_TELEMETRY k) = 1) ∧
      (s.get (F.CELL_STALE_RUN k) < s.get F.CELL_CTRL_STALE_FAULT → Effect (.cellStaleFault t k) s [] [] fun _ => True) ∧
      (s.get (F.PWM_TYPE_TRIP_TRIP_N (s.get (F.CELL_CFG_TYPE k))) ≤ s.get (F.PWM_CELL_TRIP_WIN k) →
        0 < s.get (F.PWM_CELL_TRIP_WIN k) →
        Effect (.pwmTripLatch t k) s (F.CELL_FAULTS_TRIP_LATCH k :: faulted) [.cells, .link, .wear, .log] fun s' =>
          fell s' 0x0B ∧ s'.get (F.CELL_FAULTS_TRIP_LATCH k) = 1) ∧
      (s.get (F.PWM_CELL_TRIP_WIN k) < s.get (F.PWM_TYPE_TRIP_TRIP_N (s.get (F.CELL_CFG_TYPE k))) →
        Effect (.pwmTripLatch t k) s [] [] fun _ => True)) ∧
    (s.cellState k = 8 →
      (3 ≤ s.get (F.CELL_FAULTS_FAULT24 k) →
        Effect (.cellRepeatFault t k) s
          (F.CELL_DIAG_VALID k :: F.CELL_STATE_DISP_PEND k :: (R.RING_MBX_STAT (ringOf k)).all ::
            F.WEAR_CELL_STAT_REC_PEND k :: st) [.cells, .link, .wear, .log] fun s' =>
          s'.cellState k = 9 ∧ s'.get (F.CELL_STATE_REASON k) = 0x15 ∧ s'.get (F.CELL_STATE_DISP_PEND k) = 1 ∧
          s.Logs s' [(Ev.CELL_STATE, (k : Nat), [.w (k : Nat), .w (8 : Nat), .w (9 : Nat), .w (0x15 : Nat)]),
            (Ev.CELL_REPEAT_FAULT, (k : Nat), [])]) ∧
      (s.get (F.CELL_FAULTS_FAULT24 k) < 3 → Effect (.cellRepeatFault t k) s [] [] fun _ => True)) ∧
    (∀ h, s.cellState k = 5 → s.seqBusy k = false → x.hotSince = some h → h + uS ≤ now →
      (s.bypassAllowed k = true →
        Effect (.cellOvertempBypass t k) s [busy, F.CELL_FAULTS_OVERTEMP k] [.cells] fun s' =>
          s'.seqBusy k = true ∧ s'.get (F.CELL_FAULTS_OVERTEMP k) = 1 ∧
          if s.get F.CELL_CTRL_RAMP = 0 then (s'.cell k).share = .zero ∧ (s'.cell k).seq = .bypZero 6 0x0E now
          else (s'.cell k).share = .fall now ∧ (s'.cell k).seq = .bypRamp 6 0x0E) ∧
      (s.bypassAllowed k = false → Effect (.cellOvertempBypass t k) s [logFld] [.cells, .log] fun s' =>
        (s'.cell k).hotLogged = true ∧
        s.Logs s' (if x.hotLogged = true then [] else [(Ev.CELL_BYPASS_REFUSED, (k : Nat), [.w (s.marginIf k)])]))) ∧
    (∀ h, s.get F.CELL_CTRL_AUTO_RET = 1 → s.get (F.CELL_STATE_REASON k) = 0x0E → s.seqBusy k = false →
      x.coolSince = some h → s.returnOk k = true →
      (h + 60 * uS ≤ now → s.cluRunning (ringOf k) = true →
        Effect (.cellAutoReturn t k) s [busy] [.cells] fun s' =>
          s'.seqBusy k = true ∧ (s'.cell k).mode = 1 ∧ (s'.cell k).seq = .retZero 0x1C now) ∧
      (now < h + 60 * uS → Effect (.cellAutoReturn t k) s [] [] fun _ => True))) ∧
    (s.isOn domMGMT = true → s.isOn domVOTE = true → ∀ n : SessIx,
      Effect (.cellTlmRead t n k) s [] [.mgmt] fun s' =>
        (s'.sess n).value = s.word (R.CELL_TLM k 0) ∧ (s'.sess n).status = .ok ∧
        findReg (s'.sess n).snaps (R.CELL_TLM_CYCLE k) = some (s.word (R.CELL_TLM_CYCLE k)) ∧
        ∀ w < 7, findReg (s'.sess n).snaps (R.CELL_TLM k (w + 1)) = some (s.word (R.CELL_TLM k (w + 1))))

/-- Missing samples, BSI fitness and the end of BLIND (R160, R161, R162, R163, R240). -/
def Obligations.GridSourceChanges : Prop :=
  ∀ (t : Nat) (p : PointIx) (s : State), s.works domVOTE = true →
    let now := max s.now t
    let x := s.gpt p
    let sub := F.SV_SUB_STAT_STATE (s.get (F.GRID_PT_SRC_SUB p))
    let period := uS / max 1 x.svRate
    (∀ e, x.gaps.head?.or x.expect = some e →
      (e + s.get (F.GRID_PT_LAT_LAT_MAX p) * (uMs / 10) < (s.advance t).mtUnits →
        let n := match x.missRun with
          | some (u, n) => if sameSample x.svRate (u + period) e then n + 1 else 1
          | none => 1
        let onSv := s.get (F.GRID_PT_STAT_SOURCE p) = 0
        let blind := 3 ≤ n ∧ onSv ∧ s.bsiReady p = false
        Effect (.svSampleMissing t p) s
          [F.GRID_PT_CNT_LOST p, F.GRID_PT_CNT_SRC_SW p, F.GRID_PT_STAT_SOURCE p, sub, logFld] [.grid, .bus, .log]
          fun s' =>
          s'.get (F.GRID_PT_CNT_LOST p) = s.plus (F.GRID_PT_CNT_LOST p) 1 ∧
          (s'.gpt p).missRun = some (e, n) ∧ (s'.gpt p).good = 0 ∧
          (x.gaps = [] → (s'.gpt p).expect = some (e + period)) ∧
          (n < 3 → onSv → ∀ u, x.ts = some u → u < e →
            (s'.gpt p).ts = some e ∧ (s'.gpt p).est = x.est.predict s.fnom ((e : Int) - u)) ∧
          (3 ≤ n → onSv → s.bsiReady p = true → (s'.gpt p).toBsi = true) ∧
          s'.get (F.GRID_PT_STAT_SOURCE p) = (if blind then 2 else s.get (F.GRID_PT_STAT_SOURCE p)) ∧
          (blind → s'.get (F.GRID_PT_CNT_SRC_SW p) = s.plus (F.GRID_PT_CNT_SRC_SW p) 1 ∧ (s'.gpt p).blindAt = some now) ∧
          s'.get sub = (if 3 ≤ n ∧ s.get sub = 2 then 3 else s.get sub) ∧
          s.Logs s' ((if ∀ l, x.lateAt = some l → l + uS ≤ now then [(Ev.GRID_SV_LATE, noInst, [.w (x.lateN + 1)])] else []) ++
            if blind then [(Ev.GRID_SOURCE, noInst, [.w (p : Nat), .w (0 : Nat), .w (2 : Nat)])] else [])) ∧
      ((s.advance t).mtUnits ≤ e + s.get (F.GRID_PT_LAT_LAT_MAX p) * (uMs / 10) →
        Effect (.svSampleMissing t p) s [] [] fun _ => True)) ∧
    (s.get (F.GRID_PT_STAT_SOURCE p) ≠ 2 → Effect (.gridBlindEnd t p) s [] [] fun _ => True) ∧
    (∀ b, x.blindAt = some b →
      (now < b + 100 * uMs → Effect (.gridBlindEnd t p) s [] [] fun _ => True) ∧
      (s.get (F.GRID_PT_STAT_SOURCE p) = 2 → b + 100 * uMs ≤ now →
        Effect (.gridBlindEnd t p) s [R.GRID_PT_STAT p |>.all, (R.GRID_PT_FREQ p).all, (R.GRID_PT_ROCOF p).all,
          F.GRID_PT_CNT_SRC_SW p, logFld] [.grid, .log] fun s' =>
          s'.get (F.GRID_PT_STAT_SOURCE p) = 3 ∧ s'.get (F.GRID_PT_STAT_FSTATE p) = 0 ∧
          s'.get (F.GRID_PT_STAT_FREQ_VALID p) = 0 ∧ s'.get (F.GRID_PT_STAT_FREQ_HOLD p) = 0 ∧
          s'.get (F.GRID_PT_STAT_ROCOF_VALID p) = 0 ∧ s'.get (F.GRID_PT_STAT_PH_VALID p) = 0 ∧
          s'.get (F.GRID_PT_STAT_SEQ_REVERSED p) = s.get (F.GRID_PT_STAT_SEQ_REVERSED p) ∧
          s'.get (F.GRID_PT_STAT_BSI_FIT p) = s.get (F.GRID_PT_STAT_BSI_FIT p) ∧
          s'.get (F.GRID_PT_CNT_SRC_SW p) = s.plus (F.GRID_PT_CNT_SRC_SW p) 1 ∧
          s.Logs s' [(Ev.GRID_SOURCE, noInst, [.w (p : Nat), .w (2 : Nat), .w (3 : Nat)]),
            (Ev.GRID_BLIND_END, noInst, [.w (p : Nat)])])) ∧
    (∀ o, x.outAt = some o →
      (now < o + uS → Effect (.gridBsiUnfit t p) s [] [] fun _ => True) ∧
      (o + uS ≤ now → s.get (F.GRID_PT_STAT_BSI_FIT p) = 1 →
        Effect (.gridBsiUnfit t p) s [F.GRID_PT_STAT_BSI_FIT p, logFld] [.log] fun s' =>
          s'.get (F.GRID_PT_STAT_BSI_FIT p) = 0 ∧ s.Logs s' [(Ev.GRID_BSI_UNFIT, noInst, [.w (p : Nat)])])) ∧
    (∀ i, x.inAt = some i →
      (now < i + 10 * uS → Effect (.gridBsiFit t p) s [] [] fun _ => True) ∧
      (i + 10 * uS ≤ now → Effect (.gridBsiFit t p) s [F.GRID_PT_STAT_BSI_FIT p] [] fun s' =>
        s'.get (F.GRID_PT_STAT_BSI_FIT p) = 1))

/-- Phase jumps, sequence reversals, voltage loss and phase-current faults (R165, R166, R167, R168, R173, R78). -/
def Obligations.GridStateChanges : Prop :=
  ∀ (t : Nat) (s : State), s.works domVOTE = true →
    let now := max s.now t
    (∀ p : PointIx,
      let x := s.gpt p
      let st := s.get (F.GRID_PT_STAT_FSTATE p)
      let rep := [F.GRID_PT_STAT_FSTATE p, F.GRID_PT_STAT_FREQ_VALID p, F.GRID_PT_STAT_FREQ_HOLD p,
        F.GRID_PT_STAT_ROCOF_VALID p, F.GRID_PT_STAT_PH_VALID p, (R.GRID_PT_FREQ p).all, (R.GRID_PT_ROCOF p).all]
      let upset (s' : State) : Prop :=
        s'.get (F.GRID_PT_STAT_FSTATE p) = (if st = 2 ∨ st = 3 then 4 else st) ∧
        (st = 2 ∨ st = 3 → s'.get (F.GRID_PT_STAT_FREQ_VALID p) = 1 ∧ s'.get (F.GRID_PT_STAT_FREQ_HOLD p) = 1 ∧
          s'.get (F.GRID_PT_STAT_ROCOF_VALID p) = 0) ∧
        (s'.gpt p).resetAt = x.ts ∧
        s'.get (F.GRID_PT_CNT_RESETS p) =
          if x.ts ≠ none ∧ x.resetAt = x.ts then s.get (F.GRID_PT_CNT_RESETS p) else s.plus (F.GRID_PT_CNT_RESETS p) 1
      (x.jumpHit = false ∨ st = 0 → Effect (.gridPhaseJump t p) s [] [] fun _ => True) ∧
      (x.jumpHit = true → st ≠ 0 → st ≤ 4 → x.ts ≠ none →
        Effect (.gridPhaseJump t p) s ([F.GRID_PT_CNT_JUMPS p, F.GRID_PT_CNT_RESETS p, logFld] ++ rep) [.grid, .log]
          fun s' => upset s' ∧ (s'.gpt p).jumpN = 0 ∧ (s'.gpt p).jumpHit = false ∧
          s'.get (F.GRID_PT_CNT_JUMPS p) = s.plus (F.GRID_PT_CNT_JUMPS p) 1 ∧
          s.Logs s' [(Ev.GRID_PHASE_JUMP, noInst, [.w (p : Nat), .w (angleCode x.jumpBy)])]) ∧
      (∀ f ts, x.revAt = some f → x.ts = some ts → st ≤ 4 →
        let half := if s.get F.GRID_CFG_FNOM = 1 then 120 else 100
        let new := 1 - s.get (F.GRID_PT_STAT_SEQ_REVERSED p)
        (half * (ts - f) < uS → Effect (.gridSeqReversed t p) s [] [] fun _ => True) ∧
        (uS ≤ half * (ts - f) →
          Effect (.gridSeqReversed t p) s
            ([F.GRID_PT_STAT_SEQ_REVERSED p, F.GRID_PT_CNT_RESETS p, logFld] ++ rep) [.grid, .log] fun s' =>
            upset s' ∧ s'.get (F.GRID_PT_STAT_SEQ_REVERSED p) = new ∧ (s'.gpt p).revAt = none ∧
            s.Logs s' [(Ev.GRID_SEQ_REVERSED, noInst, [.w (p : Nat), .w new])])) ∧
      (∀ a st0 ts, x.dip = some (a, st0) → x.ts = some ts → st = 3 →
        (ts ≤ a + 20 * uMs → Effect (.gridVoltageLost t p) s [] [] fun _ => True) ∧
        (a + 20 * uMs < ts → Effect (.gridVoltageLost t p) s (logFld :: rep) [.grid, .log] fun s' =>
          s'.get (F.GRID_PT_STAT_FSTATE p) = 0 ∧ s'.get (F.GRID_PT_STAT_FREQ_VALID p) = 0 ∧
          s'.get (F.GRID_PT_STAT_FREQ_HOLD p) = 0 ∧ s'.get (F.GRID_PT_STAT_PH_VALID p) = 0 ∧ (s'.gpt p).dip = none ∧
          s.Logs s' [(Ev.GRID_VOLTAGE_LOST, noInst, [.w (p : Nat)])])) ∧
      (∀ r ts, x.resetAt = some r → x.ts = some ts → st = 1 →
        let two := if s.get F.GRID_CFG_FNOM = 1 then 120 else 100
        (two * (ts - r) < 4 * uS → Effect (.gridSettled t p) s [] [] fun _ => True) ∧
        (4 * uS ≤ two * (ts - r) → Effect (.gridSettled t p) s rep [.grid] fun s' =>
          s'.get (F.GRID_PT_STAT_FSTATE p) = 2 ∧ s'.get (F.GRID_PT_STAT_FREQ_VALID p) = 1 ∧
          s'.get (F.GRID_PT_STAT_FREQ_HOLD p) = 0 ∧ (s'.gpt p).valid = some x.est.w)) ∧
      (∀ h ts, x.holdAt = some h → x.ts = some ts → st = 4 →
        let two := if s.get F.GRID_CFG_FNOM = 1 then 120 else 100
        (two * (ts - h) < 4 * uS → Effect (.gridHoldExpired t p) s [] [] fun _ => True) ∧
        (4 * uS ≤ two * (ts - h) → Effect (.gridHoldExpired t p) s ([F.GRID_PT_CNT_RESETS p, logFld] ++ rep) [.grid, .log]
          fun s' =>
          s'.get (F.GRID_PT_STAT_FSTATE p) = 1 ∧ s'.get (F.GRID_PT_STAT_FREQ_VALID p) = 0 ∧
          s'.get (F.GRID_PT_STAT_FREQ_HOLD p) = 0 ∧ (s'.gpt p).resetAt = x.ts ∧ (s'.gpt p).holdAt = none ∧
          s.Logs s' [(Ev.GRID_HOLD_EXPIRED, noInst, [.w (p : Nat)])]))) ∧
    (∀ (c : RingIx) (ph : Fin 3),
      (s.cluRunning c = false ∨ (s.gclu c).lost.get ph < 3 → Effect (.gridIarmLost t c ph) s [] [] fun _ => True) ∧
      (s.cluRunning c = true → 3 ≤ (s.gclu c).lost.get ph →
        let seq := (s.get (F.RING_HALT_STAT_HALT_SEQ c) + 1) % 65536
        Effect (.gridIarmLost t c ph) s
          [F.RING_HALT_STAT_HALT_SEQ c, F.RING_HALT_STAT_SRC_CLASS c, F.RING_HALT_STAT_SRC_CH c, logFld]
          [.grid, .link, .capAsk, .log] fun s' =>
          (s'.gclu c).lost.get ph = 0 ∧ s'.get (F.RING_HALT_STAT_HALT_SEQ c) = seq ∧
          s'.get (F.RING_HALT_STAT_SRC_CLASS c) = 2 ∧ s'.get (F.RING_HALT_STAT_SRC_CH c) = 0 ∧
          (s'.ring c).haltNext = some (now + uUs, 3) ∧ (2, 0) ∈ (s'.ring c).sources ∧
          s.Logs s' [(Ev.HALT_INJECTED, (c : Nat), [.w seq, .w (512 : Nat)]),
            (Ev.GRID_IARM_LOST, noInst, [.w (c : Nat), .w (ph : Nat)])])) ∧
    (∀ k : CellIx,
      ((s.gcell k).dis < 16 → Effect (.gridIarmDisagree t k) s [] [] fun _ => True) ∧
      (16 ≤ (s.gcell k).dis →
        Effect (.gridIarmDisagree t k) s [F.GRID_CLU_STAT_IARM_DIS (ringOf k), logFld] [.grid, .log] fun s' =>
          s'.get (F.GRID_CLU_STAT_IARM_DIS (ringOf k)) = 1 ∧ (s'.gcell k).dis = 0 ∧
          s.Logs s' [(Ev.GRID_IARM_DISAGREE, noInst, [.w (k : Nat)])]))

/-- MPPT steps, cap instants, open-circuit estimates and dark cells (R186, R187, R188, R189, R190, R195, R196, R197, R200, R201, R203). -/
def Obligations.MpptStepsAndCaps : Prop :=
  ∀ (t : Nat) (s : State), s.works domVOTE = true →
    let now := max s.now t
    (∀ k : CellIx,
      let x := s.mcell k
      let r := ringOf k
      let stat := (R.MPPT_CELL_STAT k).all
      let queue := s.scanQueue r (s.phaseOf k)
      let queued := queue.map fun e => (R.MPPT_CELL_STAT e.1).all
      let mbx := (R.RING_MBX_STAT r).all
      let n := (s.advance t).stepNo k
      let mode := s.get (F.MPPT_CELL_STAT_MODE k)
      let v0 := x.vref.getD (s.voc k * 256 : Nat)
      (∀ (c : RingIx) s1, (c : Nat) = r → exec (.mpptCapInstant t c) s = .next s1 → exec (.mpptStep t k) s = exec (.mpptStep t k) s1) ∧
      ((s.mclu r).cap = (s.advance t).instants 0 →
      (x.step = n → Effect (.mpptStep t k) s [] [] fun _ => True) ∧
      (x.step ≠ n → x.pend ≠ none →
        let due := ∀ l, s.mppt.deferAt.get r = some l → l + uS ≤ now
        Effect (.mpptStep t k) s (stat :: F.MPPT_CNT_DEFER :: logFld :: queued) [.mppt, .link, .log] fun s' =>
          s'.get (F.MPPT_CELL_STAT_DEFER k) = s.plus (F.MPPT_CELL_STAT_DEFER k) 1 ∧
          s'.get F.MPPT_CNT_DEFER = s.plus F.MPPT_CNT_DEFER 1 ∧ (s'.mcell k).pend = none ∧
          (s'.mcell k).fails = x.fails + 1 ∧ (s'.mcell k).vref = x.vref ∧
          s'.get (F.MPPT_CELL_STAT_NO_REF k) = (if x.fails = 2 then 1 else s.get (F.MPPT_CELL_STAT_NO_REF k)) ∧
          s.Logs s' ((if due then [(Ev.MPPT_REF_DEFER, noInst, [.w r, .w (s.mppt.deferN.get r + 1)])] else []) ++
            if x.fails = 2 then [(Ev.MPPT_NO_REF, (k : Nat), [.w (k : Nat)])] else [])) ∧
      (x.step ≠ n → x.pend = none → mode = 0 ∨ mode = 4 ∨ mode = 5 →
        Effect (.mpptStep t k) s queued [.mppt] fun s' => (s'.mcell k).vref = x.vref ∧ (s'.mcell k).hist = x.hist) ∧
      (x.step ≠ n → x.pend = none → mode = 1 → queue = [] →
        Effect (.mpptStep t k) s [stat, (R.MPPT_CELL_PWR k).all] [.mppt] fun s' =>
          (s'.mcell k).vref = x.vref ∧ (s'.mcell k).skip = x.skip - 1 ∧
          s'.get (F.MPPT_CELL_STAT_MODE k) = (if x.skip ≤ 1 then 2 else 1)) ∧
      (x.step ≠ n → x.pend = none → x.skip = 0 → mode = 2 ∨ mode = 3 →
        let got := (s.advance t).measure k (s.get F.MPPT_CFG_MEAS_MS)
        (got = none → Effect (.mpptStep t k) s queued [.mppt] fun s' =>
          (s'.mcell k).vref = x.vref ∧ (s'.mcell k).hist = x.hist) ∧
        (∀ v i vp ip, got = some (v, i) → x.hist = some (vp, ip) →
          let p := v * i
          let g := slopeOf v i vp ip
          let tgt : Int := x.tgt * u10W
          let db : Int := s.get F.MPPT_STEP_DB
          let track : Option Int :=
            if (g.1.natAbs : Int) * v * 1000 < db * p * g.2 then x.vref
            else some (s.clampRef k (if 0 < g.1 then
              v0 + s.stepClamp k (roundFree (s.get F.MPPT_STEP_K_STEP * g.1.natAbs : Nat) (1250 * g.2)) else
              v0 - s.stepClamp k (roundFree (s.get F.MPPT_STEP_K_STEP * g.1.natAbs : Nat) (1250 * g.2))))
          let step (e : Int) : Int :=
            s.stepClamp k (if v = 0 then 0 else roundFree (s.get F.MPPT_STEP_K_STEP * e) (1250 * v))
          let curtail : Option Int :=
            if tgt * (1000 + db) < p * 1000 then some (s.clampRef k (v0 + step (p - tgt)))
            else if p * 1000 < tgt * (1000 - db) ∧ g.1 < 0 then some (s.clampRef k (v0 - step (tgt - p)))
            else some (s.clampRef k v0)
          (mode = 2 → Effect (.mpptStep t k) s ((R.MPPT_CELL_PWR k).all :: mbx :: queued) [.mppt, .link] fun s' =>
            (s'.mcell k).p = min p (s.prated k) ∧ (s'.mcell k).vref = track ∧ (s'.mcell k).hist = some (v, i)) ∧
          (mode = 3 → Effect (.mpptStep t k) s (stat :: (R.MPPT_CELL_PWR k).all :: mbx :: queued)
            [.mppt, .link] fun s' => (s'.mcell k).vref = curtail ∧ (s'.mcell k).hist = some (v, i))))) ∧
      (∀ l, x.lowAt = some l →
        (now < l + uS → Effect (.mpptVocSet t k) s [] [] fun _ => True) ∧
        (l + uS ≤ now → 0 < x.lowN → Effect (.mpptVocSet t k) s [F.MPPT_CELL_REF_VOC_EST k] [.mppt] fun s' =>
          s'.get (F.MPPT_CELL_REF_VOC_EST k) =
            satN (2 ^ (F.MPPT_CELL_REF_VOC_EST k).wd - 1) (roundFree x.lowSum x.lowN).toNat ∧
          (s'.mcell k).vocAt = some (s.advance t).mtUnits)) ∧
      ((s.advance t).mtUnits < x.vocAt.getD s.mppt.loadAt + 86400 * uS → Effect (.mpptVocDefault t k) s [] [] fun _ => True) ∧
      (x.vocAt.getD s.mppt.loadAt + 86400 * uS ≤ (s.advance t).mtUnits →
        Effect (.mpptVocDefault t k) s [F.MPPT_CELL_REF_VOC_EST k, logFld] [.mppt, .log] fun s' =>
          s'.get (F.MPPT_CELL_REF_VOC_EST k) = satN (2 ^ (F.MPPT_CELL_REF_VOC_EST k).wd - 1)
            (2 * s.get (F.MPPT_TYPE_RATE_VOC_NOM (s.get (F.CELL_CFG_TYPE k)))) ∧
          (s'.mcell k).vocAt = some (s.advance t).mtUnits ∧ s.Logs s' [(Ev.MPPT_VOC_DEFAULT, (k : Nat), [.w (k : Nat)])]) ∧
      (∀ d, x.darkAt = some d → s.get (F.MPPT_CELL_STAT_DARK k) = 0 →
        (now < d + 60 * uS → Effect (.mpptDark t k) s [] [] fun _ => True) ∧
        (d + 60 * uS ≤ now →
          Effect (.mpptDark t k) s [F.MPPT_CELL_STAT_DARK k, F.MPPT_PH_CAP_DARK r (s.phaseOf k), logFld] [.log]
            fun s' => s'.get (F.MPPT_CELL_STAT_DARK k) = 1 ∧
            s.Logs s' [(Ev.MPPT_DARK, (k : Nat), [.w (k : Nat), .w (roundFree (s.avail k) uW)])])) ∧
      (∀ b, x.brightAt = some b → s.get (F.MPPT_CELL_STAT_DARK k) = 1 →
        (now < b + 60 * uS → Effect (.mpptDarkClear t k) s [] [] fun _ => True) ∧
        (b + 60 * uS ≤ now →
          Effect (.mpptDarkClear t k) s [F.MPPT_CELL_STAT_DARK k, F.MPPT_PH_CAP_DARK r (s.phaseOf k)] [] fun s' =>
            s'.get (F.MPPT_CELL_STAT_DARK k) = 0))) ∧
    (∀ c : RingIx,
      let n := (s.advance t).instants 0
      let idle := s.frtState c ∈ [1, 2, 4, 5, 6]
      ((s.mclu c).cap = n → Effect (.mpptCapInstant t c) s [] [] fun _ => True) ∧
      ((s.mclu c).cap ≠ n → idle → Effect (.mpptCapInstant t c) s [] [.mppt] fun s' => (s'.mclu c).cap = n) ∧
      ((s.mclu c).cap ≠ n → ¬idle →
        let a (ph : Nat) : Int := ((s.actives c ph).map s.avail).foldl (· + ·) 0
        let m (ph : Nat) : Int := min (a ph) ((((s.advance t).ceilings c).mclu c).ceil.get ph |>.getD
          (((s.actives c ph).map s.prated).foldl (· + ·) 0))
        let g := s.gooseVal (s.get (F.MPPT_CLU_PLIM_GSRC c))
        let plim : Option Int := if s.get (F.MPPT_CLU_PLIM_GSRC_EN c) = 1 then
            (if g.2 then some g.1 else (s.mclu c).plim).map fun v => max 0 v * 1000 * uW
          else if s.get (F.MPPT_CLU_PLIM_PLIM c) = 0xFFFF then none
          else some (s.get (F.MPPT_CLU_PLIM_PLIM c) * 1000 * uW)
        let prt := ((s.advance t).prt c).map fun p => s.puWatt c p 327680000
        let sum := m 0 + m 1 + m 2
        let tgt := min (plim.getD sum) (min (prt.getD sum) sum)
        let kw (p : Int) : Nat := satN 65535 (roundFree p (1000 * uW)).toNat
        Effect (.mpptCapInstant t c) s
          ((List.range 3).flatMap (fun ph => [(R.MPPT_PH_CAP c ph).all, (R.MPPT_PH_CEIL c ph).all]) ++
            (cellsOf c).flatMap (fun j => [(R.MPPT_CELL_PWR j).all, (R.MPPT_CELL_STAT j).all]) ++
            [F.MPPT_CLU_PAVAIL_P c, F.MPPT_CLU_PTGT_P c, F.MPPT_CLU_STAT_BY_PLIM c, F.MPPT_CLU_STAT_BY_RT c,
             (R.RING_MBX_STAT c).all, logFld]) [.mppt, .link, .log] fun s' =>
          (s'.mclu c).cap = n ∧ s'.get (F.MPPT_CLU_PAVAIL_P c) = kw (a 0 + a 1 + a 2) ∧
          s'.get (F.MPPT_CLU_PTGT_P c) = kw tgt ∧
          s'.get (F.MPPT_CLU_STAT_BY_PLIM c) = b2n (decide (plim = some tgt ∧ tgt < sum)) ∧
          s'.get (F.MPPT_CLU_STAT_BY_RT c) = b2n (decide (prt = some tgt ∧ tgt < sum)) ∧
          (∀ ph < 3, sum ≤ tgt → s'.get (F.MPPT_PH_CEIL_TGT c ph) = kw (m ph))))

/-- Global scans and MPPT_CMD (R187, R189, R191, R192, R193, R194, R10). -/
def Obligations.ScansAndMpptCommands : Prop :=
  ∀ (t : Nat) (k : CellIx) (s : State),
    let now := max s.now t
    let x := s.mcell k
    let r := ringOf k
    let mode := s.get (F.MPPT_CELL_STAT_MODE k)
    let queue := s.scanQueue r (s.phaseOf k)
    let mbx := (R.RING_MBX_STAT r).all
    let every := s.get F.MPPT_SCAN_SCAN_INT * 60 * uS
    let due := (x.lastScan.map (· + every)).getD (s.mppt.loadAt + posOf k * every / 128)
    (s.works domVOTE = true →
      (mode ≠ 2 ∨ x.shade < 10 → Effect (.mpptShadeQueue t k) s [] [] fun _ => True) ∧
      (mode = 2 → 10 ≤ x.shade → Effect (.mpptShadeQueue t k) s [F.MPPT_CELL_STAT_QUEUED k] [.mppt] fun s' =>
        (s'.mcell k).shade = 0 ∧ s'.scanQueue r (s.phaseOf k) =
          if queue.any (·.1 == (k : Nat)) then queue else queue ++ [((k : Nat), false)]) ∧
      (s.get F.MPPT_SCAN_SCAN_INT = 0 ∨ mode ≠ 2 → Effect (.mpptScanDue t k) s [] [] fun _ => True) ∧
      (((s.advance t).mtUnits < due → Effect (.mpptScanDue t k) s [] [] fun _ => True) ∧
        (due ≤ (s.advance t).mtUnits → mode = 2 → s.get F.MPPT_SCAN_SCAN_INT ≠ 0 →
          (∀ e ∈ queue, e.1 ≠ (k : Nat)) →
          Effect (.mpptScanDue t k) s [F.MPPT_CELL_STAT_QUEUED k] [.mppt] fun s' =>
            s'.get (F.MPPT_CELL_STAT_QUEUED k) = 1 ∧ s'.scanQueue r (s.phaseOf k) = queue ++ [((k : Nat), false)])) ∧
      (x.scan = none → Effect (.mpptScanPoint t k) s [] [] fun _ => True) ∧
      (∀ sc, x.scan = some sc →
        let at_ (n : Nat) : Int := roundFree ((60 + n : Nat) * sc.voc * 256) 100
        (now < scanTime sc → Effect (.mpptScanPoint t k) s [] [] fun _ => True) ∧
        (scanTime sc ≤ now →
          (sc.next < 5 → Effect (.mpptScanPoint t k) s [mbx] [.mppt, .link] fun s' =>
            (s'.mcell k).scan = some { sc with next := sc.next + 1 } ∧
            (s'.mcell k).vref = some (sc.v0 + roundFree ((at_ 0 - sc.v0) * (sc.next + 1 : Nat)) 5)) ∧
          (∀ n ≤ 40, sc.next = 5 + 2 * n → Effect (.mpptScanPoint t k) s [mbx] [.mppt, .link] fun s' =>
            (s'.mcell k).scan = some { sc with next := sc.next + 1 } ∧ (s'.mcell k).vref = some (at_ n)) ∧
          (∀ n ≤ 40, sc.next = 6 + 2 * n →
            ((s.advance t).measure k 25 = none → Effect (.mpptScanPoint t k) s [] [.mppt] fun s' =>
              (s'.mcell k).vref = x.vref ∧ (s'.mcell k).scan = some (if sc.again then
                { sc with next := sc.next + 1, again := false } else
                { sc with delay := sc.delay + 50 * uMs, again := true })) ∧
            (∀ v i, (s.advance t).measure k 25 = some (v, i) →
              let better := ∀ b, sc.bestP = some b → b < v * i
              Effect (.mpptScanPoint t k) s [F.MPPT_CELL_REF_VOC_EST k] [.mppt] fun s' =>
                (s'.mcell k).vref = x.vref ∧
                (s'.mcell k).scan = some { sc with
                  next := sc.next + 1, again := false, bestN := if better then n else sc.bestN,
                  bestP := if better then some (v * i) else sc.bestP, maxI := max sc.maxI i } ∧
                (n ≠ 40 ∨ 50 * i ≤ max sc.maxI i →
                  s'.get (F.MPPT_CELL_REF_VOC_EST k) = s.get (F.MPPT_CELL_REF_VOC_EST k))))) ∧
        (sc.next < 87 → Effect (.mpptScanDone t k) s [] [] fun _ => True) ∧
        (87 ≤ sc.next →
          let best := if sc.bestP = none then sc.v0 else s.clampRef k (at_ sc.bestN)
          Effect (.mpptScanDone t k) s [F.MPPT_CELL_STAT_MODE k, F.MPPT_CELL_STAT_CURT k, F.MPPT_CELL_SCAN_BEST_V k,
            F.MPPT_CNT_SCANS, mbx, logFld] [.mppt, .link, .log] fun s' =>
            s'.get (F.MPPT_CELL_STAT_MODE k) = 2 ∧ (s'.mcell k).vref = some best ∧ (s'.mcell k).scan = none ∧
            (s'.mcell k).hist = none ∧ (s'.mcell k).lastScan = some (s.advance t).mtUnits ∧
            s'.get F.MPPT_CNT_SCANS = (s.get F.MPPT_CNT_SCANS + 1) % 2 ^ F.MPPT_CNT_SCANS.wd ∧
            s.Logs s' [(Ev.MPPT_SCAN_DONE, (k : Nat),
              [.w (k : Nat), .w sc.bestN, .w (roundFree (sc.bestP.getD 0) uW), .w (roundFree sc.p0 uW)])]))) ∧
    (∀ n : SessIx, s.isOn domMGMT = true →
      let allowed (cmd : Nat) : Prop := s.isOn domVOTE = true ∧
        s.allows n R.MPPT_CMD (mpptCmdWord k cmd) (BitVec.allOnes 32) = true
      (s.isOn domVOTE = false → ∀ c ∈ [Instr.mpptCmdNone t n k, .scanCell t n k, .scanCluster t n k, .cancelScan t n k],
        Effect c s [] [.mgmt] fun s' => (s'.sess n).status = .domainOff) ∧
      (s.cellState k ≠ 5 →
        ∀ p ∈ [(1, Instr.scanCell t n k), (2, .scanCluster t n k), (3, .cancelScan t n k)], allowed p.1 →
        Effect p.2 s [] [.mgmt] fun s' => (s'.sess n).status = .stateMismatch) ∧
      (allowed 0 → Effect (.mpptCmdNone t n k) s [R.MPPT_CMD.all] [.mgmt] fun s' => (s'.sess n).status = .ok) ∧
      (s.cellState k = 5 →
        (allowed 1 → (∀ e ∈ queue, e.1 ≠ (k : Nat)) → mode = 2 →
          Effect (.scanCell t n k) s [R.MPPT_CMD.all, F.MPPT_CELL_STAT_QUEUED k] [.mgmt, .mppt] fun s' =>
            (s'.sess n).status = .ok ∧ s'.get (F.MPPT_CELL_STAT_QUEUED k) = 1 ∧
            s'.scanQueue r (s.phaseOf k) = queue.filter (·.2) ++ [((k : Nat), true)] ++ queue.filter (!·.2)) ∧
        (allowed 1 → mode ≠ 2 → Effect (.scanCell t n k) s [R.MPPT_CMD.all] [.mgmt] fun s' => (s'.sess n).status = .ok) ∧
        (allowed 2 → Effect (.scanCluster t n k) s
          (R.MPPT_CMD.all :: (cellsOf r).map fun j => F.MPPT_CELL_STAT_QUEUED j) [.mgmt, .mppt] fun s' =>
          (s'.sess n).status = .ok ∧
          ∀ j ∈ cellsOf r, s.inMap j = true → s.get (F.MPPT_CELL_STAT_MODE j) = 2 →
            (s'.scanQueue r (s.phaseOf j)).any (·.1 == j) = true) ∧
        (∀ sc, allowed 3 → x.scan = some sc →
          Effect (.cancelScan t n k) s
            [R.MPPT_CMD.all, F.MPPT_CELL_STAT_MODE k, F.MPPT_CELL_STAT_CURT k, mbx, logFld] [.mgmt, .mppt, .link, .log]
            fun s' => (s'.sess n).status = .ok ∧ s'.get (F.MPPT_CELL_STAT_MODE k) = 2 ∧ (s'.mcell k).vref = some sc.v0 ∧
              (s'.mcell k).scan = none ∧
              s.Logs s' [(Ev.MPPT_SCAN_ABORT, (k : Nat), [.w (k : Nat), .w (4 : Nat)])])))

/-- Evaluations and fast scans of the ride-through machines (R25, R204, R205, R213, R214, R215, R216, R218). -/
def Obligations.RideThroughEvaluations : Prop :=
  ∀ (t : Nat) (c : RingIx) (s : State), s.works domVOTE = true →
    let now := max s.now t
    let k := s.link.cycle
    let div := max 1 (s.get F.FRT_CFG_EVAL_DIV)
    let st := s.frtState c
    let a := s.advance t
    let f := s.fclu c
    (s.link.frozen = false ∨ k % div ≠ 0 ∨ f.evalK = some k → Effect (.frtEvaluation t c) s [] [] fun _ => True) ∧
    (s.link.frozen = false ∨ k % div = 0 ∨ f.scanK = some k → Effect (.frtFastScan t c) s [] [] fun _ => True) ∧
    (∀ full : Bool, s.link.frozen = true → (k % div = 0 ↔ full = true) →
      (if full then f.evalK else f.scanK) ≠ some k →
      let cmd := if full then Instr.frtEvaluation t c else .frtFastScan t c
      let b := if full then a.takeU c else a
      let all := s.smEntries (s.get (F.FRT_CLU_CFG_TABLE c)) st
      let tested := if full then all else all.filter fun x => fastCond x.cond
      let holds (x : SmEntry) : Prop := b.frtCond c x.cond x.thr ≠ x.neg
      let ready (x : SmEntry) : Prop := holds x ∧ ((f.held.get x.e).getD now) + x.dwell ≤ now ∧ x.to_ ≠ st ∧
        (st = 8 → x.cond = 24 ∧ x.neg = false)
      let barred (x : SmEntry) : Prop := bit x.act 2 = true ∧
        (b.startBar c ≠ none ∨ (b.anyRunning = false ∧ b.feasible = none))
      (∀ pre x post, tested = pre ++ x :: post → (∀ y ∈ pre, ¬ready y ∨ barred y) → ready x → ¬barred x →
        Answers cmd s fun s' =>
          s'.frtState c = x.to_ ∧ s'.get (F.FRT_CLU_STAT_PREV c) = st ∧ s'.get (F.FRT_CLU_STAT_ENTRY c) = x.e ∧
          s'.get (F.FRT_CLU_STAT_PEND c) = 0 ∧ (s'.fclu c).at_ = now ∧
          (bit x.act 1 = true → st ≠ 8 → s'.get (F.FRT_CLU_STAT_TRIP_OUT c) = 1) ∧
          (7 ≤ x.to_ → st < 7 →
            s'.get (F.RING_HALT_STAT_HALT_SEQ c) = (s.get (F.RING_HALT_STAT_HALT_SEQ c) + 1) % 65536 ∧
            s'.get (F.RING_HALT_STAT_SRC_CLASS c) = 2 ∧ (s'.ring c).haltNext = some (now + uUs, 3))) ∧
      ((∀ y ∈ tested, ¬holds y) →
        let outside : Prop := full = true ∧ s.cluActive c = false ∧ a.inStart c = false
        let none_ : Prop := full = true ∧ s.source (s.syncPt c) = 3
        let forced : Prop := st < 7 ∧ (outside ∧ 1 ≤ f.idle ∨ none_ ∧ (f.noneAt.getD now) + 20 * uMs ≤ now)
        (forced →
          Effect cmd s [(R.FRT_CLU_U c).all, (R.FRT_CLU_STAT c).all, (R.FRT_CLU_CNT c).all,
            (R.RING_HALT_STAT c).all, logFld] [.frt, .link, .capAsk, .log] fun s' =>
            s'.frtState c = 7 ∧ s'.get (F.FRT_CLU_STAT_PREV c) = st ∧ s'.get (F.FRT_CLU_STAT_FORCED c) = 1 ∧
            s'.get (F.FRT_CLU_STAT_ENTRY c) = s.get (F.FRT_CLU_STAT_ENTRY c) ∧
            s'.get (F.FRT_CLU_CNT_FORCED c) = s.plus (F.FRT_CLU_CNT_FORCED c) 1 ∧
            (s'.ring c).haltNext = some (now + uUs, 3)) ∧
        (¬forced → Effect cmd s [(R.FRT_CLU_U c).all] [.frt] fun s' => s'.frtState c = st)))

/-- FRT_CLU_CMD and the islanding detectors (R219, R220, R223, R224, R225, R10). -/
def Obligations.RideThroughCommandsAndIslanding : Prop :=
  ∀ (t : Nat) (s : State),
    let now := max s.now t
    (∀ (n : SessIx) (c : RingIx), s.isOn domMGMT = true →
      let st := s.frtState c
      ∀ p ∈ [(0, Instr.frtCmdNone t n c), (1, .frtCmdStart t n c), (2, .frtCmdStop t n c), (3, .frtCmdReset t n c)],
      let fits := p.1 = 0 ∨ p.1 = 1 ∧ st = 7 ∨ p.1 = 2 ∧ st < 7 ∨ p.1 = 3 ∧ st = 8
      (s.isOn domVOTE = false → Effect p.2 s [] [.mgmt] fun s' => (s'.sess n).status = .domainOff) ∧
      (s.isOn domVOTE = true → s.allows n (R.FRT_CLU_CMD c) (BitVec.ofNat 32 p.1) (BitVec.allOnes 32) = true →
        (¬fits → Effect p.2 s [] [.mgmt] fun s' => (s'.sess n).status = .stateMismatch) ∧
        (fits → Effect p.2 s [(R.FRT_CLU_CMD c).all, F.FRT_CLU_STAT_PEND c] [.mgmt, .frt] fun s' =>
          (s'.sess n).status = .ok ∧
          (p.1 = 0 → s'.get (F.FRT_CLU_STAT_PEND c) = s.get (F.FRT_CLU_STAT_PEND c)) ∧
          (p.1 ≠ 0 → s'.get (F.FRT_CLU_STAT_PEND c) = s.get (F.FRT_CLU_STAT_PEND c) ||| 2 ^ (p.1 - 1) ∧
            (s'.fclu c).cmdAt = now)))) ∧
    (∀ c : RingIx, s.works domVOTE = true →
      let pend := s.get (F.FRT_CLU_STAT_PEND c)
      (pend = 0 ∨ now < (s.fclu c).cmdAt + 10 * uS → Effect (.frtCmdExpired t c) s [] [] fun _ => True) ∧
      (pend ≠ 0 → (s.fclu c).cmdAt + 10 * uS ≤ now →
        Effect (.frtCmdExpired t c) s [F.FRT_CLU_STAT_PEND c, logFld] [.log] fun s' =>
          s'.get (F.FRT_CLU_STAT_PEND c) = 0 ∧ s.Logs s' [(Ev.FRT_CMD_EXPIRED, noInst, [.w (c : Nat)])])) ∧
    (s.works domVOTE = true → s.works domPBUS = true →
      let x := s.isl
      let chip := chipOf s.fnom (s.advance t).mtUnits
      let roc : Prop := ∃ r, x.rocofAt = some r ∧ r + s.get F.ISL_PASSIVE_PDWELL * 10 * uMs ≤ now
      (s.get F.ISL_STAT_PASSIVE = 1 → Effect (.islPassive t) s [] [] fun _ => True) ∧
      (¬roc → x.shift = false → Effect (.islPassive t) s [] [] fun _ => True) ∧
      (s.get F.ISL_STAT_PASSIVE = 0 → x.shift = true ∨ roc →
        Effect (.islPassive t) s [F.ISL_STAT_PASSIVE, logFld] [.log] fun s' =>
          s'.get F.ISL_STAT_PASSIVE = 1 ∧ s.Logs s' [(Ev.ISL_PASSIVE, noInst,
            [.w (if x.shift then angleCode (s.vshift (s.get F.ISL_CFG_PT)) else
              s.getS (F.GRID_PT_ROCOF_ROCOF (s.get F.ISL_CFG_PT)))])]) ∧
      (∀ q, x.quietAt = some q →
        (now < q + 2 * uS → Effect (.islPassiveClear t) s [] [] fun _ => True) ∧
        (q + 2 * uS ≤ now → Effect (.islPassiveClear t) s [F.ISL_STAT_PASSIVE] [] fun s' =>
          s'.get F.ISL_STAT_PASSIVE = 0)) ∧
      (x.chip = chip → Effect (.islChip t) s [] [] fun _ => True) ∧
      (x.chip ≠ chip → Effect (.islChip t) s [] [.frt] fun s' =>
        let gone := chip - x.chip - 1
        s'.isl.chip = chip ∧ s'.isl.n = 0 ∧ s'.isl.since = x.since + gone + 1 ∧
        (∀ h ∈ s'.isl.chips.take gone, h.fit = false) ∧
        (gone = 0 →
          s'.isl.lfsr = x.lfsr / 2 + ((x.lfsr ^^^ (x.lfsr / 4) ^^^ (x.lfsr / 8) ^^^ (x.lfsr / 32)) % 2) * 32768 ∧
          s'.isl.chips.tail = x.chips.take 15 ∧ s'.isl.chips.head?.map (·.sign) = some x.sign)) ∧
      (x.since < 4 → Effect (.islEstimate t) s [] [] fun _ => True) ∧
      (4 ≤ x.since →
        (x.chips.length < 16 ∨ (∃ h ∈ x.chips, h.fit = false) →
          Effect (.islEstimate t) s [F.ISL_STAT_Z_VALID] [.frt] fun s' =>
            s'.get F.ISL_STAT_Z_VALID = 0 ∧ s'.isl.since = x.since % 4 ∧ s'.isl.above = x.above ∧ s'.isl.below = x.below) ∧
        (16 ≤ x.chips.length → (∀ h ∈ x.chips, h.fit = true) →
          let z := s.zneg x.chips
          let zth := s.get F.ISL_ACT_CFG_ZTH
          let above := if zth < z then x.above + 1 else 0
          let below := if z < zth then x.below + 1 else 0
          let on := 2 ≤ above ∧ s.get F.ISL_STAT_ACTIVE = 0
          Effect (.islEstimate t) s
            [F.ISL_STAT_Z_VALID, F.ISL_ZNEG_Z, F.ISL_ZNEG_COUNT, F.ISL_STAT_ACTIVE, logFld] [.frt, .log] fun s' =>
            s'.get F.ISL_STAT_Z_VALID = 1 ∧ s'.get F.ISL_ZNEG_Z = z ∧
            s'.get F.ISL_ZNEG_COUNT = (s.get F.ISL_ZNEG_COUNT + 1) % 2 ^ F.ISL_ZNEG_COUNT.wd ∧
            s'.isl.since = x.since % 4 ∧ s'.isl.above = above ∧ s'.isl.below = below ∧
            s'.get F.ISL_STAT_ACTIVE = (if on then 1 else if 4 ≤ below then 0 else s.get F.ISL_STAT_ACTIVE) ∧
            s.Logs s' (if on then [(Ev.ISL_ACTIVE, noInst, [.w z])] else []))))

/-- Process-bus ports and sampled-value frames (R231, R232, R235, R236, R237, R239, R240, R241). -/
def Obligations.BusPortsAndSamples : Prop :=
  ∀ (t : Nat) (s : State), s.works domPBUS = true →
    let now := max s.now t
    let a := s.advance t
    (∀ port : Fin 4,
      let p := port.val / 2
      let ok := if port.val % 2 = 1 then F.PB_RED_STAT_B_OK p else F.PB_RED_STAT_A_OK p
      let ring := p = 0 ∧ s.get F.PB_CFG_MODE = 1
      let lost := if s.get ok = 1 then [(Ev.PB_LAN_LOST, noInst, [DItem.w p, .w (port.val % 2 : Nat)])] else []
      let open_ := if s.get (F.PB_RED_STAT_RING_OK 0) = 1 then [(Ev.PB_HSR_OPEN, noInst, [])] else []
      (∀ los, Effect (.pbLinkDown t port los) s
        ([F.PB_PORT_STAT_LINK port, F.PB_PORT_STAT_LOS port, ok, logFld] ++ if ring then [F.PB_RED_STAT_RING_OK 0] else [])
        [.log] fun s' =>
        s'.get (F.PB_PORT_STAT_LINK port) = 0 ∧ s'.get (F.PB_PORT_STAT_LOS port) = b2n los ∧ s'.get ok = 0 ∧
        (ring → s'.get (F.PB_RED_STAT_RING_OK 0) = 0) ∧
        s.Logs s' ((if s.get (F.PB_PORT_STAT_LINK port) = 1 then
          [(Ev.PB_LINK_DOWN, noInst, [.w port.val])] else []) ++ lost ++ if ring then open_ else [])) ∧
      (s.cageOk (16 + port.val) = false → Effect (.pbLinkUp t port) s [] [] fun _ => True) ∧
      (s.cageOk (16 + port.val) = true →
        Effect (.pbLinkUp t port) s [F.PB_PORT_STAT_LINK port, F.PB_PORT_STAT_LOS port, logFld] [.log] fun s' =>
          s'.get (F.PB_PORT_STAT_LINK port) = 1 ∧ s'.get (F.PB_PORT_STAT_LOS port) = 0 ∧
          s.Logs s' (if s.get (F.PB_PORT_STAT_LINK port) = 0 then [(Ev.PB_LINK_UP, noInst, [.w port.val])] else [])) ∧
      (∀ l, s.bus.lastRx.get port = some l →
        (now < l + 100 * uMs → Effect (.pbLanLost t port) s [] [] fun _ => True) ∧
        (l + 100 * uMs ≤ now → a.heard (p * 2 + (1 - port.val % 2)) = true →
          Effect (.pbLanLost t port) s [ok, logFld] [.log] fun s' => s'.get ok = 0 ∧ s.Logs s' lost)) ∧
      (s.get F.PB_CFG_MODE = 0 ∨ a.hsrFresh = true → Effect (.pbHsrOpen t) s [] [] fun _ => True) ∧
      (s.get F.PB_CFG_MODE = 1 → a.hsrFresh = false →
        Effect (.pbHsrOpen t) s [F.PB_RED_STAT_RING_OK 0, logFld] [.log] fun s' =>
          s'.get (F.PB_RED_STAT_RING_OK 0) = 0 ∧ s.Logs s' open_)) ∧
    (∀ f : SvFrame,
      let port := f.head.port.val
      let p := port / 2
      let sec := a.mtUnits / uS
      let rx := [F.PB_RED_STAT_A_OK p, F.PB_RED_STAT_B_OK p, F.PB_RED_STAT_WRONG_LAN p, logFld]
      let seen := f.head.rct.any fun x => a.seenSeq p f.head.src x.2
      let offered := (List.range 64).filter (s.svOffered f)
      (s.get (F.PB_PORT_STAT_LINK port) = 0 ∨ now < s.bus.downTo → Effect (.svFrameRx t f) s [] [] fun _ => True) ∧
      (s.get (F.PB_PORT_STAT_LINK port) = 1 → s.bus.downTo ≤ now →
        (f.head.fcsOk = false → Effect (.svFrameRx t f) s [F.PB_PORT_STAT_RX_ERR port] [] fun s' =>
          s'.get (F.PB_PORT_STAT_RX_ERR port) = s.plus (F.PB_PORT_STAT_RX_ERR port) 1) ∧
        (f.head.fcsOk = true → s.isHsr p = false ∨ f.head.src ≠ s.mac (R.PB_MAC_LO p) (R.PB_MAC_HI p) →
          (seen = true → Effect (.svFrameRx t f) s (F.PB_CNT_DUP_COUNT p :: rx) [.bus, .log] fun s' =>
            s'.get (F.PB_CNT_DUP_COUNT p) = s.plus (F.PB_CNT_DUP_COUNT p) 1) ∧
          (seen = false → ((s.bus.load.get p).1 = sec → (s.bus.load.get p).2 < 320000) →
            (offered = [] → Effect (.svFrameRx t f) s (F.PB_CNT_UNMATCHED_COUNT p :: rx) [.bus, .log] fun s' =>
              s'.get (F.PB_CNT_UNMATCHED_COUNT p) = s.plus (F.PB_CNT_UNMATCHED_COUNT p) 1) ∧
            (∀ j, offered = [j] →
              let x := s.svSub j
              let mine := f.head.src = s.mac (R.SV_SUB_SRC_LO j) (R.SV_SUB_SRC_HI j) ∧
                f.appId = s.get (F.SV_SUB_DST_HI_APPID j)
              let rev := ∀ d ∈ f.asdus, d.confRev = s.get (F.SV_SUB_CONFREV_CONFREV j)
              let shape := f.noAsdu = s.get (F.SV_SUB_CFG_NASDU j) + 1 ∧ f.asdus.length = f.noAsdu ∧
                ∀ d ∈ f.asdus, d.svId = x.svId ∧ d.chans.length = s.get (F.SV_SUB_CFG_NCH j) + 1
              let sync := ∀ d ∈ f.asdus, (d.smpSynch = 2 ∨ d.smpSynch = 1 ∧ s.get (F.SV_SUB_CFG_SYNCH_LOCAL j) = 1) ∧
                (d.gmId = none ∨ d.gmId = some (s.get64 R.PTP_GM_ID_LO R.PTP_GM_ID_HI))
              let clean := f.sim = false ∧ (s.get F.PB_CFG_SIM_ACCEPT = 0 ∨ s.get (F.SV_SUB_STAT_SIM j) = 0)
              (¬mine → Effect (.svFrameRx t f) s ([F.SV_SUB_CNT_CONFLICT_COUNT j, F.SV_SUB_STAT_CONFLICT j] ++ rx)
                [.bus, .log] fun s' =>
                s'.get (F.SV_SUB_CNT_CONFLICT_COUNT j) = s.plus (F.SV_SUB_CNT_CONFLICT_COUNT j) 1 ∧
                s'.get (F.SV_SUB_STAT_CONFLICT j) = 1 ∧
                (f.head.rct = none → s.Logs s' (if ∀ l, x.confAt = some l → l + 10 * uS ≤ now then
                  [(Ev.SV_CONFLICT, noInst, [.w j, .d f.head.src])] else []))) ∧
              (mine → f.sim = true → s.get F.PB_CFG_SIM_ACCEPT = 0 → Effect (.svFrameRx t f) s rx [.bus, .log] fun s' =>
                s'.svSub j = x) ∧
              (mine → clean → ¬(rev ∧ shape) →
                Effect (.svFrameRx t f) s ([F.SV_SUB_CNT_BAD_COUNT j, F.SV_SUB_STAT_CONFREV_BAD j, F.SV_SUB_STAT_SIM j] ++ rx)
                  [.bus, .log] fun s' =>
                  s'.get (F.SV_SUB_CNT_BAD_COUNT j) = s.plus (F.SV_SUB_CNT_BAD_COUNT j) 1 ∧
                  s'.get (F.SV_SUB_STAT_CONFREV_BAD j) = if rev then s.get (F.SV_SUB_STAT_CONFREV_BAD j) else 1) ∧
              (mine → clean → rev → shape → ¬sync →
                Effect (.svFrameRx t f) s ([F.SV_SUB_STAT_GM_MISMATCH j, F.SV_SUB_STAT_SIM j] ++ rx) [.bus, .log] fun s' =>
                  s'.get (F.SV_SUB_STAT_GM_MISMATCH j) = 1 ∧ (s'.svSub j).good = 0 ∧
                  (s'.svSub j).lastAt = x.lastAt) ∧
              (∀ d, mine → clean → rev → shape → sync → s.get F.TIME_STATUS_STATE ∈ [2, 3] →
                (∀ d ∈ f.asdus, d.smpCnt < s.svRate j) → f.asdus.getLast? = some d →
                Answers (.svFrameRx t f) s fun s' =>
                  s'.get (F.SV_SUB_CNT_GOOD_COUNT j) = s.plus (F.SV_SUB_CNT_GOOD_COUNT j) 1 ∧
                  s'.get (F.SV_SUB_STAT_SMPCNT j) = d.smpCnt % 2 ^ (F.SV_SUB_STAT_SMPCNT j).wd ∧
                  s'.get (F.SV_SUB_CNT_BAD_COUNT j) = s.get (F.SV_SUB_CNT_BAD_COUNT j) ∧
                  (s'.svSub j).lastAt = some now)))))) ∧
    (∀ (j : Fin 64) (l : Nat), (s.svSub j).lastAt = some l →
      let st := s.get (F.SV_SUB_STAT_STATE j)
      (st = 0 ∨ st = 4 ∨ now < l + uS → Effect (.svStreamLost t j) s [] [] fun _ => True) ∧
      (1 ≤ st ∧ st ≤ 3 → l + uS ≤ now →
        Effect (.svStreamLost t j) s [F.SV_SUB_STAT_STATE j, logFld] [.bus, .log] fun s' =>
          s'.get (F.SV_SUB_STAT_STATE j) = 4 ∧ (s'.svSub j).good = 0 ∧
          s.Logs s' [(Ev.SV_STREAM_LOST, noInst, [.w j.val])]))

/-- GOOSE frames received and what the module publishes (R231, R243, R244, R245, R246, R247, R248, R249, R252, R279). -/
def Obligations.GooseAndPublications : Prop :=
  ∀ (t : Nat) (s : State), s.works domPBUS = true →
    let now := max s.now t
    let a := s.advance t
    let isl := [R.ISL_STAT.all, R.ISL_DTT_TIME_LO.all, R.ISL_DTT_TIME_HI.all, logFld]
    (∀ (f : GooseFrame) (g : Nat),
      let p := f.head.port.val / 2
      let rx := [F.PB_RED_STAT_A_OK p, F.PB_RED_STAT_B_OK p, F.PB_RED_STAT_WRONG_LAN p, logFld]
      let seen := f.head.rct.any fun x => a.seenSeq p f.head.src x.2
      let vals := (s.gooseVals g).map fun v => (R.GOOSE_VAL_DATA v).all
      let ds := (f.stNum + 2 ^ 32 - s.get (F.GOOSE_SUB_STNUM_NUM g)) % 2 ^ 32
      s.get (F.PB_PORT_STAT_LINK f.head.port) = 1 → s.bus.downTo ≤ now → f.head.fcsOk = true → seen = false →
      s.isHsr p = false ∨ f.head.src ≠ s.mac (R.PB_MAC_LO p) (R.PB_MAC_HI p) →
      ((List.range 128).filter (s.gooseOffered f) = [] →
        Effect (.gooseFrameRx t f) s (F.PB_CNT_UNMATCHED_COUNT p :: rx) [.bus, .log] fun s' =>
          s'.get (F.PB_CNT_UNMATCHED_COUNT p) = s.plus (F.PB_CNT_UNMATCHED_COUNT p) 1) ∧
      ((List.range 128).filter (s.gooseOffered f) = [g] → s.get (F.GOOSE_SUB_CFG_SAFETY g) = 0 →
        (f.head.src ≠ s.mac (R.GOOSE_SUB_SRC_LO g) (R.GOOSE_SUB_SRC_HI g) ∨ f.appId ≠ s.get (F.GOOSE_SUB_DST_HI_APPID g) →
          Effect (.gooseFrameRx t f) s (F.GOOSE_SUB_STAT_CONFLICT g :: rx) [.bus, .log] fun s' =>
            s'.get (F.GOOSE_SUB_STAT_CONFLICT g) = 1) ∧
        (f.head.src = s.mac (R.GOOSE_SUB_SRC_LO g) (R.GOOSE_SUB_SRC_HI g) → f.appId = s.get (F.GOOSE_SUB_DST_HI_APPID g) →
          f.sim = false → s.get F.PB_CFG_SIM_ACCEPT = 0 →
          let fits := f.datSet = (s.gSub g).datSet ∧ f.confRev = s.get (F.GOOSE_SUB_CONFREV_CONFREV g) ∧
            f.entries = s.get (F.GOOSE_SUB_CFG_NMEM g) + 1
          (¬fits → Effect (.gooseFrameRx t f) s
            ([F.GOOSE_SUB_STAT_VALID g, F.GOOSE_SUB_STAT_CONFREV_BAD g] ++ rx ++ vals ++ isl) [.bus, .log] fun s' =>
            s'.get (F.GOOSE_SUB_STAT_VALID g) = 0 ∧ s'.get (F.GOOSE_SUB_STAT_CONFREV_BAD g) = 1 ∧
            ∀ v ∈ s.gooseVals g, s'.get (F.GOOSE_VAL_DATA_VALID v) = 0) ∧
          (fits → 2 ^ 31 < ds → s.get (F.GOOSE_SUB_STAT_VALID g) = 1 →
            Effect (.gooseFrameRx t f) s (F.GOOSE_SUB_STAT_OLD g :: rx) [.bus, .log] fun s' =>
              s'.get (F.GOOSE_SUB_STAT_OLD g) = s.plus (F.GOOSE_SUB_STAT_OLD g) 1) ∧
          (fits → 1 ≤ ds ∧ ds ≤ 2 ^ 31 ∨ s.get (F.GOOSE_SUB_STAT_VALID g) = 0 →
            Effect (.gooseFrameRx t f) s
              ([(R.GOOSE_SUB_STAT g).all, F.GOOSE_SUB_STNUM_NUM g, F.GOOSE_SUB_SQNUM_NUM g, (R.GOOSE_SUB_ARR_LO g).all,
                (R.GOOSE_SUB_ARR_HI g).all] ++ rx ++ vals ++ isl) [.bus, .log, .free] fun s' =>
              s'.get (F.GOOSE_SUB_STAT_VALID g) = 1 ∧ s'.get (F.GOOSE_SUB_STNUM_NUM g) = f.stNum % 2 ^ 32 ∧
              s'.get (F.GOOSE_SUB_SQNUM_NUM g) = f.sqNum % 2 ^ 32 ∧ s'.get (F.GOOSE_SUB_STAT_NDSCOM g) = b2n f.ndsCom ∧
              s'.get (F.GOOSE_SUB_STAT_TEST g) = b2n f.test ∧ (s'.gSub g).talEnd = now + f.tal * uMs ∧
              s'.get64 (R.GOOSE_SUB_ARR_LO g) (R.GOOSE_SUB_ARR_HI g) = a.mtNs ∧
              ∀ v ∈ s.gooseVals g,
                let good := f.ndsCom = false ∧ (f.test = false ∨ s.get F.PB_CFG_TEST_ACCEPT = 1) ∧
                  (s.get (F.GOOSE_VAL_MAP_QEN v) = 0 ∨ goodMember f.members[s.get (F.GOOSE_VAL_MAP_QMEM v)]? = true)
                (s'.get (F.GOOSE_VAL_DATA_VALID v) = 1 ↔ good) ∧
                ∀ x, good → gooseConv (s.get (F.GOOSE_VAL_MAP_TYPE v)) (s.get (F.GOOSE_VAL_MAP_DEC v))
                    f.members[s.get (F.GOOSE_VAL_MAP_MEM v)]? = some x →
                  s'.get (F.GOOSE_VAL_DATA_VALUE v) = codeOf 16 x)))) ∧
    (∀ g : Fin 128,
      let valid := s.get (F.GOOSE_SUB_STAT_VALID g)
      (valid = 0 ∨ now < (s.gSub g).talEnd → Effect (.gooseSubInvalid t g) s [] [] fun _ => True) ∧
      (valid = 1 → (s.gSub g).talEnd ≤ now →
        Effect (.gooseSubInvalid t g) s
          ((F.GOOSE_SUB_STAT_VALID g :: (s.gooseVals g).map fun v => (R.GOOSE_VAL_DATA v).all) ++ isl) [.log] fun s' =>
          s'.get (F.GOOSE_SUB_STAT_VALID g) = 0 ∧ ∀ v ∈ s.gooseVals g, s'.get (F.GOOSE_VAL_DATA_VALID v) = 0)) ∧
    (∀ (q : Fin 32) (n : Nat) (mem : List GMember),
      let x := s.bus.gpub.get q
      x.next = some n → x.vals = some mem →
      let on := s.get (F.GOOSE_PUB_CFG_EN q) = 1 ∧ (s.get F.VOTE_STATUS_VL1_OK = 1 ∨ s.get F.VOTE_STATUS_VL2_OK = 1) ∧
        s.lanesRun = true ∧ s.bus.downTo ≤ now
      (¬on ∨ now < n → Effect (.goosePubRepeat t q) s [] [] fun _ => True) ∧
      (on → n ≤ now →
        let ms := min (x.step * 2) (s.get (F.GOOSE_PUB_CFG_T0 q) * 100)
        let sq := (s.get (F.GOOSE_PUB_SQNUM_NUM q) + 1) % 2 ^ 32
        Effect (.goosePubRepeat t q) s [F.GOOSE_PUB_SQNUM_NUM q] [.bus] fun s' =>
          s'.get (F.GOOSE_PUB_SQNUM_NUM q) = sq ∧ (s'.bus.gpub.get q).step = ms ∧
          (s'.bus.gpub.get q).next = some (now + ms * uMs) ∧
          (s'.bus.gpub.get q).sent =
            some (GooseOut.mk now (s.get (F.GOOSE_PUB_STNUM_NUM q)) sq (max 4 (2 * ms)) mem
              (s.bus.txSeq.get (s.get (F.GOOSE_PUB_CFG_PAIR q)))))) ∧
    (∀ q : Fin 16,
      let x := s.bus.pub.get q
      let m := if s.get (F.SV_PUB_CFG_RATE q) = 1 then 6 else 2
      let rate := if s.get (F.SV_PUB_CFG_RATE q) = 1 then 14400 else 4800
      let on := s.get (F.SV_PUB_CFG_EN q) = 1 ∧ (s.get F.VOTE_STATUS_VL1_OK = 1 ∨ s.get F.VOTE_STATUS_VL2_OK = 1) ∧
        s.lanesRun = true ∧ s.bus.downTo ≤ now
      let lat := s.link.d * s.periodU + 10 * uUs
      let mt := a.mtUnits
      let at_ (n : Nat) : Nat := n / rate * uS + n % rate * uS / rate
      let frame := ((mt - lat) * rate / uS + 1) / m
      let last := frame * m - 1
      let synch := if s.get F.TIME_STATUS_TRACEABLE = 1 then 2 else if 2 ≤ s.get F.TIME_STATUS_STATE then 1 else 0
      (¬on → Effect (.svPubFrame t q) s [] [] fun _ => True) ∧
      (∀ l, on → x.lastTs = some l → mt < l →
        Effect (.svPubFrame t q) s [F.SV_PUB_STAT_PAUSED q, logFld] [.log] fun s' =>
          s'.get (F.SV_PUB_STAT_PAUSED q) = 1 ∧ s.Logs s' (if s.get (F.SV_PUB_STAT_PAUSED q) = 0 then
            [(Ev.SV_PUB_PAUSED, noInst, [.w q.val, .w ((l - mt) / uMs)])] else [])) ∧
      (on → lat ≤ mt → frame ≠ 0 → (∀ l, x.lastTs = some l → l ≤ mt ∧ l < at_ last) →
        Effect (.svPubFrame t q) s [(R.SV_PUB_STAT q).all] [.bus] fun s' =>
          s'.get (F.SV_PUB_STAT_PAUSED q) = 0 ∧ s'.get (F.SV_PUB_STAT_SMPSYNCH q) = synch ∧
          s'.get (F.SV_PUB_STAT_SMPCNT q) = last % rate ∧ (s'.bus.pub.get q).lastTs = some (at_ last) ∧
          (s'.bus.pub.get q).sent.map (fun o => (o.first, o.synch, o.asdus.length, o.confRev, o.gmId)) =
            some ((frame - 1) * m, synch, m, s.get (F.SV_PUB_CONFREV_CONFREV q),
              if s.get (F.SV_PUB_CFG_GMID q) = 1 then some (s.get64 R.PTP_GM_ID_LO R.PTP_GM_ID_HI) else none)))

/-- Metering windows, supervision, intervals and the copy in Crema (R259, R260, R262, R266, R267, R268, R270, R271). -/
def Obligations.MeteringWindowsAndIntervals : Prop :=
  ∀ (t : Nat) (s : State), s.works domPBUS = true →
    let now := max s.now t
    let utc := (s.advance t).utcSec
    let len : Int := s.mtrLen
    let next : Int := (utc / len + 1) * len
    (∀ m : PointIx,
      let x := s.mpt m
      let ilast := [F.MTR_PT_ILAST_FLAGS m, F.MTR_PT_ILAST_VOID_S m, F.MTR_PT_INOW_FLAGS m]
      let f := F.MTR_PT_STAT_N_MISSING m
      let energy (s : State) (r : Nat) : Nat := s.get64 (R.MTR_PT_E_LO m r) (R.MTR_PT_E_HI m r)
      (x.start = none ∨ x.endAt = none ∨ s.get (F.MTR_PT_CFG_EN m) = 0 →
        Effect (.mtrWindowEnd t m) s [] [] fun _ => True) ∧
      (∀ b e, x.start = some b → x.endAt = some e → s.get (F.MTR_PT_CFG_EN m) = 1 →
        let bad (rate : Nat) (l : List (Nat × List (Option Int))) (k : Nat) : Prop :=
          let f := fillChan rate (oldestOf l b) b e (chanOf l k)
          3 < f.2.1 ∨ (e - b) * rate / uS < f.2.2 * 100
        let void := (∃ k < (s.mtrChans m (R.MTR_PT_VCH m)).length, bad x.vRate x.vs k) ∨
          ∃ k < (s.mtrChans m (R.MTR_PT_ICH m)).length, bad x.iRate x.is_ k
        (void → Effect (.mtrWindowEnd t m) s ([F.MTR_PT_STAT_VALID m, F.MTR_PT_STAT_VOIDS m, F.MTR_PT_STAT_UNSYNC m,
            logFld] ++ ilast) [.mtr, .log] fun s' =>
          s'.get (F.MTR_PT_STAT_VALID m) = 0 ∧ s'.get (F.MTR_PT_STAT_VOIDS m) = s.plus (F.MTR_PT_STAT_VOIDS m) 1 ∧
          (s'.mpt m).start = some e ∧ (s'.mpt m).rem = x.rem ∧
          (x.closing = none → (s'.mpt m).int.void_ = x.int.void_ + (e - b))) ∧
        (¬void → x.rem.length = 7 → (∀ v ∈ x.rem, v < 2 ^ 20) →
          Effect (.mtrWindowEnd t m) s
            ([(R.MTR_PT_STAT m).all, (R.MTR_PT_SEQ m).all, logFld] ++ ilast ++
              (List.range 4).flatMap (fun k => [(R.MTR_PT_P m k).all, (R.MTR_PT_Q m k).all, (R.MTR_PT_S m k).all,
                (R.MTR_PT_VRMS m k).all, (R.MTR_PT_IRMS m k).all]) ++
              (List.range 3).map (fun k => (R.MTR_PT_THD m k).all) ++
              (List.range 7).flatMap (fun k => [(R.MTR_PT_E_LO m k).all, (R.MTR_PT_E_HI m k).all]) ++
              (List.range 512).map fun k => (R.MTR_HARM m k).all) [.mtr, .log] fun s' =>
            s'.get (F.MTR_PT_STAT_VALID m) = 1 ∧ (s'.mpt m).start = some e ∧
            (energy s' 0 = energy s 0 ∨ energy s' 1 = energy s 1) ∧
            (∀ i < 6, ∀ j < i, 2 ≤ j → energy s' i = energy s i ∨ energy s' j = energy s j))) ∧
      (∀ current,
        let n := if current then x.seqI else x.seqV
        let f := if current then F.MTR_PT_STAT_I_SEQ_WRONG m else F.MTR_PT_STAT_V_SEQ_WRONG m
        let turn := s.get f = 0 ∧ 5 ≤ n.1 ∨ s.get f = 1 ∧ 5 ≤ n.2
        (¬turn → Effect (.mtrSeqWrong t m current) s [] [] fun _ => True) ∧
        (turn → Effect (.mtrSeqWrong t m current) s [f, logFld] [.log] fun s' =>
          s'.get f = 1 - s.get f ∧
          s.Logs s' [(Ev.MTR_SEQ_WRONG, noInst, [.w m.val, .w (b2n current), .w (1 - s.get f)])])) ∧
      (s.get f = 0 → 5 ≤ x.neut.1 → Effect (.mtrNMissing t m) s [f, logFld] [.log] fun s' =>
        s'.get f = 1 ∧ s.Logs s' [(Ev.MTR_N_MISSING, noInst, [.w m.val])]) ∧
      (s.get f = 1 → 5 ≤ x.neut.2 → Effect (.mtrNMissing t m) s [f] [] fun s' => s'.get f = 0) ∧
      (s.get f = 0 ∧ x.neut.1 < 5 ∨ s.get f = 1 ∧ x.neut.2 < 5 → Effect (.mtrNMissing t m) s [] [] fun _ => True)) ∧
    (s.mtr.endUtc = none → Effect (.mtrIntervalClose t) s [] [.mtr] fun s' => s'.mtr.endUtc = some next) ∧
    (∀ e, s.mtr.endUtc = some e →
       (utc < e → Effect (.mtrIntervalClose t) s [] [] fun _ => True) ∧
       (e ≤ utc → Effect (.mtrIntervalClose t) s ([R.MTR_INT_SEQ_LO.all, R.MTR_INT_SEQ_HI.all] ++
           (List.range 9).flatMap fun m => [F.MTR_PT_ILAST_FLAGS m, F.MTR_PT_ILAST_VOID_S m, F.MTR_PT_INOW_FLAGS m])
         [.mtr] fun s' =>
         s'.mtr.endUtc = some next ∧ s'.get64 R.MTR_INT_SEQ_LO R.MTR_INT_SEQ_HI =
           (s.get64 R.MTR_INT_SEQ_LO R.MTR_INT_SEQ_HI + 1 + ((utc - e) / len).toNat) % 2 ^ 64)) ∧
    (now < s.mtr.saveAt + uS → Effect (.mtrAccSave t) s [] [] fun _ => True) ∧
    (s.mtr.saveAt + uS ≤ now → Effect (.mtrAccSave t) s [] [.mtr] fun s' =>
      s'.mtr.saveAt = now ∧ ∀ m < 9, s'.mtr.saved.get m =
        ((List.range 7).map fun r => s.get64 (R.MTR_PT_E_LO m r) (R.MTR_PT_E_HI m r), (s.mpt m).rem))

/-- Exclusion of a lane, HOLD and CEASED, voters and merge stages (R274, R277, R279, R284, R286, R287, R288). -/
def Obligations.LanesExcludedAndHeld : Prop :=
  ∀ (t : Nat) (s : State), s.works domVOTE = true →
    let a := s.advance t
    let once (f : Fld) (e : Nat × Nat × List DItem) : List (Nat × Nat × List DItem) := if s.flag f then [e] else []
    (∀ (l : LaneIx) (ecc : Bool) (mem : Nat), s.counted l = true →
      (ecc = true → s.works (domLANE l) = true) → (ecc = false → s.isOn (domLANE l) = false) →
      let cause : Nat := if ecc then 1 else 2
      let excls := a.mtUnits :: (s.lane l).excls.filter fun x => decide (a.mtUnits < x + 86400 * uS)
      (s.nCounted = 3 → s.mode = 0 →
        Effect (.laneExcluded t l ecc mem) s
          [F.LANE_STAT_STATE l, F.LANE_STAT_CAUSE l, F.LANE_STAT_EXCL24 l, (R.LANE_EXCL_LO l).all, (R.LANE_EXCL_HI l).all,
            F.LANE_STATUS_MODE, F.LANE_STATUS_COUNTED, F.CE_CNT_ECC_UNCORR, F.CE_STATUS_ECC_UNC, logFld] [.lanes, .log]
          fun s' =>
          s'.mode = 1 ∧ s'.get (F.LANE_STAT_CAUSE l) = cause ∧ s'.counted l = false ∧ s'.nCounted = 2 ∧
          s'.get64 (R.LANE_EXCL_LO l) (R.LANE_EXCL_HI l) = a.mtNs ∧
          s'.lstate l = (if s.get F.LANE_CFG_MAX_EXCL ≤ excls.length then 7 else 2) ∧
          (ecc = true → s'.get F.CE_STATUS_ECC_UNC = 1) ∧
          s.Logs s' ((if ecc then [(Ev.CE_ECC_UNCORR, noInst, [.w (l : Nat), .w mem])] else []) ++
            (Ev.LANE_EXCLUDED, noInst, [.w (l : Nat), .w cause]) ::
            if s.get F.LANE_CFG_MAX_EXCL ≤ excls.length then [(Ev.LANE_LOCKED, noInst, [.w (l : Nat)])] else [])) ∧
      (s.nCounted = 2 → s.mode = 1 → Answers (.laneExcluded t l ecc mem) s fun s' => s'.mode = 2)) ∧
    (s.mode = 2 → Effect (.laneCeased t) s
      [F.LANE_STATUS_MODE, F.LANE_STATUS_COUNTED, F.LANE_STAT_STATE 0, F.LANE_STAT_STATE 1, F.LANE_STAT_STATE 2, logFld]
      [.lanes, .log] fun s' =>
      s'.mode = 3 ∧ s'.nCounted = 0 ∧ s'.get F.LANE_STATUS_COUNTED = 0 ∧ s'.lanes.ceasedAt = max s.now t ∧
      s.Logs s' [(Ev.LANE_CEASED, noInst, [])]) ∧
    (s.mode ≠ 2 → Effect (.laneCeased t) s [] [] fun _ => True) ∧
    Effect (.voterFault t 0) s [F.VOTE_STATUS_VA_OK, logFld] [.log] (fun s' =>
      s'.get F.VOTE_STATUS_VA_OK = 0 ∧ s.Logs s' (once F.VOTE_STATUS_VA_OK (Ev.VOTER_FAULT, noInst, [.w (0 : Nat)]))) ∧
    Effect (.voterFault t 1) s [F.VOTE_STATUS_VB_OK, logFld] [.log] (fun s' =>
      s'.get F.VOTE_STATUS_VB_OK = 0 ∧ s.Logs s' (once F.VOTE_STATUS_VB_OK (Ev.VOTER_FAULT, noInst, [.w (1 : Nat)]))) ∧
    (s.get F.VOTE_STATUS_VL_ACTIVE = 0 → s.get F.VOTE_STATUS_VL1_OK = 1 → s.get F.VOTE_STATUS_VL2_OK = 1 →
      Effect (.voterFault t 2) s [F.VOTE_STATUS_VL1_OK, F.VOTE_STATUS_VL_ACTIVE, F.LANE_INTR_MAX_NS, F.LANE_INTR_CAUSE, logFld]
        [.free, .log] fun s' =>
        s'.get F.VOTE_STATUS_VL1_OK = 0 ∧ s'.get F.VOTE_STATUS_VL_ACTIVE = 1 ∧
        s.Logs s' [(Ev.VOTER_FAULT, noInst, [.w (2 : Nat)]), (Ev.VL_TAKEOVER, noInst, [])]) ∧
    (s.get F.VOTE_STATUS_VL_ACTIVE = 0 → Effect (.voterFault t 3) s [F.VOTE_STATUS_VL2_OK, logFld] [.log] fun s' =>
      s'.get F.VOTE_STATUS_VL2_OK = 0 ∧ s.Logs s' (once F.VOTE_STATUS_VL2_OK (Ev.VOTER_FAULT, noInst, [.w (2 : Nat)]))) ∧
    (∀ (r : RingIx) portB,
      let f : Fld := ⟨R.VOTE_MERGE, (if portB then 8 else 0) + r, 1⟩
      Effect (.mergeFault t r portB) s [f, logFld] [.log] fun s' =>
        s'.portLaunches r portB = false ∧ s'.ringState r = s.ringState r ∧
        s.Logs s' (once f (Ev.MERGE_FAULT, noInst, [.w (r : Nat), .w (b2n portB)]))) ∧
    (∀ u, s.works domCLK = true → s.clk.suspendAt = some u →
      (u + 256 * 40 * uNs ≤ max s.now t → s.flag (s.lockBit true) = true →
        Effect (.suspensionEnd t true) s [F.LANE_INTR_MAX_NS, F.LANE_INTR_CAUSE, logFld] [.clk, .log] fun s' =>
          s'.clk.suspendAt = none ∧ s'.clk.off = a.clk.off ∧
          s.Logs s' [(Ev.OUTPUT_SUSPEND, noInst, [.w ((max s.now t - u) / uNs)])]) ∧
      (max s.now t < u + 256 * 40 * uNs → Effect (.suspensionEnd t true) s [] [] fun _ => True) ∧
      Effect (.suspensionEnd t false) s [F.CLK_STATUS_LOCK_P, F.CLK_STATUS_LOCK_S] [] fun s' =>
        s'.get F.CLK_STATUS_LOCK_P = 0 ∧ s'.get F.CLK_STATUS_LOCK_S = 0)

/-- The steps of a lane's rejoin (R277, R282, R283, R284, R294). -/
def Obligations.LaneRejoins : Prop :=
  ∀ (t : Nat) (l : LaneIx) (s : State), s.works domVOTE = true → s.lanes.restart = none →
    let now := max s.now t
    let x := s.lane l
    let since := now - x.stepAt
    let failed := [F.LANE_STAT_STATE l, F.LANE_STAT_CAUSE l, F.LANE_STAT_EXCL24 l, F.LANE_STAT_FAIL_STEP l,
      (R.LANE_EXCL_LO l).all, (R.LANE_EXCL_HI l).all, logFld]
    let fails (s' : State) (step : Nat) : Prop :=
      (s'.lstate l = 2 ∨ s'.lstate l = 7) ∧ s'.get (F.LANE_STAT_FAIL_STEP l) = step ∧ s'.get (F.LANE_STAT_CAUSE l) = 3 ∧
      (s'.lane l).failAt = some now
    (s.lstate l = 2 → s.get F.LANE_CFG_AUTO_REJOIN = 1 → s.mode = 1 → s.isOn (domLANE l) = true →
      let due := (x.failAt.map (· + uS)).getD ((x.exclAt.map (· + uMs)).getD (now + 1))
      (due ≤ now → Effect (.laneRejoinStart t l) s [F.LANE_STAT_STATE l, F.LANE_COPY_ROUNDS l, logFld] [.lanes, .log] fun s' =>
        s'.lstate l = 3 ∧ s'.get (F.LANE_COPY_ROUNDS l) = 0 ∧ (s'.lane l).stepAt = now ∧
        s.Logs s' [(Ev.LANE_REJOIN_START, noInst, [.w (l : Nat)])]) ∧
      (now < due → Effect (.laneRejoinStart t l) s [] [] fun _ => True)) ∧
    (s.lstate l = 3 →
      (since ≤ 20 * uMs → Effect (.laneSelftestDone t l true) s [F.LANE_STAT_STATE l] [.lanes] fun s' =>
        s'.lstate l = 4 ∧ (s'.lane l).stepAt = now) ∧
      Effect (.laneSelftestDone t l false) s failed [.lanes, .log] (fun s' => fails s' 1) ∧
      (20 * uMs < since → Effect (.laneRejoinFail t l) s failed [.lanes, .log] fun s' => fails s' 1) ∧
      (since ≤ 20 * uMs → Effect (.laneRejoinFail t l) s [] [] fun _ => True)) ∧
    (s.lstate l = 4 →
      (since ≤ 5 * uMs → Effect (.laneLoadDone t l) s [F.LANE_STAT_STATE l, F.LANE_COPY_TOTAL l] [.lanes, .free] fun s' =>
        s'.lstate l = 5 ∧ s'.get (F.LANE_COPY_TOTAL l) ≤ 1536) ∧
      (5 * uMs < since → Effect (.laneLoadDone t l) s failed [.lanes, .log] fun s' => fails s' 2)) ∧
    (s.lstate l = 5 → s.clk.suspendAt = none → x.switchK = none →
      (∀ dirty, s.get (F.LANE_COPY_ROUNDS l) < 63 ∨ dirty ≤ s.swLim →
        Effect (.laneCopyRound t l dirty false) s [F.LANE_COPY_ROUNDS l, F.LANE_COPY_DIRTY l] [.lanes] fun s' =>
          s'.lstate l = 5 ∧ (s'.lane l).dirty = dirty ∧ (s'.lane l).copied = true ∧
          s'.get (F.LANE_COPY_ROUNDS l) = s.plus (F.LANE_COPY_ROUNDS l) 1) ∧
      (∀ dirty, 63 ≤ s.get (F.LANE_COPY_ROUNDS l) → s.swLim < dirty →
        Effect (.laneCopyRound t l dirty false) s (F.LANE_COPY_ROUNDS l :: F.LANE_COPY_DIRTY l :: failed) [.lanes, .log]
          fun s' => fails s' 3) ∧
      (s.mode = 1 → ∀ dirty, Answers (.laneCopyRound t l dirty true) s fun s' => s'.mode = 2) ∧
      (s.mode = 1 → s.link.frozen = true → x.copied = true →
        (x.dirty ≤ s.swLim → Effect (.laneSwitch t l) s [] [.lanes] fun s' => (s'.lane l).switchK = some s.link.cycle) ∧
        (s.swLim < x.dirty → Effect (.laneSwitch t l) s [] [] fun _ => True))) ∧
    (s.lstate l = 5 → s.clk.suspendAt.isSome = true → Effect (.laneSwitch t l) s [] [] fun _ => True) ∧
    (s.lstate l = 6 →
      (64 ≤ x.passes → Effect (.laneInService t l) s [F.LANE_STAT_STATE l] [] fun s' => s'.lstate l = 1) ∧
      (x.passes < 64 → Effect (.laneInService t l) s [] [] fun _ => True))

/-- LANE_CMD and the restart of the lanes (R277, R280, R282, R284, R294, R10). -/
def Obligations.LaneCommandsAndRestart : Prop :=
  ∀ (t : Nat) (s : State),
    let now := max s.now t
    let began (j : Nat) : Nat := if s.isOn (domLANE j) = true ∧ s.lstate j ≠ 7 then 3 else s.lstate j
    (∀ (n : SessIx) (l : Fin 4), s.isOn domMGMT = true → s.isOn domVOTE = true → (l : Nat) < 3 →
      let ok (cmd : Nat) : Prop := s.allows n R.LANE_CMD (BitVec.ofNat 32 (l % 4 + cmd % 4 * 4)) 0xFFFFFFFF = true
      let mismatch (i : Instr) : Prop := Effect i s [] [.mgmt] fun s' => (s'.sess n).status = .stateMismatch
      (ok 0 → Effect (.laneCmdNone t n l) s [R.LANE_CMD.all] [.mgmt] fun s' => (s'.sess n).status = .ok) ∧
      (ok 1 →
        (s.needLevel n 2 = .ok → s.mode = 0 → s.nCounted = 3 → s.counted l = true →
          Effect (.laneExclude t n l) s
            [R.LANE_CMD.all, F.LANE_STAT_STATE l, F.LANE_STAT_CAUSE l, F.LANE_STAT_EXCL24 l, (R.LANE_EXCL_LO l).all,
              (R.LANE_EXCL_HI l).all, F.LANE_STATUS_MODE, F.LANE_STATUS_COUNTED, logFld] [.mgmt, .lanes, .log] fun s' =>
            (s'.sess n).status = .ok ∧ s'.mode = 1 ∧ s'.counted l = false ∧ s'.get (F.LANE_STAT_CAUSE l) = 4) ∧
        (s.needLevel n 2 = .ok → s.mode ≠ 0 → mismatch (.laneExclude t n l)) ∧
        (s.needLevel n 2 = .accessDenied → s.mode = 0 → s.counted l = true →
          Effect (.laneExclude t n l) s [] [.mgmt] fun s' => (s'.sess n).status = .accessDenied)) ∧
      (ok 2 →
        (s.lstate l = 2 → s.mode = 1 → s.isOn (domLANE l) = true →
          Effect (.laneRejoin t n l) s [R.LANE_CMD.all, F.LANE_STAT_STATE l, F.LANE_COPY_ROUNDS l, logFld]
            [.mgmt, .lanes, .log] fun s' =>
            (s'.sess n).status = .ok ∧ s'.lstate l = 3 ∧ s.Logs s' [(Ev.LANE_REJOIN_START, noInst, [.w (l : Nat)])]) ∧
        (s.lstate l ≠ 2 → s.lstate l ≠ 7 → mismatch (.laneRejoin t n l)) ∧
        (s.lstate l = 7 → s.needLevel n 2 = .accessDenied → s.canRejoin l = true →
          Effect (.laneRejoin t n l) s [] [.mgmt] fun s' => (s'.sess n).status = .accessDenied)) ∧
      (ok 3 →
        (s.mode = 3 → s.lanes.restart = none →
          Effect (.laneRestart t n l) s [R.LANE_CMD.all, F.LANE_STAT_STATE 0, F.LANE_STAT_STATE 1, F.LANE_STAT_STATE 2]
            [.mgmt, .lanes] fun s' =>
            (s'.sess n).status = .ok ∧ s'.lanes.restart = some now ∧
            ∀ j < 3, s'.lstate j = began j) ∧
        (s.mode ≠ 3 → mismatch (.laneRestart t n l)))) ∧
    (s.works domVOTE = true → s.mode = 3 → s.get F.LANE_CFG_AUTO_RESTART = 1 → s.lanes.restart = none →
      (s.lanes.ceasedAt + uS ≤ now →
        Effect (.laneAutoRestart t) s [F.LANE_STAT_STATE 0, F.LANE_STAT_STATE 1, F.LANE_STAT_STATE 2] [.lanes] fun s' =>
          s'.lanes.restart = some now ∧ ∀ j < 3, s'.lstate j = began j) ∧
      (now < s.lanes.ceasedAt + uS → Effect (.laneAutoRestart t) s [] [] fun _ => True)) ∧
    (s.works domVOTE = true → s.mode = 3 → s.lanes.restart.isSome = true → ∀ pass : Fin 8,
      let ok := (List.range 3).filter fun l => s.lstate l == 3 && bit pass l
      let passed := (ok.map fun l => 2 ^ l).foldl (· + ·) 0
      (ok.length < 2 →
        Effect (.laneRestartDone t pass) s
          [F.LANE_STAT_STATE 0, F.LANE_STAT_STATE 1, F.LANE_STAT_STATE 2, F.LANE_STATUS_COUNTED, logFld] [.lanes, .log]
          fun s' => s'.mode = 3 ∧ s'.lanes.restart = none ∧ (∀ j < 3, s.lstate j = 3 → s'.lstate j = 2) ∧
            s.Logs s' [(Ev.LANE_RESTART, noInst, [.w passed])]) ∧
      (2 ≤ ok.length → Answers (.laneRestartDone t pass) s fun s' =>
        s'.mode = (if ok.length = 3 then 0 else 1) ∧ s'.lanes.restart = none ∧ (∀ j ∈ ok, s'.lstate j = 1) ∧
        s.Logs s' [(Ev.LANE_RESTART, noInst, [.w passed])]))

/-- POUR_BEGIN, POUR_ADD, POUR_COMMIT and POUR_ABORT (R295, R296, R297, R302, R308). -/
def Obligations.PoursBuiltAndSubmitted : Prop :=
  ∀ (t : Nat) (n : SessIx) (s : State), s.isOn domMGMT = true →
    let a := s.advance t
    let tells (st : Status) (c : Instr) : Prop := Effect c s [] [.mgmt] fun s' => (s'.sess n).status = st
    (∀ point zc req chain addr value mask id,
      ∀ c ∈ [Instr.pourBegin t n point zc req chain, .pourAdd t n addr value mask, .pourCommit t n, .pourAbort t n id],
      (s.isOn domVOTE = false → tells .domainOff c) ∧
      (s.isOn domVOTE = true → s.pourMay n = .version ∨ s.pourMay n = .accessDenied →
        (∀ k, s.freeSlot = some k → (s.sess n).pour = none → point.val < 3 → zc.val ≤ 8 →
          req ≤ a.mtNs + 86400 * 1000000000 → tells (s.pourMay n) c))) ∧
    (s.isOn domVOTE = true → s.pourMay n = .ok →
      (∀ (point : Fin 4) (zc : Fin 16) req chain,
        let c := Instr.pourBegin t n point zc req chain
        let good := point.val < 3 ∧ zc.val ≤ 8 ∧ req ≤ a.mtNs + 86400 * 1000000000
        let id := s.get F.POUR_NEXT_ID_ID
        ((s.sess n).pour ≠ none → s.freeSlot ≠ none → good → tells .stateMismatch c) ∧
        ((s.sess n).pour = none → s.freeSlot = none → good → tells .busy c) ∧
        ((s.sess n).pour = none → s.freeSlot ≠ none → ¬good → tells .badValue c) ∧
        (∀ k, (s.sess n).pour = none → s.freeSlot = some k → good →
          Effect c s [(R.POUR_SLOT_STAT k).all, (R.POUR_SLOT_CFG k).all, (R.POUR_SLOT_SEQ k).all, (R.POUR_SLOT_TC_LO k).all,
            (R.POUR_SLOT_TC_HI k).all, (R.POUR_SLOT_PROG k).all, (R.POUR_SLOT_FAIL k).all, (R.POUR_SLOT_UNCONF k).all,
            (R.POUR_SLOT_ID k).all, (R.POUR_SLOT_REQ_LO k).all, (R.POUR_SLOT_REQ_HI k).all, F.POUR_NEXT_ID_ID]
            [.mgmt, .pour] fun s' =>
            (s'.sess n).status = .ok ∧ (s'.sess n).value = BitVec.ofNat 32 id ∧ (s'.sess n).pour = some k ∧
            s'.get (F.POUR_SLOT_STAT_STATE k) = 1 ∧ s'.get (F.POUR_SLOT_STAT_SESSION k) = n ∧
            s'.get (F.POUR_SLOT_ID_ID k) = id ∧ s'.get (F.POUR_SLOT_CFG_POINT k) = point ∧
            s'.get (F.POUR_SLOT_CFG_NWRITES k) = 0 ∧ (s'.pslot k).writes = [] ∧
            s'.get F.POUR_NEXT_ID_ID = if id = 0xFFFF then 1 else id + 1)) ∧
      (∀ addr value mask,
        ((s.sess n).pour = none → tells .stateMismatch (.pourAdd t n addr value mask)) ∧
        (∀ k, (s.sess n).pour = some k →
          let w : PWrite := ⟨addr, value, mask⟩
          (decodeAddr addr = none → tells .badAddr (.pourAdd t n addr value mask)) ∧
          (s.pourJudge n k w ≠ .ok → tells (s.pourJudge n k w) (.pourAdd t n addr value mask)) ∧
          (s.pourJudge n k w = .ok →
            Effect (.pourAdd t n addr value mask) s [F.POUR_SLOT_CFG_NWRITES k] [.mgmt, .pour] fun s' =>
              (s'.sess n).status = .ok ∧ (s'.pslot k).writes = (s.pslot k).writes ++ [w] ∧
              s'.get (F.POUR_SLOT_CFG_NWRITES k) = ((s.pslot k).writes.length + 1) % 2 ^ 12))) ∧
      ((s.sess n).pour = none → tells .stateMismatch (.pourCommit t n)) ∧
      (∀ k, (s.sess n).pour = some k →
        ((s.pslot k).writes = [] → tells .badValue (.pourCommit t n)) ∧
        ((s.pslot k).writes ≠ [] →
          let num := s.pour.subs + 1
          Effect (.pourCommit t n) s [F.POUR_SLOT_STAT_STATE k, F.POUR_SLOT_SEQ_SUBMIT k, logFld] [.mgmt, .pour, .log]
            fun s' =>
            (s'.sess n).status = .ok ∧ (s'.sess n).value = BitVec.ofNat 32 num ∧ (s'.sess n).pour = none ∧
            s'.get (F.POUR_SLOT_STAT_STATE k) = 2 ∧ s'.get (F.POUR_SLOT_SEQ_SUBMIT k) = num % 2 ^ 32 ∧
            s'.pour.subs = num ∧
            s.Logs s' [(Ev.POUR_QUEUED, noInst, [.w (s.get (F.POUR_SLOT_ID_ID k)), .w k, .w n.val])])) ∧
      (∀ id,
        let hit (k : Nat) : Bool := s.get (F.POUR_SLOT_ID_ID k) == id && 1 ≤ s.pstat k && s.pstat k ≤ 4
        ((List.range 16).find? hit = none → tells .stateMismatch (.pourAbort t n id)) ∧
        (∀ k, (List.range 16).find? hit = some k →
          let own := s.get (F.POUR_SLOT_STAT_SESSION k) = n ∧ (s.pslot k).orphan = false
          (¬own → s.needLevel n 2 ≠ .ok → tells .accessDenied (.pourAbort t n id)) ∧
          (own ∨ s.needLevel n 2 = .ok →
            Effect (.pourAbort t n id) s ([(R.POUR_SLOT_STAT k).all, (R.POUR_SLOT_FAIL k).all, F.POUR_CNT_ABORTED, logFld] ++
              (s.pslot k).rings.map fun r => (R.RING_MBX_STAT r).all) [.mgmt, .pour, .link, .log] fun s' =>
              (s'.sess n).status = .ok ∧ s'.get (F.POUR_SLOT_STAT_STATE k) = 9 ∧
              s'.get (F.POUR_SLOT_STAT_RESULT k) = 2 ∧ s'.get (F.POUR_SLOT_STAT_STATUS k) = 0 ∧
              s'.get F.POUR_CNT_ABORTED = (s.get F.POUR_CNT_ABORTED + 1) % 2 ^ 16 ∧
              s.Logs s' [(Ev.POUR_ABORTED, noInst, [.w id, .w (2 : Nat), .w (0 : Nat), .w (0 : Nat)])]))))

/-- Checks, commit token, commit point and confirmation of Pours (R300, R301, R303, R304, R305, R306, R308, R309, R291). -/
def Obligations.PoursCheckedAndCommitted : Prop :=
  ∀ (t : Nat) (s : State), s.works domVOTE = true →
    let a := s.advance t
    let stat (k : Nat) : List Fld := [(R.POUR_SLOT_STAT k).all, (R.POUR_SLOT_FAIL k).all, F.POUR_CNT_ABORTED, logFld]
    let mbx (k : Nat) : List Fld := (s.pslot k).rings.map fun r => (R.RING_MBX_STAT r).all
    let tc (k : Nat) : List Fld := [(R.POUR_SLOT_TC_LO k).all, (R.POUR_SLOT_TC_HI k).all]
    let ends (c : Instr) (k result : Nat) (fs : List Fld) : Prop :=
      Effect c s (stat k ++ mbx k ++ fs) [.pour, .link, .log] fun s' =>
        s'.get (F.POUR_SLOT_STAT_STATE k) = 9 ∧ s'.get (F.POUR_SLOT_STAT_RESULT k) = result
    (∀ c ∈ [Instr.pourCheck t, .pourTokenGrant t], s.pourHead = none → Effect c s [] [] fun _ => True) ∧
    (∀ k, s.pourHead = some k →
      let x := s.pslot k
      let chained := s.get (F.POUR_SLOT_CFG_CHAIN k) = 1 ∧ ∃ p, x.prev = some p ∧ p ∈ s.pour.aborted
      let targets := s.targetsOf (s.afterCommitted.stagedSets (s.pourNew k) 0)
      (s.link.frozen = false ∨ s.pstat k ≠ 2 → Effect (.pourCheck t) s [] [] fun _ => True) ∧
      (s.link.frozen = true → s.pstat k = 2 →
        (s.lanesRun = false → Answers (.pourCheck t) s fun s' => s'.get (F.POUR_SLOT_STAT_STATE k) = 9 ∧
          s'.get (F.POUR_SLOT_STAT_RESULT k) = 8) ∧
        (s.lanesRun = true →
          (chained → ends (.pourCheck t) k 9 []) ∧
          (∀ st check w e, ¬chained → a.pourFail k = some (st, check, w, e) →
            Effect (.pourCheck t) s (stat k ++ mbx k) [.pour, .link, .log] fun s' =>
              s'.get (F.POUR_SLOT_STAT_STATE k) = 9 ∧ s'.get (F.POUR_SLOT_STAT_RESULT k) = 4 ∧
              s'.get (F.POUR_SLOT_STAT_STATUS k) = st.code ∧ s'.get (F.POUR_SLOT_FAIL_CHECK k) = check % 256 ∧
              s'.get (F.POUR_SLOT_FAIL_DETAIL k) = w % 65536) ∧
          (¬chained → a.pourFail k = none →
            (targets = [] → Effect (.pourCheck t) s [F.POUR_SLOT_STAT_STATE k] [.pour] fun s' =>
              s'.get (F.POUR_SLOT_STAT_STATE k) = 4) ∧
            (∀ e, targets ≠ [] → (match a.commitPoint k (a.mtUnits + s.get F.POUR_CFG_STAGE_MAX * uMs) with
                | .error r => some r
                | .ok _ => none) = some e →
              ends (.pourCheck t) k e []) ∧
            (∀ at_, targets ≠ [] → (a.commitPoint k (a.mtUnits + s.get F.POUR_CFG_STAGE_MAX * uMs)).toOption = some at_ →
              Effect (.pourCheck t) s ([(R.POUR_SLOT_STAT k).all, F.POUR_SLOT_CFG_NTARGETS k] ++ tc k ++
                (List.range 8).map fun r => (R.RING_MBX_STAT r).all) [.pour, .link] fun s' =>
                s'.get (F.POUR_SLOT_STAT_STATE k) = 3 ∧ s'.get (F.POUR_SLOT_STAT_TARGETS k) = 1 ∧
                s'.get64 (R.POUR_SLOT_TC_LO k) (R.POUR_SLOT_TC_HI k) = at_ / 8 % 2 ^ 64 ∧
                (s'.pslot k).stageAt = some a.mtUnits ∧ (s'.pslot k).confirm = s.get F.POUR_CFG_CONFIRM)))) ∧
      (s.link.begun = false ∨ s.link.frozen = true ∨ s.link.skip = true ∨ s.lanesRun = false →
        Effect (.pourTokenGrant t) s [] [] fun _ => True) ∧
      (s.link.begun = true → s.link.frozen = false → s.link.skip = false → s.lanesRun = true →
        let token (fs : List Fld) (s1 : State) : Prop :=
          Effect (.pourTokenGrant t) s ([F.POUR_SLOT_STAT_STATE k, F.VOTE_LEASE_TOKEN_HELD] ++ fs) [.pour] fun s' =>
            s'.get (F.POUR_SLOT_STAT_STATE k) = 5 ∧ s'.get F.VOTE_LEASE_TOKEN_HELD = 1 ∧
            (s'.pslot k).grant = some s1.link.cycle ∧ (s'.pslot k).lease = s1.tK + 2 * s1.periodU
        (x.stageAt = none → s.pstat k ≠ 4 → Effect (.pourTokenGrant t) s [] [] fun _ => True) ∧
        (x.stageAt = none → s.pstat k = 4 →
          (∀ at_, (a.commitPoint k (s.tK + 2 * s.periodU)).toOption = some at_ → token (tc k) s) ∧
          (∀ e, (match a.commitPoint k (s.tK + 2 * s.periodU) with
            | .error r => some r
            | .ok _ => none) = some e → ends (.pourTokenGrant t) k e [])) ∧
        (∀ st at_, x.stageAt = some st → x.tc = some at_ → s.pstat k = 3 ∨ s.pstat k = 4 →
          let g : Int := (at_ / s.periodU : Nat) - (s.link.d : Int) - 3
          ((s.link.cycle : Int) < g → Effect (.pourTokenGrant t) s [] [] fun _ => True) ∧
          (s.pstat k = 4 → (s.link.cycle : Int) = g → token [] s) ∧
          (g < s.link.cycle ∨ s.pstat k = 3 ∧ (s.link.cycle : Int) = g → ends (.pourTokenGrant t) k 6 [])))) ∧
    (let held := (List.range 16).find? fun k => s.pstat k == 5
     (held = none → ∀ c ∈ [Instr.pourCommitted t, .pourTokenExpired t], Effect c s [] [] fun _ => True) ∧
     (∀ k, held = some k →
       let x := s.pslot k
       let ready := s.lanesRun = true ∧ s.vlWorks = true ∧ s.link.frozen = true ∧ a.mtUnits ≤ x.lease
       (¬ready → Effect (.pourCommitted t) s [] [] fun _ => True) ∧
       (ready → Effect (.pourCommitted t) s (F.POUR_SLOT_STAT_STATE k :: F.VOTE_LEASE_TOKEN_HELD :: logFld :: mbx k)
         [.pour, .link, .eng, .log] fun s' =>
         s'.get (F.POUR_SLOT_STAT_STATE k) = 6 ∧ s'.get F.VOTE_LEASE_TOKEN_HELD = 0 ∧ s'.pour.lastTc = x.tc.getD 0 ∧
         s.Logs s' [(Ev.POUR_COMMITTED, noInst, [.w (s.get (F.POUR_SLOT_ID_ID k)), .d (x.tc.getD 0 / 8)])]) ∧
       (a.mtUnits < x.lease → Effect (.pourTokenExpired t) s [] [] fun _ => True) ∧
       (x.lease ≤ a.mtUnits → ends (.pourTokenExpired t) k (if s.lanesRun then 7 else 8)
         [F.VOTE_LEASE_TOKEN_HELD, F.VOTE_LEASE_CNT_TOKEN] ∧
         Answers (.pourTokenExpired t) s fun s' => s'.get F.VOTE_LEASE_TOKEN_HELD = 0 ∧
           s'.get F.VOTE_LEASE_CNT_TOKEN = s.plus F.VOTE_LEASE_CNT_TOKEN 1))) ∧
    (∀ e, (a.duePours = [] → Effect (.pourTakeEffect t e) s [] [] fun _ => True) ∧
      (∀ k, a.duePours = [k] → (∀ w ∈ (s.pslot k).writes, actsWrite w = false) →
        Answers (.pourTakeEffect t e) s fun s' => s'.get (F.POUR_SLOT_STAT_STATE k) = 7)) ∧
    (let over_ (k : Nat) : Bool := s.pstat k == 7 &&
      decide ((s.pslot k).tc.getD 0 + ((s.pslot k).confirm - 1) * s.periodU ≤ s.tK)
     ((s.bySeq ((List.range 16).filter over_)).head? = none ∨ s.link.frozen = false →
       Effect (.pourEffective t) s [] [] fun _ => True) ∧
     (∀ k, (s.bySeq ((List.range 16).filter over_)).head? = some k → s.link.frozen = true →
       Answers (.pourEffective t) s (fun s' =>
         s'.get (F.POUR_SLOT_STAT_STATE k) = 8 ∧ s'.get (F.POUR_SLOT_STAT_RESULT k) = 1) ∧
       ((∀ g ∈ (s.pslot k).targets, g.conf = true) → (s.pslot k).clus = [] →
       Effect (.pourEffective t) s [(R.POUR_SLOT_STAT k).all, F.POUR_CNT_EFFECTIVE, F.POUR_SLOT_UNCONF_CELLS k, logFld]
         [.pour, .log] fun s' =>
         s'.get (F.POUR_SLOT_STAT_STATE k) = 8 ∧ s'.get (F.POUR_SLOT_STAT_RESULT k) = 1 ∧
         s'.get (F.POUR_SLOT_UNCONF_CELLS k) = 0 ∧
         s'.get F.POUR_CNT_EFFECTIVE = (s.get F.POUR_CNT_EFFECTIVE + 1) % 2 ^ 16 ∧
         s.Logs s' [(Ev.POUR_EFFECTIVE, noInst, [.w (s.get (F.POUR_SLOT_ID_ID k)), .w (0 : Nat)])])))

/-- Records are staged, dropped into gaps, flushed and captured (R322, R324, R326, R327, R328, R331, R332, R345, R469). -/
def Obligations.RecordsStagedAndFlushed : Prop :=
  ∀ (t : Nat) (s : State),
    let a := s.advance t
    let now := max s.now t
    let seqOf (s : State) (m : Nat) : Nat := s.get64 (R.REC_STRM_SEQ_LO m) (R.REC_STRM_SEQ_HI m)
    let fits (n wm : Nat) : Bool := decide ((s.carafe.used + n) * 100 ≤ wm * (3520 * 1048576))
    let seqFlds (m : Nat) : List Fld := [(R.REC_STRM_SEQ_LO m).all, (R.REC_STRM_SEQ_HI m).all]
    let dropFlds (m : Nat) : List Fld := (R.REC_STRM_DROP m).all :: seqFlds m
    let inFlds (m : Nat) : List Fld := [F.REC_STATUS_STAGE_PCT, F.REC_STATUS_PEAK_PCT, F.REC_HEALTH_STAGE_HIGH,
      F.REC_STRM_DEC_RATE m] ++ seqFlds m
    let took (s' : State) (m : Nat) : Prop := seqOf s' m = (seqOf s m + 1) % 2 ^ 64
    let rec_ (m time flags : Nat) (payload : List Byte) : CRec :=
      { stream := m, typ := 0, flags := flags, seq := seqOf s m, time := time, count := 1, payload := payload, units := [],
        pair := 0, pseg := 0 }
    (∀ (m : Fin 64) time payload, 3 ≤ m.val → (∀ o, s.carafe.offered.find? (fun o => o.stream == m.val) = some o →
        o.time ≠ time ∨ o.payload ≠ payload) →
      Effect (.recRecordAdmit t m time payload) s [] [] fun _ => True) ∧
    (∀ (m : Fin 64) (o : Offer), 3 ≤ m.val → s.carafe.offered.find? (fun o => o.stream == m.val) = some o →
      let r := rec_ m o.time o.flags o.payload
      let left := s.carafe.offered.erase o
      let wm := s.watermark (s.strmPrio m)
      let x := s.strm m
      let dropped (s' : State) (cause : Nat) : Prop := took s' m ∧ s'.carafe.offered = left ∧ s'.carafe.staged = s.carafe.staged ∧
        s'.carafe.used = s.carafe.used ∧ s'.get (F.REC_STRM_DROP_TOTAL m) = s.plus (F.REC_STRM_DROP_TOTAL m) 1 ∧
        (s'.strm m).pend = some (match x.pend with
          | some (q, n, t0, _, c) => (q, n + 1, t0, o.time, c)
          | none => (seqOf s m, 1, o.time, o.time, cause))
      (s.works domDRAM = false →
        Effect (.recRecordAdmit t m o.time o.payload) s (dropFlds m) [.carafe] fun s' => dropped s' 3) ∧
      (s.works domDRAM = true → x.pend = none → fits r.size wm = false →
        Effect (.recRecordAdmit t m o.time o.payload) s (dropFlds m) [.carafe] fun s' => dropped s' 1) ∧
      (s.works domDRAM = true → x.pend = none → fits r.size wm = true →
        Answers (.recRecordAdmit t m o.time o.payload) s (fun s' => took s' m ∧ s'.carafe.used = s.carafe.used + r.size) ∧
        (s.recState ≠ 2 → Effect (.recRecordAdmit t m o.time o.payload) s (inFlds m) [.carafe] fun s' =>
          took s' m ∧ s'.carafe.offered = left ∧ s'.carafe.used = s.carafe.used + r.size ∧
          s'.carafe.staged = s.carafe.staged ++ [r])) ∧
      (∀ q n t0 t1 c, s.works domDRAM = true → s.recState ≠ 2 → x.pend = some (q, n, t0, t1, c) →
        fits 56 100 = true → fits (56 + r.size) wm = true →
        Effect (.recRecordAdmit t m o.time o.payload) s (F.REC_HEALTH_GAP :: F.REC_STRM_DROP_PENDING m :: logFld :: inFlds m)
          [.carafe, .log] fun s' =>
          took s' m ∧ (s'.strm m).pend = none ∧ s'.get (F.REC_STRM_DROP_PENDING m) = 0 ∧ s'.get F.REC_HEALTH_GAP = 1 ∧
          (∃ pay, pay.length = 24 ∧ s'.carafe.staged = s.carafe.staged ++
            [{ rec_ m t0 0 pay with typ := 1, seq := q, count := n }, r]) ∧
          s.Logs s' (if a.quiet x.gapAt uS = true then [(Ev.REC_GAP, noInst, [.w m.val, .w n, .w c])] else []))) ∧
    (∀ time payload, (∀ e ∈ s.log.offered.head?, e.time ≠ time ∨ e.bytes ≠ payload) →
      Effect (.recRecordAdmit t 0 time payload) s [] [] fun _ => True) ∧
    (∀ time payload, (∀ i ∈ s.mtr.offered.head?, i.time ≠ time ∨ i.bytes ≠ payload) →
      Effect (.recRecordAdmit t 1 time payload) s [] [] fun _ => True) ∧
    (∀ e l, s.log.offered = e :: l → s.works domDRAM = true → (s.strm 0).pend = none → s.recState ≠ 2 →
      let r := rec_ 0 e.time (e.flags % 4) e.bytes
      fits r.size 100 = true →
      Effect (.recRecordAdmit t 0 e.time e.bytes) s (inFlds 0) [.carafe, .log] fun s' =>
        took s' 0 ∧ s'.log = { s.log with offered := l } ∧ s'.carafe.staged = s.carafe.staged ++ [r]) ∧
    (∀ i l, s.mtr.offered = i :: l → s.works domDRAM = true → (s.strm 1).pend = none → s.recState ≠ 2 →
      let r := rec_ 1 i.time a.recFlags i.bytes
      fits r.size 100 = true →
      Effect (.recRecordAdmit t 1 i.time i.bytes) s (inFlds 1) [.carafe, .mtr] fun s' =>
        took s' 1 ∧ s'.mtr = { s.mtr with offered := l } ∧ s'.carafe.staged = s.carafe.staged ++ [r]) ∧
    (∀ time payload, Effect (.recRecordAdmit t 2 time payload) s [] [] fun _ => True) ∧
    (s.works domREC = true →
      (s.carafe.opened = none → Effect (.recFlushTimer t) s [] [] fun _ => True) ∧
      (∀ g o, s.carafe.opened = some (g, o) →
        (now < o.firstAt + s.get F.REC_CFG_FLUSH_MS * uMs → Effect (.recFlushTimer t) s [] [] fun _ => True) ∧
        (o.firstAt + s.get F.REC_CFG_FLUSH_MS * uMs ≤ now →
          Effect (.recFlushTimer t) s ((List.range 4).map fun d => (R.REC_DRV_FLIGHT d).all) [.carafe] fun s' =>
            s'.carafe.opened = none ∧ s'.carafe.staged = s.carafe.staged)) ∧
      (s.recState = 2 → s.carafe.ckptAt + 10 * uS ≤ now →
        Effect (.recCheckpoint t) s ((List.range 4).map fun d => (R.REC_DRV_FLIGHT d).all) [.carafe] fun s' =>
          s'.carafe.gen = s.carafe.gen + 1 ∧ s'.carafe.ckptAt = now ∧ s'.carafe.staged = s.carafe.staged ∧
          s'.carafe.units = s.carafe.units) ∧
      (s.recState ≠ 2 ∨ now < s.carafe.ckptAt + 10 * uS → Effect (.recCheckpoint t) s [] [] fun _ => True)) ∧
    (s.works domDRAM = true →
      let k := s.link.cycle
      Effect (.recCapEnd t) s recFlds [.carafe, .log] (fun _ => True) ∧
      (s.recState ≠ 2 → s.carafe.units = [] → (∀ c ∈ s.carafe.caps, c.issued < c.total) → (∀ d < 4, (s.cdrive d).copy = none) →
        Effect (.recCapEnd t) s [R.REC_CAP_STAT.all] [.carafe] fun s' =>
          s'.carafe.caps = s.carafe.caps.map fun c => if c.end_ ≤ k then { c with ended := true } else c) ∧
      (∀ c, s.recState ≠ 2 → s.carafe.units = [] → s.carafe.segs = [] → s.carafe.caps = [c] → c.end_ ≤ k →
        c.done = c.total → c.issued = c.total → c.seg = none → Answers (.recCapEnd t) s fun s' =>
          s'.carafe.caps = [] ∧ s'.get F.REC_CAP_LAST_CAP_ID = c.id % 2 ^ 24 ∧ s'.get F.REC_CAP_LAST_FLAGS = c.flags % 16 ∧
          s'.get F.REC_CAP_STAT_ACTIVE = 0 ∧ took s' 2)) ∧
    (∀ n : SessIx, s.isOn domMGMT = true →
      (s.isOn domDRAM = true → s.allows n R.REC_CAP_CMD 1 1 = true →
        Effect (.recCapSoftTrigger t n) s [R.REC_CAP_CMD.all] [.mgmt, .capAsk] fun s' =>
          (s'.sess n).status = .ok ∧ s'.capAsk = s.capAsk ++ [(a.mtUnits, 3, n.val)]) ∧
      (s.isOn domDRAM = false → Effect (.recCapSoftTrigger t n) s [] [.mgmt] fun s' => (s'.sess n).status = .domainOff) ∧
      (s.isOn domREC = true → Effect (.recStatusRead t n) s [F.REC_STATUS_PEAK_PCT] [.mgmt] fun s' =>
        (s'.sess n).status = .ok ∧ (s'.sess n).value = s.word R.REC_STATUS ∧
        s'.get F.REC_STATUS_PEAK_PCT = s.get F.REC_STATUS_STAGE_PCT) ∧
      (s.isOn domREC = false → Effect (.recStatusRead t n) s [] [.mgmt] fun s' => (s'.sess n).status = .domainOff))

/-- Drives are identified, complete commands, expire and fail (R291, R292, R293, R315, R316, R317, R318, R320, R329, R330, R336). -/
def Obligations.DrivesIdentifiedAndFailed : Prop :=
  ∀ (t : Nat) (s : State), s.works domREC = true →
    let now := max s.now t
    let mt := (s.advance t).mtUnits
    let idle := s.carafe.units = [] ∧ s.carafe.segs = [] ∧ s.carafe.caps = [] ∧ s.carafe.staged = [] ∧
      s.carafe.opened = none ∧ s.carafe.waiting = [] ∧ ∀ d < 4, (s.cdrive d).copy = none
    (∀ (d : DriveIx) (i : DriveId),
      let p := s.pairOf d
      let fs := [(R.REC_DRV_STAT d).all, (R.REC_DRV_NSEG d).all, F.REC_PAIR_STAT_STATE p, F.REC_STATUS_STATE,
        R.REC_HEALTH.all, logFld]
      (s.get (F.REC_DRV_CFG_EN d) = 0 → Effect (.driveIdentify t d i) s [] [] fun _ => True) ∧
      (s.get (F.REC_DRV_CFG_EN d) = 1 →
        (s.driveCause d i ≠ 0 → Effect (.driveIdentify t d i) s fs [.carafe, .log] fun s' =>
          s'.drvState d = 6 ∧ s'.get (F.REC_DRV_STAT_CAUSE d) = s.driveCause d i ∧ s'.get F.REC_HEALTH_DRIVE_FAULT = 1 ∧
          ∃ l, s.Logs s' (l ++ [(Ev.REC_DRIVE_REFUSED, noInst, [.w d.val, .w (s.driveCause d i)])])) ∧
        (s.driveCause d i = 0 → s.recState ≠ 2 → s.recState ≠ 3 →
          Effect (.driveIdentify t d i) s fs [.carafe, .log] fun s' =>
            s'.drvState d = (if i.super.isSome then 1 else 7) ∧ (s'.cdrive d).super = i.super ∧
            (s'.cdrive d).nseg = min i.bytes 16000000000000 / 67108864) ∧
        (∀ b, i.super = some b → s.driveCause d i = 0 → s.recState = 2 ∨ s.recState = 3 →
          some b.storeId ≠ s.carafe.storeId → Effect (.driveIdentify t d i) s fs [.carafe, .log] fun s' =>
            s'.drvState d = 6 ∧ s'.get (F.REC_DRV_STAT_CAUSE d) = 6))) ∧
    (∀ (d : DriveIx) (i : DriveId),
      (i.width = 0 → s.driveCause d i = 1) ∧
      (0 < i.width → i.mqes < 64 ∨ i.queues < 4 → s.driveCause d i = 2) ∧
      (0 < i.width → 64 ≤ i.mqes → 4 ≤ i.queues → i.nsOk = false → s.driveCause d i = 3) ∧
      (0 < i.width → 64 ≤ i.mqes → 4 ≤ i.queues → i.nsOk = true → i.bytes < 4 * 1073741824 → s.driveCause d i = 4)) ∧
    (∀ id ok status, s.carafe.cmds.any (fun c => c.id == id) = false →
      Effect (.nvmeCompletion t id ok status) s [] [] (fun _ => True) ∧
      Effect (.driveCmdLeaseExpired t id) s [] [] fun _ => True) ∧
    (∀ id ok status x, s.carafe.cmds.find? (fun c => c.id == id) = some x → x.drive < 4 →
      let d := x.drive
      let member := s.drvState d = 2 ∨ s.drvState d = 3
      let err := if x.use.io = .read then F.REC_DRV_ERR_READ d else F.REC_DRV_ERR_WRITE d
      let told (v : Nat) : List (Nat × Nat × List DItem) :=
        if x.use.io = .read then [] else [(Ev.REC_WRITE_ERROR, noInst, [.w d, .w v])]
      let again (s' : State) : Prop :=
        s'.drvState d = s.drvState d ∧ s'.get err = s.plus err 1 ∧
        ∃ y ∈ s'.carafe.cmds, y.drive = d ∧ y.use = x.use ∧ y.retried = true ∧ y.due = mt + 50 * uMs
      Effect (.nvmeCompletion t id ok status) s (F.VOTE_LEASE_CNT_LATE :: F.VOTE_LEASE_CNT_DRV :: recFlds) [.carafe, .log]
        (fun _ => True) ∧
      (x.abort = none → x.due ≤ mt → Answers (.nvmeCompletion t id ok status) s fun s' =>
        s'.get F.VOTE_LEASE_CNT_LATE = s.plus F.VOTE_LEASE_CNT_LATE 1 ∧
        s'.get F.VOTE_LEASE_CNT_DRV = s.plus F.VOTE_LEASE_CNT_DRV 1) ∧
      (x.abort.isSome = true → idle →
        Effect (.nvmeCompletion t id ok status) s [F.VOTE_LEASE_CNT_LATE, (R.REC_DRV_FLIGHT d).all, F.REC_STATUS_STATE,
          R.REC_HEALTH.all, R.REC_CAP_STAT.all] [.carafe] fun s' =>
          s'.get F.VOTE_LEASE_CNT_LATE = s.plus F.VOTE_LEASE_CNT_LATE 1 ∧
          s'.carafe.cmds = s.carafe.cmds.filter fun c => c.id != id) ∧
      (∀ u v g r, x.abort = none → mt < x.due → ok = true → x.use = .data u → s.carafe.units = [v] → v.id = u → v.sent = true →
        v.complete = false → v.cap = none → s.carafe.segs = [g] → g.id = v.seg → g.phase = 0 → g.pair < 4 → s.carafe.caps = [] →
        s.carafe.staged = [r] → r.units = [u] → d ∈ s.members g.pair → (∀ e ∈ s.members g.pair, e = d ∨ e ∈ v.done) →
        s.carafe.used = r.size →
        Answers (.nvmeCompletion t id ok status) s fun s' =>
          s'.carafe.staged = [] ∧ s'.carafe.stored = s.carafe.stored ++ [r] ∧ s'.carafe.used = 0) ∧
      (x.abort = none → mt < x.due → ok = false → idle → x.retried = false → member →
          ((s.carafe.cmds.filter fun c => c.id != id).filter fun c => c.drive == d && c.use.credit == x.use.credit).length <
            x.use.credit.slots →
        Effect (.nvmeCompletion t id ok status) s [(R.REC_DRV_FLIGHT d).all, err, F.REC_STATUS_STATE,
          R.REC_HEALTH.all, R.REC_CAP_STAT.all, logFld] [.carafe, .log] fun s' =>
          again s' ∧ s.Logs s' (told status)) ∧
      (x.abort = none → mt < x.due → ok = false → idle → x.retried = true → member →
        Effect (.nvmeCompletion t id ok status) s recFlds [.carafe, .log] fun s' =>
          s'.drvState d = 4 ∧ s'.get F.REC_HEALTH_DRIVE_FAULT = 1) ∧
      (x.abort.isSome = true ∨ mt < x.due → Effect (.driveCmdLeaseExpired t id) s [] [] fun _ => True) ∧
      (x.abort = none → x.due ≤ mt →
        Effect (.driveCmdLeaseExpired t id) s (F.VOTE_LEASE_CNT_DRV :: recFlds) [.carafe, .log] (fun s' =>
          s'.get F.VOTE_LEASE_CNT_DRV = s.plus F.VOTE_LEASE_CNT_DRV 1) ∧
        (idle → x.retried = false → member → s.credits d x.use.credit < x.use.credit.slots →
          Effect (.driveCmdLeaseExpired t id) s [F.VOTE_LEASE_CNT_DRV, (R.REC_DRV_FLIGHT d).all, (R.REC_DRV_ERR d).all,
            F.REC_STATUS_STATE, R.REC_HEALTH.all, R.REC_CAP_STAT.all, logFld] [.carafe, .log] fun s' =>
            again s' ∧ s'.get (F.REC_DRV_ERR_ABORT d) = s.plus (F.REC_DRV_ERR_ABORT d) 1 ∧
            (∃ y ∈ s'.carafe.cmds, y.id = id ∧ y.abort = some (now + 50 * uMs)) ∧
            s.Logs s' ((Ev.LEASE_EXPIRED, noInst, [.w (1 : Nat), .w d, .w (0xFF : Nat)]) :: told 0xFFFF)))) ∧
    (∀ d : DriveIx,
      let late (c : CCmd) : Bool := c.drive == d.val && (match c.abort with
        | some a => decide (a ≤ now)
        | none => false)
      (s.carafe.cmds.any late = false → Effect (.driveUnresponsive t d) s [] [] fun _ => True) ∧
      (s.carafe.cmds.any late = true →
        Effect (.driveUnresponsive t d) s (⟨R.VOTE_LEASE, 9 + d.val, 1⟩ :: recFlds) [.carafe, .log] (fun s' =>
          s'.get ⟨R.VOTE_LEASE, 9 + d.val, 1⟩ = 1) ∧
        (idle → Effect (.driveUnresponsive t d) s (⟨R.VOTE_LEASE, 9 + d.val, 1⟩ :: recFlds) [.carafe, .log] fun s' =>
          s'.drvState d = 5 ∧ s'.get F.REC_HEALTH_DRIVE_FAULT = 1 ∧ ∀ c ∈ s'.carafe.cmds, c.drive ≠ d.val))) ∧
    (∀ (d : DriveIx) pct crit temp,
      let due := (s.drvState d = 2 ∨ s.drvState d = 3) ∧ (s.advance t).quiet (s.cdrive d).smartAt (3600 * uS) = true
      let bad := crit.testBit 0 || crit.testBit 2 || crit.testBit 3
      (¬due → Effect (.recSmartPoll t d pct crit temp) s [] [] fun _ => True) ∧
      (due → bad = false → Effect (.recSmartPoll t d pct crit temp) s [(R.REC_DRV_SMART d).all] [.carafe] fun s' =>
        s'.get (F.REC_DRV_SMART_PCT_USED d) = min pct 255 ∧ s'.get (F.REC_DRV_SMART_CRIT d) = crit % 256 ∧
        s'.get (F.REC_DRV_SMART_TEMP d) = min temp 65535 ∧ (s'.cdrive d).smartAt = some now ∧
        s'.drvState d = s.drvState d) ∧
      (due → bad = true →
        Effect (.recSmartPoll t d pct crit temp) s recFlds [.carafe, .log] (fun s' =>
          s'.get (F.REC_DRV_SMART_CRIT d) = crit % 256) ∧
        (idle → Effect (.recSmartPoll t d pct crit temp) s recFlds [.carafe, .log] fun s' => s'.drvState d = 4)))

/-- REC_CMD and the mount (R322, R336, R338, R340, R341, R342, R345). -/
def Obligations.StoreCommandsAndMount : Prop :=
  ∀ (t : Nat) (s : State),
    let idle := s.carafe.units = [] ∧ s.carafe.segs = [] ∧ s.carafe.caps = [] ∧ s.carafe.staged = [] ∧
      s.carafe.opened = none ∧ s.carafe.waiting = [] ∧ ∀ d < 4, (s.cdrive d).copy = none
    (∀ (n : SessIx) (d : DriveIx), s.isOn domMGMT = true → s.isOn domREC = true →
      let ok (cmd : Nat) : Prop := s.allows n R.REC_CMD (BitVec.ofNat 32 (cmd % 8 + d % 4 * 8)) 0xFFFFFFFF = true
      let tells (st : Status) (i : Instr) : Prop := Effect i s [] [.mgmt] fun s' => (s'.sess n).status = st
      let fs := R.REC_CMD.all :: recFlds
      let flight := (List.range 4).map fun d => (R.REC_DRV_FLIGHT d).all
      let p := s.pairOf d
      let pn := (s.carafe.pair.get p).next
      let joins (i : Instr) : Prop := Effect i s fs [.mgmt, .carafe, .log] fun s' =>
        (s'.sess n).status = .ok ∧
        (s.copying p = false → pn = 0 ∨ 2 ≤ s.carafe.nseg ∧ s.get64 (R.REC_PAIR_OLDEST_LO p) (R.REC_PAIR_OLDEST_HI p) < pn →
          s'.drvState d = if pn = 0 then 2 else 3) ∧
        s'.carafe.gen = s.carafe.gen + 1
      (ok 0 → Effect (.recCmdNone t n d) s [R.REC_CMD.all] [.mgmt] fun s' => (s'.sess n).status = .ok) ∧
      (ok 1 →
        (s.recState ≠ 2 → Effect (.recSync t n d) s [R.REC_CMD.all] [.mgmt] fun s' => (s'.sess n).status = .ok) ∧
        (s.recState = 2 → Effect (.recSync t n d) s fs [.mgmt, .carafe, .log] fun s' => (s'.sess n).status = .ok) ∧
        (s.recState = 2 → idle → (List.range 4).any (fun p => !(s.members p).isEmpty) = true →
          Effect (.recSync t n d) s ([R.REC_CMD.all, R.REC_STATUS.all, R.REC_CAP_STAT.all] ++ flight) [.mgmt, .carafe]
            fun s' => (s'.sess n).status = .ok ∧ s'.recState = 4 ∧ s'.carafe.gen = s.carafe.gen + 1)) ∧
      (ok 2 →
        (s.needLevel n 2 = .ok → s.exports = 0 → s.carafe.caps = [] → s.carafe.staged = [] →
          Effect (.recFormat t n d) s fs [.mgmt, .carafe, .log, .free] fun s' =>
            (s'.sess n).status = .ok ∧ s'.carafe.storeId = some (s.freeVal % 2 ^ 64) ∧ s'.carafe.stored = [] ∧
            s'.carafe.layout = s.get F.REC_CFG_LAYOUT ∧ s'.carafe.gen = 1 ∧
            ∀ e < 4, s.drvState e = 2 ∨ s.drvState e = 7 → s'.carafe.x4Ports = 0 → s'.carafe.layout = 0 →
              s'.drvState e = 2) ∧
        (s.needLevel n 2 = .ok → 0 < s.exports ∨ s.carafe.caps ≠ [] → tells .busy (.recFormat t n d)) ∧
        (s.needLevel n 2 = .accessDenied → s.exports = 0 → s.carafe.caps = [] → tells .accessDenied (.recFormat t n d))) ∧
      (ok 3 →
        let foreign := s.drvState d = 6 ∧ s.get (F.REC_DRV_STAT_CAUSE d) = 6 ∧ s.canAdd d = true
        (s.needLevel n 2 = .ok → foreign → joins (.recAdopt t n d)) ∧
        (s.needLevel n 2 = .ok → ¬foreign → tells .stateMismatch (.recAdopt t n d)) ∧
        (s.needLevel n 2 = .accessDenied → foreign → tells .accessDenied (.recAdopt t n d))) ∧
      (ok 4 →
        Effect (.recRemove t n d) s fs [.mgmt, .carafe, .log] (fun s' => (s'.sess n).status = .ok) ∧
        (idle → Effect (.recRemove t n d) s fs [.mgmt, .carafe, .log] fun s' => s'.drvState d = 4)) ∧
      (ok 5 →
        (s.drvState d = 7 → s.canAdd d = true → joins (.recAdd t n d)) ∧
        (s.drvState d ≠ 7 ∨ s.canAdd d = false → tells .stateMismatch (.recAdd t n d)))) ∧
    (s.works domREC = true →
      (s.recState ≠ 1 → Effect (.recMounted t) s [] [] fun _ => True) ∧
      (s.recState = 1 → Effect (.recMounted t) s recFlds [.carafe, .log, .free] fun s' =>
        s'.recState = 2 ∨ s'.recState = 3) ∧
      (s.recState = 1 → s.carafe.storeId = none → s.drvState 0 = 1 →
        Answers (.recMounted t) s fun s' => s'.get F.REC_STATUS_SEQ_RESTORED = 1))

/-- The wear engine's updates, evaluations, days and commands (R346, R348, R350, R351, R352, R353, R354, R355, R356, R357, R359, R362). -/
def Obligations.WearEngine : Prop :=
  ∀ (t : Nat) (s : State),
    let a := s.advance t
    let now := max s.now t
    let cells := s.wearCells
    let opsec (s : State) : Nat := s.get64 R.TIME_OPSEC_LO R.TIME_OPSEC_HI
    (s.works domVOTE = true →
      (∀ mismatch,
        let due := s.get F.WEAR_CFG_EN = 1 ∧ s.vlWorks = true ∧ s.link.frozen = true ∧ s.wear.updK + max 1 (s.get F.WEAR_CFG_UPD) ≤ s.link.cycle
        (¬due → Effect (.wearModelUpdate t mismatch) s [] [] fun _ => True) ∧
        (due → Effect (.wearModelUpdate t mismatch) s (F.WEAR_STATUS_FAULT :: F.WEAR_STATUS_SUSPENDED :: logFld ::
            cells.flatMap fun k => [F.WEAR_CELL_STAT_MODEL k, (R.WEAR_CELL_TJ k).all, (R.WEAR_CELL_D0_LO k).all,
              (R.WEAR_CELL_D0_HI k).all, (R.WEAR_CELL_D1_LO k).all, (R.WEAR_CELL_D1_HI k).all]) [.wear, .log] fun s' =>
          s'.wear.updK = s.link.cycle ∧
          (∀ k ∈ cells, s'.get (F.WEAR_CELL_STAT_MODEL k) = 1 ∧ s.damage k 0 ≤ s'.damage k 0 ∧ s.damage k 1 ≤ s'.damage k 1) ∧
          (mismatch = true → s'.get F.WEAR_STATUS_FAULT = 1 ∧ s'.get F.WEAR_STATUS_SUSPENDED = 1) ∧
          s.Logs s' (if mismatch then [(Ev.WEAR_ENGINE_FAULT, noInst, [])] else []))) ∧
      (∀ k : CellIx,
        let x := s.wcell k
        let due := x.model = true ∧ s.cellState k = 5 ∧ s.lineCycles ≤ x.cycles
        (¬due → Effect (.wearCapEstimate t k) s [] [] fun _ => True) ∧
        (due → Effect (.wearCapEstimate t k) s [] [.wear] fun s' =>
          let c := capEstimate x.samples (s.period * 4)
          (s'.wcell k).samples = [] ∧ (s'.wcell k).cycles = 0 ∧ (s'.wcell k).cDay = c.toList ++ x.cDay ∧ (c.isSome = true → (s'.wcell k).cLast = c))) ∧
      (∀ k : CellIx,
        let x := s.wcell k
        (∀ u, x.failAt = some u → x.failLog = false → u + 86400 * uS ≤ now →
          Effect (.wearRecordFail t k) s [logFld] [.wear, .log] fun s' =>
            (s'.wcell k).failLog = true ∧ s.Logs s' [(Ev.WEAR_RECORD_FAIL, k.val, [.w k.val])]) ∧
        (x.failAt = none ∨ x.failLog = true → Effect (.wearRecordFail t k) s [] [] fun _ => True) ∧
        (∀ u, x.failAt = some u → now < u + 86400 * uS → Effect (.wearRecordFail t k) s [] [] fun _ => True)) ∧
      (∀ tcxo rtc,
        let today := a.utcSec / 86400
        let fs := logFld :: cells.flatMap fun k => [(R.WEAR_CELL_CAP k).all, (R.WEAR_CELL_ESR k).all]
        let bad : Bool := match rtc with
          | some v => decide ((2000 : Int) ≤ v ∨ v ≤ -2000)
          | none => s.wear.driftLow
        (s.wear.day = none → Effect (.wearDaily t tcxo rtc) s [] [.wear] fun s' => s'.wear.day = some today) ∧
        (∀ d, s.wear.day = some d →
          (today ≤ d → Effect (.wearDaily t tcxo rtc) s [] [] fun _ => True) ∧
          (d < today → Effect (.wearDaily t tcxo rtc) s fs [.wear, .log] fun s' =>
            s'.wear.day = some today ∧
            s.Logs s' (if bad && !s.wear.driftLow then [(Ev.WEAR_RTC_DRIFT, noInst, [.w (rtc.getD 0)])] else []) ∧
            (cells.Nodup → ∀ k ∈ cells, (s'.wcell k).cDay = [] ∧ (s'.wcell k).esrDay = [] ∧
              (s'.wcell k).cDaily = dailyValue d (s.wcell k).cDay (s.wcell k).cDaily ∧
              (s'.wcell k).esrDaily = dailyValue d (s.wcell k).esrDay (s.wcell k).esrDaily)))) ∧
      (let hour := opsec a.countLife / 3600
       let skip := hour = s.wear.hour ∨ s.get F.WEAR_CFG_EN = 0
       let fs := [R.TIME_OPSEC_LO.all, R.TIME_OPSEC_HI.all, F.WEAR_STATUS_RET_24H, F.WEAR_STATUS_EVALS,
         R.WEAR_LAST_EVAL_LO.all, R.WEAR_LAST_EVAL_HI.all, R.WEAR_MOD_LIFE.all, R.WEAR_MOD_PART.all, logFld] ++
         ((List.range 8).flatMap fun p => [(R.WEAR_PART_LIFE p).all, (R.WEAR_PART_VAL p).all]) ++
         ((List.range 8).map fun r => (R.RING_MBX_STAT r).all) ++
         cells.flatMap fun k => [(R.WEAR_CELL_STAT k).all, (R.WEAR_CELL_LIFE k).all, (R.WEAR_CELL_RS k).all, (R.WEAR_CELL_RF k).all]
       (skip → Effect (.wearEvaluation t) s [R.TIME_OPSEC_LO.all, R.TIME_OPSEC_HI.all] [.clk] fun s' =>
         opsec s' = opsec a.countLife) ∧
       (¬skip → Answers (.wearEvaluation t) s fun s' =>
         s'.wear.hour = hour ∧ s'.get F.WEAR_STATUS_EVALS = (s.get F.WEAR_STATUS_EVALS + 1) % 65536 ∧
         s'.get64 R.WEAR_LAST_EVAL_LO R.WEAR_LAST_EVAL_HI = a.mtNs ∧
         (∀ p < 8, s'.get F.WEAR_MOD_LIFE_HOURS ≤ s'.get (F.WEAR_PART_LIFE_HOURS p)) ∧
         ∃ p < 8, s'.get F.WEAR_MOD_PART_PART = p ∧ s'.get F.WEAR_MOD_LIFE_HOURS = s'.get (F.WEAR_PART_LIFE_HOURS p)) ∧
       (¬skip → s.get F.WEAR_STATUS_SUSPENDED = 1 → Effect (.wearEvaluation t) s fs [.clk, .wear, .log, .link] fun s' =>
         cells.Nodup → ∀ k ∈ cells, (s.wcell k).unread = [] → 2 ^ 48 ≤ s.damage k 0 ∨ 2 ^ 48 ≤ s.damage k 1 →
           s'.get (F.WEAR_CELL_LIFE_HOURS k) = 0 ∧ s'.get (F.WEAR_CELL_STAT_VALID k) = 1 ∧
           (s'.get (F.WEAR_CELL_STAT_URGENT k) = 1 ↔ s.cellState k = 4 ∨ s.cellState k = 5 ∨ s.cellState k = 6)))) ∧
    (∀ (n : SessIx) (value mask : Word), s.isOn domMGMT = true →
      (s.isOn domVOTE = false →
        Effect (.wearFaultClear t n value mask) s [] [.mgmt] (fun s' => (s'.sess n).status = .domainOff) ∧
        Effect (.wearRfSelect t n value mask) s [] [.mgmt] fun s' => (s'.sess n).status = .domainOff) ∧
      (s.isOn domVOTE = true → s.allows n R.WEAR_STATUS value mask = true →
        let hit := value &&& mask
        (hit &&& 3#32 = 0#32 ∨ s.needLevel n 2 = .ok →
          Effect (.wearFaultClear t n value mask) s [F.WEAR_STATUS_FAULT, F.WEAR_STATUS_MATRIX_PARTIAL,
            F.WEAR_STATUS_SUSPENDED] [.mgmt] fun s' =>
            (s'.sess n).status = .ok ∧
            (hit.getLsbD 0 = true → s'.get F.WEAR_STATUS_FAULT = 0 ∧ s'.get F.WEAR_STATUS_SUSPENDED = 0) ∧
            (hit.getLsbD 0 = false → s'.get F.WEAR_STATUS_FAULT = s.get F.WEAR_STATUS_FAULT) ∧
            (hit.getLsbD 1 = true → s'.get F.WEAR_STATUS_MATRIX_PARTIAL = 0)) ∧
        (hit &&& 3#32 ≠ 0#32 → s.needLevel n 2 = .accessDenied →
          Effect (.wearFaultClear t n value mask) s [] [.mgmt] fun s' => (s'.sess n).status = .accessDenied)) ∧
      (s.isOn domVOTE = true → s.allows n R.WEAR_RF_SEL value mask = true →
        Effect (.wearRfSelect t n value mask) s (R.WEAR_RF_SEL.all :: (List.range 256).map fun i =>
          (R.WEAR_RF (i / 16) (i % 16)).all) [.mgmt] fun s' =>
          (s'.sess n).status = .ok ∧ s'.word R.WEAR_RF_SEL = s.written R.WEAR_RF_SEL value mask ∧
          ∀ i < 256, s'.word (R.WEAR_RF (i / 16) (i % 16)) =
            BitVec.ofNat 32 ((s.wear.matrix.get (s'.get F.WEAR_RF_SEL_CELL)).get i)))

/-- The safety island's self-test, evaluation, reset and tokens (R364, R365, R370, R372, R374, R375, R377, R378, R385, R389). -/
def Obligations.IslandStatesAndTokens : Prop :=
  ∀ (t : Nat) (s : State), s.works domSAFE = true →
    let a := s.advance t
    let now := max s.now t
    let x := s.safe
    let st := s.get F.SAFE_STATE_STATE
    let setFlds := [R.SAFE_STATE.all, R.SAFE_PARAM_ID.all, R.SAFE_PARAM_SIG.all, R.SAFE_TSEQ.all, logFld] ++
      ((List.range 32).map fun i => (R.SAFE_ENABLE (i / 4) (i % 4)).all) ++
      ((List.range 4).map fun c => (R.SAFE_CONS_STAT c).all) ++ ((List.range 2).map fun q => F.SAFE_PROD_STAT_EN q)
    let causeFlds := [R.SAFE_CAUSE.all, R.SAFE_CNT.all, R.SAFE_DEMAND_T_LO.all, R.SAFE_DEMAND_T_HI.all]
    let off (s' : State) : Prop := s'.get F.SAFE_STATE_STATE = 4 ∧ s'.get F.SAFE_STATE_OUT_A = 0 ∧
      s'.get F.SAFE_STATE_OUT_B = 0 ∧ s'.get F.SAFE_STATE_ENABLING = 0
    (∀ pass, st ≠ 0 → Effect (.safeSelftestDone t pass) s [] [] fun _ => True) ∧
    (st = 0 →
      Effect (.safeSelftestDone t false) s (causeFlds ++ [R.SAFE_STATE.all, R.SAFE_TSEQ.all, logFld]) [.safe, .log, .free]
        fun s' => off s' ∧ (s'.get F.SAFE_CAUSE_NOW).testBit 6 = true ∧ (s'.get F.SAFE_CAUSE_LATCH).testBit 6 = true ∧
          s'.get64 R.SAFE_DEMAND_T_LO R.SAFE_DEMAND_T_HI = a.mtNs) ∧
    (∀ l, st = 0 → x.held = some l → x.internal = false → x.badParam = false → x.step1 = false →
      Effect (.safeSelftestDone t true) s setFlds [.safe, .log] fun s' =>
        s'.get F.SAFE_STATE_STATE = 1 ∧ s'.get F.SAFE_STATE_OUT_A = 0 ∧ s'.get F.SAFE_STATE_OUT_B = 0 ∧
        s'.safe.param = l ∧ s'.safe.held = none ∧ s'.get F.SAFE_PARAM_ID_ID = leAt l 8 4 ∧
        s'.get F.SAFE_PARAM_SIG_SIG = leAt l 232 4) ∧
    (∀ differ oscOff backA backB,
      let due := st ≠ 0 ∧ a.quiet x.evalAt (250 * uUs) = true
      let armed := decide (st = 3)
      (¬due → Effect (.safeEvaluation t differ oscOff backA backB) s [] [] fun _ => True) ∧
      (due → Effect (.safeEvaluation t differ oscOff backA backB) s (causeFlds ++ setFlds) [.safe, .log, .free] fun s' =>
        let c := s'.get F.SAFE_CAUSE_NOW
        (c.testBit 0 = true ↔ st ≠ 1 ∧ (s.get F.SAFE_INPUTS_DOOR_A = 0 ∨ s.get F.SAFE_INPUTS_DOOR_B = 0)) ∧
        (c.testBit 1 = true ↔ s.get F.SAFE_INPUTS_ESTOP_A = 0 ∨ s.get F.SAFE_INPUTS_ESTOP_B = 0) ∧
        (c.testBit 2 = true ↔ ∃ k < 4, x.consEn k = true ∧
          (s.get (F.SAFE_CONS_STAT_STATE k) ≠ 2 ∨ s.get (F.SAFE_CONS_STAT_PERMIT k) = 0)) ∧
        (c.testBit 3 = true ↔ x.disc ≠ []) ∧ c.testBit 4 = x.tpBad ∧
        (c.testBit 5 = true ↔ backA ≠ armed ∨ backB ≠ armed ∨ x.outBad = true) ∧
        (c.testBit 6 = true ↔ x.internal = true ∨ oscOff = true ∨ differ = true ∧ 1 ≤ x.disagree) ∧
        c.testBit 7 = x.badParam ∧ c.testBit 8 = x.stuck ∧
        s'.get F.SAFE_CAUSE_LATCH = s.get F.SAFE_CAUSE_LATCH ||| c ∧
        (st = 2 ∨ st = 3 → c ≠ 0 → off s' ∧ s'.get64 R.SAFE_DEMAND_T_LO R.SAFE_DEMAND_T_HI = a.mtNs) ∧
        (c = 0 ∨ st = 1 ∨ st = 4 → s'.get F.SAFE_STATE_STATE = st))) ∧
    (s.get F.SAFE_INPUTS_RESET = 0 → Effect (.safeResetPulse t) s [] [] fun _ => True) ∧
    (∀ rise seen, s.get F.SAFE_INPUTS_RESET = 1 → x.pulse = some (rise, seen) →
      let bad := seen ||| s.safeCauses (decide (s.get F.SAFE_STATE_OUT_A ≠ b2n (st = 3)))
      let len := now - rise
      let low (s' : State) : Prop := s'.get F.SAFE_INPUTS_RESET = 0 ∧ s'.safe.pulse = none ∧ s'.safe.stuck = false
      (len < 200 * uMs → Effect (.safeResetPulse t) s [F.SAFE_INPUTS_RESET] [.safe] low) ∧
      (5000 * uMs < len → Effect (.safeResetPulse t) s [F.SAFE_INPUTS_RESET, logFld] [.safe, .log] fun s' =>
        low s' ∧ s.Logs s' [(Ev.SAFE_RESET_REJECTED, noInst, [.w (0xFF : Nat)])]) ∧
      (∀ b < 9, 200 * uMs ≤ len → len ≤ 5000 * uMs → bad.testBit b = true → (∀ j < b, bad.testBit j = false) →
        Effect (.safeResetPulse t) s [F.SAFE_INPUTS_RESET, logFld] [.safe, .log] fun s' =>
          low s' ∧ s.Logs s' [(Ev.SAFE_RESET_REJECTED, noInst, [.w b])]) ∧
      (200 * uMs ≤ len → len ≤ 5000 * uMs → (∀ j < 9, bad.testBit j = false) →
        let may := (st = 2 ∨ st = 4 ∧ s.get F.SAFE_INPUTS_STARTUP_DONE = 1) ∧ x.stateAt + 500 * uMs ≤ now
        (¬may → Effect (.safeResetPulse t) s [F.SAFE_INPUTS_RESET] [.safe] low) ∧
        (may → Effect (.safeResetPulse t) s [F.SAFE_INPUTS_RESET, R.SAFE_STATE.all, R.SAFE_CAUSE.all, logFld] [.safe, .log]
          fun s' => low s' ∧ s'.get F.SAFE_STATE_STATE = 3 ∧ s'.get F.SAFE_STATE_OUT_A = 1 ∧ s'.get F.SAFE_STATE_OUT_B = 1 ∧
            s'.get F.SAFE_CAUSE_LATCH = 0 ∧ s'.safe.stateAt = now ∧
            s.Logs s' [(Ev.SAFE_STATE, noInst, [.w st, .w (3 : Nat), .w (0 : Nat)])]))) ∧
    (s.get F.SAFE_INPUTS_RESET = 1 → x.inAt.get 4 + 60 * uS ≤ now →
      Effect (.safeResetStuck t) s [] [.safe] fun s' => s'.safe = { x with stuck := true }) ∧
    (s.get F.SAFE_INPUTS_RESET = 0 ∨ now < x.inAt.get 4 + 60 * uS → Effect (.safeResetStuck t) s [] [] fun _ => True) ∧
    (a.quiet x.tokAt (250 * uUs) = false → Effect (.safeTokenIssue t) s [] [] fun _ => True) ∧
    (a.quiet x.tokAt (250 * uUs) = true →
      Effect (.safeTokenIssue t) s [F.SAFE_TSEQ_TSEQ, F.SAFE_STATE_ENABLING] [.safe] fun s' =>
        s'.get F.SAFE_TSEQ_TSEQ = (s.get F.SAFE_TSEQ_TSEQ + 1) % 65536 ∧ s'.safe.tokAt = some now ∧
        s'.get F.SAFE_STATE_ENABLING = (if st = 3 then 1 else 0) ∧
        ∀ r < 8, s'.tokenBytes r = if st = 3 then (List.range 4).flatMap fun w => leBytes 4 (s.get (F.SAFE_ENABLE_MASK r w))
          else List.replicate 16 0) ∧
    (∀ darkA darkB,
      let due := st = 3 ∧ x.flag 2 = true ∧ a.quiet x.outAt (500 * uMs) = true
      (due → Effect (.safeOutputPulse t darkA darkB) s [] [.safe] fun s' =>
        s'.safe.outAt = some now ∧ s'.safe.outBad = (x.outBad || !darkA || !darkB)) ∧
      (¬due → Effect (.safeOutputPulse t darkA darkB) s [] [] fun _ => True))

/-- The safety island's inputs and connections (R367, R368, R369, R371, R372, R381, R382). -/
def Obligations.IslandInputsAndConnections : Prop :=
  ∀ (t : Nat) (s : State), s.works domSAFE = true →
    let a := s.advance t
    let now := max s.now t
    let x := s.safe
    let st := s.get F.SAFE_STATE_STATE
    let inFld (i : Nat) : Fld := ⟨R.SAFE_INPUTS, i, 1⟩
    (∀ (i : Fin 5) (level : Bool), s.get (inFld i) = b2n level →
      Effect (.safeInputFiltered t i level) s [] [] fun _ => True) ∧
    (s.get (inFld 4) = 0 → Effect (.safeInputFiltered t 4 true) s [inFld 4] [.safe] fun s' =>
      s'.get (inFld 4) = 1 ∧ s'.safe.inAt = x.inAt.set 4 now ∧
      s'.safe.pulse = if now ≤ x.upAt + 3 * uMs then none else some (now, s.get F.SAFE_CAUSE_NOW)) ∧
    (s.get (inFld 4) = 1 → exec (.safeInputFiltered t 4 false) s = exec (.safeResetPulse t) s) ∧
    (∀ (i : Fin 5) (level : Bool), i < 4 → s.get (inFld i) ≠ b2n level → st ≠ 1 ∨ 2 ≤ i →
      let pair := i.val / 2
      let other := s.get (inFld (4 * pair + 1 - i))
      Effect (.safeInputFiltered t i level) s [inFld i] [.safe] fun s' =>
        s'.get (inFld i) = b2n level ∧ s'.safe.inAt = x.inAt.set i now ∧
        s'.safe.disc = (if other = b2n level then x.disc.filter (fun p => p != pair) else x.disc)) ∧
    (∀ (i : Fin 5), i < 2 → st = 1 → s.get (inFld i) = 1 → s.get (inFld (1 - i)) = 0 →
      Effect (.safeInputFiltered t i false) s [inFld i] [.safe] fun s' => s'.get (inFld i) = 0 ∧ s'.safe.step1 = true) ∧
    (∀ (i : Fin 5), i < 2 → st = 1 → s.get (inFld i) = 0 → s.get (inFld (1 - i)) = 1 →
      let since := now - min now (x.inAt.get (1 - i)) + (x.inAt.get (1 - i) - min now (x.inAt.get (1 - i)))
      (x.step1 = true → since ≤ x.discMs 0 * uMs →
        Effect (.safeInputFiltered t i true) s [inFld i, F.SAFE_INPUTS_STARTUP_DONE, R.SAFE_STATE.all, R.SAFE_TSEQ.all, logFld]
          [.safe, .log] fun s' =>
          s'.get (inFld i) = 1 ∧ s'.get F.SAFE_INPUTS_STARTUP_DONE = 1 ∧ s'.get F.SAFE_STATE_STATE = 2 ∧
          s'.safe.stateAt = now ∧
          s.Logs s' [(Ev.SAFE_STARTUP_TEST, noInst, []),
            (Ev.SAFE_STATE, noInst, [.w (1 : Nat), .w (2 : Nat), .w (s.get F.SAFE_CAUSE_NOW)])]) ∧
      (x.step1 = false ∨ x.discMs 0 * uMs < since →
        Effect (.safeInputFiltered t i true) s [inFld i] [.safe] fun s' => s'.get (inFld i) = 1)) ∧
    (∀ pair : Fin 2,
      let i := 2 * pair.val
      let last := max (x.inAt.get i) (x.inAt.get (i + 1))
      let due := s.get (inFld i) ≠ s.get (inFld (i + 1)) ∧ last + x.discMs pair * uMs ≤ now ∧ pair.val ∉ x.disc
      (¬due → Effect (.safeDiscrepancy t pair) s [] [] fun _ => True) ∧
      (due → Effect (.safeDiscrepancy t pair) s [logFld] [.safe, .log] fun s' =>
        s'.safe.disc = pair.val :: x.disc ∧
        s.Logs s' [(Ev.SAFE_DISCREPANCY, noInst,
          [.w pair.val, .w (if x.inAt.get i < x.inAt.get (i + 1) then 1 else 0 : Nat)])])) ∧
    (∀ (which : Fin 2) (short : Fin 32),
      let d := x.flag 0
      let e := x.flag 1
      let due := (d = true ∨ e = true) ∧ a.quiet (x.tpAt.get which) (100 * uMs) = true
      let hit := (d = true ∧ (short.val.testBit 0 = true ∨ short.val.testBit 1 = true)) ∨
        (e = true ∧ (short.val.testBit 2 = true ∨ short.val.testBit 3 = true)) ∨ short.val.testBit 4 = true
      (¬due → Effect (.safeTestPulse t which short) s [] [] fun _ => True) ∧
      (due → hit → Effect (.safeTestPulse t which short) s [] [.safe] fun s' =>
        s'.safe = { x with tpAt := x.tpAt.set which (some now), tpBad := true, tpClean := [] }) ∧
      (due → ¬hit → Effect (.safeTestPulse t which short) s [] [.safe] fun s' =>
        s'.safe.tpAt = x.tpAt.set which (some now) ∧
        s'.safe.tpBad = (x.tpBad && !((which.val :: x.tpClean).contains 0 && (which.val :: x.tpClean).contains 1)))) ∧
    (∀ c : Fin 4,
      let y := x.cons.get c
      let lost := s.get (F.SAFE_CONS_STAT_STATE c) = 2 ∧ y.okAt + x.wdogMs c * uMs ≤ now
      let clear := s.get (F.SAFE_CONS_STAT_STATE c) = 3 ∧ y.errAt + 4 * x.wdogMs c * uMs ≤ now
      (lost → Effect (.safeConnLost t c) s [F.SAFE_CONS_STAT_STATE c, logFld] [.log] fun s' =>
        s'.get (F.SAFE_CONS_STAT_STATE c) = 4 ∧ s.Logs s' [(Ev.SAFE_CONN_LOST, noInst, [.w c.val])]) ∧
      (¬lost → Effect (.safeConnLost t c) s [] [] fun _ => True) ∧
      (clear → Effect (.safeConnRecover t c) s [F.SAFE_CONS_STAT_STATE c] [.safe] fun s' =>
        s'.get (F.SAFE_CONS_STAT_STATE c) = 1 ∧ (s'.safe.cons.get c).first = true) ∧
      (¬clear → Effect (.safeConnRecover t c) s [] [] fun _ => True)) ∧
    (∀ q : Fin 2,
      let y := x.prod.get q
      let p := x.prodPub q
      let due := x.prodEn q = true ∧ (a.quiet y.at_ (x.issueMs q * uMs) = true ∨ y.data ≠ s.safeData)
      (¬due → Effect (.safePduIssue t q) s [] [] fun _ => True) ∧
      (due → Effect (.safePduIssue t q) s [F.SAFE_PROD_STAT_SEQ q, (R.GOOSE_PUB_STNUM p).all, (R.GOOSE_PUB_SQNUM p).all]
        [.safe, .bus] fun s' =>
        s'.get (F.SAFE_PROD_STAT_SEQ q) = (s.get (F.SAFE_PROD_STAT_SEQ q) + 1) % 65536 ∧
        s'.safe.prod.get q = { at_ := some now, data := s.safeData } ∧
        (s.works domPBUS = false → s'.bus = s.bus) ∧
        (s.works domPBUS = true → ∃ b, b.length = 13 ∧ (s'.bus.gpub.get p).pdu = b ++ leBytes 4 (crcSafe (x.prodId q) b) ∧
          b.take 7 = leBytes 1 1 ++ leBytes 4 (x.prodId q) ++ leBytes 2 ((s.get (F.SAFE_PROD_STAT_SEQ q) + 1) % 65536))))

/-- Comparator outputs, trip latches, filtering and settling (R78, R79, R133, R391, R392, R393, R394, R395, R396). -/
def Obligations.ComparatorsTripAndClear : Prop :=
  ∀ (t : Nat) (c : CmpIx) (s : State), s.works domANA = true →
    let now := max s.now t
    let a := s.advance t
    let stat := (R.CMP_STAT c).all
    let tripped (s' : State) : Prop :=
      s'.trip c = true ∧ s'.get (F.CMP_STAT_TRIPS c) = s.plus (F.CMP_STAT_TRIPS c) 1 ∧ (s'.cmp c).out = true
    (∀ v, s.cmpLive c = true →
      (s.cmpSide c v = some true →
        (s.trip c = false → s.cmpRings c = [] → (s.cmpLegs c).Nodup →
          Effect (.cmpTrip t ⟨c, v⟩) s (stat :: (s.cmpLegs c).map fun l => (R.PWM_LEG_STAT l).all) [.ana] fun s' =>
            tripped s' ∧ ∀ l ∈ s.cmpLegs c, s.tripInput l = false →
              (s'.leg l).trips = a.mtUnits :: a.legTrips l ∧ s'.legPwm l = false ∧
              s'.get (F.PWM_LEG_STAT_TRIPS l) = s.plus (F.PWM_LEG_STAT_TRIPS l) 1) ∧
        (∀ r : RingIx, s.trip c = false → s.cmpLegs c = [] → s.cmpRings c = [(r : Nat)] → s.works (domRING r) = true →
          let seq := (s.get (F.RING_HALT_STAT_HALT_SEQ r) + 1) % 65536
          Effect (.cmpTrip t ⟨c, v⟩) s [stat, (R.RING_HALT_STAT r).all, logFld] [.ana, .link, .capAsk, .log] fun s' =>
            tripped s' ∧ s'.get (F.RING_HALT_STAT_HALT_SEQ r) = seq ∧
            s'.get (F.RING_HALT_STAT_SRC_CLASS r) = (haltSrc c).1 ∧ s'.get (F.RING_HALT_STAT_SRC_CH r) = (haltSrc c).2 ∧
            (s'.ring r).haltNext = some (now + uUs, 3) ∧ haltSrc c ∈ (s'.ring r).sources ∧
            s.Logs s' [(Ev.HALT_INJECTED, (r : Nat), [.w seq, .w ((haltSrc c).1 * 256 + (haltSrc c).2)])]) ∧
        (s.trip c = true → Effect (.cmpTrip t ⟨c, v⟩) s [] [.ana] fun s' =>
          s'.get (F.CMP_STAT_TRIPS c) = s.get (F.CMP_STAT_TRIPS c) ∧ (s'.cmp c).out = true) ∧
        Effect (.cmpOutputInactive t ⟨c, v⟩) s [] [] fun _ => True) ∧
      (s.cmpSide c v = some false →
        (s.cmpRings c = [] → Effect (.cmpOutputInactive t ⟨c, v⟩) s [stat] [.ana] fun s' =>
          (s'.cmp c).out = false ∧ s'.trip c = (s.trip c && s.get (F.CMP_CFG_LATCH c) != 0)) ∧
        Effect (.cmpTrip t ⟨c, v⟩) s [] [] fun _ => True) ∧
      (s.cmpSide c v = none → ∀ i ∈ [Instr.cmpTrip t ⟨c, v⟩, .cmpOutputInactive t ⟨c, v⟩], Effect i s [] [] fun _ => True)) ∧
    (∀ v, s.settled c = true → s.get (F.CMP_CFG_MODE c) = 6 →
      let tick := a.cycleNow % max 1 (s.get (F.CMP_CFG_TICK c)) = 0 ∧ (s.cmp c).tickK ≠ some a.cycleNow
      (tick → s.cmpRings c = [] → s.cmpLegs c = [] → s.trip c = false → s.cmpSide c v = some true →
        Effect (.cmpTick t c v) s [stat] [.ana] fun s' => tripped s' ∧ (s'.cmp c).tickK = some a.cycleNow) ∧
      (tick → s.cmpSide c v = none → (s.cmp c).out = false → s.trip c = false →
        Effect (.cmpTick t c v) s [] [.ana] fun s' =>
          (s'.cmp c).out = false ∧ (s'.cmp c).ticks = (false :: (s.cmp c).ticks).take 15) ∧
      (¬tick → Effect (.cmpTick t c v) s [] [] fun _ => True)) ∧
    (s.settled c = true → s.get (F.CMP_CFG_MODE c) ≠ 0 → ∀ active,
      let full := s.get (F.CMP_CFG_N c) ≤ a.cmpVotes c active
      (full → active = true → s.get (F.CMP_STAT_FILT c) = 0 → (s.cmp c).logAt = none →
        Effect (.cmpFilterActive t c active) s [F.CMP_STAT_FILT c, logFld] [.ana, .log] fun s' =>
          s'.get (F.CMP_STAT_FILT c) = 1 ∧ (s'.cmp c).seen = true ∧ (s'.cmp c).logAt = some now ∧
          s.Logs s' [(Ev.CMP_ACTIVE, noInst, [.w (c : Nat)])]) ∧
      (full → active = false → Effect (.cmpFilterActive t c active) s [F.CMP_STAT_FILT c] [.ana] fun s' =>
        s'.get (F.CMP_STAT_FILT c) = 0 ∧ (s'.cmp c).seen = (s.cmp c).seen) ∧
      (¬full → Effect (.cmpFilterActive t c active) s [] [] fun _ => True)) ∧
    (s.settled c = false → s.get (F.CMP_CFG_MODE c) ≠ 0 → ∀ v,
      (∀ active, s.cmpSide c v = some active → s.cmpRings c = [] → s.cmpLegs c = [] →
        Effect (.cmpSettled t c v) s [stat, logFld] [.ana, .log] fun s' =>
          s'.settled c = true ∧ s'.trip c = active ∧ s'.get (F.CMP_STAT_FILT c) = b2n active ∧
          s.Logs s' [(Ev.CMP_SETTLED, noInst, [.w (c : Nat), .w (b2n active)])]) ∧
      (s.cmpSide c v = none → Effect (.cmpSettled t c v) s [] [] fun _ => True)) ∧
    (s.isOn domMGMT = true → s.isOn domANA = true → ∀ n : SessIx, s.judgeWord n (R.CMP_STAT c) 1#32 1#32 = .ok →
      ((s.cmp c).out = true → Effect (.cmpTripClear t n c 1#32 1#32) s [] [.mgmt] fun s' => (s'.sess n).status = .busy) ∧
      ((s.cmp c).out = false → s.cmpRings c = [] →
        Effect (.cmpTripClear t n c 1#32 1#32) s [F.CMP_STAT_TRIP c] [.mgmt, .ana] fun s' =>
          (s'.sess n).status = .ok ∧ s'.trip c = (s.trip c && s.get (F.CMP_CFG_LATCH c) != 1))) ∧
    (s.get (F.CMP_CFG_LATCH c) = 2 → s.settled c = true → s.trip c = true →
      let at_ := a.clearPoint c
      let clears := (s.cmp c).out = false ∧ (s.cmp c).offAt ≤ at_ ∧ at_ ≤ a.mtUnits
      (¬clears → Effect (.cmpPeriodClear t c) s [] [] fun _ => True) ∧
      (clears → s.cmpRings c = [] →
        Effect (.cmpPeriodClear t c) s [F.CMP_STAT_TRIP c] [.ana] fun s' => s'.trip c = false))

/-- Bitstream channels, the integrating converter and its queue, delay lines and PWM counters (R131, R134, R138, R398, R399, R401, R402, R403, R404, R405, R406, R407). -/
def Obligations.BitstreamsConverterAndDelayLines : Prop :=
  ∀ (t : Nat) (s : State),
    let now := max s.now t
    let mt := (s.advance t).mtUnits
    let q := s.ana.iadc.queue
    (s.works domANA = true →
      (∀ b : BsiIx,
        (s.get (F.BSI_CFG_EN b) = 0 → ∀ bits, Effect (.bsiSample t b bits) s [] [] (fun _ => True) ∧
          Effect (.bsiOverrange t b) s [] [] fun _ => True) ∧
        (s.get (F.BSI_CFG_EN b) = 1 →
          (∀ (v : Bool) (e : Nat), (s.bsi b).clkAt = some e → e + bsiClk ≤ now → (s.bsi b).ys = [] →
            let f := (s.bsi b).filt.bit (s.osr b) v
            let still := if v = (s.bsi b).level then (s.bsi b).still + 1 else 0
            let x := fun (c : Nat) => roundFree ((2 * c - s.osr b ^ 3 : Int) * 2 ^ 31) (s.osr b ^ 3 : Nat)
            Effect (.bsiSample t b [v]) s [F.BSI_STAT_RUNNING b, F.BSI_VALUE_VALUE b] [.ana] fun s' =>
              (s'.bsi b).clkAt = some (e + bsiClk) ∧ (s'.bsi b).level = v ∧ (s'.bsi b).still = still ∧
              (s'.bsi b).filt = f.1 ∧
              (s'.bsi b).ys = (f.2.map fun c =>
                (((e + bsiClk : Nat) + s.clk.off : Int).toNat, s.bsiStep b 0 (x c))).toList ∧
              s'.get (F.BSI_STAT_RUNNING b) = if still < 1024 then 1 else s.get (F.BSI_STAT_RUNNING b)) ∧
          (s.get (F.BSI_STAT_RUNNING b) = 1 → 1024 ≤ (s.bsi b).still →
              (∀ p < 9, b.val ∉ s.bsiChans p ∨ s.get (F.GRID_PT_SRC_BSI_EN p) = 0) →
            Effect (.bsiStopped t b) s [F.BSI_STAT_RUNNING b, logFld] [.ana, .log] fun s' =>
              s'.get (F.BSI_STAT_RUNNING b) = 0 ∧ (s'.bsi b).ys = [] ∧
              s.Logs s' [(Ev.BSI_STOPPED, noInst, [.w (b : Nat)])]) ∧
          (s.get (F.BSI_STAT_RUNNING b) = 0 ∨ (s.bsi b).still < 1024 →
            Effect (.bsiStopped t b) s [] [] fun _ => True) ∧
          ((s.bsi b).ovr < 16 → Effect (.bsiOverrange t b) s [] [] fun _ => True) ∧
          (16 ≤ (s.bsi b).ovr → (s.bsi b).overAt = none →
            Effect (.bsiOverrange t b) s [F.BSI_STAT_OVERRANGE b, logFld] [.ana, .log] fun s' =>
            s'.get (F.BSI_STAT_OVERRANGE b) = 1 ∧ (s'.bsi b).overAt = some now ∧
            s.Logs s' [(Ev.BSI_OVERRANGE, noInst, [.w (b : Nat)])]))) ∧
      (let ms := s.get F.IADC_CFG_ROUND_MS
       let go := if ms = 0 then s.get F.IADC_STATUS_BUSY = 0 else s.ana.iadc.lastDue < mt / (ms * uMs) * (ms * uMs)
       (¬go ∨ s.get F.IADC_CFG_NENT = 0 → Effect (.iadcRoundStart t) s [] [.ana] fun s' => s'.ana.iadc.lastDue = mt) ∧
       (go → s.get F.IADC_CFG_NENT ≠ 0 →
         (s.get F.IADC_STATUS_BUSY = 1 →
           Effect (.iadcRoundStart t) s [F.IADC_STATUS_OVERRUN, logFld] [.ana, .log] fun s' =>
             s'.get F.IADC_STATUS_OVERRUN = s.plus F.IADC_STATUS_OVERRUN 1 ∧ s.Logs s' [(Ev.IADC_OVERRUN, noInst, [])]) ∧
         (s.get F.IADC_STATUS_BUSY = 0 → s.ana.iadc.conv = none → s.ana.iadc.house = false →
           Effect (.iadcRoundStart t) s [F.IADC_STATUS_BUSY] [.ana] fun s' =>
             s'.get F.IADC_STATUS_BUSY = 1 ∧ s'.ana.iadc.round = (s.ana.iadc.round + 1) % 65536 ∧
             s'.ana.iadc.lastDue = mt ∧ s'.ana.iadc.rest = s.iadcSeq.drop 1 ∧
             (s'.ana.iadc.conv.map fun c => (c.entry, c.ch, c.gain)) =
               some (some 0, s.get (F.IADC_SEQ_CH 0), s.get (F.IADC_SEQ_GAIN 0))))) ∧
      (∀ c e value, s.ana.iadc.conv = some c → c.entry = some e → c.ch ≠ 21 → s.ana.iadc.rest = [] →
        s.ana.iadc.house = false → satS 24 value = value →
        let low := codeOf 24 value + 2 ^ 25 * b2n c.nom + 2 ^ 27
        let high := e + 16 * c.ch + 65536 * s.ana.iadc.round
        (now < c.ends → Effect (.iadcConversionDone t value) s [] [] fun _ => True) ∧
        (c.ends ≤ now → q.length < 64 →
          Effect (.iadcConversionDone t value) s [(R.IADC_LAST e).all, F.IADC_STATUS_DEPTH, F.IADC_STATUS_BUSY] [.ana]
            fun s' =>
            s'.word (R.IADC_LAST e) = BitVec.ofNat 32 low ∧ s'.get F.IADC_STATUS_DEPTH = q.length + 1 ∧
            s'.ana.iadc.queue = q ++ [(s.ana.iadc.nextId, BitVec.ofNat 32 (low + 2 ^ 26 * b2n s.ana.iadc.lostBefore),
              BitVec.ofNat 32 high)] ∧ s'.ana.iadc.lostBefore = false ∧ s'.get F.IADC_STATUS_BUSY = 0) ∧
        (c.ends ≤ now → q.length = 64 → s.ana.iadc.lostAt = none →
          Effect (.iadcConversionDone t value) s [(R.IADC_LAST e).all, F.IADC_STATUS_LOST, F.IADC_STATUS_BUSY, logFld]
            [.ana, .log] fun s' =>
            s'.word (R.IADC_LAST e) = BitVec.ofNat 32 low ∧ s'.ana.iadc.queue = q ∧ s'.ana.iadc.lostBefore = true ∧
            s'.get F.IADC_STATUS_LOST = s.plus F.IADC_STATUS_LOST 1 ∧
            s.Logs s' [(Ev.IADC_OVERFLOW, noInst, [.w (s'.get F.IADC_STATUS_LOST)])])) ∧
      (s.ana.iadc.conv = none → s.ana.iadc.house = false →
        (s.ana.iadc.cpAt + 1000 * uMs ≤ mt → Effect (.iadcHousekeeping t) s [] [.ana] fun s' =>
          (s'.ana.iadc.conv.map fun c => (c.entry, c.ch, c.gain)) = some (none, 21, 0)) ∧
        (mt < s.ana.iadc.cpAt + 1000 * uMs → Effect (.iadcHousekeeping t) s [] [] fun _ => True)) ∧
      (∀ e0 e1 e2 : Nat × Bool,
        (e0.1 ≤ 40 ∧ e1.1 ≤ 40 ∧ e2.1 ≤ 40 ∧ e0.2 = false ∧ e1.2 = false ∧ e2.2 = false →
          Effect (.dlyCal t e0 e1 e2) s [F.PWM_DLY_STAT_CAL_COUNT, F.PWM_DLY_STAT_ERR_PS, F.PWM_DLY_STAT_CAL_OK] [] fun s' =>
            s'.get F.PWM_DLY_STAT_CAL_OK = 1 ∧ s'.get F.PWM_DLY_STAT_ERR_PS = max e0.1 (max e1.1 e2.1)) ∧
        (40 < e1.1 → e0 = (0, false) → e2 = (0, false) →
          Effect (.dlyCal t e0 e1 e2) s [F.PWM_DLY_STAT_CAL_COUNT, F.PWM_DLY_STAT_ERR_PS, F.PWM_DLY_STAT_CAL_FAIL, logFld]
            [.log] fun s' =>
            s'.get F.PWM_DLY_STAT_CAL_FAIL = 1 ∧ s.Logs s' [(Ev.PWM_DLY_CAL_FAIL, noInst, [.w (1 : Nat)])]))) ∧
    (s.isOn domMGMT = true → s.isOn domANA = true → ∀ n : SessIx,
      (∀ e l, q = e :: l →
        Effect (.iadcQLoRead t n) s [] [.mgmt] (fun s' =>
          (s'.sess n).value = e.2.1 ∧ (s'.sess n).qHi = some (e.1, e.2.2) ∧ s'.ana.iadc.queue = q) ∧
        Effect (.iadcPeekLoRead t n) s [] [.mgmt] (fun s' =>
          (s'.sess n).value = e.2.1 ∧ (s'.sess n).peekHi = some (e.1, e.2.2)) ∧
        ((s.sess n).qHi = some (e.1, e.2.2) →
          Effect (.iadcQHiRead t n) s [F.IADC_STATUS_DEPTH] [.mgmt, .ana] fun s' =>
            (s'.sess n).value = e.2.2 ∧ (s'.sess n).qHi = none ∧ s'.ana.iadc.queue = l) ∧
        ((s.sess n).qHi = none → Effect (.iadcQHiRead t n) s [] [.mgmt] fun s' => (s'.sess n).value = e.2.2) ∧
        ((s.sess n).peekHi = some (e.1, e.2.2) → Effect (.iadcPeekHiRead t n) s [] [.mgmt] fun s' =>
          (s'.sess n).value = e.2.2 ∧ (s'.sess n).peekHi = none)) ∧
      (∀ id hi, (s.sess n).qHi = some (id, hi) → (∀ e ∈ q.head?, e.1 ≠ id) →
        Effect (.iadcQHiRead t n) s [] [.mgmt] fun s' => (s'.sess n).value = hi ∧ s'.ana.iadc.queue = q) ∧
      (q = [] → Effect (.iadcQLoRead t n) s [] [.mgmt] fun s' =>
        (s'.sess n).value = 0 ∧ (s'.sess n).qHi = (s.sess n).qHi)) ∧
    (s.isOn domMGMT = true → s.isOn domVOTE = true → ∀ (n : SessIx) x, rowOf R.PWM_STATUS = some x →
      s.needLevel n (s.writeLevel x) = .ok →
      Effect (.pwmCntClear t n) s [F.PWM_CNT_DEBT_CAP_COUNT, F.PWM_CNT_SNAP_COUNT] [.mgmt] fun s' =>
        s'.get F.PWM_CNT_DEBT_CAP_COUNT = 0 ∧ s'.get F.PWM_CNT_SNAP_COUNT = 0 ∧ (s'.sess n).status = .ok) ∧
    (s.works domVOTE = true → ∀ c : RingIx,
      let reached := (cellsOf c).all fun k => s.cellState k == 6 || s.cellState k == 8 || s.marked k ||
        (s.bridgeOf k).all fun b => decide (b.s ≤ mt)
      (s.get (F.PWM_CLU_STAT_MIXED c) = 1 → reached = true →
        Effect (.pwmTransitionEnd t c) s [F.PWM_CLU_STAT_MIXED c, logFld] [.eng, .log] fun s' =>
          s'.get (F.PWM_CLU_STAT_MIXED c) = 0 ∧ (∀ k ∈ cellsOf c, s'.bridgeOf k = none) ∧
          s.Logs s' [(Ev.PWM_TRANSITION, noInst, [.w (c : Nat), .w (s.get (F.PWM_CLU_CFG_CAR_P c))])]) ∧
      (s.get (F.PWM_CLU_STAT_MIXED c) = 0 ∨ reached = false → Effect (.pwmTransitionEnd t c) s [] [] fun _ => True))

/-- The auxiliary legs (R125, R133, R137, R409, R410, R412). -/
def Obligations.LegsRunAndTrip : Prop :=
  ∀ (t : Nat) (l : LegIx) (s : State), s.works domANA = true →
    let now := max s.now t
    let x := s.leg l
    let st := s.legState l
    let p := max 2 (s.get (F.PWM_LEG_CFG_CAR_P l))
    let off := s.get (F.PWM_LEG_OFF_OFF l)
    let mt := (s.advance t).mtUnits
    let h := (mt - off) / (p / 2)
    let u := off + h * (p / 2)
    let went (s' : State) (dest : Nat) : Prop := s'.legState l = dest ∧
      s.Logs s' [(Ev.LEG_STATE, noInst, [.w (l : Nat), .w st, .w dest])]
    (s.get (F.PWM_LEG_STAT_LATCHED l) = 0 → st = 2 →
      (s.get (F.PWM_LEG_TRIP_N l) ≤ ((s.advance t).legTrips l).length →
        Effect (.pwmLegLatch t l) s [F.PWM_LEG_STAT_LATCHED l, F.LEG_STATUS_STATE l, logFld] [.ana, .log] fun s' =>
          s'.get (F.PWM_LEG_STAT_LATCHED l) = 1 ∧ s'.legState l = 3 ∧ (s'.leg l).en = false ∧ (s'.leg l).live = none ∧
          s.Logs s' [(Ev.LEG_STATE, noInst, [.w (l : Nat), .w (2 : Nat), .w (3 : Nat)]),
            (Ev.PWM_TRIP_LATCH, noInst, [.w ((l : Nat) + 0x400 : Nat)])]) ∧
      (((s.advance t).legTrips l).length < s.get (F.PWM_LEG_TRIP_N l) → Effect (.pwmLegLatch t l) s [] [] fun _ => True)) ∧
    (s.isOn domMGMT = true → s.isOn domANA = true → s.isOn domVOTE = true → ∀ n : SessIx,
      (s.judgeWord n (R.PWM_LEG_STAT l) 1#32 1#32 = .ok → s.get (F.PWM_LEG_STAT_LATCHED l) = 1 →
        (s.tripInput l = false → Effect (.legLatchRelease t n l 1#32 1#32) s [] [.mgmt, .ana] fun s' =>
          (s'.sess n).status = .ok ∧ (s'.leg l).release = true) ∧
        (s.tripInput l = true → Effect (.legLatchRelease t n l 1#32 1#32) s [] [.mgmt] fun s' =>
          (s'.sess n).status = .busy)) ∧
      (s.allows n (R.LEG_CTRL l) 1#32 1#32 = true → s.get (F.LEG_CTRL_EN l) = 0 →
        (st = 0 → Effect (.legEnable t n l) s [(R.LEG_CTRL l).all] [.mgmt, .ana] fun s' =>
          (s'.sess n).status = .ok ∧ s'.get (F.LEG_CTRL_EN l) = 1 ∧ s'.legState l = 0 ∧ (s'.leg l).refused = false) ∧
        (st = 4 → Effect (.legEnable t n l) s [(R.LEG_CTRL l).all, F.LEG_STATUS_STATE l, logFld] [.mgmt, .ana, .log] fun s' =>
          (s'.sess n).status = .ok ∧ went s' 0)) ∧
      (s.allows n (R.LEG_CTRL l) 0#32 1#32 = true →
        (st = 2 → x.enFall = none → Effect (.legDisable t n l) s [(R.LEG_CTRL l).all, F.LEG_STATUS_REFUSE l] [.mgmt, .ana]
          fun s' => (s'.sess n).status = .ok ∧ s'.legState l = 2 ∧ (s'.leg l).live = none ∧ (s'.leg l).en = x.en ∧
            (s'.leg l).enFall = some (now + 160 * s.get (F.PWM_LEG_TIME_T_DT l))) ∧
        (st = 1 ∨ st = 3 ∨ st = 5 →
          Effect (.legDisable t n l) s [(R.LEG_CTRL l).all, F.LEG_STATUS_REFUSE l, F.LEG_STATUS_STATE l, logFld]
            [.mgmt, .ana, .log] fun s' => (s'.sess n).status = .ok ∧ went s' 0 ∧ (s'.leg l).en = false))) ∧
    (∀ f, x.enFall = some f → st ≠ 0 →
      (f ≤ now → Effect (.legEnFall t l) s [F.LEG_STATUS_STATE l, logFld] [.ana, .log] fun s' =>
        went s' 0 ∧ (s'.leg l).en = false ∧ (s'.leg l).enFall = none) ∧
      (now < f → Effect (.legEnFall t l) s [] [] fun _ => True)) ∧
    (∀ v0 v1 : Fin 65536, st = 1 →
      let r : Nat := if 2000 < v0.val then 1 else if v1.val < v0.val + 200 then 2
        else if v0.val + 2500 < v1.val ∨ 3000 ≤ v1.val then 3 else 0
      (now < x.diagAt + 800 * uUs → Effect (.legDiagResult t l v0 v1) s [] [] fun _ => True) ∧
      (x.diagAt + 800 * uUs ≤ now →
        Effect (.legDiagResult t l v0 v1) s
          [(R.LEG_DIAG l).all, F.LEG_STATUS_DIAG_RES l, F.LEG_STATUS_DIAG_DONE l, F.LEG_STATUS_STATE l, logFld] [.ana, .log]
          fun s' =>
          s'.get (F.LEG_STATUS_DIAG_RES l) = r ∧ s'.get (F.LEG_STATUS_DIAG_DONE l) = 1 ∧
          (r = 0 → went s' 2 ∧ (s'.leg l).en = true ∧ (s'.leg l).firstAt = (s.advance t).mtUnits + 10 * uUs) ∧
          (r ≠ 0 → s'.legState l = 4 ∧ (s'.leg l).en = false ∧
            s.Logs s' [(Ev.LEG_STATE, noInst, [.w (l : Nat), .w (1 : Nat), .w (4 : Nat)]),
              (Ev.LEG_DIAG_FAIL, noInst, [.w (l : Nat), .w r, .w (v0 : Nat), .w (v1 : Nat)])]))) ∧
    ((mt < off ∨ h = x.half → Effect (.legUpdatePoint t l) s [] [] fun _ => True) ∧
      (off ≤ mt → h ≠ x.half → h % 2 = 0 →
        (∀ e, x.release = false → st = 2 → (x.writes.filter fun w => decide (w.1 ≤ u)).getLast? = some e →
            x.firstAt ≤ u → x.enFall = none →
          Effect (.legUpdatePoint t l) s [F.PWM_LEG_STAT_WIN l] [.ana] fun s' =>
            (s'.leg l).live = some { e.2 with u := u } ∧ (s'.leg l).shadow = none ∧ (s'.leg l).half = h) ∧
        (x.release = false → st = 2 → (x.writes.filter fun w => decide (w.1 ≤ u)) = [] → x.shadow = none →
          Effect (.legUpdatePoint t l) s [F.PWM_LEG_STAT_WIN l] [.ana] fun s' =>
            (s'.leg l).live = x.live ∧ (s'.leg l).half = h) ∧
        (x.release = true → st = 3 →
          Effect (.legUpdatePoint t l) s
            [F.PWM_LEG_STAT_LATCHED l, F.PWM_LEG_STAT_WIN l, F.PWM_LEG_DEBT_DEBT l, F.LEG_STATUS_STATE l, logFld]
            [.ana, .log] fun s' =>
            went s' 2 ∧ s'.get (F.PWM_LEG_STAT_LATCHED l) = 0 ∧ (s'.leg l).en = true ∧ (s'.leg l).release = false)) ∧
      (off ≤ mt → h ≠ x.half → h % 2 = 1 → st = 2 → x.enFall = none → s.get (F.PWM_LEG_CFG_UPDATE_AT l) = 1 →
        ∀ v e, x.live = some v → (x.writes.filter fun w => decide (w.1 ≤ u)).getLast? = some e →
          Effect (.legUpdatePoint t l) s [F.PWM_LEG_STAT_WIN l] [.ana] fun s' =>
            (s'.leg l).live = some (if v.h0.special = true ∨ e.2.h0.special = true then v
              else { v with h0 := { v.h0 with off := e.2.h0.off } })))

/-- A result that finds the converter's queue full (R407). -/
def Obligations.FullQueueDiscardsResults : Prop :=
  ∀ (t : Nat) (s : State) (c : Conv) (e : Nat) (value : Int), s.works domANA = true →
    let now := max s.now t
    let x := s.ana.iadc
    let res := satS 24 value
    let lost := s.plus F.IADC_STATUS_LOST 1
    let over_ := if res ≠ value ∧ (∀ u ∈ x.overAt, u + uS ≤ now) then [(Ev.IADC_OVERRANGE, noInst, [DItem.w e])] else []
    let full := if ∀ u ∈ x.lostAt, u + uS ≤ now then [(Ev.IADC_OVERFLOW, noInst, [DItem.w lost])] else []
    let ntc := if c.ch = 21 ∧ ¬(8388608 * 5 ≤ res * 1000 ∧ res * 1000 ≤ 8388608 * 995) ∧ s.get F.THM_CP_NTC_FAULT = 0
      then [(Ev.THM_CP_STALE, noInst, [DItem.w (1 : Nat)])] else []
    x.conv = some c → c.entry = some e → e < 16 → c.ends ≤ now →
      (x.queue.length = 64 → Answers (.iadcConversionDone t value) s fun s' =>
        s'.ana.iadc.queue = x.queue ∧ s'.get F.IADC_STATUS_LOST = lost ∧ s'.ana.iadc.lostBefore = true ∧
        (s'.word (R.IADC_LAST e)).toNat % 2 ^ 24 = codeOf 24 res ∧ s.Logs s' (over_ ++ full ++ ntc)) ∧
      (x.queue.length < 64 → Answers (.iadcConversionDone t value) s fun s' =>
        (∃ r ∈ s'.ana.iadc.queue.getLast?, s'.ana.iadc.queue = x.queue ++ [r] ∧ r.2.1.toNat.testBit 26 = x.lostBefore ∧
          r.2.1.toNat % 2 ^ 24 = codeOf 24 res) ∧ s'.ana.iadc.lostBefore = false ∧
        (s'.word (R.IADC_LAST e)).toNat % 2 ^ 24 = codeOf 24 res ∧ s.Logs s' (over_ ++ ntc))

/-- Requests to change a power domain (R414, R415, R417, R418, R419, R420). -/
def Obligations.PowerRequests : Prop :=
  ∀ (t : Nat) (s : State),
    let now := max s.now t
    (∀ (n : SessIx) (d : Fin 32), s.isOn domMGMT = true → s.isOn domCREMA = true →
      ∀ p ∈ [(0, Instr.pwrReqOff t n d), (1, Instr.pwrReqRetention t n d), (2, Instr.pwrReqOn t n d)],
      s.judgeWord n R.PWR_REQ (pwrWord d p.1) (BitVec.allOnes 32) = .ok →
      let refused (st : Status) (blocker why : Nat) : Prop :=
        Effect p.2 s [R.PWR_REFUSE.all, logFld] [.mgmt, .log] fun s' =>
          (s'.sess n).status = st ∧ s'.get F.PWR_REFUSE_BLOCKER = blocker ∧ s'.get F.PWR_REFUSE_REASON = why ∧
          s.Logs s' [(Ev.PWR_REQ_REFUSED, noInst, [.w (d : Nat), .w blocker, .w why])]
      ((d : Nat) = 0 ∨ (d : Nat) = 6 → refused .badValue d 4) ∧
      (switchable d = true →
        (s.domState d = 3 → refused .busy d 5) ∧
        (s.domState d = p.1 → s.allows n R.PWR_REQ (pwrWord d p.1) (BitVec.allOnes 32) = true →
          Effect p.2 s [R.PWR_REQ.all] [.mgmt] fun s' => (s'.sess n).status = .ok) ∧
        (s.domState d ≠ 3 → s.domState d ≠ p.1 → s.held d = true → refused .busy d 3) ∧
        (s.domState d = 2 → p.1 ≠ 2 → s.held d = false →
          (∀ e, (dependents d).find? (fun e => 2 ≤ s.domState e) = some e → refused .busy e 1) ∧
          ((∀ e ∈ dependents d, s.domState e < 2) →
            (s.domNeeded d = true → refused .busy d 2) ∧
            (s.domNeeded d = false → (d : Nat) ∈ [1, 8, 9, 10, 11, 12, 13, 14, 15, 16, 17, 19, 20] →
              s.allows n R.PWR_REQ (pwrWord d p.1) (BitVec.allOnes 32) = true →
              Effect p.2 s [R.PWR_REQ.all, F.PWR_STATE d] [.mgmt, .pwr] fun s' =>
                (s'.sess n).status = .ok ∧ s'.domState d = 3 ∧
                s'.pwr.leaving.get d = some { target := p.1, due := now + 2 * uS }))) ∧
        (s.domState d < 2 → p.1 = 2 → (∀ e < 21, s.held e = false ∧ s.leaves e = false) → s.pwr.plan = [] →
          s.allows n R.PWR_REQ (pwrWord d p.1) (BitVec.allOnes 32) = true →
          Effect p.2 s [R.PWR_REQ.all, R.PWR_STATE_LO.all, R.PWR_STATE_HI.all] [.mgmt, .pwr] fun s' =>
            (s'.sess n).status = .ok ∧ s'.domState d = 3 ∧ (∀ e ∈ reqs d, s.domState e < 2 → s'.domState e = 3) ∧
            s'.pwr.plan = s.planOf ((withRequired [(d : Nat)]).filter fun e => s.domState e < 2) 0))) ∧
    (∀ l, s.pwr.leaving.get 20 = some l → s.domState 20 = 3 → s.pwr.wake = none →
      (s.prepared 20 = true ∨ l.due ≤ now → l.target = 1 →
        Effect (.pwrPrepared t 20) s [F.PWR_STATE 20, logFld] [.pwr, .log] fun s' =>
          s'.domState 20 = 1 ∧ s'.leaves 20 = false ∧ 20 ∈ s'.pwr.retained ∧
          s.Logs s' [(Ev.PWR_STATE, noInst, [.w (20 : Nat), .w (2 : Nat), .w (1 : Nat), .w (0 : Nat)])]) ∧
      (s.prepared 20 = false → now < l.due → Effect (.pwrPrepared t 20) s [] [] fun _ => True)) ∧
    (∀ d : DomIx, s.pwr.leaving.get d = none → Effect (.pwrPrepared t d) s [] [] fun _ => True)

/-- Restore steps, wake on the I2C port, supplies and nRESET (R415, R420, R421, R422, R424, R428, R430, R437, R438). -/
def Obligations.RestoresWakesAndSupplies : Prop :=
  ∀ (t : Nat) (s : State),
    let now := max s.now t
    let supplied := s.get F.PWR_SUPPLY_VIN_A_OK = 1 ∨ s.get F.PWR_SUPPLY_VIN_B_OK = 1
    (∀ x l, s.pwr.plan = x :: l →
      (now < s.pwr.stepEnd → Effect (.domainRestoreStep t) s [] [] fun _ => True) ∧
      (∀ d ∈ [17, 20], s.pwr.stepEnd ≤ now → x.doms = [d] → s.start.cold = false → s.pwr.wake = none →
        s.get F.LANE_CFG_AUTO_RESTART = 0 →
        Effect (.domainRestoreStep t) s [F.PWR_STATE d, logFld] [.pwr, .log] fun s' =>
          s'.domState d = 2 ∧ s'.pwr.plan = l ∧ d ∉ s'.pwr.retained ∧
          s'.pwr.stepEnd = now + (l.head?.map (·.delay)).getD 0 ∧
          (d = 20 → s.Logs s' [(Ev.PWR_STATE, noInst,
            [.w d, .w (if s.pwr.retained.contains d then (1 : Nat) else 0 : Nat), .w (2 : Nat), .w x.cause])]))) ∧
    (s.pwr.plan = [] → Effect (.domainRestoreStep t) s [] [] fun _ => True) ∧
    (∀ addr : Fin 128, s.pwr.wake = none →
      let want := withRequired ([1, 20, 7] ++ switchables.filter fun d => bit (s.get F.PWR_WAKE_SET_SET) d)
      (s.get F.PWR_WAKE_CFG_EN = 0 ∨ (addr : Nat) ≠ s.get F.PWR_WAKE_CFG_ADDR ∨ ¬supplied ∨ s.stayOff = true →
        Effect (.i2cAddressMatch t addr) s [] [] fun _ => True) ∧
      (s.get F.PWR_WAKE_CFG_EN = 1 → (addr : Nat) = s.get F.PWR_WAKE_CFG_ADDR → supplied → s.stayOff = false →
        ((∀ d ∈ want, s.isOn d = true ∨ s.barred d = true) → Effect (.i2cAddressMatch t addr) s [] [] fun _ => True) ∧
        ((∃ d ∈ want, s.domState d < 2) → (∀ d < 21, s.held d = false ∧ s.leaves d = false) →
          Effect (.i2cAddressMatch t addr) s [R.PWR_STATE_LO.all, R.PWR_STATE_HI.all] [.pwr] fun s' =>
            s'.pwr.wake = some { ackAt := now, set := want, limitAt := none } ∧
            ∀ d ∈ want, s.domState d < 2 → s'.domState d = 3))) ∧
    (∀ w, s.pwr.wake = some w → w.limitAt = none → s.get F.PWR_WAKE_CFG_STRETCH_MAX ≠ 0 →
      let lim := s.get F.PWR_WAKE_CFG_STRETCH_MAX
      (w.ackAt + lim * uMs ≤ now →
        Effect (.pwrStretchLimit t) s [F.PWR_WAKE_STAT_LIMIT, F.PWR_WAKE_STAT_STRETCH, logFld] [.pwr, .log] fun s' =>
          s'.get F.PWR_WAKE_STAT_LIMIT = 1 ∧ s'.get F.PWR_WAKE_STAT_STRETCH = lim * 100 ∧
          s'.pwr.nack = !s.isOn domMGMT ∧ s.Logs s' [(Ev.PWR_STRETCH_LIMIT, noInst, [])]) ∧
      (now < w.ackAt + lim * uMs → Effect (.pwrStretchLimit t) s [] [] fun _ => True)) ∧
    (∀ b : Bool,
      let ok := if b then F.PWR_SUPPLY_VIN_B_OK else F.PWR_SUPPLY_VIN_A_OK
      let other := if b then F.PWR_SUPPLY_VIN_A_OK else F.PWR_SUPPLY_VIN_B_OK
      let sticky := if b then F.CREMA_STICKY_VIN_B_LOST else F.CREMA_STICKY_VIN_A_LOST
      (s.get ok = 1 → s.get other = 1 → Effect (.pwrSupplyLost t b) s [ok, sticky, logFld] [.log] fun s' =>
        s'.get ok = 0 ∧ s'.get sticky = 1 ∧ s.Logs s' [(Ev.PWR_SUPPLY_LOST, noInst, [.w (b2n b)])]) ∧
      (s.get ok = 1 → s.get other = 0 → Answers (.pwrSupplyLost t b) s fun s' =>
        s'.get F.CREMA_STICKY_BOTH_LOST = 1 ∧ s'.domState domSAFE = 0 ∧
        s'.get F.PWR_SUPPLY_CREMA_SRC = (if s'.get F.PWR_SUPPLY_HARV_OK = 1 then 1 else 2)) ∧
      (∀ mon te, s.get ok = 0 → s.get other = 1 → s.pwr.cutOff = false →
        Effect (.pwrSupplyRestored t b ⟨mon, te⟩) s [ok, F.PWR_SUPPLY_CREMA_SRC, logFld] [.log] fun s' =>
          s'.get ok = 1 ∧ s'.get F.PWR_SUPPLY_CREMA_SRC = 0 ∧ s.Logs s' [(Ev.PWR_SUPPLY_RESTORED, noInst, [])]) ∧
      (∀ mon te, s.get ok = 0 → s.get other = 0 → s.pwr.resetLow = false →
        Answers (.pwrSupplyRestored t b ⟨mon, te⟩) s fun s' =>
          s'.start.cold = true ∧ s'.start.bootMon = mon ∧ s'.start.testEn = te ∧ s'.start.image = none ∧
          s'.pwr.cutOff = false)) ∧
    Answers (.nresetAssert t) s (fun s' => s'.pwr.resetLow = true) ∧
    (∀ mon te, s.pwr.resetLow = true →
      (supplied → Effect (.nresetRelease t ⟨mon, te⟩) s [R.PWR_STATE_LO.all, R.PWR_STATE_HI.all] [.pwr, .start] fun s' =>
        s'.pwr.resetLow = false ∧ s'.start.cold = true ∧ s'.start.bootMon = mon ∧ s'.start.testEn = te ∧
        (te = true → ∀ d < 21, s'.domState d = s.domState d)) ∧
      (¬supplied → Effect (.nresetRelease t ⟨mon, te⟩) s [] [.pwr] fun s' => s'.pwr.resetLow = false)) ∧
    (∀ mon te, s.pwr.resetLow = false → Effect (.nresetRelease t ⟨mon, te⟩) s [] [] fun _ => True) ∧
    (∀ ok, Effect (.harvSourceChange t ok) s
      [F.PWR_SUPPLY_HARV_OK, F.PWR_SUPPLY_CREMA_SRC, F.CREMA_CELL_TESTING, F.CREMA_CELL_CHARGING] [.pwr] fun s' =>
      s'.get F.PWR_SUPPLY_HARV_OK = b2n ok ∧
      (supplied → s'.get F.PWR_SUPPLY_CREMA_SRC = 0 ∧ s'.get F.CREMA_CELL_TESTING = s.get F.CREMA_CELL_TESTING) ∧
      (¬supplied → s'.get F.PWR_SUPPLY_CREMA_SRC = (if ok then 1 else 2) ∧ s'.get F.CREMA_CELL_TESTING = 0))

/-- Crema, the backup cell and the die temperatures (R61, R425, R426, R427, R428, R429, R430, R432, R433, R434, R469). -/
def Obligations.CremaAndThermalModel : Prop :=
  ∀ (t : Nat) (s : State),
    let now := max s.now t
    let a := s.advance t
    let supplied := s.get F.PWR_SUPPLY_VIN_A_OK = 1 ∨ s.get F.PWR_SUPPLY_VIN_B_OK = 1
    let harv := s.get F.PWR_SUPPLY_HARV_OK = 1
    let source := supplied ∨ (harv ∧ s.get F.CREMA_CFG_HARV_EN = 1)
    (s.pwr.cutOff = false →
      Effect (.cremaStart t 2) s
        [F.PWR_STATE 0, R.TIME_OPSEC_LO.all, R.TIME_OPSEC_HI.all, R.TIME_RTCSEC_LO.all, R.TIME_RTCSEC_HI.all,
          F.TIME_STATUS_ELAPSED_GAP, F.CREMA_STICKY_RAM_LOST, logFld] [.pwr, .log] (fun s' =>
        s'.get64 R.TIME_OPSEC_LO R.TIME_OPSEC_HI = 0 ∧ s'.get F.TIME_STATUS_ELAPSED_GAP = 1 ∧
        s'.get F.CREMA_STICKY_RAM_LOST = 1 ∧ s.Logs s' [(Ev.CREMA_RAM_LOST, noInst, [.w (0x100 : Nat)])]) ∧
      Effect (.cremaStart t 8) s [F.PWR_STATE 0, F.CREMA_STICKY_RAM_LOST, logFld] [.pwr, .mtr, .log] (fun s' =>
        s'.mtr.saved = [] ∧ s.Logs s' [(Ev.CREMA_RAM_LOST, noInst, [.w (0x600 : Nat)])])) ∧
    (s.pwr.cutOff = true → ∀ lost,
      let may := supplied ∨ harv ∧ 3300 ≤ s.get F.CREMA_CELL_VCELL
      (may → Answers (.cremaStart t lost) s fun s' =>
        s'.pwr.cutOff = false ∧ s'.domState domCREMA = 2 ∧ s'.get F.RTC_STATUS_RTC_VALID = 0 ∧
        s'.get F.TIME_STATUS_TIME_LOST = 1 ∧ s'.get F.CREMA_STICKY_CELL_CUTOFF = 1 ∧ s'.mtr.saved = []) ∧
      (¬may → Effect (.cremaStart t lost) s [] [] fun _ => True)) ∧
    (s.pwr.cutOff = false → ¬supplied → ¬harv → Answers (.cremaCellCutoff t) s fun s' =>
      s'.pwr.cutOff = true ∧ s'.domState domCREMA = 0 ∧ s'.log.flog = [] ∧ s'.log.mram = s.log.mram) ∧
    (supplied ∨ harv → Effect (.cremaCellCutoff t) s [] [] fun _ => True) ∧
    (s.pwr.cutOff = false → s.get F.CREMA_CFG_TAMPER_EN = 1 →
      (s.pwr.tamperOpen = true → s.get F.CREMA_STICKY_TAMPER = 1 → Effect (.cremaTamperCheck t true) s [] [.pwr] fun s' =>
        s'.pwr.tamperOpen = true ∧ s'.pwr.tamperNew = s.pwr.tamperNew) ∧
      (s.pwr.tamperOpen = false ∨ s.get F.CREMA_STICKY_TAMPER = 0 → s.isOn domMGMT = true →
        Effect (.cremaTamperCheck t true) s
          [F.CREMA_STICKY_TAMPER, R.CREMA_TAMPER_T_LO.all, R.CREMA_TAMPER_T_HI.all, logFld] [.pwr, .log] fun s' =>
          s'.get F.CREMA_STICKY_TAMPER = 1 ∧ s'.get64 R.CREMA_TAMPER_T_LO R.CREMA_TAMPER_T_HI = a.rtcNs % 2 ^ 64 ∧
          s'.pwr.tamperNew = true ∧ s.Logs s' [(Ev.CREMA_TAMPER, noInst, [.d a.rtcNs])]) ∧
      Effect (.cremaTamperCheck t false) s [] [.pwr] fun s' => s'.pwr.tamperOpen = false) ∧
    (s.get F.CREMA_CFG_TAMPER_EN = 0 → s.pwr.cutOff = false → ∀ o, Effect (.cremaTamperCheck t o) s [] [.pwr] fun s' =>
      s'.pwr.tamperOpen = false) ∧
    (s.get F.CREMA_CELL_CHARGING = 1 → ∀ uAh,
      (s.pwr.fromLow = false → Effect (.cremaChargeDone t uAh) s [F.CREMA_CELL_CHARGING] [.pwr] fun s' =>
        s'.get F.CREMA_CELL_CHARGING = 0) ∧
      (s.pwr.fromLow = true → Effect (.cremaChargeDone t uAh) s
        [F.CREMA_CELL_CHARGING, F.CREMA_CELL_CAP, F.CREMA_CELL_AGE_COUNT] [.pwr] fun s' =>
        s'.get F.CREMA_CELL_CHARGING = 0 ∧ s'.pwr.fromLow = false ∧ s'.pwr.capAt = now ∧
        s'.get F.CREMA_CELL_AGE_COUNT = s.plus F.CREMA_CELL_AGE_COUNT 1)) ∧
    (s.pwr.cutOff = false → ∀ v vh ih, v < 4100 →
      Effect (.cremaChgTemp t true v vh ih) s [R.CREMA_CELL.all, R.CREMA_HARV.all] [.pwr] (fun s' =>
        s'.get F.CREMA_CELL_VCELL = v ∧ s'.get F.CREMA_CELL_TEMP_OK = 1 ∧
        (source → s.get F.CREMA_CELL_TESTING = 0 → s'.get F.CREMA_CELL_CHARGING = 1) ∧
        (source → s.get F.CREMA_CELL_TESTING = 0 → s.get F.CREMA_CELL_CHARGING = 0 → s'.pwr.fromLow = decide (v < 3700)) ∧
        (¬supplied → s'.get F.CREMA_CELL_TESTING = 0) ∧ (¬source → s'.get F.CREMA_CELL_CHARGING = 0)) ∧
      Effect (.cremaChgTemp t false v vh ih) s [R.CREMA_CELL.all, R.CREMA_HARV.all, F.CREMA_STICKY_CHG_TEMP, logFld]
        [.pwr, .log] (fun s' =>
        s'.get F.CREMA_CELL_CHARGING = 0 ∧ s'.get F.CREMA_STICKY_CHG_TEMP = 1 ∧
        (s.get F.CREMA_CELL_CHARGING = 1 → s.Logs s' [(Ev.CREMA_CHG_TEMP, noInst, [])]))) ∧
    (s.get F.CREMA_CFG_CAP_TEST = 1 → s.get F.CREMA_CELL_CHARGING = 0 → s.get F.CREMA_CELL_TESTING = 0 →
      (supplied → s.pwr.capAt + 30 * 86400 * uS ≤ now → Effect (.cremaCapTest t) s [F.CREMA_CELL_TESTING] [] fun s' =>
        s'.get F.CREMA_CELL_TESTING = 1) ∧
      (¬supplied ∨ now < s.pwr.capAt + 30 * 86400 * uS → Effect (.cremaCapTest t) s [] [] fun _ => True)) ∧
    (s.get F.CREMA_CELL_TESTING = 1 → supplied → s.get F.CREMA_CELL_TEMP_OK = 1 → s.get F.CREMA_CELL_CHARGING = 0 →
      Effect (.cremaCapTestEnd t) s [R.CREMA_CELL.all] [.pwr] fun s' =>
        s'.get F.CREMA_CELL_TESTING = 0 ∧ s'.get F.CREMA_CELL_VCELL = 3700 ∧ s'.get F.CREMA_CELL_CHARGING = 1 ∧
        s'.pwr.fromLow = true) ∧
    (s.get F.CREMA_CELL_TESTING = 0 → Effect (.cremaCapTestEnd t) s [] [] fun _ => True) ∧
    (∀ p : List Nat,
      (s.pwr.cutOff = true → Effect (.thmUpdate t p) s [] [] fun _ => True) ∧
      (s.pwr.cutOff = false → (∀ d < 21, switchable d = true → s.held d = true) →
        Effect (.thmUpdate t p) s
          (logFld :: (List.range 21).flatMap fun d =>
            [F.PWR_DOM_P_POWER d, F.THM_REG_T_T_EST d, F.THM_REG_T_WARN d, F.THM_REG_CNT_PEAK d]) [.pwr, .log] fun s' =>
          ∀ d < 21, s'.get (F.PWR_DOM_P_POWER d) = satN 65535 (p.getD d 0) ∧ s'.domState d = s.domState d)) ∧
    (∀ (d : DomIx) h, s.pwr.hold.get d = some h →
      (supplied → s.stayOff = false → s.getS (F.THM_REG_T_T_EST d) < 10500 → h.since + 10 * uS ≤ now →
        Effect (.thmRestart t d) s [F.THM_REG_T_HOLD d, R.PWR_STATE_LO.all, R.PWR_STATE_HI.all, logFld] [.pwr, .log] fun s' =>
          s'.held d = false ∧ s'.get (F.THM_REG_T_HOLD d) = 0 ∧ s.Logs s' [(Ev.THM_RESTART, noInst, [.w (d : Nat)])]) ∧
      (10500 ≤ s.getS (F.THM_REG_T_T_EST d) ∨ now < h.since + 10 * uS → Effect (.thmRestart t d) s [] [] fun _ => True)) ∧
    (s.get F.THM_CP_STALE = 0 →
      (s.pwr.cpAt + 2 * uS ≤ now → Effect (.thmCpStale t) s [F.THM_CP_STALE, F.THM_CP_T_CP, logFld] [.log] fun s' =>
        s'.get F.THM_CP_STALE = 1 ∧ s'.getS F.THM_CP_T_CP = satS 16 (max (s.pwr.cpValid.getD 7000) 7000) ∧
        s.Logs s' [(Ev.THM_CP_STALE, noInst, [.w (0 : Nat)])]) ∧
      (now < s.pwr.cpAt + 2 * uS → Effect (.thmCpStale t) s [] [] fun _ => True)) ∧
    (s.isOn domMGMT = true → s.isOn domCREMA = true → ∀ (n : SessIx) (d : DomIx),
      Effect (.thmPeakRead t n d) s [F.THM_REG_CNT_PEAK d] [.mgmt] fun s' =>
        (s'.sess n).value = s.word (R.THM_REG_CNT d) ∧ (s'.sess n).status = .ok)

/-- An image is read, judged, loaded and READY (R440, R446, R447, R448, R449, R451, R453, R454). -/
def Obligations.ImagesReadAndLoaded : Prop :=
  ∀ (t : Nat) (s : State), s.works domVOTE = true →
    let now := max s.now t
    let k := s.start.slot
    let slotFlds := [R.CFG_VERIFY.all, R.CFG_SLOT_VER_A.all, R.CFG_SLOT_VER_B.all]
    let failFlds := [F.CFG_STATUS_STATE, F.CFG_STATUS_CAUSE, F.CFG_STATUS_FAIL_SEC, F.CFG_STATUS_FAIL_CHECK, logFld]
    let fails (fs : List Fld) (c : Instr) (cause sec check : Nat) : Prop :=
      let log := (Ev.CFG_SLOT_INVALID, noInst, natData [k, cause, sec, check])
      let shown (s' : State) : Prop := s'.get F.CFG_STATUS_CAUSE = cause ∧ s'.get F.CFG_STATUS_FAIL_SEC = sec % 256 ∧
        s'.get F.CFG_STATUS_FAIL_CHECK = check ∧ s'.start.loading = none
      (s.start.failed = none → Effect c s (fs ++ failFlds) [.start, .log] fun s' =>
        shown s' ∧ s'.start.failed = some k ∧ s'.start.slot = 1 - k ∧ s'.start.reading = true ∧
        s'.get F.CFG_STATUS_STATE = (if s.start.reload then s.get F.CFG_STATUS_STATE else 2) ∧ s.Logs s' [log]) ∧
      (s.start.failed.isSome = true → s.start.reload = true → Effect c s (fs ++ failFlds) [.start, .log] fun s' =>
        shown s' ∧ s'.start.reading = false ∧ s'.start.reload = false ∧ s'.start.image = s.start.image ∧
        s'.start.failed = none ∧ s'.start.slot = s.get F.CFG_STATUS_SLOT ∧
        s'.get F.CFG_STATUS_STATE = s.get F.CFG_STATUS_STATE ∧ s.Logs s' [log]) ∧
      (s.start.failed.isSome = true → s.start.reload = false → Effect c s (fs ++ failFlds) [.start, .log, .mgmt] fun s' =>
        shown s' ∧ s'.start.reading = false ∧ s'.start.cold = false ∧ s'.mgmt.monitor = true ∧ s'.get F.CFG_STATUS_STATE = 7 ∧
        s.Logs s' [log, (Ev.CFG_NO_IMAGE, noInst, [])])
    (∀ img, s.start.reading = false → Effect (.cfgImageReadDone t img) s [] [] fun _ => True) ∧
    (∀ img : Option Image, s.start.reading = true →
      let c := s.imageCause img
      let noted (s' : State) : Prop := s'.start.slots = s.start.slots.set k img ∧
        s'.get (if k = 0 then F.CFG_VERIFY_VALID_A else F.CFG_VERIFY_VALID_B) = b2n (c.1 = 0) ∧
        s'.get (if k = 0 then F.CFG_VERIFY_CAUSE_A else F.CFG_VERIFY_CAUSE_B) = c.1
      (c.1 = 0 → Effect (.cfgImageReadDone t img) s (F.CFG_STATUS_STATE :: slotFlds) [.start] fun s' =>
        noted s' ∧ s'.start.loading = img ∧ s'.start.reading = false ∧
        s'.get F.CFG_STATUS_STATE = (if s.start.reload then s.get F.CFG_STATUS_STATE else 3)) ∧
      (c.1 ≠ 0 → fails slotFlds (.cfgImageReadDone t img) c.1 c.2 0)) ∧
    (s.imageCause none = (1, 0) ∧ ∀ i : Image,
      (i.answered = false → s.imageCause (some i) = (1, 0)) ∧
      (i.answered = true → i.magic ≠ 0x4E444C44 → s.imageCause (some i) = (2, 0)) ∧
      (i.answered = true → i.magic = 0x4E444C44 → i.fmt ≠ 1 ∨ 10 < i.nsec → s.imageCause (some i) = (3, 0)) ∧
      (i.answered = true → i.magic = 0x4E444C44 → i.fmt = 1 → i.nsec ≤ 10 → i.sections.length = i.nsec →
        i.hcrcOk = false → s.imageCause (some i) = (4, 0))) ∧
    (s.start.loading = none → Effect (.cfgLoadDone t) s [] [] fun _ => True) ∧
    (∀ i, s.start.loading = some i →
      (∀ e, i.entries.find? (entryBad (s.advance t).blankCfg) = some e → fails [] (.cfgLoadDone t) 10 e.1 1) ∧
      (i.entries.find? (entryBad (s.advance t).blankCfg) = none →
        ((i.entries.map toWrite).foldl State.applyOne (s.advance t).blankCfg).cfgCheck (fun _ => true)
          ((i.sect 3).map (·.param)) = none →
        (s.link.begun = false → Answers (.cfgLoadDone t) s fun s' => s'.start.image = some i ∧ s'.start.loading = none ∧
          s'.start.cold = false ∧ s'.start.reload = false) ∧
        (s.link.begun = true → Effect (.cfgLoadDone t) s [F.CFG_STATUS_STATE] [.start] fun s' =>
          s'.start = { s.start with ready := true } ∧
          s'.get F.CFG_STATUS_STATE = (if s.start.reload then s.get F.CFG_STATUS_STATE else 4))) ∧
      (s.works domCLK = true → s.start.ready = true → (s.advance t).cycleNow ≠ s.link.lastBegun ∨ s.link.begun = false →
        Answers (.cycleStart t) s fun s' => s'.start.image = some i ∧ s'.start.loading = none ∧ s'.start.ready = false ∧
          s'.start.reload = false)) ∧
    (let all := ∀ c < 1024, s.inMap c = true → 4 ≤ s.cellState c
     let late := ∃ r ∈ s.start.runAt, r + 10 * uS ≤ now
     (s.get F.CFG_STATUS_STATE = 5 → all ∨ late →
       Effect (.cfgReady t) s [F.CFG_STATUS_STATE, F.CFG_STATUS_READY_PART, F.CFG_BOOT_MS_READY] [] fun s' =>
         s'.get F.CFG_STATUS_STATE = 6 ∧ (s'.get F.CFG_STATUS_READY_PART = 0 ↔ all) ∧
         s'.get F.CFG_BOOT_MS_READY = min 65535 ((now - s.start.coldAt) / uMs)) ∧
     (s.get F.CFG_STATUS_STATE ≠ 5 ∨ (¬all ∧ ¬late) → Effect (.cfgReady t) s [] [] fun _ => True))

/-- CFG_CMD, frames at the xSPI port and a firmware fault (R437, R439, R444, R445, R451, R452, R453, R454). -/
def Obligations.CfgCommandsAndFlash : Prop :=
  ∀ (t : Nat) (s : State),
    (∀ n : SessIx, s.isOn domMGMT = true → s.isOn domVOTE = true →
      let ok (v : Nat) : Prop := s.allows n R.CFG_CMD (BitVec.ofNat 32 v) (BitVec.allOnes 32) = true
      let tells (st : Status) (i : Instr) : Prop := Effect i s [] [.mgmt] fun s' => (s'.sess n).status = st
      let slotFlds := [R.CFG_VERIFY.all, R.CFG_SLOT_VER_A.all, R.CFG_SLOT_VER_B.all]
      let boot := s.start.boot
      let trial := boot.trial = true ∧ s.start.slot = boot.prefer
      let k := 1 - s.start.slot
      (ok 0 → Effect (.cfgCmdNone t n) s [R.CFG_CMD.all] [.mgmt] fun s' => (s'.sess n).status = .ok) ∧
      (ok 1 → ∀ img : Option Image,
        (¬trial → (s.imageCause img).1 = 0 →
          Effect (.cfgActivate t n img) s ([R.CFG_CMD.all, R.CFG_BOOT.all, logFld] ++ slotFlds) [.mgmt, .start, .log] fun s' =>
            (s'.sess n).status = .ok ∧
            s'.start.boot = { boot with gen := boot.gen + 1, prefer := k, trial := true, tries := 0 } ∧
            s'.get F.CFG_BOOT_PREFER = k % 2 ∧ s'.get F.CFG_BOOT_TRIAL = 1 ∧
            s.Logs s' [(Ev.CFG_ACTIVATED, noInst, natData [k, (img.map (·.imgVer)).getD 0])]) ∧
        (¬trial → (s.imageCause img).1 ≠ 0 → Effect (.cfgActivate t n img) s slotFlds [.mgmt, .start] fun s' =>
          (s'.sess n).status = .badValue ∧ s'.start.boot = boot ∧
          s'.get (if k = 0 then F.CFG_VERIFY_CAUSE_A else F.CFG_VERIFY_CAUSE_B) = (s.imageCause img).1) ∧
        (trial → tells .stateMismatch (.cfgActivate t n img))) ∧
      (ok 2 →
        (trial → Effect (.cfgConfirm t n) s [R.CFG_CMD.all, R.CFG_BOOT.all, F.CFG_STATUS_TRIAL] [.mgmt, .start] fun s' =>
          (s'.sess n).status = .ok ∧ s'.start.boot = { boot with gen := boot.gen + 1, trial := false } ∧
          s'.get F.CFG_STATUS_TRIAL = 0) ∧
        (¬trial → tells .stateMismatch (.cfgConfirm t n))) ∧
      (∀ (j : Fin 2) (img : Option Image), ok (3 + 8 * j) →
        Effect (.cfgVerify t n j img) s (R.CFG_CMD.all :: slotFlds) [.mgmt, .start] fun s' =>
          (s'.sess n).status = .ok ∧ s'.start.slots = s.start.slots.set j img ∧
          s'.get (if j = 0 then F.CFG_VERIFY_VALID_A else F.CFG_VERIFY_VALID_B) = b2n ((s.imageCause img).1 = 0) ∧
          s'.get (if j = 0 then F.CFG_VERIFY_CAUSE_A else F.CFG_VERIFY_CAUSE_B) = (s.imageCause img).1) ∧
      (ok 4 →
        let busy := s.anyRunning = true ∨ s.anyPour = true ∨ s.start.reading = true ∨ s.start.loading.isSome = true
        (busy → tells .busy (.cfgReload t n)) ∧
        (¬busy → Effect (.cfgReload t n) s [R.CFG_CMD.all] [.mgmt, .start] fun s' =>
          (s'.sess n).status = .ok ∧ s'.start.reload = true ∧ s'.start.reading = true ∧ s'.start.slot = boot.prefer ∧
          s'.start.failed = none)) ∧
      (ok 5 → Effect (.cfgFwSwitch t n) s [R.CFG_CMD.all, R.CFG_BOOT.all] [.mgmt, .start] fun s' =>
        (s'.sess n).status = .ok ∧ s'.start.boot = { boot with gen := boot.gen + 1, fwPrefer := 1 - boot.fwPrefer }) ∧
      (ok 6 →
        (s.needLevel n 2 = .ok → s.supplied = true → Answers (.cfgRestart t n) s fun s' =>
          s'.start.cold = true ∧ s'.start.coldAt = max s.now t ∧ s'.start.image = none) ∧
        (s.needLevel n 2 = .accessDenied → tells .accessDenied (.cfgRestart t n)))) ∧
    (∀ (n : SessIx) (ok : Bool) (data : List Byte),
      let dir := s.get F.XSPI_CMD_FMT_DIR
      let len := min 256 (s.get F.XSPI_CMD_LEN_LEN)
      let byteOf (s : State) (j : Nat) : Nat := fieldOf (s.word (R.XSPI_DATA (j / 4))) (8 * (j % 4)) 8
      let sent (s' : State) : Prop := (s'.sess n).status = .ok ∧
        s'.start.frameSent = some ((s.word R.XSPI_CMD_FMT).toNat, s.get F.XSPI_CMD_OP_OPCODE, s.get F.XSPI_CMD_ADDR_ADDR, len)
      (dir = 1 → Effect (.xspiReadFrame t n ok data) s [] [] fun _ => True) ∧
      (dir = 0 → Effect (.xspiWriteFrame t n ok) s [] [] fun _ => True) ∧
      (s.isOn domMGMT = true → s.isOn domXSPI = true → s.judgeWord n R.XSPI_CMD_GO 1 1 = .ok →
        (s.xspiProt = true →
          (dir = 0 → Effect (.xspiReadFrame t n ok data) s [F.XSPI_STATUS_PROT] [.mgmt] fun s' =>
            (s'.sess n).status = .accessDenied ∧ s'.get F.XSPI_STATUS_PROT = 1) ∧
          (dir = 1 → Effect (.xspiWriteFrame t n ok) s [F.XSPI_STATUS_PROT] [.mgmt] fun s' =>
            (s'.sess n).status = .accessDenied ∧ s'.get F.XSPI_STATUS_PROT = 1)) ∧
        (s.xspiProt = false → s.start.reading = true →
          (dir = 0 → Effect (.xspiReadFrame t n ok data) s [] [.mgmt] fun s' => (s'.sess n).status = .busy) ∧
          (dir = 1 → Effect (.xspiWriteFrame t n ok) s [] [.mgmt] fun s' => (s'.sess n).status = .busy)) ∧
        (s.xspiProt = false → s.start.reading = false →
          (dir = 1 → Effect (.xspiWriteFrame t n ok) s [F.XSPI_STATUS_ERROR] [.mgmt, .start] fun s' =>
            sent s' ∧ s'.get F.XSPI_STATUS_ERROR = (if ok then s.get F.XSPI_STATUS_ERROR else 1)) ∧
          (dir = 0 → ok = false → Effect (.xspiReadFrame t n ok data) s [F.XSPI_STATUS_ERROR] [.mgmt, .start] fun s' =>
            sent s' ∧ s'.get F.XSPI_STATUS_ERROR = 1) ∧
          (dir = 0 → ok = true → Effect (.xspiReadFrame t n ok data) s ((List.range 64).map fun w => (R.XSPI_DATA w).all)
            [.mgmt, .start] fun s' =>
            sent s' ∧ ∀ j < 256, byteOf s' j = if j < len then byteAt data j else byteOf s j)))) ∧
    (∀ (dev : Fin 8) (addr : Nat), s.works domMGMT = true →
      (s.mgmt.monitor = true → Effect (.xspiFault t dev addr) s [] [] fun _ => True) ∧
      (s.mgmt.monitor = false → Effect (.xspiFault t dev addr) s [R.DEV_FW_VER.all, logFld] [.mgmt, .log, .free] fun s' =>
        s'.mgmt = { s.mgmt with monitor := true } ∧ s'.word R.DEV_FW_VER = 0 ∧
        s.Logs s' [(Ev.XSPI_FAULT, noInst, natData [dev.val, addr]), (Ev.CFG_MONITOR, noInst, [.w s.freeVal])]))

/-- The management processor's start, the field lock and the key slots (R452, R453, R457, R458, R459, R460). -/
def Obligations.FirmwareStartAndFieldAccess : Prop :=
  ∀ (t : Nat) (s : State),
    let now := max s.now t
    let x := s.start
    (s.works domMGMT = true →
      (∀ valid ver, x.mgmtUp = false → Effect (.mgmtStart t valid ver) s [] [] fun _ => True) ∧
      (∀ (valid : Fin 4) (ver : Word), x.mgmtUp = true →
        let want := x.boot.fwPrefer
        let mon := x.bootMon = true ∨ s.get F.CFG_STATUS_STATE = 7
        let lock := x.lockAtBoot = true ∨ s.pwr.tamperNew = true ∧ s.get F.CREMA_CFG_TAMPER_LOCK = 1
        want ≤ 1 →
        Effect (.mgmtStart t valid ver) s [R.DEV_FW_VER.all, F.CFG_BOOT_FW_REGION, F.ACC_FIELD_LOCK_CLOSED, logFld]
          [.start, .mgmt, .pwr, .log, .free] fun s' =>
          s'.start.mgmtUp = false ∧ s'.pwr.tamperNew = false ∧
          (mon ∨ valid = 0 → s'.mgmt.monitor = true ∧ s'.word R.DEV_FW_VER = 0) ∧
          (¬mon → valid.val.testBit want = true →
            s'.mgmt.monitor = false ∧ s'.get F.CFG_BOOT_FW_REGION = want ∧ s'.word R.DEV_FW_VER = ver) ∧
          (¬mon → valid.val.testBit want = false → valid.val.testBit (1 - want) = true →
            s'.mgmt.monitor = false ∧ s'.get F.CFG_BOOT_FW_REGION = 1 - want ∧ s'.word R.DEV_FW_VER = ver) ∧
          (lock → s'.get F.ACC_FIELD_LOCK_CLOSED = 1 ∧ s'.start.opener = none ∧
            s.Logs s' [(Ev.ACC_LOCK_CLOSED, noInst, [.w s.freeVal])]) ∧
          (¬lock → s'.get F.ACC_FIELD_LOCK_CLOSED = s.get F.ACC_FIELD_LOCK_CLOSED ∧ s'.log = s.log))) ∧
    (∀ n : SessIx, s.isOn domMGMT = true → s.allows n R.ACC_FIELD_LOCK 2 2 = true →
      (s.needLevel n 1 = .ok →
        Effect (.accLockClose t n) s [R.ACC_FIELD_LOCK.all, logFld] [.mgmt, .start, .log, .free] fun s' =>
          (s'.sess n).status = .ok ∧ s'.get F.ACC_FIELD_LOCK_CLOSED = 1 ∧ s'.start.opener = none ∧ s'.start.openLevel = 0 ∧
          s.Logs s' [(Ev.ACC_LOCK_CLOSED, noInst, [.w s.freeVal])])) ∧
    (∀ n : SessIx, s.isOn domMGMT = true → s.needLevel n 1 ≠ .ok →
      Effect (.accLockClose t n) s [] [.mgmt] fun s' => (s'.sess n).status ≠ .ok) ∧
    (x.opener.isSome = true → x.openUntil ≤ now → Effect (.accOpenerExpired t) s [] [.start] fun s' =>
      s'.start = { x with opener := none, openLevel := 0 }) ∧
    (x.opener = none ∨ now < x.openUntil → Effect (.accOpenerExpired t) s [] [] fun _ => True) ∧
    (∀ e, x.blockEnd = some e →
      (e ≤ now → Effect (.accAuthUnblock t) s [] [.start] fun s' => s'.start = { x with blockEnd := none }) ∧
      (now < e → Effect (.accAuthUnblock t) s [] [] fun _ => True)) ∧
    (x.blockEnd = none → Effect (.accAuthUnblock t) s [] [] fun _ => True) ∧
    (∀ e, x.keyAt = some e →
      (e + 60 * uS ≤ now → Effect (.accKeyDataClear t) s [] [.start] fun s' =>
        s'.start = { x with keyData := [], keyAt := none }) ∧
      (now < e + 60 * uS → Effect (.accKeyDataClear t) s [] [] fun _ => True)) ∧
    (x.keyAt = none → Effect (.accKeyDataClear t) s [] [] fun _ => True) ∧
    (∀ (n : SessIx) (w : Fin 8) (value mask : Word), s.isOn domMGMT = true →
      (s.judgeWord n (R.ACC_KEY_DATA w) value mask = .ok →
        Effect (.accKeyDataWrite t n w value mask) s [] [.mgmt, .start] fun s' =>
          (s'.sess n).status = .ok ∧ s'.start.keyAt = some now ∧ s'.start.keySess = n ∧
          s'.start.keyData.get w = (masked (BitVec.ofNat 32 (x.keyData.get w)) value mask).toNat) ∧
      (s.judgeWord n (R.ACC_KEY_DATA w) value mask = .locked → Effect (.accKeyDataWrite t n w value mask) s [] [.mgmt]
        fun s' => (s'.sess n).status = .locked)) ∧
    (∀ (n : SessIx) (k : Fin 4), s.isOn domMGMT = true →
      s.allows n R.ACC_KEY_SEL (BitVec.ofNat 32 (k.val + 4)) 7 = true →
      (s.needLevel n 2 = .ok → x.keys.get k = none →
        Effect (.accKeyProgram t n k) s [R.ACC_KEY_SEL.all, logFld] [.mgmt, .start, .log] fun s' =>
          (s'.sess n).status = .ok ∧ s'.start.keyData = [] ∧ s'.start.keyAt = none ∧
          s'.start.keys = x.keys.set k (some ((List.range 8).flatMap fun w => leBytes 4 (x.keyData.get w))) ∧
          s.Logs s' [(Ev.ACC_KEY_PROGRAMMED, noInst, [.w k.val])]) ∧
      (s.needLevel n 2 = .ok → (x.keys.get k).isSome = true → Effect (.accKeyProgram t n k) s [] [.mgmt] fun s' =>
        (s'.sess n).status = .accessDenied) ∧
      (s.needLevel n 2 = .accessDenied → Effect (.accKeyProgram t n k) s [] [.mgmt] fun s' =>
        (s'.sess n).status = .accessDenied))

/-- Frames discarded, sessions opened, closed and idle, replies read (R452, R457, R462, R463, R464, R465, R478). -/
def Obligations.SessionsAndFrames : Prop :=
  ∀ (t : Nat) (s : State),
    let a := s.advance t
    let now := max s.now t
    (∀ i2c bytes,
      (s.served i2c = false ∨ frameGood i2c bytes = true → Effect (.mgmtFrameBad t i2c bytes) s [] [] fun _ => True) ∧
      (s.served i2c = true → frameGood i2c bytes = false →
        Effect (.mgmtFrameBad t i2c bytes) s [logFld] [.mgmt, .log] fun s' =>
          s'.mgmt = { s.mgmt with badFrames := min 65535 (s.mgmt.badFrames + 1),
                                  i2cReply := if i2c then none else s.mgmt.i2cReply } ∧
          (a.quiet s.log.badFrameAt (10 * uS) = false → s'.log = s.log) ∧
          (a.quiet s.log.badFrameAt (10 * uS) = true →
            (s.setLog fun x => { x with badFrameAt := some now }).Logs s'
              [(Ev.MGMT_FRAME_BAD, noInst, [.w (min 65535 (s.mgmt.badFrames + 1))])]))) ∧
    (∀ (h : MHead) (body : List Byte),
      let offered := byteAt body 0
      let level := byteAt body 1
      let minor := leAt body 2 2
      let idle := leAt body 4 2
      let two := offered.testBit 2 = true ∧ s.mgmt.monitor = false
      let one := offered.testBit 1 = true
      let agreed := (one ∨ two) ∧ ¬(3 < minor ∧ (two ∨ offered.testBit 2 = false))
      let good := level ≤ 2 ∧ (idle = 0 ∨ 10 ≤ idle ∧ idle ≤ 600)
      let tells (fs : List Fld) (ps : List Part) (st : Status) (P : State → Prop) : Prop :=
        Effect (.mgmtOpen t h body) s fs (.mgmt :: ps) fun s' =>
          (∃ r, s'.mgmt.lastReply = some r ∧ r.status = st ∧ r.tag = h.tag ∧ r.seq = h.seq ∧ r.session = 0xFF ∧
            (st ≠ .ok → r.body = [])) ∧ s'.mgmt.sess = (if st = .ok then s'.mgmt.sess else s.mgmt.sess) ∧ P s'
      (s.served h.i2c = false → Effect (.mgmtOpen t h body) s [] [] fun _ => True) ∧
      (s.served h.i2c = true → body.length ≠ 14 → body.length ≤ maxBody h.i2c → tells [] [] .badValue fun _ => True) ∧
      (s.served h.i2c = true → body.length = 14 →
        (¬agreed → tells [logFld] [.log] .version fun s' =>
          s.Logs s' [(Ev.MGMT_VERSION_REFUSED, noInst, [.w offered])]) ∧
        (agreed → (∀ n < 8, (s.sess n).active = true) → tells [] [] .busy fun _ => True) ∧
        (∀ n < 8, agreed → (s.sess n).active = false → (∀ k < n, (s.sess k).active = true) →
          (¬good → tells [] [] .badValue fun _ => True) ∧
          (good →
            let lvl := if s.lockClosed then 0 else level
            tells [logFld] [.log] .ok fun s' =>
              let x := s'.sess n
              (∀ k < 8, k ≠ n → s'.sess k = s.sess k) ∧ x.active = true ∧ x.level = lvl ∧
              x.major = (if two then 2 else 1) ∧ x.port = b2n h.i2c ∧ x.bind = (if h.i2c then leAt body 6 8 else h.bind) ∧
              x.idle = (if idle = 0 then s.get F.MGMT_CFG_IDLE_S else idle) ∧ x.lastAt = now ∧
              s.Logs s' [(Ev.MGMT_SESSION_OPEN, n, [.w n, .w lvl, .w (b2n h.i2c)])])))) ∧
    (∀ h : MHead,
      let n := h.session
      (s.fresh h [] → (s.sess n).pour = none → Effect (.mgmtClose t h) s [logFld] [.mgmt, .start, .pour, .log] fun s' =>
        (s'.sess n).active = false ∧ (∀ k < 8, k ≠ n → s'.sess k = s.sess k) ∧ s'.replied h 0x02 .ok false [] ∧
        (s.start.opener = some n → s'.start.opener = none) ∧
        s.Logs s' [(Ev.MGMT_SESSION_CLOSE, n, [.w n, .w (0 : Nat)])]) ∧
      (s.fresh h [] → Answers (.mgmtClose t h) s fun s' => (s'.sess n).active = false)) ∧
    (∀ n : SessIx, s.works domMGMT = true →
      let x := s.sess n
      let due := x.active = true ∧ x.lastAt + x.idle * uS ≤ now
      (¬due → Effect (.mgmtSessionIdle t n) s [] [] fun _ => True) ∧
      (due → x.pour = none → Effect (.mgmtSessionIdle t n) s [logFld] [.mgmt, .start, .pour, .log] fun s' =>
        (s'.sess n).active = false ∧ (∀ k < 8, k ≠ n.val → s'.sess k = s.sess k) ∧
        (∀ r, s.mgmt.i2cReply = some r → r.session = n.val → s'.mgmt.i2cReply = some { r with status := .timeout, body := [], more := false }) ∧
        s.Logs s' [(Ev.MGMT_SESSION_CLOSE, n.val, [.w n.val, .w (1 : Nat)])]) ∧
      (due → Answers (.mgmtSessionIdle t n) s fun s' => (s'.sess n).active = false)) ∧
    (s.works domMGMT = true → Effect (.i2cReplyRead t) s [] [.mgmt] fun s' =>
      s'.mgmt.i2cReply = none ∧ s'.mgmt.sess = s.mgmt.sess ∧
      (s.mgmt.i2cReply = none → s'.mgmt.i2cOut = [0, 0]) ∧
      (∀ r, s.mgmt.i2cReply = some r → s'.mgmt.i2cOut = leBytes 2 r.bytes.length ++ r.bytes)) ∧
    (s.works domMGMT = false → Effect (.i2cReplyRead t) s [] [] fun _ => True)

/-- Requests of a session, READ, WRITE and READ_BLOCK (R10, R105, R464, R465, R466, R473). -/
def Obligations.RequestsReadAndWrite : Prop :=
  ∀ (t : Nat) (s : State) (h : MHead) (body : List Byte),
    let n := h.session
    let x := s.sess n
    let q := (s.advance t).asked h
    let only (c : Instr) (op : Nat) (st : Status) (b : List Byte) : Prop :=
      Effect c s [] [.mgmt] fun s' => s'.replied h op st false b ∧ ∀ k < 8, k ≠ n → s'.sess k = s.sess k
    let mapped (addr : Nat) : Prop := (decodeAddr addr).isSome = true
    (∀ (e : AccEnv) (fail hard : Fin 16),
      ∀ c ∈ [(0x10, Instr.mgmtRead t h body), (0x11, .mgmtWrite t h body e), (0x12, .readBlock t h body),
        (0x30, .eventFetch t h body), (0x40, .recordQuery t h body), (0x41, .recordFetch t h body ⟨fail, hard⟩),
        (0x50, .challenge t h body), (0x51, .response t h body)],
      (s.served h.i2c = false → Effect c.2 s [] [] fun _ => True) ∧
      (s.served h.i2c = true → maxBody h.i2c < body.length → Effect c.2 s [logFld] [.mgmt, .log] fun s' =>
        s'.mgmt.badFrames = min 65535 (s.mgmt.badFrames + 1) ∧ s'.mgmt.sess = s.mgmt.sess ∧
        s'.mgmt.lastReply = s.mgmt.lastReply) ∧
      (s.served h.i2c = true → body.length ≤ maxBody h.i2c →
        (8 ≤ n ∨ x.active = false → only c.2 c.1 .badValue []) ∧
        (n < 8 → x.active = true →
          (x.port ≠ b2n h.i2c ∨ x.bind ≠ h.bind → only c.2 c.1 .accessDenied []) ∧
          (x.port = b2n h.i2c → x.bind = h.bind → s.busySess n = true →
            (h.seq = x.seq → Effect c.2 s [] [.mgmt] fun s' => s'.mgmt.lastReply = s.mgmt.lastReply ∧
              ∀ k < 8, k ≠ n → s'.sess k = s.sess k) ∧
            (h.seq ≠ x.seq → only c.2 c.1 (if h.seq = (x.seq + 1) % 2 ^ 32 then .busy else .badValue) [])) ∧
          (∀ r, x.port = b2n h.i2c → x.bind = h.bind → s.busySess n = false → h.seq = x.seq → x.reply = some r →
            Effect c.2 s [] [.mgmt] fun s' => s'.mgmt.lastReply = some r ∧ ∀ k < 8, k ≠ n → s'.sess k = s.sess k) ∧
          (x.port = b2n h.i2c → x.bind = h.bind → s.busySess n = false → h.seq ≠ (x.seq + 1) % 2 ^ 32 →
            x.reply = none ∨ h.seq ≠ x.seq → only c.2 c.1 .badValue [])))) ∧
    (s.fresh h body → body.length % 4 ≠ 0 ∨ body.length = 0 ∨ 32 * 4 < body.length →
      only (.mgmtRead t h body) 0x10 .badValue []) ∧
    (∀ addr < 2 ^ 32, s.fresh h body → body = leBytes 4 addr →
      (¬mapped addr → only (.mgmtRead t h body) 0x10 .ok ([0, 0, 0, 0] ++ leBytes 1 0x01 ++ [0, 0, 0])) ∧
      Answers (.mgmtRead t h body) s (fun s' => s'.replied h 0x10 .ok false
        (leBytes 4 (q.readAny n addr).2.1.toNat ++ leBytes 1 (q.readAny n addr).1.code ++ [0, 0, 0]))) ∧
    (∀ k, s.fresh h body → body.length = 4 * k → 1 ≤ k → k ≤ 32 → Answers (.mgmtRead t h body) s fun s' =>
      ∃ b, s'.replied h 0x10 .ok false b ∧ b.length = 8 * k) ∧
    (∀ e : AccEnv, s.fresh h body → body.length % 12 ≠ 0 ∨ body.length = 0 ∨ 32 * 12 < body.length →
      only (.mgmtWrite t h body e) 0x11 .badValue []) ∧
    (∀ (e : AccEnv) (addr : Nat) (value mask : Word) rest, addr < 2 ^ 32 → s.fresh h body →
      body = leBytes 4 addr ++ leBytes 4 value.toNat ++ leBytes 4 mask.toNat ++ rest → rest.length % 12 = 0 →
      body.length ≤ 32 * 12 →
      ((windowOf addr).isSome = true → addr % 4 = 0 → only (.mgmtWrite t h body e) 0x11 .ok (leBytes 1 0 ++ leBytes 1 0x02)) ∧
      (windowOf addr = none ∨ addr % 4 ≠ 0 → ¬mapped addr → only (.mgmtWrite t h body e) 0x11 .ok (leBytes 1 0 ++ leBytes 1 0x01)) ∧
      (windowOf addr = none → rest = [] → (q.writeAny n addr value mask e).1 = .ok →
        Answers (.mgmtWrite t h body e) s fun s' =>
          s'.replied h 0x11 .ok false (leBytes 1 0xFF ++ leBytes 1 0) ∧ s'.regs = (q.writeAny n addr value mask e).2.regs) ∧
      (windowOf addr = none → (q.writeAny n addr value mask e).1 ≠ .ok → (q.writeAny n addr value mask e).1 ≠ .waits →
        Answers (.mgmtWrite t h body e) s fun s' =>
          s'.replied h 0x11 .ok false (leBytes 1 0 ++ leBytes 1 (q.writeAny n addr value mask e).1.code)) ∧
      ((q.writeAny n addr value mask e).1 = .waits → Answers (.mgmtWrite t h body e) s fun s' =>
        (s'.sess n).reply = none ∧ s'.mgmt.lastReply = s.mgmt.lastReply ∧
        .writes h 0 (parts 12 body) e ∈ s'.cells.asks)) ∧
    (s.fresh h body → body.length ≠ 6 ∨ leAt body 4 2 % 4 ≠ 0 → only (.readBlock t h body) 0x12 .badValue []) ∧
    (∀ addr len, s.fresh h body → body = leBytes 4 addr ++ leBytes 2 len → addr < 2 ^ 32 → len % 4 = 0 →
      len ≤ (if h.i2c then 240 else 1024) →
      (addr % 4 ≠ 0 → 0 < len → only (.readBlock t h body) 0x12 .ok (blockBody [] .badAddr)) ∧
      (windowOf addr = none → len = 0 → only (.readBlock t h body) 0x12 .ok (blockBody [] .ok)) ∧
      (windowOf addr = none → 4 ≤ len → ¬mapped addr → only (.readBlock t h body) 0x12 .ok (blockBody [] .badAddr)) ∧
      (windowOf addr = none → len = 4 → (q.readAny n addr).1 = .ok → Answers (.readBlock t h body) s fun s' =>
        s'.replied h 0x12 .ok false (blockBody (leBytes 4 (q.readAny n addr).2.1.toNat) .ok)) ∧
      (∀ l off size lvl, windowOf addr = some (0, l, off, size, lvl) → addr % 4 = 0 → s.needLevel n 2 = .accessDenied →
        only (.readBlock t h body) 0x12 .ok (blockBody [] .accessDenied)) ∧
      (∀ r off size lvl, windowOf addr = some (2, r, off, size, lvl) → addr % 4 = 0 → off + len ≤ size → s.needLevel n 0 = .ok →
        only (.readBlock t h body) 0x12 .ok (blockBody (frameBytes (s.ring r).tlm off len) .ok)))

/-- Event and record queries, CHALLENGE and RESPONSE (R332, R337, R343, R344, R458, R459, R464, R467, R474). -/
def Obligations.QueriesAndReopening : Prop :=
  ∀ (t : Nat) (s : State) (h : MHead) (body : List Byte), s.fresh h body →
    let n := h.session
    let a := s.advance t
    let now := max s.now t
    let q := a.asked h
    let only (c : Instr) (op : Nat) (st : Status) (b : List Byte) : Prop :=
      Effect c s [] [.mgmt] fun s' => s'.replied h op st false b ∧ ∀ k < 8, k ≠ n → s'.sess k = s.sess k
    let count := byteAt body 8
    let fetch := body.length = 14 ∧ 1 ≤ count ∧ count ≤ (if h.i2c then 3 else 22)
    let two := 2 ≤ (s.sess n).major ∧ s.mgmt.monitor = false
    (¬fetch → only (.eventFetch t h body) 0x30 .badValue []) ∧
    (fetch → Effect (.eventFetch t h body) s [] [.mgmt] fun s' =>
      ∃ more next k l, s'.replied h 0x30 .ok more (leBytes 8 next ++ leBytes 1 k ++ leBytes 7 0 ++ l) ∧ k ≤ count) ∧
    (∀ e l, fetch → s.heldEntries = e :: l → leAt body 0 8 = 0 → leAt body 10 2 ≤ e.code → e.code ≤ leAt body 12 2 →
      Effect (.eventFetch t h body) s [] [.mgmt] fun s' =>
        ∃ more b, s'.replied h 0x30 .ok more b ∧ (b.drop 16).take e.bytes.length = e.bytes) ∧
    (∀ e l, fetch → 0 < leAt body 0 8 → s.heldEntries.filter (fun e => decide (leAt body 0 8 ≤ e.seq)) = e :: l →
      leAt body 0 8 < e.seq → Effect (.eventFetch t h body) s [] [.mgmt] fun s' =>
        let p := s.placeholder (leAt body 0 8) (e.seq - leAt body 0 8)
        ∃ more b, s'.replied h 0x30 .ok more b ∧ (b.drop 16).take p.bytes.length = p.bytes) ∧
    (∀ fail hard, ¬two → only (.recordQuery t h body) 0x40 .version [] ∧
      only (.recordFetch t h body ⟨fail, hard⟩) 0x41 .version []) ∧
    (two → body.length ≠ 24 → only (.recordQuery t h body) 0x40 .badValue []) ∧
    (∀ fail hard, two → body.length ≠ 20 → only (.recordFetch t h body ⟨fail, hard⟩) 0x41 .badValue []) ∧
    (∀ m cap, two → body = leBytes 2 m ++ leBytes 1 2 ++ leBytes 1 0 ++ leBytes 8 0 ++ leBytes 8 0 ++ leBytes 4 cap →
      0x100 ≤ m → m < 0x108 → cap < 2 ^ 32 → s.isOn domREC = true →
      (s.carafe.caps = [] → s.carafe.capDone = [] → only (.recordQuery t h body) 0x40 .badValue []) ∧
      (∀ c r, s.carafe.capDone.find? (fun c => c.id == cap) = some c → c.records m = [r] →
        only (.recordQuery t h body) 0x40 .ok (leBytes 8 0 ++ leBytes 8 0 ++ Run.bytes ⟨r.seq, r.seq, s.capClass cap r, 0⟩))) ∧
    (∀ (hard : Fin 16) m cap sq off len c r, two →
      body = leBytes 2 m ++ leBytes 4 cap ++ leBytes 8 sq ++ leBytes 4 off ++ leBytes 2 len →
      m < 2 ^ 16 → 0 < cap → cap < 2 ^ 32 → sq < 2 ^ 64 → off < 2 ^ 32 → len ≤ maxBody h.i2c - 16 → s.isOn domREC = true →
      s.carafe.capDone.find? (fun c => c.id == cap) = some c → (c.records m).filter (fun r => r.seq == sq) = [r] →
      s.capClass cap r = 0 → s.carafe.bad.contains (r.stream, r.seq) = false →
      (∃ d ∈ s.members r.pair, s.drvState d = dONLINE) →
      Effect (.recordFetch t h body ⟨0, hard⟩) s [] [.mgmt] fun s' =>
        let part := bytesAt r.bytes off len
        s'.replied h 0x41 .ok (decide (off + part.length < r.bytes.length))
          (leBytes 8 sq ++ leBytes 4 off ++ leBytes 4 r.bytes.length ++ part)) ∧
    (∀ m kind from_ to_, two → body = leBytes 2 m ++ leBytes 1 kind ++ leBytes 1 0 ++ leBytes 8 from_ ++ leBytes 8 to_ ++ leBytes 4 0 →
      m < 64 → kind < 2 → from_ ≤ to_ → to_ < 2 ^ 64 →
      let front := s.get64 (R.REC_STRM_FRONT_LO m) (R.REC_STRM_FRONT_HI m)
      let oldest := ((s.strmRecs m).head?.map (·.seq)).getD 0
      (s.isOn domREC = false → only (.recordQuery t h body) 0x40 .domainOff []) ∧
      (s.isOn domREC = true → Effect (.recordQuery t h body) s [] [.mgmt] fun s' =>
        ∃ more b, s'.replied h 0x40 .ok more (leBytes 8 front ++ leBytes 8 oldest ++ b)) ∧
      (s.isOn domREC = true → kind = 0 → front < from_ →
        only (.recordQuery t h body) 0x40 .ok (leBytes 8 front ++ leBytes 8 oldest ++ Run.bytes ⟨from_, to_, 4, 0⟩))) ∧
    (∀ (fail hard : Fin 16) m sq off len r, two → body = leBytes 2 m ++ leBytes 4 0 ++ leBytes 8 sq ++ leBytes 4 off ++ leBytes 2 len →
      m < 64 → sq < 2 ^ 64 → off < 2 ^ 32 → len ≤ maxBody h.i2c - 16 →
      (s.strmRecs m).find? (fun r => r.seq == sq && r.typ == 0) = some r → r.units.any s.carafe.lost.contains = false →
      s.carafe.bad.contains (r.stream, r.seq) = false →
      let ms := (s.members r.pair).filter fun d => s.drvState d == dONLINE
      let part := bytesAt r.bytes off len
      let given (s' : State) : Prop := s'.replied h 0x41 .ok (decide (off + part.length < r.bytes.length))
        (leBytes 8 sq ++ leBytes 4 off ++ leBytes 4 r.bytes.length ++ part)
      (s.isOn domREC = false → only (.recordFetch t h body ⟨fail, hard⟩) 0x41 .domainOff []) ∧
      (s.isOn domREC = true → s.pairLost r.pair = true ∨ s.front m < sq →
        only (.recordFetch t h body ⟨fail, hard⟩) 0x41 .badValue []) ∧
      (s.isOn domREC = true → s.pairLost r.pair = false → sq ≤ s.front m → fail = 0 → ms ≠ [] →
        Effect (.recordFetch t h body ⟨fail, hard⟩) s [] [.mgmt] given) ∧
      (∀ a b, s.isOn domREC = true → s.pairLost r.pair = false → sq ≤ s.front m → ms = [a, b] → a < 4 →
        fail.val.testBit a = true → fail.val.testBit b = false → hard = 0 →
        Effect (.recordFetch t h body ⟨fail, hard⟩) s
          [F.REC_DRV_ERR_READ a, F.REC_DRV_FLIGHT_NOW a, F.REC_DRV_FLIGHT_MAX a, logFld] [.mgmt, .carafe, .log] fun s' =>
          given s' ∧ s.Logs s' [(Ev.REC_READ_REPAIR, noInst, [])]) ∧
      (∀ a b, s.isOn domREC = true → s.pairLost r.pair = false → sq ≤ s.front m → ms = [a, b] → a < 4 →
        fail.val.testBit a = true → fail.val.testBit b = false → hard.val.testBit a = true →
        Answers (.recordFetch t h body ⟨fail, hard⟩) s fun s' =>
          given s' ∧ s'.drvState a = dFAILED) ∧
      (s.isOn domREC = true → s.pairLost r.pair = false → sq ≤ s.front m → fail = 15 → hard = 0 → (∀ d ∈ ms, d < 4) →
        Effect (.recordFetch t h body ⟨fail, hard⟩) s (logFld :: (List.range 4).map fun d => F.REC_DRV_ERR_READ d)
          [.mgmt, .carafe, .log] fun s' =>
          s'.replied h 0x41 .badValue false [] ∧ s'.carafe.lost = r.units ++ s.carafe.lost ∧
          s.Logs s' [(Ev.REC_READ_LOST, noInst, natData [r.pair, r.pseg, r.pos])])) ∧
    (let level := byteAt body 0
     let mode := byteAt body 1
     let slot := byteAt body 2
     let form := body.length = 3 ∧ 1 ≤ level ∧ level ≤ 2 ∧ (mode = 0 ∨ mode = 1 ∧ slot ≤ 1)
     let taken := s.start.blockEnd.isSome = true ∨ (s.start.opener.isSome = true ∧ s.start.opener ≠ some n)
     (¬form → only (.challenge t h body) 0x50 .badValue []) ∧
     (form → taken → only (.challenge t h body) 0x50 .busy []) ∧
     (form → ¬taken → s.modeMay level mode slot = false → only (.challenge t h body) 0x50 .accessDenied []) ∧
     (form → ¬taken → s.modeMay level mode slot = true → Effect (.challenge t h body) s [] [.mgmt, .free] fun s' =>
       ∃ b, b.length = 16 ∧ s'.replied h 0x50 .ok false b ∧ (s'.sess n).nonce = some ⟨b, level, mode, slot, now⟩)) ∧
    ((s.sess n).nonce = none → only (.response t h body) 0x51 .stateMismatch []) ∧
    (∀ x, (s.sess n).nonce = some x →
      let d := body.drop 1
      let form := d.length = byteAt body 0 ∧ (x.mode = 0 → 8 ≤ d.length ∧ d.length ≤ 64) ∧ (x.mode = 1 → d.length = 32)
      let taken := s.start.opener.isSome = true ∧ s.start.opener ≠ some n
      let fails := now :: a.recentFails
      (¬form → only (.response t h body) 0x51 .badValue []) ∧
      (form → taken → only (.response t h body) 0x51 .busy []) ∧
      (form → ¬taken → q.responseOk n x d = true → Effect (.response t h body) s [logFld] [.mgmt, .start, .log] fun s' =>
        s'.replied h 0x51 .ok false [] ∧ (s'.sess n).nonce = none ∧ s'.start.opener = some n ∧
        s'.start.openLevel = x.level ∧ s'.start.openUntil = now + s.get F.ACC_POLICY_HOLD_MIN * 60 * uS ∧
        s.Logs s' [(Ev.ACC_REOPENED, noInst, natData [n, x.level, x.mode])]) ∧
      (form → ¬taken → q.responseOk n x d = false → Effect (.response t h body) s [logFld] [.mgmt, .start, .log] fun s' =>
        s'.replied h 0x51 .accessDenied false [] ∧ (s'.sess n).nonce = none ∧ s'.start.fails = fails ∧
        s'.start.opener = s.start.opener ∧
        (s.start.blockEnd = none → s'.start.blockEnd =
          if s.get F.ACC_POLICY_MAX_FAIL ≤ fails.length then some (now + 600 * uS) else none) ∧
        s.Logs s' ((Ev.ACC_AUTH_FAIL, noInst, [.w n, .w x.mode]) ::
          if s.get F.ACC_POLICY_MAX_FAIL ≤ fails.length ∧ s.start.blockEnd = none then [(Ev.ACC_AUTH_BLOCKED, noInst, [])]
          else [])))

/-- Events, the fallback log, the hold of numbering and the retest (R471, R472, R474, R475, R476). -/
def Obligations.EventsLoggedAndRetested : Prop :=
  ∀ (t : Nat) (s : State),
    let a := s.advance t
    let l := s.log
    let now := max s.now t
    (∀ (code inst : Fin 65536) (data : List DItem) (fails : Fin 3),
      let c := Instr.logEntry t code inst data fails
      let q := l.seq + 1
      let e : LogEntry := { a.entry code inst data with seq := q }
      let bad := l.mramBad.contains (q % 65536) || decide (fails.val = 2)
      let free := l.holdAt = none ∧ l.fallback = false ∧ l.retestAt = none
      (l.holdAt.isSome = true → Effect c s [] [.log] fun s' =>
        s'.log = if l.held.length < 8192 then { l with held := l.held ++ [{ e with seq := 0, flags := e.flags ||| 8 }] }
          else { l with lost := min 65535 (l.lost + 1) }) ∧
      (s.isOn domMGMT = true → free → bad = false → Effect c s [] [.log] fun s' =>
        s'.log.seq = q ∧ s'.log.mram = l.mram.set (q % 65536) (some e) ∧ s'.log.flog = l.flog ∧
        s'.log.verify = min (2 ^ 32 - 1) (l.verify + fails.val) ∧
        s'.log.offered = (if s.isOn domDRAM then l.offered ++ [e] else l.offered)) ∧
      (s.isOn domMGMT = true → free → bad = true → Effect c s [logFld] [.log] fun s' =>
        s'.log.seq = q + 1 ∧ s'.log.fallback = true ∧ s'.get logFld = 1 ∧ s'.log.mram = l.mram ∧
        s'.log.flog = (l.flog.set (q % 256) (some { e with flags := e.flags ||| 4 })).set ((q + 1) % 256)
          (some ⟨q + 1, e.time, Ev.LOG_MEDIA_FAULT, domMGMT, e.flags ||| 4, 0xFFFF, [.w (q % 65536 : Nat)]⟩)) ∧
      (l.holdAt = none → s.isOn domMGMT = false ∨ l.fallback = true ∨ l.retestAt.isSome = true → Effect c s [] [.log] fun s' =>
        s'.log.seq = q ∧ s'.log.mram = l.mram ∧ s'.log.fbPending = min 256 (l.fbPending + 1) ∧
        s'.log.flog = l.flog.set (q % 256) (some { e with flags := e.flags ||| 4 }))) ∧
    (l.holdAt = none → Effect (.logSeqRestored t) s [] [] fun _ => True) ∧
    (∀ u, l.holdAt = some u →
      let run := s.get F.CFG_STATUS_STATE = 5 ∨ s.get F.CFG_STATUS_STATE = 6
      let ready := s.isOn domMGMT = true ∧ (s.isOn domREC = true ∧ s.recState = 2 ∨ run ∧ s.isOn domREC = false ∨ u + 10 * uS ≤ now)
      (¬ready → Effect (.logSeqRestored t) s [] [] fun _ => True) ∧
      (ready → Effect (.logSeqRestored t) s [logFld] [.log, .free] fun s' =>
        s'.log.holdAt = none ∧ s'.log.held = [] ∧ s'.log.seqLost = false ∧
        max (max (newestSeq l.mram) (newestSeq l.flog)) s.strm0Seq + l.held.length + 1 ≤ s'.log.seq)) ∧
    (∀ n : SessIx, s.isOn domMGMT = true → s.allows n R.LOG_CMD 1 1 = true →
      (s.needLevel n 2 = .ok → l.retestAt = none → Effect (.logRetest t n) s [R.LOG_CMD.all] [.mgmt, .log] fun s' =>
        (s'.sess n).status = .ok ∧ s'.log = { l with retestAt := some now }) ∧
      (s.needLevel n 2 = .ok → l.retestAt.isSome = true → Effect (.logRetest t n) s [] [.mgmt] fun s' =>
        (s'.sess n).status = .busy) ∧
      (s.needLevel n 2 = .accessDenied → Effect (.logRetest t n) s [] [.mgmt] fun s' =>
        (s'.sess n).status = .accessDenied)) ∧
    (∀ bad, s.works domMGMT = true →
      (l.retestAt = none → Effect (.logRetestDone t bad) s [] [] fun _ => True) ∧
      (l.retestAt.isSome = true → (∀ k ∈ bad, 65536 ≤ k) → Effect (.logRetestDone t bad) s [logFld] [.log] fun s' =>
        s'.log.retestAt = none ∧ s'.log.fallback = false ∧ s'.log.mramBad = [] ∧
        (l.flog = [] → (s.setLog fun x => { x with retestAt := none, mramBad := [], fallback := false,
                                                   written := (l.written + 65536) % 2 ^ 32,
                                                   verify := min (2 ^ 32 - 1) l.verify }).Logs s'
          [(Ev.LOG_MEDIA_RESTORED, noInst, [])])) ∧
      (∀ k r, l.retestAt.isSome = true → bad = k :: r → k < 65536 → Effect (.logRetestDone t bad) s [logFld] [.log] fun s' =>
        s'.log.fallback = true ∧ s'.log.retestAt = none ∧ (l.fallback = false → s'.get logFld = 1) ∧
        let slots := bad.filter fun k => decide (k < 65536)
        (s.setLog fun x => { x with retestAt := none, fallback := true, mramBad := slots, written := (l.written + 65536) % 2 ^ 32,
                                    verify := min (2 ^ 32 - 1) (l.verify + slots.length) }).Logs
          s' [(Ev.LOG_MEDIA_FAULT, noInst, [.w k])]))

/-- Grind's passes and the transceiver cages (R92, R158, R232, R277, R477, R488, R489, R498). -/
def Obligations.ScrubbingAndTransceivers : Prop :=
  ∀ (t : Nat) (s : State),
    let a := s.advance t
    let now := max s.now t
    let l := s.log
    (∀ (m : Fin 3) (corr : Nat), s.works (grindDom m) = true →
      let pass : Fld := ⟨R.LOG_GRIND_PASS, 8 * m.val, 8⟩
      let say := decide (0 < corr) && a.quiet (l.corrAt.get m) (60 * uS)
      let base (s : State) : State := s.setLog fun x =>
        { x with passAt := l.passAt.set m (some now), corrAt := if say then l.corrAt.set m (some now) else l.corrAt }
      let first := if say then [(Ev.GRIND_CORR, noInst, [DItem.w m.val, .w corr])] else []
      let due := ∀ u, l.passAt.get m = some u → u + s.grindDue m ≤ now
      let fs := [pass, F.LOG_GRIND_CORR_COUNT m, logFld]
      let done (s' : State) : Prop := s'.get pass = (s.get pass + 1) % 256 ∧
        s'.get (F.LOG_GRIND_CORR_COUNT m) = s.plus (F.LOG_GRIND_CORR_COUNT m) corr ∧ s'.log.passAt.get m = some now
      (∀ lanes unc, ¬due → Effect (.grindScrub t m corr lanes unc) s [] [] fun _ => True) ∧
      (due → s.isOn domMGMT = false → Effect (.grindScrub t m corr [] []) s [logFld] [.log] fun s' =>
        s'.log.passAt.get m = some now ∧ (base s).Logs s' first) ∧
      (due → s.isOn domMGMT = true → Effect (.grindScrub t m corr [] []) s fs [.log] fun s' => done s' ∧ (base s).Logs s' first) ∧
      (∀ j k, due → s.isOn domMGMT = true → m = 0 → Effect (.grindScrub t m corr [(j, k)] []) s (F.CE_CNT_ECC_CORR :: fs) [.log] fun s' =>
        done s' ∧ s'.get F.CE_CNT_ECC_CORR = s.plus F.CE_CNT_ECC_CORR 1 ∧
        (base s).Logs s' (first ++ [(Ev.CE_ECC_CORR, noInst, [.w j, .w k])])) ∧
      (∀ hit ad, due → s.isOn domMGMT = true → hit.mem = m.val → (∀ j k, hit ≠ .lane j k) →
        Effect (.grindScrub t m corr [] [(hit, ad)]) s (F.LOG_GRIND_UNC_COUNT m :: F.VOTE_STATUS_MIRROR_ERR :: fs)
          [.log, .carafe] fun s' =>
          done s' ∧ s'.get (F.LOG_GRIND_UNC_COUNT m) = s.plus (F.LOG_GRIND_UNC_COUNT m) 1 ∧
          (hit = .mirror → s'.get F.VOTE_STATUS_MIRROR_ERR = 1) ∧
          (∀ i q, hit = .dram i q → (∃ r ∈ s.carafe.staged, r.stream = i ∧ r.seq = q) → (i, q) ∈ s'.carafe.bad) ∧
          (∀ k, hit = .mram k → k ∈ s'.log.unread ∧ s'.log.mram.get k = none) ∧
          ((∀ k, hit ≠ .mram k) → (base s).Logs s' (first ++ [(Ev.GRIND_UNCORR, noInst, [.w m.val, .w ad])]))) ∧
      (∀ (j : Fin 3) k ad, due → m = 0 → s.works (domLANE j) = true → s.counted j = true → s.nCounted = 3 → s.mode = 0 →
        Answers (.grindScrub t m corr [] [(.lane j k, ad)]) s fun s' =>
          s'.counted j = false ∧ s'.mode = 1 ∧ s'.get F.CE_STATUS_ECC_UNC = 1)) ∧
    (∀ (c : Fin 20) rateOk ms, Effect (.sfpInsert t c rateOk ms) s [] [.pins] fun s' =>
      s'.pins.cage = s.pins.cage.set c ⟨true, if rateOk then some (now + min 300 ms * uMs) else none, false⟩) ∧
    (∀ (c : Fin 20) mA,
      let limit := if c.val < 16 then 500 else 330
      let old := s.pins.cage.get c
      let cut := { old with enabledAt := none, cutOff := true }
      (old.present = false ∨ mA ≤ limit → Effect (.sfpOvercurrent t c mA) s [] [] fun _ => True) ∧
      (∀ x cmd, (x = (⟨false, none, false⟩ : Cage) ∧ cmd = Instr.sfpRemove t c) ∨
          (x = cut ∧ cmd = Instr.sfpOvercurrent t c mA ∧ old.present = true ∧ limit < mA) →
        (∀ p : Fin 4, c.val = 16 + p.val →
          (s.works domPBUS = true → exec cmd s = exec (.pbLinkDown t p true) (s.setCage c x)) ∧
          (s.works domPBUS = false → Effect cmd s [] [.pins] fun s' => s'.pins.cage = s.pins.cage.set c x)) ∧
        (∀ (r : RingIx) (b : Fin 2), c.val = 2 * r.val + b.val →
          let h := if b = 1 then s.nCells r else 0
          let link := if b = 1 then F.RING_STATUS_LINK_B r else F.RING_STATUS_LINK_A r
          (s.works (domRING r) = false → Effect cmd s [] [.pins] fun s' => s'.pins.cage = s.pins.cage.set c x) ∧
          (s.works (domRING r) = true → Effect cmd s
            [F.RING_HOP_STAT_UP r h, F.RING_CNT_BREAK_COUNT r, F.RING_STATUS_LINK_A r, F.RING_STATUS_LINK_B r,
              F.RING_STATUS_STATE r, (R.RING_BREAK r).all, F.RING_FREEZE_FREEZE, F.RING_LAUNCH_LAUNCH, logFld]
            [.pins, .link, .log] fun s' => s'.get link = 0 ∧ s'.pins.cage = s.pins.cage.set c x))))
end

