-- ==== Sys2Proof/Laws/Bits.lean ====
section
/-! SUPPORT. Bit fields of a word: what a field reads after a field is written. -/

namespace Sys2Proof.Machine

theorem fieldOf_lt (w : Word) (lo wd : Nat) : fieldOf w lo wd < 2 ^ wd := Nat.mod_lt _ (Nat.two_pow_pos wd)

theorem testBit_fieldOf (w : Word) (lo wd i : Nat) :
    (fieldOf w lo wd).testBit i = (decide (i < wd) && w.toNat.testBit (lo + i)) := by
  rw [fieldOf, Nat.testBit_mod_two_pow, Nat.testBit_div_two_pow, Nat.add_comm i lo]

theorem testBit_setBits (w : Word) (lo wd v i : Nat) (h : lo + wd ≤ 32) :
    (setBits w lo wd v).toNat.testBit i =
      if lo ≤ i ∧ i < lo + wd then v.testBit (i - lo) else w.toNat.testBit i := by
  have hw : w.toNat.testBit i = w.getLsbD i := rfl
  have hs : (setBits w lo wd v).toNat.testBit i = (setBits w lo wd v).getLsbD i := rfl
  rw [hw, hs, setBits]
  simp only [BitVec.getLsbD_or, BitVec.getLsbD_and, BitVec.getLsbD_not, BitVec.getLsbD_ofNat]
  have e1 : ((2 ^ wd - 1) * 2 ^ lo).testBit i = (decide (lo ≤ i) && decide (i - lo < wd)) := by
    rw [Nat.testBit_mul_two_pow, Nat.testBit_two_pow_sub_one]
  have e2 : (v % 2 ^ wd * 2 ^ lo).testBit i = (decide (lo ≤ i) && (decide (i - lo < wd) && v.testBit (i - lo))) := by
    rw [Nat.testBit_mul_two_pow, Nat.testBit_mod_two_pow]
  rw [e1, e2]
  by_cases h1 : lo ≤ i
  · by_cases h2 : i < lo + wd
    · have h3 : i < 32 := by omega
      have h4 : i - lo < wd := by omega
      simp [h1, h2, h3, h4]
    · have h4 : ¬ i - lo < wd := by omega
      simp only [h1, h2, h4, and_false, if_false, decide_false, Bool.and_false, Bool.false_and, Bool.or_false,
        decide_true]
      by_cases h3 : i < 32
      · simp [h3]
      · simp [h3, BitVec.getLsbD_of_ge w i (by omega)]
  · simp only [h1, false_and, if_false, decide_false, Bool.false_and, Bool.and_false, Bool.or_false]
    by_cases h3 : i < 32
    · simp [h3]
    · simp [h3, BitVec.getLsbD_of_ge w i (by omega)]

theorem fieldOf_setBits_same (w : Word) (lo wd v : Nat) (h : lo + wd ≤ 32) :
    fieldOf (setBits w lo wd v) lo wd = v % 2 ^ wd := by
  apply Nat.eq_of_testBit_eq
  intro i
  rw [testBit_fieldOf, testBit_setBits w lo wd v _ h, Nat.testBit_mod_two_pow]
  by_cases hi : i < wd
  · have h1 : lo ≤ lo + i ∧ lo + i < lo + wd := by omega
    rw [if_pos h1, Nat.add_sub_cancel_left]
  · simp [hi]

theorem fieldOf_setBits_disjoint (w : Word) (lo wd v lo' wd' : Nat) (h : lo + wd ≤ 32)
    (hd : lo' + wd' ≤ lo ∨ lo + wd ≤ lo') : fieldOf (setBits w lo wd v) lo' wd' = fieldOf w lo' wd' := by
  apply Nat.eq_of_testBit_eq
  intro i
  rw [testBit_fieldOf, testBit_fieldOf, testBit_setBits w lo wd v _ h]
  by_cases hi : i < wd'
  · have h1 : ¬(lo ≤ lo' + i ∧ lo' + i < lo + wd) := by omega
    rw [if_neg h1]
  · simp [hi]

theorem codeOf_lt (n : Nat) (y : Int) : codeOf n y < 2 ^ n := by
  have h : (0 : Int) < 2 ^ n := Int.pow_pos (by decide)
  have h1 := Int.emod_nonneg y (Int.ne_of_gt h)
  have h2 := Int.emod_lt_of_pos y h
  have h3 : ((2 ^ n : Nat) : Int) = 2 ^ n := by rw [Int.natCast_pow]; rfl
  simp only [codeOf]
  omega

theorem signedOf_mod (n v : Nat) : signedOf n (v % 2 ^ n) = signedOf n v := by
  simp only [signedOf, Nat.mod_mod]

theorem signedOf_codeOf (n : Nat) (hn : 0 < n) (y : Int) (h1 : -(2 ^ (n - 1)) ≤ y) (h2 : y < 2 ^ (n - 1)) :
    signedOf n (codeOf n y) = y := by
  obtain ⟨m, rfl⟩ : ∃ m, n = m + 1 := ⟨n - 1, by omega⟩
  rw [Nat.add_sub_cancel] at h1 h2
  have hl := codeOf_lt (m + 1) y
  have e1 : (2 : Int) ^ (m + 1) = 2 * 2 ^ m := by rw [Int.pow_succ]; omega
  have e2 : (2 : Nat) ^ (m + 1) = 2 * 2 ^ m := by rw [Nat.pow_succ]; omega
  have e3 : ((2 ^ m : Nat) : Int) = 2 ^ m := by rw [Int.natCast_pow]; rfl
  have hp : (0 : Int) < 2 ^ m := Int.pow_pos (by decide)
  have hc : (codeOf (m + 1) y : Int) = y % (2 * 2 ^ m) := by
    simp only [codeOf, e1]
    exact Int.toNat_of_nonneg (Int.emod_nonneg _ (by omega))
  simp only [signedOf, Nat.add_sub_cancel]
  rw [Nat.mod_eq_of_lt hl, e1]
  by_cases hy : 0 ≤ y
  · have h3 : y % (2 * 2 ^ m) = y := Int.emod_eq_of_lt hy (by omega)
    rw [if_pos (by omega)]
    omega
  · have h3 : y % (2 * 2 ^ m) = y + 2 * 2 ^ m := by
      rw [← Int.add_emod_right]; exact Int.emod_eq_of_lt (by omega) (by omega)
    rw [if_neg (by omega)]
    omega

theorem satS_low (n : Nat) (x : Int) : -(2 ^ (n - 1)) ≤ satS n x := by
  have hp : (0 : Int) < 2 ^ (n - 1) := Int.pow_pos (by decide)
  simp only [satS, clampI]
  split <;> (try split) <;> omega

theorem satS_high (n : Nat) (x : Int) : satS n x < 2 ^ (n - 1) := by
  have hp : (0 : Int) < 2 ^ (n - 1) := Int.pow_pos (by decide)
  simp only [satS, clampI]
  split <;> (try split) <;> omega

end Sys2Proof.Machine
end

