-- ==== Sys2Proof/Laws/Map.lean ====
section
/-! SUPPORT. Sparse tables: reading after writing, and the canonical form under every operation. -/

namespace Sys2Proof.Machine

variable {K V : Type} [DecidableEq K] [DecidableEq V]

/-- What makes a Boolean relation a strict total order. -/
structure StrictTotal (lt : K → K → Bool) : Prop where
  irrefl : ∀ a, lt a a = false
  trans  : ∀ a b c, lt a b = true → lt b c = true → lt a c = true
  total  : ∀ a b, a ≠ b → lt a b = false → lt b a = true

theorem natLt_strictTotal : StrictTotal natLt where
  irrefl a := by simp [natLt]
  trans a b c := by simp only [natLt, decide_eq_true_eq]; omega
  total a b := by simp only [natLt, decide_eq_true_eq, decide_eq_false_iff_not]; omega

theorem regLt_strictTotal : StrictTotal Reg.lt where
  irrefl a := by simp [Reg.lt]
  trans a b c := by simp only [Reg.lt, Bool.or_eq_true, Bool.and_eq_true, decide_eq_true_eq]; omega
  total a b h := by
    have : ¬(a.id = b.id ∧ a.i = b.i ∧ a.j = b.j) := by
      rintro ⟨h1, h2, h3⟩; cases a; cases b; simp_all
    simp only [Reg.lt, Bool.or_eq_true, Bool.or_eq_false_iff, Bool.and_eq_true, Bool.and_eq_false_iff, decide_eq_true_eq,
      decide_eq_false_iff_not]
    omega

/-! ### Reading after writing -/

omit [DecidableEq V] in
theorem Map.get_ins_same (lt : K → K → Bool) (d : V) (k : K) (v : V) (m : List (K × V)) :
    Map.get d (Map.ins lt k v m) k = v := by
  induction m with
  | nil => simp [Map.ins, Map.get]
  | cons e r ih =>
    obtain ⟨k', v'⟩ := e
    simp only [Map.ins]
    split <;> (try split) <;> simp_all [Map.get]

omit [DecidableEq V] in
theorem Map.get_ins_other (lt : K → K → Bool) (d : V) (k x : K) (v : V) (m : List (K × V)) (h : x ≠ k) :
    Map.get d (Map.ins lt k v m) x = Map.get d m x := by
  have h' : k ≠ x := h.symm
  induction m with
  | nil => simp [Map.ins, Map.get, h']
  | cons e r ih =>
    obtain ⟨k', v'⟩ := e
    simp only [Map.ins]
    split
    · rename_i e; subst e; simp [Map.get, h']
    · split <;> simp [Map.get, h', ih]

omit [DecidableEq V] in
theorem Map.get_del_same (d : V) (k : K) (m : List (K × V)) : Map.get d (Map.del k m) k = d := by
  induction m with
  | nil => simp [Map.del, Map.get]
  | cons e r ih =>
    obtain ⟨k', v'⟩ := e
    simp only [Map.del]
    split <;> simp_all [Map.get]

omit [DecidableEq V] in
theorem Map.get_del_other (d : V) (k x : K) (m : List (K × V)) (h : x ≠ k) :
    Map.get d (Map.del k m) x = Map.get d m x := by
  have h' : k ≠ x := h.symm
  induction m with
  | nil => simp [Map.del]
  | cons e r ih =>
    obtain ⟨k', v'⟩ := e
    simp only [Map.del]
    split
    · rename_i e; subst e; simp [Map.get, h', ih]
    · simp [Map.get, ih]

@[simp] theorem Map.get_put_same (lt : K → K → Bool) (d : V) (m : List (K × V)) (k : K) (v : V) :
    Map.get d (Map.put lt d m k v) k = v := by
  unfold Map.put
  split
  · rename_i e; rw [Map.get_del_same, e]
  · exact Map.get_ins_same lt d k v m

theorem Map.get_put_other (lt : K → K → Bool) (d d' : V) (m : List (K × V)) (k x : K) (v : V) (h : x ≠ k) :
    Map.get d' (Map.put lt d m k v) x = Map.get d' m x := by
  unfold Map.put
  split
  · exact Map.get_del_other d' k x m h
  · exact Map.get_ins_other lt d' k x v m h

/-! ### The canonical form -/

omit [DecidableEq K] [DecidableEq V] in
/-- Keys strictly rising, as a chain. -/
theorem Map.rising_cons (lt : K → K → Bool) (a : K × V) (r : List (K × V)) :
    Map.rising lt (a :: r) = true ↔ (∀ b, r.head? = some b → lt a.1 b.1 = true) ∧ Map.rising lt r = true := by
  cases r <;> simp [Map.rising]

omit [DecidableEq K] [DecidableEq V] in
theorem Map.rising_below {lt : K → K → Bool} (ht : StrictTotal lt) (a : K × V) (r : List (K × V))
    (h : Map.rising lt (a :: r) = true) : ∀ b ∈ r, lt a.1 b.1 = true := by
  induction r generalizing a with
  | nil => simp
  | cons c r ih =>
    intro b hb
    simp only [Map.rising, Bool.and_eq_true] at h
    rcases List.mem_cons.mp hb with rfl | hb
    · exact h.1
    · exact ht.trans _ _ _ h.1 (ih c h.2 b hb)

omit [DecidableEq K] [DecidableEq V] in
theorem Map.rising_iff {lt : K → K → Bool} (ht : StrictTotal lt) (m : List (K × V)) :
    Map.rising lt m = true ↔ m.Pairwise fun a b => lt a.1 b.1 = true := by
  induction m with
  | nil => simp [Map.rising]
  | cons a r ih =>
    rw [List.pairwise_cons, ← ih]
    refine ⟨fun h => ⟨Map.rising_below ht a r h, ?_⟩, fun h => ?_⟩
    · exact ((Map.rising_cons lt a r).mp h).2
    · refine (Map.rising_cons lt a r).mpr ⟨fun b hb => h.1 b ?_, h.2⟩
      cases r with
      | nil => simp at hb
      | cons c r => simp only [List.head?_cons, Option.some.injEq] at hb; subst hb; simp

omit [DecidableEq V] in
theorem Map.mem_del {k : K} {m : List (K × V)} {e : K × V} (h : e ∈ Map.del k m) : e ∈ m ∧ e.1 ≠ k := by
  induction m with
  | nil => simp [Map.del] at h
  | cons a r ih =>
    obtain ⟨k', v'⟩ := a
    simp only [Map.del] at h
    split at h
    · exact ⟨List.mem_cons_of_mem _ (ih h).1, (ih h).2⟩
    · rename_i hk
      rcases List.mem_cons.mp h with rfl | h
      · exact ⟨by simp, hk⟩
      · exact ⟨List.mem_cons_of_mem _ (ih h).1, (ih h).2⟩

omit [DecidableEq V] in
theorem Map.del_eq_filter (k : K) (m : List (K × V)) : Map.del k m = m.filter fun e => decide (e.1 ≠ k) := by
  induction m with
  | nil => rfl
  | cons a r ih =>
    obtain ⟨k', v'⟩ := a
    simp only [Map.del]
    split <;> rename_i h <;> simp [h, ih]

omit [DecidableEq V] in
theorem Map.mem_ins {lt : K → K → Bool} {k : K} {v : V} {m : List (K × V)} {e : K × V} (h : e ∈ Map.ins lt k v m) :
    e = (k, v) ∨ e ∈ m := by
  induction m with
  | nil => simpa [Map.ins] using h
  | cons a r ih =>
    obtain ⟨k', v'⟩ := a
    simp only [Map.ins] at h
    split at h
    · rcases List.mem_cons.mp h with h | h
      · exact .inl h
      · exact .inr (List.mem_cons_of_mem _ h)
    · split at h
      · rcases List.mem_cons.mp h with h | h
        · exact .inl h
        · exact .inr h
      · rcases List.mem_cons.mp h with h | h
        · exact .inr (by simp [h])
        · rcases ih h with h | h
          · exact .inl h
          · exact .inr (List.mem_cons_of_mem _ h)

omit [DecidableEq V] in
theorem Map.ins_pairwise {lt : K → K → Bool} (ht : StrictTotal lt) (k : K) (v : V) (m : List (K × V))
    (h : m.Pairwise fun a b => lt a.1 b.1 = true) : (Map.ins lt k v m).Pairwise fun a b => lt a.1 b.1 = true := by
  induction m with
  | nil => simp [Map.ins]
  | cons a r ih =>
    obtain ⟨k', v'⟩ := a
    have hr := List.pairwise_cons.mp h
    simp only [Map.ins]
    split
    · rename_i e; subst e
      exact List.pairwise_cons.mpr ⟨hr.1, hr.2⟩
    · rename_i hne
      split
      · rename_i hlt
        refine List.pairwise_cons.mpr ⟨fun b hb => ?_, h⟩
        rcases List.mem_cons.mp hb with rfl | hb
        · exact hlt
        · exact ht.trans _ _ _ hlt (hr.1 b hb)
      · rename_i hlt
        refine List.pairwise_cons.mpr ⟨fun b hb => ?_, ih hr.2⟩
        rcases Map.mem_ins hb with rfl | hb
        · exact ht.total _ _ (fun e => hne e.symm) (by simpa using hlt)
        · exact hr.1 b hb

/-- A write keeps the canonical form, whatever each key reads as when it is not listed. -/
theorem Map.put_wf {lt : K → K → Bool} (ht : StrictTotal lt) (d : K → V) (m : List (K × V)) (k : K) (v : V)
    (h : Map.wf lt d m = true) : Map.wf lt d (Map.put lt (d k) m k v) = true := by
  simp only [Map.wf, Bool.and_eq_true, List.all_eq_true, decide_eq_true_eq, Map.rising_iff ht] at h ⊢
  unfold Map.put
  split
  · refine ⟨?_, fun e he => h.2 e (Map.mem_del he).1⟩
    rw [Map.del_eq_filter]
    exact h.1.filter _
  · rename_i hv
    refine ⟨Map.ins_pairwise ht k v m h.1, fun e he => ?_⟩
    rcases Map.mem_ins he with rfl | he
    · exact hv
    · exact h.2 e he

omit [DecidableEq K] in
/-- Dropping entries keeps the canonical form. -/
theorem Map.filter_wf {lt : K → K → Bool} (ht : StrictTotal lt) (d : K → V) (m : List (K × V)) (p : K × V → Bool)
    (h : Map.wf lt d m = true) : Map.wf lt d (m.filter p) = true := by
  simp only [Map.wf, Bool.and_eq_true, List.all_eq_true, decide_eq_true_eq, Map.rising_iff ht] at h ⊢
  exact ⟨h.1.filter _, fun e he => h.2 e (List.mem_filter.mp he).1⟩

/-! ### Tables keyed by numbers -/

variable {α : Type} [Inhabited α] [DecidableEq α]

@[simp] theorem Tbl.get_set_same (m : Tbl α) (k : Nat) (v : α) : (m.set k v).get k = v := Map.get_put_same ..

theorem Tbl.get_set_other (m : Tbl α) (k x : Nat) (v : α) (h : x ≠ k) : (m.set k v).get x = m.get x :=
  Map.get_put_other _ _ _ _ _ _ _ h

end Sys2Proof.Machine
end

