-- ==== Sys2Proof/Laws/Leads/Base.lean ====
section
/-! SUPPORT. What every command keeps (`State.Leads`): the ways in which a state is built from another. -/

namespace Sys2Proof.Machine

theorem State.Leads.refl (s : State) : s.Leads s := ⟨rfl, rfl, Nat.le_refl _, id⟩

theorem State.Leads.trans {a s t : State} (h : a.Leads s) (g : s.Leads t) : a.Leads t :=
  ⟨g.now.trans h.now, g.pending.trans h.pending, Nat.le_trans h.free g.free, fun w => g.regs (h.regs w)⟩

/-- Whatever else of the state is replaced. -/
theorem leads_mk {a s : State} (h : a.Leads s) (clk mgmt log pwr start link cells eng grid mppt frt bus mtr lanes carafe
    wear safe ana pour pins capAsk) :
    a.Leads (State.mk s.now s.regs s.free clk mgmt log pwr start link cells eng grid mppt frt bus mtr lanes carafe
      wear safe ana pour pins capAsk s.pending) := ⟨h.now, h.pending, h.free, h.regs⟩

theorem setWord_leads {a s : State} (h : a.Leads s) (r : Reg) (w : Word) : a.Leads (s.setWord r w) :=
  ⟨h.now, h.pending, h.free, fun x => Map.put_wf regLt_strictTotal resetWord _ _ _ (h.regs x)⟩

theorem freeStep_leads {a s : State} (h : a.Leads s) : a.Leads s.freeStep :=
  ⟨h.now, h.pending, Nat.le_succ_of_le h.free, h.regs⟩

/-- Registers returned to their Reset values. -/
theorem leads_regs_filter {a s : State} (h : a.Leads s) (p : Reg × Word → Bool) :
    a.Leads { s with regs := s.regs.filter p } :=
  ⟨h.now, h.pending, h.free, fun x => Map.filter_wf regLt_strictTotal resetWord _ _ (h.regs x)⟩

theorem leads_foldl {α : Type} {a s : State} {f : State → α → State} {l : List α} (h : a.Leads s)
    (hf : ∀ s, a.Leads s → ∀ x, a.Leads (f s x)) : a.Leads (l.foldl f s) := by
  induction l generalizing s with
  | nil => exact h
  | cons x l ih => exact ih (hf s h x)

theorem leads_foldl_fst {α β : Type} {a : State} {p : State × β} {f : State × β → α → State × β} {l : List α}
    (h : a.Leads p.1) (hf : ∀ p, a.Leads p.1 → ∀ x, a.Leads (f p x).1) : a.Leads (l.foldl f p).1 := by
  induction l generalizing p with
  | nil => exact h
  | cons x l ih => exact ih (hf p h x)

theorem leads_foldl_snd {α β : Type} {a : State} {p : β × State} {f : β × State → α → β × State} {l : List α}
    (h : a.Leads p.2) (hf : ∀ p, a.Leads p.2 → ∀ x, a.Leads (f p x).2) : a.Leads (l.foldl f p).2 := by
  induction l generalizing p with
  | nil => exact h
  | cons x l ih => exact ih (hf p h x)

theorem leads_forN {a s : State} {n : Nat} {f : State → Nat → State} (h : a.Leads s)
    (hf : ∀ s, a.Leads s → ∀ x, a.Leads (f s x)) : a.Leads (s.forN n f) := leads_foldl h hf

theorem leads_inDom {a s : State} {d : Nat} {f : State → State} (h : a.Leads s)
    (hf : ∀ s, a.Leads s → a.Leads (f s)) : a.Leads (s.inDom d f) := by
  unfold State.inDom
  split
  · exact hf s h
  · exact h

theorem leads_of_snd {α : Type} {a s : State} {p : α × State} {x : α} (e : p = (x, s)) (h : a.Leads p.2) : a.Leads s := by
  subst e; exact h

theorem leads_of_fst {α : Type} {a s : State} {p : State × α} {x : α} (e : p = (s, x)) (h : a.Leads p.1) : a.Leads s := by
  subst e; exact h

theorem leads_ite_some {α : Type} {c : Prop} [Decidable c] {a : State} {x p : α × State} {rest : Option (α × State)}
    (hx : a.Leads x.2) (hr : rest = some p → a.Leads p.2) (g : (if c then some x else rest) = some p) : a.Leads p.2 := by
  split at g
  · obtain rfl := Option.some.inj g; exact hx
  · exact hr g

theorem leads_none {α : Type} {a : State} {p : α × State} (g : none = some p) : a.Leads p.2 := nomatch g

end Sys2Proof.Machine
end

