-- ==== Sys2Proof/Laws/Leads/Parts.lean ====
section
/-! SUPPORT. What every command keeps (`State.Leads`): the operations of Parts.lean. -/

namespace Sys2Proof.Machine

theorem setClk_leads {a₀ s : State} (h₀ : a₀.Leads s) (f : ClkSt → ClkSt) : a₀.Leads (State.setClk s f) := by
  unfold State.setClk
  try dsimp only
  repeat' first
    | with_reducible exact h₀
    | with_reducible assumption
    | dsimp only
    | (with_reducible apply leads_mk; first | with_reducible exact h₀ | with_reducible assumption | dsimp only)

theorem setMgmt_leads {a₀ s : State} (h₀ : a₀.Leads s) (f : MgmtSt → MgmtSt) : a₀.Leads (State.setMgmt s f) := by
  unfold State.setMgmt
  try dsimp only
  repeat' first
    | with_reducible exact h₀
    | with_reducible assumption
    | dsimp only
    | (with_reducible apply leads_mk; first | with_reducible exact h₀ | with_reducible assumption | dsimp only)

theorem setLog_leads {a₀ s : State} (h₀ : a₀.Leads s) (f : LogSt → LogSt) : a₀.Leads (State.setLog s f) := by
  unfold State.setLog
  try dsimp only
  repeat' first
    | with_reducible exact h₀
    | with_reducible assumption
    | dsimp only
    | (with_reducible apply leads_mk; first | with_reducible exact h₀ | with_reducible assumption | dsimp only)

theorem setPwr_leads {a₀ s : State} (h₀ : a₀.Leads s) (f : PwrSt → PwrSt) : a₀.Leads (State.setPwr s f) := by
  unfold State.setPwr
  repeat' first
    | with_reducible exact h₀
    | (with_reducible apply leads_mk; first | with_reducible exact h₀)

theorem setStart_leads {a₀ s : State} (h₀ : a₀.Leads s) (f : StartSt → StartSt) : a₀.Leads (State.setStart s f) := by
  unfold State.setStart
  repeat' first
    | with_reducible exact h₀
    | (with_reducible apply leads_mk; first | with_reducible exact h₀)

theorem setLink_leads {a₀ s : State} (h₀ : a₀.Leads s) (f : LinkSt → LinkSt) : a₀.Leads (State.setLink s f) := by
  unfold State.setLink
  try dsimp only
  repeat' first
    | with_reducible exact h₀
    | with_reducible assumption
    | dsimp only
    | (with_reducible apply leads_mk; first | with_reducible exact h₀ | with_reducible assumption | dsimp only)

theorem setCells_leads {a₀ s : State} (h₀ : a₀.Leads s) (f : CellsSt → CellsSt) : a₀.Leads (State.setCells s f) := by
  unfold State.setCells
  try dsimp only
  repeat' first
    | with_reducible exact h₀
    | with_reducible assumption
    | dsimp only
    | (with_reducible apply leads_mk; first | with_reducible exact h₀ | with_reducible assumption | dsimp only)

theorem setEng_leads {a₀ s : State} (h₀ : a₀.Leads s) (f : EngSt → EngSt) : a₀.Leads (State.setEng s f) := by
  unfold State.setEng
  try dsimp only
  repeat' first
    | with_reducible exact h₀
    | with_reducible assumption
    | dsimp only
    | (with_reducible apply leads_mk; first | with_reducible exact h₀ | with_reducible assumption | dsimp only)

theorem setGrid_leads {a₀ s : State} (h₀ : a₀.Leads s) (f : GridSt → GridSt) : a₀.Leads (State.setGrid s f) := by
  unfold State.setGrid
  try dsimp only
  repeat' first
    | with_reducible exact h₀
    | with_reducible assumption
    | dsimp only
    | (with_reducible apply leads_mk; first | with_reducible exact h₀ | with_reducible assumption | dsimp only)

theorem setMppt_leads {a₀ s : State} (h₀ : a₀.Leads s) (f : MpptSt → MpptSt) : a₀.Leads (State.setMppt s f) := by
  unfold State.setMppt
  try dsimp only
  repeat' first
    | with_reducible exact h₀
    | with_reducible assumption
    | dsimp only
    | (with_reducible apply leads_mk; first | with_reducible exact h₀ | with_reducible assumption | dsimp only)

theorem setFrt_leads {a₀ s : State} (h₀ : a₀.Leads s) (f : FrtSt → FrtSt) : a₀.Leads (State.setFrt s f) := by
  unfold State.setFrt
  try dsimp only
  repeat' first
    | with_reducible exact h₀
    | with_reducible assumption
    | dsimp only
    | (with_reducible apply leads_mk; first | with_reducible exact h₀ | with_reducible assumption | dsimp only)

theorem setBus_leads {a₀ s : State} (h₀ : a₀.Leads s) (f : BusSt → BusSt) : a₀.Leads (State.setBus s f) := by
  unfold State.setBus
  repeat' first
    | with_reducible exact h₀
    | (with_reducible apply leads_mk; first | with_reducible exact h₀)

theorem setMtr_leads {a₀ s : State} (h₀ : a₀.Leads s) (f : MtrSt → MtrSt) : a₀.Leads (State.setMtr s f) := by
  unfold State.setMtr
  try dsimp only
  repeat' first
    | with_reducible exact h₀
    | with_reducible assumption
    | dsimp only
    | (with_reducible apply leads_mk; first | with_reducible exact h₀ | with_reducible assumption | dsimp only)

theorem setLanes_leads {a₀ s : State} (h₀ : a₀.Leads s) (f : LanesSt → LanesSt) : a₀.Leads (State.setLanes s f) := by
  unfold State.setLanes
  try dsimp only
  repeat' first
    | with_reducible exact h₀
    | with_reducible assumption
    | dsimp only
    | (with_reducible apply leads_mk; first | with_reducible exact h₀ | with_reducible assumption | dsimp only)

theorem setRec_leads {a₀ s : State} (h₀ : a₀.Leads s) (f : RecSt → RecSt) : a₀.Leads (State.setRec s f) := by
  unfold State.setRec
  repeat' first
    | with_reducible exact h₀
    | (with_reducible apply leads_mk; first | with_reducible exact h₀)

theorem setWear_leads {a₀ s : State} (h₀ : a₀.Leads s) (f : WearSt → WearSt) : a₀.Leads (State.setWear s f) := by
  unfold State.setWear
  try dsimp only
  repeat' first
    | with_reducible exact h₀
    | with_reducible assumption
    | dsimp only
    | (with_reducible apply leads_mk; first | with_reducible exact h₀ | with_reducible assumption | dsimp only)

theorem setSafe_leads {a₀ s : State} (h₀ : a₀.Leads s) (f : SafeSt → SafeSt) : a₀.Leads (State.setSafe s f) := by
  unfold State.setSafe
  repeat' first
    | with_reducible exact h₀
    | (with_reducible apply leads_mk; first | with_reducible exact h₀)

theorem setAna_leads {a₀ s : State} (h₀ : a₀.Leads s) (f : AnaSt → AnaSt) : a₀.Leads (State.setAna s f) := by
  unfold State.setAna
  try dsimp only
  repeat' first
    | with_reducible exact h₀
    | with_reducible assumption
    | dsimp only
    | (with_reducible apply leads_mk; first | with_reducible exact h₀ | with_reducible assumption | dsimp only)

theorem setPour_leads {a₀ s : State} (h₀ : a₀.Leads s) (f : PourSt → PourSt) : a₀.Leads (State.setPour s f) := by
  unfold State.setPour
  repeat' first
    | with_reducible exact h₀
    | (with_reducible apply leads_mk; first | with_reducible exact h₀)

theorem setPins_leads {a₀ s : State} (h₀ : a₀.Leads s) (f : PinSt → PinSt) : a₀.Leads (State.setPins s f) := by
  unfold State.setPins
  try dsimp only
  repeat' first
    | with_reducible exact h₀
    | with_reducible assumption
    | dsimp only
    | (with_reducible apply leads_mk; first | with_reducible exact h₀ | with_reducible assumption | dsimp only)

theorem setCapAsk_leads {a₀ s : State} (h₀ : a₀.Leads s) (f : List (Nat × Nat × Nat) → List (Nat × Nat × Nat)) : a₀.Leads (State.setCapAsk s f) := by
  unfold State.setCapAsk
  try dsimp only
  repeat' first
    | with_reducible exact h₀
    | with_reducible assumption
    | dsimp only
    | (with_reducible apply leads_mk; first | with_reducible exact h₀ | with_reducible assumption | dsimp only)

end Sys2Proof.Machine
end

