-- ==== Sys2Proof/Laws/Leads/Ops.lean ====
section
/-! SUPPORT. What every command keeps (`State.Leads`): the operations of Ops.lean. -/

namespace Sys2Proof.Machine

theorem put_leads {a₀ s : State} (h₀ : a₀.Leads s) (f : Fld) (v : Nat) : a₀.Leads (State.put s f v) := by
  unfold State.put
  repeat' first
    | with_reducible exact h₀
    | with_reducible apply setWord_leads

theorem putS_leads {a₀ s : State} (h₀ : a₀.Leads s) (f : Fld) (x : Int) : a₀.Leads (State.putS s f x) := by
  unfold State.putS
  repeat' first
    | with_reducible exact h₀
    | with_reducible apply put_leads

theorem putSat_leads {a₀ s : State} (h₀ : a₀.Leads s) (f : Fld) (v : Nat) : a₀.Leads (State.putSat s f v) := by
  unfold State.putSat
  repeat' first
    | with_reducible exact h₀
    | with_reducible apply put_leads

theorem count_leads {a₀ s : State} (h₀ : a₀.Leads s) (f : Fld) (n : Nat) : a₀.Leads (State.count s f n) := by
  unfold State.count
  repeat' first
    | with_reducible exact h₀
    | with_reducible apply putSat_leads

theorem countWrap_leads {a₀ s : State} (h₀ : a₀.Leads s) (f : Fld) : a₀.Leads (State.countWrap s f) := by
  unfold State.countWrap
  repeat' first
    | with_reducible exact h₀
    | with_reducible apply put_leads

theorem putB_leads {a₀ s : State} (h₀ : a₀.Leads s) (f : Fld) (b : Bool) : a₀.Leads (State.putB s f b) := by
  unfold State.putB
  repeat' first
    | with_reducible exact h₀
    | with_reducible apply put_leads

theorem put64_leads {a₀ s : State} (h₀ : a₀.Leads s) (lo : Reg) (hi : Reg) (v : Nat) : a₀.Leads (State.put64 s lo hi v) := by
  unfold State.put64
  repeat' first
    | with_reducible exact h₀
    | with_reducible apply setWord_leads

theorem takeLog_leads {a₀ s : State} (h₀ : a₀.Leads s) (l : LogSt) : a₀.Leads (State.takeLog s l) := by
  unfold State.takeLog
  try dsimp only
  repeat' first
    | with_reducible exact h₀
    | with_reducible assumption
    | with_reducible apply setLog_leads
    | with_reducible apply put_leads
    | split
    | dsimp only

theorem event_leads {a₀ s : State} (h₀ : a₀.Leads s) (code : Nat) (inst : Nat) (data : List DItem) : a₀.Leads (State.event s code inst data) := by
  unfold State.event
  repeat' first
    | with_reducible exact h₀
    | with_reducible apply takeLog_leads

theorem eventIf_leads {a₀ s : State} (h₀ : a₀.Leads s) (c : Bool) (code : Nat) (inst : Nat) (data : List DItem) : a₀.Leads (State.eventIf s c code inst data) := by
  unfold State.eventIf
  repeat' first
    | with_reducible exact h₀
    | with_reducible apply event_leads
    | split

end Sys2Proof.Machine
end

