-- ==== Sys2Proof/Laws/Leads/Operands.lean ====
section
/-! SUPPORT. What every command keeps (`State.Leads`): the operations of Operands.lean. -/

namespace Sys2Proof.Machine

theorem setSess_leads {a₀ s : State} (h₀ : a₀.Leads s) (n : Nat) (x : Session) : a₀.Leads (State.setSess s n x) := by
  unfold State.setSess
  try dsimp only
  repeat' first
    | with_reducible exact h₀
    | with_reducible assumption
    | with_reducible apply setMgmt_leads
    | dsimp only
    | (with_reducible apply leads_mk; first | with_reducible exact h₀ | with_reducible assumption | with_reducible apply setMgmt_leads | dsimp only)

theorem plainWrite_leads {a₀ s : State} (h₀ : a₀.Leads s) (n : Nat) (x : RegRow) (r : Reg) (value : Word) (mask : Word) : a₀.Leads (State.plainWrite s n x r value mask).2 := by
  unfold State.plainWrite
  dsimp only
  repeat' first
    | with_reducible exact h₀
    | with_reducible apply setWord_leads
    | split

theorem answer_leads {a₀ s : State} (h₀ : a₀.Leads s) (n : Nat) (st : Status) (v : Word) : a₀.Leads (State.answer s n st v) := by
  unfold State.answer
  repeat' first
    | with_reducible exact h₀
    | with_reducible apply setSess_leads

end Sys2Proof.Machine
end

