-- ==== Sys2Proof/Laws/Leads/Clock.lean ====
section
/-! SUPPORT. What every command keeps (`State.Leads`): the operations of Clock.lean. -/

namespace Sys2Proof.Machine

theorem answerW_leads {a : State} {p : Status × State} (h : a.Leads p.2) (n : Nat) : a.Leads (answerW n p) :=
  answer_leads h n p.1 0

theorem access_leads {a s : State} (h : a.Leads s) (n dom : Nat) (f : State → Status × State)
    (hf : ∀ s, a.Leads s → a.Leads (f s).2) : a.Leads (s.access n dom f) := by
  unfold State.access
  split
  · exact h
  · split
    · exact answer_leads h ..
    · exact answerW_leads (hf s h) n

theorem writeReg_leads {a₀ s : State} (h₀ : a₀.Leads s) (n : Nat) (r : Reg) (value : Word) (mask : Word) : a₀.Leads (State.writeReg s n r value mask).2 := by
  unfold State.writeReg
  repeat' first
    | with_reducible exact h₀
    | with_reducible apply plainWrite_leads
    | split

theorem writeThen_leads {a s : State} (h : a.Leads s) (n : Nat) (r : Reg) (value mask : Word) (act : State → State)
    (hf : ∀ s, a.Leads s → a.Leads (act s)) : a.Leads (s.writeThen n r value mask act).2 := by
  unfold State.writeThen
  have g := writeReg_leads h n r value mask
  split
  · rename_i e; rw [e] at g; exact hf _ g
  · exact g

theorem writeIf_leads {a s : State} (h : a.Leads s) (n : Nat) (r : Reg) (value mask : Word) (refuse : Status)
    (act : State → State) (hf : ∀ s, a.Leads s → a.Leads (act s)) :
    a.Leads (s.writeIf n r value mask refuse act).2 := by
  unfold State.writeIf
  split
  · exact writeThen_leads h n r value mask act hf
  · exact h

theorem takeover_leads {a₀ s : State} (h₀ : a₀.Leads s) (step : Int) : a₀.Leads (State.takeover s step) := by
  unfold State.takeover
  try dsimp only
  repeat' first
    | with_reducible exact h₀
    | with_reducible assumption
    | with_reducible apply put_leads
    | with_reducible apply setClk_leads
    | with_reducible apply setLink_leads
    | split
    | with_reducible refine leads_of_snd (by assumption) ?_
    | with_reducible refine leads_of_fst (by assumption) ?_
    | dsimp only
    | (with_reducible apply leads_mk; first | with_reducible exact h₀ | with_reducible assumption | with_reducible apply put_leads | with_reducible apply setClk_leads | with_reducible apply setLink_leads | split | with_reducible refine leads_of_snd (by assumption) ?_ | with_reducible refine leads_of_fst (by assumption) ?_ | dsimp only)

theorem clkCtrlWrite_leads {a₀ s : State} (h₀ : a₀.Leads s) (n : Nat) (value : Word) (mask : Word) (step : Int) : a₀.Leads (State.clkCtrlWrite s n value mask step).2 := by
  unfold State.clkCtrlWrite
  repeat' first
    | with_reducible exact h₀
    | with_reducible assumption
    | with_reducible apply takeover_leads
    | with_reducible apply put_leads
    | with_reducible apply event_leads
    | with_reducible apply writeThen_leads
    | intro _ _
    | split

theorem commitRef_leads {a₀ s : State} (h₀ : a₀.Leads s) (old : State) : a₀.Leads (State.commitRef s old) := by
  unfold State.commitRef
  try dsimp only
  repeat' first
    | with_reducible exact h₀
    | with_reducible assumption
    | with_reducible apply freeStep_leads
    | with_reducible apply takeover_leads
    | with_reducible apply put_leads
    | with_reducible apply event_leads
    | split
    | dsimp only

theorem outStarts_leads {a₀ s : State} (h₀ : a₀.Leads s) (k : Nat) : a₀.Leads (State.outStarts s k) := by
  unfold State.outStarts
  try dsimp only
  repeat' first
    | with_reducible exact h₀
    | with_reducible assumption
    | with_reducible apply setClk_leads
    | dsimp only
    | (with_reducible apply leads_mk; first | with_reducible exact h₀ | with_reducible assumption | with_reducible apply setClk_leads | dsimp only)

theorem outStops_leads {a₀ s : State} (h₀ : a₀.Leads s) (k : Nat) (div : Nat) : a₀.Leads (State.outStops s k div) := by
  unfold State.outStops
  try dsimp only
  repeat' first
    | with_reducible exact h₀
    | with_reducible assumption
    | with_reducible apply setClk_leads
    | dsimp only
    | (with_reducible apply leads_mk; first | with_reducible exact h₀ | with_reducible assumption | with_reducible apply setClk_leads | dsimp only)

theorem outFollow_leads {a₀ s : State} (h₀ : a₀.Leads s) (k : Nat) (old : Word) : a₀.Leads (State.outFollow s k old) := by
  unfold State.outFollow
  try dsimp only
  repeat' first
    | with_reducible exact h₀
    | with_reducible assumption
    | with_reducible apply outStarts_leads
    | with_reducible apply outStops_leads
    | split
    | dsimp only

theorem clkOutWrite_leads {a₀ s : State} (h₀ : a₀.Leads s) (n : Nat) (k : Nat) (value : Word) (mask : Word) : a₀.Leads (State.clkOutWrite s n k value mask).2 := by
  unfold State.clkOutWrite
  try dsimp only
  repeat' first
    | with_reducible exact h₀
    | with_reducible assumption
    | with_reducible apply outFollow_leads
    | with_reducible apply writeIf_leads
    | (intro _ _; intro)
    | intro _ _
    | intro _
    | split
    | dsimp only

theorem stepTime_leads {a₀ s : State} (h₀ : a₀.Leads s) (units : Nat) : a₀.Leads (State.stepTime s units) := by
  unfold State.stepTime
  try dsimp only
  repeat' first
    | with_reducible exact h₀
    | with_reducible assumption
    | with_reducible apply setClk_leads
    | with_reducible apply event_leads
    | split
    | dsimp only
    | (with_reducible apply leads_mk; first | with_reducible exact h₀ | with_reducible assumption | with_reducible apply setClk_leads | with_reducible apply event_leads | split | dsimp only)

theorem correctTime_leads {a₀ s : State} (h₀ : a₀.Leads s) (d : Int) : a₀.Leads (State.correctTime s d) := by
  unfold State.correctTime
  try dsimp only
  repeat' first
    | with_reducible exact h₀
    | with_reducible assumption
    | with_reducible apply stepTime_leads
    | with_reducible apply setClk_leads
    | with_reducible apply eventIf_leads
    | split
    | dsimp only
    | (with_reducible apply leads_mk; first | with_reducible exact h₀ | with_reducible assumption | with_reducible apply stepTime_leads | with_reducible apply setClk_leads | with_reducible apply eventIf_leads | split | dsimp only)

theorem slewLarge_leads {a₀ s : State} (h₀ : a₀.Leads s)  : a₀.Leads (State.slewLarge s) := by
  unfold State.slewLarge
  try dsimp only
  repeat' first
    | with_reducible exact h₀
    | with_reducible assumption
    | with_reducible apply setClk_leads
    | with_reducible apply event_leads
    | split
    | dsimp only
    | (with_reducible apply leads_mk; first | with_reducible exact h₀ | with_reducible assumption | with_reducible apply setClk_leads | with_reducible apply event_leads | split | dsimp only)

theorem calDateRead_leads {a₀ s : State} (h₀ : a₀.Leads s) (n : Nat) : a₀.Leads (State.calDateRead s n) := by
  unfold State.calDateRead
  repeat' first
    | with_reducible exact h₀
    | with_reducible apply setSess_leads

theorem calDateWrite_leads {a₀ s : State} (h₀ : a₀.Leads s) (n : Nat) (value : Word) (mask : Word) : a₀.Leads (State.calDateWrite s n value mask).2 := by
  unfold State.calDateWrite
  repeat' first
    | with_reducible exact h₀
    | with_reducible apply setSess_leads
    | split

theorem calTimeWrite_leads {a₀ s : State} (h₀ : a₀.Leads s) (n : Nat) (value : Word) (mask : Word) : a₀.Leads (State.calTimeWrite s n value mask).2 := by
  unfold State.calTimeWrite
  try dsimp only
  repeat' first
    | with_reducible exact h₀
    | with_reducible assumption
    | with_reducible apply setSess_leads
    | with_reducible apply writeReg_leads
    | with_reducible apply setClk_leads
    | with_reducible apply put_leads
    | with_reducible apply stepTime_leads
    | with_reducible apply event_leads
    | with_reducible apply leads_inDom
    | (intro _ _; intro)
    | intro _ _
    | intro _
    | split
    | with_reducible refine leads_of_snd (by assumption) ?_
    | with_reducible refine leads_of_fst (by assumption) ?_
    | dsimp only
    | (with_reducible apply leads_mk; first | with_reducible exact h₀ | with_reducible assumption | with_reducible apply setSess_leads | with_reducible apply writeReg_leads | with_reducible apply setClk_leads | with_reducible apply put_leads | with_reducible apply stepTime_leads | with_reducible apply event_leads | with_reducible apply leads_inDom | (intro _ _; intro) | intro _ _ | intro _ | split | with_reducible refine leads_of_snd (by assumption) ?_ | with_reducible refine leads_of_fst (by assumption) ?_ | dsimp only)

theorem copyUtc_leads {a₀ s : State} (h₀ : a₀.Leads s)  : a₀.Leads (State.copyUtc s) := by
  unfold State.copyUtc
  try dsimp only
  repeat' first
    | with_reducible exact h₀
    | with_reducible assumption
    | with_reducible apply setClk_leads
    | dsimp only
    | (with_reducible apply leads_mk; first | with_reducible exact h₀ | with_reducible assumption | with_reducible apply setClk_leads | dsimp only)

theorem timeUtcWrite_leads {a₀ s : State} (h₀ : a₀.Leads s) (n : Nat) (value : Word) (mask : Word) : a₀.Leads (State.timeUtcWrite s n value mask).2 := by
  unfold State.timeUtcWrite
  repeat' first
    | with_reducible exact h₀
    | with_reducible apply copyUtc_leads
    | with_reducible apply writeIf_leads

theorem showUtc_leads {a₀ s : State} (h₀ : a₀.Leads s)  : a₀.Leads (State.showUtc s) := by
  unfold State.showUtc
  try dsimp only
  repeat' first
    | with_reducible exact h₀
    | with_reducible assumption
    | with_reducible apply putS_leads
    | with_reducible apply putB_leads
    | dsimp only

theorem countLife_leads {a₀ s : State} (h₀ : a₀.Leads s)  : a₀.Leads (State.countLife s) := by
  unfold State.countLife
  try dsimp only
  repeat' first
    | with_reducible exact h₀
    | with_reducible assumption
    | with_reducible apply put64_leads
    | with_reducible apply setClk_leads
    | dsimp only
    | (with_reducible apply leads_mk; first | with_reducible exact h₀ | with_reducible assumption | with_reducible apply put64_leads | with_reducible apply setClk_leads | dsimp only)

theorem rtcSpan_leads {a₀ s : State} (h₀ : a₀.Leads s)  : a₀.Leads (State.rtcSpan s) := by
  unfold State.rtcSpan
  try dsimp only
  repeat' first
    | with_reducible exact h₀
    | with_reducible assumption
    | with_reducible apply setMtr_leads
    | split
    | with_reducible refine leads_of_snd (by assumption) ?_
    | with_reducible refine leads_of_fst (by assumption) ?_
    | dsimp only
    | (with_reducible apply leads_mk; first | with_reducible exact h₀ | with_reducible assumption | with_reducible apply setMtr_leads | split | with_reducible refine leads_of_snd (by assumption) ?_ | with_reducible refine leads_of_fst (by assumption) ?_ | dsimp only)

theorem wakeTime_leads {a₀ s : State} (h₀ : a₀.Leads s) (from_ : Int) : a₀.Leads (State.wakeTime s from_) := by
  unfold State.wakeTime
  try dsimp only
  repeat' first
    | with_reducible exact h₀
    | with_reducible assumption
    | with_reducible apply setClk_leads
    | with_reducible apply put_leads
    | with_reducible apply showUtc_leads
    | with_reducible apply rtcSpan_leads
    | with_reducible apply put64_leads
    | with_reducible apply event_leads
    | dsimp only
    | (with_reducible apply leads_mk; first | with_reducible exact h₀ | with_reducible assumption | with_reducible apply setClk_leads | with_reducible apply put_leads | with_reducible apply showUtc_leads | with_reducible apply rtcSpan_leads | with_reducible apply put64_leads | with_reducible apply event_leads | dsimp only)

end Sys2Proof.Machine
end

