-- ==== Sys2Proof/Laws/Leads/Link.lean ====
section
/-! SUPPORT. What every command keeps (`State.Leads`): the operations of Link.lean. -/

namespace Sys2Proof.Machine

theorem setRing_leads {a₀ s : State} (h₀ : a₀.Leads s) (n : Nat) (x : RingSt) : a₀.Leads (State.setRing s n x) := by
  unfold State.setRing
  try dsimp only
  repeat' first
    | with_reducible exact h₀
    | with_reducible assumption
    | with_reducible apply setLink_leads
    | dsimp only
    | (with_reducible apply leads_mk; first | with_reducible exact h₀ | with_reducible assumption | with_reducible apply setLink_leads | dsimp only)

theorem ringTimes_leads {a₀ s : State} (h₀ : a₀.Leads s) (r : Nat) : a₀.Leads (State.ringTimes s r) := by
  unfold State.ringTimes
  repeat' first
    | with_reducible exact h₀
    | with_reducible apply put_leads

theorem retime_leads {a₀ s : State} (h₀ : a₀.Leads s)  : a₀.Leads (State.retime s) := by
  unfold State.retime
  repeat' first
    | with_reducible exact h₀
    | with_reducible apply put_leads
    | split

theorem newPeriod_leads {a₀ s : State} (h₀ : a₀.Leads s) (old : State) (tc : Nat) : a₀.Leads (State.newPeriod s old tc) := by
  unfold State.newPeriod
  try dsimp only
  repeat' first
    | with_reducible exact h₀
    | with_reducible assumption
    | with_reducible apply setLink_leads
    | split
    | dsimp only
    | (with_reducible apply leads_mk; first | with_reducible exact h₀ | with_reducible assumption | with_reducible apply setLink_leads | split | dsimp only)

theorem unadmit_leads {a₀ s : State} (h₀ : a₀.Leads s)  : a₀.Leads (State.unadmit s) := by
  unfold State.unadmit
  try dsimp only
  repeat' first
    | with_reducible exact h₀
    | with_reducible assumption
    | with_reducible apply setLink_leads
    | with_reducible apply retime_leads
    | dsimp only
    | (with_reducible apply leads_mk; first | with_reducible exact h₀ | with_reducible assumption | with_reducible apply setLink_leads | with_reducible apply retime_leads | dsimp only)

theorem admitStart_leads {a₀ s : State} (h₀ : a₀.Leads s) (d : Nat) (tm : Timing) : a₀.Leads (State.admitStart s d tm) := by
  unfold State.admitStart
  try dsimp only
  repeat' first
    | with_reducible exact h₀
    | with_reducible assumption
    | with_reducible apply put_leads
    | with_reducible apply putSat_leads
    | with_reducible apply setRing_leads
    | with_reducible apply setLink_leads
    | with_reducible apply retime_leads
    | with_reducible apply leads_foldl
    | (intro _ _; intro)
    | intro _ _
    | intro _
    | dsimp only
    | (with_reducible apply leads_mk; first | with_reducible exact h₀ | with_reducible assumption | with_reducible apply put_leads | with_reducible apply putSat_leads | with_reducible apply setRing_leads | with_reducible apply setLink_leads | with_reducible apply retime_leads | with_reducible apply leads_foldl | (intro _ _; intro) | intro _ _ | intro _ | dsimp only)

theorem infeasible_leads {a₀ s : State} (h₀ : a₀.Leads s)  : a₀.Leads (State.infeasible s) := by
  unfold State.infeasible
  try dsimp only
  repeat' first
    | with_reducible exact h₀
    | with_reducible assumption
    | with_reducible apply put_leads
    | with_reducible apply putSat_leads
    | with_reducible apply event_leads
    | dsimp only

theorem chooseD_leads {a₀ s : State} (h₀ : a₀.Leads s)  : a₀.Leads (State.chooseD s).2 := by
  unfold State.chooseD
  try dsimp only
  repeat' first
    | with_reducible exact h₀
    | with_reducible assumption
    | with_reducible apply admitStart_leads
    | with_reducible apply infeasible_leads
    | split
    | with_reducible refine leads_of_snd (by assumption) ?_
    | with_reducible refine leads_of_fst (by assumption) ?_
    | dsimp only

theorem mbxPlace_leads {a₀ s : State} (h₀ : a₀.Leads s) (r : Nat) (q : MbxReq) : a₀.Leads (State.mbxPlace s r q) := by
  unfold State.mbxPlace
  repeat' first
    | with_reducible exact h₀
    | with_reducible apply put_leads
    | with_reducible apply setRing_leads

theorem mbxNext_leads {a₀ s : State} (h₀ : a₀.Leads s) (r : Nat) : a₀.Leads (State.mbxNext s r) := by
  unfold State.mbxNext
  dsimp only
  repeat' first
    | with_reducible exact h₀
    | with_reducible apply setRing_leads
    | with_reducible apply mbxPlace_leads
    | split

theorem mbxPost_leads {a₀ s : State} (h₀ : a₀.Leads s) (r : Nat) (q : MbxReq) : a₀.Leads (State.mbxPost s r q) := by
  unfold State.mbxPost
  dsimp only
  repeat' first
    | with_reducible exact h₀
    | with_reducible apply setRing_leads
    | with_reducible apply mbxNext_leads
    | split

theorem haltTx_leads {a₀ s : State} (h₀ : a₀.Leads s) (r : Nat) : a₀.Leads (State.haltTx s r) := by
  unfold State.haltTx
  try dsimp only
  repeat' first
    | with_reducible exact h₀
    | with_reducible assumption
    | with_reducible apply setRing_leads
    | with_reducible apply leads_foldl
    | (intro _ _; intro)
    | intro _ _
    | intro _
    | split
    | dsimp only

theorem haltInject_leads {a₀ s : State} (h₀ : a₀.Leads s) (r : Nat) (cls : Nat) (ch : Nat) : a₀.Leads (State.haltInject s r cls ch) := by
  unfold State.haltInject
  try dsimp only
  repeat' first
    | with_reducible exact h₀
    | with_reducible assumption
    | with_reducible apply put_leads
    | with_reducible apply setRing_leads
    | with_reducible apply release_leads
    | with_reducible apply haltTx_leads
    | with_reducible apply setCapAsk_leads
    | with_reducible apply event_leads
    | split
    | dsimp only
    | (with_reducible apply leads_mk; first | with_reducible exact h₀ | with_reducible assumption | with_reducible apply put_leads | with_reducible apply setRing_leads | with_reducible apply release_leads | with_reducible apply haltTx_leads | with_reducible apply setCapAsk_leads | with_reducible apply event_leads | split | dsimp only)

theorem haltSettle_leads {a₀ s : State} (h₀ : a₀.Leads s) (r : Nat) : a₀.Leads (State.haltSettle s r) := by
  unfold State.haltSettle
  dsimp only
  repeat' first
    | with_reducible exact h₀
    | with_reducible apply put_leads
    | split

theorem haltSourceClear_leads {a₀ s : State} (h₀ : a₀.Leads s) (r : Nat) (cls : Nat) (ch : Nat) : a₀.Leads (State.haltSourceClear s r cls ch) := by
  unfold State.haltSourceClear
  repeat' first
    | with_reducible exact h₀
    | with_reducible apply setRing_leads
    | with_reducible apply haltSettle_leads

theorem haltRelease_leads {a₀ s : State} (h₀ : a₀.Leads s) (r : Nat) : a₀.Leads (State.haltRelease s r) := by
  unfold State.haltRelease
  repeat' first
    | with_reducible exact h₀
    | with_reducible apply setRing_leads
    | with_reducible apply haltSettle_leads

theorem launchTx_leads {a₀ s : State} (h₀ : a₀.Leads s) (r : Nat) (port : Nat) (v1 : Bool) (field : Nat) (f : OutFrame) : a₀.Leads (State.launchTx s r port v1 field f) := by
  unfold State.launchTx
  try dsimp only
  repeat' first
    | with_reducible exact h₀
    | with_reducible assumption
    | with_reducible apply setRing_leads
    | split
    | with_reducible refine leads_of_snd (by assumption) ?_
    | with_reducible refine leads_of_fst (by assumption) ?_
    | dsimp only

theorem laneHalt_leads {a₀ s : State} (h₀ : a₀.Leads s) (c : Nat) : a₀.Leads (State.laneHalt s c) := by
  unfold State.laneHalt
  repeat' first
    | with_reducible exact h₀
    | with_reducible apply haltInject_leads

end Sys2Proof.Machine
end

