-- ==== Sys2Proof/Laws/Leads/PourEnd.lean ====
section
/-! SUPPORT. What every command keeps (`State.Leads`): the operations of PourEnd.lean. -/

namespace Sys2Proof.Machine

theorem setPslot_leads {a₀ s : State} (h₀ : a₀.Leads s) (k : Nat) (x : PourSlot) : a₀.Leads (State.setPslot s k x) := by
  unfold State.setPslot
  repeat' first
    | with_reducible exact h₀
    | with_reducible apply setPour_leads

theorem abortStage_leads {a₀ s : State} (h₀ : a₀.Leads s) (id : Nat) (r : Nat) : a₀.Leads (State.abortStage s id r) := by
  unfold State.abortStage
  repeat' first
    | with_reducible exact h₀
    | with_reducible apply mbxPost_leads

theorem dropStage_leads {a₀ s : State} (h₀ : a₀.Leads s) (k : Nat) (r : Nat) : a₀.Leads (State.dropStage s k r) := by
  unfold State.dropStage
  repeat' first
    | with_reducible exact h₀
    | with_reducible apply setRing_leads

theorem pourAbort_leads {a₀ s : State} (h₀ : a₀.Leads s) (k : Nat) (result : Nat) (status : Nat) (check : Nat) (detail : Nat) : a₀.Leads (State.pourAbort s k result status check detail) := by
  unfold State.pourAbort
  repeat' first
    | with_reducible exact h₀
    | with_reducible assumption
    | with_reducible apply put_leads
    | with_reducible apply countWrap_leads
    | with_reducible apply setPslot_leads
    | with_reducible apply setPour_leads
    | with_reducible apply dropStage_leads
    | with_reducible apply abortStage_leads
    | with_reducible apply event_leads
    | with_reducible apply leads_foldl
    | (intro _ _; intro)
    | split

theorem holdPours_leads {a₀ s : State} (h₀ : a₀.Leads s)  : a₀.Leads (State.holdPours s) := by
  unfold State.holdPours
  repeat' first
    | with_reducible exact h₀
    | with_reducible assumption
    | with_reducible apply pourAbort_leads
    | with_reducible apply leads_foldl
    | (intro _ _; intro)

theorem unmark_leads {a₀ s : State} (h₀ : a₀.Leads s) (k : Nat) : a₀.Leads (State.unmark s k) := by
  unfold State.unmark
  repeat' first
    | with_reducible exact h₀
    | with_reducible apply put_leads
    | with_reducible apply setPour_leads

end Sys2Proof.Machine
end

