-- ==== Sys2Proof/Laws/Leads/WearRec.lean ====
section
/-! SUPPORT. What every command keeps (`State.Leads`): the operations of WearRec.lean. -/

namespace Sys2Proof.Machine

theorem setWcell_leads {a₀ s : State} (h₀ : a₀.Leads s) (k : Nat) (x : WearCell) : a₀.Leads (State.setWcell s k x) := by
  unfold State.setWcell
  try dsimp only
  repeat' first
    | with_reducible exact h₀
    | with_reducible assumption
    | with_reducible apply setWear_leads
    | dsimp only
    | (with_reducible apply leads_mk; first | with_reducible exact h₀ | with_reducible assumption | with_reducible apply setWear_leads | dsimp only)

theorem setDamage_leads {a₀ s : State} (h₀ : a₀.Leads s) (k : Nat) (h : Nat) (v : Nat) : a₀.Leads (State.setDamage s k h v) := by
  unfold State.setDamage
  repeat' first
    | with_reducible exact h₀
    | with_reducible apply put64_leads
    | split

theorem wearAsk_leads {a₀ s : State} (h₀ : a₀.Leads s) (k : Nat) : a₀.Leads (State.wearAsk s k) := by
  unfold State.wearAsk
  repeat' first
    | with_reducible exact h₀
    | with_reducible assumption
    | with_reducible apply mbxPost_leads
    | with_reducible apply leads_foldl
    | (intro _ _; intro)

theorem wearWrite_leads {a₀ s : State} (h₀ : a₀.Leads s) (k : Nat) : a₀.Leads (State.wearWrite s k) := by
  unfold State.wearWrite
  dsimp only
  repeat' first
    | with_reducible exact h₀
    | with_reducible assumption
    | with_reducible apply setWcell_leads
    | with_reducible apply mbxPost_leads
    | with_reducible apply put_leads
    | with_reducible apply leads_foldl
    | (intro _ _; intro)
    | split

theorem wearLoad_leads {a₀ s : State} (h₀ : a₀.Leads s) (k : Nat) (part : Nat) (data : List Byte) : a₀.Leads (State.wearLoad s k part data) := by
  unfold State.wearLoad
  dsimp only
  repeat' first
    | with_reducible exact h₀
    | with_reducible apply setDamage_leads
    | with_reducible apply setWcell_leads
    | with_reducible apply put_leads
    | with_reducible apply putSat_leads
    | split

theorem wearWritten_leads {a₀ s : State} (h₀ : a₀.Leads s) (k : Nat) (part : Nat) : a₀.Leads (State.wearWritten s k part) := by
  unfold State.wearWritten
  dsimp only
  repeat' first
    | with_reducible exact h₀
    | with_reducible apply setWcell_leads
    | with_reducible apply put_leads
    | split

theorem wearAdmit_leads {a₀ s : State} (h₀ : a₀.Leads s) (k : Nat) (v1 : Bool) : a₀.Leads (State.wearAdmit s k v1) := by
  unfold State.wearAdmit
  try dsimp only
  repeat' first
    | with_reducible exact h₀
    | with_reducible assumption
    | with_reducible apply setWear_leads
    | with_reducible apply setWord_leads
    | with_reducible apply setWcell_leads
    | with_reducible apply put_leads
    | with_reducible apply wearAsk_leads
    | with_reducible apply leads_foldl
    | (intro _ _; intro)
    | intro _ _
    | intro _
    | split
    | dsimp only
    | (with_reducible apply leads_mk; first | with_reducible exact h₀ | with_reducible assumption | with_reducible apply setWear_leads | with_reducible apply setWord_leads | with_reducible apply setWcell_leads | with_reducible apply put_leads | with_reducible apply wearAsk_leads | with_reducible apply leads_foldl | (intro _ _; intro) | intro _ _ | intro _ | split | dsimp only)

theorem wearGone_leads {a₀ s : State} (h₀ : a₀.Leads s) (k : Nat) : a₀.Leads (State.wearGone s k) := by
  unfold State.wearGone
  repeat' first
    | with_reducible exact h₀
    | with_reducible apply setWcell_leads
    | with_reducible apply put_leads
    | split

theorem wearPeriod_leads {a₀ s : State} (h₀ : a₀.Leads s) (k : Nat) (p0 : Bool) (p1 : Bool) : a₀.Leads (State.wearPeriod s k p0 p1) := by
  unfold State.wearPeriod
  dsimp only
  repeat' first
    | with_reducible exact h₀
    | with_reducible apply setWcell_leads
    | split

end Sys2Proof.Machine
end

