-- ==== Sys2Proof/Laws/Leads/Cells.lean ====
section
/-! SUPPORT. What every command keeps (`State.Leads`): the operations of Cells.lean. -/

namespace Sys2Proof.Machine

theorem setCellX_leads {a₀ s : State} (h₀ : a₀.Leads s) (k : Nat) (x : CellX) : a₀.Leads (State.setCellX s k x) := by
  unfold State.setCellX
  try dsimp only
  repeat' first
    | with_reducible exact h₀
    | with_reducible assumption
    | with_reducible apply setCells_leads
    | dsimp only
    | (with_reducible apply leads_mk; first | with_reducible exact h₀ | with_reducible assumption | with_reducible apply setCells_leads | dsimp only)

theorem setCell_leads {a₀ s : State} (h₀ : a₀.Leads s) (k : Nat) (dest : Nat) (reason : Nat) : a₀.Leads (State.setCell s k dest reason) := by
  unfold State.setCell
  repeat' first
    | with_reducible exact h₀
    | with_reducible apply put_leads
    | with_reducible apply event_leads
    | with_reducible apply wearWrite_leads
    | split

theorem askDisp_leads {a₀ s : State} (h₀ : a₀.Leads s) (k : Nat) (code : Nat) : a₀.Leads (State.askDisp s k code) := by
  unfold State.askDisp
  try dsimp only
  repeat' first
    | with_reducible exact h₀
    | with_reducible assumption
    | with_reducible apply put_leads
    | with_reducible apply setCellX_leads
    | with_reducible apply setRing_leads
    | with_reducible apply mbxPost_leads
    | dsimp only
    | (with_reducible apply leads_mk; first | with_reducible exact h₀ | with_reducible assumption | with_reducible apply put_leads | with_reducible apply setCellX_leads | with_reducible apply setRing_leads | with_reducible apply mbxPost_leads | dsimp only)

theorem endSeq_leads {a₀ s : State} (h₀ : a₀.Leads s) (k : Nat) : a₀.Leads (State.endSeq s k) := by
  unfold State.endSeq
  repeat' first
    | with_reducible exact h₀
    | with_reducible apply put_leads
    | with_reducible apply setCellX_leads

theorem sparePhase_leads {a₀ s : State} (h₀ : a₀.Leads s) (k : Nat) : a₀.Leads (State.sparePhase s k) := by
  unfold State.sparePhase
  try dsimp only
  repeat' first
    | with_reducible exact h₀
    | with_reducible assumption
    | with_reducible apply endSeq_leads
    | with_reducible apply setCellX_leads
    | with_reducible apply leads_foldl
    | (intro _ _; intro)
    | intro _ _
    | intro _
    | split
    | dsimp only
    | (with_reducible apply leads_mk; first | with_reducible exact h₀ | with_reducible assumption | with_reducible apply endSeq_leads | with_reducible apply setCellX_leads | with_reducible apply leads_foldl | (intro _ _; intro) | intro _ _ | intro _ | split | dsimp only)

theorem faultBypass_leads {a₀ s : State} (h₀ : a₀.Leads s) (k : Nat) : a₀.Leads (State.faultBypass s k) := by
  unfold State.faultBypass
  try dsimp only
  repeat' first
    | with_reducible exact h₀
    | with_reducible assumption
    | with_reducible apply sparePhase_leads
    | with_reducible apply put_leads
    | with_reducible apply setCellX_leads
    | with_reducible apply laneHalt_leads
    | split
    | dsimp only
    | (with_reducible apply leads_mk; first | with_reducible exact h₀ | with_reducible assumption | with_reducible apply sparePhase_leads | with_reducible apply put_leads | with_reducible apply setCellX_leads | with_reducible apply laneHalt_leads | split | dsimp only)

theorem lockOut_leads {a₀ s : State} (h₀ : a₀.Leads s) (k : Nat) (reason : Nat) : a₀.Leads (State.lockOut s k reason) := by
  unfold State.lockOut
  try dsimp only
  repeat' first
    | with_reducible exact h₀
    | with_reducible assumption
    | with_reducible apply put_leads
    | with_reducible apply setCell_leads
    | with_reducible apply askDisp_leads
    | split
    | dsimp only

theorem faultCell_leads {a₀ s : State} (h₀ : a₀.Leads s) (k : Nat) (reason : Nat) : a₀.Leads (State.faultCell s k reason) := by
  unfold State.faultCell
  repeat' first
    | with_reducible exact h₀
    | with_reducible apply setCell_leads
    | with_reducible apply put_leads
    | with_reducible apply putSat_leads
    | with_reducible apply setCellX_leads
    | with_reducible apply faultBypass_leads

theorem bypFault_leads {a₀ s : State} (h₀ : a₀.Leads s) (k : Nat) : a₀.Leads (State.bypFault s k) := by
  unfold State.bypFault
  repeat' first
    | with_reducible exact h₀
    | with_reducible apply put_leads
    | with_reducible apply lockOut_leads
    | with_reducible apply setCellX_leads
    | with_reducible apply laneHalt_leads
    | split

theorem absentCell_leads {a₀ s : State} (h₀ : a₀.Leads s) (k : Nat) : a₀.Leads (State.absentCell s k) := by
  unfold State.absentCell
  repeat' first
    | with_reducible exact h₀
    | with_reducible apply setCell_leads
    | with_reducible apply put_leads
    | with_reducible apply setCellX_leads
    | with_reducible apply wearGone_leads
    | split

theorem absentRing_leads {a₀ s : State} (h₀ : a₀.Leads s) (r : Nat) : a₀.Leads (State.absentRing s r) := by
  unfold State.absentRing
  repeat' first
    | with_reducible exact h₀
    | with_reducible apply absentCell_leads
    | with_reducible apply leads_foldl

theorem linkCell_leads {a₀ s : State} (h₀ : a₀.Leads s) (k : Nat) (d : DiscRec) : a₀.Leads (State.linkCell s k d) := by
  unfold State.linkCell
  repeat' first
    | with_reducible exact h₀
    | with_reducible apply put64_leads
    | with_reducible apply put_leads
    | with_reducible apply setCellX_leads
    | with_reducible apply setCell_leads
    | split

theorem askParams_leads {a₀ s : State} (h₀ : a₀.Leads s) (k : Nat) : a₀.Leads (State.askParams s k) := by
  unfold State.askParams
  repeat' first
    | with_reducible exact h₀
    | with_reducible assumption
    | with_reducible apply setCellX_leads
    | with_reducible apply mbxPost_leads
    | with_reducible apply leads_foldl
    | (intro _ _; intro)

theorem askIdent_leads {a₀ s : State} (h₀ : a₀.Leads s) (k : Nat) : a₀.Leads (State.askIdent s k) := by
  unfold State.askIdent
  dsimp only
  repeat' first
    | with_reducible exact h₀
    | with_reducible apply mbxPost_leads
    | split

theorem stayLinked_leads {a₀ s : State} (h₀ : a₀.Leads s) (k : Nat) (reason : Nat) (sticky : Option Fld) (ev : Option Nat) : a₀.Leads (State.stayLinked s k reason sticky ev) := by
  unfold State.stayLinked
  repeat' first
    | with_reducible exact h₀
    | with_reducible apply put_leads
    | with_reducible apply event_leads
    | split

theorem admitCell_leads {a₀ s : State} (h₀ : a₀.Leads s) (k : Nat) : a₀.Leads (State.admitCell s k) := by
  unfold State.admitCell
  dsimp only
  repeat' first
    | with_reducible exact h₀
    | with_reducible apply stayLinked_leads
    | with_reducible apply askIdent_leads
    | with_reducible apply unmark_leads
    | with_reducible apply setCell_leads
    | with_reducible apply put_leads
    | with_reducible apply wearAdmit_leads
    | with_reducible apply setCellX_leads
    | with_reducible apply askParams_leads
    | split

theorem startDiag_leads {a₀ s : State} (h₀ : a₀.Leads s) (k : Nat) (byCmd : Bool) : a₀.Leads (State.startDiag s k byCmd) := by
  unfold State.startDiag
  repeat' first
    | with_reducible exact h₀
    | with_reducible apply put_leads
    | with_reducible apply setCellX_leads
    | with_reducible apply mbxPost_leads

theorem tryDiag_leads {a₀ s : State} (h₀ : a₀.Leads s) (k : Nat) : a₀.Leads (State.tryDiag s k) := by
  unfold State.tryDiag
  dsimp only
  repeat' first
    | with_reducible exact h₀
    | with_reducible apply put_leads
    | with_reducible apply setCellX_leads
    | with_reducible apply startDiag_leads
    | split

theorem diagAccepted_leads {a₀ s : State} (h₀ : a₀.Leads s) (k : Nat) : a₀.Leads (State.diagAccepted s k) := by
  unfold State.diagAccepted
  repeat' first
    | with_reducible exact h₀
    | with_reducible apply setCell_leads
    | with_reducible apply setCellX_leads
    | split

theorem diagFailed_leads {a₀ s : State} (h₀ : a₀.Leads s) (k : Nat) (reason : Nat) (byte : Nat) : a₀.Leads (State.diagFailed s k reason byte) := by
  unfold State.diagFailed
  dsimp only
  repeat' first
    | with_reducible exact h₀
    | with_reducible apply count_leads
    | with_reducible apply event_leads
    | with_reducible apply put_leads
    | with_reducible apply setCell_leads
    | with_reducible apply setCellX_leads
    | with_reducible apply faultCell_leads
    | split

theorem diagResult_leads {a₀ s : State} (h₀ : a₀.Leads s) (k : Nat) : a₀.Leads (State.diagResult s k) := by
  unfold State.diagResult
  dsimp only
  repeat' first
    | with_reducible exact h₀
    | with_reducible apply put_leads
    | with_reducible apply count_leads
    | with_reducible apply setCell_leads
    | with_reducible apply setCellX_leads
    | with_reducible apply diagFailed_leads
    | split

theorem startBypass_leads {a₀ s : State} (h₀ : a₀.Leads s) (k : Nat) (goal : Nat) (reason : Nat) : a₀.Leads (State.startBypass s k goal reason) := by
  unfold State.startBypass
  repeat' first
    | with_reducible exact h₀
    | with_reducible apply put_leads
    | with_reducible apply setCellX_leads
    | split

theorem startReturn_leads {a₀ s : State} (h₀ : a₀.Leads s) (k : Nat) (reason : Nat) : a₀.Leads (State.startReturn s k reason) := by
  unfold State.startReturn
  repeat' first
    | with_reducible exact h₀
    | with_reducible apply put_leads
    | with_reducible apply setCellX_leads
    | split

theorem confirmSeq_leads {a₀ s : State} (h₀ : a₀.Leads s) (k : Nat) (ps : Nat) : a₀.Leads (State.confirmSeq s k ps) := by
  unfold State.confirmSeq
  dsimp only
  repeat' first
    | with_reducible exact h₀
    | with_reducible apply setCell_leads
    | with_reducible apply endSeq_leads
    | with_reducible apply put_leads
    | with_reducible apply setCellX_leads
    | with_reducible apply askDisp_leads
    | split

theorem follow_leads {a₀ s : State} (h₀ : a₀.Leads s) (k : Nat) (ps : Nat) : a₀.Leads (State.follow s k ps) := by
  unfold State.follow
  dsimp only
  repeat' first
    | with_reducible exact h₀
    | with_reducible apply setCell_leads
    | with_reducible apply endSeq_leads
    | with_reducible apply setCellX_leads
    | with_reducible apply eventIf_leads
    | split

theorem checkBypFault_leads {a₀ s : State} (h₀ : a₀.Leads s) (k : Nat) : a₀.Leads (State.checkBypFault s k) := by
  unfold State.checkBypFault
  dsimp only
  repeat' first
    | with_reducible exact h₀
    | with_reducible apply bypFault_leads
    | with_reducible apply put_leads
    | with_reducible apply faultCell_leads
    | split

theorem tripWindow_leads {a₀ s : State} (h₀ : a₀.Leads s) (k : Nat) : a₀.Leads (State.tripWindow s k) := by
  unfold State.tripWindow
  try dsimp only
  repeat' first
    | with_reducible exact h₀
    | with_reducible assumption
    | with_reducible apply setCellX_leads
    | with_reducible apply putSat_leads
    | split
    | dsimp only
    | (with_reducible apply leads_mk; first | with_reducible exact h₀ | with_reducible assumption | with_reducible apply setCellX_leads | with_reducible apply putSat_leads | split | dsimp only)

theorem noteTrips_leads {a₀ s : State} (h₀ : a₀.Leads s) (k : Nat) (n : Nat) : a₀.Leads (State.noteTrips s k n) := by
  unfold State.noteTrips
  dsimp only
  repeat' first
    | with_reducible exact h₀
    | with_reducible apply count_leads
    | with_reducible apply put64_leads
    | with_reducible apply put_leads
    | with_reducible apply putSat_leads
    | with_reducible apply setCellX_leads
    | with_reducible apply event_leads
    | split

theorem haltSeq_leads {a₀ s : State} (h₀ : a₀.Leads s) (k : Nat) : a₀.Leads (State.haltSeq s k) := by
  unfold State.haltSeq
  try dsimp only
  repeat' first
    | with_reducible exact h₀
    | with_reducible assumption
    | with_reducible apply endSeq_leads
    | with_reducible apply setCellX_leads
    | split
    | dsimp only
    | (with_reducible apply leads_mk; first | with_reducible exact h₀ | with_reducible assumption | with_reducible apply endSeq_leads | with_reducible apply setCellX_leads | split | dsimp only)

theorem slotFreeze_leads {a₀ s : State} (h₀ : a₀.Leads s) (k : Nat) : a₀.Leads (State.slotFreeze s k).2 := by
  unfold State.slotFreeze
  try dsimp only
  repeat' first
    | with_reducible exact h₀
    | with_reducible assumption
    | with_reducible apply put_leads
    | with_reducible apply confirmSeq_leads
    | with_reducible apply haltSeq_leads
    | with_reducible apply follow_leads
    | with_reducible apply checkBypFault_leads
    | with_reducible apply setCellX_leads
    | with_reducible apply diagResult_leads
    | split
    | dsimp only

end Sys2Proof.Machine
end

