-- ==== Sys2Proof/Laws/Leads/CellCmd.lean ====
section
/-! SUPPORT. What every command keeps (`State.Leads`): the operations of CellCmd.lean. -/

namespace Sys2Proof.Machine

theorem clearFault_leads {a₀ s : State} (h₀ : a₀.Leads s) (k : Nat) : a₀.Leads (State.clearFault s k) := by
  unfold State.clearFault
  repeat' first
    | with_reducible exact h₀
    | with_reducible apply setCell_leads
    | with_reducible apply put_leads
    | with_reducible apply setCellX_leads

theorem retireNow_leads {a₀ s : State} (h₀ : a₀.Leads s) (k : Nat) (reason : Nat) : a₀.Leads (State.retireNow s k reason) := by
  unfold State.retireNow
  repeat' first
    | with_reducible exact h₀
    | with_reducible apply setCell_leads
    | with_reducible apply askDisp_leads
    | with_reducible apply setCellX_leads

theorem cmdEffect_leads {a₀ s : State} (h₀ : a₀.Leads s) (k : Nat) (cmd : Nat) : a₀.Leads (State.cmdEffect s k cmd) := by
  unfold State.cmdEffect
  try dsimp only
  repeat' first
    | with_reducible exact h₀
    | with_reducible assumption
    | with_reducible apply startDiag_leads
    | with_reducible apply startBypass_leads
    | with_reducible apply startReturn_leads
    | with_reducible apply retireNow_leads
    | with_reducible apply setCell_leads
    | with_reducible apply askDisp_leads
    | with_reducible apply setCellX_leads
    | with_reducible apply askParams_leads
    | with_reducible apply setWcell_leads
    | with_reducible apply clearFault_leads
    | with_reducible apply faultBypass_leads
    | with_reducible apply lockOut_leads
    | split
    | with_reducible refine leads_of_snd (by assumption) ?_
    | with_reducible refine leads_of_fst (by assumption) ?_
    | dsimp only
    | (with_reducible apply leads_mk; first | with_reducible exact h₀ | with_reducible assumption | with_reducible apply startDiag_leads | with_reducible apply startBypass_leads | with_reducible apply startReturn_leads | with_reducible apply retireNow_leads | with_reducible apply setCell_leads | with_reducible apply askDisp_leads | with_reducible apply setCellX_leads | with_reducible apply askParams_leads | with_reducible apply setWcell_leads | with_reducible apply clearFault_leads | with_reducible apply faultBypass_leads | with_reducible apply lockOut_leads | split | with_reducible refine leads_of_snd (by assumption) ?_ | with_reducible refine leads_of_fst (by assumption) ?_ | dsimp only)

theorem cellCmd_leads {a₀ s : State} (h₀ : a₀.Leads s) (n : Nat) (k : Nat) (value : Word) (mask : Word) : a₀.Leads (State.cellCmd s n k value mask).2 := by
  unfold State.cellCmd
  dsimp only
  repeat' first
    | with_reducible exact h₀
    | with_reducible apply setWord_leads
    | with_reducible apply cmdEffect_leads
    | with_reducible apply event_leads
    | with_reducible apply eventIf_leads
    | split

theorem ask_leads {a₀ s : State} (h₀ : a₀.Leads s) (a : CellAsk) : a₀.Leads (State.ask s a) := by
  unfold State.ask
  try dsimp only
  repeat' first
    | with_reducible exact h₀
    | with_reducible assumption
    | with_reducible apply setCells_leads
    | split
    | dsimp only
    | (with_reducible apply leads_mk; first | with_reducible exact h₀ | with_reducible assumption | with_reducible apply setCells_leads | split | dsimp only)

theorem cellCmdNow_leads {a₀ s : State} (h₀ : a₀.Leads s) (n : Nat) (k : Nat) (value : Word) (mask : Word) : a₀.Leads (State.cellCmdNow s n k value mask).2 := by
  unfold State.cellCmdNow
  try dsimp only
  repeat' first
    | with_reducible exact h₀
    | with_reducible assumption
    | with_reducible apply cellCmd_leads
    | split
    | dsimp only

theorem cellCmdBy_leads {a₀ s : State} (h₀ : a₀.Leads s) (n : Nat) (k : Nat) (cmd : Nat) (expect : Nat) : a₀.Leads (State.cellCmdBy s n k cmd expect) := by
  unfold State.cellCmdBy
  try dsimp only
  repeat' first
    | with_reducible exact h₀
    | with_reducible assumption
    | with_reducible apply cellCmd_leads
    | with_reducible apply ask_leads
    | with_reducible apply access_leads
    | (intro _ _; intro)
    | intro _ _
    | intro _
    | split
    | dsimp only

theorem diagTimeout_leads {a₀ s : State} (h₀ : a₀.Leads s) (k : Nat) : a₀.Leads (State.diagTimeout s k) := by
  unfold State.diagTimeout
  try dsimp only
  repeat' first
    | with_reducible exact h₀
    | with_reducible assumption
    | with_reducible apply diagFailed_leads
    | split
    | dsimp only

theorem diagUnanswered_leads {a₀ s : State} (h₀ : a₀.Leads s) (k : Nat) : a₀.Leads (State.diagUnanswered s k) := by
  unfold State.diagUnanswered
  try dsimp only
  repeat' first
    | with_reducible exact h₀
    | with_reducible assumption
    | with_reducible apply diagFailed_leads
    | split
    | with_reducible refine leads_of_snd (by assumption) ?_
    | with_reducible refine leads_of_fst (by assumption) ?_
    | dsimp only

theorem diagAgain_leads {a₀ s : State} (h₀ : a₀.Leads s) (k : Nat) : a₀.Leads (State.diagAgain s k) := by
  unfold State.diagAgain
  try dsimp only
  repeat' first
    | with_reducible exact h₀
    | with_reducible assumption
    | with_reducible apply setCellX_leads
    | with_reducible apply tryDiag_leads
    | split
    | dsimp only
    | (with_reducible apply leads_mk; first | with_reducible exact h₀ | with_reducible assumption | with_reducible apply setCellX_leads | with_reducible apply tryDiag_leads | split | dsimp only)

theorem lowVdcAgain_leads {a₀ s : State} (h₀ : a₀.Leads s) (k : Nat) : a₀.Leads (State.lowVdcAgain s k) := by
  unfold State.lowVdcAgain
  try dsimp only
  repeat' first
    | with_reducible exact h₀
    | with_reducible assumption
    | with_reducible apply setCellX_leads
    | with_reducible apply tryDiag_leads
    | split
    | dsimp only
    | (with_reducible apply leads_mk; first | with_reducible exact h₀ | with_reducible assumption | with_reducible apply setCellX_leads | with_reducible apply tryDiag_leads | split | dsimp only)

theorem lostCell_leads {a₀ s : State} (h₀ : a₀.Leads s) (k : Nat) : a₀.Leads (State.lostCell s k) := by
  unfold State.lostCell
  try dsimp only
  repeat' first
    | with_reducible exact h₀
    | with_reducible assumption
    | with_reducible apply setCell_leads
    | with_reducible apply endSeq_leads
    | with_reducible apply put_leads
    | with_reducible apply event_leads
    | with_reducible apply setCellX_leads
    | split
    | dsimp only
    | (with_reducible apply leads_mk; first | with_reducible exact h₀ | with_reducible assumption | with_reducible apply setCell_leads | with_reducible apply endSeq_leads | with_reducible apply put_leads | with_reducible apply event_leads | with_reducible apply setCellX_leads | split | dsimp only)

theorem staleCell_leads {a₀ s : State} (h₀ : a₀.Leads s) (k : Nat) : a₀.Leads (State.staleCell s k) := by
  unfold State.staleCell
  try dsimp only
  repeat' first
    | with_reducible exact h₀
    | with_reducible assumption
    | with_reducible apply put_leads
    | with_reducible apply event_leads
    | with_reducible apply faultCell_leads
    | split
    | dsimp only

theorem latchCell_leads {a₀ s : State} (h₀ : a₀.Leads s) (k : Nat) : a₀.Leads (State.latchCell s k) := by
  unfold State.latchCell
  try dsimp only
  repeat' first
    | with_reducible exact h₀
    | with_reducible assumption
    | with_reducible apply put_leads
    | with_reducible apply event_leads
    | with_reducible apply faultCell_leads
    | split
    | dsimp only

theorem hotCell_leads {a₀ s : State} (h₀ : a₀.Leads s) (k : Nat) : a₀.Leads (State.hotCell s k) := by
  unfold State.hotCell
  try dsimp only
  repeat' first
    | with_reducible exact h₀
    | with_reducible assumption
    | with_reducible apply put_leads
    | with_reducible apply startBypass_leads
    | with_reducible apply setCellX_leads
    | with_reducible apply eventIf_leads
    | split
    | dsimp only
    | (with_reducible apply leads_mk; first | with_reducible exact h₀ | with_reducible assumption | with_reducible apply put_leads | with_reducible apply startBypass_leads | with_reducible apply setCellX_leads | with_reducible apply eventIf_leads | split | dsimp only)

theorem coolCell_leads {a₀ s : State} (h₀ : a₀.Leads s) (k : Nat) : a₀.Leads (State.coolCell s k) := by
  unfold State.coolCell
  try dsimp only
  repeat' first
    | with_reducible exact h₀
    | with_reducible assumption
    | with_reducible apply startReturn_leads
    | split
    | dsimp only

theorem repeatFault_leads {a₀ s : State} (h₀ : a₀.Leads s) (k : Nat) : a₀.Leads (State.repeatFault s k) := by
  unfold State.repeatFault
  try dsimp only
  repeat' first
    | with_reducible exact h₀
    | with_reducible assumption
    | with_reducible apply lockOut_leads
    | with_reducible apply event_leads
    | split
    | dsimp only

theorem rampEnd_leads {a₀ s : State} (h₀ : a₀.Leads s) (k : Nat) : a₀.Leads (State.rampEnd s k) := by
  unfold State.rampEnd
  try dsimp only
  repeat' first
    | with_reducible exact h₀
    | with_reducible assumption
    | with_reducible apply setCellX_leads
    | split
    | with_reducible refine leads_of_snd (by assumption) ?_
    | with_reducible refine leads_of_fst (by assumption) ?_
    | dsimp only
    | (with_reducible apply leads_mk; first | with_reducible exact h₀ | with_reducible assumption | with_reducible apply setCellX_leads | split | with_reducible refine leads_of_snd (by assumption) ?_ | with_reducible refine leads_of_fst (by assumption) ?_ | dsimp only)

theorem zeroDone_leads {a₀ s : State} (h₀ : a₀.Leads s) (k : Nat) : a₀.Leads (State.zeroDone s k) := by
  unfold State.zeroDone
  dsimp only
  repeat' first
    | with_reducible exact h₀
    | with_reducible apply setCellX_leads
    | split

theorem bypassTimeout_leads {a₀ s : State} (h₀ : a₀.Leads s) (k : Nat) : a₀.Leads (State.bypassTimeout s k) := by
  unfold State.bypassTimeout
  try dsimp only
  repeat' first
    | with_reducible exact h₀
    | with_reducible assumption
    | with_reducible apply endSeq_leads
    | with_reducible apply put_leads
    | with_reducible apply event_leads
    | with_reducible apply setCellX_leads
    | split
    | with_reducible refine leads_of_snd (by assumption) ?_
    | with_reducible refine leads_of_fst (by assumption) ?_
    | dsimp only
    | (with_reducible apply leads_mk; first | with_reducible exact h₀ | with_reducible assumption | with_reducible apply endSeq_leads | with_reducible apply put_leads | with_reducible apply event_leads | with_reducible apply setCellX_leads | split | with_reducible refine leads_of_snd (by assumption) ?_ | with_reducible refine leads_of_fst (by assumption) ?_ | dsimp only)

theorem faultTimeout_leads {a₀ s : State} (h₀ : a₀.Leads s) (k : Nat) : a₀.Leads (State.faultTimeout s k) := by
  unfold State.faultTimeout
  try dsimp only
  repeat' first
    | with_reducible exact h₀
    | with_reducible assumption
    | with_reducible apply bypFault_leads
    | split
    | dsimp only

theorem returnOpen_leads {a₀ s : State} (h₀ : a₀.Leads s) (k : Nat) : a₀.Leads (State.returnOpen s k) := by
  unfold State.returnOpen
  try dsimp only
  repeat' first
    | with_reducible exact h₀
    | with_reducible assumption
    | with_reducible apply setCellX_leads
    | split
    | with_reducible refine leads_of_snd (by assumption) ?_
    | with_reducible refine leads_of_fst (by assumption) ?_
    | dsimp only
    | (with_reducible apply leads_mk; first | with_reducible exact h₀ | with_reducible assumption | with_reducible apply setCellX_leads | split | with_reducible refine leads_of_snd (by assumption) ?_ | with_reducible refine leads_of_fst (by assumption) ?_ | dsimp only)

theorem returnTimeout_leads {a₀ s : State} (h₀ : a₀.Leads s) (k : Nat) : a₀.Leads (State.returnTimeout s k) := by
  unfold State.returnTimeout
  try dsimp only
  repeat' first
    | with_reducible exact h₀
    | with_reducible assumption
    | with_reducible apply endSeq_leads
    | with_reducible apply event_leads
    | with_reducible apply setCellX_leads
    | split
    | with_reducible refine leads_of_snd (by assumption) ?_
    | with_reducible refine leads_of_fst (by assumption) ?_
    | dsimp only
    | (with_reducible apply leads_mk; first | with_reducible exact h₀ | with_reducible assumption | with_reducible apply endSeq_leads | with_reducible apply event_leads | with_reducible apply setCellX_leads | split | with_reducible refine leads_of_snd (by assumption) ?_ | with_reducible refine leads_of_fst (by assumption) ?_ | dsimp only)

theorem happen_leads {a₀ s : State} (h₀ : a₀.Leads s) (k : Nat) (e : CellEv) : a₀.Leads (State.happen s k e) := by
  unfold State.happen
  try dsimp only
  repeat' first
    | with_reducible exact h₀
    | with_reducible assumption
    | with_reducible apply diagTimeout_leads
    | with_reducible apply diagUnanswered_leads
    | with_reducible apply diagAgain_leads
    | with_reducible apply lowVdcAgain_leads
    | with_reducible apply lostCell_leads
    | with_reducible apply staleCell_leads
    | with_reducible apply latchCell_leads
    | with_reducible apply hotCell_leads
    | with_reducible apply coolCell_leads
    | with_reducible apply repeatFault_leads
    | with_reducible apply rampEnd_leads
    | with_reducible apply bypassTimeout_leads
    | with_reducible apply faultTimeout_leads
    | with_reducible apply returnOpen_leads
    | with_reducible apply returnTimeout_leads
    | with_reducible apply absentCell_leads
    | with_reducible apply absentRing_leads
    | with_reducible apply linkCell_leads
    | split
    | with_reducible refine leads_of_snd (by assumption) ?_
    | with_reducible refine leads_of_fst (by assumption) ?_
    | dsimp only

theorem cellEvent_leads {a₀ s : State} (h₀ : a₀.Leads s) (e : CellEv) (k : Nat) : a₀.Leads (State.cellEvent s e k) := by
  unfold State.cellEvent
  try dsimp only
  repeat' first
    | with_reducible exact h₀
    | with_reducible assumption
    | with_reducible apply happen_leads
    | with_reducible apply ask_leads
    | split
    | dsimp only

theorem tlmRead_leads {a₀ s : State} (h₀ : a₀.Leads s) (n : Nat) (k : Nat) : a₀.Leads (State.tlmRead s n k) := by
  unfold State.tlmRead
  repeat' first
    | with_reducible exact h₀
    | with_reducible apply setSess_leads

end Sys2Proof.Machine
end

