-- ==== Sys2Proof/Laws/Leads/Ring.lean ====
section
/-! SUPPORT. What every command keeps (`State.Leads`): the operations of Ring.lean. -/

namespace Sys2Proof.Machine

theorem launchTlm_leads {a₀ s : State} (h₀ : a₀.Leads s) (r : Nat) : a₀.Leads (State.launchTlm s r) := by
  unfold State.launchTlm
  try dsimp only
  repeat' first
    | with_reducible exact h₀
    | with_reducible assumption
    | with_reducible apply launchTx_leads
    | with_reducible apply leads_foldl
    | (intro _ _; intro)
    | intro _ _
    | intro _
    | split
    | with_reducible refine leads_of_snd (by assumption) ?_
    | with_reducible refine leads_of_fst (by assumption) ?_
    | dsimp only

theorem cycleBegin_leads {a₀ s : State} (h₀ : a₀.Leads s)  : a₀.Leads (State.cycleBegin s) := by
  unfold State.cycleBegin
  try dsimp only
  repeat' first
    | with_reducible exact h₀
    | with_reducible assumption
    | with_reducible apply setLink_leads
    | split
    | with_reducible refine leads_of_snd (by assumption) ?_
    | with_reducible refine leads_of_fst (by assumption) ?_
    | dsimp only
    | (with_reducible apply leads_mk; first | with_reducible exact h₀ | with_reducible assumption | with_reducible apply setLink_leads | split | with_reducible refine leads_of_snd (by assumption) ?_ | with_reducible refine leads_of_fst (by assumption) ?_ | dsimp only)

theorem cycleStart_leads {a₀ s : State} (h₀ : a₀.Leads s)  : a₀.Leads (State.cycleStart s) := by
  unfold State.cycleStart
  try dsimp only
  repeat' first
    | with_reducible exact h₀
    | with_reducible assumption
    | with_reducible apply cycleBegin_leads
    | with_reducible apply launchTlm_leads
    | with_reducible apply leads_forN
    | (intro _ _; intro)
    | intro _ _
    | intro _
    | split
    | dsimp only

theorem slotRx_leads {a₀ s : State} (h₀ : a₀.Leads s) (r : Nat) (portB : Bool) (b : List Byte) (p : Nat) : a₀.Leads (State.slotRx s r portB b p) := by
  unfold State.slotRx
  dsimp only
  repeat' first
    | with_reducible exact h₀
    | with_reducible apply count_leads
    | with_reducible apply setRing_leads
    | split

theorem replyRx_leads {a₀ s : State} (h₀ : a₀.Leads s) (r : Nat) (b : List Byte) : a₀.Leads (State.replyRx s r b) := by
  unfold State.replyRx
  dsimp only
  repeat' first
    | with_reducible exact h₀
    | with_reducible apply setRing_leads
    | split

theorem telemetryRx_leads {a₀ s : State} (h₀ : a₀.Leads s) (r : Nat) (portB : Bool) (aborted : Bool) (b : List Byte) : a₀.Leads (State.telemetryRx s r portB aborted b) := by
  unfold State.telemetryRx
  repeat' first
    | with_reducible exact h₀
    | with_reducible assumption
    | with_reducible apply count_leads
    | with_reducible apply setRing_leads
    | with_reducible apply replyRx_leads
    | with_reducible apply slotRx_leads
    | with_reducible apply leads_forN
    | (intro _ _; intro)
    | split

theorem checkExceeded_leads {a₀ s : State} (h₀ : a₀.Leads s) (r : Nat) : a₀.Leads (State.checkExceeded s r) := by
  unfold State.checkExceeded
  dsimp only
  repeat' first
    | with_reducible exact h₀
    | with_reducible apply setRing_leads
    | with_reducible apply event_leads
    | split

theorem dlyRsp_leads {a₀ s : State} (h₀ : a₀.Leads s) (r : Nat) (h : Nat) (rtt : Nat) (turn : Nat) : a₀.Leads (State.dlyRsp s r h rtt turn) := by
  unfold State.dlyRsp
  repeat' first
    | with_reducible exact h₀
    | with_reducible apply put_leads
    | with_reducible apply setRing_leads
    | with_reducible apply ringTimes_leads
    | with_reducible apply retime_leads
    | with_reducible apply checkExceeded_leads
    | split

theorem startDiscovery_leads {a₀ s : State} (h₀ : a₀.Leads s) (r : Nat) : a₀.Leads (State.startDiscovery s r) := by
  unfold State.startDiscovery
  repeat' first
    | with_reducible exact h₀
    | with_reducible apply put_leads
    | with_reducible apply setRing_leads

theorem portTrained_leads {a₀ s : State} (h₀ : a₀.Leads s) (r : Nat) (portB : Bool) (peerV2 : Bool) : a₀.Leads (State.portTrained s r portB peerV2) := by
  unfold State.portTrained
  try dsimp only
  repeat' first
    | with_reducible exact h₀
    | with_reducible assumption
    | with_reducible apply setRing_leads
    | with_reducible apply launchTx_leads
    | split
    | dsimp only
    | (with_reducible apply leads_mk; first | with_reducible exact h₀ | with_reducible assumption | with_reducible apply setRing_leads | with_reducible apply launchTx_leads | split | dsimp only)

theorem ringDisable_leads {a₀ s : State} (h₀ : a₀.Leads s) (r : Nat) : a₀.Leads (State.ringDisable s r) := by
  unfold State.ringDisable
  try dsimp only
  repeat' first
    | with_reducible exact h₀
    | with_reducible assumption
    | with_reducible apply put_leads
    | with_reducible apply cellEvent_leads
    | with_reducible apply absentRing_leads
    | with_reducible apply retime_leads
    | with_reducible apply leads_forN
    | (intro _ _; intro)
    | intro _ _
    | intro _
    | dsimp only

theorem ringRediscover_leads {a₀ s : State} (h₀ : a₀.Leads s) (r : Nat) : a₀.Leads (State.ringRediscover s r) := by
  unfold State.ringRediscover
  try dsimp only
  repeat' first
    | with_reducible exact h₀
    | with_reducible assumption
    | with_reducible apply cellEvent_leads
    | with_reducible apply absentRing_leads
    | with_reducible apply startDiscovery_leads
    | with_reducible apply retime_leads
    | dsimp only

theorem ringCtrlAct_leads {a₀ s : State} (h₀ : a₀.Leads s) (r : Nat) (was : Bool) (again : Bool) : a₀.Leads (State.ringCtrlAct s r was again) := by
  unfold State.ringCtrlAct
  dsimp only
  repeat' first
    | with_reducible exact h₀
    | with_reducible apply startDiscovery_leads
    | with_reducible apply ringDisable_leads
    | with_reducible apply ringRediscover_leads
    | split

theorem ringCtrlWrite_leads {a₀ s : State} (h₀ : a₀.Leads s) (n : Nat) (r : Nat) (value : Word) (mask : Word) : a₀.Leads (State.ringCtrlWrite s n r value mask).2 := by
  unfold State.ringCtrlWrite
  repeat' first
    | with_reducible exact h₀
    | with_reducible assumption
    | with_reducible apply ringCtrlAct_leads
    | with_reducible apply writeIf_leads
    | intro _ _

theorem retrainV1_leads {a₀ s : State} (h₀ : a₀.Leads s) (r : Nat) : a₀.Leads (State.retrainV1 s r) := by
  unfold State.retrainV1
  try dsimp only
  repeat' first
    | with_reducible exact h₀
    | with_reducible assumption
    | with_reducible apply setRing_leads
    | with_reducible apply launchTx_leads
    | with_reducible apply leads_foldl
    | (intro _ _; intro)
    | intro _ _
    | intro _
    | split
    | dsimp only
    | (with_reducible apply leads_mk; first | with_reducible exact h₀ | with_reducible assumption | with_reducible apply setRing_leads | with_reducible apply launchTx_leads | with_reducible apply leads_foldl | (intro _ _; intro) | intro _ _ | intro _ | split | dsimp only)

theorem discDecide_leads {a₀ s : State} (h₀ : a₀.Leads s) (r : Nat) (a : Bool × List DiscRec) (b : Bool × List DiscRec) : a₀.Leads (State.discDecide s r a b) := by
  unfold State.discDecide
  try dsimp only
  repeat' first
    | with_reducible exact h₀
    | with_reducible assumption
    | with_reducible apply setRing_leads
    | with_reducible apply put_leads
    | with_reducible apply putB_leads
    | with_reducible apply retrainV1_leads
    | with_reducible apply eventIf_leads
    | with_reducible apply cellEvent_leads
    | with_reducible apply leads_foldl
    | with_reducible apply leads_foldl_fst
    | with_reducible apply leads_foldl_snd
    | dsimp only
    | with_reducible apply leads_forN
    | (intro _ _; intro)
    | intro _ _
    | intro _
    | split
    | with_reducible refine leads_of_snd (by assumption) ?_
    | with_reducible refine leads_of_fst (by assumption) ?_
    | dsimp only
    | (with_reducible apply leads_mk; first | with_reducible exact h₀ | with_reducible assumption | with_reducible apply setRing_leads | with_reducible apply put_leads | with_reducible apply putB_leads | with_reducible apply retrainV1_leads | with_reducible apply eventIf_leads | with_reducible apply cellEvent_leads | with_reducible apply leads_foldl | with_reducible apply leads_foldl_fst | with_reducible apply leads_foldl_snd | dsimp only | with_reducible apply leads_forN | (intro _ _; intro) | intro _ _ | intro _ | split | with_reducible refine leads_of_snd (by assumption) ?_ | with_reducible refine leads_of_fst (by assumption) ?_ | dsimp only)

theorem discoverRx_leads {a₀ s : State} (h₀ : a₀.Leads s) (r : Nat) (portB : Bool) (b : List Byte) : a₀.Leads (State.discoverRx s r portB b) := by
  unfold State.discoverRx
  dsimp only
  repeat' first
    | with_reducible exact h₀
    | with_reducible apply count_leads
    | with_reducible apply setRing_leads
    | with_reducible apply discDecide_leads
    | split

theorem ringFollow_leads {a₀ s : State} (h₀ : a₀.Leads s) (r : Nat) : a₀.Leads (State.ringFollow s r) := by
  unfold State.ringFollow
  dsimp only
  repeat' first
    | with_reducible exact h₀
    | with_reducible apply put_leads
    | with_reducible apply putB_leads
    | with_reducible apply event_leads
    | split

theorem ringUp_leads {a₀ s : State} (h₀ : a₀.Leads s) (r : Nat) : a₀.Leads (State.ringUp s r) := by
  unfold State.ringUp
  repeat' first
    | with_reducible exact h₀
    | with_reducible apply ringTimes_leads
    | with_reducible apply ringFollow_leads
    | with_reducible apply event_leads
    | with_reducible apply eventIf_leads
    | with_reducible apply setRing_leads
    | with_reducible apply put_leads
    | with_reducible apply retime_leads
    | split

theorem dropLink_leads {a₀ s : State} (h₀ : a₀.Leads s) (r : Nat) (h : Nat) : a₀.Leads (State.dropLink s r h) := by
  unfold State.dropLink
  try dsimp only
  repeat' first
    | with_reducible exact h₀
    | with_reducible assumption
    | with_reducible apply setRing_leads
    | with_reducible apply put_leads
    | split
    | dsimp only
    | (with_reducible apply leads_mk; first | with_reducible exact h₀ | with_reducible assumption | with_reducible apply setRing_leads | with_reducible apply put_leads | split | dsimp only)

theorem linkDown_leads {a₀ s : State} (h₀ : a₀.Leads s) (r : Nat) (h : Nat) : a₀.Leads (State.linkDown s r h) := by
  unfold State.linkDown
  try dsimp only
  repeat' first
    | with_reducible exact h₀
    | with_reducible assumption
    | with_reducible apply dropLink_leads
    | with_reducible apply setRing_leads
    | with_reducible apply count_leads
    | with_reducible apply ringFollow_leads
    | with_reducible apply retime_leads
    | with_reducible apply put_leads
    | split
    | with_reducible refine leads_of_snd (by assumption) ?_
    | with_reducible refine leads_of_fst (by assumption) ?_
    | dsimp only
    | (with_reducible apply leads_mk; first | with_reducible exact h₀ | with_reducible assumption | with_reducible apply dropLink_leads | with_reducible apply setRing_leads | with_reducible apply count_leads | with_reducible apply ringFollow_leads | with_reducible apply retime_leads | with_reducible apply put_leads | split | with_reducible refine leads_of_snd (by assumption) ?_ | with_reducible refine leads_of_fst (by assumption) ?_ | dsimp only)

end Sys2Proof.Machine
end

