-- ==== Sys2Proof/Laws/Leads/Engine.lean ====
section
/-! SUPPORT. What every command keeps (`State.Leads`): the operations of Engine.lean. -/

namespace Sys2Proof.Machine

theorem setSig_leads {a₀ s : State} (h₀ : a₀.Leads s) (n : Nat) (v : Int) : a₀.Leads (State.setSig s n v) := by
  unfold State.setSig
  repeat' first
    | with_reducible exact h₀
    | with_reducible apply put_leads
    | split

theorem stageSig_leads {a₀ s : State} (h₀ : a₀.Leads s) (n : Nat) (v : Int) : a₀.Leads (State.stageSig s n v) := by
  unfold State.stageSig
  try dsimp only
  repeat' first
    | with_reducible exact h₀
    | with_reducible assumption
    | with_reducible apply setEng_leads
    | split
    | dsimp only
    | (with_reducible apply leads_mk; first | with_reducible exact h₀ | with_reducible assumption | with_reducible apply setEng_leads | split | dsimp only)

theorem ceSetS_leads {a₀ s : State} (h₀ : a₀.Leads s) (e : Nat) (s1 : Int) (s2 : Int) : a₀.Leads (State.ceSetS s e s1 s2) := by
  unfold State.ceSetS
  repeat' first
    | with_reducible exact h₀
    | with_reducible apply put64_leads

theorem ceApply_leads {a₀ s : State} (h₀ : a₀.Leads s) (p : Nat) (r : Nat × CeRes) : a₀.Leads (State.ceApply s p r) := by
  unfold State.ceApply
  try dsimp only
  repeat' first
    | with_reducible exact h₀
    | with_reducible assumption
    | with_reducible apply setSig_leads
    | with_reducible apply ceSetS_leads
    | with_reducible apply put_leads
    | with_reducible apply setEng_leads
    | with_reducible apply leads_foldl
    | with_reducible apply leads_foldl_fst
    | with_reducible apply leads_foldl_snd
    | dsimp only
    | (intro _ _; intro)
    | intro _ _
    | intro _
    | split
    | dsimp only
    | (with_reducible apply leads_mk; first | with_reducible exact h₀ | with_reducible assumption | with_reducible apply setSig_leads | with_reducible apply ceSetS_leads | with_reducible apply put_leads | with_reducible apply setEng_leads | with_reducible apply leads_foldl | with_reducible apply leads_foldl_fst | with_reducible apply leads_foldl_snd | dsimp only | (intro _ _; intro) | intro _ _ | intro _ | split | dsimp only)

theorem ceRound_leads {a₀ s : State} (h₀ : a₀.Leads s) (p : Nat) (round : List Nat) : a₀.Leads (State.ceRound p s round) := by
  unfold State.ceRound
  repeat' first
    | with_reducible exact h₀
    | with_reducible assumption
    | with_reducible apply ceApply_leads
    | with_reducible apply leads_foldl
    | (intro _ _; intro)

theorem ceProgram_leads {a₀ s : State} (h₀ : a₀.Leads s) (p : Nat) : a₀.Leads (State.ceProgram s p) := by
  unfold State.ceProgram
  repeat' first
    | with_reducible exact h₀
    | with_reducible assumption
    | with_reducible apply ceRound_leads
    | with_reducible apply put_leads
    | with_reducible apply leads_foldl
    | (intro _ _; intro)
    | split

theorem ceLog_leads {a₀ s : State} (h₀ : a₀.Leads s) (p : Nat) : a₀.Leads (State.ceLog s p) := by
  unfold State.ceLog
  try dsimp only
  repeat' first
    | with_reducible exact h₀
    | with_reducible assumption
    | with_reducible apply setEng_leads
    | with_reducible apply event_leads
    | split
    | with_reducible refine leads_of_snd (by assumption) ?_
    | with_reducible refine leads_of_fst (by assumption) ?_
    | dsimp only
    | (with_reducible apply leads_mk; first | with_reducible exact h₀ | with_reducible assumption | with_reducible apply setEng_leads | with_reducible apply event_leads | split | with_reducible refine leads_of_snd (by assumption) ?_ | with_reducible refine leads_of_fst (by assumption) ?_ | dsimp only)

theorem cePhase_leads {a₀ s : State} (h₀ : a₀.Leads s) (src : Nat → Nat → Nat → Int) : a₀.Leads (State.cePhase s src) := by
  unfold State.cePhase
  try dsimp only
  repeat' first
    | with_reducible exact h₀
    | with_reducible assumption
    | with_reducible apply setSig_leads
    | with_reducible apply setEng_leads
    | with_reducible apply leads_foldl
    | with_reducible apply leads_foldl_fst
    | with_reducible apply leads_foldl_snd
    | dsimp only
    | (intro _ _; intro)
    | intro _ _
    | intro _
    | split
    | with_reducible refine leads_of_snd (by assumption) ?_
    | with_reducible refine leads_of_fst (by assumption) ?_
    | dsimp only
    | (with_reducible apply leads_mk; first | with_reducible exact h₀ | with_reducible assumption | with_reducible apply setSig_leads | with_reducible apply setEng_leads | with_reducible apply leads_foldl | with_reducible apply leads_foldl_fst | with_reducible apply leads_foldl_snd | dsimp only | (intro _ _; intro) | intro _ _ | intro _ | split | with_reducible refine leads_of_snd (by assumption) ?_ | with_reducible refine leads_of_fst (by assumption) ?_ | dsimp only)

theorem cePass_leads {a₀ s : State} (h₀ : a₀.Leads s) (src : Nat → Nat → Nat → Int) : a₀.Leads (State.cePass s src) := by
  unfold State.cePass
  try dsimp only
  repeat' first
    | with_reducible exact h₀
    | with_reducible assumption
    | with_reducible apply setEng_leads
    | with_reducible apply cePhase_leads
    | with_reducible apply ceProgram_leads
    | with_reducible apply ceLog_leads
    | with_reducible apply countWrap_leads
    | with_reducible apply leads_forN
    | (intro _ _; intro)
    | intro _ _
    | intro _
    | dsimp only
    | (with_reducible apply leads_mk; first | with_reducible exact h₀ | with_reducible assumption | with_reducible apply setEng_leads | with_reducible apply cePhase_leads | with_reducible apply ceProgram_leads | with_reducible apply ceLog_leads | with_reducible apply countWrap_leads | with_reducible apply leads_forN | (intro _ _; intro) | intro _ _ | intro _ | dsimp only)

theorem ceShow_leads {a₀ s : State} (h₀ : a₀.Leads s)  : a₀.Leads (State.ceShow s) := by
  unfold State.ceShow
  try dsimp only
  repeat' first
    | with_reducible exact h₀
    | with_reducible assumption
    | with_reducible apply putSat_leads
    | with_reducible apply put_leads
    | with_reducible apply leads_forN
    | (intro _ _; intro)
    | intro _ _
    | intro _
    | split
    | dsimp only

theorem ceReset_leads {a₀ s : State} (h₀ : a₀.Leads s) (e : Nat) : a₀.Leads (State.ceReset s e) := by
  unfold State.ceReset
  repeat' first
    | with_reducible exact h₀
    | with_reducible apply ceSetS_leads
    | with_reducible apply put_leads

theorem ceCommit_leads {a₀ s : State} (h₀ : a₀.Leads s) (old : State) : a₀.Leads (State.ceCommit s old) := by
  unfold State.ceCommit
  repeat' first
    | with_reducible exact h₀
    | with_reducible assumption
    | with_reducible apply ceReset_leads
    | with_reducible apply event_leads
    | with_reducible apply put_leads
    | with_reducible apply ceShow_leads
    | with_reducible apply leads_foldl
    | (intro _ _; intro)

end Sys2Proof.Machine
end

