-- ==== Sys2Proof/Laws/Leads/Pwm.lean ====
section
/-! SUPPORT. What every command keeps (`State.Leads`): the operations of Pwm.lean. -/

namespace Sys2Proof.Machine

theorem setOffsets_leads {a₀ s : State} (h₀ : a₀.Leads s) (c : Nat) : a₀.Leads (State.setOffsets s c) := by
  unfold State.setOffsets
  repeat' first
    | with_reducible exact h₀
    | with_reducible assumption
    | with_reducible apply put_leads
    | with_reducible apply leads_foldl
    | (intro _ _; intro)

theorem pwmJudge_leads {a₀ s : State} (h₀ : a₀.Leads s) (c : Nat) : a₀.Leads (State.pwmJudge s c) := by
  unfold State.pwmJudge
  repeat' first
    | with_reducible exact h₀
    | with_reducible apply putB_leads
    | with_reducible apply put_leads
    | with_reducible apply eventIf_leads

theorem setDec_leads {a₀ s : State} (h₀ : a₀.Leads s) (k : Nat) (d : Option PwmDec) : a₀.Leads (State.setDec s k d) := by
  unfold State.setDec
  try dsimp only
  repeat' first
    | with_reducible exact h₀
    | with_reducible assumption
    | with_reducible apply setEng_leads
    | dsimp only
    | (with_reducible apply leads_mk; first | with_reducible exact h₀ | with_reducible assumption | with_reducible apply setEng_leads | dsimp only)

theorem countDec_leads {a₀ s : State} (h₀ : a₀.Leads s) (k : Nat) (d : PwmDec) : a₀.Leads (State.countDec s k d) := by
  unfold State.countDec
  try dsimp only
  repeat' first
    | with_reducible exact h₀
    | with_reducible assumption
    | with_reducible apply count_leads
    | with_reducible apply setEng_leads
    | with_reducible apply wearPeriod_leads
    | dsimp only
    | (with_reducible apply leads_mk; first | with_reducible exact h₀ | with_reducible assumption | with_reducible apply count_leads | with_reducible apply setEng_leads | with_reducible apply wearPeriod_leads | dsimp only)

theorem logCaps_leads {a₀ s : State} (h₀ : a₀.Leads s) (c : Nat) : a₀.Leads (State.logCaps s c) := by
  unfold State.logCaps
  try dsimp only
  repeat' first
    | with_reducible exact h₀
    | with_reducible assumption
    | with_reducible apply setEng_leads
    | with_reducible apply event_leads
    | split
    | with_reducible refine leads_of_snd (by assumption) ?_
    | with_reducible refine leads_of_fst (by assumption) ?_
    | dsimp only
    | (with_reducible apply leads_mk; first | with_reducible exact h₀ | with_reducible assumption | with_reducible apply setEng_leads | with_reducible apply event_leads | split | with_reducible refine leads_of_snd (by assumption) ?_ | with_reducible refine leads_of_fst (by assumption) ?_ | dsimp only)

theorem clearDebt_leads {a₀ s : State} (h₀ : a₀.Leads s) (k : Nat) (t : Nat) : a₀.Leads (State.clearDebt s k t) := by
  unfold State.clearDebt
  try dsimp only
  repeat' first
    | with_reducible exact h₀
    | with_reducible assumption
    | with_reducible apply countDec_leads
    | with_reducible apply put_leads
    | with_reducible apply setDec_leads
    | split
    | with_reducible refine leads_of_snd (by assumption) ?_
    | with_reducible refine leads_of_fst (by assumption) ?_
    | dsimp only

theorem staleDebt_leads {a₀ s : State} (h₀ : a₀.Leads s) (k : Nat) : a₀.Leads (State.staleDebt s k) := by
  unfold State.staleDebt
  try dsimp only
  repeat' first
    | with_reducible exact h₀
    | with_reducible assumption
    | with_reducible apply put_leads
    | with_reducible apply setDec_leads
    | dsimp only
    | (with_reducible apply leads_mk; first | with_reducible exact h₀ | with_reducible assumption | with_reducible apply put_leads | with_reducible apply setDec_leads | dsimp only)

theorem noteMSat_leads {a₀ s : State} (h₀ : a₀.Leads s) (c : Nat) (ph : Nat) : a₀.Leads (State.noteMSat s c ph) := by
  unfold State.noteMSat
  try dsimp only
  repeat' first
    | with_reducible exact h₀
    | with_reducible assumption
    | with_reducible apply put_leads
    | with_reducible apply setEng_leads
    | with_reducible apply event_leads
    | split
    | with_reducible refine leads_of_snd (by assumption) ?_
    | with_reducible refine leads_of_fst (by assumption) ?_
    | dsimp only
    | (with_reducible apply leads_mk; first | with_reducible exact h₀ | with_reducible assumption | with_reducible apply put_leads | with_reducible apply setEng_leads | with_reducible apply event_leads | split | with_reducible refine leads_of_snd (by assumption) ?_ | with_reducible refine leads_of_fst (by assumption) ?_ | dsimp only)

theorem pwmCell_leads {a₀ s : State} (h₀ : a₀.Leads s) (k : Nat) : a₀.Leads (State.pwmCell s k) := by
  unfold State.pwmCell
  try dsimp only
  repeat' first
    | with_reducible exact h₀
    | with_reducible assumption
    | with_reducible apply noteMSat_leads
    | with_reducible apply countDec_leads
    | with_reducible apply putS_leads
    | with_reducible apply setDec_leads
    | with_reducible apply setCellX_leads
    | with_reducible apply clearDebt_leads
    | split
    | with_reducible refine leads_of_snd (by assumption) ?_
    | with_reducible refine leads_of_fst (by assumption) ?_
    | dsimp only
    | (with_reducible apply leads_mk; first | with_reducible exact h₀ | with_reducible assumption | with_reducible apply noteMSat_leads | with_reducible apply countDec_leads | with_reducible apply putS_leads | with_reducible apply setDec_leads | with_reducible apply setCellX_leads | with_reducible apply clearDebt_leads | split | with_reducible refine leads_of_snd (by assumption) ?_ | with_reducible refine leads_of_fst (by assumption) ?_ | dsimp only)

theorem pwmRun_leads {a₀ s : State} (h₀ : a₀.Leads s)  : a₀.Leads (State.pwmRun s) := by
  unfold State.pwmRun
  repeat' first
    | with_reducible exact h₀
    | with_reducible assumption
    | with_reducible apply put_leads
    | with_reducible apply pwmCell_leads
    | with_reducible apply logCaps_leads
    | with_reducible apply leads_foldl
    | with_reducible apply leads_forN
    | (intro _ _; intro)

theorem pwmFreeze_leads {a₀ s : State} (h₀ : a₀.Leads s) (k : Nat) : a₀.Leads (State.pwmFreeze s k) := by
  unfold State.pwmFreeze
  try dsimp only
  repeat' first
    | with_reducible exact h₀
    | with_reducible assumption
    | with_reducible apply clearDebt_leads
    | with_reducible apply staleDebt_leads
    | split
    | dsimp only

theorem bridges_leads {a₀ s : State} (h₀ : a₀.Leads s) (old : State) (new : State) (c : Nat) (tc : Nat) : a₀.Leads (State.bridges s old new c tc) := by
  unfold State.bridges
  try dsimp only
  repeat' first
    | with_reducible exact h₀
    | with_reducible assumption
    | with_reducible apply setEng_leads
    | with_reducible apply leads_foldl
    | (intro _ _; intro)
    | intro _ _
    | intro _
    | dsimp only
    | (with_reducible apply leads_mk; first | with_reducible exact h₀ | with_reducible assumption | with_reducible apply setEng_leads | with_reducible apply leads_foldl | (intro _ _; intro) | intro _ _ | intro _ | dsimp only)

theorem carrierChange_leads {a₀ s : State} (h₀ : a₀.Leads s) (old : State) (c : Nat) (tc : Nat) : a₀.Leads (State.carrierChange s old c tc) := by
  unfold State.carrierChange
  try dsimp only
  repeat' first
    | with_reducible exact h₀
    | with_reducible assumption
    | with_reducible apply put64_leads
    | with_reducible apply bridges_leads
    | with_reducible apply put_leads
    | with_reducible apply event_leads
    | dsimp only

theorem respread_leads {a₀ s : State} (h₀ : a₀.Leads s) (c : Nat) : a₀.Leads (State.respread s c) := by
  unfold State.respread
  repeat' first
    | with_reducible exact h₀
    | with_reducible assumption
    | with_reducible apply put_leads
    | with_reducible apply leads_foldl
    | (intro _ _; intro)

theorem clearBy_leads {a s : State} (h : a.Leads s) (n : Nat) (r : Reg) (act : State → State)
    (hf : ∀ s, a.Leads s → a.Leads (act s)) : a.Leads (s.clearBy n r act).2 := by
  unfold State.clearBy
  split
  · exact h
  · split
    · exact hf s h
    · exact h

theorem pwmClear_leads {a₀ s : State} (h₀ : a₀.Leads s) (n : Nat) : a₀.Leads (State.pwmClear s n).2 := by
  unfold State.pwmClear
  repeat' first
    | with_reducible exact h₀
    | with_reducible assumption
    | with_reducible apply put_leads
    | with_reducible apply clearBy_leads
    | intro _ _

theorem dlyCal_leads {a₀ s : State} (h₀ : a₀.Leads s) (e0 : Nat × Bool) (e1 : Nat × Bool) (e2 : Nat × Bool) : a₀.Leads (State.dlyCal s e0 e1 e2) := by
  unfold State.dlyCal
  dsimp only
  repeat' first
    | with_reducible exact h₀
    | with_reducible assumption
    | with_reducible apply countWrap_leads
    | with_reducible apply putSat_leads
    | with_reducible apply put_leads
    | with_reducible apply event_leads
    | with_reducible apply leads_foldl
    | (intro _ _; intro)
    | split

end Sys2Proof.Machine
end

