-- ==== Sys2Proof/Laws/Leads/Grid.lean ====
section
/-! SUPPORT. What every command keeps (`State.Leads`): the operations of Grid.lean. -/

namespace Sys2Proof.Machine

theorem setGpt_leads {a₀ s : State} (h₀ : a₀.Leads s) (p : Nat) (x : GridPt) : a₀.Leads (State.setGpt s p x) := by
  unfold State.setGpt
  try dsimp only
  repeat' first
    | with_reducible exact h₀
    | with_reducible assumption
    | with_reducible apply setGrid_leads
    | dsimp only
    | (with_reducible apply leads_mk; first | with_reducible exact h₀ | with_reducible assumption | with_reducible apply setGrid_leads | dsimp only)

theorem setGclu_leads {a₀ s : State} (h₀ : a₀.Leads s) (c : Nat) (x : GridClu) : a₀.Leads (State.setGclu s c x) := by
  unfold State.setGclu
  try dsimp only
  repeat' first
    | with_reducible exact h₀
    | with_reducible assumption
    | with_reducible apply setGrid_leads
    | dsimp only
    | (with_reducible apply leads_mk; first | with_reducible exact h₀ | with_reducible assumption | with_reducible apply setGrid_leads | dsimp only)

theorem setGcell_leads {a₀ s : State} (h₀ : a₀.Leads s) (k : Nat) (x : GridCell) : a₀.Leads (State.setGcell s k x) := by
  unfold State.setGcell
  try dsimp only
  repeat' first
    | with_reducible exact h₀
    | with_reducible assumption
    | with_reducible apply setGrid_leads
    | dsimp only
    | (with_reducible apply leads_mk; first | with_reducible exact h₀ | with_reducible assumption | with_reducible apply setGrid_leads | dsimp only)

theorem gridReset_leads {a₀ s : State} (h₀ : a₀.Leads s) (p : Nat) : a₀.Leads (State.gridReset s p) := by
  unfold State.gridReset
  dsimp only
  repeat' first
    | with_reducible exact h₀
    | with_reducible apply setGpt_leads
    | with_reducible apply count_leads
    | split

theorem gridReport_leads {a₀ s : State} (h₀ : a₀.Leads s) (p : Nat) : a₀.Leads (State.gridReport s p) := by
  unfold State.gridReport
  repeat' first
    | with_reducible exact h₀
    | with_reducible apply putB_leads
    | with_reducible apply put_leads
    | with_reducible apply putS_leads
    | with_reducible apply setGpt_leads

theorem setF_leads {a₀ s : State} (h₀ : a₀.Leads s) (p : Nat) (st : Nat) : a₀.Leads (State.setF s p st) := by
  unfold State.setF
  repeat' first
    | with_reducible exact h₀
    | with_reducible apply put_leads
    | with_reducible apply gridReport_leads

theorem setSource_leads {a₀ s : State} (h₀ : a₀.Leads s) (p : Nat) (src : Nat) : a₀.Leads (State.setSource s p src) := by
  unfold State.setSource
  dsimp only
  repeat' first
    | with_reducible exact h₀
    | with_reducible apply put_leads
    | with_reducible apply count_leads
    | with_reducible apply event_leads
    | with_reducible apply setGpt_leads
    | with_reducible apply setF_leads
    | split

theorem gridLoad_leads {a₀ s : State} (h₀ : a₀.Leads s) (p : Nat) : a₀.Leads (State.gridLoad s p) := by
  unfold State.gridLoad
  repeat' first
    | with_reducible exact h₀
    | with_reducible apply setGpt_leads
    | with_reducible apply put_leads
    | with_reducible apply setF_leads

theorem bsiApart_leads {a₀ s : State} (h₀ : a₀.Leads s) (p : Nat) : a₀.Leads (State.bsiApart s p) := by
  unfold State.bsiApart
  try dsimp only
  repeat' first
    | with_reducible exact h₀
    | with_reducible assumption
    | with_reducible apply setGpt_leads
    | dsimp only
    | (with_reducible apply leads_mk; first | with_reducible exact h₀ | with_reducible assumption | with_reducible apply setGpt_leads | dsimp only)

theorem gridReconfig_leads {a₀ s : State} (h₀ : a₀.Leads s) (p : Nat) : a₀.Leads (State.gridReconfig s p) := by
  unfold State.gridReconfig
  try dsimp only
  repeat' first
    | with_reducible exact h₀
    | with_reducible assumption
    | with_reducible apply setGpt_leads
    | with_reducible apply gridReset_leads
    | with_reducible apply setF_leads
    | with_reducible apply bsiApart_leads
    | split
    | dsimp only
    | (with_reducible apply leads_mk; first | with_reducible exact h₀ | with_reducible assumption | with_reducible apply setGpt_leads | with_reducible apply gridReset_leads | with_reducible apply setF_leads | with_reducible apply bsiApart_leads | split | dsimp only)

theorem gridDetect_leads {a₀ s : State} (h₀ : a₀.Leads s) (p : Nat) (e0 : Sogi) (ts : Nat) : a₀.Leads (State.gridDetect s p e0 ts) := by
  unfold State.gridDetect
  repeat' first
    | with_reducible exact h₀
    | with_reducible apply setGpt_leads

theorem gridState_leads {a₀ s : State} (h₀ : a₀.Leads s) (p : Nat) (ts : Nat) : a₀.Leads (State.gridState s p ts) := by
  unfold State.gridState
  dsimp only
  repeat' first
    | with_reducible exact h₀
    | with_reducible apply gridReset_leads
    | with_reducible apply setF_leads
    | with_reducible apply event_leads
    | with_reducible apply gridReport_leads
    | with_reducible apply setGpt_leads
    | split

theorem gridSample_leads {a₀ s : State} (h₀ : a₀.Leads s) (p : Nat) (ts : Nat) (rate : Nat) (a : Int) (b : Int) (c : Int) : a₀.Leads (State.gridSample s p ts rate a b c) := by
  unfold State.gridSample
  repeat' first
    | with_reducible exact h₀
    | with_reducible apply setGpt_leads
    | with_reducible apply gridDetect_leads
    | with_reducible apply gridState_leads

theorem gridLost_leads {a₀ s : State} (h₀ : a₀.Leads s) (p : Nat) (n : Nat) : a₀.Leads (State.gridLost s p n) := by
  unfold State.gridLost
  dsimp only
  repeat' first
    | with_reducible exact h₀
    | with_reducible apply count_leads
    | with_reducible apply setGpt_leads
    | with_reducible apply event_leads
    | split

theorem gridAdvance_leads {a₀ s : State} (h₀ : a₀.Leads s) (p : Nat) (e : Nat) : a₀.Leads (State.gridAdvance s p e) := by
  unfold State.gridAdvance
  try dsimp only
  repeat' first
    | with_reducible exact h₀
    | with_reducible assumption
    | with_reducible apply setGpt_leads
    | split
    | with_reducible refine leads_of_snd (by assumption) ?_
    | with_reducible refine leads_of_fst (by assumption) ?_
    | dsimp only
    | (with_reducible apply leads_mk; first | with_reducible exact h₀ | with_reducible assumption | with_reducible apply setGpt_leads | split | with_reducible refine leads_of_snd (by assumption) ?_ | with_reducible refine leads_of_fst (by assumption) ?_ | dsimp only)

theorem svMissing_leads {a₀ s : State} (h₀ : a₀.Leads s) (p : Nat) (e : Nat) : a₀.Leads (State.svMissing s p e) := by
  unfold State.svMissing
  try dsimp only
  repeat' first
    | with_reducible exact h₀
    | with_reducible assumption
    | with_reducible apply gridLost_leads
    | with_reducible apply setGpt_leads
    | with_reducible apply gridAdvance_leads
    | with_reducible apply bsiApart_leads
    | with_reducible apply setSource_leads
    | split
    | with_reducible refine leads_of_snd (by assumption) ?_
    | with_reducible refine leads_of_fst (by assumption) ?_
    | dsimp only
    | (with_reducible apply leads_mk; first | with_reducible exact h₀ | with_reducible assumption | with_reducible apply gridLost_leads | with_reducible apply setGpt_leads | with_reducible apply gridAdvance_leads | with_reducible apply bsiApart_leads | with_reducible apply setSource_leads | split | with_reducible refine leads_of_snd (by assumption) ?_ | with_reducible refine leads_of_fst (by assumption) ?_ | dsimp only)

theorem svLate_leads {a₀ s : State} (h₀ : a₀.Leads s) (p : Nat) (ts : Nat) : a₀.Leads (State.svLate s p ts) := by
  unfold State.svLate
  try dsimp only
  repeat' first
    | with_reducible exact h₀
    | with_reducible assumption
    | with_reducible apply setGpt_leads
    | with_reducible apply svMissing_leads
    | split
    | dsimp only
    | (with_reducible apply leads_mk; first | with_reducible exact h₀ | with_reducible assumption | with_reducible apply setGpt_leads | with_reducible apply svMissing_leads | split | dsimp only)

theorem svSample_leads {a₀ s : State} (h₀ : a₀.Leads s) (p : Nat) (ts : Nat) (rate : Nat) (a : Int) (b : Int) (c : Int) : a₀.Leads (State.svSample s p ts rate a b c) := by
  unfold State.svSample
  try dsimp only
  repeat' first
    | with_reducible exact h₀
    | with_reducible assumption
    | with_reducible apply svLate_leads
    | with_reducible apply setGpt_leads
    | with_reducible apply setSource_leads
    | with_reducible apply gridSample_leads
    | split
    | with_reducible refine leads_of_snd (by assumption) ?_
    | with_reducible refine leads_of_fst (by assumption) ?_
    | dsimp only
    | (with_reducible apply leads_mk; first | with_reducible exact h₀ | with_reducible assumption | with_reducible apply svLate_leads | with_reducible apply setGpt_leads | with_reducible apply setSource_leads | with_reducible apply gridSample_leads | split | with_reducible refine leads_of_snd (by assumption) ?_ | with_reducible refine leads_of_fst (by assumption) ?_ | dsimp only)

theorem bsiCompare_leads {a₀ s : State} (h₀ : a₀.Leads s) (p : Nat) : a₀.Leads (State.bsiCompare s p) := by
  unfold State.bsiCompare
  dsimp only
  repeat' first
    | with_reducible exact h₀
    | with_reducible apply putS_leads
    | with_reducible apply setGpt_leads
    | split

theorem bsiPoint_leads {a₀ s : State} (h₀ : a₀.Leads s) (p : Nat) (ts : Nat) (run : Bool) (a : Int) (b : Int) (c : Int) : a₀.Leads (State.bsiPoint s p ts run a b c) := by
  unfold State.bsiPoint
  dsimp only
  repeat' first
    | with_reducible exact h₀
    | with_reducible apply setSource_leads
    | with_reducible apply setGpt_leads
    | with_reducible apply bsiCompare_leads
    | with_reducible apply gridSample_leads
    | split

theorem bsiGone_leads {a₀ s : State} (h₀ : a₀.Leads s) (ch : Nat) : a₀.Leads (State.bsiGone s ch) := by
  unfold State.bsiGone
  try dsimp only
  repeat' first
    | with_reducible exact h₀
    | with_reducible assumption
    | with_reducible apply bsiApart_leads
    | with_reducible apply setSource_leads
    | with_reducible apply leads_forN
    | (intro _ _; intro)
    | intro _ _
    | intro _
    | split
    | with_reducible refine leads_of_snd (by assumption) ?_
    | with_reducible refine leads_of_fst (by assumption) ?_
    | dsimp only

theorem gridUpset_leads {a₀ s : State} (h₀ : a₀.Leads s) (p : Nat) (before : Option Int) : a₀.Leads (State.gridUpset s p before) := by
  unfold State.gridUpset
  try dsimp only
  repeat' first
    | with_reducible exact h₀
    | with_reducible assumption
    | with_reducible apply setGpt_leads
    | with_reducible apply gridReset_leads
    | with_reducible apply setF_leads
    | with_reducible apply gridReport_leads
    | split
    | with_reducible refine leads_of_snd (by assumption) ?_
    | with_reducible refine leads_of_fst (by assumption) ?_
    | dsimp only
    | (with_reducible apply leads_mk; first | with_reducible exact h₀ | with_reducible assumption | with_reducible apply setGpt_leads | with_reducible apply gridReset_leads | with_reducible apply setF_leads | with_reducible apply gridReport_leads | split | with_reducible refine leads_of_snd (by assumption) ?_ | with_reducible refine leads_of_fst (by assumption) ?_ | dsimp only)

theorem gridShow_leads {a₀ s : State} (h₀ : a₀.Leads s) (p : Nat) : a₀.Leads (State.gridShow s p) := by
  unfold State.gridShow
  try dsimp only
  repeat' first
    | with_reducible exact h₀
    | with_reducible assumption
    | with_reducible apply setWord_leads
    | with_reducible apply putS_leads
    | with_reducible apply put_leads
    | split
    | with_reducible refine leads_of_snd (by assumption) ?_
    | with_reducible refine leads_of_fst (by assumption) ?_
    | dsimp only

theorem phaseCurrent_leads {a₀ s : State} (h₀ : a₀.Leads s) (c : Nat) (ph : Nat) : a₀.Leads (State.phaseCurrent s c ph) := by
  unfold State.phaseCurrent
  dsimp only
  repeat' first
    | with_reducible exact h₀
    | with_reducible assumption
    | with_reducible apply setGclu_leads
    | with_reducible apply put_leads
    | with_reducible apply setGcell_leads
    | with_reducible apply leads_foldl
    | (intro _ _; intro)
    | split

end Sys2Proof.Machine
end

