-- ==== Sys2Proof/Laws/Leads/Current.lean ====
section
/-! SUPPORT. What every command keeps (`State.Leads`): the operations of Current.lean. -/

namespace Sys2Proof.Machine

theorem setMcell_leads {a₀ s : State} (h₀ : a₀.Leads s) (k : Nat) (x : MpptCell) : a₀.Leads (State.setMcell s k x) := by
  unfold State.setMcell
  try dsimp only
  repeat' first
    | with_reducible exact h₀
    | with_reducible assumption
    | with_reducible apply setMppt_leads
    | dsimp only
    | (with_reducible apply leads_mk; first | with_reducible exact h₀ | with_reducible assumption | with_reducible apply setMppt_leads | dsimp only)

theorem setMclu_leads {a₀ s : State} (h₀ : a₀.Leads s) (c : Nat) (x : MpptClu) : a₀.Leads (State.setMclu s c x) := by
  unfold State.setMclu
  try dsimp only
  repeat' first
    | with_reducible exact h₀
    | with_reducible assumption
    | with_reducible apply setMppt_leads
    | dsimp only
    | (with_reducible apply leads_mk; first | with_reducible exact h₀ | with_reducible assumption | with_reducible apply setMppt_leads | dsimp only)

theorem setFclu_leads {a₀ s : State} (h₀ : a₀.Leads s) (c : Nat) (x : FrtClu) : a₀.Leads (State.setFclu s c x) := by
  unfold State.setFclu
  try dsimp only
  repeat' first
    | with_reducible exact h₀
    | with_reducible assumption
    | with_reducible apply setFrt_leads
    | dsimp only
    | (with_reducible apply leads_mk; first | with_reducible exact h₀ | with_reducible assumption | with_reducible apply setFrt_leads | dsimp only)

theorem setIsl_leads {a₀ s : State} (h₀ : a₀.Leads s) (x : IslSt) : a₀.Leads (State.setIsl s x) := by
  unfold State.setIsl
  try dsimp only
  repeat' first
    | with_reducible exact h₀
    | with_reducible assumption
    | with_reducible apply setFrt_leads
    | dsimp only
    | (with_reducible apply leads_mk; first | with_reducible exact h₀ | with_reducible assumption | with_reducible apply setFrt_leads | dsimp only)

theorem takeWindows_leads {a₀ s : State} (h₀ : a₀.Leads s) (c : Nat) : a₀.Leads (State.takeWindows s c) := by
  unfold State.takeWindows
  try dsimp only
  repeat' first
    | with_reducible exact h₀
    | with_reducible assumption
    | with_reducible apply setGcell_leads
    | with_reducible apply setGclu_leads
    | with_reducible apply leads_foldl
    | (intro _ _; intro)
    | intro _ _
    | intro _
    | split
    | with_reducible refine leads_of_snd (by assumption) ?_
    | with_reducible refine leads_of_fst (by assumption) ?_
    | dsimp only
    | (with_reducible apply leads_mk; first | with_reducible exact h₀ | with_reducible assumption | with_reducible apply setGcell_leads | with_reducible apply setGclu_leads | with_reducible apply leads_foldl | (intro _ _; intro) | intro _ _ | intro _ | split | with_reducible refine leads_of_snd (by assumption) ?_ | with_reducible refine leads_of_fst (by assumption) ?_ | dsimp only)

theorem showPrt_leads {a₀ s : State} (h₀ : a₀.Leads s) (c : Nat) : a₀.Leads (State.showPrt s c) := by
  unfold State.showPrt
  repeat' first
    | with_reducible exact h₀
    | with_reducible apply put_leads

theorem dcLoop_leads {a₀ s : State} (h₀ : a₀.Leads s) (c : Nat) : a₀.Leads (State.dcLoop s c).1 := by
  unfold State.dcLoop
  repeat' first
    | with_reducible exact h₀
    | with_reducible apply setGclu_leads

theorem stageRefs_leads {a₀ s : State} (h₀ : a₀.Leads s) (c : Nat) : a₀.Leads (State.stageRefs s c) := by
  unfold State.stageRefs
  dsimp only
  repeat' first
    | with_reducible exact h₀
    | with_reducible apply putB_leads
    | with_reducible apply setGclu_leads
    | with_reducible apply event_leads
    | with_reducible apply stageSig_leads
    | with_reducible apply putS_leads
    | with_reducible apply setFclu_leads
    | split

theorem takePre_leads {a₀ s : State} (h₀ : a₀.Leads s) (c : Nat) : a₀.Leads (State.takePre s c) := by
  unfold State.takePre
  try dsimp only
  repeat' first
    | with_reducible exact h₀
    | with_reducible assumption
    | with_reducible apply setFclu_leads
    | split
    | dsimp only
    | (with_reducible apply leads_mk; first | with_reducible exact h₀ | with_reducible assumption | with_reducible apply setFclu_leads | split | dsimp only)

theorem setGShift_leads {a₀ s : State} (h₀ : a₀.Leads s)  : a₀.Leads (State.setGShift s) := by
  unfold State.setGShift
  repeat' first
    | with_reducible exact h₀
    | with_reducible assumption
    | with_reducible apply put_leads
    | with_reducible apply leads_foldl
    | (intro _ _; intro)

theorem setLead_leads {a₀ s : State} (h₀ : a₀.Leads s) (c : Nat) : a₀.Leads (State.setLead s c) := by
  unfold State.setLead
  repeat' first
    | with_reducible exact h₀
    | with_reducible apply putSat_leads
    | split

theorem stageSlow_leads {a₀ s : State} (h₀ : a₀.Leads s) (c : Nat) : a₀.Leads (State.stageSlow s c) := by
  unfold State.stageSlow
  repeat' first
    | with_reducible exact h₀
    | with_reducible assumption
    | with_reducible apply putB_leads
    | with_reducible apply stageSig_leads
    | with_reducible apply leads_foldl
    | (intro _ _; intro)

theorem stageZero_leads {a₀ s : State} (h₀ : a₀.Leads s) (c : Nat) : a₀.Leads (State.stageZero s c) := by
  unfold State.stageZero
  dsimp only
  repeat' first
    | with_reducible exact h₀
    | with_reducible apply stageSig_leads
    | with_reducible apply putS_leads
    | with_reducible apply put_leads
    | with_reducible apply putB_leads
    | with_reducible apply setGclu_leads
    | with_reducible apply event_leads
    | split

theorem stageShares_leads {a₀ s : State} (h₀ : a₀.Leads s) (c : Nat) (ph : Nat) : a₀.Leads (State.stageShares s c ph) := by
  unfold State.stageShares
  dsimp only
  repeat' first
    | with_reducible exact h₀
    | with_reducible assumption
    | with_reducible apply put_leads
    | with_reducible apply setGcell_leads
    | with_reducible apply stageSig_leads
    | with_reducible apply setGclu_leads
    | with_reducible apply event_leads
    | with_reducible apply leads_foldl
    | (intro _ _; intro)
    | split

theorem stageZeros_leads {a₀ s : State} (h₀ : a₀.Leads s) (c : Nat) : a₀.Leads (State.stageZeros s c) := by
  unfold State.stageZeros
  repeat' first
    | with_reducible exact h₀
    | with_reducible assumption
    | with_reducible apply stageSig_leads
    | with_reducible apply leads_foldl
    | (intro _ _; intro)
    | split

theorem takeCluster_leads {a₀ s : State} (h₀ : a₀.Leads s) (c : Nat) : a₀.Leads (State.takeCluster s c) := by
  unfold State.takeCluster
  try dsimp only
  repeat' first
    | with_reducible exact h₀
    | with_reducible assumption
    | with_reducible apply phaseCurrent_leads
    | with_reducible apply takeWindows_leads
    | with_reducible apply leads_foldl
    | (intro _ _; intro)
    | intro _ _
    | intro _
    | dsimp only

theorem stageCluster_leads {a₀ s2 : State} (h₀ : a₀.Leads s2) (c : Nat) : a₀.Leads (State.stageCluster s2 c) := by
  unfold State.stageCluster
  try dsimp only
  repeat' first
    | with_reducible exact h₀
    | with_reducible assumption
    | with_reducible apply setFclu_leads
    | with_reducible apply dcLoop_leads
    | with_reducible apply stageSlow_leads
    | with_reducible apply stageRefs_leads
    | with_reducible apply takePre_leads
    | with_reducible apply stageZero_leads
    | with_reducible apply stageShares_leads
    | with_reducible apply stageZeros_leads
    | with_reducible apply showPrt_leads
    | with_reducible apply leads_foldl
    | with_reducible apply leads_foldl_fst
    | with_reducible apply leads_foldl_snd
    | dsimp only
    | (intro _ _; intro)
    | intro _ _
    | intro _
    | split
    | with_reducible refine leads_of_snd (by assumption) ?_
    | with_reducible refine leads_of_fst (by assumption) ?_
    | dsimp only
    | (with_reducible apply leads_mk; first | with_reducible exact h₀ | with_reducible assumption | with_reducible apply setFclu_leads | with_reducible apply dcLoop_leads | with_reducible apply stageSlow_leads | with_reducible apply stageRefs_leads | with_reducible apply takePre_leads | with_reducible apply stageZero_leads | with_reducible apply stageShares_leads | with_reducible apply stageZeros_leads | with_reducible apply showPrt_leads | with_reducible apply leads_foldl | with_reducible apply leads_foldl_fst | with_reducible apply leads_foldl_snd | dsimp only | (intro _ _; intro) | intro _ _ | intro _ | split | with_reducible refine leads_of_snd (by assumption) ?_ | with_reducible refine leads_of_fst (by assumption) ?_ | dsimp only)

theorem resetProg_leads {a₀ s : State} (h₀ : a₀.Leads s) (c : Nat) : a₀.Leads (State.resetProg s c) := by
  unfold State.resetProg
  repeat' first
    | with_reducible exact h₀
    | with_reducible assumption
    | with_reducible apply ceReset_leads
    | with_reducible apply event_leads
    | with_reducible apply leads_foldl
    | (intro _ _; intro)

end Sys2Proof.Machine
end

