-- ==== Sys2Proof/Laws/Leads/Mppt.lean ====
section
/-! SUPPORT. What every command keeps (`State.Leads`): the operations of Mppt.lean. -/

namespace Sys2Proof.Machine

theorem setMode_leads {a₀ s : State} (h₀ : a₀.Leads s) (k : Nat) (m : Nat) : a₀.Leads (State.setMode s k m) := by
  unfold State.setMode
  repeat' first
    | with_reducible exact h₀
    | with_reducible apply put_leads
    | with_reducible apply putB_leads

theorem writeRef_leads {a₀ s : State} (h₀ : a₀.Leads s) (k : Nat) (v : Option Int) (force : Bool) : a₀.Leads (State.writeRef s k v force) := by
  unfold State.writeRef
  try dsimp only
  repeat' first
    | with_reducible exact h₀
    | with_reducible assumption
    | with_reducible apply setMcell_leads
    | with_reducible apply setRing_leads
    | with_reducible apply mbxPost_leads
    | split
    | with_reducible refine leads_of_snd (by assumption) ?_
    | with_reducible refine leads_of_fst (by assumption) ?_
    | dsimp only
    | (with_reducible apply leads_mk; first | with_reducible exact h₀ | with_reducible assumption | with_reducible apply setMcell_leads | with_reducible apply setRing_leads | with_reducible apply mbxPost_leads | split | with_reducible refine leads_of_snd (by assumption) ?_ | with_reducible refine leads_of_fst (by assumption) ?_ | dsimp only)

theorem refSent_leads {a₀ s : State} (h₀ : a₀.Leads s) (r : Nat) (q : MbxReq) : a₀.Leads (State.refSent s r q) := by
  unfold State.refSent
  try dsimp only
  repeat' first
    | with_reducible exact h₀
    | with_reducible assumption
    | with_reducible apply setMcell_leads
    | split
    | with_reducible refine leads_of_snd (by assumption) ?_
    | with_reducible refine leads_of_fst (by assumption) ?_
    | dsimp only
    | (with_reducible apply leads_mk; first | with_reducible exact h₀ | with_reducible assumption | with_reducible apply setMcell_leads | split | with_reducible refine leads_of_snd (by assumption) ?_ | with_reducible refine leads_of_fst (by assumption) ?_ | dsimp only)

theorem refAnswered_leads {a₀ s : State} (h₀ : a₀.Leads s) (k : Nat) (code : Nat) : a₀.Leads (State.refAnswered s k code) := by
  unfold State.refAnswered
  repeat' first
    | with_reducible exact h₀
    | with_reducible apply put_leads
    | with_reducible apply setMcell_leads

theorem abandonRef_leads {a₀ s : State} (h₀ : a₀.Leads s) (k : Nat) : a₀.Leads (State.abandonRef s k) := by
  unfold State.abandonRef
  try dsimp only
  repeat' first
    | with_reducible exact h₀
    | with_reducible assumption
    | with_reducible apply setRing_leads
    | with_reducible apply count_leads
    | with_reducible apply setMppt_leads
    | with_reducible apply event_leads
    | with_reducible apply setMcell_leads
    | with_reducible apply put_leads
    | split
    | with_reducible refine leads_of_snd (by assumption) ?_
    | with_reducible refine leads_of_fst (by assumption) ?_
    | dsimp only
    | (with_reducible apply leads_mk; first | with_reducible exact h₀ | with_reducible assumption | with_reducible apply setRing_leads | with_reducible apply count_leads | with_reducible apply setMppt_leads | with_reducible apply event_leads | with_reducible apply setMcell_leads | with_reducible apply put_leads | split | with_reducible refine leads_of_snd (by assumption) ?_ | with_reducible refine leads_of_fst (by assumption) ?_ | dsimp only)

theorem setQueue_leads {a₀ s : State} (h₀ : a₀.Leads s) (c : Nat) (ph : Nat) (l : List (Nat × Bool)) : a₀.Leads (State.setQueue s c ph l) := by
  unfold State.setQueue
  repeat' first
    | with_reducible exact h₀
    | with_reducible apply setMclu_leads

theorem enqueue_leads {a₀ s : State} (h₀ : a₀.Leads s) (k : Nat) (sw : Bool) : a₀.Leads (State.enqueue s k sw) := by
  unfold State.enqueue
  dsimp only
  repeat' first
    | with_reducible exact h₀
    | with_reducible apply setQueue_leads
    | with_reducible apply put_leads
    | split

theorem dequeue_leads {a₀ s : State} (h₀ : a₀.Leads s) (k : Nat) : a₀.Leads (State.dequeue s k) := by
  unfold State.dequeue
  repeat' first
    | with_reducible exact h₀
    | with_reducible apply setQueue_leads
    | with_reducible apply put_leads

theorem abortScan_leads {a₀ s : State} (h₀ : a₀.Leads s) (k : Nat) (mode : Nat) (cause : Nat) (requeue : Bool) : a₀.Leads (State.abortScan s k mode cause requeue) := by
  unfold State.abortScan
  try dsimp only
  repeat' first
    | with_reducible exact h₀
    | with_reducible assumption
    | with_reducible apply setMcell_leads
    | with_reducible apply setMode_leads
    | with_reducible apply writeRef_leads
    | with_reducible apply event_leads
    | with_reducible apply setQueue_leads
    | with_reducible apply put_leads
    | split
    | with_reducible refine leads_of_snd (by assumption) ?_
    | with_reducible refine leads_of_fst (by assumption) ?_
    | dsimp only
    | (with_reducible apply leads_mk; first | with_reducible exact h₀ | with_reducible assumption | with_reducible apply setMcell_leads | with_reducible apply setMode_leads | with_reducible apply writeRef_leads | with_reducible apply event_leads | with_reducible apply setQueue_leads | with_reducible apply put_leads | split | with_reducible refine leads_of_snd (by assumption) ?_ | with_reducible refine leads_of_fst (by assumption) ?_ | dsimp only)

theorem showPwr_leads {a₀ s : State} (h₀ : a₀.Leads s) (k : Nat) (p : Int) : a₀.Leads (State.showPwr s k p) := by
  unfold State.showPwr
  try dsimp only
  repeat' first
    | with_reducible exact h₀
    | with_reducible assumption
    | with_reducible apply setMcell_leads
    | with_reducible apply putSat_leads
    | split
    | dsimp only
    | (with_reducible apply leads_mk; first | with_reducible exact h₀ | with_reducible assumption | with_reducible apply setMcell_leads | with_reducible apply putSat_leads | split | dsimp only)

theorem mpptOff_leads {a₀ s : State} (h₀ : a₀.Leads s) (k : Nat) : a₀.Leads (State.mpptOff s k) := by
  unfold State.mpptOff
  try dsimp only
  repeat' first
    | with_reducible exact h₀
    | with_reducible assumption
    | with_reducible apply abortScan_leads
    | with_reducible apply dequeue_leads
    | with_reducible apply setMode_leads
    | with_reducible apply writeRef_leads
    | with_reducible apply setMcell_leads
    | split
    | dsimp only
    | (with_reducible apply leads_mk; first | with_reducible exact h₀ | with_reducible assumption | with_reducible apply abortScan_leads | with_reducible apply dequeue_leads | with_reducible apply setMode_leads | with_reducible apply writeRef_leads | with_reducible apply setMcell_leads | split | dsimp only)

theorem mpptLoad_leads {a₀ s : State} (h₀ : a₀.Leads s) (k : Nat) : a₀.Leads (State.mpptLoad s k) := by
  unfold State.mpptLoad
  try dsimp only
  repeat' first
    | with_reducible exact h₀
    | with_reducible assumption
    | with_reducible apply setMode_leads
    | with_reducible apply writeRef_leads
    | with_reducible apply put_leads
    | split
    | dsimp only

theorem mpptStart_leads {a₀ s : State} (h₀ : a₀.Leads s) (k : Nat) : a₀.Leads (State.mpptStart s k) := by
  unfold State.mpptStart
  try dsimp only
  repeat' first
    | with_reducible exact h₀
    | with_reducible assumption
    | with_reducible apply setMode_leads
    | with_reducible apply writeRef_leads
    | with_reducible apply setMcell_leads
    | dsimp only
    | (with_reducible apply leads_mk; first | with_reducible exact h₀ | with_reducible assumption | with_reducible apply setMode_leads | with_reducible apply writeRef_leads | with_reducible apply setMcell_leads | dsimp only)

theorem mpptHold_leads {a₀ s : State} (h₀ : a₀.Leads s) (k : Nat) : a₀.Leads (State.mpptHold s k) := by
  unfold State.mpptHold
  dsimp only
  repeat' first
    | with_reducible exact h₀
    | with_reducible apply abortScan_leads
    | with_reducible apply setMcell_leads
    | with_reducible apply setMode_leads
    | split

theorem mpptResume_leads {a₀ s : State} (h₀ : a₀.Leads s) (k : Nat) : a₀.Leads (State.mpptResume s k) := by
  unfold State.mpptResume
  repeat' first
    | with_reducible exact h₀
    | with_reducible apply setMcell_leads
    | with_reducible apply setMode_leads
    | split

theorem mpptRamp_leads {a₀ s : State} (h₀ : a₀.Leads s) (k : Nat) : a₀.Leads (State.mpptRamp s k) := by
  unfold State.mpptRamp
  try dsimp only
  repeat' first
    | with_reducible exact h₀
    | with_reducible assumption
    | with_reducible apply setMcell_leads
    | with_reducible apply writeRef_leads
    | split
    | dsimp only
    | (with_reducible apply leads_mk; first | with_reducible exact h₀ | with_reducible assumption | with_reducible apply setMcell_leads | with_reducible apply writeRef_leads | split | dsimp only)

theorem mpptMode_leads {a₀ s : State} (h₀ : a₀.Leads s) (k : Nat) : a₀.Leads (State.mpptMode s k) := by
  unfold State.mpptMode
  try dsimp only
  repeat' first
    | with_reducible exact h₀
    | with_reducible assumption
    | with_reducible apply mpptOff_leads
    | with_reducible apply setMcell_leads
    | with_reducible apply setMode_leads
    | with_reducible apply mpptHold_leads
    | with_reducible apply mpptRamp_leads
    | with_reducible apply mpptStart_leads
    | with_reducible apply abortScan_leads
    | with_reducible apply mpptResume_leads
    | split
    | dsimp only
    | (with_reducible apply leads_mk; first | with_reducible exact h₀ | with_reducible assumption | with_reducible apply mpptOff_leads | with_reducible apply setMcell_leads | with_reducible apply setMode_leads | with_reducible apply mpptHold_leads | with_reducible apply mpptRamp_leads | with_reducible apply mpptStart_leads | with_reducible apply abortScan_leads | with_reducible apply mpptResume_leads | split | dsimp only)

theorem mpptFollow_leads {a₀ s : State} (h₀ : a₀.Leads s) (k : Nat) : a₀.Leads (State.mpptFollow s k) := by
  unfold State.mpptFollow
  try dsimp only
  repeat' first
    | with_reducible exact h₀
    | with_reducible assumption
    | with_reducible apply mpptMode_leads
    | with_reducible apply showPwr_leads
    | split
    | dsimp only

theorem mpptSlot_leads {a₀ s : State} (h₀ : a₀.Leads s) (k : Nat) : a₀.Leads (State.mpptSlot s k) := by
  unfold State.mpptSlot
  repeat' first
    | with_reducible exact h₀
    | with_reducible apply setMcell_leads

theorem mpptMiss_leads {a₀ s : State} (h₀ : a₀.Leads s) (k : Nat) : a₀.Leads (State.mpptMiss s k) := by
  unfold State.mpptMiss
  try dsimp only
  repeat' first
    | with_reducible exact h₀
    | with_reducible assumption
    | with_reducible apply setMcell_leads
    | split
    | dsimp only
    | (with_reducible apply leads_mk; first | with_reducible exact h₀ | with_reducible assumption | with_reducible apply setMcell_leads | split | dsimp only)

theorem trackStep_leads {a₀ s : State} (h₀ : a₀.Leads s) (k : Nat) (v : Int) (i : Int) (vp : Int) (ip : Int) : a₀.Leads (State.trackStep s k v i vp ip) := by
  unfold State.trackStep
  try dsimp only
  repeat' first
    | with_reducible exact h₀
    | with_reducible assumption
    | with_reducible apply setMcell_leads
    | with_reducible apply showPwr_leads
    | with_reducible apply writeRef_leads
    | split
    | with_reducible refine leads_of_snd (by assumption) ?_
    | with_reducible refine leads_of_fst (by assumption) ?_
    | dsimp only
    | (with_reducible apply leads_mk; first | with_reducible exact h₀ | with_reducible assumption | with_reducible apply setMcell_leads | with_reducible apply showPwr_leads | with_reducible apply writeRef_leads | split | with_reducible refine leads_of_snd (by assumption) ?_ | with_reducible refine leads_of_fst (by assumption) ?_ | dsimp only)

theorem curtailStep_leads {a₀ s : State} (h₀ : a₀.Leads s) (k : Nat) (v : Int) (i : Int) (vp : Int) (ip : Int) : a₀.Leads (State.curtailStep s k v i vp ip) := by
  unfold State.curtailStep
  try dsimp only
  repeat' first
    | with_reducible exact h₀
    | with_reducible assumption
    | with_reducible apply setMcell_leads
    | with_reducible apply writeRef_leads
    | with_reducible apply setMode_leads
    | with_reducible apply showPwr_leads
    | split
    | dsimp only
    | (with_reducible apply leads_mk; first | with_reducible exact h₀ | with_reducible assumption | with_reducible apply setMcell_leads | with_reducible apply writeRef_leads | with_reducible apply setMode_leads | with_reducible apply showPwr_leads | split | dsimp only)

theorem noteDark_leads {a₀ s : State} (h₀ : a₀.Leads s) (k : Nat) (median : Int) : a₀.Leads (State.noteDark s k median) := by
  unfold State.noteDark
  try dsimp only
  repeat' first
    | with_reducible exact h₀
    | with_reducible assumption
    | with_reducible apply setMcell_leads
    | split
    | dsimp only
    | (with_reducible apply leads_mk; first | with_reducible exact h₀ | with_reducible assumption | with_reducible apply setMcell_leads | split | dsimp only)

theorem noteShade_leads {a₀ s : State} (h₀ : a₀.Leads s) (k : Nat) : a₀.Leads (State.noteShade s k) := by
  unfold State.noteShade
  repeat' first
    | with_reducible exact h₀
    | with_reducible apply setMcell_leads

theorem grantScan_leads {a₀ s : State} (h₀ : a₀.Leads s) (c : Nat) (ph : Nat) : a₀.Leads (State.grantScan s c ph) := by
  unfold State.grantScan
  dsimp only
  repeat' first
    | with_reducible exact h₀
    | with_reducible apply dequeue_leads
    | with_reducible apply setMode_leads
    | with_reducible apply setMcell_leads
    | split

theorem perturb_leads {a₀ s : State} (h₀ : a₀.Leads s) (k : Nat) (now : Option (Int × Int)) (prev : Option (Int × Int)) : a₀.Leads (State.perturb s k now prev) := by
  unfold State.perturb
  try dsimp only
  repeat' first
    | with_reducible exact h₀
    | with_reducible assumption
    | with_reducible apply setMcell_leads
    | with_reducible apply trackStep_leads
    | with_reducible apply curtailStep_leads
    | with_reducible apply noteShade_leads
    | with_reducible apply noteDark_leads
    | split
    | with_reducible refine leads_of_snd (by assumption) ?_
    | with_reducible refine leads_of_fst (by assumption) ?_
    | dsimp only
    | (with_reducible apply leads_mk; first | with_reducible exact h₀ | with_reducible assumption | with_reducible apply setMcell_leads | with_reducible apply trackStep_leads | with_reducible apply curtailStep_leads | with_reducible apply noteShade_leads | with_reducible apply noteDark_leads | split | with_reducible refine leads_of_snd (by assumption) ?_ | with_reducible refine leads_of_fst (by assumption) ?_ | dsimp only)

theorem mpptStep_leads {a₀ s : State} (h₀ : a₀.Leads s) (k : Nat) : a₀.Leads (State.mpptStep s k) := by
  unfold State.mpptStep
  try dsimp only
  repeat' first
    | with_reducible exact h₀
    | with_reducible assumption
    | with_reducible apply setMcell_leads
    | with_reducible apply setMode_leads
    | with_reducible apply showPwr_leads
    | with_reducible apply abandonRef_leads
    | with_reducible apply perturb_leads
    | with_reducible apply grantScan_leads
    | split
    | dsimp only
    | (with_reducible apply leads_mk; first | with_reducible exact h₀ | with_reducible assumption | with_reducible apply setMcell_leads | with_reducible apply setMode_leads | with_reducible apply showPwr_leads | with_reducible apply abandonRef_leads | with_reducible apply perturb_leads | with_reducible apply grantScan_leads | split | dsimp only)

theorem scanEvent_leads {a₀ s : State} (h₀ : a₀.Leads s) (k : Nat) : a₀.Leads (State.scanEvent s k) := by
  unfold State.scanEvent
  try dsimp only
  repeat' first
    | with_reducible exact h₀
    | with_reducible assumption
    | with_reducible apply setMcell_leads
    | with_reducible apply writeRef_leads
    | with_reducible apply putSat_leads
    | split
    | with_reducible refine leads_of_snd (by assumption) ?_
    | with_reducible refine leads_of_fst (by assumption) ?_
    | dsimp only
    | (with_reducible apply leads_mk; first | with_reducible exact h₀ | with_reducible assumption | with_reducible apply setMcell_leads | with_reducible apply writeRef_leads | with_reducible apply putSat_leads | split | with_reducible refine leads_of_snd (by assumption) ?_ | with_reducible refine leads_of_fst (by assumption) ?_ | dsimp only)

theorem ceilings_leads {a₀ s : State} (h₀ : a₀.Leads s) (c : Nat) : a₀.Leads (State.ceilings s c) := by
  unfold State.ceilings
  repeat' first
    | with_reducible exact h₀
    | with_reducible apply setMclu_leads

theorem noteZs_leads {a₀ s : State} (h₀ : a₀.Leads s) (c : Nat) : a₀.Leads (State.noteZs s c) := by
  unfold State.noteZs
  repeat' first
    | with_reducible exact h₀
    | with_reducible apply setMclu_leads

theorem curtailCell_leads {a₀ s : State} (h₀ : a₀.Leads s) (k : Nat) (p : Int) (n : Nat) (binds : Bool) : a₀.Leads (State.curtailCell s k p n binds) := by
  unfold State.curtailCell
  try dsimp only
  repeat' first
    | with_reducible exact h₀
    | with_reducible assumption
    | with_reducible apply setMcell_leads
    | with_reducible apply abortScan_leads
    | with_reducible apply setMode_leads
    | with_reducible apply showPwr_leads
    | split
    | dsimp only
    | (with_reducible apply leads_mk; first | with_reducible exact h₀ | with_reducible assumption | with_reducible apply setMcell_leads | with_reducible apply abortScan_leads | with_reducible apply setMode_leads | with_reducible apply showPwr_leads | split | dsimp only)

theorem capPhase_leads {a₀ s : State} (h₀ : a₀.Leads s) (c : Nat) (ph : Nat) (t : Int) : a₀.Leads (State.capPhase s c ph t) := by
  unfold State.capPhase
  try dsimp only
  repeat' first
    | with_reducible exact h₀
    | with_reducible assumption
    | with_reducible apply put_leads
    | with_reducible apply eventIf_leads
    | with_reducible apply curtailCell_leads
    | with_reducible apply noteDark_leads
    | with_reducible apply leads_foldl
    | with_reducible apply leads_foldl_fst
    | with_reducible apply leads_foldl_snd
    | dsimp only
    | (intro _ _; intro)
    | intro _ _
    | intro _
    | split
    | dsimp only

theorem capInstant_leads {a₀ s : State} (h₀ : a₀.Leads s) (c : Nat) : a₀.Leads (State.capInstant s c) := by
  unfold State.capInstant
  dsimp only
  repeat' first
    | with_reducible exact h₀
    | with_reducible assumption
    | with_reducible apply setMclu_leads
    | with_reducible apply ceilings_leads
    | with_reducible apply put_leads
    | with_reducible apply capPhase_leads
    | with_reducible apply putB_leads
    | with_reducible apply leads_foldl
    | (intro _ _; intro)
    | split

theorem mpptStat_leads {a₀ s : State} (h₀ : a₀.Leads s) (c : Nat) : a₀.Leads (State.mpptStat s c) := by
  unfold State.mpptStat
  repeat' first
    | with_reducible exact h₀
    | with_reducible apply putB_leads
    | with_reducible apply putSat_leads
    | with_reducible apply eventIf_leads

theorem showDark_leads {a₀ s : State} (h₀ : a₀.Leads s) (c : Nat) (ph : Nat) : a₀.Leads (State.showDark s c ph) := by
  unfold State.showDark
  repeat' first
    | with_reducible exact h₀
    | with_reducible apply putB_leads

theorem mpptAct_leads {a₀ s : State} (h₀ : a₀.Leads s) (k : Nat) (cmd : Nat) : a₀.Leads (State.mpptAct s k cmd) := by
  unfold State.mpptAct
  repeat' first
    | with_reducible exact h₀
    | with_reducible assumption
    | with_reducible apply enqueue_leads
    | with_reducible apply abortScan_leads
    | with_reducible apply leads_foldl
    | (intro _ _; intro)
    | split

theorem mpptCmd_leads {a₀ s : State} (h₀ : a₀.Leads s) (n : Nat) (value : Word) (mask : Word) : a₀.Leads (State.mpptCmd s n value mask).2 := by
  unfold State.mpptCmd
  repeat' first
    | with_reducible exact h₀
    | with_reducible assumption
    | with_reducible apply mpptAct_leads
    | with_reducible apply writeIf_leads
    | intro _ _

theorem mpptCmdBy_leads {a₀ s : State} (h₀ : a₀.Leads s) (n : Nat) (k : Nat) (cmd : Nat) : a₀.Leads (State.mpptCmdBy s n k cmd) := by
  unfold State.mpptCmdBy
  repeat' first
    | with_reducible exact h₀
    | with_reducible assumption
    | with_reducible apply mpptCmd_leads
    | with_reducible apply access_leads
    | intro _ _

end Sys2Proof.Machine
end

