-- ==== Sys2Proof/Laws/Leads/Frt.lean ====
section
/-! SUPPORT. What every command keeps (`State.Leads`): the operations of Frt.lean. -/

namespace Sys2Proof.Machine

theorem takeU_leads {a₀ s : State} (h₀ : a₀.Leads s) (c : Nat) : a₀.Leads (State.takeU s c) := by
  unfold State.takeU
  repeat' first
    | with_reducible exact h₀
    | with_reducible apply putS_leads
    | with_reducible apply setFclu_leads
    | split

theorem refuseStart_leads {a₀ s : State} (h₀ : a₀.Leads s) (c : Nat) (why : Nat) : a₀.Leads (State.refuseStart s c why) := by
  unfold State.refuseStart
  try dsimp only
  repeat' first
    | with_reducible exact h₀
    | with_reducible assumption
    | with_reducible apply event_leads
    | with_reducible apply eventIf_leads
    | dsimp only

theorem clusterStart_leads {a₀ s : State} (h₀ : a₀.Leads s) (c : Nat) (others : Bool) : a₀.Leads (State.clusterStart s c others) := by
  unfold State.clusterStart
  try dsimp only
  repeat' first
    | with_reducible exact h₀
    | with_reducible assumption
    | with_reducible apply chooseD_leads
    | with_reducible apply haltRelease_leads
    | with_reducible apply put_leads
    | with_reducible apply setGclu_leads
    | with_reducible apply eventIf_leads
    | with_reducible apply setLead_leads
    | with_reducible apply setCells_leads
    | with_reducible apply setCellX_leads
    | with_reducible apply leads_foldl
    | (intro _ _; intro)
    | intro _ _
    | intro _
    | split
    | dsimp only
    | (with_reducible apply leads_mk; first | with_reducible exact h₀ | with_reducible assumption | with_reducible apply chooseD_leads | with_reducible apply haltRelease_leads | with_reducible apply put_leads | with_reducible apply setGclu_leads | with_reducible apply eventIf_leads | with_reducible apply setLead_leads | with_reducible apply setCells_leads | with_reducible apply setCellX_leads | with_reducible apply leads_foldl | (intro _ _; intro) | intro _ _ | intro _ | split | dsimp only)

theorem enterRaw_leads {a₀ s : State} (h₀ : a₀.Leads s) (c : Nat) (to_ : Nat) (e : Nat) (dwell : Nat) : a₀.Leads (State.enterRaw s c to_ e dwell) := by
  unfold State.enterRaw
  repeat' first
    | with_reducible exact h₀
    | with_reducible apply setFclu_leads
    | with_reducible apply put_leads
    | with_reducible apply put64_leads
    | with_reducible apply count_leads
    | with_reducible apply event_leads
    | split

theorem enterState_leads {a₀ s : State} (h₀ : a₀.Leads s) (c : Nat) (to_ : Nat) (e : Nat) (dwell : Nat) : a₀.Leads (State.enterState s c to_ e dwell) := by
  unfold State.enterState
  repeat' first
    | with_reducible exact h₀
    | with_reducible apply enterRaw_leads
    | with_reducible apply laneHalt_leads
    | split

theorem forceCease_leads {a₀ s : State} (h₀ : a₀.Leads s) (c : Nat) (cause : Nat) : a₀.Leads (State.forceCease s c cause) := by
  unfold State.forceCease
  repeat' first
    | with_reducible exact h₀
    | with_reducible apply enterState_leads
    | with_reducible apply put_leads
    | with_reducible apply count_leads
    | with_reducible apply event_leads
    | split

theorem holdCease_leads {a₀ s : State} (h₀ : a₀.Leads s) (c : Nat) : a₀.Leads (State.holdCease s c) := by
  unfold State.holdCease
  repeat' first
    | with_reducible exact h₀
    | with_reducible apply haltInject_leads
    | with_reducible apply enterRaw_leads
    | with_reducible apply put_leads
    | with_reducible apply count_leads
    | with_reducible apply event_leads
    | split

theorem frtActions_leads {a₀ s : State} (h₀ : a₀.Leads s) (c : Nat) (act : Nat) : a₀.Leads (State.frtActions s c act) := by
  unfold State.frtActions
  try dsimp only
  repeat' first
    | with_reducible exact h₀
    | with_reducible assumption
    | with_reducible apply setCapAsk_leads
    | with_reducible apply put_leads
    | with_reducible apply event_leads
    | with_reducible apply setIsl_leads
    | split
    | dsimp only
    | (with_reducible apply leads_mk; first | with_reducible exact h₀ | with_reducible assumption | with_reducible apply setCapAsk_leads | with_reducible apply put_leads | with_reducible apply event_leads | with_reducible apply setIsl_leads | split | dsimp only)

theorem smTimers_leads {a₀ s : State} (h₀ : a₀.Leads s) (c : Nat) (l : List SmEntry) : a₀.Leads (State.smTimers s c l) := by
  unfold State.smTimers
  repeat' first
    | with_reducible exact h₀
    | with_reducible assumption
    | with_reducible apply setFclu_leads
    | with_reducible apply leads_foldl
    | (intro _ _; intro)

theorem smScan_leads {a : State} (c : Nat) (l : List SmEntry) : ∀ {s : State}, a.Leads s → a.Leads (s.smScan c l) := by
  induction l with
  | nil => intro s h; exact h
  | cons x r ih =>
    intro s h
    unfold State.smScan
    dsimp only
    repeat' first
      | with_reducible exact h
      | with_reducible apply ih
      | with_reducible apply refuseStart_leads
      | with_reducible apply infeasible_leads
      | with_reducible apply showPrt_leads
      | with_reducible apply stageRefs_leads
      | with_reducible apply stageSlow_leads
      | with_reducible apply clusterStart_leads
      | with_reducible apply put_leads
      | with_reducible apply enterState_leads
      | with_reducible apply frtActions_leads
      | split

theorem frtForced_leads {a₀ s : State} (h₀ : a₀.Leads s) (c : Nat) (full : Bool) : a₀.Leads (State.frtForced s c full) := by
  unfold State.frtForced
  try dsimp only
  repeat' first
    | with_reducible exact h₀
    | with_reducible assumption
    | with_reducible apply setFclu_leads
    | with_reducible apply forceCease_leads
    | split
    | with_reducible refine leads_of_snd (by assumption) ?_
    | with_reducible refine leads_of_fst (by assumption) ?_
    | dsimp only
    | (with_reducible apply leads_mk; first | with_reducible exact h₀ | with_reducible assumption | with_reducible apply setFclu_leads | with_reducible apply forceCease_leads | split | with_reducible refine leads_of_snd (by assumption) ?_ | with_reducible refine leads_of_fst (by assumption) ?_ | dsimp only)

theorem frtCmd_leads {a₀ s : State} (h₀ : a₀.Leads s) (n : Nat) (c : Nat) (value : Word) (mask : Word) : a₀.Leads (State.frtCmd s n c value mask).2 := by
  unfold State.frtCmd
  repeat' first
    | with_reducible exact h₀
    | with_reducible assumption
    | with_reducible apply setFclu_leads
    | with_reducible apply put_leads
    | with_reducible apply writeIf_leads
    | intro _ _
    | split

theorem frtCmdBy_leads {a₀ s : State} (h₀ : a₀.Leads s) (n : Nat) (c : Nat) (cmd : Nat) : a₀.Leads (State.frtCmdBy s n c cmd) := by
  unfold State.frtCmdBy
  repeat' first
    | with_reducible exact h₀
    | with_reducible assumption
    | with_reducible apply frtCmd_leads
    | with_reducible apply access_leads
    | intro _ _

theorem islFollow_leads {a₀ s : State} (h₀ : a₀.Leads s) (arrival : Nat) : a₀.Leads (State.islFollow s arrival) := by
  unfold State.islFollow
  dsimp only
  repeat' first
    | with_reducible exact h₀
    | with_reducible apply putB_leads
    | with_reducible apply eventIf_leads
    | with_reducible apply put_leads
    | with_reducible apply put64_leads
    | with_reducible apply event_leads
    | split

theorem islTake_leads {a₀ s : State} (h₀ : a₀.Leads s)  : a₀.Leads (State.islTake s) := by
  unfold State.islTake
  try dsimp only
  repeat' first
    | with_reducible exact h₀
    | with_reducible assumption
    | with_reducible apply islFollow_leads
    | dsimp only

theorem islFreeze_leads {a₀ s : State} (h₀ : a₀.Leads s)  : a₀.Leads (State.islFreeze s) := by
  unfold State.islFreeze
  repeat' first
    | with_reducible exact h₀
    | with_reducible apply setIsl_leads
    | with_reducible apply putB_leads

theorem frtLoad_leads {a₀ s : State} (h₀ : a₀.Leads s)  : a₀.Leads (State.frtLoad s) := by
  unfold State.frtLoad
  repeat' first
    | with_reducible exact h₀
    | with_reducible assumption
    | with_reducible apply setFclu_leads
    | with_reducible apply put_leads
    | with_reducible apply setIsl_leads
    | with_reducible apply leads_forN
    | (intro _ _; intro)

end Sys2Proof.Machine
end

