-- ==== Sys2Proof/Laws/Leads/Strm.lean ====
section
/-! SUPPORT. What every command keeps (`State.Leads`): the operations of Strm.lean. -/

namespace Sys2Proof.Machine

theorem offer_leads {a₀ s : State} (h₀ : a₀.Leads s) (m : Nat) (time : Nat) (flags : Nat) (payload : List Byte) : a₀.Leads (State.offer s m time flags payload) := by
  unfold State.offer
  try dsimp only
  repeat' first
    | with_reducible exact h₀
    | with_reducible assumption
    | with_reducible apply setRec_leads
    | split
    | dsimp only
    | (with_reducible apply leads_mk; first | with_reducible exact h₀ | with_reducible assumption | with_reducible apply setRec_leads | split | dsimp only)

theorem offerRaw_leads {a₀ s : State} (h₀ : a₀.Leads s) (kind : Nat) (sub : Nat) (raw : List Byte) : a₀.Leads (State.offerRaw s kind sub raw) := by
  unfold State.offerRaw
  try dsimp only
  repeat' first
    | with_reducible exact h₀
    | with_reducible assumption
    | with_reducible apply offer_leads
    | with_reducible apply leads_foldl
    | (intro _ _; intro)
    | intro _ _
    | intro _
    | dsimp only

theorem svAccepted_leads {a₀ s : State} (h₀ : a₀.Leads s) (sub : Nat) (raw : List Byte) : a₀.Leads (State.svAccepted s sub raw) := by
  unfold State.svAccepted
  try dsimp only
  repeat' first
    | with_reducible exact h₀
    | with_reducible assumption
    | with_reducible apply offerRaw_leads
    | with_reducible apply setRec_leads
    | split
    | dsimp only
    | (with_reducible apply leads_mk; first | with_reducible exact h₀ | with_reducible assumption | with_reducible apply offerRaw_leads | with_reducible apply setRec_leads | split | dsimp only)

theorem accEmit_leads {a₀ s : State} (h₀ : a₀.Leads s) (m : Nat) (a : StrmAcc) : a₀.Leads (State.accEmit s m a) := by
  unfold State.accEmit
  try dsimp only
  repeat' first
    | with_reducible exact h₀
    | with_reducible assumption
    | with_reducible apply offer_leads
    | with_reducible apply leads_foldl
    | (intro _ _; intro)
    | intro _ _
    | intro _
    | split
    | dsimp only

theorem strmFreeze_leads {a₀ s : State} (h₀ : a₀.Leads s)  : a₀.Leads (State.strmFreeze s) := by
  unfold State.strmFreeze
  try dsimp only
  repeat' first
    | with_reducible exact h₀
    | with_reducible assumption
    | with_reducible apply setRec_leads
    | with_reducible apply accEmit_leads
    | with_reducible apply leads_foldl
    | (intro _ _; intro)
    | intro _ _
    | intro _
    | split
    | dsimp only
    | (with_reducible apply leads_mk; first | with_reducible exact h₀ | with_reducible assumption | with_reducible apply setRec_leads | with_reducible apply accEmit_leads | with_reducible apply leads_foldl | (intro _ _; intro) | intro _ _ | intro _ | split | dsimp only)

end Sys2Proof.Machine
end

