-- ==== Sys2Proof/Laws/Leads/Leg.lean ====
section
/-! SUPPORT. What every command keeps (`State.Leads`): the operations of Leg.lean. -/

namespace Sys2Proof.Machine

theorem setLegX_leads {a₀ s : State} (h₀ : a₀.Leads s) (l : Nat) (x : LegX) : a₀.Leads (State.setLegX s l x) := by
  unfold State.setLegX
  try dsimp only
  repeat' first
    | with_reducible exact h₀
    | with_reducible assumption
    | with_reducible apply setAna_leads
    | dsimp only
    | (with_reducible apply leads_mk; first | with_reducible exact h₀ | with_reducible assumption | with_reducible apply setAna_leads | dsimp only)

theorem legGo_leads {a₀ s : State} (h₀ : a₀.Leads s) (l : Nat) (dest : Nat) : a₀.Leads (State.legGo s l dest) := by
  unfold State.legGo
  dsimp only
  repeat' first
    | with_reducible exact h₀
    | with_reducible apply put_leads
    | with_reducible apply setLegX_leads
    | with_reducible apply event_leads
    | split

theorem legHold_leads {a₀ s : State} (h₀ : a₀.Leads s)  : a₀.Leads (State.legHold s) := by
  unfold State.legHold
  repeat' first
    | with_reducible exact h₀
    | with_reducible assumption
    | with_reducible apply legGo_leads
    | with_reducible apply leads_forN
    | (intro _ _; intro)
    | split

theorem legResume_leads {a₀ s : State} (h₀ : a₀.Leads s)  : a₀.Leads (State.legResume s) := by
  unfold State.legResume
  repeat' first
    | with_reducible exact h₀
    | with_reducible assumption
    | with_reducible apply legGo_leads
    | with_reducible apply leads_forN
    | (intro _ _; intro)
    | split

theorem countLeg_leads {a₀ s : State} (h₀ : a₀.Leads s) (o : Option PwmDec) (d : PwmDec) : a₀.Leads (State.countLeg s o d) := by
  unfold State.countLeg
  try dsimp only
  repeat' first
    | with_reducible exact h₀
    | with_reducible assumption
    | with_reducible apply count_leads
    | split
    | with_reducible refine leads_of_snd (by assumption) ?_
    | with_reducible refine leads_of_fst (by assumption) ?_
    | dsimp only

theorem legRun_leads {a₀ s : State} (h₀ : a₀.Leads s)  : a₀.Leads (State.legRun s) := by
  unfold State.legRun
  try dsimp only
  repeat' first
    | with_reducible exact h₀
    | with_reducible assumption
    | with_reducible apply countLeg_leads
    | with_reducible apply putS_leads
    | with_reducible apply setLegX_leads
    | with_reducible apply put_leads
    | with_reducible apply leads_forN
    | (intro _ _; intro)
    | intro _ _
    | intro _
    | split
    | with_reducible refine leads_of_snd (by assumption) ?_
    | with_reducible refine leads_of_fst (by assumption) ?_
    | dsimp only
    | (with_reducible apply leads_mk; first | with_reducible exact h₀ | with_reducible assumption | with_reducible apply countLeg_leads | with_reducible apply putS_leads | with_reducible apply setLegX_leads | with_reducible apply put_leads | with_reducible apply leads_forN | (intro _ _; intro) | intro _ _ | intro _ | split | with_reducible refine leads_of_snd (by assumption) ?_ | with_reducible refine leads_of_fst (by assumption) ?_ | dsimp only)

end Sys2Proof.Machine
end

