-- ==== Sys2Proof/Laws/Leads/Mtr.lean ====
section
/-! SUPPORT. What every command keeps (`State.Leads`): the operations of Mtr.lean. -/

namespace Sys2Proof.Machine

theorem setMpt_leads {a₀ s : State} (h₀ : a₀.Leads s) (m : Nat) (x : MtrPt) : a₀.Leads (State.setMpt s m x) := by
  unfold State.setMpt
  try dsimp only
  repeat' first
    | with_reducible exact h₀
    | with_reducible assumption
    | with_reducible apply setMtr_leads
    | dsimp only
    | (with_reducible apply leads_mk; first | with_reducible exact h₀ | with_reducible assumption | with_reducible apply setMtr_leads | dsimp only)

theorem mtrBegin_leads {a₀ s : State} (h₀ : a₀.Leads s) (m : Nat) (ts : Nat) : a₀.Leads (State.mtrBegin s m ts) := by
  unfold State.mtrBegin
  repeat' first
    | with_reducible exact h₀
    | with_reducible apply setMpt_leads
    | with_reducible apply putB_leads
    | with_reducible apply eventIf_leads

theorem mtrSample_leads {a₀ s : State} (h₀ : a₀.Leads s) (m : Nat) (ts : Nat) (rate : Nat) (current : Bool) (test : Bool) (vals : List (Option Int)) : a₀.Leads (State.mtrSample s m ts rate current test vals) := by
  unfold State.mtrSample
  dsimp only
  repeat' first
    | with_reducible exact h₀
    | with_reducible apply setMpt_leads
    | with_reducible apply mtrBegin_leads
    | split

theorem putHarm_leads {a₀ s : State} (h₀ : a₀.Leads s) (m : Nat) (n : Nat) (u : Nat) (hmax : Nat) (l : List (Int × Int)) : a₀.Leads (State.putHarm s m n u hmax l) := by
  unfold State.putHarm
  repeat' first
    | with_reducible exact h₀
    | with_reducible assumption
    | with_reducible apply putSat_leads
    | with_reducible apply leads_forN
    | (intro _ _; intro)

theorem mtrQty_leads {a₀ s : State} (h₀ : a₀.Leads s) (m : Nat) (b : Nat) (tw : Nat) (vs : List (List (Nat × Int))) (is_ : List (List (Nat × Int))) : a₀.Leads (State.mtrQty s m b tw vs is_).1 := by
  unfold State.mtrQty
  repeat' first
    | with_reducible exact h₀
    | with_reducible assumption
    | with_reducible apply putS_leads
    | with_reducible apply putSat_leads
    | with_reducible apply put_leads
    | with_reducible apply putHarm_leads
    | with_reducible apply setMpt_leads
    | with_reducible apply putB_leads
    | with_reducible apply leads_foldl
    | (intro _ _; intro)

theorem mtrAdd_leads {a₀ s : State} (h₀ : a₀.Leads s) (m : Nat) (en : List Nat) : a₀.Leads (State.mtrAdd s m en) := by
  unfold State.mtrAdd
  repeat' first
    | with_reducible exact h₀
    | with_reducible assumption
    | with_reducible apply setMpt_leads
    | with_reducible apply put64_leads
    | with_reducible apply leads_foldl
    | (intro _ _; intro)

theorem mtrEmit_leads {a₀ s : State} (h₀ : a₀.Leads s) (m : Nat) (seq : Nat) (x : MtrInt) (end_ : Nat) : a₀.Leads (State.mtrEmit s m seq x end_) := by
  unfold State.mtrEmit
  try dsimp only
  repeat' first
    | with_reducible exact h₀
    | with_reducible assumption
    | with_reducible apply setMtr_leads
    | with_reducible apply put_leads
    | with_reducible apply putSat_leads
    | split
    | with_reducible refine leads_of_snd (by assumption) ?_
    | with_reducible refine leads_of_fst (by assumption) ?_
    | dsimp only
    | (with_reducible apply leads_mk; first | with_reducible exact h₀ | with_reducible assumption | with_reducible apply setMtr_leads | with_reducible apply put_leads | with_reducible apply putSat_leads | split | with_reducible refine leads_of_snd (by assumption) ?_ | with_reducible refine leads_of_fst (by assumption) ?_ | dsimp only)

theorem mtrSettle_leads {a₀ s : State} (h₀ : a₀.Leads s) (m : Nat) : a₀.Leads (State.mtrSettle s m) := by
  unfold State.mtrSettle
  try dsimp only
  repeat' first
    | with_reducible exact h₀
    | with_reducible assumption
    | with_reducible apply setMpt_leads
    | with_reducible apply mtrEmit_leads
    | split
    | with_reducible refine leads_of_snd (by assumption) ?_
    | with_reducible refine leads_of_fst (by assumption) ?_
    | dsimp only
    | (with_reducible apply leads_mk; first | with_reducible exact h₀ | with_reducible assumption | with_reducible apply setMpt_leads | with_reducible apply mtrEmit_leads | split | with_reducible refine leads_of_snd (by assumption) ?_ | with_reducible refine leads_of_fst (by assumption) ?_ | dsimp only)

theorem mtrEnd_leads {a₀ s : State} (h₀ : a₀.Leads s) (m : Nat) (b : Nat) (e : Nat) : a₀.Leads (State.mtrEnd s m b e) := by
  unfold State.mtrEnd
  dsimp only
  repeat' first
    | with_reducible exact h₀
    | with_reducible apply put_leads
    | with_reducible apply count_leads
    | with_reducible apply eventIf_leads
    | with_reducible apply setMpt_leads
    | with_reducible apply mtrQty_leads
    | with_reducible apply mtrAdd_leads
    | with_reducible apply mtrSettle_leads
    | split

theorem mtrSeqUp_leads {a₀ s : State} (h₀ : a₀.Leads s)  : a₀.Leads (State.mtrSeqUp s) := by
  unfold State.mtrSeqUp
  repeat' first
    | with_reducible exact h₀
    | with_reducible apply put64_leads

theorem mtrClose_leads {a₀ s : State} (h₀ : a₀.Leads s) (end_ : Int) (utc : Int) : a₀.Leads (State.mtrClose s end_ utc) := by
  unfold State.mtrClose
  try dsimp only
  repeat' first
    | with_reducible exact h₀
    | with_reducible assumption
    | with_reducible apply mtrSeqUp_leads
    | with_reducible apply mtrSettle_leads
    | with_reducible apply setMpt_leads
    | with_reducible apply mtrEmit_leads
    | with_reducible apply put_leads
    | with_reducible apply setMtr_leads
    | with_reducible apply leads_foldl
    | with_reducible apply leads_forN
    | (intro _ _; intro)
    | intro _ _
    | intro _
    | split
    | with_reducible refine leads_of_snd (by assumption) ?_
    | with_reducible refine leads_of_fst (by assumption) ?_
    | dsimp only
    | (with_reducible apply leads_mk; first | with_reducible exact h₀ | with_reducible assumption | with_reducible apply mtrSeqUp_leads | with_reducible apply mtrSettle_leads | with_reducible apply setMpt_leads | with_reducible apply mtrEmit_leads | with_reducible apply put_leads | with_reducible apply setMtr_leads | with_reducible apply leads_foldl | with_reducible apply leads_forN | (intro _ _; intro) | intro _ _ | intro _ | split | with_reducible refine leads_of_snd (by assumption) ?_ | with_reducible refine leads_of_fst (by assumption) ?_ | dsimp only)

theorem mtrSave_leads {a₀ s : State} (h₀ : a₀.Leads s)  : a₀.Leads (State.mtrSave s) := by
  unfold State.mtrSave
  try dsimp only
  repeat' first
    | with_reducible exact h₀
    | with_reducible assumption
    | with_reducible apply setMtr_leads
    | with_reducible apply leads_forN
    | (intro _ _; intro)
    | intro _ _
    | intro _
    | dsimp only
    | (with_reducible apply leads_mk; first | with_reducible exact h₀ | with_reducible assumption | with_reducible apply setMtr_leads | with_reducible apply leads_forN | (intro _ _; intro) | intro _ _ | intro _ | dsimp only)

theorem mtrRestore_leads {a₀ s : State} (h₀ : a₀.Leads s)  : a₀.Leads (State.mtrRestore s) := by
  unfold State.mtrRestore
  try dsimp only
  repeat' first
    | with_reducible exact h₀
    | with_reducible assumption
    | with_reducible apply put64_leads
    | with_reducible apply setMpt_leads
    | with_reducible apply setMtr_leads
    | with_reducible apply put_leads
    | with_reducible apply event_leads
    | with_reducible apply leads_foldl
    | with_reducible apply leads_foldl_fst
    | with_reducible apply leads_foldl_snd
    | dsimp only
    | with_reducible apply leads_forN
    | (intro _ _; intro)
    | intro _ _
    | intro _
    | split
    | with_reducible refine leads_of_snd (by assumption) ?_
    | with_reducible refine leads_of_fst (by assumption) ?_
    | dsimp only
    | (with_reducible apply leads_mk; first | with_reducible exact h₀ | with_reducible assumption | with_reducible apply put64_leads | with_reducible apply setMpt_leads | with_reducible apply setMtr_leads | with_reducible apply put_leads | with_reducible apply event_leads | with_reducible apply leads_foldl | with_reducible apply leads_foldl_fst | with_reducible apply leads_foldl_snd | dsimp only | with_reducible apply leads_forN | (intro _ _; intro) | intro _ _ | intro _ | split | with_reducible refine leads_of_snd (by assumption) ?_ | with_reducible refine leads_of_fst (by assumption) ?_ | dsimp only)

theorem mtrSlept_leads {a₀ s : State} (h₀ : a₀.Leads s)  : a₀.Leads (State.mtrSlept s) := by
  unfold State.mtrSlept
  repeat' first
    | with_reducible exact h₀
    | with_reducible assumption
    | with_reducible apply setMpt_leads
    | with_reducible apply leads_foldl
    | (intro _ _; intro)

theorem mtrCommit_leads {a₀ s : State} (h₀ : a₀.Leads s) (old : State) : a₀.Leads (State.mtrCommit s old) := by
  unfold State.mtrCommit
  try dsimp only
  repeat' first
    | with_reducible exact h₀
    | with_reducible assumption
    | with_reducible apply setMpt_leads
    | with_reducible apply put64_leads
    | with_reducible apply put_leads
    | with_reducible apply event_leads
    | with_reducible apply setMtr_leads
    | with_reducible apply leads_foldl
    | with_reducible apply leads_forN
    | (intro _ _; intro)
    | intro _ _
    | intro _
    | split
    | with_reducible refine leads_of_snd (by assumption) ?_
    | with_reducible refine leads_of_fst (by assumption) ?_
    | dsimp only
    | (with_reducible apply leads_mk; first | with_reducible exact h₀ | with_reducible assumption | with_reducible apply setMpt_leads | with_reducible apply put64_leads | with_reducible apply put_leads | with_reducible apply event_leads | with_reducible apply setMtr_leads | with_reducible apply leads_foldl | with_reducible apply leads_forN | (intro _ _; intro) | intro _ _ | intro _ | split | with_reducible refine leads_of_snd (by assumption) ?_ | with_reducible refine leads_of_fst (by assumption) ?_ | dsimp only)

end Sys2Proof.Machine
end

