-- ==== Sys2Proof/Laws/Leads/Bus.lean ====
section
/-! SUPPORT. What every command keeps (`State.Leads`): the operations of Bus.lean. -/

namespace Sys2Proof.Machine

theorem setSvSub_leads {a₀ s : State} (h₀ : a₀.Leads s) (j : Nat) (x : SvSub) : a₀.Leads (State.setSvSub s j x) := by
  unfold State.setSvSub
  repeat' first
    | with_reducible exact h₀
    | with_reducible apply setBus_leads

theorem setGSub_leads {a₀ s : State} (h₀ : a₀.Leads s) (g : Nat) (x : GooseSub) : a₀.Leads (State.setGSub s g x) := by
  unfold State.setGSub
  repeat' first
    | with_reducible exact h₀
    | with_reducible apply setBus_leads

theorem noteSeq_leads {a₀ s : State} (h₀ : a₀.Leads s) (p : Nat) (src : Nat) (q : Nat) : a₀.Leads (State.noteSeq s p src q) := by
  unfold State.noteSeq
  repeat' first
    | with_reducible exact h₀
    | with_reducible apply setBus_leads

theorem rctNext_leads {a₀ s : State} (h₀ : a₀.Leads s) (p : Nat) : a₀.Leads (State.rctNext s p) := by
  unfold State.rctNext
  try dsimp only
  repeat' first
    | with_reducible exact h₀
    | with_reducible assumption
    | with_reducible apply setBus_leads
    | dsimp only
    | (with_reducible apply leads_mk; first | with_reducible exact h₀ | with_reducible assumption | with_reducible apply setBus_leads | dsimp only)

theorem ethRx_leads {a₀ s : State} (h₀ : a₀.Leads s) (h : EthHead) : a₀.Leads (State.ethRx s h).1 := by
  unfold State.ethRx
  dsimp only
  repeat' first
    | with_reducible exact h₀
    | with_reducible apply count_leads
    | with_reducible apply setBus_leads
    | with_reducible apply put_leads
    | with_reducible apply event_leads
    | with_reducible apply noteSeq_leads
    | split

theorem lanLost_leads {a₀ s : State} (h₀ : a₀.Leads s) (p : Nat) (lanB : Bool) : a₀.Leads (State.lanLost s p lanB) := by
  unfold State.lanLost
  repeat' first
    | with_reducible exact h₀
    | with_reducible apply put_leads
    | with_reducible apply eventIf_leads

theorem ringOpen_leads {a₀ s : State} (h₀ : a₀.Leads s)  : a₀.Leads (State.ringOpen s) := by
  unfold State.ringOpen
  repeat' first
    | with_reducible exact h₀
    | with_reducible apply put_leads
    | with_reducible apply eventIf_leads

theorem pbLinkDown_leads {a₀ s : State} (h₀ : a₀.Leads s) (port : Nat) (los : Bool) : a₀.Leads (State.pbLinkDown s port los) := by
  unfold State.pbLinkDown
  dsimp only
  repeat' first
    | with_reducible exact h₀
    | with_reducible apply eventIf_leads
    | with_reducible apply put_leads
    | with_reducible apply putB_leads
    | with_reducible apply lanLost_leads
    | with_reducible apply ringOpen_leads
    | split

theorem svToPoints_leads {a₀ s : State} (h₀ : a₀.Leads s) (j : Nat) (a : SvAsdu) : a₀.Leads (State.svToPoints s j a) := by
  unfold State.svToPoints
  dsimp only
  repeat' first
    | with_reducible exact h₀
    | with_reducible assumption
    | with_reducible apply svSample_leads
    | with_reducible apply leads_forN
    | (intro _ _; intro)
    | split

theorem svToMeter_leads {a₀ s : State} (h₀ : a₀.Leads s) (j : Nat) (a : SvAsdu) : a₀.Leads (State.svToMeter s j a) := by
  unfold State.svToMeter
  dsimp only
  repeat' first
    | with_reducible exact h₀
    | with_reducible assumption
    | with_reducible apply mtrSample_leads
    | with_reducible apply leads_forN
    | (intro _ _; intro)
    | split

theorem svCount_leads {a₀ s : State} (h₀ : a₀.Leads s) (j : Nat) (ts : Nat) (gap : Nat) : a₀.Leads (State.svCount s j ts gap) := by
  unfold State.svCount
  dsimp only
  repeat' first
    | with_reducible exact h₀
    | with_reducible apply setSvSub_leads
    | with_reducible apply putSat_leads
    | with_reducible apply put_leads
    | with_reducible apply event_leads
    | split

theorem svTake_leads {a₀ s : State} (h₀ : a₀.Leads s) (j : Nat) (a : SvAsdu) : a₀.Leads (State.svTake s j a) := by
  unfold State.svTake
  repeat' first
    | with_reducible exact h₀
    | with_reducible apply svCount_leads
    | with_reducible apply put_leads
    | with_reducible apply svToPoints_leads
    | with_reducible apply svToMeter_leads
    | split

theorem svPass_leads {a₀ s : State} (h₀ : a₀.Leads s) (j : Nat) (f : SvFrame) : a₀.Leads (State.svPass s j f) := by
  unfold State.svPass
  repeat' first
    | with_reducible exact h₀
    | with_reducible apply setSvSub_leads
    | split

theorem svFrame_leads {a₀ s : State} (h₀ : a₀.Leads s) (f : SvFrame) (j : Nat) : a₀.Leads (State.svFrame s f j) := by
  unfold State.svFrame
  try dsimp only
  repeat' first
    | with_reducible exact h₀
    | with_reducible assumption
    | with_reducible apply count_leads
    | with_reducible apply put_leads
    | with_reducible apply setSvSub_leads
    | with_reducible apply event_leads
    | with_reducible apply putB_leads
    | with_reducible apply svPass_leads
    | with_reducible apply svTake_leads
    | with_reducible apply svAccepted_leads
    | with_reducible apply leads_foldl
    | (intro _ _; intro)
    | intro _ _
    | intro _
    | split
    | with_reducible refine leads_of_snd (by assumption) ?_
    | with_reducible refine leads_of_fst (by assumption) ?_
    | dsimp only
    | (with_reducible apply leads_mk; first | with_reducible exact h₀ | with_reducible assumption | with_reducible apply count_leads | with_reducible apply put_leads | with_reducible apply setSvSub_leads | with_reducible apply event_leads | with_reducible apply putB_leads | with_reducible apply svPass_leads | with_reducible apply svTake_leads | with_reducible apply svAccepted_leads | with_reducible apply leads_foldl | (intro _ _; intro) | intro _ _ | intro _ | split | with_reducible refine leads_of_snd (by assumption) ?_ | with_reducible refine leads_of_fst (by assumption) ?_ | dsimp only)

theorem svBudget_leads {a₀ s : State} (h₀ : a₀.Leads s) (p : Nat) : a₀.Leads (State.svBudget s p).1 := by
  unfold State.svBudget
  dsimp only
  repeat' first
    | with_reducible exact h₀
    | with_reducible apply setBus_leads
    | with_reducible apply count_leads
    | with_reducible apply event_leads
    | split

theorem svPubFreeze_leads {a₀ s : State} (h₀ : a₀.Leads s)  : a₀.Leads (State.svPubFreeze s) := by
  unfold State.svPubFreeze
  repeat' first
    | with_reducible exact h₀
    | with_reducible assumption
    | with_reducible apply setBus_leads
    | with_reducible apply leads_foldl
    | (intro _ _; intro)
    | split

theorem gooseSend_leads {a₀ s : State} (h₀ : a₀.Leads s) (q : Nat) (step : Nat) (mem : List GMember) : a₀.Leads (State.gooseSend s q step mem) := by
  unfold State.gooseSend
  try dsimp only
  repeat' first
    | with_reducible exact h₀
    | with_reducible assumption
    | with_reducible apply setBus_leads
    | with_reducible apply rctNext_leads
    | dsimp only
    | (with_reducible apply leads_mk; first | with_reducible exact h₀ | with_reducible assumption | with_reducible apply setBus_leads | with_reducible apply rctNext_leads | dsimp only)

theorem pubCheck_leads {a₀ s : State} (h₀ : a₀.Leads s) (q : Nat) : a₀.Leads (State.pubCheck s q) := by
  unfold State.pubCheck
  dsimp only
  repeat' first
    | with_reducible exact h₀
    | with_reducible apply put_leads
    | with_reducible apply gooseSend_leads
    | split

theorem gooseFreeze_leads {a₀ s : State} (h₀ : a₀.Leads s)  : a₀.Leads (State.gooseFreeze s) := by
  unfold State.gooseFreeze
  repeat' first
    | with_reducible exact h₀
    | with_reducible apply pubCheck_leads
    | with_reducible apply leads_forN
    | split

theorem pubPdu_leads {a₀ s : State} (h₀ : a₀.Leads s) (q : Nat) (pdu : List Byte) : a₀.Leads (State.pubPdu s q pdu) := by
  unfold State.pubPdu
  repeat' first
    | with_reducible exact h₀
    | with_reducible apply setBus_leads
    | with_reducible apply pubCheck_leads
    | split

theorem useMaster_leads {a₀ s : State} (h₀ : a₀.Leads s) (a : Announce) : a₀.Leads (State.useMaster s a) := by
  unfold State.useMaster
  try dsimp only
  repeat' first
    | with_reducible exact h₀
    | with_reducible assumption
    | with_reducible apply setClk_leads
    | with_reducible apply put64_leads
    | with_reducible apply putB_leads
    | split
    | dsimp only
    | (with_reducible apply leads_mk; first | with_reducible exact h₀ | with_reducible assumption | with_reducible apply setClk_leads | with_reducible apply put64_leads | with_reducible apply putB_leads | split | dsimp only)

theorem takeUtc_leads {a₀ s : State} (h₀ : a₀.Leads s) (a : Announce) : a₀.Leads (State.takeUtc s a) := by
  unfold State.takeUtc
  repeat' first
    | with_reducible exact h₀
    | with_reducible apply putS_leads
    | with_reducible apply putB_leads
    | with_reducible apply copyUtc_leads

theorem selectMaster_leads {a₀ s : State} (h₀ : a₀.Leads s) (lan : Nat) (a : Announce) : a₀.Leads (State.selectMaster s lan a) := by
  unfold State.selectMaster
  try dsimp only
  repeat' first
    | with_reducible exact h₀
    | with_reducible assumption
    | with_reducible apply put_leads
    | with_reducible apply setClk_leads
    | with_reducible apply useMaster_leads
    | dsimp only
    | (with_reducible apply leads_mk; first | with_reducible exact h₀ | with_reducible assumption | with_reducible apply put_leads | with_reducible apply setClk_leads | with_reducible apply useMaster_leads | dsimp only)

theorem syncCorrect_leads {a₀ s : State} (h₀ : a₀.Leads s) (d : Int) (bound : Nat) : a₀.Leads (State.syncCorrect s d bound) := by
  unfold State.syncCorrect
  try dsimp only
  repeat' first
    | with_reducible exact h₀
    | with_reducible assumption
    | with_reducible apply setClk_leads
    | with_reducible apply correctTime_leads
    | split
    | dsimp only
    | (with_reducible apply leads_mk; first | with_reducible exact h₀ | with_reducible assumption | with_reducible apply setClk_leads | with_reducible apply correctTime_leads | split | dsimp only)

theorem syncLock_leads {a₀ s : State} (h₀ : a₀.Leads s) (st : Nat) (fc : Int) (bound : Nat) (lock : Bool) : a₀.Leads (State.syncLock s st fc bound lock) := by
  unfold State.syncLock
  try dsimp only
  repeat' first
    | with_reducible exact h₀
    | with_reducible assumption
    | with_reducible apply put_leads
    | with_reducible apply putB_leads
    | with_reducible apply setClk_leads
    | with_reducible apply event_leads
    | split
    | dsimp only
    | (with_reducible apply leads_mk; first | with_reducible exact h₀ | with_reducible assumption | with_reducible apply put_leads | with_reducible apply putB_leads | with_reducible apply setClk_leads | with_reducible apply event_leads | split | dsimp only)

theorem ptpSwitch_leads {a₀ s : State} (h₀ : a₀.Leads s)  : a₀.Leads (State.ptpSwitch s) := by
  unfold State.ptpSwitch
  repeat' first
    | with_reducible exact h₀
    | with_reducible apply put_leads
    | with_reducible apply count_leads
    | with_reducible apply event_leads

theorem masterLost_leads {a₀ s : State} (h₀ : a₀.Leads s)  : a₀.Leads (State.masterLost s) := by
  unfold State.masterLost
  try dsimp only
  repeat' first
    | with_reducible exact h₀
    | with_reducible assumption
    | with_reducible apply setClk_leads
    | with_reducible apply put_leads
    | with_reducible apply event_leads
    | with_reducible apply putB_leads
    | split
    | dsimp only
    | (with_reducible apply leads_mk; first | with_reducible exact h₀ | with_reducible assumption | with_reducible apply setClk_leads | with_reducible apply put_leads | with_reducible apply event_leads | with_reducible apply putB_leads | split | dsimp only)

theorem gooseInvalid_leads {a₀ s : State} (h₀ : a₀.Leads s) (g : Nat) : a₀.Leads (State.gooseInvalid s g) := by
  unfold State.gooseInvalid
  repeat' first
    | with_reducible exact h₀
    | with_reducible assumption
    | with_reducible apply put_leads
    | with_reducible apply islFollow_leads
    | with_reducible apply leads_foldl
    | (intro _ _; intro)

theorem busCommit_leads {a₀ s : State} (h₀ : a₀.Leads s) (old : State) : a₀.Leads (State.busCommit s old) := by
  unfold State.busCommit
  try dsimp only
  repeat' first
    | with_reducible exact h₀
    | with_reducible assumption
    | with_reducible apply setBus_leads
    | with_reducible apply put_leads
    | with_reducible apply setSvSub_leads
    | with_reducible apply setGSub_leads
    | with_reducible apply gooseInvalid_leads
    | with_reducible apply countWrap_leads
    | with_reducible apply leads_forN
    | (intro _ _; intro)
    | intro _ _
    | intro _
    | split
    | with_reducible refine leads_of_snd (by assumption) ?_
    | with_reducible refine leads_of_fst (by assumption) ?_
    | dsimp only
    | (with_reducible apply leads_mk; first | with_reducible exact h₀ | with_reducible assumption | with_reducible apply setBus_leads | with_reducible apply put_leads | with_reducible apply setSvSub_leads | with_reducible apply setGSub_leads | with_reducible apply gooseInvalid_leads | with_reducible apply countWrap_leads | with_reducible apply leads_forN | (intro _ _; intro) | intro _ _ | intro _ | split | with_reducible refine leads_of_snd (by assumption) ?_ | with_reducible refine leads_of_fst (by assumption) ?_ | dsimp only)

end Sys2Proof.Machine
end

