-- ==== Sys2Proof/Laws/Leads/Lanes.lean ====
section
/-! SUPPORT. What every command keeps (`State.Leads`): the operations of Lanes.lean. -/

namespace Sys2Proof.Machine

theorem setLane_leads {a₀ s : State} (h₀ : a₀.Leads s) (l : Nat) (x : LaneX) : a₀.Leads (State.setLane s l x) := by
  unfold State.setLane
  try dsimp only
  repeat' first
    | with_reducible exact h₀
    | with_reducible assumption
    | with_reducible apply setLanes_leads
    | dsimp only
    | (with_reducible apply leads_mk; first | with_reducible exact h₀ | with_reducible assumption | with_reducible apply setLanes_leads | dsimp only)

theorem showLanes_leads {a₀ s : State} (h₀ : a₀.Leads s)  : a₀.Leads (State.showLanes s) := by
  unfold State.showLanes
  repeat' first
    | with_reducible exact h₀
    | with_reducible apply put_leads

theorem enterHold_leads {a₀ s : State} (h₀ : a₀.Leads s)  : a₀.Leads (State.enterHold s) := by
  unfold State.enterHold
  try dsimp only
  repeat' first
    | with_reducible exact h₀
    | with_reducible assumption
    | with_reducible apply put_leads
    | with_reducible apply setRing_leads
    | with_reducible apply holdCease_leads
    | with_reducible apply legHold_leads
    | with_reducible apply holdPours_leads
    | with_reducible apply setCapAsk_leads
    | with_reducible apply leads_forN
    | (intro _ _; intro)
    | intro _ _
    | intro _
    | split
    | dsimp only

theorem noteExcl_leads {a₀ s : State} (h₀ : a₀.Leads s) (l : Nat) (cause : Nat) : a₀.Leads (State.noteExcl s l cause) := by
  unfold State.noteExcl
  dsimp only
  repeat' first
    | with_reducible exact h₀
    | with_reducible apply setLane_leads
    | with_reducible apply put_leads
    | with_reducible apply putSat_leads
    | with_reducible apply put64_leads
    | with_reducible apply event_leads
    | split

theorem excludeLane_leads {a₀ s : State} (h₀ : a₀.Leads s) (l : Nat) (cause : Nat) : a₀.Leads (State.excludeLane s l cause) := by
  unfold State.excludeLane
  repeat' first
    | with_reducible exact h₀
    | with_reducible apply noteExcl_leads
    | with_reducible apply enterHold_leads
    | with_reducible apply put_leads
    | with_reducible apply showLanes_leads
    | split

theorem rejoinFail_leads {a₀ s : State} (h₀ : a₀.Leads s) (l : Nat) (step : Nat) : a₀.Leads (State.rejoinFail s l step) := by
  unfold State.rejoinFail
  repeat' first
    | with_reducible exact h₀
    | with_reducible apply put_leads
    | with_reducible apply event_leads
    | with_reducible apply excludeLane_leads
    | with_reducible apply setLane_leads

theorem laneUncorr_leads {a₀ s : State} (h₀ : a₀.Leads s) (l : Nat) (memory : Nat) : a₀.Leads (State.laneUncorr s l memory) := by
  unfold State.laneUncorr
  repeat' first
    | with_reducible exact h₀
    | with_reducible apply count_leads
    | with_reducible apply put_leads
    | with_reducible apply event_leads
    | with_reducible apply excludeLane_leads
    | split

theorem noteMinority_leads {a₀ s : State} (h₀ : a₀.Leads s) (dis : List LaneDis) (l : Nat) : a₀.Leads (State.noteMinority s dis l) := by
  unfold State.noteMinority
  repeat' first
    | with_reducible exact h₀
    | with_reducible apply setLane_leads
    | with_reducible apply count_leads
    | with_reducible apply eventIf_leads

theorem voteLast_leads {a₀ s : State} (h₀ : a₀.Leads s) (d : LaneDis) : a₀.Leads (State.voteLast s d) := by
  unfold State.voteLast
  try dsimp only
  repeat' first
    | with_reducible exact h₀
    | with_reducible assumption
    | with_reducible apply put_leads
    | dsimp only

theorem judgeLanes_leads {a₀ s : State} (h₀ : a₀.Leads s) (dis : List LaneDis) : a₀.Leads (State.judgeLanes s dis) := by
  unfold State.judgeLanes
  try dsimp only
  repeat' first
    | with_reducible exact h₀
    | with_reducible assumption
    | with_reducible apply voteLast_leads
    | with_reducible apply event_leads
    | with_reducible apply enterHold_leads
    | with_reducible apply noteMinority_leads
    | with_reducible apply rejoinFail_leads
    | with_reducible apply excludeLane_leads
    | with_reducible apply leads_foldl
    | with_reducible apply leads_foldl_fst
    | with_reducible apply leads_foldl_snd
    | dsimp only
    | (intro _ _; intro)
    | intro _ _
    | intro _
    | split
    | with_reducible refine leads_of_snd (by assumption) ?_
    | with_reducible refine leads_of_fst (by assumption) ?_
    | dsimp only

theorem signPass_leads {a₀ s : State} (h₀ : a₀.Leads s)  : a₀.Leads (State.signPass s) := by
  unfold State.signPass
  repeat' first
    | with_reducible exact h₀
    | with_reducible apply put64_leads
    | with_reducible apply freeStep_leads

theorem laneFreeze_leads {a₀ s : State} (h₀ : a₀.Leads s)  : a₀.Leads (State.laneFreeze s) := by
  unfold State.laneFreeze
  dsimp only
  repeat' first
    | with_reducible exact h₀
    | with_reducible assumption
    | with_reducible apply setLane_leads
    | with_reducible apply put_leads
    | with_reducible apply count_leads
    | with_reducible apply showLanes_leads
    | with_reducible apply event_leads
    | with_reducible apply leads_forN
    | (intro _ _; intro)
    | split

theorem startRejoin_leads {a₀ s : State} (h₀ : a₀.Leads s) (l : Nat) : a₀.Leads (State.startRejoin s l) := by
  unfold State.startRejoin
  repeat' first
    | with_reducible exact h₀
    | with_reducible apply setLane_leads
    | with_reducible apply put_leads
    | with_reducible apply event_leads

theorem laneZero_leads {a₀ s : State} (h₀ : a₀.Leads s)  : a₀.Leads (State.laneZero s) := by
  unfold State.laneZero
  try dsimp only
  repeat' first
    | with_reducible exact h₀
    | with_reducible assumption
    | with_reducible apply ceReset_leads
    | with_reducible apply setSig_leads
    | with_reducible apply setEng_leads
    | with_reducible apply setGrid_leads
    | with_reducible apply setMppt_leads
    | with_reducible apply gridLoad_leads
    | with_reducible apply mpptLoad_leads
    | with_reducible apply put_leads
    | with_reducible apply frtLoad_leads
    | with_reducible apply leads_foldl
    | with_reducible apply leads_forN
    | (intro _ _; intro)
    | intro _ _
    | intro _
    | split
    | dsimp only
    | (with_reducible apply leads_mk; first | with_reducible exact h₀ | with_reducible assumption | with_reducible apply ceReset_leads | with_reducible apply setSig_leads | with_reducible apply setEng_leads | with_reducible apply setGrid_leads | with_reducible apply setMppt_leads | with_reducible apply gridLoad_leads | with_reducible apply mpptLoad_leads | with_reducible apply put_leads | with_reducible apply frtLoad_leads | with_reducible apply leads_foldl | with_reducible apply leads_forN | (intro _ _; intro) | intro _ _ | intro _ | split | dsimp only)

theorem startRestart_leads {a₀ s : State} (h₀ : a₀.Leads s)  : a₀.Leads (State.startRestart s) := by
  unfold State.startRestart
  try dsimp only
  repeat' first
    | with_reducible exact h₀
    | with_reducible assumption
    | with_reducible apply setLane_leads
    | with_reducible apply put_leads
    | with_reducible apply setLanes_leads
    | with_reducible apply restart_leads
    | with_reducible apply leads_forN
    | (intro _ _; intro)
    | intro _ _
    | intro _
    | split
    | dsimp only
    | (with_reducible apply leads_mk; first | with_reducible exact h₀ | with_reducible assumption | with_reducible apply setLane_leads | with_reducible apply put_leads | with_reducible apply setLanes_leads | with_reducible apply restart_leads | with_reducible apply leads_forN | (intro _ _; intro) | intro _ _ | intro _ | split | dsimp only)

theorem restartDone_leads {a₀ s : State} (h₀ : a₀.Leads s) (pass : Nat) : a₀.Leads (State.restartDone s pass) := by
  unfold State.restartDone
  try dsimp only
  repeat' first
    | with_reducible exact h₀
    | with_reducible assumption
    | with_reducible apply setLanes_leads
    | with_reducible apply restart_leads
    | with_reducible apply put_leads
    | with_reducible apply laneZero_leads
    | with_reducible apply legResume_leads
    | with_reducible apply showLanes_leads
    | with_reducible apply event_leads
    | with_reducible apply leads_forN
    | (intro _ _; intro)
    | intro _ _
    | intro _
    | split
    | dsimp only
    | (with_reducible apply leads_mk; first | with_reducible exact h₀ | with_reducible assumption | with_reducible apply setLanes_leads | with_reducible apply restart_leads | with_reducible apply put_leads | with_reducible apply laneZero_leads | with_reducible apply legResume_leads | with_reducible apply showLanes_leads | with_reducible apply event_leads | with_reducible apply leads_forN | (intro _ _; intro) | intro _ _ | intro _ | split | dsimp only)

theorem laneCmd_leads {a₀ s : State} (h₀ : a₀.Leads s) (n : Nat) (value : Word) (mask : Word) : a₀.Leads (State.laneCmd s n value mask).2 := by
  unfold State.laneCmd
  try dsimp only
  repeat' first
    | with_reducible exact h₀
    | with_reducible assumption
    | with_reducible apply excludeLane_leads
    | with_reducible apply setLane_leads
    | with_reducible apply startRejoin_leads
    | with_reducible apply startRestart_leads
    | with_reducible apply writeIf_leads
    | with_reducible refine leads_of_snd (by assumption) ?_
    | with_reducible refine leads_of_fst (by assumption) ?_
    | (intro _ _; intro)
    | intro _ _
    | intro _
    | split
    | dsimp only
    | (with_reducible apply leads_mk; first | with_reducible exact h₀ | with_reducible assumption | with_reducible apply excludeLane_leads | with_reducible apply setLane_leads | with_reducible apply startRejoin_leads | with_reducible apply startRestart_leads | with_reducible apply writeIf_leads | with_reducible refine leads_of_snd (by assumption) ?_ | with_reducible refine leads_of_fst (by assumption) ?_ | (intro _ _; intro) | intro _ _ | intro _ | split | dsimp only)

theorem laneCmdBy_leads {a₀ s : State} (h₀ : a₀.Leads s) (n : Nat) (l : Nat) (cmd : Nat) : a₀.Leads (State.laneCmdBy s n l cmd) := by
  unfold State.laneCmdBy
  repeat' first
    | with_reducible exact h₀
    | with_reducible assumption
    | with_reducible apply laneCmd_leads
    | with_reducible apply access_leads
    | intro _ _

theorem noteIntr_leads {a₀ s : State} (h₀ : a₀.Leads s) (u : Nat) (cause : Nat) : a₀.Leads (State.noteIntr s u cause) := by
  unfold State.noteIntr
  dsimp only
  repeat' first
    | with_reducible exact h₀
    | with_reducible apply put_leads
    | split

end Sys2Proof.Machine
end

