-- ==== Sys2Proof/Laws/Leads/Rec.lean ====
section
/-! SUPPORT. What every command keeps (`State.Leads`): the operations of Rec.lean. -/

namespace Sys2Proof.Machine

theorem setCdrive_leads {a₀ s : State} (h₀ : a₀.Leads s) (d : Nat) (x : CDrive) : a₀.Leads (State.setCdrive s d x) := by
  unfold State.setCdrive
  repeat' first
    | with_reducible exact h₀
    | with_reducible apply setRec_leads

theorem showRec_leads {a₀ s : State} (h₀ : a₀.Leads s)  : a₀.Leads (State.showRec s) := by
  unfold State.showRec
  repeat' first
    | with_reducible exact h₀
    | with_reducible apply put_leads
    | with_reducible apply putB_leads
    | split

theorem showPair_leads {a₀ s : State} (h₀ : a₀.Leads s) (p : Nat) : a₀.Leads (State.showPair s p) := by
  unfold State.showPair
  repeat' first
    | with_reducible exact h₀
    | with_reducible apply put_leads
    | with_reducible apply eventIf_leads
    | with_reducible apply setRec_leads
    | with_reducible apply showRec_leads
    | split

theorem setDrive_leads {a₀ s : State} (h₀ : a₀.Leads s) (d : Nat) (new : Nat) (cause : Nat) : a₀.Leads (State.setDrive s d new cause) := by
  unfold State.setDrive
  repeat' first
    | with_reducible exact h₀
    | with_reducible apply put_leads
    | with_reducible apply eventIf_leads
    | with_reducible apply showPair_leads
    | split

theorem flight_leads {a₀ s : State} (h₀ : a₀.Leads s) (d : Nat) : a₀.Leads (State.flight s d) := by
  unfold State.flight
  repeat' first
    | with_reducible exact h₀
    | with_reducible apply putSat_leads

theorem submit_leads {a₀ s : State} (h₀ : a₀.Leads s) (d : Nat) (use : CUse) (retried : Bool) : a₀.Leads (State.submit s d use retried) := by
  unfold State.submit
  try dsimp only
  repeat' first
    | with_reducible exact h₀
    | with_reducible assumption
    | with_reducible apply setRec_leads
    | with_reducible apply flight_leads
    | split
    | dsimp only
    | (with_reducible apply leads_mk; first | with_reducible exact h₀ | with_reducible assumption | with_reducible apply setRec_leads | with_reducible apply flight_leads | split | dsimp only)

theorem resubmit_leads {a₀ s : State} (h₀ : a₀.Leads s)  : a₀.Leads (State.resubmit s) := by
  unfold State.resubmit
  try dsimp only
  repeat' first
    | with_reducible exact h₀
    | with_reducible assumption
    | with_reducible apply submit_leads
    | with_reducible apply setRec_leads
    | with_reducible apply leads_foldl
    | with_reducible apply leads_foldl_fst
    | with_reducible apply leads_foldl_snd
    | dsimp only
    | (intro _ _; intro)
    | intro _ _
    | intro _
    | dsimp only
    | (with_reducible apply leads_mk; first | with_reducible exact h₀ | with_reducible assumption | with_reducible apply submit_leads | with_reducible apply setRec_leads | with_reducible apply leads_foldl | with_reducible apply leads_foldl_fst | with_reducible apply leads_foldl_snd | dsimp only | (intro _ _; intro) | intro _ _ | intro _ | dsimp only)

theorem setSeg_leads {a₀ s : State} (h₀ : a₀.Leads s) (g : CSeg) : a₀.Leads (State.setSeg s g) := by
  unfold State.setSeg
  repeat' first
    | with_reducible exact h₀
    | with_reducible apply setRec_leads

theorem setUnit_leads {a₀ s : State} (h₀ : a₀.Leads s) (u : CUnit) : a₀.Leads (State.setUnit s u) := by
  unfold State.setUnit
  repeat' first
    | with_reducible exact h₀
    | with_reducible apply setRec_leads

theorem pump_leads {a₀ s : State} (h₀ : a₀.Leads s)  : a₀.Leads (State.pump s) := by
  unfold State.pump
  dsimp only
  repeat' first
    | with_reducible exact h₀
    | with_reducible assumption
    | with_reducible apply submit_leads
    | with_reducible apply setUnit_leads
    | with_reducible apply leads_foldl
    | (intro _ _; intro)
    | split

theorem openSeg_leads {a₀ s : State} (h₀ : a₀.Leads s) (p : Nat) (cap : Option Nat) : a₀.Leads (State.openSeg s p cap) := by
  unfold State.openSeg
  repeat' first
    | with_reducible exact h₀
    | with_reducible apply setRec_leads
    | with_reducible apply put64_leads

theorem issueOpen_leads {a₀ s : State} (h₀ : a₀.Leads s)  : a₀.Leads (State.issueOpen s) := by
  unfold State.issueOpen
  repeat' first
    | with_reducible exact h₀
    | with_reducible apply setRec_leads
    | with_reducible apply pump_leads
    | split

theorem closeReady_leads {a₀ s : State} (h₀ : a₀.Leads s) (g : CSeg) : a₀.Leads (State.closeReady s g) := by
  unfold State.closeReady
  repeat' first
    | with_reducible exact h₀
    | with_reducible assumption
    | with_reducible apply submit_leads
    | with_reducible apply setSeg_leads
    | with_reducible apply leads_foldl
    | (intro _ _; intro)
    | split

theorem fillSeg_leads {a₀ s : State} (h₀ : a₀.Leads s) (id : Nat) : a₀.Leads (State.fillSeg s id) := by
  unfold State.fillSeg
  dsimp only
  repeat' first
    | with_reducible exact h₀
    | with_reducible apply issueOpen_leads
    | with_reducible apply setSeg_leads
    | with_reducible apply closeReady_leads
    | split

theorem packUnit_leads {a₀ s : State} (h₀ : a₀.Leads s) (seg : Nat) (r : CRec) (ends : Bool) : a₀.Leads (State.packUnit s seg r ends).1 := by
  unfold State.packUnit
  repeat' first
    | with_reducible exact h₀
    | with_reducible apply setRec_leads
    | split

theorem packBytes_leads {a : State} (f : Nat) : ∀ {s : State}, a.Leads s → ∀ g r n us,
    a.Leads (State.packBytes f s g r n us).1 := by
  induction f with
  | zero => intro s h _ _ _ _; exact h
  | succ f ih =>
    intro s h g r n us
    unfold State.packBytes
    dsimp only
    repeat' first
      | with_reducible exact h
      | with_reducible apply ih
      | with_reducible apply packUnit_leads
      | with_reducible apply setSeg_leads
      | with_reducible apply issueOpen_leads
      | split

theorem setStaged_leads {a₀ s : State} (h₀ : a₀.Leads s) (r : CRec) : a₀.Leads (State.setStaged s r) := by
  unfold State.setStaged
  exact setRec_leads h₀ _

theorem packRec_leads {a₀ s : State} (h₀ : a₀.Leads s) (r : CRec) : a₀.Leads (State.packRec s r) := by
  unfold State.packRec
  dsimp only
  repeat' first
    | with_reducible exact h₀
    | with_reducible apply fillSeg_leads
    | with_reducible apply openSeg_leads
    | with_reducible apply setStaged_leads
    | split
    | with_reducible apply packBytes_leads

theorem packAll_leads {a₀ s : State} (h₀ : a₀.Leads s)  : a₀.Leads (State.packAll s) := by
  unfold State.packAll
  repeat' first
    | with_reducible exact h₀
    | with_reducible apply packRec_leads
    | with_reducible apply leads_foldl
    | split

theorem setStrm_leads {a₀ s : State} (h₀ : a₀.Leads s) (m : Nat) (x : CStream) : a₀.Leads (State.setStrm s m x) := by
  unfold State.setStrm
  repeat' first
    | with_reducible exact h₀
    | with_reducible apply setRec_leads

theorem showStage_leads {a₀ s : State} (h₀ : a₀.Leads s)  : a₀.Leads (State.showStage s) := by
  unfold State.showStage
  repeat' first
    | with_reducible exact h₀
    | with_reducible apply putSat_leads
    | with_reducible apply putB_leads

theorem stageRec_leads {a₀ s : State} (h₀ : a₀.Leads s) (r : CRec) : a₀.Leads (State.stageRec s r) := by
  unfold State.stageRec
  repeat' first
    | with_reducible exact h₀
    | with_reducible apply setRec_leads
    | with_reducible apply showStage_leads

theorem dropRec_leads {a₀ s : State} (h₀ : a₀.Leads s) (m : Nat) (seq : Nat) (time : Nat) (cause : Nat) : a₀.Leads (State.dropRec s m seq time cause) := by
  unfold State.dropRec
  repeat' first
    | with_reducible exact h₀
    | with_reducible apply setStrm_leads
    | with_reducible apply putSat_leads
    | with_reducible apply count_leads

theorem admitGap_leads {a₀ s : State} (h₀ : a₀.Leads s) (m : Nat) : a₀.Leads (State.admitGap s m).1 := by
  unfold State.admitGap
  dsimp only
  repeat' first
    | with_reducible exact h₀
    | with_reducible apply setStrm_leads
    | with_reducible apply stageRec_leads
    | with_reducible apply put_leads
    | with_reducible apply eventIf_leads
    | split

theorem noteRate_leads {a₀ s : State} (h₀ : a₀.Leads s) (m : Nat) (bytes : Nat) : a₀.Leads (State.noteRate s m bytes) := by
  unfold State.noteRate
  dsimp only
  repeat' first
    | with_reducible exact h₀
    | with_reducible apply setStrm_leads
    | with_reducible apply putSat_leads
    | split

theorem offerRec_leads {a₀ s : State} (h₀ : a₀.Leads s) (m : Nat) (time : Nat) (flags : Nat) (payload : List Byte) : a₀.Leads (State.offerRec s m time flags payload) := by
  unfold State.offerRec
  dsimp only
  repeat' first
    | with_reducible exact h₀
    | with_reducible apply put64_leads
    | with_reducible apply dropRec_leads
    | with_reducible apply admitGap_leads
    | with_reducible apply stageRec_leads
    | with_reducible apply noteRate_leads
    | with_reducible apply packAll_leads
    | split

theorem flushOpen_leads {a₀ s : State} (h₀ : a₀.Leads s) (seg : Nat) : a₀.Leads (State.flushOpen s seg) := by
  unfold State.flushOpen
  dsimp only
  repeat' first
    | with_reducible exact h₀
    | with_reducible apply issueOpen_leads
    | with_reducible apply setSeg_leads
    | split

theorem advanceFront_leads {a₀ s : State} (h₀ : a₀.Leads s)  : a₀.Leads (State.advanceFront s) := by
  unfold State.advanceFront
  dsimp only
  repeat' first
    | with_reducible exact h₀
    | with_reducible assumption
    | with_reducible apply put64_leads
    | with_reducible apply leads_foldl
    | (intro _ _; intro)
    | split

theorem release_leads {a₀ s : State} (h₀ : a₀.Leads s)  : a₀.Leads (State.release s) := by
  unfold State.release
  repeat' first
    | with_reducible exact h₀
    | with_reducible apply setRec_leads
    | with_reducible apply showStage_leads

theorem forget_leads {a₀ s : State} (h₀ : a₀.Leads s)  : a₀.Leads (State.forget s) := by
  unfold State.forget
  repeat' first
    | with_reducible exact h₀
    | with_reducible apply setRec_leads

theorem showCap_leads {a₀ s : State} (h₀ : a₀.Leads s)  : a₀.Leads (State.showCap s) := by
  unfold State.showCap
  repeat' first
    | with_reducible exact h₀
    | with_reducible apply putB_leads
    | with_reducible apply putSat_leads

theorem setCap_leads {a₀ s : State} (h₀ : a₀.Leads s) (x : CCap) : a₀.Leads (State.setCap s x) := by
  unfold State.setCap
  repeat' first
    | with_reducible exact h₀
    | with_reducible apply setRec_leads

theorem drainCap_leads {a : State} (f : Nat) : ∀ {s : State}, a.Leads s → ∀ id, a.Leads (State.drainCap f s id) := by
  induction f with
  | zero => intro s h _; exact h
  | succ f ih =>
    intro s h id
    unfold State.drainCap
    dsimp only
    repeat' first
      | with_reducible exact h
      | with_reducible apply ih
      | with_reducible apply fillSeg_leads
      | with_reducible apply pump_leads
      | with_reducible apply setCap_leads
      | with_reducible apply setSeg_leads
      | with_reducible apply setRec_leads
      | with_reducible apply openSeg_leads
      | split

theorem drain_leads {a₀ s : State} (h₀ : a₀.Leads s) : a₀.Leads (State.drain s) := by
  unfold State.drain
  exact leads_foldl h₀ fun s h x => drainCap_leads 64 h x

theorem endCaps_leads {a₀ s : State} (h₀ : a₀.Leads s)  : a₀.Leads (State.endCaps s) := by
  unfold State.endCaps
  repeat' first
    | with_reducible exact h₀
    | with_reducible assumption
    | with_reducible apply setRec_leads
    | with_reducible apply put_leads
    | with_reducible apply offerRec_leads
    | with_reducible apply event_leads
    | with_reducible apply leads_foldl
    | (intro _ _; intro)

theorem finishCap_leads {a₀ s : State} (h₀ : a₀.Leads s) (id : Nat) : a₀.Leads (State.finishCap s id) := by
  unfold State.finishCap
  repeat' first
    | with_reducible exact h₀
    | with_reducible apply setCap_leads
    | with_reducible apply fillSeg_leads
    | split

theorem copyStep_leads {a₀ s : State} (h₀ : a₀.Leads s) (d : Nat) : a₀.Leads (State.copyStep s d) := by
  unfold State.copyStep
  try dsimp only
  repeat' first
    | with_reducible exact h₀
    | with_reducible assumption
    | with_reducible apply setCdrive_leads
    | with_reducible apply put_leads
    | with_reducible apply setDrive_leads
    | with_reducible apply event_leads
    | with_reducible apply submit_leads
    | split
    | with_reducible refine leads_of_snd (by assumption) ?_
    | with_reducible refine leads_of_fst (by assumption) ?_
    | dsimp only
    | (with_reducible apply leads_mk; first | with_reducible exact h₀ | with_reducible assumption | with_reducible apply setCdrive_leads | with_reducible apply put_leads | with_reducible apply setDrive_leads | with_reducible apply event_leads | with_reducible apply submit_leads | split | with_reducible refine leads_of_snd (by assumption) ?_ | with_reducible refine leads_of_fst (by assumption) ?_ | dsimp only)

theorem service_leads {a₀ s : State} (h₀ : a₀.Leads s)  : a₀.Leads (State.service s) := by
  unfold State.service
  try dsimp only
  repeat' first
    | with_reducible exact h₀
    | with_reducible assumption
    | with_reducible apply drain_leads
    | with_reducible apply pump_leads
    | with_reducible apply finishCap_leads
    | with_reducible apply endCaps_leads
    | with_reducible apply copyStep_leads
    | with_reducible apply showCap_leads
    | with_reducible apply leads_foldl
    | with_reducible apply leads_forN
    | (intro _ _; intro)
    | intro _ _
    | intro _
    | with_reducible apply finish_leads
    | dsimp only

theorem capTrigger_leads {a₀ s : State} (h₀ : a₀.Leads s) (srcs : Nat) (n : Nat) : a₀.Leads (State.capTrigger s srcs n) := by
  unfold State.capTrigger
  dsimp only
  repeat' first
    | with_reducible exact h₀
    | with_reducible apply put_leads
    | with_reducible apply event_leads
    | with_reducible apply setCap_leads
    | with_reducible apply setRec_leads
    | split

theorem capDiscard_leads {a₀ s : State} (h₀ : a₀.Leads s) (k : Nat) : a₀.Leads (State.capDiscard s k) := by
  unfold State.capDiscard
  try dsimp only
  repeat' first
    | with_reducible exact h₀
    | with_reducible assumption
    | with_reducible apply setRec_leads
    | with_reducible apply put_leads
    | with_reducible apply eventIf_leads
    | split
    | with_reducible refine leads_of_snd (by assumption) ?_
    | with_reducible refine leads_of_fst (by assumption) ?_
    | dsimp only
    | (with_reducible apply leads_mk; first | with_reducible exact h₀ | with_reducible assumption | with_reducible apply setRec_leads | with_reducible apply put_leads | with_reducible apply eventIf_leads | split | with_reducible refine leads_of_snd (by assumption) ?_ | with_reducible refine leads_of_fst (by assumption) ?_ | dsimp only)

theorem capWrite_leads {a₀ s : State} (h₀ : a₀.Leads s)  : a₀.Leads (State.capWrite s) := by
  unfold State.capWrite
  try dsimp only
  repeat' first
    | with_reducible exact h₀
    | with_reducible assumption
    | with_reducible apply capDiscard_leads
    | with_reducible apply setRec_leads
    | split
    | with_reducible refine leads_of_snd (by assumption) ?_
    | with_reducible refine leads_of_fst (by assumption) ?_
    | dsimp only
    | (with_reducible apply leads_mk; first | with_reducible exact h₀ | with_reducible assumption | with_reducible apply capDiscard_leads | with_reducible apply setRec_leads | split | with_reducible refine leads_of_snd (by assumption) ?_ | with_reducible refine leads_of_fst (by assumption) ?_ | dsimp only)

theorem capFreeze_leads {a₀ s : State} (h₀ : a₀.Leads s)  : a₀.Leads (State.capFreeze s) := by
  unfold State.capFreeze
  try dsimp only
  repeat' first
    | with_reducible exact h₀
    | with_reducible assumption
    | with_reducible apply setCapAsk_leads
    | with_reducible apply setRec_leads
    | with_reducible apply capWrite_leads
    | with_reducible apply capTrigger_leads
    | with_reducible apply service_leads
    | with_reducible apply leads_foldl
    | with_reducible apply leads_foldl_fst
    | with_reducible apply leads_foldl_snd
    | dsimp only
    | (intro _ _; intro)
    | intro _ _
    | intro _
    | split
    | with_reducible refine leads_of_snd (by assumption) ?_
    | with_reducible refine leads_of_fst (by assumption) ?_
    | dsimp only
    | (with_reducible apply leads_mk; first | with_reducible exact h₀ | with_reducible assumption | with_reducible apply setCapAsk_leads | with_reducible apply setRec_leads | with_reducible apply capWrite_leads | with_reducible apply capTrigger_leads | with_reducible apply service_leads | with_reducible apply leads_foldl | with_reducible apply leads_foldl_fst | with_reducible apply leads_foldl_snd | dsimp only | (intro _ _; intro) | intro _ _ | intro _ | split | with_reducible refine leads_of_snd (by assumption) ?_ | with_reducible refine leads_of_fst (by assumption) ?_ | dsimp only)

theorem softTrigger_leads {a₀ s : State} (h₀ : a₀.Leads s) (n : Nat) (value : Word) (mask : Word) : a₀.Leads (State.softTrigger s n value mask).2 := by
  unfold State.softTrigger
  try dsimp only
  repeat' first
    | with_reducible exact h₀
    | with_reducible assumption
    | with_reducible apply setCapAsk_leads
    | with_reducible apply writeThen_leads
    | (intro _ _; intro)
    | intro _ _
    | intro _
    | split
    | dsimp only

theorem checkUnit_leads {a₀ s : State} (h₀ : a₀.Leads s) (id : Nat) : a₀.Leads (State.checkUnit s id) := by
  unfold State.checkUnit
  dsimp only
  repeat' first
    | with_reducible exact h₀
    | with_reducible apply setUnit_leads
    | with_reducible apply setRec_leads
    | with_reducible apply advanceFront_leads
    | with_reducible apply release_leads
    | with_reducible apply closeReady_leads
    | split

theorem writeSuper_leads {a₀ s : State} (h₀ : a₀.Leads s) (ds : List Nat) : a₀.Leads (State.writeSuper s ds) := by
  unfold State.writeSuper
  try dsimp only
  repeat' first
    | with_reducible exact h₀
    | with_reducible assumption
    | with_reducible apply setRec_leads
    | with_reducible apply setCdrive_leads
    | with_reducible apply submit_leads
    | with_reducible apply leads_foldl
    | (intro _ _; intro)
    | intro _ _
    | intro _
    | dsimp only
    | (with_reducible apply leads_mk; first | with_reducible exact h₀ | with_reducible assumption | with_reducible apply setRec_leads | with_reducible apply setCdrive_leads | with_reducible apply submit_leads | with_reducible apply leads_foldl | (intro _ _; intro) | intro _ _ | intro _ | dsimp only)

theorem checkpoint_leads {a₀ s : State} (h₀ : a₀.Leads s)  : a₀.Leads (State.checkpoint s) := by
  unfold State.checkpoint
  try dsimp only
  repeat' first
    | with_reducible exact h₀
    | with_reducible assumption
    | with_reducible apply setRec_leads
    | with_reducible apply writeSuper_leads
    | dsimp only
    | (with_reducible apply leads_mk; first | with_reducible exact h₀ | with_reducible assumption | with_reducible apply setRec_leads | with_reducible apply writeSuper_leads | dsimp only)

theorem checkClosed_leads {a₀ s : State} (h₀ : a₀.Leads s) (g : CSeg) : a₀.Leads (State.checkClosed s g) := by
  unfold State.checkClosed
  try dsimp only
  repeat' first
    | with_reducible exact h₀
    | with_reducible assumption
    | with_reducible apply setRec_leads
    | with_reducible apply checkpoint_leads
    | split
    | dsimp only
    | (with_reducible apply leads_mk; first | with_reducible exact h₀ | with_reducible assumption | with_reducible apply setRec_leads | with_reducible apply checkpoint_leads | split | dsimp only)

theorem checkSync_leads {a₀ s : State} (h₀ : a₀.Leads s)  : a₀.Leads (State.checkSync s) := by
  unfold State.checkSync
  repeat' first
    | with_reducible exact h₀
    | with_reducible apply put_leads
    | with_reducible apply showRec_leads
    | split

theorem recheck_leads {a₀ s : State} (h₀ : a₀.Leads s)  : a₀.Leads (State.recheck s) := by
  unfold State.recheck
  try dsimp only
  repeat' first
    | with_reducible exact h₀
    | with_reducible assumption
    | with_reducible apply resubmit_leads
    | with_reducible apply checkUnit_leads
    | with_reducible apply checkClosed_leads
    | with_reducible apply forget_leads
    | with_reducible apply checkSync_leads
    | with_reducible apply service_leads
    | with_reducible apply leads_foldl
    | (intro _ _; intro)
    | intro _ _
    | intro _
    | dsimp only

theorem endRebuild_leads {a₀ s : State} (h₀ : a₀.Leads s) (p : Nat) : a₀.Leads (State.endRebuild s p) := by
  unfold State.endRebuild
  try dsimp only
  repeat' first
    | with_reducible exact h₀
    | with_reducible assumption
    | with_reducible apply setCdrive_leads
    | with_reducible apply setDrive_leads
    | with_reducible apply leads_foldl
    | (intro _ _; intro)
    | intro _ _
    | intro _
    | split
    | dsimp only
    | (with_reducible apply leads_mk; first | with_reducible exact h₀ | with_reducible assumption | with_reducible apply setCdrive_leads | with_reducible apply setDrive_leads | with_reducible apply leads_foldl | (intro _ _; intro) | intro _ _ | intro _ | split | dsimp only)

theorem leavePair_leads {a₀ s : State} (h₀ : a₀.Leads s) (d : Nat) : a₀.Leads (State.leavePair s d) := by
  unfold State.leavePair
  try dsimp only
  repeat' first
    | with_reducible exact h₀
    | with_reducible assumption
    | with_reducible apply setRec_leads
    | with_reducible apply endRebuild_leads
    | with_reducible apply packAll_leads
    | with_reducible apply recheck_leads
    | with_reducible apply leads_foldl
    | with_reducible apply leads_foldl_fst
    | with_reducible apply leads_foldl_snd
    | dsimp only
    | (intro _ _; intro)
    | intro _ _
    | intro _
    | split
    | with_reducible refine leads_of_snd (by assumption) ?_
    | with_reducible refine leads_of_fst (by assumption) ?_
    | dsimp only
    | (with_reducible apply leads_mk; first | with_reducible exact h₀ | with_reducible assumption | with_reducible apply setRec_leads | with_reducible apply endRebuild_leads | with_reducible apply packAll_leads | with_reducible apply recheck_leads | with_reducible apply leads_foldl | with_reducible apply leads_foldl_fst | with_reducible apply leads_foldl_snd | dsimp only | (intro _ _; intro) | intro _ _ | intro _ | split | with_reducible refine leads_of_snd (by assumption) ?_ | with_reducible refine leads_of_fst (by assumption) ?_ | dsimp only)

theorem failDrive_leads {a₀ s : State} (h₀ : a₀.Leads s) (d : Nat) : a₀.Leads (State.failDrive s d) := by
  unfold State.failDrive
  repeat' first
    | with_reducible exact h₀
    | with_reducible apply setDrive_leads
    | with_reducible apply leavePair_leads

theorem reap_leads {a₀ s : State} (h₀ : a₀.Leads s) (id : Nat) (d : Nat) : a₀.Leads (State.reap s id d) := by
  unfold State.reap
  repeat' first
    | with_reducible exact h₀
    | with_reducible apply setRec_leads
    | with_reducible apply flight_leads

theorem cmdFailed_leads {a₀ s : State} (h₀ : a₀.Leads s) (x : CCmd) (status : Nat) : a₀.Leads (State.cmdFailed s x status) := by
  unfold State.cmdFailed
  try dsimp only
  repeat' first
    | with_reducible exact h₀
    | with_reducible assumption
    | with_reducible apply count_leads
    | with_reducible apply event_leads
    | with_reducible apply failDrive_leads
    | with_reducible apply submit_leads
    | split
    | dsimp only

theorem copied_leads {a₀ s : State} (h₀ : a₀.Leads s) (d : Nat) (p : Nat) (pos : Nat) : a₀.Leads (State.copied s d p pos) := by
  unfold State.copied
  try dsimp only
  repeat' first
    | with_reducible exact h₀
    | with_reducible assumption
    | with_reducible apply setCdrive_leads
    | with_reducible apply put_leads
    | split
    | with_reducible refine leads_of_snd (by assumption) ?_
    | with_reducible refine leads_of_fst (by assumption) ?_
    | dsimp only
    | (with_reducible apply leads_mk; first | with_reducible exact h₀ | with_reducible assumption | with_reducible apply setCdrive_leads | with_reducible apply put_leads | split | with_reducible refine leads_of_snd (by assumption) ?_ | with_reducible refine leads_of_fst (by assumption) ?_ | dsimp only)

theorem completed_leads {a₀ s : State} (h₀ : a₀.Leads s) (x : CCmd) : a₀.Leads (State.completed s x) := by
  unfold State.completed
  try dsimp only
  repeat' first
    | with_reducible exact h₀
    | with_reducible assumption
    | with_reducible apply setUnit_leads
    | with_reducible apply checkUnit_leads
    | with_reducible apply setSeg_leads
    | with_reducible apply submit_leads
    | with_reducible apply checkClosed_leads
    | with_reducible apply copied_leads
    | split
    | with_reducible refine leads_of_snd (by assumption) ?_
    | with_reducible refine leads_of_fst (by assumption) ?_
    | dsimp only
    | (with_reducible apply leads_mk; first | with_reducible exact h₀ | with_reducible assumption | with_reducible apply setUnit_leads | with_reducible apply checkUnit_leads | with_reducible apply setSeg_leads | with_reducible apply submit_leads | with_reducible apply checkClosed_leads | with_reducible apply copied_leads | split | with_reducible refine leads_of_snd (by assumption) ?_ | with_reducible refine leads_of_fst (by assumption) ?_ | dsimp only)

theorem leaseOver_leads {a₀ s : State} (h₀ : a₀.Leads s) (d : Nat) : a₀.Leads (State.leaseOver s d) := by
  unfold State.leaseOver
  try dsimp only
  repeat' first
    | with_reducible exact h₀
    | with_reducible assumption
    | with_reducible apply count_leads
    | with_reducible apply event_leads
    | dsimp only

theorem addDrive_leads {a₀ s : State} (h₀ : a₀.Leads s) (d : Nat) : a₀.Leads (State.addDrive s d) := by
  unfold State.addDrive
  try dsimp only
  repeat' first
    | with_reducible exact h₀
    | with_reducible assumption
    | with_reducible apply setCdrive_leads
    | with_reducible apply put_leads
    | with_reducible apply setDrive_leads
    | with_reducible apply writeSuper_leads
    | with_reducible apply copyStep_leads
    | dsimp only
    | (with_reducible apply leads_mk; first | with_reducible exact h₀ | with_reducible assumption | with_reducible apply setCdrive_leads | with_reducible apply put_leads | with_reducible apply setDrive_leads | with_reducible apply writeSuper_leads | with_reducible apply copyStep_leads | dsimp only)

theorem formatStore_leads {a₀ s : State} (h₀ : a₀.Leads s) (ds : List Nat) : a₀.Leads (State.formatStore s ds) := by
  unfold State.formatStore
  repeat' first
    | with_reducible exact h₀
    | with_reducible assumption
    | with_reducible apply setRec_leads
    | with_reducible apply freeStep_leads
    | with_reducible apply put64_leads
    | with_reducible apply setCdrive_leads
    | with_reducible apply setDrive_leads
    | with_reducible apply checkpoint_leads
    | with_reducible apply event_leads
    | with_reducible apply leads_foldl
    | with_reducible apply leads_forN
    | (intro _ _; intro)

theorem restoreStreams_leads {a₀ s : State} (h₀ : a₀.Leads s) (front : List (Nat × Nat)) (lost : Bool) : a₀.Leads (State.restoreStreams s front lost) := by
  unfold State.restoreStreams
  try dsimp only
  repeat' first
    | with_reducible exact h₀
    | with_reducible assumption
    | with_reducible apply put64_leads
    | with_reducible apply leads_forN
    | (intro _ _; intro)
    | intro _ _
    | intro _
    | split
    | dsimp only

theorem recoverGaps_leads {a₀ s : State} (h₀ : a₀.Leads s)  : a₀.Leads (State.recoverGaps s).1 := by
  unfold State.recoverGaps
  try dsimp only
  repeat' first
    | with_reducible exact h₀
    | with_reducible assumption
    | with_reducible apply count_leads
    | with_reducible apply freeStep_leads
    | with_reducible apply setStrm_leads
    | with_reducible apply admitGap_leads
    | with_reducible apply leads_foldl
    | with_reducible apply leads_foldl_fst
    | with_reducible apply leads_foldl_snd
    | dsimp only
    | (intro _ _; intro)
    | intro _ _
    | intro _
    | split
    | with_reducible refine leads_of_snd (by assumption) ?_
    | with_reducible refine leads_of_fst (by assumption) ?_
    | dsimp only
    | (with_reducible apply leads_mk; first | with_reducible exact h₀ | with_reducible assumption | with_reducible apply count_leads | with_reducible apply freeStep_leads | with_reducible apply setStrm_leads | with_reducible apply admitGap_leads | with_reducible apply leads_foldl | with_reducible apply leads_foldl_fst | with_reducible apply leads_foldl_snd | dsimp only | (intro _ _; intro) | intro _ _ | intro _ | split | with_reducible refine leads_of_snd (by assumption) ?_ | with_reducible refine leads_of_fst (by assumption) ?_ | dsimp only)

theorem sync_leads {a₀ s : State} (h₀ : a₀.Leads s)  : a₀.Leads (State.sync s) := by
  unfold State.sync
  try dsimp only
  repeat' first
    | with_reducible exact h₀
    | with_reducible assumption
    | with_reducible apply fillSeg_leads
    | with_reducible apply setRec_leads
    | with_reducible apply checkpoint_leads
    | with_reducible apply put_leads
    | with_reducible apply recheck_leads
    | with_reducible apply leads_foldl
    | (intro _ _; intro)
    | intro _ _
    | intro _
    | split
    | dsimp only
    | (with_reducible apply leads_mk; first | with_reducible exact h₀ | with_reducible assumption | with_reducible apply fillSeg_leads | with_reducible apply setRec_leads | with_reducible apply checkpoint_leads | with_reducible apply put_leads | with_reducible apply recheck_leads | with_reducible apply leads_foldl | (intro _ _; intro) | intro _ _ | intro _ | split | dsimp only)

theorem recPower_leads {a₀ s : State} (h₀ : a₀.Leads s) (on : Bool) : a₀.Leads (State.recPower s on) := by
  unfold State.recPower
  repeat' first
    | with_reducible exact h₀
    | with_reducible apply put_leads
    | with_reducible apply setRec_leads
    | split

theorem dramOff_leads {a₀ s : State} (h₀ : a₀.Leads s)  : a₀.Leads (State.dramOff s) := by
  unfold State.dramOff
  repeat' first
    | with_reducible exact h₀
    | with_reducible apply setRec_leads

theorem recCmd_leads {a₀ s : State} (h₀ : a₀.Leads s) (n : Nat) (value : Word) (mask : Word) : a₀.Leads (State.recCmd s n value mask).2 := by
  unfold State.recCmd
  repeat' first
    | with_reducible exact h₀
    | with_reducible assumption
    | with_reducible apply sync_leads
    | with_reducible apply formatStore_leads
    | with_reducible apply packAll_leads
    | with_reducible apply showRec_leads
    | with_reducible apply addDrive_leads
    | with_reducible apply failDrive_leads
    | with_reducible apply writeIf_leads
    | intro _ _
    | split

theorem recCmdBy_leads {a₀ s : State} (h₀ : a₀.Leads s) (n : Nat) (cmd : Nat) (d : Nat) : a₀.Leads (State.recCmdBy s n cmd d) := by
  unfold State.recCmdBy
  repeat' first
    | with_reducible exact h₀
    | with_reducible assumption
    | with_reducible apply recCmd_leads
    | with_reducible apply access_leads
    | intro _ _

theorem recStatusRead_leads {a₀ s : State} (h₀ : a₀.Leads s) (n : Nat) : a₀.Leads (State.recStatusRead s n) := by
  unfold State.recStatusRead
  repeat' first
    | with_reducible exact h₀
    | with_reducible apply put_leads
    | with_reducible apply answer_leads

end Sys2Proof.Machine
end

