-- ==== Sys2Proof/Laws/Leads/Wear.lean ====
section
/-! SUPPORT. What every command keeps (`State.Leads`): the operations of Wear.lean. -/

namespace Sys2Proof.Machine

theorem wearSlot_leads {a₀ s : State} (h₀ : a₀.Leads s) (k : Nat) : a₀.Leads (State.wearSlot s k) := by
  unfold State.wearSlot
  repeat' first
    | with_reducible exact h₀
    | with_reducible apply setWcell_leads
    | split

theorem wearHours_leads {a₀ s : State} (h₀ : a₀.Leads s) (k : Nat) : a₀.Leads (State.wearHours s k) := by
  unfold State.wearHours
  repeat' first
    | with_reducible exact h₀
    | with_reducible apply setWcell_leads
    | with_reducible apply putSat_leads
    | split

theorem wearCycle_leads {a₀ s : State} (h₀ : a₀.Leads s) (k : Nat) (h : Nat) (half : Bool) (c : Int × Int) : a₀.Leads (State.wearCycle s k h half c) := by
  unfold State.wearCycle
  try dsimp only
  repeat' first
    | with_reducible exact h₀
    | with_reducible assumption
    | with_reducible apply setWear_leads
    | with_reducible apply setDamage_leads
    | split
    | dsimp only
    | (with_reducible apply leads_mk; first | with_reducible exact h₀ | with_reducible assumption | with_reducible apply setWear_leads | with_reducible apply setDamage_leads | split | dsimp only)

theorem wearHbStep_leads {a₀ s : State} (h₀ : a₀.Leads s) (k : Nat) (h : Nat) (tu : Nat) : a₀.Leads (State.wearHbStep s k h tu) := by
  unfold State.wearHbStep
  dsimp only
  repeat' first
    | with_reducible exact h₀
    | with_reducible assumption
    | with_reducible apply setWcell_leads
    | with_reducible apply putS_leads
    | with_reducible apply wearCycle_leads
    | with_reducible apply leads_foldl
    | (intro _ _; intro)
    | split

theorem wearStep_leads {a₀ s : State} (h₀ : a₀.Leads s) (tu : Nat) (k : Nat) : a₀.Leads (State.wearStep s tu k) := by
  unfold State.wearStep
  repeat' first
    | with_reducible exact h₀
    | with_reducible apply wearHbStep_leads
    | with_reducible apply setWcell_leads
    | with_reducible apply put_leads

theorem wearFault_leads {a₀ s : State} (h₀ : a₀.Leads s)  : a₀.Leads (State.wearFault s) := by
  unfold State.wearFault
  repeat' first
    | with_reducible exact h₀
    | with_reducible apply put_leads
    | with_reducible apply event_leads

theorem wearDay_leads {a₀ s : State} (h₀ : a₀.Leads s) (day : Int) (k : Nat) : a₀.Leads (State.wearDay s day k) := by
  unfold State.wearDay
  repeat' first
    | with_reducible exact h₀
    | with_reducible apply setWcell_leads
    | with_reducible apply putSat_leads

theorem wearEval_leads {a₀ s : State} (h₀ : a₀.Leads s) (k : Nat) : a₀.Leads (State.wearEval s k) := by
  unfold State.wearEval
  dsimp only
  repeat' first
    | with_reducible exact h₀
    | with_reducible apply setWcell_leads
    | with_reducible apply putB_leads
    | with_reducible apply put_leads
    | with_reducible apply putSat_leads
    | with_reducible apply eventIf_leads
    | split

theorem wearLog_leads {a₀ s : State} (h₀ : a₀.Leads s) (k : Nat) (cause : Nat) (code : Nat) (bound : Nat) : a₀.Leads (State.wearLog s k cause code bound) := by
  unfold State.wearLog
  dsimp only
  repeat' first
    | with_reducible exact h₀
    | with_reducible apply setWcell_leads
    | with_reducible apply event_leads
    | split

theorem wearRetire_leads {a₀ s : State} (h₀ : a₀.Leads s) (k : Nat) : a₀.Leads (State.wearRetire s k) := by
  unfold State.wearRetire
  try dsimp only
  repeat' first
    | with_reducible exact h₀
    | with_reducible assumption
    | with_reducible apply setWear_leads
    | with_reducible apply putSat_leads
    | with_reducible apply retireNow_leads
    | with_reducible apply startBypass_leads
    | with_reducible apply event_leads
    | split
    | dsimp only
    | (with_reducible apply leads_mk; first | with_reducible exact h₀ | with_reducible assumption | with_reducible apply setWear_leads | with_reducible apply putSat_leads | with_reducible apply retireNow_leads | with_reducible apply startBypass_leads | with_reducible apply event_leads | split | dsimp only)

theorem wearTry_leads {a₀ s : State} (h₀ : a₀.Leads s) (k : Nat) : a₀.Leads (State.wearTry s k) := by
  unfold State.wearTry
  dsimp only
  repeat' first
    | with_reducible exact h₀
    | with_reducible assumption
    | with_reducible apply wearLog_leads
    | with_reducible apply wearRetire_leads
    | with_reducible apply leads_foldl
    | (intro _ _; intro)
    | split

theorem wearPhases_leads {a₀ s : State} (h₀ : a₀.Leads s) (f : State → Nat → Bool) : a₀.Leads (State.wearPhases s f) := by
  unfold State.wearPhases
  dsimp only
  repeat' first
    | with_reducible exact h₀
    | with_reducible assumption
    | with_reducible apply wearTry_leads
    | with_reducible apply leads_foldl
    | (intro _ _; intro)
    | split

theorem wearUnret_leads {a₀ s : State} (h₀ : a₀.Leads s) (k : Nat) : a₀.Leads (State.wearUnret s k) := by
  unfold State.wearUnret
  dsimp only
  repeat' first
    | with_reducible exact h₀
    | with_reducible apply setWcell_leads
    | with_reducible apply wearLog_leads
    | with_reducible apply freeStep_leads
    | split

theorem wearFreeze_leads {a₀ s : State} (h₀ : a₀.Leads s)  : a₀.Leads (State.wearFreeze s) := by
  unfold State.wearFreeze
  repeat' first
    | with_reducible exact h₀
    | with_reducible assumption
    | with_reducible apply wearSlot_leads
    | with_reducible apply wearHours_leads
    | with_reducible apply wearUnret_leads
    | with_reducible apply put_leads
    | with_reducible apply wearPhases_leads
    | with_reducible apply leads_foldl
    | (intro _ _; intro)
    | split

theorem wearPart_leads {a₀ s : State} (h₀ : a₀.Leads s) (p : Nat) : a₀.Leads (State.wearPart s p) := by
  unfold State.wearPart
  try dsimp only
  repeat' first
    | with_reducible exact h₀
    | with_reducible assumption
    | with_reducible apply setWear_leads
    | with_reducible apply put_leads
    | with_reducible apply eventIf_leads
    | dsimp only
    | (with_reducible apply leads_mk; first | with_reducible exact h₀ | with_reducible assumption | with_reducible apply setWear_leads | with_reducible apply put_leads | with_reducible apply eventIf_leads | dsimp only)

theorem wearParts_leads {a₀ s : State} (h₀ : a₀.Leads s)  : a₀.Leads (State.wearParts s) := by
  unfold State.wearParts
  repeat' first
    | with_reducible exact h₀
    | with_reducible apply wearPart_leads
    | with_reducible apply put_leads
    | with_reducible apply leads_forN

theorem partDay_leads {a₀ s : State} (h₀ : a₀.Leads s) (day : Int) (p : Nat) (v : Option Int) : a₀.Leads (State.partDay s day p v) := by
  unfold State.partDay
  try dsimp only
  repeat' first
    | with_reducible exact h₀
    | with_reducible assumption
    | with_reducible apply setWear_leads
    | split
    | with_reducible refine leads_of_snd (by assumption) ?_
    | with_reducible refine leads_of_fst (by assumption) ?_
    | dsimp only
    | (with_reducible apply leads_mk; first | with_reducible exact h₀ | with_reducible assumption | with_reducible apply setWear_leads | split | with_reducible refine leads_of_snd (by assumption) ?_ | with_reducible refine leads_of_fst (by assumption) ?_ | dsimp only)

theorem wearStatusWrite_leads {a₀ s : State} (h₀ : a₀.Leads s) (n : Nat) (value : Word) (mask : Word) : a₀.Leads (State.wearStatusWrite s n value mask).2 := by
  unfold State.wearStatusWrite
  repeat' first
    | with_reducible exact h₀
    | with_reducible assumption
    | with_reducible apply put_leads
    | with_reducible apply writeIf_leads
    | intro _ _
    | split

theorem wearSelect_leads {a₀ s : State} (h₀ : a₀.Leads s) (n : Nat) (value : Word) (mask : Word) : a₀.Leads (State.wearSelect s n value mask).2 := by
  unfold State.wearSelect
  repeat' first
    | with_reducible exact h₀
    | with_reducible assumption
    | with_reducible apply setWord_leads
    | with_reducible apply leads_forN
    | with_reducible apply writeThen_leads
    | (intro _ _; intro)
    | intro _ _

end Sys2Proof.Machine
end

