-- ==== Sys2Proof/Laws/Leads/Safe.lean ====
section
/-! SUPPORT. What every command keeps (`State.Leads`): the operations of Safe.lean. -/

namespace Sys2Proof.Machine

theorem safeTake_leads {a₀ s : State} (h₀ : a₀.Leads s) (l : List Byte) : a₀.Leads (State.safeTake s l) := by
  unfold State.safeTake
  repeat' first
    | with_reducible exact h₀
    | with_reducible assumption
    | with_reducible apply setSafe_leads
    | with_reducible apply put_leads
    | with_reducible apply putB_leads
    | with_reducible apply event_leads
    | with_reducible apply leads_forN
    | (intro _ _; intro)

theorem safeParam_leads {a₀ s : State} (h₀ : a₀.Leads s) (l : List Byte) : a₀.Leads (State.safeParam s l) := by
  unfold State.safeParam
  repeat' first
    | with_reducible exact h₀
    | with_reducible apply setSafe_leads
    | with_reducible apply safeTake_leads
    | with_reducible apply put_leads
    | split

theorem safeNote_leads {a₀ s : State} (h₀ : a₀.Leads s) (b : Nat) : a₀.Leads (State.safeNote s b) := by
  unfold State.safeNote
  repeat' first
    | with_reducible exact h₀
    | with_reducible apply count_leads
    | with_reducible apply event_leads
    | with_reducible apply freeStep_leads
    | split

theorem safeShow_leads {a₀ s : State} (h₀ : a₀.Leads s) (now : Nat) : a₀.Leads (State.safeShow s now) := by
  unfold State.safeShow
  repeat' first
    | with_reducible exact h₀
    | with_reducible apply put_leads
    | with_reducible apply setSafe_leads
    | with_reducible apply safeNote_leads
    | with_reducible apply leads_foldl

theorem token_leads {a₀ s : State} (h₀ : a₀.Leads s)  : a₀.Leads (State.token s) := by
  unfold State.token
  repeat' first
    | with_reducible exact h₀
    | with_reducible apply countWrap_leads
    | with_reducible apply put_leads
    | with_reducible apply setSafe_leads

theorem offToken_leads {a₀ s : State} (h₀ : a₀.Leads s)  : a₀.Leads (State.offToken s) := by
  unfold State.offToken
  repeat' first
    | with_reducible exact h₀
    | with_reducible apply token_leads
    | with_reducible apply setSafe_leads
    | split

theorem safeGo_leads {a₀ s : State} (h₀ : a₀.Leads s) (dest : Nat) : a₀.Leads (State.safeGo s dest) := by
  unfold State.safeGo
  repeat' first
    | with_reducible exact h₀
    | with_reducible apply put_leads
    | with_reducible apply setSafe_leads
    | with_reducible apply put64_leads
    | with_reducible apply event_leads
    | with_reducible apply offToken_leads
    | split

theorem safeJudge_leads {a₀ s : State} (h₀ : a₀.Leads s) (now : Nat) : a₀.Leads (State.safeJudge s now) := by
  unfold State.safeJudge
  dsimp only
  repeat' first
    | with_reducible exact h₀
    | with_reducible apply safeShow_leads
    | with_reducible apply safeGo_leads
    | with_reducible apply safeTake_leads
    | split

theorem startupTest_leads {a₀ s : State} (h₀ : a₀.Leads s)  : a₀.Leads (State.startupTest s) := by
  unfold State.startupTest
  dsimp only
  repeat' first
    | with_reducible exact h₀
    | with_reducible apply setSafe_leads
    | with_reducible apply put_leads
    | with_reducible apply event_leads
    | with_reducible apply safeGo_leads
    | split

theorem resetFall_leads {a₀ s : State} (h₀ : a₀.Leads s)  : a₀.Leads (State.resetFall s) := by
  unfold State.resetFall
  dsimp only
  repeat' first
    | with_reducible exact h₀
    | with_reducible apply put_leads
    | with_reducible apply setSafe_leads
    | with_reducible apply event_leads
    | with_reducible apply safeGo_leads
    | split

theorem setCons_leads {a₀ s : State} (h₀ : a₀.Leads s) (c : Nat) (x : SafeCons) : a₀.Leads (State.setCons s c x) := by
  unfold State.setCons
  repeat' first
    | with_reducible exact h₀
    | with_reducible apply setSafe_leads

theorem safePdu_leads {a₀ s : State} (h₀ : a₀.Leads s) (c : Nat) (l : List Byte) : a₀.Leads (State.safePdu s c l) := by
  unfold State.safePdu
  dsimp only
  repeat' first
    | with_reducible exact h₀
    | with_reducible apply put_leads
    | with_reducible apply count_leads
    | with_reducible apply setCons_leads
    | with_reducible apply event_leads
    | with_reducible apply putB_leads
    | split

theorem safePowerUp_leads {a₀ s : State} (h₀ : a₀.Leads s)  : a₀.Leads (State.safePowerUp s) := by
  unfold State.safePowerUp
  try dsimp only
  repeat' first
    | with_reducible exact h₀
    | with_reducible assumption
    | with_reducible apply setWord_leads
    | with_reducible apply setSafe_leads
    | with_reducible apply leads_foldl
    | (intro _ _; intro)
    | intro _ _
    | intro _
    | dsimp only
    | (with_reducible apply leads_mk; first | with_reducible exact h₀ | with_reducible assumption | with_reducible apply setWord_leads | with_reducible apply setSafe_leads | with_reducible apply leads_foldl | (intro _ _; intro) | intro _ _ | intro _ | dsimp only)

end Sys2Proof.Machine
end

