-- ==== Sys2Proof/Laws/Leads/Ana.lean ====
section
/-! SUPPORT. What every command keeps (`State.Leads`): the operations of Ana.lean. -/

namespace Sys2Proof.Machine

theorem setCmp_leads {a₀ s : State} (h₀ : a₀.Leads s) (c : Nat) (x : CmpX) : a₀.Leads (State.setCmp s c x) := by
  unfold State.setCmp
  try dsimp only
  repeat' first
    | with_reducible exact h₀
    | with_reducible assumption
    | with_reducible apply setAna_leads
    | dsimp only
    | (with_reducible apply leads_mk; first | with_reducible exact h₀ | with_reducible assumption | with_reducible apply setAna_leads | dsimp only)

theorem legTrip_leads {a₀ s : State} (h₀ : a₀.Leads s) (l : Nat) : a₀.Leads (State.legTrip s l) := by
  unfold State.legTrip
  repeat' first
    | with_reducible exact h₀
    | with_reducible apply setLegX_leads
    | with_reducible apply putSat_leads
    | with_reducible apply count_leads

theorem legClear_leads {a₀ s : State} (h₀ : a₀.Leads s) (l : Nat) : a₀.Leads (State.legClear s l) := by
  unfold State.legClear
  dsimp only
  repeat' first
    | with_reducible exact h₀
    | with_reducible apply setLegX_leads
    | split

theorem legRelease_leads {a₀ s : State} (h₀ : a₀.Leads s) (n : Nat) (l : Nat) (value : Word) (mask : Word) : a₀.Leads (State.legRelease s n l value mask).2 := by
  unfold State.legRelease
  dsimp only
  repeat' first
    | with_reducible exact h₀
    | with_reducible apply setLegX_leads
    | split

theorem tripSet_leads {a₀ s : State} (h₀ : a₀.Leads s) (c : Nat) : a₀.Leads (State.tripSet s c) := by
  unfold State.tripSet
  repeat' first
    | with_reducible exact h₀
    | with_reducible assumption
    | with_reducible apply put_leads
    | with_reducible apply count_leads
    | with_reducible apply legTrip_leads
    | with_reducible apply haltInject_leads
    | with_reducible apply leads_foldl
    | (intro _ _; intro)
    | split

theorem tripClear_leads {a₀ s : State} (h₀ : a₀.Leads s) (c : Nat) : a₀.Leads (State.tripClear s c) := by
  unfold State.tripClear
  repeat' first
    | with_reducible exact h₀
    | with_reducible assumption
    | with_reducible apply put_leads
    | with_reducible apply haltSourceClear_leads
    | with_reducible apply legClear_leads
    | with_reducible apply leads_foldl
    | (intro _ _; intro)

theorem cmpOut_leads {a₀ s : State} (h₀ : a₀.Leads s) (c : Nat) (active : Bool) : a₀.Leads (State.cmpOut s c active) := by
  unfold State.cmpOut
  try dsimp only
  repeat' first
    | with_reducible exact h₀
    | with_reducible assumption
    | with_reducible apply setCmp_leads
    | with_reducible apply tripSet_leads
    | with_reducible apply tripClear_leads
    | split
    | dsimp only
    | (with_reducible apply leads_mk; first | with_reducible exact h₀ | with_reducible assumption | with_reducible apply setCmp_leads | with_reducible apply tripSet_leads | with_reducible apply tripClear_leads | split | dsimp only)

theorem cmpUnsettle_leads {a₀ s : State} (h₀ : a₀.Leads s) (c : Nat) : a₀.Leads (State.cmpUnsettle s c) := by
  unfold State.cmpUnsettle
  dsimp only
  repeat' first
    | with_reducible exact h₀
    | with_reducible assumption
    | with_reducible apply put_leads
    | with_reducible apply putB_leads
    | with_reducible apply setCmp_leads
    | with_reducible apply setRing_leads
    | with_reducible apply leads_foldl
    | (intro _ _; intro)
    | split

theorem cmpSettle_leads {a₀ s : State} (h₀ : a₀.Leads s) (c : Nat) (active : Bool) : a₀.Leads (State.cmpSettle s c active) := by
  unfold State.cmpSettle
  try dsimp only
  repeat' first
    | with_reducible exact h₀
    | with_reducible assumption
    | with_reducible apply put_leads
    | with_reducible apply putB_leads
    | with_reducible apply setCmp_leads
    | with_reducible apply tripSet_leads
    | with_reducible apply tripClear_leads
    | with_reducible apply event_leads
    | split
    | dsimp only
    | (with_reducible apply leads_mk; first | with_reducible exact h₀ | with_reducible assumption | with_reducible apply put_leads | with_reducible apply putB_leads | with_reducible apply setCmp_leads | with_reducible apply tripSet_leads | with_reducible apply tripClear_leads | with_reducible apply event_leads | split | dsimp only)

theorem cmpStatWrite_leads {a₀ s : State} (h₀ : a₀.Leads s) (n : Nat) (c : Nat) (value : Word) (mask : Word) : a₀.Leads (State.cmpStatWrite s n c value mask).2 := by
  unfold State.cmpStatWrite
  dsimp only
  repeat' first
    | with_reducible exact h₀
    | with_reducible apply tripClear_leads
    | split

theorem cmpFreeze_leads {a₀ s : State} (h₀ : a₀.Leads s)  : a₀.Leads (State.cmpFreeze s) := by
  unfold State.cmpFreeze
  dsimp only
  repeat' first
    | with_reducible exact h₀
    | with_reducible assumption
    | with_reducible apply setCmp_leads
    | with_reducible apply leads_forN
    | (intro _ _; intro)
    | split

theorem setBsi_leads {a₀ s : State} (h₀ : a₀.Leads s) (b : Nat) (x : BsiX) : a₀.Leads (State.setBsi s b x) := by
  unfold State.setBsi
  try dsimp only
  repeat' first
    | with_reducible exact h₀
    | with_reducible assumption
    | with_reducible apply setAna_leads
    | dsimp only
    | (with_reducible apply leads_mk; first | with_reducible exact h₀ | with_reducible assumption | with_reducible apply setAna_leads | dsimp only)

theorem bsiFeed_leads {a₀ s : State} (h₀ : a₀.Leads s) (b : Nat) (label : Nat) : a₀.Leads (State.bsiFeed s b label) := by
  unfold State.bsiFeed
  dsimp only
  repeat' first
    | with_reducible exact h₀
    | with_reducible assumption
    | with_reducible apply bsiPoint_leads
    | with_reducible apply mtrSample_leads
    | with_reducible apply leads_forN
    | (intro _ _; intro)
    | split

theorem bsiEmit_leads {a₀ s : State} (h₀ : a₀.Leads s) (b : Nat) (i : Nat) : a₀.Leads (State.bsiEmit s b i) := by
  unfold State.bsiEmit
  try dsimp only
  repeat' first
    | with_reducible exact h₀
    | with_reducible assumption
    | with_reducible apply setBsi_leads
    | with_reducible apply bsiFeed_leads
    | split
    | with_reducible refine leads_of_snd (by assumption) ?_
    | with_reducible refine leads_of_fst (by assumption) ?_
    | dsimp only
    | (with_reducible apply leads_mk; first | with_reducible exact h₀ | with_reducible assumption | with_reducible apply setBsi_leads | with_reducible apply bsiFeed_leads | split | with_reducible refine leads_of_snd (by assumption) ?_ | with_reducible refine leads_of_fst (by assumption) ?_ | dsimp only)

theorem setIadc_leads {a₀ s : State} (h₀ : a₀.Leads s) (f : IadcSt → IadcSt) : a₀.Leads (State.setIadc s f) := by
  unfold State.setIadc
  try dsimp only
  repeat' first
    | with_reducible exact h₀
    | with_reducible assumption
    | with_reducible apply setAna_leads
    | dsimp only
    | (with_reducible apply leads_mk; first | with_reducible exact h₀ | with_reducible assumption | with_reducible apply setAna_leads | dsimp only)

theorem convStart_leads {a₀ s : State} (h₀ : a₀.Leads s) (entry : Option Nat) (ch : Nat) (gain : Nat) (len : Nat) : a₀.Leads (State.convStart s entry ch gain len) := by
  unfold State.convStart
  repeat' first
    | with_reducible exact h₀
    | with_reducible apply setIadc_leads

theorem convNext_leads {a₀ s : State} (h₀ : a₀.Leads s)  : a₀.Leads (State.convNext s) := by
  unfold State.convNext
  dsimp only
  repeat' first
    | with_reducible exact h₀
    | with_reducible apply setIadc_leads
    | with_reducible apply convStart_leads
    | with_reducible apply put_leads
    | split

theorem cpResult_leads {a₀ s : State} (h₀ : a₀.Leads s) (r : Int) : a₀.Leads (State.cpResult s r) := by
  unfold State.cpResult
  dsimp only
  repeat' first
    | with_reducible exact h₀
    | with_reducible apply setIadc_leads
    | with_reducible apply put_leads
    | with_reducible apply putS_leads
    | with_reducible apply setPwr_leads
    | with_reducible apply eventIf_leads
    | split

theorem convQueue_leads {a₀ s : State} (h₀ : a₀.Leads s) (c : Conv) (e : Nat) (res : Int) (excess : Bool) : a₀.Leads (State.convQueue s c e res excess) := by
  unfold State.convQueue
  dsimp only
  repeat' first
    | with_reducible exact h₀
    | with_reducible apply setWord_leads
    | with_reducible apply setIadc_leads
    | with_reducible apply eventIf_leads
    | with_reducible apply put_leads
    | with_reducible apply count_leads
    | split

theorem qLo_leads {a₀ s : State} (h₀ : a₀.Leads s) (n : Nat) (peek : Bool) : a₀.Leads (State.qLo s n peek).2 := by
  unfold State.qLo
  repeat' first
    | with_reducible exact h₀
    | with_reducible apply setSess_leads
    | split

theorem qHi_leads {a₀ s : State} (h₀ : a₀.Leads s) (n : Nat) (peek : Bool) : a₀.Leads (State.qHi s n peek).2 := by
  unfold State.qHi
  dsimp only
  repeat' first
    | with_reducible exact h₀
    | with_reducible apply setSess_leads
    | with_reducible apply setIadc_leads
    | with_reducible apply put_leads
    | split

theorem readAnswer_leads {a s : State} (h : a.Leads s) (n dom : Nat) (f : State → Word × State)
    (hf : ∀ s, a.Leads s → a.Leads (f s).2) : a.Leads (s.readAnswer n dom f) := by
  unfold State.readAnswer
  split
  · exact h
  · split
    · exact answer_leads h ..
    · exact answer_leads (hf s h) ..

theorem legFreeze_leads {a₀ s : State} (h₀ : a₀.Leads s)  : a₀.Leads (State.legFreeze s) := by
  unfold State.legFreeze
  repeat' first
    | with_reducible exact h₀
    | with_reducible assumption
    | with_reducible apply legHold_leads
    | with_reducible apply put_leads
    | with_reducible apply setLegX_leads
    | with_reducible apply eventIf_leads
    | with_reducible apply legGo_leads
    | with_reducible apply leads_forN
    | (intro _ _; intro)
    | split

theorem legAsk_leads {a₀ s : State} (h₀ : a₀.Leads s) (l : Nat) : a₀.Leads (State.legAsk s l) := by
  unfold State.legAsk
  try dsimp only
  repeat' first
    | with_reducible exact h₀
    | with_reducible assumption
    | with_reducible apply setLegX_leads
    | with_reducible apply legGo_leads
    | split
    | dsimp only
    | (with_reducible apply leads_mk; first | with_reducible exact h₀ | with_reducible assumption | with_reducible apply setLegX_leads | with_reducible apply legGo_leads | split | dsimp only)

theorem legStop_leads {a₀ s : State} (h₀ : a₀.Leads s) (l : Nat) : a₀.Leads (State.legStop s l) := by
  unfold State.legStop
  try dsimp only
  repeat' first
    | with_reducible exact h₀
    | with_reducible assumption
    | with_reducible apply put_leads
    | with_reducible apply setLegX_leads
    | with_reducible apply legGo_leads
    | split
    | with_reducible refine leads_of_snd (by assumption) ?_
    | with_reducible refine leads_of_fst (by assumption) ?_
    | dsimp only
    | (with_reducible apply leads_mk; first | with_reducible exact h₀ | with_reducible assumption | with_reducible apply put_leads | with_reducible apply setLegX_leads | with_reducible apply legGo_leads | split | with_reducible refine leads_of_snd (by assumption) ?_ | with_reducible refine leads_of_fst (by assumption) ?_ | dsimp only)

theorem legEnable_leads {a₀ s : State} (h₀ : a₀.Leads s) (n : Nat) (l : Nat) : a₀.Leads (State.legEnable s n l).2 := by
  unfold State.legEnable
  try dsimp only
  repeat' first
    | with_reducible exact h₀
    | with_reducible assumption
    | with_reducible apply legAsk_leads
    | with_reducible apply writeThen_leads
    | (intro _ _; intro)
    | intro _ _
    | intro _
    | split
    | dsimp only

theorem legDisable_leads {a₀ s : State} (h₀ : a₀.Leads s) (n : Nat) (l : Nat) : a₀.Leads (State.legDisable s n l).2 := by
  unfold State.legDisable
  try dsimp only
  repeat' first
    | with_reducible exact h₀
    | with_reducible assumption
    | with_reducible apply legStop_leads
    | with_reducible apply writeThen_leads
    | (intro _ _; intro)
    | intro _ _
    | intro _
    | dsimp only

theorem legUnlatch_leads {a₀ s : State} (h₀ : a₀.Leads s) (l : Nat) : a₀.Leads (State.legUnlatch s l) := by
  unfold State.legUnlatch
  dsimp only
  repeat' first
    | with_reducible exact h₀
    | with_reducible apply put_leads
    | with_reducible apply setLegX_leads
    | with_reducible apply legGo_leads
    | split

theorem anaOn_leads {a₀ s : State} (h₀ : a₀.Leads s) (fromOff : Bool) : a₀.Leads (State.anaOn s fromOff) := by
  unfold State.anaOn
  try dsimp only
  repeat' first
    | with_reducible exact h₀
    | with_reducible assumption
    | with_reducible apply put_leads
    | with_reducible apply setLegX_leads
    | with_reducible apply setAna_leads
    | with_reducible apply setIadc_leads
    | with_reducible apply setBsi_leads
    | with_reducible apply cmpUnsettle_leads
    | with_reducible apply leads_forN
    | (intro _ _; intro)
    | intro _ _
    | intro _
    | split
    | dsimp only
    | (with_reducible apply leads_mk; first | with_reducible exact h₀ | with_reducible assumption | with_reducible apply put_leads | with_reducible apply setLegX_leads | with_reducible apply setAna_leads | with_reducible apply setIadc_leads | with_reducible apply setBsi_leads | with_reducible apply cmpUnsettle_leads | with_reducible apply leads_forN | (intro _ _; intro) | intro _ _ | intro _ | split | dsimp only)

theorem cmpCommit_leads {a₀ s : State} (h₀ : a₀.Leads s) (old : State) (c : Nat) : a₀.Leads (State.cmpCommit s old c) := by
  unfold State.cmpCommit
  try dsimp only
  repeat' first
    | with_reducible exact h₀
    | with_reducible assumption
    | with_reducible apply cmpUnsettle_leads
    | split
    | dsimp only

theorem legCommit_leads {a₀ s : State} (h₀ : a₀.Leads s) (old : State) (l : Nat) : a₀.Leads (State.legCommit s old l) := by
  unfold State.legCommit
  try dsimp only
  repeat' first
    | with_reducible exact h₀
    | with_reducible assumption
    | with_reducible apply legAsk_leads
    | with_reducible apply legStop_leads
    | split
    | dsimp only

theorem anaCommit_leads {a₀ s : State} (h₀ : a₀.Leads s) (old : State) : a₀.Leads (State.anaCommit s old) := by
  unfold State.anaCommit
  try dsimp only
  repeat' first
    | with_reducible exact h₀
    | with_reducible assumption
    | with_reducible apply cmpCommit_leads
    | with_reducible apply legCommit_leads
    | with_reducible apply setIadc_leads
    | with_reducible apply putSat_leads
    | with_reducible apply setBsi_leads
    | with_reducible apply put_leads
    | with_reducible apply bsiGone_leads
    | with_reducible apply leads_forN
    | (intro _ _; intro)
    | intro _ _
    | intro _
    | split
    | dsimp only
    | (with_reducible apply leads_mk; first | with_reducible exact h₀ | with_reducible assumption | with_reducible apply cmpCommit_leads | with_reducible apply legCommit_leads | with_reducible apply setIadc_leads | with_reducible apply putSat_leads | with_reducible apply setBsi_leads | with_reducible apply put_leads | with_reducible apply bsiGone_leads | with_reducible apply leads_forN | (intro _ _; intro) | intro _ _ | intro _ | split | dsimp only)

end Sys2Proof.Machine
end

