-- ==== Sys2Proof/Laws/Leads/Sess.lean ====
section
/-! SUPPORT. What every command keeps (`State.Leads`): the operations of Sess.lean. -/

namespace Sys2Proof.Machine

theorem clearKey_leads {a₀ s : State} (h₀ : a₀.Leads s)  : a₀.Leads (State.clearKey s) := by
  unfold State.clearKey
  try dsimp only
  repeat' first
    | with_reducible exact h₀
    | with_reducible assumption
    | with_reducible apply setStart_leads
    | dsimp only
    | (with_reducible apply leads_mk; first | with_reducible exact h₀ | with_reducible assumption | with_reducible apply setStart_leads | dsimp only)

theorem endOpener_leads {a₀ s : State} (h₀ : a₀.Leads s)  : a₀.Leads (State.endOpener s) := by
  unfold State.endOpener
  try dsimp only
  repeat' first
    | with_reducible exact h₀
    | with_reducible assumption
    | with_reducible apply setStart_leads
    | dsimp only
    | (with_reducible apply leads_mk; first | with_reducible exact h₀ | with_reducible assumption | with_reducible apply setStart_leads | dsimp only)

theorem closeSession_leads {a₀ s : State} (h₀ : a₀.Leads s) (n : Nat) (cause : Nat) : a₀.Leads (State.closeSession s n cause) := by
  unfold State.closeSession
  dsimp only
  repeat' first
    | with_reducible exact h₀
    | with_reducible assumption
    | with_reducible apply pourAbort_leads
    | with_reducible apply clearKey_leads
    | with_reducible apply endOpener_leads
    | with_reducible apply setSess_leads
    | with_reducible apply setPour_leads
    | with_reducible apply setPslot_leads
    | with_reducible apply event_leads
    | with_reducible apply leads_forN
    | (intro _ _; intro)
    | split

end Sys2Proof.Machine
end

