-- ==== Sys2Proof/Laws/Leads/Log.lean ====
section
/-! SUPPORT. What every command keeps (`State.Leads`): the operations of Log.lean. -/

namespace Sys2Proof.Machine

theorem logCopy_leads {a₀ s : State} (h₀ : a₀.Leads s) (newest : Nat) : a₀.Leads (State.logCopy s newest) := by
  unfold State.logCopy
  try dsimp only
  repeat' first
    | with_reducible exact h₀
    | with_reducible assumption
    | with_reducible apply takeLog_leads
    | with_reducible apply eventIf_leads
    | with_reducible apply leads_foldl
    | (intro _ _; intro)
    | intro _ _
    | intro _
    | split
    | with_reducible refine leads_of_snd (by assumption) ?_
    | with_reducible refine leads_of_fst (by assumption) ?_
    | dsimp only
    | (with_reducible apply leads_mk; first | with_reducible exact h₀ | with_reducible assumption | with_reducible apply takeLog_leads | with_reducible apply eventIf_leads | with_reducible apply leads_foldl | (intro _ _; intro) | intro _ _ | intro _ | split | with_reducible refine leads_of_snd (by assumption) ?_ | with_reducible refine leads_of_fst (by assumption) ?_ | dsimp only)

theorem logStart_leads {a₀ s : State} (h₀ : a₀.Leads s)  : a₀.Leads (State.logStart s) := by
  unfold State.logStart
  try dsimp only
  repeat' first
    | with_reducible exact h₀
    | with_reducible assumption
    | with_reducible apply setLog_leads
    | with_reducible apply logCopy_leads
    | split
    | dsimp only
    | (with_reducible apply leads_mk; first | with_reducible exact h₀ | with_reducible assumption | with_reducible apply setLog_leads | with_reducible apply logCopy_leads | split | dsimp only)

theorem logCmd_leads {a₀ s : State} (h₀ : a₀.Leads s) (n : Nat) (value : Word) (mask : Word) : a₀.Leads (State.logCmd s n value mask).2 := by
  unfold State.logCmd
  try dsimp only
  repeat' first
    | with_reducible exact h₀
    | with_reducible assumption
    | with_reducible apply setLog_leads
    | with_reducible apply writeIf_leads
    | (intro _ _; intro)
    | intro _ _
    | intro _
    | split
    | dsimp only
    | (with_reducible apply leads_mk; first | with_reducible exact h₀ | with_reducible assumption | with_reducible apply setLog_leads | with_reducible apply writeIf_leads | (intro _ _; intro) | intro _ _ | intro _ | split | dsimp only)

theorem grindHit_leads {a₀ s : State} (h₀ : a₀.Leads s) (h : GrindHit) : a₀.Leads (State.grindHit s h) := by
  unfold State.grindHit
  try dsimp only
  repeat' first
    | with_reducible exact h₀
    | with_reducible assumption
    | with_reducible apply laneUncorr_leads
    | with_reducible apply put_leads
    | with_reducible apply setRec_leads
    | with_reducible apply setLog_leads
    | split
    | with_reducible refine leads_of_snd (by assumption) ?_
    | with_reducible refine leads_of_fst (by assumption) ?_
    | dsimp only
    | (with_reducible apply leads_mk; first | with_reducible exact h₀ | with_reducible assumption | with_reducible apply laneUncorr_leads | with_reducible apply put_leads | with_reducible apply setRec_leads | with_reducible apply setLog_leads | split | with_reducible refine leads_of_snd (by assumption) ?_ | with_reducible refine leads_of_fst (by assumption) ?_ | dsimp only)

theorem laneCorr_leads {a₀ s : State} (h₀ : a₀.Leads s) (l : List (Nat × Nat)) : a₀.Leads (State.laneCorr s l) := by
  unfold State.laneCorr
  repeat' first
    | with_reducible exact h₀
    | with_reducible assumption
    | with_reducible apply count_leads
    | with_reducible apply event_leads
    | with_reducible apply leads_foldl
    | (intro _ _; intro)

end Sys2Proof.Machine
end

