-- ==== Sys2Proof/Laws/Leads/Power.lean ====
section
/-! SUPPORT. What every command keeps (`State.Leads`): the operations of Power.lean. -/

namespace Sys2Proof.Machine

theorem setDom_leads {a₀ s : State} (h₀ : a₀.Leads s) (d : Nat) (st : Nat) : a₀.Leads (State.setDom s d st) := by
  unfold State.setDom
  repeat' first
    | with_reducible exact h₀
    | with_reducible apply put_leads

theorem pwrEvent_leads {a₀ s : State} (h₀ : a₀.Leads s) (d : Nat) (from_ : Nat) (dest : Nat) (cause : Nat) : a₀.Leads (State.pwrEvent s d from_ dest cause) := by
  unfold State.pwrEvent
  repeat' first
    | with_reducible exact h₀
    | with_reducible apply event_leads

theorem dropDomain_leads {a₀ s : State} (h₀ : a₀.Leads s) (d : Nat) : a₀.Leads (State.dropDomain s d) := by
  unfold State.dropDomain
  dsimp only
  split
  · exact put_leads (put_leads (leads_regs_filter h₀ _) ..) ..
  · exact leads_regs_filter h₀ _

theorem clkDown_leads {a₀ s : State} (h₀ : a₀.Leads s)  : a₀.Leads (State.clkDown s) := by
  unfold State.clkDown
  try dsimp only
  repeat' first
    | with_reducible exact h₀
    | with_reducible assumption
    | with_reducible apply countLife_leads
    | with_reducible apply setClk_leads
    | with_reducible apply setLink_leads
    | with_reducible apply put_leads
    | dsimp only
    | (with_reducible apply leads_mk; first | with_reducible exact h₀ | with_reducible assumption | with_reducible apply countLife_leads | with_reducible apply setClk_leads | with_reducible apply setLink_leads | with_reducible apply put_leads | dsimp only)

theorem laneDown_leads {a₀ s : State} (h₀ : a₀.Leads s) (l : Nat) : a₀.Leads (State.laneDown s l) := by
  unfold State.laneDown
  repeat' first
    | with_reducible exact h₀
    | with_reducible apply excludeLane_leads
    | with_reducible apply put_leads
    | with_reducible apply showLanes_leads
    | split

theorem voteLost_leads {a₀ s : State} (h₀ : a₀.Leads s)  : a₀.Leads (State.voteLost s) := by
  unfold State.voteLost
  try dsimp only
  repeat' first
    | with_reducible exact h₀
    | with_reducible assumption
    | with_reducible apply setCells_leads
    | with_reducible apply setEng_leads
    | with_reducible apply setGrid_leads
    | with_reducible apply setMppt_leads
    | with_reducible apply setFrt_leads
    | with_reducible apply setLanes_leads
    | with_reducible apply setPour_leads
    | with_reducible apply setWear_leads
    | with_reducible apply setLink_leads
    | with_reducible apply setSess_leads
    | with_reducible apply leads_forN
    | (intro _ _; intro)
    | intro _ _
    | intro _
    | dsimp only
    | (with_reducible apply leads_mk; first | with_reducible exact h₀ | with_reducible assumption | with_reducible apply setCells_leads | with_reducible apply setEng_leads | with_reducible apply setGrid_leads | with_reducible apply setMppt_leads | with_reducible apply setFrt_leads | with_reducible apply setLanes_leads | with_reducible apply setPour_leads | with_reducible apply setWear_leads | with_reducible apply setLink_leads | with_reducible apply setSess_leads | with_reducible apply leads_forN | (intro _ _; intro) | intro _ _ | intro _ | dsimp only)

theorem busDown_leads {a₀ s : State} (h₀ : a₀.Leads s)  : a₀.Leads (State.busDown s) := by
  unfold State.busDown
  try dsimp only
  repeat' first
    | with_reducible exact h₀
    | with_reducible assumption
    | with_reducible apply mtrSave_leads
    | with_reducible apply put_leads
    | with_reducible apply leads_forN
    | (intro _ _; intro)
    | intro _ _
    | intro _
    | dsimp only

theorem anaDown_leads {a₀ s : State} (h₀ : a₀.Leads s)  : a₀.Leads (State.anaDown s) := by
  unfold State.anaDown
  repeat' first
    | with_reducible exact h₀
    | with_reducible assumption
    | with_reducible apply bsiGone_leads
    | with_reducible apply setIadc_leads
    | with_reducible apply leads_forN
    | (intro _ _; intro)
    | split

theorem sideDown_leads {a₀ s : State} (h₀ : a₀.Leads s) (d : Nat) : a₀.Leads (State.sideDown s d) := by
  unfold State.sideDown
  try dsimp only
  repeat' first
    | with_reducible exact h₀
    | with_reducible assumption
    | with_reducible apply clkDown_leads
    | with_reducible apply laneDown_leads
    | with_reducible apply setLink_leads
    | with_reducible apply closeSession_leads
    | with_reducible apply busDown_leads
    | with_reducible apply recPower_leads
    | with_reducible apply anaDown_leads
    | with_reducible apply ringDisable_leads
    | with_reducible apply leads_forN
    | (intro _ _; intro)
    | intro _ _
    | intro _
    | split
    | with_reducible refine leads_of_snd (by assumption) ?_
    | with_reducible refine leads_of_fst (by assumption) ?_
    | dsimp only
    | (with_reducible apply leads_mk; first | with_reducible exact h₀ | with_reducible assumption | with_reducible apply clkDown_leads | with_reducible apply laneDown_leads | with_reducible apply setLink_leads | with_reducible apply closeSession_leads | with_reducible apply busDown_leads | with_reducible apply recPower_leads | with_reducible apply anaDown_leads | with_reducible apply ringDisable_leads | with_reducible apply leads_forN | (intro _ _; intro) | intro _ _ | intro _ | split | with_reducible refine leads_of_snd (by assumption) ?_ | with_reducible refine leads_of_fst (by assumption) ?_ | dsimp only)

theorem sideLost_leads {a₀ s : State} (h₀ : a₀.Leads s) (d : Nat) : a₀.Leads (State.sideLost s d) := by
  unfold State.sideLost
  try dsimp only
  repeat' first
    | with_reducible exact h₀
    | with_reducible assumption
    | with_reducible apply voteLost_leads
    | with_reducible apply setMgmt_leads
    | with_reducible apply setStart_leads
    | with_reducible apply setBus_leads
    | with_reducible apply setMtr_leads
    | with_reducible apply dramOff_leads
    | with_reducible apply setRing_leads
    | split
    | with_reducible refine leads_of_snd (by assumption) ?_
    | with_reducible refine leads_of_fst (by assumption) ?_
    | dsimp only
    | (with_reducible apply leads_mk; first | with_reducible exact h₀ | with_reducible assumption | with_reducible apply voteLost_leads | with_reducible apply setMgmt_leads | with_reducible apply setStart_leads | with_reducible apply setBus_leads | with_reducible apply setMtr_leads | with_reducible apply dramOff_leads | with_reducible apply setRing_leads | split | with_reducible refine leads_of_snd (by assumption) ?_ | with_reducible refine leads_of_fst (by assumption) ?_ | dsimp only)

theorem domainDown_leads {a₀ s : State} (h₀ : a₀.Leads s) (d : Nat) (dest : Nat) (cause : Nat) : a₀.Leads (State.domainDown s d dest cause) := by
  unfold State.domainDown
  try dsimp only
  repeat' first
    | with_reducible exact h₀
    | with_reducible assumption
    | with_reducible apply sideDown_leads
    | with_reducible apply sideLost_leads
    | with_reducible apply setPwr_leads
    | with_reducible apply dropDomain_leads
    | with_reducible apply setDom_leads
    | with_reducible apply pwrEvent_leads
    | split
    | dsimp only
    | (with_reducible apply leads_mk; first | with_reducible exact h₀ | with_reducible assumption | with_reducible apply sideDown_leads | with_reducible apply sideLost_leads | with_reducible apply setPwr_leads | with_reducible apply dropDomain_leads | with_reducible apply setDom_leads | with_reducible apply pwrEvent_leads | split | dsimp only)

theorem allOff_leads {a₀ s : State} (h₀ : a₀.Leads s) (cause : Nat) : a₀.Leads (State.allOff s cause) := by
  unfold State.allOff
  repeat' first
    | with_reducible exact h₀
    | with_reducible assumption
    | with_reducible apply domainDown_leads
    | with_reducible apply setPwr_leads
    | with_reducible apply leads_foldl
    | (intro _ _; intro)

theorem startPlan_leads {a₀ s : State} (h₀ : a₀.Leads s) (ds : List Nat) (cause : Nat) : a₀.Leads (State.startPlan s ds cause) := by
  unfold State.startPlan
  dsimp only
  repeat' first
    | with_reducible exact h₀
    | with_reducible assumption
    | with_reducible apply setDom_leads
    | with_reducible apply setPwr_leads
    | with_reducible apply leads_foldl
    | (intro _ _; intro)
    | split

theorem lanesUp_leads {a₀ s : State} (h₀ : a₀.Leads s)  : a₀.Leads (State.lanesUp s) := by
  unfold State.lanesUp
  repeat' first
    | with_reducible exact h₀
    | with_reducible apply startRestart_leads
    | split

theorem bootXspi_leads {a₀ s : State} (h₀ : a₀.Leads s)  : a₀.Leads (State.bootXspi s) := by
  unfold State.bootXspi
  repeat' first
    | with_reducible exact h₀
    | with_reducible apply put_leads
    | split

theorem showBoot_leads {a₀ s : State} (h₀ : a₀.Leads s)  : a₀.Leads (State.showBoot s) := by
  unfold State.showBoot
  repeat' first
    | with_reducible exact h₀
    | with_reducible apply put_leads
    | with_reducible apply putB_leads

theorem setBoot_leads {a₀ s : State} (h₀ : a₀.Leads s) (b : BootRec) : a₀.Leads (State.setBoot s b) := by
  unfold State.setBoot
  try dsimp only
  repeat' first
    | with_reducible exact h₀
    | with_reducible assumption
    | with_reducible apply setStart_leads
    | with_reducible apply showBoot_leads
    | dsimp only
    | (with_reducible apply leads_mk; first | with_reducible exact h₀ | with_reducible assumption | with_reducible apply setStart_leads | with_reducible apply showBoot_leads | dsimp only)

theorem chooseSlot_leads {a₀ s : State} (h₀ : a₀.Leads s)  : a₀.Leads (State.chooseSlot s) := by
  unfold State.chooseSlot
  try dsimp only
  repeat' first
    | with_reducible exact h₀
    | with_reducible assumption
    | with_reducible apply setBoot_leads
    | with_reducible apply event_leads
    | with_reducible apply showBoot_leads
    | with_reducible apply setStart_leads
    | with_reducible apply put_leads
    | split
    | dsimp only
    | (with_reducible apply leads_mk; first | with_reducible exact h₀ | with_reducible assumption | with_reducible apply setBoot_leads | with_reducible apply event_leads | with_reducible apply showBoot_leads | with_reducible apply setStart_leads | with_reducible apply put_leads | split | dsimp only)

theorem bootVote_leads {a₀ s : State} (h₀ : a₀.Leads s)  : a₀.Leads (State.bootVote s) := by
  unfold State.bootVote
  try dsimp only
  repeat' first
    | with_reducible exact h₀
    | with_reducible assumption
    | with_reducible apply put_leads
    | with_reducible apply showBoot_leads
    | with_reducible apply chooseSlot_leads
    | with_reducible apply setStart_leads
    | split
    | dsimp only
    | (with_reducible apply leads_mk; first | with_reducible exact h₀ | with_reducible assumption | with_reducible apply put_leads | with_reducible apply showBoot_leads | with_reducible apply chooseSlot_leads | with_reducible apply setStart_leads | split | dsimp only)

theorem clkUp_leads {a₀ s : State} (h₀ : a₀.Leads s) (off : Bool) : a₀.Leads (State.clkUp s off) := by
  unfold State.clkUp
  try dsimp only
  repeat' first
    | with_reducible exact h₀
    | with_reducible assumption
    | with_reducible apply put_leads
    | with_reducible apply showUtc_leads
    | with_reducible apply setClk_leads
    | with_reducible apply outStarts_leads
    | with_reducible apply leads_forN
    | (intro _ _; intro)
    | intro _ _
    | intro _
    | split
    | dsimp only
    | (with_reducible apply leads_mk; first | with_reducible exact h₀ | with_reducible assumption | with_reducible apply put_leads | with_reducible apply showUtc_leads | with_reducible apply setClk_leads | with_reducible apply outStarts_leads | with_reducible apply leads_forN | (intro _ _; intro) | intro _ _ | intro _ | split | dsimp only)

theorem mgmtOn_leads {a₀ s : State} (h₀ : a₀.Leads s) (off : Bool) : a₀.Leads (State.mgmtOn s off) := by
  unfold State.mgmtOn
  try dsimp only
  repeat' first
    | with_reducible exact h₀
    | with_reducible assumption
    | with_reducible apply setPwr_leads
    | with_reducible apply logStart_leads
    | with_reducible apply event_leads
    | with_reducible apply setStart_leads
    | split
    | dsimp only
    | (with_reducible apply leads_mk; first | with_reducible exact h₀ | with_reducible assumption | with_reducible apply setPwr_leads | with_reducible apply logStart_leads | with_reducible apply event_leads | with_reducible apply setStart_leads | split | dsimp only)

theorem busUp_leads {a₀ s : State} (h₀ : a₀.Leads s) (off : Bool) : a₀.Leads (State.busUp s off) := by
  unfold State.busUp
  repeat' first
    | with_reducible exact h₀
    | with_reducible assumption
    | with_reducible apply put_leads
    | with_reducible apply mtrRestore_leads
    | with_reducible apply mtrSlept_leads
    | with_reducible apply leads_forN
    | (intro _ _; intro)
    | split

theorem laneUp_leads {a₀ s : State} (h₀ : a₀.Leads s) (l : Nat) (off : Bool) : a₀.Leads (State.laneUp s l off) := by
  unfold State.laneUp
  try dsimp only
  repeat' first
    | with_reducible exact h₀
    | with_reducible assumption
    | with_reducible apply put_leads
    | with_reducible apply setLane_leads
    | split
    | dsimp only
    | (with_reducible apply leads_mk; first | with_reducible exact h₀ | with_reducible assumption | with_reducible apply put_leads | with_reducible apply setLane_leads | split | dsimp only)

theorem sideUp_leads {a₀ s : State} (h₀ : a₀.Leads s) (d : Nat) (off : Bool) : a₀.Leads (State.sideUp s d off) := by
  unfold State.sideUp
  try dsimp only
  repeat' first
    | with_reducible exact h₀
    | with_reducible assumption
    | with_reducible apply clkUp_leads
    | with_reducible apply laneUp_leads
    | with_reducible apply bootVote_leads
    | with_reducible apply mgmtOn_leads
    | with_reducible apply busUp_leads
    | with_reducible apply recPower_leads
    | with_reducible apply anaOn_leads
    | with_reducible apply bootXspi_leads
    | with_reducible apply startDiscovery_leads
    | split
    | with_reducible refine leads_of_snd (by assumption) ?_
    | with_reducible refine leads_of_fst (by assumption) ?_
    | dsimp only

theorem domainUp_leads {a₀ s : State} (h₀ : a₀.Leads s) (d : Nat) (cause : Nat) : a₀.Leads (State.domainUp s d cause) := by
  unfold State.domainUp
  repeat' first
    | with_reducible exact h₀
    | with_reducible apply setPwr_leads
    | with_reducible apply setDom_leads
    | with_reducible apply pwrEvent_leads
    | with_reducible apply sideUp_leads

theorem wakeCheck_leads {a₀ s : State} (h₀ : a₀.Leads s)  : a₀.Leads (State.wakeCheck s) := by
  unfold State.wakeCheck
  repeat' first
    | with_reducible exact h₀
    | with_reducible apply putSat_leads
    | with_reducible apply countWrap_leads
    | with_reducible apply setPwr_leads
    | with_reducible apply event_leads
    | split

theorem wakeGo_leads {a₀ s : State} (h₀ : a₀.Leads s)  : a₀.Leads (State.wakeGo s) := by
  unfold State.wakeGo
  repeat' first
    | with_reducible exact h₀
    | with_reducible apply startPlan_leads
    | with_reducible apply wakeCheck_leads
    | split

theorem nextStep_leads {a₀ s : State} (h₀ : a₀.Leads s)  : a₀.Leads (State.nextStep s) := by
  unfold State.nextStep
  repeat' first
    | with_reducible exact h₀
    | with_reducible apply setPwr_leads
    | with_reducible apply lanesUp_leads
    | with_reducible apply wakeCheck_leads

theorem planDrop_leads {a₀ s : State} (h₀ : a₀.Leads s) (ds : List Nat) : a₀.Leads (State.planDrop s ds) := by
  unfold State.planDrop
  repeat' first
    | with_reducible exact h₀
    | with_reducible apply setPwr_leads

theorem prepare_leads {a₀ s : State} (h₀ : a₀.Leads s) (d : Nat) (target : Nat) : a₀.Leads (State.prepare s d target) := by
  unfold State.prepare
  dsimp only
  repeat' first
    | with_reducible exact h₀
    | with_reducible assumption
    | with_reducible apply setDom_leads
    | with_reducible apply setPwr_leads
    | with_reducible apply excludeLane_leads
    | with_reducible apply wearWrite_leads
    | with_reducible apply closeSession_leads
    | with_reducible apply sync_leads
    | with_reducible apply leads_foldl
    | with_reducible apply leads_forN
    | (intro _ _; intro)
    | split

theorem pwrGo_leads {a₀ s : State} (h₀ : a₀.Leads s) (d : Nat) (target : Nat) : a₀.Leads (State.pwrGo s d target) := by
  unfold State.pwrGo
  repeat' first
    | with_reducible exact h₀
    | with_reducible apply startPlan_leads
    | with_reducible apply prepare_leads
    | with_reducible apply domainDown_leads
    | split

theorem pwrReq_leads {a₀ s : State} (h₀ : a₀.Leads s) (n : Nat) (value : Word) (mask : Word) : a₀.Leads (State.pwrReq s n value mask).2 := by
  unfold State.pwrReq
  dsimp only
  repeat' first
    | with_reducible exact h₀
    | with_reducible assumption
    | with_reducible apply put_leads
    | with_reducible apply event_leads
    | with_reducible apply pwrGo_leads
    | with_reducible apply writeThen_leads
    | intro _ _
    | split

theorem pwrReqBy_leads {a₀ s : State} (h₀ : a₀.Leads s) (n : Nat) (d : Nat) (target : Nat) : a₀.Leads (State.pwrReqBy s n d target) := by
  unfold State.pwrReqBy
  repeat' first
    | with_reducible exact h₀
    | with_reducible assumption
    | with_reducible apply pwrReq_leads
    | with_reducible apply access_leads
    | intro _ _

theorem timeLost_leads {a₀ s : State} (h₀ : a₀.Leads s)  : a₀.Leads (State.timeLost s) := by
  unfold State.timeLost
  try dsimp only
  repeat' first
    | with_reducible exact h₀
    | with_reducible assumption
    | with_reducible apply setClk_leads
    | with_reducible apply put_leads
    | with_reducible apply setMtr_leads
    | with_reducible apply event_leads
    | dsimp only
    | (with_reducible apply leads_mk; first | with_reducible exact h₀ | with_reducible assumption | with_reducible apply setClk_leads | with_reducible apply put_leads | with_reducible apply setMtr_leads | with_reducible apply event_leads | dsimp only)

theorem areaLost_leads {a₀ s : State} (h₀ : a₀.Leads s) (area : Nat) : a₀.Leads (State.areaLost s area) := by
  unfold State.areaLost
  try dsimp only
  repeat' first
    | with_reducible exact h₀
    | with_reducible assumption
    | with_reducible apply timeLost_leads
    | with_reducible apply put64_leads
    | with_reducible apply put_leads
    | with_reducible apply setRec_leads
    | with_reducible apply setMtr_leads
    | with_reducible apply setPwr_leads
    | with_reducible apply setLog_leads
    | with_reducible apply setStart_leads
    | with_reducible apply leads_forN
    | (intro _ _; intro)
    | intro _ _
    | intro _
    | split
    | with_reducible refine leads_of_snd (by assumption) ?_
    | with_reducible refine leads_of_fst (by assumption) ?_
    | dsimp only
    | (with_reducible apply leads_mk; first | with_reducible exact h₀ | with_reducible assumption | with_reducible apply timeLost_leads | with_reducible apply put64_leads | with_reducible apply put_leads | with_reducible apply setRec_leads | with_reducible apply setMtr_leads | with_reducible apply setPwr_leads | with_reducible apply setLog_leads | with_reducible apply setStart_leads | with_reducible apply leads_forN | (intro _ _; intro) | intro _ _ | intro _ | split | with_reducible refine leads_of_snd (by assumption) ?_ | with_reducible refine leads_of_fst (by assumption) ?_ | dsimp only)

theorem cremaCheck_leads {a₀ s : State} (h₀ : a₀.Leads s) (fails : Nat) : a₀.Leads (State.cremaCheck s fails) := by
  unfold State.cremaCheck
  try dsimp only
  repeat' first
    | with_reducible exact h₀
    | with_reducible assumption
    | with_reducible apply areaLost_leads
    | with_reducible apply put_leads
    | with_reducible apply event_leads
    | with_reducible apply leads_forN
    | (intro _ _; intro)
    | intro _ _
    | intro _
    | split
    | dsimp only

theorem cremaStart_leads {a₀ s : State} (h₀ : a₀.Leads s)  : a₀.Leads (State.cremaStart s) := by
  unfold State.cremaStart
  try dsimp only
  repeat' first
    | with_reducible exact h₀
    | with_reducible assumption
    | with_reducible apply setPwr_leads
    | with_reducible apply setDom_leads
    | with_reducible apply event_leads
    | with_reducible apply cremaCheck_leads
    | dsimp only
    | (with_reducible apply leads_mk; first | with_reducible exact h₀ | with_reducible assumption | with_reducible apply setPwr_leads | with_reducible apply setDom_leads | with_reducible apply event_leads | with_reducible apply cremaCheck_leads | dsimp only)

theorem cremaSrc_leads {a₀ s : State} (h₀ : a₀.Leads s)  : a₀.Leads (State.cremaSrc s) := by
  unfold State.cremaSrc
  repeat' first
    | with_reducible exact h₀
    | with_reducible apply put_leads

theorem cellSource_leads {a₀ s : State} (h₀ : a₀.Leads s)  : a₀.Leads (State.cellSource s) := by
  unfold State.cellSource
  dsimp only
  repeat' first
    | with_reducible exact h₀
    | with_reducible apply put_leads
    | with_reducible apply setPwr_leads
    | split

theorem coldStart_leads {a₀ s : State} (h₀ : a₀.Leads s) (bootMon : Bool) (testEn : Bool) : a₀.Leads (State.coldStart s bootMon testEn) := by
  unfold State.coldStart
  try dsimp only
  repeat' first
    | with_reducible exact h₀
    | with_reducible assumption
    | with_reducible apply setStart_leads
    | with_reducible apply startPlan_leads
    | split
    | dsimp only
    | (with_reducible apply leads_mk; first | with_reducible exact h₀ | with_reducible assumption | with_reducible apply setStart_leads | with_reducible apply startPlan_leads | split | dsimp only)

theorem capResult_leads {a₀ s : State} (h₀ : a₀.Leads s) (uAh : Nat) : a₀.Leads (State.capResult s uAh) := by
  unfold State.capResult
  repeat' first
    | with_reducible exact h₀
    | with_reducible apply putSat_leads
    | with_reducible apply count_leads
    | with_reducible apply setPwr_leads

theorem startCharge_leads {a₀ s : State} (h₀ : a₀.Leads s)  : a₀.Leads (State.startCharge s) := by
  unfold State.startCharge
  dsimp only
  repeat' first
    | with_reducible exact h₀
    | with_reducible apply put_leads
    | with_reducible apply setPwr_leads
    | split

theorem shutdown_leads {a₀ s : State} (h₀ : a₀.Leads s) (d : Nat) (est : Int) : a₀.Leads (State.shutdown s d est) := by
  unfold State.shutdown
  repeat' first
    | with_reducible exact h₀
    | with_reducible assumption
    | with_reducible apply event_leads
    | with_reducible apply planDrop_leads
    | with_reducible apply domainDown_leads
    | with_reducible apply setPwr_leads
    | with_reducible apply put_leads
    | with_reducible apply count_leads
    | with_reducible apply wakeCheck_leads
    | with_reducible apply leads_foldl
    | (intro _ _; intro)
    | split

theorem thmRegion_leads {a₀ s : State} (h₀ : a₀.Leads s) (d : Nat) (p : Nat) : a₀.Leads (State.thmRegion s d p) := by
  unfold State.thmRegion
  dsimp only
  repeat' first
    | with_reducible exact h₀
    | with_reducible apply setPwr_leads
    | with_reducible apply putSat_leads
    | with_reducible apply putS_leads
    | with_reducible apply put_leads
    | with_reducible apply putB_leads
    | with_reducible apply eventIf_leads
    | with_reducible apply shutdown_leads
    | split

theorem handPeers_leads {a₀ s : State} (h₀ : a₀.Leads s) (ds : List Nat) : a₀.Leads (State.handPeers s ds) := by
  unfold State.handPeers
  try dsimp only
  repeat' first
    | with_reducible exact h₀
    | with_reducible assumption
    | with_reducible apply setPwr_leads
    | split
    | with_reducible refine leads_of_snd (by assumption) ?_
    | with_reducible refine leads_of_fst (by assumption) ?_
    | dsimp only
    | (with_reducible apply leads_mk; first | with_reducible exact h₀ | with_reducible assumption | with_reducible apply setPwr_leads | split | with_reducible refine leads_of_snd (by assumption) ?_ | with_reducible refine leads_of_fst (by assumption) ?_ | dsimp only)

theorem thmPeak_leads {a₀ s : State} (h₀ : a₀.Leads s) (d : Nat) : a₀.Leads (State.thmPeak s d).2 := by
  unfold State.thmPeak
  repeat' first
    | with_reducible exact h₀
    | with_reducible apply put_leads

end Sys2Proof.Machine
end

