-- ==== Sys2Proof/Laws/Leads/Commit.lean ====
section
/-! SUPPORT. What every command keeps (`State.Leads`): the operations of Commit.lean. -/

namespace Sys2Proof.Machine

theorem applyOne_leads {a₀ s : State} (h₀ : a₀.Leads s) (w : PWrite) : a₀.Leads (State.applyOne s w) := by
  unfold State.applyOne
  repeat' first
    | with_reducible exact h₀
    | with_reducible apply setWord_leads
    | split

theorem applyOn_leads {a₀ s : State} (h₀ : a₀.Leads s) (w : PWrite) : a₀.Leads (State.applyOn s w) := by
  unfold State.applyOn
  repeat' first
    | with_reducible exact h₀
    | with_reducible apply applyOne_leads
    | split

theorem logCheck_leads {a₀ s : State} (h₀ : a₀.Leads s) (e : CfgErr) : a₀.Leads (State.logCheck s e) := by
  unfold State.logCheck
  repeat' first
    | with_reducible exact h₀
    | with_reducible apply event_leads
    | split

theorem reparam_leads {a₀ s : State} (h₀ : a₀.Leads s) (old : State) (k : Nat) : a₀.Leads (State.reparam s old k) := by
  unfold State.reparam
  dsimp only
  repeat' first
    | with_reducible exact h₀
    | with_reducible assumption
    | with_reducible apply mbxPost_leads
    | with_reducible apply setCellX_leads
    | with_reducible apply leads_foldl
    | (intro _ _; intro)
    | split

theorem clampDebt_leads {a₀ s : State} (h₀ : a₀.Leads s) (k : Nat) : a₀.Leads (State.clampDebt s k) := by
  unfold State.clampDebt
  dsimp only
  repeat' first
    | with_reducible exact h₀
    | with_reducible apply putS_leads
    | split

theorem mixStart_leads {a₀ s : State} (h₀ : a₀.Leads s) (c : Nat) (tc : Nat) : a₀.Leads (State.mixStart s c tc) := by
  unfold State.mixStart
  try dsimp only
  repeat' first
    | with_reducible exact h₀
    | with_reducible assumption
    | with_reducible apply setEng_leads
    | with_reducible apply put_leads
    | with_reducible apply leads_foldl
    | (intro _ _; intro)
    | intro _ _
    | intro _
    | dsimp only
    | (with_reducible apply leads_mk; first | with_reducible exact h₀ | with_reducible assumption | with_reducible apply setEng_leads | with_reducible apply put_leads | with_reducible apply leads_foldl | (intro _ _; intro) | intro _ _ | intro _ | dsimp only)

theorem commitCluster_leads {a₀ s : State} (h₀ : a₀.Leads s) (old : State) (tc : Nat) (c : Nat) : a₀.Leads (State.commitCluster s old tc c) := by
  unfold State.commitCluster
  try dsimp only
  repeat' first
    | with_reducible exact h₀
    | with_reducible assumption
    | with_reducible apply setOffsets_leads
    | with_reducible apply respread_leads
    | with_reducible apply put_leads
    | with_reducible apply carrierChange_leads
    | with_reducible apply mixStart_leads
    | with_reducible apply clampDebt_leads
    | with_reducible apply setEng_leads
    | with_reducible apply setLead_leads
    | with_reducible apply pwmJudge_leads
    | with_reducible apply leads_foldl
    | (intro _ _; intro)
    | intro _ _
    | intro _
    | split
    | with_reducible refine leads_of_snd (by assumption) ?_
    | with_reducible refine leads_of_fst (by assumption) ?_
    | dsimp only
    | (with_reducible apply leads_mk; first | with_reducible exact h₀ | with_reducible assumption | with_reducible apply setOffsets_leads | with_reducible apply respread_leads | with_reducible apply put_leads | with_reducible apply carrierChange_leads | with_reducible apply mixStart_leads | with_reducible apply clampDebt_leads | with_reducible apply setEng_leads | with_reducible apply setLead_leads | with_reducible apply pwmJudge_leads | with_reducible apply leads_foldl | (intro _ _; intro) | intro _ _ | intro _ | split | with_reducible refine leads_of_snd (by assumption) ?_ | with_reducible refine leads_of_fst (by assumption) ?_ | dsimp only)

theorem commitRing_leads {a₀ s : State} (h₀ : a₀.Leads s) (old : State) (r : Nat) : a₀.Leads (State.commitRing s old r) := by
  unfold State.commitRing
  repeat' first
    | with_reducible exact h₀
    | with_reducible apply ringCtrlAct_leads
    | split

theorem commitOut_leads {a₀ s : State} (h₀ : a₀.Leads s) (old : State) (k : Nat) : a₀.Leads (State.commitOut s old k) := by
  unfold State.commitOut
  try dsimp only
  repeat' first
    | with_reducible exact h₀
    | with_reducible assumption
    | with_reducible apply outStops_leads
    | with_reducible apply outStarts_leads
    | with_reducible apply outFollow_leads
    | split
    | dsimp only

theorem commitTable_leads {a₀ s : State} (h₀ : a₀.Leads s) (old : State) (c : Nat) : a₀.Leads (State.commitTable s old c) := by
  unfold State.commitTable
  repeat' first
    | with_reducible exact h₀
    | with_reducible apply setFclu_leads

theorem commitAll_leads {a₀ s : State} (h₀ : a₀.Leads s) (old : State) (tc : Nat) : a₀.Leads (State.commitAll s old tc) := by
  unfold State.commitAll
  try dsimp only
  repeat' first
    | with_reducible exact h₀
    | with_reducible assumption
    | with_reducible apply cellEvent_leads
    | with_reducible apply commitCluster_leads
    | with_reducible apply reparam_leads
    | with_reducible apply gridReconfig_leads
    | with_reducible apply ceCommit_leads
    | with_reducible apply commitTable_leads
    | with_reducible apply busCommit_leads
    | with_reducible apply mtrCommit_leads
    | with_reducible apply anaCommit_leads
    | with_reducible apply commitRing_leads
    | with_reducible apply commitOut_leads
    | with_reducible apply commitRef_leads
    | with_reducible apply newPeriod_leads
    | with_reducible apply retime_leads
    | with_reducible apply leads_forN
    | (intro _ _; intro)
    | intro _ _
    | intro _
    | split
    | with_reducible refine leads_of_snd (by assumption) ?_
    | with_reducible refine leads_of_fst (by assumption) ?_
    | dsimp only

end Sys2Proof.Machine
end

