-- ==== Sys2Proof/Laws/Leads/Cfg.lean ====
section
/-! SUPPORT. What every command keeps (`State.Leads`): the operations of Cfg.lean. -/

namespace Sys2Proof.Machine

theorem noteSlot_leads {a₀ s : State} (h₀ : a₀.Leads s) (slot : Nat) (img : Option Image) : a₀.Leads (State.noteSlot s slot img) := by
  unfold State.noteSlot
  repeat' first
    | with_reducible exact h₀
    | with_reducible apply setStart_leads
    | with_reducible apply putB_leads
    | with_reducible apply put_leads
    | split

theorem slotFail_leads {a₀ s : State} (h₀ : a₀.Leads s) (cause : Nat) (sec : Nat) (check : Nat) : a₀.Leads (State.slotFail s cause sec check) := by
  unfold State.slotFail
  repeat' first
    | with_reducible exact h₀
    | with_reducible apply put_leads
    | with_reducible apply event_leads
    | with_reducible apply setStart_leads
    | split
    | (with_reducible apply leads_mk; first | with_reducible exact h₀ | with_reducible apply put_leads | with_reducible apply event_leads | with_reducible apply setStart_leads | split)

theorem blankCfg_leads {a₀ s : State} (h₀ : a₀.Leads s)  : a₀.Leads (State.blankCfg s) := by
  unfold State.blankCfg
  repeat' first
    | with_reducible exact h₀
    | with_reducible assumption
    | with_reducible apply setWord_leads
    | with_reducible apply leads_foldl
    | (intro _ _; intro)

theorem takeStrings_leads {a₀ s : State} (h₀ : a₀.Leads s) (i : Image) : a₀.Leads (State.takeStrings s i) := by
  unfold State.takeStrings
  repeat' first
    | with_reducible exact h₀
    | with_reducible assumption
    | with_reducible apply setSvSub_leads
    | with_reducible apply setGSub_leads
    | with_reducible apply setBus_leads
    | with_reducible apply leads_foldl
    | (intro _ _; intro)
    | split

theorem takePolicy_leads {a₀ s : State} (h₀ : a₀.Leads s) (i : Image) : a₀.Leads (State.takePolicy s i) := by
  unfold State.takePolicy
  repeat' first
    | with_reducible exact h₀
    | with_reducible apply setWord_leads
    | with_reducible apply setStart_leads
    | split

theorem loadCarrier_leads {a₀ s : State} (h₀ : a₀.Leads s) (c : Nat) : a₀.Leads (State.loadCarrier s c) := by
  unfold State.loadCarrier
  repeat' first
    | with_reducible exact h₀
    | with_reducible apply put64_leads
    | with_reducible apply put_leads
    | with_reducible apply setOffsets_leads
    | with_reducible apply pwmJudge_leads

theorem lanesBoot_leads {a₀ s : State} (h₀ : a₀.Leads s)  : a₀.Leads (State.lanesBoot s) := by
  unfold State.lanesBoot
  dsimp only
  repeat' first
    | with_reducible exact h₀
    | with_reducible assumption
    | with_reducible apply put_leads
    | with_reducible apply showLanes_leads
    | with_reducible apply leads_foldl
    | (intro _ _; intro)
    | split

theorem loadShunts_leads {a₀ s : State} (h₀ : a₀.Leads s)  : a₀.Leads (State.loadShunts s) := by
  unfold State.loadShunts
  try dsimp only
  repeat' first
    | with_reducible exact h₀
    | with_reducible assumption
    | with_reducible apply put_leads
    | with_reducible apply leads_forN
    | (intro _ _; intro)
    | intro _ _
    | intro _
    | split
    | dsimp only

theorem loadAll_leads {a₀ s : State} (h₀ : a₀.Leads s) (old : State) (i : Image) : a₀.Leads (State.loadAll s old i) := by
  unfold State.loadAll
  try dsimp only
  repeat' first
    | with_reducible exact h₀
    | with_reducible assumption
    | with_reducible apply absentCell_leads
    | with_reducible apply loadShunts_leads
    | with_reducible apply laneZero_leads
    | with_reducible apply loadCarrier_leads
    | with_reducible apply ceCommit_leads
    | with_reducible apply setGShift_leads
    | with_reducible apply takeStrings_leads
    | with_reducible apply takePolicy_leads
    | with_reducible apply busCommit_leads
    | with_reducible apply mtrCommit_leads
    | with_reducible apply anaCommit_leads
    | with_reducible apply commitRing_leads
    | with_reducible apply commitOut_leads
    | with_reducible apply safeParam_leads
    | with_reducible apply askParams_leads
    | with_reducible apply lanesBoot_leads
    | with_reducible apply commitRef_leads
    | with_reducible apply newPeriod_leads
    | with_reducible apply unadmit_leads
    | with_reducible apply leads_forN
    | (intro _ _; intro)
    | intro _ _
    | intro _
    | split
    | with_reducible refine leads_of_snd (by assumption) ?_
    | with_reducible refine leads_of_fst (by assumption) ?_
    | dsimp only

theorem closeLock_leads {a₀ s : State} (h₀ : a₀.Leads s)  : a₀.Leads (State.closeLock s) := by
  unfold State.closeLock
  repeat' first
    | with_reducible exact h₀
    | with_reducible apply put_leads
    | with_reducible apply endOpener_leads
    | with_reducible apply event_leads
    | with_reducible apply freeStep_leads

theorem lockBoot_leads {a₀ s : State} (h₀ : a₀.Leads s)  : a₀.Leads (State.lockBoot s) := by
  unfold State.lockBoot
  try dsimp only
  repeat' first
    | with_reducible exact h₀
    | with_reducible assumption
    | with_reducible apply closeLock_leads
    | split
    | dsimp only

theorem booted_leads {a₀ s : State} (h₀ : a₀.Leads s) (i : Image) : a₀.Leads (State.booted s i) := by
  unfold State.booted
  try dsimp only
  repeat' first
    | with_reducible exact h₀
    | with_reducible assumption
    | with_reducible apply put_leads
    | with_reducible apply putB_leads
    | with_reducible apply event_leads
    | with_reducible apply eventIf_leads
    | with_reducible apply setStart_leads
    | with_reducible apply putSat_leads
    | with_reducible apply lockBoot_leads
    | with_reducible apply lanesUp_leads
    | split
    | dsimp only
    | (with_reducible apply leads_mk; first | with_reducible exact h₀ | with_reducible assumption | with_reducible apply put_leads | with_reducible apply putB_leads | with_reducible apply event_leads | with_reducible apply eventIf_leads | with_reducible apply setStart_leads | with_reducible apply putSat_leads | with_reducible apply lockBoot_leads | with_reducible apply lanesUp_leads | split | dsimp only)

theorem takeImage_leads {a₀ s : State} (h₀ : a₀.Leads s)  : a₀.Leads (State.takeImage s) := by
  unfold State.takeImage
  try dsimp only
  repeat' first
    | with_reducible exact h₀
    | with_reducible assumption
    | with_reducible apply applyOn_leads
    | with_reducible apply blankCfg_leads
    | with_reducible apply loadAll_leads
    | with_reducible apply booted_leads
    | with_reducible apply leads_foldl
    | (intro _ _; intro)
    | intro _ _
    | intro _
    | split
    | with_reducible refine leads_of_snd (by assumption) ?_
    | with_reducible refine leads_of_fst (by assumption) ?_
    | dsimp only

theorem takeReady_leads {a₀ s : State} (h₀ : a₀.Leads s)  : a₀.Leads (State.takeReady s) := by
  unfold State.takeReady
  try dsimp only
  repeat' first
    | with_reducible exact h₀
    | with_reducible assumption
    | with_reducible apply takeImage_leads
    | split
    | dsimp only

theorem restart_leads {a₀ s : State} (h₀ : a₀.Leads s)  : a₀.Leads (State.restart s) := by
  unfold State.restart
  dsimp only
  repeat' first
    | with_reducible exact h₀
    | with_reducible apply allOff_leads
    | with_reducible apply coldStart_leads
    | split

theorem cfgAct_leads {a₀ s : State} (h₀ : a₀.Leads s) (cmd : Nat) (slot : Nat) (img : Option Image) : a₀.Leads (State.cfgAct s cmd slot img) := by
  unfold State.cfgAct
  repeat' first
    | with_reducible exact h₀
    | with_reducible apply noteSlot_leads
    | with_reducible apply setBoot_leads
    | with_reducible apply event_leads
    | with_reducible apply put_leads
    | with_reducible apply setStart_leads
    | with_reducible apply restart_leads
    | split

theorem cfgCmd_leads {a₀ s : State} (h₀ : a₀.Leads s) (n : Nat) (value : Word) (mask : Word) (img : Option Image) : a₀.Leads (State.cfgCmd s n value mask img).2 := by
  unfold State.cfgCmd
  dsimp only
  repeat' first
    | with_reducible exact h₀
    | with_reducible assumption
    | with_reducible apply cfgAct_leads
    | with_reducible apply noteSlot_leads
    | with_reducible apply writeIf_leads
    | intro _ _
    | split

theorem cfgCmdBy_leads {a₀ s : State} (h₀ : a₀.Leads s) (n : Nat) (cmd : Nat) (slot : Nat) (img : Option Image) : a₀.Leads (State.cfgCmdBy s n cmd slot img) := by
  unfold State.cfgCmdBy
  repeat' first
    | with_reducible exact h₀
    | with_reducible assumption
    | with_reducible apply cfgCmd_leads
    | with_reducible apply access_leads
    | intro _ _

theorem xspiSent_leads {a₀ s : State} (h₀ : a₀.Leads s) (ok : Bool) (data : List Byte) : a₀.Leads (State.xspiSent s ok data).2 := by
  unfold State.xspiSent
  try dsimp only
  repeat' first
    | with_reducible exact h₀
    | with_reducible assumption
    | with_reducible apply setStart_leads
    | with_reducible apply put_leads
    | with_reducible apply setWord_leads
    | with_reducible apply leads_forN
    | (intro _ _; intro)
    | intro _ _
    | intro _
    | split
    | with_reducible refine leads_of_snd (by assumption) ?_
    | with_reducible refine leads_of_fst (by assumption) ?_
    | dsimp only
    | (with_reducible apply leads_mk; first | with_reducible exact h₀ | with_reducible assumption | with_reducible apply setStart_leads | with_reducible apply put_leads | with_reducible apply setWord_leads | with_reducible apply leads_forN | (intro _ _; intro) | intro _ _ | intro _ | split | with_reducible refine leads_of_snd (by assumption) ?_ | with_reducible refine leads_of_fst (by assumption) ?_ | dsimp only)

theorem xspiGo_leads {a₀ s : State} (h₀ : a₀.Leads s) (n : Nat) (value : Word) (mask : Word) (ok : Bool) (data : List Byte) : a₀.Leads (State.xspiGo s n value mask ok data).2 := by
  unfold State.xspiGo
  try dsimp only
  repeat' first
    | with_reducible exact h₀
    | with_reducible assumption
    | with_reducible apply xspiSent_leads
    | with_reducible apply put_leads
    | with_reducible apply access_leads
    | with_reducible refine leads_of_snd (by assumption) ?_
    | with_reducible refine leads_of_fst (by assumption) ?_
    | (intro _ _; intro)
    | intro _ _
    | intro _
    | split
    | dsimp only

theorem enterMonitor_leads {a₀ s : State} (h₀ : a₀.Leads s)  : a₀.Leads (State.enterMonitor s) := by
  unfold State.enterMonitor
  try dsimp only
  repeat' first
    | with_reducible exact h₀
    | with_reducible assumption
    | with_reducible apply setMgmt_leads
    | with_reducible apply setWord_leads
    | dsimp only
    | (with_reducible apply leads_mk; first | with_reducible exact h₀ | with_reducible assumption | with_reducible apply setMgmt_leads | with_reducible apply setWord_leads | dsimp only)

theorem lockWrite_leads {a₀ s : State} (h₀ : a₀.Leads s) (n : Nat) (value : Word) (mask : Word) : a₀.Leads (State.lockWrite s n value mask).2 := by
  unfold State.lockWrite
  repeat' first
    | with_reducible exact h₀
    | with_reducible assumption
    | with_reducible apply closeLock_leads
    | with_reducible apply writeIf_leads
    | intro _ _
    | split

theorem keyWrite_leads {a₀ s : State} (h₀ : a₀.Leads s) (n : Nat) (w : Nat) (value : Word) (mask : Word) : a₀.Leads (State.keyWrite s n w value mask).2 := by
  unfold State.keyWrite
  repeat' first
    | with_reducible exact h₀
    | with_reducible apply setStart_leads
    | split

theorem keySel_leads {a₀ s : State} (h₀ : a₀.Leads s) (n : Nat) (value : Word) (mask : Word) : a₀.Leads (State.keySel s n value mask).2 := by
  unfold State.keySel
  repeat' first
    | with_reducible exact h₀
    | with_reducible assumption
    | with_reducible apply setStart_leads
    | with_reducible apply clearKey_leads
    | with_reducible apply event_leads
    | with_reducible apply writeIf_leads
    | intro _ _
    | split

end Sys2Proof.Machine
end

