-- ==== Sys2Proof/Laws/Leads/GooseRx.lean ====
section
/-! SUPPORT. What every command keeps (`State.Leads`): the operations of GooseRx.lean. -/

namespace Sys2Proof.Machine

theorem gooseValue_leads {a₀ s : State} (h₀ : a₀.Leads s) (f : GooseFrame) (fresh : Bool) (v : Nat) : a₀.Leads (State.gooseValue s f fresh v) := by
  unfold State.gooseValue
  dsimp only
  repeat' first
    | with_reducible exact h₀
    | with_reducible apply putB_leads
    | with_reducible apply putS_leads
    | with_reducible apply put_leads
    | with_reducible apply freeStep_leads
    | split

theorem gooseTake_leads {a₀ s : State} (h₀ : a₀.Leads s) (f : GooseFrame) (g : Nat) (fresh : Bool) : a₀.Leads (State.gooseTake s f g fresh) := by
  unfold State.gooseTake
  repeat' first
    | with_reducible exact h₀
    | with_reducible assumption
    | with_reducible apply put_leads
    | with_reducible apply putB_leads
    | with_reducible apply put64_leads
    | with_reducible apply setGSub_leads
    | with_reducible apply gooseValue_leads
    | with_reducible apply eventIf_leads
    | with_reducible apply islFollow_leads
    | with_reducible apply leads_foldl
    | (intro _ _; intro)

theorem gooseSafe_leads {a₀ s : State} (h₀ : a₀.Leads s) (f : GooseFrame) (g : Nat) : a₀.Leads (State.gooseSafe s f g) := by
  unfold State.gooseSafe
  dsimp only
  repeat' first
    | with_reducible exact h₀
    | with_reducible assumption
    | with_reducible apply safePdu_leads
    | with_reducible apply leads_forN
    | (intro _ _; intro)
    | split

theorem gooseConfRev_leads {a₀ s : State} (h₀ : a₀.Leads s) (g : Nat) : a₀.Leads (State.gooseConfRev s g) := by
  unfold State.gooseConfRev
  try dsimp only
  repeat' first
    | with_reducible exact h₀
    | with_reducible assumption
    | with_reducible apply gooseInvalid_leads
    | with_reducible apply put_leads
    | with_reducible apply event_leads
    | dsimp only

theorem gooseFrame_leads {a₀ s : State} (h₀ : a₀.Leads s) (f : GooseFrame) (g : Nat) : a₀.Leads (State.gooseFrame s f g) := by
  unfold State.gooseFrame
  try dsimp only
  repeat' first
    | with_reducible exact h₀
    | with_reducible assumption
    | with_reducible apply put_leads
    | with_reducible apply setGSub_leads
    | with_reducible apply event_leads
    | with_reducible apply gooseSafe_leads
    | with_reducible apply gooseConfRev_leads
    | with_reducible apply gooseTake_leads
    | with_reducible apply offerRaw_leads
    | with_reducible apply count_leads
    | split
    | with_reducible refine leads_of_snd (by assumption) ?_
    | with_reducible refine leads_of_fst (by assumption) ?_
    | dsimp only
    | (with_reducible apply leads_mk; first | with_reducible exact h₀ | with_reducible assumption | with_reducible apply put_leads | with_reducible apply setGSub_leads | with_reducible apply event_leads | with_reducible apply gooseSafe_leads | with_reducible apply gooseConfRev_leads | with_reducible apply gooseTake_leads | with_reducible apply offerRaw_leads | with_reducible apply count_leads | split | with_reducible refine leads_of_snd (by assumption) ?_ | with_reducible refine leads_of_fst (by assumption) ?_ | dsimp only)

end Sys2Proof.Machine
end

