-- ==== Sys2Proof/Laws/Leads/Pour.lean ====
section
/-! SUPPORT. What every command keeps (`State.Leads`): the operations of Pour.lean. -/

namespace Sys2Proof.Machine

theorem setPstat_leads {a₀ s : State} (h₀ : a₀.Leads s) (k : Nat) (st : Nat) : a₀.Leads (State.setPstat s k st) := by
  unfold State.setPstat
  repeat' first
    | with_reducible exact h₀
    | with_reducible apply put_leads

theorem takeSlot_leads {a₀ s : State} (h₀ : a₀.Leads s) (n : Nat) (k : Nat) (point : Nat) (zc : Nat) (req : Nat) (chain : Nat) : a₀.Leads (State.takeSlot s n k point zc req chain) := by
  unfold State.takeSlot
  repeat' first
    | with_reducible exact h₀
    | with_reducible assumption
    | with_reducible apply setWord_leads
    | with_reducible apply put_leads
    | with_reducible apply setPstat_leads
    | with_reducible apply put64_leads
    | with_reducible apply setPslot_leads
    | with_reducible apply setSess_leads
    | with_reducible apply leads_foldl
    | (intro _ _; intro)

theorem afterCommitted_leads {a₀ s : State} (h₀ : a₀.Leads s)  : a₀.Leads (State.afterCommitted s) := by
  unfold State.afterCommitted
  try dsimp only
  repeat' first
    | with_reducible exact h₀
    | with_reducible assumption
    | with_reducible apply applyOne_leads
    | with_reducible apply put_leads
    | with_reducible apply leads_foldl
    | with_reducible apply leads_forN
    | (intro _ _; intro)
    | intro _ _
    | intro _
    | dsimp only

theorem pourNew_leads {a₀ s : State} (h₀ : a₀.Leads s) (k : Nat) : a₀.Leads (State.pourNew s k) := by
  unfold State.pourNew
  repeat' first
    | with_reducible exact h₀
    | with_reducible apply applyOne_leads
    | with_reducible apply afterCommitted_leads
    | with_reducible apply leads_foldl

theorem setTc_leads {a₀ s : State} (h₀ : a₀.Leads s) (k : Nat) (tc : Nat) : a₀.Leads (State.setTc s k tc) := by
  unfold State.setTc
  repeat' first
    | with_reducible exact h₀
    | with_reducible apply put64_leads
    | with_reducible apply setPslot_leads

theorem carrierNext_leads {a new : State} (h : a.Leads new) (s : State) (c : Nat) : a.Leads (s.carrierNext new c).1 := by
  unfold State.carrierNext
  dsimp only
  repeat' first
    | with_reducible exact h
    | with_reducible apply respread_leads
    | with_reducible apply setOffsets_leads
    | split

theorem stageSend_leads {a₀ s : State} (h₀ : a₀.Leads s) (k : Nat) : a₀.Leads (State.stageSend s k) := by
  unfold State.stageSend
  repeat' first
    | with_reducible exact h₀
    | with_reducible assumption
    | with_reducible apply setPslot_leads
    | with_reducible apply mbxPost_leads
    | with_reducible apply leads_foldl
    | (intro _ _; intro)

theorem pourStage_leads {a₀ s : State} (h₀ : a₀.Leads s) (k : Nat) : a₀.Leads (State.pourStage s k) := by
  unfold State.pourStage
  dsimp only
  repeat' first
    | with_reducible exact h₀
    | with_reducible apply setPslot_leads
    | with_reducible apply setPstat_leads
    | with_reducible apply pourAbort_leads
    | with_reducible apply setTc_leads
    | with_reducible apply put_leads
    | with_reducible apply stageSend_leads
    | split

theorem grantToken_leads {a₀ s : State} (h₀ : a₀.Leads s) (k : Nat) : a₀.Leads (State.grantToken s k) := by
  unfold State.grantToken
  repeat' first
    | with_reducible exact h₀
    | with_reducible apply setPstat_leads
    | with_reducible apply put_leads
    | with_reducible apply setPslot_leads

theorem commitAt_leads {a₀ s : State} (h₀ : a₀.Leads s) (k : Nat) (tc : Nat) : a₀.Leads (State.commitAt s k tc) := by
  unfold State.commitAt
  repeat' first
    | with_reducible exact h₀
    | with_reducible assumption
    | with_reducible apply mbxPost_leads
    | with_reducible apply leads_foldl
    | (intro _ _; intro)

theorem foresee_leads {a₀ s : State} (h₀ : a₀.Leads s) (base : State) (new : State) (tc : Nat) (c : Nat) : a₀.Leads (State.foresee s base new tc c) := by
  unfold State.foresee
  try dsimp only
  repeat' first
    | with_reducible exact h₀
    | with_reducible assumption
    | with_reducible apply carrierNext_leads
    | with_reducible apply bridges_leads
    | with_reducible apply setEng_leads
    | with_reducible apply leads_foldl
    | (intro _ _; intro)
    | intro _ _
    | intro _
    | split
    | with_reducible refine leads_of_snd (by assumption) ?_
    | with_reducible refine leads_of_fst (by assumption) ?_
    | dsimp only
    | (with_reducible apply leads_mk; first | with_reducible exact h₀ | with_reducible assumption | with_reducible apply carrierNext_leads | with_reducible apply bridges_leads | with_reducible apply setEng_leads | with_reducible apply leads_foldl | (intro _ _; intro) | intro _ _ | intro _ | split | with_reducible refine leads_of_snd (by assumption) ?_ | with_reducible refine leads_of_fst (by assumption) ?_ | dsimp only)

theorem dropCommitAt_leads {a₀ s : State} (h₀ : a₀.Leads s) (k : Nat) (r : Nat) : a₀.Leads (State.dropCommitAt s k r) := by
  unfold State.dropCommitAt
  try dsimp only
  repeat' first
    | with_reducible exact h₀
    | with_reducible assumption
    | with_reducible apply commitAt_leads
    | with_reducible apply setRing_leads
    | with_reducible apply put_leads
    | with_reducible apply mbxNext_leads
    | split
    | with_reducible refine leads_of_snd (by assumption) ?_
    | with_reducible refine leads_of_fst (by assumption) ?_
    | dsimp only
    | (with_reducible apply leads_mk; first | with_reducible exact h₀ | with_reducible assumption | with_reducible apply commitAt_leads | with_reducible apply setRing_leads | with_reducible apply put_leads | with_reducible apply mbxNext_leads | split | with_reducible refine leads_of_snd (by assumption) ?_ | with_reducible refine leads_of_fst (by assumption) ?_ | dsimp only)

theorem takeEffect_leads {a₀ s : State} (h₀ : a₀.Leads s) (k : Nat) : a₀.Leads (State.takeEffect s k) := by
  unfold State.takeEffect
  try dsimp only
  repeat' first
    | with_reducible exact h₀
    | with_reducible assumption
    | with_reducible apply applyOn_leads
    | with_reducible apply dropCommitAt_leads
    | with_reducible apply commitAll_leads
    | with_reducible apply setPstat_leads
    | with_reducible apply leads_foldl
    | (intro _ _; intro)
    | intro _ _
    | intro _
    | dsimp only

theorem bypassMarked_leads {a₀ s : State} (h₀ : a₀.Leads s) (k : Nat) : a₀.Leads (State.bypassMarked s k) := by
  unfold State.bypassMarked
  dsimp only
  repeat' first
    | with_reducible exact h₀
    | with_reducible apply setCell_leads
    | with_reducible apply put_leads
    | with_reducible apply faultBypass_leads
    | split

theorem markCell_leads {a₀ s : State} (h₀ : a₀.Leads s) (id : Nat) (k : Nat) : a₀.Leads (State.markCell s id k) := by
  unfold State.markCell
  try dsimp only
  repeat' first
    | with_reducible exact h₀
    | with_reducible assumption
    | with_reducible apply put_leads
    | with_reducible apply setPour_leads
    | with_reducible apply event_leads
    | with_reducible apply bypassMarked_leads
    | split
    | dsimp only
    | (with_reducible apply leads_mk; first | with_reducible exact h₀ | with_reducible assumption | with_reducible apply put_leads | with_reducible apply setPour_leads | with_reducible apply event_leads | with_reducible apply bypassMarked_leads | split | dsimp only)

theorem freeParams_leads {a₀ s : State} (h₀ : a₀.Leads s) (clus : List Nat) : a₀.Leads (State.freeParams s clus) := by
  unfold State.freeParams
  repeat' first
    | with_reducible exact h₀
    | with_reducible assumption
    | with_reducible apply askParams_leads
    | with_reducible apply leads_foldl
    | (intro _ _; intro)
    | split

theorem stageFail_leads {a₀ s : State} (h₀ : a₀.Leads s) (k : Nat) (cell : Nat) (reply : Nat) : a₀.Leads (State.stageFail s k cell reply) := by
  unfold State.stageFail
  repeat' first
    | with_reducible exact h₀
    | with_reducible apply event_leads
    | with_reducible apply pourAbort_leads
    | split

theorem stageOk_leads {a₀ s : State} (h₀ : a₀.Leads s) (k : Nat) (cell : Nat) (chunk : Nat) : a₀.Leads (State.stageOk s k cell chunk) := by
  unfold State.stageOk
  repeat' first
    | with_reducible exact h₀
    | with_reducible apply setPslot_leads
    | split

theorem pourSlots_leads {a₀ s : State} (h₀ : a₀.Leads s) (k : Nat) : a₀.Leads (State.pourSlots s k) := by
  unfold State.pourSlots
  dsimp only
  repeat' first
    | with_reducible exact h₀
    | with_reducible apply stageFail_leads
    | with_reducible apply freeStep_leads
    | with_reducible apply setPslot_leads
    | with_reducible apply put_leads
    | with_reducible apply setPstat_leads
    | with_reducible apply stageSend_leads
    | split

theorem refreshCell_leads {a₀ s : State} (h₀ : a₀.Leads s) (k : Nat) : a₀.Leads (State.refreshCell s k) := by
  unfold State.refreshCell
  repeat' first
    | with_reducible exact h₀
    | with_reducible assumption
    | with_reducible apply abortStage_leads
    | with_reducible apply setPour_leads
    | with_reducible apply mbxPost_leads
    | with_reducible apply leads_foldl
    | (intro _ _; intro)
    | split

theorem refreshReply_leads {a₀ s : State} (h₀ : a₀.Leads s) (k : Nat) (ok : Bool) : a₀.Leads (State.refreshReply s k ok) := by
  unfold State.refreshReply
  dsimp only
  repeat' first
    | with_reducible exact h₀
    | with_reducible apply setRing_leads
    | with_reducible apply setPour_leads
    | with_reducible apply unmark_leads
    | with_reducible apply event_leads
    | split

theorem pourFreeze_leads {a₀ s : State} (h₀ : a₀.Leads s)  : a₀.Leads (State.pourFreeze s) := by
  unfold State.pourFreeze
  dsimp only
  repeat' first
    | with_reducible exact h₀
    | with_reducible assumption
    | with_reducible apply pourSlots_leads
    | with_reducible apply bypassMarked_leads
    | with_reducible apply refreshCell_leads
    | with_reducible apply abortStage_leads
    | with_reducible apply setPour_leads
    | with_reducible apply leads_foldl
    | with_reducible apply leads_forN
    | (intro _ _; intro)
    | split

end Sys2Proof.Machine
end

