-- ==== Sys2Proof/Laws/Leads/Cycle.lean ====
section
/-! SUPPORT. What every command keeps (`State.Leads`): the operations of Cycle.lean. -/

namespace Sys2Proof.Machine

theorem takeSlot1_leads {a₀ s : State} (h₀ : a₀.Leads s) (k : Nat) (b : List Byte) : a₀.Leads (State.takeSlot1 s k b) := by
  unfold State.takeSlot1
  try dsimp only
  repeat' first
    | with_reducible exact h₀
    | with_reducible assumption
    | with_reducible apply setWord_leads
    | with_reducible apply put_leads
    | with_reducible apply setCellX_leads
    | with_reducible apply eventIf_leads
    | with_reducible apply noteTrips_leads
    | with_reducible apply tripWindow_leads
    | with_reducible apply leads_forN
    | (intro _ _; intro)
    | intro _ _
    | intro _
    | split
    | with_reducible refine leads_of_snd (by assumption) ?_
    | with_reducible refine leads_of_fst (by assumption) ?_
    | dsimp only
    | (with_reducible apply leads_mk; first | with_reducible exact h₀ | with_reducible assumption | with_reducible apply setWord_leads | with_reducible apply put_leads | with_reducible apply setCellX_leads | with_reducible apply eventIf_leads | with_reducible apply noteTrips_leads | with_reducible apply tripWindow_leads | with_reducible apply leads_forN | (intro _ _; intro) | intro _ _ | intro _ | split | with_reducible refine leads_of_snd (by assumption) ?_ | with_reducible refine leads_of_fst (by assumption) ?_ | dsimp only)

theorem missSlot_leads {a₀ s : State} (h₀ : a₀.Leads s) (k : Nat) : a₀.Leads (State.missSlot s k) := by
  unfold State.missSlot
  dsimp only
  repeat' first
    | with_reducible exact h₀
    | with_reducible apply setCellX_leads
    | with_reducible apply count_leads
    | split

theorem ringSlots_leads {a₀ s : State} (h₀ : a₀.Leads s) (r : Nat) : a₀.Leads (State.ringSlots s r) := by
  unfold State.ringSlots
  try dsimp only
  repeat' first
    | with_reducible exact h₀
    | with_reducible assumption
    | with_reducible apply setRing_leads
    | with_reducible apply takeSlot1_leads
    | with_reducible apply missSlot_leads
    | with_reducible apply leads_forN
    | (intro _ _; intro)
    | intro _ _
    | intro _
    | split
    | with_reducible refine leads_of_snd (by assumption) ?_
    | with_reducible refine leads_of_fst (by assumption) ?_
    | dsimp only
    | (with_reducible apply leads_mk; first | with_reducible exact h₀ | with_reducible assumption | with_reducible apply setRing_leads | with_reducible apply takeSlot1_leads | with_reducible apply missSlot_leads | with_reducible apply leads_forN | (intro _ _; intro) | intro _ _ | intro _ | split | with_reducible refine leads_of_snd (by assumption) ?_ | with_reducible refine leads_of_fst (by assumption) ?_ | dsimp only)

theorem cellSlots_leads {a₀ s : State} (h₀ : a₀.Leads s)  : a₀.Leads (State.cellSlots s).1 := by
  unfold State.cellSlots
  try dsimp only
  repeat' first
    | with_reducible exact h₀
    | with_reducible assumption
    | with_reducible apply haltSeq_leads
    | with_reducible apply tripWindow_leads
    | with_reducible apply mpptMiss_leads
    | with_reducible apply slotFreeze_leads
    | with_reducible apply pwmFreeze_leads
    | with_reducible apply mpptSlot_leads
    | with_reducible apply leads_foldl
    | with_reducible apply leads_foldl_fst
    | with_reducible apply leads_foldl_snd
    | dsimp only
    | (intro _ _; intro)
    | intro _ _
    | intro _
    | split
    | with_reducible refine leads_of_snd (by assumption) ?_
    | with_reducible refine leads_of_fst (by assumption) ?_
    | dsimp only

theorem haltsSeen_leads {a₀ s : State} (h₀ : a₀.Leads s)  : a₀.Leads (State.haltsSeen s) := by
  unfold State.haltsSeen
  try dsimp only
  repeat' first
    | with_reducible exact h₀
    | with_reducible assumption
    | with_reducible apply setRing_leads
    | with_reducible apply setGclu_leads
    | with_reducible apply leads_forN
    | (intro _ _; intro)
    | intro _ _
    | intro _
    | split
    | dsimp only
    | (with_reducible apply leads_mk; first | with_reducible exact h₀ | with_reducible assumption | with_reducible apply setRing_leads | with_reducible apply setGclu_leads | with_reducible apply leads_forN | (intro _ _; intro) | intro _ _ | intro _ | split | dsimp only)

theorem firstCycle_leads {a₀ s : State} (h₀ : a₀.Leads s) (c : Nat) : a₀.Leads (State.firstCycle s c) := by
  unfold State.firstCycle
  try dsimp only
  repeat' first
    | with_reducible exact h₀
    | with_reducible assumption
    | with_reducible apply setGclu_leads
    | with_reducible apply resetProg_leads
    | split
    | dsimp only
    | (with_reducible apply leads_mk; first | with_reducible exact h₀ | with_reducible assumption | with_reducible apply setGclu_leads | with_reducible apply resetProg_leads | split | dsimp only)

theorem clusterHalt_leads {a₀ s : State} (h₀ : a₀.Leads s) (c : Nat) : a₀.Leads (State.clusterHalt s c) := by
  unfold State.clusterHalt
  repeat' first
    | with_reducible exact h₀
    | with_reducible apply event_leads
    | with_reducible apply laneHalt_leads

theorem cellSteps_leads {a₀ s : State} (h₀ : a₀.Leads s) (k : Nat) : a₀.Leads (State.cellSteps s k) := by
  unfold State.cellSteps
  repeat' first
    | with_reducible exact h₀
    | with_reducible apply admitCell_leads
    | with_reducible apply tryDiag_leads
    | with_reducible apply askDisp_leads
    | with_reducible apply zeroDone_leads
    | split

theorem marginFreeze_leads {a₀ s : State} (h₀ : a₀.Leads s) (c : Nat) (ph : Nat) : a₀.Leads (State.marginFreeze s c ph) := by
  unfold State.marginFreeze
  try dsimp only
  repeat' first
    | with_reducible exact h₀
    | with_reducible assumption
    | with_reducible apply setCells_leads
    | with_reducible apply eventIf_leads
    | split
    | with_reducible refine leads_of_snd (by assumption) ?_
    | with_reducible refine leads_of_fst (by assumption) ?_
    | dsimp only
    | (with_reducible apply leads_mk; first | with_reducible exact h₀ | with_reducible assumption | with_reducible apply setCells_leads | with_reducible apply eventIf_leads | split | with_reducible refine leads_of_snd (by assumption) ?_ | with_reducible refine leads_of_fst (by assumption) ?_ | dsimp only)

theorem startWindow_leads {a₀ s : State} (h₀ : a₀.Leads s) (c : Nat) : a₀.Leads (State.startWindow s c) := by
  unfold State.startWindow
  try dsimp only
  repeat' first
    | with_reducible exact h₀
    | with_reducible assumption
    | with_reducible apply setCells_leads
    | split
    | dsimp only
    | (with_reducible apply leads_mk; first | with_reducible exact h₀ | with_reducible assumption | with_reducible apply setCells_leads | split | dsimp only)

theorem publish_leads {a₀ s : State} (h₀ : a₀.Leads s)  : a₀.Leads (State.publish s) := by
  unfold State.publish
  try dsimp only
  repeat' first
    | with_reducible exact h₀
    | with_reducible assumption
    | with_reducible apply setCellX_leads
    | with_reducible apply pwmRun_leads
    | with_reducible apply legRun_leads
    | with_reducible apply signPass_leads
    | with_reducible apply setLink_leads
    | with_reducible apply leads_foldl
    | (intro _ _; intro)
    | intro _ _
    | intro _
    | split
    | dsimp only
    | (with_reducible apply leads_mk; first | with_reducible exact h₀ | with_reducible assumption | with_reducible apply setCellX_leads | with_reducible apply pwmRun_leads | with_reducible apply legRun_leads | with_reducible apply signPass_leads | with_reducible apply setLink_leads | with_reducible apply leads_foldl | (intro _ _; intro) | intro _ _ | intro _ | split | dsimp only)

theorem afterLaunch_leads {a₀ s : State} (h₀ : a₀.Leads s) (r : Nat) (f : SchedFrame) : a₀.Leads (State.afterLaunch s r f) := by
  unfold State.afterLaunch
  try dsimp only
  repeat' first
    | with_reducible exact h₀
    | with_reducible assumption
    | with_reducible apply setCellX_leads
    | with_reducible apply setRing_leads
    | with_reducible apply setSafe_leads
    | with_reducible apply refSent_leads
    | with_reducible apply put_leads
    | with_reducible apply mbxNext_leads
    | with_reducible apply leads_foldl
    | with_reducible apply leads_foldl_fst
    | with_reducible apply leads_foldl_snd
    | dsimp only
    | (intro _ _; intro)
    | intro _ _
    | intro _
    | split
    | with_reducible refine leads_of_snd (by assumption) ?_
    | with_reducible refine leads_of_fst (by assumption) ?_
    | dsimp only
    | (with_reducible apply leads_mk; first | with_reducible exact h₀ | with_reducible assumption | with_reducible apply setCellX_leads | with_reducible apply setRing_leads | with_reducible apply setSafe_leads | with_reducible apply refSent_leads | with_reducible apply put_leads | with_reducible apply mbxNext_leads | with_reducible apply leads_foldl | with_reducible apply leads_foldl_fst | with_reducible apply leads_foldl_snd | dsimp only | (intro _ _; intro) | intro _ _ | intro _ | split | with_reducible refine leads_of_snd (by assumption) ?_ | with_reducible refine leads_of_fst (by assumption) ?_ | dsimp only)

theorem launchRing_leads {a₀ s : State} (h₀ : a₀.Leads s) (cycle : Nat) (tApply : Nat) (ix : Nat) (r : Nat) : a₀.Leads (State.launchRing s cycle tApply ix r) := by
  unfold State.launchRing
  try dsimp only
  repeat' first
    | with_reducible exact h₀
    | with_reducible assumption
    | with_reducible apply launchTx_leads
    | with_reducible apply afterLaunch_leads
    | with_reducible apply setRing_leads
    | split
    | with_reducible refine leads_of_snd (by assumption) ?_
    | with_reducible refine leads_of_fst (by assumption) ?_
    | dsimp only
    | (with_reducible apply leads_mk; first | with_reducible exact h₀ | with_reducible assumption | with_reducible apply launchTx_leads | with_reducible apply afterLaunch_leads | with_reducible apply setRing_leads | split | with_reducible refine leads_of_snd (by assumption) ?_ | with_reducible refine leads_of_fst (by assumption) ?_ | dsimp only)

end Sys2Proof.Machine
end

