-- ==== Sys2Proof/Laws/Leads/Mailbox.lean ====
section
/-! SUPPORT. What every command keeps (`State.Leads`): the operations of Mailbox.lean. -/

namespace Sys2Proof.Machine

theorem mbxDone_leads {a₀ s : State} (h₀ : a₀.Leads s) (r : Nat) : a₀.Leads (State.mbxDone s r) := by
  unfold State.mbxDone
  repeat' first
    | with_reducible exact h₀
    | with_reducible apply setRing_leads
    | with_reducible apply put_leads
    | with_reducible apply mbxNext_leads

theorem mbxOk_leads {a₀ s : State} (h₀ : a₀.Leads s) (k : Nat) (q : MbxReq) (data : List Byte) : a₀.Leads (State.mbxOk s k q data) := by
  unfold State.mbxOk
  try dsimp only
  repeat' first
    | with_reducible exact h₀
    | with_reducible assumption
    | with_reducible apply setCellX_leads
    | with_reducible apply put_leads
    | with_reducible apply diagAccepted_leads
    | with_reducible apply refAnswered_leads
    | with_reducible apply stageOk_leads
    | with_reducible apply commitAt_leads
    | with_reducible apply abortStage_leads
    | with_reducible apply refreshReply_leads
    | with_reducible apply wearLoad_leads
    | with_reducible apply wearWrite_leads
    | with_reducible apply wearWritten_leads
    | split
    | with_reducible refine leads_of_snd (by assumption) ?_
    | with_reducible refine leads_of_fst (by assumption) ?_
    | dsimp only
    | (with_reducible apply leads_mk; first | with_reducible exact h₀ | with_reducible assumption | with_reducible apply setCellX_leads | with_reducible apply put_leads | with_reducible apply diagAccepted_leads | with_reducible apply refAnswered_leads | with_reducible apply stageOk_leads | with_reducible apply commitAt_leads | with_reducible apply abortStage_leads | with_reducible apply refreshReply_leads | with_reducible apply wearLoad_leads | with_reducible apply wearWrite_leads | with_reducible apply wearWritten_leads | split | with_reducible refine leads_of_snd (by assumption) ?_ | with_reducible refine leads_of_fst (by assumption) ?_ | dsimp only)

theorem mbxBad_leads {a₀ s : State} (h₀ : a₀.Leads s) (k : Nat) (q : MbxReq) (code : Option Nat) : a₀.Leads (State.mbxBad s k q code) := by
  unfold State.mbxBad
  try dsimp only
  repeat' first
    | with_reducible exact h₀
    | with_reducible assumption
    | with_reducible apply mbxPost_leads
    | with_reducible apply cellEvent_leads
    | with_reducible apply diagUnanswered_leads
    | with_reducible apply stageFail_leads
    | with_reducible apply freeStep_leads
    | with_reducible apply refreshReply_leads
    | split
    | with_reducible refine leads_of_snd (by assumption) ?_
    | with_reducible refine leads_of_fst (by assumption) ?_
    | dsimp only
    | (with_reducible apply leads_mk; first | with_reducible exact h₀ | with_reducible assumption | with_reducible apply mbxPost_leads | with_reducible apply cellEvent_leads | with_reducible apply diagUnanswered_leads | with_reducible apply stageFail_leads | with_reducible apply freeStep_leads | with_reducible apply refreshReply_leads | split | with_reducible refine leads_of_snd (by assumption) ?_ | with_reducible refine leads_of_fst (by assumption) ?_ | dsimp only)

theorem mbxEnd_leads {a₀ s : State} (h₀ : a₀.Leads s) (r : Nat) (q : MbxReq) (a : MbxRep) : a₀.Leads (State.mbxEnd s r q a) := by
  unfold State.mbxEnd
  repeat' first
    | with_reducible exact h₀
    | with_reducible apply put_leads
    | with_reducible apply setRing_leads
    | with_reducible apply mbxOk_leads
    | with_reducible apply mbxBad_leads
    | with_reducible apply mbxNext_leads
    | split

theorem mbxReply_leads {a₀ s : State} (h₀ : a₀.Leads s) (r : Nat) (a : MbxRep) : a₀.Leads (State.mbxReply s r a) := by
  unfold State.mbxReply
  dsimp only
  repeat' first
    | with_reducible exact h₀
    | with_reducible apply put_leads
    | with_reducible apply setRing_leads
    | with_reducible apply mbxEnd_leads
    | with_reducible apply count_leads
    | split

theorem mbxExpire_leads {a₀ s : State} (h₀ : a₀.Leads s) (r : Nat) (o : MbxOut) : a₀.Leads (State.mbxExpire s r o) := by
  unfold State.mbxExpire
  repeat' first
    | with_reducible exact h₀
    | with_reducible apply setRing_leads
    | with_reducible apply put_leads
    | with_reducible apply count_leads
    | with_reducible apply event_leads
    | with_reducible apply mbxBad_leads
    | with_reducible apply mbxNext_leads

end Sys2Proof.Machine
end

