-- ==== Sys2Proof/Laws/Leads/View.lean ====
section
/-! SUPPORT. What every command keeps (`State.Leads`): the operations of View.lean. -/

namespace Sys2Proof.Machine

theorem readWord_leads {a₀ s : State} (h₀ : a₀.Leads s) (r : Reg) : a₀.Leads (State.readWord s r).2 := by
  unfold State.readWord
  dsimp only
  repeat' first
    | with_reducible exact h₀
    | with_reducible apply freeStep_leads
    | split

end Sys2Proof.Machine
end

