-- ==== Sys2Proof/Laws/Leads/Access.lean ====
section
/-! SUPPORT. What every command keeps (`State.Leads`): the operations of Access.lean. -/

namespace Sys2Proof.Machine

theorem ringClear_leads {a₀ s : State} (h₀ : a₀.Leads s) (n : Nat) (r : Nat) (value : Word) (mask : Word) : a₀.Leads (State.ringClear s n r value mask).2 := by
  unfold State.ringClear
  repeat' first
    | with_reducible exact h₀
    | with_reducible assumption
    | with_reducible apply setWord_leads
    | with_reducible apply leads_foldl
    | with_reducible apply writeThen_leads
    | (intro _ _; intro)
    | intro _ _
    | split

theorem intrClear_leads {a₀ s : State} (h₀ : a₀.Leads s) (n : Nat) (value : Word) (mask : Word) : a₀.Leads (State.intrClear s n value mask).2 := by
  unfold State.intrClear
  repeat' first
    | with_reducible exact h₀
    | with_reducible assumption
    | with_reducible apply setWord_leads
    | with_reducible apply writeThen_leads
    | intro _ _
    | split

theorem legCtrlWrite_leads {a₀ s : State} (h₀ : a₀.Leads s) (n : Nat) (l : Nat) (value : Word) (mask : Word) : a₀.Leads (State.legCtrlWrite s n l value mask).2 := by
  unfold State.legCtrlWrite
  repeat' first
    | with_reducible exact h₀
    | with_reducible apply writeReg_leads
    | with_reducible apply legEnable_leads
    | with_reducible apply legDisable_leads
    | split

theorem wearCfgWrite_leads {a₀ s : State} (h₀ : a₀.Leads s) (n : Nat) (value mask : Word) :
    a₀.Leads (s.wearCfgWrite n value mask).2 := writeIf_leads h₀ n _ _ _ _ _ fun _ h => h

theorem actVote_leads {a s : State} (h : a.Leads s) {n : Nat} {r : Reg} {value mask : Word} {e : AccEnv} {p : Status × State}
    (g : s.actVote n r value mask e = some p) : a.Leads p.2 := by
  unfold State.actVote at g
  repeat' first
    | with_reducible refine leads_ite_some ?_ ?_ g
    | intro g
    | exact leads_none g
    | with_reducible exact laneCmd_leads h ..
    | with_reducible exact intrClear_leads h ..
    | with_reducible exact cellCmdNow_leads h ..
    | with_reducible exact pwmClear_leads h ..
    | with_reducible exact legRelease_leads h ..
    | with_reducible exact mpptCmd_leads h ..
    | with_reducible exact frtCmd_leads h ..
    | with_reducible exact wearStatusWrite_leads h ..
    | with_reducible exact wearSelect_leads h ..
    | with_reducible exact wearCfgWrite_leads h ..
    | with_reducible exact cfgCmd_leads h ..

theorem actSide_leads {a s : State} (h : a.Leads s) {n : Nat} {r : Reg} {value mask : Word} {e : AccEnv} {p : Status × State}
    (g : s.actSide n r value mask e = some p) : a.Leads p.2 := by
  unfold State.actSide at g
  repeat' first
    | with_reducible refine leads_ite_some ?_ ?_ g
    | intro g
    | exact leads_none g
    | with_reducible exact clkCtrlWrite_leads h ..
    | with_reducible exact clkOutWrite_leads h ..
    | with_reducible exact timeUtcWrite_leads h ..
    | with_reducible exact calDateWrite_leads h ..
    | with_reducible exact calTimeWrite_leads h ..
    | with_reducible exact pwrReq_leads h ..
    | with_reducible exact logCmd_leads h ..
    | with_reducible exact lockWrite_leads h ..
    | with_reducible exact keySel_leads h ..
    | with_reducible exact keyWrite_leads h ..
    | with_reducible exact ringCtrlWrite_leads h ..
    | with_reducible exact ringClear_leads h ..
    | with_reducible exact cmpStatWrite_leads h ..
    | with_reducible exact legCtrlWrite_leads h ..
    | with_reducible exact recCmd_leads h ..
    | with_reducible exact softTrigger_leads h ..
    | with_reducible exact xspiGo_leads h ..

theorem loWrite_leads {a₀ s : State} (h₀ : a₀.Leads s) (n : Nat) (r : Reg) (value : Word) (mask : Word) : a₀.Leads (State.loWrite s n r value mask).2 := by
  unfold State.loWrite
  try dsimp only
  repeat' first
    | with_reducible exact h₀
    | with_reducible assumption
    | with_reducible apply setSess_leads
    | split
    | with_reducible refine leads_of_snd (by assumption) ?_
    | with_reducible refine leads_of_fst (by assumption) ?_
    | dsimp only
    | (with_reducible apply leads_mk; first | with_reducible exact h₀ | with_reducible assumption | with_reducible apply setSess_leads | split | with_reducible refine leads_of_snd (by assumption) ?_ | with_reducible refine leads_of_fst (by assumption) ?_ | dsimp only)

theorem hiWrite_leads {a₀ s : State} (h₀ : a₀.Leads s) (n : Nat) (r : Reg) (value : Word) (mask : Word) : a₀.Leads (State.hiWrite s n r value mask).2 := by
  unfold State.hiWrite
  dsimp only
  repeat' first
    | with_reducible exact h₀
    | with_reducible apply writeReg_leads
    | with_reducible apply setSess_leads
    | split

theorem writeAt_leads {a₀ s : State} (h₀ : a₀.Leads s) (n : Nat) (r : Reg) (value mask : Word) (e : AccEnv) :
    a₀.Leads (s.writeAt n r value mask e).2 := by
  unfold State.writeAt
  split
  · exact actVote_leads h₀ (by assumption)
  · split
    · exact actSide_leads h₀ (by assumption)
    · split
      · exact loWrite_leads h₀ ..
      · split
        · exact hiWrite_leads h₀ ..
        · exact writeReg_leads h₀ ..

theorem writeAny_leads {a₀ s : State} (h₀ : a₀.Leads s) (n : Nat) (addr : Nat) (value : Word) (mask : Word) (e : AccEnv) : a₀.Leads (State.writeAny s n addr value mask e).2 := by
  unfold State.writeAny
  repeat' first
    | with_reducible exact h₀
    | with_reducible apply writeAt_leads
    | split

theorem loRead_leads {a₀ s : State} (h₀ : a₀.Leads s) (n : Nat) (r : Reg) : a₀.Leads (State.loRead s n r).2 := by
  unfold State.loRead
  repeat' first
    | with_reducible exact h₀
    | with_reducible assumption
    | with_reducible apply readWord_leads
    | with_reducible apply setSess_leads
    | with_reducible apply leads_foldl_snd
    | (intro _ _; intro)

theorem snapRead_leads {a₀ s : State} (h₀ : a₀.Leads s) (n : Nat) (r : Reg) : a₀.Leads (State.snapRead s n r).2 := by
  unfold State.snapRead
  dsimp only
  repeat' first
    | with_reducible exact h₀
    | with_reducible apply setSess_leads
    | with_reducible apply readWord_leads
    | split

theorem actRead_leads {a s : State} (h : a.Leads s) {n : Nat} {r : Reg} {p : Word × State}
    (g : s.actRead n r = some p) : a.Leads p.2 := by
  unfold State.actRead at g
  repeat' first
    | with_reducible refine leads_ite_some ?_ ?_ g
    | intro g
    | exact leads_none g
    | with_reducible exact tlmRead_leads h ..
    | with_reducible exact calDateRead_leads h ..
    | with_reducible exact recStatusRead_leads h ..
    | with_reducible exact thmPeak_leads h ..
    | with_reducible exact qLo_leads h ..
    | with_reducible exact qHi_leads h ..

theorem readAt_leads {a₀ s : State} (h₀ : a₀.Leads s) (n : Nat) (r : Reg) : a₀.Leads (s.readAt n r).2 := by
  unfold State.readAt
  split
  · exact actRead_leads h₀ (by assumption)
  · split
    · exact loRead_leads h₀ n r
    · exact snapRead_leads h₀ n r

theorem readAny_leads {a₀ s : State} (h₀ : a₀.Leads s) (n : Nat) (addr : Nat) : a₀.Leads (State.readAny s n addr).2.2 := by
  unfold State.readAny
  repeat' first
    | with_reducible exact h₀
    | with_reducible apply readAt_leads
    | split

theorem readBy_leads {a₀ s : State} (h₀ : a₀.Leads s) (n : Nat) (addr : Nat) : a₀.Leads (State.readBy s n addr) := by
  unfold State.readBy
  repeat' first
    | with_reducible exact h₀
    | with_reducible apply readAny_leads
    | with_reducible apply answer_leads
    | split

theorem writeBy_leads {a₀ s : State} (h₀ : a₀.Leads s) (n : Nat) (addr : Nat) (value : Word) (mask : Word) (e : AccEnv) : a₀.Leads (State.writeBy s n addr value mask e) := by
  unfold State.writeBy
  try dsimp only
  repeat' first
    | with_reducible exact h₀
    | with_reducible assumption
    | with_reducible apply writeAny_leads
    | with_reducible apply ask_leads
    | with_reducible apply answer_leads
    | with_reducible apply access_leads
    | with_reducible apply answerW_leads
    | with_reducible refine leads_of_snd (by assumption) ?_
    | with_reducible refine leads_of_fst (by assumption) ?_
    | (intro _ _; intro)
    | intro _ _
    | intro _
    | split
    | dsimp only

theorem pourRights_leads {a₀ s : State} (h₀ : a₀.Leads s) (n : Nat) (orphan : Bool) : a₀.Leads (State.pourRights s n orphan) := by
  unfold State.pourRights
  try dsimp only
  repeat' first
    | with_reducible exact h₀
    | with_reducible assumption
    | with_reducible apply setSess_leads
    | with_reducible apply setMgmt_leads
    | with_reducible apply setPour_leads
    | with_reducible apply setStart_leads
    | split
    | dsimp only
    | (with_reducible apply leads_mk; first | with_reducible exact h₀ | with_reducible assumption | with_reducible apply setSess_leads | with_reducible apply setMgmt_leads | with_reducible apply setPour_leads | with_reducible apply setStart_leads | split | dsimp only)

theorem endRights_leads {a₀ s : State} (h₀ : a₀.Leads s) (old : State) (n : Nat) : a₀.Leads (State.endRights s old n) := by
  unfold State.endRights
  try dsimp only
  repeat' first
    | with_reducible exact h₀
    | with_reducible assumption
    | with_reducible apply setMgmt_leads
    | with_reducible apply setSess_leads
    | with_reducible apply setPour_leads
    | with_reducible apply setStart_leads
    | split
    | with_reducible refine leads_of_snd (by assumption) ?_
    | with_reducible refine leads_of_fst (by assumption) ?_
    | dsimp only
    | (with_reducible apply leads_mk; first | with_reducible exact h₀ | with_reducible assumption | with_reducible apply setMgmt_leads | with_reducible apply setSess_leads | with_reducible apply setPour_leads | with_reducible apply setStart_leads | split | with_reducible refine leads_of_snd (by assumption) ?_ | with_reducible refine leads_of_fst (by assumption) ?_ | dsimp only)

theorem pourWrite_leads {a₀ s : State} (h₀ : a₀.Leads s) (n : Nat) (orphan : Bool) (w : PWrite) (e : AccEnv) : a₀.Leads (State.pourWrite s n orphan w e) := by
  unfold State.pourWrite
  try dsimp only
  repeat' first
    | with_reducible exact h₀
    | with_reducible assumption
    | with_reducible apply writeAny_leads
    | with_reducible apply ask_leads
    | split
    | with_reducible refine leads_of_snd (by assumption) ?_
    | with_reducible refine leads_of_fst (by assumption) ?_
    | dsimp only

theorem pourActs_leads {a₀ s : State} (h₀ : a₀.Leads s) (k : Nat) (e : AccEnv) : a₀.Leads (State.pourActs s k e) := by
  unfold State.pourActs
  try dsimp only
  repeat' first
    | with_reducible exact h₀
    | with_reducible assumption
    | with_reducible apply pourRights_leads
    | with_reducible apply pourWrite_leads
    | with_reducible apply endRights_leads
    | with_reducible apply leads_foldl
    | (intro _ _; intro)
    | intro _ _
    | intro _
    | split
    | dsimp only

end Sys2Proof.Machine
end

