-- ==== Sys2Proof/Laws/Leads/Mgmt.lean ====
section
/-! SUPPORT. What every command keeps (`State.Leads`): the operations of Mgmt.lean. -/

namespace Sys2Proof.Machine

theorem badFrame_leads {a₀ s : State} (h₀ : a₀.Leads s)  : a₀.Leads (State.badFrame s) := by
  unfold State.badFrame
  try dsimp only
  repeat' first
    | with_reducible exact h₀
    | with_reducible assumption
    | with_reducible apply setMgmt_leads
    | with_reducible apply setLog_leads
    | with_reducible apply event_leads
    | split
    | dsimp only
    | (with_reducible apply leads_mk; first | with_reducible exact h₀ | with_reducible assumption | with_reducible apply setMgmt_leads | with_reducible apply setLog_leads | with_reducible apply event_leads | split | dsimp only)

theorem newFrame_leads {a₀ s : State} (h₀ : a₀.Leads s) (i2c : Bool) : a₀.Leads (State.newFrame s i2c) := by
  unfold State.newFrame
  try dsimp only
  repeat' first
    | with_reducible exact h₀
    | with_reducible assumption
    | with_reducible apply setMgmt_leads
    | split
    | dsimp only
    | (with_reducible apply leads_mk; first | with_reducible exact h₀ | with_reducible assumption | with_reducible apply setMgmt_leads | split | dsimp only)

theorem sendReply_leads {a₀ s : State} (h₀ : a₀.Leads s) (i2c : Bool) (r : Reply) : a₀.Leads (State.sendReply s i2c r) := by
  unfold State.sendReply
  try dsimp only
  repeat' first
    | with_reducible exact h₀
    | with_reducible assumption
    | with_reducible apply setMgmt_leads
    | split
    | dsimp only
    | (with_reducible apply leads_mk; first | with_reducible exact h₀ | with_reducible assumption | with_reducible apply setMgmt_leads | split | dsimp only)

theorem finish_leads {a : State} {x : Answer} (g : a.Leads x.state) (h : MHead) (n : Nat) (r : Reply) :
    a.Leads (x.finish h n r) := by
  unfold Answer.finish
  exact sendReply_leads (setSess_leads g ..) ..

theorem close_leads {a : State} {x : Answer} (g : a.Leads x.state) (h : MHead) (n : Nat) (r : Reply) :
    a.Leads (x.close h n r) := by
  unfold Answer.close
  split
  · exact setSess_leads g ..
  · exact finish_leads g ..

theorem requestRun_leads {a s : State} (h : a.Leads s) (m : MHead) (two : Bool) (n : Nat) (r : Reply)
    (f : State → Nat → Answer) (hf : ∀ s, a.Leads s → ∀ n, a.Leads (f s n).state) :
    a.Leads (State.request.run m two s n r f) := by
  unfold State.request.run
  refine close_leads ?_ ..
  split
  · exact setSess_leads h ..
  · exact hf _ (setSess_leads h ..) n

theorem request_leads {a s : State} (h : a.Leads s) (m : MHead) (op : Nat) (two : Bool) (body : List Byte)
    (f : State → Nat → Answer) (hf : ∀ s, a.Leads s → ∀ n, a.Leads (f s n).state) :
    a.Leads (s.request m op two body f) := by
  unfold State.request
  dsimp only
  repeat' first
    | with_reducible exact h
    | with_reducible apply badFrame_leads
    | with_reducible apply newFrame_leads
    | with_reducible apply sendReply_leads
    | with_reducible apply setSess_leads
    | (with_reducible refine requestRun_leads ?_ _ _ _ _ _ hf)
    | with_reducible apply setMgmt_leads
    | split

theorem openSession_leads {a₀ s : State} (h₀ : a₀.Leads s) (h : MHead) (body : List Byte) : a₀.Leads (State.openSession s h body).state := by
  unfold State.openSession
  dsimp only
  repeat' first
    | with_reducible exact h₀
    | with_reducible apply event_leads
    | with_reducible apply setSess_leads
    | split

theorem opRead_leads {a₀ s : State} (h₀ : a₀.Leads s) (n : Nat) (body : List Byte) : a₀.Leads (State.opRead s n body).state := by
  unfold State.opRead
  repeat' first
    | with_reducible exact h₀
    | with_reducible assumption
    | with_reducible apply readAny_leads
    | with_reducible apply leads_foldl_snd
    | (intro _ _; intro)
    | split

theorem writeParts_leads {a : State} (h : MHead) (e : AccEnv) (n : Nat) (l : List (List Byte)) :
    ∀ (k : Nat) {s : State}, a.Leads s → a.Leads (State.writeParts h e n l k s).state := by
  induction l with
  | nil => intro k s h₀; exact h₀
  | cons p l ih =>
    intro k s h₀
    unfold State.writeParts
    have g := writeAny_leads h₀ n (leAt p 0 4) (BitVec.ofNat 32 (leAt p 4 4)) (BitVec.ofNat 32 (leAt p 8 4)) e
    split
    · rename_i q; rw [q] at g; exact ih _ g
    · rename_i q; rw [q] at g; exact ask_leads g _
    · rename_i q; rw [q] at g; exact g

theorem opWrite_leads {a s : State} (h₀ : a.Leads s) (h : MHead) (n : Nat) (body : List Byte) (e : AccEnv) :
    a.Leads (s.opWrite h n body e).state := by
  unfold State.opWrite
  split
  · exact h₀
  · exact writeParts_leads h e n _ 0 h₀

theorem freeBytes_leads {a₀ s : State} (h₀ : a₀.Leads s) (n : Nat) : a₀.Leads (State.freeBytes s n).2 := by
  unfold State.freeBytes
  repeat' first
    | with_reducible exact h₀
    | with_reducible assumption
    | with_reducible apply freeStep_leads
    | with_reducible apply leads_foldl_snd
    | (intro _ _; intro)

theorem mramBytes_leads {a₀ s : State} (h₀ : a₀.Leads s) (off : Nat) (n : Nat) : a₀.Leads (State.mramBytes s off n).2 := by
  unfold State.mramBytes
  dsimp only
  repeat' first
    | with_reducible exact h₀
    | with_reducible assumption
    | with_reducible apply freeBytes_leads
    | with_reducible apply leads_foldl_snd
    | (intro _ _; intro)
    | split

theorem windowBytes_leads {a₀ s : State} (h₀ : a₀.Leads s) (kind : Nat) (ix : Nat) (off : Nat) (n : Nat) : a₀.Leads (State.windowBytes s kind ix off n).2 := by
  unfold State.windowBytes
  try dsimp only
  repeat' first
    | with_reducible exact h₀
    | with_reducible assumption
    | with_reducible apply freeStep_leads
    | with_reducible apply mramBytes_leads
    | with_reducible apply freeBytes_leads
    | split
    | with_reducible refine leads_of_snd (by assumption) ?_
    | with_reducible refine leads_of_fst (by assumption) ?_
    | dsimp only

theorem opReadBlockWin_leads {a : State} (n : Nat) (k : Nat) : ∀ {addr len : Nat} {b : List Byte} {s : State}, a.Leads s →
    a.Leads (State.opReadBlock.win (fun b st s => ⟨.ok, false, blockBody b st, s⟩) n k addr len b s).state := by
  induction k with
  | zero => intro _ _ _ _ h; exact h
  | succ k ih =>
    intro addr len b s h
    unfold State.opReadBlock.win
    repeat' first
      | with_reducible exact h
      | (dsimp only; with_reducible exact ih (windowBytes_leads h ..))
      | split

theorem opReadBlockGo_leads {a : State} (n : Nat) (k : Nat) : ∀ {addr : Nat} {b : List Byte} {s : State}, a.Leads s →
    a.Leads (State.opReadBlock.go (fun b st s => ⟨.ok, false, blockBody b st, s⟩) n addr k b s).state := by
  induction k with
  | zero => intro _ _ _ h; exact h
  | succ k ih =>
    intro addr b s h
    unfold State.opReadBlock.go
    have g := readAny_leads h n addr
    split
    · rename_i q; rw [q] at g; exact ih g
    · rename_i q; rw [q] at g; exact g

theorem opReadBlock_leads {a₀ s : State} (h₀ : a₀.Leads s) (n : Nat) (i2c : Bool) (body : List Byte) : a₀.Leads (State.opReadBlock s n i2c body).state := by
  unfold State.opReadBlock
  try dsimp only
  repeat' first
    | with_reducible exact h₀
    | with_reducible assumption
    | with_reducible apply windowBytes_leads
    | with_reducible apply readAny_leads
    | split
    | with_reducible refine leads_of_snd (by assumption) ?_
    | with_reducible refine leads_of_fst (by assumption) ?_
    | with_reducible exact opReadBlockGo_leads n _ h₀
    | with_reducible exact opReadBlockWin_leads n _ h₀
    | dsimp only

theorem opEventFetch_leads {a₀ s : State} (h₀ : a₀.Leads s) (i2c : Bool) (body : List Byte) : a₀.Leads (State.opEventFetch s i2c body).state := by
  unfold State.opEventFetch
  dsimp only
  repeat' first
    | with_reducible exact h₀
    | split

theorem opQuery_leads {a₀ s : State} (h₀ : a₀.Leads s) (i2c : Bool) (body : List Byte) : a₀.Leads (State.opQuery s i2c body).state := by
  unfold State.opQuery
  dsimp only
  repeat' first
    | with_reducible exact h₀
    | split

theorem readRec_leads {a₀ s : State} (h₀ : a₀.Leads s) (r : CRec) (e : ReadFail) : a₀.Leads (State.readRec s r e).2 := by
  unfold State.readRec
  try dsimp only
  repeat' first
    | with_reducible exact h₀
    | with_reducible assumption
    | with_reducible apply count_leads
    | with_reducible apply submit_leads
    | with_reducible apply event_leads
    | with_reducible apply failDrive_leads
    | with_reducible apply leads_foldl
    | (intro _ _; intro)
    | intro _ _
    | intro _
    | split
    | with_reducible refine leads_of_snd (by assumption) ?_
    | with_reducible refine leads_of_fst (by assumption) ?_
    | dsimp only

theorem setFetch_leads {a₀ s : State} (h₀ : a₀.Leads s) (n : Nat) (f : Option (Nat × Nat × Nat)) : a₀.Leads (State.setFetch s n f) := by
  unfold State.setFetch
  repeat' first
    | with_reducible exact h₀
    | with_reducible apply setSess_leads

theorem fetchRec_leads {a₀ s : State} (h₀ : a₀.Leads s) (n : Nat) (m : Nat) (q : Nat) (off : Nat) (len : Nat) (e : ReadFail) : a₀.Leads (State.fetchRec s n m q off len e).state := by
  unfold State.fetchRec
  try dsimp only
  repeat' first
    | with_reducible exact h₀
    | with_reducible assumption
    | with_reducible apply setFetch_leads
    | with_reducible apply readRec_leads
    | with_reducible apply setRec_leads
    | split
    | with_reducible refine leads_of_snd (by assumption) ?_
    | with_reducible refine leads_of_fst (by assumption) ?_
    | dsimp only
    | (with_reducible apply leads_mk; first | with_reducible exact h₀ | with_reducible assumption | with_reducible apply setFetch_leads | with_reducible apply readRec_leads | with_reducible apply setRec_leads | split | with_reducible refine leads_of_snd (by assumption) ?_ | with_reducible refine leads_of_fst (by assumption) ?_ | dsimp only)

theorem readRecs_leads {a : State} (e : ReadFail) (l : List CRec) : ∀ {s : State}, a.Leads s → a.Leads (s.readRecs e l).2 := by
  induction l with
  | nil => intro s h₀; exact h₀
  | cons r l ih =>
    intro s h₀
    unfold State.readRecs
    have g := readRec_leads h₀ r e
    dsimp only
    split
    · exact ih g
    · exact g

theorem fetchCap_leads {a₀ s : State} (h₀ : a₀.Leads s) (n m cap q off len : Nat) (e : ReadFail) :
    a₀.Leads (State.fetchCap s n m cap q off len e).state := by
  unfold State.fetchCap
  dsimp only
  repeat' first
    | with_reducible exact h₀
    | with_reducible apply setFetch_leads
    | with_reducible apply setRec_leads
    | with_reducible apply readRecs_leads
    | split

theorem opFetch_leads {a₀ s : State} (h₀ : a₀.Leads s) (n : Nat) (i2c : Bool) (body : List Byte) (e : ReadFail) : a₀.Leads (State.opFetch s n i2c body e).state := by
  unfold State.opFetch
  try dsimp only
  repeat' first
    | with_reducible exact h₀
    | with_reducible assumption
    | with_reducible apply fetchRec_leads
    | with_reducible apply fetchCap_leads
    | split
    | dsimp only

theorem opChallenge_leads {a₀ s : State} (h₀ : a₀.Leads s) (n : Nat) (body : List Byte) : a₀.Leads (State.opChallenge s n body).state := by
  unfold State.opChallenge
  dsimp only
  repeat' first
    | with_reducible exact h₀
    | with_reducible apply freeBytes_leads
    | with_reducible apply setSess_leads
    | split

theorem reject_leads {a₀ s : State} (h₀ : a₀.Leads s) (n : Nat) (mode : Nat) : a₀.Leads (State.reject s n mode) := by
  unfold State.reject
  dsimp only
  repeat' first
    | with_reducible exact h₀
    | with_reducible apply setStart_leads
    | with_reducible apply event_leads
    | split

theorem opResponse_leads {a₀ s : State} (h₀ : a₀.Leads s) (n : Nat) (body : List Byte) : a₀.Leads (State.opResponse s n body).state := by
  unfold State.opResponse
  dsimp only
  repeat' first
    | with_reducible exact h₀
    | with_reducible apply setSess_leads
    | with_reducible apply setStart_leads
    | with_reducible apply event_leads
    | with_reducible apply reject_leads
    | split

end Sys2Proof.Machine
end

