-- ==== Sys2Proof/Laws/Leads/Sfp.lean ====
section
/-! SUPPORT. What every command keeps (`State.Leads`): the operations of Sfp.lean. -/

namespace Sys2Proof.Machine

theorem setCage_leads {a₀ s : State} (h₀ : a₀.Leads s) (c : Nat) (x : Cage) : a₀.Leads (State.setCage s c x) := by
  unfold State.setCage
  try dsimp only
  repeat' first
    | with_reducible exact h₀
    | with_reducible assumption
    | with_reducible apply setPins_leads
    | dsimp only
    | (with_reducible apply leads_mk; first | with_reducible exact h₀ | with_reducible assumption | with_reducible apply setPins_leads | dsimp only)

theorem cageLost_leads {a₀ s : State} (h₀ : a₀.Leads s) (c : Nat) : a₀.Leads (State.cageLost s c) := by
  unfold State.cageLost
  repeat' first
    | with_reducible exact h₀
    | with_reducible assumption
    | with_reducible apply linkDown_leads
    | with_reducible apply put_leads
    | with_reducible apply pbLinkDown_leads
    | with_reducible apply leads_inDom
    | intro _ _
    | split

end Sys2Proof.Machine
end

