-- ==== Sys2Proof/Laws/Leads/Freeze.lean ====
section
/-! SUPPORT. What every command keeps (`State.Leads`): the operations of Freeze.lean. -/

namespace Sys2Proof.Machine

theorem runWrites_leads {a₀ s : State} (h₀ : a₀.Leads s) (h : MHead) (k : Nat) (rest : List (List Byte)) (e : AccEnv) : a₀.Leads (State.runWrites s h k rest e) := by
  unfold State.runWrites
  try dsimp only
  repeat' first
    | with_reducible exact h₀
    | with_reducible assumption
    | split
    | with_reducible apply finish_leads
    | with_reducible apply writeParts_leads
    | dsimp only
    | (with_reducible apply leads_mk; first | with_reducible exact h₀ | with_reducible assumption | split | with_reducible apply finish_leads | with_reducible apply writeParts_leads | dsimp only)

theorem runAsk_leads {a₀ s : State} (h₀ : a₀.Leads s) (a : CellAsk) : a₀.Leads (State.runAsk s a) := by
  unfold State.runAsk
  try dsimp only
  repeat' first
    | with_reducible exact h₀
    | with_reducible assumption
    | with_reducible apply happen_leads
    | with_reducible apply writeBy_leads
    | with_reducible apply pourRights_leads
    | with_reducible apply pourWrite_leads
    | with_reducible apply endRights_leads
    | with_reducible apply runWrites_leads
    | with_reducible apply access_leads
    | with_reducible refine leads_of_snd (by assumption) ?_
    | with_reducible refine leads_of_fst (by assumption) ?_
    | (intro _ _; intro)
    | intro _ _
    | intro _
    | split
    | dsimp only

theorem runAsks_leads {a₀ s : State} (h₀ : a₀.Leads s)  : a₀.Leads (State.runAsks s) := by
  unfold State.runAsks
  try dsimp only
  repeat' first
    | with_reducible exact h₀
    | with_reducible assumption
    | with_reducible apply runAsk_leads
    | with_reducible apply setCells_leads
    | with_reducible apply leads_foldl
    | (intro _ _; intro)
    | intro _ _
    | intro _
    | dsimp only
    | (with_reducible apply leads_mk; first | with_reducible exact h₀ | with_reducible assumption | with_reducible apply runAsk_leads | with_reducible apply setCells_leads | with_reducible apply leads_foldl | (intro _ _; intro) | intro _ _ | intro _ | dsimp only)

theorem sequence_leads {a₀ s : State} (h₀ : a₀.Leads s)  : a₀.Leads (State.sequence s) := by
  unfold State.sequence
  try dsimp only
  repeat' first
    | with_reducible exact h₀
    | with_reducible assumption
    | with_reducible apply stageCluster_leads
    | with_reducible apply mpptFollow_leads
    | with_reducible apply noteZs_leads
    | with_reducible apply mpptStat_leads
    | with_reducible apply islTake_leads
    | with_reducible apply islFreeze_leads
    | with_reducible apply leads_foldl
    | with_reducible apply leads_inDom
    | (intro _ _; intro)
    | intro _ _
    | intro _
    | dsimp only

theorem lanesPass_leads {a₀ s : State} (h₀ : a₀.Leads s) (dis : List LaneDis) : a₀.Leads (State.lanesPass s dis) := by
  unfold State.lanesPass
  try dsimp only
  repeat' first
    | with_reducible exact h₀
    | with_reducible assumption
    | with_reducible apply laneFreeze_leads
    | with_reducible apply cellSlots_leads
    | with_reducible apply haltsSeen_leads
    | with_reducible apply clusterHalt_leads
    | with_reducible apply cellSteps_leads
    | with_reducible apply marginFreeze_leads
    | with_reducible apply startWindow_leads
    | with_reducible apply wearFreeze_leads
    | with_reducible apply runAsks_leads
    | with_reducible apply gridShow_leads
    | with_reducible apply takeCluster_leads
    | with_reducible apply firstCycle_leads
    | with_reducible apply cePass_leads
    | with_reducible apply publish_leads
    | with_reducible apply judgeLanes_leads
    | with_reducible apply svPubFreeze_leads
    | with_reducible apply gooseFreeze_leads
    | with_reducible apply sequence_leads
    | with_reducible apply leads_foldl
    | with_reducible apply leads_forN
    | (intro _ _; intro)
    | intro _ _
    | intro _
    | split
    | with_reducible refine leads_of_snd (by assumption) ?_
    | with_reducible refine leads_of_fst (by assumption) ?_
    | dsimp only

theorem freezeNow_leads {a₀ s : State} (h₀ : a₀.Leads s) (dis : List LaneDis) (corr : List (Nat × Nat)) : a₀.Leads (State.freezeNow s dis corr) := by
  unfold State.freezeNow
  try dsimp only
  repeat' first
    | with_reducible exact h₀
    | with_reducible assumption
    | with_reducible apply setLink_leads
    | with_reducible apply slewLarge_leads
    | with_reducible apply ringSlots_leads
    | with_reducible apply laneCorr_leads
    | with_reducible apply lanesPass_leads
    | with_reducible apply runAsks_leads
    | with_reducible apply legFreeze_leads
    | with_reducible apply pourFreeze_leads
    | with_reducible apply strmFreeze_leads
    | with_reducible apply capFreeze_leads
    | with_reducible apply cmpFreeze_leads
    | with_reducible apply leads_forN
    | (intro _ _; intro)
    | intro _ _
    | intro _
    | split
    | dsimp only
    | (with_reducible apply leads_mk; first | with_reducible exact h₀ | with_reducible assumption | with_reducible apply setLink_leads | with_reducible apply slewLarge_leads | with_reducible apply ringSlots_leads | with_reducible apply laneCorr_leads | with_reducible apply lanesPass_leads | with_reducible apply runAsks_leads | with_reducible apply legFreeze_leads | with_reducible apply pourFreeze_leads | with_reducible apply strmFreeze_leads | with_reducible apply capFreeze_leads | with_reducible apply cmpFreeze_leads | with_reducible apply leads_forN | (intro _ _; intro) | intro _ _ | intro _ | split | dsimp only)

end Sys2Proof.Machine
end

