-- ==== Sys2Proof/Laws/Leads/ExecA.lean ====
section
/-! SUPPORT. Every command answers a next state that keeps what `State.Leads` says, part A. -/

namespace Sys2Proof.Machine

theorem execRegisterWrite_leads (t : Nat) (n : SessIx) (addr : Nat) (value : Word) (mask : Word) (e : AccEnv) (s : State) :
    ∃ s', execRegisterWrite t n addr value mask e s = .next s' ∧ (s.advance t).Leads s' := by
  refine ⟨_, rfl, ?_⟩
  have h₀ := State.Leads.refl (s.advance t)
  revert h₀
  generalize s.advance t = a₀
  intro h₀
  repeat' first
    | with_reducible exact h₀
    | with_reducible apply writeBy_leads

theorem execPairLoRead_leads (t : Nat) (n : SessIx) (addr : Nat) (s : State) :
    ∃ s', execPairLoRead t n addr s = .next s' ∧ (s.advance t).Leads s' := by
  refine ⟨_, rfl, ?_⟩
  have h₀ := State.Leads.refl (s.advance t)
  revert h₀
  generalize s.advance t = a₀
  intro h₀
  repeat' first
    | with_reducible exact h₀
    | with_reducible apply readBy_leads
    | split

theorem execPairHiRead_leads (t : Nat) (n : SessIx) (addr : Nat) (s : State) :
    ∃ s', execPairHiRead t n addr s = .next s' ∧ (s.advance t).Leads s' := by
  refine ⟨_, rfl, ?_⟩
  have h₀ := State.Leads.refl (s.advance t)
  revert h₀
  generalize s.advance t = a₀
  intro h₀
  repeat' first
    | with_reducible exact h₀
    | with_reducible apply readBy_leads
    | split

theorem execPairLoWrite_leads (t : Nat) (n : SessIx) (addr : Nat) (value : Word) (mask : Word) (s : State) :
    ∃ s', execPairLoWrite t n addr value mask s = .next s' ∧ (s.advance t).Leads s' := by
  refine ⟨_, rfl, ?_⟩
  have h₀ := State.Leads.refl (s.advance t)
  revert h₀
  generalize s.advance t = a₀
  intro h₀
  repeat' first
    | with_reducible exact h₀
    | with_reducible apply writeBy_leads
    | split

theorem execPairHiWrite_leads (t : Nat) (n : SessIx) (addr : Nat) (value : Word) (mask : Word) (s : State) :
    ∃ s', execPairHiWrite t n addr value mask s = .next s' ∧ (s.advance t).Leads s' := by
  refine ⟨_, rfl, ?_⟩
  have h₀ := State.Leads.refl (s.advance t)
  revert h₀
  generalize s.advance t = a₀
  intro h₀
  repeat' first
    | with_reducible exact h₀
    | with_reducible apply writeBy_leads
    | split

theorem execTimeNowFracRead_leads (t : Nat) (n : SessIx) (s : State) :
    ∃ s', execTimeNowFracRead t n s = .next s' ∧ (s.advance t).Leads s' := by
  refine ⟨_, rfl, ?_⟩
  have h₀ := State.Leads.refl (s.advance t)
  revert h₀
  generalize s.advance t = a₀
  intro h₀
  repeat' first
    | with_reducible exact h₀
    | with_reducible apply readBy_leads

theorem execCycleStart_leads (t : Nat) (s : State) :
    ∃ s', execCycleStart t s = .next s' ∧ (s.advance t).Leads s' := by
  refine ⟨_, rfl, ?_⟩
  have h₀ := State.Leads.refl (s.advance t)
  revert h₀
  generalize s.advance t = a₀
  intro h₀
  repeat' first
    | with_reducible exact h₀
    | with_reducible assumption
    | with_reducible apply leads_inDom
    | with_reducible apply takeReady_leads
    | with_reducible apply cycleStart_leads
    | (intro _ _; intro)
    | intro _ _
    | intro _
    | dsimp only
    | split

theorem nextInput_leads {a s x : State} (h₀ : a.Leads s) (e : s.nextInput = some x) : a.Leads x := by
  unfold State.nextInput at e
  dsimp only at e
  split at e
  · obtain rfl := Option.some.inj e; exact h₀
  · split at e
    · cases e
    · obtain rfl := Option.some.inj e; exact setLink_leads h₀ _

theorem execInputFreeze_leads (t : Nat) (rep : LaneReport) (s : State) :
    ∃ s', execInputFreeze t rep s = .next s' ∧ (s.advance t).Leads s' := by
  refine ⟨_, rfl, leads_inDom (State.Leads.refl _) fun s h => ?_⟩
  split
  · exact h
  · rename_i q
    split
    · exact h
    · exact freezeNow_leads (nextInput_leads h q) rep.dis rep.corr

theorem execScheduleLaunch_leads (t : Nat) (s : State) :
    ∃ s', execScheduleLaunch t s = .next s' ∧ (s.advance t).Leads s' := by
  refine ⟨_, rfl, ?_⟩
  have h₀ := State.Leads.refl (s.advance t)
  revert h₀
  generalize s.advance t = a₀
  intro h₀
  repeat' first
    | with_reducible exact h₀
    | with_reducible assumption
    | with_reducible apply leads_inDom
    | with_reducible apply setLink_leads
    | with_reducible apply launchRing_leads
    | with_reducible apply leads_forN
    | intro _ _
    | dsimp only
    | split

theorem execRefSelWrite_leads (t : Nat) (n : SessIx) (value : Word) (mask : Word) (step : Int) (s : State) :
    ∃ s', execRefSelWrite t n value mask step s = .next s' ∧ (s.advance t).Leads s' := by
  refine ⟨_, rfl, ?_⟩
  have h₀ := State.Leads.refl (s.advance t)
  revert h₀
  generalize s.advance t = a₀
  intro h₀
  repeat' first
    | with_reducible exact h₀
    | with_reducible assumption
    | with_reducible apply clkCtrlWrite_leads
    | with_reducible apply access_leads
    | intro _ _

theorem execRefLost_leads (t : Nat) (gapNs : Nat) (ppb : Int) (step : Int) (s : State) :
    ∃ s', execRefLost t gapNs ppb step s = .next s' ∧ (s.advance t).Leads s' := by
  refine ⟨_, rfl, ?_⟩
  have h₀ := State.Leads.refl (s.advance t)
  revert h₀
  generalize s.advance t = a₀
  intro h₀
  repeat' first
    | with_reducible exact h₀
    | with_reducible assumption
    | with_reducible apply leads_inDom
    | with_reducible apply takeover_leads
    | with_reducible apply put_leads
    | with_reducible apply event_leads
    | intro _ _
    | split

theorem execRefSwitch_leads (t : Nat) (goodFor : Nat) (step : Int) (s : State) :
    ∃ s', execRefSwitch t goodFor step s = .next s' ∧ (s.advance t).Leads s' := by
  refine ⟨_, rfl, ?_⟩
  have h₀ := State.Leads.refl (s.advance t)
  revert h₀
  generalize s.advance t = a₀
  intro h₀
  repeat' first
    | with_reducible exact h₀
    | with_reducible assumption
    | with_reducible apply leads_inDom
    | with_reducible apply takeover_leads
    | with_reducible apply put_leads
    | with_reducible apply event_leads
    | intro _ _
    | split

theorem execMdllLocked_leads (t : Nat) (second : Bool) (cycles : Nat) (s : State) :
    ∃ s', execMdllLocked t second cycles s = .next s' ∧ (s.advance t).Leads s' := by
  refine ⟨_, rfl, ?_⟩
  have h₀ := State.Leads.refl (s.advance t)
  revert h₀
  generalize s.advance t = a₀
  intro h₀
  repeat' first
    | with_reducible exact h₀
    | with_reducible apply put_leads
    | dsimp only
    | split

theorem execMdllTakeover_leads (t : Nat) (step : Int) (s : State) :
    ∃ s', execMdllTakeover t step s = .next s' ∧ (s.advance t).Leads s' := by
  refine ⟨_, rfl, ?_⟩
  have h₀ := State.Leads.refl (s.advance t)
  revert h₀
  generalize s.advance t = a₀
  intro h₀
  repeat' first
    | with_reducible exact h₀
    | with_reducible assumption
    | with_reducible apply leads_inDom
    | with_reducible apply put_leads
    | with_reducible apply takeover_leads
    | with_reducible apply event_leads
    | with_reducible apply setClk_leads
    | intro _ _
    | dsimp only
    | split

theorem execSuspensionEnd_leads (t : Nat) (held : Bool) (s : State) :
    ∃ s', execSuspensionEnd t held s = .next s' ∧ (s.advance t).Leads s' := by
  refine ⟨_, rfl, ?_⟩
  have h₀ := State.Leads.refl (s.advance t)
  revert h₀
  generalize s.advance t = a₀
  intro h₀
  repeat' first
    | with_reducible exact h₀
    | with_reducible assumption
    | with_reducible apply leads_inDom
    | with_reducible apply put_leads
    | with_reducible apply setClk_leads
    | with_reducible apply noteIntr_leads
    | with_reducible apply event_leads
    | intro _ _
    | split

theorem execMdllRetry_leads (t : Nat) (good : Bool) (s : State) :
    ∃ s', execMdllRetry t good s = .next s' ∧ (s.advance t).Leads s' := by
  refine ⟨_, rfl, ?_⟩
  have h₀ := State.Leads.refl (s.advance t)
  revert h₀
  generalize s.advance t = a₀
  intro h₀
  repeat' first
    | with_reducible exact h₀
    | with_reducible assumption
    | with_reducible apply leads_inDom
    | with_reducible apply putB_leads
    | with_reducible apply setClk_leads
    | intro _ _
    | split

theorem execMdllStandbyFault_leads (t : Nat) (s : State) :
    ∃ s', execMdllStandbyFault t s = .next s' ∧ (s.advance t).Leads s' := by
  refine ⟨_, rfl, ?_⟩
  have h₀ := State.Leads.refl (s.advance t)
  revert h₀
  generalize s.advance t = a₀
  intro h₀
  repeat' first
    | with_reducible exact h₀
    | with_reducible assumption
    | with_reducible apply leads_inDom
    | with_reducible apply put_leads
    | with_reducible apply event_leads
    | with_reducible apply setClk_leads
    | intro _ _

theorem execClkoutCfgWrite_leads (t : Nat) (n : SessIx) (k : Fin 4) (value : Word) (mask : Word) (s : State) :
    ∃ s', execClkoutCfgWrite t n k value mask s = .next s' ∧ (s.advance t).Leads s' := by
  refine ⟨_, rfl, ?_⟩
  have h₀ := State.Leads.refl (s.advance t)
  revert h₀
  generalize s.advance t = a₀
  intro h₀
  repeat' first
    | with_reducible exact h₀
    | with_reducible assumption
    | with_reducible apply clkOutWrite_leads
    | with_reducible apply access_leads
    | intro _ _

theorem execPtpAnnounce_leads (t : Nat) (port : Fin 4) (a : Announce) (s : State) :
    ∃ s', execPtpAnnounce t port a s = .next s' ∧ (s.advance t).Leads s' := by
  refine ⟨_, rfl, ?_⟩
  have h₀ := State.Leads.refl (s.advance t)
  revert h₀
  generalize s.advance t = a₀
  intro h₀
  repeat' first
    | with_reducible exact h₀
    | with_reducible assumption
    | with_reducible apply leads_inDom
    | with_reducible apply setClk_leads
    | with_reducible apply setBus_leads
    | with_reducible apply put_leads
    | with_reducible apply takeUtc_leads
    | with_reducible apply selectMaster_leads
    | with_reducible apply useMaster_leads
    | (intro _ _; intro)
    | intro _ _
    | intro _
    | dsimp only
    | split
    | with_reducible refine leads_of_snd (by assumption) ?_
    | with_reducible refine leads_of_fst (by assumption) ?_
    | (with_reducible apply leads_mk; first | with_reducible exact h₀ | with_reducible assumption | with_reducible apply leads_inDom | with_reducible apply setClk_leads | with_reducible apply setBus_leads | with_reducible apply put_leads | with_reducible apply takeUtc_leads | with_reducible apply selectMaster_leads | with_reducible apply useMaster_leads | (intro _ _; intro) | intro _ _ | intro _ | dsimp only | split | with_reducible refine leads_of_snd (by assumption) ?_ | with_reducible refine leads_of_fst (by assumption) ?_)

theorem execPtpSync_leads (t : Nat) (port : Fin 4) (origin : Nat) (freq : Int) (s : State) :
    ∃ s', execPtpSync t port origin freq s = .next s' ∧ (s.advance t).Leads s' := by
  refine ⟨_, rfl, ?_⟩
  have h₀ := State.Leads.refl (s.advance t)
  revert h₀
  generalize s.advance t = a₀
  intro h₀
  repeat' first
    | with_reducible exact h₀
    | with_reducible assumption
    | with_reducible apply leads_inDom
    | with_reducible apply putS_leads
    | with_reducible apply setClk_leads
    | with_reducible apply syncCorrect_leads
    | with_reducible apply syncLock_leads
    | intro _ _
    | dsimp only
    | split

theorem execPtpPdelay_leads (t : Nat) (port : Fin 4) (rtt : Nat) (resp : Nat) (s : State) :
    ∃ s', execPtpPdelay t port rtt resp s = .next s' ∧ (s.advance t).Leads s' := by
  refine ⟨_, rfl, ?_⟩
  have h₀ := State.Leads.refl (s.advance t)
  revert h₀
  generalize s.advance t = a₀
  intro h₀
  repeat' first
    | with_reducible exact h₀
    | with_reducible assumption
    | with_reducible apply leads_inDom
    | with_reducible apply putSat_leads
    | intro _ _
    | split

theorem execPtpMasterLost_leads (t : Nat) (lan : Fin 2) (s : State) :
    ∃ s', execPtpMasterLost t lan s = .next s' ∧ (s.advance t).Leads s' := by
  refine ⟨_, rfl, ?_⟩
  have h₀ := State.Leads.refl (s.advance t)
  revert h₀
  generalize s.advance t = a₀
  intro h₀
  repeat' first
    | with_reducible exact h₀
    | with_reducible assumption
    | with_reducible apply leads_inDom
    | with_reducible apply setBus_leads
    | with_reducible apply put_leads
    | with_reducible apply ptpSwitch_leads
    | with_reducible apply masterLost_leads
    | intro _ _
    | split
    | dsimp only

theorem execPtpLanSwitch_leads (t : Nat) (s : State) :
    ∃ s', execPtpLanSwitch t s = .next s' ∧ (s.advance t).Leads s' := by
  refine ⟨_, rfl, ?_⟩
  have h₀ := State.Leads.refl (s.advance t)
  revert h₀
  generalize s.advance t = a₀
  intro h₀
  repeat' first
    | with_reducible exact h₀
    | with_reducible assumption
    | with_reducible apply leads_inDom
    | with_reducible apply ptpSwitch_leads
    | (intro _ _; intro)
    | intro _ _
    | intro _
    | dsimp only
    | split

theorem execPtpHoldoverExpired_leads (t : Nat) (s : State) :
    ∃ s', execPtpHoldoverExpired t s = .next s' ∧ (s.advance t).Leads s' := by
  refine ⟨_, rfl, ?_⟩
  have h₀ := State.Leads.refl (s.advance t)
  revert h₀
  generalize s.advance t = a₀
  intro h₀
  repeat' first
    | with_reducible exact h₀
    | with_reducible assumption
    | with_reducible apply leads_inDom
    | with_reducible apply put_leads
    | with_reducible apply setClk_leads
    | with_reducible apply event_leads
    | intro _ _
    | split

theorem execPpsEdge_leads (t : Nat) (s : State) :
    ∃ s', execPpsEdge t s = .next s' ∧ (s.advance t).Leads s' := by
  refine ⟨_, rfl, ?_⟩
  have h₀ := State.Leads.refl (s.advance t)
  revert h₀
  generalize s.advance t = a₀
  intro h₀
  repeat' first
    | with_reducible exact h₀
    | with_reducible assumption
    | with_reducible apply leads_inDom
    | with_reducible apply setClk_leads
    | with_reducible apply slewLarge_leads
    | (intro _ _; intro)
    | intro _ _
    | intro _
    | dsimp only
    | split
    | (with_reducible apply leads_mk; first | with_reducible exact h₀ | with_reducible assumption | with_reducible apply leads_inDom | with_reducible apply setClk_leads | with_reducible apply slewLarge_leads | (intro _ _; intro) | intro _ _ | intro _ | dsimp only | split)

theorem execLeapApplied_leads (t : Nat) (s : State) :
    ∃ s', execLeapApplied t s = .next s' ∧ (s.advance t).Leads s' := by
  refine ⟨_, rfl, ?_⟩
  have h₀ := State.Leads.refl (s.advance t)
  revert h₀
  generalize s.advance t = a₀
  intro h₀
  repeat' first
    | with_reducible exact h₀
    | with_reducible assumption
    | with_reducible apply leads_inDom
    | with_reducible apply showUtc_leads
    | with_reducible apply event_leads
    | with_reducible apply setClk_leads
    | (intro _ _; intro)
    | intro _ _
    | intro _
    | dsimp only
    | split
    | (with_reducible apply leads_mk; first | with_reducible exact h₀ | with_reducible assumption | with_reducible apply leads_inDom | with_reducible apply showUtc_leads | with_reducible apply event_leads | with_reducible apply setClk_leads | (intro _ _; intro) | intro _ _ | intro _ | dsimp only | split)

theorem execTimeUtcWrite_leads (t : Nat) (n : SessIx) (value : Word) (mask : Word) (s : State) :
    ∃ s', execTimeUtcWrite t n value mask s = .next s' ∧ (s.advance t).Leads s' := by
  refine ⟨_, rfl, ?_⟩
  have h₀ := State.Leads.refl (s.advance t)
  revert h₀
  generalize s.advance t = a₀
  intro h₀
  repeat' first
    | with_reducible exact h₀
    | with_reducible assumption
    | with_reducible apply timeUtcWrite_leads
    | with_reducible apply access_leads
    | intro _ _

theorem execRtcRealign_leads (t : Nat) (s : State) :
    ∃ s', execRtcRealign t s = .next s' ∧ (s.advance t).Leads s' := by
  refine ⟨_, rfl, ?_⟩
  have h₀ := State.Leads.refl (s.advance t)
  revert h₀
  generalize s.advance t = a₀
  intro h₀
  repeat' first
    | with_reducible exact h₀
    | with_reducible assumption
    | with_reducible apply leads_inDom
    | with_reducible apply setClk_leads
    | with_reducible apply put_leads
    | with_reducible apply countLife_leads
    | intro _ _
    | split

theorem execCalRange_leads (t : Nat) (s : State) :
    ∃ s', execCalRange t s = .next s' ∧ (s.advance t).Leads s' := by
  refine ⟨_, rfl, ?_⟩
  have h₀ := State.Leads.refl (s.advance t)
  revert h₀
  generalize s.advance t = a₀
  intro h₀
  repeat' first
    | with_reducible exact h₀
    | with_reducible apply put_leads
    | with_reducible apply eventIf_leads
    | split
    | dsimp only

theorem execRtcCalDateRead_leads (t : Nat) (n : SessIx) (s : State) :
    ∃ s', execRtcCalDateRead t n s = .next s' ∧ (s.advance t).Leads s' := by
  refine ⟨_, rfl, ?_⟩
  have h₀ := State.Leads.refl (s.advance t)
  revert h₀
  generalize s.advance t = a₀
  intro h₀
  repeat' first
    | with_reducible exact h₀
    | with_reducible apply calDateRead_leads
    | split
    | dsimp only

theorem execRtcCalDateWrite_leads (t : Nat) (n : SessIx) (value : Word) (mask : Word) (s : State) :
    ∃ s', execRtcCalDateWrite t n value mask s = .next s' ∧ (s.advance t).Leads s' := by
  refine ⟨_, rfl, ?_⟩
  have h₀ := State.Leads.refl (s.advance t)
  revert h₀
  generalize s.advance t = a₀
  intro h₀
  repeat' first
    | with_reducible exact h₀
    | with_reducible assumption
    | with_reducible apply calDateWrite_leads
    | with_reducible apply access_leads
    | intro _ _

theorem execRtcCalTimeWrite_leads (t : Nat) (n : SessIx) (value : Word) (mask : Word) (s : State) :
    ∃ s', execRtcCalTimeWrite t n value mask s = .next s' ∧ (s.advance t).Leads s' := by
  refine ⟨_, rfl, ?_⟩
  have h₀ := State.Leads.refl (s.advance t)
  revert h₀
  generalize s.advance t = a₀
  intro h₀
  repeat' first
    | with_reducible exact h₀
    | with_reducible assumption
    | with_reducible apply calTimeWrite_leads
    | with_reducible apply access_leads
    | intro _ _

theorem execWakeFromRtc_leads (t : Nat) (tick : Nat) (s : State) :
    ∃ s', execWakeFromRtc t tick s = .next s' ∧ (s.advance t).Leads s' := by
  refine ⟨_, rfl, ?_⟩
  have h₀ := State.Leads.refl (s.advance t)
  revert h₀
  generalize s.advance t = a₀
  intro h₀
  repeat' first
    | with_reducible exact h₀
    | with_reducible assumption
    | with_reducible apply leads_inDom
    | with_reducible apply wakeTime_leads
    | (intro _ _; intro)
    | intro _ _
    | intro _
    | dsimp only
    | split
    | with_reducible refine leads_of_snd (by assumption) ?_
    | with_reducible refine leads_of_fst (by assumption) ?_

theorem execCremaStart_leads (t : Nat) (lost : Fin 64) (s : State) :
    ∃ s', execCremaStart t lost s = .next s' ∧ (s.advance t).Leads s' := by
  refine ⟨_, rfl, ?_⟩
  have h₀ := State.Leads.refl (s.advance t)
  revert h₀
  generalize s.advance t = a₀
  intro h₀
  repeat' first
    | with_reducible exact h₀
    | with_reducible assumption
    | with_reducible apply leads_inDom
    | with_reducible apply cremaCheck_leads
    | with_reducible apply cremaStart_leads
    | (intro _ _; intro)
    | intro _ _
    | intro _
    | dsimp only
    | split

theorem execTelemetryFrameRx_leads (t : Nat) (r : RingIx) (portB : Bool) (aborted : Bool) (bytes : List Byte) (s : State) :
    ∃ s', execTelemetryFrameRx t r portB aborted bytes s = .next s' ∧ (s.advance t).Leads s' := by
  refine ⟨_, rfl, ?_⟩
  have h₀ := State.Leads.refl (s.advance t)
  revert h₀
  generalize s.advance t = a₀
  intro h₀
  repeat' first
    | with_reducible exact h₀
    | with_reducible assumption
    | with_reducible apply leads_inDom
    | with_reducible apply telemetryRx_leads
    | intro _ _
    | split

theorem execMbxReply_leads (t : Nat) (r : RingIx) (s : State) :
    ∃ s', execMbxReply t r s = .next s' ∧ (s.advance t).Leads s' := by
  refine ⟨_, rfl, ?_⟩
  have h₀ := State.Leads.refl (s.advance t)
  revert h₀
  generalize s.advance t = a₀
  intro h₀
  repeat' first
    | with_reducible exact h₀
    | with_reducible assumption
    | with_reducible apply leads_inDom
    | with_reducible apply setRing_leads
    | with_reducible apply mbxReply_leads
    | intro _ _
    | split

theorem execMbxLeaseExpired_leads (t : Nat) (r : RingIx) (s : State) :
    ∃ s', execMbxLeaseExpired t r s = .next s' ∧ (s.advance t).Leads s' := by
  refine ⟨_, rfl, ?_⟩
  have h₀ := State.Leads.refl (s.advance t)
  revert h₀
  generalize s.advance t = a₀
  intro h₀
  repeat' first
    | with_reducible exact h₀
    | with_reducible assumption
    | with_reducible apply leads_inDom
    | with_reducible apply mbxExpire_leads
    | intro _ _
    | split

theorem execHaltRepeat_leads (t : Nat) (r : RingIx) (s : State) :
    ∃ s', execHaltRepeat t r s = .next s' ∧ (s.advance t).Leads s' := by
  refine ⟨_, rfl, ?_⟩
  have h₀ := State.Leads.refl (s.advance t)
  revert h₀
  generalize s.advance t = a₀
  intro h₀
  repeat' first
    | with_reducible exact h₀
    | with_reducible assumption
    | with_reducible apply leads_inDom
    | with_reducible apply haltTx_leads
    | with_reducible apply setRing_leads
    | with_reducible apply put_leads
    | with_reducible apply haltSettle_leads
    | (intro _ _; intro)
    | intro _ _
    | intro _
    | dsimp only
    | split
    | with_reducible refine leads_of_snd (by assumption) ?_
    | with_reducible refine leads_of_fst (by assumption) ?_
    | (with_reducible apply leads_mk; first | with_reducible exact h₀ | with_reducible assumption | with_reducible apply leads_inDom | with_reducible apply haltTx_leads | with_reducible apply setRing_leads | with_reducible apply put_leads | with_reducible apply haltSettle_leads | (intro _ _; intro) | intro _ _ | intro _ | dsimp only | split | with_reducible refine leads_of_snd (by assumption) ?_ | with_reducible refine leads_of_fst (by assumption) ?_)

theorem execDlyReqRx_leads (t : Nat) (r : RingIx) (portB : Bool) (turn : Nat) (s : State) :
    ∃ s', execDlyReqRx t r portB turn s = .next s' ∧ (s.advance t).Leads s' := by
  refine ⟨_, rfl, ?_⟩
  have h₀ := State.Leads.refl (s.advance t)
  revert h₀
  generalize s.advance t = a₀
  intro h₀
  repeat' first
    | with_reducible exact h₀
    | with_reducible assumption
    | with_reducible apply leads_inDom
    | with_reducible apply setRing_leads
    | intro _ _

theorem execDlyRspRx_leads (t : Nat) (r : RingIx) (h : Fin 129) (rtt : Nat) (turn : Nat) (s : State) :
    ∃ s', execDlyRspRx t r h rtt turn s = .next s' ∧ (s.advance t).Leads s' := by
  refine ⟨_, rfl, ?_⟩
  have h₀ := State.Leads.refl (s.advance t)
  revert h₀
  generalize s.advance t = a₀
  intro h₀
  repeat' first
    | with_reducible exact h₀
    | with_reducible assumption
    | with_reducible apply leads_inDom
    | with_reducible apply dlyRsp_leads
    | intro _ _

theorem execAlignFault_leads (t : Nat) (k : CellIx) (s : State) :
    ∃ s', execAlignFault t k s = .next s' ∧ (s.advance t).Leads s' := by
  refine ⟨_, rfl, ?_⟩
  have h₀ := State.Leads.refl (s.advance t)
  revert h₀
  generalize s.advance t = a₀
  intro h₀
  repeat' first
    | with_reducible exact h₀
    | with_reducible assumption
    | with_reducible apply leads_inDom
    | with_reducible apply setCellX_leads
    | with_reducible apply event_leads
    | intro _ _
    | split

theorem execRingEnable_leads (t : Nat) (n : SessIx) (r : RingIx) (s : State) :
    ∃ s', execRingEnable t n r s = .next s' ∧ (s.advance t).Leads s' := by
  refine ⟨_, rfl, ?_⟩
  have h₀ := State.Leads.refl (s.advance t)
  revert h₀
  generalize s.advance t = a₀
  intro h₀
  repeat' first
    | with_reducible exact h₀
    | with_reducible assumption
    | with_reducible apply ringCtrlWrite_leads
    | with_reducible apply access_leads
    | intro _ _

theorem execRingRediscover_leads (t : Nat) (n : SessIx) (r : RingIx) (s : State) :
    ∃ s', execRingRediscover t n r s = .next s' ∧ (s.advance t).Leads s' := by
  refine ⟨_, rfl, ?_⟩
  have h₀ := State.Leads.refl (s.advance t)
  revert h₀
  generalize s.advance t = a₀
  intro h₀
  repeat' first
    | with_reducible exact h₀
    | with_reducible assumption
    | with_reducible apply ringCtrlWrite_leads
    | with_reducible apply access_leads
    | intro _ _

theorem execDiscoveryRetry_leads (t : Nat) (r : RingIx) (s : State) :
    ∃ s', execDiscoveryRetry t r s = .next s' ∧ (s.advance t).Leads s' := by
  refine ⟨_, rfl, ?_⟩
  have h₀ := State.Leads.refl (s.advance t)
  revert h₀
  generalize s.advance t = a₀
  intro h₀
  repeat' first
    | with_reducible exact h₀
    | with_reducible assumption
    | with_reducible apply leads_inDom
    | with_reducible apply startDiscovery_leads
    | intro _ _
    | split
    | dsimp only

theorem execLinkBlockLock_leads (t : Nat) (r : RingIx) (portB : Bool) (peerV2 : Bool) (s : State) :
    ∃ s', execLinkBlockLock t r portB peerV2 s = .next s' ∧ (s.advance t).Leads s' := by
  refine ⟨_, rfl, ?_⟩
  have h₀ := State.Leads.refl (s.advance t)
  revert h₀
  generalize s.advance t = a₀
  intro h₀
  repeat' first
    | with_reducible exact h₀
    | with_reducible assumption
    | with_reducible apply leads_inDom
    | with_reducible apply put_leads
    | with_reducible apply startDiscovery_leads
    | with_reducible apply portTrained_leads
    | (intro _ _; intro)
    | intro _ _
    | intro _
    | dsimp only
    | split

theorem execDiscoverFrameRx_leads (t : Nat) (r : RingIx) (portB : Bool) (bytes : List Byte) (s : State) :
    ∃ s', execDiscoverFrameRx t r portB bytes s = .next s' ∧ (s.advance t).Leads s' := by
  refine ⟨_, rfl, ?_⟩
  have h₀ := State.Leads.refl (s.advance t)
  revert h₀
  generalize s.advance t = a₀
  intro h₀
  repeat' first
    | with_reducible exact h₀
    | with_reducible assumption
    | with_reducible apply leads_inDom
    | with_reducible apply discoverRx_leads
    | intro _ _

theorem execRingUp_leads (t : Nat) (r : RingIx) (aligned : Bool) (s : State) :
    ∃ s', execRingUp t r aligned s = .next s' ∧ (s.advance t).Leads s' := by
  refine ⟨_, rfl, ?_⟩
  have h₀ := State.Leads.refl (s.advance t)
  revert h₀
  generalize s.advance t = a₀
  intro h₀
  repeat' first
    | with_reducible exact h₀
    | with_reducible assumption
    | with_reducible apply leads_inDom
    | with_reducible apply ringUp_leads
    | intro _ _
    | split
    | dsimp only

theorem execLinkDown_leads (t : Nat) (r : RingIx) (h : Fin 129) (lostLock : Bool) (silentNs : Nat) (s : State) :
    ∃ s', execLinkDown t r h lostLock silentNs s = .next s' ∧ (s.advance t).Leads s' := by
  refine ⟨_, rfl, ?_⟩
  have h₀ := State.Leads.refl (s.advance t)
  revert h₀
  generalize s.advance t = a₀
  intro h₀
  repeat' first
    | with_reducible exact h₀
    | with_reducible assumption
    | with_reducible apply leads_inDom
    | with_reducible apply linkDown_leads
    | intro _ _
    | split

theorem execLinkDegraded_leads (t : Nat) (r : RingIx) (h : Fin 129) (errors : Nat) (s : State) :
    ∃ s', execLinkDegraded t r h errors s = .next s' ∧ (s.advance t).Leads s' := by
  refine ⟨_, rfl, ?_⟩
  have h₀ := State.Leads.refl (s.advance t)
  revert h₀
  generalize s.advance t = a₀
  intro h₀
  repeat' first
    | with_reducible exact h₀
    | with_reducible assumption
    | with_reducible apply leads_inDom
    | with_reducible apply setRing_leads
    | with_reducible apply count_leads
    | with_reducible apply eventIf_leads
    | intro _ _

theorem execRingLost_leads (t : Nat) (r : RingIx) (s : State) :
    ∃ s', execRingLost t r s = .next s' ∧ (s.advance t).Leads s' := by
  refine ⟨_, rfl, ?_⟩
  have h₀ := State.Leads.refl (s.advance t)
  revert h₀
  generalize s.advance t = a₀
  intro h₀
  repeat' first
    | with_reducible exact h₀
    | with_reducible assumption
    | with_reducible apply leads_inDom
    | with_reducible apply put_leads
    | with_reducible apply event_leads
    | with_reducible apply cellEvent_leads
    | with_reducible apply absentRing_leads
    | with_reducible apply retime_leads
    | (intro _ _; intro)
    | intro _ _
    | intro _
    | dsimp only
    | split

theorem execRingHealed_leads (t : Nat) (r : RingIx) (h : Fin 129) (m : Nat) (s : State) :
    ∃ s', execRingHealed t r h m s = .next s' ∧ (s.advance t).Leads s' := by
  refine ⟨_, rfl, ?_⟩
  have h₀ := State.Leads.refl (s.advance t)
  revert h₀
  generalize s.advance t = a₀
  intro h₀
  repeat' first
    | with_reducible exact h₀
    | with_reducible assumption
    | with_reducible apply leads_inDom
    | with_reducible apply put_leads
    | with_reducible apply setRing_leads
    | with_reducible apply ringFollow_leads
    | with_reducible apply eventIf_leads
    | with_reducible apply retime_leads
    | (intro _ _; intro)
    | intro _ _
    | intro _
    | dsimp only
    | split
    | (with_reducible apply leads_mk; first | with_reducible exact h₀ | with_reducible assumption | with_reducible apply leads_inDom | with_reducible apply put_leads | with_reducible apply setRing_leads | with_reducible apply ringFollow_leads | with_reducible apply eventIf_leads | with_reducible apply retime_leads | (intro _ _; intro) | intro _ _ | intro _ | dsimp only | split)

theorem execCellDiagTimeout_leads (t : Nat) (k : CellIx) (s : State) :
    ∃ s', execCellDiagTimeout t k s = .next s' ∧ (s.advance t).Leads s' := by
  refine ⟨_, rfl, ?_⟩
  have h₀ := State.Leads.refl (s.advance t)
  revert h₀
  generalize s.advance t = a₀
  intro h₀
  repeat' first
    | with_reducible exact h₀
    | with_reducible assumption
    | with_reducible apply leads_inDom
    | with_reducible apply cellEvent_leads
    | with_reducible apply diagTimeout_leads
    | (intro _ _; intro)
    | intro _ _
    | intro _
    | dsimp only
    | split

theorem execCellDiagRetry_leads (t : Nat) (k : CellIx) (s : State) :
    ∃ s', execCellDiagRetry t k s = .next s' ∧ (s.advance t).Leads s' := by
  refine ⟨_, rfl, ?_⟩
  have h₀ := State.Leads.refl (s.advance t)
  revert h₀
  generalize s.advance t = a₀
  intro h₀
  repeat' first
    | with_reducible exact h₀
    | with_reducible assumption
    | with_reducible apply leads_inDom
    | with_reducible apply cellEvent_leads
    | (intro _ _; intro)
    | intro _ _
    | intro _
    | dsimp only
    | split

theorem execCellLowVdcRecheck_leads (t : Nat) (k : CellIx) (s : State) :
    ∃ s', execCellLowVdcRecheck t k s = .next s' ∧ (s.advance t).Leads s' := by
  refine ⟨_, rfl, ?_⟩
  have h₀ := State.Leads.refl (s.advance t)
  revert h₀
  generalize s.advance t = a₀
  intro h₀
  repeat' first
    | with_reducible exact h₀
    | with_reducible assumption
    | with_reducible apply leads_inDom
    | with_reducible apply cellEvent_leads
    | (intro _ _; intro)
    | intro _ _
    | intro _
    | dsimp only
    | split

theorem execCellUnreachable_leads (t : Nat) (k : CellIx) (s : State) :
    ∃ s', execCellUnreachable t k s = .next s' ∧ (s.advance t).Leads s' := by
  refine ⟨_, rfl, ?_⟩
  have h₀ := State.Leads.refl (s.advance t)
  revert h₀
  generalize s.advance t = a₀
  intro h₀
  repeat' first
    | with_reducible exact h₀
    | with_reducible assumption
    | with_reducible apply leads_inDom
    | with_reducible apply cellEvent_leads
    | (intro _ _; intro)
    | intro _ _
    | intro _
    | dsimp only
    | split

theorem execCellStaleFault_leads (t : Nat) (k : CellIx) (s : State) :
    ∃ s', execCellStaleFault t k s = .next s' ∧ (s.advance t).Leads s' := by
  refine ⟨_, rfl, ?_⟩
  have h₀ := State.Leads.refl (s.advance t)
  revert h₀
  generalize s.advance t = a₀
  intro h₀
  repeat' first
    | with_reducible exact h₀
    | with_reducible assumption
    | with_reducible apply leads_inDom
    | with_reducible apply cellEvent_leads
    | (intro _ _; intro)
    | intro _ _
    | intro _
    | dsimp only
    | split

theorem execPwmTripLatch_leads (t : Nat) (k : CellIx) (s : State) :
    ∃ s', execPwmTripLatch t k s = .next s' ∧ (s.advance t).Leads s' := by
  refine ⟨_, rfl, ?_⟩
  have h₀ := State.Leads.refl (s.advance t)
  revert h₀
  generalize s.advance t = a₀
  intro h₀
  repeat' first
    | with_reducible exact h₀
    | with_reducible assumption
    | with_reducible apply leads_inDom
    | with_reducible apply cellEvent_leads
    | (intro _ _; intro)
    | intro _ _
    | intro _
    | dsimp only
    | split

theorem execCellOvertempBypass_leads (t : Nat) (k : CellIx) (s : State) :
    ∃ s', execCellOvertempBypass t k s = .next s' ∧ (s.advance t).Leads s' := by
  refine ⟨_, rfl, ?_⟩
  have h₀ := State.Leads.refl (s.advance t)
  revert h₀
  generalize s.advance t = a₀
  intro h₀
  repeat' first
    | with_reducible exact h₀
    | with_reducible assumption
    | with_reducible apply leads_inDom
    | with_reducible apply cellEvent_leads
    | (intro _ _; intro)
    | intro _ _
    | intro _
    | dsimp only
    | split

theorem execCellAutoReturn_leads (t : Nat) (k : CellIx) (s : State) :
    ∃ s', execCellAutoReturn t k s = .next s' ∧ (s.advance t).Leads s' := by
  refine ⟨_, rfl, ?_⟩
  have h₀ := State.Leads.refl (s.advance t)
  revert h₀
  generalize s.advance t = a₀
  intro h₀
  repeat' first
    | with_reducible exact h₀
    | with_reducible assumption
    | with_reducible apply leads_inDom
    | with_reducible apply cellEvent_leads
    | (intro _ _; intro)
    | intro _ _
    | intro _
    | dsimp only
    | split

theorem execCellRepeatFault_leads (t : Nat) (k : CellIx) (s : State) :
    ∃ s', execCellRepeatFault t k s = .next s' ∧ (s.advance t).Leads s' := by
  refine ⟨_, rfl, ?_⟩
  have h₀ := State.Leads.refl (s.advance t)
  revert h₀
  generalize s.advance t = a₀
  intro h₀
  repeat' first
    | with_reducible exact h₀
    | with_reducible assumption
    | with_reducible apply leads_inDom
    | with_reducible apply cellEvent_leads
    | with_reducible apply repeatFault_leads
    | (intro _ _; intro)
    | intro _ _
    | intro _
    | dsimp only
    | split

end Sys2Proof.Machine
end

