-- ==== Sys2Proof/Laws/Leads/ExecB.lean ====
section
/-! SUPPORT. Every command answers a next state that keeps what `State.Leads` says, part B. -/

namespace Sys2Proof.Machine

theorem execCellRampEnd_leads (t : Nat) (k : CellIx) (s : State) :
    ∃ s', execCellRampEnd t k s = .next s' ∧ (s.advance t).Leads s' := by
  refine ⟨_, rfl, ?_⟩
  have h₀ := State.Leads.refl (s.advance t)
  revert h₀
  generalize s.advance t = a₀
  intro h₀
  repeat' first
    | with_reducible exact h₀
    | with_reducible assumption
    | with_reducible apply leads_inDom
    | with_reducible apply cellEvent_leads
    | with_reducible apply rampEnd_leads
    | (intro _ _; intro)
    | intro _ _
    | intro _
    | dsimp only
    | split

theorem execCellBypassTimeout_leads (t : Nat) (k : CellIx) (s : State) :
    ∃ s', execCellBypassTimeout t k s = .next s' ∧ (s.advance t).Leads s' := by
  refine ⟨_, rfl, ?_⟩
  have h₀ := State.Leads.refl (s.advance t)
  revert h₀
  generalize s.advance t = a₀
  intro h₀
  repeat' first
    | with_reducible exact h₀
    | with_reducible assumption
    | with_reducible apply leads_inDom
    | with_reducible apply cellEvent_leads
    | with_reducible apply bypassTimeout_leads
    | (intro _ _; intro)
    | intro _ _
    | intro _
    | dsimp only
    | split

theorem execFaultBypassTimeout_leads (t : Nat) (k : CellIx) (s : State) :
    ∃ s', execFaultBypassTimeout t k s = .next s' ∧ (s.advance t).Leads s' := by
  refine ⟨_, rfl, ?_⟩
  have h₀ := State.Leads.refl (s.advance t)
  revert h₀
  generalize s.advance t = a₀
  intro h₀
  repeat' first
    | with_reducible exact h₀
    | with_reducible assumption
    | with_reducible apply leads_inDom
    | with_reducible apply cellEvent_leads
    | with_reducible apply faultTimeout_leads
    | (intro _ _; intro)
    | intro _ _
    | intro _
    | dsimp only
    | split

theorem execCellReturnOpen_leads (t : Nat) (k : CellIx) (s : State) :
    ∃ s', execCellReturnOpen t k s = .next s' ∧ (s.advance t).Leads s' := by
  refine ⟨_, rfl, ?_⟩
  have h₀ := State.Leads.refl (s.advance t)
  revert h₀
  generalize s.advance t = a₀
  intro h₀
  repeat' first
    | with_reducible exact h₀
    | with_reducible assumption
    | with_reducible apply leads_inDom
    | with_reducible apply cellEvent_leads
    | with_reducible apply returnOpen_leads
    | (intro _ _; intro)
    | intro _ _
    | intro _
    | dsimp only
    | split

theorem execCellReturnTimeout_leads (t : Nat) (k : CellIx) (s : State) :
    ∃ s', execCellReturnTimeout t k s = .next s' ∧ (s.advance t).Leads s' := by
  refine ⟨_, rfl, ?_⟩
  have h₀ := State.Leads.refl (s.advance t)
  revert h₀
  generalize s.advance t = a₀
  intro h₀
  repeat' first
    | with_reducible exact h₀
    | with_reducible assumption
    | with_reducible apply leads_inDom
    | with_reducible apply cellEvent_leads
    | with_reducible apply returnTimeout_leads
    | (intro _ _; intro)
    | intro _ _
    | intro _
    | dsimp only
    | split

theorem execCellCmdNone_leads (t : Nat) (n : SessIx) (k : CellIx) (expect : Nat) (s : State) :
    ∃ s', execCellCmdNone t n k expect s = .next s' ∧ (s.advance t).Leads s' := by
  refine ⟨_, rfl, ?_⟩
  have h₀ := State.Leads.refl (s.advance t)
  revert h₀
  generalize s.advance t = a₀
  intro h₀
  repeat' first
    | with_reducible exact h₀
    | with_reducible apply cellCmdBy_leads

theorem execCellDiagnose_leads (t : Nat) (n : SessIx) (k : CellIx) (expect : Nat) (s : State) :
    ∃ s', execCellDiagnose t n k expect s = .next s' ∧ (s.advance t).Leads s' := by
  refine ⟨_, rfl, ?_⟩
  have h₀ := State.Leads.refl (s.advance t)
  revert h₀
  generalize s.advance t = a₀
  intro h₀
  repeat' first
    | with_reducible exact h₀
    | with_reducible apply cellCmdBy_leads

theorem execCellBypass_leads (t : Nat) (n : SessIx) (k : CellIx) (expect : Nat) (s : State) :
    ∃ s', execCellBypass t n k expect s = .next s' ∧ (s.advance t).Leads s' := by
  refine ⟨_, rfl, ?_⟩
  have h₀ := State.Leads.refl (s.advance t)
  revert h₀
  generalize s.advance t = a₀
  intro h₀
  repeat' first
    | with_reducible exact h₀
    | with_reducible apply cellCmdBy_leads

theorem execCellReturn_leads (t : Nat) (n : SessIx) (k : CellIx) (expect : Nat) (s : State) :
    ∃ s', execCellReturn t n k expect s = .next s' ∧ (s.advance t).Leads s' := by
  refine ⟨_, rfl, ?_⟩
  have h₀ := State.Leads.refl (s.advance t)
  revert h₀
  generalize s.advance t = a₀
  intro h₀
  repeat' first
    | with_reducible exact h₀
    | with_reducible apply cellCmdBy_leads

theorem execCellRetire_leads (t : Nat) (n : SessIx) (k : CellIx) (expect : Nat) (s : State) :
    ∃ s', execCellRetire t n k expect s = .next s' ∧ (s.advance t).Leads s' := by
  refine ⟨_, rfl, ?_⟩
  have h₀ := State.Leads.refl (s.advance t)
  revert h₀
  generalize s.advance t = a₀
  intro h₀
  repeat' first
    | with_reducible exact h₀
    | with_reducible apply cellCmdBy_leads

theorem execCellUnretire_leads (t : Nat) (n : SessIx) (k : CellIx) (expect : Nat) (s : State) :
    ∃ s', execCellUnretire t n k expect s = .next s' ∧ (s.advance t).Leads s' := by
  refine ⟨_, rfl, ?_⟩
  have h₀ := State.Leads.refl (s.advance t)
  revert h₀
  generalize s.advance t = a₀
  intro h₀
  repeat' first
    | with_reducible exact h₀
    | with_reducible apply cellCmdBy_leads

theorem execCellClearFault_leads (t : Nat) (n : SessIx) (k : CellIx) (expect : Nat) (s : State) :
    ∃ s', execCellClearFault t n k expect s = .next s' ∧ (s.advance t).Leads s' := by
  refine ⟨_, rfl, ?_⟩
  have h₀ := State.Leads.refl (s.advance t)
  revert h₀
  generalize s.advance t = a₀
  intro h₀
  repeat' first
    | with_reducible exact h₀
    | with_reducible apply cellCmdBy_leads

theorem execCellLockout_leads (t : Nat) (n : SessIx) (k : CellIx) (expect : Nat) (s : State) :
    ∃ s', execCellLockout t n k expect s = .next s' ∧ (s.advance t).Leads s' := by
  refine ⟨_, rfl, ?_⟩
  have h₀ := State.Leads.refl (s.advance t)
  revert h₀
  generalize s.advance t = a₀
  intro h₀
  repeat' first
    | with_reducible exact h₀
    | with_reducible apply cellCmdBy_leads

theorem execCellRelease_leads (t : Nat) (n : SessIx) (k : CellIx) (expect : Nat) (s : State) :
    ∃ s', execCellRelease t n k expect s = .next s' ∧ (s.advance t).Leads s' := by
  refine ⟨_, rfl, ?_⟩
  have h₀ := State.Leads.refl (s.advance t)
  revert h₀
  generalize s.advance t = a₀
  intro h₀
  repeat' first
    | with_reducible exact h₀
    | with_reducible apply cellCmdBy_leads

theorem execCellTlmRead_leads (t : Nat) (n : SessIx) (k : CellIx) (s : State) :
    ∃ s', execCellTlmRead t n k s = .next s' ∧ (s.advance t).Leads s' := by
  refine ⟨_, rfl, ?_⟩
  have h₀ := State.Leads.refl (s.advance t)
  revert h₀
  generalize s.advance t = a₀
  intro h₀
  repeat' first
    | with_reducible exact h₀
    | with_reducible apply answer_leads
    | with_reducible apply tlmRead_leads
    | split
    | dsimp only

theorem execPwmTransitionEnd_leads (t : Nat) (c : RingIx) (s : State) :
    ∃ s', execPwmTransitionEnd t c s = .next s' ∧ (s.advance t).Leads s' := by
  refine ⟨_, rfl, ?_⟩
  have h₀ := State.Leads.refl (s.advance t)
  revert h₀
  generalize s.advance t = a₀
  intro h₀
  repeat' first
    | with_reducible exact h₀
    | with_reducible assumption
    | with_reducible apply leads_inDom
    | with_reducible apply setEng_leads
    | with_reducible apply put_leads
    | with_reducible apply event_leads
    | with_reducible apply leads_foldl
    | (intro _ _; intro)
    | intro _ _
    | dsimp only
    | split

theorem execPwmCntClear_leads (t : Nat) (n : SessIx) (s : State) :
    ∃ s', execPwmCntClear t n s = .next s' ∧ (s.advance t).Leads s' := by
  refine ⟨_, rfl, ?_⟩
  have h₀ := State.Leads.refl (s.advance t)
  revert h₀
  generalize s.advance t = a₀
  intro h₀
  repeat' first
    | with_reducible exact h₀
    | with_reducible assumption
    | with_reducible apply pwmClear_leads
    | with_reducible apply access_leads
    | intro _ _

theorem execPwmLegLatch_leads (t : Nat) (l : LegIx) (s : State) :
    ∃ s', execPwmLegLatch t l s = .next s' ∧ (s.advance t).Leads s' := by
  refine ⟨_, rfl, ?_⟩
  have h₀ := State.Leads.refl (s.advance t)
  revert h₀
  generalize s.advance t = a₀
  intro h₀
  repeat' first
    | with_reducible exact h₀
    | with_reducible assumption
    | with_reducible apply leads_inDom
    | with_reducible apply put_leads
    | with_reducible apply legGo_leads
    | with_reducible apply event_leads
    | intro _ _
    | split

theorem execLegLatchRelease_leads (t : Nat) (n : SessIx) (l : LegIx) (value : Word) (mask : Word) (s : State) :
    ∃ s', execLegLatchRelease t n l value mask s = .next s' ∧ (s.advance t).Leads s' := by
  refine ⟨_, rfl, ?_⟩
  have h₀ := State.Leads.refl (s.advance t)
  revert h₀
  generalize s.advance t = a₀
  intro h₀
  repeat' first
    | with_reducible exact h₀
    | with_reducible assumption
    | with_reducible apply legRelease_leads
    | with_reducible apply access_leads
    | intro _ _

theorem execDlyCal_leads (t : Nat) (e0 : Nat × Bool) (e1 : Nat × Bool) (e2 : Nat × Bool) (s : State) :
    ∃ s', execDlyCal t e0 e1 e2 s = .next s' ∧ (s.advance t).Leads s' := by
  refine ⟨_, rfl, ?_⟩
  have h₀ := State.Leads.refl (s.advance t)
  revert h₀
  generalize s.advance t = a₀
  intro h₀
  repeat' first
    | with_reducible exact h₀
    | with_reducible assumption
    | with_reducible apply leads_inDom
    | with_reducible apply dlyCal_leads
    | intro _ _

theorem execSvFrameRx_leads (t : Nat) (f : SvFrame) (s : State) :
    ∃ s', execSvFrameRx t f s = .next s' ∧ (s.advance t).Leads s' := by
  refine ⟨_, rfl, ?_⟩
  have h₀ := State.Leads.refl (s.advance t)
  revert h₀
  generalize s.advance t = a₀
  intro h₀
  repeat' first
    | with_reducible exact h₀
    | with_reducible assumption
    | with_reducible apply leads_inDom
    | with_reducible apply ethRx_leads
    | with_reducible apply svBudget_leads
    | with_reducible apply count_leads
    | with_reducible apply svFrame_leads
    | with_reducible apply leads_foldl
    | intro _ _
    | split
    | with_reducible refine leads_of_fst (by assumption) ?_

theorem execSvSampleMissing_leads (t : Nat) (p : PointIx) (s : State) :
    ∃ s', execSvSampleMissing t p s = .next s' ∧ (s.advance t).Leads s' := by
  refine ⟨_, rfl, ?_⟩
  have h₀ := State.Leads.refl (s.advance t)
  revert h₀
  generalize s.advance t = a₀
  intro h₀
  repeat' first
    | with_reducible exact h₀
    | with_reducible assumption
    | with_reducible apply leads_inDom
    | with_reducible apply setGpt_leads
    | with_reducible apply svMissing_leads
    | with_reducible apply put_leads
    | intro _ _
    | split
    | (with_reducible apply leads_mk; first | with_reducible exact h₀ | with_reducible assumption | with_reducible apply leads_inDom | with_reducible apply setGpt_leads | with_reducible apply svMissing_leads | with_reducible apply put_leads | intro _ _ | split)

theorem execSvStreamLost_leads (t : Nat) (j : Fin 64) (s : State) :
    ∃ s', execSvStreamLost t j s = .next s' ∧ (s.advance t).Leads s' := by
  refine ⟨_, rfl, ?_⟩
  have h₀ := State.Leads.refl (s.advance t)
  revert h₀
  generalize s.advance t = a₀
  intro h₀
  repeat' first
    | with_reducible exact h₀
    | with_reducible assumption
    | with_reducible apply leads_inDom
    | with_reducible apply setSvSub_leads
    | with_reducible apply put_leads
    | with_reducible apply event_leads
    | intro _ _
    | split
    | dsimp only

theorem execGridBlindEnd_leads (t : Nat) (p : PointIx) (s : State) :
    ∃ s', execGridBlindEnd t p s = .next s' ∧ (s.advance t).Leads s' := by
  refine ⟨_, rfl, ?_⟩
  have h₀ := State.Leads.refl (s.advance t)
  revert h₀
  generalize s.advance t = a₀
  intro h₀
  repeat' first
    | with_reducible exact h₀
    | with_reducible assumption
    | with_reducible apply leads_inDom
    | with_reducible apply setSource_leads
    | intro _ _
    | split

theorem execBsiSample_leads (t : Nat) (b : BsiIx) (bits : List Bool) (s : State) :
    ∃ s', execBsiSample t b bits s = .next s' ∧ (s.advance t).Leads s' := by
  refine ⟨_, rfl, ?_⟩
  have h₀ := State.Leads.refl (s.advance t)
  revert h₀
  generalize s.advance t = a₀
  intro h₀
  repeat' first
    | with_reducible exact h₀
    | with_reducible assumption
    | with_reducible apply leads_inDom
    | with_reducible apply setBsi_leads
    | with_reducible apply put_leads
    | with_reducible apply bsiEmit_leads
    | with_reducible apply putS_leads
    | with_reducible apply leads_foldl
    | (intro _ _; intro)
    | intro _ _
    | intro _
    | dsimp only
    | split
    | with_reducible refine leads_of_snd (by assumption) ?_
    | with_reducible refine leads_of_fst (by assumption) ?_

theorem execGridBsiUnfit_leads (t : Nat) (p : PointIx) (s : State) :
    ∃ s', execGridBsiUnfit t p s = .next s' ∧ (s.advance t).Leads s' := by
  refine ⟨_, rfl, ?_⟩
  have h₀ := State.Leads.refl (s.advance t)
  revert h₀
  generalize s.advance t = a₀
  intro h₀
  repeat' first
    | with_reducible exact h₀
    | with_reducible assumption
    | with_reducible apply leads_inDom
    | with_reducible apply put_leads
    | with_reducible apply event_leads
    | intro _ _
    | split

theorem execGridBsiFit_leads (t : Nat) (p : PointIx) (s : State) :
    ∃ s', execGridBsiFit t p s = .next s' ∧ (s.advance t).Leads s' := by
  refine ⟨_, rfl, ?_⟩
  have h₀ := State.Leads.refl (s.advance t)
  revert h₀
  generalize s.advance t = a₀
  intro h₀
  repeat' first
    | with_reducible exact h₀
    | with_reducible assumption
    | with_reducible apply leads_inDom
    | with_reducible apply put_leads
    | intro _ _
    | split

theorem execGridPhaseJump_leads (t : Nat) (p : PointIx) (s : State) :
    ∃ s', execGridPhaseJump t p s = .next s' ∧ (s.advance t).Leads s' := by
  refine ⟨_, rfl, ?_⟩
  have h₀ := State.Leads.refl (s.advance t)
  revert h₀
  generalize s.advance t = a₀
  intro h₀
  repeat' first
    | with_reducible exact h₀
    | with_reducible assumption
    | with_reducible apply leads_inDom
    | with_reducible apply count_leads
    | with_reducible apply gridUpset_leads
    | with_reducible apply setGpt_leads
    | with_reducible apply event_leads
    | intro _ _
    | split
    | dsimp only

theorem execGridSeqReversed_leads (t : Nat) (p : PointIx) (s : State) :
    ∃ s', execGridSeqReversed t p s = .next s' ∧ (s.advance t).Leads s' := by
  refine ⟨_, rfl, ?_⟩
  have h₀ := State.Leads.refl (s.advance t)
  revert h₀
  generalize s.advance t = a₀
  intro h₀
  repeat' first
    | with_reducible exact h₀
    | with_reducible assumption
    | with_reducible apply leads_inDom
    | with_reducible apply put_leads
    | with_reducible apply gridUpset_leads
    | with_reducible apply setGpt_leads
    | with_reducible apply event_leads
    | intro _ _
    | split
    | dsimp only

theorem execGridVoltageLost_leads (t : Nat) (p : PointIx) (s : State) :
    ∃ s', execGridVoltageLost t p s = .next s' ∧ (s.advance t).Leads s' := by
  refine ⟨_, rfl, ?_⟩
  have h₀ := State.Leads.refl (s.advance t)
  revert h₀
  generalize s.advance t = a₀
  intro h₀
  repeat' first
    | with_reducible exact h₀
    | with_reducible assumption
    | with_reducible apply leads_inDom
    | with_reducible apply setGpt_leads
    | with_reducible apply setF_leads
    | with_reducible apply event_leads
    | intro _ _
    | split
    | dsimp only

theorem execGridSettled_leads (t : Nat) (p : PointIx) (s : State) :
    ∃ s', execGridSettled t p s = .next s' ∧ (s.advance t).Leads s' := by
  refine ⟨_, rfl, ?_⟩
  have h₀ := State.Leads.refl (s.advance t)
  revert h₀
  generalize s.advance t = a₀
  intro h₀
  repeat' first
    | with_reducible exact h₀
    | with_reducible assumption
    | with_reducible apply leads_inDom
    | with_reducible apply setF_leads
    | intro _ _
    | split
    | dsimp only

theorem execGridHoldExpired_leads (t : Nat) (p : PointIx) (s : State) :
    ∃ s', execGridHoldExpired t p s = .next s' ∧ (s.advance t).Leads s' := by
  refine ⟨_, rfl, ?_⟩
  have h₀ := State.Leads.refl (s.advance t)
  revert h₀
  generalize s.advance t = a₀
  intro h₀
  repeat' first
    | with_reducible exact h₀
    | with_reducible assumption
    | with_reducible apply leads_inDom
    | with_reducible apply setGpt_leads
    | with_reducible apply gridReset_leads
    | with_reducible apply setF_leads
    | with_reducible apply event_leads
    | intro _ _
    | split
    | dsimp only

theorem execGridIarmLost_leads (t : Nat) (c : RingIx) (ph : Fin 3) (s : State) :
    ∃ s', execGridIarmLost t c ph s = .next s' ∧ (s.advance t).Leads s' := by
  refine ⟨_, rfl, ?_⟩
  have h₀ := State.Leads.refl (s.advance t)
  revert h₀
  generalize s.advance t = a₀
  intro h₀
  repeat' first
    | with_reducible exact h₀
    | with_reducible assumption
    | with_reducible apply leads_inDom
    | with_reducible apply setGclu_leads
    | with_reducible apply laneHalt_leads
    | with_reducible apply event_leads
    | intro _ _
    | split
    | dsimp only

theorem execGridIarmDisagree_leads (t : Nat) (k : CellIx) (s : State) :
    ∃ s', execGridIarmDisagree t k s = .next s' ∧ (s.advance t).Leads s' := by
  refine ⟨_, rfl, ?_⟩
  have h₀ := State.Leads.refl (s.advance t)
  revert h₀
  generalize s.advance t = a₀
  intro h₀
  repeat' first
    | with_reducible exact h₀
    | with_reducible assumption
    | with_reducible apply leads_inDom
    | with_reducible apply setGcell_leads
    | with_reducible apply put_leads
    | with_reducible apply event_leads
    | intro _ _
    | split
    | dsimp only

theorem execMpptStep_leads (t : Nat) (k : CellIx) (s : State) :
    ∃ s', execMpptStep t k s = .next s' ∧ (s.advance t).Leads s' := by
  refine ⟨_, rfl, ?_⟩
  have h₀ := State.Leads.refl (s.advance t)
  revert h₀
  generalize s.advance t = a₀
  intro h₀
  repeat' first
    | with_reducible exact h₀
    | with_reducible assumption
    | with_reducible apply leads_inDom
    | with_reducible apply capInstant_leads
    | with_reducible apply mpptStep_leads
    | (intro _ _; intro)
    | intro _ _
    | intro _
    | dsimp only
    | split

theorem execMpptShadeQueue_leads (t : Nat) (k : CellIx) (s : State) :
    ∃ s', execMpptShadeQueue t k s = .next s' ∧ (s.advance t).Leads s' := by
  refine ⟨_, rfl, ?_⟩
  have h₀ := State.Leads.refl (s.advance t)
  revert h₀
  generalize s.advance t = a₀
  intro h₀
  repeat' first
    | with_reducible exact h₀
    | with_reducible assumption
    | with_reducible apply leads_inDom
    | with_reducible apply setMcell_leads
    | with_reducible apply enqueue_leads
    | intro _ _
    | split
    | dsimp only

theorem execMpptScanDue_leads (t : Nat) (k : CellIx) (s : State) :
    ∃ s', execMpptScanDue t k s = .next s' ∧ (s.advance t).Leads s' := by
  refine ⟨_, rfl, leads_inDom (State.Leads.refl _) fun s h => ?_⟩
  have key : ∀ (P : Prop) [Decidable P], State.Leads _ (if P then s.enqueue k false else s) := fun P _ => by
    split
    · exact enqueue_leads h k false
    · exact h
  exact key _

theorem execMpptScanPoint_leads (t : Nat) (k : CellIx) (s : State) :
    ∃ s', execMpptScanPoint t k s = .next s' ∧ (s.advance t).Leads s' := by
  refine ⟨_, rfl, ?_⟩
  have h₀ := State.Leads.refl (s.advance t)
  revert h₀
  generalize s.advance t = a₀
  intro h₀
  repeat' first
    | with_reducible exact h₀
    | with_reducible assumption
    | with_reducible apply leads_inDom
    | with_reducible apply scanEvent_leads
    | intro _ _

theorem execMpptScanDone_leads (t : Nat) (k : CellIx) (s : State) :
    ∃ s', execMpptScanDone t k s = .next s' ∧ (s.advance t).Leads s' := by
  refine ⟨_, rfl, ?_⟩
  have h₀ := State.Leads.refl (s.advance t)
  revert h₀
  generalize s.advance t = a₀
  intro h₀
  repeat' first
    | with_reducible exact h₀
    | with_reducible assumption
    | with_reducible apply leads_inDom
    | with_reducible apply setMode_leads
    | with_reducible apply writeRef_leads
    | with_reducible apply setMcell_leads
    | with_reducible apply put_leads
    | with_reducible apply countWrap_leads
    | with_reducible apply event_leads
    | intro _ _
    | split

theorem execMpptCapInstant_leads (t : Nat) (c : RingIx) (s : State) :
    ∃ s', execMpptCapInstant t c s = .next s' ∧ (s.advance t).Leads s' := by
  refine ⟨_, rfl, ?_⟩
  have h₀ := State.Leads.refl (s.advance t)
  revert h₀
  generalize s.advance t = a₀
  intro h₀
  repeat' first
    | with_reducible exact h₀
    | with_reducible assumption
    | with_reducible apply leads_inDom
    | with_reducible apply capInstant_leads
    | intro _ _

theorem execMpptVocSet_leads (t : Nat) (k : CellIx) (s : State) :
    ∃ s', execMpptVocSet t k s = .next s' ∧ (s.advance t).Leads s' := by
  refine ⟨_, rfl, ?_⟩
  have h₀ := State.Leads.refl (s.advance t)
  revert h₀
  generalize s.advance t = a₀
  intro h₀
  repeat' first
    | with_reducible exact h₀
    | with_reducible assumption
    | with_reducible apply leads_inDom
    | with_reducible apply setMcell_leads
    | with_reducible apply putSat_leads
    | intro _ _
    | split
    | dsimp only

theorem execMpptVocDefault_leads (t : Nat) (k : CellIx) (s : State) :
    ∃ s', execMpptVocDefault t k s = .next s' ∧ (s.advance t).Leads s' := by
  refine ⟨_, rfl, ?_⟩
  have h₀ := State.Leads.refl (s.advance t)
  revert h₀
  generalize s.advance t = a₀
  intro h₀
  repeat' first
    | with_reducible exact h₀
    | with_reducible assumption
    | with_reducible apply leads_inDom
    | with_reducible apply setMcell_leads
    | with_reducible apply putSat_leads
    | with_reducible apply event_leads
    | intro _ _
    | split
    | dsimp only

theorem execMpptDark_leads (t : Nat) (k : CellIx) (s : State) :
    ∃ s', execMpptDark t k s = .next s' ∧ (s.advance t).Leads s' := by
  refine ⟨_, rfl, ?_⟩
  have h₀ := State.Leads.refl (s.advance t)
  revert h₀
  generalize s.advance t = a₀
  intro h₀
  repeat' first
    | with_reducible exact h₀
    | with_reducible assumption
    | with_reducible apply leads_inDom
    | with_reducible apply put_leads
    | with_reducible apply showDark_leads
    | with_reducible apply event_leads
    | intro _ _
    | split
    | dsimp only

theorem execMpptDarkClear_leads (t : Nat) (k : CellIx) (s : State) :
    ∃ s', execMpptDarkClear t k s = .next s' ∧ (s.advance t).Leads s' := by
  refine ⟨_, rfl, ?_⟩
  have h₀ := State.Leads.refl (s.advance t)
  revert h₀
  generalize s.advance t = a₀
  intro h₀
  repeat' first
    | with_reducible exact h₀
    | with_reducible assumption
    | with_reducible apply leads_inDom
    | with_reducible apply put_leads
    | with_reducible apply showDark_leads
    | intro _ _
    | split

theorem execMpptCmdNone_leads (t : Nat) (n : SessIx) (k : CellIx) (s : State) :
    ∃ s', execMpptCmdNone t n k s = .next s' ∧ (s.advance t).Leads s' := by
  refine ⟨_, rfl, ?_⟩
  have h₀ := State.Leads.refl (s.advance t)
  revert h₀
  generalize s.advance t = a₀
  intro h₀
  repeat' first
    | with_reducible exact h₀
    | with_reducible apply mpptCmdBy_leads

theorem execScanCell_leads (t : Nat) (n : SessIx) (k : CellIx) (s : State) :
    ∃ s', execScanCell t n k s = .next s' ∧ (s.advance t).Leads s' := by
  refine ⟨_, rfl, ?_⟩
  have h₀ := State.Leads.refl (s.advance t)
  revert h₀
  generalize s.advance t = a₀
  intro h₀
  repeat' first
    | with_reducible exact h₀
    | with_reducible apply mpptCmdBy_leads

theorem execScanCluster_leads (t : Nat) (n : SessIx) (k : CellIx) (s : State) :
    ∃ s', execScanCluster t n k s = .next s' ∧ (s.advance t).Leads s' := by
  refine ⟨_, rfl, ?_⟩
  have h₀ := State.Leads.refl (s.advance t)
  revert h₀
  generalize s.advance t = a₀
  intro h₀
  repeat' first
    | with_reducible exact h₀
    | with_reducible apply mpptCmdBy_leads

theorem execCancelScan_leads (t : Nat) (n : SessIx) (k : CellIx) (s : State) :
    ∃ s', execCancelScan t n k s = .next s' ∧ (s.advance t).Leads s' := by
  refine ⟨_, rfl, ?_⟩
  have h₀ := State.Leads.refl (s.advance t)
  revert h₀
  generalize s.advance t = a₀
  intro h₀
  repeat' first
    | with_reducible exact h₀
    | with_reducible apply mpptCmdBy_leads

theorem execFrtEvaluation_leads (t : Nat) (c : RingIx) (s : State) :
    ∃ s', execFrtEvaluation t c s = .next s' ∧ (s.advance t).Leads s' := by
  refine ⟨_, rfl, ?_⟩
  have h₀ := State.Leads.refl (s.advance t)
  revert h₀
  generalize s.advance t = a₀
  intro h₀
  repeat' first
    | with_reducible exact h₀
    | with_reducible assumption
    | with_reducible apply leads_inDom
    | with_reducible apply setFclu_leads
    | with_reducible apply takeU_leads
    | with_reducible apply smTimers_leads
    | with_reducible apply frtForced_leads
    | with_reducible apply smScan_leads
    | intro _ _
    | split
    | dsimp only

theorem execFrtFastScan_leads (t : Nat) (c : RingIx) (s : State) :
    ∃ s', execFrtFastScan t c s = .next s' ∧ (s.advance t).Leads s' := by
  refine ⟨_, rfl, ?_⟩
  have h₀ := State.Leads.refl (s.advance t)
  revert h₀
  generalize s.advance t = a₀
  intro h₀
  repeat' first
    | with_reducible exact h₀
    | with_reducible assumption
    | with_reducible apply leads_inDom
    | with_reducible apply setFclu_leads
    | with_reducible apply smTimers_leads
    | with_reducible apply smScan_leads
    | intro _ _
    | split
    | dsimp only

theorem execFrtCmdNone_leads (t : Nat) (n : SessIx) (c : RingIx) (s : State) :
    ∃ s', execFrtCmdNone t n c s = .next s' ∧ (s.advance t).Leads s' := by
  refine ⟨_, rfl, ?_⟩
  have h₀ := State.Leads.refl (s.advance t)
  revert h₀
  generalize s.advance t = a₀
  intro h₀
  repeat' first
    | with_reducible exact h₀
    | with_reducible apply frtCmdBy_leads

theorem execFrtCmdStart_leads (t : Nat) (n : SessIx) (c : RingIx) (s : State) :
    ∃ s', execFrtCmdStart t n c s = .next s' ∧ (s.advance t).Leads s' := by
  refine ⟨_, rfl, ?_⟩
  have h₀ := State.Leads.refl (s.advance t)
  revert h₀
  generalize s.advance t = a₀
  intro h₀
  repeat' first
    | with_reducible exact h₀
    | with_reducible apply frtCmdBy_leads

theorem execFrtCmdStop_leads (t : Nat) (n : SessIx) (c : RingIx) (s : State) :
    ∃ s', execFrtCmdStop t n c s = .next s' ∧ (s.advance t).Leads s' := by
  refine ⟨_, rfl, ?_⟩
  have h₀ := State.Leads.refl (s.advance t)
  revert h₀
  generalize s.advance t = a₀
  intro h₀
  repeat' first
    | with_reducible exact h₀
    | with_reducible apply frtCmdBy_leads

theorem execFrtCmdReset_leads (t : Nat) (n : SessIx) (c : RingIx) (s : State) :
    ∃ s', execFrtCmdReset t n c s = .next s' ∧ (s.advance t).Leads s' := by
  refine ⟨_, rfl, ?_⟩
  have h₀ := State.Leads.refl (s.advance t)
  revert h₀
  generalize s.advance t = a₀
  intro h₀
  repeat' first
    | with_reducible exact h₀
    | with_reducible apply frtCmdBy_leads

theorem execFrtCmdExpired_leads (t : Nat) (c : RingIx) (s : State) :
    ∃ s', execFrtCmdExpired t c s = .next s' ∧ (s.advance t).Leads s' := by
  refine ⟨_, rfl, ?_⟩
  have h₀ := State.Leads.refl (s.advance t)
  revert h₀
  generalize s.advance t = a₀
  intro h₀
  repeat' first
    | with_reducible exact h₀
    | with_reducible assumption
    | with_reducible apply leads_inDom
    | with_reducible apply put_leads
    | with_reducible apply event_leads
    | intro _ _
    | split

theorem execIslPassive_leads (t : Nat) (s : State) :
    ∃ s', execIslPassive t s = .next s' ∧ (s.advance t).Leads s' := by
  refine ⟨_, rfl, ?_⟩
  have h₀ := State.Leads.refl (s.advance t)
  revert h₀
  generalize s.advance t = a₀
  intro h₀
  repeat' first
    | with_reducible exact h₀
    | with_reducible assumption
    | with_reducible apply leads_inDom
    | with_reducible apply put_leads
    | with_reducible apply event_leads
    | intro _ _
    | split
    | dsimp only

theorem execIslPassiveClear_leads (t : Nat) (s : State) :
    ∃ s', execIslPassiveClear t s = .next s' ∧ (s.advance t).Leads s' := by
  refine ⟨_, rfl, ?_⟩
  have h₀ := State.Leads.refl (s.advance t)
  revert h₀
  generalize s.advance t = a₀
  intro h₀
  repeat' first
    | with_reducible exact h₀
    | with_reducible assumption
    | with_reducible apply leads_inDom
    | with_reducible apply put_leads
    | intro _ _
    | split

theorem execIslChip_leads (t : Nat) (s : State) :
    ∃ s', execIslChip t s = .next s' ∧ (s.advance t).Leads s' := by
  refine ⟨_, rfl, ?_⟩
  have h₀ := State.Leads.refl (s.advance t)
  revert h₀
  generalize s.advance t = a₀
  intro h₀
  repeat' first
    | with_reducible exact h₀
    | with_reducible assumption
    | with_reducible apply leads_inDom
    | with_reducible apply setIsl_leads
    | intro _ _
    | split
    | dsimp only

theorem execIslEstimate_leads (t : Nat) (s : State) :
    ∃ s', execIslEstimate t s = .next s' ∧ (s.advance t).Leads s' := by
  refine ⟨_, rfl, ?_⟩
  have h₀ := State.Leads.refl (s.advance t)
  revert h₀
  generalize s.advance t = a₀
  intro h₀
  repeat' first
    | with_reducible exact h₀
    | with_reducible assumption
    | with_reducible apply leads_inDom
    | with_reducible apply setIsl_leads
    | with_reducible apply put_leads
    | with_reducible apply countWrap_leads
    | with_reducible apply event_leads
    | intro _ _
    | split
    | dsimp only

theorem execPbLinkDown_leads (t : Nat) (port : Fin 4) (los : Bool) (s : State) :
    ∃ s', execPbLinkDown t port los s = .next s' ∧ (s.advance t).Leads s' := by
  refine ⟨_, rfl, ?_⟩
  have h₀ := State.Leads.refl (s.advance t)
  revert h₀
  generalize s.advance t = a₀
  intro h₀
  repeat' first
    | with_reducible exact h₀
    | with_reducible assumption
    | with_reducible apply leads_inDom
    | with_reducible apply pbLinkDown_leads
    | intro _ _

end Sys2Proof.Machine
end

