-- ==== Sys2Proof/Laws/Leads/ExecC.lean ====
section
/-! SUPPORT. Every command answers a next state that keeps what `State.Leads` says, part C. -/

namespace Sys2Proof.Machine

theorem execPbLinkUp_leads (t : Nat) (port : Fin 4) (s : State) :
    ∃ s', execPbLinkUp t port s = .next s' ∧ (s.advance t).Leads s' := by
  refine ⟨_, rfl, ?_⟩
  have h₀ := State.Leads.refl (s.advance t)
  revert h₀
  generalize s.advance t = a₀
  intro h₀
  repeat' first
    | with_reducible exact h₀
    | with_reducible assumption
    | with_reducible apply leads_inDom
    | with_reducible apply eventIf_leads
    | with_reducible apply put_leads
    | intro _ _
    | split

theorem execPbLanLost_leads (t : Nat) (port : Fin 4) (s : State) :
    ∃ s', execPbLanLost t port s = .next s' ∧ (s.advance t).Leads s' := by
  refine ⟨_, rfl, ?_⟩
  have h₀ := State.Leads.refl (s.advance t)
  revert h₀
  generalize s.advance t = a₀
  intro h₀
  repeat' first
    | with_reducible exact h₀
    | with_reducible assumption
    | with_reducible apply leads_inDom
    | with_reducible apply lanLost_leads
    | intro _ _
    | split
    | dsimp only

theorem execPbHsrOpen_leads (t : Nat) (s : State) :
    ∃ s', execPbHsrOpen t s = .next s' ∧ (s.advance t).Leads s' := by
  refine ⟨_, rfl, ?_⟩
  have h₀ := State.Leads.refl (s.advance t)
  revert h₀
  generalize s.advance t = a₀
  intro h₀
  repeat' first
    | with_reducible exact h₀
    | with_reducible assumption
    | with_reducible apply leads_inDom
    | with_reducible apply ringOpen_leads
    | intro _ _
    | split

theorem execGooseFrameRx_leads (t : Nat) (f : GooseFrame) (s : State) :
    ∃ s', execGooseFrameRx t f s = .next s' ∧ (s.advance t).Leads s' := by
  refine ⟨_, rfl, ?_⟩
  have h₀ := State.Leads.refl (s.advance t)
  revert h₀
  generalize s.advance t = a₀
  intro h₀
  repeat' first
    | with_reducible exact h₀
    | with_reducible assumption
    | with_reducible apply leads_inDom
    | with_reducible apply ethRx_leads
    | with_reducible apply count_leads
    | with_reducible apply gooseFrame_leads
    | with_reducible apply leads_foldl
    | intro _ _
    | split
    | with_reducible refine leads_of_fst (by assumption) ?_

theorem execGooseSubInvalid_leads (t : Nat) (g : Fin 128) (s : State) :
    ∃ s', execGooseSubInvalid t g s = .next s' ∧ (s.advance t).Leads s' := by
  refine ⟨_, rfl, ?_⟩
  have h₀ := State.Leads.refl (s.advance t)
  revert h₀
  generalize s.advance t = a₀
  intro h₀
  repeat' first
    | with_reducible exact h₀
    | with_reducible assumption
    | with_reducible apply leads_inDom
    | with_reducible apply gooseInvalid_leads
    | with_reducible apply event_leads
    | intro _ _
    | split

theorem execGoosePubRepeat_leads (t : Nat) (q : Fin 32) (s : State) :
    ∃ s', execGoosePubRepeat t q s = .next s' ∧ (s.advance t).Leads s' := by
  refine ⟨_, rfl, ?_⟩
  have h₀ := State.Leads.refl (s.advance t)
  revert h₀
  generalize s.advance t = a₀
  intro h₀
  repeat' first
    | with_reducible exact h₀
    | with_reducible assumption
    | with_reducible apply leads_inDom
    | with_reducible apply countWrap_leads
    | with_reducible apply gooseSend_leads
    | intro _ _
    | split
    | dsimp only

theorem execSvPubFrame_leads (t : Nat) (q : Fin 16) (s : State) :
    ∃ s', execSvPubFrame t q s = .next s' ∧ (s.advance t).Leads s' := by
  refine ⟨_, rfl, ?_⟩
  have h₀ := State.Leads.refl (s.advance t)
  revert h₀
  generalize s.advance t = a₀
  intro h₀
  repeat' first
    | with_reducible exact h₀
    | with_reducible assumption
    | with_reducible apply leads_inDom
    | with_reducible apply put_leads
    | with_reducible apply eventIf_leads
    | with_reducible apply setBus_leads
    | with_reducible apply rctNext_leads
    | (intro _ _; intro)
    | intro _ _
    | intro _
    | dsimp only
    | split
    | with_reducible refine leads_of_snd (by assumption) ?_
    | with_reducible refine leads_of_fst (by assumption) ?_
    | (with_reducible apply leads_mk; first | with_reducible exact h₀ | with_reducible assumption | with_reducible apply leads_inDom | with_reducible apply put_leads | with_reducible apply eventIf_leads | with_reducible apply setBus_leads | with_reducible apply rctNext_leads | (intro _ _; intro) | intro _ _ | intro _ | dsimp only | split | with_reducible refine leads_of_snd (by assumption) ?_ | with_reducible refine leads_of_fst (by assumption) ?_)

theorem execMtrWindowEnd_leads (t : Nat) (m : PointIx) (s : State) :
    ∃ s', execMtrWindowEnd t m s = .next s' ∧ (s.advance t).Leads s' := by
  refine ⟨_, rfl, ?_⟩
  have h₀ := State.Leads.refl (s.advance t)
  revert h₀
  generalize s.advance t = a₀
  intro h₀
  repeat' first
    | with_reducible exact h₀
    | with_reducible assumption
    | with_reducible apply leads_inDom
    | with_reducible apply mtrEnd_leads
    | with_reducible apply mtrBegin_leads
    | intro _ _
    | split
    | dsimp only

theorem execMtrSeqWrong_leads (t : Nat) (m : PointIx) (current : Bool) (s : State) :
    ∃ s', execMtrSeqWrong t m current s = .next s' ∧ (s.advance t).Leads s' := by
  refine ⟨_, rfl, ?_⟩
  have h₀ := State.Leads.refl (s.advance t)
  revert h₀
  generalize s.advance t = a₀
  intro h₀
  repeat' first
    | with_reducible exact h₀
    | with_reducible assumption
    | with_reducible apply leads_inDom
    | with_reducible apply putB_leads
    | with_reducible apply event_leads
    | intro _ _
    | split
    | dsimp only

theorem execMtrNMissing_leads (t : Nat) (m : PointIx) (s : State) :
    ∃ s', execMtrNMissing t m s = .next s' ∧ (s.advance t).Leads s' := by
  refine ⟨_, rfl, ?_⟩
  have h₀ := State.Leads.refl (s.advance t)
  revert h₀
  generalize s.advance t = a₀
  intro h₀
  repeat' first
    | with_reducible exact h₀
    | with_reducible assumption
    | with_reducible apply leads_inDom
    | with_reducible apply put_leads
    | with_reducible apply event_leads
    | intro _ _
    | split
    | dsimp only

theorem execMtrIntervalClose_leads (t : Nat) (s : State) :
    ∃ s', execMtrIntervalClose t s = .next s' ∧ (s.advance t).Leads s' := by
  refine ⟨_, rfl, ?_⟩
  have h₀ := State.Leads.refl (s.advance t)
  revert h₀
  generalize s.advance t = a₀
  intro h₀
  repeat' first
    | with_reducible exact h₀
    | with_reducible assumption
    | with_reducible apply leads_inDom
    | with_reducible apply setMtr_leads
    | with_reducible apply mtrClose_leads
    | intro _ _
    | split

theorem execMtrAccSave_leads (t : Nat) (s : State) :
    ∃ s', execMtrAccSave t s = .next s' ∧ (s.advance t).Leads s' := by
  refine ⟨_, rfl, ?_⟩
  have h₀ := State.Leads.refl (s.advance t)
  revert h₀
  generalize s.advance t = a₀
  intro h₀
  repeat' first
    | with_reducible exact h₀
    | with_reducible assumption
    | with_reducible apply leads_inDom
    | with_reducible apply mtrSave_leads
    | intro _ _
    | split

theorem execLaneExcluded_leads (t : Nat) (l : LaneIx) (ecc : Bool) (memory : Nat) (s : State) :
    ∃ s', execLaneExcluded t l ecc memory s = .next s' ∧ (s.advance t).Leads s' := by
  refine ⟨_, rfl, ?_⟩
  have h₀ := State.Leads.refl (s.advance t)
  revert h₀
  generalize s.advance t = a₀
  intro h₀
  repeat' first
    | with_reducible exact h₀
    | with_reducible assumption
    | with_reducible apply leads_inDom
    | with_reducible apply laneUncorr_leads
    | with_reducible apply excludeLane_leads
    | intro _ _
    | split

theorem execLaneCeased_leads (t : Nat) (s : State) :
    ∃ s', execLaneCeased t s = .next s' ∧ (s.advance t).Leads s' := by
  refine ⟨_, rfl, ?_⟩
  have h₀ := State.Leads.refl (s.advance t)
  revert h₀
  generalize s.advance t = a₀
  intro h₀
  repeat' first
    | with_reducible exact h₀
    | with_reducible assumption
    | with_reducible apply leads_inDom
    | with_reducible apply setLane_leads
    | with_reducible apply put_leads
    | with_reducible apply showLanes_leads
    | with_reducible apply event_leads
    | with_reducible apply setLanes_leads
    | with_reducible apply leads_forN
    | (intro _ _; intro)
    | intro _ _
    | split

theorem execLaneAutoRestart_leads (t : Nat) (s : State) :
    ∃ s', execLaneAutoRestart t s = .next s' ∧ (s.advance t).Leads s' := by
  refine ⟨_, rfl, ?_⟩
  have h₀ := State.Leads.refl (s.advance t)
  revert h₀
  generalize s.advance t = a₀
  intro h₀
  repeat' first
    | with_reducible exact h₀
    | with_reducible assumption
    | with_reducible apply leads_inDom
    | with_reducible apply startRestart_leads
    | intro _ _
    | split

theorem execLaneRestartDone_leads (t : Nat) (pass : Fin 8) (s : State) :
    ∃ s', execLaneRestartDone t pass s = .next s' ∧ (s.advance t).Leads s' := by
  refine ⟨_, rfl, ?_⟩
  have h₀ := State.Leads.refl (s.advance t)
  revert h₀
  generalize s.advance t = a₀
  intro h₀
  repeat' first
    | with_reducible exact h₀
    | with_reducible assumption
    | with_reducible apply leads_inDom
    | with_reducible apply restartDone_leads
    | intro _ _
    | split

theorem execLaneRejoinStart_leads (t : Nat) (l : LaneIx) (s : State) :
    ∃ s', execLaneRejoinStart t l s = .next s' ∧ (s.advance t).Leads s' := by
  refine ⟨_, rfl, ?_⟩
  have h₀ := State.Leads.refl (s.advance t)
  revert h₀
  generalize s.advance t = a₀
  intro h₀
  repeat' first
    | with_reducible exact h₀
    | with_reducible assumption
    | with_reducible apply leads_inDom
    | with_reducible apply startRejoin_leads
    | intro _ _
    | split
    | dsimp only

theorem execLaneSelftestDone_leads (t : Nat) (l : LaneIx) (pass : Bool) (s : State) :
    ∃ s', execLaneSelftestDone t l pass s = .next s' ∧ (s.advance t).Leads s' := by
  refine ⟨_, rfl, ?_⟩
  have h₀ := State.Leads.refl (s.advance t)
  revert h₀
  generalize s.advance t = a₀
  intro h₀
  repeat' first
    | with_reducible exact h₀
    | with_reducible assumption
    | with_reducible apply leads_inDom
    | with_reducible apply rejoinFail_leads
    | with_reducible apply setLane_leads
    | with_reducible apply put_leads
    | intro _ _
    | split

theorem execLaneLoadDone_leads (t : Nat) (l : LaneIx) (s : State) :
    ∃ s', execLaneLoadDone t l s = .next s' ∧ (s.advance t).Leads s' := by
  refine ⟨_, rfl, ?_⟩
  have h₀ := State.Leads.refl (s.advance t)
  revert h₀
  generalize s.advance t = a₀
  intro h₀
  repeat' first
    | with_reducible exact h₀
    | with_reducible assumption
    | with_reducible apply leads_inDom
    | with_reducible apply rejoinFail_leads
    | with_reducible apply setLane_leads
    | with_reducible apply put_leads
    | with_reducible apply freeStep_leads
    | intro _ _
    | split

theorem execLaneCopyRound_leads (t : Nat) (l : LaneIx) (dirty : Nat) (differ : Bool) (s : State) :
    ∃ s', execLaneCopyRound t l dirty differ s = .next s' ∧ (s.advance t).Leads s' := by
  refine ⟨_, rfl, ?_⟩
  have h₀ := State.Leads.refl (s.advance t)
  revert h₀
  generalize s.advance t = a₀
  intro h₀
  repeat' first
    | with_reducible exact h₀
    | with_reducible assumption
    | with_reducible apply leads_inDom
    | with_reducible apply event_leads
    | with_reducible apply setLane_leads
    | with_reducible apply enterHold_leads
    | with_reducible apply count_leads
    | with_reducible apply putSat_leads
    | with_reducible apply rejoinFail_leads
    | intro _ _
    | split
    | dsimp only

theorem execLaneSwitch_leads (t : Nat) (l : LaneIx) (s : State) :
    ∃ s', execLaneSwitch t l s = .next s' ∧ (s.advance t).Leads s' := by
  refine ⟨_, rfl, ?_⟩
  have h₀ := State.Leads.refl (s.advance t)
  revert h₀
  generalize s.advance t = a₀
  intro h₀
  repeat' first
    | with_reducible exact h₀
    | with_reducible assumption
    | with_reducible apply leads_inDom
    | with_reducible apply setLane_leads
    | intro _ _
    | split
    | dsimp only

theorem execLaneInService_leads (t : Nat) (l : LaneIx) (s : State) :
    ∃ s', execLaneInService t l s = .next s' ∧ (s.advance t).Leads s' := by
  refine ⟨_, rfl, ?_⟩
  have h₀ := State.Leads.refl (s.advance t)
  revert h₀
  generalize s.advance t = a₀
  intro h₀
  repeat' first
    | with_reducible exact h₀
    | with_reducible assumption
    | with_reducible apply leads_inDom
    | with_reducible apply put_leads
    | intro _ _
    | split

theorem execLaneRejoinFail_leads (t : Nat) (l : LaneIx) (s : State) :
    ∃ s', execLaneRejoinFail t l s = .next s' ∧ (s.advance t).Leads s' := by
  refine ⟨_, rfl, ?_⟩
  have h₀ := State.Leads.refl (s.advance t)
  revert h₀
  generalize s.advance t = a₀
  intro h₀
  repeat' first
    | with_reducible exact h₀
    | with_reducible assumption
    | with_reducible apply leads_inDom
    | with_reducible apply rejoinFail_leads
    | intro _ _
    | split

theorem execLaneCmdNone_leads (t : Nat) (n : SessIx) (l : Fin 4) (s : State) :
    ∃ s', execLaneCmdNone t n l s = .next s' ∧ (s.advance t).Leads s' := by
  refine ⟨_, rfl, ?_⟩
  have h₀ := State.Leads.refl (s.advance t)
  revert h₀
  generalize s.advance t = a₀
  intro h₀
  repeat' first
    | with_reducible exact h₀
    | with_reducible apply laneCmdBy_leads

theorem execLaneExclude_leads (t : Nat) (n : SessIx) (l : Fin 4) (s : State) :
    ∃ s', execLaneExclude t n l s = .next s' ∧ (s.advance t).Leads s' := by
  refine ⟨_, rfl, ?_⟩
  have h₀ := State.Leads.refl (s.advance t)
  revert h₀
  generalize s.advance t = a₀
  intro h₀
  repeat' first
    | with_reducible exact h₀
    | with_reducible apply laneCmdBy_leads

theorem execLaneRejoin_leads (t : Nat) (n : SessIx) (l : Fin 4) (s : State) :
    ∃ s', execLaneRejoin t n l s = .next s' ∧ (s.advance t).Leads s' := by
  refine ⟨_, rfl, ?_⟩
  have h₀ := State.Leads.refl (s.advance t)
  revert h₀
  generalize s.advance t = a₀
  intro h₀
  repeat' first
    | with_reducible exact h₀
    | with_reducible apply laneCmdBy_leads

theorem execLaneRestart_leads (t : Nat) (n : SessIx) (l : Fin 4) (s : State) :
    ∃ s', execLaneRestart t n l s = .next s' ∧ (s.advance t).Leads s' := by
  refine ⟨_, rfl, ?_⟩
  have h₀ := State.Leads.refl (s.advance t)
  revert h₀
  generalize s.advance t = a₀
  intro h₀
  repeat' first
    | with_reducible exact h₀
    | with_reducible apply laneCmdBy_leads

theorem execVoterFault_leads (t : Nat) (v : Fin 4) (s : State) :
    ∃ s', execVoterFault t v s = .next s' ∧ (s.advance t).Leads s' := by
  refine ⟨_, rfl, ?_⟩
  have h₀ := State.Leads.refl (s.advance t)
  revert h₀
  generalize s.advance t = a₀
  intro h₀
  repeat' first
    | with_reducible exact h₀
    | with_reducible assumption
    | with_reducible apply leads_inDom
    | with_reducible apply event_leads
    | with_reducible apply put_leads
    | with_reducible apply putB_leads
    | with_reducible apply noteIntr_leads
    | with_reducible apply freeStep_leads
    | intro _ _
    | split
    | dsimp only

theorem execMergeFault_leads (t : Nat) (r : RingIx) (portB : Bool) (s : State) :
    ∃ s', execMergeFault t r portB s = .next s' ∧ (s.advance t).Leads s' := by
  refine ⟨_, rfl, ?_⟩
  have h₀ := State.Leads.refl (s.advance t)
  revert h₀
  generalize s.advance t = a₀
  intro h₀
  repeat' first
    | with_reducible exact h₀
    | with_reducible assumption
    | with_reducible apply leads_inDom
    | with_reducible apply put_leads
    | with_reducible apply event_leads
    | (intro _ _; intro)
    | intro _ _
    | intro _
    | dsimp only
    | split

theorem execPourBegin_leads (t : Nat) (n : SessIx) (point : Fin 4) (zc : Fin 16) (req : Nat) (chain : Bool) (s : State) :
    ∃ s', execPourBegin t n point zc req chain s = .next s' ∧ (s.advance t).Leads s' := by
  refine ⟨_, rfl, ?_⟩
  have h₀ := State.Leads.refl (s.advance t)
  revert h₀
  generalize s.advance t = a₀
  intro h₀
  repeat' first
    | with_reducible exact h₀
    | with_reducible apply answer_leads
    | with_reducible apply takeSlot_leads
    | split
    | dsimp only

theorem execPourAdd_leads (t : Nat) (n : SessIx) (addr : Nat) (value : Word) (mask : Word) (s : State) :
    ∃ s', execPourAdd t n addr value mask s = .next s' ∧ (s.advance t).Leads s' := by
  refine ⟨_, rfl, ?_⟩
  have h₀ := State.Leads.refl (s.advance t)
  revert h₀
  generalize s.advance t = a₀
  intro h₀
  repeat' first
    | with_reducible exact h₀
    | with_reducible assumption
    | with_reducible apply setPslot_leads
    | with_reducible apply put_leads
    | with_reducible apply access_leads
    | intro _ _
    | split

theorem execPourCommit_leads (t : Nat) (n : SessIx) (s : State) :
    ∃ s', execPourCommit t n s = .next s' ∧ (s.advance t).Leads s' := by
  refine ⟨_, rfl, ?_⟩
  have h₀ := State.Leads.refl (s.advance t)
  revert h₀
  generalize s.advance t = a₀
  intro h₀
  repeat' first
    | with_reducible exact h₀
    | with_reducible apply answer_leads
    | with_reducible apply setPstat_leads
    | with_reducible apply put_leads
    | with_reducible apply setPslot_leads
    | with_reducible apply setPour_leads
    | with_reducible apply setSess_leads
    | with_reducible apply event_leads
    | split
    | dsimp only

theorem execPourAbort_leads (t : Nat) (n : SessIx) (id : Nat) (s : State) :
    ∃ s', execPourAbort t n id s = .next s' ∧ (s.advance t).Leads s' := by
  refine ⟨_, rfl, ?_⟩
  have h₀ := State.Leads.refl (s.advance t)
  revert h₀
  generalize s.advance t = a₀
  intro h₀
  repeat' first
    | with_reducible exact h₀
    | with_reducible assumption
    | with_reducible apply pourAbort_leads
    | with_reducible apply setSess_leads
    | with_reducible apply access_leads
    | intro _ _
    | split
    | dsimp only

theorem execPourCheck_leads (t : Nat) (s : State) :
    ∃ s', execPourCheck t s = .next s' ∧ (s.advance t).Leads s' := by
  refine ⟨_, rfl, ?_⟩
  have h₀ := State.Leads.refl (s.advance t)
  revert h₀
  generalize s.advance t = a₀
  intro h₀
  repeat' first
    | with_reducible exact h₀
    | with_reducible assumption
    | with_reducible apply leads_inDom
    | with_reducible apply holdPours_leads
    | with_reducible apply pourAbort_leads
    | with_reducible apply logCheck_leads
    | with_reducible apply pourStage_leads
    | intro _ _
    | split
    | dsimp only

theorem execPourTokenGrant_leads (t : Nat) (s : State) :
    ∃ s', execPourTokenGrant t s = .next s' ∧ (s.advance t).Leads s' := by
  refine ⟨_, rfl, ?_⟩
  have h₀ := State.Leads.refl (s.advance t)
  revert h₀
  generalize s.advance t = a₀
  intro h₀
  repeat' first
    | with_reducible exact h₀
    | with_reducible assumption
    | with_reducible apply leads_inDom
    | with_reducible apply grantToken_leads
    | with_reducible apply pourAbort_leads
    | with_reducible apply setTc_leads
    | intro _ _
    | split
    | dsimp only

theorem execPourCommitted_leads (t : Nat) (s : State) :
    ∃ s', execPourCommitted t s = .next s' ∧ (s.advance t).Leads s' := by
  refine ⟨_, rfl, ?_⟩
  have h₀ := State.Leads.refl (s.advance t)
  revert h₀
  generalize s.advance t = a₀
  intro h₀
  repeat' first
    | with_reducible exact h₀
    | with_reducible assumption
    | with_reducible apply leads_inDom
    | with_reducible apply setPstat_leads
    | with_reducible apply put_leads
    | with_reducible apply setPour_leads
    | with_reducible apply event_leads
    | with_reducible apply commitAt_leads
    | with_reducible apply foresee_leads
    | with_reducible apply afterCommitted_leads
    | with_reducible apply pourNew_leads
    | with_reducible apply leads_forN
    | (intro _ _; intro)
    | intro _ _
    | intro _
    | dsimp only
    | split
    | with_reducible refine leads_of_snd (by assumption) ?_
    | with_reducible refine leads_of_fst (by assumption) ?_
    | (with_reducible apply leads_mk; first | with_reducible exact h₀ | with_reducible assumption | with_reducible apply leads_inDom | with_reducible apply setPstat_leads | with_reducible apply put_leads | with_reducible apply setPour_leads | with_reducible apply event_leads | with_reducible apply commitAt_leads | with_reducible apply foresee_leads | with_reducible apply afterCommitted_leads | with_reducible apply pourNew_leads | with_reducible apply leads_forN | (intro _ _; intro) | intro _ _ | intro _ | dsimp only | split | with_reducible refine leads_of_snd (by assumption) ?_ | with_reducible refine leads_of_fst (by assumption) ?_)

theorem execPourTokenExpired_leads (t : Nat) (s : State) :
    ∃ s', execPourTokenExpired t s = .next s' ∧ (s.advance t).Leads s' := by
  refine ⟨_, rfl, ?_⟩
  have h₀ := State.Leads.refl (s.advance t)
  revert h₀
  generalize s.advance t = a₀
  intro h₀
  repeat' first
    | with_reducible exact h₀
    | with_reducible assumption
    | with_reducible apply leads_inDom
    | with_reducible apply put_leads
    | with_reducible apply count_leads
    | with_reducible apply event_leads
    | with_reducible apply pourAbort_leads
    | intro _ _
    | split

theorem execPourTakeEffect_leads (t : Nat) (e : AccEnv) (s : State) :
    ∃ s', execPourTakeEffect t e s = .next s' ∧ (s.advance t).Leads s' := by
  refine ⟨_, rfl, ?_⟩
  have h₀ := State.Leads.refl (s.advance t)
  revert h₀
  generalize s.advance t = a₀
  intro h₀
  repeat' first
    | with_reducible exact h₀
    | with_reducible assumption
    | with_reducible apply leads_inDom
    | with_reducible apply takeEffect_leads
    | with_reducible apply pourActs_leads
    | with_reducible apply leads_foldl
    | (intro _ _; intro)
    | intro _ _

theorem execPourEffective_leads (t : Nat) (s : State) :
    ∃ s', execPourEffective t s = .next s' ∧ (s.advance t).Leads s' := by
  refine ⟨_, rfl, ?_⟩
  have h₀ := State.Leads.refl (s.advance t)
  revert h₀
  generalize s.advance t = a₀
  intro h₀
  repeat' first
    | with_reducible exact h₀
    | with_reducible assumption
    | with_reducible apply leads_inDom
    | with_reducible apply setPstat_leads
    | with_reducible apply put_leads
    | with_reducible apply countWrap_leads
    | with_reducible apply setPslot_leads
    | with_reducible apply setPour_leads
    | with_reducible apply event_leads
    | with_reducible apply markCell_leads
    | with_reducible apply freeParams_leads
    | with_reducible apply leads_foldl
    | (intro _ _; intro)
    | intro _ _
    | split
    | dsimp only

theorem execRecRecordAdmit_leads (t : Nat) (m : Fin 64) (time : Nat) (payload : List Byte) (s : State) :
    ∃ s', execRecRecordAdmit t m time payload s = .next s' ∧ (s.advance t).Leads s' := by
  refine ⟨_, rfl, ?_⟩
  have h₀ := State.Leads.refl (s.advance t)
  revert h₀
  generalize s.advance t = a₀
  intro h₀
  repeat' first
    | with_reducible exact h₀
    | with_reducible assumption
    | with_reducible apply leads_inDom
    | with_reducible apply setLog_leads
    | with_reducible apply offerRec_leads
    | with_reducible apply setMtr_leads
    | with_reducible apply setRec_leads
    | (intro _ _; intro)
    | intro _ _
    | intro _
    | dsimp only
    | split
    | with_reducible refine leads_of_snd (by assumption) ?_
    | with_reducible refine leads_of_fst (by assumption) ?_
    | (with_reducible apply leads_mk; first | with_reducible exact h₀ | with_reducible assumption | with_reducible apply leads_inDom | with_reducible apply setLog_leads | with_reducible apply offerRec_leads | with_reducible apply setMtr_leads | with_reducible apply setRec_leads | (intro _ _; intro) | intro _ _ | intro _ | dsimp only | split | with_reducible refine leads_of_snd (by assumption) ?_ | with_reducible refine leads_of_fst (by assumption) ?_)

theorem execRecFlushTimer_leads (t : Nat) (s : State) :
    ∃ s', execRecFlushTimer t s = .next s' ∧ (s.advance t).Leads s' := by
  refine ⟨_, rfl, ?_⟩
  have h₀ := State.Leads.refl (s.advance t)
  revert h₀
  generalize s.advance t = a₀
  intro h₀
  repeat' first
    | with_reducible exact h₀
    | with_reducible assumption
    | with_reducible apply leads_inDom
    | with_reducible apply flushOpen_leads
    | intro _ _
    | split

theorem execNvmeCompletion_leads (t : Nat) (id : Nat) (ok : Bool) (status : Nat) (s : State) :
    ∃ s', execNvmeCompletion t id ok status s = .next s' ∧ (s.advance t).Leads s' := by
  refine ⟨_, rfl, ?_⟩
  have h₀ := State.Leads.refl (s.advance t)
  revert h₀
  generalize s.advance t = a₀
  intro h₀
  repeat' first
    | with_reducible exact h₀
    | with_reducible assumption
    | with_reducible apply leads_inDom
    | with_reducible apply reap_leads
    | with_reducible apply count_leads
    | with_reducible apply recheck_leads
    | with_reducible apply leaseOver_leads
    | with_reducible apply cmdFailed_leads
    | with_reducible apply completed_leads
    | (intro _ _; intro)
    | intro _ _
    | intro _
    | dsimp only
    | split
    | with_reducible refine leads_of_snd (by assumption) ?_
    | with_reducible refine leads_of_fst (by assumption) ?_

theorem execDriveCmdLeaseExpired_leads (t : Nat) (id : Nat) (s : State) :
    ∃ s', execDriveCmdLeaseExpired t id s = .next s' ∧ (s.advance t).Leads s' := by
  refine ⟨_, rfl, ?_⟩
  have h₀ := State.Leads.refl (s.advance t)
  revert h₀
  generalize s.advance t = a₀
  intro h₀
  repeat' first
    | with_reducible exact h₀
    | with_reducible assumption
    | with_reducible apply leads_inDom
    | with_reducible apply setRec_leads
    | with_reducible apply count_leads
    | with_reducible apply leaseOver_leads
    | with_reducible apply cmdFailed_leads
    | with_reducible apply recheck_leads
    | (intro _ _; intro)
    | intro _ _
    | intro _
    | dsimp only
    | split
    | with_reducible refine leads_of_snd (by assumption) ?_
    | with_reducible refine leads_of_fst (by assumption) ?_
    | (with_reducible apply leads_mk; first | with_reducible exact h₀ | with_reducible assumption | with_reducible apply leads_inDom | with_reducible apply setRec_leads | with_reducible apply count_leads | with_reducible apply leaseOver_leads | with_reducible apply cmdFailed_leads | with_reducible apply recheck_leads | (intro _ _; intro) | intro _ _ | intro _ | dsimp only | split | with_reducible refine leads_of_snd (by assumption) ?_ | with_reducible refine leads_of_fst (by assumption) ?_)

theorem execDriveUnresponsive_leads (t : Nat) (d : DriveIx) (s : State) :
    ∃ s', execDriveUnresponsive t d s = .next s' ∧ (s.advance t).Leads s' := by
  refine ⟨_, rfl, ?_⟩
  have h₀ := State.Leads.refl (s.advance t)
  revert h₀
  generalize s.advance t = a₀
  intro h₀
  repeat' first
    | with_reducible exact h₀
    | with_reducible assumption
    | with_reducible apply leads_inDom
    | with_reducible apply setRec_leads
    | with_reducible apply flight_leads
    | with_reducible apply put_leads
    | with_reducible apply setDrive_leads
    | with_reducible apply leavePair_leads
    | intro _ _
    | split

theorem execDriveIdentify_leads (t : Nat) (d : DriveIx) (i : DriveId) (s : State) :
    ∃ s', execDriveIdentify t d i s = .next s' ∧ (s.advance t).Leads s' := by
  refine ⟨_, rfl, ?_⟩
  have h₀ := State.Leads.refl (s.advance t)
  revert h₀
  generalize s.advance t = a₀
  intro h₀
  repeat' first
    | with_reducible exact h₀
    | with_reducible assumption
    | with_reducible apply leads_inDom
    | with_reducible apply put_leads
    | with_reducible apply putB_leads
    | with_reducible apply putSat_leads
    | with_reducible apply setCdrive_leads
    | with_reducible apply setDrive_leads
    | with_reducible apply event_leads
    | with_reducible apply addDrive_leads
    | with_reducible apply packAll_leads
    | with_reducible apply recheck_leads
    | intro _ _
    | split
    | dsimp only

theorem execRecCheckpoint_leads (t : Nat) (s : State) :
    ∃ s', execRecCheckpoint t s = .next s' ∧ (s.advance t).Leads s' := by
  refine ⟨_, rfl, ?_⟩
  have h₀ := State.Leads.refl (s.advance t)
  revert h₀
  generalize s.advance t = a₀
  intro h₀
  repeat' first
    | with_reducible exact h₀
    | with_reducible assumption
    | with_reducible apply leads_inDom
    | with_reducible apply checkpoint_leads
    | intro _ _
    | split

theorem execRecCapEnd_leads (t : Nat) (s : State) :
    ∃ s', execRecCapEnd t s = .next s' ∧ (s.advance t).Leads s' := by
  refine ⟨_, rfl, ?_⟩
  have h₀ := State.Leads.refl (s.advance t)
  revert h₀
  generalize s.advance t = a₀
  intro h₀
  repeat' first
    | with_reducible exact h₀
    | with_reducible assumption
    | with_reducible apply leads_inDom
    | with_reducible apply setRec_leads
    | with_reducible apply service_leads
    | intro _ _

theorem execRecCapSoftTrigger_leads (t : Nat) (n : SessIx) (s : State) :
    ∃ s', execRecCapSoftTrigger t n s = .next s' ∧ (s.advance t).Leads s' := by
  refine ⟨_, rfl, ?_⟩
  have h₀ := State.Leads.refl (s.advance t)
  revert h₀
  generalize s.advance t = a₀
  intro h₀
  repeat' first
    | with_reducible exact h₀
    | with_reducible assumption
    | with_reducible apply softTrigger_leads
    | with_reducible apply access_leads
    | intro _ _

theorem execRecSmartPoll_leads (t : Nat) (d : DriveIx) (pct : Nat) (crit : Nat) (temp : Nat) (s : State) :
    ∃ s', execRecSmartPoll t d pct crit temp s = .next s' ∧ (s.advance t).Leads s' := by
  refine ⟨_, rfl, ?_⟩
  have h₀ := State.Leads.refl (s.advance t)
  revert h₀
  generalize s.advance t = a₀
  intro h₀
  repeat' first
    | with_reducible exact h₀
    | with_reducible assumption
    | with_reducible apply leads_inDom
    | with_reducible apply setCdrive_leads
    | with_reducible apply putSat_leads
    | with_reducible apply put_leads
    | with_reducible apply event_leads
    | with_reducible apply failDrive_leads
    | intro _ _
    | split
    | dsimp only

theorem execRecCmdNone_leads (t : Nat) (n : SessIx) (d : DriveIx) (s : State) :
    ∃ s', execRecCmdNone t n d s = .next s' ∧ (s.advance t).Leads s' := by
  refine ⟨_, rfl, ?_⟩
  have h₀ := State.Leads.refl (s.advance t)
  revert h₀
  generalize s.advance t = a₀
  intro h₀
  repeat' first
    | with_reducible exact h₀
    | with_reducible apply recCmdBy_leads

theorem execRecSync_leads (t : Nat) (n : SessIx) (d : DriveIx) (s : State) :
    ∃ s', execRecSync t n d s = .next s' ∧ (s.advance t).Leads s' := by
  refine ⟨_, rfl, ?_⟩
  have h₀ := State.Leads.refl (s.advance t)
  revert h₀
  generalize s.advance t = a₀
  intro h₀
  repeat' first
    | with_reducible exact h₀
    | with_reducible apply recCmdBy_leads

theorem execRecFormat_leads (t : Nat) (n : SessIx) (d : DriveIx) (s : State) :
    ∃ s', execRecFormat t n d s = .next s' ∧ (s.advance t).Leads s' := by
  refine ⟨_, rfl, ?_⟩
  have h₀ := State.Leads.refl (s.advance t)
  revert h₀
  generalize s.advance t = a₀
  intro h₀
  repeat' first
    | with_reducible exact h₀
    | with_reducible apply recCmdBy_leads

theorem execRecAdopt_leads (t : Nat) (n : SessIx) (d : DriveIx) (s : State) :
    ∃ s', execRecAdopt t n d s = .next s' ∧ (s.advance t).Leads s' := by
  refine ⟨_, rfl, ?_⟩
  have h₀ := State.Leads.refl (s.advance t)
  revert h₀
  generalize s.advance t = a₀
  intro h₀
  repeat' first
    | with_reducible exact h₀
    | with_reducible apply recCmdBy_leads

theorem execRecRemove_leads (t : Nat) (n : SessIx) (d : DriveIx) (s : State) :
    ∃ s', execRecRemove t n d s = .next s' ∧ (s.advance t).Leads s' := by
  refine ⟨_, rfl, ?_⟩
  have h₀ := State.Leads.refl (s.advance t)
  revert h₀
  generalize s.advance t = a₀
  intro h₀
  repeat' first
    | with_reducible exact h₀
    | with_reducible apply recCmdBy_leads

theorem execRecAdd_leads (t : Nat) (n : SessIx) (d : DriveIx) (s : State) :
    ∃ s', execRecAdd t n d s = .next s' ∧ (s.advance t).Leads s' := by
  refine ⟨_, rfl, ?_⟩
  have h₀ := State.Leads.refl (s.advance t)
  revert h₀
  generalize s.advance t = a₀
  intro h₀
  repeat' first
    | with_reducible exact h₀
    | with_reducible apply recCmdBy_leads

theorem execRecMounted_leads (t : Nat) (s : State) :
    ∃ s', execRecMounted t s = .next s' ∧ (s.advance t).Leads s' := by
  refine ⟨_, rfl, ?_⟩
  have h₀ := State.Leads.refl (s.advance t)
  revert h₀
  generalize s.advance t = a₀
  intro h₀
  repeat' first
    | with_reducible exact h₀
    | with_reducible assumption
    | with_reducible apply leads_inDom
    | with_reducible apply setRec_leads
    | with_reducible apply formatStore_leads
    | with_reducible apply put_leads
    | with_reducible apply restoreStreams_leads
    | with_reducible apply setDrive_leads
    | with_reducible apply showRec_leads
    | with_reducible apply recoverGaps_leads
    | with_reducible apply event_leads
    | with_reducible apply checkpoint_leads
    | with_reducible apply packAll_leads
    | with_reducible apply addDrive_leads
    | with_reducible apply service_leads
    | with_reducible apply leads_foldl
    | (intro _ _; intro)
    | intro _ _
    | intro _
    | dsimp only
    | split
    | with_reducible refine leads_of_snd (by assumption) ?_
    | with_reducible refine leads_of_fst (by assumption) ?_
    | (with_reducible apply leads_mk; first | with_reducible exact h₀ | with_reducible assumption | with_reducible apply leads_inDom | with_reducible apply setRec_leads | with_reducible apply formatStore_leads | with_reducible apply put_leads | with_reducible apply restoreStreams_leads | with_reducible apply setDrive_leads | with_reducible apply showRec_leads | with_reducible apply recoverGaps_leads | with_reducible apply event_leads | with_reducible apply checkpoint_leads | with_reducible apply packAll_leads | with_reducible apply addDrive_leads | with_reducible apply service_leads | with_reducible apply leads_foldl | (intro _ _; intro) | intro _ _ | intro _ | dsimp only | split | with_reducible refine leads_of_snd (by assumption) ?_ | with_reducible refine leads_of_fst (by assumption) ?_)

theorem execRecStatusRead_leads (t : Nat) (n : SessIx) (s : State) :
    ∃ s', execRecStatusRead t n s = .next s' ∧ (s.advance t).Leads s' := by
  refine ⟨_, rfl, ?_⟩
  have h₀ := State.Leads.refl (s.advance t)
  revert h₀
  generalize s.advance t = a₀
  intro h₀
  repeat' first
    | with_reducible exact h₀
    | with_reducible apply answer_leads
    | with_reducible apply recStatusRead_leads
    | split
    | dsimp only

theorem execWearModelUpdate_leads (t : Nat) (mismatch : Bool) (s : State) :
    ∃ s', execWearModelUpdate t mismatch s = .next s' ∧ (s.advance t).Leads s' := by
  refine ⟨_, rfl, ?_⟩
  have h₀ := State.Leads.refl (s.advance t)
  revert h₀
  generalize s.advance t = a₀
  intro h₀
  repeat' first
    | with_reducible exact h₀
    | with_reducible assumption
    | with_reducible apply leads_inDom
    | with_reducible apply setWear_leads
    | with_reducible apply wearStep_leads
    | with_reducible apply wearFault_leads
    | with_reducible apply leads_foldl
    | intro _ _
    | dsimp only
    | split

theorem execWearCapEstimate_leads (t : Nat) (k : CellIx) (s : State) :
    ∃ s', execWearCapEstimate t k s = .next s' ∧ (s.advance t).Leads s' := by
  refine ⟨_, rfl, ?_⟩
  have h₀ := State.Leads.refl (s.advance t)
  revert h₀
  generalize s.advance t = a₀
  intro h₀
  repeat' first
    | with_reducible exact h₀
    | with_reducible assumption
    | with_reducible apply leads_inDom
    | with_reducible apply setWcell_leads
    | intro _ _
    | split
    | dsimp only

theorem execWearDaily_leads (t : Nat) (tcxo : Option Int) (rtc : Option Int) (s : State) :
    ∃ s', execWearDaily t tcxo rtc s = .next s' ∧ (s.advance t).Leads s' := by
  refine ⟨_, rfl, ?_⟩
  have h₀ := State.Leads.refl (s.advance t)
  revert h₀
  generalize s.advance t = a₀
  intro h₀
  repeat' first
    | with_reducible exact h₀
    | with_reducible assumption
    | with_reducible apply leads_inDom
    | with_reducible apply setWear_leads
    | with_reducible apply wearDay_leads
    | with_reducible apply partDay_leads
    | with_reducible apply eventIf_leads
    | with_reducible apply leads_foldl
    | with_reducible apply leads_forN
    | (intro _ _; intro)
    | intro _ _
    | dsimp only
    | split

end Sys2Proof.Machine
end

