-- ==== Sys2Proof/Laws/Leads/ExecD.lean ====
section
/-! SUPPORT. Every command answers a next state that keeps what `State.Leads` says, part D. -/

namespace Sys2Proof.Machine

theorem execWearEvaluation_leads (t : Nat) (s : State) :
    ∃ s', execWearEvaluation t s = .next s' ∧ (s.advance t).Leads s' := by
  refine ⟨_, rfl, ?_⟩
  have h₀ := State.Leads.refl (s.advance t)
  revert h₀
  generalize s.advance t = a₀
  intro h₀
  repeat' first
    | with_reducible exact h₀
    | with_reducible assumption
    | with_reducible apply leads_inDom
    | with_reducible apply countLife_leads
    | with_reducible apply setWear_leads
    | with_reducible apply countWrap_leads
    | with_reducible apply put64_leads
    | with_reducible apply putSat_leads
    | with_reducible apply wearEval_leads
    | with_reducible apply wearWrite_leads
    | with_reducible apply wearAsk_leads
    | with_reducible apply wearPhases_leads
    | with_reducible apply wearParts_leads
    | with_reducible apply leads_foldl
    | (intro _ _; intro)
    | intro _ _
    | dsimp only
    | split

theorem execWearRecordFail_leads (t : Nat) (k : CellIx) (s : State) :
    ∃ s', execWearRecordFail t k s = .next s' ∧ (s.advance t).Leads s' := by
  refine ⟨_, rfl, ?_⟩
  have h₀ := State.Leads.refl (s.advance t)
  revert h₀
  generalize s.advance t = a₀
  intro h₀
  repeat' first
    | with_reducible exact h₀
    | with_reducible assumption
    | with_reducible apply leads_inDom
    | with_reducible apply setWcell_leads
    | with_reducible apply event_leads
    | intro _ _
    | split
    | dsimp only

theorem execWearFaultClear_leads (t : Nat) (n : SessIx) (value : Word) (mask : Word) (s : State) :
    ∃ s', execWearFaultClear t n value mask s = .next s' ∧ (s.advance t).Leads s' := by
  refine ⟨_, rfl, ?_⟩
  have h₀ := State.Leads.refl (s.advance t)
  revert h₀
  generalize s.advance t = a₀
  intro h₀
  repeat' first
    | with_reducible exact h₀
    | with_reducible assumption
    | with_reducible apply wearStatusWrite_leads
    | with_reducible apply access_leads
    | intro _ _

theorem execWearRfSelect_leads (t : Nat) (n : SessIx) (value : Word) (mask : Word) (s : State) :
    ∃ s', execWearRfSelect t n value mask s = .next s' ∧ (s.advance t).Leads s' := by
  refine ⟨_, rfl, ?_⟩
  have h₀ := State.Leads.refl (s.advance t)
  revert h₀
  generalize s.advance t = a₀
  intro h₀
  repeat' first
    | with_reducible exact h₀
    | with_reducible assumption
    | with_reducible apply wearSelect_leads
    | with_reducible apply access_leads
    | intro _ _

theorem execSafeSelftestDone_leads (t : Nat) (pass : Bool) (s : State) :
    ∃ s', execSafeSelftestDone t pass s = .next s' ∧ (s.advance t).Leads s' := by
  refine ⟨_, rfl, ?_⟩
  have h₀ := State.Leads.refl (s.advance t)
  revert h₀
  generalize s.advance t = a₀
  intro h₀
  repeat' first
    | with_reducible exact h₀
    | with_reducible assumption
    | with_reducible apply leads_inDom
    | with_reducible apply setSafe_leads
    | with_reducible apply safeTake_leads
    | with_reducible apply safeGo_leads
    | with_reducible apply startupTest_leads
    | with_reducible apply safeShow_leads
    | intro _ _
    | split
    | dsimp only

theorem execSafeInputFiltered_leads (t : Nat) (i : Fin 5) (level : Bool) (s : State) :
    ∃ s', execSafeInputFiltered t i level s = .next s' ∧ (s.advance t).Leads s' := by
  refine ⟨_, rfl, ?_⟩
  have h₀ := State.Leads.refl (s.advance t)
  revert h₀
  generalize s.advance t = a₀
  intro h₀
  repeat' first
    | with_reducible exact h₀
    | with_reducible assumption
    | with_reducible apply leads_inDom
    | with_reducible apply put_leads
    | with_reducible apply setSafe_leads
    | with_reducible apply resetFall_leads
    | with_reducible apply putB_leads
    | with_reducible apply startupTest_leads
    | intro _ _
    | split
    | dsimp only

theorem execSafeEvaluation_leads (t : Nat) (differ : Bool) (oscOff : Bool) (backA : Bool) (backB : Bool) (s : State) :
    ∃ s', execSafeEvaluation t differ oscOff backA backB s = .next s' ∧ (s.advance t).Leads s' := by
  refine ⟨_, rfl, ?_⟩
  have h₀ := State.Leads.refl (s.advance t)
  revert h₀
  generalize s.advance t = a₀
  intro h₀
  repeat' first
    | with_reducible exact h₀
    | with_reducible assumption
    | with_reducible apply leads_inDom
    | with_reducible apply setSafe_leads
    | with_reducible apply putB_leads
    | with_reducible apply safeJudge_leads
    | intro _ _
    | split

theorem execSafeDiscrepancy_leads (t : Nat) (pair : Fin 2) (s : State) :
    ∃ s', execSafeDiscrepancy t pair s = .next s' ∧ (s.advance t).Leads s' := by
  refine ⟨_, rfl, ?_⟩
  have h₀ := State.Leads.refl (s.advance t)
  revert h₀
  generalize s.advance t = a₀
  intro h₀
  repeat' first
    | with_reducible exact h₀
    | with_reducible assumption
    | with_reducible apply leads_inDom
    | with_reducible apply setSafe_leads
    | with_reducible apply event_leads
    | intro _ _
    | split
    | dsimp only

theorem execSafeTestPulse_leads (t : Nat) (which : Fin 2) (short : Fin 32) (s : State) :
    ∃ s', execSafeTestPulse t which short s = .next s' ∧ (s.advance t).Leads s' := by
  refine ⟨_, rfl, ?_⟩
  have h₀ := State.Leads.refl (s.advance t)
  revert h₀
  generalize s.advance t = a₀
  intro h₀
  repeat' first
    | with_reducible exact h₀
    | with_reducible assumption
    | with_reducible apply leads_inDom
    | with_reducible apply setSafe_leads
    | intro _ _
    | split
    | dsimp only

theorem execSafeOutputPulse_leads (t : Nat) (darkA : Bool) (darkB : Bool) (s : State) :
    ∃ s', execSafeOutputPulse t darkA darkB s = .next s' ∧ (s.advance t).Leads s' := by
  refine ⟨_, rfl, ?_⟩
  have h₀ := State.Leads.refl (s.advance t)
  revert h₀
  generalize s.advance t = a₀
  intro h₀
  repeat' first
    | with_reducible exact h₀
    | with_reducible assumption
    | with_reducible apply leads_inDom
    | with_reducible apply setSafe_leads
    | intro _ _
    | split

theorem execSafeResetPulse_leads (t : Nat) (s : State) :
    ∃ s', execSafeResetPulse t s = .next s' ∧ (s.advance t).Leads s' := by
  refine ⟨_, rfl, ?_⟩
  have h₀ := State.Leads.refl (s.advance t)
  revert h₀
  generalize s.advance t = a₀
  intro h₀
  repeat' first
    | with_reducible exact h₀
    | with_reducible assumption
    | with_reducible apply leads_inDom
    | with_reducible apply resetFall_leads
    | intro _ _
    | split

theorem execSafeResetStuck_leads (t : Nat) (s : State) :
    ∃ s', execSafeResetStuck t s = .next s' ∧ (s.advance t).Leads s' := by
  refine ⟨_, rfl, ?_⟩
  have h₀ := State.Leads.refl (s.advance t)
  revert h₀
  generalize s.advance t = a₀
  intro h₀
  repeat' first
    | with_reducible exact h₀
    | with_reducible assumption
    | with_reducible apply leads_inDom
    | with_reducible apply setSafe_leads
    | intro _ _
    | split

theorem execSafeTokenIssue_leads (t : Nat) (s : State) :
    ∃ s', execSafeTokenIssue t s = .next s' ∧ (s.advance t).Leads s' := by
  refine ⟨_, rfl, ?_⟩
  have h₀ := State.Leads.refl (s.advance t)
  revert h₀
  generalize s.advance t = a₀
  intro h₀
  repeat' first
    | with_reducible exact h₀
    | with_reducible assumption
    | with_reducible apply leads_inDom
    | with_reducible apply token_leads
    | intro _ _
    | split

theorem execSafeConnLost_leads (t : Nat) (c : Fin 4) (s : State) :
    ∃ s', execSafeConnLost t c s = .next s' ∧ (s.advance t).Leads s' := by
  refine ⟨_, rfl, ?_⟩
  have h₀ := State.Leads.refl (s.advance t)
  revert h₀
  generalize s.advance t = a₀
  intro h₀
  repeat' first
    | with_reducible exact h₀
    | with_reducible assumption
    | with_reducible apply leads_inDom
    | with_reducible apply put_leads
    | with_reducible apply event_leads
    | intro _ _
    | split

theorem execSafeConnRecover_leads (t : Nat) (c : Fin 4) (s : State) :
    ∃ s', execSafeConnRecover t c s = .next s' ∧ (s.advance t).Leads s' := by
  refine ⟨_, rfl, ?_⟩
  have h₀ := State.Leads.refl (s.advance t)
  revert h₀
  generalize s.advance t = a₀
  intro h₀
  repeat' first
    | with_reducible exact h₀
    | with_reducible assumption
    | with_reducible apply leads_inDom
    | with_reducible apply put_leads
    | with_reducible apply setCons_leads
    | intro _ _
    | split
    | dsimp only

theorem execSafePduIssue_leads (t : Nat) (q : Fin 2) (s : State) :
    ∃ s', execSafePduIssue t q s = .next s' ∧ (s.advance t).Leads s' := by
  refine ⟨_, rfl, ?_⟩
  have h₀ := State.Leads.refl (s.advance t)
  revert h₀
  generalize s.advance t = a₀
  intro h₀
  repeat' first
    | with_reducible exact h₀
    | with_reducible assumption
    | with_reducible apply leads_inDom
    | with_reducible apply countWrap_leads
    | with_reducible apply setSafe_leads
    | with_reducible apply pubPdu_leads
    | intro _ _
    | split
    | dsimp only

theorem execCmpTrip_leads (t : Nat) (x : CmpLevel) (s : State) :
    ∃ s', execCmpTrip t x s = .next s' ∧ (s.advance t).Leads s' := by
  refine ⟨_, rfl, ?_⟩
  have h₀ := State.Leads.refl (s.advance t)
  revert h₀
  generalize s.advance t = a₀
  intro h₀
  repeat' first
    | with_reducible exact h₀
    | with_reducible assumption
    | with_reducible apply leads_inDom
    | with_reducible apply cmpOut_leads
    | (intro _ _; intro)
    | intro _ _
    | intro _
    | dsimp only
    | split

theorem execCmpFilterActive_leads (t : Nat) (c : CmpIx) (active : Bool) (s : State) :
    ∃ s', execCmpFilterActive t c active s = .next s' ∧ (s.advance t).Leads s' := by
  refine ⟨_, rfl, ?_⟩
  have h₀ := State.Leads.refl (s.advance t)
  revert h₀
  generalize s.advance t = a₀
  intro h₀
  repeat' first
    | with_reducible exact h₀
    | with_reducible assumption
    | with_reducible apply leads_inDom
    | with_reducible apply putB_leads
    | with_reducible apply setCmp_leads
    | with_reducible apply eventIf_leads
    | intro _ _
    | split

theorem execCmpTick_leads (t : Nat) (c : CmpIx) (v : Nat) (s : State) :
    ∃ s', execCmpTick t c v s = .next s' ∧ (s.advance t).Leads s' := by
  refine ⟨_, rfl, ?_⟩
  have h₀ := State.Leads.refl (s.advance t)
  revert h₀
  generalize s.advance t = a₀
  intro h₀
  repeat' first
    | with_reducible exact h₀
    | with_reducible assumption
    | with_reducible apply leads_inDom
    | with_reducible apply setCmp_leads
    | with_reducible apply cmpOut_leads
    | (intro _ _; intro)
    | intro _ _
    | intro _
    | dsimp only
    | split
    | (with_reducible apply leads_mk; first | with_reducible exact h₀ | with_reducible assumption | with_reducible apply leads_inDom | with_reducible apply setCmp_leads | with_reducible apply cmpOut_leads | (intro _ _; intro) | intro _ _ | intro _ | dsimp only | split)

theorem execCmpSettled_leads (t : Nat) (c : CmpIx) (v : Nat) (s : State) :
    ∃ s', execCmpSettled t c v s = .next s' ∧ (s.advance t).Leads s' := by
  refine ⟨_, rfl, ?_⟩
  have h₀ := State.Leads.refl (s.advance t)
  revert h₀
  generalize s.advance t = a₀
  intro h₀
  repeat' first
    | with_reducible exact h₀
    | with_reducible assumption
    | with_reducible apply leads_inDom
    | with_reducible apply cmpSettle_leads
    | (intro _ _; intro)
    | intro _ _
    | intro _
    | dsimp only
    | split
    | with_reducible refine leads_of_snd (by assumption) ?_
    | with_reducible refine leads_of_fst (by assumption) ?_

theorem execCmpTripClear_leads (t : Nat) (n : SessIx) (c : CmpIx) (value : Word) (mask : Word) (s : State) :
    ∃ s', execCmpTripClear t n c value mask s = .next s' ∧ (s.advance t).Leads s' := by
  refine ⟨_, rfl, ?_⟩
  have h₀ := State.Leads.refl (s.advance t)
  revert h₀
  generalize s.advance t = a₀
  intro h₀
  repeat' first
    | with_reducible exact h₀
    | with_reducible assumption
    | with_reducible apply cmpStatWrite_leads
    | with_reducible apply access_leads
    | intro _ _

theorem execCmpPeriodClear_leads (t : Nat) (c : CmpIx) (s : State) :
    ∃ s', execCmpPeriodClear t c s = .next s' ∧ (s.advance t).Leads s' := by
  refine ⟨_, rfl, ?_⟩
  have h₀ := State.Leads.refl (s.advance t)
  revert h₀
  generalize s.advance t = a₀
  intro h₀
  repeat' first
    | with_reducible exact h₀
    | with_reducible assumption
    | with_reducible apply leads_inDom
    | with_reducible apply tripClear_leads
    | (intro _ _; intro)
    | intro _ _
    | intro _
    | dsimp only
    | split

theorem execBsiStopped_leads (t : Nat) (b : BsiIx) (s : State) :
    ∃ s', execBsiStopped t b s = .next s' ∧ (s.advance t).Leads s' := by
  refine ⟨_, rfl, ?_⟩
  have h₀ := State.Leads.refl (s.advance t)
  revert h₀
  generalize s.advance t = a₀
  intro h₀
  repeat' first
    | with_reducible exact h₀
    | with_reducible assumption
    | with_reducible apply leads_inDom
    | with_reducible apply put_leads
    | with_reducible apply setBsi_leads
    | with_reducible apply event_leads
    | with_reducible apply bsiGone_leads
    | intro _ _
    | split

theorem execBsiOverrange_leads (t : Nat) (b : BsiIx) (s : State) :
    ∃ s', execBsiOverrange t b s = .next s' ∧ (s.advance t).Leads s' := by
  refine ⟨_, rfl, ?_⟩
  have h₀ := State.Leads.refl (s.advance t)
  revert h₀
  generalize s.advance t = a₀
  intro h₀
  repeat' first
    | with_reducible exact h₀
    | with_reducible assumption
    | with_reducible apply leads_inDom
    | with_reducible apply put_leads
    | with_reducible apply setBsi_leads
    | with_reducible apply eventIf_leads
    | intro _ _
    | split

theorem execIadcRoundStart_leads (t : Nat) (s : State) :
    ∃ s', execIadcRoundStart t s = .next s' ∧ (s.advance t).Leads s' := by
  refine ⟨_, rfl, ?_⟩
  have h₀ := State.Leads.refl (s.advance t)
  revert h₀
  generalize s.advance t = a₀
  intro h₀
  repeat' first
    | with_reducible exact h₀
    | with_reducible assumption
    | with_reducible apply leads_inDom
    | with_reducible apply setIadc_leads
    | with_reducible apply count_leads
    | with_reducible apply event_leads
    | with_reducible apply put_leads
    | with_reducible apply convNext_leads
    | intro _ _
    | split
    | dsimp only

theorem execIadcConversionDone_leads (t : Nat) (value : Int) (s : State) :
    ∃ s', execIadcConversionDone t value s = .next s' ∧ (s.advance t).Leads s' := by
  refine ⟨_, rfl, ?_⟩
  have h₀ := State.Leads.refl (s.advance t)
  revert h₀
  generalize s.advance t = a₀
  intro h₀
  repeat' first
    | with_reducible exact h₀
    | with_reducible assumption
    | with_reducible apply leads_inDom
    | with_reducible apply setIadc_leads
    | with_reducible apply convQueue_leads
    | with_reducible apply cpResult_leads
    | with_reducible apply convNext_leads
    | intro _ _
    | split

theorem execIadcHousekeeping_leads (t : Nat) (s : State) :
    ∃ s', execIadcHousekeeping t s = .next s' ∧ (s.advance t).Leads s' := by
  refine ⟨_, rfl, ?_⟩
  have h₀ := State.Leads.refl (s.advance t)
  revert h₀
  generalize s.advance t = a₀
  intro h₀
  repeat' first
    | with_reducible exact h₀
    | with_reducible assumption
    | with_reducible apply leads_inDom
    | with_reducible apply setIadc_leads
    | with_reducible apply convNext_leads
    | intro _ _
    | split
    | dsimp only

theorem execIadcQLoRead_leads (t : Nat) (n : SessIx) (s : State) :
    ∃ s', execIadcQLoRead t n s = .next s' ∧ (s.advance t).Leads s' := by
  refine ⟨_, rfl, ?_⟩
  have h₀ := State.Leads.refl (s.advance t)
  revert h₀
  generalize s.advance t = a₀
  intro h₀
  repeat' first
    | with_reducible exact h₀
    | with_reducible assumption
    | with_reducible apply qLo_leads
    | with_reducible apply readAnswer_leads
    | intro _ _

theorem execIadcQHiRead_leads (t : Nat) (n : SessIx) (s : State) :
    ∃ s', execIadcQHiRead t n s = .next s' ∧ (s.advance t).Leads s' := by
  refine ⟨_, rfl, ?_⟩
  have h₀ := State.Leads.refl (s.advance t)
  revert h₀
  generalize s.advance t = a₀
  intro h₀
  repeat' first
    | with_reducible exact h₀
    | with_reducible assumption
    | with_reducible apply qHi_leads
    | with_reducible apply readAnswer_leads
    | intro _ _

theorem execIadcPeekLoRead_leads (t : Nat) (n : SessIx) (s : State) :
    ∃ s', execIadcPeekLoRead t n s = .next s' ∧ (s.advance t).Leads s' := by
  refine ⟨_, rfl, ?_⟩
  have h₀ := State.Leads.refl (s.advance t)
  revert h₀
  generalize s.advance t = a₀
  intro h₀
  repeat' first
    | with_reducible exact h₀
    | with_reducible assumption
    | with_reducible apply qLo_leads
    | with_reducible apply readAnswer_leads
    | intro _ _

theorem execIadcPeekHiRead_leads (t : Nat) (n : SessIx) (s : State) :
    ∃ s', execIadcPeekHiRead t n s = .next s' ∧ (s.advance t).Leads s' := by
  refine ⟨_, rfl, ?_⟩
  have h₀ := State.Leads.refl (s.advance t)
  revert h₀
  generalize s.advance t = a₀
  intro h₀
  repeat' first
    | with_reducible exact h₀
    | with_reducible assumption
    | with_reducible apply qHi_leads
    | with_reducible apply readAnswer_leads
    | intro _ _

theorem execLegEnable_leads (t : Nat) (n : SessIx) (l : LegIx) (s : State) :
    ∃ s', execLegEnable t n l s = .next s' ∧ (s.advance t).Leads s' := by
  refine ⟨_, rfl, ?_⟩
  have h₀ := State.Leads.refl (s.advance t)
  revert h₀
  generalize s.advance t = a₀
  intro h₀
  repeat' first
    | with_reducible exact h₀
    | with_reducible assumption
    | with_reducible apply legEnable_leads
    | with_reducible apply access_leads
    | intro _ _

theorem execLegDiagResult_leads (t : Nat) (l : LegIx) (v0 : Fin 65536) (v1 : Fin 65536) (s : State) :
    ∃ s', execLegDiagResult t l v0 v1 s = .next s' ∧ (s.advance t).Leads s' := by
  refine ⟨_, rfl, ?_⟩
  have h₀ := State.Leads.refl (s.advance t)
  revert h₀
  generalize s.advance t = a₀
  intro h₀
  repeat' first
    | with_reducible exact h₀
    | with_reducible assumption
    | with_reducible apply leads_inDom
    | with_reducible apply put_leads
    | with_reducible apply legGo_leads
    | with_reducible apply setLegX_leads
    | with_reducible apply event_leads
    | intro _ _
    | split
    | dsimp only

theorem execLegDisable_leads (t : Nat) (n : SessIx) (l : LegIx) (s : State) :
    ∃ s', execLegDisable t n l s = .next s' ∧ (s.advance t).Leads s' := by
  refine ⟨_, rfl, ?_⟩
  have h₀ := State.Leads.refl (s.advance t)
  revert h₀
  generalize s.advance t = a₀
  intro h₀
  repeat' first
    | with_reducible exact h₀
    | with_reducible assumption
    | with_reducible apply legDisable_leads
    | with_reducible apply access_leads
    | intro _ _

theorem execLegEnFall_leads (t : Nat) (l : LegIx) (s : State) :
    ∃ s', execLegEnFall t l s = .next s' ∧ (s.advance t).Leads s' := by
  refine ⟨_, rfl, ?_⟩
  have h₀ := State.Leads.refl (s.advance t)
  revert h₀
  generalize s.advance t = a₀
  intro h₀
  repeat' first
    | with_reducible exact h₀
    | with_reducible assumption
    | with_reducible apply leads_inDom
    | with_reducible apply legGo_leads
    | intro _ _
    | split

theorem execPwrReqOff_leads (t : Nat) (n : SessIx) (d : Fin 32) (s : State) :
    ∃ s', execPwrReqOff t n d s = .next s' ∧ (s.advance t).Leads s' := by
  refine ⟨_, rfl, ?_⟩
  have h₀ := State.Leads.refl (s.advance t)
  revert h₀
  generalize s.advance t = a₀
  intro h₀
  repeat' first
    | with_reducible exact h₀
    | with_reducible apply pwrReqBy_leads

theorem execPwrReqRetention_leads (t : Nat) (n : SessIx) (d : Fin 32) (s : State) :
    ∃ s', execPwrReqRetention t n d s = .next s' ∧ (s.advance t).Leads s' := by
  refine ⟨_, rfl, ?_⟩
  have h₀ := State.Leads.refl (s.advance t)
  revert h₀
  generalize s.advance t = a₀
  intro h₀
  repeat' first
    | with_reducible exact h₀
    | with_reducible apply pwrReqBy_leads

theorem execPwrReqOn_leads (t : Nat) (n : SessIx) (d : Fin 32) (s : State) :
    ∃ s', execPwrReqOn t n d s = .next s' ∧ (s.advance t).Leads s' := by
  refine ⟨_, rfl, ?_⟩
  have h₀ := State.Leads.refl (s.advance t)
  revert h₀
  generalize s.advance t = a₀
  intro h₀
  repeat' first
    | with_reducible exact h₀
    | with_reducible apply pwrReqBy_leads

theorem execPwrPrepared_leads (t : Nat) (d : DomIx) (s : State) :
    ∃ s', execPwrPrepared t d s = .next s' ∧ (s.advance t).Leads s' := by
  refine ⟨_, rfl, ?_⟩
  have h₀ := State.Leads.refl (s.advance t)
  revert h₀
  generalize s.advance t = a₀
  intro h₀
  repeat' first
    | with_reducible exact h₀
    | with_reducible apply domainDown_leads
    | with_reducible apply wakeGo_leads
    | split
    | dsimp only

theorem execDomainRestoreStep_leads (t : Nat) (s : State) :
    ∃ s', execDomainRestoreStep t s = .next s' ∧ (s.advance t).Leads s' := by
  refine ⟨_, rfl, ?_⟩
  have h₀ := State.Leads.refl (s.advance t)
  revert h₀
  generalize s.advance t = a₀
  intro h₀
  repeat' first
    | with_reducible exact h₀
    | with_reducible assumption
    | with_reducible apply leads_inDom
    | with_reducible apply nextStep_leads
    | with_reducible apply domainUp_leads
    | with_reducible apply setPwr_leads
    | with_reducible apply lanesUp_leads
    | with_reducible apply leads_foldl
    | (intro _ _; intro)
    | intro _ _
    | intro _
    | dsimp only
    | split
    | with_reducible refine leads_of_snd (by assumption) ?_
    | with_reducible refine leads_of_fst (by assumption) ?_
    | (with_reducible apply leads_mk; first | with_reducible exact h₀ | with_reducible assumption | with_reducible apply leads_inDom | with_reducible apply nextStep_leads | with_reducible apply domainUp_leads | with_reducible apply setPwr_leads | with_reducible apply lanesUp_leads | with_reducible apply leads_foldl | (intro _ _; intro) | intro _ _ | intro _ | dsimp only | split | with_reducible refine leads_of_snd (by assumption) ?_ | with_reducible refine leads_of_fst (by assumption) ?_)

theorem execI2cAddressMatch_leads (t : Nat) (addr : Fin 128) (s : State) :
    ∃ s', execI2cAddressMatch t addr s = .next s' ∧ (s.advance t).Leads s' := by
  refine ⟨_, rfl, ?_⟩
  have h₀ := State.Leads.refl (s.advance t)
  revert h₀
  generalize s.advance t = a₀
  intro h₀
  repeat' first
    | with_reducible exact h₀
    | with_reducible apply setPwr_leads
    | with_reducible apply wakeGo_leads
    | split
    | dsimp only

theorem execPwrStretchLimit_leads (t : Nat) (s : State) :
    ∃ s', execPwrStretchLimit t s = .next s' ∧ (s.advance t).Leads s' := by
  refine ⟨_, rfl, ?_⟩
  have h₀ := State.Leads.refl (s.advance t)
  revert h₀
  generalize s.advance t = a₀
  intro h₀
  repeat' first
    | with_reducible exact h₀
    | with_reducible apply setPwr_leads
    | with_reducible apply put_leads
    | with_reducible apply putSat_leads
    | with_reducible apply event_leads
    | split
    | dsimp only

theorem execPwrSupplyLost_leads (t : Nat) (b : Bool) (s : State) :
    ∃ s', execPwrSupplyLost t b s = .next s' ∧ (s.advance t).Leads s' := by
  refine ⟨_, rfl, ?_⟩
  have h₀ := State.Leads.refl (s.advance t)
  revert h₀
  generalize s.advance t = a₀
  intro h₀
  repeat' first
    | with_reducible exact h₀
    | with_reducible apply put_leads
    | with_reducible apply event_leads
    | with_reducible apply allOff_leads
    | with_reducible apply setDom_leads
    | with_reducible apply pwrEvent_leads
    | with_reducible apply put64_leads
    | with_reducible apply cremaSrc_leads
    | with_reducible apply cellSource_leads
    | split
    | dsimp only

theorem execPwrSupplyRestored_leads (t : Nat) (b : Bool) (straps : Straps) (s : State) :
    ∃ s', execPwrSupplyRestored t b straps s = .next s' ∧ (s.advance t).Leads s' := by
  refine ⟨_, rfl, ?_⟩
  have h₀ := State.Leads.refl (s.advance t)
  revert h₀
  generalize s.advance t = a₀
  intro h₀
  repeat' first
    | with_reducible exact h₀
    | with_reducible assumption
    | with_reducible apply leads_inDom
    | with_reducible apply put_leads
    | with_reducible apply cremaSrc_leads
    | with_reducible apply cremaStart_leads
    | with_reducible apply event_leads
    | with_reducible apply setDom_leads
    | with_reducible apply safePowerUp_leads
    | with_reducible apply setPwr_leads
    | with_reducible apply coldStart_leads
    | (intro _ _; intro)
    | intro _ _
    | intro _
    | dsimp only
    | split
    | (with_reducible apply leads_mk; first | with_reducible exact h₀ | with_reducible assumption | with_reducible apply leads_inDom | with_reducible apply put_leads | with_reducible apply cremaSrc_leads | with_reducible apply cremaStart_leads | with_reducible apply event_leads | with_reducible apply setDom_leads | with_reducible apply safePowerUp_leads | with_reducible apply setPwr_leads | with_reducible apply coldStart_leads | (intro _ _; intro) | intro _ _ | intro _ | dsimp only | split)

theorem execCremaTamperCheck_leads (t : Nat) (open_ : Bool) (s : State) :
    ∃ s', execCremaTamperCheck t open_ s = .next s' ∧ (s.advance t).Leads s' := by
  refine ⟨_, rfl, ?_⟩
  have h₀ := State.Leads.refl (s.advance t)
  revert h₀
  generalize s.advance t = a₀
  intro h₀
  repeat' first
    | with_reducible exact h₀
    | with_reducible apply setPwr_leads
    | with_reducible apply put_leads
    | with_reducible apply put64_leads
    | with_reducible apply eventIf_leads
    | split
    | dsimp only

theorem execCremaChargeDone_leads (t : Nat) (uAh : Nat) (s : State) :
    ∃ s', execCremaChargeDone t uAh s = .next s' ∧ (s.advance t).Leads s' := by
  refine ⟨_, rfl, ?_⟩
  have h₀ := State.Leads.refl (s.advance t)
  revert h₀
  generalize s.advance t = a₀
  intro h₀
  repeat' first
    | with_reducible exact h₀
    | with_reducible apply put_leads
    | with_reducible apply setPwr_leads
    | with_reducible apply capResult_leads
    | split
    | dsimp only

theorem execCremaChgTemp_leads (t : Nat) (ok : Bool) (vcell : Nat) (vharv : Nat) (iharv : Nat) (s : State) :
    ∃ s', execCremaChgTemp t ok vcell vharv iharv s = .next s' ∧ (s.advance t).Leads s' := by
  refine ⟨_, rfl, ?_⟩
  have h₀ := State.Leads.refl (s.advance t)
  revert h₀
  generalize s.advance t = a₀
  intro h₀
  repeat' first
    | with_reducible exact h₀
    | with_reducible assumption
    | with_reducible apply leads_inDom
    | with_reducible apply putSat_leads
    | with_reducible apply putB_leads
    | with_reducible apply cellSource_leads
    | with_reducible apply startCharge_leads
    | with_reducible apply put_leads
    | with_reducible apply setPwr_leads
    | with_reducible apply eventIf_leads
    | (intro _ _; intro)
    | intro _ _
    | intro _
    | dsimp only
    | split
    | (with_reducible apply leads_mk; first | with_reducible exact h₀ | with_reducible assumption | with_reducible apply leads_inDom | with_reducible apply putSat_leads | with_reducible apply putB_leads | with_reducible apply cellSource_leads | with_reducible apply startCharge_leads | with_reducible apply put_leads | with_reducible apply setPwr_leads | with_reducible apply eventIf_leads | (intro _ _; intro) | intro _ _ | intro _ | dsimp only | split)

theorem execCremaCellCutoff_leads (t : Nat) (s : State) :
    ∃ s', execCremaCellCutoff t s = .next s' ∧ (s.advance t).Leads s' := by
  refine ⟨_, rfl, ?_⟩
  have h₀ := State.Leads.refl (s.advance t)
  revert h₀
  generalize s.advance t = a₀
  intro h₀
  dsimp only
  split
  · exact h₀
  · exact setDom_leads (setPwr_leads (leads_mk (dropDomain_leads (leads_regs_filter h₀ _) _) ..) _) ..

theorem execCremaCapTest_leads (t : Nat) (s : State) :
    ∃ s', execCremaCapTest t s = .next s' ∧ (s.advance t).Leads s' := by
  refine ⟨_, rfl, ?_⟩
  have h₀ := State.Leads.refl (s.advance t)
  revert h₀
  generalize s.advance t = a₀
  intro h₀
  repeat' first
    | with_reducible exact h₀
    | with_reducible apply put_leads
    | split
    | dsimp only

theorem execCremaCapTestEnd_leads (t : Nat) (s : State) :
    ∃ s', execCremaCapTestEnd t s = .next s' ∧ (s.advance t).Leads s' := by
  refine ⟨_, rfl, ?_⟩
  have h₀ := State.Leads.refl (s.advance t)
  revert h₀
  generalize s.advance t = a₀
  intro h₀
  repeat' first
    | with_reducible exact h₀
    | with_reducible apply put_leads
    | with_reducible apply startCharge_leads
    | with_reducible apply setPwr_leads
    | split
    | dsimp only

theorem execThmUpdate_leads (t : Nat) (p : List Nat) (s : State) :
    ∃ s', execThmUpdate t p s = .next s' ∧ (s.advance t).Leads s' := by
  refine ⟨_, rfl, ?_⟩
  have h₀ := State.Leads.refl (s.advance t)
  revert h₀
  generalize s.advance t = a₀
  intro h₀
  repeat' first
    | with_reducible exact h₀
    | with_reducible assumption
    | with_reducible apply thmRegion_leads
    | with_reducible apply leads_forN
    | (intro _ _; intro)
    | split
    | dsimp only

theorem execThmRestart_leads (t : Nat) (d : DomIx) (s : State) :
    ∃ s', execThmRestart t d s = .next s' ∧ (s.advance t).Leads s' := by
  refine ⟨_, rfl, ?_⟩
  have h₀ := State.Leads.refl (s.advance t)
  revert h₀
  generalize s.advance t = a₀
  intro h₀
  repeat' first
    | with_reducible exact h₀
    | with_reducible assumption
    | with_reducible apply leads_inDom
    | with_reducible apply setPwr_leads
    | with_reducible apply put_leads
    | with_reducible apply event_leads
    | with_reducible apply handPeers_leads
    | with_reducible apply startPlan_leads
    | (intro _ _; intro)
    | intro _ _
    | intro _
    | dsimp only
    | split
    | with_reducible refine leads_of_snd (by assumption) ?_
    | with_reducible refine leads_of_fst (by assumption) ?_
    | (with_reducible apply leads_mk; first | with_reducible exact h₀ | with_reducible assumption | with_reducible apply leads_inDom | with_reducible apply setPwr_leads | with_reducible apply put_leads | with_reducible apply event_leads | with_reducible apply handPeers_leads | with_reducible apply startPlan_leads | (intro _ _; intro) | intro _ _ | intro _ | dsimp only | split | with_reducible refine leads_of_snd (by assumption) ?_ | with_reducible refine leads_of_fst (by assumption) ?_)

theorem execThmCpStale_leads (t : Nat) (s : State) :
    ∃ s', execThmCpStale t s = .next s' ∧ (s.advance t).Leads s' := by
  refine ⟨_, rfl, ?_⟩
  have h₀ := State.Leads.refl (s.advance t)
  revert h₀
  generalize s.advance t = a₀
  intro h₀
  repeat' first
    | with_reducible exact h₀
    | with_reducible apply put_leads
    | with_reducible apply putS_leads
    | with_reducible apply event_leads
    | split
    | dsimp only

theorem execThmPeakRead_leads (t : Nat) (n : SessIx) (d : DomIx) (s : State) :
    ∃ s', execThmPeakRead t n d s = .next s' ∧ (s.advance t).Leads s' := by
  refine ⟨_, rfl, ?_⟩
  have h₀ := State.Leads.refl (s.advance t)
  revert h₀
  generalize s.advance t = a₀
  intro h₀
  repeat' first
    | with_reducible exact h₀
    | with_reducible assumption
    | with_reducible apply thmPeak_leads
    | with_reducible apply readAnswer_leads
    | intro _ _

theorem execNresetAssert_leads (t : Nat) (s : State) :
    ∃ s', execNresetAssert t s = .next s' ∧ (s.advance t).Leads s' := by
  refine ⟨_, rfl, ?_⟩
  have h₀ := State.Leads.refl (s.advance t)
  revert h₀
  generalize s.advance t = a₀
  intro h₀
  repeat' first
    | with_reducible exact h₀
    | with_reducible apply allOff_leads
    | with_reducible apply setPwr_leads

theorem execNresetRelease_leads (t : Nat) (straps : Straps) (s : State) :
    ∃ s', execNresetRelease t straps s = .next s' ∧ (s.advance t).Leads s' := by
  refine ⟨_, rfl, ?_⟩
  have h₀ := State.Leads.refl (s.advance t)
  revert h₀
  generalize s.advance t = a₀
  intro h₀
  repeat' first
    | with_reducible exact h₀
    | with_reducible assumption
    | with_reducible apply leads_inDom
    | with_reducible apply setPwr_leads
    | with_reducible apply coldStart_leads
    | (intro _ _; intro)
    | intro _ _
    | intro _
    | dsimp only
    | split
    | (with_reducible apply leads_mk; first | with_reducible exact h₀ | with_reducible assumption | with_reducible apply leads_inDom | with_reducible apply setPwr_leads | with_reducible apply coldStart_leads | (intro _ _; intro) | intro _ _ | intro _ | dsimp only | split)

theorem execCfgImageReadDone_leads (t : Nat) (img : Option Image) (s : State) :
    ∃ s', execCfgImageReadDone t img s = .next s' ∧ (s.advance t).Leads s' := by
  refine ⟨_, rfl, ?_⟩
  have h₀ := State.Leads.refl (s.advance t)
  revert h₀
  generalize s.advance t = a₀
  intro h₀
  repeat' first
    | with_reducible exact h₀
    | with_reducible assumption
    | with_reducible apply leads_inDom
    | with_reducible apply noteSlot_leads
    | with_reducible apply setStart_leads
    | with_reducible apply slotFail_leads
    | with_reducible apply put_leads
    | intro _ _
    | split

theorem execCfgLoadDone_leads (t : Nat) (s : State) :
    ∃ s', execCfgLoadDone t s = .next s' ∧ (s.advance t).Leads s' := by
  refine ⟨_, rfl, ?_⟩
  have h₀ := State.Leads.refl (s.advance t)
  revert h₀
  generalize s.advance t = a₀
  intro h₀
  repeat' first
    | with_reducible exact h₀
    | with_reducible assumption
    | with_reducible apply leads_inDom
    | with_reducible apply blankCfg_leads
    | with_reducible apply slotFail_leads
    | with_reducible apply applyOne_leads
    | with_reducible apply logCheck_leads
    | with_reducible apply setStart_leads
    | with_reducible apply put_leads
    | with_reducible apply takeImage_leads
    | with_reducible apply leads_foldl
    | (intro _ _; intro)
    | intro _ _
    | intro _
    | dsimp only
    | split
    | with_reducible refine leads_of_snd (by assumption) ?_
    | with_reducible refine leads_of_fst (by assumption) ?_
    | (with_reducible apply leads_mk; first | with_reducible exact h₀ | with_reducible assumption | with_reducible apply leads_inDom | with_reducible apply blankCfg_leads | with_reducible apply slotFail_leads | with_reducible apply applyOne_leads | with_reducible apply logCheck_leads | with_reducible apply setStart_leads | with_reducible apply put_leads | with_reducible apply takeImage_leads | with_reducible apply leads_foldl | (intro _ _; intro) | intro _ _ | intro _ | dsimp only | split | with_reducible refine leads_of_snd (by assumption) ?_ | with_reducible refine leads_of_fst (by assumption) ?_)

theorem execCfgReady_leads (t : Nat) (s : State) :
    ∃ s', execCfgReady t s = .next s' ∧ (s.advance t).Leads s' := by
  refine ⟨_, rfl, ?_⟩
  have h₀ := State.Leads.refl (s.advance t)
  revert h₀
  generalize s.advance t = a₀
  intro h₀
  repeat' first
    | with_reducible exact h₀
    | with_reducible assumption
    | with_reducible apply leads_inDom
    | with_reducible apply put_leads
    | with_reducible apply putB_leads
    | with_reducible apply putSat_leads
    | intro _ _
    | split
    | dsimp only

theorem execCfgCmdNone_leads (t : Nat) (n : SessIx) (s : State) :
    ∃ s', execCfgCmdNone t n s = .next s' ∧ (s.advance t).Leads s' := by
  refine ⟨_, rfl, ?_⟩
  have h₀ := State.Leads.refl (s.advance t)
  revert h₀
  generalize s.advance t = a₀
  intro h₀
  repeat' first
    | with_reducible exact h₀
    | with_reducible apply cfgCmdBy_leads

end Sys2Proof.Machine
end

