-- ==== Sys2Proof/Laws/Leads/ExecE.lean ====
section
/-! SUPPORT. Every command answers a next state that keeps what `State.Leads` says, part E. -/

namespace Sys2Proof.Machine

theorem execCfgActivate_leads (t : Nat) (n : SessIx) (img : Option Image) (s : State) :
    ∃ s', execCfgActivate t n img s = .next s' ∧ (s.advance t).Leads s' := by
  refine ⟨_, rfl, ?_⟩
  have h₀ := State.Leads.refl (s.advance t)
  revert h₀
  generalize s.advance t = a₀
  intro h₀
  repeat' first
    | with_reducible exact h₀
    | with_reducible apply cfgCmdBy_leads

theorem execCfgConfirm_leads (t : Nat) (n : SessIx) (s : State) :
    ∃ s', execCfgConfirm t n s = .next s' ∧ (s.advance t).Leads s' := by
  refine ⟨_, rfl, ?_⟩
  have h₀ := State.Leads.refl (s.advance t)
  revert h₀
  generalize s.advance t = a₀
  intro h₀
  repeat' first
    | with_reducible exact h₀
    | with_reducible apply cfgCmdBy_leads

theorem execCfgVerify_leads (t : Nat) (n : SessIx) (slot : Fin 2) (img : Option Image) (s : State) :
    ∃ s', execCfgVerify t n slot img s = .next s' ∧ (s.advance t).Leads s' := by
  refine ⟨_, rfl, ?_⟩
  have h₀ := State.Leads.refl (s.advance t)
  revert h₀
  generalize s.advance t = a₀
  intro h₀
  repeat' first
    | with_reducible exact h₀
    | with_reducible apply cfgCmdBy_leads

theorem execCfgReload_leads (t : Nat) (n : SessIx) (s : State) :
    ∃ s', execCfgReload t n s = .next s' ∧ (s.advance t).Leads s' := by
  refine ⟨_, rfl, ?_⟩
  have h₀ := State.Leads.refl (s.advance t)
  revert h₀
  generalize s.advance t = a₀
  intro h₀
  repeat' first
    | with_reducible exact h₀
    | with_reducible apply cfgCmdBy_leads

theorem execCfgFwSwitch_leads (t : Nat) (n : SessIx) (s : State) :
    ∃ s', execCfgFwSwitch t n s = .next s' ∧ (s.advance t).Leads s' := by
  refine ⟨_, rfl, ?_⟩
  have h₀ := State.Leads.refl (s.advance t)
  revert h₀
  generalize s.advance t = a₀
  intro h₀
  repeat' first
    | with_reducible exact h₀
    | with_reducible apply cfgCmdBy_leads

theorem execCfgRestart_leads (t : Nat) (n : SessIx) (s : State) :
    ∃ s', execCfgRestart t n s = .next s' ∧ (s.advance t).Leads s' := by
  refine ⟨_, rfl, ?_⟩
  have h₀ := State.Leads.refl (s.advance t)
  revert h₀
  generalize s.advance t = a₀
  intro h₀
  repeat' first
    | with_reducible exact h₀
    | with_reducible apply cfgCmdBy_leads

theorem execXspiReadFrame_leads (t : Nat) (n : SessIx) (ok : Bool) (data : List Byte) (s : State) :
    ∃ s', execXspiReadFrame t n ok data s = .next s' ∧ (s.advance t).Leads s' := by
  refine ⟨_, rfl, ?_⟩
  have h₀ := State.Leads.refl (s.advance t)
  revert h₀
  generalize s.advance t = a₀
  intro h₀
  repeat' first
    | with_reducible exact h₀
    | with_reducible assumption
    | with_reducible apply xspiGo_leads
    | with_reducible apply access_leads
    | intro _ _
    | split
    | dsimp only

theorem execXspiWriteFrame_leads (t : Nat) (n : SessIx) (ok : Bool) (s : State) :
    ∃ s', execXspiWriteFrame t n ok s = .next s' ∧ (s.advance t).Leads s' := by
  refine ⟨_, rfl, ?_⟩
  have h₀ := State.Leads.refl (s.advance t)
  revert h₀
  generalize s.advance t = a₀
  intro h₀
  repeat' first
    | with_reducible exact h₀
    | with_reducible assumption
    | with_reducible apply xspiGo_leads
    | with_reducible apply access_leads
    | intro _ _
    | split
    | dsimp only

theorem execXspiFault_leads (t : Nat) (dev : Fin 8) (addr : Nat) (s : State) :
    ∃ s', execXspiFault t dev addr s = .next s' ∧ (s.advance t).Leads s' := by
  refine ⟨_, rfl, ?_⟩
  have h₀ := State.Leads.refl (s.advance t)
  revert h₀
  generalize s.advance t = a₀
  intro h₀
  repeat' first
    | with_reducible exact h₀
    | with_reducible assumption
    | with_reducible apply leads_inDom
    | with_reducible apply enterMonitor_leads
    | with_reducible apply event_leads
    | with_reducible apply freeStep_leads
    | intro _ _
    | split

theorem execMgmtStart_leads (t : Nat) (valid : Fin 4) (ver : Word) (s : State) :
    ∃ s', execMgmtStart t valid ver s = .next s' ∧ (s.advance t).Leads s' := by
  refine ⟨_, rfl, ?_⟩
  have h₀ := State.Leads.refl (s.advance t)
  revert h₀
  generalize s.advance t = a₀
  intro h₀
  repeat' first
    | with_reducible exact h₀
    | with_reducible assumption
    | with_reducible apply leads_inDom
    | with_reducible apply setStart_leads
    | with_reducible apply enterMonitor_leads
    | with_reducible apply setMgmt_leads
    | with_reducible apply put_leads
    | with_reducible apply setWord_leads
    | with_reducible apply closeLock_leads
    | with_reducible apply setPwr_leads
    | intro _ _
    | split

theorem execAccLockClose_leads (t : Nat) (n : SessIx) (s : State) :
    ∃ s', execAccLockClose t n s = .next s' ∧ (s.advance t).Leads s' := by
  refine ⟨_, rfl, ?_⟩
  have h₀ := State.Leads.refl (s.advance t)
  revert h₀
  generalize s.advance t = a₀
  intro h₀
  repeat' first
    | with_reducible exact h₀
    | with_reducible assumption
    | with_reducible apply lockWrite_leads
    | with_reducible apply access_leads
    | intro _ _

theorem execAccOpenerExpired_leads (t : Nat) (s : State) :
    ∃ s', execAccOpenerExpired t s = .next s' ∧ (s.advance t).Leads s' := by
  refine ⟨_, rfl, ?_⟩
  have h₀ := State.Leads.refl (s.advance t)
  revert h₀
  generalize s.advance t = a₀
  intro h₀
  repeat' first
    | with_reducible exact h₀
    | with_reducible apply endOpener_leads
    | split
    | dsimp only

theorem execAccAuthUnblock_leads (t : Nat) (s : State) :
    ∃ s', execAccAuthUnblock t s = .next s' ∧ (s.advance t).Leads s' := by
  refine ⟨_, rfl, ?_⟩
  have h₀ := State.Leads.refl (s.advance t)
  revert h₀
  generalize s.advance t = a₀
  intro h₀
  repeat' first
    | with_reducible exact h₀
    | with_reducible apply setStart_leads
    | split
    | dsimp only

theorem execAccKeyDataWrite_leads (t : Nat) (n : SessIx) (w : Fin 8) (value : Word) (mask : Word) (s : State) :
    ∃ s', execAccKeyDataWrite t n w value mask s = .next s' ∧ (s.advance t).Leads s' := by
  refine ⟨_, rfl, ?_⟩
  have h₀ := State.Leads.refl (s.advance t)
  revert h₀
  generalize s.advance t = a₀
  intro h₀
  repeat' first
    | with_reducible exact h₀
    | with_reducible assumption
    | with_reducible apply keyWrite_leads
    | with_reducible apply access_leads
    | intro _ _

theorem execAccKeyProgram_leads (t : Nat) (n : SessIx) (k : Fin 4) (s : State) :
    ∃ s', execAccKeyProgram t n k s = .next s' ∧ (s.advance t).Leads s' := by
  refine ⟨_, rfl, ?_⟩
  have h₀ := State.Leads.refl (s.advance t)
  revert h₀
  generalize s.advance t = a₀
  intro h₀
  repeat' first
    | with_reducible exact h₀
    | with_reducible assumption
    | with_reducible apply keySel_leads
    | with_reducible apply access_leads
    | intro _ _

theorem execAccKeyDataClear_leads (t : Nat) (s : State) :
    ∃ s', execAccKeyDataClear t s = .next s' ∧ (s.advance t).Leads s' := by
  refine ⟨_, rfl, ?_⟩
  have h₀ := State.Leads.refl (s.advance t)
  revert h₀
  generalize s.advance t = a₀
  intro h₀
  repeat' first
    | with_reducible exact h₀
    | with_reducible apply clearKey_leads
    | split
    | dsimp only

theorem execMgmtFrameBad_leads (t : Nat) (i2c : Bool) (bytes : List Byte) (s : State) :
    ∃ s', execMgmtFrameBad t i2c bytes s = .next s' ∧ (s.advance t).Leads s' := by
  refine ⟨_, rfl, ?_⟩
  have h₀ := State.Leads.refl (s.advance t)
  revert h₀
  generalize s.advance t = a₀
  intro h₀
  repeat' first
    | with_reducible exact h₀
    | with_reducible assumption
    | with_reducible apply leads_inDom
    | with_reducible apply newFrame_leads
    | with_reducible apply badFrame_leads
    | (intro _ _; intro)
    | intro _ _
    | intro _
    | dsimp only
    | split

theorem execMgmtOpen_leads (t : Nat) (h : MHead) (body : List Byte) (s : State) :
    ∃ s', execMgmtOpen t h body s = .next s' ∧ (s.advance t).Leads s' := by
  refine ⟨_, rfl, ?_⟩
  have h₀ := State.Leads.refl (s.advance t)
  revert h₀
  generalize s.advance t = a₀
  intro h₀
  repeat' first
    | with_reducible exact h₀
    | with_reducible assumption
    | with_reducible apply leads_inDom
    | with_reducible apply newFrame_leads
    | with_reducible apply badFrame_leads
    | with_reducible apply openSession_leads
    | with_reducible apply sendReply_leads
    | (intro _ _; intro)
    | intro _ _
    | intro _
    | dsimp only
    | split

theorem execMgmtClose_leads (t : Nat) (h : MHead) (s : State) :
    ∃ s', execMgmtClose t h s = .next s' ∧ (s.advance t).Leads s' := by
  refine ⟨_, rfl, ?_⟩
  have h₀ := State.Leads.refl (s.advance t)
  revert h₀
  generalize s.advance t = a₀
  intro h₀
  repeat' first
    | with_reducible exact h₀
    | with_reducible assumption
    | with_reducible apply closeSession_leads
    | with_reducible apply request_leads
    | (intro _ _; intro)
    | split
    | dsimp only

theorem execMgmtSessionIdle_leads (t : Nat) (n : SessIx) (s : State) :
    ∃ s', execMgmtSessionIdle t n s = .next s' ∧ (s.advance t).Leads s' := by
  refine ⟨_, rfl, ?_⟩
  have h₀ := State.Leads.refl (s.advance t)
  revert h₀
  generalize s.advance t = a₀
  intro h₀
  repeat' first
    | with_reducible exact h₀
    | with_reducible assumption
    | with_reducible apply leads_inDom
    | with_reducible apply setMgmt_leads
    | with_reducible apply closeSession_leads
    | intro _ _
    | dsimp only
    | split

theorem execMgmtRead_leads (t : Nat) (h : MHead) (body : List Byte) (s : State) :
    ∃ s', execMgmtRead t h body s = .next s' ∧ (s.advance t).Leads s' := by
  refine ⟨_, rfl, ?_⟩
  have h₀ := State.Leads.refl (s.advance t)
  revert h₀
  generalize s.advance t = a₀
  intro h₀
  repeat' first
    | with_reducible exact h₀
    | with_reducible assumption
    | with_reducible apply opRead_leads
    | with_reducible apply request_leads
    | (intro _ _; intro)

theorem execMgmtWrite_leads (t : Nat) (h : MHead) (body : List Byte) (e : AccEnv) (s : State) :
    ∃ s', execMgmtWrite t h body e s = .next s' ∧ (s.advance t).Leads s' := by
  refine ⟨_, rfl, ?_⟩
  have h₀ := State.Leads.refl (s.advance t)
  revert h₀
  generalize s.advance t = a₀
  intro h₀
  repeat' first
    | with_reducible exact h₀
    | with_reducible assumption
    | with_reducible apply opWrite_leads
    | with_reducible apply request_leads
    | (intro _ _; intro)

theorem execReadBlock_leads (t : Nat) (h : MHead) (body : List Byte) (s : State) :
    ∃ s', execReadBlock t h body s = .next s' ∧ (s.advance t).Leads s' := by
  refine ⟨_, rfl, ?_⟩
  have h₀ := State.Leads.refl (s.advance t)
  revert h₀
  generalize s.advance t = a₀
  intro h₀
  repeat' first
    | with_reducible exact h₀
    | with_reducible assumption
    | with_reducible apply opReadBlock_leads
    | with_reducible apply request_leads
    | (intro _ _; intro)

theorem execEventFetch_leads (t : Nat) (h : MHead) (body : List Byte) (s : State) :
    ∃ s', execEventFetch t h body s = .next s' ∧ (s.advance t).Leads s' := by
  refine ⟨_, rfl, ?_⟩
  have h₀ := State.Leads.refl (s.advance t)
  revert h₀
  generalize s.advance t = a₀
  intro h₀
  repeat' first
    | with_reducible exact h₀
    | with_reducible assumption
    | with_reducible apply opEventFetch_leads
    | with_reducible apply request_leads
    | (intro _ _; intro)

theorem execRecordQuery_leads (t : Nat) (h : MHead) (body : List Byte) (s : State) :
    ∃ s', execRecordQuery t h body s = .next s' ∧ (s.advance t).Leads s' := by
  refine ⟨_, rfl, ?_⟩
  have h₀ := State.Leads.refl (s.advance t)
  revert h₀
  generalize s.advance t = a₀
  intro h₀
  repeat' first
    | with_reducible exact h₀
    | with_reducible assumption
    | with_reducible apply opQuery_leads
    | with_reducible apply request_leads
    | (intro _ _; intro)

theorem execRecordFetch_leads (t : Nat) (h : MHead) (body : List Byte) (e : ReadFail) (s : State) :
    ∃ s', execRecordFetch t h body e s = .next s' ∧ (s.advance t).Leads s' := by
  refine ⟨_, rfl, ?_⟩
  have h₀ := State.Leads.refl (s.advance t)
  revert h₀
  generalize s.advance t = a₀
  intro h₀
  repeat' first
    | with_reducible exact h₀
    | with_reducible assumption
    | with_reducible apply leads_inDom
    | with_reducible apply opFetch_leads
    | with_reducible apply request_leads
    | (intro _ _; intro)
    | intro _ _
    | intro _
    | dsimp only
    | split

theorem execChallenge_leads (t : Nat) (h : MHead) (body : List Byte) (s : State) :
    ∃ s', execChallenge t h body s = .next s' ∧ (s.advance t).Leads s' := by
  refine ⟨_, rfl, ?_⟩
  have h₀ := State.Leads.refl (s.advance t)
  revert h₀
  generalize s.advance t = a₀
  intro h₀
  repeat' first
    | with_reducible exact h₀
    | with_reducible assumption
    | with_reducible apply opChallenge_leads
    | with_reducible apply request_leads
    | (intro _ _; intro)

theorem execResponse_leads (t : Nat) (h : MHead) (body : List Byte) (s : State) :
    ∃ s', execResponse t h body s = .next s' ∧ (s.advance t).Leads s' := by
  refine ⟨_, rfl, ?_⟩
  have h₀ := State.Leads.refl (s.advance t)
  revert h₀
  generalize s.advance t = a₀
  intro h₀
  repeat' first
    | with_reducible exact h₀
    | with_reducible assumption
    | with_reducible apply opResponse_leads
    | with_reducible apply request_leads
    | (intro _ _; intro)

theorem execI2cReplyRead_leads (t : Nat) (s : State) :
    ∃ s', execI2cReplyRead t s = .next s' ∧ (s.advance t).Leads s' := by
  refine ⟨_, rfl, ?_⟩
  have h₀ := State.Leads.refl (s.advance t)
  revert h₀
  generalize s.advance t = a₀
  intro h₀
  repeat' first
    | with_reducible exact h₀
    | with_reducible assumption
    | with_reducible apply leads_inDom
    | with_reducible apply setMgmt_leads
    | intro _ _

theorem execLogEntry_leads (t : Nat) (code : Fin 65536) (inst : Fin 65536) (data : List DItem) (fails : Fin 3) (s : State) :
    ∃ s', execLogEntry t code inst data fails s = .next s' ∧ (s.advance t).Leads s' := by
  refine ⟨_, rfl, ?_⟩
  have h₀ := State.Leads.refl (s.advance t)
  revert h₀
  generalize s.advance t = a₀
  intro h₀
  repeat' first
    | with_reducible exact h₀
    | with_reducible apply setLog_leads
    | with_reducible apply event_leads
    | split

theorem execLogSeqRestored_leads (t : Nat) (s : State) :
    ∃ s', execLogSeqRestored t s = .next s' ∧ (s.advance t).Leads s' := by
  refine ⟨_, rfl, ?_⟩
  have h₀ := State.Leads.refl (s.advance t)
  revert h₀
  generalize s.advance t = a₀
  intro h₀
  repeat' first
    | with_reducible exact h₀
    | with_reducible apply takeLog_leads
    | with_reducible apply event_leads
    | with_reducible apply freeStep_leads
    | with_reducible apply logCopy_leads
    | split
    | dsimp only

theorem execLogRetest_leads (t : Nat) (n : SessIx) (s : State) :
    ∃ s', execLogRetest t n s = .next s' ∧ (s.advance t).Leads s' := by
  refine ⟨_, rfl, ?_⟩
  have h₀ := State.Leads.refl (s.advance t)
  revert h₀
  generalize s.advance t = a₀
  intro h₀
  repeat' first
    | with_reducible exact h₀
    | with_reducible assumption
    | with_reducible apply logCmd_leads
    | with_reducible apply access_leads
    | intro _ _

theorem execLogRetestDone_leads (t : Nat) (bad : List Nat) (s : State) :
    ∃ s', execLogRetestDone t bad s = .next s' ∧ (s.advance t).Leads s' := by
  refine ⟨_, rfl, ?_⟩
  have h₀ := State.Leads.refl (s.advance t)
  revert h₀
  generalize s.advance t = a₀
  intro h₀
  repeat' first
    | with_reducible exact h₀
    | with_reducible assumption
    | with_reducible apply leads_inDom
    | with_reducible apply setLog_leads
    | with_reducible apply event_leads
    | with_reducible apply logCopy_leads
    | with_reducible apply takeLog_leads
    | intro _ _
    | dsimp only
    | split

theorem execGrindScrub_leads (t : Nat) (m : Fin 3) (corr : Nat) (lanes : List (Nat × Nat)) (unc : List (GrindHit × Nat)) (s : State) :
    ∃ s', execGrindScrub t m corr lanes unc s = .next s' ∧ (s.advance t).Leads s' := by
  refine ⟨_, rfl, ?_⟩
  have h₀ := State.Leads.refl (s.advance t)
  revert h₀
  generalize s.advance t = a₀
  intro h₀
  repeat' first
    | with_reducible exact h₀
    | with_reducible assumption
    | with_reducible apply leads_inDom
    | with_reducible apply setLog_leads
    | with_reducible apply countWrap_leads
    | with_reducible apply count_leads
    | with_reducible apply event_leads
    | with_reducible apply laneCorr_leads
    | with_reducible apply grindHit_leads
    | with_reducible apply leads_foldl
    | (intro _ _; intro)
    | intro _ _
    | dsimp only
    | split

theorem execSfpInsert_leads (t : Nat) (c : Fin 20) (rateOk : Bool) (readMs : Nat) (s : State) :
    ∃ s', execSfpInsert t c rateOk readMs s = .next s' ∧ (s.advance t).Leads s' := by
  refine ⟨_, rfl, ?_⟩
  have h₀ := State.Leads.refl (s.advance t)
  revert h₀
  generalize s.advance t = a₀
  intro h₀
  repeat' first
    | with_reducible exact h₀
    | with_reducible apply setCage_leads

theorem execSfpRemove_leads (t : Nat) (c : Fin 20) (s : State) :
    ∃ s', execSfpRemove t c s = .next s' ∧ (s.advance t).Leads s' := by
  refine ⟨_, rfl, ?_⟩
  have h₀ := State.Leads.refl (s.advance t)
  revert h₀
  generalize s.advance t = a₀
  intro h₀
  repeat' first
    | with_reducible exact h₀
    | with_reducible apply setCage_leads
    | with_reducible apply cageLost_leads

theorem execSfpOvercurrent_leads (t : Nat) (c : Fin 20) (mA : Nat) (s : State) :
    ∃ s', execSfpOvercurrent t c mA s = .next s' ∧ (s.advance t).Leads s' := by
  refine ⟨_, rfl, ?_⟩
  have h₀ := State.Leads.refl (s.advance t)
  revert h₀
  generalize s.advance t = a₀
  intro h₀
  repeat' first
    | with_reducible exact h₀
    | with_reducible apply setCage_leads
    | with_reducible apply cageLost_leads
    | split
    | dsimp only

theorem execCmpOutputInactive_leads (t : Nat) (x : CmpLevel) (s : State) :
    ∃ s', execCmpOutputInactive t x s = .next s' ∧ (s.advance t).Leads s' := by
  refine ⟨_, rfl, ?_⟩
  have h₀ := State.Leads.refl (s.advance t)
  revert h₀
  generalize s.advance t = a₀
  intro h₀
  repeat' first
    | with_reducible exact h₀
    | with_reducible assumption
    | with_reducible apply leads_inDom
    | with_reducible apply cmpOut_leads
    | (intro _ _; intro)
    | intro _ _
    | intro _
    | dsimp only
    | split

theorem execLegUpdatePoint_leads (t : Nat) (l : LegIx) (s : State) :
    ∃ s', execLegUpdatePoint t l s = .next s' ∧ (s.advance t).Leads s' := by
  refine ⟨_, rfl, ?_⟩
  have h₀ := State.Leads.refl (s.advance t)
  revert h₀
  generalize s.advance t = a₀
  intro h₀
  repeat' first
    | with_reducible exact h₀
    | with_reducible assumption
    | with_reducible apply leads_inDom
    | with_reducible apply setLegX_leads
    | with_reducible apply legUnlatch_leads
    | with_reducible apply putSat_leads
    | with_reducible apply legClear_leads
    | intro _ _
    | split
    | dsimp only

theorem execRingDisable_leads (t : Nat) (n : SessIx) (r : RingIx) (s : State) :
    ∃ s', execRingDisable t n r s = .next s' ∧ (s.advance t).Leads s' := by
  refine ⟨_, rfl, ?_⟩
  have h₀ := State.Leads.refl (s.advance t)
  revert h₀
  generalize s.advance t = a₀
  intro h₀
  repeat' first
    | with_reducible exact h₀
    | with_reducible assumption
    | with_reducible apply ringCtrlWrite_leads
    | with_reducible apply access_leads
    | intro _ _

theorem execDlyReqSend_leads (t : Nat) (r : RingIx) (portB : Bool) (s : State) :
    ∃ s', execDlyReqSend t r portB s = .next s' ∧ (s.advance t).Leads s' := by
  refine ⟨_, rfl, ?_⟩
  have h₀ := State.Leads.refl (s.advance t)
  revert h₀
  generalize s.advance t = a₀
  intro h₀
  repeat' first
    | with_reducible exact h₀
    | with_reducible assumption
    | with_reducible apply leads_inDom
    | with_reducible apply setRing_leads
    | intro _ _
    | split
    | dsimp only

theorem execHarvSourceChange_leads (t : Nat) (ok : Bool) (s : State) :
    ∃ s', execHarvSourceChange t ok s = .next s' ∧ (s.advance t).Leads s' := by
  refine ⟨_, rfl, ?_⟩
  have h₀ := State.Leads.refl (s.advance t)
  revert h₀
  generalize s.advance t = a₀
  intro h₀
  repeat' first
    | with_reducible exact h₀
    | with_reducible apply putB_leads
    | with_reducible apply cremaSrc_leads
    | with_reducible apply cellSource_leads

end Sys2Proof.Machine
end

