-- ==== Sys2Proof/Laws/Exec.lean ====
section
/-! SUPPORT. Every command answers a next state, and what it keeps: said once for all of them. -/

namespace Sys2Proof.Machine

/-- What a command can do to the instant, the queue, the free values taken and the form of the register file. -/
theorem exec_leads (i : Instr) (s : State) : ∃ s', exec i s = .next s' ∧ (s.advance i.instant).Leads s' :=
  match i with
  | .registerWrite t n addr value mask e => execRegisterWrite_leads t n addr value mask e s
  | .pairLoRead t n addr => execPairLoRead_leads t n addr s
  | .pairHiRead t n addr => execPairHiRead_leads t n addr s
  | .pairLoWrite t n addr value mask => execPairLoWrite_leads t n addr value mask s
  | .pairHiWrite t n addr value mask => execPairHiWrite_leads t n addr value mask s
  | .timeNowFracRead t n => execTimeNowFracRead_leads t n s
  | .cycleStart t => execCycleStart_leads t s
  | .inputFreeze t rep => execInputFreeze_leads t rep s
  | .scheduleLaunch t => execScheduleLaunch_leads t s
  | .refSelWrite t n value mask step => execRefSelWrite_leads t n value mask step s
  | .refLost t gapNs ppb step => execRefLost_leads t gapNs ppb step s
  | .refSwitch t goodFor step => execRefSwitch_leads t goodFor step s
  | .mdllLocked t second cycles => execMdllLocked_leads t second cycles s
  | .mdllTakeover t step => execMdllTakeover_leads t step s
  | .suspensionEnd t held => execSuspensionEnd_leads t held s
  | .mdllRetry t good => execMdllRetry_leads t good s
  | .mdllStandbyFault t => execMdllStandbyFault_leads t s
  | .clkoutCfgWrite t n k value mask => execClkoutCfgWrite_leads t n k value mask s
  | .ptpAnnounce t port a => execPtpAnnounce_leads t port a s
  | .ptpSync t port origin freq => execPtpSync_leads t port origin freq s
  | .ptpPdelay t port rtt resp => execPtpPdelay_leads t port rtt resp s
  | .ptpMasterLost t lan => execPtpMasterLost_leads t lan s
  | .ptpLanSwitch t => execPtpLanSwitch_leads t s
  | .ptpHoldoverExpired t => execPtpHoldoverExpired_leads t s
  | .ppsEdge t => execPpsEdge_leads t s
  | .leapApplied t => execLeapApplied_leads t s
  | .timeUtcWrite t n value mask => execTimeUtcWrite_leads t n value mask s
  | .rtcRealign t => execRtcRealign_leads t s
  | .calRange t => execCalRange_leads t s
  | .rtcCalDateRead t n => execRtcCalDateRead_leads t n s
  | .rtcCalDateWrite t n value mask => execRtcCalDateWrite_leads t n value mask s
  | .rtcCalTimeWrite t n value mask => execRtcCalTimeWrite_leads t n value mask s
  | .wakeFromRtc t tick => execWakeFromRtc_leads t tick s
  | .cremaStart t lost => execCremaStart_leads t lost s
  | .telemetryFrameRx t r portB aborted bytes => execTelemetryFrameRx_leads t r portB aborted bytes s
  | .mbxReply t r => execMbxReply_leads t r s
  | .mbxLeaseExpired t r => execMbxLeaseExpired_leads t r s
  | .haltRepeat t r => execHaltRepeat_leads t r s
  | .dlyReqRx t r portB turn => execDlyReqRx_leads t r portB turn s
  | .dlyRspRx t r h rtt turn => execDlyRspRx_leads t r h rtt turn s
  | .alignFault t k => execAlignFault_leads t k s
  | .ringEnable t n r => execRingEnable_leads t n r s
  | .ringRediscover t n r => execRingRediscover_leads t n r s
  | .discoveryRetry t r => execDiscoveryRetry_leads t r s
  | .linkBlockLock t r portB peerV2 => execLinkBlockLock_leads t r portB peerV2 s
  | .discoverFrameRx t r portB bytes => execDiscoverFrameRx_leads t r portB bytes s
  | .ringUp t r aligned => execRingUp_leads t r aligned s
  | .linkDown t r h lostLock silentNs => execLinkDown_leads t r h lostLock silentNs s
  | .linkDegraded t r h errors => execLinkDegraded_leads t r h errors s
  | .ringLost t r => execRingLost_leads t r s
  | .ringHealed t r h m => execRingHealed_leads t r h m s
  | .cellDiagTimeout t k => execCellDiagTimeout_leads t k s
  | .cellDiagRetry t k => execCellDiagRetry_leads t k s
  | .cellLowVdcRecheck t k => execCellLowVdcRecheck_leads t k s
  | .cellUnreachable t k => execCellUnreachable_leads t k s
  | .cellStaleFault t k => execCellStaleFault_leads t k s
  | .pwmTripLatch t k => execPwmTripLatch_leads t k s
  | .cellOvertempBypass t k => execCellOvertempBypass_leads t k s
  | .cellAutoReturn t k => execCellAutoReturn_leads t k s
  | .cellRepeatFault t k => execCellRepeatFault_leads t k s
  | .cellRampEnd t k => execCellRampEnd_leads t k s
  | .cellBypassTimeout t k => execCellBypassTimeout_leads t k s
  | .faultBypassTimeout t k => execFaultBypassTimeout_leads t k s
  | .cellReturnOpen t k => execCellReturnOpen_leads t k s
  | .cellReturnTimeout t k => execCellReturnTimeout_leads t k s
  | .cellCmdNone t n k expect => execCellCmdNone_leads t n k expect s
  | .cellDiagnose t n k expect => execCellDiagnose_leads t n k expect s
  | .cellBypass t n k expect => execCellBypass_leads t n k expect s
  | .cellReturn t n k expect => execCellReturn_leads t n k expect s
  | .cellRetire t n k expect => execCellRetire_leads t n k expect s
  | .cellUnretire t n k expect => execCellUnretire_leads t n k expect s
  | .cellClearFault t n k expect => execCellClearFault_leads t n k expect s
  | .cellLockout t n k expect => execCellLockout_leads t n k expect s
  | .cellRelease t n k expect => execCellRelease_leads t n k expect s
  | .cellTlmRead t n k => execCellTlmRead_leads t n k s
  | .pwmTransitionEnd t c => execPwmTransitionEnd_leads t c s
  | .pwmCntClear t n => execPwmCntClear_leads t n s
  | .pwmLegLatch t l => execPwmLegLatch_leads t l s
  | .legLatchRelease t n l value mask => execLegLatchRelease_leads t n l value mask s
  | .dlyCal t e0 e1 e2 => execDlyCal_leads t e0 e1 e2 s
  | .svFrameRx t f => execSvFrameRx_leads t f s
  | .svSampleMissing t p => execSvSampleMissing_leads t p s
  | .svStreamLost t j => execSvStreamLost_leads t j s
  | .gridBlindEnd t p => execGridBlindEnd_leads t p s
  | .bsiSample t b xs => execBsiSample_leads t b xs s
  | .gridBsiUnfit t p => execGridBsiUnfit_leads t p s
  | .gridBsiFit t p => execGridBsiFit_leads t p s
  | .gridPhaseJump t p => execGridPhaseJump_leads t p s
  | .gridSeqReversed t p => execGridSeqReversed_leads t p s
  | .gridVoltageLost t p => execGridVoltageLost_leads t p s
  | .gridSettled t p => execGridSettled_leads t p s
  | .gridHoldExpired t p => execGridHoldExpired_leads t p s
  | .gridIarmLost t c ph => execGridIarmLost_leads t c ph s
  | .gridIarmDisagree t k => execGridIarmDisagree_leads t k s
  | .mpptStep t k => execMpptStep_leads t k s
  | .mpptShadeQueue t k => execMpptShadeQueue_leads t k s
  | .mpptScanDue t k => execMpptScanDue_leads t k s
  | .mpptScanPoint t k => execMpptScanPoint_leads t k s
  | .mpptScanDone t k => execMpptScanDone_leads t k s
  | .mpptCapInstant t c => execMpptCapInstant_leads t c s
  | .mpptVocSet t k => execMpptVocSet_leads t k s
  | .mpptVocDefault t k => execMpptVocDefault_leads t k s
  | .mpptDark t k => execMpptDark_leads t k s
  | .mpptDarkClear t k => execMpptDarkClear_leads t k s
  | .mpptCmdNone t n k => execMpptCmdNone_leads t n k s
  | .scanCell t n k => execScanCell_leads t n k s
  | .scanCluster t n k => execScanCluster_leads t n k s
  | .cancelScan t n k => execCancelScan_leads t n k s
  | .frtEvaluation t c => execFrtEvaluation_leads t c s
  | .frtFastScan t c => execFrtFastScan_leads t c s
  | .frtCmdNone t n c => execFrtCmdNone_leads t n c s
  | .frtCmdStart t n c => execFrtCmdStart_leads t n c s
  | .frtCmdStop t n c => execFrtCmdStop_leads t n c s
  | .frtCmdReset t n c => execFrtCmdReset_leads t n c s
  | .frtCmdExpired t c => execFrtCmdExpired_leads t c s
  | .islPassive t => execIslPassive_leads t s
  | .islPassiveClear t => execIslPassiveClear_leads t s
  | .islChip t => execIslChip_leads t s
  | .islEstimate t => execIslEstimate_leads t s
  | .pbLinkDown t port los => execPbLinkDown_leads t port los s
  | .pbLinkUp t port => execPbLinkUp_leads t port s
  | .pbLanLost t port => execPbLanLost_leads t port s
  | .pbHsrOpen t => execPbHsrOpen_leads t s
  | .gooseFrameRx t f => execGooseFrameRx_leads t f s
  | .gooseSubInvalid t g => execGooseSubInvalid_leads t g s
  | .goosePubRepeat t q => execGoosePubRepeat_leads t q s
  | .svPubFrame t q => execSvPubFrame_leads t q s
  | .mtrWindowEnd t m => execMtrWindowEnd_leads t m s
  | .mtrSeqWrong t m current => execMtrSeqWrong_leads t m current s
  | .mtrNMissing t m => execMtrNMissing_leads t m s
  | .mtrIntervalClose t => execMtrIntervalClose_leads t s
  | .mtrAccSave t => execMtrAccSave_leads t s
  | .laneExcluded t l ecc memory => execLaneExcluded_leads t l ecc memory s
  | .laneCeased t => execLaneCeased_leads t s
  | .laneAutoRestart t => execLaneAutoRestart_leads t s
  | .laneRestartDone t pass => execLaneRestartDone_leads t pass s
  | .laneRejoinStart t l => execLaneRejoinStart_leads t l s
  | .laneSelftestDone t l pass => execLaneSelftestDone_leads t l pass s
  | .laneLoadDone t l => execLaneLoadDone_leads t l s
  | .laneCopyRound t l dirty differ => execLaneCopyRound_leads t l dirty differ s
  | .laneSwitch t l => execLaneSwitch_leads t l s
  | .laneInService t l => execLaneInService_leads t l s
  | .laneRejoinFail t l => execLaneRejoinFail_leads t l s
  | .laneCmdNone t n l => execLaneCmdNone_leads t n l s
  | .laneExclude t n l => execLaneExclude_leads t n l s
  | .laneRejoin t n l => execLaneRejoin_leads t n l s
  | .laneRestart t n l => execLaneRestart_leads t n l s
  | .voterFault t v => execVoterFault_leads t v s
  | .mergeFault t r portB => execMergeFault_leads t r portB s
  | .pourBegin t n point zc req chain => execPourBegin_leads t n point zc req chain s
  | .pourAdd t n addr value mask => execPourAdd_leads t n addr value mask s
  | .pourCommit t n => execPourCommit_leads t n s
  | .pourAbort t n id => execPourAbort_leads t n id s
  | .pourCheck t => execPourCheck_leads t s
  | .pourTokenGrant t => execPourTokenGrant_leads t s
  | .pourCommitted t => execPourCommitted_leads t s
  | .pourTokenExpired t => execPourTokenExpired_leads t s
  | .pourTakeEffect t e => execPourTakeEffect_leads t e s
  | .pourEffective t => execPourEffective_leads t s
  | .recRecordAdmit t m time payload => execRecRecordAdmit_leads t m time payload s
  | .recFlushTimer t => execRecFlushTimer_leads t s
  | .nvmeCompletion t id ok status => execNvmeCompletion_leads t id ok status s
  | .driveCmdLeaseExpired t id => execDriveCmdLeaseExpired_leads t id s
  | .driveUnresponsive t d => execDriveUnresponsive_leads t d s
  | .driveIdentify t d ident => execDriveIdentify_leads t d ident s
  | .recCheckpoint t => execRecCheckpoint_leads t s
  | .recCapEnd t => execRecCapEnd_leads t s
  | .recCapSoftTrigger t n => execRecCapSoftTrigger_leads t n s
  | .recSmartPoll t d pct crit temp => execRecSmartPoll_leads t d pct crit temp s
  | .recCmdNone t n d => execRecCmdNone_leads t n d s
  | .recSync t n d => execRecSync_leads t n d s
  | .recFormat t n d => execRecFormat_leads t n d s
  | .recAdopt t n d => execRecAdopt_leads t n d s
  | .recRemove t n d => execRecRemove_leads t n d s
  | .recAdd t n d => execRecAdd_leads t n d s
  | .recMounted t => execRecMounted_leads t s
  | .recStatusRead t n => execRecStatusRead_leads t n s
  | .wearModelUpdate t mismatch => execWearModelUpdate_leads t mismatch s
  | .wearCapEstimate t k => execWearCapEstimate_leads t k s
  | .wearDaily t tcxo rtc => execWearDaily_leads t tcxo rtc s
  | .wearEvaluation t => execWearEvaluation_leads t s
  | .wearRecordFail t k => execWearRecordFail_leads t k s
  | .wearFaultClear t n value mask => execWearFaultClear_leads t n value mask s
  | .wearRfSelect t n value mask => execWearRfSelect_leads t n value mask s
  | .safeSelftestDone t pass => execSafeSelftestDone_leads t pass s
  | .safeInputFiltered t inp level => execSafeInputFiltered_leads t inp level s
  | .safeEvaluation t differ oscOff backA backB => execSafeEvaluation_leads t differ oscOff backA backB s
  | .safeDiscrepancy t pair => execSafeDiscrepancy_leads t pair s
  | .safeTestPulse t which short => execSafeTestPulse_leads t which short s
  | .safeOutputPulse t darkA darkB => execSafeOutputPulse_leads t darkA darkB s
  | .safeResetPulse t => execSafeResetPulse_leads t s
  | .safeResetStuck t => execSafeResetStuck_leads t s
  | .safeTokenIssue t => execSafeTokenIssue_leads t s
  | .safeConnLost t c => execSafeConnLost_leads t c s
  | .safeConnRecover t c => execSafeConnRecover_leads t c s
  | .safePduIssue t q => execSafePduIssue_leads t q s
  | .cmpTrip t x => execCmpTrip_leads t x s
  | .cmpFilterActive t c active => execCmpFilterActive_leads t c active s
  | .cmpTick t c v => execCmpTick_leads t c v s
  | .cmpSettled t c v => execCmpSettled_leads t c v s
  | .cmpTripClear t n c value mask => execCmpTripClear_leads t n c value mask s
  | .cmpPeriodClear t c => execCmpPeriodClear_leads t c s
  | .bsiStopped t b => execBsiStopped_leads t b s
  | .bsiOverrange t b => execBsiOverrange_leads t b s
  | .iadcRoundStart t => execIadcRoundStart_leads t s
  | .iadcConversionDone t value => execIadcConversionDone_leads t value s
  | .iadcHousekeeping t => execIadcHousekeeping_leads t s
  | .iadcQLoRead t n => execIadcQLoRead_leads t n s
  | .iadcQHiRead t n => execIadcQHiRead_leads t n s
  | .iadcPeekLoRead t n => execIadcPeekLoRead_leads t n s
  | .iadcPeekHiRead t n => execIadcPeekHiRead_leads t n s
  | .legEnable t n l => execLegEnable_leads t n l s
  | .legDiagResult t l v0 v1 => execLegDiagResult_leads t l v0 v1 s
  | .legDisable t n l => execLegDisable_leads t n l s
  | .legEnFall t l => execLegEnFall_leads t l s
  | .pwrReqOff t n d => execPwrReqOff_leads t n d s
  | .pwrReqRetention t n d => execPwrReqRetention_leads t n d s
  | .pwrReqOn t n d => execPwrReqOn_leads t n d s
  | .pwrPrepared t d => execPwrPrepared_leads t d s
  | .domainRestoreStep t => execDomainRestoreStep_leads t s
  | .i2cAddressMatch t addr => execI2cAddressMatch_leads t addr s
  | .pwrStretchLimit t => execPwrStretchLimit_leads t s
  | .pwrSupplyLost t b => execPwrSupplyLost_leads t b s
  | .pwrSupplyRestored t b straps => execPwrSupplyRestored_leads t b straps s
  | .cremaTamperCheck t open_ => execCremaTamperCheck_leads t open_ s
  | .cremaChargeDone t uAh => execCremaChargeDone_leads t uAh s
  | .cremaChgTemp t ok vcell vharv iharv => execCremaChgTemp_leads t ok vcell vharv iharv s
  | .cremaCellCutoff t => execCremaCellCutoff_leads t s
  | .cremaCapTest t => execCremaCapTest_leads t s
  | .cremaCapTestEnd t => execCremaCapTestEnd_leads t s
  | .thmUpdate t p => execThmUpdate_leads t p s
  | .thmRestart t d => execThmRestart_leads t d s
  | .thmCpStale t => execThmCpStale_leads t s
  | .thmPeakRead t n d => execThmPeakRead_leads t n d s
  | .nresetAssert t => execNresetAssert_leads t s
  | .nresetRelease t straps => execNresetRelease_leads t straps s
  | .cfgImageReadDone t img => execCfgImageReadDone_leads t img s
  | .cfgLoadDone t => execCfgLoadDone_leads t s
  | .cfgReady t => execCfgReady_leads t s
  | .cfgCmdNone t n => execCfgCmdNone_leads t n s
  | .cfgActivate t n img => execCfgActivate_leads t n img s
  | .cfgConfirm t n => execCfgConfirm_leads t n s
  | .cfgVerify t n slot img => execCfgVerify_leads t n slot img s
  | .cfgReload t n => execCfgReload_leads t n s
  | .cfgFwSwitch t n => execCfgFwSwitch_leads t n s
  | .cfgRestart t n => execCfgRestart_leads t n s
  | .xspiReadFrame t n ok data => execXspiReadFrame_leads t n ok data s
  | .xspiWriteFrame t n ok => execXspiWriteFrame_leads t n ok s
  | .xspiFault t dev addr => execXspiFault_leads t dev addr s
  | .mgmtStart t valid ver => execMgmtStart_leads t valid ver s
  | .accLockClose t n => execAccLockClose_leads t n s
  | .accOpenerExpired t => execAccOpenerExpired_leads t s
  | .accAuthUnblock t => execAccAuthUnblock_leads t s
  | .accKeyDataWrite t n w value mask => execAccKeyDataWrite_leads t n w value mask s
  | .accKeyProgram t n k => execAccKeyProgram_leads t n k s
  | .accKeyDataClear t => execAccKeyDataClear_leads t s
  | .mgmtFrameBad t i2c bytes => execMgmtFrameBad_leads t i2c bytes s
  | .mgmtOpen t h body => execMgmtOpen_leads t h body s
  | .mgmtClose t h => execMgmtClose_leads t h s
  | .mgmtSessionIdle t n => execMgmtSessionIdle_leads t n s
  | .mgmtRead t h body => execMgmtRead_leads t h body s
  | .mgmtWrite t h body e => execMgmtWrite_leads t h body e s
  | .readBlock t h body => execReadBlock_leads t h body s
  | .eventFetch t h body => execEventFetch_leads t h body s
  | .recordQuery t h body => execRecordQuery_leads t h body s
  | .recordFetch t h body e => execRecordFetch_leads t h body e s
  | .challenge t h body => execChallenge_leads t h body s
  | .response t h body => execResponse_leads t h body s
  | .i2cReplyRead t => execI2cReplyRead_leads t s
  | .logEntry t code inst data fails => execLogEntry_leads t code inst data fails s
  | .logSeqRestored t => execLogSeqRestored_leads t s
  | .logRetest t n => execLogRetest_leads t n s
  | .logRetestDone t bad => execLogRetestDone_leads t bad s
  | .grindScrub t m corr lanes unc => execGrindScrub_leads t m corr lanes unc s
  | .sfpInsert t c rateOk readMs => execSfpInsert_leads t c rateOk readMs s
  | .sfpRemove t c => execSfpRemove_leads t c s
  | .sfpOvercurrent t c mA => execSfpOvercurrent_leads t c mA s
  | .cmpOutputInactive t x => execCmpOutputInactive_leads t x s
  | .legUpdatePoint t l => execLegUpdatePoint_leads t l s
  | .ringDisable t n r => execRingDisable_leads t n r s
  | .dlyReqSend t r portB => execDlyReqSend_leads t r portB s
  | .harvSourceChange t ok => execHarvSourceChange_leads t ok s

end Sys2Proof.Machine
end

