-- ==== Sys2Proof/Laws/State.lean ====
section
/-! SUPPORT. Every update of the state, field by field: what it leaves alone, and what a register reads after it. -/

namespace Sys2Proof.Machine

/-! ### advance -/

@[simp] theorem State.advance_regs (s : State) (t : Nat) : (s.advance t).regs = s.regs := rfl
@[simp] theorem State.advance_free (s : State) (t : Nat) : (s.advance t).free = s.free := rfl
@[simp] theorem State.advance_mgmt (s : State) (t : Nat) : (s.advance t).mgmt = s.mgmt := rfl
@[simp] theorem State.advance_log (s : State) (t : Nat) : (s.advance t).log = s.log := rfl
@[simp] theorem State.advance_pwr (s : State) (t : Nat) : (s.advance t).pwr = s.pwr := rfl
@[simp] theorem State.advance_start (s : State) (t : Nat) : (s.advance t).start = s.start := rfl
@[simp] theorem State.advance_link (s : State) (t : Nat) : (s.advance t).link = s.link := rfl
@[simp] theorem State.advance_cells (s : State) (t : Nat) : (s.advance t).cells = s.cells := rfl
@[simp] theorem State.advance_eng (s : State) (t : Nat) : (s.advance t).eng = s.eng := rfl
@[simp] theorem State.advance_grid (s : State) (t : Nat) : (s.advance t).grid = s.grid := rfl
@[simp] theorem State.advance_mppt (s : State) (t : Nat) : (s.advance t).mppt = s.mppt := rfl
@[simp] theorem State.advance_frt (s : State) (t : Nat) : (s.advance t).frt = s.frt := rfl
@[simp] theorem State.advance_bus (s : State) (t : Nat) : (s.advance t).bus = s.bus := rfl
@[simp] theorem State.advance_mtr (s : State) (t : Nat) : (s.advance t).mtr = s.mtr := rfl
@[simp] theorem State.advance_lanes (s : State) (t : Nat) : (s.advance t).lanes = s.lanes := rfl
@[simp] theorem State.advance_carafe (s : State) (t : Nat) : (s.advance t).carafe = s.carafe := rfl
@[simp] theorem State.advance_wear (s : State) (t : Nat) : (s.advance t).wear = s.wear := rfl
@[simp] theorem State.advance_safe (s : State) (t : Nat) : (s.advance t).safe = s.safe := rfl
@[simp] theorem State.advance_ana (s : State) (t : Nat) : (s.advance t).ana = s.ana := rfl
@[simp] theorem State.advance_pour (s : State) (t : Nat) : (s.advance t).pour = s.pour := rfl
@[simp] theorem State.advance_pins (s : State) (t : Nat) : (s.advance t).pins = s.pins := rfl
@[simp] theorem State.advance_capAsk (s : State) (t : Nat) : (s.advance t).capAsk = s.capAsk := rfl
@[simp] theorem State.advance_pending (s : State) (t : Nat) : (s.advance t).pending = s.pending := rfl
@[simp] theorem State.advance_word (s : State) (t : Nat) (r : Reg) : (s.advance t).word r = s.word r := rfl
@[simp] theorem State.advance_get (s : State) (t : Nat) (f : Fld) : (s.advance t).get f = s.get f := rfl
@[simp] theorem State.advance_getS (s : State) (t : Nat) (f : Fld) : (s.advance t).getS f = s.getS f := rfl
@[simp] theorem State.advance_flag (s : State) (t : Nat) (f : Fld) : (s.advance t).flag f = s.flag f := rfl
@[simp] theorem State.advance_get64 (s : State) (t : Nat) (lo hi : Reg) : (s.advance t).get64 lo hi = s.get64 lo hi := rfl
@[simp] theorem State.advance_domState (s : State) (t : Nat) (d : Nat) : (s.advance t).domState d = s.domState d := rfl
@[simp] theorem State.advance_isOn (s : State) (t : Nat) (d : Nat) : (s.advance t).isOn d = s.isOn d := rfl
@[simp] theorem State.advance_works (s : State) (t : Nat) (d : Nat) : (s.advance t).works d = s.works d := rfl
@[simp] theorem State.advance_sess (s : State) (t : Nat) (n : Nat) : (s.advance t).sess n = s.sess n := rfl
@[simp] theorem State.advance_ring (s : State) (t : Nat) (n : Nat) : (s.advance t).ring n = s.ring n := rfl
@[simp] theorem State.advance_cellState (s : State) (t : Nat) (k : Nat) : (s.advance t).cellState k = s.cellState k := rfl

/-! ### setWord -/

@[simp] theorem State.setWord_now (s : State) (r : Reg) (w : Word) : (s.setWord r w).now = s.now := rfl
@[simp] theorem State.setWord_free (s : State) (r : Reg) (w : Word) : (s.setWord r w).free = s.free := rfl
@[simp] theorem State.setWord_clk (s : State) (r : Reg) (w : Word) : (s.setWord r w).clk = s.clk := rfl
@[simp] theorem State.setWord_mgmt (s : State) (r : Reg) (w : Word) : (s.setWord r w).mgmt = s.mgmt := rfl
@[simp] theorem State.setWord_log (s : State) (r : Reg) (w : Word) : (s.setWord r w).log = s.log := rfl
@[simp] theorem State.setWord_pwr (s : State) (r : Reg) (w : Word) : (s.setWord r w).pwr = s.pwr := rfl
@[simp] theorem State.setWord_start (s : State) (r : Reg) (w : Word) : (s.setWord r w).start = s.start := rfl
@[simp] theorem State.setWord_link (s : State) (r : Reg) (w : Word) : (s.setWord r w).link = s.link := rfl
@[simp] theorem State.setWord_cells (s : State) (r : Reg) (w : Word) : (s.setWord r w).cells = s.cells := rfl
@[simp] theorem State.setWord_eng (s : State) (r : Reg) (w : Word) : (s.setWord r w).eng = s.eng := rfl
@[simp] theorem State.setWord_grid (s : State) (r : Reg) (w : Word) : (s.setWord r w).grid = s.grid := rfl
@[simp] theorem State.setWord_mppt (s : State) (r : Reg) (w : Word) : (s.setWord r w).mppt = s.mppt := rfl
@[simp] theorem State.setWord_frt (s : State) (r : Reg) (w : Word) : (s.setWord r w).frt = s.frt := rfl
@[simp] theorem State.setWord_bus (s : State) (r : Reg) (w : Word) : (s.setWord r w).bus = s.bus := rfl
@[simp] theorem State.setWord_mtr (s : State) (r : Reg) (w : Word) : (s.setWord r w).mtr = s.mtr := rfl
@[simp] theorem State.setWord_lanes (s : State) (r : Reg) (w : Word) : (s.setWord r w).lanes = s.lanes := rfl
@[simp] theorem State.setWord_carafe (s : State) (r : Reg) (w : Word) : (s.setWord r w).carafe = s.carafe := rfl
@[simp] theorem State.setWord_wear (s : State) (r : Reg) (w : Word) : (s.setWord r w).wear = s.wear := rfl
@[simp] theorem State.setWord_safe (s : State) (r : Reg) (w : Word) : (s.setWord r w).safe = s.safe := rfl
@[simp] theorem State.setWord_ana (s : State) (r : Reg) (w : Word) : (s.setWord r w).ana = s.ana := rfl
@[simp] theorem State.setWord_pour (s : State) (r : Reg) (w : Word) : (s.setWord r w).pour = s.pour := rfl
@[simp] theorem State.setWord_pins (s : State) (r : Reg) (w : Word) : (s.setWord r w).pins = s.pins := rfl
@[simp] theorem State.setWord_capAsk (s : State) (r : Reg) (w : Word) : (s.setWord r w).capAsk = s.capAsk := rfl
@[simp] theorem State.setWord_pending (s : State) (r : Reg) (w : Word) : (s.setWord r w).pending = s.pending := rfl
@[simp] theorem State.setWord_sess (s : State) (r : Reg) (w : Word) (n : Nat) : (s.setWord r w).sess n = s.sess n := rfl
@[simp] theorem State.setWord_ring (s : State) (r : Reg) (w : Word) (n : Nat) : (s.setWord r w).ring n = s.ring n := rfl
@[simp] theorem State.setWord_mtUnits (s : State) (r : Reg) (w : Word) : (s.setWord r w).mtUnits = s.mtUnits := rfl
@[simp] theorem State.setWord_mtNs (s : State) (r : Reg) (w : Word) : (s.setWord r w).mtNs = s.mtNs := rfl

/-! ### put -/

@[simp] theorem State.put_now (s : State) (f : Fld) (v : Nat) : (s.put f v).now = s.now := rfl
@[simp] theorem State.put_free (s : State) (f : Fld) (v : Nat) : (s.put f v).free = s.free := rfl
@[simp] theorem State.put_clk (s : State) (f : Fld) (v : Nat) : (s.put f v).clk = s.clk := rfl
@[simp] theorem State.put_mgmt (s : State) (f : Fld) (v : Nat) : (s.put f v).mgmt = s.mgmt := rfl
@[simp] theorem State.put_log (s : State) (f : Fld) (v : Nat) : (s.put f v).log = s.log := rfl
@[simp] theorem State.put_pwr (s : State) (f : Fld) (v : Nat) : (s.put f v).pwr = s.pwr := rfl
@[simp] theorem State.put_start (s : State) (f : Fld) (v : Nat) : (s.put f v).start = s.start := rfl
@[simp] theorem State.put_link (s : State) (f : Fld) (v : Nat) : (s.put f v).link = s.link := rfl
@[simp] theorem State.put_cells (s : State) (f : Fld) (v : Nat) : (s.put f v).cells = s.cells := rfl
@[simp] theorem State.put_eng (s : State) (f : Fld) (v : Nat) : (s.put f v).eng = s.eng := rfl
@[simp] theorem State.put_grid (s : State) (f : Fld) (v : Nat) : (s.put f v).grid = s.grid := rfl
@[simp] theorem State.put_mppt (s : State) (f : Fld) (v : Nat) : (s.put f v).mppt = s.mppt := rfl
@[simp] theorem State.put_frt (s : State) (f : Fld) (v : Nat) : (s.put f v).frt = s.frt := rfl
@[simp] theorem State.put_bus (s : State) (f : Fld) (v : Nat) : (s.put f v).bus = s.bus := rfl
@[simp] theorem State.put_mtr (s : State) (f : Fld) (v : Nat) : (s.put f v).mtr = s.mtr := rfl
@[simp] theorem State.put_lanes (s : State) (f : Fld) (v : Nat) : (s.put f v).lanes = s.lanes := rfl
@[simp] theorem State.put_carafe (s : State) (f : Fld) (v : Nat) : (s.put f v).carafe = s.carafe := rfl
@[simp] theorem State.put_wear (s : State) (f : Fld) (v : Nat) : (s.put f v).wear = s.wear := rfl
@[simp] theorem State.put_safe (s : State) (f : Fld) (v : Nat) : (s.put f v).safe = s.safe := rfl
@[simp] theorem State.put_ana (s : State) (f : Fld) (v : Nat) : (s.put f v).ana = s.ana := rfl
@[simp] theorem State.put_pour (s : State) (f : Fld) (v : Nat) : (s.put f v).pour = s.pour := rfl
@[simp] theorem State.put_pins (s : State) (f : Fld) (v : Nat) : (s.put f v).pins = s.pins := rfl
@[simp] theorem State.put_capAsk (s : State) (f : Fld) (v : Nat) : (s.put f v).capAsk = s.capAsk := rfl
@[simp] theorem State.put_pending (s : State) (f : Fld) (v : Nat) : (s.put f v).pending = s.pending := rfl
@[simp] theorem State.put_sess (s : State) (f : Fld) (v : Nat) (n : Nat) : (s.put f v).sess n = s.sess n := rfl
@[simp] theorem State.put_ring (s : State) (f : Fld) (v : Nat) (n : Nat) : (s.put f v).ring n = s.ring n := rfl
@[simp] theorem State.put_mtUnits (s : State) (f : Fld) (v : Nat) : (s.put f v).mtUnits = s.mtUnits := rfl
@[simp] theorem State.put_mtNs (s : State) (f : Fld) (v : Nat) : (s.put f v).mtNs = s.mtNs := rfl

/-! ### putS -/

@[simp] theorem State.putS_now (s : State) (f : Fld) (x : Int) : (s.putS f x).now = s.now := rfl
@[simp] theorem State.putS_free (s : State) (f : Fld) (x : Int) : (s.putS f x).free = s.free := rfl
@[simp] theorem State.putS_clk (s : State) (f : Fld) (x : Int) : (s.putS f x).clk = s.clk := rfl
@[simp] theorem State.putS_mgmt (s : State) (f : Fld) (x : Int) : (s.putS f x).mgmt = s.mgmt := rfl
@[simp] theorem State.putS_log (s : State) (f : Fld) (x : Int) : (s.putS f x).log = s.log := rfl
@[simp] theorem State.putS_pwr (s : State) (f : Fld) (x : Int) : (s.putS f x).pwr = s.pwr := rfl
@[simp] theorem State.putS_start (s : State) (f : Fld) (x : Int) : (s.putS f x).start = s.start := rfl
@[simp] theorem State.putS_link (s : State) (f : Fld) (x : Int) : (s.putS f x).link = s.link := rfl
@[simp] theorem State.putS_cells (s : State) (f : Fld) (x : Int) : (s.putS f x).cells = s.cells := rfl
@[simp] theorem State.putS_eng (s : State) (f : Fld) (x : Int) : (s.putS f x).eng = s.eng := rfl
@[simp] theorem State.putS_grid (s : State) (f : Fld) (x : Int) : (s.putS f x).grid = s.grid := rfl
@[simp] theorem State.putS_mppt (s : State) (f : Fld) (x : Int) : (s.putS f x).mppt = s.mppt := rfl
@[simp] theorem State.putS_frt (s : State) (f : Fld) (x : Int) : (s.putS f x).frt = s.frt := rfl
@[simp] theorem State.putS_bus (s : State) (f : Fld) (x : Int) : (s.putS f x).bus = s.bus := rfl
@[simp] theorem State.putS_mtr (s : State) (f : Fld) (x : Int) : (s.putS f x).mtr = s.mtr := rfl
@[simp] theorem State.putS_lanes (s : State) (f : Fld) (x : Int) : (s.putS f x).lanes = s.lanes := rfl
@[simp] theorem State.putS_carafe (s : State) (f : Fld) (x : Int) : (s.putS f x).carafe = s.carafe := rfl
@[simp] theorem State.putS_wear (s : State) (f : Fld) (x : Int) : (s.putS f x).wear = s.wear := rfl
@[simp] theorem State.putS_safe (s : State) (f : Fld) (x : Int) : (s.putS f x).safe = s.safe := rfl
@[simp] theorem State.putS_ana (s : State) (f : Fld) (x : Int) : (s.putS f x).ana = s.ana := rfl
@[simp] theorem State.putS_pour (s : State) (f : Fld) (x : Int) : (s.putS f x).pour = s.pour := rfl
@[simp] theorem State.putS_pins (s : State) (f : Fld) (x : Int) : (s.putS f x).pins = s.pins := rfl
@[simp] theorem State.putS_capAsk (s : State) (f : Fld) (x : Int) : (s.putS f x).capAsk = s.capAsk := rfl
@[simp] theorem State.putS_pending (s : State) (f : Fld) (x : Int) : (s.putS f x).pending = s.pending := rfl
@[simp] theorem State.putS_sess (s : State) (f : Fld) (x : Int) (n : Nat) : (s.putS f x).sess n = s.sess n := rfl
@[simp] theorem State.putS_ring (s : State) (f : Fld) (x : Int) (n : Nat) : (s.putS f x).ring n = s.ring n := rfl
@[simp] theorem State.putS_mtUnits (s : State) (f : Fld) (x : Int) : (s.putS f x).mtUnits = s.mtUnits := rfl
@[simp] theorem State.putS_mtNs (s : State) (f : Fld) (x : Int) : (s.putS f x).mtNs = s.mtNs := rfl

/-! ### putSat -/

@[simp] theorem State.putSat_now (s : State) (f : Fld) (v : Nat) : (s.putSat f v).now = s.now := rfl
@[simp] theorem State.putSat_free (s : State) (f : Fld) (v : Nat) : (s.putSat f v).free = s.free := rfl
@[simp] theorem State.putSat_clk (s : State) (f : Fld) (v : Nat) : (s.putSat f v).clk = s.clk := rfl
@[simp] theorem State.putSat_mgmt (s : State) (f : Fld) (v : Nat) : (s.putSat f v).mgmt = s.mgmt := rfl
@[simp] theorem State.putSat_log (s : State) (f : Fld) (v : Nat) : (s.putSat f v).log = s.log := rfl
@[simp] theorem State.putSat_pwr (s : State) (f : Fld) (v : Nat) : (s.putSat f v).pwr = s.pwr := rfl
@[simp] theorem State.putSat_start (s : State) (f : Fld) (v : Nat) : (s.putSat f v).start = s.start := rfl
@[simp] theorem State.putSat_link (s : State) (f : Fld) (v : Nat) : (s.putSat f v).link = s.link := rfl
@[simp] theorem State.putSat_cells (s : State) (f : Fld) (v : Nat) : (s.putSat f v).cells = s.cells := rfl
@[simp] theorem State.putSat_eng (s : State) (f : Fld) (v : Nat) : (s.putSat f v).eng = s.eng := rfl
@[simp] theorem State.putSat_grid (s : State) (f : Fld) (v : Nat) : (s.putSat f v).grid = s.grid := rfl
@[simp] theorem State.putSat_mppt (s : State) (f : Fld) (v : Nat) : (s.putSat f v).mppt = s.mppt := rfl
@[simp] theorem State.putSat_frt (s : State) (f : Fld) (v : Nat) : (s.putSat f v).frt = s.frt := rfl
@[simp] theorem State.putSat_bus (s : State) (f : Fld) (v : Nat) : (s.putSat f v).bus = s.bus := rfl
@[simp] theorem State.putSat_mtr (s : State) (f : Fld) (v : Nat) : (s.putSat f v).mtr = s.mtr := rfl
@[simp] theorem State.putSat_lanes (s : State) (f : Fld) (v : Nat) : (s.putSat f v).lanes = s.lanes := rfl
@[simp] theorem State.putSat_carafe (s : State) (f : Fld) (v : Nat) : (s.putSat f v).carafe = s.carafe := rfl
@[simp] theorem State.putSat_wear (s : State) (f : Fld) (v : Nat) : (s.putSat f v).wear = s.wear := rfl
@[simp] theorem State.putSat_safe (s : State) (f : Fld) (v : Nat) : (s.putSat f v).safe = s.safe := rfl
@[simp] theorem State.putSat_ana (s : State) (f : Fld) (v : Nat) : (s.putSat f v).ana = s.ana := rfl
@[simp] theorem State.putSat_pour (s : State) (f : Fld) (v : Nat) : (s.putSat f v).pour = s.pour := rfl
@[simp] theorem State.putSat_pins (s : State) (f : Fld) (v : Nat) : (s.putSat f v).pins = s.pins := rfl
@[simp] theorem State.putSat_capAsk (s : State) (f : Fld) (v : Nat) : (s.putSat f v).capAsk = s.capAsk := rfl
@[simp] theorem State.putSat_pending (s : State) (f : Fld) (v : Nat) : (s.putSat f v).pending = s.pending := rfl
@[simp] theorem State.putSat_sess (s : State) (f : Fld) (v : Nat) (n : Nat) : (s.putSat f v).sess n = s.sess n := rfl
@[simp] theorem State.putSat_ring (s : State) (f : Fld) (v : Nat) (n : Nat) : (s.putSat f v).ring n = s.ring n := rfl
@[simp] theorem State.putSat_mtUnits (s : State) (f : Fld) (v : Nat) : (s.putSat f v).mtUnits = s.mtUnits := rfl
@[simp] theorem State.putSat_mtNs (s : State) (f : Fld) (v : Nat) : (s.putSat f v).mtNs = s.mtNs := rfl

/-! ### count -/

@[simp] theorem State.count_now (s : State) (f : Fld) (n : Nat) : (s.count f n).now = s.now := rfl
@[simp] theorem State.count_free (s : State) (f : Fld) (n : Nat) : (s.count f n).free = s.free := rfl
@[simp] theorem State.count_clk (s : State) (f : Fld) (n : Nat) : (s.count f n).clk = s.clk := rfl
@[simp] theorem State.count_mgmt (s : State) (f : Fld) (n : Nat) : (s.count f n).mgmt = s.mgmt := rfl
@[simp] theorem State.count_log (s : State) (f : Fld) (n : Nat) : (s.count f n).log = s.log := rfl
@[simp] theorem State.count_pwr (s : State) (f : Fld) (n : Nat) : (s.count f n).pwr = s.pwr := rfl
@[simp] theorem State.count_start (s : State) (f : Fld) (n : Nat) : (s.count f n).start = s.start := rfl
@[simp] theorem State.count_link (s : State) (f : Fld) (n : Nat) : (s.count f n).link = s.link := rfl
@[simp] theorem State.count_cells (s : State) (f : Fld) (n : Nat) : (s.count f n).cells = s.cells := rfl
@[simp] theorem State.count_eng (s : State) (f : Fld) (n : Nat) : (s.count f n).eng = s.eng := rfl
@[simp] theorem State.count_grid (s : State) (f : Fld) (n : Nat) : (s.count f n).grid = s.grid := rfl
@[simp] theorem State.count_mppt (s : State) (f : Fld) (n : Nat) : (s.count f n).mppt = s.mppt := rfl
@[simp] theorem State.count_frt (s : State) (f : Fld) (n : Nat) : (s.count f n).frt = s.frt := rfl
@[simp] theorem State.count_bus (s : State) (f : Fld) (n : Nat) : (s.count f n).bus = s.bus := rfl
@[simp] theorem State.count_mtr (s : State) (f : Fld) (n : Nat) : (s.count f n).mtr = s.mtr := rfl
@[simp] theorem State.count_lanes (s : State) (f : Fld) (n : Nat) : (s.count f n).lanes = s.lanes := rfl
@[simp] theorem State.count_carafe (s : State) (f : Fld) (n : Nat) : (s.count f n).carafe = s.carafe := rfl
@[simp] theorem State.count_wear (s : State) (f : Fld) (n : Nat) : (s.count f n).wear = s.wear := rfl
@[simp] theorem State.count_safe (s : State) (f : Fld) (n : Nat) : (s.count f n).safe = s.safe := rfl
@[simp] theorem State.count_ana (s : State) (f : Fld) (n : Nat) : (s.count f n).ana = s.ana := rfl
@[simp] theorem State.count_pour (s : State) (f : Fld) (n : Nat) : (s.count f n).pour = s.pour := rfl
@[simp] theorem State.count_pins (s : State) (f : Fld) (n : Nat) : (s.count f n).pins = s.pins := rfl
@[simp] theorem State.count_capAsk (s : State) (f : Fld) (n : Nat) : (s.count f n).capAsk = s.capAsk := rfl
@[simp] theorem State.count_pending (s : State) (f : Fld) (n : Nat) : (s.count f n).pending = s.pending := rfl
@[simp] theorem State.count_sess (s : State) (f : Fld) (n : Nat) (n' : Nat) : (s.count f n).sess n' = s.sess n' := rfl
@[simp] theorem State.count_ring (s : State) (f : Fld) (n : Nat) (n' : Nat) : (s.count f n).ring n' = s.ring n' := rfl
@[simp] theorem State.count_mtUnits (s : State) (f : Fld) (n : Nat) : (s.count f n).mtUnits = s.mtUnits := rfl
@[simp] theorem State.count_mtNs (s : State) (f : Fld) (n : Nat) : (s.count f n).mtNs = s.mtNs := rfl

/-! ### countWrap -/

@[simp] theorem State.countWrap_now (s : State) (f : Fld) : (s.countWrap f).now = s.now := rfl
@[simp] theorem State.countWrap_free (s : State) (f : Fld) : (s.countWrap f).free = s.free := rfl
@[simp] theorem State.countWrap_clk (s : State) (f : Fld) : (s.countWrap f).clk = s.clk := rfl
@[simp] theorem State.countWrap_mgmt (s : State) (f : Fld) : (s.countWrap f).mgmt = s.mgmt := rfl
@[simp] theorem State.countWrap_log (s : State) (f : Fld) : (s.countWrap f).log = s.log := rfl
@[simp] theorem State.countWrap_pwr (s : State) (f : Fld) : (s.countWrap f).pwr = s.pwr := rfl
@[simp] theorem State.countWrap_start (s : State) (f : Fld) : (s.countWrap f).start = s.start := rfl
@[simp] theorem State.countWrap_link (s : State) (f : Fld) : (s.countWrap f).link = s.link := rfl
@[simp] theorem State.countWrap_cells (s : State) (f : Fld) : (s.countWrap f).cells = s.cells := rfl
@[simp] theorem State.countWrap_eng (s : State) (f : Fld) : (s.countWrap f).eng = s.eng := rfl
@[simp] theorem State.countWrap_grid (s : State) (f : Fld) : (s.countWrap f).grid = s.grid := rfl
@[simp] theorem State.countWrap_mppt (s : State) (f : Fld) : (s.countWrap f).mppt = s.mppt := rfl
@[simp] theorem State.countWrap_frt (s : State) (f : Fld) : (s.countWrap f).frt = s.frt := rfl
@[simp] theorem State.countWrap_bus (s : State) (f : Fld) : (s.countWrap f).bus = s.bus := rfl
@[simp] theorem State.countWrap_mtr (s : State) (f : Fld) : (s.countWrap f).mtr = s.mtr := rfl
@[simp] theorem State.countWrap_lanes (s : State) (f : Fld) : (s.countWrap f).lanes = s.lanes := rfl
@[simp] theorem State.countWrap_carafe (s : State) (f : Fld) : (s.countWrap f).carafe = s.carafe := rfl
@[simp] theorem State.countWrap_wear (s : State) (f : Fld) : (s.countWrap f).wear = s.wear := rfl
@[simp] theorem State.countWrap_safe (s : State) (f : Fld) : (s.countWrap f).safe = s.safe := rfl
@[simp] theorem State.countWrap_ana (s : State) (f : Fld) : (s.countWrap f).ana = s.ana := rfl
@[simp] theorem State.countWrap_pour (s : State) (f : Fld) : (s.countWrap f).pour = s.pour := rfl
@[simp] theorem State.countWrap_pins (s : State) (f : Fld) : (s.countWrap f).pins = s.pins := rfl
@[simp] theorem State.countWrap_capAsk (s : State) (f : Fld) : (s.countWrap f).capAsk = s.capAsk := rfl
@[simp] theorem State.countWrap_pending (s : State) (f : Fld) : (s.countWrap f).pending = s.pending := rfl
@[simp] theorem State.countWrap_sess (s : State) (f : Fld) (n : Nat) : (s.countWrap f).sess n = s.sess n := rfl
@[simp] theorem State.countWrap_ring (s : State) (f : Fld) (n : Nat) : (s.countWrap f).ring n = s.ring n := rfl
@[simp] theorem State.countWrap_mtUnits (s : State) (f : Fld) : (s.countWrap f).mtUnits = s.mtUnits := rfl
@[simp] theorem State.countWrap_mtNs (s : State) (f : Fld) : (s.countWrap f).mtNs = s.mtNs := rfl

/-! ### put64 -/

@[simp] theorem State.put64_now (s : State) (lo : Reg) (hi : Reg) (v : Nat) : (s.put64 lo hi v).now = s.now := rfl
@[simp] theorem State.put64_free (s : State) (lo : Reg) (hi : Reg) (v : Nat) : (s.put64 lo hi v).free = s.free := rfl
@[simp] theorem State.put64_clk (s : State) (lo : Reg) (hi : Reg) (v : Nat) : (s.put64 lo hi v).clk = s.clk := rfl
@[simp] theorem State.put64_mgmt (s : State) (lo : Reg) (hi : Reg) (v : Nat) : (s.put64 lo hi v).mgmt = s.mgmt := rfl
@[simp] theorem State.put64_log (s : State) (lo : Reg) (hi : Reg) (v : Nat) : (s.put64 lo hi v).log = s.log := rfl
@[simp] theorem State.put64_pwr (s : State) (lo : Reg) (hi : Reg) (v : Nat) : (s.put64 lo hi v).pwr = s.pwr := rfl
@[simp] theorem State.put64_start (s : State) (lo : Reg) (hi : Reg) (v : Nat) : (s.put64 lo hi v).start = s.start := rfl
@[simp] theorem State.put64_link (s : State) (lo : Reg) (hi : Reg) (v : Nat) : (s.put64 lo hi v).link = s.link := rfl
@[simp] theorem State.put64_cells (s : State) (lo : Reg) (hi : Reg) (v : Nat) : (s.put64 lo hi v).cells = s.cells := rfl
@[simp] theorem State.put64_eng (s : State) (lo : Reg) (hi : Reg) (v : Nat) : (s.put64 lo hi v).eng = s.eng := rfl
@[simp] theorem State.put64_grid (s : State) (lo : Reg) (hi : Reg) (v : Nat) : (s.put64 lo hi v).grid = s.grid := rfl
@[simp] theorem State.put64_mppt (s : State) (lo : Reg) (hi : Reg) (v : Nat) : (s.put64 lo hi v).mppt = s.mppt := rfl
@[simp] theorem State.put64_frt (s : State) (lo : Reg) (hi : Reg) (v : Nat) : (s.put64 lo hi v).frt = s.frt := rfl
@[simp] theorem State.put64_bus (s : State) (lo : Reg) (hi : Reg) (v : Nat) : (s.put64 lo hi v).bus = s.bus := rfl
@[simp] theorem State.put64_mtr (s : State) (lo : Reg) (hi : Reg) (v : Nat) : (s.put64 lo hi v).mtr = s.mtr := rfl
@[simp] theorem State.put64_lanes (s : State) (lo : Reg) (hi : Reg) (v : Nat) : (s.put64 lo hi v).lanes = s.lanes := rfl
@[simp] theorem State.put64_carafe (s : State) (lo : Reg) (hi : Reg) (v : Nat) : (s.put64 lo hi v).carafe = s.carafe := rfl
@[simp] theorem State.put64_wear (s : State) (lo : Reg) (hi : Reg) (v : Nat) : (s.put64 lo hi v).wear = s.wear := rfl
@[simp] theorem State.put64_safe (s : State) (lo : Reg) (hi : Reg) (v : Nat) : (s.put64 lo hi v).safe = s.safe := rfl
@[simp] theorem State.put64_ana (s : State) (lo : Reg) (hi : Reg) (v : Nat) : (s.put64 lo hi v).ana = s.ana := rfl
@[simp] theorem State.put64_pour (s : State) (lo : Reg) (hi : Reg) (v : Nat) : (s.put64 lo hi v).pour = s.pour := rfl
@[simp] theorem State.put64_pins (s : State) (lo : Reg) (hi : Reg) (v : Nat) : (s.put64 lo hi v).pins = s.pins := rfl
@[simp] theorem State.put64_capAsk (s : State) (lo : Reg) (hi : Reg) (v : Nat) : (s.put64 lo hi v).capAsk = s.capAsk := rfl
@[simp] theorem State.put64_pending (s : State) (lo : Reg) (hi : Reg) (v : Nat) : (s.put64 lo hi v).pending = s.pending := rfl
@[simp] theorem State.put64_sess (s : State) (lo : Reg) (hi : Reg) (v : Nat) (n : Nat) : (s.put64 lo hi v).sess n = s.sess n := rfl
@[simp] theorem State.put64_ring (s : State) (lo : Reg) (hi : Reg) (v : Nat) (n : Nat) : (s.put64 lo hi v).ring n = s.ring n := rfl
@[simp] theorem State.put64_mtUnits (s : State) (lo : Reg) (hi : Reg) (v : Nat) : (s.put64 lo hi v).mtUnits = s.mtUnits := rfl
@[simp] theorem State.put64_mtNs (s : State) (lo : Reg) (hi : Reg) (v : Nat) : (s.put64 lo hi v).mtNs = s.mtNs := rfl

/-! ### freeStep -/

@[simp] theorem State.freeStep_now (s : State) : s.freeStep.now = s.now := rfl
@[simp] theorem State.freeStep_regs (s : State) : s.freeStep.regs = s.regs := rfl
@[simp] theorem State.freeStep_clk (s : State) : s.freeStep.clk = s.clk := rfl
@[simp] theorem State.freeStep_mgmt (s : State) : s.freeStep.mgmt = s.mgmt := rfl
@[simp] theorem State.freeStep_log (s : State) : s.freeStep.log = s.log := rfl
@[simp] theorem State.freeStep_pwr (s : State) : s.freeStep.pwr = s.pwr := rfl
@[simp] theorem State.freeStep_start (s : State) : s.freeStep.start = s.start := rfl
@[simp] theorem State.freeStep_link (s : State) : s.freeStep.link = s.link := rfl
@[simp] theorem State.freeStep_cells (s : State) : s.freeStep.cells = s.cells := rfl
@[simp] theorem State.freeStep_eng (s : State) : s.freeStep.eng = s.eng := rfl
@[simp] theorem State.freeStep_grid (s : State) : s.freeStep.grid = s.grid := rfl
@[simp] theorem State.freeStep_mppt (s : State) : s.freeStep.mppt = s.mppt := rfl
@[simp] theorem State.freeStep_frt (s : State) : s.freeStep.frt = s.frt := rfl
@[simp] theorem State.freeStep_bus (s : State) : s.freeStep.bus = s.bus := rfl
@[simp] theorem State.freeStep_mtr (s : State) : s.freeStep.mtr = s.mtr := rfl
@[simp] theorem State.freeStep_lanes (s : State) : s.freeStep.lanes = s.lanes := rfl
@[simp] theorem State.freeStep_carafe (s : State) : s.freeStep.carafe = s.carafe := rfl
@[simp] theorem State.freeStep_wear (s : State) : s.freeStep.wear = s.wear := rfl
@[simp] theorem State.freeStep_safe (s : State) : s.freeStep.safe = s.safe := rfl
@[simp] theorem State.freeStep_ana (s : State) : s.freeStep.ana = s.ana := rfl
@[simp] theorem State.freeStep_pour (s : State) : s.freeStep.pour = s.pour := rfl
@[simp] theorem State.freeStep_pins (s : State) : s.freeStep.pins = s.pins := rfl
@[simp] theorem State.freeStep_capAsk (s : State) : s.freeStep.capAsk = s.capAsk := rfl
@[simp] theorem State.freeStep_pending (s : State) : s.freeStep.pending = s.pending := rfl
@[simp] theorem State.freeStep_word (s : State) (r : Reg) : s.freeStep.word r = s.word r := rfl
@[simp] theorem State.freeStep_get (s : State) (f : Fld) : s.freeStep.get f = s.get f := rfl
@[simp] theorem State.freeStep_getS (s : State) (f : Fld) : s.freeStep.getS f = s.getS f := rfl
@[simp] theorem State.freeStep_flag (s : State) (f : Fld) : s.freeStep.flag f = s.flag f := rfl
@[simp] theorem State.freeStep_get64 (s : State) (lo hi : Reg) : s.freeStep.get64 lo hi = s.get64 lo hi := rfl
@[simp] theorem State.freeStep_domState (s : State) (d : Nat) : s.freeStep.domState d = s.domState d := rfl
@[simp] theorem State.freeStep_isOn (s : State) (d : Nat) : s.freeStep.isOn d = s.isOn d := rfl
@[simp] theorem State.freeStep_works (s : State) (d : Nat) : s.freeStep.works d = s.works d := rfl
@[simp] theorem State.freeStep_sess (s : State) (n : Nat) : s.freeStep.sess n = s.sess n := rfl
@[simp] theorem State.freeStep_ring (s : State) (n : Nat) : s.freeStep.ring n = s.ring n := rfl
@[simp] theorem State.freeStep_cellState (s : State) (k : Nat) : s.freeStep.cellState k = s.cellState k := rfl
@[simp] theorem State.freeStep_mtUnits (s : State) : s.freeStep.mtUnits = s.mtUnits := rfl
@[simp] theorem State.freeStep_mtNs (s : State) : s.freeStep.mtNs = s.mtNs := rfl

/-! ### setClk -/

@[simp] theorem State.setClk_now (s : State) (f : ClkSt → ClkSt) : (s.setClk f).now = s.now := rfl
@[simp] theorem State.setClk_regs (s : State) (f : ClkSt → ClkSt) : (s.setClk f).regs = s.regs := rfl
@[simp] theorem State.setClk_free (s : State) (f : ClkSt → ClkSt) : (s.setClk f).free = s.free := rfl
@[simp] theorem State.setClk_mgmt (s : State) (f : ClkSt → ClkSt) : (s.setClk f).mgmt = s.mgmt := rfl
@[simp] theorem State.setClk_log (s : State) (f : ClkSt → ClkSt) : (s.setClk f).log = s.log := rfl
@[simp] theorem State.setClk_pwr (s : State) (f : ClkSt → ClkSt) : (s.setClk f).pwr = s.pwr := rfl
@[simp] theorem State.setClk_start (s : State) (f : ClkSt → ClkSt) : (s.setClk f).start = s.start := rfl
@[simp] theorem State.setClk_link (s : State) (f : ClkSt → ClkSt) : (s.setClk f).link = s.link := rfl
@[simp] theorem State.setClk_cells (s : State) (f : ClkSt → ClkSt) : (s.setClk f).cells = s.cells := rfl
@[simp] theorem State.setClk_eng (s : State) (f : ClkSt → ClkSt) : (s.setClk f).eng = s.eng := rfl
@[simp] theorem State.setClk_grid (s : State) (f : ClkSt → ClkSt) : (s.setClk f).grid = s.grid := rfl
@[simp] theorem State.setClk_mppt (s : State) (f : ClkSt → ClkSt) : (s.setClk f).mppt = s.mppt := rfl
@[simp] theorem State.setClk_frt (s : State) (f : ClkSt → ClkSt) : (s.setClk f).frt = s.frt := rfl
@[simp] theorem State.setClk_bus (s : State) (f : ClkSt → ClkSt) : (s.setClk f).bus = s.bus := rfl
@[simp] theorem State.setClk_mtr (s : State) (f : ClkSt → ClkSt) : (s.setClk f).mtr = s.mtr := rfl
@[simp] theorem State.setClk_lanes (s : State) (f : ClkSt → ClkSt) : (s.setClk f).lanes = s.lanes := rfl
@[simp] theorem State.setClk_carafe (s : State) (f : ClkSt → ClkSt) : (s.setClk f).carafe = s.carafe := rfl
@[simp] theorem State.setClk_wear (s : State) (f : ClkSt → ClkSt) : (s.setClk f).wear = s.wear := rfl
@[simp] theorem State.setClk_safe (s : State) (f : ClkSt → ClkSt) : (s.setClk f).safe = s.safe := rfl
@[simp] theorem State.setClk_ana (s : State) (f : ClkSt → ClkSt) : (s.setClk f).ana = s.ana := rfl
@[simp] theorem State.setClk_pour (s : State) (f : ClkSt → ClkSt) : (s.setClk f).pour = s.pour := rfl
@[simp] theorem State.setClk_pins (s : State) (f : ClkSt → ClkSt) : (s.setClk f).pins = s.pins := rfl
@[simp] theorem State.setClk_capAsk (s : State) (f : ClkSt → ClkSt) : (s.setClk f).capAsk = s.capAsk := rfl
@[simp] theorem State.setClk_pending (s : State) (f : ClkSt → ClkSt) : (s.setClk f).pending = s.pending := rfl
@[simp] theorem State.setClk_word (s : State) (f : ClkSt → ClkSt) (r : Reg) : (s.setClk f).word r = s.word r := rfl
@[simp] theorem State.setClk_get (s : State) (f : ClkSt → ClkSt) (f' : Fld) : (s.setClk f).get f' = s.get f' := rfl
@[simp] theorem State.setClk_getS (s : State) (f : ClkSt → ClkSt) (f' : Fld) : (s.setClk f).getS f' = s.getS f' := rfl
@[simp] theorem State.setClk_flag (s : State) (f : ClkSt → ClkSt) (f' : Fld) : (s.setClk f).flag f' = s.flag f' := rfl
@[simp] theorem State.setClk_get64 (s : State) (f : ClkSt → ClkSt) (lo hi : Reg) : (s.setClk f).get64 lo hi = s.get64 lo hi := rfl
@[simp] theorem State.setClk_domState (s : State) (f : ClkSt → ClkSt) (d : Nat) : (s.setClk f).domState d = s.domState d := rfl
@[simp] theorem State.setClk_isOn (s : State) (f : ClkSt → ClkSt) (d : Nat) : (s.setClk f).isOn d = s.isOn d := rfl
@[simp] theorem State.setClk_works (s : State) (f : ClkSt → ClkSt) (d : Nat) : (s.setClk f).works d = s.works d := rfl
@[simp] theorem State.setClk_sess (s : State) (f : ClkSt → ClkSt) (n : Nat) : (s.setClk f).sess n = s.sess n := rfl
@[simp] theorem State.setClk_ring (s : State) (f : ClkSt → ClkSt) (n : Nat) : (s.setClk f).ring n = s.ring n := rfl
@[simp] theorem State.setClk_cellState (s : State) (f : ClkSt → ClkSt) (k : Nat) : (s.setClk f).cellState k = s.cellState k := rfl
@[simp] theorem State.setClk_clk (s : State) (f : ClkSt → ClkSt) : (s.setClk f).clk = f s.clk := rfl

/-! ### setMgmt -/

@[simp] theorem State.setMgmt_now (s : State) (f : MgmtSt → MgmtSt) : (s.setMgmt f).now = s.now := rfl
@[simp] theorem State.setMgmt_regs (s : State) (f : MgmtSt → MgmtSt) : (s.setMgmt f).regs = s.regs := rfl
@[simp] theorem State.setMgmt_free (s : State) (f : MgmtSt → MgmtSt) : (s.setMgmt f).free = s.free := rfl
@[simp] theorem State.setMgmt_clk (s : State) (f : MgmtSt → MgmtSt) : (s.setMgmt f).clk = s.clk := rfl
@[simp] theorem State.setMgmt_log (s : State) (f : MgmtSt → MgmtSt) : (s.setMgmt f).log = s.log := rfl
@[simp] theorem State.setMgmt_pwr (s : State) (f : MgmtSt → MgmtSt) : (s.setMgmt f).pwr = s.pwr := rfl
@[simp] theorem State.setMgmt_start (s : State) (f : MgmtSt → MgmtSt) : (s.setMgmt f).start = s.start := rfl
@[simp] theorem State.setMgmt_link (s : State) (f : MgmtSt → MgmtSt) : (s.setMgmt f).link = s.link := rfl
@[simp] theorem State.setMgmt_cells (s : State) (f : MgmtSt → MgmtSt) : (s.setMgmt f).cells = s.cells := rfl
@[simp] theorem State.setMgmt_eng (s : State) (f : MgmtSt → MgmtSt) : (s.setMgmt f).eng = s.eng := rfl
@[simp] theorem State.setMgmt_grid (s : State) (f : MgmtSt → MgmtSt) : (s.setMgmt f).grid = s.grid := rfl
@[simp] theorem State.setMgmt_mppt (s : State) (f : MgmtSt → MgmtSt) : (s.setMgmt f).mppt = s.mppt := rfl
@[simp] theorem State.setMgmt_frt (s : State) (f : MgmtSt → MgmtSt) : (s.setMgmt f).frt = s.frt := rfl
@[simp] theorem State.setMgmt_bus (s : State) (f : MgmtSt → MgmtSt) : (s.setMgmt f).bus = s.bus := rfl
@[simp] theorem State.setMgmt_mtr (s : State) (f : MgmtSt → MgmtSt) : (s.setMgmt f).mtr = s.mtr := rfl
@[simp] theorem State.setMgmt_lanes (s : State) (f : MgmtSt → MgmtSt) : (s.setMgmt f).lanes = s.lanes := rfl
@[simp] theorem State.setMgmt_carafe (s : State) (f : MgmtSt → MgmtSt) : (s.setMgmt f).carafe = s.carafe := rfl
@[simp] theorem State.setMgmt_wear (s : State) (f : MgmtSt → MgmtSt) : (s.setMgmt f).wear = s.wear := rfl
@[simp] theorem State.setMgmt_safe (s : State) (f : MgmtSt → MgmtSt) : (s.setMgmt f).safe = s.safe := rfl
@[simp] theorem State.setMgmt_ana (s : State) (f : MgmtSt → MgmtSt) : (s.setMgmt f).ana = s.ana := rfl
@[simp] theorem State.setMgmt_pour (s : State) (f : MgmtSt → MgmtSt) : (s.setMgmt f).pour = s.pour := rfl
@[simp] theorem State.setMgmt_pins (s : State) (f : MgmtSt → MgmtSt) : (s.setMgmt f).pins = s.pins := rfl
@[simp] theorem State.setMgmt_capAsk (s : State) (f : MgmtSt → MgmtSt) : (s.setMgmt f).capAsk = s.capAsk := rfl
@[simp] theorem State.setMgmt_pending (s : State) (f : MgmtSt → MgmtSt) : (s.setMgmt f).pending = s.pending := rfl
@[simp] theorem State.setMgmt_word (s : State) (f : MgmtSt → MgmtSt) (r : Reg) : (s.setMgmt f).word r = s.word r := rfl
@[simp] theorem State.setMgmt_get (s : State) (f : MgmtSt → MgmtSt) (f' : Fld) : (s.setMgmt f).get f' = s.get f' := rfl
@[simp] theorem State.setMgmt_getS (s : State) (f : MgmtSt → MgmtSt) (f' : Fld) : (s.setMgmt f).getS f' = s.getS f' := rfl
@[simp] theorem State.setMgmt_flag (s : State) (f : MgmtSt → MgmtSt) (f' : Fld) : (s.setMgmt f).flag f' = s.flag f' := rfl
@[simp] theorem State.setMgmt_get64 (s : State) (f : MgmtSt → MgmtSt) (lo hi : Reg) : (s.setMgmt f).get64 lo hi = s.get64 lo hi := rfl
@[simp] theorem State.setMgmt_domState (s : State) (f : MgmtSt → MgmtSt) (d : Nat) : (s.setMgmt f).domState d = s.domState d := rfl
@[simp] theorem State.setMgmt_isOn (s : State) (f : MgmtSt → MgmtSt) (d : Nat) : (s.setMgmt f).isOn d = s.isOn d := rfl
@[simp] theorem State.setMgmt_works (s : State) (f : MgmtSt → MgmtSt) (d : Nat) : (s.setMgmt f).works d = s.works d := rfl
@[simp] theorem State.setMgmt_ring (s : State) (f : MgmtSt → MgmtSt) (n : Nat) : (s.setMgmt f).ring n = s.ring n := rfl
@[simp] theorem State.setMgmt_cellState (s : State) (f : MgmtSt → MgmtSt) (k : Nat) : (s.setMgmt f).cellState k = s.cellState k := rfl
@[simp] theorem State.setMgmt_mtUnits (s : State) (f : MgmtSt → MgmtSt) : (s.setMgmt f).mtUnits = s.mtUnits := rfl
@[simp] theorem State.setMgmt_mtNs (s : State) (f : MgmtSt → MgmtSt) : (s.setMgmt f).mtNs = s.mtNs := rfl
@[simp] theorem State.setMgmt_mgmt (s : State) (f : MgmtSt → MgmtSt) : (s.setMgmt f).mgmt = f s.mgmt := rfl

/-! ### setLog -/

@[simp] theorem State.setLog_now (s : State) (f : LogSt → LogSt) : (s.setLog f).now = s.now := rfl
@[simp] theorem State.setLog_regs (s : State) (f : LogSt → LogSt) : (s.setLog f).regs = s.regs := rfl
@[simp] theorem State.setLog_free (s : State) (f : LogSt → LogSt) : (s.setLog f).free = s.free := rfl
@[simp] theorem State.setLog_clk (s : State) (f : LogSt → LogSt) : (s.setLog f).clk = s.clk := rfl
@[simp] theorem State.setLog_mgmt (s : State) (f : LogSt → LogSt) : (s.setLog f).mgmt = s.mgmt := rfl
@[simp] theorem State.setLog_pwr (s : State) (f : LogSt → LogSt) : (s.setLog f).pwr = s.pwr := rfl
@[simp] theorem State.setLog_start (s : State) (f : LogSt → LogSt) : (s.setLog f).start = s.start := rfl
@[simp] theorem State.setLog_link (s : State) (f : LogSt → LogSt) : (s.setLog f).link = s.link := rfl
@[simp] theorem State.setLog_cells (s : State) (f : LogSt → LogSt) : (s.setLog f).cells = s.cells := rfl
@[simp] theorem State.setLog_eng (s : State) (f : LogSt → LogSt) : (s.setLog f).eng = s.eng := rfl
@[simp] theorem State.setLog_grid (s : State) (f : LogSt → LogSt) : (s.setLog f).grid = s.grid := rfl
@[simp] theorem State.setLog_mppt (s : State) (f : LogSt → LogSt) : (s.setLog f).mppt = s.mppt := rfl
@[simp] theorem State.setLog_frt (s : State) (f : LogSt → LogSt) : (s.setLog f).frt = s.frt := rfl
@[simp] theorem State.setLog_bus (s : State) (f : LogSt → LogSt) : (s.setLog f).bus = s.bus := rfl
@[simp] theorem State.setLog_mtr (s : State) (f : LogSt → LogSt) : (s.setLog f).mtr = s.mtr := rfl
@[simp] theorem State.setLog_lanes (s : State) (f : LogSt → LogSt) : (s.setLog f).lanes = s.lanes := rfl
@[simp] theorem State.setLog_carafe (s : State) (f : LogSt → LogSt) : (s.setLog f).carafe = s.carafe := rfl
@[simp] theorem State.setLog_wear (s : State) (f : LogSt → LogSt) : (s.setLog f).wear = s.wear := rfl
@[simp] theorem State.setLog_safe (s : State) (f : LogSt → LogSt) : (s.setLog f).safe = s.safe := rfl
@[simp] theorem State.setLog_ana (s : State) (f : LogSt → LogSt) : (s.setLog f).ana = s.ana := rfl
@[simp] theorem State.setLog_pour (s : State) (f : LogSt → LogSt) : (s.setLog f).pour = s.pour := rfl
@[simp] theorem State.setLog_pins (s : State) (f : LogSt → LogSt) : (s.setLog f).pins = s.pins := rfl
@[simp] theorem State.setLog_capAsk (s : State) (f : LogSt → LogSt) : (s.setLog f).capAsk = s.capAsk := rfl
@[simp] theorem State.setLog_pending (s : State) (f : LogSt → LogSt) : (s.setLog f).pending = s.pending := rfl
@[simp] theorem State.setLog_word (s : State) (f : LogSt → LogSt) (r : Reg) : (s.setLog f).word r = s.word r := rfl
@[simp] theorem State.setLog_get (s : State) (f : LogSt → LogSt) (f' : Fld) : (s.setLog f).get f' = s.get f' := rfl
@[simp] theorem State.setLog_getS (s : State) (f : LogSt → LogSt) (f' : Fld) : (s.setLog f).getS f' = s.getS f' := rfl
@[simp] theorem State.setLog_flag (s : State) (f : LogSt → LogSt) (f' : Fld) : (s.setLog f).flag f' = s.flag f' := rfl
@[simp] theorem State.setLog_get64 (s : State) (f : LogSt → LogSt) (lo hi : Reg) : (s.setLog f).get64 lo hi = s.get64 lo hi := rfl
@[simp] theorem State.setLog_domState (s : State) (f : LogSt → LogSt) (d : Nat) : (s.setLog f).domState d = s.domState d := rfl
@[simp] theorem State.setLog_isOn (s : State) (f : LogSt → LogSt) (d : Nat) : (s.setLog f).isOn d = s.isOn d := rfl
@[simp] theorem State.setLog_works (s : State) (f : LogSt → LogSt) (d : Nat) : (s.setLog f).works d = s.works d := rfl
@[simp] theorem State.setLog_sess (s : State) (f : LogSt → LogSt) (n : Nat) : (s.setLog f).sess n = s.sess n := rfl
@[simp] theorem State.setLog_ring (s : State) (f : LogSt → LogSt) (n : Nat) : (s.setLog f).ring n = s.ring n := rfl
@[simp] theorem State.setLog_cellState (s : State) (f : LogSt → LogSt) (k : Nat) : (s.setLog f).cellState k = s.cellState k := rfl
@[simp] theorem State.setLog_mtUnits (s : State) (f : LogSt → LogSt) : (s.setLog f).mtUnits = s.mtUnits := rfl
@[simp] theorem State.setLog_mtNs (s : State) (f : LogSt → LogSt) : (s.setLog f).mtNs = s.mtNs := rfl
@[simp] theorem State.setLog_log (s : State) (f : LogSt → LogSt) : (s.setLog f).log = f s.log := rfl

/-! ### setPwr -/

@[simp] theorem State.setPwr_now (s : State) (f : PwrSt → PwrSt) : (s.setPwr f).now = s.now := rfl
@[simp] theorem State.setPwr_regs (s : State) (f : PwrSt → PwrSt) : (s.setPwr f).regs = s.regs := rfl
@[simp] theorem State.setPwr_free (s : State) (f : PwrSt → PwrSt) : (s.setPwr f).free = s.free := rfl
@[simp] theorem State.setPwr_clk (s : State) (f : PwrSt → PwrSt) : (s.setPwr f).clk = s.clk := rfl
@[simp] theorem State.setPwr_mgmt (s : State) (f : PwrSt → PwrSt) : (s.setPwr f).mgmt = s.mgmt := rfl
@[simp] theorem State.setPwr_log (s : State) (f : PwrSt → PwrSt) : (s.setPwr f).log = s.log := rfl
@[simp] theorem State.setPwr_start (s : State) (f : PwrSt → PwrSt) : (s.setPwr f).start = s.start := rfl
@[simp] theorem State.setPwr_link (s : State) (f : PwrSt → PwrSt) : (s.setPwr f).link = s.link := rfl
@[simp] theorem State.setPwr_cells (s : State) (f : PwrSt → PwrSt) : (s.setPwr f).cells = s.cells := rfl
@[simp] theorem State.setPwr_eng (s : State) (f : PwrSt → PwrSt) : (s.setPwr f).eng = s.eng := rfl
@[simp] theorem State.setPwr_grid (s : State) (f : PwrSt → PwrSt) : (s.setPwr f).grid = s.grid := rfl
@[simp] theorem State.setPwr_mppt (s : State) (f : PwrSt → PwrSt) : (s.setPwr f).mppt = s.mppt := rfl
@[simp] theorem State.setPwr_frt (s : State) (f : PwrSt → PwrSt) : (s.setPwr f).frt = s.frt := rfl
@[simp] theorem State.setPwr_bus (s : State) (f : PwrSt → PwrSt) : (s.setPwr f).bus = s.bus := rfl
@[simp] theorem State.setPwr_mtr (s : State) (f : PwrSt → PwrSt) : (s.setPwr f).mtr = s.mtr := rfl
@[simp] theorem State.setPwr_lanes (s : State) (f : PwrSt → PwrSt) : (s.setPwr f).lanes = s.lanes := rfl
@[simp] theorem State.setPwr_carafe (s : State) (f : PwrSt → PwrSt) : (s.setPwr f).carafe = s.carafe := rfl
@[simp] theorem State.setPwr_wear (s : State) (f : PwrSt → PwrSt) : (s.setPwr f).wear = s.wear := rfl
@[simp] theorem State.setPwr_safe (s : State) (f : PwrSt → PwrSt) : (s.setPwr f).safe = s.safe := rfl
@[simp] theorem State.setPwr_ana (s : State) (f : PwrSt → PwrSt) : (s.setPwr f).ana = s.ana := rfl
@[simp] theorem State.setPwr_pour (s : State) (f : PwrSt → PwrSt) : (s.setPwr f).pour = s.pour := rfl
@[simp] theorem State.setPwr_pins (s : State) (f : PwrSt → PwrSt) : (s.setPwr f).pins = s.pins := rfl
@[simp] theorem State.setPwr_capAsk (s : State) (f : PwrSt → PwrSt) : (s.setPwr f).capAsk = s.capAsk := rfl
@[simp] theorem State.setPwr_pending (s : State) (f : PwrSt → PwrSt) : (s.setPwr f).pending = s.pending := rfl
@[simp] theorem State.setPwr_word (s : State) (f : PwrSt → PwrSt) (r : Reg) : (s.setPwr f).word r = s.word r := rfl
@[simp] theorem State.setPwr_get (s : State) (f : PwrSt → PwrSt) (f' : Fld) : (s.setPwr f).get f' = s.get f' := rfl
@[simp] theorem State.setPwr_getS (s : State) (f : PwrSt → PwrSt) (f' : Fld) : (s.setPwr f).getS f' = s.getS f' := rfl
@[simp] theorem State.setPwr_flag (s : State) (f : PwrSt → PwrSt) (f' : Fld) : (s.setPwr f).flag f' = s.flag f' := rfl
@[simp] theorem State.setPwr_get64 (s : State) (f : PwrSt → PwrSt) (lo hi : Reg) : (s.setPwr f).get64 lo hi = s.get64 lo hi := rfl
@[simp] theorem State.setPwr_domState (s : State) (f : PwrSt → PwrSt) (d : Nat) : (s.setPwr f).domState d = s.domState d := rfl
@[simp] theorem State.setPwr_isOn (s : State) (f : PwrSt → PwrSt) (d : Nat) : (s.setPwr f).isOn d = s.isOn d := rfl
@[simp] theorem State.setPwr_sess (s : State) (f : PwrSt → PwrSt) (n : Nat) : (s.setPwr f).sess n = s.sess n := rfl
@[simp] theorem State.setPwr_ring (s : State) (f : PwrSt → PwrSt) (n : Nat) : (s.setPwr f).ring n = s.ring n := rfl
@[simp] theorem State.setPwr_cellState (s : State) (f : PwrSt → PwrSt) (k : Nat) : (s.setPwr f).cellState k = s.cellState k := rfl
@[simp] theorem State.setPwr_mtUnits (s : State) (f : PwrSt → PwrSt) : (s.setPwr f).mtUnits = s.mtUnits := rfl
@[simp] theorem State.setPwr_mtNs (s : State) (f : PwrSt → PwrSt) : (s.setPwr f).mtNs = s.mtNs := rfl
@[simp] theorem State.setPwr_pwr (s : State) (f : PwrSt → PwrSt) : (s.setPwr f).pwr = f s.pwr := rfl

/-! ### setStart -/

@[simp] theorem State.setStart_now (s : State) (f : StartSt → StartSt) : (s.setStart f).now = s.now := rfl
@[simp] theorem State.setStart_regs (s : State) (f : StartSt → StartSt) : (s.setStart f).regs = s.regs := rfl
@[simp] theorem State.setStart_free (s : State) (f : StartSt → StartSt) : (s.setStart f).free = s.free := rfl
@[simp] theorem State.setStart_clk (s : State) (f : StartSt → StartSt) : (s.setStart f).clk = s.clk := rfl
@[simp] theorem State.setStart_mgmt (s : State) (f : StartSt → StartSt) : (s.setStart f).mgmt = s.mgmt := rfl
@[simp] theorem State.setStart_log (s : State) (f : StartSt → StartSt) : (s.setStart f).log = s.log := rfl
@[simp] theorem State.setStart_pwr (s : State) (f : StartSt → StartSt) : (s.setStart f).pwr = s.pwr := rfl
@[simp] theorem State.setStart_link (s : State) (f : StartSt → StartSt) : (s.setStart f).link = s.link := rfl
@[simp] theorem State.setStart_cells (s : State) (f : StartSt → StartSt) : (s.setStart f).cells = s.cells := rfl
@[simp] theorem State.setStart_eng (s : State) (f : StartSt → StartSt) : (s.setStart f).eng = s.eng := rfl
@[simp] theorem State.setStart_grid (s : State) (f : StartSt → StartSt) : (s.setStart f).grid = s.grid := rfl
@[simp] theorem State.setStart_mppt (s : State) (f : StartSt → StartSt) : (s.setStart f).mppt = s.mppt := rfl
@[simp] theorem State.setStart_frt (s : State) (f : StartSt → StartSt) : (s.setStart f).frt = s.frt := rfl
@[simp] theorem State.setStart_bus (s : State) (f : StartSt → StartSt) : (s.setStart f).bus = s.bus := rfl
@[simp] theorem State.setStart_mtr (s : State) (f : StartSt → StartSt) : (s.setStart f).mtr = s.mtr := rfl
@[simp] theorem State.setStart_lanes (s : State) (f : StartSt → StartSt) : (s.setStart f).lanes = s.lanes := rfl
@[simp] theorem State.setStart_carafe (s : State) (f : StartSt → StartSt) : (s.setStart f).carafe = s.carafe := rfl
@[simp] theorem State.setStart_wear (s : State) (f : StartSt → StartSt) : (s.setStart f).wear = s.wear := rfl
@[simp] theorem State.setStart_safe (s : State) (f : StartSt → StartSt) : (s.setStart f).safe = s.safe := rfl
@[simp] theorem State.setStart_ana (s : State) (f : StartSt → StartSt) : (s.setStart f).ana = s.ana := rfl
@[simp] theorem State.setStart_pour (s : State) (f : StartSt → StartSt) : (s.setStart f).pour = s.pour := rfl
@[simp] theorem State.setStart_pins (s : State) (f : StartSt → StartSt) : (s.setStart f).pins = s.pins := rfl
@[simp] theorem State.setStart_capAsk (s : State) (f : StartSt → StartSt) : (s.setStart f).capAsk = s.capAsk := rfl
@[simp] theorem State.setStart_pending (s : State) (f : StartSt → StartSt) : (s.setStart f).pending = s.pending := rfl
@[simp] theorem State.setStart_word (s : State) (f : StartSt → StartSt) (r : Reg) : (s.setStart f).word r = s.word r := rfl
@[simp] theorem State.setStart_get (s : State) (f : StartSt → StartSt) (f' : Fld) : (s.setStart f).get f' = s.get f' := rfl
@[simp] theorem State.setStart_getS (s : State) (f : StartSt → StartSt) (f' : Fld) : (s.setStart f).getS f' = s.getS f' := rfl
@[simp] theorem State.setStart_flag (s : State) (f : StartSt → StartSt) (f' : Fld) : (s.setStart f).flag f' = s.flag f' := rfl
@[simp] theorem State.setStart_get64 (s : State) (f : StartSt → StartSt) (lo hi : Reg) : (s.setStart f).get64 lo hi = s.get64 lo hi := rfl
@[simp] theorem State.setStart_domState (s : State) (f : StartSt → StartSt) (d : Nat) : (s.setStart f).domState d = s.domState d := rfl
@[simp] theorem State.setStart_isOn (s : State) (f : StartSt → StartSt) (d : Nat) : (s.setStart f).isOn d = s.isOn d := rfl
@[simp] theorem State.setStart_works (s : State) (f : StartSt → StartSt) (d : Nat) : (s.setStart f).works d = s.works d := rfl
@[simp] theorem State.setStart_sess (s : State) (f : StartSt → StartSt) (n : Nat) : (s.setStart f).sess n = s.sess n := rfl
@[simp] theorem State.setStart_ring (s : State) (f : StartSt → StartSt) (n : Nat) : (s.setStart f).ring n = s.ring n := rfl
@[simp] theorem State.setStart_cellState (s : State) (f : StartSt → StartSt) (k : Nat) : (s.setStart f).cellState k = s.cellState k := rfl
@[simp] theorem State.setStart_mtUnits (s : State) (f : StartSt → StartSt) : (s.setStart f).mtUnits = s.mtUnits := rfl
@[simp] theorem State.setStart_mtNs (s : State) (f : StartSt → StartSt) : (s.setStart f).mtNs = s.mtNs := rfl
@[simp] theorem State.setStart_start (s : State) (f : StartSt → StartSt) : (s.setStart f).start = f s.start := rfl

/-! ### setLink -/

@[simp] theorem State.setLink_now (s : State) (f : LinkSt → LinkSt) : (s.setLink f).now = s.now := rfl
@[simp] theorem State.setLink_regs (s : State) (f : LinkSt → LinkSt) : (s.setLink f).regs = s.regs := rfl
@[simp] theorem State.setLink_free (s : State) (f : LinkSt → LinkSt) : (s.setLink f).free = s.free := rfl
@[simp] theorem State.setLink_clk (s : State) (f : LinkSt → LinkSt) : (s.setLink f).clk = s.clk := rfl
@[simp] theorem State.setLink_mgmt (s : State) (f : LinkSt → LinkSt) : (s.setLink f).mgmt = s.mgmt := rfl
@[simp] theorem State.setLink_log (s : State) (f : LinkSt → LinkSt) : (s.setLink f).log = s.log := rfl
@[simp] theorem State.setLink_pwr (s : State) (f : LinkSt → LinkSt) : (s.setLink f).pwr = s.pwr := rfl
@[simp] theorem State.setLink_start (s : State) (f : LinkSt → LinkSt) : (s.setLink f).start = s.start := rfl
@[simp] theorem State.setLink_cells (s : State) (f : LinkSt → LinkSt) : (s.setLink f).cells = s.cells := rfl
@[simp] theorem State.setLink_eng (s : State) (f : LinkSt → LinkSt) : (s.setLink f).eng = s.eng := rfl
@[simp] theorem State.setLink_grid (s : State) (f : LinkSt → LinkSt) : (s.setLink f).grid = s.grid := rfl
@[simp] theorem State.setLink_mppt (s : State) (f : LinkSt → LinkSt) : (s.setLink f).mppt = s.mppt := rfl
@[simp] theorem State.setLink_frt (s : State) (f : LinkSt → LinkSt) : (s.setLink f).frt = s.frt := rfl
@[simp] theorem State.setLink_bus (s : State) (f : LinkSt → LinkSt) : (s.setLink f).bus = s.bus := rfl
@[simp] theorem State.setLink_mtr (s : State) (f : LinkSt → LinkSt) : (s.setLink f).mtr = s.mtr := rfl
@[simp] theorem State.setLink_lanes (s : State) (f : LinkSt → LinkSt) : (s.setLink f).lanes = s.lanes := rfl
@[simp] theorem State.setLink_carafe (s : State) (f : LinkSt → LinkSt) : (s.setLink f).carafe = s.carafe := rfl
@[simp] theorem State.setLink_wear (s : State) (f : LinkSt → LinkSt) : (s.setLink f).wear = s.wear := rfl
@[simp] theorem State.setLink_safe (s : State) (f : LinkSt → LinkSt) : (s.setLink f).safe = s.safe := rfl
@[simp] theorem State.setLink_ana (s : State) (f : LinkSt → LinkSt) : (s.setLink f).ana = s.ana := rfl
@[simp] theorem State.setLink_pour (s : State) (f : LinkSt → LinkSt) : (s.setLink f).pour = s.pour := rfl
@[simp] theorem State.setLink_pins (s : State) (f : LinkSt → LinkSt) : (s.setLink f).pins = s.pins := rfl
@[simp] theorem State.setLink_capAsk (s : State) (f : LinkSt → LinkSt) : (s.setLink f).capAsk = s.capAsk := rfl
@[simp] theorem State.setLink_pending (s : State) (f : LinkSt → LinkSt) : (s.setLink f).pending = s.pending := rfl
@[simp] theorem State.setLink_word (s : State) (f : LinkSt → LinkSt) (r : Reg) : (s.setLink f).word r = s.word r := rfl
@[simp] theorem State.setLink_get (s : State) (f : LinkSt → LinkSt) (f' : Fld) : (s.setLink f).get f' = s.get f' := rfl
@[simp] theorem State.setLink_getS (s : State) (f : LinkSt → LinkSt) (f' : Fld) : (s.setLink f).getS f' = s.getS f' := rfl
@[simp] theorem State.setLink_flag (s : State) (f : LinkSt → LinkSt) (f' : Fld) : (s.setLink f).flag f' = s.flag f' := rfl
@[simp] theorem State.setLink_get64 (s : State) (f : LinkSt → LinkSt) (lo hi : Reg) : (s.setLink f).get64 lo hi = s.get64 lo hi := rfl
@[simp] theorem State.setLink_domState (s : State) (f : LinkSt → LinkSt) (d : Nat) : (s.setLink f).domState d = s.domState d := rfl
@[simp] theorem State.setLink_isOn (s : State) (f : LinkSt → LinkSt) (d : Nat) : (s.setLink f).isOn d = s.isOn d := rfl
@[simp] theorem State.setLink_works (s : State) (f : LinkSt → LinkSt) (d : Nat) : (s.setLink f).works d = s.works d := rfl
@[simp] theorem State.setLink_sess (s : State) (f : LinkSt → LinkSt) (n : Nat) : (s.setLink f).sess n = s.sess n := rfl
@[simp] theorem State.setLink_cellState (s : State) (f : LinkSt → LinkSt) (k : Nat) : (s.setLink f).cellState k = s.cellState k := rfl
@[simp] theorem State.setLink_mtUnits (s : State) (f : LinkSt → LinkSt) : (s.setLink f).mtUnits = s.mtUnits := rfl
@[simp] theorem State.setLink_mtNs (s : State) (f : LinkSt → LinkSt) : (s.setLink f).mtNs = s.mtNs := rfl
@[simp] theorem State.setLink_link (s : State) (f : LinkSt → LinkSt) : (s.setLink f).link = f s.link := rfl

/-! ### setCells -/

@[simp] theorem State.setCells_now (s : State) (f : CellsSt → CellsSt) : (s.setCells f).now = s.now := rfl
@[simp] theorem State.setCells_regs (s : State) (f : CellsSt → CellsSt) : (s.setCells f).regs = s.regs := rfl
@[simp] theorem State.setCells_free (s : State) (f : CellsSt → CellsSt) : (s.setCells f).free = s.free := rfl
@[simp] theorem State.setCells_clk (s : State) (f : CellsSt → CellsSt) : (s.setCells f).clk = s.clk := rfl
@[simp] theorem State.setCells_mgmt (s : State) (f : CellsSt → CellsSt) : (s.setCells f).mgmt = s.mgmt := rfl
@[simp] theorem State.setCells_log (s : State) (f : CellsSt → CellsSt) : (s.setCells f).log = s.log := rfl
@[simp] theorem State.setCells_pwr (s : State) (f : CellsSt → CellsSt) : (s.setCells f).pwr = s.pwr := rfl
@[simp] theorem State.setCells_start (s : State) (f : CellsSt → CellsSt) : (s.setCells f).start = s.start := rfl
@[simp] theorem State.setCells_link (s : State) (f : CellsSt → CellsSt) : (s.setCells f).link = s.link := rfl
@[simp] theorem State.setCells_eng (s : State) (f : CellsSt → CellsSt) : (s.setCells f).eng = s.eng := rfl
@[simp] theorem State.setCells_grid (s : State) (f : CellsSt → CellsSt) : (s.setCells f).grid = s.grid := rfl
@[simp] theorem State.setCells_mppt (s : State) (f : CellsSt → CellsSt) : (s.setCells f).mppt = s.mppt := rfl
@[simp] theorem State.setCells_frt (s : State) (f : CellsSt → CellsSt) : (s.setCells f).frt = s.frt := rfl
@[simp] theorem State.setCells_bus (s : State) (f : CellsSt → CellsSt) : (s.setCells f).bus = s.bus := rfl
@[simp] theorem State.setCells_mtr (s : State) (f : CellsSt → CellsSt) : (s.setCells f).mtr = s.mtr := rfl
@[simp] theorem State.setCells_lanes (s : State) (f : CellsSt → CellsSt) : (s.setCells f).lanes = s.lanes := rfl
@[simp] theorem State.setCells_carafe (s : State) (f : CellsSt → CellsSt) : (s.setCells f).carafe = s.carafe := rfl
@[simp] theorem State.setCells_wear (s : State) (f : CellsSt → CellsSt) : (s.setCells f).wear = s.wear := rfl
@[simp] theorem State.setCells_safe (s : State) (f : CellsSt → CellsSt) : (s.setCells f).safe = s.safe := rfl
@[simp] theorem State.setCells_ana (s : State) (f : CellsSt → CellsSt) : (s.setCells f).ana = s.ana := rfl
@[simp] theorem State.setCells_pour (s : State) (f : CellsSt → CellsSt) : (s.setCells f).pour = s.pour := rfl
@[simp] theorem State.setCells_pins (s : State) (f : CellsSt → CellsSt) : (s.setCells f).pins = s.pins := rfl
@[simp] theorem State.setCells_capAsk (s : State) (f : CellsSt → CellsSt) : (s.setCells f).capAsk = s.capAsk := rfl
@[simp] theorem State.setCells_pending (s : State) (f : CellsSt → CellsSt) : (s.setCells f).pending = s.pending := rfl
@[simp] theorem State.setCells_word (s : State) (f : CellsSt → CellsSt) (r : Reg) : (s.setCells f).word r = s.word r := rfl
@[simp] theorem State.setCells_get (s : State) (f : CellsSt → CellsSt) (f' : Fld) : (s.setCells f).get f' = s.get f' := rfl
@[simp] theorem State.setCells_getS (s : State) (f : CellsSt → CellsSt) (f' : Fld) : (s.setCells f).getS f' = s.getS f' := rfl
@[simp] theorem State.setCells_flag (s : State) (f : CellsSt → CellsSt) (f' : Fld) : (s.setCells f).flag f' = s.flag f' := rfl
@[simp] theorem State.setCells_get64 (s : State) (f : CellsSt → CellsSt) (lo hi : Reg) : (s.setCells f).get64 lo hi = s.get64 lo hi := rfl
@[simp] theorem State.setCells_domState (s : State) (f : CellsSt → CellsSt) (d : Nat) : (s.setCells f).domState d = s.domState d := rfl
@[simp] theorem State.setCells_isOn (s : State) (f : CellsSt → CellsSt) (d : Nat) : (s.setCells f).isOn d = s.isOn d := rfl
@[simp] theorem State.setCells_works (s : State) (f : CellsSt → CellsSt) (d : Nat) : (s.setCells f).works d = s.works d := rfl
@[simp] theorem State.setCells_sess (s : State) (f : CellsSt → CellsSt) (n : Nat) : (s.setCells f).sess n = s.sess n := rfl
@[simp] theorem State.setCells_ring (s : State) (f : CellsSt → CellsSt) (n : Nat) : (s.setCells f).ring n = s.ring n := rfl
@[simp] theorem State.setCells_cellState (s : State) (f : CellsSt → CellsSt) (k : Nat) : (s.setCells f).cellState k = s.cellState k := rfl
@[simp] theorem State.setCells_mtUnits (s : State) (f : CellsSt → CellsSt) : (s.setCells f).mtUnits = s.mtUnits := rfl
@[simp] theorem State.setCells_mtNs (s : State) (f : CellsSt → CellsSt) : (s.setCells f).mtNs = s.mtNs := rfl
@[simp] theorem State.setCells_cells (s : State) (f : CellsSt → CellsSt) : (s.setCells f).cells = f s.cells := rfl

/-! ### setEng -/

@[simp] theorem State.setEng_now (s : State) (f : EngSt → EngSt) : (s.setEng f).now = s.now := rfl
@[simp] theorem State.setEng_regs (s : State) (f : EngSt → EngSt) : (s.setEng f).regs = s.regs := rfl
@[simp] theorem State.setEng_free (s : State) (f : EngSt → EngSt) : (s.setEng f).free = s.free := rfl
@[simp] theorem State.setEng_clk (s : State) (f : EngSt → EngSt) : (s.setEng f).clk = s.clk := rfl
@[simp] theorem State.setEng_mgmt (s : State) (f : EngSt → EngSt) : (s.setEng f).mgmt = s.mgmt := rfl
@[simp] theorem State.setEng_log (s : State) (f : EngSt → EngSt) : (s.setEng f).log = s.log := rfl
@[simp] theorem State.setEng_pwr (s : State) (f : EngSt → EngSt) : (s.setEng f).pwr = s.pwr := rfl
@[simp] theorem State.setEng_start (s : State) (f : EngSt → EngSt) : (s.setEng f).start = s.start := rfl
@[simp] theorem State.setEng_link (s : State) (f : EngSt → EngSt) : (s.setEng f).link = s.link := rfl
@[simp] theorem State.setEng_cells (s : State) (f : EngSt → EngSt) : (s.setEng f).cells = s.cells := rfl
@[simp] theorem State.setEng_grid (s : State) (f : EngSt → EngSt) : (s.setEng f).grid = s.grid := rfl
@[simp] theorem State.setEng_mppt (s : State) (f : EngSt → EngSt) : (s.setEng f).mppt = s.mppt := rfl
@[simp] theorem State.setEng_frt (s : State) (f : EngSt → EngSt) : (s.setEng f).frt = s.frt := rfl
@[simp] theorem State.setEng_bus (s : State) (f : EngSt → EngSt) : (s.setEng f).bus = s.bus := rfl
@[simp] theorem State.setEng_mtr (s : State) (f : EngSt → EngSt) : (s.setEng f).mtr = s.mtr := rfl
@[simp] theorem State.setEng_lanes (s : State) (f : EngSt → EngSt) : (s.setEng f).lanes = s.lanes := rfl
@[simp] theorem State.setEng_carafe (s : State) (f : EngSt → EngSt) : (s.setEng f).carafe = s.carafe := rfl
@[simp] theorem State.setEng_wear (s : State) (f : EngSt → EngSt) : (s.setEng f).wear = s.wear := rfl
@[simp] theorem State.setEng_safe (s : State) (f : EngSt → EngSt) : (s.setEng f).safe = s.safe := rfl
@[simp] theorem State.setEng_ana (s : State) (f : EngSt → EngSt) : (s.setEng f).ana = s.ana := rfl
@[simp] theorem State.setEng_pour (s : State) (f : EngSt → EngSt) : (s.setEng f).pour = s.pour := rfl
@[simp] theorem State.setEng_pins (s : State) (f : EngSt → EngSt) : (s.setEng f).pins = s.pins := rfl
@[simp] theorem State.setEng_capAsk (s : State) (f : EngSt → EngSt) : (s.setEng f).capAsk = s.capAsk := rfl
@[simp] theorem State.setEng_pending (s : State) (f : EngSt → EngSt) : (s.setEng f).pending = s.pending := rfl
@[simp] theorem State.setEng_word (s : State) (f : EngSt → EngSt) (r : Reg) : (s.setEng f).word r = s.word r := rfl
@[simp] theorem State.setEng_get (s : State) (f : EngSt → EngSt) (f' : Fld) : (s.setEng f).get f' = s.get f' := rfl
@[simp] theorem State.setEng_getS (s : State) (f : EngSt → EngSt) (f' : Fld) : (s.setEng f).getS f' = s.getS f' := rfl
@[simp] theorem State.setEng_flag (s : State) (f : EngSt → EngSt) (f' : Fld) : (s.setEng f).flag f' = s.flag f' := rfl
@[simp] theorem State.setEng_get64 (s : State) (f : EngSt → EngSt) (lo hi : Reg) : (s.setEng f).get64 lo hi = s.get64 lo hi := rfl
@[simp] theorem State.setEng_domState (s : State) (f : EngSt → EngSt) (d : Nat) : (s.setEng f).domState d = s.domState d := rfl
@[simp] theorem State.setEng_isOn (s : State) (f : EngSt → EngSt) (d : Nat) : (s.setEng f).isOn d = s.isOn d := rfl
@[simp] theorem State.setEng_works (s : State) (f : EngSt → EngSt) (d : Nat) : (s.setEng f).works d = s.works d := rfl
@[simp] theorem State.setEng_sess (s : State) (f : EngSt → EngSt) (n : Nat) : (s.setEng f).sess n = s.sess n := rfl
@[simp] theorem State.setEng_ring (s : State) (f : EngSt → EngSt) (n : Nat) : (s.setEng f).ring n = s.ring n := rfl
@[simp] theorem State.setEng_cellState (s : State) (f : EngSt → EngSt) (k : Nat) : (s.setEng f).cellState k = s.cellState k := rfl
@[simp] theorem State.setEng_mtUnits (s : State) (f : EngSt → EngSt) : (s.setEng f).mtUnits = s.mtUnits := rfl
@[simp] theorem State.setEng_mtNs (s : State) (f : EngSt → EngSt) : (s.setEng f).mtNs = s.mtNs := rfl
@[simp] theorem State.setEng_eng (s : State) (f : EngSt → EngSt) : (s.setEng f).eng = f s.eng := rfl

/-! ### setGrid -/

@[simp] theorem State.setGrid_now (s : State) (f : GridSt → GridSt) : (s.setGrid f).now = s.now := rfl
@[simp] theorem State.setGrid_regs (s : State) (f : GridSt → GridSt) : (s.setGrid f).regs = s.regs := rfl
@[simp] theorem State.setGrid_free (s : State) (f : GridSt → GridSt) : (s.setGrid f).free = s.free := rfl
@[simp] theorem State.setGrid_clk (s : State) (f : GridSt → GridSt) : (s.setGrid f).clk = s.clk := rfl
@[simp] theorem State.setGrid_mgmt (s : State) (f : GridSt → GridSt) : (s.setGrid f).mgmt = s.mgmt := rfl
@[simp] theorem State.setGrid_log (s : State) (f : GridSt → GridSt) : (s.setGrid f).log = s.log := rfl
@[simp] theorem State.setGrid_pwr (s : State) (f : GridSt → GridSt) : (s.setGrid f).pwr = s.pwr := rfl
@[simp] theorem State.setGrid_start (s : State) (f : GridSt → GridSt) : (s.setGrid f).start = s.start := rfl
@[simp] theorem State.setGrid_link (s : State) (f : GridSt → GridSt) : (s.setGrid f).link = s.link := rfl
@[simp] theorem State.setGrid_cells (s : State) (f : GridSt → GridSt) : (s.setGrid f).cells = s.cells := rfl
@[simp] theorem State.setGrid_eng (s : State) (f : GridSt → GridSt) : (s.setGrid f).eng = s.eng := rfl
@[simp] theorem State.setGrid_mppt (s : State) (f : GridSt → GridSt) : (s.setGrid f).mppt = s.mppt := rfl
@[simp] theorem State.setGrid_frt (s : State) (f : GridSt → GridSt) : (s.setGrid f).frt = s.frt := rfl
@[simp] theorem State.setGrid_bus (s : State) (f : GridSt → GridSt) : (s.setGrid f).bus = s.bus := rfl
@[simp] theorem State.setGrid_mtr (s : State) (f : GridSt → GridSt) : (s.setGrid f).mtr = s.mtr := rfl
@[simp] theorem State.setGrid_lanes (s : State) (f : GridSt → GridSt) : (s.setGrid f).lanes = s.lanes := rfl
@[simp] theorem State.setGrid_carafe (s : State) (f : GridSt → GridSt) : (s.setGrid f).carafe = s.carafe := rfl
@[simp] theorem State.setGrid_wear (s : State) (f : GridSt → GridSt) : (s.setGrid f).wear = s.wear := rfl
@[simp] theorem State.setGrid_safe (s : State) (f : GridSt → GridSt) : (s.setGrid f).safe = s.safe := rfl
@[simp] theorem State.setGrid_ana (s : State) (f : GridSt → GridSt) : (s.setGrid f).ana = s.ana := rfl
@[simp] theorem State.setGrid_pour (s : State) (f : GridSt → GridSt) : (s.setGrid f).pour = s.pour := rfl
@[simp] theorem State.setGrid_pins (s : State) (f : GridSt → GridSt) : (s.setGrid f).pins = s.pins := rfl
@[simp] theorem State.setGrid_capAsk (s : State) (f : GridSt → GridSt) : (s.setGrid f).capAsk = s.capAsk := rfl
@[simp] theorem State.setGrid_pending (s : State) (f : GridSt → GridSt) : (s.setGrid f).pending = s.pending := rfl
@[simp] theorem State.setGrid_word (s : State) (f : GridSt → GridSt) (r : Reg) : (s.setGrid f).word r = s.word r := rfl
@[simp] theorem State.setGrid_get (s : State) (f : GridSt → GridSt) (f' : Fld) : (s.setGrid f).get f' = s.get f' := rfl
@[simp] theorem State.setGrid_getS (s : State) (f : GridSt → GridSt) (f' : Fld) : (s.setGrid f).getS f' = s.getS f' := rfl
@[simp] theorem State.setGrid_flag (s : State) (f : GridSt → GridSt) (f' : Fld) : (s.setGrid f).flag f' = s.flag f' := rfl
@[simp] theorem State.setGrid_get64 (s : State) (f : GridSt → GridSt) (lo hi : Reg) : (s.setGrid f).get64 lo hi = s.get64 lo hi := rfl
@[simp] theorem State.setGrid_domState (s : State) (f : GridSt → GridSt) (d : Nat) : (s.setGrid f).domState d = s.domState d := rfl
@[simp] theorem State.setGrid_isOn (s : State) (f : GridSt → GridSt) (d : Nat) : (s.setGrid f).isOn d = s.isOn d := rfl
@[simp] theorem State.setGrid_works (s : State) (f : GridSt → GridSt) (d : Nat) : (s.setGrid f).works d = s.works d := rfl
@[simp] theorem State.setGrid_sess (s : State) (f : GridSt → GridSt) (n : Nat) : (s.setGrid f).sess n = s.sess n := rfl
@[simp] theorem State.setGrid_ring (s : State) (f : GridSt → GridSt) (n : Nat) : (s.setGrid f).ring n = s.ring n := rfl
@[simp] theorem State.setGrid_cellState (s : State) (f : GridSt → GridSt) (k : Nat) : (s.setGrid f).cellState k = s.cellState k := rfl
@[simp] theorem State.setGrid_mtUnits (s : State) (f : GridSt → GridSt) : (s.setGrid f).mtUnits = s.mtUnits := rfl
@[simp] theorem State.setGrid_mtNs (s : State) (f : GridSt → GridSt) : (s.setGrid f).mtNs = s.mtNs := rfl
@[simp] theorem State.setGrid_grid (s : State) (f : GridSt → GridSt) : (s.setGrid f).grid = f s.grid := rfl

/-! ### setMppt -/

@[simp] theorem State.setMppt_now (s : State) (f : MpptSt → MpptSt) : (s.setMppt f).now = s.now := rfl
@[simp] theorem State.setMppt_regs (s : State) (f : MpptSt → MpptSt) : (s.setMppt f).regs = s.regs := rfl
@[simp] theorem State.setMppt_free (s : State) (f : MpptSt → MpptSt) : (s.setMppt f).free = s.free := rfl
@[simp] theorem State.setMppt_clk (s : State) (f : MpptSt → MpptSt) : (s.setMppt f).clk = s.clk := rfl
@[simp] theorem State.setMppt_mgmt (s : State) (f : MpptSt → MpptSt) : (s.setMppt f).mgmt = s.mgmt := rfl
@[simp] theorem State.setMppt_log (s : State) (f : MpptSt → MpptSt) : (s.setMppt f).log = s.log := rfl
@[simp] theorem State.setMppt_pwr (s : State) (f : MpptSt → MpptSt) : (s.setMppt f).pwr = s.pwr := rfl
@[simp] theorem State.setMppt_start (s : State) (f : MpptSt → MpptSt) : (s.setMppt f).start = s.start := rfl
@[simp] theorem State.setMppt_link (s : State) (f : MpptSt → MpptSt) : (s.setMppt f).link = s.link := rfl
@[simp] theorem State.setMppt_cells (s : State) (f : MpptSt → MpptSt) : (s.setMppt f).cells = s.cells := rfl
@[simp] theorem State.setMppt_eng (s : State) (f : MpptSt → MpptSt) : (s.setMppt f).eng = s.eng := rfl
@[simp] theorem State.setMppt_grid (s : State) (f : MpptSt → MpptSt) : (s.setMppt f).grid = s.grid := rfl
@[simp] theorem State.setMppt_frt (s : State) (f : MpptSt → MpptSt) : (s.setMppt f).frt = s.frt := rfl
@[simp] theorem State.setMppt_bus (s : State) (f : MpptSt → MpptSt) : (s.setMppt f).bus = s.bus := rfl
@[simp] theorem State.setMppt_mtr (s : State) (f : MpptSt → MpptSt) : (s.setMppt f).mtr = s.mtr := rfl
@[simp] theorem State.setMppt_lanes (s : State) (f : MpptSt → MpptSt) : (s.setMppt f).lanes = s.lanes := rfl
@[simp] theorem State.setMppt_carafe (s : State) (f : MpptSt → MpptSt) : (s.setMppt f).carafe = s.carafe := rfl
@[simp] theorem State.setMppt_wear (s : State) (f : MpptSt → MpptSt) : (s.setMppt f).wear = s.wear := rfl
@[simp] theorem State.setMppt_safe (s : State) (f : MpptSt → MpptSt) : (s.setMppt f).safe = s.safe := rfl
@[simp] theorem State.setMppt_ana (s : State) (f : MpptSt → MpptSt) : (s.setMppt f).ana = s.ana := rfl
@[simp] theorem State.setMppt_pour (s : State) (f : MpptSt → MpptSt) : (s.setMppt f).pour = s.pour := rfl
@[simp] theorem State.setMppt_pins (s : State) (f : MpptSt → MpptSt) : (s.setMppt f).pins = s.pins := rfl
@[simp] theorem State.setMppt_capAsk (s : State) (f : MpptSt → MpptSt) : (s.setMppt f).capAsk = s.capAsk := rfl
@[simp] theorem State.setMppt_pending (s : State) (f : MpptSt → MpptSt) : (s.setMppt f).pending = s.pending := rfl
@[simp] theorem State.setMppt_word (s : State) (f : MpptSt → MpptSt) (r : Reg) : (s.setMppt f).word r = s.word r := rfl
@[simp] theorem State.setMppt_get (s : State) (f : MpptSt → MpptSt) (f' : Fld) : (s.setMppt f).get f' = s.get f' := rfl
@[simp] theorem State.setMppt_getS (s : State) (f : MpptSt → MpptSt) (f' : Fld) : (s.setMppt f).getS f' = s.getS f' := rfl
@[simp] theorem State.setMppt_flag (s : State) (f : MpptSt → MpptSt) (f' : Fld) : (s.setMppt f).flag f' = s.flag f' := rfl
@[simp] theorem State.setMppt_get64 (s : State) (f : MpptSt → MpptSt) (lo hi : Reg) : (s.setMppt f).get64 lo hi = s.get64 lo hi := rfl
@[simp] theorem State.setMppt_domState (s : State) (f : MpptSt → MpptSt) (d : Nat) : (s.setMppt f).domState d = s.domState d := rfl
@[simp] theorem State.setMppt_isOn (s : State) (f : MpptSt → MpptSt) (d : Nat) : (s.setMppt f).isOn d = s.isOn d := rfl
@[simp] theorem State.setMppt_works (s : State) (f : MpptSt → MpptSt) (d : Nat) : (s.setMppt f).works d = s.works d := rfl
@[simp] theorem State.setMppt_sess (s : State) (f : MpptSt → MpptSt) (n : Nat) : (s.setMppt f).sess n = s.sess n := rfl
@[simp] theorem State.setMppt_ring (s : State) (f : MpptSt → MpptSt) (n : Nat) : (s.setMppt f).ring n = s.ring n := rfl
@[simp] theorem State.setMppt_cellState (s : State) (f : MpptSt → MpptSt) (k : Nat) : (s.setMppt f).cellState k = s.cellState k := rfl
@[simp] theorem State.setMppt_mtUnits (s : State) (f : MpptSt → MpptSt) : (s.setMppt f).mtUnits = s.mtUnits := rfl
@[simp] theorem State.setMppt_mtNs (s : State) (f : MpptSt → MpptSt) : (s.setMppt f).mtNs = s.mtNs := rfl
@[simp] theorem State.setMppt_mppt (s : State) (f : MpptSt → MpptSt) : (s.setMppt f).mppt = f s.mppt := rfl

/-! ### setFrt -/

@[simp] theorem State.setFrt_now (s : State) (f : FrtSt → FrtSt) : (s.setFrt f).now = s.now := rfl
@[simp] theorem State.setFrt_regs (s : State) (f : FrtSt → FrtSt) : (s.setFrt f).regs = s.regs := rfl
@[simp] theorem State.setFrt_free (s : State) (f : FrtSt → FrtSt) : (s.setFrt f).free = s.free := rfl
@[simp] theorem State.setFrt_clk (s : State) (f : FrtSt → FrtSt) : (s.setFrt f).clk = s.clk := rfl
@[simp] theorem State.setFrt_mgmt (s : State) (f : FrtSt → FrtSt) : (s.setFrt f).mgmt = s.mgmt := rfl
@[simp] theorem State.setFrt_log (s : State) (f : FrtSt → FrtSt) : (s.setFrt f).log = s.log := rfl
@[simp] theorem State.setFrt_pwr (s : State) (f : FrtSt → FrtSt) : (s.setFrt f).pwr = s.pwr := rfl
@[simp] theorem State.setFrt_start (s : State) (f : FrtSt → FrtSt) : (s.setFrt f).start = s.start := rfl
@[simp] theorem State.setFrt_link (s : State) (f : FrtSt → FrtSt) : (s.setFrt f).link = s.link := rfl
@[simp] theorem State.setFrt_cells (s : State) (f : FrtSt → FrtSt) : (s.setFrt f).cells = s.cells := rfl
@[simp] theorem State.setFrt_eng (s : State) (f : FrtSt → FrtSt) : (s.setFrt f).eng = s.eng := rfl
@[simp] theorem State.setFrt_grid (s : State) (f : FrtSt → FrtSt) : (s.setFrt f).grid = s.grid := rfl
@[simp] theorem State.setFrt_mppt (s : State) (f : FrtSt → FrtSt) : (s.setFrt f).mppt = s.mppt := rfl
@[simp] theorem State.setFrt_bus (s : State) (f : FrtSt → FrtSt) : (s.setFrt f).bus = s.bus := rfl
@[simp] theorem State.setFrt_mtr (s : State) (f : FrtSt → FrtSt) : (s.setFrt f).mtr = s.mtr := rfl
@[simp] theorem State.setFrt_lanes (s : State) (f : FrtSt → FrtSt) : (s.setFrt f).lanes = s.lanes := rfl
@[simp] theorem State.setFrt_carafe (s : State) (f : FrtSt → FrtSt) : (s.setFrt f).carafe = s.carafe := rfl
@[simp] theorem State.setFrt_wear (s : State) (f : FrtSt → FrtSt) : (s.setFrt f).wear = s.wear := rfl
@[simp] theorem State.setFrt_safe (s : State) (f : FrtSt → FrtSt) : (s.setFrt f).safe = s.safe := rfl
@[simp] theorem State.setFrt_ana (s : State) (f : FrtSt → FrtSt) : (s.setFrt f).ana = s.ana := rfl
@[simp] theorem State.setFrt_pour (s : State) (f : FrtSt → FrtSt) : (s.setFrt f).pour = s.pour := rfl
@[simp] theorem State.setFrt_pins (s : State) (f : FrtSt → FrtSt) : (s.setFrt f).pins = s.pins := rfl
@[simp] theorem State.setFrt_capAsk (s : State) (f : FrtSt → FrtSt) : (s.setFrt f).capAsk = s.capAsk := rfl
@[simp] theorem State.setFrt_pending (s : State) (f : FrtSt → FrtSt) : (s.setFrt f).pending = s.pending := rfl
@[simp] theorem State.setFrt_word (s : State) (f : FrtSt → FrtSt) (r : Reg) : (s.setFrt f).word r = s.word r := rfl
@[simp] theorem State.setFrt_get (s : State) (f : FrtSt → FrtSt) (f' : Fld) : (s.setFrt f).get f' = s.get f' := rfl
@[simp] theorem State.setFrt_getS (s : State) (f : FrtSt → FrtSt) (f' : Fld) : (s.setFrt f).getS f' = s.getS f' := rfl
@[simp] theorem State.setFrt_flag (s : State) (f : FrtSt → FrtSt) (f' : Fld) : (s.setFrt f).flag f' = s.flag f' := rfl
@[simp] theorem State.setFrt_get64 (s : State) (f : FrtSt → FrtSt) (lo hi : Reg) : (s.setFrt f).get64 lo hi = s.get64 lo hi := rfl
@[simp] theorem State.setFrt_domState (s : State) (f : FrtSt → FrtSt) (d : Nat) : (s.setFrt f).domState d = s.domState d := rfl
@[simp] theorem State.setFrt_isOn (s : State) (f : FrtSt → FrtSt) (d : Nat) : (s.setFrt f).isOn d = s.isOn d := rfl
@[simp] theorem State.setFrt_works (s : State) (f : FrtSt → FrtSt) (d : Nat) : (s.setFrt f).works d = s.works d := rfl
@[simp] theorem State.setFrt_sess (s : State) (f : FrtSt → FrtSt) (n : Nat) : (s.setFrt f).sess n = s.sess n := rfl
@[simp] theorem State.setFrt_ring (s : State) (f : FrtSt → FrtSt) (n : Nat) : (s.setFrt f).ring n = s.ring n := rfl
@[simp] theorem State.setFrt_cellState (s : State) (f : FrtSt → FrtSt) (k : Nat) : (s.setFrt f).cellState k = s.cellState k := rfl
@[simp] theorem State.setFrt_mtUnits (s : State) (f : FrtSt → FrtSt) : (s.setFrt f).mtUnits = s.mtUnits := rfl
@[simp] theorem State.setFrt_mtNs (s : State) (f : FrtSt → FrtSt) : (s.setFrt f).mtNs = s.mtNs := rfl
@[simp] theorem State.setFrt_frt (s : State) (f : FrtSt → FrtSt) : (s.setFrt f).frt = f s.frt := rfl

/-! ### setBus -/

@[simp] theorem State.setBus_now (s : State) (f : BusSt → BusSt) : (s.setBus f).now = s.now := rfl
@[simp] theorem State.setBus_regs (s : State) (f : BusSt → BusSt) : (s.setBus f).regs = s.regs := rfl
@[simp] theorem State.setBus_free (s : State) (f : BusSt → BusSt) : (s.setBus f).free = s.free := rfl
@[simp] theorem State.setBus_clk (s : State) (f : BusSt → BusSt) : (s.setBus f).clk = s.clk := rfl
@[simp] theorem State.setBus_mgmt (s : State) (f : BusSt → BusSt) : (s.setBus f).mgmt = s.mgmt := rfl
@[simp] theorem State.setBus_log (s : State) (f : BusSt → BusSt) : (s.setBus f).log = s.log := rfl
@[simp] theorem State.setBus_pwr (s : State) (f : BusSt → BusSt) : (s.setBus f).pwr = s.pwr := rfl
@[simp] theorem State.setBus_start (s : State) (f : BusSt → BusSt) : (s.setBus f).start = s.start := rfl
@[simp] theorem State.setBus_link (s : State) (f : BusSt → BusSt) : (s.setBus f).link = s.link := rfl
@[simp] theorem State.setBus_cells (s : State) (f : BusSt → BusSt) : (s.setBus f).cells = s.cells := rfl
@[simp] theorem State.setBus_eng (s : State) (f : BusSt → BusSt) : (s.setBus f).eng = s.eng := rfl
@[simp] theorem State.setBus_grid (s : State) (f : BusSt → BusSt) : (s.setBus f).grid = s.grid := rfl
@[simp] theorem State.setBus_mppt (s : State) (f : BusSt → BusSt) : (s.setBus f).mppt = s.mppt := rfl
@[simp] theorem State.setBus_frt (s : State) (f : BusSt → BusSt) : (s.setBus f).frt = s.frt := rfl
@[simp] theorem State.setBus_mtr (s : State) (f : BusSt → BusSt) : (s.setBus f).mtr = s.mtr := rfl
@[simp] theorem State.setBus_lanes (s : State) (f : BusSt → BusSt) : (s.setBus f).lanes = s.lanes := rfl
@[simp] theorem State.setBus_carafe (s : State) (f : BusSt → BusSt) : (s.setBus f).carafe = s.carafe := rfl
@[simp] theorem State.setBus_wear (s : State) (f : BusSt → BusSt) : (s.setBus f).wear = s.wear := rfl
@[simp] theorem State.setBus_safe (s : State) (f : BusSt → BusSt) : (s.setBus f).safe = s.safe := rfl
@[simp] theorem State.setBus_ana (s : State) (f : BusSt → BusSt) : (s.setBus f).ana = s.ana := rfl
@[simp] theorem State.setBus_pour (s : State) (f : BusSt → BusSt) : (s.setBus f).pour = s.pour := rfl
@[simp] theorem State.setBus_pins (s : State) (f : BusSt → BusSt) : (s.setBus f).pins = s.pins := rfl
@[simp] theorem State.setBus_capAsk (s : State) (f : BusSt → BusSt) : (s.setBus f).capAsk = s.capAsk := rfl
@[simp] theorem State.setBus_pending (s : State) (f : BusSt → BusSt) : (s.setBus f).pending = s.pending := rfl
@[simp] theorem State.setBus_word (s : State) (f : BusSt → BusSt) (r : Reg) : (s.setBus f).word r = s.word r := rfl
@[simp] theorem State.setBus_get (s : State) (f : BusSt → BusSt) (f' : Fld) : (s.setBus f).get f' = s.get f' := rfl
@[simp] theorem State.setBus_getS (s : State) (f : BusSt → BusSt) (f' : Fld) : (s.setBus f).getS f' = s.getS f' := rfl
@[simp] theorem State.setBus_flag (s : State) (f : BusSt → BusSt) (f' : Fld) : (s.setBus f).flag f' = s.flag f' := rfl
@[simp] theorem State.setBus_get64 (s : State) (f : BusSt → BusSt) (lo hi : Reg) : (s.setBus f).get64 lo hi = s.get64 lo hi := rfl
@[simp] theorem State.setBus_domState (s : State) (f : BusSt → BusSt) (d : Nat) : (s.setBus f).domState d = s.domState d := rfl
@[simp] theorem State.setBus_isOn (s : State) (f : BusSt → BusSt) (d : Nat) : (s.setBus f).isOn d = s.isOn d := rfl
@[simp] theorem State.setBus_works (s : State) (f : BusSt → BusSt) (d : Nat) : (s.setBus f).works d = s.works d := rfl
@[simp] theorem State.setBus_sess (s : State) (f : BusSt → BusSt) (n : Nat) : (s.setBus f).sess n = s.sess n := rfl
@[simp] theorem State.setBus_ring (s : State) (f : BusSt → BusSt) (n : Nat) : (s.setBus f).ring n = s.ring n := rfl
@[simp] theorem State.setBus_cellState (s : State) (f : BusSt → BusSt) (k : Nat) : (s.setBus f).cellState k = s.cellState k := rfl
@[simp] theorem State.setBus_mtUnits (s : State) (f : BusSt → BusSt) : (s.setBus f).mtUnits = s.mtUnits := rfl
@[simp] theorem State.setBus_mtNs (s : State) (f : BusSt → BusSt) : (s.setBus f).mtNs = s.mtNs := rfl
@[simp] theorem State.setBus_bus (s : State) (f : BusSt → BusSt) : (s.setBus f).bus = f s.bus := rfl

/-! ### setMtr -/

@[simp] theorem State.setMtr_now (s : State) (f : MtrSt → MtrSt) : (s.setMtr f).now = s.now := rfl
@[simp] theorem State.setMtr_regs (s : State) (f : MtrSt → MtrSt) : (s.setMtr f).regs = s.regs := rfl
@[simp] theorem State.setMtr_free (s : State) (f : MtrSt → MtrSt) : (s.setMtr f).free = s.free := rfl
@[simp] theorem State.setMtr_clk (s : State) (f : MtrSt → MtrSt) : (s.setMtr f).clk = s.clk := rfl
@[simp] theorem State.setMtr_mgmt (s : State) (f : MtrSt → MtrSt) : (s.setMtr f).mgmt = s.mgmt := rfl
@[simp] theorem State.setMtr_log (s : State) (f : MtrSt → MtrSt) : (s.setMtr f).log = s.log := rfl
@[simp] theorem State.setMtr_pwr (s : State) (f : MtrSt → MtrSt) : (s.setMtr f).pwr = s.pwr := rfl
@[simp] theorem State.setMtr_start (s : State) (f : MtrSt → MtrSt) : (s.setMtr f).start = s.start := rfl
@[simp] theorem State.setMtr_link (s : State) (f : MtrSt → MtrSt) : (s.setMtr f).link = s.link := rfl
@[simp] theorem State.setMtr_cells (s : State) (f : MtrSt → MtrSt) : (s.setMtr f).cells = s.cells := rfl
@[simp] theorem State.setMtr_eng (s : State) (f : MtrSt → MtrSt) : (s.setMtr f).eng = s.eng := rfl
@[simp] theorem State.setMtr_grid (s : State) (f : MtrSt → MtrSt) : (s.setMtr f).grid = s.grid := rfl
@[simp] theorem State.setMtr_mppt (s : State) (f : MtrSt → MtrSt) : (s.setMtr f).mppt = s.mppt := rfl
@[simp] theorem State.setMtr_frt (s : State) (f : MtrSt → MtrSt) : (s.setMtr f).frt = s.frt := rfl
@[simp] theorem State.setMtr_bus (s : State) (f : MtrSt → MtrSt) : (s.setMtr f).bus = s.bus := rfl
@[simp] theorem State.setMtr_lanes (s : State) (f : MtrSt → MtrSt) : (s.setMtr f).lanes = s.lanes := rfl
@[simp] theorem State.setMtr_carafe (s : State) (f : MtrSt → MtrSt) : (s.setMtr f).carafe = s.carafe := rfl
@[simp] theorem State.setMtr_wear (s : State) (f : MtrSt → MtrSt) : (s.setMtr f).wear = s.wear := rfl
@[simp] theorem State.setMtr_safe (s : State) (f : MtrSt → MtrSt) : (s.setMtr f).safe = s.safe := rfl
@[simp] theorem State.setMtr_ana (s : State) (f : MtrSt → MtrSt) : (s.setMtr f).ana = s.ana := rfl
@[simp] theorem State.setMtr_pour (s : State) (f : MtrSt → MtrSt) : (s.setMtr f).pour = s.pour := rfl
@[simp] theorem State.setMtr_pins (s : State) (f : MtrSt → MtrSt) : (s.setMtr f).pins = s.pins := rfl
@[simp] theorem State.setMtr_capAsk (s : State) (f : MtrSt → MtrSt) : (s.setMtr f).capAsk = s.capAsk := rfl
@[simp] theorem State.setMtr_pending (s : State) (f : MtrSt → MtrSt) : (s.setMtr f).pending = s.pending := rfl
@[simp] theorem State.setMtr_word (s : State) (f : MtrSt → MtrSt) (r : Reg) : (s.setMtr f).word r = s.word r := rfl
@[simp] theorem State.setMtr_get (s : State) (f : MtrSt → MtrSt) (f' : Fld) : (s.setMtr f).get f' = s.get f' := rfl
@[simp] theorem State.setMtr_getS (s : State) (f : MtrSt → MtrSt) (f' : Fld) : (s.setMtr f).getS f' = s.getS f' := rfl
@[simp] theorem State.setMtr_flag (s : State) (f : MtrSt → MtrSt) (f' : Fld) : (s.setMtr f).flag f' = s.flag f' := rfl
@[simp] theorem State.setMtr_get64 (s : State) (f : MtrSt → MtrSt) (lo hi : Reg) : (s.setMtr f).get64 lo hi = s.get64 lo hi := rfl
@[simp] theorem State.setMtr_domState (s : State) (f : MtrSt → MtrSt) (d : Nat) : (s.setMtr f).domState d = s.domState d := rfl
@[simp] theorem State.setMtr_isOn (s : State) (f : MtrSt → MtrSt) (d : Nat) : (s.setMtr f).isOn d = s.isOn d := rfl
@[simp] theorem State.setMtr_works (s : State) (f : MtrSt → MtrSt) (d : Nat) : (s.setMtr f).works d = s.works d := rfl
@[simp] theorem State.setMtr_sess (s : State) (f : MtrSt → MtrSt) (n : Nat) : (s.setMtr f).sess n = s.sess n := rfl
@[simp] theorem State.setMtr_ring (s : State) (f : MtrSt → MtrSt) (n : Nat) : (s.setMtr f).ring n = s.ring n := rfl
@[simp] theorem State.setMtr_cellState (s : State) (f : MtrSt → MtrSt) (k : Nat) : (s.setMtr f).cellState k = s.cellState k := rfl
@[simp] theorem State.setMtr_mtUnits (s : State) (f : MtrSt → MtrSt) : (s.setMtr f).mtUnits = s.mtUnits := rfl
@[simp] theorem State.setMtr_mtNs (s : State) (f : MtrSt → MtrSt) : (s.setMtr f).mtNs = s.mtNs := rfl
@[simp] theorem State.setMtr_mtr (s : State) (f : MtrSt → MtrSt) : (s.setMtr f).mtr = f s.mtr := rfl

/-! ### setLanes -/

@[simp] theorem State.setLanes_now (s : State) (f : LanesSt → LanesSt) : (s.setLanes f).now = s.now := rfl
@[simp] theorem State.setLanes_regs (s : State) (f : LanesSt → LanesSt) : (s.setLanes f).regs = s.regs := rfl
@[simp] theorem State.setLanes_free (s : State) (f : LanesSt → LanesSt) : (s.setLanes f).free = s.free := rfl
@[simp] theorem State.setLanes_clk (s : State) (f : LanesSt → LanesSt) : (s.setLanes f).clk = s.clk := rfl
@[simp] theorem State.setLanes_mgmt (s : State) (f : LanesSt → LanesSt) : (s.setLanes f).mgmt = s.mgmt := rfl
@[simp] theorem State.setLanes_log (s : State) (f : LanesSt → LanesSt) : (s.setLanes f).log = s.log := rfl
@[simp] theorem State.setLanes_pwr (s : State) (f : LanesSt → LanesSt) : (s.setLanes f).pwr = s.pwr := rfl
@[simp] theorem State.setLanes_start (s : State) (f : LanesSt → LanesSt) : (s.setLanes f).start = s.start := rfl
@[simp] theorem State.setLanes_link (s : State) (f : LanesSt → LanesSt) : (s.setLanes f).link = s.link := rfl
@[simp] theorem State.setLanes_cells (s : State) (f : LanesSt → LanesSt) : (s.setLanes f).cells = s.cells := rfl
@[simp] theorem State.setLanes_eng (s : State) (f : LanesSt → LanesSt) : (s.setLanes f).eng = s.eng := rfl
@[simp] theorem State.setLanes_grid (s : State) (f : LanesSt → LanesSt) : (s.setLanes f).grid = s.grid := rfl
@[simp] theorem State.setLanes_mppt (s : State) (f : LanesSt → LanesSt) : (s.setLanes f).mppt = s.mppt := rfl
@[simp] theorem State.setLanes_frt (s : State) (f : LanesSt → LanesSt) : (s.setLanes f).frt = s.frt := rfl
@[simp] theorem State.setLanes_bus (s : State) (f : LanesSt → LanesSt) : (s.setLanes f).bus = s.bus := rfl
@[simp] theorem State.setLanes_mtr (s : State) (f : LanesSt → LanesSt) : (s.setLanes f).mtr = s.mtr := rfl
@[simp] theorem State.setLanes_carafe (s : State) (f : LanesSt → LanesSt) : (s.setLanes f).carafe = s.carafe := rfl
@[simp] theorem State.setLanes_wear (s : State) (f : LanesSt → LanesSt) : (s.setLanes f).wear = s.wear := rfl
@[simp] theorem State.setLanes_safe (s : State) (f : LanesSt → LanesSt) : (s.setLanes f).safe = s.safe := rfl
@[simp] theorem State.setLanes_ana (s : State) (f : LanesSt → LanesSt) : (s.setLanes f).ana = s.ana := rfl
@[simp] theorem State.setLanes_pour (s : State) (f : LanesSt → LanesSt) : (s.setLanes f).pour = s.pour := rfl
@[simp] theorem State.setLanes_pins (s : State) (f : LanesSt → LanesSt) : (s.setLanes f).pins = s.pins := rfl
@[simp] theorem State.setLanes_capAsk (s : State) (f : LanesSt → LanesSt) : (s.setLanes f).capAsk = s.capAsk := rfl
@[simp] theorem State.setLanes_pending (s : State) (f : LanesSt → LanesSt) : (s.setLanes f).pending = s.pending := rfl
@[simp] theorem State.setLanes_word (s : State) (f : LanesSt → LanesSt) (r : Reg) : (s.setLanes f).word r = s.word r := rfl
@[simp] theorem State.setLanes_get (s : State) (f : LanesSt → LanesSt) (f' : Fld) : (s.setLanes f).get f' = s.get f' := rfl
@[simp] theorem State.setLanes_getS (s : State) (f : LanesSt → LanesSt) (f' : Fld) : (s.setLanes f).getS f' = s.getS f' := rfl
@[simp] theorem State.setLanes_flag (s : State) (f : LanesSt → LanesSt) (f' : Fld) : (s.setLanes f).flag f' = s.flag f' := rfl
@[simp] theorem State.setLanes_get64 (s : State) (f : LanesSt → LanesSt) (lo hi : Reg) : (s.setLanes f).get64 lo hi = s.get64 lo hi := rfl
@[simp] theorem State.setLanes_domState (s : State) (f : LanesSt → LanesSt) (d : Nat) : (s.setLanes f).domState d = s.domState d := rfl
@[simp] theorem State.setLanes_isOn (s : State) (f : LanesSt → LanesSt) (d : Nat) : (s.setLanes f).isOn d = s.isOn d := rfl
@[simp] theorem State.setLanes_works (s : State) (f : LanesSt → LanesSt) (d : Nat) : (s.setLanes f).works d = s.works d := rfl
@[simp] theorem State.setLanes_sess (s : State) (f : LanesSt → LanesSt) (n : Nat) : (s.setLanes f).sess n = s.sess n := rfl
@[simp] theorem State.setLanes_ring (s : State) (f : LanesSt → LanesSt) (n : Nat) : (s.setLanes f).ring n = s.ring n := rfl
@[simp] theorem State.setLanes_cellState (s : State) (f : LanesSt → LanesSt) (k : Nat) : (s.setLanes f).cellState k = s.cellState k := rfl
@[simp] theorem State.setLanes_mtUnits (s : State) (f : LanesSt → LanesSt) : (s.setLanes f).mtUnits = s.mtUnits := rfl
@[simp] theorem State.setLanes_mtNs (s : State) (f : LanesSt → LanesSt) : (s.setLanes f).mtNs = s.mtNs := rfl
@[simp] theorem State.setLanes_lanes (s : State) (f : LanesSt → LanesSt) : (s.setLanes f).lanes = f s.lanes := rfl

/-! ### setRec -/

@[simp] theorem State.setRec_now (s : State) (f : RecSt → RecSt) : (s.setRec f).now = s.now := rfl
@[simp] theorem State.setRec_regs (s : State) (f : RecSt → RecSt) : (s.setRec f).regs = s.regs := rfl
@[simp] theorem State.setRec_free (s : State) (f : RecSt → RecSt) : (s.setRec f).free = s.free := rfl
@[simp] theorem State.setRec_clk (s : State) (f : RecSt → RecSt) : (s.setRec f).clk = s.clk := rfl
@[simp] theorem State.setRec_mgmt (s : State) (f : RecSt → RecSt) : (s.setRec f).mgmt = s.mgmt := rfl
@[simp] theorem State.setRec_log (s : State) (f : RecSt → RecSt) : (s.setRec f).log = s.log := rfl
@[simp] theorem State.setRec_pwr (s : State) (f : RecSt → RecSt) : (s.setRec f).pwr = s.pwr := rfl
@[simp] theorem State.setRec_start (s : State) (f : RecSt → RecSt) : (s.setRec f).start = s.start := rfl
@[simp] theorem State.setRec_link (s : State) (f : RecSt → RecSt) : (s.setRec f).link = s.link := rfl
@[simp] theorem State.setRec_cells (s : State) (f : RecSt → RecSt) : (s.setRec f).cells = s.cells := rfl
@[simp] theorem State.setRec_eng (s : State) (f : RecSt → RecSt) : (s.setRec f).eng = s.eng := rfl
@[simp] theorem State.setRec_grid (s : State) (f : RecSt → RecSt) : (s.setRec f).grid = s.grid := rfl
@[simp] theorem State.setRec_mppt (s : State) (f : RecSt → RecSt) : (s.setRec f).mppt = s.mppt := rfl
@[simp] theorem State.setRec_frt (s : State) (f : RecSt → RecSt) : (s.setRec f).frt = s.frt := rfl
@[simp] theorem State.setRec_bus (s : State) (f : RecSt → RecSt) : (s.setRec f).bus = s.bus := rfl
@[simp] theorem State.setRec_mtr (s : State) (f : RecSt → RecSt) : (s.setRec f).mtr = s.mtr := rfl
@[simp] theorem State.setRec_lanes (s : State) (f : RecSt → RecSt) : (s.setRec f).lanes = s.lanes := rfl
@[simp] theorem State.setRec_wear (s : State) (f : RecSt → RecSt) : (s.setRec f).wear = s.wear := rfl
@[simp] theorem State.setRec_safe (s : State) (f : RecSt → RecSt) : (s.setRec f).safe = s.safe := rfl
@[simp] theorem State.setRec_ana (s : State) (f : RecSt → RecSt) : (s.setRec f).ana = s.ana := rfl
@[simp] theorem State.setRec_pour (s : State) (f : RecSt → RecSt) : (s.setRec f).pour = s.pour := rfl
@[simp] theorem State.setRec_pins (s : State) (f : RecSt → RecSt) : (s.setRec f).pins = s.pins := rfl
@[simp] theorem State.setRec_capAsk (s : State) (f : RecSt → RecSt) : (s.setRec f).capAsk = s.capAsk := rfl
@[simp] theorem State.setRec_pending (s : State) (f : RecSt → RecSt) : (s.setRec f).pending = s.pending := rfl
@[simp] theorem State.setRec_word (s : State) (f : RecSt → RecSt) (r : Reg) : (s.setRec f).word r = s.word r := rfl
@[simp] theorem State.setRec_get (s : State) (f : RecSt → RecSt) (f' : Fld) : (s.setRec f).get f' = s.get f' := rfl
@[simp] theorem State.setRec_getS (s : State) (f : RecSt → RecSt) (f' : Fld) : (s.setRec f).getS f' = s.getS f' := rfl
@[simp] theorem State.setRec_flag (s : State) (f : RecSt → RecSt) (f' : Fld) : (s.setRec f).flag f' = s.flag f' := rfl
@[simp] theorem State.setRec_get64 (s : State) (f : RecSt → RecSt) (lo hi : Reg) : (s.setRec f).get64 lo hi = s.get64 lo hi := rfl
@[simp] theorem State.setRec_domState (s : State) (f : RecSt → RecSt) (d : Nat) : (s.setRec f).domState d = s.domState d := rfl
@[simp] theorem State.setRec_isOn (s : State) (f : RecSt → RecSt) (d : Nat) : (s.setRec f).isOn d = s.isOn d := rfl
@[simp] theorem State.setRec_works (s : State) (f : RecSt → RecSt) (d : Nat) : (s.setRec f).works d = s.works d := rfl
@[simp] theorem State.setRec_sess (s : State) (f : RecSt → RecSt) (n : Nat) : (s.setRec f).sess n = s.sess n := rfl
@[simp] theorem State.setRec_ring (s : State) (f : RecSt → RecSt) (n : Nat) : (s.setRec f).ring n = s.ring n := rfl
@[simp] theorem State.setRec_cellState (s : State) (f : RecSt → RecSt) (k : Nat) : (s.setRec f).cellState k = s.cellState k := rfl
@[simp] theorem State.setRec_mtUnits (s : State) (f : RecSt → RecSt) : (s.setRec f).mtUnits = s.mtUnits := rfl
@[simp] theorem State.setRec_mtNs (s : State) (f : RecSt → RecSt) : (s.setRec f).mtNs = s.mtNs := rfl
@[simp] theorem State.setRec_carafe (s : State) (f : RecSt → RecSt) : (s.setRec f).carafe = f s.carafe := rfl

/-! ### setWear -/

@[simp] theorem State.setWear_now (s : State) (f : WearSt → WearSt) : (s.setWear f).now = s.now := rfl
@[simp] theorem State.setWear_regs (s : State) (f : WearSt → WearSt) : (s.setWear f).regs = s.regs := rfl
@[simp] theorem State.setWear_free (s : State) (f : WearSt → WearSt) : (s.setWear f).free = s.free := rfl
@[simp] theorem State.setWear_clk (s : State) (f : WearSt → WearSt) : (s.setWear f).clk = s.clk := rfl
@[simp] theorem State.setWear_mgmt (s : State) (f : WearSt → WearSt) : (s.setWear f).mgmt = s.mgmt := rfl
@[simp] theorem State.setWear_log (s : State) (f : WearSt → WearSt) : (s.setWear f).log = s.log := rfl
@[simp] theorem State.setWear_pwr (s : State) (f : WearSt → WearSt) : (s.setWear f).pwr = s.pwr := rfl
@[simp] theorem State.setWear_start (s : State) (f : WearSt → WearSt) : (s.setWear f).start = s.start := rfl
@[simp] theorem State.setWear_link (s : State) (f : WearSt → WearSt) : (s.setWear f).link = s.link := rfl
@[simp] theorem State.setWear_cells (s : State) (f : WearSt → WearSt) : (s.setWear f).cells = s.cells := rfl
@[simp] theorem State.setWear_eng (s : State) (f : WearSt → WearSt) : (s.setWear f).eng = s.eng := rfl
@[simp] theorem State.setWear_grid (s : State) (f : WearSt → WearSt) : (s.setWear f).grid = s.grid := rfl
@[simp] theorem State.setWear_mppt (s : State) (f : WearSt → WearSt) : (s.setWear f).mppt = s.mppt := rfl
@[simp] theorem State.setWear_frt (s : State) (f : WearSt → WearSt) : (s.setWear f).frt = s.frt := rfl
@[simp] theorem State.setWear_bus (s : State) (f : WearSt → WearSt) : (s.setWear f).bus = s.bus := rfl
@[simp] theorem State.setWear_mtr (s : State) (f : WearSt → WearSt) : (s.setWear f).mtr = s.mtr := rfl
@[simp] theorem State.setWear_lanes (s : State) (f : WearSt → WearSt) : (s.setWear f).lanes = s.lanes := rfl
@[simp] theorem State.setWear_carafe (s : State) (f : WearSt → WearSt) : (s.setWear f).carafe = s.carafe := rfl
@[simp] theorem State.setWear_safe (s : State) (f : WearSt → WearSt) : (s.setWear f).safe = s.safe := rfl
@[simp] theorem State.setWear_ana (s : State) (f : WearSt → WearSt) : (s.setWear f).ana = s.ana := rfl
@[simp] theorem State.setWear_pour (s : State) (f : WearSt → WearSt) : (s.setWear f).pour = s.pour := rfl
@[simp] theorem State.setWear_pins (s : State) (f : WearSt → WearSt) : (s.setWear f).pins = s.pins := rfl
@[simp] theorem State.setWear_capAsk (s : State) (f : WearSt → WearSt) : (s.setWear f).capAsk = s.capAsk := rfl
@[simp] theorem State.setWear_pending (s : State) (f : WearSt → WearSt) : (s.setWear f).pending = s.pending := rfl
@[simp] theorem State.setWear_word (s : State) (f : WearSt → WearSt) (r : Reg) : (s.setWear f).word r = s.word r := rfl
@[simp] theorem State.setWear_get (s : State) (f : WearSt → WearSt) (f' : Fld) : (s.setWear f).get f' = s.get f' := rfl
@[simp] theorem State.setWear_getS (s : State) (f : WearSt → WearSt) (f' : Fld) : (s.setWear f).getS f' = s.getS f' := rfl
@[simp] theorem State.setWear_flag (s : State) (f : WearSt → WearSt) (f' : Fld) : (s.setWear f).flag f' = s.flag f' := rfl
@[simp] theorem State.setWear_get64 (s : State) (f : WearSt → WearSt) (lo hi : Reg) : (s.setWear f).get64 lo hi = s.get64 lo hi := rfl
@[simp] theorem State.setWear_domState (s : State) (f : WearSt → WearSt) (d : Nat) : (s.setWear f).domState d = s.domState d := rfl
@[simp] theorem State.setWear_isOn (s : State) (f : WearSt → WearSt) (d : Nat) : (s.setWear f).isOn d = s.isOn d := rfl
@[simp] theorem State.setWear_works (s : State) (f : WearSt → WearSt) (d : Nat) : (s.setWear f).works d = s.works d := rfl
@[simp] theorem State.setWear_sess (s : State) (f : WearSt → WearSt) (n : Nat) : (s.setWear f).sess n = s.sess n := rfl
@[simp] theorem State.setWear_ring (s : State) (f : WearSt → WearSt) (n : Nat) : (s.setWear f).ring n = s.ring n := rfl
@[simp] theorem State.setWear_cellState (s : State) (f : WearSt → WearSt) (k : Nat) : (s.setWear f).cellState k = s.cellState k := rfl
@[simp] theorem State.setWear_mtUnits (s : State) (f : WearSt → WearSt) : (s.setWear f).mtUnits = s.mtUnits := rfl
@[simp] theorem State.setWear_mtNs (s : State) (f : WearSt → WearSt) : (s.setWear f).mtNs = s.mtNs := rfl
@[simp] theorem State.setWear_wear (s : State) (f : WearSt → WearSt) : (s.setWear f).wear = f s.wear := rfl

/-! ### setSafe -/

@[simp] theorem State.setSafe_now (s : State) (f : SafeSt → SafeSt) : (s.setSafe f).now = s.now := rfl
@[simp] theorem State.setSafe_regs (s : State) (f : SafeSt → SafeSt) : (s.setSafe f).regs = s.regs := rfl
@[simp] theorem State.setSafe_free (s : State) (f : SafeSt → SafeSt) : (s.setSafe f).free = s.free := rfl
@[simp] theorem State.setSafe_clk (s : State) (f : SafeSt → SafeSt) : (s.setSafe f).clk = s.clk := rfl
@[simp] theorem State.setSafe_mgmt (s : State) (f : SafeSt → SafeSt) : (s.setSafe f).mgmt = s.mgmt := rfl
@[simp] theorem State.setSafe_log (s : State) (f : SafeSt → SafeSt) : (s.setSafe f).log = s.log := rfl
@[simp] theorem State.setSafe_pwr (s : State) (f : SafeSt → SafeSt) : (s.setSafe f).pwr = s.pwr := rfl
@[simp] theorem State.setSafe_start (s : State) (f : SafeSt → SafeSt) : (s.setSafe f).start = s.start := rfl
@[simp] theorem State.setSafe_link (s : State) (f : SafeSt → SafeSt) : (s.setSafe f).link = s.link := rfl
@[simp] theorem State.setSafe_cells (s : State) (f : SafeSt → SafeSt) : (s.setSafe f).cells = s.cells := rfl
@[simp] theorem State.setSafe_eng (s : State) (f : SafeSt → SafeSt) : (s.setSafe f).eng = s.eng := rfl
@[simp] theorem State.setSafe_grid (s : State) (f : SafeSt → SafeSt) : (s.setSafe f).grid = s.grid := rfl
@[simp] theorem State.setSafe_mppt (s : State) (f : SafeSt → SafeSt) : (s.setSafe f).mppt = s.mppt := rfl
@[simp] theorem State.setSafe_frt (s : State) (f : SafeSt → SafeSt) : (s.setSafe f).frt = s.frt := rfl
@[simp] theorem State.setSafe_bus (s : State) (f : SafeSt → SafeSt) : (s.setSafe f).bus = s.bus := rfl
@[simp] theorem State.setSafe_mtr (s : State) (f : SafeSt → SafeSt) : (s.setSafe f).mtr = s.mtr := rfl
@[simp] theorem State.setSafe_lanes (s : State) (f : SafeSt → SafeSt) : (s.setSafe f).lanes = s.lanes := rfl
@[simp] theorem State.setSafe_carafe (s : State) (f : SafeSt → SafeSt) : (s.setSafe f).carafe = s.carafe := rfl
@[simp] theorem State.setSafe_wear (s : State) (f : SafeSt → SafeSt) : (s.setSafe f).wear = s.wear := rfl
@[simp] theorem State.setSafe_ana (s : State) (f : SafeSt → SafeSt) : (s.setSafe f).ana = s.ana := rfl
@[simp] theorem State.setSafe_pour (s : State) (f : SafeSt → SafeSt) : (s.setSafe f).pour = s.pour := rfl
@[simp] theorem State.setSafe_pins (s : State) (f : SafeSt → SafeSt) : (s.setSafe f).pins = s.pins := rfl
@[simp] theorem State.setSafe_capAsk (s : State) (f : SafeSt → SafeSt) : (s.setSafe f).capAsk = s.capAsk := rfl
@[simp] theorem State.setSafe_pending (s : State) (f : SafeSt → SafeSt) : (s.setSafe f).pending = s.pending := rfl
@[simp] theorem State.setSafe_word (s : State) (f : SafeSt → SafeSt) (r : Reg) : (s.setSafe f).word r = s.word r := rfl
@[simp] theorem State.setSafe_get (s : State) (f : SafeSt → SafeSt) (f' : Fld) : (s.setSafe f).get f' = s.get f' := rfl
@[simp] theorem State.setSafe_getS (s : State) (f : SafeSt → SafeSt) (f' : Fld) : (s.setSafe f).getS f' = s.getS f' := rfl
@[simp] theorem State.setSafe_flag (s : State) (f : SafeSt → SafeSt) (f' : Fld) : (s.setSafe f).flag f' = s.flag f' := rfl
@[simp] theorem State.setSafe_get64 (s : State) (f : SafeSt → SafeSt) (lo hi : Reg) : (s.setSafe f).get64 lo hi = s.get64 lo hi := rfl
@[simp] theorem State.setSafe_domState (s : State) (f : SafeSt → SafeSt) (d : Nat) : (s.setSafe f).domState d = s.domState d := rfl
@[simp] theorem State.setSafe_isOn (s : State) (f : SafeSt → SafeSt) (d : Nat) : (s.setSafe f).isOn d = s.isOn d := rfl
@[simp] theorem State.setSafe_works (s : State) (f : SafeSt → SafeSt) (d : Nat) : (s.setSafe f).works d = s.works d := rfl
@[simp] theorem State.setSafe_sess (s : State) (f : SafeSt → SafeSt) (n : Nat) : (s.setSafe f).sess n = s.sess n := rfl
@[simp] theorem State.setSafe_ring (s : State) (f : SafeSt → SafeSt) (n : Nat) : (s.setSafe f).ring n = s.ring n := rfl
@[simp] theorem State.setSafe_cellState (s : State) (f : SafeSt → SafeSt) (k : Nat) : (s.setSafe f).cellState k = s.cellState k := rfl
@[simp] theorem State.setSafe_mtUnits (s : State) (f : SafeSt → SafeSt) : (s.setSafe f).mtUnits = s.mtUnits := rfl
@[simp] theorem State.setSafe_mtNs (s : State) (f : SafeSt → SafeSt) : (s.setSafe f).mtNs = s.mtNs := rfl
@[simp] theorem State.setSafe_safe (s : State) (f : SafeSt → SafeSt) : (s.setSafe f).safe = f s.safe := rfl

/-! ### setAna -/

@[simp] theorem State.setAna_now (s : State) (f : AnaSt → AnaSt) : (s.setAna f).now = s.now := rfl
@[simp] theorem State.setAna_regs (s : State) (f : AnaSt → AnaSt) : (s.setAna f).regs = s.regs := rfl
@[simp] theorem State.setAna_free (s : State) (f : AnaSt → AnaSt) : (s.setAna f).free = s.free := rfl
@[simp] theorem State.setAna_clk (s : State) (f : AnaSt → AnaSt) : (s.setAna f).clk = s.clk := rfl
@[simp] theorem State.setAna_mgmt (s : State) (f : AnaSt → AnaSt) : (s.setAna f).mgmt = s.mgmt := rfl
@[simp] theorem State.setAna_log (s : State) (f : AnaSt → AnaSt) : (s.setAna f).log = s.log := rfl
@[simp] theorem State.setAna_pwr (s : State) (f : AnaSt → AnaSt) : (s.setAna f).pwr = s.pwr := rfl
@[simp] theorem State.setAna_start (s : State) (f : AnaSt → AnaSt) : (s.setAna f).start = s.start := rfl
@[simp] theorem State.setAna_link (s : State) (f : AnaSt → AnaSt) : (s.setAna f).link = s.link := rfl
@[simp] theorem State.setAna_cells (s : State) (f : AnaSt → AnaSt) : (s.setAna f).cells = s.cells := rfl
@[simp] theorem State.setAna_eng (s : State) (f : AnaSt → AnaSt) : (s.setAna f).eng = s.eng := rfl
@[simp] theorem State.setAna_grid (s : State) (f : AnaSt → AnaSt) : (s.setAna f).grid = s.grid := rfl
@[simp] theorem State.setAna_mppt (s : State) (f : AnaSt → AnaSt) : (s.setAna f).mppt = s.mppt := rfl
@[simp] theorem State.setAna_frt (s : State) (f : AnaSt → AnaSt) : (s.setAna f).frt = s.frt := rfl
@[simp] theorem State.setAna_bus (s : State) (f : AnaSt → AnaSt) : (s.setAna f).bus = s.bus := rfl
@[simp] theorem State.setAna_mtr (s : State) (f : AnaSt → AnaSt) : (s.setAna f).mtr = s.mtr := rfl
@[simp] theorem State.setAna_lanes (s : State) (f : AnaSt → AnaSt) : (s.setAna f).lanes = s.lanes := rfl
@[simp] theorem State.setAna_carafe (s : State) (f : AnaSt → AnaSt) : (s.setAna f).carafe = s.carafe := rfl
@[simp] theorem State.setAna_wear (s : State) (f : AnaSt → AnaSt) : (s.setAna f).wear = s.wear := rfl
@[simp] theorem State.setAna_safe (s : State) (f : AnaSt → AnaSt) : (s.setAna f).safe = s.safe := rfl
@[simp] theorem State.setAna_pour (s : State) (f : AnaSt → AnaSt) : (s.setAna f).pour = s.pour := rfl
@[simp] theorem State.setAna_pins (s : State) (f : AnaSt → AnaSt) : (s.setAna f).pins = s.pins := rfl
@[simp] theorem State.setAna_capAsk (s : State) (f : AnaSt → AnaSt) : (s.setAna f).capAsk = s.capAsk := rfl
@[simp] theorem State.setAna_pending (s : State) (f : AnaSt → AnaSt) : (s.setAna f).pending = s.pending := rfl
@[simp] theorem State.setAna_word (s : State) (f : AnaSt → AnaSt) (r : Reg) : (s.setAna f).word r = s.word r := rfl
@[simp] theorem State.setAna_get (s : State) (f : AnaSt → AnaSt) (f' : Fld) : (s.setAna f).get f' = s.get f' := rfl
@[simp] theorem State.setAna_getS (s : State) (f : AnaSt → AnaSt) (f' : Fld) : (s.setAna f).getS f' = s.getS f' := rfl
@[simp] theorem State.setAna_flag (s : State) (f : AnaSt → AnaSt) (f' : Fld) : (s.setAna f).flag f' = s.flag f' := rfl
@[simp] theorem State.setAna_get64 (s : State) (f : AnaSt → AnaSt) (lo hi : Reg) : (s.setAna f).get64 lo hi = s.get64 lo hi := rfl
@[simp] theorem State.setAna_domState (s : State) (f : AnaSt → AnaSt) (d : Nat) : (s.setAna f).domState d = s.domState d := rfl
@[simp] theorem State.setAna_isOn (s : State) (f : AnaSt → AnaSt) (d : Nat) : (s.setAna f).isOn d = s.isOn d := rfl
@[simp] theorem State.setAna_works (s : State) (f : AnaSt → AnaSt) (d : Nat) : (s.setAna f).works d = s.works d := rfl
@[simp] theorem State.setAna_sess (s : State) (f : AnaSt → AnaSt) (n : Nat) : (s.setAna f).sess n = s.sess n := rfl
@[simp] theorem State.setAna_ring (s : State) (f : AnaSt → AnaSt) (n : Nat) : (s.setAna f).ring n = s.ring n := rfl
@[simp] theorem State.setAna_cellState (s : State) (f : AnaSt → AnaSt) (k : Nat) : (s.setAna f).cellState k = s.cellState k := rfl
@[simp] theorem State.setAna_mtUnits (s : State) (f : AnaSt → AnaSt) : (s.setAna f).mtUnits = s.mtUnits := rfl
@[simp] theorem State.setAna_mtNs (s : State) (f : AnaSt → AnaSt) : (s.setAna f).mtNs = s.mtNs := rfl
@[simp] theorem State.setAna_ana (s : State) (f : AnaSt → AnaSt) : (s.setAna f).ana = f s.ana := rfl

/-! ### setPour -/

@[simp] theorem State.setPour_now (s : State) (f : PourSt → PourSt) : (s.setPour f).now = s.now := rfl
@[simp] theorem State.setPour_regs (s : State) (f : PourSt → PourSt) : (s.setPour f).regs = s.regs := rfl
@[simp] theorem State.setPour_free (s : State) (f : PourSt → PourSt) : (s.setPour f).free = s.free := rfl
@[simp] theorem State.setPour_clk (s : State) (f : PourSt → PourSt) : (s.setPour f).clk = s.clk := rfl
@[simp] theorem State.setPour_mgmt (s : State) (f : PourSt → PourSt) : (s.setPour f).mgmt = s.mgmt := rfl
@[simp] theorem State.setPour_log (s : State) (f : PourSt → PourSt) : (s.setPour f).log = s.log := rfl
@[simp] theorem State.setPour_pwr (s : State) (f : PourSt → PourSt) : (s.setPour f).pwr = s.pwr := rfl
@[simp] theorem State.setPour_start (s : State) (f : PourSt → PourSt) : (s.setPour f).start = s.start := rfl
@[simp] theorem State.setPour_link (s : State) (f : PourSt → PourSt) : (s.setPour f).link = s.link := rfl
@[simp] theorem State.setPour_cells (s : State) (f : PourSt → PourSt) : (s.setPour f).cells = s.cells := rfl
@[simp] theorem State.setPour_eng (s : State) (f : PourSt → PourSt) : (s.setPour f).eng = s.eng := rfl
@[simp] theorem State.setPour_grid (s : State) (f : PourSt → PourSt) : (s.setPour f).grid = s.grid := rfl
@[simp] theorem State.setPour_mppt (s : State) (f : PourSt → PourSt) : (s.setPour f).mppt = s.mppt := rfl
@[simp] theorem State.setPour_frt (s : State) (f : PourSt → PourSt) : (s.setPour f).frt = s.frt := rfl
@[simp] theorem State.setPour_bus (s : State) (f : PourSt → PourSt) : (s.setPour f).bus = s.bus := rfl
@[simp] theorem State.setPour_mtr (s : State) (f : PourSt → PourSt) : (s.setPour f).mtr = s.mtr := rfl
@[simp] theorem State.setPour_lanes (s : State) (f : PourSt → PourSt) : (s.setPour f).lanes = s.lanes := rfl
@[simp] theorem State.setPour_carafe (s : State) (f : PourSt → PourSt) : (s.setPour f).carafe = s.carafe := rfl
@[simp] theorem State.setPour_wear (s : State) (f : PourSt → PourSt) : (s.setPour f).wear = s.wear := rfl
@[simp] theorem State.setPour_safe (s : State) (f : PourSt → PourSt) : (s.setPour f).safe = s.safe := rfl
@[simp] theorem State.setPour_ana (s : State) (f : PourSt → PourSt) : (s.setPour f).ana = s.ana := rfl
@[simp] theorem State.setPour_pins (s : State) (f : PourSt → PourSt) : (s.setPour f).pins = s.pins := rfl
@[simp] theorem State.setPour_capAsk (s : State) (f : PourSt → PourSt) : (s.setPour f).capAsk = s.capAsk := rfl
@[simp] theorem State.setPour_pending (s : State) (f : PourSt → PourSt) : (s.setPour f).pending = s.pending := rfl
@[simp] theorem State.setPour_word (s : State) (f : PourSt → PourSt) (r : Reg) : (s.setPour f).word r = s.word r := rfl
@[simp] theorem State.setPour_get (s : State) (f : PourSt → PourSt) (f' : Fld) : (s.setPour f).get f' = s.get f' := rfl
@[simp] theorem State.setPour_getS (s : State) (f : PourSt → PourSt) (f' : Fld) : (s.setPour f).getS f' = s.getS f' := rfl
@[simp] theorem State.setPour_flag (s : State) (f : PourSt → PourSt) (f' : Fld) : (s.setPour f).flag f' = s.flag f' := rfl
@[simp] theorem State.setPour_get64 (s : State) (f : PourSt → PourSt) (lo hi : Reg) : (s.setPour f).get64 lo hi = s.get64 lo hi := rfl
@[simp] theorem State.setPour_domState (s : State) (f : PourSt → PourSt) (d : Nat) : (s.setPour f).domState d = s.domState d := rfl
@[simp] theorem State.setPour_isOn (s : State) (f : PourSt → PourSt) (d : Nat) : (s.setPour f).isOn d = s.isOn d := rfl
@[simp] theorem State.setPour_works (s : State) (f : PourSt → PourSt) (d : Nat) : (s.setPour f).works d = s.works d := rfl
@[simp] theorem State.setPour_sess (s : State) (f : PourSt → PourSt) (n : Nat) : (s.setPour f).sess n = s.sess n := rfl
@[simp] theorem State.setPour_ring (s : State) (f : PourSt → PourSt) (n : Nat) : (s.setPour f).ring n = s.ring n := rfl
@[simp] theorem State.setPour_cellState (s : State) (f : PourSt → PourSt) (k : Nat) : (s.setPour f).cellState k = s.cellState k := rfl
@[simp] theorem State.setPour_mtUnits (s : State) (f : PourSt → PourSt) : (s.setPour f).mtUnits = s.mtUnits := rfl
@[simp] theorem State.setPour_mtNs (s : State) (f : PourSt → PourSt) : (s.setPour f).mtNs = s.mtNs := rfl
@[simp] theorem State.setPour_pour (s : State) (f : PourSt → PourSt) : (s.setPour f).pour = f s.pour := rfl

/-! ### setPins -/

@[simp] theorem State.setPins_now (s : State) (f : PinSt → PinSt) : (s.setPins f).now = s.now := rfl
@[simp] theorem State.setPins_regs (s : State) (f : PinSt → PinSt) : (s.setPins f).regs = s.regs := rfl
@[simp] theorem State.setPins_free (s : State) (f : PinSt → PinSt) : (s.setPins f).free = s.free := rfl
@[simp] theorem State.setPins_clk (s : State) (f : PinSt → PinSt) : (s.setPins f).clk = s.clk := rfl
@[simp] theorem State.setPins_mgmt (s : State) (f : PinSt → PinSt) : (s.setPins f).mgmt = s.mgmt := rfl
@[simp] theorem State.setPins_log (s : State) (f : PinSt → PinSt) : (s.setPins f).log = s.log := rfl
@[simp] theorem State.setPins_pwr (s : State) (f : PinSt → PinSt) : (s.setPins f).pwr = s.pwr := rfl
@[simp] theorem State.setPins_start (s : State) (f : PinSt → PinSt) : (s.setPins f).start = s.start := rfl
@[simp] theorem State.setPins_link (s : State) (f : PinSt → PinSt) : (s.setPins f).link = s.link := rfl
@[simp] theorem State.setPins_cells (s : State) (f : PinSt → PinSt) : (s.setPins f).cells = s.cells := rfl
@[simp] theorem State.setPins_eng (s : State) (f : PinSt → PinSt) : (s.setPins f).eng = s.eng := rfl
@[simp] theorem State.setPins_grid (s : State) (f : PinSt → PinSt) : (s.setPins f).grid = s.grid := rfl
@[simp] theorem State.setPins_mppt (s : State) (f : PinSt → PinSt) : (s.setPins f).mppt = s.mppt := rfl
@[simp] theorem State.setPins_frt (s : State) (f : PinSt → PinSt) : (s.setPins f).frt = s.frt := rfl
@[simp] theorem State.setPins_bus (s : State) (f : PinSt → PinSt) : (s.setPins f).bus = s.bus := rfl
@[simp] theorem State.setPins_mtr (s : State) (f : PinSt → PinSt) : (s.setPins f).mtr = s.mtr := rfl
@[simp] theorem State.setPins_lanes (s : State) (f : PinSt → PinSt) : (s.setPins f).lanes = s.lanes := rfl
@[simp] theorem State.setPins_carafe (s : State) (f : PinSt → PinSt) : (s.setPins f).carafe = s.carafe := rfl
@[simp] theorem State.setPins_wear (s : State) (f : PinSt → PinSt) : (s.setPins f).wear = s.wear := rfl
@[simp] theorem State.setPins_safe (s : State) (f : PinSt → PinSt) : (s.setPins f).safe = s.safe := rfl
@[simp] theorem State.setPins_ana (s : State) (f : PinSt → PinSt) : (s.setPins f).ana = s.ana := rfl
@[simp] theorem State.setPins_pour (s : State) (f : PinSt → PinSt) : (s.setPins f).pour = s.pour := rfl
@[simp] theorem State.setPins_capAsk (s : State) (f : PinSt → PinSt) : (s.setPins f).capAsk = s.capAsk := rfl
@[simp] theorem State.setPins_pending (s : State) (f : PinSt → PinSt) : (s.setPins f).pending = s.pending := rfl
@[simp] theorem State.setPins_word (s : State) (f : PinSt → PinSt) (r : Reg) : (s.setPins f).word r = s.word r := rfl
@[simp] theorem State.setPins_get (s : State) (f : PinSt → PinSt) (f' : Fld) : (s.setPins f).get f' = s.get f' := rfl
@[simp] theorem State.setPins_getS (s : State) (f : PinSt → PinSt) (f' : Fld) : (s.setPins f).getS f' = s.getS f' := rfl
@[simp] theorem State.setPins_flag (s : State) (f : PinSt → PinSt) (f' : Fld) : (s.setPins f).flag f' = s.flag f' := rfl
@[simp] theorem State.setPins_get64 (s : State) (f : PinSt → PinSt) (lo hi : Reg) : (s.setPins f).get64 lo hi = s.get64 lo hi := rfl
@[simp] theorem State.setPins_domState (s : State) (f : PinSt → PinSt) (d : Nat) : (s.setPins f).domState d = s.domState d := rfl
@[simp] theorem State.setPins_isOn (s : State) (f : PinSt → PinSt) (d : Nat) : (s.setPins f).isOn d = s.isOn d := rfl
@[simp] theorem State.setPins_works (s : State) (f : PinSt → PinSt) (d : Nat) : (s.setPins f).works d = s.works d := rfl
@[simp] theorem State.setPins_sess (s : State) (f : PinSt → PinSt) (n : Nat) : (s.setPins f).sess n = s.sess n := rfl
@[simp] theorem State.setPins_ring (s : State) (f : PinSt → PinSt) (n : Nat) : (s.setPins f).ring n = s.ring n := rfl
@[simp] theorem State.setPins_cellState (s : State) (f : PinSt → PinSt) (k : Nat) : (s.setPins f).cellState k = s.cellState k := rfl
@[simp] theorem State.setPins_mtUnits (s : State) (f : PinSt → PinSt) : (s.setPins f).mtUnits = s.mtUnits := rfl
@[simp] theorem State.setPins_mtNs (s : State) (f : PinSt → PinSt) : (s.setPins f).mtNs = s.mtNs := rfl
@[simp] theorem State.setPins_pins (s : State) (f : PinSt → PinSt) : (s.setPins f).pins = f s.pins := rfl

/-! ### setCapAsk -/

@[simp] theorem State.setCapAsk_now (s : State) (f : List (Nat × Nat × Nat) → List (Nat × Nat × Nat)) : (s.setCapAsk f).now = s.now := rfl
@[simp] theorem State.setCapAsk_regs (s : State) (f : List (Nat × Nat × Nat) → List (Nat × Nat × Nat)) : (s.setCapAsk f).regs = s.regs := rfl
@[simp] theorem State.setCapAsk_free (s : State) (f : List (Nat × Nat × Nat) → List (Nat × Nat × Nat)) : (s.setCapAsk f).free = s.free := rfl
@[simp] theorem State.setCapAsk_clk (s : State) (f : List (Nat × Nat × Nat) → List (Nat × Nat × Nat)) : (s.setCapAsk f).clk = s.clk := rfl
@[simp] theorem State.setCapAsk_mgmt (s : State) (f : List (Nat × Nat × Nat) → List (Nat × Nat × Nat)) : (s.setCapAsk f).mgmt = s.mgmt := rfl
@[simp] theorem State.setCapAsk_log (s : State) (f : List (Nat × Nat × Nat) → List (Nat × Nat × Nat)) : (s.setCapAsk f).log = s.log := rfl
@[simp] theorem State.setCapAsk_pwr (s : State) (f : List (Nat × Nat × Nat) → List (Nat × Nat × Nat)) : (s.setCapAsk f).pwr = s.pwr := rfl
@[simp] theorem State.setCapAsk_start (s : State) (f : List (Nat × Nat × Nat) → List (Nat × Nat × Nat)) : (s.setCapAsk f).start = s.start := rfl
@[simp] theorem State.setCapAsk_link (s : State) (f : List (Nat × Nat × Nat) → List (Nat × Nat × Nat)) : (s.setCapAsk f).link = s.link := rfl
@[simp] theorem State.setCapAsk_cells (s : State) (f : List (Nat × Nat × Nat) → List (Nat × Nat × Nat)) : (s.setCapAsk f).cells = s.cells := rfl
@[simp] theorem State.setCapAsk_eng (s : State) (f : List (Nat × Nat × Nat) → List (Nat × Nat × Nat)) : (s.setCapAsk f).eng = s.eng := rfl
@[simp] theorem State.setCapAsk_grid (s : State) (f : List (Nat × Nat × Nat) → List (Nat × Nat × Nat)) : (s.setCapAsk f).grid = s.grid := rfl
@[simp] theorem State.setCapAsk_mppt (s : State) (f : List (Nat × Nat × Nat) → List (Nat × Nat × Nat)) : (s.setCapAsk f).mppt = s.mppt := rfl
@[simp] theorem State.setCapAsk_frt (s : State) (f : List (Nat × Nat × Nat) → List (Nat × Nat × Nat)) : (s.setCapAsk f).frt = s.frt := rfl
@[simp] theorem State.setCapAsk_bus (s : State) (f : List (Nat × Nat × Nat) → List (Nat × Nat × Nat)) : (s.setCapAsk f).bus = s.bus := rfl
@[simp] theorem State.setCapAsk_mtr (s : State) (f : List (Nat × Nat × Nat) → List (Nat × Nat × Nat)) : (s.setCapAsk f).mtr = s.mtr := rfl
@[simp] theorem State.setCapAsk_lanes (s : State) (f : List (Nat × Nat × Nat) → List (Nat × Nat × Nat)) : (s.setCapAsk f).lanes = s.lanes := rfl
@[simp] theorem State.setCapAsk_carafe (s : State) (f : List (Nat × Nat × Nat) → List (Nat × Nat × Nat)) : (s.setCapAsk f).carafe = s.carafe := rfl
@[simp] theorem State.setCapAsk_wear (s : State) (f : List (Nat × Nat × Nat) → List (Nat × Nat × Nat)) : (s.setCapAsk f).wear = s.wear := rfl
@[simp] theorem State.setCapAsk_safe (s : State) (f : List (Nat × Nat × Nat) → List (Nat × Nat × Nat)) : (s.setCapAsk f).safe = s.safe := rfl
@[simp] theorem State.setCapAsk_ana (s : State) (f : List (Nat × Nat × Nat) → List (Nat × Nat × Nat)) : (s.setCapAsk f).ana = s.ana := rfl
@[simp] theorem State.setCapAsk_pour (s : State) (f : List (Nat × Nat × Nat) → List (Nat × Nat × Nat)) : (s.setCapAsk f).pour = s.pour := rfl
@[simp] theorem State.setCapAsk_pins (s : State) (f : List (Nat × Nat × Nat) → List (Nat × Nat × Nat)) : (s.setCapAsk f).pins = s.pins := rfl
@[simp] theorem State.setCapAsk_pending (s : State) (f : List (Nat × Nat × Nat) → List (Nat × Nat × Nat)) : (s.setCapAsk f).pending = s.pending := rfl
@[simp] theorem State.setCapAsk_word (s : State) (f : List (Nat × Nat × Nat) → List (Nat × Nat × Nat)) (r : Reg) : (s.setCapAsk f).word r = s.word r := rfl
@[simp] theorem State.setCapAsk_get (s : State) (f : List (Nat × Nat × Nat) → List (Nat × Nat × Nat)) (f' : Fld) : (s.setCapAsk f).get f' = s.get f' := rfl
@[simp] theorem State.setCapAsk_getS (s : State) (f : List (Nat × Nat × Nat) → List (Nat × Nat × Nat)) (f' : Fld) : (s.setCapAsk f).getS f' = s.getS f' := rfl
@[simp] theorem State.setCapAsk_flag (s : State) (f : List (Nat × Nat × Nat) → List (Nat × Nat × Nat)) (f' : Fld) : (s.setCapAsk f).flag f' = s.flag f' := rfl
@[simp] theorem State.setCapAsk_get64 (s : State) (f : List (Nat × Nat × Nat) → List (Nat × Nat × Nat)) (lo hi : Reg) : (s.setCapAsk f).get64 lo hi = s.get64 lo hi := rfl
@[simp] theorem State.setCapAsk_domState (s : State) (f : List (Nat × Nat × Nat) → List (Nat × Nat × Nat)) (d : Nat) : (s.setCapAsk f).domState d = s.domState d := rfl
@[simp] theorem State.setCapAsk_isOn (s : State) (f : List (Nat × Nat × Nat) → List (Nat × Nat × Nat)) (d : Nat) : (s.setCapAsk f).isOn d = s.isOn d := rfl
@[simp] theorem State.setCapAsk_works (s : State) (f : List (Nat × Nat × Nat) → List (Nat × Nat × Nat)) (d : Nat) : (s.setCapAsk f).works d = s.works d := rfl
@[simp] theorem State.setCapAsk_sess (s : State) (f : List (Nat × Nat × Nat) → List (Nat × Nat × Nat)) (n : Nat) : (s.setCapAsk f).sess n = s.sess n := rfl
@[simp] theorem State.setCapAsk_ring (s : State) (f : List (Nat × Nat × Nat) → List (Nat × Nat × Nat)) (n : Nat) : (s.setCapAsk f).ring n = s.ring n := rfl
@[simp] theorem State.setCapAsk_cellState (s : State) (f : List (Nat × Nat × Nat) → List (Nat × Nat × Nat)) (k : Nat) : (s.setCapAsk f).cellState k = s.cellState k := rfl
@[simp] theorem State.setCapAsk_mtUnits (s : State) (f : List (Nat × Nat × Nat) → List (Nat × Nat × Nat)) : (s.setCapAsk f).mtUnits = s.mtUnits := rfl
@[simp] theorem State.setCapAsk_mtNs (s : State) (f : List (Nat × Nat × Nat) → List (Nat × Nat × Nat)) : (s.setCapAsk f).mtNs = s.mtNs := rfl
@[simp] theorem State.setCapAsk_capAsk (s : State) (f : List (Nat × Nat × Nat) → List (Nat × Nat × Nat)) : (s.setCapAsk f).capAsk = f s.capAsk := rfl

/-! ### setSess -/

@[simp] theorem State.setSess_now (s : State) (n : Nat) (x : Session) : (s.setSess n x).now = s.now := rfl
@[simp] theorem State.setSess_regs (s : State) (n : Nat) (x : Session) : (s.setSess n x).regs = s.regs := rfl
@[simp] theorem State.setSess_free (s : State) (n : Nat) (x : Session) : (s.setSess n x).free = s.free := rfl
@[simp] theorem State.setSess_clk (s : State) (n : Nat) (x : Session) : (s.setSess n x).clk = s.clk := rfl
@[simp] theorem State.setSess_log (s : State) (n : Nat) (x : Session) : (s.setSess n x).log = s.log := rfl
@[simp] theorem State.setSess_pwr (s : State) (n : Nat) (x : Session) : (s.setSess n x).pwr = s.pwr := rfl
@[simp] theorem State.setSess_start (s : State) (n : Nat) (x : Session) : (s.setSess n x).start = s.start := rfl
@[simp] theorem State.setSess_link (s : State) (n : Nat) (x : Session) : (s.setSess n x).link = s.link := rfl
@[simp] theorem State.setSess_cells (s : State) (n : Nat) (x : Session) : (s.setSess n x).cells = s.cells := rfl
@[simp] theorem State.setSess_eng (s : State) (n : Nat) (x : Session) : (s.setSess n x).eng = s.eng := rfl
@[simp] theorem State.setSess_grid (s : State) (n : Nat) (x : Session) : (s.setSess n x).grid = s.grid := rfl
@[simp] theorem State.setSess_mppt (s : State) (n : Nat) (x : Session) : (s.setSess n x).mppt = s.mppt := rfl
@[simp] theorem State.setSess_frt (s : State) (n : Nat) (x : Session) : (s.setSess n x).frt = s.frt := rfl
@[simp] theorem State.setSess_bus (s : State) (n : Nat) (x : Session) : (s.setSess n x).bus = s.bus := rfl
@[simp] theorem State.setSess_mtr (s : State) (n : Nat) (x : Session) : (s.setSess n x).mtr = s.mtr := rfl
@[simp] theorem State.setSess_lanes (s : State) (n : Nat) (x : Session) : (s.setSess n x).lanes = s.lanes := rfl
@[simp] theorem State.setSess_carafe (s : State) (n : Nat) (x : Session) : (s.setSess n x).carafe = s.carafe := rfl
@[simp] theorem State.setSess_wear (s : State) (n : Nat) (x : Session) : (s.setSess n x).wear = s.wear := rfl
@[simp] theorem State.setSess_safe (s : State) (n : Nat) (x : Session) : (s.setSess n x).safe = s.safe := rfl
@[simp] theorem State.setSess_ana (s : State) (n : Nat) (x : Session) : (s.setSess n x).ana = s.ana := rfl
@[simp] theorem State.setSess_pour (s : State) (n : Nat) (x : Session) : (s.setSess n x).pour = s.pour := rfl
@[simp] theorem State.setSess_pins (s : State) (n : Nat) (x : Session) : (s.setSess n x).pins = s.pins := rfl
@[simp] theorem State.setSess_capAsk (s : State) (n : Nat) (x : Session) : (s.setSess n x).capAsk = s.capAsk := rfl
@[simp] theorem State.setSess_pending (s : State) (n : Nat) (x : Session) : (s.setSess n x).pending = s.pending := rfl
@[simp] theorem State.setSess_word (s : State) (n : Nat) (x : Session) (r : Reg) : (s.setSess n x).word r = s.word r := rfl
@[simp] theorem State.setSess_get (s : State) (n : Nat) (x : Session) (f : Fld) : (s.setSess n x).get f = s.get f := rfl
@[simp] theorem State.setSess_getS (s : State) (n : Nat) (x : Session) (f : Fld) : (s.setSess n x).getS f = s.getS f := rfl
@[simp] theorem State.setSess_flag (s : State) (n : Nat) (x : Session) (f : Fld) : (s.setSess n x).flag f = s.flag f := rfl
@[simp] theorem State.setSess_get64 (s : State) (n : Nat) (x : Session) (lo hi : Reg) : (s.setSess n x).get64 lo hi = s.get64 lo hi := rfl
@[simp] theorem State.setSess_domState (s : State) (n : Nat) (x : Session) (d : Nat) : (s.setSess n x).domState d = s.domState d := rfl
@[simp] theorem State.setSess_isOn (s : State) (n : Nat) (x : Session) (d : Nat) : (s.setSess n x).isOn d = s.isOn d := rfl
@[simp] theorem State.setSess_works (s : State) (n : Nat) (x : Session) (d : Nat) : (s.setSess n x).works d = s.works d := rfl
@[simp] theorem State.setSess_ring (s : State) (n : Nat) (x : Session) (n' : Nat) : (s.setSess n x).ring n' = s.ring n' := rfl
@[simp] theorem State.setSess_cellState (s : State) (n : Nat) (x : Session) (k : Nat) : (s.setSess n x).cellState k = s.cellState k := rfl
@[simp] theorem State.setSess_mtUnits (s : State) (n : Nat) (x : Session) : (s.setSess n x).mtUnits = s.mtUnits := rfl
@[simp] theorem State.setSess_mtNs (s : State) (n : Nat) (x : Session) : (s.setSess n x).mtNs = s.mtNs := rfl
@[simp] theorem State.setSess_sess_same (s : State) (n : Nat) (x : Session) : (s.setSess n x).sess n = x := Tbl.get_set_same ..
theorem State.setSess_sess_other (s : State) (n : Nat) (x : Session) (i' : Nat) (h : i' ≠ n) : (s.setSess n x).sess i' = s.sess i' := Tbl.get_set_other _ _ _ _ h

/-! ### setRing -/

@[simp] theorem State.setRing_now (s : State) (n : Nat) (x : RingSt) : (s.setRing n x).now = s.now := rfl
@[simp] theorem State.setRing_regs (s : State) (n : Nat) (x : RingSt) : (s.setRing n x).regs = s.regs := rfl
@[simp] theorem State.setRing_free (s : State) (n : Nat) (x : RingSt) : (s.setRing n x).free = s.free := rfl
@[simp] theorem State.setRing_clk (s : State) (n : Nat) (x : RingSt) : (s.setRing n x).clk = s.clk := rfl
@[simp] theorem State.setRing_mgmt (s : State) (n : Nat) (x : RingSt) : (s.setRing n x).mgmt = s.mgmt := rfl
@[simp] theorem State.setRing_log (s : State) (n : Nat) (x : RingSt) : (s.setRing n x).log = s.log := rfl
@[simp] theorem State.setRing_pwr (s : State) (n : Nat) (x : RingSt) : (s.setRing n x).pwr = s.pwr := rfl
@[simp] theorem State.setRing_start (s : State) (n : Nat) (x : RingSt) : (s.setRing n x).start = s.start := rfl
@[simp] theorem State.setRing_cells (s : State) (n : Nat) (x : RingSt) : (s.setRing n x).cells = s.cells := rfl
@[simp] theorem State.setRing_eng (s : State) (n : Nat) (x : RingSt) : (s.setRing n x).eng = s.eng := rfl
@[simp] theorem State.setRing_grid (s : State) (n : Nat) (x : RingSt) : (s.setRing n x).grid = s.grid := rfl
@[simp] theorem State.setRing_mppt (s : State) (n : Nat) (x : RingSt) : (s.setRing n x).mppt = s.mppt := rfl
@[simp] theorem State.setRing_frt (s : State) (n : Nat) (x : RingSt) : (s.setRing n x).frt = s.frt := rfl
@[simp] theorem State.setRing_bus (s : State) (n : Nat) (x : RingSt) : (s.setRing n x).bus = s.bus := rfl
@[simp] theorem State.setRing_mtr (s : State) (n : Nat) (x : RingSt) : (s.setRing n x).mtr = s.mtr := rfl
@[simp] theorem State.setRing_lanes (s : State) (n : Nat) (x : RingSt) : (s.setRing n x).lanes = s.lanes := rfl
@[simp] theorem State.setRing_carafe (s : State) (n : Nat) (x : RingSt) : (s.setRing n x).carafe = s.carafe := rfl
@[simp] theorem State.setRing_wear (s : State) (n : Nat) (x : RingSt) : (s.setRing n x).wear = s.wear := rfl
@[simp] theorem State.setRing_safe (s : State) (n : Nat) (x : RingSt) : (s.setRing n x).safe = s.safe := rfl
@[simp] theorem State.setRing_ana (s : State) (n : Nat) (x : RingSt) : (s.setRing n x).ana = s.ana := rfl
@[simp] theorem State.setRing_pour (s : State) (n : Nat) (x : RingSt) : (s.setRing n x).pour = s.pour := rfl
@[simp] theorem State.setRing_pins (s : State) (n : Nat) (x : RingSt) : (s.setRing n x).pins = s.pins := rfl
@[simp] theorem State.setRing_capAsk (s : State) (n : Nat) (x : RingSt) : (s.setRing n x).capAsk = s.capAsk := rfl
@[simp] theorem State.setRing_pending (s : State) (n : Nat) (x : RingSt) : (s.setRing n x).pending = s.pending := rfl
@[simp] theorem State.setRing_word (s : State) (n : Nat) (x : RingSt) (r : Reg) : (s.setRing n x).word r = s.word r := rfl
@[simp] theorem State.setRing_get (s : State) (n : Nat) (x : RingSt) (f : Fld) : (s.setRing n x).get f = s.get f := rfl
@[simp] theorem State.setRing_getS (s : State) (n : Nat) (x : RingSt) (f : Fld) : (s.setRing n x).getS f = s.getS f := rfl
@[simp] theorem State.setRing_flag (s : State) (n : Nat) (x : RingSt) (f : Fld) : (s.setRing n x).flag f = s.flag f := rfl
@[simp] theorem State.setRing_get64 (s : State) (n : Nat) (x : RingSt) (lo hi : Reg) : (s.setRing n x).get64 lo hi = s.get64 lo hi := rfl
@[simp] theorem State.setRing_domState (s : State) (n : Nat) (x : RingSt) (d : Nat) : (s.setRing n x).domState d = s.domState d := rfl
@[simp] theorem State.setRing_isOn (s : State) (n : Nat) (x : RingSt) (d : Nat) : (s.setRing n x).isOn d = s.isOn d := rfl
@[simp] theorem State.setRing_works (s : State) (n : Nat) (x : RingSt) (d : Nat) : (s.setRing n x).works d = s.works d := rfl
@[simp] theorem State.setRing_sess (s : State) (n : Nat) (x : RingSt) (n' : Nat) : (s.setRing n x).sess n' = s.sess n' := rfl
@[simp] theorem State.setRing_cellState (s : State) (n : Nat) (x : RingSt) (k : Nat) : (s.setRing n x).cellState k = s.cellState k := rfl
@[simp] theorem State.setRing_mtUnits (s : State) (n : Nat) (x : RingSt) : (s.setRing n x).mtUnits = s.mtUnits := rfl
@[simp] theorem State.setRing_mtNs (s : State) (n : Nat) (x : RingSt) : (s.setRing n x).mtNs = s.mtNs := rfl
@[simp] theorem State.setRing_ring_same (s : State) (n : Nat) (x : RingSt) : (s.setRing n x).ring n = x := Tbl.get_set_same ..
theorem State.setRing_ring_other (s : State) (n : Nat) (x : RingSt) (i' : Nat) (h : i' ≠ n) : (s.setRing n x).ring i' = s.ring i' := Tbl.get_set_other _ _ _ _ h

/-! ### setPslot -/

@[simp] theorem State.setPslot_now (s : State) (k : Nat) (x : PourSlot) : (s.setPslot k x).now = s.now := rfl
@[simp] theorem State.setPslot_regs (s : State) (k : Nat) (x : PourSlot) : (s.setPslot k x).regs = s.regs := rfl
@[simp] theorem State.setPslot_free (s : State) (k : Nat) (x : PourSlot) : (s.setPslot k x).free = s.free := rfl
@[simp] theorem State.setPslot_clk (s : State) (k : Nat) (x : PourSlot) : (s.setPslot k x).clk = s.clk := rfl
@[simp] theorem State.setPslot_mgmt (s : State) (k : Nat) (x : PourSlot) : (s.setPslot k x).mgmt = s.mgmt := rfl
@[simp] theorem State.setPslot_log (s : State) (k : Nat) (x : PourSlot) : (s.setPslot k x).log = s.log := rfl
@[simp] theorem State.setPslot_pwr (s : State) (k : Nat) (x : PourSlot) : (s.setPslot k x).pwr = s.pwr := rfl
@[simp] theorem State.setPslot_start (s : State) (k : Nat) (x : PourSlot) : (s.setPslot k x).start = s.start := rfl
@[simp] theorem State.setPslot_link (s : State) (k : Nat) (x : PourSlot) : (s.setPslot k x).link = s.link := rfl
@[simp] theorem State.setPslot_cells (s : State) (k : Nat) (x : PourSlot) : (s.setPslot k x).cells = s.cells := rfl
@[simp] theorem State.setPslot_eng (s : State) (k : Nat) (x : PourSlot) : (s.setPslot k x).eng = s.eng := rfl
@[simp] theorem State.setPslot_grid (s : State) (k : Nat) (x : PourSlot) : (s.setPslot k x).grid = s.grid := rfl
@[simp] theorem State.setPslot_mppt (s : State) (k : Nat) (x : PourSlot) : (s.setPslot k x).mppt = s.mppt := rfl
@[simp] theorem State.setPslot_frt (s : State) (k : Nat) (x : PourSlot) : (s.setPslot k x).frt = s.frt := rfl
@[simp] theorem State.setPslot_bus (s : State) (k : Nat) (x : PourSlot) : (s.setPslot k x).bus = s.bus := rfl
@[simp] theorem State.setPslot_mtr (s : State) (k : Nat) (x : PourSlot) : (s.setPslot k x).mtr = s.mtr := rfl
@[simp] theorem State.setPslot_lanes (s : State) (k : Nat) (x : PourSlot) : (s.setPslot k x).lanes = s.lanes := rfl
@[simp] theorem State.setPslot_carafe (s : State) (k : Nat) (x : PourSlot) : (s.setPslot k x).carafe = s.carafe := rfl
@[simp] theorem State.setPslot_wear (s : State) (k : Nat) (x : PourSlot) : (s.setPslot k x).wear = s.wear := rfl
@[simp] theorem State.setPslot_safe (s : State) (k : Nat) (x : PourSlot) : (s.setPslot k x).safe = s.safe := rfl
@[simp] theorem State.setPslot_ana (s : State) (k : Nat) (x : PourSlot) : (s.setPslot k x).ana = s.ana := rfl
@[simp] theorem State.setPslot_pins (s : State) (k : Nat) (x : PourSlot) : (s.setPslot k x).pins = s.pins := rfl
@[simp] theorem State.setPslot_capAsk (s : State) (k : Nat) (x : PourSlot) : (s.setPslot k x).capAsk = s.capAsk := rfl
@[simp] theorem State.setPslot_pending (s : State) (k : Nat) (x : PourSlot) : (s.setPslot k x).pending = s.pending := rfl
@[simp] theorem State.setPslot_word (s : State) (k : Nat) (x : PourSlot) (r : Reg) : (s.setPslot k x).word r = s.word r := rfl
@[simp] theorem State.setPslot_get (s : State) (k : Nat) (x : PourSlot) (f : Fld) : (s.setPslot k x).get f = s.get f := rfl
@[simp] theorem State.setPslot_getS (s : State) (k : Nat) (x : PourSlot) (f : Fld) : (s.setPslot k x).getS f = s.getS f := rfl
@[simp] theorem State.setPslot_flag (s : State) (k : Nat) (x : PourSlot) (f : Fld) : (s.setPslot k x).flag f = s.flag f := rfl
@[simp] theorem State.setPslot_get64 (s : State) (k : Nat) (x : PourSlot) (lo hi : Reg) : (s.setPslot k x).get64 lo hi = s.get64 lo hi := rfl
@[simp] theorem State.setPslot_domState (s : State) (k : Nat) (x : PourSlot) (d : Nat) : (s.setPslot k x).domState d = s.domState d := rfl
@[simp] theorem State.setPslot_isOn (s : State) (k : Nat) (x : PourSlot) (d : Nat) : (s.setPslot k x).isOn d = s.isOn d := rfl
@[simp] theorem State.setPslot_works (s : State) (k : Nat) (x : PourSlot) (d : Nat) : (s.setPslot k x).works d = s.works d := rfl
@[simp] theorem State.setPslot_sess (s : State) (k : Nat) (x : PourSlot) (n : Nat) : (s.setPslot k x).sess n = s.sess n := rfl
@[simp] theorem State.setPslot_ring (s : State) (k : Nat) (x : PourSlot) (n : Nat) : (s.setPslot k x).ring n = s.ring n := rfl
@[simp] theorem State.setPslot_cellState (s : State) (k : Nat) (x : PourSlot) (k' : Nat) : (s.setPslot k x).cellState k' = s.cellState k' := rfl
@[simp] theorem State.setPslot_mtUnits (s : State) (k : Nat) (x : PourSlot) : (s.setPslot k x).mtUnits = s.mtUnits := rfl
@[simp] theorem State.setPslot_mtNs (s : State) (k : Nat) (x : PourSlot) : (s.setPslot k x).mtNs = s.mtNs := rfl
@[simp] theorem State.setPslot_pslot_same (s : State) (k : Nat) (x : PourSlot) : (s.setPslot k x).pslot k = x := Tbl.get_set_same ..
theorem State.setPslot_pslot_other (s : State) (k : Nat) (x : PourSlot) (i' : Nat) (h : i' ≠ k) : (s.setPslot k x).pslot i' = s.pslot i' := Tbl.get_set_other _ _ _ _ h

/-! ### setWcell -/

@[simp] theorem State.setWcell_now (s : State) (k : Nat) (x : WearCell) : (s.setWcell k x).now = s.now := rfl
@[simp] theorem State.setWcell_regs (s : State) (k : Nat) (x : WearCell) : (s.setWcell k x).regs = s.regs := rfl
@[simp] theorem State.setWcell_free (s : State) (k : Nat) (x : WearCell) : (s.setWcell k x).free = s.free := rfl
@[simp] theorem State.setWcell_clk (s : State) (k : Nat) (x : WearCell) : (s.setWcell k x).clk = s.clk := rfl
@[simp] theorem State.setWcell_mgmt (s : State) (k : Nat) (x : WearCell) : (s.setWcell k x).mgmt = s.mgmt := rfl
@[simp] theorem State.setWcell_log (s : State) (k : Nat) (x : WearCell) : (s.setWcell k x).log = s.log := rfl
@[simp] theorem State.setWcell_pwr (s : State) (k : Nat) (x : WearCell) : (s.setWcell k x).pwr = s.pwr := rfl
@[simp] theorem State.setWcell_start (s : State) (k : Nat) (x : WearCell) : (s.setWcell k x).start = s.start := rfl
@[simp] theorem State.setWcell_link (s : State) (k : Nat) (x : WearCell) : (s.setWcell k x).link = s.link := rfl
@[simp] theorem State.setWcell_cells (s : State) (k : Nat) (x : WearCell) : (s.setWcell k x).cells = s.cells := rfl
@[simp] theorem State.setWcell_eng (s : State) (k : Nat) (x : WearCell) : (s.setWcell k x).eng = s.eng := rfl
@[simp] theorem State.setWcell_grid (s : State) (k : Nat) (x : WearCell) : (s.setWcell k x).grid = s.grid := rfl
@[simp] theorem State.setWcell_mppt (s : State) (k : Nat) (x : WearCell) : (s.setWcell k x).mppt = s.mppt := rfl
@[simp] theorem State.setWcell_frt (s : State) (k : Nat) (x : WearCell) : (s.setWcell k x).frt = s.frt := rfl
@[simp] theorem State.setWcell_bus (s : State) (k : Nat) (x : WearCell) : (s.setWcell k x).bus = s.bus := rfl
@[simp] theorem State.setWcell_mtr (s : State) (k : Nat) (x : WearCell) : (s.setWcell k x).mtr = s.mtr := rfl
@[simp] theorem State.setWcell_lanes (s : State) (k : Nat) (x : WearCell) : (s.setWcell k x).lanes = s.lanes := rfl
@[simp] theorem State.setWcell_carafe (s : State) (k : Nat) (x : WearCell) : (s.setWcell k x).carafe = s.carafe := rfl
@[simp] theorem State.setWcell_safe (s : State) (k : Nat) (x : WearCell) : (s.setWcell k x).safe = s.safe := rfl
@[simp] theorem State.setWcell_ana (s : State) (k : Nat) (x : WearCell) : (s.setWcell k x).ana = s.ana := rfl
@[simp] theorem State.setWcell_pour (s : State) (k : Nat) (x : WearCell) : (s.setWcell k x).pour = s.pour := rfl
@[simp] theorem State.setWcell_pins (s : State) (k : Nat) (x : WearCell) : (s.setWcell k x).pins = s.pins := rfl
@[simp] theorem State.setWcell_capAsk (s : State) (k : Nat) (x : WearCell) : (s.setWcell k x).capAsk = s.capAsk := rfl
@[simp] theorem State.setWcell_pending (s : State) (k : Nat) (x : WearCell) : (s.setWcell k x).pending = s.pending := rfl
@[simp] theorem State.setWcell_word (s : State) (k : Nat) (x : WearCell) (r : Reg) : (s.setWcell k x).word r = s.word r := rfl
@[simp] theorem State.setWcell_get (s : State) (k : Nat) (x : WearCell) (f : Fld) : (s.setWcell k x).get f = s.get f := rfl
@[simp] theorem State.setWcell_getS (s : State) (k : Nat) (x : WearCell) (f : Fld) : (s.setWcell k x).getS f = s.getS f := rfl
@[simp] theorem State.setWcell_flag (s : State) (k : Nat) (x : WearCell) (f : Fld) : (s.setWcell k x).flag f = s.flag f := rfl
@[simp] theorem State.setWcell_get64 (s : State) (k : Nat) (x : WearCell) (lo hi : Reg) : (s.setWcell k x).get64 lo hi = s.get64 lo hi := rfl
@[simp] theorem State.setWcell_domState (s : State) (k : Nat) (x : WearCell) (d : Nat) : (s.setWcell k x).domState d = s.domState d := rfl
@[simp] theorem State.setWcell_isOn (s : State) (k : Nat) (x : WearCell) (d : Nat) : (s.setWcell k x).isOn d = s.isOn d := rfl
@[simp] theorem State.setWcell_works (s : State) (k : Nat) (x : WearCell) (d : Nat) : (s.setWcell k x).works d = s.works d := rfl
@[simp] theorem State.setWcell_sess (s : State) (k : Nat) (x : WearCell) (n : Nat) : (s.setWcell k x).sess n = s.sess n := rfl
@[simp] theorem State.setWcell_ring (s : State) (k : Nat) (x : WearCell) (n : Nat) : (s.setWcell k x).ring n = s.ring n := rfl
@[simp] theorem State.setWcell_cellState (s : State) (k : Nat) (x : WearCell) (k' : Nat) : (s.setWcell k x).cellState k' = s.cellState k' := rfl
@[simp] theorem State.setWcell_mtUnits (s : State) (k : Nat) (x : WearCell) : (s.setWcell k x).mtUnits = s.mtUnits := rfl
@[simp] theorem State.setWcell_mtNs (s : State) (k : Nat) (x : WearCell) : (s.setWcell k x).mtNs = s.mtNs := rfl
@[simp] theorem State.setWcell_wcell_same (s : State) (k : Nat) (x : WearCell) : (s.setWcell k x).wcell k = x := Tbl.get_set_same ..
theorem State.setWcell_wcell_other (s : State) (k : Nat) (x : WearCell) (i' : Nat) (h : i' ≠ k) : (s.setWcell k x).wcell i' = s.wcell i' := Tbl.get_set_other _ _ _ _ h

/-! ### setCellX -/

@[simp] theorem State.setCellX_now (s : State) (k : Nat) (x : CellX) : (s.setCellX k x).now = s.now := rfl
@[simp] theorem State.setCellX_regs (s : State) (k : Nat) (x : CellX) : (s.setCellX k x).regs = s.regs := rfl
@[simp] theorem State.setCellX_free (s : State) (k : Nat) (x : CellX) : (s.setCellX k x).free = s.free := rfl
@[simp] theorem State.setCellX_clk (s : State) (k : Nat) (x : CellX) : (s.setCellX k x).clk = s.clk := rfl
@[simp] theorem State.setCellX_mgmt (s : State) (k : Nat) (x : CellX) : (s.setCellX k x).mgmt = s.mgmt := rfl
@[simp] theorem State.setCellX_log (s : State) (k : Nat) (x : CellX) : (s.setCellX k x).log = s.log := rfl
@[simp] theorem State.setCellX_pwr (s : State) (k : Nat) (x : CellX) : (s.setCellX k x).pwr = s.pwr := rfl
@[simp] theorem State.setCellX_start (s : State) (k : Nat) (x : CellX) : (s.setCellX k x).start = s.start := rfl
@[simp] theorem State.setCellX_link (s : State) (k : Nat) (x : CellX) : (s.setCellX k x).link = s.link := rfl
@[simp] theorem State.setCellX_eng (s : State) (k : Nat) (x : CellX) : (s.setCellX k x).eng = s.eng := rfl
@[simp] theorem State.setCellX_grid (s : State) (k : Nat) (x : CellX) : (s.setCellX k x).grid = s.grid := rfl
@[simp] theorem State.setCellX_mppt (s : State) (k : Nat) (x : CellX) : (s.setCellX k x).mppt = s.mppt := rfl
@[simp] theorem State.setCellX_frt (s : State) (k : Nat) (x : CellX) : (s.setCellX k x).frt = s.frt := rfl
@[simp] theorem State.setCellX_bus (s : State) (k : Nat) (x : CellX) : (s.setCellX k x).bus = s.bus := rfl
@[simp] theorem State.setCellX_mtr (s : State) (k : Nat) (x : CellX) : (s.setCellX k x).mtr = s.mtr := rfl
@[simp] theorem State.setCellX_lanes (s : State) (k : Nat) (x : CellX) : (s.setCellX k x).lanes = s.lanes := rfl
@[simp] theorem State.setCellX_carafe (s : State) (k : Nat) (x : CellX) : (s.setCellX k x).carafe = s.carafe := rfl
@[simp] theorem State.setCellX_wear (s : State) (k : Nat) (x : CellX) : (s.setCellX k x).wear = s.wear := rfl
@[simp] theorem State.setCellX_safe (s : State) (k : Nat) (x : CellX) : (s.setCellX k x).safe = s.safe := rfl
@[simp] theorem State.setCellX_ana (s : State) (k : Nat) (x : CellX) : (s.setCellX k x).ana = s.ana := rfl
@[simp] theorem State.setCellX_pour (s : State) (k : Nat) (x : CellX) : (s.setCellX k x).pour = s.pour := rfl
@[simp] theorem State.setCellX_pins (s : State) (k : Nat) (x : CellX) : (s.setCellX k x).pins = s.pins := rfl
@[simp] theorem State.setCellX_capAsk (s : State) (k : Nat) (x : CellX) : (s.setCellX k x).capAsk = s.capAsk := rfl
@[simp] theorem State.setCellX_pending (s : State) (k : Nat) (x : CellX) : (s.setCellX k x).pending = s.pending := rfl
@[simp] theorem State.setCellX_word (s : State) (k : Nat) (x : CellX) (r : Reg) : (s.setCellX k x).word r = s.word r := rfl
@[simp] theorem State.setCellX_get (s : State) (k : Nat) (x : CellX) (f : Fld) : (s.setCellX k x).get f = s.get f := rfl
@[simp] theorem State.setCellX_getS (s : State) (k : Nat) (x : CellX) (f : Fld) : (s.setCellX k x).getS f = s.getS f := rfl
@[simp] theorem State.setCellX_flag (s : State) (k : Nat) (x : CellX) (f : Fld) : (s.setCellX k x).flag f = s.flag f := rfl
@[simp] theorem State.setCellX_get64 (s : State) (k : Nat) (x : CellX) (lo hi : Reg) : (s.setCellX k x).get64 lo hi = s.get64 lo hi := rfl
@[simp] theorem State.setCellX_domState (s : State) (k : Nat) (x : CellX) (d : Nat) : (s.setCellX k x).domState d = s.domState d := rfl
@[simp] theorem State.setCellX_isOn (s : State) (k : Nat) (x : CellX) (d : Nat) : (s.setCellX k x).isOn d = s.isOn d := rfl
@[simp] theorem State.setCellX_works (s : State) (k : Nat) (x : CellX) (d : Nat) : (s.setCellX k x).works d = s.works d := rfl
@[simp] theorem State.setCellX_sess (s : State) (k : Nat) (x : CellX) (n : Nat) : (s.setCellX k x).sess n = s.sess n := rfl
@[simp] theorem State.setCellX_ring (s : State) (k : Nat) (x : CellX) (n : Nat) : (s.setCellX k x).ring n = s.ring n := rfl
@[simp] theorem State.setCellX_cellState (s : State) (k : Nat) (x : CellX) (k' : Nat) : (s.setCellX k x).cellState k' = s.cellState k' := rfl
@[simp] theorem State.setCellX_mtUnits (s : State) (k : Nat) (x : CellX) : (s.setCellX k x).mtUnits = s.mtUnits := rfl
@[simp] theorem State.setCellX_mtNs (s : State) (k : Nat) (x : CellX) : (s.setCellX k x).mtNs = s.mtNs := rfl
@[simp] theorem State.setCellX_cell_same (s : State) (k : Nat) (x : CellX) : (s.setCellX k x).cell k = x := Tbl.get_set_same ..
theorem State.setCellX_cell_other (s : State) (k : Nat) (x : CellX) (i' : Nat) (h : i' ≠ k) : (s.setCellX k x).cell i' = s.cell i' := Tbl.get_set_other _ _ _ _ h

/-! ### setDec -/

@[simp] theorem State.setDec_now (s : State) (k : Nat) (d : Option PwmDec) : (s.setDec k d).now = s.now := rfl
@[simp] theorem State.setDec_regs (s : State) (k : Nat) (d : Option PwmDec) : (s.setDec k d).regs = s.regs := rfl
@[simp] theorem State.setDec_free (s : State) (k : Nat) (d : Option PwmDec) : (s.setDec k d).free = s.free := rfl
@[simp] theorem State.setDec_clk (s : State) (k : Nat) (d : Option PwmDec) : (s.setDec k d).clk = s.clk := rfl
@[simp] theorem State.setDec_mgmt (s : State) (k : Nat) (d : Option PwmDec) : (s.setDec k d).mgmt = s.mgmt := rfl
@[simp] theorem State.setDec_log (s : State) (k : Nat) (d : Option PwmDec) : (s.setDec k d).log = s.log := rfl
@[simp] theorem State.setDec_pwr (s : State) (k : Nat) (d : Option PwmDec) : (s.setDec k d).pwr = s.pwr := rfl
@[simp] theorem State.setDec_start (s : State) (k : Nat) (d : Option PwmDec) : (s.setDec k d).start = s.start := rfl
@[simp] theorem State.setDec_link (s : State) (k : Nat) (d : Option PwmDec) : (s.setDec k d).link = s.link := rfl
@[simp] theorem State.setDec_cells (s : State) (k : Nat) (d : Option PwmDec) : (s.setDec k d).cells = s.cells := rfl
@[simp] theorem State.setDec_grid (s : State) (k : Nat) (d : Option PwmDec) : (s.setDec k d).grid = s.grid := rfl
@[simp] theorem State.setDec_mppt (s : State) (k : Nat) (d : Option PwmDec) : (s.setDec k d).mppt = s.mppt := rfl
@[simp] theorem State.setDec_frt (s : State) (k : Nat) (d : Option PwmDec) : (s.setDec k d).frt = s.frt := rfl
@[simp] theorem State.setDec_bus (s : State) (k : Nat) (d : Option PwmDec) : (s.setDec k d).bus = s.bus := rfl
@[simp] theorem State.setDec_mtr (s : State) (k : Nat) (d : Option PwmDec) : (s.setDec k d).mtr = s.mtr := rfl
@[simp] theorem State.setDec_lanes (s : State) (k : Nat) (d : Option PwmDec) : (s.setDec k d).lanes = s.lanes := rfl
@[simp] theorem State.setDec_carafe (s : State) (k : Nat) (d : Option PwmDec) : (s.setDec k d).carafe = s.carafe := rfl
@[simp] theorem State.setDec_wear (s : State) (k : Nat) (d : Option PwmDec) : (s.setDec k d).wear = s.wear := rfl
@[simp] theorem State.setDec_safe (s : State) (k : Nat) (d : Option PwmDec) : (s.setDec k d).safe = s.safe := rfl
@[simp] theorem State.setDec_ana (s : State) (k : Nat) (d : Option PwmDec) : (s.setDec k d).ana = s.ana := rfl
@[simp] theorem State.setDec_pour (s : State) (k : Nat) (d : Option PwmDec) : (s.setDec k d).pour = s.pour := rfl
@[simp] theorem State.setDec_pins (s : State) (k : Nat) (d : Option PwmDec) : (s.setDec k d).pins = s.pins := rfl
@[simp] theorem State.setDec_capAsk (s : State) (k : Nat) (d : Option PwmDec) : (s.setDec k d).capAsk = s.capAsk := rfl
@[simp] theorem State.setDec_pending (s : State) (k : Nat) (d : Option PwmDec) : (s.setDec k d).pending = s.pending := rfl
@[simp] theorem State.setDec_word (s : State) (k : Nat) (d : Option PwmDec) (r : Reg) : (s.setDec k d).word r = s.word r := rfl
@[simp] theorem State.setDec_get (s : State) (k : Nat) (d : Option PwmDec) (f : Fld) : (s.setDec k d).get f = s.get f := rfl
@[simp] theorem State.setDec_getS (s : State) (k : Nat) (d : Option PwmDec) (f : Fld) : (s.setDec k d).getS f = s.getS f := rfl
@[simp] theorem State.setDec_flag (s : State) (k : Nat) (d : Option PwmDec) (f : Fld) : (s.setDec k d).flag f = s.flag f := rfl
@[simp] theorem State.setDec_get64 (s : State) (k : Nat) (d : Option PwmDec) (lo hi : Reg) : (s.setDec k d).get64 lo hi = s.get64 lo hi := rfl
@[simp] theorem State.setDec_domState (s : State) (k : Nat) (d : Option PwmDec) (d' : Nat) : (s.setDec k d).domState d' = s.domState d' := rfl
@[simp] theorem State.setDec_isOn (s : State) (k : Nat) (d : Option PwmDec) (d' : Nat) : (s.setDec k d).isOn d' = s.isOn d' := rfl
@[simp] theorem State.setDec_works (s : State) (k : Nat) (d : Option PwmDec) (d' : Nat) : (s.setDec k d).works d' = s.works d' := rfl
@[simp] theorem State.setDec_sess (s : State) (k : Nat) (d : Option PwmDec) (n : Nat) : (s.setDec k d).sess n = s.sess n := rfl
@[simp] theorem State.setDec_ring (s : State) (k : Nat) (d : Option PwmDec) (n : Nat) : (s.setDec k d).ring n = s.ring n := rfl
@[simp] theorem State.setDec_cellState (s : State) (k : Nat) (d : Option PwmDec) (k' : Nat) : (s.setDec k d).cellState k' = s.cellState k' := rfl
@[simp] theorem State.setDec_mtUnits (s : State) (k : Nat) (d : Option PwmDec) : (s.setDec k d).mtUnits = s.mtUnits := rfl
@[simp] theorem State.setDec_mtNs (s : State) (k : Nat) (d : Option PwmDec) : (s.setDec k d).mtNs = s.mtNs := rfl

/-! ### setGpt -/

@[simp] theorem State.setGpt_now (s : State) (p : Nat) (x : GridPt) : (s.setGpt p x).now = s.now := rfl
@[simp] theorem State.setGpt_regs (s : State) (p : Nat) (x : GridPt) : (s.setGpt p x).regs = s.regs := rfl
@[simp] theorem State.setGpt_free (s : State) (p : Nat) (x : GridPt) : (s.setGpt p x).free = s.free := rfl
@[simp] theorem State.setGpt_clk (s : State) (p : Nat) (x : GridPt) : (s.setGpt p x).clk = s.clk := rfl
@[simp] theorem State.setGpt_mgmt (s : State) (p : Nat) (x : GridPt) : (s.setGpt p x).mgmt = s.mgmt := rfl
@[simp] theorem State.setGpt_log (s : State) (p : Nat) (x : GridPt) : (s.setGpt p x).log = s.log := rfl
@[simp] theorem State.setGpt_pwr (s : State) (p : Nat) (x : GridPt) : (s.setGpt p x).pwr = s.pwr := rfl
@[simp] theorem State.setGpt_start (s : State) (p : Nat) (x : GridPt) : (s.setGpt p x).start = s.start := rfl
@[simp] theorem State.setGpt_link (s : State) (p : Nat) (x : GridPt) : (s.setGpt p x).link = s.link := rfl
@[simp] theorem State.setGpt_cells (s : State) (p : Nat) (x : GridPt) : (s.setGpt p x).cells = s.cells := rfl
@[simp] theorem State.setGpt_eng (s : State) (p : Nat) (x : GridPt) : (s.setGpt p x).eng = s.eng := rfl
@[simp] theorem State.setGpt_mppt (s : State) (p : Nat) (x : GridPt) : (s.setGpt p x).mppt = s.mppt := rfl
@[simp] theorem State.setGpt_frt (s : State) (p : Nat) (x : GridPt) : (s.setGpt p x).frt = s.frt := rfl
@[simp] theorem State.setGpt_bus (s : State) (p : Nat) (x : GridPt) : (s.setGpt p x).bus = s.bus := rfl
@[simp] theorem State.setGpt_mtr (s : State) (p : Nat) (x : GridPt) : (s.setGpt p x).mtr = s.mtr := rfl
@[simp] theorem State.setGpt_lanes (s : State) (p : Nat) (x : GridPt) : (s.setGpt p x).lanes = s.lanes := rfl
@[simp] theorem State.setGpt_carafe (s : State) (p : Nat) (x : GridPt) : (s.setGpt p x).carafe = s.carafe := rfl
@[simp] theorem State.setGpt_wear (s : State) (p : Nat) (x : GridPt) : (s.setGpt p x).wear = s.wear := rfl
@[simp] theorem State.setGpt_safe (s : State) (p : Nat) (x : GridPt) : (s.setGpt p x).safe = s.safe := rfl
@[simp] theorem State.setGpt_ana (s : State) (p : Nat) (x : GridPt) : (s.setGpt p x).ana = s.ana := rfl
@[simp] theorem State.setGpt_pour (s : State) (p : Nat) (x : GridPt) : (s.setGpt p x).pour = s.pour := rfl
@[simp] theorem State.setGpt_pins (s : State) (p : Nat) (x : GridPt) : (s.setGpt p x).pins = s.pins := rfl
@[simp] theorem State.setGpt_capAsk (s : State) (p : Nat) (x : GridPt) : (s.setGpt p x).capAsk = s.capAsk := rfl
@[simp] theorem State.setGpt_pending (s : State) (p : Nat) (x : GridPt) : (s.setGpt p x).pending = s.pending := rfl
@[simp] theorem State.setGpt_word (s : State) (p : Nat) (x : GridPt) (r : Reg) : (s.setGpt p x).word r = s.word r := rfl
@[simp] theorem State.setGpt_get (s : State) (p : Nat) (x : GridPt) (f : Fld) : (s.setGpt p x).get f = s.get f := rfl
@[simp] theorem State.setGpt_getS (s : State) (p : Nat) (x : GridPt) (f : Fld) : (s.setGpt p x).getS f = s.getS f := rfl
@[simp] theorem State.setGpt_flag (s : State) (p : Nat) (x : GridPt) (f : Fld) : (s.setGpt p x).flag f = s.flag f := rfl
@[simp] theorem State.setGpt_get64 (s : State) (p : Nat) (x : GridPt) (lo hi : Reg) : (s.setGpt p x).get64 lo hi = s.get64 lo hi := rfl
@[simp] theorem State.setGpt_domState (s : State) (p : Nat) (x : GridPt) (d : Nat) : (s.setGpt p x).domState d = s.domState d := rfl
@[simp] theorem State.setGpt_isOn (s : State) (p : Nat) (x : GridPt) (d : Nat) : (s.setGpt p x).isOn d = s.isOn d := rfl
@[simp] theorem State.setGpt_works (s : State) (p : Nat) (x : GridPt) (d : Nat) : (s.setGpt p x).works d = s.works d := rfl
@[simp] theorem State.setGpt_sess (s : State) (p : Nat) (x : GridPt) (n : Nat) : (s.setGpt p x).sess n = s.sess n := rfl
@[simp] theorem State.setGpt_ring (s : State) (p : Nat) (x : GridPt) (n : Nat) : (s.setGpt p x).ring n = s.ring n := rfl
@[simp] theorem State.setGpt_cellState (s : State) (p : Nat) (x : GridPt) (k : Nat) : (s.setGpt p x).cellState k = s.cellState k := rfl
@[simp] theorem State.setGpt_mtUnits (s : State) (p : Nat) (x : GridPt) : (s.setGpt p x).mtUnits = s.mtUnits := rfl
@[simp] theorem State.setGpt_mtNs (s : State) (p : Nat) (x : GridPt) : (s.setGpt p x).mtNs = s.mtNs := rfl
@[simp] theorem State.setGpt_gpt_same (s : State) (p : Nat) (x : GridPt) : (s.setGpt p x).gpt p = x := Tbl.get_set_same ..
theorem State.setGpt_gpt_other (s : State) (p : Nat) (x : GridPt) (i' : Nat) (h : i' ≠ p) : (s.setGpt p x).gpt i' = s.gpt i' := Tbl.get_set_other _ _ _ _ h

/-! ### setGclu -/

@[simp] theorem State.setGclu_now (s : State) (c : Nat) (x : GridClu) : (s.setGclu c x).now = s.now := rfl
@[simp] theorem State.setGclu_regs (s : State) (c : Nat) (x : GridClu) : (s.setGclu c x).regs = s.regs := rfl
@[simp] theorem State.setGclu_free (s : State) (c : Nat) (x : GridClu) : (s.setGclu c x).free = s.free := rfl
@[simp] theorem State.setGclu_clk (s : State) (c : Nat) (x : GridClu) : (s.setGclu c x).clk = s.clk := rfl
@[simp] theorem State.setGclu_mgmt (s : State) (c : Nat) (x : GridClu) : (s.setGclu c x).mgmt = s.mgmt := rfl
@[simp] theorem State.setGclu_log (s : State) (c : Nat) (x : GridClu) : (s.setGclu c x).log = s.log := rfl
@[simp] theorem State.setGclu_pwr (s : State) (c : Nat) (x : GridClu) : (s.setGclu c x).pwr = s.pwr := rfl
@[simp] theorem State.setGclu_start (s : State) (c : Nat) (x : GridClu) : (s.setGclu c x).start = s.start := rfl
@[simp] theorem State.setGclu_link (s : State) (c : Nat) (x : GridClu) : (s.setGclu c x).link = s.link := rfl
@[simp] theorem State.setGclu_cells (s : State) (c : Nat) (x : GridClu) : (s.setGclu c x).cells = s.cells := rfl
@[simp] theorem State.setGclu_eng (s : State) (c : Nat) (x : GridClu) : (s.setGclu c x).eng = s.eng := rfl
@[simp] theorem State.setGclu_mppt (s : State) (c : Nat) (x : GridClu) : (s.setGclu c x).mppt = s.mppt := rfl
@[simp] theorem State.setGclu_frt (s : State) (c : Nat) (x : GridClu) : (s.setGclu c x).frt = s.frt := rfl
@[simp] theorem State.setGclu_bus (s : State) (c : Nat) (x : GridClu) : (s.setGclu c x).bus = s.bus := rfl
@[simp] theorem State.setGclu_mtr (s : State) (c : Nat) (x : GridClu) : (s.setGclu c x).mtr = s.mtr := rfl
@[simp] theorem State.setGclu_lanes (s : State) (c : Nat) (x : GridClu) : (s.setGclu c x).lanes = s.lanes := rfl
@[simp] theorem State.setGclu_carafe (s : State) (c : Nat) (x : GridClu) : (s.setGclu c x).carafe = s.carafe := rfl
@[simp] theorem State.setGclu_wear (s : State) (c : Nat) (x : GridClu) : (s.setGclu c x).wear = s.wear := rfl
@[simp] theorem State.setGclu_safe (s : State) (c : Nat) (x : GridClu) : (s.setGclu c x).safe = s.safe := rfl
@[simp] theorem State.setGclu_ana (s : State) (c : Nat) (x : GridClu) : (s.setGclu c x).ana = s.ana := rfl
@[simp] theorem State.setGclu_pour (s : State) (c : Nat) (x : GridClu) : (s.setGclu c x).pour = s.pour := rfl
@[simp] theorem State.setGclu_pins (s : State) (c : Nat) (x : GridClu) : (s.setGclu c x).pins = s.pins := rfl
@[simp] theorem State.setGclu_capAsk (s : State) (c : Nat) (x : GridClu) : (s.setGclu c x).capAsk = s.capAsk := rfl
@[simp] theorem State.setGclu_pending (s : State) (c : Nat) (x : GridClu) : (s.setGclu c x).pending = s.pending := rfl
@[simp] theorem State.setGclu_word (s : State) (c : Nat) (x : GridClu) (r : Reg) : (s.setGclu c x).word r = s.word r := rfl
@[simp] theorem State.setGclu_get (s : State) (c : Nat) (x : GridClu) (f : Fld) : (s.setGclu c x).get f = s.get f := rfl
@[simp] theorem State.setGclu_getS (s : State) (c : Nat) (x : GridClu) (f : Fld) : (s.setGclu c x).getS f = s.getS f := rfl
@[simp] theorem State.setGclu_flag (s : State) (c : Nat) (x : GridClu) (f : Fld) : (s.setGclu c x).flag f = s.flag f := rfl
@[simp] theorem State.setGclu_get64 (s : State) (c : Nat) (x : GridClu) (lo hi : Reg) : (s.setGclu c x).get64 lo hi = s.get64 lo hi := rfl
@[simp] theorem State.setGclu_domState (s : State) (c : Nat) (x : GridClu) (d : Nat) : (s.setGclu c x).domState d = s.domState d := rfl
@[simp] theorem State.setGclu_isOn (s : State) (c : Nat) (x : GridClu) (d : Nat) : (s.setGclu c x).isOn d = s.isOn d := rfl
@[simp] theorem State.setGclu_works (s : State) (c : Nat) (x : GridClu) (d : Nat) : (s.setGclu c x).works d = s.works d := rfl
@[simp] theorem State.setGclu_sess (s : State) (c : Nat) (x : GridClu) (n : Nat) : (s.setGclu c x).sess n = s.sess n := rfl
@[simp] theorem State.setGclu_ring (s : State) (c : Nat) (x : GridClu) (n : Nat) : (s.setGclu c x).ring n = s.ring n := rfl
@[simp] theorem State.setGclu_cellState (s : State) (c : Nat) (x : GridClu) (k : Nat) : (s.setGclu c x).cellState k = s.cellState k := rfl
@[simp] theorem State.setGclu_mtUnits (s : State) (c : Nat) (x : GridClu) : (s.setGclu c x).mtUnits = s.mtUnits := rfl
@[simp] theorem State.setGclu_mtNs (s : State) (c : Nat) (x : GridClu) : (s.setGclu c x).mtNs = s.mtNs := rfl
@[simp] theorem State.setGclu_gclu_same (s : State) (c : Nat) (x : GridClu) : (s.setGclu c x).gclu c = x := Tbl.get_set_same ..
theorem State.setGclu_gclu_other (s : State) (c : Nat) (x : GridClu) (i' : Nat) (h : i' ≠ c) : (s.setGclu c x).gclu i' = s.gclu i' := Tbl.get_set_other _ _ _ _ h

/-! ### setGcell -/

@[simp] theorem State.setGcell_now (s : State) (k : Nat) (x : GridCell) : (s.setGcell k x).now = s.now := rfl
@[simp] theorem State.setGcell_regs (s : State) (k : Nat) (x : GridCell) : (s.setGcell k x).regs = s.regs := rfl
@[simp] theorem State.setGcell_free (s : State) (k : Nat) (x : GridCell) : (s.setGcell k x).free = s.free := rfl
@[simp] theorem State.setGcell_clk (s : State) (k : Nat) (x : GridCell) : (s.setGcell k x).clk = s.clk := rfl
@[simp] theorem State.setGcell_mgmt (s : State) (k : Nat) (x : GridCell) : (s.setGcell k x).mgmt = s.mgmt := rfl
@[simp] theorem State.setGcell_log (s : State) (k : Nat) (x : GridCell) : (s.setGcell k x).log = s.log := rfl
@[simp] theorem State.setGcell_pwr (s : State) (k : Nat) (x : GridCell) : (s.setGcell k x).pwr = s.pwr := rfl
@[simp] theorem State.setGcell_start (s : State) (k : Nat) (x : GridCell) : (s.setGcell k x).start = s.start := rfl
@[simp] theorem State.setGcell_link (s : State) (k : Nat) (x : GridCell) : (s.setGcell k x).link = s.link := rfl
@[simp] theorem State.setGcell_cells (s : State) (k : Nat) (x : GridCell) : (s.setGcell k x).cells = s.cells := rfl
@[simp] theorem State.setGcell_eng (s : State) (k : Nat) (x : GridCell) : (s.setGcell k x).eng = s.eng := rfl
@[simp] theorem State.setGcell_mppt (s : State) (k : Nat) (x : GridCell) : (s.setGcell k x).mppt = s.mppt := rfl
@[simp] theorem State.setGcell_frt (s : State) (k : Nat) (x : GridCell) : (s.setGcell k x).frt = s.frt := rfl
@[simp] theorem State.setGcell_bus (s : State) (k : Nat) (x : GridCell) : (s.setGcell k x).bus = s.bus := rfl
@[simp] theorem State.setGcell_mtr (s : State) (k : Nat) (x : GridCell) : (s.setGcell k x).mtr = s.mtr := rfl
@[simp] theorem State.setGcell_lanes (s : State) (k : Nat) (x : GridCell) : (s.setGcell k x).lanes = s.lanes := rfl
@[simp] theorem State.setGcell_carafe (s : State) (k : Nat) (x : GridCell) : (s.setGcell k x).carafe = s.carafe := rfl
@[simp] theorem State.setGcell_wear (s : State) (k : Nat) (x : GridCell) : (s.setGcell k x).wear = s.wear := rfl
@[simp] theorem State.setGcell_safe (s : State) (k : Nat) (x : GridCell) : (s.setGcell k x).safe = s.safe := rfl
@[simp] theorem State.setGcell_ana (s : State) (k : Nat) (x : GridCell) : (s.setGcell k x).ana = s.ana := rfl
@[simp] theorem State.setGcell_pour (s : State) (k : Nat) (x : GridCell) : (s.setGcell k x).pour = s.pour := rfl
@[simp] theorem State.setGcell_pins (s : State) (k : Nat) (x : GridCell) : (s.setGcell k x).pins = s.pins := rfl
@[simp] theorem State.setGcell_capAsk (s : State) (k : Nat) (x : GridCell) : (s.setGcell k x).capAsk = s.capAsk := rfl
@[simp] theorem State.setGcell_pending (s : State) (k : Nat) (x : GridCell) : (s.setGcell k x).pending = s.pending := rfl
@[simp] theorem State.setGcell_word (s : State) (k : Nat) (x : GridCell) (r : Reg) : (s.setGcell k x).word r = s.word r := rfl
@[simp] theorem State.setGcell_get (s : State) (k : Nat) (x : GridCell) (f : Fld) : (s.setGcell k x).get f = s.get f := rfl
@[simp] theorem State.setGcell_getS (s : State) (k : Nat) (x : GridCell) (f : Fld) : (s.setGcell k x).getS f = s.getS f := rfl
@[simp] theorem State.setGcell_flag (s : State) (k : Nat) (x : GridCell) (f : Fld) : (s.setGcell k x).flag f = s.flag f := rfl
@[simp] theorem State.setGcell_get64 (s : State) (k : Nat) (x : GridCell) (lo hi : Reg) : (s.setGcell k x).get64 lo hi = s.get64 lo hi := rfl
@[simp] theorem State.setGcell_domState (s : State) (k : Nat) (x : GridCell) (d : Nat) : (s.setGcell k x).domState d = s.domState d := rfl
@[simp] theorem State.setGcell_isOn (s : State) (k : Nat) (x : GridCell) (d : Nat) : (s.setGcell k x).isOn d = s.isOn d := rfl
@[simp] theorem State.setGcell_works (s : State) (k : Nat) (x : GridCell) (d : Nat) : (s.setGcell k x).works d = s.works d := rfl
@[simp] theorem State.setGcell_sess (s : State) (k : Nat) (x : GridCell) (n : Nat) : (s.setGcell k x).sess n = s.sess n := rfl
@[simp] theorem State.setGcell_ring (s : State) (k : Nat) (x : GridCell) (n : Nat) : (s.setGcell k x).ring n = s.ring n := rfl
@[simp] theorem State.setGcell_cellState (s : State) (k : Nat) (x : GridCell) (k' : Nat) : (s.setGcell k x).cellState k' = s.cellState k' := rfl
@[simp] theorem State.setGcell_mtUnits (s : State) (k : Nat) (x : GridCell) : (s.setGcell k x).mtUnits = s.mtUnits := rfl
@[simp] theorem State.setGcell_mtNs (s : State) (k : Nat) (x : GridCell) : (s.setGcell k x).mtNs = s.mtNs := rfl
@[simp] theorem State.setGcell_gcell_same (s : State) (k : Nat) (x : GridCell) : (s.setGcell k x).gcell k = x := Tbl.get_set_same ..
theorem State.setGcell_gcell_other (s : State) (k : Nat) (x : GridCell) (i' : Nat) (h : i' ≠ k) : (s.setGcell k x).gcell i' = s.gcell i' := Tbl.get_set_other _ _ _ _ h

/-! ### setMcell -/

@[simp] theorem State.setMcell_now (s : State) (k : Nat) (x : MpptCell) : (s.setMcell k x).now = s.now := rfl
@[simp] theorem State.setMcell_regs (s : State) (k : Nat) (x : MpptCell) : (s.setMcell k x).regs = s.regs := rfl
@[simp] theorem State.setMcell_free (s : State) (k : Nat) (x : MpptCell) : (s.setMcell k x).free = s.free := rfl
@[simp] theorem State.setMcell_clk (s : State) (k : Nat) (x : MpptCell) : (s.setMcell k x).clk = s.clk := rfl
@[simp] theorem State.setMcell_mgmt (s : State) (k : Nat) (x : MpptCell) : (s.setMcell k x).mgmt = s.mgmt := rfl
@[simp] theorem State.setMcell_log (s : State) (k : Nat) (x : MpptCell) : (s.setMcell k x).log = s.log := rfl
@[simp] theorem State.setMcell_pwr (s : State) (k : Nat) (x : MpptCell) : (s.setMcell k x).pwr = s.pwr := rfl
@[simp] theorem State.setMcell_start (s : State) (k : Nat) (x : MpptCell) : (s.setMcell k x).start = s.start := rfl
@[simp] theorem State.setMcell_link (s : State) (k : Nat) (x : MpptCell) : (s.setMcell k x).link = s.link := rfl
@[simp] theorem State.setMcell_cells (s : State) (k : Nat) (x : MpptCell) : (s.setMcell k x).cells = s.cells := rfl
@[simp] theorem State.setMcell_eng (s : State) (k : Nat) (x : MpptCell) : (s.setMcell k x).eng = s.eng := rfl
@[simp] theorem State.setMcell_grid (s : State) (k : Nat) (x : MpptCell) : (s.setMcell k x).grid = s.grid := rfl
@[simp] theorem State.setMcell_frt (s : State) (k : Nat) (x : MpptCell) : (s.setMcell k x).frt = s.frt := rfl
@[simp] theorem State.setMcell_bus (s : State) (k : Nat) (x : MpptCell) : (s.setMcell k x).bus = s.bus := rfl
@[simp] theorem State.setMcell_mtr (s : State) (k : Nat) (x : MpptCell) : (s.setMcell k x).mtr = s.mtr := rfl
@[simp] theorem State.setMcell_lanes (s : State) (k : Nat) (x : MpptCell) : (s.setMcell k x).lanes = s.lanes := rfl
@[simp] theorem State.setMcell_carafe (s : State) (k : Nat) (x : MpptCell) : (s.setMcell k x).carafe = s.carafe := rfl
@[simp] theorem State.setMcell_wear (s : State) (k : Nat) (x : MpptCell) : (s.setMcell k x).wear = s.wear := rfl
@[simp] theorem State.setMcell_safe (s : State) (k : Nat) (x : MpptCell) : (s.setMcell k x).safe = s.safe := rfl
@[simp] theorem State.setMcell_ana (s : State) (k : Nat) (x : MpptCell) : (s.setMcell k x).ana = s.ana := rfl
@[simp] theorem State.setMcell_pour (s : State) (k : Nat) (x : MpptCell) : (s.setMcell k x).pour = s.pour := rfl
@[simp] theorem State.setMcell_pins (s : State) (k : Nat) (x : MpptCell) : (s.setMcell k x).pins = s.pins := rfl
@[simp] theorem State.setMcell_capAsk (s : State) (k : Nat) (x : MpptCell) : (s.setMcell k x).capAsk = s.capAsk := rfl
@[simp] theorem State.setMcell_pending (s : State) (k : Nat) (x : MpptCell) : (s.setMcell k x).pending = s.pending := rfl
@[simp] theorem State.setMcell_word (s : State) (k : Nat) (x : MpptCell) (r : Reg) : (s.setMcell k x).word r = s.word r := rfl
@[simp] theorem State.setMcell_get (s : State) (k : Nat) (x : MpptCell) (f : Fld) : (s.setMcell k x).get f = s.get f := rfl
@[simp] theorem State.setMcell_getS (s : State) (k : Nat) (x : MpptCell) (f : Fld) : (s.setMcell k x).getS f = s.getS f := rfl
@[simp] theorem State.setMcell_flag (s : State) (k : Nat) (x : MpptCell) (f : Fld) : (s.setMcell k x).flag f = s.flag f := rfl
@[simp] theorem State.setMcell_get64 (s : State) (k : Nat) (x : MpptCell) (lo hi : Reg) : (s.setMcell k x).get64 lo hi = s.get64 lo hi := rfl
@[simp] theorem State.setMcell_domState (s : State) (k : Nat) (x : MpptCell) (d : Nat) : (s.setMcell k x).domState d = s.domState d := rfl
@[simp] theorem State.setMcell_isOn (s : State) (k : Nat) (x : MpptCell) (d : Nat) : (s.setMcell k x).isOn d = s.isOn d := rfl
@[simp] theorem State.setMcell_works (s : State) (k : Nat) (x : MpptCell) (d : Nat) : (s.setMcell k x).works d = s.works d := rfl
@[simp] theorem State.setMcell_sess (s : State) (k : Nat) (x : MpptCell) (n : Nat) : (s.setMcell k x).sess n = s.sess n := rfl
@[simp] theorem State.setMcell_ring (s : State) (k : Nat) (x : MpptCell) (n : Nat) : (s.setMcell k x).ring n = s.ring n := rfl
@[simp] theorem State.setMcell_cellState (s : State) (k : Nat) (x : MpptCell) (k' : Nat) : (s.setMcell k x).cellState k' = s.cellState k' := rfl
@[simp] theorem State.setMcell_mtUnits (s : State) (k : Nat) (x : MpptCell) : (s.setMcell k x).mtUnits = s.mtUnits := rfl
@[simp] theorem State.setMcell_mtNs (s : State) (k : Nat) (x : MpptCell) : (s.setMcell k x).mtNs = s.mtNs := rfl
@[simp] theorem State.setMcell_mcell_same (s : State) (k : Nat) (x : MpptCell) : (s.setMcell k x).mcell k = x := Tbl.get_set_same ..
theorem State.setMcell_mcell_other (s : State) (k : Nat) (x : MpptCell) (i' : Nat) (h : i' ≠ k) : (s.setMcell k x).mcell i' = s.mcell i' := Tbl.get_set_other _ _ _ _ h

/-! ### setMclu -/

@[simp] theorem State.setMclu_now (s : State) (c : Nat) (x : MpptClu) : (s.setMclu c x).now = s.now := rfl
@[simp] theorem State.setMclu_regs (s : State) (c : Nat) (x : MpptClu) : (s.setMclu c x).regs = s.regs := rfl
@[simp] theorem State.setMclu_free (s : State) (c : Nat) (x : MpptClu) : (s.setMclu c x).free = s.free := rfl
@[simp] theorem State.setMclu_clk (s : State) (c : Nat) (x : MpptClu) : (s.setMclu c x).clk = s.clk := rfl
@[simp] theorem State.setMclu_mgmt (s : State) (c : Nat) (x : MpptClu) : (s.setMclu c x).mgmt = s.mgmt := rfl
@[simp] theorem State.setMclu_log (s : State) (c : Nat) (x : MpptClu) : (s.setMclu c x).log = s.log := rfl
@[simp] theorem State.setMclu_pwr (s : State) (c : Nat) (x : MpptClu) : (s.setMclu c x).pwr = s.pwr := rfl
@[simp] theorem State.setMclu_start (s : State) (c : Nat) (x : MpptClu) : (s.setMclu c x).start = s.start := rfl
@[simp] theorem State.setMclu_link (s : State) (c : Nat) (x : MpptClu) : (s.setMclu c x).link = s.link := rfl
@[simp] theorem State.setMclu_cells (s : State) (c : Nat) (x : MpptClu) : (s.setMclu c x).cells = s.cells := rfl
@[simp] theorem State.setMclu_eng (s : State) (c : Nat) (x : MpptClu) : (s.setMclu c x).eng = s.eng := rfl
@[simp] theorem State.setMclu_grid (s : State) (c : Nat) (x : MpptClu) : (s.setMclu c x).grid = s.grid := rfl
@[simp] theorem State.setMclu_frt (s : State) (c : Nat) (x : MpptClu) : (s.setMclu c x).frt = s.frt := rfl
@[simp] theorem State.setMclu_bus (s : State) (c : Nat) (x : MpptClu) : (s.setMclu c x).bus = s.bus := rfl
@[simp] theorem State.setMclu_mtr (s : State) (c : Nat) (x : MpptClu) : (s.setMclu c x).mtr = s.mtr := rfl
@[simp] theorem State.setMclu_lanes (s : State) (c : Nat) (x : MpptClu) : (s.setMclu c x).lanes = s.lanes := rfl
@[simp] theorem State.setMclu_carafe (s : State) (c : Nat) (x : MpptClu) : (s.setMclu c x).carafe = s.carafe := rfl
@[simp] theorem State.setMclu_wear (s : State) (c : Nat) (x : MpptClu) : (s.setMclu c x).wear = s.wear := rfl
@[simp] theorem State.setMclu_safe (s : State) (c : Nat) (x : MpptClu) : (s.setMclu c x).safe = s.safe := rfl
@[simp] theorem State.setMclu_ana (s : State) (c : Nat) (x : MpptClu) : (s.setMclu c x).ana = s.ana := rfl
@[simp] theorem State.setMclu_pour (s : State) (c : Nat) (x : MpptClu) : (s.setMclu c x).pour = s.pour := rfl
@[simp] theorem State.setMclu_pins (s : State) (c : Nat) (x : MpptClu) : (s.setMclu c x).pins = s.pins := rfl
@[simp] theorem State.setMclu_capAsk (s : State) (c : Nat) (x : MpptClu) : (s.setMclu c x).capAsk = s.capAsk := rfl
@[simp] theorem State.setMclu_pending (s : State) (c : Nat) (x : MpptClu) : (s.setMclu c x).pending = s.pending := rfl
@[simp] theorem State.setMclu_word (s : State) (c : Nat) (x : MpptClu) (r : Reg) : (s.setMclu c x).word r = s.word r := rfl
@[simp] theorem State.setMclu_get (s : State) (c : Nat) (x : MpptClu) (f : Fld) : (s.setMclu c x).get f = s.get f := rfl
@[simp] theorem State.setMclu_getS (s : State) (c : Nat) (x : MpptClu) (f : Fld) : (s.setMclu c x).getS f = s.getS f := rfl
@[simp] theorem State.setMclu_flag (s : State) (c : Nat) (x : MpptClu) (f : Fld) : (s.setMclu c x).flag f = s.flag f := rfl
@[simp] theorem State.setMclu_get64 (s : State) (c : Nat) (x : MpptClu) (lo hi : Reg) : (s.setMclu c x).get64 lo hi = s.get64 lo hi := rfl
@[simp] theorem State.setMclu_domState (s : State) (c : Nat) (x : MpptClu) (d : Nat) : (s.setMclu c x).domState d = s.domState d := rfl
@[simp] theorem State.setMclu_isOn (s : State) (c : Nat) (x : MpptClu) (d : Nat) : (s.setMclu c x).isOn d = s.isOn d := rfl
@[simp] theorem State.setMclu_works (s : State) (c : Nat) (x : MpptClu) (d : Nat) : (s.setMclu c x).works d = s.works d := rfl
@[simp] theorem State.setMclu_sess (s : State) (c : Nat) (x : MpptClu) (n : Nat) : (s.setMclu c x).sess n = s.sess n := rfl
@[simp] theorem State.setMclu_ring (s : State) (c : Nat) (x : MpptClu) (n : Nat) : (s.setMclu c x).ring n = s.ring n := rfl
@[simp] theorem State.setMclu_cellState (s : State) (c : Nat) (x : MpptClu) (k : Nat) : (s.setMclu c x).cellState k = s.cellState k := rfl
@[simp] theorem State.setMclu_mtUnits (s : State) (c : Nat) (x : MpptClu) : (s.setMclu c x).mtUnits = s.mtUnits := rfl
@[simp] theorem State.setMclu_mtNs (s : State) (c : Nat) (x : MpptClu) : (s.setMclu c x).mtNs = s.mtNs := rfl
@[simp] theorem State.setMclu_mclu_same (s : State) (c : Nat) (x : MpptClu) : (s.setMclu c x).mclu c = x := Tbl.get_set_same ..
theorem State.setMclu_mclu_other (s : State) (c : Nat) (x : MpptClu) (i' : Nat) (h : i' ≠ c) : (s.setMclu c x).mclu i' = s.mclu i' := Tbl.get_set_other _ _ _ _ h

/-! ### setFclu -/

@[simp] theorem State.setFclu_now (s : State) (c : Nat) (x : FrtClu) : (s.setFclu c x).now = s.now := rfl
@[simp] theorem State.setFclu_regs (s : State) (c : Nat) (x : FrtClu) : (s.setFclu c x).regs = s.regs := rfl
@[simp] theorem State.setFclu_free (s : State) (c : Nat) (x : FrtClu) : (s.setFclu c x).free = s.free := rfl
@[simp] theorem State.setFclu_clk (s : State) (c : Nat) (x : FrtClu) : (s.setFclu c x).clk = s.clk := rfl
@[simp] theorem State.setFclu_mgmt (s : State) (c : Nat) (x : FrtClu) : (s.setFclu c x).mgmt = s.mgmt := rfl
@[simp] theorem State.setFclu_log (s : State) (c : Nat) (x : FrtClu) : (s.setFclu c x).log = s.log := rfl
@[simp] theorem State.setFclu_pwr (s : State) (c : Nat) (x : FrtClu) : (s.setFclu c x).pwr = s.pwr := rfl
@[simp] theorem State.setFclu_start (s : State) (c : Nat) (x : FrtClu) : (s.setFclu c x).start = s.start := rfl
@[simp] theorem State.setFclu_link (s : State) (c : Nat) (x : FrtClu) : (s.setFclu c x).link = s.link := rfl
@[simp] theorem State.setFclu_cells (s : State) (c : Nat) (x : FrtClu) : (s.setFclu c x).cells = s.cells := rfl
@[simp] theorem State.setFclu_eng (s : State) (c : Nat) (x : FrtClu) : (s.setFclu c x).eng = s.eng := rfl
@[simp] theorem State.setFclu_grid (s : State) (c : Nat) (x : FrtClu) : (s.setFclu c x).grid = s.grid := rfl
@[simp] theorem State.setFclu_mppt (s : State) (c : Nat) (x : FrtClu) : (s.setFclu c x).mppt = s.mppt := rfl
@[simp] theorem State.setFclu_bus (s : State) (c : Nat) (x : FrtClu) : (s.setFclu c x).bus = s.bus := rfl
@[simp] theorem State.setFclu_mtr (s : State) (c : Nat) (x : FrtClu) : (s.setFclu c x).mtr = s.mtr := rfl
@[simp] theorem State.setFclu_lanes (s : State) (c : Nat) (x : FrtClu) : (s.setFclu c x).lanes = s.lanes := rfl
@[simp] theorem State.setFclu_carafe (s : State) (c : Nat) (x : FrtClu) : (s.setFclu c x).carafe = s.carafe := rfl
@[simp] theorem State.setFclu_wear (s : State) (c : Nat) (x : FrtClu) : (s.setFclu c x).wear = s.wear := rfl
@[simp] theorem State.setFclu_safe (s : State) (c : Nat) (x : FrtClu) : (s.setFclu c x).safe = s.safe := rfl
@[simp] theorem State.setFclu_ana (s : State) (c : Nat) (x : FrtClu) : (s.setFclu c x).ana = s.ana := rfl
@[simp] theorem State.setFclu_pour (s : State) (c : Nat) (x : FrtClu) : (s.setFclu c x).pour = s.pour := rfl
@[simp] theorem State.setFclu_pins (s : State) (c : Nat) (x : FrtClu) : (s.setFclu c x).pins = s.pins := rfl
@[simp] theorem State.setFclu_capAsk (s : State) (c : Nat) (x : FrtClu) : (s.setFclu c x).capAsk = s.capAsk := rfl
@[simp] theorem State.setFclu_pending (s : State) (c : Nat) (x : FrtClu) : (s.setFclu c x).pending = s.pending := rfl
@[simp] theorem State.setFclu_word (s : State) (c : Nat) (x : FrtClu) (r : Reg) : (s.setFclu c x).word r = s.word r := rfl
@[simp] theorem State.setFclu_get (s : State) (c : Nat) (x : FrtClu) (f : Fld) : (s.setFclu c x).get f = s.get f := rfl
@[simp] theorem State.setFclu_getS (s : State) (c : Nat) (x : FrtClu) (f : Fld) : (s.setFclu c x).getS f = s.getS f := rfl
@[simp] theorem State.setFclu_flag (s : State) (c : Nat) (x : FrtClu) (f : Fld) : (s.setFclu c x).flag f = s.flag f := rfl
@[simp] theorem State.setFclu_get64 (s : State) (c : Nat) (x : FrtClu) (lo hi : Reg) : (s.setFclu c x).get64 lo hi = s.get64 lo hi := rfl
@[simp] theorem State.setFclu_domState (s : State) (c : Nat) (x : FrtClu) (d : Nat) : (s.setFclu c x).domState d = s.domState d := rfl
@[simp] theorem State.setFclu_isOn (s : State) (c : Nat) (x : FrtClu) (d : Nat) : (s.setFclu c x).isOn d = s.isOn d := rfl
@[simp] theorem State.setFclu_works (s : State) (c : Nat) (x : FrtClu) (d : Nat) : (s.setFclu c x).works d = s.works d := rfl
@[simp] theorem State.setFclu_sess (s : State) (c : Nat) (x : FrtClu) (n : Nat) : (s.setFclu c x).sess n = s.sess n := rfl
@[simp] theorem State.setFclu_ring (s : State) (c : Nat) (x : FrtClu) (n : Nat) : (s.setFclu c x).ring n = s.ring n := rfl
@[simp] theorem State.setFclu_cellState (s : State) (c : Nat) (x : FrtClu) (k : Nat) : (s.setFclu c x).cellState k = s.cellState k := rfl
@[simp] theorem State.setFclu_mtUnits (s : State) (c : Nat) (x : FrtClu) : (s.setFclu c x).mtUnits = s.mtUnits := rfl
@[simp] theorem State.setFclu_mtNs (s : State) (c : Nat) (x : FrtClu) : (s.setFclu c x).mtNs = s.mtNs := rfl
@[simp] theorem State.setFclu_fclu_same (s : State) (c : Nat) (x : FrtClu) : (s.setFclu c x).fclu c = x := Tbl.get_set_same ..
theorem State.setFclu_fclu_other (s : State) (c : Nat) (x : FrtClu) (i' : Nat) (h : i' ≠ c) : (s.setFclu c x).fclu i' = s.fclu i' := Tbl.get_set_other _ _ _ _ h

/-! ### setIsl -/

@[simp] theorem State.setIsl_now (s : State) (x : IslSt) : (s.setIsl x).now = s.now := rfl
@[simp] theorem State.setIsl_regs (s : State) (x : IslSt) : (s.setIsl x).regs = s.regs := rfl
@[simp] theorem State.setIsl_free (s : State) (x : IslSt) : (s.setIsl x).free = s.free := rfl
@[simp] theorem State.setIsl_clk (s : State) (x : IslSt) : (s.setIsl x).clk = s.clk := rfl
@[simp] theorem State.setIsl_mgmt (s : State) (x : IslSt) : (s.setIsl x).mgmt = s.mgmt := rfl
@[simp] theorem State.setIsl_log (s : State) (x : IslSt) : (s.setIsl x).log = s.log := rfl
@[simp] theorem State.setIsl_pwr (s : State) (x : IslSt) : (s.setIsl x).pwr = s.pwr := rfl
@[simp] theorem State.setIsl_start (s : State) (x : IslSt) : (s.setIsl x).start = s.start := rfl
@[simp] theorem State.setIsl_link (s : State) (x : IslSt) : (s.setIsl x).link = s.link := rfl
@[simp] theorem State.setIsl_cells (s : State) (x : IslSt) : (s.setIsl x).cells = s.cells := rfl
@[simp] theorem State.setIsl_eng (s : State) (x : IslSt) : (s.setIsl x).eng = s.eng := rfl
@[simp] theorem State.setIsl_grid (s : State) (x : IslSt) : (s.setIsl x).grid = s.grid := rfl
@[simp] theorem State.setIsl_mppt (s : State) (x : IslSt) : (s.setIsl x).mppt = s.mppt := rfl
@[simp] theorem State.setIsl_bus (s : State) (x : IslSt) : (s.setIsl x).bus = s.bus := rfl
@[simp] theorem State.setIsl_mtr (s : State) (x : IslSt) : (s.setIsl x).mtr = s.mtr := rfl
@[simp] theorem State.setIsl_lanes (s : State) (x : IslSt) : (s.setIsl x).lanes = s.lanes := rfl
@[simp] theorem State.setIsl_carafe (s : State) (x : IslSt) : (s.setIsl x).carafe = s.carafe := rfl
@[simp] theorem State.setIsl_wear (s : State) (x : IslSt) : (s.setIsl x).wear = s.wear := rfl
@[simp] theorem State.setIsl_safe (s : State) (x : IslSt) : (s.setIsl x).safe = s.safe := rfl
@[simp] theorem State.setIsl_ana (s : State) (x : IslSt) : (s.setIsl x).ana = s.ana := rfl
@[simp] theorem State.setIsl_pour (s : State) (x : IslSt) : (s.setIsl x).pour = s.pour := rfl
@[simp] theorem State.setIsl_pins (s : State) (x : IslSt) : (s.setIsl x).pins = s.pins := rfl
@[simp] theorem State.setIsl_capAsk (s : State) (x : IslSt) : (s.setIsl x).capAsk = s.capAsk := rfl
@[simp] theorem State.setIsl_pending (s : State) (x : IslSt) : (s.setIsl x).pending = s.pending := rfl
@[simp] theorem State.setIsl_word (s : State) (x : IslSt) (r : Reg) : (s.setIsl x).word r = s.word r := rfl
@[simp] theorem State.setIsl_get (s : State) (x : IslSt) (f : Fld) : (s.setIsl x).get f = s.get f := rfl
@[simp] theorem State.setIsl_getS (s : State) (x : IslSt) (f : Fld) : (s.setIsl x).getS f = s.getS f := rfl
@[simp] theorem State.setIsl_flag (s : State) (x : IslSt) (f : Fld) : (s.setIsl x).flag f = s.flag f := rfl
@[simp] theorem State.setIsl_get64 (s : State) (x : IslSt) (lo hi : Reg) : (s.setIsl x).get64 lo hi = s.get64 lo hi := rfl
@[simp] theorem State.setIsl_domState (s : State) (x : IslSt) (d : Nat) : (s.setIsl x).domState d = s.domState d := rfl
@[simp] theorem State.setIsl_isOn (s : State) (x : IslSt) (d : Nat) : (s.setIsl x).isOn d = s.isOn d := rfl
@[simp] theorem State.setIsl_works (s : State) (x : IslSt) (d : Nat) : (s.setIsl x).works d = s.works d := rfl
@[simp] theorem State.setIsl_sess (s : State) (x : IslSt) (n : Nat) : (s.setIsl x).sess n = s.sess n := rfl
@[simp] theorem State.setIsl_ring (s : State) (x : IslSt) (n : Nat) : (s.setIsl x).ring n = s.ring n := rfl
@[simp] theorem State.setIsl_cellState (s : State) (x : IslSt) (k : Nat) : (s.setIsl x).cellState k = s.cellState k := rfl
@[simp] theorem State.setIsl_mtUnits (s : State) (x : IslSt) : (s.setIsl x).mtUnits = s.mtUnits := rfl
@[simp] theorem State.setIsl_mtNs (s : State) (x : IslSt) : (s.setIsl x).mtNs = s.mtNs := rfl

/-! ### setLegX -/

@[simp] theorem State.setLegX_now (s : State) (l : Nat) (x : LegX) : (s.setLegX l x).now = s.now := rfl
@[simp] theorem State.setLegX_regs (s : State) (l : Nat) (x : LegX) : (s.setLegX l x).regs = s.regs := rfl
@[simp] theorem State.setLegX_free (s : State) (l : Nat) (x : LegX) : (s.setLegX l x).free = s.free := rfl
@[simp] theorem State.setLegX_clk (s : State) (l : Nat) (x : LegX) : (s.setLegX l x).clk = s.clk := rfl
@[simp] theorem State.setLegX_mgmt (s : State) (l : Nat) (x : LegX) : (s.setLegX l x).mgmt = s.mgmt := rfl
@[simp] theorem State.setLegX_log (s : State) (l : Nat) (x : LegX) : (s.setLegX l x).log = s.log := rfl
@[simp] theorem State.setLegX_pwr (s : State) (l : Nat) (x : LegX) : (s.setLegX l x).pwr = s.pwr := rfl
@[simp] theorem State.setLegX_start (s : State) (l : Nat) (x : LegX) : (s.setLegX l x).start = s.start := rfl
@[simp] theorem State.setLegX_link (s : State) (l : Nat) (x : LegX) : (s.setLegX l x).link = s.link := rfl
@[simp] theorem State.setLegX_cells (s : State) (l : Nat) (x : LegX) : (s.setLegX l x).cells = s.cells := rfl
@[simp] theorem State.setLegX_eng (s : State) (l : Nat) (x : LegX) : (s.setLegX l x).eng = s.eng := rfl
@[simp] theorem State.setLegX_grid (s : State) (l : Nat) (x : LegX) : (s.setLegX l x).grid = s.grid := rfl
@[simp] theorem State.setLegX_mppt (s : State) (l : Nat) (x : LegX) : (s.setLegX l x).mppt = s.mppt := rfl
@[simp] theorem State.setLegX_frt (s : State) (l : Nat) (x : LegX) : (s.setLegX l x).frt = s.frt := rfl
@[simp] theorem State.setLegX_bus (s : State) (l : Nat) (x : LegX) : (s.setLegX l x).bus = s.bus := rfl
@[simp] theorem State.setLegX_mtr (s : State) (l : Nat) (x : LegX) : (s.setLegX l x).mtr = s.mtr := rfl
@[simp] theorem State.setLegX_lanes (s : State) (l : Nat) (x : LegX) : (s.setLegX l x).lanes = s.lanes := rfl
@[simp] theorem State.setLegX_carafe (s : State) (l : Nat) (x : LegX) : (s.setLegX l x).carafe = s.carafe := rfl
@[simp] theorem State.setLegX_wear (s : State) (l : Nat) (x : LegX) : (s.setLegX l x).wear = s.wear := rfl
@[simp] theorem State.setLegX_safe (s : State) (l : Nat) (x : LegX) : (s.setLegX l x).safe = s.safe := rfl
@[simp] theorem State.setLegX_pour (s : State) (l : Nat) (x : LegX) : (s.setLegX l x).pour = s.pour := rfl
@[simp] theorem State.setLegX_pins (s : State) (l : Nat) (x : LegX) : (s.setLegX l x).pins = s.pins := rfl
@[simp] theorem State.setLegX_capAsk (s : State) (l : Nat) (x : LegX) : (s.setLegX l x).capAsk = s.capAsk := rfl
@[simp] theorem State.setLegX_pending (s : State) (l : Nat) (x : LegX) : (s.setLegX l x).pending = s.pending := rfl
@[simp] theorem State.setLegX_word (s : State) (l : Nat) (x : LegX) (r : Reg) : (s.setLegX l x).word r = s.word r := rfl
@[simp] theorem State.setLegX_get (s : State) (l : Nat) (x : LegX) (f : Fld) : (s.setLegX l x).get f = s.get f := rfl
@[simp] theorem State.setLegX_getS (s : State) (l : Nat) (x : LegX) (f : Fld) : (s.setLegX l x).getS f = s.getS f := rfl
@[simp] theorem State.setLegX_flag (s : State) (l : Nat) (x : LegX) (f : Fld) : (s.setLegX l x).flag f = s.flag f := rfl
@[simp] theorem State.setLegX_get64 (s : State) (l : Nat) (x : LegX) (lo hi : Reg) : (s.setLegX l x).get64 lo hi = s.get64 lo hi := rfl
@[simp] theorem State.setLegX_domState (s : State) (l : Nat) (x : LegX) (d : Nat) : (s.setLegX l x).domState d = s.domState d := rfl
@[simp] theorem State.setLegX_isOn (s : State) (l : Nat) (x : LegX) (d : Nat) : (s.setLegX l x).isOn d = s.isOn d := rfl
@[simp] theorem State.setLegX_works (s : State) (l : Nat) (x : LegX) (d : Nat) : (s.setLegX l x).works d = s.works d := rfl
@[simp] theorem State.setLegX_sess (s : State) (l : Nat) (x : LegX) (n : Nat) : (s.setLegX l x).sess n = s.sess n := rfl
@[simp] theorem State.setLegX_ring (s : State) (l : Nat) (x : LegX) (n : Nat) : (s.setLegX l x).ring n = s.ring n := rfl
@[simp] theorem State.setLegX_cellState (s : State) (l : Nat) (x : LegX) (k : Nat) : (s.setLegX l x).cellState k = s.cellState k := rfl
@[simp] theorem State.setLegX_mtUnits (s : State) (l : Nat) (x : LegX) : (s.setLegX l x).mtUnits = s.mtUnits := rfl
@[simp] theorem State.setLegX_mtNs (s : State) (l : Nat) (x : LegX) : (s.setLegX l x).mtNs = s.mtNs := rfl
@[simp] theorem State.setLegX_leg_same (s : State) (l : Nat) (x : LegX) : (s.setLegX l x).leg l = x := Tbl.get_set_same ..
theorem State.setLegX_leg_other (s : State) (l : Nat) (x : LegX) (i' : Nat) (h : i' ≠ l) : (s.setLegX l x).leg i' = s.leg i' := Tbl.get_set_other _ _ _ _ h

/-! ### setMpt -/

@[simp] theorem State.setMpt_now (s : State) (m : Nat) (x : MtrPt) : (s.setMpt m x).now = s.now := rfl
@[simp] theorem State.setMpt_regs (s : State) (m : Nat) (x : MtrPt) : (s.setMpt m x).regs = s.regs := rfl
@[simp] theorem State.setMpt_free (s : State) (m : Nat) (x : MtrPt) : (s.setMpt m x).free = s.free := rfl
@[simp] theorem State.setMpt_clk (s : State) (m : Nat) (x : MtrPt) : (s.setMpt m x).clk = s.clk := rfl
@[simp] theorem State.setMpt_mgmt (s : State) (m : Nat) (x : MtrPt) : (s.setMpt m x).mgmt = s.mgmt := rfl
@[simp] theorem State.setMpt_log (s : State) (m : Nat) (x : MtrPt) : (s.setMpt m x).log = s.log := rfl
@[simp] theorem State.setMpt_pwr (s : State) (m : Nat) (x : MtrPt) : (s.setMpt m x).pwr = s.pwr := rfl
@[simp] theorem State.setMpt_start (s : State) (m : Nat) (x : MtrPt) : (s.setMpt m x).start = s.start := rfl
@[simp] theorem State.setMpt_link (s : State) (m : Nat) (x : MtrPt) : (s.setMpt m x).link = s.link := rfl
@[simp] theorem State.setMpt_cells (s : State) (m : Nat) (x : MtrPt) : (s.setMpt m x).cells = s.cells := rfl
@[simp] theorem State.setMpt_eng (s : State) (m : Nat) (x : MtrPt) : (s.setMpt m x).eng = s.eng := rfl
@[simp] theorem State.setMpt_grid (s : State) (m : Nat) (x : MtrPt) : (s.setMpt m x).grid = s.grid := rfl
@[simp] theorem State.setMpt_mppt (s : State) (m : Nat) (x : MtrPt) : (s.setMpt m x).mppt = s.mppt := rfl
@[simp] theorem State.setMpt_frt (s : State) (m : Nat) (x : MtrPt) : (s.setMpt m x).frt = s.frt := rfl
@[simp] theorem State.setMpt_bus (s : State) (m : Nat) (x : MtrPt) : (s.setMpt m x).bus = s.bus := rfl
@[simp] theorem State.setMpt_lanes (s : State) (m : Nat) (x : MtrPt) : (s.setMpt m x).lanes = s.lanes := rfl
@[simp] theorem State.setMpt_carafe (s : State) (m : Nat) (x : MtrPt) : (s.setMpt m x).carafe = s.carafe := rfl
@[simp] theorem State.setMpt_wear (s : State) (m : Nat) (x : MtrPt) : (s.setMpt m x).wear = s.wear := rfl
@[simp] theorem State.setMpt_safe (s : State) (m : Nat) (x : MtrPt) : (s.setMpt m x).safe = s.safe := rfl
@[simp] theorem State.setMpt_ana (s : State) (m : Nat) (x : MtrPt) : (s.setMpt m x).ana = s.ana := rfl
@[simp] theorem State.setMpt_pour (s : State) (m : Nat) (x : MtrPt) : (s.setMpt m x).pour = s.pour := rfl
@[simp] theorem State.setMpt_pins (s : State) (m : Nat) (x : MtrPt) : (s.setMpt m x).pins = s.pins := rfl
@[simp] theorem State.setMpt_capAsk (s : State) (m : Nat) (x : MtrPt) : (s.setMpt m x).capAsk = s.capAsk := rfl
@[simp] theorem State.setMpt_pending (s : State) (m : Nat) (x : MtrPt) : (s.setMpt m x).pending = s.pending := rfl
@[simp] theorem State.setMpt_word (s : State) (m : Nat) (x : MtrPt) (r : Reg) : (s.setMpt m x).word r = s.word r := rfl
@[simp] theorem State.setMpt_get (s : State) (m : Nat) (x : MtrPt) (f : Fld) : (s.setMpt m x).get f = s.get f := rfl
@[simp] theorem State.setMpt_getS (s : State) (m : Nat) (x : MtrPt) (f : Fld) : (s.setMpt m x).getS f = s.getS f := rfl
@[simp] theorem State.setMpt_flag (s : State) (m : Nat) (x : MtrPt) (f : Fld) : (s.setMpt m x).flag f = s.flag f := rfl
@[simp] theorem State.setMpt_get64 (s : State) (m : Nat) (x : MtrPt) (lo hi : Reg) : (s.setMpt m x).get64 lo hi = s.get64 lo hi := rfl
@[simp] theorem State.setMpt_domState (s : State) (m : Nat) (x : MtrPt) (d : Nat) : (s.setMpt m x).domState d = s.domState d := rfl
@[simp] theorem State.setMpt_isOn (s : State) (m : Nat) (x : MtrPt) (d : Nat) : (s.setMpt m x).isOn d = s.isOn d := rfl
@[simp] theorem State.setMpt_works (s : State) (m : Nat) (x : MtrPt) (d : Nat) : (s.setMpt m x).works d = s.works d := rfl
@[simp] theorem State.setMpt_sess (s : State) (m : Nat) (x : MtrPt) (n : Nat) : (s.setMpt m x).sess n = s.sess n := rfl
@[simp] theorem State.setMpt_ring (s : State) (m : Nat) (x : MtrPt) (n : Nat) : (s.setMpt m x).ring n = s.ring n := rfl
@[simp] theorem State.setMpt_cellState (s : State) (m : Nat) (x : MtrPt) (k : Nat) : (s.setMpt m x).cellState k = s.cellState k := rfl
@[simp] theorem State.setMpt_mtUnits (s : State) (m : Nat) (x : MtrPt) : (s.setMpt m x).mtUnits = s.mtUnits := rfl
@[simp] theorem State.setMpt_mtNs (s : State) (m : Nat) (x : MtrPt) : (s.setMpt m x).mtNs = s.mtNs := rfl
@[simp] theorem State.setMpt_mpt_same (s : State) (m : Nat) (x : MtrPt) : (s.setMpt m x).mpt m = x := Tbl.get_set_same ..
theorem State.setMpt_mpt_other (s : State) (m : Nat) (x : MtrPt) (i' : Nat) (h : i' ≠ m) : (s.setMpt m x).mpt i' = s.mpt i' := Tbl.get_set_other _ _ _ _ h

/-! ### setSvSub -/

@[simp] theorem State.setSvSub_now (s : State) (j : Nat) (x : SvSub) : (s.setSvSub j x).now = s.now := rfl
@[simp] theorem State.setSvSub_regs (s : State) (j : Nat) (x : SvSub) : (s.setSvSub j x).regs = s.regs := rfl
@[simp] theorem State.setSvSub_free (s : State) (j : Nat) (x : SvSub) : (s.setSvSub j x).free = s.free := rfl
@[simp] theorem State.setSvSub_clk (s : State) (j : Nat) (x : SvSub) : (s.setSvSub j x).clk = s.clk := rfl
@[simp] theorem State.setSvSub_mgmt (s : State) (j : Nat) (x : SvSub) : (s.setSvSub j x).mgmt = s.mgmt := rfl
@[simp] theorem State.setSvSub_log (s : State) (j : Nat) (x : SvSub) : (s.setSvSub j x).log = s.log := rfl
@[simp] theorem State.setSvSub_pwr (s : State) (j : Nat) (x : SvSub) : (s.setSvSub j x).pwr = s.pwr := rfl
@[simp] theorem State.setSvSub_start (s : State) (j : Nat) (x : SvSub) : (s.setSvSub j x).start = s.start := rfl
@[simp] theorem State.setSvSub_link (s : State) (j : Nat) (x : SvSub) : (s.setSvSub j x).link = s.link := rfl
@[simp] theorem State.setSvSub_cells (s : State) (j : Nat) (x : SvSub) : (s.setSvSub j x).cells = s.cells := rfl
@[simp] theorem State.setSvSub_eng (s : State) (j : Nat) (x : SvSub) : (s.setSvSub j x).eng = s.eng := rfl
@[simp] theorem State.setSvSub_grid (s : State) (j : Nat) (x : SvSub) : (s.setSvSub j x).grid = s.grid := rfl
@[simp] theorem State.setSvSub_mppt (s : State) (j : Nat) (x : SvSub) : (s.setSvSub j x).mppt = s.mppt := rfl
@[simp] theorem State.setSvSub_frt (s : State) (j : Nat) (x : SvSub) : (s.setSvSub j x).frt = s.frt := rfl
@[simp] theorem State.setSvSub_mtr (s : State) (j : Nat) (x : SvSub) : (s.setSvSub j x).mtr = s.mtr := rfl
@[simp] theorem State.setSvSub_lanes (s : State) (j : Nat) (x : SvSub) : (s.setSvSub j x).lanes = s.lanes := rfl
@[simp] theorem State.setSvSub_carafe (s : State) (j : Nat) (x : SvSub) : (s.setSvSub j x).carafe = s.carafe := rfl
@[simp] theorem State.setSvSub_wear (s : State) (j : Nat) (x : SvSub) : (s.setSvSub j x).wear = s.wear := rfl
@[simp] theorem State.setSvSub_safe (s : State) (j : Nat) (x : SvSub) : (s.setSvSub j x).safe = s.safe := rfl
@[simp] theorem State.setSvSub_ana (s : State) (j : Nat) (x : SvSub) : (s.setSvSub j x).ana = s.ana := rfl
@[simp] theorem State.setSvSub_pour (s : State) (j : Nat) (x : SvSub) : (s.setSvSub j x).pour = s.pour := rfl
@[simp] theorem State.setSvSub_pins (s : State) (j : Nat) (x : SvSub) : (s.setSvSub j x).pins = s.pins := rfl
@[simp] theorem State.setSvSub_capAsk (s : State) (j : Nat) (x : SvSub) : (s.setSvSub j x).capAsk = s.capAsk := rfl
@[simp] theorem State.setSvSub_pending (s : State) (j : Nat) (x : SvSub) : (s.setSvSub j x).pending = s.pending := rfl
@[simp] theorem State.setSvSub_word (s : State) (j : Nat) (x : SvSub) (r : Reg) : (s.setSvSub j x).word r = s.word r := rfl
@[simp] theorem State.setSvSub_get (s : State) (j : Nat) (x : SvSub) (f : Fld) : (s.setSvSub j x).get f = s.get f := rfl
@[simp] theorem State.setSvSub_getS (s : State) (j : Nat) (x : SvSub) (f : Fld) : (s.setSvSub j x).getS f = s.getS f := rfl
@[simp] theorem State.setSvSub_flag (s : State) (j : Nat) (x : SvSub) (f : Fld) : (s.setSvSub j x).flag f = s.flag f := rfl
@[simp] theorem State.setSvSub_get64 (s : State) (j : Nat) (x : SvSub) (lo hi : Reg) : (s.setSvSub j x).get64 lo hi = s.get64 lo hi := rfl
@[simp] theorem State.setSvSub_domState (s : State) (j : Nat) (x : SvSub) (d : Nat) : (s.setSvSub j x).domState d = s.domState d := rfl
@[simp] theorem State.setSvSub_isOn (s : State) (j : Nat) (x : SvSub) (d : Nat) : (s.setSvSub j x).isOn d = s.isOn d := rfl
@[simp] theorem State.setSvSub_works (s : State) (j : Nat) (x : SvSub) (d : Nat) : (s.setSvSub j x).works d = s.works d := rfl
@[simp] theorem State.setSvSub_sess (s : State) (j : Nat) (x : SvSub) (n : Nat) : (s.setSvSub j x).sess n = s.sess n := rfl
@[simp] theorem State.setSvSub_ring (s : State) (j : Nat) (x : SvSub) (n : Nat) : (s.setSvSub j x).ring n = s.ring n := rfl
@[simp] theorem State.setSvSub_cellState (s : State) (j : Nat) (x : SvSub) (k : Nat) : (s.setSvSub j x).cellState k = s.cellState k := rfl
@[simp] theorem State.setSvSub_mtUnits (s : State) (j : Nat) (x : SvSub) : (s.setSvSub j x).mtUnits = s.mtUnits := rfl
@[simp] theorem State.setSvSub_mtNs (s : State) (j : Nat) (x : SvSub) : (s.setSvSub j x).mtNs = s.mtNs := rfl
@[simp] theorem State.setSvSub_svSub_same (s : State) (j : Nat) (x : SvSub) : (s.setSvSub j x).svSub j = x := Tbl.get_set_same ..
theorem State.setSvSub_svSub_other (s : State) (j : Nat) (x : SvSub) (i' : Nat) (h : i' ≠ j) : (s.setSvSub j x).svSub i' = s.svSub i' := Tbl.get_set_other _ _ _ _ h

/-! ### setGSub -/

@[simp] theorem State.setGSub_now (s : State) (g : Nat) (x : GooseSub) : (s.setGSub g x).now = s.now := rfl
@[simp] theorem State.setGSub_regs (s : State) (g : Nat) (x : GooseSub) : (s.setGSub g x).regs = s.regs := rfl
@[simp] theorem State.setGSub_free (s : State) (g : Nat) (x : GooseSub) : (s.setGSub g x).free = s.free := rfl
@[simp] theorem State.setGSub_clk (s : State) (g : Nat) (x : GooseSub) : (s.setGSub g x).clk = s.clk := rfl
@[simp] theorem State.setGSub_mgmt (s : State) (g : Nat) (x : GooseSub) : (s.setGSub g x).mgmt = s.mgmt := rfl
@[simp] theorem State.setGSub_log (s : State) (g : Nat) (x : GooseSub) : (s.setGSub g x).log = s.log := rfl
@[simp] theorem State.setGSub_pwr (s : State) (g : Nat) (x : GooseSub) : (s.setGSub g x).pwr = s.pwr := rfl
@[simp] theorem State.setGSub_start (s : State) (g : Nat) (x : GooseSub) : (s.setGSub g x).start = s.start := rfl
@[simp] theorem State.setGSub_link (s : State) (g : Nat) (x : GooseSub) : (s.setGSub g x).link = s.link := rfl
@[simp] theorem State.setGSub_cells (s : State) (g : Nat) (x : GooseSub) : (s.setGSub g x).cells = s.cells := rfl
@[simp] theorem State.setGSub_eng (s : State) (g : Nat) (x : GooseSub) : (s.setGSub g x).eng = s.eng := rfl
@[simp] theorem State.setGSub_grid (s : State) (g : Nat) (x : GooseSub) : (s.setGSub g x).grid = s.grid := rfl
@[simp] theorem State.setGSub_mppt (s : State) (g : Nat) (x : GooseSub) : (s.setGSub g x).mppt = s.mppt := rfl
@[simp] theorem State.setGSub_frt (s : State) (g : Nat) (x : GooseSub) : (s.setGSub g x).frt = s.frt := rfl
@[simp] theorem State.setGSub_mtr (s : State) (g : Nat) (x : GooseSub) : (s.setGSub g x).mtr = s.mtr := rfl
@[simp] theorem State.setGSub_lanes (s : State) (g : Nat) (x : GooseSub) : (s.setGSub g x).lanes = s.lanes := rfl
@[simp] theorem State.setGSub_carafe (s : State) (g : Nat) (x : GooseSub) : (s.setGSub g x).carafe = s.carafe := rfl
@[simp] theorem State.setGSub_wear (s : State) (g : Nat) (x : GooseSub) : (s.setGSub g x).wear = s.wear := rfl
@[simp] theorem State.setGSub_safe (s : State) (g : Nat) (x : GooseSub) : (s.setGSub g x).safe = s.safe := rfl
@[simp] theorem State.setGSub_ana (s : State) (g : Nat) (x : GooseSub) : (s.setGSub g x).ana = s.ana := rfl
@[simp] theorem State.setGSub_pour (s : State) (g : Nat) (x : GooseSub) : (s.setGSub g x).pour = s.pour := rfl
@[simp] theorem State.setGSub_pins (s : State) (g : Nat) (x : GooseSub) : (s.setGSub g x).pins = s.pins := rfl
@[simp] theorem State.setGSub_capAsk (s : State) (g : Nat) (x : GooseSub) : (s.setGSub g x).capAsk = s.capAsk := rfl
@[simp] theorem State.setGSub_pending (s : State) (g : Nat) (x : GooseSub) : (s.setGSub g x).pending = s.pending := rfl
@[simp] theorem State.setGSub_word (s : State) (g : Nat) (x : GooseSub) (r : Reg) : (s.setGSub g x).word r = s.word r := rfl
@[simp] theorem State.setGSub_get (s : State) (g : Nat) (x : GooseSub) (f : Fld) : (s.setGSub g x).get f = s.get f := rfl
@[simp] theorem State.setGSub_getS (s : State) (g : Nat) (x : GooseSub) (f : Fld) : (s.setGSub g x).getS f = s.getS f := rfl
@[simp] theorem State.setGSub_flag (s : State) (g : Nat) (x : GooseSub) (f : Fld) : (s.setGSub g x).flag f = s.flag f := rfl
@[simp] theorem State.setGSub_get64 (s : State) (g : Nat) (x : GooseSub) (lo hi : Reg) : (s.setGSub g x).get64 lo hi = s.get64 lo hi := rfl
@[simp] theorem State.setGSub_domState (s : State) (g : Nat) (x : GooseSub) (d : Nat) : (s.setGSub g x).domState d = s.domState d := rfl
@[simp] theorem State.setGSub_isOn (s : State) (g : Nat) (x : GooseSub) (d : Nat) : (s.setGSub g x).isOn d = s.isOn d := rfl
@[simp] theorem State.setGSub_works (s : State) (g : Nat) (x : GooseSub) (d : Nat) : (s.setGSub g x).works d = s.works d := rfl
@[simp] theorem State.setGSub_sess (s : State) (g : Nat) (x : GooseSub) (n : Nat) : (s.setGSub g x).sess n = s.sess n := rfl
@[simp] theorem State.setGSub_ring (s : State) (g : Nat) (x : GooseSub) (n : Nat) : (s.setGSub g x).ring n = s.ring n := rfl
@[simp] theorem State.setGSub_cellState (s : State) (g : Nat) (x : GooseSub) (k : Nat) : (s.setGSub g x).cellState k = s.cellState k := rfl
@[simp] theorem State.setGSub_mtUnits (s : State) (g : Nat) (x : GooseSub) : (s.setGSub g x).mtUnits = s.mtUnits := rfl
@[simp] theorem State.setGSub_mtNs (s : State) (g : Nat) (x : GooseSub) : (s.setGSub g x).mtNs = s.mtNs := rfl

/-! ### setLane -/

@[simp] theorem State.setLane_now (s : State) (l : Nat) (x : LaneX) : (s.setLane l x).now = s.now := rfl
@[simp] theorem State.setLane_regs (s : State) (l : Nat) (x : LaneX) : (s.setLane l x).regs = s.regs := rfl
@[simp] theorem State.setLane_free (s : State) (l : Nat) (x : LaneX) : (s.setLane l x).free = s.free := rfl
@[simp] theorem State.setLane_clk (s : State) (l : Nat) (x : LaneX) : (s.setLane l x).clk = s.clk := rfl
@[simp] theorem State.setLane_mgmt (s : State) (l : Nat) (x : LaneX) : (s.setLane l x).mgmt = s.mgmt := rfl
@[simp] theorem State.setLane_log (s : State) (l : Nat) (x : LaneX) : (s.setLane l x).log = s.log := rfl
@[simp] theorem State.setLane_pwr (s : State) (l : Nat) (x : LaneX) : (s.setLane l x).pwr = s.pwr := rfl
@[simp] theorem State.setLane_start (s : State) (l : Nat) (x : LaneX) : (s.setLane l x).start = s.start := rfl
@[simp] theorem State.setLane_link (s : State) (l : Nat) (x : LaneX) : (s.setLane l x).link = s.link := rfl
@[simp] theorem State.setLane_cells (s : State) (l : Nat) (x : LaneX) : (s.setLane l x).cells = s.cells := rfl
@[simp] theorem State.setLane_eng (s : State) (l : Nat) (x : LaneX) : (s.setLane l x).eng = s.eng := rfl
@[simp] theorem State.setLane_grid (s : State) (l : Nat) (x : LaneX) : (s.setLane l x).grid = s.grid := rfl
@[simp] theorem State.setLane_mppt (s : State) (l : Nat) (x : LaneX) : (s.setLane l x).mppt = s.mppt := rfl
@[simp] theorem State.setLane_frt (s : State) (l : Nat) (x : LaneX) : (s.setLane l x).frt = s.frt := rfl
@[simp] theorem State.setLane_bus (s : State) (l : Nat) (x : LaneX) : (s.setLane l x).bus = s.bus := rfl
@[simp] theorem State.setLane_mtr (s : State) (l : Nat) (x : LaneX) : (s.setLane l x).mtr = s.mtr := rfl
@[simp] theorem State.setLane_carafe (s : State) (l : Nat) (x : LaneX) : (s.setLane l x).carafe = s.carafe := rfl
@[simp] theorem State.setLane_wear (s : State) (l : Nat) (x : LaneX) : (s.setLane l x).wear = s.wear := rfl
@[simp] theorem State.setLane_safe (s : State) (l : Nat) (x : LaneX) : (s.setLane l x).safe = s.safe := rfl
@[simp] theorem State.setLane_ana (s : State) (l : Nat) (x : LaneX) : (s.setLane l x).ana = s.ana := rfl
@[simp] theorem State.setLane_pour (s : State) (l : Nat) (x : LaneX) : (s.setLane l x).pour = s.pour := rfl
@[simp] theorem State.setLane_pins (s : State) (l : Nat) (x : LaneX) : (s.setLane l x).pins = s.pins := rfl
@[simp] theorem State.setLane_capAsk (s : State) (l : Nat) (x : LaneX) : (s.setLane l x).capAsk = s.capAsk := rfl
@[simp] theorem State.setLane_pending (s : State) (l : Nat) (x : LaneX) : (s.setLane l x).pending = s.pending := rfl
@[simp] theorem State.setLane_word (s : State) (l : Nat) (x : LaneX) (r : Reg) : (s.setLane l x).word r = s.word r := rfl
@[simp] theorem State.setLane_get (s : State) (l : Nat) (x : LaneX) (f : Fld) : (s.setLane l x).get f = s.get f := rfl
@[simp] theorem State.setLane_getS (s : State) (l : Nat) (x : LaneX) (f : Fld) : (s.setLane l x).getS f = s.getS f := rfl
@[simp] theorem State.setLane_flag (s : State) (l : Nat) (x : LaneX) (f : Fld) : (s.setLane l x).flag f = s.flag f := rfl
@[simp] theorem State.setLane_get64 (s : State) (l : Nat) (x : LaneX) (lo hi : Reg) : (s.setLane l x).get64 lo hi = s.get64 lo hi := rfl
@[simp] theorem State.setLane_domState (s : State) (l : Nat) (x : LaneX) (d : Nat) : (s.setLane l x).domState d = s.domState d := rfl
@[simp] theorem State.setLane_isOn (s : State) (l : Nat) (x : LaneX) (d : Nat) : (s.setLane l x).isOn d = s.isOn d := rfl
@[simp] theorem State.setLane_works (s : State) (l : Nat) (x : LaneX) (d : Nat) : (s.setLane l x).works d = s.works d := rfl
@[simp] theorem State.setLane_sess (s : State) (l : Nat) (x : LaneX) (n : Nat) : (s.setLane l x).sess n = s.sess n := rfl
@[simp] theorem State.setLane_ring (s : State) (l : Nat) (x : LaneX) (n : Nat) : (s.setLane l x).ring n = s.ring n := rfl
@[simp] theorem State.setLane_cellState (s : State) (l : Nat) (x : LaneX) (k : Nat) : (s.setLane l x).cellState k = s.cellState k := rfl
@[simp] theorem State.setLane_mtUnits (s : State) (l : Nat) (x : LaneX) : (s.setLane l x).mtUnits = s.mtUnits := rfl
@[simp] theorem State.setLane_mtNs (s : State) (l : Nat) (x : LaneX) : (s.setLane l x).mtNs = s.mtNs := rfl
@[simp] theorem State.setLane_lane_same (s : State) (l : Nat) (x : LaneX) : (s.setLane l x).lane l = x := Tbl.get_set_same ..
theorem State.setLane_lane_other (s : State) (l : Nat) (x : LaneX) (i' : Nat) (h : i' ≠ l) : (s.setLane l x).lane i' = s.lane i' := Tbl.get_set_other _ _ _ _ h

/-! ### setCdrive -/

@[simp] theorem State.setCdrive_now (s : State) (d : Nat) (x : CDrive) : (s.setCdrive d x).now = s.now := rfl
@[simp] theorem State.setCdrive_regs (s : State) (d : Nat) (x : CDrive) : (s.setCdrive d x).regs = s.regs := rfl
@[simp] theorem State.setCdrive_free (s : State) (d : Nat) (x : CDrive) : (s.setCdrive d x).free = s.free := rfl
@[simp] theorem State.setCdrive_clk (s : State) (d : Nat) (x : CDrive) : (s.setCdrive d x).clk = s.clk := rfl
@[simp] theorem State.setCdrive_mgmt (s : State) (d : Nat) (x : CDrive) : (s.setCdrive d x).mgmt = s.mgmt := rfl
@[simp] theorem State.setCdrive_log (s : State) (d : Nat) (x : CDrive) : (s.setCdrive d x).log = s.log := rfl
@[simp] theorem State.setCdrive_pwr (s : State) (d : Nat) (x : CDrive) : (s.setCdrive d x).pwr = s.pwr := rfl
@[simp] theorem State.setCdrive_start (s : State) (d : Nat) (x : CDrive) : (s.setCdrive d x).start = s.start := rfl
@[simp] theorem State.setCdrive_link (s : State) (d : Nat) (x : CDrive) : (s.setCdrive d x).link = s.link := rfl
@[simp] theorem State.setCdrive_cells (s : State) (d : Nat) (x : CDrive) : (s.setCdrive d x).cells = s.cells := rfl
@[simp] theorem State.setCdrive_eng (s : State) (d : Nat) (x : CDrive) : (s.setCdrive d x).eng = s.eng := rfl
@[simp] theorem State.setCdrive_grid (s : State) (d : Nat) (x : CDrive) : (s.setCdrive d x).grid = s.grid := rfl
@[simp] theorem State.setCdrive_mppt (s : State) (d : Nat) (x : CDrive) : (s.setCdrive d x).mppt = s.mppt := rfl
@[simp] theorem State.setCdrive_frt (s : State) (d : Nat) (x : CDrive) : (s.setCdrive d x).frt = s.frt := rfl
@[simp] theorem State.setCdrive_bus (s : State) (d : Nat) (x : CDrive) : (s.setCdrive d x).bus = s.bus := rfl
@[simp] theorem State.setCdrive_mtr (s : State) (d : Nat) (x : CDrive) : (s.setCdrive d x).mtr = s.mtr := rfl
@[simp] theorem State.setCdrive_lanes (s : State) (d : Nat) (x : CDrive) : (s.setCdrive d x).lanes = s.lanes := rfl
@[simp] theorem State.setCdrive_wear (s : State) (d : Nat) (x : CDrive) : (s.setCdrive d x).wear = s.wear := rfl
@[simp] theorem State.setCdrive_safe (s : State) (d : Nat) (x : CDrive) : (s.setCdrive d x).safe = s.safe := rfl
@[simp] theorem State.setCdrive_ana (s : State) (d : Nat) (x : CDrive) : (s.setCdrive d x).ana = s.ana := rfl
@[simp] theorem State.setCdrive_pour (s : State) (d : Nat) (x : CDrive) : (s.setCdrive d x).pour = s.pour := rfl
@[simp] theorem State.setCdrive_pins (s : State) (d : Nat) (x : CDrive) : (s.setCdrive d x).pins = s.pins := rfl
@[simp] theorem State.setCdrive_capAsk (s : State) (d : Nat) (x : CDrive) : (s.setCdrive d x).capAsk = s.capAsk := rfl
@[simp] theorem State.setCdrive_pending (s : State) (d : Nat) (x : CDrive) : (s.setCdrive d x).pending = s.pending := rfl
@[simp] theorem State.setCdrive_word (s : State) (d : Nat) (x : CDrive) (r : Reg) : (s.setCdrive d x).word r = s.word r := rfl
@[simp] theorem State.setCdrive_get (s : State) (d : Nat) (x : CDrive) (f : Fld) : (s.setCdrive d x).get f = s.get f := rfl
@[simp] theorem State.setCdrive_getS (s : State) (d : Nat) (x : CDrive) (f : Fld) : (s.setCdrive d x).getS f = s.getS f := rfl
@[simp] theorem State.setCdrive_flag (s : State) (d : Nat) (x : CDrive) (f : Fld) : (s.setCdrive d x).flag f = s.flag f := rfl
@[simp] theorem State.setCdrive_get64 (s : State) (d : Nat) (x : CDrive) (lo hi : Reg) : (s.setCdrive d x).get64 lo hi = s.get64 lo hi := rfl
@[simp] theorem State.setCdrive_domState (s : State) (d : Nat) (x : CDrive) (d' : Nat) : (s.setCdrive d x).domState d' = s.domState d' := rfl
@[simp] theorem State.setCdrive_isOn (s : State) (d : Nat) (x : CDrive) (d' : Nat) : (s.setCdrive d x).isOn d' = s.isOn d' := rfl
@[simp] theorem State.setCdrive_works (s : State) (d : Nat) (x : CDrive) (d' : Nat) : (s.setCdrive d x).works d' = s.works d' := rfl
@[simp] theorem State.setCdrive_sess (s : State) (d : Nat) (x : CDrive) (n : Nat) : (s.setCdrive d x).sess n = s.sess n := rfl
@[simp] theorem State.setCdrive_ring (s : State) (d : Nat) (x : CDrive) (n : Nat) : (s.setCdrive d x).ring n = s.ring n := rfl
@[simp] theorem State.setCdrive_cellState (s : State) (d : Nat) (x : CDrive) (k : Nat) : (s.setCdrive d x).cellState k = s.cellState k := rfl
@[simp] theorem State.setCdrive_mtUnits (s : State) (d : Nat) (x : CDrive) : (s.setCdrive d x).mtUnits = s.mtUnits := rfl
@[simp] theorem State.setCdrive_mtNs (s : State) (d : Nat) (x : CDrive) : (s.setCdrive d x).mtNs = s.mtNs := rfl
@[simp] theorem State.setCdrive_cdrive_same (s : State) (d : Nat) (x : CDrive) : (s.setCdrive d x).cdrive d = x := Tbl.get_set_same ..
theorem State.setCdrive_cdrive_other (s : State) (d : Nat) (x : CDrive) (i' : Nat) (h : i' ≠ d) : (s.setCdrive d x).cdrive i' = s.cdrive i' := Tbl.get_set_other _ _ _ _ h

/-! ### setStrm -/

@[simp] theorem State.setStrm_now (s : State) (m : Nat) (x : CStream) : (s.setStrm m x).now = s.now := rfl
@[simp] theorem State.setStrm_regs (s : State) (m : Nat) (x : CStream) : (s.setStrm m x).regs = s.regs := rfl
@[simp] theorem State.setStrm_free (s : State) (m : Nat) (x : CStream) : (s.setStrm m x).free = s.free := rfl
@[simp] theorem State.setStrm_clk (s : State) (m : Nat) (x : CStream) : (s.setStrm m x).clk = s.clk := rfl
@[simp] theorem State.setStrm_mgmt (s : State) (m : Nat) (x : CStream) : (s.setStrm m x).mgmt = s.mgmt := rfl
@[simp] theorem State.setStrm_log (s : State) (m : Nat) (x : CStream) : (s.setStrm m x).log = s.log := rfl
@[simp] theorem State.setStrm_pwr (s : State) (m : Nat) (x : CStream) : (s.setStrm m x).pwr = s.pwr := rfl
@[simp] theorem State.setStrm_start (s : State) (m : Nat) (x : CStream) : (s.setStrm m x).start = s.start := rfl
@[simp] theorem State.setStrm_link (s : State) (m : Nat) (x : CStream) : (s.setStrm m x).link = s.link := rfl
@[simp] theorem State.setStrm_cells (s : State) (m : Nat) (x : CStream) : (s.setStrm m x).cells = s.cells := rfl
@[simp] theorem State.setStrm_eng (s : State) (m : Nat) (x : CStream) : (s.setStrm m x).eng = s.eng := rfl
@[simp] theorem State.setStrm_grid (s : State) (m : Nat) (x : CStream) : (s.setStrm m x).grid = s.grid := rfl
@[simp] theorem State.setStrm_mppt (s : State) (m : Nat) (x : CStream) : (s.setStrm m x).mppt = s.mppt := rfl
@[simp] theorem State.setStrm_frt (s : State) (m : Nat) (x : CStream) : (s.setStrm m x).frt = s.frt := rfl
@[simp] theorem State.setStrm_bus (s : State) (m : Nat) (x : CStream) : (s.setStrm m x).bus = s.bus := rfl
@[simp] theorem State.setStrm_mtr (s : State) (m : Nat) (x : CStream) : (s.setStrm m x).mtr = s.mtr := rfl
@[simp] theorem State.setStrm_lanes (s : State) (m : Nat) (x : CStream) : (s.setStrm m x).lanes = s.lanes := rfl
@[simp] theorem State.setStrm_wear (s : State) (m : Nat) (x : CStream) : (s.setStrm m x).wear = s.wear := rfl
@[simp] theorem State.setStrm_safe (s : State) (m : Nat) (x : CStream) : (s.setStrm m x).safe = s.safe := rfl
@[simp] theorem State.setStrm_ana (s : State) (m : Nat) (x : CStream) : (s.setStrm m x).ana = s.ana := rfl
@[simp] theorem State.setStrm_pour (s : State) (m : Nat) (x : CStream) : (s.setStrm m x).pour = s.pour := rfl
@[simp] theorem State.setStrm_pins (s : State) (m : Nat) (x : CStream) : (s.setStrm m x).pins = s.pins := rfl
@[simp] theorem State.setStrm_capAsk (s : State) (m : Nat) (x : CStream) : (s.setStrm m x).capAsk = s.capAsk := rfl
@[simp] theorem State.setStrm_pending (s : State) (m : Nat) (x : CStream) : (s.setStrm m x).pending = s.pending := rfl
@[simp] theorem State.setStrm_word (s : State) (m : Nat) (x : CStream) (r : Reg) : (s.setStrm m x).word r = s.word r := rfl
@[simp] theorem State.setStrm_get (s : State) (m : Nat) (x : CStream) (f : Fld) : (s.setStrm m x).get f = s.get f := rfl
@[simp] theorem State.setStrm_getS (s : State) (m : Nat) (x : CStream) (f : Fld) : (s.setStrm m x).getS f = s.getS f := rfl
@[simp] theorem State.setStrm_flag (s : State) (m : Nat) (x : CStream) (f : Fld) : (s.setStrm m x).flag f = s.flag f := rfl
@[simp] theorem State.setStrm_get64 (s : State) (m : Nat) (x : CStream) (lo hi : Reg) : (s.setStrm m x).get64 lo hi = s.get64 lo hi := rfl
@[simp] theorem State.setStrm_domState (s : State) (m : Nat) (x : CStream) (d : Nat) : (s.setStrm m x).domState d = s.domState d := rfl
@[simp] theorem State.setStrm_isOn (s : State) (m : Nat) (x : CStream) (d : Nat) : (s.setStrm m x).isOn d = s.isOn d := rfl
@[simp] theorem State.setStrm_works (s : State) (m : Nat) (x : CStream) (d : Nat) : (s.setStrm m x).works d = s.works d := rfl
@[simp] theorem State.setStrm_sess (s : State) (m : Nat) (x : CStream) (n : Nat) : (s.setStrm m x).sess n = s.sess n := rfl
@[simp] theorem State.setStrm_ring (s : State) (m : Nat) (x : CStream) (n : Nat) : (s.setStrm m x).ring n = s.ring n := rfl
@[simp] theorem State.setStrm_cellState (s : State) (m : Nat) (x : CStream) (k : Nat) : (s.setStrm m x).cellState k = s.cellState k := rfl
@[simp] theorem State.setStrm_mtUnits (s : State) (m : Nat) (x : CStream) : (s.setStrm m x).mtUnits = s.mtUnits := rfl
@[simp] theorem State.setStrm_mtNs (s : State) (m : Nat) (x : CStream) : (s.setStrm m x).mtNs = s.mtNs := rfl
@[simp] theorem State.setStrm_strm_same (s : State) (m : Nat) (x : CStream) : (s.setStrm m x).strm m = x := Tbl.get_set_same ..
theorem State.setStrm_strm_other (s : State) (m : Nat) (x : CStream) (i' : Nat) (h : i' ≠ m) : (s.setStrm m x).strm i' = s.strm i' := Tbl.get_set_other _ _ _ _ h

/-! ### setCons -/

@[simp] theorem State.setCons_now (s : State) (c : Nat) (x : SafeCons) : (s.setCons c x).now = s.now := rfl
@[simp] theorem State.setCons_regs (s : State) (c : Nat) (x : SafeCons) : (s.setCons c x).regs = s.regs := rfl
@[simp] theorem State.setCons_free (s : State) (c : Nat) (x : SafeCons) : (s.setCons c x).free = s.free := rfl
@[simp] theorem State.setCons_clk (s : State) (c : Nat) (x : SafeCons) : (s.setCons c x).clk = s.clk := rfl
@[simp] theorem State.setCons_mgmt (s : State) (c : Nat) (x : SafeCons) : (s.setCons c x).mgmt = s.mgmt := rfl
@[simp] theorem State.setCons_log (s : State) (c : Nat) (x : SafeCons) : (s.setCons c x).log = s.log := rfl
@[simp] theorem State.setCons_pwr (s : State) (c : Nat) (x : SafeCons) : (s.setCons c x).pwr = s.pwr := rfl
@[simp] theorem State.setCons_start (s : State) (c : Nat) (x : SafeCons) : (s.setCons c x).start = s.start := rfl
@[simp] theorem State.setCons_link (s : State) (c : Nat) (x : SafeCons) : (s.setCons c x).link = s.link := rfl
@[simp] theorem State.setCons_cells (s : State) (c : Nat) (x : SafeCons) : (s.setCons c x).cells = s.cells := rfl
@[simp] theorem State.setCons_eng (s : State) (c : Nat) (x : SafeCons) : (s.setCons c x).eng = s.eng := rfl
@[simp] theorem State.setCons_grid (s : State) (c : Nat) (x : SafeCons) : (s.setCons c x).grid = s.grid := rfl
@[simp] theorem State.setCons_mppt (s : State) (c : Nat) (x : SafeCons) : (s.setCons c x).mppt = s.mppt := rfl
@[simp] theorem State.setCons_frt (s : State) (c : Nat) (x : SafeCons) : (s.setCons c x).frt = s.frt := rfl
@[simp] theorem State.setCons_bus (s : State) (c : Nat) (x : SafeCons) : (s.setCons c x).bus = s.bus := rfl
@[simp] theorem State.setCons_mtr (s : State) (c : Nat) (x : SafeCons) : (s.setCons c x).mtr = s.mtr := rfl
@[simp] theorem State.setCons_lanes (s : State) (c : Nat) (x : SafeCons) : (s.setCons c x).lanes = s.lanes := rfl
@[simp] theorem State.setCons_carafe (s : State) (c : Nat) (x : SafeCons) : (s.setCons c x).carafe = s.carafe := rfl
@[simp] theorem State.setCons_wear (s : State) (c : Nat) (x : SafeCons) : (s.setCons c x).wear = s.wear := rfl
@[simp] theorem State.setCons_ana (s : State) (c : Nat) (x : SafeCons) : (s.setCons c x).ana = s.ana := rfl
@[simp] theorem State.setCons_pour (s : State) (c : Nat) (x : SafeCons) : (s.setCons c x).pour = s.pour := rfl
@[simp] theorem State.setCons_pins (s : State) (c : Nat) (x : SafeCons) : (s.setCons c x).pins = s.pins := rfl
@[simp] theorem State.setCons_capAsk (s : State) (c : Nat) (x : SafeCons) : (s.setCons c x).capAsk = s.capAsk := rfl
@[simp] theorem State.setCons_pending (s : State) (c : Nat) (x : SafeCons) : (s.setCons c x).pending = s.pending := rfl
@[simp] theorem State.setCons_word (s : State) (c : Nat) (x : SafeCons) (r : Reg) : (s.setCons c x).word r = s.word r := rfl
@[simp] theorem State.setCons_get (s : State) (c : Nat) (x : SafeCons) (f : Fld) : (s.setCons c x).get f = s.get f := rfl
@[simp] theorem State.setCons_getS (s : State) (c : Nat) (x : SafeCons) (f : Fld) : (s.setCons c x).getS f = s.getS f := rfl
@[simp] theorem State.setCons_flag (s : State) (c : Nat) (x : SafeCons) (f : Fld) : (s.setCons c x).flag f = s.flag f := rfl
@[simp] theorem State.setCons_get64 (s : State) (c : Nat) (x : SafeCons) (lo hi : Reg) : (s.setCons c x).get64 lo hi = s.get64 lo hi := rfl
@[simp] theorem State.setCons_domState (s : State) (c : Nat) (x : SafeCons) (d : Nat) : (s.setCons c x).domState d = s.domState d := rfl
@[simp] theorem State.setCons_isOn (s : State) (c : Nat) (x : SafeCons) (d : Nat) : (s.setCons c x).isOn d = s.isOn d := rfl
@[simp] theorem State.setCons_works (s : State) (c : Nat) (x : SafeCons) (d : Nat) : (s.setCons c x).works d = s.works d := rfl
@[simp] theorem State.setCons_sess (s : State) (c : Nat) (x : SafeCons) (n : Nat) : (s.setCons c x).sess n = s.sess n := rfl
@[simp] theorem State.setCons_ring (s : State) (c : Nat) (x : SafeCons) (n : Nat) : (s.setCons c x).ring n = s.ring n := rfl
@[simp] theorem State.setCons_cellState (s : State) (c : Nat) (x : SafeCons) (k : Nat) : (s.setCons c x).cellState k = s.cellState k := rfl
@[simp] theorem State.setCons_mtUnits (s : State) (c : Nat) (x : SafeCons) : (s.setCons c x).mtUnits = s.mtUnits := rfl
@[simp] theorem State.setCons_mtNs (s : State) (c : Nat) (x : SafeCons) : (s.setCons c x).mtNs = s.mtNs := rfl

/-! ### setCmp -/

@[simp] theorem State.setCmp_now (s : State) (c : Nat) (x : CmpX) : (s.setCmp c x).now = s.now := rfl
@[simp] theorem State.setCmp_regs (s : State) (c : Nat) (x : CmpX) : (s.setCmp c x).regs = s.regs := rfl
@[simp] theorem State.setCmp_free (s : State) (c : Nat) (x : CmpX) : (s.setCmp c x).free = s.free := rfl
@[simp] theorem State.setCmp_clk (s : State) (c : Nat) (x : CmpX) : (s.setCmp c x).clk = s.clk := rfl
@[simp] theorem State.setCmp_mgmt (s : State) (c : Nat) (x : CmpX) : (s.setCmp c x).mgmt = s.mgmt := rfl
@[simp] theorem State.setCmp_log (s : State) (c : Nat) (x : CmpX) : (s.setCmp c x).log = s.log := rfl
@[simp] theorem State.setCmp_pwr (s : State) (c : Nat) (x : CmpX) : (s.setCmp c x).pwr = s.pwr := rfl
@[simp] theorem State.setCmp_start (s : State) (c : Nat) (x : CmpX) : (s.setCmp c x).start = s.start := rfl
@[simp] theorem State.setCmp_link (s : State) (c : Nat) (x : CmpX) : (s.setCmp c x).link = s.link := rfl
@[simp] theorem State.setCmp_cells (s : State) (c : Nat) (x : CmpX) : (s.setCmp c x).cells = s.cells := rfl
@[simp] theorem State.setCmp_eng (s : State) (c : Nat) (x : CmpX) : (s.setCmp c x).eng = s.eng := rfl
@[simp] theorem State.setCmp_grid (s : State) (c : Nat) (x : CmpX) : (s.setCmp c x).grid = s.grid := rfl
@[simp] theorem State.setCmp_mppt (s : State) (c : Nat) (x : CmpX) : (s.setCmp c x).mppt = s.mppt := rfl
@[simp] theorem State.setCmp_frt (s : State) (c : Nat) (x : CmpX) : (s.setCmp c x).frt = s.frt := rfl
@[simp] theorem State.setCmp_bus (s : State) (c : Nat) (x : CmpX) : (s.setCmp c x).bus = s.bus := rfl
@[simp] theorem State.setCmp_mtr (s : State) (c : Nat) (x : CmpX) : (s.setCmp c x).mtr = s.mtr := rfl
@[simp] theorem State.setCmp_lanes (s : State) (c : Nat) (x : CmpX) : (s.setCmp c x).lanes = s.lanes := rfl
@[simp] theorem State.setCmp_carafe (s : State) (c : Nat) (x : CmpX) : (s.setCmp c x).carafe = s.carafe := rfl
@[simp] theorem State.setCmp_wear (s : State) (c : Nat) (x : CmpX) : (s.setCmp c x).wear = s.wear := rfl
@[simp] theorem State.setCmp_safe (s : State) (c : Nat) (x : CmpX) : (s.setCmp c x).safe = s.safe := rfl
@[simp] theorem State.setCmp_pour (s : State) (c : Nat) (x : CmpX) : (s.setCmp c x).pour = s.pour := rfl
@[simp] theorem State.setCmp_pins (s : State) (c : Nat) (x : CmpX) : (s.setCmp c x).pins = s.pins := rfl
@[simp] theorem State.setCmp_capAsk (s : State) (c : Nat) (x : CmpX) : (s.setCmp c x).capAsk = s.capAsk := rfl
@[simp] theorem State.setCmp_pending (s : State) (c : Nat) (x : CmpX) : (s.setCmp c x).pending = s.pending := rfl
@[simp] theorem State.setCmp_word (s : State) (c : Nat) (x : CmpX) (r : Reg) : (s.setCmp c x).word r = s.word r := rfl
@[simp] theorem State.setCmp_get (s : State) (c : Nat) (x : CmpX) (f : Fld) : (s.setCmp c x).get f = s.get f := rfl
@[simp] theorem State.setCmp_getS (s : State) (c : Nat) (x : CmpX) (f : Fld) : (s.setCmp c x).getS f = s.getS f := rfl
@[simp] theorem State.setCmp_flag (s : State) (c : Nat) (x : CmpX) (f : Fld) : (s.setCmp c x).flag f = s.flag f := rfl
@[simp] theorem State.setCmp_get64 (s : State) (c : Nat) (x : CmpX) (lo hi : Reg) : (s.setCmp c x).get64 lo hi = s.get64 lo hi := rfl
@[simp] theorem State.setCmp_domState (s : State) (c : Nat) (x : CmpX) (d : Nat) : (s.setCmp c x).domState d = s.domState d := rfl
@[simp] theorem State.setCmp_isOn (s : State) (c : Nat) (x : CmpX) (d : Nat) : (s.setCmp c x).isOn d = s.isOn d := rfl
@[simp] theorem State.setCmp_works (s : State) (c : Nat) (x : CmpX) (d : Nat) : (s.setCmp c x).works d = s.works d := rfl
@[simp] theorem State.setCmp_sess (s : State) (c : Nat) (x : CmpX) (n : Nat) : (s.setCmp c x).sess n = s.sess n := rfl
@[simp] theorem State.setCmp_ring (s : State) (c : Nat) (x : CmpX) (n : Nat) : (s.setCmp c x).ring n = s.ring n := rfl
@[simp] theorem State.setCmp_cellState (s : State) (c : Nat) (x : CmpX) (k : Nat) : (s.setCmp c x).cellState k = s.cellState k := rfl
@[simp] theorem State.setCmp_mtUnits (s : State) (c : Nat) (x : CmpX) : (s.setCmp c x).mtUnits = s.mtUnits := rfl
@[simp] theorem State.setCmp_mtNs (s : State) (c : Nat) (x : CmpX) : (s.setCmp c x).mtNs = s.mtNs := rfl
@[simp] theorem State.setCmp_cmp_same (s : State) (c : Nat) (x : CmpX) : (s.setCmp c x).cmp c = x := Tbl.get_set_same ..
theorem State.setCmp_cmp_other (s : State) (c : Nat) (x : CmpX) (i' : Nat) (h : i' ≠ c) : (s.setCmp c x).cmp i' = s.cmp i' := Tbl.get_set_other _ _ _ _ h

/-! ### setBsi -/

@[simp] theorem State.setBsi_now (s : State) (b : Nat) (x : BsiX) : (s.setBsi b x).now = s.now := rfl
@[simp] theorem State.setBsi_regs (s : State) (b : Nat) (x : BsiX) : (s.setBsi b x).regs = s.regs := rfl
@[simp] theorem State.setBsi_free (s : State) (b : Nat) (x : BsiX) : (s.setBsi b x).free = s.free := rfl
@[simp] theorem State.setBsi_clk (s : State) (b : Nat) (x : BsiX) : (s.setBsi b x).clk = s.clk := rfl
@[simp] theorem State.setBsi_mgmt (s : State) (b : Nat) (x : BsiX) : (s.setBsi b x).mgmt = s.mgmt := rfl
@[simp] theorem State.setBsi_log (s : State) (b : Nat) (x : BsiX) : (s.setBsi b x).log = s.log := rfl
@[simp] theorem State.setBsi_pwr (s : State) (b : Nat) (x : BsiX) : (s.setBsi b x).pwr = s.pwr := rfl
@[simp] theorem State.setBsi_start (s : State) (b : Nat) (x : BsiX) : (s.setBsi b x).start = s.start := rfl
@[simp] theorem State.setBsi_link (s : State) (b : Nat) (x : BsiX) : (s.setBsi b x).link = s.link := rfl
@[simp] theorem State.setBsi_cells (s : State) (b : Nat) (x : BsiX) : (s.setBsi b x).cells = s.cells := rfl
@[simp] theorem State.setBsi_eng (s : State) (b : Nat) (x : BsiX) : (s.setBsi b x).eng = s.eng := rfl
@[simp] theorem State.setBsi_grid (s : State) (b : Nat) (x : BsiX) : (s.setBsi b x).grid = s.grid := rfl
@[simp] theorem State.setBsi_mppt (s : State) (b : Nat) (x : BsiX) : (s.setBsi b x).mppt = s.mppt := rfl
@[simp] theorem State.setBsi_frt (s : State) (b : Nat) (x : BsiX) : (s.setBsi b x).frt = s.frt := rfl
@[simp] theorem State.setBsi_bus (s : State) (b : Nat) (x : BsiX) : (s.setBsi b x).bus = s.bus := rfl
@[simp] theorem State.setBsi_mtr (s : State) (b : Nat) (x : BsiX) : (s.setBsi b x).mtr = s.mtr := rfl
@[simp] theorem State.setBsi_lanes (s : State) (b : Nat) (x : BsiX) : (s.setBsi b x).lanes = s.lanes := rfl
@[simp] theorem State.setBsi_carafe (s : State) (b : Nat) (x : BsiX) : (s.setBsi b x).carafe = s.carafe := rfl
@[simp] theorem State.setBsi_wear (s : State) (b : Nat) (x : BsiX) : (s.setBsi b x).wear = s.wear := rfl
@[simp] theorem State.setBsi_safe (s : State) (b : Nat) (x : BsiX) : (s.setBsi b x).safe = s.safe := rfl
@[simp] theorem State.setBsi_pour (s : State) (b : Nat) (x : BsiX) : (s.setBsi b x).pour = s.pour := rfl
@[simp] theorem State.setBsi_pins (s : State) (b : Nat) (x : BsiX) : (s.setBsi b x).pins = s.pins := rfl
@[simp] theorem State.setBsi_capAsk (s : State) (b : Nat) (x : BsiX) : (s.setBsi b x).capAsk = s.capAsk := rfl
@[simp] theorem State.setBsi_pending (s : State) (b : Nat) (x : BsiX) : (s.setBsi b x).pending = s.pending := rfl
@[simp] theorem State.setBsi_word (s : State) (b : Nat) (x : BsiX) (r : Reg) : (s.setBsi b x).word r = s.word r := rfl
@[simp] theorem State.setBsi_get (s : State) (b : Nat) (x : BsiX) (f : Fld) : (s.setBsi b x).get f = s.get f := rfl
@[simp] theorem State.setBsi_getS (s : State) (b : Nat) (x : BsiX) (f : Fld) : (s.setBsi b x).getS f = s.getS f := rfl
@[simp] theorem State.setBsi_flag (s : State) (b : Nat) (x : BsiX) (f : Fld) : (s.setBsi b x).flag f = s.flag f := rfl
@[simp] theorem State.setBsi_get64 (s : State) (b : Nat) (x : BsiX) (lo hi : Reg) : (s.setBsi b x).get64 lo hi = s.get64 lo hi := rfl
@[simp] theorem State.setBsi_domState (s : State) (b : Nat) (x : BsiX) (d : Nat) : (s.setBsi b x).domState d = s.domState d := rfl
@[simp] theorem State.setBsi_isOn (s : State) (b : Nat) (x : BsiX) (d : Nat) : (s.setBsi b x).isOn d = s.isOn d := rfl
@[simp] theorem State.setBsi_works (s : State) (b : Nat) (x : BsiX) (d : Nat) : (s.setBsi b x).works d = s.works d := rfl
@[simp] theorem State.setBsi_sess (s : State) (b : Nat) (x : BsiX) (n : Nat) : (s.setBsi b x).sess n = s.sess n := rfl
@[simp] theorem State.setBsi_ring (s : State) (b : Nat) (x : BsiX) (n : Nat) : (s.setBsi b x).ring n = s.ring n := rfl
@[simp] theorem State.setBsi_cellState (s : State) (b : Nat) (x : BsiX) (k : Nat) : (s.setBsi b x).cellState k = s.cellState k := rfl
@[simp] theorem State.setBsi_mtUnits (s : State) (b : Nat) (x : BsiX) : (s.setBsi b x).mtUnits = s.mtUnits := rfl
@[simp] theorem State.setBsi_mtNs (s : State) (b : Nat) (x : BsiX) : (s.setBsi b x).mtNs = s.mtNs := rfl
@[simp] theorem State.setBsi_bsi_same (s : State) (b : Nat) (x : BsiX) : (s.setBsi b x).bsi b = x := Tbl.get_set_same ..
theorem State.setBsi_bsi_other (s : State) (b : Nat) (x : BsiX) (i' : Nat) (h : i' ≠ b) : (s.setBsi b x).bsi i' = s.bsi i' := Tbl.get_set_other _ _ _ _ h

/-! ### setIadc -/

@[simp] theorem State.setIadc_now (s : State) (f : IadcSt → IadcSt) : (s.setIadc f).now = s.now := rfl
@[simp] theorem State.setIadc_regs (s : State) (f : IadcSt → IadcSt) : (s.setIadc f).regs = s.regs := rfl
@[simp] theorem State.setIadc_free (s : State) (f : IadcSt → IadcSt) : (s.setIadc f).free = s.free := rfl
@[simp] theorem State.setIadc_clk (s : State) (f : IadcSt → IadcSt) : (s.setIadc f).clk = s.clk := rfl
@[simp] theorem State.setIadc_mgmt (s : State) (f : IadcSt → IadcSt) : (s.setIadc f).mgmt = s.mgmt := rfl
@[simp] theorem State.setIadc_log (s : State) (f : IadcSt → IadcSt) : (s.setIadc f).log = s.log := rfl
@[simp] theorem State.setIadc_pwr (s : State) (f : IadcSt → IadcSt) : (s.setIadc f).pwr = s.pwr := rfl
@[simp] theorem State.setIadc_start (s : State) (f : IadcSt → IadcSt) : (s.setIadc f).start = s.start := rfl
@[simp] theorem State.setIadc_link (s : State) (f : IadcSt → IadcSt) : (s.setIadc f).link = s.link := rfl
@[simp] theorem State.setIadc_cells (s : State) (f : IadcSt → IadcSt) : (s.setIadc f).cells = s.cells := rfl
@[simp] theorem State.setIadc_eng (s : State) (f : IadcSt → IadcSt) : (s.setIadc f).eng = s.eng := rfl
@[simp] theorem State.setIadc_grid (s : State) (f : IadcSt → IadcSt) : (s.setIadc f).grid = s.grid := rfl
@[simp] theorem State.setIadc_mppt (s : State) (f : IadcSt → IadcSt) : (s.setIadc f).mppt = s.mppt := rfl
@[simp] theorem State.setIadc_frt (s : State) (f : IadcSt → IadcSt) : (s.setIadc f).frt = s.frt := rfl
@[simp] theorem State.setIadc_bus (s : State) (f : IadcSt → IadcSt) : (s.setIadc f).bus = s.bus := rfl
@[simp] theorem State.setIadc_mtr (s : State) (f : IadcSt → IadcSt) : (s.setIadc f).mtr = s.mtr := rfl
@[simp] theorem State.setIadc_lanes (s : State) (f : IadcSt → IadcSt) : (s.setIadc f).lanes = s.lanes := rfl
@[simp] theorem State.setIadc_carafe (s : State) (f : IadcSt → IadcSt) : (s.setIadc f).carafe = s.carafe := rfl
@[simp] theorem State.setIadc_wear (s : State) (f : IadcSt → IadcSt) : (s.setIadc f).wear = s.wear := rfl
@[simp] theorem State.setIadc_safe (s : State) (f : IadcSt → IadcSt) : (s.setIadc f).safe = s.safe := rfl
@[simp] theorem State.setIadc_pour (s : State) (f : IadcSt → IadcSt) : (s.setIadc f).pour = s.pour := rfl
@[simp] theorem State.setIadc_pins (s : State) (f : IadcSt → IadcSt) : (s.setIadc f).pins = s.pins := rfl
@[simp] theorem State.setIadc_capAsk (s : State) (f : IadcSt → IadcSt) : (s.setIadc f).capAsk = s.capAsk := rfl
@[simp] theorem State.setIadc_pending (s : State) (f : IadcSt → IadcSt) : (s.setIadc f).pending = s.pending := rfl
@[simp] theorem State.setIadc_word (s : State) (f : IadcSt → IadcSt) (r : Reg) : (s.setIadc f).word r = s.word r := rfl
@[simp] theorem State.setIadc_get (s : State) (f : IadcSt → IadcSt) (f' : Fld) : (s.setIadc f).get f' = s.get f' := rfl
@[simp] theorem State.setIadc_getS (s : State) (f : IadcSt → IadcSt) (f' : Fld) : (s.setIadc f).getS f' = s.getS f' := rfl
@[simp] theorem State.setIadc_flag (s : State) (f : IadcSt → IadcSt) (f' : Fld) : (s.setIadc f).flag f' = s.flag f' := rfl
@[simp] theorem State.setIadc_get64 (s : State) (f : IadcSt → IadcSt) (lo hi : Reg) : (s.setIadc f).get64 lo hi = s.get64 lo hi := rfl
@[simp] theorem State.setIadc_domState (s : State) (f : IadcSt → IadcSt) (d : Nat) : (s.setIadc f).domState d = s.domState d := rfl
@[simp] theorem State.setIadc_isOn (s : State) (f : IadcSt → IadcSt) (d : Nat) : (s.setIadc f).isOn d = s.isOn d := rfl
@[simp] theorem State.setIadc_works (s : State) (f : IadcSt → IadcSt) (d : Nat) : (s.setIadc f).works d = s.works d := rfl
@[simp] theorem State.setIadc_sess (s : State) (f : IadcSt → IadcSt) (n : Nat) : (s.setIadc f).sess n = s.sess n := rfl
@[simp] theorem State.setIadc_ring (s : State) (f : IadcSt → IadcSt) (n : Nat) : (s.setIadc f).ring n = s.ring n := rfl
@[simp] theorem State.setIadc_cellState (s : State) (f : IadcSt → IadcSt) (k : Nat) : (s.setIadc f).cellState k = s.cellState k := rfl
@[simp] theorem State.setIadc_mtUnits (s : State) (f : IadcSt → IadcSt) : (s.setIadc f).mtUnits = s.mtUnits := rfl
@[simp] theorem State.setIadc_mtNs (s : State) (f : IadcSt → IadcSt) : (s.setIadc f).mtNs = s.mtNs := rfl

/-! ### setCage -/

@[simp] theorem State.setCage_now (s : State) (c : Nat) (x : Cage) : (s.setCage c x).now = s.now := rfl
@[simp] theorem State.setCage_regs (s : State) (c : Nat) (x : Cage) : (s.setCage c x).regs = s.regs := rfl
@[simp] theorem State.setCage_free (s : State) (c : Nat) (x : Cage) : (s.setCage c x).free = s.free := rfl
@[simp] theorem State.setCage_clk (s : State) (c : Nat) (x : Cage) : (s.setCage c x).clk = s.clk := rfl
@[simp] theorem State.setCage_mgmt (s : State) (c : Nat) (x : Cage) : (s.setCage c x).mgmt = s.mgmt := rfl
@[simp] theorem State.setCage_log (s : State) (c : Nat) (x : Cage) : (s.setCage c x).log = s.log := rfl
@[simp] theorem State.setCage_pwr (s : State) (c : Nat) (x : Cage) : (s.setCage c x).pwr = s.pwr := rfl
@[simp] theorem State.setCage_start (s : State) (c : Nat) (x : Cage) : (s.setCage c x).start = s.start := rfl
@[simp] theorem State.setCage_link (s : State) (c : Nat) (x : Cage) : (s.setCage c x).link = s.link := rfl
@[simp] theorem State.setCage_cells (s : State) (c : Nat) (x : Cage) : (s.setCage c x).cells = s.cells := rfl
@[simp] theorem State.setCage_eng (s : State) (c : Nat) (x : Cage) : (s.setCage c x).eng = s.eng := rfl
@[simp] theorem State.setCage_grid (s : State) (c : Nat) (x : Cage) : (s.setCage c x).grid = s.grid := rfl
@[simp] theorem State.setCage_mppt (s : State) (c : Nat) (x : Cage) : (s.setCage c x).mppt = s.mppt := rfl
@[simp] theorem State.setCage_frt (s : State) (c : Nat) (x : Cage) : (s.setCage c x).frt = s.frt := rfl
@[simp] theorem State.setCage_bus (s : State) (c : Nat) (x : Cage) : (s.setCage c x).bus = s.bus := rfl
@[simp] theorem State.setCage_mtr (s : State) (c : Nat) (x : Cage) : (s.setCage c x).mtr = s.mtr := rfl
@[simp] theorem State.setCage_lanes (s : State) (c : Nat) (x : Cage) : (s.setCage c x).lanes = s.lanes := rfl
@[simp] theorem State.setCage_carafe (s : State) (c : Nat) (x : Cage) : (s.setCage c x).carafe = s.carafe := rfl
@[simp] theorem State.setCage_wear (s : State) (c : Nat) (x : Cage) : (s.setCage c x).wear = s.wear := rfl
@[simp] theorem State.setCage_safe (s : State) (c : Nat) (x : Cage) : (s.setCage c x).safe = s.safe := rfl
@[simp] theorem State.setCage_ana (s : State) (c : Nat) (x : Cage) : (s.setCage c x).ana = s.ana := rfl
@[simp] theorem State.setCage_pour (s : State) (c : Nat) (x : Cage) : (s.setCage c x).pour = s.pour := rfl
@[simp] theorem State.setCage_capAsk (s : State) (c : Nat) (x : Cage) : (s.setCage c x).capAsk = s.capAsk := rfl
@[simp] theorem State.setCage_pending (s : State) (c : Nat) (x : Cage) : (s.setCage c x).pending = s.pending := rfl
@[simp] theorem State.setCage_word (s : State) (c : Nat) (x : Cage) (r : Reg) : (s.setCage c x).word r = s.word r := rfl
@[simp] theorem State.setCage_get (s : State) (c : Nat) (x : Cage) (f : Fld) : (s.setCage c x).get f = s.get f := rfl
@[simp] theorem State.setCage_getS (s : State) (c : Nat) (x : Cage) (f : Fld) : (s.setCage c x).getS f = s.getS f := rfl
@[simp] theorem State.setCage_flag (s : State) (c : Nat) (x : Cage) (f : Fld) : (s.setCage c x).flag f = s.flag f := rfl
@[simp] theorem State.setCage_get64 (s : State) (c : Nat) (x : Cage) (lo hi : Reg) : (s.setCage c x).get64 lo hi = s.get64 lo hi := rfl
@[simp] theorem State.setCage_domState (s : State) (c : Nat) (x : Cage) (d : Nat) : (s.setCage c x).domState d = s.domState d := rfl
@[simp] theorem State.setCage_isOn (s : State) (c : Nat) (x : Cage) (d : Nat) : (s.setCage c x).isOn d = s.isOn d := rfl
@[simp] theorem State.setCage_works (s : State) (c : Nat) (x : Cage) (d : Nat) : (s.setCage c x).works d = s.works d := rfl
@[simp] theorem State.setCage_sess (s : State) (c : Nat) (x : Cage) (n : Nat) : (s.setCage c x).sess n = s.sess n := rfl
@[simp] theorem State.setCage_ring (s : State) (c : Nat) (x : Cage) (n : Nat) : (s.setCage c x).ring n = s.ring n := rfl
@[simp] theorem State.setCage_cellState (s : State) (c : Nat) (x : Cage) (k : Nat) : (s.setCage c x).cellState k = s.cellState k := rfl
@[simp] theorem State.setCage_mtUnits (s : State) (c : Nat) (x : Cage) : (s.setCage c x).mtUnits = s.mtUnits := rfl
@[simp] theorem State.setCage_mtNs (s : State) (c : Nat) (x : Cage) : (s.setCage c x).mtNs = s.mtNs := rfl

/-! ### What a register reads -/

@[simp] theorem State.word_setWord_same (s : State) (r : Reg) (w : Word) : (s.setWord r w).word r = w :=
  Map.get_put_same ..

theorem State.word_setWord_other (s : State) (r r' : Reg) (w : Word) (h : r' ≠ r) :
    (s.setWord r w).word r' = s.word r' := Map.get_put_other _ _ _ _ _ _ _ h

theorem State.get_setWord_other (s : State) (r : Reg) (w : Word) (f : Fld) (h : f.reg ≠ r) :
    (s.setWord r w).get f = s.get f := by rw [State.get, State.get, State.word_setWord_other _ _ _ _ h]

theorem State.get_setWord_same (s : State) (f : Fld) (w : Word) : (s.setWord f.reg w).get f = fieldOf w f.lo f.wd := by
  rw [State.get, State.word_setWord_same]

theorem State.get_setWord_eq (s : State) (r : Reg) (w : Word) (f : Fld) (h : f.reg = r) :
    (s.setWord r w).get f = fieldOf w f.lo f.wd := by rw [State.get, h, State.word_setWord_same]

theorem State.get_put_same (s : State) (f : Fld) (v : Nat) (h : f.lo + f.wd ≤ 32) :
    (s.put f v).get f = v % 2 ^ f.wd := by
  rw [State.put, State.get_setWord_same, fieldOf_setBits_same _ _ _ _ h]

theorem State.word_put_other (s : State) (f : Fld) (v : Nat) (r : Reg) (h : r ≠ f.reg) :
    (s.put f v).word r = s.word r := State.word_setWord_other _ _ _ _ h

theorem State.get_put_other (s : State) (f g : Fld) (v : Nat) (h : g.reg ≠ f.reg) : (s.put f v).get g = s.get g :=
  State.get_setWord_other _ _ _ _ h

theorem State.get_put_disjoint (s : State) (f g : Fld) (v : Nat) (h : f.lo + f.wd ≤ 32)
    (hd : g.lo + g.wd ≤ f.lo ∨ f.lo + f.wd ≤ g.lo) : (s.put f v).get g = s.get g := by
  by_cases e : g.reg = f.reg
  · rw [State.put, State.get, e, State.word_setWord_same, fieldOf_setBits_disjoint _ _ _ _ _ _ h hd, ← e, State.get]
  · exact State.get_put_other s f g v e

theorem State.get_lt (s : State) (f : Fld) : s.get f < 2 ^ f.wd := fieldOf_lt _ _ _

theorem State.getS_putS (s : State) (f : Fld) (x : Int) (h : f.lo + f.wd ≤ 32) (h0 : 0 < f.wd) :
    (s.putS f x).getS f = satS f.wd x := by
  rw [State.getS, State.putS, State.get_put_same _ _ _ h, signedOf_mod,
    signedOf_codeOf _ h0 _ (satS_low ..) (satS_high ..)]

theorem State.get64_put64 (s : State) (lo hi : Reg) (v : Nat) (h : lo ≠ hi) : (s.put64 lo hi v).get64 lo hi = v % 2 ^ 64 := by
  rw [State.get64, State.put64, State.word_setWord_same, State.word_setWord_other _ _ _ _ h, State.word_setWord_same]
  simp only [BitVec.toNat_ofNat]
  omega

theorem State.get_put64_other (s : State) (lo hi : Reg) (v : Nat) (f : Fld) (h1 : f.reg ≠ lo) (h2 : f.reg ≠ hi) :
    (s.put64 lo hi v).get f = s.get f := by
  rw [State.put64, State.get_setWord_other _ _ _ _ h2, State.get_setWord_other _ _ _ _ h1]

theorem State.get64_other {s x : State} {lo hi : Reg} (h1 : x.word lo = s.word lo) (h2 : x.word hi = s.word hi) :
    x.get64 lo hi = s.get64 lo hi := by rw [State.get64, h1, h2, State.get64]

theorem State.get64_put (s : State) (f : Fld) (v : Nat) (lo hi : Reg) (h1 : lo ≠ f.reg) (h2 : hi ≠ f.reg) :
    (s.put f v).get64 lo hi = s.get64 lo hi :=
  State.get64_other (State.word_put_other _ _ _ _ h1) (State.word_put_other _ _ _ _ h2)

theorem State.get64_put64_other (s : State) (lo hi lo' hi' : Reg) (v : Nat) (h1 : lo' ≠ lo) (h2 : lo' ≠ hi)
    (h3 : hi' ≠ lo) (h4 : hi' ≠ hi) : (s.put64 lo hi v).get64 lo' hi' = s.get64 lo' hi' :=
  State.get64_other
    ((State.word_setWord_other _ _ _ _ h2).trans (State.word_setWord_other _ _ _ _ h1))
    ((State.word_setWord_other _ _ _ _ h4).trans (State.word_setWord_other _ _ _ _ h3))

theorem State.flag_eq (s : State) (f : Fld) : s.flag f = (s.get f == 1) := rfl

@[simp] theorem State.putB_eq (s : State) (f : Fld) (b : Bool) : s.putB f b = s.put f (b2n b) := rfl

/-! ### Logging an event -/

@[simp] theorem State.event_now (s : State) (c i : Nat) (d : List DItem) : (s.event c i d).now = s.now := by
  simp only [State.event, State.takeLog]; split <;> rfl
@[simp] theorem State.event_free (s : State) (c i : Nat) (d : List DItem) : (s.event c i d).free = s.free := by
  simp only [State.event, State.takeLog]; split <;> rfl
@[simp] theorem State.event_clk (s : State) (c i : Nat) (d : List DItem) : (s.event c i d).clk = s.clk := by
  simp only [State.event, State.takeLog]; split <;> rfl
@[simp] theorem State.event_mgmt (s : State) (c i : Nat) (d : List DItem) : (s.event c i d).mgmt = s.mgmt := by
  simp only [State.event, State.takeLog]; split <;> rfl
@[simp] theorem State.event_pwr (s : State) (c i : Nat) (d : List DItem) : (s.event c i d).pwr = s.pwr := by
  simp only [State.event, State.takeLog]; split <;> rfl
@[simp] theorem State.event_start (s : State) (c i : Nat) (d : List DItem) : (s.event c i d).start = s.start := by
  simp only [State.event, State.takeLog]; split <;> rfl
@[simp] theorem State.event_link (s : State) (c i : Nat) (d : List DItem) : (s.event c i d).link = s.link := by
  simp only [State.event, State.takeLog]; split <;> rfl
@[simp] theorem State.event_cells (s : State) (c i : Nat) (d : List DItem) : (s.event c i d).cells = s.cells := by
  simp only [State.event, State.takeLog]; split <;> rfl
@[simp] theorem State.event_eng (s : State) (c i : Nat) (d : List DItem) : (s.event c i d).eng = s.eng := by
  simp only [State.event, State.takeLog]; split <;> rfl
@[simp] theorem State.event_grid (s : State) (c i : Nat) (d : List DItem) : (s.event c i d).grid = s.grid := by
  simp only [State.event, State.takeLog]; split <;> rfl
@[simp] theorem State.event_mppt (s : State) (c i : Nat) (d : List DItem) : (s.event c i d).mppt = s.mppt := by
  simp only [State.event, State.takeLog]; split <;> rfl
@[simp] theorem State.event_frt (s : State) (c i : Nat) (d : List DItem) : (s.event c i d).frt = s.frt := by
  simp only [State.event, State.takeLog]; split <;> rfl
@[simp] theorem State.event_bus (s : State) (c i : Nat) (d : List DItem) : (s.event c i d).bus = s.bus := by
  simp only [State.event, State.takeLog]; split <;> rfl
@[simp] theorem State.event_mtr (s : State) (c i : Nat) (d : List DItem) : (s.event c i d).mtr = s.mtr := by
  simp only [State.event, State.takeLog]; split <;> rfl
@[simp] theorem State.event_lanes (s : State) (c i : Nat) (d : List DItem) : (s.event c i d).lanes = s.lanes := by
  simp only [State.event, State.takeLog]; split <;> rfl
@[simp] theorem State.event_carafe (s : State) (c i : Nat) (d : List DItem) : (s.event c i d).carafe = s.carafe := by
  simp only [State.event, State.takeLog]; split <;> rfl
@[simp] theorem State.event_wear (s : State) (c i : Nat) (d : List DItem) : (s.event c i d).wear = s.wear := by
  simp only [State.event, State.takeLog]; split <;> rfl
@[simp] theorem State.event_safe (s : State) (c i : Nat) (d : List DItem) : (s.event c i d).safe = s.safe := by
  simp only [State.event, State.takeLog]; split <;> rfl
@[simp] theorem State.event_ana (s : State) (c i : Nat) (d : List DItem) : (s.event c i d).ana = s.ana := by
  simp only [State.event, State.takeLog]; split <;> rfl
@[simp] theorem State.event_pour (s : State) (c i : Nat) (d : List DItem) : (s.event c i d).pour = s.pour := by
  simp only [State.event, State.takeLog]; split <;> rfl
@[simp] theorem State.event_pins (s : State) (c i : Nat) (d : List DItem) : (s.event c i d).pins = s.pins := by
  simp only [State.event, State.takeLog]; split <;> rfl
@[simp] theorem State.event_capAsk (s : State) (c i : Nat) (d : List DItem) : (s.event c i d).capAsk = s.capAsk := by
  simp only [State.event, State.takeLog]; split <;> rfl
@[simp] theorem State.event_pending (s : State) (c i : Nat) (d : List DItem) : (s.event c i d).pending = s.pending := by
  simp only [State.event, State.takeLog]; split <;> rfl

theorem State.event_word (s : State) (c i : Nat) (d : List DItem) (r : Reg) (h : r ≠ R.CREMA_STICKY) :
    (s.event c i d).word r = s.word r := by
  simp only [State.event, State.takeLog]
  split
  · exact State.word_put_other _ _ _ _ h
  · rfl

theorem State.event_get (s : State) (c i : Nat) (d : List DItem) (f : Fld) (h : f.reg ≠ R.CREMA_STICKY) :
    (s.event c i d).get f = s.get f := by rw [State.get, State.event_word _ _ _ _ _ h, State.get]

/-! ### Reading a state whose other parts have been replaced -/

@[simp] theorem map_get_regs (s : State) (r : Reg) : Map.get (resetWord r) s.regs r = s.word r := rfl

@[simp] theorem State.mk_word (x : State) (now free clk mgmt log pwr start link cells eng grid mppt frt bus mtr lanes carafe wear safe ana pour pins capAsk pending) (r : Reg) :
    (State.mk now x.regs free clk mgmt log pwr start link cells eng grid mppt frt bus mtr lanes carafe wear safe ana pour pins capAsk pending).word r = x.word r := rfl
@[simp] theorem State.mk_get (x : State) (now free clk mgmt log pwr start link cells eng grid mppt frt bus mtr lanes carafe wear safe ana pour pins capAsk pending) (f : Fld) :
    (State.mk now x.regs free clk mgmt log pwr start link cells eng grid mppt frt bus mtr lanes carafe wear safe ana pour pins capAsk pending).get f = x.get f := rfl
@[simp] theorem State.mk_getS (x : State) (now free clk mgmt log pwr start link cells eng grid mppt frt bus mtr lanes carafe wear safe ana pour pins capAsk pending) (f : Fld) :
    (State.mk now x.regs free clk mgmt log pwr start link cells eng grid mppt frt bus mtr lanes carafe wear safe ana pour pins capAsk pending).getS f = x.getS f := rfl
@[simp] theorem State.mk_flag (x : State) (now free clk mgmt log pwr start link cells eng grid mppt frt bus mtr lanes carafe wear safe ana pour pins capAsk pending) (f : Fld) :
    (State.mk now x.regs free clk mgmt log pwr start link cells eng grid mppt frt bus mtr lanes carafe wear safe ana pour pins capAsk pending).flag f = x.flag f := rfl
@[simp] theorem State.mk_get64 (x : State) (now free clk mgmt log pwr start link cells eng grid mppt frt bus mtr lanes carafe wear safe ana pour pins capAsk pending) (lo hi : Reg) :
    (State.mk now x.regs free clk mgmt log pwr start link cells eng grid mppt frt bus mtr lanes carafe wear safe ana pour pins capAsk pending).get64 lo hi = x.get64 lo hi := rfl
@[simp] theorem State.mk_domState (x : State) (now free clk mgmt log pwr start link cells eng grid mppt frt bus mtr lanes carafe wear safe ana pour pins capAsk pending) (d : Nat) :
    (State.mk now x.regs free clk mgmt log pwr start link cells eng grid mppt frt bus mtr lanes carafe wear safe ana pour pins capAsk pending).domState d = x.domState d := rfl
@[simp] theorem State.mk_isOn (x : State) (now free clk mgmt log pwr start link cells eng grid mppt frt bus mtr lanes carafe wear safe ana pour pins capAsk pending) (d : Nat) :
    (State.mk now x.regs free clk mgmt log pwr start link cells eng grid mppt frt bus mtr lanes carafe wear safe ana pour pins capAsk pending).isOn d = x.isOn d := rfl
@[simp] theorem State.mk_works (x : State) (now free clk mgmt log start link cells eng grid mppt frt bus mtr lanes carafe wear safe ana pour pins capAsk pending) (d : Nat) :
    (State.mk now x.regs free clk mgmt log x.pwr start link cells eng grid mppt frt bus mtr lanes carafe wear safe ana pour pins capAsk pending).works d = x.works d := rfl
@[simp] theorem State.mk_sess (x : State) (now regs free clk log pwr start link cells eng grid mppt frt bus mtr lanes carafe wear safe ana pour pins capAsk pending) (n : Nat) :
    (State.mk now regs free clk x.mgmt log pwr start link cells eng grid mppt frt bus mtr lanes carafe wear safe ana pour pins capAsk pending).sess n = x.sess n := rfl
@[simp] theorem State.mk_ring (x : State) (now regs free clk mgmt log pwr start cells eng grid mppt frt bus mtr lanes carafe wear safe ana pour pins capAsk pending) (n : Nat) :
    (State.mk now regs free clk mgmt log pwr start x.link cells eng grid mppt frt bus mtr lanes carafe wear safe ana pour pins capAsk pending).ring n = x.ring n := rfl
@[simp] theorem State.mk_cellState (x : State) (now free clk mgmt log pwr start link cells eng grid mppt frt bus mtr lanes carafe wear safe ana pour pins capAsk pending) (k : Nat) :
    (State.mk now x.regs free clk mgmt log pwr start link cells eng grid mppt frt bus mtr lanes carafe wear safe ana pour pins capAsk pending).cellState k = x.cellState k := rfl
@[simp] theorem State.mk_mtUnits (x : State) (regs free mgmt log pwr start link cells eng grid mppt frt bus mtr lanes carafe wear safe ana pour pins capAsk pending)  :
    (State.mk x.now regs free x.clk mgmt log pwr start link cells eng grid mppt frt bus mtr lanes carafe wear safe ana pour pins capAsk pending).mtUnits  = x.mtUnits  := rfl
@[simp] theorem State.mk_mtNs (x : State) (regs free mgmt log pwr start link cells eng grid mppt frt bus mtr lanes carafe wear safe ana pour pins capAsk pending)  :
    (State.mk x.now regs free x.clk mgmt log pwr start link cells eng grid mppt frt bus mtr lanes carafe wear safe ana pour pins capAsk pending).mtNs  = x.mtNs  := rfl

/-! ### Frames and log entries -/

theorem State.event_log (s : State) (c i : Nat) (d : List DItem) :
    (s.event c i d).log = s.log.accept (s.isOn domMGMT) (s.isOn domDRAM) (s.entry c i d) := by
  simp only [State.event, State.takeLog]; split <;> rfl

theorem State.event_get64 (s : State) (c i : Nat) (d : List DItem) (lo hi : Reg) (h1 : lo ≠ R.CREMA_STICKY)
    (h2 : hi ≠ R.CREMA_STICKY) : (s.event c i d).get64 lo hi = s.get64 lo hi :=
  State.get64_other (State.event_word _ _ _ _ _ h1) (State.event_word _ _ _ _ _ h2)

@[simp] theorem State.event_sess (s : State) (c i : Nat) (d : List DItem) (n : Nat) : (s.event c i d).sess n = s.sess n := by
  rw [State.sess, State.event_mgmt, State.sess]

@[simp] theorem State.event_ring (s : State) (c i : Nat) (d : List DItem) (n : Nat) : (s.event c i d).ring n = s.ring n := by
  rw [State.ring, State.event_link, State.ring]

@[simp] theorem State.event_mtUnits (s : State) (c i : Nat) (d : List DItem) : (s.event c i d).mtUnits = s.mtUnits := by
  rw [State.mtUnits, State.event_now, State.event_clk, State.mtUnits]

@[simp] theorem State.event_rtcUnits (s : State) (c i : Nat) (d : List DItem) : (s.event c i d).rtcUnits = s.rtcUnits := by
  rw [State.rtcUnits, State.event_now, State.event_clk, State.rtcUnits]

theorem State.domState_setWord (s : State) (r : Reg) (w : Word) (d : Nat) (h1 : r ≠ R.PWR_STATE_LO)
    (h2 : r ≠ R.PWR_STATE_HI) : (s.setWord r w).domState d = s.domState d := by
  have h : (F.PWR_STATE d).reg ≠ r := by
    simp only [F.PWR_STATE]; split
    · exact fun e => h1 e.symm
    · exact fun e => h2 e.symm
  exact State.get_setWord_other s r w _ h

theorem State.isOn_setWord (s : State) (r : Reg) (w : Word) (d : Nat) (h1 : r ≠ R.PWR_STATE_LO)
    (h2 : r ≠ R.PWR_STATE_HI) : (s.setWord r w).isOn d = s.isOn d := by
  rw [State.isOn, State.domState_setWord s r w d h1 h2, State.isOn]

theorem State.works_setWord (s : State) (r : Reg) (w : Word) (d : Nat) (h1 : r ≠ R.PWR_STATE_LO)
    (h2 : r ≠ R.PWR_STATE_HI) : (s.setWord r w).works d = s.works d := by
  rw [State.works, State.domState_setWord s r w d h1 h2, State.works]; rfl

theorem State.isOn_put (s : State) (f : Fld) (v d : Nat) (h1 : f.reg ≠ R.PWR_STATE_LO) (h2 : f.reg ≠ R.PWR_STATE_HI) :
    (s.put f v).isOn d = s.isOn d := State.isOn_setWord _ _ _ _ h1 h2

theorem State.isOn_put64 (s : State) (lo hi : Reg) (v d : Nat) (h1 : lo ≠ R.PWR_STATE_LO) (h2 : lo ≠ R.PWR_STATE_HI)
    (h3 : hi ≠ R.PWR_STATE_LO) (h4 : hi ≠ R.PWR_STATE_HI) : (s.put64 lo hi v).isOn d = s.isOn d :=
  (State.isOn_setWord _ _ _ _ h3 h4).trans (State.isOn_setWord _ _ _ _ h1 h2)

theorem State.works_put (s : State) (f : Fld) (v d : Nat) (h1 : f.reg ≠ R.PWR_STATE_LO) (h2 : f.reg ≠ R.PWR_STATE_HI) :
    (s.put f v).works d = s.works d := State.works_setWord _ _ _ _ h1 h2

@[simp] theorem State.event_isOn (s : State) (c i : Nat) (e : List DItem) (d : Nat) :
    (s.event c i e).isOn d = s.isOn d := by
  simp only [State.event, State.takeLog]
  split
  · exact State.isOn_put _ _ _ _ (by decide) (by decide)
  · rfl

@[simp] theorem State.event_works (s : State) (c i : Nat) (e : List DItem) (d : Nat) :
    (s.event c i e).works d = s.works d := by
  simp only [State.event, State.takeLog]
  split
  · exact State.works_put _ _ _ _ (by decide) (by decide)
  · rfl

end Sys2Proof.Machine
end

