-- ==== Sys2Proof/Laws/Frame.lean ====
section
/-! SUPPORT. What the shared updates keep (`State.Frame`) and what they log (`State.Logs`). -/

namespace Sys2Proof.Machine

theorem getLsbD_setBits (w : Word) (lo wd v k : Nat) (h : lo + wd ≤ 32) (hk : k < lo ∨ lo + wd ≤ k) :
    (setBits w lo wd v).getLsbD k = w.getLsbD k := by
  have e := testBit_setBits w lo wd v k h
  rw [if_neg (by omega)] at e
  exact e

theorem State.Frame.refl (a : State) (fs : List Fld) (ps : List Part) : a.Frame a fs ps :=
  ⟨rfl, rfl, fun _ _ _ => rfl, fun p _ => by cases p <;> rfl⟩

theorem State.Same.trans {a b c : State} {p : Part} (h : a.Same b p) (h' : b.Same c p) : a.Same c p := by
  cases p <;> exact Eq.trans h' h

theorem State.Frame.trans {a b c : State} {fs : List Fld} {ps : List Part} (h : a.Frame b fs ps) (h' : b.Frame c fs ps) :
    a.Frame c fs ps :=
  ⟨h'.now.trans h.now, h'.pending.trans h.pending, fun r k q => (h'.bits r k q).trans (h.bits r k q),
    fun p hp => (h.parts p hp).trans (h'.parts p hp)⟩

theorem State.Frame.mono {a b : State} {fs fs' : List Fld} {ps ps' : List Part} (h : a.Frame b fs ps)
    (hf : ∀ f ∈ fs, f ∈ fs') (hp : ∀ p ∈ ps, p ∈ ps') : a.Frame b fs' ps' :=
  ⟨h.now, h.pending, fun r k q => h.bits r k fun f m => q f (hf f m), fun p q => h.parts p fun m => q (hp p m)⟩

/-- An update of parts only. -/
theorem State.Frame.part {a b c : State} {fs : List Fld} {ps : List Part} (h : a.Frame b fs ps)
    (hn : c.now = b.now) (hq : c.pending = b.pending) (hr : c.regs = b.regs) (hp : ∀ p, p ∉ ps → b.Same c p) :
    a.Frame c fs ps :=
  h.trans ⟨hn, hq, fun r k _ => by rw [State.word, hr, State.word], hp⟩

theorem State.Frame.setWord {a b : State} {fs : List Fld} {ps : List Part} (h : a.Frame b fs ps) (r : Reg) (w : Word)
    (hf : r.all ∈ fs) : a.Frame (b.setWord r w) fs ps :=
  h.trans ⟨rfl, rfl, fun r' k q => by
    by_cases e : r' = r
    · subst e
      rcases q _ hf rfl with x | x
      · exact absurd x (Nat.not_lt_zero _)
      · rw [BitVec.getLsbD_of_ge _ _ x, BitVec.getLsbD_of_ge _ _ x]
    · rw [State.word_setWord_other _ _ _ _ e], fun p _ => by cases p <;> rfl⟩

theorem State.Frame.put {a b : State} {fs : List Fld} {ps : List Part} (h : a.Frame b fs ps) (f : Fld) (v : Nat)
    (hf : f ∈ fs) (hw : f.lo + f.wd ≤ 32) : a.Frame (b.put f v) fs ps :=
  h.trans ⟨rfl, rfl, fun r k q => by
    by_cases e : r = f.reg
    · subst e
      rw [State.put, State.word_setWord_same]
      exact getLsbD_setBits _ _ _ _ _ hw (q f hf rfl)
    · rw [State.word_put_other _ _ _ _ e], fun p _ => by cases p <;> rfl⟩

theorem State.Frame.putAll {a b : State} {fs : List Fld} {ps : List Part} (h : a.Frame b fs ps) (f : Fld) (v : Nat)
    (hf : f.reg.all ∈ fs) : a.Frame (b.put f v) fs ps := h.setWord _ _ hf

theorem State.Frame.putS {a b : State} {fs : List Fld} {ps : List Part} (h : a.Frame b fs ps) (f : Fld) (x : Int)
    (hf : f ∈ fs) (hw : f.lo + f.wd ≤ 32) : a.Frame (b.putS f x) fs ps := h.put _ _ hf hw

theorem State.Frame.putSat {a b : State} {fs : List Fld} {ps : List Part} (h : a.Frame b fs ps) (f : Fld) (x : Nat)
    (hf : f ∈ fs) (hw : f.lo + f.wd ≤ 32) : a.Frame (b.putSat f x) fs ps := h.put _ _ hf hw

theorem State.Frame.count {a b : State} {fs : List Fld} {ps : List Part} (h : a.Frame b fs ps) (f : Fld) (x : Nat)
    (hf : f ∈ fs) (hw : f.lo + f.wd ≤ 32) : a.Frame (b.count f x) fs ps := h.put _ _ hf hw

theorem State.Frame.countWrap {a b : State} {fs : List Fld} {ps : List Part} (h : a.Frame b fs ps) (f : Fld)
    (hf : f ∈ fs) (hw : f.lo + f.wd ≤ 32) : a.Frame (b.countWrap f) fs ps := h.put _ _ hf hw

theorem State.Frame.put64 {a b : State} {fs : List Fld} {ps : List Part} (h : a.Frame b fs ps) (lo hi : Reg) (v : Nat)
    (h1 : lo.all ∈ fs) (h2 : hi.all ∈ fs) : a.Frame (b.put64 lo hi v) fs ps := (h.setWord _ _ h1).setWord _ _ h2

theorem State.Frame.takeLog {a b : State} {fs : List Fld} {ps : List Part} (h : a.Frame b fs ps) (l : LogSt)
    (hf : F.CREMA_STICKY_LOG_MEDIA_FAULT ∈ fs) (hl : Part.log ∈ ps) : a.Frame (b.takeLog l) fs ps := by
  have h1 : a.Frame { b with log := l } fs ps := h.part rfl rfl rfl fun p hp => by
    cases p <;> first | rfl | exact absurd hl hp
  simp only [State.takeLog]
  split
  · exact h1.put _ _ hf (by decide)
  · exact h1

theorem State.Frame.event {a b : State} {fs : List Fld} {ps : List Part} (h : a.Frame b fs ps) (c i : Nat)
    (d : List DItem) (hf : F.CREMA_STICKY_LOG_MEDIA_FAULT ∈ fs) (hl : Part.log ∈ ps) :
    a.Frame (b.event c i d) fs ps := h.takeLog _ hf hl

theorem State.Frame.freeStep {a b : State} {fs : List Fld} {ps : List Part} (h : a.Frame b fs ps)
    (hl : Part.free ∈ ps) : a.Frame b.freeStep fs ps := h.part rfl rfl rfl fun p hp => by
  cases p <;> first | rfl | exact absurd hl hp

theorem State.Frame.setSess {a b : State} {fs : List Fld} {ps : List Part} (h : a.Frame b fs ps) (n : Nat) (x : Session)
    (hl : Part.mgmt ∈ ps) : a.Frame (b.setSess n x) fs ps := h.part rfl rfl rfl fun p hp => by
  cases p <;> first | rfl | exact absurd hl hp

theorem State.Frame.setRing {a b : State} {fs : List Fld} {ps : List Part} (h : a.Frame b fs ps) (n : Nat) (x : RingSt)
    (hl : Part.link ∈ ps) : a.Frame (b.setRing n x) fs ps := h.part rfl rfl rfl fun p hp => by
  cases p <;> first | rfl | exact absurd hl hp

theorem State.Frame.foldl {α : Type} {a b : State} {fs : List Fld} {ps : List Part} (l : List α) (f : State → α → State)
    (h : a.Frame b fs ps) (hs : ∀ x e, e ∈ l → a.Frame x fs ps → a.Frame (f x e) fs ps) :
    a.Frame (l.foldl f b) fs ps := by
  induction l generalizing b with
  | nil => exact h
  | cons e r ih => exact ih (hs b e (List.mem_cons_self ..) h) fun x e' m => hs x e' (List.mem_cons_of_mem _ m)

/-- Every part outside the frame stands, by name. -/
theorem State.Frame.clk {a b : State} {fs : List Fld} {ps : List Part} (h : a.Frame b fs ps) (hp : Part.clk ∉ ps) :
    b.clk = a.clk := h.parts .clk hp

/-! ### The updates of one part -/

theorem State.Frame.setClk {a b : State} {fs : List Fld} {ps : List Part} (h₀ : a.Frame b fs ps) (f : ClkSt → ClkSt)
    (hl : Part.clk ∈ ps) : a.Frame (b.setClk f) fs ps := h₀.part rfl rfl rfl fun p hp => by
  cases p <;> first | rfl | exact absurd hl hp

theorem State.Frame.setMgmt {a b : State} {fs : List Fld} {ps : List Part} (h₀ : a.Frame b fs ps) (f : MgmtSt → MgmtSt)
    (hl : Part.mgmt ∈ ps) : a.Frame (b.setMgmt f) fs ps := h₀.part rfl rfl rfl fun p hp => by
  cases p <;> first | rfl | exact absurd hl hp

theorem State.Frame.setLog {a b : State} {fs : List Fld} {ps : List Part} (h₀ : a.Frame b fs ps) (f : LogSt → LogSt)
    (hl : Part.log ∈ ps) : a.Frame (b.setLog f) fs ps := h₀.part rfl rfl rfl fun p hp => by
  cases p <;> first | rfl | exact absurd hl hp

theorem State.Frame.setPwr {a b : State} {fs : List Fld} {ps : List Part} (h₀ : a.Frame b fs ps) (f : PwrSt → PwrSt)
    (hl : Part.pwr ∈ ps) : a.Frame (b.setPwr f) fs ps := h₀.part rfl rfl rfl fun p hp => by
  cases p <;> first | rfl | exact absurd hl hp

theorem State.Frame.setStart {a b : State} {fs : List Fld} {ps : List Part} (h₀ : a.Frame b fs ps) (f : StartSt → StartSt)
    (hl : Part.start ∈ ps) : a.Frame (b.setStart f) fs ps := h₀.part rfl rfl rfl fun p hp => by
  cases p <;> first | rfl | exact absurd hl hp

theorem State.Frame.setLink {a b : State} {fs : List Fld} {ps : List Part} (h₀ : a.Frame b fs ps) (f : LinkSt → LinkSt)
    (hl : Part.link ∈ ps) : a.Frame (b.setLink f) fs ps := h₀.part rfl rfl rfl fun p hp => by
  cases p <;> first | rfl | exact absurd hl hp

theorem State.Frame.setCells {a b : State} {fs : List Fld} {ps : List Part} (h₀ : a.Frame b fs ps) (f : CellsSt → CellsSt)
    (hl : Part.cells ∈ ps) : a.Frame (b.setCells f) fs ps := h₀.part rfl rfl rfl fun p hp => by
  cases p <;> first | rfl | exact absurd hl hp

theorem State.Frame.setEng {a b : State} {fs : List Fld} {ps : List Part} (h₀ : a.Frame b fs ps) (f : EngSt → EngSt)
    (hl : Part.eng ∈ ps) : a.Frame (b.setEng f) fs ps := h₀.part rfl rfl rfl fun p hp => by
  cases p <;> first | rfl | exact absurd hl hp

theorem State.Frame.setGrid {a b : State} {fs : List Fld} {ps : List Part} (h₀ : a.Frame b fs ps) (f : GridSt → GridSt)
    (hl : Part.grid ∈ ps) : a.Frame (b.setGrid f) fs ps := h₀.part rfl rfl rfl fun p hp => by
  cases p <;> first | rfl | exact absurd hl hp

theorem State.Frame.setMppt {a b : State} {fs : List Fld} {ps : List Part} (h₀ : a.Frame b fs ps) (f : MpptSt → MpptSt)
    (hl : Part.mppt ∈ ps) : a.Frame (b.setMppt f) fs ps := h₀.part rfl rfl rfl fun p hp => by
  cases p <;> first | rfl | exact absurd hl hp

theorem State.Frame.setFrt {a b : State} {fs : List Fld} {ps : List Part} (h₀ : a.Frame b fs ps) (f : FrtSt → FrtSt)
    (hl : Part.frt ∈ ps) : a.Frame (b.setFrt f) fs ps := h₀.part rfl rfl rfl fun p hp => by
  cases p <;> first | rfl | exact absurd hl hp

theorem State.Frame.setBus {a b : State} {fs : List Fld} {ps : List Part} (h₀ : a.Frame b fs ps) (f : BusSt → BusSt)
    (hl : Part.bus ∈ ps) : a.Frame (b.setBus f) fs ps := h₀.part rfl rfl rfl fun p hp => by
  cases p <;> first | rfl | exact absurd hl hp

theorem State.Frame.setMtr {a b : State} {fs : List Fld} {ps : List Part} (h₀ : a.Frame b fs ps) (f : MtrSt → MtrSt)
    (hl : Part.mtr ∈ ps) : a.Frame (b.setMtr f) fs ps := h₀.part rfl rfl rfl fun p hp => by
  cases p <;> first | rfl | exact absurd hl hp

theorem State.Frame.setLanes {a b : State} {fs : List Fld} {ps : List Part} (h₀ : a.Frame b fs ps) (f : LanesSt → LanesSt)
    (hl : Part.lanes ∈ ps) : a.Frame (b.setLanes f) fs ps := h₀.part rfl rfl rfl fun p hp => by
  cases p <;> first | rfl | exact absurd hl hp

theorem State.Frame.setRec {a b : State} {fs : List Fld} {ps : List Part} (h₀ : a.Frame b fs ps) (f : RecSt → RecSt)
    (hl : Part.carafe ∈ ps) : a.Frame (b.setRec f) fs ps := h₀.part rfl rfl rfl fun p hp => by
  cases p <;> first | rfl | exact absurd hl hp

theorem State.Frame.setWear {a b : State} {fs : List Fld} {ps : List Part} (h₀ : a.Frame b fs ps) (f : WearSt → WearSt)
    (hl : Part.wear ∈ ps) : a.Frame (b.setWear f) fs ps := h₀.part rfl rfl rfl fun p hp => by
  cases p <;> first | rfl | exact absurd hl hp

theorem State.Frame.setSafe {a b : State} {fs : List Fld} {ps : List Part} (h₀ : a.Frame b fs ps) (f : SafeSt → SafeSt)
    (hl : Part.safe ∈ ps) : a.Frame (b.setSafe f) fs ps := h₀.part rfl rfl rfl fun p hp => by
  cases p <;> first | rfl | exact absurd hl hp

theorem State.Frame.setAna {a b : State} {fs : List Fld} {ps : List Part} (h₀ : a.Frame b fs ps) (f : AnaSt → AnaSt)
    (hl : Part.ana ∈ ps) : a.Frame (b.setAna f) fs ps := h₀.part rfl rfl rfl fun p hp => by
  cases p <;> first | rfl | exact absurd hl hp

theorem State.Frame.setPour {a b : State} {fs : List Fld} {ps : List Part} (h₀ : a.Frame b fs ps) (f : PourSt → PourSt)
    (hl : Part.pour ∈ ps) : a.Frame (b.setPour f) fs ps := h₀.part rfl rfl rfl fun p hp => by
  cases p <;> first | rfl | exact absurd hl hp

theorem State.Frame.setPins {a b : State} {fs : List Fld} {ps : List Part} (h₀ : a.Frame b fs ps) (f : PinSt → PinSt)
    (hl : Part.pins ∈ ps) : a.Frame (b.setPins f) fs ps := h₀.part rfl rfl rfl fun p hp => by
  cases p <;> first | rfl | exact absurd hl hp

theorem State.Frame.setCapAsk {a b : State} {fs : List Fld} {ps : List Part} (h₀ : a.Frame b fs ps) (f : List (Nat × Nat × Nat) → List (Nat × Nat × Nat))
    (hl : Part.capAsk ∈ ps) : a.Frame (b.setCapAsk f) fs ps := h₀.part rfl rfl rfl fun p hp => by
  cases p <;> first | rfl | exact absurd hl hp

theorem State.Frame.setPslot {a b : State} {fs : List Fld} {ps : List Part} (h₀ : a.Frame b fs ps) (k : Nat) (x : PourSlot)
    (hl : Part.pour ∈ ps) : a.Frame (b.setPslot k x) fs ps := h₀.part rfl rfl rfl fun p hp => by
  cases p <;> first | rfl | exact absurd hl hp

theorem State.Frame.setWcell {a b : State} {fs : List Fld} {ps : List Part} (h₀ : a.Frame b fs ps) (k : Nat) (x : WearCell)
    (hl : Part.wear ∈ ps) : a.Frame (b.setWcell k x) fs ps := h₀.part rfl rfl rfl fun p hp => by
  cases p <;> first | rfl | exact absurd hl hp

theorem State.Frame.setCellX {a b : State} {fs : List Fld} {ps : List Part} (h₀ : a.Frame b fs ps) (k : Nat) (x : CellX)
    (hl : Part.cells ∈ ps) : a.Frame (b.setCellX k x) fs ps := h₀.part rfl rfl rfl fun p hp => by
  cases p <;> first | rfl | exact absurd hl hp

theorem State.Frame.setDec {a b : State} {fs : List Fld} {ps : List Part} (h₀ : a.Frame b fs ps) (k : Nat) (d : Option PwmDec)
    (hl : Part.eng ∈ ps) : a.Frame (b.setDec k d) fs ps := h₀.part rfl rfl rfl fun p hp => by
  cases p <;> first | rfl | exact absurd hl hp

theorem State.Frame.setGpt {a b : State} {fs : List Fld} {ps : List Part} (h₀ : a.Frame b fs ps) (p : Nat) (x : GridPt)
    (hl : Part.grid ∈ ps) : a.Frame (b.setGpt p x) fs ps := h₀.part rfl rfl rfl fun p hp => by
  cases p <;> first | rfl | exact absurd hl hp

theorem State.Frame.setGclu {a b : State} {fs : List Fld} {ps : List Part} (h₀ : a.Frame b fs ps) (c : Nat) (x : GridClu)
    (hl : Part.grid ∈ ps) : a.Frame (b.setGclu c x) fs ps := h₀.part rfl rfl rfl fun p hp => by
  cases p <;> first | rfl | exact absurd hl hp

theorem State.Frame.setGcell {a b : State} {fs : List Fld} {ps : List Part} (h₀ : a.Frame b fs ps) (k : Nat) (x : GridCell)
    (hl : Part.grid ∈ ps) : a.Frame (b.setGcell k x) fs ps := h₀.part rfl rfl rfl fun p hp => by
  cases p <;> first | rfl | exact absurd hl hp

theorem State.Frame.setMcell {a b : State} {fs : List Fld} {ps : List Part} (h₀ : a.Frame b fs ps) (k : Nat) (x : MpptCell)
    (hl : Part.mppt ∈ ps) : a.Frame (b.setMcell k x) fs ps := h₀.part rfl rfl rfl fun p hp => by
  cases p <;> first | rfl | exact absurd hl hp

theorem State.Frame.setMclu {a b : State} {fs : List Fld} {ps : List Part} (h₀ : a.Frame b fs ps) (c : Nat) (x : MpptClu)
    (hl : Part.mppt ∈ ps) : a.Frame (b.setMclu c x) fs ps := h₀.part rfl rfl rfl fun p hp => by
  cases p <;> first | rfl | exact absurd hl hp

theorem State.Frame.setFclu {a b : State} {fs : List Fld} {ps : List Part} (h₀ : a.Frame b fs ps) (c : Nat) (x : FrtClu)
    (hl : Part.frt ∈ ps) : a.Frame (b.setFclu c x) fs ps := h₀.part rfl rfl rfl fun p hp => by
  cases p <;> first | rfl | exact absurd hl hp

theorem State.Frame.setIsl {a b : State} {fs : List Fld} {ps : List Part} (h₀ : a.Frame b fs ps) (x : IslSt)
    (hl : Part.frt ∈ ps) : a.Frame (b.setIsl x) fs ps := h₀.part rfl rfl rfl fun p hp => by
  cases p <;> first | rfl | exact absurd hl hp

theorem State.Frame.setLegX {a b : State} {fs : List Fld} {ps : List Part} (h₀ : a.Frame b fs ps) (l : Nat) (x : LegX)
    (hl : Part.ana ∈ ps) : a.Frame (b.setLegX l x) fs ps := h₀.part rfl rfl rfl fun p hp => by
  cases p <;> first | rfl | exact absurd hl hp

theorem State.Frame.setMpt {a b : State} {fs : List Fld} {ps : List Part} (h₀ : a.Frame b fs ps) (m : Nat) (x : MtrPt)
    (hl : Part.mtr ∈ ps) : a.Frame (b.setMpt m x) fs ps := h₀.part rfl rfl rfl fun p hp => by
  cases p <;> first | rfl | exact absurd hl hp

theorem State.Frame.setSvSub {a b : State} {fs : List Fld} {ps : List Part} (h₀ : a.Frame b fs ps) (j : Nat) (x : SvSub)
    (hl : Part.bus ∈ ps) : a.Frame (b.setSvSub j x) fs ps := h₀.part rfl rfl rfl fun p hp => by
  cases p <;> first | rfl | exact absurd hl hp

theorem State.Frame.setGSub {a b : State} {fs : List Fld} {ps : List Part} (h₀ : a.Frame b fs ps) (g : Nat) (x : GooseSub)
    (hl : Part.bus ∈ ps) : a.Frame (b.setGSub g x) fs ps := h₀.part rfl rfl rfl fun p hp => by
  cases p <;> first | rfl | exact absurd hl hp

theorem State.Frame.setLane {a b : State} {fs : List Fld} {ps : List Part} (h₀ : a.Frame b fs ps) (l : Nat) (x : LaneX)
    (hl : Part.lanes ∈ ps) : a.Frame (b.setLane l x) fs ps := h₀.part rfl rfl rfl fun p hp => by
  cases p <;> first | rfl | exact absurd hl hp

theorem State.Frame.setCdrive {a b : State} {fs : List Fld} {ps : List Part} (h₀ : a.Frame b fs ps) (d : Nat) (x : CDrive)
    (hl : Part.carafe ∈ ps) : a.Frame (b.setCdrive d x) fs ps := h₀.part rfl rfl rfl fun p hp => by
  cases p <;> first | rfl | exact absurd hl hp

theorem State.Frame.setStrm {a b : State} {fs : List Fld} {ps : List Part} (h₀ : a.Frame b fs ps) (m : Nat) (x : CStream)
    (hl : Part.carafe ∈ ps) : a.Frame (b.setStrm m x) fs ps := h₀.part rfl rfl rfl fun p hp => by
  cases p <;> first | rfl | exact absurd hl hp

theorem State.Frame.setCons {a b : State} {fs : List Fld} {ps : List Part} (h₀ : a.Frame b fs ps) (c : Nat) (x : SafeCons)
    (hl : Part.safe ∈ ps) : a.Frame (b.setCons c x) fs ps := h₀.part rfl rfl rfl fun p hp => by
  cases p <;> first | rfl | exact absurd hl hp

theorem State.Frame.setCmp {a b : State} {fs : List Fld} {ps : List Part} (h₀ : a.Frame b fs ps) (c : Nat) (x : CmpX)
    (hl : Part.ana ∈ ps) : a.Frame (b.setCmp c x) fs ps := h₀.part rfl rfl rfl fun p hp => by
  cases p <;> first | rfl | exact absurd hl hp

theorem State.Frame.setBsi {a b : State} {fs : List Fld} {ps : List Part} (h₀ : a.Frame b fs ps) (n : Nat) (x : BsiX)
    (hl : Part.ana ∈ ps) : a.Frame (b.setBsi n x) fs ps := h₀.part rfl rfl rfl fun p hp => by
  cases p <;> first | rfl | exact absurd hl hp

theorem State.Frame.setIadc {a b : State} {fs : List Fld} {ps : List Part} (h₀ : a.Frame b fs ps) (f : IadcSt → IadcSt)
    (hl : Part.ana ∈ ps) : a.Frame (b.setIadc f) fs ps := h₀.part rfl rfl rfl fun p hp => by
  cases p <;> first | rfl | exact absurd hl hp

theorem State.Frame.setCage {a b : State} {fs : List Fld} {ps : List Part} (h₀ : a.Frame b fs ps) (c : Nat) (x : Cage)
    (hl : Part.pins ∈ ps) : a.Frame (b.setCage c x) fs ps := h₀.part rfl rfl rfl fun p hp => by
  cases p <;> first | rfl | exact absurd hl hp

/-! ### What is logged -/

theorem State.Logs.none {s x : State} (h : x.log = s.log) : s.Logs x [] := ⟨[], rfl, h⟩

theorem State.Logs.event {s x : State} {l : List (Nat × Nat × List DItem)} (h : s.Logs x l) (c i : Nat) (d : List DItem)
    (hm : x.isOn domMGMT = s.isOn domMGMT) (hd : x.isOn domDRAM = s.isOn domDRAM) :
    s.Logs (x.event c i d) (l ++ [(c, i, d)]) := by
  obtain ⟨es, e1, e2⟩ := h
  refine ⟨es ++ [x.entry c i d], ?_, ?_⟩
  · rw [List.map_append, List.map_append, e1]; rfl
  · rw [State.event_log, e2, hm, hd, List.foldl_append]; rfl

/-- The last of several events. -/
theorem State.Logs.snoc {s x : State} {l : List (Nat × Nat × List DItem)} (h : s.Logs x l.dropLast) (c i : Nat)
    (d : List DItem) (hl : l = l.dropLast ++ [(c, i, d)]) (hm : x.isOn domMGMT = s.isOn domMGMT)
    (hd : x.isOn domDRAM = s.isOn domDRAM) : s.Logs (x.event c i d) l := by
  rw [hl]; exact h.event c i d hm hd

/-- The first event logged since `s`. -/
theorem State.Logs.one {s x : State} (c i : Nat) (d : List DItem) (hl : x.log = s.log)
    (hm : x.isOn domMGMT = s.isOn domMGMT) (hd : x.isOn domDRAM = s.isOn domDRAM) :
    s.Logs (x.event c i d) [(c, i, d)] := (State.Logs.none hl).event c i d hm hd

/-- An update that leaves the log alone after the events. -/
theorem State.Logs.then {s x y : State} {l : List (Nat × Nat × List DItem)} (h : s.Logs x l) (e : y.log = x.log) :
    s.Logs y l := by
  obtain ⟨es, e1, e2⟩ := h
  exact ⟨es, e1, e.trans e2⟩

/-! ### Updates that log nothing -/

theorem State.Logs.put64 {s x₀ : State} {es : List (Nat × Nat × List DItem)} (h₀ : s.Logs x₀ es) (lo hi : Reg) (v : Nat) :
    s.Logs (x₀.put64 lo hi v) es := h₀.then rfl

theorem State.Logs.setWord {s x₀ : State} {es : List (Nat × Nat × List DItem)} (h₀ : s.Logs x₀ es) (r : Reg) (w : Word) :
    s.Logs (x₀.setWord r w) es := h₀.then rfl

theorem State.Logs.put {s x₀ : State} {es : List (Nat × Nat × List DItem)} (h₀ : s.Logs x₀ es) (f : Fld) (v : Nat) :
    s.Logs (x₀.put f v) es := h₀.then rfl

theorem State.Logs.putS {s x₀ : State} {es : List (Nat × Nat × List DItem)} (h₀ : s.Logs x₀ es) (f : Fld) (x : Int) :
    s.Logs (x₀.putS f x) es := h₀.then rfl

theorem State.Logs.putSat {s x₀ : State} {es : List (Nat × Nat × List DItem)} (h₀ : s.Logs x₀ es) (f : Fld) (v : Nat) :
    s.Logs (x₀.putSat f v) es := h₀.then rfl

theorem State.Logs.count {s x₀ : State} {es : List (Nat × Nat × List DItem)} (h₀ : s.Logs x₀ es) (f : Fld) (n : Nat) :
    s.Logs (x₀.count f n) es := h₀.then rfl

theorem State.Logs.countWrap {s x₀ : State} {es : List (Nat × Nat × List DItem)} (h₀ : s.Logs x₀ es) (f : Fld) :
    s.Logs (x₀.countWrap f) es := h₀.then rfl

theorem State.Logs.freeStep {s x₀ : State} {es : List (Nat × Nat × List DItem)} (h₀ : s.Logs x₀ es) :
    s.Logs (x₀.freeStep ) es := h₀.then rfl

theorem State.Logs.setClk {s x₀ : State} {es : List (Nat × Nat × List DItem)} (h₀ : s.Logs x₀ es) (f : ClkSt → ClkSt) :
    s.Logs (x₀.setClk f) es := h₀.then rfl

theorem State.Logs.setMgmt {s x₀ : State} {es : List (Nat × Nat × List DItem)} (h₀ : s.Logs x₀ es) (f : MgmtSt → MgmtSt) :
    s.Logs (x₀.setMgmt f) es := h₀.then rfl

theorem State.Logs.setPwr {s x₀ : State} {es : List (Nat × Nat × List DItem)} (h₀ : s.Logs x₀ es) (f : PwrSt → PwrSt) :
    s.Logs (x₀.setPwr f) es := h₀.then rfl

theorem State.Logs.setStart {s x₀ : State} {es : List (Nat × Nat × List DItem)} (h₀ : s.Logs x₀ es) (f : StartSt → StartSt) :
    s.Logs (x₀.setStart f) es := h₀.then rfl

theorem State.Logs.setLink {s x₀ : State} {es : List (Nat × Nat × List DItem)} (h₀ : s.Logs x₀ es) (f : LinkSt → LinkSt) :
    s.Logs (x₀.setLink f) es := h₀.then rfl

theorem State.Logs.setCells {s x₀ : State} {es : List (Nat × Nat × List DItem)} (h₀ : s.Logs x₀ es) (f : CellsSt → CellsSt) :
    s.Logs (x₀.setCells f) es := h₀.then rfl

theorem State.Logs.setEng {s x₀ : State} {es : List (Nat × Nat × List DItem)} (h₀ : s.Logs x₀ es) (f : EngSt → EngSt) :
    s.Logs (x₀.setEng f) es := h₀.then rfl

theorem State.Logs.setGrid {s x₀ : State} {es : List (Nat × Nat × List DItem)} (h₀ : s.Logs x₀ es) (f : GridSt → GridSt) :
    s.Logs (x₀.setGrid f) es := h₀.then rfl

theorem State.Logs.setMppt {s x₀ : State} {es : List (Nat × Nat × List DItem)} (h₀ : s.Logs x₀ es) (f : MpptSt → MpptSt) :
    s.Logs (x₀.setMppt f) es := h₀.then rfl

theorem State.Logs.setFrt {s x₀ : State} {es : List (Nat × Nat × List DItem)} (h₀ : s.Logs x₀ es) (f : FrtSt → FrtSt) :
    s.Logs (x₀.setFrt f) es := h₀.then rfl

theorem State.Logs.setBus {s x₀ : State} {es : List (Nat × Nat × List DItem)} (h₀ : s.Logs x₀ es) (f : BusSt → BusSt) :
    s.Logs (x₀.setBus f) es := h₀.then rfl

theorem State.Logs.setMtr {s x₀ : State} {es : List (Nat × Nat × List DItem)} (h₀ : s.Logs x₀ es) (f : MtrSt → MtrSt) :
    s.Logs (x₀.setMtr f) es := h₀.then rfl

theorem State.Logs.setLanes {s x₀ : State} {es : List (Nat × Nat × List DItem)} (h₀ : s.Logs x₀ es) (f : LanesSt → LanesSt) :
    s.Logs (x₀.setLanes f) es := h₀.then rfl

theorem State.Logs.setRec {s x₀ : State} {es : List (Nat × Nat × List DItem)} (h₀ : s.Logs x₀ es) (f : RecSt → RecSt) :
    s.Logs (x₀.setRec f) es := h₀.then rfl

theorem State.Logs.setWear {s x₀ : State} {es : List (Nat × Nat × List DItem)} (h₀ : s.Logs x₀ es) (f : WearSt → WearSt) :
    s.Logs (x₀.setWear f) es := h₀.then rfl

theorem State.Logs.setSafe {s x₀ : State} {es : List (Nat × Nat × List DItem)} (h₀ : s.Logs x₀ es) (f : SafeSt → SafeSt) :
    s.Logs (x₀.setSafe f) es := h₀.then rfl

theorem State.Logs.setAna {s x₀ : State} {es : List (Nat × Nat × List DItem)} (h₀ : s.Logs x₀ es) (f : AnaSt → AnaSt) :
    s.Logs (x₀.setAna f) es := h₀.then rfl

theorem State.Logs.setPour {s x₀ : State} {es : List (Nat × Nat × List DItem)} (h₀ : s.Logs x₀ es) (f : PourSt → PourSt) :
    s.Logs (x₀.setPour f) es := h₀.then rfl

theorem State.Logs.setPins {s x₀ : State} {es : List (Nat × Nat × List DItem)} (h₀ : s.Logs x₀ es) (f : PinSt → PinSt) :
    s.Logs (x₀.setPins f) es := h₀.then rfl

theorem State.Logs.setCapAsk {s x₀ : State} {es : List (Nat × Nat × List DItem)} (h₀ : s.Logs x₀ es) (f : List (Nat × Nat × Nat) → List (Nat × Nat × Nat)) :
    s.Logs (x₀.setCapAsk f) es := h₀.then rfl

theorem State.Logs.setSess {s x₀ : State} {es : List (Nat × Nat × List DItem)} (h₀ : s.Logs x₀ es) (n : Nat) (x : Session) :
    s.Logs (x₀.setSess n x) es := h₀.then rfl

theorem State.Logs.setRing {s x₀ : State} {es : List (Nat × Nat × List DItem)} (h₀ : s.Logs x₀ es) (n : Nat) (x : RingSt) :
    s.Logs (x₀.setRing n x) es := h₀.then rfl

theorem State.Logs.setPslot {s x₀ : State} {es : List (Nat × Nat × List DItem)} (h₀ : s.Logs x₀ es) (k : Nat) (x : PourSlot) :
    s.Logs (x₀.setPslot k x) es := h₀.then rfl

theorem State.Logs.setWcell {s x₀ : State} {es : List (Nat × Nat × List DItem)} (h₀ : s.Logs x₀ es) (k : Nat) (x : WearCell) :
    s.Logs (x₀.setWcell k x) es := h₀.then rfl

theorem State.Logs.setCellX {s x₀ : State} {es : List (Nat × Nat × List DItem)} (h₀ : s.Logs x₀ es) (k : Nat) (x : CellX) :
    s.Logs (x₀.setCellX k x) es := h₀.then rfl

theorem State.Logs.setDec {s x₀ : State} {es : List (Nat × Nat × List DItem)} (h₀ : s.Logs x₀ es) (k : Nat) (d : Option PwmDec) :
    s.Logs (x₀.setDec k d) es := h₀.then rfl

theorem State.Logs.setGpt {s x₀ : State} {es : List (Nat × Nat × List DItem)} (h₀ : s.Logs x₀ es) (p : Nat) (x : GridPt) :
    s.Logs (x₀.setGpt p x) es := h₀.then rfl

theorem State.Logs.setGclu {s x₀ : State} {es : List (Nat × Nat × List DItem)} (h₀ : s.Logs x₀ es) (c : Nat) (x : GridClu) :
    s.Logs (x₀.setGclu c x) es := h₀.then rfl

theorem State.Logs.setGcell {s x₀ : State} {es : List (Nat × Nat × List DItem)} (h₀ : s.Logs x₀ es) (k : Nat) (x : GridCell) :
    s.Logs (x₀.setGcell k x) es := h₀.then rfl

theorem State.Logs.setMcell {s x₀ : State} {es : List (Nat × Nat × List DItem)} (h₀ : s.Logs x₀ es) (k : Nat) (x : MpptCell) :
    s.Logs (x₀.setMcell k x) es := h₀.then rfl

theorem State.Logs.setMclu {s x₀ : State} {es : List (Nat × Nat × List DItem)} (h₀ : s.Logs x₀ es) (c : Nat) (x : MpptClu) :
    s.Logs (x₀.setMclu c x) es := h₀.then rfl

theorem State.Logs.setFclu {s x₀ : State} {es : List (Nat × Nat × List DItem)} (h₀ : s.Logs x₀ es) (c : Nat) (x : FrtClu) :
    s.Logs (x₀.setFclu c x) es := h₀.then rfl

theorem State.Logs.setIsl {s x₀ : State} {es : List (Nat × Nat × List DItem)} (h₀ : s.Logs x₀ es) (x : IslSt) :
    s.Logs (x₀.setIsl x) es := h₀.then rfl

theorem State.Logs.setLegX {s x₀ : State} {es : List (Nat × Nat × List DItem)} (h₀ : s.Logs x₀ es) (l : Nat) (x : LegX) :
    s.Logs (x₀.setLegX l x) es := h₀.then rfl

theorem State.Logs.setMpt {s x₀ : State} {es : List (Nat × Nat × List DItem)} (h₀ : s.Logs x₀ es) (m : Nat) (x : MtrPt) :
    s.Logs (x₀.setMpt m x) es := h₀.then rfl

theorem State.Logs.setSvSub {s x₀ : State} {es : List (Nat × Nat × List DItem)} (h₀ : s.Logs x₀ es) (j : Nat) (x : SvSub) :
    s.Logs (x₀.setSvSub j x) es := h₀.then rfl

theorem State.Logs.setGSub {s x₀ : State} {es : List (Nat × Nat × List DItem)} (h₀ : s.Logs x₀ es) (g : Nat) (x : GooseSub) :
    s.Logs (x₀.setGSub g x) es := h₀.then rfl

theorem State.Logs.setLane {s x₀ : State} {es : List (Nat × Nat × List DItem)} (h₀ : s.Logs x₀ es) (l : Nat) (x : LaneX) :
    s.Logs (x₀.setLane l x) es := h₀.then rfl

theorem State.Logs.setCdrive {s x₀ : State} {es : List (Nat × Nat × List DItem)} (h₀ : s.Logs x₀ es) (d : Nat) (x : CDrive) :
    s.Logs (x₀.setCdrive d x) es := h₀.then rfl

theorem State.Logs.setStrm {s x₀ : State} {es : List (Nat × Nat × List DItem)} (h₀ : s.Logs x₀ es) (m : Nat) (x : CStream) :
    s.Logs (x₀.setStrm m x) es := h₀.then rfl

theorem State.Logs.setCons {s x₀ : State} {es : List (Nat × Nat × List DItem)} (h₀ : s.Logs x₀ es) (c : Nat) (x : SafeCons) :
    s.Logs (x₀.setCons c x) es := h₀.then rfl

theorem State.Logs.setCmp {s x₀ : State} {es : List (Nat × Nat × List DItem)} (h₀ : s.Logs x₀ es) (c : Nat) (x : CmpX) :
    s.Logs (x₀.setCmp c x) es := h₀.then rfl

theorem State.Logs.setBsi {s x₀ : State} {es : List (Nat × Nat × List DItem)} (h₀ : s.Logs x₀ es) (b : Nat) (x : BsiX) :
    s.Logs (x₀.setBsi b x) es := h₀.then rfl

theorem State.Logs.setIadc {s x₀ : State} {es : List (Nat × Nat × List DItem)} (h₀ : s.Logs x₀ es) (f : IadcSt → IadcSt) :
    s.Logs (x₀.setIadc f) es := h₀.then rfl

theorem State.Logs.setCage {s x₀ : State} {es : List (Nat × Nat × List DItem)} (h₀ : s.Logs x₀ es) (c : Nat) (x : Cage) :
    s.Logs (x₀.setCage c x) es := h₀.then rfl

end Sys2Proof.Machine
end

