-- ==== Sys2Proof/Laws/Operands.lean ====
section
/-! SUPPORT. What a direct write of a register does, said once (R10, R14). -/

namespace Sys2Proof.Machine

/-- R153: no register but CE_SEC_FLAG keeps bits from a write. -/
theorem State.keeps_other (s : State) {r : Reg} (h : r.id ≠ (R.CE_SEC_FLAG 0).id) : s.keeps r = 0#32 := by
  rw [State.keeps, if_neg fun g => h g.1]

/-- R153: what a write cannot clear decides no judgement. -/
theorem mapRelation_keeps (r : Reg) (w a b : Word) (h : r.id ≠ (R.CE_SEC_FLAG 0).id → a = b) :
    mapRelation r (w ||| a) = mapRelation r (w ||| b) := by
  by_cases g : r.id = (R.CE_SEC_FLAG 0).id
  · simp [mapRelation, g]
  · rw [h g]

@[simp] theorem State.advance_allows (s : State) (t n : Nat) (r : Reg) (v m : Word) :
    (s.advance t).allows n r v m = s.allows n r v m := by
  simp only [State.allows, State.writeReg]
  cases rowOf r with
  | none => rfl
  | some x =>
    simp only [State.plainWrite]
    have e : (s.advance t).judge n x r v m = s.judge n x r v m := rfl
    have w : (s.advance t).word r = s.word r := rfl
    rw [e, w, mapRelation_keeps r _ (s.word r &&& (s.advance t).keeps r) (s.word r &&& s.keeps r) fun g => by
      rw [State.keeps_other _ g, State.keeps_other _ g]]
    split <;> rfl

theorem State.advance_written (s : State) (t : Nat) {r : Reg} (v m : Word) (h : r.id ≠ (R.CE_SEC_FLAG 0).id) :
    (s.advance t).written r v m = s.written r v m := by
  have w : (s.advance t).word r = s.word r := rfl
  simp only [State.written, State.keeps_other _ h, w]

/-- An accepted write. -/
theorem State.writeReg_allows {s : State} {n : Nat} {r : Reg} {v m : Word} (h : s.allows n r v m = true) :
    s.writeReg n r v m = (.ok, s.setWord r (s.written r v m)) := by
  have h1 : (s.writeReg n r v m).1 = .ok := by simpa [State.allows] using h
  revert h1
  simp only [State.writeReg, State.written]
  cases rowOf r with
  | none => intro h1; exact absurd h1 Status.noConfusion
  | some x =>
    simp only [State.plainWrite]
    split
    · intro _; rfl
    · rename_i h2; intro h1; exact absurd h1 h2

/-- A refused write. -/
theorem State.writeReg_refused {s : State} {n : Nat} {r : Reg} {v m : Word} (h : s.allows n r v m = false) :
    (s.writeReg n r v m).1 ≠ .ok ∧ (s.writeReg n r v m).2 = s := by
  have h1 : (s.writeReg n r v m).1 ≠ .ok := by simpa [State.allows] using h
  refine ⟨h1, ?_⟩
  revert h1
  simp only [State.writeReg]
  cases rowOf r with
  | none => intro _; rfl
  | some x =>
    simp only [State.plainWrite]
    split
    · intro h1; exact absurd rfl h1
    · intro _; rfl

theorem State.writeThen_allows {s : State} {n : Nat} {r : Reg} {v m : Word} (f : State → State)
    (h : s.allows n r v m = true) : s.writeThen n r v m f = (.ok, f (s.setWord r (s.written r v m))) := by
  rw [State.writeThen, State.writeReg_allows h]

theorem State.writeIf_allows {s : State} {n : Nat} {r : Reg} {v m : Word} (f : State → State)
    (h : s.allows n r v m = true) : s.writeIf n r v m .ok f = (.ok, f (s.setWord r (s.written r v m))) := by
  rw [State.writeIf, State.writeReg_allows h]
  exact State.writeThen_allows f h

/-- A write that the module's state refuses, judged OK under R14: the refusal is the answer. -/
theorem State.writeIf_refused {s : State} {n : Nat} {r : Reg} {v m : Word} (f : State → State) (st : Status)
    (h : s.allows n r v m = true) (hs : 0 < st.severity) : s.writeIf n r v m st f = (st, s) := by
  rw [State.writeIf, State.writeReg_allows h]
  cases st <;> first | exact absurd hs (by decide) | rfl

theorem State.access_on {s : State} {n d : Nat} (f : State → Status × State) (hm : s.isOn domMGMT = true)
    (hd : s.isOn d = true) : s.access n d f = (f s).2.answer n (f s).1 0 := by
  simp only [State.access, hm, hd, Bool.not_true, Bool.false_eq_true, if_false, answerW]

theorem State.access_off {s : State} {n d : Nat} (f : State → Status × State) (hm : s.isOn domMGMT = true)
    (hd : s.isOn d = false) : s.access n d f = s.answer n .domainOff 0 := by
  simp only [State.access, hm, hd, Bool.not_true, Bool.false_eq_true, if_false, Bool.not_false, if_true]

end Sys2Proof.Machine
end

