-- ==== Sys2Proof/Machine/Pins.lean ====
section
/-! DEFINITION. What the module's output contacts drive (R41, R375, R397, R412, R416, R437, R442, R482, R487): a view of
State; no contact holds state of its own. -/

namespace Sys2Proof.Machine

/-- R481, R482: an output contact. -/
inductive OutPin where
  | legPwm (l : Fin 24)
  | legEn (l : Fin 24)
  /-- R397: BSI_CLK0 for channels 0–5, BSI_CLK1 for channels 6–11. -/
  | bsiClk (g : Fin 2)
  | clkOut (k : Fin 4)
  | ringTxdis (r : Fin 8) (portB : Bool)
  | pbTxdis (p : Fin 4)
  | nvmePerst (d : Fin 4)
  | nvmeRefclk (d : Fin 4)
  | xspiDmxEn
  | safeOut (chB : Bool)
  deriving DecidableEq, Repr

/-- R482: a logic level. -/
def levelOf (b : Bool) : OutDrive := if b then .high else .low

/-- R416, R482: an output of a domain that is in RETENTION or OFF floats. -/
def State.whenOn (s : State) (d : Nat) (x : OutDrive) : OutDrive := if s.works d then x else .float

/-- R397: a channel of the group is enabled. -/
def State.bsiClkOn (s : State) (g : Nat) : Bool := (List.range 6).any fun j => s.flag (F.BSI_CFG_EN (6 * g + j))

/-- R397: the 20 MHz clock of a group, rising on the multiples of its period of elapsed root time; low while no channel
of the group is enabled. -/
def State.bsiClkDrive (s : State) (g : Nat) : OutDrive :=
  if s.bsiClkOn g then .runs (decide (2 * (s.now % bsiClk) < bsiClk)) else .low

/-- R487: the drive has lanes: with x4 the second drive of a root port has none. -/
def State.hasLanes (s : State) (d : Nat) : Bool :=
  d % 2 == 0 || s.get (if d = 1 then F.REC_CFG_BIF0 else F.REC_CFG_BIF1) == 0

/-- R482: what a contact drives; a safety output is energised only in ARMED (R375), its dark pulses apart. A transmitter is disabled (high) until its cage's transceiver is enabled and its port is
on. -/
def State.outPin (s : State) : OutPin → OutDrive
  | .legPwm l => s.whenOn domANA (levelOf (s.legPwm l))
  | .legEn l => s.whenOn domANA (levelOf (s.leg l).en)
  | .bsiClk g => s.whenOn domANA (s.bsiClkDrive g)
  | .clkOut k => s.outDrive k
  | .ringTxdis r portB => s.whenOn (domRING r)
      (levelOf !(s.flag (F.RING_CTRL_EN r) && s.cageOk (2 * r.val + b2n portB)))
  | .pbTxdis p => s.whenOn domPBUS (levelOf !s.cageOk (16 + p.val))
  | .nvmePerst d => s.whenOn domREC (levelOf (s.hasLanes d))
  | .nvmeRefclk d => s.whenOn domREC (if s.hasLanes d then .runs (decide (s.now % 80 < 40)) else .low)
  | .xspiDmxEn => s.whenOn domXSPI .high
  | .safeOut _ => levelOf (s.works domSAFE && s.island == iARMED)

end Sys2Proof.Machine
end

