-- ==== Sys2Proof/Tests/Slice0.lean ====
section
/-! SUPPORT. The model's own tests: the checks of `WellFormed`, results the spec states in its tables and examples, and
for every statement with hypotheses concrete states and operands that meet them. -/

namespace Sys2Proof.Tests

open Sys2Proof Sys2Proof.Machine

set_option Elab.async false

/-! ### A helper state -/

/-- A running module: every domain on, the log in service, session 1 open at Engineer. -/
def W0 : State :=
  { State.reset with
    now := 8000000000000
    regs := []
    log := { }, pwr := { }, start := { mgmtUp := true }
    mgmt := { sess := [(1, { active := true, level := 1, major := 2, minor := 3 })] } }

def W : State := (W0.setWord R.PWR_STATE_LO 0xAAAAAAAA#32).setWord R.PWR_STATE_HI 0x2AA#32

/-! ### Ill-formed commands are refused -/

def head_ : MHead := { i2c := false, bind := 1, session := 1, tag := 5, seq := 8 }
def eth_ : EthHead := { port := 0, fcsOk := true, rct := none, src := 1, dst := 1, alone := false, sup := false }
def ann_ : Announce :=
  { domain := 0, priority1 := 1, clockClass := 6, accuracy := 1, variance := 1, priority2 := 1, gmId := 1, steps := 0,
    traceable := true, utcOffset := 37, leap61 := false, leap59 := false }

/-- An address has 32 bits. -/
theorem test_wf_address : WellFormed (.registerWrite 0 1 (2 ^ 32) 0 0 noEnv) = false ∧
    WellFormed (.registerWrite 0 1 4 0 0 noEnv) = true := by decide +kernel

/-- SESSION is a byte, TAG 16 bits, SEQ 32 bits; a body fits its port. -/
theorem test_wf_frame : WellFormed (.mgmtClose 0 { head_ with session := 256 }) = false ∧
    WellFormed (.mgmtClose 0 { head_ with tag := 65536 }) = false ∧
    WellFormed (.mgmtClose 0 { head_ with seq := 2 ^ 32 }) = false ∧
    WellFormed (.mgmtRead 0 { head_ with i2c := true } (List.replicate 257 0)) = false ∧
    WellFormed (.mgmtRead 0 head_ [1, 2, 3, 4]) = true := by decide +kernel

/-- A data item has 4 or 8 bytes. -/
theorem test_wf_item : WellFormed (.logEntry 0 1 2 [.w (2 ^ 32 : Int)] 0) = false ∧
    WellFormed (.logEntry 0 1 2 [.d (2 ^ 64)] 0) = false ∧ WellFormed (.logEntry 0 1 2 [.w (5 : Int)] 0) = true := by
  decide +kernel

/-- MAC addresses have 48 bits, the trailer's sequence number 16, and a GOOSE frame's numbers 32. -/
theorem test_wf_goose :
    let f : GooseFrame := { (default : GooseFrame) with head := eth_ }
    WellFormed (.gooseFrameRx 0 f) = true ∧
    WellFormed (.gooseFrameRx 0 { f with head := { eth_ with dst := 2 ^ 48 } }) = false ∧
    WellFormed (.gooseFrameRx 0 { f with head := { eth_ with rct := some (true, 65536) } }) = false ∧
    WellFormed (.gooseFrameRx 0 { f with stNum := 2 ^ 32 }) = false := by decide +kernel

/-- A sampled-value frame: a 16-bit smpCnt, INT32 values. -/
theorem test_wf_sv :
    let f (a : SvAsdu) : SvFrame := { (default : SvFrame) with head := eth_, asdus := [a] }
    WellFormed (.svFrameRx 0 (f default)) = true ∧
    WellFormed (.svFrameRx 0 (f { (default : SvAsdu) with smpCnt := 65536 })) = false ∧
    WellFormed (.svFrameRx 0 (f { (default : SvAsdu) with chans := [(2 ^ 31, default)] })) = false := by decide +kernel

/-- The fields of an Announce message. -/
theorem test_wf_announce : WellFormed (.ptpAnnounce 0 0 ann_) = true ∧
    WellFormed (.ptpAnnounce 0 0 { ann_ with domain := 256 }) = false := by decide +kernel

/-- An image says how many sections it has. -/
theorem test_wf_image : WellFormed (.cfgImageReadDone 0 (some { (default : Image) with nsec := 1 })) = false ∧
    WellFormed (.cfgImageReadDone 0 none) = true := by decide +kernel

/-- EXPECT has 4 bits, a Pour's ID 16, a power table 21 entries. -/
theorem test_wf_operands : WellFormed (.cellDiagnose 0 1 5 16) = false ∧ WellFormed (.pourAbort 0 1 65536) = false ∧
    WellFormed (.thmUpdate 0 []) = false := by decide +kernel

/-! ### The spec's tables and examples -/

def digits : List Byte := [0x31, 0x32, 0x33, 0x34, 0x35, 0x36, 0x37, 0x38, 0x39]

/-- The check values over "123456789" (R64; chapter 14's CRC-32C). -/
theorem test_crc_check_values : crc16 digits = 0x29B1 ∧ crc8 digits = 0xDF ∧ crc32c digits = 0xE3069283 := by
  decide +kernel

/-- The words of a calendar write. -/
def calOf (y m d hh mm ss : Nat) (s : State) : Option Nat :=
  s.calParse (BitVec.ofNat 32 ((y - 2000) * 512 + m * 32 + d)) (BitVec.ofNat 32 (hh * 4096 + mm * 64 + ss))

/-- R58's table, in a state in which no leap second is announced. -/
theorem test_calendar_table : (calOf 2024 2 29 12 0 0 W).isSome = true ∧ calOf 2100 2 29 0 0 0 W = none ∧
    (calOf 2000 2 29 0 0 0 W).isSome = true ∧ calOf 2031 4 31 8 0 0 W = none ∧ calOf 2031 7 1 23 59 60 W = none ∧
    calOf 2031 6 30 24 0 0 W = none ∧ (calOf 2199 12 31 23 59 59 W).isSome = true ∧ calOf 2200 1 1 0 0 0 W = none ∧
    calOf 2031 13 1 0 0 0 W = none ∧ calOf 2031 1 0 0 0 0 W = none := by decide +kernel

/-- Chapter 4's example: 35 cells leave a margin of 3; without a 960 V cell it is 2, and without a 1,040 V cell also 2.
VDC counts in 50 mV. -/
theorem test_margin_example :
    let v (a b c : Nat) : List Nat := List.replicate a 20800 ++ List.replicate b 20000 ++ List.replicate c 19200
    marginOf (v 10 15 10) 973 3000 = 3 ∧ marginOf (v 10 15 9) 973 3000 = 2 ∧ marginOf (v 9 15 10) 973 3000 = 2 := by
  decide +kernel

/-- Chapter 1's examples: ring 0 with 128 cells and 600 m, and with 36 cells and 100 m, at 20 µs: the terms of R25 in
1/64 ns, then freeze, launch and W(D) in core clocks. The fibre is put on link 0. -/
theorem test_loop_examples :
    let r (n fibre : Nat) : State :=
      ((W.put F.RING_CTL_PERIOD_PERIOD 5000).put (F.RING_STATUS_NCELLS 0) n).put (F.RING_HOP_DLY_DELAY 0 0) (fibre * 64)
    let a := (r 128 2940).ringTimes 0
    let b := (r 36 490).ringTimes 0
    a.tProp 0 = 6980 * 64 ∧ a.tTel 0 = 17392 * 64 ∧ (a.timing [0] 2).launch * 4 = 30748 ∧ (a.timing [0] 2).window = 2817 ∧
    (a.timing [0] 1).window < 0 ∧ b.tProp 0 = 1770 * 64 ∧ (b.timing [0] 1).freeze * 4 = 4544 ∧
    (b.timing [0] 1).launch * 4 = 17172 ∧ (b.timing [0] 1).window = 2635 := by decide +kernel

/-- Chapter 6's example: a VDC of 1,000.00 V is imported as 0x4000. -/
theorem test_import_example : importVal 20000 0x68DC 0 = 0x4000 := by decide +kernel

/-- Chapter 17's example: the queue entry of 1.2345 V on `IADC_IN3` in round 0x0123, and the reads that pop it. -/
theorem test_iadc_example :
    let c : Conv := { entry := some 0, ch := 3, gain := 2, ends := 8000000000000, nom := false }
    let s := W.setAna fun x => { x with iadc := { x.iadc with conv := some c, round := 0x0123 } }
    let s1 := s.convQueue c 0 4142295 false
    (s1.ana.iadc.queue.map fun e => (e.2.1, e.2.2)) = [(0x083F34D7#32, 0x01230030#32)] ∧
    (s1.qLo 1 false).1 = 0x083F34D7#32 ∧ ((s1.qLo 1 false).2.qHi 1 false).1 = 0x01230030#32 ∧
    ((s1.qLo 1 false).2.qHi 1 false).2.ana.iadc.queue = [] := by decide +kernel

/-- Reset values the register tables state. -/
theorem test_reset_values : State.reset.word R.DEV_ID = 0x0DD10240#32 ∧
    State.reset.get F.PWR_WAKE_SET_SET = 0x1FFFBE ∧
    State.reset.get F.CREMA_STICKY_CELL_CUTOFF = 1 ∧ State.reset.get F.VOTE_MERGE_PORT_A_OK = 0xFF ∧
    State.reset.get F.POUR_CFG_STAGE_MAX = 20 := by decide +kernel

/-- An unmapped and an unaligned address are answered BAD_ADDR (R10). -/
theorem test_bad_addr : ((match exec (.registerWrite W.now 1 0x0010FFC0 1 1 noEnv) W with
      | .next s => (s.sess 1).status
      | _ => .ok) = .badAddr) ∧
    ((match exec (.registerWrite W.now 1 0x00000002 1 1 noEnv) W with
      | .next s => (s.sess 1).status
      | _ => .ok) = .badAddr) := by decide +kernel

/-! ### The queue -/

/-- An empty queue idles. -/
theorem test_idle : step State.reset = .next State.reset := rfl

/-- The command in front is run on the rest of the queue; time moves to its instant. -/
theorem test_front : (match step { State.reset with pending := [.cycleStart 7, .cycleStart 9] } with
      | .next s => s.pending == [.cycleStart 9]
      | _ => false) = true := by decide +kernel

/-! ### Witnesses -/

theorem all_some {α : Type} {o : Option α} {P : α → Prop} (h : ∀ u ∈ o, P u) : ∀ u, o = some u → P u :=
  fun u e => h u (by rw [e]; rfl)

theorem not_all_some {α : Type} {o : Option α} {P : α → Prop} (h : ∃ u ∈ o, ¬P u) : ¬∀ u, o = some u → P u :=
  fun f => h.elim fun u x => x.2 (f u x.1)

theorem ex_some {α : Type} {o : Option α} {P : α → Prop} (h : ∃ u ∈ o, P u) : ∃ u, o = some u ∧ P u := h

theorem responseOk_of {s : State} {n : Nat} {x : Nonce} {d : List Byte} (k : List Byte)
    (h : (decide (s.now ≤ x.at_ + 60 * uS) && s.modeMay x.level x.mode x.slot) = true) (hm : x.mode ≠ 0)
    (hk : s.start.keys.get (2 + x.slot) = some k)
    (hd : leBytes 32 (Config.hmacSha256 k (x.bytes ++ leBytes 8 (s.get64 R.DEV_SERIAL_LO R.DEV_SERIAL_HI) ++
      leBytes 1 x.level ++ leBytes 1 n)).toNat = d) : s.responseOk n x d = true := by
  unfold State.responseOk
  rw [h, if_neg hm, hk, Bool.true_and]
  exact beq_iff_eq.mpr hd

/-- The state a command answers. -/
def outSt : Host.Outcome State Fault Refusal → State
  | .next s => s
  | _ => State.reset

theorem next_of {o : Host.Outcome State Fault Refusal} (h : (match o with
    | .next _ => true
    | _ => false) = true) : o = .next (outSt o) := by
  cases o <;> first | rfl | cases h

/-- A master of which no Announce has come, a time-out after the start (R50). -/
theorem masterGone_of {s : State} {lan t : Nat} (h : s.clk.announceAt.get lan = 0) (ht : Config.announceTimeout ≤ t) :
    (s.advance t).masterGone lan = true := by
  have h1 : (s.advance t).clk.announceAt.get lan + Config.announceTimeout ≤ (s.advance t).now := by
    show s.clk.announceAt.get lan + Config.announceTimeout ≤ max s.now t
    omega
  unfold State.masterGone
  rw [decide_eq_true h1, Bool.true_or]

theorem witness_StepRunsFrontCommand : ({ W with pending := [Instr.cycleStart 7] } : State).pending = [Instr.cycleStart 7] :=
  rfl

theorem witness_StepRunsFrontCommand_2 : W.pending = [] := rfl

theorem witness_StepKeepsRegisterForm : W.RegsWf := by
  unfold State.RegsWf
  decide +kernel

end Sys2Proof.Tests

namespace Sys2Proof.Tests.W01

open Sys2Proof Sys2Proof.Machine

set_option Elab.async false

def wSnap : State := W.setSess 1 { W.sess 1 with snaps := [(R.TIME_NOW_HI, 5#32), (R.TIME_NOW_FRAC, 6#32)] }
def wHeld : State := W.setSess 1 { W.sess 1 with held := [(R.PB_MAC_LO 1, 5#32)] }
def wMac (s : State) : State := { s with regs := s.regs ++ [(R.PB_MAC_LO 1, 1#32), (R.PB_MAC_HI 0, 3#32), (R.PB_MAC_HI 1, 2#32)] }
def a1 : Nat := 9000000000000
def a2 : Nat := addrOf R.CLK_SSC
def a3 : State := W.put (F.PWR_STATE 1) 0
def a4 : RegRow := (rowOf R.CLK_SSC).get!
def a5 : FieldRow := (rowOf R.CLK_SSC).get!.fields.head!
def a6 : Nat := 9000000000003
def a7 : State := wMac (wHeld.setSess 1 {wHeld.sess 1 with level := 0})

theorem witness_AddressedWriteJudged :
    ((W.isOn domMGMT = true) ∧ (decodeAddr 1114048 = none)) ∧
    ((W.isOn domMGMT = true) ∧ (decodeAddr 318767108 = none)) ∧
    ((a3.isOn domMGMT = true) ∧ (decodeAddr a2 = some (a4, R.CLK_SSC)) ∧ (a3.isOn (domOfReg a4 R.CLK_SSC) = false)) ∧
    ((W.isOn domMGMT = true) ∧ (decodeAddr a2 = some (a4, R.CLK_SSC)) ∧ (W.isOn (domOfReg a4 R.CLK_SSC) = true) ∧
      ((W.advance a1).actVote 1 R.CLK_SSC 128 511 noEnv = none) ∧
      ((W.advance a1).actSide 1 R.CLK_SSC 128 511 noEnv = none) ∧ (isLo R.CLK_SSC = false) ∧
      (isHi R.CLK_SSC = false) ∧ (W.allows 1 R.CLK_SSC 128 511 = true)) ∧
    ((W.isOn domMGMT = true) ∧ (decodeAddr a2 = some (a4, R.CLK_SSC)) ∧ (W.isOn (domOfReg a4 R.CLK_SSC) = true) ∧
      ((W.advance a1).actVote 2 R.CLK_SSC 128 511 noEnv = none) ∧
      ((W.advance a1).actSide 2 R.CLK_SSC 128 511 noEnv = none) ∧ (isLo R.CLK_SSC = false) ∧
      (isHi R.CLK_SSC = false) ∧ (W.allows 2 R.CLK_SSC 128 511 = false)) := by
  decide +kernel

theorem witness_AccessCodes :
    ((a4 ∈ regRows) ∧ (a5 ∈ a4.fields) ∧ (a4.id ≠ R.PWR_WAKE_SET.id) ∧
      (a5.acc = Acc.rw ∨ a5.acc = Acc.wo ∨ a5.acc = Acc.rwl ∨ a5.acc = Acc.rwp)) := by
  decide +kernel

theorem witness_TimeNowSnapshots :
    ((W.isOn domMGMT = true) ∧ (W.isOn domCLK = true)) ∧
    ((wSnap.isOn domMGMT = true) ∧ (wSnap.isOn domCLK = true) ∧ (findReg (wSnap.sess 1).snaps R.TIME_NOW_HI = some 5)) ∧
    ((wSnap.isOn domMGMT = true) ∧ (wSnap.isOn domCLK = true) ∧
      (findReg (wSnap.sess 1).snaps R.TIME_NOW_FRAC = some 6)) ∧
    ((W.isOn domMGMT = true) ∧ (W.isOn domCLK = true) ∧ (findReg (W.sess 1).snaps R.TIME_NOW_HI = none)) ∧
    ((W.isOn domMGMT = true) ∧ (W.isOn domCLK = true) ∧ (findReg (W.sess 1).snaps R.TIME_NOW_FRAC = none)) := by
  decide +kernel

theorem witness_HeldPairWrites :
    (((wMac W).isOn domMGMT = true) ∧ ((wMac W).isOn domPBUS = true) ∧
      ((wMac W).allows 1 (R.PB_MAC_LO 1) 7 255 = true)) ∧
    (((wMac W).isOn domMGMT = true) ∧ ((wMac W).isOn domPBUS = true) ∧
      ((wMac W).allows 2 (R.PB_MAC_LO 1) 7 255 = false)) ∧
    (((wMac wHeld).isOn domMGMT = true) ∧ ((wMac wHeld).isOn domPBUS = true) ∧
      (findReg ((wMac wHeld).sess 1).held (R.PB_MAC_LO 1) = some 5) ∧
      ((wMac wHeld).allows 1 (R.PB_MAC_LO 1) 5 (BitVec.allOnes 32) = true) ∧
      ((wMac wHeld).allows 1 (R.PB_MAC_HI 1) 7 255 = true)) ∧
    ((a7.isOn domMGMT = true) ∧ (a7.isOn domPBUS = true) ∧ (findReg (a7.sess 1).held (R.PB_MAC_LO 1) = some 5) ∧
      (a7.allows 1 (R.PB_MAC_LO 1) 5 (BitVec.allOnes 32) = false ∨ a7.allows 1 (R.PB_MAC_HI 1) 7 255 = false)) ∧
    (((wMac wHeld).isOn domMGMT = true) ∧ ((wMac wHeld).isOn domPBUS = true) ∧
      (findReg ((wMac wHeld).sess 1).held (R.PB_MAC_LO 0) = none) ∧
      ((wMac wHeld).allows 1 (R.PB_MAC_HI 0) 7 255 = true)) := by
  decide +kernel

end Sys2Proof.Tests.W01

namespace Sys2Proof.Tests.W02

open Sys2Proof Sys2Proof.Machine

set_option Elab.async false

def wAnn : Announce :=
  { domain := 0, priority1 := 1, clockClass := 6, accuracy := 0, variance := 0, priority2 := 0, gmId := 77, steps := 0,
    traceable := true, utcOffset := 37, leap61 := false, leap59 := false }
def wPtp : State := (((W.put (F.PB_PORT_STAT_LINK 0) 1).put (F.PB_PORT_STAT_LINK 1) 1).put F.PTP_PORT_STAT_ACTIVE_LAN 1).setBus
  fun x => { x with master := [(1, some wAnn)] }
def wLocking : State := (wPtp.put F.TIME_STATUS_STATE 1).setClk fun x => { x with inBand := 15 }
def wOther : State := ((W.setWord R.PTP_GM_ID_LO 77#32).put F.TIME_STATUS_STATE 2).setBus fun x => { x with master := [(1, some wAnn)] }
def a1 : Nat := 9000000000000
def a2 : State := (W.put F.CLK_STATUS_REF_ACTIVE 2)
def a3 : State := ((W.put F.CLK_CTRL_REF_SEL 2).put F.CLK_CTRL_REF_REVERT 1)
def a4 : Nat := 80000000000
def a5 : State := W.put F.CLK_STATUS_LOCK_S 1
def a6 : State := W.setClk fun x => { x with retryAt := some 8000000000000 }
def a7 : Nat := 8000000000000
def a8 : State := W.setWord (R.CLK_OUT_CFG 3) 0x80014#32
def a9 : State := W.put (F.PWR_STATE 1) 0
def a10 : State := W.put F.TIME_STATUS_STATE 2
def a11 : State := W.put F.TIME_STATUS_STATE 1
def a12 : Nat := 864000000000000000
def a13 : State := (W.setClk fun x => { x with rtcLeap61 := true })
def a14 : Nat := 864000000000000000 - 8000000000
def a15 : State := (W.setClk fun x => { x with rtcLeap59 := true })
def a16 : State := ((W.put (F.PWR_STATE 1) 0).setClk fun x => { x with rtcLeap61 := true })
def a17 : Nat := 9000000000001
def a18 : State := (W.put F.TIME_STATUS_STATE 3).put F.TIME_PTP_CFG_PPS_EN 1
def a19 : State := W.put F.TIME_PTP_CFG_PPS_EN 1
def a20 : State := ((W.put F.TIME_STATUS_STATE 3).put F.TIME_STATUS_TRACEABLE 1).put F.TIME_PTP_CFG_HOLD_S 5
def a21 : State := (W.put F.RTC_STATUS_CAL_VALID 1)
def a22 : State := ((W.put F.CLK_STATUS_LOCK_P 1).put F.CLK_STATUS_LOCK_S 1).setClk (fun x => { x with sleepFrom := some 1000000 })
def a23 : State := wPtp.put F.TIME_STATUS_STATE 2
def a24 : Nat := 9000000000900
def a25 : Nat := 9000000008001
def a26 : Nat := 9000000000001 + Config.announceTimeout

theorem witness_ReferenceLossAndMdll :
    ((a2.works domCLK = true) ∧ (1000 ≤ 1000 ∨ 50000 < Int.natAbs 0) ∧ (a2.get F.CLK_STATUS_REF_ACTIVE ≠ 0)) ∧
    ((a3.works domCLK = true) ∧ (10 * uS ≤ a4) ∧ (a3.get F.CLK_CTRL_REF_REVERT = 1) ∧
      (a3.get F.CLK_STATUS_REF_ACTIVE = 0) ∧ (a3.get F.CLK_CTRL_REF_SEL ≠ 0)) ∧
    ((a5.works domCLK = true) ∧ (a5.flag (a5.lockBit false) = true)) ∧
    ((W.works domCLK = true)) ∧
    ((a6.works domCLK = true) ∧ (a6.clk.retryAt = some a7) ∧ (a7 + 10 * uS ≤ a1)) ∧
    ((W.works domCLK = true) ∧ (4096 ≤ 4096) ∧ (2 ≤ W.domState domCLK)) := by
  decide +kernel

theorem witness_ReferenceAndOutputWrites :
    ((W.isOn domMGMT = true) ∧ (W.isOn domCLK = true) ∧ (W.allows 1 R.CLK_CTRL 0 0 = true) ∧
      (fieldOf (W.written R.CLK_CTRL 0 0) F.CLK_CTRL_REF_SEL.lo F.CLK_CTRL_REF_SEL.wd = W.get F.CLK_CTRL_REF_SEL)) ∧
    ((W.isOn domMGMT = true) ∧ (W.isOn domCLK = true) ∧ (W.allows 1 R.CLK_CTRL 2 7 = true) ∧
      (fieldOf (W.written R.CLK_CTRL 2 7) F.CLK_CTRL_REF_SEL.lo F.CLK_CTRL_REF_SEL.wd ≠ W.get F.CLK_CTRL_REF_SEL)) ∧
    ((W.isOn domMGMT = true) ∧ (W.isOn domCLK = true) ∧ (W.allows 1 (R.CLK_OUT_CFG 3) 524308 1048575 = true) ∧
      (W.get (F.CLK_OUT_CFG_EN 3) = 0 ∨ fieldOf (masked (W.word (R.CLK_OUT_CFG 3)) 524308 1048575) 19 1 = 0 ∨ fieldOf
        (masked (W.word (R.CLK_OUT_CFG 3)) 524308 1048575) 0 18 = fieldOf (W.word (R.CLK_OUT_CFG 3)) 0 18)) ∧
    ((a8.isOn domMGMT = true) ∧ (a8.isOn domCLK = true) ∧ (a8.allows 1 (R.CLK_OUT_CFG 3) 0 524288 = true) ∧
      (a8.get (F.CLK_OUT_CFG_EN 3) = 0 ∨ fieldOf (masked (a8.word (R.CLK_OUT_CFG 3)) 0 524288) 19 1 = 0 ∨ fieldOf
        (masked (a8.word (R.CLK_OUT_CFG 3)) 0 524288) 0 18 = fieldOf (a8.word (R.CLK_OUT_CFG 3)) 0 18)) ∧
    ((a8.isOn domMGMT = true) ∧ (a8.isOn domCLK = true) ∧ (a8.allows 1 (R.CLK_OUT_CFG 3) 21 31 = true) ∧
      (a8.get (F.CLK_OUT_CFG_EN 3) = 1) ∧ (fieldOf (masked (a8.word (R.CLK_OUT_CFG 3)) 21 31) 19 1 = 1) ∧
      (¬fieldOf (masked (a8.word (R.CLK_OUT_CFG 3)) 21 31) 0 18 = fieldOf (a8.word (R.CLK_OUT_CFG 3)) 0 18)) ∧
    ((a9.isOn domMGMT = true) ∧ (a9.isOn domCLK = false)) := by
  decide +kernel

theorem witness_CalendarAndUtcWrites :
    ((W.isOn domMGMT = true) ∧ (W.isOn domCLK = true) ∧ (W.allows 1 R.TIME_UTC 37 65535 = true) ∧
      (W.get F.TIME_STATUS_STATE = 0)) ∧
    ((a10.isOn domMGMT = true) ∧ (a10.isOn domCLK = true) ∧ (a10.allows 1 R.TIME_UTC 37 65535 = true) ∧
      (a10.get F.TIME_STATUS_STATE ≠ 0)) ∧
    ((W.isOn domMGMT = true)) ∧
    ((W.isOn domMGMT = true) ∧ (W.isOn domCREMA = true) ∧ (W.allows 1 R.RTC_CAL_DATE 12833 131071 = true)) ∧
    ((W.isOn domMGMT = true) ∧ (W.isOn domCREMA = true) ∧ (W.allows 1 R.RTC_CAL_TIME 98043 131071 = true) ∧
      (W.get F.TIME_STATUS_STATE = 0) ∧ (W.anyActive = false) ∧
      ((W.advance a1).calParse ((W.sess 1).date.getD (W.advance a1).calDateWord) (masked (W.advance a1).calTimeWord
        98043 131071) = some 946771199)) ∧
    ((W.isOn domMGMT = true) ∧ (W.isOn domCREMA = true) ∧ (W.allows 1 R.RTC_CAL_TIME 98304 131071 = true) ∧
      (W.get F.TIME_STATUS_STATE = 0) ∧ (W.anyActive = false) ∧
      ((W.advance a1).calParse ((W.sess 1).date.getD (W.advance a1).calDateWord) (masked (W.advance a1).calTimeWord
        98304 131071) = none)) := by
  decide +kernel

theorem witness_CalendarAndUtcWrites_2 :
    ((a11.isOn domMGMT = true) ∧ (a11.isOn domCREMA = true) ∧ (a11.allows 1 R.RTC_CAL_TIME 0 131071 = true) ∧
      (a11.get F.TIME_STATUS_STATE ≠ 0 ∨ a11.anyActive = true)) := by
  decide +kernel

theorem witness_CalendarRefusesImpossibleDates :
    ((2199 < 2000 + fieldOf 0 9 8 ∨ fieldOf 0 5 4 = 0 ∨ 12 < fieldOf 0 5 4 ∨ fieldOf 0 0 5 = 0 ∨ monthDays (2000 +
        fieldOf 0 9 8) (fieldOf 0 5 4) < fieldOf 0 0 5 ∨ 23 < fieldOf 0 12 5 ∨ 59 < fieldOf 0 6 6 ∨ 60 < fieldOf 0 0
        6)) ∧
    ((fieldOf 60 0 6 = 60) ∧ (W.clk.rtcLeap61 = false)) ∧
    ((fieldOf 60 0 6 = 60) ∧ (fieldOf 60 12 5 ≠ 23 ∨ fieldOf 60 6 6 ≠ 59)) ∧
    ((2000 + fieldOf 102303 9 8 ≤ 2199) ∧ (1 ≤ fieldOf 102303 0 5) ∧
      (fieldOf 102303 0 5 ≤ monthDays (2000 + fieldOf 102303 9 8) (fieldOf 102303 5 4)) ∧ (fieldOf 98043 12 5 ≤ 23) ∧
      (fieldOf 98043 6 6 ≤ 59) ∧ (fieldOf 98043 0 6 ≤ 59) ∧ (W.clk.rtcLeap59 = false)) := by
  decide +kernel

theorem witness_RtcAndLeap :
    ((a13.clk.rtcLeap61 = true) ∧
      ((if a13.works domCLK = true then (a13.advance a12).utcSec else (a13.advance a12).rtcUtcSec) % 86400 = 0)) ∧
    ((a15.clk.rtcLeap61 = false) ∧ (a15.clk.rtcLeap59 = true) ∧
      ((if a15.works domCLK = true then (a15.advance a14).utcSec else (a15.advance a14).rtcUtcSec) % 86400 = 86399)) ∧
    ((a16.clk.rtcLeap61 = true) ∧
      ((if a16.works domCLK = true then (a16.advance a12).utcSec else (a16.advance a12).rtcUtcSec) % 86400 = 0)) ∧
    ((W.works domCLK = true)) ∧
    ((a18.works domCLK = true) ∧ (a18.get F.TIME_STATUS_STATE = 3) ∧ (a18.get F.TIME_PTP_CFG_PPS_EN = 1)) ∧
    ((a19.works domCLK = true) ∧ (a19.get F.TIME_STATUS_STATE ≠ 3 ∨ a19.get F.TIME_PTP_CFG_PPS_EN = 0)) := by
  decide +kernel

theorem witness_RtcAndLeap_2 :
    ((a20.works domCLK = true) ∧ (a20.get F.TIME_STATUS_STATE = 3) ∧ (a20.get F.TIME_STATUS_TRACEABLE = 1) ∧
      (a20.clk.holdAt + a20.get F.TIME_PTP_CFG_HOLD_S * uS ≤ max a20.now a17)) ∧
    (((a21.advance a17).calInRange = false) ∧ (a21.get F.RTC_STATUS_CAL_VALID = 1)) ∧
    ((a22.clk.sleepFrom = some 1000000) ∧ (a22.get F.CLK_STATUS_LOCK_P = 1) ∧ (a22.get F.CLK_STATUS_LOCK_S = 1) ∧
      (5 ≠ (a22.advance a17).rtcUnits * 32768 / uS)) ∧
    ((a22.clk.sleepFrom = some 1000000) ∧ (a22.get F.CLK_STATUS_LOCK_P = 1) ∧ (a22.get F.CLK_STATUS_LOCK_S = 1)) := by
  decide +kernel

theorem witness_PtpServo :
    ((wPtp.works domCLK = true) ∧ ((wPtp.advance a17).ptpPort 0 = true) ∧
      (wAnn.domain = wPtp.get F.TIME_PTP_CFG_DOMAIN) ∧ (wPtp.bus.master.get (0 % 2) = none) ∧
      (wPtp.get F.TIME_STATUS_STATE = 0)) ∧
    ((a23.works domCLK = true) ∧ ((a23.advance a17).ptpPort 1 = true) ∧ ((a23.bus.master.get (1 % 2)).isSome = true) ∧
      (a23.get F.PTP_PORT_STAT_ACTIVE_LAN = 1 % 2) ∧
      (((↑a24 : Int) + (↑(a23.get (if 1 % 2 = 0 then F.PTP_PDELAY_A_NS else F.PTP_PDELAY_B_NS)) : Int) * 8 -
        (↑(a23.advance a17).mtUnits : Int)).natAbs ≤ 8000) ∧ (a23.get F.TIME_STATUS_STATE = 2)) ∧
    ((wLocking.works domCLK = true) ∧ ((wLocking.advance a17).ptpPort 1 = true) ∧
      ((wLocking.bus.master.get (1 % 2)).isSome = true) ∧ (wLocking.get F.PTP_PORT_STAT_ACTIVE_LAN = 1 % 2) ∧
      (((↑a25 : Int) + (↑(wLocking.get (if 1 % 2 = 0 then F.PTP_PDELAY_A_NS else F.PTP_PDELAY_B_NS)) : Int) * 8 -
        (↑(wLocking.advance a17).mtUnits : Int)).natAbs ≤ 8000) ∧ (wLocking.get F.TIME_STATUS_STATE = 1) ∧
      (15 ≤ wLocking.clk.inBand)) ∧
    ((wPtp.works domCLK = true) ∧ ((wPtp.advance a17).ptpPort 1 = true)) ∧
    ((a23.works domCLK = true) ∧ (a23.get F.PTP_PORT_STAT_ACTIVE_LAN = 1) ∧ ((a23.bus.master.get 1).isSome = true) ∧
      ((a23.advance a26).masterGone 1 = true) ∧ (a23.bus.master.get (1 - 1) = none) ∧
      (a23.get F.TIME_STATUS_STATE = 2)) ∧
    ((wLocking.works domCLK = true) ∧ (wLocking.get F.PTP_PORT_STAT_ACTIVE_LAN = 1) ∧
      ((wLocking.bus.master.get 1).isSome = true) ∧ ((wLocking.advance a26).masterGone 1 = true) ∧
      (wLocking.bus.master.get (1 - 1) = none) ∧ (wLocking.get F.TIME_STATUS_STATE = 1) ∧ (wLocking.clk.lockFrom ≠ 3)) := by
  and_intros
  all_goals first
    | decide +kernel
    | exact all_some (by decide +kernel)
    | exact not_all_some (by decide +kernel)
    | exact ex_some (by decide +kernel)
    | exact next_of (by decide +kernel)
    | exact masterGone_of (by decide +kernel) (Nat.le_add_left _ _)
    | exact responseOk_of [7] (by decide +kernel) (by decide) (by decide +kernel) rfl
    | (intro j k; exact nofun)

theorem witness_PtpServo_2 :
    ((wOther.works domCLK = true) ∧ (wOther.works domPBUS = true) ∧ (wOther.otherOffers = true) ∧
      (wOther.get F.TIME_STATUS_STATE = 1 ∨ wOther.get F.TIME_STATUS_STATE = 2) ∧
      (wOther.bus.master.get (wOther.get F.PTP_PORT_STAT_ACTIVE_LAN) = none ∨ (wOther.advance a17).masterGone
        (wOther.get F.PTP_PORT_STAT_ACTIVE_LAN) = true ∨ (wOther.advance a17).ptpPort (wOther.get F.PB_CFG_PTP_PAIR *
        2 + wOther.get F.PTP_PORT_STAT_ACTIVE_LAN) = false)) := by
  decide +kernel

end Sys2Proof.Tests.W02

namespace Sys2Proof.Tests.W03

open Sys2Proof Sys2Proof.Machine

set_option Elab.async false

def wRingUp : State := ((((W.put (F.RING_CTRL_EN 2) 1).put (F.RING_STATUS_STATE 2) 3).put (F.RING_STATUS_NCELLS 2) 2).put (F.RING_STATUS_VER 2) 2).put (F.CELL_STATE_STATE 257) 2
def wRing3 : State := (((wRingUp.put (F.RING_HOP_STAT_UP 2 0) 1).put (F.RING_HOP_STAT_UP 2 1) 1).put (F.RING_HOP_STAT_UP 2 2) 1).put (F.RING_STATUS_LINK_A 2) 1
def wTr : State := (W.put (F.RING_CTRL_EN 2) 1).put (F.RING_STATUS_STATE 2) 1
def wCage (s : State) : State := s.setPins fun p => { p with cage := p.cage.set 5 { enabledAt := some 5 } }
def hdr (dir : Nat) (recs : List Byte) : List Byte :=
  let n := (32 + recs.length + 7) / 8
  let b := [0x78#8, 4#8, BitVec.ofNat 8 (1 + 16 * dir), 2#8, 128#8, 0#8, BitVec.ofNat 8 n, BitVec.ofNat 8 (n / 256)] ++ List.replicate 22 0#8
  b ++ leBytes 2 (crc16 (bytesAt b 1 1 ++ bytesAt b 3 27)) ++ recs
def rc (id vers lv : Nat) : List Byte := let x := leBytes 8 id ++ [2#8, BitVec.ofNat 8 vers, BitVec.ofNat 8 lv, 1#8, 0#8, 0#8]; x ++ leBytes 2 (crc16 x)
def wDis : State := (((W.put (F.RING_CTRL_EN 2) 1).put (F.RING_STATUS_STATE 2) 2).put (F.RING_STATUS_LINK_A 2) 1).put (F.RING_STATUS_LINK_B 2) 1
def wMap : State := ((wDis.put (F.CELL_CFG_IN_MAP 256) 1).put (F.CELL_CFG_IN_MAP 257) 1).setRing 2 { discA := some (false, [⟨8,2,3,2⟩, ⟨7,2,1,2⟩])}
def wBrk : State := (((wRing3.put (F.RING_HOP_STAT_UP 2 1) 0).put (F.RING_STATUS_STATE 2) 4).put (F.RING_CTRL_HEAL_EN 2) 1).setRing 2 { exchN := [(1, 64)] }
def slot (k : Nat) : List Byte := let x := List.replicate 14 5#8 ++ leBytes 2 0x8001 ++ leBytes 2 k ++ List.replicate 12 0#8; x ++ leBytes 2 (crc16 x)
def tlmf : List Byte :=
  let b := [0x78#8, 1#8, 2#8, 2#8, 2#8, 0#8, 16#8, 0#8] ++ List.replicate 8 0#8 ++ leBytes 4 50000000 ++ List.replicate 4 0#8
  let h := b ++ leBytes 2 (crc16 (bytesAt b 1 1 ++ bytesAt b 3 21)) ++ List.replicate 6 0#8
  let m := leBytes 2 0 ++ [9#8, 2#8] ++ leBytes 26 0x1234
  h ++ m ++ leBytes 2 (crc16 m) ++ slot 50000000 ++ slot 77
def wCyc : State := (wRing3.setLink fun x => { x with cycle := 50000000, begun := true }).put F.RING_FREEZE_FREEZE 3000
def qq1 : MbxReq := { owner := 1, dst := 0, op := 2, data := [], purpose := .param }
def q2 : MbxReq := { owner := 1, dst := 0, op := 1, data := [], purpose := .dispRead }
def o1 : MbxOut := { req := qq1, seq := 9, due := 8000000000500, left := 0, sent := true }
def wMb (a : MbxRep) (o : Option MbxOut) (l : List MbxReq) (g : List Nat) : State := (wCyc.setLink fun x => { x with frozen := true, frozenAt := some 8000000010000 }).setRing 2 { rep := some a, out := o, queue := l, gone := g }
def o2 : MbxOut := { o1 with req := { qq1 with data := [0#8, 2#8, 0x34#8, 0x12#8] } }
def wFr : State := ((wCyc.put (F.PWR_STATE 19) 0).put (F.PWR_STATE 17) 0).setRing 2 { copies := [(1, [⟨50000000, 5, false, slot 50000000⟩])] }
def wLa : State := ((((wCyc.put F.LANE_STATUS_MODE 1).put F.RING_LAUNCH_LAUNCH 4000).put F.VOTE_STATUS_VA_OK 1).setWord R.VOTE_MERGE 0xFF#32).setLink fun x => { x with passes := [⟨50000000, 8000000000000, 8000000100000⟩] }
def a1 : Nat := 9000000000000
def a2 : State := W.put (F.RING_CTRL_EN 2) 1
def a3 : State := wRingUp.setLink fun x => { x with frozen := true, frozenAt := some 9000000000000 }
def a4 : State := wRingUp.put (F.CELL_STATE_STATE 257) 5
def a5 : State := W.put (F.PWR_STATE 11) 0
def a6 : Nat := 8000080000000
def a7 : State := wTr.setRing 2 {discAt := 8000000000000}
def a8 : Nat := 8000079999999
def a9 : State := wCage (wTr.setWord R.VOTE_MERGE 0xFFFF#32)
def a10 : State := wCage (wTr.put (F.RING_STATUS_STATE 2) 4)
def a11 : List Byte := [0x79#8, 4#8]
def a12 : List Byte := [0x78#8, 4#8, 0#8, 0#8, 0#8, 0#8, 1#8]
def a13 : List Byte := hdr 0 (rc 7 3 2 ++ rc 8 3 2)
def a14 : List Byte := hdr 1 (rc 7 3 2 ++ rc 8 3 2)
def a15 : State := wDis.setRing 2 { discA := some (true, [])}
def a16 : List Byte := hdr 1 (rc 7 1 1 ++ rc 8 3 1)
def a17 : List DiscRec := [⟨8,2,3,2⟩, ⟨7,2,1,2⟩]
def a18 : State := wMap.setLink fun x => { x with frozen := true, frozenAt := some 9000000000000 }
def a19 : State := (((wDis.put (F.RING_HOP_STAT_UP 2 0) 1).put (F.RING_STATUS_VER 2) 2).put (F.RING_HOP_DLY_DELAY 2 0) 400000).setRing 2 { exchN := [(0, 64)] }
def a20 : State := wRing3.put (F.RING_STATUS_STATE 2) 2
def a21 : State := wRing3.put (F.RING_STATUS_STATE 2) 1
def a22 : Nat := 8000000000010
def a23 : State := wRing3.setRing 2 { errRun := [(1, (8000000000000, 15))] }
def a24 : State := wRing3.setRing 2 { errRun := [(1, (8000000000000, 17))] }
def a25 : Nat := 8000000320000
def a26 : State := wRing3.setRing 2 { frameAt := some 8000000000000 }
def a27 : Nat := 8000000000000
def a28 : Nat := 8000000319999
def a29 : State := (wBrk.put (F.RING_HOP_STAT_UP 2 2) 0).put (F.RING_STATUS_STATE 2) 4
def a30 : State := wBrk.put (F.RING_CTRL_HEAL_EN 2) 0
def a31 : Nat := 8000000010000
def a32 : List Byte := 1#8 :: tlmf
def a33 : List Byte := tlmf.set 9 1#8
def a34 : State := wCyc.setRing 2 { haltNext := some (8000000008000, 3) }
def a35 : Nat := 8000000008000
def a36 : State := wCyc.setRing 2 { haltNext := some (8000000008000, 1) }
def a37 : State := wCyc.setRing 2 { reqAt := [(1, some 8000000000000)]}
def a38 : State := wCyc.setCellX 7 { alignBad := 16 }
def a39 : Nat := 8000000010001
def a40 : State := wMb ⟨0,9,1,[]⟩ (some o1) [] []
def a41 : State := wMb ⟨0,9,0,[]⟩ (some o1) [] []
def a42 : State := wMb ⟨0,9,0,[]⟩ (some o2) [q2] []
def a43 : State := wMb ⟨0,9,0,[]⟩ none [] [9]
def a44 : State := wMb ⟨0,9,0,[]⟩ (some {o1 with req := q2}) [] [9]
def a45 : MbxOut := {o1 with req := q2}
def a46 : Nat := 8000000000499
def a47 : Nat := 8000000160000
def a48 : State := wCyc.setWord R.VOTE_MERGE 0xFFFF#32
def a49 : State := wCyc.put F.RING_FREEZE_FREEZE 6000
def a50 : Nat := 8000000096000
def a51 : State := { (wCyc) with now := 8000000096000 }
def a52 : SlotCopy := ⟨50000000, 5, false, slot 50000000⟩
def a53 : Nat := 8000000128000
def a54 : State := wLa.setLink fun x => { x with lastLaunch := some 8000000000000 }
def a55 : Pass := ⟨50000000, 8000000000000, 8000000100000⟩

theorem witness_RingControlWrites :
    ((W.isOn domMGMT = true) ∧ (W.isOn (domRING 2) = true) ∧ (W.allows 1 (R.RING_CTRL 2) 1#32 1#32 = true) ∧
      (W.get (F.RING_CTRL_EN 2) = 0)) ∧
    ((a2.isOn domMGMT = true) ∧ (a2.isOn (domRING 2) = true) ∧ (a2.allows 1 (R.RING_CTRL 2) 1#32 1#32 = true) ∧
      (a2.get (F.RING_CTRL_EN 2) = 1)) ∧
    ((wRingUp.isOn domMGMT = true) ∧ (wRingUp.isOn (domRING 2) = true) ∧
      (wRingUp.allows 1 (R.RING_CTRL 2) 0#32 1#32 = true) ∧ (wRingUp.get (F.RING_CTRL_EN 2) = 1)) ∧
    ((a3.isOn domMGMT = true) ∧ (a3.isOn (domRING 2) = true) ∧ (a3.allows 1 (R.RING_CTRL 2) 0#32 1#32 = true) ∧
      (a3.get (F.RING_CTRL_EN 2) = 1)) ∧
    ((W.isOn domMGMT = true) ∧ (W.isOn (domRING 2) = true) ∧ (W.allows 1 (R.RING_CTRL 2) 0#32 1#32 = true) ∧
      (W.get (F.RING_CTRL_EN 2) = 0)) ∧
    ((a4.isOn domMGMT = true) ∧ (a4.isOn (domRING 2) = true) ∧ (a4.allows 1 (R.RING_CTRL 2) 4#32 4#32 = true) ∧
      (a4.cluActive 2 = true)) := by
  decide +kernel

theorem witness_RingControlWrites_2 :
    ((wRingUp.isOn domMGMT = true) ∧ (wRingUp.isOn (domRING 2) = true) ∧
      (wRingUp.allows 1 (R.RING_CTRL 2) 4#32 4#32 = true) ∧ (wRingUp.cluActive 2 = false) ∧
      (wRingUp.get (F.RING_CTRL_EN 2) = 1)) ∧
    ((a3.isOn domMGMT = true) ∧ (a3.isOn (domRING 2) = true) ∧ (a3.allows 1 (R.RING_CTRL 2) 4#32 4#32 = true) ∧
      (a3.cluActive 2 = false) ∧ (a3.get (F.RING_CTRL_EN 2) = 1)) ∧
    ((a5.isOn domMGMT = true) ∧ (a5.isOn (domRING 2) = false)) := by
  decide +kernel

theorem witness_DiscoveryRuns :
    ((a7.works (domRING 2) = true) ∧ (a7.get (F.RING_CTRL_EN 2) = 1) ∧
      (a7.ringState 2 = 1 ∨ a7.ringState 2 = 2 ∧ (a7.ring 2).discA = none ∧ (a7.ring 2).discB = none) ∧
      ((a7.ring 2).discAt + 10 * uMs ≤ max a7.now a6)) ∧
    ((a7.works (domRING 2) = true) ∧ (a7.get (F.RING_CTRL_EN 2) = 1) ∧
      (a7.ringState 2 = 1 ∨ a7.ringState 2 = 2 ∧ (a7.ring 2).discA = none ∧ (a7.ring 2).discB = none) ∧
      (max a7.now a8 < (a7.ring 2).discAt + 10 * uMs)) ∧
    ((a9.works (domRING 2) = true) ∧ (a9.get (F.RING_CTRL_EN 2) = 1) ∧
      ((a9.advance a1).cageOk (2 * 2 + b2n true) = true) ∧ (a9.ringState 2 ∈ [1, 2, 6])) ∧
    ((a10.works (domRING 2) = true) ∧ (a10.get (F.RING_CTRL_EN 2) = 1) ∧
      ((a10.advance a1).cageOk (2 * 2 + b2n true) = true) ∧ (¬a10.ringState 2 ∈ [1, 2, 6])) ∧
    ((wTr.works (domRING 2) = true) ∧ (wTr.get (F.RING_CTRL_EN 2) = 1) ∧
      ((wTr.advance a1).cageOk (2 * 2 + b2n true) = false)) ∧
    ((wDis.works (domRING 2) = true) ∧ (wDis.get (F.RING_CTRL_EN 2) = 1) ∧ (wDis.ringState 2 = 2) ∧
      (byteAt a11 0 ≠ 120)) := by
  decide +kernel

theorem witness_DiscoveryRuns_2 :
    ((wDis.works (domRING 2) = true) ∧ (wDis.get (F.RING_CTRL_EN 2) = 1) ∧ (wDis.ringState 2 = 2) ∧
      (byteAt a12 0 = 120) ∧ (byteAt (List.take (8 * leAt a12 6 2) a12) 1 = 4) ∧
      (¬(leAt (List.take (8 * leAt a12 6 2) a12) 30 2 = crc16 (bytesAt (List.take (8 * leAt a12 6 2) a12) 1 1 ++
        bytesAt (List.take (8 * leAt a12 6 2) a12) 3 27) ∧ portAgrees (List.take (8 * leAt a12 6 2) a12) true = true))) ∧
    ((wDis.works (domRING 2) = true) ∧ (wDis.get (F.RING_CTRL_EN 2) = 1) ∧ (wDis.ringState 2 = 2) ∧
      (byteAt a13 0 = 120) ∧ (byteAt (List.take (8 * leAt a13 6 2) a13) 1 = 4) ∧
      (leAt (List.take (8 * leAt a13 6 2) a13) 30 2 = crc16 (bytesAt (List.take (8 * leAt a13 6 2) a13) 1 1 ++
        bytesAt (List.take (8 * leAt a13 6 2) a13) 3 27) ∧ portAgrees (List.take (8 * leAt a13 6 2) a13) true = true)
        ∧ (wDis.get (F.RING_STATUS_LINK_A 2) = 1) ∧ (wDis.get (F.RING_STATUS_LINK_B 2) = 1) ∧
      (byteAt (List.take (8 * leAt a13 6 2) a13) 2 / 16 % 2 = 0) ∧ ((wDis.ring 2).discB = none)) ∧
    ((wDis.works (domRING 2) = true) ∧ (wDis.get (F.RING_CTRL_EN 2) = 1) ∧ (wDis.ringState 2 = 2) ∧
      (byteAt a14 0 = 120) ∧ (byteAt (List.take (8 * leAt a14 6 2) a14) 1 = 4) ∧
      (leAt (List.take (8 * leAt a14 6 2) a14) 30 2 = crc16 (bytesAt (List.take (8 * leAt a14 6 2) a14) 1 1 ++
        bytesAt (List.take (8 * leAt a14 6 2) a14) 3 27) ∧ portAgrees (List.take (8 * leAt a14 6 2) a14) false =
        true) ∧ (wDis.get (F.RING_STATUS_LINK_A 2) = 1) ∧ (wDis.get (F.RING_STATUS_LINK_B 2) = 1) ∧
      (¬byteAt (List.take (8 * leAt a14 6 2) a14) 2 / 16 % 2 = 0) ∧ ((wDis.ring 2).discA = none)) ∧
    ((a15.works (domRING 2) = true) ∧ (a15.get (F.RING_CTRL_EN 2) = 1) ∧ (a15.ringState 2 = 2) ∧
      (byteAt (hdr 1 []) 0 = 120) ∧ (byteAt (List.take (8 * leAt (hdr 1 []) 6 2) (hdr 1 [])) 1 = 4) ∧
      (leAt (List.take (8 * leAt (hdr 1 []) 6 2) (hdr 1 [])) 30 2 = crc16 (bytesAt (List.take (8 * leAt (hdr 1 []) 6
        2) (hdr 1 [])) 1 1 ++ bytesAt (List.take (8 * leAt (hdr 1 []) 6 2) (hdr 1 [])) 3 27) ∧ portAgrees (List.take
        (8 * leAt (hdr 1 []) 6 2) (hdr 1 [])) false = true) ∧ (a15.get (F.RING_STATUS_LINK_A 2) = 1) ∧
      (a15.get (F.RING_STATUS_LINK_B 2) = 1) ∧
      (¬byteAt (List.take (8 * leAt (hdr 1 []) 6 2) (hdr 1 [])) 2 / 16 % 2 = 0) ∧
      ((a15.ring 2).discA = some (true, [])) ∧
      ((byteAt (List.take (8 * leAt (hdr 1 []) 6 2) (hdr 1 [])) 2 / 32 % 2 == 1, discRecs (List.take (8 * leAt (hdr 1
        []) 6 2) (hdr 1 [])) 128 0).snd = [])) ∧
    ((wMap.works (domRING 2) = true) ∧ (wMap.get (F.RING_CTRL_EN 2) = 1) ∧ (wMap.ringState 2 = 2) ∧
      (byteAt a16 0 = 120) ∧ (byteAt (List.take (8 * leAt a16 6 2) a16) 1 = 4) ∧
      (leAt (List.take (8 * leAt a16 6 2) a16) 30 2 = crc16 (bytesAt (List.take (8 * leAt a16 6 2) a16) 1 1 ++
        bytesAt (List.take (8 * leAt a16 6 2) a16) 3 27) ∧ portAgrees (List.take (8 * leAt a16 6 2) a16) false =
        true) ∧ (wMap.get (F.RING_STATUS_LINK_A 2) = 1) ∧ (wMap.get (F.RING_STATUS_LINK_B 2) = 1) ∧
      (¬byteAt (List.take (8 * leAt a16 6 2) a16) 2 / 16 % 2 = 0) ∧ ((wMap.ring 2).discA = some (false, a17)) ∧
      (a17 ≠ []) ∧ (a17.length ≤ 128) ∧
      ((byteAt (List.take (8 * leAt a16 6 2) a16) 2 / 32 % 2 == 1, discRecs (List.take (8 * leAt a16 6 2) a16) 128
        0).fst = false) ∧
      (List.map (fun x => x.nodeId) (byteAt (List.take (8 * leAt a16 6 2) a16) 2 / 32 % 2 == 1, discRecs (List.take
        (8 * leAt a16 6 2) a16) 128 0).snd = (List.map (fun x => x.nodeId) a17).reverse) ∧
      (a17[0]? = some { nodeId := 8, nodeType := 2, vers := 3, linkVer := 2 : DiscRec }) ∧
      (wMap.inMap (128 * 2 + 0) = true)) ∧
    ((a18.works (domRING 2) = true) ∧ (a18.get (F.RING_CTRL_EN 2) = 1) ∧ (a18.ringState 2 = 2) ∧
      (byteAt a16 0 = 120) ∧ (byteAt (List.take (8 * leAt a16 6 2) a16) 1 = 4) ∧
      (leAt (List.take (8 * leAt a16 6 2) a16) 30 2 = crc16 (bytesAt (List.take (8 * leAt a16 6 2) a16) 1 1 ++
        bytesAt (List.take (8 * leAt a16 6 2) a16) 3 27) ∧ portAgrees (List.take (8 * leAt a16 6 2) a16) false =
        true) ∧ (a18.get (F.RING_STATUS_LINK_A 2) = 1) ∧ (a18.get (F.RING_STATUS_LINK_B 2) = 1) ∧
      (¬byteAt (List.take (8 * leAt a16 6 2) a16) 2 / 16 % 2 = 0) ∧ ((a18.ring 2).discA = some (false, a17)) ∧
      (a17 ≠ []) ∧ (a17.length ≤ 128) ∧
      ((byteAt (List.take (8 * leAt a16 6 2) a16) 2 / 32 % 2 == 1, discRecs (List.take (8 * leAt a16 6 2) a16) 128
        0).fst = false) ∧
      (List.map (fun x => x.nodeId) (byteAt (List.take (8 * leAt a16 6 2) a16) 2 / 32 % 2 == 1, discRecs (List.take
        (8 * leAt a16 6 2) a16) 128 0).snd = (List.map (fun x => x.nodeId) a17).reverse) ∧
      (a17[1]? = some { nodeId := 7, nodeType := 2, vers := 1, linkVer := 2 : DiscRec }) ∧
      (a18.inMap (128 * 2 + 1) = true)) := by
  and_intros
  all_goals first
    | decide +kernel
    | exact all_some (by decide +kernel)
    | exact not_all_some (by decide +kernel)
    | exact ex_some (by decide +kernel)
    | (intro j k; exact nofun)

theorem witness_DiscoveryRuns_3 :
    ((a19.works (domRING 2) = true) ∧ (a19.get (F.RING_CTRL_EN 2) = 1) ∧ (a19.ringState 2 = 2) ∧
      (a19.get (F.RING_STATUS_VER 2) ≠ 0) ∧ (a19.downLinks 2 = []) ∧
      (∀ (h : Nat), h ≤ a19.nCells 2 → 64 ≤ (a19.ring 2).exchN.get h)) := by
  decide +kernel

theorem witness_LinksBreakAndHeal :
    ((wRing3.works (domRING 2) = true) ∧ (wRing3.ringRuns 2 = true) ∧ (1 ≤ wRing3.nCells 2) ∧
      (wRing3.get (F.RING_HOP_STAT_UP 2 1) = 1) ∧ (true = true ∨ 1000 ≤ 0)) ∧
    ((wRing3.works (domRING 2) = true) ∧ (wRing3.ringRuns 2 = true) ∧ (1 ≤ wRing3.nCells 2) ∧
      (wRing3.get (F.RING_HOP_STAT_UP 2 1) = 1) ∧ (false = false) ∧ (999 < 1000)) ∧
    ((a20.works (domRING 2) = true) ∧ (a20.ringRuns 2 = false) ∧ (2 ≤ a20.nCells 2)) ∧
    ((a21.works (domRING 2) = true) ∧ (a21.ringRuns 2 = false) ∧ (0 ≤ a21.nCells 2)) ∧
    ((a23.works (domRING 2) = true)) ∧
    ((a24.works (domRING 2) = true)) := by
  decide +kernel

theorem witness_LinksBreakAndHeal_2 :
    ((a26.works (domRING 2) = true) ∧ (a26.ringRuns 2 = true) ∧ (a26.clk.suspendAt = none) ∧
      ((a26.ring 2).frameAt = some a27) ∧ (a27 + 2 * a26.periodU ≤ max a26.now a25)) ∧
    ((a26.works (domRING 2) = true) ∧ (a26.ringRuns 2 = true) ∧ (a26.clk.suspendAt = none) ∧
      ((a26.ring 2).frameAt = some a27) ∧ (max a26.now a28 < a27 + 2 * a26.periodU)) ∧
    ((wBrk.works (domRING 2) = true) ∧ (wBrk.ringState 2 = 4 ∨ wBrk.ringState 2 = 5) ∧
      (wBrk.get (F.RING_HOP_STAT_UP 2 1) = 0) ∧ (1 ≤ wBrk.nCells 2) ∧ (64 ≤ (wBrk.ring 2).exchN.get 1) ∧
      (56250000 * wBrk.periodU ≤ (wBrk.advance a1).mtUnits) ∧ (wBrk.get (F.RING_CTRL_HEAL_EN 2) = 1)) ∧
    ((a29.works (domRING 2) = true) ∧ (a29.ringState 2 = 4 ∨ a29.ringState 2 = 5) ∧
      (a29.get (F.RING_HOP_STAT_UP 2 1) = 0) ∧ (1 ≤ a29.nCells 2) ∧ (64 ≤ (a29.ring 2).exchN.get 1) ∧
      (56250000 * a29.periodU ≤ (a29.advance a1).mtUnits) ∧ (a29.get (F.RING_CTRL_HEAL_EN 2) = 1)) ∧
    ((a30.works (domRING 2) = true) ∧ (a30.ringState 2 = 4 ∨ a30.ringState 2 = 5) ∧
      (a30.get (F.RING_HOP_STAT_UP 2 1) = 0) ∧ (1 ≤ a30.nCells 2) ∧ (64 ≤ (a30.ring 2).exchN.get 1) ∧
      ((a30.advance a1).mtUnits < 64 * a30.periodU ∨ a30.get (F.RING_CTRL_HEAL_EN 2) = 0)) ∧
    ((wBrk.works (domRING 2) = true) ∧ (wBrk.ringState 2 = 4 ∨ wBrk.ringState 2 = 5) ∧
      (wBrk.get (F.RING_HOP_STAT_UP 2 1) = 0) ∧ (1 ≤ wBrk.nCells 2) ∧ (64 ≤ (wBrk.ring 2).exchN.get 1) ∧
      ((wBrk.advance a1).mtUnits < 56250001 * wBrk.periodU ∨ wBrk.get (F.RING_CTRL_HEAL_EN 2) = 0)) := by
  decide +kernel

theorem witness_FramesAndDelayExchanges :
    ((wCyc.works (domRING 2) = true) ∧ (wCyc.ringRuns 2 = true) ∧ (wCyc.clk.suspendAt = none) ∧ (byteAt a32 0 ≠ 120)) ∧
    ((wCyc.works (domRING 2) = true) ∧ (wCyc.ringRuns 2 = true) ∧ (wCyc.clk.suspendAt = none) ∧ (byteAt tlmf 0 = 120)) ∧
    ((wCyc.works (domRING 2) = true) ∧ (wCyc.ringRuns 2 = true) ∧ (wCyc.clk.suspendAt = none) ∧ (byteAt a33 0 = 120) ∧
      (byteAt (List.take (8 * leAt a33 6 2) a33) 1 = 1) ∧
      (¬(leAt (List.take (8 * leAt a33 6 2) a33) 24 2 = hcrcOf (List.take (8 * leAt a33 6 2) a33) 23 ∧ portAgrees
        (List.take (8 * leAt a33 6 2) a33) true = true))) ∧
    ((wCyc.works (domRING 2) = true) ∧ (wCyc.ringRuns 2 = true) ∧ (wCyc.clk.suspendAt = none) ∧
      (byteAt tlmf 0 = 120) ∧ (byteAt (List.take (8 * leAt tlmf 6 2) tlmf) 1 = 1) ∧
      (leAt (List.take (8 * leAt tlmf 6 2) tlmf) 24 2 = hcrcOf (List.take (8 * leAt tlmf 6 2) tlmf) 23 ∧ portAgrees
        (List.take (8 * leAt tlmf 6 2) tlmf) true = true) ∧
      (0 < min (leAt (List.take (8 * leAt tlmf 6 2) tlmf) 4 2) 128)) ∧
    ((wCyc.works (domRING 2) = true) ∧ (wCyc.ringRuns 2 = true) ∧ (wCyc.clk.suspendAt = none) ∧
      (byteAt tlmf 0 = 120) ∧ (byteAt (List.take (8 * leAt tlmf 6 2) tlmf) 1 = 1) ∧
      (leAt (List.take (8 * leAt tlmf 6 2) tlmf) 24 2 = hcrcOf (List.take (8 * leAt tlmf 6 2) tlmf) 23 ∧ portAgrees
        (List.take (8 * leAt tlmf 6 2) tlmf) true = true) ∧
      (1 < min (leAt (List.take (8 * leAt tlmf 6 2) tlmf) 4 2) 128)) ∧
    ((wCyc.works (domRING 2) = true) ∧ (wCyc.ringRuns 2 = true) ∧ (wCyc.clk.suspendAt = none) ∧
      (byteAt tlmf 0 = 120) ∧ (byteAt (List.take (8 * leAt tlmf 6 2) tlmf) 1 = 1) ∧
      (leAt (List.take (8 * leAt tlmf 6 2) tlmf) 24 2 = hcrcOf (List.take (8 * leAt tlmf 6 2) tlmf) 23 ∧ portAgrees
        (List.take (8 * leAt tlmf 6 2) tlmf) true = true) ∧
      (leAt (List.take (8 * leAt tlmf 6 2) tlmf) (if wCyc.ringV1 2 = true then 46 else 62) 2 = crc16 (bytesAt
        (List.take (8 * leAt tlmf 6 2) tlmf) 32 ((if wCyc.ringV1 2 = true then 46 else 62) - 32))) ∧
      (leAt (List.take (8 * leAt tlmf 6 2) tlmf) 32 2 ≠ 65535)) := by
  decide +kernel

theorem witness_FramesAndDelayExchanges_2 :
    ((a34.works (domRING 2) = true) ∧ ((a34.ring 2).haltNext = some (a35, 3)) ∧ (a35 ≤ max a34.now a31)) ∧
    ((a36.works (domRING 2) = true) ∧ ((a36.ring 2).haltNext = some (a35, 1)) ∧ (a35 ≤ max a36.now a31)) ∧
    ((wCyc.works (domRING 2) = true)) ∧
    ((wCyc.works (domRING 2) = true) ∧ ((wCyc.ring 2).reqAt.get (b2n true) = none)) ∧
    ((a37.works (domRING 2) = true) ∧ ((a37.ring 2).reqAt.get (b2n true) = some a27)) ∧
    ((a38.works (domRING 2) = true) ∧ (a38.works domVOTE = true) ∧ (16 ≤ (a38.cell 7).alignBad)) := by
  decide +kernel

theorem witness_FramesAndDelayExchanges_3 :
    ((wCyc.works (domRING 2) = true) ∧ (wCyc.works domVOTE = true) ∧ ((wCyc.cell 7).alignBad < 16)) := by
  decide +kernel

theorem witness_MailboxRepliesAndLeases :
    ((a40.works domVOTE = true) ∧ ((a40.advance a39).atFreeze = false)) ∧
    ((a40.works domVOTE = true) ∧ ((a40.advance a31).atFreeze = true) ∧
      ((a40.ring 2).rep = some { src := 0, seq := 9, status := 1, data := [] : MbxRep }) ∧
      ((a40.ring 2).out = some o1) ∧ (o1.sent = true) ∧
      (o1.seq = { src := 0, seq := 9, status := 1, data := [] : MbxRep }.seq) ∧
      (o1.req.dst = { src := 0, seq := 9, status := 1, data := [] : MbxRep }.src) ∧
      ({ src := 0, seq := 9, status := 1, data := [] : MbxRep }.src < 128) ∧
      ({ src := 0, seq := 9, status := 1, data := [] : MbxRep }.status = 1)) ∧
    ((a41.works domVOTE = true) ∧ ((a41.advance a31).atFreeze = true) ∧
      ((a41.ring 2).rep = some { src := 0, seq := 9, status := 0, data := [] : MbxRep }) ∧
      ((a41.ring 2).out = some o1) ∧ (o1.sent = true) ∧
      (o1.seq = { src := 0, seq := 9, status := 0, data := [] : MbxRep }.seq) ∧
      (o1.req.dst = { src := 0, seq := 9, status := 0, data := [] : MbxRep }.src) ∧
      ({ src := 0, seq := 9, status := 0, data := [] : MbxRep }.src < 128) ∧
      ({ src := 0, seq := 9, status := 0, data := [] : MbxRep }.status = 0) ∧ (o1.req.purpose = MbxUse.param) ∧
      (nextReq (a41.ring 2).queue = none)) ∧
    ((a42.works domVOTE = true) ∧ ((a42.advance a31).atFreeze = true) ∧
      ((a42.ring 2).rep = some { src := 0, seq := 9, status := 0, data := [] : MbxRep }) ∧
      ((a42.ring 2).out = some o2) ∧ (o2.sent = true) ∧
      (o2.seq = { src := 0, seq := 9, status := 0, data := [] : MbxRep }.seq) ∧
      (o2.req.dst = { src := 0, seq := 9, status := 0, data := [] : MbxRep }.src) ∧
      ({ src := 0, seq := 9, status := 0, data := [] : MbxRep }.src < 128) ∧
      ({ src := 0, seq := 9, status := 0, data := [] : MbxRep }.status = 0) ∧ (o2.req.purpose = MbxUse.param) ∧
      (nextReq (a42.ring 2).queue = some q2)) ∧
    ((a43.works domVOTE = true) ∧ ((a43.advance a31).atFreeze = true) ∧
      ((a43.ring 2).rep = some { src := 0, seq := 9, status := 0, data := [] : MbxRep }) ∧ ((a43.ring 2).out = none) ∧
      ({ src := 0, seq := 9, status := 0, data := [] : MbxRep }.seq ∈ (a43.ring 2).gone)) ∧
    ((a44.works domVOTE = true) ∧ ((a44.ring 2).out = some a45) ∧ (a45.sent = true) ∧ (a45.req.dst ≠ 65534) ∧
      (a45.due ≤ (a44.advance a31).mtUnits) ∧ (a45.req.purpose ∈ [MbxUse.ident 0, MbxUse.ident 1, MbxUse.dispRead]) ∧
      (nextReq (a44.ring 2).queue = none)) := by
  decide +kernel

theorem witness_MailboxRepliesAndLeases_2 :
    ((a44.works domVOTE = true) ∧ ((a44.ring 2).out = some a45) ∧ (a45.sent = true) ∧ (a45.req.dst ≠ 65534) ∧
      ((a44.advance a46).mtUnits < a45.due)) := by
  decide +kernel

theorem witness_ControlCycleInstants :
    ((wCyc.works domCLK = true) ∧ ((wCyc.advance a31).cycleNow = wCyc.link.lastBegun) ∧ (wCyc.link.begun = true)) ∧
    ((a48.works domCLK = true) ∧ ((a48.advance a47).cycleNow ≠ a48.link.lastBegun ∨ a48.link.begun = false) ∧
      (a48.start.ready = false) ∧ (a48.link.later = []) ∧
      (a48.link.begun = false ∨ a48.link.frozen = true ∨ (a48.advance a47).tFreeze < (a48.advance a47).mtUnits)) ∧
    ((a48.works domCLK = true) ∧ ((a48.advance a47).cycleNow ≠ a48.link.lastBegun ∨ a48.link.begun = false) ∧
      (a48.start.ready = false) ∧ (a48.clk.suspendAt = none) ∧ (a48.ringRuns 2 = true) ∧
      (a48.works (domRING 2) = true) ∧ (a48.mergeOk 2 true = true)) ∧
    ((a49.works domCLK = true) ∧ ((a49.advance a47).cycleNow ≠ a49.link.lastBegun ∨ a49.link.begun = false) ∧
      (a49.start.ready = false) ∧ (a49.link.begun = true) ∧ (a49.link.frozen = false) ∧
      ((a49.advance a47).mtUnits ≤ (a49.advance a47).tFreeze)) ∧
    ((wCyc.works domVOTE = true) ∧
      ((wCyc.advance a31).nextInput = none ∨ ∃ b, (wCyc.advance a31).nextInput = some b ∧ b.mtUnits < b.tFreeze)) ∧
    ((wCyc.works domVOTE = true) ∧ ((wCyc.advance a50).nextInput = some a51) ∧ (a51.tFreeze ≤ a51.mtUnits)) := by
  decide +kernel

theorem witness_ControlCycleInstants_2 :
    ((wFr.works domVOTE = true) ∧ (wFr.link.begun = true) ∧ (wFr.link.frozen = false) ∧ (wFr.link.skip = false) ∧
      ((wFr.advance a50).tFreeze ≤ (wFr.advance a50).mtUnits) ∧ (wFr.cells.asks = []) ∧ (wFr.lanesRun = false) ∧
      (wFr.works domANA = false) ∧ (wFr.works domDRAM = false) ∧
      (∀ (k : Nat), k < 16 → wFr.get (F.POUR_SLOT_STAT_STATE k) < 3) ∧
      (∀ (k : Nat), k < 1024 → wFr.marked k = false) ∧ (wFr.ringRuns 2 = true) ∧ (wFr.works (domRING 2) = true) ∧
      (1 < min 128 (wFr.nCells 2)) ∧
      (pickCopy (List.filter (fun c => c.cycle == wFr.link.cycle) ((wFr.ring 2).copies.get 1)) = some a52) ∧ (3 < 8)) ∧
    ((a54.works domVOTE = true) ∧ ((a54.advance a53).launchK = some a27) ∧
      (a54.link.lastLaunch = some a27 ∨ a54.clk.suspendAt.isSome = true ∨ a54.lanesRun = false ∨ a54.link.begun =
        false ∨ (a54.advance a53).launchPass a27 = none)) ∧
    ((wLa.works domVOTE = true) ∧ ((wLa.advance a53).launchK = some a27) ∧ (wLa.clk.suspendAt = none) ∧
      (wLa.lanesRun = true) ∧ (wLa.link.begun = true) ∧ (wLa.link.lastLaunch ≠ some a27) ∧
      ((wLa.advance a53).launchPass a27 = some (a55, 0)) ∧ (2 < 8) ∧ (wLa.ringRuns 2 = true) ∧
      (wLa.works (domRING 2) = true) ∧ (wLa.portLaunches 2 false = true ∨ wLa.portLaunches 2 true = true)) := by
  decide +kernel

end Sys2Proof.Tests.W03

namespace Sys2Proof.Tests.W04

open Sys2Proof Sys2Proof.Machine

set_option Elab.async false

def wc (st : Nat) : State := ((W.setLink fun x => { x with frozen := true, frozenAt := some 8000000000000 }).put (F.CELL_STATE_STATE 5) st).setSess 1 { W.sess 1 with level := 2 }
def T : Nat := 8000000000000
def inPh (s : State) : State := ((s.put (F.CELL_CFG_IN_MAP 5) 1).put (F.CELL_CFG_PHASE 5) 0)
def wret (s : State) : State := ((inPh s).put (F.CELL_DIAG_VALID 5) 1).setWord (R.CELL_TLM 5 0) 20000#32
def fz (t : Nat) (s : State) : State := s.setLink fun x => { x with frozen := true, frozenAt := some t }
def wx (st : Nat) (x : CellX) : State := (wc st).setCellX 5 x
def wst (st n : Nat) : State := ((wc st).put (F.CELL_STALE_RUN 5) n).put (F.RING_STATUS_NCELLS 0) 10
def a1 : State := (wc 2).put (F.CELL_STATE_SEQ_BUSY 5) 1
def a2 : State := (wc 2).put (F.PWR_STATE 5) 0
def a3 : State := (wc 7).setSess 1 { W.sess 1 with level := 1 }
def a4 : State := (wc 4).put (F.CELL_STATE_SEQ_BUSY 5) 1
def a5 : State := (wc 4).put (F.CELL_STATE_STATE 6) 5
def a6 : State := (inPh (wc 5)).put (F.CELL_CLU_CFG_VNEED 0) 0
def a7 : State := wret (wc 6)
def a8 : State := (wret (wc 6)).put (F.FRT_CLU_STAT_STATE 0) 8
def a9 : State := (wc 8).setWear fun w => { w with cell := w.cell.set 5 { model := true } }
def a10 : State := fz (T) (wx 3 { diagDue := some T })
def a11 : State := fz (T) (wx 3 { diagDue := some (T+1) })
def a12 : State := fz (T) (wx 2 { diagRetry := some (T+1) })
def a13 : State := fz (T) ((wx 2 { lowAt := some T, paramAsked := true }))
def a14 : State := fz (T) ((wx 2 { lowAt := some T, paramAsked := true }).setWord (R.CELL_TLM 5 0) 2000#32)
def a15 : State := fz (T) ((wx 2 { lowAt := some (T+1), paramAsked := true }))
def a16 : State := fz (T+20*uMs) ((wx 5 { seq := .bypRamp 6 19, share := .fall T }))
def a17 : State := fz (T+20*uMs-1) ((wx 5 { seq := .bypRamp 6 19, share := .fall T }))
def a18 : State := fz (T) ((wx 5 { seq := .bypClose 6 19, bypDue := some T }))
def a19 : State := fz (T) ((wx 5 { seq := .bypClose 6 19, bypDue := some (T+1) }))
def a20 : State := fz (T) ((wx 8 { seq := .fault, bypDue := some T }).put (F.FRT_CLU_STAT_STATE 0) 8)
def a21 : State := fz (T) ((wx 8 { seq := .fault, bypDue := some (T+1) }))
def a22 : State := fz (T + uS) ((wx 6 { seq := .retZero 19 T }))
def a23 : State := fz (T) ((wx 6 { seq := .retZero 19 T }).put (F.PWM_CLU_CFG_CAR_P 0) 8000)
def a24 : State := fz (T) ((wx 6 { seq := .retOpen 19, bypDue := some T }))
def a25 : State := fz (T) ((wx 6 { seq := .retOpen 19, bypDue := some (T+1) }))
def a26 : State := fz (T) (wst 5 3)
def a27 : State := fz (T) ((List.range 11).foldl (fun s h => s.put (F.RING_HOP_STAT_UP 0 h) 1) (wst 5 3))
def a28 : State := fz (T) ((List.range 11).foldl (fun s h => s.put (F.RING_HOP_STAT_UP 0 h) 1) (wst 6 16))
def a29 : State := fz (T) (wst 6 1)
def a30 : State := fz (T) ((wc 2).put (F.PWM_CELL_TRIP_WIN 5) 15)
def a31 : State := fz (T) ((wc 2).put (F.PWM_CELL_TRIP_WIN 5) 0)
def a32 : State := fz (T) ((wc 8).put (F.CELL_FAULTS_FAULT24 5) 3)
def a33 : State := fz (T) ((wc 8).put (F.CELL_FAULTS_FAULT24 5) 2)
def a34 : State := fz (T+uS) (inPh (wx 5 { hotSince := some T }))
def a35 : State := fz (T+uS) ((wx 5 { hotSince := some T }))
def a36 : State := fz (T+60*uS) (((wret (wx 6 { coolSince := some T })).put (F.CELL_STATE_REASON 5) 14).put (F.FRT_CLU_STAT_STATE 0) 0)
def a37 : State := fz (T+60*uS-1) ((wret (wx 6 { coolSince := some T })).put (F.CELL_STATE_REASON 5) 14)
def a38 : State := wx 3 { diagDue := some T }
def a39 : State := wx 3 { diagDue := some T, diagFail := 1 }
def a40 : State := (wx 2 { diagRetry := some T, paramAsked := true })
def a41 : State := (wx 2 { diagRetry := some T, paramAsked := true }).put (F.CELL_STATE_STATE 6) 5
def a42 : State := ((inPh (wc 5)).put (F.CELL_CLU_CFG_VNEED 0) 0).put F.CELL_CTRL_RAMP 0
def a43 : State := (wc 9).setCellX 5 { status := 0x2000 }

theorem witness_CellCommandsJudged :
    ((a1.isOn domMGMT = true) ∧ ((1, Instr.cellDiagnose T 1 5 2) ∈ cellCommands T 1 5 2) ∧ (a1.isOn domVOTE = true) ∧
      ((a1.advance T).atFreeze = true) ∧
      (a1.judgeWord 1 (R.CELL_CMD 5) (cellCmdWord (1, Instr.cellDiagnose T 1 5 2).fst 2) (BitVec.allOnes 32) =
        Status.ok) ∧ ((1, Instr.cellDiagnose T 1 5 2).fst ≠ 5 ∨ a1.needLevel 1 2 = Status.ok) ∧ (2 % 16 < 10) ∧
      (2 % 16 = a1.cellState 5) ∧ (cmdAllowed (1, Instr.cellDiagnose T 1 5 2).fst (a1.cellState 5) = true) ∧
      (a1.seqBusy 5 = true)) ∧
    ((a2.isOn domMGMT = true) ∧ ((1, Instr.cellDiagnose T 1 5 2) ∈ cellCommands T 1 5 2) ∧ (a2.isOn domVOTE = false)) ∧
    (((wc 2).isOn domMGMT = true) ∧ ((0, Instr.cellCmdNone (T + 1) 1 5 2) ∈ cellCommands (T + 1) 1 5 2) ∧
      ((wc 2).isOn domVOTE = true) ∧ (((wc 2).advance (T + 1)).atFreeze = false)) ∧
    ((a3.isOn domMGMT = true) ∧ ((5, Instr.cellUnretire T 1 5 7) ∈ cellCommands T 1 5 7) ∧ (a3.isOn domVOTE = true) ∧
      ((a3.advance T).atFreeze = true) ∧
      (a3.judgeWord 1 (R.CELL_CMD 5) (cellCmdWord (5, Instr.cellUnretire T 1 5 7).fst 7) (BitVec.allOnes 32) =
        Status.ok) ∧ ((5, Instr.cellUnretire T 1 5 7).fst = 5) ∧ (a3.needLevel 1 2 = Status.accessDenied) ∧
      (7 % 16 = 7) ∧ (a3.cellState 5 = 7) ∧ (a3.seqBusy 5 = false)) ∧
    (((wc 7).isOn domMGMT = true) ∧ ((5, Instr.cellUnretire T 1 5 12) ∈ cellCommands T 1 5 12) ∧
      ((wc 7).isOn domVOTE = true) ∧ (((wc 7).advance T).atFreeze = true) ∧
      ((wc 7).judgeWord 1 (R.CELL_CMD 5) (cellCmdWord (5, Instr.cellUnretire T 1 5 12).fst 12) (BitVec.allOnes 32) =
        Status.ok) ∧ ((5, Instr.cellUnretire T 1 5 12).fst ≠ 5 ∨ (wc 7).needLevel 1 2 = Status.ok) ∧ (10 ≤ 12 % 16)) ∧
    (((wc 4).isOn domMGMT = true) ∧ ((2, Instr.cellBypass T 1 5 3) ∈ cellCommands T 1 5 3) ∧
      ((wc 4).isOn domVOTE = true) ∧ (((wc 4).advance T).atFreeze = true) ∧
      ((wc 4).judgeWord 1 (R.CELL_CMD 5) (cellCmdWord (2, Instr.cellBypass T 1 5 3).fst 3) (BitVec.allOnes 32) =
        Status.ok) ∧ ((2, Instr.cellBypass T 1 5 3).fst ≠ 5 ∨ (wc 4).needLevel 1 2 = Status.ok) ∧ (3 % 16 < 10) ∧
      (3 % 16 ≠ (wc 4).cellState 5 ∨ cmdAllowed (2, Instr.cellBypass T 1 5 3).fst ((wc 4).cellState 5) = false)) := by
  and_intros
  all_goals first
    | decide +kernel
    | exact all_some (by decide +kernel)
    | exact not_all_some (by decide +kernel)
    | exact ex_some (by decide +kernel)
    | (intro j k; exact nofun)

theorem witness_CellCommandsJudged_2 :
    (((wc 4).isOn domMGMT = true) ∧ ((5, Instr.cellUnretire T 1 5 4) ∈ cellCommands T 1 5 4) ∧
      ((wc 4).isOn domVOTE = true) ∧ (((wc 4).advance T).atFreeze = true) ∧
      ((wc 4).judgeWord 1 (R.CELL_CMD 5) (cellCmdWord (5, Instr.cellUnretire T 1 5 4).fst 4) (BitVec.allOnes 32) =
        Status.ok) ∧ ((5, Instr.cellUnretire T 1 5 4).fst ≠ 5 ∨ (wc 4).needLevel 1 2 = Status.ok) ∧ (4 % 16 < 10) ∧
      (4 % 16 ≠ (wc 4).cellState 5 ∨ cmdAllowed (5, Instr.cellUnretire T 1 5 4).fst ((wc 4).cellState 5) = false)) ∧
    ((a4.isOn domMGMT = true) ∧ ((2, Instr.cellBypass T 1 5 4) ∈ cellCommands T 1 5 4) ∧ (a4.isOn domVOTE = true) ∧
      ((a4.advance T).atFreeze = true) ∧
      (a4.judgeWord 1 (R.CELL_CMD 5) (cellCmdWord (2, Instr.cellBypass T 1 5 4).fst 4) (BitVec.allOnes 32) =
        Status.ok) ∧ ((2, Instr.cellBypass T 1 5 4).fst ≠ 5 ∨ a4.needLevel 1 2 = Status.ok) ∧ (4 % 16 < 10) ∧
      (4 % 16 = a4.cellState 5) ∧ (cmdAllowed (2, Instr.cellBypass T 1 5 4).fst (a4.cellState 5) = true) ∧
      (a4.seqBusy 5 = true)) ∧
    ((a5.isOn domMGMT = true) ∧ ((1, Instr.cellDiagnose T 1 5 4) ∈ cellCommands T 1 5 4) ∧ (a5.isOn domVOTE = true) ∧
      ((a5.advance T).atFreeze = true) ∧
      (a5.judgeWord 1 (R.CELL_CMD 5) (cellCmdWord (1, Instr.cellDiagnose T 1 5 4).fst 4) (BitVec.allOnes 32) =
        Status.ok) ∧ ((1, Instr.cellDiagnose T 1 5 4).fst ≠ 5 ∨ a5.needLevel 1 2 = Status.ok) ∧ (4 % 16 < 10) ∧
      (4 % 16 = a5.cellState 5) ∧ (cmdAllowed (1, Instr.cellDiagnose T 1 5 4).fst (a5.cellState 5) = true) ∧
      ((1, Instr.cellDiagnose T 1 5 4).fst = 1) ∧ (a5.cluActive (ringOf 5) = true)) ∧
    (((wc 5).isOn domMGMT = true) ∧ ((2, Instr.cellBypass T 1 5 5) ∈ cellCommands T 1 5 5) ∧
      ((wc 5).isOn domVOTE = true) ∧ (((wc 5).advance T).atFreeze = true) ∧
      ((wc 5).judgeWord 1 (R.CELL_CMD 5) (cellCmdWord (2, Instr.cellBypass T 1 5 5).fst 5) (BitVec.allOnes 32) =
        Status.ok) ∧ ((2, Instr.cellBypass T 1 5 5).fst ≠ 5 ∨ (wc 5).needLevel 1 2 = Status.ok) ∧ (5 % 16 < 10) ∧
      (5 % 16 = (wc 5).cellState 5) ∧ (cmdAllowed (2, Instr.cellBypass T 1 5 5).fst ((wc 5).cellState 5) = true) ∧
      ((wc 5).seqBusy 5 = false) ∧ ((2, Instr.cellBypass T 1 5 5).fst = 2 ∨ (2, Instr.cellBypass T 1 5 5).fst = 4) ∧
      ((wc 5).cluActive (ringOf 5) = true) ∧ ((wc 5).marginIf 5 < 0)) ∧
    (((wc 6).isOn domMGMT = true) ∧ ((3, Instr.cellReturn T 1 5 6) ∈ cellCommands T 1 5 6) ∧
      ((wc 6).isOn domVOTE = true) ∧ (((wc 6).advance T).atFreeze = true) ∧
      ((wc 6).judgeWord 1 (R.CELL_CMD 5) (cellCmdWord (3, Instr.cellReturn T 1 5 6).fst 6) (BitVec.allOnes 32) =
        Status.ok) ∧ ((3, Instr.cellReturn T 1 5 6).fst ≠ 5 ∨ (wc 6).needLevel 1 2 = Status.ok) ∧ (6 % 16 < 10) ∧
      (6 % 16 = (wc 6).cellState 5) ∧ (cmdAllowed (3, Instr.cellReturn T 1 5 6).fst ((wc 6).cellState 5) = true) ∧
      ((wc 6).seqBusy 5 = false) ∧
      ((3, Instr.cellReturn T 1 5 6).fst = 3 ∧ (wc 6).returnOk 5 = false ∨ (3, Instr.cellReturn T 1 5 6).fst = 8 ∧
        (wc 6).statusBit 5 13 = true)) ∧
    ((a43.isOn domMGMT = true) ∧ ((8, Instr.cellRelease T 1 5 9) ∈ cellCommands T 1 5 9) ∧ (a43.isOn domVOTE = true) ∧
      ((a43.advance T).atFreeze = true) ∧
      (a43.judgeWord 1 (R.CELL_CMD 5) (cellCmdWord (8, Instr.cellRelease T 1 5 9).fst 9) (BitVec.allOnes 32) =
        Status.ok) ∧ ((8, Instr.cellRelease T 1 5 9).fst ≠ 5 ∨ a43.needLevel 1 2 = Status.ok) ∧ (9 % 16 < 10) ∧
      (9 % 16 = a43.cellState 5) ∧ (cmdAllowed (8, Instr.cellRelease T 1 5 9).fst (a43.cellState 5) = true) ∧
      (a43.seqBusy 5 = false) ∧
      ((8, Instr.cellRelease T 1 5 9).fst = 3 ∧ a43.returnOk 5 = false ∨ (8, Instr.cellRelease T 1 5 9).fst = 8 ∧
        a43.statusBit 5 13 = true)) := by
  and_intros
  all_goals first
    | decide +kernel
    | exact all_some (by decide +kernel)
    | exact not_all_some (by decide +kernel)
    | exact ex_some (by decide +kernel)
    | (intro j k; exact nofun)

theorem witness_CellCommandsAct :
    (((wc 3).isOn domMGMT = true) ∧ ((wc 3).isOn domVOTE = true) ∧ (((wc 3).advance T).atFreeze = true) ∧
      ((wc 3).judgeWord 1 (R.CELL_CMD 5) (cellCmdWord 0 3) (BitVec.allOnes 32) = Status.ok ∧ (wc 3).cmdRefuse 1 5 0
        (3 % 16) = Status.ok)) ∧
    (((wc 4).isOn domMGMT = true) ∧ ((wc 4).isOn domVOTE = true) ∧ (((wc 4).advance T).atFreeze = true) ∧
      ((wc 4).judgeWord 1 (R.CELL_CMD 5) (cellCmdWord 1 4) (BitVec.allOnes 32) = Status.ok ∧ (wc 4).cmdRefuse 1 5 1
        (4 % 16) = Status.ok)) ∧
    ((a6.isOn domMGMT = true) ∧ (a6.isOn domVOTE = true) ∧ ((a6.advance T).atFreeze = true) ∧
      (a6.judgeWord 1 (R.CELL_CMD 5) (cellCmdWord 2 5) (BitVec.allOnes 32) = Status.ok ∧ a6.cmdRefuse 1 5 2 (5 % 16)
        = Status.ok) ∧ (a6.cellState 5 = 5)) ∧
    (((wc 4).isOn domMGMT = true) ∧ ((wc 4).isOn domVOTE = true) ∧ (((wc 4).advance T).atFreeze = true) ∧
      ((wc 4).judgeWord 1 (R.CELL_CMD 5) (cellCmdWord 2 4) (BitVec.allOnes 32) = Status.ok ∧ (wc 4).cmdRefuse 1 5 2
        (4 % 16) = Status.ok) ∧ ((wc 4).cellState 5 = 4)) ∧
    ((a7.isOn domMGMT = true) ∧ (a7.isOn domVOTE = true) ∧ ((a7.advance T).atFreeze = true) ∧
      (a7.judgeWord 1 (R.CELL_CMD 5) (cellCmdWord 3 6) (BitVec.allOnes 32) = Status.ok ∧ a7.cmdRefuse 1 5 3 (6 % 16)
        = Status.ok)) ∧
    ((a8.isOn domMGMT = true) ∧ (a8.isOn domVOTE = true) ∧ ((a8.advance T).atFreeze = true) ∧
      (a8.judgeWord 1 (R.CELL_CMD 5) (cellCmdWord 3 6) (BitVec.allOnes 32) = Status.ok ∧ a8.cmdRefuse 1 5 3 (6 % 16)
        = Status.ok)) := by
  decide +kernel

theorem witness_CellCommandsAct_2 :
    (((wc 6).isOn domMGMT = true) ∧ ((wc 6).isOn domVOTE = true) ∧ (((wc 6).advance T).atFreeze = true) ∧
      ((wc 6).judgeWord 1 (R.CELL_CMD 5) (cellCmdWord 4 6) (BitVec.allOnes 32) = Status.ok ∧ (wc 6).cmdRefuse 1 5 4
        (6 % 16) = Status.ok) ∧ ((wc 6).cellState 5 = 6 ∨ (wc 6).cellState 5 = 8)) ∧
    (((wc 8).isOn domMGMT = true) ∧ ((wc 8).isOn domVOTE = true) ∧ (((wc 8).advance T).atFreeze = true) ∧
      ((wc 8).judgeWord 1 (R.CELL_CMD 5) (cellCmdWord 4 8) (BitVec.allOnes 32) = Status.ok ∧ (wc 8).cmdRefuse 1 5 4
        (8 % 16) = Status.ok) ∧ ((wc 8).cellState 5 = 6 ∨ (wc 8).cellState 5 = 8)) ∧
    ((a9.isOn domMGMT = true) ∧ (a9.isOn domVOTE = true) ∧ ((a9.advance T).atFreeze = true) ∧
      (a9.judgeWord 1 (R.CELL_CMD 5) (cellCmdWord 4 8) (BitVec.allOnes 32) = Status.ok ∧ a9.cmdRefuse 1 5 4 (8 % 16)
        = Status.ok) ∧ (a9.cellState 5 = 6 ∨ a9.cellState 5 = 8)) ∧
    ((a6.isOn domMGMT = true) ∧ (a6.isOn domVOTE = true) ∧ ((a6.advance T).atFreeze = true) ∧
      (a6.judgeWord 1 (R.CELL_CMD 5) (cellCmdWord 4 5) (BitVec.allOnes 32) = Status.ok ∧ a6.cmdRefuse 1 5 4 (5 % 16)
        = Status.ok) ∧ (a6.cellState 5 = 5)) ∧
    (((wc 7).isOn domMGMT = true) ∧ ((wc 7).isOn domVOTE = true) ∧ (((wc 7).advance T).atFreeze = true) ∧
      ((wc 7).judgeWord 1 (R.CELL_CMD 5) (cellCmdWord 5 7) (BitVec.allOnes 32) = Status.ok ∧ (wc 7).cmdRefuse 1 5 5
        (7 % 16) = Status.ok)) ∧
    (((wc 8).isOn domMGMT = true) ∧ ((wc 8).isOn domVOTE = true) ∧ (((wc 8).advance T).atFreeze = true) ∧
      ((wc 8).judgeWord 1 (R.CELL_CMD 5) (cellCmdWord 6 8) (BitVec.allOnes 32) = Status.ok ∧ (wc 8).cmdRefuse 1 5 6
        (8 % 16) = Status.ok)) := by
  decide +kernel

theorem witness_CellCommandsAct_3 :
    (((wc 5).isOn domMGMT = true) ∧ ((wc 5).isOn domVOTE = true) ∧ (((wc 5).advance T).atFreeze = true) ∧
      ((wc 5).judgeWord 1 (R.CELL_CMD 5) (cellCmdWord 7 5) (BitVec.allOnes 32) = Status.ok ∧ (wc 5).cmdRefuse 1 5 7
        (5 % 16) = Status.ok) ∧ ((wc 5).get (F.CELL_STATE_NO_BYPASS 5) = 0 ∨ (wc 5).cluRunning (ringOf 5) = false)) ∧
    (((wc 9).isOn domMGMT = true) ∧ ((wc 9).isOn domVOTE = true) ∧ (((wc 9).advance T).atFreeze = true) ∧
      ((wc 9).judgeWord 1 (R.CELL_CMD 5) (cellCmdWord 8 9) (BitVec.allOnes 32) = Status.ok ∧ (wc 9).cmdRefuse 1 5 8
        (9 % 16) = Status.ok)) ∧
    ((a42.isOn domMGMT = true) ∧ (a42.isOn domVOTE = true) ∧ ((a42.advance T).atFreeze = true) ∧
      (a42.judgeWord 1 (R.CELL_CMD 5) (cellCmdWord 2 5) (BitVec.allOnes 32) = Status.ok ∧ a42.cmdRefuse 1 5 2 (5 %
        16) = Status.ok) ∧ (a42.cellState 5 = 5)) ∧
    (((wc 9).isOn domMGMT = true) ∧ ((wc 9).isOn domVOTE = true) ∧ (((wc 9).advance T).atFreeze = true) ∧
      ((wc 9).judgeWord 1 (R.CELL_CMD 5) (cellCmdWord 7 9) (BitVec.allOnes 32) = Status.ok ∧ (wc 9).cmdRefuse 1 5 7
        (9 % 16) = Status.ok) ∧ ((wc 9).get (F.CELL_STATE_NO_BYPASS 5) = 0 ∨ (wc 9).cluRunning (ringOf 5) = false)) := by
  decide +kernel

theorem witness_CellSequenceTimers :
    ((a10.works domVOTE = true) ∧ ((a10.advance T).atFreeze = true) ∧ ((a10.cell 5).diagDue = some T) ∧
      (a10.cellState 5 = 3) ∧ (T ≤ max a10.now T) ∧ ((a10.cell 5).diagFail = 0)) ∧
    ((a11.works domVOTE = true) ∧ ((a11.advance T).atFreeze = true) ∧ ((a11.cell 5).diagDue = some (T + 1)) ∧
      (a11.cellState 5 = 3) ∧ (max a11.now T < T + 1)) ∧
    ((a12.works domVOTE = true) ∧ ((a12.advance T).atFreeze = true) ∧ (a12.cellState 5 = 2) ∧
      (Instr.cellDiagRetry T 5 = Instr.cellDiagRetry T 5 ∧ (a12.cell 5).diagRetry = some (T + 1) ∧ (a12.cell 5).lowAt
        = none ∨ Instr.cellDiagRetry T 5 = Instr.cellLowVdcRecheck T 5 ∧ (a12.cell 5).lowAt = some (T + 1) ∧
        (a12.cell 5).diagRetry = none) ∧ (max a12.now T < T + 1)) ∧
    ((a13.works domVOTE = true) ∧ ((a13.advance T).atFreeze = true) ∧ (a13.cellState 5 = 2) ∧
      (Instr.cellLowVdcRecheck T 5 = Instr.cellDiagRetry T 5 ∧ (a13.cell 5).diagRetry = some T ∧ (a13.cell 5).lowAt =
        none ∨ Instr.cellLowVdcRecheck T 5 = Instr.cellLowVdcRecheck T 5 ∧ (a13.cell 5).lowAt = some T ∧ (a13.cell
        5).diagRetry = none) ∧ (T ≤ max a13.now T) ∧ ((a13.cell 5).seq = CellSeq.none) ∧
      ((a13.cell 5).paramAsked = true) ∧ ((a13.cell 5).paramPend = 0) ∧ ((a13.cell 5).disp.getD 0 = 0) ∧
      (a13.cluActive (ringOf 5) = false) ∧ (a13.vdc 5 < 2000)) ∧
    ((a14.works domVOTE = true) ∧ ((a14.advance T).atFreeze = true) ∧ (a14.cellState 5 = 2) ∧
      (Instr.cellLowVdcRecheck T 5 = Instr.cellDiagRetry T 5 ∧ (a14.cell 5).diagRetry = some T ∧ (a14.cell 5).lowAt =
        none ∨ Instr.cellLowVdcRecheck T 5 = Instr.cellLowVdcRecheck T 5 ∧ (a14.cell 5).lowAt = some T ∧ (a14.cell
        5).diagRetry = none) ∧ (T ≤ max a14.now T) ∧ ((a14.cell 5).seq = CellSeq.none) ∧
      ((a14.cell 5).paramAsked = true) ∧ ((a14.cell 5).paramPend = 0) ∧ ((a14.cell 5).disp.getD 0 = 0) ∧
      (a14.cluActive (ringOf 5) = false) ∧ (2000 ≤ a14.vdc 5)) ∧
    ((a15.works domVOTE = true) ∧ ((a15.advance T).atFreeze = true) ∧ (a15.cellState 5 = 2) ∧
      (Instr.cellLowVdcRecheck T 5 = Instr.cellDiagRetry T 5 ∧ (a15.cell 5).diagRetry = some (T + 1) ∧ (a15.cell
        5).lowAt = none ∨ Instr.cellLowVdcRecheck T 5 = Instr.cellLowVdcRecheck T 5 ∧ (a15.cell 5).lowAt = some (T +
        1) ∧ (a15.cell 5).diagRetry = none) ∧ (max a15.now T < T + 1)) := by
  and_intros
  all_goals first
    | decide +kernel
    | exact all_some (by decide +kernel)
    | exact not_all_some (by decide +kernel)
    | exact ex_some (by decide +kernel)
    | (intro j k; exact nofun)

theorem witness_CellSequenceTimers_2 :
    ((a16.works domVOTE = true) ∧ ((a16.advance (T + 20 * uMs)).atFreeze = true) ∧
      ((a16.cell 5).seq = CellSeq.bypRamp 6 19) ∧ ((a16.cell 5).share = Share.fall T) ∧
      (T + a16.get F.CELL_CTRL_RAMP * uMs ≤ max a16.now (T + 20 * uMs))) ∧
    ((a17.works domVOTE = true) ∧ ((a17.advance (T + 20 * uMs - 1)).atFreeze = true) ∧
      ((a17.cell 5).seq = CellSeq.bypRamp 6 19) ∧ ((a17.cell 5).share = Share.fall T) ∧
      (max a17.now (T + 20 * uMs - 1) < T + a17.get F.CELL_CTRL_RAMP * uMs)) ∧
    ((a18.works domVOTE = true) ∧ ((a18.advance T).atFreeze = true) ∧ ((a18.cell 5).seq = CellSeq.bypClose 6 19) ∧
      ((a18.cell 5).bypDue = some T) ∧ (T ≤ max a18.now T)) ∧
    ((a19.works domVOTE = true) ∧ ((a19.advance T).atFreeze = true) ∧ ((a19.cell 5).seq = CellSeq.bypClose 6 19) ∧
      ((a19.cell 5).bypDue = some (T + 1)) ∧ (max a19.now T < T + 1)) ∧
    ((a20.works domVOTE = true) ∧ ((a20.advance T).atFreeze = true) ∧ ((a20.cell 5).seq = CellSeq.fault) ∧
      ((a20.cell 5).bypDue = some T) ∧ (T ≤ max a20.now T) ∧ (a20.cluRunning (ringOf 5) = false)) ∧
    ((a21.works domVOTE = true) ∧ ((a21.advance T).atFreeze = true) ∧ ((a21.cell 5).seq = CellSeq.fault) ∧
      ((a21.cell 5).bypDue = some (T + 1)) ∧ (max a21.now T < T + 1)) := by
  decide +kernel

theorem witness_CellSequenceTimers_3 :
    ((a22.works domVOTE = true) ∧ ((a22.advance (T + uS)).atFreeze = true) ∧
      ((a22.cell 5).seq = CellSeq.retZero 19 T) ∧
      (T + a22.link.d * a22.periodU + a22.carP (ringOf 5) ≤ max a22.now (T + uS))) ∧
    ((a23.works domVOTE = true) ∧ ((a23.advance T).atFreeze = true) ∧ ((a23.cell 5).seq = CellSeq.retZero 19 T) ∧
      (max a23.now T < T + a23.link.d * a23.periodU + a23.carP (ringOf 5))) ∧
    ((a24.works domVOTE = true) ∧ ((a24.advance T).atFreeze = true) ∧ ((a24.cell 5).seq = CellSeq.retOpen 19) ∧
      ((a24.cell 5).bypDue = some T) ∧ (T ≤ max a24.now T)) ∧
    ((a25.works domVOTE = true) ∧ ((a25.advance T).atFreeze = true) ∧ ((a25.cell 5).seq = CellSeq.retOpen 19) ∧
      ((a25.cell 5).bypDue = some (T + 1)) ∧ (max a25.now T < T + 1)) ∧
    ((a38.works domVOTE = true) ∧ ((a38.advance (T + 1)).atFreeze = false) ∧
      ((Instr.cellReturnOpen (T + 1) 5, CellEv.returnOpen) ∈ cellHappenings (T + 1) 5)) ∧
    ((a39.works domVOTE = true) ∧ ((a39.advance T).atFreeze = true) ∧ ((a39.cell 5).diagDue = some T) ∧
      (a39.cellState 5 = 3) ∧ (T ≤ max a39.now T) ∧ ((a39.cell 5).diagFail ≠ 0)) := by
  decide +kernel

theorem witness_CellSequenceTimers_4 :
    ((a40.works domVOTE = true) ∧ ((a40.advance T).atFreeze = true) ∧ (a40.cellState 5 = 2) ∧
      (Instr.cellDiagRetry T 5 = Instr.cellDiagRetry T 5 ∧ (a40.cell 5).diagRetry = some T ∧ (a40.cell 5).lowAt =
        none ∨ Instr.cellDiagRetry T 5 = Instr.cellLowVdcRecheck T 5 ∧ (a40.cell 5).lowAt = some T ∧ (a40.cell
        5).diagRetry = none) ∧ (T ≤ max a40.now T) ∧ ((a40.cell 5).seq = CellSeq.none) ∧
      ((a40.cell 5).paramAsked = true) ∧ ((a40.cell 5).paramPend = 0) ∧ ((a40.cell 5).disp.getD 0 = 0) ∧
      (a40.cluActive (ringOf 5) = false) ∧ (a40.vdc 5 < 2000)) ∧
    ((a41.works domVOTE = true) ∧ ((a41.advance T).atFreeze = true) ∧ (a41.cellState 5 = 2) ∧
      (Instr.cellDiagRetry T 5 = Instr.cellDiagRetry T 5 ∧ (a41.cell 5).diagRetry = some T ∧ (a41.cell 5).lowAt =
        none ∨ Instr.cellDiagRetry T 5 = Instr.cellLowVdcRecheck T 5 ∧ (a41.cell 5).lowAt = some T ∧ (a41.cell
        5).diagRetry = none) ∧ (T ≤ max a41.now T) ∧ (a41.cluActive (ringOf 5) = true)) := by
  decide +kernel

theorem witness_CellFaultsAndTelemetry :
    ((a26.works domVOTE = true) ∧ ((a26.advance T).atFreeze = true) ∧ (a26.cellState 5 = 5 ∨ a26.cellState 5 = 4) ∧
      (a26.get F.CELL_CTRL_STALE_LIM ≤ a26.get (F.CELL_STALE_RUN 5)) ∧ (a26.unreachable 5 = true)) ∧
    ((a27.works domVOTE = true) ∧ ((a27.advance T).atFreeze = true) ∧ (a27.cellState 5 = 5 ∨ a27.cellState 5 = 4) ∧
      (a27.get F.CELL_CTRL_STALE_LIM ≤ a27.get (F.CELL_STALE_RUN 5)) ∧ (a27.unreachable 5 = false)) ∧
    ((a28.works domVOTE = true) ∧ ((a28.advance T).atFreeze = true) ∧ (2 ≤ a28.cellState 5) ∧ (a28.cellState 5 ≤ 6) ∧
      (a28.get (F.CELL_STATE_NO_BYPASS 5) = 0) ∧ (a28.get F.CELL_CTRL_STALE_FAULT ≤ a28.get (F.CELL_STALE_RUN 5)) ∧
      (a28.unreachable 5 = false)) ∧
    ((a29.works domVOTE = true) ∧ ((a29.advance T).atFreeze = true) ∧ (2 ≤ a29.cellState 5) ∧ (a29.cellState 5 ≤ 6) ∧
      (a29.get (F.CELL_STATE_NO_BYPASS 5) = 0) ∧ (a29.get (F.CELL_STALE_RUN 5) < a29.get F.CELL_CTRL_STALE_FAULT)) ∧
    ((a30.works domVOTE = true) ∧ ((a30.advance T).atFreeze = true) ∧ (2 ≤ a30.cellState 5) ∧ (a30.cellState 5 ≤ 6) ∧
      (a30.get (F.CELL_STATE_NO_BYPASS 5) = 0) ∧
      (a30.get (F.PWM_TYPE_TRIP_TRIP_N (a30.get (F.CELL_CFG_TYPE 5))) ≤ a30.get (F.PWM_CELL_TRIP_WIN 5)) ∧
      (0 < a30.get (F.PWM_CELL_TRIP_WIN 5))) ∧
    ((a31.works domVOTE = true) ∧ ((a31.advance T).atFreeze = true) ∧ (2 ≤ a31.cellState 5) ∧ (a31.cellState 5 ≤ 6) ∧
      (a31.get (F.CELL_STATE_NO_BYPASS 5) = 0) ∧
      (a31.get (F.PWM_CELL_TRIP_WIN 5) < a31.get (F.PWM_TYPE_TRIP_TRIP_N (a31.get (F.CELL_CFG_TYPE 5))))) := by
  decide +kernel

theorem witness_CellFaultsAndTelemetry_2 :
    ((a32.works domVOTE = true) ∧ ((a32.advance T).atFreeze = true) ∧ (a32.cellState 5 = 8) ∧
      (3 ≤ a32.get (F.CELL_FAULTS_FAULT24 5))) ∧
    ((a33.works domVOTE = true) ∧ ((a33.advance T).atFreeze = true) ∧ (a33.cellState 5 = 8) ∧
      (a33.get (F.CELL_FAULTS_FAULT24 5) < 3)) ∧
    ((a34.works domVOTE = true) ∧ ((a34.advance (T + uS)).atFreeze = true) ∧ (a34.cellState 5 = 5) ∧
      (a34.seqBusy 5 = false) ∧ ((a34.cell 5).hotSince = some T) ∧ (T + uS ≤ max a34.now (T + uS)) ∧
      (a34.bypassAllowed 5 = true)) ∧
    ((a35.works domVOTE = true) ∧ ((a35.advance (T + uS)).atFreeze = true) ∧ (a35.cellState 5 = 5) ∧
      (a35.seqBusy 5 = false) ∧ ((a35.cell 5).hotSince = some T) ∧ (T + uS ≤ max a35.now (T + uS)) ∧
      (a35.bypassAllowed 5 = false)) ∧
    ((a36.works domVOTE = true) ∧ ((a36.advance (T + 60 * uS)).atFreeze = true) ∧ (a36.get F.CELL_CTRL_AUTO_RET = 1) ∧
      (a36.get (F.CELL_STATE_REASON 5) = 14) ∧ (a36.seqBusy 5 = false) ∧ ((a36.cell 5).coolSince = some T) ∧
      (a36.returnOk 5 = true) ∧ (T + 60 * uS ≤ max a36.now (T + 60 * uS)) ∧ (a36.cluRunning (ringOf 5) = true)) ∧
    ((a37.works domVOTE = true) ∧ ((a37.advance (T + 60 * uS - 1)).atFreeze = true) ∧
      (a37.get F.CELL_CTRL_AUTO_RET = 1) ∧ (a37.get (F.CELL_STATE_REASON 5) = 14) ∧ (a37.seqBusy 5 = false) ∧
      ((a37.cell 5).coolSince = some T) ∧ (a37.returnOk 5 = true) ∧ (max a37.now (T + 60 * uS - 1) < T + 60 * uS)) := by
  decide +kernel

theorem witness_CellFaultsAndTelemetry_3 :
    ((W.works domVOTE = true) ∧ (W.isOn domMGMT = true) ∧ (W.isOn domVOTE = true)) := by
  decide +kernel

end Sys2Proof.Tests.W04

namespace Sys2Proof.Tests.W07

open Sys2Proof Sys2Proof.Machine

set_option Elab.async false

def T : Nat := 8000000000000
def gp (f : GridPt → GridPt) : State := W.setGpt 2 (f (W.gpt 2))
def gb (b : Nat) : State := (gp fun x => { x with blindAt := some b }).put (F.GRID_PT_STAT_SOURCE 2) 2
def gs (f : GridPt → GridPt) (st : Nat) : State := (gp f).put (F.GRID_PT_STAT_FSTATE 2) st
def gr : State := W.put (F.FRT_CLU_STAT_STATE 1) 0
def gl : State := gr.setGclu 1 { (gr.gclu 1) with lost := [(2,3)] }
def a1 : State := (gp fun x => { x with expect := some 1666666, missRun := some (0, 1), ts := some 0 })
def a2 : State := (gp fun x => { x with expect := some 1666666, missRun := some (0, 2), ts := some 0 })
def a3 : State := (((gp fun x => { x with expect := some 1666666, missRun := some (0, 2), ts := some 0, lateN := 3, lateAt := some (T-5) }).put (F.GRID_PT_SRC_BSI_EN 2) 1).put (F.GRID_PT_STAT_BSI_FIT 2) 1).put (F.BSI_STAT_RUNNING 0) 1
def a4 : State := ((gp fun x => { x with expect := some 1666666, missRun := some (0, 2), ts := some 0 }).put (F.SV_SUB_STAT_STATE (W.get (F.GRID_PT_SRC_SUB 2))) 2)
def a5 : State := (gp fun x => { x with expect := some T })
def a6 : State := (gp fun x => { x with outAt := some T })
def a7 : State := (gp fun x => { x with outAt := some T }).put (F.GRID_PT_STAT_BSI_FIT 2) 1
def a8 : State := (gp fun x => { x with inAt := some T })
def a9 : State := gs (fun x => { x with jumpN := 3, jumpHit := true, ts := some T, jumpBy := 100000000 }) 2
def a10 : State := gs (fun x => { x with jumpN := 3, jumpHit := true, ts := some T, jumpBy := -100000000 }) 3
def a11 : State := gs (fun x => { x with jumpN := 4, jumpHit := true, ts := some T, resetAt := some T }) 1
def a12 : State := gs (fun x => { x with jumpN := 4, jumpHit := true, ts := some T, resetAt := some 5 }) 4
def a13 : State := gs (fun x => { x with revAt := some T, ts := some (T + 80000000-1) }) 2
def a14 : Nat := T+80000000-1
def a15 : State := gs (fun x => { x with revAt := some T, ts := some (T + 80000000) }) 2
def a16 : State := gs (fun x => { x with revAt := some T, ts := some (T + 80000000) }) 0
def a17 : State := gs (fun x => { x with dip := some (T, 2), ts := some (T + 20*uMs) }) 3
def a18 : State := gs (fun x => { x with dip := some (T, 2), ts := some (T + 20*uMs+1) }) 3
def a19 : State := gs (fun x => { x with resetAt := some T, ts := some (T + 40*uMs-1) }) 1
def a20 : State := gs (fun x => { x with resetAt := some T, ts := some (T + 40*uMs) }) 1
def a21 : State := gs (fun x => { x with holdAt := some T, ts := some (T + 40*uMs-1) }) 4
def a22 : State := gs (fun x => { x with holdAt := some T, ts := some (T + 40*uMs) }) 4
def a23 : State := W.setGcell 130 { dis := 16 }

theorem witness_GridSourceChanges :
    ((a1.works domVOTE = true) ∧ ((a1.gpt 2).gaps.head?.or (a1.gpt 2).expect = some 1666666) ∧
      (1666666 + a1.get (F.GRID_PT_LAT_LAT_MAX 2) * (uMs / 10) < (a1.advance T).mtUnits)) ∧
    ((a2.works domVOTE = true) ∧ ((a2.gpt 2).gaps.head?.or (a2.gpt 2).expect = some 1666666) ∧
      (1666666 + a2.get (F.GRID_PT_LAT_LAT_MAX 2) * (uMs / 10) < (a2.advance T).mtUnits)) ∧
    ((a3.works domVOTE = true) ∧ ((a3.gpt 2).gaps.head?.or (a3.gpt 2).expect = some 1666666) ∧
      (1666666 + a3.get (F.GRID_PT_LAT_LAT_MAX 2) * (uMs / 10) < (a3.advance T).mtUnits)) ∧
    ((a4.works domVOTE = true) ∧ ((a4.gpt 2).gaps.head?.or (a4.gpt 2).expect = some 1666666) ∧
      (1666666 + a4.get (F.GRID_PT_LAT_LAT_MAX 2) * (uMs / 10) < (a4.advance T).mtUnits)) ∧
    ((a5.works domVOTE = true) ∧ ((a5.gpt 2).gaps.head?.or (a5.gpt 2).expect = some T) ∧
      ((a5.advance T).mtUnits ≤ T + a5.get (F.GRID_PT_LAT_LAT_MAX 2) * (uMs / 10))) ∧
    ((W.works domVOTE = true) ∧ (W.get (F.GRID_PT_STAT_SOURCE 2) ≠ 2)) := by
  decide +kernel

theorem witness_GridSourceChanges_2 :
    (((gb T).works domVOTE = true) ∧ (((gb T).gpt 2).blindAt = some T) ∧ (max (gb T).now T < T + 100 * uMs)) ∧
    (((gb T).works domVOTE = true) ∧ (((gb T).gpt 2).blindAt = some T) ∧ ((gb T).get (F.GRID_PT_STAT_SOURCE 2) = 2) ∧
      (T + 100 * uMs ≤ max (gb T).now (T + 100 * uMs))) ∧
    ((a6.works domVOTE = true) ∧ ((a6.gpt 2).outAt = some T) ∧ (max a6.now T < T + uS)) ∧
    ((a7.works domVOTE = true) ∧ ((a7.gpt 2).outAt = some T) ∧ (T + uS ≤ max a7.now (T + uS)) ∧
      (a7.get (F.GRID_PT_STAT_BSI_FIT 2) = 1)) ∧
    ((a8.works domVOTE = true) ∧ ((a8.gpt 2).inAt = some T) ∧ (max a8.now T < T + 10 * uS)) ∧
    ((a8.works domVOTE = true) ∧ ((a8.gpt 2).inAt = some T) ∧ (T + 10 * uS ≤ max a8.now (T + 10 * uS))) := by
  decide +kernel

theorem witness_GridStateChanges :
    (((gs id 2).works domVOTE = true) ∧
      (((gs id 2).gpt 2).jumpHit = false ∨ (gs id 2).get (F.GRID_PT_STAT_FSTATE 2) = 0)) ∧
    ((a9.works domVOTE = true) ∧ ((a9.gpt 2).jumpHit = true) ∧ (a9.get (F.GRID_PT_STAT_FSTATE 2) ≠ 0) ∧
      (a9.get (F.GRID_PT_STAT_FSTATE 2) ≤ 4) ∧ ((a9.gpt 2).ts ≠ none)) ∧
    ((a10.works domVOTE = true) ∧ ((a10.gpt 2).jumpHit = true) ∧ (a10.get (F.GRID_PT_STAT_FSTATE 2) ≠ 0) ∧
      (a10.get (F.GRID_PT_STAT_FSTATE 2) ≤ 4) ∧ ((a10.gpt 2).ts ≠ none)) ∧
    ((a11.works domVOTE = true) ∧ ((a11.gpt 2).jumpHit = true) ∧ (a11.get (F.GRID_PT_STAT_FSTATE 2) ≠ 0) ∧
      (a11.get (F.GRID_PT_STAT_FSTATE 2) ≤ 4) ∧ ((a11.gpt 2).ts ≠ none)) ∧
    ((a12.works domVOTE = true) ∧ ((a12.gpt 2).jumpHit = true) ∧ (a12.get (F.GRID_PT_STAT_FSTATE 2) ≠ 0) ∧
      (a12.get (F.GRID_PT_STAT_FSTATE 2) ≤ 4) ∧ ((a12.gpt 2).ts ≠ none)) ∧
    ((a13.works domVOTE = true) ∧ ((a13.gpt 2).revAt = some T) ∧ ((a13.gpt 2).ts = some a14) ∧
      (a13.get (F.GRID_PT_STAT_FSTATE 2) ≤ 4) ∧ ((if a13.get F.GRID_CFG_FNOM = 1 then 120 else 100) * (a14 - T) < uS)) := by
  decide +kernel

theorem witness_GridStateChanges_2 :
    ((a15.works domVOTE = true) ∧ ((a15.gpt 2).revAt = some T) ∧ ((a15.gpt 2).ts = some (T + 80000000)) ∧
      (a15.get (F.GRID_PT_STAT_FSTATE 2) ≤ 4) ∧
      (uS ≤ (if a15.get F.GRID_CFG_FNOM = 1 then 120 else 100) * (T + 80000000 - T))) ∧
    ((a16.works domVOTE = true) ∧ ((a16.gpt 2).revAt = some T) ∧ ((a16.gpt 2).ts = some (T + 80000000)) ∧
      (a16.get (F.GRID_PT_STAT_FSTATE 2) ≤ 4) ∧
      (uS ≤ (if a16.get F.GRID_CFG_FNOM = 1 then 120 else 100) * (T + 80000000 - T))) ∧
    ((a17.works domVOTE = true) ∧ ((a17.gpt 2).dip = some (T, 2)) ∧ ((a17.gpt 2).ts = some (T + 20 * uMs)) ∧
      (a17.get (F.GRID_PT_STAT_FSTATE 2) = 3) ∧ (T + 20 * uMs ≤ T + 20 * uMs)) ∧
    ((a18.works domVOTE = true) ∧ ((a18.gpt 2).dip = some (T, 2)) ∧ ((a18.gpt 2).ts = some (T + 20 * uMs + 1)) ∧
      (a18.get (F.GRID_PT_STAT_FSTATE 2) = 3) ∧ (T + 20 * uMs < T + 20 * uMs + 1)) ∧
    ((a19.works domVOTE = true) ∧ ((a19.gpt 2).resetAt = some T) ∧ ((a19.gpt 2).ts = some (T + 40 * uMs - 1)) ∧
      (a19.get (F.GRID_PT_STAT_FSTATE 2) = 1) ∧
      ((if a19.get F.GRID_CFG_FNOM = 1 then 120 else 100) * (T + 40 * uMs - 1 - T) < 4 * uS)) ∧
    ((a20.works domVOTE = true) ∧ ((a20.gpt 2).resetAt = some T) ∧ ((a20.gpt 2).ts = some (T + 40 * uMs)) ∧
      (a20.get (F.GRID_PT_STAT_FSTATE 2) = 1) ∧
      (4 * uS ≤ (if a20.get F.GRID_CFG_FNOM = 1 then 120 else 100) * (T + 40 * uMs - T))) := by
  decide +kernel

theorem witness_GridStateChanges_3 :
    ((a21.works domVOTE = true) ∧ ((a21.gpt 2).holdAt = some T) ∧ ((a21.gpt 2).ts = some (T + 40 * uMs - 1)) ∧
      (a21.get (F.GRID_PT_STAT_FSTATE 2) = 4) ∧
      ((if a21.get F.GRID_CFG_FNOM = 1 then 120 else 100) * (T + 40 * uMs - 1 - T) < 4 * uS)) ∧
    ((a22.works domVOTE = true) ∧ ((a22.gpt 2).holdAt = some T) ∧ ((a22.gpt 2).ts = some (T + 40 * uMs)) ∧
      (a22.get (F.GRID_PT_STAT_FSTATE 2) = 4) ∧
      (4 * uS ≤ (if a22.get F.GRID_CFG_FNOM = 1 then 120 else 100) * (T + 40 * uMs - T))) ∧
    ((W.works domVOTE = true) ∧ (W.cluRunning 1 = false ∨ (W.gclu 1).lost.get 2 < 3)) ∧
    ((gl.works domVOTE = true) ∧ (gl.cluRunning 1 = true) ∧ (3 ≤ (gl.gclu 1).lost.get 2)) ∧
    ((W.works domVOTE = true) ∧ ((W.gcell 130).dis < 16)) ∧
    ((a23.works domVOTE = true) ∧ (16 ≤ (a23.gcell 130).dis)) := by
  decide +kernel

end Sys2Proof.Tests.W07

namespace Sys2Proof.Tests.W08

open Sys2Proof Sys2Proof.Machine

set_option Elab.async false

def T : Nat := 8000000000000
def mp (x : MpptCell) (m : Nat) : State := ((W.put (F.MPPT_CELL_STAT_MODE 130) m).put (F.CELL_STATE_STATE 130) 5).setMcell 130 x
def cp (t : Nat) (s : State) : State := s.setMclu 1 { s.mclu 1 with cap := (s.advance t).instants 0 }
def slots (v : Nat) (i : Int) : List (Nat × Nat × Int) := List.replicate 700 (T, v, i)
def tr : MpptCell := { win := slots 18180 13550, hist := some (18000*256, 13750*256), vref := some (18180*256) }
def mtt (m : Nat) : State := (((mp { tr with tgt := 3000 } m).put (F.MPPT_CELL_REF_VOC_EST 130) 23000).put (F.MPPT_CELL_PWR_PTGT 130) 3000).put F.MPPT_CFG_MEAS_MS 20
def mtq : State := (mtt 2).setQueue 1 ((mtt 2).phaseOf 130) [(130, true), (131, false)]
def md : State := (mp { brightAt := some T } 2).put (F.MPPT_CELL_STAT_DARK 130) 1
def mc (n : Nat) : State := W.setMclu 1 { cap := n }
def mr : State := (((W.put (F.FRT_CLU_STAT_STATE 1) 0).put (F.CELL_STATE_STATE 130) 5).put (F.CELL_CFG_IN_MAP 130) 1).setMcell 130 { p := 4000 * uW }
def mr2 : State := (mr.put (F.MPPT_CELL_STAT_MODE 130) 2).put (F.MPPT_TYPE_RATE_PRATED (mr.typeOf 130)) 6000
def ls : State := (mp { lastScan := some T } 2).put F.MPPT_SCAN_SCAN_INT 5
def sc (j : Nat) : Scan := { at_ := 5*uS, delay := 0, v0 := 4000000, p0 := 5, voc := 20000, next := j, again := false, bestN := 7, bestP := some 9000000000, maxI := 0 }
def sq (j : Nat) : State := mp { scan := some (sc j) } 4
def sm (j : Nat) : State := mp { tr with scan := some (sc j) } 4
def a1 : State := cp T (mp { step := ((mp {} 2).advance T).stepNo 130 } 0)
def a2 : State := outSt (exec (.mpptCapInstant T 1) (mp {} 2))
def a3 : State := cp T (mp {} 5)
def a4 : State := cp T (mp { skip := 1 } 1)
def a5 : State := cp T (mp { skip := 2 } 1)
def a6 : State := cp T (mp { pend := some 7, fails := 2 } 2)
def a7 : State := cp T (mp { pend := some 7, fails := 1 } 0)
def a8 : State := cp T (mp {} 2)
def a9 : State := cp T (mp {} 3)
def a10 : State := cp T (mtt 2)
def a11 : State := cp T (mtt 3)
def a12 : State := cp T ((mtt 3).setMcell 130 { tr with tgt := 9000 })
def a13 : State := mp { lowAt := some T, lowN := 2, lowSum := 40 } 2
def a14 : State := mp { vocAt := some T } 2
def a15 : Nat := T + 86400*uS
def a16 : State := mp { darkAt := some T } 2
def a17 : State := mp { darkAt := some T, p := 5000000000 } 2
def a18 : State := W.put (F.FRT_CLU_STAT_STATE 1) 4
def a19 : State := mr2.put (F.MPPT_CLU_PLIM_PLIM 1) 3
def a20 : State := mp { shade := 10 } 2
def a21 : State := mp { shade := 10 } 3
def a22 : State := mp { scan := some { sc 0 with at_ := T + 1 } } 4
def a23 : Scan := { sc 0 with at_ := T + 1 }
def a24 : State := mp { scan := some { sc 6 with again := true } } 4
def a25 : Scan := { sc 6 with again := true }
def a26 : State := W.put (F.PWR_STATE 5) 0
def a27 : State := (mp {} 2).setQueue 1 (W.phaseOf 130) [(140, true), (141, false)]
def a28 : State := (mp {} 2).put (F.CELL_CFG_IN_MAP 130) 1

theorem witness_MpptStepsAndCaps :
    ((a1.works domVOTE = true) ∧ ((a1.mclu (ringOf 130)).cap = (a1.advance T).instants 0) ∧
      ((a1.mcell 130).step = (a1.advance T).stepNo 130)) ∧
    (((mp { : MpptCell } 2).works domVOTE = true) ∧ (1 = ringOf 130) ∧
      (exec (Instr.mpptCapInstant T 1) (mp { : MpptCell } 2) = Host.Outcome.next a2)) ∧
    ((a3.works domVOTE = true) ∧ ((a3.mclu (ringOf 130)).cap = (a3.advance T).instants 0) ∧
      ((a3.mcell 130).step ≠ (a3.advance T).stepNo 130) ∧ ((a3.mcell 130).pend = none) ∧
      (a3.get (F.MPPT_CELL_STAT_MODE 130) = 0 ∨ a3.get (F.MPPT_CELL_STAT_MODE 130) = 4 ∨ a3.get
        (F.MPPT_CELL_STAT_MODE 130) = 5)) ∧
    ((a4.works domVOTE = true) ∧ ((a4.mclu (ringOf 130)).cap = (a4.advance T).instants 0) ∧
      ((a4.mcell 130).step ≠ (a4.advance T).stepNo 130) ∧ ((a4.mcell 130).pend = none) ∧
      (a4.get (F.MPPT_CELL_STAT_MODE 130) = 1) ∧ (a4.scanQueue (ringOf 130) (a4.phaseOf 130) = [])) ∧
    ((a5.works domVOTE = true) ∧ ((a5.mclu (ringOf 130)).cap = (a5.advance T).instants 0) ∧
      ((a5.mcell 130).step ≠ (a5.advance T).stepNo 130) ∧ ((a5.mcell 130).pend = none) ∧
      (a5.get (F.MPPT_CELL_STAT_MODE 130) = 1) ∧ (a5.scanQueue (ringOf 130) (a5.phaseOf 130) = [])) ∧
    ((a6.works domVOTE = true) ∧ ((a6.mclu (ringOf 130)).cap = (a6.advance T).instants 0) ∧
      ((a6.mcell 130).step ≠ (a6.advance T).stepNo 130) ∧ ((a6.mcell 130).pend ≠ none)) := by
  and_intros
  all_goals first
    | decide +kernel
    | exact all_some (by decide +kernel)
    | exact not_all_some (by decide +kernel)
    | exact ex_some (by decide +kernel)
    | exact next_of (by decide +kernel)
    | exact masterGone_of (by decide +kernel) (Nat.le_add_left _ _)
    | exact responseOk_of [7] (by decide +kernel) (by decide) (by decide +kernel) rfl
    | (intro j k; exact nofun)

theorem witness_MpptStepsAndCaps_2 :
    ((a7.works domVOTE = true) ∧ ((a7.mclu (ringOf 130)).cap = (a7.advance T).instants 0) ∧
      ((a7.mcell 130).step ≠ (a7.advance T).stepNo 130) ∧ ((a7.mcell 130).pend ≠ none)) ∧
    ((a8.works domVOTE = true) ∧ ((a8.mclu (ringOf 130)).cap = (a8.advance T).instants 0) ∧
      ((a8.mcell 130).step ≠ (a8.advance T).stepNo 130) ∧ ((a8.mcell 130).pend = none) ∧ ((a8.mcell 130).skip = 0) ∧
      (a8.get (F.MPPT_CELL_STAT_MODE 130) = 2 ∨ a8.get (F.MPPT_CELL_STAT_MODE 130) = 3) ∧
      ((a8.advance T).measure 130 (a8.get F.MPPT_CFG_MEAS_MS) = none)) ∧
    ((a9.works domVOTE = true) ∧ ((a9.mclu (ringOf 130)).cap = (a9.advance T).instants 0) ∧
      ((a9.mcell 130).step ≠ (a9.advance T).stepNo 130) ∧ ((a9.mcell 130).pend = none) ∧ ((a9.mcell 130).skip = 0) ∧
      (a9.get (F.MPPT_CELL_STAT_MODE 130) = 2 ∨ a9.get (F.MPPT_CELL_STAT_MODE 130) = 3) ∧
      ((a9.advance T).measure 130 (a9.get F.MPPT_CFG_MEAS_MS) = none)) ∧
    ((a10.works domVOTE = true) ∧ ((a10.mclu (ringOf 130)).cap = (a10.advance T).instants 0) ∧
      ((a10.mcell 130).step ≠ (a10.advance T).stepNo 130) ∧ ((a10.mcell 130).pend = none) ∧
      ((a10.mcell 130).skip = 0) ∧
      (a10.get (F.MPPT_CELL_STAT_MODE 130) = 2 ∨ a10.get (F.MPPT_CELL_STAT_MODE 130) = 3) ∧
      ((a10.advance T).measure 130 (a10.get F.MPPT_CFG_MEAS_MS) = some (18180 * 256, 13550 * 256)) ∧
      ((a10.mcell 130).hist = some (18000 * 256, 13750 * 256)) ∧ (a10.get (F.MPPT_CELL_STAT_MODE 130) = 2)) ∧
    ((a11.works domVOTE = true) ∧ ((a11.mclu (ringOf 130)).cap = (a11.advance T).instants 0) ∧
      ((a11.mcell 130).step ≠ (a11.advance T).stepNo 130) ∧ ((a11.mcell 130).pend = none) ∧
      ((a11.mcell 130).skip = 0) ∧
      (a11.get (F.MPPT_CELL_STAT_MODE 130) = 2 ∨ a11.get (F.MPPT_CELL_STAT_MODE 130) = 3) ∧
      ((a11.advance T).measure 130 (a11.get F.MPPT_CFG_MEAS_MS) = some (18180 * 256, 13550 * 256)) ∧
      ((a11.mcell 130).hist = some (18000 * 256, 13750 * 256)) ∧ (a11.get (F.MPPT_CELL_STAT_MODE 130) = 3)) ∧
    ((a12.works domVOTE = true) ∧ ((a12.mclu (ringOf 130)).cap = (a12.advance T).instants 0) ∧
      ((a12.mcell 130).step ≠ (a12.advance T).stepNo 130) ∧ ((a12.mcell 130).pend = none) ∧
      ((a12.mcell 130).skip = 0) ∧
      (a12.get (F.MPPT_CELL_STAT_MODE 130) = 2 ∨ a12.get (F.MPPT_CELL_STAT_MODE 130) = 3) ∧
      ((a12.advance T).measure 130 (a12.get F.MPPT_CFG_MEAS_MS) = some (18180 * 256, 13550 * 256)) ∧
      ((a12.mcell 130).hist = some (18000 * 256, 13750 * 256)) ∧ (a12.get (F.MPPT_CELL_STAT_MODE 130) = 3)) := by
  and_intros
  all_goals first
    | decide +kernel
    | exact all_some (by decide +kernel)
    | exact not_all_some (by decide +kernel)
    | exact ex_some (by decide +kernel)
    | exact next_of (by decide +kernel)
    | exact masterGone_of (by decide +kernel) (Nat.le_add_left _ _)
    | exact responseOk_of [7] (by decide +kernel) (by decide) (by decide +kernel) rfl
    | (intro j k; exact nofun)

theorem witness_MpptStepsAndCaps_3 :
    (((cp T mtq).works domVOTE = true) ∧ (((cp T mtq).mclu (ringOf 130)).cap = ((cp T mtq).advance T).instants 0) ∧
      (((cp T mtq).mcell 130).step ≠ ((cp T mtq).advance T).stepNo 130) ∧ (((cp T mtq).mcell 130).pend = none) ∧
      (((cp T mtq).mcell 130).skip = 0) ∧
      ((cp T mtq).get (F.MPPT_CELL_STAT_MODE 130) = 2 ∨ (cp T mtq).get (F.MPPT_CELL_STAT_MODE 130) = 3) ∧
      (((cp T mtq).advance T).measure 130 ((cp T mtq).get F.MPPT_CFG_MEAS_MS) = some (18180 * 256, 13550 * 256)) ∧
      (((cp T mtq).mcell 130).hist = some (18000 * 256, 13750 * 256)) ∧
      ((cp T mtq).get (F.MPPT_CELL_STAT_MODE 130) = 2)) ∧
    ((a13.works domVOTE = true) ∧ ((a13.mcell 130).lowAt = some T) ∧ (max a13.now T < T + uS)) ∧
    ((a13.works domVOTE = true) ∧ ((a13.mcell 130).lowAt = some T) ∧ (T + uS ≤ max a13.now (T + uS)) ∧
      (0 < (a13.mcell 130).lowN)) ∧
    ((a14.works domVOTE = true) ∧ ((a14.advance T).mtUnits < (a14.mcell 130).vocAt.getD a14.mppt.loadAt + 86400 * uS)) ∧
    ((a14.works domVOTE = true) ∧
      ((a14.mcell 130).vocAt.getD a14.mppt.loadAt + 86400 * uS ≤ (a14.advance a15).mtUnits)) ∧
    ((a16.works domVOTE = true) ∧ ((a16.mcell 130).darkAt = some T) ∧ (a16.get (F.MPPT_CELL_STAT_DARK 130) = 0) ∧
      (max a16.now T < T + 60 * uS)) := by
  decide +kernel

theorem witness_MpptStepsAndCaps_4 :
    ((a17.works domVOTE = true) ∧ ((a17.mcell 130).darkAt = some T) ∧ (a17.get (F.MPPT_CELL_STAT_DARK 130) = 0) ∧
      (T + 60 * uS ≤ max a17.now (T + 60 * uS))) ∧
    ((md.works domVOTE = true) ∧ ((md.mcell 130).brightAt = some T) ∧ (md.get (F.MPPT_CELL_STAT_DARK 130) = 1) ∧
      (max md.now T < T + 60 * uS)) ∧
    ((md.works domVOTE = true) ∧ ((md.mcell 130).brightAt = some T) ∧ (md.get (F.MPPT_CELL_STAT_DARK 130) = 1) ∧
      (T + 60 * uS ≤ max md.now (T + 60 * uS))) ∧
    (((cp T W).works domVOTE = true) ∧ (((cp T W).mclu 1).cap = ((cp T W).advance T).instants 0)) ∧
    ((a18.works domVOTE = true) ∧ ((a18.mclu 1).cap ≠ (a18.advance T).instants 0) ∧ (a18.frtState 1 ∈ [1, 2, 4, 5, 6])) ∧
    ((mr2.works domVOTE = true) ∧ ((mr2.mclu 1).cap ≠ (mr2.advance T).instants 0) ∧
      (¬mr2.frtState 1 ∈ [1, 2, 4, 5, 6])) := by
  decide +kernel

theorem witness_MpptStepsAndCaps_5 :
    ((a19.works domVOTE = true) ∧ ((a19.mclu 1).cap ≠ (a19.advance T).instants 0) ∧
      (¬a19.frtState 1 ∈ [1, 2, 4, 5, 6])) := by
  decide +kernel

theorem witness_ScansAndMpptCommands :
    (((mp { : MpptCell } 2).works domVOTE = true) ∧
      ((mp { : MpptCell } 2).get (F.MPPT_CELL_STAT_MODE 130) ≠ 2 ∨ ((mp { : MpptCell } 2).mcell 130).shade < 10)) ∧
    ((a20.works domVOTE = true) ∧ (a20.get (F.MPPT_CELL_STAT_MODE 130) = 2) ∧ (10 ≤ (a20.mcell 130).shade)) ∧
    ((a21.works domVOTE = true) ∧ (a21.get F.MPPT_SCAN_SCAN_INT = 0 ∨ a21.get (F.MPPT_CELL_STAT_MODE 130) ≠ 2)) ∧
    ((ls.works domVOTE = true) ∧
      ((ls.advance T).mtUnits < (Option.map (fun x => x + ls.get F.MPPT_SCAN_SCAN_INT * 60 * uS) (ls.mcell
        130).lastScan).getD (ls.mppt.loadAt + posOf 130 * (ls.get F.MPPT_SCAN_SCAN_INT * 60 * uS) / 128))) ∧
    ((ls.works domVOTE = true) ∧
      ((Option.map (fun x => x + ls.get F.MPPT_SCAN_SCAN_INT * 60 * uS) (ls.mcell 130).lastScan).getD (ls.mppt.loadAt
        + posOf 130 * (ls.get F.MPPT_SCAN_SCAN_INT * 60 * uS) / 128) ≤ (ls.advance (T + 300 * uS)).mtUnits) ∧
      (ls.get (F.MPPT_CELL_STAT_MODE 130) = 2) ∧ (ls.get F.MPPT_SCAN_SCAN_INT ≠ 0) ∧
      (∀ (e : Nat × Bool), e ∈ ls.scanQueue (ringOf 130) (ls.phaseOf 130) → e.fst ≠ 130)) ∧
    (((mp { : MpptCell } 2).works domVOTE = true) ∧ (((mp { : MpptCell } 2).mcell 130).scan = none)) := by
  decide +kernel

theorem witness_ScansAndMpptCommands_2 :
    ((a22.works domVOTE = true) ∧ ((a22.mcell 130).scan = some a23) ∧ (max a22.now T < scanTime a23)) ∧
    (((sq 4).works domVOTE = true) ∧ (((sq 4).mcell 130).scan = some (sc 4)) ∧ (scanTime (sc 4) ≤ max (sq 4).now T) ∧
      ((sc 4).next < 5)) ∧
    (((sq 5).works domVOTE = true) ∧ (((sq 5).mcell 130).scan = some (sc 5)) ∧ (scanTime (sc 5) ≤ max (sq 5).now T) ∧
      (0 ≤ 40) ∧ ((sc 5).next = 5 + 2 * 0)) ∧
    (((sq 85).works domVOTE = true) ∧ (((sq 85).mcell 130).scan = some (sc 85)) ∧
      (scanTime (sc 85) ≤ max (sq 85).now T) ∧ (40 ≤ 40) ∧ ((sc 85).next = 5 + 2 * 40)) ∧
    (((sq 6).works domVOTE = true) ∧ (((sq 6).mcell 130).scan = some (sc 6)) ∧ (scanTime (sc 6) ≤ max (sq 6).now T) ∧
      (0 ≤ 40) ∧ ((sc 6).next = 6 + 2 * 0) ∧ (((sq 6).advance T).measure 130 25 = none)) ∧
    ((a24.works domVOTE = true) ∧ ((a24.mcell 130).scan = some a25) ∧ (scanTime a25 ≤ max a24.now T) ∧ (0 ≤ 40) ∧
      (a25.next = 6 + 2 * 0) ∧ ((a24.advance T).measure 130 25 = none)) := by
  decide +kernel

theorem witness_ScansAndMpptCommands_3 :
    (((sm 86).works domVOTE = true) ∧ (((sm 86).mcell 130).scan = some (sc 86)) ∧
      (scanTime (sc 86) ≤ max (sm 86).now T) ∧ (40 ≤ 40) ∧ ((sc 86).next = 6 + 2 * 40) ∧
      (((sm 86).advance T).measure 130 25 = some (18180 * 256, 13550 * 256))) ∧
    (((sm 10).works domVOTE = true) ∧ (((sm 10).mcell 130).scan = some (sc 10)) ∧
      (scanTime (sc 10) ≤ max (sm 10).now T) ∧ (2 ≤ 40) ∧ ((sc 10).next = 6 + 2 * 2) ∧
      (((sm 10).advance T).measure 130 25 = some (18180 * 256, 13550 * 256))) ∧
    (((sq 86).works domVOTE = true) ∧ (((sq 86).mcell 130).scan = some (sc 86)) ∧ ((sc 86).next < 87)) ∧
    (((sq 87).works domVOTE = true) ∧ (((sq 87).mcell 130).scan = some (sc 87)) ∧ (87 ≤ (sc 87).next)) ∧
    ((a26.isOn domMGMT = true) ∧ (a26.isOn domVOTE = false) ∧
      (Instr.scanCell T 1 130 ∈ [Instr.mpptCmdNone T 1 130, Instr.scanCell T 1 130, Instr.scanCluster T 1 130,
        Instr.cancelScan T 1 130])) ∧
    ((W.isOn domMGMT = true) ∧ (W.cellState 130 ≠ 5) ∧
      ((1, Instr.scanCell T 1 130) ∈ [(1, Instr.scanCell T 1 130), (2, Instr.scanCluster T 1 130), (3,
        Instr.cancelScan T 1 130)]) ∧
      (W.isOn domVOTE = true ∧ W.allows 1 R.MPPT_CMD (mpptCmdWord 130 (1, Instr.scanCell T 1 130).fst)
        (BitVec.allOnes 32) = true)) := by
  decide +kernel

theorem witness_ScansAndMpptCommands_4 :
    ((W.isOn domMGMT = true) ∧
      (W.isOn domVOTE = true ∧ W.allows 1 R.MPPT_CMD (mpptCmdWord 130 0) (BitVec.allOnes 32) = true)) ∧
    ((a27.isOn domMGMT = true) ∧ (a27.cellState 130 = 5) ∧
      (a27.isOn domVOTE = true ∧ a27.allows 1 R.MPPT_CMD (mpptCmdWord 130 1) (BitVec.allOnes 32) = true) ∧
      (∀ (e : Nat × Bool), e ∈ a27.scanQueue (ringOf 130) (a27.phaseOf 130) → e.fst ≠ 130) ∧
      (a27.get (F.MPPT_CELL_STAT_MODE 130) = 2)) ∧
    (((mp { : MpptCell } 3).isOn domMGMT = true) ∧ ((mp { : MpptCell } 3).cellState 130 = 5) ∧
      ((mp { : MpptCell } 3).isOn domVOTE = true ∧ (mp { : MpptCell } 3).allows 1 R.MPPT_CMD (mpptCmdWord 130 1)
        (BitVec.allOnes 32) = true) ∧ ((mp { : MpptCell } 3).get (F.MPPT_CELL_STAT_MODE 130) ≠ 2)) ∧
    ((a28.isOn domMGMT = true) ∧ (a28.cellState 130 = 5) ∧
      (a28.isOn domVOTE = true ∧ a28.allows 1 R.MPPT_CMD (mpptCmdWord 130 2) (BitVec.allOnes 32) = true) ∧
      (130 ∈ cellsOf (ringOf 130)) ∧ (a28.inMap 130 = true) ∧ (a28.get (F.MPPT_CELL_STAT_MODE 130) = 2)) ∧
    (((sq 9).isOn domMGMT = true) ∧ ((sq 9).cellState 130 = 5) ∧
      ((sq 9).isOn domVOTE = true ∧ (sq 9).allows 1 R.MPPT_CMD (mpptCmdWord 130 3) (BitVec.allOnes 32) = true) ∧
      (((sq 9).mcell 130).scan = some (sc 9))) := by
  decide +kernel

end Sys2Proof.Tests.W08

namespace Sys2Proof.Tests.W09

open Sys2Proof Sys2Proof.Machine

set_option Elab.async false

def T : Nat := 8000000000000
def fz (st : Nat) : State := ((W.put (F.FRT_CLU_STAT_STATE 1) st).setLink fun l => { l with frozen := true, cycle := 20 })
def ent (s : State) (e f tt cond act dw : Nat) : State :=
  let tab := s.get (F.FRT_CLU_CFG_TABLE 1)
  ((((s.put (F.TBL_SM_COND_FROM tab e) f).put (F.TBL_SM_COND_TO tab e) tt).put (F.TBL_SM_COND_COND tab e) cond).put (F.TBL_SM_ACT_ACTION tab e) act).put (F.TBL_SM_ACT_DWELL tab e) dw
def E (e tt cond act dw : Nat) : SmEntry := { e := e, to_ := tt, cond := cond, neg := false, thr := 0, dwell := dw * (uMs / 10), act := act }
def ev : State := ent (ent (fz 0) 0 15 7 18 3 0) 1 0 8 1 2 0
def es : State := ent ((fz 8).put (F.FRT_CLU_STAT_PEND 1) 4) 2 8 7 24 0 5
def fA : State := (((fz 0).put (F.GRID_PT_STAT_SOURCE ((fz 0).syncPt 1)) 0).put (F.CELL_STATE_STATE 130) 5).put (F.CELL_CFG_IN_MAP 130) 1
def is (x : IslSt) : State := W.setIsl x
def ch (b : Bool) (l : Nat) : List Chip := (List.range l).map fun (j : Nat) => { sign := if j % 3 = 0 then 1 else -1, vd := j * 400, vq := 7, id := j * 3, iq := 0, fit := b }
def eb : State := ent (ent (fz 7) 0 7 0 1 4 0) 1 7 8 1 0 0
def a1 : List SmEntry := [E 0 7 18 3 0]
def a2 : SmEntry := E 1 8 1 2 0
def a3 : List SmEntry := []
def a4 : State := (ev.put (F.RING_HALT_STAT_HALT_ACTIVE 1) 1).setLink fun l => { l with cycle := 21 }
def a5 : SmEntry := E 0 7 18 3 0
def a6 : State := es.setFclu 1 { held := [(2, some T)] }
def a7 : SmEntry := E 2 7 24 0 5
def a8 : State := (fz 0).put (F.GRID_PT_STAT_SOURCE ((fz 0).syncPt 1)) 3 |>.setFclu 1 { noneAt := some (T - 20*uMs)}
def a9 : State := ((fz 0).setFclu 1 { idle := 1 })
def a10 : State := fA.setLink fun l => { l with cycle := 21 }
def a11 : State := W.put (F.PWR_STATE 5) 0
def a12 : State := (W.put (F.FRT_CLU_STAT_PEND 1) 2).setFclu 1 { cmdAt := T }
def a13 : State := W.put F.ISL_STAT_PASSIVE 1
def a14 : State := is { shift := true }
def a15 : State := is { quietAt := some T }
def a16 : State := (is { quietAt := some T }).put F.ISL_STAT_PASSIVE 1
def a17 : State := is { chip := 25000 }
def a18 : State := is { chip := 24999 }
def a19 : State := is { chip := 24990 }
def a20 : State := is { since := 3 }
def a21 : State := is { since := 4, chips := ch true 15 }
def a22 : State := is { since := 4, chips := ch false 16 }
def a23 : State := (is { since := 4, chips := ch true 16, above := 1 }).put F.ISL_ACT_CFG_ZTH 0 |>.put (F.GRID_PT_VNOM_VNOM (W.get F.ISL_CFG_PT)) 100
def a24 : State := (is { since := 4, chips := ch true 16, below := 3 }).put F.ISL_ACT_CFG_ZTH 0xFFF |>.put F.ISL_STAT_ACTIVE 1
def a25 : List SmEntry := [E 0 0 1 4 0]
def a26 : SmEntry := E 1 8 1 0 0

theorem witness_RideThroughEvaluations :
    ((W.works domVOTE = true) ∧
      (W.link.frozen = false ∨ W.link.cycle % max 1 (W.get F.FRT_CFG_EVAL_DIV) ≠ 0 ∨ (W.fclu 1).evalK = some
        W.link.cycle)) ∧
    (((fz 0).works domVOTE = true) ∧
      ((fz 0).link.frozen = false ∨ (fz 0).link.cycle % max 1 ((fz 0).get F.FRT_CFG_EVAL_DIV) = 0 ∨ ((fz 0).fclu
        1).scanK = some (fz 0).link.cycle)) ∧
    ((ev.works domVOTE = true) ∧ (ev.link.frozen = true) ∧
      (ev.link.cycle % max 1 (ev.get F.FRT_CFG_EVAL_DIV) = 0 ↔ true = true) ∧
      ((if true = true then (ev.fclu 1).evalK else (ev.fclu 1).scanK) ≠ some ev.link.cycle) ∧
      ((if true = true then ev.smEntries (ev.get (F.FRT_CLU_CFG_TABLE 1)) (ev.frtState 1) else List.filter (fun x =>
        fastCond x.cond) (ev.smEntries (ev.get (F.FRT_CLU_CFG_TABLE 1)) (ev.frtState 1))) = a1 ++ a2 :: a3) ∧
      (∀ (y : SmEntry), y ∈ a1 → ¬((if true = true then (ev.advance T).takeU 1 else ev.advance T).frtCond 1 y.cond
        y.thr ≠ y.neg ∧ ((ev.fclu 1).held.get y.e).getD (max ev.now T) + y.dwell ≤ max ev.now T ∧ y.to_ ≠ ev.frtState
        1 ∧ (ev.frtState 1 = 8 → y.cond = 24 ∧ y.neg = false)) ∨ bit y.act 2 = true ∧ ((if true = true then
        (ev.advance T).takeU 1 else ev.advance T).startBar 1 ≠ none ∨ (if true = true then (ev.advance T).takeU 1
        else ev.advance T).anyRunning = false ∧ (if true = true then (ev.advance T).takeU 1 else ev.advance
        T).feasible = none)) ∧
      ((if true = true then (ev.advance T).takeU 1 else ev.advance T).frtCond 1 a2.cond a2.thr ≠ a2.neg ∧ ((ev.fclu
        1).held.get a2.e).getD (max ev.now T) + a2.dwell ≤ max ev.now T ∧ a2.to_ ≠ ev.frtState 1 ∧ (ev.frtState 1 = 8
        → a2.cond = 24 ∧ a2.neg = false)) ∧
      (¬(bit a2.act 2 = true ∧ ((if true = true then (ev.advance T).takeU 1 else ev.advance T).startBar 1 ≠ none ∨
        (if true = true then (ev.advance T).takeU 1 else ev.advance T).anyRunning = false ∧ (if true = true then
        (ev.advance T).takeU 1 else ev.advance T).feasible = none)))) ∧
    ((a4.works domVOTE = true) ∧ (a4.link.frozen = true) ∧
      (a4.link.cycle % max 1 (a4.get F.FRT_CFG_EVAL_DIV) = 0 ↔ false = true) ∧
      ((if false = true then (a4.fclu 1).evalK else (a4.fclu 1).scanK) ≠ some a4.link.cycle) ∧
      ((if false = true then a4.smEntries (a4.get (F.FRT_CLU_CFG_TABLE 1)) (a4.frtState 1) else List.filter (fun x =>
        fastCond x.cond) (a4.smEntries (a4.get (F.FRT_CLU_CFG_TABLE 1)) (a4.frtState 1))) = a3 ++ a5 :: a3) ∧
      (∀ (y : SmEntry), y ∈ a3 → ¬((if false = true then (a4.advance T).takeU 1 else a4.advance T).frtCond 1 y.cond
        y.thr ≠ y.neg ∧ ((a4.fclu 1).held.get y.e).getD (max a4.now T) + y.dwell ≤ max a4.now T ∧ y.to_ ≠ a4.frtState
        1 ∧ (a4.frtState 1 = 8 → y.cond = 24 ∧ y.neg = false)) ∨ bit y.act 2 = true ∧ ((if false = true then
        (a4.advance T).takeU 1 else a4.advance T).startBar 1 ≠ none ∨ (if false = true then (a4.advance T).takeU 1
        else a4.advance T).anyRunning = false ∧ (if false = true then (a4.advance T).takeU 1 else a4.advance
        T).feasible = none)) ∧
      ((if false = true then (a4.advance T).takeU 1 else a4.advance T).frtCond 1 a5.cond a5.thr ≠ a5.neg ∧ ((a4.fclu
        1).held.get a5.e).getD (max a4.now T) + a5.dwell ≤ max a4.now T ∧ a5.to_ ≠ a4.frtState 1 ∧ (a4.frtState 1 = 8
        → a5.cond = 24 ∧ a5.neg = false)) ∧
      (¬(bit a5.act 2 = true ∧ ((if false = true then (a4.advance T).takeU 1 else a4.advance T).startBar 1 ≠ none ∨
        (if false = true then (a4.advance T).takeU 1 else a4.advance T).anyRunning = false ∧ (if false = true then
        (a4.advance T).takeU 1 else a4.advance T).feasible = none)))) ∧
    ((a6.works domVOTE = true) ∧ (a6.link.frozen = true) ∧
      (a6.link.cycle % max 1 (a6.get F.FRT_CFG_EVAL_DIV) = 0 ↔ true = true) ∧
      ((if true = true then (a6.fclu 1).evalK else (a6.fclu 1).scanK) ≠ some a6.link.cycle) ∧
      ((if true = true then a6.smEntries (a6.get (F.FRT_CLU_CFG_TABLE 1)) (a6.frtState 1) else List.filter (fun x =>
        fastCond x.cond) (a6.smEntries (a6.get (F.FRT_CLU_CFG_TABLE 1)) (a6.frtState 1))) = a3 ++ a7 :: a3) ∧
      (∀ (y : SmEntry), y ∈ a3 → ¬((if true = true then (a6.advance (T + uMs)).takeU 1 else a6.advance (T +
        uMs)).frtCond 1 y.cond y.thr ≠ y.neg ∧ ((a6.fclu 1).held.get y.e).getD (max a6.now (T + uMs)) + y.dwell ≤ max
        a6.now (T + uMs) ∧ y.to_ ≠ a6.frtState 1 ∧ (a6.frtState 1 = 8 → y.cond = 24 ∧ y.neg = false)) ∨ bit y.act 2 =
        true ∧ ((if true = true then (a6.advance (T + uMs)).takeU 1 else a6.advance (T + uMs)).startBar 1 ≠ none ∨
        (if true = true then (a6.advance (T + uMs)).takeU 1 else a6.advance (T + uMs)).anyRunning = false ∧ (if true
        = true then (a6.advance (T + uMs)).takeU 1 else a6.advance (T + uMs)).feasible = none)) ∧
      ((if true = true then (a6.advance (T + uMs)).takeU 1 else a6.advance (T + uMs)).frtCond 1 a7.cond a7.thr ≠
        a7.neg ∧ ((a6.fclu 1).held.get a7.e).getD (max a6.now (T + uMs)) + a7.dwell ≤ max a6.now (T + uMs) ∧ a7.to_ ≠
        a6.frtState 1 ∧ (a6.frtState 1 = 8 → a7.cond = 24 ∧ a7.neg = false)) ∧
      (¬(bit a7.act 2 = true ∧ ((if true = true then (a6.advance (T + uMs)).takeU 1 else a6.advance (T +
        uMs)).startBar 1 ≠ none ∨ (if true = true then (a6.advance (T + uMs)).takeU 1 else a6.advance (T +
        uMs)).anyRunning = false ∧ (if true = true then (a6.advance (T + uMs)).takeU 1 else a6.advance (T +
        uMs)).feasible = none)))) ∧
    ((a8.works domVOTE = true) ∧ (a8.link.frozen = true) ∧
      (a8.link.cycle % max 1 (a8.get F.FRT_CFG_EVAL_DIV) = 0 ↔ true = true) ∧
      ((if true = true then (a8.fclu 1).evalK else (a8.fclu 1).scanK) ≠ some a8.link.cycle) ∧
      (∀ (y : SmEntry), (y ∈ if true = true then a8.smEntries (a8.get (F.FRT_CLU_CFG_TABLE 1)) (a8.frtState 1) else
        List.filter (fun x => fastCond x.cond) (a8.smEntries (a8.get (F.FRT_CLU_CFG_TABLE 1)) (a8.frtState 1))) →
        ¬(if true = true then (a8.advance T).takeU 1 else a8.advance T).frtCond 1 y.cond y.thr ≠ y.neg) ∧
      (a8.frtState 1 < 7 ∧ ((true = true ∧ a8.cluActive 1 = false ∧ (a8.advance T).inStart 1 = false) ∧ 1 ≤ (a8.fclu
        1).idle ∨ (true = true ∧ a8.source (a8.syncPt 1) = 3) ∧ (a8.fclu 1).noneAt.getD (max a8.now T) + 20 * uMs ≤
        max a8.now T))) := by
  and_intros
  all_goals first
    | decide +kernel
    | exact all_some (by decide +kernel)
    | exact not_all_some (by decide +kernel)
    | exact ex_some (by decide +kernel)
    | (intro j k; exact nofun)

theorem witness_RideThroughEvaluations_2 :
    ((a9.works domVOTE = true) ∧ (a9.link.frozen = true) ∧
      (a9.link.cycle % max 1 (a9.get F.FRT_CFG_EVAL_DIV) = 0 ↔ true = true) ∧
      ((if true = true then (a9.fclu 1).evalK else (a9.fclu 1).scanK) ≠ some a9.link.cycle) ∧
      (∀ (y : SmEntry), (y ∈ if true = true then a9.smEntries (a9.get (F.FRT_CLU_CFG_TABLE 1)) (a9.frtState 1) else
        List.filter (fun x => fastCond x.cond) (a9.smEntries (a9.get (F.FRT_CLU_CFG_TABLE 1)) (a9.frtState 1))) →
        ¬(if true = true then (a9.advance T).takeU 1 else a9.advance T).frtCond 1 y.cond y.thr ≠ y.neg) ∧
      (a9.frtState 1 < 7 ∧ ((true = true ∧ a9.cluActive 1 = false ∧ (a9.advance T).inStart 1 = false) ∧ 1 ≤ (a9.fclu
        1).idle ∨ (true = true ∧ a9.source (a9.syncPt 1) = 3) ∧ (a9.fclu 1).noneAt.getD (max a9.now T) + 20 * uMs ≤
        max a9.now T))) ∧
    (((fz 7).works domVOTE = true) ∧ ((fz 7).link.frozen = true) ∧
      ((fz 7).link.cycle % max 1 ((fz 7).get F.FRT_CFG_EVAL_DIV) = 0 ↔ true = true) ∧
      ((if true = true then ((fz 7).fclu 1).evalK else ((fz 7).fclu 1).scanK) ≠ some (fz 7).link.cycle) ∧
      (∀ (y : SmEntry), (y ∈ if true = true then (fz 7).smEntries ((fz 7).get (F.FRT_CLU_CFG_TABLE 1)) ((fz
        7).frtState 1) else List.filter (fun x => fastCond x.cond) ((fz 7).smEntries ((fz 7).get (F.FRT_CLU_CFG_TABLE
        1)) ((fz 7).frtState 1))) → ¬(if true = true then ((fz 7).advance T).takeU 1 else (fz 7).advance T).frtCond 1
        y.cond y.thr ≠ y.neg) ∧
      (¬((fz 7).frtState 1 < 7 ∧ ((true = true ∧ (fz 7).cluActive 1 = false ∧ ((fz 7).advance T).inStart 1 = false) ∧
        1 ≤ ((fz 7).fclu 1).idle ∨ (true = true ∧ (fz 7).source ((fz 7).syncPt 1) = 3) ∧ ((fz 7).fclu 1).noneAt.getD
        (max (fz 7).now T) + 20 * uMs ≤ max (fz 7).now T)))) ∧
    ((fA.works domVOTE = true) ∧ (fA.link.frozen = true) ∧
      (fA.link.cycle % max 1 (fA.get F.FRT_CFG_EVAL_DIV) = 0 ↔ true = true) ∧
      ((if true = true then (fA.fclu 1).evalK else (fA.fclu 1).scanK) ≠ some fA.link.cycle) ∧
      (∀ (y : SmEntry), (y ∈ if true = true then fA.smEntries (fA.get (F.FRT_CLU_CFG_TABLE 1)) (fA.frtState 1) else
        List.filter (fun x => fastCond x.cond) (fA.smEntries (fA.get (F.FRT_CLU_CFG_TABLE 1)) (fA.frtState 1))) →
        ¬(if true = true then (fA.advance T).takeU 1 else fA.advance T).frtCond 1 y.cond y.thr ≠ y.neg) ∧
      (¬(fA.frtState 1 < 7 ∧ ((true = true ∧ fA.cluActive 1 = false ∧ (fA.advance T).inStart 1 = false) ∧ 1 ≤
        (fA.fclu 1).idle ∨ (true = true ∧ fA.source (fA.syncPt 1) = 3) ∧ (fA.fclu 1).noneAt.getD (max fA.now T) + 20
        * uMs ≤ max fA.now T)))) ∧
    ((a10.works domVOTE = true) ∧ (a10.link.frozen = true) ∧
      (a10.link.cycle % max 1 (a10.get F.FRT_CFG_EVAL_DIV) = 0 ↔ false = true) ∧
      ((if false = true then (a10.fclu 1).evalK else (a10.fclu 1).scanK) ≠ some a10.link.cycle) ∧
      (∀ (y : SmEntry), (y ∈ if false = true then a10.smEntries (a10.get (F.FRT_CLU_CFG_TABLE 1)) (a10.frtState 1)
        else List.filter (fun x => fastCond x.cond) (a10.smEntries (a10.get (F.FRT_CLU_CFG_TABLE 1)) (a10.frtState
        1))) → ¬(if false = true then (a10.advance T).takeU 1 else a10.advance T).frtCond 1 y.cond y.thr ≠ y.neg) ∧
      (¬(a10.frtState 1 < 7 ∧ ((false = true ∧ a10.cluActive 1 = false ∧ (a10.advance T).inStart 1 = false) ∧ 1 ≤
        (a10.fclu 1).idle ∨ (false = true ∧ a10.source (a10.syncPt 1) = 3) ∧ (a10.fclu 1).noneAt.getD (max a10.now T)
        + 20 * uMs ≤ max a10.now T)))) ∧
    ((eb.works domVOTE = true) ∧ (eb.link.frozen = true) ∧
      (eb.link.cycle % max 1 (eb.get F.FRT_CFG_EVAL_DIV) = 0 ↔ true = true) ∧
      ((if true = true then (eb.fclu 1).evalK else (eb.fclu 1).scanK) ≠ some eb.link.cycle) ∧
      ((if true = true then eb.smEntries (eb.get (F.FRT_CLU_CFG_TABLE 1)) (eb.frtState 1) else List.filter (fun x =>
        fastCond x.cond) (eb.smEntries (eb.get (F.FRT_CLU_CFG_TABLE 1)) (eb.frtState 1))) = a25 ++ a26 :: a3) ∧
      (∀ (y : SmEntry), y ∈ a25 → ¬((if true = true then (eb.advance T).takeU 1 else eb.advance T).frtCond 1 y.cond
        y.thr ≠ y.neg ∧ ((eb.fclu 1).held.get y.e).getD (max eb.now T) + y.dwell ≤ max eb.now T ∧ y.to_ ≠ eb.frtState
        1 ∧ (eb.frtState 1 = 8 → y.cond = 24 ∧ y.neg = false)) ∨ bit y.act 2 = true ∧ ((if true = true then
        (eb.advance T).takeU 1 else eb.advance T).startBar 1 ≠ none ∨ (if true = true then (eb.advance T).takeU 1
        else eb.advance T).anyRunning = false ∧ (if true = true then (eb.advance T).takeU 1 else eb.advance
        T).feasible = none)) ∧
      ((if true = true then (eb.advance T).takeU 1 else eb.advance T).frtCond 1 a26.cond a26.thr ≠ a26.neg ∧
        ((eb.fclu 1).held.get a26.e).getD (max eb.now T) + a26.dwell ≤ max eb.now T ∧ a26.to_ ≠ eb.frtState 1 ∧
        (eb.frtState 1 = 8 → a26.cond = 24 ∧ a26.neg = false)) ∧
      (¬(bit a26.act 2 = true ∧ ((if true = true then (eb.advance T).takeU 1 else eb.advance T).startBar 1 ≠ none ∨
        (if true = true then (eb.advance T).takeU 1 else eb.advance T).anyRunning = false ∧ (if true = true then
        (eb.advance T).takeU 1 else eb.advance T).feasible = none)))) := by
  and_intros
  all_goals first
    | decide +kernel
    | exact all_some (by decide +kernel)
    | exact not_all_some (by decide +kernel)
    | exact ex_some (by decide +kernel)
    | (intro j k; exact nofun)

theorem witness_RideThroughCommandsAndIslanding :
    ((a11.isOn domMGMT = true) ∧
      ((0, Instr.frtCmdNone T 1 1) ∈ [(0, Instr.frtCmdNone T 1 1), (1, Instr.frtCmdStart T 1 1), (2, Instr.frtCmdStop
        T 1 1), (3, Instr.frtCmdReset T 1 1)]) ∧ (a11.isOn domVOTE = false)) ∧
    (((fz 0).isOn domMGMT = true) ∧
      ((1, Instr.frtCmdStart T 1 1) ∈ [(0, Instr.frtCmdNone T 1 1), (1, Instr.frtCmdStart T 1 1), (2,
        Instr.frtCmdStop T 1 1), (3, Instr.frtCmdReset T 1 1)]) ∧ ((fz 0).isOn domVOTE = true) ∧
      ((fz 0).allows 1 (R.FRT_CLU_CMD 1) (BitVec.ofNat 32 (1, Instr.frtCmdStart T 1 1).fst) (BitVec.allOnes 32) =
        true) ∧
      (¬((1, Instr.frtCmdStart T 1 1).fst = 0 ∨ (1, Instr.frtCmdStart T 1 1).fst = 1 ∧ (fz 0).frtState 1 = 7 ∨ (1,
        Instr.frtCmdStart T 1 1).fst = 2 ∧ (fz 0).frtState 1 < 7 ∨ (1, Instr.frtCmdStart T 1 1).fst = 3 ∧ (fz
        0).frtState 1 = 8))) ∧
    (((fz 0).isOn domMGMT = true) ∧
      ((0, Instr.frtCmdNone T 1 1) ∈ [(0, Instr.frtCmdNone T 1 1), (1, Instr.frtCmdStart T 1 1), (2, Instr.frtCmdStop
        T 1 1), (3, Instr.frtCmdReset T 1 1)]) ∧ ((fz 0).isOn domVOTE = true) ∧
      ((fz 0).allows 1 (R.FRT_CLU_CMD 1) (BitVec.ofNat 32 (0, Instr.frtCmdNone T 1 1).fst) (BitVec.allOnes 32) =
        true) ∧
      ((0, Instr.frtCmdNone T 1 1).fst = 0 ∨ (0, Instr.frtCmdNone T 1 1).fst = 1 ∧ (fz 0).frtState 1 = 7 ∨ (0,
        Instr.frtCmdNone T 1 1).fst = 2 ∧ (fz 0).frtState 1 < 7 ∨ (0, Instr.frtCmdNone T 1 1).fst = 3 ∧ (fz
        0).frtState 1 = 8)) ∧
    (((fz 7).isOn domMGMT = true) ∧
      ((1, Instr.frtCmdStart T 1 1) ∈ [(0, Instr.frtCmdNone T 1 1), (1, Instr.frtCmdStart T 1 1), (2,
        Instr.frtCmdStop T 1 1), (3, Instr.frtCmdReset T 1 1)]) ∧ ((fz 7).isOn domVOTE = true) ∧
      ((fz 7).allows 1 (R.FRT_CLU_CMD 1) (BitVec.ofNat 32 (1, Instr.frtCmdStart T 1 1).fst) (BitVec.allOnes 32) =
        true) ∧
      ((1, Instr.frtCmdStart T 1 1).fst = 0 ∨ (1, Instr.frtCmdStart T 1 1).fst = 1 ∧ (fz 7).frtState 1 = 7 ∨ (1,
        Instr.frtCmdStart T 1 1).fst = 2 ∧ (fz 7).frtState 1 < 7 ∨ (1, Instr.frtCmdStart T 1 1).fst = 3 ∧ (fz
        7).frtState 1 = 8)) ∧
    (((fz 0).isOn domMGMT = true) ∧
      ((2, Instr.frtCmdStop T 1 1) ∈ [(0, Instr.frtCmdNone T 1 1), (1, Instr.frtCmdStart T 1 1), (2, Instr.frtCmdStop
        T 1 1), (3, Instr.frtCmdReset T 1 1)]) ∧ ((fz 0).isOn domVOTE = true) ∧
      ((fz 0).allows 1 (R.FRT_CLU_CMD 1) (BitVec.ofNat 32 (2, Instr.frtCmdStop T 1 1).fst) (BitVec.allOnes 32) =
        true) ∧
      ((2, Instr.frtCmdStop T 1 1).fst = 0 ∨ (2, Instr.frtCmdStop T 1 1).fst = 1 ∧ (fz 0).frtState 1 = 7 ∨ (2,
        Instr.frtCmdStop T 1 1).fst = 2 ∧ (fz 0).frtState 1 < 7 ∨ (2, Instr.frtCmdStop T 1 1).fst = 3 ∧ (fz
        0).frtState 1 = 8)) ∧
    (((fz 8).isOn domMGMT = true) ∧
      ((3, Instr.frtCmdReset T 1 1) ∈ [(0, Instr.frtCmdNone T 1 1), (1, Instr.frtCmdStart T 1 1), (2,
        Instr.frtCmdStop T 1 1), (3, Instr.frtCmdReset T 1 1)]) ∧ ((fz 8).isOn domVOTE = true) ∧
      ((fz 8).allows 1 (R.FRT_CLU_CMD 1) (BitVec.ofNat 32 (3, Instr.frtCmdReset T 1 1).fst) (BitVec.allOnes 32) =
        true) ∧
      ((3, Instr.frtCmdReset T 1 1).fst = 0 ∨ (3, Instr.frtCmdReset T 1 1).fst = 1 ∧ (fz 8).frtState 1 = 7 ∨ (3,
        Instr.frtCmdReset T 1 1).fst = 2 ∧ (fz 8).frtState 1 < 7 ∨ (3, Instr.frtCmdReset T 1 1).fst = 3 ∧ (fz
        8).frtState 1 = 8)) := by
  and_intros
  all_goals first
    | decide +kernel
    | exact all_some (by decide +kernel)
    | exact not_all_some (by decide +kernel)
    | exact ex_some (by decide +kernel)
    | (intro j k; exact nofun)

theorem witness_RideThroughCommandsAndIslanding_2 :
    ((W.works domVOTE = true) ∧ (W.get (F.FRT_CLU_STAT_PEND 1) = 0 ∨ max W.now T < (W.fclu 1).cmdAt + 10 * uS)) ∧
    ((a12.works domVOTE = true) ∧ (a12.get (F.FRT_CLU_STAT_PEND 1) ≠ 0) ∧
      ((a12.fclu 1).cmdAt + 10 * uS ≤ max a12.now (T + 10 * uS))) ∧
    ((a13.works domVOTE = true) ∧ (a13.works domPBUS = true) ∧ (a13.get F.ISL_STAT_PASSIVE = 1)) ∧
    ((a14.works domVOTE = true) ∧ (a14.works domPBUS = true) ∧ (a14.get F.ISL_STAT_PASSIVE = 0) ∧
      (a14.isl.shift = true ∨ ∃ r, a14.isl.rocofAt = some r ∧ r + a14.get F.ISL_PASSIVE_PDWELL * 10 * uMs ≤ max
        a14.now T)) ∧
    ((a15.works domVOTE = true) ∧ (a15.works domPBUS = true) ∧ (a15.isl.quietAt = some T) ∧
      (max a15.now T < T + 2 * uS)) ∧
    ((a16.works domVOTE = true) ∧ (a16.works domPBUS = true) ∧ (a16.isl.quietAt = some T) ∧
      (T + 2 * uS ≤ max a16.now (T + 2 * uS))) := by
  decide +kernel

theorem witness_RideThroughCommandsAndIslanding_3 :
    ((a17.works domVOTE = true) ∧ (a17.works domPBUS = true) ∧
      (a17.isl.chip = chipOf a17.fnom (a17.advance T).mtUnits)) ∧
    ((a18.works domVOTE = true) ∧ (a18.works domPBUS = true) ∧
      (a18.isl.chip ≠ chipOf a18.fnom (a18.advance T).mtUnits)) ∧
    ((a19.works domVOTE = true) ∧ (a19.works domPBUS = true) ∧
      (a19.isl.chip ≠ chipOf a19.fnom (a19.advance T).mtUnits)) ∧
    ((a20.works domVOTE = true) ∧ (a20.works domPBUS = true) ∧ (a20.isl.since < 4)) ∧
    ((a21.works domVOTE = true) ∧ (a21.works domPBUS = true) ∧ (4 ≤ a21.isl.since) ∧
      (a21.isl.chips.length < 16 ∨ ∃ h, h ∈ a21.isl.chips ∧ h.fit = false)) ∧
    ((a22.works domVOTE = true) ∧ (a22.works domPBUS = true) ∧ (4 ≤ a22.isl.since) ∧
      (a22.isl.chips.length < 16 ∨ ∃ h, h ∈ a22.isl.chips ∧ h.fit = false)) := by
  decide +kernel

theorem witness_RideThroughCommandsAndIslanding_4 :
    ((a23.works domVOTE = true) ∧ (a23.works domPBUS = true) ∧ (4 ≤ a23.isl.since) ∧ (16 ≤ a23.isl.chips.length) ∧
      (∀ (h : Chip), h ∈ a23.isl.chips → h.fit = true)) ∧
    ((a24.works domVOTE = true) ∧ (a24.works domPBUS = true) ∧ (4 ≤ a24.isl.since) ∧ (16 ≤ a24.isl.chips.length) ∧
      (∀ (h : Chip), h ∈ a24.isl.chips → h.fit = true)) := by
  decide +kernel

end Sys2Proof.Tests.W09

namespace Sys2Proof.Tests.W10

open Sys2Proof Sys2Proof.Machine

set_option Elab.async false

def T : Nat := 8000000000000
def up (k : Nat) : State := W.put (F.PB_PORT_STAT_LINK k) 1
def P0 : Fin 4 := 0
def cg : State := (W.setPins fun p => { p with cage := (p.cage.set 17 { p.cage.get 17 with enabledAt := some 5 }) })
def hd : EthHead := { port := 0, fcsOk := true, rct := some (false, 7), src := 0x10, dst := 0x10000000000, alone := false, sup := false }
def gq : Quality := { validity := 0, test := false, overflow := false, outOfRange := false, inconsistent := false }
def asdu (n : Nat) : SvAsdu := { svId := [1,2], confRev := 1, smpCnt := n, smpSynch := 2, gmId := none, chans := [(5, gq)] }
def sf : SvFrame := { head := hd, appId := 0, sim := false, noAsdu := 1, asdus := [asdu 7], raw := [] }
def sb : State := ((((((up 0).put (F.SV_SUB_CFG_EN 3) 1).put (F.SV_SUB_CFG_PAIR 3) 0).setWord (R.SV_SUB_DST_HI 3) 0x100#32).setWord (R.SV_SUB_SRC_LO 3) 0x10#32).put (F.SV_SUB_CFG_NASDU 3) 0).put (F.SV_SUB_CFG_NCH 3) 0 |>.setSvSub 3 { svId := [1,2] }
def sbg : State := (((sb.put F.TIME_STATUS_STATE 2).put (F.GRID_PT_SRC_SUB 0) 3).put (F.GRID_PT_VNOM_VNOM 0) 100).put (F.GRID_PT_SRC_SV_EN 0) 1
def gf : GooseFrame := { head := hd, appId := 0, sim := false, test := false, ndsCom := false, ref := [9], datSet := [8], confRev := 1, entries := 1, stNum := 5, sqNum := 6, tal := 100, members := [.int 77], raw := [] }
def gs : State := ((((((up 0).put (F.GOOSE_SUB_CFG_EN 3) 1).put (F.GOOSE_SUB_CFG_PAIR 3) 0).setWord (R.GOOSE_SUB_DST_HI 3) 0x100#32).setWord (R.GOOSE_SUB_SRC_LO 3) 0x10#32).put (F.GOOSE_SUB_CFG_NMEM 3) 0).setGSub 3 { ref := [9], datSet := [8] }
def gv : State := ((gs.put (F.GOOSE_VAL_MAP_SUB 40) 3).put (F.GOOSE_VAL_MAP_TYPE 40) 2)
def gp : State := (((W.put (F.GOOSE_PUB_CFG_EN 5) 1).put F.VOTE_STATUS_VL2_OK 1).put F.LANE_STATUS_MODE 1).setBus fun b => { b with gpub := [(5, { vals := some [.int 3], next := some T, step := 4 })] }
def sp : State := ((W.put (F.SV_PUB_CFG_EN 5) 1).put F.VOTE_STATUS_VL2_OK 1).put F.LANE_STATUS_MODE 1
def a1 : State := ((up 1).put (F.PB_RED_STAT_B_OK 0) 1).put F.PB_CFG_MODE 1
def a2 : State := (up 2).put (F.PB_RED_STAT_A_OK 1) 1
def a3 : State := W.setBus fun b => { b with lastRx := [(1, some T)] }
def a4 : State := (W.put (F.PB_RED_STAT_B_OK 0) 1).setBus fun b => { b with lastRx := [(0, some (T+1)), (1, some T)] }
def a5 : State := W.put F.PB_CFG_MODE 1
def a6 : SvFrame := { sf with head := { hd with fcsOk := false } }
def a7 : State := (up 0).setBus fun b => { b with seen := [{ pair := 0, src := 0x10, seqs := [(7, T)] }] }
def a8 : SvFrame := { sf with head := { hd with rct := some (true, 9) } }
def a9 : SvFrame := { sf with head := { hd with src := 0x11, rct := none } }
def a10 : SvFrame := { sf with sim := true }
def a11 : SvFrame := { sf with noAsdu := 2 }
def a12 : SvFrame := { sf with asdus := [{ asdu 7 with confRev := 3 }] }
def a13 : SvFrame := { sf with asdus := [{ asdu 7 with smpSynch := 1 }] }
def a14 : State := sb.put F.TIME_STATUS_STATE 2
def a15 : SvFrame := { sf with asdus := [asdu 7] }
def a16 : State := (sb.setSvSub 3 { lastAt := some T })
def a17 : State := (sb.setSvSub 3 { lastAt := some T }).put (F.SV_SUB_STAT_STATE 3) 3
def a18 : GooseFrame := { gf with appId := 3 }
def a19 : State := (gv.put (F.GOOSE_VAL_DATA_VALID 40) 1)
def a20 : GooseFrame := { gf with confRev := 3 }
def a21 : State := (gs.put (F.GOOSE_SUB_STAT_VALID 3) 1).put (F.GOOSE_SUB_STNUM_NUM 3) 6
def a22 : GooseFrame := { gf with test := true }
def a23 : State := gv.put (F.GOOSE_SUB_STAT_VALID 3) 1
def a24 : State := { gp with now := 0 }
def a25 : List GMember := [.int 3]
def a26 : State := gp.put (F.GOOSE_PUB_CFG_T0 5) 3
def a27 : State := sp.setBus fun b => { b with pub := [(5, { lastTs := some (T + 5*uMs)})] }

theorem witness_BusPortsAndSamples :
    ((a1.works domPBUS = true)) ∧
    ((a2.works domPBUS = true)) ∧
    ((W.works domPBUS = true) ∧ (W.cageOk (16 + 1) = false)) ∧
    ((cg.works domPBUS = true) ∧ (cg.cageOk (16 + 1) = true)) ∧
    ((a3.works domPBUS = true) ∧ (a3.bus.lastRx.get 1 = some T) ∧ (max a3.now T < T + 100 * uMs)) ∧
    ((a4.works domPBUS = true) ∧ (a4.bus.lastRx.get 1 = some T) ∧ (T + 100 * uMs ≤ max a4.now (T + 100 * uMs)) ∧
      ((a4.advance (T + 100 * uMs)).heard (1 / 2 * 2 + (1 - 1 % 2)) = true)) := by
  decide +kernel

theorem witness_BusPortsAndSamples_2 :
    ((W.works domPBUS = true) ∧ (W.get F.PB_CFG_MODE = 0 ∨ (W.advance T).hsrFresh = true)) ∧
    ((a5.works domPBUS = true) ∧ (a5.get F.PB_CFG_MODE = 1) ∧ ((a5.advance T).hsrFresh = false)) ∧
    ((W.works domPBUS = true) ∧ (W.get (F.PB_PORT_STAT_LINK 0) = 0 ∨ max W.now T < W.bus.downTo)) ∧
    (((up 0).works domPBUS = true) ∧ ((up 0).get (F.PB_PORT_STAT_LINK 0) = 1) ∧
      ((up 0).bus.downTo ≤ max (up 0).now T) ∧ (a6.head.fcsOk = false)) ∧
    ((a7.works domPBUS = true) ∧ (a7.get (F.PB_PORT_STAT_LINK 0) = 1) ∧ (a7.bus.downTo ≤ max a7.now T) ∧
      (sf.head.fcsOk = true) ∧
      (a7.isHsr (0 / 2) = false ∨ sf.head.src ≠ a7.mac (R.PB_MAC_LO (0 / 2)) (R.PB_MAC_HI (0 / 2))) ∧
      (Option.any (fun x => (a7.advance T).seenSeq (0 / 2) sf.head.src x.snd) sf.head.rct = true)) ∧
    (((up 0).works domPBUS = true) ∧ ((up 0).get (F.PB_PORT_STAT_LINK 0) = 1) ∧
      ((up 0).bus.downTo ≤ max (up 0).now T) ∧ (a8.head.fcsOk = true) ∧
      ((up 0).isHsr (0 / 2) = false ∨ a8.head.src ≠ (up 0).mac (R.PB_MAC_LO (0 / 2)) (R.PB_MAC_HI (0 / 2))) ∧
      (Option.any (fun x => ((up 0).advance T).seenSeq (0 / 2) a8.head.src x.snd) a8.head.rct = false) ∧
      (((up 0).bus.load.get (0 / 2)).fst = ((up 0).advance T).mtUnits / uS → ((up 0).bus.load.get (0 / 2)).snd <
        320000) ∧ (List.filter ((up 0).svOffered a8) (List.range 64) = [])) := by
  decide +kernel

theorem witness_BusPortsAndSamples_3 :
    ((sb.works domPBUS = true) ∧ (sb.get (F.PB_PORT_STAT_LINK 0) = 1) ∧ (sb.bus.downTo ≤ max sb.now T) ∧
      (a9.head.fcsOk = true) ∧
      (sb.isHsr (0 / 2) = false ∨ a9.head.src ≠ sb.mac (R.PB_MAC_LO (0 / 2)) (R.PB_MAC_HI (0 / 2))) ∧
      (Option.any (fun x => (sb.advance T).seenSeq (0 / 2) a9.head.src x.snd) a9.head.rct = false) ∧
      ((sb.bus.load.get (0 / 2)).fst = (sb.advance T).mtUnits / uS → (sb.bus.load.get (0 / 2)).snd < 320000) ∧
      (List.filter (sb.svOffered a9) (List.range 64) = [3]) ∧
      (¬(a9.head.src = sb.mac (R.SV_SUB_SRC_LO 3) (R.SV_SUB_SRC_HI 3) ∧ a9.appId = sb.get (F.SV_SUB_DST_HI_APPID 3)))) ∧
    ((sb.works domPBUS = true) ∧ (sb.get (F.PB_PORT_STAT_LINK 0) = 1) ∧ (sb.bus.downTo ≤ max sb.now T) ∧
      (a10.head.fcsOk = true) ∧
      (sb.isHsr (0 / 2) = false ∨ a10.head.src ≠ sb.mac (R.PB_MAC_LO (0 / 2)) (R.PB_MAC_HI (0 / 2))) ∧
      (Option.any (fun x => (sb.advance T).seenSeq (0 / 2) a10.head.src x.snd) a10.head.rct = false) ∧
      ((sb.bus.load.get (0 / 2)).fst = (sb.advance T).mtUnits / uS → (sb.bus.load.get (0 / 2)).snd < 320000) ∧
      (List.filter (sb.svOffered a10) (List.range 64) = [3]) ∧
      (a10.head.src = sb.mac (R.SV_SUB_SRC_LO 3) (R.SV_SUB_SRC_HI 3) ∧ a10.appId = sb.get (F.SV_SUB_DST_HI_APPID 3)) ∧
      (a10.sim = true) ∧ (sb.get F.PB_CFG_SIM_ACCEPT = 0)) ∧
    ((sb.works domPBUS = true) ∧ (sb.get (F.PB_PORT_STAT_LINK 0) = 1) ∧ (sb.bus.downTo ≤ max sb.now T) ∧
      (a11.head.fcsOk = true) ∧
      (sb.isHsr (0 / 2) = false ∨ a11.head.src ≠ sb.mac (R.PB_MAC_LO (0 / 2)) (R.PB_MAC_HI (0 / 2))) ∧
      (Option.any (fun x => (sb.advance T).seenSeq (0 / 2) a11.head.src x.snd) a11.head.rct = false) ∧
      ((sb.bus.load.get (0 / 2)).fst = (sb.advance T).mtUnits / uS → (sb.bus.load.get (0 / 2)).snd < 320000) ∧
      (List.filter (sb.svOffered a11) (List.range 64) = [3]) ∧
      (a11.head.src = sb.mac (R.SV_SUB_SRC_LO 3) (R.SV_SUB_SRC_HI 3) ∧ a11.appId = sb.get (F.SV_SUB_DST_HI_APPID 3)) ∧
      (a11.sim = false ∧ (sb.get F.PB_CFG_SIM_ACCEPT = 0 ∨ sb.get (F.SV_SUB_STAT_SIM 3) = 0)) ∧
      (¬((∀ (d : SvAsdu), d ∈ a11.asdus → d.confRev = sb.get (F.SV_SUB_CONFREV_CONFREV 3)) ∧ a11.noAsdu = sb.get
        (F.SV_SUB_CFG_NASDU 3) + 1 ∧ a11.asdus.length = a11.noAsdu ∧ ∀ (d : SvAsdu), d ∈ a11.asdus → d.svId =
        (sb.svSub 3).svId ∧ d.chans.length = sb.get (F.SV_SUB_CFG_NCH 3) + 1))) ∧
    ((sb.works domPBUS = true) ∧ (sb.get (F.PB_PORT_STAT_LINK 0) = 1) ∧ (sb.bus.downTo ≤ max sb.now T) ∧
      (a12.head.fcsOk = true) ∧
      (sb.isHsr (0 / 2) = false ∨ a12.head.src ≠ sb.mac (R.PB_MAC_LO (0 / 2)) (R.PB_MAC_HI (0 / 2))) ∧
      (Option.any (fun x => (sb.advance T).seenSeq (0 / 2) a12.head.src x.snd) a12.head.rct = false) ∧
      ((sb.bus.load.get (0 / 2)).fst = (sb.advance T).mtUnits / uS → (sb.bus.load.get (0 / 2)).snd < 320000) ∧
      (List.filter (sb.svOffered a12) (List.range 64) = [3]) ∧
      (a12.head.src = sb.mac (R.SV_SUB_SRC_LO 3) (R.SV_SUB_SRC_HI 3) ∧ a12.appId = sb.get (F.SV_SUB_DST_HI_APPID 3)) ∧
      (a12.sim = false ∧ (sb.get F.PB_CFG_SIM_ACCEPT = 0 ∨ sb.get (F.SV_SUB_STAT_SIM 3) = 0)) ∧
      (¬((∀ (d : SvAsdu), d ∈ a12.asdus → d.confRev = sb.get (F.SV_SUB_CONFREV_CONFREV 3)) ∧ a12.noAsdu = sb.get
        (F.SV_SUB_CFG_NASDU 3) + 1 ∧ a12.asdus.length = a12.noAsdu ∧ ∀ (d : SvAsdu), d ∈ a12.asdus → d.svId =
        (sb.svSub 3).svId ∧ d.chans.length = sb.get (F.SV_SUB_CFG_NCH 3) + 1))) ∧
    ((sb.works domPBUS = true) ∧ (sb.get (F.PB_PORT_STAT_LINK 0) = 1) ∧ (sb.bus.downTo ≤ max sb.now T) ∧
      (a13.head.fcsOk = true) ∧
      (sb.isHsr (0 / 2) = false ∨ a13.head.src ≠ sb.mac (R.PB_MAC_LO (0 / 2)) (R.PB_MAC_HI (0 / 2))) ∧
      (Option.any (fun x => (sb.advance T).seenSeq (0 / 2) a13.head.src x.snd) a13.head.rct = false) ∧
      ((sb.bus.load.get (0 / 2)).fst = (sb.advance T).mtUnits / uS → (sb.bus.load.get (0 / 2)).snd < 320000) ∧
      (List.filter (sb.svOffered a13) (List.range 64) = [3]) ∧
      (a13.head.src = sb.mac (R.SV_SUB_SRC_LO 3) (R.SV_SUB_SRC_HI 3) ∧ a13.appId = sb.get (F.SV_SUB_DST_HI_APPID 3)) ∧
      (a13.sim = false ∧ (sb.get F.PB_CFG_SIM_ACCEPT = 0 ∨ sb.get (F.SV_SUB_STAT_SIM 3) = 0)) ∧
      (∀ (d : SvAsdu), d ∈ a13.asdus → d.confRev = sb.get (F.SV_SUB_CONFREV_CONFREV 3)) ∧
      (a13.noAsdu = sb.get (F.SV_SUB_CFG_NASDU 3) + 1 ∧ a13.asdus.length = a13.noAsdu ∧ ∀ (d : SvAsdu), d ∈ a13.asdus
        → d.svId = (sb.svSub 3).svId ∧ d.chans.length = sb.get (F.SV_SUB_CFG_NCH 3) + 1) ∧
      (¬∀ (d : SvAsdu), d ∈ a13.asdus → (d.smpSynch = 2 ∨ d.smpSynch = 1 ∧ sb.get (F.SV_SUB_CFG_SYNCH_LOCAL 3) = 1) ∧
        (d.gmId = none ∨ d.gmId = some (sb.get64 R.PTP_GM_ID_LO R.PTP_GM_ID_HI)))) ∧
    ((a14.works domPBUS = true) ∧ (a14.get (F.PB_PORT_STAT_LINK 0) = 1) ∧ (a14.bus.downTo ≤ max a14.now T) ∧
      (sf.head.fcsOk = true) ∧
      (a14.isHsr (0 / 2) = false ∨ sf.head.src ≠ a14.mac (R.PB_MAC_LO (0 / 2)) (R.PB_MAC_HI (0 / 2))) ∧
      (Option.any (fun x => (a14.advance T).seenSeq (0 / 2) sf.head.src x.snd) sf.head.rct = false) ∧
      ((a14.bus.load.get (0 / 2)).fst = (a14.advance T).mtUnits / uS → (a14.bus.load.get (0 / 2)).snd < 320000) ∧
      (List.filter (a14.svOffered sf) (List.range 64) = [3]) ∧
      (sf.head.src = a14.mac (R.SV_SUB_SRC_LO 3) (R.SV_SUB_SRC_HI 3) ∧ sf.appId = a14.get (F.SV_SUB_DST_HI_APPID 3)) ∧
      (sf.sim = false ∧ (a14.get F.PB_CFG_SIM_ACCEPT = 0 ∨ a14.get (F.SV_SUB_STAT_SIM 3) = 0)) ∧
      (∀ (d : SvAsdu), d ∈ sf.asdus → d.confRev = a14.get (F.SV_SUB_CONFREV_CONFREV 3)) ∧
      (sf.noAsdu = a14.get (F.SV_SUB_CFG_NASDU 3) + 1 ∧ sf.asdus.length = sf.noAsdu ∧ ∀ (d : SvAsdu), d ∈ sf.asdus →
        d.svId = (a14.svSub 3).svId ∧ d.chans.length = a14.get (F.SV_SUB_CFG_NCH 3) + 1) ∧
      (∀ (d : SvAsdu), d ∈ sf.asdus → (d.smpSynch = 2 ∨ d.smpSynch = 1 ∧ a14.get (F.SV_SUB_CFG_SYNCH_LOCAL 3) = 1) ∧
        (d.gmId = none ∨ d.gmId = some (a14.get64 R.PTP_GM_ID_LO R.PTP_GM_ID_HI))) ∧
      (a14.get F.TIME_STATUS_STATE ∈ [2, 3]) ∧ (∀ (d : SvAsdu), d ∈ sf.asdus → d.smpCnt < a14.svRate 3) ∧
      (sf.asdus.getLast? = some (asdu 7))) := by
  and_intros
  all_goals first
    | decide +kernel
    | exact all_some (by decide +kernel)
    | exact not_all_some (by decide +kernel)
    | exact ex_some (by decide +kernel)
    | (intro j k; exact nofun)

theorem witness_BusPortsAndSamples_4 :
    ((sbg.works domPBUS = true) ∧ (sbg.get (F.PB_PORT_STAT_LINK 0) = 1) ∧ (sbg.bus.downTo ≤ max sbg.now T) ∧
      (a15.head.fcsOk = true) ∧
      (sbg.isHsr (0 / 2) = false ∨ a15.head.src ≠ sbg.mac (R.PB_MAC_LO (0 / 2)) (R.PB_MAC_HI (0 / 2))) ∧
      (Option.any (fun x => (sbg.advance T).seenSeq (0 / 2) a15.head.src x.snd) a15.head.rct = false) ∧
      ((sbg.bus.load.get (0 / 2)).fst = (sbg.advance T).mtUnits / uS → (sbg.bus.load.get (0 / 2)).snd < 320000) ∧
      (List.filter (sbg.svOffered a15) (List.range 64) = [3]) ∧
      (a15.head.src = sbg.mac (R.SV_SUB_SRC_LO 3) (R.SV_SUB_SRC_HI 3) ∧ a15.appId = sbg.get (F.SV_SUB_DST_HI_APPID
        3)) ∧ (a15.sim = false ∧ (sbg.get F.PB_CFG_SIM_ACCEPT = 0 ∨ sbg.get (F.SV_SUB_STAT_SIM 3) = 0)) ∧
      (∀ (d : SvAsdu), d ∈ a15.asdus → d.confRev = sbg.get (F.SV_SUB_CONFREV_CONFREV 3)) ∧
      (a15.noAsdu = sbg.get (F.SV_SUB_CFG_NASDU 3) + 1 ∧ a15.asdus.length = a15.noAsdu ∧ ∀ (d : SvAsdu), d ∈
        a15.asdus → d.svId = (sbg.svSub 3).svId ∧ d.chans.length = sbg.get (F.SV_SUB_CFG_NCH 3) + 1) ∧
      (∀ (d : SvAsdu), d ∈ a15.asdus → (d.smpSynch = 2 ∨ d.smpSynch = 1 ∧ sbg.get (F.SV_SUB_CFG_SYNCH_LOCAL 3) = 1) ∧
        (d.gmId = none ∨ d.gmId = some (sbg.get64 R.PTP_GM_ID_LO R.PTP_GM_ID_HI))) ∧
      (sbg.get F.TIME_STATUS_STATE ∈ [2, 3]) ∧ (∀ (d : SvAsdu), d ∈ a15.asdus → d.smpCnt < sbg.svRate 3) ∧
      (a15.asdus.getLast? = some (asdu 7))) ∧
    ((a16.works domPBUS = true) ∧ ((a16.svSub 3).lastAt = some T) ∧
      (a16.get (F.SV_SUB_STAT_STATE 3) = 0 ∨ a16.get (F.SV_SUB_STAT_STATE 3) = 4 ∨ max a16.now T < T + uS)) ∧
    ((a17.works domPBUS = true) ∧ ((a17.svSub 3).lastAt = some T) ∧
      (1 ≤ a17.get (F.SV_SUB_STAT_STATE 3) ∧ a17.get (F.SV_SUB_STAT_STATE 3) ≤ 3) ∧ (T + uS ≤ max a17.now (T + uS))) := by
  decide +kernel

theorem witness_GooseAndPublications :
    (((up 0).works domPBUS = true) ∧ ((up 0).get (F.PB_PORT_STAT_LINK 0) = 1) ∧
      ((up 0).bus.downTo ≤ max (up 0).now T) ∧ (gf.head.fcsOk = true) ∧
      (Option.any (fun x => ((up 0).advance T).seenSeq (0 / 2) gf.head.src x.snd) gf.head.rct = false) ∧
      ((up 0).isHsr (0 / 2) = false ∨ gf.head.src ≠ (up 0).mac (R.PB_MAC_LO (0 / 2)) (R.PB_MAC_HI (0 / 2))) ∧
      (List.filter ((up 0).gooseOffered gf) (List.range 128) = [])) ∧
    ((gs.works domPBUS = true) ∧ (gs.get (F.PB_PORT_STAT_LINK 0) = 1) ∧ (gs.bus.downTo ≤ max gs.now T) ∧
      (a18.head.fcsOk = true) ∧
      (Option.any (fun x => (gs.advance T).seenSeq (0 / 2) a18.head.src x.snd) a18.head.rct = false) ∧
      (gs.isHsr (0 / 2) = false ∨ a18.head.src ≠ gs.mac (R.PB_MAC_LO (0 / 2)) (R.PB_MAC_HI (0 / 2))) ∧
      (List.filter (gs.gooseOffered a18) (List.range 128) = [3]) ∧ (gs.get (F.GOOSE_SUB_CFG_SAFETY 3) = 0) ∧
      (a18.head.src ≠ gs.mac (R.GOOSE_SUB_SRC_LO 3) (R.GOOSE_SUB_SRC_HI 3) ∨ a18.appId ≠ gs.get
        (F.GOOSE_SUB_DST_HI_APPID 3))) ∧
    ((a19.works domPBUS = true) ∧ (a19.get (F.PB_PORT_STAT_LINK 0) = 1) ∧ (a19.bus.downTo ≤ max a19.now T) ∧
      (a20.head.fcsOk = true) ∧
      (Option.any (fun x => (a19.advance T).seenSeq (0 / 2) a20.head.src x.snd) a20.head.rct = false) ∧
      (a19.isHsr (0 / 2) = false ∨ a20.head.src ≠ a19.mac (R.PB_MAC_LO (0 / 2)) (R.PB_MAC_HI (0 / 2))) ∧
      (List.filter (a19.gooseOffered a20) (List.range 128) = [3]) ∧ (a19.get (F.GOOSE_SUB_CFG_SAFETY 3) = 0) ∧
      (a20.head.src = a19.mac (R.GOOSE_SUB_SRC_LO 3) (R.GOOSE_SUB_SRC_HI 3)) ∧
      (a20.appId = a19.get (F.GOOSE_SUB_DST_HI_APPID 3)) ∧ (a20.sim = false) ∧ (a19.get F.PB_CFG_SIM_ACCEPT = 0) ∧
      (¬(a20.datSet = (a19.gSub 3).datSet ∧ a20.confRev = a19.get (F.GOOSE_SUB_CONFREV_CONFREV 3) ∧ a20.entries =
        a19.get (F.GOOSE_SUB_CFG_NMEM 3) + 1))) ∧
    ((a21.works domPBUS = true) ∧ (a21.get (F.PB_PORT_STAT_LINK 0) = 1) ∧ (a21.bus.downTo ≤ max a21.now T) ∧
      (gf.head.fcsOk = true) ∧
      (Option.any (fun x => (a21.advance T).seenSeq (0 / 2) gf.head.src x.snd) gf.head.rct = false) ∧
      (a21.isHsr (0 / 2) = false ∨ gf.head.src ≠ a21.mac (R.PB_MAC_LO (0 / 2)) (R.PB_MAC_HI (0 / 2))) ∧
      (List.filter (a21.gooseOffered gf) (List.range 128) = [3]) ∧ (a21.get (F.GOOSE_SUB_CFG_SAFETY 3) = 0) ∧
      (gf.head.src = a21.mac (R.GOOSE_SUB_SRC_LO 3) (R.GOOSE_SUB_SRC_HI 3)) ∧
      (gf.appId = a21.get (F.GOOSE_SUB_DST_HI_APPID 3)) ∧ (gf.sim = false) ∧ (a21.get F.PB_CFG_SIM_ACCEPT = 0) ∧
      (gf.datSet = (a21.gSub 3).datSet ∧ gf.confRev = a21.get (F.GOOSE_SUB_CONFREV_CONFREV 3) ∧ gf.entries = a21.get
        (F.GOOSE_SUB_CFG_NMEM 3) + 1) ∧ (2 ^ 31 < (gf.stNum + 2 ^ 32 - a21.get (F.GOOSE_SUB_STNUM_NUM 3)) % 2 ^ 32) ∧
      (a21.get (F.GOOSE_SUB_STAT_VALID 3) = 1)) ∧
    ((gv.works domPBUS = true) ∧ (gv.get (F.PB_PORT_STAT_LINK 0) = 1) ∧ (gv.bus.downTo ≤ max gv.now T) ∧
      (gf.head.fcsOk = true) ∧
      (Option.any (fun x => (gv.advance T).seenSeq (0 / 2) gf.head.src x.snd) gf.head.rct = false) ∧
      (gv.isHsr (0 / 2) = false ∨ gf.head.src ≠ gv.mac (R.PB_MAC_LO (0 / 2)) (R.PB_MAC_HI (0 / 2))) ∧
      (List.filter (gv.gooseOffered gf) (List.range 128) = [3]) ∧ (gv.get (F.GOOSE_SUB_CFG_SAFETY 3) = 0) ∧
      (gf.head.src = gv.mac (R.GOOSE_SUB_SRC_LO 3) (R.GOOSE_SUB_SRC_HI 3)) ∧
      (gf.appId = gv.get (F.GOOSE_SUB_DST_HI_APPID 3)) ∧ (gf.sim = false) ∧ (gv.get F.PB_CFG_SIM_ACCEPT = 0) ∧
      (gf.datSet = (gv.gSub 3).datSet ∧ gf.confRev = gv.get (F.GOOSE_SUB_CONFREV_CONFREV 3) ∧ gf.entries = gv.get
        (F.GOOSE_SUB_CFG_NMEM 3) + 1) ∧
      (1 ≤ (gf.stNum + 2 ^ 32 - gv.get (F.GOOSE_SUB_STNUM_NUM 3)) % 2 ^ 32 ∧ (gf.stNum + 2 ^ 32 - gv.get
        (F.GOOSE_SUB_STNUM_NUM 3)) % 2 ^ 32 ≤ 2 ^ 31 ∨ gv.get (F.GOOSE_SUB_STAT_VALID 3) = 0)) ∧
    ((gv.works domPBUS = true) ∧ (gv.get (F.PB_PORT_STAT_LINK 0) = 1) ∧ (gv.bus.downTo ≤ max gv.now T) ∧
      (gf.head.fcsOk = true) ∧
      (Option.any (fun x => (gv.advance T).seenSeq (0 / 2) gf.head.src x.snd) gf.head.rct = false) ∧
      (gv.isHsr (0 / 2) = false ∨ gf.head.src ≠ gv.mac (R.PB_MAC_LO (0 / 2)) (R.PB_MAC_HI (0 / 2))) ∧
      (List.filter (gv.gooseOffered gf) (List.range 128) = [3]) ∧ (gv.get (F.GOOSE_SUB_CFG_SAFETY 3) = 0) ∧
      (gf.head.src = gv.mac (R.GOOSE_SUB_SRC_LO 3) (R.GOOSE_SUB_SRC_HI 3)) ∧
      (gf.appId = gv.get (F.GOOSE_SUB_DST_HI_APPID 3)) ∧ (gf.sim = false) ∧ (gv.get F.PB_CFG_SIM_ACCEPT = 0) ∧
      (gf.datSet = (gv.gSub 3).datSet ∧ gf.confRev = gv.get (F.GOOSE_SUB_CONFREV_CONFREV 3) ∧ gf.entries = gv.get
        (F.GOOSE_SUB_CFG_NMEM 3) + 1) ∧
      (1 ≤ (gf.stNum + 2 ^ 32 - gv.get (F.GOOSE_SUB_STNUM_NUM 3)) % 2 ^ 32 ∧ (gf.stNum + 2 ^ 32 - gv.get
        (F.GOOSE_SUB_STNUM_NUM 3)) % 2 ^ 32 ≤ 2 ^ 31 ∨ gv.get (F.GOOSE_SUB_STAT_VALID 3) = 0) ∧
      (40 ∈ gv.gooseVals 3) ∧
      (gf.ndsCom = false ∧ (gf.test = false ∨ gv.get F.PB_CFG_TEST_ACCEPT = 1) ∧ (gv.get (F.GOOSE_VAL_MAP_QEN 40) = 0
        ∨ goodMember gf.members[gv.get (F.GOOSE_VAL_MAP_QMEM 40)]? = true)) ∧
      (gooseConv (gv.get (F.GOOSE_VAL_MAP_TYPE 40)) (gv.get (F.GOOSE_VAL_MAP_DEC 40)) gf.members[gv.get
        (F.GOOSE_VAL_MAP_MEM 40)]? = some 77)) := by
  and_intros
  all_goals first
    | decide +kernel
    | exact all_some (by decide +kernel)
    | exact not_all_some (by decide +kernel)
    | exact ex_some (by decide +kernel)
    | (intro j k; exact nofun)

theorem witness_GooseAndPublications_2 :
    ((gv.works domPBUS = true) ∧ (gv.get (F.PB_PORT_STAT_LINK 0) = 1) ∧ (gv.bus.downTo ≤ max gv.now T) ∧
      (a22.head.fcsOk = true) ∧
      (Option.any (fun x => (gv.advance T).seenSeq (0 / 2) a22.head.src x.snd) a22.head.rct = false) ∧
      (gv.isHsr (0 / 2) = false ∨ a22.head.src ≠ gv.mac (R.PB_MAC_LO (0 / 2)) (R.PB_MAC_HI (0 / 2))) ∧
      (List.filter (gv.gooseOffered a22) (List.range 128) = [3]) ∧ (gv.get (F.GOOSE_SUB_CFG_SAFETY 3) = 0) ∧
      (a22.head.src = gv.mac (R.GOOSE_SUB_SRC_LO 3) (R.GOOSE_SUB_SRC_HI 3)) ∧
      (a22.appId = gv.get (F.GOOSE_SUB_DST_HI_APPID 3)) ∧ (a22.sim = false) ∧ (gv.get F.PB_CFG_SIM_ACCEPT = 0) ∧
      (a22.datSet = (gv.gSub 3).datSet ∧ a22.confRev = gv.get (F.GOOSE_SUB_CONFREV_CONFREV 3) ∧ a22.entries = gv.get
        (F.GOOSE_SUB_CFG_NMEM 3) + 1) ∧
      (1 ≤ (a22.stNum + 2 ^ 32 - gv.get (F.GOOSE_SUB_STNUM_NUM 3)) % 2 ^ 32 ∧ (a22.stNum + 2 ^ 32 - gv.get
        (F.GOOSE_SUB_STNUM_NUM 3)) % 2 ^ 32 ≤ 2 ^ 31 ∨ gv.get (F.GOOSE_SUB_STAT_VALID 3) = 0) ∧ (40 ∈ gv.gooseVals 3)) ∧
    ((W.works domPBUS = true) ∧ (W.get (F.GOOSE_SUB_STAT_VALID 3) = 0 ∨ max W.now T < (W.gSub 3).talEnd)) ∧
    ((a23.works domPBUS = true) ∧ (a23.get (F.GOOSE_SUB_STAT_VALID 3) = 1) ∧ ((a23.gSub 3).talEnd ≤ max a23.now T)) ∧
    ((a24.works domPBUS = true) ∧ ((a24.bus.gpub.get 5).next = some T) ∧ ((a24.bus.gpub.get 5).vals = some a25) ∧
      (¬(a24.get (F.GOOSE_PUB_CFG_EN 5) = 1 ∧ (a24.get F.VOTE_STATUS_VL1_OK = 1 ∨ a24.get F.VOTE_STATUS_VL2_OK = 1) ∧
        a24.lanesRun = true ∧ a24.bus.downTo ≤ max a24.now (T - 1)) ∨ max a24.now (T - 1) < T)) ∧
    ((a26.works domPBUS = true) ∧ ((a26.bus.gpub.get 5).next = some T) ∧ ((a26.bus.gpub.get 5).vals = some a25) ∧
      (a26.get (F.GOOSE_PUB_CFG_EN 5) = 1 ∧ (a26.get F.VOTE_STATUS_VL1_OK = 1 ∨ a26.get F.VOTE_STATUS_VL2_OK = 1) ∧
        a26.lanesRun = true ∧ a26.bus.downTo ≤ max a26.now T) ∧ (T ≤ max a26.now T)) ∧
    ((W.works domPBUS = true) ∧
      (¬(W.get (F.SV_PUB_CFG_EN 5) = 1 ∧ (W.get F.VOTE_STATUS_VL1_OK = 1 ∨ W.get F.VOTE_STATUS_VL2_OK = 1) ∧
        W.lanesRun = true ∧ W.bus.downTo ≤ max W.now T))) := by
  decide +kernel

theorem witness_GooseAndPublications_3 :
    ((a27.works domPBUS = true) ∧
      (a27.get (F.SV_PUB_CFG_EN 5) = 1 ∧ (a27.get F.VOTE_STATUS_VL1_OK = 1 ∨ a27.get F.VOTE_STATUS_VL2_OK = 1) ∧
        a27.lanesRun = true ∧ a27.bus.downTo ≤ max a27.now T) ∧ ((a27.bus.pub.get 5).lastTs = some (T + 5 * uMs)) ∧
      ((a27.advance T).mtUnits < T + 5 * uMs)) ∧
    ((sp.works domPBUS = true) ∧
      (sp.get (F.SV_PUB_CFG_EN 5) = 1 ∧ (sp.get F.VOTE_STATUS_VL1_OK = 1 ∨ sp.get F.VOTE_STATUS_VL2_OK = 1) ∧
        sp.lanesRun = true ∧ sp.bus.downTo ≤ max sp.now T) ∧
      (sp.link.d * sp.periodU + 10 * uUs ≤ (sp.advance T).mtUnits) ∧
      ((((((sp.advance T).mtUnits - (sp.link.d * sp.periodU + 10 * uUs)) * if sp.get (F.SV_PUB_CFG_RATE 5) = 1 then
        14400 else 4800) / uS + 1) / if sp.get (F.SV_PUB_CFG_RATE 5) = 1 then 6 else 2) ≠ 0) ∧
      (∀ (l : Nat), (sp.bus.pub.get 5).lastTs = some l → l ≤ (sp.advance T).mtUnits ∧ l < ((((((((sp.advance
        T).mtUnits - (sp.link.d * sp.periodU + 10 * uUs)) * if sp.get (F.SV_PUB_CFG_RATE 5) = 1 then 14400 else 4800)
        / uS + 1) / if sp.get (F.SV_PUB_CFG_RATE 5) = 1 then 6 else 2) * if sp.get (F.SV_PUB_CFG_RATE 5) = 1 then 6
        else 2) - 1) / if sp.get (F.SV_PUB_CFG_RATE 5) = 1 then 14400 else 4800) * uS + ((((((((sp.advance T).mtUnits
        - (sp.link.d * sp.periodU + 10 * uUs)) * if sp.get (F.SV_PUB_CFG_RATE 5) = 1 then 14400 else 4800) / uS + 1)
        / if sp.get (F.SV_PUB_CFG_RATE 5) = 1 then 6 else 2) * if sp.get (F.SV_PUB_CFG_RATE 5) = 1 then 6 else 2) -
        1) % if sp.get (F.SV_PUB_CFG_RATE 5) = 1 then 14400 else 4800) * uS / if sp.get (F.SV_PUB_CFG_RATE 5) = 1
        then 14400 else 4800)) := by
  decide +kernel

end Sys2Proof.Tests.W10

namespace Sys2Proof.Tests.W11

open Sys2Proof Sys2Proof.Machine

set_option Elab.async false

def T : Nat := 8000000000000
def B : Nat := T - uS
def smp (n : Nat) (ok : Bool) : List (Nat × List (Option Int)) := (List.range n).map fun j => (B + (n - 1 - j) * 1666667, if ok then [some 10, some 20, some 30] else [none, none, none])
def mp (x : MtrPt) : State := (W.put (F.MTR_PT_CFG_EN 2) 1).setMpt 2 x
def x0 : MtrPt := { start := some B, span := 200 * uMs, vs := smp 962 false, is_ := smp 962 false }
def x1 : MtrPt := { start := some B, span := 1000000, vs := smp 3 true, is_ := smp 3 true }
def mi (e : Int) : State := (mp { int := { from_ := 3 } }).setMtr fun x => { x with endUtc := some e }
def a1 : Nat := x0.endAt.get!
def a2 : State := mp { x0 with closing := some (B + 5, B + 5, 3, {}) }
def a3 : Nat := x1.endAt.get!
def a4 : State := mp { seqI := (5,0) }
def a5 : State := (mp { seqV := (0,6) }).put (F.MTR_PT_STAT_V_SEQ_WRONG 2) 1
def a6 : State := mp { neut := (5,0) }
def a7 : State := (mp { neut := (0,5) }).put (F.MTR_PT_STAT_N_MISSING 2) 1
def a8 : State := mi (-100000)
def a9 : State := W.setMtr fun x => { x with saveAt := T }
def a10 : State := mp { rem := [1,2,3,4,5,6,7] }

theorem witness_MeteringWindowsAndIntervals :
    ((W.works domPBUS = true) ∧ ((W.mpt 2).start = none ∨ (W.mpt 2).endAt = none ∨ W.get (F.MTR_PT_CFG_EN 2) = 0)) ∧
    (((mp x0).works domPBUS = true) ∧ (((mp x0).mpt 2).start = some B) ∧ (((mp x0).mpt 2).endAt = some a1) ∧
      ((mp x0).get (F.MTR_PT_CFG_EN 2) = 1) ∧ (
        (∃ k,
            k < ((mp x0).mtrChans 2 (R.MTR_PT_VCH 2)).length ∧
              have f := fillChan ((mp x0).mpt 2).vRate (oldestOf ((mp x0).mpt 2).vs B) B a1 (chanOf ((mp x0).mpt 2).vs k);
              3 < f.snd.fst ∨ (a1 - B) * ((mp x0).mpt 2).vRate / uS < f.snd.snd * 100) ∨
          ∃ k,
            k < ((mp x0).mtrChans 2 (R.MTR_PT_ICH 2)).length ∧
              have f := fillChan ((mp x0).mpt 2).iRate (oldestOf ((mp x0).mpt 2).is_ B) B a1 (chanOf ((mp x0).mpt 2).is_ k);
              3 < f.snd.fst ∨ (a1 - B) * ((mp x0).mpt 2).iRate / uS < f.snd.snd * 100)) ∧
    ((a2.works domPBUS = true) ∧ ((a2.mpt 2).start = some B) ∧ ((a2.mpt 2).endAt = some a1) ∧
      (a2.get (F.MTR_PT_CFG_EN 2) = 1) ∧ (
        (∃ k,
            k < (a2.mtrChans 2 (R.MTR_PT_VCH 2)).length ∧
              have f := fillChan (a2.mpt 2).vRate (oldestOf (a2.mpt 2).vs B) B a1 (chanOf (a2.mpt 2).vs k);
              3 < f.snd.fst ∨ (a1 - B) * (a2.mpt 2).vRate / uS < f.snd.snd * 100) ∨
          ∃ k,
            k < (a2.mtrChans 2 (R.MTR_PT_ICH 2)).length ∧
              have f := fillChan (a2.mpt 2).iRate (oldestOf (a2.mpt 2).is_ B) B a1 (chanOf (a2.mpt 2).is_ k);
              3 < f.snd.fst ∨ (a1 - B) * (a2.mpt 2).iRate / uS < f.snd.snd * 100)) ∧
    (((mp x1).works domPBUS = true) ∧ (((mp x1).mpt 2).start = some B) ∧ (((mp x1).mpt 2).endAt = some a3) ∧
      ((mp x1).get (F.MTR_PT_CFG_EN 2) = 1) ∧ (
        ¬((∃ k,
              k < ((mp x1).mtrChans 2 (R.MTR_PT_VCH 2)).length ∧
                have f := fillChan ((mp x1).mpt 2).vRate (oldestOf ((mp x1).mpt 2).vs B) B a3 (chanOf ((mp x1).mpt 2).vs k);
                3 < f.snd.fst ∨ (a3 - B) * ((mp x1).mpt 2).vRate / uS < f.snd.snd * 100) ∨
            ∃ k,
              k < ((mp x1).mtrChans 2 (R.MTR_PT_ICH 2)).length ∧
                have f := fillChan ((mp x1).mpt 2).iRate (oldestOf ((mp x1).mpt 2).is_ B) B a3 (chanOf ((mp x1).mpt 2).is_ k);
                3 < f.snd.fst ∨ (a3 - B) * ((mp x1).mpt 2).iRate / uS < f.snd.snd * 100)) ∧
      (((mp x1).mpt 2).rem.length = 7) ∧ (∀ (v : Nat), v ∈ ((mp x1).mpt 2).rem → v < 2 ^ 20)) ∧
    ((W.works domPBUS = true) ∧
      (¬(W.get (if true = true then F.MTR_PT_STAT_I_SEQ_WRONG 2 else F.MTR_PT_STAT_V_SEQ_WRONG 2) = 0 ∧ 5 ≤ (if true
        = true then (W.mpt 2).seqI else (W.mpt 2).seqV).fst ∨ W.get (if true = true then F.MTR_PT_STAT_I_SEQ_WRONG 2
        else F.MTR_PT_STAT_V_SEQ_WRONG 2) = 1 ∧ 5 ≤ (if true = true then (W.mpt 2).seqI else (W.mpt 2).seqV).snd))) ∧
    ((a4.works domPBUS = true) ∧
      (a4.get (if true = true then F.MTR_PT_STAT_I_SEQ_WRONG 2 else F.MTR_PT_STAT_V_SEQ_WRONG 2) = 0 ∧ 5 ≤ (if true =
        true then (a4.mpt 2).seqI else (a4.mpt 2).seqV).fst ∨ a4.get (if true = true then F.MTR_PT_STAT_I_SEQ_WRONG 2
        else F.MTR_PT_STAT_V_SEQ_WRONG 2) = 1 ∧ 5 ≤ (if true = true then (a4.mpt 2).seqI else (a4.mpt 2).seqV).snd)) := by
  decide +kernel

theorem witness_MeteringWindowsAndIntervals_2 :
    ((a5.works domPBUS = true) ∧
      (a5.get (if false = true then F.MTR_PT_STAT_I_SEQ_WRONG 2 else F.MTR_PT_STAT_V_SEQ_WRONG 2) = 0 ∧ 5 ≤ (if false
        = true then (a5.mpt 2).seqI else (a5.mpt 2).seqV).fst ∨ a5.get (if false = true then
        F.MTR_PT_STAT_I_SEQ_WRONG 2 else F.MTR_PT_STAT_V_SEQ_WRONG 2) = 1 ∧ 5 ≤ (if false = true then (a5.mpt 2).seqI
        else (a5.mpt 2).seqV).snd)) ∧
    ((a6.works domPBUS = true) ∧ (a6.get (F.MTR_PT_STAT_N_MISSING 2) = 0) ∧ (5 ≤ (a6.mpt 2).neut.fst)) ∧
    ((a7.works domPBUS = true) ∧ (a7.get (F.MTR_PT_STAT_N_MISSING 2) = 1) ∧ (5 ≤ (a7.mpt 2).neut.snd)) ∧
    ((W.works domPBUS = true) ∧
      (W.get (F.MTR_PT_STAT_N_MISSING 2) = 0 ∧ (W.mpt 2).neut.fst < 5 ∨ W.get (F.MTR_PT_STAT_N_MISSING 2) = 1 ∧
        (W.mpt 2).neut.snd < 5)) ∧
    ((W.works domPBUS = true) ∧ (W.mtr.endUtc = none)) ∧
    (((mi 999999).works domPBUS = true) ∧ ((mi 999999).mtr.endUtc = some 999999) ∧
      (((mi 999999).advance T).utcSec < 999999)) := by
  decide +kernel

theorem witness_MeteringWindowsAndIntervals_3 :
    (((mi (-100)).works domPBUS = true) ∧ ((mi (-100)).mtr.endUtc = some (-100)) ∧
      (-100 ≤ ((mi (-100)).advance T).utcSec)) ∧
    ((a8.works domPBUS = true) ∧ (a8.mtr.endUtc = some (-100000)) ∧ (-100000 ≤ (a8.advance T).utcSec)) ∧
    ((a9.works domPBUS = true) ∧ (max a9.now T < a9.mtr.saveAt + uS)) ∧
    ((a10.works domPBUS = true) ∧ (a10.mtr.saveAt + uS ≤ max a10.now T)) := by
  decide +kernel

end Sys2Proof.Tests.W11

namespace Sys2Proof.Tests.W12

open Sys2Proof Sys2Proof.Machine

set_option Elab.async false

def T : Nat := 8000000000000
def w3 : State := ((W.put F.LANE_STATUS_MODE 0).put (F.LANE_STAT_STATE 0) 1).put (F.LANE_STAT_STATE 1) 1 |>.put (F.LANE_STAT_STATE 2) 1
def w2 (st : Nat) : State := (w3.put (F.LANE_STAT_STATE 1) st).put F.LANE_STATUS_MODE 1
def sv (s : State) : State := s.setSess 1 { s.sess 1 with level := 2 }
def wsu : State := (w3.setClk fun c => { c with suspendAt := some T }).put F.CLK_STATUS_LOCK_P 1
def wl (st : Nat) (x : LaneX) : State := (w2 st).setLane 1 x
def w0 : State := (w2 2).put F.LANE_STATUS_MODE 3
def wr : State := ((w0.put (F.LANE_STAT_STATE 0) 3).put (F.LANE_STAT_STATE 1) 3).setLanes fun x => { x with restart := some T }
def a1 : State := (w3.put (F.PWR_STATE 3) 0).put F.LANE_CFG_MAX_EXCL 1
def a2 : State := (w2 2).put F.LANE_STATUS_MODE 2
def a3 : State := wl 2 { exclAt := some (T - uMs) }
def a4 : State := wl 2 { exclAt := some (T - uMs), failAt := some (T - uMs) }
def a5 : State := wl 3 { stepAt := T - 20*uMs }
def a6 : State := wl 3 { stepAt := T - 20*uMs - 1 }
def a7 : State := wl 4 { stepAt := T - 5*uMs }
def a8 : State := wl 4 { stepAt := T - 5*uMs - 1 }
def a9 : State := (wl 5 { }).put (F.LANE_COPY_ROUNDS 1) 63
def a10 : State := ((wl 5 { copied := true, dirty := 144000 }).setLink fun x => { x with frozen := true })
def a11 : State := ((wl 5 { copied := true, dirty := 144001 }).setLink fun x => { x with frozen := true })
def a12 : State := ((wl 5 { copied := true, dirty := 144000 }).setClk fun c => { c with suspendAt := some T })
def a13 : State := wl 6 { passes := 64 }
def a14 : State := wl 6 { passes := 63 }
def a15 : State := (w0.put F.LANE_CFG_AUTO_RESTART 1).setLanes fun x => { x with ceasedAt := T - uS }
def a16 : State := (w0.put F.LANE_CFG_AUTO_RESTART 1).setLanes fun x => { x with ceasedAt := T - uS + 1 }
def a17 : State := w0.put (F.LANE_STAT_STATE 2) 7
def a18 : State := wr.put (F.LANE_STAT_STATE 2) 3
def a19 : State := w3.put F.VOTE_STATUS_VA_OK 0
def a20 : State := w3.put R.VOTE_MERGE.all 0

theorem witness_LanesExcludedAndHeld :
    ((w3.works domVOTE = true) ∧ (w3.counted 1 = true) ∧ (true = true → w3.works (domLANE 1) = true) ∧
      (true = false → w3.isOn (domLANE 1) = false) ∧ (w3.nCounted = 3) ∧ (w3.mode = 0)) ∧
    ((a1.works domVOTE = true) ∧ (a1.counted 1 = true) ∧ (false = true → a1.works (domLANE 1) = true) ∧
      (false = false → a1.isOn (domLANE 1) = false) ∧ (a1.nCounted = 3) ∧ (a1.mode = 0)) ∧
    (((w2 2).works domVOTE = true) ∧ ((w2 2).counted 2 = true) ∧ (true = true → (w2 2).works (domLANE 2) = true) ∧
      (true = false → (w2 2).isOn (domLANE 2) = false) ∧ ((w2 2).nCounted = 2) ∧ ((w2 2).mode = 1)) ∧
    ((a2.works domVOTE = true) ∧ (a2.mode = 2)) ∧
    ((w3.works domVOTE = true) ∧ (w3.mode ≠ 2)) ∧
    ((w3.works domVOTE = true)) := by
  decide +kernel

theorem witness_LanesExcludedAndHeld_2 :
    ((w3.works domVOTE = true) ∧ (w3.get F.VOTE_STATUS_VL_ACTIVE = 0) ∧ (w3.get F.VOTE_STATUS_VL1_OK = 1) ∧
      (w3.get F.VOTE_STATUS_VL2_OK = 1)) ∧
    ((w3.works domVOTE = true) ∧ (w3.get F.VOTE_STATUS_VL_ACTIVE = 0)) ∧
    ((wsu.works domVOTE = true) ∧ (wsu.works domCLK = true) ∧ (wsu.clk.suspendAt = some T) ∧
      (T + 256 * 40 * uNs ≤ max wsu.now (T + 81920)) ∧ (wsu.flag (wsu.lockBit true) = true)) ∧
    ((wsu.works domVOTE = true) ∧ (wsu.works domCLK = true) ∧ (wsu.clk.suspendAt = some T) ∧
      (max wsu.now (T + 81919) < T + 256 * 40 * uNs)) ∧
    ((wsu.works domVOTE = true) ∧ (wsu.works domCLK = true) ∧ (wsu.clk.suspendAt = some T)) ∧
    ((a19.works domVOTE = true) ∧ (a19.mode ≠ 2)) := by
  decide +kernel

theorem witness_LanesExcludedAndHeld_3 :
    ((a20.works domVOTE = true)) := by
  decide +kernel

theorem witness_LaneRejoins :
    ((a3.works domVOTE = true) ∧ (a3.lanes.restart = none) ∧ (a3.lstate 1 = 2) ∧ (a3.get F.LANE_CFG_AUTO_REJOIN = 1) ∧
      (a3.mode = 1) ∧ (a3.isOn (domLANE 1) = true) ∧
      ((Option.map (fun x => x + uS) (a3.lane 1).failAt).getD ((Option.map (fun x => x + uMs) (a3.lane
        1).exclAt).getD (max a3.now T + 1)) ≤ max a3.now T)) ∧
    ((a4.works domVOTE = true) ∧ (a4.lanes.restart = none) ∧ (a4.lstate 1 = 2) ∧ (a4.get F.LANE_CFG_AUTO_REJOIN = 1) ∧
      (a4.mode = 1) ∧ (a4.isOn (domLANE 1) = true) ∧
      (max a4.now T < (Option.map (fun x => x + uS) (a4.lane 1).failAt).getD ((Option.map (fun x => x + uMs) (a4.lane
        1).exclAt).getD (max a4.now T + 1)))) ∧
    ((a5.works domVOTE = true) ∧ (a5.lanes.restart = none) ∧ (a5.lstate 1 = 3) ∧
      (max a5.now T - (a5.lane 1).stepAt ≤ 20 * uMs)) ∧
    ((a5.works domVOTE = true) ∧ (a5.lanes.restart = none) ∧ (a5.lstate 1 = 3)) ∧
    ((a6.works domVOTE = true) ∧ (a6.lanes.restart = none) ∧ (a6.lstate 1 = 3) ∧
      (20 * uMs < max a6.now T - (a6.lane 1).stepAt)) ∧
    ((a7.works domVOTE = true) ∧ (a7.lanes.restart = none) ∧ (a7.lstate 1 = 4) ∧
      (max a7.now T - (a7.lane 1).stepAt ≤ 5 * uMs)) := by
  decide +kernel

theorem witness_LaneRejoins_2 :
    ((a8.works domVOTE = true) ∧ (a8.lanes.restart = none) ∧ (a8.lstate 1 = 4) ∧
      (5 * uMs < max a8.now T - (a8.lane 1).stepAt)) ∧
    (((wl 5 { : LaneX }).works domVOTE = true) ∧ ((wl 5 { : LaneX }).lanes.restart = none) ∧
      ((wl 5 { : LaneX }).lstate 1 = 5) ∧ ((wl 5 { : LaneX }).clk.suspendAt = none) ∧
      (((wl 5 { : LaneX }).lane 1).switchK = none) ∧
      ((wl 5 { : LaneX }).get (F.LANE_COPY_ROUNDS 1) < 63 ∨ 200000 ≤ (wl 5 { : LaneX }).swLim)) ∧
    ((a9.works domVOTE = true) ∧ (a9.lanes.restart = none) ∧ (a9.lstate 1 = 5) ∧ (a9.clk.suspendAt = none) ∧
      ((a9.lane 1).switchK = none) ∧ (63 ≤ a9.get (F.LANE_COPY_ROUNDS 1)) ∧ (a9.swLim < 200000)) ∧
    (((wl 5 { : LaneX }).works domVOTE = true) ∧ ((wl 5 { : LaneX }).lanes.restart = none) ∧
      ((wl 5 { : LaneX }).lstate 1 = 5) ∧ ((wl 5 { : LaneX }).clk.suspendAt = none) ∧
      (((wl 5 { : LaneX }).lane 1).switchK = none) ∧ ((wl 5 { : LaneX }).mode = 1)) ∧
    ((a10.works domVOTE = true) ∧ (a10.lanes.restart = none) ∧ (a10.lstate 1 = 5) ∧ (a10.clk.suspendAt = none) ∧
      ((a10.lane 1).switchK = none) ∧ (a10.mode = 1) ∧ (a10.link.frozen = true) ∧ ((a10.lane 1).copied = true) ∧
      ((a10.lane 1).dirty ≤ a10.swLim)) ∧
    ((a11.works domVOTE = true) ∧ (a11.lanes.restart = none) ∧ (a11.lstate 1 = 5) ∧ (a11.clk.suspendAt = none) ∧
      ((a11.lane 1).switchK = none) ∧ (a11.mode = 1) ∧ (a11.link.frozen = true) ∧ ((a11.lane 1).copied = true) ∧
      (a11.swLim < (a11.lane 1).dirty)) := by
  decide +kernel

theorem witness_LaneRejoins_3 :
    ((a12.works domVOTE = true) ∧ (a12.lanes.restart = none) ∧ (a12.lstate 1 = 5) ∧ (a12.clk.suspendAt.isSome = true)) ∧
    ((a13.works domVOTE = true) ∧ (a13.lanes.restart = none) ∧ (a13.lstate 1 = 6) ∧ (64 ≤ (a13.lane 1).passes)) ∧
    ((a14.works domVOTE = true) ∧ (a14.lanes.restart = none) ∧ (a14.lstate 1 = 6) ∧ ((a14.lane 1).passes < 64)) := by
  decide +kernel

theorem witness_LaneCommandsAndRestart :
    ((w3.isOn domMGMT = true) ∧ (w3.isOn domVOTE = true) ∧ (1 < 3) ∧
      (w3.allows 1 R.LANE_CMD (BitVec.ofNat 32 (1 % 4 + 0 % 4 * 4)) 4294967295 = true)) ∧
    (((sv w3).isOn domMGMT = true) ∧ ((sv w3).isOn domVOTE = true) ∧ (1 < 3) ∧
      ((sv w3).allows 1 R.LANE_CMD (BitVec.ofNat 32 (1 % 4 + 1 % 4 * 4)) 4294967295 = true) ∧
      ((sv w3).needLevel 1 2 = Status.ok) ∧ ((sv w3).mode = 0) ∧ ((sv w3).nCounted = 3) ∧ ((sv w3).counted 1 = true)) ∧
    (((sv (w2 2)).isOn domMGMT = true) ∧ ((sv (w2 2)).isOn domVOTE = true) ∧ (1 < 3) ∧
      ((sv (w2 2)).allows 1 R.LANE_CMD (BitVec.ofNat 32 (1 % 4 + 1 % 4 * 4)) 4294967295 = true) ∧
      ((sv (w2 2)).needLevel 1 2 = Status.ok) ∧ ((sv (w2 2)).mode ≠ 0)) ∧
    ((w3.isOn domMGMT = true) ∧ (w3.isOn domVOTE = true) ∧ (1 < 3) ∧
      (w3.allows 1 R.LANE_CMD (BitVec.ofNat 32 (1 % 4 + 1 % 4 * 4)) 4294967295 = true) ∧
      (w3.needLevel 1 2 = Status.accessDenied) ∧ (w3.mode = 0) ∧ (w3.counted 1 = true)) ∧
    (((w2 2).isOn domMGMT = true) ∧ ((w2 2).isOn domVOTE = true) ∧ (1 < 3) ∧
      ((w2 2).allows 1 R.LANE_CMD (BitVec.ofNat 32 (1 % 4 + 2 % 4 * 4)) 4294967295 = true) ∧ ((w2 2).lstate 1 = 2) ∧
      ((w2 2).mode = 1) ∧ ((w2 2).isOn (domLANE 1) = true)) ∧
    ((w3.isOn domMGMT = true) ∧ (w3.isOn domVOTE = true) ∧ (1 < 3) ∧
      (w3.allows 1 R.LANE_CMD (BitVec.ofNat 32 (1 % 4 + 2 % 4 * 4)) 4294967295 = true) ∧ (w3.lstate 1 ≠ 2) ∧
      (w3.lstate 1 ≠ 7)) := by
  decide +kernel

theorem witness_LaneCommandsAndRestart_2 :
    (((w2 7).isOn domMGMT = true) ∧ ((w2 7).isOn domVOTE = true) ∧ (1 < 3) ∧
      ((w2 7).allows 1 R.LANE_CMD (BitVec.ofNat 32 (1 % 4 + 2 % 4 * 4)) 4294967295 = true) ∧ ((w2 7).lstate 1 = 7) ∧
      ((w2 7).needLevel 1 2 = Status.accessDenied) ∧ ((w2 7).canRejoin 1 = true)) ∧
    ((w0.isOn domMGMT = true) ∧ (w0.isOn domVOTE = true) ∧ (1 < 3) ∧
      (w0.allows 1 R.LANE_CMD (BitVec.ofNat 32 (1 % 4 + 3 % 4 * 4)) 4294967295 = true) ∧ (w0.mode = 3) ∧
      (w0.lanes.restart = none)) ∧
    ((w3.isOn domMGMT = true) ∧ (w3.isOn domVOTE = true) ∧ (1 < 3) ∧
      (w3.allows 1 R.LANE_CMD (BitVec.ofNat 32 (1 % 4 + 3 % 4 * 4)) 4294967295 = true) ∧ (w3.mode ≠ 3)) ∧
    ((a15.works domVOTE = true) ∧ (a15.mode = 3) ∧ (a15.get F.LANE_CFG_AUTO_RESTART = 1) ∧
      (a15.lanes.restart = none) ∧ (a15.lanes.ceasedAt + uS ≤ max a15.now T)) ∧
    ((a16.works domVOTE = true) ∧ (a16.mode = 3) ∧ (a16.get F.LANE_CFG_AUTO_RESTART = 1) ∧
      (a16.lanes.restart = none) ∧ (max a16.now T < a16.lanes.ceasedAt + uS)) ∧
    ((wr.works domVOTE = true) ∧ (wr.mode = 3) ∧ (wr.lanes.restart.isSome = true) ∧
      ((List.filter (fun l => wr.lstate l == 3 && bit 6 l) (List.range 3)).length < 2)) := by
  decide +kernel

theorem witness_LaneCommandsAndRestart_3 :
    ((wr.works domVOTE = true) ∧ (wr.mode = 3) ∧ (wr.lanes.restart.isSome = true) ∧
      (2 ≤ (List.filter (fun l => wr.lstate l == 3 && bit 3 l) (List.range 3)).length)) ∧
    ((a17.isOn domMGMT = true) ∧ (a17.isOn domVOTE = true) ∧ (1 < 3) ∧
      (a17.allows 1 R.LANE_CMD (BitVec.ofNat 32 (1 % 4 + 3 % 4 * 4)) 4294967295 = true) ∧ (a17.mode = 3) ∧
      (a17.lanes.restart = none)) ∧
    ((a18.works domVOTE = true) ∧ (a18.mode = 3) ∧ (a18.lanes.restart.isSome = true) ∧
      (2 ≤ (List.filter (fun l => a18.lstate l == 3 && bit 7 l) (List.range 3)).length)) := by
  decide +kernel

end Sys2Proof.Tests.W12

namespace Sys2Proof.Tests.W13

open Sys2Proof Sys2Proof.Machine

set_option Elab.async false

def T : Nat := 8000000000000
def D : PWrite := ⟨0, 0, 0⟩
def wo : State := W.setSess 1 { W.sess 1 with pour := some 4 }
def wfull : State := (List.range 16).foldl (fun s k => s.setPstat k 2) W
def ad : Nat := 0x80000
def wc : State := wo.setPslot 4 { writes := [⟨0x60000, 1, 1⟩] }
def wq : State := ((((wc.setPstat 4 3).put (F.POUR_SLOT_ID_ID 4) 7).put (F.POUR_SLOT_STAT_SESSION 4) 1).setPslot 4 { targets := [{ cell := 130, set := [], sent := true }] })
def st (k : Nat) (x : PourSlot) : State := ((W.setPstat 4 k).setPslot 4 x).put F.LANE_STATUS_MODE 0
def fz (s : State) : State := s.setLink fun l => { l with frozen := true, begun := true, cycle := 1000 }
def sf : State := fz (st 2 { writes := [⟨0xFFFFFFF0, 1, 1⟩] })
def fx : State := (fz (st 2 { writes := [⟨0x60000, 0, 0⟩] }))
def ta : Nat := ((rowOf (R.PWM_TYPE_TIME 0)).map (·.base)).getD 0
def own (s : State) : State := (List.range 192).foldl (fun s o => s.put (F.CE_SIG_OWNER (64 + o)) (if o < 25 then 2 else if o < 38 then 3 else if o < 64 then 0 else 2)) ((s.put (F.GRID_CLU_SIG_BASE 1) 64).put (F.PWM_CLU_SRC_VREF_BASE 1) 112 |>.put (F.PWM_CLU_SRC_SHARE_BASE 1) 128)
def fm : State := own <| ((fz (st 2 { writes := [⟨ta, 0x123#32, 0xFFF#32⟩] })).put (F.CELL_CFG_IN_MAP 130) 1).put (F.CELL_STATE_STATE 130) 2
def tk (n : Nat) (x : PourSlot) : State := (fz (st n x)).setLink fun l => { l with frozen := false }
def pl (n c : Nat) : State := (tk n { stageAt := some 5, tc := some 160160000 }).setLink fun l => { l with cycle := c }
def cm (l : Nat) : State := (fz (st 5 { lease := l, tc := some 160160000, targets := [{ cell := 130, set := [], sent := true }] })).put F.VOTE_STATUS_VL2_OK 1
def te : State := st 6 { tc := some 160160000, writes := [⟨ta, 0x123#32, 0xFFF#32⟩] }
def a1 : State := W.put (F.PWR_STATE 5) 0
def a2 : State := W.setSess 1 { W.sess 1 with level := 0 }
def a3 : State := W.put F.POUR_NEXT_ID_ID 0xFFFF
def a4 : State := wq.put (F.POUR_SLOT_STAT_SESSION 4) 3
def a5 : State := (fz (st 2 {})).put F.LANE_STATUS_MODE 2
def a6 : State := ((fz (st 2 { prev := some 3 })).put (F.POUR_SLOT_CFG_CHAIN 4) 1).setPour fun p => { p with aborted := [3] }
def a7 : Nat := (rowOf (R.FRT_CLU_CURVE 0)).get!.base
def a8 : Nat := 8000160000000
def a9 : State := fm.put (F.POUR_SLOT_CFG_POINT 4) 1
def a10 : State := (tk 4 {}).put (F.POUR_SLOT_CFG_POINT 4) 1
def a11 : State := (cm T).put F.LANE_STATUS_MODE 2
def a12 : AccEnv := default
def a13 : State := fz (st 7 { tc := some 100, targets := [{ cell := 130, set := [], sent := true, conf := true }] })
def a14 : State := fz (st 7 { tc := some 100, confirm := 3, targets := [{ cell := 130, set := [], sent := true, conf := false }] })
def a15 : State := (cm T).setPslot 4 { ((cm T).pslot 4) with writes := [⟨ta, 0x123#32, 0xFFF#32⟩] }

theorem witness_PoursBuiltAndSubmitted :
    ((a1.isOn domMGMT = true) ∧
      (Instr.pourCommit T 1 ∈ [Instr.pourBegin T 1 0 0 0 true, Instr.pourAdd T 1 0 0 0, Instr.pourCommit T 1,
        Instr.pourAbort T 1 3]) ∧ (a1.isOn domVOTE = false)) ∧
    ((a2.isOn domMGMT = true) ∧
      (Instr.pourBegin T 1 0 0 0 true ∈ [Instr.pourBegin T 1 0 0 0 true, Instr.pourAdd T 1 0 0 0, Instr.pourCommit T
        1, Instr.pourAbort T 1 3]) ∧ (a2.isOn domVOTE = true) ∧
      (a2.pourMay 1 = Status.version ∨ a2.pourMay 1 = Status.accessDenied) ∧ (a2.freeSlot = some 0) ∧
      ((a2.sess 1).pour = none) ∧ (0 < 3) ∧ (0 ≤ 8) ∧ (0 ≤ (a2.advance T).mtNs + 86400 * 1000000000)) ∧
    ((wo.isOn domMGMT = true) ∧ (wo.isOn domVOTE = true) ∧ (wo.pourMay 1 = Status.ok) ∧ ((wo.sess 1).pour ≠ none) ∧
      (wo.freeSlot ≠ none) ∧ (0 < 3 ∧ 0 ≤ 8 ∧ 0 ≤ (wo.advance T).mtNs + 86400 * 1000000000)) ∧
    ((wfull.isOn domMGMT = true) ∧ (wfull.isOn domVOTE = true) ∧ (wfull.pourMay 1 = Status.ok) ∧
      ((wfull.sess 1).pour = none) ∧ (wfull.freeSlot = none) ∧
      (0 < 3 ∧ 0 ≤ 8 ∧ 0 ≤ (wfull.advance T).mtNs + 86400 * 1000000000)) ∧
    ((W.isOn domMGMT = true) ∧ (W.isOn domVOTE = true) ∧ (W.pourMay 1 = Status.ok) ∧ ((W.sess 1).pour = none) ∧
      (W.freeSlot ≠ none) ∧ (¬(3 < 3 ∧ 0 ≤ 8 ∧ 0 ≤ (W.advance T).mtNs + 86400 * 1000000000))) ∧
    ((W.isOn domMGMT = true) ∧ (W.isOn domVOTE = true) ∧ (W.pourMay 1 = Status.ok) ∧ ((W.sess 1).pour = none) ∧
      (W.freeSlot = some 0) ∧ (2 < 3 ∧ 8 ≤ 8 ∧ 5 ≤ (W.advance T).mtNs + 86400 * 1000000000)) := by
  decide +kernel

theorem witness_PoursBuiltAndSubmitted_2 :
    ((a3.isOn domMGMT = true) ∧ (a3.isOn domVOTE = true) ∧ (a3.pourMay 1 = Status.ok) ∧ ((a3.sess 1).pour = none) ∧
      (a3.freeSlot = some 0) ∧ (2 < 3 ∧ 8 ≤ 8 ∧ 5 ≤ (a3.advance T).mtNs + 86400 * 1000000000)) ∧
    ((W.isOn domMGMT = true) ∧ (W.isOn domVOTE = true) ∧ (W.pourMay 1 = Status.ok) ∧ ((W.sess 1).pour = none)) ∧
    ((wo.isOn domMGMT = true) ∧ (wo.isOn domVOTE = true) ∧ (wo.pourMay 1 = Status.ok) ∧ ((wo.sess 1).pour = some 4) ∧
      (decodeAddr 4294967280 = none)) ∧
    ((wo.isOn domMGMT = true) ∧ (wo.isOn domVOTE = true) ∧ (wo.pourMay 1 = Status.ok) ∧ ((wo.sess 1).pour = some 4) ∧
      (wo.pourJudge 1 4 { addr := 327680, value := 0, mask := 0 : PWrite } ≠ Status.ok)) ∧
    ((wo.isOn domMGMT = true) ∧ (wo.isOn domVOTE = true) ∧ (wo.pourMay 1 = Status.ok) ∧ ((wo.sess 1).pour = some 4) ∧
      ((wo.pslot 4).writes = [])) ∧
    ((wc.isOn domMGMT = true) ∧ (wc.isOn domVOTE = true) ∧ (wc.pourMay 1 = Status.ok) ∧ ((wc.sess 1).pour = some 4) ∧
      ((wc.pslot 4).writes ≠ [])) := by
  decide +kernel

theorem witness_PoursBuiltAndSubmitted_3 :
    ((wc.isOn domMGMT = true) ∧ (wc.isOn domVOTE = true) ∧ (wc.pourMay 1 = Status.ok) ∧
      (List.find? (fun k => wc.get (F.POUR_SLOT_ID_ID k) == 7 && decide (1 ≤ wc.pstat k) && decide (wc.pstat k ≤ 4))
        (List.range 16) = none)) ∧
    ((wq.isOn domMGMT = true) ∧ (wq.isOn domVOTE = true) ∧ (wq.pourMay 1 = Status.ok) ∧
      (List.find? (fun k => wq.get (F.POUR_SLOT_ID_ID k) == 7 && decide (1 ≤ wq.pstat k) && decide (wq.pstat k ≤ 4))
        (List.range 16) = some 4) ∧
      (wq.get (F.POUR_SLOT_STAT_SESSION 4) = 1 ∧ (wq.pslot 4).orphan = false ∨ wq.needLevel 1 2 = Status.ok)) ∧
    ((a4.isOn domMGMT = true) ∧ (a4.isOn domVOTE = true) ∧ (a4.pourMay 1 = Status.ok) ∧
      (List.find? (fun k => a4.get (F.POUR_SLOT_ID_ID k) == 7 && decide (1 ≤ a4.pstat k) && decide (a4.pstat k ≤ 4))
        (List.range 16) = some 4) ∧ (¬(a4.get (F.POUR_SLOT_STAT_SESSION 4) = 1 ∧ (a4.pslot 4).orphan = false)) ∧
      (a4.needLevel 1 2 ≠ Status.ok)) ∧
    ((wo.isOn domMGMT = true) ∧ (wo.isOn domVOTE = true) ∧ (wo.pourMay 1 = Status.ok) ∧ ((wo.sess 1).pour = some 4) ∧
      (wo.pourJudge 1 4 { addr := a7, value := 1, mask := 1 : PWrite } = Status.ok)) := by
  decide +kernel

theorem witness_PoursCheckedAndCommitted :
    ((W.works domVOTE = true) ∧ (Instr.pourCheck T ∈ [Instr.pourCheck T, Instr.pourTokenGrant T]) ∧
      (W.pourHead = none)) ∧
    (((st 3 { : PourSlot }).works domVOTE = true) ∧ ((st 3 { : PourSlot }).pourHead = some 4) ∧
      ((st 3 { : PourSlot }).link.frozen = false ∨ (st 3 { : PourSlot }).pstat 4 ≠ 2)) ∧
    ((a5.works domVOTE = true) ∧ (a5.pourHead = some 4) ∧ (a5.link.frozen = true) ∧ (a5.pstat 4 = 2) ∧
      (a5.lanesRun = false)) := by
  decide +kernel

theorem witness_PoursCheckedAndCommitted_2 :
    ((a6.works domVOTE = true) ∧ (a6.pourHead = some 4) ∧ (a6.link.frozen = true) ∧ (a6.pstat 4 = 2) ∧
      (a6.lanesRun = true) ∧
      (a6.get (F.POUR_SLOT_CFG_CHAIN 4) = 1 ∧ ∃ p, (a6.pslot 4).prev = some p ∧ p ∈ a6.pour.aborted)) ∧
    ((sf.works domVOTE = true) ∧ (sf.pourHead = some 4) ∧ (sf.link.frozen = true) ∧ (sf.pstat 4 = 2) ∧
      (sf.lanesRun = true) ∧
      (¬(sf.get (F.POUR_SLOT_CFG_CHAIN 4) = 1 ∧ ∃ p, (sf.pslot 4).prev = some p ∧ p ∈ sf.pour.aborted)) ∧
      ((sf.advance T).pourFail 4 = some (Status.domainOff, 0, 0, none))) ∧
    ((fx.works domVOTE = true) ∧ (fx.pourHead = some 4) ∧ (fx.link.frozen = true) ∧ (fx.pstat 4 = 2) ∧
      (fx.lanesRun = true) ∧
      (¬(fx.get (F.POUR_SLOT_CFG_CHAIN 4) = 1 ∧ ∃ p, (fx.pslot 4).prev = some p ∧ p ∈ fx.pour.aborted)) ∧
      ((fx.advance T).pourFail 4 = none) ∧ (fx.targetsOf (fx.afterCommitted.stagedSets (fx.pourNew 4) 0) = [])) := by
  decide +kernel

theorem witness_PoursCheckedAndCommitted_3 :
    ((fm.works domVOTE = true) ∧ (fm.pourHead = some 4) ∧ (fm.link.frozen = true) ∧ (fm.pstat 4 = 2) ∧
      (fm.lanesRun = true) ∧
      (¬(fm.get (F.POUR_SLOT_CFG_CHAIN 4) = 1 ∧ ∃ p, (fm.pslot 4).prev = some p ∧ p ∈ fm.pour.aborted)) ∧
      ((fm.advance T).pourFail 4 = none) ∧ (fm.targetsOf (fm.afterCommitted.stagedSets (fm.pourNew 4) 0) ≠ []) ∧
      (((fm.advance T).commitPoint 4 ((fm.advance T).mtUnits + fm.get F.POUR_CFG_STAGE_MAX * uMs)).toOption = some a8)) ∧
    ((a9.works domVOTE = true) ∧ (a9.pourHead = some 4) ∧ (a9.link.frozen = true) ∧ (a9.pstat 4 = 2) ∧
      (a9.lanesRun = true) ∧
      (¬(a9.get (F.POUR_SLOT_CFG_CHAIN 4) = 1 ∧ ∃ p, (a9.pslot 4).prev = some p ∧ p ∈ a9.pour.aborted)) ∧
      ((a9.advance T).pourFail 4 = none) ∧ (a9.targetsOf (a9.afterCommitted.stagedSets (a9.pourNew 4) 0) ≠ []) ∧ (
        (match (a9.advance T).commitPoint 4 ((a9.advance T).mtUnits + a9.get F.POUR_CFG_STAGE_MAX * uMs) with
          | Except.error r => some r
          | Except.ok a => none) =
          some 10)) ∧
    (((st 2 { : PourSlot }).works domVOTE = true) ∧ ((st 2 { : PourSlot }).pourHead = some 4) ∧
      ((st 2 { : PourSlot }).link.begun = false ∨ (st 2 { : PourSlot }).link.frozen = true ∨ (st 2
        { : PourSlot }).link.skip = true ∨ (st 2 { : PourSlot }).lanesRun = false)) := by
  decide +kernel

theorem witness_PoursCheckedAndCommitted_4 :
    (((tk 2 { : PourSlot }).works domVOTE = true) ∧ ((tk 2 { : PourSlot }).pourHead = some 4) ∧
      ((tk 2 { : PourSlot }).link.begun = true) ∧ ((tk 2 { : PourSlot }).link.frozen = false) ∧
      ((tk 2 { : PourSlot }).link.skip = false) ∧ ((tk 2 { : PourSlot }).lanesRun = true) ∧
      (((tk 2 { : PourSlot }).pslot 4).stageAt = none) ∧ ((tk 2 { : PourSlot }).pstat 4 ≠ 4)) ∧
    (((tk 4 { : PourSlot }).works domVOTE = true) ∧ ((tk 4 { : PourSlot }).pourHead = some 4) ∧
      ((tk 4 { : PourSlot }).link.begun = true) ∧ ((tk 4 { : PourSlot }).link.frozen = false) ∧
      ((tk 4 { : PourSlot }).link.skip = false) ∧ ((tk 4 { : PourSlot }).lanesRun = true) ∧
      (((tk 4 { : PourSlot }).pslot 4).stageAt = none) ∧ ((tk 4 { : PourSlot }).pstat 4 = 4) ∧
      ((((tk 4 { : PourSlot }).advance T).commitPoint 4 ((tk 4 { : PourSlot }).tK + 2 * (tk 4
        { : PourSlot }).periodU)).toOption = some 160320000)) ∧
    ((a10.works domVOTE = true) ∧ (a10.pourHead = some 4) ∧ (a10.link.begun = true) ∧ (a10.link.frozen = false) ∧
      (a10.link.skip = false) ∧ (a10.lanesRun = true) ∧ ((a10.pslot 4).stageAt = none) ∧ (a10.pstat 4 = 4) ∧ (
        (match (a10.advance T).commitPoint 4 (a10.tK + 2 * a10.periodU) with
          | Except.error r => some r
          | Except.ok a => none) =
          some 10)) := by
  decide +kernel

theorem witness_PoursCheckedAndCommitted_5 :
    (((pl 4 990).works domVOTE = true) ∧ ((pl 4 990).pourHead = some 4) ∧ ((pl 4 990).link.begun = true) ∧
      ((pl 4 990).link.frozen = false) ∧ ((pl 4 990).link.skip = false) ∧ ((pl 4 990).lanesRun = true) ∧
      (((pl 4 990).pslot 4).stageAt = some 5) ∧ (((pl 4 990).pslot 4).tc = some 160160000) ∧
      ((pl 4 990).pstat 4 = 3 ∨ (pl 4 990).pstat 4 = 4) ∧
      ((↑(pl 4 990).link.cycle : Int) < (↑(160160000 / (pl 4 990).periodU) : Int) - (↑(pl 4 990).link.d : Int) - 3)) ∧
    (((pl 4 996).works domVOTE = true) ∧ ((pl 4 996).pourHead = some 4) ∧ ((pl 4 996).link.begun = true) ∧
      ((pl 4 996).link.frozen = false) ∧ ((pl 4 996).link.skip = false) ∧ ((pl 4 996).lanesRun = true) ∧
      (((pl 4 996).pslot 4).stageAt = some 5) ∧ (((pl 4 996).pslot 4).tc = some 160160000) ∧
      ((pl 4 996).pstat 4 = 3 ∨ (pl 4 996).pstat 4 = 4) ∧ ((pl 4 996).pstat 4 = 4) ∧
      ((↑(pl 4 996).link.cycle : Int) = (↑(160160000 / (pl 4 996).periodU) : Int) - (↑(pl 4 996).link.d : Int) - 3)) ∧
    (((pl 3 996).works domVOTE = true) ∧ ((pl 3 996).pourHead = some 4) ∧ ((pl 3 996).link.begun = true) ∧
      ((pl 3 996).link.frozen = false) ∧ ((pl 3 996).link.skip = false) ∧ ((pl 3 996).lanesRun = true) ∧
      (((pl 3 996).pslot 4).stageAt = some 5) ∧ (((pl 3 996).pslot 4).tc = some 160160000) ∧
      ((pl 3 996).pstat 4 = 3 ∨ (pl 3 996).pstat 4 = 4) ∧
      ((↑(160160000 / (pl 3 996).periodU) : Int) - (↑(pl 3 996).link.d : Int) - 3 < (↑(pl 3 996).link.cycle : Int) ∨
        (pl 3 996).pstat 4 = 3 ∧ (↑(pl 3 996).link.cycle : Int) = (↑(160160000 / (pl 3 996).periodU) : Int) - (↑(pl 3
        996).link.d : Int) - 3)) := by
  decide +kernel

theorem witness_PoursCheckedAndCommitted_6 :
    (((pl 4 997).works domVOTE = true) ∧ ((pl 4 997).pourHead = some 4) ∧ ((pl 4 997).link.begun = true) ∧
      ((pl 4 997).link.frozen = false) ∧ ((pl 4 997).link.skip = false) ∧ ((pl 4 997).lanesRun = true) ∧
      (((pl 4 997).pslot 4).stageAt = some 5) ∧ (((pl 4 997).pslot 4).tc = some 160160000) ∧
      ((pl 4 997).pstat 4 = 3 ∨ (pl 4 997).pstat 4 = 4) ∧
      ((↑(160160000 / (pl 4 997).periodU) : Int) - (↑(pl 4 997).link.d : Int) - 3 < (↑(pl 4 997).link.cycle : Int) ∨
        (pl 4 997).pstat 4 = 3 ∧ (↑(pl 4 997).link.cycle : Int) = (↑(160160000 / (pl 4 997).periodU) : Int) - (↑(pl 4
        997).link.d : Int) - 3)) ∧
    ((W.works domVOTE = true) ∧ (List.find? (fun k => W.pstat k == 5) (List.range 16) = none) ∧
      (Instr.pourCommitted T ∈ [Instr.pourCommitted T, Instr.pourTokenExpired T])) ∧
    (((cm 5).works domVOTE = true) ∧ (List.find? (fun k => (cm 5).pstat k == 5) (List.range 16) = some 4) ∧
      (¬((cm 5).lanesRun = true ∧ (cm 5).vlWorks = true ∧ (cm 5).link.frozen = true ∧ ((cm 5).advance T).mtUnits ≤
        ((cm 5).pslot 4).lease))) := by
  decide +kernel

theorem witness_PoursCheckedAndCommitted_7 :
    (((cm T).works domVOTE = true) ∧ (List.find? (fun k => (cm T).pstat k == 5) (List.range 16) = some 4) ∧
      ((cm T).lanesRun = true ∧ (cm T).vlWorks = true ∧ (cm T).link.frozen = true ∧ ((cm T).advance T).mtUnits ≤ ((cm
        T).pslot 4).lease)) ∧
    (((cm (T + 1)).works domVOTE = true) ∧
      (List.find? (fun k => (cm (T + 1)).pstat k == 5) (List.range 16) = some 4) ∧
      (((cm (T + 1)).advance T).mtUnits < ((cm (T + 1)).pslot 4).lease)) ∧
    (((cm T).works domVOTE = true) ∧ (List.find? (fun k => (cm T).pstat k == 5) (List.range 16) = some 4) ∧
      (((cm T).pslot 4).lease ≤ ((cm T).advance T).mtUnits)) := by
  decide +kernel

theorem witness_PoursCheckedAndCommitted_8 :
    ((a11.works domVOTE = true) ∧ (List.find? (fun k => a11.pstat k == 5) (List.range 16) = some 4) ∧
      ((a11.pslot 4).lease ≤ (a11.advance T).mtUnits)) ∧
    ((W.works domVOTE = true) ∧ ((W.advance T).duePours = [])) ∧
    ((te.works domVOTE = true) ∧ ((te.advance T).duePours = [4]) ∧
      (∀ (w : PWrite), w ∈ (te.pslot 4).writes → actsWrite w = false)) := by
  decide +kernel

theorem witness_PoursCheckedAndCommitted_9 :
    ((W.works domVOTE = true) ∧
      ((W.bySeq (List.filter (fun k => W.pstat k == 7 && decide ((W.pslot k).tc.getD 0 + ((W.pslot k).confirm - 1) *
        W.periodU ≤ W.tK)) (List.range 16))).head? = none ∨ W.link.frozen = false)) ∧
    ((a13.works domVOTE = true) ∧
      ((a13.bySeq (List.filter (fun k => a13.pstat k == 7 && decide ((a13.pslot k).tc.getD 0 + ((a13.pslot k).confirm
        - 1) * a13.periodU ≤ a13.tK)) (List.range 16))).head? = some 4) ∧ (a13.link.frozen = true) ∧
      (∀ (g : PTarget), g ∈ (a13.pslot 4).targets → g.conf = true) ∧ ((a13.pslot 4).clus = [])) ∧
    ((a14.works domVOTE = true) ∧
      ((a14.bySeq (List.filter (fun k => a14.pstat k == 7 && decide ((a14.pslot k).tc.getD 0 + ((a14.pslot k).confirm
        - 1) * a14.periodU ≤ a14.tK)) (List.range 16))).head? = some 4) ∧ (a14.link.frozen = true)) := by
  decide +kernel

theorem witness_PoursCheckedAndCommitted_10 :
    ((a15.works domVOTE = true) ∧ (List.find? (fun k => a15.pstat k == 5) (List.range 16) = some 4) ∧
      ((a15.pslot 4).lease ≤ (a15.advance T).mtUnits)) := by
  decide +kernel

end Sys2Proof.Tests.W13

namespace Sys2Proof.Tests.W14

open Sys2Proof Sys2Proof.Machine

set_option Elab.async false

def T : Nat := 8000000000000
def P : List Byte := [1,2,3]
def on (m : Nat) (s : State) : State := ((s.put (F.REC_STRM_CFG_EN m) 1).put (F.REC_STRM_CFG_KIND m) 1).setRec fun c => { c with offered := [{ stream := 9, time := 7, flags := 2, payload := [1,2,3] }, { stream := m, time := 7, flags := 2, payload := [1,2,3] }, { stream := m, time := 8, flags := 2, payload := [1,2,4] }] }
def nodram (s : State) : State := s.put ⟨R.PWR_STATE_HI, 2*domDRAM-32, 2⟩ 0
def fo (m : Nat) : Offer := { stream := m, time := 7, flags := 2, payload := P }
def full (n : Nat) (s : State) : State := s.setRec fun c => { c with used := n }
def mnt (s : State) : State := (((s.put F.REC_STATUS_STATE 2).put (F.REC_PAIR_STAT_STATE 0) 1).put (F.REC_DRV_STAT_STATE 0) 2).put (F.REC_DRV_STAT_STATE 2) 2 |>.setRec fun c => { c with nseg := 100 }
def le : LogEntry := { seq := 5, time := 6, code := 0x101, dom := 3, flags := 1, inst := 2, data := [.w 3] }
def op (t : Nat) (s : State) : State := s.setRec fun c => { c with opened := some (1, { id := 2, start := 64, streams := [(3, some 4)], firstAt := t }), segs := [{ id := 1, pair := 0, pseg := 1, cap := none, off := 128, phase := 0, index := [], flush := [] }], nextId := 10 }
def cp : CCap := { id := 7, tg := 100, start := 50, end_ := 120, srcs := 1, flags := 2, trigs := 1, tgNs := 5, total := 1000, issued := 900, done := 800, ended := false, seg := none, segs := [] }
def cap (k : Nat) (x : CCap) : State := (W.setRec fun c => { c with caps := [x] }).setLink fun l => { l with cycle := k }
def cp2 : CCap := { cp with issued := 1000, done := 1000 }
def norec (s : State) : State := s.put (F.PWR_STATE domREC) 0
def gi : DriveId := { width := 2, gen4 := true, mqes := 64, queues := 4, nsOk := true, bytes := 4*1073741824, vwc := false, wceOff := false, super := none }
def en (d : Nat) (s : State) : State := s.put (F.REC_DRV_CFG_EN d) 1
def sb : Superblock := { storeId := 5, gen := 1, layout := 0, pair := 1, nseg := 64, head := 3, time := 4, front := [] }
def cm (x : CCmd) (s : State) : State := s.setRec fun c => { c with cmds := [x], nextId := 20 }
def c0 : CCmd := { id := 9, drive := 0, use := .data 4, due := T+5, retried := false, abort := none }
def vu : CUnit := { id := 4, seg := 3, bytes := 64, streams := [(0, some 8)], cap := none, sent := true, done := [2], complete := false }
def gu : CSeg := { id := 3, pair := 0, pseg := 1, cap := none, off := 128, phase := 0, index := [], flush := [] }
def ru : CRec := { stream := 0, typ := 0, flags := 0, seq := 8, time := 5, count := 1, payload := P, units := [4], pair := 0, pseg := 1 }
def du : State := (mnt (cm c0 W)).setRec fun c => { c with units := [vu], segs := [gu], staged := [ru], used := ru.size }
def c0e : CCmd := { c0 with due := T }
def c1e : CCmd := { c0e with retried := true }
def c1 : CCmd := { c0 with retried := true }
def S2 (s : State) : State := s.setSess 1 { s.sess 1 with level := 2 }
def sg (st : Nat) : State := (((W.put F.REC_STATUS_STATE 2).put (F.REC_PAIR_STAT_STATE 0) 2).put (F.REC_DRV_STAT_STATE 0) 2).put (F.REC_DRV_STAT_STATE 2) st |>.setRec fun c => { c with nseg := 100 }
def m1 : State := ((W.put F.REC_STATUS_STATE 1).put (F.REC_DRV_STAT_STATE 0) 1).setCdrive 0 { nseg := 64, super := some sb }
def a1 : State := nodram (on 3 W)
def a2 : State := nodram ((on 63 W).setStrm 63 { pend := some (1,2,3,4,5) })
def a3 : State := full (3520*1048576) (on 3 W)
def a4 : State := mnt (on 3 W)
def a5 : State := (on 3 W).setStrm 3 { pend := some (1,2,3,4,1) }
def a6 : State := (on 3 W).setStrm 3 { pend := some (1,2,3,4,1), gapAt := some T }
def a7 : State := W.setLog fun l => { l with offered := [le] }
def a8 : List LogEntry := []
def a9 : State := W.setMtr fun l => { l with offered := [default] }
def a10 : IntRec := default
def a11 : List IntRec := []
def a12 : COpen := { id := 2, start := 64, streams := [(3, some 4)], firstAt := T }
def a13 : State := mnt (op (T-uS) W)
def a14 : COpen := { id := 2, start := 64, streams := [(3, some 4)], firstAt := T-uS }
def a15 : State := mnt (W.setRec fun c => { c with ckptAt := T - 10*uS})
def a16 : State := mnt (W.setRec fun c => { c with ckptAt := T - 10*uS+1})
def a17 : State := mnt (cap 120 cp)
def a18 : State := cap 120 cp2
def a19 : State := mnt (cap 120 cp2)
def a20 : State := mnt (W.put F.REC_STATUS_PEAK_PCT 9)
def a21 : State := W.put (F.REC_DRV_CFG_EN 1) 0
def a22 : DriveId := { gi with width := 0 }
def a23 : State := mnt (en 0 W)
def a24 : DriveId := { gi with nsOk := false }
def a25 : DriveId := { gi with super := some sb }
def a26 : State := mnt (en 1 W)
def a27 : DriveId := {gi with width := 0}
def a28 : DriveId := {gi with queues := 3}
def a29 : DriveId := {gi with nsOk := false}
def a30 : DriveId := {gi with bytes := 4}
def a31 : State := mnt (cm c0 W)
def a32 : State := mnt (cm { c0 with abort := some 3 } W)
def a33 : CCmd := { c0 with abort := some 3 }
def a34 : State := (mnt (cm { c0 with abort := some 3 } W)).put F.REC_STATUS_STATE 4
def a35 : State := mnt (cm c1 W)
def a36 : State := mnt (cm { c0 with due := T } W)
def a37 : CCmd := { c0 with due := T }
def a38 : State := mnt (cm { c0 with due := T+1 } W)
def a39 : CCmd := { c0 with due := T+1 }
def a40 : State := mnt (cm c1e W)
def a41 : State := mnt (cm c0e W)
def a42 : State := mnt (cm { c0 with abort := some T } W)
def a43 : State := mnt (S2 (W.put (F.REC_DRV_STAT_STATE 1) 7))
def a44 : State := S2 (cap 3 cp)
def a45 : State := S2 ((sg 6).put (F.REC_DRV_STAT_CAUSE 2) 6)
def a46 : State := S2 ((sg 6).put (F.REC_DRV_STAT_CAUSE 2) 6) |>.setRec (fun c => { c with pair := c.pair.set 0 { held := true, next := 5 }})
def a47 : State := S2 ((sg 6).put (F.REC_DRV_STAT_CAUSE 2) 5)
def a48 : State := ((sg 6).put (F.REC_DRV_STAT_CAUSE 2) 6)
def a49 : State := m1.put (F.REC_DRV_STAT_STATE 0) 7
def a50 : State := W.put F.REC_STATUS_STATE 1

theorem witness_RecordsStagedAndFlushed :
    ((3 ≤ 3) ∧
      (∀ (o : Offer), List.find? (fun o => o.stream == 3) W.carafe.offered = some o → o.time ≠ 7 ∨ o.payload ≠ P)) ∧
    ((3 ≤ 3) ∧
      (∀ (o : Offer), List.find? (fun o => o.stream == 3) (on 3 W).carafe.offered = some o → o.time ≠ 8 ∨ o.payload ≠
        P)) ∧
    ((3 ≤ 3) ∧ (List.find? (fun o => o.stream == 3) a1.carafe.offered = some (fo 3)) ∧ (a1.works domDRAM = false)) ∧
    ((3 ≤ 63) ∧ (List.find? (fun o => o.stream == 63) a2.carafe.offered = some (fo 63)) ∧ (a2.works domDRAM = false)) ∧
    ((3 ≤ 3) ∧ (List.find? (fun o => o.stream == 3) a3.carafe.offered = some (fo 3)) ∧ (a3.works domDRAM = true) ∧
      ((a3.strm 3).pend = none) ∧
      (decide ((a3.carafe.used +
        { stream := 3, typ := 0, flags := (fo 3).flags, seq := a3.get64 (R.REC_STRM_SEQ_LO 3) (R.REC_STRM_SEQ_HI 3), time := (fo 3).time, count := 1, payload := (fo 3).payload, units := [], pair := 0, pseg := 0 : CRec }.size)
        * 100 ≤ a3.watermark (a3.strmPrio 3) * (3520 * 1048576)) = false)) ∧
    ((3 ≤ 3) ∧ (List.find? (fun o => o.stream == 3) (on 3 W).carafe.offered = some (fo 3)) ∧
      ((on 3 W).works domDRAM = true) ∧ (((on 3 W).strm 3).pend = none) ∧
      (decide (((on 3 W).carafe.used +
        { stream := 3, typ := 0, flags := (fo 3).flags, seq := (on 3 W).get64 (R.REC_STRM_SEQ_LO 3) (R.REC_STRM_SEQ_HI 3), time := (fo 3).time, count := 1, payload := (fo 3).payload, units := [], pair := 0, pseg := 0 : CRec }.size)
        * 100 ≤ (on 3 W).watermark ((on 3 W).strmPrio 3) * (3520 * 1048576)) = true)) := by
  decide +kernel

theorem witness_RecordsStagedAndFlushed_2 :
    ((3 ≤ 3) ∧ (List.find? (fun o => o.stream == 3) (on 3 W).carafe.offered = some (fo 3)) ∧
      ((on 3 W).works domDRAM = true) ∧ (((on 3 W).strm 3).pend = none) ∧
      (decide (((on 3 W).carafe.used +
        { stream := 3, typ := 0, flags := (fo 3).flags, seq := (on 3 W).get64 (R.REC_STRM_SEQ_LO 3) (R.REC_STRM_SEQ_HI 3), time := (fo 3).time, count := 1, payload := (fo 3).payload, units := [], pair := 0, pseg := 0 : CRec }.size)
        * 100 ≤ (on 3 W).watermark ((on 3 W).strmPrio 3) * (3520 * 1048576)) = true) ∧ ((on 3 W).recState ≠ 2)) ∧
    ((3 ≤ 3) ∧ (List.find? (fun o => o.stream == 3) a4.carafe.offered = some (fo 3)) ∧ (a4.works domDRAM = true) ∧
      ((a4.strm 3).pend = none) ∧
      (decide ((a4.carafe.used +
        { stream := 3, typ := 0, flags := (fo 3).flags, seq := a4.get64 (R.REC_STRM_SEQ_LO 3) (R.REC_STRM_SEQ_HI 3), time := (fo 3).time, count := 1, payload := (fo 3).payload, units := [], pair := 0, pseg := 0 : CRec }.size)
        * 100 ≤ a4.watermark (a4.strmPrio 3) * (3520 * 1048576)) = true)) ∧
    ((3 ≤ 3) ∧ (List.find? (fun o => o.stream == 3) a5.carafe.offered = some (fo 3)) ∧ (a5.works domDRAM = true) ∧
      (a5.recState ≠ 2) ∧ ((a5.strm 3).pend = some (1, 2, 3, 4, 1)) ∧
      (decide ((a5.carafe.used + 56) * 100 ≤ 100 * (3520 * 1048576)) = true) ∧
      (decide ((a5.carafe.used + (56 +
        { stream := 3, typ := 0, flags := (fo 3).flags, seq := a5.get64 (R.REC_STRM_SEQ_LO 3) (R.REC_STRM_SEQ_HI 3), time := (fo 3).time, count := 1, payload := (fo 3).payload, units := [], pair := 0, pseg := 0 : CRec }.size))
        * 100 ≤ a5.watermark (a5.strmPrio 3) * (3520 * 1048576)) = true)) ∧
    ((3 ≤ 3) ∧ (List.find? (fun o => o.stream == 3) a6.carafe.offered = some (fo 3)) ∧ (a6.works domDRAM = true) ∧
      (a6.recState ≠ 2) ∧ ((a6.strm 3).pend = some (1, 2, 3, 4, 1)) ∧
      (decide ((a6.carafe.used + 56) * 100 ≤ 100 * (3520 * 1048576)) = true) ∧
      (decide ((a6.carafe.used + (56 +
        { stream := 3, typ := 0, flags := (fo 3).flags, seq := a6.get64 (R.REC_STRM_SEQ_LO 3) (R.REC_STRM_SEQ_HI 3), time := (fo 3).time, count := 1, payload := (fo 3).payload, units := [], pair := 0, pseg := 0 : CRec }.size))
        * 100 ≤ a6.watermark (a6.strmPrio 3) * (3520 * 1048576)) = true)) ∧
    ((∀ (e : LogEntry), e ∈ W.log.offered.head? → e.time ≠ 7 ∨ e.bytes ≠ P)) ∧
    ((∀ (i : IntRec), i ∈ W.mtr.offered.head? → i.time ≠ 7 ∨ i.bytes ≠ P)) := by
  and_intros
  all_goals first
    | decide +kernel
    | exact all_some (by decide +kernel)
    | exact not_all_some (by decide +kernel)
    | exact ex_some (by decide +kernel)
    | (intro j k; exact nofun)

theorem witness_RecordsStagedAndFlushed_3 :
    ((a7.log.offered = le :: a8) ∧ (a7.works domDRAM = true) ∧ ((a7.strm 0).pend = none) ∧ (a7.recState ≠ 2) ∧
      (decide ((a7.carafe.used +
        { stream := 0, typ := 0, flags := le.flags % 4, seq := a7.get64 (R.REC_STRM_SEQ_LO 0) (R.REC_STRM_SEQ_HI 0), time := le.time, count := 1, payload := le.bytes, units := [], pair := 0, pseg := 0 : CRec }.size)
        * 100 ≤ 100 * (3520 * 1048576)) = true)) ∧
    ((∀ (e : LogEntry), e ∈ a7.log.offered.head? → e.time ≠ 7 ∨ e.bytes ≠ P)) ∧
    ((a9.mtr.offered = a10 :: a11) ∧ (a9.works domDRAM = true) ∧ ((a9.strm 1).pend = none) ∧ (a9.recState ≠ 2) ∧
      (decide ((a9.carafe.used +
        { stream := 1, typ := 0, flags := (a9.advance T).recFlags, seq := a9.get64 (R.REC_STRM_SEQ_LO 1) (R.REC_STRM_SEQ_HI 1), time := a10.time, count := 1, payload := a10.bytes, units := [], pair := 0, pseg := 0 : CRec }.size)
        * 100 ≤ 100 * (3520 * 1048576)) = true)) ∧
    ((W.works domREC = true) ∧ (W.carafe.opened = none)) ∧
    (((op T W).works domREC = true) ∧ ((op T W).carafe.opened = some (1, a12)) ∧
      (max (op T W).now T < a12.firstAt + (op T W).get F.REC_CFG_FLUSH_MS * uMs)) ∧
    ((a13.works domREC = true) ∧ (a13.carafe.opened = some (1, a14)) ∧
      (a14.firstAt + a13.get F.REC_CFG_FLUSH_MS * uMs ≤ max a13.now T)) := by
  decide +kernel

theorem witness_RecordsStagedAndFlushed_4 :
    ((a15.works domREC = true) ∧ (a15.recState = 2) ∧ (a15.carafe.ckptAt + 10 * uS ≤ max a15.now T)) ∧
    ((a16.works domREC = true) ∧ (a16.recState ≠ 2 ∨ max a16.now T < a16.carafe.ckptAt + 10 * uS)) ∧
    ((W.works domDRAM = true)) ∧
    (((cap 120 cp).works domDRAM = true)) ∧
    ((a17.works domDRAM = true)) ∧
    (((cap 120 cp).works domDRAM = true) ∧ ((cap 120 cp).recState ≠ 2) ∧ ((cap 120 cp).carafe.units = []) ∧
      (∀ (c : CCap), c ∈ (cap 120 cp).carafe.caps → c.issued < c.total) ∧
      (∀ (d : Nat), d < 4 → ((cap 120 cp).cdrive d).copy = none)) := by
  decide +kernel

theorem witness_RecordsStagedAndFlushed_5 :
    ((a18.works domDRAM = true) ∧ (a18.recState ≠ 2) ∧ (a18.carafe.units = []) ∧ (a18.carafe.segs = []) ∧
      (a18.carafe.caps = [cp2]) ∧ (cp2.end_ ≤ a18.link.cycle) ∧ (cp2.done = cp2.total) ∧ (cp2.issued = cp2.total) ∧
      (cp2.seg = none)) ∧
    ((a19.works domDRAM = true)) ∧
    ((W.isOn domMGMT = true) ∧ (W.isOn domDRAM = true) ∧ (W.allows 1 R.REC_CAP_CMD 1 1 = true)) ∧
    (((nodram W).isOn domMGMT = true) ∧ ((nodram W).isOn domDRAM = false)) ∧
    ((a20.isOn domMGMT = true) ∧ (a20.isOn domREC = true)) ∧
    (((norec W).isOn domMGMT = true) ∧ ((norec W).isOn domREC = false)) := by
  decide +kernel

theorem witness_DrivesIdentifiedAndFailed :
    ((a21.works domREC = true) ∧ (a21.get (F.REC_DRV_CFG_EN 1) = 0)) ∧
    (((en 1 W).works domREC = true) ∧ ((en 1 W).get (F.REC_DRV_CFG_EN 1) = 1) ∧ ((en 1 W).driveCause 1 a22 ≠ 0)) ∧
    ((a23.works domREC = true) ∧ (a23.get (F.REC_DRV_CFG_EN 0) = 1) ∧ (a23.driveCause 0 a24 ≠ 0)) ∧
    (((en 1 W).works domREC = true) ∧ ((en 1 W).get (F.REC_DRV_CFG_EN 1) = 1) ∧ ((en 1 W).driveCause 1 gi = 0) ∧
      ((en 1 W).recState ≠ 2) ∧ ((en 1 W).recState ≠ 3)) ∧
    (((en 1 W).works domREC = true) ∧ ((en 1 W).get (F.REC_DRV_CFG_EN 1) = 1) ∧ ((en 1 W).driveCause 1 a25 = 0) ∧
      ((en 1 W).recState ≠ 2) ∧ ((en 1 W).recState ≠ 3)) ∧
    ((a26.works domREC = true) ∧ (a26.get (F.REC_DRV_CFG_EN 1) = 1) ∧ (a25.super = some sb) ∧
      (a26.driveCause 1 a25 = 0) ∧ (a26.recState = 2 ∨ a26.recState = 3) ∧ (some sb.storeId ≠ a26.carafe.storeId)) := by
  decide +kernel

theorem witness_DrivesIdentifiedAndFailed_2 :
    ((W.works domREC = true) ∧ (a27.width = 0)) ∧
    ((W.works domREC = true) ∧ (0 < a28.width) ∧ (a28.mqes < 64 ∨ a28.queues < 4)) ∧
    ((W.works domREC = true) ∧ (0 < a29.width) ∧ (64 ≤ a29.mqes) ∧ (4 ≤ a29.queues) ∧ (a29.nsOk = false)) ∧
    ((W.works domREC = true) ∧ (0 < a30.width) ∧ (64 ≤ a30.mqes) ∧ (4 ≤ a30.queues) ∧ (a30.nsOk = true) ∧
      (a30.bytes < 4 * 1073741824)) ∧
    ((W.works domREC = true) ∧ ((W.carafe.cmds.any fun c => c.id == 3) = false)) ∧
    ((a31.works domREC = true) ∧ (List.find? (fun c => c.id == 9) a31.carafe.cmds = some c0) ∧ (c0.drive < 4)) := by
  decide +kernel

theorem witness_DrivesIdentifiedAndFailed_3 :
    ((a32.works domREC = true) ∧ (List.find? (fun c => c.id == 9) a32.carafe.cmds = some a33) ∧ (a33.drive < 4) ∧
      (a33.abort.isSome = true) ∧
      (a32.carafe.units = [] ∧ a32.carafe.segs = [] ∧ a32.carafe.caps = [] ∧ a32.carafe.staged = [] ∧
        a32.carafe.opened = none ∧ a32.carafe.waiting = [] ∧ ∀ (d : Nat), d < 4 → (a32.cdrive d).copy = none)) ∧
    ((a34.works domREC = true) ∧ (List.find? (fun c => c.id == 9) a34.carafe.cmds = some a33) ∧ (a33.drive < 4) ∧
      (a33.abort.isSome = true) ∧
      (a34.carafe.units = [] ∧ a34.carafe.segs = [] ∧ a34.carafe.caps = [] ∧ a34.carafe.staged = [] ∧
        a34.carafe.opened = none ∧ a34.carafe.waiting = [] ∧ ∀ (d : Nat), d < 4 → (a34.cdrive d).copy = none)) ∧
    ((du.works domREC = true) ∧ (List.find? (fun c => c.id == 9) du.carafe.cmds = some c0) ∧ (c0.drive < 4) ∧
      (c0.abort = none) ∧ ((du.advance T).mtUnits < c0.due) ∧ (true = true) ∧ (c0.use = CUse.data 4) ∧
      (du.carafe.units = [vu]) ∧ (vu.id = 4) ∧ (vu.sent = true) ∧ (vu.complete = false) ∧ (vu.cap = none) ∧
      (du.carafe.segs = [gu]) ∧ (gu.id = vu.seg) ∧ (gu.phase = 0) ∧ (gu.pair < 4) ∧ (du.carafe.caps = []) ∧
      (du.carafe.staged = [ru]) ∧ (ru.units = [4]) ∧ (c0.drive ∈ du.members gu.pair) ∧
      (∀ (e : Nat), e ∈ du.members gu.pair → e = c0.drive ∨ e ∈ vu.done) ∧ (du.carafe.used = ru.size)) ∧
    ((du.works domREC = true) ∧ (List.find? (fun c => c.id == 9) du.carafe.cmds = some c0) ∧ (c0.drive < 4)) ∧
    ((a31.works domREC = true) ∧ (List.find? (fun c => c.id == 9) a31.carafe.cmds = some c0) ∧ (c0.drive < 4) ∧
      (c0.abort = none) ∧ ((a31.advance T).mtUnits < c0.due) ∧ (false = false) ∧
      (a31.carafe.units = [] ∧ a31.carafe.segs = [] ∧ a31.carafe.caps = [] ∧ a31.carafe.staged = [] ∧
        a31.carafe.opened = none ∧ a31.carafe.waiting = [] ∧ ∀ (d : Nat), d < 4 → (a31.cdrive d).copy = none) ∧
      (c0.retried = false) ∧ (a31.drvState c0.drive = 2 ∨ a31.drvState c0.drive = 3) ∧
      ((List.filter (fun c => c.drive == c0.drive && c.use.credit == c0.use.credit) (List.filter (fun c => c.id != 9)
        a31.carafe.cmds)).length < c0.use.credit.slots)) ∧
    ((a35.works domREC = true) ∧ (List.find? (fun c => c.id == 9) a35.carafe.cmds = some c1) ∧ (c1.drive < 4) ∧
      (c1.abort = none) ∧ ((a35.advance T).mtUnits < c1.due) ∧ (false = false) ∧
      (a35.carafe.units = [] ∧ a35.carafe.segs = [] ∧ a35.carafe.caps = [] ∧ a35.carafe.staged = [] ∧
        a35.carafe.opened = none ∧ a35.carafe.waiting = [] ∧ ∀ (d : Nat), d < 4 → (a35.cdrive d).copy = none) ∧
      (c1.retried = true) ∧ (a35.drvState c1.drive = 2 ∨ a35.drvState c1.drive = 3)) := by
  and_intros
  all_goals first
    | decide +kernel
    | exact all_some (by decide +kernel)
    | exact not_all_some (by decide +kernel)
    | exact ex_some (by decide +kernel)
    | (intro j k; exact nofun)

theorem witness_DrivesIdentifiedAndFailed_4 :
    ((a36.works domREC = true) ∧ (List.find? (fun c => c.id == 9) a36.carafe.cmds = some a37) ∧ (a37.drive < 4) ∧
      (a37.abort = none) ∧ (a37.due ≤ (a36.advance T).mtUnits)) ∧
    ((a38.works domREC = true) ∧ (List.find? (fun c => c.id == 9) a38.carafe.cmds = some a39) ∧ (a39.drive < 4) ∧
      (a39.abort.isSome = true ∨ (a38.advance T).mtUnits < a39.due)) ∧
    ((a40.works domREC = true) ∧ (List.find? (fun c => c.id == 9) a40.carafe.cmds = some c1e) ∧ (c1e.drive < 4) ∧
      (c1e.abort = none) ∧ (c1e.due ≤ (a40.advance T).mtUnits)) ∧
    ((a41.works domREC = true) ∧ (List.find? (fun c => c.id == 9) a41.carafe.cmds = some c0e) ∧ (c0e.drive < 4) ∧
      (c0e.abort = none) ∧ (c0e.due ≤ (a41.advance T).mtUnits) ∧
      (a41.carafe.units = [] ∧ a41.carafe.segs = [] ∧ a41.carafe.caps = [] ∧ a41.carafe.staged = [] ∧
        a41.carafe.opened = none ∧ a41.carafe.waiting = [] ∧ ∀ (d : Nat), d < 4 → (a41.cdrive d).copy = none) ∧
      (c0e.retried = false) ∧ (a41.drvState c0e.drive = 2 ∨ a41.drvState c0e.drive = 3) ∧
      (a41.credits c0e.drive c0e.use.credit < c0e.use.credit.slots)) ∧
    ((a31.works domREC = true) ∧ (
        (a31.carafe.cmds.any fun c =>
            c.drive == 0 &&
              match c.abort with
              | some a => decide (a ≤ max a31.now T)
              | none => false) =
          false)) ∧
    ((a42.works domREC = true) ∧ (
        (a42.carafe.cmds.any fun c =>
            c.drive == 0 &&
              match c.abort with
              | some a => decide (a ≤ max a42.now T)
              | none => false) =
          true)) := by
  decide +kernel

theorem witness_DrivesIdentifiedAndFailed_5 :
    ((a42.works domREC = true) ∧ (
        (a42.carafe.cmds.any fun c =>
            c.drive == 0 &&
              match c.abort with
              | some a => decide (a ≤ max a42.now T)
              | none => false) =
          true) ∧
      (a42.carafe.units = [] ∧ a42.carafe.segs = [] ∧ a42.carafe.caps = [] ∧ a42.carafe.staged = [] ∧
        a42.carafe.opened = none ∧ a42.carafe.waiting = [] ∧ ∀ (d : Nat), d < 4 → (a42.cdrive d).copy = none)) ∧
    ((W.works domREC = true) ∧
      (¬((W.drvState 0 = 2 ∨ W.drvState 0 = 3) ∧ (W.advance T).quiet (W.cdrive 0).smartAt (3600 * uS) = true))) ∧
    (((mnt W).works domREC = true) ∧
      (((mnt W).drvState 0 = 2 ∨ (mnt W).drvState 0 = 3) ∧ ((mnt W).advance T).quiet ((mnt W).cdrive 0).smartAt (3600
        * uS) = true) ∧ ((Nat.testBit 2 0 || Nat.testBit 2 2 || Nat.testBit 2 3) = false)) ∧
    (((mnt W).works domREC = true) ∧
      (((mnt W).drvState 0 = 2 ∨ (mnt W).drvState 0 = 3) ∧ ((mnt W).advance T).quiet ((mnt W).cdrive 0).smartAt (3600
        * uS) = true) ∧ ((Nat.testBit 258 0 || Nat.testBit 258 2 || Nat.testBit 258 3) = false)) ∧
    (((mnt W).works domREC = true) ∧
      (((mnt W).drvState 0 = 2 ∨ (mnt W).drvState 0 = 3) ∧ ((mnt W).advance T).quiet ((mnt W).cdrive 0).smartAt (3600
        * uS) = true) ∧ ((Nat.testBit 4 0 || Nat.testBit 4 2 || Nat.testBit 4 3) = true)) ∧
    (((mnt W).works domREC = true) ∧
      (((mnt W).drvState 0 = 2 ∨ (mnt W).drvState 0 = 3) ∧ ((mnt W).advance T).quiet ((mnt W).cdrive 0).smartAt (3600
        * uS) = true) ∧ ((Nat.testBit 4 0 || Nat.testBit 4 2 || Nat.testBit 4 3) = true) ∧
      ((mnt W).carafe.units = [] ∧ (mnt W).carafe.segs = [] ∧ (mnt W).carafe.caps = [] ∧ (mnt W).carafe.staged = [] ∧
        (mnt W).carafe.opened = none ∧ (mnt W).carafe.waiting = [] ∧ ∀ (d : Nat), d < 4 → ((mnt W).cdrive d).copy =
        none)) := by
  decide +kernel

theorem witness_StoreCommandsAndMount :
    ((W.isOn domMGMT = true) ∧ (W.isOn domREC = true) ∧
      (W.allows 1 R.REC_CMD (BitVec.ofNat 32 (0 % 8 + 2 % 4 * 8)) 4294967295 = true)) ∧
    ((W.isOn domMGMT = true) ∧ (W.isOn domREC = true) ∧
      (W.allows 1 R.REC_CMD (BitVec.ofNat 32 (1 % 8 + 2 % 4 * 8)) 4294967295 = true) ∧ (W.recState ≠ 2)) ∧
    (((mnt W).isOn domMGMT = true) ∧ ((mnt W).isOn domREC = true) ∧
      ((mnt W).allows 1 R.REC_CMD (BitVec.ofNat 32 (1 % 8 + 2 % 4 * 8)) 4294967295 = true) ∧ ((mnt W).recState = 2)) ∧
    (((mnt W).isOn domMGMT = true) ∧ ((mnt W).isOn domREC = true) ∧
      ((mnt W).allows 1 R.REC_CMD (BitVec.ofNat 32 (1 % 8 + 2 % 4 * 8)) 4294967295 = true) ∧ ((mnt W).recState = 2) ∧
      ((mnt W).carafe.units = [] ∧ (mnt W).carafe.segs = [] ∧ (mnt W).carafe.caps = [] ∧ (mnt W).carafe.staged = [] ∧
        (mnt W).carafe.opened = none ∧ (mnt W).carafe.waiting = [] ∧ ∀ (d : Nat), d < 4 → ((mnt W).cdrive d).copy =
        none) ∧ (((List.range 4).any fun p => !((mnt W).members p).isEmpty) = true)) ∧
    (((mnt (S2 W)).isOn domMGMT = true) ∧ ((mnt (S2 W)).isOn domREC = true) ∧
      ((mnt (S2 W)).allows 1 R.REC_CMD (BitVec.ofNat 32 (2 % 8 + 2 % 4 * 8)) 4294967295 = true) ∧
      ((mnt (S2 W)).needLevel 1 2 = Status.ok) ∧ ((mnt (S2 W)).exports = 0) ∧ ((mnt (S2 W)).carafe.caps = []) ∧
      ((mnt (S2 W)).carafe.staged = [])) ∧
    ((a43.isOn domMGMT = true) ∧ (a43.isOn domREC = true) ∧
      (a43.allows 1 R.REC_CMD (BitVec.ofNat 32 (2 % 8 + 2 % 4 * 8)) 4294967295 = true) ∧
      (a43.needLevel 1 2 = Status.ok) ∧ (a43.exports = 0) ∧ (a43.carafe.caps = []) ∧ (a43.carafe.staged = [])) := by
  decide +kernel

theorem witness_StoreCommandsAndMount_2 :
    ((a44.isOn domMGMT = true) ∧ (a44.isOn domREC = true) ∧
      (a44.allows 1 R.REC_CMD (BitVec.ofNat 32 (2 % 8 + 2 % 4 * 8)) 4294967295 = true) ∧
      (a44.needLevel 1 2 = Status.ok) ∧ (0 < a44.exports ∨ a44.carafe.caps ≠ [])) ∧
    ((W.isOn domMGMT = true) ∧ (W.isOn domREC = true) ∧
      (W.allows 1 R.REC_CMD (BitVec.ofNat 32 (2 % 8 + 2 % 4 * 8)) 4294967295 = true) ∧
      (W.needLevel 1 2 = Status.accessDenied) ∧ (W.exports = 0) ∧ (W.carafe.caps = [])) ∧
    ((a45.isOn domMGMT = true) ∧ (a45.isOn domREC = true) ∧
      (a45.allows 1 R.REC_CMD (BitVec.ofNat 32 (3 % 8 + 2 % 4 * 8)) 4294967295 = true) ∧
      (a45.needLevel 1 2 = Status.ok) ∧
      (a45.drvState 2 = 6 ∧ a45.get (F.REC_DRV_STAT_CAUSE 2) = 6 ∧ a45.canAdd 2 = true)) ∧
    ((a46.isOn domMGMT = true) ∧ (a46.isOn domREC = true) ∧
      (a46.allows 1 R.REC_CMD (BitVec.ofNat 32 (3 % 8 + 2 % 4 * 8)) 4294967295 = true) ∧
      (a46.needLevel 1 2 = Status.ok) ∧
      (a46.drvState 2 = 6 ∧ a46.get (F.REC_DRV_STAT_CAUSE 2) = 6 ∧ a46.canAdd 2 = true)) ∧
    ((a47.isOn domMGMT = true) ∧ (a47.isOn domREC = true) ∧
      (a47.allows 1 R.REC_CMD (BitVec.ofNat 32 (3 % 8 + 2 % 4 * 8)) 4294967295 = true) ∧
      (a47.needLevel 1 2 = Status.ok) ∧
      (¬(a47.drvState 2 = 6 ∧ a47.get (F.REC_DRV_STAT_CAUSE 2) = 6 ∧ a47.canAdd 2 = true))) ∧
    ((a48.isOn domMGMT = true) ∧ (a48.isOn domREC = true) ∧
      (a48.allows 1 R.REC_CMD (BitVec.ofNat 32 (3 % 8 + 2 % 4 * 8)) 4294967295 = true) ∧
      (a48.needLevel 1 2 = Status.accessDenied) ∧
      (a48.drvState 2 = 6 ∧ a48.get (F.REC_DRV_STAT_CAUSE 2) = 6 ∧ a48.canAdd 2 = true)) := by
  decide +kernel

theorem witness_StoreCommandsAndMount_3 :
    (((sg 2).isOn domMGMT = true) ∧ ((sg 2).isOn domREC = true) ∧
      ((sg 2).allows 1 R.REC_CMD (BitVec.ofNat 32 (4 % 8 + 2 % 4 * 8)) 4294967295 = true)) ∧
    (((sg 2).isOn domMGMT = true) ∧ ((sg 2).isOn domREC = true) ∧
      ((sg 2).allows 1 R.REC_CMD (BitVec.ofNat 32 (4 % 8 + 2 % 4 * 8)) 4294967295 = true) ∧
      ((sg 2).carafe.units = [] ∧ (sg 2).carafe.segs = [] ∧ (sg 2).carafe.caps = [] ∧ (sg 2).carafe.staged = [] ∧ (sg
        2).carafe.opened = none ∧ (sg 2).carafe.waiting = [] ∧ ∀ (d : Nat), d < 4 → ((sg 2).cdrive d).copy = none)) ∧
    ((du.isOn domMGMT = true) ∧ (du.isOn domREC = true) ∧
      (du.allows 1 R.REC_CMD (BitVec.ofNat 32 (4 % 8 + 0 % 4 * 8)) 4294967295 = true)) ∧
    (((sg 7).isOn domMGMT = true) ∧ ((sg 7).isOn domREC = true) ∧
      ((sg 7).allows 1 R.REC_CMD (BitVec.ofNat 32 (5 % 8 + 2 % 4 * 8)) 4294967295 = true) ∧ ((sg 7).drvState 2 = 7) ∧
      ((sg 7).canAdd 2 = true)) ∧
    (((sg 2).isOn domMGMT = true) ∧ ((sg 2).isOn domREC = true) ∧
      ((sg 2).allows 1 R.REC_CMD (BitVec.ofNat 32 (5 % 8 + 2 % 4 * 8)) 4294967295 = true) ∧
      ((sg 2).drvState 2 ≠ 7 ∨ (sg 2).canAdd 2 = false)) ∧
    ((W.works domREC = true) ∧ (W.recState ≠ 1)) := by
  decide +kernel

theorem witness_StoreCommandsAndMount_4 :
    ((m1.works domREC = true) ∧ (m1.recState = 1)) ∧
    ((a49.works domREC = true) ∧ (a49.recState = 1)) ∧
    ((a50.works domREC = true) ∧ (a50.recState = 1)) ∧
    ((m1.works domREC = true) ∧ (m1.recState = 1) ∧ (m1.carafe.storeId = none) ∧ (m1.drvState 0 = 1)) := by
  decide +kernel

end Sys2Proof.Tests.W14

namespace Sys2Proof.Tests.W15

open Sys2Proof Sys2Proof.Machine

set_option Elab.async false

def T : Nat := 8000000000000
def hbx : WearHb := { dir := 1, ext := some 100000000, stack := [3,4], vce := 100, pulses := 4, node := [1,2,3,4] }
def wc (f : WearCell → WearCell) (s : State) : State := (s.setWcell 130 (f { model := true, hb0 := hbx, hb1 := hbx })).setLink fun l => { l with frozen := true, cycle := 100000 }
def en (s : State) : State := s.put F.WEAR_CFG_EN 1
def cs (v : Nat) (p : Int) : CapSample := { pNum := p, pDen := 3, vdc := v, cur := 50, rip := 9, mNum := 1, mDen := 2 }
def ce (s : State) : State := (s.setWcell 130 { model := true, cycles := 100000, samples := [cs 300 4, cs 400 5, cs 320 6] }).put (F.CELL_STATE_STATE 130) 5
def dy (d : Int) (s : State) : State := s.setWear fun x => { x with day := some d }
def dc (s : State) : State := s.setWcell 130 { model := true, cDay := List.replicate 100 7, esrDay := [3], esrDaily := [(5, 6)] }
def ev (s : State) : State := (en s).setWear fun x => { x with hour := 9 }
def dmg (s : State) : State := (ev (wc id s)).setDamage 130 0 (2^48)
def a1 : State := W.put F.WEAR_CFG_EN 0
def a2 : State := en (wc id W)
def a3 : State := en (wc (fun x => { x with slots := 3, cur := 5, volt := 7, periods := 2, hb0 := { hbx with stack := [100,-500000000,200, 900] } }) (W.put (F.CELL_STATE_STATE 130) 5))
def a4 : State := (W.setWcell 130 { failAt := some 0 }).setClk fun c => c
def a5 : State := (W.setWcell 130 { failAt := some 0 })
def a6 : State := dy 1000000 W
def a7 : State := dy (-5) (dc W)
def a8 : Option Int := some (-2000)
def a9 : State := ev (wc id W)
def a10 : State := (dmg W).put F.WEAR_STATUS_SUSPENDED 1
def a11 : State := ((dmg W).put F.WEAR_STATUS_SUSPENDED 1).put (F.CELL_STATE_STATE 130) 5
def a12 : State := ((dmg W)).put (F.CELL_STATE_STATE 130) 5
def a13 : State := W.put (F.PWR_STATE domVOTE) 0
def a14 : State := W.put F.WEAR_STATUS_FAULT 1
def a15 : State := (W.setSess 1 { W.sess 1 with level := 2 }).put F.WEAR_STATUS_FAULT 1
def a16 : State := W.setWear fun x => { x with matrix := x.matrix.set 5 [(3, 7), (255, 8)] }

theorem witness_WearEngine :
    ((a1.works domVOTE = true) ∧
      (¬(a1.get F.WEAR_CFG_EN = 1 ∧ a1.vlWorks = true ∧ a1.link.frozen = true ∧ a1.wear.updK + max 1 (a1.get
        F.WEAR_CFG_UPD) ≤ a1.link.cycle))) ∧
    ((a2.works domVOTE = true) ∧
      (a2.get F.WEAR_CFG_EN = 1 ∧ a2.vlWorks = true ∧ a2.link.frozen = true ∧ a2.wear.updK + max 1 (a2.get
        F.WEAR_CFG_UPD) ≤ a2.link.cycle)) ∧
    ((a3.works domVOTE = true) ∧
      (a3.get F.WEAR_CFG_EN = 1 ∧ a3.vlWorks = true ∧ a3.link.frozen = true ∧ a3.wear.updK + max 1 (a3.get
        F.WEAR_CFG_UPD) ≤ a3.link.cycle)) ∧
    ((W.works domVOTE = true) ∧
      (¬((W.wcell 130).model = true ∧ W.cellState 130 = 5 ∧ W.lineCycles ≤ (W.wcell 130).cycles))) ∧
    (((ce W).works domVOTE = true) ∧
      (((ce W).wcell 130).model = true ∧ (ce W).cellState 130 = 5 ∧ (ce W).lineCycles ≤ ((ce W).wcell 130).cycles)) ∧
    ((a4.works domVOTE = true) ∧ ((a4.wcell 130).failAt = some 0) ∧ (max a4.now T < 0 + 86400 * uS)) := by
  decide +kernel

theorem witness_WearEngine_2 :
    ((a5.works domVOTE = true) ∧ ((a5.wcell 130).failAt = some 0) ∧ ((a5.wcell 130).failLog = false) ∧
      (0 + 86400 * uS ≤ max a5.now (86400 * uS))) ∧
    ((W.works domVOTE = true) ∧ ((W.wcell 130).failAt = none ∨ (W.wcell 130).failLog = true)) ∧
    ((W.works domVOTE = true) ∧ (W.wear.day = none)) ∧
    ((a6.works domVOTE = true) ∧ (a6.wear.day = some 1000000) ∧ ((a6.advance T).utcSec / 86400 ≤ 1000000)) ∧
    ((a7.works domVOTE = true) ∧ (a7.wear.day = some (-5)) ∧ (-5 < (a7.advance T).utcSec / 86400)) ∧
    ((a1.works domVOTE = true) ∧
      ((a1.advance T).countLife.get64 R.TIME_OPSEC_LO R.TIME_OPSEC_HI / 3600 = a1.wear.hour ∨ a1.get F.WEAR_CFG_EN =
        0)) := by
  decide +kernel

theorem witness_WearEngine_3 :
    ((W.works domVOTE = true) ∧
      ((W.advance T).countLife.get64 R.TIME_OPSEC_LO R.TIME_OPSEC_HI / 3600 = W.wear.hour ∨ W.get F.WEAR_CFG_EN = 0)) ∧
    (((ev W).works domVOTE = true) ∧
      (¬(((ev W).advance T).countLife.get64 R.TIME_OPSEC_LO R.TIME_OPSEC_HI / 3600 = (ev W).wear.hour ∨ (ev W).get
        F.WEAR_CFG_EN = 0))) ∧
    ((a9.works domVOTE = true) ∧
      (¬((a9.advance T).countLife.get64 R.TIME_OPSEC_LO R.TIME_OPSEC_HI / 3600 = a9.wear.hour ∨ a9.get F.WEAR_CFG_EN
        = 0))) ∧
    ((a10.works domVOTE = true) ∧
      (¬((a10.advance T).countLife.get64 R.TIME_OPSEC_LO R.TIME_OPSEC_HI / 3600 = a10.wear.hour ∨ a10.get
        F.WEAR_CFG_EN = 0)) ∧ (a10.get F.WEAR_STATUS_SUSPENDED = 1)) ∧
    ((a11.works domVOTE = true) ∧
      (¬((a11.advance T).countLife.get64 R.TIME_OPSEC_LO R.TIME_OPSEC_HI / 3600 = a11.wear.hour ∨ a11.get
        F.WEAR_CFG_EN = 0)) ∧ (a11.get F.WEAR_STATUS_SUSPENDED = 1)) ∧
    ((a12.works domVOTE = true) ∧
      (¬((a12.advance T).countLife.get64 R.TIME_OPSEC_LO R.TIME_OPSEC_HI / 3600 = a12.wear.hour ∨ a12.get
        F.WEAR_CFG_EN = 0))) := by
  decide +kernel

theorem witness_WearEngine_4 :
    ((a13.isOn domMGMT = true) ∧ (a13.isOn domVOTE = false)) ∧
    ((a14.isOn domMGMT = true) ∧ (a14.isOn domVOTE = true) ∧ (a14.allows 1 R.WEAR_STATUS 4 7 = true) ∧
      (4 &&& 7 &&& 3#32 = 0#32 ∨ a14.needLevel 1 2 = Status.ok)) ∧
    ((a15.isOn domMGMT = true) ∧ (a15.isOn domVOTE = true) ∧ (a15.allows 1 R.WEAR_STATUS 3 7 = true) ∧
      (3 &&& 7 &&& 3#32 = 0#32 ∨ a15.needLevel 1 2 = Status.ok)) ∧
    ((a14.isOn domMGMT = true) ∧ (a14.isOn domVOTE = true) ∧ (a14.allows 1 R.WEAR_STATUS 1 1 = true) ∧
      (1 &&& 1 &&& 3#32 ≠ 0#32) ∧ (a14.needLevel 1 2 = Status.accessDenied)) ∧
    ((a16.isOn domMGMT = true) ∧ (a16.isOn domVOTE = true) ∧ (a16.allows 1 R.WEAR_RF_SEL 5 4294967295 = true)) := by
  decide +kernel

end Sys2Proof.Tests.W15

namespace Sys2Proof.Tests.W16

open Sys2Proof Sys2Proof.Machine

set_option Elab.async false

def T : Nat := 8000000000000
def i (st : Nat) (s : State) : State := (s.put F.SAFE_STATE_STATE st).put ⟨R.SAFE_INPUTS, 0, 4⟩ 15
def sf (f : SafeSt → SafeSt) (s : State) : State := s.setSafe f
def pr : List Byte := List.replicate 8 0 ++ [1,2,3,4] ++ List.replicate 4 0 ++ [10, 0, 20, 0, 7] ++ List.replicate 215 0
def ps (st rise seen : Nat) : State := (sf (fun x => { x with pulse := some (rise, seen) }) (i st W)).put F.SAFE_INPUTS_RESET 1
def pq : List Byte := pr.take 80 ++ [1,2,3,4, 5,0, 6, 1] ++ pr.drop 88
def pp : State := sf (fun x => { x with param := pq }) ((W.put (F.GOOSE_PUB_CFG_EN 6) 1).put (F.GOOSE_PUB_CFG_SAFETY 6) 1)
def a1 : State := sf (fun x => { x with held := some pr }) (i 0 W)
def a2 : State := (i 3 W).put F.SAFE_STATE_ENABLING 1
def a3 : State := ((i 3 W).put F.SAFE_STATE_ENABLING 1).put F.SAFE_INPUTS_ESTOP_B 0
def a4 : State := sf (fun x => { x with held := some pr, tpBad := true, stuck := true, badParam := true, disc := [1], disagree := 1 }) (i 3 W)
def a5 : State := sf (fun x => { x with held := some pr }) (i 4 W)
def a6 : State := ((i 1 W)).put F.SAFE_INPUTS_DOOR_B 0
def a7 : State := ps 2 (T - 200*uMs + 1) 0
def a8 : Nat := T - 200*uMs + 1
def a9 : State := ps 2 (T - 5000*uMs - 1) 0
def a10 : Nat := T - 5000*uMs - 1
def a11 : State := ps 2 (T - 5000*uMs) 4
def a12 : Nat := T - 5000*uMs
def a13 : State := ps 4 (T - 5000*uMs) 0
def a14 : State := ps 2 (T - 200*uMs) 0
def a15 : Nat := T - 200*uMs
def a16 : State := (ps 4 (T - 200*uMs) 0).put F.SAFE_INPUTS_STARTUP_DONE 1
def a17 : State := sf (fun x => { x with tokAt := some T }) W
def a18 : State := i 3 W |>.put (F.SAFE_ENABLE_MASK 1 2) 77
def a19 : State := i 2 W |>.put (F.SAFE_TSEQ_TSEQ) 0xFFFF
def a20 : State := sf (fun x => { x with param := pr }) (i 3 W)
def a21 : State := sf (fun x => { x with upAt := T - 3 * uMs }) W
def a22 : State := sf (fun x => { x with disc := [0,1] }) W
def a23 : State := sf (fun x => { x with disc := [0,1] }) (W.put F.SAFE_INPUTS_ESTOP_A 1)
def a24 : State := sf (fun x => { x with disc := [0,1] }) ((i 4 W).put F.SAFE_INPUTS_DOOR_B 0)
def a25 : State := sf (fun x => { x with disc := [0,1] }) ((i 1 W).put F.SAFE_INPUTS_DOOR_B 0)
def a26 : State := sf (fun x => { x with step1 := true, param := pr, inAt := [(1, T - 10 * uMs)] }) ((i 1 W).put F.SAFE_INPUTS_DOOR_A 0)
def a27 : State := sf (fun x => { x with step1 := true, param := pr, inAt := [(1, T + 10 * uMs)] }) ((i 1 W).put F.SAFE_INPUTS_DOOR_A 0)
def a28 : State := sf (fun x => { x with step1 := true, param := pr, inAt := [(0, T - 10 * uMs - 1)] }) ((i 1 W).put F.SAFE_INPUTS_DOOR_B 0)
def a29 : State := (i 3 W).put F.SAFE_INPUTS_ESTOP_A 0
def a30 : State := sf (fun x => { x with inAt := [(1, 5)]}) ((i 3 W).put F.SAFE_INPUTS_DOOR_A 0)
def a31 : State := sf (fun x => { x with param := pr }) W
def a32 : State := sf (fun x => { x with param := pr, tpBad := true, tpClean := [0] }) W
def a33 : State := sf (fun x => { x with param := pr, tpBad := true }) W
def a34 : State := W.put (F.SAFE_CONS_STAT_STATE 3) 2
def a35 : State := W.put (F.SAFE_CONS_STAT_STATE 3) 3
def a36 : State := sf (fun x => { x with param := pq }) W
def a37 : State := sf (fun x => { x with param := pq }) (W.put (F.PWR_STATE domPBUS) 0)

theorem witness_IslandStatesAndTokens :
    (((i 1 W).works domSAFE = true) ∧ ((i 1 W).get F.SAFE_STATE_STATE ≠ 0)) ∧
    (((i 0 W).works domSAFE = true) ∧ ((i 0 W).get F.SAFE_STATE_STATE = 0)) ∧
    ((a1.works domSAFE = true) ∧ (a1.get F.SAFE_STATE_STATE = 0)) ∧
    ((a1.works domSAFE = true) ∧ (a1.get F.SAFE_STATE_STATE = 0) ∧ (a1.safe.held = some pr) ∧
      (a1.safe.internal = false) ∧ (a1.safe.badParam = false) ∧ (a1.safe.step1 = false)) ∧
    (((i 0 W).works domSAFE = true) ∧
      (¬((i 0 W).get F.SAFE_STATE_STATE ≠ 0 ∧ ((i 0 W).advance T).quiet (i 0 W).safe.evalAt (250 * uUs) = true))) ∧
    ((a2.works domSAFE = true) ∧
      (a2.get F.SAFE_STATE_STATE ≠ 0 ∧ (a2.advance T).quiet a2.safe.evalAt (250 * uUs) = true)) := by
  decide +kernel

theorem witness_IslandStatesAndTokens_2 :
    ((a3.works domSAFE = true) ∧
      (a3.get F.SAFE_STATE_STATE ≠ 0 ∧ (a3.advance T).quiet a3.safe.evalAt (250 * uUs) = true)) ∧
    ((a4.works domSAFE = true) ∧
      (a4.get F.SAFE_STATE_STATE ≠ 0 ∧ (a4.advance T).quiet a4.safe.evalAt (250 * uUs) = true)) ∧
    ((a5.works domSAFE = true) ∧
      (a5.get F.SAFE_STATE_STATE ≠ 0 ∧ (a5.advance T).quiet a5.safe.evalAt (250 * uUs) = true)) ∧
    ((a6.works domSAFE = true) ∧
      (a6.get F.SAFE_STATE_STATE ≠ 0 ∧ (a6.advance T).quiet a6.safe.evalAt (250 * uUs) = true)) ∧
    (((i 2 W).works domSAFE = true) ∧
      ((i 2 W).get F.SAFE_STATE_STATE ≠ 0 ∧ ((i 2 W).advance T).quiet (i 2 W).safe.evalAt (250 * uUs) = true)) ∧
    ((W.works domSAFE = true) ∧ (W.get F.SAFE_INPUTS_RESET = 0)) := by
  decide +kernel

theorem witness_IslandStatesAndTokens_3 :
    ((a7.works domSAFE = true) ∧ (a7.get F.SAFE_INPUTS_RESET = 1) ∧ (a7.safe.pulse = some (a8, 0)) ∧
      (max a7.now T - a8 < 200 * uMs)) ∧
    ((a9.works domSAFE = true) ∧ (a9.get F.SAFE_INPUTS_RESET = 1) ∧ (a9.safe.pulse = some (a10, 0)) ∧
      (5000 * uMs < max a9.now T - a10)) ∧
    ((a11.works domSAFE = true) ∧ (a11.get F.SAFE_INPUTS_RESET = 1) ∧ (a11.safe.pulse = some (a12, 4)) ∧ (2 < 9) ∧
      (200 * uMs ≤ max a11.now T - a12) ∧ (max a11.now T - a12 ≤ 5000 * uMs) ∧
      ((4 ||| a11.safeCauses (decide (a11.get F.SAFE_STATE_OUT_A ≠ b2n (decide (a11.get F.SAFE_STATE_STATE =
        3))))).testBit 2 = true) ∧
      (∀ (j : Nat), j < 2 → (4 ||| a11.safeCauses (decide (a11.get F.SAFE_STATE_OUT_A ≠ b2n (decide (a11.get
        F.SAFE_STATE_STATE = 3))))).testBit j = false)) ∧
    ((a13.works domSAFE = true) ∧ (a13.get F.SAFE_INPUTS_RESET = 1) ∧ (a13.safe.pulse = some (a12, 0)) ∧
      (200 * uMs ≤ max a13.now T - a12) ∧ (max a13.now T - a12 ≤ 5000 * uMs) ∧
      (∀ (j : Nat), j < 9 → (0 ||| a13.safeCauses (decide (a13.get F.SAFE_STATE_OUT_A ≠ b2n (decide (a13.get
        F.SAFE_STATE_STATE = 3))))).testBit j = false) ∧
      (¬((a13.get F.SAFE_STATE_STATE = 2 ∨ a13.get F.SAFE_STATE_STATE = 4 ∧ a13.get F.SAFE_INPUTS_STARTUP_DONE = 1) ∧
        a13.safe.stateAt + 500 * uMs ≤ max a13.now T))) ∧
    ((a14.works domSAFE = true) ∧ (a14.get F.SAFE_INPUTS_RESET = 1) ∧ (a14.safe.pulse = some (a15, 0)) ∧
      (200 * uMs ≤ max a14.now T - a15) ∧ (max a14.now T - a15 ≤ 5000 * uMs) ∧
      (∀ (j : Nat), j < 9 → (0 ||| a14.safeCauses (decide (a14.get F.SAFE_STATE_OUT_A ≠ b2n (decide (a14.get
        F.SAFE_STATE_STATE = 3))))).testBit j = false) ∧
      ((a14.get F.SAFE_STATE_STATE = 2 ∨ a14.get F.SAFE_STATE_STATE = 4 ∧ a14.get F.SAFE_INPUTS_STARTUP_DONE = 1) ∧
        a14.safe.stateAt + 500 * uMs ≤ max a14.now T)) ∧
    ((a16.works domSAFE = true) ∧ (a16.get F.SAFE_INPUTS_RESET = 1) ∧ (a16.safe.pulse = some (a15, 0)) ∧
      (200 * uMs ≤ max a16.now T - a15) ∧ (max a16.now T - a15 ≤ 5000 * uMs) ∧
      (∀ (j : Nat), j < 9 → (0 ||| a16.safeCauses (decide (a16.get F.SAFE_STATE_OUT_A ≠ b2n (decide (a16.get
        F.SAFE_STATE_STATE = 3))))).testBit j = false) ∧
      ((a16.get F.SAFE_STATE_STATE = 2 ∨ a16.get F.SAFE_STATE_STATE = 4 ∧ a16.get F.SAFE_INPUTS_STARTUP_DONE = 1) ∧
        a16.safe.stateAt + 500 * uMs ≤ max a16.now T)) := by
  decide +kernel

theorem witness_IslandStatesAndTokens_4 :
    (((ps 2 0 0).works domSAFE = true) ∧ ((ps 2 0 0).get F.SAFE_INPUTS_RESET = 1) ∧
      ((ps 2 0 0).safe.inAt.get 4 + 60 * uS ≤ max (ps 2 0 0).now T)) ∧
    ((W.works domSAFE = true) ∧ (W.get F.SAFE_INPUTS_RESET = 0 ∨ max W.now T < W.safe.inAt.get 4 + 60 * uS)) ∧
    ((a17.works domSAFE = true) ∧ ((a17.advance T).quiet a17.safe.tokAt (250 * uUs) = false)) ∧
    ((a18.works domSAFE = true) ∧ ((a18.advance T).quiet a18.safe.tokAt (250 * uUs) = true)) ∧
    ((a19.works domSAFE = true) ∧ ((a19.advance T).quiet a19.safe.tokAt (250 * uUs) = true)) ∧
    ((a20.works domSAFE = true) ∧
      (a20.get F.SAFE_STATE_STATE = 3 ∧ a20.safe.flag 2 = true ∧ (a20.advance T).quiet a20.safe.outAt (500 * uMs) =
        true)) := by
  decide +kernel

theorem witness_IslandStatesAndTokens_5 :
    ((W.works domSAFE = true) ∧
      (¬(W.get F.SAFE_STATE_STATE = 3 ∧ W.safe.flag 2 = true ∧ (W.advance T).quiet W.safe.outAt (500 * uMs) = true))) := by
  decide +kernel

theorem witness_IslandInputsAndConnections :
    ((W.works domSAFE = true) ∧ (W.get { reg := R.SAFE_INPUTS, lo := 3, wd := 1 : Fld } = b2n false)) ∧
    ((W.works domSAFE = true) ∧ (W.get { reg := R.SAFE_INPUTS, lo := 4, wd := 1 : Fld } = 0)) ∧
    ((a21.works domSAFE = true) ∧ (a21.get { reg := R.SAFE_INPUTS, lo := 4, wd := 1 : Fld } = 0)) ∧
    (((ps 2 0 0).works domSAFE = true) ∧ ((ps 2 0 0).get { reg := R.SAFE_INPUTS, lo := 4, wd := 1 : Fld } = 1)) ∧
    ((a22.works domSAFE = true) ∧ (3 < 4) ∧ (a22.get { reg := R.SAFE_INPUTS, lo := 3, wd := 1 : Fld } ≠ b2n true) ∧
      (a22.get F.SAFE_STATE_STATE ≠ 1 ∨ 2 ≤ 3)) ∧
    ((a23.works domSAFE = true) ∧ (3 < 4) ∧ (a23.get { reg := R.SAFE_INPUTS, lo := 3, wd := 1 : Fld } ≠ b2n true) ∧
      (a23.get F.SAFE_STATE_STATE ≠ 1 ∨ 2 ≤ 3)) := by
  decide +kernel

theorem witness_IslandInputsAndConnections_2 :
    ((a24.works domSAFE = true) ∧ (0 < 4) ∧ (a24.get { reg := R.SAFE_INPUTS, lo := 0, wd := 1 : Fld } ≠ b2n false) ∧
      (a24.get F.SAFE_STATE_STATE ≠ 1 ∨ 2 ≤ 0)) ∧
    ((a25.works domSAFE = true) ∧ (0 < 2) ∧ (a25.get F.SAFE_STATE_STATE = 1) ∧
      (a25.get { reg := R.SAFE_INPUTS, lo := 0, wd := 1 : Fld } = 1) ∧
      (a25.get { reg := R.SAFE_INPUTS, lo := 1 - 0, wd := 1 : Fld } = 0)) ∧
    ((a26.works domSAFE = true) ∧ (0 < 2) ∧ (a26.get F.SAFE_STATE_STATE = 1) ∧
      (a26.get { reg := R.SAFE_INPUTS, lo := 0, wd := 1 : Fld } = 0) ∧
      (a26.get { reg := R.SAFE_INPUTS, lo := 1 - 0, wd := 1 : Fld } = 1) ∧ (a26.safe.step1 = true) ∧
      (max a26.now T - min (max a26.now T) (a26.safe.inAt.get (1 - 0)) + (a26.safe.inAt.get (1 - 0) - min (max
        a26.now T) (a26.safe.inAt.get (1 - 0))) ≤ a26.safe.discMs 0 * uMs)) ∧
    ((a27.works domSAFE = true) ∧ (0 < 2) ∧ (a27.get F.SAFE_STATE_STATE = 1) ∧
      (a27.get { reg := R.SAFE_INPUTS, lo := 0, wd := 1 : Fld } = 0) ∧
      (a27.get { reg := R.SAFE_INPUTS, lo := 1 - 0, wd := 1 : Fld } = 1) ∧ (a27.safe.step1 = true) ∧
      (max a27.now T - min (max a27.now T) (a27.safe.inAt.get (1 - 0)) + (a27.safe.inAt.get (1 - 0) - min (max
        a27.now T) (a27.safe.inAt.get (1 - 0))) ≤ a27.safe.discMs 0 * uMs)) ∧
    ((a28.works domSAFE = true) ∧ (1 < 2) ∧ (a28.get F.SAFE_STATE_STATE = 1) ∧
      (a28.get { reg := R.SAFE_INPUTS, lo := 1, wd := 1 : Fld } = 0) ∧
      (a28.get { reg := R.SAFE_INPUTS, lo := 1 - 1, wd := 1 : Fld } = 1) ∧
      (a28.safe.step1 = false ∨ a28.safe.discMs 0 * uMs < max a28.now T - min (max a28.now T) (a28.safe.inAt.get (1 -
        1)) + (a28.safe.inAt.get (1 - 1) - min (max a28.now T) (a28.safe.inAt.get (1 - 1))))) ∧
    ((W.works domSAFE = true) ∧
      (¬(W.get { reg := R.SAFE_INPUTS, lo := 2 * 1, wd := 1 : Fld } ≠ W.get
        { reg := R.SAFE_INPUTS, lo := 2 * 1 + 1, wd := 1 : Fld } ∧ max (W.safe.inAt.get (2 * 1)) (W.safe.inAt.get (2
        * 1 + 1)) + W.safe.discMs 1 * uMs ≤ max W.now T ∧ ¬1 ∈ W.safe.disc))) := by
  decide +kernel

theorem witness_IslandInputsAndConnections_3 :
    ((a29.works domSAFE = true) ∧
      (a29.get { reg := R.SAFE_INPUTS, lo := 2 * 1, wd := 1 : Fld } ≠ a29.get
        { reg := R.SAFE_INPUTS, lo := 2 * 1 + 1, wd := 1 : Fld } ∧ max (a29.safe.inAt.get (2 * 1)) (a29.safe.inAt.get
        (2 * 1 + 1)) + a29.safe.discMs 1 * uMs ≤ max a29.now T ∧ ¬1 ∈ a29.safe.disc)) ∧
    ((a30.works domSAFE = true) ∧
      (a30.get { reg := R.SAFE_INPUTS, lo := 2 * 0, wd := 1 : Fld } ≠ a30.get
        { reg := R.SAFE_INPUTS, lo := 2 * 0 + 1, wd := 1 : Fld } ∧ max (a30.safe.inAt.get (2 * 0)) (a30.safe.inAt.get
        (2 * 0 + 1)) + a30.safe.discMs 0 * uMs ≤ max a30.now T ∧ ¬0 ∈ a30.safe.disc)) ∧
    ((W.works domSAFE = true) ∧
      (¬((W.safe.flag 0 = true ∨ W.safe.flag 1 = true) ∧ (W.advance T).quiet (W.safe.tpAt.get 1) (100 * uMs) = true))) ∧
    ((a31.works domSAFE = true) ∧
      ((a31.safe.flag 0 = true ∨ a31.safe.flag 1 = true) ∧ (a31.advance T).quiet (a31.safe.tpAt.get 1) (100 * uMs) =
        true) ∧
      (a31.safe.flag 0 = true ∧ (Nat.testBit 3 0 = true ∨ Nat.testBit 3 1 = true) ∨ a31.safe.flag 1 = true ∧
        (Nat.testBit 3 2 = true ∨ Nat.testBit 3 3 = true) ∨ Nat.testBit 3 4 = true)) ∧
    ((a32.works domSAFE = true) ∧
      ((a32.safe.flag 0 = true ∨ a32.safe.flag 1 = true) ∧ (a32.advance T).quiet (a32.safe.tpAt.get 1) (100 * uMs) =
        true) ∧
      (¬(a32.safe.flag 0 = true ∧ (Nat.testBit 0 0 = true ∨ Nat.testBit 0 1 = true) ∨ a32.safe.flag 1 = true ∧
        (Nat.testBit 0 2 = true ∨ Nat.testBit 0 3 = true) ∨ Nat.testBit 0 4 = true))) ∧
    ((a33.works domSAFE = true) ∧
      ((a33.safe.flag 0 = true ∨ a33.safe.flag 1 = true) ∧ (a33.advance T).quiet (a33.safe.tpAt.get 1) (100 * uMs) =
        true) ∧
      (¬(a33.safe.flag 0 = true ∧ (Nat.testBit 0 0 = true ∨ Nat.testBit 0 1 = true) ∨ a33.safe.flag 1 = true ∧
        (Nat.testBit 0 2 = true ∨ Nat.testBit 0 3 = true) ∨ Nat.testBit 0 4 = true))) := by
  decide +kernel

theorem witness_IslandInputsAndConnections_4 :
    ((a34.works domSAFE = true) ∧
      (a34.get (F.SAFE_CONS_STAT_STATE 3) = 2 ∧ (a34.safe.cons.get 3).okAt + a34.safe.wdogMs 3 * uMs ≤ max a34.now T)) ∧
    ((W.works domSAFE = true) ∧
      (¬(W.get (F.SAFE_CONS_STAT_STATE 3) = 2 ∧ (W.safe.cons.get 3).okAt + W.safe.wdogMs 3 * uMs ≤ max W.now T))) ∧
    ((a35.works domSAFE = true) ∧
      (a35.get (F.SAFE_CONS_STAT_STATE 3) = 3 ∧ (a35.safe.cons.get 3).errAt + 4 * a35.safe.wdogMs 3 * uMs ≤ max
        a35.now T)) ∧
    ((W.works domSAFE = true) ∧
      (¬(W.get (F.SAFE_CONS_STAT_STATE 3) = 3 ∧ (W.safe.cons.get 3).errAt + 4 * W.safe.wdogMs 3 * uMs ≤ max W.now T))) ∧
    ((W.works domSAFE = true) ∧
      (¬(W.safe.prodEn 1 = true ∧ ((W.advance T).quiet (W.safe.prod.get 1).at_ (W.safe.issueMs 1 * uMs) = true ∨
        (W.safe.prod.get 1).data ≠ W.safeData)))) ∧
    ((a36.works domSAFE = true) ∧
      (a36.safe.prodEn 0 = true ∧ ((a36.advance T).quiet (a36.safe.prod.get 0).at_ (a36.safe.issueMs 0 * uMs) = true
        ∨ (a36.safe.prod.get 0).data ≠ a36.safeData))) := by
  decide +kernel

theorem witness_IslandInputsAndConnections_5 :
    ((a37.works domSAFE = true) ∧
      (a37.safe.prodEn 0 = true ∧ ((a37.advance T).quiet (a37.safe.prod.get 0).at_ (a37.safe.issueMs 0 * uMs) = true
        ∨ (a37.safe.prod.get 0).data ≠ a37.safeData))) ∧
    ((pp.works domSAFE = true) ∧
      (pp.safe.prodEn 0 = true ∧ ((pp.advance T).quiet (pp.safe.prod.get 0).at_ (pp.safe.issueMs 0 * uMs) = true ∨
        (pp.safe.prod.get 0).data ≠ pp.safeData))) := by
  decide +kernel

end Sys2Proof.Tests.W16

namespace Sys2Proof.Tests.W17

open Sys2Proof Sys2Proof.Machine

set_option Elab.async false

def T : Nat := 8000000000000
def cm (c m : Nat) : State := (W.put (F.CMP_CFG_MODE c) m).put (F.CMP_STAT_SETTLED c) 1
def hi : Nat := 2000000
def thr (s : State) : State := (s.put (F.CMP_THR_HI 14) 600).put (F.CMP_THR_LO 14) 500 |>.put (F.CMP_THR_HI 3) 600 |>.put (F.CMP_THR_LO 3) 500
def fl : State := ((cm 3 2).put (F.CMP_CFG_M 3) 3).put (F.CMP_CFG_N 3) 2
def wb : State := (W.put (F.BSI_CFG_EN 3) 1).setBsi 3 { clkAt := some (T - 800), filt := { n := 7 } }
def noB (s : State) : State := s
def wi : State := (W.put F.IADC_CFG_NENT 2).put F.IADC_CFG_ROUND_MS 1000
def wi2 (f : IadcSt → IadcSt) : State := (wi.setAna fun x => { x with iadc := f x.iadc })
def cv : Conv := { entry := some 0, ch := 3, gain := 2, nom := false, ends := T }
def wq : State := (wi2 fun x => { x with queue := [(4, 5#32, 6#32), (5, 7#32, 8#32)] }).put F.IADC_STATUS_DEPTH 2
def lg (st : Nat) (x : LegX) : State := (W.put (F.LEG_STATUS_STATE 5) st).setLegX 5 x
def carp (s : State) : State := s.put (F.PWM_LEG_CFG_CAR_P 5) 800000
def pd : PwmDec := { (default : PwmDec) with u := T, p := 800000 }
def pe : PwmDec := { pd with h0 := { (default : HbDec) with off := 77, on := 5 } }
def a1 : State := (cm 3 2).put (F.RING_HALT_CMP_CMP 2) 8
def a2 : State := (cm 3 2).put (F.CMP_STAT_TRIP 3) 1
def a3 : State := (thr (cm 3 2)).put (F.CMP_STAT_TRIP 3) 1
def a4 : State := (thr (cm 14 2)).put (F.CMP_STAT_TRIP 14) 1
def a5 : State := thr (cm 3 2)
def a6 : State := thr (cm 3 6)
def a7 : State := (cm 3 6).put (F.CMP_CFG_TICK 3) 3
def a8 : State := fl.setCmp 3 { hist := [(T - 32, true), (0, false)] }
def a9 : State := thr (W.put (F.CMP_CFG_MODE 3) 1)
def a10 : State := thr ((W.put (F.CMP_CFG_MODE 3) 1).put (F.CMP_STAT_TRIP 3) 1)
def a11 : State := (cm 3 2).setCmp 3 { out := true }
def a12 : State := ((cm 3 2).put (F.CMP_CFG_LATCH 3) 1).put (F.CMP_STAT_TRIP 3) 1
def a13 : State := (((cm 3 2).put (F.CMP_CFG_LATCH 3) 2).put (F.CMP_STAT_TRIP 3) 1).setCmp 3 { out := true }
def a14 : State := ((cm 3 2).put (F.CMP_CFG_LATCH 3) 2).put (F.CMP_STAT_TRIP 3) 1
def a15 : State := (((cm 3 2).put (F.CMP_CFG_LATCH 3) 2).put (F.CMP_STAT_TRIP 3) 1).setCmp 3 { offAt := T + 1 }
def a16 : List Bool := []
def a17 : State := wb.put (F.BSI_CFG_OSR 3) 8
def a18 : State := noB (wb.put (F.BSI_STAT_RUNNING 3) 1)
def a19 : State := wb.setBsi 3 { ovr := 16 }
def a20 : State := wi2 fun x => { x with lastDue := T }
def a21 : State := wi.put F.IADC_STATUS_BUSY 1
def a22 : State := wi2 fun x => { x with conv := some { cv with ends := T+1 } }
def a23 : Conv := { cv with ends := T+1 }
def a24 : State := wi2 fun x => { x with conv := some cv, round := 0x123 }
def a25 : State := wi2 fun x => { x with conv := some cv, queue := List.replicate 64 (0,0,0) }
def a26 : State := wi2 fun x => { x with cpAt := T - uS }
def a27 : State := wi2 fun x => { x with cpAt := T - uS + 1 }
def a28 : Nat × BitVec 32 × BitVec 32 := (4, 5#32, 6#32)
def a29 : List (Nat × BitVec 32 × BitVec 32) := [(5, 7#32, 8#32)]
def a30 : State := wq.setSess 1 { wq.sess 1 with qHi := some (4, 6#32)}
def a31 : State := wq.setSess 1 { wq.sess 1 with peekHi := some (4, 6#32)}
def a32 : State := wq.setSess 1 { wq.sess 1 with qHi := some (3, 9#32)}
def a33 : RegRow := (rowOf R.PWM_STATUS).get!
def a34 : State := wi.put (F.PWM_CLU_STAT_MIXED 3) 1
def a35 : State := (((lg 2 { en := true, trips := [T, T-1] }).put (F.PWM_LEG_TRIP_N 5) 2).put (F.PWM_LEG_TRIP_W 5) 2).put (F.PWM_LEG_CFG_CAR_P 5) 800000
def a36 : State := (lg 3 {}).put (F.PWM_LEG_STAT_LATCHED 5) 1
def a37 : State := ((lg 3 {}).put (F.PWM_LEG_STAT_LATCHED 5) 1).put (F.CMP_STAT_TRIP 17) 1
def a38 : State := lg 2 { en := true }
def a39 : State := lg 2 { en := true, enFall := some T }
def a40 : State := lg 2 { en := true, enFall := some (T+1) }
def a41 : State := lg 1 { diagAt := T }
def a42 : State := lg 1 { diagAt := T - 800 * uUs }
def a43 : State := carp (lg 2 { half := 20000000 })
def a44 : State := carp (lg 2 { half := 19999999, writes := [(T - 9, { pd with dNum := 4 }), (T, pd), (T + 1, { pd with dNum := 5 })] })
def a45 : State := carp (lg 2 { half := 19999999, live := some pd, writes := [(T + 1, pd)] })
def a46 : State := (carp (lg 3 { half := 19999999, release := true })).put (F.PWM_LEG_STAT_LATCHED 5) 1
def a47 : State := (carp (lg 2 { half := 20000000, live := some pe, writes := [(T + 5, { pe with h0 := { pe.h0 with off := 99 } })] })).put (F.PWM_LEG_CFG_UPDATE_AT 5) 1
def a48 : Nat × PwmDec := (T + 5, { pe with h0 := { pe.h0 with off := 99 } })

theorem witness_ComparatorsTripAndClear :
    (((cm 14 2).works domANA = true) ∧ ((cm 14 2).cmpLive 14 = true) ∧ ((cm 14 2).cmpSide 14 hi = some true) ∧
      ((cm 14 2).trip 14 = false) ∧ ((cm 14 2).cmpRings 14 = []) ∧ (((cm 14 2).cmpLegs 14).Nodup)) ∧
    ((a1.works domANA = true) ∧ (a1.cmpLive 3 = true) ∧ (a1.cmpSide 3 hi = some true) ∧ (a1.trip 3 = false) ∧
      (a1.cmpLegs 3 = []) ∧ (a1.cmpRings 3 = [2]) ∧ (a1.works (domRING 2) = true)) ∧
    ((a2.works domANA = true) ∧ (a2.cmpLive 3 = true) ∧ (a2.cmpSide 3 hi = some true) ∧ (a2.trip 3 = true)) ∧
    ((a2.works domANA = true) ∧ (a2.cmpLive 3 = true) ∧ (a2.cmpSide 3 hi = some true)) ∧
    ((a3.works domANA = true) ∧ (a3.cmpLive 3 = true) ∧ (a3.cmpSide 3 0 = some false) ∧ (a3.cmpRings 3 = [])) ∧
    ((a4.works domANA = true) ∧ (a4.cmpLive 14 = true) ∧ (a4.cmpSide 14 0 = some false) ∧ (a4.cmpRings 14 = [])) := by
  decide +kernel

theorem witness_ComparatorsTripAndClear_2 :
    ((a3.works domANA = true) ∧ (a3.cmpLive 3 = true) ∧ (a3.cmpSide 3 0 = some false)) ∧
    ((a5.works domANA = true) ∧ (a5.cmpLive 3 = true) ∧ (a5.cmpSide 3 (550 * 1024) = none) ∧
      (Instr.cmpTrip T { c := 3, v := 550 * 1024 : CmpLevel } ∈ [Instr.cmpTrip T
        { c := 3, v := 550 * 1024 : CmpLevel }, Instr.cmpOutputInactive T { c := 3, v := 550 * 1024 : CmpLevel }])) ∧
    ((a6.works domANA = true) ∧ (a6.settled 3 = true) ∧ (a6.get (F.CMP_CFG_MODE 3) = 6) ∧
      ((a6.advance T).cycleNow % max 1 (a6.get (F.CMP_CFG_TICK 3)) = 0 ∧ (a6.cmp 3).tickK ≠ some (a6.advance
        T).cycleNow) ∧ (a6.cmpRings 3 = []) ∧ (a6.cmpLegs 3 = []) ∧ (a6.trip 3 = false) ∧
      (a6.cmpSide 3 hi = some true)) ∧
    ((a6.works domANA = true) ∧ (a6.settled 3 = true) ∧ (a6.get (F.CMP_CFG_MODE 3) = 6) ∧
      ((a6.advance T).cycleNow % max 1 (a6.get (F.CMP_CFG_TICK 3)) = 0 ∧ (a6.cmp 3).tickK ≠ some (a6.advance
        T).cycleNow) ∧ (a6.cmpSide 3 (550 * 1024) = none) ∧ ((a6.cmp 3).out = false) ∧ (a6.trip 3 = false)) ∧
    ((a7.works domANA = true) ∧ (a7.settled 3 = true) ∧ (a7.get (F.CMP_CFG_MODE 3) = 6) ∧
      (¬((a7.advance (T + 320000)).cycleNow % max 1 (a7.get (F.CMP_CFG_TICK 3)) = 0 ∧ (a7.cmp 3).tickK ≠ some
        (a7.advance (T + 320000)).cycleNow))) ∧
    ((a8.works domANA = true) ∧ (a8.settled 3 = true) ∧ (a8.get (F.CMP_CFG_MODE 3) ≠ 0) ∧
      (a8.get (F.CMP_CFG_N 3) ≤ (a8.advance T).cmpVotes 3 true) ∧ (true = true) ∧ (a8.get (F.CMP_STAT_FILT 3) = 0) ∧
      ((a8.cmp 3).logAt = none)) := by
  decide +kernel

theorem witness_ComparatorsTripAndClear_3 :
    ((fl.works domANA = true) ∧ (fl.settled 3 = true) ∧ (fl.get (F.CMP_CFG_MODE 3) ≠ 0) ∧
      (fl.get (F.CMP_CFG_N 3) ≤ (fl.advance T).cmpVotes 3 false) ∧ (false = false)) ∧
    ((fl.works domANA = true) ∧ (fl.settled 3 = true) ∧ (fl.get (F.CMP_CFG_MODE 3) ≠ 0) ∧
      (¬fl.get (F.CMP_CFG_N 3) ≤ (fl.advance T).cmpVotes 3 true)) ∧
    ((a9.works domANA = true) ∧ (a9.settled 3 = false) ∧ (a9.get (F.CMP_CFG_MODE 3) ≠ 0) ∧
      (a9.cmpSide 3 hi = some true) ∧ (a9.cmpRings 3 = []) ∧ (a9.cmpLegs 3 = [])) ∧
    ((a10.works domANA = true) ∧ (a10.settled 3 = false) ∧ (a10.get (F.CMP_CFG_MODE 3) ≠ 0) ∧
      (a10.cmpSide 3 0 = some false) ∧ (a10.cmpRings 3 = []) ∧ (a10.cmpLegs 3 = [])) ∧
    ((a10.works domANA = true) ∧ (a10.settled 3 = false) ∧ (a10.get (F.CMP_CFG_MODE 3) ≠ 0) ∧
      (a10.cmpSide 3 (550 * 1024) = none)) ∧
    ((a11.works domANA = true) ∧ (a11.isOn domMGMT = true) ∧ (a11.isOn domANA = true) ∧
      (a11.judgeWord 1 (R.CMP_STAT 3) 1#32 1#32 = Status.ok) ∧ ((a11.cmp 3).out = true)) := by
  decide +kernel

theorem witness_ComparatorsTripAndClear_4 :
    ((a12.works domANA = true) ∧ (a12.isOn domMGMT = true) ∧ (a12.isOn domANA = true) ∧
      (a12.judgeWord 1 (R.CMP_STAT 3) 1#32 1#32 = Status.ok) ∧ ((a12.cmp 3).out = false) ∧ (a12.cmpRings 3 = [])) ∧
    ((a13.works domANA = true) ∧ (a13.get (F.CMP_CFG_LATCH 3) = 2) ∧ (a13.settled 3 = true) ∧ (a13.trip 3 = true) ∧
      (¬((a13.cmp 3).out = false ∧ (a13.cmp 3).offAt ≤ (a13.advance T).clearPoint 3 ∧ (a13.advance T).clearPoint 3 ≤
        (a13.advance T).mtUnits))) ∧
    ((a14.works domANA = true) ∧ (a14.get (F.CMP_CFG_LATCH 3) = 2) ∧ (a14.settled 3 = true) ∧ (a14.trip 3 = true) ∧
      ((a14.cmp 3).out = false ∧ (a14.cmp 3).offAt ≤ (a14.advance T).clearPoint 3 ∧ (a14.advance T).clearPoint 3 ≤
        (a14.advance T).mtUnits) ∧ (a14.cmpRings 3 = [])) ∧
    ((a15.works domANA = true) ∧ (a15.get (F.CMP_CFG_LATCH 3) = 2) ∧ (a15.settled 3 = true) ∧ (a15.trip 3 = true) ∧
      (¬((a15.cmp 3).out = false ∧ (a15.cmp 3).offAt ≤ (a15.advance T).clearPoint 3 ∧ (a15.advance T).clearPoint 3 ≤
        (a15.advance T).mtUnits))) := by
  decide +kernel

theorem witness_BitstreamsConverterAndDelayLines :
    ((W.works domANA = true) ∧ (W.get (F.BSI_CFG_EN 3) = 0)) ∧
    ((wb.works domANA = true) ∧ (wb.get (F.BSI_CFG_EN 3) = 1) ∧ ((wb.bsi 3).clkAt = some (T - 800)) ∧
      (T - 800 + bsiClk ≤ max wb.now T) ∧ ((wb.bsi 3).ys = [])) ∧
    ((a17.works domANA = true) ∧ (a17.get (F.BSI_CFG_EN 3) = 1) ∧ ((a17.bsi 3).clkAt = some (T - 800)) ∧
      (T - 800 + bsiClk ≤ max a17.now T) ∧ ((a17.bsi 3).ys = [])) ∧
    ((a18.works domANA = true) ∧ (a18.get (F.BSI_CFG_EN 3) = 1) ∧ (a18.get (F.BSI_STAT_RUNNING 3) = 1) ∧
      (1024 ≤ (a18.bsi 3).still) ∧ (∀ (p : Nat), p < 9 → ¬3 ∈ a18.bsiChans p ∨ a18.get (F.GRID_PT_SRC_BSI_EN p) = 0)) ∧
    ((wb.works domANA = true) ∧ (wb.get (F.BSI_CFG_EN 3) = 1) ∧
      (wb.get (F.BSI_STAT_RUNNING 3) = 0 ∨ (wb.bsi 3).still < 1024)) ∧
    ((wb.works domANA = true) ∧ (wb.get (F.BSI_CFG_EN 3) = 1) ∧ ((wb.bsi 3).ovr < 16)) := by
  decide +kernel

theorem witness_BitstreamsConverterAndDelayLines_2 :
    ((a19.works domANA = true) ∧ (a19.get (F.BSI_CFG_EN 3) = 1) ∧ (16 ≤ (a19.bsi 3).ovr) ∧ ((a19.bsi 3).overAt = none)) ∧
    ((a20.works domANA = true) ∧
      ((¬if a20.get F.IADC_CFG_ROUND_MS = 0 then a20.get F.IADC_STATUS_BUSY = 0 else a20.ana.iadc.lastDue <
        (a20.advance T).mtUnits / (a20.get F.IADC_CFG_ROUND_MS * uMs) * (a20.get F.IADC_CFG_ROUND_MS * uMs)) ∨
        a20.get F.IADC_CFG_NENT = 0)) ∧
    ((a21.works domANA = true) ∧
      (if a21.get F.IADC_CFG_ROUND_MS = 0 then a21.get F.IADC_STATUS_BUSY = 0 else a21.ana.iadc.lastDue <
        (a21.advance T).mtUnits / (a21.get F.IADC_CFG_ROUND_MS * uMs) * (a21.get F.IADC_CFG_ROUND_MS * uMs)) ∧
      (a21.get F.IADC_CFG_NENT ≠ 0) ∧ (a21.get F.IADC_STATUS_BUSY = 1)) ∧
    ((wi.works domANA = true) ∧
      (if wi.get F.IADC_CFG_ROUND_MS = 0 then wi.get F.IADC_STATUS_BUSY = 0 else wi.ana.iadc.lastDue < (wi.advance
        T).mtUnits / (wi.get F.IADC_CFG_ROUND_MS * uMs) * (wi.get F.IADC_CFG_ROUND_MS * uMs)) ∧
      (wi.get F.IADC_CFG_NENT ≠ 0) ∧ (wi.get F.IADC_STATUS_BUSY = 0) ∧ (wi.ana.iadc.conv = none) ∧
      (wi.ana.iadc.house = false)) ∧
    ((a22.works domANA = true) ∧ (a22.ana.iadc.conv = some a23) ∧ (a23.entry = some 0) ∧ (a23.ch ≠ 21) ∧
      (a22.ana.iadc.rest = []) ∧ (a22.ana.iadc.house = false) ∧ (satS 24 4142295 = 4142295) ∧
      (max a22.now T < a23.ends)) ∧
    ((a24.works domANA = true) ∧ (a24.ana.iadc.conv = some cv) ∧ (cv.entry = some 0) ∧ (cv.ch ≠ 21) ∧
      (a24.ana.iadc.rest = []) ∧ (a24.ana.iadc.house = false) ∧ (satS 24 4142295 = 4142295) ∧
      (cv.ends ≤ max a24.now T) ∧ (a24.ana.iadc.queue.length < 64)) := by
  decide +kernel

theorem witness_BitstreamsConverterAndDelayLines_3 :
    ((a25.works domANA = true) ∧ (a25.ana.iadc.conv = some cv) ∧ (cv.entry = some 0) ∧ (cv.ch ≠ 21) ∧
      (a25.ana.iadc.rest = []) ∧ (a25.ana.iadc.house = false) ∧ (satS 24 4142295 = 4142295) ∧
      (cv.ends ≤ max a25.now T) ∧ (a25.ana.iadc.queue.length = 64) ∧ (a25.ana.iadc.lostAt = none)) ∧
    ((a26.works domANA = true) ∧ (a26.ana.iadc.conv = none) ∧ (a26.ana.iadc.house = false) ∧
      (a26.ana.iadc.cpAt + 1000 * uMs ≤ (a26.advance T).mtUnits)) ∧
    ((a27.works domANA = true) ∧ (a27.ana.iadc.conv = none) ∧ (a27.ana.iadc.house = false) ∧
      ((a27.advance T).mtUnits < a27.ana.iadc.cpAt + 1000 * uMs)) ∧
    ((W.works domANA = true) ∧
      ((0, false).fst ≤ 40 ∧ (40, false).fst ≤ 40 ∧ (1, false).fst ≤ 40 ∧ (0, false).snd = false ∧ (40, false).snd =
        false ∧ (1, false).snd = false)) ∧
    ((W.works domANA = true) ∧ (40 < (41, false).fst) ∧ ((0, false) = (0, false)) ∧ ((0, false) = (0, false))) ∧
    ((wq.isOn domMGMT = true) ∧ (wq.isOn domANA = true) ∧ (wq.ana.iadc.queue = a28 :: a29)) := by
  decide +kernel

theorem witness_BitstreamsConverterAndDelayLines_4 :
    ((a30.isOn domMGMT = true) ∧ (a30.isOn domANA = true) ∧ (a30.ana.iadc.queue = a28 :: a29) ∧
      ((a30.sess 1).qHi = some (a28.fst, a28.snd.snd))) ∧
    ((wq.isOn domMGMT = true) ∧ (wq.isOn domANA = true) ∧ (wq.ana.iadc.queue = a28 :: a29) ∧ ((wq.sess 1).qHi = none)) ∧
    ((a31.isOn domMGMT = true) ∧ (a31.isOn domANA = true) ∧ (a31.ana.iadc.queue = a28 :: a29) ∧
      ((a31.sess 1).peekHi = some (a28.fst, a28.snd.snd))) ∧
    ((a32.isOn domMGMT = true) ∧ (a32.isOn domANA = true) ∧ ((a32.sess 1).qHi = some (3, 9#32)) ∧
      (∀ (e : Nat × BitVec 32 × BitVec 32), e ∈ a32.ana.iadc.queue.head? → e.fst ≠ 3)) ∧
    ((wi.isOn domMGMT = true) ∧ (wi.isOn domANA = true) ∧ (wi.ana.iadc.queue = [])) ∧
    ((wi.isOn domMGMT = true) ∧ (wi.isOn domVOTE = true) ∧ (rowOf R.PWM_STATUS = some a33) ∧
      (wi.needLevel 1 (wi.writeLevel a33) = Status.ok)) := by
  decide +kernel

theorem witness_BitstreamsConverterAndDelayLines_5 :
    ((a34.works domVOTE = true) ∧ (a34.get (F.PWM_CLU_STAT_MIXED 3) = 1) ∧
      (((cellsOf 3).all fun k => a34.cellState k == 6 || a34.cellState k == 8 || a34.marked k || Option.all (fun b =>
        decide (b.s ≤ (a34.advance T).mtUnits)) (a34.bridgeOf k)) = true)) ∧
    ((wi.works domVOTE = true) ∧
      (wi.get (F.PWM_CLU_STAT_MIXED 3) = 0 ∨ ((cellsOf 3).all fun k => wi.cellState k == 6 || wi.cellState k == 8 ||
        wi.marked k || Option.all (fun b => decide (b.s ≤ (wi.advance T).mtUnits)) (wi.bridgeOf k)) = false)) := by
  decide +kernel

theorem witness_LegsRunAndTrip :
    ((a35.works domANA = true) ∧ (a35.get (F.PWM_LEG_STAT_LATCHED 5) = 0) ∧ (a35.legState 5 = 2) ∧
      (a35.get (F.PWM_LEG_TRIP_N 5) ≤ ((a35.advance T).legTrips 5).length)) ∧
    (((lg 2 { : LegX }).works domANA = true) ∧ ((lg 2 { : LegX }).get (F.PWM_LEG_STAT_LATCHED 5) = 0) ∧
      ((lg 2 { : LegX }).legState 5 = 2) ∧
      ((((lg 2 { : LegX }).advance T).legTrips 5).length < (lg 2 { : LegX }).get (F.PWM_LEG_TRIP_N 5))) ∧
    ((a36.works domANA = true) ∧ (a36.isOn domMGMT = true) ∧ (a36.isOn domANA = true) ∧ (a36.isOn domVOTE = true) ∧
      (a36.judgeWord 1 (R.PWM_LEG_STAT 5) 1#32 1#32 = Status.ok) ∧ (a36.get (F.PWM_LEG_STAT_LATCHED 5) = 1) ∧
      (a36.tripInput 5 = false)) ∧
    ((a37.works domANA = true) ∧ (a37.isOn domMGMT = true) ∧ (a37.isOn domANA = true) ∧ (a37.isOn domVOTE = true) ∧
      (a37.judgeWord 1 (R.PWM_LEG_STAT 5) 1#32 1#32 = Status.ok) ∧ (a37.get (F.PWM_LEG_STAT_LATCHED 5) = 1) ∧
      (a37.tripInput 5 = true)) ∧
    (((lg 0 { : LegX }).works domANA = true) ∧ ((lg 0 { : LegX }).isOn domMGMT = true) ∧
      ((lg 0 { : LegX }).isOn domANA = true) ∧ ((lg 0 { : LegX }).isOn domVOTE = true) ∧
      ((lg 0 { : LegX }).allows 1 (R.LEG_CTRL 5) 1#32 1#32 = true) ∧ ((lg 0 { : LegX }).get (F.LEG_CTRL_EN 5) = 0) ∧
      ((lg 0 { : LegX }).legState 5 = 0)) ∧
    (((lg 4 { : LegX }).works domANA = true) ∧ ((lg 4 { : LegX }).isOn domMGMT = true) ∧
      ((lg 4 { : LegX }).isOn domANA = true) ∧ ((lg 4 { : LegX }).isOn domVOTE = true) ∧
      ((lg 4 { : LegX }).allows 1 (R.LEG_CTRL 5) 1#32 1#32 = true) ∧ ((lg 4 { : LegX }).get (F.LEG_CTRL_EN 5) = 0) ∧
      ((lg 4 { : LegX }).legState 5 = 4)) := by
  decide +kernel

theorem witness_LegsRunAndTrip_2 :
    ((a38.works domANA = true) ∧ (a38.isOn domMGMT = true) ∧ (a38.isOn domANA = true) ∧ (a38.isOn domVOTE = true) ∧
      (a38.allows 1 (R.LEG_CTRL 5) 0#32 1#32 = true) ∧ (a38.legState 5 = 2) ∧ ((a38.leg 5).enFall = none)) ∧
    (((lg 3 { : LegX }).works domANA = true) ∧ ((lg 3 { : LegX }).isOn domMGMT = true) ∧
      ((lg 3 { : LegX }).isOn domANA = true) ∧ ((lg 3 { : LegX }).isOn domVOTE = true) ∧
      ((lg 3 { : LegX }).allows 1 (R.LEG_CTRL 5) 0#32 1#32 = true) ∧
      ((lg 3 { : LegX }).legState 5 = 1 ∨ (lg 3 { : LegX }).legState 5 = 3 ∨ (lg 3 { : LegX }).legState 5 = 5)) ∧
    ((a39.works domANA = true) ∧ ((a39.leg 5).enFall = some T) ∧ (a39.legState 5 ≠ 0) ∧ (T ≤ max a39.now T)) ∧
    ((a40.works domANA = true) ∧ ((a40.leg 5).enFall = some (T + 1)) ∧ (a40.legState 5 ≠ 0) ∧ (max a40.now T < T + 1)) ∧
    ((a41.works domANA = true) ∧ (a41.legState 5 = 1) ∧ (max a41.now T < (a41.leg 5).diagAt + 800 * uUs)) ∧
    ((a42.works domANA = true) ∧ (a42.legState 5 = 1) ∧ ((a42.leg 5).diagAt + 800 * uUs ≤ max a42.now T)) := by
  decide +kernel

theorem witness_LegsRunAndTrip_3 :
    ((a43.works domANA = true) ∧
      ((a43.advance T).mtUnits < a43.get (F.PWM_LEG_OFF_OFF 5) ∨ ((a43.advance T).mtUnits - a43.get
        (F.PWM_LEG_OFF_OFF 5)) / (max 2 (a43.get (F.PWM_LEG_CFG_CAR_P 5)) / 2) = (a43.leg 5).half)) ∧
    ((a44.works domANA = true) ∧ (a44.get (F.PWM_LEG_OFF_OFF 5) ≤ (a44.advance T).mtUnits) ∧
      (((a44.advance T).mtUnits - a44.get (F.PWM_LEG_OFF_OFF 5)) / (max 2 (a44.get (F.PWM_LEG_CFG_CAR_P 5)) / 2) ≠
        (a44.leg 5).half) ∧
      (((a44.advance T).mtUnits - a44.get (F.PWM_LEG_OFF_OFF 5)) / (max 2 (a44.get (F.PWM_LEG_CFG_CAR_P 5)) / 2) % 2
        = 0) ∧ ((a44.leg 5).release = false) ∧ (a44.legState 5 = 2) ∧
      ((List.filter (fun w => decide (w.fst ≤ a44.get (F.PWM_LEG_OFF_OFF 5) + ((a44.advance T).mtUnits - a44.get
        (F.PWM_LEG_OFF_OFF 5)) / (max 2 (a44.get (F.PWM_LEG_CFG_CAR_P 5)) / 2) * (max 2 (a44.get (F.PWM_LEG_CFG_CAR_P
        5)) / 2))) (a44.leg 5).writes).getLast? = some (T, pd)) ∧
      ((a44.leg 5).firstAt ≤ a44.get (F.PWM_LEG_OFF_OFF 5) + ((a44.advance T).mtUnits - a44.get (F.PWM_LEG_OFF_OFF
        5)) / (max 2 (a44.get (F.PWM_LEG_CFG_CAR_P 5)) / 2) * (max 2 (a44.get (F.PWM_LEG_CFG_CAR_P 5)) / 2)) ∧
      ((a44.leg 5).enFall = none)) ∧
    ((a45.works domANA = true) ∧ (a45.get (F.PWM_LEG_OFF_OFF 5) ≤ (a45.advance T).mtUnits) ∧
      (((a45.advance T).mtUnits - a45.get (F.PWM_LEG_OFF_OFF 5)) / (max 2 (a45.get (F.PWM_LEG_CFG_CAR_P 5)) / 2) ≠
        (a45.leg 5).half) ∧
      (((a45.advance T).mtUnits - a45.get (F.PWM_LEG_OFF_OFF 5)) / (max 2 (a45.get (F.PWM_LEG_CFG_CAR_P 5)) / 2) % 2
        = 0) ∧ ((a45.leg 5).release = false) ∧ (a45.legState 5 = 2) ∧
      (List.filter (fun w => decide (w.fst ≤ a45.get (F.PWM_LEG_OFF_OFF 5) + ((a45.advance T).mtUnits - a45.get
        (F.PWM_LEG_OFF_OFF 5)) / (max 2 (a45.get (F.PWM_LEG_CFG_CAR_P 5)) / 2) * (max 2 (a45.get (F.PWM_LEG_CFG_CAR_P
        5)) / 2))) (a45.leg 5).writes = []) ∧ ((a45.leg 5).shadow = none)) ∧
    ((a46.works domANA = true) ∧ (a46.get (F.PWM_LEG_OFF_OFF 5) ≤ (a46.advance T).mtUnits) ∧
      (((a46.advance T).mtUnits - a46.get (F.PWM_LEG_OFF_OFF 5)) / (max 2 (a46.get (F.PWM_LEG_CFG_CAR_P 5)) / 2) ≠
        (a46.leg 5).half) ∧
      (((a46.advance T).mtUnits - a46.get (F.PWM_LEG_OFF_OFF 5)) / (max 2 (a46.get (F.PWM_LEG_CFG_CAR_P 5)) / 2) % 2
        = 0) ∧ ((a46.leg 5).release = true) ∧ (a46.legState 5 = 3)) ∧
    ((a47.works domANA = true) ∧ (a47.get (F.PWM_LEG_OFF_OFF 5) ≤ (a47.advance (T + 400000)).mtUnits) ∧
      (((a47.advance (T + 400000)).mtUnits - a47.get (F.PWM_LEG_OFF_OFF 5)) / (max 2 (a47.get (F.PWM_LEG_CFG_CAR_P
        5)) / 2) ≠ (a47.leg 5).half) ∧
      (((a47.advance (T + 400000)).mtUnits - a47.get (F.PWM_LEG_OFF_OFF 5)) / (max 2 (a47.get (F.PWM_LEG_CFG_CAR_P
        5)) / 2) % 2 = 1) ∧ (a47.legState 5 = 2) ∧ ((a47.leg 5).enFall = none) ∧
      (a47.get (F.PWM_LEG_CFG_UPDATE_AT 5) = 1) ∧ ((a47.leg 5).live = some pe) ∧
      ((List.filter (fun w => decide (w.fst ≤ a47.get (F.PWM_LEG_OFF_OFF 5) + ((a47.advance (T + 400000)).mtUnits -
        a47.get (F.PWM_LEG_OFF_OFF 5)) / (max 2 (a47.get (F.PWM_LEG_CFG_CAR_P 5)) / 2) * (max 2 (a47.get
        (F.PWM_LEG_CFG_CAR_P 5)) / 2))) (a47.leg 5).writes).getLast? = some a48)) := by
  decide +kernel

end Sys2Proof.Tests.W17

namespace Sys2Proof.Tests.W17b

open Sys2Proof Sys2Proof.Machine

set_option Elab.async false

def T : Nat := 8000000000000
def wq (n : Nat) (f : IadcSt → IadcSt) : State := (W.setAna fun x => { x with iadc := f { x.iadc with conv := some ⟨some 5, 3, 0, T, false⟩, queue := (List.range n).map fun i => (i, 0, 0) } })
def a1 : Conv := ⟨some 5, 3, 0, T, false⟩
def a2 : State := wq 64 (fun x => { x with lostAt := some (T - 5), overAt := some 3 })
def a3 : State := wq 63 (fun x => { x with lostBefore := true })
def a4 : State := wq 0 (fun x => { x with conv := some ⟨some 15, 21, 0, T, true⟩ })
def a5 : Conv := ⟨some 15, 21, 0, T, true⟩
def a6 : State := wq 64 (fun x => { x with conv := some ⟨some 15, 21, 0, T, true⟩ })

theorem witness_FullQueueDiscardsResults :
    (((wq 64 id).works domANA = true) ∧ ((wq 64 id).ana.iadc.conv = some a1) ∧ (a1.entry = some 5) ∧ (5 < 16) ∧
      (a1.ends ≤ max (wq 64 id).now T) ∧ ((wq 64 id).ana.iadc.queue.length = 64)) ∧
    ((a2.works domANA = true) ∧ (a2.ana.iadc.conv = some a1) ∧ (a1.entry = some 5) ∧ (5 < 16) ∧
      (a1.ends ≤ max a2.now T) ∧ (a2.ana.iadc.queue.length = 64)) ∧
    ((a3.works domANA = true) ∧ (a3.ana.iadc.conv = some a1) ∧ (a1.entry = some 5) ∧ (5 < 16) ∧
      (a1.ends ≤ max a3.now T) ∧ (a3.ana.iadc.queue.length < 64)) ∧
    ((a4.works domANA = true) ∧ (a4.ana.iadc.conv = some a5) ∧ (a5.entry = some 15) ∧ (15 < 16) ∧
      (a5.ends ≤ max a4.now T) ∧ (a4.ana.iadc.queue.length < 64)) ∧
    ((a6.works domANA = true) ∧ (a6.ana.iadc.conv = some a5) ∧ (a5.entry = some 15) ∧ (15 < 16) ∧
      (a5.ends ≤ max a6.now T) ∧ (a6.ana.iadc.queue.length = 64)) := by
  decide +kernel

end Sys2Proof.Tests.W17b

namespace Sys2Proof.Tests.W18

open Sys2Proof Sys2Proof.Machine

set_option Elab.async false

def T : Nat := 8000000000000
def vin (s : State) : State := s.put F.PWR_SUPPLY_VIN_A_OK 1
def wl : State := (W.put (F.PWR_STATE 20) 3).setPwr fun p => { p with leaving := p.leaving.set 20 (some ⟨1, T⟩) }
def wp (d : Nat) : State := ((W.put (F.PWR_STATE d) 3).put F.LANE_CFG_AUTO_RESTART 0).setPwr fun p => { p with plan := [⟨[d], 5, 0⟩, ⟨[8], 77, 0⟩], stepEnd := T }
def ww : State := (vin W).put F.PWR_WAKE_CFG_EN 1
def T30 : Nat := T + 30 * 86400 * uS
def wh : State := W.setPwr fun p => { p with hold := (List.range 21).map fun d => (d, some ⟨T, []⟩) }
def a1 : State := W.put (F.PWR_STATE 20) 3
def a2 : State := W.setPwr fun p => { p with hold := p.hold.set 20 (some ⟨T, []⟩) }
def a3 : State := W.put (F.CELL_STATE_STATE 130) 5
def a4 : State := (W.put (F.PWR_STATE 18) 0).put (F.PWR_STATE 17) 0
def a5 : State := (wp 17).setPwr fun p => { p with stepEnd := T + 1 }
def a6 : RestoreStep := ⟨[17], 5, 0⟩
def a7 : List RestoreStep := [⟨[8], 77, 0⟩]
def a8 : RestoreStep := ⟨[20], 5, 0⟩
def a9 : State := W.put F.PWR_WAKE_CFG_EN 1
def a10 : State := (ww.put F.PWR_WAKE_CFG_ADDR 1).put F.PWR_WAKE_SET_SET 0
def a11 : State := (ww.put F.PWR_WAKE_CFG_ADDR 1).put (F.PWR_STATE 7) 0
def a12 : Nat := T + 100 * uMs
def a13 : State := (ww.put F.PWR_WAKE_CFG_STRETCH_MAX 100).setPwr fun p => { p with wake := some ⟨T, [7], none⟩ }
def a14 : Wake := ⟨T, [7], none⟩
def a15 : Nat := T + 100 * uMs - 1
def a16 : State := (vin W).put F.PWR_SUPPLY_VIN_B_OK 1
def a17 : State := W.setPwr fun p => { p with cutOff := true }
def a18 : State := (vin W).setPwr fun p => { p with resetLow := true }
def a19 : State := (W).setPwr fun p => { p with resetLow := true }
def a20 : State := vin (W.setPwr fun p => { p with cutOff := true })
def a21 : State := (W.setPwr fun p => { p with cutOff := true })
def a22 : State := ((W.setPwr fun p => { p with cutOff := true }).put F.PWR_SUPPLY_HARV_OK 1).put F.CREMA_CELL_VCELL 3300
def a23 : State := ((W.setPwr fun p => { p with cutOff := true }).put F.PWR_SUPPLY_HARV_OK 1).put F.CREMA_CELL_VCELL 3299
def a24 : State := W.put F.CREMA_CFG_TAMPER_EN 1
def a25 : State := ((W.put F.CREMA_CFG_TAMPER_EN 1).put F.CREMA_STICKY_TAMPER 1).setPwr fun p => { p with tamperOpen := true }
def a26 : State := ((W.put F.CREMA_CFG_TAMPER_EN 1)).setPwr fun p => { p with tamperOpen := true }
def a27 : State := W.put F.CREMA_CFG_TAMPER_EN 0
def a28 : State := W.put F.CREMA_CELL_CHARGING 1
def a29 : State := (W.put F.CREMA_CELL_CHARGING 1).setPwr fun p => { p with fromLow := true }
def a30 : State := vin (W.put F.CREMA_CELL_CHARGING 1)
def a31 : State := (vin W).put F.CREMA_CFG_CAP_TEST 1
def a32 : State := ((vin W).put F.CREMA_CFG_CAP_TEST 1).setPwr fun p => { p with capAt := T }
def a33 : State := ((vin W).put F.CREMA_CELL_TESTING 1).put F.CREMA_CELL_TEMP_OK 1
def a34 : List Nat := []
def a35 : List Nat := [1,2,3]
def a36 : Nat := T + 10 * uS
def a37 : Nat := T + 10 * uS - 1
def a38 : State := W.put F.THM_CP_STALE 0
def a39 : State := (W.put F.THM_CP_STALE 0).setPwr fun p => { p with cpAt := T }

theorem witness_PowerRequests :
    ((W.isOn domMGMT = true) ∧ (W.isOn domCREMA = true) ∧
      ((0, Instr.pwrReqOff T 1 6) ∈ [(0, Instr.pwrReqOff T 1 6), (1, Instr.pwrReqRetention T 1 6), (2, Instr.pwrReqOn
        T 1 6)]) ∧
      (W.judgeWord 1 R.PWR_REQ (pwrWord 6 (0, Instr.pwrReqOff T 1 6).fst) (BitVec.allOnes 32) = Status.ok) ∧
      (6 = 0 ∨ 6 = 6)) ∧
    ((a1.isOn domMGMT = true) ∧ (a1.isOn domCREMA = true) ∧
      ((0, Instr.pwrReqOff T 1 20) ∈ [(0, Instr.pwrReqOff T 1 20), (1, Instr.pwrReqRetention T 1 20), (2,
        Instr.pwrReqOn T 1 20)]) ∧
      (a1.judgeWord 1 R.PWR_REQ (pwrWord 20 (0, Instr.pwrReqOff T 1 20).fst) (BitVec.allOnes 32) = Status.ok) ∧
      (switchable 20 = true) ∧ (a1.domState 20 = 3)) ∧
    ((W.isOn domMGMT = true) ∧ (W.isOn domCREMA = true) ∧
      ((2, Instr.pwrReqOn T 1 20) ∈ [(0, Instr.pwrReqOff T 1 20), (1, Instr.pwrReqRetention T 1 20), (2,
        Instr.pwrReqOn T 1 20)]) ∧
      (W.judgeWord 1 R.PWR_REQ (pwrWord 20 (2, Instr.pwrReqOn T 1 20).fst) (BitVec.allOnes 32) = Status.ok) ∧
      (switchable 20 = true) ∧ (W.domState 20 = (2, Instr.pwrReqOn T 1 20).fst) ∧
      (W.allows 1 R.PWR_REQ (pwrWord 20 (2, Instr.pwrReqOn T 1 20).fst) (BitVec.allOnes 32) = true)) ∧
    ((a2.isOn domMGMT = true) ∧ (a2.isOn domCREMA = true) ∧
      ((1, Instr.pwrReqRetention T 1 20) ∈ [(0, Instr.pwrReqOff T 1 20), (1, Instr.pwrReqRetention T 1 20), (2,
        Instr.pwrReqOn T 1 20)]) ∧
      (a2.judgeWord 1 R.PWR_REQ (pwrWord 20 (1, Instr.pwrReqRetention T 1 20).fst) (BitVec.allOnes 32) = Status.ok) ∧
      (switchable 20 = true) ∧ (a2.domState 20 ≠ 3) ∧ (a2.domState 20 ≠ (1, Instr.pwrReqRetention T 1 20).fst) ∧
      (a2.held 20 = true)) ∧
    ((W.isOn domMGMT = true) ∧ (W.isOn domCREMA = true) ∧
      ((1, Instr.pwrReqRetention T 1 20) ∈ [(0, Instr.pwrReqOff T 1 20), (1, Instr.pwrReqRetention T 1 20), (2,
        Instr.pwrReqOn T 1 20)]) ∧
      (W.judgeWord 1 R.PWR_REQ (pwrWord 20 (1, Instr.pwrReqRetention T 1 20).fst) (BitVec.allOnes 32) = Status.ok) ∧
      (switchable 20 = true) ∧ (W.domState 20 = 2) ∧ ((1, Instr.pwrReqRetention T 1 20).fst ≠ 2) ∧
      (W.held 20 = false) ∧ (List.find? (fun e => decide (2 ≤ W.domState e)) (dependents 20) = some 7)) ∧
    ((a3.isOn domMGMT = true) ∧ (a3.isOn domCREMA = true) ∧
      ((1, Instr.pwrReqRetention T 1 10) ∈ [(0, Instr.pwrReqOff T 1 10), (1, Instr.pwrReqRetention T 1 10), (2,
        Instr.pwrReqOn T 1 10)]) ∧
      (a3.judgeWord 1 R.PWR_REQ (pwrWord 10 (1, Instr.pwrReqRetention T 1 10).fst) (BitVec.allOnes 32) = Status.ok) ∧
      (switchable 10 = true) ∧ (a3.domState 10 = 2) ∧ ((1, Instr.pwrReqRetention T 1 10).fst ≠ 2) ∧
      (a3.held 10 = false) ∧ (∀ (e : Nat), e ∈ dependents 10 → a3.domState e < 2) ∧ (a3.domNeeded 10 = true)) := by
  and_intros
  all_goals first
    | decide +kernel
    | exact all_some (by decide +kernel)
    | exact not_all_some (by decide +kernel)
    | exact ex_some (by decide +kernel)
    | (intro j k; exact nofun)

theorem witness_PowerRequests_2 :
    ((W.isOn domMGMT = true) ∧ (W.isOn domCREMA = true) ∧
      ((1, Instr.pwrReqRetention T 1 10) ∈ [(0, Instr.pwrReqOff T 1 10), (1, Instr.pwrReqRetention T 1 10), (2,
        Instr.pwrReqOn T 1 10)]) ∧
      (W.judgeWord 1 R.PWR_REQ (pwrWord 10 (1, Instr.pwrReqRetention T 1 10).fst) (BitVec.allOnes 32) = Status.ok) ∧
      (switchable 10 = true) ∧ (W.domState 10 = 2) ∧ ((1, Instr.pwrReqRetention T 1 10).fst ≠ 2) ∧
      (W.held 10 = false) ∧ (∀ (e : Nat), e ∈ dependents 10 → W.domState e < 2) ∧ (W.domNeeded 10 = false) ∧
      (10 ∈ [1, 8, 9, 10, 11, 12, 13, 14, 15, 16, 17, 19, 20]) ∧
      (W.allows 1 R.PWR_REQ (pwrWord 10 (1, Instr.pwrReqRetention T 1 10).fst) (BitVec.allOnes 32) = true)) ∧
    ((W.isOn domMGMT = true) ∧ (W.isOn domCREMA = true) ∧
      ((0, Instr.pwrReqOff T 1 10) ∈ [(0, Instr.pwrReqOff T 1 10), (1, Instr.pwrReqRetention T 1 10), (2,
        Instr.pwrReqOn T 1 10)]) ∧
      (W.judgeWord 1 R.PWR_REQ (pwrWord 10 (0, Instr.pwrReqOff T 1 10).fst) (BitVec.allOnes 32) = Status.ok) ∧
      (switchable 10 = true) ∧ (W.domState 10 = 2) ∧ ((0, Instr.pwrReqOff T 1 10).fst ≠ 2) ∧ (W.held 10 = false) ∧
      (∀ (e : Nat), e ∈ dependents 10 → W.domState e < 2) ∧ (W.domNeeded 10 = false) ∧
      (10 ∈ [1, 8, 9, 10, 11, 12, 13, 14, 15, 16, 17, 19, 20]) ∧
      (W.allows 1 R.PWR_REQ (pwrWord 10 (0, Instr.pwrReqOff T 1 10).fst) (BitVec.allOnes 32) = true)) ∧
    ((a4.isOn domMGMT = true) ∧ (a4.isOn domCREMA = true) ∧
      ((2, Instr.pwrReqOn T 1 18) ∈ [(0, Instr.pwrReqOff T 1 18), (1, Instr.pwrReqRetention T 1 18), (2,
        Instr.pwrReqOn T 1 18)]) ∧
      (a4.judgeWord 1 R.PWR_REQ (pwrWord 18 (2, Instr.pwrReqOn T 1 18).fst) (BitVec.allOnes 32) = Status.ok) ∧
      (switchable 18 = true) ∧ (a4.domState 18 < 2) ∧ ((2, Instr.pwrReqOn T 1 18).fst = 2) ∧
      (∀ (e : Nat), e < 21 → a4.held e = false ∧ a4.leaves e = false) ∧ (a4.pwr.plan = []) ∧
      (a4.allows 1 R.PWR_REQ (pwrWord 18 (2, Instr.pwrReqOn T 1 18).fst) (BitVec.allOnes 32) = true)) ∧
    ((wl.pwr.leaving.get 20 = some { target := 1, due := T : Leaving }) ∧ (wl.domState 20 = 3) ∧
      (wl.pwr.wake = none) ∧ (wl.prepared 20 = true ∨ { target := 1, due := T : Leaving }.due ≤ max wl.now T) ∧
      ({ target := 1, due := T : Leaving }.target = 1)) ∧
    ((W.pwr.leaving.get 20 = none)) := by
  decide +kernel

theorem witness_RestoresWakesAndSupplies :
    ((a5.pwr.plan = a6 :: a7) ∧ (max a5.now T < a5.pwr.stepEnd)) ∧
    (((wp 17).pwr.plan = a6 :: a7) ∧ (17 ∈ [17, 20]) ∧ ((wp 17).pwr.stepEnd ≤ max (wp 17).now T) ∧ (a6.doms = [17]) ∧
      ((wp 17).start.cold = false) ∧ ((wp 17).pwr.wake = none) ∧ ((wp 17).get F.LANE_CFG_AUTO_RESTART = 0)) ∧
    (((wp 20).pwr.plan = a8 :: a7) ∧ (20 ∈ [17, 20]) ∧ ((wp 20).pwr.stepEnd ≤ max (wp 20).now T) ∧ (a8.doms = [20]) ∧
      ((wp 20).start.cold = false) ∧ ((wp 20).pwr.wake = none) ∧ ((wp 20).get F.LANE_CFG_AUTO_RESTART = 0)) ∧
    ((W.pwr.plan = [])) ∧
    ((a9.pwr.wake = none) ∧
      (a9.get F.PWR_WAKE_CFG_EN = 0 ∨ 1 ≠ a9.get F.PWR_WAKE_CFG_ADDR ∨ ¬(a9.get F.PWR_SUPPLY_VIN_A_OK = 1 ∨ a9.get
        F.PWR_SUPPLY_VIN_B_OK = 1) ∨ a9.stayOff = true)) ∧
    ((a10.pwr.wake = none) ∧ (a10.get F.PWR_WAKE_CFG_EN = 1) ∧ (1 = a10.get F.PWR_WAKE_CFG_ADDR) ∧
      (a10.get F.PWR_SUPPLY_VIN_A_OK = 1 ∨ a10.get F.PWR_SUPPLY_VIN_B_OK = 1) ∧ (a10.stayOff = false) ∧
      (∀ (d : Nat), d ∈ withRequired ([1, 20, 7] ++ List.filter (fun d => bit (a10.get F.PWR_WAKE_SET_SET) d)
        switchables) → a10.isOn d = true ∨ a10.barred d = true)) := by
  decide +kernel

theorem witness_RestoresWakesAndSupplies_2 :
    ((a11.pwr.wake = none) ∧ (a11.get F.PWR_WAKE_CFG_EN = 1) ∧ (1 = a11.get F.PWR_WAKE_CFG_ADDR) ∧
      (a11.get F.PWR_SUPPLY_VIN_A_OK = 1 ∨ a11.get F.PWR_SUPPLY_VIN_B_OK = 1) ∧ (a11.stayOff = false) ∧
      (∃ d, d ∈ withRequired ([1, 20, 7] ++ List.filter (fun d => bit (a11.get F.PWR_WAKE_SET_SET) d) switchables) ∧
        a11.domState d < 2) ∧ (∀ (d : Nat), d < 21 → a11.held d = false ∧ a11.leaves d = false)) ∧
    ((a13.pwr.wake = some a14) ∧ (a14.limitAt = none) ∧ (a13.get F.PWR_WAKE_CFG_STRETCH_MAX ≠ 0) ∧
      (a14.ackAt + a13.get F.PWR_WAKE_CFG_STRETCH_MAX * uMs ≤ max a13.now a12)) ∧
    ((a13.pwr.wake = some a14) ∧ (a14.limitAt = none) ∧ (a13.get F.PWR_WAKE_CFG_STRETCH_MAX ≠ 0) ∧
      (max a13.now a15 < a14.ackAt + a13.get F.PWR_WAKE_CFG_STRETCH_MAX * uMs)) ∧
    ((a16.get (if true = true then F.PWR_SUPPLY_VIN_B_OK else F.PWR_SUPPLY_VIN_A_OK) = 1) ∧
      (a16.get (if true = true then F.PWR_SUPPLY_VIN_A_OK else F.PWR_SUPPLY_VIN_B_OK) = 1)) ∧
    (((vin W).get (if false = true then F.PWR_SUPPLY_VIN_B_OK else F.PWR_SUPPLY_VIN_A_OK) = 1) ∧
      ((vin W).get (if false = true then F.PWR_SUPPLY_VIN_A_OK else F.PWR_SUPPLY_VIN_B_OK) = 0)) ∧
    (((vin W).get (if true = true then F.PWR_SUPPLY_VIN_B_OK else F.PWR_SUPPLY_VIN_A_OK) = 0) ∧
      ((vin W).get (if true = true then F.PWR_SUPPLY_VIN_A_OK else F.PWR_SUPPLY_VIN_B_OK) = 1) ∧
      ((vin W).pwr.cutOff = false)) := by
  decide +kernel

theorem witness_RestoresWakesAndSupplies_3 :
    ((W.get (if true = true then F.PWR_SUPPLY_VIN_B_OK else F.PWR_SUPPLY_VIN_A_OK) = 0) ∧
      (W.get (if true = true then F.PWR_SUPPLY_VIN_A_OK else F.PWR_SUPPLY_VIN_B_OK) = 0) ∧ (W.pwr.resetLow = false)) ∧
    ((a17.get (if true = true then F.PWR_SUPPLY_VIN_B_OK else F.PWR_SUPPLY_VIN_A_OK) = 0) ∧
      (a17.get (if true = true then F.PWR_SUPPLY_VIN_A_OK else F.PWR_SUPPLY_VIN_B_OK) = 0) ∧
      (a17.pwr.resetLow = false)) ∧
    ((a18.pwr.resetLow = true) ∧ (a18.get F.PWR_SUPPLY_VIN_A_OK = 1 ∨ a18.get F.PWR_SUPPLY_VIN_B_OK = 1)) ∧
    ((a19.pwr.resetLow = true) ∧ (¬(a19.get F.PWR_SUPPLY_VIN_A_OK = 1 ∨ a19.get F.PWR_SUPPLY_VIN_B_OK = 1))) ∧
    ((W.pwr.resetLow = false)) := by
  decide +kernel

theorem witness_CremaAndThermalModel :
    ((W.pwr.cutOff = false)) ∧
    ((a20.pwr.cutOff = true) ∧
      ((a20.get F.PWR_SUPPLY_VIN_A_OK = 1 ∨ a20.get F.PWR_SUPPLY_VIN_B_OK = 1) ∨ a20.get F.PWR_SUPPLY_HARV_OK = 1 ∧
        3300 ≤ a20.get F.CREMA_CELL_VCELL)) ∧
    ((a21.pwr.cutOff = true) ∧
      (¬((a21.get F.PWR_SUPPLY_VIN_A_OK = 1 ∨ a21.get F.PWR_SUPPLY_VIN_B_OK = 1) ∨ a21.get F.PWR_SUPPLY_HARV_OK = 1 ∧
        3300 ≤ a21.get F.CREMA_CELL_VCELL))) ∧
    ((a22.pwr.cutOff = true) ∧
      ((a22.get F.PWR_SUPPLY_VIN_A_OK = 1 ∨ a22.get F.PWR_SUPPLY_VIN_B_OK = 1) ∨ a22.get F.PWR_SUPPLY_HARV_OK = 1 ∧
        3300 ≤ a22.get F.CREMA_CELL_VCELL)) ∧
    ((a23.pwr.cutOff = true) ∧
      (¬((a23.get F.PWR_SUPPLY_VIN_A_OK = 1 ∨ a23.get F.PWR_SUPPLY_VIN_B_OK = 1) ∨ a23.get F.PWR_SUPPLY_HARV_OK = 1 ∧
        3300 ≤ a23.get F.CREMA_CELL_VCELL))) ∧
    ((W.pwr.cutOff = false) ∧ (¬(W.get F.PWR_SUPPLY_VIN_A_OK = 1 ∨ W.get F.PWR_SUPPLY_VIN_B_OK = 1)) ∧
      (¬W.get F.PWR_SUPPLY_HARV_OK = 1)) := by
  decide +kernel

theorem witness_CremaAndThermalModel_2 :
    ((((vin W).get F.PWR_SUPPLY_VIN_A_OK = 1 ∨ (vin W).get F.PWR_SUPPLY_VIN_B_OK = 1) ∨ (vin W).get
        F.PWR_SUPPLY_HARV_OK = 1)) ∧
    ((a24.pwr.cutOff = false) ∧ (a24.get F.CREMA_CFG_TAMPER_EN = 1)) ∧
    ((a25.pwr.cutOff = false) ∧ (a25.get F.CREMA_CFG_TAMPER_EN = 1) ∧ (a25.pwr.tamperOpen = true) ∧
      (a25.get F.CREMA_STICKY_TAMPER = 1)) ∧
    ((a26.pwr.cutOff = false) ∧ (a26.get F.CREMA_CFG_TAMPER_EN = 1) ∧
      (a26.pwr.tamperOpen = false ∨ a26.get F.CREMA_STICKY_TAMPER = 0) ∧ (a26.isOn domMGMT = true)) ∧
    ((a27.get F.CREMA_CFG_TAMPER_EN = 0) ∧ (a27.pwr.cutOff = false)) ∧
    ((a28.get F.CREMA_CELL_CHARGING = 1) ∧ (a28.pwr.fromLow = false)) := by
  decide +kernel

theorem witness_CremaAndThermalModel_3 :
    ((a29.get F.CREMA_CELL_CHARGING = 1) ∧ (a29.pwr.fromLow = true)) ∧
    (((vin W).pwr.cutOff = false) ∧ (3600 < 4100)) ∧
    ((a28.pwr.cutOff = false) ∧ (3600 < 4100)) ∧
    ((a30.pwr.cutOff = false) ∧ (3600 < 4100)) ∧
    ((a31.get F.CREMA_CFG_CAP_TEST = 1) ∧ (a31.get F.CREMA_CELL_CHARGING = 0) ∧ (a31.get F.CREMA_CELL_TESTING = 0) ∧
      (a31.get F.PWR_SUPPLY_VIN_A_OK = 1 ∨ a31.get F.PWR_SUPPLY_VIN_B_OK = 1) ∧
      (a31.pwr.capAt + 30 * 86400 * uS ≤ max a31.now T30)) ∧
    ((a32.get F.CREMA_CFG_CAP_TEST = 1) ∧ (a32.get F.CREMA_CELL_CHARGING = 0) ∧ (a32.get F.CREMA_CELL_TESTING = 0) ∧
      (¬(a32.get F.PWR_SUPPLY_VIN_A_OK = 1 ∨ a32.get F.PWR_SUPPLY_VIN_B_OK = 1) ∨ max a32.now T < a32.pwr.capAt + 30
        * 86400 * uS)) := by
  decide +kernel

theorem witness_CremaAndThermalModel_4 :
    ((a33.get F.CREMA_CELL_TESTING = 1) ∧ (a33.get F.PWR_SUPPLY_VIN_A_OK = 1 ∨ a33.get F.PWR_SUPPLY_VIN_B_OK = 1) ∧
      (a33.get F.CREMA_CELL_TEMP_OK = 1) ∧ (a33.get F.CREMA_CELL_CHARGING = 0)) ∧
    ((W.get F.CREMA_CELL_TESTING = 0)) ∧
    ((a21.pwr.cutOff = true)) ∧
    ((wh.pwr.cutOff = false) ∧ (∀ (d : Nat), d < 21 → switchable d = true → wh.held d = true)) ∧
    (((vin wh).pwr.hold.get 3 = some { since := T, peers := [] : Hold }) ∧
      ((vin wh).get F.PWR_SUPPLY_VIN_A_OK = 1 ∨ (vin wh).get F.PWR_SUPPLY_VIN_B_OK = 1) ∧ ((vin wh).stayOff = false) ∧
      ((vin wh).getS (F.THM_REG_T_T_EST 3) < 10500) ∧
      ({ since := T, peers := [] : Hold }.since + 10 * uS ≤ max (vin wh).now a36)) ∧
    (((vin wh).pwr.hold.get 3 = some { since := T, peers := [] : Hold }) ∧
      (10500 ≤ (vin wh).getS (F.THM_REG_T_T_EST 3) ∨ max (vin wh).now a37 < { since := T, peers := [] : Hold }.since
        + 10 * uS)) := by
  decide +kernel

theorem witness_CremaAndThermalModel_5 :
    ((a38.get F.THM_CP_STALE = 0) ∧ (a38.pwr.cpAt + 2 * uS ≤ max a38.now T)) ∧
    ((a39.get F.THM_CP_STALE = 0) ∧ (max a39.now T < a39.pwr.cpAt + 2 * uS)) ∧
    ((W.isOn domMGMT = true) ∧ (W.isOn domCREMA = true)) := by
  decide +kernel

end Sys2Proof.Tests.W18

namespace Sys2Proof.Tests.W19

open Sys2Proof Sys2Proof.Machine

set_option Elab.async false

def V : State := { W with regs := W.regs ++ [(R.CFG_HW_REV, 0#32)] }
def T : Nat := 8000000000000
def gi : Image := { answered := true, magic := 0x4E444C44, fmt := 1, nsec := 0, keySlot := 0xFF, imgVer := 7, compat := 0xFFFFFFFF, totalLen := 288, ifMinor := 0, ifMajor := V.get F.CFG_IF_VER_MAJOR, hcrcOk := true, hmacOk := true, sections := [] }
def st (f : StartSt → StartSt) (s : State) : State := s.setStart f
def rd : State := st (fun x => { x with reading := true }) V
def be : Image := { gi with nsec := 1, sections := [{ typ := 1, sver := 1, offset := 256, length := 0, crcOk := true, param := 0, entries := [⟨0xFFFFFFF0, 0, 0⟩], body := [], strings := [] }] }
def ld (i : Image) (f : StartSt → StartSt) : State := st (fun x => f { x with loading := some i }) V
def ce (l : List (Nat × Word)) : List CfgEntry := l.map fun x => ⟨x.1, x.2, 0xFFFFFFFF⟩
def gW (f : StartSt → StartSt) : State := st (fun x => f { x with loading := some gi }) W
def rn (s : State) : State := s.put F.CFG_STATUS_STATE 5
def S2 (s : State) : State := s.setSess 1 { s.sess 1 with level := 2 }
def tr (s : State) : State := (st (fun x => { x with slot := 1, boot := { gen := 4, prefer := 1, trial := true, tries := 2 } }) s).put F.CFG_STATUS_TRIAL 1
def dir (d : Nat) (a : Nat) (s : State) : State := (((s.put F.XSPI_CMD_FMT_DIR d).put F.XSPI_CMD_FMT_ADDR_LEN 2).put F.XSPI_CMD_ADDR_ADDR a).put F.XSPI_CMD_LEN_LEN 7
def S3 := S2 V
def op (u : Nat) : State := st (fun x => { x with opener := some 1, openLevel := 2, openUntil := u, blockEnd := some u, keyAt := some (u - 60 * uS), keyData := [(0, 5)] }) V
def a1 : State := st (fun x => { x with reload := true, slot := 1 }) rd
def a2 : State := st (fun x => { x with reload := true, slot := 1, failed := some 0 }) rd
def a3 : Option Image := some { gi with hmacOk := false }
def a4 : State := st (fun x => { x with slot := 1, failed := some 0 }) rd
def a5 : Image := { gi with answered := false }
def a6 : Image := { gi with magic := 0 }
def a7 : Image := { gi with nsec := 11 }
def a8 : Image := { gi with hcrcOk := false }
def a9 : Nat × CfgEntry := (1, ⟨0xFFFFFFF0, 0, 0⟩)
def a10 : State := ld be (fun x => { x with failed := some 1, reload := true })
def a11 : State := ld be (fun x => { x with failed := some 1 })
def a12 : State := { gW id with link := { W.link with begun := false } }
def a13 : State := { gW id with link := { W.link with begun := true } }
def a14 : State := { gW (fun x => { x with reload := true }) with link := { W.link with begun := true } }
def a15 : State := { gW (fun x => { x with ready := true, cold := true }) with link := { W.link with begun := false } }
def a16 : State := { gW (fun x => { x with ready := true, reload := true }) with link := { W.link with begun := true, cycle := 3 } }
def a17 : State := (rn (st (fun x => { x with runAt := some (T - 10 * uS)}) V)).put (F.CELL_CFG_IN_MAP 130) 1
def a18 : State := (rn (st (fun x => { x with runAt := some (T - 10 * uS + 1)}) V)).put (F.CELL_CFG_IN_MAP 130) 1
def a19 : State := (S2 V).put F.PWR_SUPPLY_VIN_A_OK 1
def a20 : List Byte := []
def a21 : State := dir 0 0x3800000 (S2 rd)
def a22 : State := dir 1 0x3800000 (S2 rd)
def a23 : State := dir 1 0x3800000 S3
def a24 : State := dir 0 0x3800000 S3
def a25 : State := (dir 0 0x3800000 S3).setWord (R.XSPI_DATA 1) 0x12345678
def a26 : List Byte := [1,2,3,4,5,6]
def a27 : State := V.setMgmt fun x => { x with monitor := true }
def a28 : State := st (fun x => { x with mgmtUp := false }) V
def a29 : State := st (fun x => { x with bootMon := true, lockAtBoot := true }) V
def a30 : State := (V.setSess 1 { V.sess 1 with level := 0 }).put F.ACC_POLICY_OP_WRITE 1
def a31 : State := V.put F.ACC_FIELD_LOCK_CLOSED 1
def a32 : State := S2 (st (fun x => { x with keys := [(3, some [])] }) V)

theorem witness_ImagesReadAndLoaded :
    ((V.works domVOTE = true) ∧ (V.start.reading = false)) ∧
    ((rd.works domVOTE = true) ∧ (rd.start.reading = true) ∧ ((rd.imageCause (some gi)).fst = 0)) ∧
    ((a1.works domVOTE = true) ∧ (a1.start.reading = true) ∧ ((a1.imageCause (some gi)).fst = 0)) ∧
    ((rd.works domVOTE = true) ∧ (rd.start.reading = true) ∧ ((rd.imageCause none).fst ≠ 0) ∧ (rd.start.failed = none)) ∧
    ((a1.works domVOTE = true) ∧ (a1.start.reading = true) ∧ ((a1.imageCause none).fst ≠ 0) ∧ (a1.start.failed = none)) ∧
    ((a2.works domVOTE = true) ∧ (a2.start.reading = true) ∧ ((a2.imageCause a3).fst ≠ 0) ∧
      (a2.start.failed.isSome = true) ∧ (a2.start.reload = true)) := by
  decide +kernel

theorem witness_ImagesReadAndLoaded_2 :
    ((a4.works domVOTE = true) ∧ (a4.start.reading = true) ∧ ((a4.imageCause a3).fst ≠ 0) ∧
      (a4.start.failed.isSome = true) ∧ (a4.start.reload = false)) ∧
    ((V.works domVOTE = true)) ∧
    ((V.works domVOTE = true) ∧ (a5.answered = false)) ∧
    ((V.works domVOTE = true) ∧ (a6.answered = true) ∧ (a6.magic ≠ 1313098820)) ∧
    ((V.works domVOTE = true) ∧ (a7.answered = true) ∧ (a7.magic = 1313098820) ∧ (a7.fmt ≠ 1 ∨ 10 < a7.nsec)) ∧
    ((V.works domVOTE = true) ∧ (a8.answered = true) ∧ (a8.magic = 1313098820) ∧ (a8.fmt = 1) ∧ (a8.nsec ≤ 10) ∧
      (a8.sections.length = a8.nsec) ∧ (a8.hcrcOk = false)) := by
  decide +kernel

theorem witness_ImagesReadAndLoaded_3 :
    ((V.works domVOTE = true) ∧ (V.start.loading = none)) ∧
    (((ld be id).works domVOTE = true) ∧ ((ld be id).start.loading = some be) ∧
      (List.find? (entryBad ((ld be id).advance T).blankCfg) be.entries = some a9) ∧ ((ld be id).start.failed = none)) ∧
    ((a10.works domVOTE = true) ∧ (a10.start.loading = some be) ∧
      (List.find? (entryBad (a10.advance T).blankCfg) be.entries = some a9) ∧ (a10.start.failed.isSome = true) ∧
      (a10.start.reload = true)) ∧
    ((a11.works domVOTE = true) ∧ (a11.start.loading = some be) ∧
      (List.find? (entryBad (a11.advance T).blankCfg) be.entries = some a9) ∧ (a11.start.failed.isSome = true) ∧
      (a11.start.reload = false)) ∧
    ((a12.works domVOTE = true) ∧ (a12.start.loading = some gi) ∧
      (List.find? (entryBad (a12.advance T).blankCfg) gi.entries = none) ∧
      ((List.foldl State.applyOne (a12.advance T).blankCfg (List.map toWrite gi.entries)).cfgCheck (fun x => true)
        (Option.map (fun x => x.param) (gi.sect 3)) = none) ∧ (a12.link.begun = false)) ∧
    ((a13.works domVOTE = true) ∧ (a13.start.loading = some gi) ∧
      (List.find? (entryBad (a13.advance T).blankCfg) gi.entries = none) ∧
      ((List.foldl State.applyOne (a13.advance T).blankCfg (List.map toWrite gi.entries)).cfgCheck (fun x => true)
        (Option.map (fun x => x.param) (gi.sect 3)) = none) ∧ (a13.link.begun = true)) := by
  decide +kernel

theorem witness_ImagesReadAndLoaded_4 :
    ((a14.works domVOTE = true) ∧ (a14.start.loading = some gi) ∧
      (List.find? (entryBad (a14.advance T).blankCfg) gi.entries = none) ∧
      ((List.foldl State.applyOne (a14.advance T).blankCfg (List.map toWrite gi.entries)).cfgCheck (fun x => true)
        (Option.map (fun x => x.param) (gi.sect 3)) = none) ∧ (a14.link.begun = true)) ∧
    ((a15.works domVOTE = true) ∧ (a15.start.loading = some gi) ∧ (a15.works domCLK = true) ∧
      (a15.start.ready = true) ∧ ((a15.advance T).cycleNow ≠ a15.link.lastBegun ∨ a15.link.begun = false)) ∧
    ((a16.works domVOTE = true) ∧ (a16.start.loading = some gi) ∧ (a16.works domCLK = true) ∧
      (a16.start.ready = true) ∧ ((a16.advance T).cycleNow ≠ a16.link.lastBegun ∨ a16.link.begun = false)) ∧
    (((rn V).works domVOTE = true) ∧ ((rn V).get F.CFG_STATUS_STATE = 5) ∧
      ((∀ (c : Nat), c < 1024 → (rn V).inMap c = true → 4 ≤ (rn V).cellState c) ∨ ∃ r, r ∈ (rn V).start.runAt ∧ r +
        10 * uS ≤ max (rn V).now T)) ∧
    ((a17.works domVOTE = true) ∧ (a17.get F.CFG_STATUS_STATE = 5) ∧
      ((∀ (c : Nat), c < 1024 → a17.inMap c = true → 4 ≤ a17.cellState c) ∨ ∃ r, r ∈ a17.start.runAt ∧ r + 10 * uS ≤
        max a17.now T)) ∧
    ((V.works domVOTE = true) ∧
      (V.get F.CFG_STATUS_STATE ≠ 5 ∨ (¬∀ (c : Nat), c < 1024 → V.inMap c = true → 4 ≤ V.cellState c) ∧ ¬∃ r, r ∈
        V.start.runAt ∧ r + 10 * uS ≤ max V.now T)) := by
  decide +kernel

theorem witness_ImagesReadAndLoaded_5 :
    ((a18.works domVOTE = true) ∧
      (a18.get F.CFG_STATUS_STATE ≠ 5 ∨ (¬∀ (c : Nat), c < 1024 → a18.inMap c = true → 4 ≤ a18.cellState c) ∧ ¬∃ r, r
        ∈ a18.start.runAt ∧ r + 10 * uS ≤ max a18.now T)) := by
  decide +kernel

theorem witness_CfgCommandsAndFlash :
    ((V.isOn domMGMT = true) ∧ (V.isOn domVOTE = true) ∧ (V.allows 1 R.CFG_CMD (0#32) (BitVec.allOnes 32) = true)) ∧
    ((V.isOn domMGMT = true) ∧ (V.isOn domVOTE = true) ∧ (V.allows 1 R.CFG_CMD (1#32) (BitVec.allOnes 32) = true) ∧
      (¬(V.start.boot.trial = true ∧ V.start.slot = V.start.boot.prefer)) ∧ ((V.imageCause (some gi)).fst = 0)) ∧
    ((V.isOn domMGMT = true) ∧ (V.isOn domVOTE = true) ∧ (V.allows 1 R.CFG_CMD (1#32) (BitVec.allOnes 32) = true) ∧
      (¬(V.start.boot.trial = true ∧ V.start.slot = V.start.boot.prefer)) ∧ ((V.imageCause none).fst ≠ 0)) ∧
    (((tr V).isOn domMGMT = true) ∧ ((tr V).isOn domVOTE = true) ∧
      ((tr V).allows 1 R.CFG_CMD (1#32) (BitVec.allOnes 32) = true) ∧
      ((tr V).start.boot.trial = true ∧ (tr V).start.slot = (tr V).start.boot.prefer)) ∧
    (((tr V).isOn domMGMT = true) ∧ ((tr V).isOn domVOTE = true) ∧
      ((tr V).allows 1 R.CFG_CMD (2#32) (BitVec.allOnes 32) = true) ∧
      ((tr V).start.boot.trial = true ∧ (tr V).start.slot = (tr V).start.boot.prefer)) ∧
    ((V.isOn domMGMT = true) ∧ (V.isOn domVOTE = true) ∧ (V.allows 1 R.CFG_CMD (2#32) (BitVec.allOnes 32) = true) ∧
      (¬(V.start.boot.trial = true ∧ V.start.slot = V.start.boot.prefer))) := by
  decide +kernel

theorem witness_CfgCommandsAndFlash_2 :
    ((V.isOn domMGMT = true) ∧ (V.isOn domVOTE = true) ∧
      (V.allows 1 R.CFG_CMD (BitVec.ofNat 32 (3 + 8 * 1)) (BitVec.allOnes 32) = true)) ∧
    ((V.isOn domMGMT = true) ∧ (V.isOn domVOTE = true) ∧
      (V.allows 1 R.CFG_CMD (BitVec.ofNat 32 (3 + 8 * 0)) (BitVec.allOnes 32) = true)) ∧
    ((rd.isOn domMGMT = true) ∧ (rd.isOn domVOTE = true) ∧ (rd.allows 1 R.CFG_CMD (4#32) (BitVec.allOnes 32) = true) ∧
      (rd.anyRunning = true ∨ rd.anyPour = true ∨ rd.start.reading = true ∨ rd.start.loading.isSome = true)) ∧
    (((tr V).isOn domMGMT = true) ∧ ((tr V).isOn domVOTE = true) ∧
      ((tr V).allows 1 R.CFG_CMD (4#32) (BitVec.allOnes 32) = true) ∧
      (¬((tr V).anyRunning = true ∨ (tr V).anyPour = true ∨ (tr V).start.reading = true ∨ (tr V).start.loading.isSome
        = true))) ∧
    (((tr V).isOn domMGMT = true) ∧ ((tr V).isOn domVOTE = true) ∧
      ((tr V).allows 1 R.CFG_CMD (5#32) (BitVec.allOnes 32) = true)) ∧
    ((a19.isOn domMGMT = true) ∧ (a19.isOn domVOTE = true) ∧
      (a19.allows 1 R.CFG_CMD (6#32) (BitVec.allOnes 32) = true) ∧ (a19.needLevel 1 2 = Status.ok) ∧
      (a19.supplied = true)) := by
  decide +kernel

theorem witness_CfgCommandsAndFlash_3 :
    ((V.isOn domMGMT = true) ∧ (V.isOn domVOTE = true) ∧ (V.allows 1 R.CFG_CMD (6#32) (BitVec.allOnes 32) = true) ∧
      (V.needLevel 1 2 = Status.accessDenied)) ∧
    (((dir 1 0 V).get F.XSPI_CMD_FMT_DIR = 1)) ∧
    (((dir 0 0 V).get F.XSPI_CMD_FMT_DIR = 0)) ∧
    (((dir 0 0 S3).isOn domMGMT = true) ∧ ((dir 0 0 S3).isOn domXSPI = true) ∧
      ((dir 0 0 S3).judgeWord 1 R.XSPI_CMD_GO 1 1 = Status.ok) ∧ ((dir 0 0 S3).xspiProt = true) ∧
      ((dir 0 0 S3).get F.XSPI_CMD_FMT_DIR = 0)) ∧
    (((dir 1 0 S3).isOn domMGMT = true) ∧ ((dir 1 0 S3).isOn domXSPI = true) ∧
      ((dir 1 0 S3).judgeWord 1 R.XSPI_CMD_GO 1 1 = Status.ok) ∧ ((dir 1 0 S3).xspiProt = true) ∧
      ((dir 1 0 S3).get F.XSPI_CMD_FMT_DIR = 1)) ∧
    ((a21.isOn domMGMT = true) ∧ (a21.isOn domXSPI = true) ∧ (a21.judgeWord 1 R.XSPI_CMD_GO 1 1 = Status.ok) ∧
      (a21.xspiProt = false) ∧ (a21.start.reading = true) ∧ (a21.get F.XSPI_CMD_FMT_DIR = 0)) := by
  decide +kernel

theorem witness_CfgCommandsAndFlash_4 :
    ((a22.isOn domMGMT = true) ∧ (a22.isOn domXSPI = true) ∧ (a22.judgeWord 1 R.XSPI_CMD_GO 1 1 = Status.ok) ∧
      (a22.xspiProt = false) ∧ (a22.start.reading = true) ∧ (a22.get F.XSPI_CMD_FMT_DIR = 1)) ∧
    ((a23.isOn domMGMT = true) ∧ (a23.isOn domXSPI = true) ∧ (a23.judgeWord 1 R.XSPI_CMD_GO 1 1 = Status.ok) ∧
      (a23.xspiProt = false) ∧ (a23.start.reading = false) ∧ (a23.get F.XSPI_CMD_FMT_DIR = 1)) ∧
    ((a24.isOn domMGMT = true) ∧ (a24.isOn domXSPI = true) ∧ (a24.judgeWord 1 R.XSPI_CMD_GO 1 1 = Status.ok) ∧
      (a24.xspiProt = false) ∧ (a24.start.reading = false) ∧ (a24.get F.XSPI_CMD_FMT_DIR = 0) ∧ (false = false)) ∧
    ((a25.isOn domMGMT = true) ∧ (a25.isOn domXSPI = true) ∧ (a25.judgeWord 1 R.XSPI_CMD_GO 1 1 = Status.ok) ∧
      (a25.xspiProt = false) ∧ (a25.start.reading = false) ∧ (a25.get F.XSPI_CMD_FMT_DIR = 0) ∧ (true = true)) ∧
    ((a27.works domMGMT = true) ∧ (a27.mgmt.monitor = true)) ∧
    ((V.works domMGMT = true) ∧ (V.mgmt.monitor = false)) := by
  decide +kernel

theorem witness_FirmwareStartAndFieldAccess :
    ((a28.works domMGMT = true) ∧ (a28.start.mgmtUp = false)) ∧
    ((V.works domMGMT = true) ∧ (V.start.mgmtUp = true) ∧ (V.start.boot.fwPrefer ≤ 1)) ∧
    ((a29.works domMGMT = true) ∧ (a29.start.mgmtUp = true) ∧ (a29.start.boot.fwPrefer ≤ 1)) ∧
    ((V.isOn domMGMT = true) ∧ (V.allows 1 R.ACC_FIELD_LOCK 2 2 = true) ∧ (V.needLevel 1 1 = Status.ok)) ∧
    ((a30.isOn domMGMT = true) ∧ (a30.needLevel 1 1 ≠ Status.ok)) ∧
    (((op T).start.opener.isSome = true) ∧ ((op T).start.openUntil ≤ max (op T).now T)) := by
  decide +kernel

theorem witness_FirmwareStartAndFieldAccess_2 :
    ((V.start.opener = none ∨ max V.now T < V.start.openUntil)) ∧
    (((op T).start.blockEnd = some T) ∧ (T ≤ max (op T).now T)) ∧
    (((op (T + 1)).start.blockEnd = some (T + 1)) ∧ (max (op (T + 1)).now T < T + 1)) ∧
    ((V.start.blockEnd = none)) ∧
    (((op T).start.keyAt = some (T - 60 * uS)) ∧ (T - 60 * uS + 60 * uS ≤ max (op T).now T)) ∧
    (((op (T + 1)).start.keyAt = some (T + 1 - 60 * uS)) ∧ (max (op (T + 1)).now T < T + 1 - 60 * uS + 60 * uS)) := by
  decide +kernel

theorem witness_FirmwareStartAndFieldAccess_3 :
    ((V.start.keyAt = none)) ∧
    (((S2 (op T)).isOn domMGMT = true) ∧ ((S2 (op T)).judgeWord 1 (R.ACC_KEY_DATA 3) 305419896 16711935 = Status.ok)) ∧
    ((a31.isOn domMGMT = true) ∧ (a31.judgeWord 1 (R.ACC_KEY_DATA 3) 5 255 = Status.locked)) ∧
    (((S2 (op T)).isOn domMGMT = true) ∧ ((S2 (op T)).allows 1 R.ACC_KEY_SEL (BitVec.ofNat 32 (3 + 4)) 7 = true) ∧
      ((S2 (op T)).needLevel 1 2 = Status.ok) ∧ ((S2 (op T)).start.keys.get 3 = none)) ∧
    ((a32.isOn domMGMT = true) ∧ (a32.allows 1 R.ACC_KEY_SEL (BitVec.ofNat 32 (3 + 4)) 7 = true) ∧
      (a32.needLevel 1 2 = Status.ok) ∧ ((a32.start.keys.get 3).isSome = true)) ∧
    ((V.isOn domMGMT = true) ∧ (V.allows 1 R.ACC_KEY_SEL (BitVec.ofNat 32 (3 + 4)) 7 = true) ∧
      (V.needLevel 1 2 = Status.accessDenied)) := by
  decide +kernel

end Sys2Proof.Tests.W19

namespace Sys2Proof.Tests.W20

open Sys2Proof Sys2Proof.Machine

set_option Elab.async false

def T : Nat := 8000000000000
def hd (i2c : Bool) : MHead := { i2c := i2c, bind := 9, session := 1, tag := 5, seq := 8 }
def ss (i2c : Bool) (f : Session → Session) (s : State) : State := s.setSess 1 (f { s.sess 1 with port := b2n i2c, bind := 9, seq := 7, lastAt := 5, idle := 600, level := 2 })
def mo (s : State) : State := s.setStart fun x => { x with mgmtUp := false }
def I : State := mo (ss true id W)
def U : State := (((mo (ss false id W)).put F.MGMT_CFG_UDP_EN 1).setWord R.MGMT_NET_IP 7)
def ob (off lvl mn idle : Nat) : List Byte := leBytes 1 off ++ leBytes 1 lvl ++ leBytes 2 mn ++ leBytes 2 idle ++ leBytes 8 77
def fullS : State := (List.range 8).foldl (fun s n => s.setSess n { s.sess n with active := true }) I
def rp : Reply := { ver := 2, op := 3, session := 1, status := .ok, tag := 4, seq := 5, more := true, body := [1,2] }
def ad (r : Reg) : Nat := addrOf r
def wb (a : Nat) : List Byte := leBytes 4 a ++ leBytes 4 5 ++ leBytes 4 0xFF
def bz : State := I.setCells fun x => { x with asks := [.writes (hd true) 0 [] noEnv] }
def rb (a n : Nat) : List Byte := leBytes 4 a ++ leBytes 2 n
def ef (q c lo hi : Nat) : List Byte := leBytes 8 q ++ leBytes 1 c ++ leBytes 1 0 ++ leBytes 2 lo ++ leBytes 2 hi
def le : LogEntry := { seq := 5, time := 6, code := 0x101, dom := 3, flags := 1, inst := 2, data := [.w 3] }
def L : State := I.setLog fun l => { l with mram := [(5, some le)], seq := 9 }
def qb (m k f u : Nat) : List Byte := leBytes 2 m ++ leBytes 1 k ++ leBytes 1 0 ++ leBytes 8 f ++ leBytes 8 u ++ leBytes 4 0
def rr : CRec := { stream := 3, typ := 0, flags := 0, seq := 8, time := 5, count := 1, payload := [1,2,3], units := [4], pair := 0, pseg := 1 }
def mnt (s : State) : State := ((((s.put F.REC_STATUS_STATE 2).put (F.REC_PAIR_STAT_STATE 0) 1).put (F.REC_DRV_STAT_STATE 0) 2).put (F.REC_DRV_STAT_STATE 2) 2 |>.setRec fun c => { c with nseg := 100, stored := [rr] }).put64 (R.REC_STRM_FRONT_LO 3) (R.REC_STRM_FRONT_HI 3) 8
def qc (m c : Nat) : List Byte := leBytes 2 m ++ leBytes 1 2 ++ leBytes 1 0 ++ leBytes 8 0 ++ leBytes 8 0 ++ leBytes 4 c
def cd : CapDone := { id := 7, segs := [(0, 3)], recs := [(0, { rr with stream := 0x103 }), (64, { rr with stream := 0x104 })] }
def cr : CRec := cd.place 0 { rr with stream := 0x103 }
def cdn : State := (mnt I).setRec fun c => { c with capDone := [cd] }
def fb (m q o l : Nat) : List Byte := leBytes 2 m ++ leBytes 4 0 ++ leBytes 8 q ++ leBytes 4 o ++ leBytes 2 l
def pw (s : State) : State := ((s.put F.ACC_POLICY_PW_EN 1).put F.ACC_POLICY_KEY_EN 1).setStart fun x => { x with verifier := [(2, some ([1], [2]))], keys := [(3, some [7])] }
def no (m : Nat) (s : State) : State := ss true (fun x => { x with nonce := some ⟨[1], 2, m, 1, 5⟩ }) (pw s)
def d32 : List Byte := 32 :: List.replicate 32 0
def keyed : State := no 1 { I with now := 9 }
def mac : List Byte := leBytes 32 (Config.hmacSha256 [7] ([1] ++ leBytes 8 (keyed.get64 R.DEV_SERIAL_LO R.DEV_SERIAL_HI) ++ leBytes 1 2 ++ leBytes 1 1)).toNat
def a1 : List Byte := []
def a2 : List Byte := [1,2,3]
def a3 : State := (I.setMgmt fun x => { x with badFrames := 65535 }).setLog fun l => { l with badFrameAt := some T }
def a4 : State := fullS.setSess 3 {}
def a5 : List Byte := ob 2 1 3 600
def a6 : List Byte := ob 2 1 65535 10
def a7 : State := U.setMgmt fun x => { x with monitor := true }
def a8 : List Byte := ob 6 1 65535 10
def a9 : State := (U.put F.ACC_FIELD_LOCK_CLOSED 1)
def a10 : List Byte := ob 6 1 0 10
def a11 : State := I.setStart fun x => { x with opener := some 1, keyAt := some 4, keySess := 1 }
def a12 : State := ss true (fun x => { x with pour := some 3 }) I
def a13 : State := ss true (fun x => { x with lastAt := T }) W
def a14 : Nat := 600 * uS + 5
def a15 : State := ss true id { W with now := 0, mgmt := { W.mgmt with i2cReply := some rp } }
def a16 : State := ss true id { W with now := 0 }
def a17 : State := W.setMgmt fun x => { x with i2cReply := some rp }
def a18 : State := W.put (F.PWR_STATE domMGMT) 0
def a19 : MHead := { hd true with session := 9 }
def a20 : MHead := { hd true with session := 2 }
def a21 : MHead := { hd true with bind := 2 }
def a22 : State := ss true (fun x => { x with reply := some rp }) I
def a23 : MHead := { hd true with seq := 7 }
def a24 : MHead := { hd true with seq := 10 }
def a25 : List Byte := [1]
def a26 : List Byte := leBytes 4 0xFFFFFFF0
def a27 : List Byte := leBytes 4 (ad R.DEV_FW_VER)
def a28 : Nat := ad R.DEV_FW_VER
def a29 : List Byte := leBytes 4 (ad (R.CELL_STATE 5)) ++ leBytes 4 3
def a30 : List Byte := wb 0x10000000
def a31 : List Byte := wb 0x10000001
def a32 : List Byte := wb (ad (R.CELL_CMD 5))
def a33 : Nat := (ad (R.CELL_CMD 5))
def a34 : List Byte := List.replicate 300 0
def a35 : MHead := { hd true with seq := 8 }
def a36 : MHead := { hd true with seq := 9 }
def a37 : List Byte := wb 0xFFFFFFF0
def a38 : List Byte := wb (ad R.POUR_CFG)
def a39 : Nat := (ad R.POUR_CFG)
def a40 : List Byte := wb (ad R.WEAR_POLICY)
def a41 : Nat := (ad R.WEAR_POLICY)
def a42 : List Byte := wb 0xFFFFFFF0 ++ wb 0
def a43 : List Byte := rb 0x10000011 8
def a44 : List Byte := rb 0xFFFFFFF0 8
def a45 : List Byte := rb (ad R.DEV_FW_VER) 4
def a46 : Nat := (ad R.DEV_FW_VER)
def a47 : State := U.setSess 1 { U.sess 1 with level := 1 }
def a48 : List Byte := rb 0x10000010 8
def a49 : List Byte := rb 0x13102010 8
def a50 : List Byte := ef 0 3 0 65535
def a51 : List LogEntry := []
def a52 : State := ss true (fun x => { x with major := 1 }) I
def a53 : State := I.put (F.PWR_STATE domREC) 0
def a54 : State := (mnt I).put (F.PWR_STATE domREC) 0
def a55 : List Byte := fb 3 8 0 20
def a56 : List Byte := fb 3 8 20 200
def a57 : State := (mnt I).put (F.REC_PAIR_STAT_STATE 0) 4
def a58 : State := (mnt I).put64 (R.REC_STRM_FRONT_LO 3) (R.REC_STRM_FRONT_HI 3) 7
def a59 : List Byte := ef 2 3 0 65535
def a60 : List Byte := leBytes 2 0x103 ++ leBytes 4 7 ++ leBytes 8 8 ++ leBytes 4 3 ++ leBytes 2 20
def a61 : State := I.setStart fun x => { x with blockEnd := some 4 }
def a62 : List Byte := [1, 0, 0]
def a63 : State := I.setStart fun x => { x with opener := some 4 }
def a64 : List Byte := [2, 0, 0]
def a65 : List Byte := [1, 1, 1]
def a66 : Nonce := ⟨[1], 2, 1, 1, 5⟩
def a67 : State := no 1 (I.setStart fun x => { x with opener := some 4 })
def a68 : Nat := 60 * uS + 5
def a69 : List Byte := 32#8 :: mac
def a70 : Nat := 60 * uS + 6
def a71 : State := no 1 { I with now := 9 }
def a72 : State := (no 0 I).put F.ACC_POLICY_MAX_FAIL 1
def a73 : Nonce := ⟨[1], 2, 0, 1, 5⟩

theorem witness_SessionsAndFrames :
    ((W.served true = false ∨ frameGood true a1 = true)) ∧
    ((I.served true = true) ∧ (frameGood true a2 = false)) ∧
    ((a3.served true = true) ∧ (frameGood true a2 = false)) ∧
    (((mo W).served (hd false).i2c = false)) ∧
    ((U.served (hd false).i2c = true) ∧ (a1.length ≠ 14) ∧ (a1.length ≤ maxBody (hd false).i2c)) ∧
    ((U.served (hd false).i2c = true) ∧ ((ob 8 0 0 0).length = 14) ∧
      (¬(((byteAt (ob 8 0 0 0) 0).testBit 1 = true ∨ (byteAt (ob 8 0 0 0) 0).testBit 2 = true ∧ U.mgmt.monitor =
        false) ∧ ¬(3 < leAt (ob 8 0 0 0) 2 2 ∧ ((byteAt (ob 8 0 0 0) 0).testBit 2 = true ∧ U.mgmt.monitor = false ∨
        (byteAt (ob 8 0 0 0) 0).testBit 2 = false))))) := by
  decide +kernel

theorem witness_SessionsAndFrames_2 :
    ((U.served (hd false).i2c = true) ∧ ((ob 6 0 4 0).length = 14) ∧
      (¬(((byteAt (ob 6 0 4 0) 0).testBit 1 = true ∨ (byteAt (ob 6 0 4 0) 0).testBit 2 = true ∧ U.mgmt.monitor =
        false) ∧ ¬(3 < leAt (ob 6 0 4 0) 2 2 ∧ ((byteAt (ob 6 0 4 0) 0).testBit 2 = true ∧ U.mgmt.monitor = false ∨
        (byteAt (ob 6 0 4 0) 0).testBit 2 = false))))) ∧
    ((fullS.served (hd true).i2c = true) ∧ ((ob 6 0 3 0).length = 14) ∧
      (((byteAt (ob 6 0 3 0) 0).testBit 1 = true ∨ (byteAt (ob 6 0 3 0) 0).testBit 2 = true ∧ fullS.mgmt.monitor =
        false) ∧ ¬(3 < leAt (ob 6 0 3 0) 2 2 ∧ ((byteAt (ob 6 0 3 0) 0).testBit 2 = true ∧ fullS.mgmt.monitor = false
        ∨ (byteAt (ob 6 0 3 0) 0).testBit 2 = false))) ∧ (∀ (n : Nat), n < 8 → (fullS.sess n).active = true)) ∧
    ((a4.served (hd true).i2c = true) ∧ ((ob 6 3 3 0).length = 14) ∧ (3 < 8) ∧
      (((byteAt (ob 6 3 3 0) 0).testBit 1 = true ∨ (byteAt (ob 6 3 3 0) 0).testBit 2 = true ∧ a4.mgmt.monitor =
        false) ∧ ¬(3 < leAt (ob 6 3 3 0) 2 2 ∧ ((byteAt (ob 6 3 3 0) 0).testBit 2 = true ∧ a4.mgmt.monitor = false ∨
        (byteAt (ob 6 3 3 0) 0).testBit 2 = false))) ∧ ((a4.sess 3).active = false) ∧
      (∀ (k : Nat), k < 3 → (a4.sess k).active = true) ∧
      (¬(byteAt (ob 6 3 3 0) 1 ≤ 2 ∧ (leAt (ob 6 3 3 0) 4 2 = 0 ∨ 10 ≤ leAt (ob 6 3 3 0) 4 2 ∧ leAt (ob 6 3 3 0) 4 2
        ≤ 600)))) ∧
    ((a4.served (hd true).i2c = true) ∧ ((ob 6 2 3 0).length = 14) ∧ (3 < 8) ∧
      (((byteAt (ob 6 2 3 0) 0).testBit 1 = true ∨ (byteAt (ob 6 2 3 0) 0).testBit 2 = true ∧ a4.mgmt.monitor =
        false) ∧ ¬(3 < leAt (ob 6 2 3 0) 2 2 ∧ ((byteAt (ob 6 2 3 0) 0).testBit 2 = true ∧ a4.mgmt.monitor = false ∨
        (byteAt (ob 6 2 3 0) 0).testBit 2 = false))) ∧ ((a4.sess 3).active = false) ∧
      (∀ (k : Nat), k < 3 → (a4.sess k).active = true) ∧
      (byteAt (ob 6 2 3 0) 1 ≤ 2 ∧ (leAt (ob 6 2 3 0) 4 2 = 0 ∨ 10 ≤ leAt (ob 6 2 3 0) 4 2 ∧ leAt (ob 6 2 3 0) 4 2 ≤
        600))) ∧
    ((U.served (hd false).i2c = true) ∧ (a5.length = 14) ∧ (0 < 8) ∧
      (((byteAt a5 0).testBit 1 = true ∨ (byteAt a5 0).testBit 2 = true ∧ U.mgmt.monitor = false) ∧ ¬(3 < leAt a5 2 2
        ∧ ((byteAt a5 0).testBit 2 = true ∧ U.mgmt.monitor = false ∨ (byteAt a5 0).testBit 2 = false))) ∧
      ((U.sess 0).active = false) ∧ (∀ (k : Nat), k < 0 → (U.sess k).active = true) ∧
      (byteAt a5 1 ≤ 2 ∧ (leAt a5 4 2 = 0 ∨ 10 ≤ leAt a5 4 2 ∧ leAt a5 4 2 ≤ 600))) ∧
    ((U.served (hd false).i2c = true) ∧ (a6.length = 14) ∧
      (¬(((byteAt a6 0).testBit 1 = true ∨ (byteAt a6 0).testBit 2 = true ∧ U.mgmt.monitor = false) ∧ ¬(3 < leAt a6 2
        2 ∧ ((byteAt a6 0).testBit 2 = true ∧ U.mgmt.monitor = false ∨ (byteAt a6 0).testBit 2 = false))))) := by
  and_intros
  all_goals first
    | decide +kernel
    | exact all_some (by decide +kernel)
    | exact not_all_some (by decide +kernel)
    | exact ex_some (by decide +kernel)
    | (intro j k; exact nofun)

theorem witness_SessionsAndFrames_3 :
    ((a7.served (hd false).i2c = true) ∧ (a8.length = 14) ∧ (0 < 8) ∧
      (((byteAt a8 0).testBit 1 = true ∨ (byteAt a8 0).testBit 2 = true ∧ a7.mgmt.monitor = false) ∧ ¬(3 < leAt a8 2
        2 ∧ ((byteAt a8 0).testBit 2 = true ∧ a7.mgmt.monitor = false ∨ (byteAt a8 0).testBit 2 = false))) ∧
      ((a7.sess 0).active = false) ∧ (∀ (k : Nat), k < 0 → (a7.sess k).active = true) ∧
      (byteAt a8 1 ≤ 2 ∧ (leAt a8 4 2 = 0 ∨ 10 ≤ leAt a8 4 2 ∧ leAt a8 4 2 ≤ 600))) ∧
    ((a9.served (hd false).i2c = true) ∧ (a10.length = 14) ∧ (0 < 8) ∧
      (((byteAt a10 0).testBit 1 = true ∨ (byteAt a10 0).testBit 2 = true ∧ a9.mgmt.monitor = false) ∧ ¬(3 < leAt a10
        2 2 ∧ ((byteAt a10 0).testBit 2 = true ∧ a9.mgmt.monitor = false ∨ (byteAt a10 0).testBit 2 = false))) ∧
      ((a9.sess 0).active = false) ∧ (∀ (k : Nat), k < 0 → (a9.sess k).active = true) ∧
      (byteAt a10 1 ≤ 2 ∧ (leAt a10 4 2 = 0 ∨ 10 ≤ leAt a10 4 2 ∧ leAt a10 4 2 ≤ 600))) ∧
    ((a11.fresh (hd true) []) ∧ ((a11.sess (hd true).session).pour = none)) ∧
    ((I.fresh (hd true) [])) ∧
    ((a12.fresh (hd true) [])) ∧
    ((a13.works domMGMT = true) ∧
      (¬((a13.sess 1).active = true ∧ (a13.sess 1).lastAt + (a13.sess 1).idle * uS ≤ max a13.now T))) := by
  and_intros
  all_goals first
    | decide +kernel
    | exact all_some (by decide +kernel)
    | exact not_all_some (by decide +kernel)
    | exact ex_some (by decide +kernel)
    | (intro j k; exact nofun)

theorem witness_SessionsAndFrames_4 :
    ((a15.works domMGMT = true) ∧
      ((a15.sess 1).active = true ∧ (a15.sess 1).lastAt + (a15.sess 1).idle * uS ≤ max a15.now a14) ∧
      ((a15.sess 1).pour = none)) ∧
    ((a16.works domMGMT = true) ∧
      ((a16.sess 1).active = true ∧ (a16.sess 1).lastAt + (a16.sess 1).idle * uS ≤ max a16.now a14)) ∧
    ((W.works domMGMT = true)) ∧
    ((a17.works domMGMT = true)) ∧
    ((a18.works domMGMT = false)) := by
  decide +kernel

theorem witness_RequestsReadAndWrite :
    (((16, Instr.mgmtRead T (hd true) []) ∈ [(16, Instr.mgmtRead T (hd true) a1), (17, Instr.mgmtWrite T (hd true) a1
        noEnv), (18, Instr.readBlock T (hd true) a1), (48, Instr.eventFetch T (hd true) a1), (64, Instr.recordQuery T
        (hd true) a1), (65, Instr.recordFetch T (hd true) a1 { fail := 0, hard := 0 : ReadFail }), (80,
        Instr.challenge T (hd true) a1), (81, Instr.response T (hd true) a1)]) ∧ (W.served (hd true).i2c = false)) ∧
    ((
        (65,
            Instr.recordFetch T
              (let __src := hd true;
              { i2c := __src.i2c, bind := __src.bind, session := 9, tag := __src.tag, seq := __src.seq : MHead })
              [] { fail := 0, hard := 0 : ReadFail }) ∈
          [(16, Instr.mgmtRead T a19 a1), (17, Instr.mgmtWrite T a19 a1 noEnv), (18, Instr.readBlock T a19 a1), (48, Instr.eventFetch T a19 a1), (64, Instr.recordQuery T a19 a1), (65, Instr.recordFetch T a19 a1 { fail := 0, hard := 0 : ReadFail }), (80, Instr.challenge T a19 a1), (81, Instr.response T a19 a1)]) ∧
      (I.served a19.i2c = true) ∧ (a1.length ≤ maxBody a19.i2c) ∧
      (8 ≤ a19.session ∨ (I.sess a19.session).active = false)) ∧
    ((
        (17,
            Instr.mgmtWrite T
              (let __src := hd true;
              { i2c := __src.i2c, bind := __src.bind, session := 2, tag := __src.tag, seq := __src.seq : MHead })
              [] noEnv) ∈
          [(16, Instr.mgmtRead T a20 a1), (17, Instr.mgmtWrite T a20 a1 noEnv), (18, Instr.readBlock T a20 a1), (48, Instr.eventFetch T a20 a1), (64, Instr.recordQuery T a20 a1), (65, Instr.recordFetch T a20 a1 { fail := 0, hard := 0 : ReadFail }), (80, Instr.challenge T a20 a1), (81, Instr.response T a20 a1)]) ∧
      (I.served a20.i2c = true) ∧ (a1.length ≤ maxBody a20.i2c) ∧
      (8 ≤ a20.session ∨ (I.sess a20.session).active = false)) ∧
    ((
        (18,
            Instr.readBlock T
              (let __src := hd true;
              { i2c := __src.i2c, bind := 2, session := __src.session, tag := __src.tag, seq := __src.seq : MHead })
              []) ∈
          [(16, Instr.mgmtRead T a21 a1), (17, Instr.mgmtWrite T a21 a1 noEnv), (18, Instr.readBlock T a21 a1), (48, Instr.eventFetch T a21 a1), (64, Instr.recordQuery T a21 a1), (65, Instr.recordFetch T a21 a1 { fail := 0, hard := 0 : ReadFail }), (80, Instr.challenge T a21 a1), (81, Instr.response T a21 a1)]) ∧
      (I.served a21.i2c = true) ∧ (a1.length ≤ maxBody a21.i2c) ∧ (a21.session < 8) ∧
      ((I.sess a21.session).active = true) ∧
      ((I.sess a21.session).port ≠ b2n a21.i2c ∨ (I.sess a21.session).bind ≠ a21.bind)) ∧
    ((
        (48,
            Instr.eventFetch T
              (let __src := hd true;
              { i2c := __src.i2c, bind := __src.bind, session := __src.session, tag := __src.tag, seq := 7 : MHead })
              []) ∈
          [(16, Instr.mgmtRead T a23 a1), (17, Instr.mgmtWrite T a23 a1 noEnv), (18, Instr.readBlock T a23 a1), (48, Instr.eventFetch T a23 a1), (64, Instr.recordQuery T a23 a1), (65, Instr.recordFetch T a23 a1 { fail := 0, hard := 0 : ReadFail }), (80, Instr.challenge T a23 a1), (81, Instr.response T a23 a1)]) ∧
      (a22.served a23.i2c = true) ∧ (a1.length ≤ maxBody a23.i2c) ∧ (a23.session < 8) ∧
      ((a22.sess a23.session).active = true) ∧ ((a22.sess a23.session).port = b2n a23.i2c) ∧
      ((a22.sess a23.session).bind = a23.bind) ∧ (a22.busySess a23.session = false) ∧
      (a23.seq = (a22.sess a23.session).seq) ∧ ((a22.sess a23.session).reply = some rp)) ∧
    ((
        (64,
            Instr.recordQuery T
              (let __src := hd true;
              { i2c := __src.i2c, bind := __src.bind, session := __src.session, tag := __src.tag, seq := 7 : MHead })
              []) ∈
          [(16, Instr.mgmtRead T a23 a1), (17, Instr.mgmtWrite T a23 a1 noEnv), (18, Instr.readBlock T a23 a1), (48, Instr.eventFetch T a23 a1), (64, Instr.recordQuery T a23 a1), (65, Instr.recordFetch T a23 a1 { fail := 0, hard := 0 : ReadFail }), (80, Instr.challenge T a23 a1), (81, Instr.response T a23 a1)]) ∧
      (I.served a23.i2c = true) ∧ (a1.length ≤ maxBody a23.i2c) ∧ (a23.session < 8) ∧
      ((I.sess a23.session).active = true) ∧ ((I.sess a23.session).port = b2n a23.i2c) ∧
      ((I.sess a23.session).bind = a23.bind) ∧ (I.busySess a23.session = false) ∧
      (a23.seq ≠ ((I.sess a23.session).seq + 1) % 2 ^ 32) ∧
      ((I.sess a23.session).reply = none ∨ a23.seq ≠ (I.sess a23.session).seq)) := by
  and_intros
  all_goals first
    | decide +kernel
    | exact all_some (by decide +kernel)
    | exact not_all_some (by decide +kernel)
    | exact ex_some (by decide +kernel)
    | (intro j k; exact nofun)

theorem witness_RequestsReadAndWrite_2 :
    ((
        (81,
            Instr.response T
              (let __src := hd true;
              { i2c := __src.i2c, bind := __src.bind, session := __src.session, tag := __src.tag, seq := 10 : MHead })
              []) ∈
          [(16, Instr.mgmtRead T a24 a1), (17, Instr.mgmtWrite T a24 a1 noEnv), (18, Instr.readBlock T a24 a1), (48, Instr.eventFetch T a24 a1), (64, Instr.recordQuery T a24 a1), (65, Instr.recordFetch T a24 a1 { fail := 0, hard := 0 : ReadFail }), (80, Instr.challenge T a24 a1), (81, Instr.response T a24 a1)]) ∧
      (a22.served a24.i2c = true) ∧ (a1.length ≤ maxBody a24.i2c) ∧ (a24.session < 8) ∧
      ((a22.sess a24.session).active = true) ∧ ((a22.sess a24.session).port = b2n a24.i2c) ∧
      ((a22.sess a24.session).bind = a24.bind) ∧ (a22.busySess a24.session = false) ∧
      (a24.seq ≠ ((a22.sess a24.session).seq + 1) % 2 ^ 32) ∧
      ((a22.sess a24.session).reply = none ∨ a24.seq ≠ (a22.sess a24.session).seq)) ∧
    ((I.fresh (hd true) a25) ∧ (a25.length % 4 ≠ 0 ∨ a25.length = 0 ∨ 32 * 4 < a25.length)) ∧
    ((U.fresh (hd false) a1) ∧ (a1.length % 4 ≠ 0 ∨ a1.length = 0 ∨ 32 * 4 < a1.length)) ∧
    ((4294967280 < 2 ^ 32) ∧ (U.fresh (hd false) a26) ∧ (a26 = leBytes 4 4294967280) ∧
      (¬(decodeAddr 4294967280).isSome = true)) ∧
    ((a28 < 2 ^ 32) ∧ (U.fresh (hd false) a27) ∧ (a27 = leBytes 4 a28)) ∧
    ((U.fresh (hd false) a29) ∧ (a29.length = 4 * 2) ∧ (1 ≤ 2) ∧ (2 ≤ 32)) := by
  and_intros
  all_goals first
    | decide +kernel
    | exact all_some (by decide +kernel)
    | exact not_all_some (by decide +kernel)
    | exact ex_some (by decide +kernel)
    | (intro j k; exact nofun)

theorem witness_RequestsReadAndWrite_3 :
    ((U.fresh (hd false) a1) ∧ (a1.length % 12 ≠ 0 ∨ a1.length = 0 ∨ 32 * 12 < a1.length)) ∧
    ((268435456 < 2 ^ 32) ∧ (U.fresh (hd false) a30) ∧
      (a30 = leBytes 4 268435456 ++ leBytes 4 5 ++ leBytes 4 255 ++ a1) ∧ (a1.length % 12 = 0) ∧
      (a30.length ≤ 32 * 12) ∧ ((windowOf 268435456).isSome = true) ∧ (268435456 % 4 = 0)) ∧
    ((268435457 < 2 ^ 32) ∧ (U.fresh (hd false) a31) ∧
      (a31 = leBytes 4 268435457 ++ leBytes 4 5 ++ leBytes 4 255 ++ a1) ∧ (a1.length % 12 = 0) ∧
      (a31.length ≤ 32 * 12) ∧ (windowOf 268435457 = none ∨ 268435457 % 4 ≠ 0) ∧
      (¬(decodeAddr 268435457).isSome = true)) ∧
    ((a33 < 2 ^ 32) ∧ (U.fresh (hd false) a32) ∧ (a32 = leBytes 4 a33 ++ leBytes 4 5 ++ leBytes 4 255 ++ a1) ∧
      (a1.length % 12 = 0) ∧ (a32.length ≤ 32 * 12) ∧
      ((((U.advance T).asked (hd false)).writeAny (hd false).session a33 5 255 noEnv).fst = Status.waits)) ∧
    (((16, Instr.mgmtRead T (hd true) (List.replicate 300 0)) ∈ [(16, Instr.mgmtRead T (hd true) a34), (17,
        Instr.mgmtWrite T (hd true) a34 noEnv), (18, Instr.readBlock T (hd true) a34), (48, Instr.eventFetch T (hd
        true) a34), (64, Instr.recordQuery T (hd true) a34), (65, Instr.recordFetch T (hd true) a34
        { fail := 0, hard := 0 : ReadFail }), (80, Instr.challenge T (hd true) a34), (81, Instr.response T (hd true)
        a34)]) ∧ (I.served (hd true).i2c = true) ∧ (maxBody (hd true).i2c < a34.length)) ∧
    ((
        (64,
            Instr.recordQuery T
              (let __src := hd true;
              { i2c := __src.i2c, bind := __src.bind, session := __src.session, tag := __src.tag, seq := 7 : MHead })
              []) ∈
          [(16, Instr.mgmtRead T a23 a1), (17, Instr.mgmtWrite T a23 a1 noEnv), (18, Instr.readBlock T a23 a1), (48, Instr.eventFetch T a23 a1), (64, Instr.recordQuery T a23 a1), (65, Instr.recordFetch T a23 a1 { fail := 0, hard := 0 : ReadFail }), (80, Instr.challenge T a23 a1), (81, Instr.response T a23 a1)]) ∧
      (bz.served a23.i2c = true) ∧ (a1.length ≤ maxBody a23.i2c) ∧ (a23.session < 8) ∧
      ((bz.sess a23.session).active = true) ∧ ((bz.sess a23.session).port = b2n a23.i2c) ∧
      ((bz.sess a23.session).bind = a23.bind) ∧ (bz.busySess a23.session = true) ∧
      (a23.seq = (bz.sess a23.session).seq)) := by
  and_intros
  all_goals first
    | decide +kernel
    | exact all_some (by decide +kernel)
    | exact not_all_some (by decide +kernel)
    | exact ex_some (by decide +kernel)
    | (intro j k; exact nofun)

theorem witness_RequestsReadAndWrite_4 :
    ((
        (64,
            Instr.recordQuery T
              (let __src := hd true;
              { i2c := __src.i2c, bind := __src.bind, session := __src.session, tag := __src.tag, seq := 8 : MHead })
              []) ∈
          [(16, Instr.mgmtRead T a35 a1), (17, Instr.mgmtWrite T a35 a1 noEnv), (18, Instr.readBlock T a35 a1), (48, Instr.eventFetch T a35 a1), (64, Instr.recordQuery T a35 a1), (65, Instr.recordFetch T a35 a1 { fail := 0, hard := 0 : ReadFail }), (80, Instr.challenge T a35 a1), (81, Instr.response T a35 a1)]) ∧
      (bz.served a35.i2c = true) ∧ (a1.length ≤ maxBody a35.i2c) ∧ (a35.session < 8) ∧
      ((bz.sess a35.session).active = true) ∧ ((bz.sess a35.session).port = b2n a35.i2c) ∧
      ((bz.sess a35.session).bind = a35.bind) ∧ (bz.busySess a35.session = true) ∧
      (a35.seq ≠ (bz.sess a35.session).seq)) ∧
    ((
        (64,
            Instr.recordQuery T
              (let __src := hd true;
              { i2c := __src.i2c, bind := __src.bind, session := __src.session, tag := __src.tag, seq := 9 : MHead })
              []) ∈
          [(16, Instr.mgmtRead T a36 a1), (17, Instr.mgmtWrite T a36 a1 noEnv), (18, Instr.readBlock T a36 a1), (48, Instr.eventFetch T a36 a1), (64, Instr.recordQuery T a36 a1), (65, Instr.recordFetch T a36 a1 { fail := 0, hard := 0 : ReadFail }), (80, Instr.challenge T a36 a1), (81, Instr.response T a36 a1)]) ∧
      (bz.served a36.i2c = true) ∧ (a1.length ≤ maxBody a36.i2c) ∧ (a36.session < 8) ∧
      ((bz.sess a36.session).active = true) ∧ ((bz.sess a36.session).port = b2n a36.i2c) ∧
      ((bz.sess a36.session).bind = a36.bind) ∧ (bz.busySess a36.session = true) ∧
      (a36.seq ≠ (bz.sess a36.session).seq)) ∧
    ((4294967280 < 2 ^ 32) ∧ (U.fresh (hd false) a37) ∧
      (a37 = leBytes 4 4294967280 ++ leBytes 4 5 ++ leBytes 4 255 ++ a1) ∧ (a1.length % 12 = 0) ∧
      (a37.length ≤ 32 * 12) ∧ (windowOf 4294967280 = none ∨ 4294967280 % 4 ≠ 0) ∧
      (¬(decodeAddr 4294967280).isSome = true)) ∧
    ((a39 < 2 ^ 32) ∧ (U.fresh (hd false) a38) ∧ (a38 = leBytes 4 a39 ++ leBytes 4 5 ++ leBytes 4 255 ++ a1) ∧
      (a1.length % 12 = 0) ∧ (a38.length ≤ 32 * 12) ∧ (windowOf a39 = none) ∧ (a1 = []) ∧
      ((((U.advance T).asked (hd false)).writeAny (hd false).session a39 5 255 noEnv).fst = Status.ok)) ∧
    ((a41 < 2 ^ 32) ∧ (U.fresh (hd false) a40) ∧ (a40 = leBytes 4 a41 ++ leBytes 4 5 ++ leBytes 4 255 ++ a1) ∧
      (a1.length % 12 = 0) ∧ (a40.length ≤ 32 * 12) ∧ (windowOf a41 = none) ∧ (a1 = []) ∧
      ((((U.advance T).asked (hd false)).writeAny (hd false).session a41 5 255 noEnv).fst = Status.ok)) ∧
    ((4294967280 < 2 ^ 32) ∧ (U.fresh (hd false) a42) ∧
      (a42 = leBytes 4 4294967280 ++ leBytes 4 5 ++ leBytes 4 255 ++ wb 0) ∧ ((wb 0).length % 12 = 0) ∧
      (a42.length ≤ 32 * 12) ∧ (windowOf 4294967280 = none) ∧
      ((((U.advance T).asked (hd false)).writeAny (hd false).session 4294967280 5 255 noEnv).fst ≠ Status.ok) ∧
      ((((U.advance T).asked (hd false)).writeAny (hd false).session 4294967280 5 255 noEnv).fst ≠ Status.waits)) := by
  and_intros
  all_goals first
    | decide +kernel
    | exact all_some (by decide +kernel)
    | exact not_all_some (by decide +kernel)
    | exact ex_some (by decide +kernel)
    | (intro j k; exact nofun)

theorem witness_RequestsReadAndWrite_5 :
    ((U.fresh (hd false) a25) ∧ (a25.length ≠ 6 ∨ leAt a25 4 2 % 4 ≠ 0)) ∧
    ((U.fresh (hd false) (rb 5 0)) ∧ (rb 5 0 = leBytes 4 5 ++ leBytes 2 0) ∧ (5 < 2 ^ 32) ∧ (0 % 4 = 0) ∧
      (0 ≤ if (hd false).i2c = true then 240 else 1024) ∧ (windowOf 5 = none) ∧ (0 = 0)) ∧
    ((U.fresh (hd false) a43) ∧ (a43 = leBytes 4 268435473 ++ leBytes 2 8) ∧ (268435473 < 2 ^ 32) ∧ (8 % 4 = 0) ∧
      (8 ≤ if (hd false).i2c = true then 240 else 1024) ∧ (268435473 % 4 ≠ 0) ∧ (0 < 8)) ∧
    ((U.fresh (hd false) a44) ∧ (a44 = leBytes 4 4294967280 ++ leBytes 2 8) ∧ (4294967280 < 2 ^ 32) ∧ (8 % 4 = 0) ∧
      (8 ≤ if (hd false).i2c = true then 240 else 1024) ∧ (windowOf 4294967280 = none) ∧ (4 ≤ 8) ∧
      (¬(decodeAddr 4294967280).isSome = true)) ∧
    ((U.fresh (hd false) a45) ∧ (a45 = leBytes 4 a46 ++ leBytes 2 4) ∧ (a46 < 2 ^ 32) ∧ (4 % 4 = 0) ∧
      (4 ≤ if (hd false).i2c = true then 240 else 1024) ∧ (windowOf a46 = none) ∧ (4 = 4) ∧
      ((((U.advance T).asked (hd false)).readAny (hd false).session a46).fst = Status.ok)) ∧
    ((a47.fresh (hd false) a48) ∧ (a48 = leBytes 4 268435472 ++ leBytes 2 8) ∧ (268435472 < 2 ^ 32) ∧ (8 % 4 = 0) ∧
      (8 ≤ if (hd false).i2c = true then 240 else 1024) ∧ (windowOf 268435472 = some (0, 0, 16, 2097152, 2)) ∧
      (268435472 % 4 = 0) ∧ (a47.needLevel (hd false).session 2 = Status.accessDenied)) := by
  and_intros
  all_goals first
    | decide +kernel
    | exact all_some (by decide +kernel)
    | exact not_all_some (by decide +kernel)
    | exact ex_some (by decide +kernel)
    | (intro j k; exact nofun)

theorem witness_RequestsReadAndWrite_6 :
    ((U.fresh (hd false) a49) ∧ (a49 = leBytes 4 319823888 ++ leBytes 2 8) ∧ (319823888 < 2 ^ 32) ∧ (8 % 4 = 0) ∧
      (8 ≤ if (hd false).i2c = true then 240 else 1024) ∧ (windowOf 319823888 = some (2, 1, 16, 8192, 0)) ∧
      (319823888 % 4 = 0) ∧ (16 + 8 ≤ 8192) ∧ (U.needLevel (hd false).session 0 = Status.ok)) := by
  and_intros
  all_goals first
    | decide +kernel
    | exact all_some (by decide +kernel)
    | exact not_all_some (by decide +kernel)
    | exact ex_some (by decide +kernel)
    | (intro j k; exact nofun)

theorem witness_QueriesAndReopening :
    ((I.fresh (hd true) a1) ∧
      (¬(a1.length = 14 ∧ 1 ≤ byteAt a1 8 ∧ byteAt a1 8 ≤ if (hd true).i2c = true then 3 else 22))) ∧
    ((I.fresh (hd true) a50) ∧
      (a50.length = 14 ∧ 1 ≤ byteAt a50 8 ∧ byteAt a50 8 ≤ if (hd true).i2c = true then 3 else 22)) ∧
    ((L.fresh (hd true) a50) ∧
      (a50.length = 14 ∧ 1 ≤ byteAt a50 8 ∧ byteAt a50 8 ≤ if (hd true).i2c = true then 3 else 22) ∧
      (L.heldEntries = le :: a51) ∧ (leAt a50 0 8 = 0) ∧ (leAt a50 10 2 ≤ le.code) ∧ (le.code ≤ leAt a50 12 2)) ∧
    ((a52.fresh (hd true) a1) ∧ (¬(2 ≤ (a52.sess (hd true).session).major ∧ a52.mgmt.monitor = false))) ∧
    ((I.fresh (hd true) a1) ∧ (2 ≤ (I.sess (hd true).session).major ∧ I.mgmt.monitor = false) ∧ (a1.length ≠ 24)) ∧
    ((I.fresh (hd true) a1) ∧ (2 ≤ (I.sess (hd true).session).major ∧ I.mgmt.monitor = false) ∧ (a1.length ≠ 20)) := by
  and_intros
  all_goals first
    | decide +kernel
    | exact all_some (by decide +kernel)
    | exact not_all_some (by decide +kernel)
    | exact ex_some (by decide +kernel)
    | exact next_of (by decide +kernel)
    | exact masterGone_of (by decide +kernel) (Nat.le_add_left _ _)
    | exact responseOk_of [7] (by decide +kernel) (by decide) (by decide +kernel) rfl
    | (intro j k; exact nofun)

theorem witness_QueriesAndReopening_2 :
    ((a53.fresh (hd true) (qb 3 0 5 9)) ∧ (2 ≤ (a53.sess (hd true).session).major ∧ a53.mgmt.monitor = false) ∧
      (qb 3 0 5 9 = leBytes 2 3 ++ leBytes 1 0 ++ leBytes 1 0 ++ leBytes 8 5 ++ leBytes 8 9 ++ leBytes 4 0) ∧
      (3 < 64) ∧ (0 < 2) ∧ (5 ≤ 9) ∧ (9 < 2 ^ 64) ∧ (a53.isOn domREC = false)) ∧
    ((I.fresh (hd true) (qb 3 1 5 9)) ∧ (2 ≤ (I.sess (hd true).session).major ∧ I.mgmt.monitor = false) ∧
      (qb 3 1 5 9 = leBytes 2 3 ++ leBytes 1 1 ++ leBytes 1 0 ++ leBytes 8 5 ++ leBytes 8 9 ++ leBytes 4 0) ∧
      (3 < 64) ∧ (1 < 2) ∧ (5 ≤ 9) ∧ (9 < 2 ^ 64) ∧ (I.isOn domREC = true)) ∧
    ((I.fresh (hd true) (qb 3 0 5 9)) ∧ (2 ≤ (I.sess (hd true).session).major ∧ I.mgmt.monitor = false) ∧
      (qb 3 0 5 9 = leBytes 2 3 ++ leBytes 1 0 ++ leBytes 1 0 ++ leBytes 8 5 ++ leBytes 8 9 ++ leBytes 4 0) ∧
      (3 < 64) ∧ (0 < 2) ∧ (5 ≤ 9) ∧ (9 < 2 ^ 64) ∧ (I.isOn domREC = true) ∧ (0 = 0) ∧
      (I.get64 (R.REC_STRM_FRONT_LO 3) (R.REC_STRM_FRONT_HI 3) < 5)) ∧
    ((a54.fresh (hd true) a55) ∧ (2 ≤ (a54.sess (hd true).session).major ∧ a54.mgmt.monitor = false) ∧
      (a55 = leBytes 2 3 ++ leBytes 4 0 ++ leBytes 8 8 ++ leBytes 4 0 ++ leBytes 2 20) ∧ (3 < 64) ∧ (8 < 2 ^ 64) ∧
      (0 < 2 ^ 32) ∧ (20 ≤ maxBody (hd true).i2c - 16) ∧
      (List.find? (fun r => r.seq == 8 && r.typ == 0) (a54.strmRecs 3) = some rr) ∧
      (rr.units.any a54.carafe.lost.contains = false) ∧ (a54.carafe.bad.contains (rr.stream, rr.seq) = false) ∧
      (a54.isOn domREC = false)) ∧
    (((mnt I).fresh (hd true) a55) ∧ (2 ≤ ((mnt I).sess (hd true).session).major ∧ (mnt I).mgmt.monitor = false) ∧
      (a55 = leBytes 2 3 ++ leBytes 4 0 ++ leBytes 8 8 ++ leBytes 4 0 ++ leBytes 2 20) ∧ (3 < 64) ∧ (8 < 2 ^ 64) ∧
      (0 < 2 ^ 32) ∧ (20 ≤ maxBody (hd true).i2c - 16) ∧
      (List.find? (fun r => r.seq == 8 && r.typ == 0) ((mnt I).strmRecs 3) = some rr) ∧
      (rr.units.any (mnt I).carafe.lost.contains = false) ∧
      ((mnt I).carafe.bad.contains (rr.stream, rr.seq) = false) ∧ ((mnt I).isOn domREC = true) ∧
      ((mnt I).pairLost rr.pair = false) ∧ (8 ≤ (mnt I).front 3) ∧ (0 = 0) ∧
      (List.filter (fun d => (mnt I).drvState d == dONLINE) ((mnt I).members rr.pair) ≠ [])) ∧
    (((mnt I).fresh (hd true) a56) ∧ (2 ≤ ((mnt I).sess (hd true).session).major ∧ (mnt I).mgmt.monitor = false) ∧
      (a56 = leBytes 2 3 ++ leBytes 4 0 ++ leBytes 8 8 ++ leBytes 4 20 ++ leBytes 2 200) ∧ (3 < 64) ∧ (8 < 2 ^ 64) ∧
      (20 < 2 ^ 32) ∧ (200 ≤ maxBody (hd true).i2c - 16) ∧
      (List.find? (fun r => r.seq == 8 && r.typ == 0) ((mnt I).strmRecs 3) = some rr) ∧
      (rr.units.any (mnt I).carafe.lost.contains = false) ∧
      ((mnt I).carafe.bad.contains (rr.stream, rr.seq) = false) ∧ ((mnt I).isOn domREC = true) ∧
      ((mnt I).pairLost rr.pair = false) ∧ (8 ≤ (mnt I).front 3) ∧ (0 = 0) ∧
      (List.filter (fun d => (mnt I).drvState d == dONLINE) ((mnt I).members rr.pair) ≠ [])) := by
  and_intros
  all_goals first
    | decide +kernel
    | exact all_some (by decide +kernel)
    | exact not_all_some (by decide +kernel)
    | exact ex_some (by decide +kernel)
    | exact next_of (by decide +kernel)
    | exact masterGone_of (by decide +kernel) (Nat.le_add_left _ _)
    | exact responseOk_of [7] (by decide +kernel) (by decide) (by decide +kernel) rfl
    | (intro j k; exact nofun)

theorem witness_QueriesAndReopening_3 :
    ((a57.fresh (hd true) a55) ∧ (2 ≤ (a57.sess (hd true).session).major ∧ a57.mgmt.monitor = false) ∧
      (a55 = leBytes 2 3 ++ leBytes 4 0 ++ leBytes 8 8 ++ leBytes 4 0 ++ leBytes 2 20) ∧ (3 < 64) ∧ (8 < 2 ^ 64) ∧
      (0 < 2 ^ 32) ∧ (20 ≤ maxBody (hd true).i2c - 16) ∧
      (List.find? (fun r => r.seq == 8 && r.typ == 0) (a57.strmRecs 3) = some rr) ∧
      (rr.units.any a57.carafe.lost.contains = false) ∧ (a57.carafe.bad.contains (rr.stream, rr.seq) = false) ∧
      (a57.isOn domREC = true) ∧ (a57.pairLost rr.pair = true ∨ a57.front 3 < 8)) ∧
    ((a58.fresh (hd true) a55) ∧ (2 ≤ (a58.sess (hd true).session).major ∧ a58.mgmt.monitor = false) ∧
      (a55 = leBytes 2 3 ++ leBytes 4 0 ++ leBytes 8 8 ++ leBytes 4 0 ++ leBytes 2 20) ∧ (3 < 64) ∧ (8 < 2 ^ 64) ∧
      (0 < 2 ^ 32) ∧ (20 ≤ maxBody (hd true).i2c - 16) ∧
      (List.find? (fun r => r.seq == 8 && r.typ == 0) (a58.strmRecs 3) = some rr) ∧
      (rr.units.any a58.carafe.lost.contains = false) ∧ (a58.carafe.bad.contains (rr.stream, rr.seq) = false) ∧
      (a58.isOn domREC = true) ∧ (a58.pairLost rr.pair = true ∨ a58.front 3 < 8)) ∧
    (((mnt I).fresh (hd true) a55) ∧ (2 ≤ ((mnt I).sess (hd true).session).major ∧ (mnt I).mgmt.monitor = false) ∧
      (a55 = leBytes 2 3 ++ leBytes 4 0 ++ leBytes 8 8 ++ leBytes 4 0 ++ leBytes 2 20) ∧ (3 < 64) ∧ (8 < 2 ^ 64) ∧
      (0 < 2 ^ 32) ∧ (20 ≤ maxBody (hd true).i2c - 16) ∧
      (List.find? (fun r => r.seq == 8 && r.typ == 0) ((mnt I).strmRecs 3) = some rr) ∧
      (rr.units.any (mnt I).carafe.lost.contains = false) ∧
      ((mnt I).carafe.bad.contains (rr.stream, rr.seq) = false) ∧ ((mnt I).isOn domREC = true) ∧
      ((mnt I).pairLost rr.pair = false) ∧ (8 ≤ (mnt I).front 3) ∧
      (List.filter (fun d => (mnt I).drvState d == dONLINE) ((mnt I).members rr.pair) = [0, 2]) ∧ (0 < 4) ∧
      (Nat.testBit 1 0 = true) ∧ (Nat.testBit 1 2 = false) ∧ (0 = 0)) ∧
    (((mnt I).fresh (hd true) a55) ∧ (2 ≤ ((mnt I).sess (hd true).session).major ∧ (mnt I).mgmt.monitor = false) ∧
      (a55 = leBytes 2 3 ++ leBytes 4 0 ++ leBytes 8 8 ++ leBytes 4 0 ++ leBytes 2 20) ∧ (3 < 64) ∧ (8 < 2 ^ 64) ∧
      (0 < 2 ^ 32) ∧ (20 ≤ maxBody (hd true).i2c - 16) ∧
      (List.find? (fun r => r.seq == 8 && r.typ == 0) ((mnt I).strmRecs 3) = some rr) ∧
      (rr.units.any (mnt I).carafe.lost.contains = false) ∧
      ((mnt I).carafe.bad.contains (rr.stream, rr.seq) = false) ∧ ((mnt I).isOn domREC = true) ∧
      ((mnt I).pairLost rr.pair = false) ∧ (8 ≤ (mnt I).front 3) ∧
      (List.filter (fun d => (mnt I).drvState d == dONLINE) ((mnt I).members rr.pair) = [0, 2]) ∧ (0 < 4) ∧
      (Nat.testBit 1 0 = true) ∧ (Nat.testBit 1 2 = false) ∧ (Nat.testBit 1 0 = true)) ∧
    (((mnt I).fresh (hd true) a55) ∧ (2 ≤ ((mnt I).sess (hd true).session).major ∧ (mnt I).mgmt.monitor = false) ∧
      (a55 = leBytes 2 3 ++ leBytes 4 0 ++ leBytes 8 8 ++ leBytes 4 0 ++ leBytes 2 20) ∧ (3 < 64) ∧ (8 < 2 ^ 64) ∧
      (0 < 2 ^ 32) ∧ (20 ≤ maxBody (hd true).i2c - 16) ∧
      (List.find? (fun r => r.seq == 8 && r.typ == 0) ((mnt I).strmRecs 3) = some rr) ∧
      (rr.units.any (mnt I).carafe.lost.contains = false) ∧
      ((mnt I).carafe.bad.contains (rr.stream, rr.seq) = false) ∧ ((mnt I).isOn domREC = true) ∧
      ((mnt I).pairLost rr.pair = false) ∧ (8 ≤ (mnt I).front 3) ∧ (15 = 15) ∧ (0 = 0) ∧
      (∀ (d : Nat), d ∈ List.filter (fun d => (mnt I).drvState d == dONLINE) ((mnt I).members rr.pair) → d < 4)) ∧
    ((L.fresh (hd true) a59) ∧
      (a59.length = 14 ∧ 1 ≤ byteAt a59 8 ∧ byteAt a59 8 ≤ if (hd true).i2c = true then 3 else 22) ∧
      (0 < leAt a59 0 8) ∧ (List.filter (fun e => decide (leAt a59 0 8 ≤ e.seq)) L.heldEntries = le :: a51) ∧
      (leAt a59 0 8 < le.seq)) := by
  and_intros
  all_goals first
    | decide +kernel
    | exact all_some (by decide +kernel)
    | exact not_all_some (by decide +kernel)
    | exact ex_some (by decide +kernel)
    | exact next_of (by decide +kernel)
    | exact masterGone_of (by decide +kernel) (Nat.le_add_left _ _)
    | exact responseOk_of [7] (by decide +kernel) (by decide) (by decide +kernel) rfl
    | (intro j k; exact nofun)

theorem witness_QueriesAndReopening_4 :
    ((I.fresh (hd true) (qc 259 7)) ∧ (2 ≤ (I.sess (hd true).session).major ∧ I.mgmt.monitor = false) ∧
      (qc 259 7 = leBytes 2 259 ++ leBytes 1 2 ++ leBytes 1 0 ++ leBytes 8 0 ++ leBytes 8 0 ++ leBytes 4 7) ∧
      (256 ≤ 259) ∧ (259 < 264) ∧ (7 < 2 ^ 32) ∧ (I.isOn domREC = true) ∧ (I.carafe.caps = []) ∧
      (I.carafe.capDone = [])) ∧
    ((cdn.fresh (hd true) (qc 259 7)) ∧ (2 ≤ (cdn.sess (hd true).session).major ∧ cdn.mgmt.monitor = false) ∧
      (qc 259 7 = leBytes 2 259 ++ leBytes 1 2 ++ leBytes 1 0 ++ leBytes 8 0 ++ leBytes 8 0 ++ leBytes 4 7) ∧
      (256 ≤ 259) ∧ (259 < 264) ∧ (7 < 2 ^ 32) ∧ (cdn.isOn domREC = true) ∧
      (List.find? (fun c => c.id == 7) cdn.carafe.capDone = some cd) ∧ (cd.records 259 = [cr])) ∧
    ((cdn.fresh (hd true) a60) ∧ (2 ≤ (cdn.sess (hd true).session).major ∧ cdn.mgmt.monitor = false) ∧
      (a60 = leBytes 2 259 ++ leBytes 4 7 ++ leBytes 8 8 ++ leBytes 4 3 ++ leBytes 2 20) ∧ (259 < 2 ^ 16) ∧ (0 < 7) ∧
      (7 < 2 ^ 32) ∧ (8 < 2 ^ 64) ∧ (3 < 2 ^ 32) ∧ (20 ≤ maxBody (hd true).i2c - 16) ∧ (cdn.isOn domREC = true) ∧
      (List.find? (fun c => c.id == 7) cdn.carafe.capDone = some cd) ∧
      (List.filter (fun r => r.seq == 8) (cd.records 259) = [cr]) ∧ (cdn.capClass 7 cr = 0) ∧
      (cdn.carafe.bad.contains (cr.stream, cr.seq) = false) ∧
      (∃ d, d ∈ cdn.members cr.pair ∧ cdn.drvState d = dONLINE)) ∧
    ((I.fresh (hd true) a1) ∧
      (¬(a1.length = 3 ∧ 1 ≤ byteAt a1 0 ∧ byteAt a1 0 ≤ 2 ∧ (byteAt a1 1 = 0 ∨ byteAt a1 1 = 1 ∧ byteAt a1 2 ≤ 1)))) ∧
    ((a61.fresh (hd true) a62) ∧
      (a62.length = 3 ∧ 1 ≤ byteAt a62 0 ∧ byteAt a62 0 ≤ 2 ∧ (byteAt a62 1 = 0 ∨ byteAt a62 1 = 1 ∧ byteAt a62 2 ≤
        1)) ∧
      (a61.start.blockEnd.isSome = true ∨ a61.start.opener.isSome = true ∧ a61.start.opener ≠ some (hd true).session)) ∧
    ((a63.fresh (hd true) a62) ∧
      (a62.length = 3 ∧ 1 ≤ byteAt a62 0 ∧ byteAt a62 0 ≤ 2 ∧ (byteAt a62 1 = 0 ∨ byteAt a62 1 = 1 ∧ byteAt a62 2 ≤
        1)) ∧
      (a63.start.blockEnd.isSome = true ∨ a63.start.opener.isSome = true ∧ a63.start.opener ≠ some (hd true).session)) := by
  and_intros
  all_goals first
    | decide +kernel
    | exact all_some (by decide +kernel)
    | exact not_all_some (by decide +kernel)
    | exact ex_some (by decide +kernel)
    | exact next_of (by decide +kernel)
    | exact masterGone_of (by decide +kernel) (Nat.le_add_left _ _)
    | exact responseOk_of [7] (by decide +kernel) (by decide) (by decide +kernel) rfl
    | (intro j k; exact nofun)

theorem witness_QueriesAndReopening_5 :
    ((I.fresh (hd true) a62) ∧
      (a62.length = 3 ∧ 1 ≤ byteAt a62 0 ∧ byteAt a62 0 ≤ 2 ∧ (byteAt a62 1 = 0 ∨ byteAt a62 1 = 1 ∧ byteAt a62 2 ≤
        1)) ∧
      (¬(I.start.blockEnd.isSome = true ∨ I.start.opener.isSome = true ∧ I.start.opener ≠ some (hd true).session)) ∧
      (I.modeMay (byteAt a62 0) (byteAt a62 1) (byteAt a62 2) = false)) ∧
    (((pw I).fresh (hd true) a64) ∧
      (a64.length = 3 ∧ 1 ≤ byteAt a64 0 ∧ byteAt a64 0 ≤ 2 ∧ (byteAt a64 1 = 0 ∨ byteAt a64 1 = 1 ∧ byteAt a64 2 ≤
        1)) ∧
      (¬((pw I).start.blockEnd.isSome = true ∨ (pw I).start.opener.isSome = true ∧ (pw I).start.opener ≠ some (hd
        true).session)) ∧ ((pw I).modeMay (byteAt a64 0) (byteAt a64 1) (byteAt a64 2) = true)) ∧
    (((pw I).fresh (hd true) a65) ∧
      (a65.length = 3 ∧ 1 ≤ byteAt a65 0 ∧ byteAt a65 0 ≤ 2 ∧ (byteAt a65 1 = 0 ∨ byteAt a65 1 = 1 ∧ byteAt a65 2 ≤
        1)) ∧
      (¬((pw I).start.blockEnd.isSome = true ∨ (pw I).start.opener.isSome = true ∧ (pw I).start.opener ≠ some (hd
        true).session)) ∧ ((pw I).modeMay (byteAt a65 0) (byteAt a65 1) (byteAt a65 2) = true)) ∧
    ((I.fresh (hd true) a64) ∧ ((I.sess (hd true).session).nonce = none)) ∧
    (((no 1 I).fresh (hd true) a64) ∧ (((no 1 I).sess (hd true).session).nonce = some a66) ∧
      (¬((List.drop 1 a64).length = byteAt a64 0 ∧ (a66.mode = 0 → 8 ≤ (List.drop 1 a64).length ∧ (List.drop 1
        a64).length ≤ 64) ∧ (a66.mode = 1 → (List.drop 1 a64).length = 32)))) ∧
    ((a67.fresh (hd true) d32) ∧ ((a67.sess (hd true).session).nonce = some a66) ∧
      ((List.drop 1 d32).length = byteAt d32 0 ∧ (a66.mode = 0 → 8 ≤ (List.drop 1 d32).length ∧ (List.drop 1
        d32).length ≤ 64) ∧ (a66.mode = 1 → (List.drop 1 d32).length = 32)) ∧
      (a67.start.opener.isSome = true ∧ a67.start.opener ≠ some (hd true).session)) := by
  and_intros
  all_goals first
    | decide +kernel
    | exact all_some (by decide +kernel)
    | exact not_all_some (by decide +kernel)
    | exact ex_some (by decide +kernel)
    | exact next_of (by decide +kernel)
    | exact masterGone_of (by decide +kernel) (Nat.le_add_left _ _)
    | exact responseOk_of [7] (by decide +kernel) (by decide) (by decide +kernel) rfl
    | (intro j k; exact nofun)

theorem witness_QueriesAndReopening_6 :
    ((keyed.fresh (hd true) a69) ∧ ((keyed.sess (hd true).session).nonce = some a66) ∧
      ((List.drop 1 a69).length = byteAt a69 0 ∧ (a66.mode = 0 → 8 ≤ (List.drop 1 a69).length ∧ (List.drop 1
        a69).length ≤ 64) ∧ (a66.mode = 1 → (List.drop 1 a69).length = 32)) ∧
      (¬(keyed.start.opener.isSome = true ∧ keyed.start.opener ≠ some (hd true).session)) ∧
      (((keyed.advance a68).asked (hd true)).responseOk (hd true).session a66 (List.drop 1 a69) = true)) ∧
    ((a71.fresh (hd true) d32) ∧ ((a71.sess (hd true).session).nonce = some a66) ∧
      ((List.drop 1 d32).length = byteAt d32 0 ∧ (a66.mode = 0 → 8 ≤ (List.drop 1 d32).length ∧ (List.drop 1
        d32).length ≤ 64) ∧ (a66.mode = 1 → (List.drop 1 d32).length = 32)) ∧
      (¬(a71.start.opener.isSome = true ∧ a71.start.opener ≠ some (hd true).session)) ∧
      (((a71.advance a70).asked (hd true)).responseOk (hd true).session a66 (List.drop 1 d32) = false)) ∧
    ((a72.fresh (hd true) d32) ∧ ((a72.sess (hd true).session).nonce = some a73) ∧
      ((List.drop 1 d32).length = byteAt d32 0 ∧ (a73.mode = 0 → 8 ≤ (List.drop 1 d32).length ∧ (List.drop 1
        d32).length ≤ 64) ∧ (a73.mode = 1 → (List.drop 1 d32).length = 32)) ∧
      (¬(a72.start.opener.isSome = true ∧ a72.start.opener ≠ some (hd true).session)) ∧
      (((a72.advance T).asked (hd true)).responseOk (hd true).session a73 (List.drop 1 d32) = false)) := by
  and_intros
  all_goals first
    | decide +kernel
    | exact all_some (by decide +kernel)
    | exact not_all_some (by decide +kernel)
    | exact ex_some (by decide +kernel)
    | exact next_of (by decide +kernel)
    | exact masterGone_of (by decide +kernel) (Nat.le_add_left _ _)
    | exact responseOk_of [7] (by decide +kernel) (by decide) (by decide +kernel) rfl
    | (intro j k; exact nofun)

end Sys2Proof.Tests.W20

namespace Sys2Proof.Tests.W20b

open Sys2Proof Sys2Proof.Machine

set_option Elab.async false

def T : Nat := 8000000000000
def lg (f : LogSt → LogSt) (s : State) : State := s.setLog f
def le (q : Nat) : LogEntry := { seq := q, time := 6, code := 0x101, dom := 3, flags := 1, inst := 2, data := [.w 3] }
def S2 (s : State) : State := s.setSess 1 { s.sess 1 with level := 2 }
def tri : State := (((((W.put F.LANE_STATUS_MODE 0).put (F.LANE_STAT_STATE 0) 1).put (F.LANE_STAT_STATE 1) 1).put (F.LANE_STAT_STATE 2) 1).put F.LANE_STATUS_COUNTED 7)
def cg (c : Nat) (s : State) : State := s.setCage c ⟨true, some 5, false⟩
def rr : State := ((cg 3 W).put (F.RING_STATUS_STATE 1) 3).put (F.RING_STATUS_LINK_B 1) 1 |>.put (F.RING_HOP_STAT_UP 1 0) 1
def a1 : State := lg (fun l => { l with holdAt := some 5 }) W
def a2 : List DItem := [.w 5, .d 7]
def a3 : State := lg (fun l => { l with holdAt := some 5, held := List.replicate 8192 (le 0) }) W
def a4 : State := lg (fun l => { l with mramBad := [1] }) W
def a5 : State := lg (fun l => { l with fallback := true }) W
def a6 : State := W.put (F.PWR_STATE domMGMT) 0
def a7 : State := lg (fun l => { l with holdAt := some (T - 10 * uS + 1) }) W
def a8 : Nat := T - 10 * uS + 1
def a9 : State := lg (fun l => { l with holdAt := some (T - 10 * uS), held := [le 0, le 0], flog := [(4, some (le 4))], mram := [(2, some (le 2))], lost := 4 }) W
def a10 : Nat := T - 10 * uS
def a11 : State := S2 (lg (fun l => { l with retestAt := some 5 }) W)
def a12 : List Nat := [5]
def a13 : State := lg (fun l => { l with retestAt := some 5, fallback := true, mramBad := [5] }) W
def a14 : List Nat := [65536]
def a15 : State := lg (fun l => { l with retestAt := some 5, fallback := true, mramBad := [5], flog := [(4, some (le 4))] }) W
def a16 : List Nat := []
def a17 : State := lg (fun l => { l with retestAt := some 5 }) W
def a18 : List Nat := [5, 65536]
def a19 : State := lg (fun l => { l with passAt := [(1, some T)] }) W
def a20 : List (Nat × Nat) := []
def a21 : List (GrindHit × Nat) := []
def a22 : State := lg (fun l => { l with corrAt := [(1, some T)] }) W
def a23 : State := W.setRec fun c => { c with staged := [{ stream := 3, typ := 0, flags := 0, seq := 8, time := 5, count := 1, payload := [1,2,3], units := [4], pair := 0, pseg := 1 }] }
def a24 : State := lg (fun l => { l with mram := [(2, some (le 2))] }) W
def a25 : Cage := ⟨true, none, true⟩
def a26 : State := (cg 17 W).put (F.PWR_STATE domPBUS) 0
def a27 : Cage := ⟨false, none, false⟩
def a28 : State := rr.put (F.PWR_STATE (domRING 1)) 0

theorem witness_EventsLoggedAndRetested :
    ((a1.log.holdAt.isSome = true)) ∧
    ((a3.log.holdAt.isSome = true)) ∧
    ((W.isOn domMGMT = true) ∧ (W.log.holdAt = none ∧ W.log.fallback = false ∧ W.log.retestAt = none) ∧
      ((W.log.mramBad.contains ((W.log.seq + 1) % 65536) || decide (1 = 2)) = false)) ∧
    ((W.isOn domMGMT = true) ∧ (W.log.holdAt = none ∧ W.log.fallback = false ∧ W.log.retestAt = none) ∧
      ((W.log.mramBad.contains ((W.log.seq + 1) % 65536) || decide (2 = 2)) = true)) ∧
    ((a4.isOn domMGMT = true) ∧ (a4.log.holdAt = none ∧ a4.log.fallback = false ∧ a4.log.retestAt = none) ∧
      ((a4.log.mramBad.contains ((a4.log.seq + 1) % 65536) || decide (1 = 2)) = true)) ∧
    ((a5.log.holdAt = none) ∧ (a5.isOn domMGMT = false ∨ a5.log.fallback = true ∨ a5.log.retestAt.isSome = true)) := by
  decide +kernel

theorem witness_EventsLoggedAndRetested_2 :
    ((a6.log.holdAt = none) ∧ (a6.isOn domMGMT = false ∨ a6.log.fallback = true ∨ a6.log.retestAt.isSome = true)) ∧
    ((W.log.holdAt = none)) ∧
    ((a7.log.holdAt = some a8) ∧
      (¬(a7.isOn domMGMT = true ∧ (a7.isOn domREC = true ∧ a7.recState = 2 ∨ (a7.get F.CFG_STATUS_STATE = 5 ∨ a7.get
        F.CFG_STATUS_STATE = 6) ∧ a7.isOn domREC = false ∨ a8 + 10 * uS ≤ max a7.now T)))) ∧
    ((a9.log.holdAt = some a10) ∧
      (a9.isOn domMGMT = true ∧ (a9.isOn domREC = true ∧ a9.recState = 2 ∨ (a9.get F.CFG_STATUS_STATE = 5 ∨ a9.get
        F.CFG_STATUS_STATE = 6) ∧ a9.isOn domREC = false ∨ a10 + 10 * uS ≤ max a9.now T))) ∧
    (((S2 W).isOn domMGMT = true) ∧ ((S2 W).allows 1 R.LOG_CMD 1 1 = true) ∧ ((S2 W).needLevel 1 2 = Status.ok) ∧
      ((S2 W).log.retestAt = none)) ∧
    ((a11.isOn domMGMT = true) ∧ (a11.allows 1 R.LOG_CMD 1 1 = true) ∧ (a11.needLevel 1 2 = Status.ok) ∧
      (a11.log.retestAt.isSome = true)) := by
  decide +kernel

theorem witness_EventsLoggedAndRetested_3 :
    ((W.isOn domMGMT = true) ∧ (W.allows 1 R.LOG_CMD 1 1 = true) ∧ (W.needLevel 1 2 = Status.accessDenied)) ∧
    ((W.works domMGMT = true) ∧ (W.log.retestAt = none)) ∧
    ((a13.works domMGMT = true) ∧ (a13.log.retestAt.isSome = true) ∧ (∀ (k : Nat), k ∈ a14 → 65536 ≤ k)) ∧
    ((a15.works domMGMT = true) ∧ (a15.log.retestAt.isSome = true) ∧ (∀ (k : Nat), k ∈ a16 → 65536 ≤ k)) ∧
    ((a17.works domMGMT = true) ∧ (a17.log.retestAt.isSome = true) ∧ (a18 = 5 :: a14) ∧ (5 < 65536)) := by
  decide +kernel

theorem witness_ScrubbingAndTransceivers :
    ((a19.works (grindDom 1) = true) ∧
      (¬∀ (u : Nat), a19.log.passAt.get 1 = some u → u + a19.grindDue 1 ≤ max a19.now T)) ∧
    ((W.works (grindDom 1) = true) ∧ (∀ (u : Nat), W.log.passAt.get 1 = some u → u + W.grindDue 1 ≤ max W.now T) ∧
      (W.isOn domMGMT = true)) ∧
    ((a6.works (grindDom 1) = true) ∧ (∀ (u : Nat), a6.log.passAt.get 1 = some u → u + a6.grindDue 1 ≤ max a6.now T) ∧
      (a6.isOn domMGMT = false)) ∧
    ((a22.works (grindDom 1) = true) ∧
      (∀ (u : Nat), a22.log.passAt.get 1 = some u → u + a22.grindDue 1 ≤ max a22.now T) ∧ (a22.isOn domMGMT = true)) ∧
    ((W.works (grindDom 0) = true) ∧ (∀ (u : Nat), W.log.passAt.get 0 = some u → u + W.grindDue 0 ≤ max W.now T) ∧
      (W.isOn domMGMT = true) ∧ (0 = 0)) ∧
    ((W.works (grindDom 0) = true) ∧ (∀ (u : Nat), W.log.passAt.get 0 = some u → u + W.grindDue 0 ≤ max W.now T) ∧
      (W.isOn domMGMT = true) ∧ (GrindHit.mirror.mem = 0) ∧
      (∀ (j : Fin 3) (k : Nat), GrindHit.mirror ≠ GrindHit.lane j k)) := by
  and_intros
  all_goals first
    | decide +kernel
    | exact all_some (by decide +kernel)
    | exact not_all_some (by decide +kernel)
    | exact ex_some (by decide +kernel)
    | (intro j k; exact nofun)

theorem witness_ScrubbingAndTransceivers_2 :
    ((W.works (grindDom 0) = true) ∧ (∀ (u : Nat), W.log.passAt.get 0 = some u → u + W.grindDue 0 ≤ max W.now T) ∧
      (W.isOn domMGMT = true) ∧ (GrindHit.sram.mem = 0) ∧ (∀ (j : Fin 3) (k : Nat), GrindHit.sram ≠ GrindHit.lane j k)) ∧
    ((a23.works (grindDom 1) = true) ∧
      (∀ (u : Nat), a23.log.passAt.get 1 = some u → u + a23.grindDue 1 ≤ max a23.now T) ∧ (a23.isOn domMGMT = true) ∧
      ((GrindHit.dram 3 8).mem = 1) ∧ (∀ (j : Fin 3) (k : Nat), GrindHit.dram 3 8 ≠ GrindHit.lane j k)) ∧
    ((a24.works (grindDom 2) = true) ∧
      (∀ (u : Nat), a24.log.passAt.get 2 = some u → u + a24.grindDue 2 ≤ max a24.now T) ∧ (a24.isOn domMGMT = true) ∧
      ((GrindHit.mram 2).mem = 2) ∧ (∀ (j : Fin 3) (k : Nat), GrindHit.mram 2 ≠ GrindHit.lane j k)) ∧
    ((tri.works (grindDom 0) = true) ∧
      (∀ (u : Nat), tri.log.passAt.get 0 = some u → u + tri.grindDue 0 ≤ max tri.now T) ∧ (0 = 0) ∧
      (tri.works (domLANE 1) = true) ∧ (tri.counted 1 = true) ∧ (tri.nCounted = 3) ∧ (tri.mode = 0)) ∧
    ((((cg 16 W).pins.cage.get 16).present = false ∨ 330 ≤ if 16 < 16 then 500 else 330)) ∧
    ((((cg 15 W).pins.cage.get 15).present = false ∨ 500 ≤ if 15 < 16 then 500 else 330)) := by
  and_intros
  all_goals first
    | decide +kernel
    | exact all_some (by decide +kernel)
    | exact not_all_some (by decide +kernel)
    | exact ex_some (by decide +kernel)
    | (intro j k; exact nofun)

theorem witness_ScrubbingAndTransceivers_3 :
    ((a25 = { : Cage } ∧ Instr.sfpOvercurrent T 17 331 = Instr.sfpRemove T 17 ∨ a25 =
        { present := ((cg 17 W).pins.cage.get 17).present, cutOff := true : Cage } ∧ Instr.sfpOvercurrent T 17 331 =
        Instr.sfpOvercurrent T 17 331 ∧ ((cg 17 W).pins.cage.get 17).present = true ∧ (if 17 < 16 then 500 else 330)
        < 331) ∧ (17 = 16 + 1) ∧ ((cg 17 W).works domPBUS = true)) ∧
    ((a27 = { : Cage } ∧ Instr.sfpRemove T 17 = Instr.sfpRemove T 17 ∨ a27 =
        { present := (a26.pins.cage.get 17).present, cutOff := true : Cage } ∧ Instr.sfpRemove T 17 =
        Instr.sfpOvercurrent T 17 331 ∧ (a26.pins.cage.get 17).present = true ∧ (if 17 < 16 then 500 else 330) < 331)
        ∧ (17 = 16 + 1) ∧ (a26.works domPBUS = false)) ∧
    ((a25 = { : Cage } ∧ Instr.sfpOvercurrent T 3 501 = Instr.sfpRemove T 3 ∨ a25 =
        { present := (rr.pins.cage.get 3).present, cutOff := true : Cage } ∧ Instr.sfpOvercurrent T 3 501 =
        Instr.sfpOvercurrent T 3 501 ∧ (rr.pins.cage.get 3).present = true ∧ (if 3 < 16 then 500 else 330) < 501) ∧
      (3 = 2 * 1 + 1) ∧ (rr.works (domRING 1) = true)) ∧
    ((a27 = { : Cage } ∧ Instr.sfpRemove T 2 = Instr.sfpRemove T 2 ∨ a27 =
        { present := (rr.pins.cage.get 2).present, cutOff := true : Cage } ∧ Instr.sfpRemove T 2 =
        Instr.sfpOvercurrent T 2 501 ∧ (rr.pins.cage.get 2).present = true ∧ (if 2 < 16 then 500 else 330) < 501) ∧
      (2 = 2 * 1 + 0) ∧ (rr.works (domRING 1) = true)) ∧
    ((a27 = { : Cage } ∧ Instr.sfpRemove T 2 = Instr.sfpRemove T 2 ∨ a27 =
        { present := (a28.pins.cage.get 2).present, cutOff := true : Cage } ∧ Instr.sfpRemove T 2 =
        Instr.sfpOvercurrent T 2 501 ∧ (a28.pins.cage.get 2).present = true ∧ (if 2 < 16 then 500 else 330) < 501) ∧
      (2 = 2 * 1 + 0) ∧ (a28.works (domRING 1) = false)) := by
  decide +kernel

end Sys2Proof.Tests.W20b
end

section
/-! What the judgement of a direct write can answer (R14), and that it is no wait (R105). -/

namespace Sys2Proof.Machine

/-- R14: what a judgement can give: OK, or one of the refusals that are ranked. -/
def Status.Ranked (a : Status) : Prop := a = .ok ∨ 0 < a.severity

theorem Status.ranked_ok : Status.ok.Ranked := .inl rfl

theorem Status.ranked_busy : Status.busy.Ranked := .inr (by decide)

theorem Status.ranked_badValue : Status.badValue.Ranked := .inr (by decide)

theorem Status.ranked_locked : Status.locked.Ranked := .inr (by decide)

theorem Status.ranked_accessDenied : Status.accessDenied.Ranked := .inr (by decide)

theorem Status.Ranked.ite {p : Prop} [Decidable p] {a b : Status} (ha : a.Ranked) (hb : b.Ranked) :
    (if p then a else b).Ranked := by
  split
  · exact ha
  · exact hb

theorem Status.Ranked.ne_waits {a : Status} (h : a.Ranked) : a ≠ .waits := by
  rintro rfl
  rcases h with h | h
  · exact Status.noConfusion h
  · exact absurd h (by decide)

theorem Status.Ranked.worst {a b : Status} (ha : a.Ranked) (hb : b.Ranked) : (a.worst b).Ranked := by
  unfold Status.worst
  split
  · exact hb
  · exact ha

theorem Status.worst_eq_ok {a b : Status} (hb : b.Ranked) : a.worst b = .ok ↔ a = .ok ∧ b = .ok := by
  unfold Status.worst
  split
  · rename_i hlt
    have hne : b ≠ .ok := by rintro rfl; exact absurd hlt (Nat.not_lt_zero _)
    exact ⟨fun h => absurd h hne, fun h => absurd h.2 hne⟩
  · rename_i hge
    refine ⟨?_, And.left⟩
    rintro rfl
    exact ⟨rfl, hb.resolve_right hge⟩

theorem Status.worst_ne_waits {a : Status} (b : Status) (ha : a ≠ .waits) : a.worst b ≠ .waits := by
  unfold Status.worst
  split
  · rename_i hlt; rintro rfl; exact absurd hlt (Nat.not_lt_zero _)
  · exact ha

theorem Status.foldl_worst_ranked {l : List Status} {a : Status} (ha : a.Ranked) (hl : ∀ b ∈ l, b.Ranked) :
    (l.foldl Status.worst a).Ranked := by
  induction l generalizing a with
  | nil => exact ha
  | cons b l ih =>
    exact ih (ha.worst (hl b (List.mem_cons_self ..))) fun c hc => hl c (List.mem_cons_of_mem _ hc)

theorem State.needLevel_ranked (s : State) (n need : Nat) : (s.needLevel n need).Ranked := by
  unfold State.needLevel
  exact .ite Status.ranked_accessDenied (.ite Status.ranked_ok (.ite Status.ranked_locked Status.ranked_accessDenied))

theorem State.judgeField_ranked (s : State) (n : Nat) (x : RegRow) (old value mask : Word) (f : FieldRow) :
    (s.judgeField n x old value mask f).Ranked := by
  unfold State.judgeField
  refine .ite Status.ranked_ok ?_
  dsimp only
  cases f.acc with
  | ro => exact Status.ranked_ok
  | rwp => exact Status.ranked_accessDenied
  | rw | wo | rwl => exact (s.needLevel_ranked ..).worst (.ite Status.ranked_ok Status.ranked_badValue)
  | w1c | w1s => exact s.needLevel_ranked ..

theorem State.judge_ranked (s : State) (n : Nat) (x : RegRow) (r : Reg) (value mask : Word) :
    (s.judge n x r value mask).Ranked := by
  unfold State.judge
  refine .ite Status.ranked_accessDenied (Status.foldl_worst_ranked ?_ fun b hb => ?_)
  · exact .ite Status.ranked_accessDenied (.ite Status.ranked_busy Status.ranked_ok)
  · obtain ⟨f, -, rfl⟩ := List.mem_map.mp hb
    exact s.judgeField_ranked ..

theorem mapRelation_ranked (r : Reg) (w : Word) : (mapRelation r w).Ranked := by
  have hrel {p : Prop} [Decidable p] : (if p then Status.ok else .badValue).Ranked :=
    .ite Status.ranked_ok Status.ranked_badValue
  unfold mapRelation
  exact .ite hrel (.ite hrel (.ite hrel (.ite (.ite Status.ranked_badValue Status.ranked_ok) Status.ranked_ok)))

theorem State.judgeWord_ne_waits (s : State) (n : Nat) (r : Reg) (value mask : Word) :
    s.judgeWord n r value mask ≠ .waits := by
  unfold State.judgeWord
  split
  · exact Status.noConfusion
  · exact (s.judge_ranked ..).ne_waits

theorem State.judgeWord_ranked {r : Reg} (h : (rowOf r).isSome = true) (s : State) (n : Nat) (value mask : Word) :
    (s.judgeWord n r value mask).Ranked := by
  unfold State.judgeWord
  split
  · rename_i hrow; rw [hrow] at h; exact Bool.noConfusion h
  · exact s.judge_ranked ..

/-! ### The status of a plain write -/

theorem State.plainWrite_fst (s : State) (n : Nat) (x : RegRow) (r : Reg) (value mask : Word) :
    (s.plainWrite n x r value mask).1 = (s.judge n x r value mask).worst
      (mapRelation r ((applyWrite x (s.word r) value mask &&& ~~~readsZero r) ||| (s.word r &&& s.keeps r))) := by
  unfold State.plainWrite
  dsimp only
  split
  · rename_i h; exact h.symm
  · rfl

theorem State.writeReg_ne_waits (s : State) (n : Nat) (r : Reg) (value mask : Word) :
    (s.writeReg n r value mask).1 ≠ .waits := by
  unfold State.writeReg
  split
  · exact Status.noConfusion
  · rw [State.plainWrite_fst]
    exact Status.worst_ne_waits _ (s.judge_ranked ..).ne_waits

theorem State.judgeWord_of_allows {s : State} {n : Nat} {r : Reg} {value mask : Word}
    (h : s.allows n r value mask = true) : s.judgeWord n r value mask = .ok := by
  have h1 : (s.writeReg n r value mask).1 = .ok := by simpa [State.allows] using h
  unfold State.writeReg at h1
  unfold State.judgeWord
  cases hrow : rowOf r with
  | none => rw [hrow] at h1; exact absurd h1 Status.noConfusion
  | some x =>
    rw [hrow] at h1
    rw [State.plainWrite_fst, Status.worst_eq_ok (mapRelation_ranked ..)] at h1
    exact h1.1

/-- A register whose map relates no two of its fields: its judgement alone decides a write. -/
theorem State.allows_iff_judgeWord {s : State} {n : Nat} {r : Reg} {value mask : Word}
    (hr : ∀ w, mapRelation r w = .ok) : s.allows n r value mask = true ↔ s.judgeWord n r value mask = .ok := by
  refine ⟨State.judgeWord_of_allows, fun h => ?_⟩
  unfold State.judgeWord at h
  unfold State.allows State.writeReg
  cases hrow : rowOf r with
  | none => rw [hrow] at h; exact absurd h Status.noConfusion
  | some x =>
    rw [hrow] at h
    have h1 : (s.plainWrite n x r value mask).1 = .ok := by
      rw [State.plainWrite_fst, hr]
      exact (Status.worst_eq_ok (.inl rfl)).mpr ⟨h, rfl⟩
    exact beq_iff_eq.mpr h1

theorem State.advance_writeReg_fst (s : State) (t n : Nat) (r : Reg) (v m : Word) :
    ((s.advance t).writeReg n r v m).1 = (s.writeReg n r v m).1 := by
  unfold State.writeReg
  cases rowOf r with
  | none => rfl
  | some x =>
    dsimp only
    have hj : (s.advance t).judge n x r v m = s.judge n x r v m := rfl
    rw [State.plainWrite_fst, State.plainWrite_fst, hj, State.advance_word,
      mapRelation_keeps r _ (s.word r &&& (s.advance t).keeps r) (s.word r &&& s.keeps r) fun g => by
        rw [State.keeps_other _ g, State.keeps_other _ g]]

theorem State.writeReg_eq_of_refused {s : State} {n : Nat} {r : Reg} {v m : Word} (h : s.allows n r v m = false) :
    s.writeReg n r v m = ((s.writeReg n r v m).1, s) := Prod.ext rfl (State.writeReg_refused h).2

/-! ### What the judgement reads -/

theorem State.pourLive_setWord {s : State} {n : Nat} {r : Reg} {w : Word} (hp : ∀ k, r ≠ R.POUR_SLOT_STAT k) :
    (s.setWord r w).pourLive n = s.pourLive n := by
  have hg (k : Nat) (f : Fld) (hf : f.reg = R.POUR_SLOT_STAT k) : (s.setWord r w).get f = s.get f :=
    State.get_setWord_other _ _ _ _ (hf ▸ (hp k).symm)
  unfold State.pourLive
  simp only [hg _ (F.POUR_SLOT_STAT_SESSION _) rfl, hg _ (F.POUR_SLOT_STAT_STATE _) rfl, State.setWord_pour]

/-- A write of another register that neither closes the field lock, nor changes the policy, nor moves a Pour changes no
judgement. -/
theorem State.judge_setWord {s : State} {n : Nat} {x : RegRow} {r r' : Reg} {value mask w : Word} (hne : r ≠ r')
    (hl : r' ≠ R.ACC_FIELD_LOCK) (ha : r' ≠ R.ACC_POLICY) (hp : ∀ k, r' ≠ R.POUR_SLOT_STAT k) :
    (s.setWord r' w).judge n x r value mask = s.judge n x r value mask := by
  have hlock : (s.setWord r' w).lockClosed = s.lockClosed := by
    unfold State.lockClosed
    rw [State.flag_eq, State.flag_eq, State.get_setWord_other _ _ _ _ hl.symm]
  have hlev (x : RegRow) : (s.setWord r' w).writeLevel x = s.writeLevel x := by
    unfold State.writeLevel
    rw [State.flag_eq, State.flag_eq, State.get_setWord_other _ _ _ _ ha.symm]
  have hopen : (s.setWord r' w).isOpener n = s.isOpener n := rfl
  have hneed (k : Nat) : (s.setWord r' w).needLevel n k = s.needLevel n k := by
    unfold State.needLevel State.level
    rw [hlock, State.setWord_sess, State.setWord_start, hopen]
  have hfield : (s.setWord r' w).judgeField n x (s.word r) value mask = s.judgeField n x (s.word r) value mask := by
    funext f
    unfold State.judgeField
    simp only [hneed, hlev]
  unfold State.judge
  rw [State.word_setWord_other _ _ _ _ hne, State.pourLive_setWord hp, State.setWord_mgmt, hfield]

theorem State.written_setWord {s : State} {r r' : Reg} {value mask w : Word} (hne : r ≠ r') :
    (s.setWord r' w).written r value mask = s.written r value mask := by
  have hk : (s.setWord r' w).keeps r = s.keeps r := rfl
  unfold State.written
  rw [State.word_setWord_other _ _ _ _ hne, hk]

/-! ### Answers of a session's access -/

@[simp] theorem State.answer_status (s : State) (n : Nat) (st : Status) (v : Word) :
    ((s.answer n st v).sess n).status = st := by
  rw [State.answer, State.setSess_sess_same]

@[simp] theorem State.answer_held (s : State) (n : Nat) (st : Status) (v : Word) :
    ((s.answer n st v).sess n).held = (s.sess n).held := by
  rw [State.answer, State.setSess_sess_same]

@[simp] theorem State.answer_word (s : State) (n : Nat) (st : Status) (v : Word) (r : Reg) :
    (s.answer n st v).word r = s.word r := rfl

theorem State.Frame.answer {a b : State} {fs : List Fld} {ps : List Part} (h : a.Frame b fs ps) (n : Nat) (st : Status)
    (v : Word) (hl : Part.mgmt ∈ ps) : a.Frame (b.answer n st v) fs ps := h.setSess _ _ hl

/-! ### Writes by address -/

theorem State.writeAny_unmapped (s : State) (n : Nat) {addr : Nat} (value mask : Word) (e : AccEnv)
    (hd : decodeAddr addr = none) : s.writeAny n addr value mask e =
      (if addr % 4 = 0 ∧ (windowOf addr).isSome then .accessDenied else .badAddr, s) := by
  unfold State.writeAny
  rw [hd]

theorem State.writeAny_on {s : State} {n addr : Nat} {value mask : Word} {e : AccEnv} {x : RegRow} {r : Reg}
    (hd : decodeAddr addr = some (x, r)) (hon : s.isOn (domOfReg x r) = true) :
    s.writeAny n addr value mask e = s.writeAt n r value mask e := by
  unfold State.writeAny
  rw [hd]
  exact if_pos hon

theorem State.writeAny_off {s : State} {n addr : Nat} {value mask : Word} {e : AccEnv} {x : RegRow} {r : Reg}
    (hd : decodeAddr addr = some (x, r)) (hoff : s.isOn (domOfReg x r) = false) :
    s.writeAny n addr value mask e = (.domainOff, s) := by
  unfold State.writeAny
  rw [hd]
  exact if_neg (by simp [hoff])

theorem State.writeAt_of_no_act {s : State} {n : Nat} {r : Reg} {value mask : Word} {e : AccEnv}
    (hv : s.actVote n r value mask e = none) (hs : s.actSide n r value mask e = none) :
    s.writeAt n r value mask e =
      if isLo r then s.loWrite n r value mask else if isHi r then s.hiWrite n r value mask
      else s.writeReg n r value mask := by
  unfold State.writeAt
  rw [hv, hs]

/-- A write that does not wait for the input freeze: its status is kept for the session. -/
theorem State.writeBy_answer {s s1 : State} {n addr : Nat} {value mask : Word} {e : AccEnv} {st : Status}
    (hm : s.isOn domMGMT = true) (hw : s.writeAny n addr value mask e = (st, s1)) (hst : st ≠ .waits) :
    s.writeBy n addr value mask e = s1.answer n st 0 := by
  unfold State.writeBy
  rw [hm, hw, if_neg (by decide)]
  split
  · rename_i h; exact absurd (congrArg Prod.fst h) hst
  · rfl

end Sys2Proof.Machine
end

section
/-! What every step keeps, and direct writes by address. -/

namespace Sys2Proof.Machine

theorem step_idle {s : State} (h : s.pending = []) : step s = .next s := by
  rw [step, h]

theorem step_front {s : State} {c : Instr} {rest : List Instr} (h : s.pending = c :: rest) :
    step s = exec c { s with pending := rest } := by
  rw [step, h]

/-- Settles O3: no command breaks the canonical form (`exec_leads`), and the queue is no part of it. -/
theorem stepKeepsRegisterForm : Obligations.StepKeepsRegisterForm := by
  intro s hwf
  cases hp : s.pending with
  | nil => exact ⟨s, step_idle hp, hwf⟩
  | cons c rest =>
    obtain ⟨s', hexec, hleads⟩ := exec_leads c { s with pending := rest }
    exact ⟨s', (step_front hp).trans hexec, hleads.regs hwf⟩

/-- REGISTER_WRITE while MGMT is ON, whose write does not wait. -/
theorem exec_registerWrite_answer {t : Nat} {n : SessIx} {addr : Nat} {value mask : Word} {e : AccEnv} {s s1 : State}
    {st : Status} (hm : s.isOn domMGMT = true) (hw : (s.advance t).writeAny n addr value mask e = (st, s1))
    (hst : st ≠ .waits) : exec (.registerWrite t n addr value mask e) s = .next (s1.answer n st 0) :=
  congrArg Host.Outcome.next (State.writeBy_answer hm hw hst)

/-- Settles O6: a write by address is refused before any register is reached, or is the plain write of one register, which
is whole where R14 allows it (`State.writeReg_allows`) and nothing where it does not (`State.writeReg_refused`). -/
theorem addressedWriteJudged : Obligations.AddressedWriteJudged := by
  intro t n addr value mask e s hm
  have hsame : (s.advance t).Frame (s.advance t) [] [.mgmt] := .refl ..
  refine ⟨fun hd => ?_, fun x r hd hoff => ?_, fun x r hd hon hv hs hlo hhi => ?_⟩
  · refine ⟨_, exec_registerWrite_answer hm (State.writeAny_unmapped _ n value mask e hd) (by split <;> nofun),
      hsame.answer _ _ _ (by decide), fun hbad => ?_, fun hal hwin => ?_⟩
    · rw [State.answer_status, if_neg]
      rintro ⟨hal, hwin⟩
      rcases hbad with h | h
      · exact h hal
      · rw [h] at hwin; exact Bool.noConfusion hwin
    · rw [State.answer_status, if_pos ⟨hal, hwin⟩]
  · exact ⟨_, exec_registerWrite_answer hm (State.writeAny_off hd hoff) nofun, hsame.answer _ _ _ (by decide),
      State.answer_status ..⟩
  · have hplain : (s.advance t).writeAny n addr value mask e = (s.advance t).writeReg n r value mask := by
      rw [State.writeAny_on (s := s.advance t) hd hon, State.writeAt_of_no_act hv hs, hlo, hhi]
      rfl
    refine ⟨fun ha => ?_, fun ha => ?_⟩
    · have ha' : (s.advance t).allows n r value mask = true := by rwa [State.advance_allows]
      refine ⟨_, exec_registerWrite_answer hm (hplain.trans (State.writeReg_allows ha')) nofun,
        ((hsame.mono nofun (fun _ => id)).setWord _ _ (List.mem_singleton.mpr rfl)).answer _ _ _ (by decide),
        State.answer_status .., ?_⟩
      rw [State.answer_word, State.word_setWord_same]
    · have ha' : (s.advance t).allows n r value mask = false := by rwa [State.advance_allows]
      refine ⟨_, exec_registerWrite_answer hm (hplain.trans (State.writeReg_eq_of_refused ha'))
        (State.writeReg_ne_waits _ n r value mask), hsame.answer _ _ _ (by decide), ?_, ?_⟩
      · rw [State.answer_status, State.advance_writeReg_fst]
      · rw [State.answer_status]; exact (State.writeReg_refused ha').1

end Sys2Proof.Machine
end

section
/-! A write of a _LO register is held until the _HI register is written: the pair PB_MAC (R12, R255). -/

namespace Sys2Proof.Machine

theorem findReg_cons_same (l : List (Reg × Word)) (r : Reg) (w : Word) : findReg ((r, w) :: l) r = some w := by
  simp [findReg]

theorem findReg_dropReg (l : List (Reg × Word)) (r : Reg) : findReg (dropReg l r) r = none := by
  induction l with
  | nil => rfl
  | cons e l ih =>
    obtain ⟨k, w⟩ := e
    unfold dropReg at ih ⊢
    by_cases h : k = r
    · simpa [h] using ih
    · simpa [h, findReg] using ih

/-- R14: the session's judgement holds the pair's _LO word and writes no register. -/
theorem State.loWrite_ok {s : State} {n : Nat} {r : Reg} {value mask : Word}
    (h : s.judgeWord n r value mask = .ok) : s.loWrite n r value mask =
      (.ok, s.setSess n { s.sess n with held := (r, masked (s.word r) value mask) :: dropReg (s.sess n).held r }) := by
  unfold State.loWrite
  rw [h]

theorem State.loWrite_refused {s : State} {n : Nat} {r : Reg} {value mask : Word}
    (h : s.judgeWord n r value mask ≠ .ok) : s.loWrite n r value mask = (s.judgeWord n r value mask, s) := by
  unfold State.loWrite
  split
  · rename_i h1; exact absurd h1 h
  · rfl

/-- A pair whose two writes are accepted, the _HI write also once _LO is written. -/
theorem State.hiWrite_ok {s : State} {n : Nat} {lo hi : Reg} {value mask v : Word} (hpair : loOf hi = lo)
    (hv : findReg (s.sess n).held lo = some v) (hlo : s.allows n lo v (BitVec.allOnes 32) = true)
    (hhi : s.allows n hi value mask = true)
    (hnext : (s.setWord lo (s.written lo v (BitVec.allOnes 32))).writeReg n hi value mask =
      (.ok, (s.setWord lo (s.written lo v (BitVec.allOnes 32))).setWord hi (s.written hi value mask))) :
    s.hiWrite n hi value mask =
      (.ok, ((s.setWord lo (s.written lo v (BitVec.allOnes 32))).setWord hi (s.written hi value mask)).setSess
        n { s.sess n with held := dropReg (s.sess n).held lo }) := by
  unfold State.hiWrite
  dsimp only
  rw [hpair, hv]
  dsimp only
  rw [State.judgeWord_of_allows hlo, State.judgeWord_of_allows hhi, State.writeReg_allows hlo, hnext]
  rfl

theorem State.hiWrite_refused {s : State} {n : Nat} {lo hi : Reg} {value mask v : Word} (hpair : loOf hi = lo)
    (hv : findReg (s.sess n).held lo = some v)
    (h : (s.judgeWord n lo v (BitVec.allOnes 32)).worst (s.judgeWord n hi value mask) ≠ .ok) :
    s.hiWrite n hi value mask =
      ((s.judgeWord n lo v (BitVec.allOnes 32)).worst (s.judgeWord n hi value mask), s) := by
  unfold State.hiWrite
  dsimp only
  rw [hpair, hv]
  dsimp only
  split
  · rename_i h1; exact absurd h1 h
  · rfl

theorem State.hiWrite_alone {s : State} {n : Nat} {lo hi : Reg} (value mask : Word) (hpair : loOf hi = lo)
    (hv : findReg (s.sess n).held lo = none) : s.hiWrite n hi value mask = s.writeReg n hi value mask := by
  unfold State.hiWrite
  dsimp only
  rw [hpair, hv]

/-! ### The pair PB_MAC (R255) -/

/-- A register of the pair PB_MAC. -/
def isPbMac (r : Reg) : Prop := r.id = (R.PB_MAC_LO 0).id ∨ r.id = (R.PB_MAC_HI 0).id

theorem isPbMac_lo (p : Nat) : isPbMac (R.PB_MAC_LO p) := .inl rfl

theorem isPbMac_hi (p : Nat) : isPbMac (R.PB_MAC_HI p) := .inr rfl

theorem exists_row_of_map {r : Reg} {d : Nat}
    (h : (decodeAddr (addrOf r)).map (fun e => (e.2, domOfReg e.1 r)) = some (r, d)) :
    ∃ x, decodeAddr (addrOf r) = some (x, r) ∧ domOfReg x r = d := by
  obtain ⟨⟨x, r'⟩, hd, he⟩ := Option.map_eq_some_iff.mp h
  obtain ⟨rfl, hdom⟩ := Prod.mk.injEq .. ▸ he
  exact ⟨x, hd, hdom⟩

theorem decodeAddr_pbMacLo (p : Fin 2) : ∃ x, decodeAddr (addrOf (R.PB_MAC_LO p)) = some (x, R.PB_MAC_LO p) ∧
    domOfReg x (R.PB_MAC_LO p) = domPBUS := exists_row_of_map (by revert p; decide +kernel)

theorem decodeAddr_pbMacHi (p : Fin 2) : ∃ x, decodeAddr (addrOf (R.PB_MAC_HI p)) = some (x, R.PB_MAC_HI p) ∧
    domOfReg x (R.PB_MAC_HI p) = domPBUS := exists_row_of_map (by revert p; decide +kernel)

theorem rowOf_pbMac {r : Reg} (h : isPbMac r) : (rowOf r).isSome = true := by
  unfold rowOf
  rcases h with h | h <;> rw [h] <;> decide +kernel

theorem mapRelation_pbMac {r : Reg} (h : isPbMac r) (w : Word) : mapRelation r w = .ok := by
  rcases h with h | h <;> simp [mapRelation, h]

theorem State.actVote_pbMac {r : Reg} (h : isPbMac r) (s : State) (n : Nat) (value mask : Word) (e : AccEnv) :
    s.actVote n r value mask e = none := by
  have hne (k : Reg) (hk : ¬isPbMac k) : r ≠ k := by rintro rfl; exact hk h
  rcases h with h | h <;> simp [State.actVote, h, hne, isPbMac]

theorem State.actSide_pbMac {r : Reg} (h : isPbMac r) (s : State) (n : Nat) (value mask : Word) (e : AccEnv) :
    s.actSide n r value mask e = none := by
  have hne (k : Reg) (hk : ¬isPbMac k) : r ≠ k := by rintro rfl; exact hk h
  rcases h with h | h <;> simp [State.actSide, h, hne, isPbMac]

theorem isKind_of_decode {addr : Nat} {x : RegRow} {r : Reg} (hd : decodeAddr addr = some (x, r)) (p : Reg → Bool) :
    isKind p addr = p r := by
  unfold isKind
  rw [hd]

/-- A write of a register of PB_MAC acts as a write of its half of the pair. -/
theorem State.writeBy_pbMac {r : Reg} {s s1 : State} {n : Nat} {value mask : Word} {st : Status} (h : isPbMac r)
    (hrow : ∃ x, decodeAddr (addrOf r) = some (x, r) ∧ domOfReg x r = domPBUS) (hm : s.isOn domMGMT = true)
    (hon : s.isOn domPBUS = true) (hw : (if isLo r then s.loWrite n r value mask
      else if isHi r then s.hiWrite n r value mask else s.writeReg n r value mask) = (st, s1)) (hst : st ≠ .waits) :
    s.writeBy n (addrOf r) value mask noEnv = s1.answer n st 0 := by
  obtain ⟨x, hd, hdom⟩ := hrow
  refine State.writeBy_answer hm ?_ hst
  rw [State.writeAny_on hd (hdom ▸ hon), State.writeAt_of_no_act (State.actVote_pbMac h ..) (State.actSide_pbMac h ..), hw]

/-- PAIR_LO_WRITE of PB_MAC_LO. -/
theorem exec_pairLoWrite_pbMac {t : Nat} {n : SessIx} {p : Fin 2} {value mask : Word} {s s1 : State} {st : Status}
    (hm : s.isOn domMGMT = true) (hon : s.isOn domPBUS = true)
    (hw : (s.advance t).loWrite n (R.PB_MAC_LO p) value mask = (st, s1)) (hst : st ≠ .waits) :
    exec (.pairLoWrite t n (addrOf (R.PB_MAC_LO p)) value mask) s = .next (s1.answer n st 0) := by
  obtain ⟨x, hd, hdom⟩ := decodeAddr_pbMacLo p
  have hby := State.writeBy_pbMac (s := s.advance t) (isPbMac_lo p) ⟨x, hd, hdom⟩ hm hon hw hst
  exact congrArg Host.Outcome.next ((if_pos (isKind_of_decode hd isLo)).trans hby)

/-- PAIR_HI_WRITE of PB_MAC_HI. -/
theorem exec_pairHiWrite_pbMac {t : Nat} {n : SessIx} {p : Fin 2} {value mask : Word} {s s1 : State} {st : Status}
    (hm : s.isOn domMGMT = true) (hon : s.isOn domPBUS = true)
    (hw : (s.advance t).hiWrite n (R.PB_MAC_HI p) value mask = (st, s1)) (hst : st ≠ .waits) :
    exec (.pairHiWrite t n (addrOf (R.PB_MAC_HI p)) value mask) s = .next (s1.answer n st 0) := by
  obtain ⟨x, hd, hdom⟩ := decodeAddr_pbMacHi p
  have hby := State.writeBy_pbMac (s := s.advance t) (isPbMac_hi p) ⟨x, hd, hdom⟩ hm hon hw hst
  exact congrArg Host.Outcome.next ((if_pos (isKind_of_decode hd isHi)).trans hby)

/-- A register of PB_MAC keeps no bits from a write, whatever the instant. -/
theorem State.advance_written_pbMac {r : Reg} (h : isPbMac r) (s : State) (t : Nat) (value mask : Word) :
    (s.advance t).written r value mask = s.written r value mask :=
  s.advance_written t value mask (by rcases h with h | h <;> rw [h] <;> decide)

/-- Writing PB_MAC_LO decides nothing about a write of PB_MAC_HI. -/
theorem State.allows_pbMacHi_setWord (s : State) (n p : Nat) (value mask w : Word) :
    (s.setWord (R.PB_MAC_LO p) w).allows n (R.PB_MAC_HI p) value mask = s.allows n (R.PB_MAC_HI p) value mask := by
  have hne (k : Reg) (hk : ¬isPbMac k) : R.PB_MAC_LO p ≠ k := by rintro rfl; exact hk (isPbMac_lo p)
  rw [Bool.eq_iff_iff, State.allows_iff_judgeWord (mapRelation_pbMac (isPbMac_hi p)),
    State.allows_iff_judgeWord (mapRelation_pbMac (isPbMac_hi p))]
  unfold State.judgeWord
  cases rowOf (R.PB_MAC_HI p) with
  | none => rfl
  | some x =>
    dsimp only
    rw [State.judge_setWord (by simp) (hne _ (by simp [isPbMac])) (hne _ (by simp [isPbMac]))
      fun k => hne _ (by simp [isPbMac])]

/-- Settles O9: neither half of PB_MAC acts or relates fields, so R14's judgement alone decides each write, and writing
_LO changes nothing that the judgement of _HI reads. -/
theorem heldPairWrites : Obligations.HeldPairWrites := by
  intro t n p value mask s hm hon lo hi all
  have hsame (fs : List Fld) : (s.advance t).Frame (s.advance t) fs [.mgmt] := .refl ..
  have hmac {r : Reg} (h : isPbMac r) (v m : Word) :
      (s.advance t).judgeWord n r v m = .ok ↔ s.allows n r v m = true := by
    rw [← State.allows_iff_judgeWord (mapRelation_pbMac h), State.advance_allows]
  refine ⟨fun ha => ?_, fun ha => ?_, fun v hv => ⟨fun hl hh => ?_, fun hno => ?_⟩, fun hv ha => ?_⟩
  · refine ⟨_, exec_pairLoWrite_pbMac hm hon (State.loWrite_ok ((hmac (isPbMac_lo p) ..).mpr ha)) nofun,
      ((hsame _).setSess _ _ (by decide)).answer _ _ _ (by decide), State.answer_status .., ?_⟩
    rw [State.answer_held, State.setSess_sess_same]
    exact findReg_cons_same ..
  · have hno : (s.advance t).judgeWord n lo value mask ≠ .ok := fun h =>
      Bool.false_ne_true (ha.symm.trans ((hmac (isPbMac_lo p) ..).mp h))
    refine ⟨_, exec_pairLoWrite_pbMac hm hon (State.loWrite_refused hno) (State.judgeWord_ne_waits _ n lo value mask),
      (hsame _).answer _ _ _ (by decide), ?_, State.answer_held ..⟩
    rw [State.answer_status]
    exact hno
  · have hl' : (s.advance t).allows n lo v all = true := (State.advance_allows ..).trans hl
    have hh' : (s.advance t).allows n hi value mask = true := (State.advance_allows ..).trans hh
    have hnext := State.writeReg_allows ((State.allows_pbMacHi_setWord (s.advance t) n p value mask
      ((s.advance t).written lo v all)).trans hh')
    rw [State.written_setWord (by simp)] at hnext
    refine ⟨_, exec_pairHiWrite_pbMac hm hon (State.hiWrite_ok (lo := lo) rfl hv hl' hh' hnext) nofun,
      ((((hsame _).setWord _ _ (List.mem_cons_self ..)).setWord _ _
        (List.mem_cons_of_mem _ (List.mem_cons_self ..))).setSess _ _ (by decide)).answer _ _ _ (by decide),
      State.answer_status .., ?_, ?_, ?_⟩
    · rw [State.answer_word, State.setSess_word, State.word_setWord_other _ _ _ _ (by simp [lo]), State.word_setWord_same,
        State.advance_written_pbMac (isPbMac_lo p)]
    · rw [State.answer_word, State.setSess_word, State.word_setWord_same, State.advance_written_pbMac (isPbMac_hi p)]
    · rw [State.answer_held, State.setSess_sess_same]
      exact findReg_dropReg ..
  · have hne : ((s.advance t).judgeWord n lo v all).worst ((s.advance t).judgeWord n hi value mask) ≠ .ok := by
      intro h
      obtain ⟨hl, hh⟩ := (Status.worst_eq_ok (State.judgeWord_ranked (rowOf_pbMac (isPbMac_hi p)) ..)).mp h
      rcases hno with ha | ha
      · exact Bool.false_ne_true (ha.symm.trans ((hmac (isPbMac_lo p) ..).mp hl))
      · exact Bool.false_ne_true (ha.symm.trans ((hmac (isPbMac_hi p) ..).mp hh))
    refine ⟨_, exec_pairHiWrite_pbMac hm hon (State.hiWrite_refused (lo := lo) rfl hv hne)
        (Status.worst_ne_waits _ (State.judgeWord_ne_waits _ n lo v all)), (hsame _).answer _ _ _ (by decide), ?_⟩
    exact fun h => hne ((State.answer_status ..).symm.trans h)
  · have ha' : (s.advance t).allows n hi value mask = true := (State.advance_allows ..).trans ha
    have hw := (State.hiWrite_alone (s := s.advance t) (lo := lo) value mask rfl hv).trans (State.writeReg_allows ha')
    refine ⟨_, exec_pairHiWrite_pbMac hm hon hw nofun,
      ((hsame _).setWord _ _ (List.mem_cons_self ..)).answer _ _ _ (by decide), State.answer_status .., ?_⟩
    rw [State.answer_word, State.word_setWord_same, State.advance_written_pbMac (isPbMac_hi p)]

end Sys2Proof.Machine
end

section
/-! A write that waits for the input freeze changes nothing before it (R105): only CELL_CMD waits. -/

namespace Sys2Proof.Machine

/-- The outcome of a write that does not wait. -/
structure Prompt (p : Status × State) : Prop where
  ne_waits : p.1 ≠ .waits

theorem State.writeReg_prompt (s : State) (n : Nat) (r : Reg) (value mask : Word) : Prompt (s.writeReg n r value mask) :=
  ⟨s.writeReg_ne_waits n r value mask⟩

theorem State.writeThen_prompt (s : State) (n : Nat) (r : Reg) (value mask : Word) (f : State → State) :
    Prompt (s.writeThen n r value mask f) := by
  unfold State.writeThen
  split
  · exact ⟨Status.noConfusion⟩
  · exact ⟨s.writeReg_ne_waits n r value mask⟩

theorem State.writeIf_prompt (s : State) (n : Nat) (r : Reg) (value mask : Word) (st : Status) (f : State → State) :
    Prompt (s.writeIf n r value mask st f) := by
  unfold State.writeIf
  split
  · exact s.writeThen_prompt ..
  · exact ⟨Status.worst_ne_waits st (s.writeReg_ne_waits n r value mask)⟩

/-! ### The writes of VOTE that act -/

theorem State.cellCmd_prompt (s : State) (n k : Nat) (value mask : Word) : Prompt (s.cellCmd n k value mask) := by
  have hst := Status.worst_ne_waits (s.cmdRefuse n k (fieldOf (masked (s.word (R.CELL_CMD k)) value mask) 0 4)
    (fieldOf (masked (s.word (R.CELL_CMD k)) value mask) 8 4)) (s.judgeWord_ne_waits n (R.CELL_CMD k) value mask)
  unfold State.cellCmd
  dsimp only
  split
  · exact ⟨Status.noConfusion⟩
  all_goals exact ⟨hst⟩

theorem State.cellCmdNow_waits {s : State} {n k : Nat} {value mask : Word}
    (h : (s.cellCmdNow n k value mask).1 = .waits) : (s.cellCmdNow n k value mask).2 = s := by
  unfold State.cellCmdNow at h ⊢
  split at h
  · exact absurd h (s.cellCmd_prompt ..).ne_waits
  · rename_i hf; rw [if_neg hf]

theorem State.pwmClear_prompt (s : State) (n : Nat) : Prompt (s.pwmClear n) := by
  unfold State.pwmClear State.clearBy
  split
  · exact ⟨Status.noConfusion⟩
  · split
    · exact ⟨Status.noConfusion⟩
    · exact ⟨(s.needLevel_ranked ..).ne_waits⟩

theorem State.legRelease_prompt (s : State) (n l : Nat) (value mask : Word) :
    Prompt (s.legRelease n l value mask) := by
  unfold State.legRelease
  dsimp only
  split
  · exact ⟨Status.noConfusion⟩
  · exact ⟨Status.worst_ne_waits _ (s.judgeWord_ne_waits n (R.PWM_LEG_STAT l) value mask)⟩

theorem State.cfgCmd_prompt (s : State) (n : Nat) (value mask : Word) (img : Option Image) :
    Prompt (s.cfgCmd n value mask img) := by
  unfold State.cfgCmd
  dsimp only
  split
  · exact ⟨Status.noConfusion⟩
  · exact s.writeIf_prompt ..

/-! ### The writes of the other domains that act -/

theorem State.calDateWrite_prompt (s : State) (n : Nat) (value mask : Word) :
    Prompt (s.calDateWrite n value mask) := by
  unfold State.calDateWrite
  split
  · exact ⟨Status.noConfusion⟩
  · exact ⟨s.writeReg_ne_waits n R.RTC_CAL_DATE value mask⟩

theorem State.calTimeWrite_prompt (s : State) (n : Nat) (value mask : Word) :
    Prompt (s.calTimeWrite n value mask) := by
  unfold State.calTimeWrite
  dsimp only
  split
  · split <;> exact ⟨Status.noConfusion⟩
  · exact ⟨Status.worst_ne_waits _ (s.writeReg_ne_waits n R.RTC_CAL_TIME value mask)⟩

theorem State.pwrRefuse_ne_waits {s : State} {d target : Nat} {p : Status × Nat × Nat}
    (h : s.pwrRefuse d target = some p) : p.1 ≠ .waits := by
  unfold State.pwrRefuse at h
  have hst {st : Status} {v : Nat × Nat} (h : some (st, v) = some p) (hne : st ≠ .waits) : p.1 ≠ .waits :=
    congrArg Prod.fst (Option.some.inj h) ▸ hne
  split at h
  · exact hst h nofun
  split at h
  · exact hst h nofun
  split at h
  · exact nomatch h
  split at h
  · exact hst h nofun
  split at h
  · exact nomatch h
  split at h
  · split at h
    · exact hst h nofun
    · obtain ⟨e, -, he⟩ := Option.map_eq_some_iff.mp h
      exact hst (congrArg some he) nofun
  split at h
  · exact nomatch h
  split at h
  · exact hst h nofun
  split at h
  · exact hst h nofun
  · exact nomatch h

theorem State.pwrReq_prompt (s : State) (n : Nat) (value mask : Word) : Prompt (s.pwrReq n value mask) := by
  unfold State.pwrReq
  dsimp only
  split
  · split
    · rename_i h; exact ⟨State.pwrRefuse_ne_waits h⟩
    · exact s.writeThen_prompt ..
  · split <;> exact ⟨Status.noConfusion⟩
  · exact ⟨s.judgeWord_ne_waits n R.PWR_REQ value mask⟩

theorem State.keyWrite_prompt (s : State) (n w : Nat) (value mask : Word) :
    Prompt (s.keyWrite n w value mask) := by
  unfold State.keyWrite
  split
  · exact ⟨Status.noConfusion⟩
  · exact ⟨s.judgeWord_ne_waits n (R.ACC_KEY_DATA w) value mask⟩

theorem State.cmpStatWrite_prompt (s : State) (n c : Nat) (value mask : Word) :
    Prompt (s.cmpStatWrite n c value mask) := by
  unfold State.cmpStatWrite
  dsimp only
  split
  · exact ⟨Status.noConfusion⟩
  · exact ⟨Status.worst_ne_waits _ (s.judgeWord_ne_waits n (R.CMP_STAT c) value mask)⟩

theorem State.legCtrlWrite_prompt (s : State) (n l : Nat) (value mask : Word) :
    Prompt (s.legCtrlWrite n l value mask) := by
  unfold State.legCtrlWrite
  split
  · exact s.writeReg_prompt ..
  · split
    · exact s.writeThen_prompt ..
    · exact s.writeThen_prompt ..

theorem State.xspiGo_prompt (s : State) (n : Nat) (value mask : Word) (ok : Bool) (data : List Byte) :
    Prompt (s.xspiGo n value mask ok data) := by
  unfold State.xspiGo
  dsimp only
  split
  · split
    · unfold State.xspiSent
      dsimp only
      split
      · exact ⟨Status.noConfusion⟩
      · split <;> exact ⟨Status.noConfusion⟩
    · exact ⟨Status.noConfusion⟩
  · exact ⟨Status.worst_ne_waits _ (s.judgeWord_ne_waits n R.XSPI_CMD_GO value mask)⟩

theorem State.loWrite_prompt (s : State) (n : Nat) (r : Reg) (value mask : Word) :
    Prompt (s.loWrite n r value mask) := by
  unfold State.loWrite
  split
  · exact ⟨Status.noConfusion⟩
  · exact ⟨s.judgeWord_ne_waits n r value mask⟩

theorem State.hiWrite_prompt (s : State) (n : Nat) (r : Reg) (value mask : Word) :
    Prompt (s.hiWrite n r value mask) := by
  unfold State.hiWrite
  dsimp only
  split
  · exact s.writeReg_prompt ..
  · split
    · exact ⟨Status.noConfusion⟩
    · exact ⟨Status.worst_ne_waits _ (s.judgeWord_ne_waits n _ _ _)⟩

/-! ### Every write -/

/-- The outcome of a write: where it waits, nothing has changed. -/
def WaitsStill (s : State) (p : Status × State) : Prop := p.1 = .waits → p.2 = s

theorem Prompt.waitsStill {s : State} {p : Status × State} (h : Prompt p) : WaitsStill s p :=
  fun g => absurd g h.ne_waits

theorem WaitsStill.ite {s : State} {c : Prop} [Decidable c] {x p : Status × State} {rest : Option (Status × State)}
    (g : (if c then some x else rest) = some p) (hx : WaitsStill s x) (hrest : rest = some p → WaitsStill s p) :
    WaitsStill s p := by
  split at g
  · obtain rfl := Option.some.inj g; exact hx
  · exact hrest g

theorem State.actVote_waitsStill {s : State} {n : Nat} {r : Reg} {value mask : Word} {e : AccEnv} {p : Status × State}
    (h : s.actVote n r value mask e = some p) : WaitsStill s p := by
  unfold State.actVote at h
  exact .ite h (s.writeIf_prompt ..).waitsStill fun h =>
    .ite h (s.writeThen_prompt ..).waitsStill fun h =>
    .ite h State.cellCmdNow_waits fun h =>
    .ite h (s.pwmClear_prompt ..).waitsStill fun h =>
    .ite h (s.legRelease_prompt ..).waitsStill fun h =>
    .ite h (s.writeIf_prompt ..).waitsStill fun h =>
    .ite h (s.writeIf_prompt ..).waitsStill fun h =>
    .ite h (s.writeIf_prompt ..).waitsStill fun h =>
    .ite h (s.writeThen_prompt ..).waitsStill fun h =>
    .ite h (s.writeIf_prompt ..).waitsStill fun h =>
    .ite h (s.cfgCmd_prompt ..).waitsStill nofun

theorem State.actSide_waitsStill {s : State} {n : Nat} {r : Reg} {value mask : Word} {e : AccEnv} {p : Status × State}
    (h : s.actSide n r value mask e = some p) : WaitsStill s p := by
  unfold State.actSide at h
  exact .ite h (s.writeThen_prompt ..).waitsStill fun h =>
    .ite h (s.writeIf_prompt ..).waitsStill fun h =>
    .ite h (s.writeIf_prompt ..).waitsStill fun h =>
    .ite h (s.calDateWrite_prompt ..).waitsStill fun h =>
    .ite h (s.calTimeWrite_prompt ..).waitsStill fun h =>
    .ite h (s.pwrReq_prompt ..).waitsStill fun h =>
    .ite h (s.writeIf_prompt ..).waitsStill fun h =>
    .ite h (s.writeIf_prompt ..).waitsStill fun h =>
    .ite h (s.writeIf_prompt ..).waitsStill fun h =>
    .ite h (s.keyWrite_prompt ..).waitsStill fun h =>
    .ite h (s.writeIf_prompt ..).waitsStill fun h =>
    .ite h (s.writeThen_prompt ..).waitsStill fun h =>
    .ite h (s.cmpStatWrite_prompt ..).waitsStill fun h =>
    .ite h (s.legCtrlWrite_prompt ..).waitsStill fun h =>
    .ite h (s.writeIf_prompt ..).waitsStill fun h =>
    .ite h (s.writeThen_prompt ..).waitsStill fun h =>
    .ite h (s.xspiGo_prompt ..).waitsStill nofun

theorem State.writeAny_waits {s : State} {n addr : Nat} {value mask : Word} {e : AccEnv}
    (h : (s.writeAny n addr value mask e).1 = .waits) : (s.writeAny n addr value mask e).2 = s := by
  revert h
  change WaitsStill s _
  unfold State.writeAny
  split
  · split <;> exact Prompt.waitsStill ⟨Status.noConfusion⟩
  · split
    · unfold State.writeAt
      split
      · rename_i hv; exact State.actVote_waitsStill hv
      · split
        · rename_i hs; exact State.actSide_waitsStill hs
        · split
          · exact (s.loWrite_prompt ..).waitsStill
          · split
            · exact (s.hiWrite_prompt ..).waitsStill
            · exact (s.writeReg_prompt ..).waitsStill
    · exact Prompt.waitsStill ⟨Status.noConfusion⟩

end Sys2Proof.Machine
end

section
/-! The request of a session: what is answered before it is executed, and how its answer is sent (R462–R466). -/

namespace Sys2Proof.Machine

/-- R462: the reply to a request, with no body yet. -/
def replyTo (h : MHead) (ver op : Nat) (st : Status) : Reply :=
  { ver := ver, op := op, session := h.session, status := st, tag := h.tag, seq := h.seq, more := false, body := [] }

/-- R463, R465: the state that knows of a request of an open session: an unread I²C reply is given up, and the idle time
starts anew. -/
def State.noted (s : State) (h : MHead) : State :=
  (s.newFrame h.i2c).setSess h.session { s.sess h.session with lastAt := s.now }

@[simp] theorem State.newFrame_sess (s : State) (i2c : Bool) (n : Nat) : (s.newFrame i2c).sess n = s.sess n := by
  unfold State.newFrame
  split <;> rfl

@[simp] theorem State.newFrame_lastReply (s : State) (i2c : Bool) :
    (s.newFrame i2c).mgmt.lastReply = s.mgmt.lastReply := by
  unfold State.newFrame
  split <;> rfl

@[simp] theorem State.sendReply_sess (s : State) (i2c : Bool) (r : Reply) (n : Nat) :
    (s.sendReply i2c r).sess n = s.sess n := rfl

@[simp] theorem State.sendReply_lastReply (s : State) (i2c : Bool) (r : Reply) :
    (s.sendReply i2c r).mgmt.lastReply = some r := rfl

@[simp] theorem State.setSess_lastReply (s : State) (n : Nat) (x : Session) :
    (s.setSess n x).mgmt.lastReply = s.mgmt.lastReply := rfl

theorem State.noted_sess_other (s : State) (h : MHead) {k : Nat} (hk : k ≠ h.session) : (s.noted h).sess k = s.sess k := by
  rw [State.noted, State.setSess_sess_other _ _ _ _ hk, State.newFrame_sess]

theorem State.asked_eq (s : State) (h : MHead) :
    s.asked h = (s.noted h).setSess h.session { (s.noted h).sess h.session with seq := h.seq } := by
  have hsess : s.sess h.session = (s.newFrame h.i2c).sess h.session := (s.newFrame_sess ..).symm
  rw [State.noted, hsess]
  rfl

theorem State.asked_sess_other (s : State) (h : MHead) {k : Nat} (hk : k ≠ h.session) : (s.asked h).sess k = s.sess k := by
  rw [State.asked_eq, State.setSess_sess_other _ _ _ _ hk, State.noted_sess_other _ _ hk]

theorem State.asked_lastReply (s : State) (h : MHead) : (s.asked h).mgmt.lastReply = s.mgmt.lastReply := by
  rw [State.asked_eq, State.setSess_lastReply, State.noted, State.setSess_lastReply, State.newFrame_lastReply]

/-! ### Frames -/

theorem State.Frame.newFrame {a b : State} {fs : List Fld} {ps : List Part} (h : a.Frame b fs ps) (i2c : Bool)
    (hl : Part.mgmt ∈ ps) : a.Frame (b.newFrame i2c) fs ps := by
  unfold State.newFrame
  split
  · exact h.setMgmt _ hl
  · exact h

theorem State.Frame.sendReply {a b : State} {fs : List Fld} {ps : List Part} (h : a.Frame b fs ps) (i2c : Bool) (r : Reply)
    (hl : Part.mgmt ∈ ps) : a.Frame (b.sendReply i2c r) fs ps := h.setMgmt _ hl

theorem State.Frame.noted {a b : State} {fs : List Fld} {ps : List Part} (h : a.Frame b fs ps) (m : MHead)
    (hl : Part.mgmt ∈ ps) : a.Frame (b.noted m) fs ps := (h.newFrame _ hl).setSess _ _ hl

theorem State.Frame.asked {a b : State} {fs : List Fld} {ps : List Part} (h : a.Frame b fs ps) (m : MHead)
    (hl : Part.mgmt ∈ ps) : a.Frame (b.asked m) fs ps := by
  rw [State.asked_eq]
  exact (h.noted m hl).setSess _ _ hl

theorem State.Frame.badFrame {a b : State} {fs : List Fld} {ps : List Part} (h : a.Frame b fs ps) (hf : logFld ∈ fs)
    (hm : Part.mgmt ∈ ps) (hl : Part.log ∈ ps) : a.Frame b.badFrame fs ps := by
  unfold State.badFrame
  dsimp only
  split
  · exact ((h.setMgmt _ hm).setLog _ hl).event _ _ _ hf hl
  · exact h.setMgmt _ hm

/-- R462: a discarded frame is counted; nothing else of the protocol changes. -/
theorem State.badFrame_mgmt (s : State) :
    s.badFrame.mgmt = { s.mgmt with badFrames := satN 65535 (s.mgmt.badFrames + 1) } := by
  unfold State.badFrame
  dsimp only
  split
  · rw [State.event_mgmt]; rfl
  · rfl

/-! ### What a request is answered -/

section
variable {s : State} {h : MHead} {op : Nat} {two : Bool} {body : List Byte} {f : State → Nat → Answer}

theorem State.request_unserved (hs : s.served h.i2c = false) : s.request h op two body f = s := by
  unfold State.request
  rw [hs]
  rfl

theorem State.request_long (hs : s.served h.i2c = true) (hb : maxBody h.i2c < body.length) :
    s.request h op two body f = (s.newFrame h.i2c).badFrame := by
  unfold State.request
  rw [hs, if_neg (by decide), if_pos hb]

/-- R464: no session is open under the number. -/
theorem State.request_shut (hs : s.served h.i2c = true) (hb : body.length ≤ maxBody h.i2c)
    (hx : 8 ≤ h.session ∨ (s.sess h.session).active = false) : s.request h op two body f =
      (s.newFrame h.i2c).sendReply h.i2c (replyTo h (s.sess h.session).major op .badValue) := by
  unfold State.request
  dsimp only
  rw [hs, if_neg (by decide), if_neg (Nat.not_lt.mpr hb), State.newFrame_sess, if_pos (hx.imp_right (by simp))]
  rfl

/-- R464: the request comes from another sender. -/
theorem State.request_unbound (hs : s.served h.i2c = true) (hb : body.length ≤ maxBody h.i2c) (hn : h.session < 8)
    (ha : (s.sess h.session).active = true)
    (hx : (s.sess h.session).port ≠ b2n h.i2c ∨ (s.sess h.session).bind ≠ h.bind) : s.request h op two body f =
      (s.newFrame h.i2c).sendReply h.i2c (replyTo h (s.sess h.session).major op .accessDenied) := by
  unfold State.request
  dsimp only
  rw [hs, if_neg (by decide), if_neg (Nat.not_lt.mpr hb), State.newFrame_sess, if_neg (by simp [ha]; omega), if_pos hx]
  rfl

/-- R462–R464: the request is served, fits, and comes from the sender to which its open session is bound. -/
structure State.Bound (s : State) (h : MHead) (body : List Byte) : Prop where
  served : s.served h.i2c = true
  fits   : body.length ≤ maxBody h.i2c
  lt     : h.session < 8
  active : (s.sess h.session).active = true
  port   : (s.sess h.session).port = b2n h.i2c
  bind   : (s.sess h.session).bind = h.bind

/-- R465: the last request of the session still executes. -/
theorem State.request_busy (hb : s.Bound h body) (hbusy : s.busySess h.session = true) : s.request h op two body f =
    if h.seq = (s.sess h.session).seq then s.noted h
    else (s.noted h).sendReply h.i2c (replyTo h (s.sess h.session).major op
      (if h.seq = ((s.sess h.session).seq + 1) % 2 ^ 32 then .busy else .badValue)) := by
  unfold State.request
  dsimp only
  rw [hb.served, if_neg (by decide), if_neg (Nat.not_lt.mpr hb.fits), State.newFrame_sess,
    if_neg (by simp [hb.active]; exact hb.lt), if_neg (by simp [hb.port, hb.bind]), hbusy]
  rfl

/-- R465: a retransmission: the stored reply is sent again. -/
theorem State.request_repeat (hb : s.Bound h body) (hbusy : s.busySess h.session = false) {r : Reply}
    (hseq : h.seq = (s.sess h.session).seq) (hr : (s.sess h.session).reply = some r) :
    s.request h op two body f = (s.noted h).sendReply h.i2c r := by
  unfold State.request
  dsimp only
  rw [hb.served, if_neg (by decide), if_neg (Nat.not_lt.mpr hb.fits), State.newFrame_sess,
    if_neg (by simp [hb.active]; exact hb.lt), if_neg (by simp [hb.port, hb.bind]), hbusy,
    if_neg Bool.false_ne_true, hr]
  dsimp only
  rw [if_pos hseq, ← hr]
  rfl

/-- R464: a SEQ that is neither the last one, with its reply stored, nor the next one. -/
theorem State.request_badSeq (hb : s.Bound h body) (hbusy : s.busySess h.session = false)
    (hseq : h.seq ≠ ((s.sess h.session).seq + 1) % 2 ^ 32)
    (hr : (s.sess h.session).reply = none ∨ h.seq ≠ (s.sess h.session).seq) : s.request h op two body f =
      (s.noted h).sendReply h.i2c (replyTo h (s.sess h.session).major op .badValue) := by
  unfold State.request
  dsimp only
  rw [hb.served, if_neg (by decide), if_neg (Nat.not_lt.mpr hb.fits), State.newFrame_sess,
    if_neg (by simp [hb.active]; exact hb.lt), if_neg (by simp [hb.port, hb.bind]), hbusy,
    if_neg Bool.false_ne_true]
  cases hrep : (s.sess h.session).reply with
  | none =>
    dsimp only
    rw [if_pos hseq, ← hrep]
    rfl
  | some r =>
    rw [hrep] at hr
    dsimp only
    rw [if_neg (hr.resolve_left nofun), if_pos hseq, ← hrep]
    rfl

/-- R464, R465: a new request is executed in the state that has taken its SEQ. -/
theorem State.request_fresh (hf : s.fresh h body) : s.request h op false body f =
    (f (s.asked h) h.session).close h h.session (replyTo h (s.sess h.session).major op .version) := by
  obtain ⟨hs, hb, hn, ha, hp, hi, hseq, hbusy⟩ := hf
  have hrun : State.request.run h false (s.noted h) h.session (replyTo h (s.sess h.session).major op .version) f =
      (f (s.asked h) h.session).close h h.session (replyTo h (s.sess h.session).major op .version) := by
    rw [State.asked_eq]
    rfl
  rw [← hrun]
  unfold State.request
  dsimp only
  rw [hs, if_neg (by decide), if_neg (Nat.not_lt.mpr hb), State.newFrame_sess, if_neg (by simp [ha]; exact hn),
    if_neg (by simp [hp, hi]), hbusy, if_neg Bool.false_ne_true]
  cases hrep : (s.sess h.session).reply with
  | none =>
    dsimp only
    rw [if_neg (fun g => g hseq), ← hrep]
    rfl
  | some r =>
    dsimp only
    rw [if_neg (by omega), if_neg (fun g => g hseq), ← hrep]
    rfl

end

/-! ### The answer of an executed request -/

section
variable {a : Answer} (h : MHead) (ver op : Nat) (st : Status)

theorem Answer.close_replied (ha : a.status ≠ .waits) :
    (a.close h h.session (replyTo h ver op st)).replied h op a.status a.more a.body := by
  unfold Answer.close
  rw [if_neg ha]
  exact ⟨ver, rfl⟩

theorem Answer.close_sess_other (n : Nat) (r : Reply) {k : Nat} (hk : k ≠ n) : (a.close h n r).sess k = a.state.sess k := by
  unfold Answer.close
  split
  · exact State.setSess_sess_other _ _ _ _ hk
  · exact State.setSess_sess_other _ _ _ _ hk

theorem Answer.close_frame {b : State} {fs : List Fld} {ps : List Part} (ha : b.Frame a.state fs ps) (n : Nat) (r : Reply)
    (hl : Part.mgmt ∈ ps) : b.Frame (a.close h n r) fs ps := by
  unfold Answer.close
  split
  · exact ha.setSess _ _ hl
  · exact (ha.setSess _ _ hl).sendReply _ _ hl

theorem Answer.close_regs (n : Nat) (r : Reply) : (a.close h n r).regs = a.state.regs := by
  unfold Answer.close
  split <;> rfl

end

end Sys2Proof.Machine
end

section
/-! Numbers as bytes, the items of a body, and where the windows lie (R10, R462, R466, R473, R479). -/

namespace Sys2Proof.Machine

/-! ### Numbers as bytes -/

@[simp] theorem length_leBytes (n v : Nat) : (leBytes n v).length = n := by
  induction n generalizing v with
  | zero => rfl
  | succ n ih => simp [leBytes, ih]

theorem leValue_leBytes (n v : Nat) : leValue (leBytes n v) = v % 256 ^ n := by
  induction n generalizing v with
  | zero => simp [leBytes, leValue, Nat.mod_one]
  | succ n ih => rw [leBytes, leValue, ih, Nat.pow_succ', Nat.mod_mul, BitVec.toNat_ofNat]

theorem leAt_leBytes (n v : Nat) (r : List Byte) : leAt (leBytes n v ++ r) 0 n = v % 256 ^ n := by
  rw [leAt, bytesAt, List.drop_zero, List.take_left' (length_leBytes n v), leValue_leBytes]

theorem bytesAt_append {a : List Byte} {k : Nat} (h : a.length ≤ k) (r : List Byte) (n : Nat) :
    bytesAt (a ++ r) k n = bytesAt r (k - a.length) n := by
  rw [bytesAt, bytesAt, List.drop_append, List.drop_eq_nil_of_le h, List.nil_append]

theorem leAt_append {a : List Byte} {k : Nat} (h : a.length ≤ k) (r : List Byte) (n : Nat) :
    leAt (a ++ r) k n = leAt r (k - a.length) n := by
  rw [leAt, bytesAt_append h, leAt]

theorem ofNat_toNat_mod (w : Word) : BitVec.ofNat 32 (w.toNat % 256 ^ 4) = w := by
  rw [Nat.mod_eq_of_lt (show w.toNat < 256 ^ 4 from w.isLt), BitVec.ofNat_toNat, BitVec.setWidth_eq]

/-! ### Items -/

/-- The first item of a body stands before the items of the rest. -/
theorem parts_append {n : Nat} (hn : 0 < n) {p : List Byte} (hp : p.length = n) (r : List Byte) :
    parts n (p ++ r) = p :: parts n r := by
  have hlen : (p ++ r).length / n = r.length / n + 1 := by
    rw [List.length_append, hp, Nat.add_comm, Nat.add_div_right _ hn]
  have hfirst : bytesAt (p ++ r) (n * 0) n = p := by
    rw [bytesAt, Nat.mul_zero, List.drop_zero, List.take_left' hp]
  have hrest (k : Nat) : bytesAt (p ++ r) (n * (k + 1)) n = bytesAt r (n * k) n := by
    have hle : p.length ≤ n * (k + 1) := by rw [hp]; exact Nat.le_mul_of_pos_right _ (Nat.succ_pos k)
    rw [bytesAt_append hle, hp, Nat.mul_succ, Nat.add_sub_cancel]
  rw [parts, hlen, List.range_succ_eq_map, List.map_cons, List.map_map, hfirst]
  exact congrArg (p :: ·) (List.map_congr_left fun k _ => hrest k)

theorem length_parts (n : Nat) (b : List Byte) : (parts n b).length = b.length / n := by
  rw [parts, List.length_map, List.length_range]

theorem itemsOk_iff {n : Nat} (hn : 0 < n) (b : List Byte) :
    itemsOk n b = true ↔ b.length % n = 0 ∧ 0 < b.length ∧ b.length ≤ 32 * n := by
  have hdiv := Nat.div_add_mod b.length n
  simp only [itemsOk, Bool.and_eq_true, beq_iff_eq, decide_eq_true_eq]
  constructor
  · rintro ⟨⟨hm, h1⟩, h2⟩
    have hlow := Nat.mul_le_mul_left n h1
    have hhigh := Nat.mul_le_mul_left n h2
    omega
  · rintro ⟨hm, h1, h2⟩
    exact ⟨⟨hm, Nat.div_pos (Nat.le_of_dvd h1 (Nat.dvd_of_mod_eq_zero hm)) hn⟩, Nat.div_le_of_le_mul (by omega)⟩

theorem itemsOk_eq_false {n : Nat} (hn : 0 < n) {b : List Byte}
    (h : b.length % n ≠ 0 ∨ b.length = 0 ∨ 32 * n < b.length) : itemsOk n b = false := by
  rw [Bool.eq_false_iff, Ne, itemsOk_iff hn]
  omega

/-- R466: an item of a WRITE: address, value and mask. -/
def writeItem (addr : Nat) (value mask : Word) : List Byte :=
  leBytes 4 addr ++ leBytes 4 value.toNat ++ leBytes 4 mask.toNat

theorem length_writeItem (addr : Nat) (value mask : Word) : (writeItem addr value mask).length = 12 := by
  simp [writeItem]

theorem writeItem_addr {addr : Nat} (h : addr < 2 ^ 32) (value mask : Word) :
    leAt (writeItem addr value mask) 0 4 = addr := by
  rw [writeItem, List.append_assoc, leAt_leBytes]
  exact Nat.mod_eq_of_lt h

theorem writeItem_value (addr : Nat) (value mask : Word) :
    BitVec.ofNat 32 (leAt (writeItem addr value mask) 4 4) = value := by
  rw [writeItem, List.append_assoc, leAt_append (by simp), length_leBytes, leAt_leBytes, ofNat_toNat_mod]

theorem writeItem_mask (addr : Nat) (value mask : Word) :
    BitVec.ofNat 32 (leAt (writeItem addr value mask) 8 4) = mask := by
  have hb := leAt_leBytes 4 mask.toNat []
  rw [List.append_nil] at hb
  rw [writeItem, leAt_append (by simp), List.length_append, length_leBytes, length_leBytes, hb,
    ofNat_toNat_mod]

/-! ### Registers lie below the windows -/

/-- The first address above the registers of a row. -/
def RegRow.limit (x : RegRow) : Nat :=
  x.base + if x.s0 ≠ 0 then x.n0 * x.s0 else if x.s1 ≠ 0 then x.n1 * x.s1 else 1

theorem RegRow.lt_limit {x : RegRow} {addr : Nat} {r : Reg} (h : x.find addr = some r) : addr < x.limit := by
  unfold RegRow.find at h
  by_cases hbase : addr < x.base
  · rw [if_pos hbase] at h
    exact nomatch h
  · rw [if_neg hbase] at h
    obtain ⟨⟨hi, hj, ho⟩, -⟩ := Option.ite_none_right_eq_some.mp h
    unfold RegRow.limit
    by_cases h0 : x.s0 = 0
    · rw [if_neg (fun g => g h0)]
      simp only [h0, if_true] at hj ho
      by_cases h1 : x.s1 = 0
      · rw [if_pos h1] at ho
        rw [if_neg (fun g => g h1)]
        omega
      · rw [if_neg h1, Nat.div_lt_iff_lt_mul (Nat.pos_of_ne_zero h1)] at hj
        rw [if_pos h1]
        omega
    · rw [if_neg h0, Nat.div_lt_iff_lt_mul (Nat.pos_of_ne_zero h0)] at hi
      rw [if_pos h0]
      omega

theorem findRow_find {l : List RegRow} {addr : Nat} {x : RegRow} {r : Reg} (h : findRow l addr = some (x, r)) :
    x ∈ l ∧ x.find addr = some r := by
  induction l with
  | nil => exact nomatch h
  | cons y l ih =>
    unfold findRow at h
    split at h
    · rename_i g hg
      obtain ⟨rfl, rfl⟩ := Prod.mk.inj (Option.some.inj h)
      exact ⟨List.mem_cons_self .., hg⟩
    · exact (ih h).imp_left (List.mem_cons_of_mem _)

theorem limit_le_windows : ∀ x ∈ regRows, x.limit ≤ 0x10000000 := by decide +kernel

theorem decodeAddr_eq_none_of_window {addr : Nat} (h : (windowOf addr).isSome = true) : decodeAddr addr = none := by
  have hge : 0x10000000 ≤ addr := by
    refine Nat.not_lt.mp fun hlt => ?_
    unfold windowOf at h
    rw [if_neg (by omega), if_neg (by omega), if_neg (by omega), if_neg (by omega)] at h
    exact Bool.noConfusion h
  cases hd : decodeAddr addr with
  | none => rfl
  | some p =>
    unfold decodeAddr at hd
    split at hd
    · obtain ⟨hmem, hfind⟩ := findRow_find (x := p.1) (r := p.2) hd
      exact absurd (limit_le_windows _ hmem) (by have := RegRow.lt_limit hfind; omega)
    · exact nomatch hd

theorem decodeAddr_aligned {addr : Nat} (h : decodeAddr addr ≠ none) : addr % 4 = 0 := by
  unfold decodeAddr at h
  exact Decidable.byContradiction fun hne => h (if_neg hne)

end Sys2Proof.Machine
end

section
/-! READ, WRITE and READ_BLOCK (R466, R473), and what every request of a session meets first (R464, R465). -/

namespace Sys2Proof.Machine

/-- The command sends one reply, without MORE, and does nothing else: no other session, part or register changes. -/
def OnlyReplies (s : State) (h : MHead) (c : Instr) (op : Nat) (st : Status) (b : List Byte) : Prop :=
  Effect c s [] [.mgmt] fun s' => s'.replied h op st false b ∧ ∀ k < 8, k ≠ h.session → s'.sess k = s.sess k

/-- The command is a request of a session, for some operation. -/
def Requests (s : State) (t : Nat) (h : MHead) (body : List Byte) (op : Nat) (c : Instr) : Prop :=
  c.instant = t ∧ ∃ two f, exec c s = .next ((s.advance t).request h op two body f)

theorem satN_eq_min (hi x : Nat) : satN hi x = min hi x := by
  unfold satN
  split <;> omega

/-! ### Before the request is executed -/

section
variable {s : State} {t : Nat} {h : MHead} {body : List Byte} {op : Nat} {c : Instr}

theorem Requests.effect {fs : List Fld} {ps : List Part} {P : State → Prop} {x : State} (hc : Requests s t h body op c)
    (hx : ∀ two f, (s.advance t).request h op two body f = x) (hframe : (s.advance t).Frame x fs ps) (hp : P x) :
    Effect c s fs ps P := by
  obtain ⟨rfl, two, f, hexec⟩ := hc
  exact ⟨x, hexec.trans (congrArg _ (hx two f)), hframe, hp⟩

theorem Requests.onlyReplies {x : State} {ver : Nat} {st : Status} (hc : Requests s t h body op c)
    (hx : ∀ two f, (s.advance t).request h op two body f = x.sendReply h.i2c (replyTo h ver op st))
    (hframe : (s.advance t).Frame x [] [.mgmt]) (hsess : ∀ k, k ≠ h.session → x.sess k = s.sess k) :
    OnlyReplies s h c op st [] :=
  hc.effect hx (hframe.sendReply _ _ (by decide)) ⟨⟨ver, rfl⟩, fun k _ hk => hsess k hk⟩

theorem Requests.unserved (hc : Requests s t h body op c) (hs : s.served h.i2c = false) :
    Effect c s [] [] fun _ => True :=
  hc.effect (fun _ _ => State.request_unserved (s := s.advance t) hs) (.refl ..) trivial

theorem Requests.long (hc : Requests s t h body op c) (hs : s.served h.i2c = true)
    (hb : maxBody h.i2c < body.length) : Effect c s [logFld] [.mgmt, .log] fun s' =>
      s'.mgmt.badFrames = min 65535 (s.mgmt.badFrames + 1) ∧ s'.mgmt.sess = s.mgmt.sess ∧
      s'.mgmt.lastReply = s.mgmt.lastReply := by
  have hframe : (s.advance t).Frame (s.advance t) [logFld] [.mgmt, .log] := .refl ..
  refine hc.effect (fun _ _ => State.request_long (s := s.advance t) hs hb)
    ((hframe.newFrame _ (by decide)).badFrame (by decide) (by decide) (by decide)) ?_
  rw [State.badFrame_mgmt]
  have hnew : ((s.advance t).newFrame h.i2c).mgmt.badFrames = s.mgmt.badFrames ∧
      ((s.advance t).newFrame h.i2c).mgmt.sess = s.mgmt.sess := by
    unfold State.newFrame
    split <;> exact ⟨rfl, rfl⟩
  refine ⟨?_, hnew.2, State.newFrame_lastReply ..⟩
  rw [← satN_eq_min, ← hnew.1]

theorem Requests.shut (hc : Requests s t h body op c) (hs : s.served h.i2c = true) (hb : body.length ≤ maxBody h.i2c)
    (hx : 8 ≤ h.session ∨ (s.sess h.session).active = false) : OnlyReplies s h c op .badValue [] :=
  hc.onlyReplies (fun _ _ => State.request_shut (s := s.advance t) hs hb hx)
    (State.Frame.newFrame (.refl ..) _ (by decide)) fun k _ => State.newFrame_sess ..

theorem Requests.unbound (hc : Requests s t h body op c) (hs : s.served h.i2c = true) (hb : body.length ≤ maxBody h.i2c)
    (hn : h.session < 8) (ha : (s.sess h.session).active = true)
    (hx : (s.sess h.session).port ≠ b2n h.i2c ∨ (s.sess h.session).bind ≠ h.bind) :
    OnlyReplies s h c op .accessDenied [] :=
  hc.onlyReplies (fun _ _ => State.request_unbound (s := s.advance t) hs hb hn ha hx)
    (State.Frame.newFrame (.refl ..) _ (by decide)) fun k _ => State.newFrame_sess ..

theorem State.Bound.advance (hb : s.Bound h body) (t : Nat) : (s.advance t).Bound h body :=
  ⟨hb.served, hb.fits, hb.lt, hb.active, hb.port, hb.bind⟩

theorem Requests.busyRepeat (hc : Requests s t h body op c) (hb : s.Bound h body)
    (hbusy : s.busySess h.session = true) (hseq : h.seq = (s.sess h.session).seq) :
    Effect c s [] [.mgmt] fun s' => s'.mgmt.lastReply = s.mgmt.lastReply ∧
      ∀ k < 8, k ≠ h.session → s'.sess k = s.sess k :=
  hc.effect (fun _ _ => (State.request_busy (hb.advance t) hbusy).trans (if_pos hseq))
    (State.Frame.noted (.refl ..) _ (by decide))
    ⟨State.newFrame_lastReply .., fun _ _ hk => State.noted_sess_other _ _ hk⟩

theorem Requests.busyOther (hc : Requests s t h body op c) (hb : s.Bound h body)
    (hbusy : s.busySess h.session = true) (hseq : h.seq ≠ (s.sess h.session).seq) :
    OnlyReplies s h c op (if h.seq = ((s.sess h.session).seq + 1) % 2 ^ 32 then .busy else .badValue) [] :=
  hc.onlyReplies (fun _ _ => (State.request_busy (hb.advance t) hbusy).trans (if_neg hseq))
    (State.Frame.noted (.refl ..) _ (by decide)) fun _ hk => State.noted_sess_other _ _ hk

theorem Requests.again (hc : Requests s t h body op c) (hb : s.Bound h body) (hbusy : s.busySess h.session = false)
    {r : Reply} (hseq : h.seq = (s.sess h.session).seq) (hr : (s.sess h.session).reply = some r) :
    Effect c s [] [.mgmt] fun s' => s'.mgmt.lastReply = some r ∧ ∀ k < 8, k ≠ h.session → s'.sess k = s.sess k :=
  hc.effect (fun _ _ => State.request_repeat (hb.advance t) hbusy hseq hr)
    ((State.Frame.noted (.refl ..) _ (by decide)).sendReply _ _ (by decide))
    ⟨rfl, fun _ _ hk => State.noted_sess_other _ _ hk⟩

theorem Requests.badSeq (hc : Requests s t h body op c) (hb : s.Bound h body) (hbusy : s.busySess h.session = false)
    (hseq : h.seq ≠ ((s.sess h.session).seq + 1) % 2 ^ 32)
    (hr : (s.sess h.session).reply = none ∨ h.seq ≠ (s.sess h.session).seq) : OnlyReplies s h c op .badValue [] :=
  hc.onlyReplies (fun _ _ => State.request_badSeq (hb.advance t) hbusy hseq hr)
    (State.Frame.noted (.refl ..) _ (by decide)) fun _ hk => State.noted_sess_other _ _ hk

end

/-! ### The answer of an operation -/

section
variable {s : State} {t : Nat} {h : MHead} {body : List Byte} {op : Nat} {c : Instr} {f : State → Nat → Answer}

theorem exec_fresh (hx : exec c s = .next ((s.advance t).request h op false body f)) (hf : s.fresh h body) :
    exec c s = .next ((f ((s.advance t).asked h) h.session).close h h.session
      (replyTo h (s.sess h.session).major op .version)) :=
  hx.trans (congrArg _ (State.request_fresh (s := s.advance t) hf))

/-- An operation that leaves the state alone: only its reply is formed. -/
theorem onlyReplies_of_answer {st : Status} {b : List Byte}
    (hx : exec c s = .next ((s.advance t).request h op false body f)) (hf : s.fresh h body) (ht : c.instant = t)
    (ha : f ((s.advance t).asked h) h.session = ⟨st, false, b, (s.advance t).asked h⟩) (hst : st ≠ .waits) :
    OnlyReplies s h c op st b := by
  subst ht
  refine ⟨_, exec_fresh hx hf, ?_, ?_, fun k _ hk => ?_⟩
  · rw [ha]
    exact Answer.close_frame _ (State.Frame.asked (.refl ..) _ (by decide)) _ _ (by decide)
  · rw [ha]
    exact Answer.close_replied h _ _ _ hst
  · rw [ha, Answer.close_sess_other _ _ _ hk]
    exact State.asked_sess_other _ _ hk

theorem answers_of_answer {a : Answer} (hx : exec c s = .next ((s.advance t).request h op false body f))
    (hf : s.fresh h body) (ha : f ((s.advance t).asked h) h.session = a) (hst : a.status ≠ .waits) :
    Answers c s fun s' => s'.replied h op a.status a.more a.body ∧ s'.regs = a.state.regs := by
  refine ⟨_, exec_fresh hx hf, ?_, ?_⟩
  · rw [ha]
    exact Answer.close_replied h _ _ _ hst
  · rw [ha]
    exact Answer.close_regs ..

end

/-! ### READ -/

/-- R466: one item of a READ: the bytes so far and the state, after the word, its status and three bytes of 0. -/
def readItem (n : Nat) (a : List Byte × State) (p : List Byte) : List Byte × State :=
  let r := a.2.readAny n (leAt p 0 4)
  (a.1 ++ leBytes 4 r.2.1.toNat ++ leBytes 1 r.1.code ++ leBytes 3 0, r.2.2)

theorem State.opRead_of_items {n : Nat} {body : List Byte} (s : State) (h : itemsOk 4 body = true) :
    s.opRead n body = ⟨.ok, false, ((parts 4 body).foldl (readItem n) ([], s)).1,
      ((parts 4 body).foldl (readItem n) ([], s)).2⟩ := by
  unfold State.opRead
  rw [h]
  rfl

theorem State.opRead_badCount {n : Nat} {body : List Byte} (s : State) (h : itemsOk 4 body = false) :
    s.opRead n body = ⟨.badValue, false, [], s⟩ := by
  unfold State.opRead
  rw [h]
  rfl

theorem length_foldl_readItem (n : Nat) (l : List (List Byte)) (a : List Byte × State) :
    (l.foldl (readItem n) a).1.length = a.1.length + 8 * l.length := by
  induction l generalizing a with
  | nil => rfl
  | cons p l ih =>
    rw [List.foldl_cons, ih, readItem]
    simp only [List.length_append, length_leBytes, List.length_cons]
    omega

theorem State.opRead_one {n addr : Nat} (s : State) (h : addr < 2 ^ 32) :
    s.opRead n (leBytes 4 addr) = ⟨.ok, false,
      leBytes 4 (s.readAny n addr).2.1.toNat ++ leBytes 1 (s.readAny n addr).1.code ++ [0, 0, 0],
      (s.readAny n addr).2.2⟩ := by
  have hitems : itemsOk 4 (leBytes 4 addr) = true := by rw [itemsOk_iff (by decide), length_leBytes]; decide
  have hparts : parts 4 (leBytes 4 addr) = [leBytes 4 addr] := by
    have := parts_append (n := 4) (by decide) (length_leBytes 4 addr) []
    rwa [List.append_nil] at this
  have haddr : leAt (leBytes 4 addr) 0 4 = addr := by
    have := leAt_leBytes 4 addr []
    rw [List.append_nil] at this
    exact this.trans (Nat.mod_eq_of_lt h)
  rw [State.opRead_of_items s hitems, hparts, List.foldl_cons, List.foldl_nil, readItem, haddr]
  rfl

theorem State.readAny_unmapped (s : State) (n : Nat) {addr : Nat} (hd : decodeAddr addr = none) :
    s.readAny n addr = (.badAddr, 0, s) := by
  unfold State.readAny
  rw [hd]

/-! ### WRITE -/

theorem State.opWrite_badCount {n : Nat} {body : List Byte} {e : AccEnv} {h : MHead} (s : State)
    (hi : itemsOk 12 body = false) : s.opWrite h n body e = ⟨.badValue, false, [], s⟩ := by
  unfold State.opWrite
  rw [hi]
  rfl

section
variable {s s1 : State} {h : MHead} {e : AccEnv} {n addr : Nat} {value mask : Word} {st : Status} (l : List (List Byte))
  (k : Nat)

theorem State.writeParts_ok (ha : addr < 2 ^ 32) (hw : s.writeAny n addr value mask e = (.ok, s1)) :
    State.writeParts h e n (writeItem addr value mask :: l) k s = State.writeParts h e n l (k + 1) s1 := by
  rw [State.writeParts, writeItem_addr ha, writeItem_value, writeItem_mask, hw]

theorem State.writeParts_refused (ha : addr < 2 ^ 32) (hw : s.writeAny n addr value mask e = (st, s1))
    (hok : st ≠ .ok) (hwait : st ≠ .waits) : State.writeParts h e n (writeItem addr value mask :: l) k s =
      ⟨.ok, false, leBytes 1 k ++ leBytes 1 st.code, s1⟩ := by
  rw [State.writeParts, writeItem_addr ha, writeItem_value, writeItem_mask, hw]
  split
  · rename_i h1; exact absurd (congrArg Prod.fst h1) hok
  · rename_i h1; exact absurd (congrArg Prod.fst h1) hwait
  · rename_i h1; obtain ⟨rfl, rfl⟩ := Prod.mk.inj h1; rfl

theorem State.writeParts_waits (ha : addr < 2 ^ 32) (hw : (s.writeAny n addr value mask e).1 = .waits) :
    State.writeParts h e n (writeItem addr value mask :: l) k s =
      ⟨.waits, false, [], s.ask (.writes h k (writeItem addr value mask :: l) e)⟩ := by
  have hpair : s.writeAny n addr value mask e = (.waits, s) := Prod.ext hw (State.writeAny_waits hw)
  rw [State.writeParts, writeItem_addr ha, writeItem_value, writeItem_mask, hpair]

end

theorem State.mem_ask (s : State) (a : CellAsk) : a ∈ (s.ask a).cells.asks := by
  unfold State.ask
  split
  · rename_i hin; exact List.contains_iff_mem.mp hin
  · exact List.mem_append_right _ (List.mem_singleton.mpr rfl)

theorem State.ask_lastReply (s : State) (a : CellAsk) : (s.ask a).mgmt.lastReply = s.mgmt.lastReply := by
  unfold State.ask
  split <;> rfl

/-- R466: a WRITE is carried out item by item. -/
theorem State.opWrite_items {h : MHead} {n : Nat} {e : AccEnv} (s : State) (addr : Nat) (value mask : Word)
    {rest : List Byte} (hr : rest.length % 12 = 0) (hl : (writeItem addr value mask ++ rest).length ≤ 32 * 12) :
    s.opWrite h n (writeItem addr value mask ++ rest) e =
      State.writeParts h e n (writeItem addr value mask :: parts 12 rest) 0 s := by
  have hitems : itemsOk 12 (writeItem addr value mask ++ rest) = true := by
    rw [itemsOk_iff (by decide)]
    rw [List.length_append, length_writeItem] at hl ⊢
    omega
  unfold State.opWrite
  rw [hitems, parts_append (by decide) (length_writeItem ..)]
  rfl

/-! ### READ_BLOCK -/

/-- R466: the body of a READ_BLOCK. -/
def blockHead (addr len : Nat) : List Byte := leBytes 4 addr ++ leBytes 2 len

theorem blockHead_addr {addr : Nat} (h : addr < 2 ^ 32) (len : Nat) : leAt (blockHead addr len) 0 4 = addr := by
  rw [blockHead, leAt_leBytes]
  exact Nat.mod_eq_of_lt h

theorem blockHead_len (addr : Nat) {len : Nat} (h : len < 2 ^ 16) : leAt (blockHead addr len) 4 2 = len := by
  have := leAt_leBytes 2 len []
  rw [List.append_nil] at this
  rw [blockHead, leAt_append (by simp), length_leBytes, this]
  exact Nat.mod_eq_of_lt h

/-- The answer of a READ_BLOCK. -/
def blockAnswer (b : List Byte) (st : Status) (s : State) : Answer := ⟨.ok, false, blockBody b st, s⟩

theorem State.opReadBlock_badForm {n : Nat} {i2c : Bool} {body : List Byte} (s : State)
    (h : body.length ≠ 6 ∨ leAt body 4 2 % 4 ≠ 0) : s.opReadBlock n i2c body = ⟨.badValue, false, [], s⟩ := by
  unfold State.opReadBlock
  dsimp only
  rw [if_pos (h.imp_right .inl)]

section
variable {n addr len : Nat} {i2c : Bool} (s : State) (ha : addr < 2 ^ 32) (hm : len % 4 = 0)
  (hl : len ≤ if i2c then 240 else 1024)
include ha hm hl

theorem State.opReadBlock_head : s.opReadBlock n i2c (blockHead addr len) =
    if addr % 4 ≠ 0 ∧ 0 < len then blockAnswer [] .badAddr s
    else if (windowOf addr).isSome then State.opReadBlock.win blockAnswer n 2 addr len [] s
    else State.opReadBlock.go blockAnswer n addr (len / 4) [] s := by
  have hlen : len < 2 ^ 16 := by split at hl <;> omega
  unfold State.opReadBlock
  dsimp only
  rw [blockHead_addr ha, blockHead_len addr hlen, if_neg]
  · rfl
  · simp only [blockHead, List.length_append, length_leBytes, hm]
    omega

end

theorem window_kind_eq {k k' : Nat} {p p' : Nat × Nat × Nat × Nat} (h : some (k, p) = some (k', p')) : k = k' :=
  congrArg Prod.fst (Option.some.inj h)

theorem windowOf_lane {addr l off size lvl : Nat} (h : windowOf addr = some (0, l, off, size, lvl)) : lvl = 2 := by
  unfold windowOf at h
  split at h
  · exact (congrArg (fun p => p.2.2.2.2) (Option.some.inj h)).symm
  split at h
  · exact absurd (window_kind_eq h) (by decide)
  split at h
  · exact absurd (window_kind_eq h) (by decide)
  split at h
  · exact absurd (window_kind_eq h) (by decide)
  · exact nomatch h

theorem windowOf_telemetry {addr r off size lvl : Nat} (h : windowOf addr = some (2, r, off, size, lvl)) :
    (0x13100000 ≤ addr ∧ addr < 0x13110000) ∧ off = (addr - 0x13100000) % 0x2000 ∧ size = 0x2000 ∧ lvl = 0 := by
  unfold windowOf at h
  split at h
  · exact absurd (window_kind_eq h) (by decide)
  split at h
  · exact absurd (window_kind_eq h) (by decide)
  split at h
  · rename_i hrange
    simp only [Option.some.injEq, Prod.mk.injEq] at h
    obtain ⟨-, -, hoff, hsize, hlvl⟩ := h
    exact ⟨hrange, hoff.symm, hsize.symm, hlvl.symm⟩
  split at h
  · exact absurd (window_kind_eq h) (by decide)
  · exact nomatch h

theorem windowOf_of_telemetry {addr : Nat} (hlo : 0x13100000 ≤ addr) (hhi : addr < 0x13110000) : windowOf addr =
    some (2, (addr - 0x13100000) / 0x2000, (addr - 0x13100000) % 0x2000, 0x2000, 0) := by
  unfold windowOf
  rw [if_neg (by omega), if_neg (by omega), if_pos ⟨hlo, hhi⟩]

section
variable {s : State} {n k addr len kind ix off size lvl : Nat} {ans : List Byte → Status → State → Answer} {b : List Byte}

theorem frameBytes_zero (l : List Byte) (o : Nat) : frameBytes l o 0 = [] := by
  simp [frameBytes, bytesAt]

theorem State.win_refused {st : Status} (hw : windowOf addr = some (kind, ix, off, size, lvl))
    (hlev : s.needLevel n lvl = st) (hst : st ≠ .ok) :
    State.opReadBlock.win ans n (k + 1) addr len b s = ans b st s := by
  rw [State.opReadBlock.win, hw]
  dsimp only
  rw [hlev]
  split
  · exact absurd rfl hst
  · rfl

theorem State.win_telemetry (hw : windowOf addr = some (2, ix, off, size, lvl)) (hlev : s.needLevel n lvl = .ok) :
    State.opReadBlock.win ans n (k + 1) addr len b s =
      State.opReadBlock.win ans n k (addr + min len (size - off)) (len - min len (size - off))
        (b ++ frameBytes (s.ring ix).tlm off (min len (size - off))) s := by
  rw [State.opReadBlock.win, hw]
  dsimp only
  rw [hlev]
  rfl

/-- R473: what is asked of a window ends where the window ends. -/
theorem State.win_telemetry_end (hw : windowOf addr = some (2, ix, off, size, lvl)) (hlev : s.needLevel n 0 = .ok)
    (hin : off + len ≤ size) :
    State.opReadBlock.win ans n 2 addr len [] s = ans (frameBytes (s.ring ix).tlm off len) .ok s := by
  obtain ⟨hrange, hoff, hsize, rfl⟩ := windowOf_telemetry hw
  have hmin : min len (size - off) = len := by omega
  rw [State.win_telemetry hw hlev, hmin, Nat.sub_self, List.nil_append]
  by_cases hend : addr + len < 0x13110000
  · rw [State.win_telemetry (windowOf_of_telemetry (by omega) hend) hlev, Nat.zero_min, frameBytes_zero, List.append_nil]
    rfl
  · have hlast : addr + len = 0x13110000 := by omega
    rw [hlast]
    rfl

theorem State.go_refused {s1 : State} {w : Word} {st : Status} (hr : s.readAny n addr = (st, w, s1)) (hst : st ≠ .ok) :
    State.opReadBlock.go ans n addr (k + 1) b s = ans b st s1 := by
  rw [State.opReadBlock.go, hr]
  split
  · rename_i h; exact absurd (congrArg Prod.fst h) hst
  · rename_i h
    obtain ⟨rfl, -, rfl⟩ : _ ∧ _ ∧ _ := by simpa only [Prod.mk.injEq] using h
    rfl

theorem State.go_one (hr : (s.readAny n addr).1 = .ok) : State.opReadBlock.go ans n addr 1 b s =
    ans (b ++ leBytes 4 (s.readAny n addr).2.1.toNat) .ok (s.readAny n addr).2.2 := by
  have hpair : s.readAny n addr = (.ok, (s.readAny n addr).2.1, (s.readAny n addr).2.2) := Prod.ext hr rfl
  rw [State.opReadBlock.go, hpair]
  rfl

end

/-! ### What a request's state shows -/

@[simp] theorem State.asked_regs (s : State) (h : MHead) : (s.asked h).regs = s.regs := by
  unfold State.asked
  dsimp only
  split <;> rfl

@[simp] theorem State.asked_start (s : State) (h : MHead) : (s.asked h).start = s.start := by
  unfold State.asked
  dsimp only
  split <;> rfl

@[simp] theorem State.asked_ring (s : State) (h : MHead) (r : Nat) : (s.asked h).ring r = s.ring r := by
  unfold State.asked
  dsimp only
  split <;> rfl

/-- R456: the rights of the session are what they were. -/
theorem State.asked_needLevel (s : State) (h : MHead) (need : Nat) :
    (s.asked h).needLevel h.session need = s.needLevel h.session need := by
  have hsess : (s.asked h).sess h.session = { s.sess h.session with lastAt := s.now, seq := h.seq } := by
    rw [State.asked_eq, State.setSess_sess_same, State.noted, State.setSess_sess_same]
  have hlock : (s.asked h).lockClosed = s.lockClosed := by
    unfold State.lockClosed State.flag State.get State.word
    rw [State.asked_regs]
  have hopen : (s.asked h).isOpener h.session = s.isOpener h.session := by
    unfold State.isOpener
    rw [State.asked_start]
  unfold State.needLevel State.level
  rw [hsess, hlock, hopen, State.asked_start]

end Sys2Proof.Machine
end

section
/-! What the requests READ, WRITE and READ_BLOCK answer, clause by clause (R464–R466, R473). -/

namespace Sys2Proof.Machine

/-- The requests of a session, with their operations. -/
theorem requests_of_mem {t : Nat} {s : State} {h : MHead} {body : List Byte} {e : AccEnv} {fail hard : Fin 16}
    {c : Nat × Instr}
    (hc : c ∈ [(0x10, Instr.mgmtRead t h body), (0x11, .mgmtWrite t h body e), (0x12, .readBlock t h body),
      (0x30, .eventFetch t h body), (0x40, .recordQuery t h body), (0x41, .recordFetch t h body ⟨fail, hard⟩),
      (0x50, .challenge t h body), (0x51, .response t h body)]) : Requests s t h body c.1 c.2 := by
  simp only [List.mem_cons, List.not_mem_nil, or_false] at hc
  rcases hc with rfl | rfl | rfl | rfl | rfl | rfl | rfl | rfl <;> exact ⟨rfl, _, _, rfl⟩

section
variable {t : Nat} {s : State} {h : MHead} {body : List Byte} {e : AccEnv} (hf : s.fresh h body)
include hf

theorem mgmtRead_badCount (hb : body.length % 4 ≠ 0 ∨ body.length = 0 ∨ 32 * 4 < body.length) :
    OnlyReplies s h (.mgmtRead t h body) 0x10 .badValue [] :=
  onlyReplies_of_answer (f := fun s n => s.opRead n body) rfl hf rfl
    (State.opRead_badCount _ (itemsOk_eq_false (by decide) hb)) nofun

theorem mgmtRead_unmapped {addr : Nat} (ha : addr < 2 ^ 32) (hb : body = leBytes 4 addr)
    (hd : decodeAddr addr = none) :
    OnlyReplies s h (.mgmtRead t h body) 0x10 .ok ([0, 0, 0, 0] ++ leBytes 1 0x01 ++ [0, 0, 0]) := by
  refine onlyReplies_of_answer (f := fun s n => s.opRead n body) rfl hf rfl ?_ nofun
  have hzero : leBytes 4 (0 : Word).toNat = [0, 0, 0, 0] := by decide
  subst hb
  rw [State.opRead_one _ ha, State.readAny_unmapped _ _ hd, ← hzero]
  rfl

theorem mgmtRead_one {addr : Nat} (ha : addr < 2 ^ 32) (hb : body = leBytes 4 addr) :
    let q := (s.advance t).asked h
    Answers (.mgmtRead t h body) s fun s' => s'.replied h 0x10 .ok false
      (leBytes 4 (q.readAny h.session addr).2.1.toNat ++ leBytes 1 (q.readAny h.session addr).1.code ++ [0, 0, 0]) := by
  subst hb
  obtain ⟨s', hx, hr, -⟩ := answers_of_answer (c := .mgmtRead t h (leBytes 4 addr)) (f := fun s n => s.opRead n _) rfl hf
    (State.opRead_one _ ha) nofun
  exact ⟨s', hx, hr⟩

theorem mgmtRead_length {k : Nat} (hb : body.length = 4 * k) (h1 : 1 ≤ k) (h32 : k ≤ 32) :
    Answers (.mgmtRead t h body) s fun s' => ∃ b, s'.replied h 0x10 .ok false b ∧ b.length = 8 * k := by
  have hitems : itemsOk 4 body = true := (itemsOk_iff (by decide) _).mpr (by omega)
  obtain ⟨s', hx, hr, -⟩ := answers_of_answer (c := .mgmtRead t h body) (f := fun s n => s.opRead n body) rfl hf
    (State.opRead_of_items _ hitems) nofun
  refine ⟨s', hx, _, hr, ?_⟩
  rw [length_foldl_readItem, length_parts, hb, Nat.mul_div_cancel_left _ (by decide)]
  simp

theorem mgmtWrite_badCount (hb : body.length % 12 ≠ 0 ∨ body.length = 0 ∨ 32 * 12 < body.length) :
    OnlyReplies s h (.mgmtWrite t h body e) 0x11 .badValue [] :=
  onlyReplies_of_answer (f := fun s n => s.opWrite h n body e) rfl hf rfl
    (State.opWrite_badCount _ (itemsOk_eq_false (by decide) hb)) nofun

section
variable {addr : Nat} {value mask : Word} {rest : List Byte} (ha : addr < 2 ^ 32)
  (hb : body = writeItem addr value mask ++ rest) (hr : rest.length % 12 = 0) (hl : body.length ≤ 32 * 12)
include ha hb hr hl

/-- The first item is refused with no register behind it: the answer names it. -/
theorem mgmtWrite_unmapped {st : Status} (hd : decodeAddr addr = none)
    (hst : (if addr % 4 = 0 ∧ (windowOf addr).isSome then Status.accessDenied else .badAddr) = st) :
    OnlyReplies s h (.mgmtWrite t h body e) 0x11 .ok (leBytes 1 0 ++ leBytes 1 st.code) := by
  refine onlyReplies_of_answer (f := fun s n => s.opWrite h n body e) rfl hf rfl ?_ nofun
  subst hb
  have hw := State.writeAny_unmapped ((s.advance t).asked h) h.session value mask e hd
  rw [hst] at hw
  exact (State.opWrite_items _ addr value mask hr hl).trans
    (State.writeParts_refused _ 0 ha hw (by rw [← hst]; split <;> nofun) (by rw [← hst]; split <;> nofun))

theorem mgmtWrite_one (hnil : rest = []) (hw : (((s.advance t).asked h).writeAny h.session addr value mask e).1 = .ok) :
    Answers (.mgmtWrite t h body e) s fun s' =>
      s'.replied h 0x11 .ok false (leBytes 1 0xFF ++ leBytes 1 0) ∧
      s'.regs = (((s.advance t).asked h).writeAny h.session addr value mask e).2.regs := by
  subst hb hnil
  refine answers_of_answer (c := .mgmtWrite t h _ e) (f := fun s n => s.opWrite h n _ e) rfl hf
    ((State.opWrite_items _ addr value mask hr hl).trans (State.writeParts_ok _ 0 ha (Prod.ext hw rfl))) nofun

theorem mgmtWrite_refused (hok : (((s.advance t).asked h).writeAny h.session addr value mask e).1 ≠ .ok)
    (hwait : (((s.advance t).asked h).writeAny h.session addr value mask e).1 ≠ .waits) :
    Answers (.mgmtWrite t h body e) s fun s' => s'.replied h 0x11 .ok false
      (leBytes 1 0 ++ leBytes 1 (((s.advance t).asked h).writeAny h.session addr value mask e).1.code) := by
  subst hb
  obtain ⟨s', hx, hr, -⟩ := answers_of_answer (c := .mgmtWrite t h _ e) (f := fun s n => s.opWrite h n _ e) rfl hf
    ((State.opWrite_items _ addr value mask hr hl).trans (State.writeParts_refused _ 0 ha rfl hok hwait)) nofun
  exact ⟨s', hx, hr⟩

theorem mgmtWrite_waits (hw : (((s.advance t).asked h).writeAny h.session addr value mask e).1 = .waits) :
    Answers (.mgmtWrite t h body e) s fun s' => (s'.sess h.session).reply = none ∧
      s'.mgmt.lastReply = s.mgmt.lastReply ∧ .writes h 0 (parts 12 body) e ∈ s'.cells.asks := by
  subst hb
  have hclose := (State.opWrite_items _ addr value mask hr hl).trans
    (State.writeParts_waits (h := h) (parts 12 rest) 0 ha hw)
  refine ⟨_, exec_fresh (c := .mgmtWrite t h _ e) (f := fun s n => s.opWrite h n _ e) rfl hf, ?_⟩
  dsimp only
  rw [hclose]
  unfold Answer.close
  rw [if_pos rfl]
  refine ⟨?_, ?_, ?_⟩
  · rw [State.setSess_sess_same]
  · rw [State.setSess_lastReply, State.ask_lastReply, State.asked_lastReply]
    rfl
  · rw [parts_append (by decide) (length_writeItem ..)]
    exact State.mem_ask ..

end

theorem readBlock_badForm (hb : body.length ≠ 6 ∨ leAt body 4 2 % 4 ≠ 0) :
    OnlyReplies s h (.readBlock t h body) 0x12 .badValue [] :=
  onlyReplies_of_answer (f := fun s n => s.opReadBlock n h.i2c body) rfl hf rfl (State.opReadBlock_badForm _ hb) nofun

section
variable {addr len : Nat} (ha : addr < 2 ^ 32) (hb : body = blockHead addr len) (hm : len % 4 = 0)
  (hl : len ≤ if h.i2c then 240 else 1024)
include ha hb hm hl

/-- A READ_BLOCK that changes nothing. -/
theorem readBlock_only {b : List Byte} {st : Status}
    (hx : let q := (s.advance t).asked h
      (if addr % 4 ≠ 0 ∧ 0 < len then blockAnswer [] .badAddr q
        else if (windowOf addr).isSome then State.opReadBlock.win blockAnswer h.session 2 addr len [] q
        else State.opReadBlock.go blockAnswer h.session addr (len / 4) [] q) = blockAnswer b st q) :
    OnlyReplies s h (.readBlock t h body) 0x12 .ok (blockBody b st) := by
  subst hb
  exact onlyReplies_of_answer (f := fun s n => s.opReadBlock n h.i2c _) rfl hf rfl
    ((State.opReadBlock_head _ ha hm hl).trans hx) nofun

theorem readBlock_unaligned (hal : addr % 4 ≠ 0) (h0 : 0 < len) :
    OnlyReplies s h (.readBlock t h body) 0x12 .ok (blockBody [] .badAddr) :=
  readBlock_only hf ha hb hm hl (if_pos ⟨hal, h0⟩)

theorem readBlock_empty (hw : windowOf addr = none) (h0 : len = 0) :
    OnlyReplies s h (.readBlock t h body) 0x12 .ok (blockBody [] .ok) := by
  refine readBlock_only hf ha hb hm hl ?_
  dsimp only
  rw [if_neg (by omega), hw, h0]
  rfl

theorem readBlock_unmapped (hw : windowOf addr = none) (h4 : 4 ≤ len) (hd : decodeAddr addr = none) :
    OnlyReplies s h (.readBlock t h body) 0x12 .ok (blockBody [] .badAddr) := by
  refine readBlock_only hf ha hb hm hl ?_
  dsimp only
  split
  · rfl
  · obtain ⟨k, hk⟩ : ∃ k, len / 4 = k + 1 := ⟨len / 4 - 1, by omega⟩
    rw [hw, hk]
    exact State.go_refused (State.readAny_unmapped _ _ hd) nofun

theorem readBlock_one (hw : windowOf addr = none) (h4 : len = 4)
    (hok : (((s.advance t).asked h).readAny h.session addr).1 = .ok) :
    Answers (.readBlock t h body) s fun s' => s'.replied h 0x12 .ok false
      (blockBody (leBytes 4 (((s.advance t).asked h).readAny h.session addr).2.1.toNat) .ok) := by
  have hal : addr % 4 = 0 := decodeAddr_aligned fun hd => by
    rw [State.readAny_unmapped _ _ hd] at hok
    exact Status.noConfusion hok
  subst hb h4
  obtain ⟨s', hx, hr, -⟩ := answers_of_answer (c := .readBlock t h _) (f := fun s n => s.opReadBlock n h.i2c _) rfl hf
    ((State.opReadBlock_head _ ha hm hl).trans
      ((if_neg (by omega)).trans ((if_neg (by rw [hw]; nofun)).trans (State.go_one hok)))) nofun
  exact ⟨s', hx, hr⟩

theorem readBlock_lane {l off size lvl : Nat} (hw : windowOf addr = some (0, l, off, size, lvl)) (hal : addr % 4 = 0)
    (hlev : s.needLevel h.session 2 = .accessDenied) :
    OnlyReplies s h (.readBlock t h body) 0x12 .ok (blockBody [] .accessDenied) := by
  refine readBlock_only hf ha hb hm hl ?_
  have hlev' : ((s.advance t).asked h).needLevel h.session lvl = .accessDenied := by
    rw [windowOf_lane hw, State.asked_needLevel]
    exact hlev
  dsimp only
  rw [if_neg (by omega), if_pos (by rw [hw]; rfl)]
  exact State.win_refused hw hlev' nofun

theorem readBlock_telemetry {r off size lvl : Nat} (hw : windowOf addr = some (2, r, off, size, lvl))
    (hal : addr % 4 = 0) (hin : off + len ≤ size) (hlev : s.needLevel h.session 0 = .ok) :
    OnlyReplies s h (.readBlock t h body) 0x12 .ok (blockBody (frameBytes (s.ring r).tlm off len) .ok) := by
  refine readBlock_only hf ha hb hm hl ?_
  have hlev' : ((s.advance t).asked h).needLevel h.session 0 = .ok := by
    rw [State.asked_needLevel]
    exact hlev
  dsimp only
  rw [if_neg (by omega), if_pos (by rw [hw]; rfl), State.win_telemetry_end hw hlev' hin, State.asked_ring,
    State.advance_ring]

end

end

/-- Settles O57: a request that is not executed is answered from the session alone (`Requests`); READ, WRITE and
READ_BLOCK are executed in the state `State.asked`, and their replies are formed item by item. -/
theorem requestsReadAndWrite : Obligations.RequestsReadAndWrite := by
  intro t s h body n x q only mapped
  have hmapped {addr : Nat} (ha : ¬mapped addr) : decodeAddr addr = none := Option.not_isSome_iff_eq_none.mp ha
  refine ⟨fun e fail hard c hc => ?_, mgmtRead_badCount, fun addr ha hf hb => ⟨fun hd => ?_, ?_⟩,
    fun k hf hb => mgmtRead_length hf hb, fun e => mgmtWrite_badCount,
    fun e addr value mask rest ha hf hb hr hl => ⟨fun hw hal => ?_, fun hw hd => ?_, fun _ hnil hok => ?_,
      fun _ hok hwait => ?_, fun hwait => ?_⟩, readBlock_badForm,
    fun addr len hf hb ha hm hl => ⟨fun hal h0 => ?_, fun hw h0 => ?_, fun hw h4 hd => ?_, fun hw h4 hok => ?_,
      fun l off size lvl hw hal hlev => ?_, fun r off size lvl hw hal hin hlev => ?_⟩⟩
  · have hreq : Requests s t h body c.1 c.2 := requests_of_mem hc
    refine ⟨hreq.unserved, hreq.long, fun hs hb => ⟨hreq.shut hs hb, fun hn ha => ⟨hreq.unbound hs hb hn ha,
      fun hp hi hbusy => ⟨hreq.busyRepeat ⟨hs, hb, hn, ha, hp, hi⟩ hbusy, hreq.busyOther ⟨hs, hb, hn, ha, hp, hi⟩ hbusy⟩,
      fun r hp hi hbusy hseq hr => hreq.again ⟨hs, hb, hn, ha, hp, hi⟩ hbusy hseq hr,
      fun hp hi hbusy => hreq.badSeq ⟨hs, hb, hn, ha, hp, hi⟩ hbusy⟩⟩⟩
  · exact mgmtRead_unmapped hf ha hb (hmapped hd)
  · exact mgmtRead_one hf ha hb
  · exact mgmtWrite_unmapped hf ha hb hr hl (decodeAddr_eq_none_of_window hw) (if_pos ⟨hal, hw⟩)
  · exact mgmtWrite_unmapped hf ha hb hr hl (hmapped hd) (if_neg fun g => by
      rcases hw with hw | hw
      · rw [hw] at g; exact Bool.noConfusion g.2
      · exact hw g.1)
  · exact mgmtWrite_one hf ha hb hr hl hnil hok
  · exact mgmtWrite_refused hf ha hb hr hl hok hwait
  · exact mgmtWrite_waits hf ha hb hr hl hwait
  · exact readBlock_unaligned hf ha hb hm hl hal h0
  · exact readBlock_empty hf ha hb hm hl hw h0
  · exact readBlock_unmapped hf ha hb hm hl hw h4 (hmapped hd)
  · exact readBlock_one hf ha hb hm hl hw h4 hok
  · exact readBlock_lane hf ha hb hm hl hw hal hlev
  · exact readBlock_telemetry hf ha hb hm hl hw hal hin hlev

end Sys2Proof.Machine
end

section
/-! What a frame keeps, read field by field, and what the shared updates of a cell entry keep of the other cells' data
(R95, R102). -/

namespace Sys2Proof.Machine

section
variable {a b c : State} {fs gs : List Fld} {ps qs : List Part}

/-- A field that no field of the frame overlaps reads as before. -/
theorem State.Frame.get (h : a.Frame b fs ps) (f : Fld)
    (hd : ∀ g ∈ fs, g.reg = f.reg → f.lo + f.wd ≤ g.lo ∨ g.lo + g.wd ≤ f.lo) : b.get f = a.get f := by
  unfold State.get
  apply Nat.eq_of_testBit_eq
  intro i
  rw [testBit_fieldOf, testBit_fieldOf]
  by_cases hi : i < f.wd
  · have hbit := h.bits f.reg (f.lo + i) fun g hg hr => by
      rcases hd g hg hr with h1 | h1
      · left; omega
      · right; omega
    exact congrArg (decide (i < f.wd) && ·) hbit
  · simp [hi]

theorem State.Frame.isOn (h : a.Frame b fs ps) (hd : ∀ g ∈ fs, g.reg ≠ R.PWR_STATE_LO ∧ g.reg ≠ R.PWR_STATE_HI)
    (d : Nat) : b.isOn d = a.isOn d := by
  have hreg : (F.PWR_STATE d).reg = R.PWR_STATE_LO ∨ (F.PWR_STATE d).reg = R.PWR_STATE_HI := by
    unfold F.PWR_STATE
    split
    · exact .inl rfl
    · exact .inr rfl
  have hget : b.get (F.PWR_STATE d) = a.get (F.PWR_STATE d) := h.get _ fun g hg hr => by
    rcases hreg with e | e
    · exact absurd (hr.trans e) (hd g hg).1
    · exact absurd (hr.trans e) (hd g hg).2
  unfold State.isOn State.domState
  rw [hget]

theorem State.Frame.ite {p : Prop} [Decidable p] (hb : a.Frame b fs ps) (hc : a.Frame c fs ps) :
    a.Frame (if p then b else c) fs ps := by
  split
  · exact hb
  · exact hc

/-- A further update with a frame of its own. -/
theorem State.Frame.and_then (h : a.Frame b fs ps) (g : b.Frame c gs qs) (hf : gs ⊆ fs) (hp : qs ⊆ ps) :
    a.Frame c fs ps := h.trans (g.mono (fun _ m => hf m) (fun _ m => hp m))

theorem State.Frame.cells (h : a.Frame b fs ps) (hp : Part.cells ∉ ps) : b.cells = a.cells := h.parts .cells hp

theorem State.Frame.cell (h : a.Frame b fs ps) (hp : Part.cells ∉ ps) (k : Nat) : b.cell k = a.cell k :=
  congrArg (·.x.get k) (h.cells hp)

theorem State.Frame.log (h : a.Frame b fs ps) (hp : Part.log ∉ ps) : b.log = a.log := h.parts .log hp

theorem State.Frame.link (h : a.Frame b fs ps) (hp : Part.link ∉ ps) : b.link = a.link := h.parts .link hp

theorem State.Frame.mgmt (h : a.Frame b fs ps) (hp : Part.mgmt ∉ ps) : b.mgmt = a.mgmt := h.parts .mgmt hp

/-- The cells of a phase are told by CELL_CFG alone (R109). -/
theorem State.Frame.phaseCells (h : a.Frame b fs ps) (hd : ∀ g ∈ fs, ∀ j, g.reg ≠ R.CELL_CFG j) (c ph : Nat) :
    b.phaseCells c ph = a.phaseCells c ph := by
  have hget {f : Fld} {j : Nat} (hf : f.reg = R.CELL_CFG j) : b.get f = a.get f :=
    h.get f fun g hg hr => absurd (hr.trans hf) (hd g hg j)
  unfold State.phaseCells State.inMap State.phaseOf
  simp only [State.flag_eq, fun k => hget (f := F.CELL_CFG_IN_MAP k) rfl, fun k => hget (f := F.CELL_CFG_PHASE k) rfl]

theorem State.Frame.phaseOf (h : a.Frame b fs ps) (hd : ∀ g ∈ fs, ∀ j, g.reg ≠ R.CELL_CFG j) (k : Nat) :
    b.phaseOf k = a.phaseOf k := h.get _ fun g hg hr => absurd hr (hd g hg k)

theorem State.Frame.cluRunning (h : a.Frame b fs ps) (hd : ∀ g ∈ fs, ∀ j, g.reg ≠ R.FRT_CLU_STAT j) (c : Nat) :
    b.cluRunning c = a.cluRunning c := by
  unfold State.cluRunning State.frtState
  rw [h.get _ fun g hg hr => absurd hr (hd g hg c)]

end

/-! ### Cells through the shared updates -/

@[simp] theorem State.put_cell (s : State) (f : Fld) (v k : Nat) : (s.put f v).cell k = s.cell k := rfl
@[simp] theorem State.setRing_cell (s : State) (r : Nat) (x : RingSt) (k : Nat) :
    (s.setRing r x).cell k = s.cell k := rfl
@[simp] theorem State.setWcell_cell (s : State) (j : Nat) (x : WearCell) (k : Nat) :
    (s.setWcell j x).cell k = s.cell k := rfl
@[simp] theorem State.event_cell (s : State) (c i : Nat) (d : List DItem) (k : Nat) :
    (s.event c i d).cell k = s.cell k := by
  rw [State.cell, State.event_cells, State.cell]

/-! ### Mailbox requests (R81, R82) -/

theorem State.mbxPlace_frame (s : State) (r : Nat) (q : MbxReq) :
    s.Frame (s.mbxPlace r q) [(R.RING_MBX_STAT r).all] [.link] :=
  ((((State.Frame.refl ..).putAll _ _ (by simp)).putAll _ _ (by simp)).putAll _ _ (by simp)).setRing _ _ (by simp)

theorem State.mbxNext_frame (s : State) (r : Nat) : s.Frame (s.mbxNext r) [(R.RING_MBX_STAT r).all] [.link] := by
  unfold State.mbxNext
  dsimp only
  split
  · exact .refl ..
  · split
    · exact .refl ..
    · exact ((State.Frame.refl ..).setRing _ _ (by simp)).trans (State.mbxPlace_frame ..)

theorem State.mbxPost_frame (s : State) (r : Nat) (q : MbxReq) :
    s.Frame (s.mbxPost r q) [(R.RING_MBX_STAT r).all] [.link] := by
  unfold State.mbxPost
  exact .ite (.refl ..) (((State.Frame.refl ..).setRing _ _ (by simp)).trans (State.mbxNext_frame ..))

section
variable (s : State) (r : Nat) (q : MbxReq)

@[simp] theorem State.mbxPost_now : (s.mbxPost r q).now = s.now := (s.mbxPost_frame r q).now
@[simp] theorem State.mbxPost_cell (k : Nat) : (s.mbxPost r q).cell k = s.cell k :=
  (s.mbxPost_frame r q).cell (by decide) k
@[simp] theorem State.mbxPost_isOn (d : Nat) : (s.mbxPost r q).isOn d = s.isOn d :=
  (s.mbxPost_frame r q).isOn (by simp) d
@[simp] theorem State.mbxPost_get (f : Fld) (h : f.reg ≠ R.RING_MBX_STAT r) : (s.mbxPost r q).get f = s.get f :=
  (s.mbxPost_frame r q).get f (by simpa using fun e => absurd e.symm h)

end

/-! ### The wear record (R357) -/

theorem State.wearWrite_frame (s : State) (k : Nat) :
    s.Frame (s.wearWrite k) [(R.RING_MBX_STAT (ringOf k)).all, F.WEAR_CELL_STAT_REC_PEND k] [.link, .wear] := by
  unfold State.wearWrite
  dsimp only
  split
  · exact .refl ..
  · refine State.Frame.foldl _ _ (((State.Frame.refl ..).setWcell _ _ (by simp)).put _ _ (by simp) (by simp))
      fun x e _ hx => ?_
    exact hx.and_then (State.mbxPost_frame ..) (by simp) (by simp)

/-! ### A change of state (R102) -/

/-- The fields that every change of a cell's state writes, and the log's bit. -/
abbrev stateFlds (k : Nat) : List Fld :=
  [F.CELL_STATE_STATE k, F.CELL_STATE_PREV k, F.CELL_STATE_REASON k, logFld]

/-- R102: a change of state without the wear record. -/
def State.moved (s : State) (k dest reason : Nat) : State :=
  (((s.put (F.CELL_STATE_PREV k) (s.cellState k)).put (F.CELL_STATE_STATE k) dest).put (F.CELL_STATE_REASON k)
    reason).event Ev.CELL_STATE k [.w k, .w (s.cellState k), .w dest, .w reason]

theorem State.setCell_eq_moved (s : State) (k dest reason : Nat) :
    s.setCell k dest reason =
      if 7 ≤ dest ∧ dest ≤ 9 then (s.moved k dest reason).wearWrite k else s.moved k dest reason := rfl

theorem State.moved_frame (s : State) (k dest reason : Nat) : s.Frame (s.moved k dest reason) (stateFlds k) [.log] :=
  ((((State.Frame.refl ..).put _ _ (by simp) (by simp)).put _ _ (by simp) (by simp)).put _ _ (by simp)
    (by simp)).event _ _ _ (by simp) (by simp)

/-- R102: a change of state to one that keeps no wear record. -/
theorem State.setCell_frame_of_lt (s : State) (k : Nat) {dest : Nat} (reason : Nat) (hd : dest < 7) :
    s.Frame (s.setCell k dest reason) (stateFlds k) [.log] := by
  rw [State.setCell_eq_moved, if_neg (by omega)]
  exact State.moved_frame ..

theorem State.setCell_frame (s : State) (k dest reason : Nat) :
    s.Frame (s.setCell k dest reason)
      ((R.RING_MBX_STAT (ringOf k)).all :: F.WEAR_CELL_STAT_REC_PEND k :: stateFlds k) [.link, .wear, .log] := by
  have hmoved := (s.moved_frame k dest reason).mono
    (fs' := (R.RING_MBX_STAT (ringOf k)).all :: F.WEAR_CELL_STAT_REC_PEND k :: stateFlds k)
    (ps' := [.link, .wear, .log]) (by simp) (by simp)
  rw [State.setCell_eq_moved]
  split
  · exact hmoved.and_then (State.wearWrite_frame ..) (by simp) (by simp)
  · exact hmoved

/-- What a change of state leaves of its own fields: the wear record touches none of them. -/
theorem State.setCell_get_of_moved (s : State) (k dest reason : Nat) {f : Fld} (h1 : f.reg ≠ R.RING_MBX_STAT (ringOf k))
    (h2 : f.reg ≠ R.WEAR_CELL_STAT k) : (s.setCell k dest reason).get f = (s.moved k dest reason).get f := by
  rw [State.setCell_eq_moved]
  split
  · exact (State.wearWrite_frame ..).get f (by simpa using ⟨fun e => absurd e.symm h1, fun e => absurd e.symm h2⟩)
  · rfl

section
variable (s : State) (k dest reason : Nat)

@[simp] theorem State.setCell_state : (s.setCell k dest reason).get (F.CELL_STATE_STATE k) = dest % 16 := by
  rw [State.setCell_get_of_moved _ _ _ _ (by simp) (by simp)]
  simp [State.moved, State.event_get, State.get_put_same, State.get_put_disjoint]

@[simp] theorem State.setCell_prev : (s.setCell k dest reason).get (F.CELL_STATE_PREV k) = s.cellState k := by
  have hlt : s.cellState k < 16 := s.get_lt _
  rw [State.setCell_get_of_moved _ _ _ _ (by simp) (by simp)]
  simp [State.moved, State.event_get, State.get_put_same, State.get_put_disjoint, Nat.mod_eq_of_lt hlt]

@[simp] theorem State.setCell_reason : (s.setCell k dest reason).get (F.CELL_STATE_REASON k) = reason % 256 := by
  rw [State.setCell_get_of_moved _ _ _ _ (by simp) (by simp)]
  simp [State.moved, State.event_get, State.get_put_same]

/-- A field outside a change of state. -/
theorem State.setCell_get (f : Fld) (h1 : f.reg ≠ R.RING_MBX_STAT (ringOf k)) (h2 : f.reg ≠ R.WEAR_CELL_STAT k)
    (h3 : f.reg ≠ R.CREMA_STICKY) (h4 : f.reg = R.CELL_STATE k → 16 ≤ f.lo) :
    (s.setCell k dest reason).get f = s.get f := by
  refine (s.setCell_frame k dest reason).get f ?_
  have h4' : R.CELL_STATE k = f.reg → 16 ≤ f.lo := fun e => h4 e.symm
  have hlow {lo wd : Nat} (hw : lo + wd ≤ 16) (e : R.CELL_STATE k = f.reg) :
      f.lo + f.wd ≤ lo ∨ lo + wd ≤ f.lo := .inr (Nat.le_trans hw (h4' e))
  simp only [List.forall_mem_cons]
  exact ⟨fun e => absurd e.symm h1, fun e => absurd e.symm h2, hlow (by simp), hlow (by simp), hlow (by simp),
    fun e => absurd e.symm h3, fun _ h => nomatch h⟩

@[simp] theorem State.setCell_now : (s.setCell k dest reason).now = s.now := (s.setCell_frame k dest reason).now
@[simp] theorem State.setCell_cell (j : Nat) : (s.setCell k dest reason).cell j = s.cell j :=
  (s.setCell_frame k dest reason).cell (by decide) j
@[simp] theorem State.setCell_isOn (d : Nat) : (s.setCell k dest reason).isOn d = s.isOn d :=
  (s.setCell_frame k dest reason).isOn (by simp) d

end

theorem State.Logs.setCell {s x : State} {l : List (Nat × Nat × List DItem)} (h : s.Logs x l) (k dest reason : Nat)
    (hm : x.isOn domMGMT = s.isOn domMGMT) (hd : x.isOn domDRAM = s.isOn domDRAM) :
    s.Logs (x.setCell k dest reason)
      (l ++ [(Ev.CELL_STATE, k, [.w k, .w (x.cellState k), .w dest, .w reason])]) := by
  have hput (f : Fld) (v d : Nat) (hf : f.reg = R.CELL_STATE k) (y : State) : (y.put f v).isOn d = y.isOn d :=
    State.isOn_put _ _ _ _ (by simp [hf]) (by simp [hf])
  have hmoved : s.Logs (x.moved k dest reason)
      (l ++ [(Ev.CELL_STATE, k, [.w k, .w (x.cellState k), .w dest, .w reason])]) :=
    (((h.put _ _).put _ _).put _ _).event _ _ _ (by simp only [hput, hm]) (by simp only [hput, hd])
  rw [State.setCell_eq_moved]
  split
  · exact hmoved.then ((State.wearWrite_frame ..).log (by decide))
  · exact hmoved

end Sys2Proof.Machine
end

section
/-! Dispositions, lock-out, halts and the fault bypass: what each changes of the state (R97, R102, R108, R113, R116). -/

namespace Sys2Proof.Machine

/-! ### Dispositions and lock-out (R97, R102) -/

theorem State.askDisp_frame (s : State) (k code : Nat) :
    s.Frame (s.askDisp k code) [(R.RING_MBX_STAT (ringOf k)).all, F.CELL_STATE_DISP_PEND k] [.cells, .link] :=
  ((((State.Frame.refl ..).put _ _ (by simp) (by simp)).setCellX _ _ (by simp)).setRing _ _ (by simp)).and_then
    (State.mbxPost_frame ..) (by simp) (by simp)

section
variable (s : State) (k code : Nat)

@[simp] theorem State.askDisp_cell : (s.askDisp k code).cell k = { s.cell k with dispWant := code } := by
  simp [State.askDisp]
@[simp] theorem State.askDisp_isOn (d : Nat) : (s.askDisp k code).isOn d = s.isOn d :=
  (s.askDisp_frame k code).isOn (by simp) d
@[simp] theorem State.askDisp_pend : (s.askDisp k code).get (F.CELL_STATE_DISP_PEND k) = 1 := by
  simp [State.askDisp, State.get_put_same]

theorem State.askDisp_get (f : Fld) (h1 : f.reg ≠ R.RING_MBX_STAT (ringOf k))
    (h2 : f.reg = R.CELL_STATE k → f.lo + f.wd ≤ 22) : (s.askDisp k code).get f = s.get f :=
  (s.askDisp_frame k code).get f (by simpa using ⟨fun e => absurd e.symm h1, fun e => .inl (h2 e.symm)⟩)

end

theorem State.Logs.askDisp {s x : State} {l : List (Nat × Nat × List DItem)} (h : s.Logs x l) (k code : Nat) :
    s.Logs (x.askDisp k code) l := h.then ((State.askDisp_frame ..).log (by decide))

/-- The fields of an entry into LOCKED_OUT. -/
abbrev lockFlds (k : Nat) : List Fld :=
  F.CELL_STATE_DISP_PEND k :: (R.RING_MBX_STAT (ringOf k)).all :: F.WEAR_CELL_STAT_REC_PEND k :: stateFlds k

theorem State.lockOut_again {s : State} {k : Nat} (h : s.cellState k = 9) (reason : Nat) :
    s.lockOut k reason = s.put (F.CELL_STATE_REASON k) reason := if_pos h

theorem State.lockOut_enter {s : State} {k : Nat} (h : s.cellState k ≠ 9) (reason : Nat) :
    s.lockOut k reason = (s.setCell k 9 reason).askDisp k 2 := if_neg h

section
variable (s : State) (k reason : Nat)

theorem State.lockOut_frame : s.Frame (s.lockOut k reason) (lockFlds k) [.cells, .link, .wear, .log] := by
  by_cases h : s.cellState k = 9
  · rw [State.lockOut_again h]
    exact (State.Frame.refl ..).put _ _ (by simp) (by simp)
  · rw [State.lockOut_enter h]
    exact ((State.Frame.refl ..).and_then (State.setCell_frame ..) (by simp) (by simp)).and_then
      (State.askDisp_frame ..) (by simp) (by simp)

@[simp] theorem State.lockOut_state : (s.lockOut k reason).get (F.CELL_STATE_STATE k) = 9 := by
  by_cases h : s.cellState k = 9
  · rw [State.lockOut_again h, State.get_put_disjoint _ _ _ _ (by simp) (by simp)]
    exact h
  · rw [State.lockOut_enter h, State.askDisp_get _ _ _ _ (by simp) (by simp), State.setCell_state]

@[simp] theorem State.lockOut_reason : (s.lockOut k reason).get (F.CELL_STATE_REASON k) = reason % 256 := by
  by_cases h : s.cellState k = 9
  · simp [State.lockOut_again h, State.get_put_same]
  · rw [State.lockOut_enter h, State.askDisp_get _ _ _ _ (by simp) (by simp), State.setCell_reason]

/-- Only the disposition asked for changes of what the module knows of a cell that is locked out. -/
theorem State.lockOut_cell : ∃ code, (s.lockOut k reason).cell k = { s.cell k with dispWant := code } := by
  by_cases h : s.cellState k = 9
  · exact ⟨(s.cell k).dispWant, by rw [State.lockOut_again h, State.put_cell]⟩
  · exact ⟨2, by rw [State.lockOut_enter h, State.askDisp_cell, State.setCell_cell]⟩

theorem State.lockOut_get (f : Fld) (h1 : f.reg ≠ R.RING_MBX_STAT (ringOf k)) (h2 : f.reg ≠ R.WEAR_CELL_STAT k)
    (h3 : f.reg ≠ R.CREMA_STICKY) (h4 : f.reg ≠ R.CELL_STATE k) : (s.lockOut k reason).get f = s.get f :=
  (s.lockOut_frame k reason).get f (by simpa using
    ⟨fun e => absurd e.symm h4, fun e => absurd e.symm h1, fun e => absurd e.symm h2, fun e => absurd e.symm h4,
      fun e => absurd e.symm h4, fun e => absurd e.symm h4, fun e => absurd e.symm h3⟩)

end

/-! ### A halt of the cluster (R78, R104) -/

theorem State.haltTx_frame (s : State) (r : Nat) : s.Frame (s.haltTx r) [] [.link] := by
  unfold State.haltTx
  refine State.Frame.foldl _ _ (.refl ..) fun x p _ hx => ?_
  exact .ite hx (hx.setRing _ _ (by simp))

theorem State.laneHalt_frame (s : State) (r : Nat) :
    s.Frame (s.laneHalt r) [(R.RING_HALT_STAT r).all, logFld] [.link, .capAsk, .log] :=
  ((((((((State.Frame.refl ..).putAll _ _ (by simp)).putAll _ _ (by simp)).putAll _ _ (by simp)).setRing _ _
    (by simp)).and_then (State.haltTx_frame ..) (by simp) (by simp)).setCapAsk _ (by simp)).event _ _ _ (by simp)
    (by simp))

@[simp] theorem State.laneHalt_cell (s : State) (r k : Nat) : (s.laneHalt r).cell k = s.cell k :=
  (s.laneHalt_frame r).cell (by decide) k

theorem State.laneHalt_get (s : State) (r : Nat) (f : Fld) (h1 : f.reg ≠ R.RING_HALT_STAT r)
    (h2 : f.reg ≠ R.CREMA_STICKY) : (s.laneHalt r).get f = s.get f :=
  (s.laneHalt_frame r).get f (by simpa using ⟨fun e => absurd e.symm h1, fun e => absurd e.symm h2⟩)

/-! ### The end of a sequence, and planned bypasses that give way (R116) -/

theorem State.endSeq_frame (s : State) (k : Nat) : s.Frame (s.endSeq k) [F.CELL_STATE_SEQ_BUSY k] [.cells] :=
  ((State.Frame.refl ..).put _ _ (by simp) (by simp)).setCellX _ _ (by simp)

@[simp] theorem State.endSeq_cell (s : State) (k : Nat) :
    (s.endSeq k).cell k = { s.cell k with seq := .none, bypDue := none } := by
  simp [State.endSeq]

@[simp] theorem State.endSeq_log (s : State) (k : Nat) : (s.endSeq k).log = s.log := rfl

@[simp] theorem State.endSeq_busy (s : State) (k : Nat) : (s.endSeq k).get (F.CELL_STATE_SEQ_BUSY k) = 0 := by
  simp [State.endSeq, State.get_put_same]

@[simp] theorem State.endSeq_isOn (s : State) (k d : Nat) : (s.endSeq k).isOn d = s.isOn d :=
  (s.endSeq_frame k).isOn (by simp) d

theorem State.endSeq_get (s : State) (k : Nat) (f : Fld) (h : f.reg = R.CELL_STATE k → f.lo + f.wd ≤ 20 ∨ 21 ≤ f.lo) :
    (s.endSeq k).get f = s.get f := (s.endSeq_frame k).get f (by simpa using fun e => h e.symm)

/-- SEQ_BUSY of the cells in a cell's phase. -/
abbrev State.phaseBusy (s : State) (k : Nat) : List Fld :=
  (s.phaseCells (ringOf k) (s.phaseOf k)).map F.CELL_STATE_SEQ_BUSY

theorem State.sparePhase_frame (s : State) (k : Nat) : s.Frame (s.sparePhase k) (s.phaseBusy k) [.cells] := by
  unfold State.sparePhase
  refine State.Frame.foldl _ _ (.refl ..) fun x j hj hx => ?_
  have hmem : F.CELL_STATE_SEQ_BUSY j ∈ s.phaseBusy k := List.mem_map_of_mem (List.mem_filter.mp hj).1
  exact .ite ((hx.and_then (State.endSeq_frame ..) (by simpa using hmem) (by simp)).setCellX _ _ (by simp)) hx

/-! ### The fault bypass (R113) -/

/-- R113: the fault bypass without the halt that a missing bypass brings. -/
def State.faultClosed (s : State) (k : Nat) : State :=
  let s1 := (s.sparePhase k).put (F.CELL_STATE_SEQ_BUSY k) 0
  s1.setCellX k { s1.cell k with
    mode := mSTOP, byp := bypClose, closed := true, share := .zero, seq := .fault,
    bypDue := some (s1.now + s1.get F.CELL_CTRL_BYP_TO * uMs), diagDue := none, diagRetry := none }

theorem State.faultBypass_eq (s : State) (k : Nat) : s.faultBypass k =
    if s.flag (F.CELL_STATE_NO_BYPASS k) && s.cluRunning (ringOf k) then (s.faultClosed k).laneHalt (ringOf k)
    else s.faultClosed k := rfl

/-- A cell whose bypass can close, or whose cluster stands, brings no halt. -/
theorem State.faultBypass_quiet {s : State} {k : Nat}
    (h : s.get (F.CELL_STATE_NO_BYPASS k) = 0 ∨ s.cluRunning (ringOf k) = false) :
    s.faultBypass k = s.faultClosed k := by
  rw [State.faultBypass_eq, if_neg]
  rcases h with h | h <;> simp [State.flag_eq, h]

/-- R113: the cell is commanded into the fault bypass, to be confirmed by an instant. -/
structure CellX.FaultClosing (x : CellX) (due : Nat) : Prop where
  mode   : x.mode = 0
  byp    : x.byp = 0x3C
  closed : x.closed = true
  share  : x.share = .zero
  seq    : x.seq = .fault
  bypDue : x.bypDue = some due

section
variable (s : State) (k : Nat)

theorem State.faultClosed_frame :
    s.Frame (s.faultClosed k) (s.phaseBusy k ++ [F.CELL_STATE_SEQ_BUSY k]) [.cells] :=
  (((State.Frame.refl ..).and_then (State.sparePhase_frame ..) (by simp) (by simp)).put _ _ (by simp)
    (by simp)).setCellX _ _ (by simp)

/-- A fault bypass touches no field but SEQ_BUSY of the cells. -/
theorem State.faultClosed_get (f : Fld) (h : ∀ j, f.reg = R.CELL_STATE j → f.lo + f.wd ≤ 20 ∨ 21 ≤ f.lo) :
    (s.faultClosed k).get f = s.get f := by
  refine (s.faultClosed_frame k).get f fun g hg hr => ?_
  obtain ⟨j, rfl⟩ : ∃ j, g = F.CELL_STATE_SEQ_BUSY j := by
    rcases List.mem_append.mp hg with hg | hg
    · obtain ⟨j, -, rfl⟩ := List.mem_map.mp hg
      exact ⟨j, rfl⟩
    · exact ⟨k, List.mem_singleton.mp hg⟩
  exact h j hr.symm

@[simp] theorem State.faultClosed_isOn (d : Nat) : (s.faultClosed k).isOn d = s.isOn d :=
  (s.faultClosed_frame k).isOn (by simp [or_imp, forall_and]) d

theorem State.faultClosed_closing :
    ((s.faultClosed k).cell k).FaultClosing (s.now + s.get F.CELL_CTRL_BYP_TO * uMs) := by
  have hnow : (s.sparePhase k).now = s.now := (s.sparePhase_frame k).now
  have hto : (s.sparePhase k).get F.CELL_CTRL_BYP_TO = s.get F.CELL_CTRL_BYP_TO :=
    (s.sparePhase_frame k).get _ (by simp)
  constructor <;> simp [State.faultClosed, hnow, State.get_put_disjoint, hto]

/-- A halt changes nothing of the cell, nor of the register file outside the halt's own registers. -/
theorem State.faultBypass_cell : (s.faultBypass k).cell k = (s.faultClosed k).cell k := by
  rw [State.faultBypass_eq]
  split
  · exact State.laneHalt_cell ..
  · rfl

theorem State.faultBypass_get (f : Fld) (h1 : f.reg ≠ R.RING_HALT_STAT (ringOf k)) (h2 : f.reg ≠ R.CREMA_STICKY)
    (h3 : ∀ j, f.reg = R.CELL_STATE j → f.lo + f.wd ≤ 20 ∨ 21 ≤ f.lo) : (s.faultBypass k).get f = s.get f := by
  rw [State.faultBypass_eq]
  split
  · rw [State.laneHalt_get _ _ _ h1 h2, State.faultClosed_get _ _ _ h3]
  · exact s.faultClosed_get k f h3

end

/-! ### Entry into FAULTED (R101, R107, R108) -/

theorem satN_mod (n x : Nat) : satN (2 ^ n - 1) x % 2 ^ n = min (2 ^ n - 1) x := by
  have hpos := Nat.two_pow_pos n
  unfold satN
  split <;> rw [Nat.mod_eq_of_lt (by omega)] <;> omega

/-- R108: the times of the entries into FAULTED of the last 24 h of module time, this one first. -/
def State.faultTimes (s : State) (k : Nat) : List Nat :=
  s.mtUnits :: (s.cell k).faults.filter fun u => s.mtUnits < u + 86400 * uS

/-- R108: the entry into FAULTED, before its bypass. -/
def State.faultEntered (s : State) (k reason : Nat) : State :=
  let s1 := ((s.setCell k cFAULTED reason).put (F.CELL_DIAG_VALID k) 0).putSat (F.CELL_FAULTS_FAULT24 k)
    (s.faultTimes k).length
  s1.setCellX k { s1.cell k with faults := s.faultTimes k }

theorem State.faultCell_eq (s : State) (k reason : Nat) :
    s.faultCell k reason = (s.faultEntered k reason).faultBypass k := rfl

/-- The fields of an entry into FAULTED, its bypass and the bypasses that give way to it. -/
abbrev State.faultFlds (s : State) (k : Nat) : List Fld :=
  s.phaseBusy k ++ F.CELL_STATE_SEQ_BUSY k :: F.CELL_DIAG_VALID k :: F.CELL_FAULTS_FAULT24 k ::
    (R.RING_MBX_STAT (ringOf k)).all :: F.WEAR_CELL_STAT_REC_PEND k :: stateFlds k

section
variable (s : State) (k reason : Nat)

theorem State.faultEntered_frame : s.Frame (s.faultEntered k reason)
    (F.CELL_DIAG_VALID k :: F.CELL_FAULTS_FAULT24 k :: (R.RING_MBX_STAT (ringOf k)).all ::
      F.WEAR_CELL_STAT_REC_PEND k :: stateFlds k) [.cells, .link, .wear, .log] :=
  ((((State.Frame.refl ..).and_then (State.setCell_frame ..) (by simp) (by simp)).put _ _ (by simp) (by simp)).putSat
    _ _ (by simp) (by simp)).setCellX _ _ (by simp)

theorem State.faultEntered_get (f : Fld) (h1 : f.reg ≠ R.CELL_DIAG k) (h2 : f.reg ≠ R.CELL_FAULTS k) :
    (s.faultEntered k reason).get f = (s.setCell k 8 reason).get f := by
  unfold State.faultEntered
  rw [State.setCellX_get, State.putSat, State.get_put_other _ _ _ _ h2, State.get_put_other _ _ _ _ h1]

theorem State.faultEntered_phaseBusy : (s.faultEntered k reason).phaseBusy k = s.phaseBusy k := by
  have hframe := s.faultEntered_frame k reason
  unfold State.phaseBusy
  rw [hframe.phaseCells (by simp), hframe.phaseOf (by simp)]

@[simp] theorem State.faultCell_state : (s.faultCell k reason).get (F.CELL_STATE_STATE k) = 8 := by
  rw [State.faultCell_eq, State.faultBypass_get _ _ _ (by simp) (by simp) (by simp),
    State.faultEntered_get _ _ _ _ (by simp) (by simp), State.setCell_state]

@[simp] theorem State.faultCell_reason : (s.faultCell k reason).get (F.CELL_STATE_REASON k) = reason % 256 := by
  rw [State.faultCell_eq, State.faultBypass_get _ _ _ (by simp) (by simp) (by simp),
    State.faultEntered_get _ _ _ _ (by simp) (by simp), State.setCell_reason]

@[simp] theorem State.faultCell_diagValid : (s.faultCell k reason).get (F.CELL_DIAG_VALID k) = 0 := by
  rw [State.faultCell_eq, State.faultBypass_get _ _ _ (by simp) (by simp) (by simp)]
  unfold State.faultEntered
  rw [State.setCellX_get, State.putSat, State.get_put_other _ _ _ _ (by simp), State.get_put_same _ _ _ (by simp),
    Nat.zero_mod]

theorem State.faultCell_fault24 :
    (s.faultCell k reason).get (F.CELL_FAULTS_FAULT24 k) = min (2 ^ 4 - 1) (s.faultTimes k).length := by
  rw [State.faultCell_eq, State.faultBypass_get _ _ _ (by simp) (by simp) (by simp)]
  unfold State.faultEntered
  rw [State.setCellX_get, State.putSat, State.get_put_same _ _ _ (by simp), satN_mod 4]

theorem State.faultCell_closing :
    ((s.faultCell k reason).cell k).FaultClosing (s.now + s.get F.CELL_CTRL_BYP_TO * uMs) := by
  have hnow : (s.faultEntered k reason).now = s.now := (s.faultEntered_frame k reason).now
  have hto : (s.faultEntered k reason).get F.CELL_CTRL_BYP_TO = s.get F.CELL_CTRL_BYP_TO :=
    (s.faultEntered_frame k reason).get _ (by simp)
  rw [State.faultCell_eq, State.faultBypass_cell, ← hnow, ← hto]
  exact State.faultClosed_closing ..

/-- A field of another register than those of an entry into FAULTED. -/
theorem State.faultCell_faults (f : Fld) (h1 : f.reg = R.CELL_FAULTS k) (h2 : f.lo + f.wd ≤ 8) :
    (s.faultCell k reason).get f = s.get f := by
  rw [State.faultCell_eq, State.faultBypass_get _ _ _ (by simp [h1]) (by simp [h1]) (by simp [h1])]
  exact (s.faultEntered_frame k reason).get f (by simp [h1, h2])

/-- An entry into FAULTED of a cell with a bypass. -/
theorem State.faultCell_frame {s : State} {k : Nat} (h : s.get (F.CELL_STATE_NO_BYPASS k) = 0) (reason : Nat) :
    s.Frame (s.faultCell k reason) (s.faultFlds k) [.cells, .link, .wear, .log] := by
  have hno : (s.faultEntered k reason).get (F.CELL_STATE_NO_BYPASS k) = 0 := by
    rw [(s.faultEntered_frame k reason).get _ (by simp), h]
  rw [State.faultCell_eq, State.faultBypass_quiet (.inl hno)]
  refine (((State.Frame.refl ..).and_then (s.faultEntered_frame k reason) (by simp) (by simp)).and_then
    (State.faultClosed_frame ..) ?_ (by simp))
  rw [State.faultEntered_phaseBusy]
  simp

end

/-! ### A bypass that does not close (R113) -/

theorem State.bypFault_quiet {s : State} {k : Nat} (h : s.cluRunning (ringOf k) = false) : s.bypFault k =
    (((s.put (F.CELL_FAULTS_BYP_FAULT k) 1).put (F.CELL_STATE_SEQ_BUSY k) 0).lockOut k 0x0F).setCellX k
      { (((s.put (F.CELL_FAULTS_BYP_FAULT k) 1).put (F.CELL_STATE_SEQ_BUSY k) 0).lockOut k 0x0F).cell k with
        block := true, seq := .none, bypDue := none, share := .zero } :=
  if_neg (by simp [h])

theorem mem_cellsOf_ringOf (k : Nat) : k ∈ cellsOf (ringOf k) :=
  List.mem_map.mpr ⟨k % 128, List.mem_range.mpr (Nat.mod_lt _ (by decide)), Nat.div_add_mod k 128⟩

theorem State.bypBlock_of_cell {s : State} {k : Nat} (h : (s.cell k).block = true) : s.bypBlock (ringOf k) = true :=
  List.any_eq_true.mpr ⟨k, mem_cellsOf_ringOf k, h⟩

end Sys2Proof.Machine
end

section
/-! The timers of diagnosis, bypass and return, case by case (R99–R101, R112–R114). -/

namespace Sys2Proof.Machine

/-! ### Happenings of a cell (R102) -/

@[simp] theorem State.due_some (s : State) (d : Nat) : s.due (some d) = decide (d ≤ s.now) := rfl

theorem instant_of_cellHappenings {t : Nat} {k : CellIx} {p : Instr × CellEv} (hp : p ∈ cellHappenings t k) :
    p.1.instant = t := by
  simp only [cellHappenings, List.mem_cons, List.not_mem_nil, or_false] at hp
  rcases hp with rfl | rfl | rfl | rfl | rfl | rfl | rfl | rfl | rfl | rfl | rfl | rfl | rfl | rfl <;> rfl

theorem exec_of_cellHappenings {t : Nat} {k : CellIx} {p : Instr × CellEv} (hp : p ∈ cellHappenings t k) (s : State) :
    exec p.1 s = .next ((s.advance t).inDom domVOTE fun x => x.cellEvent p.2 k) := by
  simp only [cellHappenings, List.mem_cons, List.not_mem_nil, or_false] at hp
  rcases hp with rfl | rfl | rfl | rfl | rfl | rfl | rfl | rfl | rfl | rfl | rfl | rfl | rfl | rfl <;> rfl

theorem exec_cellHappening {t : Nat} {k : CellIx} {p : Instr × CellEv} (hp : p ∈ cellHappenings t k) {s : State}
    (hw : s.works domVOTE = true) : exec p.1 s = .next ((s.advance t).cellEvent p.2 k) := by
  rw [exec_of_cellHappenings hp, State.inDom, State.advance_works, if_pos hw]

theorem State.ask_mem (s : State) (x : CellAsk) : x ∈ (s.ask x).cells.asks := by
  unfold State.ask
  split
  · rename_i h
    exact List.contains_iff_mem.mp h
  · exact List.mem_append_right _ (List.mem_singleton.mpr rfl)

theorem State.ask_frame (s : State) (x : CellAsk) : s.Frame (s.ask x) [] [.cells] :=
  .ite (.refl ..) ((State.Frame.refl ..).setCells _ (by simp))

section
variable {t : Nat} {k : CellIx} {s : State} {fs : List Fld} {ps : List Part} {P : State → Prop}

/-- R102: elsewhere than at an input freeze a happening waits for the next. -/
theorem effect_of_waiting {p : Instr × CellEv} (hp : p ∈ cellHappenings t k) (hw : s.works domVOTE = true)
    (hf : (s.advance t).atFreeze = false) :
    Effect p.1 s [] [.cells] fun s' => CellAsk.happen p.2 k ∈ s'.cells.asks := by
  refine ⟨_, exec_cellHappening hp hw, ?_⟩
  rw [instant_of_cellHappenings hp, State.cellEvent, hf]
  exact ⟨State.ask_frame .., State.ask_mem ..⟩

/-- R102: at an input freeze a happening takes effect. -/
theorem effect_of_happen {c : Instr} {e : CellEv} (hp : (c, e) ∈ cellHappenings t k) (hw : s.works domVOTE = true)
    (hf : (s.advance t).atFreeze = true)
    (h : (s.advance t).Frame ((s.advance t).happen k e) fs ps ∧ P ((s.advance t).happen k e)) : Effect c s fs ps P := by
  refine ⟨_, (exec_cellHappening hp hw).trans (congrArg _ (if_pos hf)), ?_⟩
  rw [show c.instant = t from instant_of_cellHappenings hp]
  exact h

/-- A happening whose condition fails changes nothing. -/
theorem effect_of_idle {c : Instr} {e : CellEv} (hp : (c, e) ∈ cellHappenings t k) (hw : s.works domVOTE = true)
    (hf : (s.advance t).atFreeze = true) (h : (s.advance t).happen k e = s.advance t) :
    Effect c s [] [] fun _ => True :=
  effect_of_happen hp hw hf ⟨h.symm ▸ .refl .., trivial⟩

end

/-! ### Diagnosis (R99–R101) -/

section
variable {s : State} {k d : Nat}

/-- R101: a failed diagnosis is counted and logged, and its sequence ends. -/
def State.diagLogged (s : State) (k byte : Nat) : State :=
  (((s.count (F.CELL_DIAG_ATTEMPTS k) 1).event Ev.CELL_DIAG_FAIL k [.w byte]).put (F.CELL_FAULTS_DIAG k) 1).put
    (F.CELL_STATE_SEQ_BUSY k) 0

theorem State.diagLogged_frame (s : State) (k byte : Nat) : s.Frame (s.diagLogged k byte)
    [F.CELL_STATE_SEQ_BUSY k, F.CELL_DIAG_ATTEMPTS k, F.CELL_FAULTS_DIAG k, logFld] [.log] :=
  ((((State.Frame.refl ..).count _ _ (by simp) (by simp)).event _ _ _ (by simp) (by simp)).put _ _ (by simp)
    (by simp)).put _ _ (by simp) (by simp)

theorem State.diagLogged_logs (s : State) (k byte : Nat) :
    s.Logs (s.diagLogged k byte) [(Ev.CELL_DIAG_FAIL, k, [.w byte])] :=
  ((State.Logs.one _ _ _ (State.count_log ..) (State.isOn_put _ _ _ _ (by simp) (by simp))
    (State.isOn_put _ _ _ _ (by simp) (by simp))).put _ _).put _ _

/-- R101: after the first failure the cell waits, stopped, for the repeat. -/
def CellX.diagOnceFailed (x : CellX) (now : Nat) : CellX :=
  { x with mode := mSTOP, byp := 0, seq := .none, diagDue := none, diagFail := 1, diagRetry := some (now + uS) }

theorem State.diagFailed_first (hst : s.cellState k = 3) (hfail : (s.cell k).diagFail = 0) (reason byte : Nat) :
    s.diagFailed k reason byte = ((s.diagLogged k byte).setCell k 2 reason).setCellX k
      ((((s.diagLogged k byte).setCell k 2 reason).cell k).diagOnceFailed
        ((s.diagLogged k byte).setCell k 2 reason).now) := by
  unfold State.diagFailed
  dsimp only
  rw [if_pos hfail, if_neg (by simp [hst])]
  rfl

theorem State.diagFailed_second (hfail : (s.cell k).diagFail ≠ 0) (reason byte : Nat) :
    s.diagFailed k reason byte = ((s.diagLogged k byte).setCellX k
      { (s.diagLogged k byte).cell k with diagFail := 0, diagDue := none }).faultCell k reason := if_neg hfail

theorem State.diagTimeout_due (hst : s.cellState k = 3) (hdue : (s.cell k).diagDue = some d) (hd : d ≤ s.now) :
    s.diagTimeout k = s.diagFailed k 0x0A (s.cell k).diag := if_pos ⟨hst, by simpa [hdue] using hd⟩

theorem State.diagTimeout_early (hdue : (s.cell k).diagDue = some d) (hd : s.now < d) : s.diagTimeout k = s :=
  if_neg fun h => by have h2 := h.2; simp [hdue] at h2; omega

/-- R101: the first diagnosis without a result in time. -/
theorem State.diagTimeout_first (hst : s.cellState k = 3) (hdue : (s.cell k).diagDue = some d) (hd : d ≤ s.now)
    (hfail : (s.cell k).diagFail = 0) :
    s.Frame (s.diagTimeout k) (F.CELL_STATE_SEQ_BUSY k :: F.CELL_DIAG_ATTEMPTS k :: F.CELL_FAULTS_DIAG k :: stateFlds k)
      [.cells, .log] ∧
    (s.diagTimeout k).cellState k = 2 ∧ (s.diagTimeout k).get (F.CELL_STATE_REASON k) = 0x0A ∧
    (s.diagTimeout k).get (F.CELL_FAULTS_DIAG k) = 1 ∧
    ((s.diagTimeout k).cell k).diagRetry = some (s.now + uS) ∧
    s.Logs (s.diagTimeout k) [(Ev.CELL_DIAG_FAIL, k, [.w (s.cell k).diag]),
      (Ev.CELL_STATE, k, [.w k, .w (3 : Nat), .w (2 : Nat), .w (0x0A : Nat)])] := by
  have hlogged := s.diagLogged_frame k (s.cell k).diag
  have hold : (s.diagLogged k (s.cell k).diag).cellState k = 3 := (hlogged.get _ (by simp)).trans hst
  rw [State.diagTimeout_due hst hdue hd, State.diagFailed_first hst hfail]
  refine ⟨?_, ?_, ?_, ?_, ?_, ?_⟩
  · exact (((State.Frame.refl ..).and_then hlogged (by simp) (by simp)).and_then
      (State.setCell_frame_of_lt _ _ _ (by decide)) (by simp) (by simp)).setCellX _ _ (by simp)
  · simp [State.cellState]
  · simp
  · simp [State.setCell_get, State.diagLogged, State.get_put_same, State.get_put_disjoint]
  · simp [CellX.diagOnceFailed, hlogged.now]
  · have hmoved := (s.diagLogged_logs k (s.cell k).diag).setCell k 2 0x0A (hlogged.isOn (by simp) _)
      (hlogged.isOn (by simp) _)
    rw [hold] at hmoved
    exact hmoved.setCellX _ _

/-- R101: the second in a row. -/
theorem State.diagTimeout_second (hst : s.cellState k = 3) (hdue : (s.cell k).diagDue = some d) (hd : d ≤ s.now)
    (hfail : (s.cell k).diagFail ≠ 0) :
    (s.diagTimeout k).cellState k = 8 ∧ (s.diagTimeout k).get (F.CELL_STATE_REASON k) = 0x0A ∧
    ((s.diagTimeout k).cell k).seq = .fault := by
  rw [State.diagTimeout_due hst hdue hd, State.diagFailed_second hfail]
  exact ⟨State.faultCell_state .., State.faultCell_reason .., (State.faultCell_closing ..).seq⟩

theorem State.startDiag_frame (s : State) (k : Nat) (byCmd : Bool) : s.Frame (s.startDiag k byCmd)
    [F.CELL_STATE_SEQ_BUSY k, (R.RING_MBX_STAT (ringOf k)).all] [.cells, .link] :=
  (((State.Frame.refl ..).put _ _ (by simp) (by simp)).setCellX _ _ (by simp)).and_then (State.mbxPost_frame ..)
    (by simp) (by simp)

theorem State.startDiag_busy (s : State) (k : Nat) (byCmd : Bool) : (s.startDiag k byCmd).seqBusy k = true := by
  simp [State.startDiag, State.seqBusy, State.flag_eq, State.get_put_same]

theorem State.startDiag_cell (s : State) (k : Nat) (byCmd : Bool) : (s.startDiag k byCmd).cell k =
    { s.cell k with mode := mDIAG, byp := bypOpen, closed := false, seq := .diagAsk byCmd, diagRetry := none,
                    lowAt := none } := by
  simp [State.startDiag]

/-- A cell whose repeat or check has come: neither waits any more. -/
def State.diagFreed (s : State) (k : Nat) : State := s.setCellX k { s.cell k with diagRetry := none, lowAt := none }

theorem State.diagFreed_frame (s : State) (k : Nat) : s.Frame (s.diagFreed k) [] [.cells] :=
  (State.Frame.refl ..).setCellX _ _ (by simp)

@[simp] theorem State.diagFreed_cell (s : State) (k : Nat) :
    (s.diagFreed k).cell k = { s.cell k with diagRetry := none, lowAt := none } := State.setCellX_cell_same ..

/-- R99, R101: the repeat after a failure and the check at LOW_VDC do the same once they are due. -/
theorem diagRepeat_happen {t : Nat} {k : CellIx} {c : Instr} (hst : s.cellState k = 2)
    (hc : (c = .cellDiagRetry t k ∧ (s.cell k).diagRetry = some d ∧ (s.cell k).lowAt = none) ∨
      (c = .cellLowVdcRecheck t k ∧ (s.cell k).lowAt = some d ∧ (s.cell k).diagRetry = none)) :
    ∃ e, (c, e) ∈ cellHappenings t k ∧ (d ≤ s.now → s.happen k e = (s.diagFreed k).tryDiag k) ∧
      (s.now < d → s.happen k e = s) := by
  rcases hc with ⟨rfl, hd, hnone⟩ | ⟨rfl, hd, hnone⟩
  · refine ⟨.diagRetry, by simp [cellHappenings], fun h => ?_, fun h => if_neg fun g => ?_⟩
    · refine (if_pos ⟨hst, by simpa [hd] using h⟩).trans ?_
      rw [State.diagFreed, ← hnone]
    · have hdue := g.2
      simp [hd] at hdue
      omega
  · refine ⟨.lowVdc, by simp [cellHappenings], fun h => ?_, fun h => if_neg fun g => ?_⟩
    · refine (if_pos ⟨hst, by simpa [hd] using h⟩).trans ?_
      rw [State.diagFreed, ← hnone]
    · have hdue := g.2
      simp [hd] at hdue
      omega

/-- R99: no diagnosis while a cell of the cluster is ACTIVE. -/
theorem State.tryDiag_active (h : s.cluActive (ringOf k) = true) : s.tryDiag k = s := if_pos (by simp [h])

/-- R99: what a diagnosis needs beside VDC. -/
structure State.Diagnosable (s : State) (k : Nat) : Prop where
  state   : s.cellState k = 2
  seq     : (s.cell k).seq = .none
  asked   : (s.cell k).paramAsked = true
  replied : (s.cell k).paramPend = 0
  disp    : (s.cell k).disp.getD 0 = 0
  active  : s.cluActive (ringOf k) = false

theorem State.Diagnosable.tryDiag_freed (h : s.Diagnosable k) : (s.diagFreed k).tryDiag k =
    if s.vdc k < 2000 then ((s.diagFreed k).put (F.CELL_STATE_REASON k) 0x06).setCellX k
      { (s.diagFreed k).cell k with lowAt := some (s.now + uS) }
    else (s.diagFreed k).startDiag k false := by
  have hact : (s.diagFreed k).cluActive (ringOf k) = false := h.active
  have hst : (s.diagFreed k).cellState k = 2 := h.state
  refine if_neg ?_
  simp [hact, hst, h.seq, h.asked, h.replied, h.disp]

theorem State.Diagnosable.tryDiag_low (h : s.Diagnosable k) (hv : s.vdc k < 2000) :
    s.Frame ((s.diagFreed k).tryDiag k) [F.CELL_STATE_REASON k] [.cells] ∧
    ((s.diagFreed k).tryDiag k).get (F.CELL_STATE_REASON k) = 0x06 ∧
    (((s.diagFreed k).tryDiag k).cell k).lowAt = some (s.now + uS) := by
  rw [h.tryDiag_freed, if_pos hv]
  refine ⟨?_, ?_, ?_⟩
  · exact (((State.Frame.refl ..).and_then (s.diagFreed_frame k) (by simp) (by simp)).put _ _ (by simp)
      (by simp)).setCellX _ _ (by simp)
  · simp [State.get_put_same]
  · rw [State.setCellX_cell_same]

theorem State.Diagnosable.tryDiag_start (h : s.Diagnosable k) (hv : 2000 ≤ s.vdc k) :
    s.Frame ((s.diagFreed k).tryDiag k) [F.CELL_STATE_SEQ_BUSY k, (R.RING_MBX_STAT (ringOf k)).all] [.cells, .link] ∧
    ((s.diagFreed k).tryDiag k).seqBusy k = true ∧ (((s.diagFreed k).tryDiag k).cell k).mode = 2 ∧
    (((s.diagFreed k).tryDiag k).cell k).byp = 0xC3 ∧ (((s.diagFreed k).tryDiag k).cell k).seq = .diagAsk false := by
  rw [h.tryDiag_freed, if_neg (by omega), State.startDiag_cell]
  exact ⟨((State.Frame.refl ..).and_then (s.diagFreed_frame k) (by simp) (by simp)).and_then (State.startDiag_frame ..)
    (by simp) (by simp), State.startDiag_busy .., rfl, rfl, rfl⟩

end

/-! ### Planned bypass (R112) -/

section
variable {s : State} {k g rs f d : Nat}

theorem State.rampEnd_due (hseq : (s.cell k).seq = .bypRamp g rs) (hshare : (s.cell k).share = .fall f)
    (h : f + s.get F.CELL_CTRL_RAMP * uMs ≤ s.now) : s.rampEnd k =
      s.setCellX k { s.cell k with share := .zero, seq := .bypZero g rs s.now } := by
  unfold State.rampEnd
  dsimp only
  rw [hseq, hshare]
  exact if_pos h

theorem State.rampEnd_early (hseq : (s.cell k).seq = .bypRamp g rs) (hshare : (s.cell k).share = .fall f)
    (h : s.now < f + s.get F.CELL_CTRL_RAMP * uMs) : s.rampEnd k = s := by
  unfold State.rampEnd
  dsimp only
  rw [hseq, hshare]
  exact if_neg (by omega)

/-- R112: a planned bypass that was not confirmed: the sequence ends and NO_BYPASS is set. -/
def State.bypassMissed (s : State) (k : Nat) : State :=
  ((s.endSeq k).put (F.CELL_STATE_NO_BYPASS k) 1).event Ev.CELL_BYPASS_TIMEOUT k []

theorem State.bypassMissed_frame (s : State) (k : Nat) : s.Frame (s.bypassMissed k)
    [F.CELL_STATE_SEQ_BUSY k, F.CELL_STATE_NO_BYPASS k, logFld] [.cells, .log] :=
  (((State.Frame.refl ..).and_then (State.endSeq_frame ..) (by simp) (by simp)).put _ _ (by simp) (by simp)).event
    _ _ _ (by simp) (by simp)

theorem State.bypassMissed_cell (s : State) (k : Nat) :
    (s.bypassMissed k).cell k = { s.cell k with seq := .none, bypDue := none } := by
  rw [State.bypassMissed, State.event_cell, State.put_cell, State.endSeq_cell]

theorem State.bypassMissed_busy (s : State) (k : Nat) : (s.bypassMissed k).get (F.CELL_STATE_SEQ_BUSY k) = 0 := by
  simp [State.bypassMissed, State.event_get, State.get_put_disjoint]

theorem State.bypassMissed_noBypass (s : State) (k : Nat) : (s.bypassMissed k).get (F.CELL_STATE_NO_BYPASS k) = 1 := by
  simp [State.bypassMissed, State.event_get, State.get_put_same]

theorem State.bypassMissed_logs (s : State) (k : Nat) :
    s.Logs (s.bypassMissed k) [(Ev.CELL_BYPASS_TIMEOUT, k, [])] := by
  have hon (d : Nat) : ((s.endSeq k).put (F.CELL_STATE_NO_BYPASS k) 1).isOn d = s.isOn d := by
    rw [State.isOn_put _ _ _ _ (by simp) (by simp), State.endSeq_isOn]
  exact State.Logs.one _ _ _ (State.put_log ..) (hon _) (hon _)

theorem State.bypassTimeout_due (hseq : (s.cell k).seq = .bypClose g rs) (hdue : (s.cell k).bypDue = some d)
    (h : d ≤ s.now) : s.bypassTimeout k = (s.bypassMissed k).setCellX k
      { (s.bypassMissed k).cell k with
        byp := 0, share := if s.cellState k = cACTIVE then .rise (s.bypassMissed k).now else .zero } := by
  unfold State.bypassTimeout
  dsimp only
  rw [hseq, hdue]
  exact if_pos (by simpa using h)

theorem State.bypassTimeout_early (hseq : (s.cell k).seq = .bypClose g rs) (hdue : (s.cell k).bypDue = some d)
    (h : s.now < d) : s.bypassTimeout k = s := by
  unfold State.bypassTimeout
  dsimp only
  rw [hseq, hdue]
  exact if_neg (by simpa using h)

/-- R112: the planned bypass that is not confirmed in time. -/
theorem State.bypassTimeout_ends (hseq : (s.cell k).seq = .bypClose g rs) (hdue : (s.cell k).bypDue = some d)
    (h : d ≤ s.now) :
    s.Frame (s.bypassTimeout k) [F.CELL_STATE_SEQ_BUSY k, F.CELL_STATE_NO_BYPASS k, logFld] [.cells, .log] ∧
    (s.bypassTimeout k).seqBusy k = false ∧ (s.bypassTimeout k).get (F.CELL_STATE_NO_BYPASS k) = 1 ∧
    ((s.bypassTimeout k).cell k).byp = 0 ∧ ((s.bypassTimeout k).cell k).seq = .none ∧
    (s.cellState k = 5 → ((s.bypassTimeout k).cell k).share = .rise s.now) ∧
    s.Logs (s.bypassTimeout k) [(Ev.CELL_BYPASS_TIMEOUT, k, [])] := by
  rw [State.bypassTimeout_due hseq hdue h]
  refine ⟨?_, ?_, ?_, ?_, ?_, fun hst => ?_, ?_⟩
  · exact (s.bypassMissed_frame k).setCellX _ _ (by simp)
  · rw [State.seqBusy, State.setCellX_flag, State.flag_eq, State.bypassMissed_busy]
    rfl
  · rw [State.setCellX_get, State.bypassMissed_noBypass]
  · rw [State.setCellX_cell_same]
  · rw [State.setCellX_cell_same, State.bypassMissed_cell]
  · rw [State.setCellX_cell_same]
    exact (if_pos hst).trans (congrArg Share.rise (s.bypassMissed_frame k).now)
  · exact (s.bypassMissed_logs k).setCellX _ _

/-! ### Fault bypass (R113) -/

theorem State.faultTimeout_due (hseq : (s.cell k).seq = .fault) (hdue : (s.cell k).bypDue = some d) (h : d ≤ s.now) :
    s.faultTimeout k = s.bypFault k := if_pos ⟨hseq, by simpa [hdue] using h⟩

theorem State.faultTimeout_early (hdue : (s.cell k).bypDue = some d) (h : s.now < d) : s.faultTimeout k = s :=
  if_neg fun g => by have g2 := g.2; simp [hdue] at g2; omega

/-- R113: a fault bypass that is not confirmed in time, in a cluster that stands. -/
theorem State.faultTimeout_locks (hseq : (s.cell k).seq = .fault) (hdue : (s.cell k).bypDue = some d) (h : d ≤ s.now)
    (hrun : s.cluRunning (ringOf k) = false) :
    s.Frame (s.faultTimeout k) (F.CELL_STATE_SEQ_BUSY k :: F.CELL_FAULTS_BYP_FAULT k :: lockFlds k)
      [.cells, .link, .wear, .log] ∧
    (s.faultTimeout k).cellState k = 9 ∧ (s.faultTimeout k).get (F.CELL_STATE_REASON k) = 0x0F ∧
    (s.faultTimeout k).get (F.CELL_FAULTS_BYP_FAULT k) = 1 ∧ (s.faultTimeout k).bypBlock (ringOf k) = true := by
  rw [State.faultTimeout_due hseq hdue h, State.bypFault_quiet hrun]
  refine ⟨?_, ?_, ?_, ?_, ?_⟩
  · exact ((((State.Frame.refl ..).put _ _ (by simp) (by simp)).put _ _ (by simp) (by simp)).and_then
      (State.lockOut_frame ..) (by simp) (by simp)).setCellX _ _ (by simp)
  · simp [State.cellState]
  · simp
  · simp [State.lockOut_get, State.get_put_same, State.get_put_disjoint]
  · exact State.bypBlock_of_cell (by rw [State.setCellX_cell_same])

/-! ### Return to service (R114) -/

theorem State.returnOpen_due (hseq : (s.cell k).seq = .retZero rs f)
    (h : f + s.link.d * s.periodU + s.carP (ringOf k) ≤ s.now) : s.returnOpen k =
      s.setCellX k { s.cell k with seq := .retOpen rs, byp := bypOpen, closed := false,
                                   bypDue := some (s.now + s.get F.CELL_CTRL_BYP_TO * uMs) } := by
  unfold State.returnOpen
  dsimp only
  rw [hseq]
  exact if_pos (decide_eq_true h)

theorem State.returnOpen_early (hseq : (s.cell k).seq = .retZero rs f)
    (h : s.now < f + s.link.d * s.periodU + s.carP (ringOf k)) : s.returnOpen k = s := by
  unfold State.returnOpen
  dsimp only
  rw [hseq]
  exact if_neg (by simp [State.zeroLong, h])

/-- R114: a return that did not open in time. -/
def State.returnMissed (s : State) (k : Nat) : State := (s.endSeq k).event Ev.CELL_BYPASS_TIMEOUT k []

theorem State.returnMissed_logs (s : State) (k : Nat) :
    s.Logs (s.returnMissed k) [(Ev.CELL_BYPASS_TIMEOUT, k, [])] :=
  State.Logs.one _ _ _ (State.endSeq_log ..) (State.endSeq_isOn ..) (State.endSeq_isOn ..)

theorem State.returnTimeout_due (hseq : (s.cell k).seq = .retOpen rs) (hdue : (s.cell k).bypDue = some d)
    (h : d ≤ s.now) : s.returnTimeout k =
      (s.returnMissed k).setCellX k { (s.returnMissed k).cell k with mode := mSTOP, byp := 0 } := by
  unfold State.returnTimeout
  dsimp only
  rw [hseq, hdue]
  exact if_pos (by simpa using h)

theorem State.returnTimeout_early (hseq : (s.cell k).seq = .retOpen rs) (hdue : (s.cell k).bypDue = some d)
    (h : s.now < d) : s.returnTimeout k = s := by
  unfold State.returnTimeout
  dsimp only
  rw [hseq, hdue]
  exact if_neg (by simpa using h)

theorem State.returnTimeout_ends (hseq : (s.cell k).seq = .retOpen rs) (hdue : (s.cell k).bypDue = some d)
    (h : d ≤ s.now) :
    s.Frame (s.returnTimeout k) [F.CELL_STATE_SEQ_BUSY k, logFld] [.cells, .log] ∧
    (s.returnTimeout k).seqBusy k = false ∧ (s.returnTimeout k).cellState k = s.cellState k ∧
    ((s.returnTimeout k).cell k).seq = .none ∧ ((s.returnTimeout k).cell k).mode = 0 ∧
    s.Logs (s.returnTimeout k) [(Ev.CELL_BYPASS_TIMEOUT, k, [])] := by
  rw [State.returnTimeout_due hseq hdue h]
  refine ⟨?_, ?_, ?_, ?_, ?_, ?_⟩
  · exact (((State.Frame.refl ..).and_then (State.endSeq_frame ..) (by simp) (by simp)).event _ _ _ (by simp)
      (by simp)).setCellX _ _ (by simp)
  · simp [State.seqBusy, State.flag_eq, State.returnMissed, State.event_get]
  · simp [State.cellState, State.returnMissed, State.event_get, State.endSeq_get]
  · simp [State.returnMissed]
  · rw [State.setCellX_cell_same]
  · exact (s.returnMissed_logs k).setCellX _ _

end

/-- Settles O24: at an input freeze each timer does what its equation says once it is due (`State.diagTimeout_first` to
`State.returnTimeout_ends`) and nothing before; elsewhere it waits. -/
theorem cellSequenceTimers : Obligations.CellSequenceTimers := by
  intro t k s hw now x st busy
  have idle {c : Instr} (e : CellEv) (hf : (s.advance t).atFreeze = true) (hp : (c, e) ∈ cellHappenings t k)
      (h : (s.advance t).happen k e = s.advance t) : Effect c s [] [] fun _ => True := effect_of_idle hp hw hf h
  refine ⟨fun hf p hp => effect_of_waiting hp hw hf, fun hf => ⟨fun d hdue hst => ⟨fun hd hfail => ?_,
    fun hd hfail => ?_, fun hd => ?_⟩, fun c d hst hc => ?_, fun g rs f hseq hshare => ⟨fun h => ?_, fun h => ?_⟩,
    fun g rs d hseq hdue => ⟨fun h => ?_, fun h => ?_⟩, fun d hseq hdue => ⟨fun h hrun => ?_, fun h => ?_⟩,
    fun rs f hseq => ⟨fun h => ?_, fun h => ?_⟩, fun rs d hseq hdue => ⟨fun h => ?_, fun h => ?_⟩⟩⟩
  · exact effect_of_happen (e := .diagTimeout) (by simp [cellHappenings]) hw hf
      (State.diagTimeout_first (s := s.advance t) hst hdue hd hfail)
  · exact ⟨_, (exec_cellHappening (p := (.cellDiagTimeout t k, .diagTimeout)) (by simp [cellHappenings]) hw).trans
      (congrArg _ (if_pos hf)), State.diagTimeout_second (s := s.advance t) hst hdue hd hfail⟩
  · exact idle .diagTimeout hf (by simp [cellHappenings]) (State.diagTimeout_early (s := s.advance t) hdue hd)
  · obtain ⟨e, hp, hdue, hearly⟩ := diagRepeat_happen (s := s.advance t) (t := t) (k := k) hst hc
    refine ⟨fun hd hseq hasked hpend hdisp hact => ?_, fun hd hact => ?_, fun hd => idle e hf hp (hearly hd)⟩
    · have hdiag : (s.advance t).Diagnosable k := ⟨hst, hseq, hasked, hpend, hdisp, hact⟩
      refine ⟨fun hv => effect_of_happen hp hw hf ?_, fun hv => effect_of_happen hp hw hf ?_⟩
      · rw [hdue hd]
        exact hdiag.tryDiag_low hv
      · rw [hdue hd]
        exact hdiag.tryDiag_start hv
    · refine effect_of_happen hp hw hf ?_
      rw [hdue hd, State.tryDiag_active (s := (s.advance t).diagFreed k) hact, State.diagFreed_cell]
      exact ⟨State.diagFreed_frame .., rfl, rfl, rfl⟩
  · refine effect_of_happen (k := k) (e := .rampEnd) (by simp [cellHappenings]) hw hf ?_
    rw [State.happen, State.rampEnd_due (s := s.advance t) hseq hshare h, State.setCellX_cell_same]
    exact ⟨(State.Frame.refl ..).setCellX _ _ (by simp), rfl, rfl⟩
  · exact idle .rampEnd hf (by simp [cellHappenings]) (State.rampEnd_early (s := s.advance t) hseq hshare h)
  · exact effect_of_happen (e := .bypassTimeout) (by simp [cellHappenings]) hw hf
      (State.bypassTimeout_ends (s := s.advance t) hseq hdue h)
  · exact idle .bypassTimeout hf (by simp [cellHappenings]) (State.bypassTimeout_early (s := s.advance t) hseq hdue h)
  · exact effect_of_happen (e := .faultTimeout) (by simp [cellHappenings]) hw hf
      (State.faultTimeout_locks (s := s.advance t) hseq hdue h hrun)
  · exact idle .faultTimeout hf (by simp [cellHappenings]) (State.faultTimeout_early (s := s.advance t) hdue h)
  · refine effect_of_happen (k := k) (e := .returnOpen) (by simp [cellHappenings]) hw hf ?_
    rw [State.happen, State.returnOpen_due (s := s.advance t) hseq h, State.setCellX_cell_same]
    exact ⟨(State.Frame.refl ..).setCellX _ _ (by simp), rfl, rfl, rfl, rfl⟩
  · exact idle .returnOpen hf (by simp [cellHappenings]) (State.returnOpen_early (s := s.advance t) hseq h)
  · exact effect_of_happen (e := .returnTimeout) (by simp [cellHappenings]) hw hf
      (State.returnTimeout_ends (s := s.advance t) hseq hdue h)
  · exact idle .returnTimeout hf (by simp [cellHappenings]) (State.returnTimeout_early (s := s.advance t) hseq hdue h)

end Sys2Proof.Machine
end

section
/-! The start of planned bypasses and returns, faults and overtemperature of a cell, and its telemetry snapshot
(R106–R108, R111–R114, R132, R469). -/

namespace Sys2Proof.Machine

/-! ### Planned bypass and return (R112, R114) -/

section
variable {s : State} {k goal reason : Nat}

theorem State.startBypass_frame (s : State) (k goal reason : Nat) :
    s.Frame (s.startBypass k goal reason) [F.CELL_STATE_SEQ_BUSY k] [.cells] := by
  have hput : s.Frame (s.put (F.CELL_STATE_SEQ_BUSY k) 1) [F.CELL_STATE_SEQ_BUSY k] [.cells] :=
    (State.Frame.refl ..).put _ _ (by simp) (by simp)
  exact .ite (.ite (hput.setCellX _ _ (by simp)) (hput.setCellX _ _ (by simp))) (hput.setCellX _ _ (by simp))

theorem State.startBypass_busy (s : State) (k goal reason : Nat) : (s.startBypass k goal reason).seqBusy k = true := by
  have hput : (s.put (F.CELL_STATE_SEQ_BUSY k) 1).seqBusy k = true := by
    simp [State.seqBusy, State.flag_eq, State.get_put_same]
  unfold State.startBypass
  dsimp only
  split
  · split <;> exact hput
  · exact hput

/-- R112: the share of an ACTIVE cell falls over the ramp, or at once where there is none. -/
def State.FallsTo (s : State) (x : CellX) (goal reason : Nat) : Prop :=
  if s.get F.CELL_CTRL_RAMP = 0 then x.share = .zero ∧ x.seq = .bypZero goal reason s.now
  else x.share = .fall s.now ∧ x.seq = .bypRamp goal reason

theorem State.startBypass_active (h : s.cellState k = 5) :
    s.FallsTo ((s.startBypass k goal reason).cell k) goal reason := by
  unfold State.startBypass State.FallsTo
  dsimp only
  rw [if_pos h]
  split
  · rw [State.setCellX_cell_same]
    exact ⟨rfl, rfl⟩
  · rw [State.setCellX_cell_same]
    exact ⟨rfl, rfl⟩

/-- R112: a READY cell has no ramp. -/
theorem State.startBypass_ready (h : s.cellState k ≠ 5) : (s.startBypass k goal reason).cell k =
    { s.cell k with share := .zero, seq := .bypClose goal reason, byp := bypClose, closed := true,
                    bypDue := some (s.now + s.get F.CELL_CTRL_BYP_TO * uMs) } := by
  unfold State.startBypass
  dsimp only
  rw [if_neg h, State.setCellX_cell_same, State.get_put_other _ _ _ _ (by simp), State.put_cell, State.put_now]

theorem State.startReturn_frame (s : State) (k reason : Nat) :
    s.Frame (s.startReturn k reason) [F.CELL_STATE_SEQ_BUSY k] [.cells] := by
  have hput : s.Frame (s.put (F.CELL_STATE_SEQ_BUSY k) 1) [F.CELL_STATE_SEQ_BUSY k] [.cells] :=
    (State.Frame.refl ..).put _ _ (by simp) (by simp)
  exact .ite (hput.setCellX _ _ (by simp)) (hput.setCellX _ _ (by simp))

theorem State.startReturn_busy (s : State) (k reason : Nat) : (s.startReturn k reason).seqBusy k = true := by
  have hput : (s.put (F.CELL_STATE_SEQ_BUSY k) 1).seqBusy k = true := by
    simp [State.seqBusy, State.flag_eq, State.get_put_same]
  unfold State.startReturn
  dsimp only
  split <;> exact hput

/-- R114: in a running cluster the zero state comes first. -/
theorem State.startReturn_running (h : s.cluRunning (ringOf k) = true) : (s.startReturn k reason).cell k =
    { s.cell k with mode := mRUN, share := .zero, seq := .retZero reason s.now } := by
  unfold State.startReturn
  dsimp only
  rw [if_pos h, State.setCellX_cell_same, State.put_cell, State.put_now]

theorem State.startReturn_stopped (h : s.cluRunning (ringOf k) = false) : (s.startReturn k reason).cell k =
    { s.cell k with mode := mSTOP, byp := bypOpen, closed := false, seq := .retOpen reason,
                    bypDue := some (s.now + s.get F.CELL_CTRL_BYP_TO * uMs) } := by
  unfold State.startReturn
  dsimp only
  rw [if_neg (by simp [h]), State.setCellX_cell_same, State.get_put_other _ _ _ _ (by simp), State.put_cell,
    State.put_now]

end

/-! ### A stale cell between two broken links (R106) -/

section
variable {s : State} {k : Nat}

/-- R106: an unreachable cell is BYPASSED and logged. -/
def State.lostMarked (s : State) (k : Nat) : State :=
  (((s.setCell k 6 0x0D).endSeq k).put (F.CELL_FAULTS_UNREACHABLE k) 1).event Ev.CELL_UNREACHABLE k []

theorem State.lostMarked_frame (s : State) (k : Nat) : s.Frame (s.lostMarked k)
    (F.CELL_STATE_SEQ_BUSY k :: F.CELL_FAULTS_UNREACHABLE k :: stateFlds k) [.cells, .log] :=
  ((((State.Frame.refl ..).and_then (State.setCell_frame_of_lt _ _ _ (by decide)) (by simp) (by simp)).and_then
    (State.endSeq_frame ..) (by simp) (by simp)).put _ _ (by simp) (by simp)).event _ _ _ (by simp) (by simp)

theorem State.lostMarked_state (s : State) (k : Nat) : (s.lostMarked k).get (F.CELL_STATE_STATE k) = 6 := by
  simp [State.lostMarked, State.event_get, State.get_put_other, State.endSeq_get]

theorem State.lostMarked_reason (s : State) (k : Nat) : (s.lostMarked k).get (F.CELL_STATE_REASON k) = 0x0D := by
  simp [State.lostMarked, State.event_get, State.get_put_other, State.endSeq_get]

theorem State.lostMarked_flag (s : State) (k : Nat) : (s.lostMarked k).get (F.CELL_FAULTS_UNREACHABLE k) = 1 := by
  simp [State.lostMarked, State.event_get, State.get_put_same]

theorem State.lostMarked_logs (s : State) (k : Nat) : s.Logs (s.lostMarked k)
    [(Ev.CELL_STATE, k, [.w k, .w (s.cellState k), .w (6 : Nat), .w (0x0D : Nat)]), (Ev.CELL_UNREACHABLE, k, [])] := by
  have hon (d : Nat) : (((s.setCell k 6 0x0D).endSeq k).put (F.CELL_FAULTS_UNREACHABLE k) 1).isOn d =
      s.isOn d := by
    rw [State.isOn_put _ _ _ _ (by simp) (by simp), State.endSeq_isOn, State.setCell_isOn]
  exact ((((State.Logs.none rfl).setCell k 6 0x0D rfl rfl).then (State.endSeq_log ..)).put _ _).event _ _ _
    (hon _) (hon _)

theorem State.lostCell_lost (hst : s.cellState k = 5 ∨ s.cellState k = 4)
    (hlim : s.get F.CELL_CTRL_STALE_LIM ≤ s.get (F.CELL_STALE_RUN k)) (hun : s.unreachable k = true) :
    s.lostCell k = (s.lostMarked k).setCellX k
      { (s.lostMarked k).cell k with share := .zero, mode := mSTOP, byp := bypClose, closed := true } :=
  if_pos ⟨hlim, hun, hst⟩

theorem State.lostCell_reachable (h : s.unreachable k = false) : s.lostCell k = s := if_neg (by simp [h])

theorem State.lostCell_bypassed (hst : s.cellState k = 5 ∨ s.cellState k = 4)
    (hlim : s.get F.CELL_CTRL_STALE_LIM ≤ s.get (F.CELL_STALE_RUN k)) (hun : s.unreachable k = true) :
    s.Frame (s.lostCell k) (F.CELL_STATE_SEQ_BUSY k :: F.CELL_FAULTS_UNREACHABLE k :: stateFlds k) [.cells, .log] ∧
    (s.lostCell k).cellState k = 6 ∧ (s.lostCell k).get (F.CELL_STATE_REASON k) = 0x0D ∧
    (s.lostCell k).get (F.CELL_FAULTS_UNREACHABLE k) = 1 ∧ ((s.lostCell k).cell k).share = .zero ∧
    ((s.lostCell k).cell k).byp = 0x3C ∧
    s.Logs (s.lostCell k) [(Ev.CELL_STATE, k, [.w k, .w (s.cellState k), .w (6 : Nat), .w (0x0D : Nat)]),
      (Ev.CELL_UNREACHABLE, k, [])] := by
  rw [State.lostCell_lost hst hlim hun]
  refine ⟨(s.lostMarked_frame k).setCellX _ _ (by simp), ?_, ?_, ?_, ?_, ?_, (s.lostMarked_logs k).setCellX _ _⟩
  · rw [State.setCellX_cellState, State.cellState, State.lostMarked_state]
  · rw [State.setCellX_get, State.lostMarked_reason]
  · rw [State.setCellX_get, State.lostMarked_flag]
  · rw [State.setCellX_cell_same]
  · rw [State.setCellX_cell_same]

/-! ### Faults that are shown and logged before the entry into FAULTED (R106, R132) -/

/-- What an entry into FAULTED leaves (R108, R113). -/
structure State.Fell (s s' : State) (k reason : Nat) : Prop where
  state     : s'.cellState k = 8
  reason    : s'.get (F.CELL_STATE_REASON k) = reason
  diagValid : s'.get (F.CELL_DIAG_VALID k) = 0
  closing   : (s'.cell k).FaultClosing (s.now + s.get F.CELL_CTRL_BYP_TO * uMs)
  fault24   : s'.get (F.CELL_FAULTS_FAULT24 k) = min (2 ^ 4 - 1) (s.faultTimes k).length

/-- A sticky bit of CELL_FAULTS below FAULT24. -/
abbrev stickyFld (k i : Nat) : Fld := ⟨R.CELL_FAULTS k, i, 1⟩

/-- A sticky bit set and an event, then the entry into FAULTED. -/
theorem State.faultCell_shown {i reason : Nat} (hi : i < 8) (hr : reason < 256)
    (hno : s.get (F.CELL_STATE_NO_BYPASS k) = 0) (code : Nat) (data : List DItem) :
    s.Frame (((s.put (stickyFld k i) 1).event code k data).faultCell k reason) (stickyFld k i :: s.faultFlds k)
      [.cells, .link, .wear, .log] ∧
    s.Fell (((s.put (stickyFld k i) 1).event code k data).faultCell k reason) k reason ∧
    (((s.put (stickyFld k i) 1).event code k data).faultCell k reason).get (stickyFld k i) = 1 := by
  have hshown : s.Frame ((s.put (stickyFld k i) 1).event code k data) [stickyFld k i, logFld] [.log] :=
    ((State.Frame.refl ..).put _ _ (by simp) (by dsimp only; omega)).event _ _ _ (by simp) (by simp)
  have hno' : ((s.put (stickyFld k i) 1).event code k data).get (F.CELL_STATE_NO_BYPASS k) = 0 := by
    rw [hshown.get _ (by simp), hno]
  have hbusy : ((s.put (stickyFld k i) 1).event code k data).phaseBusy k = s.phaseBusy k := by
    unfold State.phaseBusy
    rw [hshown.phaseCells (by simp), hshown.phaseOf (by simp)]
  have hframe := State.faultCell_frame hno' reason
  rw [State.faultFlds, hbusy] at hframe
  have htimes : ((s.put (stickyFld k i) 1).event code k data).faultTimes k = s.faultTimes k := by
    simp only [State.faultTimes, State.event_mtUnits, State.put_mtUnits, State.event_cell, State.put_cell]
  have hclosing := State.faultCell_closing ((s.put (stickyFld k i) 1).event code k data) k reason
  rw [hshown.now, hshown.get F.CELL_CTRL_BYP_TO (by simp)] at hclosing
  refine ⟨((State.Frame.refl ..).and_then hshown (by simp) (by simp)).and_then hframe
    (List.subset_cons_of_subset _ (fun _ h => h)) (by simp), ⟨?_, ?_, ?_, hclosing, ?_⟩, ?_⟩
  · exact State.faultCell_state ..
  · rw [State.faultCell_reason, Nat.mod_eq_of_lt hr]
  · exact State.faultCell_diagValid ..
  · rw [State.faultCell_fault24, htimes]
  · rw [State.faultCell_faults _ _ _ _ rfl (by dsimp only; omega), State.event_get _ _ _ _ _ (by simp),
      State.get_put_same _ _ _ (by dsimp only; omega)]
    rfl

theorem State.staleCell_due (hst : 2 ≤ s.cellState k) (hst' : s.cellState k ≤ 6)
    (hrun : s.get F.CELL_CTRL_STALE_FAULT ≤ s.get (F.CELL_STALE_RUN k)) (hun : s.unreachable k = false) :
    s.staleCell k = ((s.put (F.CELL_FAULTS_TELEMETRY k) 1).event Ev.CELL_STALE_FAULT k []).faultCell k 0x0C :=
  if_pos ⟨hrun, by simp [hun], hst, hst'⟩

theorem State.staleCell_early (h : s.get (F.CELL_STALE_RUN k) < s.get F.CELL_CTRL_STALE_FAULT) : s.staleCell k = s :=
  if_neg fun g => by have := g.1; omega

theorem State.latchCell_due (hst : 2 ≤ s.cellState k) (hst' : s.cellState k ≤ 6)
    (hn : s.get (F.PWM_TYPE_TRIP_TRIP_N (s.get (F.CELL_CFG_TYPE k))) ≤ s.get (F.PWM_CELL_TRIP_WIN k))
    (hpos : 0 < s.get (F.PWM_CELL_TRIP_WIN k)) :
    s.latchCell k = ((s.put (F.CELL_FAULTS_TRIP_LATCH k) 1).event Ev.PWM_TRIP_LATCH k [.w k]).faultCell k 0x0B :=
  if_pos ⟨hn, hpos, hst, hst'⟩

theorem State.latchCell_early
    (h : s.get (F.PWM_CELL_TRIP_WIN k) < s.get (F.PWM_TYPE_TRIP_TRIP_N (s.get (F.CELL_CFG_TYPE k)))) :
    s.latchCell k = s := if_neg fun g => by have := g.1; omega

/-! ### The third fault (R108) -/

theorem State.repeatFault_third (hst : s.cellState k = 8) (hn : 3 ≤ s.get (F.CELL_FAULTS_FAULT24 k)) :
    s.repeatFault k = ((s.setCell k 9 0x15).askDisp k 2).event Ev.CELL_REPEAT_FAULT k [] := by
  rw [← State.lockOut_enter (by omega)]
  exact if_pos ⟨hst, hn⟩

theorem State.repeatFault_few (hn : s.get (F.CELL_FAULTS_FAULT24 k) < 3) : s.repeatFault k = s :=
  if_neg fun g => by have := g.2; omega

theorem State.repeatFault_locks (hst : s.cellState k = 8) (hn : 3 ≤ s.get (F.CELL_FAULTS_FAULT24 k)) :
    s.Frame (s.repeatFault k) (F.CELL_DIAG_VALID k :: lockFlds k) [.cells, .link, .wear, .log] ∧
    (s.repeatFault k).cellState k = 9 ∧ (s.repeatFault k).get (F.CELL_STATE_REASON k) = 0x15 ∧
    (s.repeatFault k).get (F.CELL_STATE_DISP_PEND k) = 1 ∧
    s.Logs (s.repeatFault k) [(Ev.CELL_STATE, k, [.w k, .w (8 : Nat), .w (9 : Nat), .w (0x15 : Nat)]),
      (Ev.CELL_REPEAT_FAULT, k, [])] := by
  have hon (d : Nat) : ((s.setCell k 9 0x15).askDisp k 2).isOn d = s.isOn d := by
    rw [State.askDisp_isOn, State.setCell_isOn]
  have hmoved := (State.Logs.none (s := s) rfl).setCell k 9 0x15 rfl rfl
  rw [hst] at hmoved
  rw [State.repeatFault_third hst hn]
  refine ⟨?_, ?_, ?_, ?_, (hmoved.askDisp k 2).event _ _ _ (hon _) (hon _)⟩
  · exact (((State.Frame.refl ..).and_then (State.setCell_frame ..) (by simp) (by simp)).and_then
      (State.askDisp_frame ..) (by simp) (by simp)).event _ _ _ (by simp) (by simp)
  · simp [State.cellState, State.event_get, State.askDisp_get]
  · simp [State.event_get, State.askDisp_get]
  · simp [State.event_get]

/-! ### Overtemperature (R107, R111, R114) -/

theorem State.hotCell_due {h : Nat} (hst : s.cellState k = 5) (hbusy : s.seqBusy k = false)
    (hhot : (s.cell k).hotSince = some h) (hdue : h + uS ≤ s.now) : s.hotCell k =
      if s.bypassAllowed k then (s.put (F.CELL_FAULTS_OVERTEMP k) 1).startBypass k cBYPASSED 0x0E
      else (s.setCellX k { s.cell k with hotLogged := true }).eventIf (!(s.cell k).hotLogged) Ev.CELL_BYPASS_REFUSED k
        [.w (s.marginIf k)] :=
  if_pos ⟨hst, by simp [hbusy], by simpa [hhot] using hdue⟩

theorem State.hotCell_bypasses {h : Nat} (hst : s.cellState k = 5) (hbusy : s.seqBusy k = false)
    (hhot : (s.cell k).hotSince = some h) (hdue : h + uS ≤ s.now) (hok : s.bypassAllowed k = true) :
    s.Frame (s.hotCell k) [F.CELL_STATE_SEQ_BUSY k, F.CELL_FAULTS_OVERTEMP k] [.cells] ∧
    (s.hotCell k).seqBusy k = true ∧ (s.hotCell k).get (F.CELL_FAULTS_OVERTEMP k) = 1 ∧
    s.FallsTo ((s.hotCell k).cell k) 6 0x0E := by
  have hshown : s.Frame (s.put (F.CELL_FAULTS_OVERTEMP k) 1) [F.CELL_FAULTS_OVERTEMP k] [] :=
    (State.Frame.refl ..).put _ _ (by simp) (by simp)
  have hramp : (s.put (F.CELL_FAULTS_OVERTEMP k) 1).get F.CELL_CTRL_RAMP = s.get F.CELL_CTRL_RAMP :=
    hshown.get _ (by simp)
  have hfalls := State.startBypass_active (s := s.put (F.CELL_FAULTS_OVERTEMP k) 1) (goal := 6) (reason := 0x0E)
    ((hshown.get _ (by simp)).trans hst)
  unfold State.FallsTo at hfalls
  rw [hramp] at hfalls
  rw [State.hotCell_due hst hbusy hhot hdue, if_pos hok]
  refine ⟨?_, State.startBypass_busy .., ?_, hfalls⟩
  · exact ((State.Frame.refl ..).and_then hshown (by simp) (by simp)).and_then (State.startBypass_frame ..) (by simp)
      (by simp)
  · rw [(State.startBypass_frame ..).get _ (by simp), State.get_put_same _ _ _ (by simp)]
    rfl

theorem State.hotCell_refuses {h : Nat} (hst : s.cellState k = 5) (hbusy : s.seqBusy k = false)
    (hhot : (s.cell k).hotSince = some h) (hdue : h + uS ≤ s.now) (hno : s.bypassAllowed k = false) :
    s.Frame (s.hotCell k) [logFld] [.cells, .log] ∧ ((s.hotCell k).cell k).hotLogged = true ∧
    s.Logs (s.hotCell k)
      (if (s.cell k).hotLogged = true then [] else [(Ev.CELL_BYPASS_REFUSED, k, [.w (s.marginIf k)])]) := by
  have hframe : s.Frame (s.setCellX k { s.cell k with hotLogged := true }) [logFld] [.cells, .log] :=
    (State.Frame.refl ..).setCellX _ _ (by simp)
  rw [State.hotCell_due hst hbusy hhot hdue, if_neg (by simp [hno])]
  unfold State.eventIf
  by_cases hl : (s.cell k).hotLogged = true
  · rw [if_neg (by simp [hl]), if_pos hl, State.setCellX_cell_same]
    exact ⟨hframe, rfl, State.Logs.none rfl⟩
  · rw [if_pos (by simp [hl]), if_neg hl, State.event_cell, State.setCellX_cell_same]
    exact ⟨hframe.event _ _ _ (by simp) (by simp), rfl, State.Logs.one _ _ _ rfl rfl rfl⟩

theorem State.coolCell_due {h : Nat} (hauto : s.get F.CELL_CTRL_AUTO_RET = 1)
    (hreason : s.get (F.CELL_STATE_REASON k) = 0x0E) (hbusy : s.seqBusy k = false)
    (hcool : (s.cell k).coolSince = some h) (hok : s.returnOk k = true) (hdue : h + 60 * uS ≤ s.now) :
    s.coolCell k = s.startReturn k 0x1C :=
  if_pos ⟨hauto, hreason, by simp [hbusy], by simpa [hcool] using hdue, hok⟩

theorem State.coolCell_early {h : Nat} (hcool : (s.cell k).coolSince = some h) (hdue : s.now < h + 60 * uS) :
    s.coolCell k = s := if_neg fun ⟨_, _, _, hd, _⟩ => by
  have hle : h + 60 * uS ≤ s.now := by simpa [hcool] using hd
  omega

end

/-! ### The telemetry snapshot (R469) -/

theorem findReg_map_append {l : List Reg} {r : Reg} (h : r ∈ l) (f : Reg → Word) (rest : List (Reg × Word)) :
    findReg (l.map (fun x => (x, f x)) ++ rest) r = some (f r) := by
  induction l with
  | nil => exact absurd h List.not_mem_nil
  | cons x l ih =>
    rw [List.map_cons, List.cons_append, findReg]
    by_cases hx : x = r
    · rw [if_pos hx, hx]
    · rw [if_neg hx, ih ((List.mem_cons.mp h).resolve_left fun e => hx e.symm)]

theorem State.tlmRead_snap (s : State) (n k : Nat) {r : Reg}
    (h : r ∈ R.CELL_TLM_CYCLE k :: (List.range 7).map fun w => R.CELL_TLM k (w + 1)) :
    findReg ((s.tlmRead n k).sess n).snaps r = some (s.word r) := by
  unfold State.tlmRead
  rw [State.setSess_sess_same]
  exact findReg_map_append h s.word _

theorem exec_cellTlmRead_on {t : Nat} {n : SessIx} {k : CellIx} {s : State} (hm : s.isOn domMGMT = true)
    (hv : s.isOn domVOTE = true) : exec (.cellTlmRead t n k) s = .next ((s.advance t).tlmRead n k) := by
  have hexec : exec (.cellTlmRead t n k) s = .next (if !s.isOn domMGMT then s.advance t
      else if !s.isOn domVOTE then (s.advance t).answer n .domainOff 0 else (s.advance t).tlmRead n k) := rfl
  rw [hexec, hm, hv]
  rfl

/-- Settles O25: at an input freeze each fault does what its equation says (`State.lostCell_bypassed` to
`State.hotCell_refuses`); the entries into FAULTED share `State.faultCell_shown`. -/
theorem cellFaultsAndTelemetry : Obligations.CellFaultsAndTelemetry := by
  intro t k s hw now x st busy busyOf faulted fell
  have idle {c : Instr} (e : CellEv) (hf : (s.advance t).atFreeze = true) (hp : (c, e) ∈ cellHappenings t k)
      (h : (s.advance t).happen k e = s.advance t) : Effect c s [] [] fun _ => True := effect_of_idle hp hw hf h
  have hfell {s' : State} {reason : Nat} (h : (s.advance t).Fell s' k reason) : fell s' reason :=
    ⟨h.state, h.reason, h.diagValid, h.closing.byp, h.closing.closed, h.closing.mode, h.closing.share, h.closing.seq,
      h.closing.bypDue, h.fault24⟩
  refine ⟨fun hf => ⟨fun hst hlim => ⟨fun hun => ?_, fun hun => ?_⟩, fun hst hst' hno =>
    ⟨fun hrun hun => ?_, fun hrun => ?_, fun hn hpos => ?_, fun hn => ?_⟩,
    fun hst => ⟨fun hn => ?_, fun hn => ?_⟩, fun h hst hbusy hhot hdue => ⟨fun hok => ?_, fun hok => ?_⟩,
    fun h hauto hreason hbusy hcool hok => ⟨fun hdue hrun => ?_, fun hdue => ?_⟩⟩,
    fun hm hv n => ?_⟩
  · exact effect_of_happen (e := .unreachable) (by simp [cellHappenings]) hw hf
      (State.lostCell_bypassed (s := s.advance t) hst hlim hun)
  · exact idle .unreachable hf (by simp [cellHappenings]) (State.lostCell_reachable (s := s.advance t) hun)
  · refine effect_of_happen (k := k) (e := .staleFault) (by simp [cellHappenings]) hw hf ?_
    obtain ⟨hframe, hfall, hflag⟩ := State.faultCell_shown (s := s.advance t) (k := k) (i := 2) (reason := 0x0C)
      (by decide) (by decide) hno Ev.CELL_STALE_FAULT []
    rw [State.happen, State.staleCell_due (s := s.advance t) hst hst' hrun hun]
    exact ⟨hframe, hfell hfall, hflag⟩
  · exact idle .staleFault hf (by simp [cellHappenings]) (State.staleCell_early (s := s.advance t) hrun)
  · refine effect_of_happen (k := k) (e := .tripLatch) (by simp [cellHappenings]) hw hf ?_
    obtain ⟨hframe, hfall, hflag⟩ := State.faultCell_shown (s := s.advance t) (k := k) (i := 1) (reason := 0x0B)
      (by decide) (by decide) hno Ev.PWM_TRIP_LATCH [.w (k : Nat)]
    rw [State.happen, State.latchCell_due (s := s.advance t) hst hst' hn hpos]
    exact ⟨hframe, hfell hfall, hflag⟩
  · exact idle .tripLatch hf (by simp [cellHappenings]) (State.latchCell_early (s := s.advance t) hn)
  · exact effect_of_happen (e := .repeatFault) (by simp [cellHappenings]) hw hf
      (State.repeatFault_locks (s := s.advance t) hst hn)
  · exact idle .repeatFault hf (by simp [cellHappenings]) (State.repeatFault_few (s := s.advance t) hn)
  · exact effect_of_happen (e := .overtemp) (by simp [cellHappenings]) hw hf
      (State.hotCell_bypasses (s := s.advance t) hst hbusy hhot hdue hok)
  · exact effect_of_happen (e := .overtemp) (by simp [cellHappenings]) hw hf
      (State.hotCell_refuses (s := s.advance t) hst hbusy hhot hdue hok)
  · refine effect_of_happen (k := k) (e := .autoReturn) (by simp [cellHappenings]) hw hf ?_
    rw [State.happen, State.coolCell_due (s := s.advance t) hauto hreason hbusy hcool hok hdue,
      State.startReturn_running (s := s.advance t) hrun]
    exact ⟨State.startReturn_frame .., State.startReturn_busy .., rfl, rfl⟩
  · exact idle .autoReturn hf (by simp [cellHappenings]) (State.coolCell_early (s := s.advance t) hcool hdue)
  · refine ⟨_, exec_cellTlmRead_on hm hv, (State.Frame.refl ..).setSess _ _ (by simp), ?_, ?_,
      State.tlmRead_snap (s.advance t) n k (by simp),
      fun w hlt => State.tlmRead_snap (s.advance t) n k (by simpa using hlt)⟩
    · rw [State.tlmRead, State.setSess_sess_same]
      rfl
    · rw [State.tlmRead, State.setSess_sess_same]

end Sys2Proof.Machine
end

section
/-! CELL_CMD: what refuses a command at an input freeze (R105, R111, R114, R115). -/

namespace Sys2Proof.Machine

theorem Status.ok_worst {b : Status} (h : b.Ranked) : Status.ok.worst b = b := by
  rcases h with rfl | h
  · rfl
  · exact if_pos h

/-! ### The commands of CELL_CMD -/

theorem cellCommands_lt {t : Nat} {n : SessIx} {k : CellIx} {e : Nat} {p : Nat × Instr}
    (hp : p ∈ cellCommands t n k e) : p.1 < 9 := by
  simp only [cellCommands, List.mem_cons, List.not_mem_nil, or_false] at hp
  rcases hp with rfl | rfl | rfl | rfl | rfl | rfl | rfl | rfl | rfl <;> simp

theorem instant_of_cellCommands {t : Nat} {n : SessIx} {k : CellIx} {e : Nat} {p : Nat × Instr}
    (hp : p ∈ cellCommands t n k e) : p.2.instant = t := by
  simp only [cellCommands, List.mem_cons, List.not_mem_nil, or_false] at hp
  rcases hp with rfl | rfl | rfl | rfl | rfl | rfl | rfl | rfl | rfl <;> rfl

theorem exec_of_cellCommands {t : Nat} {n : SessIx} {k : CellIx} {e : Nat} {p : Nat × Instr}
    (hp : p ∈ cellCommands t n k e) (s : State) : exec p.2 s = .next ((s.advance t).cellCmdBy n k p.1 e) := by
  simp only [cellCommands, List.mem_cons, List.not_mem_nil, or_false] at hp
  rcases hp with rfl | rfl | rfl | rfl | rfl | rfl | rfl | rfl | rfl <;> rfl

theorem masked_allOnes (old value : Word) : masked old value (BitVec.allOnes 32) = value := by
  rw [masked, BitVec.and_allOnes, BitVec.not_allOnes, BitVec.and_zero, BitVec.zero_or]

theorem toNat_cellCmdWord {cmd : Nat} (h : cmd < 16) (e : Nat) : (cellCmdWord cmd e).toNat = cmd + e % 16 * 256 := by
  unfold cellCmdWord
  rw [BitVec.toNat_ofNat, Nat.mod_eq_of_lt (by omega)]

theorem fieldOf_cellCmdWord_cmd {cmd : Nat} (h : cmd < 16) (e : Nat) : fieldOf (cellCmdWord cmd e) 0 4 = cmd := by
  unfold fieldOf
  rw [toNat_cellCmdWord h]
  omega

theorem fieldOf_cellCmdWord_expect {cmd : Nat} (h : cmd < 16) (e : Nat) : fieldOf (cellCmdWord cmd e) 8 4 = e % 16 := by
  unfold fieldOf
  rw [toNat_cellCmdWord h]
  omega

/-! ### What the judgement of R14 leaves to the module's state -/

theorem State.cmdRefuse_ranked (s : State) (n k cmd expect : Nat) : (s.cmdRefuse n k cmd expect).Ranked := by
  unfold State.cmdRefuse
  exact (Status.Ranked.ite (s.needLevel_ranked ..) Status.ranked_ok).worst
    (.ite Status.ranked_badValue (.ite (.inr (by decide)) (.ite Status.ranked_busy (.ite Status.ranked_badValue
      Status.ranked_ok))))

section
variable {s : State} {n k cmd expect : Nat}

/-- R115: with the level that UNRETIRE needs, the refusals are those of EXPECT, the state and the conditions. -/
theorem State.cmdRefuse_eq (h : cmd ≠ 5 ∨ s.needLevel n 2 = .ok) : s.cmdRefuse n k cmd expect =
    if 10 ≤ expect then .badValue else if s.cmdMismatch k cmd expect then .stateMismatch
    else if s.cmdBusy k cmd then .busy else if s.cmdBad k cmd then .badValue else .ok := by
  have hlevel : (if cmd = 5 then s.needLevel n 2 else .ok) = Status.ok := by
    split
    · rename_i h5; exact h.resolve_left fun g => g h5
    · rfl
  unfold State.cmdRefuse
  dsimp only
  rw [hlevel]
  exact Status.ok_worst (.ite Status.ranked_badValue (.ite (.inr (by decide)) (.ite Status.ranked_busy
    (.ite Status.ranked_badValue Status.ranked_ok))))

theorem State.cmdRefuse_level (hlevel : s.needLevel n 2 = .accessDenied) (hst : s.cellState k = 7)
    (hbusy : s.seqBusy k = false) : s.cmdRefuse n k 5 7 = .accessDenied := by
  have hmismatch : s.cmdMismatch k 5 7 = false := by simp [State.cmdMismatch, hst, cmdAllowed]
  have hcmdBusy : s.cmdBusy k 5 = false := by simp [State.cmdBusy, hbusy]
  have hbad : s.cmdBad k 5 = false := by simp [State.cmdBad, State.cmdMargin]
  simp [State.cmdRefuse, hlevel, hmismatch, hcmdBusy, hbad, Status.worst, Status.severity]

/-- R105: a command that names the entry's state, in which R115 allows it. -/
theorem State.cmdRefuse_fits (h : cmd ≠ 5 ∨ s.needLevel n 2 = .ok) (he : expect < 10) (hst : expect = s.cellState k)
    (hallowed : cmdAllowed cmd (s.cellState k) = true) : s.cmdRefuse n k cmd expect =
      if s.cmdBusy k cmd then .busy else if s.cmdBad k cmd then .badValue else .ok := by
  rw [State.cmdRefuse_eq h, if_neg (by omega), if_neg]
  simp [State.cmdMismatch, hst, hallowed]

end

/-! ### A command at an input freeze -/

/-- R115: the state in which an accepted command acts: the register holds it. -/
def State.commanded (s : State) (k cmd e : Nat) : State :=
  s.setWord (R.CELL_CMD k) (BitVec.ofNat 32 (cmd + e % 16 * 256))

/-- R105, R115: what the refusal of a command, or none, brings. -/
def State.cmdOutcome (s : State) (n k cmd e : Nat) : Status → Status × State
  | .ok => (.ok, (s.commanded k cmd e).cmdEffect k cmd)
  | .stateMismatch =>
    (.stateMismatch, s.event Ev.CELL_STATE_MISMATCH k [.w n, .w (e % 16 : Nat), .w (s.cellState k)])
  | .badValue => (.badValue, s.eventIf (!s.cmdMargin k cmd && decide (e % 16 < 10)) Ev.CELL_BYPASS_REFUSED k
      [.w (s.marginIf k)])
  | st => (st, s)

section
variable {s : State} {n k cmd e : Nat}

/-- R14: once the register itself allows the write, the state of the module decides. -/
theorem State.cellCmd_judged (hc : cmd < 16)
    (hj : s.judgeWord n (R.CELL_CMD k) (cellCmdWord cmd e) (BitVec.allOnes 32) = .ok) :
    s.cellCmd n k (cellCmdWord cmd e) (BitVec.allOnes 32) = s.cmdOutcome n k cmd e (s.cmdRefuse n k cmd (e % 16)) := by
  have hworst := Status.ok_worst (s.cmdRefuse_ranked n k cmd (e % 16))
  unfold State.cellCmd
  dsimp only
  rw [masked_allOnes, fieldOf_cellCmdWord_cmd hc, fieldOf_cellCmdWord_expect hc, hj, hworst]
  cases s.cmdRefuse n k cmd (e % 16) <;> rfl

/-- R111: a BAD_VALUE that is not the margin's logs nothing. -/
theorem State.cmdOutcome_badValue (h : s.cmdMargin k cmd = true ∨ 10 ≤ e % 16) :
    s.cmdOutcome n k cmd e .badValue = (.badValue, s) := by
  unfold State.cmdOutcome State.eventIf
  rw [if_neg]
  rcases h with h | h <;> simp [h]

theorem State.cmdOutcome_noMargin (h : s.cmdMargin k cmd = false) (he : e % 16 < 10) :
    s.cmdOutcome n k cmd e .badValue = (.badValue, s.event Ev.CELL_BYPASS_REFUSED k [.w (s.marginIf k)]) := by
  unfold State.cmdOutcome State.eventIf
  rw [if_pos (by simp [h, he])]

theorem State.cellCmdBy_off (hm : s.isOn domMGMT = true) (hv : s.isOn domVOTE = false) :
    s.cellCmdBy n k cmd e = s.answer n .domainOff 0 := State.access_off _ hm hv

theorem State.cellCmdBy_waits (hm : s.isOn domMGMT = true) (hv : s.isOn domVOTE = true) (hf : s.atFreeze = false) :
    s.cellCmdBy n k cmd e = (s.ask (.access n (0x200004 + 256 * k) (cellCmdWord cmd e) (BitVec.allOnes 32)
      default)).answer n .waits 0 := by
  unfold State.cellCmdBy
  rw [State.access_on _ hm hv, hf]
  rfl

theorem State.cellCmdBy_freeze (hm : s.isOn domMGMT = true) (hv : s.isOn domVOTE = true) (hf : s.atFreeze = true) :
    s.cellCmdBy n k cmd e =
      (s.cellCmd n k (cellCmdWord cmd e) (BitVec.allOnes 32)).2.answer n
        (s.cellCmd n k (cellCmdWord cmd e) (BitVec.allOnes 32)).1 0 := by
  unfold State.cellCmdBy
  rw [State.access_on _ hm hv, hf]
  rfl

end

section
variable {t : Nat} {n : SessIx} {k : CellIx} {e : Nat} {s : State} {p : Nat × Instr}

/-- A command at an input freeze whose outcome is known. -/
theorem effect_of_command (hp : p ∈ cellCommands t n k e) (hm : s.isOn domMGMT = true) (hv : s.isOn domVOTE = true)
    (hf : (s.advance t).atFreeze = true) {st : Status} {s1 : State}
    (h : (s.advance t).cellCmd n k (cellCmdWord p.1 e) (BitVec.allOnes 32) = (st, s1)) {fs gs : List Fld}
    {ps qs : List Part} {P : State → Prop} (hframe : (s.advance t).Frame s1 gs qs) (hfs : gs ⊆ fs) (hps : qs ⊆ ps)
    (hmgmt : Part.mgmt ∈ ps) (hP : P (s1.answer n st 0)) : Effect p.2 s fs ps P := by
  refine ⟨s1.answer n st 0, ?_, ?_, hP⟩
  · rw [exec_of_cellCommands hp, State.cellCmdBy_freeze (s := s.advance t) hm hv hf, h]
  · rw [instant_of_cellCommands hp]
    exact (hframe.mono (fun _ m => hfs m) (fun _ m => hps m)).answer _ _ _ hmgmt

/-- A refusal that logs nothing. -/
theorem effect_of_refused (hp : p ∈ cellCommands t n k e) (hm : s.isOn domMGMT = true) (hv : s.isOn domVOTE = true)
    (hf : (s.advance t).atFreeze = true) {st : Status}
    (h : (s.advance t).cellCmd n k (cellCmdWord p.1 e) (BitVec.allOnes 32) = (st, s.advance t)) :
    Effect p.2 s [] [.mgmt] fun s' => (s'.sess n).status = st :=
  effect_of_command hp hm hv hf h (.refl _ [] []) (by simp) (by simp) (by simp) (State.answer_status ..)

/-- A refusal that is logged. -/
theorem effect_of_loggedRefusal (hp : p ∈ cellCommands t n k e) (hm : s.isOn domMGMT = true)
    (hv : s.isOn domVOTE = true) (hf : (s.advance t).atFreeze = true) {st : Status} {code : Nat} {data : List DItem}
    (h : (s.advance t).cellCmd n k (cellCmdWord p.1 e) (BitVec.allOnes 32) = (st, (s.advance t).event code k data)) :
    Effect p.2 s [logFld] [.mgmt, .log] fun s' => (s'.sess n).status = st ∧ s.Logs s' [(code, (k : Nat), data)] := by
  have hframe : (s.advance t).Frame ((s.advance t).event code k data) [logFld] [.log] :=
    (State.Frame.refl ..).event _ _ _ (by simp) (by simp)
  have hlogs : s.Logs ((s.advance t).event code k data) [(code, (k : Nat), data)] :=
    State.Logs.one _ _ _ (State.advance_log ..) (State.advance_isOn ..) (State.advance_isOn ..)
  exact effect_of_command hp hm hv hf h hframe (by simp) (by simp) (by simp)
    ⟨State.answer_status .., hlogs.setSess _ _⟩

end

/-- Settles O22: the outcome of a judged write is that of `State.cmdRefuse` (`State.cellCmd_judged`), whose first
refusal in R115's order decides. -/
theorem cellCommandsJudged : Obligations.CellCommandsJudged := by
  intro t n k e s hm p hp st
  have hlt : p.1 < 16 := Nat.lt_trans (cellCommands_lt hp) (by decide)
  refine ⟨fun hv => ?_, fun hv hf => ?_, fun hv hf hj => ?_⟩
  · refine ⟨_, exec_of_cellCommands hp s, ?_⟩
    rw [instant_of_cellCommands hp, State.cellCmdBy_off (s := s.advance t) hm hv]
    exact ⟨(State.Frame.refl ..).answer _ _ _ (by simp), State.answer_status ..⟩
  · refine ⟨_, exec_of_cellCommands hp s, ?_⟩
    rw [instant_of_cellCommands hp, State.cellCmdBy_waits (s := s.advance t) hm hv hf]
    exact ⟨((State.Frame.refl ..).and_then (State.ask_frame ..) (by simp) (by simp)).answer _ _ _ (by simp),
      State.ask_mem ..⟩
  · have judged {x : Status} (h : (s.advance t).cmdRefuse n k p.1 (e % 16) = x) :
        (s.advance t).cellCmd n k (cellCmdWord p.1 e) (BitVec.allOnes 32) = (s.advance t).cmdOutcome n k p.1 e x := by
      rw [State.cellCmd_judged (s := s.advance t) hlt hj, h]
    refine ⟨fun h5 hlevel he hst hbusy => ?_, fun hlevel => ?_⟩
    · have hrefuse : (s.advance t).cmdRefuse n k p.1 (e % 16) = .accessDenied := by
        rw [h5, he]
        exact State.cmdRefuse_level (s := s.advance t) hlevel hst hbusy
      exact effect_of_refused hp hm hv hf (judged hrefuse)
    · have hlevel' : p.1 ≠ 5 ∨ (s.advance t).needLevel n 2 = .ok := hlevel
      have refuse (expect : Nat) := State.cmdRefuse_eq (s := s.advance t) (k := k) (expect := expect) hlevel'
      refine ⟨fun he => ?_, fun he hst => ?_, fun he hst hallowed => ?_⟩
      · exact effect_of_refused hp hm hv hf
          ((judged ((refuse _).trans (if_pos he))).trans (State.cmdOutcome_badValue (.inr he)))
      · have hmismatch : (s.advance t).cmdMismatch k p.1 (e % 16) = true := by
          unfold State.cmdMismatch
          rw [Bool.or_eq_true, bne_iff_ne, Bool.not_eq_true']
          exact hst
        exact effect_of_loggedRefusal hp hm hv hf
          (judged ((refuse _).trans ((if_neg (by omega)).trans (if_pos hmismatch))))
      · have hfits := State.cmdRefuse_fits (s := s.advance t) hlevel' he hst hallowed
        have busy (h : (s.advance t).cmdBusy k p.1 = true) :
            Effect p.2 s [] [.mgmt] fun s' => (s'.sess n).status = .busy :=
          effect_of_refused hp hm hv hf (judged (hfits.trans (if_pos h)))
        have bad (hseq : (s.advance t).seqBusy k = false) (hne : p.1 ≠ 1) (h : (s.advance t).cmdBad k p.1 = true) :=
          judged (hfits.trans ((if_neg (show ¬(s.advance t).cmdBusy k p.1 = true from by
            simpa [State.cmdBusy, hne] using hseq)).trans (if_pos h)))
        refine ⟨fun hseq => busy ?_, fun h1 hact => busy ?_, fun hseq hcmd hact hmargin => ?_, fun hseq hcond => ?_⟩
        · exact (Bool.or_eq_true ..).mpr (.inl hseq)
        · have hact' : (s.advance t).cluActive (ringOf k) = true := hact
          exact (Bool.or_eq_true ..).mpr (.inr (by simp [h1, hact']))
        · have hno : (s.advance t).cmdMargin k p.1 = false := by
            have hallow : (s.advance t).bypassAllowed k = false := by
              have hact' : (s.advance t).cluActive (ringOf k) = true := hact
              have hmargin' : (s.advance t).marginIf k < 0 := hmargin
              simp [State.bypassAllowed, hact', hmargin']
            exact (if_pos hcmd).trans hallow
          exact effect_of_loggedRefusal hp hm hv hf
            ((bad hseq (by omega) (by simp [State.cmdBad, hno])).trans (State.cmdOutcome_noMargin hno he))
        · have hmargin : (s.advance t).cmdMargin k p.1 = true := if_neg (by omega)
          have hbad : (s.advance t).cmdBad k p.1 = true := by
            rcases hcond with ⟨h3, hret⟩ | ⟨h8, hbit⟩
            · have hret' : (s.advance t).returnOk k = false := hret
              simp [State.cmdBad, h3, hret']
            · have hbit' : (s.advance t).statusBit k 13 = true := hbit
              simp [State.cmdBad, h8, hbit']
          exact effect_of_refused hp hm hv hf
            ((bad hseq (by omega) hbad).trans (State.cmdOutcome_badValue (.inl hmargin)))

end Sys2Proof.Machine
end

section
/-! CELL_CMD: what each accepted command does (R100, R102, R112–R115). -/

namespace Sys2Proof.Machine

/-! ### A change of state, seen after further updates (R102) -/

/-- R102: a cell has gone to a state for a reason, and nothing else has been logged. -/
structure State.Went (s s' : State) (k dest why : Nat) : Prop where
  state  : s'.cellState k = dest
  prev   : s'.get (F.CELL_STATE_PREV k) = s.cellState k
  reason : s'.get (F.CELL_STATE_REASON k) = why
  logs   : s.Logs s' [(Ev.CELL_STATE, k, [.w k, .w (s.cellState k), .w dest, .w why])]

section
variable {s x y : State} {k dest reason : Nat} {fs : List Fld} {ps : List Part}

theorem State.setCell_went (s : State) (k : Nat) (hd : dest < 16) (hr : reason < 256) :
    s.Went (s.setCell k dest reason) k dest reason where
  state := (State.setCell_state ..).trans (Nat.mod_eq_of_lt hd)
  prev := State.setCell_prev ..
  reason := (State.setCell_reason ..).trans (Nat.mod_eq_of_lt hr)
  logs := (State.Logs.none rfl).setCell k dest reason rfl rfl

/-- Updates of no field of the change, that log nothing. -/
theorem State.Went.and_then (h : s.Went x k dest reason) (g : x.Frame y fs ps) (hlog : Part.log ∉ ps)
    (hfs : ∀ f ∈ fs, f.reg = R.CELL_STATE k → 16 ≤ f.lo) : s.Went y k dest reason := by
  have hget {f : Fld} (hreg : f.reg = R.CELL_STATE k) (hw : f.lo + f.wd ≤ 16) : y.get f = x.get f :=
    g.get f fun f' hf hr => .inl (Nat.le_trans hw (hfs f' hf (hr.trans hreg)))
  exact ⟨(hget rfl (by simp)).trans h.state, (hget rfl (by simp)).trans h.prev, (hget rfl (by simp)).trans h.reason,
    h.logs.then (g.log hlog)⟩

/-- A change of state seen from before updates that neither log nor change the state or the log's media. -/
theorem State.Went.of_before (h : x.Went y k dest reason) (hst : x.cellState k = s.cellState k) (hlog : x.log = s.log)
    (hon : ∀ d, x.isOn d = s.isOn d) : s.Went y k dest reason := by
  obtain ⟨es, hes, hfold⟩ := h.logs
  rw [hon, hon, hlog] at hfold
  rw [hst] at hes
  exact ⟨h.state, h.prev.trans hst, h.reason, es, hes, hfold⟩

end

/-! ### The state in which a command acts -/

section
variable (s : State) (k cmd e : Nat)

theorem State.commanded_frame : s.Frame (s.commanded k cmd e) [(R.CELL_CMD k).all] [] :=
  (State.Frame.refl ..).setWord _ _ (by simp)

@[simp] theorem State.commanded_log : (s.commanded k cmd e).log = s.log := rfl
@[simp] theorem State.commanded_isOn (d : Nat) : (s.commanded k cmd e).isOn d = s.isOn d :=
  (s.commanded_frame k cmd e).isOn (by simp) d
@[simp] theorem State.commanded_get (f : Fld) (h : f.reg ≠ R.CELL_CMD k) : (s.commanded k cmd e).get f = s.get f :=
  State.get_setWord_other _ _ _ _ h
@[simp] theorem State.commanded_cellState : (s.commanded k cmd e).cellState k = s.cellState k :=
  State.commanded_get _ _ _ _ _ (by simp)
@[simp] theorem State.commanded_cluRunning (c : Nat) : (s.commanded k cmd e).cluRunning c = s.cluRunning c :=
  (s.commanded_frame k cmd e).cluRunning (by simp) c
theorem State.commanded_phaseBusy : (s.commanded k cmd e).phaseBusy k = s.phaseBusy k := by
  unfold State.phaseBusy
  rw [(s.commanded_frame k cmd e).phaseCells (by simp), (s.commanded_frame k cmd e).phaseOf (by simp)]
theorem State.commanded_holdsParams (c : Nat) : (s.commanded k cmd e).holdsParams c = s.holdsParams c := by
  have hstat (j : Nat) : (s.commanded k cmd e).pstat j = s.pstat j := State.commanded_get _ _ _ _ _ (by simp)
  have hslot (j : Nat) : (s.commanded k cmd e).pslot j = s.pslot j := rfl
  simp only [State.holdsParams, hstat, hslot]

theorem State.commanded_fallsTo {s : State} {k cmd e goal reason : Nat} {x : CellX}
    (h : (s.commanded k cmd e).FallsTo x goal reason) : s.FallsTo x goal reason := by
  rwa [State.FallsTo, State.commanded_get _ _ _ _ _ (by simp)] at h

theorem State.Went.of_commanded {s y : State} {k cmd e dest reason : Nat}
    (h : (s.commanded k cmd e).Went y k dest reason) : s.Went y k dest reason :=
  h.of_before (State.commanded_cellState ..) (State.commanded_log ..) (State.commanded_isOn _ _ _ _)

theorem State.Went.answer {s y : State} {k dest reason : Nat} (h : s.Went y k dest reason) (n : Nat) (st : Status) :
    s.Went (y.answer n st 0) k dest reason :=
  h.and_then ((State.Frame.refl y [] [.mgmt]).answer _ _ _ (by simp)) (by simp) (by simp)

end

/-! ### RETIRE, UNRETIRE, CLEAR_FAULT, LOCKOUT and RELEASE (R115) -/

section
variable (s : State) (k : Nat)

theorem State.retireNow_frame (reason : Nat) :
    s.Frame (s.retireNow k reason) (lockFlds k) [.cells, .link, .wear, .log] :=
  (((State.Frame.refl ..).and_then (State.setCell_frame ..) (by simp) (by simp)).and_then (State.askDisp_frame ..)
    (by simp) (by simp)).setCellX _ _ (by simp)

/-- R102, R97: a change of state and the disposition that goes with it. -/
theorem State.setCell_askDisp_went {dest reason : Nat} (code : Nat) (hd : dest < 16) (hr : reason < 256) :
    s.Went ((s.setCell k dest reason).askDisp k code) k dest reason :=
  (s.setCell_went k hd hr).and_then (State.askDisp_frame ..) (by simp) (by simp)

/-- An update of what the module knows of a cell, after a change of state. -/
theorem State.Went.setCellX {s x : State} {k dest reason : Nat} (h : s.Went x k dest reason) (j : Nat) (c : CellX) :
    s.Went (x.setCellX j c) k dest reason :=
  h.and_then ((State.Frame.refl x [] [.cells]).setCellX _ _ (by simp)) (by simp) (by simp)

theorem State.retireNow_went : s.Went (s.retireNow k 0x13) k 7 0x13 :=
  (s.setCell_askDisp_went k 1 (by decide) (by decide)).setCellX _ _

theorem State.retireNow_pend : (s.retireNow k 0x13).get (F.CELL_STATE_DISP_PEND k) = 1 := by
  rw [State.retireNow, State.setCellX_get, State.askDisp_pend]

/-- R118, R184: the posting of the node's parameters. -/
theorem State.postParams_frame (l : List (List Byte)) : s.Frame (l.foldl (fun s d => s.mbxPost (ringOf k)
    { owner := 1, dst := posOf k, op := 2, data := d, purpose := .param }) s) [(R.RING_MBX_STAT (ringOf k)).all]
    [.link] := State.Frame.foldl _ _ (.refl ..) fun _ _ _ hx => hx.trans (State.mbxPost_frame ..)

theorem State.askParams_frame :
    s.Frame (s.askParams k) [(R.RING_MBX_STAT (ringOf k)).all] [.cells, .link] :=
  ((State.Frame.refl ..).setCellX _ _ (by simp)).and_then (State.postParams_frame ..) (by simp) (by simp)

theorem State.askParams_cell : (s.askParams k).cell k = { s.cell k with paramAsked := true, paramPend := 9 } :=
  ((State.postParams_frame ..).cell (by simp) k).trans (State.setCellX_cell_same ..)

/-- R115: UNRETIRE before the parameters: to NEGOTIATED, with the disposition to be written. -/
def State.unretired (s : State) (k : Nat) : State :=
  let s1 := (s.setCell k cNEGOTIATED 0x13).askDisp k 0
  s1.setCellX k { s1.cell k with disp := some 0 }

/-- R115: UNRETIRE with the parameters asked for where they have not been. -/
def State.unretiredAsked (s : State) (k : Nat) : State :=
  if (s.cell k).paramAsked || s.holdsParams (ringOf k) then s.unretired k else (s.unretired k).askParams k

theorem State.cmdEffect_unretire : s.cmdEffect k 5 =
    (s.unretiredAsked k).setWcell k { (s.unretiredAsked k).wcell k with unret := true } := rfl

/-- The fields of a node's disposition and requests. -/
abbrev nodeFlds (k : Nat) : List Fld := [(R.RING_MBX_STAT (ringOf k)).all, F.CELL_STATE_DISP_PEND k]

theorem State.unretired_frame : s.Frame (s.unretired k) (nodeFlds k ++ stateFlds k) [.cells, .link, .log] :=
  (((State.Frame.refl ..).and_then (State.setCell_frame_of_lt _ _ _ (by decide)) (by simp) (by simp)).and_then
    (State.askDisp_frame ..) (by simp) (by simp)).setCellX _ _ (by simp)

theorem State.unretired_went : s.Went (s.unretired k) k 2 0x13 :=
  (s.setCell_askDisp_went k 0 (by decide) (by decide)).setCellX _ _

theorem State.unretired_disp : ((s.unretired k).cell k).disp = some 0 := by
  rw [State.unretired, State.setCellX_cell_same]

theorem State.cmdEffect_unretire_frame :
    s.Frame (s.cmdEffect k 5) (nodeFlds k ++ stateFlds k) [.cells, .link, .wear, .log] := by
  rw [State.cmdEffect_unretire]
  refine State.Frame.setWcell (.ite ?_ ?_) _ _ (by simp)
  · exact (State.Frame.refl ..).and_then (s.unretired_frame k) (by simp) (by simp)
  · exact ((State.Frame.refl ..).and_then (s.unretired_frame k) (by simp) (by simp)).and_then (State.askParams_frame ..)
      (by simp) (by simp)

theorem State.cmdEffect_unretire_went : s.Went (s.cmdEffect k 5) k 2 0x13 := by
  have hasked : s.Went (s.unretiredAsked k) k 2 0x13 := by
    unfold State.unretiredAsked
    split
    · exact s.unretired_went k
    · exact (s.unretired_went k).and_then (State.askParams_frame ..) (by simp) (by simp)
  rw [State.cmdEffect_unretire]
  exact hasked.and_then ((State.Frame.refl _ [] [.wear]).setWcell _ _ (by simp)) (by simp) (by simp)

theorem State.cmdEffect_unretire_disp : ((s.cmdEffect k 5).cell k).disp = some 0 := by
  rw [State.cmdEffect_unretire, State.setWcell_cell, State.unretiredAsked]
  split
  · exact s.unretired_disp k
  · rw [State.askParams_cell]
    exact s.unretired_disp k

theorem State.cmdEffect_unretire_asks {s : State} {k : Nat} (ha : (s.cell k).paramAsked = false)
    (hh : s.holdsParams (ringOf k) = false) :
    ((s.cmdEffect k 5).cell k).paramAsked = true ∧ ((s.cmdEffect k 5).cell k).paramPend = 9 := by
  rw [State.cmdEffect_unretire, State.setWcell_cell, State.unretiredAsked, ha, hh, if_neg (by decide),
    State.askParams_cell]
  exact ⟨rfl, rfl⟩

theorem State.clearFault_frame :
    s.Frame (s.clearFault k) (F.PWM_CELL_TRIP_WIN k :: stateFlds k) [.cells, .log] :=
  (((State.Frame.refl ..).and_then (State.setCell_frame_of_lt _ _ _ (by decide)) (by simp) (by simp)).put _ _ (by simp)
    (by simp)).setCellX _ _ (by simp)

theorem State.clearFault_went : s.Went (s.clearFault k) k 2 0x13 :=
  ((s.setCell_went k (by decide) (by decide)).and_then
    ((State.Frame.refl _ [F.PWM_CELL_TRIP_WIN k] []).put _ _ (by simp) (by simp)) (by simp) (by simp)).setCellX _ _

theorem State.clearFault_window : (s.clearFault k).get (F.PWM_CELL_TRIP_WIN k) = 0 := by
  rw [State.clearFault, State.setCellX_get, State.get_put_same _ _ _ (by simp), Nat.zero_mod]

theorem State.clearFault_seq : ((s.clearFault k).cell k).seq = .none := by
  rw [State.clearFault, State.setCellX_cell_same]

section
variable {s : State} {k : Nat} (hq : s.get (F.CELL_STATE_NO_BYPASS k) = 0 ∨ s.cluRunning (ringOf k) = false)
include hq

theorem State.cmdEffect_lockout : s.cmdEffect k 7 = (s.faultClosed k).lockOut k 0x13 :=
  congrArg (·.lockOut k 0x13) (State.faultBypass_quiet hq)

theorem State.cmdEffect_lockout_frame : s.Frame (s.cmdEffect k 7)
    (F.CELL_STATE_SEQ_BUSY k :: s.phaseBusy k ++ lockFlds k) [.cells, .link, .wear, .log] := by
  rw [State.cmdEffect_lockout hq]
  exact ((State.Frame.refl ..).and_then (s.faultClosed_frame k) (by simp) (by simp)).and_then (State.lockOut_frame ..)
    (by simp) (by simp)

theorem State.cmdEffect_lockout_went (h : s.cellState k ≠ 9) : s.Went (s.cmdEffect k 7) k 9 0x13 := by
  have hst : (s.faultClosed k).cellState k = s.cellState k := State.faultClosed_get _ _ _ (by simp)
  rw [State.cmdEffect_lockout hq, State.lockOut_enter (hst ▸ h)]
  exact (State.setCell_askDisp_went _ k 2 (by decide) (by decide)).of_before hst
    ((s.faultClosed_frame k).log (by simp)) (State.faultClosed_isOn _ _)

theorem State.cmdEffect_lockout_closing :
    ((s.cmdEffect k 7).cell k).FaultClosing (s.now + s.get F.CELL_CTRL_BYP_TO * uMs) := by
  obtain ⟨code, hcell⟩ := (s.faultClosed k).lockOut_cell k 0x13
  have hclosing := s.faultClosed_closing k
  rw [State.cmdEffect_lockout hq, hcell]
  exact ⟨hclosing.mode, hclosing.byp, hclosing.closed, hclosing.share, hclosing.seq, hclosing.bypDue⟩

end

theorem State.cmdEffect_release_frame :
    s.Frame (s.cmdEffect k 8) (nodeFlds k ++ stateFlds k) [.cells, .link, .log] :=
  (((State.Frame.refl ..).and_then (State.setCell_frame_of_lt s k 0x13 (dest := 1) (by decide)) (by simp)
    (by simp)).and_then (State.askDisp_frame _ k 0) (by simp) (by simp)).setCellX _ _ (by simp)

theorem State.cmdEffect_release_went : s.Went (s.cmdEffect k 8) k 1 0x13 :=
  (s.setCell_askDisp_went k 0 (by decide) (by decide)).setCellX _ _

/-- R115: RELEASE: what the module knows of the node is to be read again. -/
theorem State.cmdEffect_release_cell : (s.cmdEffect k 8).cell k =
    { ((s.setCell k cLINKED 0x13).askDisp k 0).cell k with
      block := false, ident0 := false, ident1 := false, disp := none, paramAsked := false, seq := .none, bypDue := none,
      tripBase := none } := State.setCellX_cell_same ..

theorem State.cmdEffect_retire_now {s : State} {k : Nat} (h : s.cellState k = 6 ∨ s.cellState k = 8) :
    s.cmdEffect k 4 = s.retireNow k 0x13 := if_pos h

theorem State.cmdEffect_retire_active {s : State} {k : Nat} (h : s.cellState k = 5) :
    s.cmdEffect k 4 = s.startBypass k 7 0x13 := if_neg (by rw [h]; decide)

end

section
variable {t : Nat} {n : SessIx} {k : CellIx} {e : Nat} {s : State} {p : Nat × Instr}

/-- A command that R14 and R115 accept at an input freeze: its effect on the state that holds it in its register. -/
theorem effect_of_accepted (hp : p ∈ cellCommands t n k e) (hm : s.isOn domMGMT = true) (hv : s.isOn domVOTE = true)
    (hf : (s.advance t).atFreeze = true)
    (hok : s.judgeWord n (R.CELL_CMD k) (cellCmdWord p.1 e) (BitVec.allOnes 32) = .ok ∧
      s.cmdRefuse n k p.1 (e % 16) = .ok) {fs gs : List Fld} {ps qs : List Part} {P Q : State → Prop}
    (hframe : ((s.advance t).commanded k p.1 e).Frame (((s.advance t).commanded k p.1 e).cmdEffect k p.1) gs qs)
    (hQ : Q (((s.advance t).commanded k p.1 e).cmdEffect k p.1)) (hfs : (R.CELL_CMD k).all :: gs ⊆ fs)
    (hps : Part.mgmt :: qs ⊆ ps) (hP : ∀ z, Q z → P (z.answer n .ok 0)) : Effect p.2 s fs ps P := by
  have hlt : p.1 < 16 := Nat.lt_trans (cellCommands_lt hp) (by decide)
  have hout : (s.advance t).cellCmd n k (cellCmdWord p.1 e) (BitVec.allOnes 32) =
      (.ok, ((s.advance t).commanded k p.1 e).cmdEffect k p.1) := by
    have hrefuse : (s.advance t).cmdRefuse n k p.1 (e % 16) = .ok := hok.2
    rw [State.cellCmd_judged (s := s.advance t) hlt hok.1, hrefuse]
    rfl
  obtain ⟨hcmd, hgs⟩ := List.cons_subset.mp hfs
  obtain ⟨hmgmt, hqs⟩ := List.cons_subset.mp hps
  have hstart : (s.advance t).Frame ((s.advance t).commanded k p.1 e) fs ps :=
    (State.Frame.refl ..).and_then (State.commanded_frame ..) (by simpa using hcmd) (by simp)
  exact effect_of_command hp hm hv hf hout (hstart.and_then hframe hgs hqs) (fun _ h => h) (fun _ h => h) hmgmt
    (hP _ hQ)

end

/-- Settles O23: an accepted command has its effect on the state that holds it in its register (`effect_of_accepted`);
what the effect is, the lemmas of the sequences and of `State.Went` say. -/
theorem cellCommandsAct : Obligations.CellCommandsAct := by
  intro t n k e s hm hv hf ok now cmd node st went busyOf falls
  have hstate (c : Nat) : ((s.advance t).commanded k c e).cellState k = s.cellState k :=
    State.commanded_cellState (s.advance t) k c e
  have hrun (c : Nat) : ((s.advance t).commanded k c e).cluRunning (ringOf k) = s.cluRunning (ringOf k) :=
    State.commanded_cluRunning (s.advance t) k c e _
  have hwent {c dest : Nat} {z : State} (h : ((s.advance t).commanded k c e).Went z k dest 0x13) :
      went (z.answer n .ok 0) dest := by
    have hs : s.Went z k dest 0x13 := h.of_commanded.of_before rfl rfl fun _ => rfl
    obtain ⟨hst, hprev, hreason, hlogs⟩ := hs.answer n .ok
    exact ⟨hst, hprev, hreason, hlogs⟩
  have hfalls {c goal : Nat} {x : CellX} (h : ((s.advance t).commanded k c e).FallsTo x goal 0x13) :
      (s.advance t).FallsTo x goal 0x13 := State.commanded_fallsTo h
  refine ⟨fun hok => ?none, fun hok => ?diagnose, fun hok => ⟨fun hst => ?bypassActive, fun hst => ?bypassReady⟩,
    fun hok => ?returns, fun hok => ⟨fun hst => ?retireNow, fun hst => ?retireActive⟩, fun hok => ?unretire,
    fun hok => ?clearFault, fun hok hq => ?lockout, fun hok => ?release⟩
  case none =>
    exact effect_of_accepted (p := (0, .cellCmdNone t n k e)) (by simp [cellCommands]) hm hv hf hok (.refl _ [] [])
      (Q := fun _ => True) trivial (by simp [cmd]) (by simp) fun _ _ => State.answer_status ..
  case diagnose =>
    exact effect_of_accepted (p := (1, .cellDiagnose t n k e)) (by simp [cellCommands]) hm hv hf hok
      (State.startDiag_frame ..) (Q := fun z => z.seqBusy k = true ∧ (z.cell k).mode = 2 ∧ (z.cell k).byp = 0xC3 ∧
        (z.cell k).closed = false ∧ (z.cell k).seq = .diagAsk true)
      ⟨State.startDiag_busy .., by rw [State.cmdEffect, State.startDiag_cell]; exact ⟨rfl, rfl, rfl, rfl⟩⟩
      (by simp [cmd]) (by simp) fun _ h => ⟨State.answer_status .., h⟩
  case bypassActive =>
    exact effect_of_accepted (p := (2, .cellBypass t n k e)) (by simp [cellCommands]) hm hv hf hok
      (State.startBypass_frame ..) (Q := fun z => z.seqBusy k = true ∧ (s.advance t).FallsTo (z.cell k) 6 0x13)
      ⟨State.startBypass_busy .., hfalls (State.startBypass_active ((hstate 2).trans hst))⟩ (by simp [cmd]) (by simp)
      fun _ h => ⟨State.answer_status .., h⟩
  case bypassReady =>
    have hnot : ((s.advance t).commanded k 2 e).cellState k ≠ 5 := by rw [hstate, hst]; decide
    exact effect_of_accepted (p := (2, .cellBypass t n k e)) (by simp [cellCommands]) hm hv hf hok
      (State.startBypass_frame ..) (Q := fun z => z.seqBusy k = true ∧ (z.cell k).share = .zero ∧
        (z.cell k).byp = 0x3C ∧ (z.cell k).closed = true ∧ (z.cell k).seq = .bypClose 6 0x13 ∧
        (z.cell k).bypDue = some (now + s.get F.CELL_CTRL_BYP_TO * uMs))
      ⟨State.startBypass_busy .., by
        rw [State.cmdEffect, State.startBypass_ready hnot, State.commanded_get _ _ _ _ _ (by simp)]
        exact ⟨rfl, rfl, rfl, rfl, rfl⟩⟩ (by simp [cmd]) (by simp) fun _ h => ⟨State.answer_status .., h⟩
  case returns =>
    exact effect_of_accepted (p := (3, .cellReturn t n k e)) (by simp [cellCommands]) hm hv hf hok
      (State.startReturn_frame ..) (Q := fun z => z.seqBusy k = true ∧
        (s.cluRunning (ringOf k) = true → (z.cell k).mode = 1 ∧ (z.cell k).share = .zero ∧
          (z.cell k).seq = .retZero 0x13 now) ∧
        (s.cluRunning (ringOf k) = false → (z.cell k).mode = 0 ∧ (z.cell k).byp = 0xC3 ∧ (z.cell k).closed = false ∧
          (z.cell k).seq = .retOpen 0x13))
      ⟨State.startReturn_busy ..,
        fun h => by
          rw [State.cmdEffect, State.startReturn_running ((hrun 3).trans h)]
          exact ⟨rfl, rfl, rfl⟩,
        fun h => by
          rw [State.cmdEffect, State.startReturn_stopped ((hrun 3).trans h)]
          exact ⟨rfl, rfl, rfl, rfl⟩⟩ (by simp [cmd]) (by simp) fun _ h => ⟨State.answer_status .., h⟩
  case retireNow =>
    have heffect : ((s.advance t).commanded k 4 e).cmdEffect k 4 = ((s.advance t).commanded k 4 e).retireNow k 0x13 :=
      State.cmdEffect_retire_now ((hstate 4).symm ▸ hst)
    exact effect_of_accepted (p := (4, .cellRetire t n k e)) (by simp [cellCommands]) hm hv hf hok
      (heffect ▸ State.retireNow_frame ..) (Q := fun z => ((s.advance t).commanded k 4 e).Went z k 7 0x13 ∧
        z.get (F.CELL_STATE_DISP_PEND k) = 1)
      (heffect ▸ ⟨State.retireNow_went .., State.retireNow_pend ..⟩) (by simp [cmd, node, st]) (by simp)
      fun _ ⟨hw, hpend⟩ => ⟨State.answer_status .., hwent hw, hpend⟩
  case retireActive =>
    exact effect_of_accepted (p := (4, .cellRetire t n k e)) (by simp [cellCommands]) hm hv hf hok
      (by rw [State.cmdEffect_retire_active ((hstate 4).trans hst)]; exact State.startBypass_frame ..)
      (Q := fun z => z.seqBusy k = true ∧ (s.advance t).FallsTo (z.cell k) 7 0x13)
      (by
        rw [State.cmdEffect_retire_active ((hstate 4).trans hst)]
        exact ⟨State.startBypass_busy .., hfalls (State.startBypass_active ((hstate 4).trans hst))⟩)
      (by simp [cmd]) (by simp) fun _ h => ⟨State.answer_status .., h⟩
  case unretire =>
    exact effect_of_accepted (p := (5, .cellUnretire t n k e)) (by simp [cellCommands]) hm hv hf hok
      (State.cmdEffect_unretire_frame ..) (Q := fun z => ((s.advance t).commanded k 5 e).Went z k 2 0x13 ∧
        (z.cell k).disp = some 0 ∧ ((s.cell k).paramAsked = false → s.holdsParams (ringOf k) = false →
          (z.cell k).paramAsked = true ∧ (z.cell k).paramPend = 9))
      ⟨State.cmdEffect_unretire_went .., State.cmdEffect_unretire_disp .., fun hasked hholds =>
        State.cmdEffect_unretire_asks hasked ((State.commanded_holdsParams (s.advance t) k 5 e _).trans hholds)⟩
      (by simp [cmd, node, st]) (by simp) fun _ ⟨hw, hdisp, hasks⟩ => ⟨State.answer_status .., hwent hw, hdisp, hasks⟩
  case clearFault =>
    exact effect_of_accepted (p := (6, .cellClearFault t n k e)) (by simp [cellCommands]) hm hv hf hok
      (State.clearFault_frame ..) (Q := fun z => ((s.advance t).commanded k 6 e).Went z k 2 0x13 ∧
        z.get (F.PWM_CELL_TRIP_WIN k) = 0 ∧ (z.cell k).seq = .none)
      ⟨State.clearFault_went .., State.clearFault_window .., State.clearFault_seq ..⟩
      (by simp [cmd, st]) (by simp) fun _ ⟨hw, hwin, hseq⟩ => ⟨State.answer_status .., hwent hw, hwin, hseq⟩
  case lockout =>
    have hq' : ((s.advance t).commanded k 7 e).get (F.CELL_STATE_NO_BYPASS k) = 0 ∨
        ((s.advance t).commanded k 7 e).cluRunning (ringOf k) = false :=
      hq.imp ((State.commanded_get (s.advance t) k 7 e _ (by simp)).trans ·) ((hrun 7).trans ·)
    have hbusy : ((s.advance t).commanded k 7 e).phaseBusy k = s.phaseBusy k :=
      State.commanded_phaseBusy (s.advance t) k 7 e
    have hflds : (R.CELL_CMD k).all :: (F.CELL_STATE_SEQ_BUSY k :: s.phaseBusy k ++ lockFlds k) ⊆
        cmd :: F.CELL_STATE_SEQ_BUSY k :: F.WEAR_CELL_STAT_REC_PEND k :: busyOf ++ node ++ st := by
      simp +contextual [cmd, busyOf, node, st, List.subset_def, or_imp]
    have hend : (((s.advance t).commanded k 7 e).cmdEffect k 7).cellState k = 9 ∧
        (((s.advance t).commanded k 7 e).cmdEffect k 7).get (F.CELL_STATE_REASON k) = 0x13 := by
      rw [State.cmdEffect_lockout hq']
      exact ⟨State.lockOut_state .., State.lockOut_reason ..⟩
    exact effect_of_accepted (p := (7, .cellLockout t n k e)) (by simp [cellCommands]) hm hv hf hok
      (State.cmdEffect_lockout_frame hq') (Q := fun z => (z.cellState k = 9 ∧ z.get (F.CELL_STATE_REASON k) = 0x13) ∧
        (s.cellState k ≠ 9 → ((s.advance t).commanded k 7 e).Went z k 9 0x13) ∧
        ∃ due, (z.cell k).FaultClosing due)
      ⟨hend, fun h => State.cmdEffect_lockout_went hq' ((hstate 7).symm ▸ h), _, State.cmdEffect_lockout_closing hq'⟩
      (hbusy ▸ hflds) (by simp) fun _ ⟨⟨hst, hreason⟩, hw, _, hclosing⟩ => ⟨State.answer_status .., hst, hreason,
        fun h => hwent (hw h), hclosing.byp, hclosing.closed, hclosing.mode, hclosing.seq⟩
  case release =>
    exact effect_of_accepted (p := (8, .cellRelease t n k e)) (by simp [cellCommands]) hm hv hf hok
      (State.cmdEffect_release_frame ..) (Q := fun z => ((s.advance t).commanded k 8 e).Went z k 1 0x13 ∧
        (z.cell k).block = false ∧ (z.cell k).disp = none ∧ (z.cell k).ident0 = false ∧ (z.cell k).ident1 = false ∧
        (z.cell k).paramAsked = false)
      ⟨State.cmdEffect_release_went .., by rw [State.cmdEffect_release_cell]; exact ⟨rfl, rfl, rfl, rfl, rfl⟩⟩
      (by simp [cmd, node, st]) (by simp) fun _ ⟨hw, hnode⟩ => ⟨State.answer_status .., hwent hw, hnode⟩

end Sys2Proof.Machine
end
